-- ==== Sys2Proof/Word.lean ====
section
/-! DEFINITION. The words of the device: bytes, 32-bit register words (R9), the 64-bit registers of a ply (R54), and
the sparse table that every large array of the device is held in. -/
namespace Sys2Proof

/-- A byte. -/
abbrev Byte := BitVec 8
/-- A 32-bit register word (R9). -/
abbrev Word32 := BitVec 32
/-- A 64-bit ply register (02_packet_engines.md). -/
abbrev Word64 := BitVec 64

/-- A large array of the device as sparse data: keys strictly rising, and no entry equal to what an unlisted key
reads as. `Tbl.wf` (Machine/Tbl.lean) says so, and every table operation keeps it. -/
abbrev Tbl (α : Type) := List (Nat × α)

end Sys2Proof
end

