-- ==== Sys2Proof/Syntax.lean ====
section
/-! DEFINITION. The commands of the device (spec/opcode_table.json): register accesses, operations of engine programs,
descriptor opcodes, and the events at its pins, links and timers. -/
namespace Sys2Proof

/-- The commands that the block takes from outside: one constructor per row of the opcode table. -/
inductive Instr where
  /-- BAR0_REGISTER_WRITE (R12). A BAR0 write to a register that has no row of its own takes effect under the field access codes. -/
  | bar0RegisterWrite (addr : Nat) (size : Nat) (v : Nat)
  /-- PAIR_LOW_WORD_READ (R10). A read of the low word of a register pair loads the high-word latch of that access path. -/
  | pairLowWordRead (bmc : Bool) (addr : Nat) (size : Nat)
  /-- PAIR_HIGH_WORD_READ (R10). A read of the high word of a pair returns the latched value, or the live value when the latch belongs to another pair. -/
  | pairHighWordRead (bmc : Bool) (addr : Nat)
  /-- RC_FIELD_READ (R12). A read of an RC field returns its value and clears or reloads it in the same access. -/
  | rcFieldRead (addr : Nat)
  /-- TSLAST0_READ (R466). A read of LPT_TSLAST0 latches LPT_TSLAST1 and LPT_TSLAST2 for the following reads. -/
  | tslast0Read (port : Nat)
  /-- TIM_NOW0_READ (R602). A read of TIM_NOW0 latches TIM_NOW1 and TIM_NOW2. -/
  | timNow0Read
  /-- PPSCAP0_READ (R606). A read of TIM_PPSCAP0 latches the other two capture registers. -/
  | ppscap0Read
  /-- PWR_STAT_BMC_READ (R630). A BMC read of PWR_STAT raises BMC_ALERT_N. -/
  | pwrStatBmcRead
  /-- GEN_SEAL (R652). A write of GEN_SEAL with the key and sealed 1 seals set-up once the device is ready. -/
  | genSeal (v : Nat)
  /-- FRAME_RECEIVE (R459). A frame arrives on a line port; the MAC checks it, stamps it and passes it to the parser, or discards and counts it. -/
  | frameReceive (p : Nat) (frame : List Nat) (start : Nat) (lost : Option (Nat × Nat)) (bad : Bool) (cor : Nat) (unc : Nat) (sym : Nat)
  /-- PFC_FRAME_RECEIVE (R297). A received PFC frame pauses the enabled classes of the port for the received time. -/
  | pfcFrameReceive (p : Nat) (vector : Nat) (times : List Nat)
  /-- PAUSE_FRAME_RECEIVE (R298). A received PAUSE frame pauses every class when rx_pause is 1, and is otherwise counted and discarded. -/
  | pauseFrameReceive (p : Nat) (time : Nat)
  /-- PAUSE_EXPIRE (R297). The received pause time of a class ends and the MAC may start frames of that class again. -/
  | pauseExpire (p : Nat) (cls : Nat)
  /-- FLIT_RECEIVE (R24). A bridge flit arrives and is delivered in sequence-number order to its class. -/
  | flitReceive (ft : Bool) (seq : Nat) (badLane : Option Nat)
  /-- FLIT_ACK (R25). An acknowledgement frees replay space and lets a stopped transmitter resume. -/
  | flitAck (ft : Bool) (seq : Nat)
  /-- CONTROL_SHARE_WINDOW (R28). Each 1 us metering window of the control-class share ends and the share is counted anew. -/
  | controlShareWindow
  /-- BRIDGE_LANE_LOCK_LOSS (R31). A bridge lane loses lock; its module enters REPAIRING or LOST. -/
  | bridgeLaneLockLoss (ft : Bool) (m : Nat) (lane : Nat)
  /-- MODULE_REPAIR_DONE (R31). A module in REPAIRING finishes mapping a spare lane and returns to ACTIVE, or enters LOST. -/
  | moduleRepairDone (m : Nat) (ok : Bool)
  /-- MODULE_TRAINING_DONE (R31). A module's training attempt ends; it enters ACTIVE, retries, or enters LOST after three failures. -/
  | moduleTrainingDone (m : Nat) (ok : Bool)
  /-- SIDEBAND_HEARTBEAT_SEND (R35). Each 10 us each die sends a heartbeat over the sideband. -/
  | sidebandHeartbeatSend (fd : Bool)
  /-- SIDEBAND_MESSAGE_RECEIVE (R37). A sideband message arrives; a register access executes once by tag or a command applies. -/
  | sidebandMessageReceive (fd : Bool) (ok : Bool)
  /-- SIDEBAND_LOST (R39). No die heartbeat for 50 us; the device posts SIDEBAND_LOST. -/
  | sidebandLost
  /-- SIDEBAND_RESTORED (R39). Heartbeats have passed both ways for 1 ms and the device posts SIDEBAND_RESTORED. -/
  | sidebandRestored
  /-- AUX_FEED_OUT_OF_RANGE (R42). The island's feed leaves its range and the island moves to the other feed and posts AUX_FEED_SWITCHED. -/
  | auxFeedOutOfRange (b : Bool)
  /-- AUX_FEEDS_LOST (R43). Both auxiliary feeds leave their ranges and the island resets. -/
  | auxFeedsLost (torn : Bool)
  /-- TIME_SYNC_UPDATE (R44). Every 1.024 us the island updates the network-time followers of both dies. -/
  | timeSyncUpdate
  /-- PLY_DISPATCH (R82). The dispatcher gives a waiting packet to a cluster and slot and loads the ply registers. -/
  | plyDispatch (pipe : Nat) (egress : Bool) (upsets : List (Bool × Nat))
  /-- INGRESS_DISPATCH_ENQUEUE (R83). A packet joins its pipe's ingress dispatch queue, or is dropped when it is full. -/
  | ingressDispatchEnqueue (pipe : Nat)
  /-- EGRESS_DISPATCH_ENQUEUE (R84). A packet joins its pipe's egress dispatch queue, or is dropped when no cluster is EGRESS. -/
  | egressDispatchEnqueue (pipe : Nat)
  /-- NOP (R66). The operation does nothing. -/
  | nop (ply : Nat)
  /-- ADD (R66). rd gets ra plus B modulo 2^64. -/
  | add (ply : Nat)
  /-- SUB (R66). rd gets ra minus B modulo 2^64. -/
  | sub (ply : Nat)
  /-- AND (R66). rd gets ra and B. -/
  | and (ply : Nat)
  /-- OR (R66). rd gets ra or B. -/
  | or (ply : Nat)
  /-- XOR (R66). rd gets ra xor B. -/
  | xor (ply : Nat)
  /-- ANDN (R66). rd gets ra and not B. -/
  | andn (ply : Nat)
  /-- MOV (R66). rd gets B. -/
  | mov (ply : Nat)
  /-- MINU (R66). rd gets the unsigned minimum of ra and B. -/
  | minu (ply : Nat)
  /-- MAXU (R66). rd gets the unsigned maximum of ra and B. -/
  | maxu (ply : Nat)
  /-- MUL (R66). rd gets the low 64 bits of ra times B. -/
  | mul (ply : Nat)
  /-- CLZ (R66). rd gets the count of leading zero bits of ra. -/
  | clz (ply : Nat)
  /-- POPC (R66). rd gets the count of 1 bits of ra. -/
  | popc (ply : Nat)
  /-- BSWAP (R66). rd gets ra with its low B bytes reversed. -/
  | bswap (ply : Nat)
  /-- SHL (R66). rd gets ra shifted left. -/
  | shl (ply : Nat)
  /-- SHR (R66). rd gets ra shifted right logically. -/
  | shr (ply : Nat)
  /-- SAR (R66). rd gets ra shifted right arithmetically. -/
  | sar (ply : Nat)
  /-- ROL (R66). rd gets ra rotated left. -/
  | rol (ply : Nat)
  /-- EXTU (R66). rd gets an unsigned bit field of ra. -/
  | extu (ply : Nat)
  /-- EXTS (R66). rd gets a sign-extended bit field of ra. -/
  | exts (ply : Nat)
  /-- INS (R66). The low bits of ra are inserted into a field of rd. -/
  | ins (ply : Nat)
  /-- HMIX (R66). rd gets the CRC-32C of ra and B. -/
  | hmix (ply : Nat)
  /-- CEQ (R66). pd gets ra equal to B. -/
  | ceq (ply : Nat)
  /-- CNE (R66). pd gets ra not equal to B. -/
  | cne (ply : Nat)
  /-- CLTU (R66). pd gets ra below B, unsigned. -/
  | cltu (ply : Nat)
  /-- CLEU (R66). pd gets ra at or below B, unsigned. -/
  | cleu (ply : Nat)
  /-- CLTS (R66). pd gets ra below B, signed. -/
  | clts (ply : Nat)
  /-- CLES (R66). pd gets ra at or below B, signed. -/
  | cles (ply : Nat)
  /-- CBIT (R66). pd gets a bit of ra. -/
  | cbit (ply : Nat)
  /-- PAND (R66). pd gets pa and pb. -/
  | pand (ply : Nat)
  /-- POR (R66). pd gets pa or pb. -/
  | por (ply : Nat)
  /-- PXOR (R66). pd gets pa xor pb. -/
  | pxor (ply : Nat)
  /-- LD8U (R56). rd gets the byte at ra plus B, zero-extended. -/
  | ld8u (ply : Nat)
  /-- LD16U (R56). rd gets the 16-bit value at ra plus B in network order. -/
  | ld16u (ply : Nat)
  /-- LD32U (R56). rd gets the 32-bit value at ra plus B in network order. -/
  | ld32u (ply : Nat)
  /-- LD64 (R56). rd gets the 64-bit value at ra plus B in network order. -/
  | ld64 (ply : Nat)
  /-- ST8 (R56). The low byte of rd is stored at ra plus B. -/
  | st8 (ply : Nat)
  /-- ST16 (R56). The low 16 bits of rd are stored in network order. -/
  | st16 (ply : Nat)
  /-- ST32 (R56). The low 32 bits of rd are stored in network order. -/
  | st32 (ply : Nat)
  /-- ST64 (R56). All 64 bits of rd are stored in network order. -/
  | st64 (ply : Nat)
  /-- AADD (R60). Atomic add to program data, returning the old value. -/
  | aadd (ply : Nat)
  /-- ASWP (R60). Atomic swap with program data. -/
  | aswp (ply : Nat)
  /-- ACAS (R60). Atomic compare-and-swap on program data. -/
  | acas (ply : Nat)
  /-- AMAXU (R60). Atomic unsigned maximum on program data. -/
  | amaxu (ply : Nat)
  /-- BR (R66). Branches to the target bundle, or faults beyond the loaded length. -/
  | br (ply : Nat)
  /-- BRR (R66). Branches to the bundle held in ra. -/
  | brr (ply : Nat)
  /-- CALLS (R66). Sets g31 to the return bundle and branches. -/
  | calls (ply : Nat)
  /-- RET (R66). Branches to the bundle in g31. -/
  | ret (ply : Nat)
  /-- CALL (R72). Issues an accelerator call and parks the ply until its result is written. -/
  | call (ply : Nat)
  /-- CALLN (R72). Issues an accelerator call without parking. -/
  | calln (ply : Nat)
  /-- WAIT (R51). Parks the ply until every named tag has its result. -/
  | wait (ply : Nat)
  /-- POST (R69). Issues a call that returns no result; the ninth ends the ply with POST_LIMIT. -/
  | post (ply : Nat)
  /-- DONE (R76). Ends the ply; the packet proceeds as the forwarding result says. -/
  | done (ply : Nat)
  /-- DROP (R78). Ends the ply, drops the packet and counts it under the reason. -/
  | drop (ply : Nat)
  /-- TRAP (R97). Ends the ply with fault TRAP and captures the code. -/
  | trap (ply : Nat)
  /-- RECYCLE (R77). Ends the ply and sends the packet back to ingress through the recycle port. -/
  | recycle (ply : Nat)
  /-- CALL_RESULT_WRITTEN (R51). An accelerator writes a call result and a parked ply becomes ready. -/
  | callResultWritten (call : Nat)
  /-- CONTEXT_WATCHDOG (R99). A ply outlives ctx_wd and ends with WATCHDOG. -/
  | contextWatchdog (ply : Nat)
  /-- ENG_CLROLE_WRITE (R87). A role write starts a drain toward the new role, or is refused under R88. -/
  | engClroleWrite (c : Nat) (role : Nat)
  /-- ROLE_DRAIN_END (R87). The last ply of the old role ends and the cluster takes plies of the new role. -/
  | roleDrainEnd (c : Nat)
  /-- ENG_FLIP_REQUEST (R93). A write of ENG_BANKCTL.flip flips the live bank at the next dispatch, or is refused. -/
  | engFlipRequest (c : Nat)
  /-- BANK_DRAIN_END (R94). The last ply on a DRAINING bank ends; the bank becomes READY and ENG_FLIP_DONE is posted. -/
  | bankDrainEnd (c : Nat)
  /-- ENG_CNTCLR (R110). Writing 1 to ENG_CNTCLR clears every fault counter of the cluster. -/
  | engCntclr (c : Nat)
  /-- PROMOTION_DONE (R104). A spare takes over a dead engine's logical slot and dispatch resumes to it. -/
  | promotionDone (c : Nat) (slot : Nat)
  /-- SPARE_BACKGROUND_TEST (R521). Each 10 s a free spare is tested; one that fails reduces the free spares. -/
  | spareBackgroundTest (c : Nat) (pass : Bool)
  /-- FIB_LOOKUP (R124). A presented FIB call finds the longest matching prefix, or queues a tail descent. -/
  | fibLookup (call : Nat) (upsets : List (Nat × Nat × Bool))
  /-- TAIL_DESCENT (R130). A queued descent reads the Extended FIB tail block and returns the result. -/
  | tailDescent (pipe : Nat) (upsets : List (Nat × Nat × Bool))
  /-- EM_LOOKUP (R144). A presented EM call searches the bucket and overflow store. -/
  | emLookup (call : Nat) (upsets : List (Nat × Nat × Bool))
  /-- TER_LOOKUP (R148). A presented TER call returns the matching entry of lowest priority number. -/
  | terLookup (call : Nat) (upsets : List (Nat × Nat × Bool))
  /-- POL_UPDATE (R330). A presented POL call updates the policer and returns the colour. -/
  | polUpdate (call : Nat) (upsets : List (Nat × Nat × Bool))
  /-- CNT_POST (R154). A CNT post adds a packet and bytes to a counter pair, or is discarded on a key error. -/
  | cntPost (call : Nat)
  /-- ADJ_READ (R162). A presented ADJ call returns the adjacency data and version by state. -/
  | adjRead (call : Nat) (upsets : List (Nat × Nat × Bool))
  /-- BRG_LOOKUP (R179). A presented BRG call looks up the destination and applies the source sighting. -/
  | brgLookup (call : Nat) (upsets : List (Nat × Nat × Bool))
  /-- NOTICE_BATCH_HOLD_EXPIRE (R186). The oldest notice of a batch reaches hold_us and the batch is posted. -/
  | noticeBatchHoldExpire (pipe : Nat)
  /-- SWEEP_VISIT (R195). The aging sweep visits a bucket, decrementing age marks and removing aged entries. -/
  | sweepVisit (pipe : Nat)
  /-- BRG_ENABLE_WRITE (R175). A write of BRG_CFG.enable enables bridging, starts the sweep, or is refused. -/
  | brgEnableWrite (v : Nat)
  /-- AGE_PERIOD_WRITE (R198). A write of period_s starts, stops or re-times the sweep. -/
  | agePeriodWrite (period : Nat)
  /-- HOT_PERIOD_END (R136). A hot-prefix period ends and candidate tail blocks are chosen for copying. -/
  | hotPeriodEnd
  /-- HOT_COPY_DONE (R137). A hot copy is complete and the trie pointer moves to it. -/
  | hotCopyDone (root : Nat)
  /-- XFIB_ENABLE (R129). A write of 1 to LKP_XFIBCFG.enable enables the Extended FIB, or is refused. -/
  | xfibEnable
  /-- XFIB_DISABLE (R134). A write of 0 starts moving subtrees on-die, or empties the FIB when a channel is out. -/
  | xfibDisable
  /-- XFIB_DISABLE_DONE (R134). The last subtree move completes and the Extended FIB is disabled. -/
  | xfibDisableDone
  /-- HOT_UNITS_WRITE (R139). A write of hot_units evicts copies, moves subtrees, takes effect or is refused. -/
  | hotUnitsWrite (units : Nat)
  /-- HOT_UNITS_MOVE_DONE (R139). The subtree moves for a smaller placement complete and the hot_units write takes effect. -/
  | hotUnitsMoveDone
  /-- EM_TABLE_ENABLE (R140). A write enabling an EM table takes effect, or is refused for overlap or clearing. -/
  | emTableEnable (t : Nat) (v : Nat)
  /-- EM_TABLE_DISABLE (R142). A write clearing enable removes the table and starts background freeing. -/
  | emTableDisable (t : Nat) (v : Nat)
  /-- EM_CLEAR_DONE (R142). The last position of a disabled EM table is freed and clearing reads 0. -/
  | emClearDone (buckets : Nat)
  /-- ADJ_RETIRE_EXPIRE (R163). A retire timer expires; the adjacency becomes FREE and ADJ_RETIRED is posted. -/
  | adjRetireExpire (index : Nat)
  /-- TABLE_SCRUB (R170). The scrub visits a table word, corrects it or reports an uncorrectable error. -/
  | tableScrub (table : Nat) (index : Nat) (upsets : List (Nat × Nat × Bool)) (sram : Option (Nat × Nat × Nat × Bool × List Nat))
  /-- PARSER_FLIP_COMPLETE (R117). All four pipes have switched parser bank and LKP_PARSER_FLIPPED is posted. -/
  | parserFlipComplete
  /-- PACKET_ADMIT (R213). A packet offered to a queue passes admission and allocation, or is dropped with a reason. -/
  | packetAdmit (w : Nat)
  /-- CHAIN_LINK (R260). A writer links a fully written chain to its queue. -/
  | chainLink (w : Nat)
  /-- CHAIN_RELEASE (R237). A release is checked, decrements a share count or frees the chain's cells. -/
  | chainRelease (ptr : Nat) (gen : Nat) (unit : Nat)
  /-- PFC_REPEAT (R294). While above xon the port repeats the PFC frame each half pause time. -/
  | pfcRepeat (p : Nat) (cls : Nat)
  /-- PREFETCH_START (R225). The device starts copying a head-zone chain into the prefetch area once cells are free. -/
  | prefetchStart
  /-- EVICTION_START (R228). The device starts copying deep chains of a candidate queue into Reserve pages. -/
  | evictionStart
  /-- MOVE_SWAP (R221). A finished copy swaps into the queue entries, or is abandoned and counted. -/
  | moveSwap (src ecc : Nat)
  /-- BUFFER_AUDIT (R241). The background audit reclaims cells lost to uncorrectable errors. -/
  | bufferAudit
  /-- EVAC_DONE (R242). No chain is left on an evacuated pseudo-channel or channel and BPM_EVAC_DONE is posted. -/
  | evacDone (unit : Nat)
  /-- BUFFER_ENABLE_WRITE (R208). A write of BPM_CFG enables or disables the buffer and applies a pending deep_mcells. -/
  | bufferEnableWrite (v : Nat)
  /-- RESERVE_ENABLE_WRITE (R210). A write of BPM_RSVCFG.enable stripes the Reserve tier, or is refused. -/
  | reserveEnableWrite (v : Nat)
  /-- XBAR_SLOT (R257). Each crossbar slot the scheduler matches inputs to banks and moves cells. -/
  | xbarSlot
  /-- GRANT_RECEIVE (R270). A received GRANT adds credit to its VOQ's balance. -/
  | grantReceive (msg : List Nat)
  /-- REQUEST_RECEIVE (R277). A received REQUEST enters the credit flow table, its wait list, or is discarded. -/
  | requestReceive (msg : List Nat)
  /-- EMPTY_RECEIVE (R275). A received EMPTY lowers the flow's outstanding credit and may remove the flow. -/
  | emptyReceive (msg : List Nat)
  /-- CREDIT_STALE_REQUEST (R272). A starved VOQ sends REQUEST again after stale_us. -/
  | creditStaleRequest (v : Nat)
  /-- CREDIT_LOST_FLUSH (R273). A VOQ with no GRANT for lost_ms is flushed under CREDIT_LOST. -/
  | creditLostFlush (v : Nat)
  /-- CREDIT_EARN (R274). A credit generator earns a unit and grants it to an eligible flow. -/
  | creditEarn (d : Nat)
  /-- FLOW_RESYNC (R278). A flow with no cell for stale_us has its outstanding credit reset. -/
  | flowResync (dev : Nat) (voq : Nat)
  /-- FABRIC_SCHEDULE (R285). The fabric scheduler picks a VOQ and places its packet's cells in a link transmit queue. -/
  | fabricSchedule (ecc : Nat)
  /-- BUCKET_TXQ_EMPTY (R286). No cell of a held bucket remains in its link queue and the fabric delay starts. -/
  | bucketTxqEmpty (dev : Nat) (b : Nat)
  /-- FABRIC_DELAY_EXPIRE (R286). The fabric delay ends; the bucket points at its new link and the hold is released. -/
  | fabricDelayExpire (dev : Nat) (b : Nat)
  /-- LINK_DRAIN (R288). A write of QM_LINKCTL.drain starts a drain of the link. -/
  | linkDrain (l : Nat)
  /-- LINK_RESTORE (R290). A write of QM_LINKCTL.restore returns an OUT link to IN_SERVICE. -/
  | linkRestore (l : Nat)
  /-- UNREACH_EXPIRE (R292). A destination device stays unreachable for unreach_ms and its VOQs are flushed. -/
  | unreachExpire (dev : Nat)
  /-- PORT_HOLD_EXPIRE (R300). The hold time of a down port expires and its queues are flushed. -/
  | portHoldExpire (p : Nat)
  /-- QM_TCMD_WRITE (R305). The write bit of QM_TCMD writes the indirect entry, or is refused. -/
  | qmTcmdWrite
  /-- QM_TCMD_READ (R305). The read bit of QM_TCMD loads the indirect entry into QM_TDATA. -/
  | qmTcmdRead
  /-- EGRESS_SELECT (R315). A servable port selects a packet through the tree, charges shapers and updates tags. -/
  | egressSelect (ecc : Nat)
  /-- SCH_NODE_WRITE (R326). SCH_NCMD.write applies a node write, or refuses it. -/
  | schNodeWrite
  /-- SCH_NODE_READ (R322). SCH_NCMD.read loads the node and its evaluated token counts. -/
  | schNodeRead
  /-- NZ5_REFILL_BOUNDARY (R327). At a refill boundary pending NZ5 shaper changes apply. -/
  | nz5RefillBoundary
  /-- POLICER_WRITE (R333). POL_CMD.write sets a policer with full buckets, or is refused. -/
  | policerWrite
  /-- POLICER_READ (R333). POL_CMD.read loads the policer and its token counts. -/
  | policerRead
  /-- TG_ACTIVATE (R340). TG_CTL.activate computes the start time of the administrative list, or refuses it. -/
  | tgActivate (p : Nat)
  /-- TG_CANCEL (R342). TG_CTL.cancel discards a pending list. -/
  | tgCancel (p : Nat)
  /-- TG_DISABLE (R342). Clearing TG_CTL.enable stops the list and opens every gate. -/
  | tgDisable (p : Nat)
  /-- TG_LIST_START (R341). At S the administrative bank becomes operational and TG_LIST_STARTED is posted. -/
  | tgListStart (p : Nat)
  /-- TG_GATE_CHANGE (R338). A list entry boundary changes the gate states at the MAC. -/
  | tgGateChange (p : Nat)
  /-- TG_SCHEDULER_GATE (R337). At the lead time before a gate change the scheduler stops or resumes a class. -/
  | tgSchedulerGate (p : Nat)
  /-- TG_ENTRY_WRITE (R342). TG_ENTCMD.write writes an administrative entry, or is refused while pending. -/
  | tgEntryWrite (p : Nat)
  /-- TG_ENTRY_READ (R335). TG_ENTCMD.read loads an entry of the chosen bank. -/
  | tgEntryRead (p : Nat)
  /-- PCIE_LINK_TRAINED (R349). The PCIe link trains or retrains; a change posts HIF_LINK_CHANGE. -/
  | pcieLinkTrained (gen : Nat) (width : Nat) (flit : Bool)
  /-- PCIE_LINK_DOWN (R350). The link goes down or to D3hot; DMA stops and output is held. -/
  | pcieLinkDown (d3 : Bool)
  /-- DOORBELL (R358). A doorbell write moves a ring index, re-arms it, or is discarded or errors the ring. -/
  | doorbell (slot off size : Nat) (read : Bool) (value : Nat)
  /-- RCTL_START (R354). HIF_RCTL.start starts a ring as RING_START does. -/
  | rctlStart
  /-- RCTL_STOP (R384). HIF_RCTL.stop stops a ring as RING_STOP does. -/
  | rctlStop
  /-- RCTL_INVALIDATE (R355). HIF_RCTL.invalidate drops a ring's cached RCT entry. -/
  | rctlInvalidate
  /-- DESCRIPTOR_FETCH (R361). The device reads descriptors ahead of a ring's head; a failure errors the ring. -/
  | descriptorFetch (ring : Nat) (ok : Bool)
  /-- DESCRIPTOR_TAKE (R367). The executor takes the next command descriptor, or resumes a pre-empted one. -/
  | descriptorTake
  /-- RING_WRITEBACK (R356). The device writes a ring's head, completed index and state to wb_addr. -/
  | ringWriteback (ring : Nat)
  /-- TTL_EXPIRE (R376). A descriptor outlives ttl_ms and completes EXPIRED TTL. -/
  | ttlExpire (ring : Nat)
  /-- DESC_NO_PROGRESS (R377). A descriptor passes no entry boundary for desc_ms and completes EXPIRED NO_PROGRESS. -/
  | descNoProgress (ring : Nat)
  /-- RING_STALL (R378). A ring stalled for stall_ms refetches from its head and HIF_RING_STALL is posted. -/
  | ringStall (ring : Nat)
  /-- DMA_TIMEOUT (R379). A descriptor's DMA read gets no completion and completes FAULTED. -/
  | dmaTimeout (ring : Nat) (addr : Nat) (error : Bool)
  /-- TRANSLATION_FAULT (R380). A DMA meets a translation fault; the ring parks and a page request goes out. -/
  | translationFault (ring : Nat) (addr : Nat)
  /-- PAGE_RESPONSE (R381). A page request group response arrives and resumes or faults the parked descriptor. -/
  | pageResponse (ring : Nat) (success : Bool)
  /-- PARK_TIMEOUT (R382). A descriptor parked for park_ms completes FAULTED PRI_TIMEOUT. -/
  | parkTimeout (ring : Nat)
  /-- PUNT_WRITE (R385). A punt port selection writes a packet into a taken PUNT buffer. -/
  | puntWrite (cls : Nat)
  /-- EVENT_WRITE (R393). A waiting event record is written once its ring has room. -/
  | eventWrite (ring : Nat)
  /-- MSIX_MESSAGE (R395). A vector sends its MSI-X message by count or wait time. -/
  | msixMessage (v : Nat)
  /-- NOP_DESCRIPTOR (R365). A NOP command descriptor completes with no effect. -/
  | nopDescriptor (ring : Nat)
  /-- REG_WRITE (R654). Writes masked bits of a BAR0 register by command. -/
  | regWrite
  /-- REG_READ (R362). Returns a BAR0 register value in the completion. -/
  | regRead
  /-- REG_BULK (R654). Applies a buffer of register write records. -/
  | regBulk (n : Nat)
  /-- RING_START (R354). Starts a ring from its RCT entry, or refuses it. -/
  | ringStart
  /-- RING_STOP (R384). Ends the ring's taken descriptor and stops the ring. -/
  | ringStop
  /-- RCT_INVALIDATE (R355). Drops a stopped ring's cached RCT entry and returns it to OFF. -/
  | rctInvalidate
  /-- FIB_INSERT (R124). Adds or replaces a FIB prefix. -/
  | fibInsert
  /-- FIB_DELETE (R124). Removes a FIB prefix. -/
  | fibDelete
  /-- FIB_BULK (R158). Applies FIB insert and delete records in order. -/
  | fibBulk (n : Nat)
  /-- FIB_DUMP (R366). Writes FIB prefixes to the host in table order. -/
  | fibDump (n : Nat)
  /-- EM_INSERT (R143). Adds or replaces an exact-match entry in one or all regions. -/
  | emInsert
  /-- EM_DELETE (R146). Removes an exact-match entry in one or all regions. -/
  | emDelete
  /-- EM_BULK (R146). Applies EM insert and delete records in order. -/
  | emBulk (n : Nat)
  /-- EM_DUMP (R366). Writes EM entries of a region to the host. -/
  | emDump (n : Nat)
  /-- TER_WRITE (R149). Writes a ternary entry at an index. -/
  | terWrite
  /-- TER_DELETE (R149). Frees a ternary entry. -/
  | terDelete
  /-- ADJ_WRITE (R161). Writes an adjacency and makes it VALID. -/
  | adjWrite
  /-- ADJ_DELETE (R162). Makes a VALID adjacency RETIRING and starts its timer. -/
  | adjDelete
  /-- PARSER_LOAD (R116). Loads and validates the idle parser bank. -/
  | parserLoad (n : Nat)
  /-- PARSER_FLIP (R117). Makes the loaded parser bank live at each pipe's next packet. -/
  | parserFlip
  /-- TABLE_READ (R663). Returns one table entry in the completion. -/
  | tableRead
  /-- ENG_LOAD (R92). Loads an instruction bank and validates it. -/
  | engLoad (n : Nat)
  /-- ENG_FLIP (R93). Flips a cluster's live bank by command. -/
  | engFlip
  /-- PDATA_WRITE (R365). Writes program data of one or all clusters. -/
  | pdataWrite (n : Nat)
  /-- PDATA_READ (R365). Reads program data into a host buffer. -/
  | pdataRead (n : Nat)
  /-- IND_WRITE (R365). Writes an indirect table entry of a target. -/
  | indWrite
  /-- IND_READ (R365). Returns an indirect table entry. -/
  | indRead
  /-- IND_BULK (R365). Applies indirect write records in order. -/
  | indBulk (n : Nat)
  /-- QUEUE_FLUSH (R305). Empties one queue under HOST_FLUSH. -/
  | queueFlush
  /-- CNT_READ (R616). Reads counter pairs to a host buffer, optionally clearing them. -/
  | cntRead (n : Nat) (bad : List Nat)
  /-- UPD_OFFER (R544). Offers an update header over PCIe and opens a session, or is refused. -/
  | updOffer (flashErr : Bool)
  /-- UPD_BLOCK (R547). Writes image bytes of a PCIe session to the target area. -/
  | updBlock (n : Nat) (flashErr : Bool)
  /-- UPD_VERIFY (R549). Starts verification of a downloaded PCIe session. -/
  | updVerify
  /-- UPD_ACTIVATE (R556). Starts castling toward a verified image. -/
  | updActivate
  /-- UPD_CONFIRM (R565). Confirms the trial image and blows named revoke fuses. -/
  | updConfirm
  /-- UPD_ABORT (R567). Ends a session, reverting when in TRIAL. -/
  | updAbort
  /-- CHK_JOB (R574). Computes a CRC over a host buffer. -/
  | chkJob
  /-- SELFTEST (R595). Starts a self-test of an idle unit. -/
  | selftest
  /-- BLOCK_RESET (R587). Resets one block instance. -/
  | blockReset
  /-- REPAIR_CLUSTER_SRAM (R530). REPAIR kind 0 drains a cluster and repairs its SRAM. -/
  | repairClusterSram
  /-- REPAIR_PC_RETIRE (R426). REPAIR kind 1 retires an HBM pseudo-channel. -/
  | repairPcRetire
  /-- REPAIR_HBM_LANE (R425). REPAIR kind 2 maps a spare over an HBM lane. -/
  | repairHbmLane
  /-- REPAIR_LINK_RETIRE (R532). REPAIR kind 3 with bit 31 clear drains and retires a fabric link. -/
  | repairLinkRetire
  /-- REPAIR_LINK_RETURN (R532). REPAIR kind 3 with bit 31 set clears a link's retired mark. -/
  | repairLinkReturn
  /-- REPAIR_DDR_EVACUATE (R431). REPAIR kind 4 evacuates a DDR5 channel. -/
  | repairDdrEvacuate
  /-- REPAIR_DDR_RETURN (R433). REPAIR kind 5 powers, trains and returns an EVACUATED channel. -/
  | repairDdrReturn
  /-- SEAT_RESTART (R515). Restarts one seat, handing over the ACTIVE role first. -/
  | seatRestart
  /-- RESIGN_CLEAR (R519). Starts a self-test of a resigned unit. -/
  | resignClear
  /-- BRIDGE_RETRAIN (R526). Retrains one or all LOST bridge modules, rejoining a lost bridge. -/
  | bridgeRetrain
  /-- INJECT_EGRESS (R387). INJECT with target 0 reads a packet and admits it to an egress queue. -/
  | injectEgress (ring : Nat)
  /-- INJECT_INGRESS (R387). INJECT with target 1 reads a packet and sends it to ingress dispatch. -/
  | injectIngress (ring : Nat)
  /-- PUNT_BUF (R385). Posts a buffer for the device to fill with a punted packet. -/
  | puntBuf (ring : Nat)
  /-- MEMORY_TRAINING_DONE (R409). HBM or DDR5 training of a unit ends, in service, repaired or FAILED. -/
  | memoryTrainingDone (g : Nat) (fail : Nat) (nibble : Nat) (kind : Nat) (ranks : Nat) (cap : Nat) (rates : List Nat) (bad : List Nat) (sweeps : List (Nat × Nat))
  /-- MCD_ROLE_WRITE (R404). A write of MCD_CFG role or retain stores it, starts training or power-down, or is refused. -/
  | mcdRoleWrite (ch : Nat) (v : Nat)
  /-- RECENTRE (R411). Every 100 ms each lane group is re-centred, and a narrow one is swept fully. -/
  | recentre (u : Nat) (n : Nat) (edges : Nat × Nat × Nat × Nat) (sweep : Nat × Nat) (lane : Nat)
  /-- MEMORY_REQUEST (R412). A port request enters its controller's bank queue and may raise panic. -/
  | memoryRequest (u : Nat) (k : Nat) (write : Bool) (rank : Nat) (bank : Nat) (row : Nat) (col : Nat) (data : Nat)
  /-- MEMORY_COMMAND_ISSUE (R415). A controller chooses and issues its next command. -/
  | memoryCommandIssue (u : Nat) (err : Nat) (lane : Nat)
  /-- REFRESH_DUE (R418). A refresh falls due and is postponed or forced. -/
  | refreshDue (u : Nat) (rank : Nat)
  /-- MEMORY_TEMP_READ (R419). A stack or module temperature is read and double-rate mode is entered or left. -/
  | memoryTempRead (g : Nat) (ok : Bool) (t0 : Nat) (t1 : Nat)
  /-- ACTIVATE_TABLE_CLEAR (R420). Each 32 ms refresh window clears every activate table. -/
  | activateTableClear
  /-- PATROL_SCRUB (R422). The patrol scrub reads a location and writes back corrections. -/
  | patrolScrub (u : Nat)
  /-- LANE_REPAIR_DONE (R425). An HBM lane repair completes and MCH_LANE_REPAIRED is posted. -/
  | laneRepairDone (pc : Nat)
  /-- PC_RETIRE_DONE (R426). Evacuation and counter moves end; the pseudo-channel is RETIRED. -/
  | pcRetireDone (pc : Nat)
  /-- CHANNEL_EVACUATED (R431). An evacuating channel's data has gone; it powers down and MCD_EVACUATED is posted. -/
  | channelEvacuated (ch : Nat)
  /-- RANK_POWER_DOWN (R429). An idle rank enters power-down after pd_idle_ns. -/
  | rankPowerDown (ch : Nat) (rank : Nat)
  /-- SELF_REFRESH_ENTRY (R430). An idle RETAIN channel enters self-refresh after sr_idle_ms. -/
  | selfRefreshEntry (ch : Nat)
  /-- PORT_ENABLE (R439). Setting LPT_CFG.enable starts bring-up, or is refused. -/
  | portEnable (p : Nat) (v : Nat)
  /-- PORT_DISABLE (R439). Clearing LPT_CFG.enable disables the port and idles its lanes. -/
  | portDisable (p : Nat) (v : Nat)
  /-- BRINGUP_STEP_COMPLETE (R441). A bring-up step of a port ends and the next begins. -/
  | bringupStepComplete (p : Nat) (temp : Int) (got : List (Nat × Nat)) (order : List Nat)
  /-- BRINGUP_TIMEOUT (R444). A bring-up step overruns; the port restarts at step 2. -/
  | bringupTimeout (p : Nat) (late : List Nat)
  /-- POLARITY_SEARCH_SWITCH (R442). Every 200 us without block lock the receiver tries the other polarity. -/
  | polaritySearchSwitch (ln : Nat)
  /-- LANE_MARKER (R446). A lane marker or sighting advances the fabric lane's marker alignment. -/
  | laneMarker (f : Nat) (seen : Bool) (inv : Bool) (dist : Nat) (lane : Nat) (laneN : Nat) (cw : Nat) (seq : Nat) (bip : Nat) (eye : Nat)
  /-- LOSS_OF_SIGNAL_SET (R448). Low amplitude for 1 us sets loss of signal. -/
  | lossOfSignalSet (ln : Nat) (mv : Nat) (temp : Int)
  /-- LOSS_OF_SIGNAL_CLEAR (R448). Amplitude above threshold for 10 us clears loss of signal. -/
  | lossOfSignalClear (ln : Nat) (mv : Nat) (temp : Int)
  /-- LOSS_OF_LOCK_SET (R449). CDR out of lock for 2 us sets loss of lock. -/
  | lossOfLockSet (ln : Nat) (lock : Bool) (ppm : Int) (temp : Int)
  /-- LOSS_OF_LOCK_CLEAR (R449). CDR in lock for 20 us clears loss of lock. -/
  | lossOfLockClear (ln : Nat) (temp : Int)
  /-- LANE_STATE_REQUEST (R452). A write of SDS_CTL.req moves a free lane among OFF, IDLE and ACTIVE. -/
  | laneStateRequest (ln : Nat) (v : Nat) (errs : Nat)
  /-- FAULT_PENDING_EXPIRE (R455). The fault condition lasts down_us; the port enters DOWN. -/
  | faultPendingExpire (p : Nat)
  /-- UP_DEBOUNCE_EXPIRE (R454). The fault condition stays absent for up_ms; the port enters UP. -/
  | upDebounceExpire (p : Nat)
  /-- FRAME_TRANSMIT (R460). The MAC starts a frame, padding, timestamping and appending the FCS. -/
  | frameTransmit (p : Nat) (cls : Nat)
  /-- LINK_ENABLE (R470). Setting FLK_CTL.enable activates the link's lanes at its mode's rate. -/
  | linkEnable (l : Nat) (v : Nat)
  /-- LINK_DISABLE (R470). Clearing FLK_CTL.enable turns the lanes OFF and drains the link. -/
  | linkDisable (l : Nat) (v : Nat)
  /-- LINK_STANDBY (R471). A write of FLK_CTL.standby idles the lanes or wakes them. -/
  | linkStandby (l : Nat) (on : Bool)
  /-- FABRIC_FRAME_RECEIVE (R476). A fabric frame arrives; alignment advances and overhead fields are taken. -/
  | fabricFrameReceive (l : Nat) (raw : List Nat) (bip : Nat) (cor : Nat) (unc : Nat)
  /-- FABRIC_CELL_RECEIVE (R482). A fabric cell is reassembled into records, which are delivered when complete. -/
  | fabricCellReceive (l : Nat) (cell : List Nat) (lost : Option Nat)
  /-- FABRIC_FRAME_TRANSMIT (R475). The link sends a frame: an overhead cell with credits and rdi, then 63 slots of cells or idles. -/
  | fabricFrameTransmit (l : Nat)
  /-- DEFECT_DECLARE (R492). A receive defect condition persists for its set time and is declared. -/
  | defectDeclare (l : Nat) (d : Nat)
  /-- DEFECT_CLEAR (R492). A defect condition stays absent for its clear time and is cleared. -/
  | defectClear (l : Nat) (d : Nat)
  /-- SECOND_TICK (R495). The seconds field changes and each link latches its per-second counts. -/
  | secondTick
  /-- SEAT_OUTPUT (R502). A seat output is compared and released in sequence, or a mismatch is found. -/
  | seatOutput (b : Bool) (epoch : Nat) (seq : Nat) (value : Nat) (power : Option (Bool × Bool))
  /-- SEAT_EVIDENCE (R504). The island latches evidence against a seat, which is resigned or taken offline. -/
  | seatEvidence (b : Bool) (kind : Nat)
  /-- SELFCHECK_DONE (R505). The seats' self-check after a mismatch ends, attributing the mismatch or rolling back. -/
  | selfcheckDone (a : Bool × Bool × Bool) (b : Bool × Bool × Bool)
  /-- CHECKPOINT_COMMIT (R508). The seats commit a checkpoint by period or a full journal. -/
  | checkpointCommit (full : Bool) (copied : Bool) (agree : Bool)
  /-- ROLLBACK_DONE (R509). A rollback finishes its replay and the seats return to their roles. -/
  | rollbackDone
  /-- SEAT_HEARTBEAT_SEND (R511). Each seat sends heartbeats to the other seat and the island. -/
  | seatHeartbeatSend (b : Bool) (heard : Bool)
  /-- SEAT_HEARTBEAT_LOSS (R511). The seat heartbeat flag falls; takeover on evidence, else the standby detaches. -/
  | seatHeartbeatLoss (b : Bool)
  /-- DETACHED_RETURN (R512). Heartbeats pass both ways for 1 ms and a detached seat enters RESYNC. -/
  | detachedReturn (b : Bool)
  /-- SEAT_WEDGE (R513). The island hears no seat heartbeat for wedge_ms and restarts both seats. -/
  | seatWedge
  /-- SEAT_FEED_RETURN (R504). An OFFLINE seat's feed stays in range for 100 ms and the seat boots. -/
  | seatFeedReturn (b : Bool)
  /-- SEAT_BOOT_DONE (R515). A booting seat finishes its load and self-test and becomes ACTIVE, RESYNC or RESIGNED. -/
  | seatBootDone (b : Bool) (ok : Bool)
  /-- RESIGN_CLEAR_TEST_DONE (R519). A resigned unit's self-test ends; it returns to service or stays resigned. -/
  | resignClearTestDone (serial : Nat) (pass : Bool)
  /-- ENGINE_WATCHDOG (R520). An engine issues nothing for eng_wd_us and is declared dead. -/
  | engineWatchdog (c : Nat) (slot : Nat)
  /-- CLUSTER_WATCHDOG (R522). A cluster makes no progress for cl_wd_us and is reset. -/
  | clusterWatchdog (c : Nat)
  /-- BRIDGE_KEEPALIVE_SEND (R523). A transmitter sends a keepalive on an idle module after 1 us. -/
  | bridgeKeepaliveSend (ft : Bool) (m : Nat)
  /-- BRIDGE_KEEPALIVE_EXPIRE (R523). No flit arrives for ka_us; the bridge is lost and both dies enter island behaviour. -/
  | bridgeKeepaliveExpire (td : Bool)
  /-- VOQ_HOLD_EXPIRE (R523). The island VOQ hold ends and every VOQ is flushed as BRIDGE_LOST. -/
  | voqHoldExpire
  /-- AUTO_REJOIN (R526). With auto_rejoin, the device starts a rejoin once each second. -/
  | autoRejoin
  /-- D2D_RETRAIN (R526). A write of D2D_CTL.retrain retrains modules as BRIDGE_RETRAIN does. -/
  | d2dRetrain (m : Nat)
  /-- REJOIN_STEP_COMPLETE (R526). A rejoin step ends; the bridge reconciles and rejoins, or rejoin fails. -/
  | rejoinStepComplete
  /-- CLUSTER_REPAIR_STEP_DONE (R530). A step of cluster SRAM repair ends and the next begins. -/
  | clusterRepairStepDone (rows : List (Nat × Nat)) (spares : Nat) (bad : Nat) (slot : Nat)
  /-- AVS_MARGIN_CHECK (R533). Each second the die margins are read and the core-rail request is raised or lowered. -/
  | avsMarginCheck (fd : Nat) (td : Nat) (ackFd : Bool) (ackTd : Bool)
  /-- STRESS_SAMPLE (R534). Each second the hotter junction is sampled into the stress log. -/
  | stressSample
  /-- CHAIN_OFFER (R544). A chain OFFER opens a session, or is answered BUSY or REFUSE. -/
  | chainOffer (b : Bool) (m : List Nat) (flashErr : Bool)
  /-- CHAIN_ACCEPT (R554). A downstream ACCEPT lets the device forward blocks. -/
  | chainAccept (b : Bool) (m : List Nat)
  /-- CHAIN_BUSY (R555). A downstream BUSY stops forwarding and posts UPD_CHAIN_REFUSED. -/
  | chainBusy (b : Bool) (m : List Nat)
  /-- CHAIN_REFUSE (R555). A downstream REFUSE stops forwarding and posts UPD_CHAIN_REFUSED. -/
  | chainRefuse (b : Bool) (m : List Nat)
  /-- CHAIN_BLOCK (R553). A chain BLOCK at the expected offset is written and acknowledged. -/
  | chainBlock (b : Bool) (m : List Nat) (flashErr : Bool)
  /-- CHAIN_ACK (R553). A chain ACK advances the sender's unacknowledged window. -/
  | chainAck (b : Bool) (m : List Nat)
  /-- CHAIN_ABORT (R555). An ABORT from upstream ends the session and is passed on. -/
  | chainAbort (b : Bool) (m : List Nat)
  /-- CHAIN_HELLO (R552). A HELLO with a good check keeps a chain port up. -/
  | chainHello (b : Bool) (m : List Nat)
  /-- CHAIN_HELLO_SEND (R552). Each chain port sends HELLO every 1 ms. -/
  | chainHelloSend (b : Bool)
  /-- CHAIN_PORT_DOWN (R552). A chain port with no HELLO for 10 ms goes down. -/
  | chainPortDown (b : Bool)
  /-- CHAIN_RETRANSMIT (R553). ACK makes no progress for 1 ms and the sender resends. -/
  | chainRetransmit (b : Bool)
  /-- CHAIN_FORWARD_TIMEOUT (R555). Downstream makes no ACK progress for idle_s; forwarding stops and ABORT is sent. -/
  | chainForwardTimeout (b : Bool)
  /-- SESSION_IDLE_EXPIRE (R546). A downloading session receives nothing for idle_s and ends. -/
  | sessionIdleExpire
  /-- VERIFIED_HOLD_EXPIRE (R546). A session stays VERIFIED for hold_min and ends. -/
  | verifiedHoldExpire
  /-- VERIFICATION_DONE (R551). Verification ends; the area is sealed and UPD_VERIFIED posted, or the session ends. -/
  | verificationDone (flashErr : Bool)
  /-- CASTLING_STEP_COMPLETE (R557). A castling or revert step ends and the next begins. -/
  | castlingStepComplete (ok : Bool)
  /-- TRIAL_EXPIRE (R563). The trial timer expires and the device reverts. -/
  | trialExpire
  /-- RECOVERY_START (R572). cmd START with go begins a recovery install, or refuses a delta. -/
  | recoveryStart (data : List Nat) (flashErr : Bool)
  /-- RECOVERY_WRITE (R572). cmd WRITE with go writes a piece to the bank. -/
  | recoveryWrite (off : Nat) (len : Nat) (data : List Nat) (flashErr : Bool)
  /-- RECOVERY_FINISH (R572). cmd FINISH with go verifies, seals and confirms the bank. -/
  | recoveryFinish (flashErr : Bool)
  /-- RECOVERY_BOOT (R572). cmd BOOT with go leaves recovery and boots. -/
  | recoveryBoot
  /-- RECOVERY_DONE_EXPIRE (R572). DONE has shown for 10 ms and the device makes a cold reset. -/
  | recoveryDoneExpire
  /-- SYSRST_ASSERT (R580). SYSRST_N falls; the dies are held in reset and the rails lowered in order. -/
  | sysrstAssert
  /-- SYSRST_RELEASE (R582). SYSRST_N rises; straps are sampled and power sequencing may start. -/
  | sysrstRelease (recovery : Bool) (quad : Bool) (sris : Bool) (test : Bool)
  /-- POWER_SEQUENCE_START (R578). A feed has been in range 10 ms after release and the rail sequence begins. -/
  | powerSequenceStart
  /-- PSEQ_ENABLE_NEXT (R579). A group's power-good has been high 100 us and the next enable rises. -/
  | pseqEnableNext
  /-- PSEQ_PG_TIMEOUT (R579). A group's power-good does not rise within 10 ms; a power fault. -/
  | pseqPgTimeout
  /-- POWER_GOOD_FALL (R581). A power-good falls for 20 us with its enable high; a power fault lowers the rails. -/
  | powerGoodFall (g : Nat)
  /-- POWER_FAULT_RESTART (R581). 100 ms after a power fault the sequence restarts as a cold reset. -/
  | powerFaultRestart
  /-- RAIL_DOWN_NEXT (R580). The group above has fallen or 2 ms passed and the next enable is lowered. -/
  | railDownNext
  /-- PERST_ASSERT (R586). PERST_N or a PCIe hot reset resets the host interface. -/
  | perstAssert
  /-- RESET_ARM (R584). A write of GEN_RSTCTL.arm arms a reset request for 1 ms. -/
  | resetArm
  /-- COLD_RESET_REQUEST (R584). GEN_RSTCTL.cold power-cycles the rails, or is refused. -/
  | coldResetRequest
  /-- WARM_RESET_REQUEST (R585). GEN_RSTCTL.warm keeps RETAIN channels and reboots the dies, or is refused. -/
  | warmResetRequest
  /-- BOOT_STEP_COMPLETE (R588). A boot step ends and the next begins; step 11 sets ready. -/
  | bootStepComplete (aOk : Bool) (bOk : Bool) (bad : List Nat)
  /-- BOOT_STEP_TIMEOUT (R588). A boot step overruns its bound by 1 s and the island makes a cold reset. -/
  | bootStepTimeout
  /-- SELFTEST_DONE (R595). A self-test ends and GEN_SELFTEST_DONE is posted. -/
  | selftestDone (kind : Nat) (pass : Bool) (detail : Nat) (rows : List (Nat × Nat))
  /-- AUXCLK_LOSS (R643). AUXCLK_IN stops for 1 us; the island is held in reset and a cold reset follows. -/
  | auxclkLoss
  /-- TIME_STEP (R603). TIM_CTL.step loads TIM_SET into the counter, or is refused. -/
  | timeStep
  /-- TIME_OFFSET (R604). TIM_CTL.offset slews or steps the counter by TIM_OFFS. -/
  | timeOffset
  /-- SLEW_DONE (R604). A slew has applied its whole offset. -/
  | slewDone
  /-- TIM_FREQ_WRITE (R600). A write of TIM_FREQ sets the frequency adjustment, or is refused. -/
  | timFreqWrite (v : Nat)
  /-- PPS_EDGE (R606). A rising PPS_IN edge is captured, or ignored as a glitch. -/
  | ppsEdge (wide : Bool)
  /-- TOD_MESSAGE (R607). A time-of-day message is taken or discarded; a good pair drives the servo. -/
  | todMessage (msg : List Nat)
  /-- SERVO_HOLDOVER (R609). 3 s without a good pair puts the servo in HOLDOVER. -/
  | servoHoldover
  /-- COUNTER_WRITEBACK (R614). A cache entry is written back to counter storage after wb_us or on eviction. -/
  | counterWriteback (fd : Bool) (pair : Nat) (poison : Bool)
  /-- SEGMENT_HOME_WRITE (R612). A write of TEL_SEGMAP home starts, discards or moves a segment, or is refused. -/
  | segmentHomeWrite (seg : Nat) (home : Nat)
  /-- SEGMENT_MOVE_DONE (R612). A segment copy ends and TEL_SEG_MOVED is posted. -/
  | segmentMoveDone (seg : Nat)
  /-- TEL_SESSION_WRITE (R622). TEL_SCMD.write writes a sampling session, or refuses it. -/
  | telSessionWrite
  /-- TEL_SESSION_READ (R622). TEL_SCMD.read loads a sampling session. -/
  | telSessionRead
  /-- THERMAL_SAMPLE (R641). Each 1 ms the die sensors are read and the thermal alert set or cleared. -/
  | thermalSample (temps : List Int)
  /-- THERMTRIP (R642). A sensor at 115 C for 10 us drives THERMTRIP_N and removes the rails. -/
  | thermtrip (sensor : Nat) (temp : Nat)
  /-- RAIL_SAMPLE (R645). Each 1 ms each rail is read; a reading out of tolerance is flagged. -/
  | railSample (k : Nat) (mv : Nat)
  /-- AVS_RETRY (R636). An unacknowledged AVSBus write is retried each second. -/
  | avsRetry (ackFd : Bool) (ackTd : Bool)
  /-- BUS_MASTERING_RESTORED (R350). The function returns from D3hot to D0 or has bus mastering enabled again, and held completions and event records are written in order. -/
  | busMasteringRestored (enables alloc : Nat)
  /-- LOSS_OF_BLOCK_LOCK (R453). A line port receiver loses block lock, alignment or FEC codeword lock, so the fault condition appears. -/
  | lossOfBlockLock (p : Nat)
  /-- BLOCK_LOCK_REGAINED (R455). A line receiver that lost block lock, alignment or FEC lock without a port going DOWN regains it, clearing the fault condition so a FAULT_PENDING port returns to UP. -/
  | blockLockRegained (p : Nat)
  /-- FAULT_SEQUENCE_RECEIVE (R457). Local or remote fault sequences start or stop arriving on a line port, changing the fault condition and what the MAC sends. -/
  | faultSequenceReceive (p : Nat) (isLocal : Bool) (on : Bool)
  /-- AUXCLK_RETURN (R643). AUXCLK_IN returns after a loss, releasing the island from reset, and a cold reset follows. -/
  | auxclkReturn
  /-- SIDEBAND_RETRAIN (R527). While the sideband is lost, the island retrains it once in every 1 ms. -/
  | sidebandRetrain
  /-- CLUSTER_RESET_DONE (R522). A cluster reset by its watchdog or by BLOCK_RESET resumes service within 50 us and offers packet slots again. -/
  | clusterResetDone (c : Nat)
  /-- BLOCK_RESET_DONE (R587). A reset block is back in service after the time in Block resets and BLOCK_RESET completes DONE. -/
  | blockResetDone (base : Nat)
  deriving DecidableEq, Repr

end Sys2Proof
end

