-- ==== Sys2Proof/Config.lean ====
section
/-! DEFINITION. What the spec leaves open as values: constants without a body, so that no proof can see what they are. A free
value is one of these applied to a number that the state counts on, or to the operands it depends on. -/
namespace Sys2Proof

/-- A byte of a ply frame that nothing has written since dispatch (R54): the dispatch's number and the address. -/
opaque Config.plyFrame : Nat → Nat → BitVec 8

/-- The value of the resume token with a serial number (R373): the spec gives it no form. -/
opaque Config.token : Nat → BitVec 64

/-- What bytes 0 to 7 of a doorbell slot read, by the read's number (R352): the spec gives it no value. -/
opaque Config.bell : Nat → BitVec 64

/-- Which entry a full counter cache evicts (R614). -/
opaque Config.cacheVictim : Nat → Nat

/-- The pseudo-random number of a sampling decision (R620). -/
opaque Config.sample : Nat → Nat

/-- Which free cell, page, share table entry or crossbar input is tried first (R215, R232): the spec names none. -/
opaque Config.pick : Nat → Nat

/-- Which eighth of a DDR5 channel's bank array holds a thing, by its number and the channel (R430): the spec places nothing. -/
opaque Config.place : Nat → Nat → Nat

/-- A padding byte of a fabric cell, by the cell's number and the position (R480): the spec gives it no value. -/
opaque Config.pad : Nat → Nat → BitVec 8

end Sys2Proof
end

