-- ==== Sys2Proof/Machine/Tbl.lean ====
section
/-! DEFINITION. The operations of a sparse table, with what an unlisted key reads as given by the caller, and the
plain bit and byte helpers that every other file uses (R7: bit 0 is the least significant; R8: structures in host
memory are little-endian, header bytes are in network order). -/
namespace Sys2Proof

/-- What key `k` holds; `d` where the table lists nothing. -/
def Tbl.get {α : Type} (d : α) : Tbl α → Nat → α
  | [], _ => d
  | (k', v) :: r, k => if k' = k then v else Tbl.get d r k

/-- The table without key `k`. -/
def Tbl.erase {α : Type} : Tbl α → Nat → Tbl α
  | [], _ => []
  | (k', v) :: r, k => if k' = k then r else (k', v) :: Tbl.erase r k

/-- The table with `v` at key `k`, keys kept rising. -/
def Tbl.ins {α : Type} (k : Nat) (v : α) : Tbl α → Tbl α
  | [] => [(k, v)]
  | (k', v') :: r =>
    if k < k' then (k, v) :: (k', v') :: r
    else if k = k' then (k, v) :: r
    else (k', v') :: Tbl.ins k v r

/-- The table with `v` at key `k`; a value that an unlisted key reads as is not listed. -/
def Tbl.set {α : Type} [DecidableEq α] (d : α) (t : Tbl α) (k : Nat) (v : α) : Tbl α :=
  if v = d then Tbl.erase t k else Tbl.ins k v t

/-- The table with the value at key `k` replaced by `f` of it. -/
def Tbl.upd {α : Type} [DecidableEq α] (d : α) (t : Tbl α) (k : Nat) (f : α → α) : Tbl α :=
  Tbl.set d t k (f (Tbl.get d t k))

/-- Keys strictly rising from `lo`. -/
def Tbl.risingFrom {α : Type} : Nat → Tbl α → Bool
  | _, [] => true
  | lo, (k, _) :: r => decide (lo ≤ k) && Tbl.risingFrom (k + 1) r

/-- The canonical form: keys strictly rising, no entry equal to what an unlisted key reads as. -/
def Tbl.wf {α : Type} [DecidableEq α] (d : α) (t : Tbl α) : Bool :=
  Tbl.risingFrom 0 t && t.all (fun e => decide (e.2 ≠ d))

/-- The keys of the entries that satisfy `p`. -/
def Tbl.keysWhere {α : Type} (p : Nat → α → Bool) (t : Tbl α) : List Nat :=
  (t.filter (fun e => p e.1 e.2)).map (·.1)

/-- Every listed entry replaced by `f` of it; entries that become `d` are dropped. -/
def Tbl.mapAll {α : Type} [DecidableEq α] (d : α) (f : Nat → α → α) : Tbl α → Tbl α
  | [] => []
  | (k, v) :: r => let v' := f k v; if v' = d then Tbl.mapAll d f r else (k, v') :: Tbl.mapAll d f r

/-- Bits `lo` to `lo + w - 1` of `v`. -/
def bitsAt (v lo w : Nat) : Nat := v / 2 ^ lo % 2 ^ w

/-- Bit `i` of `v`. -/
def bitOf (v i : Nat) : Bool := v / 2 ^ i % 2 == 1

/-- A flag as a bit. -/
def b2n (b : Bool) : Nat := if b then 1 else 0

/-- `v` with bits `lo` to `lo + w - 1` replaced by `x`. -/
def putBits (v lo w x : Nat) : Nat := v - bitsAt v lo w * 2 ^ lo + x % 2 ^ w * 2 ^ lo

/-- A `w`-bit two's complement value read as an integer. -/
def signed (w v : Nat) : Int := if v < 2 ^ (w - 1) then (v : Int) else (v : Int) - (2 : Int) ^ w

/-- An integer as a `w`-bit two's complement value. -/
def unsigned (w : Nat) (i : Int) : Nat := (i % (2 : Int) ^ w).toNat

/-- The value of bytes, first byte least significant (R8, host memory). -/
def leNat : List Nat → Nat
  | [] => 0
  | b :: r => b % 256 + 256 * leNat r

/-- The value of bytes, first byte most significant (R8, header bytes). -/
def beNat (l : List Nat) : Nat := l.foldl (fun a b => a * 256 + b % 256) 0

/-- `n` little-endian bytes of `v`. -/
def leBytes : Nat → Nat → List Nat
  | 0, _ => []
  | n + 1, v => v % 256 :: leBytes n (v / 256)

/-- `n` network-order bytes of `v`. -/
def beBytes (n v : Nat) : List Nat := (leBytes n v).reverse

/-- Bytes `i` to `i + n - 1` of a block, 0 beyond its end. -/
def sliceB (l : List Nat) (i n : Nat) : List Nat :=
  let t := (l.drop i).take n
  t ++ List.replicate (n - t.length) 0

/-- The little-endian field of `n` bytes at byte `i`. -/
def leAt (l : List Nat) (i n : Nat) : Nat := leNat (sliceB l i n)

/-- A block with the bytes `b` written from byte `i`. -/
def patchB (l : List Nat) (i : Nat) (b : List Nat) : List Nat :=
  l.take i ++ List.replicate (i - l.length) 0 ++ b ++ l.drop (i + b.length)

/-- The list with element `i` replaced. -/
def setAt {α : Type} (l : List α) (i : Nat) (v : α) : List α := l.set i v

/-- Insertion of a number in rising order, without repeats. -/
def insNat (n : Nat) : List Nat → List Nat
  | [] => [n]
  | m :: r => if n < m then n :: m :: r else if n = m then m :: r else m :: insNat n r

/-- Rounds up to whole units of `u`. -/
def ceilDiv (n u : Nat) : Nat := (n + u - 1) / u

end Sys2Proof
end

