-- ==== Sys2Proof/Machine/Fld.lean ====
section
/-! DEFINITION. A register field as the spec's register tables give it (R7, R9, R12): where it lies, its access code,
the values a write accepts, and what an address decodes to. -/
namespace Sys2Proof.Machine

/-- A register field: the byte address of its register, its lowest bit, its width and its reset value. A field of a
register pair (R9) has the low word's address and up to 64 bits. -/
structure Fld where
  addr  : Nat
  lo    : Nat
  width : Nat
  reset : Nat
  deriving DecidableEq, Repr

/-- The key under which a field's value is held. -/
def Fld.key (f : Fld) : Nat := f.addr * 64 + f.lo

/-- The access codes (R12, *Access codes*). -/
inductive Acc where
  | rw | ro | wo | w1c | w1s | rc | rws
  deriving DecidableEq, Repr

/-- A field with its access code and the ranges of values a write accepts; no range means every value. -/
structure FldAcc where
  fld : Fld
  acc : Acc
  ok  : List (Nat × Nat)
  deriving DecidableEq, Repr

/-- Whether a write accepts the value `v` in the field ("other values are ignored"). -/
def FldAcc.accepts (f : FldAcc) (v : Nat) : Bool := f.ok.isEmpty || f.ok.any (fun r => r.1 ≤ v && v ≤ r.2)

/-- What a word address decodes to: nothing (a reserved address or a gap, R648), the fields of a register, or the low or
high word of a register pair (R9). -/
inductive RegAt where
  | none
  | word (fs : List FldAcc)
  | pairLo (f : FldAcc)
  | pairHi (f : FldAcc)
  deriving DecidableEq, Repr

end Sys2Proof.Machine
end

