-- ==== Sys2Proof/Machine/Regs.lean ====
section
/-! DEFINITION. The registers of BAR0 and of the recovery window (17_register_map.md, R647, and the register
tables of chapters 02 to 16): one `Fld` for every field that the spec names, under the register's own name. A register
pair (R9) is one field of 64 bits. -/
namespace Sys2Proof.Machine

/-- Base of serial lane `ln`: line lanes 0 to 127 at 0x48_0000, fabric lanes as 128 to 319 at 0x4C_0000 (R647). -/
def sdsBase (ln : Nat) : Nat := if ln < 128 then 0x480000 + 0x400 * ln else 0x4C0000 + 0x400 * (ln - 128)

/-- Reset of MCH_PORTCFG.target_ns and MCD_PORTCFG.target_ns per port (*Memory ports*, chapter 09). -/
def memPortTarget (k : Nat) : Nat :=
  match k with
  | 0 => 500 | 1 => 1000 | 2 => 400 | 3 => 20000 | 4 => 5000 | _ => 100000

def ENG_CLID.phys_engines (c : Nat) : Fld := ⟨0x80000 + 0x1000 * c, 8, 8, 68⟩
def ENG_CLID.pipe (c : Nat) : Fld := ⟨0x80000 + 0x1000 * c, 6, 2, c / 6⟩
def ENG_CLID.cluster (c : Nat) : Fld := ⟨0x80000 + 0x1000 * c, 0, 5, c⟩
def ENG_CLROLE.role (c : Nat) : Fld := ⟨0x80000 + 0x1000 * c + 0x4, 0, 2, 0⟩
def ENG_CLSTAT.slots_used (c : Nat) : Fld := ⟨0x80000 + 0x1000 * c + 0x8, 8, 12, 0⟩
def ENG_CLSTAT.refused (c : Nat) : Fld := ⟨0x80000 + 0x1000 * c + 0x8, 7, 1, 0⟩
def ENG_CLSTAT.draining (c : Nat) : Fld := ⟨0x80000 + 0x1000 * c + 0x8, 6, 1, 0⟩
def ENG_CLSTAT.role_now (c : Nat) : Fld := ⟨0x80000 + 0x1000 * c + 0x8, 4, 2, 0⟩
def ENG_BANKCTL.flip (c : Nat) : Fld := ⟨0x80000 + 0x1000 * c + 0x10, 8, 1, 0⟩
def ENG_BANKCTL.live_bank (c : Nat) : Fld := ⟨0x80000 + 0x1000 * c + 0x10, 0, 1, 0⟩
def ENG_BANKSTAT.fail_bundle (c : Nat) : Fld := ⟨0x80000 + 0x1000 * c + 0x14, 16, 15, 0⟩
def ENG_BANKSTAT.fail_rule (c : Nat) : Fld := ⟨0x80000 + 0x1000 * c + 0x14, 8, 8, 0⟩
def ENG_BANKSTAT.bank1_state (c : Nat) : Fld := ⟨0x80000 + 0x1000 * c + 0x14, 4, 3, 0⟩
def ENG_BANKSTAT.bank0_state (c : Nat) : Fld := ⟨0x80000 + 0x1000 * c + 0x14, 0, 3, 0⟩
def ENG_BANKLEN0.version (c : Nat) : Fld := ⟨0x80000 + 0x1000 * c + 0x18, 16, 16, 0⟩
def ENG_BANKLEN0.length (c : Nat) : Fld := ⟨0x80000 + 0x1000 * c + 0x18, 0, 16, 0⟩
def ENG_BANKLEN1.version (c : Nat) : Fld := ⟨0x80000 + 0x1000 * c + 0x1c, 16, 16, 0⟩
def ENG_BANKLEN1.length (c : Nat) : Fld := ⟨0x80000 + 0x1000 * c + 0x1c, 0, 16, 0⟩
def ENG_LIMITS.ctx_wd (c : Nat) : Fld := ⟨0x80000 + 0x1000 * c + 0x20, 16, 12, 20⟩
def ENG_LIMITS.bundle_limit (c : Nat) : Fld := ⟨0x80000 + 0x1000 * c + 0x20, 0, 12, 512⟩
def ENG_FAULTCAP0.valid (c : Nat) : Fld := ⟨0x80000 + 0x1000 * c + 0x30, 31, 1, 0⟩
def ENG_FAULTCAP0.bank (c : Nat) : Fld := ⟨0x80000 + 0x1000 * c + 0x30, 30, 1, 0⟩
def ENG_FAULTCAP0.slot (c : Nat) : Fld := ⟨0x80000 + 0x1000 * c + 0x30, 24, 6, 0⟩
def ENG_FAULTCAP0.cause (c : Nat) : Fld := ⟨0x80000 + 0x1000 * c + 0x30, 20, 4, 0⟩
def ENG_FAULTCAP0.bundle (c : Nat) : Fld := ⟨0x80000 + 0x1000 * c + 0x30, 0, 15, 0⟩
def ENG_FAULTCAP1.detail (c : Nat) : Fld := ⟨0x80000 + 0x1000 * c + 0x34, 0, 32, 0⟩
def ENG_FAULTCAP2.time_ns (c : Nat) : Fld := ⟨0x80000 + 0x1000 * c + 0x38, 0, 32, 0⟩
def ENG_EVTEN.cause_en (c : Nat) : Fld := ⟨0x80000 + 0x1000 * c + 0x40, 0, 10, 1023⟩
def ENG_CNTCLR.clear (c : Nat) : Fld := ⟨0x80000 + 0x1000 * c + 0x44, 0, 1, 0⟩
def ENG_FLTCNT.count (c cause : Nat) : Fld := ⟨0x80000 + 0x1000 * c + 0x100 + 8 * cause, 0, 48, 0⟩
def ENG_PLYCNT.count (c : Nat) : Fld := ⟨0x80000 + 0x1000 * c + 0x180, 0, 64, 0⟩
def ENG_BUNDLECNT.count (c : Nat) : Fld := ⟨0x80000 + 0x1000 * c + 0x188, 0, 64, 0⟩
def ENG_SLOTMAP.state (c s : Nat) : Fld := ⟨0x80000 + 0x1000 * c + 0x200 + 4 * s, 30, 2, 0⟩
def ENG_SLOTMAP.promotions (c s : Nat) : Fld := ⟨0x80000 + 0x1000 * c + 0x200 + 4 * s, 16, 8, 0⟩
def ENG_SPARES.free (c : Nat) : Fld := ⟨0x80000 + 0x1000 * c + 0x300, 0, 3, 4⟩
def ENG_DISPDROP.count (p : Nat) : Fld := ⟨0x9f000 + 8 * p, 0, 64, 0⟩
def ENG_NOEGR.count (p : Nat) : Fld := ⟨0x9f000 + 0x20 + 8 * p, 0, 64, 0⟩
def ENG_DROPBASE.base : Fld := ⟨0x9f000 + 0x40, 0, 26, 0⟩
def LKP_FIBCFG.hot_units : Fld := ⟨0x100000, 0, 22, 0⟩
def LKP_XFIBCFG.channels : Fld := ⟨0x100000 + 0x4, 4, 4, 0⟩
def LKP_XFIBCFG.refused : Fld := ⟨0x100000 + 0x4, 1, 1, 0⟩
def LKP_XFIBCFG.enable : Fld := ⟨0x100000 + 0x4, 0, 1, 0⟩
def LKP_FIBUSE.units : Fld := ⟨0x100000 + 0x8, 0, 23, 0⟩
def LKP_FIBCOUNT.prefixes : Fld := ⟨0x100000 + 0xc, 0, 27, 0⟩
def LKP_FIBTAILED.prefixes : Fld := ⟨0x100000 + 0x10, 0, 27, 0⟩
def LKP_TAILCFG.depth : Fld := ⟨0x100000 + 0x14, 0, 15, 2048⟩
def LKP_HOTCFG.period : Fld := ⟨0x100000 + 0x18, 16, 10, 10⟩
def LKP_HOTCFG.threshold : Fld := ⟨0x100000 + 0x18, 0, 16, 1000⟩
def LKP_HOTSTAT.units : Fld := ⟨0x100000 + 0x1c, 0, 22, 0⟩
def LKP_RETIRE.time_ms : Fld := ⟨0x100000 + 0x20, 0, 14, 500⟩
def LKP_RETIRECNT.entries : Fld := ⟨0x100000 + 0x24, 0, 22, 0⟩
def LKP_EMSTAT.clearing : Fld := ⟨0x100000 + 0x28, 1, 1, 0⟩
def LKP_EMSTAT.refused : Fld := ⟨0x100000 + 0x28, 0, 1, 0⟩
def LKP_PARSECTL.idle_state : Fld := ⟨0x100000 + 0x2c, 1, 2, 0⟩
def LKP_PARSECTL.live_bank : Fld := ⟨0x100000 + 0x2c, 0, 1, 0⟩
def LKP_EMCFG.enable (t : Nat) : Fld := ⟨0x100000 + 0x100 + 8 * t, 31, 1, 0⟩
def LKP_EMCFG.scope (t : Nat) : Fld := ⟨0x100000 + 0x100 + 8 * t, 30, 1, 0⟩
def LKP_EMCFG.keylen (t : Nat) : Fld := ⟨0x100000 + 0x100 + 8 * t, 28, 2, 0⟩
def LKP_EMCFG.bucket_bits (t : Nat) : Fld := ⟨0x100000 + 0x100 + 8 * t, 0, 5, 10⟩
def LKP_EMBASE.seed (t : Nat) : Fld := ⟨0x100000 + 0x104 + 8 * t, 16, 16, 0⟩
def LKP_EMBASE.base (t : Nat) : Fld := ⟨0x100000 + 0x104 + 8 * t, 0, 10, 0⟩
def LKP_OVFUSE.entries (p : Nat) : Fld := ⟨0x100000 + 0x300 + 4 * p, 0, 15, 0⟩
def LKP_TERPROF.enable (k : Nat) : Fld := ⟨0x100000 + 0x320 + 4 * k, 31, 1, 0⟩
def LKP_TERPROF.width (k : Nat) : Fld := ⟨0x100000 + 0x320 + 4 * k, 24, 4, 1⟩
def LKP_TERPROF.entries (k : Nat) : Fld := ⟨0x100000 + 0x320 + 4 * k, 0, 18, 0⟩
def LKP_TAILCNT.count (p : Nat) : Fld := ⟨0x100000 + 0x400 + 8 * p, 0, 64, 0⟩
def LKP_TAILOVL.count (p : Nat) : Fld := ⟨0x100000 + 0x420 + 8 * p, 0, 64, 0⟩
def LKP_PARSEERR.count (p : Nat) : Fld := ⟨0x100000 + 0x440 + 8 * p, 0, 64, 0⟩
def LKP_ECCCOR.count : Fld := ⟨0x100000 + 0x460, 0, 64, 0⟩
def LKP_ECCUNC.count : Fld := ⟨0x100000 + 0x468, 0, 64, 0⟩
def LKP_CNTERR.count : Fld := ⟨0x100000 + 0x470, 0, 64, 0⟩
def LKP_HOTCOPY.count : Fld := ⟨0x100000 + 0x478, 0, 64, 0⟩
def LKP_HOTEVICT.count : Fld := ⟨0x100000 + 0x480, 0, 64, 0⟩
def BRG_CFG.enable : Fld := ⟨0x140000, 6, 1, 0⟩
def BRG_CFG.table : Fld := ⟨0x140000, 0, 6, 0⟩
def BRG_AGECFG.period_s : Fld := ⟨0x140000 + 0x4, 0, 16, 75⟩
def BRG_MOVECFG.window_ms : Fld := ⟨0x140000 + 0x8, 16, 16, 1000⟩
def BRG_MOVECFG.hold_sweeps : Fld := ⟨0x140000 + 0x8, 4, 4, 2⟩
def BRG_MOVECFG.max_moves : Fld := ⟨0x140000 + 0x8, 0, 4, 4⟩
def BRG_LEARNCFG.hold_us : Fld := ⟨0x140000 + 0xc, 16, 14, 100⟩
def BRG_LEARNCFG.batch : Fld := ⟨0x140000 + 0xc, 0, 7, 16⟩
def BRG_CNTBASE.base : Fld := ⟨0x140000 + 0x10, 0, 26, 0⟩
def BRG_STAT.refused : Fld := ⟨0x140000 + 0x14, 0, 1, 0⟩
def BRG_DOMIDX.pipe : Fld := ⟨0x140000 + 0x20, 16, 2, 0⟩
def BRG_DOMIDX.domain : Fld := ⟨0x140000 + 0x20, 0, 16, 0⟩
def BRG_DOMCFG.learn_en : Fld := ⟨0x140000 + 0x24, 31, 1, 1⟩
def BRG_DOMCFG.limit : Fld := ⟨0x140000 + 0x24, 0, 20, 0⟩
def BRG_DOMSTAT.entries : Fld := ⟨0x140000 + 0x28, 0, 21, 0⟩
def BRG_LEARNED.count (p : Nat) : Fld := ⟨0x140000 + 0x100 + 64 * p, 0, 64, 0⟩
def BRG_MOVES.count (p : Nat) : Fld := ⟨0x140000 + 0x108 + 64 * p, 0, 64, 0⟩
def BRG_AGED.count (p : Nat) : Fld := ⟨0x140000 + 0x110 + 64 * p, 0, 64, 0⟩
def BRG_LEARNFAIL.count (p : Nat) : Fld := ⟨0x140000 + 0x118 + 64 * p, 0, 64, 0⟩
def BRG_FROZEN.count (p : Nat) : Fld := ⟨0x140000 + 0x120 + 64 * p, 0, 64, 0⟩
def BRG_CONFLICT.count (p : Nat) : Fld := ⟨0x140000 + 0x128 + 64 * p, 0, 64, 0⟩
def BRG_NOTICELOST.count (p : Nat) : Fld := ⟨0x140000 + 0x130 + 64 * p, 0, 64, 0⟩
def BPM_CFG.enable : Fld := ⟨0x180000, 31, 1, 0⟩
def BPM_CFG.deep_mcells : Fld := ⟨0x180000, 0, 8, 184⟩
def BPM_SHALCFG.prefetch_cells : Fld := ⟨0x180000 + 0x4, 0, 19, 131072⟩
def BPM_RSVCFG.enable : Fld := ⟨0x180000 + 0x8, 31, 1, 0⟩
def BPM_RSVCFG.channels : Fld := ⟨0x180000 + 0x8, 16, 4, 0⟩
def BPM_RSVCFG.rate_gbps : Fld := ⟨0x180000 + 0x8, 0, 12, 800⟩
def BPM_MOVECFG.tail_units : Fld := ⟨0x180000 + 0xc, 16, 16, 256⟩
def BPM_MOVECFG.guard_cells : Fld := ⟨0x180000 + 0xc, 0, 12, 64⟩
def BPM_LOWCFG.rsv_pct : Fld := ⟨0x180000 + 0x10, 16, 7, 10⟩
def BPM_LOWCFG.deep_pct : Fld := ⟨0x180000 + 0x10, 8, 7, 10⟩
def BPM_LOWCFG.shal_pct : Fld := ⟨0x180000 + 0x10, 0, 7, 10⟩
def BPM_FREESHAL.cells : Fld := ⟨0x180000 + 0x20, 0, 19, 0⟩
def BPM_FREEPREF.cells : Fld := ⟨0x180000 + 0x24, 0, 19, 0⟩
def BPM_FREEDEEP.cells : Fld := ⟨0x180000 + 0x28, 0, 31, 0⟩
def BPM_FREERSV.pages : Fld := ⟨0x180000 + 0x2c, 0, 24, 0⟩
def BPM_MINSHAL.min_ : Fld := ⟨0x180000 + 0x30, 0, 19, 0⟩
def BPM_MINPREF.min_ : Fld := ⟨0x180000 + 0x34, 0, 19, 0⟩
def BPM_MINDEEP.min_ : Fld := ⟨0x180000 + 0x38, 0, 31, 0⟩
def BPM_MINRSV.min_ : Fld := ⟨0x180000 + 0x3c, 0, 24, 0⟩
def BPM_SHAREUSE.entries : Fld := ⟨0x180000 + 0x40, 0, 20, 0⟩
def BPM_STAT.rsv_refused : Fld := ⟨0x180000 + 0x44, 0, 1, 0⟩
def BPM_FFCAP0.valid : Fld := ⟨0x180000 + 0x60, 31, 1, 0⟩
def BPM_FFCAP0.kind : Fld := ⟨0x180000 + 0x60, 22, 2, 0⟩
def BPM_FFCAP0.releaser : Fld := ⟨0x180000 + 0x60, 8, 8, 0⟩
def BPM_FFCAP0.owner : Fld := ⟨0x180000 + 0x60, 0, 8, 0⟩
def BPM_FFCAP1.ptr_lo : Fld := ⟨0x180000 + 0x64, 0, 32, 0⟩
def BPM_FFCAP2.gen : Fld := ⟨0x180000 + 0x68, 8, 8, 0⟩
def BPM_FFCAP2.ptr_hi : Fld := ⟨0x180000 + 0x68, 0, 8, 0⟩
def BPM_PFLIMIT.dyn_en (k : Nat) : Fld := ⟨0x180000 + 0x1000 + 64 * k, 31, 1, 1⟩
def BPM_PFLIMIT.max_cells (k : Nat) : Fld := ⟨0x180000 + 0x1000 + 64 * k, 0, 31, 16777216⟩
def BPM_PFDYN.alpha (k : Nat) : Fld := ⟨0x180000 + 0x1004 + 64 * k, 0, 4, 8⟩
def BPM_PFDEEP.deep_cells (k : Nat) : Fld := ⟨0x180000 + 0x1008 + 64 * k, 0, 31, 256⟩
def BPM_PFRSV.rsv_en (k : Nat) : Fld := ⟨0x180000 + 0x100c + 64 * k, 31, 1, 1⟩
def BPM_PFRSV.rsv_cells (k : Nat) : Fld := ⟨0x180000 + 0x100c + 64 * k, 0, 31, 4194304⟩
def BPM_PFAGE.rsv_age_us (k : Nat) : Fld := ⟨0x180000 + 0x1010 + 64 * k, 0, 24, 10000⟩
def BPM_PFHEAD.head_cells (k : Nat) : Fld := ⟨0x180000 + 0x1014 + 64 * k, 0, 13, 128⟩
def BPM_PFOCC.cells (k : Nat) : Fld := ⟨0x180000 + 0x1018 + 64 * k, 0, 32, 0⟩
def BPM_PFDROP.count (k : Nat) : Fld := ⟨0x180000 + 0x1020 + 64 * k, 0, 64, 0⟩
def BPM_DROPPKT.count (r : Nat) : Fld := ⟨0x180000 + 0x100 + 16 * r, 0, 64, 0⟩
def BPM_DROPBYTE.count (r : Nat) : Fld := ⟨0x180000 + 0x108 + 16 * r, 0, 64, 0⟩
def BPM_PREFETCH.count : Fld := ⟨0x180000 + 0x200, 0, 64, 0⟩
def BPM_EVICT.count : Fld := ⟨0x180000 + 0x208, 0, 64, 0⟩
def BPM_MOVEABORT.count : Fld := ⟨0x180000 + 0x210, 0, 64, 0⟩
def BPM_DOUBLEFREE.count : Fld := ⟨0x180000 + 0x218, 0, 64, 0⟩
def BPM_FOREIGNFREE.count : Fld := ⟨0x180000 + 0x220, 0, 64, 0⟩
def BPM_ECCCOR.count : Fld := ⟨0x180000 + 0x228, 0, 64, 0⟩
def BPM_RECLAIM.count : Fld := ⟨0x180000 + 0x230, 0, 64, 0⟩
def QM_CFG.enable : Fld := ⟨0x1c0000, 31, 1, 0⟩
def QM_CFG.dev_id : Fld := ⟨0x1c0000, 0, 11, 0⟩
def QM_CREDCFG.window : Fld := ⟨0x1c0000 + 0x4, 16, 12, 400⟩
def QM_CREDCFG.unit : Fld := ⟨0x1c0000 + 0x4, 0, 3, 3⟩
def QM_CREDTIME.lost_ms : Fld := ⟨0x1c0000 + 0x8, 16, 16, 0⟩
def QM_CREDTIME.stale_us : Fld := ⟨0x1c0000 + 0x8, 0, 16, 50⟩
def QM_LBCFG.rebalance : Fld := ⟨0x1c0000 + 0xc, 31, 1, 0⟩
def QM_LBCFG.unreach_ms : Fld := ⟨0x1c0000 + 0xc, 16, 14, 50⟩
def QM_LBCFG.fabric_delay_us : Fld := ⟨0x1c0000 + 0xc, 0, 10, 5⟩
def QM_XBARCFG.iters : Fld := ⟨0x1c0000 + 0x10, 0, 3, 3⟩
def QM_CNTBASE.base : Fld := ⟨0x1c0000 + 0x14, 0, 26, 0⟩
def QM_VCNTBASE.base : Fld := ⟨0x1c0000 + 0x18, 0, 26, 0⟩
def QM_PUNTQ.queue : Fld := ⟨0x1c0000 + 0x1c, 0, 20, 0⟩
def QM_TIDX.kind : Fld := ⟨0x1c0000 + 0x40, 28, 4, 0⟩
def QM_TIDX.index : Fld := ⟨0x1c0000 + 0x40, 0, 21, 0⟩
def QM_TCMD.refused : Fld := ⟨0x1c0000 + 0x54, 2, 1, 0⟩
def QM_TCMD.write : Fld := ⟨0x1c0000 + 0x54, 1, 1, 0⟩
def QM_TCMD.read : Fld := ⟨0x1c0000 + 0x54, 0, 1, 0⟩
def QM_LINKSTAT.state (l : Nat) : Fld := ⟨0x1c0000 + 0x100 + 4 * l, 30, 2, 2⟩
def QM_LINKSTAT.buckets (l : Nat) : Fld := ⟨0x1c0000 + 0x100 + 4 * l, 8, 18, 0⟩
def QM_LINKSTAT.txq (l : Nat) : Fld := ⟨0x1c0000 + 0x100 + 4 * l, 0, 8, 0⟩
def QM_LINKCTL.restore (l : Nat) : Fld := ⟨0x1c0000 + 0x200 + 4 * l, 1, 1, 0⟩
def QM_LINKCTL.drain (l : Nat) : Fld := ⟨0x1c0000 + 0x200 + 4 * l, 0, 1, 0⟩
def QM_PORTPOL.policy (p : Nat) : Fld := ⟨0x1c0000 + 0x1000 + 16 * p, 31, 1, 1⟩
def QM_PORTPOL.hold_ms (p : Nat) : Fld := ⟨0x1c0000 + 0x1000 + 16 * p, 0, 14, 50⟩
def QM_PORTAGE.age_ms (p : Nat) : Fld := ⟨0x1c0000 + 0x1004 + 16 * p, 0, 16, 5000⟩
def QM_PORTSTAT.state (p : Nat) : Fld := ⟨0x1c0000 + 0x1008 + 16 * p, 0, 2, 0⟩
def QM_PFCCFG.quanta (p : Nat) : Fld := ⟨0x1c0000 + 0x2000 + 64 * p, 16, 16, 65535⟩
def QM_PFCCFG.tx_en (p : Nat) : Fld := ⟨0x1c0000 + 0x2000 + 64 * p, 8, 8, 0⟩
def QM_PFCCFG.rx_pause (p : Nat) : Fld := ⟨0x1c0000 + 0x2000 + 64 * p, 0, 1, 0⟩
def QM_PFCRX.rx_en (p : Nat) : Fld := ⟨0x1c0000 + 0x2004 + 64 * p, 0, 8, 0⟩
def QM_PFCSTAT.paused (p : Nat) : Fld := ⟨0x1c0000 + 0x2008 + 64 * p, 8, 8, 0⟩
def QM_PFCSTAT.xoff (p : Nat) : Fld := ⟨0x1c0000 + 0x2008 + 64 * p, 0, 8, 0⟩
def QM_PFCTHR.xoff (p cls : Nat) : Fld := ⟨0x1c0000 + 0x2010 + 64 * p + 4 * cls, 16, 16, 65535⟩
def QM_PFCTHR.xon (p cls : Nat) : Fld := ⟨0x1c0000 + 0x2010 + 64 * p + 4 * cls, 0, 16, 65520⟩
def QM_DROPPKT.count (r : Nat) : Fld := ⟨0x1c0000 + 0x4000 + 16 * (r - 9), 0, 64, 0⟩
def QM_DROPBYTE.count (r : Nat) : Fld := ⟨0x1c0000 + 0x4008 + 16 * (r - 9), 0, 64, 0⟩
def QM_CREDCRC.count : Fld := ⟨0x1c0000 + 0x4100, 0, 64, 0⟩
def QM_CREDMISROUTE.count : Fld := ⟨0x1c0000 + 0x4108, 0, 64, 0⟩
def QM_CREDRESYNC.count : Fld := ⟨0x1c0000 + 0x4110, 0, 64, 0⟩
def QM_CREDWAITDROP.count : Fld := ⟨0x1c0000 + 0x4118, 0, 64, 0⟩
def QM_GRANTTX.count : Fld := ⟨0x1c0000 + 0x4120, 0, 64, 0⟩
def QM_GRANTRX.count : Fld := ⟨0x1c0000 + 0x4128, 0, 64, 0⟩
def QM_BUCKETMOVE.count : Fld := ⟨0x1c0000 + 0x4130, 0, 64, 0⟩
def QM_MCEMPTY.count : Fld := ⟨0x1c0000 + 0x4138, 0, 64, 0⟩
def QM_PFCTX.count (p : Nat) : Fld := ⟨0x1c0000 + 0x4200 + 8 * p, 0, 64, 0⟩
def QM_PFCRXCNT.count (p : Nat) : Fld := ⟨0x1c0000 + 0x4600 + 8 * p, 0, 64, 0⟩
def SCH_CFG.enable : Fld := ⟨0x200000, 0, 1, 0⟩
def SCH_STAT.reason : Fld := ⟨0x200000 + 0x4, 1, 3, 0⟩
def SCH_STAT.refused : Fld := ⟨0x200000 + 0x4, 0, 1, 0⟩
def SCH_NIDX.level : Fld := ⟨0x200000 + 0x10, 26, 3, 0⟩
def SCH_NIDX.index : Fld := ⟨0x200000 + 0x10, 0, 20, 0⟩
def SCH_NDATA0.enable : Fld := ⟨0x200000 + 0x14, 31, 1, 0⟩
def SCH_NDATA0.cnz5 : Fld := ⟨0x200000 + 0x14, 30, 1, 0⟩
def SCH_NDATA0.pnz5 : Fld := ⟨0x200000 + 0x14, 29, 1, 0⟩
def SCH_NDATA0.ctok : Fld := ⟨0x200000 + 0x14, 28, 1, 1⟩
def SCH_NDATA0.ptok : Fld := ⟨0x200000 + 0x14, 27, 1, 1⟩
def SCH_NDATA0.band : Fld := ⟨0x200000 + 0x14, 24, 3, 0⟩
def SCH_NDATA0.lprof : Fld := ⟨0x200000 + 0x14, 16, 4, 0⟩
def SCH_NDATA0.weight : Fld := ⟨0x200000 + 0x14, 0, 16, 1⟩
def SCH_NDATA1.parent : Fld := ⟨0x200000 + 0x18, 0, 18, 0⟩
def SCH_NDATA2.crate : Fld := ⟨0x200000 + 0x1c, 0, 28, 0⟩
def SCH_NDATA3.cburst : Fld := ⟨0x200000 + 0x20, 0, 25, 16384⟩
def SCH_NDATA4.prate : Fld := ⟨0x200000 + 0x24, 0, 28, 0⟩
def SCH_NDATA5.pburst : Fld := ⟨0x200000 + 0x28, 0, 25, 16384⟩
def SCH_NTOK0.tokens : Fld := ⟨0x200000 + 0x2c, 0, 32, 0⟩
def SCH_NTOK1.tokens : Fld := ⟨0x200000 + 0x30, 0, 32, 0⟩
def SCH_NCMD.write : Fld := ⟨0x200000 + 0x34, 1, 1, 0⟩
def SCH_NCMD.read : Fld := ⟨0x200000 + 0x34, 0, 1, 0⟩
def SCH_LENPROF.overhead (k : Nat) : Fld := ⟨0x200000 + 0x100 + 4 * k, 0, 8, 20⟩
def SCH_SELCNT.count : Fld := ⟨0x200000 + 0x200, 0, 64, 0⟩
def SCH_WITHDRAW.count : Fld := ⟨0x200000 + 0x208, 0, 64, 0⟩
def POL_CFG.cnt_base : Fld := ⟨0x240000, 0, 26, 0⟩
def POL_IDX.index : Fld := ⟨0x240000 + 0x10, 0, 21, 0⟩
def POL_DATA0.enable : Fld := ⟨0x240000 + 0x14, 31, 1, 0⟩
def POL_DATA0.mode : Fld := ⟨0x240000 + 0x14, 30, 1, 0⟩
def POL_DATA0.aware : Fld := ⟨0x240000 + 0x14, 29, 1, 0⟩
def POL_DATA0.count : Fld := ⟨0x240000 + 0x14, 28, 1, 0⟩
def POL_DATA1.cir : Fld := ⟨0x240000 + 0x18, 0, 28, 0⟩
def POL_DATA2.cbs : Fld := ⟨0x240000 + 0x1c, 0, 25, 0⟩
def POL_DATA3.pir : Fld := ⟨0x240000 + 0x20, 0, 28, 0⟩
def POL_DATA4.ebs_pbs : Fld := ⟨0x240000 + 0x24, 0, 25, 0⟩
def POL_DATA5.tc : Fld := ⟨0x240000 + 0x28, 0, 25, 0⟩
def POL_DATA6.te_tp : Fld := ⟨0x240000 + 0x2c, 0, 25, 0⟩
def POL_CMD.write : Fld := ⟨0x240000 + 0x30, 1, 1, 0⟩
def POL_CMD.read : Fld := ⟨0x240000 + 0x30, 0, 1, 0⟩
def POL_STAT.refused : Fld := ⟨0x240000 + 0x34, 0, 1, 0⟩
def TG_CTL.enable (port : Nat) : Fld := ⟨0x260000 + 0x100 * port, 31, 1, 0⟩
def TG_CTL.cancel (port : Nat) : Fld := ⟨0x260000 + 0x100 * port, 10, 1, 0⟩
def TG_CTL.activate (port : Nat) : Fld := ⟨0x260000 + 0x100 * port, 9, 1, 0⟩
def TG_CTL.init_gates (port : Nat) : Fld := ⟨0x260000 + 0x100 * port, 0, 8, 255⟩
def TG_BASE0.ns (port : Nat) : Fld := ⟨0x260000 + 0x100 * port + 0x4, 0, 32, 0⟩
def TG_BASE1.sec_lo (port : Nat) : Fld := ⟨0x260000 + 0x100 * port + 0x8, 0, 32, 0⟩
def TG_BASE2.sec_hi (port : Nat) : Fld := ⟨0x260000 + 0x100 * port + 0xc, 0, 16, 0⟩
def TG_CYCLE.ns (port : Nat) : Fld := ⟨0x260000 + 0x100 * port + 0x10, 0, 30, 1000000⟩
def TG_LEN.entries (port : Nat) : Fld := ⟨0x260000 + 0x100 * port + 0x14, 0, 11, 1⟩
def TG_START0.ns (port : Nat) : Fld := ⟨0x260000 + 0x100 * port + 0x1c, 0, 32, 0⟩
def TG_START1.sec_lo (port : Nat) : Fld := ⟨0x260000 + 0x100 * port + 0x20, 0, 32, 0⟩
def TG_START2.sec_hi (port : Nat) : Fld := ⟨0x260000 + 0x100 * port + 0x24, 0, 16, 0⟩
def TG_LEAD.lead_ns (port : Nat) : Fld := ⟨0x260000 + 0x100 * port + 0x28, 0, 15, 2000⟩
def TG_STAT.reason (port : Nat) : Fld := ⟨0x260000 + 0x100 * port + 0x18, 16, 3, 0⟩
def TG_STAT.gates (port : Nat) : Fld := ⟨0x260000 + 0x100 * port + 0x18, 8, 8, 255⟩
def TG_STAT.refused (port : Nat) : Fld := ⟨0x260000 + 0x100 * port + 0x18, 3, 1, 0⟩
def TG_STAT.advanced (port : Nat) : Fld := ⟨0x260000 + 0x100 * port + 0x18, 2, 1, 0⟩
def TG_STAT.pending (port : Nat) : Fld := ⟨0x260000 + 0x100 * port + 0x18, 1, 1, 0⟩
def TG_STAT.oper (port : Nat) : Fld := ⟨0x260000 + 0x100 * port + 0x18, 0, 1, 0⟩
def TG_ENTIDX.bank (port : Nat) : Fld := ⟨0x260000 + 0x100 * port + 0x30, 31, 1, 0⟩
def TG_ENTIDX.entry (port : Nat) : Fld := ⟨0x260000 + 0x100 * port + 0x30, 0, 10, 0⟩
def TG_ENTGATES.gates (port : Nat) : Fld := ⟨0x260000 + 0x100 * port + 0x34, 0, 8, 0⟩
def TG_ENTIVL.ns (port : Nat) : Fld := ⟨0x260000 + 0x100 * port + 0x38, 0, 30, 0⟩
def TG_ENTCMD.write (port : Nat) : Fld := ⟨0x260000 + 0x100 * port + 0x3c, 1, 1, 0⟩
def TG_ENTCMD.read (port : Nat) : Fld := ⟨0x260000 + 0x100 * port + 0x3c, 0, 1, 0⟩
def TG_NOFIT.count (port : Nat) : Fld := ⟨0x260000 + 0x100 * port + 0x40, 0, 64, 0⟩
def HIF_CFG.enable : Fld := ⟨0x10000, 31, 1, 0⟩
def HIF_LINKSTAT.up : Fld := ⟨0x10000 + 0x4, 31, 1, 0⟩
def HIF_LINKSTAT.flit : Fld := ⟨0x10000 + 0x4, 30, 1, 0⟩
def HIF_LINKSTAT.gen : Fld := ⟨0x10000 + 0x4, 8, 4, 0⟩
def HIF_LINKSTAT.width : Fld := ⟨0x10000 + 0x4, 0, 4, 0⟩
def HIF_RCTBASE0.addr_lo : Fld := ⟨0x10000 + 0x8, 6, 26, 0⟩
def HIF_RCTBASE1.addr_hi : Fld := ⟨0x10000 + 0xc, 0, 32, 0⟩
def HIF_RCTCFG.count : Fld := ⟨0x10000 + 0x10, 0, 13, 0⟩
def HIF_TIMEOUTS.stall_ms : Fld := ⟨0x10000 + 0x14, 16, 16, 100⟩
def HIF_TIMEOUTS.desc_ms : Fld := ⟨0x10000 + 0x14, 0, 16, 10⟩
def HIF_PRICFG.park_ms : Fld := ⟨0x10000 + 0x18, 0, 16, 1000⟩
def HIF_RIDX.ring : Fld := ⟨0x10000 + 0x40, 0, 12, 0⟩
def HIF_RSTAT.state : Fld := ⟨0x10000 + 0x44, 29, 3, 0⟩
def HIF_RSTAT.cause : Fld := ⟨0x10000 + 0x44, 26, 3, 0⟩
def HIF_RSTAT.parked : Fld := ⟨0x10000 + 0x44, 17, 1, 0⟩
def HIF_RSTAT.preempted : Fld := ⟨0x10000 + 0x44, 16, 1, 0⟩
def HIF_RSTAT.head : Fld := ⟨0x10000 + 0x44, 0, 16, 0⟩
def HIF_RTAIL.completed : Fld := ⟨0x10000 + 0x48, 16, 16, 0⟩
def HIF_RTAIL.tail : Fld := ⟨0x10000 + 0x48, 0, 16, 0⟩
def HIF_RPROG.progress : Fld := ⟨0x10000 + 0x4c, 0, 32, 0⟩
def HIF_RCTL.reason : Fld := ⟨0x10000 + 0x50, 4, 4, 0⟩
def HIF_RCTL.refused : Fld := ⟨0x10000 + 0x50, 3, 1, 0⟩
def HIF_RCTL.invalidate : Fld := ⟨0x10000 + 0x50, 2, 1, 0⟩
def HIF_RCTL.stop : Fld := ⟨0x10000 + 0x50, 1, 1, 0⟩
def HIF_RCTL.start : Fld := ⟨0x10000 + 0x50, 0, 1, 0⟩
def HIF_EVRING.valid (k : Nat) : Fld := ⟨0x10000 + 0x100 + 4 * k, 31, 1, 0⟩
def HIF_EVRING.ring (k : Nat) : Fld := ⟨0x10000 + 0x100 + 4 * k, 0, 12, 0⟩
def HIF_VMOD.count (v : Nat) : Fld := ⟨0x10000 + 0x400 + 4 * v, 24, 8, 1⟩
def HIF_VMOD.time_us (v : Nat) : Fld := ⟨0x10000 + 0x400 + 4 * v, 12, 12, 0⟩
def HIF_VMOD.gap_us (v : Nat) : Fld := ⟨0x10000 + 0x400 + 4 * v, 0, 12, 0⟩
def HIF_DUPCPL.count : Fld := ⟨0x10000 + 0x1000, 0, 64, 0⟩
def HIF_BADDB.count : Fld := ⟨0x10000 + 0x1008, 0, 64, 0⟩
def HIF_BADACC.count : Fld := ⟨0x10000 + 0x1010, 0, 64, 0⟩
def HIF_PRIREQ.count : Fld := ⟨0x10000 + 0x1018, 0, 64, 0⟩
def HIF_PREEMPT.count : Fld := ⟨0x10000 + 0x1020, 0, 64, 0⟩
def HIF_EXPIRED.count : Fld := ⟨0x10000 + 0x1028, 0, 64, 0⟩
def HIF_FAULTED.count : Fld := ⟨0x10000 + 0x1030, 0, 64, 0⟩
def HIF_EVLOST.count (k : Nat) : Fld := ⟨0x10000 + 0x1100 + 8 * k, 0, 64, 0⟩
def MCH_ID.pcs (stack : Nat) : Fld := ⟨0x300000 + 0x4000 * stack, 16, 8, 64⟩
def MCH_ID.rate (stack : Nat) : Fld := ⟨0x300000 + 0x4000 * stack, 8, 8, 0⟩
def MCH_ID.capacity_gib (stack : Nat) : Fld := ⟨0x300000 + 0x4000 * stack, 0, 8, 0⟩
def MCH_STAT.state (stack : Nat) : Fld := ⟨0x300000 + 0x4000 * stack + 0x4, 30, 2, 0⟩
def MCH_STAT.qos_target (stack : Nat) : Fld := ⟨0x300000 + 0x4000 * stack + 0x4, 29, 1, 0⟩
def MCH_STAT.refresh_2x (stack : Nat) : Fld := ⟨0x300000 + 0x4000 * stack + 0x4, 28, 1, 0⟩
def MCH_STAT.sensor_fault (stack : Nat) : Fld := ⟨0x300000 + 0x4000 * stack + 0x4, 27, 1, 0⟩
def MCH_STAT.temp_c (stack : Nat) : Fld := ⟨0x300000 + 0x4000 * stack + 0x4, 0, 8, 0⟩
def MCH_RACFG.radius (stack : Nat) : Fld := ⟨0x300000 + 0x4000 * stack + 0x8, 16, 2, 2⟩
def MCH_RACFG.threshold (stack : Nat) : Fld := ⟨0x300000 + 0x4000 * stack + 0x8, 0, 14, 2000⟩
def MCH_REPAIRCFG.auto_repair (stack : Nat) : Fld := ⟨0x300000 + 0x4000 * stack + 0xc, 31, 1, 1⟩
def MCH_REPAIRCFG.auto_retire (stack : Nat) : Fld := ⟨0x300000 + 0x4000 * stack + 0xc, 30, 1, 1⟩
def MCH_REPAIRCFG.ue_retire (stack : Nat) : Fld := ⟨0x300000 + 0x4000 * stack + 0xc, 16, 8, 16⟩
def MCH_REPAIRCFG.lane_ce (stack : Nat) : Fld := ⟨0x300000 + 0x4000 * stack + 0xc, 0, 16, 1000⟩
def MCH_SCRUB.period_h (stack : Nat) : Fld := ⟨0x300000 + 0x4000 * stack + 0x10, 0, 16, 24⟩
def MCH_EYEMIN.min_width (stack : Nat) : Fld := ⟨0x300000 + 0x4000 * stack + 0x14, 0, 6, 16⟩
def MCH_PORTCFG.panic_on (stack k : Nat) : Fld := ⟨0x300000 + 0x4000 * stack + 0x40 + 4 * k, 28, 4, 12⟩
def MCH_PORTCFG.panic_off (stack k : Nat) : Fld := ⟨0x300000 + 0x4000 * stack + 0x40 + 4 * k, 24, 4, 8⟩
def MCH_PORTCFG.target_ns (stack k : Nat) : Fld := ⟨0x300000 + 0x4000 * stack + 0x40 + 4 * k, 0, 20, memPortTarget k⟩
def MCH_PCSTAT.state (stack p : Nat) : Fld := ⟨0x300000 + 0x4000 * stack + 0x100 + 4 * p, 30, 2, 0⟩
def MCH_PCSTAT.spares_used (stack p : Nat) : Fld := ⟨0x300000 + 0x4000 * stack + 0x100 + 4 * p, 28, 2, 0⟩
def MCH_PCSTAT.eye_min (stack p : Nat) : Fld := ⟨0x300000 + 0x4000 * stack + 0x100 + 4 * p, 16, 6, 0⟩
def MCH_CE.count (stack : Nat) : Fld := ⟨0x300000 + 0x4000 * stack + 0x400, 0, 64, 0⟩
def MCH_UE.count (stack : Nat) : Fld := ⟨0x300000 + 0x4000 * stack + 0x408, 0, 64, 0⟩
def MCH_NBRREF.count (stack : Nat) : Fld := ⟨0x300000 + 0x4000 * stack + 0x410, 0, 64, 0⟩
def MCH_REFPOST.count (stack : Nat) : Fld := ⟨0x300000 + 0x4000 * stack + 0x418, 0, 64, 0⟩
def MCH_REFFORCE.count (stack : Nat) : Fld := ⟨0x300000 + 0x4000 * stack + 0x420, 0, 64, 0⟩
def MCH_REFRECOUNT.count (stack : Nat) : Fld := ⟨0x300000 + 0x4000 * stack + 0x428, 0, 64, 0⟩
def MCH_PANIC.count (stack : Nat) : Fld := ⟨0x300000 + 0x4000 * stack + 0x430, 0, 64, 0⟩
def MCD_CFG.role (ch : Nat) : Fld := ⟨0x380000 + 0x2000 * ch, 30, 2, 0⟩
def MCD_CFG.retain (ch : Nat) : Fld := ⟨0x380000 + 0x2000 * ch, 29, 1, 0⟩
def MCD_CFG.refused (ch : Nat) : Fld := ⟨0x380000 + 0x2000 * ch, 28, 1, 0⟩
def MCD_CFG.max_rate (ch : Nat) : Fld := ⟨0x380000 + 0x2000 * ch, 0, 16, 8800⟩
def MCD_STAT.state (ch : Nat) : Fld := ⟨0x380000 + 0x2000 * ch + 0x4, 28, 4, 1⟩
def MCD_STAT.qos_target (ch : Nat) : Fld := ⟨0x380000 + 0x2000 * ch + 0x4, 27, 1, 0⟩
def MCD_STAT.refresh_2x (ch : Nat) : Fld := ⟨0x380000 + 0x2000 * ch + 0x4, 26, 1, 0⟩
def MCD_STAT.sensor_fault (ch : Nat) : Fld := ⟨0x380000 + 0x2000 * ch + 0x4, 25, 1, 0⟩
def MCD_STAT.retained (ch : Nat) : Fld := ⟨0x380000 + 0x2000 * ch + 0x4, 24, 1, 0⟩
def MCD_STAT.rate (ch : Nat) : Fld := ⟨0x380000 + 0x2000 * ch + 0x4, 0, 16, 0⟩
def MCD_DIMM.type (ch : Nat) : Fld := ⟨0x380000 + 0x2000 * ch + 0x8, 30, 2, 0⟩
def MCD_DIMM.ranks (ch : Nat) : Fld := ⟨0x380000 + 0x2000 * ch + 0x8, 24, 3, 0⟩
def MCD_DIMM.capacity_gib (ch : Nat) : Fld := ⟨0x380000 + 0x2000 * ch + 0x8, 0, 9, 0⟩
def MCD_TEMP.ts1_c (ch : Nat) : Fld := ⟨0x380000 + 0x2000 * ch + 0xc, 8, 8, 0⟩
def MCD_TEMP.ts0_c (ch : Nat) : Fld := ⟨0x380000 + 0x2000 * ch + 0xc, 0, 8, 0⟩
def MCD_PWRCFG.sr_idle_ms (ch : Nat) : Fld := ⟨0x380000 + 0x2000 * ch + 0x10, 16, 16, 0⟩
def MCD_PWRCFG.pd_idle_ns (ch : Nat) : Fld := ⟨0x380000 + 0x2000 * ch + 0x10, 0, 16, 500⟩
def MCD_RACFG.radius (ch : Nat) : Fld := ⟨0x380000 + 0x2000 * ch + 0x14, 16, 2, 2⟩
def MCD_RACFG.threshold (ch : Nat) : Fld := ⟨0x380000 + 0x2000 * ch + 0x14, 0, 14, 2000⟩
def MCD_ERRCFG.fail_ue (ch : Nat) : Fld := ⟨0x380000 + 0x2000 * ch + 0x18, 0, 16, 100⟩
def MCD_SCRUB.period_h (ch : Nat) : Fld := ⟨0x380000 + 0x2000 * ch + 0x1c, 0, 16, 24⟩
def MCD_EYEMIN.min_width (ch : Nat) : Fld := ⟨0x380000 + 0x2000 * ch + 0x20, 0, 6, 16⟩
def MCD_EYE.rd_centre (ch n : Nat) : Fld := ⟨0x380000 + 0x2000 * ch + 0x100 + 4 * n, 24, 8, 0⟩
def MCD_EYE.rd_width (ch n : Nat) : Fld := ⟨0x380000 + 0x2000 * ch + 0x100 + 4 * n, 16, 8, 0⟩
def MCD_EYE.wr_centre (ch n : Nat) : Fld := ⟨0x380000 + 0x2000 * ch + 0x100 + 4 * n, 8, 8, 0⟩
def MCD_EYE.wr_width (ch n : Nat) : Fld := ⟨0x380000 + 0x2000 * ch + 0x100 + 4 * n, 0, 8, 0⟩
def LPT_CFG.enable (port : Nat) : Fld := ⟨0x400000 + 0x800 * port, 31, 1, 0⟩
def LPT_CFG.speed (port : Nat) : Fld := ⟨0x400000 + 0x800 * port, 28, 3, 0⟩
def LPT_CFG.lanes (port : Nat) : Fld := ⟨0x400000 + 0x800 * port, 24, 4, 1⟩
def LPT_CFG.fec (port : Nat) : Fld := ⟨0x400000 + 0x800 * port, 22, 2, 0⟩
def LPT_CFG.lt_en (port : Nat) : Fld := ⟨0x400000 + 0x800 * port, 21, 1, 0⟩
def LPT_CFG.tx_reverse (port : Nat) : Fld := ⟨0x400000 + 0x800 * port, 20, 1, 0⟩
def LPT_CFG.loopback (port : Nat) : Fld := ⟨0x400000 + 0x800 * port, 18, 2, 0⟩
def LPT_CFG.refused (port : Nat) : Fld := ⟨0x400000 + 0x800 * port, 17, 1, 0⟩
def LPT_STAT.state (port : Nat) : Fld := ⟨0x400000 + 0x800 * port + 0x4, 30, 2, 0⟩
def LPT_STAT.local_fault (port : Nat) : Fld := ⟨0x400000 + 0x800 * port + 0x4, 29, 1, 0⟩
def LPT_STAT.remote_fault (port : Nat) : Fld := ⟨0x400000 + 0x800 * port + 0x4, 28, 1, 0⟩
def LPT_STAT.aligned (port : Nat) : Fld := ⟨0x400000 + 0x800 * port + 0x4, 27, 1, 0⟩
def LPT_STAT.fec_lock (port : Nat) : Fld := ⟨0x400000 + 0x800 * port + 0x4, 26, 1, 0⟩
def LPT_STAT.down_cause (port : Nat) : Fld := ⟨0x400000 + 0x800 * port + 0x4, 20, 3, 0⟩
def LPT_STAT.lane_los (port : Nat) : Fld := ⟨0x400000 + 0x800 * port + 0x4, 8, 8, 0⟩
def LPT_STAT.lane_lol (port : Nat) : Fld := ⟨0x400000 + 0x800 * port + 0x4, 0, 8, 0⟩
def LPT_LINKCFG.down_us (port : Nat) : Fld := ⟨0x400000 + 0x800 * port + 0x8, 16, 16, 100⟩
def LPT_LINKCFG.up_ms (port : Nat) : Fld := ⟨0x400000 + 0x800 * port + 0x8, 0, 14, 10⟩
def LPT_MAXLEN.max_len (port : Nat) : Fld := ⟨0x400000 + 0x800 * port + 0xc, 0, 14, 9216⟩
def LPT_MACADDR0.addr_lo (port : Nat) : Fld := ⟨0x400000 + 0x800 * port + 0x10, 0, 32, 0⟩
def LPT_MACADDR1.addr_hi (port : Nat) : Fld := ⟨0x400000 + 0x800 * port + 0x14, 0, 16, 0⟩
def LPT_TXCFG.force_rf (port : Nat) : Fld := ⟨0x400000 + 0x800 * port + 0x18, 31, 1, 0⟩
def LPT_TXCFG.ipg (port : Nat) : Fld := ⟨0x400000 + 0x800 * port + 0x18, 0, 8, 12⟩
def LPT_TSDELAY.tx_adj (port : Nat) : Fld := ⟨0x400000 + 0x800 * port + 0x1c, 16, 16, 0⟩
def LPT_TSDELAY.rx_adj (port : Nat) : Fld := ⟨0x400000 + 0x800 * port + 0x1c, 0, 16, 0⟩
def LPT_TSLAST0.ns (port : Nat) : Fld := ⟨0x400000 + 0x800 * port + 0x20, 0, 32, 0⟩
def LPT_TSLAST1.sec_lo (port : Nat) : Fld := ⟨0x400000 + 0x800 * port + 0x24, 0, 32, 0⟩
def LPT_TSLAST2.tag (port : Nat) : Fld := ⟨0x400000 + 0x800 * port + 0x28, 24, 8, 0⟩
def LPT_TSLAST2.sec_hi (port : Nat) : Fld := ⟨0x400000 + 0x800 * port + 0x28, 0, 16, 0⟩
def LPT_RXFRM.count (port : Nat) : Fld := ⟨0x400000 + 0x800 * port + 0x100, 0, 64, 0⟩
def LPT_RXBYTE.count (port : Nat) : Fld := ⟨0x400000 + 0x800 * port + 0x108, 0, 64, 0⟩
def LPT_RXFCS.count (port : Nat) : Fld := ⟨0x400000 + 0x800 * port + 0x110, 0, 64, 0⟩
def LPT_RXRUNT.count (port : Nat) : Fld := ⟨0x400000 + 0x800 * port + 0x118, 0, 64, 0⟩
def LPT_RXOVER.count (port : Nat) : Fld := ⟨0x400000 + 0x800 * port + 0x120, 0, 64, 0⟩
def LPT_RXCTRL.count (port : Nat) : Fld := ⟨0x400000 + 0x800 * port + 0x128, 0, 64, 0⟩
def LPT_RXDOWN.count (port : Nat) : Fld := ⟨0x400000 + 0x800 * port + 0x130, 0, 64, 0⟩
def LPT_TXFRM.count (port : Nat) : Fld := ⟨0x400000 + 0x800 * port + 0x138, 0, 64, 0⟩
def LPT_TXBYTE.count (port : Nat) : Fld := ⟨0x400000 + 0x800 * port + 0x140, 0, 64, 0⟩
def LPT_TXDOWN.count (port : Nat) : Fld := ⟨0x400000 + 0x800 * port + 0x148, 0, 64, 0⟩
def LPT_TXERR.count (port : Nat) : Fld := ⟨0x400000 + 0x800 * port + 0x150, 0, 64, 0⟩
def LPT_TSERR.count (port : Nat) : Fld := ⟨0x400000 + 0x800 * port + 0x158, 0, 64, 0⟩
def LPT_FECCOR.count (port : Nat) : Fld := ⟨0x400000 + 0x800 * port + 0x160, 0, 64, 0⟩
def LPT_FECUNC.count (port : Nat) : Fld := ⟨0x400000 + 0x800 * port + 0x168, 0, 64, 0⟩
def LPT_FECSYM.count (port : Nat) : Fld := ⟨0x400000 + 0x800 * port + 0x170, 0, 64, 0⟩
def LPT_LINKDOWN.count (port : Nat) : Fld := ⟨0x400000 + 0x800 * port + 0x178, 0, 64, 0⟩
def SDS_CTL.req (ln : Nat) : Fld := ⟨sdsBase ln, 30, 2, 0⟩
def SDS_CTL.rate (ln : Nat) : Fld := ⟨sdsBase ln, 27, 3, 0⟩
def SDS_CTL.tx_invert (ln : Nat) : Fld := ⟨sdsBase ln, 26, 1, 0⟩
def SDS_CTL.rx_pol_auto (ln : Nat) : Fld := ⟨sdsBase ln, 25, 1, 1⟩
def SDS_CTL.rx_invert (ln : Nat) : Fld := ⟨sdsBase ln, 24, 1, 0⟩
def SDS_CTL.prbs (ln : Nat) : Fld := ⟨sdsBase ln, 22, 2, 0⟩
def SDS_CTL.refused (ln : Nat) : Fld := ⟨sdsBase ln, 21, 1, 0⟩
def SDS_STAT.state (ln : Nat) : Fld := ⟨sdsBase ln + 0x4, 30, 2, 0⟩
def SDS_STAT.los (ln : Nat) : Fld := ⟨sdsBase ln + 0x4, 29, 1, 0⟩
def SDS_STAT.lol (ln : Nat) : Fld := ⟨sdsBase ln + 0x4, 28, 1, 0⟩
def SDS_STAT.rx_inverted (ln : Nat) : Fld := ⟨sdsBase ln + 0x4, 27, 1, 0⟩
def SDS_STAT.adapted (ln : Nat) : Fld := ⟨sdsBase ln + 0x4, 26, 1, 0⟩
def SDS_STAT.adapt_stored (ln : Nat) : Fld := ⟨sdsBase ln + 0x4, 25, 1, 0⟩
def SDS_STAT.align (ln : Nat) : Fld := ⟨sdsBase ln + 0x4, 23, 2, 0⟩
def SDS_STAT.lane (ln : Nat) : Fld := ⟨sdsBase ln + 0x4, 21, 2, 0⟩
def SDS_STAT.cw_pos (ln : Nat) : Fld := ⟨sdsBase ln + 0x4, 16, 5, 0⟩
def SDS_STAT.seq (ln : Nat) : Fld := ⟨sdsBase ln + 0x4, 0, 16, 0⟩
def SDS_SIGCFG.los_mv (ln : Nat) : Fld := ⟨sdsBase ln + 0x8, 0, 8, 60⟩
def SDS_TXEQ.pre2 (ln : Nat) : Fld := ⟨sdsBase ln + 0xc, 24, 8, 0⟩
def SDS_TXEQ.pre1 (ln : Nat) : Fld := ⟨sdsBase ln + 0xc, 16, 8, 248⟩
def SDS_TXEQ.main_ (ln : Nat) : Fld := ⟨sdsBase ln + 0xc, 8, 8, 56⟩
def SDS_TXEQ.post1 (ln : Nat) : Fld := ⟨sdsBase ln + 0xc, 0, 8, 0⟩
def SDS_EYE.eye_mv (ln : Nat) : Fld := ⟨sdsBase ln + 0x10, 16, 16, 0⟩
def SDS_EYE.snr (ln : Nat) : Fld := ⟨sdsBase ln + 0x10, 0, 16, 0⟩
def SDS_LOSCNT.count (ln : Nat) : Fld := ⟨sdsBase ln + 0x100, 0, 64, 0⟩
def SDS_LOLCNT.count (ln : Nat) : Fld := ⟨sdsBase ln + 0x108, 0, 64, 0⟩
def SDS_REACQ.count (ln : Nat) : Fld := ⟨sdsBase ln + 0x110, 0, 64, 0⟩
def SDS_PRBSERR.count (ln : Nat) : Fld := ⟨sdsBase ln + 0x118, 0, 64, 0⟩
def SDS_MKRERR.count (ln : Nat) : Fld := ⟨sdsBase ln + 0x120, 0, 64, 0⟩
def SDS_BIPERR.count (ln : Nat) : Fld := ⟨sdsBase ln + 0x128, 0, 64, 0⟩
def FLK_CTL.enable (link : Nat) : Fld := ⟨0x500000 + 0x1000 * link, 31, 1, 0⟩
def FLK_CTL.mode (link : Nat) : Fld := ⟨0x500000 + 0x1000 * link, 30, 1, 0⟩
def FLK_CTL.standby (link : Nat) : Fld := ⟨0x500000 + 0x1000 * link, 29, 1, 0⟩
def FLK_CTL.tx_reverse (link : Nat) : Fld := ⟨0x500000 + 0x1000 * link, 28, 1, 0⟩
def FLK_CTL.force_rdi (link : Nat) : Fld := ⟨0x500000 + 0x1000 * link, 27, 1, 0⟩
def FLK_CTL.psr_tx (link : Nat) : Fld := ⟨0x500000 + 0x1000 * link, 26, 1, 0⟩
def FLK_CTL.plane (link : Nat) : Fld := ⟨0x500000 + 0x1000 * link, 24, 2, 0⟩
def FLK_STAT.frame (link : Nat) : Fld := ⟨0x500000 + 0x1000 * link + 0x4, 30, 2, 0⟩
def FLK_STAT.aligned (link : Nat) : Fld := ⟨0x500000 + 0x1000 * link + 0x4, 29, 1, 0⟩
def FLK_STAT.los (link : Nat) : Fld := ⟨0x500000 + 0x1000 * link + 0x4, 28, 1, 0⟩
def FLK_STAT.loa (link : Nat) : Fld := ⟨0x500000 + 0x1000 * link + 0x4, 27, 1, 0⟩
def FLK_STAT.lof (link : Nat) : Fld := ⟨0x500000 + 0x1000 * link + 0x4, 26, 1, 0⟩
def FLK_STAT.tx_defect (link : Nat) : Fld := ⟨0x500000 + 0x1000 * link + 0x4, 25, 1, 0⟩
def FLK_STAT.rdi_tx (link : Nat) : Fld := ⟨0x500000 + 0x1000 * link + 0x4, 24, 1, 0⟩
def FLK_STAT.id_mismatch (link : Nat) : Fld := ⟨0x500000 + 0x1000 * link + 0x4, 23, 1, 0⟩
def FLK_STAT.rdi_cause_rx (link : Nat) : Fld := ⟨0x500000 + 0x1000 * link + 0x4, 20, 3, 0⟩
def FLK_STAT.psr_rx (link : Nat) : Fld := ⟨0x500000 + 0x1000 * link + 0x4, 8, 8, 0⟩
def FLK_STAT.fcount (link : Nat) : Fld := ⟨0x500000 + 0x1000 * link + 0x4, 0, 8, 0⟩
def FLK_EXPID.check (link : Nat) : Fld := ⟨0x500000 + 0x1000 * link + 0x8, 31, 1, 0⟩
def FLK_EXPID.link (link : Nat) : Fld := ⟨0x500000 + 0x1000 * link + 0x8, 16, 6, 0⟩
def FLK_EXPID.device (link : Nat) : Fld := ⟨0x500000 + 0x1000 * link + 0x8, 0, 11, 0⟩
def FLK_RXID.version (link : Nat) : Fld := ⟨0x500000 + 0x1000 * link + 0xc, 24, 4, 0⟩
def FLK_RXID.plane (link : Nat) : Fld := ⟨0x500000 + 0x1000 * link + 0xc, 22, 2, 0⟩
def FLK_RXID.link (link : Nat) : Fld := ⟨0x500000 + 0x1000 * link + 0xc, 16, 6, 0⟩
def FLK_RXID.device (link : Nat) : Fld := ⟨0x500000 + 0x1000 * link + 0xc, 0, 11, 0⟩
def FLK_DEFCFG0.set_ (link : Nat) : Fld := ⟨0x500000 + 0x1000 * link + 0x10, 16, 8, 25⟩
def FLK_DEFCFG0.clear (link : Nat) : Fld := ⟨0x500000 + 0x1000 * link + 0x10, 0, 7, 10⟩
def FLK_DEFCFG1.set_ (link : Nat) : Fld := ⟨0x500000 + 0x1000 * link + 0x14, 16, 8, 25⟩
def FLK_DEFCFG1.clear (link : Nat) : Fld := ⟨0x500000 + 0x1000 * link + 0x14, 0, 7, 10⟩
def FLK_DEFCFG2.set_ (link : Nat) : Fld := ⟨0x500000 + 0x1000 * link + 0x18, 16, 8, 25⟩
def FLK_DEFCFG2.clear (link : Nat) : Fld := ⟨0x500000 + 0x1000 * link + 0x18, 0, 7, 10⟩
def FLK_SECSTAMP.sec (link : Nat) : Fld := ⟨0x500000 + 0x1000 * link + 0x20, 0, 32, 0⟩
def FLK_SECBIP.count (link : Nat) : Fld := ⟨0x500000 + 0x1000 * link + 0x24, 0, 32, 0⟩
def FLK_SECCOR.count (link : Nat) : Fld := ⟨0x500000 + 0x1000 * link + 0x28, 0, 32, 0⟩
def FLK_SECUNC.count (link : Nat) : Fld := ⟨0x500000 + 0x1000 * link + 0x2c, 0, 32, 0⟩
def FLK_SECIDLE.count (link : Nat) : Fld := ⟨0x500000 + 0x1000 * link + 0x30, 0, 32, 0⟩
def FLK_SECSTAT.irregular (link : Nat) : Fld := ⟨0x500000 + 0x1000 * link + 0x34, 1, 1, 0⟩
def FLK_SECSTAT.errored (link : Nat) : Fld := ⟨0x500000 + 0x1000 * link + 0x34, 0, 1, 0⟩
def FLK_ES.count (link : Nat) : Fld := ⟨0x500000 + 0x1000 * link + 0x38, 0, 32, 0⟩
def FLK_RXCELL.count (link : Nat) : Fld := ⟨0x500000 + 0x1000 * link + 0x100, 0, 64, 0⟩
def FLK_TXCELL.count (link : Nat) : Fld := ⟨0x500000 + 0x1000 * link + 0x108, 0, 64, 0⟩
def FLK_HDRERR.count (link : Nat) : Fld := ⟨0x500000 + 0x1000 * link + 0x110, 0, 64, 0⟩
def FLK_MISROUTE.count (link : Nat) : Fld := ⟨0x500000 + 0x1000 * link + 0x118, 0, 64, 0⟩
def FLK_SEQGAP.count (link : Nat) : Fld := ⟨0x500000 + 0x1000 * link + 0x120, 0, 64, 0⟩
def FLK_REASMDROP.count (link : Nat) : Fld := ⟨0x500000 + 0x1000 * link + 0x128, 0, 64, 0⟩
def FLK_OHCRC.count (link : Nat) : Fld := ⟨0x500000 + 0x1000 * link + 0x130, 0, 64, 0⟩
def FLK_PSRBAD.count (link : Nat) : Fld := ⟨0x500000 + 0x1000 * link + 0x138, 0, 64, 0⟩
def FLK_OOF.count (link : Nat) : Fld := ⟨0x500000 + 0x1000 * link + 0x140, 0, 64, 0⟩
def FLK_HOLDOVF.count (link : Nat) : Fld := ⟨0x500000 + 0x1000 * link + 0x148, 0, 64, 0⟩
def FLK_CRDDROP.count : Fld := ⟨0x57f000, 0, 64, 0⟩
def FLK_OUTBOX.messages : Fld := ⟨0x57f000 + 0x8, 0, 15, 0⟩
def SEAT_STAT.state_a : Fld := ⟨0x20000, 28, 4, 0⟩
def SEAT_STAT.state_b : Fld := ⟨0x20000, 24, 4, 0⟩
def SEAT_STAT.active : Fld := ⟨0x20000, 23, 1, 0⟩
def SEAT_STAT.in_step : Fld := ⟨0x20000, 22, 1, 0⟩
def SEAT_STAT.epoch_a : Fld := ⟨0x20000, 8, 8, 0⟩
def SEAT_STAT.epoch_b : Fld := ⟨0x20000, 0, 8, 0⟩
def SEAT_CFG.auto_return : Fld := ⟨0x20000 + 0x4, 31, 1, 1⟩
def SEAT_CFG.wedge_ms : Fld := ⟨0x20000 + 0x4, 16, 10, 10⟩
def SEAT_CFG.hb_us : Fld := ⟨0x20000 + 0x4, 0, 16, 50⟩
def SEAT_CKPT.period_us : Fld := ⟨0x20000 + 0x8, 0, 14, 500⟩
def SEAT_WDCFG.cl_wd_us : Fld := ⟨0x20000 + 0xc, 16, 16, 1000⟩
def SEAT_WDCFG.eng_wd_us : Fld := ⟨0x20000 + 0xc, 0, 16, 100⟩
def SEAT_EVID.evid_b : Fld := ⟨0x20000 + 0x10, 4, 4, 0⟩
def SEAT_EVID.evid_a : Fld := ⟨0x20000 + 0x10, 0, 4, 0⟩
def SEAT_AVSCFG.target_ps : Fld := ⟨0x20000 + 0x1c, 0, 8, 20⟩
def SEAT_AVS.fd_steps : Fld := ⟨0x20000 + 0x20, 24, 8, 0⟩
def SEAT_AVS.td_steps : Fld := ⟨0x20000 + 0x20, 16, 8, 0⟩
def SEAT_AVS.fd_margin : Fld := ⟨0x20000 + 0x20, 8, 8, 0⟩
def SEAT_AVS.td_margin : Fld := ⟨0x20000 + 0x20, 0, 8, 0⟩
def SEAT_TJAVG.avg : Fld := ⟨0x20000 + 0x24, 0, 16, 0⟩
def SEAT_STRESS0.hours : Fld := ⟨0x20000 + 0x28, 0, 32, 0⟩
def SEAT_STRESS1.hours : Fld := ⟨0x20000 + 0x2c, 0, 32, 0⟩
def SEAT_STRESS2.hours : Fld := ⟨0x20000 + 0x30, 0, 32, 0⟩
def SEAT_TAKEOVER.count : Fld := ⟨0x20000 + 0x100, 0, 64, 0⟩
def SEAT_MISMATCH.count : Fld := ⟨0x20000 + 0x108, 0, 64, 0⟩
def SEAT_ROLLBACK.count : Fld := ⟨0x20000 + 0x110, 0, 64, 0⟩
def SEAT_STALEMATE.count : Fld := ⟨0x20000 + 0x118, 0, 64, 0⟩
def SEAT_STALE_SEAT.count : Fld := ⟨0x20000 + 0x120, 0, 64, 0⟩
def SEAT_STALE_ENG.count : Fld := ⟨0x20000 + 0x128, 0, 64, 0⟩
def SEAT_STALE_BLOCK.count : Fld := ⟨0x20000 + 0x130, 0, 64, 0⟩
def SEAT_CLRESET.count : Fld := ⟨0x20000 + 0x138, 0, 64, 0⟩
def SEAT_UNPROT_MS.count : Fld := ⟨0x20000 + 0x140, 0, 64, 0⟩
def D2D_CFG.auto_rejoin : Fld := ⟨0x580000, 31, 1, 0⟩
def D2D_CFG.min_modules : Fld := ⟨0x580000, 24, 5, 20⟩
def D2D_CFG.ka_us : Fld := ⟨0x580000, 0, 16, 100⟩
def D2D_ISLCFG.voq_hold_ms : Fld := ⟨0x580000 + 0x4, 0, 16, 50⟩
def D2D_STAT.bridge : Fld := ⟨0x580000 + 0x8, 30, 2, 0⟩
def D2D_STAT.sideband_up : Fld := ⟨0x580000 + 0x8, 29, 1, 0⟩
def D2D_STAT.fd_powered : Fld := ⟨0x580000 + 0x8, 28, 1, 0⟩
def D2D_STAT.fd_reset : Fld := ⟨0x580000 + 0x8, 27, 1, 1⟩
def D2D_STAT.active : Fld := ⟨0x580000 + 0x8, 0, 5, 0⟩
def D2D_CTL.retrain : Fld := ⟨0x580000 + 0xc, 31, 1, 0⟩
def D2D_CTL.module : Fld := ⟨0x580000 + 0xc, 0, 8, 255⟩
def D2D_MODSTAT.state (m : Nat) : Fld := ⟨0x580000 + 0x100 + 4 * m, 29, 3, 0⟩
def D2D_MODSTAT.cause (m : Nat) : Fld := ⟨0x580000 + 0x100 + 4 * m, 24, 3, 0⟩
def D2D_MODSTAT.spares_ft (m : Nat) : Fld := ⟨0x580000 + 0x100 + 4 * m, 20, 3, 0⟩
def D2D_MODSTAT.spares_tf (m : Nat) : Fld := ⟨0x580000 + 0x100 + 4 * m, 16, 3, 0⟩
def D2D_LOSSCNT.count : Fld := ⟨0x580000 + 0x400, 0, 64, 0⟩
def D2D_LANEFAIL.count : Fld := ⟨0x580000 + 0x408, 0, 64, 0⟩
def D2D_REPLAY_FT.count : Fld := ⟨0x580000 + 0x410, 0, 64, 0⟩
def D2D_REPLAY_TF.count : Fld := ⟨0x580000 + 0x418, 0, 64, 0⟩
def D2D_BRGDROP.count (p : Nat) : Fld := ⟨0x580000 + 0x420 + 8 * p, 0, 64, 0⟩
def D2D_ISLDROP.count (p : Nat) : Fld := ⟨0x580000 + 0x440 + 8 * p, 0, 64, 0⟩
def D2D_PKTLOST.count : Fld := ⟨0x580000 + 0x460, 0, 64, 0⟩
def D2D_XOVFL.count (n : Nat) : Fld := ⟨0x580000 + 0x1000 + 8 * n, 0, 64, 0⟩
def D2D_XOVFF.count (f : Nat) : Fld := ⟨0x580000 + 0x1400 + 8 * f, 0, 64, 0⟩
def UPD_RCMD.go : Fld := ⟨0x1000000, 31, 1, 0⟩
def UPD_RCMD.cmd : Fld := ⟨0x1000000, 0, 4, 0⟩
def UPD_ROFF.offset : Fld := ⟨0x1000000 + 0x4, 0, 32, 0⟩
def UPD_RLEN.length : Fld := ⟨0x1000000 + 0x8, 0, 20, 0⟩
def UPD_RSTAT.state : Fld := ⟨0x1000000 + 0xc, 28, 4, 0⟩
def UPD_RSTAT.reason : Fld := ⟨0x1000000 + 0xc, 16, 8, 0⟩
def UPD_RPROG.bytes : Fld := ⟨0x1000000 + 0x10, 0, 32, 0⟩
def UPD_CFG.chain_fwd : Fld := ⟨0x30000, 31, 1, 1⟩
def UPD_CFG.pcie_fwd : Fld := ⟨0x30000, 29, 2, 0⟩
def UPD_CFG.chain_rx : Fld := ⟨0x30000, 27, 2, 3⟩
def UPD_CFG.trial_min : Fld := ⟨0x30000, 16, 11, 30⟩
def UPD_CFG.idle_s : Fld := ⟨0x30000, 0, 10, 5⟩
def UPD_HOLD.hold_min : Fld := ⟨0x30000 + 0x4, 0, 11, 60⟩
def UPD_SESS.state : Fld := ⟨0x30000 + 0x8, 28, 4, 0⟩
def UPD_SESS.source : Fld := ⟨0x30000 + 0x8, 26, 2, 0⟩
def UPD_SESS.target : Fld := ⟨0x30000 + 0x8, 24, 2, 0⟩
def UPD_SESS.reason : Fld := ⟨0x30000 + 0x8, 16, 8, 0⟩
def UPD_SESS.session : Fld := ⟨0x30000 + 0x8, 0, 16, 0⟩
def UPD_PROG.bytes : Fld := ⟨0x30000 + 0xc, 0, 32, 0⟩
def UPD_AREASTAT.state (a : Nat) : Fld := ⟨0x30000 + 0x10 + 8 * a, 30, 2, 0⟩
def UPD_AREASTAT.confirmed (a : Nat) : Fld := ⟨0x30000 + 0x10 + 8 * a, 29, 1, 0⟩
def UPD_AREASTAT.trial (a : Nat) : Fld := ⟨0x30000 + 0x10 + 8 * a, 28, 1, 0⟩
def UPD_AREAVER.version (a : Nat) : Fld := ⟨0x30000 + 0x14 + 8 * a, 0, 32, 0⟩
def UPD_BOOT.booted : Fld := ⟨0x30000 + 0x28, 30, 2, 0⟩
def UPD_BOOT.settings_reset : Fld := ⟨0x30000 + 0x28, 29, 1, 0⟩
def UPD_BOOT.settings_frozen : Fld := ⟨0x30000 + 0x28, 28, 1, 0⟩
def UPD_BOOT.recovery_cause : Fld := ⟨0x30000 + 0x28, 26, 2, 0⟩
def UPD_BOOT.boot_fails : Fld := ⟨0x30000 + 0x28, 0, 8, 0⟩
def UPD_KEYS.revoked : Fld := ⟨0x30000 + 0x2c, 4, 4, 0⟩
def UPD_KEYS.present : Fld := ⟨0x30000 + 0x2c, 0, 4, 0⟩
def UPD_CHAIN.a_up : Fld := ⟨0x30000 + 0x30, 31, 1, 0⟩
def UPD_CHAIN.b_up : Fld := ⟨0x30000 + 0x30, 30, 1, 0⟩
def UPD_CHAIN.peer_a : Fld := ⟨0x30000 + 0x30, 11, 11, 0⟩
def UPD_CHAIN.peer_b : Fld := ⟨0x30000 + 0x30, 0, 11, 0⟩
def UPD_SESSCNT.count : Fld := ⟨0x30000 + 0x100, 0, 64, 0⟩
def UPD_FAILCNT.count : Fld := ⟨0x30000 + 0x108, 0, 64, 0⟩
def UPD_CHNRXA.count : Fld := ⟨0x30000 + 0x110, 0, 64, 0⟩
def UPD_CHNRXB.count : Fld := ⟨0x30000 + 0x118, 0, 64, 0⟩
def UPD_CHNRETX.count : Fld := ⟨0x30000 + 0x120, 0, 64, 0⟩
def UPD_CHNCRC.count : Fld := ⟨0x30000 + 0x128, 0, 64, 0⟩
def UPD_REVERTCNT.count : Fld := ⟨0x30000 + 0x130, 0, 64, 0⟩
def UPD_NORERR.count : Fld := ⟨0x30000 + 0x138, 0, 64, 0⟩
def CHK_STAT.busy : Fld := ⟨0x38000, 31, 1, 0⟩
def CHK_STAT.owner : Fld := ⟨0x38000, 30, 1, 0⟩
def CHK_JOBCNT.count : Fld := ⟨0x38000 + 0x100, 0, 64, 0⟩
def CHK_BUSYCNT.count : Fld := ⟨0x38000 + 0x108, 0, 64, 0⟩
def GEN_BOOTSTAT.ready : Fld := ⟨0x0 + 0x100, 31, 1, 0⟩
def GEN_BOOTSTAT.kind : Fld := ⟨0x0 + 0x100, 29, 2, 0⟩
def GEN_BOOTSTAT.fd_ok : Fld := ⟨0x0 + 0x100, 28, 1, 0⟩
def GEN_BOOTSTAT.step : Fld := ⟨0x0 + 0x100, 24, 4, 1⟩
def GEN_BOOTTIME.us : Fld := ⟨0x0 + 0x104, 0, 32, 0⟩
def GEN_RSTCAUSE.group : Fld := ⟨0x0 + 0x108, 8, 3, 0⟩
def GEN_RSTCAUSE.cause : Fld := ⟨0x0 + 0x108, 0, 4, 0⟩
def GEN_RSTCTL.arm : Fld := ⟨0x0 + 0x10c, 31, 1, 0⟩
def GEN_RSTCTL.refused : Fld := ⟨0x0 + 0x10c, 2, 1, 0⟩
def GEN_RSTCTL.warm : Fld := ⟨0x0 + 0x10c, 1, 1, 0⟩
def GEN_RSTCTL.cold : Fld := ⟨0x0 + 0x10c, 0, 1, 0⟩
def GEN_STRAPS.straps : Fld := ⟨0x0 + 0x110, 0, 4, 15⟩
def GEN_PSEQ.pg : Fld := ⟨0x0 + 0x114, 8, 8, 0⟩
def GEN_PSEQ.en : Fld := ⟨0x0 + 0x114, 0, 8, 0⟩
def GEN_STSTAT.running : Fld := ⟨0x0 + 0x118, 0, 8, 0⟩
def TIM_CFG.mode : Fld := ⟨0x40000, 31, 1, 0⟩
def TIM_CFG.baud : Fld := ⟨0x40000, 0, 2, 3⟩
def TIM_STAT.servo : Fld := ⟨0x40000 + 0x4, 30, 2, 0⟩
def TIM_STAT.slewing : Fld := ⟨0x40000 + 0x4, 29, 1, 0⟩
def TIM_STAT.step_pending : Fld := ⟨0x40000 + 0x4, 28, 1, 0⟩
def TIM_STAT.refused : Fld := ⟨0x40000 + 0x4, 27, 1, 0⟩
def TIM_NOW0.ns : Fld := ⟨0x40000 + 0x10, 0, 32, 0⟩
def TIM_NOW1.sec_lo : Fld := ⟨0x40000 + 0x14, 0, 32, 0⟩
def TIM_NOW2.sec_hi : Fld := ⟨0x40000 + 0x18, 0, 16, 0⟩
def TIM_SET0.ns : Fld := ⟨0x40000 + 0x20, 0, 32, 0⟩
def TIM_SET1.sec_lo : Fld := ⟨0x40000 + 0x24, 0, 32, 0⟩
def TIM_SET2.sec_hi : Fld := ⟨0x40000 + 0x28, 0, 16, 0⟩
def TIM_OFFS.offset : Fld := ⟨0x40000 + 0x2c, 0, 32, 0⟩
def TIM_CTL.step : Fld := ⟨0x40000 + 0x30, 1, 1, 0⟩
def TIM_CTL.offset : Fld := ⟨0x40000 + 0x30, 0, 1, 0⟩
def TIM_FREQ.adj : Fld := ⟨0x40000 + 0x34, 0, 32, 0⟩
def TIM_SLEW.max_ns : Fld := ⟨0x40000 + 0x38, 0, 30, 100000⟩
def TIM_SLEWRATE.rate_ppm : Fld := ⟨0x40000 + 0x3c, 0, 10, 100⟩
def TIM_SERVO0.step_ns : Fld := ⟨0x40000 + 0x40, 0, 30, 500⟩
def TIM_SERVO1.lock_ns : Fld := ⟨0x40000 + 0x44, 0, 10, 50⟩
def TIM_PHASE.e : Fld := ⟨0x40000 + 0x48, 0, 32, 0⟩
def TIM_PPSCAP0.ns : Fld := ⟨0x40000 + 0x50, 0, 32, 0⟩
def TIM_PPSCAP1.sec_lo : Fld := ⟨0x40000 + 0x54, 0, 32, 0⟩
def TIM_PPSCAP2.sec_hi : Fld := ⟨0x40000 + 0x58, 0, 16, 0⟩
def TIM_TODSEC0.sec_lo : Fld := ⟨0x40000 + 0x60, 0, 32, 0⟩
def TIM_TODSEC1.sec_hi : Fld := ⟨0x40000 + 0x64, 0, 16, 0⟩
def TIM_TODSTAT.leap : Fld := ⟨0x40000 + 0x68, 17, 1, 0⟩
def TIM_TODSTAT.valid : Fld := ⟨0x40000 + 0x68, 16, 1, 0⟩
def TIM_TODSTAT.utc_off : Fld := ⟨0x40000 + 0x68, 0, 16, 0⟩
def TIM_PPSGLITCH.count : Fld := ⟨0x40000 + 0x100, 0, 64, 0⟩
def TIM_TODERR.count : Fld := ⟨0x40000 + 0x108, 0, 64, 0⟩
def TIM_STEPS.count : Fld := ⟨0x40000 + 0x110, 0, 64, 0⟩
def TEL_CFG.smp_en : Fld := ⟨0x5c0000, 31, 1, 0⟩
def TEL_CFG.smp_session : Fld := ⟨0x5c0000, 23, 8, 0⟩
def TEL_CNTBASE.base : Fld := ⟨0x5c0000 + 0x4, 0, 26, 0⟩
def TEL_CACHE.wb_us : Fld := ⟨0x5c0000 + 0x8, 0, 14, 100⟩
def TEL_HBMSEG.used : Fld := ⟨0x5c0000 + 0xc, 16, 9, 0⟩
def TEL_HBMSEG.avail : Fld := ⟨0x5c0000 + 0xc, 0, 9, 0⟩
def TEL_STAT.refused : Fld := ⟨0x5c0000 + 0x10, 0, 1, 0⟩
def TEL_SEGMAP.home (s : Nat) : Fld := ⟨0x5c0000 + 0x100 + 4 * s, 28, 4, 0⟩
def TEL_SEGMAP.state (s : Nat) : Fld := ⟨0x5c0000 + 0x100 + 4 * s, 26, 2, 0⟩
def TEL_SIDX.session : Fld := ⟨0x5c0000 + 0x200, 0, 8, 0⟩
def TEL_SDATA0.enable : Fld := ⟨0x5c0000 + 0x204, 31, 1, 0⟩
def TEL_SDATA0.kind : Fld := ⟨0x5c0000 + 0x204, 29, 2, 0⟩
def TEL_SDATA0.snap : Fld := ⟨0x5c0000 + 0x204, 24, 5, 0⟩
def TEL_SDATA0.ring : Fld := ⟨0x5c0000 + 0x204, 0, 12, 0⟩
def TEL_SDATA1.rate_n : Fld := ⟨0x5c0000 + 0x208, 0, 24, 1⟩
def TEL_SDATA2.max_sps : Fld := ⟨0x5c0000 + 0x20c, 0, 26, 0⟩
def TEL_SDATA3.queue : Fld := ⟨0x5c0000 + 0x210, 0, 20, 0⟩
def TEL_SDATA4.cls : Fld := ⟨0x5c0000 + 0x214, 13, 3, 0⟩
def TEL_SDATA4.dest : Fld := ⟨0x5c0000 + 0x214, 0, 13, 0⟩
def TEL_SCMD.write : Fld := ⟨0x5c0000 + 0x218, 1, 1, 0⟩
def TEL_SCMD.read : Fld := ⟨0x5c0000 + 0x218, 0, 1, 0⟩
def TEL_CNTLOST.count : Fld := ⟨0x5c0000 + 0x400, 0, 64, 0⟩
def TEL_CNTNOSEG.count : Fld := ⟨0x5c0000 + 0x408, 0, 64, 0⟩
def TEL_CNTUE.count : Fld := ⟨0x5c0000 + 0x410, 0, 64, 0⟩
def TEL_SMPCAP.count : Fld := ⟨0x5c0000 + 0x418, 0, 64, 0⟩
def TEL_CNTRANGE.count : Fld := ⟨0x5c0000 + 0x420, 0, 64, 0⟩
def PWR_CFG.alert_c : Fld := ⟨0x600000, 8, 8, 100⟩
def PWR_CFG.hyst_c : Fld := ⟨0x600000, 0, 5, 5⟩
def PWR_STAT.alert : Fld := ⟨0x600000 + 0x4, 31, 1, 0⟩
def PWR_STAT.feed : Fld := ⟨0x600000 + 0x4, 30, 1, 0⟩
def PWR_STAT.trip_seen : Fld := ⟨0x600000 + 0x4, 29, 1, 0⟩
def PWR_STAT.avs_fail : Fld := ⟨0x600000 + 0x4, 28, 1, 0⟩
def PWR_STAT.hot_fd_c : Fld := ⟨0x600000 + 0x4, 8, 8, 0⟩
def PWR_STAT.hot_td_c : Fld := ⟨0x600000 + 0x4, 0, 8, 0⟩
def PWR_SENS.temp (n : Nat) : Fld := ⟨0x600000 + 0x100 + 4 * n, 0, 16, 0⟩
def PWR_RAIL.high (k : Nat) : Fld := ⟨0x600000 + 0x200 + 4 * k, 31, 1, 0⟩
def PWR_RAIL.low (k : Nat) : Fld := ⟨0x600000 + 0x200 + 4 * k, 30, 1, 0⟩
def PWR_RAIL.mv (k : Nat) : Fld := ⟨0x600000 + 0x200 + 4 * k, 0, 16, 0⟩
def PWR_AVSTGT.mv (d : Nat) : Fld := ⟨0x600000 + 0x300 + 4 * d, 0, 16, 720⟩
def PWR_ALERTCNT.count : Fld := ⟨0x600000 + 0x400, 0, 64, 0⟩
def PWR_RAILCNT.count : Fld := ⟨0x600000 + 0x408, 0, 64, 0⟩
def GEN_ID.device_id : Fld := ⟨0x0, 16, 16, 29238⟩
def GEN_ID.vendor_id : Fld := ⟨0x0, 0, 16, 7546⟩
def GEN_REV.member : Fld := ⟨0x0 + 0x4, 24, 8, 7⟩
def GEN_REV.fd_rev : Fld := ⟨0x0 + 0x4, 20, 4, 0⟩
def GEN_REV.td_rev : Fld := ⟨0x0 + 0x4, 16, 4, 0⟩
def GEN_REV.regmap : Fld := ⟨0x0 + 0x4, 8, 8, 1⟩
def GEN_SERIAL0.serial_lo : Fld := ⟨0x0 + 0x8, 0, 32, 0⟩
def GEN_SERIAL1.serial_hi : Fld := ⟨0x0 + 0xc, 0, 32, 0⟩
def GEN_CAPS.line_lanes : Fld := ⟨0x0 + 0x10, 24, 8, 128⟩
def GEN_CAPS.fabric_links : Fld := ⟨0x0 + 0x10, 18, 6, 48⟩
def GEN_CAPS.clusters : Fld := ⟨0x0 + 0x10, 13, 5, 24⟩
def GEN_CAPS.hbm_stacks : Fld := ⟨0x0 + 0x10, 10, 3, 6⟩
def GEN_CAPS.ddr_channels : Fld := ⟨0x0 + 0x10, 6, 4, 8⟩
def GEN_FWVER.version : Fld := ⟨0x0 + 0x14, 0, 32, 0⟩
def GEN_SEAL.key : Fld := ⟨0x0 + 0x20, 16, 16, 0⟩
def GEN_SEAL.sealed : Fld := ⟨0x0 + 0x20, 0, 1, 0⟩
def GEN_SEALCAP.valid : Fld := ⟨0x0 + 0x24, 31, 1, 0⟩
def GEN_SEALCAP.offset : Fld := ⟨0x0 + 0x24, 0, 24, 0⟩
def GEN_SEALVIOL.count : Fld := ⟨0x0 + 0x28, 0, 64, 0⟩
def QM_TDATA0.word : Fld := ⟨0x1c0000 + 0x44, 0, 32, 0⟩
def QM_TDATA1.word : Fld := ⟨0x1c0000 + 0x48, 0, 32, 0⟩
def QM_TDATA2.word : Fld := ⟨0x1c0000 + 0x4c, 0, 32, 0⟩
def QM_TDATA3.word : Fld := ⟨0x1c0000 + 0x50, 0, 32, 0⟩
def MCD_CE.count (ch : Nat) : Fld := ⟨0x380000 + 0x2000 * ch + 0x400, 0, 64, 0⟩
def MCD_UE.count (ch : Nat) : Fld := ⟨0x380000 + 0x2000 * ch + 0x408, 0, 64, 0⟩
def MCD_NBRREF.count (ch : Nat) : Fld := ⟨0x380000 + 0x2000 * ch + 0x410, 0, 64, 0⟩
def MCD_REFPOST.count (ch : Nat) : Fld := ⟨0x380000 + 0x2000 * ch + 0x418, 0, 64, 0⟩
def MCD_REFFORCE.count (ch : Nat) : Fld := ⟨0x380000 + 0x2000 * ch + 0x420, 0, 64, 0⟩
def MCD_REFRECOUNT.count (ch : Nat) : Fld := ⟨0x380000 + 0x2000 * ch + 0x428, 0, 64, 0⟩
def MCD_PANIC.count (ch : Nat) : Fld := ⟨0x380000 + 0x2000 * ch + 0x430, 0, 64, 0⟩
def MCD_PORTCFG.panic_on (ch k : Nat) : Fld := ⟨0x380000 + 0x2000 * ch + 0x40 + 4 * k, 28, 4, 12⟩
def MCD_PORTCFG.panic_off (ch k : Nat) : Fld := ⟨0x380000 + 0x2000 * ch + 0x40 + 4 * k, 24, 4, 8⟩
def MCD_PORTCFG.target_ns (ch k : Nat) : Fld := ⟨0x380000 + 0x2000 * ch + 0x40 + 4 * k, 0, 20, memPortTarget k⟩

end Sys2Proof.Machine
end

