-- ==== Sys2Proof/Machine/State.lean ====
section
/-! DEFINITION. The state of the device as plain data (INVENTORY.md, '## State'): every register, queue, buffer, store
and mode that the spec names, the commands that wait, and the outcomes of a step. Every field carries its value after
reset. Register fields live in `State.regs` (Machine/Regs.lean); what is not a register lives in one structure per
chapter of the spec. -/
namespace Sys2Proof.Machine

/-- Why the device stops. -/
inductive Fault where
  /-- SYSRST_N rises with TEST_N low: the device enters a factory test mode that the spec does not describe (R582, *Straps*).
  Raised by SYSRST_RELEASE. Safe: the run ends where the device goes on in a mode of its own. -/
  | factoryTest
  deriving DecidableEq, Repr

/-- Why a command has no meaning here. -/
inductive Refusal where
  /-- The command has no meaning in the model yet; raised by its arm of `exec`. Safe: the run ends. -/
  | notModelled (mnemonic : String)
  deriving DecidableEq, Repr

/-- The three access paths that keep latches of their own (R650). -/
inductive Path where
  | bar0 | cmd | bmc
  deriving DecidableEq, Repr

/-- The latches of one access path (R10, R466, R602, R606, R650): which low word loaded the latch, with the value of the
words that follow it. -/
structure Latch where
  /-- The high-word latch of register pairs: the pair's address and its high word. -/
  pair   : Option (Nat × Nat) := none
  /-- LPT_TSLAST1 and LPT_TSLAST2 as latched, with the address of the LPT_TSLAST0 read (R466). -/
  tslast : Option (Nat × Nat × Nat) := none
  /-- TIM_NOW1 and TIM_NOW2 as latched (R602). -/
  now    : Option (Nat × Nat) := none
  /-- TIM_PPSCAP1 and TIM_PPSCAP2 as latched (R606). -/
  ppscap : Option (Nat × Nat) := none
  deriving DecidableEq, Repr

/-- An event record that waits to be written to its ring (R388 to R393, R659). -/
structure EvRec where
  code    : Nat
  cls     : Nat
  /-- Payload bytes 16 to 31. -/
  payload : List Nat
  /-- Continuation slots, 32 bytes each. -/
  cont    : List (List Nat)
  ns      : Nat
  sec     : Nat
  /-- The record waits in the event store, since its ring lacked room or did not run (R392, R393). -/
  stored  : Bool
  /-- Island clock at which it was posted. -/
  at_     : Nat := 0
  deriving DecidableEq, Repr

/-- A packet on its way through the device: its bytes (frame check sequence excluded), what the ingress pass knows of it
(R54, R55) and the 48-byte forwarding result that travels with it (R74). -/
structure Packet where
  bytes   : List Nat := []
  pipe    : Nat := 0
  /-- Ingress port of R55. -/
  port    : Nat := 0
  /-- Recycle count (R77). -/
  recycle : Nat := 0
  /-- Entry point: 0 ingress, 1 egress, 2 recycle, 3 host inject. -/
  entry   : Nat := 0
  /-- Parse record, 64 bytes (R114). -/
  parse   : List Nat := []
  /-- Forwarding result, 48 bytes. -/
  fwd     : List Nat := []
  /-- Network time of MAC receive or of dequeue: seconds and nanoseconds. -/
  sec     : Nat := 0
  ns      : Nat := 0
  /-- Egress queue (egress packets). -/
  queue   : Nat := 0
  /-- Egress port (egress packets). -/
  outPort : Nat := 0
  /-- Timestamp request of the egress ply (R75). -/
  tstamp  : Bool := false
  /-- The 4 bytes before its first byte, where a timestamp request may stand (R463). -/
  tsCtl   : Option (List Nat) := none
  /-- Marked errored by a crossing overflow (R47). -/
  errored : Bool := false
  /-- Its place in the order of its input while a ply has it, 0 for none (R261). -/
  ord     : Nat := 0
  /-- The inject ring whose descriptor completes once it is dispatched or linked (R387). -/
  inj     : Option Nat := none
  /-- Its received length: a frame's from destination address to frame check sequence (R6, R184). -/
  rxLen   : Nat := 0
  deriving DecidableEq, Repr

/-- A register access or a power and reset command on its way to the FD (R35). -/
inductive SbMsg where
  /-- A read; `cmd` says that it comes from a command descriptor and not from BAR0, `part` whether it is a 4-byte read (0) or the low (1) or
  high (2) word of an 8-byte one. -/
  | read  (tag addr : Nat) (cmd : Bool) (part : Nat)
  /-- A masked write. -/
  | write (tag addr mask value : Nat) (cmd : Bool)
  /-- FD reset and power command of a seat: FD supply on, FD held in reset. -/
  | power (on inReset : Bool)
  | heartbeat
  deriving DecidableEq, Repr

/-- What a sample record tells of its packet. -/
structure Sample where
  session : Nat
  pipe    : Nat
  /-- 0 SAMPLE_RING, 1 MIRROR_CAPTURE. -/
  source  : Nat
  port    : Nat
  /-- Packet length, and the bytes available to capture. -/
  length  : Nat
  bytes   : List Nat
  ns      : Nat
  sec     : Nat
  deriving DecidableEq, Repr

/-- A control-class message of the bridge that had to wait, and takes effect when its last flit is delivered (R28, log entry 12). -/
inductive CtlMsg where
  /-- A register access on its way to the FD, and its answer on its way back. -/
  | access (m : SbMsg)
  | reply  (tag value : Nat)
  /-- An event record of the FD, a batch of learn notices among them. -/
  | event  (e : EvRec)
  | sample (v : Sample)
  deriving DecidableEq, Repr

/-- A bridge flit (R24): its class and the packet or control message that it completes, if it is the last one of it. -/
structure Flit where
  seq     : Nat
  control : Bool
  /-- The module it was sent on. -/
  mod     : Nat
  pkt     : Option Packet
  msg     : Option CtlMsg := none
  deriving DecidableEq, Repr

/-- One direction of the die-to-die bridge (R24 to R29). -/
structure BridgeDir where
  /-- Sequence number of the next flit to send. -/
  nextTx   : Nat := 0
  /-- Sequence number that the receiver delivers next. -/
  nextRx   : Nat := 0
  /-- Unacknowledged flits, oldest first; 512 KiB, 2,048 flits (R25). -/
  replay   : List Flit := []
  /-- Flits cut but not yet sent: the replay store was full, or the control share of the window was spent. -/
  waiting  : List Flit := []
  /-- Flits received ahead of their turn; 2,048 flits (*Crossings*). -/
  reorder  : List Flit := []
  /-- Control-class bits sent in the present 1 µs window (R28). -/
  ctlBits  : Nat := 0
  /-- Packets delivered to the far die, oldest first. -/
  arrived  : List Packet := []
  /-- Control-class flits delivered to the far die. -/
  ctlSeen  : Nat := 0
  /-- Island clock of the last flit that arrived (R523), and of the start of the metering window (R28). -/
  heardAt  : Nat := 0
  winAt    : Nat := 0
  /-- Island clock at which each module last carried a flit of this direction (*Loss of the bridge*). -/
  sentAt   : Tbl Nat := []
  /-- The window of 1 ms in which each module last received, and the flits received in it; the CRC errors of each lane in that window, key
  68 × module + lane (R30). -/
  flitWin  : Tbl (Nat × Nat) := []
  laneErr  : Tbl Nat := []
  /-- Lanes failed and replaced, key 68 × module + lane. -/
  laneBad  : List Nat := []
  deriving DecidableEq, Repr

/-- What a module is being trained or repaired for. -/
structure ModState where
  /-- Failed training attempts in a row (*Bridge module states*). -/
  attempts : Nat := 0
  /-- The lanes being replaced, oldest first: direction (0 FD to TD, 1 TD to FD) and lane. -/
  fixing   : List (Nat × Nat) := []
  deriving DecidableEq, Repr

/-- The die-to-die structure (chapter 01): bridge, sideband, feeds and time followers. -/
structure Dies where
  ft        : BridgeDir := {}
  tf        : BridgeDir := {}
  mods      : Tbl ModState := []
  /-- Bridge-entry queues of pipes 0 to 3, key = pipe (R29). -/
  entryQ    : Tbl (List Packet) := []
  /-- The pipe that the FD serves next (R29). -/
  entryNext : Nat := 0
  /-- BRIDGE_DEGRADED is in force (R49). -/
  degraded  : Bool := false
  /-- Heartbeat last heard at the TD and at the FD, island clock (R39). -/
  hbTd      : Nat := 0
  hbFd      : Nat := 0
  /-- Heartbeats last sent by the TD and by the FD (R35). -/
  hbTdSent  : Nat := 0
  hbFdSent  : Nat := 0
  /-- Since when heartbeats have passed both ways, while the sideband is lost (R39). -/
  hbSince   : Option Nat := none
  sbLost    : Bool := false
  /-- Island clock of the last sideband retraining (R527). -/
  sbTrained : Nat := 0
  /-- Messages under way to the FD end, in arrival order (R36); 8 at most, and those that wait for a place (R46). -/
  toFd      : List SbMsg := []
  sbWait    : List SbMsg := []
  /-- Messages under way to the TD end. -/
  toTd      : List SbMsg := []
  /-- Tags and results of the last 16 accesses that the FD end executed, newest first (R37). -/
  tags      : List (Nat × Nat) := []
  /-- Tag of the next sideband register access. -/
  nextTag   : Nat := 0
  /-- FD register accesses issued over the bridge and not answered yet, oldest first (R38). -/
  owed      : List SbMsg := []
  /-- Result of the last FD register access. -/
  sbResult  : Option (Nat × Nat) := none
  /-- The same for the last access of a command descriptor that had to wait for its answer. -/
  cmdResult : Option (Nat × Nat) := none
  /-- Feeds in range, A then B (R41), and the island clock since when. -/
  feedA     : Bool := true
  feedB     : Bool := true
  feedAAt   : Nat := 0
  feedBAt   : Nat := 0
  /-- How far the network-time followers of the FD and the TD stand from the island counter, in ns: not 0 only between a
  step and their next update (R44, R605). -/
  followFd  : Int := 0
  followTd  : Int := 0
  /-- Island clock of the last follower update (R44). -/
  syncAt    : Nat := 0
  deriving DecidableEq, Repr

/-- An accelerator call presented by a ply (R72, R119): its key bytes as they stood at issue. -/
structure Call where
  ply     : Nat
  cluster : Nat
  slot    : Nat
  /-- Epoch of the engine slot at issue (R106, R516). -/
  epoch   : Nat
  tag     : Nat
  accel   : Nat
  select  : Nat
  key     : List Nat
  pipe    : Nat
  /-- Received length of the ply's packet (R184). -/
  length  : Nat
  /-- The result, 32 bytes, once the accelerator has it. -/
  result  : Option (List Nat)
  /-- A tail descent is queued for the call (R130). -/
  tail    : Bool
  /-- Device time of its presentation (R72, R164), and the key error it met there (R119 to R122). -/
  at_     : Nat := 0
  err     : Option Nat := none
  deriving DecidableEq, Repr

/-- What a ply does at the end of its bundle (R62). -/
inductive BundleEnd where
  | go (target : Nat)
  | done
  | drop (reason : Nat)
  | trap (code : Nat)
  | recycle
  | fault (cause detail : Nat)
  deriving DecidableEq, Repr

/-- The memory access of a bundle (R65), performed when the bundle takes effect. -/
inductive MemAcc where
  | load  (rd addr width : Nat)
  | store (addr width : Nat) (v : Word64)
  /-- Atomic: operation 0 add, 1 swap, 2 compare and swap with the new value `c`, 3 unsigned maximum. -/
  | atom  (op rd addr : Nat) (v c : Word64)
  deriving DecidableEq, Repr

/-- An accelerator operation of a bundle: CALL, CALLN or POST with its key address and call immediate, or WAIT with its
tags. -/
inductive CallAcc where
  | call  (rd addr imm : Nat)
  | calln (addr imm : Nat)
  | wait  (tags : Nat)
  | post  (addr imm : Nat)
  deriving DecidableEq, Repr

/-- A bundle under way (R62): what its operations have asked for, to take effect together. -/
structure Issue where
  /-- The slot of the next operation. -/
  slot  : Nat := 0
  regs  : List (Nat × Word64) := []
  preds : List (Nat × Bool) := []
  mem   : Option MemAcc := none
  call  : Option CallAcc := none
  fin   : Option BundleEnd := none
  deriving DecidableEq, Repr

/-- A ply: one pass of a packet through a program (R50 to R55). -/
structure Ply where
  cluster : Nat
  /-- Logical engine slot. -/
  slot    : Nat
  epoch   : Nat
  egress  : Bool
  bank    : Nat
  pc      : Nat
  /-- g1 to g31; g0 is never listed. -/
  g       : Tbl Word64 := []
  /-- Predicates p1 to p7. -/
  p       : List Nat := []
  /-- The 256 bytes of the ply frame; an unlisted byte is undefined (R54). -/
  frame   : Tbl (Option Byte) := []
  /-- Which free values the undefined bytes of the frame take (model's own). -/
  seed    : Nat := 0
  /-- The 512 bytes of the packet slot; an unlisted byte holds what nothing has written (headroom, bytes past a short packet). -/
  mem     : Tbl (Option Byte) := []
  /-- Bytes of the packet present in the head window. -/
  headLen : Nat := 0
  pkt     : Packet := {}
  /-- Tags with a call outstanding (R68). -/
  tags    : List Nat := []
  /-- Tags whose results the ply waits for; empty while it runs (R51). -/
  parked  : List Nat := []
  /-- It owns one of its engine's 8 contexts (R51). -/
  ctx     : Bool := false
  /-- Destination register of a parked CALL with its tag. -/
  callRd  : Option (Nat × Nat) := none
  posts   : Nat := 0
  bundles : Nat := 0
  /-- Island clock at dispatch (R99). -/
  start   : Nat := 0
  issue   : Option Issue := none
  /-- An uncorrectable error lies in the frame or the packet slot (cause 0x8). -/
  ecc     : Bool := false
  deriving DecidableEq, Repr

/-- What a cluster holds beyond its registers (chapter 02). -/
structure Cluster where
  /-- Logical slots with a promotion in progress and the clock of the death (R104). -/
  promoting : List (Nat × Nat) := []
  /-- Resigned physical engines of the cluster, waiting for the host (R518). -/
  resigned : Nat := 0
  /-- The cluster is held in reset by its watchdog or by BLOCK_RESET, since when (R522). -/
  resetAt  : Option Nat := none
  /-- Plies that its reset has ended. -/
  ended    : Nat := 0
  /-- Clock of the last bundle issued or slot freed (R522). -/
  progress : Nat := 0
  deriving DecidableEq, Repr

/-- A packet between its entry by an input and the end of its ply, in the order of its input (R261): the input's key, the packet's number,
and once its ply has ended the packet that leaves, if one does. -/
structure OrdEnt where
  key  : Nat
  id   : Nat
  over_ : Bool := false
  out  : Option Packet := none
  deriving DecidableEq, Repr

/-- The packet engines (chapter 02). -/
structure Eng where
  /-- Instruction stores: key (2 × cluster + bank) × 32,768 + bundle. -/
  bundles  : Tbl Nat := []
  /-- Bundles with an uncorrectable error, same key (R101). -/
  insnEcc  : List Nat := []
  clusters : Tbl Cluster := []
  plies    : List (Nat × Ply) := []
  nextPly  : Nat := 0
  /-- Program data: key 524,288 × cluster + offset. -/
  pdata    : Tbl Byte := []
  /-- Packets on their way to the ingress dispatch queue of pipes 0 to 3. -/
  arriving : Tbl (List Packet) := []
  ingressQ : Tbl (List Packet) := []
  egressQ  : Tbl (List Packet) := []
  /-- The ENG_LOAD that writes a LOADING bank: its number and ring, key 2 × cluster + bank (R92). -/
  loads    : Tbl (Nat × Nat) := []
  nextLoad : Nat := 1
  /-- Packets whose order is kept until their plies end, oldest first (R261). -/
  order    : List OrdEnt := []
  nextOrd  : Nat := 1
  calls    : List (Nat × Call) := []
  nextCall : Nat := 0
  /-- Epochs of the engine slots, key 64 × cluster + slot (R516). -/
  epochs   : Tbl Nat := []
  /-- Frames ready for the MAC, oldest first, with their ports. -/
  toMac    : List (Nat × Packet) := []
  /-- Clock of the last background test of a spare of each cluster (R521). -/
  spareTest : Tbl Nat := []
  /-- First dispatch to an engine slot since it last issued a bundle, island clock plus 1; key 64 × cluster + slot (R520). -/
  givenAt  : Tbl Nat := []
  /-- Uncorrectable errors of the last second in each engine slot: their clocks; key 64 × cluster + slot (R520). -/
  eccAt    : Tbl (List Nat) := []
  /-- Since when, plus 1, each dispatch queue is not empty, key 2 × pipe + (1 for egress) (R522). -/
  queuedAt : Tbl Nat := []
  deriving DecidableEq, Repr

/-- A FIB entry (R124): its 16 bytes of route data, and whether it sits below a tail pointer (R126). Its key in the table is
((vrf × 2 + family) × 256 + prefix length) × 2^128 + prefix bits, so that table order is *R366*'s. -/
structure FibEnt where
  route  : List Nat
  tailed : Bool
  deriving DecidableEq, Repr

/-- An entry of the exact-match store (R143): table, key bytes and data. -/
structure EmEnt where
  table : Nat
  key   : List Nat
  data  : List Nat
  /-- Second position of a 32-byte key. -/
  cont  : Bool := false
  deriving DecidableEq, Repr

/-- An entry of the overflow store of a pipe (R143, R145), oldest first in its list. -/
structure OvfEnt where
  ent    : EmEnt
  bucket : Nat
  /-- Serial number of the insertion: the copies of a SHARED entry in the four stores have one number. -/
  serial : Nat
  deriving DecidableEq, Repr

/-- A ternary entry (R147). -/
structure TerEnt where
  profile : Nat
  value   : List Nat
  mask    : List Nat
  prio    : Nat
  data    : List Nat
  deriving DecidableEq, Repr

/-- States of an adjacency (R151). -/
inductive AdjSt where
  | free | valid | retiring
  deriving DecidableEq, Repr

/-- An adjacency (R151). -/
structure Adj where
  st      : AdjSt := .free
  data    : List Nat := []
  version : Nat := 0
  /-- Island clock at which its retire timer expires (R163, R166). -/
  due     : Nat := 0
  /-- Of an entry whose retire timer has expired: when, and the data that calls presented by then still return (R164). -/
  gone    : Option (Nat × List Nat) := none
  deriving DecidableEq, Repr

/-- The lookup and forwarding tables (chapter 03). -/
structure Lkp where
  /-- Bytes of the parser's program banks: key 65,536 × bank + offset, state table at 0, transition table at 4,096. Reset: the
  one state of R118. -/
  parser   : Tbl Nat := [(0, 1), (1, 0x80), (2, 14)]
  /-- The PARSER_LOAD that writes the idle bank: its serial number and its ring (R116); the next serial number. -/
  pLoader  : Option (Nat × Nat) := none
  pSerial  : Nat := 1
  /-- A flip is spreading across the pipes (R117). -/
  flipping : Bool := false
  fib      : Tbl (Option FibEnt) := []
  /-- A channel that serves the Extended FIB has left service (R133). -/
  xfibDown : Bool := false
  /-- The Extended FIB is being disabled by moving every subtree on-die (R134). -/
  xfibOff  : Bool := false
  /-- A hot_units write that waits for subtree moves (R139). -/
  hotWrite : Option Nat := none
  /-- Descents of each tail block in the period, by the block's root (R136). -/
  hotCount : Tbl Nat := []
  hotAt    : Nat := 0
  /-- Hot copies, by root, with their count when copied; and copies under way. -/
  hot      : Tbl Nat := []
  hotWork  : Tbl Nat := []
  /-- Waiting tail descents of each pipe, by call (R131). -/
  tailQ    : Tbl (List Nat) := []
  /-- Bucket positions: key 4 × bucket + position. -/
  em       : Tbl (Option EmEnt) := []
  /-- Overflow stores of the pipes. -/
  ovf      : Tbl (List OvfEnt) := []
  ovfNext  : Nat := 0
  /-- Tables whose entries are being freed (R142). -/
  clearing : List Nat := []
  ter      : Tbl (Option TerEnt) := []
  adj      : Tbl Adj := []
  /-- Table words with an uncorrectable error, and with a single-bit error: table as LKP_ECC_UNCORR numbers it, and index (R169). -/
  eccUnc   : List (Nat × Nat) := []
  eccCor   : List (Nat × Nat) := []
  /-- Corrections of a table word in the last 24 h, by table × 2^160 + index (R529). -/
  corSeen  : Tbl (List Nat) := []
  /-- Threshold events in force: 0 on-die units, 1 prefix count, 2 + pipe overflow store. -/
  high     : List Nat := []
  deriving DecidableEq, Repr


/-- The aging sweep of a pipe (R194, R198). -/
structure Sweep where
  on     : Bool := false
  /-- Island clock at its start, its period in s, and the next bucket of the region. -/
  start  : Nat := 0
  period : Nat := 0
  bucket : Nat := 0
  deriving DecidableEq, Repr

/-- Bridging, learning and aging (chapter 04). -/
structure Brg where
  /-- BRG_DOMCFG of each domain: learn_en and limit (R202). -/
  dom     : Tbl (Bool × Nat) := []
  /-- Notices held of each pipe, with the clock at which each was produced (R187). -/
  notices : Tbl (List (Nat × List Nat)) := []
  /-- Next notice sequence number of each pipe (R188). -/
  seq     : Tbl Nat := []
  sweeps  : Tbl Sweep := []
  deriving DecidableEq, Repr


/-- A chain of buffer cells (R205, *Chain header*): header fields, where its cells lie, and its packet. Its key in the table is the
pointer to its first cell. A chain that has been freed keeps its generation. -/
structure Chain where
  gen   : Nat := 0
  /-- *Owner codes*; 0 FREE. -/
  owner : Nat := 0
  /-- Share table index when the owner is SHARED. -/
  share : Nat := 0
  /-- 0 bridge, 1 fabric reassembly, 2 host inject. -/
  src   : Nat := 0
  /-- enq_time, 32 bits. -/
  enq   : Nat := 0
  /-- Island clock at first enqueue, by which moves judge age. -/
  at_   : Nat := 0
  /-- Cell indices in order; none are listed for a chain in a Reserve page, whose cells are contiguous. -/
  cells : List Nat := []
  /-- Number of cells. -/
  n     : Nat := 0
  pkt   : Packet := {}
  /-- The ingress port and class it counts for, as 8 × port + class (R293). -/
  pfc   : Option Nat := none
  /-- The drop reason that its reader meets: 7 CELL_ECC, of an uncorrectable error that a move read (R240), 8 RESERVE_LOST (R243); 0 for none. -/
  bad   : Nat := 0
  deriving DecidableEq, Repr

/-- A chain that a queue's entry has left and its reader has not released: until then it counts in the queue's depth (R252). -/
structure Reading where
  queue : Nat
  ptr   : Nat
  gen   : Nat
  n     : Nat
  /-- Owner code of the reader. -/
  unit  : Nat
  deriving DecidableEq, Repr

/-- A cell on its way through the write crossbar: its input, the chain it belongs to and its cell index (R256). -/
structure XCell where
  input : Nat
  ptr   : Nat
  cell  : Nat
  deriving DecidableEq, Repr

/-- A queue that a packet joins: egress queue q as q, VOQ v as 2^20 + v, with what a mirror copy carries. -/
structure Dest where
  queue   : Nat
  /-- Replacement of the record header's queue field (MIRROR_FABRIC). -/
  hdrQ    : Option Nat := none
  /-- Session of a MIRROR_CAPTURE or MIRROR_FABRIC copy. -/
  session : Option Nat := none
  deriving DecidableEq, Repr

/-- A chain that its writer has not linked yet (R260), and the queues it will join. -/
structure Job where
  ptr   : Nat
  dests : List Dest
  deriving DecidableEq, Repr

/-- A copy under way (R220): 0 prefetch, 1 eviction, 2 evacuation. -/
structure Move where
  src   : Nat
  gen   : Nat
  kind  : Nat
  dst   : Nat
  cells : List Nat
  deriving DecidableEq, Repr

/-- The packet buffer (chapter 05). Writers are numbered 0 to 3 for the pipes' bridge streams, 4 + l for fabric link l, 52 for host
inject and 53 for moves. -/
structure Bpm where
  chains   : Tbl Chain := []
  /-- Cells taken of the shallow tier (key: cell) and of the deep tier (key: 2^38 + cell). -/
  used     : Tbl Bool := []
  /-- Cells that an uncorrectable error has made unreachable, until the audit returns them (R241). -/
  lost     : List Nat := []
  /-- Shallow cells of weak rows, which no free list takes any longer (R529). -/
  weak     : List Nat := []
  /-- Chains being written, oldest first, by writer. -/
  jobs     : Tbl (List Job) := []
  /-- Cells that wait for a place at their input, by writer; a fabric link's are its holding buffer (R259). -/
  wait     : Tbl (List XCell) := []
  /-- Cells waiting at crossbar inputs 0 to 120. -/
  inputs   : Tbl (List XCell) := []
  /-- Grant pointers of the banks and accept pointers of the inputs (R257, R258). -/
  grantP   : Tbl Nat := []
  acceptP  : Tbl Nat := []
  /-- Reference counts of the share table entries in use (R232). -/
  share    : Tbl Nat := []
  /-- BPM_SHARE_HIGH is in force, and the tiers whose BPM_POOL_LOW is: 0 write area, 1 deep, 2 Reserve. -/
  shareHigh : Bool := false
  low      : List Nat := []
  moves    : List Move := []
  /-- Chains and copies in each Reserve page in use (R211). -/
  pages    : Tbl Nat := []
  /-- Channels in the Reserve stripe (R210). -/
  stripe   : List Nat := []
  /-- Chains with their readers, oldest first (R252). -/
  reading  : List Reading := []
  /-- Cells released in the clock cycle `releasedAt` (R219), by their keys in `used`; pages as 2^41 + page. -/
  released : List Nat := []
  releasedAt : Nat := 0
  /-- The allocator's cycle: its clock, the place of the requester served last in the order of that cycle, and the requests it has had (R217). -/
  allocAt  : Nat := 0
  allocPos : Nat := 0
  allocN   : Nat := 0
  /-- Next queue of the eviction rotation, and the time in units of 2^-32 ns before which no page may be started (R230), and no copy off a
  RESERVE channel (R243). -/
  evictNext : Nat := 0
  evictAt  : Nat := 0
  evacAt   : Nat := 0
  /-- The prefetch area and the deep cells per stack in force since the last enable (R208, R209). -/
  prefetch : Nat := 131072
  /-- The buffer has been enabled: until then the free counts read 0. -/
  started  : Bool := false
  deepM    : Nat := 184
  /-- Evacuations under way: PC numbers, and 1,000 + channel (R242, R243). -/
  evac     : List Nat := []
  /-- Retired pseudo-channels, whose cells the deep tier has lost. -/
  gone     : List Nat := []
  /-- Failed RESERVE channels (R243). -/
  failed   : List Nat := []
  /-- Exact cell counts of the profiles (R244). -/
  occ      : Tbl Nat := []
  /-- Ingress occupancies, key 8 × port + class (R293). -/
  pfc      : Tbl Nat := []
  /-- Classes under xoff: island clock of the last PFC frame plus 1, key 8 × port + class (R294). -/
  pfcSent  : Tbl Nat := []
  deriving DecidableEq, Repr


/-- A queue entry (R247): the handle of the chain it references, its cells, the packet length, and what a mirror copy carries. -/
structure QEnt where
  ptr     : Nat
  gen     : Nat := 0
  n       : Nat := 0
  len     : Nat
  hdrQ    : Option Nat := none
  session : Option Nat := none
  deriving DecidableEq, Repr

/-- An egress queue or VOQ: its entries, oldest first, and its depth in cells and packets, which counts a chain until it is released (R252). -/
structure Queue where
  ents  : List QEnt := []
  cells : Nat := 0
  pkts  : Nat := 0
  deriving DecidableEq, Repr

/-- The credit state of a VOQ (R270 to R273). -/
structure Voq where
  balance : Int := 0
  /-- Island clock of the last GRANT or of becoming non-empty, and of the last REQUEST. -/
  grantAt : Nat := 0
  reqAt   : Nat := 0
  deriving DecidableEq, Repr

/-- A credit flow (R274 to R278); its key is 65,536 × ingress device + VOQ. -/
structure Flow where
  outstanding : Int := 0
  /-- Island clock of the last cell, or of the grant that made the credit outstanding. -/
  cellAt  : Nat := 0
  /-- It has sent EMPTY since its last REQUEST. -/
  emptied : Bool := false
  deriving DecidableEq, Repr

/-- The credit generator of a destination (R274). -/
structure CreditGen where
  /-- Unit in hand, and the time in units of 2^-32 ns since when it earns the next. -/
  unit : Bool := false
  at_  : Nat := 0
  /-- The flow last granted of each class, plus 1. -/
  last : Tbl Nat := []
  deriving DecidableEq, Repr

/-- How far a bucket's move has come (R286). -/
inductive MovePhase where
  | none | draining | delay
  deriving DecidableEq, Repr

/-- A bucket of a destination device (R283, R286). -/
structure Bucket where
  link   : Option Nat := .none
  held   : Bool := false
  phase  : MovePhase := .none
  /-- Link that a rebuild moves it to; none where the link with the fewest buckets is taken. -/
  target : Option Nat := .none
  /-- Island clock at which the fabric delay started. -/
  at_    : Nat := 0
  deriving DecidableEq, Repr

/-- A packet in a link transmit queue: its bucket, chain, generation, VOQ and length. -/
structure TxPkt where
  bucket  : Nat
  ptr     : Nat
  gen     : Nat
  voq     : Nat
  len     : Nat
  deriving DecidableEq, Repr

/-- A fabric cell in a link transmit queue (R481, R482); its sequence number is given when it is sent. -/
structure TxCell where
  ucast   : Bool
  cls     : Nat
  /-- Destination device or multicast group. -/
  dst     : Nat
  payload : List Nat
  /-- Offset of the first record that begins in the cell, 0xFF for none. -/
  first   : Nat
  pkts    : List TxPkt
  deriving DecidableEq, Repr

/-- A credit message in the outbox (R491): the device it goes to and its 8 bytes. -/
structure CreditMsg where
  dev   : Nat
  bytes : List Nat
  deriving DecidableEq, Repr

/-- Queues and the fabric scheduler (chapter 06). -/
structure Qm where
  queues   : Tbl Queue := []
  /-- Words of the indirect entries, key (kind × 2^21 + index) × 4 + word; word 1 of kind 3 is `stop`. -/
  tab      : Tbl Nat := []
  stop     : Tbl Nat := []
  voqs     : Tbl Voq := []
  /-- Replica pool entries in use (R248). -/
  replicas : Nat := 0
  flows    : Tbl Flow := []
  /-- The wait list of the credit flow table (R277). -/
  flowWait : List Nat := []
  gens     : Tbl CreditGen := []
  /-- Time in units of 2^-32 ns from which an MCAST destination may send again (R267). -/
  pace     : Tbl Nat := []
  /-- Buckets, key 64 × device + bucket. -/
  buckets  : Tbl Bucket := []
  txq      : Tbl (List TxCell) := []
  /-- VOQ last served of each class, plus 1 (R285). -/
  voqLast  : Tbl Nat := []
  /-- Cause of a link's drain, as QM_LINK_DRAINED gives it, and the island clock plus 1 at which the drain started (R493). -/
  cause    : Tbl Nat := []
  drainAt  : Tbl Nat := []
  /-- Unreachable devices, and the island clock plus 1 at which each became so while its timer runs (R292). -/
  unreach  : List Nat := []
  unreachAt : Tbl Nat := []
  /-- Island clock plus 1 at which the hold of a port began (R300). -/
  holdAt   : Tbl Nat := []
  /-- Island clock at which a received pause ends, key 8 × port + class (R297). -/
  pauseEnd : Tbl Nat := []
  deriving DecidableEq, Repr


/-- A shaper's bucket (R322): token count, remainder and the network time in ns of its last evaluation. -/
structure Shaper where
  rate  : Nat := 0
  burst : Nat := 16384
  tok   : Int := 0
  rem   : Int := 0
  at_   : Nat := 0
  /-- A rate and burst that apply at the next refill boundary (R327). -/
  next  : Option (Nat × Nat) := none
  deriving DecidableEq, Repr

/-- A node of the scheduler tree (R309 to R316); its key is level × 2^20 + index. -/
structure Node where
  enable : Bool := false
  cnz5   : Bool := false
  pnz5   : Bool := false
  /-- Token modes: true ZERO. -/
  ctok   : Bool := true
  ptok   : Bool := true
  band   : Nat := 0
  lprof  : Nat := 0
  weight : Nat := 1
  parent : Nat := 0
  comm   : Shaper := {}
  peak   : Shaper := {}
  /-- A parent that takes effect when the committed candidate has gone (R319). -/
  newParent : Option Nat := none
  /-- As a child: finish time, the cost it was last raised by, eligible since it was set, and history kept (R316). -/
  f      : Nat := 0
  c      : Nat := 0
  elig   : Bool := false
  hist   : Bool := false
  /-- As a parent: virtual times by band, the child selected, and whether the committed pass chose it. -/
  v      : Tbl Nat := []
  pick   : Option Nat := none
  commPass : Bool := false
  deriving DecidableEq, Repr

/-- A policer (R329 to R334). -/
structure Policer where
  enable  : Bool := false
  twoRate : Bool := false
  aware   : Bool := false
  count   : Bool := false
  cir     : Nat := 0
  cbs     : Nat := 0
  pir     : Nat := 0
  ebs     : Nat := 0
  tc      : Nat := 0
  te      : Nat := 0
  /-- Remainders of the two rates, and the network time in ns of the last evaluation. -/
  rc      : Int := 0
  rp      : Int := 0
  at_     : Nat := 0
  deriving DecidableEq, Repr

/-- The time gate of a line port (R335 to R344). -/
structure Gate where
  /-- Entries of list banks 0 and 1: gate bits and interval, key 1,024 × bank + entry. -/
  list   : Tbl (Nat × Nat) := []
  /-- The operational bank, with its start time in ns, cycle time and length. -/
  oper   : Option (Nat × Nat × Nat × Nat) := none
  /-- A pending list: start time in ns, cycle time and length; it lies in the other bank. -/
  pend   : Option (Nat × Nat × Nat) := none
  /-- The administrative bank, and the gate states held before the operational list started (R344). -/
  admin  : Nat := 0
  before : Nat := 255
  /-- Gate states as the scheduler applies them (R337). -/
  sched  : Nat := 255
  deriving DecidableEq, Repr

/-- Scheduling, policing and time gates (chapter 07). -/
structure Sch where
  nodes : Tbl Node := []
  /-- The port served next (R314). -/
  next  : Nat := 0
  pol   : Tbl Policer := []
  gates : Tbl Gate := []
  deriving DecidableEq, Repr


/-- *Ring states* (chapter 08), in their numbers 0 to 5. -/
inductive RingSt where
  | off | running | parked | stopping | stopped | error
  deriving DecidableEq, Repr

/-- How far a taken descriptor has come (R368, R371, R380). -/
inductive TakenSt where
  | running | preempted | parked
  /-- A resume condition is met; the descriptor resumes as pre-empted work of its class (R381). -/
  | ready
  deriving DecidableEq, Repr

/-- A taken descriptor (R368, R369): its 64 bytes in native form, and what the host interface holds of its execution. -/
structure Taken where
  desc      : List Nat
  index     : Nat
  st        : TakenSt
  /-- Entries applied from the start of the original work (R369, R373). -/
  progress  : Nat
  /-- Where a dump stands in its table, or which load owns a bank; kept by the token. -/
  cursor    : Nat := 0
  /-- Entries that a dump had written when it last filled its buffer. -/
  base      : Nat := 0
  /-- Regions already applied of an EM_BULK record (R146). -/
  sub       : Nat := 0
  /-- Faulting address (R380). -/
  faultAddr : Nat := 0
  /-- A Success response, and a doorbell after the fault, have come (R381). -/
  gotPage   : Bool := false
  gotBell   : Bool := false
  /-- Island clock of the take, of the last entry boundary and of the parking. -/
  takenAt   : Nat := 0
  stepAt    : Nat := 0
  parkedAt  : Nat := 0
  /-- The completion is due when a background operation ends (SELFTEST, BLOCK_RESET, REPAIR, UPD, BRIDGE_RETRAIN). -/
  waits     : Bool := false
  deriving DecidableEq, Repr

/-- A packet selected for a punt port, until it is written to a buffer (R385): class, chain, generation and header queue. -/
structure PuntPkt where
  cls : Nat
  ptr : Nat
  gen : Nat
  len : Nat
  deriving DecidableEq, Repr

/-- A descriptor ring (R353 to R361) with its Ring Context Table entry as cached (R355). -/
structure Ring where
  st        : RingSt := .off
  /-- Cause of ERROR: 1 DOORBELL, 2 FETCH, 3 RCT. -/
  cause     : Nat := 0
  kind      : Nat := 0
  cls       : Nat := 0
  nz5       : Bool := false
  pasidEn   : Bool := false
  irqEn     : Bool := false
  recSize   : Nat := 0
  pasid     : Nat := 0
  vector    : Nat := 0
  base      : Nat := 0
  cplBase   : Nat := 0
  wbAddr    : Nat := 0
  sizeLog2  : Nat := 0
  head      : Nat := 0
  tail      : Nat := 0
  /-- One beyond the last completion written. -/
  completed : Nat := 0
  /-- Sequence number of the next event record. -/
  seq       : Nat := 0
  armed     : Bool := false
  /-- Work written since the last cause, not yet reported (R394). -/
  unreported : Bool := false
  taken     : Option Taken := none
  /-- PUNT rings: taken buffers that are not filled yet, oldest first (R385). -/
  buffers   : List Taken := []
  /-- The packet whose write to the first of them met a fault (R386). -/
  stuck     : Option PuntPkt := none
  /-- Descriptors read ahead of the head (R361). -/
  ahead     : List (List Nat) := []
  /-- The eight bytes last written to wb_addr, and when (R356). -/
  wbLast    : Option Nat := none
  wbAt      : Nat := 0
  /-- Island clock of the last take from the ring, of the start, or of the record that filled it (R378). -/
  lastTake  : Nat := 0
  /-- A record ring that has posted its stall waits (R378). -/
  stallSaid : Bool := false
  deriving DecidableEq, Repr

/-- An MSI-X vector (R395). -/
structure Vec where
  /-- Pending causes, and the island clock of the oldest. -/
  causes  : Nat := 0
  oldest  : Nat := 0
  /-- Island clock of the last message. -/
  lastMsg : Option Nat := none
  /-- Pending bit of the pending bit array. -/
  pba     : Bool := false
  deriving DecidableEq, Repr

/-- A completion or record write held while no DMA can be issued (R350): ring, address and bytes. -/
structure HeldWrite where
  ring  : Nat
  addr  : Nat
  bytes : List Nat
  deriving DecidableEq, Repr

/-- A resume token issued by a completion (R373): the opcode, the operand bytes 16 to 63 and the position it names; its
value is the free value of its serial number. -/
structure Token where
  serial   : Nat
  opcode   : Nat
  operands : List Nat
  pos      : Nat
  cursor   : Nat
  base     : Nat
  sub      : Nat
  deriving DecidableEq, Repr

/-- A page request of a ring (R380, R382): its PASID if its DMA carries one, the page, and whether it was sent or waits for an allocation. -/
structure PageReq where
  ring  : Nat
  pasid : Option Nat
  page  : Nat
  sent  : Bool
  deriving DecidableEq, Repr

/-- What the host's configuration writes have set in the PCIe function (R348) and the device acts on. DESIGN CHOICE (log entry 102): as
an enumerated host leaves it. -/
structure PcieCfg where
  /-- MSI-X enable, and its function mask. -/
  msix     : Bool := true
  maskAll  : Bool := false
  ats      : Bool := true
  pri      : Bool := true
  /-- Page requests that the host lets be outstanding, up to 512. -/
  priAlloc : Nat := 512
  deriving DecidableEq, Repr

/-- The host interface (chapter 08). -/
structure Hif where
  rings     : Tbl Ring := []
  /-- The ring whose descriptor the executor runs (R367). -/
  exec      : Option Nat := none
  /-- The ring last served of each class, for the rotation of R367. -/
  lastRing  : Tbl Nat := []
  /-- The PUNT ring last served of each class (R385). -/
  lastPunt  : Tbl Nat := []
  /-- Packets selected for the punt ports, oldest first. -/
  puntQ     : List PuntPkt := []
  /-- Event records that wait to be written, oldest first. -/
  events    : List EvRec := []
  vecs      : Tbl Vec := []
  /-- MSI-X table words: key 4 × vector + word; vector control resets to masked. -/
  msix      : Tbl Nat := []
  /-- The function may issue DMA: bus mastering on, not in D3hot (R350). -/
  busMaster : Bool := true
  /-- The host interface is held in reset, and HIF_RCTL accepts writes until the first RING_START completes (R398). -/
  inReset   : Bool := false
  rctlOpen  : Bool := false
  /-- The ring that HIF_RCTL.stop was last asked to stop. -/
  rctlStop  : Option Nat := none
  /-- A ring that HIF_RCTL.start was asked to start while its RCT entry could not be read (R350). -/
  rctlStart : Option Nat := none
  /-- The link has trained once (R349). -/
  trained   : Bool := false
  held      : List HeldWrite := []
  cfg       : PcieCfg := {}
  /-- Page requests that are outstanding or wait to be sent, oldest first (R382). -/
  requests  : List PageReq := []
  /-- Event discards of each class since the last HIF_EVENT_LOST written to its ring (R393). -/
  lost      : Tbl Nat := []
  tokens    : List Token := []
  nextToken : Nat := 0
  /-- Rings whose RCT entries the cache holds, most recent first (R355). -/
  cache     : List Nat := []
  deriving DecidableEq, Repr


/-- A request of a port to a memory controller (R412, R413), with the data written, or the data that a read will return. -/
structure MReq where
  port   : Nat
  write  : Bool
  rank   : Nat
  bank   : Nat
  row    : Nat
  col    : Nat
  data   : Nat
  /-- Island clock of arrival. -/
  at_    : Nat
  /-- Hits that arrived later and were served while it waited as a miss. -/
  passed : Nat := 0
  /-- It has entered its bank queue. -/
  banked : Bool := false
  /-- A read of the patrol scrub (R422). -/
  scrub  : Bool := false
  deriving DecidableEq, Repr

/-- A memory controller: pseudo-channel 0 to 383, or 384 + DDR5 channel (R412 to R420). Keys are ranks, or 64 × rank + bank. -/
structure Ctl where
  /-- Requests in order of arrival. -/
  reqs    : List MReq := []
  /-- Ports in panic, and the port after the one last served in panic. -/
  panic   : List Nat := []
  turn    : Nat := 0
  /-- Open row of each bank, plus 1, and the bank last activated. -/
  open_   : Tbl Nat := []
  lastAct : Nat := 0
  /-- Writes left in the batch under way. -/
  batch   : Nat := 0
  /-- Refresh debt, forced refreshes to issue, and the island clock from which the next interval runs, by rank. -/
  debt    : Tbl Nat := []
  forced  : Tbl Nat := []
  dueAt   : Tbl Nat := []
  /-- Ranks in a forced burst (R419). -/
  burst   : List Nat := []
  /-- Neighbour refreshes due, and the last one issued: bank key, and the rows it covers (R420). -/
  nbr     : List (Nat × List Nat) := []
  nbrLast : Option (Nat × List Nat) := none
  /-- Activate tables: rows with their counts. -/
  rac     : Tbl (List (Nat × Nat)) := []
  /-- Island clock of the last command of each rank, ranks in power-down, and of the last request. -/
  cmdAt   : Tbl Nat := []
  asleep  : List Nat := []
  busyAt  : Nat := 0
  /-- Corrected errors of each data lane, and uncorrectable errors, in their 1 s windows: start and count. -/
  ce      : Tbl (Nat × Nat) := []
  ue      : Nat × Nat := (0, 0)
  /-- The data lanes being repaired, oldest first (R425). -/
  fixing  : List Nat := []
  /-- Location that the patrol scrub reads next, and the island clock at which its pass began, plus 1 (R422). -/
  scrubAt : Nat := 0
  scrubOn : Nat := 0
  /-- The last read returned: port, data, and whether it was poisoned. -/
  read    : Option (Nat × Nat × Bool) := none
  deriving DecidableEq, Repr

/-- What the device drives toward a module (R431, R433): DDRn_SLOT_EN and DDRn_RESET_N high, the clock running, the PHY powered. -/
structure DdrPins where
  slotEn : Bool := false
  resetN : Bool := false
  clock  : Bool := false
  phy    : Bool := false
  deriving DecidableEq, Repr

/-- HBM and DDR5 memory (chapter 09). -/
structure Mem where
  ctls     : Tbl Ctl := []
  /-- Contents as the controllers have accepted them: key (((controller × 8 + rank) × 64 + bank) × 2^24 + row) × 2^16 + column. -/
  store    : Tbl Nat := []
  /-- Failed temperature reads in a row, and the island clock of the last one: stack, or 8 + channel. -/
  tempBad  : Tbl Nat := []
  tempAt   : Tbl Nat := []
  /-- Start of the refresh window in which the activate tables count (R420). -/
  racAt    : Nat := 0
  /-- Island clock of the last re-centring, key 32 × controller + lane group (R411). -/
  centreAt : Tbl Nat := []
  /-- Pseudo-channels retired, with their cause, and the data lanes that spares replace: the record in MRAM (R424). -/
  retired  : Tbl Nat := []
  repairs  : Tbl (List Nat) := []
  /-- Lane groups of HBM, key 32 × pseudo-channel + group: read and write delay as 256 × rd + wr, signed steps from nominal, and the narrowest
  passing run (R407, R411). -/
  eyes     : Tbl (Nat × Nat) := []
  /-- Failed attempts at a training step: stack, or 8 + channel (R408). -/
  tries    : Tbl Nat := []
  /-- Island clock, plus 1, at which a channel's background initialisation started (R406). -/
  initAt   : Tbl Nat := []
  /-- What each channel's module is driven with. -/
  pins     : Tbl DdrPins := []
  /-- Eighths of the bank array masked from refresh, of channels in self-refresh (R430). -/
  masked   : Tbl Nat := []
  /-- Cause of a retirement under way. -/
  cause    : Tbl Nat := []
  /-- Channels that REPAIR kind 5 brings back, those that were in the stripe before their evacuation (R433), and those that a warm reset
  restores from self-refresh (R432). -/
  back     : List Nat := []
  striped  : List Nat := []
  restore  : List Nat := []
  deriving DecidableEq, Repr

/-- A line port and its MAC (chapter 10), beyond its registers. -/
structure LinePort where
  /-- Frames waiting at the MAC, by class, oldest first. -/
  wait    : Tbl (List Packet) := []
  /-- PFC frames waiting, oldest first: class-enable vector and pause time (R294). -/
  pfc     : List (Nat × Nat) := []
  /-- The last frame started, as its bytes without frame check sequence; whether it ends with an error code (R439); and the time at which it
  and its gap end, in units of 1/1,600 ns, of which a bit at every port rate is a whole number. -/
  tx      : Option (List Nat) := none
  txBad   : Bool := false
  txEnd   : Nat := 0
  /-- The logical lane that each of the port's lanes sends, and the one whose alignment markers it receives (R443). -/
  txOrder : List Nat := []
  rxOrder : List Nat := []
  /-- Island clock at which the port last left UP, plus 1 (R456). -/
  leftAt  : Nat := 0
  /-- The last step of *Bring-up* that has ended, 1 to 7, and the island clock at which it did. -/
  step    : Nat := 0
  stepAt  : Nat := 0
  /-- Step 5 runs as a fast reacquire (R450). -/
  fast    : Bool := false
  /-- Loss of block lock, alignment or FEC lock; local and remote fault received (R453). -/
  unlocked : Bool := false
  rxLocal : Bool := false
  rxRemote : Bool := false
  /-- Island clock since when the fault condition is present (FAULT_PENDING) or absent (DOWN), plus 1. -/
  since   : Nat := 0
  deriving DecidableEq, Repr

/-- A serial lane (line lanes 0 to 127; fabric lane f is 128 + f), beyond its registers. -/
structure Lane where
  /-- Good markers in a row of VERIFY, and bad ones in a row of LOCKED (R446). -/
  good    : Nat := 0
  bad     : Nat := 0
  /-- Temperature at which the adaptation state was frozen, if it was (R450). -/
  frozenT : Option Int := none
  /-- Island clock of the last polarity switch, and whether the lane has locked since it entered ACTIVE and so keeps its polarity (R442). -/
  polAt   : Nat := 0
  polKept : Bool := false
  /-- Island clock of the last good marker, by which links judge skew (R473). -/
  markAt  : Nat := 0
  /-- Codeword position of the marker last looked for, from which the next one's distance follows (R447). -/
  cw      : Nat := 0
  /-- A fabric lane adapts since this island clock, plus 1, and whether it tries the frozen state (R450). -/
  adaptAt : Nat := 0
  fast    : Bool := false
  deriving DecidableEq, Repr

/-- Line ports and lanes. -/
structure Lpt where
  ports : Tbl LinePort := []
  lanes : Tbl Lane := []
  deriving DecidableEq, Repr


/-- The lane markers that a fabric link sends (R445); the same on its four lanes but for lane and bip. -/
structure MarkerTx where
  /-- Blocks sent on each lane since its last marker; a link begins with a marker. -/
  count   : Nat := 16383
  /-- seq and codeword position of the next marker. -/
  seq     : Nat := 0
  cw      : Nat := 0
  /-- BIP-8 over those blocks, by logical lane. -/
  bip     : List Nat := [0, 0, 0, 0]
  /-- The last markers sent, 257 bits with bit 0 first, on FB 4l to 4l + 3. -/
  sent    : List Nat := []
  deriving DecidableEq, Repr

/-- A fabric link (chapter 11), beyond its registers. -/
structure FLink where
  /-- Frames confirmed in PRESYNC, and frames in a row whose alignment word differed (R477). -/
  seen    : Nat := 0
  miss    : Nat := 0
  /-- Persistence runs of psr and rdi: value and length (R485, R489); psr last accepted since IN_FRAME. -/
  psr     : Option (Nat × Nat) := none
  rdi     : Option (Nat × Nat) := none
  /-- rdi last accepted. -/
  rdiIn   : Bool := false
  /-- Frames in a row that matched FLK_EXPID (R498). -/
  idRun   : Nat := 0
  /-- Island clock plus 1 since when each condition has been present, and absent while declared: LOS, LOA, LOF. -/
  presentAt : Tbl Nat := []
  absentAt  : Tbl Nat := []
  /-- Counts of the second under way: BIP bits, corrected and uncorrectable codewords, idle cells (R495). -/
  bip     : Nat := 0
  cor     : Nat := 0
  unc     : Nat := 0
  idle    : Nat := 0
  /-- The aligner was out of frame, or a defect was declared, during the second (R496). -/
  oof     : Bool := false
  defect  : Bool := false
  /-- Next frame count to send, scrambler state, BIP-8 of the last frame sent (R474, *overhead cell*). -/
  fcount  : Nat := 0
  scr     : Nat := 2147483647
  lastBip : Nat := 0
  /-- The last frame sent: its overhead cell before scrambling and its fabric cells. -/
  sent    : List (List Nat) := []
  /-- The lane markers sent, and the time at which the last frame ends, in ps (R445, R469). -/
  mark    : MarkerTx := {}
  txEnd   : Nat := 0
  deriving DecidableEq, Repr

/-- A reassembly context (R482): next sequence number, and the record under way with the bytes it still lacks. -/
structure Ctx where
  next    : Nat := 0
  part    : List Nat := []
  owed    : Nat := 0
  /-- The link whose cells feed it, plus 1. -/
  link    : Nat := 0
  deriving DecidableEq, Repr

/-- The fabric links. -/
structure Flk where
  links  : Tbl FLink := []
  /-- Contexts, key ((source device × 64) + source link) × 2 + (1 for MULTICAST). -/
  ctxs   : Tbl Ctx := []
  /-- Sequence counters, key 2,048 × link + destination device. -/
  seqs   : Tbl Nat := []
  /-- Records delivered to the reassembly writers and not yet admitted, by link: multicast group or none, and the packet. -/
  recs   : Tbl (List (Option Nat × Packet)) := []
  /-- The links of those records, in order of arrival (R217). -/
  recOrd : List Nat := []
  outbox : List CreditMsg := []
  /-- The link last used toward each device, plus 1 (R490). -/
  rot    : Tbl Nat := []
  /-- Links retired by REPAIR, kept in the settings store (R532). -/
  retired : List Nat := []
  deriving DecidableEq, Repr



/-- An output of a seat (R35, R502): an FD reset and power command, or any other register access, table access, request or message, as its
word. -/
inductive SeatOut where
  | word (v : Nat)
  | fdPower (on inReset : Bool)
  deriving DecidableEq, Repr

/-- An input of the seats (R501): the data of a register read, a request of the host interface (ring and descriptor), a message of the island
and an interrupt, by the event that goes with it. -/
inductive SeatIn where
  | readData (v : Nat)
  | request (ring index : Nat)
  | island (code : Nat)
  | interrupt (code : Nat)
  deriving DecidableEq, Repr

/-- A management seat (chapter 12), beyond its registers. -/
structure Seat where
  /-- Why it is DETACHED: 1 ROLLBACK_LIMIT, 2 a stalemate; 0 where it is not. -/
  detached : Nat := 0
  /-- It is OFFLINE because its feed left its range. -/
  feedLost : Bool := false
  /-- Island clock at which it last heard the other seat, and at which it last sent its heartbeats. -/
  heardAt  : Nat := 0
  sentAt   : Nat := 0
  /-- The role that a rollback interrupted. -/
  role     : Nat := 0
  /-- Outputs that the boundary holds, oldest first: sequence number and value (R502). -/
  held     : List (Nat × SeatOut) := []
  /-- Inputs delivered to it since the last committed checkpoint, with the island clock of their delivery, oldest first (R501, R508). -/
  inputs   : List (Nat × SeatIn) := []
  /-- It runs the seat firmware of a trial image. -/
  trialFw  : Bool := false
  deriving DecidableEq, Repr

/-- A RESIGNED unit (R518): its resign handle's fields, and whether RESIGN_CLEAR has started its test. -/
structure Resigned where
  kind    : Nat
  unit    : Nat
  slot    : Nat
  serial  : Nat
  testing : Bool := false
  deriving DecidableEq, Repr

/-- A cluster under SRAM repair (R530): the step of *Cluster SRAM repair* in progress, the role to return, and what the repair has found. -/
structure ClRepair where
  cluster : Nat
  step    : Nat
  role    : Nat
  rows    : List (Nat × Nat) := []
  spares  : Nat := 0
  bad     : Bool := false
  /-- The cluster stays OFF (R531). -/
  stays   : Bool := false
  deriving DecidableEq, Repr

/-- Seats, resignations, bridge loss, repairs and service life (chapter 12), and self-tests and block resets (chapter 14). -/
structure Res where
  a         : Seat := {}
  b         : Seat := {}
  /-- Sequence number of the last seat output released (R503), and its value. -/
  lastOut   : Nat := 0
  lastVal   : SeatOut := .word 0
  /-- Since when both seats stall for their self-check (R505). -/
  checking  : Option Nat := none
  /-- Island clock of the last checkpoint commit, and the journal: the inputs recorded since (R508). -/
  ckptAt    : Nat := 0
  journal   : List SeatIn := []
  /-- Begins of the last two rollbacks (R510). -/
  rollbacks : List Nat := []
  /-- The ACTIVE role passes at the next commit (R515). -/
  handover  : Bool := false
  /-- The seat last ACTIVE (R513), and the island clock at which the island last heard a seat. -/
  lastActive : Nat := 0
  islandAt  : Nat := 0
  /-- Since when heartbeats have passed both ways between the seats (R512). -/
  bothSince : Option Nat := none
  /-- Island clock since when outputs are released without comparison, and ns not yet counted in SEAT_UNPROT_MS (R502). -/
  unprotAt  : Nat := 0
  unprotNs  : Nat := 0
  serial    : Nat := 0
  resigned  : List Resigned := []
  repair    : Option ClRepair := none
  /-- Rows found weak since the last reset, and the repair records in MRAM (R529): array as RES_SRAM_WEAK numbers it, cluster or 0xFF, and
  row. Corrections seen of a row of a cluster array or of the shallow buffer, key (256 × array + cluster) × 2^32 + row. -/
  weak      : List (Nat × Nat × Nat) := []
  rows      : List (Nat × Nat × Nat) := []
  corSeen   : Tbl (List Nat) := []
  /-- Links being retired (R532). -/
  retiring  : List Nat := []
  /-- Island clock of the bridge's loss, the step of *Rejoin* in progress, 0 for none, and the clock of the last automatic rejoin. -/
  lostAt    : Nat := 0
  rejoin    : Nat := 0
  autoAt    : Nat := 0
  /-- Since when the VOQs hold their packets (*Island behaviour*). -/
  holdAt    : Option Nat := none
  /-- Records that the FD keeps while the bridge is lost, and its discards by class. -/
  kept      : List EvRec := []
  keptLost  : Tbl Nat := []
  /-- Self-tests under way, by kind: the unit, plus 1 (R595). -/
  tests     : Tbl Nat := []
  /-- Block resets under way, by BAR0 base: island clock plus 1; and epochs of block units (R517). -/
  resets    : Tbl Nat := []
  blkEpoch  : Tbl Nat := []
  /-- Adaptive voltage of FD (0) and TD (1): island clock of the last check, since when (plus 1) the margin has exceeded its target by 3 ps, and
  since when it has been below target at +40 mV; dies that have posted RES_AGE_MARGIN (R533). -/
  avsAt     : Nat := 0
  avsHigh   : Tbl Nat := []
  avsLow    : Tbl Nat := []
  avsSaid   : List Nat := []
  /-- AVSBus writes not acknowledged in a row, by die, and the island clock of the last (R636). -/
  avsMiss   : Tbl Nat := []
  avsTryAt  : Nat := 0
  /-- Stress log (R534): island clock of the last sample, seconds in each bin beyond whole hours, sum of the samples in 0.1 °C and their
  number. -/
  stressAt  : Nat := 0
  stressSec : Tbl Nat := []
  tjSum     : Int := 0
  tjCount   : Nat := 0
  deriving DecidableEq, Repr


/-- A record of MRAM (*Record*, R539), as its fields. Lifetime holds the adaptive-voltage offsets and the stress log: key 0 FD steps, 1 TD
steps, 2 to 4 hours, 5 average, 6 number of samples. -/
structure Record where
  seq       : Nat := 0
  fmt       : Nat := 0
  confirmed : Nat := 0
  trial     : Option Nat := none
  bootFails : Nat := 0
  /-- 0 EMPTY, 1 UNSEALED, 2 SEALED, 3 BAD, by area. -/
  areas     : Tbl Nat := []
  confVer   : Nat := 0
  trialVer  : Nat := 0
  session   : Nat := 0
  lifetime  : Tbl Nat := []
  /-- Stored settings: register fields by key, and retired links. -/
  settings  : Tbl Nat := []
  links     : List Nat := []
  /-- Trained delays (R409): 256 × rd + wr, key 32 × controller + lane group. -/
  delays    : Tbl Nat := []
  deriving DecidableEq, Repr

/-- A chain port (R552 to R555). -/
structure ChainPort where
  /-- Island clock of the last good HELLO, and of the last HELLO sent. -/
  heardAt : Nat := 0
  sentAt  : Nat := 0
  /-- The messages that the last command to send any sent. -/
  out     : List (List Nat) := []
  /-- The running session is forwarded here: 0 no, 1 offered, 2 accepted. -/
  fwd     : Nat := 0
  /-- Blocks held for the downstream device, oldest first, with their offsets: those sent and not acknowledged come first. -/
  buf     : List (Nat × List Nat) := []
  sent    : Nat := 0
  /-- Offset acknowledged, and the island clock at which ACK last advanced, or the first block was sent; and of the last resend. -/
  acked   : Nat := 0
  ackAt   : Nat := 0
  retryAt : Nat := 0
  deriving DecidableEq, Repr

/-- Castling and revert under way (R557, R567): the step in progress, and what it has left to do. -/
structure Castle where
  step     : Nat
  revert   : Bool
  /-- Cause of a revert: 0 TIMER, 1 ABORT. -/
  cause    : Nat := 0
  /-- The seat that boots the new firmware first. -/
  seat     : Nat := 0
  /-- Clusters still to be loaded and flipped, and lane groups still to be served, in order. -/
  clusters : List Nat := []
  groups   : List Nat := []
  deriving DecidableEq, Repr

/-- Firmware images and their update (chapter 13). -/
structure Upd where
  rec0      : Option Record := none
  rec1      : Option Record := none
  /-- Island clock plus 1 at which the last record was written. -/
  recAt     : Nat := 0
  /-- Bytes of the SPI NOR flash, erased to 0xFF. -/
  nor       : Tbl Nat := []
  /-- Key hashes in the fuses, by slot. -/
  keys      : Tbl (List Nat) := []
  /-- The trip recorded in the settings store: sensor and temperature (R642). -/
  trip      : Option (Nat × Nat) := none
  /-- The container received so far. -/
  got       : List Nat := []
  header    : List Nat := []
  /-- Island clock of the last byte received, of VERIFIED, and of TRIAL. -/
  byteAt    : Nat := 0
  heldAt    : Nat := 0
  trialAt   : Nat := 0
  castle    : Option Castle := none
  /-- Banks displaced by the trial image, by cluster, plus 1. -/
  displaced : Tbl Nat := []
  /-- Lane groups that run the trial image's firmware. -/
  serdes    : List Nat := []
  chnA      : ChainPort := {}
  chnB      : ChainPort := {}
  /-- An ACK withheld because the forward buffer was full (R554). -/
  ackOwed   : Bool := false
  /-- The piece buffer of the recovery window, and the island clock of DONE (R572). -/
  piece     : Tbl Nat := []
  doneAt    : Nat := 0
  deriving DecidableEq, Repr


/-- Power sequencing, pins and boot (chapters 14 and 16). -/
structure Pwr where
  /-- SYSRST_N is low. -/
  sysrst   : Bool := false
  /-- AUXCLK_IN is lost, and the island held in reset (R643). -/
  clkLost  : Bool := false
  /-- Main rails: 0 off, 1 rising, 2 on, 3 falling. -/
  phase    : Nat := 0
  /-- Island clock of the last enable raised or lowered, and since when the rails are off. -/
  enAt     : Nat := 0
  offAt    : Nat := 0
  /-- Shortest time for which the rails stay off, in ns (R584). -/
  offFor   : Nat := 0
  /-- Since when a feed is in range. -/
  feedAt   : Nat := 0
  /-- Island clock plus 1 of the last power fault, and whether the restart of R581 follows. -/
  faultAt  : Nat := 0
  restart  : Bool := false
  /-- Every enable stays low until SYSRST_N next rises (R581, R642). -/
  held     : Bool := false
  /-- THERMTRIP_N is low; BMC_ALERT_N is low. -/
  tripPin  : Bool := false
  bmcAlert : Bool := false
  /-- Island clock of the last reading of the die sensors, and of each rail. -/
  sensAt   : Nat := 0
  railAt   : Tbl Nat := []
  /-- Island clock plus 1 at which GEN_RSTCTL.arm was set (R584). -/
  armAt    : Nat := 0
  /-- Island clock at the start of step 1, and of the boot step in progress. -/
  bootAt   : Nat := 0
  stepAt   : Nat := 0
  /-- The boot that runs, or ran last, follows a warm reset. -/
  warm     : Bool := false
  /-- Recovery mode (R571). -/
  recovery : Bool := false
  deriving DecidableEq, Repr

/-- A sampling or mirror session as TEL_SDATA0 to TEL_SDATA4 write it (R620 to R622), with its token bucket. -/
structure Session where
  enable : Bool := false
  kind   : Nat := 0
  snap   : Nat := 0
  ring   : Nat := 0
  rate   : Nat := 1
  maxSps : Nat := 0
  queue  : Nat := 0
  cls    : Nat := 0
  dest   : Nat := 0
  /-- Tokens of the bucket in units of 10^-9 samples, and the island clock at which they stood so. -/
  tok    : Nat := 64000000000
  tokAt  : Nat := 0
  deriving DecidableEq, Repr

/-- Deltas of a counter pair in a die's cache (R614). -/
structure CacheEnt where
  packets : Nat := 0
  bytes   : Nat := 0
  /-- Island clock of the first increment, plus 1; 0 for no entry. -/
  since   : Nat := 0
  deriving DecidableEq, Repr

/-- Network time (R600 to R609). -/
structure Tim where
  sec     : Nat := 0
  ns      : Nat := 0
  /-- The hidden fraction, in units of 2^-8 × 10^-9 ns, so that the accumulation is exact (R600). -/
  frac    : Nat := 0
  /-- Integral term of the servo, in 2^-8 ppb (R608). -/
  i       : Int := 0
  /-- Part of a slew not yet applied, in units of the fraction (R604). -/
  slew    : Int := 0
  /-- Island clock of the last step, and the seconds and nanoseconds before it (R606). -/
  before  : Nat × Nat × Nat := (0, 0, 0)
  /-- The seconds field has changed and the tick is due (R601). -/
  tickDue : Bool := false
  /-- A step of the counter has changed it (R497). -/
  tickStep : Bool := false
  /-- Island clock of the last accepted PPS edge, and its capture (R606). -/
  ppsAt   : Option Nat := none
  /-- Step that the previous good pair called for, in ns (R608). -/
  wanted  : Option Int := none
  /-- Consecutive good pairs within lock_ns, and beyond 4 × lock_ns (*Servo states*). -/
  goodRun : Nat := 0
  badRun  : Nat := 0
  /-- Island clock and seconds of the last good pair, or of entry to ACQUIRE (R609). -/
  pairAt  : Nat := 0
  pairSec : Nat := 0
  deriving DecidableEq, Repr

/-- Counter storage and sampling (R610 to R623). -/
structure Tel where
  /-- Stored packet and byte counts by counter index. -/
  store    : Tbl (Nat × Nat) := []
  fdCache  : Tbl CacheEnt := []
  tdCache  : Tbl CacheEnt := []
  /-- Home that a MOVING segment moves from. -/
  moving   : Tbl Nat := []
  sessions : Tbl Session := []
  /-- Sample records written in the present µs, against the device cap (R620). -/
  capAt    : Nat := 0
  capUsed  : Nat := 0
  deriving DecidableEq, Repr

/-- The state of the device. -/
structure State where
  /-- Island clock in nanoseconds since power-on: the time base of every timer. The model's own field. -/
  clk     : Nat := 0
  /-- Register fields that differ from their reset values, by `Fld.key`. -/
  regs    : Tbl Nat := []
  bar0L   : Latch := {}
  cmdL    : Latch := {}
  bmcL    : Latch := {}
  /-- The data that the last register read over BAR0 or the BMC interface returned: the model's own field. -/
  readData : Nat := 0
  /-- Registers that command descriptors wrote in the cycle `cmdWrote.1` - 1: address, mask and value (R656). -/
  cmdWrote : Nat × List (Nat × Nat × Nat) := (0, [])
  /-- Host memory as the device reads and writes it by DMA, one byte a cell. -/
  hostMem : List Host.Cell := []
  /-- Number of the next free value (R54, R373, R620): the model's own field. -/
  free    : Nat := 0
  /-- Last clock at which a rate-limited event was posted, plus 1, and what has gathered since, by event and unit. -/
  evAt    : Tbl Nat := []
  evSum   : Tbl Nat := []
  dies    : Dies := {}
  eng     : Eng := {}
  lkp     : Lkp := {}
  brg     : Brg := {}
  bpm     : Bpm := {}
  qm      : Qm := {}
  sch     : Sch := {}
  hif     : Hif := {}
  mem     : Mem := {}
  lpt     : Lpt := {}
  flk     : Flk := {}
  tim     : Tim := {}
  tel     : Tel := {}
  res     : Res := {}
  upd     : Upd := {}
  pwr     : Pwr := {}
  /-- The commands that are waiting, first in, first out. -/
  pending : List Instr := []
  deriving DecidableEq, Repr

/-- The machine right after reset. -/
def State.reset : State := {}

end Sys2Proof.Machine
end

