-- ==== Sys2Proof/Machine/Ops.lean ====
section
/-! DEFINITION. The named operations over registers, counters, host memory, time and events that every meaning uses. -/
namespace Sys2Proof.Machine

/-! ### Register fields and counters -/

/-- The value of a register field. -/
def State.rd (s : State) (f : Fld) : Nat := Tbl.get f.reset s.regs f.key

/-- Whether a one-bit field reads 1. -/
def State.bit (s : State) (f : Fld) : Bool := s.rd f != 0

/-- A register field given a value; bits beyond its width are lost. -/
def State.wr (s : State) (f : Fld) (v : Nat) : State :=
  { s with regs := Tbl.set f.reset s.regs f.key (v % 2 ^ f.width) }

/-- A counter that holds at its largest value (R9, "holds at 2^64 - 1"). -/
def State.addSat (s : State) (f : Fld) (n : Nat) : State :=
  s.wr f (min (s.rd f + n) (2 ^ f.width - 1))

/-- One added to a counter that holds at its largest value. -/
def State.inc (s : State) (f : Fld) : State := s.addSat f 1

/-- A counter that wraps to 0 (ENG_PLYCNT, ENG_BUNDLECNT). -/
def State.addWrap (s : State) (f : Fld) (n : Nat) : State := s.wr f (s.rd f + n)

/-- A field set to 1 or 0. -/
def State.wrBit (s : State) (f : Fld) (b : Bool) : State := s.wr f (b2n b)

/-! ### Time -/

/-- Microseconds and milliseconds in nanoseconds of the island clock. -/
def us (n : Nat) : Nat := n * 1000
def ms (n : Nat) : Nat := n * 1000000

/-- Whether at least `d` nanoseconds have passed since clock `t`. -/
def State.elapsed (s : State) (t d : Nat) : Bool := decide (t + d ≤ s.clk)

/-- Network time in ns as the follower of the TD holds it: between a step and its next update the time before the step (R44,
R605). -/
def State.netNs (s : State) : Nat := (((s.tim.sec * 10 ^ 9 + s.tim.ns : Nat) : Int) + s.dies.followTd).toNat

/-- Network time in ns as the follower of the FD holds it (R44, R605). -/
def State.fdNs (s : State) : Nat := (((s.tim.sec * 10 ^ 9 + s.tim.ns : Nat) : Int) + s.dies.followFd).toNat

/-- The 64-bit time word of slot control: seconds modulo 2^32 above nanoseconds. -/
def State.timeWord (s : State) : Nat := s.fdNs / 10 ^ 9 % 2 ^ 32 * 2 ^ 32 + s.fdNs % 10 ^ 9

/-! ### Host memory (DMA) -/

/-- The canonical form of host memory. -/
def Memory.wf (m : List Host.Cell) : Bool := Tbl.wf (0 : Byte) m

/-- One byte of host memory; a byte nothing has written reads 0 (DESIGN CHOICE, log entry 3). -/
def State.hostByte (s : State) (a : Nat) : Byte := Tbl.get (0 : Byte) s.hostMem a

/-- One byte of host memory written. -/
def State.setHostByte (s : State) (a : Nat) (b : Byte) : State :=
  { s with hostMem := Tbl.set (0 : Byte) s.hostMem a b }

/-- `n` bytes of host memory from address `a`. -/
def State.dmaRead (s : State) (a : Nat) : Nat → List Nat
  | 0 => []
  | n + 1 => (s.hostByte a).toNat :: s.dmaRead (a + 1) n

/-- Bytes written to host memory from address `a`. -/
def State.dmaWrite (s : State) (a : Nat) : List Nat → State
  | [] => s
  | b :: r => (s.setHostByte a (BitVec.ofNat 8 b)).dmaWrite (a + 1) r

/-! ### Free values -/

/-- The number of the next free value, and the state that has used it up. -/
def State.fresh (s : State) : Nat × State := (s.free, { s with free := s.free + 1 })

/-! ### Rings -/

/-- Ring `r`. -/
def State.ring (s : State) (r : Nat) : Ring := Tbl.get {} s.hif.rings r

/-- Ring `r` replaced. -/
def State.setRing (s : State) (r : Nat) (v : Ring) : State :=
  { s with hif := { s.hif with rings := Tbl.set {} s.hif.rings r v } }

/-- Entries of a ring: 2^size_log2. -/
def Ring.size (r : Ring) : Nat := 2 ^ r.sizeLog2

/-- Entries between tail and head, indices running modulo 65,536 (R357). -/
def Ring.used (r : Ring) : Nat := (r.tail + 65536 - r.head) % 65536

/-- Free slots of a record ring. -/
def Ring.room (r : Ring) : Nat := r.size - r.used

/-! ### The bridge: its directions, and the room of the control class (R24 to R28) -/

/-- Whether the bridge carries traffic. -/
def State.bridgeUp (s : State) : Bool := s.rd D2D_STAT.bridge == 0

/-- The direction FD to TD (`ft`) or TD to FD. -/
def State.dir (s : State) (ft : Bool) : BridgeDir := if ft then s.dies.ft else s.dies.tf

/-- A direction replaced. -/
def State.setDir (s : State) (ft : Bool) (d : BridgeDir) : State :=
  if ft then { s with dies := { s.dies with ft := d } } else { s with dies := { s.dies with tf := d } }

/-- *Bridge module states* in their numbers: 0 OFF, 1 TRAINING, 2 ACTIVE, 3 REPAIRING, 4 LOST. -/
def State.modState (s : State) (m : Nat) : Nat := s.rd (D2D_MODSTAT.state m)

/-- The ACTIVE modules, in order. -/
def State.activeMods (s : State) : List Nat := (List.range 24).filter (fun m => s.modState m == 2)

/-- Bits of the control class that one 1 µs window admits (R28): 2.56 Tb/s, or half the net capacity of the ACTIVE modules
when that is less. A flit carries 1,920 bits of payload. -/
def State.controlShare (s : State) : Nat := min 2560000 (s.activeMods.length * 960000)

/-- How far `a` lies ahead of `b` in 32-bit sequence numbers. -/
def seqAhead (a b : Nat) : Nat := (a + 2 ^ 32 - b) % 2 ^ 32

/-- Flits of 240 payload bytes that so many bytes take. -/
def flitsOf (bytes : Nat) : Nat := max 1 (ceilDiv bytes 240)

/-- Messages of the control class are ahead of a new one: flits that wait, or flits sent with a message that has not been delivered. -/
def BridgeDir.ctlAhead (d : BridgeDir) : Bool :=
  d.waiting.any (·.control) || d.replay.any (fun f => f.msg.isSome && decide (seqAhead f.seq d.nextRx < 2 ^ 31))

/-- `n` control-class flits can be sent at once: the bridge is up, the replay store and the share of the window have room (R27, R28), and no
message of the class is ahead of them. -/
def State.ctlFree (s : State) (ft : Bool) (n : Nat) : Bool :=
  let d := s.dir ft
  s.bridgeUp && !s.activeMods.isEmpty && !d.ctlAhead && decide (d.replay.length + n ≤ 2048) && decide (d.ctlBits + 1920 * n ≤ s.controlShare)

/-- A flit sent on a module, striped over the ACTIVE ones (R24). -/
def State.putFlit (s : State) (ft : Bool) (f : Flit) : State :=
  let d := s.dir ft
  let act := s.activeMods
  let m := (act[d.nextTx % act.length]?).getD 0
  s.setDir ft { d with nextTx := (d.nextTx + 1) % 2 ^ 32, replay := d.replay ++ [{ f with seq := d.nextTx, mod := m }],
                       ctlBits := if f.control then d.ctlBits + 1920 else d.ctlBits, sentAt := Tbl.set 0 d.sentAt m s.clk }

/-- `n` control-class flits sent at once, whose message takes effect with the command that issues it (DESIGN CHOICE, log entry 12). -/
def State.ctlNow (s : State) (ft : Bool) : Nat → State
  | 0 => s
  | n + 1 => (s.putFlit ft { seq := 0, control := true, mod := 0, pkt := none }).ctlNow ft n

/-- A control-class message of `n` flits that has to wait: it takes effect when its last flit is delivered. -/
def State.ctlWait (s : State) (ft : Bool) (n : Nat) (m : CtlMsg) : State :=
  let d := s.dir ft
  let flit := fun (x : Option CtlMsg) => ({ seq := 0, control := true, mod := 0, pkt := none, msg := x } : Flit)
  s.setDir ft { d with waiting := d.waiting ++ List.replicate (n - 1) (flit none) ++ [flit (some m)] }

/-- A control-class flit that waits, and completes no message. -/
def State.ctlHold (s : State) (ft : Bool) : State :=
  let d := s.dir ft
  s.setDir ft { d with waiting := d.waiting ++ [{ seq := 0, control := true, mod := 0, pkt := none }] }

/-! ### Seats: states, and the delivery of inputs (12_resilience.md, R501) -/

/-- State, epoch and evidence fields of a seat; seat A is `false`, seat B `true`. -/
def seatSt (b : Bool) : Fld := if b then SEAT_STAT.state_b else SEAT_STAT.state_a
def seatEpoch (b : Bool) : Fld := if b then SEAT_STAT.epoch_b else SEAT_STAT.epoch_a
def seatEvid (b : Bool) : Fld := if b then SEAT_EVID.evid_b else SEAT_EVID.evid_a

/-- A seat's state (*Seat states*), and what it holds beyond its registers. -/
def State.seatIs (s : State) (b : Bool) : Nat := s.rd (seatSt b)
def State.seat (s : State) (b : Bool) : Seat := if b then s.res.b else s.res.a
def State.setSeat (s : State) (b : Bool) (x : Seat) : State :=
  if b then { s with res := { s.res with b := x } } else { s with res := { s.res with a := x } }

/-- An input as a seat in a role gets it: the ACTIVE one now, the STANDBY one 2 seat cycles, 2 ns, later (R501). -/
def Seat.take (x : Seat) (role clk : Nat) (i : SeatIn) : Seat :=
  if role = 4 then { x with inputs := x.inputs ++ [(clk, i)] }
  else if role = 3 then { x with inputs := x.inputs ++ [(clk + 2, i)] }
  else x

/-- The seat boundary delivers an input to both seats and records it in the journal (R501, R508). -/
def State.seatInput (s : State) (i : SeatIn) : State :=
  if s.seatIs false = 4 ∨ s.seatIs true = 4 then
    { s with res := { s.res with a := s.res.a.take (s.seatIs false) s.clk i, b := s.res.b.take (s.seatIs true) s.clk i,
                                 journal := s.res.journal ++ [i] } }
  else s

/-- Whether an event arises in the island: sideband, feeds, boot and thermal supervision; any other is an interrupt of its unit (DESIGN CHOICE,
log entry 58: R501 names the inputs and not what makes one). -/
def isIslandEvent (code : Nat) : Bool := (4 ≤ code && code ≤ 6) || code / 256 == 15

/-! ### Events -/

/-- Slots that a record takes (R388). -/
def EvRec.slots (e : EvRec) : Nat := 1 + e.cont.length

/-- Slots taken by the waiting records that satisfy `p`. -/
def slotsWhere (p : EvRec → Bool) (l : List EvRec) : Nat := ((l.filter p).map EvRec.slots).foldl (· + ·) 0

/-- The ring that HIF_EVRING names for a class, if any (R392). -/
def State.evRing (s : State) (c : Nat) : Option Nat := if s.bit (HIF_EVRING.valid c) then some (s.rd (HIF_EVRING.ring c)) else none

/-- Whether the events of a class have an EVENT ring that is RUNNING. -/
def State.evRuns (s : State) (c : Nat) : Bool :=
  match s.evRing c with
  | some r => (s.ring r).st == .running && (s.ring r).kind == 2
  | none => false

/-- A record occupies the event store: it was put there, or its ring no longer runs (R392, R393). -/
def State.inStore (s : State) (e : EvRec) : Bool := e.stored || !s.evRuns e.cls

/-- Slots that records take at the tail of ring `g` when written in order, those of the PAD records before its end among them (R389). -/
def Ring.slotsFor (g : Ring) (l : List EvRec) : Nat :=
  l.foldl (fun n e => n + e.slots +
    (let left := g.size - (g.tail + n) % g.size
     if left < e.slots then left else 0)) 0

/-- Whether the ring of a class runs and has room for a record after those that wait for it already, none of them in the store. -/
def State.evUsable (s : State) (e : EvRec) : Bool :=
  let mine := s.hif.events.filter (fun x => s.evRing x.cls == s.evRing e.cls)
  match s.evRing e.cls with
  | some r => s.evRuns e.cls && !mine.any (·.stored) && decide ((s.ring r).slotsFor (mine ++ [e]) ≤ (s.ring r).room)
  | none => false

/-- Whether the event store has room for a record: 16,384 slots in all, 1,024 for the ring of its class, or for its class while no ring of it
runs (R392, R393). -/
def State.evFits (s : State) (e : EvRec) : Bool :=
  let like : EvRec → Bool := fun x => if s.evRuns e.cls then s.evRing x.cls == s.evRing e.cls else x.cls == e.cls
  decide (slotsWhere s.inStore s.hif.events + e.slots ≤ 16384) &&
    decide (slotsWhere (fun x => like x && s.inStore x) s.hif.events + e.slots ≤ 1024)

/-- An event record reaches the host interface (R392, R393): it waits to be written to the ring of its class; where that ring is not
running or lacks room it waits in the event store, and one that does not fit is discarded and counted in HIF_EVLOST. While the
host interface is in reset every event is discarded and counted (R586). Events posted before a ring is valid, those of the boot
sequence among them, wait in the same way (R577). -/
def State.fileRec (s : State) (e : EvRec) : State :=
  if s.hif.inReset then s.inc (HIF_EVLOST.count e.cls)
  else if s.evUsable e then { s with hif := { s.hif with events := s.hif.events ++ [{ e with stored := false }] } }
  else if s.evFits e then { s with hif := { s.hif with events := s.hif.events ++ [{ e with stored := true }] } }
  else { (s.inc (HIF_EVLOST.count e.cls)) with hif := { s.hif with lost := Tbl.upd 0 s.hif.lost e.cls (· + 1) } }

/-- Whether an event arises on the FD (*Die contents*): engines, lookup, learning, line ports and lanes, DDR5 channels 0 to 3. -/
def isFdEvent (code : Nat) (payload : List Nat) : Bool :=
  (1 ≤ code / 256 && code / 256 ≤ 4) ||
  (code / 256 == 10 && (code != 0x0A04 || leAt payload 2 1 == 0)) ||
  (0x0911 ≤ code && code ≤ 0x0918 && leAt payload 0 1 < 4) || (code == 0x0007 && leAt payload 0 1 == 0)

/-- A record of the FD kept while the bridge is lost, up to 1,024 of them; those beyond are counted (*Island behaviour*). -/
def State.keepRec (s : State) (e : EvRec) : State :=
  if s.res.kept.length < 1024 then { s with res := { s.res with kept := s.res.kept ++ [e] } }
  else { s with res := { s.res with keptLost := Tbl.upd 0 s.res.keptLost e.cls (· + 1) } }

/-- A record of the FD on its way to the host interface: kept while the bridge is lost, filed at once where the control class has room, else
waiting for it (R28). -/
def State.sendRec (s : State) (e : EvRec) : State :=
  if !s.bridgeUp then s.keepRec e
  else if s.ctlFree true (flitsOf (32 * e.slots)) then (s.ctlNow true (flitsOf (32 * e.slots))).fileRec e
  else s.ctlWait true (flitsOf (32 * e.slots)) (.event e)

/-- Posts an event (R392, R658, R659); one of the FD crosses the bridge in the control class. An event of class 15 lowers BMC_ALERT_N
(R630). -/
def State.postRec (s : State) (code : Nat) (payload : List Nat) (cont : List (List Nat)) : State :=
  let cls := code / 256
  let ns := if isFdEvent code payload then s.fdNs else s.netNs
  let e : EvRec := { code := code, cls := cls, payload := sliceB payload 0 16, cont := cont, ns := ns % 10 ^ 9,
                     sec := ns / 10 ^ 9 % 2 ^ 32, stored := false, at_ := s.clk }
  let s := if cls = 15 then { s with pwr := { s.pwr with bmcAlert := true } } else s
  let s := s.seatInput (if isIslandEvent code then .island code else .interrupt code)
  if isFdEvent code payload then s.sendRec e else s.fileRec e

/-- Posts an event without continuation slots. -/
def State.post (s : State) (code : Nat) (payload : List Nat) : State := s.postRec code payload []

/-- A record of a bridge module's change of state, posted in the microsecond `w` (R49). -/
def EvRec.ofModule (w : Nat) (e : EvRec) : Bool := (e.code == 0x0001 || e.code == 0x0002) && e.at_ / 1000 == w

/-- The newest waiting record, where it is one of those, goes before those of modules with higher numbers. -/
def moduleOrder (w : Nat) (l : List EvRec) : List EvRec :=
  match l.getLast? with
  | none => l
  | some e =>
    let q := l.dropLast
    match (if e.ofModule w then q.findIdx? (fun x => x.ofModule w && decide (leAt e.payload 0 1 < leAt x.payload 0 1)) else none) with
    | some i => q.take i ++ e :: q.drop i
    | none => l

/-- Posts the event of a bridge module's change of state: those of one microsecond are posted in module order (R49). -/
def State.postModule (s : State) (code : Nat) (payload : List Nat) : State :=
  let t := s.post code payload
  { t with hif := { t.hif with events := moduleOrder (t.clk / 1000) t.hif.events } }

/-- The key of a rate-limited event of a unit. -/
def evKey (code unit : Nat) : Nat := code * 2 ^ 32 + unit

/-- Posts an event at most once in each `period` nanoseconds for a unit; `payload` is given what has gathered since the last
one, this occurrence included. -/
def State.postRated (s : State) (code unit period : Nat) (n : Nat) (payload : Nat → List Nat) : State :=
  let k := evKey code unit
  let sum := Tbl.get 0 s.evSum k + n
  let last := Tbl.get 0 s.evAt k
  if last = 0 ∨ last - 1 + period ≤ s.clk then
    let s := { s with evSum := Tbl.set 0 s.evSum k 0, evAt := Tbl.set 0 s.evAt k (s.clk + 1) }
    s.post code (payload sum)
  else { s with evSum := Tbl.set 0 s.evSum k sum }

/-! ### Resignation (R518) -/

/-- *Resign handle*. -/
def Resigned.handle (x : Resigned) : List Nat := [x.kind, x.unit] ++ leBytes 2 x.slot ++ leBytes 4 x.serial

/-- A unit enters RESIGNED (R517, R518): kind 1 seat, 2 engine. Causes: 1 evidence, 2 watchdog, 3 uncorrectable errors, 4 self-test. -/
def State.resign (s : State) (kind unit slot cause : Nat) : State :=
  let x : Resigned := { kind := kind, unit := unit, slot := slot, serial := s.res.serial }
  ({ s with res := { s.res with serial := s.res.serial + 1, resigned := s.res.resigned ++ [x] } }).post 0x0C07 (x.handle ++ [cause])

/-! ### Self-tests (R595, R596) -/

/-- A self-test of a kind ends: 0 PASS, 1 FAIL, 2 ABORTED. A channel returns to its former state, with its slot without power. -/
def State.endTest (s : State) (k result detail : Nat) : State :=
  let u := Tbl.get 0 s.res.tests k
  if u = 0 then s
  else
    let s := { s with res := { s.res with tests := Tbl.erase s.res.tests k }, mem := if k = 3 then { s.mem with pins := Tbl.erase s.mem.pins (u - 1) } else s.mem }
    (s.wr GEN_STSTAT.running (putBits (s.rd GEN_STSTAT.running) k 1 0)).post 0x0C0E ([k, result] ++ leBytes 2 (u - 1) ++ leBytes 4 detail)

/-- A unit under test is needed: the test of a kind is abandoned if its unit is among those (R596). -/
def State.abandonTest (s : State) (k : Nat) (hit : Nat → Bool) : State :=
  let u := Tbl.get 0 s.res.tests k
  if u ≠ 0 ∧ hit (u - 1) then s.endTest k 2 0 else s

/-! ### Reaching the Forwarding Die -/

/-- Whether a BAR0 address lies in a block of the FD (*BAR0 map*). -/
def isFdAddr (a : Nat) : Bool :=
  (0x80000 ≤ a && a < 0x180000) || (0x240000 ≤ a && a < 0x260000) || (0x380000 ≤ a && a < 0x388000) ||
  (0x400000 ≤ a && a < 0x4C0000)

/-- The FD cannot be reached (R649): unpowered, held in reset, or bridge and sideband both lost. -/
def State.fdUnreachable (s : State) : Bool :=
  s.rd D2D_STAT.fd_powered == 0 || s.bit D2D_STAT.fd_reset || (!s.bridgeUp && s.rd D2D_STAT.sideband_up == 0)

/-! ### Register copies of the indirect sets -/

/-- The registers of which the command path has a copy of its own (R655), by address. -/
def indirectAddr (a : Nat) : Bool :=
  (0x1C0040 ≤ a && a < 0x1C0058) || (0x200010 ≤ a && a < 0x200038) || (0x240010 ≤ a && a < 0x240034) ||
  (0x260000 ≤ a && a < 0x268000 && 0x30 ≤ a % 0x100 && a % 0x100 < 0x40) || a == 0x140020 ||
  (0x5C0200 ≤ a && a < 0x5C021C) || a == 0x10040

/-- The copy of a field that an access path sees (R655). -/
def Fld.on (f : Fld) (p : Path) : Fld :=
  match p with
  | .cmd => if indirectAddr f.addr then { f with addr := f.addr + 0x2000000 } else f
  | _ => f

end Sys2Proof.Machine
end

