-- ==== Sys2Proof/Machine/Rings.lean ====
section
/-! DEFINITION. Descriptor rings as every command uses them (08_host_interface.md, R353 to R400): the Ring Context Table,
completions and tokens, interrupt causes, the choice of the next descriptor, and the layout checks of descriptors. -/
namespace Sys2Proof.Machine

/-! ### Numbers of the spec's tables -/

/-- *Ring states*. -/
def RingSt.num : RingSt → Nat
  | .off => 0 | .running => 1 | .parked => 2 | .stopping => 3 | .stopped => 4 | .error => 5

/-- *Completion status*. -/
inductive Status where
  | done | partial_ | preempted | faulted | expired | refused | busy
  deriving DecidableEq, Repr

/-- *Completion status*, in its numbers. -/
def Status.num : Status → Nat
  | .done => 0 | .partial_ => 1 | .preempted => 2 | .faulted => 3 | .expired => 4 | .refused => 5 | .busy => 6

/-- *Completion detail codes* and *Lookup refusal reasons*. -/
def dTABLE_FULL : Nat := 0x01
def dEXISTS : Nat := 0x02
def dNOT_FOUND : Nat := 0x03
def dINDEX_RETIRING : Nat := 0x04
def dBAD_OPERAND : Nat := 0x05
def dXFIB_DOWN : Nat := 0x06
def dPARSER_INVALID : Nat := 0x07
def dBAD_OPCODE : Nat := 0x20
def dRESERVED_SET : Nat := 0x21
def dWRONG_RING : Nat := 0x22
def dBAD_TOKEN : Nat := 0x23
def dBAD_ADDRESS : Nat := 0x24
def dBAD_RCT : Nat := 0x25
def dRING_STATE : Nat := 0x26
def dNZ5_UNSUPPORTED : Nat := 0x27
def dVALIDATION : Nat := 0x28
def dBUFFER_FULL : Nat := 0x29
def dTRANSLATION : Nat := 0x30
def dPRI_TIMEOUT : Nat := 0x31
def dDMA_ERROR : Nat := 0x32
def dDMA_TIMEOUT : Nat := 0x33
def dTTL : Nat := 0x40
def dNO_PROGRESS : Nat := 0x41
def dRING_STOPPED : Nat := 0x50
def dYIELD : Nat := 0x51
def dLIVE_RESOURCE : Nat := 0x60
def dIN_USE : Nat := 0x61
def dDISPATCH_FULL : Nat := 0x80

/-! ### Writes to the host -/

/-- The function may issue DMA (R350). -/
def State.dmaOk (s : State) : Bool := s.bit HIF_LINKSTAT.up && s.hif.busMaster && !s.hif.inReset

/-- A completion or record write: made at once, or held in order while no DMA can be issued (R350). -/
def State.hostWrite (s : State) (r addr : Nat) (bytes : List Nat) : State :=
  if s.dmaOk && s.hif.held.isEmpty then s.dmaWrite addr bytes
  else { s with hif := { s.hif with held := s.hif.held ++ [⟨r, addr, bytes⟩] } }

/-- Held writes made in order (R350). -/
def State.flushHeld (s : State) : State :=
  if s.dmaOk then
    let s' := s.hif.held.foldl (fun t h => t.dmaWrite h.addr h.bytes) s
    { s' with hif := { s'.hif with held := [] } }
  else s

/-! ### Interrupt causes (R394, R395) -/

/-- Vector `v`. -/
def State.vec (s : State) (v : Nat) : Vec := Tbl.get {} s.hif.vecs v

/-- Vector `v` replaced. -/
def State.setVec (s : State) (v : Nat) (x : Vec) : State :=
  { s with hif := { s.hif with vecs := Tbl.set {} s.hif.vecs v x } }

/-- One cause on a vector. -/
def State.raiseVec (s : State) (v : Nat) : State :=
  let x := s.vec v
  s.setVec v { x with causes := x.causes + 1, oldest := if x.causes = 0 then s.clk else x.oldest }

/-- A ring raises its interrupt cause and is disarmed; while disarmed its work stays unreported (R394). -/
def State.raiseRing (s : State) (r : Nat) : State :=
  let g := s.ring r
  if !g.irqEn then s
  else if g.armed then (s.setRing r { g with armed := false, unreported := false }).raiseVec g.vector
  else s.setRing r { g with unreported := true }

/-- Rings that have been told of their work hold none unreported: a record ring emptied by the host (R394). -/
def Ring.reported (g : Ring) : Ring := if g.head = g.tail then { g with unreported := false } else g

/-- A doorbell re-arms a ring: unreported work raises a cause at once (R394). -/
def State.rearm (s : State) (r : Nat) : State :=
  let g := s.ring r
  if g.unreported && g.irqEn then (s.setRing r { g with armed := false, unreported := false }).raiseVec g.vector
  else s.setRing r { g with armed := true }

/-! ### The Ring Context Table -/

/-- Address of the RCT entry of ring `r` (R353). -/
def State.rctAddr (s : State) (r : Nat) : Nat :=
  s.rd HIF_RCTBASE1.addr_hi * 2 ^ 32 + s.rd HIF_RCTBASE0.addr_lo * 64 + 64 * r

/-- Request rings: COMMAND, PUNT and INJECT. -/
def isRequest (kind : Nat) : Bool := kind == 1 || kind == 3 || kind == 4

/-- Whether an RCT entry keeps *Ring Context Table entry* (R354). -/
def rctOk (e : List Nat) : Bool :=
  let f := fun i n => leAt e i n
  let kind := f 17 1
  let b18 := f 18 1
  f 0 8 % 4096 == 0 && 4 ≤ f 16 1 && f 16 1 ≤ 15 && 1 ≤ kind && kind ≤ 5 && b18 / 32 == 0 && f 20 4 / 2 ^ 20 == 0 &&
  f 24 2 / 512 == 0 && f 26 6 == 0 && f 32 8 % 8 == 0 && f 40 24 == 0 &&
  (if isRequest kind then f 8 8 % 64 == 0 && f 19 1 == 0
   else f 8 8 == 0 && !bitOf b18 2 && (if kind == 2 then f 19 1 == 2 else f 19 1 != 0))

/-- A ring with the fields of its RCT entry (R355). -/
def Ring.withRct (g : Ring) (e : List Nat) : Ring :=
  let f := fun i n => leAt e i n
  let b18 := f 18 1
  { g with base := f 0 8, cplBase := f 8 8, sizeLog2 := f 16 1 % 16, kind := f 17 1, cls := b18 % 4, nz5 := bitOf b18 2,
           pasidEn := bitOf b18 3, irqEn := bitOf b18 4, recSize := f 19 1, pasid := f 20 4 % 2 ^ 20,
           vector := f 24 2 % 512, wbAddr := f 32 8 }

/-- A ring that holds a taken descriptor that is not complete. -/
def Ring.holds (g : Ring) : Bool := g.taken.isSome || !g.buffers.isEmpty

/-- The RCT cache after a use of ring `r`: 256 entries, those of rings with a taken descriptor pinned (R355). -/
def State.touchCache (s : State) (r : Nat) : State :=
  let l := r :: s.hif.cache.filter (· != r)
  let pinned := l.filter (fun x => (s.ring x).holds)
  let free := l.filter (fun x => !(s.ring x).holds)
  { s with hif := { s.hif with cache := if l.length ≤ 256 then l else pinned ++ free.take (256 - pinned.length) } }

/-- Entries pinned by rings that hold a taken descriptor (R355). -/
def State.pinned (s : State) : Nat := (s.hif.rings.filter (fun e => e.2.holds)).length

/-- A ring enters ERROR (R359, R379): read-ahead is discarded (R361) and HIF_RING_ERROR posted (R400). -/
def State.ringError (s : State) (r cause : Nat) : State :=
  let g := s.ring r
  (s.setRing r { g with st := .error, cause := cause, ahead := [] }).post 0x0802 (leBytes 2 r ++ [cause])

/-- An index that a doorbell recorded takes effect: one that leaves more than size entries outstanding puts the ring in ERROR (R359, R360). -/
def State.useIndex (s : State) (r : Nat) : State :=
  let g := s.ring r
  if s.bit HIF_CFG.enable ∧ g.st = .running ∧ g.size < g.used then s.ringError r 1 else s

/-- The start of ring `r` has to read its RCT entry, and no DMA can be issued (R350). -/
def State.startWaits (s : State) (r : Nat) : Bool :=
  (s.ring r).st == .off && decide (r < s.rd HIF_RCTCFG.count) && !s.dmaOk

/-- Starts ring `r` (R353, R354, R394): the refusal's detail code, 0 when it starts. A ring at or beyond HIF_RCTCFG.count is not started. -/
def State.ringStart (s : State) (r : Nat) : Nat × State :=
  let g := s.ring r
  if g.st ≠ .stopped ∧ g.st ≠ .off then (dRING_STATE, s)
  else if s.rd HIF_RCTCFG.count ≤ r then (dBAD_RCT, s)
  else if g.st = .stopped then (0, (s.setRing r { g with st := .running, armed := g.irqEn, lastTake := s.clk }).useIndex r)
  else
    let e := s.dmaRead (s.rctAddr r) 64
    if rctOk e then
      let g := ({} : Ring).withRct e
      (0, (s.setRing r { g with st := .running, armed := g.irqEn, lastTake := s.clk }).touchCache r)
    else (dBAD_RCT, s)

/-- A packet that a punt buffer did not get waits first for the next buffer of its class (R385, R386). -/
def State.unstick (s : State) (r : Nat) : State :=
  match (s.ring r).stuck with
  | none => s
  | some k =>
    let t := s.setRing r { s.ring r with stuck := none }
    { t with hif := { t.hif with puntQ := k :: t.hif.puntQ } }


/-! ### Descriptors -/

/-- The native form of a descriptor: an NZ5 descriptor's operands stand at bytes 8 to 55 (R396). -/
def nativeDesc (nz5 : Bool) (d : List Nat) : List Nat :=
  if nz5 then sliceB d 0 2 ++ List.replicate 14 0 ++ sliceB d 8 48 else sliceB d 0 64

/-- Opcode, flags and operand fields of a native descriptor. -/
def Taken.op (t : Taken) : Nat := leAt t.desc 0 1
def Taken.irq (t : Taken) : Bool := bitOf (leAt t.desc 1 1) 0
def Taken.resume (t : Taken) : Bool := bitOf (leAt t.desc 1 1) 1
def Taken.yields (t : Taken) : Bool := bitOf (leAt t.desc 1 1) 2
def Taken.ttl (t : Taken) : Nat := leAt t.desc 2 2
def Taken.token (t : Taken) : Nat := leAt t.desc 8 8
def Taken.f (t : Taken) (i n : Nat) : Nat := leAt t.desc i n
def Taken.operands (t : Taken) : List Nat := sliceB t.desc 16 48

/-- The opcodes marked P (R365). -/
def isBulk (op : Nat) : Bool :=
  [0x03, 0x22, 0x23, 0x26, 0x27, 0x2C, 0x30, 0x32, 0x33, 0x3A, 0x40, 0x49].contains op

/-- The operand bytes that *Opcodes* names, as (first, count) runs; none for an opcode it does not list (R365). -/
def opSpans (op : Nat) : Option (List (Nat × Nat)) :=
  match op with
  | 0x00 => some []
  | 0x01 => some [(16, 12)]
  | 0x02 => some [(16, 4)]
  | 0x03 => some [(16, 12)]
  | 0x10 => some [(16, 2)]
  | 0x11 => some [(16, 2)]
  | 0x12 => some [(16, 2)]
  | 0x20 => some [(16, 5), (24, 32)]
  | 0x21 => some [(16, 4), (24, 16)]
  | 0x22 => some [(16, 12)]
  | 0x23 => some [(16, 12)]
  | 0x24 => some [(16, 3), (24, 32)]
  | 0x25 => some [(16, 2), (40, 16)]
  | 0x26 => some [(16, 1), (24, 12)]
  | 0x27 => some [(16, 2), (24, 12)]
  | 0x28 => some [(16, 1), (20, 8), (32, 24)]
  | 0x29 => some [(20, 4)]
  | 0x2A => some [(20, 28)]
  | 0x2B => some [(20, 4)]
  | 0x2C => some [(16, 8)]
  | 0x2D => some []
  | 0x2E => some [(16, 48)]
  | 0x30 => some [(16, 16)]
  | 0x31 => some [(16, 1)]
  | 0x32 => some [(16, 2), (20, 8), (32, 8)]
  | 0x33 => some [(16, 1), (20, 8), (32, 8)]
  | 0x38 => some [(16, 1), (20, 28)]
  | 0x39 => some [(16, 1), (20, 4)]
  | 0x3A => some [(16, 1), (24, 12)]
  | 0x3B => some [(16, 1), (20, 4)]
  | 0x40 => some [(16, 9), (32, 8)]
  | 0x48 => some [(16, 12)]
  | 0x49 => some [(16, 16)]
  | 0x4A => some [(16, 4)]
  | 0x4B => some [(16, 4)]
  | 0x4C => some [(16, 4)]
  | 0x4D => some [(16, 4)]
  | 0x50 => some [(16, 1), (20, 20)]
  | 0x58 => some [(16, 1), (20, 4)]
  | 0x59 => some [(16, 4)]
  | 0x5A => some [(16, 1), (20, 4)]
  | 0x5B => some [(16, 1)]
  | 0x5C => some [(16, 8)]
  | 0x5D => some [(16, 1)]
  | 0x70 => some [(16, 11), (28, 4)]
  | 0x71 => some [(16, 10)]
  | _ => none

/-- Bits inside named operand bytes that *Opcodes* leaves 0. -/
def opBitsOk (op : Nat) (d : List Nat) : Bool :=
  let f := fun i n => leAt d i n
  match op with
  | 0x24 => f 17 1 % 128 < 4
  | 0x25 => f 17 1 % 128 < 4
  | 0x27 => f 17 1 < 4
  | 0x32 => f 17 1 < 2
  | 0x40 => f 24 1 < 2
  | 0x70 => f 26 1 % 4 < 2 && f 26 1 / 16 == 0 && f 28 4 < 2 ^ 20
  | _ => true

/-- The operand bytes not named are 0 (R365). -/
def spansOk (spans : List (Nat × Nat)) (d : List Nat) : Bool :=
  (List.range 48).all (fun i => spans.any (fun p => p.1 ≤ i + 16 && i + 16 < p.1 + p.2) || leAt d (i + 16) 1 == 0)

/-- The ring kind on which an opcode is valid; NOP is valid on every request ring (R365). -/
def opKind (op : Nat) : Nat := if op = 0x70 then 4 else if op = 0x71 then 3 else 1

/-- The header layout of a native descriptor (*Descriptor header*). -/
def headerOk (d : List Nat) : Bool :=
  leAt d 1 1 / 8 == 0 && leAt d 4 4 == 0 && (bitOf (leAt d 1 1) 1 || leAt d 8 8 == 0)

/-- The header of an NZ5 descriptor: bytes 2 to 7 and 56 to 63 are 0, and byte 1 holds the irq flag alone (R396). -/
def nz5HeaderOk (d : List Nat) : Bool := leAt d 2 6 == 0 && leAt d 1 1 < 2 && leAt d 56 8 == 0

/-- The opcodes that NZ5 rings refuse (R397). -/
def nz5Refused (op : Nat) : Bool := [0x2E, 0x39, 0x50, 0x71, 0x48, 0x49, 0x4A, 0x4B, 0x4C, 0x4D].contains op

/-- The check of a descriptor's header and operand layout (R364, R365, R396, R397): the detail code of its refusal, 0 for none.
`raw` is the descriptor as the host wrote it, `d` its native form. -/
def checkDesc (g : Ring) (raw d : List Nat) : Nat :=
  let op := leAt d 0 1
  match opSpans op with
  | none => dBAD_OPCODE
  | some spans =>
    if op ≠ 0 ∧ opKind op ≠ g.kind then dWRONG_RING
    else if g.nz5 && nz5Refused op then dNZ5_UNSUPPORTED
    else if g.nz5 && !nz5HeaderOk raw then dRESERVED_SET
    else if !headerOk d || !spansOk spans d || !opBitsOk op d then dRESERVED_SET
    else 0

/-- The token that a descriptor names, if the device issued it for the same opcode and operands (R373). -/
def State.findToken (s : State) (t : Taken) : Option Token :=
  s.hif.tokens.find? (fun k => (Config.token k.serial).toNat == t.token && k.opcode == t.op && k.operands == t.operands)

/-- Issues a resume token for a descriptor stopped at `pos` (R373). -/
def State.issueToken (s : State) (t : Taken) (pos : Nat) : Nat × State :=
  let n := s.hif.nextToken
  ((Config.token n).toNat,
   { s with hif := { s.hif with nextToken := n + 1, tokens := s.hif.tokens ++ [⟨n, t.op, t.operands, pos, t.cursor, t.base, t.sub⟩] } })

/-! ### Completions -/

/-- The phase bit of index `i` on a ring of `size` slots: 1 in the first pass, inverted at each wrap. -/
def phaseBit (size i : Nat) : Nat := 1 - i / size % 2

/-- A completion's fields (*Completion*). -/
structure Cpl where
  status   : Status
  detail   : Nat
  progress : Nat := 0
  token    : Nat := 0
  addr     : Nat := 0
  /-- Result data for bytes 8 to 31 (R362). -/
  data     : Option (List Nat) := none

/-- The status that a completion is written with: an NZ5 ring has no PREEMPTED and no EXPIRED (R397). -/
def Cpl.written (c : Cpl) (g : Ring) : Status :=
  if g.nz5 then (match c.status with
    | .preempted => .faulted | .expired => .faulted | x => x) else c.status

/-- The 32 bytes of a native completion, or the 16 bytes of an NZ5 one (R396, R397). -/
def cplBytes (g : Ring) (t : Taken) (c : Cpl) : List Nat :=
  let st := c.written g
  let det := if g.nz5 then (match c.status with
    | .preempted => dRING_STOPPED | .expired => dNO_PROGRESS | _ => c.detail) else c.detail
  let head := leBytes 2 t.index ++ [st.num + 128 * phaseBit g.size t.index, t.op] ++ leBytes 4 det
  if g.nz5 then head ++ (match c.data with
    | some d => sliceB d 0 8
    | none => leBytes 4 c.progress ++ leBytes 4 0)
  else head ++ (match c.data with
    | some d => sliceB d 0 24
    | none => leBytes 4 c.progress ++ leBytes 4 0 ++ leBytes 8 c.token ++ leBytes 8 c.addr)

/-- Page requests of ring `r` that were never sent are dropped: what they were for has completed (R382). -/
def State.dropRequests (s : State) (r : Nat) : State :=
  { s with hif := { s.hif with requests := s.hif.requests.filter (fun q => q.ring != r || q.sent) } }

/-- Writes the completion of a taken descriptor of ring `r` (R363, R368): the completed index moves, HIF_EXPIRED and HIF_FAULTED
count, the irq flag raises the ring's cause. -/
def State.writeCpl (s : State) (r : Nat) (t : Taken) (c : Cpl) : State :=
  let g := s.ring r
  let esz := if g.nz5 then 16 else 32
  let s := s.hostWrite r (g.cplBase + esz * (t.index % g.size)) (cplBytes g t c)
  let s := if c.written g = .expired then s.inc HIF_EXPIRED.count else s
  let s := if c.written g = .faulted then s.inc HIF_FAULTED.count else s
  let s := if t.st = .parked then s.dropRequests r else s
  let g := s.ring r
  let s := s.setRing r { g with completed := (t.index + 1) % 65536 }
  if t.irq then s.raiseRing r else s

/-- A second completion for an index and pass is discarded, counted and posted at most once in each 1 ms (R370). -/
def State.dupCompletion (s : State) : State := (s.inc HIF_DUPCPL.count).postRated 0x0805 0 (ms 1) 1 (fun n => [0, 0, 0, 0] ++ leBytes 4 n)

/-- A ring without a taken descriptor: PARKED becomes RUNNING, STOPPING becomes STOPPED (R384). -/
def Ring.freed (g : Ring) : Ring :=
  { g with taken := none, st := match g.st with
    | .parked => .running
    | .stopping => .stopped
    | x => x }

/-- The taken descriptor `t` of ring `r` ends with a completion, and the executor is free again (R368). -/
def State.endTaken (s : State) (r : Nat) (t : Taken) (c : Cpl) : State :=
  let s := s.writeCpl r t c
  let s := s.setRing r (s.ring r).freed
  if s.hif.exec = some r then { s with hif := { s.hif with exec := none } } else s

/-- The executor's RING_STOP that waits for ring `r` completes once the ring is STOPPED (R365, R384). -/
def State.stopReached (s : State) (r : Nat) : State :=
  match s.hif.exec with
  | none => s
  | some e => match (s.ring e).taken with
    | none => s
    | some t =>
      if t.op = 0x11 ∧ t.waits ∧ t.f 16 2 = r ∧ (s.ring r).st = .stopped then s.endTaken e t { status := .done, detail := 0, progress := 1 }
      else s

/-- Ends the taken descriptor of ring `r` with a completion (R368); a second completion is discarded (R370). -/
def State.finish (s : State) (r : Nat) (c : Cpl) : State :=
  match (s.ring r).taken with
  | none => s.dupCompletion
  | some t => (s.endTaken r t c).stopReached r

/-- A stop that carries the entries applied and a token: PARTIAL, PREEMPTED, FAULTED and EXPIRED (R373). NZ5 has no tokens. -/
def State.finishTok (s : State) (r : Nat) (status : Status) (detail pos addr : Nat) : State :=
  match (s.ring r).taken with
  | none => s
  | some t =>
    if (s.ring r).nz5 then s.finish r { status := status, detail := detail, progress := pos, addr := addr }
    else
      let (tok, s) := s.issueToken t pos
      s.finish r { status := status, detail := detail, progress := pos, token := tok, addr := addr }

/-- Whether a descriptor has outlived its ttl_ms; NZ5 descriptors have none (R376, R397). -/
def State.ttlDue (s : State) (g : Ring) (t : Taken) : Bool := t.ttl != 0 && !g.nz5 && s.elapsed t.takenAt (ms t.ttl)

/-- A stop reaches the taken descriptor of ring `r` at an entry boundary (R383, R384): a ttl expiry goes first, then a parked one completes
FAULTED with its address, any other PREEMPTED with RING_STOPPED. -/
def State.endByStop (s : State) (r : Nat) : State :=
  match (s.ring r).taken with
  | none => s
  | some t =>
    if s.ttlDue (s.ring r) t then s.finishTok r .expired dTTL t.progress 0
    else if t.st = .parked then s.finishTok r .faulted dTRANSLATION t.progress t.faultAddr
    else s.finishTok r .preempted dRING_STOPPED t.progress 0

/-- The running descriptor of the executor with its ring, if its opcode is `op`. -/
def State.running (s : State) (op : Nat) : Option (Nat × Taken) :=
  match s.hif.exec with
  | none => none
  | some r => match (s.ring r).taken with
    | none => none
    | some t => if t.op = op ∧ t.st = .running then some (r, t) else none

/-- The taken descriptor of ring `r` changed. -/
def State.updTaken (s : State) (r : Nat) (f : Taken → Taken) : State :=
  let g := s.ring r
  s.setRing r { g with taken := g.taken.map f }

/-- Completions of single-entry opcodes. -/
def State.finDone (s : State) (r : Nat) : State := s.finish r { status := .done, detail := 0, progress := 1 }
def State.finData (s : State) (r : Nat) (detail : Nat) (data : List Nat) : State :=
  s.finish r { status := .done, detail := detail, data := some data }
def State.finRefused (s : State) (r : Nat) (detail : Nat) : State := s.finish r { status := .refused, detail := detail }
def State.finBusy (s : State) (r : Nat) (detail : Nat) : State := s.finish r { status := .busy, detail := detail }

/-- The progress of a bulk descriptor after one more entry, in the same update as the entry's effect (R369). -/
def State.stepEntry (s : State) (r : Nat) : State :=
  s.updTaken r (fun t => { t with progress := t.progress + 1, stepAt := s.clk })

/-- A punt buffer `t` of ring `r`, taken off the ring already, ends with a token and no bytes written (R373, R386). -/
def State.endBuffer (s : State) (r : Nat) (t : Taken) (status : Status) (detail addr : Nat) : State :=
  let (tok, s) := s.issueToken t 0
  s.writeCpl r t { status := status, detail := detail, token := tok, addr := addr }

/-- A stop ends the taken, unfilled buffers of a PUNT ring as PREEMPTED with progress 0 (R386), one that is due for its ttl as EXPIRED (R383). -/
def State.endBuffers (s : State) (r : Nat) : State :=
  let l := (s.ring r).buffers
  let s := s.unstick r
  let s := s.setRing r { s.ring r with buffers := [] }
  if (s.ring r).kind = 3 then
    l.foldl (fun s t => if s.ttlDue (s.ring r) t then s.endBuffer r t .expired dTTL 0 else s.endBuffer r t .preempted dRING_STOPPED 0) s
  else s

/-- Whether the taken descriptor of a ring cannot be ended at once: a single-entry one or an access in progress runs to its end (R384). -/
def Ring.busy (g : Ring) : Bool :=
  match g.taken with
  | some t => t.st == .running && (!isBulk t.op || t.waits)
  | none => false

/-- RCT_INVALIDATE of ring `r` (R355): only from STOPPED or ERROR, back to OFF. What a ring in ERROR still holds completes first, as at a stop
(R368; DESIGN CHOICE, log entry 103: a descriptor in progress there refuses it). -/
def State.ringInvalidate (s : State) (r : Nat) : Nat × State :=
  let g := s.ring r
  if (g.st = .stopped ∨ g.st = .error) ∧ !g.busy then
    let t := ((s.endByStop r).endBuffers r).dropRequests r
    let t := t.setRing r {}
    (0, { t with hif := { t.hif with cache := t.hif.cache.filter (· != r) } })
  else (dRING_STATE, s)

/-! ### The executor's choice (R367, R371) -/

/-- A ready command ring whose next descriptor can be had: read ahead, or by a DMA (R350, R367). -/
def State.ringReady (s : State) (g : Ring) : Bool :=
  s.bit HIF_CFG.enable && g.kind == 1 && g.st == .running && g.head != g.tail && g.taken.isNone && (s.dmaOk || !g.ahead.isEmpty)

/-- A packet ring may take the descriptor at its head (R350, R355). -/
def State.mayTake (s : State) (g : Ring) (kind : Nat) : Bool :=
  s.bit HIF_CFG.enable && s.dmaOk && g.kind == kind && g.st == .running && g.head != g.tail && g.taken.isNone &&
    (g.holds || decide (s.pinned < 224))

/-- The descriptor at the head of a ring: read ahead, or read now; and its native form. -/
def State.headRaw (s : State) (g : Ring) : List Nat :=
  match g.ahead with
  | d :: _ => d
  | [] => s.dmaRead (g.base + 64 * (g.head % g.size)) 64
def State.headDesc (s : State) (g : Ring) : List Nat := nativeDesc g.nz5 (s.headRaw g)

/-- Ready rings of class `c`, in rising order. -/
def State.readyRings (s : State) (c : Nat) : List Nat :=
  Tbl.keysWhere (fun _ g => s.ringReady g && g.cls == c) s.hif.rings

/-- Rings of class `c` that hold pre-empted work, or parked work that may resume (R371, R381). -/
def State.waitingRings (s : State) (c : Nat) : List Nat :=
  Tbl.keysWhere (fun _ g => g.cls == c && g.kind == 1 && (match g.taken with
    | some t => t.st == .preempted || t.st == .ready
    | none => false)) s.hif.rings

/-- The first of `l` above `last`, or the first of all: rotation by ring number. -/
def rotate (l : List Nat) (last : Nat) : Option Nat :=
  match l.filter (fun x => last < x) with
  | x :: _ => some x
  | [] => l.head?

/-- What the executor would do next for class `c` and below: resume pre-empted work, or take from a ready ring. -/
inductive Pick where
  | resume (r : Nat)
  | take (r : Nat)
  deriving DecidableEq, Repr

/-- The choice at class `c`: pre-empted work first (R371), then the ready rings in rotation (R367). A ring that needs a cache
entry while 224 are pinned waits for one (R355). -/
def State.pickClass (s : State) (c : Nat) : Option Pick :=
  match s.waitingRings c with
  | r :: _ => some (.resume r)
  | [] =>
    let ok := if s.pinned < 224 then s.readyRings c else []
    (rotate ok (Tbl.get 4096 s.hif.lastRing c)).map .take

/-- The choice among classes above `lo`, highest first. -/
def State.pick (s : State) (lo : Nat) : Option Pick :=
  ([3, 2, 1, 0].filter (fun c => lo ≤ c)).findSome? s.pickClass

/-- A ring of a higher class has work: the bulk descriptor of ring `r` is set aside at its entry boundary (R371). -/
def State.outranked (s : State) (r : Nat) : Bool := (s.pick ((s.ring r).cls + 1)).isSome

/-! ### Bulk descriptors -/

/-- What an entry of a bulk descriptor comes to. -/
inductive Entry where
  /-- It ends the descriptor with this status and detail. -/
  | stop (status : Status) (detail : Nat) (s : State)
  /-- It cannot be applied yet. -/
  | wait
  /-- Its effect. -/
  | go (s : State)

/-- Runs up to `n` further entries of the bulk descriptor of ring `r`, which has `total` entries in all; `f` applies entry `k`. The descriptor
completes DONE after its last entry; at each boundary before it, it gives way to a ready ring of a higher class (R371). -/
def bulkRun (r total : Nat) (f : Nat → State → Entry) : Nat → State → State
  | 0, s => s
  | n + 1, s =>
    match (s.ring r).taken with
    | none => s
    | some t =>
      if total ≤ t.progress then s.finish r { status := .done, detail := 0, progress := t.progress }
      else match f t.progress s with
        | .stop st d s' => s'.finishTok r st d t.progress 0
        | .wait => s
        | .go s' =>
          let s' := s'.stepEntry r
          if total ≤ t.progress + 1 then s'.finish r { status := .done, detail := 0, progress := t.progress + 1 }
          else if s'.outranked r then s' else bulkRun r total f n s'

end Sys2Proof.Machine
end

