-- ==== Sys2Proof/Machine/HifRows.lean ====
section
/-! DEFINITION. The commands of the host interface that belong to no single opcode (08_host_interface.md): the link, doorbells,
fetching and taking descriptors, timers, translation faults, event records and interrupts, and the ring opcodes. -/
namespace Sys2Proof.Machine

/-- An outcome that goes on. -/
abbrev Out := Host.Outcome State Fault Refusal

/-! ### The link -/

/-- The pages requested and outstanding. -/
def State.requestsSent (s : State) : Nat := (s.hif.requests.filter (·.sent)).length

/-- Up to `n` page requests that wait are sent, oldest first, while the host's allocation and the link let them (R350, R380, R382). -/
def State.sendRequests : Nat → State → State
  | 0, s => s
  | n + 1, s =>
    match s.hif.requests.findIdx? (fun q => !q.sent) with
    | none => s
    | some i =>
      if s.requestsSent < s.hif.cfg.priAlloc ∧ s.dmaOk then
        let t := s.inc HIF_PRIREQ.count
        State.sendRequests n { t with hif := { t.hif with requests := t.hif.requests.modify i (fun q => { q with sent := true }) } }
      else s

/-- HIF_RCTL.start that had to wait is done. -/
def State.startHeld (s : State) : State :=
  match s.hif.rctlStart with
  | some r =>
    if s.startWaits r then s
    else
      let (d, t) := s.ringStart r
      let t := { t with hif := { t.hif with rctlStart := none } }
      if d = 0 then t else (t.wr HIF_RCTL.refused 1).wr HIF_RCTL.reason (d % 16)
  | none => s

/-- DMA may be possible again (R350): held writes are made in order, then what waited is done. -/
def State.dmaBack (s : State) : State :=
  let s := s.flushHeld.startHeld
  s.sendRequests s.hif.requests.length

/-- PCIE_LINK_TRAINED (R349, R350): the link comes up at a rate and width; a change after the first training posts
HIF_LINK_CHANGE. It ends a reset of the host interface, and held writes are made when bus mastering is on. -/
def execPcieLinkTrained (gen width : Nat) (flit : Bool) (s : State) : Out :=
  let changed := s.hif.trained && (s.rd HIF_LINKSTAT.gen != gen || s.rd HIF_LINKSTAT.width != width)
  let s := (((s.wr HIF_LINKSTAT.up 1).wrBit HIF_LINKSTAT.flit flit).wr HIF_LINKSTAT.gen gen).wr HIF_LINKSTAT.width width
  let s := { s with hif := { s.hif with trained := true, inReset := false } }
  let s := s.dmaBack
  .next (if changed then s.post 0x0801 [gen, width] else s)

/-- PCIE_LINK_DOWN (R350): the link goes down (`d3` false) or the function goes to D3hot; no DMA is issued from then on. -/
def execPcieLinkDown (d3 : Bool) (s : State) : Out :=
  if d3 then .next { s with hif := { s.hif with busMaster := false } } else .next (s.wr HIF_LINKSTAT.up 0)

/-- The function's settings from the host's configuration writes (R348): bits 0 MSI-X enable, 1 its function mask, 2 ATS, 3 PRI, and the
outstanding page request allocation, up to the capacity of 512. -/
def pcieCfg (enables alloc : Nat) : PcieCfg :=
  { msix := bitOf enables 0, maskAll := bitOf enables 1, ats := bitOf enables 2, pri := bitOf enables 3, priAlloc := min 512 alloc }

/-- BUS_MASTERING_RESTORED (R348, R350): the host's configuration writes give the function its settings and bus mastering; held completions
and event records are written in order. -/
def execBusMasteringRestored (enables alloc : Nat) (s : State) : Out :=
  .next { s with hif := { s.hif with busMaster := true, cfg := pcieCfg enables alloc } }.dmaBack

/-! ### Doorbells -/

/-- A ring's index moved by a doorbell: the tail of a request ring, the head of a record ring (R357). -/
def Ring.withIndex (g : Ring) (i : Nat) : Ring := if isRequest g.kind then { g with tail := i } else { g with head := i }

/-- Entries outstanding if the doorbell's index is taken (R359). -/
def Ring.outstanding (g : Ring) (i : Nat) : Nat :=
  if isRequest g.kind then (i + 65536 - g.head) % 65536 else (g.tail + 65536 - i) % 65536

/-- A page response of Success and a later doorbell are both held: a parked descriptor may resume, and a parked record ring runs
again (R381). -/
def State.tryUnpark (s : State) (r : Nat) : State :=
  let g := s.ring r
  match g.taken with
  | some t =>
    if t.st = .parked ∧ t.gotPage ∧ t.gotBell then
      s.setRing r { g with taken := some { t with st := if g.kind = 1 then .ready else .running },
                           st := if g.st = .parked then .running else g.st }
    else s
  | none =>
    match g.buffers with
    | t :: rest =>
      if t.st = .parked ∧ t.gotPage ∧ t.gotBell then
        s.setRing r { g with buffers := if g.kind = 3 then { t with st := .running } :: rest else rest,
                             st := if g.st = .parked then .running else g.st }
      else s
    | [] => s

/-- A doorbell reaches a parked descriptor (R381). -/
def Ring.bell (g : Ring) : Ring :=
  { g with taken := g.taken.map (fun t => if t.st = .parked then { t with gotBell := true } else t),
           buffers := g.buffers.map (fun t => if t.st = .parked then { t with gotBell := true } else t) }

/-- A BAR2 read of `size` bytes at a byte of a doorbell slot (R352): bytes 8 to 63 read 0. What bytes 0 to 7 read the spec does not say: a
free value (DESIGN CHOICE, log entry 104). -/
def State.bellRead (s : State) (off size : Nat) : State :=
  if 8 ≤ off then { s with readData := 0 }
  else
    let (n, s) := s.fresh
    { s with readData := (Config.bell n).toNat % 2 ^ (8 * min size (8 - off)) }

/-- A doorbell that is accepted (R357 to R360, R381, R394): while HIF_CFG.enable is 0, and on a STOPPED or STOPPING ring, it is recorded only. -/
def State.bellTaken (s : State) (r idx : Nat) (arm : Bool) : State :=
  let g := s.ring r
  if !s.bit HIF_CFG.enable || g.st == .stopped || g.st == .stopping then s.setRing r (g.withIndex idx)
  else if g.st = .error then (s.setRing r (g.withIndex idx).bell).tryUnpark r
  else if g.size < g.outstanding idx then s.ringError r 1
  else
    let g' := { (g.withIndex idx).bell with stallSaid := false }
    let g' := if isRequest g'.kind then g' else g'.reported
    let s := (s.setRing r g').tryUnpark r
    if arm then s.rearm r else s

/-- DOORBELL (R352, R358 to R360, R381, R394): a BAR2 access of `size` bytes at byte `off` of the slot of ring `slot`: a read, or a write of
`value`, which takes effect as one 8-byte write aligned to its slot. -/
def execDoorbell (slot off size : Nat) (read : Bool) (value : Nat) (s : State) : Out :=
  if read then .next (s.bellRead off size)
  else if off ≠ 0 ∨ size ≠ 8 ∨ bitsAt value 32 12 ≠ slot ∨ bitsAt value 16 16 ≠ 0 ∨ bitsAt value 44 19 ≠ 0 ∨ 4096 ≤ slot ∨
      (s.ring slot).st = .off then .next (s.inc HIF_BADDB.count)
  else .next (s.bellTaken slot (value % 65536) (bitOf value 63))

/-! ### Fetching and taking -/

/-- DESCRIPTOR_FETCH (R361, R379): reads up to 16 descriptors ahead of the head; a failed read puts the ring in ERROR with cause
FETCH. -/
def execDescriptorFetch (ring : Nat) (ok : Bool) (s : State) : Out :=
  let g := s.ring ring
  if g.st = .running ∧ isRequest g.kind ∧ s.bit HIF_CFG.enable ∧ s.dmaOk ∧ g.head ≠ g.tail then
    if ok then
      let n := min 16 g.used
      .next (s.setRing ring { g with ahead := (List.range n).map (fun k => s.dmaRead (g.base + 64 * ((g.head + k) % g.size)) 64) })
    else .next (s.ringError ring 2)
  else .next s

/-- Takes the descriptor at the head of ring `r` (R368, touch-move): from the read-ahead, or read now. A descriptor that breaks
its layout completes REFUSED (R364), one that resumes from a token starts at the token's position (R373). -/
def State.takeFrom (s : State) (r : Nat) : State :=
  let g := s.ring r
  let raw := s.headRaw g
  let d := nativeDesc g.nz5 raw
  let t0 : Taken := { desc := d, index := g.head, st := .running, progress := 0, takenAt := s.clk, stepAt := s.clk }
  let s1 := (s.setRing r { g with head := (g.head + 1) % 65536, ahead := g.ahead.drop 1, taken := some t0,
                                  lastTake := s.clk }).touchCache r
  let s1 := if g.kind = 1 then s1.seatInput (.request r g.head) else s1
  let bad := checkDesc g raw d
  if bad ≠ 0 then s1.finRefused r bad
  else if t0.resume then
    match s.findToken t0 with
    | some k =>
      if t0.op = 0x01 ∧ 1 ≤ k.pos then s1.finish r { status := .done, detail := 0, progress := k.pos }
      else s1.updTaken r (fun t => { t with progress := k.pos, cursor := k.cursor, base := k.base, sub := k.sub })
    | none => s1.finRefused r dBAD_TOKEN
  else s1

/-- The executor resumes or takes as chosen, and runs it (R367, R371). -/
def State.runPick (s : State) (p : Pick) : State :=
  match p with
  | .resume r =>
    let s := s.updTaken r (fun t => { t with st := .running, stepAt := s.clk })
    { s with hif := { s.hif with exec := some r } }
  | .take r =>
    let c := (s.ring r).cls
    let s := { s with hif := { s.hif with exec := some r, lastRing := Tbl.ins c r s.hif.lastRing } }
    s.takeFrom r

/-- DESCRIPTOR_TAKE (R355, R367, R368, R371, R372): the executor takes the next command descriptor or resumes a pre-empted one.
While a P opcode runs and a higher class is ready, the running descriptor is first set aside, or with yield set completes
PREEMPTED. -/
def execDescriptorTake (s : State) : Out :=
  match s.hif.exec with
  | none =>
    match s.pick 0 with
    | some p => .next (s.runPick p)
    | none => .next s
  | some r =>
    let g := s.ring r
    match g.taken with
    | none => .next { s with hif := { s.hif with exec := none } }
    | some t =>
      if isBulk t.op && !t.waits then
        match s.pick (g.cls + 1) with
        | some p =>
          let s := s.inc HIF_PREEMPT.count
          if t.yields && !g.nz5 then .next ((s.finishTok r .preempted dYIELD t.progress 0).runPick p)
          else
            let s := s.updTaken r (fun t => { t with st := .preempted })
            .next ({ s with hif := { s.hif with exec := none } }.runPick p)
        | none => .next s
      else .next s

/-- The eight bytes of a write-back (R356). -/
def Ring.wbValue (g : Ring) : Nat :=
  g.head + (if isRequest g.kind then g.completed else 0) * 65536 + g.st.num * 2 ^ 32

/-- RING_WRITEBACK (R356): the head, completed index and state go to wb_addr on a change, at most once per µs. -/
def execRingWriteback (ring : Nat) (s : State) : Out :=
  let g := s.ring ring
  if g.st ≠ .off ∧ g.wbAddr ≠ 0 ∧ g.wbLast ≠ some g.wbValue ∧ (g.wbLast = none ∨ s.elapsed g.wbAt (us 1)) ∧ s.dmaOk then
    .next ((s.dmaWrite g.wbAddr (leBytes 8 g.wbValue)).setRing ring { g with wbLast := some g.wbValue, wbAt := s.clk })
  else .next s

/-! ### Timers (R376 to R378) -/

/-- The buffers of PUNT ring `r` replaced; the ring leaves PARKED when the parked one has gone. -/
def State.setBuffers (s : State) (r : Nat) (l : List Taken) : State :=
  let g := s.ring r
  s.setRing r { g with buffers := l, st := if g.st = .parked ∧ !l.any (·.st == .parked) then .running else g.st }

/-- TTL_EXPIRE (R376, R382, R383, R397): a descriptor, or the first such punt buffer of a ring, outlives ttl_ms and completes EXPIRED with
TTL at its entry boundary. -/
def execTtlExpire (ring : Nat) (s : State) : Out :=
  let g := s.ring ring
  let due := s.ttlDue g
  match g.taken with
  | none =>
    match (if g.kind = 3 then g.buffers.findIdx? due else none) with
    | none => .next s
    | some i =>
      match g.buffers[i]? with
      | none => .next s
      | some t =>
        let s := (if i = 0 then s.unstick ring else s).setBuffers ring (g.buffers.eraseIdx i)
        .next (s.endBuffer ring t .expired dTTL 0)
  | some t =>
    if due t ∧ ((isBulk t.op ∧ !t.waits) ∨ t.st ≠ .running) then
      .next (s.finishTok ring .expired dTTL t.progress 0)
    else .next s

/-- RING_STALL (R355, R378): a request ring from which nothing has been taken for stall_ms discards its read-ahead, reads its RCT
entry again, of which a change applies only after RCT_INVALIDATE, and fetches again from its head; a record ring that stays full posts once
and waits. -/
def execRingStall (ring : Nat) (s : State) : Out :=
  let g := s.ring ring
  let due := s.elapsed g.lastTake (ms (s.rd HIF_TIMEOUTS.stall_ms))
  if g.st = .running ∧ due ∧ isRequest g.kind ∧ g.head ≠ g.tail ∧ g.taken.isNone ∧ g.buffers.isEmpty ∧ s.dmaOk then
    let n := min 16 g.used
    let s := s.setRing ring { g with ahead := (List.range n).map (fun k => s.dmaRead (g.base + 64 * ((g.head + k) % g.size)) 64),
                                     lastTake := s.clk }
    .next (s.post 0x0803 (leBytes 2 ring ++ [g.kind]))
  else if g.st = .running ∧ due ∧ !isRequest g.kind ∧ g.room = 0 ∧ !g.stallSaid then
    .next ((s.setRing ring { g with stallSaid := true }).post 0x0803 (leBytes 2 ring ++ [g.kind]))
  else .next s

/-! ### Faults and parking (R379 to R382) -/

/-- The ring whose descriptor's DMA meets a fault: the executor's, or a packet ring with its descriptor taken here. -/
def State.faultable (s : State) (r : Nat) : Bool :=
  match (s.ring r).taken with
  | some t => t.st == .running && !(t.waits && [0x01, 0x02, 0x03, 0x11, 0x70].contains t.op)
  | none => s.mayTake (s.ring r) 4

/-- The packet descriptor at the head is taken before its DMA faults (R368, R387). -/
def State.takeForFault (s : State) (r : Nat) : State := if (s.ring r).taken.isSome then s else s.takeFrom r

/-- DMA_TIMEOUT (R379): a read for a taken descriptor gets no completion within the PCIe completion timeout, or meets an
unsupported request, completer abort or poisoned data (`error`). -/
def execDmaTimeout (ring addr : Nat) (error : Bool) (s : State) : Out :=
  if s.faultable ring then
    let s := s.takeForFault ring
    match (s.ring ring).taken with
    | some t =>
      let s := if t.op = 0x50 then s.wr CHK_STAT.busy 0 else s
      .next (s.finishTok ring .faulted (if error then dDMA_ERROR else dDMA_TIMEOUT) t.progress addr)
    | none => .next s
  else .next s

/-- A page request of ring `r` for the page of an address, with the ring's PASID: sent while the host's allocation lasts, else it waits
(R380, R382). -/
def State.pageRequest (s : State) (r addr : Nat) : State :=
  let g := s.ring r
  let q : PageReq := { ring := r, pasid := if g.pasidEn then some g.pasid else none, page := addr / 4096, sent := false }
  State.sendRequests 1 { s with hif := { s.hif with requests := s.hif.requests ++ [q] } }

/-- A taken descriptor parked at its last entry boundary. -/
def Taken.park (t : Taken) (addr clk : Nat) : Taken :=
  { t with st := .parked, faultAddr := addr, gotPage := false, gotBell := false, parkedAt := clk }

/-- The host has enabled PRI, which rests on ATS (R380). -/
def State.priOn (s : State) : Bool := s.hif.cfg.pri && s.hif.cfg.ats

/-- Ring `r` is PARKED, unless a stop or an error holds it. -/
def State.parkRing (s : State) (r : Nat) : State :=
  let g := s.ring r
  s.setRing r { g with st := if g.st = .running then .parked else g.st }

/-- A translation fault of the taken descriptor `t` of ring `r`: without PRI it completes FAULTED, else it parks and a page request goes out;
on a ring that is stopping the stop then ends it (R380, R383). -/
def State.faultTaken (s : State) (r addr : Nat) (t : Taken) : State :=
  let s := if t.op = 0x50 then s.wr CHK_STAT.busy 0 else s
  if !s.priOn then s.finishTok r .faulted dTRANSLATION t.progress addr
  else
    let s := ((s.updTaken r (fun t => t.park addr s.clk)).pageRequest r addr).parkRing r
    let s := if s.hif.exec = some r then { s with hif := { s.hif with exec := none } } else s
    if (s.ring r).st = .stopping then s.endByStop r else s

/-- A translation fault of the write to the first buffer `t` of PUNT ring `r`: the packet stays for that buffer (R386). -/
def State.faultBuffer (s : State) (r addr : Nat) (t : Taken) (rest : List Taken) : State :=
  if !s.priOn then ((s.unstick r).setBuffers r rest).endBuffer r t .faulted dTRANSLATION addr
  else
    let g := s.ring r
    let pkt := if g.stuck.isSome then g.stuck else s.hif.puntQ.find? (fun k => k.cls == g.cls)
    let q := match g.stuck, pkt with
      | none, some k => s.hif.puntQ.erase k
      | _, _ => s.hif.puntQ
    let s := { s with hif := { s.hif with puntQ := q } }
    ((s.setRing r { g with stuck := pkt, buffers := t.park addr s.clk :: rest }).parkRing r).pageRequest r addr

/-- TRANSLATION_FAULT (R380, R383, R386, R575): a DMA for a taken descriptor or buffer of the ring, or a record write, meets a
translation that does not permit it. -/
def execTranslationFault (ring addr : Nat) (s : State) : Out :=
  let g0 := s.ring ring
  if !s.dmaOk then .next s
  else if s.faultable ring then
    let s := s.takeForFault ring
    match (s.ring ring).taken with
    | none => .next s
    | some t => .next (s.faultTaken ring addr t)
  else if g0.kind = 3 ∧ (g0.st = .running ∨ g0.st = .error) then
    match g0.buffers with
    | [] => .next s
    | t :: rest => if t.st = .parked then .next s else .next (s.faultBuffer ring addr t rest)
  else if !isRequest g0.kind ∧ g0.st = .running ∧ s.priOn then
    let t : Taken := { desc := [], index := 0, st := .running, progress := 0 }
    .next (((s.setRing ring { g0 with buffers := [t.park addr s.clk] }).parkRing ring).pageRequest ring addr)
  else .next s

/-- The parked descriptor or buffer of ring `r` completes FAULTED with its progress, token and address (R381, R382). -/
def State.endParked (s : State) (r detail : Nat) : State :=
  match (s.ring r).taken with
  | some t => if t.st = .parked then s.finishTok r .faulted detail t.progress t.faultAddr else s
  | none =>
    match (s.ring r).buffers with
    | t :: rest =>
      if (s.ring r).kind = 3 ∧ t.st = .parked then ((s.unstick r).setBuffers r rest).endBuffer r t .faulted detail t.faultAddr else s
    | [] => s

/-- A page response of Success is held by the parked descriptor, buffer or record ring. -/
def Ring.paged (g : Ring) : Ring :=
  let mark := fun (t : Taken) => if t.st = .parked then { t with gotPage := true } else t
  { g with taken := g.taken.map mark, buffers := g.buffers.map mark }

/-- The oldest outstanding page request of ring `r` is answered: its allocation is free for one that waits (R382). -/
def State.requestDone (s : State) (i : Nat) : State :=
  let s := { s with hif := { s.hif with requests := s.hif.requests.eraseIdx i } }
  s.sendRequests s.hif.requests.length

/-- PAGE_RESPONSE (R381, R382): the response to the ring's oldest outstanding page request. Success lets the parked descriptor resume once a
doorbell has come too; any other response completes it FAULTED with TRANSLATION. A response after the completion is ignored. -/
def execPageResponse (ring : Nat) (success : Bool) (s : State) : Out :=
  match s.hif.requests.findIdx? (fun q => q.ring == ring && q.sent) with
  | none => .next s
  | some i =>
    let late := decide ((s.hif.requests.filter (fun q => q.ring == ring)).length ≠ 1)
    let s := s.requestDone i
    if late then .next s
    else if success then .next ((s.setRing ring (s.ring ring).paged).tryUnpark ring)
    else .next (s.endParked ring dTRANSLATION)

/-- Island clock of the parking of a ring's descriptor or buffer. -/
def Ring.parkedSince (g : Ring) : Option Nat :=
  match g.taken with
  | some t => if t.st = .parked then some t.parkedAt else none
  | none =>
    match g.buffers with
    | t :: _ => if g.kind = 3 ∧ t.st = .parked then some t.parkedAt else none
    | [] => none

/-- PARK_TIMEOUT (R382): a descriptor parked for park_ms completes FAULTED with PRI_TIMEOUT. -/
def execParkTimeout (ring : Nat) (s : State) : Out :=
  match (s.ring ring).parkedSince with
  | some at_ => .next (if s.elapsed at_ (ms (s.rd HIF_PRICFG.park_ms)) then s.endParked ring dPRI_TIMEOUT else s)
  | none => .next s

/-! ### Event records and interrupts -/

/-- The first 32 bytes of a record (*Event record*). -/
def evHead (g : Ring) (tail code cont cls ns sec : Nat) (payload : List Nat) : List Nat :=
  leBytes 2 code ++ [cont + 128 * phaseBit g.size tail, cls] ++ leBytes 4 g.seq ++ leBytes 4 ns ++ leBytes 4 sec ++
    sliceB payload 0 16

/-- Writes a record of `slots` slots at the tail of ring `r`, its continuation slots before its first slot (R389). -/
def State.putRecord (s : State) (r slots code cls ns sec : Nat) (payload : List Nat) (cont : List (List Nat)) : State :=
  let g := s.ring r
  let at_ := fun i => g.base + 32 * ((g.tail + i) % g.size)
  let s := (cont.zipIdx).foldl (fun t c => t.hostWrite r (at_ (c.2 + 1)) (sliceB c.1 0 32)) s
  let s := s.hostWrite r (at_ 0) (evHead g g.tail code (slots - 1) cls ns sec payload)
  (s.setRing r { s.ring r with tail := (g.tail + slots) % 65536, seq := (g.seq + 1) % 2 ^ 32, lastTake := s.clk }).raiseRing r

/-- Writes a record to ring `r` where it has room: when too few slots remain before the ring's end, first a PAD record that covers them, which
takes its room on its own (R389). Whether the record was written. -/
def State.writeRecord (s : State) (r : Nat) (code cls ns sec : Nat) (payload : List Nat) (cont : List (List Nat)) : Bool × State :=
  let k := 1 + cont.length
  let left := (s.ring r).size - (s.ring r).tail % (s.ring r).size
  let put := fun (s : State) => if (s.ring r).room < k then (false, s) else (true, s.putRecord r k code cls ns sec payload cont)
  if k ≤ left then put s
  else if (s.ring r).room < left then (false, s)
  else put (s.putRecord r left 0 cls ns sec [] [])

/-- The classes whose events go to ring `r` and of which some were discarded since the last HIF_EVENT_LOST (R393). -/
def State.lostOf (s : State) (r : Nat) : List Nat := (List.range 16).filter (fun c => s.evRing c == some r && Tbl.get 0 s.hif.lost c != 0)

/-- HIF_EVENT_LOST with the discards of each class of ring `r`, where the ring has room (R393). -/
def State.writeLost (s : State) (r : Nat) : State :=
  let l := s.lostOf r
  let counts := (List.range 16).map (fun c => leBytes 4 (if l.contains c then Tbl.get 0 s.hif.lost c else 0))
  let slot := fun i => ((counts.drop (8 * i)).take 8).flatten
  let (ok, s) := s.writeRecord r 0x0806 8 (s.netNs % 10 ^ 9) (s.netNs / 10 ^ 9 % 2 ^ 32) [] [slot 0, slot 1]
  if ok then { s with hif := { s.hif with lost := l.foldl (fun t c => Tbl.erase t c) s.hif.lost } } else s

/-- EVENT_WRITE (R389 to R393): the oldest waiting record of a running EVENT ring is written once the ring has room (one of a bridge
module once its microsecond is over, so that those of one microsecond stay in module order: R49);
HIF_EVENT_LOST goes before any waiting record when records of the ring's classes were discarded. -/
def execEventWrite (ring : Nat) (s : State) : Out :=
  let g := s.ring ring
  if g.st ≠ .running ∨ g.kind ≠ 2 ∨ !s.bit HIF_CFG.enable then .next s
  else if !(s.lostOf ring).isEmpty then .next (s.writeLost ring)
  else
    match s.hif.events.findIdx? (fun e => s.evRing e.cls == some ring) with
    | none => .next s
    | some i =>
      match s.hif.events[i]? with
      | none => .next s
      | some e =>
        if e.ofModule (s.clk / 1000) then .next s
        else
          let (ok, s) := s.writeRecord ring e.code e.cls e.ns e.sec e.payload e.cont
          .next (if ok then { s with hif := { s.hif with events := s.hif.events.eraseIdx i } } else s)

/-- A word of the MSI-X table; vector control resets to masked. -/
def State.msixWord (s : State) (k : Nat) : Nat := Tbl.get (if k % 4 = 3 then 1 else 0) s.hif.msix k

/-- Whether vector `v` has a message to send: its causes have reached count or the oldest has waited time_us, and gap_us has passed since
its last message (R395). -/
def State.msixDue (s : State) (v : Nat) : Bool :=
  let x := s.vec v
  let gap := match x.lastMsg with
    | some t => s.elapsed t (us (s.rd (HIF_VMOD.gap_us v)))
    | none => true
  decide (v < 512) && x.causes != 0 && gap &&
    (decide (s.rd (HIF_VMOD.count v) ≤ x.causes) || s.elapsed x.oldest (us (s.rd (HIF_VMOD.time_us v))))

/-- A vector is masked, by its own bit or by that of the function. -/
def State.msixMasked (s : State) (v : Nat) : Bool := s.hif.cfg.maskAll || bitOf (s.msixWord (4 * v + 3)) 0

/-- MSIX_MESSAGE (R350, R395): a vector sends its message when it is due; a masked one keeps its pending bit and its causes. None is sent
while MSI-X is disabled or no DMA can be issued. -/
def execMsixMessage (v : Nat) (s : State) : Out :=
  let x := s.vec v
  if !s.msixDue v || !s.hif.cfg.msix then .next s
  else if s.msixMasked v then .next (s.setVec v { x with pba := true })
  else if !s.dmaOk then .next s
  else
    let addr := s.msixWord (4 * v) + s.msixWord (4 * v + 1) * 2 ^ 32
    let s := s.hostWrite 4096 addr (leBytes 4 (s.msixWord (4 * v + 2)))
    .next (s.setVec v { x with causes := 0, oldest := 0, lastMsg := some s.clk, pba := false })

/-! ### Ring opcodes -/

/-- RING_STOP of ring `r` (R384, R386): ends its taken descriptor as the rule gives, and the ring enters STOPPED when it holds none. The
refusal's detail, 0 when it stops. -/
def State.ringStop (s : State) (r : Nat) : Nat × State :=
  let g := s.ring r
  match g.st with
  | .off => (dRING_STATE, s)
  | .error => (dRING_STATE, s)
  | .stopped => (0, s)
  | .stopping => (0, s)
  | _ =>
    if g.busy then (0, s.setRing r { g with st := .stopping, ahead := [] })
    else if g.taken.isSome then (0, (s.setRing r { g with st := .stopping, ahead := [] }).endByStop r)
    else
      let s := s.endBuffers r
      (0, s.setRing r { s.ring r with st := .stopped, ahead := [] })

/-- Runs a ring opcode of the executor on ring `r`: the operand names the target; the command's own ring is refused (R384). -/
def State.ringOp (s : State) (op : Nat) (f : State → Nat → Nat → State) : State :=
  match s.running op with
  | none => s
  | some (r, t) =>
    let target := t.f 16 2
    if t.waits then s
    else if target = r then s.finRefused r dRING_STATE
    else if 4096 ≤ target then s.finRefused r dBAD_OPERAND
    else f s r target

/-- RING_START (R350, R353, R354, R398): starts a ring from its RCT entry, once that can be read; its first completion closes HIF_RCTL's
window. -/
def execRingStart (s : State) : Out :=
  .next (s.ringOp 0x10 (fun s r target =>
    if s.startWaits target then s
    else
      let (d, s) := s.ringStart target
      if d = 0 then { s with hif := { s.hif with rctlOpen := false } }.finDone r else s.finRefused r d))

/-- RING_STOP (R365, R384): completes when the target is STOPPED. -/
def execRingStop (s : State) : Out :=
  .next (s.ringOp 0x11 (fun s r target =>
    let (d, s) := s.ringStop target
    if d ≠ 0 then s.finRefused r d
    else if (s.ring target).st = .stopped then s.finDone r
    else s.updTaken r (fun t => { t with waits := true })))

/-- RCT_INVALIDATE (R355). -/
def execRctInvalidate (s : State) : Out :=
  .next (s.ringOp 0x12 (fun s r target =>
    let (d, s) := s.ringInvalidate target
    if d = 0 then s.finDone r else s.finRefused r d))

/-- NOP (R365): a descriptor without effect, on any request ring; on a PUNT or INJECT ring it is taken here. -/
def execNopDescriptor (ring : Nat) (s : State) : Out :=
  let g := s.ring ring
  if g.kind = 1 then
    match s.running 0x00 with
    | some (r, _) => if r = ring then .next (s.finDone r) else .next s
    | none => .next s
  else if (g.kind = 3 ∨ g.kind = 4) ∧ s.mayTake g g.kind ∧ leAt (s.headDesc g) 0 1 = 0 then
    let s := s.takeFrom ring
    .next (if (s.ring ring).taken.isSome then s.finDone ring else s)
  else .next s

end Sys2Proof.Machine
end

