-- ==== Sys2Proof/Machine/Bridge.lean ====
section
/-! DEFINITION. The die-to-die bridge, its modules and the die sideband (01_two_dies.md, R24 to R44). -/
namespace Sys2Proof.Machine

/-! ### One direction of the bridge -/

/-- Flits of 240 payload bytes that a packet with its 48-byte result takes; the last carries the packet. -/
def cutFlits (p : Packet) : List Flit :=
  let n := ceilDiv (p.bytes.length + 48) 240
  (List.range n).map (fun i => { seq := 0, control := false, mod := 0, pkt := if i + 1 = n then some p else none })

/-- Bytes that the packets of a bridge-entry queue hold: each counts with the 48-byte result that enters the queue with it (DESIGN CHOICE, log
entry 88: R29 does not say whether the result takes room). -/
def queueBytes (q : List Packet) : Nat := q.foldl (fun a p => a + p.bytes.length + 48) 0

/-- The bridge-entry queue of a pipe. -/
def State.entryQ (s : State) (p : Nat) : List Packet := Tbl.get [] s.dies.entryQ p

/-- The bridge-entry queue of a pipe replaced. -/
def State.setEntryQ (s : State) (p : Nat) (q : List Packet) : State :=
  { s with dies := { s.dies with entryQ := Tbl.set [] s.dies.entryQ p q } }

/-- The FD takes the next packet of the bridge-entry queues in rotating order and cuts it into flits (R29). -/
def State.takeEntry (s : State) : Option State :=
  let order := (List.range 4).map (fun i => (s.dies.entryNext + i) % 4)
  match order.filter (fun p => !(s.entryQ p).isEmpty) with
  | [] => none
  | p :: _ =>
    match s.entryQ p with
    | [] => none
    | k :: rest =>
      let s := s.setEntryQ p rest
      let s := { s with dies := { s.dies with entryNext := (p + 1) % 4 } }
      some (s.setDir true { s.dies.ft with waiting := s.dies.ft.waiting ++ cutFlits k })

/-- The position of the next flit that may be sent: a control flit within its share goes before packet flits (R28). -/
def pickFlit (share : Nat) (d : BridgeDir) : Option Nat :=
  match d.waiting.findIdx? (·.control) with
  | some i => if d.ctlBits + 1920 ≤ share then some i else d.waiting.findIdx? (!·.control)
  | none => d.waiting.findIdx? (!·.control)

/-- Sends one flit, striped over the ACTIVE modules, while the bridge is up and the replay store has room (R24, R27). -/
def State.sendFlit (s : State) (ft : Bool) : Option State :=
  let d := s.dir ft
  let act := s.activeMods
  if act.isEmpty ∨ !s.bridgeUp ∨ 2048 ≤ d.replay.length then none
  else
    match pickFlit s.controlShare d with
    | none => none
    | some i =>
      match d.waiting[i]? with
      | none => none
      | some f => some ((s.setDir ft { d with waiting := d.waiting.eraseIdx i }).putFlit ft f)

/-- Sends what the bridge can take in a direction: flits that wait, then, from the FD, packets of the bridge-entry queues. -/
def State.pump (ft : Bool) : Nat → State → State
  | 0, s => s
  | n + 1, s =>
    match s.sendFlit ft with
    | some s' => State.pump ft n s'
    | none =>
      if ft ∧ s.dies.ft.waiting.all (·.control) ∧ s.dies.ft.replay.length < 2048 ∧ s.bridgeUp ∧ !s.activeMods.isEmpty then
        match s.takeEntry with
        | some s' => State.pump ft n s'
        | none => s
      else s

/-- How many sends and takes the bridge may make at once: what waits, and what the queues hold. -/
def State.pumpFuel (s : State) (ft : Bool) : Nat :=
  (s.dir ft).waiting.length + (if ft then ((List.range 4).map (fun p => ((s.entryQ p).map (fun k =>
    ceilDiv (k.bytes.length + 48) 240 + 1)).foldl (· + ·) 0)).foldl (· + ·) 0 else 0)

/-- The bridge sends all it can in a direction. -/
def State.run (s : State) (ft : Bool) : State := State.pump ft (s.pumpFuel ft) s

/-- A packet enters the bridge-entry queue of its pipe, or is dropped there and counted in D2D_BRGDROP (R29). -/
def State.bridgeEnter (s : State) (k : Packet) : State :=
  if queueBytes (s.entryQ k.pipe) + k.bytes.length + 48 ≤ 32768 then (s.setEntryQ k.pipe (s.entryQ k.pipe ++ [k])).run true
  else s.inc (D2D_BRGDROP.count k.pipe)

/-- A packet that the TD sends to the FD (R29): its flits wait for the bridge. -/
def State.bridgeBack (s : State) (k : Packet) : State :=
  (s.setDir false { s.dies.tf with waiting := s.dies.tf.waiting ++ cutFlits k }).run false

/-! ### Modules -/

/-- BRIDGE_DEGRADED as the count of ACTIVE modules stands (R49). -/
def State.degradeCheck (s : State) : State :=
  let n := s.activeMods.length
  if n < 20 ∧ !s.dies.degraded then ({ s with dies := { s.dies with degraded := true } }).post 0x0003 [n, 1]
  else if 20 ≤ n ∧ s.dies.degraded then ({ s with dies := { s.dies with degraded := false } }).post 0x0003 [n, 0]
  else s

/-- D2D_STAT.active after module states have changed, and from ready onward BRIDGE_DEGRADED (R49, R589). -/
def State.countModules (s : State) : State :=
  let s := s.wr D2D_STAT.active s.activeMods.length
  if s.bit GEN_BOOTSTAT.ready then s.degradeCheck else s

/-- The unacknowledged flits of modules that are out of service move to the ACTIVE ones and are replayed (R26); with none ACTIVE they wait for
the next module that becomes so. -/
def State.replayLost (s : State) (ft : Bool) : State :=
  let d := s.dir ft
  let act := s.activeMods
  let n := d.replay.countP (fun f => !act.contains f.mod)
  if n = 0 ∨ act.isEmpty then s
  else
    let s := s.setDir ft { d with replay := d.replay.map (fun f =>
      if act.contains f.mod then f else { f with mod := (act[f.seq % act.length]?).getD 0 }) }
    if ft then s.addSat D2D_REPLAY_FT.count n else s.addSat D2D_REPLAY_TF.count n

/-- The ACTIVE modules have changed (R24, R26, R49): they are counted, stranded flits are replayed, and both directions send what they can. -/
def State.modulesChanged (s : State) : State := (((s.replayLost true).replayLost false).countModules.run true).run false

/-- A module leaves service (R26, R32) in state `st`. -/
def State.moduleOut (s : State) (m st : Nat) : State := (s.wr (D2D_MODSTAT.state m) st).modulesChanged

/-- A module enters LOST with a cause. -/
def State.moduleLost (s : State) (m cause : Nat) : State :=
  ((s.wr (D2D_MODSTAT.cause m) cause).postModule 0x0002 [m, cause]).moduleOut m 4

/-- Module data that is no register. -/
def State.modul (s : State) (m : Nat) : ModState := Tbl.get {} s.dies.mods m

/-- Module data replaced. -/
def State.setModul (s : State) (m : Nat) (x : ModState) : State :=
  { s with dies := { s.dies with mods := Tbl.set {} s.dies.mods m x } }

/-- Spare lanes mapped in a direction of a module. -/
def spares (ft : Bool) (m : Nat) : Fld := if ft then D2D_MODSTAT.spares_ft m else D2D_MODSTAT.spares_tf m

/-- Spare lanes of a direction of a module that are mapped in or being mapped in. -/
def State.sparesTaken (s : State) (ft : Bool) (m : Nat) : Nat :=
  s.rd (spares ft m) + (s.modul m).fixing.countP (fun e => e.1 == if ft then 0 else 1)

/-- A lane of an ACTIVE or REPAIRING module fails (R30, R31): the module is repaired while a spare of that direction is free, else it is LOST
with cause fifth lane. The lanes of a module in another state carry nothing that could fail (DEDUCED, log entry 12). -/
def State.laneFail (s : State) (ft : Bool) (m lane : Nat) : State :=
  if s.modState m ≠ 2 ∧ s.modState m ≠ 3 then s
  else
    let s := s.inc D2D_LANEFAIL.count
    let d := s.dir ft
    let s := s.setDir ft { d with laneBad := insNat (68 * m + lane) d.laneBad, laneErr := Tbl.erase d.laneErr (68 * m + lane) }
    if s.sparesTaken ft m < 4 then
      (s.setModul m { s.modul m with fixing := (s.modul m).fixing ++ [(if ft then 0 else 1, lane)] }).moduleOut m 3
    else (s.setModul m { s.modul m with fixing := [] }).moduleLost m 1

/-- BRIDGE_LANE_LOCK_LOSS (R30, R31): a lane loses lock. -/
def execBridgeLaneLockLoss (ft : Bool) (m lane : Nat) (s : State) : Out :=
  if m < 24 ∧ lane < 68 ∧ (s.dir ft).laneBad.contains (68 * m + lane) = false then .next (s.laneFail ft m lane) else .next s

/-- A spare lane is mapped in for a failed one, and reported (R31, R49). -/
def State.mapSpare (s : State) (m : Nat) (e : Nat × Nat) : State :=
  (s.addSat (spares (e.1 == 0) m) 1).postModule 0x0001 [m, e.1, e.2]

/-- MODULE_REPAIR_DONE (R31): a REPAIRING module has its spares mapped in, or its retrain fails. -/
def execModuleRepairDone (m : Nat) (ok : Bool) (s : State) : Out :=
  if m < 24 ∧ s.modState m = 3 then
    let x := s.modul m
    let s := s.setModul m { x with fixing := [] }
    if ok then .next (x.fixing.foldl (fun t e => t.mapSpare m e) (s.wr (D2D_MODSTAT.state m) 2)).modulesChanged
    else .next (s.moduleLost m 2)
  else .next s

/-- D2D_CTL.retrain reads 0 once no module trains any longer; a rejoin clears it at its step 2. -/
def State.trainEnd (s : State) : State :=
  if (List.range 24).any (fun m => s.modState m == 1) || s.res.rejoin != 0 then s else s.wr D2D_CTL.retrain 0

/-- MODULE_TRAINING_DONE (*Bridge module states*): a training attempt ends; three failures in a row lose the module. -/
def execModuleTrainingDone (m : Nat) (ok : Bool) (s : State) : Out :=
  if m < 24 ∧ s.modState m = 1 then
    let x := s.modul m
    if ok then .next ((s.setModul m { x with attempts := 0 }).wr (D2D_MODSTAT.state m) 2).modulesChanged.trainEnd
    else if x.attempts + 1 < 3 then .next (s.setModul m { x with attempts := x.attempts + 1 })
    else .next ((s.setModul m { x with attempts := 0 }).moduleLost m 2).trainEnd
  else .next s

/-! ### Flits -/

/-- A flit of the reorder store is delivered. -/
def BridgeDir.took (d : BridgeDir) (f : Flit) : BridgeDir :=
  { d with nextRx := (d.nextRx + 1) % 2 ^ 32, reorder := d.reorder.filter (fun g => g.seq != f.seq),
           ctlSeen := if f.control then d.ctlSeen + 1 else d.ctlSeen, arrived := d.arrived ++ f.pkt.toList }

/-- Delivers flits of the reorder store that are next in sequence; the messages of the control class that they complete are answered. -/
def deliver : Nat → BridgeDir → BridgeDir × List CtlMsg
  | 0, d => (d, [])
  | n + 1, d =>
    match d.reorder.find? (fun f => f.seq == d.nextRx) with
    | none => (d, [])
    | some f =>
      let (e, l) := deliver n (d.took f)
      (e, f.msg.toList ++ l)

/-- The lanes of a module whose CRC errors exceeded 1 in 10⁶ of the flits received in the window that has ended (R30). -/
def BridgeDir.crcBad (d : BridgeDir) (m : Nat) : List Nat :=
  (List.range 68).filter (fun l => decide ((Tbl.get (0, 0) d.flitWin m).2 < 1000000 * Tbl.get 0 d.laneErr (68 * m + l)))

/-- A flit arrives on a module: in a new window of 1 ms the lanes are judged by the last one and the counts start again (R30; the windows
follow each other from clock 0, and one is judged at the module's first flit after it: DESIGN CHOICE, log entry 12). -/
def State.flitSeen (s : State) (ft : Bool) (m : Nat) : State :=
  let d := s.dir ft
  let (w, n) := Tbl.get (0, 0) d.flitWin m
  let now := s.clk / ms 1
  if w = now then s.setDir ft { d with flitWin := Tbl.set (0, 0) d.flitWin m (w, n + 1) }
  else
    let t := s.setDir ft { d with flitWin := Tbl.set (0, 0) d.flitWin m (now, 1), laneErr := d.laneErr.filter (fun e => e.1 / 68 != m) }
    (d.crcBad m).foldl (fun t l => t.laneFail ft m l) t

/-- A CRC error on a lane (R30). -/
def State.laneCrc (s : State) (ft : Bool) (m lane : Nat) : State :=
  let d := s.dir ft
  s.setDir ft { d with laneErr := Tbl.upd 0 d.laneErr (68 * m + lane) (· + 1) }

/-- A flit under way in a direction arrives (R24, R26, R30); `badLane` names the lane whose CRC error spoils it, in which case it stays in the
replay store. Flits are delivered in sequence-number order and none twice. The messages delivered are answered with the state. -/
def State.flitIn (s : State) (ft : Bool) (seq : Nat) (badLane : Option Nat) : State × List CtlMsg :=
  match (s.dir ft).replay.find? (fun f => f.seq == seq) with
  | none => (s, [])
  | some f =>
    if s.modState f.mod ≠ 2 ∨ !s.bridgeUp then (s, [])
    else
      let s := s.setDir ft { s.dir ft with heardAt := s.clk }
      let s := s.flitSeen ft f.mod
      let d := s.dir ft
      match badLane with
      | some l => (if l < 68 then s.laneCrc ft f.mod l else s, [])
      | none =>
        let far := seqAhead seq d.nextRx
        if 2 ^ 31 ≤ far ∨ d.reorder.any (fun g => g.seq == seq) ∨ (far ≠ 0 ∧ 2048 ≤ d.reorder.length) then (s, [])
        else
          let (e, l) := deliver (d.reorder.length + 1) { d with reorder := d.reorder ++ [f] }
          (s.setDir ft e, l)

/-- FLIT_ACK (R25, R27): the receiver acknowledges every flit up to one that it has delivered; replay space is freed and a stopped
transmitter resumes. -/
def execFlitAck (ft : Bool) (seq : Nat) (s : State) : Out :=
  let d := s.dir ft
  let delivered := decide (seqAhead d.nextRx seq ≠ 0 ∧ seqAhead d.nextRx seq < 2 ^ 31)
  match d.replay.findIdx? (fun f => f.seq == seq) with
  | none => .next s
  | some i => if delivered then .next ((s.setDir ft { d with replay := d.replay.drop (i + 1) }).run ft) else .next s

/-- CONTROL_SHARE_WINDOW (R28): a metering window of 1 µs ends in each direction. -/
def execControlShareWindow (s : State) : Out :=
  if s.elapsed s.dies.ft.winAt (us 1) then
    let s := s.setDir true { s.dies.ft with ctlBits := 0, winAt := s.clk }
    let s := s.setDir false { s.dies.tf with ctlBits := 0, winAt := s.clk }
    .next ((s.run true).run false)
  else .next s

/-! ### The sideband -/

/-- A message for the FD end takes a place in the crossing of the sideband, or waits for one (R36, R46). -/
def State.sbPut (s : State) (m : SbMsg) : State :=
  if s.dies.toFd.length < 8 ∧ s.dies.sbWait.isEmpty then { s with dies := { s.dies with toFd := s.dies.toFd ++ [m] } }
  else { s with dies := { s.dies with sbWait := s.dies.sbWait ++ [m] } }

/-- SIDEBAND_HEARTBEAT_SEND (R35): the FD (`fd`) or the TD sends a heartbeat 10 µs after its last one; it waits while the crossing is full
(R46). -/
def execSidebandHeartbeatSend (fd : Bool) (s : State) : Out :=
  if fd ∧ s.elapsed s.dies.hbFdSent (us 10) ∧ s.dies.toTd.length < 8 then
    .next { s with dies := { s.dies with hbFdSent := s.clk, toTd := s.dies.toTd ++ [.heartbeat] } }
  else if !fd ∧ s.elapsed s.dies.hbTdSent (us 10) ∧ s.dies.toFd.length < 8 then
    .next { s with dies := { s.dies with hbTdSent := s.clk, toFd := s.dies.toFd ++ [.heartbeat] } }
  else .next s

/-- A heartbeat is heard at the FD (`fd`) or the TD: both ways heard brings the sideband up, or, once it is lost, starts the 1 ms
after which it is restored (R39). -/
def State.hearBeat (s : State) (fd : Bool) : State :=
  let other := if fd then s.dies.hbTd else s.dies.hbFd
  let own := if fd then s.dies.hbFd else s.dies.hbTd
  let both := decide (other ≠ 0) && !s.elapsed other (us 50)
  let since := if !both then none
    else if s.dies.hbSince.isSome && !s.elapsed own (us 50) then s.dies.hbSince else some s.clk
  let s := if fd then { s with dies := { s.dies with hbFd := s.clk, hbSince := since } }
           else { s with dies := { s.dies with hbTd := s.clk, hbSince := since } }
  if both && !s.dies.sbLost then s.wr D2D_STAT.sideband_up 1 else s

/-- SIDEBAND_LOST (R39): no heartbeat for 50 µs in a direction. -/
def execSidebandLost (s : State) : Out :=
  if s.rd D2D_STAT.sideband_up = 1 ∧ (s.elapsed s.dies.hbFd (us 50) ∨ s.elapsed s.dies.hbTd (us 50)) then
    let s := { s with dies := { s.dies with sbLost := true, hbSince := none, sbTrained := s.clk } }
    .next ((s.wr D2D_STAT.sideband_up 0).post 0x0004 [])
  else .next s

/-- SIDEBAND_RESTORED (R39): heartbeats have passed both ways for 1 ms. -/
def execSidebandRestored (s : State) : Out :=
  match s.dies.hbSince with
  | some t =>
    if s.dies.sbLost ∧ s.elapsed t (ms 1) then
      .next ((({ s with dies := { s.dies with sbLost := false, hbSince := none } }).wr D2D_STAT.sideband_up 1).post 0x0005 [])
    else .next s
  | none => .next s

/-! ### Feeds -/

/-- The feed that the island draws from: VAUX_A when both are in range (R41); 0 A, 1 B. -/
def State.feed (s : State) : Nat := if s.dies.feedA then 0 else 1

/-- AUX_FEED_OUT_OF_RANGE (R41, R42): the feed in use (`b` false A, true B) leaves its range while the other is in range. -/
def execAuxFeedOutOfRange (b : Bool) (s : State) : Out :=
  if s.dies.feedA && s.dies.feedB then
    let was := s.feed
    let s := if b then { s with dies := { s.dies with feedB := false } } else { s with dies := { s.dies with feedA := false } }
    let s := s.wr PWR_STAT.feed s.feed
    .next (if s.feed = was then s else s.post 0x0006 [s.feed])
  else .next s

end Sys2Proof.Machine
end

