-- ==== Sys2Proof/Machine/Counters.lean ====
section
/-! DEFINITION. Counter storage as its users reach it (15_time_counters.md, R610 to R617, R660): increments through the cache
of a die, write-backs, and the value of a pair. -/
namespace Sys2Proof.Machine

/-- The largest value of a stored count (R613). -/
def cntMax : Nat := 2 ^ 64 - 1

/-- The home of the segment that holds counter index `i` (R610). -/
def State.cntHome (s : State) (i : Nat) : Nat := s.rd (TEL_SEGMAP.home (i / 1048576))

/-- Whether a home lies on the TD: HBM, or a channel from 4 to 7. -/
def homeOnTd (h : Nat) : Bool := h == 1 || 12 ≤ h

/-- The counter cache of a die (R614). -/
def State.cntCache (s : State) (fd : Bool) : Tbl CacheEnt := if fd then s.tel.fdCache else s.tel.tdCache

/-- The counter cache of a die replaced. -/
def State.setCache (s : State) (fd : Bool) (c : Tbl CacheEnt) : State :=
  if fd then { s with tel := { s.tel with fdCache := c } } else { s with tel := { s.tel with tdCache := c } }

/-- Adds a packet and byte count to a stored pair; each value saturates (R613). -/
def satPair (v : Nat × Nat) (pk by_ : Nat) : Nat × Nat := (min (v.1 + pk) cntMax, min (v.2 + by_) cntMax)

/-- Writes a cache entry back: its deltas are added to storage and the entry is freed (R614). -/
def State.cntWriteBack (s : State) (fd : Bool) (i : Nat) : State :=
  let e := Tbl.get {} (s.cntCache fd) i
  if e.since = 0 then s
  else
    let s := s.setCache fd (Tbl.erase (s.cntCache fd) i)
    { s with tel := { s.tel with store := Tbl.upd (0, 0) s.tel.store i (fun v => satPair v e.packets e.bytes) } }

/-- Adds to the cache entry of a pair, made if there is none. -/
def State.cntCacheAdd (s : State) (fd : Bool) (i pk by_ : Nat) : State :=
  s.setCache fd (Tbl.upd {} (s.cntCache fd) i (fun e =>
    { packets := e.packets + pk, bytes := e.bytes + by_, since := if e.since = 0 then s.clk + 1 else e.since }))

/-- The entries of a die's counter cache (R614). -/
def cacheSize (fd : Bool) : Nat := if fd then 65536 else 32768

/-- The FD cache keeps the deltas of a pair: it is homed on the TD while the bridge is lost (R615). -/
def State.farKept (s : State) (i : Nat) : Bool := !s.bridgeUp && homeOnTd (s.cntHome i)

/-- An entry is evicted: one of the FD for a pair homed on the TD takes a control-class flit, which may have to wait; the deltas are added at
once, since every read counts them wherever they stand (R614, R616). -/
def State.cntEvict (s : State) (fd : Bool) (i : Nat) : State :=
  let s := if !(fd && homeOnTd (s.cntHome i)) then s else if s.ctlFree true 1 then s.ctlNow true 1 else s.ctlHold true
  s.cntWriteBack fd i

/-- An increment of the pair at index `i` by a user on the FD (`fd`) or the TD: discarded beyond the index space (R660) or in
a segment without a home (R611); else added to the die's cache, which evicts an entry when it is full. While the bridge is lost the FD cache
evicts no pair homed on the TD, and discards an increment of one that finds no free entry (R615); one of another pair for which no entry can
be freed goes to storage (log entry 117). -/
def State.cntAdd (s : State) (fd : Bool) (i pk by_ : Nat) : State :=
  if 67108863 < i then s.inc TEL_CNTRANGE.count
  else if s.cntHome i = 0 then s.inc TEL_CNTNOSEG.count
  else
    let c := s.cntCache fd
    if (Tbl.get {} c i).since ≠ 0 ∨ c.length < cacheSize fd then s.cntCacheAdd fd i pk by_
    else if fd && s.farKept i then s.inc TEL_CNTLOST.count
    else
      let (n, s) := s.fresh
      let l := if fd then c.filter (fun e => !s.farKept e.1) else c
      match l[Config.cacheVictim n % l.length]? with
      | some e => ((s.cntEvict fd e.1).cntCacheAdd fd i pk by_)
      | none => { s with tel := { s.tel with store := Tbl.upd (0, 0) s.tel.store i (fun v => satPair v pk by_) } }

/-- The value of a pair: what is stored plus the deltas of both caches (R616); 0 in a segment without a home (R611). -/
def State.cntValue (s : State) (i : Nat) : Nat × Nat :=
  if s.cntHome i = 0 then (0, 0)
  else
    let f := Tbl.get {} s.tel.fdCache i
    let t := Tbl.get {} s.tel.tdCache i
    satPair (satPair (Tbl.get (0, 0) s.tel.store i) f.packets f.bytes) t.packets t.bytes

/-- A pair zeroed, with its deltas. -/
def State.cntClear (s : State) (i : Nat) : State :=
  { s with tel := { s.tel with
      store := Tbl.erase s.tel.store i, fdCache := Tbl.erase s.tel.fdCache i, tdCache := Tbl.erase s.tel.tdCache i } }

/-- The values of a whole segment discarded (R612). -/
def State.cntClearSeg (s : State) (seg : Nat) : State :=
  let out : Nat → Bool := fun i => i / 1048576 != seg
  { s with tel := { s.tel with
      store := s.tel.store.filter (fun e => out e.1), fdCache := s.tel.fdCache.filter (fun e => out e.1),
      tdCache := s.tel.tdCache.filter (fun e => out e.1) } }

end Sys2Proof.Machine
end

