-- ==== Sys2Proof/Machine/Crc.lean ====
section
/-! DEFINITION. The cyclic redundancy checks of the device, bit by bit: *Check polynomials* (13_update.md, R574) and the CRC-8 of
credit messages (06_queues_fabric.md, R268). -/
namespace Sys2Proof.Machine

/-- `n` shifts of a reflected register: the bit that leaves at the low end feeds the reflected polynomial back. -/
def crcBitsRefl (poly : Nat) : Nat → Nat → Nat
  | 0, r => r
  | n + 1, r => crcBitsRefl poly n (if r % 2 = 1 then Nat.xor (r / 2) poly else r / 2)

/-- `n` shifts of a register of `w` bits, most significant bit first. -/
def crcBitsNorm (w poly : Nat) : Nat → Nat → Nat
  | 0, r => r
  | n + 1, r =>
    let r2 := r * 2 % 2 ^ w
    crcBitsNorm w poly n (if r / 2 ^ (w - 1) % 2 = 1 then Nat.xor r2 poly else r2)

/-- A reflected CRC over bytes, from a preset register. -/
def crcRefl (poly : Nat) (init : Nat) (bytes : List Nat) : Nat :=
  bytes.foldl (fun r b => crcBitsRefl poly 8 (Nat.xor r (b % 256))) init

/-- A CRC of `w` bits over bytes, most significant bit first, from a preset register. -/
def crcNorm (w poly : Nat) (init : Nat) (bytes : List Nat) : Nat :=
  bytes.foldl (fun r b => crcBitsNorm w poly 8 (Nat.xor r (b % 256 * 2 ^ (w - 8)))) init

/-- CRC-32C: 0x1EDC_6F41 reflected, preset and final XOR of all ones. -/
def crc32cFrom (init : Nat) (b : List Nat) : Nat := Nat.xor (crcRefl 0x82F63B78 (init % 2 ^ 32) b) 0xFFFFFFFF
def crc32c (b : List Nat) : Nat := crc32cFrom 0xFFFFFFFF b

/-- CRC-32 (IEEE 802.3): 0x04C1_1DB7 reflected. -/
def crc32From (init : Nat) (b : List Nat) : Nat := Nat.xor (crcRefl 0xEDB88320 (init % 2 ^ 32) b) 0xFFFFFFFF
def crc32 (b : List Nat) : Nat := crc32From 0xFFFFFFFF b

/-- CRC-16/IBM-3740. -/
def crc16From (init : Nat) (b : List Nat) : Nat := crcNorm 16 0x1021 (init % 2 ^ 16) b
def crc16 (b : List Nat) : Nat := crc16From 0xFFFF b

/-- CRC-64/ECMA-182. -/
def crc64From (init : Nat) (b : List Nat) : Nat := crcNorm 64 0x42F0E1EBA9EA3693 (init % 2 ^ 64) b
def crc64 (b : List Nat) : Nat := crc64From 0 b

/-- CRC-8, polynomial x^8 + x^2 + x + 1, initial value 0 (R268). -/
def crc8 (b : List Nat) : Nat := crcNorm 8 0x07 0 b

/-- The polynomials by their number (*Check polynomials*), from a preset register. -/
def crcBy (poly init : Nat) (b : List Nat) : Nat :=
  match poly with
  | 0 => crc32cFrom init b
  | 1 => crc32From init b
  | 2 => crc16From init b
  | _ => crc64From init b

end Sys2Proof.Machine
end

