-- ==== Sys2Proof/Machine/Store.lean ====
section
/-! DEFINITION. The records in MRAM and the areas of the NOR flash (13_update.md, R537 to R540): which record is the newest valid one, how a
new one is written, the settings that it keeps, and seal sectors. -/
namespace Sys2Proof.Machine

/-! ### Records -/

/-- The record bank that holds the newest valid record (R540). -/
def Upd.newestBank (u : Upd) : Nat :=
  match u.rec0, u.rec1 with
  | some a, some b => if a.seq ≤ b.seq then 1 else 0
  | none, some _ => 1
  | _, _ => 0

/-- The newest valid record; without one the device runs with confirmed bank 0, no trial and default settings (R540). -/
def State.record (s : State) : Record :=
  ((if s.upd.newestBank = 1 then s.upd.rec1 else s.upd.rec0)).getD {}

/-! ### NOR flash (*NOR map*) -/

/-- Where an area begins: banks 0 and 1, and 2 for the recovery area. -/
def areaBase (a : Nat) : Nat := match a with | 0 => 0 | 1 => 0x0E000000 | _ => 0x1C000000

/-- Bytes of an area before its seal sector. -/
def areaRoom (a : Nat) : Nat := if a < 2 then 234876928 else 33550336

/-- Address of an area's seal sector: its last 4 KiB. -/
def sealAt (a : Nat) : Nat := areaBase a + areaRoom a

/-- `n` bytes of flash; an erased byte reads 0xFF. -/
def State.norBytes (s : State) (a n : Nat) : List Nat := (List.range n).map (fun i => Tbl.get 255 s.upd.nor (a + i))

/-- Bytes programmed into a flash image from an address. -/
def norPut (t : Tbl Nat) (a : Nat) : List Nat → Tbl Nat
  | [] => t
  | b :: r => norPut (Tbl.set 255 t a (b % 256)) (a + 1) r

/-- Bytes of the flash erased, `n` of them from an address. -/
def State.norErase (s : State) (a n : Nat) : State :=
  { s with upd := { s.upd with nor := s.upd.nor.filter (fun e => e.1 < a || a + n ≤ e.1) } }

/-- The seal sector of an area. -/
def State.seal (s : State) (a : Nat) : List Nat := s.norBytes (sealAt a) 68

/-- An area's seal sector has the correct magic and check (R538). -/
def State.sealOk (s : State) (a : Nat) : Bool :=
  let b := s.seal a
  leAt b 0 4 == 0x4C455357 && leAt b 64 4 == crc32c (b.take 64)

/-- *Seal sector* for an image. -/
def sealBytes (version length : Nat) (digest : List Nat) : List Nat :=
  let b := leBytes 4 0x4C455357 ++ leBytes 4 version ++ leBytes 4 length ++ leBytes 4 0 ++ sliceB digest 0 48
  b ++ leBytes 4 (crc32c b)

/-! ### The UPD registers that repeat the record -/

/-- State of an area as the record keeps it: 0 EMPTY, 1 UNSEALED, 2 SEALED, 3 BAD. -/
def State.area (s : State) (a : Nat) : Nat := Tbl.get 0 s.record.areas a

/-- UPD_AREASTAT and UPD_AREAVER as the record and the seal sectors stand. -/
def State.syncAreas (s : State) : State :=
  (List.range 3).foldl (fun t a =>
    let r := s.record
    let t := (t.wr (UPD_AREASTAT.state a) (s.area a)).wrBit (UPD_AREASTAT.confirmed a) (a == r.confirmed)
    let t := t.wrBit (UPD_AREASTAT.trial a) (r.trial == some a)
    t.wr (UPD_AREAVER.version a) (if s.area a = 2 then leAt (s.seal a) 4 4 else 0)) s

/-- Writes a new record: into the bank that does not hold the newest valid one, with seq one above that record's (R539). -/
def State.putRec (s : State) (f : Record → Record) : State :=
  let r : Record := { f s.record with seq := s.record.seq + 1 }
  let u := s.upd
  let u' := if u.newestBank = 1 then { u with rec0 := some r } else { u with rec1 := some r }
  ({ s with upd := { u' with recAt := s.clk + 1 } }).syncAreas

/-- The loss of power tears the record being written, which then fails its check, and the other bank's record stands (R540, R568). A record
takes no more than 5 ms to write (R565). -/
def State.tearRec (s : State) : State :=
  let u := s.upd
  if u.recAt = 0 ∨ s.elapsed (u.recAt - 1) (ms 5) then s
  else { s with upd := if u.newestBank = 1 then { u with rec1 := none } else { u with rec0 := none } }.syncAreas

/-- A record that marks an area (R538). -/
def State.markArea (s : State) (a st : Nat) : State := s.putRec (fun r => { r with areas := Tbl.set 0 r.areas a st })

/-! ### Settings -/

/-- A setting kept in the settings store when it changes (R405, R619), unless the settings are frozen (R566). -/
def State.saveSetting (s : State) (f : Fld) (v : Nat) : State :=
  if s.bit UPD_BOOT.settings_frozen then s else s.putRec (fun r => { r with settings := Tbl.set 0 r.settings f.key v })

/-- A field written and kept. -/
def State.wrKept (s : State) (f : Fld) (v : Nat) : State :=
  let s := s.wr f v
  s.saveSetting f (s.rd f)

/-- Trained delays kept (R409). -/
def State.saveDelays (s : State) (l : List (Nat × Nat)) : State :=
  if s.bit UPD_BOOT.settings_frozen then s
  else s.putRec (fun r => { r with delays := l.foldl (fun t e => Tbl.ins e.1 e.2 t) r.delays })

/-- The retired links kept (R532). -/
def State.saveLinks (s : State) : State :=
  if s.bit UPD_BOOT.settings_frozen then s
  else let l := s.flk.retired; s.putRec (fun r => { r with links := l })

end Sys2Proof.Machine
end

