-- ==== Sys2Proof/Machine/Segments.lean ====
section
/-! DEFINITION. Homes of the counter segments (15_time_counters.md, R403, R610 to R619): room in HBM, changes of home, losses, and
write-backs of the caches. -/
namespace Sys2Proof.Machine

/-- Bytes of counter storage that a pseudo-channel leaves beside its cells and link memory, as they stand since the last enable (R208, R403). -/
def State.pcSpare (s : State) : Nat := 768 * 2 ^ 20 - s.bpm.deepM * (4 * 2 ^ 20 + 81920)

/-- Whether a pseudo-channel is in service. -/
def State.pcInService (s : State) (pc : Nat) : Bool := s.rd (MCH_STAT.state (pc / 64)) == 2 && s.rd (MCH_PCSTAT.state (pc / 64) (pc % 64)) == 0

/-- Segments that HBM can hold (R610). -/
def State.hbmAvail (s : State) : Nat := min 64 (((List.range 384).filter s.pcInService).length * s.pcSpare / 2 ^ 24)

/-- Segments homed in HBM. -/
def State.hbmUsed (s : State) : Nat := ((List.range 64).filter (fun k => s.rd (TEL_SEGMAP.home k) == 1)).length

/-- TEL_HBMSEG as it stands. -/
def State.syncSeg (s : State) : State := (s.wr TEL_HBMSEG.avail s.hbmAvail).wr TEL_HBMSEG.used s.hbmUsed

/-- Whether a home may take one more segment (R610). -/
def State.homeOk (s : State) (h : Nat) : Bool :=
  if h = 0 then true
  else if h = 1 then decide (s.hbmUsed < s.hbmAvail)
  else decide (8 ≤ h) && s.rd (MCD_CFG.role (h - 8)) == 3 && s.rd (MCD_STAT.state (h - 8)) == 3

/-- A segment without a copy under way. -/
def State.endMove (s : State) (k : Nat) : State := { s with tel := { s.tel with moving := Tbl.erase s.tel.moving k } }

/-- A segment starts to move to a home: its values are copied while it counts (R612). -/
def State.moveSeg (s : State) (k h : Nat) : State :=
  let from_ := s.rd (TEL_SEGMAP.home k)
  let s := { s with tel := { s.tel with moving := Tbl.upd 0 s.tel.moving k (fun m => if m = 0 then from_ else m) } }
  ((s.wrKept (TEL_SEGMAP.home k) h).wr (TEL_SEGMAP.state k) 1).syncSeg

/-- A write of a segment's home (R610, R612). -/
def State.writeHome (s : State) (k h : Nat) : State :=
  let was := s.rd (TEL_SEGMAP.home k)
  if h = was then s
  else if !s.homeOk h then s.wr TEL_STAT.refused 1
  else if was = 0 ∨ h = 0 then ((((s.cntClearSeg k).endMove k).wrKept (TEL_SEGMAP.home k) h).wr (TEL_SEGMAP.state k) 0).syncSeg
  else s.moveSeg k h

/-- A segment that has lost its place restarts at 0, in HBM where that has room, else without a home (R618). -/
def State.loseSeg (s : State) (k : Nat) : State :=
  let s := ((s.cntClearSeg k).endMove k).wr (TEL_SEGMAP.home k) 0
  let h := if s.homeOk 1 then 1 else 0
  (((s.wrKept (TEL_SEGMAP.home k) h).wr (TEL_SEGMAP.state k) 2).syncSeg).post 0x0E05 [k, h]

/-- Segments whose values lie, or lie in part, at a home. -/
def State.segsAt (s : State) (h : Nat) : List Nat :=
  (List.range 64).filter (fun k => s.rd (TEL_SEGMAP.home k) == h || Tbl.get 0 s.tel.moving k == h)

/-- A COUNTER channel fails (R427, R618). -/
def State.loseHome (s : State) (h : Nat) : State := (s.segsAt h).foldl State.loseSeg s

/-- HBM has lost counter storage: segments beyond its room lose their place, which ones is a free value (R618). -/
def State.trimHbm : Nat → State → State
  | 0, s => s.syncSeg
  | n + 1, s =>
    if s.hbmUsed ≤ s.hbmAvail then s.syncSeg
    else
      let (k, s) := s.fresh
      let l := s.segsAt 1
      match l[Config.pick k % l.length]? with
      | none => s
      | some g => State.trimHbm n (s.loseSeg g)

/-- Where the segments of an evacuated channel go: HBM while it has room, then the lowest other COUNTER channel in service (R618). -/
def State.nextHome (s : State) (ch : Nat) : Option Nat :=
  if s.homeOk 1 then some 1 else ((List.range 8).find? (fun d => d != ch && s.homeOk (8 + d))).map (8 + ·)

/-- The segments of a COUNTER channel move away; none where no home can take them all (R618). -/
def State.moveAway (s : State) (ch : Nat) : Option State :=
  ((List.range 64).filter (fun k => s.rd (TEL_SEGMAP.home k) == 8 + ch)).foldl (fun o k =>
    match o with
    | none => none
    | some s => (s.nextHome ch).map (s.moveSeg k)) (some s)

/-- SEGMENT_MOVE_DONE (R612): the copy of a MOVING segment ends. -/
def execSegmentMoveDone (seg : Nat) (s : State) : Out :=
  if seg < 64 ∧ s.rd (TEL_SEGMAP.state seg) = 1 then
    .next (((s.endMove seg).wr (TEL_SEGMAP.state seg) 0).post 0x0E04 [seg, s.rd (TEL_SEGMAP.home seg)])
  else .next s

/-- A pair read from storage is poisoned: it is rewritten as 0 (R617). TEL_CNT_UE carries the first index since the last event. -/
def State.poisoned (s : State) (i : Nat) : State :=
  let s := { s with tel := { s.tel with store := Tbl.erase s.tel.store i } }.inc TEL_CNTUE.count
  let k := evKey 0x0E06 1
  let s := { s with evSum := Tbl.upd 0 s.evSum k (fun f => if f = 0 then i + 1 else f) }
  let first := Tbl.get 0 s.evSum k - 1
  let due := Tbl.get 0 s.evAt (evKey 0x0E06 0)
  let s := if due = 0 ∨ due - 1 + ms 1 ≤ s.clk then { s with evSum := Tbl.erase s.evSum k } else s
  s.postRated 0x0E06 0 (ms 1) 1 (fun n => [0, 0, 0, 0] ++ leBytes 4 first ++ leBytes 4 n)

/-- COUNTER_WRITEBACK (R614, R615, R617): an entry of a die's cache is written back once wb_us have passed since its first increment.
`poison` says that the stored pair reads poisoned. An entry of the FD for a pair homed on the TD crosses the bridge in the control class; it
stays in the cache while that has no room (R28), and while the bridge is lost. -/
def execCounterWriteback (fd : Bool) (i : Nat) (poison : Bool) (s : State) : Out :=
  let e := Tbl.get {} (s.cntCache fd) i
  let far := fd && homeOnTd (s.cntHome i)
  if e.since ≠ 0 ∧ s.elapsed (e.since - 1) (us (s.rd TEL_CACHE.wb_us)) ∧ (!far || s.ctlFree true 1) = true then
    let s := if far then s.ctlNow true 1 else s
    let s := if poison then s.poisoned i else s
    .next (s.cntWriteBack fd i)
  else .next s

end Sys2Proof.Machine
end

