-- ==== Sys2Proof/Machine/Buffer.lean ====
section
/-! DEFINITION. The packet buffer (05_buffer.md, R205 to R246, R256 to R259, R293, R294): chains of cells, the allocator, share
references, releases, the write crossbar and the ingress occupancies that flow control watches. -/
namespace Sys2Proof.Machine

/-! ### Cells, tiers and pointers -/

/-- Cells of a packet of L bytes (R205). -/
def cellsOf (len : Nat) : Nat := if len ≤ 240 then 1 else 1 + ceilDiv (len - 240) 256

/-- The tier of a cell pointer: 0 shallow, 1 deep, 2 Reserve (*Cell pointer*). -/
def tierOf (ptr : Nat) : Nat := ptr / 2 ^ 38 % 4

/-- The pointer to a cell of a tier. -/
def cellPtr (tier cell : Nat) : Nat := tier * 2 ^ 38 + cell

/-- The owner code SHARED. -/
def ownerShared : Nat := 0x1F

/-- Chain at a pointer. -/
def State.chain (s : State) (ptr : Nat) : Chain := Tbl.get {} s.bpm.chains ptr

/-- Chain at a pointer replaced. -/
def State.setChain (s : State) (ptr : Nat) (x : Chain) : State :=
  { s with bpm := { s.bpm with chains := Tbl.set {} s.bpm.chains ptr x } }

/-- The 16 bytes of a chain header (*Chain header*). -/
def Chain.header (x : Chain) : List Nat :=
  let b := beBytes 2 x.pkt.bytes.length ++ [x.owner, x.gen] ++ beBytes 3 (if x.owner = ownerShared then x.share else 0) ++ [x.src] ++
    beBytes 4 x.enq
  b ++ beBytes 4 (crc32c b)

/-- enq_time as network time gives it now. -/
def State.enqTime (s : State) : Nat := s.netNs / 10 ^ 9 % 1024 * 2 ^ 22 + s.netNs % 10 ^ 9 / 1024

/-- Age of an enq_time in ns, at its resolution of 1,024 ns, modulo the 1,024 s that it spans (R303). -/
def State.ageOf (s : State) (enq : Nat) : Nat :=
  let at_ := fun e => e / 2 ^ 22 * 10 ^ 9 + e % 2 ^ 22 * 1024
  (at_ s.enqTime + 1024 * 10 ^ 9 - at_ enq) % (1024 * 10 ^ 9)

/-! ### Tier sizes and free counts -/

/-- Cells of the write area: those below the prefetch area. -/
def State.writeCells (s : State) : Nat := 393216 - s.bpm.prefetch

/-- Deep cells of one pseudo-channel. -/
def State.pcCells (s : State) : Nat := s.bpm.deepM * 16384

/-- The pseudo-channel of a deep cell: stacks in order, cells in rotation over the stack's 64 (R403; DESIGN CHOICE, log entry 21). -/
def State.deepPc (s : State) (cell : Nat) : Nat := 64 * (cell / (s.bpm.deepM * 2 ^ 20)) + cell % 64

/-- Pseudo-channels out of the deep tier: being evacuated, or retired (R242). -/
def State.pcsOut (s : State) : List Nat := s.bpm.evac.filter (· < 384) ++ s.bpm.gone

/-- Pages of a RESERVE channel (R210). -/
def State.pagesOf (s : State) (ch : Nat) : Nat :=
  let g := s.rd (MCD_DIMM.capacity_gib ch)
  g * 16384 - g * 4 - 16

/-- Channels of the stripe that still take pages: neither being evacuated nor failed (R243). -/
def State.pageChans (s : State) : List Nat :=
  s.bpm.stripe.filter (fun ch => !s.bpm.evac.contains (1000 + ch) && !s.bpm.failed.contains ch)

/-- The channel of a page: page index 8 × page of the channel + channel (DESIGN CHOICE, log entry 21). -/
def pageChan (page : Nat) : Nat := page % 8

/-- Taken cells that satisfy `p`. -/
def State.usedWhere (s : State) (p : Nat → Bool) : Nat := (s.bpm.used.filter (fun e => p e.1)).length

/-- Free cells of the write area, the prefetch area and the deep tier, and free Reserve pages: 0, 1, 2 and 3. -/
def State.freeOf (s : State) : Nat → Nat
  | 0 => s.writeCells - s.usedWhere (· < s.writeCells)
  | 1 => s.bpm.prefetch - s.usedWhere (fun k => decide (s.writeCells ≤ k ∧ k < 393216))
  | 2 => 6 * 2 ^ 20 * s.bpm.deepM - s.pcsOut.length * s.pcCells -
      s.usedWhere (fun k => decide (2 ^ 38 ≤ k) && !s.pcsOut.contains (s.deepPc (k - 2 ^ 38)))
  | _ => (s.pageChans.map s.pagesOf).foldl (· + ·) 0 -
      (s.bpm.pages.filter (fun e => s.pageChans.contains (pageChan e.1))).length

/-- The keys of the space released in this clock cycle, which no request decided in it sees (R219). -/
def State.heldBack (s : State) : List Nat := if s.bpm.releasedAt = s.clk then s.bpm.released else []

/-- Whether a key of released space belongs to an area: cells of the write area, the prefetch area or the deep tier, or pages. -/
def State.inArea (s : State) (area k : Nat) : Bool :=
  match area with
  | 0 => decide (k < s.writeCells)
  | 1 => decide (s.writeCells ≤ k ∧ k < 393216)
  | 2 => decide (2 ^ 38 ≤ k ∧ k < 2 ^ 41) && !s.pcsOut.contains (s.deepPc (k - 2 ^ 38))
  | _ => decide (2 ^ 41 ≤ k)

/-- The free count of an area as a request decided now sees it (R219). -/
def State.freeNow (s : State) (area : Nat) : Nat := s.freeOf area - (s.heldBack.filter (s.inArea area)).length

/-- Keys of space released now. -/
def State.holdBack (s : State) (l : List Nat) : State :=
  { s with bpm := { s.bpm with released := s.heldBack ++ l, releasedAt := s.clk } }

/-- A free count register and its minimum (R12, *Free counts*). -/
def State.setFree (s : State) (f m : Fld) (v : Nat) : State := (s.wr f v).wr m (min (s.rd m) v)

/-- BPM_POOL_LOW as a tier's free count crosses its threshold of `pct` percent of `size`. -/
def State.poolLow (s : State) (tier free size pct : Nat) : State :=
  let is := s.bpm.low.contains tier
  if !is ∧ free * 100 < pct * size then
    ({ s with bpm := { s.bpm with low := insNat tier s.bpm.low } }).post 0x0501 ([tier, 1, 0, 0] ++ leBytes 4 free)
  else if is ∧ (pct + 5) * size ≤ free * 100 then
    ({ s with bpm := { s.bpm with low := s.bpm.low.filter (· != tier) } }).post 0x0501 ([tier, 0, 0, 0] ++ leBytes 4 free)
  else s

/-- The free counts after a change, once the buffer has been enabled. -/
def State.syncFree (s : State) : State :=
  if !s.bpm.started then s
  else
    let w := s.freeOf 0
    let d := s.freeOf 2
    let r := s.freeOf 3
    let s := s.setFree BPM_FREESHAL.cells BPM_MINSHAL.min_ w
    let s := s.setFree BPM_FREEPREF.cells BPM_MINPREF.min_ (s.freeOf 1)
    let s := s.setFree BPM_FREEDEEP.cells BPM_MINDEEP.min_ d
    let s := s.setFree BPM_FREERSV.pages BPM_MINRSV.min_ r
    let s := s.poolLow 0 w s.writeCells (s.rd BPM_LOWCFG.shal_pct)
    let s := s.poolLow 1 d (6 * 2 ^ 20 * s.bpm.deepM - s.pcsOut.length * s.pcCells) (s.rd BPM_LOWCFG.deep_pct)
    if s.bit BPM_RSVCFG.enable then s.poolLow 2 r ((s.bpm.stripe.map s.pagesOf).foldl (· + ·) 0) (s.rd BPM_LOWCFG.rsv_pct) else s

/-! ### Paced work (R230, R243, R267, R274) -/

/-- Time in units of 2^-32 ns, by which paced work is timed. -/
def State.fine (s : State) : Nat := s.clk * 2 ^ 32

/-- When paced work may start next: `num` / `den` ns after it was due, or after now where it was due a whole ns ago or earlier. -/
def State.paceNext (s : State) (due num den : Nat) : Nat :=
  (if s.fine < due + 2 ^ 32 then due else s.fine) + ceilDiv (num * 2 ^ 32) den

/-! ### Allocation (R215 to R219) -/

/-- The first of `n` numbers below `size`, counted upward from `k` and wrapping, that `ok` admits. -/
def firstFree (ok : Nat → Bool) (size : Nat) : Nat → Nat → Option Nat
  | 0, _ => none
  | n + 1, k => if ok (k % size) then some (k % size) else firstFree ok size n (k + 1)

/-- Takes one free cell of those that `ok` admits; which one is a free value. -/
def State.takeCell (s : State) (tier size : Nat) (ok : Nat → Bool) : Option (Nat × State) :=
  let (n, s) := s.fresh
  let held := s.heldBack
  match firstFree (fun k => ok k && !Tbl.get false s.bpm.used (cellPtr tier k) && !held.contains (cellPtr tier k)) size size (Config.pick n) with
  | none => none
  | some k => some (k, { s with bpm := { s.bpm with used := Tbl.set false s.bpm.used (cellPtr tier k) true } })

/-- Takes `n` free cells. -/
def State.takeCells (tier size : Nat) (ok : Nat → Bool) : Nat → State → List Nat × State
  | 0, s => ([], s)
  | n + 1, s =>
    match s.takeCell tier size ok with
    | none => ([], s)
    | some (k, s') => let (r, s'') := State.takeCells tier size ok n s'; (k :: r, s'')

/-- Takes `n` cells of the write area, the prefetch area or the deep tier: 0, 1 or 2. -/
def State.takeArea (s : State) (area n : Nat) : List Nat × State :=
  match area with
  | 0 => State.takeCells 0 s.writeCells (fun _ => true) n s
  | 1 => let w := s.writeCells; State.takeCells 0 393216 (fun k => decide (w ≤ k)) n s
  | _ => let bad := s.pcsOut; State.takeCells 1 (6 * 2 ^ 20 * s.bpm.deepM) (fun k => !bad.contains (s.deepPc k)) n s

/-- The allocator's choice (R215): the write area (0), the deep tier (2), or refusal. -/
def State.allocTier (s : State) (n : Nat) (preferShallow : Bool) : Option Nat :=
  if preferShallow ∧ n ≤ s.freeNow 0 then some 0
  else if n ≤ s.freeNow 2 then some 2
  else if n ≤ s.freeNow 0 then some 0
  else none

/-- Cells given back to their tiers, by their keys; those of weak rows stay out of the free lists (R529). -/
def State.giveKeys (s : State) (l : List Nat) : State :=
  let l := l.filter (fun k => !s.bpm.weak.contains k)
  ({ s with bpm := { s.bpm with used := l.foldl (fun t k => Tbl.erase t k) s.bpm.used } }).holdBack l

/-- Cells given back to their tier. -/
def State.giveCells (s : State) (tier : Nat) (cells : List Nat) : State := s.giveKeys (cells.map (cellPtr tier))

/-- One chain or copy fewer in a Reserve page, which is free with the last of them (R211). -/
def State.leavePage (s : State) (page : Nat) : State :=
  let n := Tbl.get 0 s.bpm.pages page - 1
  let s := { s with bpm := { s.bpm with pages := Tbl.set 0 s.bpm.pages page n } }
  if n = 0 then s.holdBack [2 ^ 41 + page] else s

/-- The Reserve page of a pointer. -/
def pageOf (ptr : Nat) : Nat := ptr % 2 ^ 38 / 256

/-- The space of a chain or copy at a pointer given back. -/
def State.giveSpace (s : State) (ptr : Nat) (cells : List Nat) : State :=
  if tierOf ptr = 2 then s.leavePage (pageOf ptr) else s.giveCells (tierOf ptr) cells

/-! ### Priority flow control, sending side (R293, R294, R458) -/

/-- A line port's MAC. -/
def State.linePort (s : State) (p : Nat) : LinePort := Tbl.get {} s.lpt.ports p

/-- A line port's MAC replaced. -/
def State.setLinePort (s : State) (p : Nat) (x : LinePort) : State :=
  { s with lpt := { s.lpt with ports := Tbl.set {} s.lpt.ports p x } }

/-- *Port states* of a line port: 0 DISABLED, 1 DOWN, 2 UP, 3 FAULT_PENDING. -/
def State.portState (s : State) (p : Nat) : Nat := s.rd (LPT_STAT.state p)

/-- Gb/s of the speeds of *Port modes*. -/
def speedGbps (speed : Nat) : Nat := ([10, 25, 50, 100, 200, 400, 800, 1600][speed]?).getD 10

/-- Rate of a line port in Gb/s. -/
def State.portGbps (s : State) (p : Nat) : Nat := speedGbps (s.rd (LPT_CFG.speed p))

/-- A PFC frame for one class goes to the MAC ahead of all queued frames (R294, R295): the class is under xoff (`on`), with pause time
quanta, or leaves it, with pause time 0. -/
def State.pfcSend (s : State) (p cls : Nat) (on : Bool) : State :=
  let m := s.linePort p
  let s := s.setLinePort p { m with pfc := m.pfc ++ [(2 ^ cls, if on then s.rd (QM_PFCCFG.quanta p) else 0)] }
  { s with bpm := { s.bpm with pfcSent := Tbl.set 0 s.bpm.pfcSent (8 * p + cls) (if on then s.clk + 1 else 0) } }

/-- The ingress occupancy of a port and class. -/
def State.pfcOcc (s : State) (k : Nat) : Nat := Tbl.get 0 s.bpm.pfc k

/-- QM_PFCSTAT.xoff and the PFC frames that an occupancy calls for (R294): xoff when it rises above the threshold, pause time 0 when
it falls to xon. -/
def State.pfcCheck (s : State) (k was : Nat) : State :=
  let p := k / 8
  let c := k % 8
  let now := s.pfcOcc k
  let x := s.rd (QM_PFCTHR.xoff p c) * 16
  let s := s.wr (QM_PFCSTAT.xoff p) (putBits (s.rd (QM_PFCSTAT.xoff p)) c 1 (b2n (decide (x < now))))
  if s.portState p ≠ 2 then s
  else if was ≤ x ∧ x < now ∧ bitOf (s.rd (QM_PFCCFG.tx_en p)) c then s.pfcSend p c true
  else if now ≤ s.rd (QM_PFCTHR.xon p c) * 16 ∧ Tbl.get 0 s.bpm.pfcSent k ≠ 0 then s.pfcSend p c false
  else s

/-- A port enters UP (R458): it sends the PFC frames that the occupancies call for as they stand. -/
def State.pfcCatchUp (s : State) (p : Nat) : State :=
  (List.range 8).foldl (fun s c =>
    let now := s.pfcOcc (8 * p + c)
    if s.rd (QM_PFCTHR.xoff p c) * 16 < now ∧ bitOf (s.rd (QM_PFCCFG.tx_en p)) c then s.pfcSend p c true
    else if now ≤ s.rd (QM_PFCTHR.xon p c) * 16 ∧ Tbl.get 0 s.bpm.pfcSent (8 * p + c) ≠ 0 then s.pfcSend p c false
    else s) s

/-- An occupancy changed by `f`. -/
def State.pfcChange (s : State) (k : Option Nat) (f : Nat → Nat) : State :=
  match k with
  | none => s
  | some k =>
    let was := s.pfcOcc k
    ({ s with bpm := { s.bpm with pfc := Tbl.set 0 s.bpm.pfc k (f was) } }).pfcCheck k was

/-! ### Share references (R232 to R235) -/

/-- BPM_SHAREUSE and BPM_SHARE_HIGH after the share table has changed. -/
def State.syncShare (s : State) : State :=
  let n := s.bpm.share.length
  let s := s.wr BPM_SHAREUSE.entries n
  let ev := fun (s : State) (b : Bool) =>
    ({ s with bpm := { s.bpm with shareHigh := b } }).post 0x0502 ([0, b2n b, 0, 0] ++ leBytes 4 n)
  if !s.bpm.shareHigh ∧ 90 * 524288 < n * 100 then ev s true
  else if s.bpm.shareHigh ∧ n * 100 < 75 * 524288 then ev s false
  else s

/-- A further reference on a chain: the drop reason that refuses it, or the state that holds it (R232, R233, R248). -/
def State.takeRef (s : State) (ptr : Nat) : Nat ⊕ State :=
  let x := s.chain ptr
  if 8388608 ≤ s.qm.replicas then .inl 0x10
  else
    let s := { s with qm := { s.qm with replicas := s.qm.replicas + 1 } }
    if x.owner = ownerShared then
      let n := Tbl.get 0 s.bpm.share x.share
      if 65535 ≤ n then .inl 0x6 else .inr { s with bpm := { s.bpm with share := Tbl.set 0 s.bpm.share x.share (n + 1) } }
    else if 524288 ≤ s.bpm.share.length then .inl 0x5
    else
      let (n, s) := s.fresh
      match firstFree (fun k => Tbl.get 0 s.bpm.share k == 0) 524288 524288 (Config.pick n) with
      | none => .inl 0x5
      | some k =>
        let s := { s with bpm := { s.bpm with share := Tbl.set 0 s.bpm.share k 2 } }
        .inr (s.setChain ptr { x with owner := ownerShared, share := k }).syncShare

/-! ### Queues as the tables configure them -/

/-- A queue; egress queue q has key q, VOQ v has key 2^20 + v. -/
def State.queue (s : State) (k : Nat) : Queue := Tbl.get {} s.qm.queues k

/-- The key of a VOQ. -/
def voqKey (v : Nat) : Nat := 2 ^ 20 + v

/-- The key of word `w` of an indirect entry (*Indirect entries*). -/
def entKey (kind index w : Nat) : Nat := (kind * 2 ^ 21 + index) * 4 + w

/-- A word of an indirect entry of kinds 0, 1, 2, 4, 5 and 6, or word 0 of kind 3. -/
def State.entWord (s : State) (kind index w : Nat) : Nat := Tbl.get 0 s.qm.tab (entKey kind index w)

/-- Word 0 of a queue's entry. -/
def State.qCfg (s : State) (k : Nat) : Nat := if k < 2 ^ 20 then s.entWord 0 k 0 else s.entWord 1 (k - 2 ^ 20) 0

/-- Enable, class and profile of a queue. -/
def State.qEnable (s : State) (k : Nat) : Bool := bitOf (s.qCfg k) 31
def State.qClass (s : State) (k : Nat) : Nat := bitsAt (s.qCfg k) 6 3
def State.qProfile (s : State) (k : Nat) : Nat := bitsAt (s.qCfg k) 0 6

/-- A queue replaced. -/
def State.setQueue (s : State) (k : Nat) (q : Queue) : State := { s with qm := { s.qm with queues := Tbl.set {} s.qm.queues k q } }

/-- A profile's exact cell count changed, and BPM_PFOCC with it (R244). -/
def State.occChange (s : State) (p : Nat) (f : Nat → Nat) : State :=
  let v := f (Tbl.get 0 s.bpm.occ p)
  ({ s with bpm := { s.bpm with occ := Tbl.set 0 s.bpm.occ p v } }).wr (BPM_PFOCC.cells p) (min v (2 ^ 32 - 1))

/-- A chain of `n` cells leaves the depth of a queue (R252). -/
def State.lower (s : State) (k n : Nat) : State :=
  let q := s.queue k
  (s.setQueue k { q with cells := q.cells - n, pkts := q.pkts - 1 }).occChange (s.qProfile k) (· - n)

/-- A reader has released a chain: it leaves the depth of the queue from which the reader took it (R252). -/
def State.endRead (s : State) (ptr gen unit : Nat) : State :=
  match s.bpm.reading.find? (fun x => x.ptr == ptr && x.gen == gen && x.unit == unit) with
  | none => s
  | some x => ({ s with bpm := { s.bpm with reading := s.bpm.reading.erase x } }).lower x.queue x.n

/-! ### Releases (R234, R237, R238) -/

/-- A chain's cells return to the free cells; its generation stays. -/
def State.freeChain (s : State) (ptr : Nat) : State :=
  let x := s.chain ptr
  let s := (s.giveSpace ptr x.cells).setChain ptr { gen := x.gen }
  (s.pfcChange x.pfc (· - x.n)).syncFree

/-- Posts an event that carries two counts, at bytes 20 and 24, at most once in each 1 ms; both gather until then. -/
def State.postTwo (s : State) (code a b : Nat) : State :=
  let s := { s with evSum := Tbl.upd 0 s.evSum (evKey code 1) (· + a) }
  let s := { s with evSum := Tbl.upd 0 s.evSum (evKey code 2) (· + b) }
  let last := Tbl.get 0 s.evAt (evKey code 0)
  if last = 0 ∨ last - 1 + ms 1 ≤ s.clk then
    let x := Tbl.get 0 s.evSum (evKey code 1)
    let y := Tbl.get 0 s.evSum (evKey code 2)
    let s := { s with evSum := Tbl.erase (Tbl.erase s.evSum (evKey code 1)) (evKey code 2),
                      evAt := Tbl.set 0 s.evAt (evKey code 0) (s.clk + 1) }
    s.post code ([0, 0, 0, 0] ++ leBytes 4 x ++ leBytes 4 y)
  else s

/-- A double or foreign free (R238): counted, captured when no capture is held, and posted. -/
def State.freeFault (s : State) (double : Bool) (ptr gen unit owner : Nat) : State :=
  let s := if double then s.inc BPM_DOUBLEFREE.count else s.inc BPM_FOREIGNFREE.count
  let s := if s.bit BPM_FFCAP0.valid then s
    else
      let s := ((s.wr BPM_FFCAP0.valid 1).wr BPM_FFCAP0.kind (if double then 1 else 2)).wr BPM_FFCAP0.releaser unit
      let s := ((s.wr BPM_FFCAP0.owner owner).wr BPM_FFCAP1.ptr_lo ptr).wr BPM_FFCAP2.gen gen
      s.wr BPM_FFCAP2.ptr_hi (ptr / 2 ^ 32)
  s.postTwo 0x0503 (b2n double) (b2n !double)

/-- The units that may release a reference of a SHARED chain (R237): QUEUED, FABRIC_TX, EGRESS_READ and HOST_PUNT. -/
def readerCode (unit : Nat) : Bool := 0x10 ≤ unit && unit ≤ 0x13

/-- A release of a handle by a unit (R234, R237, R238); one that is accepted ends the unit's reading of the chain (R252). -/
def State.release (s : State) (ptr gen unit : Nat) : State :=
  let x := s.chain ptr
  if x.owner = 0 ∨ x.gen ≠ gen then s.freeFault true ptr gen unit x.owner
  else if x.owner = ownerShared ∧ readerCode unit then
    let s := s.endRead ptr gen unit
    let n := Tbl.get 0 s.bpm.share x.share
    let s := { s with bpm := { s.bpm with share := Tbl.set 0 s.bpm.share x.share (n - 1) } }
    if n ≤ 1 then (s.freeChain ptr).syncShare else { s with qm := { s.qm with replicas := s.qm.replicas - 1 } }
  else if x.owner = unit ∧ x.owner ≠ ownerShared then (s.endRead ptr gen unit).freeChain ptr
  else s.freeFault false ptr gen unit x.owner

/-- CHAIN_RELEASE (R237): a unit, named by its owner code, releases a chain handle. -/
def execChainRelease (ptr gen unit : Nat) (s : State) : Out := .next (s.release ptr gen unit)

/-! ### The write crossbar (R256 to R260) -/

/-- Cells waiting at a crossbar input. -/
def State.xin (s : State) (i : Nat) : List XCell := Tbl.get [] s.bpm.inputs i

/-- Cells that a writer holds. -/
def State.xwait (s : State) (w : Nat) : List XCell := Tbl.get [] s.bpm.wait w

/-- The first input of a writer, and how many it has (*Crossbar inputs*). -/
def writerInputs (w : Nat) : Nat × Nat :=
  if w < 4 then (16 * w, 16) else if w < 52 then (60 + w, 1) else if w = 52 then (112, 1) else (113, 8)

/-- A cell offered to the crossbar: it takes a waiting place of its input, or the writer holds it. -/
def State.xput (s : State) (w : Nat) (x : XCell) : State :=
  if (s.xwait w).isEmpty ∧ (s.xin x.input).length < 16 then
    { s with bpm := { s.bpm with inputs := Tbl.set [] s.bpm.inputs x.input (s.xin x.input ++ [x]) } }
  else { s with bpm := { s.bpm with wait := Tbl.set [] s.bpm.wait w (s.xwait w ++ [x]) } }

/-- The cells of a chain or copy offered to the crossbar; which input of its writer a cell takes is a free value. -/
def State.xputAll (s : State) (w ptr : Nat) (cells : List Nat) : State :=
  cells.foldl (fun s k =>
    let (n, s) := s.fresh
    let (i, m) := writerInputs w
    s.xput w { input := i + Config.pick n % m, ptr := ptr, cell := k }) s

/-- Cells that a writer holds move up into free waiting places, in order. -/
def State.xfill (w : Nat) : Nat → State → State
  | 0, s => s
  | n + 1, s =>
    match s.xwait w with
    | [] => s
    | x :: r =>
      if (s.xin x.input).length < 16 then
        State.xfill w n { s with bpm := { s.bpm with inputs := Tbl.set [] s.bpm.inputs x.input (s.xin x.input ++ [x]),
                                                     wait := Tbl.set [] s.bpm.wait w r } }
      else s

/-- Whether a cell of a chain or copy is still on its way through the crossbar. -/
def State.writing (s : State) (ptr : Nat) : Bool :=
  s.bpm.inputs.any (fun e => e.2.any (·.ptr == ptr)) || s.bpm.wait.any (fun e => e.2.any (·.ptr == ptr))

/-- The member of `l` that comes first at or after `p`, counting upward and wrapping. -/
def firstFrom (p : Nat) (l : List Nat) : Option Nat :=
  match l.filter (fun k => decide (p ≤ k)) with
  | k :: _ => some k
  | [] => l.head?

/-- One iteration of the central scheduler (R257): the new matches, as input and bank. -/
def State.xIterate (s : State) (done : List (Nat × Nat)) : List (Nat × Nat) :=
  let ins := (List.range 121).filter (fun i => !done.any (fun m => m.1 == i))
  let banks := (List.range 128).filter (fun b => !done.any (fun m => m.2 == b))
  let grants := banks.filterMap (fun b =>
    (firstFrom (Tbl.get 0 s.bpm.grantP b) (ins.filter (fun i => (s.xin i).any (fun x => x.cell % 128 == b)))).map (fun i => (i, b)))
  ins.filterMap (fun i =>
    (firstFrom (Tbl.get 0 s.bpm.acceptP i) ((grants.filter (fun g => g.1 == i)).map (·.2))).map (fun b => (i, b)))

/-- The iterations of a slot: the first moves the pointers (R258). -/
def State.xMatch (s : State) : Nat → List (Nat × Nat) → List (Nat × Nat)
  | 0, done => done
  | n + 1, done => s.xMatch n (done ++ s.xIterate done)

/-- The pointers after the matches of the first iteration. -/
def State.xPoint (s : State) (l : List (Nat × Nat)) : State :=
  l.foldl (fun s m => { s with bpm := { s.bpm with grantP := Tbl.set 0 s.bpm.grantP m.2 ((m.1 + 1) % 121),
                                                   acceptP := Tbl.set 0 s.bpm.acceptP m.1 ((m.2 + 1) % 128) } }) s

/-- A matched cell leaves its input for its bank. -/
def State.xMove (s : State) (m : Nat × Nat) : State :=
  let q := s.xin m.1
  match q.findIdx? (fun x => x.cell % 128 == m.2) with
  | none => s
  | some i => { s with bpm := { s.bpm with inputs := Tbl.set [] s.bpm.inputs m.1 (q.eraseIdx i) } }

/-- XBAR_SLOT (R256 to R259): the central scheduler matches inputs to banks and the matched cells are written. -/
def execXbarSlot (s : State) : Out :=
  let first := s.xIterate []
  let all := s.xMatch (s.rd QM_XBARCFG.iters - 1) first
  let s := all.foldl State.xMove (s.xPoint first)
  .next ((List.range 54).foldl (fun s w => State.xfill w (s.xwait w).length s) s)

/-! ### Errors and the audit -/

/-- A read that corrects a single-bit error (`ecc` 3) counts it (R240). -/
def State.readMark (s : State) (ecc : Nat) : State := if ecc = 3 then s.inc BPM_ECCCOR.count else s

/-- BUFFER_AUDIT (R241): the audit returns the cells that uncorrectable errors made unreachable. -/
def execBufferAudit (s : State) : Out :=
  match s.bpm.lost with
  | [] => .next s
  | l =>
    let s := { s with bpm := { s.bpm with lost := [] } }.giveKeys l
    .next (((s.addSat BPM_RECLAIM.count l.length).syncFree).postTwo 0x0504 0 l.length)

/-! ### Enabling -/

/-- A write of BPM_CFG (R208): one that keeps enable at 1 leaves deep_mcells; enabling puts deep_mcells and prefetch_cells in force,
loads the free counts, and leaves counter storage what the cells and their link memory do not use (R618). -/
def State.writeBpmCfg (s : State) (enable : Bool) (dm : Nat) : State :=
  let was := s.bit BPM_CFG.enable
  let s := if was && enable then s else if 64 ≤ dm ∧ dm ≤ 188 then s.wr BPM_CFG.deep_mcells dm else s
  let s := s.wrBit BPM_CFG.enable enable
  if !was && enable then
    let s := { s with bpm := { s.bpm with started := true, prefetch := s.rd BPM_SHALCFG.prefetch_cells, deepM := s.rd BPM_CFG.deep_mcells } }
    let s := ((s.wr BPM_MINSHAL.min_ (s.freeOf 0)).wr BPM_MINPREF.min_ (s.freeOf 1)).wr BPM_MINDEEP.min_ (s.freeOf 2)
    State.trimHbm 64 (s.wr BPM_MINRSV.min_ (s.freeOf 3)).syncFree
  else s

/-- A write of BPM_SHALCFG (R209): ignored while the buffer is enabled. -/
def State.writeShalCfg (s : State) (n : Nat) : State :=
  if s.bit BPM_CFG.enable ∨ n < 16384 ∨ 262144 < n then s else s.wr BPM_SHALCFG.prefetch_cells n

/-- BPM_RSVCFG.channels: the channels of the stripe that have not failed (R243). -/
def State.syncStripe (s : State) : State :=
  (s.wr BPM_RSVCFG.channels ((s.bpm.stripe.filter (fun ch => !s.bpm.failed.contains ch)).foldl (fun a ch => a + 2 ^ (ch - 4)) 0)).syncFree

/-- A write of BPM_RSVCFG (R210): enabling stripes the Reserve tier over the TD's RESERVE channels, and is refused without one. -/
def State.writeRsvCfg (s : State) (enable : Bool) (rate : Nat) : State :=
  let was := s.bit BPM_RSVCFG.enable
  let chans := [4, 5, 6, 7].filter (fun ch => s.rd (MCD_CFG.role ch) == 2)
  if enable ∧ !was ∧ chans.isEmpty then s.wr BPM_STAT.rsv_refused 1
  else
    let s := if 100 ≤ rate ∧ rate ≤ 1600 then s.wr BPM_RSVCFG.rate_gbps rate else s
    let s := s.wrBit BPM_RSVCFG.enable enable
    if enable ∧ !was then
      { s with bpm := { s.bpm with stripe := chans } }.syncStripe
    else s

end Sys2Proof.Machine
end

