-- ==== Sys2Proof/Machine/Operands.lean ====
section
/-! DEFINITION. Bundles and operations of engine programs (02_packet_engines.md): the fields of *Bundle header* and *Operation
format*, the operand forms, the classes and slots of *Opcodes*, and the validation of a bank (R61 to R67, R90). -/
namespace Sys2Proof.Machine

/-- An operation as decoded (*Operation format*). -/
structure EOp where
  opcode : Nat
  pred   : Nat
  pneg   : Bool
  rd     : Nat
  ra     : Nat
  imm    : Bool
  /-- Bits 17:0. -/
  b      : Nat
  /-- The extended immediate of format 0b01, 58 bits (R61). -/
  ext    : Option Nat
  deriving DecidableEq, Repr

/-- The header fields of a bundle. -/
def bunFormat (w : Nat) : Nat := bitsAt w 6 2
def bunValid (w i : Nat) : Bool := bitOf w (3 + i)
def bunBarrier (w : Nat) : Bool := bitOf w 2

/-- The 40 bits of slot `i`: slot 0 is bits 47:8, slot 1 bits 87:48, slot 2 bits 127:88. -/
def bunSlot (w i : Nat) : Nat := bitsAt w (8 + 40 * i) 40

/-- The operation in slot `i`. -/
def decodeOp (w i : Nat) : EOp :=
  let v := bunSlot w i
  { opcode := bitsAt v 33 7, pred := bitsAt v 30 3, pneg := bitOf v 29, rd := bitsAt v 24 5, ra := bitsAt v 19 5,
    imm := bitOf v 18, b := bitsAt v 0 18,
    ext := if bunFormat w = 1 ∧ i = 1 then some (bunSlot w 2 * 2 ^ 18 + bitsAt v 0 18) else none }

/-- The next valid slot from `i` on. -/
def nextSlot (w i : Nat) : Option Nat := ([0, 1, 2].filter (fun k => i ≤ k && bunValid w k)).head?

/-- General register `k` of a ply; g0 reads as 0. -/
def Ply.reg (p : Ply) (k : Nat) : Word64 := if k = 0 then 0 else Tbl.get 0 p.g k

/-- Predicate `k`; p0 reads as 1. -/
def Ply.pred (p : Ply) (k : Nat) : Bool := k == 0 || p.p.contains k

/-- The immediate: 18 bits, or the 58 bits of format 0b01, sign-extended (R61). -/
def EOp.immVal (o : EOp) : Word64 :=
  match o.ext with
  | some x => BitVec.ofInt 64 (signed 58 x)
  | none => BitVec.ofInt 64 (signed 18 o.b)

/-- Whether the second operand is the immediate. -/
def EOp.bVal (o : EOp) (p : Ply) : Word64 := if o.imm then o.immVal else p.reg (bitsAt o.b 13 5)

/-- The operation's predicate lets it execute (R63). -/
def EOp.gated (o : EOp) (p : Ply) : Bool := p.pred o.pred == !o.pneg

/-- The address ra + B, modulo 2^64. -/
def EOp.addr (o : EOp) (p : Ply) : Nat := (p.reg o.ra + o.bVal p).toNat

/-- Bit field operands: position and length, 0 meaning 64 (EXTU, EXTS, INS). -/
def EOp.pos (o : EOp) : Nat := bitsAt o.b 0 6
def EOp.len (o : EOp) : Nat := if bitsAt o.b 6 6 = 0 then 64 else bitsAt o.b 6 6

/-- Classes of *Opcodes*. -/
inductive OpClass where
  | alu | compare | pred | load | store | atomic | accel | branch | end_
  deriving DecidableEq, Repr

/-- The class of an opcode; none for one that is not valid (R67). -/
def opClass (n : Nat) : Option OpClass :=
  if n ≤ 0x0D then some .alu
  else if 0x20 ≤ n ∧ n ≤ 0x27 then some .alu
  else if 0x30 ≤ n ∧ n ≤ 0x36 then some .compare
  else if 0x37 ≤ n ∧ n ≤ 0x39 then some .pred
  else if 0x40 ≤ n ∧ n ≤ 0x43 then some .load
  else if 0x44 ≤ n ∧ n ≤ 0x47 then some .store
  else if 0x50 ≤ n ∧ n ≤ 0x53 then some .atomic
  else if 0x58 ≤ n ∧ n ≤ 0x5B then some .branch
  else if 0x60 ≤ n ∧ n ≤ 0x63 then some .accel
  else if 0x70 ≤ n ∧ n ≤ 0x73 then some .end_
  else none

/-- *Slot permissions*. -/
def slotAllows (c : OpClass) (i : Nat) : Bool :=
  match c with
  | .alu => true
  | .compare => true
  | .pred => true
  | .load => i < 2
  | .store => i < 2
  | .atomic => i == 0
  | .accel => i == 0
  | .branch => i == 2
  | .end_ => i == 2

/-- The valid slots of a bundle with their operations. -/
def bunOps (w : Nat) : List (Nat × EOp) := ([0, 1, 2].filter (bunValid w)).map (fun i => (i, decodeOp w i))

/-- The general register that an operation writes, if any of g1 to g31. -/
def EOp.dest (o : EOp) : Option Nat :=
  let r : Option Nat := match opClass o.opcode with
    | some .alu => if o.opcode = 0 then none else some o.rd
    | some .load => some o.rd
    | some .atomic => some o.rd
    | some .accel => if o.opcode = 0x60 then some o.rd else none
    | some .branch => if o.opcode = 0x5A then some 31 else none
    | _ => none
  if r = some 0 then none else r

/-- The predicate that an operation writes, if any of p1 to p7. -/
def EOp.destPred (o : EOp) : Option Nat :=
  match opClass o.opcode with
  | some .compare => if o.rd % 8 = 0 then none else some (o.rd % 8)
  | some .pred => if o.rd % 8 = 0 then none else some (o.rd % 8)
  | _ => none

/-- Fields of *Call immediate*. -/
def callTag (imm : Nat) : Nat := bitsAt imm 16 2
def callAccel (imm : Nat) : Nat := bitsAt imm 12 4
def callKeylen (imm : Nat) : Nat := bitsAt imm 6 6
def callSelect (imm : Nat) : Nat := bitsAt imm 0 6

/-- The accelerators and the call forms they permit (*Accelerators*). -/
def accelOk (opcode imm : Nat) : Bool :=
  let a := callAccel imm
  a ≤ 6 && 1 ≤ callKeylen imm && callKeylen imm ≤ 16 && (if a = 4 then opcode == 0x63 else opcode != 0x63)

/-- A register form holds zeros below bit 13; predicate logic keeps pb in bits 15:13. -/
def EOp.formOk (o : EOp) : Bool :=
  if o.opcode = 0x24 ∨ o.opcode = 0x25 ∨ o.opcode = 0x26 then o.imm
  else if o.opcode = 0x52 ∨ o.opcode = 0x37 ∨ o.opcode = 0x38 ∨ o.opcode = 0x39 then !o.imm && o.b % 8192 == 0
  else if o.opcode = 0x07 ∧ o.ra ≠ 0 then false
  else o.imm || o.b % 8192 == 0

/-- The first condition of R90 that a bundle fails, 1 to 7 in their listed order; 0 for none. -/
def bundleFails (len w : Nat) : Nat :=
  let ops := bunOps w
  let cls := ops.map (fun x => opClass x.2.opcode)
  let has := fun (l : List Nat) => ops.any (fun x => l.contains x.2.opcode)
  let dests := ops.filterMap (fun x => x.2.dest)
  let preds := ops.filterMap (fun x => x.2.destPred)
  if 2 ≤ bunFormat w ∨ w % 4 ≠ 0 then 1
  else if ops.any (fun x => match opClass x.2.opcode with
      | some c => !slotAllows c x.1
      | none => true) then 2
  else if (bunFormat w = 1 ∧ (bunValid w 2 ∨ !bunValid w 1 ∨ !(decodeOp w 1).imm)) ∨
      2 ≤ (cls.filter (fun c => c == some .load || c == some .store || c == some .atomic)).length ∨
      (has [0x60, 0x62] ∧ cls.any (fun c => c == some .branch || c == some .end_)) then 3
  else if !decide dests.Nodup || !decide preds.Nodup then 4
  else if ops.any (fun x => (x.2.opcode == 0x58 || x.2.opcode == 0x5A) && x.2.imm &&
      decide (len ≤ x.2.immVal.toNat % 2 ^ 15)) then 5
  else if ops.any (fun x => (x.2.opcode == 0x60 || x.2.opcode == 0x61 || x.2.opcode == 0x63) && !accelOk x.2.opcode x.2.b) then 6
  else if ops.any (fun x => !x.2.formOk) then 7
  else 0

end Sys2Proof.Machine
end

