-- ==== Sys2Proof/Machine/Sha.lean ====
section
/-! DEFINITION. SHA-384 and the verification of ECDSA P-384 signatures, which R541 and R542 name without defining: PRESUMED as FIPS 180-4 and
FIPS 186-4 give them (log entry 30). -/
namespace Sys2Proof.Machine

/-! ### SHA-384

Words are numbers below 2^64. The eight working variables are kept as two sequences, of which each round needs the last four terms: the one that
each round starts from (a to d) and the one it feeds (e to h). -/

/-- The largest number whose `k`-th power does not exceed `n`, found bit by bit from the top. -/
def rootBits (k n : Nat) : Nat → Nat → Nat
  | 0, x => x
  | b + 1, x => rootBits k n b (if Nat.ble ((x + 2 ^ b) ^ k) n then x + 2 ^ b else x)

/-- The first 64 bits of the fractional part of the `k`-th root of `p`. -/
def rootFrac (k p : Nat) : Nat := rootBits k (p * 2 ^ (64 * k)) 72 0 % 2 ^ 64

/-- The primes below 410, of which there are 80. -/
def shaPrimes : List Nat := (List.range 410).filter (fun p => Nat.ble 2 p && (List.range 21).all (fun d => Nat.ble d 1 || p % d != 0 || p == d))

/-- The constants of the rounds, from the cube roots of the primes, and the first hash value, from the square roots of the ninth to sixteenth. -/
def shaK : List Nat := shaPrimes.map (rootFrac 3)
def shaStart : List Nat := ((shaPrimes.drop 8).take 8).map (rootFrac 2)

/-- The rotations of a word by each of some distances, and what is left of it by a shift, all exclusive-ored. -/
def shaMix (turns : List Nat) (rest x : Nat) : Nat :=
  turns.foldl (fun v n => Nat.xor v (x / 2 ^ n + x % 2 ^ n * 2 ^ (64 - n))) rest

/-- The last four terms of a sequence, latest first. -/
structure Last4 where
  p : Nat
  q : Nat
  r : Nat
  s : Nat

/-- A sequence goes on by a term. -/
def Last4.push (l : Last4) (x : Nat) : Last4 := ⟨x % 2 ^ 64, l.p, l.q, l.r⟩

/-- Bits chosen between two words by a third, and the majority of three. -/
def Last4.chosen (l : Last4) : Nat := Nat.xor l.r (Nat.land l.p (Nat.xor l.q l.r))
def Last4.majority (l : Last4) : Nat := Nat.lor (Nat.land l.p l.q) (Nat.land l.r (Nat.lor l.p l.q))

/-- The window of 16 words that the schedule works on moves on by one. -/
def shaSlide (w : List Nat) : List Nat :=
  let x := (w[1]?).getD 0
  let y := (w[14]?).getD 0
  w.drop 1 ++ [((w[0]?).getD 0 + shaMix [1, 8] (x / 2 ^ 7) x + (w[9]?).getD 0 + shaMix [19, 61] (y / 2 ^ 6) y) % 2 ^ 64]

/-- The rounds, one for each constant. -/
def shaRounds : List Nat → List Nat → Last4 × Last4 → Last4 × Last4
  | [], _, v => v
  | k :: ks, w, (a, e) =>
    let t := e.s + shaMix [14, 18, 41] 0 e.p + e.chosen + k + (w[0]?).getD 0
    shaRounds ks (shaSlide w) (a.push (t + shaMix [28, 34, 39] 0 a.p + a.majority), e.push (a.s + t))

/-- The hash value after a block of 128 bytes. -/
def shaBlock (v : Last4 × Last4) (b : List Nat) : Last4 × Last4 :=
  let sum := fun (x y : Last4) => (⟨(x.p + y.p) % 2 ^ 64, (x.q + y.q) % 2 ^ 64, (x.r + y.r) % 2 ^ 64, (x.s + y.s) % 2 ^ 64⟩ : Last4)
  let u := shaRounds shaK ((List.range 16).map (fun i => beNat (sliceB b (8 * i) 8))) v
  (sum v.1 u.1, sum v.2 u.2)

/-- The hash value after `n` blocks. -/
def shaBlocks : Nat → List Nat → Last4 × Last4 → Last4 × Last4
  | 0, _, v => v
  | n + 1, b, v => shaBlocks n (b.drop 128) (shaBlock v (b.take 128))

/-- The first hash value as the two sequences. -/
def shaFrom : Last4 × Last4 :=
  let h := fun i => (shaStart[i]?).getD 0
  (⟨h 0, h 1, h 2, h 3⟩, ⟨h 4, h 5, h 6, h 7⟩)

/-- SHA-384: 48 bytes. A bit 1, zeros and the length in bits fill the last block. -/
def sha384 (m : List Nat) : List Nat :=
  let full := m ++ 128 :: List.replicate ((239 - m.length % 128) % 128) 0 ++ beBytes 16 (8 * m.length)
  let (a, e) := shaBlocks (full.length / 128) full shaFrom
  [a.p, a.q, a.r, a.s, e.p, e.q].flatMap (beBytes 8)

/-! ### ECDSA P-384 -/

/-- The field prime, the group order, the coefficient b (a is -3) and the base point. -/
def ecP : Nat := 2 ^ 384 - 2 ^ 128 - 2 ^ 96 + 2 ^ 32 - 1
def ecN : Nat :=
  0xffffffffffffffffffffffffffffffffffffffffffffffffc7634d81f4372ddf581a0db248b0a77aecec196accc52973
def ecB : Nat :=
  0xb3312fa7e23ee7e4988e056be3f82d19181d9c6efe8141120314088f5013875ac656398d8a2ed19d2a85c8edd3ec2aef
def ecG : Nat × Nat :=
  (0xaa87ca22be8b05378eb1c71ef320ad746e1d3b628ba79b9859f741e082542a385502f25dbf55296c3a545e3872760ab7,
   0x3617de4a96262c6f5d9e98bf9292dc29f8f41dbd289a147ce9da3113b5f0b8c00a60b1ce1d7e819d7a431d7c90ea0e5f)

/-- `b` to the power `e` modulo `m`, over the low `n` bits of `e`. -/
def powMod (m : Nat) : Nat → Nat → Nat → Nat
  | 0, _, _ => 1 % m
  | n + 1, b, e =>
    let r := powMod m n (b * b % m) (e / 2)
    if e % 2 = 1 then r * b % m else r

/-- The inverse modulo a prime. -/
def invMod (m a : Nat) : Nat := powMod m 384 (a % m) (m - 2)

/-- A point of the curve; none is the point at infinity. -/
abbrev EcPoint := Option (Nat × Nat)

/-- Difference modulo the field prime. -/
def ecSub (a b : Nat) : Nat := (a + ecP - b % ecP) % ecP

/-- Sum of two points. -/
def ecAdd (s t : EcPoint) : EcPoint :=
  match s, t with
  | none, q => q
  | q, none => q
  | some (x1, y1), some (x2, y2) =>
    if x1 = x2 ∧ (y1 + y2) % ecP = 0 then none
    else
      let l := if x1 = x2 then ecSub (3 * x1 * x1) 3 * invMod ecP (2 * y1) % ecP
               else ecSub y2 y1 * invMod ecP (ecSub x2 x1) % ecP
      let x := ecSub (ecSub (l * l) x1) x2
      some (x, ecSub (l * ecSub x1 x) y1)

/-- A multiple of a point, over the low `n` bits of `k`. -/
def ecMul : Nat → Nat → EcPoint → EcPoint
  | 0, _, _ => none
  | n + 1, k, q =>
    let r := ecMul n (k / 2) (ecAdd q q)
    if k % 2 = 1 then ecAdd r q else r

/-- A point lies on the curve. -/
def ecOn (x y : Nat) : Bool := decide (x < ecP) && decide (y < ecP) && y * y % ecP == ecSub (x * x * x + ecB) (3 * x)

/-- The signature (r, s) of a SHA-384 digest verifies under the public key: 0x04, then X, then Y. -/
def ecdsaOk (key digest r s : List Nat) : Bool :=
  let x := beNat (sliceB key 1 48)
  let y := beNat (sliceB key 49 48)
  let r := beNat r
  let s := beNat s
  if leAt key 0 1 ≠ 4 ∨ !ecOn x y ∨ r = 0 ∨ ecN ≤ r ∨ s = 0 ∨ ecN ≤ s then false
  else
    let w := invMod ecN s
    match ecAdd (ecMul 384 (beNat digest * w % ecN) (some ecG)) (ecMul 384 (r * w % ecN) (some (x, y))) with
    | none => false
    | some (vx, _) => vx % ecN == r

end Sys2Proof.Machine
end

