-- ==== Sys2Proof/Machine/Image.lean ====
section
/-! DEFINITION. Wybex images (13_update.md, R541 to R543, R549, R550, R569, R570): header, manifest, signature block, deltas, verification, and
the boot check of a bank. Update reasons are numbered as *Update reasons* gives them; 0 is no failure. -/
namespace Sys2Proof.Machine

/-! ### Header and manifest (R541) -/

/-- Fields of *Wybex header*. -/
def hdrDelta (h : List Nat) : Bool := bitOf (leAt h 6 2) 0
def hdrRecovery (h : List Nat) : Bool := bitOf (leAt h 6 2) 1
def hdrVersion (h : List Nat) : Nat := leAt h 8 4
def hdrLength (h : List Nat) : Nat := leAt h 12 4
def hdrFull (h : List Nat) : Nat := leAt h 16 4
def hdrEntries (h : List Nat) : Nat := leAt h 20 2
def hdrFmt (h : List Nat) : Nat := leAt h 22 2
def hdrRevoke (h : List Nat) : Nat := leAt h 24 1 % 16

/-- The header's own check. -/
def hdrCheckOk (h : List Nat) : Bool := leAt h 156 4 == crc32c (sliceB h 0 156)

/-- Check 1 of R549: the header, with length and full_len within an area of `room` bytes. -/
def hdrOk (h : List Nat) (room : Nat) : Bool :=
  leAt h 0 4 == 0x58425957 && leAt h 4 2 == 3 && hdrCheckOk h && decide (leAt h 6 2 < 4) && decide (leAt h 24 1 < 16) &&
  leNat (sliceB h 25 7) == 0 && leNat (sliceB h 128 28) == 0 && decide (1 ≤ hdrEntries h) && decide (hdrEntries h ≤ 16) &&
  decide (hdrLength h ≤ room) && decide (hdrFull h ≤ room) &&
  (hdrDelta h || (hdrFull h == hdrLength h && leNat (sliceB h 32 96) == 0))

/-- A manifest entry: kind, target, version, offset, length and digest. -/
structure Part where
  kind    : Nat
  target  : Nat
  version : Nat
  offset  : Nat
  length  : Nat
  digest  : List Nat
  deriving DecidableEq, Repr

/-- Entry `i` of the manifest of an image. -/
def partAt (img : List Nat) (i : Nat) : Part :=
  let e := sliceB img (160 + 64 * i) 64
  { kind := leAt e 0 1, target := leAt e 1 3, version := leAt e 4 4, offset := leAt e 8 4, length := leAt e 12 4, digest := sliceB e 16 48 }

/-- The components of an image. -/
def partsOf (img : List Nat) : List Part := (List.range (min 16 (hdrEntries img))).map (partAt img)

/-- The payload of a component. -/
def Part.bytes (p : Part) (img : List Nat) : List Nat := sliceB img p.offset p.length

/-- A component's digest matches its payload. -/
def Part.digestOk (p : Part) (img : List Nat) : Bool := sha384 (p.bytes img) == p.digest

/-- The bundles of an instruction bank. -/
def bundlesOf (b : List Nat) : List Nat := (List.range (b.length / 16)).map (fun i => leAt b (16 * i) 16)

/-- An ENGINE payload passes the validation of R90. -/
def engineOk (b : List Nat) : Bool :=
  let l := bundlesOf b
  b.length % 16 == 0 && decide (8 ≤ l.length) && decide (l.length ≤ 32768) && l.all (fun w => bundleFails l.length w == 0)

/-- Two payloads overlap. -/
def Part.meets (p q : Part) : Bool := decide (p.offset < q.offset + q.length) && decide (q.offset < p.offset + p.length)

/-- The targets of a list of components are disjoint. -/
def disjoint : List Part → Bool
  | [] => true
  | p :: r => r.all (fun q => Nat.land p.target q.target == 0) && disjoint r

/-- No two payloads of a list overlap. -/
def apart : List Part → Bool
  | [] => true
  | p :: r => r.all (fun q => !p.meets q) && apart r

/-- Check 4 of R549: the manifest. -/
def manifestOk (img : List Nat) : Bool :=
  let ps := partsOf img
  let of_ := fun (k : Nat) => ps.filter (fun p => p.kind == k)
  let n := img.length
  let placed := ps.all (fun p => p.offset % 4096 == 0 && decide (160 + 64 * hdrEntries img ≤ p.offset) && decide (p.offset + p.length + 264 ≤ n))
  let kinds := if hdrRecovery img then
      ps.all (fun p => (p.kind == 3 && p.target == 4) || (p.kind == 4 && p.target == 0))
    else ps.all (fun p => ((p.kind == 1 || p.kind == 4) && p.target == 0) || p.kind == 2 || (p.kind == 3 && decide (p.target < 8))) &&
      (of_ 1).length == 1 && (of_ 4).length == 1
  placed && apart ps && kinds && disjoint (of_ 3) && disjoint (of_ 2) && (of_ 2).all (fun p => engineOk (p.bytes img))

/-! ### Signature (R541, R542) -/

/-- Check 2 of R549: the trailer. -/
def trailerOk (img : List Nat) : Bool := decide (8 ≤ img.length) && crc64 (img.take (img.length - 8)) == leAt img (img.length - 8) 8

/-- The signature block of a container. -/
def sigBlock (img : List Nat) : List Nat := sliceB img (img.length - 264) 256

/-- Check 3 of R549: the signature under R542. -/
def State.signatureOk (s : State) (img : List Nat) : Bool :=
  let b := sigBlock img
  let slot := leAt b 4 1
  let key := sliceB b 8 97
  decide (424 ≤ img.length) && leAt b 0 4 == 0x47495357 && decide (slot < 4) && leNat (sliceB b 5 3) == 0 && leNat (sliceB b 105 7) == 0 &&
  leNat (sliceB b 208 48) == 0 && bitOf (s.rd UPD_KEYS.present) slot && !bitOf (s.rd UPD_KEYS.revoked) slot &&
  sha384 key == Tbl.get [] s.upd.keys slot && ecdsaOk key (sha384 (img.take (img.length - 264))) (sliceB b 112 48) (sliceB b 160 48)

/-! ### Deltas (R543) -/

/-- What a patch stream has given: its output, whether END has completed it, and whether it is bad. -/
structure Patch where
  out  : List Nat
  done : Bool
  bad  : Bool
  deriving DecidableEq, Repr

/-- *Patch operations*, up to `n` records of a stream whose whole records are taken. -/
def patchRun (base : List Nat) (full : Nat) : Nat → List Nat → List Nat → Patch
  | 0, _, out => ⟨out, false, false⟩
  | n + 1, str, out =>
    let len := leAt str 4 4
    let src := leAt str 8 8
    if str.length < 16 then ⟨out, false, false⟩
    else match leAt str 0 1 with
      | 1 =>
        if full < out.length + len ∨ base.length < src + len then ⟨out, false, true⟩
        else patchRun base full n (str.drop 16) (out ++ sliceB base src len)
      | 2 =>
        if full < out.length + len then ⟨out, false, true⟩
        else if str.length < 16 + 16 * ceilDiv len 16 then ⟨out, false, false⟩
        else patchRun base full n (str.drop (16 + 16 * ceilDiv len 16)) (out ++ sliceB str 16 len)
      | 3 => if out.length = full ∧ len = 0 ∧ src = 0 then ⟨out, true, false⟩ else ⟨out, false, true⟩
      | _ => ⟨out, false, true⟩

/-- The output of a delta as far as the container has arrived; a container without exactly one PATCH component is bad. -/
def patchOf (base got : List Nat) : Patch :=
  if got.length < 224 then ⟨[], false, false⟩
  else
    let p := partAt got 0
    if hdrEntries got ≠ 1 ∨ p.kind ≠ 0x10 ∨ p.target ≠ 0 then ⟨[], false, true⟩
    else
      let str := (got.drop p.offset).take p.length
      patchRun base (hdrFull got) (str.length / 16 + 1) str []

/-- The image in a sealed area. -/
def State.imageIn (s : State) (a : Nat) : List Nat := s.norBytes (areaBase a) (leAt (s.seal a) 8 4)

/-- A delta's base: the image in the confirmed bank, if its digest is the one named (R543). -/
def State.baseMatches (s : State) (h : List Nat) : Bool :=
  let b := s.record.confirmed
  s.sealOk b && sliceB (s.seal b) 16 48 == sliceB h 32 48

/-! ### Verification (R549, R550) -/

/-- Checks 1 to 3 on a container. -/
def State.outerReason (s : State) (img : List Nat) (room : Nat) : Nat :=
  if !hdrOk img room || hdrLength img != img.length then 0x90
  else if !trailerOk img then 0x92
  else if !s.signatureOk img then 0x91
  else 0

/-- Checks 1 to 5 on a full image: the first reason that one fails with. -/
def State.fullReason (s : State) (img : List Nat) (room : Nat) : Nat :=
  let r := s.outerReason img room
  if r ≠ 0 then r
  else if hdrDelta img then 0x90
  else if !manifestOk img then 0x96
  else if !(partsOf img).all (fun p => p.digestOk img) then 0x92
  else 0

/-- Verification of a container as delivered, with the base of a delta: the reason of its failure and the full image. -/
def State.verifyReason (s : State) (img base : List Nat) (room : Nat) : Nat × List Nat :=
  if hdrDelta img then
    let r := s.outerReason img room
    let p := patchOf base img
    if r ≠ 0 then (r, [])
    else if !p.done then (0x96, [])
    else if sha384 p.out ≠ sliceB img 80 48 then (0x92, [])
    else (s.fullReason p.out room, p.out)
  else (s.fullReason img room, img)

/-! ### Boot check (R570) -/

/-- boot_check of an area: its seal sector is valid, the header's check is correct, and the digest of every component matches. -/
def State.bootCheck (s : State) (a : Nat) : Bool :=
  let img := s.imageIn a
  s.sealOk a && hdrCheckOk img && (partsOf img).all (fun p => p.digestOk img)

/-- Whether an area is SEALED: as the newest valid record says, and without one as its seal sector says (R538). -/
def State.isSealed (s : State) (a : Nat) : Bool :=
  if s.upd.rec0.isNone && s.upd.rec1.isNone then s.sealOk a else s.area a == 2

end Sys2Proof.Machine
end

