-- ==== Sys2Proof/Machine/Flags.lean ====
section
/-! DEFINITION. The values that engine operations compute (02_packet_engines.md, *Opcodes*): the arithmetic, shift and bit-field
results, and the predicates of the compare and predicate operations. The block has no flags; predicates stand in their place. -/
namespace Sys2Proof.Machine

/-- Count of leading zero bits, 0 to 64. -/
def clz64 (x : Word64) : Nat := if x = 0 then 64 else 63 - Nat.log2 x.toNat

/-- Count of 1 bits. -/
def popCount : Nat → Nat → Nat
  | 0, _ => 0
  | n + 1, v => v % 2 + popCount n (v / 2)

/-- `ra` with its low B bytes reversed and the rest 0; B other than 2, 4 or 8 gives 0. -/
def bswap (x : Word64) (b : Nat) : Word64 :=
  if b = 2 ∨ b = 4 ∨ b = 8 then BitVec.ofNat 64 (leNat (leBytes b x.toNat).reverse) else 0

/-- The low `n` bits of a value. -/
def lowBits (x n : Nat) : Nat := x % 2 ^ n

/-- EXTU: `ra >> pos` with only the low `len` bits kept. -/
def extu (x : Word64) (pos len : Nat) : Word64 := BitVec.ofNat 64 (lowBits (x.toNat / 2 ^ pos) len)

/-- EXTS: as EXTU, then sign-extended from bit `len - 1`. -/
def exts (x : Word64) (pos len : Nat) : Word64 := BitVec.ofInt 64 (signed len (lowBits (x.toNat / 2 ^ pos) len))

/-- INS: bits `pos` to `pos + len - 1` of `d` replaced by the low bits of `x`; bits beyond 63 are lost. -/
def insBits (d x : Word64) (pos len : Nat) : Word64 :=
  BitVec.ofNat 64 (putBits d.toNat pos (min len (64 - pos)) (lowBits x.toNat len))

/-- A value in network order, 8 bytes. -/
def netBytes (x : Word64) : List Nat := beBytes 8 x.toNat

/-- Compare operations, by opcode (*Opcodes*, 0x30 to 0x36). -/
def compareOp (opcode : Nat) (a b : Word64) : Bool :=
  match opcode with
  | 0x30 => a == b
  | 0x31 => a != b
  | 0x32 => decide (a.toNat < b.toNat)
  | 0x33 => decide (a.toNat ≤ b.toNat)
  | 0x34 => decide (a.toInt < b.toInt)
  | 0x35 => decide (a.toInt ≤ b.toInt)
  | _ => a.getLsbD (b.toNat % 64)

end Sys2Proof.Machine
end

