-- ==== Sys2Proof/Machine/Parser.lean ====
section
/-! DEFINITION. The parser (03_lookup.md, R112 to R118): the walk of the state table, the parse record, and the check of a
program bank. -/
namespace Sys2Proof.Machine

/-- Byte `i` of parser bank `b`: the state table at 0, the transition table at 4,096. -/
def State.parserByte (s : State) (b i : Nat) : Nat := Tbl.get 0 s.lkp.parser (65536 * b + i)

/-- A run of bytes of a bank. -/
def State.parserBytes (s : State) (b i n : Nat) : List Nat := (List.range n).map (fun k => s.parserByte b (i + k))

/-- What the parser holds while it walks. -/
structure Walk where
  off    : Nat := 0
  state  : Nat := 0
  layers : List (Nat × Nat) := []
  error  : Nat := 0
  ext    : List Nat := List.replicate 32 0
  hash   : List Nat := []
  deriving DecidableEq, Repr

/-- A read of the window; none beyond it. -/
def winAt (win : List Nat) (i n : Nat) : Option (List Nat) := if i + n ≤ win.length then some (sliceB win i n) else none

/-- One extract action: offset, length, destination and hash bit. None where it reads outside the window. -/
def extract (win : List Nat) (w : Walk) (x : Nat × Nat × Nat × Bool) : Option Walk :=
  let (o, n, d, h) := x
  if n = 0 then some w
  else match winAt win (w.off + o) n with
    | none => none
    | some b => some { w with ext := patchB w.ext d b, hash := if h then w.hash ++ b else w.hash }

/-- The extract actions of a state entry. -/
def extractsOf (e : List Nat) : List (Nat × Nat × Nat × Bool) :=
  let x := fun i hb => (leAt e i 1, leAt e (i + 1) 1 / 16, leAt e (i + 2) 1 % 32, bitOf (leAt e 15 1) hb)
  [x 9 0, x 12 1]

/-- Header length of a state entry at an offset (len_fixed, len_var). -/
def headerLen (win : List Nat) (e : List Nat) (off : Nat) : Option Nat :=
  let fixed := leAt e 2 1
  if !bitOf (leAt e 1 1) 6 then some fixed
  else match winAt win (off + leAt e 3 1) 1 with
    | none => none
    | some b =>
      let f := leNat b / 2 ^ bitsAt (leAt e 4 1) 1 3 % 2 ^ (leAt e 4 1 / 16)
      some (f * 2 ^ (leAt e 5 1 % 4) + fixed)

/-- The next state: the first matching transition of the state, else default_next. -/
def State.nextState (s : State) (bank : Nat) (win e : List Nat) (off st : Nat) : Option Nat :=
  let sw := leAt e 7 1 % 32
  if sw = 0 then some (leAt e 8 1)
  else match winAt win (off + leAt e 6 1) 2 with
    | none => none
    | some b =>
      let v := beNat b / 2 ^ (16 - sw)
      let hit := (List.range 4096).find? (fun i =>
        let t := fun k => s.parserByte bank (4096 + 8 * i + k)
        bitOf (t 1) 7 && t 0 == st &&
          Nat.land v (t 4 * 256 + t 5) == Nat.land (t 2 * 256 + t 3) (t 4 * 256 + t 5))
      match hit with
      | some i => some (s.parserByte bank (4096 + 8 * i + 6))
      | none => some (leAt e 8 1)

/-- The walk of R114; the fuel is the 16 states it may enter, and one more to find STEPS. -/
def State.walk (s : State) (bank : Nat) (win : List Nat) : Nat → Walk → Walk
  | 0, w => { w with error := 2 }
  | n + 1, w =>
    if 256 ≤ w.off then { w with error := 1 }
    else
      let e := s.parserBytes bank (16 * w.state) 16
      let hdr := leAt e 0 1
      if hdr ≠ 0 ∧ w.layers.length = 12 then { w with error := 3 }
      else
        let w := if hdr = 0 then w else { w with layers := w.layers ++ [(hdr, w.off)] }
        let (ok, w) := (extractsOf e).foldl (fun (a : Bool × Walk) x =>
          if a.1 then (match extract win a.2 x with
            | some w' => (true, w')
            | none => (false, a.2)) else a) (true, w)
        if !ok then { w with error := 1 }
        else match headerLen win e w.off, s.nextState bank win e w.off w.state with
          | some len, some nxt =>
            let w' := { w with off := w.off + len }
            if bitOf (leAt e 1 1) 7 then w' else s.walk bank win n { w' with state := nxt }
          | _, _ => { w with error := 1 }

/-- The 64-byte parse record (R113). -/
def Walk.record (w : Walk) : List Nat :=
  [w.layers.length * 16 + w.error, w.state] ++ beBytes 2 (min w.off 256) ++
    beBytes 4 (if w.hash = [] then 0 else crc32c w.hash) ++
    sliceB (w.layers.flatMap (fun l => [l.1, l.2])) 0 24 ++ sliceB w.ext 0 32

/-- The parser of a pipe on a packet (R112, R115): the record, with an error counted in LKP_PARSEERR. -/
def State.parse (s : State) (pipe : Nat) (bytes : List Nat) : List Nat × State :=
  let w := s.walk (s.rd LKP_PARSECTL.live_bank) (bytes.take 256) 16 {}
  (w.record, if w.error = 0 then s else s.inc (LKP_PARSEERR.count pipe))

/-- Whether a state entry keeps R116. -/
def stateEntryOk (e : List Nat) : Bool :=
  let b := fun i => leAt e i 1
  let lw := b 4 / 16
  (!bitOf (b 1) 6 || (1 ≤ lw && lw ≤ 8)) && b 10 / 16 ≤ 8 && b 13 / 16 ≤ 8 && b 11 % 32 + b 10 / 16 ≤ 32 &&
  b 14 % 32 + b 13 / 16 ≤ 32 && b 7 % 32 ≤ 16 && b 1 % 64 == 0 && b 4 % 2 == 0 && b 5 / 4 == 0 && b 7 / 32 == 0 &&
  b 10 % 16 == 0 && b 11 / 32 == 0 && b 13 % 16 == 0 && b 14 / 32 == 0 && b 15 / 4 == 0

/-- Whether a transition entry keeps its reserved bits 0. -/
def transEntryOk (e : List Nat) : Bool := leAt e 1 1 % 128 == 0 && leAt e 7 1 == 0

/-- The validation of a parser bank (R116). -/
def State.parserOk (s : State) (bank : Nat) : Bool :=
  (List.range 256).all (fun i => stateEntryOk (s.parserBytes bank (16 * i) 16)) &&
  (List.range 4096).all (fun i => transEntryOk (s.parserBytes bank (4096 + 8 * i) 8))

end Sys2Proof.Machine
end

