-- ==== Sys2Proof/Machine/Sampling.lean ====
section
/-! DEFINITION. Sampling and mirror sessions (15_time_counters.md, R620 to R623): the selection of a packet, the token bucket and
the device cap, and sample records. -/
namespace Sys2Proof.Machine

/-- Session `k`. -/
def State.session (s : State) (k : Nat) : Session := Tbl.get {} s.tel.sessions k

/-- Session `k` replaced. -/
def State.setSession (s : State) (k : Nat) (x : Session) : State :=
  { s with tel := { s.tel with sessions := Tbl.set {} s.tel.sessions k x } }

/-- A copy counted for session `k` as written or sent (`ok`) or dropped (R623). -/
def State.countCopy (s : State) (k : Nat) (ok : Bool) (len : Nat) : State :=
  s.cntAdd false (s.rd TEL_CNTBASE.base + 2 * k + (if ok then 0 else 1)) 1 len

/-- Whether session `k` selects a packet: with probability 1 / rate_n, drawn as a free value (R620). -/
def State.selects (s : State) (k : Nat) : Bool × State :=
  let x := s.session k
  if !x.enable then (false, s)
  else if x.rate ≤ 1 then (true, s)
  else let (n, s) := s.fresh; (Config.sample n % x.rate == 0, s)

/-- One token of session `k`'s bucket: max_sps samples a second with a burst of 64, 0 meaning no cap (R620). -/
def State.takeToken (s : State) (k : Nat) : Bool × State :=
  let x := s.session k
  if x.maxSps = 0 then (true, s)
  else
    let have_ := min (64 * 10 ^ 9) (x.tok + (s.clk - x.tokAt) * x.maxSps)
    if 10 ^ 9 ≤ have_ then (true, s.setSession k { x with tok := have_ - 10 ^ 9, tokAt := s.clk })
    else (false, s.setSession k { x with tok := have_, tokAt := s.clk })

/-- The device cap of 50 × 10⁶ records a second, metered as 50 in each 1 µs (R620; DESIGN CHOICE, log entry 11). -/
def State.takeCap (s : State) : Bool × State :=
  let used := if s.clk / 1000 = s.tel.capAt then s.tel.capUsed else 0
  if used < 50 then (true, { s with tel := { s.tel with capAt := s.clk / 1000, capUsed := used + 1 } })
  else (false, s.inc TEL_SMPCAP.count)

/-- *Sample record metadata* and the captured bytes (R621). -/
def sampleBytes (g : Ring) (x : Session) (v : Sample) : List Nat :=
  let cap := min (min (x.snap * 16) v.length) (min v.bytes.length (16 * g.recSize - 16))
  let flags := v.pipe % 4 + (if v.source = 0 then 0 else 4) + (if cap < v.length then 8 else 0) + (if v.source = 0 then 0 else 16)
  leBytes 2 (cap + 32768 * phaseBit g.size g.tail) ++ [v.session, flags] ++ leBytes 2 (v.port % 256) ++ leBytes 2 v.length ++
    leBytes 4 v.ns ++ leBytes 4 v.sec ++ sliceB (v.bytes.take cap) 0 (16 * g.recSize - 16)

/-- A sample record written to its session's ring, or dropped: by the device cap, or a ring that is full, parked or not running
(R620). -/
def State.putSample (s : State) (v : Sample) : State :=
  let x := s.session v.session
  let (ok, s) := s.takeCap
  let g := s.ring x.ring
  if !ok || g.st != .running || g.kind != 5 || g.room == 0 then s.countCopy v.session false v.length
  else
    let s := s.hostWrite x.ring (g.base + 16 * g.recSize * (g.tail % g.size)) (sampleBytes g x v)
    let s := (s.setRing x.ring { s.ring x.ring with tail := (g.tail + 1) % 65536, lastTake := s.clk }).raiseRing x.ring
    s.countCopy v.session true v.length

/-- A sample that its session has selected: its bucket admits it, or it is dropped (R620). One of the FD crosses the bridge in the control
class (R28). -/
def State.writeSample (s : State) (v : Sample) : State :=
  let (ok, s) := s.takeToken v.session
  let n := flitsOf (16 + v.bytes.length)
  if !ok then s.countCopy v.session false v.length
  else if v.source = 1 then s.putSample v
  else if s.ctlFree true n then (s.ctlNow true n).putSample v
  else s.ctlWait true n (.sample v)

/-- The sessions that a forwarding result asks for: the mirror session in byte 11, and TEL_CFG.smp_session for the sample bit. -/
def State.sessionsOf (s : State) (fwd : List Nat) : List Nat :=
  let b0 := leAt fwd 0 1
  (if bitOf b0 5 then [leAt fwd 11 1] else []) ++
  (if bitOf b0 4 && s.bit TEL_CFG.smp_en then [s.rd TEL_CFG.smp_session] else [])

/-- The SAMPLE_RING sessions act at the end of the ingress ply (*Session kinds*): `v` describes the packet slot. While the bridge
is lost the copy is dropped. -/
def State.sampleIngress (s : State) (fwd : List Nat) (v : Sample) : State :=
  (s.sessionsOf fwd).foldl (fun s k =>
    if (s.session k).kind ≠ 0 then s
    else
      let (sel, s) := s.selects k
      if !sel then s
      else if !s.bridgeUp then s.countCopy k false v.length
      else s.writeSample { v with session := k }) s

end Sys2Proof.Machine
end

