-- ==== Sys2Proof/Machine/Engine.lean ====
section
/-! DEFINITION. What every engine operation shares (02_packet_engines.md): plies and their memory, faults, the end of a ply, the
bundle under way, and its effect (R50 to R82, R97 to R103). -/
namespace Sys2Proof.Machine

/-! ### Plies and clusters -/

/-- Ply `k`, while it is in flight. -/
def State.ply (s : State) (k : Nat) : Option Ply := (s.eng.plies.find? (fun e => e.1 == k)).map (·.2)

/-- Ply `k` replaced. -/
def State.setPly (s : State) (k : Nat) (p : Ply) : State := { s with eng := { s.eng with plies := Tbl.ins k p s.eng.plies } }

/-- What a cluster holds beyond its registers. -/
def State.cluster (s : State) (c : Nat) : Cluster := Tbl.get {} s.eng.clusters c

/-- A cluster replaced. -/
def State.setCluster (s : State) (c : Nat) (x : Cluster) : State :=
  { s with eng := { s.eng with clusters := Tbl.set {} s.eng.clusters c x } }

/-- Plies in flight in a cluster that satisfy `f`. -/
def State.pliesOf (s : State) (c : Nat) (f : Ply → Bool) : Nat :=
  (s.eng.plies.filter (fun e => e.2.cluster == c && f e.2)).length

/-- The state field of a bank (*Bank states*), and its loaded length and version. -/
def bankState (c b : Nat) : Fld := if b = 0 then ENG_BANKSTAT.bank0_state c else ENG_BANKSTAT.bank1_state c
def bankLen (c b : Nat) : Fld := if b = 0 then ENG_BANKLEN0.length c else ENG_BANKLEN1.length c
def bankVersion (c b : Nat) : Fld := if b = 0 then ENG_BANKLEN0.version c else ENG_BANKLEN1.version c

/-- Key of a bundle in the instruction stores. -/
def bunKey (c b pc : Nat) : Nat := (2 * c + b) * 32768 + pc

/-- The bundle at an address of a bank. -/
def State.bundle (s : State) (c b pc : Nat) : Nat := Tbl.get 0 s.eng.bundles (bunKey c b pc)

/-- The epoch of an engine slot (R516). -/
def State.engEpoch (s : State) (c slot : Nat) : Nat := Tbl.get 0 s.eng.epochs (64 * c + slot)

/-! ### Memory of a ply (*Engine address map*) -/

/-- The regions that a ply addresses, with the offset in them. -/
inductive Region where
  | frame (o : Nat)
  | slot (o : Nat)
  | prog (o : Nat)
  deriving DecidableEq, Repr

/-- Where an access of `w` bytes falls; none outside the map (R58). -/
def locate (a w : Nat) : Option Region :=
  if a + w ≤ 0x100 then some (.frame a)
  else if 0x10000 ≤ a ∧ a + w ≤ 0x10200 then some (.slot (a - 0x10000))
  else if 0x100000 ≤ a ∧ a + w ≤ 0x180000 then some (.prog (a - 0x100000))
  else none

/-- Bytes of the frame and of the packet slot; one that nothing has written is a free value (R54). -/
def Ply.frameByte (p : Ply) (o : Nat) : Nat :=
  match Tbl.get none p.frame o with
  | some b => b.toNat
  | none => (Config.plyFrame p.seed o).toNat
def Ply.slotByte (p : Ply) (o : Nat) : Nat :=
  match Tbl.get none p.mem o with
  | some b => b.toNat
  | none => (Config.plyFrame p.seed (0x10000 + o)).toNat
def Ply.slotBytes (p : Ply) (o n : Nat) : List Nat := (List.range n).map (fun i => p.slotByte (o + i))

/-- Bytes written to a byte table from an offset. -/
def putBytes (t : Tbl (Option Byte)) (o : Nat) : List Nat → Tbl (Option Byte)
  | [] => t
  | b :: r => putBytes (Tbl.set none t o (some (BitVec.ofNat 8 b))) (o + 1) r

/-- Program data of a cluster (R60). -/
def State.pdataByte (s : State) (c o : Nat) : Nat := (Tbl.get (0 : Byte) s.eng.pdata (524288 * c + o)).toNat
def State.setPdata (s : State) (c o : Nat) : List Nat → State
  | [] => s
  | b :: r =>
    { s with eng := { s.eng with pdata := Tbl.set (0 : Byte) s.eng.pdata (524288 * c + o) (BitVec.ofNat 8 b) } }.setPdata c (o + 1) r

/-- `n` bytes of a region. -/
def State.regionBytes (s : State) (p : Ply) (r : Region) (n : Nat) : List Nat :=
  (List.range n).map (fun i => match r with
    | .frame o => p.frameByte (o + i)
    | .slot o => p.slotByte (o + i)
    | .prog o => s.pdataByte p.cluster (o + i))

/-! ### The end of a ply -/

/-- Where a packet goes from its ply: to its pipe's bridge-entry queue, or to the MAC. -/
def State.leave (s : State) (egress : Bool) (k : Packet) : State :=
  if egress then { s with eng := { s.eng with toMac := s.eng.toMac ++ [(k.outPort, { k with ord := 0 })] } }
  else s.bridgeEnter { k with ord := 0 }

/-- Key of the order of an input (R261): a line port, or 256 + inject ring, of an ingress ply. -/
def inKey (input : Nat) : Nat := 2 * input

/-- Key of the order of an egress queue, whose packets reach their port in queue order. -/
def outKey (queue : Nat) : Nat := 2 * queue + 1

/-- A packet takes the next place in an order. -/
def State.orderEnter (s : State) (key : Nat) (k : Packet) : Packet × State :=
  let n := s.eng.nextOrd
  ({ k with ord := n }, { s with eng := { s.eng with nextOrd := n + 1, order := s.eng.order ++ [{ key := key, id := n }] } })

/-- The packets at the front of an order whose plies have ended leave. -/
def State.orderRun (key : Nat) : Nat → State → State
  | 0, s => s
  | n + 1, s =>
    match s.eng.order.find? (fun e => e.key == key) with
    | none => s
    | some e =>
      if !e.over_ then s
      else
        let t := { s with eng := { s.eng with order := s.eng.order.filter (fun x => x.id != e.id) } }
        State.orderRun key n (match e.out with
          | some k => t.leave (key % 2 == 1) k
          | none => t)

/-- The ply of a packet has ended with what leaves it: that waits for the packets before it in its order (R261). -/
def State.orderEnd (s : State) (egress : Bool) (ord : Nat) (out : Option Packet) : State :=
  match s.eng.order.find? (fun e => e.id == ord) with
  | some e =>
    let l := s.eng.order.map (fun x => if x.id = ord then { x with over_ := true, out := out } else x)
    State.orderRun e.key l.length { s with eng := { s.eng with order := l } }
  | none => match out with
    | some k => s.leave egress k
    | none => s

/-- A ply leaves its engine (R71): its frame and slot are freed at once, ENG_PLYCNT counts it. -/
def State.freePly (s : State) (k : Nat) : State :=
  match s.ply k with
  | none => s
  | some p =>
    let s := { s with eng := { s.eng with plies := Tbl.erase s.eng.plies k } }
    let s := s.addWrap (ENG_PLYCNT.count p.cluster) 1
    let s := s.wr (ENG_CLSTAT.slots_used p.cluster) (s.pliesOf p.cluster (fun _ => true))
    s.setCluster p.cluster { s.cluster p.cluster with progress := s.clk }

/-- A ply leaves its engine and its packet goes nowhere. -/
def State.endPly (s : State) (k : Nat) : State :=
  match s.ply k with
  | none => s
  | some p => (s.freePly k).orderEnd p.egress p.pkt.ord none

/-- A program fault of ply `k` (R97, R102, R103): counted under its cause, captured when no capture is held, posted when enabled,
and the ply ends with its packet dropped. -/
def State.plyFault (s : State) (k : Nat) (cause detail : Nat) : State :=
  match s.ply k with
  | none => s
  | some p =>
    let c := p.cluster
    let s := s.inc (ENG_FLTCNT.count c cause)
    let s := if s.bit (ENG_FAULTCAP0.valid c) then s
      else
        let s := (((s.wr (ENG_FAULTCAP0.valid c) 1).wr (ENG_FAULTCAP0.bank c) p.bank).wr (ENG_FAULTCAP0.slot c) p.slot)
        let s := (s.wr (ENG_FAULTCAP0.cause c) cause).wr (ENG_FAULTCAP0.bundle c) p.pc
        (s.wr (ENG_FAULTCAP1.detail c) detail).wr (ENG_FAULTCAP2.time_ns c) (s.fdNs % 10 ^ 9)
    let unit := 16 * c + cause
    let s := if bitOf (s.rd (ENG_EVTEN.cause_en c)) cause then
        s.postRated 0x0101 unit (ms 1) 1 (fun n => [c, cause, 0, 0] ++ leBytes 4 n)
      else { s with evSum := Tbl.upd 0 s.evSum (evKey 0x0101 unit) (· + 1) }
    s.endPly k

/-- The epoch of an engine slot advances (R517). -/
def State.bumpEpoch (s : State) (c slot : Nat) : State :=
  { s with eng := { s.eng with epochs := Tbl.upd 0 s.eng.epochs (64 * c + slot) (fun e => (e + 1) % 256) } }

/-- The slot of a dead engine: a promotion to a free spare starts (R104), or with none free the slot is OUT (R107). -/
def State.slotLost (s : State) (c slot : Nat) : State :=
  let x := s.cluster c
  if x.promoting.length < s.rd (ENG_SPARES.free c) then s.setCluster c { x with promoting := x.promoting ++ [(slot, s.clk)] }
  else (s.wr (ENG_SLOTMAP.state c slot) 2).post 0x0106 [c, slot]

/-- The engine that serves a logical slot is declared dead (R104, R107, R517, R518, R520): its plies end as ENGINE_LOST, its epoch advances,
it is RESIGNED, and its slot goes to a spare or is OUT. -/
def State.engineDead (s : State) (c slot cause : Nat) : State :=
  if s.rd (ENG_SLOTMAP.state c slot) = 2 ∨ (s.cluster c).promoting.any (fun e => e.1 == slot) then s
  else
    let s := (s.eng.plies.filter (fun e => e.2.cluster == c && e.2.slot == slot)).foldl (fun t e => t.plyFault e.1 0x9 0) s
    let s := s.bumpEpoch c slot
    let s := { s with eng := { s.eng with givenAt := Tbl.erase s.eng.givenAt (64 * c + slot),
                                          eccAt := Tbl.erase s.eng.eccAt (64 * c + slot) } }
    let x := s.cluster c
    ((s.setCluster c { x with resigned := x.resigned + 1 }).resign 2 c slot cause).slotLost c slot

/-- An uncorrectable error of an engine slot's register file or frame store: the third within 1 s declares the engine dead (R520). -/
def State.eccSeen (s : State) (c slot : Nat) : State :=
  let l := s.clk :: (Tbl.get [] s.eng.eccAt (64 * c + slot)).filter (fun t => !s.elapsed t (ms 1000))
  if 3 ≤ l.length then s.engineDead c slot 3
  else { s with eng := { s.eng with eccAt := Tbl.set [] s.eng.eccAt (64 * c + slot) l } }

/-- A read of a ply's frame or packet slot meets an uncorrectable error: FRAME_ECC, which counts against the engine (R97, R520). -/
def State.frameEcc (s : State) (k : Nat) : State :=
  match s.ply k with
  | none => s
  | some p => (s.plyFault k 0x8 0).eccSeen p.cluster p.slot

/-- An access or a call of a bundle ends its ply (R97). -/
def State.accFault (s : State) (k : Nat) (p : Ply) (cause d : Nat) : State :=
  if cause = 0x8 then (s.setPly k p).frameEcc k else (s.setPly k p).plyFault k cause d

/-- The packet that leaves a ply (R76): none where the forwarding result is turned into MEM_FAULT, with the fault's detail. -/
def Ply.output (p : Ply) : Nat ⊕ List Nat :=
  let fwd := p.slotBytes 0x40 48
  let off := beNat (sliceB fwd 12 2)
  let len := beNat (sliceB fwd 14 2)
  let beyond := p.pkt.bytes.drop 320
  if leAt fwd 0 1 / 64 = 3 then .inl 0x10040
  else if 64 + p.headLen ≤ off ∨ len = 0 ∨ (384 - off) + beyond.length < len then .inl (0x10080 + off)
  else .inr ((p.slotBytes (0x80 + off) (384 - off) ++ beyond).take len)

/-- DONE (R74 to R76, R97): an ingress packet enters its pipe's bridge-entry queue, an egress packet goes to the MAC. -/
def State.plyDone (s : State) (k : Nat) : State :=
  match s.ply k with
  | none => s
  | some p =>
    if p.ecc then s.frameEcc k
    else match p.output with
    | .inl d => s.plyFault k 0x3 d
    | .inr out =>
      let fwd := p.slotBytes 0x40 48
      let s := s.freePly k
      if p.egress then
        let off := beNat (sliceB fwd 12 2)
        let k : Packet := { p.pkt with bytes := out, fwd := fwd, tstamp := bitOf (leAt fwd 0 1) 3,
                                       tsCtl := if off < 4 then none else some (p.slotBytes (0x7C + off) 4) }
        s.orderEnd true p.pkt.ord (some k)
      else
        let fwd := patchB fwd 7 [p.pkt.port % 256]
        let off := beNat (sliceB fwd 12 2)
        let s := s.sampleIngress fwd
          { session := 0, pipe := p.pkt.pipe, source := 0, port := p.pkt.port, length := out.length,
            bytes := out.take (384 - off), ns := p.pkt.ns, sec := p.pkt.sec }
        s.orderEnd false p.pkt.ord (some { p.pkt with bytes := out, fwd := fwd })

/-- DROP with a reason (R78). -/
def State.plyDrop (s : State) (k reason : Nat) : State :=
  match s.ply k with
  | none => s
  | some p => (s.cntAdd true (s.rd ENG_DROPBASE.base + 256 * p.pkt.pipe + reason) 1 p.pkt.bytes.length).endPly k

/-- RECYCLE (R55, R77, R97): the packet re-enters ingress of its pipe through the recycle port, or at a count of 3 is dropped with
reason 255. -/
def State.plyRecycle (s : State) (k : Nat) : State :=
  match s.ply k with
  | none => s
  | some p =>
    if 3 ≤ p.pkt.recycle then s.plyDrop k 255
    else if p.ecc then s.frameEcc k
    else match p.output with
      | .inl d => s.plyFault k 0x3 d
      | .inr out =>
        let q : Packet := { p.pkt with bytes := out, port := 128 + p.pkt.pipe, recycle := p.pkt.recycle + 1, entry := 2, fwd := [], ord := 0, inj := none }
        let s := s.endPly k
        { s with eng := { s.eng with arriving := Tbl.upd [] s.eng.arriving q.pipe (fun l => l ++ [q]) } }

/-! ### A bundle under way (R62 to R66) -/

/-- The effect of a bundle's memory access: the fault's cause and detail, or the state and ply after it (R57, R58, R60). -/
def State.memAccess (s : State) (p : Ply) (m : MemAcc) : (Nat × Nat) ⊕ (State × Ply) :=
  let setReg := fun (p : Ply) (r : Nat) (v : Word64) => if r = 0 then p else { p with g := Tbl.set 0 p.g r v }
  match m with
  | .load rd a w =>
    if a % w ≠ 0 then .inl (0x3, a)
    else match locate a w with
      | none => .inl (0x3, a)
      | some (.prog o) => .inr (s, setReg p rd (BitVec.ofNat 64 (beNat (s.regionBytes p (.prog o) w))))
      | some r => if p.ecc then .inl (0x8, 0) else .inr (s, setReg p rd (BitVec.ofNat 64 (beNat (s.regionBytes p r w))))
  | .store a w v =>
    if a % w ≠ 0 then .inl (0x3, a)
    else match locate a w with
      | none => .inl (0x3, a)
      | some (.prog o) => .inr (s.setPdata p.cluster o (beBytes w v.toNat), p)
      | some (.frame o) =>
        if o < 128 ∧ p.tags.contains (o / 32) then .inl (0x3, a)
        else .inr (s, { p with frame := putBytes p.frame o (beBytes w v.toNat) })
      | some (.slot o) =>
        if 0x70 ≤ o ∧ o < 0x80 then .inl (0x3, a)
        else .inr (s, { p with mem := putBytes p.mem o (beBytes w v.toNat) })
  | .atom op rd a v c =>
    if a % 8 ≠ 0 then .inl (0x3, a)
    else match locate a 8 with
      | some (.prog o) =>
        let old := BitVec.ofNat 64 (beNat (s.regionBytes p (.prog o) 8))
        let new : Word64 := match op with
          | 0 => old + v
          | 1 => v
          | 2 => if old = v then c else old
          | _ => if old.toNat < v.toNat then v else old
        .inr (s.setPdata p.cluster o (beBytes 8 new.toNat), setReg p rd old)
      | _ => .inl (0x3, a)

/-- The key of a call as it stands in the frame or the packet slot (R119); empty where it breaks R120. -/
def State.callKey (s : State) (p : Ply) (a n : Nat) : List Nat :=
  if a % 8 ≠ 0 then []
  else match locate a n with
    | some (.prog _) => []
    | some r => s.regionBytes p r n
    | none => []

/-- *Lookup error reasons*. -/
def rKEYLEN : Nat := 0x01
def rSELECT : Nat := 0x02
def rFIELD : Nat := 0x03
def rADDRESS : Nat := 0x04
def rTAIL_OVERLOAD : Nat := 0x10
def rXFIB_DOWN : Nat := 0x11
def rECC : Nat := 0x12

/-- Key bytes of an EM table. -/
def State.emKeyBytes (s : State) (t : Nat) : Nat := 8 * 2 ^ s.rd (LKP_EMCFG.keylen t)

/-- The bridge table, while bridging is enabled (R175). DESIGN CHOICE (log entry 92): while bridging is disabled the device has no
bridge table, so a host write then keeps the command's bytes and BRG_DOMSTAT.entries reads 0. -/
def State.bridgeTable (s : State) : Option Nat := if s.bit BRG_CFG.enable then some (s.rd BRG_CFG.table) else none

/-- The key error of a call that names a table or a profile, as the registers stand when it is presented: the first of ADDRESS, SELECT and
KEYLEN (R121, R122, R176). The other accelerators' key errors lie in the call alone. -/
def State.tableErr (s : State) (accel select : Nat) (key : List Nat) : Option Nat :=
  let pick := fun (named : Bool) n => if key = [] then some rADDRESS else if !named then some rSELECT
    else if key.length ≠ n then some rKEYLEN else none
  match accel with
  | 1 => pick (s.rd (LKP_EMCFG.enable select) == 1) (s.emKeyBytes select)
  | 2 => pick (decide (select < 8) && s.rd (LKP_TERPROF.enable select) == 1) (8 * s.rd (LKP_TERPROF.width select))
  | 6 => pick (s.bridgeTable == some select) 16
  | _ => none

/-- A call handed to its accelerator. -/
def State.present (s : State) (k : Nat) (p : Ply) (a imm : Nat) : State :=
  let key := s.callKey p a (8 * callKeylen imm)
  let call : Call := { ply := k, cluster := p.cluster, slot := p.slot, epoch := p.epoch, tag := callTag imm, accel := callAccel imm,
                       select := callSelect imm, key := key, pipe := p.pkt.pipe,
                       length := p.pkt.rxLen, result := none, tail := false, at_ := s.clk,
                       err := s.tableErr (callAccel imm) (callSelect imm) key }
  { s with eng := { s.eng with calls := Tbl.ins s.eng.nextCall call s.eng.calls, nextCall := s.eng.nextCall + 1 } }

/-- The accelerator operation of a bundle (R68, R69, R72): a fault, or the state and ply after it. -/
def State.callAccess (s : State) (k : Nat) (p : Ply) (c : CallAcc) : (Nat × Nat) ⊕ (State × Ply) :=
  match c with
  | .call rd a imm =>
    if p.tags.contains (callTag imm) then .inl (0x5, callTag imm)
    else if p.ecc then .inl (0x8, 0)
    else .inr (s.present k p a imm, { p with tags := insNat (callTag imm) p.tags, parked := [callTag imm], callRd := some (rd, callTag imm) })
  | .calln a imm =>
    if p.tags.contains (callTag imm) then .inl (0x5, callTag imm)
    else if p.ecc then .inl (0x8, 0)
    else .inr (s.present k p a imm, { p with tags := insNat (callTag imm) p.tags })
  | .wait tags => .inr (s, { p with parked := p.tags.filter (fun t => bitOf tags t) })
  | .post a imm =>
    if 8 ≤ p.posts then .inl (0x6, 0)
    else if p.ecc then .inl (0x8, 0)
    else .inr (s.present k p a imm, { p with posts := p.posts + 1 })

/-- The register and predicate writes of a bundle, together (R62); g0 and p0 discard theirs. -/
def Ply.withWrites (p : Ply) (i : Issue) : Ply :=
  let g := i.regs.foldl (fun t w => if w.1 = 0 then t else Tbl.set 0 t w.1 w.2) p.g
  let q := i.preds.foldl (fun l w => if w.1 = 0 then l else if w.2 then insNat w.1 l else l.filter (· != w.1)) p.p
  { p with g := g, p := q, issue := none }

/-- The context watchdog flag of a ply has fallen (R99). -/
def State.watchdogDue (s : State) (p : Ply) : Bool := s.elapsed p.start (us (s.rd (ENG_LIMITS.ctx_wd p.cluster)))

/-- Whether a bundle ends its ply by its own operation. -/
def BundleEnd.ends : BundleEnd → Bool
  | .done => true
  | .drop _ => true
  | .trap _ => true
  | .recycle => true
  | _ => false

/-- A ply goes on at a bundle; one that has parked gives its context up (R51). -/
def Ply.onward (p : Ply) (pc : Nat) : Ply := { p with pc := pc, ctx := p.parked.isEmpty && p.ctx }

/-- A bundle takes effect (R62): the register and predicate writes, then the memory access, then the call, then the branch or ply
end of slot 2. Where the watchdog flag has fallen as the ply issues its ending bundle, the watchdog wins (R100). -/
def State.commit (s : State) (k : Nat) (p : Ply) (i : Issue) : State :=
  let p1 := p.withWrites i
  if i.fin.any BundleEnd.ends && s.watchdogDue p then s.plyFault k 0x2 0
  else match (match i.mem with
    | some m => s.memAccess p1 m
    | none => .inr (s, p1)) with
  | .inl (cause, d) => s.accFault k p1 cause d
  | .inr (s, p2) =>
    match (match i.call with
      | some c => s.callAccess k p2 c
      | none => .inr (s, p2)) with
    | .inl (cause, d) => s.accFault k p2 cause d
    | .inr (s, p3) =>
      match i.fin with
      | none => s.setPly k (p3.onward (p3.pc + 1))
      | some (.go t) => s.setPly k (p3.onward t)
      | some .done => (s.setPly k p3).plyDone k
      | some (.drop r) => (s.setPly k p3).plyDrop k r
      | some (.trap c) => (s.setPly k p3).plyFault k 0x0 c
      | some .recycle => (s.setPly k p3).plyRecycle k
      | some (.fault cause d) => (s.setPly k p3).plyFault k cause d

/-- The start of a bundle (R80, R97, R98, R101): what ends the ply instead, as cause and detail. Where several hold at once the spec gives no
order; the model takes BRANCH_FAULT, BUDGET, INSN_ECC (DESIGN CHOICE, log entry 89). -/
def State.startFault (s : State) (p : Ply) : Option (Nat × Nat) :=
  if s.rd (bankLen p.cluster p.bank) ≤ p.pc then some (0x4, s.rd (bankLen p.cluster p.bank))
  else if s.rd (ENG_LIMITS.bundle_limit p.cluster) ≤ p.bundles then some (0x1, 0)
  else if s.eng.insnEcc.contains (bunKey p.cluster p.bank p.pc) then some (0x7, 0)
  else none

/-- A bundle of ply `k` is issued: it counts against the budget and in ENG_BUNDLECNT (R63, R80). -/
def State.startBundle (s : State) (p : Ply) : State × Ply :=
  let s := s.addWrap (ENG_BUNDLECNT.count p.cluster) 1
  ({ s with eng := { s.eng with givenAt := Tbl.erase s.eng.givenAt (64 * p.cluster + p.slot) } },
   { p with bundles := p.bundles + 1, issue := some {} })

/-- One operation of a bundle under way: `f` records what it asks for unless its predicate gates it off (R63). After the last valid
slot the bundle takes effect. -/
def State.runOp (s : State) (k : Nat) (p : Ply) (i : Issue) (slot : Nat) (f : Nat → Ply → EOp → Issue → Issue) : State :=
  let w := s.bundle p.cluster p.bank p.pc
  let o := decodeOp w slot
  let i := if o.gated p then f (s.rd (bankLen p.cluster p.bank)) p o i else i
  match nextSlot w (slot + 1) with
  | none => s.commit k p i
  | some n => s.setPly k { p with issue := some { i with slot := n } }

/-- Contexts in use of the engine of a logical slot. -/
def State.ctxUsed (s : State) (c slot : Nat) : Nat := s.pliesOf c (fun p => p.slot == slot && p.ctx)

/-- A ply has a context, or one of the 8 of its engine is free for it (R51). -/
def State.canRun (s : State) (p : Ply) : Bool := p.ctx || decide (s.ctxUsed p.cluster p.slot < 8)

/-- Issues the next operation of ply `k`, if the ply runs on a context and that operation has opcode `opc`: at the start of a bundle the
checks of `startFault` come first, and a barrier holds it until no call is outstanding. A bundle without a valid slot is a NOP. A ply that
resumes has its registers moved from its frame (R51). -/
def State.issueOp (opc k : Nat) (f : Nat → Ply → EOp → Issue → Issue) (s : State) : State :=
  match s.ply k with
  | none => s
  | some p =>
    if p.parked ≠ [] ∨ !s.canRun p then s
    else if p.ecc && !p.ctx && decide (0 < p.bundles) then s.frameEcc k
    else
      let p := { p with ctx := true }
      let w := s.bundle p.cluster p.bank p.pc
      match p.issue with
      | some i => if (decodeOp w i.slot).opcode = opc then s.runOp k p i i.slot f else s
      | none =>
        match s.startFault p with
        | some (cause, d) =>
          let s := if cause = 0x7 then s.post 0x0102 ([p.cluster, p.bank] ++ leBytes 2 p.pc) else s
          s.plyFault k cause d
        | none =>
          if bunBarrier w ∧ p.tags ≠ [] then s
          else match nextSlot w 0 with
            | none => if opc = 0 then let (s', p') := s.startBundle p; s'.commit k p' {} else s
            | some slot =>
              if (decodeOp w slot).opcode = opc then let (s', p') := s.startBundle p; s'.runOp k p' {} slot f else s

/-! ### What the operations ask for -/

/-- An operation that writes rd. -/
def aluOp (g : Ply → EOp → Word64) (_len : Nat) (p : Ply) (o : EOp) (i : Issue) : Issue :=
  { i with regs := i.regs ++ [(o.rd, g p o)] }

/-- A two-operand operation on ra and B. -/
def alu2 (g : Word64 → Word64 → Word64) : Nat → Ply → EOp → Issue → Issue := aluOp (fun p o => g (p.reg o.ra) (o.bVal p))

/-- A compare that writes pd. -/
def cmpOp (opcode : Nat) (_len : Nat) (p : Ply) (o : EOp) (i : Issue) : Issue :=
  { i with preds := i.preds ++ [(o.rd % 8, compareOp opcode (p.reg o.ra) (o.bVal p))] }

/-- Predicate logic on pa and pb. -/
def predOp (g : Bool → Bool → Bool) (_len : Nat) (p : Ply) (o : EOp) (i : Issue) : Issue :=
  { i with preds := i.preds ++ [(o.rd % 8, g (p.pred (o.ra % 8)) (p.pred (bitsAt o.b 13 3)))] }

/-- A load of `w` bytes. -/
def loadOp (w : Nat) (_len : Nat) (p : Ply) (o : EOp) (i : Issue) : Issue := { i with mem := some (.load o.rd (o.addr p) w) }

/-- A store of `w` bytes of rd. -/
def storeOp (w : Nat) (_len : Nat) (p : Ply) (o : EOp) (i : Issue) : Issue :=
  { i with mem := some (.store (o.addr p) w (p.reg o.rd)) }

/-- An atomic; ACAS takes its address from ra alone and its new value from the register in b. -/
def atomOp (op : Nat) (_len : Nat) (p : Ply) (o : EOp) (i : Issue) : Issue :=
  let a := if op = 2 then (p.reg o.ra).toNat else o.addr p
  { i with mem := some (.atom op o.rd a (p.reg o.rd) (p.reg (bitsAt o.b 13 5))) }

/-- A branch to a bundle whose target was not known at load: beyond the loaded length it is BRANCH_FAULT. -/
def goOrFault (len t detail : Nat) : BundleEnd := if len ≤ t then .fault 0x4 detail else .go t

/-- BR and CALLS. -/
def brOp (link : Bool) (len : Nat) (p : Ply) (o : EOp) (i : Issue) : Issue :=
  let t := (o.bVal p).toNat % 2 ^ 15
  let i := if link then { i with regs := i.regs ++ [(31, BitVec.ofNat 64 (p.pc + 1))] } else i
  { i with fin := some (if o.imm then .go t else goOrFault len t t) }

/-- BRR. -/
def brrOp (len : Nat) (p : Ply) (o : EOp) (i : Issue) : Issue :=
  let v := (p.reg o.ra).toNat
  { i with fin := some (if 2 ^ 15 ≤ v then .fault 0x4 (v % 2 ^ 32) else goOrFault len v (v % 2 ^ 32)) }

/-- RET. -/
def retOp (len : Nat) (p : Ply) (_o : EOp) (i : Issue) : Issue :=
  let t := (p.reg 31).toNat % 2 ^ 15
  { i with fin := some (goOrFault len t t) }

/-- CALL, CALLN, WAIT and POST. -/
def callOp (_len : Nat) (p : Ply) (o : EOp) (i : Issue) : Issue := { i with call := some (.call o.rd (p.reg o.ra).toNat o.b) }
def callnOp (_len : Nat) (p : Ply) (o : EOp) (i : Issue) : Issue := { i with call := some (.calln (p.reg o.ra).toNat o.b) }
def waitOp (_len : Nat) (_p : Ply) (o : EOp) (i : Issue) : Issue := { i with call := some (.wait (o.b % 16)) }
def postOp (_len : Nat) (p : Ply) (o : EOp) (i : Issue) : Issue := { i with call := some (.post (p.reg o.ra).toNat o.b) }

/-- Ply ends. -/
def finOp (e : EOp → BundleEnd) (_len : Nat) (_p : Ply) (o : EOp) (i : Issue) : Issue := { i with fin := some (e o) }

end Sys2Proof.Machine
end

