-- ==== Sys2Proof/Machine/EngineRows.lean ====
section
/-! DEFINITION. The commands of the engines that are no operation of a program (02_packet_engines.md): dispatch, call results, the
context watchdog, role drains, bank drains and spares. -/
namespace Sys2Proof.Machine

/-! ### Dispatch (R54, R82 to R85, R93, R661, R662) -/

/-- The dispatch queue of a pipe. -/
def State.dispQ (s : State) (egress : Bool) (p : Nat) : List Packet :=
  Tbl.get [] (if egress then s.eng.egressQ else s.eng.ingressQ) p

/-- Key of a pipe's dispatch queue of a direction. -/
def dispKey (egress : Bool) (p : Nat) : Nat := 2 * p + b2n egress

/-- The dispatch queue of a pipe replaced; the clock at which it fills is kept (R522). -/
def State.setDispQ (s : State) (egress : Bool) (p : Nat) (q : List Packet) : State :=
  let s := { s with eng := { s.eng with queuedAt := Tbl.upd 0 s.eng.queuedAt (dispKey egress p) (fun t =>
    if q.isEmpty then 0 else if t = 0 then s.clk + 1 else t) } }
  if egress then { s with eng := { s.eng with egressQ := Tbl.set [] s.eng.egressQ p q } }
  else { s with eng := { s.eng with ingressQ := Tbl.set [] s.eng.ingressQ p q } }

/-- Logical slots that take plies: not OUT, no promotion in progress (R105, R107), with a free frame (R50). -/
def State.openSlots (s : State) (c : Nat) : List Nat :=
  (List.range 64).filter (fun k => s.rd (ENG_SLOTMAP.state c k) != 2 && !(s.cluster c).promoting.any (fun e => e.1 == k) &&
    decide (s.pliesOf c (fun p => p.slot == k) < 64))

/-- Whether a cluster takes plies of a role (0 INGRESS, 1 EGRESS) now (R86, R87, R522, R662). -/
def State.takesPlies (s : State) (c role : Nat) : Bool :=
  s.rd (ENG_CLROLE.role c) == role && s.rd (ENG_CLSTAT.role_now c) == role && !s.bit (ENG_CLSTAT.draining c) &&
  (s.cluster c).resetAt.isNone && s.rd (bankState c (s.rd (ENG_BANKCTL.live_bank c))) == 3 &&
  decide (s.pliesOf c (fun _ => true) < 3072) && !(s.openSlots c).isEmpty

/-- The first of `l` for which `f` is largest. -/
def argMax (f : Nat → Nat) : List Nat → Option Nat
  | [] => none
  | x :: r => match argMax f r with
    | none => some x
    | some y => if f x < f y then some y else some x

/-- The dispatcher's choice (R82): the cluster with the most free packet slots, then the slot with the most free frames. -/
def State.dispatchTo (s : State) (pipe : Nat) (egress : Bool) : Option (Nat × Nat) :=
  let role := if egress then 1 else 0
  let cs := ((List.range 6).map (fun i => 6 * pipe + i)).filter (fun c => s.takesPlies c role)
  match argMax (fun c => 3072 - s.pliesOf c (fun _ => true)) cs with
  | none => none
  | some c => (argMax (fun k => 64 - s.pliesOf c (fun p => p.slot == k)) (s.openSlots c)).map (fun k => (c, k))

/-- A requested flip takes effect at the next dispatch (R93): the other bank is LIVE and the old one DRAINING. A flip whose bank is no longer
READY is refused (R92). -/
def State.takeFlip (s : State) (c : Nat) : State :=
  let b := s.rd (ENG_BANKCTL.live_bank c)
  let t := s.wr (ENG_BANKCTL.flip c) 0
  if !s.bit (ENG_BANKCTL.flip c) then s
  else if s.rd (bankState c (1 - b)) ≠ 2 then t
  else
    let t := if s.rd (bankState c b) = 3 then t.wr (bankState c b) 4 else t
    (t.wr (bankState c (1 - b)) 3).wr (ENG_BANKCTL.live_bank c) (1 - b)

/-- A flip requested while the other bank is READY (R92, R93). A cluster whose live bank holds no program dispatches nothing (R662), so that
its flip takes effect at once. -/
def State.askFlip (s : State) (c : Nat) : State :=
  let b := s.rd (ENG_BANKCTL.live_bank c)
  let t := s.wr (ENG_BANKCTL.flip c) 1
  if s.rd (bankState c b) = 3 then t else t.takeFlip c

/-- The forwarding result that a ply finds (R73, R661). -/
def entryResult (egress : Bool) (k : Packet) : List Nat :=
  let len := beBytes 2 k.bytes.length
  if egress then
    let f := patchB (patchB (sliceB k.fwd 0 48) 12 (beBytes 2 64)) 14 len
    patchB f 0 [putBits (leAt f 0 1) 3 1 0]
  else patchB (patchB (List.replicate 48 0) 12 (beBytes 2 64)) 14 len

/-- *Slot control*. -/
def slotControl (egress : Bool) (k : Packet) : List Nat :=
  beBytes 4 (k.sec % 2 ^ 32) ++ beBytes 4 k.ns ++ beBytes 4 (min 320 k.bytes.length * 65536 + k.bytes.length % 65536) ++
    beBytes 4 (if egress then k.queue else 0)

/-- A new ply (R54, R55, *Dispatch values*). -/
def newPly (s : State) (c slot : Nat) (egress : Bool) (k : Packet) (record : List Nat) (seed : Nat) : Ply :=
  let len := k.bytes.length
  let g1 := (if egress then k.outPort else k.port) % 256 + k.pipe % 4 * 256 + b2n egress * 1024 + k.recycle % 4 * 4096
  let g := Tbl.set (0 : Word64) (Tbl.set 0 (Tbl.set 0 [] 1 (BitVec.ofNat 64 g1)) 2 (BitVec.ofNat 64 (len % 65536))) 3
    (BitVec.ofNat 64 (beNat (record.take 8)))
  let mem := putBytes (putBytes (putBytes (putBytes [] 0 (sliceB record 0 64)) 0x40 (entryResult egress k)) 0x70
    (slotControl egress k)) 0xC0 (k.bytes.take 320)
  { cluster := c, slot := slot, epoch := s.engEpoch c slot, egress := egress, bank := s.rd (ENG_BANKCTL.live_bank c), pc := k.entry,
    g := g, mem := mem, seed := seed, headLen := min 320 len, pkt := k, start := s.clk }

/-- The inject descriptor of a packet completes DONE, if its ring still holds it (R387). -/
def State.injected (s : State) (k : Packet) : State :=
  match k.inj with
  | none => s
  | some r =>
    match (s.ring r).taken with
    | some t => if t.op = 0x70 ∧ t.waits ∧ t.cursor = k.ord then s.finDone r else s
    | none => s

/-- Uncorrectable errors that have come about in the engines' storage: in the frame or packet slot of a ply (true), or in a bundle of the
instruction stores by its key (R97, R101). -/
def State.upsetEng (s : State) (l : List (Bool × Nat)) : State :=
  l.foldl (fun s e =>
    if e.1 then (match s.ply e.2 with
      | some p => s.setPly e.2 { p with ecc := true }
      | none => s)
    else { s with eng := { s.eng with insnEcc := insNat e.2 s.eng.insnEcc } }) s

/-- PLY_DISPATCH (R54, R82, R93, R112): the packet at the front of a dispatch queue is parsed and given to a cluster and slot. `upsets` are the
errors that have come about in the engines' storage by then (DESIGN CHOICE, log entry 10: no row of the table brings them). -/
def execPlyDispatch (pipe : Nat) (egress : Bool) (upsets : List (Bool × Nat)) (s : State) : Out :=
  let s := s.upsetEng upsets
  match s.dispQ egress pipe, s.dispatchTo pipe egress with
  | k :: rest, some (c, slot) =>
    let s := (s.setDispQ egress pipe rest).takeFlip c
    let (record, s) := s.parse pipe k.bytes
    let (seed, s) := s.fresh
    let s := s.injected k
    let p := newPly s c slot egress { k with pipe := pipe, parse := record, entry := if egress then 1 else k.entry } record seed
    let s := { (s.setPly s.eng.nextPly p) with eng := { (s.setPly s.eng.nextPly p).eng with nextPly := s.eng.nextPly + 1 } }
    let s := s.wr (ENG_CLSTAT.slots_used c) (s.pliesOf c (fun _ => true))
    let s := { s with eng := { s.eng with givenAt := Tbl.upd 0 s.eng.givenAt (64 * c + slot) (fun t => if t = 0 then s.clk + 1 else t) } }
    .next (s.setCluster c { s.cluster c with progress := s.clk })
  | _, _ => .next s

/-- INGRESS_DISPATCH_ENQUEUE (R83): a packet joins its pipe's ingress dispatch queue of 4,096, or is dropped and counted. -/
def execIngressDispatchEnqueue (pipe : Nat) (s : State) : Out :=
  match Tbl.get [] s.eng.arriving pipe with
  | [] => .next s
  | k :: rest =>
    let s := { s with eng := { s.eng with arriving := Tbl.set [] s.eng.arriving pipe rest } }
    let q := s.dispQ false pipe
    if 4096 ≤ q.length then .next (s.inc (ENG_DISPDROP.count pipe))
    else
      let (k, s) := if k.port < 128 then s.orderEnter (inKey k.port) k else (k, s)
      .next (s.setDispQ false pipe (q ++ [k]))

/-- Whether a cluster of a pipe has the EGRESS role (R85). -/
def State.hasEgress (s : State) (pipe : Nat) : Bool := (List.range 6).any (fun i => s.rd (ENG_CLROLE.role (6 * pipe + i)) == 1)

/-- The recycle port of a pipe (*Internal ports*). -/
def recyclePort (pipe : Nat) : Nat := 128 + pipe

/-- A packet that the scheduler has sent to a recycle port re-enters ingress of its pipe (R55, R310). -/
def recycled (pipe : Nat) (k : Packet) : Packet := { k with pipe := pipe, port := recyclePort pipe, entry := 2, fwd := [], ord := 0, inj := none }

/-- EGRESS_DISPATCH_ENQUEUE (R84, R85): a packet from the bridge joins its pipe's egress dispatch queue; without an EGRESS cluster it
is dropped and counted, and a full queue holds it. One for the pipe's recycle port goes to ingress dispatch. -/
def execEgressDispatchEnqueue (pipe : Nat) (s : State) : Out :=
  match s.dies.tf.arrived.findIdx? (fun k => k.outPort / 32 == pipe || k.outPort == recyclePort pipe) with
  | none => .next s
  | some i =>
    match s.dies.tf.arrived[i]? with
    | none => .next s
    | some k =>
      let out := s.setDir false { s.dies.tf with arrived := s.dies.tf.arrived.eraseIdx i }
      if k.outPort = recyclePort pipe then
        .next { out with eng := { out.eng with arriving := Tbl.upd [] out.eng.arriving pipe (fun l => l ++ [recycled pipe k]) } }
      else if !s.hasEgress pipe then .next (out.inc (ENG_NOEGR.count pipe))
      else
        let q := s.dispQ true pipe
        if 4096 ≤ q.length then .next s
        else
          let (k, out) := out.orderEnter (outKey k.queue) k
          .next (out.setDispQ true pipe (q ++ [{ k with pipe := pipe }]))

/-! ### Call results and the watchdog -/

/-- CALL_RESULT_WRITTEN (R51, R71, R100, R106): the result of a call is written to its ply's buffer, and a ply that waited for no other tag is
ready; where the ply's watchdog flag has fallen by then, the watchdog wins. A result for a ply that has ended is discarded, counted as stale when its engine has been resigned since. -/
def execCallResultWritten (call : Nat) (s : State) : Out :=
  match s.eng.calls.find? (fun e => e.1 == call) with
  | none => .next s
  | some (_, c) =>
    match c.result with
    | none => .next s
    | some r =>
      let s := { s with eng := { s.eng with calls := Tbl.erase s.eng.calls call } }
      match s.ply c.ply with
      | none => .next (if s.engEpoch c.cluster c.slot = c.epoch then s else s.inc SEAT_STALE_ENG.count)
      | some p =>
        if s.watchdogDue p then .next (s.plyFault c.ply 0x2 0)
        else
        let p := { p with frame := putBytes p.frame (32 * c.tag) (sliceB r 0 32), tags := p.tags.filter (· != c.tag),
                          parked := p.parked.filter (· != c.tag) }
        match p.callRd with
        | some (rd, t) =>
          if t = c.tag then
            let g := if rd = 0 then p.g else Tbl.set 0 p.g rd (BitVec.ofNat 64 (beNat (r.take 8)))
            .next (s.setPly c.ply { p with g := g, callRd := none })
          else .next (s.setPly c.ply p)
        | none => .next (s.setPly c.ply p)

/-- A cluster is reset (R522): every ply ends with WATCHDOG, its epoch advances, and it takes no ply until it resumes. Banks, program data,
role, limits and slot map are kept. -/
def State.clusterReset (s : State) (c : Nat) : State :=
  let mine := s.eng.plies.filter (fun e => e.2.cluster == c)
  let s := mine.foldl (fun t e => t.plyFault e.1 0x2 0) s
  let s := (List.range 64).foldl (fun t k => t.bumpEpoch c k) s
  let s := { s with eng := { s.eng with givenAt := s.eng.givenAt.filter (fun e => e.1 / 64 != c) } }
  (s.setCluster c { s.cluster c with resetAt := some s.clk, ended := mine.length }).inc SEAT_CLRESET.count

/-- The watchdog flag of a cluster has fallen (R522): for cl_wd_us no ply of the cluster has ended and none has been dispatched to it, while its
pipe's dispatch queue for its role was not empty. -/
def State.clusterDue (s : State) (c : Nat) : Bool :=
  let role := s.rd (ENG_CLSTAT.role_now c)
  let q := Tbl.get 0 s.eng.queuedAt (dispKey (role == 1) (c / 6))
  decide (c < 24) && decide (role < 2) && (s.cluster c).resetAt.isNone && q != 0 &&
    s.elapsed (max (s.cluster c).progress (q - 1)) (us (s.rd SEAT_WDCFG.cl_wd_us))

/-- The watchdog flag of an engine has fallen (R520): it has issued no bundle for eng_wd_us since the dispatcher gave it a ply. -/
def State.engineDue (s : State) (c slot : Nat) : Bool :=
  let t := Tbl.get 0 s.eng.givenAt (64 * c + slot)
  decide (c < 24) && decide (slot < 64) && t != 0 && s.elapsed (t - 1) (us (s.rd SEAT_WDCFG.eng_wd_us))

/-- CONTEXT_WATCHDOG (R99, R100, R528): a ply outlives ctx_wd. Where the flag of its cluster or engine has fallen in the same cycle, that
one's recovery is applied; a cluster's counts the ply as WATCHDOG itself. -/
def execContextWatchdog (ply : Nat) (s : State) : Out :=
  match s.ply ply with
  | none => .next s
  | some p =>
    if !s.watchdogDue p then .next s
    else if s.clusterDue p.cluster then .next (s.clusterReset p.cluster)
    else if s.engineDue p.cluster p.slot then .next ((s.inc (ENG_FLTCNT.count p.cluster 0x2)).engineDead p.cluster p.slot 2)
    else .next (s.plyFault ply 0x2 0)

/-! ### Roles, banks and spares -/

/-- ROLE_DRAIN_END (R87): the last ply of the old role has ended and the cluster takes plies of the new role. -/
def execRoleDrainEnd (c : Nat) (s : State) : Out :=
  if s.bit (ENG_CLSTAT.draining c) ∧ s.pliesOf c (fun _ => true) = 0 then
    let r := s.rd (ENG_CLROLE.role c)
    .next (((s.wr (ENG_CLSTAT.draining c) 0).wr (ENG_CLSTAT.role_now c) r).post 0x0104 [c, r])
  else .next s

/-- BANK_DRAIN_END (R94): the last ply on a DRAINING bank has ended. -/
def execBankDrainEnd (c : Nat) (s : State) : Out :=
  match [0, 1].find? (fun b => s.rd (bankState c b) == 4 && s.pliesOf c (fun p => p.bank == b) == 0) with
  | some b => .next ((s.wr (bankState c b) 2).post 0x0103 [c, b])
  | none => .next s

/-- PROMOTION_DONE (R104, R107, R109): a free spare takes over a dead engine's slot; with none free the slot is OUT. -/
def execPromotionDone (c slot : Nat) (s : State) : Out :=
  let x := s.cluster c
  if x.promoting.any (fun e => e.1 == slot) then
    let s := s.setCluster c { x with promoting := x.promoting.filter (fun e => e.1 != slot) }
    let free := s.rd (ENG_SPARES.free c)
    if free = 0 then .next ((s.wr (ENG_SLOTMAP.state c slot) 2).post 0x0106 [c, slot])
    else
      let s := s.abandonTest 0 (· == c)
      let s := ((s.wr (ENG_SPARES.free c) (free - 1)).wr (ENG_SLOTMAP.state c slot) 1).inc (ENG_SLOTMAP.promotions c slot)
      .next (s.post 0x0105 [c, slot, free - 1])
  else .next s

/-- SPARE_BACKGROUND_TEST (R108, R521): each 10 s a free spare is tested; one that fails is lost. -/
def execSpareBackgroundTest (c : Nat) (pass : Bool) (s : State) : Out :=
  let free := s.rd (ENG_SPARES.free c)
  if c < 24 ∧ 0 < free ∧ s.elapsed (Tbl.get 0 s.eng.spareTest c) (ms 10000) then
    let s := { s with eng := { s.eng with spareTest := Tbl.set 0 s.eng.spareTest c s.clk } }
    if pass then .next s else .next ((s.wr (ENG_SPARES.free c) (free - 1)).post 0x0107 [c, 0, free - 1])
  else .next s

end Sys2Proof.Machine
end

