-- ==== Sys2Proof/Machine/Sched.lean ====
section
/-! DEFINITION. The scheduler tree (07_scheduling_shaping.md, R308 to R328): eligibility, the choice of a parent, virtual times,
shapers, withdrawal and node writes. -/
namespace Sys2Proof.Machine

/-! ### Nodes -/

/-- The key of a node. -/
def nodeKey (level i : Nat) : Nat := level * 2 ^ 20 + i

/-- A node. -/
def State.node (s : State) (level i : Nat) : Node := Tbl.get {} s.sch.nodes (nodeKey level i)

/-- A node replaced. -/
def State.setNode (s : State) (level i : Nat) (x : Node) : State :=
  { s with sch := { s.sch with nodes := Tbl.set {} s.sch.nodes (nodeKey level i) x } }

/-- Nodes of a level (R308). -/
def levelSize (level : Nat) : Nat := ([1048576, 262144, 65536, 4096, 144][level]?).getD 0

/-- The port above a node: the top of its chain of parents (R309). -/
def State.portAbove (s : State) : Nat → Nat → Nat → Nat
  | 0, _, i => i
  | n + 1, level, i => s.portAbove n (level + 1) (s.node level i).parent

/-- The egress port of a queue. -/
def State.portOf (s : State) (q : Nat) : Nat := s.portAbove 4 0 q

/-! ### Shapers (R321 to R327) -/

/-- A bucket evaluated at network time `t` (R322). -/
def Shaper.eval (b : Shaper) (t : Nat) : Shaper :=
  let a := b.rem + (b.rate : Int) * ((t : Int) - b.at_)
  let tok := b.tok + a / 1000000
  if (b.burst : Int) < tok then { b with tok := b.burst, rem := 0, at_ := t } else { b with tok := tok, rem := a % 1000000, at_ := t }

/-- A node with both buckets evaluated now. -/
def State.evalNode (s : State) (x : Node) : Node := { x with comm := x.comm.eval s.netNs, peak := x.peak.eval s.netNs }

/-- The adjusted length of a packet at a node (R321). -/
def State.adjLen (s : State) (x : Node) (len : Nat) : Nat :=
  (max 1 ((len : Int) + signed 8 (s.rd (SCH_LENPROF.overhead x.lprof)))).toNat

/-- cost(L_adj, w) of R316. -/
def costOf (adj weight : Nat) : Nat := ceilDiv (adj * 65536) weight

/-- A 64-bit tag that wraps (R317). -/
def tag64 (n : Nat) : Nat := n % 2 ^ 64

/-- Whether tag `a` is earlier than `b` (R317). -/
def earlier (a b : Nat) : Bool := decide (2 ^ 63 ≤ tag64 (a + 2 ^ 64 - b))

/-- later(a, b): whichever is not earlier. -/
def laterTag (a b : Nat) : Nat := if earlier a b then b else a

/-! ### Candidates and eligibility (R311 to R313) -/

/-- The queue whose head packet is a node's candidate. -/
def State.candQueue (s : State) : Nat → Nat → Option Nat
  | 0, q => if (s.queue q).ents.isEmpty then none else some q
  | l + 1, i =>
    match (s.node (l + 1) i).pick with
    | none => none
    | some j => s.candQueue l j

/-- Length of the head packet of a queue. -/
def State.headLen (s : State) (q : Nat) : Nat :=
  match (s.queue q).ents with
  | e :: _ => e.len
  | [] => 0

/-- Length of a node's candidate. -/
def State.candLen (s : State) (level i : Nat) : Nat := s.headLen ((s.candQueue level i).getD 0)

/-- The time gate of a line port. -/
def State.gate (s : State) (p : Nat) : Gate := Tbl.get {} s.sch.gates p

/-- Whether a class of a port is stopped for the scheduler: paused by PFC (R299), the port in FAULT_PENDING (R455), or its gate
closed (R337). -/
def State.classStopped (s : State) (p cls : Nat) : Bool :=
  decide (p < 128) && (bitOf (s.rd (QM_PFCSTAT.paused p)) cls || s.portState p == 3 ||
    (s.bit (TG_CTL.enable p) && !bitOf (s.gate p).sched cls))

/-- Whether a node and every node above it are enabled (R311). -/
def State.enabledUp (s : State) : Nat → Nat → Nat → Bool
  | 0, _, _ => true
  | n + 1, level, i => (s.node level i).enable && s.enabledUp n (level + 1) (s.node level i).parent

/-- Whether a node is eligible at its parent (R311, R313). -/
def State.eligible (s : State) (level i : Nat) : Bool :=
  let x := s.node level i
  s.enabledUp (5 - level) level i && (s.candQueue level i).isSome && (x.peak.rate == 0 || decide (0 < (x.peak.eval s.netNs).tok)) &&
    (level != 0 || (!s.classStopped (s.portOf i) (s.qClass i) &&
      (decide (128 ≤ s.portOf i) || s.rd (QM_PORTSTAT.state (s.portOf i)) == 0)))

/-! ### Tags (R316) -/

/-- The virtual time of a band of a parent. -/
def Node.vtime (x : Node) (band : Nat) : Nat := Tbl.get 0 x.v band

/-- A child forgets its history: it has lost its candidate, or joins a new parent. -/
def Node.forget (x : Node) : Node := { x with elig := false, hist := false, f := 0, c := 0 }

/-- A node's parent changed where a change waits (R319). -/
def Node.rejoin (x : Node) : Node :=
  match x.newParent with
  | some p => { x.forget with parent := p, newParent := none }
  | none => x

/-- A child's tags as its eligibility stands now; a child that its parent has selected keeps them. -/
def State.touchChild (s : State) (par : Node) (level i : Nat) : State :=
  let x := s.node level i
  if par.pick = some i then s
  else if s.eligible level i then
    if x.elig then s
    else
      let start := if x.hist then laterTag (par.vtime x.band) x.f else par.vtime x.band
      let cst := costOf (s.adjLen x (s.candLen level i)) x.weight
      s.setNode level i { x with elig := true, hist := true, c := cst, f := tag64 (start + cst) }
  else if (s.candQueue level i).isNone then
    if x.elig || x.hist then s.setNode level i x.forget.rejoin else s
  else if x.elig then s.setNode level i { x with elig := false } else s

/-- The children of a node, in index order. -/
def State.children (s : State) (level i : Nat) : List Nat :=
  match level with
  | 0 => []
  | l + 1 => ((s.sch.nodes.filter (fun e => e.1 / 2 ^ 20 == l && e.2.parent == i)).map (fun e => e.1 % 2 ^ 20))

/-- The child with the highest band and, within it, the earliest tag; the lowest index among equals. -/
def State.bestChild (s : State) (level : Nat) : List Nat → Option Nat
  | [] => none
  | i :: r =>
    match s.bestChild level r with
    | none => some i
    | some j =>
      let x := s.node level i
      let y := s.node level j
      if x.band < y.band ∨ (x.band = y.band ∧ earlier y.f x.f) then some j else some i

/-- A parent without a candidate chooses among its eligible children: the committed pass, then the excess pass (R315). -/
def State.choose (s : State) (level i : Nat) : State :=
  let x := s.node level i
  if x.pick.isSome ∨ !x.enable then s
  else
    let kids := (s.children level i).filter (fun k => (s.node (level - 1) k).elig)
    let comm := kids.filter (fun k => let b := (s.node (level - 1) k).comm; b.rate != 0 && decide (0 < (b.eval s.netNs).tok))
    let won := match s.bestChild (level - 1) comm with
      | some k => some (k, true)
      | none => (s.bestChild (level - 1) kids).map (fun k => (k, false))
    match won with
    | none => s
    | some (k, pass) =>
      let kid := s.node (level - 1) k
      s.setNode level i { x with pick := some k, commPass := pass, v := Tbl.set 0 x.v kid.band kid.f }

/-- A parent takes up what has changed below it. -/
def State.settleNode (s : State) (level i : Nat) : State :=
  ((s.children level i).foldl (fun s k => s.touchChild (s.node level i) (level - 1) k) s).choose level i

/-- The listed nodes of a level. -/
def State.nodesAt (s : State) (level : Nat) : List Nat := (s.sch.nodes.filter (fun e => e.1 / 2 ^ 20 == level)).map (fun e => e.1 % 2 ^ 20)

/-- The tree takes up what has changed, level by level. -/
def State.settle (s : State) : State :=
  [1, 2, 3, 4].foldl (fun s l => (s.nodesAt l).foldl (fun s i => s.settleNode l i) s) s

/-! ### Withdrawal (R318) -/

/-- Takes a node's candidate away from it and from every node above that had selected it: finish times fall by their cost and the
history is kept, unless a new parent waited for this (R319). -/
def State.withdrawUp (s : State) : Nat → Nat → Nat → State
  | 0, _, _ => s
  | n + 1, level, i =>
    let x := s.node level i
    let s := s.setNode level i
      ({ x with f := if x.elig then tag64 (x.f + 2 ^ 64 - x.c) else x.f, elig := false, pick := none, commPass := false } : Node).rejoin
    if level < 4 ∧ (s.node (level + 1) x.parent).pick = some i then s.withdrawUp n (level + 1) x.parent else s

/-- Withdraws the head packet of a queue, if it has been offered; counted once at the queue. -/
def State.withdraw (s : State) (q : Nat) : State :=
  let x := s.node 0 q
  if x.elig ∨ (s.node 1 x.parent).pick = some q then
    (s.withdrawUp 5 0 q).inc SCH_WITHDRAW.count
  else s

/-- The non-empty egress queues that satisfy `p`. -/
def State.queuesWhere (s : State) (p : Nat → Bool) : List Nat :=
  Tbl.keysWhere (fun k (v : Queue) => decide (k < 2 ^ 20) && !v.ents.isEmpty && p k) s.qm.queues

/-- Withdraws every offered candidate of the classes in `mask` of a port, then lets the tree choose again. -/
def State.stopClasses (s : State) (p mask : Nat) : State :=
  ((s.queuesWhere (fun q => s.portOf q == p && bitOf mask (s.qClass q))).foldl State.withdraw s).settle

/-! ### A packet leaves through the tree (R316, R323) -/

/-- The path from a queue to its port: level and node, bottom first. -/
def State.pathUp (s : State) : Nat → Nat → Nat → List (Nat × Nat)
  | 0, _, _ => []
  | n + 1, level, i => (level, i) :: s.pathUp n (level + 1) (s.node level i).parent

/-- A node is charged for a packet (R323): both buckets are evaluated, and the committed one pays when the parent chose the node in
the committed pass. -/
def State.charge (s : State) (len : Nat) (ln : Nat × Nat) : State :=
  let x := s.evalNode (s.node ln.1 ln.2)
  let adj : Int := s.adjLen x len
  let comm := decide (ln.1 < 4) && (s.node (ln.1 + 1) x.parent).commPass
  s.setNode ln.1 ln.2 { x with peak := { x.peak with tok := x.peak.tok - adj },
                               comm := { x.comm with tok := if comm then x.comm.tok - adj else x.comm.tok } }

/-- A child whose packet has gone takes its next candidate: with one, and still eligible, F rises by its cost. -/
def State.resend (s : State) (level i : Nat) : State :=
  let x := (s.node level i).rejoin
  let s := s.setNode level i x
  if !x.hist then s
  else if s.eligible level i then
    let cst := costOf (s.adjLen x (s.candLen level i)) x.weight
    s.setNode level i { x with c := cst, f := tag64 (x.f + cst), elig := true }
  else if (s.candQueue level i).isNone then s.setNode level i x.forget
  else s.setNode level i { x with elig := false }

/-- The nodes of a path take their next candidates, bottom first. -/
def State.refill (s : State) (path : List (Nat × Nat)) : State :=
  path.foldl (fun s ln =>
    let s := if ln.1 = 0 then s else
      let x := s.node ln.1 ln.2
      (s.setNode ln.1 ln.2 { x with pick := none, commPass := false }).settleNode ln.1 ln.2
    if ln.1 < 4 then s.resend ln.1 ln.2 else s) s

/-! ### Node writes and reads (R319, R320, R324, R326, R327) -/

/-- The fields of a node write, from SCH_NDATA0 to SCH_NDATA5. -/
structure NodeWords where
  d0 : Nat
  d1 : Nat
  d2 : Nat
  d3 : Nat
  d4 : Nat
  d5 : Nat
  deriving DecidableEq, Repr

/-- A bucket after a write (R326, R327). -/
def Shaper.rewrite (b : Shaper) (t rate burst : Nat) (nz5 zero : Bool) : Shaper :=
  if rate = b.rate ∧ burst = b.burst then { b with next := none }
  else if nz5 then { b with next := some (rate, burst) }
  else { rate := rate, burst := burst, tok := if zero then 0 else burst, rem := 0, at_ := t, next := none }

/-- The queues at or below a node that hold a packet. -/
def State.queuesBelow (s : State) (level i : Nat) : List Nat := s.queuesWhere (fun q => (s.pathUp 5 0 q).contains (level, i))

/-- Whether some queue at or below a node holds a packet. -/
def State.holdsBelow (s : State) (level i : Nat) : Bool := !(s.queuesBelow level i).isEmpty

/-- Why a node write is refused, as SCH_STAT.reason gives it; 0 where it is not (R320, R324). -/
def State.nodeRefusal (s : State) (level i : Nat) (w : NodeWords) : Nat :=
  let rateBad := decide (200000000 < bitsAt w.d2 0 28) || decide (200000000 < bitsAt w.d4 0 28)
  let burstBad := fun b => decide (b < 64) || decide (16777216 < b)
  let par := bitsAt w.d1 0 18
  if rateBad || burstBad (bitsAt w.d3 0 25) || burstBad (bitsAt w.d5 0 25) then 2
  else if level < 4 ∧ levelSize (level + 1) ≤ par then 3
  else if bitsAt w.d0 0 16 = 0 then 4
  else if level < 4 ∧ par ≠ (s.node level i).parent ∧ s.portAbove (3 - level) (level + 1) par ≠ s.portAbove (4 - level) level i ∧
      s.holdsBelow level i then 1
  else 0

/-- A node write applied; a disable withdraws every offered candidate whose path holds the node (R318). -/
def State.applyNode (s : State) (level i : Nat) (w : NodeWords) : State :=
  let x0 := s.node level i
  let t := s.netNs
  let x := if x0.enable then s.evalNode x0 else { x0 with comm := { x0.comm with at_ := t }, peak := { x0.peak with at_ := t } }
  let cnz5 := bitOf w.d0 30
  let pnz5 := bitOf w.d0 29
  let ctok := bitOf w.d0 28
  let ptok := bitOf w.d0 27
  let par := bitsAt w.d1 0 18
  let x := { x with
    enable := bitOf w.d0 31, cnz5 := cnz5, pnz5 := pnz5, ctok := ctok, ptok := ptok, band := bitsAt w.d0 24 3,
    lprof := bitsAt w.d0 16 4, weight := bitsAt w.d0 0 16,
    comm := x.comm.rewrite t (bitsAt w.d2 0 28) (bitsAt w.d3 0 25) cnz5 ctok,
    peak := x.peak.rewrite t (bitsAt w.d4 0 28) (bitsAt w.d5 0 25) pnz5 ptok }
  let s1 := s.setNode level i x
  let s2 := if level = 4 ∨ par = x.parent then s1.setNode level i { x with newParent := none }
    else if x.elig ∨ (s.node (level + 1) x.parent).pick = some i then s1.setNode level i { x with newParent := some par }
    else s1.setNode level i { x.forget with parent := par, newParent := none }
  let s3 := if x0.enable ∧ !x.enable then (s.queuesBelow level i).foldl State.withdraw s2 else s2
  s3.settle

/-- A write of a node: refused with a reason, or applied. An index beyond the level writes nothing. -/
def State.writeNode (s : State) (level i : Nat) (w : NodeWords) : Nat × State :=
  if levelSize level ≤ i then (0, s)
  else
    let r := s.nodeRefusal level i w
    if r = 0 then (0, s.applyNode level i w) else (r, (s.wr SCH_STAT.refused 1).wr SCH_STAT.reason r)

/-- The words that a read of a node gives: SCH_NDATA0 to SCH_NDATA5 and both token counts, as last evaluated (R322). -/
def Node.words (x : Node) : NodeWords × Nat × Nat :=
  ({ d0 := b2n x.enable * 2 ^ 31 + b2n x.cnz5 * 2 ^ 30 + b2n x.pnz5 * 2 ^ 29 + b2n x.ctok * 2 ^ 28 + b2n x.ptok * 2 ^ 27 +
       x.band * 2 ^ 24 + x.lprof * 2 ^ 16 + x.weight,
     d1 := x.parent, d2 := x.comm.rate, d3 := x.comm.burst, d4 := x.peak.rate, d5 := x.peak.burst },
   unsigned 32 x.comm.tok, unsigned 32 x.peak.tok)

/-- A bucket at a refill boundary (R327): evaluated at the old rate, then given the new rate and burst. -/
def Shaper.boundary (b : Shaper) (t : Nat) : Shaper :=
  match b.next with
  | none => b
  | some (r, m) =>
    let e := b.eval t
    if (m : Int) < e.tok then { e with rate := r, burst := m, tok := m, rem := 0, next := none }
    else { e with rate := r, burst := m, next := none }

/-- NZ5_REFILL_BOUNDARY (R327): at a multiple of 1,024 ns of network time pending NZ5 changes apply. -/
def execNz5RefillBoundary (s : State) : Out :=
  if s.netNs % 10 ^ 9 % 1024 = 0 then
    let t := s.netNs
    let nodes := Tbl.mapAll ({} : Node) (fun _ x => { x with comm := x.comm.boundary t, peak := x.peak.boundary t }) s.sch.nodes
    .next ({ s with sch := { s.sch with nodes := nodes } }).settle
  else .next s

end Sys2Proof.Machine
end

