-- ==== Sys2Proof/Machine/Queues.lean ====
section
/-! DEFINITION. Queues (06_queues_fabric.md, R247 to R255, R260, R271, R297 to R305): offers, drops, links and flushes, pauses
received, ports that go down, and the indirect entries. -/
namespace Sys2Proof.Machine

/-! ### Destinations, links and credit messages -/

/-- The destination map entry of a destination: kind (0 not valid, 1 unicast, 2 MCAST), device and rate (R265 to R267). -/
def State.destKind (s : State) (d : Nat) : Nat := let k := bitsAt (s.entWord 2 d 0) 30 2; if k = 3 then 0 else k
def State.destDev (s : State) (d : Nat) : Nat := bitsAt (s.entWord 2 d 0) 16 11
def State.destRate (s : State) (d : Nat) : Nat := bitsAt (s.entWord 2 d 0) 0 16

/-- The reachability mask of a device. -/
def State.reach (s : State) (dev : Nat) : Nat := s.entWord 4 dev 0 + 2 ^ 32 * s.entWord 4 dev 1

/-- The usable links of a device (R282). -/
def State.usable (s : State) (dev : Nat) : List Nat :=
  (List.range 48).filter (fun l => bitOf (s.reach dev) l && s.rd (QM_LINKSTAT.state l) == 0)

/-- Credit unit in bytes (R269). -/
def State.unitBytes (s : State) : Nat := 256 * 2 ^ s.rd QM_CREDCFG.unit

/-- *Credit message*: kind 1 GRANT, 2 REQUEST, 3 EMPTY. -/
def creditBytes (kind dev voq units : Nat) : List Nat :=
  let b := (beBytes 8 (kind * 2 ^ 62 + dev % 2048 * 2 ^ 51 + voq % 65536 * 2 ^ 35 + units % 4096 * 2 ^ 23)).take 7
  b ++ [crc8 b]

/-- A credit message joins the outbox, or is discarded and counted: no usable link, or the outbox is full (R491). -/
def State.creditSend (s : State) (to_ : Nat) (bytes : List Nat) : State :=
  if (s.usable to_).isEmpty ∨ 16384 ≤ s.flk.outbox.length then s.inc FLK_CRDDROP.count
  else
    let s := { s with flk := { s.flk with outbox := s.flk.outbox ++ [CreditMsg.mk to_ bytes] } }
    s.wr FLK_OUTBOX.messages s.flk.outbox.length

/-- The credit state of a VOQ. -/
def State.voq (s : State) (v : Nat) : Voq := Tbl.get {} s.qm.voqs v

/-- The credit state of a VOQ replaced. -/
def State.setVoq (s : State) (v : Nat) (x : Voq) : State := { s with qm := { s.qm with voqs := Tbl.set {} s.qm.voqs v x } }

/-- A VOQ sends REQUEST to the device that owns its destination (R271, R272); an MCAST destination takes no credits (R267). -/
def State.sendRequest (s : State) (v : Nat) : State :=
  if s.destKind (v / 8) ≠ 1 then s
  else (s.setVoq v { s.voq v with reqAt := s.clk }).creditSend (s.destDev (v / 8)) (creditBytes 2 (s.rd QM_CFG.dev_id) v 0)

/-- A VOQ that has become empty returns its balance as EMPTY (R271). -/
def State.sendEmpty (s : State) (v : Nat) : State :=
  if s.destKind (v / 8) ≠ 1 then s
  else
    let b := (s.voq v).balance
    let units := if 0 < b then b.toNat / s.unitBytes else 0
    let s := if 0 < b then s.setVoq v { s.voq v with balance := 0 } else s
    s.creditSend (s.destDev (v / 8)) (creditBytes 3 (s.rd QM_CFG.dev_id) v units)

/-! ### Drops (R214, R239, R253) -/

/-- A packet of `len` bytes dropped at queue `k` for a reason: counted by the buffer or the queue manager, and in the queue's
counter pair. -/
def State.dropAt (s : State) (k reason len : Nat) : State :=
  let s := if reason ≤ 8 then
      ((s.inc (BPM_DROPPKT.count reason)).addSat (BPM_DROPBYTE.count reason) len).inc (BPM_PFDROP.count (s.qProfile k))
    else (s.inc (QM_DROPPKT.count reason)).addSat (QM_DROPBYTE.count reason) len
  s.cntAdd false (if k < 2 ^ 20 then s.rd QM_CNTBASE.base + k else s.rd QM_VCNTBASE.base + (k - 2 ^ 20)) 1 len

/-- Why queue `k` refuses a packet of `len` bytes before cells are asked for, or 0 (R213, R251, R266, R302). DESIGN CHOICE, log entry 100:
with BPM_CFG.enable 0 and the queue disabled or its port down, the queue's reason goes before POOL_EMPTY. -/
def State.refusal (s : State) (k len : Nat) : Nat :=
  let n := cellsOf len
  let p := s.qProfile k
  let depth := (s.queue k).cells
  if !s.bit QM_CFG.enable then 0xE
  else if 2 ^ 20 ≤ k ∧ s.destKind ((k - 2 ^ 20) / 8) = 0 then 0xE
  else if !s.qEnable k then 0xE
  else if k < 2 ^ 20 ∧ s.portOf k < 128 ∧ s.rd (QM_PORTSTAT.state (s.portOf k)) = 2 then 0xA
  else if !s.bit BPM_CFG.enable then 4
  else if 16368 < len then 1
  else if s.rd (BPM_PFLIMIT.max_cells p) < depth + n then 2
  else if s.bit (BPM_PFLIMIT.dyn_en p) ∧ (s.freeNow 0 + s.freeNow 2) * 2 ^ s.rd (BPM_PFDYN.alpha p) / 256 < depth + n then 3
  else 0

/-! ### Joining and leaving queues -/

/-- A chain joins a queue at its tail (R247, R252); a VOQ that was empty sends REQUEST. -/
def State.enqueue (s : State) (ptr : Nat) (d : Dest) : State :=
  let x := s.chain ptr
  let q := s.queue d.queue
  let e : QEnt := { ptr := ptr, gen := x.gen, n := x.n, len := x.pkt.bytes.length, hdrQ := d.hdrQ, session := d.session }
  let s := s.setQueue d.queue { ents := q.ents ++ [e], cells := q.cells + x.n, pkts := q.pkts + 1 }
  let s := s.occChange (s.qProfile d.queue) (· + x.n)
  if 2 ^ 20 ≤ d.queue ∧ q.ents.isEmpty then
    let v := d.queue - 2 ^ 20
    (s.setVoq v { s.voq v with grantAt := s.clk }).sendRequest v
  else s

/-- Whether a handle still names a chain: its generation is the chain's, and the chain has an owner (R237). -/
def State.handleOk (s : State) (ptr gen : Nat) : Bool := (s.chain ptr).gen == gen && (s.chain ptr).owner != 0

/-- The head entry leaves a queue for a reader with owner code `unit`; its chain stays in the queue's depth until that reader releases it
(R252). One whose chain has been released behind the queue's back leaves the depth at once (DESIGN CHOICE, log entry 99). A VOQ that becomes
empty sends EMPTY. -/
def State.dequeue (s : State) (k unit : Nat) : State :=
  match (s.queue k).ents with
  | [] => s
  | e :: rest =>
    let was := s
    let s := s.setQueue k { s.queue k with ents := rest }
    let s := if was.handleOk e.ptr e.gen then
        { s with bpm := { s.bpm with reading := s.bpm.reading ++ [{ queue := k, ptr := e.ptr, gen := e.gen, n := e.n, unit := unit }] } }
      else s.lower k e.n
    if 2 ^ 20 ≤ k ∧ rest.isEmpty then s.sendEmpty (k - 2 ^ 20) else s

/-- An entry's reference released with the owner code QUEUED (R304). -/
def State.releaseQueued (s : State) (e : QEnt) : State := s.release e.ptr e.gen 0x10

/-- Removes `n` entries of a queue, each dropped with a reason and released. -/
def State.flushN (k reason : Nat) : Nat → State → State
  | 0, s => s
  | n + 1, s =>
    match (s.queue k).ents with
    | [] => s
    | e :: _ => State.flushN k reason n (((s.dequeue k 0x10).dropAt k reason e.len).releaseQueued e)

/-- Empties a queue (R247, R304); a committed candidate is withdrawn first (R318). -/
def State.flush (s : State) (k reason : Nat) : State :=
  let s := if k < 2 ^ 20 then s.withdraw k else s
  (State.flushN k reason (s.queue k).ents.length s).settle

/-! ### Admission (R213 to R217, R232, R249, R250, R254) -/

/-- What admission has of a packet so far: its chain, if it has one, the queues that it will join, and whether a full holding buffer has
discarded it (R259). -/
structure Admitted where
  ptr   : Option Nat := none
  dests : List Dest := []
  dead  : Bool := false
  deriving DecidableEq, Repr

/-- The owner code of a writer (*Owner codes*). -/
def writerOwner (w : Nat) : Nat := if w < 4 then w + 1 else if w < 52 then 5 else 6

/-- The source of a chain as its header gives it. -/
def writerSrc (w : Nat) : Nat := if w < 4 then 0 else if w < 52 then 1 else 2

/-- The area whose cells a packet of `n` cells takes (R215), or none. A fabric link whose holding buffer holds more than 256 cells asks
without preference for the shallow tier (R259). -/
def State.chainArea (s : State) (w k n : Nat) : Option Nat :=
  let held := decide (4 ≤ w ∧ w < 52) && decide (256 < (s.xwait w).length)
  s.allocTier n (decide ((s.queue k).cells < s.rd (BPM_PFDEEP.deep_cells (s.qProfile k))) && !held)

/-- Of `n` cells on their way to an area, those that find the holding buffer of their fabric writer full: beside 512 cells there it takes what
the waiting places of its input have room for (R259). -/
def State.overflow (s : State) (w area n : Nat) : Nat :=
  if 4 ≤ w ∧ w < 52 ∧ area = 0 then
    n - (512 - (s.xwait w).length + (if (s.xwait w).isEmpty then 16 - (s.xin (writerInputs w).1).length else 0))
  else 0

/-- A new chain for a packet in an area that has its cells. -/
def State.newChain (s : State) (w area : Nat) (pkt : Packet) (pfc : Option Nat) : Nat × State :=
  let n := cellsOf pkt.bytes.length
  let (cells, s) := s.takeArea area n
  let tier := if area = 2 then 1 else 0
  let ptr := cellPtr tier (cells.head?.getD 0)
  let s := s.setChain ptr { gen := ((s.chain ptr).gen + 1) % 256, owner := writerOwner w, src := writerSrc w, cells := cells, n := n,
                            pkt := pkt, pfc := pfc }
  let s := (s.pfcChange pfc (· + n)).syncFree
  (ptr, if tier = 0 then s.xputAll w ptr cells else s)

/-- A drop of a copy: counted at its queue, and for its session where it has one (R214, R253, R623). -/
def State.dropCopy (s : State) (d : Dest) (reason len : Nat) : State :=
  let s := s.dropAt d.queue reason len
  match d.session with
  | some k => s.countCopy k false len
  | none => s

/-- A packet offered to one more queue: the first that admits it takes a new chain, each further one a reference (R232, R254). A record whose
cells overflow its writer's holding buffer is discarded, for every queue that follows (R259). -/
def State.offer (w : Nat) (pkt : Packet) (pfc : Option Nat) (sa : State × Admitted) (d : Dest) : State × Admitted :=
  let (s, a) := sa
  let len := pkt.bytes.length
  let r := s.refusal d.queue len
  if a.dead then (if d.session.isSome then s.countCopy (d.session.getD 0) false len else s, a)
  else if r ≠ 0 then (s.dropCopy d r len, a)
  else
    match a.ptr with
    | some ptr =>
      match s.takeRef ptr with
      | .inl r => (s.dropCopy d r len, a)
      | .inr s => (s, { a with dests := a.dests ++ [d] })
    | none =>
      if d.session.isSome then (s.countCopy (d.session.getD 0) false len, a)
      else
        match s.chainArea w d.queue (cellsOf len) with
        | none => (s.dropCopy d 4 len, a)
        | some area =>
          let excess := s.overflow w area (cellsOf len)
          if 0 < excess then ((s.addSat (FLK_HOLDOVF.count (w - 4)) excess).inc (FLK_REASMDROP.count (w - 4)), { a with dead := true })
          else let (ptr, s) := s.newChain w area pkt pfc; (s, { ptr := some ptr, dests := [d] })

/-- A packet offered to queues; its writer links the chain later (R260). -/
def State.accept (s : State) (w : Nat) (pkt : Packet) (pfc : Option Nat) (dests : List Dest) : State × Admitted :=
  let (s, a) := dests.foldl (State.offer w pkt pfc) (s, {})
  match a.ptr with
  | none => (s, a)
  | some ptr =>
    ({ s with bpm := { s.bpm with jobs := Tbl.upd [] s.bpm.jobs w (· ++ [{ ptr := ptr, dests := a.dests }]) } }, a)

/-- The mirror copies of a packet (*Session kinds* 1 and 2): those that their sessions select and their buckets accept. -/
def State.mirrors (s : State) (fwd : List Nat) (len : Nat) : State × List Dest :=
  (s.sessionsOf fwd).foldl (fun (sd : State × List Dest) k =>
    let (s, ds) := sd
    let x := s.session k
    if x.kind = 0 then (s, ds)
    else
      let (sel, s) := s.selects k
      if !sel then (s, ds)
      else
        let (ok, s) := s.takeToken k
        if !ok then (s.countCopy k false len, ds)
        else if x.kind = 1 then (s, ds ++ [{ queue := x.queue, session := some k }])
        else (s, ds ++ [{ queue := voqKey (8 * x.dest + x.cls), hdrQ := some x.queue, session := some k }])) (s, [])

/-- The queue that a packet from the bridge joins (R249). -/
def State.bridgeDest (s : State) (fwd : List Nat) : Dest :=
  if bitsAt (leAt fwd 0 1) 6 2 = 2 then { queue := s.rd QM_PUNTQ.queue }
  else { queue := voqKey (8 * (beNat (sliceB fwd 2 2) % 8192) + leAt fwd 1 1 % 8) }

/-- The egress queue that a forwarding result names. -/
def fwdQueue (fwd : List Nat) : Nat := beNat (sliceB fwd 4 3) % 2 ^ 20

/-- The queues of a multicast group's replication list, in entry order (R254). -/
def State.replicas (s : State) (g : Nat) : List Dest :=
  let first := s.entWord 5 g 0
  (List.range (s.entWord 5 g 1)).map (fun i => { queue := s.entWord 6 (first + i) 0 })

/-- Whether a requester of the allocator has a request now: the bridge stream of pipe 0 to 3, which its writer may hold (R259), or fabric
reassembly (4). Host inject (5) has one only while its command runs. -/
def State.allocWaits (s : State) (r : Nat) : Bool :=
  if r < 4 then s.dies.ft.arrived.any (fun k => k.pipe == r) && (s.xwait r).isEmpty else r == 4 && !s.flk.recOrd.isEmpty

/-- The allocator decides a request of requester `r` now, or it has to wait (R217): in each cycle it decides up to 16 requests of each
requester, requester by requester, in an order that rotates by one place each cycle. A cycle is one island clock (DESIGN CHOICE, log entry 101). -/
def State.allocTurn (s : State) (r : Nat) : Option State :=
  let b := s.bpm
  let (pos, n) := if b.allocAt = s.clk then (b.allocPos, b.allocN) else (0, 0)
  let place := fun r => (r + 6 - s.clk % 6) % 6
  let p := place r
  let ahead := (List.range 6).any (fun x => decide (pos ≤ place x ∧ place x < p) && s.allocWaits x && !(place x == pos && decide (16 ≤ n)))
  if p < pos ∨ (p = pos ∧ 16 ≤ n) ∨ ahead then none
  else some { s with bpm := { b with allocAt := s.clk, allocPos := p, allocN := if p = pos then n + 1 else 1 } }

/-- PACKET_ADMIT (R213, R217, R249, R250): the oldest packet that waits at a writer, a pipe's bridge stream or a fabric link's reassembly,
is offered to the queues that its result or group names, when the allocator comes to it. A bridge stream whose writer is held takes no packet
(R259); of the records of all links, the one that arrived first goes first. -/
def execPacketAdmit (w : Nat) (s : State) : Out :=
  if w < 4 then
    match s.dies.ft.arrived.find? (fun k => k.pipe == w), s.allocTurn w with
    | none, _ | _, none => .next s
    | some pkt, some turn =>
      if !(s.xwait w).isEmpty then .next s
      else
        let s := turn.setDir true { s.dies.ft with arrived := s.dies.ft.arrived.erase pkt }
        let port := leAt pkt.fwd 7 1
        let pfc := if port < 128 then some (8 * port + leAt pkt.fwd 1 1 % 8) else none
        let (s, more) := s.mirrors pkt.fwd pkt.bytes.length
        .next (s.accept w pkt pfc (s.bridgeDest pkt.fwd :: more)).1
  else if w < 52 then
    match Tbl.get [] s.flk.recs (w - 4), s.allocTurn 4 with
    | [], _ | _, none => .next s
    | (g, pkt) :: rest, some turn =>
      if s.flk.recOrd.head? ≠ some (w - 4) then .next s
      else
        let s := { turn with flk := { s.flk with recs := Tbl.set [] s.flk.recs (w - 4) rest, recOrd := s.flk.recOrd.tail } }
        let ds := match g with
          | none => [({ queue := fwdQueue pkt.fwd } : Dest)]
          | some g => s.replicas g
        if ds.isEmpty then .next (s.inc QM_MCEMPTY.count)
        else
          let (s, more) := s.mirrors pkt.fwd pkt.bytes.length
          .next (s.accept w pkt none (ds ++ more)).1
  else .next s

/-- CHAIN_LINK (R236, R260, R387): a writer links its oldest chain, once every cell of it is written, to the queues it was admitted to. A
chain of the host completes its INJECT. -/
def execChainLink (w : Nat) (s : State) : Out :=
  match Tbl.get [] s.bpm.jobs w with
  | [] => .next s
  | j :: rest =>
    if s.writing j.ptr then .next s
    else
      let s := { s with bpm := { s.bpm with jobs := Tbl.set [] s.bpm.jobs w rest } }
      let x := s.chain j.ptr
      let s := s.setChain j.ptr { x with owner := if x.owner = ownerShared then ownerShared else 0x10, enq := s.enqTime, at_ := s.clk }
      .next ((j.dests.foldl (fun s d => s.enqueue j.ptr d) s).settle.injected x.pkt)

/-! ### Pauses received (R297, R298) -/

/-- A received pause of the classes in `mask`, with the time of each: counted from now in units of 512 bit times of the port. -/
def State.pauseClasses (s : State) (p mask : Nat) (time : Nat → Nat) : State :=
  let s := (List.range 8).foldl (fun s c =>
    if !bitOf mask c then s
    else
      let t := time c
      let s := s.wr (QM_PFCSTAT.paused p) (putBits (s.rd (QM_PFCSTAT.paused p)) c 1 (b2n (t != 0)))
      { s with qm := { s.qm with pauseEnd := Tbl.set 0 s.qm.pauseEnd (8 * p + c) (if t = 0 then 0 else s.clk + ceilDiv (t * 512) (s.portGbps p)) } }) s
  s.stopClasses p (s.rd (QM_PFCSTAT.paused p))

/-- A PFC frame arrives (R297): the classes that its vector and rx_en name. -/
def State.pfcFrame (s : State) (p vector : Nat) (times : List Nat) : State :=
  (s.inc (QM_PFCRXCNT.count p)).pauseClasses p (Nat.land vector (s.rd (QM_PFCRX.rx_en p))) (fun c => (times[c]?).getD 0 % 65536)

/-- An IEEE 802.3 PAUSE frame arrives (R298). -/
def State.pauseFrame (s : State) (p time : Nat) : State :=
  let s := s.inc (QM_PFCRXCNT.count p)
  if s.bit (QM_PFCCFG.rx_pause p) then s.pauseClasses p 255 (fun _ => time % 65536) else s

/-- PFC_FRAME_RECEIVE (R297): a PFC frame with a class-enable vector and eight pause times arrives on a port that carries frames. -/
def execPfcFrameReceive (p vector : Nat) (times : List Nat) (s : State) : Out :=
  if p < 128 ∧ 2 ≤ s.portState p then .next (s.pfcFrame p vector times) else .next s

/-- PAUSE_FRAME_RECEIVE (R298): an IEEE 802.3 PAUSE frame. -/
def execPauseFrameReceive (p time : Nat) (s : State) : Out :=
  if p < 128 ∧ 2 ≤ s.portState p then .next (s.pauseFrame p time) else .next s

/-- PAUSE_EXPIRE (R297): the pause of a class of a port ends. -/
def execPauseExpire (p cls : Nat) (s : State) : Out :=
  if p < 128 ∧ cls < 8 ∧ bitOf (s.rd (QM_PFCSTAT.paused p)) cls ∧ Tbl.get 0 s.qm.pauseEnd (8 * p + cls) ≤ s.clk then
    let s := s.wr (QM_PFCSTAT.paused p) (putBits (s.rd (QM_PFCSTAT.paused p)) cls 1 0)
    .next ({ s with qm := { s.qm with pauseEnd := Tbl.erase s.qm.pauseEnd (8 * p + cls) } }).settle
  else .next s

/-- PFC_REPEAT (R294): while the occupancy stays above xon, a class under xoff repeats its frame every quanta × 256 bit times. -/
def execPfcRepeat (p cls : Nat) (s : State) : Out :=
  let k := 8 * p + cls
  let last := Tbl.get 0 s.bpm.pfcSent k
  if p < 128 ∧ cls < 8 ∧ last ≠ 0 ∧ s.portState p = 2 ∧ s.rd (QM_PFCTHR.xon p cls) * 16 < s.pfcOcc k ∧
      s.elapsed (last - 1) (s.rd (QM_PFCCFG.quanta p) * 256 / s.portGbps p) then
    .next (s.pfcSend p cls true)
  else .next s

/-! ### Ports that go down and return (R300 to R302) -/

/-- Every queue of a port flushed under PORT_FLUSH; QM_PORT_FLUSHED carries the packets. -/
def State.portFlush (s : State) (p : Nat) : State :=
  let qs := s.queuesWhere (fun q => s.portOf q == p)
  let n := (qs.map (fun q => (s.queue q).ents.length)).foldl (· + ·) 0
  let s := (s.wr (QM_PORTSTAT.state p) 2)
  let s := { s with qm := { s.qm with holdAt := Tbl.erase s.qm.holdAt p } }
  (qs.foldl (fun s q => s.flush q 9) s).post 0x0606 ([p, 0, 0, 0] ++ leBytes 4 n)

/-- A line port goes down for the queue manager: its queues are flushed, or hold, under QM_PORTPOL. -/
def State.portDown (s : State) (p : Nat) : State :=
  if 128 ≤ p ∨ s.rd (QM_PORTSTAT.state p) ≠ 0 then s
  else if s.bit (QM_PORTPOL.policy p) then
    ({ s with qm := { s.qm with holdAt := Tbl.set 0 s.qm.holdAt p (s.clk + 1) } }.wr (QM_PORTSTAT.state p) 1).settle
  else s.portFlush p

/-- The hold time of a port has passed. -/
def State.holdOver (s : State) (p : Nat) : Bool :=
  s.rd (QM_PORTSTAT.state p) == 1 && s.elapsed (Tbl.get 0 s.qm.holdAt p - 1) (ms (s.rd (QM_PORTPOL.hold_ms p)))

/-- A line port returns: a hold that expires at the same instant flushes first (R301). -/
def State.portUp (s : State) (p : Nat) : State :=
  let s := if s.holdOver p then s.portFlush p else s
  ({ s with qm := { s.qm with holdAt := Tbl.erase s.qm.holdAt p } }.wr (QM_PORTSTAT.state p) 0).settle

/-- PORT_HOLD_EXPIRE (R300): the hold time of a down port ends. -/
def execPortHoldExpire (p : Nat) (s : State) : Out := if p < 128 ∧ s.holdOver p then .next (s.portFlush p) else .next s

end Sys2Proof.Machine
end

