-- ==== Sys2Proof/Machine/Fabric.lean ====
section
/-! DEFINITION. The credit protocol and the fabric scheduler (06_queues_fabric.md, R267 to R292, R305): credits on both sides,
reachability and buckets, drains and returns of links, the choice of a VOQ, and the indirect entries. -/
namespace Sys2Proof.Machine

/-! ### The ingress side of credits (R268, R270 to R273) -/

/-- The fields of a credit message: kind, device, voq and units. -/
def creditFields (b : List Nat) : Nat × Nat × Nat × Nat :=
  let v := beNat (sliceB b 0 8)
  (bitsAt v 62 2, bitsAt v 51 11, bitsAt v 35 16, bitsAt v 23 12)

/-- A GRANT to this device (R270). -/
def State.takeGrant (s : State) (dev voq units : Nat) : State :=
  if dev ≠ s.rd QM_CFG.dev_id then s.inc QM_CREDMISROUTE.count
  else
    let x := s.voq voq
    (s.inc QM_GRANTRX.count).setVoq voq { x with balance := x.balance + units * s.unitBytes, grantAt := s.clk }

/-! ### The egress side of credits (R274 to R278) -/

/-- The key of a credit flow. -/
def flowKey (dev voq : Nat) : Nat := 65536 * dev + voq

/-- Flows that wait enter the credit flow table while it has room (R277). -/
def State.fillFlows : Nat → State → State
  | 0, s => s
  | n + 1, s =>
    match s.qm.flowWait with
    | [] => s
    | k :: r =>
      if s.qm.flows.length < 65536 then
        State.fillFlows n { s with qm := { s.qm with flowWait := r, flows := Tbl.ins k {} s.qm.flows } }
      else s

/-- A flow leaves the table when it has sent EMPTY and its outstanding credit is 0 or less (R275). -/
def State.checkFlow (s : State) (k : Nat) : State :=
  match s.qm.flows.find? (fun e => e.1 == k) with
  | none => s
  | some (_, f) =>
    if f.emptied ∧ f.outstanding ≤ 0 then
      State.fillFlows (s.qm.flowWait.length) { s with qm := { s.qm with flows := Tbl.erase s.qm.flows k } }
    else s

/-- A flow changed, if it is in the table. -/
def State.onFlow (s : State) (k : Nat) (f : Flow → Flow) : State :=
  match s.qm.flows.find? (fun e => e.1 == k) with
  | none => s
  | some (_, x) => ({ s with qm := { s.qm with flows := Tbl.ins k (f x) s.qm.flows } }).checkFlow k

/-- A REQUEST (R277). -/
def State.takeRequest (s : State) (dev voq : Nat) : State :=
  let k := flowKey dev voq
  if s.qm.flows.any (fun e => e.1 == k) then s.onFlow k (fun f => { f with emptied := false })
  else if s.qm.flows.length < 65536 then { s with qm := { s.qm with flows := Tbl.ins k {} s.qm.flows } }
  else if s.qm.flowWait.contains k then s
  else if s.qm.flowWait.length < 4096 then { s with qm := { s.qm with flowWait := s.qm.flowWait ++ [k] } }
  else s.inc QM_CREDWAITDROP.count

/-- An EMPTY (R275). -/
def State.takeEmpty (s : State) (dev voq units : Nat) : State :=
  s.onFlow (flowKey dev voq) (fun f => { f with outstanding := f.outstanding - units * s.unitBytes, emptied := true })

/-- A received credit message (R268); `kinds` are those that the caller takes. -/
def State.takeCredit (s : State) (kinds : List Nat) (b : List Nat) : State :=
  if crc8 (sliceB b 0 7) ≠ leAt b 7 1 then s.inc QM_CREDCRC.count
  else
    let (k, dev, voq, units) := creditFields b
    if !kinds.contains k then s
    else match k with
      | 1 => s.takeGrant dev voq units
      | 2 => s.takeRequest dev voq
      | 3 => s.takeEmpty dev voq units
      | _ => s

/-- GRANT_RECEIVE (R268, R270): a credit message of kind GRANT arrives. -/
def execGrantReceive (msg : List Nat) (s : State) : Out := .next (s.takeCredit [1] msg)

/-- REQUEST_RECEIVE (R268, R277): a credit message of kind REQUEST arrives. -/
def execRequestReceive (msg : List Nat) (s : State) : Out := .next (s.takeCredit [2] msg)

/-- EMPTY_RECEIVE (R268, R275): a credit message of kind EMPTY arrives. -/
def execEmptyReceive (msg : List Nat) (s : State) : Out := .next (s.takeCredit [3] msg)

/-- CREDIT_STALE_REQUEST (R272): a starved VOQ sends REQUEST again. -/
def execCreditStaleRequest (v : Nat) (s : State) : Out :=
  let x := s.voq v
  if v < 65536 ∧ (s.queue (voqKey v)).ents ≠ [] ∧ x.balance ≤ 0 ∧ s.elapsed (max x.grantAt x.reqAt) (us (s.rd QM_CREDTIME.stale_us)) then
    .next (s.sendRequest v)
  else .next s

/-- CREDIT_LOST_FLUSH (R267, R273): a VOQ without a GRANT for lost_ms is flushed; one of an MCAST destination takes no credits. -/
def execCreditLostFlush (v : Nat) (s : State) : Out :=
  let n := (s.queue (voqKey v)).ents.length
  let lost := s.rd QM_CREDTIME.lost_ms
  if v < 65536 ∧ 0 < n ∧ 0 < lost ∧ s.destKind (v / 8) ≠ 2 ∧ s.elapsed (s.voq v).grantAt (ms lost) then
    .next ((s.flush (voqKey v) 0x11).post 0x0605 (leBytes 4 v ++ leBytes 4 n))
  else .next s

/-- The egress destination of a number: valid, port, rate and stop_cells. -/
def State.egValid (s : State) (d : Nat) : Bool := bitOf (s.entWord 3 d 0) 31
def State.egPort (s : State) (d : Nat) : Nat := bitsAt (s.entWord 3 d 0) 16 8
def State.egRate (s : State) (d : Nat) : Nat := bitsAt (s.entWord 3 d 0) 0 16
def State.egStop (s : State) (d : Nat) : Nat := Tbl.get 0xFFFF s.qm.stop d

/-- Total depth of the queues of a class on a port. -/
def State.classCells (s : State) (p cls : Nat) : Nat :=
  s.qm.queues.foldl (fun a e => if e.1 < 2 ^ 20 ∧ s.portOf e.1 = p ∧ s.qClass e.1 = cls then a + e.2.cells else a) 0

/-- Whether a class of a destination is stopped (R276, and *Island behaviour*: credits are withdrawn while the bridge is lost). -/
def State.creditStopped (s : State) (d cls : Nat) : Bool :=
  let p := s.egPort d
  decide (s.egStop d * 256 < s.classCells p cls) || !s.bridgeUp ||
    (decide (p < 128) && (s.rd (QM_PORTSTAT.state p) != 0 || decide (s.portState p < 2) ||
      bitOf (s.rd (QM_PFCSTAT.paused p)) cls))

/-- Whether a flow of destination `d` may be granted a unit (R274). -/
def State.flowEligible (s : State) (d : Nat) (e : Nat × Flow) : Bool :=
  e.1 % 65536 / 8 == d && decide (e.2.outstanding + s.unitBytes ≤ s.rd QM_CREDCFG.window * s.unitBytes) && !s.creditStopped d (e.1 % 8)

/-- The flow that a generator grants to: of the highest class with an eligible flow, the next after the last one granted (R274). -/
def State.nextFlow (s : State) (d : Nat) (g : CreditGen) : Option Nat :=
  let keys := (s.qm.flows.filter (s.flowEligible d)).map (·.1)
  ([7, 6, 5, 4, 3, 2, 1, 0].filterMap (fun c => firstFrom (Tbl.get 0 g.last c) (keys.filter (fun k => k % 8 == c)))).head?

/-- CREDIT_EARN (R274): a destination's generator has earned a unit, at the entry's rate to 2^-32 ns, or holds one, and grants it to an eligible
flow. -/
def execCreditEarn (d : Nat) (s : State) : Out :=
  let g := Tbl.get {} s.qm.gens d
  let rate := s.egRate d
  let due := g.at_ + ceilDiv (s.unitBytes * 80 * 2 ^ 32) rate
  if d < 8192 ∧ s.egValid d ∧ (g.unit ∨ (rate ≠ 0 ∧ due ≤ s.fine)) then
    match s.nextFlow d g with
    | none => .next { s with qm := { s.qm with gens := Tbl.set {} s.qm.gens d { g with unit := true } } }
    | some k =>
      let g' : CreditGen := { unit := false, at_ := if !g.unit ∧ s.fine < due + 2 ^ 32 then due else s.fine, last := Tbl.set 0 g.last (k % 8) (k + 1) }
      let s := { s with qm := { s.qm with gens := Tbl.set {} s.qm.gens d g' } }
      let unit := s.unitBytes
      let now := s.clk
      let s := s.onFlow k (fun f => { f with outstanding := f.outstanding + unit, cellAt := if f.outstanding ≤ 0 then now else f.cellAt })
      .next (s.creditSend (k / 65536) (creditBytes 1 (k / 65536) (k % 65536) 1))
  else .next s

/-- FLOW_RESYNC (R278): a flow with outstanding credit from which no cell has come for stale_us is reset. -/
def execFlowResync (dev voq : Nat) (s : State) : Out :=
  match s.qm.flows.find? (fun e => e.1 == flowKey dev voq) with
  | none => .next s
  | some (k, f) =>
    if 0 < f.outstanding ∧ s.elapsed f.cellAt (us (s.rd QM_CREDTIME.stale_us)) then
      let s := (s.onFlow k (fun f => { f with outstanding := 0 })).inc QM_CREDRESYNC.count
      .next (s.postRated 0x0604 0 (ms 1) 1 (fun n => [0, 0, 0, 0] ++ leBytes 4 n))
    else .next s

/-! ### Buckets (R283, R284, R286, R290, R292) -/

/-- A bucket of a destination device. -/
def State.bucket (s : State) (k : Nat) : Bucket := Tbl.get {} s.qm.buckets k

/-- A bucket replaced. -/
def State.setBucket (s : State) (k : Nat) (b : Bucket) : State := { s with qm := { s.qm with buckets := Tbl.set {} s.qm.buckets k b } }

/-- Keys of a device's buckets. -/
def bucketsOf (dev : Nat) : List Nat := (List.range 64).map (fun b => 64 * dev + b)

/-- QM_LINKSTAT.buckets of every link. -/
def State.syncBuckets (s : State) : State :=
  (List.range 48).foldl (fun s l => s.wr (QM_LINKSTAT.buckets l) (s.qm.buckets.filter (fun e => e.2.link == some l)).length) s

/-- Buckets of a device that name a link. -/
def State.namedBy (s : State) (dev l : Nat) : Nat := ((bucketsOf dev).filter (fun k => (s.bucket k).link == some l)).length

/-- Of the links in `l`, the one that holds the fewest buckets of a device, ties to the lowest (R288). -/
def State.fewest (s : State) (dev : Nat) : List Nat → Option Nat
  | [] => none
  | l :: r =>
    match s.fewest dev r with
    | none => some l
    | some m => if s.namedBy dev m < s.namedBy dev l then some m else some l

/-- A move of a bucket starts (R286): it is held. -/
def State.moveBucket (s : State) (k : Nat) (target : Option Nat) : State :=
  let b := s.bucket k
  s.setBucket k { b with held := true, target := target, phase := if b.phase = .none then .draining else b.phase }

/-- A device's buckets rebuilt over its usable links (R284): bucket i names the (i mod k)-th; each one whose link changes moves, and
without a usable link all are held (R292). -/
def State.rebuild (s : State) (dev : Nat) : State :=
  let links := s.usable dev
  ((List.range 64).foldl (fun s i =>
    let k := 64 * dev + i
    let b := s.bucket k
    match links[i % links.length]? with
    | none => s.setBucket k { b with held := true }
    | some l =>
      if b.link.isNone then s.setBucket k { link := some l }
      else if b.link = some l ∧ b.phase = .none then s.setBucket k { b with held := false, target := none }
      else s.moveBucket k (some l)) s).syncBuckets

/-- Devices with a reachability mask or buckets. -/
def State.devices (s : State) : List Nat :=
  (Tbl.keysWhere (fun k _ => k / 4 / 2 ^ 21 == 4) s.qm.tab).map (fun k => k / 4 % 2 ^ 21) ++
    (Tbl.keysWhere (fun _ _ => true) s.qm.buckets).map (· / 64) |>.eraseDups

/-- A device whose usable mask has changed (R292): one that has become unreachable holds its buckets, and one that a link reaches
again has them rebuilt. -/
def State.reachChanged (was : State) (s : State) (dev : Nat) : State :=
  let gone := (s.usable dev).isEmpty
  if gone ∧ !(was.usable dev).isEmpty then
    let s := (bucketsOf dev).foldl (fun s k => s.setBucket k { s.bucket k with held := true }) s
    let s := { s with qm := { s.qm with unreach := insNat dev s.qm.unreach, unreachAt := Tbl.set 0 s.qm.unreachAt dev (s.clk + 1) } }
    s.post 0x0603 (leBytes 2 dev ++ [0])
  else if !gone ∧ s.qm.unreach.contains dev then
    let s := { s with qm := { s.qm with unreach := s.qm.unreach.filter (· != dev), unreachAt := Tbl.erase s.qm.unreachAt dev } }
    (s.post 0x0603 (leBytes 2 dev ++ [1])).rebuild dev
  else s

/-- The bucket of a device that would move from the link with the most to the one with the fewest, and that link (R290). -/
def State.uneven (s : State) (dev : Nat) : Option (Nat × Nat) :=
  let links := s.usable dev
  match s.fewest dev links with
  | none => none
  | some lo =>
    let most := links.foldl (fun m l => if s.namedBy dev m < s.namedBy dev l then l else m) lo
    if s.namedBy dev most ≤ s.namedBy dev lo + 1 then none
    else ((bucketsOf dev).find? (fun k => (s.bucket k).link == some most)).map (fun k => (k, lo))

/-- One bucket moves from its device's fullest link to its emptiest, while rebalance is set and no bucket of any device is moving (R290). -/
def State.rebalance (s : State) : State :=
  if !s.bit QM_LBCFG.rebalance ∨ s.qm.buckets.any (fun e => e.2.phase != .none) then s
  else match (s.devices.filterMap s.uneven).head? with
    | none => s
    | some (k, lo) => s.moveBucket k (some lo)

/-! ### Links leave and return (R288 to R291) -/

/-- Whether a link is under a defect for the queue manager: not enabled (R470), a receive defect declared, or the transmit defect. -/
def State.linkBad (s : State) (l : Nat) : Bool :=
  !s.bit (FLK_CTL.enable l) || s.bit (FLK_STAT.los l) || s.bit (FLK_STAT.loa l) || s.bit (FLK_STAT.lof l) || s.bit (FLK_STAT.tx_defect l)

/-- A restore that has been asked for is applied once the link is OUT and without a defect (R290, R291); a retired link, or one
being retired, stays out (R532). -/
def State.tryRestore (s : State) (l : Nat) : State :=
  if s.bit (QM_LINKCTL.restore l) ∧ s.rd (QM_LINKSTAT.state l) = 2 ∧ !s.linkBad l ∧ !s.flk.retired.contains l ∧ !s.res.retiring.contains l then
    let was := s
    let s := [0, 1, 2, 3].foldl (fun s i => s.wr (SDS_CTL.prbs (128 + 4 * l + i)) 0) s
    let s := ((s.wr (QM_LINKSTAT.state l) 0).wr (QM_LINKCTL.restore l) 0).post 0x0602 [l]
    (s.devices.foldl (State.reachChanged was) s).rebalance
  else s

/-- A DRAINING link that no bucket names any longer is OUT (R288). -/
def State.tryOut (s : State) (l : Nat) : State :=
  if s.rd (QM_LINKSTAT.state l) = 1 ∧ s.qm.buckets.all (fun e => e.2.link != some l) then
    let c := Tbl.get 0 s.qm.cause l
    ((((s.wr (QM_LINKSTAT.state l) 2).wr (QM_LINKCTL.drain l) 0).post 0x0601 [l, c])).tryRestore l
  else s

/-- A drain of an IN_SERVICE link starts (R288): each of its buckets moves. A drain that a SWITCH has started in this cycle takes the cause of
a defect (R493). -/
def State.drainLink (s : State) (l cause : Nat) : State :=
  if s.rd (QM_LINKSTAT.state l) = 1 ∧ Tbl.get 0 s.qm.cause l = 1 ∧ Tbl.get 0 s.qm.drainAt l = s.clk + 1 ∧ 2 ≤ cause then
    { s with qm := { s.qm with cause := Tbl.set 0 s.qm.cause l cause } }
  else if s.rd (QM_LINKSTAT.state l) ≠ 0 then s
  else
    let was := s
    let s := { (s.wr (QM_LINKSTAT.state l) 1) with
      qm := { s.qm with cause := Tbl.set 0 s.qm.cause l cause, drainAt := Tbl.set 0 s.qm.drainAt l (s.clk + 1) } }
    let s := s.devices.foldl (State.reachChanged was) s
    let mine := Tbl.keysWhere (fun _ (b : Bucket) => b.link == some l) s.qm.buckets
    (mine.foldl (fun s k => s.moveBucket k none) s).tryOut l

/-- The packets with a cell in a list of cells, each once. -/
def pktsOf (q : List TxCell) : List TxPkt := (q.flatMap (·.pkts)).eraseDups

/-- The transmit queue of a link. -/
def State.txq (s : State) (l : Nat) : List TxCell := Tbl.get [] s.qm.txq l

/-- The transmit queue of a link replaced, with QM_LINKSTAT.txq. -/
def State.setTxq (s : State) (l : Nat) (q : List TxCell) : State :=
  ({ s with qm := { s.qm with txq := Tbl.set [] s.qm.txq l q } }).wr (QM_LINKSTAT.txq l) q.length

/-- A bucket that waits for its cells to leave a link's queue starts its fabric delay once none is left (R286 step 3). -/
def State.tryDelay (s : State) (k : Nat) : State :=
  let b := s.bucket k
  let left := match b.link with
    | some l => (pktsOf (s.txq l)).any (fun x => x.bucket == k)
    | none => false
  if b.phase = .draining ∧ !left then s.setBucket k { b with phase := .delay, at_ := s.clk } else s

/-- A defect is declared on a link (R289): its transmit queue is discarded at once, each packet under FABRIC_LINK_LOST, and it drains. -/
def State.defectLink (s : State) (l cause : Nat) : State :=
  let ps := pktsOf (s.txq l)
  let s := s.setTxq l []
  let s := ps.foldl (fun s x => (s.dropAt (voqKey x.voq) 0xD x.len).release x.ptr x.gen 0x11) s
  let s := s.drainLink l cause
  let mine := Tbl.keysWhere (fun _ (b : Bucket) => b.link == some l && b.phase == .draining) s.qm.buckets
  mine.foldl State.tryDelay s

/-- BUCKET_TXQ_EMPTY (R286): no cell of a held bucket remains in its link's queue. -/
def execBucketTxqEmpty (dev b : Nat) (s : State) : Out := if b < 64 then .next (s.tryDelay (64 * dev + b)) else .next s

/-- A write of QM_LINKCTL: drain (R288) and restore (R290) of a link. -/
def State.writeLinkCtl (s : State) (l : Nat) (drain restore : Bool) : State :=
  let s := if drain ∧ s.rd (QM_LINKSTAT.state l) ≠ 2 then (s.wr (QM_LINKCTL.drain l) 1).drainLink l 0 else s
  if restore ∧ s.rd (QM_LINKSTAT.state l) ≠ 0 then (s.wr (QM_LINKCTL.restore l) 1).tryRestore l else s

/-- UNREACH_EXPIRE (R292): a device has been unreachable for unreach_ms; the VOQs of its destinations are flushed. -/
def execUnreachExpire (dev : Nat) (s : State) : Out :=
  let t := Tbl.get 0 s.qm.unreachAt dev
  if t ≠ 0 ∧ s.elapsed (t - 1) (ms (s.rd QM_LBCFG.unreach_ms)) then
    let s := { s with qm := { s.qm with unreachAt := Tbl.erase s.qm.unreachAt dev } }
    let vs := Tbl.keysWhere (fun k (q : Queue) => decide (2 ^ 20 ≤ k) && !q.ents.isEmpty && s.destDev ((k - 2 ^ 20) / 8) == dev &&
      s.destKind ((k - 2 ^ 20) / 8) != 0) s.qm.queues
    .next (vs.foldl (fun s k => s.flush k 0xC) s)
  else .next s

/-! ### The fabric scheduler (R262, R285, R480, R481) -/

/-- The record of a packet: its 48-byte header, with length and, for a mirror copy, queue replaced, and its bytes (R480). -/
def recordOf (pkt : Packet) (hdrQ : Option Nat) : List Nat :=
  let h := patchB (sliceB pkt.fwd 0 48) 14 (beBytes 2 pkt.bytes.length)
  let h := match hdrQ with
    | some q => patchB h 4 (beBytes 3 (q % 2 ^ 20))
    | none => h
  h ++ pkt.bytes

/-- A record's bytes over new cells of 240 bytes each; `first` says that the record begins in the first of them. -/
def newCells (proto : TxCell) : Nat → Bool → List Nat → List TxCell
  | 0, _, _ => []
  | n + 1, begins, bytes =>
    if bytes.isEmpty then []
    else { proto with payload := bytes.take 240, first := if begins then 0 else 0xFF } :: newCells proto n false (bytes.drop 240)

/-- A record placed in a transmit queue (R262, R481): in native mode it may begin in the last cell, at a payload offset of 192 or
less, when that cell's type, class and destination are its own. -/
def placeRecord (native : Bool) (q : List TxCell) (proto : TxCell) (rec_ : List Nat) : List TxCell :=
  match q.getLast? with
  | some z =>
    if native && z.ucast == proto.ucast && z.cls == proto.cls && z.dst == proto.dst && decide (z.payload.length ≤ 192) then
      let used := z.payload.length
      let z' := { z with payload := z.payload ++ rec_.take (240 - used), first := if z.first = 0xFF then used else z.first,
                         pkts := z.pkts ++ proto.pkts }
      q.dropLast ++ [z'] ++ newCells proto rec_.length false (rec_.drop (240 - used))
    else q ++ newCells proto rec_.length true rec_
  | none => newCells proto rec_.length true rec_

/-- The link that the head packet of a VOQ may be sent on now: its bucket is not held and the queue of its link has room for the whole
packet (R283, R285, R287), with that queue as it would be. -/
def State.placeHead (s : State) (v : Nat) : Option (Nat × Nat × List TxCell) :=
  match (s.queue (voqKey v)).ents with
  | [] => none
  | e :: _ =>
    let pkt := (s.chain e.ptr).pkt
    let dev := s.destDev (v / 8)
    let k := 64 * dev + beNat (sliceB pkt.fwd 16 4) % 64
    let b := s.bucket k
    match b.link with
    | none => none
    | some l =>
      let uc := s.destKind (v / 8) == 1
      let proto : TxCell := { ucast := uc, cls := v % 8, dst := if uc then dev else v / 8, payload := [], first := 0xFF,
                              pkts := [{ bucket := k, ptr := e.ptr, gen := e.gen, voq := v, len := e.len }] }
      let q := placeRecord (s.rd (FLK_CTL.mode l) == 0) (s.txq l) proto (recordOf pkt e.hdrQ)
      if !b.held ∧ (s.usable dev).contains l ∧ q.length ≤ 128 then some (k, l, q) else none

/-- Whether a VOQ can send (R285). -/
def State.canSend (s : State) (v : Nat) : Bool :=
  (match s.destKind (v / 8) with
   | 1 => decide (0 < (s.voq v).balance)
   | 2 => s.destRate (v / 8) != 0 && decide (Tbl.get 0 s.qm.pace (v / 8) ≤ s.fine)
   | _ => false) && (s.placeHead v).isSome

/-- The VOQ served next: the highest class first, in rotation within the class (R285). -/
def State.nextVoq (s : State) : Option Nat :=
  let vs := (Tbl.keysWhere (fun k (q : Queue) => decide (2 ^ 20 ≤ k) && !q.ents.isEmpty) s.qm.queues).map (· - 2 ^ 20)
  let can := vs.filter s.canSend
  ([7, 6, 5, 4, 3, 2, 1, 0].filterMap (fun c => firstFrom (Tbl.get 0 s.qm.voqLast c) (can.filter (fun v => v % 8 == c)))).head?

/-- A chain whose read fails: 0 sound, 3 sound after a correction, 1 an uncorrectable error in a cell, 2 one in a link word or the header, which leaves its cells
unreachable (R240, R241); or it lay on a RESERVE channel that has failed (R243). The drop reason and whether cells are lost. -/
def State.readError (s : State) (ptr ecc : Nat) : Option (Nat × Bool) :=
  let bad := (s.chain ptr).bad
  if bad = 8 then some (8, false)
  else if ecc = 2 ∨ bad = 0x17 then some (7, tierOf ptr != 2)
  else if ecc = 1 ∨ bad = 7 then some (7, false)
  else none

/-- A chain's cells made unreachable: they leave the chain and stay taken until the audit finds them (R241). -/
def State.loseCells (s : State) (ptr : Nat) : State :=
  let x := s.chain ptr
  let s := { s with bpm := { s.bpm with lost := s.bpm.lost ++ x.cells.map (fun k => cellPtr (tierOf ptr) k) } }
  (s.setChain ptr { x with cells := [] }).postTwo 0x0504 1 0

/-- A packet dropped at its read (R240, R241, R243): counted and released. -/
def State.dropRead (s : State) (k : Nat) (e : QEnt) (reason : Nat) (lost : Bool) : State :=
  let s := s.dropAt k reason e.len
  (if lost then s.loseCells e.ptr else s).releaseQueued e

/-- FABRIC_SCHEDULE (R270, R271, R285): the next VOQ that can send has its head packet placed in its link's transmit queue. `ecc` says
what the read of the chain met. Nothing is served while the bridge is lost. -/
def execFabricSchedule (ecc : Nat) (s : State) : Out :=
  match s.nextVoq with
  | none => .next s
  | some v =>
    if !s.bridgeUp then .next s
    else
      match (s.queue (voqKey v)).ents, s.placeHead v with
      | e :: _, some (_, l, q) =>
        let uc := s.destKind (v / 8) == 1
        let s := { s with qm := { s.qm with voqLast := Tbl.set 0 s.qm.voqLast (v % 8) (v + 1) } }
        let s := if uc then s.setVoq v { s.voq v with balance := (s.voq v).balance - e.len }
          else { s with qm := { s.qm with pace := Tbl.set 0 s.qm.pace (v / 8) (s.paceNext (Tbl.get 0 s.qm.pace (v / 8)) (e.len * 80) (s.destRate (v / 8))) } }
        let live := s.handleOk e.ptr e.gen
        let bad := s.readError e.ptr ecc
        let s := s.dequeue (voqKey v) (if !live ∨ bad.isSome then 0x10 else 0x11)
        if !live then .next (s.releaseQueued e)
        else
        let s := s.readMark ecc
        match bad with
        | some (r, lost) => .next (s.dropRead (voqKey v) e r lost)
        | none =>
          let x := s.chain e.ptr
          let s := s.setChain e.ptr { x with owner := if x.owner = ownerShared then ownerShared else 0x11 }
          let s := s.setTxq l q
          .next (match e.session with
            | some k => s.countCopy k true e.len
            | none => s)
      | _, _ => .next s

/-! ### Indirect entries (R244, R254, R305) -/

/-- Writable bits of a word of an indirect entry (*Indirect entries*). -/
def entMask (kind w : Nat) : Nat :=
  match kind, w with
  | 0, 0 | 1, 0 => 0x800001FF
  | 2, 0 => 0xC7FFFFFF
  | 3, 0 => 0x80FFFFFF
  | 3, 1 => 0xFFFF
  | 4, 0 => 0xFFFFFFFF
  | 4, 1 => 0xFFFF
  | 5, 0 => 0xFFFFF
  | 5, 1 => 0x1FFF
  | 6, 0 => 0xFFFFF
  | _, _ => 0

/-- Entries of a kind. -/
def entCount (kind : Nat) : Nat := ([1048576, 65536, 8192, 8192, 2048, 8192, 1048576][kind]?).getD 0

/-- A word of an indirect entry stored. -/
def State.setEnt (s : State) (kind index w v : Nat) : State :=
  let v := Nat.land v (entMask kind w)
  if kind = 3 ∧ w = 1 then { s with qm := { s.qm with stop := Tbl.set 0xFFFF s.qm.stop index v } }
  else { s with qm := { s.qm with tab := Tbl.set 0 s.qm.tab (entKey kind index w) v } }

/-- A write of an indirect entry; `false` where it is refused (R254). An index beyond the kind writes nothing. -/
def State.writeEnt (s : State) (kind index w0 w1 : Nat) : Bool × State :=
  if entCount kind ≤ index then (true, s)
  else if kind = 5 ∧ (4096 < w1 % 2 ^ 13 ∨ 1048576 < w0 % 2 ^ 20 + w1 % 2 ^ 13) then (false, s)
  else
    let was := s
    let s := (s.setEnt kind index 0 w0)
    let s := if entMask kind 1 = 0 then s else s.setEnt kind index 1 w1
    (true, match kind with
      | 0 | 1 =>
        let k := if kind = 0 then index else voqKey index
        let n := (s.queue k).cells
        let s := if was.qProfile k = s.qProfile k then s else (s.occChange (was.qProfile k) (· - n)).occChange (s.qProfile k) (· + n)
        s.settle
      | 3 =>
        if !s.egValid index then { s with qm := { s.qm with gens := Tbl.erase s.qm.gens index } }
        else if was.egValid index then s
        else { s with qm := { s.qm with gens := Tbl.set {} s.qm.gens index { at_ := s.fine } } }
      | 4 =>
        let s := s.rebuild index
        State.reachChanged was s index
      | _ => s)

/-- The words that a read of an indirect entry gives. -/
def State.readEnt (s : State) (kind index : Nat) : List Nat :=
  if entCount kind ≤ index then [0, 0, 0, 0]
  else
    let q := s.queue (if kind = 0 then index else voqKey index)
    match kind with
    | 0 | 1 =>
      [s.entWord kind index 0, min q.cells (2 ^ 32 - 1), min q.pkts (2 ^ 32 - 1),
       if kind = 1 then unsigned 32 (s.voq index).balance else 0]
    | 3 => [s.entWord 3 index 0, s.egStop index, 0, 0]
    | _ => [s.entWord kind index 0, s.entWord kind index 1, 0, 0]

/-- Element `i` of a list of words. -/
def wordAt (l : List Nat) (i : Nat) : Nat := (l[i]?).getD 0

/-- The write and read bits of QM_TCMD on an access path (R305, R655). -/
def State.tcmd (s : State) (p : Path) (write read : Bool) : State :=
  let kind := s.rd (QM_TIDX.kind.on p)
  let index := s.rd (QM_TIDX.index.on p)
  let s := if write then
      let (ok, s) := s.writeEnt kind index (s.rd (QM_TDATA0.word.on p)) (s.rd (QM_TDATA1.word.on p))
      if ok then s else s.wr (QM_TCMD.refused.on p) 1
    else s
  if read then
    let w := s.readEnt kind index
    (((s.wr (QM_TDATA0.word.on p) (wordAt w 0)).wr (QM_TDATA1.word.on p) (wordAt w 1)).wr (QM_TDATA2.word.on p) (wordAt w 2)).wr
      (QM_TDATA3.word.on p) (wordAt w 3)
  else s

end Sys2Proof.Machine
end

