-- ==== Sys2Proof/Machine/Egress.lean ====
section
/-! DEFINITION. The egress selection (07_scheduling_shaping.md, R310, R313 to R315; 06_queues_fabric.md, R303): which port is served, and
where the packet that its tree names goes. -/
namespace Sys2Proof.Machine

/-- The PUNT rings of a priority class that hold a taken, unfilled buffer (R385). -/
def State.puntRings (s : State) (cls : Nat) : List Nat :=
  Tbl.keysWhere (fun _ (g : Ring) => g.kind == 3 && g.cls == cls && (g.st == .running || g.st == .error) && !g.buffers.isEmpty) s.hif.rings

/-- Taken, unfilled buffers of the PUNT rings of a class. -/
def State.puntRoom (s : State) (cls : Nat) : Nat :=
  ((s.puntRings cls).map (fun r => (s.ring r).buffers.length - (if (s.ring r).stuck.isSome then 1 else 0))).foldl (· + ·) 0

/-- The session of a queue's head entry. -/
def State.headSession (s : State) (q : Nat) : Option Nat :=
  match (s.queue q).ents with
  | e :: _ => e.session
  | [] => none

/-- Whether the consumer of a port has room for the head packet of queue `q` (R313, *Internal ports*). -/
def State.portRoom (s : State) (p q : Nat) : Bool :=
  if p < 128 then s.portState p == 2 && s.bridgeUp && s.dies.tf.waiting.all (·.control) && decide ((s.dispQ true (p / 32)).length < 4096)
  else if p < 132 then s.bridgeUp && s.dies.tf.waiting.all (·.control) && decide ((s.dispQ false (p - 128)).length < 4096)
  else if p < 136 then
    match s.headSession q with
    | none => true
    | some k => let g := s.ring (s.session k).ring; !(g.st == .running && g.kind == 5 && g.room == 0)
  else decide (p < 140) && decide ((s.hif.puntQ.filter (fun k => k.cls == p - 136)).length < s.puntRoom (p - 136))

/-- The queue that a port would send from now, if it can be served (R313 to R315). -/
def State.served (s : State) (p : Nat) : Option Nat :=
  let x := s.node 4 p
  if !s.bit SCH_CFG.enable ∨ !x.enable ∨ (x.peak.rate ≠ 0 ∧ (s.evalNode x).peak.tok ≤ 0) then none
  else
    match s.candQueue 4 p with
    | none => none
    | some q => if s.portRoom p q then some q else none

/-- The packet at the head of queue `q` leaves through its path to a reader: charged at every node, taken from its queue, and the nodes of the
path take their next candidates (R316, R323). -/
def State.takeHead (s : State) (q unit : Nat) (e : QEnt) : State :=
  let path := s.pathUp 5 0 q
  let s := path.foldl (fun s ln => s.charge e.len ln) s
  ((s.dequeue q unit).refill path).inc SCH_SELCNT.count

/-- Whether an entry has waited longer than its port's age_ms (R303). -/
def State.aged (s : State) (p : Nat) (e : QEnt) : Bool :=
  let a := s.rd (QM_PORTAGE.age_ms p)
  a != 0 && decide (ms a < s.ageOf (s.chain e.ptr).enq)

/-- The packet as the egress side has it: the result of its record with a mirror copy's queue, its queue, its port and the time. -/
def State.egressPacket (s : State) (p q : Nat) (e : QEnt) : Packet :=
  let k := (s.chain e.ptr).pkt
  let fwd := match e.hdrQ with
    | some h => patchB (sliceB k.fwd 0 48) 4 (beBytes 3 (h % 2 ^ 20))
    | none => k.fwd
  { k with fwd := fwd, queue := q, outPort := p, sec := s.netNs / 10 ^ 9, ns := s.netNs % 10 ^ 9 }

/-- A chain passes to its reader (R236). -/
def State.ownBy (s : State) (ptr owner : Nat) : State :=
  let x := s.chain ptr
  s.setChain ptr { x with owner := if x.owner = ownerShared then ownerShared else owner }

/-- The reader of a port's packets, by its owner code: EGRESS_READ, QUEUED for a sample ring, which copies at once, or HOST_PUNT. -/
def readerOf (p : Nat) : Nat := if p < 132 then 0x12 else if p < 136 then 0x10 else 0x13

/-- A selected packet goes to its port's consumer: over the bridge, to a sample ring, or to the punt rings (R310). -/
def State.deliverTo (s : State) (p q : Nat) (e : QEnt) : State :=
  if p < 132 then (s.ownBy e.ptr 0x12).bridgeBack (s.egressPacket p q e)
  else if p < 136 then
    let k := (s.chain e.ptr).pkt
    let s := match e.session with
      | some n => s.putSample { session := n, pipe := p - 132, source := 1, port := leAt k.fwd 7 1, length := e.len,
                                bytes := k.bytes, ns := s.netNs % 10 ^ 9, sec := s.netNs / 10 ^ 9 }
      | none => s
    s.releaseQueued e
  else
    let s := s.ownBy e.ptr 0x13
    { s with hif := { s.hif with puntQ := s.hif.puntQ ++ [{ cls := p - 136, ptr := e.ptr, gen := e.gen, len := e.len }] } }

/-- EGRESS_SELECT (R240, R303, R310 to R316, R321 to R323): the next port in rotation that can be served selects a packet through the tree.
`ecc` says what the read of the chain met, as in FABRIC_SCHEDULE; a packet for a line port whose cell cannot be read goes on, marked errored, to
the MAC that drops it (R460). -/
def execEgressSelect (ecc : Nat) (s : State) : Out :=
  let s := s.settle
  match firstFrom s.sch.next ((List.range 140).filter (fun p => (s.served p).isSome)) with
  | none => .next s
  | some p =>
    match s.served p with
    | none => .next s
    | some q =>
      match (s.queue q).ents with
      | [] => .next s
      | e :: _ =>
        let old := s.aged p e
        let live := s.handleOk e.ptr e.gen
        let bad := s.readError e.ptr ecc
        let sent := s.egressPacket p q e
        let s := s.takeHead q (if old ∨ !live ∨ bad.isSome then 0x10 else readerOf p) e
        let s := { s with sch := { s.sch with next := p + 1 } }
        if !live then .next (s.releaseQueued e)
        else if old then .next ((s.dropAt q 0xB e.len).releaseQueued e)
        else
          let s := s.readMark ecc
          match bad with
          | some (r, lost) =>
            let s := s.dropRead q e r lost
            .next (if p < 128 ∧ r = 7 ∧ !lost then s.bridgeBack { sent with errored := true } else s)
          | none => .next (s.deliverTo p q e)

end Sys2Proof.Machine
end

