-- ==== Sys2Proof/Machine/TimeGates.lean ====
section
/-! DEFINITION. Time gates (07_scheduling_shaping.md, R335 to R344): gate control lists, activation, and the gates that the
scheduler applies. -/
namespace Sys2Proof.Machine

/-- A gate replaced. -/
def State.setGate (s : State) (p : Nat) (g : Gate) : State := { s with sch := { s.sch with gates := Tbl.set {} s.sch.gates p g } }

/-- An entry of a list bank: gate bits and interval (R335). -/
def Gate.entry (g : Gate) (bank k : Nat) : Nat × Nat := Tbl.get (0, 0) g.list (1024 * bank + k)

/-- The gate bits at phase `ph` of a list of `n` entries from entry `k`: the last entry's states hold until the cycle ends (R336). -/
def Gate.scan (g : Gate) (bank : Nat) : Nat → Nat → Nat → Nat
  | 0, k, _ => (g.entry bank (k - 1)).1
  | n + 1, k, ph => if ph < (g.entry bank k).2 then (g.entry bank k).1 else g.scan bank n (k + 1) (ph - (g.entry bank k).2)

/-- The gate bits of a list started at `start` with cycle `cyc` and `n` entries, at time `t` not before it (R336). -/
def Gate.listAt (g : Gate) (bank start cyc n t : Nat) : Nat := g.scan bank n 0 ((t - start) % cyc)

/-- The gate bits at network time `t` without a pending list (R336, R341, R344): those of the operational list, else init_gates; before the
start of the operational list, the states held before it. -/
def Gate.nowBits (g : Gate) (init t : Nat) : Nat :=
  match g.oper with
  | some (b, st, cyc, n) => if st ≤ t then g.listAt b st cyc n t else g.before
  | none => init

/-- The gate bits of a port at network time `t` (R341): a pending list's from its start. -/
def Gate.bitsFor (g : Gate) (init t : Nat) : Nat :=
  match g.pend with
  | some (st, cyc, n) => if st ≤ t then g.listAt g.admin st cyc n t else g.nowBits init t
  | none => g.nowBits init t

/-- The gate states of a line port at network time `t`: all open while gating is off. -/
def State.gatesAt (s : State) (p t : Nat) : Nat :=
  if s.bit (TG_CTL.enable p) then (s.gate p).bitsFor (s.rd (TG_CTL.init_gates p)) t else 255

/-- Entries of a list, in turn, as gate bits and the part of the cycle that each spans (R336): cut at the cycle, the last one stretched
to it. -/
def Gate.spans (g : Gate) (bank : Nat) : Nat → Nat → Nat → List (Nat × Nat)
  | 0, _, _ => []
  | 1, k, left => [((g.entry bank k).1, left)]
  | n + 2, k, left =>
    let (b, d) := g.entry bank k
    if left ≤ d then [(b, left)] else (b, d) :: g.spans bank (n + 1) (k + 1) (left - d)

/-- How long the spans stay open for class `cls`, after `skip` ns of the first: the sum to the first span that closes it, or none. -/
def openFor (cls skip : Nat) : List (Nat × Nat) → Option Nat
  | [] => none
  | (b, d) :: r =>
    if d ≤ skip then openFor cls (skip - d) r
    else if !bitOf b cls then some 0
    else (openFor cls 0 r).map (· + (d - skip))

/-- Time from `t` to the next close of gate `cls` by a list that started at `st`, across entries and the cycle boundary; none where no entry
closes it. -/
def Gate.listClose (g : Gate) (bank st cyc n cls t : Nat) : Option Nat :=
  let one := g.spans bank n 0 cyc
  openFor cls ((t - st) % cyc) (one ++ one)

/-- Time from `t` to the next close of gate `cls` without a pending list; init_gates never close a gate. -/
def Gate.nowClose (g : Gate) (cls t : Nat) : Option Nat :=
  match g.oper with
  | none => none
  | some (b, st, cyc, n) => if st ≤ t then g.listClose b st cyc n cls t else (g.listClose b st cyc n cls st).map (· + (st - t))

/-- Time from `t` to the next close of gate `cls` of a port, in the list that runs and, from S on, in a pending one; none where no entry closes
it (R338, R341). -/
def State.nextClose (s : State) (p cls t : Nat) : Option Nat :=
  let g := s.gate p
  if !s.bit (TG_CTL.enable p) then none
  else match g.pend with
    | none => g.nowClose cls t
    | some (st, cyc, n) =>
      if st ≤ t then g.listClose g.admin st cyc n cls t
      else
        let later := (g.listClose g.admin st cyc n cls st).map (· + (st - t))
        match g.nowClose cls t with
        | none => later
        | some d => if d < st - t then some d else later

/-- The operational or pending list's start time in TG_START0 to TG_START2. -/
def State.showStart (s : State) (p st : Nat) : State :=
  ((s.wr (TG_START0.ns p) (st % 10 ^ 9)).wr (TG_START1.sec_lo p) (st / 10 ^ 9)).wr (TG_START2.sec_hi p) (st / 10 ^ 9 / 2 ^ 32)

/-- The scheduler takes up the gates as they stand `lead_ns` ahead (R337); a close withdraws committed candidates (R318). -/
def State.leadGates (s : State) (p : Nat) : State :=
  let now := s.gatesAt p (s.netNs + s.rd (TG_LEAD.lead_ns p))
  let s := s.setGate p { s.gate p with sched := now }
  s.stopClasses p (255 - now % 256)

/-- Why an activation is refused, as TG_STAT.reason gives it (R343); 0 where it is not. -/
def State.gateRefusal (s : State) (p : Nat) : Nat :=
  let g := s.gate p
  let n := s.rd (TG_LEN.entries p)
  let cyc := s.rd (TG_CYCLE.ns p)
  if n = 0 ∨ 1024 < n then 2
  else if (List.range n).any (fun k => let d := (g.entry g.admin k).2; decide (d < 32) || decide (10 ^ 9 < d)) then 3
  else if cyc < 1000 ∨ 10 ^ 9 < cyc then 4
  else if 10 ^ 9 ≤ s.rd (TG_BASE0.ns p) then 5
  else 0

/-- Activation of the administrative bank (R340, R342, R343). -/
def State.activateGate (s : State) (p : Nat) : State :=
  let r := s.gateRefusal p
  if r ≠ 0 then ((s.wr (TG_STAT.refused p) 1).wr (TG_STAT.reason p) r).post 0x0702 [p, r]
  else
    let cyc := s.rd (TG_CYCLE.ns p)
    let base := (s.rd (TG_BASE1.sec_lo p) + 2 ^ 32 * s.rd (TG_BASE2.sec_hi p)) * 10 ^ 9 + s.rd (TG_BASE0.ns p)
    let n := ceilDiv (s.netNs + 2000 - base) cyc
    let st := base + n * cyc
    let s := s.setGate p { s.gate p with pend := some (st, cyc, s.rd (TG_LEN.entries p)) }
    ((s.wr (TG_STAT.advanced p) (if 0 < n then 1 else 0)).wr (TG_STAT.pending p) 1).showStart p st

/-- A pending list is discarded (R342). -/
def State.cancelGate (s : State) (p : Nat) : State :=
  let s := (s.setGate p { s.gate p with pend := none }).wr (TG_STAT.pending p) 0
  match (s.gate p).oper with
  | some (_, st, _, _) => s.showStart p st
  | none => s

/-- TG_LIST_START (R341): at S the administrative bank becomes operational; the states held just before S are kept for R344. -/
def execTgListStart (p : Nat) (s : State) : Out :=
  let g := s.gate p
  match g.pend with
  | none => .next s
  | some (st, cyc, n) =>
    if p < 128 ∧ st ≤ s.netNs then
      let s := s.setGate p { g with oper := some (g.admin, st, cyc, n), pend := none, admin := 1 - g.admin, before := g.nowBits (s.rd (TG_CTL.init_gates p)) (st - 1) }
      let s := (s.wr (TG_STAT.pending p) 0).wr (TG_STAT.oper p) 1
      .next (s.post 0x0701 ([p, s.rd (TG_STAT.advanced p), 0, 0] ++ leBytes 4 (st % 10 ^ 9) ++ leBytes 6 (st / 10 ^ 9)))
    else .next s

/-- TG_SCHEDULER_GATE (R337): the lead time before a gate change of a line port. -/
def execTgSchedulerGate (p : Nat) (s : State) : Out := if p < 128 then .next (s.leadGates p) else .next s

/-- A write of an entry of a port's administrative bank; `false` where it is refused, while a list is pending (R335, R342). -/
def State.putGateEntry (s : State) (p k gates ivl : Nat) : Bool × State :=
  let g := s.gate p
  if g.pend.isSome then (false, (s.wr (TG_STAT.refused p) 1).wr (TG_STAT.reason p) 1)
  else (true, s.setGate p { g with list := Tbl.set (0, 0) g.list (1024 * g.admin + k) (gates, ivl) })

/-- Entry access on an access path (R335, R342): a write of the administrative bank, refused while a list is pending, and a read of
the bank that TG_ENTIDX chooses. -/
def State.gateEntry (s : State) (a : Path) (p : Nat) (write read : Bool) : State :=
  let k := s.rd ((TG_ENTIDX.entry p).on a)
  let s := if write then (s.putGateEntry p k (s.rd ((TG_ENTGATES.gates p).on a)) (s.rd ((TG_ENTIVL.ns p).on a))).2 else s
  if read then
    let g := s.gate p
    let e := g.entry (if s.bit ((TG_ENTIDX.bank p).on a) then 1 - g.admin else g.admin) k
    (s.wr ((TG_ENTGATES.gates p).on a) e.1).wr ((TG_ENTIVL.ns p).on a) e.2
  else s

/-- The line ports with an operational list. -/
def State.operPorts (s : State) : List Nat := (List.range 128).filter (fun p => (s.gate p).oper.isSome)

/-- TG_TIME_STEP, with the ports that have an operational list (R344). -/
def State.postTimeStep (s : State) : State := s.post 0x0703 (leBytes 16 (s.operPorts.foldl (fun a p => a + 2 ^ p) 0))

end Sys2Proof.Machine
end

