-- ==== Sys2Proof/Machine/Lines.lean ====
section
/-! DEFINITION. Line ports and their MACs (10_line_ports.md, R436 to R444, R453 to R466; 07_scheduling_shaping.md, R338, R339): modes,
enabling, bring-up, the fault condition and port states, frames received and sent, and timestamps. -/
namespace Sys2Proof.Machine

/-! ### Modes and lanes (R436 to R438) -/

/-- Whether a speed, lane count and FEC stand in *Port modes*. -/
def modeOk (speed lanes fec : Nat) : Bool :=
  match speed with
  | 0 => lanes == 1 && fec == 0
  | 1 => lanes == 1 && fec < 2
  | 2 => lanes == 1 && fec == 2
  | 3 => (lanes == 4 && fec == 1) || ((lanes == 2 || lanes == 1) && fec == 2)
  | 4 => (lanes == 4 || lanes == 2 || lanes == 1) && fec == 2
  | 5 => (lanes == 8 || lanes == 4 || lanes == 2) && fec == 2
  | 6 => (lanes == 8 || lanes == 4) && fec == 2
  | _ => lanes == 8 && fec == 2

/-- The lane rate of a mode, as SDS_CTL.rate numbers it. -/
def laneRate (speed lanes : Nat) : Nat :=
  match speed with
  | 0 => 0
  | 1 => 1
  | 2 => 2
  | _ => match speedGbps speed / lanes with
    | 25 => 1
    | 50 => 2
    | 100 => 3
    | _ => 4

/-- The lanes of a port. -/
def State.portLanes (s : State) (p : Nat) : List Nat := (List.range (s.rd (LPT_CFG.lanes p))).map (p + ·)

/-- The enabled port that holds a line lane. -/
def State.portOfLane (s : State) (ln : Nat) : Option Nat :=
  (List.range 128).find? (fun p => s.bit (LPT_CFG.enable p) && decide (p ≤ ln) && decide (ln < p + s.rd (LPT_CFG.lanes p)))

/-- A lane's data that is no register. -/
def State.lane (s : State) (ln : Nat) : Lane := Tbl.get {} s.lpt.lanes ln

/-- A lane's data replaced. -/
def State.setLane (s : State) (ln : Nat) (x : Lane) : State := { s with lpt := { s.lpt with lanes := Tbl.set {} s.lpt.lanes ln x } }

/-- A fabric lane that receives begins to adapt once it has signal and lock (R450): it tries a frozen state first, and otherwise adapts
fully, which counts in SDS_REACQ. -/
def State.adaptStart (s : State) (ln : Nat) : State :=
  if ln < 128 ∨ s.rd (SDS_STAT.state ln) ≠ 2 ∨ s.bit (SDS_STAT.los ln) ∨ s.bit (SDS_STAT.lol ln) ∨ s.bit (SDS_STAT.adapted ln) then s
  else
    let stored := s.bit (SDS_STAT.adapt_stored ln)
    let s := s.setLane ln { s.lane ln with adaptAt := s.clk + 1, fast := stored }
    if stored then s else s.inc (SDS_REACQ.count ln)

/-- A lane's receiver stops: it gives up its polarity, its alignment and its adaptation. -/
def State.laneStop (s : State) (ln : Nat) : State :=
  let pol := if s.bit (SDS_CTL.rx_pol_auto ln) then 0 else s.rd (SDS_CTL.rx_invert ln)
  let s := (((s.wr (SDS_STAT.rx_inverted ln) pol).wr (SDS_STAT.adapted ln) 0).wr (SDS_STAT.lol ln) 0).wr (SDS_STAT.align ln) 0
  s.setLane ln { s.lane ln with polKept := false, adaptAt := 0, good := 0, bad := 0 }

/-- A lane enters a state of *Lane states* (R442, R450 to R452): IDLE holds the adaptation of a lane that had completed it, with the
loss-of-signal detector on; OFF clears both detectors and the stored adaptation. -/
def State.laneTo (s : State) (ln st : Nat) : State :=
  let held := s.bit (SDS_STAT.adapted ln)
  let s := s.wr (SDS_STAT.state ln) st
  match st with
  | 2 => s.adaptStart ln
  | 0 => ((s.laneStop ln).wr (SDS_STAT.los ln) 0).wr (SDS_STAT.adapt_stored ln) 0
  | _ =>
    let s := s.laneStop ln
    if held then (s.wr (SDS_STAT.adapt_stored ln) 1).setLane ln { s.lane ln with frozenT := none } else s

/-- A lane's rate set by its port or link; a change clears the stored adaptation (R450). -/
def State.laneRateTo (s : State) (ln r : Nat) : State :=
  if s.rd (SDS_CTL.rate ln) = r then s else (s.wr (SDS_CTL.rate ln) r).wr (SDS_STAT.adapt_stored ln) 0

/-! ### The fault condition and port states (R453 to R458) -/

/-- Whether a lane of a port has loss of signal, or loss of lock. -/
def State.anyLos (s : State) (p : Nat) : Bool := (s.portLanes p).any (fun ln => s.bit (SDS_STAT.los ln))
def State.anyLol (s : State) (p : Nat) : Bool := (s.portLanes p).any (fun ln => s.bit (SDS_STAT.lol ln))

/-- The receiver of a port lacks block lock, alignment or FEC codeword lock: it has not found it yet, or has lost it (R453, R457). -/
def State.noLock (s : State) (p : Nat) : Bool := s.portState p != 0 && ((s.linePort p).unlocked || decide ((s.linePort p).step < 7))

/-- The cause of a port's fault condition as LPT_STAT.down_cause numbers it; 0 while there is none. The bridge's loss acts as force_rf
(*Island behaviour*). -/
def State.faultCause (s : State) (p : Nat) : Nat :=
  let m := s.linePort p
  if s.anyLos p then 1
  else if s.anyLol p then 2
  else if s.noLock p then 3
  else if m.rxLocal then 4
  else if m.rxRemote then 5
  else if s.bit (LPT_TXCFG.force_rf p) || !s.bridgeUp then 7
  else 0

/-- The bits that the lanes of a port have set, bit i for lane i. -/
def laneBits (l : List Nat) (f : Nat → Bool) : Nat := (l.zipIdx).foldl (fun a x => a + b2n (f x.1) * 2 ^ x.2) 0

/-- LPT_STAT as the lanes, the receiver and the peer give it. -/
def State.portStat (s : State) (p : Nat) : State :=
  let m := s.linePort p
  let ls := s.portLanes p
  let s := s.wr (LPT_STAT.lane_los p) (laneBits ls (fun ln => s.bit (SDS_STAT.los ln)))
  let s := s.wr (LPT_STAT.lane_lol p) (laneBits ls (fun ln => s.bit (SDS_STAT.lol ln)))
  let s := s.wrBit (LPT_STAT.local_fault p) (s.anyLos p || s.anyLol p || s.noLock p || m.rxLocal)
  let s := s.wrBit (LPT_STAT.remote_fault p) m.rxRemote
  let s := s.wrBit (LPT_STAT.aligned p) (decide (6 ≤ m.step) && !m.unlocked)
  s.wrBit (LPT_STAT.fec_lock p) (decide (7 ≤ m.step) && !m.unlocked && s.rd (LPT_CFG.fec p) != 0)

/-- Bring-up of a DOWN port stands no further than its lanes and receiver allow. -/
def State.stepBack (s : State) (p : Nat) : State :=
  let m := s.linePort p
  let cap := if s.anyLos p then 2 else if s.anyLol p then 3 else if m.unlocked then 5 else 7
  if cap < m.step then s.setLinePort p { m with step := cap, stepAt := s.clk, fast := false } else s

/-- What stands at the lane pins of an enabled port between frames: 1 idle, 2 remote fault (R457), 3 training frames (R441, step 2). -/
def State.macSends (s : State) (p : Nat) : Nat :=
  let m := s.linePort p
  if s.bit (LPT_CFG.lt_en p) && decide (m.step < 5) then 3
  else if s.bit (LPT_TXCFG.force_rf p) || !s.bridgeUp || s.noLock p || s.anyLos p || s.anyLol p || m.rxLocal then 2
  else 1

/-- A port is about to leave UP: the frame that it is receiving is discarded when it ends (R456). -/
def State.leaveUp (s : State) (p : Nat) : State :=
  if s.portState p = 2 then s.setLinePort p { s.linePort p with leftAt := s.clk + 1 } else s

/-- A port takes up a change of its fault condition (R454, R455). -/
def State.portTouch (s : State) (p : Nat) : State :=
  let s := if s.portState p = 1 then s.stepBack p else s
  let s := s.portStat p
  let m := s.linePort p
  let bad := s.faultCause p != 0
  match s.portState p with
  | 1 => if bad then s.setLinePort p { m with since := 0 }
         else if m.since = 0 then s.setLinePort p { m with since := s.clk + 1 } else s
  | 2 =>
    if bad then
      let s := s.leaveUp p
      ((s.wr (LPT_STAT.state p) 3).setLinePort p { s.linePort p with since := s.clk + 1 }).stopClasses p 255
    else s
  | 3 => if bad then s else ((s.wr (LPT_STAT.state p) 2).setLinePort p { m with since := 0 }).settle.pfcCatchUp p
  | _ => s

/-- LPT_TX_TIMESTAMP (R464, R465). -/
def State.txEvent (s : State) (p tag valid ns sec : Nat) : State :=
  s.post 0x0A03 ([p, tag, valid, 0] ++ leBytes 4 ns ++ leBytes 4 sec)

/-- The control word of a packet's timestamp request, where it has one that can be read (R463). -/
def Packet.tsWord (k : Packet) : Option (List Nat) := if k.tstamp then k.tsCtl else none

/-- Operation of a control word: 1 two-step capture, 2 one-step insert. -/
def tsOp (w : List Nat) : Nat := leAt w 0 1 / 64

/-- A frame dropped at the MAC: a two-step request posts its event with valid 0 (R465). -/
def State.macDrop (s : State) (p : Nat) (k : Packet) : State :=
  match k.tsWord with
  | some w => if tsOp w = 1 then s.txEvent p (leAt w 3 1) 0 0 0 else s
  | none => s

/-- Frames at the MAC of a port that is down are dropped and counted (R456). -/
def State.macFlush (s : State) (p : Nat) : State :=
  let m := s.linePort p
  let mine := (s.eng.toMac.filter (fun x => x.1 == p)).map (·.2)
  let all := (m.wait.flatMap (·.2)) ++ mine
  let s := s.setLinePort p { m with wait := [], pfc := [] }
  let s := { s with eng := { s.eng with toMac := s.eng.toMac.filter (fun x => x.1 != p) } }
  all.foldl (fun s k => (s.inc (LPT_TXDOWN.count p)).macDrop p k) s

/-- Every pause that a port received ends, and its own PFC repeats stop (R458). -/
def State.endPauses (s : State) (p : Nat) : State :=
  let s := s.wr (QM_PFCSTAT.paused p) 0
  { s with qm := { s.qm with pauseEnd := s.qm.pauseEnd.filter (fun e => e.1 / 8 != p) },
           bpm := { s.bpm with pfcSent := s.bpm.pfcSent.filter (fun e => e.1 / 8 != p) } }

/-- A port enters DOWN from UP or FAULT_PENDING (R455, R456, R458). -/
def State.enterDown (s : State) (p cause : Nat) : State :=
  let s := s.leaveUp p
  let s := ((s.wr (LPT_STAT.state p) 1).wr (LPT_STAT.down_cause p) cause).inc (LPT_LINKDOWN.count p)
  let s := s.setLinePort p { s.linePort p with since := 0 }
  let s := ((s.post 0x0A02 [p, cause]).endPauses p).macFlush p
  (s.portDown p).portTouch p

/-- A port enters UP (R441 step 8, R458). -/
def State.enterUp (s : State) (p : Nat) : State :=
  let s := (s.wr (LPT_STAT.state p) 2).setLinePort p { s.linePort p with since := 0 }
  ((s.post 0x0A01 [p, s.rd (LPT_CFG.speed p), s.rd (LPT_CFG.lanes p)]).portUp p).pfcCatchUp p

/-- FAULT_PENDING_EXPIRE (R455): the fault condition has lasted down_us. -/
def execFaultPendingExpire (p : Nat) (s : State) : Out :=
  let t := (s.linePort p).since
  if p < 128 ∧ s.portState p = 3 ∧ t ≠ 0 ∧ s.elapsed (t - 1) (us (s.rd (LPT_LINKCFG.down_us p))) then
    .next (s.enterDown p (s.faultCause p))
  else .next s

/-- UP_DEBOUNCE_EXPIRE (R454): the fault condition has been absent for up_ms with bring-up at its last step. -/
def execUpDebounceExpire (p : Nat) (s : State) : Out :=
  let t := (s.linePort p).since
  if p < 128 ∧ s.portState p = 1 ∧ t ≠ 0 ∧ s.elapsed (t - 1) (ms (s.rd (LPT_LINKCFG.up_ms p))) then .next (s.enterUp p) else .next s

/-- LOSS_OF_BLOCK_LOCK (R453): the receiver of a port that is up loses block lock, alignment or FEC lock. -/
def execLossOfBlockLock (p : Nat) (s : State) : Out :=
  if p < 128 ∧ s.portState p ≠ 0 ∧ 6 ≤ (s.linePort p).step then
    .next ((s.setLinePort p { s.linePort p with unlocked := true }).portTouch p)
  else .next s

/-- BLOCK_LOCK_REGAINED (R455): the receiver of a port that has not gone DOWN regains its lock. -/
def execBlockLockRegained (p : Nat) (s : State) : Out :=
  if p < 128 ∧ 2 ≤ s.portState p then .next ((s.setLinePort p { s.linePort p with unlocked := false }).portTouch p) else .next s

/-- FAULT_SEQUENCE_RECEIVE (R453, R457): local (`isLocal`) or remote fault sequences start or stop arriving. -/
def execFaultSequenceReceive (p : Nat) (isLocal on : Bool) (s : State) : Out :=
  if p < 128 ∧ s.portState p ≠ 0 then
    let m := s.linePort p
    .next ((s.setLinePort p (if isLocal then { m with rxLocal := on } else { m with rxRemote := on })).portTouch p)
  else .next s

/-! ### Enabling and bring-up (R438 to R444) -/

/-- The fields of a write of LPT_CFG. -/
structure LptWrite where
  enable   : Bool
  speed    : Nat
  lanes    : Nat
  fec      : Nat
  lt       : Nat
  reverse  : Nat
  loopback : Nat
  deriving DecidableEq, Repr

/-- LPT_CFG as it stands, and a write of it: values that a field does not accept leave the field. -/
def State.lptNow (s : State) (p : Nat) : LptWrite :=
  ⟨s.bit (LPT_CFG.enable p), s.rd (LPT_CFG.speed p), s.rd (LPT_CFG.lanes p), s.rd (LPT_CFG.fec p), s.rd (LPT_CFG.lt_en p),
   s.rd (LPT_CFG.tx_reverse p), s.rd (LPT_CFG.loopback p)⟩
def State.lptWrite (s : State) (p v : Nat) : LptWrite :=
  let n := bitsAt v 24 4
  let o := s.lptNow p
  ⟨bitOf v 31, bitsAt v 28 3, if n = 1 ∨ n = 2 ∨ n = 4 ∨ n = 8 then n else o.lanes, if bitsAt v 22 2 = 3 then o.fec else bitsAt v 22 2,
   bitsAt v 21 1, bitsAt v 20 1, if bitsAt v 18 2 = 3 then o.loopback else bitsAt v 18 2⟩

/-- The fields of LPT_CFG but enable stored. -/
def State.lptStore (s : State) (p : Nat) (w : LptWrite) : State :=
  let s := ((s.wr (LPT_CFG.speed p) w.speed).wr (LPT_CFG.lanes p) w.lanes).wr (LPT_CFG.fec p) w.fec
  ((s.wr (LPT_CFG.lt_en p) w.lt).wr (LPT_CFG.tx_reverse p) w.reverse).wr (LPT_CFG.loopback p) w.loopback

/-- Whether a write may enable a port (R437, R438). -/
def State.lptOk (s : State) (p : Nat) (w : LptWrite) : Bool :=
  modeOk w.speed w.lanes w.fec && decide (p % w.lanes = 0) &&
  (List.range w.lanes).all (fun i => (s.portOfLane (p + i)).isNone) && (s.portOfLane p).isNone

/-- The logical lane that each lane of a port of `n` lanes sends (R443). -/
def txLanes (n : Nat) (reverse : Bool) : List Nat := (List.range n).map (fun i => if reverse then n - 1 - i else i)

/-- A port is enabled: its lanes enter ACTIVE, with no PRBS run left on them, and bring-up begins (R439, R443, R452). -/
def State.portOn (s : State) (p : Nat) (w : LptWrite) : State :=
  let s := s.abandonTest 4 (fun ln => p ≤ ln && ln < p + w.lanes)
  let s := ((s.lptStore p w).wr (LPT_CFG.enable p) 1).wr (LPT_STAT.state p) 1
  let s := (s.portLanes p).foldl (fun s ln => ((s.wr (SDS_CTL.prbs ln) 0).laneRateTo ln (laneRate w.speed w.lanes)).laneTo ln 2) s
  (s.setLinePort p { (s.linePort p) with step := 1, stepAt := s.clk, txOrder := txLanes w.lanes (w.reverse == 1) }).portTouch p

/-- The time now in the units of LinePort.txEnd. -/
def State.lineTime (s : State) : Nat := 1600 * s.clk

/-- What a disabled port keeps of its MAC: the frame on the line, which ends now with an error code if it has not ended (R439), and when the
port left UP. -/
def State.cutFrame (s : State) (p : Nat) : LinePort :=
  let m := s.linePort p
  let on := decide (s.lineTime < m.txEnd)
  { tx := m.tx, txBad := m.txBad || on, txEnd := min m.txEnd s.lineTime, leftAt := m.leftAt }

/-- A port is disabled (R439): LPT_LINK_DOWN with cause 6, its MAC dropped, and its lanes idle. -/
def State.portOff (s : State) (p : Nat) : State :=
  let ls := s.portLanes p
  let s := s.leaveUp p
  let s := ((s.wr (LPT_CFG.enable p) 0).wr (LPT_STAT.state p) 0).wr (LPT_STAT.down_cause p) 6
  let s := ((s.post 0x0A02 [p, 6]).endPauses p).macFlush p
  let s := (s.setLinePort p (s.cutFrame p)).portDown p
  ls.foldl (fun s ln => s.laneTo ln 1) (s.portStat p)

/-- A write of LPT_CFG (R438, R439). -/
def State.writeLptCfg (s : State) (p v : Nat) : State :=
  let w := s.lptWrite p v
  if s.bit (LPT_CFG.enable p) then
    if w.enable then s else (s.portOff p).lptStore p w
  else if !w.enable then s.lptStore p w
  else if s.lptOk p w then s.portOn p w
  else s.wr (LPT_CFG.refused p) 1

/-- A write of LPT_TXCFG (R457, R460). -/
def State.writeLptTx (s : State) (p : Nat) (rf : Bool) (ipg : Nat) : State :=
  let s := if 8 ≤ ipg ∧ ipg ≤ 64 then s.wr (LPT_TXCFG.ipg p) ipg else s
  (s.wrBit (LPT_TXCFG.force_rf p) rf).portTouch p

/-- The stored adaptation of a lane whose temperature has drifted by 10 °C or more since it was frozen is cleared (R450). -/
def State.dropStored (s : State) (ln : Nat) (temp : Int) : State :=
  match (s.lane ln).frozenT with
  | none => s
  | some t => if 10 ≤ temp - t ∨ temp - t ≤ -10 then s.wr (SDS_STAT.adapt_stored ln) 0 else s

/-- The magnitude of a signed byte. -/
def tapSize (b : Nat) : Nat := if b < 128 then b else 256 - b

/-- A write of SDS_TXEQ: taps whose magnitudes sum above 64 are ignored, and SDS_CTL.refused is set. -/
def State.writeTxEq (s : State) (ln v : Nat) : State :=
  if 64 < tapSize (bitsAt v 24 8) + tapSize (bitsAt v 16 8) + bitsAt v 8 8 + tapSize (bitsAt v 0 8) then s.wr (SDS_CTL.refused ln) 1
  else (((s.wr (SDS_TXEQ.pre2 ln) (bitsAt v 24 8)).wr (SDS_TXEQ.pre1 ln) (bitsAt v 16 8)).wr (SDS_TXEQ.main_ ln) (bitsAt v 8 8)).wr
    (SDS_TXEQ.post1 ln) (bitsAt v 0 8)

/-- The measurement of a lane's eye, SDS_EYE as a word. -/
def State.setLaneEye (s : State) (ln eye : Nat) : State := (s.wr (SDS_EYE.eye_mv ln) (bitsAt eye 16 16)).wr (SDS_EYE.snr ln) (bitsAt eye 0 16)

/-- Adaptation of a lane of a port is complete (R441, step 5): its eye is measured and, under link training, its taps are the ones that the
peer has asked for. -/
def State.laneAdapted (s : State) (p ln : Nat) (got : Nat × Nat) : State :=
  let s := (s.wr (SDS_STAT.adapted ln) 1).setLaneEye ln got.2
  if s.bit (LPT_CFG.lt_en p) then s.writeTxEq ln got.1 else s

/-- The polarity search of a lane begins with the data as received, unless the lane has locked since it entered ACTIVE (R442). -/
def State.polStart (s : State) (ln : Nat) : State :=
  if s.bit (SDS_CTL.rx_pol_auto ln) ∧ !(s.lane ln).polKept then
    (s.wr (SDS_STAT.rx_inverted ln) 0).setLane ln { s.lane ln with polAt := s.clk }
  else s

/-- A lane has locked and keeps its polarity (R442). -/
def State.polKeep (s : State) (ln : Nat) : State :=
  if s.bit (SDS_CTL.rx_pol_auto ln) then s.setLane ln { s.lane ln with polKept := true } else s

/-- PCS lanes found on the `n` lanes of a port can be put in order: each is there once (R443). -/
def orderOk (n : Nat) (order : List Nat) : Bool := decide (n ≤ 1) || (order.length == n && (List.range n).all (order.contains ·))

/-- The step that follows the last one ended may end: signal (3) or lock (4) on every lane. -/
def State.stepReady (s : State) (p : Nat) : Bool :=
  match (s.linePort p).step with
  | 2 => !s.anyLos p
  | 3 => !s.anyLos p && !s.anyLol p
  | _ => true

/-- Lanes of a port that start to adapt fully count in SDS_REACQ. -/
def State.fullAdapt (s : State) (ls : List Nat) : State := ls.foldl (fun s ln => s.inc (SDS_REACQ.count ln)) s

/-- What the end of step `n` of *Bring-up* leaves on the lanes of a port; with it whether step 5 tries their frozen states. -/
def State.stepEnd (s : State) (p n : Nat) (temp : Int) (got : List (Nat × Nat)) : State × Bool :=
  let ls := s.portLanes p
  match n with
  | 4 =>
    let s := ls.foldl (fun s ln => s.dropStored ln temp) s
    (s.fullAdapt (ls.filter (fun ln => !s.bit (SDS_STAT.adapt_stored ln))), ls.all (fun ln => s.bit (SDS_STAT.adapt_stored ln)))
  | 5 =>
    let s := ls.foldl (fun s ln => (s.laneAdapted p ln ((got[ln - p]?).getD (0, 0))).polStart ln) s
    (s, false)
  | 6 => (ls.foldl (fun s ln => s.polKeep ln) s, false)
  | _ => (s, false)

/-- BRINGUP_STEP_COMPLETE (R441 to R443, R450): the present step of a DOWN port ends and the next begins. `temp` is the lanes' temperature, by
which stored adaptations are judged when step 5 begins; `got` what each lane's adaptation gives: the taps asked for by the peer and the eye;
`order` the logical lane that the alignment markers name on each lane. A mode without FEC has no step 7. -/
def execBringupStepComplete (p : Nat) (temp : Int) (got : List (Nat × Nat)) (order : List Nat) (s : State) : Out :=
  let m := s.linePort p
  let lanes := s.rd (LPT_CFG.lanes p)
  if p < 128 ∧ s.portState p = 1 ∧ 1 ≤ m.step ∧ m.step < 7 ∧ s.stepReady p ∧ (m.step ≠ 5 ∨ orderOk lanes order) then
    let n := m.step + 1
    let (s, fast) := s.stepEnd p n temp got
    let last := if n = 6 ∧ s.rd (LPT_CFG.fec p) = 0 then 7 else n
    let s := s.setLinePort p { m with step := last, stepAt := s.clk, fast := fast, unlocked := if 6 ≤ n then false else m.unlocked,
                                      rxOrder := if n = 6 then (if lanes ≤ 1 then [0] else order) else m.rxOrder }
    .next (s.portTouch p)
  else .next s

/-- The time that a step of *Bring-up* may take after the one before it, in ns. -/
def State.stepLimit (s : State) (p step : Nat) : Nat :=
  match step with
  | 2 => us 50
  | 3 => us 10
  | 4 => us 100
  | 5 => if (s.linePort p).fast then ms 2
         else if s.bit (LPT_CFG.lt_en p) then ms 500
         else if 2 ≤ laneRate (s.rd (LPT_CFG.speed p)) (s.rd (LPT_CFG.lanes p)) then ms 120 else ms 40
  | _ => ms 1

/-- SDS_ADAPT_FAIL, at most once per lane in each 1 s (R444); kind 0 line, 1 fabric. -/
def State.adaptFail (s : State) (ln kind step : Nat) : State :=
  s.postRated 0x0A04 ln (ms 1000) 1 (fun _ => leBytes 2 (if ln < 128 then ln else ln - 128) ++ [kind, step])

/-- The lanes that a step concerns when it overruns (R444): for step 4 those without lock, for another step those named, or every lane where
the step is the port's as a whole. -/
def State.lateLanes (s : State) (p n : Nat) (late : List Nat) : List Nat :=
  let ls := s.portLanes p
  let some_ := ls.filter (fun ln => if n = 4 then s.bit (SDS_STAT.lol ln) else late.contains ln)
  if some_.isEmpty then ls else some_

/-- BRINGUP_TIMEOUT (R444, R450): a step overruns its time on the lanes `late`; a fast reacquire becomes a full one, and any other step sends
the port back to step 2. Step 3 waits for signal. -/
def execBringupTimeout (p : Nat) (late : List Nat) (s : State) : Out :=
  let m := s.linePort p
  let n := m.step + 1
  let ls := s.lateLanes p n late
  if p < 128 ∧ s.portState p = 1 ∧ 2 ≤ n ∧ n ≤ 7 ∧ s.elapsed m.stepAt (s.stepLimit p n) ∧ (n ≠ 3 ∨ !s.anyLos p) then
    if n = 5 ∧ m.fast then .next ((s.fullAdapt ls).setLinePort p { m with fast := false, stepAt := s.clk })
    else
      let s := ls.foldl (fun s ln => (s.inc (SDS_REACQ.count ln)).adaptFail ln 0 n) s
      .next ((s.setLinePort p { m with step := 1, stepAt := s.clk, fast := false }).portTouch p)
  else .next s

/-! ### Frames received (R459, R462, R47) -/

/-- Network time `ago` ns ago with an adjustment in units of 1/256 ns, as seconds and nanoseconds. -/
def State.stampAt (s : State) (adj ago : Nat) : Nat × Nat :=
  let t := ((s.fdNs - ago : Nat) * 256 + signed 16 adj) / 256
  (t.toNat / 10 ^ 9 % 2 ^ 48, t.toNat % 10 ^ 9)

/-- The frame check sequence of a frame is correct. -/
def fcsOk (f : List Nat) : Bool := decide (4 ≤ f.length) && crc32 (f.take (f.length - 4)) == leNat (f.drop (f.length - 4))

/-- A MAC Control frame (R459): PAUSE, PFC, or another opcode. -/
def State.macControl (s : State) (p : Nat) (f : List Nat) : State :=
  match beNat (sliceB f 14 2) with
  | 0x0001 => s.pauseFrame p (beNat (sliceB f 16 2))
  | 0x0101 => s.pfcFrame p (beNat (sliceB f 16 2)) ((List.range 8).map (fun i => beNat (sliceB f (18 + 2 * i) 2)))
  | _ => s.inc (LPT_RXCTRL.count p)

/-- A frame whose timestamp point stood at the pins `ago` ns ago, and which the MAC passes to the parser of its pipe. -/
def State.macPass (s : State) (p : Nat) (f : List Nat) (ago : Nat) : State :=
  let (sec, ns) := s.stampAt (s.rd (LPT_TSDELAY.rx_adj p)) ago
  let k : Packet := { bytes := f.take (f.length - 4), pipe := p / 32, port := p, sec := sec, ns := ns, rxLen := f.length }
  let s := (s.inc (LPT_RXFRM.count p)).addSat (LPT_RXBYTE.count p) f.length
  { s with eng := { s.eng with arriving := Tbl.upd [] s.eng.arriving (p / 32) (fun l => l ++ [k]) } }

/-- The MAC takes what has passed the receive crossing (R459): a part marked errored is dropped without a check (R47), and a frame of which
an uncorrectable codeword holds bytes (`bad`) fails its check (R436). -/
def State.macTake (s : State) (p : Nat) (frame : List Nat) (ago : Nat) (errored bad : Bool) : State :=
  if errored then s
  else if bad ∨ !fcsOk frame then s.inc (LPT_RXFCS.count p)
  else if frame.length < 64 then s.inc (LPT_RXRUNT.count p)
  else if s.rd (LPT_MAXLEN.max_len p) < frame.length then s.inc (LPT_RXOVER.count p)
  else if beNat (sliceB frame 12 2) = 0x8808 then s.macControl p frame
  else s.macPass p frame ago

/-- The receive crossing of a line lane that receives overflows (R47). -/
def State.lineOverflow (s : State) (p ln : Nat) : State :=
  if (s.portLanes p).contains ln ∧ s.rd (SDS_STAT.state ln) = 2 then (s.inc (D2D_XOVFL.count ln)).post 0x0007 ([0, 0] ++ leBytes 2 ln) else s

/-- What the FEC of a port that has codeword lock has corrected and not corrected. -/
def State.fecCount (s : State) (p cor unc sym : Nat) : State :=
  if s.bit (LPT_STAT.fec_lock p) then ((s.addSat (LPT_FECCOR.count p) cor).addSat (LPT_FECUNC.count p) unc).addSat (LPT_FECSYM.count p) sym
  else s

/-- FRAME_RECEIVE (R47, R436, R456, R459, R462, *Island behaviour*): a frame, from destination address to frame check sequence, has arrived
on a port, its timestamp point at island clock `start`. `lost` says that the receive crossing of a lane overflowed after so many of its bytes
had passed; `cor`, `unc` and `sym` are the FEC's corrected and uncorrectable codewords and corrected symbols since the last frame, and `bad`
that one of the uncorrectable ones holds bytes of this one. -/
def execFrameReceive (p : Nat) (frame : List Nat) (start : Nat) (lost : Option (Nat × Nat)) (bad : Bool) (cor unc sym : Nat) (s : State) :
    Out :=
  if 128 ≤ p then .next s
  else
    let ago := s.clk - start
    let s := s.fecCount p cor unc sym
    match lost with
    | some (ln, n) => .next ((s.lineOverflow p ln).macTake p (frame.take n) ago true false)
    | none =>
      if start < (s.linePort p).leftAt then .next (s.inc (LPT_RXDOWN.count p))
      else if s.portState p < 2 then .next s
      else if !s.bridgeUp then .next (s.inc (D2D_ISLDROP.count (p / 32)))
      else if s.portState p = 3 then .next (s.inc (LPT_RXDOWN.count p))
      else .next (s.macTake p frame ago false (bad && s.rd (LPT_CFG.fec p) != 0))

/-! ### Frames sent (R338, R339, R460, R461, R463 to R465) -/

/-- Packets for a port that have come from its pipe join the MAC's waiting frames of their class; at a port that is down they are
dropped (R456). -/
def State.macCollect (s : State) (p : Nat) : State :=
  if s.portState p < 2 then s.macFlush p
  else
    let mine := (s.eng.toMac.filter (fun x => x.1 == p)).map (·.2)
    let m := s.linePort p
    let w := mine.foldl (fun t k => Tbl.upd [] t (s.qClass k.queue) (fun l => l ++ [k])) m.wait
    { s.setLinePort p { m with wait := w } with eng := { s.eng with toMac := s.eng.toMac.filter (fun x => x.1 != p) } }

/-- The length of a packet's frame on the line, its frame check sequence included (R460). -/
def Packet.frameLen (k : Packet) : Nat := max 60 k.bytes.length + 4

/-- Time in ns for a frame of `n` bytes with 20 bytes around it (R338). -/
def State.wireNs (s : State) (p n : Nat) : Nat := ceilDiv ((n + 20) * 8) (s.portGbps p)

/-- Whether a frame of a class may start now for the gates (R338). -/
def State.gateAdmits (s : State) (p cls n : Nat) : Bool :=
  bitOf (s.rd (TG_STAT.gates p)) cls && (match s.nextClose p cls s.netNs with
    | none => true
    | some d => decide (s.wireNs p n ≤ d))

/-- The ones'-complement sum of bytes as 16-bit words in network order, reduced modulo 65,535. -/
def onesSum (b : List Nat) : Nat := (b.zipIdx.foldl (fun a x => a + (if x.2 % 2 = 0 then x.1 * 256 else x.1)) 0) % 65535

/-- The two bytes at `off` changed so that the ones'-complement sum rises by `d` modulo 65,535 (R464); of the two forms of zero, which one
is written is a free value. -/
def State.fixSum (s : State) (b : List Nat) (off d : Nat) : List Nat × State :=
  let old := beNat (sliceB b off 2)
  let swap := fun v => v % 256 * 256 + v / 256
  let w := if off % 2 = 0 then old else swap old
  let v := (w + d) % 65535
  if d % 65535 = 0 then (b, s)
  else
    let (n, s) := s.fresh
    let v := if v = 0 then (if Config.pick n % 2 = 0 then 0 else 65535) else v
    (patchB b off (beBytes 2 (if off % 2 = 0 then v else swap v)), s)

/-- A frame's timestamp request as the MAC starts it: its bytes, changed by a one-step insert, and the state after a capture (R463 to
R465). -/
def State.stampFrame (s : State) (p : Nat) (k : Packet) (b : List Nat) : List Nat × State :=
  if !k.tstamp then (b, s)
  else
    match k.tsCtl with
    | none => (b, s.inc (LPT_TSERR.count p))
    | some w =>
      let (sec, ns) := s.stampAt (s.rd (LPT_TSDELAY.tx_adj p)) 0
      let tag := leAt w 3 1
      match tsOp w with
      | 0 => (b, s)
      | 1 =>
        let s := (((s.wr (LPT_TSLAST0.ns p) ns).wr (LPT_TSLAST1.sec_lo p) sec).wr (LPT_TSLAST2.sec_hi p) (sec / 2 ^ 32)).wr (LPT_TSLAST2.tag p) tag
        (b, s.txEvent p tag 1 ns (sec % 2 ^ 32))
      | 2 =>
        let off := leAt w 1 1
        let fix := bitOf (leAt w 0 1) 5
        let cks := leAt w 2 1
        if b.length < off + 10 ∨ (fix ∧ b.length < cks + 2) then (b, s.inc (LPT_TSERR.count p))
        else
          let c := patchB b off (beBytes 6 sec ++ beBytes 4 ns)
          if fix then s.fixSum c cks ((onesSum b + 65535 - onesSum c) % 65535) else (c, s)
      | _ => (b, s.inc (LPT_TSERR.count p))

/-- The line is free for a frame in this ns of the island clock. -/
def State.lineFree (s : State) (m : LinePort) : Bool := decide (m.txEnd < s.lineTime + 1600)

/-- A frame starts, at the end of the one before it or now: it holds the line for its bytes, 8 bytes of preamble, its frame check sequence
and the inter-packet gap (R460), each byte 12,800 units over the rate. -/
def State.startFrame (s : State) (p : Nat) (b : List Nat) : State :=
  let m := s.linePort p
  s.setLinePort p { m with tx := some b, txBad := false,
                           txEnd := max m.txEnd s.lineTime + (b.length + 12 + s.rd (LPT_TXCFG.ipg p)) * (12800 / s.portGbps p) }

/-- The bytes of a PFC frame without its frame check sequence (R461). -/
def State.pfcBytes (s : State) (p vector time : Nat) : List Nat :=
  let mac := beBytes 2 (s.rd (LPT_MACADDR1.addr_hi p)) ++ beBytes 4 (s.rd (LPT_MACADDR0.addr_lo p))
  sliceB ([0x01, 0x80, 0xC2, 0, 0, 0x01] ++ mac ++ [0x88, 0x08, 0x01, 0x01] ++ beBytes 2 vector ++
    (List.range 8).flatMap (fun c => beBytes 2 (if bitOf vector c then time else 0))) 0 60

/-- FRAME_TRANSMIT (R338, R455, R460 to R465): the MAC of an UP port starts its next frame: a PFC frame if one waits, else the oldest
waiting frame of class `cls`, which is not paused and whose gate lets it end in time. -/
def execFrameTransmit (p cls : Nat) (s : State) : Out :=
  if 128 ≤ p then .next s
  else
    let s := s.macCollect p
    let m := s.linePort p
    if s.portState p ≠ 2 ∨ !s.lineFree m then .next s
    else
      match m.pfc with
      | (v, t) :: rest => .next (((s.setLinePort p { m with pfc := rest }).inc (QM_PFCTX.count p)).startFrame p (s.pfcBytes p v t))
      | [] =>
        match Tbl.get [] m.wait cls with
        | [] => .next s
        | k :: rest =>
          let out := s.setLinePort p { m with wait := Tbl.set [] m.wait cls rest }
          if k.errored then .next ((out.inc (LPT_TXERR.count p)).macDrop p k)
          else if bitOf (s.rd (QM_PFCSTAT.paused p)) cls ∨ !s.gateAdmits p cls k.frameLen then .next s
          else
            let (b, out) := out.stampFrame p k (sliceB k.bytes 0 (max 60 k.bytes.length))
            let n := b.length + 4
            .next (((out.inc (LPT_TXFRM.count p)).addSat (LPT_TXBYTE.count p) n).startFrame p b)

/-- Frames at the head of a class that cannot end before their newly opened gate closes are dropped (R339). -/
def State.dropNoFit (p cls d : Nat) : Nat → State → State
  | 0, s => s
  | n + 1, s =>
    let m := s.linePort p
    match Tbl.get [] m.wait cls with
    | [] => s
    | k :: rest =>
      if s.wireNs p k.frameLen ≤ d then s
      else State.dropNoFit p cls d n (((s.setLinePort p { m with wait := Tbl.set [] m.wait cls rest }).inc (TG_NOFIT.count p)).macDrop p k)

/-- The gates of a port at its MAC become those of the schedule now: a gate that opens drops the frames that cannot end before the open
interval closes (R338, R339). -/
def State.applyGates (s : State) (p : Nat) : State :=
  let was := s.rd (TG_STAT.gates p)
  let now := s.gatesAt p s.netNs
  let s := (s.wr (TG_STAT.gates p) now).macCollect p
  (List.range 8).foldl (fun s c =>
    if bitOf now c ∧ !bitOf was c then
      match s.nextClose p c s.netNs with
      | none => s
      | some d => State.dropNoFit p c d (Tbl.get [] (s.linePort p).wait c).length s
    else s) s

/-- TG_GATE_CHANGE (R338, R339): a change of a port's schedule reaches its MAC. -/
def execTgGateChange (p : Nat) (s : State) : Out := if 128 ≤ p then .next s else .next (s.applyGates p)

/-- A write of TG_CTL.enable (R342): clearing it discards the lists and opens every gate at once. -/
def State.enableGate (s : State) (p : Nat) (on : Bool) : State :=
  let was := s.bit (TG_CTL.enable p)
  let s := s.wrBit (TG_CTL.enable p) on
  if on then
    if was then s else (s.applyGates p).leadGates p
  else
    let g := s.gate p
    let s := s.setGate p { g with oper := none, pend := none, sched := 255 }
    ((((s.wr (TG_STAT.pending p) 0).wr (TG_STAT.oper p) 0)).applyGates p).settle

/-- A step of network time has reached the die (R344): every operational list finds its place again from the new time. -/
def State.regate (s : State) : State :=
  s.operPorts.foldl (fun s p => (s.applyGates p).leadGates p) s


/-- POLARITY_SEARCH_SWITCH (R442): a line receiver in step 6 has searched for block lock for 200 µs and tries the other polarity; one that
has locked since it entered ACTIVE keeps its own. -/
def execPolaritySearchSwitch (ln : Nat) (s : State) : Out :=
  match s.portOfLane ln with
  | none => .next s
  | some p =>
    let m := s.linePort p
    let x := s.lane ln
    if s.portState p = 1 ∧ m.step = 5 ∧ s.bit (SDS_CTL.rx_pol_auto ln) ∧ !x.polKept ∧ s.elapsed (max m.stepAt x.polAt) (us 200) then
      .next ((s.setLane ln { x with polAt := s.clk }).wrBit (SDS_STAT.rx_inverted ln) (!s.bit (SDS_STAT.rx_inverted ln)))
    else .next s

end Sys2Proof.Machine
end

