-- ==== Sys2Proof/Machine/Links.lean ====
section
/-! DEFINITION. The Elmodor fabric links (11_fabric_link.md, R469 to R499) and the alignment of fabric lanes (10_line_ports.md, R445 to
R449): lane alignment, frames and overhead cells, fabric cells and reassembly, defects, and the one-second tick. -/
namespace Sys2Proof.Machine

/-! ### Links, lanes and defects (R470 to R473, R484, R492 to R494) -/

/-- A link's data that is no register. -/
def State.flink (s : State) (l : Nat) : FLink := Tbl.get {} s.flk.links l

/-- A link's data replaced. -/
def State.setFlink (s : State) (l : Nat) (x : FLink) : State := { s with flk := { s.flk with links := Tbl.set {} s.flk.links l x } }

/-- The four fabric lanes of a link, as lane indices. -/
def linkLanes (l : Nat) : List Nat := [128 + 4 * l, 129 + 4 * l, 130 + 4 * l, 131 + 4 * l]

/-- *Receive defects*: 0 LOS, 1 LOA, 2 LOF. -/
def defectBit (l d : Nat) : Fld := if d = 0 then FLK_STAT.los l else if d = 1 then FLK_STAT.loa l else FLK_STAT.lof l

/-- Set time and clear time of a defect, in ns. -/
def State.defectSet (s : State) (l d : Nat) : Nat :=
  s.rd (if d = 0 then FLK_DEFCFG0.set_ l else if d = 1 then FLK_DEFCFG1.set_ l else FLK_DEFCFG2.set_ l) * 100000
def State.defectClear (s : State) (l d : Nat) : Nat :=
  ms (s.rd (if d = 0 then FLK_DEFCFG0.clear l else if d = 1 then FLK_DEFCFG1.clear l else FLK_DEFCFG2.clear l))

/-- Defects are evaluated on an enabled link that is not in standby (R494). -/
def State.linkOn (s : State) (l : Nat) : Bool := s.bit (FLK_CTL.enable l) && !s.bit (FLK_CTL.standby l)

/-- The aligner is IN_FRAME. -/
def State.inFrame (s : State) (l : Nat) : Bool := s.linkOn l && s.rd (FLK_STAT.frame l) == 2

/-- The condition of a defect, and whether it is suppressed. -/
def State.defectCond (s : State) (l d : Nat) : Bool :=
  match d with
  | 0 => (linkLanes l).any (fun ln => s.bit (SDS_STAT.los ln))
  | 1 => !s.bit (FLK_STAT.aligned l)
  | _ => s.rd (FLK_STAT.frame l) != 2
def State.suppressed (s : State) (l d : Nat) : Bool :=
  match d with
  | 0 => false
  | 1 => s.bit (FLK_STAT.los l)
  | _ => s.bit (FLK_STAT.los l) || s.bit (FLK_STAT.loa l)

/-- A defect declared or cleared, with its event (R493). -/
def State.setDefect (s : State) (l d : Nat) (on : Bool) : State := (s.wrBit (defectBit l d) on).post 0x0B01 [l, d, b2n on]

/-- The partial records of the contexts that a link feeds are discarded (R484). -/
def State.dropPartials (s : State) (l : Nat) : State :=
  let mine := Tbl.keysWhere (fun _ (c : Ctx) => c.link == l + 1 && !c.part.isEmpty) s.flk.ctxs
  let s := s.addSat (FLK_REASMDROP.count l) mine.length
  { s with flk := { s.flk with ctxs := mine.foldl (fun t k => Tbl.upd {} t k (fun c => { c with part := [], owed := 0 })) s.flk.ctxs } }

/-- The aligner returns to SEARCH (R477, R478, R484). -/
def State.loseFrame (s : State) (l : Nat) : State :=
  let was := s.rd (FLK_STAT.frame l)
  let s := (s.wr (FLK_STAT.frame l) 0).setFlink l { s.flink l with seen := 0, miss := 0, psr := none, rdi := none, oof := true }
  if was = 2 then (s.inc (FLK_OOF.count l)).dropPartials l else s

/-- Blocks of 256 on a lane of a link, in ns, rounded down (R473). -/
def State.skewLimit (s : State) (l : Nat) : Nat := if s.bit (FLK_CTL.mode l) then 655 else 327

/-- Whether a link is lane-aligned (R473): four lanes LOCKED with the lane fields 0 to 3, and markers of one seq within the skew. Between
the markers of a set the alignment found before holds. -/
def State.laneAligned (s : State) (l : Nat) : Bool :=
  let ls := linkLanes l
  let at_ := ls.map (fun ln => (s.lane ln).markAt)
  let seqs := ls.map (fun ln => s.rd (SDS_STAT.seq ln))
  s.linkOn l && ls.all (fun ln => s.rd (SDS_STAT.align ln) == 2) &&
  [0, 1, 2, 3].all (fun i => ls.any (fun ln => s.rd (SDS_STAT.lane ln) == i)) &&
  (if seqs.eraseDups.length = 1 then decide (at_.foldl max 0 ≤ at_.foldl min (at_.headD 0) + s.skewLimit l) else s.bit (FLK_STAT.aligned l))

/-- A link's lane alignment as its lanes give it now. -/
def State.alignTouch (s : State) (l : Nat) : State :=
  let now := s.laneAligned l
  let s := if s.rd (FLK_STAT.frame l) ≠ 0 ∧ !now then s.loseFrame l else s
  s.wrBit (FLK_STAT.aligned l) now

/-- A declared defect that is suppressed clears at once (R492). -/
def State.suppress (s : State) (l d : Nat) : State :=
  if s.suppressed l d ∧ s.bit (defectBit l d) then s.setDefect l d false else s

/-- The integration of a defect: since when its condition is present while not declared, or absent while declared (R492). -/
def State.integrate (s : State) (l d : Nat) : State :=
  let x := s.flink l
  let c := s.defectCond l d
  let on := s.bit (defectBit l d)
  let keep := fun (t : Tbl Nat) (want : Bool) =>
    if want ∧ !s.suppressed l d ∧ s.linkOn l then (if Tbl.get 0 t d = 0 then Tbl.set 0 t d (s.clk + 1) else t) else Tbl.erase t d
  s.setFlink l { x with presentAt := keep x.presentAt (c && !on), absentAt := keep x.absentAt (!c && on), defect := x.defect || on }

/-- A link takes up a change of its lanes, its aligner or its defects. -/
def State.linkTouch (s : State) (l : Nat) : State :=
  let s := s.alignTouch l
  let s := (s.suppress l 1).suppress l 2
  [0, 1, 2].foldl (fun s d => s.integrate l d) s

/-- DEFECT_DECLARE (R484, R492, R493): the condition of a defect has been present for its set time. -/
def execDefectDeclare (l d : Nat) (s : State) : Out :=
  let t := Tbl.get 0 (s.flink l).presentAt d
  if l < 48 ∧ d < 3 ∧ t ≠ 0 ∧ !s.bit (defectBit l d) ∧ !s.suppressed l d ∧ s.elapsed (t - 1) (s.defectSet l d) then
    let s := ((s.setDefect l d true).dropPartials l).linkTouch l
    .next (s.defectLink l 2)
  else .next s

/-- DEFECT_CLEAR (R492): the condition of a declared defect has been absent for its clear time. -/
def execDefectClear (l d : Nat) (s : State) : Out :=
  let t := Tbl.get 0 (s.flink l).absentAt d
  if l < 48 ∧ d < 3 ∧ t ≠ 0 ∧ s.bit (defectBit l d) ∧ s.elapsed (t - 1) (s.defectClear l d) then
    .next (((s.setDefect l d false).linkTouch l).tryRestore l)
  else .next s

/-! ### Enabling and standby (R470, R471) -/

/-- A transmit defect declared or cleared, with its event (R489). -/
def State.setTxDefect (s : State) (l rdi cause : Nat) : State :=
  ((s.wr (FLK_STAT.tx_defect l) rdi).wr (FLK_STAT.rdi_cause_rx l) cause).post 0x0B02 [l, rdi, cause]

/-- A link's evaluation starts from clear (R471): its declared defects are cleared and its aligner searches; what it sends starts anew with a
lane marker (R445). -/
def State.linkClear (s : State) (l : Nat) : State :=
  let s := s.loseFrame l
  let s := [0, 1, 2].foldl (fun s d => if s.bit (defectBit l d) then s.setDefect l d false else s) s
  let s := if s.bit (FLK_STAT.tx_defect l) then s.setTxDefect l 0 0 else s
  (s.wr (FLK_STAT.aligned l) 0).setFlink l { s.flink l with presentAt := [], absentAt := [], rdiIn := false, mark := {}, txEnd := 0 }

/-- The lanes of a link enter a state at the rate of its mode. -/
def State.linkLanesTo (s : State) (l st : Nat) : State :=
  (linkLanes l).foldl (fun s ln => (s.laneRateTo ln (if s.bit (FLK_CTL.mode l) then 3 else 4)).laneTo ln st) s

/-- A write of FLK_CTL (R470, R471, R488). -/
def State.writeFlkCtl (s : State) (l v : Nat) : State :=
  let was := s.bit (FLK_CTL.enable l)
  let on := bitOf v 31
  let stand := s.bit (FLK_CTL.standby l)
  if was && on && (bitOf v 30 != s.bit (FLK_CTL.mode l) || bitOf v 28 != s.bit (FLK_CTL.tx_reverse l)) then s
  else
    let s := (((s.wrBit (FLK_CTL.enable l) on).wrBit (FLK_CTL.mode l) (bitOf v 30)).wrBit (FLK_CTL.standby l) (bitOf v 29)).wrBit
      (FLK_CTL.tx_reverse l) (bitOf v 28)
    let s := ((s.wrBit (FLK_CTL.force_rdi l) (bitOf v 27)).wrBit (FLK_CTL.psr_tx l) (bitOf v 26)).wr (FLK_CTL.plane l) (bitsAt v 24 2)
    let s := if on then s.abandonTest 5 (fun f => f / 4 == l) else s
    if on then
      if !was ∨ stand ≠ bitOf v 29 then
        ((s.linkClear l).linkLanesTo l (if bitOf v 29 then 1 else 2)).linkTouch l |>.tryRestore l
      else s
    else if was then ((s.linkClear l).linkLanesTo l 0).linkTouch l |>.defectLink l 2
    else s

/-! ### Lane markers and detectors (R446 to R449) -/

/-- A lane's port or link takes up a change of the lane. -/
def State.laneTouch (s : State) (ln : Nat) : State :=
  if ln < 128 then
    match s.portOfLane ln with
    | some p => s.portTouch p
    | none => s
  else s.linkTouch ((ln - 128) / 4)

/-- The adaptation state of a lane is frozen at a temperature (R450). -/
def State.freeze (s : State) (ln : Nat) (temp : Int) : State :=
  ((s.wr (SDS_STAT.adapt_stored ln) 1).wr (SDS_STAT.adapted ln) 0).setLane ln { s.lane ln with frozenT := some temp, adaptAt := 0 }

/-- A detector of a lane clears: a frozen state that no longer holds is dropped, and the lane adapts once both detectors are clear (R450). -/
def State.thaw (s : State) (ln : Nat) (temp : Int) : State := (((s.dropStored ln temp).adaptStart ln).laneTouch ln)

/-- LOSS_OF_SIGNAL_SET (R448, R450): the amplitude has stayed at or below `mv` for 1 µs, below los_mv. -/
def execLossOfSignalSet (ln mv : Nat) (temp : Int) (s : State) : Out :=
  if ln < 320 ∧ s.rd (SDS_STAT.state ln) ≠ 0 ∧ !s.bit (SDS_STAT.los ln) ∧ mv < s.rd (SDS_SIGCFG.los_mv ln) then
    .next ((((s.wr (SDS_STAT.los ln) 1).inc (SDS_LOSCNT.count ln)).freeze ln temp).laneTouch ln)
  else .next s

/-- LOSS_OF_SIGNAL_CLEAR (R448): the amplitude has stayed at or above `mv` for 10 µs, above los_mv + 10 mV. -/
def execLossOfSignalClear (ln mv : Nat) (temp : Int) (s : State) : Out :=
  if ln < 320 ∧ s.bit (SDS_STAT.los ln) ∧ s.rd (SDS_SIGCFG.los_mv ln) + 10 < mv then .next ((s.wr (SDS_STAT.los ln) 0).thaw ln temp)
  else .next s

/-- LOSS_OF_LOCK_SET (R449, R450): for 2 µs the CDR has been out of lock (`lock` false), or off the reference frequency by `ppm`, more than
250. -/
def execLossOfLockSet (ln : Nat) (lock : Bool) (ppm temp : Int) (s : State) : Out :=
  if ln < 320 ∧ s.rd (SDS_STAT.state ln) = 2 ∧ !s.bit (SDS_STAT.lol ln) ∧ (!lock ∨ 250 < ppm ∨ ppm < -250) then
    .next ((((s.wr (SDS_STAT.lol ln) 1).inc (SDS_LOLCNT.count ln)).freeze ln temp).laneTouch ln)
  else .next s

/-- LOSS_OF_LOCK_CLEAR (R449): the CDR has been in lock for 20 µs. -/
def execLossOfLockClear (ln : Nat) (temp : Int) (s : State) : Out :=
  if ln < 320 ∧ s.bit (SDS_STAT.lol ln) then .next ((s.wr (SDS_STAT.lol ln) 0).thaw ln temp) else .next s

/-- The distance in bits from a marker at codeword position `c` to the next one (R447). -/
def markerGap (c : Nat) : Nat := 4210688 + 300 * ((c + 16384) / 20)

/-- The fields of a good marker shown, and the time at which it stood. -/
def State.markGood (s : State) (ln lane cw seq : Nat) : State :=
  (((s.wr (SDS_STAT.lane ln) lane).wr (SDS_STAT.cw_pos ln) cw).wr (SDS_STAT.seq ln) seq).setLane ln
    { s.lane ln with markAt := s.clk, cw := cw % 20 }

/-- The adaptation of a fabric lane that is not LOCKED overruns its time (R444, R450): a frozen state tried for 2 ms gives way to full
adaptation, which is tried again after 120 ms, with SDS_ADAPT_FAIL. -/
def State.adaptLate (s : State) (ln : Nat) : State :=
  let x := s.lane ln
  if x.adaptAt = 0 then s
  else if x.fast ∧ s.elapsed (x.adaptAt - 1) (ms 2) then
    (s.setLane ln { x with adaptAt := s.clk + 1, fast := false }).inc (SDS_REACQ.count ln)
  else if !x.fast ∧ s.elapsed (x.adaptAt - 1) (ms 120) then
    ((s.setLane ln { x with adaptAt := s.clk + 1 }).inc (SDS_REACQ.count ln)).adaptFail ln 1 5
  else s

/-- A fabric lane that verifies a sighting enters LOCKED: its adaptation is complete and its polarity kept (R442, R446, R450). -/
def State.laneLocked (s : State) (ln : Nat) : State :=
  let s := ((s.wr (SDS_STAT.align ln) 2).wr (SDS_STAT.adapted ln) 1).polKeep ln
  (s.setLane ln { s.lane ln with adaptAt := 0, bad := 0 }).laneTouch ln

/-- What stands at one place of a fabric lane (R446). -/
structure Sight where
  /-- The comma matches there, and it matches inverted. -/
  seen  : Bool
  inv   : Bool
  /-- Bits since the place looked at before. -/
  dist  : Nat
  /-- Fields of the marker, and the BIP bits in error over the blocks before it. -/
  lane  : Nat
  laneN : Nat
  cw    : Nat
  seq   : Nat
  bip   : Nat
  deriving DecidableEq, Repr

/-- A sighting starts VERIFY; an inverted one sets the polarity of a lane that searches for it (R442, R446). -/
def State.sighting (s : State) (ln : Nat) (m : Sight) : State :=
  let x := s.lane ln
  let turn := m.inv && s.bit (SDS_CTL.rx_pol_auto ln) && !x.polKept
  let s := if turn then s.wrBit (SDS_STAT.rx_inverted ln) (!s.bit (SDS_STAT.rx_inverted ln)) else s
  (s.setLane ln { x with good := 0, bad := 0, cw := m.cw % 20 }).wr (SDS_STAT.align ln) 1

/-- Marker alignment meets what stands at a place of the lane (*Marker alignment*): in HUNT any place is tested, in VERIFY and LOCKED the one
at the distance of R447, where a marker that is not good leaves the next one's place as it was to be. -/
def State.markerAt (s : State) (ln : Nat) (m : Sight) : State :=
  let x := s.lane ln
  let good := m.seen && decide (m.laneN = 255 - m.lane % 256)
  match s.rd (SDS_STAT.align ln) with
  | 0 => if m.seen then s.sighting ln m else s
  | 1 =>
    if m.dist ≠ markerGap x.cw then s
    else if !good then (s.setLane ln { x with good := 0 }).wr (SDS_STAT.align ln) 0
    else
      let s := (s.setLane ln { x with good := x.good + 1 }).markGood ln m.lane m.cw m.seq
      if x.good + 1 < 2 then s else s.laneLocked ln
  | _ =>
    if m.dist ≠ markerGap x.cw then s
    else if good then (((s.setLane ln { x with bad := 0 }).markGood ln m.lane m.cw m.seq).addSat (SDS_BIPERR.count ln) m.bip).laneTouch ln
    else
      let s := (s.setLane ln { x with bad := x.bad + 1, cw := (x.cw + 16384) % 20 }).inc (SDS_MKRERR.count ln)
      if x.bad + 1 < 4 then s else (s.wr (SDS_STAT.align ln) 0).laneTouch ln

/-- LANE_MARKER (R442, R444, R446, R447, R450): what stands at a place that fabric lane `f` looks at, `eye` being the measurement of its eye
there. -/
def execLaneMarker (f : Nat) (seen inv : Bool) (dist lane laneN cw seq bip eye : Nat) (s : State) : Out :=
  let ln := 128 + f
  if 192 ≤ f ∨ s.rd (SDS_STAT.state ln) ≠ 2 then .next s
  else .next (((s.adaptLate ln).setLaneEye ln eye).markerAt ln ⟨seen, inv, dist, lane, laneN, cw, seq, bip⟩)

/-- Whether a lane belongs to an enabled port, or to an enabled link. -/
def State.laneBusy (s : State) (ln : Nat) : Bool :=
  if ln < 128 then (s.portOfLane ln).isSome else s.bit (FLK_CTL.enable ((ln - 128) / 4))

/-- Whether a lane belongs to an enabled port, or to a link in service (R452). -/
def State.laneServes (s : State) (ln : Nat) : Bool :=
  if ln < 128 then (s.portOfLane ln).isSome else s.rd (QM_LINKSTAT.state ((ln - 128) / 4)) == 0

/-- A write of SDS_CTL (R442, R450, R452): fields that do not accept a value keep theirs; req and rate of a lane in use belong to its port or
link, and a PRBS run asked for on a lane of an enabled port or of a link in service refuses the write. -/
def State.writeSdsCtl (s : State) (ln v : Nat) : State :=
  let prbs := if bitsAt v 22 2 = 3 then s.rd (SDS_CTL.prbs ln) else bitsAt v 22 2
  let rate := bitsAt v 27 3
  let busy := s.laneBusy ln
  if prbs ≠ 0 ∧ s.laneServes ln then s.wr (SDS_CTL.refused ln) 1
  else
    let s := ((s.wrBit (SDS_CTL.tx_invert ln) (bitOf v 26)).wrBit (SDS_CTL.rx_pol_auto ln) (bitOf v 25)).wrBit (SDS_CTL.rx_invert ln) (bitOf v 24)
    let s := s.wr (SDS_CTL.prbs ln) prbs
    let s := if bitOf v 25 then s
      else (s.wrBit (SDS_STAT.rx_inverted ln) (bitOf v 24)).setLane ln { s.lane ln with polKept := false }
    if busy then s
    else
      let s := if rate ≤ 4 ∧ (ln < 128 ∨ 3 ≤ rate) then s.laneRateTo ln rate else s
      if bitsAt v 30 2 = 3 then s else (s.wr (SDS_CTL.req ln) (bitsAt v 30 2)).laneTo ln (bitsAt v 30 2)

/-! ### The scrambler and BIP (R474, *Overhead cell*) -/

/-- One byte of the PRBS-31 generator x³¹ + x²⁸ + 1, most significant bit first, with the state after it. -/
def prbsByte : Nat → Nat → Nat → Nat × Nat
  | 0, st, b => (b, st)
  | n + 1, st, b =>
    let o := (st / 2 ^ 30 + st / 2 ^ 27) % 2
    prbsByte n ((2 * st + o) % 2 ^ 31) (2 * b + o)

/-- Bytes scrambled, or descrambled, from a generator state, with the state after them. -/
def scramble : List Nat → Nat → List Nat × Nat
  | [], st => ([], st)
  | b :: r, st =>
    let (k, st) := prbsByte 8 st 0
    let (out, st) := scramble r st
    (Nat.xor (b % 256) k :: out, st)

/-- BIP-8 of bytes. -/
def bip8 (b : List Nat) : Nat := b.foldl (fun a x => Nat.xor a (x % 256)) 0

/-- Bits set in a byte. -/
def popByte (b : Nat) : Nat := ((List.range 8).filter (bitOf b)).length

/-- The frame alignment word. -/
def faw : Nat := 0x3A9FC615E207B44D

/-- An overhead cell with bytes 12 to 255 in clear. -/
def clearOverhead (oh : List Nat) : List Nat := sliceB oh 0 12 ++ (scramble (sliceB oh 12 244) (beNat (sliceB oh 8 4) % 2 ^ 31)).1

/-! ### Overhead received (R476, R477, R485, R486, R489, R498) -/

/-- An accepted psr value (R485, R486). -/
def State.acceptPsr (s : State) (l v : Nat) : State :=
  let s := (s.wr (FLK_STAT.psr_rx l) v).post 0x0B03 [l, v]
  if v = 0xA5 then s.drainLink l 1 else s

/-- psr of a frame taken. -/
def State.takePsr (s : State) (l v : Nat) : State :=
  let x := s.flink l
  if v ≠ 0 ∧ v ≠ 0xA5 then (s.setFlink l { x with psr := none }).inc (FLK_PSRBAD.count l)
  else
    let n := match x.psr with
      | some (w, n) => if w = v then n + 1 else 1
      | none => 1
    let s := s.setFlink l { x with psr := some (v, n) }
    if 3 ≤ n ∧ v ≠ s.rd (FLK_STAT.psr_rx l) then s.acceptPsr l v else s

/-- rdi of a frame taken (R489). -/
def State.takeRdi (s : State) (l rdi cause : Nat) : State :=
  let x := s.flink l
  let n := match x.rdi with
    | some (w, n) => if w = rdi then n + 1 else 1
    | none => 1
  let s := s.setFlink l { x with rdi := some (rdi, n), rdiIn := if 3 ≤ n then rdi == 1 else x.rdiIn }
  if n < 3 ∨ s.rd (FLK_STAT.tx_defect l) = rdi then s
  else
    let s := s.setTxDefect l rdi cause
    if rdi = 1 then s.defectLink l 3 else s.tryRestore l

/-- The identity of a frame taken (R498). -/
def State.takeId (s : State) (l version device link : Nat) : State :=
  if !s.bit (FLK_EXPID.check l) then s
  else
    let bad := decide (device ≠ s.rd (FLK_EXPID.device l)) || decide (link ≠ s.rd (FLK_EXPID.link l)) ||
      decide (version ≠ if s.bit (FLK_CTL.mode l) then 2 else 3)
    let x := s.flink l
    if bad then
      let s := s.setFlink l { x with idRun := 0 }
      if s.bit (FLK_STAT.id_mismatch l) then s
      else (s.wr (FLK_STAT.id_mismatch l) 1).post 0x0B04 ([l, link] ++ leBytes 2 device ++ [version])
    else
      let s := s.setFlink l { x with idRun := x.idRun + 1 }
      if 3 ≤ x.idRun + 1 then s.wr (FLK_STAT.id_mismatch l) 0 else s

/-- The overhead fields of a frame taken. -/
def State.takeOverhead (s : State) (l : Nat) (oh : List Nat) : State :=
  let w := beNat (sliceB oh 12 2)
  let b14 := leAt oh 14 1
  let b17 := leAt oh 17 1
  let s := (s.wr (FLK_STAT.fcount l) (leAt oh 15 1)).wr (FLK_RXID.version l) (w / 4096)
  let s := ((s.wr (FLK_RXID.plane l) (b14 / 64)).wr (FLK_RXID.link l) (b14 % 64)).wr (FLK_RXID.device l) (w % 2048)
  ((s.takeId l (w / 4096) (w % 2048) (b14 % 64)).takePsr l (leAt oh 16 1)).takeRdi l (b17 / 128) (b17 % 8)

/-- The credit messages of an overhead cell, one by one (R268, R490). -/
def State.takeCredits (s : State) (oh : List Nat) : State :=
  (List.range 28).foldl (fun s i => s.takeCredit [1, 2, 3] (sliceB oh (20 + 8 * i) 8)) s

/-- A frame that arrives IN_FRAME (R476): `bip` is BIP-8 over the previous frame as received. -/
def State.takeFrame (s : State) (l : Nat) (oh : List Nat) (bip : Nat) : State :=
  let x := s.flink l
  let s := s.setFlink l { x with bip := x.bip + popByte (Nat.xor (leAt oh 255 1) (bip % 256)) }
  let s := if crc16 (sliceB oh 12 240) = beNat (sliceB oh 252 2) then s.takeOverhead l oh
    else (s.setFlink l { s.flink l with psr := none, rdi := none }).inc (FLK_OHCRC.count l)
  s.takeCredits oh

/-- The aligner meets a frame in SEARCH or PRESYNC (R477). -/
def State.hunt (s : State) (l : Nat) (sighting : Bool) : State :=
  let x := s.flink l
  if !sighting then (s.wr (FLK_STAT.frame l) 0).setFlink l { x with seen := 0 }
  else if x.seen + 1 < 3 then (s.wr (FLK_STAT.frame l) 1).setFlink l { x with seen := x.seen + 1 }
  else ((s.wr (FLK_STAT.frame l) 2).wr (FLK_STAT.psr_rx l) 0).setFlink l { x with seen := 0, miss := 0, psr := none, rdi := none }

/-- FABRIC_FRAME_RECEIVE (R476 to R479, R485 to R490, R498): a frame arrives at the aligner's offset: its overhead cell as received, BIP-8 over
the frame before it, and the codewords corrected and uncorrectable since. -/
def execFabricFrameReceive (l : Nat) (raw : List Nat) (bip cor unc : Nat) (s : State) : Out :=
  if 48 ≤ l ∨ !s.linkOn l ∨ !s.bit (FLK_STAT.aligned l) then .next s
  else
    let x := s.flink l
    let s := s.setFlink l { x with cor := x.cor + cor, unc := x.unc + unc }
    let oh := clearOverhead raw
    let hit := decide (beNat (sliceB oh 0 8) = faw)
    if s.rd (FLK_STAT.frame l) = 2 then
      let miss := if hit then 0 else x.miss + 1
      if 4 ≤ miss then .next ((s.loseFrame l).linkTouch l)
      else .next ((s.setFlink l { s.flink l with miss := miss }).takeFrame l oh bip)
    else .next ((s.hunt l (hit && crc16 (sliceB oh 12 240) == beNat (sliceB oh 252 2))).linkTouch l)

/-! ### Fabric cells received (R480 to R484) -/

/-- Bytes of a record from its header: 48 + L. -/
def recLen (h : List Nat) : Nat := 48 + beNat (sliceB h 14 2)

/-- Payload bytes of a flow arrive (R275): the flow of source device `dev` that a record header names. -/
def State.flowBytes (s : State) (dev : Nat) (h : List Nat) (n : Nat) : State :=
  let voq := 8 * (beNat (sliceB h 2 2) % 8192) + leAt h 1 1 % 8
  let now := s.clk
  s.onFlow (flowKey dev voq) (fun f => { f with outstanding := f.outstanding - n, cellAt := now })

/-- A whole record becomes a packet for its link's reassembly writer (R480, R483). -/
def recPacket (r : List Nat) : Packet :=
  let port := leAt r 7 1
  { bytes := r.drop 48, fwd := sliceB r 0 48, port := port, pipe := if port < 128 then port / 32 else port % 4 }

/-- A record delivered to the reassembly writer of a link, with its multicast group. -/
def State.deliverRec (s : State) (l : Nat) (g : Option Nat) (r : List Nat) : State :=
  { s with flk := { s.flk with recs := Tbl.upd [] s.flk.recs l (· ++ [(g, recPacket r)]), recOrd := s.flk.recOrd ++ [l] } }

/-- The header fields of a fabric cell that reassembly uses. -/
structure CellHead where
  link : Nat
  dev  : Nat
  ucast : Bool
  group : Option Nat
  key  : Nat
  deriving DecidableEq, Repr

/-- A context replaced. -/
def State.setCtx (s : State) (k : Nat) (c : Ctx) : State := { s with flk := { s.flk with ctxs := Tbl.set {} s.flk.ctxs k c } }

/-- Records that begin in a cell's bytes, in turn; an incomplete last one becomes the context's partial record (R482). A record whose header
is cut short, against R480, ends the cell; one whose header gives length 0 is its header alone, and is discarded (R206). -/
def State.takeRecs (h : CellHead) : Nat → List Nat → State → State
  | 0, _, s => s
  | n + 1, b, s =>
    if b.isEmpty then s
    else if b.length < 48 then s.inc (FLK_REASMDROP.count h.link)
    else if recLen b = 48 then State.takeRecs h n (b.drop 48) (s.inc (FLK_REASMDROP.count h.link))
    else
      let len := recLen b
      let got := min len b.length
      let s := if h.ucast then s.flowBytes h.dev b got else s
      if len ≤ b.length then State.takeRecs h n (b.drop len) (s.deliverRec h.link h.group (b.take len))
      else s.setCtx h.key { Tbl.get {} s.flk.ctxs h.key with part := b, owed := len - b.length, link := h.link + 1 }

/-- The bytes of a cell that continue a record (R482). -/
def State.takeCont (s : State) (h : CellHead) (cont : List Nat) : State :=
  let c := Tbl.get {} s.flk.ctxs h.key
  if cont.isEmpty then
    if c.part.isEmpty then s else (s.setCtx h.key { c with part := [], owed := 0 }).inc (FLK_REASMDROP.count h.link)
  else if c.part.isEmpty ∨ c.owed < cont.length then (s.setCtx h.key { c with part := [], owed := 0 }).inc (FLK_REASMDROP.count h.link)
  else
    let s := if h.ucast then s.flowBytes h.dev c.part cont.length else s
    if c.owed = cont.length then (s.setCtx h.key { c with part := [], owed := 0 }).deliverRec h.link h.group (c.part ++ cont)
    else s.setCtx h.key { c with part := c.part ++ cont, owed := c.owed - cont.length, link := h.link + 1 }

/-- A cell with a good header (R482). -/
def State.takeCell_ (s : State) (l : Nat) (cell : List Nat) : State :=
  let v := beNat (sliceB cell 0 16)
  let uc := bitsAt v 125 3 == 1
  let s := s.inc (FLK_RXCELL.count l)
  if uc ∧ bitsAt v 111 11 ≠ s.rd QM_CFG.dev_id then s.inc (FLK_MISROUTE.count l)
  else
    let key := (bitsAt v 87 11 * 64 + bitsAt v 81 6) * 2 + b2n (!uc)
    let c := Tbl.get {} s.flk.ctxs key
    let seq := bitsAt v 73 8
    let s := if uc ∧ seq ≠ c.next then (s.setCtx key { c with part := [], owed := 0 }).inc (FLK_SEQGAP.count l) else s
    let s := s.setCtx key { Tbl.get {} s.flk.ctxs key with next := (seq + 1) % 256 }
    let h : CellHead := ⟨l, bitsAt v 87 11, uc, if uc then none else some (bitsAt v 98 13), key⟩
    let valid := bitsAt v 57 8
    let first := bitsAt v 65 8
    let body := (sliceB cell 16 240).take valid
    let s := s.takeCont h (if first = 0xFF then body else body.take first)
    if first = 0xFF then s else State.takeRecs h 6 (body.drop first) s

/-- FABRIC_CELL_RECEIVE (R47, R475, R479, R482 to R484): a descrambled cell of 256 bytes arrives on a link. `lost` names the fabric lane whose
receive crossing overflowed within it. -/
def execFabricCellReceive (l : Nat) (cell : List Nat) (lost : Option Nat) (s : State) : Out :=
  if 48 ≤ l ∨ !s.inFrame l then .next s
  else
    match lost with
    | some f =>
      .next (if f / 4 = l then ((s.inc (D2D_XOVFF.count f)).post 0x0007 ([1, 0] ++ leBytes 2 f)).inc (FLK_HDRERR.count l) else s)
    | none =>
      let v := beNat (sliceB cell 0 16)
      if crc16 (sliceB cell 0 14) ≠ v % 2 ^ 16 ∨ 2 < bitsAt v 125 3 then .next (s.inc (FLK_HDRERR.count l))
      else if bitsAt v 125 3 = 0 then .next (s.setFlink l { s.flink l with idle := (s.flink l).idle + 1 })
      else .next (s.takeCell_ l cell)

/-! ### Frames sent (R475, R482, R487, R488, R490) -/

/-- The 16 bytes of a cell header. -/
def cellHeader (type cls dst group src link seq first valid : Nat) : List Nat :=
  let v := type * 2 ^ 125 + cls % 8 * 2 ^ 122 + dst % 2048 * 2 ^ 111 + group % 8192 * 2 ^ 98 + src % 2048 * 2 ^ 87 + link % 64 * 2 ^ 81 +
    seq % 256 * 2 ^ 73 + first % 256 * 2 ^ 65 + valid % 256 * 2 ^ 57
  let b := (beBytes 16 v).take 14
  b ++ beBytes 2 (crc16 b)

/-- A payload with its padding, bytes without a stated value. -/
def State.padded (s : State) (b : List Nat) : List Nat × State :=
  let (n, s) := s.fresh
  (b ++ (List.range (240 - b.length)).map (fun i => (Config.pad n i).toNat), s)

/-- A slot of a frame: the next cell of the transmit queue, with its sequence number, or an idle cell (R475). -/
def State.sendSlot (l : Nat) (cs : List (List Nat) × State) (_i : Nat) : List (List Nat) × State :=
  let (out, s) := cs
  let src := s.rd QM_CFG.dev_id
  match s.txq l with
  | [] =>
    let (b, s) := s.padded []
    (out ++ [cellHeader 0 0 0 0 src l 0 0xFF 0 ++ b], s)
  | c :: rest =>
    let k := 2048 * l + c.dst
    let seq := if c.ucast then Tbl.get 0 s.flk.seqs k else 0
    let s := if c.ucast then { s with flk := { s.flk with seqs := Tbl.set 0 s.flk.seqs k ((seq + 1) % 256) } } else s
    let h := cellHeader (if c.ucast then 1 else 2) c.cls (if c.ucast then c.dst else 0) (if c.ucast then 0 else c.dst) src l seq c.first
      c.payload.length
    let (b, s) := (s.setTxq l rest).padded c.payload
    (out ++ [h ++ b], s.inc (FLK_TXCELL.count l))

/-- The link that carries the next message for a device: in rotation among its usable links that are IN_FRAME without a transmit defect. -/
def State.creditLink (s : State) (dev : Nat) : Option Nat :=
  firstFrom (Tbl.get 0 s.flk.rot dev) ((s.usable dev).filter (fun l => s.inFrame l && !s.bit (FLK_STAT.tx_defect l)))

/-- Up to `n` messages of the outbox leave on link `l`, oldest first; the others keep their places. -/
def State.sendCredits (l : Nat) : Nat → List CreditMsg → State → List CreditMsg × List CreditMsg × State
  | _, [], s => ([], [], s)
  | 0, rest, s => ([], rest, s)
  | n + 1, m :: rest, s =>
    if s.creditLink m.dev = some l then
      let s := { s with flk := { s.flk with rot := Tbl.set 0 s.flk.rot m.dev (l + 1) } }
      let s := if leAt m.bytes 0 1 / 64 = 1 then s.inc QM_GRANTTX.count else s
      let (a, b, s) := State.sendCredits l n rest s
      (m :: a, b, s)
    else
      let (a, b, s) := State.sendCredits l (n + 1) rest s
      (a, m :: b, s)
termination_by structural _ l _ => l

/-- The overhead cell in clear, without its frame alignment word and scrambler state (bytes 12 to 255). -/
def State.overhead (s : State) (l rdi cause : Nat) (credits : List CreditMsg) : List Nat :=
  let x := s.flink l
  let version := if s.bit (FLK_CTL.mode l) then 2 else 3
  let b := beBytes 2 (version * 4096 + s.rd QM_CFG.dev_id) ++ [s.rd (FLK_CTL.plane l) * 64 + l, x.fcount] ++
    [if s.bit (FLK_CTL.psr_tx l) then 0xA5 else 0, rdi * 128 + cause, 0, 0] ++ sliceB (credits.flatMap (·.bytes)) 0 224 ++ List.replicate 8 0
  b ++ beBytes 2 (crc16 b) ++ [0, x.lastBip]

/-! ### Lane markers sent (R445, R472) -/

/-- Bits of PRBS-9, x⁹ + x⁵ + 1, from a generator state, first bit lowest. -/
def prbs9 : Nat → Nat → Nat
  | 0, _ => 0
  | n + 1, st => st / 2 ^ 8 % 2 + 2 * prbs9 n ((2 * st + (st / 2 ^ 8 + st / 2 ^ 4) % 2) % 2 ^ 9)

/-- The lowest `n` bits of a number in reverse. -/
def revBits : Nat → Nat → Nat
  | 0, _ => 0
  | n + 1, v => v % 2 * 2 ^ n + revBits n (v / 2)

/-- A lane marker, bit 0 first (*Lane marker*). -/
def laneMarkerBits (lane cw seq bip : Nat) : Nat :=
  2 * revBits 64 0x9C3B52E7A10F6D48 + lane % 4 * 2 ^ 65 + (255 - lane % 4) * 2 ^ 73 + cw % 20 * 2 ^ 81 + seq % 2 ^ 16 * 2 ^ 88 +
    bip % 256 * 2 ^ 104 + prbs9 145 511 * 2 ^ 112

/-- BIP-8 of a block of 32 frame bytes: a header bit of 1, then the bytes, each with its lowest bit first. -/
def blockBip (b : List Nat) : Nat :=
  let x := bip8 b
  Nat.xor 1 (x * 2 % 256 + x / 128)

/-- BIP-8 of blocks `i` to `j` − 1 of those that a frame places on a logical lane (R472). -/
def laneBip (frame : List Nat) (lane i j : Nat) : Nat :=
  (List.range (j - i)).foldl (fun a k => Nat.xor a (blockBip (sliceB frame (32 * (4 * (i + k) + lane)) 32))) 0

/-- BIP-8 of the four lanes carried on over part of a frame. -/
def bipOn (bip frame : List Nat) (i j : Nat) : List Nat := (bip.zipIdx).map (fun x => Nat.xor x.1 (laneBip frame x.2 i j))

/-- The 128 blocks that a frame places on each lane are sent, with the lane markers that fall within it (R445): one after every 16,383 blocks,
at the next position of the codeword. -/
def MarkerTx.send (m : MarkerTx) (frame : List Nat) (reverse : Bool) : MarkerTx :=
  let k := 16383 - m.count
  if 128 ≤ k then { m with count := m.count + 128, bip := bipOn m.bip frame 0 128 }
  else
    let marks := ((bipOn m.bip frame 0 k).zipIdx).map (fun x => laneMarkerBits x.2 m.cw m.seq x.1)
    { count := 128 - k, seq := (m.seq + 1) % 2 ^ 16, cw := (m.cw + 16384) % 20, bip := bipOn [0, 0, 0, 0] frame k 128,
      sent := if reverse then marks.reverse else marks }

/-- The time in ps that a frame takes on the lanes of a link: 128 blocks, and a marker if one falls within it (R469). -/
def State.frameTime (s : State) (l : Nat) : Nat :=
  (if 16383 - (s.flink l).mark.count < 128 then 129 else 128) * (if s.bit (FLK_CTL.mode l) then 2560 else 1280)

/-- Messages for devices that no usable link reaches any longer leave the outbox (R491). -/
def State.dropCredits (s : State) : State :=
  let left := s.flk.outbox.filter (fun m => !(s.usable m.dev).isEmpty)
  let s := s.addSat FLK_CRDDROP.count (s.flk.outbox.length - left.length)
  { s with flk := { s.flk with outbox := left } }

/-- FABRIC_FRAME_TRANSMIT (R445, R474, R475, R482, R487, R488, R490): an enabled link sends a frame once the one before it has ended: an
overhead cell and 63 slots. -/
def execFabricFrameTransmit (l : Nat) (s : State) : Out :=
  if 48 ≤ l ∨ !s.linkOn l ∨ 1000 * (s.clk + 1) ≤ (s.flink l).txEnd then .next s
  else
    let s := s.dropCredits
    let cause := [0, 1, 2].foldl (fun a d => a + b2n (s.bit (defectBit l d)) * 2 ^ d) 0
    let force := s.bit (FLK_CTL.force_rdi l)
    let rdi := b2n (force || cause != 0)
    let s := s.wr (FLK_STAT.rdi_tx l) rdi
    let (mine, left, s) := if s.inFrame l then State.sendCredits l 28 s.flk.outbox s else ([], s.flk.outbox, s)
    let s := ({ s with flk := { s.flk with outbox := left } }).wr FLK_OUTBOX.messages left.length
    let clear := s.overhead l rdi (if force then 0 else cause) mine
    let (cells, s) := (List.range 63).foldl (State.sendSlot l) ([], s)
    let x := s.flink l
    let head := beBytes 8 faw ++ beBytes 4 x.scr
    let (body, scr) := scramble (clear ++ cells.flatten) x.scr
    .next (s.setFlink l { x with fcount := (x.fcount + 1) % 256, scr := scr, lastBip := bip8 (head ++ body), sent := (head ++ clear) :: cells,
                                 mark := x.mark.send (head ++ body) (s.bit (FLK_CTL.tx_reverse l)),
                                 txEnd := max x.txEnd (1000 * s.clk) + s.frameTime l })

/-! ### The one-second tick (R495 to R497) -/

/-- A link latches its counts of the second. -/
def State.latchSecond (irregular : Bool) (s : State) (l : Nat) : State :=
  let x := s.flink l
  let any := s.bit (FLK_STAT.los l) || s.bit (FLK_STAT.loa l) || s.bit (FLK_STAT.lof l)
  let out := s.rd (FLK_STAT.frame l) != 2
  let errored := decide (0 < x.bip) || decide (0 < x.unc) || x.oof || out || x.defect || any
  let s := ((s.wr (FLK_SECBIP.count l) x.bip).wr (FLK_SECCOR.count l) x.cor).wr (FLK_SECUNC.count l) x.unc
  let s := ((s.wr (FLK_SECIDLE.count l) x.idle).wr (FLK_SECSTAMP.sec l) s.tim.sec).wrBit (FLK_SECSTAT.irregular l) irregular
  let s := s.wrBit (FLK_SECSTAT.errored l) errored
  let s := if errored && s.linkOn l then s.inc (FLK_ES.count l) else s
  s.setFlink l { x with bip := 0, cor := 0, unc := 0, idle := 0, oof := out, defect := any }

/-- SECOND_TICK (R495 to R497): the seconds field of network time has changed. -/
def execSecondTick (s : State) : Out :=
  if s.tim.tickDue then
    let irregular := s.tim.tickStep
    let s := { s with tim := { s.tim with tickDue := false, tickStep := false } }
    .next ((List.range 48).foldl (State.latchSecond irregular) s)
  else .next s

end Sys2Proof.Machine
end

