-- ==== Sys2Proof/Machine/Moves.lean ====
section
/-! DEFINITION. Moves of chains between tiers (05_buffer.md, R220 to R231, R242, R243): prefetch, eviction, evacuation, and the swap that
ends a copy. -/
namespace Sys2Proof.Machine

/-- The entries of a queue with the cells that lie ahead of each. -/
def offsets : Nat → List QEnt → List (Nat × QEnt)
  | _, [] => []
  | o, e :: r => (o, e) :: offsets (o + e.n) r

/-- Whether an entry lies in the head zone of its queue (R224). -/
def State.inHead (s : State) (k : Nat) (x : Nat × QEnt) : Bool :=
  x.1 == 0 || decide (x.1 + x.2.n ≤ s.rd (BPM_PFHEAD.head_cells (s.qProfile k)))

/-- Cells of the head zone of a queue. -/
def State.headZone (s : State) (k : Nat) : Nat :=
  ((offsets 0 (s.queue k).ents).filter (s.inHead k)).foldl (fun m x => max m (x.1 + x.2.n)) 0

/-- Whether a chain may be moved now: unshared and QUEUED, no copy of it under way, and sound. -/
def State.movable (s : State) (ptr : Nat) : Bool :=
  (s.chain ptr).owner == 0x10 && !s.bpm.moves.any (fun m => m.src == ptr) && (s.chain ptr).bad == 0

/-- The queues that hold a packet. -/
def State.liveQueues (s : State) : List Nat := Tbl.keysWhere (fun _ (v : Queue) => !v.ents.isEmpty) s.qm.queues

/-! ### Prefetch -/

/-- The chains that prefetch would copy: in a head zone, movable, and not in the shallow tier. -/
def State.prefetchable (s : State) : List Nat :=
  s.liveQueues.flatMap (fun k => ((offsets 0 (s.queue k).ents).filter (fun x =>
    s.inHead k x && s.movable x.2.ptr && tierOf x.2.ptr != 0)).map (fun x => x.2.ptr))

/-- The chain that was enqueued first. -/
def State.oldest (s : State) : List Nat → Option Nat
  | [] => none
  | p :: r =>
    match s.oldest r with
    | none => some p
    | some q => if (s.chain q).at_ < (s.chain p).at_ then some q else some p

/-- The port node that caps copies from a RESERVE channel, where its peak rate is not 0 (*Internal ports*). -/
def State.returnCap (s : State) (ptr : Nat) : Option (Nat × Node) :=
  let i := 136 + pageChan (pageOf ptr)
  let x := s.node 4 i
  if tierOf ptr = 2 ∧ x.peak.rate ≠ 0 then some (i, s.evalNode x) else none

/-- PREFETCH_START (R224 to R226, R235): the oldest chain of a head zone outside the shallow tier is copied into the prefetch area, once
that has the cells. A copy from a RESERVE channel is charged to its return port. -/
def execPrefetchStart (s : State) : Out :=
  match s.oldest s.prefetchable with
  | none => .next s
  | some ptr =>
    let x := s.chain ptr
    let held : Bool := match s.returnCap ptr with
      | some (_, y) => decide (y.peak.tok ≤ 0)
      | none => false
    if s.freeNow 1 < x.n ∨ held ∨ !(s.xwait 53).isEmpty then .next s
    else
      let s := match s.returnCap ptr with
        | some (i, y) => s.setNode 4 i { y with peak := { y.peak with tok := y.peak.tok - (s.adjLen y x.pkt.bytes.length : Int) } }
        | none => s
      let (cells, s) := s.takeArea 1 x.n
      let dst := cellPtr 0 (cells.head?.getD 0)
      let m : Move := { src := ptr, gen := x.gen, kind := 0, dst := dst, cells := cells }
      let s := { s with bpm := { s.bpm with moves := s.bpm.moves ++ [m] } }
      .next (s.xputAll 53 dst cells).syncFree

/-! ### Eviction -/

/-- Whether a queue is an eviction candidate (R227). -/
def State.evictable (s : State) (k : Nat) : Bool :=
  let p := s.qProfile k
  s.bit BPM_RSVCFG.enable && s.bit (BPM_PFRSV.rsv_en p) && decide (s.rd (BPM_PFRSV.rsv_cells p) < (s.queue k).cells) &&
  (match (s.queue k).ents with
   | e :: _ => decide (us (s.rd (BPM_PFAGE.rsv_age_us p)) < s.ageOf (s.chain e.ptr).enq)
   | [] => false)

/-- Whether an entry lies behind the head zone and guard of its queue (R228). -/
def State.behindGuard (s : State) (k : Nat) (x : Nat × QEnt) : Bool := decide (s.headZone k + s.rd BPM_MOVECFG.guard_cells ≤ x.1)

/-- The chains of a queue that eviction would copy, in queue order (R228). -/
def State.evictions (s : State) (k : Nat) : List Nat :=
  let ents := (s.queue k).ents
  let cells := ents.foldl (fun a e => a + e.n) 0
  ((offsets 0 ents).filter (fun x => tierOf x.2.ptr == 1 && s.movable x.2.ptr && s.behindGuard k x &&
    decide (x.1 + x.2.n + s.rd BPM_MOVECFG.tail_units * 256 ≤ cells))).map (fun x => x.2.ptr)

/-- The chains that fill one page of 256 cells, each with its offset (R229). -/
def State.packPage (s : State) : Nat → List Nat → List (Nat × Nat)
  | _, [] => []
  | o, p :: r => if o + (s.chain p).n ≤ 256 then (o, p) :: s.packPage (o + (s.chain p).n) r else []

/-- The free Reserve pages' page that is taken next; which one is a free value. -/
def State.takePage (s : State) : Option (Nat × State) :=
  let (n, s) := s.fresh
  let chans := s.pageChans
  let held := s.heldBack
  let size := 8 * (chans.map s.pagesOf).foldl max 0
  (firstFree (fun k => chans.contains (pageChan k) && decide (k / 8 < s.pagesOf (pageChan k)) && Tbl.get 0 s.bpm.pages k == 0 &&
    !held.contains (2 ^ 41 + k)) size size (Config.pick n)).map (fun k => (k, s))

/-- EVICTION_START (R227 to R231, R235): the next candidate queue has one page of its deep chains copied to a free Reserve page, while
the rate allows and no prefetch from the Reserve tier could start (R225). Two pages start rate_gbps apart, to 2^-32 ns. -/
def execEvictionStart (s : State) : Out :=
  let waits := s.prefetchable.any (fun p => tierOf p == 2 && decide ((s.chain p).n ≤ s.freeNow 1))
  let qs := s.liveQueues.filter (fun k => s.evictable k && !(s.evictions k).isEmpty)
  match firstFrom s.bpm.evictNext qs with
  | none => .next s
  | some k =>
    if s.fine < s.bpm.evictAt ∨ waits then .next s
    else
      match s.takePage with
      | none => .next s
      | some (page, s) =>
        let run := s.packPage 0 (s.evictions k)
        let cells := run.foldl (fun a x => a + (s.chain x.2).n) 0
        let moves := run.map (fun x =>
          ({ src := x.2, gen := (s.chain x.2).gen, kind := 1, dst := cellPtr 2 (256 * page + x.1), cells := [] } : Move))
        let b := s.bpm
        .next ({ s with bpm := { b with moves := b.moves ++ moves, pages := Tbl.set 0 b.pages page run.length, evictNext := k + 1,
                                        evictAt := s.paceNext b.evictAt (cells * 2048) (s.rd BPM_RSVCFG.rate_gbps) } }).syncFree

/-! ### Evacuation (R242, R243) -/

/-- Whether a chain lies on a pseudo-channel or channel that is being evacuated. -/
def State.leaving (s : State) (ptr : Nat) : Bool :=
  match tierOf ptr with
  | 1 => (s.chain ptr).cells.any (fun k => s.bpm.evac.contains (s.deepPc k))
  | 2 => s.bpm.evac.contains (1000 + pageChan (pageOf ptr))
  | _ => false

/-- A copy of a chain to the deep tier starts, where that has the cells; off a RESERVE channel as rate_gbps allows (R243). -/
def State.startCopy (s : State) (ptr : Nat) : State :=
  let x := s.chain ptr
  let rsv := tierOf ptr == 2
  if s.freeNow 2 < x.n ∨ (rsv = true ∧ s.fine < s.bpm.evacAt) then s
  else
    let s := if rsv then { s with bpm := { s.bpm with evacAt := s.paceNext s.bpm.evacAt (x.n * 2048) (s.rd BPM_RSVCFG.rate_gbps) } } else s
    let (cells, s) := s.takeArea 2 x.n
    let m : Move := { src := ptr, gen := x.gen, kind := 2, dst := cellPtr 1 (cells.head?.getD 0), cells := cells }
    ({ s with bpm := { s.bpm with moves := s.bpm.moves ++ [m] } }).syncFree

/-- Copies of the unshared chains that have to leave. -/
def State.startEvac (s : State) : State :=
  if s.bpm.evac.isEmpty then s
  else (Tbl.keysWhere (fun p (_ : Chain) => s.leaving p && s.movable p) s.bpm.chains).foldl State.startCopy s

/-- Whether nothing is left on a unit under evacuation: pseudo-channel `u`, or channel `u` - 1,000. -/
def State.evacEmpty (s : State) (u : Nat) : Bool :=
  if u < 384 then s.usedWhere (fun k => decide (2 ^ 38 ≤ k) && s.deepPc (k - 2 ^ 38) == u) == 0
  else (Tbl.keysWhere (fun p (_ : Nat) => 1000 + pageChan p == u) s.bpm.pages).isEmpty

/-- EVAC_DONE (R242, R243): no chain is left on the pseudo-channel, or no page is in use on the channel (1,000 + channel). While some
are, copies of those that can move are started. -/
def execEvacDone (unit : Nat) (s : State) : Out :=
  if !s.bpm.evac.contains unit then .next s
  else if !s.evacEmpty unit then .next s.startEvac
  else
    let b := s.bpm
    let s := { s with bpm := { b with evac := b.evac.filter (· != unit), gone := if unit < 384 then insNat unit b.gone else b.gone,
                                      stripe := b.stripe.filter (fun ch => 1000 + ch != unit) } }
    .next (s.syncStripe.post 0x0505 ([if unit < 384 then 0 else 1, 0] ++ leBytes 2 (unit % 1000)))

/-! ### The swap -/

/-- The queue that holds an unshared chain. -/
def State.holder (s : State) (ptr : Nat) : Option Nat :=
  (Tbl.keysWhere (fun _ (v : Queue) => v.ents.any (fun e => e.ptr == ptr)) s.qm.queues).head?

/-- Whether a copy may take its chain's place (R221): neither the chain nor the copy lies on a channel that has failed meanwhile (R243). -/
def State.mayswap (s : State) (m : Move) : Bool :=
  let x := s.chain m.src
  x.owner == 0x10 && x.gen == m.gen && x.bad == 0 &&
  !(tierOf m.dst == 2 && s.bpm.failed.contains (pageChan (pageOf m.dst))) && (match s.holder m.src with
    | none => false
    | some k => m.kind != 1 || (offsets 0 (s.queue k).ents).any (fun e => e.2.ptr == m.src && s.behindGuard k e))

/-- A queue whose references to a chain point at its copy. -/
def Queue.repoint (q : Queue) (src dst gen : Nat) : Queue :=
  { q with ents := q.ents.map (fun e => if e.ptr = src then { e with ptr := dst, gen := gen } else e) }

/-- A finished copy takes its chain's place: every reference points at it, and the original cells are released (R220). -/
def State.swap (s : State) (m : Move) : State :=
  let x := s.chain m.src
  let s := s.giveSpace m.src x.cells
  let gen := ((s.chain m.dst).gen + 1) % 256
  let s := (s.setChain m.src { gen := x.gen }).setChain m.dst { x with gen := gen, cells := m.cells }
  let s := { s with qm := { s.qm with queues := Tbl.mapAll {} (fun _ q => q.repoint m.src m.dst gen) s.qm.queues } }
  let s := match m.kind with
    | 0 => s.inc BPM_PREFETCH.count
    | 1 => s.inc BPM_EVICT.count
    | _ => s
  s.syncFree

/-- A move's read of a chain met an uncorrectable error, in a cell (1) or in a link word or the header (2): the reader that the chain still
has drops its packet (R240, R241). -/
def State.spoil (s : State) (ptr ecc : Nat) : State := s.setChain ptr { s.chain ptr with bad := if ecc = 2 then 0x17 else 7 }

/-- MOVE_SWAP (R220 to R223): a copy whose cells are all written takes the place of its chain, or is discarded and counted. `ecc` says
what the reads of the move met: 0 nothing, 3 a single-bit error, corrected and counted, 1 or 2 an uncorrectable error (R240, R241). -/
def execMoveSwap (src ecc : Nat) (s : State) : Out :=
  match s.bpm.moves.find? (fun m => m.src == src) with
  | none => .next s
  | some m =>
    if s.writing m.dst then .next s
    else
      let s := { s with bpm := { s.bpm with moves := s.bpm.moves.erase m } }.readMark ecc
      let s := if (ecc = 1 ∨ ecc = 2) ∧ (s.chain src).gen = m.gen ∧ (s.chain src).owner ≠ 0 then s.spoil src ecc else s
      if s.mayswap m then .next (s.swap m).startEvac
      else .next ((s.giveSpace m.dst m.cells).inc BPM_MOVEABORT.count).syncFree.startEvac

end Sys2Proof.Machine
end

