-- ==== Sys2Proof/Machine/Memory.lean ====
section
/-! DEFINITION. The HBM and DDR5 memory controllers (09_memory_controllers.md, R401 to R433): roles, training, requests and their order,
refresh, activate counts, errors, repair, retirement, evacuation and power saving. A controller is numbered as its pseudo-channel, 0 to 383,
or as 384 + DDR5 channel. -/
namespace Sys2Proof.Machine

/-! ### Controllers -/

/-- Whether a controller is that of a DDR5 channel, and its stack or channel. -/
def isDdr (u : Nat) : Bool := decide (384 ≤ u)
def stackOf (u : Nat) : Nat := u / 64
def chanOf (u : Nat) : Nat := u - 384

/-- The number of a stack or channel for temperature and double-rate mode: stack, or 8 + channel. -/
def groupOf (u : Nat) : Nat := if isDdr u then 8 + chanOf u else stackOf u

/-- A controller. -/
def State.ctl (s : State) (u : Nat) : Ctl := Tbl.get {} s.mem.ctls u

/-- A controller replaced. -/
def State.setCtl (s : State) (u : Nat) (c : Ctl) : State := { s with mem := { s.mem with ctls := Tbl.set {} s.mem.ctls u c } }

/-- A counter of the memory counter pages, MCH or MCD. -/
def memFld (u : Nat) (h : Nat → Fld) (d : Nat → Fld) : Fld := if isDdr u then d (chanOf u) else h (stackOf u)

/-- Thresholds of a port. -/
def State.panicOn (s : State) (u k : Nat) : Nat := s.rd (memFld u (fun x => MCH_PORTCFG.panic_on x k) (fun x => MCD_PORTCFG.panic_on x k))
def State.panicOff (s : State) (u k : Nat) : Nat := s.rd (memFld u (fun x => MCH_PORTCFG.panic_off x k) (fun x => MCD_PORTCFG.panic_off x k))
def State.portTarget (s : State) (u k : Nat) : Nat := s.rd (memFld u (fun x => MCH_PORTCFG.target_ns x k) (fun x => MCD_PORTCFG.target_ns x k))

/-- Double-rate mode of a controller. -/
def State.refresh2x (s : State) (u : Nat) : Bool := s.bit (memFld u MCH_STAT.refresh_2x MCD_STAT.refresh_2x)

/-- A controller serves by latency targets in place of panic (R416): while it trains and until the device is ready, while a self-test runs on it,
and while it takes part in lane repair, retirement, evacuation, return or a restore. -/
def State.qosTarget (s : State) (u : Nat) : Bool :=
  let starting := s.rd GEN_BOOTSTAT.ready == 0
  if isDdr u then
    let c := chanOf u
    let st := s.rd (MCD_STAT.state c)
    st == 2 || st == 4 || s.mem.restore.contains c || (st == 3 && starting) || Tbl.get 0 s.res.tests 3 == c + 1
  else
    let st := s.rd (MCH_STAT.state (stackOf u))
    st == 1 || (st == 2 && (starting || !(s.ctl u).fixing.isEmpty || s.rd (MCH_PCSTAT.state (stackOf u) (u % 64)) == 1)) ||
      Tbl.get 0 s.res.tests 7 == u + 1

/-- MCH_STAT.qos_target of a stack: one of its controllers serves by latency targets. -/
def State.stackQos (s : State) (k : Nat) : Bool := (List.range 64).any (fun p => s.qosTarget (64 * k + p))

/-- tREFI in ns (R417). -/
def State.trefi (s : State) (u : Nat) : Nat := if s.refresh2x u then 1950 else 3900

/-- Ranks of a controller. -/
def State.ranksOf (s : State) (u : Nat) : Nat := if isDdr u then s.rd (MCD_DIMM.ranks (chanOf u)) else 1

/-- Whether a controller serves requests: its stack READY and the pseudo-channel not retired, or its channel in service or holding itself in
self-refresh. -/
def State.memServes (s : State) (u : Nat) : Bool :=
  if isDdr u then decide (u < 392) && (s.rd (MCD_STAT.state (chanOf u)) == 3 || s.rd (MCD_STAT.state (chanOf u)) == 4 ||
    (s.rd (MCD_STAT.state (chanOf u)) == 7 && !s.mem.restore.contains (chanOf u)))
  else s.rd (MCH_STAT.state (stackOf u)) == 2 && s.rd (MCH_PCSTAT.state (stackOf u) (u % 64)) != 2

/-- *Memory ports*: whether port `k` is present on a controller. -/
def State.portPresent (s : State) (u k : Nat) : Bool :=
  if !isDdr u then [0, 1, 3, 4, 5].contains k
  else match s.rd (MCD_CFG.role (chanOf u)) with
    | 1 => [2, 3, 5].contains k
    | 2 => [3, 5].contains k
    | 3 => [4, 5].contains k
    | _ => k == 5

/-! ### Failure, retirement and evacuation (R133, R242, R243, R426, R427, R431, R618) -/

/-- The Extended FIB loses a channel that serves it (R133). -/
def State.xfibLose (s : State) (ch : Nat) : State :=
  if s.bit LKP_XFIBCFG.enable ∧ bitOf (s.rd LKP_XFIBCFG.channels) ch then { s with lkp := { s.lkp with xfibDown := true } } else s

/-- Chains stored on a RESERVE channel. -/
def State.chainsOn (s : State) (ch : Nat) : Nat :=
  (Tbl.keysWhere (fun p (x : Chain) => x.owner != 0 && tierOf p == 2 && pageChan (pageOf p) == ch) s.bpm.chains).length

/-- A RESERVE channel has failed (R243): its pages take nothing more, and every chain on it is lost to its reader. One that held pages rejoins
its stripe when it returns (R433). -/
def State.reserveLost (s : State) (ch : Nat) : State :=
  let n := s.chainsOn ch
  let b := s.bpm
  let on := fun p (x : Chain) => x.owner != 0 && tierOf p == 2 && pageChan (pageOf p) == ch
  let s := { s with bpm := { b with failed := insNat ch b.failed, evac := b.evac.filter (· != 1000 + ch),
                                    chains := Tbl.mapAll {} (fun p x => if on p x then { x with bad := 8 } else x) b.chains },
                    mem := { s.mem with striped := if b.stripe.contains ch then insNat ch s.mem.striped else s.mem.striped } }
  s.syncStripe.post 0x0506 ([ch, 0, 0, 0] ++ leBytes 4 n)

/-- A DDR5 channel fails: MCD_FAILED with its cause, and its users follow their rules (R427). -/
def State.chanFail (s : State) (ch cause : Nat) : State :=
  let s := ((s.wr (MCD_STAT.state ch) 6).post 0x0912 [ch, cause]).xfibLose ch
  let s := if s.rd (MCD_CFG.role ch) = 2 then s.reserveLost ch else s
  (s.loseHome (8 + ch))

/-- A pseudo-channel starts to retire (R242, R426). -/
def State.pcRetire (s : State) (pc cause : Nat) : State :=
  let s := s.wr (MCH_PCSTAT.state (pc / 64) (pc % 64)) 1
  let s := { s with mem := { s.mem with cause := Tbl.set 0 s.mem.cause pc (cause + 1) }, bpm := { s.bpm with evac := insNat pc s.bpm.evac } }
  ((State.trimHbm 64 s).syncFree.startEvac)

/-- What a channel's module is driven with, replaced. -/
def State.setPins (s : State) (ch : Nat) (x : DdrPins) : State := { s with mem := { s.mem with pins := Tbl.set {} s.mem.pins ch x } }

/-- A channel powered down: its clock stops, DDRn_RESET_N and DDRn_SLOT_EN are driven low, its PHY is power-gated (R431). -/
def State.chanOff (s : State) (ch : Nat) : State :=
  ((((s.wr (MCD_STAT.state ch) 5).wr (MCD_STAT.rate ch) 0).setCtl (384 + ch) {}).setPins ch {}).post 0x0916 [ch]

/-- REPAIR kind 4 on a channel (R431): the refusal, or the evacuation started. -/
def State.chanEvacuate (s : State) (ch : Nat) : (Status × Nat) ⊕ State :=
  let st := s.rd (MCD_STAT.state ch)
  let s := s.abandonTest 3 (· == ch)
  if 8 ≤ ch then .inl (.refused, dBAD_OPERAND)
  else if st = 4 then .inl (.busy, dIN_USE)
  else if st = 6 then .inr (s.chanOff ch)
  else if s.rd (MCD_CFG.role ch) = 0 ∨ (st ≠ 3 ∧ st ≠ 7) then .inl (.refused, dBAD_OPERAND)
  else
    let go := fun (s : State) => (s.wr (MCD_STAT.state ch) 4)
    match s.rd (MCD_CFG.role ch) with
    | 1 => .inr (go (s.xfibLose ch))
    | 2 =>
      let b := s.bpm
      let m := s.mem
      .inr ((go { s with bpm := { b with evac := insNat (1000 + ch) b.evac },
                         mem := { m with striped := if b.stripe.contains ch then insNat ch m.striped else m.striped } }).syncFree.startEvac)
    | _ =>
      match s.moveAway ch with
      | none => .inl (.busy, dLIVE_RESOURCE)
      | some s => .inr (go s)

/-- CHANNEL_EVACUATED (R431): the data of an EVACUATING channel has gone, and it is powered down. -/
def execChannelEvacuated (ch : Nat) (s : State) : Out :=
  if ch < 8 ∧ s.rd (MCD_STAT.state ch) = 4 ∧ !s.bpm.evac.contains (1000 + ch) ∧ (s.segsAt (8 + ch)).isEmpty then .next (s.chanOff ch)
  else .next s

/-- PC_RETIRE_DONE (R424, R426): the evacuation of a RETIRING pseudo-channel and the move of its counters have ended. -/
def execPcRetireDone (pc : Nat) (s : State) : Out :=
  if pc < 384 ∧ s.rd (MCH_PCSTAT.state (pc / 64) (pc % 64)) = 1 ∧ !s.bpm.evac.contains pc then
    let c := Tbl.get 0 s.mem.cause pc - 1
    let m := s.mem
    let s := { s with mem := { m with cause := Tbl.erase m.cause pc, retired := Tbl.set 0 m.retired pc (c + 1) } }
    .next ((((s.wr (MCH_PCSTAT.state (pc / 64) (pc % 64)) 2).setCtl pc {}).post 0x0901 (leBytes 2 pc ++ [c])).syncSeg)
  else .next s

/-- Lanes of a pseudo-channel that spares replace, and a further one, in the record and in MCH_PCSTAT (R424). -/
def State.repairsOf (s : State) (pc : Nat) : List Nat := Tbl.get [] s.mem.repairs pc
def State.mapSpares (s : State) (pc : Nat) (lanes : List Nat) : State :=
  let l := s.repairsOf pc ++ lanes
  ({ s with mem := { s.mem with repairs := Tbl.set [] s.mem.repairs pc l } }).wr (MCH_PCSTAT.spares_used (pc / 64) (pc % 64)) l.length

/-- Spare lanes of a pseudo-channel that no repair has taken or is taking. -/
def State.freeSpares (s : State) (pc : Nat) : Nat := 2 - ((s.repairsOf pc).length + (s.ctl pc).fixing.length)

/-- An HBM data lane is to be repaired (R425): the refusal, or the repair started. One under repair already is in use. -/
def State.laneRepair (s : State) (pc lane : Nat) : (Status × Nat) ⊕ State :=
  if 384 ≤ pc ∨ 32 ≤ lane then .inl (.refused, dBAD_OPERAND)
  else if s.freeSpares pc = 0 ∨ (s.ctl pc).fixing.contains lane then .inl (.busy, dIN_USE)
  else .inr (s.setCtl pc { s.ctl pc with fixing := (s.ctl pc).fixing ++ [lane] })

/-- An automatic repair of a lane (R425): one that finds no free spare posts MCH_LANE_REPAIRED with none and makes no change. -/
def State.autoRepair (s : State) (pc lane : Nat) : State :=
  match s.laneRepair pc lane with
  | .inr s => s
  | .inl _ =>
    if s.freeSpares pc ≠ 0 ∨ (s.ctl pc).fixing.contains lane then s
    else (s.setCtl pc { s.ctl pc with ce := Tbl.erase (s.ctl pc).ce lane }).post 0x0902 (leBytes 2 pc ++ [lane, 0xFF])

/-- LANE_REPAIR_DONE (R424, R425): the spare is mapped in, and the pseudo-channel resumes when no other lane is under repair. -/
def execLaneRepairDone (pc : Nat) (s : State) : Out :=
  match (s.ctl pc).fixing with
  | [] => .next s
  | lane :: rest =>
    let s := (s.setCtl pc { s.ctl pc with fixing := rest, ce := Tbl.erase (s.ctl pc).ce lane }).mapSpares pc [lane]
    .next (s.post 0x0902 (leBytes 2 pc ++ [lane, 2 - (s.repairsOf pc).length]))

/-! ### Errors (R422, R423, R425 to R427) -/

/-- A count in its window of 1 s. -/
def winAdd (clk : Nat) (w : Nat × Nat) : Nat × Nat := if w.2 = 0 ∨ w.1 + ms 1000 ≤ clk then (clk, 1) else (w.1, w.2 + 1)

/-- A corrected error on a data lane (R422, R425). -/
def State.memCe (s : State) (u lane : Nat) : State :=
  let s := s.inc (memFld u MCH_CE.count MCD_CE.count)
  if isDdr u then s
  else
    let c := s.ctl u
    let w := winAdd s.clk (Tbl.get (0, 0) c.ce lane)
    let s := s.setCtl u { c with ce := Tbl.set (0, 0) c.ce lane w }
    if w.2 ≤ s.rd (MCH_REPAIRCFG.lane_ce (stackOf u)) ∨ !s.bit (MCH_REPAIRCFG.auto_repair (stackOf u)) then s
    else s.autoRepair u lane

/-- An uncorrectable error (R423, R426, R427). -/
def State.memUe (s : State) (u : Nat) : State :=
  let c := s.ctl u
  let w := winAdd s.clk c.ue
  let s := s.setCtl u { c with ue := w }
  if isDdr u then
    let ch := chanOf u
    let s := (s.inc (MCD_UE.count ch)).postRated 0x0913 ch (ms 1) 1 (fun n => [ch, 0, 0, 0] ++ leBytes 4 n)
    if s.rd (MCD_ERRCFG.fail_ue ch) < w.2 ∧ s.rd (MCD_STAT.state ch) = 3 then s.chanFail ch 0 else s
  else
    let st := stackOf u
    let s := (s.inc (MCH_UE.count st)).postRated 0x0903 st (ms 1) 1 (fun n => [st, 0, 0, 0] ++ leBytes 4 n)
    if s.rd (MCH_REPAIRCFG.ue_retire st) < w.2 ∧ s.bit (MCH_REPAIRCFG.auto_retire st) ∧ s.rd (MCH_PCSTAT.state st (u % 64)) = 0 then s.pcRetire u 1
    else s

/-- What an access meets: 0 no error, 1 a corrected one, 2 an uncorrectable one. -/
def State.memError (s : State) (u err lane : Nat) : State :=
  match err with
  | 0 => s
  | 1 => s.memCe u lane
  | _ => s.memUe u

/-! ### Locations (R406, R410)

DESIGN CHOICE (log entry 105): the spec gives no address map. A location of a pseudo-channel is 32 bytes, 32 to a row; one of a DDR5 rank is
64 bytes, 128 to a row; a row of each of the 64 banks follows the same row of the bank below. -/

/-- Bytes of a location, locations of a row, and rows of a bank of a controller. -/
def locBytes (u : Nat) : Nat := if isDdr u then 64 else 32
def rowLocs (u : Nat) : Nat := if isDdr u then 128 else 32
def State.rankLocs (s : State) (u : Nat) : Nat :=
  if isDdr u then s.rd (MCD_DIMM.capacity_gib (chanOf u)) * 2 ^ 30 / 64 / max 1 (s.ranksOf u) else 768 * 2 ^ 20 / 32

/-- The number of a location within its rank. -/
def locIn (u bank row col : Nat) : Nat := (row * 64 + bank) * rowLocs u + col

/-- A location exists. -/
def State.isLoc (s : State) (u rank bank row col : Nat) : Bool :=
  decide (rank < s.ranksOf u) && decide (bank < 64) && decide (col < rowLocs u) && decide (locIn u bank row col < s.rankLocs u)

/-- The training area: the top 1 MiB of rank 0 of a DDR5 channel, which no user is given (R410). -/
def State.inTraining (s : State) (u rank bank row col : Nat) : Bool :=
  isDdr u && rank == 0 && decide (s.rankLocs u ≤ locIn u bank row col + 2 ^ 20 / 64)

/-- The background initialisation of a channel has written the 1 MiB block of a location: it takes a quarter of the channel's bandwidth, rank
by rank from the lowest address (R406; DESIGN CHOICE, log entry 105). -/
def State.isInit (s : State) (u rank bank row col : Nat) : Bool :=
  let t0 := Tbl.get 0 s.mem.initAt (chanOf u)
  let block := (rank * s.rankLocs u + locIn u bank row col) * locBytes u / 2 ^ 20
  !isDdr u || t0 == 0 || decide ((block + 1) * 2 ^ 20 * 500 ≤ (s.clk - (t0 - 1)) * s.rd (MCD_STAT.rate (chanOf u)))

/-! ### Requests (R412 to R414, R422, R429, R430) -/

/-- The key of a location. -/
def memKey (u : Nat) (r : MReq) : Nat := (((u * 8 + r.rank) * 64 + r.bank) * 2 ^ 24 + r.row) * 2 ^ 16 + r.col

/-- The key of a bank. -/
def MReq.bk (r : MReq) : Nat := 64 * r.rank + r.bank

/-- Requests of a port that wait outside the bank queues. -/
def Ctl.portDepth (c : Ctl) (k : Nat) : Nat := (c.reqs.filter (fun r => !r.banked && r.port == k)).length

/-- Requests enter their bank queues of 16, each port's in order. -/
def bankFill : List Nat → List MReq → List MReq → List MReq
  | _, _, [] => []
  | stuck, done, r :: rest =>
    if r.banked then r :: bankFill stuck (done ++ [r]) rest
    else if stuck.contains r.port ∨ 16 ≤ ((done ++ rest).filter (fun x => x.banked && x.bk == r.bk)).length then
      r :: bankFill (insNat r.port stuck) (done ++ [r]) rest
    else { r with banked := true } :: bankFill stuck (done ++ [{ r with banked := true }]) rest

/-- Ports in panic after a change of the queues (R414). -/
def State.panics (s : State) (u : Nat) : State :=
  [0, 1, 2].foldl (fun s k =>
    let c := s.ctl u
    let n := c.portDepth k
    if !s.portPresent u k then s
    else if !c.panic.contains k ∧ s.panicOn u k * 8 ≤ n then
      (s.setCtl u { c with panic := insNat k c.panic }).inc (memFld u MCH_PANIC.count MCD_PANIC.count)
    else if c.panic.contains k ∧ n ≤ s.panicOff u k * 8 then s.setCtl u { c with panic := c.panic.filter (· != k) }
    else s) s

/-- Requests move into the bank queues, and panic follows. -/
def State.memFill (s : State) (u : Nat) : State :=
  let c := s.ctl u
  (s.setCtl u { c with reqs := bankFill [] [] c.reqs }).panics u

/-- A channel in self-refresh wakes: all of its bank array is refreshed again (R430). -/
def State.wakeChan (s : State) (u : Nat) : State :=
  if isDdr u ∧ s.rd (MCD_STAT.state (chanOf u)) = 7 then
    { s.wr (MCD_STAT.state (chanOf u)) 3 with mem := { s.mem with masked := Tbl.erase s.mem.masked (chanOf u) } }
  else s

/-- MEMORY_REQUEST (R410, R412 to R414, R429, R430): a request of port `k` reaches its controller, unless the port's queue of 128 is full. A read
will return what the controller has accepted before it. A request wakes a channel in self-refresh and a rank in power-down. Only test and
scrub reach the training area (R410). -/
def execMemoryRequest (u k : Nat) (write : Bool) (rank bank row col data : Nat) (s : State) : Out :=
  let c := s.ctl u
  if !s.memServes u ∨ !s.portPresent u k ∨ 128 ≤ c.portDepth k ∨ !s.isLoc u rank bank row col ∨ (s.inTraining u rank bank row col ∧ k ≠ 5) then .next s
  else
    let r0 : MReq := { port := k, write := write, rank := rank, bank := bank, row := row, col := col, data := data, at_ := s.clk }
    let r := if write then r0 else { r0 with data := Tbl.get 0 s.mem.store (memKey u r0) }
    let s := if write then { s with mem := { s.mem with store := Tbl.set 0 s.mem.store (memKey u r0) data } } else s
    .next (((s.wakeChan u).setCtl u { c with reqs := c.reqs ++ [r], busyAt := s.clk, asleep := c.asleep.filter (· != rank) }).memFill u)

/-- Locations of a controller that the patrol scrub reads, and the request that reads the one it has come to. -/
def State.scrubLocs (s : State) (u : Nat) : Nat := s.ranksOf u * s.rankLocs u
def State.scrubReq (s : State) (u : Nat) : MReq :=
  let n := (s.ctl u).scrubAt
  let k := n % max 1 (s.rankLocs u)
  let r0 : MReq := { port := 5, write := false, rank := n / max 1 (s.rankLocs u), bank := k / rowLocs u % 64, row := k / rowLocs u / 64,
                     col := k % rowLocs u, data := 0, at_ := s.clk, scrub := true }
  { r0 with data := Tbl.get 0 s.mem.store (memKey u r0) }

/-- PATROL_SCRUB (R422): the scrub comes to its next location of a controller, which it reads through port 5; it reads every location once in
each period_h hours, at an even pace (DESIGN CHOICE, log entry 106: it does not wake a channel in self-refresh, nor keep one awake). -/
def execPatrolScrub (u : Nat) (s : State) : Out :=
  let c := s.ctl u
  let total := s.scrubLocs u
  let period := s.rd (memFld u MCH_SCRUB.period_h MCD_SCRUB.period_h) * 3600 * 10 ^ 9
  let start := if c.scrubOn = 0 ∨ (c.scrubAt = 0 ∧ s.elapsed (c.scrubOn - 1) period) then s.clk else c.scrubOn - 1
  if !s.memServes u ∨ (isDdr u ∧ s.rd (MCD_STAT.state (chanOf u)) = 7) ∨ period = 0 ∨ total = 0 ∨ 128 ≤ c.portDepth 5 ∨
      total * (s.clk - start) < c.scrubAt * period then .next s
  else
    let next := if c.scrubAt + 1 < total then c.scrubAt + 1 else 0
    .next ((s.setCtl u { c with reqs := c.reqs ++ [s.scrubReq u], scrubAt := next,
                                scrubOn := (if next = 0 then start + period else start) + 1 }).memFill u)

/-! ### The next command (R412, R415 to R420) -/

/-- Entries of an activate table: 16 for a bank of HBM, 32 for one of DDR5. -/
def racSize (u : Nat) : Nat := if isDdr u then 32 else 16

/-- The position of the lowest count. -/
def lowest : List (Nat × Nat) → Nat
  | [] => 0
  | x :: r =>
    match r[lowest r]? with
    | none => 0
    | some y => if y.2 < x.2 then lowest r + 1 else 0

/-- An activate counted in a bank's table (R420). -/
def racAdd (size row : Nat) (t : List (Nat × Nat)) : List (Nat × Nat) :=
  if t.any (fun e => e.1 == row) then t.map (fun e => if e.1 = row then (row, e.2 + 1) else e)
  else if t.length < size then t ++ [(row, 1)]
  else match t[lowest t]? with
    | none => t
    | some e => t.set (lowest t) (row, e.2 + 1)

/-- The rows within a radius of a row, among the `n` rows of its bank (R420). -/
def neighbours (row radius n : Nat) : List Nat :=
  (List.range (2 * radius + 1)).filterMap (fun i => if i ≠ radius ∧ radius ≤ row + i ∧ row + i - radius < n then some (row + i - radius) else none)

/-- A row of a bank is activated (R420): a count that reaches the threshold makes a neighbour refresh due and returns to 0. -/
def State.activate (s : State) (u bk row : Nat) : State :=
  let c := s.ctl u
  let t := racAdd (racSize u) row (Tbl.get [] c.rac bk)
  let hot := t.any (fun e => e.1 == row && decide (s.rd (memFld u MCH_RACFG.threshold MCD_RACFG.threshold) ≤ e.2))
  let t := if hot then t.map (fun e => if e.1 = row then (row, 0) else e) else t
  let rows := neighbours row (s.rd (memFld u MCH_RACFG.radius MCD_RACFG.radius)) (s.rankLocs u / (64 * rowLocs u))
  s.setCtl u { c with open_ := Tbl.set 0 c.open_ bk (row + 1), lastAct := bk, rac := Tbl.set [] c.rac bk t,
                      nbr := if hot then c.nbr ++ [(bk, rows)] else c.nbr, cmdAt := Tbl.set 0 c.cmdAt (bk / 64) s.clk }

/-- Whether a request's row is open. -/
def Ctl.isHit (c : Ctl) (r : MReq) : Bool := Tbl.get 0 c.open_ r.bk == r.row + 1

/-- An older request of the same port to the same address waits before position `i`: requests of one port to one address are served in the
order issued (R413). -/
def Ctl.after (c : Ctl) (i : Nat) (r : MReq) : Bool :=
  (c.reqs.take i).any (fun x => x.port == r.port && x.bk == r.bk && x.row == r.row && x.col == r.col)

/-- Whether the request at position `i` may be served now (R412): a write in a batch, a read outside one, and at any time a read that 4 later
hits have passed. -/
def Ctl.ready (c : Ctl) (i : Nat) (r : MReq) : Bool :=
  (r.write == (c.batch != 0) || (!r.write && decide (4 ≤ r.passed))) && !c.after i r

/-- A miss of the bank that may be served, older than position `i`, that 4 later hits have passed: hits wait for it. -/
def Ctl.blocked (c : Ctl) (i : Nat) (r : MReq) : Bool :=
  ((c.reqs.take i).zipIdx).any (fun x => x.1.banked && x.1.bk == r.bk && !c.isHit x.1 && decide (4 ≤ x.1.passed) && c.ready x.2 x.1)

/-- The request at position `i` is issued: a read returns its data, unchecked from a block that initialisation has not reached (R406); a
location that the scrub finds corrected is written back (R422); older misses of its bank have been passed once more. -/
def State.issueReq (s : State) (u i err lane : Nat) : State :=
  let c := s.ctl u
  match c.reqs[i]? with
  | none => s
  | some r =>
    let older := (c.reqs.take i).map (fun x => if x.bk = r.bk ∧ !c.isHit x then { x with passed := x.passed + 1 } else x)
    let fresh := !s.isInit u r.rank r.bank r.row r.col && Tbl.get 0 s.mem.store (memKey u r) == 0
    let err := if fresh then 0 else err
    let back := if r.scrub && err == 1 then [{ r with write := true, banked := false, passed := 0, at_ := s.clk, scrub := false }] else []
    let c := { c with reqs := older ++ c.reqs.drop (i + 1) ++ back, batch := if r.write then c.batch - 1 else c.batch,
                      cmdAt := Tbl.set 0 c.cmdAt r.rank s.clk,
                      read := if r.write then c.read else some (r.port, r.data, err == 2) }
    let s := (s.setCtl u c).memFill u
    if r.write then s else s.memError u err lane

/-- The request at position `i` is served: issued when its row is open, else its row is activated. -/
def State.serveReq (s : State) (u i err lane : Nat) : State :=
  let c := s.ctl u
  match c.reqs[i]? with
  | none => s
  | some r => if c.isHit r then s.issueReq u i err lane else s.activate u r.bk r.row

/-- A batch of writes starts when 32 are held or one has waited 2 µs (R412). -/
def State.batchStart (s : State) (u : Nat) : State :=
  let c := s.ctl u
  let w := (c.reqs.zipIdx.filter (fun x => x.1.banked && x.1.write && !c.after x.2 x.1)).map (·.1)
  if c.batch ≠ 0 then (if w.isEmpty then s.setCtl u { c with batch := 0 } else s)
  else if 32 ≤ w.length ∨ w.any (fun r => s.elapsed r.at_ (us 2)) then s.setCtl u { c with batch := min 32 w.length }
  else s

/-- Positions of the banked requests that satisfy `p`, oldest first. -/
def Ctl.find (c : Ctl) (p : Nat → MReq → Bool) : List (Nat × MReq) :=
  (c.reqs.zipIdx.filter (fun x => x.1.banked && p x.2 x.1)).map (fun x => (x.2, x.1))

/-- The request that R412 serves next: a row hit that no older miss blocks, else a miss of the next bank in rotation. -/
def State.nextReq (s : State) (u : Nat) : Option Nat :=
  let c := s.ctl u
  let l := c.find c.ready
  match l.find? (fun x => c.isHit x.2 && !c.blocked x.1 x.2) with
  | some x => some x.1
  | none =>
    let m := l.filter (fun x => !c.isHit x.2)
    match firstFrom (c.lastAct + 1) ((m.map (fun x => x.2.bk)).foldl (fun a b => insNat b a) []) with
    | none => none
    | some b => (m.find? (fun x => x.2.bk == b)).map (·.1)

/-- The request of the next panicking port in rotation: its oldest (R415). -/
def State.panicReq (s : State) (u : Nat) : Option (Nat × Nat) :=
  let c := s.ctl u
  match firstFrom c.turn (c.panic.filter (fun k => !(c.find (fun _ r => r.port == k)).isEmpty)) with
  | none => none
  | some k => ((c.find (fun _ r => r.port == k)).head?).map (fun x => (k, x.1))

/-- The request of highest urgency, if that is 1 or more; ties go to the lower port (R416). -/
def State.urgentReq (s : State) (u : Nat) : Option Nat :=
  let key := fun (x : Nat × MReq) => (s.clk - x.2.at_, s.portTarget u x.2.port)
  let better := fun (x y : Nat × MReq) =>
    let (a, b) := key x
    let (d, e) := key y
    decide (d * b < a * e) || (a * e == d * b && decide (x.2.port < y.2.port))
  let l := ((s.ctl u).find (fun i r => !(s.ctl u).after i r)).filter (fun x => decide ((key x).2 ≤ (key x).1))
  (l.foldl (fun (m : Option (Nat × MReq)) x => match m with
    | none => some x
    | some y => if better x y then some x else some y) none).map (·.1)

/-- A refresh of a rank: its rows close, a rank in power-down wakes. -/
def State.refresh (s : State) (u rank : Nat) : State :=
  let c := s.ctl u
  s.setCtl u { c with open_ := c.open_.filter (fun e => e.1 / 64 != rank), cmdAt := Tbl.set 0 c.cmdAt rank s.clk,
                      asleep := c.asleep.filter (· != rank) }

/-- A forced refresh of a rank is issued (R418, R419); the next one falls due one interval after the last of a burst. -/
def State.forceRefresh (s : State) (u rank : Nat) : State :=
  let s := s.refresh u rank
  let c := s.ctl u
  let n := Tbl.get 0 c.forced rank - 1
  let over_ := decide (n = 0) && c.burst.contains rank
  (s.setCtl u { c with forced := Tbl.set 0 c.forced rank n, dueAt := if over_ then Tbl.set 0 c.dueAt rank s.clk else c.dueAt,
                       burst := if over_ then c.burst.filter (· != rank) else c.burst }).inc (memFld u MCH_REFFORCE.count MCD_REFFORCE.count)

/-- MEMORY_COMMAND_ISSUE (R412, R415 to R420, R422, R423): a controller in service issues its next command. `err` and `lane` say what a read
meets: 1 a corrected error on the lane, 2 an uncorrectable error. A pseudo-channel under lane repair pauses (R425). -/
def execMemoryCommandIssue (u err lane : Nat) (s : State) : Out :=
  if !s.memServes u ∨ (s.ctl u).fixing ≠ [] then .next s
  else
    let s := s.batchStart u
    let c := s.ctl u
    match c.forced with
    | (rank, _) :: _ => .next (s.forceRefresh u rank)
    | [] =>
      match c.nbr with
      | (bk, rows) :: rest =>
        .next ((s.setCtl u { c with nbr := rest, nbrLast := some (bk, rows), cmdAt := Tbl.set 0 c.cmdAt (bk / 64) s.clk,
                                    asleep := c.asleep.filter (· != bk / 64) }).inc (memFld u MCH_NBRREF.count MCD_NBRREF.count))
      | [] =>
        let first := if s.qosTarget u then s.urgentReq u else (s.panicReq u).map (·.2)
        match first with
        | some i =>
          let turn := if s.qosTarget u then c.turn
            else ((s.panicReq u).map (fun x => if (c.reqs[i]?).any c.isHit then x.1 + 1 else x.1)).getD 0
          .next ((s.setCtl u { c with turn := turn }).serveReq u i err lane)
        | none =>
          match c.debt with
          | (rank, d) :: _ => .next ((s.setCtl u { c with debt := Tbl.set 0 c.debt rank (d - 1) }).refresh u rank)
          | [] =>
            match s.nextReq u with
            | some i => .next (s.serveReq u i err lane)
            | none => .next s

/-- REFRESH_DUE (R417, R418): tREFI of a rank has passed: the refresh is postponed for a panicking port while the debt is below 4, or
forced. None falls due in a forced burst (R419). -/
def execRefreshDue (u rank : Nat) (s : State) : Out :=
  let c := s.ctl u
  if s.memServes u ∧ rank < s.ranksOf u ∧ !c.burst.contains rank ∧ s.elapsed (Tbl.get 0 c.dueAt rank) (s.trefi u) then
    let c := { c with dueAt := Tbl.set 0 c.dueAt rank s.clk }
    let d := Tbl.get 0 c.debt rank
    if c.reqs.any (fun r => r.rank == rank && c.panic.contains r.port) ∧ d < 4 then
      .next ((s.setCtl u { c with debt := Tbl.set 0 c.debt rank (d + 1) }).inc (memFld u MCH_REFPOST.count MCD_REFPOST.count))
    else .next (s.setCtl u { c with forced := Tbl.upd 0 c.forced rank (· + 1) })
  else .next s

/-- The controllers of a stack (0 to 5) or channel (8 + c). -/
def groupCtls (g : Nat) : List Nat := if g < 8 then (List.range 64).map (64 * g + ·) else [384 + (g - 8)]

/-- Double-rate mode of a stack or channel is entered or left: every debt is recounted, and on entry all of it is forced (R419). -/
def State.doubleRate (s : State) (g : Nat) (on : Bool) : State :=
  let us_ := groupCtls g
  let recount := fun d => if on then 2 * d else (d + 1) / 2
  let largest := us_.foldl (fun m u => (s.ctl u).debt.foldl (fun m e => max m (recount e.2)) m) 0
  let s := us_.foldl (fun s u =>
    let c := s.ctl u
    let s := if on then s.addSat (memFld u MCH_REFRECOUNT.count MCD_REFRECOUNT.count) c.debt.length else s
    if on then s.setCtl u { c with debt := [], forced := c.debt.foldl (fun t e => Tbl.upd 0 t e.1 (· + 2 * e.2)) c.forced,
                                   burst := c.debt.foldl (fun l e => insNat e.1 l) c.burst }
    else s.setCtl u { c with debt := c.debt.map (fun e => (e.1, recount e.2)) }) s
  if g < 8 then (s.wrBit (MCH_STAT.refresh_2x g) on).post 0x0905 ([g, b2n on] ++ leBytes 2 largest)
  else (s.wrBit (MCD_STAT.refresh_2x (g - 8)) on).post 0x0915 ([g - 8, b2n on] ++ leBytes 2 largest)

/-- MEMORY_TEMP_READ (R419): the temperature of a stack (0 to 5) or of a module (8 + channel, two sensors) is read, every 1 ms or 16 ms;
`ok` says that the read succeeds. -/
def execMemoryTempRead (g : Nat) (ok : Bool) (t0 t1 : Nat) (s : State) : Out :=
  if 16 ≤ g ∨ (6 ≤ g ∧ g < 8) ∨ !s.elapsed (Tbl.get 0 s.mem.tempAt g) (ms (if g < 8 then 1 else 16)) then .next s
  else
    let u := (groupCtls g).headD 0
    let s := { s with mem := { s.mem with tempAt := Tbl.set 0 s.mem.tempAt g s.clk } }
    let bad := Tbl.get 0 s.mem.tempBad g
    let fault := if g < 8 then MCH_STAT.sensor_fault g else MCD_STAT.sensor_fault (g - 8)
    if ok then
      let s := { s with mem := { s.mem with tempBad := Tbl.erase s.mem.tempBad g } }.wr fault 0
      let s := if g < 8 then s.wr (MCH_STAT.temp_c g) t0 else (s.wr (MCD_TEMP.ts0_c (g - 8)) t0).wr (MCD_TEMP.ts1_c (g - 8)) t1
      let t := if g < 8 then t0 else max t0 t1
      .next (if 85 < t ∧ !s.refresh2x u then s.doubleRate g true
             else if t ≤ 82 ∧ s.refresh2x u then s.doubleRate g false else s)
    else
      let s := { s with mem := { s.mem with tempBad := Tbl.set 0 s.mem.tempBad g (bad + 1) } }
      if bad + 1 = 3 then
        let s := (s.wr fault 1).post (if g < 8 then 0x0904 else 0x0914) [if g < 8 then g else g - 8]
        .next (if s.refresh2x u then s else s.doubleRate g true)
      else .next s

/-- ACTIVATE_TABLE_CLEAR (R420): each refresh window of 32 ms clears every activate table. -/
def execActivateTableClear (s : State) : Out :=
  if s.elapsed s.mem.racAt (ms 32) then
    let m := s.mem
    .next { s with mem := { m with racAt := s.clk, ctls := Tbl.mapAll {} (fun _ c => { c with rac := [] }) m.ctls } }
  else .next s

/-! ### Power saving (R429, R430) -/

/-- RANK_POWER_DOWN (R429): a rank without a command for pd_idle_ns enters power-down. -/
def execRankPowerDown (ch rank : Nat) (s : State) : Out :=
  let u := 384 + ch
  let c := s.ctl u
  let n := s.rd (MCD_PWRCFG.pd_idle_ns ch)
  if ch < 8 ∧ s.rd (MCD_STAT.state ch) = 3 ∧ rank < s.ranksOf u ∧ n ≠ 0 ∧ s.elapsed (Tbl.get 0 c.cmdAt rank) n ∧
      !c.reqs.any (fun r => r.rank == rank) then
    .next (s.setCtl u { c with asleep := insNat rank c.asleep })
  else .next s

/-- The eighths of a channel's bank array that hold nothing to keep: no tail block of the Extended FIB, no counter storage, no training area
(R430). Where things lie in a channel is a free value, but for the training area at its top. -/
def State.pasrMask (s : State) (ch : Nat) : Nat :=
  let blocks := if bitOf (s.rd LKP_XFIBCFG.channels) ch then (s.lkp.fib.filter (fun e => e.2.any (·.tailed))).map (fun e => Config.place e.1 ch % 9) else []
  let segs := (s.segsAt (8 + ch)).map (fun k => Config.place k ch % 8)
  ((List.range 7).filter (fun i => !blocks.contains i && !segs.contains i)).foldl (fun a i => a + 2 ^ i) 0

/-- A channel enters self-refresh with the eighths masked that hold nothing (R430). -/
def State.selfRefresh (s : State) (ch : Nat) : State :=
  { s.wr (MCD_STAT.state ch) 7 with mem := { s.mem with masked := Tbl.set 0 s.mem.masked ch (s.pasrMask ch) } }

/-- SELF_REFRESH_ENTRY (R430): a channel with RETAIN that has been idle for sr_idle_ms enters self-refresh. -/
def execSelfRefreshEntry (ch : Nat) (s : State) : Out :=
  let c := s.ctl (384 + ch)
  let n := s.rd (MCD_PWRCFG.sr_idle_ms ch)
  if ch < 8 ∧ s.bit (MCD_CFG.retain ch) ∧ s.rd (MCD_STAT.state ch) = 3 ∧ n ≠ 0 ∧ c.reqs.isEmpty ∧ s.elapsed c.busyAt (ms n) then
    .next (s.selfRefresh ch)
  else .next s

/-! ### Roles and training (R401 to R411, R432, R433) -/

/-- A channel starts full training: its module is powered and its reset released, the clock and the PHY run (*DDR5 training*). -/
def State.chanTrain (s : State) (ch : Nat) : State := (s.wr (MCD_STAT.state ch) 2).setPins ch ⟨true, true, true, true⟩

/-- A write of MCD_CFG (R404 to R406), `roles` where it writes the role or RETAIN: those may not change in another state than ABSENT, OFF and
EVACUATED, which leaves both; a role given to an OFF channel trains it, and role NONE given to one in service evacuates it. -/
def State.writeMcdCfg (s : State) (ch role : Nat) (retain roles : Bool) (rate : Nat) : State :=
  let s := if 4800 ≤ rate ∧ rate ≤ 8800 then s.wr (MCD_CFG.max_rate ch) rate else s
  let st := s.rd (MCD_STAT.state ch)
  if !roles then s
  else if (role = 1 ∧ 4 ≤ ch) ∨ (role = 2 ∧ ch < 4) ∨ (retain ∧ (role = 0 ∨ role = 2)) then s.wr (MCD_CFG.refused ch) 1
  else
    let s := s.abandonTest 3 (· == ch)
    let store := fun (s : State) => (s.wrKept (MCD_CFG.role ch) role).wrKept (MCD_CFG.retain ch) (b2n retain)
    if st = 0 ∨ st = 5 then store s
    else if st = 1 then (if role = 0 then store s else (store s).chanTrain ch)
    else if st = 3 ∧ role = 0 then
      match s.chanEvacuate ch with
      | .inr s => store s
      | .inl _ => s.wr (MCD_CFG.refused ch) 1
    else s.wr (MCD_CFG.refused ch) 1

/-- The highest rate that a module lists, its setting permits and its kind allows (R402); kind 1 RDIMM, 2 MRDIMM. -/
def State.pickRate (s : State) (ch kind : Nat) (rates : List Nat) : Nat :=
  let known := if kind = 1 then [4800, 5200, 5600, 6000, 6400] else [8000, 8800]
  (rates.filter (fun r => known.contains r && decide (r ≤ s.rd (MCD_CFG.max_rate ch)))).foldl max 0

/-- A channel's training fails: 0 nibble, 1 module kind, 2 no SPD answer (R401, R408, R433). -/
def State.trainFail (s : State) (ch nibble cause : Nat) : State :=
  let m := s.mem
  (({ s with mem := { m with back := m.back.filter (· != ch), restore := m.restore.filter (· != ch) } }).wr (MCD_STAT.state ch) 6).post 0x0911
    [ch, nibble, cause]

/-- A channel enters IN_SERVICE at a rate: one that REPAIR brings back posts MCD_RETURNED and rejoins its stripe (R433). -/
def State.chanUp (s : State) (ch rate : Nat) : State :=
  let m := s.mem
  let back := m.back.contains ch
  let s := (s.wr (MCD_STAT.state ch) 3).wr (MCD_STAT.rate ch) rate
  let s := { s with mem := { m with back := m.back.filter (· != ch), restore := m.restore.filter (· != ch), masked := Tbl.erase m.masked ch } }
  let s := if back then s.post 0x0917 ([ch, 0] ++ leBytes 2 rate) else s
  if back ∧ s.rd (MCD_CFG.role ch) = 2 then
    let b := s.bpm
    ({ s with bpm := { b with stripe := if m.striped.contains ch then insNat ch b.stripe else b.stripe, failed := b.failed.filter (· != ch) },
              mem := { s.mem with striped := s.mem.striped.filter (· != ch) } }).syncStripe
  else s

/-- The widest run of passing steps of a sweep, as its first step and its length; of runs equally wide the earliest. Bit `i` of `passed` is
step `i` - 64 (R407). -/
def runOf (passed : Nat) : Nat × Nat :=
  ((List.range 129).foldl (fun (x : (Nat × Nat) × Nat × Nat) i =>
    let run := if !bitOf passed i then (i + 1, 0) else (x.2.1, x.2.2 + 1)
    (if x.1.2 < run.2 then run else x.1, run)) ((64, 0), (0, 0))).1

/-- The centre of a run of steps as a signed byte, rounded toward the earlier step (R407). -/
def centreOf (run : Nat × Nat) : Nat := unsigned 8 (((run.1 + (run.2 - 1) / 2 : Nat) : Int) - 64)

/-- A lane group swept: centre and width of the read run, then of the write run. -/
def eyeOf (sweep : Nat × Nat) : Nat × Nat × Nat × Nat :=
  let r := runOf sweep.1
  let w := runOf sweep.2
  (centreOf r, r.2, centreOf w, w.2)

/-- MCD_EYE of a nibble. -/
def State.setEye (s : State) (ch n : Nat) (e : Nat × Nat × Nat × Nat) : State :=
  (((s.wr (MCD_EYE.rd_centre ch n) e.1).wr (MCD_EYE.rd_width ch n) e.2.1).wr (MCD_EYE.wr_centre ch n) e.2.2.1).wr (MCD_EYE.wr_width ch n) e.2.2.2

/-- Whether a lane group's passing run is narrower than min_width (R408). -/
def State.narrow (s : State) (u : Nat) (e : Nat × Nat × Nat × Nat) : Bool :=
  decide (min e.2.1 e.2.2.2 < s.rd (memFld u MCH_EYEMIN.min_width MCD_EYEMIN.min_width))

/-- A failing step of the training of stack or channel `g` is repeated up to twice more (R408); none after the third failure. -/
def State.retry (s : State) (g : Nat) : Option State :=
  let n := Tbl.get 0 s.mem.tries g
  if n < 2 then some { s with mem := { s.mem with tries := Tbl.set 0 s.mem.tries g (n + 1) } } else none

/-- The training of `g` needs no more attempts. -/
def State.tried (s : State) (g : Nat) : State := { s with mem := { s.mem with tries := Tbl.erase s.mem.tries g } }

/-- Centres and widths of the 20 nibbles of a channel, from its sweeps; MCD_EYE of all of them. -/
def ddrEyes (sweeps : List (Nat × Nat)) : List (Nat × Nat × Nat × Nat) := (List.range 20).map (fun n => eyeOf ((sweeps[n]?).getD (0, 0)))
def State.setEyes (s : State) (ch : Nat) (sweeps : List (Nat × Nat)) : State :=
  (ddrEyes sweeps).zipIdx.foldl (fun s x => s.setEye ch x.2 x.1) s

/-- The nibble at which an attempt at a channel's training fails: the one reported, or the first that is too narrow (R408). -/
def State.ddrBad (s : State) (ch fail nibble : Nat) (sweeps : List (Nat × Nat)) : Option Nat :=
  if fail ≠ 0 then some nibble else (ddrEyes sweeps).findIdx? (s.narrow (384 + ch))

/-- A DDR5 channel's training ends: `fail` is 0 where every step passes, 1 for a failing step of `nibble`, else 1 + the cause; the module's
kind, ranks, capacity and rates come from its SPD, `sweeps` are the steps that passed of each nibble's read and write sweep (R401, R402,
R406 to R409). -/
def State.ddrTrained (s : State) (ch fail nibble kind ranks cap : Nat) (rates : List Nat) (sweeps : List (Nat × Nat)) : State :=
  let s := ((s.wr (MCD_DIMM.type ch) (if kind ≤ 2 then kind else 0)).wr (MCD_DIMM.ranks ch) ranks).wr (MCD_DIMM.capacity_gib ch) cap
  let rate := s.pickRate ch kind rates
  if fail = 3 then (s.tried (8 + ch)).trainFail ch 0xFF 2
  else if fail = 2 ∨ kind = 0 ∨ 2 < kind ∨ (ranks ≠ 1 ∧ ranks ≠ 2 ∧ ranks ≠ 4) ∨ 256 < cap ∨ rate = 0 then (s.tried (8 + ch)).trainFail ch 0xFF 1
  else
    let s := s.setEyes ch sweeps
    match s.ddrBad ch fail nibble sweeps with
    | some n => (s.retry (8 + ch)).getD ((s.tried (8 + ch)).trainFail ch n 0)
    | none =>
      let base := ((384 + ch) * 8 * 64) * 2 ^ 40
      let m := s.mem
      let s := { s with mem := { m with store := m.store.filter (fun e => decide (e.1 < base) || decide (base + 2 ^ 49 ≤ e.1)),
                                        initAt := Tbl.set 0 m.initAt ch (s.clk + 1) } }
      let s := s.saveDelays ((ddrEyes sweeps).zipIdx.map (fun x => (32 * (384 + ch) + x.2, 256 * x.1.1 + x.1.2.2.1)))
      (((s.tried (8 + ch)).setCtl (384 + ch) {}).wr (MCD_STAT.retained ch) 0).chanUp ch rate

/-- The stored delays of a channel take effect (R432). -/
def State.loadDelays (s : State) (ch : Nat) : State :=
  (List.range 20).foldl (fun t n =>
    match s.record.delays.find? (fun e => e.1 == 32 * (384 + ch) + n) with
    | some (_, d) => (t.wr (MCD_EYE.rd_centre ch n) (d / 256 % 256)).wr (MCD_EYE.wr_centre ch n) (d % 256)
    | none => t) s

/-- A channel's restore from self-refresh after a warm reset ends (R432): its stored delays are restored, and where the training area does not
hold its pattern it is trained fully and its contents, counters among them, are lost (R619). -/
def State.restored (s : State) (ch : Nat) (ok : Bool) : State :=
  let s := s.loadDelays ch
  if ok then (s.wr (MCD_STAT.retained ch) 1).chanUp ch (s.rd (MCD_STAT.rate ch))
  else
    let m := s.mem
    let s := { s with mem := { m with restore := m.restore.filter (· != ch), masked := Tbl.erase m.masked ch } }
    let s := (s.segsAt (8 + ch)).foldl State.cntClearSeg s
    ((((s.wr (MCD_STAT.retained ch) 0).post 0x0918 [ch]).xfibLose ch).chanTrain ch)

/-- The data lanes of a pseudo-channel that fail in training: those reported, and every lane of a narrow group none of whose lanes is reported
(R408). -/
def failLanes (bad : Nat) (narrow : Nat → Bool) : List Nat :=
  (List.range 32).filter (fun l => bitOf bad l || (narrow (l / 8) && bitsAt bad (8 * (l / 8)) 8 == 0))

/-- Failing lanes of a pseudo-channel after the third attempt: spares replace them, or the pseudo-channel becomes RETIRED with nothing to
evacuate (R408, R424). -/
def State.replaceLanes (s : State) (pc : Nat) (lanes : List Nat) : State :=
  if (s.repairsOf pc).length + lanes.length ≤ 2 then s.mapSpares pc lanes
  else ({ s with mem := { s.mem with retired := Tbl.set 0 s.mem.retired pc 1 } }).post 0x0901 (leBytes 2 pc ++ [0])

/-- A pseudo-channel's delays and runs, key 32 × `pc` + group, and the narrowest run of its groups (R407, R411). -/
def State.pcEyes (s : State) (pc : Nat) (eyes : List (Nat × Nat × Nat × Nat)) : State :=
  let t := eyes.zipIdx.foldl (fun t x => Tbl.ins (32 * pc + x.2) (256 * x.1.1 + x.1.2.2.1, min x.1.2.1 x.1.2.2.2) t) s.mem.eyes
  let least := eyes.foldl (fun m e => min m (min e.2.1 e.2.2.2)) 63
  ({ s with mem := { s.mem with eyes := t } }).wr (MCH_PCSTAT.eye_min (pc / 64) (pc % 64)) least

/-- The record of repairs and retirements takes effect (R424), and a pseudo-channel in service takes its delays. -/
def State.pcTrained (s : State) (pc : Nat) (eyes : List (Nat × Nat × Nat × Nat)) : State :=
  let s := s.mapSpares pc []
  if Tbl.get 0 s.mem.retired pc ≠ 0 then
    ({ s with bpm := { s.bpm with gone := insNat pc s.bpm.gone } }).wr (MCH_PCSTAT.state (pc / 64) (pc % 64)) 2
  else s.pcEyes pc eyes

/-- Centres and widths of the four lane groups of pseudo-channel `p` of a stack, from the stack's sweeps. -/
def hbmEyes (sweeps : List (Nat × Nat)) (p : Nat) : List (Nat × Nat × Nat × Nat) :=
  (List.range 4).map (fun g => eyeOf ((sweeps[4 * p + g]?).getD (0, 0)))

/-- The pseudo-channels of a stack that fail an attempt at its training, each with its failing lanes; a retired one takes no part (R408). -/
def State.hbmFails (s : State) (k : Nat) (bad : List Nat) (sweeps : List (Nat × Nat)) : List (Nat × List Nat) :=
  (List.range 64).filterMap (fun p =>
    let l := failLanes ((bad[p]?).getD 0) (fun g => ((hbmEyes sweeps p)[g]?).any (s.narrow (64 * k + p)))
    if Tbl.get 0 s.mem.retired (64 * k + p) ≠ 0 ∨ l = [] then none else some (64 * k + p, l))

/-- A stack's training ends (R407 to R409, R424): `bad` names the failing data lanes of each pseudo-channel as a mask, `sweeps` the steps that
passed of the read and write sweep of each lane group, four to a pseudo-channel. A pseudo-channel whose lanes were replaced is trained again. -/
def State.hbmTrained (s : State) (k : Nat) (ok : Bool) (bad : List Nat) (sweeps : List (Nat × Nat)) : State :=
  if !ok then (s.tried k).wr (MCH_STAT.state k) 3
  else
    match s.hbmFails k bad sweeps with
    | [] =>
      let s := (((s.tried k).wr (MCH_STAT.state k) 2).wr (MCH_ID.rate k) 80).wr (MCH_ID.capacity_gib k) 48
      let s := (List.range 64).foldl (fun s p => s.pcTrained (64 * k + p) (hbmEyes sweeps p)) s
      (s.saveDelays ((s.mem.eyes.filter (fun e => e.1 / 2048 == k)).map (fun e => (e.1, e.2.1)))).syncSeg
    | fails => (s.retry k).getD (fails.foldl (fun s x => s.replaceLanes x.1 x.2) (s.tried k))

/-- MEMORY_TRAINING_DONE (R401, R402, R406 to R409, R424, R432, R433): an attempt at the training of stack `g` (0 to 5), or of channel `g` - 8,
ends, or the restore of a channel from self-refresh does. `fail` is 0 when it passes, else 1 + the cause of MCD_TRAIN_FAIL. -/
def execMemoryTrainingDone (g fail nibble kind ranks cap : Nat) (rates bad : List Nat) (sweeps : List (Nat × Nat)) (s : State) : Out :=
  if g < 6 then
    if s.rd (MCH_STAT.state g) = 1 then .next (s.hbmTrained g (fail == 0) bad sweeps) else .next s
  else if g < 8 ∨ 16 ≤ g then .next s
  else if s.mem.restore.contains (g - 8) then .next (s.restored (g - 8) (fail == 0))
  else if s.rd (MCD_STAT.state (g - 8)) = 2 then .next (s.ddrTrained (g - 8) fail nibble kind ranks cap rates sweeps)
  else .next s

/-- REPAIR kind 5 on a channel (R433): the refusal, or its slot powered and its training started. -/
def State.chanReturn (s : State) (ch : Nat) : (Status × Nat) ⊕ State :=
  let st := s.rd (MCD_STAT.state ch)
  let s := s.abandonTest 3 (· == ch)
  if 8 ≤ ch then .inl (.refused, dBAD_OPERAND)
  else if st = 4 then .inl (.busy, dIN_USE)
  else if st ≠ 5 then .inl (.refused, dBAD_OPERAND)
  else .inr (({ s with mem := { s.mem with back := insNat ch s.mem.back } }).chanTrain ch)

/-- A delay moves toward its new centre by at most one step, as a signed byte (R411). -/
def stepToward (old new : Nat) : Nat :=
  let a := signed 8 (old % 256)
  let b := signed 8 (new % 256)
  unsigned 8 (if a < b then a + 1 else if b < a then a - 1 else a)

/-- The steps from `lo` to `hi` as a run. -/
def runBetween (lo hi : Nat) : Nat × Nat := (lo, hi + 1 - lo)

/-- What re-centring finds of a lane group (R411): the runs between the edges just measured, or where those are narrow the runs of a full
sweep; and the delays, moved by one step, or set by the sweep. -/
def State.recentred (s : State) (u old : Nat) (edges : Nat × Nat × Nat × Nat) (sweep : Nat × Nat) : Nat × Nat × Nat × Nat :=
  let r := runBetween edges.1 edges.2.1
  let w := runBetween edges.2.2.1 edges.2.2.2
  let e := (centreOf r, r.2, centreOf w, w.2)
  if s.narrow u e then eyeOf sweep else (stepToward (old / 256) e.1, e.2.1, stepToward (old % 256) e.2.2.1, e.2.2.2)

/-- RECENTRE (R411): every 100 ms lane group `n` of controller `u` is re-centred on the edges just measured (steps 0 to 128, nominal 64). A run
narrower than min_width is swept fully; a lane whose group still fails is repaired, a nibble fails its channel. -/
def execRecentre (u n : Nat) (edges : Nat × Nat × Nat × Nat) (sweep : Nat × Nat) (lane : Nat) (s : State) : Out :=
  let k := 32 * u + n
  if !s.memServes u ∨ !s.elapsed (Tbl.get 0 s.mem.centreAt k) (ms 100) ∨ (if isDdr u then 20 else 4) ≤ n then .next s
  else
    let s := { s with mem := { s.mem with centreAt := Tbl.set 0 s.mem.centreAt k s.clk } }
    if isDdr u then
      let ch := chanOf u
      let e := s.recentred u (256 * s.rd (MCD_EYE.rd_centre ch n) + s.rd (MCD_EYE.wr_centre ch n)) edges sweep
      let s := s.setEye ch n e
      .next (if s.narrow u e then s.chanFail ch 1 else s)
    else
      let e := s.recentred u (Tbl.get (0, 0) s.mem.eyes k).1 edges sweep
      let t := Tbl.ins k (256 * e.1 + e.2.2.1, min e.2.1 e.2.2.2) s.mem.eyes
      let least := (List.range 4).foldl (fun m g => min m (Tbl.get (0, 63) t (32 * u + g)).2) 63
      let s := ({ s with mem := { s.mem with eyes := t } }).wr (MCH_PCSTAT.eye_min (stackOf u) (u % 64)) least
      .next (if s.narrow u e then s.autoRepair u lane else s)

end Sys2Proof.Machine
end

