-- ==== Sys2Proof/Machine/Tables.lean ====
section
/-! DEFINITION. The FIB, the exact-match store, the ternary table and the adjacencies (03_lookup.md): what a lookup finds, and what
an insertion, a deletion or a register write changes. -/
namespace Sys2Proof.Machine

/-- A table word written anew holds no error (R169): tables as LKP_ECC_UNCORR numbers them. -/
def State.wordWritten (s : State) (table index : Nat) : State :=
  { s with lkp := { s.lkp with eccUnc := s.lkp.eccUnc.filter (· != (table, index)),
                               eccCor := s.lkp.eccCor.filter (· != (table, index)) } }

/-- Whether a lookup that touches these words meets an uncorrectable error (R169). -/
def State.touchBad (s : State) (ws : List (Nat × Nat)) : Bool := ws.any (fun w => s.lkp.eccUnc.contains w)

/-- A lookup corrects the single-bit errors of the words it touches, in its data and not in place: LKP_ECCCOR counts them (R169, R170). -/
def State.corrects (s : State) (ws : List (Nat × Nat)) : State :=
  let n := (ws.filter (fun w => s.lkp.eccCor.contains w)).length
  if n = 0 then s else s.addSat LKP_ECCCOR.count n

/-- Errors that table words have met since the last command: table as LKP_ECC_UNCORR numbers it, index, and whether the error is
uncorrectable (R169; DESIGN CHOICE, log entry 10: the commands that read tables bring them). -/
def State.upset (s : State) (l : List (Nat × Nat × Bool)) : State :=
  l.foldl (fun s x =>
    let w := (x.1, x.2.1)
    if s.lkp.eccUnc.contains w then s
    else if x.2.2 then { s with lkp := { s.lkp with eccUnc := s.lkp.eccUnc ++ [w], eccCor := s.lkp.eccCor.filter (· != w) } }
    else if s.lkp.eccCor.contains w then s
    else { s with lkp := { s.lkp with eccCor := s.lkp.eccCor ++ [w] } }) s

/-! ### The FIB (R124 to R139) -/

/-- Address or prefix bits are held left-aligned in 128 bits; `keepBits` keeps the first `len` of them (R124). -/
def keepBits (v len : Nat) : Nat := v / 2 ^ (128 - len) * 2 ^ (128 - len)

/-- The key of a prefix; ascending keys are the table order of R366. -/
def fibKey (vrf fam6 len v : Nat) : Nat := ((vrf * 2 + fam6) * 256 + len) * 2 ^ 128 + keepBits v len

/-- The fields of a key. -/
def fibLen (k : Nat) : Nat := k / 2 ^ 128 % 256
def fibFam6 (k : Nat) : Nat := k / 2 ^ 136 % 2
def fibVrf (k : Nat) : Nat := k / 2 ^ 137
def fibBits (k : Nat) : Nat := k % 2 ^ 128

/-- The prefix or address of a command's 16-byte operand; an IPv4 one stands in its first 4 bytes. -/
def addrBits (fam6 : Nat) (b : List Nat) : Nat := if fam6 = 1 then beNat (sliceB b 0 16) else beNat (sliceB b 0 4) * 2 ^ 96

/-- On-die units of a prefix (R125). -/
def fibUnits (k : Nat) : Nat := if fibFam6 k = 1 then 3 else 1

/-- A FIB entry. -/
def State.fibAt (s : State) (k : Nat) : Option FibEnt := Tbl.get none s.lkp.fib k

/-- The lengths a family admits. -/
def maxLen (fam6 : Nat) : Nat := if fam6 = 1 then 128 else 32

/-- The longest prefix that covers an address (R124). -/
def State.fibMatch (s : State) (vrf fam6 v : Nat) : Option (Nat × FibEnt) :=
  (List.range (maxLen fam6 + 1)).reverse.findSome? (fun l => (s.fibAt (fibKey vrf fam6 l v)).map (fun e => (fibKey vrf fam6 l v, e)))

/-- The tail pointer that a search for an address reaches: the shortest prefix below a tail pointer that covers it, which is the
root of its block (DESIGN CHOICE, log entry 20: R126 leaves the placement to the device). -/
def State.tailRoot (s : State) (vrf fam6 v : Nat) : Option Nat :=
  (List.range (maxLen fam6 + 1)).findSome? (fun l => match s.fibAt (fibKey vrf fam6 l v) with
    | some e => if e.tailed then some (fibKey vrf fam6 l v) else none
    | none => none)

/-- Whether key `k` lies below root `r`. -/
def fibBelow (r k : Nat) : Bool := k / 2 ^ 136 == r / 2 ^ 136 && fibLen r ≤ fibLen k && keepBits (fibBits k) (fibLen r) == fibBits r

/-- Units of a block: of every prefix below its root. -/
def State.blockUnits (s : State) (r : Nat) : Nat :=
  (s.lkp.fib.filter (fun e => fibBelow r e.1)).foldl (fun a e => a + fibUnits e.1) 0

/-- Threshold events (LKP_FIB_HIGH, LKP_OVF_HIGH): entered above `up` per cent (R659), left below `down`. -/
def State.threshold (s : State) (idx used limit up down : Nat) (ev : State → Nat → State) : State :=
  if s.lkp.high.contains idx then
    if used * 100 < down * limit then ev { s with lkp := { s.lkp with high := s.lkp.high.filter (· != idx) } } 0 else s
  else if up * limit < used * 100 then ev { s with lkp := { s.lkp with high := insNat idx s.lkp.high } } 1
  else s

/-- Units available for placement (R125). -/
def State.placement (s : State) : Nat := 6291456 - s.rd LKP_FIBCFG.hot_units

/-- LKP_FIBUSE, LKP_FIBCOUNT, LKP_FIBTAILED and LKP_HOTSTAT after a change of the FIB, with LKP_FIB_HIGH. -/
def State.fibCount (s : State) : State :=
  let t := s.lkp.fib
  let tailed : Nat × Option FibEnt → Bool := fun e => match e.2 with
    | some x => x.tailed
    | none => false
  let units := (t.filter (fun e => !tailed e)).foldl (fun a e => a + fibUnits e.1) 0
  let s := ((s.wr LKP_FIBUSE.units units).wr LKP_FIBCOUNT.prefixes t.length).wr LKP_FIBTAILED.prefixes (t.filter tailed).length
  let s := s.wr LKP_HOTSTAT.units (s.lkp.hot.foldl (fun a e => a + s.blockUnits e.1) 0)
  let s := s.threshold 0 units s.placement 95 90 (fun s d => s.post 0x0204 ([0, d, 0, 0] ++ leBytes 4 units))
  s.threshold 1 t.length 67108864 95 90 (fun s d => s.post 0x0204 ([1, d, 0, 0] ++ leBytes 4 t.length))

/-- The root of a block: a tail pointer is reached there. -/
def State.isRoot (s : State) (k : Nat) : Bool := s.tailRoot (fibVrf k) (fibFam6 k) (fibBits k) == some k

/-- Hot copies after the blocks have changed (DESIGN CHOICE, log entry 20). The copy of a block whose root was deleted serves the blocks
that are left of it (R138); a copy that a shorter prefix's tail pointer now hides is evicted. Counts and copies under way of prefixes that
are roots no longer go. -/
def State.reroot (s : State) : State :=
  let hidden := s.lkp.hot.filter (fun e => match s.tailRoot (fibVrf e.1) (fibFam6 e.1) (fibBits e.1) with
    | some r => decide (fibLen r < fibLen e.1)
    | none => false)
  let hot := s.lkp.hot.foldl (fun (t : Tbl Nat) e =>
    if s.isRoot e.1 then Tbl.ins e.1 e.2 t
    else if hidden.contains e then t
    else (s.lkp.fib.filter (fun x => fibBelow e.1 x.1 && s.isRoot x.1)).foldl (fun t x => Tbl.ins x.1 e.2 t) t) []
  let s := if hidden = [] then s else s.addSat LKP_HOTEVICT.count hidden.length
  { s with lkp := { s.lkp with hot := hot, hotWork := s.lkp.hotWork.filter (fun e => s.isRoot e.1),
                               hotCount := s.lkp.hotCount.filter (fun e => s.isRoot e.1) } }

/-- The FIB table replaced, hot copies and counts brought up to date. -/
def State.setFib (s : State) (t : Tbl (Option FibEnt)) : State := ({ s with lkp := { s.lkp with fib := t } }.reroot).fibCount

/-- Hot copies under way of a block that a command touches are abandoned (R138). -/
def State.touchBlock (s : State) (k : Nat) : State :=
  { s with lkp := { s.lkp with hotWork := s.lkp.hotWork.filter (fun e => !fibBelow e.1 k) } }

/-- Adds or replaces a prefix (R127, R128, R133, *mode*): the refusal's reason, 0 when it is done. -/
def State.fibInsert (s : State) (vrf fam len : Nat) (pfx route : List Nat) (mode : Nat) : Nat × State :=
  let fam6 := if fam = 6 then 1 else 0
  let v := addrBits fam6 pfx
  let k := fibKey vrf fam6 len v
  if (fam ≠ 4 ∧ fam ≠ 6) ∨ maxLen fam6 < len ∨ 2 < mode then (dBAD_OPERAND, s)
  else if s.lkp.xfibDown then (dXFIB_DOWN, s)
  else match s.fibAt k with
    | some e =>
      if mode = 1 then (dEXISTS, s)
      else (0, ((s.touchBlock k).wordWritten 0 k).setFib (Tbl.ins k (some { e with route := route }) s.lkp.fib))
    | none =>
      if mode = 2 then (dNOT_FOUND, s)
      else
        let fits := decide (s.rd LKP_FIBUSE.units + fibUnits k ≤ s.placement)
        if s.rd LKP_XFIBCFG.enable = 0 then
          if fits then (0, (s.wordWritten 0 k).setFib (Tbl.ins k (some ⟨route, false⟩) s.lkp.fib)) else (dTABLE_FULL, s)
        else if 67108864 ≤ s.lkp.fib.length then (dTABLE_FULL, s)
        else
          let below := match s.tailRoot vrf fam6 (fibBits k) with
            | some r => decide (fibLen r ≤ len)
            | none => false
          if fits && !below then (0, (s.wordWritten 0 k).setFib (Tbl.ins k (some ⟨route, false⟩) s.lkp.fib))
          else
            let t := s.lkp.fib.map (fun e => if fibBelow k e.1 then (e.1, e.2.map (fun x => { x with tailed := true })) else e)
            (0, ((s.touchBlock k).wordWritten 0 k).setFib (Tbl.ins k (some ⟨route, true⟩) t))

/-- Removes a prefix (R124, R133). -/
def State.fibDelete (s : State) (vrf fam len : Nat) (pfx : List Nat) : Nat × State :=
  let fam6 := if fam = 6 then 1 else 0
  let k := fibKey vrf fam6 len (addrBits fam6 pfx)
  if (fam ≠ 4 ∧ fam ≠ 6) ∨ maxLen fam6 < len then (dBAD_OPERAND, s)
  else if s.lkp.xfibDown then (dXFIB_DOWN, s)
  else match s.fibAt k with
    | none => (dNOT_FOUND, s)
    | some _ => (0, ((s.touchBlock k).wordWritten 0 k).setFib (Tbl.erase s.lkp.fib k))

/-- A table entry brought on-die. -/
def onDie (e : Nat × Option FibEnt) : Nat × Option FibEnt := (e.1, e.2.map (fun (x : FibEnt) => { x with tailed := false }))

/-- Every prefix brought on-die; hot copies evicted first (R134). -/
def State.fibAllOnDie (s : State) : State :=
  let s := s.addSat LKP_HOTEVICT.count s.lkp.hot.length
  { s with lkp := { s.lkp with hot := [], hotWork := [], hotCount := [] } }.setFib
    (s.lkp.fib.map onDie)

/-- Every prefix removed and the Extended FIB disabled (R134). A hot_units write that waited for moves then fits (R139). -/
def State.fibEmpty (s : State) : State :=
  let s := { s with lkp := { s.lkp with hot := [], hotWork := [], hotCount := [], xfibDown := false, xfibOff := false } }.setFib []
  let s := (s.wr LKP_XFIBCFG.enable 0).wr LKP_XFIBCFG.channels 0
  match s.lkp.hotWrite with
  | none => s
  | some v => { s with lkp := { s.lkp with hotWrite := none } }.wr LKP_FIBCFG.hot_units v

/-- Moves subtrees below tail pointers until the on-die prefixes take at most `limit` units: the last in table order first, which
leaves every block whole (DESIGN CHOICE, log entry 20). -/
def tailLast (limit : Nat) : List (Nat × Option FibEnt) → Nat → List (Nat × Option FibEnt)
  | [], _ => []
  | (k, e) :: r, used =>
    match e with
    | some x =>
      if x.tailed ∨ used ≤ limit then (k, e) :: tailLast limit r used
      else (k, some { x with tailed := true }) :: tailLast limit r (used - fibUnits k)
    | none => tailLast limit r used

/-! ### The exact-match store (R140 to R146) -/

/-- Buckets of one region of a table, and the first bucket of the region that pipe `p` reads (R140). -/
def State.emBuckets (s : State) (t : Nat) : Nat := 2 ^ s.rd (LKP_EMCFG.bucket_bits t)
def State.emRegion (s : State) (t p : Nat) : Nat :=
  s.rd (LKP_EMBASE.base t) * 1024 + (if s.rd (LKP_EMCFG.scope t) = 1 then p * s.emBuckets t else 0)

/-- The bucket of a key (R141). -/
def State.emBucket (s : State) (t p : Nat) (key : List Nat) : Nat :=
  s.emRegion t p + crc32c (beBytes 2 (s.rd (LKP_EMBASE.seed t)) ++ key) % s.emBuckets t

/-- A bucket position, and the overflow store of a pipe. -/
def State.emPos (s : State) (b i : Nat) : Option EmEnt := Tbl.get none s.lkp.em (4 * b + i)
def State.ovfStore (s : State) (p : Nat) : List OvfEnt := Tbl.get [] s.lkp.ovf p

/-- Entries of the overflow store that a key takes (R143). -/
def EmEnt.need (e : EmEnt) : Nat := if e.key.length = 32 then 2 else 1
def ovfUse (l : List OvfEnt) : Nat := l.foldl (fun a o => a + o.ent.need) 0

/-- The pipes whose overflow stores hold an entry of a table: its pipe, or all four for SHARED scope (R143). -/
def State.ovfPipes (s : State) (t p : Nat) : List Nat := if s.rd (LKP_EMCFG.scope t) = 1 then [p] else [0, 1, 2, 3]

/-- An overflow store replaced, with LKP_OVFUSE and LKP_OVF_HIGH. -/
def State.setOvf (s : State) (p : Nat) (l : List OvfEnt) : State :=
  let u := ovfUse l
  let s := { s with lkp := { s.lkp with ovf := Tbl.set [] s.lkp.ovf p l } }.wr (LKP_OVFUSE.entries p) u
  s.threshold (2 + p) u 16384 90 75 (fun s d => s.post 0x0205 ([p, d, 0, 0] ++ leBytes 2 u))

/-- Where a key is held (R144). -/
inductive EmPlace where
  | bucket (b : Nat) (ps : List Nat)
  | overflow (serial b : Nat)
  deriving DecidableEq, Repr

/-- The entry of a key in the region that pipe `p` reads, with its place. -/
def State.emFind (s : State) (t p : Nat) (key : List Nat) : Option (EmEnt × EmPlace) :=
  let b := s.emBucket t p key
  let mine : Nat → Bool := fun i => match s.emPos b i with
    | some e => e.table == t && e.key == key
    | none => false
  match [0, 1, 2, 3].filter mine with
  | i :: r => (s.emPos b i).map (fun e => ({ e with cont := false }, .bucket b (i :: r)))
  | [] => ((s.ovfStore p).find? (fun o => o.ent.table == t && o.ent.key == key)).map (fun o => (o.ent, .overflow o.serial o.bucket))

/-- The words of a place. -/
def EmPlace.words : EmPlace → List (Nat × Nat)
  | .bucket b ps => ps.map (fun i => (1, 4 * b + i))
  | .overflow n _ => [(2, n)]

/-- The words that a search for a key reads, whether it finds it or not: the four positions of its bucket and the pipe's overflow entries
of that bucket (R144). DESIGN CHOICE (log entry 91): an overflow entry's word is numbered by its serial. -/
def State.emWords (s : State) (t p : Nat) (key : List Nat) : List (Nat × Nat) :=
  let b := s.emBucket t p key
  [0, 1, 2, 3].map (fun i => (1, 4 * b + i)) ++ ((s.ovfStore p).filter (fun o => o.bucket == b)).map (fun o => (2, o.serial))

/-- Free positions of a bucket. -/
def State.emFree (s : State) (b : Nat) : List Nat := [0, 1, 2, 3].filter (fun i => (s.emPos b i).isNone)

/-- An entry put at positions of a bucket. -/
def State.emPut (s : State) (b : Nat) (ps : List Nat) (e : EmEnt) : State :=
  let t := (ps.zipIdx).foldl (fun t x => Tbl.set none t (4 * b + x.1) (some { e with cont := x.2 != 0 })) s.lkp.em
  ps.foldl (fun s i => s.wordWritten 1 (4 * b + i)) { s with lkp := { s.lkp with em := t } }

/-- Data of a held entry replaced in place. -/
def State.emRewrite (s : State) (pl : EmPlace) (e : EmEnt) : State :=
  match pl with
  | .bucket b ps => s.emPut b ps e
  | .overflow n _ =>
    let s := s.wordWritten 2 n
    { s with lkp := { s.lkp with ovf := Tbl.mapAll [] (fun _ l => l.map (fun o => if o.serial = n then { o with ent := e } else o)) s.lkp.ovf } }

/-- Moves the oldest overflow entry of a bucket that fits its free positions into it, again and again (R145). -/
def State.moveBack (b : Nat) : Nat → State → State
  | 0, s => s
  | n + 1, s =>
    let free := s.emFree b
    let all := ([0, 1, 2, 3].flatMap s.ovfStore).filter (fun o => o.bucket == b && decide (o.ent.need ≤ free.length))
    match all.foldl (fun (m : Option OvfEnt) o => match m with
        | none => some o
        | some x => if o.serial < x.serial then some o else m) none with
    | none => s
    | some o =>
      let s := s.emPut b (free.take o.ent.need) o.ent
      let s := [0, 1, 2, 3].foldl (fun s p =>
        if (s.ovfStore p).any (fun x => x.serial == o.serial) then s.setOvf p ((s.ovfStore p).filter (fun x => x.serial != o.serial)) else s) s
      State.moveBack b n s

/-- A new entry placed in its bucket, or in the overflow stores (R143): none when a store it needs lacks room. -/
def State.emPlace (s : State) (t p : Nat) (e : EmEnt) : Option State :=
  let b := s.emBucket t p e.key
  let free := s.emFree b
  if e.need ≤ free.length then some (s.emPut b (free.take e.need) e)
  else
    let ps := s.ovfPipes t p
    if ps.all (fun q => decide (ovfUse (s.ovfStore q) + e.need ≤ 16384)) then
      let n := s.lkp.ovfNext
      let s := { s with lkp := { s.lkp with ovfNext := n + 1 } }
      some (ps.foldl (fun s q => s.setOvf q (s.ovfStore q ++ [⟨e, b, n⟩])) s)
    else none

/-- A host write to the bridge table gives the device's own fields their values (R178). -/
def bridgeHostData (d : List Nat) : List Nat :=
  let st := leAt d 2 1 / 128
  sliceB d 0 2 ++ [st * 128 + (if st = 1 then 0 else 48), 0, 0, 0] ++ sliceB d 6 10

/-- Adds or replaces an entry in the region that pipe `p` reads (*mode*, R143, R178, R200): the refusal's reason, 0 when done. -/
def State.emInsert (s : State) (t p : Nat) (key data : List Nat) (mode : Nat) : Nat × State :=
  let data := if s.bridgeTable = some t then bridgeHostData data else data
  match s.emFind t p key with
  | some (e, pl) => if mode = 1 then (dEXISTS, s) else (0, s.emRewrite pl { e with data := data })
  | none =>
    if mode = 2 then (dNOT_FOUND, s)
    else match s.emPlace t p { table := t, key := key, data := data } with
      | some s' => (0, s')
      | none => (dTABLE_FULL, s)

/-- Frees the place of an entry, its words written anew, and lets overflow entries of its bucket move back (R145). -/
def State.emFreeAt (s : State) (pl : EmPlace) : State :=
  let s := pl.words.foldl (fun s w => s.wordWritten w.1 w.2) s
  match pl with
  | .bucket b ps =>
    let t := ps.foldl (fun t i => Tbl.erase t (4 * b + i)) s.lkp.em
    State.moveBack b 4 { s with lkp := { s.lkp with em := t } }
  | .overflow n _ => [0, 1, 2, 3].foldl (fun s q =>
      if (s.ovfStore q).any (fun x => x.serial == n) then s.setOvf q ((s.ovfStore q).filter (fun x => x.serial != n)) else s) s

/-- Removes an entry. -/
def State.emDelete (s : State) (t p : Nat) (key : List Nat) : Nat × State :=
  match s.emFind t p key with
  | none => (dNOT_FOUND, s)
  | some (_, pl) => (0, s.emFreeAt pl)

/-- The entries of a region in table order (R366): bucket × 2^40, plus the position, or 4 plus the overflow entry's serial. -/
def State.emListing (s : State) (t p : Nat) : List (Nat × EmEnt) :=
  let lo := s.emRegion t p
  let hi := lo + s.emBuckets t
  let inB := s.lkp.em.filterMap (fun e => match e.2 with
    | some x => if x.table = t ∧ !x.cont ∧ lo ≤ e.1 / 4 ∧ e.1 / 4 < hi then some ((e.1 / 4 - lo) * 2 ^ 40 + e.1 % 4, x) else none
    | none => none)
  inB ++ (s.ovfStore p).filterMap (fun o =>
    if o.ent.table = t ∧ lo ≤ o.bucket ∧ o.bucket < hi then some ((o.bucket - lo) * 2 ^ 40 + 4 + o.serial, o.ent) else none)

/-- The regions of a table as bucket ranges, for a base, a scope and a size (R140). -/
def emRanges (base scope bits : Nat) : Nat × Nat := (base * 1024, base * 1024 + (if scope = 1 then 4 else 1) * 2 ^ bits)

/-- Whether table `t` may be enabled with these settings: inside the store and clear of every other enabled table. -/
def State.emRoom (s : State) (t base scope bits : Nat) : Bool :=
  let (lo, hi) := emRanges base scope bits
  decide (hi ≤ 1048576) && (List.range 64).all (fun u =>
    u == t || s.rd (LKP_EMCFG.enable u) == 0 ||
      (let (l, h) := emRanges (s.rd (LKP_EMBASE.base u)) (s.rd (LKP_EMCFG.scope u)) (s.rd (LKP_EMCFG.bucket_bits u))
       decide (hi ≤ l) || decide (h ≤ lo)))

/-- A write of LKP_EMCFG of table `t` (R140, R142): refused, or taken; a disable starts the freeing of its entries. DESIGN CHOICE (log entry
93): a bucket_bits outside 10 to 20 leaves the field as it is, and the rest of the write is taken. -/
def State.writeEmCfg (s : State) (t enable scope keylen bits : Nat) : State :=
  let refuse := s.wr LKP_EMSTAT.refused 1
  let keylen := if keylen = 3 then s.rd (LKP_EMCFG.keylen t) else keylen
  let bits := if 10 ≤ bits ∧ bits ≤ 20 then bits else s.rd (LKP_EMCFG.bucket_bits t)
  let put := fun (s : State) => (((s.wr (LKP_EMCFG.enable t) enable).wr (LKP_EMCFG.scope t) scope).wr (LKP_EMCFG.keylen t) keylen).wr
    (LKP_EMCFG.bucket_bits t) bits
  let same := scope = s.rd (LKP_EMCFG.scope t) ∧ keylen = s.rd (LKP_EMCFG.keylen t) ∧ bits = s.rd (LKP_EMCFG.bucket_bits t)
  if s.rd (LKP_EMCFG.enable t) = 1 then
    if enable = 1 then (if same then s else refuse)
    else if s.bridgeTable = some t then refuse
    else
      let holds := s.lkp.em.any (fun e => match e.2 with
        | some x => x.table == t
        | none => false) || [0, 1, 2, 3].any (fun p => (s.ovfStore p).any (fun o => o.ent.table == t))
      let s := put s
      if holds then { s with lkp := { s.lkp with clearing := insNat t s.lkp.clearing } }.wr LKP_EMSTAT.clearing 1 else s
  else if enable = 1 then
    if s.bit LKP_EMSTAT.clearing || !s.emRoom t (s.rd (LKP_EMBASE.base t)) scope bits then refuse else put s
  else put s

/-- A write of LKP_EMBASE of table `t` (R142). -/
def State.writeEmBase (s : State) (t seed base : Nat) : State :=
  if s.rd (LKP_EMCFG.enable t) = 1 then
    if seed = s.rd (LKP_EMBASE.seed t) ∧ base = s.rd (LKP_EMBASE.base t) then s else s.wr LKP_EMSTAT.refused 1
  else (s.wr (LKP_EMBASE.seed t) seed).wr (LKP_EMBASE.base t) base

/-- Buckets that still hold an entry of a table being freed: a position, or an overflow entry whose key hashes to it (R142). -/
def State.dirtyBuckets (s : State) : List Nat :=
  let gone := s.lkp.clearing
  s.lkp.em.filterMap (fun e => match e.2 with
    | some x => if gone.contains x.table then some (e.1 / 4) else none
    | none => none) ++
  [0, 1, 2, 3].flatMap (fun p => ((s.ovfStore p).filter (fun o => gone.contains o.ent.table)).map (·.bucket))

/-- The lowest of a list of buckets. -/
def lowestBucket : List Nat → Option Nat
  | [] => none
  | b :: r => some (r.foldl min b)

/-- A bucket's positions are freed together with its overflow entries, of the tables being freed (R142). -/
def State.freeBucket (s : State) (b : Nat) : State :=
  let gone := s.lkp.clearing
  let em := s.lkp.em.filter (fun e => match e.2 with
    | some x => !(e.1 / 4 == b && gone.contains x.table)
    | none => false)
  let s := ([0, 1, 2, 3].map (fun i => 4 * b + i)).foldl (fun s i => s.wordWritten 1 i) { s with lkp := { s.lkp with em := em } }
  [0, 1, 2, 3].foldl (fun s p => s.setOvf p ((s.ovfStore p).filter (fun o => !(o.bucket == b && gone.contains o.ent.table)))) s

/-- Frees up to `n` further buckets in ascending order; clearing reads 0 once the last is freed (R142). -/
def State.emClear : Nat → State → State
  | 0, s => s
  | n + 1, s =>
    match lowestBucket s.dirtyBuckets with
    | none => { s with lkp := { s.lkp with clearing := [] } }.wr LKP_EMSTAT.clearing 0
    | some b =>
      let s := s.freeBucket b
      if s.dirtyBuckets = [] then { s with lkp := { s.lkp with clearing := [] } }.wr LKP_EMSTAT.clearing 0 else State.emClear n s

/-! ### The ternary table (R147 to R150) -/

/-- A ternary entry. -/
def State.terAt (s : State) (i : Nat) : Option TerEnt := Tbl.get none s.lkp.ter i

/-- Whether a key matches a value under a mask, byte by byte (R148). -/
def maskMatch : List Nat → List Nat → List Nat → Bool
  | k :: ks, v :: vs, m :: ms => Nat.land k m == Nat.land v m && maskMatch ks vs ms
  | _, _, _ => true

/-- The matching entry of a profile with the lowest priority number, then the lowest index (R148). -/
def State.terMatch (s : State) (profile : Nat) (key : List Nat) : Option (Nat × TerEnt) :=
  s.lkp.ter.foldl (fun best e => match e.2 with
    | none => best
    | some x =>
      if x.profile = profile ∧ maskMatch key x.value x.mask then
        match best with
        | none => some (e.1, x)
        | some (_, y) => if x.prio < y.prio then some (e.1, x) else best
      else best) none

/-- The ternary table replaced, with the entry counts of the profiles. -/
def State.setTer (s : State) (t : Tbl (Option TerEnt)) : State :=
  let s := { s with lkp := { s.lkp with ter := t } }
  (List.range 8).foldl (fun s k => s.wr (LKP_TERPROF.entries k) (t.filter (fun e => match e.2 with
    | some x => x.profile == k
    | none => false)).length) s

/-- TER_WRITE (R149). -/
def State.terWrite (s : State) (profile index prio : Nat) (value mask data : List Nat) : Nat × State :=
  if 8 ≤ profile ∨ s.rd (LKP_TERPROF.enable profile) = 0 ∨ 131071 < index ∨ 2 ^ 20 ≤ prio then (dBAD_OPERAND, s)
  else match s.terAt index with
    | some e => if e.profile = profile then (0, (s.wordWritten 3 index).setTer (Tbl.ins index (some ⟨profile, value, mask, prio, data⟩) s.lkp.ter))
                else (dEXISTS, s)
    | none => (0, (s.wordWritten 3 index).setTer (Tbl.ins index (some ⟨profile, value, mask, prio, data⟩) s.lkp.ter))

/-- TER_DELETE (R149). -/
def State.terDelete (s : State) (index : Nat) : Nat × State :=
  if 131071 < index then (dBAD_OPERAND, s)
  else match s.terAt index with
    | none => (dNOT_FOUND, s)
    | some _ => (0, (s.wordWritten 3 index).setTer (Tbl.erase s.lkp.ter index))

/-- A write of LKP_TERPROF (R150): a width change while the profile holds entries is ignored. -/
def State.writeTerProf (s : State) (k enable width : Nat) : State :=
  let width := if 1 ≤ width ∧ width ≤ 10 then width else s.rd (LKP_TERPROF.width k)
  if width ≠ s.rd (LKP_TERPROF.width k) ∧ s.rd (LKP_TERPROF.entries k) ≠ 0 then s.wr LKP_EMSTAT.refused 1
  else (s.wr (LKP_TERPROF.enable k) enable).wr (LKP_TERPROF.width k) width

/-! ### Adjacencies (R151, R161 to R167) -/

/-- An adjacency, and one replaced. -/
def State.adjAt (s : State) (i : Nat) : Adj := Tbl.get {} s.lkp.adj i
def State.setAdj (s : State) (i : Nat) (a : Adj) : State := { s with lkp := { s.lkp with adj := Tbl.set {} s.lkp.adj i a } }

/-- ADJ_WRITE (R151, R161, R165). -/
def State.adjWrite (s : State) (i : Nat) (data : List Nat) : Nat × State :=
  let a := s.adjAt i
  if 2097151 < i then (dBAD_OPERAND, s)
  else if a.st = .retiring then (dINDEX_RETIRING, s)
  else (0, (s.wordWritten 4 i).setAdj i { st := .valid, data := data, version := (a.version + 1) % 65536, due := 0 })

/-- ADJ_DELETE (R162, R165, R166). -/
def State.adjDelete (s : State) (i : Nat) : Nat × State :=
  let a := s.adjAt i
  if 2097151 < i then (dBAD_OPERAND, s)
  else match a.st with
    | .retiring => (dINDEX_RETIRING, s)
    | .free => (dNOT_FOUND, s)
    | .valid => (0, (s.setAdj i { a with st := .retiring, due := s.clk + ms (s.rd LKP_RETIRE.time_ms) }).inc LKP_RETIRECNT.entries)

end Sys2Proof.Machine
end

