-- ==== Sys2Proof/Machine/Learning.lean ====
section
/-! DEFINITION. Bridging, learning and aging (04_learning.md): the source sighting, learn notices, and the aging sweep. -/
namespace Sys2Proof.Machine

/-! ### Notices (R186 to R188, R390, R391) -/

/-- Notices held of a pipe, oldest first. -/
def State.notices (s : State) (p : Nat) : List (Nat × List Nat) := Tbl.get [] s.brg.notices p
def State.setNotices (s : State) (p : Nat) (l : List (Nat × List Nat)) : State :=
  { s with brg := { s.brg with notices := Tbl.set [] s.brg.notices p l } }

/-- The class 3 ring, while one is named. -/
def State.noticeRing (s : State) : Option Nat := s.evRing 3

/-- Notices of a full batch (R391). -/
def State.batchLimit (s : State) : Nat :=
  let n := s.rd BRG_LEARNCFG.batch
  match s.noticeRing with
  | some r => min n (2 * ((s.ring r).size - 1))
  | none => n

/-- Whether the store and the class 3 ring have room for a batch of `n` notices (R393). -/
def State.batchRoom (s : State) (n : Nat) : Bool :=
  let e : EvRec := { code := 0x0301, cls := 3, payload := [], cont := List.replicate ((n + 1) / 2) [], ns := 0, sec := 0, stored := false }
  s.evUsable e && s.evFits e

/-- Two notices to a continuation slot; the second half of the last is 0 when their count is odd (R390). -/
def pairUp : List (List Nat) → List (List Nat)
  | [] => []
  | [a] => [sliceB a 0 32]
  | a :: b :: r => (a ++ b) :: pairUp r

/-- The oldest `n` notices of a pipe posted as one batch (R186, R390), where there is room for it. The record crosses the bridge in the control
class (R28). -/
def State.postBatch (s : State) (p n : Nat) : State :=
  let l := s.notices p
  if n = 0 ∨ !s.batchRoom n then s
  else
    let s := s.setNotices p (l.drop n)
    s.postRec 0x0301 (leBytes 2 n ++ [p]) (pairUp ((l.take n).map (·.2)))

/-- *Learn notice*. -/
def noticeBytes (dom : Nat) (mac : List Nat) (port old kind pipe seq : Nat) : List Nat :=
  leBytes 2 dom ++ sliceB mac 0 6 ++ leBytes 2 port ++ leBytes 2 old ++ [kind, pipe % 4] ++ leBytes 2 seq

/-- A notice produced (R186 to R188): held, or discarded while 4,096 are held; a full batch is posted. DESIGN CHOICE (log entry 96): a
pipe's first notice after a cold or warm reset has sequence number 0. -/
def State.notice (s : State) (p dom : Nat) (mac : List Nat) (port old kind : Nat) : State :=
  let n := Tbl.get 0 s.brg.seq p
  let s := { s with brg := { s.brg with seq := Tbl.set 0 s.brg.seq p ((n + 1) % 65536) } }
  let l := s.notices p
  if 4096 ≤ l.length then
    (s.inc (BRG_NOTICELOST.count p)).postRated 0x0403 p (ms 1) 1 (fun k => [p, 0, 0, 0] ++ leBytes 4 k)
  else
    let s := s.setNotices p (l ++ [(s.clk, noticeBytes dom mac port old kind p n)])
    if s.batchLimit ≤ l.length + 1 then s.postBatch p s.batchLimit else s

/-! ### The source sighting (R179 to R192) -/

/-- Fields of *Bridge entry data*. -/
def brPort (d : List Nat) : Nat := beNat (sliceB d 0 2)
def brStatic (d : List Nat) : Bool := bitOf (leAt d 2 1) 7
def brFrozen (d : List Nat) : Bool := bitOf (leAt d 2 1) 6
def brAge (d : List Nat) : Nat := bitsAt (leAt d 2 1) 4 2
def brMoves (d : List Nat) : Nat := bitsAt (leAt d 2 1) 0 4
def brStamp (d : List Nat) : Nat := beNat (sliceB d 4 2)

/-- Entry data with byte 2 given by its fields. DESIGN CHOICE (log entry 95): move_stamp stands most significant byte first, as port_id
does. -/
def brWith (d : List Nat) (port : Nat) (frozen : Bool) (age moves stamp : Nat) : List Nat :=
  patchB (patchB d 0 (beBytes 2 port ++ [b2n (brStatic d) * 128 + b2n frozen * 64 + age * 16 + moves])) 4 (beBytes 2 stamp)

/-- BRG_DOMCFG of a domain. -/
def State.domCfg (s : State) (dom : Nat) : Bool × Nat := Tbl.get (true, 0) s.brg.dom dom

/-- Entries of a domain in a pipe's region of table `t`, static included. -/
def State.domIn (s : State) (t p dom : Nat) : Nat := ((s.emListing t p).filter (fun e => e.2.key.take 2 == beBytes 2 dom)).length

/-- Entries of a domain in a pipe's region of the bridge table (BRG_DOMSTAT). -/
def State.domCount (s : State) (p dom : Nat) : Nat :=
  match s.bridgeTable with
  | none => 0
  | some t => s.domIn t p dom

/-- An insertion that fails (R183, R184): cause FULL, or LIMIT. -/
def State.learnFail (s : State) (p dom len : Nat) (limit : Bool) : State :=
  let s := s.inc (BRG_LEARNFAIL.count p)
  let s := s.cntAdd true (s.rd BRG_CNTBASE.base + 4 * dom + p) 1 len
  let kf := evKey 0x0401 (p + 16)
  let kl := evKey 0x0401 (p + 32)
  let s := { s with evSum := Tbl.upd 0 s.evSum (if limit then kl else kf) (· + 1) }
  let full := Tbl.get 0 s.evSum kf
  let lim := Tbl.get 0 s.evSum kl
  let s := s.postRated 0x0401 p (ms 1) 1 (fun k => [p, 0, 0, 0] ++ leBytes 4 k ++ leBytes 4 full ++ leBytes 4 lim)
  if Tbl.get 0 s.evSum (evKey 0x0401 p) = 0 then { s with evSum := Tbl.erase (Tbl.erase s.evSum kf) kl } else s

/-- Network time in ms modulo 65,536 (R190). -/
def State.msStamp (s : State) : Nat := s.fdNs / 1000000 % 65536

/-- A move to `port` (R190, R191). -/
def State.brMove (s : State) (p dom : Nat) (mac : List Nat) (d : List Nat) (port : Nat) : List Nat × State :=
  let t := s.msStamp
  let old := brPort d
  let s := (s.inc (BRG_MOVES.count p)).notice p dom mac port old 2
  if brMoves d = 0 ∨ s.rd BRG_MOVECFG.window_ms ≤ (t + 65536 - brStamp d) % 65536 then (brWith d port false 3 1 t, s)
  else if s.rd BRG_MOVECFG.max_moves < brMoves d + 1 then
    let s := (s.inc (BRG_FROZEN.count p)).notice p dom mac port 0 4
    let s := s.post 0x0402 ([p, 0] ++ leBytes 2 port ++ leBytes 2 dom ++ mac)
    (brWith d port true 3 (s.rd BRG_MOVECFG.hold_sweeps) (brStamp d), s)
  else (brWith d port false 3 (brMoves d + 1) (brStamp d), s)

/-- The source sighting of a BRG call (*Source outcomes*, R180 to R184): the outcome and the state after it. -/
def State.sight (s : State) (t p dom : Nat) (mac : List Nat) (port len : Nat) : Nat × State :=
  let key := beBytes 2 dom ++ mac
  let (learn, limit) := s.domCfg dom
  let on := learn && port != 0xFFFF
  match s.emFind t p key with
  | none =>
    if !on then (0, s)
    else if limit ≠ 0 ∧ limit ≤ s.domIn t p dom then (3, s.learnFail p dom len true)
    else match s.emPlace t p { table := t, key := key, data := beBytes 2 port ++ [48] ++ List.replicate 13 0 } with
      | some s => (1, (s.inc (BRG_LEARNED.count p)).notice p dom mac port 0 1)
      | none => (3, s.learnFail p dom len false)
  | some (e, pl) =>
    let d := e.data
    let refreshed := if brStatic d then d else brWith d (brPort d) (brFrozen d) 3 (brMoves d) (brStamp d)
    if brPort d = port then (0, s.emRewrite pl { e with data := refreshed })
    else if brStatic d ∨ brFrozen d then
      let s := s.emRewrite pl { e with data := refreshed }
      (0, if on then s.inc (BRG_CONFLICT.count p) else s)
    else if !on then (0, s.emRewrite pl { e with data := refreshed })
    else
      let (d', s) := s.brMove p dom mac d port
      (2, s.emRewrite pl { e with data := d' })

/-! ### Aging (R194 to R198) -/

/-- The sweep of a pipe. -/
def State.sweep (s : State) (p : Nat) : Sweep := Tbl.get {} s.brg.sweeps p
def State.setSweep (s : State) (p : Nat) (x : Sweep) : State := { s with brg := { s.brg with sweeps := Tbl.set {} s.brg.sweeps p x } }

/-- A sweep of each pipe starts, or each stops (R194, R198). -/
def State.startSweeps (s : State) : State :=
  [0, 1, 2, 3].foldl (fun s p => s.setSweep p { on := true, start := s.clk, period := s.rd BRG_AGECFG.period_s, bucket := 0 }) s
def State.stopSweeps (s : State) : State := { s with brg := { s.brg with sweeps := [] } }

/-- A write of BRG_CFG (R175, R194). DESIGN CHOICE (log entry 94): one that names another table while bridging stays enabled starts every
pipe's sweep again at the first bucket. -/
def State.writeBrgCfg (s : State) (enable table : Nat) : State :=
  let ok := s.rd (LKP_EMCFG.enable table) = 1 ∧ s.rd (LKP_EMCFG.scope table) = 1 ∧ s.rd (LKP_EMCFG.keylen table) = 0
  if enable = 1 ∧ ¬ ok then s.wr BRG_STAT.refused 1
  else
    let was := s.bridgeTable
    let s := (s.wr BRG_CFG.enable enable).wr BRG_CFG.table table
    if s.bridgeTable = was then s
    else if enable = 1 ∧ s.rd BRG_AGECFG.period_s ≠ 0 then s.startSweeps
    else s.stopSweeps

/-- The end of a pipe's sweep: the next one starts there, with the period that BRG_AGECFG holds at that moment (R194, R198). -/
def State.nextSweep (s : State) (t p : Nat) : State :=
  let x := s.sweep p
  let len := x.period * 10 ^ 9
  if x.on ∧ s.emBuckets t ≤ x.bucket ∧ s.elapsed x.start len then
    s.setSweep p { on := true, start := x.start + len, period := s.rd BRG_AGECFG.period_s, bucket := 0 }
  else s

/-- A write of BRG_AGECFG.period_s (R198): sweeps that have ended by now have taken the period before it. -/
def State.writeAge (s : State) (period : Nat) : State :=
  let s := match s.bridgeTable with
    | none => s
    | some t => [0, 1, 2, 3].foldl (fun s p => s.nextSweep t p) s
  let was := s.rd BRG_AGECFG.period_s
  let s := s.wr BRG_AGECFG.period_s period
  if period % 65536 = 0 then s.stopSweeps
  else if was = 0 ∧ s.bridgeTable.isSome then s.startSweeps
  else s

/-- One entry under a sweep visit (R192, R193, R195). A visit reads nothing of an entry with an uncorrectable error, and leaves it (DESIGN
CHOICE, log entry 91). -/
def State.sweepEntry (s : State) (t p : Nat) (key : List Nat) : State :=
  match s.emFind t p key with
  | none => s
  | some (e, pl) =>
    if s.touchBad pl.words then s else
    let d := e.data
    let dom := beNat (key.take 2)
    let mac := sliceB key 2 6
    if brStatic d then s
    else if brAge d = 0 then ((s.inc (BRG_AGED.count p)).emFreeAt pl).notice p dom mac (brPort d) 0 3
    else
      let age := brAge d - 1
      if brFrozen d ∧ s.rd BRG_MOVECFG.hold_sweeps ≠ 0 then
        if brMoves d = 0 then
          (s.emRewrite pl { e with data := brWith d (brPort d) false age 0 0 }).notice p dom mac (brPort d) 0 5
        else s.emRewrite pl { e with data := brWith d (brPort d) true age (brMoves d - 1) (brStamp d) }
      else s.emRewrite pl { e with data := brWith d (brPort d) (brFrozen d) age (brMoves d) (brStamp d) }

/-- When the sweep of a pipe reaches its next bucket: visits are spread evenly over the period (R194). -/
def State.sweepDue (s : State) (t p : Nat) : Bool :=
  let x := s.sweep p
  x.on && s.elapsed x.start (x.bucket * (x.period * 10 ^ 9) / s.emBuckets t)

end Sys2Proof.Machine
end

