-- ==== Sys2Proof/Machine/LookupRows.lean ====
section
/-! DEFINITION. Accelerator calls and the background work of the lookup tables and of bridging (03_lookup.md, 04_learning.md). -/
namespace Sys2Proof.Machine

/-! ### Keys and results (R119 to R122) -/

/-- Statuses of *Result buffer*. -/
def stHIT : Nat := 0
def stMISS : Nat := 1
def stKEY_ERROR : Nat := 2
def stTABLE_ERROR : Nat := 3
def stRETIRED : Nat := 4

/-- A result buffer: status, accelerator, status bits 63:12 and the data of bytes 8 to 31. -/
def resultBytes (status accel high : Nat) (data : List Nat) : List Nat :=
  beBytes 8 (status + accel * 256 + high * 4096) ++ sliceB data 0 24

/-- An error result (R122). -/
def errorResult (status accel reason : Nat) : List Nat := resultBytes status accel reason []

/-- A call in the accelerators. -/
def State.callAt (s : State) (k : Nat) : Option Call := (s.eng.calls.find? (fun e => e.1 == k)).map (·.2)

/-- A call replaced. -/
def State.setCall (s : State) (k : Nat) (c : Call) : State := { s with eng := { s.eng with calls := Tbl.ins k c s.eng.calls } }

/-- The result of a call, not yet written to its ply's buffer. -/
def State.answer (s : State) (k : Nat) (c : Call) (r : List Nat) : State := s.setCall k { c with result := some r, tail := false }

/-- A presented call of an accelerator that has no result yet. -/
def State.presented (s : State) (k accel : Nat) : Option Call :=
  match s.callAt k with
  | some c => if c.accel = accel ∧ c.result = none ∧ !c.tail then some c else none
  | none => none

/-! ### FIB -/

/-- The key of a FIB call: VRF, family and address, or the reason of its error (R121, R122). -/
def fibCallKey (c : Call) : Nat ⊕ (Nat × Nat × Nat) :=
  let kl := c.key.length / 8
  let fam := leAt c.key 2 1
  let vrf := beNat (sliceB c.key 0 2)
  if c.key = [] then .inl rADDRESS
  else if 1 < c.select then .inl rSELECT
  else if fam = 4 then (if kl = 1 then .inr (vrf, 0, addrBits 0 (sliceB c.key 4 4)) else .inl rKEYLEN)
  else if fam = 6 then (if kl = 3 then .inr (vrf, 1, addrBits 1 (sliceB c.key 8 16)) else .inl rKEYLEN)
  else if kl = 1 ∨ kl = 3 then .inl rFIELD else .inl rKEYLEN

/-- The answer of a search: the longest match with its tier bits. -/
def State.fibAnswer (s : State) (vrf fam6 v tier hot : Nat) : List Nat :=
  match s.fibMatch vrf fam6 v with
  | none => resultBytes stMISS 0 0 []
  | some (k, e) =>
    if s.lkp.eccUnc.contains (0, k) then errorResult stTABLE_ERROR 0 rECC
    else resultBytes stHIT 0 (fibLen k + tier * 256 + hot * 512) e.route

/-- The errors that a search for an address corrects (R169). -/
def State.fibCorrects (s : State) (vrf fam6 v : Nat) : State :=
  match s.fibMatch vrf fam6 v with
  | none => s
  | some (k, _) => s.corrects [(0, k)]

/-- A descent counted against its block while promotion is active (R136). -/
def State.countBlock (s : State) (r : Nat) : State :=
  if s.rd LKP_FIBCFG.hot_units = 0 then s
  else { s with lkp := { s.lkp with hotCount := Tbl.upd 0 s.lkp.hotCount r (· + 1) } }

/-- FIB_LOOKUP (R124, R131 to R133, R137): a search that reaches a tail pointer is answered from a hot copy, or with select 1 misses with
tail_needed, or queues a descent; a full tail queue or a lost channel is a TABLE_ERROR. A lookup served from a hot copy counts for its block
in the period beside the descents (DESIGN CHOICE, log entry 20: R136 compares a hot copy's count, and its lookups make no descent). -/
def execFibLookup (call : Nat) (upsets : List (Nat × Nat × Bool)) (s : State) : Out :=
  let s := s.upset upsets
  match s.presented call 0 with
  | none => .next s
  | some c =>
    match fibCallKey c with
    | .inl r => .next (s.answer call c (errorResult stKEY_ERROR 0 r))
    | .inr (vrf, fam6, v) =>
      match s.tailRoot vrf fam6 v with
      | none => .next ((s.fibCorrects vrf fam6 v).answer call c (s.fibAnswer vrf fam6 v 0 0))
      | some r =>
        if s.lkp.hot.any (fun e => e.1 == r) then .next (((s.countBlock r).fibCorrects vrf fam6 v).answer call c (s.fibAnswer vrf fam6 v 0 1))
        else if c.select = 1 then .next (s.answer call c (resultBytes stMISS 0 1024 []))
        else if s.lkp.xfibDown then .next (s.answer call c (errorResult stTABLE_ERROR 0 rXFIB_DOWN))
        else
          let q := Tbl.get [] s.lkp.tailQ c.pipe
          if s.rd LKP_TAILCFG.depth ≤ q.length then
            let s := (s.inc (LKP_TAILOVL.count c.pipe)).answer call c (errorResult stTABLE_ERROR 0 rTAIL_OVERLOAD)
            .next (s.postRated 0x0203 c.pipe (ms 1) 1 (fun n => [c.pipe, 0, 0, 0] ++ leBytes 4 n))
          else
            let s := (s.countBlock r).inc (LKP_TAILCNT.count c.pipe)
            let s := { s with lkp := { s.lkp with tailQ := Tbl.set [] s.lkp.tailQ c.pipe (q ++ [call]) } }
            .next (s.setCall call { c with tail := true })

/-- TAIL_DESCENT (R130, R133): the oldest waiting descent of a pipe reads its tail block. -/
def execTailDescent (pipe : Nat) (upsets : List (Nat × Nat × Bool)) (s : State) : Out :=
  let s := s.upset upsets
  match Tbl.get [] s.lkp.tailQ pipe with
  | [] => .next s
  | call :: rest =>
    let s := { s with lkp := { s.lkp with tailQ := Tbl.set [] s.lkp.tailQ pipe rest } }
    match s.callAt call with
    | none => .next s
    | some c =>
      if s.lkp.xfibDown then .next (s.answer call c (errorResult stTABLE_ERROR 0 rXFIB_DOWN))
      else match fibCallKey c with
        | .inr (vrf, fam6, v) => .next ((s.fibCorrects vrf fam6 v).answer call c (s.fibAnswer vrf fam6 v 1 0))
        | .inl r => .next (s.answer call c (errorResult stKEY_ERROR 0 r))

/-! ### EM, TER, CNT, ADJ, BRG -/

/-- The key error of a call on an EM table: the one met at presentation, or SELECT where the table has been disabled since (R142). -/
def State.emErr (s : State) (c : Call) : Option Nat :=
  match c.err with
  | some r => some r
  | none => if s.rd (LKP_EMCFG.enable c.select) = 0 then some rSELECT else none

/-- EM_LOOKUP (R121, R144, R169): a word with an uncorrectable error among those the search reads is a TABLE_ERROR. -/
def execEmLookup (call : Nat) (upsets : List (Nat × Nat × Bool)) (s : State) : Out :=
  let s := s.upset upsets
  match s.presented call 1 with
  | none => .next s
  | some c =>
    match s.emErr c with
    | some r => .next (s.answer call c (errorResult stKEY_ERROR 1 r))
    | none =>
      let ws := s.emWords c.select c.pipe c.key
      let bad := s.touchBad ws
      let found := s.emFind c.select c.pipe c.key
      let s := s.corrects ws
      if bad then .next (s.answer call c (errorResult stTABLE_ERROR 1 rECC))
      else match found with
      | none => .next (s.answer call c (resultBytes stMISS 1 0 []))
      | some (e, pl) =>
        let place := match pl with
          | .bucket _ _ => 0
          | .overflow _ _ => 1
        .next (s.answer call c (resultBytes stHIT 1 place e.data))

/-- TER_LOOKUP (R121, R148). It touches the word of the entry it returns (DESIGN CHOICE, log entry 91). -/
def execTerLookup (call : Nat) (upsets : List (Nat × Nat × Bool)) (s : State) : Out :=
  let s := s.upset upsets
  match s.presented call 2 with
  | none => .next s
  | some c =>
    match c.err with
    | some r => .next (s.answer call c (errorResult stKEY_ERROR 2 r))
    | none => match s.terMatch c.select c.key with
      | none => .next (s.answer call c (resultBytes stMISS 2 0 []))
      | some (i, e) =>
        .next ((s.corrects [(3, i)]).answer call c (if s.lkp.eccUnc.contains (3, i) then errorResult stTABLE_ERROR 2 rECC
          else resultBytes stHIT 2 (i + e.prio * 2 ^ 17) e.data))

/-- CNT_POST (R71, R154): a post adds a packet and bytes to a pair; with a key error it is discarded and counted. -/
def execCntPost (call : Nat) (s : State) : Out :=
  match s.presented call 4 with
  | none => .next s
  | some c =>
    let s := { s with eng := { s.eng with calls := Tbl.erase s.eng.calls call } }
    if c.key = [] ∨ c.select ≠ 0 ∨ c.key.length ≠ 8 then .next (s.inc LKP_CNTERR.count)
    else .next (s.cntAdd true (bitsAt (beNat c.key) 38 26) 1 (bitsAt (beNat c.key) 0 16))

/-- ADJ_READ (R121, R151, R162 to R164): a call presented no later than the cycle in which the retire timer expires still finds the
retiring entry. -/
def execAdjRead (call : Nat) (upsets : List (Nat × Nat × Bool)) (s : State) : Out :=
  let s := s.upset upsets
  match s.presented call 5 with
  | none => .next s
  | some c =>
    let err := fun r => Host.Outcome.next (s.answer call c (errorResult stKEY_ERROR 5 r))
    if c.key = [] then err rADDRESS
    else if c.select ≠ 0 then err rSELECT
    else if c.key.length ≠ 8 then err rKEYLEN
    else
      let i := bitsAt (beNat c.key) 0 21
      let a := s.adjAt i
      let bad := s.lkp.eccUnc.contains (4, i)
      let s := s.corrects [(4, i)]
      if bad then .next (s.answer call c (errorResult stTABLE_ERROR 5 rECC))
      else match a.st with
        | .free => match a.gone with
          | some (t, d) => .next (s.answer call c (if c.at_ ≤ t then resultBytes stRETIRED 5 a.version d else resultBytes stMISS 5 0 []))
          | none => .next (s.answer call c (resultBytes stMISS 5 0 []))
        | .valid => .next (s.answer call c (resultBytes stHIT 5 a.version a.data))
        | .retiring => .next (s.answer call c (resultBytes stRETIRED 5 a.version a.data))

/-- The source sighting of a BRG call, left out where the source's own word holds an uncorrectable error (R169). -/
def State.sightUnless (s : State) (bad : Bool) (t p dom : Nat) (mac : List Nat) (port len : Nat) : Nat × State :=
  if bad then (0, s) else s.sight t p dom mac port len

/-- Whether a call's turn in its bucket update slot has come: no other call waits that was presented earlier, or in the same cycle from a
lower cluster number or then a lower logical slot (R189); sweep visits and host commands of its own cycle have gone first (R196, R199). -/
def State.sightTurn (s : State) (c : Call) : Bool :=
  decide (c.at_ < s.clk) && s.eng.calls.all (fun e =>
    !(e.2.accel == 6 && e.2.result.isNone && e.2.pipe == c.pipe &&
      (decide (e.2.at_ < c.at_) || (e.2.at_ == c.at_ && decide (64 * e.2.cluster + e.2.slot < 64 * c.cluster + c.slot)))))

/-- BRG_LOOKUP (R169, R176, R179, R189): the destination as it stood before the call's own sighting, and the source outcome. Enable and
table are judged at the call's presentation. A word with an uncorrectable error on either side makes the call a TABLE_ERROR; the sighting
is left out where the source's own search meets it. -/
def execBrgLookup (call : Nat) (upsets : List (Nat × Nat × Bool)) (s : State) : Out :=
  let s := s.upset upsets
  match s.presented call 6 with
  | none => .next s
  | some c =>
    if !s.sightTurn c then .next s
    else match s.emErr c with
    | some r => .next (s.answer call c (errorResult stKEY_ERROR 6 r))
    | none =>
        let t := c.select
        let found := s.emFind t c.pipe (sliceB c.key 0 8)
        let wd := s.emWords t c.pipe (sliceB c.key 0 8)
        let ws := s.emWords t c.pipe (sliceB c.key 0 2 ++ sliceB c.key 8 6)
        let badD := s.touchBad wd
        let badS := s.touchBad ws
        let s := s.corrects (wd ++ ws)
        let (outcome, s) := s.sightUnless badS t c.pipe (beNat (sliceB c.key 0 2)) (sliceB c.key 8 6) (beNat (sliceB c.key 14 2)) c.length
        if badD || badS then .next (s.answer call c (errorResult stTABLE_ERROR 6 rECC))
        else match found with
        | none => .next (s.answer call c (resultBytes stMISS 6 outcome []))
        | some (e, _) => .next (s.answer call c (resultBytes stHIT 6 (outcome + b2n (brStatic e.data) * 4) e.data))

/-! ### Bridging in the background -/

/-- NOTICE_BATCH_HOLD_EXPIRE (R186, R393): the oldest notice of a pipe is hold_us old and its batch is posted, once there is room. -/
def execNoticeBatchHoldExpire (pipe : Nat) (s : State) : Out :=
  match s.notices pipe with
  | [] => .next s
  | (t, _) :: _ =>
    if s.elapsed t (us (s.rd BRG_LEARNCFG.hold_us)) then
      .next (s.postBatch pipe (min s.batchLimit (s.notices pipe).length))
    else .next s

/-- SWEEP_VISIT (R194 to R196, R198): the sweep of a pipe visits its next bucket, positions first, then its overflow entries. The visit that
begins the next sweep takes the period that BRG_AGECFG then holds. -/
def execSweepVisit (pipe : Nat) (s : State) : Out :=
  match s.bridgeTable with
  | none => .next s
  | some t =>
    let s := s.nextSweep t pipe
    if !s.sweepDue t pipe then .next s
    else
      let x := s.sweep pipe
      let b := s.emRegion t pipe + x.bucket
      let keys := ([0, 1, 2, 3].filterMap (s.emPos b)).map (·.key) ++
        ((s.ovfStore pipe).filter (fun o => o.bucket == b)).map (·.ent.key)
      let s := keys.foldl (fun s k => s.sweepEntry t pipe k) s
      .next (s.setSweep pipe { x with bucket := x.bucket + 1 })

/-! ### Hot prefixes (R136 to R139) -/

/-- Blocks of `l` in order of falling count, equal counts in table order (DESIGN CHOICE, log entry 20). -/
def sortBlocks (l : List (Nat × Nat)) : List (Nat × Nat) :=
  l.foldr (fun e acc => acc.takeWhile (fun x => e.2 < x.2) ++ e :: acc.dropWhile (fun x => e.2 < x.2)) []

/-- Makes room for a candidate in the hot region: copies with a lower count go, lowest first. None where they do not suffice. -/
def State.evictFor (need cnt : Nat) : Nat → State → Option State
  | 0, _ => none
  | n + 1, s =>
    let held := (s.lkp.hot ++ s.lkp.hotWork).foldl (fun a e => a + s.blockUnits e.1) 0
    if held + need ≤ s.rd LKP_FIBCFG.hot_units then some s
    else
      let low := s.lkp.hot.filter (fun e => Tbl.get 0 s.lkp.hotCount e.1 < cnt)
      match (sortBlocks (low.map (fun e => (e.1, Tbl.get 0 s.lkp.hotCount e.1)))).reverse with
      | [] => none
      | (r, _) :: _ =>
        State.evictFor need cnt n ({ s with lkp := { s.lkp with hot := s.lkp.hot.filter (fun e => e.1 != r) } }.inc LKP_HOTEVICT.count)

/-- HOT_PERIOD_END (R136): candidates are chosen in order of falling count, at most 4,096, and their copies start. -/
def execHotPeriodEnd (s : State) : Out :=
  if s.rd LKP_FIBCFG.hot_units ≠ 0 ∧ s.bit LKP_XFIBCFG.enable ∧ s.elapsed s.lkp.hotAt (ms (s.rd LKP_HOTCFG.period)) then
    let known := s.lkp.hot ++ s.lkp.hotWork
    let cand := s.lkp.hotCount.filter (fun e => decide (s.rd LKP_HOTCFG.threshold ≤ e.2) && !known.any (fun x => x.1 == e.1))
    let (_, s) := (sortBlocks cand).foldl (fun (x : Nat × State) e =>
      if 4096 ≤ x.1 then x
      else match State.evictFor (x.2.blockUnits e.1) e.2 (x.2.lkp.hot.length + 1) x.2 with
        | some s' => (x.1 + 1, { s' with lkp := { s'.lkp with hotWork := Tbl.ins e.1 e.2 s'.lkp.hotWork } })
        | none => x) (0, s)
    .next { s with lkp := { s.lkp with hotCount := [], hotAt := s.clk } }.fibCount
  else .next s

/-- HOT_COPY_DONE (R137): a copy is complete and the trie pointer moves to it. -/
def execHotCopyDone (root : Nat) (s : State) : Out :=
  match s.lkp.hotWork.find? (fun e => e.1 == root) with
  | none => .next s
  | some (_, n) =>
    let s := { s with lkp := { s.lkp with hotWork := Tbl.erase s.lkp.hotWork root, hot := Tbl.ins root n s.lkp.hot } }
    .next (s.inc LKP_HOTCOPY.count).fibCount

/-- Units of the hot copies held and under way. -/
def State.hotHeld (s : State) : Nat := (s.lkp.hot ++ s.lkp.hotWork).foldl (fun a e => a + s.blockUnits e.1) 0

/-- Hot copies go, lowest count first, until their use fits `v` units (R139); copies under way go last. -/
def State.evictTo (v : Nat) : Nat → State → State
  | 0, s => s
  | n + 1, s =>
    if s.hotHeld ≤ v then s
    else
      match (sortBlocks (s.lkp.hot.map (fun e => (e.1, Tbl.get 0 s.lkp.hotCount e.1)))).reverse with
      | [] => State.evictTo v n { s with lkp := { s.lkp with hotWork := s.lkp.hotWork.drop 1 } }
      | (r, _) :: _ =>
        State.evictTo v n ({ s with lkp := { s.lkp with hot := s.lkp.hot.filter (fun e => e.1 != r) } }.inc LKP_HOTEVICT.count)

/-- A write of LKP_FIBCFG.hot_units (R139). -/
def State.writeHot (s : State) (v : Nat) : State :=
  if 2097152 < v then s
  else
    let s := (State.evictTo v (s.lkp.hot.length + s.lkp.hotWork.length) s).fibCount
    if s.rd LKP_FIBUSE.units ≤ 6291456 - v then
      ({ s with lkp := { s.lkp with hotWrite := none } }.wr LKP_FIBCFG.hot_units v).fibCount
    else if s.bit LKP_XFIBCFG.enable then { s with lkp := { s.lkp with hotWrite := some v } }
    else s.wr LKP_XFIBCFG.refused 1

/-- A hot_units write that waited for moves when the Extended FIB became disabled: it is judged as one made then (R139). -/
def State.hotAfterDisable (s : State) : State :=
  match s.lkp.hotWrite with
  | none => s
  | some v => { s with lkp := { s.lkp with hotWrite := none } }.writeHot v

/-- XFIB_DISABLE_DONE (R134): the last subtree is on-die and the Extended FIB is disabled. Where a channel that serves it has been lost
meanwhile, the FIB is emptied instead. -/
def execXfibDisableDone (s : State) : Out :=
  if s.lkp.xfibOff then
    if s.lkp.xfibDown then .next s.fibEmpty
    else
      let s := { s with lkp := { s.lkp with xfibOff := false } }.fibAllOnDie
      .next ((s.wr LKP_XFIBCFG.enable 0).wr LKP_XFIBCFG.channels 0).hotAfterDisable
  else .next s

/-- HOT_UNITS_MOVE_DONE (R139): subtrees have moved below tail pointers and the hot_units write takes effect; none moves while the Extended
FIB is disabled or being disabled. -/
def execHotUnitsMoveDone (s : State) : Out :=
  match s.lkp.hotWrite with
  | none => .next s
  | some v =>
    if !s.bit LKP_XFIBCFG.enable || s.lkp.xfibOff then .next s else
    let t := (tailLast (6291456 - v) s.lkp.fib.reverse (s.rd LKP_FIBUSE.units)).reverse
    let s := { s with lkp := { s.lkp with hotWrite := none } }.wr LKP_FIBCFG.hot_units v
    .next (s.setFib t)

/-! ### Tables in the background -/

/-- EM_CLEAR_DONE (R142): up to `n` further buckets of the disabled tables are freed; with the last, clearing reads 0. -/
def execEmClearDone (n : Nat) (s : State) : Out := if s.lkp.clearing = [] then .next s else .next (State.emClear n s)

/-- ADJ_RETIRE_EXPIRE (R163): the entry becomes FREE, keeping its version. -/
def execAdjRetireExpire (index : Nat) (s : State) : Out :=
  let a := s.adjAt index
  if a.st = .retiring ∧ a.due ≤ s.clk then
    let s := (s.wordWritten 4 index).setAdj index { version := a.version, gone := some (s.clk, a.data) }
    let s := s.wr LKP_RETIRECNT.entries (s.rd LKP_RETIRECNT.entries - 1)
    .next (s.post 0x0201 (leBytes 4 index ++ leBytes 2 a.version))
  else .next s

/-- PARSER_FLIP_COMPLETE (R117). -/
def execParserFlipComplete (s : State) : Out :=
  if s.lkp.flipping then
    .next ({ s with lkp := { s.lkp with flipping := false } }.post 0x0202 [s.rd LKP_PARSECTL.live_bank])
  else .next s

end Sys2Proof.Machine
end

