-- ==== Sys2Proof/Machine/LookupCmds.lean ====
section
/-! DEFINITION. The command descriptors of the lookup tables (03_lookup.md, *Lookup commands*; 08_host_interface.md, *Opcodes*). -/
namespace Sys2Proof.Machine

/-! ### Descriptors whose effect lies on the Forwarding Die -/

/-- A single-entry result: DONE, BUSY for a resource in service or use, REFUSED for any other reason. -/
def State.finWith (s : State) (r d : Nat) : State :=
  if d = 0 then s.finDone r else if 0x60 ≤ d ∧ d < 0x70 then s.finBusy r d else s.finRefused r d

/-- Whether a descriptor's effect lies on the FD (*Die contents*): lookup and engine commands, and self-tests, block resets and repairs of
FD units. Register accesses reach the FD over the sideband and are not among them (R525). -/
def Taken.onFd (t : Taken) : Bool :=
  (0x20 ≤ t.op && t.op ≤ 0x2E) || (0x30 ≤ t.op && t.op ≤ 0x33) ||
  (t.op == 0x58 && ([0, 1, 2, 4].contains (t.f 16 1) || (t.f 16 1 == 3 && t.f 20 4 < 4))) ||
  (t.op == 0x59 && isFdAddr (t.f 16 4)) ||
  (t.op == 0x5A && (t.f 16 1 == 0 || ((t.f 16 1 == 4 || t.f 16 1 == 5) && t.f 20 4 < 4)))

/-- A table command can cross and be answered: the control class has room for a flit each way (R28). -/
def State.cmdFree (s : State) : Bool := s.ctlFree false 1 && s.ctlFree true 1

/-- Its flit and that of its answer cross with its effect (DESIGN CHOICE, log entry 12). -/
def State.cmdCross (s : State) : State := (s.ctlNow false 1).ctlNow true 1

/-- A descriptor whose effect lies on the FD: it crosses the bridge in the control class, a bulk one entry by entry, and waits where that has
no room (R28). Taken while
the bridge is lost it completes BUSY with IN_USE, or waits while the sideband is lost as well; a bulk one taken before the loss completes
EXPIRED with its progress (R525). -/
def State.viaFd (s : State) (r : Nat) (t : Taken) (f : State → State) : State :=
  if s.bridgeUp then (if isBulk t.op then f s else if s.cmdFree then f s.cmdCross else s)
  else if !s.bit D2D_STAT.sideband_up then s
  else if isBulk t.op ∧ (t.takenAt < s.res.lostAt ∨ 0 < t.progress) then s.finishTok r .expired dNO_PROGRESS t.progress 0
  else s.finBusy r dIN_USE

/-- A single-entry descriptor that acts on the FD only where `fd` says so. -/
def State.ifFd (s : State) (fd : Bool) (r : Nat) (f : State → State) : State :=
  if !fd then f s
  else if s.bridgeUp then (if s.cmdFree then f s.cmdCross else s)
  else if s.bit D2D_STAT.sideband_up then s.finBusy r dIN_USE
  else s

/-- The executor's descriptor of an opcode whose effect lies on the FD. -/
def State.fdOp (s : State) (op : Nat) (f : State → Nat → Taken → State) : State :=
  match s.running op with
  | none => s
  | some (r, t) => s.viaFd r t (fun s => f s r t)

/-- A bulk opcode that may issue DMA; without DMA it waits (R350). -/
def State.fdBulk (s : State) (op : Nat) (f : State → Nat → Taken → State) : State :=
  s.fdOp op (fun s r t => if s.dmaOk then f s r t else s)

/-- What a record of a bulk command comes to: a stop for a refused record (R158), or the state with its effect. -/
def recordResult (x : Nat × State) : Entry := if x.1 = 0 then .go x.2 else .stop .partial_ x.1 x.2

/-- An entry whose effect lies on the FD: it crosses the bridge, and waits where the control class has no room (R28). -/
def crossing (f : Nat → State → Entry) (k : Nat) (s : State) : Entry := if s.cmdFree then f k s.cmdCross else .wait

/-! ### FIB -/

/-- FIB_INSERT (R124, R127, R128, R134). -/
def execFibInsert (s : State) : Out := .next (s.fdOp 0x20 (fun s r t =>
  if s.lkp.xfibOff then s.finBusy r dIN_USE
  else
    let (d, s) := s.fibInsert (t.f 16 2) (t.f 18 1) (t.f 19 1) (sliceB t.desc 24 16) (sliceB t.desc 40 16) (t.f 20 1)
    s.finWith r d))

/-- FIB_DELETE (R124). -/
def execFibDelete (s : State) : Out := .next (s.fdOp 0x21 (fun s r t =>
  if s.lkp.xfibOff then s.finBusy r dIN_USE
  else
    let (d, s) := s.fibDelete (t.f 16 2) (t.f 18 1) (t.f 19 1) (sliceB t.desc 24 16)
    s.finWith r d))

/-- One *FIB record*. -/
def State.fibRecord (s : State) (b : List Nat) : Nat × State :=
  let f := fun i n => leAt b i n
  if f 6 2 ≠ 0 ∨ f 40 8 ≠ 0 then (dRESERVED_SET, s)
  else match f 5 1 with
    | 0 => s.fibInsert (f 0 2) (f 2 1) (f 3 1) (sliceB b 8 16) (sliceB b 24 16) (f 4 1)
    | 1 => s.fibDelete (f 0 2) (f 2 1) (f 3 1) (sliceB b 8 16)
    | _ => (dBAD_OPERAND, s)

/-- FIB_BULK (R158): up to `n` further records. -/
def execFibBulk (n : Nat) (s : State) : Out := .next (s.fdBulk 0x22 (fun s r t =>
  if s.lkp.xfibOff then (if t.progress = 0 then s.finBusy r dIN_USE else s)
  else bulkRun r (t.f 24 4) (crossing (fun k s => recordResult (s.fibRecord (s.dmaRead (t.f 16 8 + 48 * k) 48)))) n s))

/-- Writes up to `n` further records of a dump (R366): `next` gives the first entry from a table position on as its position and
record, `size` is a record's size. A full buffer completes PARTIAL with BUFFER_FULL; resumed, it fills from its start. -/
def dumpRun (r buf room size : Nat) (next : State → Nat → Option (Nat × List Nat)) : Nat → State → State
  | 0, s => s
  | n + 1, s =>
    match (s.ring r).taken with
    | none => s
    | some t =>
      match next s t.cursor with
      | none => s.finish r { status := .done, detail := 0, progress := t.progress }
      | some (pos, rec0) =>
        if room ≤ t.progress - t.base then
          (s.updTaken r (fun t => { t with base := t.progress })).finishTok r .partial_ dBUFFER_FULL t.progress 0
        else
          if !s.cmdFree then s
          else
            let s := s.cmdCross.dmaWrite (buf + size * (t.progress - t.base)) rec0
            let s := (s.updTaken r (fun t => { t with cursor := pos + 1 })).stepEntry r
            match next s (pos + 1) with
            | none => s.finish r { status := .done, detail := 0, progress := t.progress + 1 }
            | some _ => if s.outranked r then s else dumpRun r buf room size next n s

/-- A FIB entry as *FIB record*. -/
def fibDumpRecord (k : Nat) (e : FibEnt) : List Nat :=
  let pfx := if fibFam6 k = 1 then beBytes 16 (fibBits k) else beBytes 4 (fibBits k / 2 ^ 96)
  leBytes 2 (fibVrf k) ++ [if fibFam6 k = 1 then 6 else 4, fibLen k, 0, 0, 0, 0] ++ sliceB pfx 0 16 ++ sliceB e.route 0 16 ++
    List.replicate 8 0

/-- The first FIB entry from a key on. -/
def State.fibNext (s : State) (c : Nat) : Option (Nat × List Nat) :=
  match s.lkp.fib.find? (fun e => c ≤ e.1 && e.2.isSome) with
  | some (k, some e) => some (k, fibDumpRecord k e)
  | _ => none

/-- FIB_DUMP (R366). -/
def execFibDump (n : Nat) (s : State) : Out := .next (s.fdBulk 0x23 (fun s r t =>
  if s.lkp.xfibOff ∧ t.progress = 0 then s.finBusy r dIN_USE
  else dumpRun r (t.f 16 8) (t.f 24 4) 48 State.fibNext n s))

/-! ### EM -/

/-- The key operand of EM_INSERT and EM_DELETE for table `tb`: 8 or 16 bytes of the descriptor, or 32 bytes of a buffer. -/
def State.emKeyOperand (s : State) (tb : Nat) (t : Taken) : List Nat :=
  let n := s.emKeyBytes tb
  if n = 32 then s.dmaRead (t.f 40 8) 32 else sliceB t.desc 40 n

/-- The key bytes 48 to 55 that a key of 8 bytes, or the address of a 32-byte one, leaves unnamed are 0 (R364, R365). -/
def State.emKeyClean (s : State) (tb : Nat) (t : Taken) : Bool := s.emKeyBytes tb == 16 || t.f 48 8 == 0

/-- Applies an EM change to the regions a command names: one, or with the all-pipes flag of a PIPE-scope table the four from region
`k` on, in pipe order (R146). Answers the reason, the regions applied, and the state. -/
def emRegions (f : State → Nat → Nat × State) : List Nat → Nat → State → Nat × Nat × State
  | [], k, s => (0, k, s)
  | p :: r, k, s =>
    let (d, s') := f s p
    if d = 0 then emRegions f r (k + 1) s' else (d, k, s)

/-- Whether an EM command acts on all four regions. -/
def State.emAll (s : State) (tb flags : Nat) : Bool := bitOf flags 7 && s.rd (LKP_EMCFG.scope tb) == 1

/-- EM_INSERT and EM_DELETE. -/
def State.emCommand (s : State) (r : Nat) (t : Taken) (f : List Nat → State → Nat → Nat × State) : State :=
  let tb := t.f 16 1
  let flags := t.f 17 1
  if 64 ≤ tb ∨ s.rd (LKP_EMCFG.enable tb) = 0 ∨ 2 < t.f 18 1 then s.finRefused r dBAD_OPERAND
  else if s.emKeyBytes tb = 32 ∧ (s.ring r).nz5 ∧ t.op = 0x24 then s.finRefused r dNZ5_UNSUPPORTED
  else if !s.emKeyClean tb t then s.finRefused r dRESERVED_SET
  else if s.emKeyBytes tb = 32 ∧ !s.dmaOk then s
  else
    let key := s.emKeyOperand tb t
    if s.emAll tb flags then
      let (d, k, s) := emRegions (f key) ([0, 1, 2, 3].drop t.progress) t.progress s
      if d = 0 then s.finish r { status := .done, detail := 0, progress := 4 } else s.finishTok r .partial_ d k 0
    else
      let (d, s) := f key s (flags % 4)
      s.finWith r d

/-- EM_INSERT (R143, R146). -/
def execEmInsert (s : State) : Out := .next (s.fdOp 0x24 (fun s r t =>
  s.emCommand r t (fun key s p => s.emInsert (t.f 16 1) p key (sliceB t.desc 24 16) (t.f 18 1))))

/-- EM_DELETE (R146). -/
def execEmDelete (s : State) : Out := .next (s.fdOp 0x25 (fun s r t =>
  s.emCommand r t (fun key s p => s.emDelete (t.f 16 1) p key)))

/-- One *EM record* for table `tb`, from region `sub` on: the reason, the regions applied of a record that is refused, and the state. DESIGN
CHOICE (log entry 97): byte 1 with a bit of 6:2 set is BAD_OPERAND, as a pipe outside its range, where the record's unnamed bytes give
RESERVED_SET. -/
def State.emRecord (s : State) (tb sub : Nat) (b : List Nat) : Nat × Nat × State :=
  let f := fun i n => leAt b i n
  let key := sliceB b 24 (s.emKeyBytes tb)
  if f 3 5 ≠ 0 ∨ f 56 8 ≠ 0 then (dRESERVED_SET, sub, s)
  else if 1 < f 0 1 ∨ 2 < f 2 1 ∨ f 1 1 % 128 ≥ 4 then (dBAD_OPERAND, sub, s)
  else
    let op := fun (s : State) p => if f 0 1 = 0 then s.emInsert tb p key (sliceB b 8 16) (f 2 1) else s.emDelete tb p key
    if s.emAll tb (f 1 1) then emRegions op ([0, 1, 2, 3].drop sub) sub s
    else
      let (d, s') := op s (f 1 1 % 4)
      (d, 0, s')

/-- EM_BULK (R146, R158): a record that a later region refuses leaves its earlier regions changed, which detail bits 10:8 and the
token tell. -/
def execEmBulk (n : Nat) (s : State) : Out := .next (s.fdBulk 0x26 (fun s r t =>
  let tb := t.f 16 1
  if 64 ≤ tb ∨ s.rd (LKP_EMCFG.enable tb) = 0 then
    (if t.progress = 0 then s.finRefused r dBAD_OPERAND else s.finishTok r .partial_ dBAD_OPERAND t.progress 0)
  else bulkRun r (t.f 32 4) (crossing (fun k s =>
    let sub := match (s.ring r).taken with
      | some t => t.sub
      | none => 0
    let (d, m, s') := s.emRecord tb sub (s.dmaRead (t.f 24 8 + 64 * k) 64)
    if d = 0 then .go (s'.updTaken r (fun t => { t with sub := 0 }))
    else .stop .partial_ (d + m * 256) (s'.updTaken r (fun t => { t with sub := m })))) n s))

/-- The first entry of a region from a table position on, as *EM record*. -/
def State.emNext (s : State) (tb p c : Nat) : Option (Nat × List Nat) :=
  let l := (s.emListing tb p).filter (fun e => c ≤ e.1)
  match l.foldl (fun (m : Option (Nat × EmEnt)) e => match m with
      | none => some e
      | some x => if e.1 < x.1 then some e else m) none with
  | none => none
  | some (pos, e) => some (pos, [0, if s.rd (LKP_EMCFG.scope tb) = 1 then p else 0, 0] ++ List.replicate 5 0 ++ sliceB e.data 0 16 ++
      sliceB e.key 0 32 ++ List.replicate 8 0)

/-- EM_DUMP (R366). -/
def execEmDump (n : Nat) (s : State) : Out := .next (s.fdBulk 0x27 (fun s r t =>
  let tb := t.f 16 1
  if 64 ≤ tb ∨ s.rd (LKP_EMCFG.enable tb) = 0 then s.finRefused r dBAD_OPERAND
  else dumpRun r (t.f 24 8) (t.f 32 4) 64 (fun s c => s.emNext tb (t.f 17 1 % 4) c) n s))

/-! ### TER, ADJ -/

/-- TER_WRITE (R149): value and mask are read from a buffer. -/
def execTerWrite (s : State) : Out := .next (s.fdOp 0x28 (fun s r t =>
  if !s.dmaOk then s
  else
    let n := 8 * s.rd (LKP_TERPROF.width (t.f 16 1 % 8))
    let buf := t.f 48 8
    let (d, s) := s.terWrite (t.f 16 1) (t.f 20 4) (t.f 24 4) (s.dmaRead buf n) (s.dmaRead (buf + n) n) (sliceB t.desc 32 16)
    s.finWith r d))

/-- TER_DELETE (R149). -/
def execTerDelete (s : State) : Out := .next (s.fdOp 0x29 (fun s r t => let (d, s) := s.terDelete (t.f 20 4); s.finWith r d))

/-- ADJ_WRITE (R151, R161, R165). -/
def execAdjWrite (s : State) : Out := .next (s.fdOp 0x2A (fun s r t =>
  let (d, s) := s.adjWrite (t.f 20 4) (sliceB t.desc 24 24); s.finWith r d))

/-- ADJ_DELETE (R162, R165, R166). -/
def execAdjDelete (s : State) : Out := .next (s.fdOp 0x2B (fun s r t => let (d, s) := s.adjDelete (t.f 20 4); s.finWith r d))

/-! ### The parser -/

/-- A PARSER_LOAD that still holds the idle bank: its descriptor is taken and not complete (R116). -/
def State.parserHeld (s : State) : Bool :=
  match s.lkp.pLoader with
  | none => false
  | some (n, r) => match (s.ring r).taken with
    | some t => t.op == 0x2C && t.cursor == n
    | none => false

/-- Bytes written to a parser bank. -/
def State.putParser (s : State) (bank o : Nat) : List Nat → State
  | [] => s
  | b :: r => ({ s with lkp := { s.lkp with parser := Tbl.set 0 s.lkp.parser (65536 * bank + o) b } }).putParser bank (o + 1) r

/-- The end of a load: the bank is validated (R116). -/
def State.parserLoaded (s : State) (r : Nat) : State :=
  let bank := 1 - s.rd LKP_PARSECTL.live_bank
  let s := { s with lkp := { s.lkp with pLoader := none } }
  if s.parserOk bank then (s.wr LKP_PARSECTL.idle_state 2).finish r { status := .done, detail := 0, progress := 576 }
  else (s.wr LKP_PARSECTL.idle_state 0).finRefused r dPARSER_INVALID

/-- Up to `n` further pieces of 64 bytes of a load. -/
def parserPieces (r buf : Nat) : Nat → State → State
  | 0, s => s
  | n + 1, s =>
    match (s.ring r).taken with
    | none => s
    | some t =>
      if !s.cmdFree then s else
      let s := s.cmdCross
      let bank := 1 - s.rd LKP_PARSECTL.live_bank
      let s := (List.range 8).foldl (fun s i => s.wordWritten 6 (8192 * bank + 8 * t.progress + i)) s
      let s := (s.putParser bank (64 * t.progress) (s.dmaRead (buf + 64 * t.progress) 64)).stepEntry r
      if 576 ≤ t.progress + 1 then s.parserLoaded r else if s.outranked r then s else parserPieces r buf n s

/-- PARSER_LOAD (R116): writes the idle bank and validates it. -/
def execParserLoad (n : Nat) (s : State) : Out := .next (s.fdBulk 0x2C (fun s r t =>
  let buf := t.f 16 8
  if t.cursor = 0 then
    if s.rd LKP_PARSECTL.idle_state = 1 ∧ s.parserHeld then s.finBusy r dIN_USE
    else
      let k := s.lkp.pSerial
      let s := { s with lkp := { s.lkp with pLoader := some (k, r), pSerial := k + 1 } }
      parserPieces r buf n ((s.wr LKP_PARSECTL.idle_state 1).updTaken r (fun t => { t with cursor := k, progress := 0 }))
  else if s.rd LKP_PARSECTL.idle_state = 1 ∧ (s.lkp.pLoader.map (·.1)) = some t.cursor then
    parserPieces r buf n { s with lkp := { s.lkp with pLoader := some (t.cursor, r) } }
  else s.finRefused r dBAD_TOKEN))

/-- PARSER_FLIP (R117). -/
def execParserFlip (s : State) : Out := .next (s.fdOp 0x2D (fun s r _ =>
  if s.rd LKP_PARSECTL.idle_state ≠ 2 ∨ s.lkp.flipping then s.finBusy r dIN_USE
  else
    let s := s.wr LKP_PARSECTL.live_bank (1 - s.rd LKP_PARSECTL.live_bank)
    { s with lkp := { s.lkp with flipping := true } }.finDone r))

/-! ### TABLE_READ -/

/-- TABLE_READ (R663, *TABLE_READ data*): bytes that the kind's delete does not name must be 0 (R365). -/
def execTableRead (s : State) : Out := .next (s.fdOp 0x2E (fun s r t =>
  let spans := match t.f 63 1 with
    | 0 => [(16, 4), (24, 16), (63, 1)]
    | 1 => [(16, 2), (40, 16), (63, 1)]
    | 2 => [(20, 4), (63, 1)]
    | _ => [(20, 4), (63, 1)]
  if 3 < t.f 63 1 then s.finRefused r dBAD_OPERAND
  else if !spansOk spans t.desc || (t.f 63 1 == 1 && decide (4 ≤ t.f 17 1 % 128)) then s.finRefused r dRESERVED_SET
  else match t.f 63 1 with
    | 0 =>
      let fam6 := if t.f 18 1 = 6 then 1 else 0
      let k := fibKey (t.f 16 2) fam6 (t.f 19 1) (addrBits fam6 (sliceB t.desc 24 16))
      if (t.f 18 1 ≠ 4 ∧ t.f 18 1 ≠ 6) ∨ maxLen fam6 < t.f 19 1 then s.finRefused r dBAD_OPERAND
      else match s.fibAt k with
        | none => s.finRefused r dNOT_FOUND
        | some e => s.finData r 0 (sliceB e.route 0 16)
    | 1 =>
      let tb := t.f 16 1
      if 64 ≤ tb ∨ s.rd (LKP_EMCFG.enable tb) = 0 then s.finRefused r dBAD_OPERAND
      else if !s.emKeyClean tb t then s.finRefused r dRESERVED_SET
      else if s.emKeyBytes tb = 32 ∧ !s.dmaOk then s
      else match s.emFind tb (t.f 17 1 % 4) (s.emKeyOperand tb t) with
        | none => s.finRefused r dNOT_FOUND
        | some (e, .bucket _ _) => s.finData r 0 (sliceB e.data 0 16)
        | some (e, .overflow _ _) => s.finData r 256 (sliceB e.data 0 16)
    | 2 =>
      if 131071 < t.f 20 4 then s.finRefused r dBAD_OPERAND
      else match s.terAt (t.f 20 4) with
        | none => s.finRefused r dNOT_FOUND
        | some e => s.finData r 0 (sliceB e.data 0 16 ++ leBytes 4 e.prio ++ [e.profile])
    | _ =>
      if 2097151 < t.f 20 4 then s.finRefused r dBAD_OPERAND
      else
        let a := s.adjAt (t.f 20 4)
        let st := match a.st with
          | .free => 0
          | .valid => 1
          | .retiring => 2
        s.finData r (st * 256 + a.version * 65536) (if a.st = .free then List.replicate 24 0 else sliceB a.data 0 24)))

end Sys2Proof.Machine
end

