-- ==== Sys2Proof/Machine/Seats.lean ====
section
/-! DEFINITION. The management seats (12_resilience.md, R501 to R519): states and epochs, outputs and their comparison, evidence and
takeover, checkpoints and rollback, heartbeats, restarts, and the clearing of resigned units. Seat A is `false`, seat B `true`. -/
namespace Sys2Proof.Machine

/-! ### States (*Seat states*: 0 OFFLINE, 1 BOOTING, 2 RESYNC, 3 STANDBY, 4 ACTIVE, 5 DETACHED, 6 RESIGNED, 7 ROLLBACK) -/

/-- The role of a seat: its state, or in ROLLBACK the state it held before. -/
def State.seatRole (s : State) (b : Bool) : Nat := if s.seatIs b = 7 then (s.seat b).role else s.seatIs b

/-- The seat in a role. -/
def State.inRole (s : State) (n : Nat) : Option Bool := [false, true].find? (fun b => s.seatRole b == n)

/-- Outputs are released without comparison: a seat is ACTIVE and none is STANDBY (R502). -/
def State.unprot (s : State) : Bool := [false, true].any (fun b => s.seatIs b == 4) && [false, true].all (fun b => s.seatIs b != 3)

/-- Milliseconds with outputs released without comparison, up to now (R502). -/
def State.unprotTotal (s : State) : Nat := s.res.unprotNs + (if s.unprot then s.clk - s.res.unprotAt else 0)

/-- A seat's epoch advances (R517). -/
def State.seatBump (s : State) (b : Bool) : State := s.wr (seatEpoch b) (s.rd (seatEpoch b) + 1)

/-- A seat changes its state: one that leaves ACTIVE or STANDBY, or is declared dead, advances its epoch (R517). -/
def State.seatTo (s : State) (b : Bool) (n : Nat) : State :=
  let old := s.seatIs b
  let was := s.unprot
  let total := s.unprotTotal
  let s := s.wr (seatSt b) n
  let s := if n ≠ old ∧ (old = 3 ∨ old = 4 ∨ n = 6) then s.seatBump b else s
  let s := s.wrBit SEAT_STAT.in_step (s.seatIs false == 3 || s.seatIs true == 3)
  let s := if n = 4 then (s.wrBit SEAT_STAT.active b) else s
  let s := if n = 4 then { s with res := { s.res with lastActive := b2n b } } else s
  if was ∧ !s.unprot then
    let s := s.addSat SEAT_UNPROT_MS.count (total / 1000000)
    { s with res := { s.res with unprotNs := total % 1000000 } }
  else if !was ∧ s.unprot then { s with res := { s.res with unprotAt := s.clk } }
  else s

/-- A seat starts to boot firmware of the confirmed or the trial image: what it held is gone. -/
def State.seatLoad (s : State) (b trial : Bool) : State := (s.setSeat b { trialFw := trial }).seatTo b 1

/-- A seat starts to boot the firmware of the image that runs: the trial image once castling has reached step 6, and in TRIAL (R557). -/
def State.seatBoot (s : State) (b : Bool) : State :=
  let late : Bool := match s.upd.castle with
    | some k => decide (6 ≤ k.step)
    | none => false
  s.seatLoad b (s.rd UPD_SESS.state == 5 || (s.rd UPD_SESS.state == 4 && late))

/-! ### Outputs (R502, R503, R516) -/

/-- How far output `n` lies ahead of the last one released, in 32-bit sequence numbers. -/
def State.outAhead (s : State) (n : Nat) : Nat := seqAhead n s.res.lastOut

/-- What a released output does where the spec names its effect: an FD reset and power command goes over the sideband (R35). -/
def State.seatActs (s : State) (v : SeatOut) : State :=
  match v with
  | .fdPower on inReset => s.sbPut (.power on inReset)
  | .word _ => s

/-- Releases outputs in sequence while it can: equal ones of both seats, or the ACTIVE seat's alone while no seat is STANDBY. A pair that
differs is a mismatch: nothing more is released, and both seats start their self-check (R505). -/
def State.releaseOut : Nat → State → State
  | 0, s => s
  | n + 1, s =>
    match s.inRole 4 with
    | none => s
    | some a =>
      match (s.seat a).held.find? (fun e => s.outAhead e.1 == 1) with
      | none => s
      | some (q, v) =>
        let drop := fun (s : State) (b : Bool) => s.setSeat b { s.seat b with held := (s.seat b).held.filter (fun e => e.1 != q) }
        let out := fun (s : State) => (drop (drop { s with res := { s.res with lastOut := q, lastVal := v } } false) true).seatActs v
        match s.inRole 3 with
        | none => State.releaseOut n (out s)
        | some b =>
          match (s.seat b).held.find? (fun e => e.1 == q) with
          | none => s
          | some (_, w) =>
            if w = v then State.releaseOut n (out s)
            else { s.inc SEAT_MISMATCH.count with res := { s.res with checking := some s.clk } }

/-- The boundary releases what it can. -/
def State.release2 (s : State) : State := State.releaseOut ((s.seat false).held.length + (s.seat true).held.length + 1) s

/-- The output that the operands of SEAT_OUTPUT give: an FD reset and power command (supply on, held in reset), or a word. -/
def seatOut (value : Nat) : Option (Bool × Bool) → SeatOut
  | some (on, inReset) => .fdPower on inReset
  | none => .word value

/-- SEAT_OUTPUT (R502, R503, R516): a seat stamps its epoch on an output with its sequence number and value. One of a stale epoch is
discarded and counted; one at or below the last release is discarded. -/
def execSeatOutput (b : Bool) (epoch seq value : Nat) (power : Option (Bool × Bool)) (s : State) : Out :=
  if s.seatIs b = 6 ∨ epoch % 256 ≠ s.rd (seatEpoch b) then .next (s.inc SEAT_STALE_SEAT.count)
  else if s.res.checking.isSome ∨ (s.seatRole b ≠ 3 ∧ s.seatRole b ≠ 4) then .next s
  else
    let far := s.outAhead (seq % 2 ^ 32)
    if far = 0 ∨ 2 ^ 31 ≤ far ∨ (s.seat b).held.any (fun e => e.1 == seq % 2 ^ 32) then .next s
    else .next (s.setSeat b { s.seat b with held := (s.seat b).held ++ [(seq % 2 ^ 32, seatOut value power)] }).release2

/-! ### Failures (R504 to R507, R562) -/

/-- The session is over and the lock is free (R544): what it held is gone, forwarding stops, and settings changes are kept again. -/
def State.sessionIdle (s : State) : State :=
  let stop := fun (x : ChainPort) => { x with fwd := 0, buf := [], sent := 0 }
  let u := s.upd
  (({ s with upd := { u with got := [], header := [], castle := none, displaced := [], serdes := [], chnA := stop u.chnA,
                             chnB := stop u.chnB, ackOwed := false } }).wr UPD_SESS.state 0).wr UPD_BOOT.settings_frozen 0

/-- A session ends without reaching TRIAL, with a reason (R547); the target area stays as it stands. -/
def State.endSession (s : State) (reason : Nat) : State :=
  let s := (s.sessionIdle.wr UPD_SESS.reason reason).inc UPD_FAILCNT.count
  s.post 0x0D01 (leBytes 2 (s.rd UPD_SESS.session) ++ [s.rd UPD_SESS.source, reason])

/-- Castling is abandoned (R562): the trial mark is cleared, and the session ends with CASTLING_FAULT; a session that had reached TRIAL is
simply over. -/
def State.castleAbandon (s : State) : State :=
  match s.upd.castle with
  | none => s
  | some k =>
    let s := s.putRec (fun r => { r with trial := none, trialVer := 0 })
    if k.revert then s.sessionIdle else s.endSession 0x9C

/-- Castling goes on at a step (R562). -/
def State.castleOn (s : State) (step : Nat) : State :=
  match s.upd.castle with
  | none => s
  | some k => { s with upd := { s.upd with castle := some { k with step := if k.step < 8 then step else k.step } } }

/-- A seat has left service while castling runs (*Faults during castling*): `active` says that it was the ACTIVE one. -/
def State.castleFault (s : State) (b active : Bool) : State :=
  match s.upd.castle with
  | none => s
  | some k =>
    if 8 ≤ k.step then s
    else if 6 ≤ k.step then
      if active then (s.seatLoad (!b) (!k.revert)).castleOn 6 else s.castleOn 8
    else
      let s := s.castleAbandon
      if active then s.seatBoot (!b) else if s.seatIs b = 1 then s.seatBoot b else s

/-- The ACTIVE seat has failed (R506): the STANDBY seat takes over in the next seat cycle. -/
def State.takeover (s : State) (failed : Bool) : State :=
  if s.seatRole (!failed) = 3 then
    let s := s.setSeat failed { s.seat failed with held := [] }
    let s := if s.seatIs (!failed) = 7 then s.setSeat (!failed) { s.seat (!failed) with role := 4 } else s.seatTo (!failed) 4
    ((s.inc SEAT_TAKEOVER.count).post 0x0C01 [b2n (!failed), s.rd (seatEvid failed)]).release2
  else s

/-- A seat goes out of service: to OFFLINE when its feed is lost, else declared dead and RESIGNED with a cause (R504, R506, R517). -/
def State.seatOut (s : State) (b feed : Bool) (cause : Nat) : State :=
  let st := s.seatIs b
  if st = 6 ∨ (feed ∧ st = 0) then s
  else
    let active := s.seatRole b == 4
    let s := s.setSeat b { s.seat b with held := [], detached := 0, feedLost := feed }
    let s := if feed then s.seatTo b 0 else (s.seatTo b 6).resign 1 (b2n b) 0 cause
    let s := { s with res := { s.res with checking := none, handover := false } }
    let s := if active then s.takeover b else s.release2
    s.castleFault b active

/-- A seat's feed is in range. -/
def State.feedIn (s : State) (b : Bool) : Bool := if b then s.dies.feedB else s.dies.feedA

/-- SEAT_EVIDENCE (R504, R506): the island latches evidence: 0 cmp, 1 feed, 2 ue, 3 selfcheck. A feed's evidence needs the feed out of
range, and a failed self-check one that has run for 20 µs (R504). -/
def execSeatEvidence (b : Bool) (kind : Nat) (s : State) : Out :=
  let st := s.seatIs b
  let premise : Bool := match kind with
    | 0 => st != 0 && st != 6
    | 1 => !s.feedIn b
    | 2 => st != 0 && st != 6
    | 3 => (match s.res.checking with
      | some t => s.elapsed t (us 20) && (s.seatRole b == 3 || s.seatRole b == 4)
      | none => false)
    | _ => false
  if premise then
    let s := s.wr (seatEvid b) (putBits (s.rd (seatEvid b)) kind 1 1)
    .next (s.seatOut b (kind == 1) 1)
  else .next s

/-! ### Self-check, checkpoints and rollback (R505, R508 to R510, R514, R515) -/

/-- Both seats roll back to the last checkpoint; the third rollback within 1 s is not made, and the STANDBY seat detaches (R508, R510). -/
def State.rollback (s : State) : State :=
  let s := { s with res := { s.res with checking := none } }
  match s.inRole 4, s.inRole 3 with
  | some a, some b =>
    let recent := s.res.rollbacks.filter (fun t => !s.elapsed t (ms 1000))
    if 2 ≤ recent.length then
      let s := (s.setSeat b { s.seat b with detached := 1, held := [] }).seatTo b 5
      (s.post 0x0C04 [b2n b, 1]).release2
    else
      let s := { s with res := { s.res with rollbacks := s.clk :: recent } }
      let s := (s.setSeat a { s.seat a with role := 4, held := [] }).seatTo a 7
      (s.setSeat b { s.seat b with role := 3, held := [] }).seatTo b 7
  | _, _ => s.release2

/-- A seat's self-check fails (R505): its comparator fired in the 64 cycles before the mismatch, the scan of its SRAM finds an error, or its
comparator does not catch the test pattern. -/
def checkFails (c : Bool × Bool × Bool) : Bool := c.1 || c.2.1 || !c.2.2

/-- SELFCHECK_DONE (R505): both seats have ended the self-check that follows a mismatch, with what each has found: fired, error, caught.
Exactly one failure names its seat; otherwise both roll back. -/
def execSelfcheckDone (a b : Bool × Bool × Bool) (s : State) : Out :=
  let aFail := checkFails a
  let bFail := checkFails b
  if s.res.checking.isNone then .next s
  else if aFail == bFail then .next s.rollback
  else
    let b := bFail
    let s := s.wr (seatEvid b) (putBits (s.rd (seatEvid b)) 3 1 1)
    .next (s.seatOut b false 1)

/-- The journal replayed into a seat that rolls back (R509). -/
def State.replayJournal (s : State) (b : Bool) : State :=
  s.setSeat b { s.seat b with inputs := s.res.journal.map (fun i => (s.clk, i)) }

/-- ROLLBACK_DONE (R509): the replay of the journal ends and the seats return to their former roles. -/
def execRollbackDone (s : State) : Out :=
  let back := [false, true].filter (fun b => s.seatIs b == 7)
  if back.isEmpty then .next s
  else
    let s := back.foldl (fun s b => (s.replayJournal b).seatTo b (s.seat b).role) s
    let n := (s.res.rollbacks.filter (fun t => !s.elapsed t (ms 1000))).length
    .next (((s.inc SEAT_ROLLBACK.count).post 0x0C02 [n]).release2)

/-- A seat enters step as STANDBY (R514). -/
def State.enterStep (s : State) (b : Bool) : State :=
  let fresh := fun (x : Seat) => { x with heardAt := s.clk, held := [] }
  let s := { s with res := { s.res with a := { s.res.a with heardAt := s.clk }, b := { s.res.b with heardAt := s.clk } } }
  ((s.setSeat b (fresh (s.seat b))).seatTo b 3).post 0x0C05 [b2n b]

/-- The planned hand-over of the ACTIVE role at a commit (R515): the former ACTIVE seat boots. -/
def State.handOver (s : State) : State :=
  match s.inRole 4, s.inRole 3 with
  | some a, some _ =>
    if s.res.handover then
      let s := { s with res := { s.res with handover := false } }
      let s := (s.seatBoot a).takeover a
      s.post 0x0C06 [b2n a, 2]
    else s
  | _, _ => s

/-- CHECKPOINT_COMMIT (R508, R514, R515): the seats commit by period, or early because the journal is full (`full`). A RESYNC seat whose copy
is complete (`copied`) enters step once the device is ready (R590), and a hand-over that waits is made. With a seat in STANDBY the signatures
of both must agree (`agree`). -/
def execCheckpointCommit (full copied agree : Bool) (s : State) : Out :=
  if (full ∨ s.elapsed s.res.ckptAt (us (s.rd SEAT_CKPT.period_us))) ∧ s.res.checking.isNone ∧
      (s.seatIs false = 4 ∨ s.seatIs true = 4) ∧ (agree ∨ (s.seatIs false ≠ 3 ∧ s.seatIs true ≠ 3)) then
    let s := { s with res := { s.res with ckptAt := s.clk, journal := [], a := { s.res.a with inputs := [] },
                                          b := { s.res.b with inputs := [] } } }
    let s := s.handOver
    match [false, true].find? (fun b => s.seatIs b == 2) with
    | some b => .next (if copied ∧ s.upd.castle.isNone ∧ s.bit GEN_BOOTSTAT.ready then s.enterStep b else s)
    | none => .next s
  else .next s

/-! ### Heartbeats (R511 to R513) -/

/-- A seat whose firmware runs. -/
def State.seatRuns (s : State) (b : Bool) : Bool := s.seatIs b != 0 && s.seatIs b != 1 && s.seatIs b != 6

/-- SEAT_HEARTBEAT_SEND (*Stalemate*): every hb_us / 5 a seat's firmware sends a heartbeat to the island and to the other seat; `heard`
says that the other seat receives it. -/
def execSeatHeartbeatSend (b heard : Bool) (s : State) : Out :=
  let hb := us (s.rd SEAT_CFG.hb_us)
  if s.seatRuns b ∧ s.elapsed (s.seat b).sentAt (hb / 5) then
    let s := s.setSeat b { s.seat b with sentAt := s.clk }
    let s := { s with res := { s.res with islandAt := s.clk } }
    if heard then
      let fresh := s.seatRuns (!b) && !s.elapsed (s.seat b).heardAt hb
      let own := !s.elapsed (s.seat (!b)).heardAt hb
      let since := if !fresh then none else if own && s.res.bothSince.isSome then s.res.bothSince else some s.clk
      let s := s.setSeat (!b) { s.seat (!b) with heardAt := s.clk }
      .next { s with res := { s.res with bothSince := since } }
    else .next s
  else .next s

/-- The island has heard no seat for wedge_ms since the seats have started (R513). -/
def State.wedgeDue (s : State) : Bool :=
  decide (4 < s.rd GEN_BOOTSTAT.step) && s.elapsed s.res.islandAt (ms (s.rd SEAT_CFG.wedge_ms))

/-- The island holds both seats in reset, restarts the last ACTIVE one from its image, and the other behind it (R513). -/
def State.wedge (s : State) : State :=
  let last := s.res.lastActive == 1
  let s := { s with res := { s.res with islandAt := s.clk, checking := none, handover := false, bothSince := none } }
  let early : Bool := match s.upd.castle with
    | some k => decide (k.step < 6)
    | none => false
  let s := if early then s.castleAbandon else s.castleOn 8
  let s := [false, true].foldl (fun s b =>
    if s.seatIs b = 0 ∨ s.seatIs b = 6 then s
    else
      let left := s.seatIs b == 3 || s.seatIs b == 4
      let s := s.seatLoad b (if early then false else (s.seat b).trialFw)
      if left then s else s.seatBump b) s
  s.post 0x0C06 [b2n last, 1]

/-- SEAT_WEDGE (R513). -/
def execSeatWedge (s : State) : Out := .next (if s.wedgeDue then s.wedge else s)

/-- SEAT_HEARTBEAT_LOSS (R511): the seat heartbeat flag falls at seat `b` while both seats are in step. Evidence against the ACTIVE seat
makes the STANDBY seat take over; otherwise the STANDBY seat detaches. Where the seat firmware's flag has fallen in the same cycle, that one's
recovery is applied, and the stalemate is counted (R528). -/
def execSeatHeartbeatLoss (b : Bool) (s : State) : Out :=
  match s.inRole 4, s.inRole 3 with
  | some a, some d =>
    if s.elapsed (s.seat b).heardAt (us (s.rd SEAT_CFG.hb_us)) then
      if s.wedgeDue then .next (s.inc SEAT_STALEMATE.count).wedge
      else if s.rd (seatEvid a) ≠ 0 then .next (s.seatOut a (s.rd (seatEvid a) == 2) 1)
      else
        let s := (s.setSeat d { s.seat d with detached := 2, held := [] }).seatTo d 5
        let s := { s with res := { s.res with checking := none, bothSince := none } }
        .next (((s.inc SEAT_STALEMATE.count).post 0x0C03 [b2n d]).release2)
    else .next s
  | _, _ => .next s

/-- DETACHED_RETURN (R512): heartbeats have passed in both directions for 1 ms, and a seat detached by a stalemate enters RESYNC. -/
def execDetachedReturn (b : Bool) (s : State) : Out :=
  match s.res.bothSince with
  | some t =>
    if s.seatIs b = 5 ∧ (s.seat b).detached = 2 ∧ s.bit SEAT_CFG.auto_return ∧ s.seatIs (!b) = 4 ∧ s.elapsed t (ms 1) then
      .next ((s.setSeat b { s.seat b with detached := 0 }).seatTo b 2)
    else .next s
  | none => .next s

/-! ### Return and restart (R514, R515, *Seat states*) -/

/-- A feed comes within its range: the island draws from VAUX_A as soon as that one is in range (R41). Where both feeds were lost, the
island starts its boot (R43). -/
def State.feedBack (s : State) (b : Bool) : State :=
  let dark := !s.dies.feedA && !s.dies.feedB
  let s := if b then { s with dies := { s.dies with feedB := true, feedBAt := s.clk } }
           else { s with dies := { s.dies with feedA := true, feedAAt := s.clk } }
  let s := s.wr PWR_STAT.feed s.feed
  if dark then { s with pwr := { s.pwr with feedAt := s.clk, bootAt := s.clk, stepAt := s.clk } } else s

/-- SEAT_FEED_RETURN (R41, *Seat states*): a feed comes within its range; given again once it has been in range for 100 ms, its seat, where its
feed had taken it OFFLINE, boots with auto_return. -/
def execSeatFeedReturn (b : Bool) (s : State) : Out :=
  if !s.feedIn b then .next (s.feedBack b)
  else if s.elapsed (if b then s.dies.feedBAt else s.dies.feedAAt) (ms 100) then
    if s.seatIs b = 0 ∧ (s.seat b).feedLost ∧ s.bit SEAT_CFG.auto_return then .next (s.seatBoot b)
    else .next (s.setSeat b { s.seat b with feedLost := false })
  else .next s

/-- A seat has booted: it becomes ACTIVE when no seat is, else it resynchronises (*Seat states*). -/
def State.seatBooted (s : State) (b : Bool) : State :=
  if s.seatRole (!b) = 4 then s.seatTo b 2
  else { (s.seatTo b 4) with res := { (s.seatTo b 4).res with islandAt := s.clk } }

/-- SEAT_BOOT_DONE (R513, R515, *Seat states*): a BOOTING seat ends its load and self-test outside the boot sequence and castling. A seat
that restarts behind the last ACTIVE one waits for it. -/
def execSeatBootDone (b ok : Bool) (s : State) : Out :=
  let castling : Bool := match s.upd.castle with
    | some k => decide (k.step < 8)
    | none => false
  if s.seatIs b ≠ 1 ∨ s.rd GEN_BOOTSTAT.step ≤ 4 ∨ castling = true then .next s
  else if s.seatIs (!b) = 1 ∧ s.res.lastActive = b2n (!b) then .next s
  else if ok then .next (s.seatBooted b)
  else .next (s.seatOut b false 4)

/-- SEAT_RESTART (R515, R561). -/
def execSeatRestart (s : State) : Out :=
  match s.running 0x5B with
  | none => .next s
  | some (r, t) =>
    if 1 < t.f 16 1 then .next (s.finRefused r dBAD_OPERAND)
    else
      let b := t.f 16 1 == 1
      let st := s.seatIs b
      let o := s.seatIs (!b)
      if s.upd.castle.isSome ∨ s.rd UPD_SESS.state = 5 then .next (s.finBusy r dIN_USE)
      else if o = 1 ∨ o = 2 ∨ o = 7 ∨ st = 1 ∨ st = 2 ∨ st = 7 then .next (s.finBusy r dIN_USE)
      else if st = 6 then .next (s.finRefused r dBAD_OPERAND)
      else if st = 4 then
        if o ≠ 3 then .next (s.finBusy r dLIVE_RESOURCE)
        else .next ({ s with res := { s.res with handover := true } }.finDone r)
      else .next (((s.seatBoot b).post 0x0C06 [b2n b, 2]).release2.finDone r)

/-! ### Clearing a resigned unit (R518, R519) -/

/-- RESIGN_CLEAR: starts the self-test of the RESIGNED unit that a handle names. -/
def execResignClear (s : State) : Out :=
  match s.running 0x5C with
  | none => .next s
  | some (r, t) =>
    match s.res.resigned.find? (fun x => x.handle == sliceB t.desc 16 8) with
    | none => .next (s.finRefused r dBAD_OPERAND)
    | some x =>
      let s := if x.kind = 2 then s.abandonTest 0 (· == x.unit) else s
      let l := s.res.resigned.map (fun y => if y.serial = x.serial then { y with testing := true } else y)
      .next ({ s with res := { s.res with resigned := l } }.finDone r)

/-- RESIGN_CLEAR_TEST_DONE (R107, R519): the self-test of a resigned unit ends. A seat that passes boots, an engine becomes a spare and an
OUT slot is then filled; a unit that fails stays RESIGNED under a new handle. -/
def execResignClearTestDone (serial : Nat) (pass : Bool) (s : State) : Out :=
  match s.res.resigned.find? (fun x => x.serial == serial && x.testing) with
  | none => .next s
  | some x =>
    let s := ({ s with res := { s.res with resigned := s.res.resigned.filter (fun y => y.serial != serial) } }).post 0x0C08 (x.handle ++ [b2n pass])
    if !pass then .next (s.resign x.kind x.unit x.slot 4)
    else if x.kind = 1 then .next (s.seatBoot (x.unit == 1))
    else
      let s := s.wr (ENG_SPARES.free x.unit) (s.rd (ENG_SPARES.free x.unit) + 1)
      let c := s.cluster x.unit
      let out := ((List.range 64).find? (fun k => s.rd (ENG_SLOTMAP.state x.unit k) == 2)).toList
      .next (s.setCluster x.unit { c with resigned := c.resigned - 1, promoting := c.promoting ++ out.map (fun k => (k, s.clk)) })

end Sys2Proof.Machine
end

