-- ==== Sys2Proof/Machine/Resil.lean ====
section
/-! DEFINITION. Watchdogs of engines and clusters, loss of the bridge and rejoin, repairs in service, and aging
(12_resilience.md, R520 to R534; 16_package_power.md, R635, R636). -/
namespace Sys2Proof.Machine

/-! ### Weak rows (R529) -/

/-- A row of an array has become weak (R529): it is reported, and a repair record, which every reset from the next one on applies, is written
to MRAM. Arrays as RES_SRAM_WEAK numbers them; `c` is the cluster, or 0xFF. -/
def State.weakRow (s : State) (array c row : Nat) : State :=
  let w := (array, c, row)
  if s.res.weak.contains w then s
  else
    { s with res := { s.res with weak := s.res.weak ++ [w], rows := if s.res.rows.contains w then s.res.rows else s.res.rows ++ [w] } }.post
      0x0C0A ([array, c, 0, 0] ++ leBytes 4 row)

/-- The cells of a weak row of the shallow buffer leave the free lists at once (R529): free ones now, the others as they are released. -/
def State.takeRow (s : State) (cells : List Nat) : State :=
  let l := cells.filter (· < 393216)
  { s with bpm := { s.bpm with weak := s.bpm.weak ++ l, used := l.foldl (fun t k => Tbl.set false t k true) s.bpm.used } }.syncFree

/-- The scrub of a cluster's array or of the shallow buffer (R529): its row has an uncorrectable error (`unc`), or a corrected one, of which
the third within 24 h makes it weak too. `cells` are the buffer cells of the row. -/
def State.scrubSram (s : State) (array c row : Nat) (unc : Bool) (cells : List Nat) : State :=
  let c := if array < 3 then c else 0xFF
  let k := (array * 256 + c) * 2 ^ 32 + row
  let seen := s.clk :: (Tbl.get [] s.res.corSeen k).filter (fun t => !s.elapsed t (ms 86400000))
  if 4 ≤ array ∨ (array < 3 ∧ 24 ≤ c) then s
  else
    let s := if unc then s else { s with res := { s.res with corSeen := Tbl.set [] s.res.corSeen k seen } }
    if unc ∨ 3 ≤ seen.length then (let s := s.weakRow array c row; if array = 3 then s.takeRow cells else s) else s

/-- Whether a FIB word sits on-die: its prefix is not below a tail pointer, or a hot copy holds it. -/
def State.onDieWord (s : State) (k : Nat) : Bool :=
  match s.fibAt k with
  | none => false
  | some e => !e.tailed || s.lkp.hot.any (fun x => fibBelow x.1 k)

/-- The index by which LKP_ECC_UNCORR names a word (DESIGN CHOICE, log entry 91, for the tables that the spec numbers no words of): a FIB
word by its prefix's place in table order, an overflow entry by its serial. -/
def State.wordIndex (s : State) (table index : Nat) : Nat :=
  if table = 0 then (s.lkp.fib.filter (fun e => decide (e.1 < index))).length else index

/-- TABLE_SCRUB (R169, R170, R529): a visited word is corrected, or its uncorrectable error reported; a word of the on-die FIB is rewritten
from the DDR5 store while the Extended FIB is enabled and its store is not lost (R133). A third correction within 24 h, or an uncorrectable
error, makes its row weak. Where `sram` is given, the scrub visits a row of another array instead: the array and cluster, the row, whether
its error is uncorrectable, and the cells of a row of the shallow buffer. -/
def execTableScrub (table index : Nat) (upsets : List (Nat × Nat × Bool)) (sram : Option (Nat × Nat × Nat × Bool × List Nat)) (s : State) :
    Out :=
  match sram with
  | some (array, c, row, unc, cells) => .next (s.scrubSram array c row unc cells)
  | none =>
  let s := s.upset upsets
  let w := (table, index)
  let at_ := s.wordIndex table index
  if s.lkp.eccUnc.contains w then
    let repaired := table == 0 && s.bit LKP_XFIBCFG.enable && !s.lkp.xfibDown && s.onDieWord index
    let s := if repaired then { s with lkp := { s.lkp with eccUnc := s.lkp.eccUnc.filter (· != w) } } else s
    let s := (s.inc LKP_ECCUNC.count).post 0x0206 ([table, b2n repaired, 0, 0] ++ leBytes 4 at_)
    .next (s.weakRow 4 0xFF at_)
  else if s.lkp.eccCor.contains w then
    let k := table * 2 ^ 160 + index
    let day := 86400 * 10 ^ 9
    let seen := s.clk :: (Tbl.get [] s.lkp.corSeen k).filter (fun t => !s.elapsed t day)
    let s := { s with lkp := { s.lkp with eccCor := s.lkp.eccCor.filter (· != w), corSeen := Tbl.set [] s.lkp.corSeen k seen } }
    let s := s.inc LKP_ECCCOR.count
    .next (if 3 ≤ seen.length then s.weakRow 4 0xFF at_ else s)
  else .next s

/-! ### Engines and clusters (R520 to R522) -/

/-- ENGINE_WATCHDOG (R520, R528): a cluster whose own flag has fallen in the same cycle is reset instead. -/
def execEngineWatchdog (c slot : Nat) (s : State) : Out :=
  if !s.engineDue c slot then .next s
  else if s.clusterDue c then .next (s.clusterReset c)
  else .next (s.engineDead c slot 2)

/-- CLUSTER_WATCHDOG (R522). -/
def execClusterWatchdog (c : Nat) (s : State) : Out := .next (if s.clusterDue c then s.clusterReset c else s)

/-- CLUSTER_RESET_DONE (R522, R527): a cluster resumes after its reset, which is then reported. -/
def execClusterResetDone (c : Nat) (s : State) : Out :=
  let x := s.cluster c
  match x.resetAt with
  | none => .next s
  | some _ =>
    .next ((s.setCluster c { x with resetAt := none, ended := 0, progress := s.clk }).post 0x0C09 ([c, 0, 0, 0] ++ leBytes 4 x.ended))

/-! ### Keepalives and the loss of the bridge (R523 to R525) -/

/-- BRIDGE_KEEPALIVE_SEND (*Loss of the bridge*): a transmitter has sent nothing on an ACTIVE module for 1 µs and sends a keepalive flit, which
the far die hears. -/
def execBridgeKeepaliveSend (ft : Bool) (m : Nat) (s : State) : Out :=
  let d := s.dir ft
  if m < 24 ∧ s.modState m = 2 ∧ s.bridgeUp ∧ s.elapsed (Tbl.get 0 d.sentAt m) (us 1) then
    .next ((s.setDir ft { d with sentAt := Tbl.set 0 d.sentAt m s.clk, heardAt := s.clk }).flitSeen ft m)
  else .next s

/-- Packets of a direction that a loss discards: those under way, in the replay store and waiting as flits. One delivered before is not
lost. -/
def BridgeDir.inFlight (d : BridgeDir) : Nat :=
  ((d.replay.filter (fun f => seqAhead f.seq d.nextRx < 2 ^ 31)) ++ d.waiting).countP (fun f => f.pkt.isSome)

/-- A direction after a loss: nothing is in flight (*Island behaviour*). -/
def BridgeDir.cut (d : BridgeDir) : BridgeDir := { d with replay := [], waiting := [], reorder := [], nextTx := d.nextRx, ctlBits := 0 }

/-- The descriptor in service when the bridge is lost (R525): a bulk one whose effect lies on the FD completes EXPIRED with its progress and a
token, a single-entry one BUSY. While the sideband is lost too, its completion waits. -/
def State.lossExec (s : State) : State :=
  match s.hif.exec with
  | none => s
  | some r =>
    match (s.ring r).taken with
    | none => s
    | some t =>
      if !t.onFd || t.st != .running || !s.bit D2D_STAT.sideband_up then s
      else if isBulk t.op then s.finishTok r .expired dNO_PROGRESS t.progress 0
      else s.finBusy r dIN_USE

/-- Messages of the FD that have not crossed when the bridge is lost: event records are kept for the rejoin, and a sample's copy is dropped. -/
def State.keepFlits (s : State) : State :=
  let d := s.dies.ft
  let undelivered := d.replay.filter (fun f => decide (seqAhead f.seq d.nextRx < 2 ^ 31)) ++ d.waiting
  undelivered.foldl (fun t f => match f.msg with
    | some (.event e) => t.keepRec e
    | some (.sample v) => t.countCopy v.session false v.length
    | _ => t) s

/-- The accesses that are outstanding when the bridge is lost are reissued once over the sideband, under their tags (R38). -/
def State.reissue (s : State) : State :=
  s.dies.owed.foldl State.sbPut { s with dies := { s.dies with owed := [] } }

/-- The bridge is declared lost by the FD (0) or the TD (1) (R523, *Island behaviour*). -/
def State.bridgeLost (s : State) (die : Nat) : State :=
  let n := s.activeMods.length
  let lost := s.dies.ft.inFlight + s.dies.tf.inFlight
  let mods := (List.range 24).filter (fun m => s.modState m != 0 && s.modState m != 4)
  let s := (s.wr D2D_STAT.bridge 1).inc D2D_LOSSCNT.count
  let s := { s with res := { s.res with lostAt := s.clk, rejoin := 0, holdAt := some s.clk } }
  let s := mods.foldl (fun t m => (((t.wr (D2D_MODSTAT.state m) 4).wr (D2D_MODSTAT.cause m) 3).setModul m {}).postModule 0x0002 [m, 3]) s
  let s := s.countModules.post 0x0008 [die, n]
  let s := (s.addSat D2D_PKTLOST.count lost)
  let s := s.keepFlits.reissue
  let s := (s.setDir true s.dies.ft.cut).setDir false s.dies.tf.cut
  let s := s.lossExec
  let s := ((List.range 128).filter (fun p => s.bit (LPT_CFG.enable p))).foldl (fun t p => t.portTouch p) s
  let s := (List.range 128).foldl (fun t p => t.portDown p) s
  ((List.range 48).filter (fun l => s.bit (FLK_CTL.enable l))).foldl (fun t l => t.wr (FLK_CTL.force_rdi l) 1) s

/-- BRIDGE_KEEPALIVE_EXPIRE (R33, R523): no flit has arrived at the FD (`td` false) or the TD for ka_us. -/
def execBridgeKeepaliveExpire (td : Bool) (s : State) : Out :=
  if s.bit GEN_BOOTSTAT.ready ∧ s.bridgeUp ∧ s.elapsed (s.dir td).heardAt (us (s.rd D2D_CFG.ka_us)) then .next (s.bridgeLost (b2n td))
  else .next s

/-- VOQ_HOLD_EXPIRE (*Island behaviour*, R524): the VOQs have held their packets for voq_hold_ms and are flushed as BRIDGE_LOST. -/
def execVoqHoldExpire (s : State) : Out :=
  match s.res.holdAt with
  | none => .next s
  | some t =>
    if !s.bridgeUp ∧ s.elapsed t (ms (s.rd D2D_ISLCFG.voq_hold_ms)) then
      let s := { s with res := { s.res with holdAt := none } }
      let vs := Tbl.keysWhere (fun k (q : Queue) => decide (2 ^ 20 ≤ k) && !q.ents.isEmpty) s.qm.queues
      .next (vs.foldl (fun s k => s.flush k 0x12) s)
    else .next s

/-! ### Retraining and rejoin (R526) -/

/-- Modules that a retrain command names: one, or all LOST ones for 0xFF. -/
def State.retrainSet (s : State) (m : Nat) : List Nat :=
  ((List.range 24).filter (fun k => (m == 0xFF || k == m) && (s.modState k == 4 || (s.modState k == 0 && k == m))))

/-- A host retrain command (*Bridge module states*, R526, R596): the modules named enter TRAINING, and while the bridge is lost a rejoin
starts. -/
def State.retrain (s : State) (m : Nat) : State :=
  let l := s.retrainSet m
  if l.isEmpty then s
  else
    let s := l.foldl (fun t k => ((t.abandonTest 6 (· == k)).setModul k { t.modul k with attempts := 0 }).wr (D2D_MODSTAT.state k) 1) s
    let s := s.wr D2D_CTL.retrain 1
    if s.rd D2D_STAT.bridge = 1 then { s.wr D2D_STAT.bridge 2 with res := { (s.wr D2D_STAT.bridge 2).res with rejoin := 2 } } else s

/-- BRIDGE_RETRAIN: DONE once training has started; a module beyond 23 is refused. -/
def execBridgeRetrain (s : State) : Out :=
  match s.running 0x5D with
  | none => .next s
  | some (r, t) =>
    let m := t.f 16 1
    if 24 ≤ m ∧ m ≠ 0xFF then .next (s.finRefused r dBAD_OPERAND) else .next ((s.retrain m).finDone r)

/-- A write of D2D_CTL: the module field, and retrain as BRIDGE_RETRAIN. -/
def State.writeD2dCtl (s : State) (m : Nat) (go : Bool) : State :=
  let s := s.wr D2D_CTL.module m
  if go ∧ !s.bit D2D_CTL.retrain then s.retrain m else s

/-- AUTO_REJOIN (R526): with auto_rejoin the device starts a rejoin of all LOST modules once in each 1 s. -/
def execAutoRejoin (s : State) : Out :=
  if s.bit D2D_CFG.auto_rejoin ∧ s.rd D2D_STAT.bridge = 1 ∧ s.elapsed (max s.res.autoAt s.res.lostAt) (ms 1000) then
    .next ({ s with res := { s.res with autoAt := s.clk } }.retrain 0xFF)
  else .next s

/-- The bridge carries traffic again (*Rejoin*, step 4): remote fault and force_rdi end, the TD takes the port states from the FD, kept event
records arrive, and what the FD discarded is counted. -/
def State.rejoined (s : State) : State :=
  let kept := s.res.kept
  let lost := s.res.keptLost
  let s := s.wr D2D_STAT.bridge 0
  let s := { s with res := { s.res with rejoin := 0, holdAt := none, kept := [], keptLost := [] } }
  let s := s.setDir true { s.dies.ft with heardAt := s.clk }
  let s := s.setDir false { s.dies.tf with heardAt := s.clk }
  let s := ((List.range 48).filter (fun l => s.bit (FLK_CTL.enable l))).foldl (fun t l => t.wr (FLK_CTL.force_rdi l) 0) s
  let s := ((List.range 128).filter (fun p => s.bit (LPT_CFG.enable p))).foldl (fun t p => t.portTouch p) s
  let s := ((List.range 128).filter (fun p => s.portState p == 2)).foldl (fun t p => t.portUp p) s
  let s := kept.foldl (fun t e => t.fileRec e) s
  let s := lost.foldl (fun t e => t.addSat (HIF_EVLOST.count e.1) e.2) s
  ((s.post 0x0009 [s.activeMods.length]).run true).run false

/-- REJOIN_STEP_COMPLETE (R526, *Rejoin*): step 2, training, ends with enough modules ACTIVE or the rejoin fails; step 3 reconciles the
sequence numbers of each class; step 4 resumes. -/
def execRejoinStepComplete (s : State) : Out :=
  match s.res.rejoin with
  | 2 =>
    if (List.range 24).any (fun m => s.modState m == 1) then .next s
    else
      let s := s.wr D2D_CTL.retrain 0
      let n := s.activeMods.length
      if s.rd D2D_CFG.min_modules ≤ n then .next { s with res := { s.res with rejoin := 3 } }
      else
        .next (({ s.wr D2D_STAT.bridge 1 with res := { (s.wr D2D_STAT.bridge 1).res with rejoin := 0 } }).post 0x000A [n])
  | 3 => .next { s with res := { s.res with rejoin := 4 } }
  | 4 => .next s.rejoined
  | _ => .next s

/-- SIDEBAND_RETRAIN (R527): while the sideband is lost the island retrains it once in every 1 ms. -/
def execSidebandRetrain (s : State) : Out :=
  if s.dies.sbLost ∧ s.elapsed s.dies.sbTrained (ms 1) then .next { s with dies := { s.dies with sbTrained := s.clk } } else .next s

/-! ### Repairs (R424 to R433, R530 to R532) -/

/-- A REPAIR descriptor of a kind, with its ring and unit. -/
def State.repairOf (s : State) (kind : Nat) : Option (Nat × Nat) :=
  match s.running 0x5A with
  | none => none
  | some (r, t) => if t.f 16 1 = kind then some (r, t.f 20 4) else none

/-- Ends a REPAIR with what its element answers: DONE once the work has started (R428). -/
def State.repairEnd (s : State) (r : Nat) (x : (Status × Nat) ⊕ State) : State :=
  match x with
  | .inl (st, d) => s.finish r { status := st, detail := d }
  | .inr s => s.finDone r

/-- Whether taking a cluster from its role would leave its pipe with no cluster in the INGRESS role (R88). -/
def State.lastIngress (s : State) (c : Nat) : Bool :=
  s.rd (ENG_CLROLE.role c) == 0 && (List.range 6).all (fun i => let k := 6 * (c / 6) + i; k == c || s.rd (ENG_CLROLE.role k) != 0)

/-- A role change of a cluster (R87, R596): it takes no ply until the plies in flight have ended, on a change back to the role it had too.
Packets that wait in the egress dispatch queue when the pipe's last EGRESS cluster changes its role stay queued; R85 counts the packets
that arrive from then on (DESIGN CHOICE, log entry 90). -/
def State.changeRole (s : State) (c role : Nat) : State :=
  ((s.abandonTest 1 (· == c)).wr (ENG_CLROLE.role c) role).wr (ENG_CLSTAT.draining c) 1

/-- A write of ENG_CLROLE (R86 to R88): 0 INGRESS, 1 EGRESS, 2 OFF; 3 is no role and is ignored. -/
def State.writeRole (s : State) (c role : Nat) : State :=
  if role = s.rd (ENG_CLROLE.role c) ∨ 3 ≤ role then s
  else if s.lastIngress c then s.wr (ENG_CLSTAT.refused c) 1
  else s.changeRole c role

/-- REPAIR kind 0 (R530, R561): a cluster's SRAM repair starts with its drain to OFF. -/
def State.repairCluster (s : State) (c : Nat) : (Status × Nat) ⊕ State :=
  if 24 ≤ c then .inl (.refused, dBAD_OPERAND)
  else if s.res.repair.isSome ∨ s.upd.castle.isSome ∨ s.rd UPD_SESS.state = 5 then .inl (.busy, dIN_USE)
  else if s.lastIngress c then .inl (.busy, dLIVE_RESOURCE)
  else
    let k : ClRepair := { cluster := c, step := 1, role := s.rd (ENG_CLROLE.role c) }
    .inr ({ s with res := { s.res with repair := some k } }.changeRole c 2)

/-- REPAIR_CLUSTER_SRAM (R530): REPAIR kind 0; a kind above 5 names no repair and is refused here. -/
def execRepairClusterSram (s : State) : Out :=
  match s.running 0x5A with
  | none => .next s
  | some (r, t) =>
    if t.f 16 1 = 0 then .next (s.viaFd r t (fun s => s.repairEnd r (s.repairCluster (t.f 20 4))))
    else if 5 < t.f 16 1 then .next (s.finRefused r dBAD_OPERAND)
    else .next s

/-- CLUSTER_REPAIR_STEP_DONE (*Cluster SRAM repair*, R531): the step in progress ends. Step 1 needs the cluster drained; step 3 gives the
failing rows as (array, row), `spares` left, and in `bad` 0 that all have spares, 1 that an engine-local one of slot `slot` has none, 2 that a
cluster-shared or instruction-store one has none. -/
def execClusterRepairStepDone (rows : List (Nat × Nat)) (spares bad slot : Nat) (s : State) : Out :=
  match s.res.repair with
  | none => .next s
  | some k =>
    let c := k.cluster
    let put := fun (s : State) (k : ClRepair) => { s with res := { s.res with repair := some k } }
    match k.step with
    | 1 =>
      if s.rd (ENG_CLSTAT.role_now c) ≠ 2 ∨ s.bit (ENG_CLSTAT.draining c) then .next s
      else .next (put s { k with step := 2 })
    | 2 => .next (put s { k with step := 3 })
    | 3 =>
      let s := if bad = 1 ∧ slot < 64 then s.engineDead c slot 4 else s
      .next (put s { k with step := 4, rows := rows, spares := spares, bad := bad != 0, stays := bad == 2 })
    | 4 =>
      let new := (k.rows.map (fun x => (x.1, c, x.2))).filter (fun w => !s.res.rows.contains w)
      .next (put { s with res := { s.res with rows := s.res.rows ++ new } } { k with step := 5 })
    | _ =>
      let s := { s with res := { s.res with repair := none } }
      let s := if k.stays then s else s.changeRole c k.role
      .next (s.post 0x0C0B ([c, b2n k.bad] ++ leBytes 2 k.rows.length ++ leBytes 2 k.spares))

/-- REPAIR_PC_RETIRE (R426, R428): REPAIR kind 1 retires a pseudo-channel. -/
def execRepairPcRetire (s : State) : Out :=
  match s.repairOf 1 with
  | none => .next s
  | some (r, pc) =>
    let st := s.rd (MCH_PCSTAT.state (pc / 64) (pc % 64))
    .next (s.repairEnd r (if 384 ≤ pc then .inl (.refused, dBAD_OPERAND)
      else if st = 0 then .inr (s.pcRetire pc 2)
      else .inl (.busy, dIN_USE)))

/-- REPAIR_HBM_LANE (R425, R428): REPAIR kind 2 repairs a lane of a pseudo-channel. -/
def execRepairHbmLane (s : State) : Out :=
  match s.repairOf 2 with
  | none => .next s
  | some (r, u) => .next (s.repairEnd r (s.laneRepair (u % 512) (u / 512)))

/-- A link that is being retired is OUT: its lanes enter OFF and the mark is kept (R532). -/
def State.tryRetire (s : State) (l : Nat) : State :=
  if s.res.retiring.contains l ∧ s.rd (QM_LINKSTAT.state l) = 2 then
    let s := { s with res := { s.res with retiring := s.res.retiring.filter (· != l) }, flk := { s.flk with retired := insNat l s.flk.retired } }
    let s := (linkLanes l).foldl (fun t ln => t.laneTo ln 0) s
    ((s.linkTouch l).saveLinks).post 0x0C0C [l, 0]
  else s

/-- FABRIC_DELAY_EXPIRE (R286, R532): the fabric delay of a bucket's move ends; it points at its new link and the hold is released. -/
def execFabricDelayExpire (dev b : Nat) (s : State) : Out :=
  let k := 64 * dev + b
  let x := s.bucket k
  if b < 64 ∧ x.phase = .delay ∧ s.elapsed x.at_ (us (s.rd QM_LBCFG.fabric_delay_us)) then
    let links := s.usable dev
    let new := match x.target with
      | some l => if links.contains l then some l else s.fewest dev links
      | none => s.fewest dev links
    let s := (s.setBucket k { link := new, held := new.isNone }).syncBuckets
    let s := if new.isSome then s.inc QM_BUCKETMOVE.count else s
    let s := match x.link with
      | some l => (s.tryOut l).tryRetire l
      | none => s
    .next s.rebalance
  else .next s

/-- REPAIR_LINK_RETIRE (R532): REPAIR kind 3 with bit 31 of the unit 0 drains a link and retires it. -/
def execRepairLinkRetire (s : State) : Out :=
  match s.repairOf 3 with
  | none => .next s
  | some (r, u) =>
    if bitOf u 31 then .next s
    else if 48 ≤ u then .next (s.finRefused r dBAD_OPERAND)
    else
      let s := { s with res := { s.res with retiring := insNat u s.res.retiring } }
      .next (((s.drainLink u 4).tryRetire u).finDone r)

/-- REPAIR_LINK_RETURN (R532): REPAIR kind 3 with bit 31 of the unit 1 clears a link's retired mark. -/
def execRepairLinkReturn (s : State) : Out :=
  match s.repairOf 3 with
  | none => .next s
  | some (r, u) =>
    if !bitOf u 31 then .next s
    else
      let l := u % 2 ^ 31
      if 48 ≤ l then .next (s.finRefused r dBAD_OPERAND)
      else
        let was := s.flk.retired.contains l
        let s := { s with res := { s.res with retiring := s.res.retiring.filter (· != l) }, flk := { s.flk with retired := s.flk.retired.filter (· != l) } }
        let s := if was then s.saveLinks.post 0x0C0C [l, 1] else s
        .next ((s.tryRestore l).finDone r)

/-- REPAIR_DDR_EVACUATE (R431): REPAIR kind 4. -/
def execRepairDdrEvacuate (s : State) : Out :=
  match s.repairOf 4 with
  | none => .next s
  | some (r, ch) => .next (s.ifFd (ch < 4) r (fun s => s.repairEnd r (s.chanEvacuate ch)))

/-- REPAIR_DDR_RETURN (R433): REPAIR kind 5. -/
def execRepairDdrReturn (s : State) : Out :=
  match s.repairOf 5 with
  | none => .next s
  | some (r, ch) => .next (s.ifFd (ch < 4) r (fun s => s.repairEnd r (s.chanReturn ch)))

end Sys2Proof.Machine
end

