-- ==== Sys2Proof/Machine/Reset.lean ====
section
/-! DEFINITION. Power sequencing, resets and the boot (14_startup_reset.md, R578 to R594; 13_update.md, R568 to R570). -/
namespace Sys2Proof.Machine

/-! ### What a reset leaves (*Reset kinds*) -/

/-- The lifetime section as SEAT_AVS, SEAT_TJAVG and SEAT_STRESS0 to SEAT_STRESS2 show it. -/
def State.lifeLoad (s : State) : State :=
  let g := fun k => Tbl.get 0 s.record.lifetime k
  let s := (s.wr SEAT_AVS.fd_steps (g 0)).wr SEAT_AVS.td_steps (g 1)
  let s := ((s.wr SEAT_STRESS0.hours (g 2)).wr SEAT_STRESS1.hours (g 3)).wr SEAT_STRESS2.hours (g 4)
  { s.wr SEAT_TJAVG.avg (g 5) with res := { s.res with tjSum := signed 16 (g 5) * (g 6 : Int), tjCount := g 6 } }

/-- A device of which only the stores, the pins and the registers that `keep` names are left; the boot starts at step 1. -/
def State.blank (s : State) (keep : Nat → Bool) : State :=
  let p := s.pwr
  let u := s.upd
  let t : State := { clk := s.clk, hostMem := s.hostMem, free := s.free, pending := s.pending, regs := s.regs.filter (fun e => keep (e.1 / 64)) }
  let t := { t with dies := { feedA := s.dies.feedA, feedB := s.dies.feedB, feedAAt := s.dies.feedAAt, feedBAt := s.dies.feedBAt }, mem := { retired := s.mem.retired, repairs := s.mem.repairs },
                    res := { rows := s.res.rows } }
  let t := { t with upd := { rec0 := u.rec0, rec1 := u.rec1, nor := u.nor, keys := u.keys, trip := u.trip } }
  let t := { t with hif := { nextToken := s.hif.nextToken } }
  let t := { t with pwr := { sysrst := p.sysrst, clkLost := p.clkLost, phase := p.phase, enAt := p.enAt, offAt := p.offAt, offFor := p.offFor,
                             feedAt := p.feedAt, faultAt := p.faultAt, restart := p.restart, held := p.held, tripPin := p.tripPin,
                             bootAt := s.clk, stepAt := s.clk } }
  (t.lifeLoad.syncAreas).wr PWR_STAT.feed t.feed

/-- The registers that outlive a cold reset: fuses, straps and the power sequencing pins. -/
def coldKeeps (a : Nat) : Bool := [0x4, 0x8, 0xC, 0x110, 0x114, 0x3002C].contains a

/-- The enables are to be lowered (R580). -/
def State.railsDown (s : State) (offFor : Nat) : State :=
  let p := s.pwr
  if s.rd GEN_PSEQ.en = 0 then { s with pwr := { p with phase := 0, offFor := offFor } }
  else { s with pwr := { p with phase := 3, offFor := offFor } }

/-- The enables are low at once: the island is in reset or without power. -/
def State.railsCut (s : State) : State := { s.wr GEN_PSEQ.en 0 with pwr := { s.pwr with phase := 0, offAt := s.clk, offFor := 0 } }

/-- A cold reset with its cause (*Reset kinds*, R592): a restore from self-refresh that it meets is lost. -/
def State.cold (s : State) (cause : Nat) : State :=
  let lost := s.mem.restore
  let t := (((s.blank coldKeeps).wr GEN_RSTCAUSE.cause cause).wr GEN_BOOTSTAT.kind 1).railsDown (ms 10)
  lost.foldl (fun t ch => t.post 0x0918 [ch]) t

/-- The registers of the island that keep their values while the dies are reset: GEN, network time, power, key fuses, the PCIe link, and of
the seats the evidence and the service life. -/
def islandKeeps (a : Nat) : Bool :=
  a < 0x1000 || (0x40000 ≤ a && a < 0x48000) || (0x600000 ≤ a && a < 0x601000) || a == 0x3002C || a == HIF_LINKSTAT.up.addr ||
  (0x20010 ≤ a && a < 0x20014) || (0x20020 ≤ a && a < 0x20034)

/-- The dies are reset and the island goes on: what both keep in every case. -/
def State.diesReset (s : State) : State :=
  let t := s.blank islandKeeps
  let t := { t with tim := s.tim }
  let t := (((t.wr GEN_BOOTSTAT.ready 0).wr GEN_BOOTSTAT.fd_ok 0).wr GEN_BOOTSTAT.step 1).wr GEN_STSTAT.running 0
  ((t.wr GEN_RSTCTL.arm 0).wr GEN_SEAL.sealed 0).wr D2D_STAT.fd_powered (s.rd D2D_STAT.fd_powered)

/-! ### RETAIN channels through a warm reset (R135, R432, R585) -/

/-- The channels that a warm reset keeps in self-refresh. -/
def State.retained (s : State) : List Nat :=
  (List.range 8).filter (fun c => s.bit (MCD_CFG.retain c) && (s.rd (MCD_STAT.state c) == 3 || s.rd (MCD_STAT.state c) == 7))

/-- The registers that a retained channel keeps: its module, its rate and its trained delays. -/
def chanKeeps (c a : Nat) : Bool :=
  let b := 0x380000 + 0x2000 * c
  a == b || a == b + 4 || a == b + 8 || (b + 0x100 ≤ a && a < b + 0x150)

/-- Whether a location's key belongs to a channel. -/
def ofChan (c key : Nat) : Bool := key / 2 ^ 49 == 384 + c

/-- Counts wait in no cache: every entry is written back (R619), but for those of the FD that the lost bridge holds there (R615). -/
def State.flushCaches (s : State) : State :=
  let s := (s.tel.tdCache.map (·.1)).foldl (fun t i => t.cntWriteBack false i) s
  (s.tel.fdCache.map (·.1)).foldl (fun t i => if t.farKept i then t else t.cntWriteBack true i) s

/-- A retained channel, after the dies' reset: in self-refresh, to be restored at step 6. -/
def State.carryChan (was : State) (t : State) (c : Nat) : State :=
  let t := { t with regs := (was.regs.filter (fun (e : Nat × Nat) => chanKeeps c (e.1 / 64))).foldl (fun (r : Tbl Nat) (e : Nat × Nat) => Tbl.ins e.1 e.2 r) t.regs }
  let m := t.mem
  let t := { t with mem := { m with restore := insNat c m.restore, store := m.store ++ was.mem.store.filter (fun (e : Nat × Nat) => ofChan c e.1),
                                    initAt := Tbl.set 0 m.initAt c (Tbl.get 0 was.mem.initAt c), pins := Tbl.set {} m.pins c (Tbl.get {} was.mem.pins c),
                                    masked := Tbl.set 0 m.masked c (was.pasrMask c) } }
  (t.wr (MCD_STAT.state c) 7).wr (MCD_STAT.retained c) 0

/-- An evacuated channel stays so; one that was being evacuated has lost its contents (R585). -/
def State.carryEvac (was : State) (t : State) (c : Nat) : State :=
  if was.rd (MCD_STAT.state c) = 4 ∨ was.rd (MCD_STAT.state c) = 5 then t.wr (MCD_STAT.state c) 5 else t

/-- The DDR5 store of the FIB is kept when every channel that serves the Extended FIB carries RETAIN (R135). -/
def State.keepsFib (s : State) : Bool :=
  s.bit LKP_XFIBCFG.enable && !s.lkp.xfibDown && (List.range 8).all (fun c => !bitOf (s.rd LKP_XFIBCFG.channels) c || s.retained.contains c)

/-- The fields of LKP_XFIBCFG and the table carried. -/
def State.carryFib (was : State) (t : State) : State :=
  if was.keepsFib then
    { (t.wr LKP_XFIBCFG.enable 1).wr LKP_XFIBCFG.channels (was.rd LKP_XFIBCFG.channels) with lkp := { t.lkp with fib := was.lkp.fib } }
  else t

/-- Whether a counter lies on a retained channel. -/
def State.onRetained (s : State) (i : Nat) : Bool := let h := s.cntHome i; decide (8 ≤ h) && s.retained.contains (h - 8)

/-- A warm reset (R585, *Reset kinds*). -/
def State.warm (s : State) : State :=
  let was := s.flushCaches
  let t := (was.diesReset.wr GEN_RSTCAUSE.cause 4).wr GEN_BOOTSTAT.kind 2
  let t := { t with pwr := { t.pwr with warm := true, phase := s.pwr.phase } }
  let t := { t with hif := { t.hif with msix := s.hif.msix, busMaster := s.hif.busMaster, trained := s.hif.trained, cfg := s.hif.cfg } }
  let d := s.dies
  let t := { t with dies := { t.dies with hbTd := d.hbTd, hbFd := d.hbFd, hbTdSent := d.hbTdSent, hbFdSent := d.hbFdSent, hbSince := d.hbSince,
                                          sbLost := d.sbLost, sbTrained := d.sbTrained, followFd := d.followFd, followTd := d.followTd } }
  let t := t.wr D2D_STAT.sideband_up (s.rd D2D_STAT.sideband_up)
  let t := s.retained.foldl was.carryChan t
  let t := (List.range 8).foldl was.carryEvac t
  let t := { t with tel := { t.tel with store := was.tel.store.filter (fun e => was.onRetained e.1) } }
  was.carryFib t

/-! ### Rails and feeds (R578 to R582, R643) -/

/-- A feed is in range. -/
def State.fed (s : State) : Bool := s.dies.feedA || s.dies.feedB

/-- The highest enable that is high. -/
def State.topEn (s : State) : Option Nat := [7, 6, 5, 4, 3, 2, 1, 0].find? (fun g => bitOf (s.rd GEN_PSEQ.en) g)

/-- An enable raised or lowered, and a power-good input as the island reads it. -/
def State.setEn (s : State) (g : Nat) (on : Bool) : State :=
  let s := s.wr GEN_PSEQ.en (putBits (s.rd GEN_PSEQ.en) g 1 (b2n on))
  { s with pwr := { s.pwr with enAt := s.clk } }
def State.setPg (s : State) (g : Nat) (on : Bool) : State := s.wr GEN_PSEQ.pg (putBits (s.rd GEN_PSEQ.pg) g 1 (b2n on))

/-- The island may run: it has its clock and a feed, and neither SYSRST_N nor a fault or trip holds the rails off. -/
def State.runnable (s : State) : Bool :=
  let p := s.pwr
  s.fed && !p.sysrst && !p.clkLost && !p.held

/-- A power fault in a group (R581): the second within 10 s leaves every enable low; after a trip no restart follows (R642). -/
def State.powerFault (s : State) (g : Nat) : State :=
  let p := s.pwr
  let again := decide (p.faultAt ≠ 0) && !s.elapsed (p.faultAt - 1) (ms 10000)
  let t := (s.cold 5).wr GEN_RSTCAUSE.group g
  let stay := again || p.tripPin
  { t with pwr := { t.pwr with faultAt := s.clk + 1, restart := !stay, held := p.held || stay } }

/-- POWER_SEQUENCE_START (R578): SYSRST_N is high, a feed has been in range for 10 ms, and the rails have been off for as long as the reset
asks; the first enable rises in boot step 2. -/
def execPowerSequenceStart (s : State) : Out :=
  let p := s.pwr
  if s.runnable ∧ !p.restart ∧ p.phase = 0 ∧ s.rd GEN_BOOTSTAT.step = 2 ∧ s.elapsed p.feedAt (ms 10) ∧ s.elapsed p.offAt p.offFor then
    let s := s.setEn 0 true
    .next { s with pwr := { s.pwr with phase := 1 } }
  else .next s

/-- PSEQ_ENABLE_NEXT (R579): the power-good of the last group enabled has been high for 100 µs; the next enable rises, or the rails are on. -/
def execPseqEnableNext (s : State) : Out :=
  match s.topEn with
  | none => .next s
  | some g =>
    if s.runnable ∧ s.pwr.phase = 1 ∧ s.elapsed s.pwr.enAt (us 100) then
      let s := s.setPg g true
      let s := if g = 2 then s.wr D2D_STAT.fd_powered 1 else s
      if g = 7 then .next { s with pwr := { s.pwr with phase := 2 } } else .next (s.setEn (g + 1) true)
    else .next s

/-- PSEQ_PG_TIMEOUT (R579, R581): a group's power-good has not risen within 10 ms of its enable. -/
def execPseqPgTimeout (s : State) : Out :=
  match s.topEn with
  | none => .next s
  | some g => if s.runnable ∧ s.pwr.phase = 1 ∧ s.elapsed s.pwr.enAt (ms 10) then .next (s.powerFault g) else .next s

/-- POWER_GOOD_FALL (R581): a power-good input falls for 20 µs; while its enable is high that is a power fault. -/
def execPowerGoodFall (g : Nat) (s : State) : Out :=
  if g < 8 ∧ bitOf (s.rd GEN_PSEQ.pg) g then
    let s := s.setPg g false
    .next (if bitOf (s.rd GEN_PSEQ.en) g ∧ !s.pwr.sysrst ∧ s.pwr.phase ≠ 3 then s.powerFault g else s)
  else .next s

/-- POWER_FAULT_RESTART (R581): 100 ms after a power fault the sequence begins again. -/
def execPowerFaultRestart (s : State) : Out :=
  let p := s.pwr
  if s.runnable ∧ p.restart ∧ p.phase = 0 ∧ s.elapsed (p.faultAt - 1) (ms 100) then
    let s := { s with pwr := { p with restart := false, bootAt := s.clk, stepAt := s.clk } }
    let s := s.setEn 0 true
    .next { s with pwr := { s.pwr with phase := 1 } }
  else .next s

/-- RAIL_DOWN_NEXT (R580): the next enable is lowered, from 7 down to 0, once the power-good of the group above has fallen or 2 ms have
passed. -/
def execRailDownNext (s : State) : Out :=
  if s.pwr.phase ≠ 3 then .next s
  else
    match s.topEn with
    | none => .next s.railsCut
    | some g =>
      if g = 7 ∨ !bitOf (s.rd GEN_PSEQ.pg) (g + 1) ∨ s.elapsed s.pwr.enAt (ms 2) then
        let s := s.setEn g false
        if g = 0 then .next { s with pwr := { s.pwr with phase := 0, offAt := s.clk } } else .next s
      else .next s

/-- SYSRST_ASSERT (R580, R594): SYSRST_N falls: a cold reset that overrides every other; the rails are lowered in order. -/
def execSysrstAssert (s : State) : Out :=
  if s.pwr.sysrst then .next s
  else let t := s.cold 1; .next { t with pwr := { t.pwr with sysrst := true, restart := false } }

/-- SYSRST_RELEASE (R582): SYSRST_N rises: the straps are sampled and the boot starts. With TEST_N low the device enters a factory test
mode that the spec does not describe. -/
def execSysrstRelease (recovery quad sris test : Bool) (s : State) : Out :=
  if !s.pwr.sysrst then .next s
  else if !test then .fault .factoryTest
  else
    let s := s.wr GEN_STRAPS.straps (b2n recovery + 2 * b2n quad + 4 * b2n sris + 8 * b2n test)
    .next { s with pwr := { s.pwr with sysrst := false, held := false, tripPin := false, bootAt := s.clk, stepAt := s.clk } }

/-- AUX_FEEDS_LOST (R43, R568, R581): both auxiliary feeds are out of range; the island resets and every enable falls with it. `torn` says that
the record being written is torn. -/
def execAuxFeedsLost (torn : Bool) (s : State) : Out :=
  let s := if torn then s.tearRec else s
  let t := (s.cold 2).railsCut
  .next { t with dies := { t.dies with feedA := false, feedB := false }, pwr := { t.pwr with restart := false } }

/-- AUXCLK_LOSS (R643): AUXCLK_IN has stopped for 1 µs: the island is held in reset, with every enable low. -/
def execAuxclkLoss (s : State) : Out :=
  let (n, s) := s.fresh
  let t := (s.cold (Config.pick n % 16)).railsCut
  .next { t with pwr := { t.pwr with clkLost := true, restart := false } }

/-- AUXCLK_RETURN (R643): the clock has returned, and a cold reset follows. -/
def execAuxclkReturn (s : State) : Out :=
  if s.pwr.clkLost then
    let (n, s) := s.fresh
    let t := (s.cold (Config.pick n % 16)).railsCut
    .next { t with pwr := { t.pwr with clkLost := false } }
  else .next s

/-! ### Resets by register, and of the host interface (R584, R586) -/

/-- GEN_RSTCTL.arm written. -/
def State.armReset (s : State) : State :=
  let s := s.wr GEN_RSTCTL.arm 1
  { s with pwr := { s.pwr with armAt := s.clk + 1 } }

/-- A reset request is armed, by a write completed no more than 1 ms ago. -/
def State.armed (s : State) : Bool := s.pwr.armAt != 0 && decide (s.clk ≤ s.pwr.armAt - 1 + ms 1)

/-- GEN_RSTCTL.cold or GEN_RSTCTL.warm written. -/
def State.askReset (s : State) (isCold : Bool) : State :=
  if s.armed && s.bit GEN_BOOTSTAT.ready then (if isCold then s.cold 3 else s.warm) else s.wr GEN_RSTCTL.refused 1

/-- A write of GEN_RSTCTL: a request in it is judged by the arm that stood before. -/
def State.writeRstctl (s : State) (v : Nat) : State :=
  let s := if bitOf v 2 then s.wr GEN_RSTCTL.refused 0 else s
  let t := if bitOf v 0 then s.askReset true else if bitOf v 1 then s.askReset false else s
  if bitOf v 31 ∧ t.bit GEN_BOOTSTAT.ready = s.bit GEN_BOOTSTAT.ready then t.armReset else t

/-- PERST_ASSERT (R586, R594): PERST_N or a PCIe hot reset resets the host interface; one during the boot of a warm reset is absorbed by it. -/
def execPerstAssert (s : State) : Out :=
  if s.pwr.warm ∧ !s.bit GEN_BOOTSTAT.ready then .next s
  else
    let h := s.hif
    let h := { h with puntQ := h.rings.filterMap (fun (e : Nat × Ring) => e.2.stuck) ++ h.puntQ }
    let h := { h with rings := [], exec := none, lastRing := [], lastPunt := [], events := [], vecs := [], inReset := true, rctlOpen := true,
                      held := [], cache := [], requests := [], lost := [], rctlStart := none, rctlStop := none, cfg := {} }
    .next ({ s with hif := h }.wr HIF_LINKSTAT.up 0)

/-! ### Image choice (R569, R570) -/

/-- Recovery mode is entered (R571): the recovery ROM runs on the ACTIVE seat, with the FD held in reset. -/
def State.enterRecovery (s : State) (cause : Nat) : State :=
  let s := (s.wr UPD_BOOT.booted 3).wr UPD_BOOT.recovery_cause cause
  let s := { s with pwr := { s.pwr with recovery := true, stepAt := s.clk } }
  if s.seatIs false = 4 then s else s.seatTo false 4

/-- A bank is booted: the record counts the attempt, and settings of another format are reset (R566). -/
def State.bootBank (s : State) (b fails : Nat) (fresh : Bool) : State :=
  let fmt := hdrFmt (s.imageIn b)
  let old := s.record.fmt
  let n := min 255 (fails + 1)
  let s := if !fresh ∧ fmt ≠ old then
      ((s.putRec (fun r => { r with settings := [], links := [], delays := [] })).wr UPD_BOOT.settings_reset 1).post 0x0D06 (leBytes 2 old ++ leBytes 2 fmt)
    else s
  let s := s.putRec (fun r => { r with trial := none, trialVer := 0, bootFails := n, fmt := fmt })
  let s := (((s.wr UPD_BOOT.booted b).wr UPD_BOOT.boot_fails n).wr UPD_BOOT.recovery_cause 0).wr GEN_FWVER.version (leAt (s.seal b) 4 4)
  { s.wr GEN_BOOTSTAT.step 4 with pwr := { s.pwr with stepAt := s.clk, recovery := false } }

/-- Without a valid record, one that names the areas as their seal sectors show them (R538, R540). -/
def State.recordAreas (s : State) : State :=
  let a := (List.range 3).foldl (fun t k => if s.sealOk k then Tbl.set 0 t k 2 else t) []
  let v := if s.sealOk 0 then leAt (s.seal 0) 4 4 else 0
  s.putRec (fun r => { r with areas := a, confVer := v })

/-- The boot sequencer chooses the image (R569). `strap` says that RECOVERY_N was low, `fails` what boot_fails counts as. -/
def State.chooseImage (s : State) (strap : Bool) (fails : Nat) : State :=
  let fresh := s.upd.rec0.isNone && s.upd.rec1.isNone
  if strap then s.enterRecovery 2
  else if 3 ≤ fails then s.enterRecovery 3
  else
    let s := if fresh then s.recordAreas else s
    let b := s.record.confirmed
    if s.bootCheck b then s.bootBank b fails fresh
    else
      let s := s.markArea b 3
      let o := 1 - b
      if s.isSealed o && s.bootCheck o then
        let s := s.putRec (fun r => { r with confirmed := o, confVer := leAt (s.seal o) 4 4 })
        (s.post 0x0D07 [b, o]).bootBank o fails fresh
      else s.enterRecovery 1

/-! ### Boot steps (R588 to R591) -/

/-- An AVSBus write of a die's requested voltage (R635, R636): 0 FD, 1 TD. The third in a row without acknowledgement is reported. -/
def State.avsSend (s : State) (d : Nat) (ack : Bool) : State :=
  let steps := s.rd (if d = 0 then SEAT_AVS.fd_steps else SEAT_AVS.td_steps)
  let want := 720 + steps * 5 / 2
  let s := { s with res := { s.res with avsTryAt := s.clk } }
  let n := Tbl.get 0 s.res.avsMiss d + 1
  let miss := if ack then Tbl.erase s.res.avsMiss d else Tbl.set 0 s.res.avsMiss d n
  let s : State := { s with res := { s.res with avsMiss := miss } }
  let s : State := if ack then s.wr (PWR_AVSTGT.mv d) want else s
  let s : State := if !ack ∧ n = 3 then s.post 0x0F03 [if d = 0 then 0 else 2, 1, 0, 0] else s
  let behind : Nat → Bool := fun k => decide (s.rd (PWR_AVSTGT.mv k) < 720 + s.rd (if k = 0 then SEAT_AVS.fd_steps else SEAT_AVS.td_steps) * 5 / 2)
  s.wrBit PWR_STAT.avs_fail (behind 0 || behind 1)

/-- The entries of the lifetime log (*MRAM map*), each by its number: SRAM repair records, lane repairs by pseudo-channel, and retirements. The
entries of bad CRC, numbered by `bad`, are skipped (R540). -/
def State.readLog (s : State) (bad : List Nat) : State :=
  let rows := s.res.rows
  let fixes := s.mem.repairs.flatMap (fun (e : Nat × List Nat) => e.2.map (fun lane => (e.1, lane)))
  let n := rows.length
  let m := n + fixes.length
  let gone := (fixes.zipIdx).filterMap (fun x => if bad.contains (n + x.2) then some x.1 else none)
  let keep := fun (t : Tbl (List Nat)) (e : Nat × List Nat) => Tbl.set [] t e.1 (e.2.filter (fun lane => !gone.contains (e.1, lane)))
  let out := (s.mem.retired.zipIdx).filterMap (fun x => if bad.contains (m + x.2) then some x.1.1 else none)
  { s with res := { s.res with rows := (rows.zipIdx).filterMap (fun x => if bad.contains x.2 then none else some x.1) },
           mem := { s.mem with repairs := s.mem.repairs.foldl keep [],
                               retired := s.mem.retired.filter (fun e => !out.contains e.1) } }

/-- Step 1: the records and the lifetime log are read; a trip recorded before is shown (R540, R642). -/
def State.bootRecords (s : State) (bad : List Nat) : State :=
  let s := if bad.isEmpty then s else s.readLog bad
  let s := if s.upd.rec0.isNone && s.upd.rec1.isNone then s.wr UPD_BOOT.settings_reset 1 else s
  match s.upd.trip with
  | none => s
  | some (n, t) => { (s.wr PWR_STAT.trip_seen 1).post 0x0F02 ([n, 0] ++ leBytes 2 t) with upd := { s.upd with trip := none } }

/-- Stored settings take effect (R405, R532, R619). -/
def State.loadSettings (s : State) : State :=
  let g := fun (f : Fld) => Tbl.get f.reset s.record.settings f.key
  let s := (List.range 8).foldl (fun t c => (t.wr (MCD_CFG.role c) (g (MCD_CFG.role c))).wr (MCD_CFG.retain c) (g (MCD_CFG.retain c))) s
  let s := (List.range 64).foldl (fun t k => t.wr (TEL_SEGMAP.home k) (g (TEL_SEGMAP.home k))) s
  { s with flk := { s.flk with retired := s.record.links } }

/-- Step 4: the seats end their load and self-test (R589). -/
def State.bootSeats (s : State) (aOk bOk : Bool) : State :=
  let act := !aOk
  let s := { s with res := { s.res with islandAt := s.clk } }
  let s := s.seatTo act 4
  let s := if aOk && bOk then s.seatTo (!act) 2 else (s.seatTo (!act) 6).resign 1 (b2n (!act)) 0 4
  let s := s.loadSettings
  s.sbPut (.power true false)

/-- Training of channels with a role starts; `absent` names the channels without a module. -/
def State.startDdr (s : State) (absent : List Nat) : State :=
  (List.range 8).foldl (fun t c =>
    if t.rd (MCD_STAT.state c) ≠ 1 then t
    else if t.rd (MCD_CFG.role c) ≠ 0 then t.chanTrain c
    else if absent.contains c then t.wr (MCD_STAT.state c) 0 else t) s

/-- A program loaded into a bank, in a state of *Bank states*. -/
def State.loadBank (s : State) (c b st version : Nat) (l : List Nat) : State :=
  let lo := bunKey c b 0
  let old := s.eng.bundles.filter (fun e => decide (e.1 < lo) || decide (lo + 32768 ≤ e.1))
  let t := (l.zipIdx).foldl (fun t x => Tbl.set 0 t (lo + x.2) x.1) old
  let s := { s with eng := { s.eng with bundles := t, insnEcc := s.eng.insnEcc.filter (fun k => k < lo || lo + 32768 ≤ k) } }
  ((s.wr (bankState c b) st).wr (bankLen c b) l.length).wr (bankVersion c b) (version % 65536)

/-- Clusters that a target mask names. -/
def clustersOf (mask : Nat) : List Nat := (List.range 24).filter (bitOf mask)

/-- Step 9: programs of the image go into bank 0; engines that fail their built-in test are resigned (R589). `bad` lists 128 × cluster + slot. -/
def State.bootEngines (s : State) (bad : List Nat) : State :=
  let img := s.imageIn (s.rd UPD_BOOT.booted)
  let s := ((partsOf img).filter (fun p => p.kind == 2)).foldl (fun s p =>
    (clustersOf p.target).foldl (fun s c => s.loadBank c 0 3 p.version (bundlesOf (p.bytes img))) s) s
  (bad.filter (fun k => decide (k / 128 < 24) && decide (k % 128 < 64))).foldl (fun s k => s.engineDead (k / 128) (k % 128) 4) s

/-- Step 10: the on-die FIB is rebuilt, or left empty where a channel of the Extended FIB did not keep its contents (R135). -/
def State.bootFib (s : State) : State :=
  if !s.bit LKP_XFIBCFG.enable then s else if s.lkp.xfibDown then s.fibEmpty else s.fibCount

/-- Step 11: ready. Segments whose home did not come up are lost (R618); a bridge without a module is lost (R589). -/
def State.bootReady (s : State) : State :=
  let s := s.putRec (fun r => { r with bootFails := 0 })
  let s := ((s.wr GEN_BOOTSTAT.ready 1).wr GEN_BOOTTIME.us ((s.clk - s.pwr.bootAt) / 1000))
  let gone := (List.range 64).filter (fun k => decide (8 ≤ s.rd (TEL_SEGMAP.home k)) && !s.homeOk (s.rd (TEL_SEGMAP.home k)))
  let s := State.trimHbm 64 (gone.foldl State.loseSeg s)
  let s := s.setDir true { s.dies.ft with heardAt := s.clk }
  let s := s.setDir false { s.dies.tf with heardAt := s.clk }
  if s.bit GEN_BOOTSTAT.fd_ok then s.degradeCheck else s.degradeCheck.bridgeLost 1

/-- The step that follows begins. -/
def State.toStep (s : State) (n : Nat) : State := { s.wr GEN_BOOTSTAT.step n with pwr := { s.pwr with stepAt := s.clk } }

/-- The boot sequencer runs. -/
def State.booting (s : State) : Bool :=
  s.runnable && !s.pwr.restart && !s.pwr.recovery && !s.bit GEN_BOOTSTAT.ready

/-- BOOT_STEP_COMPLETE (R588 to R591, R569, R635): the boot step in progress ends and the next begins. `aOk` and `bOk` say, in step 2, that the
regulators of FD and TD acknowledge, and in step 4 that the seats pass; `bad` lists the entries of the lifetime log with a bad CRC in step 1,
the channels without a module in step 5, and the engines that fail, as 128 × cluster + slot, in step 9. -/
def execBootStepComplete (aOk bOk : Bool) (bad : List Nat) (s : State) : Out :=
  if !s.booting then .next s
  else
    match s.rd GEN_BOOTSTAT.step with
    | 1 => .next ((s.bootRecords bad).toStep 2)
    | 2 => if s.pwr.phase = 2 then .next (((s.avsSend 0 aOk).avsSend 1 bOk).toStep 3) else .next s
    | 3 =>
      let s := s.chooseImage (!bitOf (s.rd GEN_STRAPS.straps) 0) s.record.bootFails
      if s.pwr.recovery then .next s else .next ((s.seatLoad false false).seatLoad true false)
    | 4 =>
      if aOk || bOk then
        let s := s.bootSeats aOk bOk
        .next (((List.range 6).foldl (fun t k => t.wr (MCH_STAT.state k) 1) s).toStep 5)
      else
        let (n, s) := s.fresh
        .next (s.cold (Config.pick n % 16))
    | 5 => if (List.range 6).any (fun k => s.rd (MCH_STAT.state k) == 1) then .next s else .next ((s.startDdr bad).toStep 6)
    | 6 =>
      if !s.mem.restore.isEmpty || (List.range 8).any (fun c => s.rd (MCD_STAT.state c) == 2) then .next s else .next (s.toStep 7)
    | 7 =>
      if s.bit D2D_STAT.fd_reset then .next s
      else .next (((List.range 24).foldl (fun t m => t.wr (D2D_MODSTAT.state m) 1) s).toStep 8)
    | 8 =>
      if (List.range 24).any (fun m => s.modState m == 1) then .next s
      else .next ((s.wrBit GEN_BOOTSTAT.fd_ok (!s.activeMods.isEmpty)).toStep 9)
    | 9 => .next ((s.bootEngines bad).toStep 10)
    | 10 => .next ((s.bootFib.toStep 11).bootReady)
    | _ => .next s

/-- The bound of a boot step, in ns (*Boot steps*). -/
def stepBound (warm : Bool) (n : Nat) : Nat :=
  let l := if warm then [50, 0, 400000, 200000, 36000, 81000, 20000, 2000, 40000, 250000]
    else [2000, 80000, 400000, 200000, 36000, 81000, 20000, 2000, 40000, 0]
  us ((l[n - 1]?).getD 0)

/-- BOOT_STEP_TIMEOUT (R588): a boot step has not ended 1 s after its bound. -/
def execBootStepTimeout (s : State) : Out :=
  if s.booting ∧ s.elapsed s.pwr.stepAt (stepBound s.pwr.warm (s.rd GEN_BOOTSTAT.step) + ms 1000) then .next (s.cold 6) else .next s

end Sys2Proof.Machine
end

