-- ==== Sys2Proof/Machine/Update.lean ====
section
/-! DEFINITION. Update sessions (13_update.md, R537 to R551, R554): the lock, the messages of the chain, opening a session, storing its
bytes and forwarding them, verification, and the commands that carry an image over PCIe. -/
namespace Sys2Proof.Machine

/-! ### Chain ports and messages (*Chain message*; CHN_A is `false`, CHN_B `true`) -/

/-- A chain port, and one replaced. -/
def State.port (s : State) (b : Bool) : ChainPort := if b then s.upd.chnB else s.upd.chnA
def State.setPort (s : State) (b : Bool) (p : ChainPort) : State :=
  if b then { s with upd := { s.upd with chnB := p } } else { s with upd := { s.upd with chnA := p } }

/-- A chain port is up (R552). -/
def State.chainUp (s : State) (b : Bool) : Bool := s.bit (if b then UPD_CHAIN.b_up else UPD_CHAIN.a_up)

/-- The device number in the last HELLO on a port. -/
def State.peer (s : State) (b : Bool) : Nat := s.rd (if b then UPD_CHAIN.peer_b else UPD_CHAIN.peer_a)

/-- *Chain message*. -/
def chainMsg (type session offset info : Nat) (payload : List Nat) : List Nat :=
  let m := [type, 0] ++ leBytes 2 session ++ leBytes 4 offset ++ leBytes 4 payload.length ++ leBytes 4 info ++ payload
  m ++ leBytes 4 (crc32c m)

/-- Messages leave on a port. -/
def State.chainSend (s : State) (b : Bool) (l : List (List Nat)) : State := s.setPort b { s.port b with out := l }

/-- The sender's session number in a message: the running session's, 0 without one. -/
def State.sessNow (s : State) : Nat := if s.rd UPD_SESS.state = 0 then 0 else s.rd UPD_SESS.session

/-- The BLOCK message for a block held in a forward buffer. -/
def State.blockMsg (s : State) (e : Nat × List Nat) : List Nat := chainMsg 0x05 s.sessNow e.1 0 e.2

/-- Sends the blocks of a forward buffer that the window of 8 allows (R553). -/
def State.sendBlocks (s : State) (b : Bool) : State :=
  let p := s.port b
  let l := (p.buf.take 8).drop p.sent
  if p.fwd ≠ 2 ∨ l.isEmpty then s
  else (s.setPort b { p with sent := min 8 p.buf.length, ackAt := if p.sent = 0 then s.clk else p.ackAt }).chainSend b (l.map s.blockMsg)

/-- A forward buffer is full (R554). -/
def State.fwdFull (s : State) : Bool := [false, true].any (fun b => (s.port b).fwd != 0 && decide (64 ≤ (s.port b).buf.length))

/-- The ports on which a session of a source is forwarded (R554): 0 PCIe, 1 CHN_A, 2 CHN_B. -/
def State.fwdPorts (s : State) (source : Nat) : List Bool :=
  [false, true].filter (fun b => !s.pwr.recovery && s.chainUp b &&
    (if source = 0 then bitOf (s.rd UPD_CFG.pcie_fwd) (b2n b) else s.bit UPD_CFG.chain_fwd && source != b2n b + 1))

/-! ### Sessions (R544, R545) -/

/-- The area that a session writes: the bank that is not confirmed, or the recovery area for a recovery image. In recovery mode the image
goes to bank 0, or to bank 1 when bank 0 is SEALED and passes boot_check (R572). -/
def State.targetOf (s : State) (h : List Nat) : Nat :=
  if s.pwr.recovery then (if s.isSealed 0 && s.bootCheck 0 then 1 else 0)
  else if hdrRecovery h then 2 else 1 - s.record.confirmed

/-- Why an offer is refused, 0 for one that is accepted (R543, R548, R572, R573). -/
def State.offerReason (s : State) (source : Nat) (h : List Nat) : Nat :=
  if !hdrOk h (areaRoom (s.targetOf h)) then 0x90
  else if hdrDelta h && (s.pwr.recovery || !s.baseMatches h) then 0x93
  else if source ≠ 0 ∧ hdrVersion h < s.record.confVer then 0x94
  else 0

/-- The number of the session that the next accepted offer opens: 0 is never used. -/
def State.nextSession (s : State) : Nat := if 65535 ≤ s.record.session then 1 else s.record.session + 1

/-- An accepted offer opens a session (R538, R545): the target's seal sector is erased and a record marks the area UNSEALED; then the offer
goes on along the chain. -/
def State.openSession (s : State) (source : Nat) (h : List Nat) : State :=
  let a := s.targetOf h
  let n := s.nextSession
  let s := (s.norErase (sealAt a) 4096).putRec (fun r => { r with session := n, areas := Tbl.set 0 r.areas a 1 })
  let s := ((((s.wr UPD_SESS.state 1).wr UPD_SESS.source source).wr UPD_SESS.target a).wr UPD_SESS.session n).wr UPD_PROG.bytes 0
  let s := s.inc UPD_SESSCNT.count
  let s := { s with upd := { s.upd with got := [], header := h, byteAt := s.clk } }
  (s.fwdPorts source).foldl (fun s b =>
    (s.setPort b { s.port b with fwd := 1, buf := [], sent := 0, acked := 0, ackAt := s.clk }).chainSend b [chainMsg 0x01 n 0 0 h]) s

/-- A session ends with a reason (R547); one of the recovery window shows it there too. -/
def State.updEnd (s : State) (reason : Nat) : State :=
  let s := if s.pwr.recovery && s.rd UPD_SESS.source == 0 then (s.wr UPD_RSTAT.state 3).wr UPD_RSTAT.reason reason else s
  s.endSession reason

/-- A flash erase or program error in a session (R547). -/
def State.flashFail (s : State) : State := (s.inc UPD_NORERR.count).updEnd 0x9A

/-- Bytes of the container received so far: those of a delta are held, those of a full image stand in the target area. -/
def State.container (s : State) (i n : Nat) : List Nat :=
  if hdrDelta s.upd.header then sliceB s.upd.got i n else s.norBytes (areaBase (s.rd UPD_SESS.target) + i) n

/-- Blocks of 4,096 bytes completed by the bytes from `p` to `q` go into the forward buffers (R554). -/
def State.forwardNew (s : State) (p q : Nat) : State :=
  let n := if q = hdrLength s.upd.header then ceilDiv q 4096 else q / 4096
  let l := ((List.range n).drop (p / 4096)).map (fun k => (4096 * k, s.container (4096 * k) (min 4096 (q - 4096 * k))))
  [false, true].foldl (fun s b =>
    if (s.port b).fwd = 0 then s else (s.setPort b { s.port b with buf := (s.port b).buf ++ l }).sendBlocks b) s

/-- The next bytes of the container arrive (R543, R546, R547): a full image is written where it belongs, the output of a delta's patch stream
from offset 0 of the target bank. -/
def State.storeBytes (s : State) (b : List Nat) (flashErr : Bool) : State :=
  let a := s.rd UPD_SESS.target
  let p := s.rd UPD_PROG.bytes
  if flashErr then s.flashFail
  else
    let base := s.imageIn s.record.confirmed
    let s := s.wr UPD_PROG.bytes (p + b.length)
    let u := s.upd
    let got := u.got ++ b
    let out := patchOf base got
    if hdrDelta u.header then
      if out.bad then s.updEnd 0x96
      else ({ s with upd := { u with got := got, byteAt := s.clk, nor := norPut u.nor (areaBase a) out.out } }).forwardNew p (p + b.length)
    else ({ s with upd := { u with byteAt := s.clk, nor := norPut u.nor (areaBase a + p) b } }).forwardNew p (p + b.length)

/-! ### Verification (R549 to R551) -/

/-- Every byte of the container has arrived. -/
def State.allThere (s : State) : Bool := s.rd UPD_PROG.bytes == hdrLength s.upd.header

/-- Verification ends: the area is sealed and marked, and the session is VERIFIED; or the session ends with the first reason. In recovery mode
the record also names the bank confirmed, and DONE shows (R572, R573). -/
def State.verifyEnd (s : State) (flashErr : Bool) : State :=
  let a := s.rd UPD_SESS.target
  let (r, full) := s.verifyReason (s.container 0 (s.rd UPD_PROG.bytes)) (s.imageIn s.record.confirmed) (areaRoom a)
  if r ≠ 0 then s.updEnd r
  else if flashErr then s.flashFail
  else
    let ver := hdrVersion full
    let s := { s with upd := { s.upd with nor := norPut s.upd.nor (sealAt a) (sealBytes ver full.length (sha384 full)), heldAt := s.clk } }
    let s := if s.pwr.recovery then
        let s := s.putRec (fun r => { r with areas := Tbl.set 0 r.areas a 2, confirmed := a, confVer := ver, bootFails := 0, trial := none, trialVer := 0 })
        let s := (s.wr UPD_RSTAT.state 4).wr UPD_RSTAT.reason 0
        { s with upd := { s.upd with doneAt := s.clk } }
      else s.markArea a 2
    (s.wr UPD_SESS.state 3).post 0x0D02 (leBytes 2 (s.rd UPD_SESS.session) ++ [a, 0] ++ leBytes 4 ver)

/-- VERIFICATION_DONE (R549 to R551): the verification that runs ends; `flashErr` says that writing the seal sector fails. -/
def execVerificationDone (flashErr : Bool) (s : State) : Out :=
  if s.rd UPD_SESS.state = 2 then .next (s.verifyEnd flashErr) else .next s

/-- SESSION_IDLE_EXPIRE (R546): a session in DOWNLOADING has received no byte for idle_s. -/
def execSessionIdleExpire (s : State) : Out :=
  if s.rd UPD_SESS.state = 1 ∧ s.elapsed s.upd.byteAt (ms (1000 * s.rd UPD_CFG.idle_s)) then .next (s.updEnd 0x9D) else .next s

/-- VERIFIED_HOLD_EXPIRE (R546): a session has stayed VERIFIED for hold_min. -/
def execVerifiedHoldExpire (s : State) : Out :=
  if s.rd UPD_SESS.state = 3 ∧ !s.pwr.recovery ∧ s.elapsed s.upd.heldAt (ms (60000 * s.rd UPD_HOLD.hold_min)) then .next (s.updEnd 0x9D)
  else .next s

/-! ### Over PCIe (*Update commands*) -/

/-- BUSY of a UPD opcode: the running session's source in detail bits 31:30 and its number in bits 23:8. -/
def State.updBusy (s : State) (r code : Nat) : State :=
  s.finBusy r (s.rd UPD_SESS.source * 2 ^ 30 + s.rd UPD_SESS.session * 256 + code)

/-- DONE of UPD_OFFER: the session number in detail bits 23:8. -/
def State.finOffer (s : State) (r : Nat) : State := s.finish r { status := .done, detail := s.rd UPD_SESS.session * 256, progress := 1 }

/-- UPD_OFFER (R543 to R545, R547, R561): the first valid offer takes the lock. `flashErr` says that erasing the seal sector fails. -/
def execUpdOffer (flashErr : Bool) (s : State) : Out :=
  match s.running 0x48 with
  | none => .next s
  | some (r, t) =>
    if t.f 24 4 ≠ 160 then .next (s.finRefused r dBAD_OPERAND)
    else if s.rd UPD_SESS.state ≠ 0 then .next (s.updBusy r dIN_USE)
    else if !s.dmaOk then .next s
    else
      let h := s.dmaRead (t.f 16 8) 160
      let d := s.offerReason 0 h
      if d ≠ 0 then .next (s.finRefused r d)
      else if flashErr then .next ((s.inc UPD_NORERR.count).finRefused r 0x9A)
      else .next ((s.openSession 0 h).finOffer r)

/-- Whether a block of `len` bytes for image offset `off` may be taken, `k` of its entries being stored. -/
def State.blockOk (s : State) (off len k : Nat) : Bool :=
  let total := hdrLength s.upd.header
  off + 64 * k == s.rd UPD_PROG.bytes && decide (len ≤ 2 ^ 24) && decide (off + len ≤ total) && (len % 64 == 0 || off + len == total)

/-- A bulk descriptor that stops: REFUSED before its first entry, PARTIAL after it. -/
def State.bulkStop (s : State) (r k d : Nat) : State := if k = 0 then s.finRefused r d else s.finishTok r .partial_ d k 0

/-- Up to `n` further 64-byte entries of UPD_BLOCK; `flashErr` says that programming the first fails. A full forward buffer holds the block
back. -/
def updBlocks (r : Nat) : Nat → Bool → State → State
  | 0, _, s => s
  | n + 1, flashErr, s =>
    match (s.ring r).taken with
    | none => s
    | some t =>
      let k := t.progress
      let len := t.f 28 4
      if s.rd UPD_SESS.state ≠ 0 ∧ s.rd UPD_SESS.source ≠ 0 then (if k = 0 then s.updBusy r dIN_USE else s.bulkStop r k 0x99)
      else if s.rd UPD_SESS.state ≠ 1 then s.bulkStop r k 0x99
      else if !s.blockOk (t.f 24 4) len k then s.bulkStop r k 0x97
      else if len ≤ 64 * k then s.finish r { status := .done, detail := 0, progress := k }
      else if s.fwdFull then s
      else
        let s := s.storeBytes (s.dmaRead (t.f 16 8 + 64 * k) (min 64 (len - 64 * k))) flashErr
        if s.rd UPD_SESS.state ≠ 1 then s.finishTok r .partial_ (s.rd UPD_SESS.reason) k 0
        else
          let s := s.stepEntry r
          if len ≤ 64 * (k + 1) then s.finish r { status := .done, detail := 0, progress := k + 1 } else updBlocks r n false s

/-- UPD_BLOCK (R547): image bytes of the PCIe session. -/
def execUpdBlock (n : Nat) (flashErr : Bool) (s : State) : Out :=
  match s.running 0x49 with
  | none => .next s
  | some (r, _) => if s.dmaOk then .next (updBlocks r n flashErr s) else .next s

/-- UPD_VERIFY (R549): verification of the PCIe session starts. -/
def execUpdVerify (s : State) : Out :=
  match s.running 0x4A with
  | none => .next s
  | some (r, t) =>
    let st := s.rd UPD_SESS.state
    if st = 0 ∨ s.rd UPD_SESS.source ≠ 0 ∨ t.f 16 4 ≠ s.rd UPD_SESS.session then .next (s.finRefused r 0x99)
    else if st ≠ 1 ∨ !s.allThere then .next (s.finRefused r dBAD_OPERAND)
    else .next ((s.wr UPD_SESS.state 2).finDone r)

end Sys2Proof.Machine
end

