-- ==== Sys2Proof/Machine/Castling.lean ====
section
/-! DEFINITION. Activation by castling, trial, confirmation and revert (13_update.md, R556 to R567). -/
namespace Sys2Proof.Machine

/-! ### Castling (R557, R567) -/

/-- Targets of the components of a kind in an image. -/
def targetsOf (img : List Nat) (kind : Nat) : Nat :=
  ((partsOf img).filter (fun p => p.kind == kind)).foldl (fun m p => Nat.lor m p.target) 0

/-- Lane groups of a SERDES_FW target: line octets 0 to 15, fabric links at 16, chain ports at 64 (R560). -/
def laneGroups (mask : Nat) : List Nat :=
  (if bitOf mask 0 then List.range 16 else []) ++ (if bitOf mask 1 then (List.range 48).map (16 + ·) else []) ++
    (if bitOf mask 2 then [64, 65] else [])

/-- A lane group as UPD_SERDES_KEPT carries it: kind and index. -/
def groupName (g : Nat) : List Nat := if g < 16 then [0, g] else if g < 64 then [1, g - 16] else [2, g - 64]

/-- Step 1: a record names the trial bank, or in a revert none, and the steps begin. -/
def State.castleStart (s : State) (revert : Bool) (cause : Nat) : State :=
  let a := s.rd UPD_SESS.target
  let img := s.imageIn a
  let k : Castle :=
    { step := 1, revert := revert, cause := cause
      clusters := if revert then s.upd.displaced.map (·.1) else clustersOf (targetsOf img 2)
      groups := if revert then s.upd.serdes else laneGroups (targetsOf img 3) }
  let s := s.putRec (fun r => if revert then { r with trial := none, trialVer := 0 } else { r with trial := some a, trialVer := hdrVersion img })
  let s := s.wr UPD_SESS.state (if revert then 6 else 4)
  { s with upd := { s.upd with castle := some k } }

/-- The cluster that step 8 serves next: EGRESS clusters first, then INGRESS, each in cluster order; a cluster that is OFF takes no ply and comes
last. -/
def State.nextCluster (s : State) (l : List Nat) : Option Nat :=
  match l.find? (fun c => s.rd (ENG_CLSTAT.role_now c) == 1) with
  | some c => some c
  | none => match l.find? (fun c => s.rd (ENG_CLSTAT.role_now c) == 0) with
    | some c => some c
    | none => l.head?

/-- A flip of step 8, at the next dispatch (R93): the bank left drains, or holds no program if it held none. -/
def State.castleFlip (s : State) (c : Nat) : State :=
  let b := s.rd (ENG_BANKCTL.live_bank c)
  let s := if s.rd (bankState c b) = 3 then s.wr (bankState c b) 4 else s
  let s := if s.rd (bankState c (1 - b)) = 2 then s.wr (bankState c (1 - b)) 3 else s
  (s.wr (ENG_BANKCTL.flip c) 0).wr (ENG_BANKCTL.live_bank c) (1 - b)

/-- A cluster takes the session's program into its idle bank and flips (R559). -/
def State.castleLoad (s : State) (c : Nat) : State :=
  let img := s.imageIn (s.rd UPD_SESS.target)
  let b := s.rd (ENG_BANKCTL.live_bank c)
  let s := (s.abandonTest 1 (· == c)).abandonTest 2 (· == c + 256 * (1 - b))
  match (partsOf img).find? (fun p => p.kind == 2 && bitOf p.target c) with
  | none => s
  | some p =>
    let s := s.loadBank c (1 - b) 2 p.version (bundlesOf (p.bytes img))
    let s := { s with upd := { s.upd with displaced := Tbl.set 0 s.upd.displaced c (b + 1) } }
    s.castleFlip c

/-- A cluster flips back to its displaced bank without loading (R567). -/
def State.castleBack (s : State) (c : Nat) : State :=
  if Tbl.get 0 s.upd.displaced c = s.rd (ENG_BANKCTL.live_bank c) + 1 then s else s.castleFlip c

/-- A bank of a cluster still runs the plies dispatched on it. -/
def State.drains (s : State) (c : Nat) : Bool := [0, 1].any (fun b => s.rd (bankState c b) == 4)

/-- Step 10 (R557, R563, R566): the new image is on trial. -/
def State.castleTrial (s : State) : State :=
  let img := s.imageIn (s.rd UPD_SESS.target)
  let s := (s.wr UPD_SESS.state 5).wr UPD_SESS.reason 0
  let s := { s with upd := { s.upd with castle := none, trialAt := s.clk } }
  (s.wrBit UPD_BOOT.settings_frozen (hdrFmt img != s.record.fmt)).post 0x0D03
    (leBytes 2 (s.rd UPD_SESS.session) ++ leBytes 2 (s.rd UPD_CFG.trial_min) ++ leBytes 4 (hdrVersion img))

/-- The end of a revert (R567). -/
def State.castleReverted (s : State) (cause : Nat) : State :=
  (s.sessionIdle.inc UPD_REVERTCNT.count).post 0x0D05 ([cause, 0, 0, 0] ++ leBytes 4 s.record.confVer)

/-- Castling as it stands after a step. -/
def State.setCastle (s : State) (k : Castle) : State := { s with upd := { s.upd with castle := some k } }

/-- Steps 1 to 7 of *Castling*: the seats. `ok` says that the load, self-test or conversion of the step passes. -/
def State.castleSeats (s : State) (k : Castle) (ok : Bool) : State :=
  let b := k.seat == 1
  match k.step with
  | 1 => s.setCastle { k with step := 2 }
  | 2 =>
    match [false, true].find? (fun b => s.seatIs b == 3 && s.seatIs (!b) == 4) with
    | none => s
    | some b =>
      if s.res.checking.isSome then s
      else ((s.seatLoad b (!k.revert)).setCastle { k with step := 3, seat := b2n b }).release2
  | 3 => if ok then s.setCastle { k with step := 4 } else s.castleFault b false
  | 4 => if ok then (s.replayJournal b).setCastle { k with step := 5 } else s.castleFault b false
  | 5 =>
    if s.seatIs (!b) ≠ 4 then s
    else
      let s := (s.seatLoad (!b) (!k.revert)).seatTo b 4
      let s := { s with res := { s.res with ckptAt := s.clk, islandAt := s.clk, handover := false } }
      (s.setCastle { k with step := 6 })
  | 6 =>
    match [false, true].find? (fun x => s.seatIs x == 1) with
    | none => s
    | some x =>
      if !ok then s.seatOut x false 4
      else if (s.inRole 4).isNone then
        let s := s.seatTo x 4
        { s.setCastle { k with step := 8 } with res := { s.res with islandAt := s.clk } }
      else (s.seatTo x 2).setCastle { k with step := 7 }
  | _ =>
    match [false, true].find? (fun x => s.seatIs x == 2) with
    | none => s
    | some x => (s.enterStep x).setCastle { k with step := 8 }

/-- Steps 8 to 10: one cluster, then one lane group at a time. `ok` says that a lane group's controller starts its new firmware within 2 ms. -/
def State.castleParts (s : State) (k : Castle) (ok : Bool) : State :=
  match k.step with
  | 8 =>
    if s.upd.displaced.any (fun (e : Nat × Nat) => s.drains e.1) then s
    else match s.nextCluster k.clusters with
      | none => s.setCastle { k with step := 9 }
      | some c =>
        if s.drains c ∨ (!k.revert ∧ s.rd (bankState c (1 - s.rd (ENG_BANKCTL.live_bank c))) = 1) then s
        else (if k.revert then s.castleBack c else s.castleLoad c).setCastle { k with clusters := k.clusters.filter (· != c) }
  | _ =>
    match k.groups with
    | [] => if k.revert then s.castleReverted k.cause else s.castleTrial
    | g :: r =>
      let s := s.setCastle { k with groups := r }
      if !ok then s.post 0x0D08 (groupName g)
      else if k.revert then { s with upd := { s.upd with serdes := s.upd.serdes.filter (· != g) } }
      else { s with upd := { s.upd with serdes := insNat g s.upd.serdes } }

/-- CASTLING_STEP_COMPLETE (R557 to R562, R567): the step of castling or of a revert in progress ends, or serves its next cluster or lane group;
`ok` false means that its element fails. -/
def execCastlingStepComplete (ok : Bool) (s : State) : Out :=
  match s.upd.castle with
  | none => .next s
  | some k => .next (if k.step < 8 then s.castleSeats k ok else s.castleParts k ok)

/-! ### Commands -/

/-- The session that a command names is not the running one. -/
def State.wrongSession (s : State) (t : Taken) : Bool := s.rd UPD_SESS.state == 0 || t.f 16 4 != s.rd UPD_SESS.session

/-- Why castling cannot start now (R556); 0 when it can. -/
def State.castleBusy (s : State) : Nat :=
  let is := fun n => [false, true].any (fun b => s.seatIs b == n)
  if !is 3 then dLIVE_RESOURCE
  else if is 1 || is 2 || is 7 then dIN_USE
  else if (List.range 24).any (fun c => [0, 1].any (fun b => s.rd (bankState c b) == 1)) then dIN_USE
  else if s.res.repair.isSome then dIN_USE
  else 0

/-- UPD_ACTIVATE (R556, R557). -/
def execUpdActivate (s : State) : Out :=
  match s.running 0x4B with
  | none => .next s
  | some (r, t) =>
    if s.wrongSession t then .next (s.finRefused r 0x99)
    else if s.rd UPD_SESS.state ≠ 3 then .next (s.finRefused r 0x98)
    else if s.rd UPD_SESS.target = 2 then .next (s.finRefused r 0x95)
    else if s.castleBusy ≠ 0 then .next (s.updBusy r s.castleBusy)
    else .next ((s.castleStart false 0).finDone r)

/-- The slots that a confirmation revokes: those the image names, except one that signed it (R565). -/
def revokes (img : List Nat) : Nat := putBits (hdrRevoke img) (leAt (sigBlock img) 4 1) 1 0

/-- The trial image becomes the confirmed one (R565, R566). -/
def State.confirm (s : State) : State :=
  let a := s.rd UPD_SESS.target
  let img := s.imageIn a
  let ver := hdrVersion img
  let old := s.record.fmt
  let new := hdrFmt img
  let gone := revokes img
  let s := s.putRec (fun r =>
    let r := { r with confirmed := a, trial := none, trialVer := 0, confVer := ver, fmt := new }
    if new ≠ old then { r with settings := [], links := [], delays := [] } else r)
  let s := s.wr UPD_KEYS.revoked (Nat.lor (s.rd UPD_KEYS.revoked) gone)
  let s := s.sessionIdle.post 0x0D04 ([gone % 16, 0, 0, 0] ++ leBytes 4 ver)
  if new ≠ old then (s.wr UPD_BOOT.settings_reset 1).post 0x0D06 (leBytes 2 old ++ leBytes 2 new) else s

/-- UPD_CONFIRM (R565, R566). -/
def execUpdConfirm (s : State) : Out :=
  match s.running 0x4C with
  | none => .next s
  | some (r, t) =>
    if s.rd UPD_SESS.state ≠ 5 then .next (s.finRefused r 0x9B)
    else if s.wrongSession t then .next (s.finRefused r 0x99)
    else .next (s.confirm.finDone r)

/-- UPD_ABORT (R547, R567): a session in TRIAL reverts; castling and a revert are not stopped. -/
def execUpdAbort (s : State) : Out :=
  match s.running 0x4D with
  | none => .next s
  | some (r, t) =>
    if s.wrongSession t then .next (s.finRefused r 0x99)
    else
      match s.rd UPD_SESS.state with
      | 4 => .next (s.updBusy r dIN_USE)
      | 6 => .next (s.updBusy r dIN_USE)
      | 5 => .next ((s.castleStart true 1).finDone r)
      | _ => .next ((s.updEnd 0x9E).finDone r)

/-- TRIAL_EXPIRE (R563): the trial timer has run for trial_min. -/
def execTrialExpire (s : State) : Out :=
  if s.rd UPD_SESS.state = 5 ∧ s.elapsed s.upd.trialAt (ms (60000 * s.rd UPD_CFG.trial_min)) then .next (s.castleStart true 0) else .next s

/-- ENG_LOAD and ENG_FLIP that name a displaced bank or a cluster not yet flipped are BUSY (R561). -/
def State.castleHolds (s : State) (c b : Nat) : Bool :=
  let waiting : Bool := match s.upd.castle with
    | some k => k.clusters.contains c
    | none => false
  waiting || Tbl.get 0 s.upd.displaced c == b + 1

end Sys2Proof.Machine
end

