-- ==== Sys2Proof/Machine/Chain.lean ====
section
/-! DEFINITION. Updates along the chain (13_update.md, R544, R552 to R555, R573): the messages received on a chain port, and its timers. -/
namespace Sys2Proof.Machine

/-- Chain ports carry messages: the device is ready, or in recovery mode a SEALED recovery area passes boot_check (R573). -/
def State.chainOn (s : State) : Bool := s.bit GEN_BOOTSTAT.ready || (s.pwr.recovery && s.isSealed 2 && s.bootCheck 2)

/-- Fields of *Chain message*. -/
def msgType (m : List Nat) : Nat := leAt m 0 1
def msgSession (m : List Nat) : Nat := leAt m 2 2
def msgOffset (m : List Nat) : Nat := leAt m 4 4
def msgLength (m : List Nat) : Nat := leAt m 8 4
def msgInfo (m : List Nat) : Nat := leAt m 12 4
def msgPayload (m : List Nat) : List Nat := sliceB m 16 (msgLength m)

/-- The check of a message, over as many bytes as its length says. -/
def msgOk (m : List Nat) : Bool :=
  decide (msgLength m ≤ 4096) && m.length == 20 + msgLength m && leAt m (m.length - 4) 4 == crc32c (m.take (m.length - 4))

/-- A message received: one with a bad check is discarded and counted (R552). -/
def State.chainRx (s : State) (m : List Nat) (type : Nat) (f : State → State) : State :=
  if !s.chainOn then s
  else if !msgOk m then s.inc UPD_CHNCRC.count
  else if msgType m = type then f s else s

/-- An offer may be taken on a port (R552, R573). -/
def State.rxAllowed (s : State) (b : Bool) : Bool := s.pwr.recovery || bitOf (s.rd UPD_CFG.chain_rx) (b2n b)

/-- The header that an OFFER carries, and why it is refused, 0 for one that is accepted. -/
def offerHeader (m : List Nat) : List Nat := sliceB (msgPayload m) 0 160
def State.chainReason (s : State) (b : Bool) (m : List Nat) : Nat :=
  if msgLength m = 160 then s.offerReason (b2n b + 1) (offerHeader m) else 0x90

/-- The offer over PCIe in service is one that would be accepted. -/
def State.pcieOffer (s : State) : Bool :=
  match s.running 0x48 with
  | none => false
  | some (_, t) => t.f 24 4 == 160 && s.dmaOk && s.offerReason 0 (s.dmaRead (t.f 16 8) 160) == 0

/-- The source of an offer of this cycle that goes before one on chain port `b` (R544): PCIe, then CHN_A, then CHN_B. What waits in the queue
of commands is of the same cycle. -/
def State.offerFirst (s : State) (b : Bool) : Option Nat :=
  if s.pcieOffer && s.pending.any (fun c => match c with | .updOffer e => !e | _ => false) then some 0
  else if b && s.rxAllowed false && s.pending.any (fun c => match c with
    | .chainOffer false m e => !e && msgOk m && msgType m == 1 && s.chainReason false m == 0
    | _ => false) then some 1
  else none

/-- BUSY to the upstream device of a chain port: the source and number of the session that holds the lock. -/
def State.chainBusy (s : State) (b : Bool) (source session : Nat) : State :=
  s.chainSend b [chainMsg 0x03 s.sessNow 0 (source * 2 ^ 30 + session) []]

/-- CHAIN_OFFER (R544, R545, R548, R554): an OFFER on a port opens a session, or is answered BUSY or REFUSE. -/
def execChainOffer (b : Bool) (m : List Nat) (flashErr : Bool) (s : State) : Out := .next (s.chainRx m 0x01 (fun s =>
  if !s.rxAllowed b then s
  else if s.rd UPD_SESS.state ≠ 0 then s.chainBusy b (s.rd UPD_SESS.source) (s.rd UPD_SESS.session)
  else
    let d := s.chainReason b m
    if d ≠ 0 then s.chainSend b [chainMsg 0x04 0 0 d []]
    else match s.offerFirst b with
      | some src => s.chainBusy b src s.nextSession
      | none =>
        if flashErr then (s.inc UPD_NORERR.count).chainSend b [chainMsg 0x04 0 0 0x9A []]
        else
          let s := s.openSession (b2n b + 1) (offerHeader m)
          s.chainSend b [chainMsg 0x02 s.sessNow 0 0 []]))

/-- The session's upstream port is sent an ACK with the next offset expected (R553). -/
def State.sendAck (s : State) : State :=
  let src := s.rd UPD_SESS.source
  let s := { s with upd := { s.upd with ackOwed := false } }
  if src = 0 then s else s.chainSend (src == 2) [chainMsg 0x06 s.sessNow (s.rd UPD_PROG.bytes) 0 []]

/-- Room in the forward buffers lets a withheld ACK go (R554). -/
def State.ackIfOwed (s : State) : State := if s.upd.ackOwed && !s.fwdFull then s.sendAck else s

/-- A chain session is DOWNLOADING from a port. -/
def State.chainDown (s : State) (b : Bool) : Bool := s.rd UPD_SESS.state == 1 && s.rd UPD_SESS.source == b2n b + 1

/-- CHAIN_BLOCK (R549, R553, R554): a BLOCK at the expected offset is written, placed in the forward buffer and acknowledged; any other is
discarded. At the last block the session verifies by itself. -/
def execChainBlock (b : Bool) (m : List Nat) (flashErr : Bool) (s : State) : Out := .next (s.chainRx m 0x05 (fun s =>
  if !s.chainDown b ∨ msgOffset m ≠ s.rd UPD_PROG.bytes ∨ hdrLength s.upd.header < msgOffset m + msgLength m ∨ s.fwdFull then s
  else
    let s := s.storeBytes (msgPayload m) flashErr
    if s.rd UPD_SESS.state ≠ 1 then s
    else
      let s := s.inc (if b then UPD_CHNRXB.count else UPD_CHNRXA.count)
      let s := if s.fwdFull then { s with upd := { s.upd with ackOwed := true } } else s.sendAck
      if s.allThere then s.wr UPD_SESS.state 2 else s))

/-- Forwarding on a port stops (R555). -/
def State.stopFwd (s : State) (b : Bool) : State := (s.setPort b { s.port b with fwd := 0, buf := [], sent := 0 }).ackIfOwed

/-- CHAIN_ACCEPT (R554): the downstream device takes the session, and blocks go to it. -/
def execChainAccept (b : Bool) (m : List Nat) (s : State) : Out := .next (s.chainRx m 0x02 (fun s =>
  if (s.port b).fwd = 1 then (s.setPort b { s.port b with fwd := 2, ackAt := s.clk }).sendBlocks b else s))

/-- UPD_CHAIN_REFUSED for a port: the answer, 0 REFUSE or 1 BUSY, with its reason or the session that runs downstream (R555). -/
def State.chainRefused (s : State) (b : Bool) (answer : Nat) (m : List Nat) : State :=
  let i := msgInfo m
  let l := if answer = 0 then [i % 256, 0] ++ leBytes 2 (s.peer b) ++ [0, 0, 0] else [0, 0] ++ leBytes 2 (s.peer b) ++ leBytes 2 (i % 65536) ++ [bitsAt i 30 2]
  if (s.port b).fwd = 0 then s else (s.stopFwd b).post 0x0D09 ([b2n b, answer] ++ l)

/-- CHAIN_REFUSE (R555). -/
def execChainRefuse (b : Bool) (m : List Nat) (s : State) : Out := .next (s.chainRx m 0x04 (fun s => s.chainRefused b 0 m))

/-- CHAIN_BUSY (R555). -/
def execChainBusy (b : Bool) (m : List Nat) (s : State) : Out := .next (s.chainRx m 0x03 (fun s => s.chainRefused b 1 m))

/-- CHAIN_ACK (R553): the window advances to the offset acknowledged, and further blocks go out. -/
def execChainAck (b : Bool) (m : List Nat) (s : State) : Out := .next (s.chainRx m 0x06 (fun s =>
  let p := s.port b
  let n := ((p.buf.take p.sent).filter (fun e => decide (e.1 + e.2.length ≤ msgOffset m))).length
  let known := (p.buf.take p.sent).any (fun e => e.1 + e.2.length == msgOffset m)
  if p.fwd ≠ 2 ∨ !known then s
  else ((s.setPort b { p with buf := p.buf.drop n, sent := p.sent - n, acked := msgOffset m, ackAt := s.clk }).sendBlocks b).ackIfOwed))

/-- CHAIN_ABORT (R555, R567): an ABORT from upstream ends the session and is passed downstream; as under UPD_ABORT, one in TRIAL reverts, and
castling is not stopped. -/
def execChainAbort (b : Bool) (m : List Nat) (s : State) : Out := .next (s.chainRx m 0x07 (fun s =>
  let st := s.rd UPD_SESS.state
  if s.rd UPD_SESS.source ≠ b2n b + 1 ∨ st = 0 ∨ st = 4 ∨ st = 6 then s
  else
    let down := [false, true].filter (fun x => (s.port x).fwd != 0)
    let s := down.foldl (fun s x => s.chainSend x [chainMsg 0x07 s.sessNow 0 0 []]) s
    if st = 5 then s.castleStart true 1 else s.updEnd 0x9E))

/-- CHAIN_HELLO (R552): a HELLO with a good check brings or keeps a port up and names the neighbour. -/
def execChainHello (b : Bool) (m : List Nat) (s : State) : Out := .next (s.chainRx m 0x09 (fun s =>
  let s := (s.wr (if b then UPD_CHAIN.b_up else UPD_CHAIN.a_up) 1).wr (if b then UPD_CHAIN.peer_b else UPD_CHAIN.peer_a) (msgInfo m % 2048)
  s.setPort b { s.port b with heardAt := s.clk }))

/-- CHAIN_HELLO_SEND (R552): a port sends its HELLO every 1 ms. -/
def execChainHelloSend (b : Bool) (s : State) : Out :=
  let p := s.port b
  if s.chainOn ∧ s.elapsed p.sentAt (ms 1) then
    let info := s.rd QM_CFG.dev_id + s.record.confVer % 65536 * 65536
    .next ((s.setPort b { p with sentAt := s.clk }).chainSend b [chainMsg 0x09 s.sessNow 0 info []])
  else .next s

/-- CHAIN_PORT_DOWN (R552): a port has heard no HELLO for 10 ms. -/
def execChainPortDown (b : Bool) (s : State) : Out :=
  if s.chainUp b ∧ s.elapsed (s.port b).heardAt (ms 10) then .next (s.wr (if b then UPD_CHAIN.b_up else UPD_CHAIN.a_up) 0) else .next s

/-- CHAIN_RETRANSMIT (R553): ACK has not advanced for 1 ms, and the blocks from the last acknowledged offset go out again. -/
def execChainRetransmit (b : Bool) (s : State) : Out :=
  let p := s.port b
  if p.fwd = 2 ∧ 0 < p.sent ∧ s.elapsed (max p.ackAt p.retryAt) (ms 1) then
    let s := s.addSat UPD_CHNRETX.count p.sent
    .next ((s.setPort b { p with retryAt := s.clk }).chainSend b ((p.buf.take p.sent).map s.blockMsg))
  else .next s

/-- CHAIN_FORWARD_TIMEOUT (R555): the downstream device has made no ACK progress for idle_s; forwarding stops, and it is sent ABORT. -/
def execChainForwardTimeout (b : Bool) (s : State) : Out :=
  let p := s.port b
  if (p.fwd = 1 ∨ (p.fwd = 2 ∧ 0 < p.sent)) ∧ s.elapsed p.ackAt (ms (1000 * s.rd UPD_CFG.idle_s)) then
    let s := (s.stopFwd b).chainSend b [chainMsg 0x07 s.sessNow 0 0 []]
    .next (s.post 0x0D0A ([b2n b, 0, 0, 0] ++ leBytes 2 (s.peer b) ++ [0, 0] ++ leBytes 4 p.acked))
  else .next s

end Sys2Proof.Machine
end

