-- ==== Sys2Proof/Machine/EngineOps.lean ====
section
/-! DEFINITION. The operations of engine programs (02_packet_engines.md, *Opcodes*): one meaning per operation. Each acts on ply `ply`
when the next operation of that ply is the one named. -/
namespace Sys2Proof.Machine

/-- NOP: no effect; a bundle without a valid slot is issued as one. -/
def execNop (ply : Nat) (s : State) : Out := .next (s.issueOp 0x00 ply (fun _ _ _ i => i))

/-- ADD: ra plus B, modulo 2^64. -/
def execAdd (ply : Nat) (s : State) : Out := .next (s.issueOp 0x01 ply (alu2 (· + ·)))

/-- SUB: ra minus B, modulo 2^64. -/
def execSub (ply : Nat) (s : State) : Out := .next (s.issueOp 0x02 ply (alu2 (· - ·)))

/-- AND: ra and B. -/
def execAnd (ply : Nat) (s : State) : Out := .next (s.issueOp 0x03 ply (alu2 (· &&& ·)))

/-- OR: ra or B. -/
def execOr (ply : Nat) (s : State) : Out := .next (s.issueOp 0x04 ply (alu2 (· ||| ·)))

/-- XOR: ra xor B. -/
def execXor (ply : Nat) (s : State) : Out := .next (s.issueOp 0x05 ply (alu2 (· ^^^ ·)))

/-- ANDN: ra and not B. -/
def execAndn (ply : Nat) (s : State) : Out := .next (s.issueOp 0x06 ply (alu2 (fun a b => a &&& ~~~b)))

/-- MOV: B. -/
def execMov (ply : Nat) (s : State) : Out := .next (s.issueOp 0x07 ply (alu2 (fun _ b => b)))

/-- MINU: the unsigned minimum. -/
def execMinu (ply : Nat) (s : State) : Out := .next (s.issueOp 0x08 ply (alu2 (fun a b => if a.toNat ≤ b.toNat then a else b)))

/-- MAXU: the unsigned maximum. -/
def execMaxu (ply : Nat) (s : State) : Out := .next (s.issueOp 0x09 ply (alu2 (fun a b => if a.toNat ≤ b.toNat then b else a)))

/-- MUL: the low 64 bits of ra times B. -/
def execMul (ply : Nat) (s : State) : Out := .next (s.issueOp 0x0A ply (alu2 (· * ·)))

/-- CLZ: the count of leading zero bits of ra. -/
def execClz (ply : Nat) (s : State) : Out := .next (s.issueOp 0x0B ply (alu2 (fun a _ => BitVec.ofNat 64 (clz64 a))))

/-- POPC: the count of 1 bits of ra. -/
def execPopc (ply : Nat) (s : State) : Out := .next (s.issueOp 0x0C ply (alu2 (fun a _ => BitVec.ofNat 64 (popCount 64 a.toNat))))

/-- BSWAP: the low B bytes of ra reversed. -/
def execBswap (ply : Nat) (s : State) : Out := .next (s.issueOp 0x0D ply (alu2 (fun a b => bswap a b.toNat)))

/-- SHL: ra shifted left by B bits 5:0. -/
def execShl (ply : Nat) (s : State) : Out := .next (s.issueOp 0x20 ply (alu2 (fun a b => a <<< (b.toNat % 64))))

/-- SHR: ra shifted right logically by B bits 5:0. -/
def execShr (ply : Nat) (s : State) : Out := .next (s.issueOp 0x21 ply (alu2 (fun a b => a >>> (b.toNat % 64))))

/-- SAR: ra shifted right arithmetically by B bits 5:0. -/
def execSar (ply : Nat) (s : State) : Out := .next (s.issueOp 0x22 ply (alu2 (fun a b => a.sshiftRight (b.toNat % 64))))

/-- ROL: ra rotated left by B bits 5:0. -/
def execRol (ply : Nat) (s : State) : Out := .next (s.issueOp 0x23 ply (alu2 (fun a b => a.rotateLeft (b.toNat % 64))))

/-- EXTU: an unsigned bit field of ra. -/
def execExtu (ply : Nat) (s : State) : Out := .next (s.issueOp 0x24 ply (aluOp (fun p o => extu (p.reg o.ra) o.pos o.len)))

/-- EXTS: a sign-extended bit field of ra. -/
def execExts (ply : Nat) (s : State) : Out := .next (s.issueOp 0x25 ply (aluOp (fun p o => exts (p.reg o.ra) o.pos o.len)))

/-- INS: a field of rd replaced by the low bits of ra. -/
def execIns (ply : Nat) (s : State) : Out := .next (s.issueOp 0x26 ply (aluOp (fun p o => insBits (p.reg o.rd) (p.reg o.ra) o.pos o.len)))

/-- HMIX: the CRC-32C of ra then B in network order. -/
def execHmix (ply : Nat) (s : State) : Out := .next (s.issueOp 0x27 ply (alu2 (fun a b => BitVec.ofNat 64 (crc32c (netBytes a ++ netBytes b)))))

/-- CEQ: pd gets ra equal to B. -/
def execCeq (ply : Nat) (s : State) : Out := .next (s.issueOp 0x30 ply (cmpOp 0x30))

/-- CNE: pd gets ra not equal to B. -/
def execCne (ply : Nat) (s : State) : Out := .next (s.issueOp 0x31 ply (cmpOp 0x31))

/-- CLTU: pd gets ra below B, unsigned. -/
def execCltu (ply : Nat) (s : State) : Out := .next (s.issueOp 0x32 ply (cmpOp 0x32))

/-- CLEU: pd gets ra at or below B, unsigned. -/
def execCleu (ply : Nat) (s : State) : Out := .next (s.issueOp 0x33 ply (cmpOp 0x33))

/-- CLTS: pd gets ra below B, signed. -/
def execClts (ply : Nat) (s : State) : Out := .next (s.issueOp 0x34 ply (cmpOp 0x34))

/-- CLES: pd gets ra at or below B, signed. -/
def execCles (ply : Nat) (s : State) : Out := .next (s.issueOp 0x35 ply (cmpOp 0x35))

/-- CBIT: pd gets bit B bits 5:0 of ra. -/
def execCbit (ply : Nat) (s : State) : Out := .next (s.issueOp 0x36 ply (cmpOp 0x36))

/-- PAND: pd gets pa and pb. -/
def execPand (ply : Nat) (s : State) : Out := .next (s.issueOp 0x37 ply (predOp (· && ·)))

/-- POR: pd gets pa or pb. -/
def execPor (ply : Nat) (s : State) : Out := .next (s.issueOp 0x38 ply (predOp (· || ·)))

/-- PXOR: pd gets pa xor pb. -/
def execPxor (ply : Nat) (s : State) : Out := .next (s.issueOp 0x39 ply (predOp (fun a b => a != b)))

/-- LD8U: rd gets the 8-bit value at ra plus B, in network order and zero-extended (R56, R58). -/
def execLd8u (ply : Nat) (s : State) : Out := .next (s.issueOp 0x40 ply (loadOp 1))

/-- LD16U: rd gets the 16-bit value at ra plus B, in network order and zero-extended (R56, R58). -/
def execLd16u (ply : Nat) (s : State) : Out := .next (s.issueOp 0x41 ply (loadOp 2))

/-- LD32U: rd gets the 32-bit value at ra plus B, in network order and zero-extended (R56, R58). -/
def execLd32u (ply : Nat) (s : State) : Out := .next (s.issueOp 0x42 ply (loadOp 4))

/-- LD64: rd gets the 64-bit value at ra plus B, in network order and zero-extended (R56, R58). -/
def execLd64 (ply : Nat) (s : State) : Out := .next (s.issueOp 0x43 ply (loadOp 8))

/-- ST8: the low 8 bits of rd go to ra plus B in network order (R56 to R58). -/
def execSt8 (ply : Nat) (s : State) : Out := .next (s.issueOp 0x44 ply (storeOp 1))

/-- ST16: the low 16 bits of rd go to ra plus B in network order (R56 to R58). -/
def execSt16 (ply : Nat) (s : State) : Out := .next (s.issueOp 0x45 ply (storeOp 2))

/-- ST32: the low 32 bits of rd go to ra plus B in network order (R56 to R58). -/
def execSt32 (ply : Nat) (s : State) : Out := .next (s.issueOp 0x46 ply (storeOp 4))

/-- ST64: the low 64 bits of rd go to ra plus B in network order (R56 to R58). -/
def execSt64 (ply : Nat) (s : State) : Out := .next (s.issueOp 0x47 ply (storeOp 8))

/-- AADD: atomic add on program data, returning the old value (R58, R60). -/
def execAadd (ply : Nat) (s : State) : Out := .next (s.issueOp 0x50 ply (atomOp 0))

/-- ASWP: atomic swap on program data, returning the old value (R58, R60). -/
def execAswp (ply : Nat) (s : State) : Out := .next (s.issueOp 0x51 ply (atomOp 1))

/-- ACAS: atomic compare and swap on program data, returning the old value (R58, R60). -/
def execAcas (ply : Nat) (s : State) : Out := .next (s.issueOp 0x52 ply (atomOp 2))

/-- AMAXU: atomic unsigned maximum on program data, returning the old value (R58, R60). -/
def execAmaxu (ply : Nat) (s : State) : Out := .next (s.issueOp 0x53 ply (atomOp 3))

/-- BR: branches to B bits 14:0. -/
def execBr (ply : Nat) (s : State) : Out := .next (s.issueOp 0x58 ply (brOp false))

/-- BRR: branches to the bundle held in ra. -/
def execBrr (ply : Nat) (s : State) : Out := .next (s.issueOp 0x59 ply (brrOp))

/-- CALLS: g31 gets the return bundle; branches to B bits 14:0. -/
def execCalls (ply : Nat) (s : State) : Out := .next (s.issueOp 0x5A ply (brOp true))

/-- RET: branches to g31 bits 14:0. -/
def execRet (ply : Nat) (s : State) : Out := .next (s.issueOp 0x5B ply (retOp))

/-- CALL: issues an accelerator call and parks the ply (R51, R68, R72). -/
def execCall (ply : Nat) (s : State) : Out := .next (s.issueOp 0x60 ply (callOp))

/-- CALLN: issues an accelerator call without parking (R68, R72). -/
def execCalln (ply : Nat) (s : State) : Out := .next (s.issueOp 0x61 ply (callnOp))

/-- WAIT: parks the ply until every named tag has its result (R51). -/
def execWait (ply : Nat) (s : State) : Out := .next (s.issueOp 0x62 ply (waitOp))

/-- POST: issues a call that returns no result; the ninth is POST_LIMIT (R69). -/
def execPost (ply : Nat) (s : State) : Out := .next (s.issueOp 0x63 ply (postOp))

/-- DONE: ends the ply; the packet proceeds as its forwarding result says (R74, R76). -/
def execDone (ply : Nat) (s : State) : Out := .next (s.issueOp 0x70 ply (finOp (fun _ => .done)))

/-- DROP: ends the ply and drops the packet under a reason (R78). -/
def execDrop (ply : Nat) (s : State) : Out := .next (s.issueOp 0x71 ply (finOp (fun o => .drop (o.b % 256))))

/-- TRAP: ends the ply with fault TRAP and its code (R97). -/
def execTrap (ply : Nat) (s : State) : Out := .next (s.issueOp 0x72 ply (finOp (fun o => .trap (o.b % 256))))

/-- RECYCLE: ends the ply; the packet re-enters ingress (R77). -/
def execRecycle (ply : Nat) (s : State) : Out := .next (s.issueOp 0x73 ply (finOp (fun _ => .recycle)))

end Sys2Proof.Machine
end

