-- ==== Sys2Proof/Machine/Policing.lean ====
section
/-! DEFINITION. Policers (07_scheduling_shaping.md, R329 to R334). -/
namespace Sys2Proof.Machine

/-- A policer. -/
def State.policer (s : State) (k : Nat) : Policer := Tbl.get {} s.sch.pol k

/-- A policer replaced. -/
def State.setPolicer (s : State) (k : Nat) (x : Policer) : State := { s with sch := { s.sch with pol := Tbl.set {} s.sch.pol k x } }

/-- Tokens that a rate has earned since the last evaluation, and the remainder (R322). -/
def earned (rate rem at_ t : Int) : Nat × Int :=
  let a := rem + rate * (t - at_)
  ((a / 1000000).toNat, a % 1000000)

/-- A policer's buckets evaluated at network time `t` (R322, R330, R332): tokens that C cannot hold go to E. -/
def Policer.eval (x : Policer) (t : Nat) : Policer :=
  let (n, r) := earned x.cir x.rc x.at_ t
  if x.twoRate then
    let (m, q) := earned x.pir x.rp x.at_ t
    { x with tc := min x.cbs (x.tc + n), rc := if x.cbs < x.tc + n then 0 else r,
             te := min x.ebs (x.te + m), rp := if x.ebs < x.te + m then 0 else q, at_ := t }
  else
    let spill := x.tc + n - min x.cbs (x.tc + n)
    { x with tc := min x.cbs (x.tc + n), te := min x.ebs (x.te + spill), rc := if x.ebs < x.te + spill then 0 else r, at_ := t }

/-- The colour of a packet of `b` bytes with input colour `c`, and the policer after it (R330 to R332): 0 green, 1 yellow, 2 red. -/
def Policer.colour (x : Policer) (c b : Nat) : Nat × Policer :=
  if b = 0 then (0, x)
  else
    let isRed := x.aware && decide (2 ≤ c)
    let isYellow := x.aware && c == 1
    if x.twoRate then
      if isRed ∨ x.te < b then (2, x)
      else if isYellow ∨ x.tc < b then (1, { x with te := x.te - b })
      else (0, { x with te := x.te - b, tc := x.tc - b })
    else if (!isRed && !isYellow) ∧ b ≤ x.tc then (0, { x with tc := x.tc - b })
    else if !isRed ∧ b ≤ x.te then (1, { x with te := x.te - b })
    else (2, x)

/-- The policer that a POL call names. -/
def polIndex (c : Call) : Nat := bitsAt (beNat c.key) 43 21

/-- Whether a call's turn in its policer's update slot has come (R329): of the calls to one policer that wait, those presented earlier go first, and
within one cycle the lower pipe, then cluster, then logical slot. Configuration writes of its own cycle have gone first. -/
def State.polTurn (s : State) (c : Call) : Bool :=
  let place := fun (c : Call) => (c.pipe * 64 + c.cluster) * 64 + c.slot
  decide (c.at_ < s.clk) && s.eng.calls.all (fun e =>
    !(e.2.accel == 3 && e.2.result.isNone && polIndex e.2 == polIndex c &&
      (decide (e.2.at_ < c.at_) || (e.2.at_ == c.at_ && decide (place e.2 < place c)))))

/-- POL_UPDATE (R121, R122, R152, R169, R329 to R334): a presented POL call, in its turn. -/
def execPolUpdate (call : Nat) (upsets : List (Nat × Nat × Bool)) (s : State) : Out :=
  let s := s.upset upsets
  match s.presented call 3 with
  | none => .next s
  | some k =>
    let err := fun r => Host.Outcome.next (s.answer call k (errorResult stKEY_ERROR 3 r))
    if !s.polTurn k then .next s
    else if k.key = [] then err rADDRESS
    else if k.select ≠ 0 then err rSELECT
    else if k.key.length ≠ 8 then err rKEYLEN
    else
      let v := beNat k.key
      let i := bitsAt v 43 21
      let c := bitsAt v 41 2
      let b := bitsAt v 0 16
      let x := s.policer i
      let bad := s.lkp.eccUnc.contains (5, i)
      let s := s.corrects [(5, i)]
      if bad then .next (s.answer call k (errorResult stTABLE_ERROR 3 rECC))
      else if !x.enable then .next (s.answer call k (resultBytes stMISS 3 c []))
      else
        let (col, x') := (x.eval s.fdNs).colour c b
        let s := s.setPolicer i x'
        let s := if x.count then s.cntAdd true (s.rd POL_CFG.cnt_base + 3 * i + col) 1 b else s
        .next (s.answer call k (resultBytes stHIT 3 col []))

/-- Whether a write of a policer is refused (R333). -/
def polRefused (twoRate : Bool) (cir cbs pir ebs : Nat) : Bool :=
  let rateBad := fun r => r == 0 || decide (200000000 < r)
  rateBad cir || decide (16777216 < cbs) || decide (16777216 < ebs) || (twoRate && (rateBad pir || decide (pir < cir)))

/-- A write of a policer from the words POL_DATA0 to POL_DATA4 (R333): its buckets are full. `false` where it is refused. -/
def State.writePolicer (s : State) (i d0 d1 d2 d3 d4 : Nat) : Bool × State :=
  let two := bitOf d0 30
  let cir := bitsAt d1 0 28
  let cbs := bitsAt d2 0 25
  let pir := bitsAt d3 0 28
  let ebs := bitsAt d4 0 25
  if polRefused two cir cbs pir ebs then (false, s.wr POL_STAT.refused 1)
  else
    let x : Policer := { enable := bitOf d0 31, twoRate := two, aware := bitOf d0 29, count := bitOf d0 28, cir := cir, cbs := cbs,
                         pir := pir, ebs := ebs, tc := cbs, te := ebs, at_ := s.fdNs }
    (true, (s.wordWritten 5 i).setPolicer i x)

/-- The words that a read of a policer gives: POL_DATA0 to POL_DATA6. -/
def Policer.words (x : Policer) : List Nat :=
  [b2n x.enable * 2 ^ 31 + b2n x.twoRate * 2 ^ 30 + b2n x.aware * 2 ^ 29 + b2n x.count * 2 ^ 28, x.cir, x.cbs, x.pir, x.ebs, x.tc, x.te]

end Sys2Proof.Machine
end

