-- ==== Sys2Proof/Machine/RegMap.lean ====
section
/-! DEFINITION. The decoding of a BAR0 address into its register (17_register_map.md, R647 and *Register index*):
each register's fields with their access codes (R12) and the values a write accepts (the register tables of the
chapters, "other values are ignored"). -/
namespace Sys2Proof.Machine

/-- The register at offset `off` of block ENG. -/
def regsENG (c : Nat) (off : Nat) : RegAt :=
  if 0x100 ≤ off ∧ off < 0x150 ∧ (off - 0x100) % 8 < 8 then
    let cause := (off - 0x100) / 8
    if (off - 0x100) % 8 = 0 then .pairLo ⟨ENG_FLTCNT.count c cause, .ro, []⟩ else .pairHi ⟨ENG_FLTCNT.count c cause, .ro, []⟩
  else
  if 0x200 ≤ off ∧ off < 0x300 ∧ (off - 0x200) % 4 = 0 then
    let s := (off - 0x200) / 4
    .word [⟨ENG_SLOTMAP.state c s, .ro, []⟩, ⟨ENG_SLOTMAP.promotions c s, .ro, []⟩]
  else
  match off with
  | 0x0 => .word [⟨ENG_CLID.phys_engines c, .ro, []⟩, ⟨ENG_CLID.pipe c, .ro, []⟩, ⟨ENG_CLID.cluster c, .ro, []⟩]
  | 0x4 => .word [⟨ENG_CLROLE.role c, .rws, [(0, 2)]⟩]
  | 0x8 => .word [⟨ENG_CLSTAT.slots_used c, .ro, []⟩,
      ⟨ENG_CLSTAT.refused c, .w1c, []⟩,
      ⟨ENG_CLSTAT.draining c, .ro, []⟩,
      ⟨ENG_CLSTAT.role_now c, .ro, []⟩]
  | 0x10 => .word [⟨ENG_BANKCTL.flip c, .w1s, []⟩, ⟨ENG_BANKCTL.live_bank c, .ro, []⟩]
  | 0x14 => .word [⟨ENG_BANKSTAT.fail_bundle c, .ro, []⟩,
      ⟨ENG_BANKSTAT.fail_rule c, .ro, []⟩,
      ⟨ENG_BANKSTAT.bank1_state c, .ro, []⟩,
      ⟨ENG_BANKSTAT.bank0_state c, .ro, []⟩]
  | 0x18 => .word [⟨ENG_BANKLEN0.version c, .ro, []⟩, ⟨ENG_BANKLEN0.length c, .ro, []⟩]
  | 0x1c => .word [⟨ENG_BANKLEN1.version c, .ro, []⟩, ⟨ENG_BANKLEN1.length c, .ro, []⟩]
  | 0x20 => .word [⟨ENG_LIMITS.ctx_wd c, .rws, [(1, 1000)]⟩, ⟨ENG_LIMITS.bundle_limit c, .rws, [(16, 4095)]⟩]
  | 0x30 => .word [⟨ENG_FAULTCAP0.valid c, .w1c, []⟩,
      ⟨ENG_FAULTCAP0.bank c, .ro, []⟩,
      ⟨ENG_FAULTCAP0.slot c, .ro, []⟩,
      ⟨ENG_FAULTCAP0.cause c, .ro, []⟩,
      ⟨ENG_FAULTCAP0.bundle c, .ro, []⟩]
  | 0x34 => .word [⟨ENG_FAULTCAP1.detail c, .ro, []⟩]
  | 0x38 => .word [⟨ENG_FAULTCAP2.time_ns c, .ro, []⟩]
  | 0x40 => .word [⟨ENG_EVTEN.cause_en c, .rw, []⟩]
  | 0x44 => .word [⟨ENG_CNTCLR.clear c, .wo, []⟩]
  | 0x180 => .pairLo ⟨ENG_PLYCNT.count c, .ro, []⟩
  | 0x184 => .pairHi ⟨ENG_PLYCNT.count c, .ro, []⟩
  | 0x188 => .pairLo ⟨ENG_BUNDLECNT.count c, .ro, []⟩
  | 0x18c => .pairHi ⟨ENG_BUNDLECNT.count c, .ro, []⟩
  | 0x300 => .word [⟨ENG_SPARES.free c, .ro, []⟩]
  | _ => .none

/-- The register at offset `off` of block ENGD. -/
def regsENGD (off : Nat) : RegAt :=
  if 0x0 ≤ off ∧ off < 0x20 ∧ (off - 0x0) % 8 < 8 then
    let p := (off - 0x0) / 8
    if (off - 0x0) % 8 = 0 then .pairLo ⟨ENG_DISPDROP.count p, .ro, []⟩ else .pairHi ⟨ENG_DISPDROP.count p, .ro, []⟩
  else
  if 0x20 ≤ off ∧ off < 0x40 ∧ (off - 0x20) % 8 < 8 then
    let p := (off - 0x20) / 8
    if (off - 0x20) % 8 = 0 then .pairLo ⟨ENG_NOEGR.count p, .ro, []⟩ else .pairHi ⟨ENG_NOEGR.count p, .ro, []⟩
  else
  match off with
  | 0x40 => .word [⟨ENG_DROPBASE.base, .rws, []⟩]
  | _ => .none

/-- The register at offset `off` of block LKP. -/
def regsLKP (off : Nat) : RegAt :=
  if 0x100 ≤ off ∧ off < 0x300 ∧ (off - 0x100) % 8 = 0 then
    let t := (off - 0x100) / 8
    .word [⟨LKP_EMCFG.enable t, .rws, []⟩, ⟨LKP_EMCFG.scope t, .rws, []⟩, ⟨LKP_EMCFG.keylen t, .rws, [(0, 2)]⟩, ⟨LKP_EMCFG.bucket_bits t, .rws, []⟩]
  else
  if 0x104 ≤ off ∧ off < 0x304 ∧ (off - 0x104) % 8 = 0 then
    let t := (off - 0x104) / 8
    .word [⟨LKP_EMBASE.seed t, .rws, []⟩, ⟨LKP_EMBASE.base t, .rws, []⟩]
  else
  if 0x300 ≤ off ∧ off < 0x310 ∧ (off - 0x300) % 4 = 0 then
    let p := (off - 0x300) / 4
    .word [⟨LKP_OVFUSE.entries p, .ro, []⟩]
  else
  if 0x320 ≤ off ∧ off < 0x340 ∧ (off - 0x320) % 4 = 0 then
    let k := (off - 0x320) / 4
    .word [⟨LKP_TERPROF.enable k, .rws, []⟩, ⟨LKP_TERPROF.width k, .rws, [(1, 10)]⟩, ⟨LKP_TERPROF.entries k, .ro, []⟩]
  else
  if 0x400 ≤ off ∧ off < 0x420 ∧ (off - 0x400) % 8 < 8 then
    let p := (off - 0x400) / 8
    if (off - 0x400) % 8 = 0 then .pairLo ⟨LKP_TAILCNT.count p, .ro, []⟩ else .pairHi ⟨LKP_TAILCNT.count p, .ro, []⟩
  else
  if 0x420 ≤ off ∧ off < 0x440 ∧ (off - 0x420) % 8 < 8 then
    let p := (off - 0x420) / 8
    if (off - 0x420) % 8 = 0 then .pairLo ⟨LKP_TAILOVL.count p, .ro, []⟩ else .pairHi ⟨LKP_TAILOVL.count p, .ro, []⟩
  else
  if 0x440 ≤ off ∧ off < 0x460 ∧ (off - 0x440) % 8 < 8 then
    let p := (off - 0x440) / 8
    if (off - 0x440) % 8 = 0 then .pairLo ⟨LKP_PARSEERR.count p, .ro, []⟩ else .pairHi ⟨LKP_PARSEERR.count p, .ro, []⟩
  else
  match off with
  | 0x0 => .word [⟨LKP_FIBCFG.hot_units, .rws, [(0, 2097152)]⟩]
  | 0x4 => .word [⟨LKP_XFIBCFG.channels, .ro, []⟩, ⟨LKP_XFIBCFG.refused, .w1c, []⟩, ⟨LKP_XFIBCFG.enable, .rws, []⟩]
  | 0x8 => .word [⟨LKP_FIBUSE.units, .ro, []⟩]
  | 0xc => .word [⟨LKP_FIBCOUNT.prefixes, .ro, []⟩]
  | 0x10 => .word [⟨LKP_FIBTAILED.prefixes, .ro, []⟩]
  | 0x14 => .word [⟨LKP_TAILCFG.depth, .rws, [(256, 16384)]⟩]
  | 0x18 => .word [⟨LKP_HOTCFG.period, .rws, [(1, 1000)]⟩, ⟨LKP_HOTCFG.threshold, .rws, [(1, 65535)]⟩]
  | 0x1c => .word [⟨LKP_HOTSTAT.units, .ro, []⟩]
  | 0x20 => .word [⟨LKP_RETIRE.time_ms, .rws, [(1, 10000)]⟩]
  | 0x24 => .word [⟨LKP_RETIRECNT.entries, .ro, []⟩]
  | 0x28 => .word [⟨LKP_EMSTAT.clearing, .ro, []⟩, ⟨LKP_EMSTAT.refused, .w1c, []⟩]
  | 0x2c => .word [⟨LKP_PARSECTL.idle_state, .ro, []⟩, ⟨LKP_PARSECTL.live_bank, .ro, []⟩]
  | 0x460 => .pairLo ⟨LKP_ECCCOR.count, .ro, []⟩
  | 0x464 => .pairHi ⟨LKP_ECCCOR.count, .ro, []⟩
  | 0x468 => .pairLo ⟨LKP_ECCUNC.count, .ro, []⟩
  | 0x46c => .pairHi ⟨LKP_ECCUNC.count, .ro, []⟩
  | 0x470 => .pairLo ⟨LKP_CNTERR.count, .ro, []⟩
  | 0x474 => .pairHi ⟨LKP_CNTERR.count, .ro, []⟩
  | 0x478 => .pairLo ⟨LKP_HOTCOPY.count, .ro, []⟩
  | 0x47c => .pairHi ⟨LKP_HOTCOPY.count, .ro, []⟩
  | 0x480 => .pairLo ⟨LKP_HOTEVICT.count, .ro, []⟩
  | 0x484 => .pairHi ⟨LKP_HOTEVICT.count, .ro, []⟩
  | _ => .none

/-- The register at offset `off` of block BRG. -/
def regsBRG (off : Nat) : RegAt :=
  if 0x100 ≤ off ∧ off < 0x200 ∧ (off - 0x100) % 64 < 8 then
    let p := (off - 0x100) / 64
    if (off - 0x100) % 64 = 0 then .pairLo ⟨BRG_LEARNED.count p, .ro, []⟩ else .pairHi ⟨BRG_LEARNED.count p, .ro, []⟩
  else
  if 0x108 ≤ off ∧ off < 0x208 ∧ (off - 0x108) % 64 < 8 then
    let p := (off - 0x108) / 64
    if (off - 0x108) % 64 = 0 then .pairLo ⟨BRG_MOVES.count p, .ro, []⟩ else .pairHi ⟨BRG_MOVES.count p, .ro, []⟩
  else
  if 0x110 ≤ off ∧ off < 0x210 ∧ (off - 0x110) % 64 < 8 then
    let p := (off - 0x110) / 64
    if (off - 0x110) % 64 = 0 then .pairLo ⟨BRG_AGED.count p, .ro, []⟩ else .pairHi ⟨BRG_AGED.count p, .ro, []⟩
  else
  if 0x118 ≤ off ∧ off < 0x218 ∧ (off - 0x118) % 64 < 8 then
    let p := (off - 0x118) / 64
    if (off - 0x118) % 64 = 0 then .pairLo ⟨BRG_LEARNFAIL.count p, .ro, []⟩ else .pairHi ⟨BRG_LEARNFAIL.count p, .ro, []⟩
  else
  if 0x120 ≤ off ∧ off < 0x220 ∧ (off - 0x120) % 64 < 8 then
    let p := (off - 0x120) / 64
    if (off - 0x120) % 64 = 0 then .pairLo ⟨BRG_FROZEN.count p, .ro, []⟩ else .pairHi ⟨BRG_FROZEN.count p, .ro, []⟩
  else
  if 0x128 ≤ off ∧ off < 0x228 ∧ (off - 0x128) % 64 < 8 then
    let p := (off - 0x128) / 64
    if (off - 0x128) % 64 = 0 then .pairLo ⟨BRG_CONFLICT.count p, .ro, []⟩ else .pairHi ⟨BRG_CONFLICT.count p, .ro, []⟩
  else
  if 0x130 ≤ off ∧ off < 0x230 ∧ (off - 0x130) % 64 < 8 then
    let p := (off - 0x130) / 64
    if (off - 0x130) % 64 = 0 then .pairLo ⟨BRG_NOTICELOST.count p, .ro, []⟩ else .pairHi ⟨BRG_NOTICELOST.count p, .ro, []⟩
  else
  match off with
  | 0x0 => .word [⟨BRG_CFG.enable, .rws, []⟩, ⟨BRG_CFG.table, .rws, []⟩]
  | 0x4 => .word [⟨BRG_AGECFG.period_s, .rws, []⟩]
  | 0x8 => .word [⟨BRG_MOVECFG.window_ms, .rws, [(10, 60000)]⟩,
      ⟨BRG_MOVECFG.hold_sweeps, .rws, []⟩,
      ⟨BRG_MOVECFG.max_moves, .rws, [(1, 15)]⟩]
  | 0xc => .word [⟨BRG_LEARNCFG.hold_us, .rws, [(10, 10000)]⟩, ⟨BRG_LEARNCFG.batch, .rws, [(1, 64)]⟩]
  | 0x10 => .word [⟨BRG_CNTBASE.base, .rws, []⟩]
  | 0x14 => .word [⟨BRG_STAT.refused, .w1c, []⟩]
  | 0x20 => .word [⟨BRG_DOMIDX.pipe, .rw, []⟩, ⟨BRG_DOMIDX.domain, .rw, []⟩]
  | 0x24 => .word [⟨BRG_DOMCFG.learn_en, .rws, []⟩, ⟨BRG_DOMCFG.limit, .rws, []⟩]
  | 0x28 => .word [⟨BRG_DOMSTAT.entries, .ro, []⟩]
  | _ => .none

/-- The register at offset `off` of block BPM. -/
def regsBPM (off : Nat) : RegAt :=
  if 0x110 ≤ off ∧ off < 0x190 ∧ (off - 0x100) % 16 < 8 then
    let r := (off - 0x100) / 16
    if (off - 0x100) % 16 = 0 then .pairLo ⟨BPM_DROPPKT.count r, .ro, []⟩ else .pairHi ⟨BPM_DROPPKT.count r, .ro, []⟩
  else
  if 0x118 ≤ off ∧ off < 0x198 ∧ (off - 0x108) % 16 < 8 then
    let r := (off - 0x108) / 16
    if (off - 0x108) % 16 = 0 then .pairLo ⟨BPM_DROPBYTE.count r, .ro, []⟩ else .pairHi ⟨BPM_DROPBYTE.count r, .ro, []⟩
  else
  if 0x1000 ≤ off ∧ off < 0x2000 ∧ (off - 0x1000) % 64 = 0 then
    let k := (off - 0x1000) / 64
    .word [⟨BPM_PFLIMIT.dyn_en k, .rws, []⟩, ⟨BPM_PFLIMIT.max_cells k, .rws, []⟩]
  else
  if 0x1004 ≤ off ∧ off < 0x2004 ∧ (off - 0x1004) % 64 = 0 then
    let k := (off - 0x1004) / 64
    .word [⟨BPM_PFDYN.alpha k, .rws, [(0, 11)]⟩]
  else
  if 0x1008 ≤ off ∧ off < 0x2008 ∧ (off - 0x1008) % 64 = 0 then
    let k := (off - 0x1008) / 64
    .word [⟨BPM_PFDEEP.deep_cells k, .rws, []⟩]
  else
  if 0x100c ≤ off ∧ off < 0x200c ∧ (off - 0x100c) % 64 = 0 then
    let k := (off - 0x100c) / 64
    .word [⟨BPM_PFRSV.rsv_en k, .rws, []⟩, ⟨BPM_PFRSV.rsv_cells k, .rws, [(1, 2147483647)]⟩]
  else
  if 0x1010 ≤ off ∧ off < 0x2010 ∧ (off - 0x1010) % 64 = 0 then
    let k := (off - 0x1010) / 64
    .word [⟨BPM_PFAGE.rsv_age_us k, .rws, [(100, 10000000)]⟩]
  else
  if 0x1014 ≤ off ∧ off < 0x2014 ∧ (off - 0x1014) % 64 = 0 then
    let k := (off - 0x1014) / 64
    .word [⟨BPM_PFHEAD.head_cells k, .rws, [(16, 4096)]⟩]
  else
  if 0x1018 ≤ off ∧ off < 0x2018 ∧ (off - 0x1018) % 64 = 0 then
    let k := (off - 0x1018) / 64
    .word [⟨BPM_PFOCC.cells k, .ro, []⟩]
  else
  if 0x1020 ≤ off ∧ off < 0x2020 ∧ (off - 0x1020) % 64 < 8 then
    let k := (off - 0x1020) / 64
    if (off - 0x1020) % 64 = 0 then .pairLo ⟨BPM_PFDROP.count k, .ro, []⟩ else .pairHi ⟨BPM_PFDROP.count k, .ro, []⟩
  else
  match off with
  | 0x0 => .word [⟨BPM_CFG.enable, .rws, []⟩, ⟨BPM_CFG.deep_mcells, .rws, [(64, 188)]⟩]
  | 0x4 => .word [⟨BPM_SHALCFG.prefetch_cells, .rws, [(16384, 262144)]⟩]
  | 0x8 => .word [⟨BPM_RSVCFG.enable, .rws, []⟩, ⟨BPM_RSVCFG.channels, .ro, []⟩, ⟨BPM_RSVCFG.rate_gbps, .rws, [(100, 1600)]⟩]
  | 0xc => .word [⟨BPM_MOVECFG.tail_units, .rws, []⟩, ⟨BPM_MOVECFG.guard_cells, .rws, []⟩]
  | 0x10 => .word [⟨BPM_LOWCFG.rsv_pct, .rw, []⟩, ⟨BPM_LOWCFG.deep_pct, .rw, []⟩, ⟨BPM_LOWCFG.shal_pct, .rw, []⟩]
  | 0x20 => .word [⟨BPM_FREESHAL.cells, .ro, []⟩]
  | 0x24 => .word [⟨BPM_FREEPREF.cells, .ro, []⟩]
  | 0x28 => .word [⟨BPM_FREEDEEP.cells, .ro, []⟩]
  | 0x2c => .word [⟨BPM_FREERSV.pages, .ro, []⟩]
  | 0x30 => .word [⟨BPM_MINSHAL.min_, .rc, []⟩]
  | 0x34 => .word [⟨BPM_MINPREF.min_, .rc, []⟩]
  | 0x38 => .word [⟨BPM_MINDEEP.min_, .rc, []⟩]
  | 0x3c => .word [⟨BPM_MINRSV.min_, .rc, []⟩]
  | 0x40 => .word [⟨BPM_SHAREUSE.entries, .ro, []⟩]
  | 0x44 => .word [⟨BPM_STAT.rsv_refused, .w1c, []⟩]
  | 0x60 => .word [⟨BPM_FFCAP0.valid, .w1c, []⟩,
      ⟨BPM_FFCAP0.kind, .ro, []⟩,
      ⟨BPM_FFCAP0.releaser, .ro, []⟩,
      ⟨BPM_FFCAP0.owner, .ro, []⟩]
  | 0x64 => .word [⟨BPM_FFCAP1.ptr_lo, .ro, []⟩]
  | 0x68 => .word [⟨BPM_FFCAP2.gen, .ro, []⟩, ⟨BPM_FFCAP2.ptr_hi, .ro, []⟩]
  | 0x200 => .pairLo ⟨BPM_PREFETCH.count, .ro, []⟩
  | 0x204 => .pairHi ⟨BPM_PREFETCH.count, .ro, []⟩
  | 0x208 => .pairLo ⟨BPM_EVICT.count, .ro, []⟩
  | 0x20c => .pairHi ⟨BPM_EVICT.count, .ro, []⟩
  | 0x210 => .pairLo ⟨BPM_MOVEABORT.count, .ro, []⟩
  | 0x214 => .pairHi ⟨BPM_MOVEABORT.count, .ro, []⟩
  | 0x218 => .pairLo ⟨BPM_DOUBLEFREE.count, .ro, []⟩
  | 0x21c => .pairHi ⟨BPM_DOUBLEFREE.count, .ro, []⟩
  | 0x220 => .pairLo ⟨BPM_FOREIGNFREE.count, .ro, []⟩
  | 0x224 => .pairHi ⟨BPM_FOREIGNFREE.count, .ro, []⟩
  | 0x228 => .pairLo ⟨BPM_ECCCOR.count, .ro, []⟩
  | 0x22c => .pairHi ⟨BPM_ECCCOR.count, .ro, []⟩
  | 0x230 => .pairLo ⟨BPM_RECLAIM.count, .ro, []⟩
  | 0x234 => .pairHi ⟨BPM_RECLAIM.count, .ro, []⟩
  | _ => .none

/-- The register at offset `off` of block QM. -/
def regsQM (off : Nat) : RegAt :=
  if 0x100 ≤ off ∧ off < 0x1c0 ∧ (off - 0x100) % 4 = 0 then
    let l := (off - 0x100) / 4
    .word [⟨QM_LINKSTAT.state l, .ro, []⟩, ⟨QM_LINKSTAT.buckets l, .ro, []⟩, ⟨QM_LINKSTAT.txq l, .ro, []⟩]
  else
  if 0x200 ≤ off ∧ off < 0x2c0 ∧ (off - 0x200) % 4 = 0 then
    let l := (off - 0x200) / 4
    .word [⟨QM_LINKCTL.restore l, .w1s, []⟩, ⟨QM_LINKCTL.drain l, .w1s, []⟩]
  else
  if 0x1000 ≤ off ∧ off < 0x1900 ∧ (off - 0x1000) % 16 = 0 then
    let p := (off - 0x1000) / 16
    .word [⟨QM_PORTPOL.policy p, .rws, []⟩, ⟨QM_PORTPOL.hold_ms p, .rws, [(0, 10000)]⟩]
  else
  if 0x1004 ≤ off ∧ off < 0x1904 ∧ (off - 0x1004) % 16 = 0 then
    let p := (off - 0x1004) / 16
    .word [⟨QM_PORTAGE.age_ms p, .rws, []⟩]
  else
  if 0x1008 ≤ off ∧ off < 0x1908 ∧ (off - 0x1008) % 16 = 0 then
    let p := (off - 0x1008) / 16
    .word [⟨QM_PORTSTAT.state p, .ro, []⟩]
  else
  if 0x2000 ≤ off ∧ off < 0x4000 ∧ (off - 0x2000) % 64 = 0 then
    let p := (off - 0x2000) / 64
    .word [⟨QM_PFCCFG.quanta p, .rws, []⟩, ⟨QM_PFCCFG.tx_en p, .rws, []⟩, ⟨QM_PFCCFG.rx_pause p, .rws, []⟩]
  else
  if 0x2004 ≤ off ∧ off < 0x4004 ∧ (off - 0x2004) % 64 = 0 then
    let p := (off - 0x2004) / 64
    .word [⟨QM_PFCRX.rx_en p, .rws, []⟩]
  else
  if 0x2008 ≤ off ∧ off < 0x4008 ∧ (off - 0x2008) % 64 = 0 then
    let p := (off - 0x2008) / 64
    .word [⟨QM_PFCSTAT.paused p, .ro, []⟩, ⟨QM_PFCSTAT.xoff p, .ro, []⟩]
  else
  if 0x2010 ≤ off ∧ off < 0x4010 ∧ (off - 0x2010) % 64 < 32 then
    let p := (off - 0x2010) / 64; let cls := (off - 0x2010) % 64 / 4
    .word [⟨QM_PFCTHR.xoff p cls, .rws, []⟩, ⟨QM_PFCTHR.xon p cls, .rws, []⟩]
  else
  if 0x4000 ≤ off ∧ off < 0x40a0 ∧ (off - 0x4000) % 16 < 8 then
    let r := (off - 0x4000) / 16 + 9
    if (off - 0x4000) % 16 = 0 then .pairLo ⟨QM_DROPPKT.count r, .ro, []⟩ else .pairHi ⟨QM_DROPPKT.count r, .ro, []⟩
  else
  if 0x4008 ≤ off ∧ off < 0x40a8 ∧ (off - 0x4008) % 16 < 8 then
    let r := (off - 0x4008) / 16 + 9
    if (off - 0x4008) % 16 = 0 then .pairLo ⟨QM_DROPBYTE.count r, .ro, []⟩ else .pairHi ⟨QM_DROPBYTE.count r, .ro, []⟩
  else
  if 0x4200 ≤ off ∧ off < 0x4600 ∧ (off - 0x4200) % 8 < 8 then
    let p := (off - 0x4200) / 8
    if (off - 0x4200) % 8 = 0 then .pairLo ⟨QM_PFCTX.count p, .ro, []⟩ else .pairHi ⟨QM_PFCTX.count p, .ro, []⟩
  else
  if 0x4600 ≤ off ∧ off < 0x4a00 ∧ (off - 0x4600) % 8 < 8 then
    let p := (off - 0x4600) / 8
    if (off - 0x4600) % 8 = 0 then .pairLo ⟨QM_PFCRXCNT.count p, .ro, []⟩ else .pairHi ⟨QM_PFCRXCNT.count p, .ro, []⟩
  else
  match off with
  | 0x0 => .word [⟨QM_CFG.enable, .rws, []⟩, ⟨QM_CFG.dev_id, .rws, []⟩]
  | 0x4 => .word [⟨QM_CREDCFG.window, .rws, [(1, 4095)]⟩, ⟨QM_CREDCFG.unit, .rws, [(0, 6)]⟩]
  | 0x8 => .word [⟨QM_CREDTIME.lost_ms, .rws, [(0, 10000)]⟩, ⟨QM_CREDTIME.stale_us, .rws, [(10, 1000)]⟩]
  | 0xc => .word [⟨QM_LBCFG.rebalance, .rws, []⟩,
      ⟨QM_LBCFG.unreach_ms, .rws, [(0, 10000)]⟩,
      ⟨QM_LBCFG.fabric_delay_us, .rws, [(1, 1023)]⟩]
  | 0x10 => .word [⟨QM_XBARCFG.iters, .rws, [(1, 4)]⟩]
  | 0x14 => .word [⟨QM_CNTBASE.base, .rws, []⟩]
  | 0x18 => .word [⟨QM_VCNTBASE.base, .rws, []⟩]
  | 0x1c => .word [⟨QM_PUNTQ.queue, .rws, []⟩]
  | 0x40 => .word [⟨QM_TIDX.kind, .rw, []⟩, ⟨QM_TIDX.index, .rw, []⟩]
  | 0x44 => .word [⟨QM_TDATA0.word, .rw, []⟩]
  | 0x48 => .word [⟨QM_TDATA1.word, .rw, []⟩]
  | 0x4c => .word [⟨QM_TDATA2.word, .rw, []⟩]
  | 0x50 => .word [⟨QM_TDATA3.word, .rw, []⟩]
  | 0x54 => .word [⟨QM_TCMD.refused, .w1c, []⟩, ⟨QM_TCMD.write, .w1s, []⟩, ⟨QM_TCMD.read, .w1s, []⟩]
  | 0x4100 => .pairLo ⟨QM_CREDCRC.count, .ro, []⟩
  | 0x4104 => .pairHi ⟨QM_CREDCRC.count, .ro, []⟩
  | 0x4108 => .pairLo ⟨QM_CREDMISROUTE.count, .ro, []⟩
  | 0x410c => .pairHi ⟨QM_CREDMISROUTE.count, .ro, []⟩
  | 0x4110 => .pairLo ⟨QM_CREDRESYNC.count, .ro, []⟩
  | 0x4114 => .pairHi ⟨QM_CREDRESYNC.count, .ro, []⟩
  | 0x4118 => .pairLo ⟨QM_CREDWAITDROP.count, .ro, []⟩
  | 0x411c => .pairHi ⟨QM_CREDWAITDROP.count, .ro, []⟩
  | 0x4120 => .pairLo ⟨QM_GRANTTX.count, .ro, []⟩
  | 0x4124 => .pairHi ⟨QM_GRANTTX.count, .ro, []⟩
  | 0x4128 => .pairLo ⟨QM_GRANTRX.count, .ro, []⟩
  | 0x412c => .pairHi ⟨QM_GRANTRX.count, .ro, []⟩
  | 0x4130 => .pairLo ⟨QM_BUCKETMOVE.count, .ro, []⟩
  | 0x4134 => .pairHi ⟨QM_BUCKETMOVE.count, .ro, []⟩
  | 0x4138 => .pairLo ⟨QM_MCEMPTY.count, .ro, []⟩
  | 0x413c => .pairHi ⟨QM_MCEMPTY.count, .ro, []⟩
  | _ => .none

/-- The register at offset `off` of block SCH. -/
def regsSCH (off : Nat) : RegAt :=
  if 0x100 ≤ off ∧ off < 0x140 ∧ (off - 0x100) % 4 = 0 then
    let k := (off - 0x100) / 4
    .word [⟨SCH_LENPROF.overhead k, .rws, [(0, 127), (192, 255)]⟩]
  else
  match off with
  | 0x0 => .word [⟨SCH_CFG.enable, .rws, []⟩]
  | 0x4 => .word [⟨SCH_STAT.reason, .ro, []⟩, ⟨SCH_STAT.refused, .w1c, []⟩]
  | 0x10 => .word [⟨SCH_NIDX.level, .rw, []⟩, ⟨SCH_NIDX.index, .rw, []⟩]
  | 0x14 => .word [⟨SCH_NDATA0.enable, .rw, []⟩,
      ⟨SCH_NDATA0.cnz5, .rw, []⟩,
      ⟨SCH_NDATA0.pnz5, .rw, []⟩,
      ⟨SCH_NDATA0.ctok, .rw, []⟩,
      ⟨SCH_NDATA0.ptok, .rw, []⟩,
      ⟨SCH_NDATA0.band, .rw, []⟩,
      ⟨SCH_NDATA0.lprof, .rw, []⟩,
      ⟨SCH_NDATA0.weight, .rw, []⟩]
  | 0x18 => .word [⟨SCH_NDATA1.parent, .rw, []⟩]
  | 0x1c => .word [⟨SCH_NDATA2.crate, .rw, []⟩]
  | 0x20 => .word [⟨SCH_NDATA3.cburst, .rw, []⟩]
  | 0x24 => .word [⟨SCH_NDATA4.prate, .rw, []⟩]
  | 0x28 => .word [⟨SCH_NDATA5.pburst, .rw, []⟩]
  | 0x2c => .word [⟨SCH_NTOK0.tokens, .ro, []⟩]
  | 0x30 => .word [⟨SCH_NTOK1.tokens, .ro, []⟩]
  | 0x34 => .word [⟨SCH_NCMD.write, .w1s, []⟩, ⟨SCH_NCMD.read, .w1s, []⟩]
  | 0x200 => .pairLo ⟨SCH_SELCNT.count, .ro, []⟩
  | 0x204 => .pairHi ⟨SCH_SELCNT.count, .ro, []⟩
  | 0x208 => .pairLo ⟨SCH_WITHDRAW.count, .ro, []⟩
  | 0x20c => .pairHi ⟨SCH_WITHDRAW.count, .ro, []⟩
  | _ => .none

/-- The register at offset `off` of block POL. -/
def regsPOL (off : Nat) : RegAt :=
  match off with
  | 0x0 => .word [⟨POL_CFG.cnt_base, .rws, []⟩]
  | 0x10 => .word [⟨POL_IDX.index, .rw, []⟩]
  | 0x14 => .word [⟨POL_DATA0.enable, .rw, []⟩, ⟨POL_DATA0.mode, .rw, []⟩, ⟨POL_DATA0.aware, .rw, []⟩, ⟨POL_DATA0.count, .rw, []⟩]
  | 0x18 => .word [⟨POL_DATA1.cir, .rw, []⟩]
  | 0x1c => .word [⟨POL_DATA2.cbs, .rw, []⟩]
  | 0x20 => .word [⟨POL_DATA3.pir, .rw, []⟩]
  | 0x24 => .word [⟨POL_DATA4.ebs_pbs, .rw, []⟩]
  | 0x28 => .word [⟨POL_DATA5.tc, .ro, []⟩]
  | 0x2c => .word [⟨POL_DATA6.te_tp, .ro, []⟩]
  | 0x30 => .word [⟨POL_CMD.write, .w1s, []⟩, ⟨POL_CMD.read, .w1s, []⟩]
  | 0x34 => .word [⟨POL_STAT.refused, .w1c, []⟩]
  | _ => .none

/-- The register at offset `off` of block TG. -/
def regsTG (port : Nat) (off : Nat) : RegAt :=
  match off with
  | 0x0 => .word [⟨TG_CTL.enable port, .rws, []⟩,
      ⟨TG_CTL.cancel port, .w1s, []⟩,
      ⟨TG_CTL.activate port, .w1s, []⟩,
      ⟨TG_CTL.init_gates port, .rws, []⟩]
  | 0x4 => .word [⟨TG_BASE0.ns port, .rws, []⟩]
  | 0x8 => .word [⟨TG_BASE1.sec_lo port, .rws, []⟩]
  | 0xc => .word [⟨TG_BASE2.sec_hi port, .rws, []⟩]
  | 0x10 => .word [⟨TG_CYCLE.ns port, .rws, []⟩]
  | 0x14 => .word [⟨TG_LEN.entries port, .rws, []⟩]
  | 0x18 => .word [⟨TG_STAT.reason port, .ro, []⟩,
      ⟨TG_STAT.gates port, .ro, []⟩,
      ⟨TG_STAT.refused port, .w1c, []⟩,
      ⟨TG_STAT.advanced port, .ro, []⟩,
      ⟨TG_STAT.pending port, .ro, []⟩,
      ⟨TG_STAT.oper port, .ro, []⟩]
  | 0x1c => .word [⟨TG_START0.ns port, .ro, []⟩]
  | 0x20 => .word [⟨TG_START1.sec_lo port, .ro, []⟩]
  | 0x24 => .word [⟨TG_START2.sec_hi port, .ro, []⟩]
  | 0x28 => .word [⟨TG_LEAD.lead_ns port, .rws, [(0, 20000)]⟩]
  | 0x30 => .word [⟨TG_ENTIDX.bank port, .rw, []⟩, ⟨TG_ENTIDX.entry port, .rw, []⟩]
  | 0x34 => .word [⟨TG_ENTGATES.gates port, .rw, []⟩]
  | 0x38 => .word [⟨TG_ENTIVL.ns port, .rw, []⟩]
  | 0x3c => .word [⟨TG_ENTCMD.write port, .w1s, []⟩, ⟨TG_ENTCMD.read port, .w1s, []⟩]
  | 0x40 => .pairLo ⟨TG_NOFIT.count port, .ro, []⟩
  | 0x44 => .pairHi ⟨TG_NOFIT.count port, .ro, []⟩
  | _ => .none

/-- The register at offset `off` of block HIF. -/
def regsHIF (off : Nat) : RegAt :=
  if 0x100 ≤ off ∧ off < 0x140 ∧ (off - 0x100) % 4 = 0 then
    let k := (off - 0x100) / 4
    .word [⟨HIF_EVRING.valid k, .rws, []⟩, ⟨HIF_EVRING.ring k, .rws, []⟩]
  else
  if 0x400 ≤ off ∧ off < 0xc00 ∧ (off - 0x400) % 4 = 0 then
    let v := (off - 0x400) / 4
    .word [⟨HIF_VMOD.count v, .rw, [(1, 255)]⟩, ⟨HIF_VMOD.time_us v, .rw, []⟩, ⟨HIF_VMOD.gap_us v, .rw, []⟩]
  else
  if 0x1100 ≤ off ∧ off < 0x1180 ∧ (off - 0x1100) % 8 < 8 then
    let k := (off - 0x1100) / 8
    if (off - 0x1100) % 8 = 0 then .pairLo ⟨HIF_EVLOST.count k, .ro, []⟩ else .pairHi ⟨HIF_EVLOST.count k, .ro, []⟩
  else
  match off with
  | 0x0 => .word [⟨HIF_CFG.enable, .rws, []⟩]
  | 0x4 => .word [⟨HIF_LINKSTAT.up, .ro, []⟩,
      ⟨HIF_LINKSTAT.flit, .ro, []⟩,
      ⟨HIF_LINKSTAT.gen, .ro, []⟩,
      ⟨HIF_LINKSTAT.width, .ro, []⟩]
  | 0x8 => .word [⟨HIF_RCTBASE0.addr_lo, .rws, []⟩]
  | 0xc => .word [⟨HIF_RCTBASE1.addr_hi, .rws, []⟩]
  | 0x10 => .word [⟨HIF_RCTCFG.count, .rws, [(0, 4096)]⟩]
  | 0x14 => .word [⟨HIF_TIMEOUTS.stall_ms, .rws, [(10, 10000)]⟩, ⟨HIF_TIMEOUTS.desc_ms, .rws, [(1, 1000)]⟩]
  | 0x18 => .word [⟨HIF_PRICFG.park_ms, .rws, [(10, 60000)]⟩]
  | 0x40 => .word [⟨HIF_RIDX.ring, .rw, []⟩]
  | 0x44 => .word [⟨HIF_RSTAT.state, .ro, []⟩,
      ⟨HIF_RSTAT.cause, .ro, []⟩,
      ⟨HIF_RSTAT.parked, .ro, []⟩,
      ⟨HIF_RSTAT.preempted, .ro, []⟩,
      ⟨HIF_RSTAT.head, .ro, []⟩]
  | 0x48 => .word [⟨HIF_RTAIL.completed, .ro, []⟩, ⟨HIF_RTAIL.tail, .ro, []⟩]
  | 0x4c => .word [⟨HIF_RPROG.progress, .ro, []⟩]
  | 0x50 => .word [⟨HIF_RCTL.reason, .ro, []⟩,
      ⟨HIF_RCTL.refused, .w1c, []⟩,
      ⟨HIF_RCTL.invalidate, .w1s, []⟩,
      ⟨HIF_RCTL.stop, .w1s, []⟩,
      ⟨HIF_RCTL.start, .w1s, []⟩]
  | 0x1000 => .pairLo ⟨HIF_DUPCPL.count, .ro, []⟩
  | 0x1004 => .pairHi ⟨HIF_DUPCPL.count, .ro, []⟩
  | 0x1008 => .pairLo ⟨HIF_BADDB.count, .ro, []⟩
  | 0x100c => .pairHi ⟨HIF_BADDB.count, .ro, []⟩
  | 0x1010 => .pairLo ⟨HIF_BADACC.count, .ro, []⟩
  | 0x1014 => .pairHi ⟨HIF_BADACC.count, .ro, []⟩
  | 0x1018 => .pairLo ⟨HIF_PRIREQ.count, .ro, []⟩
  | 0x101c => .pairHi ⟨HIF_PRIREQ.count, .ro, []⟩
  | 0x1020 => .pairLo ⟨HIF_PREEMPT.count, .ro, []⟩
  | 0x1024 => .pairHi ⟨HIF_PREEMPT.count, .ro, []⟩
  | 0x1028 => .pairLo ⟨HIF_EXPIRED.count, .ro, []⟩
  | 0x102c => .pairHi ⟨HIF_EXPIRED.count, .ro, []⟩
  | 0x1030 => .pairLo ⟨HIF_FAULTED.count, .ro, []⟩
  | 0x1034 => .pairHi ⟨HIF_FAULTED.count, .ro, []⟩
  | _ => .none

/-- The register at offset `off` of block MCH. -/
def regsMCH (stack : Nat) (off : Nat) : RegAt :=
  if 0x40 ≤ off ∧ off < 0x58 ∧ (off - 0x40) % 4 = 0 then
    let k := (off - 0x40) / 4
    .word [⟨MCH_PORTCFG.panic_on stack k, .rws, []⟩, ⟨MCH_PORTCFG.panic_off stack k, .rws, []⟩, ⟨MCH_PORTCFG.target_ns stack k, .rws, [(1, 1048575)]⟩]
  else
  if 0x100 ≤ off ∧ off < 0x200 ∧ (off - 0x100) % 4 = 0 then
    let p := (off - 0x100) / 4
    .word [⟨MCH_PCSTAT.state stack p, .ro, []⟩, ⟨MCH_PCSTAT.spares_used stack p, .ro, []⟩, ⟨MCH_PCSTAT.eye_min stack p, .ro, []⟩]
  else
  match off with
  | 0x0 => .word [⟨MCH_ID.pcs stack, .ro, []⟩, ⟨MCH_ID.rate stack, .ro, []⟩, ⟨MCH_ID.capacity_gib stack, .ro, []⟩]
  | 0x4 => .word [⟨MCH_STAT.state stack, .ro, []⟩,
      ⟨MCH_STAT.qos_target stack, .ro, []⟩,
      ⟨MCH_STAT.refresh_2x stack, .ro, []⟩,
      ⟨MCH_STAT.sensor_fault stack, .ro, []⟩,
      ⟨MCH_STAT.temp_c stack, .ro, []⟩]
  | 0x8 => .word [⟨MCH_RACFG.radius stack, .rws, [(1, 2)]⟩, ⟨MCH_RACFG.threshold stack, .rws, [(250, 8000)]⟩]
  | 0xc => .word [⟨MCH_REPAIRCFG.auto_repair stack, .rws, []⟩,
      ⟨MCH_REPAIRCFG.auto_retire stack, .rws, []⟩,
      ⟨MCH_REPAIRCFG.ue_retire stack, .rws, [(1, 255)]⟩,
      ⟨MCH_REPAIRCFG.lane_ce stack, .rws, [(1, 65535)]⟩]
  | 0x10 => .word [⟨MCH_SCRUB.period_h stack, .rws, [(0, 720)]⟩]
  | 0x14 => .word [⟨MCH_EYEMIN.min_width stack, .rws, [(8, 48)]⟩]
  | 0x400 => .pairLo ⟨MCH_CE.count stack, .ro, []⟩
  | 0x404 => .pairHi ⟨MCH_CE.count stack, .ro, []⟩
  | 0x408 => .pairLo ⟨MCH_UE.count stack, .ro, []⟩
  | 0x40c => .pairHi ⟨MCH_UE.count stack, .ro, []⟩
  | 0x410 => .pairLo ⟨MCH_NBRREF.count stack, .ro, []⟩
  | 0x414 => .pairHi ⟨MCH_NBRREF.count stack, .ro, []⟩
  | 0x418 => .pairLo ⟨MCH_REFPOST.count stack, .ro, []⟩
  | 0x41c => .pairHi ⟨MCH_REFPOST.count stack, .ro, []⟩
  | 0x420 => .pairLo ⟨MCH_REFFORCE.count stack, .ro, []⟩
  | 0x424 => .pairHi ⟨MCH_REFFORCE.count stack, .ro, []⟩
  | 0x428 => .pairLo ⟨MCH_REFRECOUNT.count stack, .ro, []⟩
  | 0x42c => .pairHi ⟨MCH_REFRECOUNT.count stack, .ro, []⟩
  | 0x430 => .pairLo ⟨MCH_PANIC.count stack, .ro, []⟩
  | 0x434 => .pairHi ⟨MCH_PANIC.count stack, .ro, []⟩
  | _ => .none

/-- The register at offset `off` of block MCD. -/
def regsMCD (ch : Nat) (off : Nat) : RegAt :=
  if 0x40 ≤ off ∧ off < 0x58 ∧ (off - 0x40) % 4 = 0 then
    let k := (off - 0x40) / 4
    .word [⟨MCD_PORTCFG.panic_on ch k, .rws, []⟩, ⟨MCD_PORTCFG.panic_off ch k, .rws, []⟩, ⟨MCD_PORTCFG.target_ns ch k, .rws, [(1, 1048575)]⟩]
  else
  if 0x100 ≤ off ∧ off < 0x150 ∧ (off - 0x100) % 4 = 0 then
    let n := (off - 0x100) / 4
    .word [⟨MCD_EYE.rd_centre ch n, .ro, []⟩, ⟨MCD_EYE.rd_width ch n, .ro, []⟩, ⟨MCD_EYE.wr_centre ch n, .ro, []⟩, ⟨MCD_EYE.wr_width ch n, .ro, []⟩]
  else
  match off with
  | 0x0 => .word [⟨MCD_CFG.role ch, .rws, []⟩,
      ⟨MCD_CFG.retain ch, .rws, []⟩,
      ⟨MCD_CFG.refused ch, .w1c, []⟩,
      ⟨MCD_CFG.max_rate ch, .rws, [(4800, 8800)]⟩]
  | 0x4 => .word [⟨MCD_STAT.state ch, .ro, []⟩,
      ⟨MCD_STAT.qos_target ch, .ro, []⟩,
      ⟨MCD_STAT.refresh_2x ch, .ro, []⟩,
      ⟨MCD_STAT.sensor_fault ch, .ro, []⟩,
      ⟨MCD_STAT.retained ch, .ro, []⟩,
      ⟨MCD_STAT.rate ch, .ro, []⟩]
  | 0x8 => .word [⟨MCD_DIMM.type ch, .ro, []⟩, ⟨MCD_DIMM.ranks ch, .ro, []⟩, ⟨MCD_DIMM.capacity_gib ch, .ro, []⟩]
  | 0xc => .word [⟨MCD_TEMP.ts1_c ch, .ro, []⟩, ⟨MCD_TEMP.ts0_c ch, .ro, []⟩]
  | 0x10 => .word [⟨MCD_PWRCFG.sr_idle_ms ch, .rws, []⟩, ⟨MCD_PWRCFG.pd_idle_ns ch, .rws, []⟩]
  | 0x14 => .word [⟨MCD_RACFG.radius ch, .rws, [(1, 2)]⟩, ⟨MCD_RACFG.threshold ch, .rws, [(250, 8000)]⟩]
  | 0x18 => .word [⟨MCD_ERRCFG.fail_ue ch, .rws, [(1, 65535)]⟩]
  | 0x1c => .word [⟨MCD_SCRUB.period_h ch, .rws, [(0, 720)]⟩]
  | 0x20 => .word [⟨MCD_EYEMIN.min_width ch, .rws, [(8, 48)]⟩]
  | 0x400 => .pairLo ⟨MCD_CE.count ch, .ro, []⟩
  | 0x404 => .pairHi ⟨MCD_CE.count ch, .ro, []⟩
  | 0x408 => .pairLo ⟨MCD_UE.count ch, .ro, []⟩
  | 0x40c => .pairHi ⟨MCD_UE.count ch, .ro, []⟩
  | 0x410 => .pairLo ⟨MCD_NBRREF.count ch, .ro, []⟩
  | 0x414 => .pairHi ⟨MCD_NBRREF.count ch, .ro, []⟩
  | 0x418 => .pairLo ⟨MCD_REFPOST.count ch, .ro, []⟩
  | 0x41c => .pairHi ⟨MCD_REFPOST.count ch, .ro, []⟩
  | 0x420 => .pairLo ⟨MCD_REFFORCE.count ch, .ro, []⟩
  | 0x424 => .pairHi ⟨MCD_REFFORCE.count ch, .ro, []⟩
  | 0x428 => .pairLo ⟨MCD_REFRECOUNT.count ch, .ro, []⟩
  | 0x42c => .pairHi ⟨MCD_REFRECOUNT.count ch, .ro, []⟩
  | 0x430 => .pairLo ⟨MCD_PANIC.count ch, .ro, []⟩
  | 0x434 => .pairHi ⟨MCD_PANIC.count ch, .ro, []⟩
  | _ => .none

/-- The register at offset `off` of block LPT. -/
def regsLPT (port : Nat) (off : Nat) : RegAt :=
  match off with
  | 0x0 => .word [⟨LPT_CFG.enable port, .rws, []⟩,
      ⟨LPT_CFG.speed port, .rws, []⟩,
      ⟨LPT_CFG.lanes port, .rws, [(1, 2), (4, 4), (8, 8)]⟩,
      ⟨LPT_CFG.fec port, .rws, [(0, 2)]⟩,
      ⟨LPT_CFG.lt_en port, .rws, []⟩,
      ⟨LPT_CFG.tx_reverse port, .rws, []⟩,
      ⟨LPT_CFG.loopback port, .rws, [(0, 2)]⟩,
      ⟨LPT_CFG.refused port, .w1c, []⟩]
  | 0x4 => .word [⟨LPT_STAT.state port, .ro, []⟩,
      ⟨LPT_STAT.local_fault port, .ro, []⟩,
      ⟨LPT_STAT.remote_fault port, .ro, []⟩,
      ⟨LPT_STAT.aligned port, .ro, []⟩,
      ⟨LPT_STAT.fec_lock port, .ro, []⟩,
      ⟨LPT_STAT.down_cause port, .ro, []⟩,
      ⟨LPT_STAT.lane_los port, .ro, []⟩,
      ⟨LPT_STAT.lane_lol port, .ro, []⟩]
  | 0x8 => .word [⟨LPT_LINKCFG.down_us port, .rws, []⟩, ⟨LPT_LINKCFG.up_ms port, .rws, [(0, 10000)]⟩]
  | 0xc => .word [⟨LPT_MAXLEN.max_len port, .rws, [(64, 16372)]⟩]
  | 0x10 => .word [⟨LPT_MACADDR0.addr_lo port, .rws, []⟩]
  | 0x14 => .word [⟨LPT_MACADDR1.addr_hi port, .rws, []⟩]
  | 0x18 => .word [⟨LPT_TXCFG.force_rf port, .rw, []⟩, ⟨LPT_TXCFG.ipg port, .rws, [(8, 64)]⟩]
  | 0x1c => .word [⟨LPT_TSDELAY.tx_adj port, .rws, []⟩, ⟨LPT_TSDELAY.rx_adj port, .rws, []⟩]
  | 0x20 => .word [⟨LPT_TSLAST0.ns port, .ro, []⟩]
  | 0x24 => .word [⟨LPT_TSLAST1.sec_lo port, .ro, []⟩]
  | 0x28 => .word [⟨LPT_TSLAST2.tag port, .ro, []⟩, ⟨LPT_TSLAST2.sec_hi port, .ro, []⟩]
  | 0x100 => .pairLo ⟨LPT_RXFRM.count port, .ro, []⟩
  | 0x104 => .pairHi ⟨LPT_RXFRM.count port, .ro, []⟩
  | 0x108 => .pairLo ⟨LPT_RXBYTE.count port, .ro, []⟩
  | 0x10c => .pairHi ⟨LPT_RXBYTE.count port, .ro, []⟩
  | 0x110 => .pairLo ⟨LPT_RXFCS.count port, .ro, []⟩
  | 0x114 => .pairHi ⟨LPT_RXFCS.count port, .ro, []⟩
  | 0x118 => .pairLo ⟨LPT_RXRUNT.count port, .ro, []⟩
  | 0x11c => .pairHi ⟨LPT_RXRUNT.count port, .ro, []⟩
  | 0x120 => .pairLo ⟨LPT_RXOVER.count port, .ro, []⟩
  | 0x124 => .pairHi ⟨LPT_RXOVER.count port, .ro, []⟩
  | 0x128 => .pairLo ⟨LPT_RXCTRL.count port, .ro, []⟩
  | 0x12c => .pairHi ⟨LPT_RXCTRL.count port, .ro, []⟩
  | 0x130 => .pairLo ⟨LPT_RXDOWN.count port, .ro, []⟩
  | 0x134 => .pairHi ⟨LPT_RXDOWN.count port, .ro, []⟩
  | 0x138 => .pairLo ⟨LPT_TXFRM.count port, .ro, []⟩
  | 0x13c => .pairHi ⟨LPT_TXFRM.count port, .ro, []⟩
  | 0x140 => .pairLo ⟨LPT_TXBYTE.count port, .ro, []⟩
  | 0x144 => .pairHi ⟨LPT_TXBYTE.count port, .ro, []⟩
  | 0x148 => .pairLo ⟨LPT_TXDOWN.count port, .ro, []⟩
  | 0x14c => .pairHi ⟨LPT_TXDOWN.count port, .ro, []⟩
  | 0x150 => .pairLo ⟨LPT_TXERR.count port, .ro, []⟩
  | 0x154 => .pairHi ⟨LPT_TXERR.count port, .ro, []⟩
  | 0x158 => .pairLo ⟨LPT_TSERR.count port, .ro, []⟩
  | 0x15c => .pairHi ⟨LPT_TSERR.count port, .ro, []⟩
  | 0x160 => .pairLo ⟨LPT_FECCOR.count port, .ro, []⟩
  | 0x164 => .pairHi ⟨LPT_FECCOR.count port, .ro, []⟩
  | 0x168 => .pairLo ⟨LPT_FECUNC.count port, .ro, []⟩
  | 0x16c => .pairHi ⟨LPT_FECUNC.count port, .ro, []⟩
  | 0x170 => .pairLo ⟨LPT_FECSYM.count port, .ro, []⟩
  | 0x174 => .pairHi ⟨LPT_FECSYM.count port, .ro, []⟩
  | 0x178 => .pairLo ⟨LPT_LINKDOWN.count port, .ro, []⟩
  | 0x17c => .pairHi ⟨LPT_LINKDOWN.count port, .ro, []⟩
  | _ => .none

/-- The register at offset `off` of block SDS. -/
def regsSDS (ln : Nat) (off : Nat) : RegAt :=
  match off with
  | 0x0 => .word [⟨SDS_CTL.req ln, .rws, [(0, 2)]⟩,
      ⟨SDS_CTL.rate ln, .rws, []⟩,
      ⟨SDS_CTL.tx_invert ln, .rws, []⟩,
      ⟨SDS_CTL.rx_pol_auto ln, .rws, []⟩,
      ⟨SDS_CTL.rx_invert ln, .rws, []⟩,
      ⟨SDS_CTL.prbs ln, .rws, [(0, 2)]⟩,
      ⟨SDS_CTL.refused ln, .w1c, []⟩]
  | 0x4 => .word [⟨SDS_STAT.state ln, .ro, []⟩,
      ⟨SDS_STAT.los ln, .ro, []⟩,
      ⟨SDS_STAT.lol ln, .ro, []⟩,
      ⟨SDS_STAT.rx_inverted ln, .ro, []⟩,
      ⟨SDS_STAT.adapted ln, .ro, []⟩,
      ⟨SDS_STAT.adapt_stored ln, .ro, []⟩,
      ⟨SDS_STAT.align ln, .ro, []⟩,
      ⟨SDS_STAT.lane ln, .ro, []⟩,
      ⟨SDS_STAT.cw_pos ln, .ro, []⟩,
      ⟨SDS_STAT.seq ln, .ro, []⟩]
  | 0x8 => .word [⟨SDS_SIGCFG.los_mv ln, .rws, [(20, 200)]⟩]
  | 0xc => .word [⟨SDS_TXEQ.pre2 ln, .rws, []⟩,
      ⟨SDS_TXEQ.pre1 ln, .rws, []⟩,
      ⟨SDS_TXEQ.main_ ln, .rws, []⟩,
      ⟨SDS_TXEQ.post1 ln, .rws, []⟩]
  | 0x10 => .word [⟨SDS_EYE.eye_mv ln, .ro, []⟩, ⟨SDS_EYE.snr ln, .ro, []⟩]
  | 0x100 => .pairLo ⟨SDS_LOSCNT.count ln, .ro, []⟩
  | 0x104 => .pairHi ⟨SDS_LOSCNT.count ln, .ro, []⟩
  | 0x108 => .pairLo ⟨SDS_LOLCNT.count ln, .ro, []⟩
  | 0x10c => .pairHi ⟨SDS_LOLCNT.count ln, .ro, []⟩
  | 0x110 => .pairLo ⟨SDS_REACQ.count ln, .ro, []⟩
  | 0x114 => .pairHi ⟨SDS_REACQ.count ln, .ro, []⟩
  | 0x118 => .pairLo ⟨SDS_PRBSERR.count ln, .ro, []⟩
  | 0x11c => .pairHi ⟨SDS_PRBSERR.count ln, .ro, []⟩
  | 0x120 => .pairLo ⟨SDS_MKRERR.count ln, .ro, []⟩
  | 0x124 => .pairHi ⟨SDS_MKRERR.count ln, .ro, []⟩
  | 0x128 => .pairLo ⟨SDS_BIPERR.count ln, .ro, []⟩
  | 0x12c => .pairHi ⟨SDS_BIPERR.count ln, .ro, []⟩
  | _ => .none

/-- The register at offset `off` of block FLK. -/
def regsFLK (link : Nat) (off : Nat) : RegAt :=
  match off with
  | 0x0 => .word [⟨FLK_CTL.enable link, .rws, []⟩,
      ⟨FLK_CTL.mode link, .rws, []⟩,
      ⟨FLK_CTL.standby link, .rws, []⟩,
      ⟨FLK_CTL.tx_reverse link, .rws, []⟩,
      ⟨FLK_CTL.force_rdi link, .rw, []⟩,
      ⟨FLK_CTL.psr_tx link, .rw, []⟩,
      ⟨FLK_CTL.plane link, .rws, []⟩]
  | 0x4 => .word [⟨FLK_STAT.frame link, .ro, []⟩,
      ⟨FLK_STAT.aligned link, .ro, []⟩,
      ⟨FLK_STAT.los link, .ro, []⟩,
      ⟨FLK_STAT.loa link, .ro, []⟩,
      ⟨FLK_STAT.lof link, .ro, []⟩,
      ⟨FLK_STAT.tx_defect link, .ro, []⟩,
      ⟨FLK_STAT.rdi_tx link, .ro, []⟩,
      ⟨FLK_STAT.id_mismatch link, .ro, []⟩,
      ⟨FLK_STAT.rdi_cause_rx link, .ro, []⟩,
      ⟨FLK_STAT.psr_rx link, .ro, []⟩,
      ⟨FLK_STAT.fcount link, .ro, []⟩]
  | 0x8 => .word [⟨FLK_EXPID.check link, .rws, []⟩, ⟨FLK_EXPID.link link, .rws, []⟩, ⟨FLK_EXPID.device link, .rws, []⟩]
  | 0xc => .word [⟨FLK_RXID.version link, .ro, []⟩,
      ⟨FLK_RXID.plane link, .ro, []⟩,
      ⟨FLK_RXID.link link, .ro, []⟩,
      ⟨FLK_RXID.device link, .ro, []⟩]
  | 0x10 => .word [⟨FLK_DEFCFG0.set_ link, .rws, [(5, 200)]⟩, ⟨FLK_DEFCFG0.clear link, .rws, [(1, 100)]⟩]
  | 0x14 => .word [⟨FLK_DEFCFG1.set_ link, .rws, [(5, 200)]⟩, ⟨FLK_DEFCFG1.clear link, .rws, [(1, 100)]⟩]
  | 0x18 => .word [⟨FLK_DEFCFG2.set_ link, .rws, [(5, 200)]⟩, ⟨FLK_DEFCFG2.clear link, .rws, [(1, 100)]⟩]
  | 0x20 => .word [⟨FLK_SECSTAMP.sec link, .ro, []⟩]
  | 0x24 => .word [⟨FLK_SECBIP.count link, .ro, []⟩]
  | 0x28 => .word [⟨FLK_SECCOR.count link, .ro, []⟩]
  | 0x2c => .word [⟨FLK_SECUNC.count link, .ro, []⟩]
  | 0x30 => .word [⟨FLK_SECIDLE.count link, .ro, []⟩]
  | 0x34 => .word [⟨FLK_SECSTAT.irregular link, .ro, []⟩, ⟨FLK_SECSTAT.errored link, .ro, []⟩]
  | 0x38 => .word [⟨FLK_ES.count link, .ro, []⟩]
  | 0x100 => .pairLo ⟨FLK_RXCELL.count link, .ro, []⟩
  | 0x104 => .pairHi ⟨FLK_RXCELL.count link, .ro, []⟩
  | 0x108 => .pairLo ⟨FLK_TXCELL.count link, .ro, []⟩
  | 0x10c => .pairHi ⟨FLK_TXCELL.count link, .ro, []⟩
  | 0x110 => .pairLo ⟨FLK_HDRERR.count link, .ro, []⟩
  | 0x114 => .pairHi ⟨FLK_HDRERR.count link, .ro, []⟩
  | 0x118 => .pairLo ⟨FLK_MISROUTE.count link, .ro, []⟩
  | 0x11c => .pairHi ⟨FLK_MISROUTE.count link, .ro, []⟩
  | 0x120 => .pairLo ⟨FLK_SEQGAP.count link, .ro, []⟩
  | 0x124 => .pairHi ⟨FLK_SEQGAP.count link, .ro, []⟩
  | 0x128 => .pairLo ⟨FLK_REASMDROP.count link, .ro, []⟩
  | 0x12c => .pairHi ⟨FLK_REASMDROP.count link, .ro, []⟩
  | 0x130 => .pairLo ⟨FLK_OHCRC.count link, .ro, []⟩
  | 0x134 => .pairHi ⟨FLK_OHCRC.count link, .ro, []⟩
  | 0x138 => .pairLo ⟨FLK_PSRBAD.count link, .ro, []⟩
  | 0x13c => .pairHi ⟨FLK_PSRBAD.count link, .ro, []⟩
  | 0x140 => .pairLo ⟨FLK_OOF.count link, .ro, []⟩
  | 0x144 => .pairHi ⟨FLK_OOF.count link, .ro, []⟩
  | 0x148 => .pairLo ⟨FLK_HOLDOVF.count link, .ro, []⟩
  | 0x14c => .pairHi ⟨FLK_HOLDOVF.count link, .ro, []⟩
  | _ => .none

/-- The register at offset `off` of block FLKD. -/
def regsFLKD (off : Nat) : RegAt :=
  match off with
  | 0x0 => .pairLo ⟨FLK_CRDDROP.count, .ro, []⟩
  | 0x4 => .pairHi ⟨FLK_CRDDROP.count, .ro, []⟩
  | 0x8 => .word [⟨FLK_OUTBOX.messages, .ro, []⟩]
  | _ => .none

/-- The register at offset `off` of block SEAT. -/
def regsSEAT (off : Nat) : RegAt :=
  match off with
  | 0x0 => .word [⟨SEAT_STAT.state_a, .ro, []⟩,
      ⟨SEAT_STAT.state_b, .ro, []⟩,
      ⟨SEAT_STAT.active, .ro, []⟩,
      ⟨SEAT_STAT.in_step, .ro, []⟩,
      ⟨SEAT_STAT.epoch_a, .ro, []⟩,
      ⟨SEAT_STAT.epoch_b, .ro, []⟩]
  | 0x4 => .word [⟨SEAT_CFG.auto_return, .rws, []⟩, ⟨SEAT_CFG.wedge_ms, .rws, [(1, 1000)]⟩, ⟨SEAT_CFG.hb_us, .rws, [(10, 1000)]⟩]
  | 0x8 => .word [⟨SEAT_CKPT.period_us, .rws, [(100, 10000)]⟩]
  | 0xc => .word [⟨SEAT_WDCFG.cl_wd_us, .rws, [(200, 60000)]⟩, ⟨SEAT_WDCFG.eng_wd_us, .rws, [(20, 10000)]⟩]
  | 0x10 => .word [⟨SEAT_EVID.evid_b, .w1c, []⟩, ⟨SEAT_EVID.evid_a, .w1c, []⟩]
  | 0x1c => .word [⟨SEAT_AVSCFG.target_ps, .rws, [(5, 100)]⟩]
  | 0x20 => .word [⟨SEAT_AVS.fd_steps, .ro, []⟩,
      ⟨SEAT_AVS.td_steps, .ro, []⟩,
      ⟨SEAT_AVS.fd_margin, .ro, []⟩,
      ⟨SEAT_AVS.td_margin, .ro, []⟩]
  | 0x24 => .word [⟨SEAT_TJAVG.avg, .ro, []⟩]
  | 0x28 => .word [⟨SEAT_STRESS0.hours, .ro, []⟩]
  | 0x2c => .word [⟨SEAT_STRESS1.hours, .ro, []⟩]
  | 0x30 => .word [⟨SEAT_STRESS2.hours, .ro, []⟩]
  | 0x100 => .pairLo ⟨SEAT_TAKEOVER.count, .ro, []⟩
  | 0x104 => .pairHi ⟨SEAT_TAKEOVER.count, .ro, []⟩
  | 0x108 => .pairLo ⟨SEAT_MISMATCH.count, .ro, []⟩
  | 0x10c => .pairHi ⟨SEAT_MISMATCH.count, .ro, []⟩
  | 0x110 => .pairLo ⟨SEAT_ROLLBACK.count, .ro, []⟩
  | 0x114 => .pairHi ⟨SEAT_ROLLBACK.count, .ro, []⟩
  | 0x118 => .pairLo ⟨SEAT_STALEMATE.count, .ro, []⟩
  | 0x11c => .pairHi ⟨SEAT_STALEMATE.count, .ro, []⟩
  | 0x120 => .pairLo ⟨SEAT_STALE_SEAT.count, .ro, []⟩
  | 0x124 => .pairHi ⟨SEAT_STALE_SEAT.count, .ro, []⟩
  | 0x128 => .pairLo ⟨SEAT_STALE_ENG.count, .ro, []⟩
  | 0x12c => .pairHi ⟨SEAT_STALE_ENG.count, .ro, []⟩
  | 0x130 => .pairLo ⟨SEAT_STALE_BLOCK.count, .ro, []⟩
  | 0x134 => .pairHi ⟨SEAT_STALE_BLOCK.count, .ro, []⟩
  | 0x138 => .pairLo ⟨SEAT_CLRESET.count, .ro, []⟩
  | 0x13c => .pairHi ⟨SEAT_CLRESET.count, .ro, []⟩
  | 0x140 => .pairLo ⟨SEAT_UNPROT_MS.count, .ro, []⟩
  | 0x144 => .pairHi ⟨SEAT_UNPROT_MS.count, .ro, []⟩
  | _ => .none

/-- The register at offset `off` of block D2D. -/
def regsD2D (off : Nat) : RegAt :=
  if 0x100 ≤ off ∧ off < 0x160 ∧ (off - 0x100) % 4 = 0 then
    let m := (off - 0x100) / 4
    .word [⟨D2D_MODSTAT.state m, .ro, []⟩, ⟨D2D_MODSTAT.cause m, .ro, []⟩, ⟨D2D_MODSTAT.spares_ft m, .ro, []⟩, ⟨D2D_MODSTAT.spares_tf m, .ro, []⟩]
  else
  if 0x420 ≤ off ∧ off < 0x440 ∧ (off - 0x420) % 8 < 8 then
    let p := (off - 0x420) / 8
    if (off - 0x420) % 8 = 0 then .pairLo ⟨D2D_BRGDROP.count p, .ro, []⟩ else .pairHi ⟨D2D_BRGDROP.count p, .ro, []⟩
  else
  if 0x440 ≤ off ∧ off < 0x460 ∧ (off - 0x440) % 8 < 8 then
    let p := (off - 0x440) / 8
    if (off - 0x440) % 8 = 0 then .pairLo ⟨D2D_ISLDROP.count p, .ro, []⟩ else .pairHi ⟨D2D_ISLDROP.count p, .ro, []⟩
  else
  if 0x1000 ≤ off ∧ off < 0x1400 ∧ (off - 0x1000) % 8 < 8 then
    let n := (off - 0x1000) / 8
    if (off - 0x1000) % 8 = 0 then .pairLo ⟨D2D_XOVFL.count n, .ro, []⟩ else .pairHi ⟨D2D_XOVFL.count n, .ro, []⟩
  else
  if 0x1400 ≤ off ∧ off < 0x1a00 ∧ (off - 0x1400) % 8 < 8 then
    let f := (off - 0x1400) / 8
    if (off - 0x1400) % 8 = 0 then .pairLo ⟨D2D_XOVFF.count f, .ro, []⟩ else .pairHi ⟨D2D_XOVFF.count f, .ro, []⟩
  else
  match off with
  | 0x0 => .word [⟨D2D_CFG.auto_rejoin, .rws, []⟩, ⟨D2D_CFG.min_modules, .rws, [(1, 24)]⟩, ⟨D2D_CFG.ka_us, .rws, [(20, 10000)]⟩]
  | 0x4 => .word [⟨D2D_ISLCFG.voq_hold_ms, .rws, [(0, 10000)]⟩]
  | 0x8 => .word [⟨D2D_STAT.bridge, .ro, []⟩,
      ⟨D2D_STAT.sideband_up, .ro, []⟩,
      ⟨D2D_STAT.fd_powered, .ro, []⟩,
      ⟨D2D_STAT.fd_reset, .ro, []⟩,
      ⟨D2D_STAT.active, .ro, []⟩]
  | 0xc => .word [⟨D2D_CTL.retrain, .w1s, []⟩, ⟨D2D_CTL.module, .rw, []⟩]
  | 0x400 => .pairLo ⟨D2D_LOSSCNT.count, .ro, []⟩
  | 0x404 => .pairHi ⟨D2D_LOSSCNT.count, .ro, []⟩
  | 0x408 => .pairLo ⟨D2D_LANEFAIL.count, .ro, []⟩
  | 0x40c => .pairHi ⟨D2D_LANEFAIL.count, .ro, []⟩
  | 0x410 => .pairLo ⟨D2D_REPLAY_FT.count, .ro, []⟩
  | 0x414 => .pairHi ⟨D2D_REPLAY_FT.count, .ro, []⟩
  | 0x418 => .pairLo ⟨D2D_REPLAY_TF.count, .ro, []⟩
  | 0x41c => .pairHi ⟨D2D_REPLAY_TF.count, .ro, []⟩
  | 0x460 => .pairLo ⟨D2D_PKTLOST.count, .ro, []⟩
  | 0x464 => .pairHi ⟨D2D_PKTLOST.count, .ro, []⟩
  | _ => .none

/-- The register at offset `off` of block BAR4. -/
def regsBAR4 (off : Nat) : RegAt :=
  match off with
  | 0x0 => .word [⟨UPD_RCMD.go, .w1s, []⟩, ⟨UPD_RCMD.cmd, .rw, []⟩]
  | 0x4 => .word [⟨UPD_ROFF.offset, .rw, []⟩]
  | 0x8 => .word [⟨UPD_RLEN.length, .rw, []⟩]
  | 0xc => .word [⟨UPD_RSTAT.state, .ro, []⟩, ⟨UPD_RSTAT.reason, .ro, []⟩]
  | 0x10 => .word [⟨UPD_RPROG.bytes, .ro, []⟩]
  | _ => .none

/-- The register at offset `off` of block UPD. -/
def regsUPD (off : Nat) : RegAt :=
  if 0x10 ≤ off ∧ off < 0x28 ∧ (off - 0x10) % 8 = 0 then
    let a := (off - 0x10) / 8
    .word [⟨UPD_AREASTAT.state a, .ro, []⟩, ⟨UPD_AREASTAT.confirmed a, .ro, []⟩, ⟨UPD_AREASTAT.trial a, .ro, []⟩]
  else
  if 0x14 ≤ off ∧ off < 0x2c ∧ (off - 0x14) % 8 = 0 then
    let a := (off - 0x14) / 8
    .word [⟨UPD_AREAVER.version a, .ro, []⟩]
  else
  match off with
  | 0x0 => .word [⟨UPD_CFG.chain_fwd, .rws, []⟩,
      ⟨UPD_CFG.pcie_fwd, .rws, []⟩,
      ⟨UPD_CFG.chain_rx, .rws, []⟩,
      ⟨UPD_CFG.trial_min, .rws, [(1, 1440)]⟩,
      ⟨UPD_CFG.idle_s, .rws, [(1, 600)]⟩]
  | 0x4 => .word [⟨UPD_HOLD.hold_min, .rws, [(1, 1440)]⟩]
  | 0x8 => .word [⟨UPD_SESS.state, .ro, []⟩,
      ⟨UPD_SESS.source, .ro, []⟩,
      ⟨UPD_SESS.target, .ro, []⟩,
      ⟨UPD_SESS.reason, .ro, []⟩,
      ⟨UPD_SESS.session, .ro, []⟩]
  | 0xc => .word [⟨UPD_PROG.bytes, .ro, []⟩]
  | 0x28 => .word [⟨UPD_BOOT.booted, .ro, []⟩,
      ⟨UPD_BOOT.settings_reset, .w1c, []⟩,
      ⟨UPD_BOOT.settings_frozen, .ro, []⟩,
      ⟨UPD_BOOT.recovery_cause, .ro, []⟩,
      ⟨UPD_BOOT.boot_fails, .ro, []⟩]
  | 0x2c => .word [⟨UPD_KEYS.revoked, .ro, []⟩, ⟨UPD_KEYS.present, .ro, []⟩]
  | 0x30 => .word [⟨UPD_CHAIN.a_up, .ro, []⟩, ⟨UPD_CHAIN.b_up, .ro, []⟩, ⟨UPD_CHAIN.peer_a, .ro, []⟩, ⟨UPD_CHAIN.peer_b, .ro, []⟩]
  | 0x100 => .pairLo ⟨UPD_SESSCNT.count, .ro, []⟩
  | 0x104 => .pairHi ⟨UPD_SESSCNT.count, .ro, []⟩
  | 0x108 => .pairLo ⟨UPD_FAILCNT.count, .ro, []⟩
  | 0x10c => .pairHi ⟨UPD_FAILCNT.count, .ro, []⟩
  | 0x110 => .pairLo ⟨UPD_CHNRXA.count, .ro, []⟩
  | 0x114 => .pairHi ⟨UPD_CHNRXA.count, .ro, []⟩
  | 0x118 => .pairLo ⟨UPD_CHNRXB.count, .ro, []⟩
  | 0x11c => .pairHi ⟨UPD_CHNRXB.count, .ro, []⟩
  | 0x120 => .pairLo ⟨UPD_CHNRETX.count, .ro, []⟩
  | 0x124 => .pairHi ⟨UPD_CHNRETX.count, .ro, []⟩
  | 0x128 => .pairLo ⟨UPD_CHNCRC.count, .ro, []⟩
  | 0x12c => .pairHi ⟨UPD_CHNCRC.count, .ro, []⟩
  | 0x130 => .pairLo ⟨UPD_REVERTCNT.count, .ro, []⟩
  | 0x134 => .pairHi ⟨UPD_REVERTCNT.count, .ro, []⟩
  | 0x138 => .pairLo ⟨UPD_NORERR.count, .ro, []⟩
  | 0x13c => .pairHi ⟨UPD_NORERR.count, .ro, []⟩
  | _ => .none

/-- The register at offset `off` of block CHK. -/
def regsCHK (off : Nat) : RegAt :=
  match off with
  | 0x0 => .word [⟨CHK_STAT.busy, .ro, []⟩, ⟨CHK_STAT.owner, .ro, []⟩]
  | 0x100 => .pairLo ⟨CHK_JOBCNT.count, .ro, []⟩
  | 0x104 => .pairHi ⟨CHK_JOBCNT.count, .ro, []⟩
  | 0x108 => .pairLo ⟨CHK_BUSYCNT.count, .ro, []⟩
  | 0x10c => .pairHi ⟨CHK_BUSYCNT.count, .ro, []⟩
  | _ => .none

/-- The register at offset `off` of block GEN. -/
def regsGEN (off : Nat) : RegAt :=
  match off with
  | 0x0 => .word [⟨GEN_ID.device_id, .ro, []⟩, ⟨GEN_ID.vendor_id, .ro, []⟩]
  | 0x4 => .word [⟨GEN_REV.member, .ro, []⟩, ⟨GEN_REV.fd_rev, .ro, []⟩, ⟨GEN_REV.td_rev, .ro, []⟩, ⟨GEN_REV.regmap, .ro, []⟩]
  | 0x8 => .word [⟨GEN_SERIAL0.serial_lo, .ro, []⟩]
  | 0xc => .word [⟨GEN_SERIAL1.serial_hi, .ro, []⟩]
  | 0x10 => .word [⟨GEN_CAPS.line_lanes, .ro, []⟩,
      ⟨GEN_CAPS.fabric_links, .ro, []⟩,
      ⟨GEN_CAPS.clusters, .ro, []⟩,
      ⟨GEN_CAPS.hbm_stacks, .ro, []⟩,
      ⟨GEN_CAPS.ddr_channels, .ro, []⟩]
  | 0x14 => .word [⟨GEN_FWVER.version, .ro, []⟩]
  | 0x20 => .word [⟨GEN_SEAL.key, .wo, []⟩, ⟨GEN_SEAL.sealed, .w1s, []⟩]
  | 0x24 => .word [⟨GEN_SEALCAP.valid, .w1c, []⟩, ⟨GEN_SEALCAP.offset, .ro, []⟩]
  | 0x28 => .pairLo ⟨GEN_SEALVIOL.count, .ro, []⟩
  | 0x2c => .pairHi ⟨GEN_SEALVIOL.count, .ro, []⟩
  | 0x100 => .word [⟨GEN_BOOTSTAT.ready, .ro, []⟩,
      ⟨GEN_BOOTSTAT.kind, .ro, []⟩,
      ⟨GEN_BOOTSTAT.fd_ok, .ro, []⟩,
      ⟨GEN_BOOTSTAT.step, .ro, []⟩]
  | 0x104 => .word [⟨GEN_BOOTTIME.us, .ro, []⟩]
  | 0x108 => .word [⟨GEN_RSTCAUSE.group, .ro, []⟩, ⟨GEN_RSTCAUSE.cause, .ro, []⟩]
  | 0x10c => .word [⟨GEN_RSTCTL.arm, .w1s, []⟩,
      ⟨GEN_RSTCTL.refused, .w1c, []⟩,
      ⟨GEN_RSTCTL.warm, .w1s, []⟩,
      ⟨GEN_RSTCTL.cold, .w1s, []⟩]
  | 0x110 => .word [⟨GEN_STRAPS.straps, .ro, []⟩]
  | 0x114 => .word [⟨GEN_PSEQ.pg, .ro, []⟩, ⟨GEN_PSEQ.en, .ro, []⟩]
  | 0x118 => .word [⟨GEN_STSTAT.running, .ro, []⟩]
  | _ => .none

/-- The register at offset `off` of block TIM. -/
def regsTIM (off : Nat) : RegAt :=
  match off with
  | 0x0 => .word [⟨TIM_CFG.mode, .rw, []⟩, ⟨TIM_CFG.baud, .rw, []⟩]
  | 0x4 => .word [⟨TIM_STAT.servo, .ro, []⟩,
      ⟨TIM_STAT.slewing, .ro, []⟩,
      ⟨TIM_STAT.step_pending, .ro, []⟩,
      ⟨TIM_STAT.refused, .w1c, []⟩]
  | 0x10 => .word [⟨TIM_NOW0.ns, .ro, []⟩]
  | 0x14 => .word [⟨TIM_NOW1.sec_lo, .ro, []⟩]
  | 0x18 => .word [⟨TIM_NOW2.sec_hi, .ro, []⟩]
  | 0x20 => .word [⟨TIM_SET0.ns, .rw, []⟩]
  | 0x24 => .word [⟨TIM_SET1.sec_lo, .rw, []⟩]
  | 0x28 => .word [⟨TIM_SET2.sec_hi, .rw, []⟩]
  | 0x2c => .word [⟨TIM_OFFS.offset, .rw, []⟩]
  | 0x30 => .word [⟨TIM_CTL.step, .w1s, []⟩, ⟨TIM_CTL.offset, .w1s, []⟩]
  | 0x34 => .word [⟨TIM_FREQ.adj, .rw, []⟩]
  | 0x38 => .word [⟨TIM_SLEW.max_ns, .rw, []⟩]
  | 0x3c => .word [⟨TIM_SLEWRATE.rate_ppm, .rw, [(1, 1000)]⟩]
  | 0x40 => .word [⟨TIM_SERVO0.step_ns, .rw, []⟩]
  | 0x44 => .word [⟨TIM_SERVO1.lock_ns, .rw, []⟩]
  | 0x48 => .word [⟨TIM_PHASE.e, .ro, []⟩]
  | 0x50 => .word [⟨TIM_PPSCAP0.ns, .ro, []⟩]
  | 0x54 => .word [⟨TIM_PPSCAP1.sec_lo, .ro, []⟩]
  | 0x58 => .word [⟨TIM_PPSCAP2.sec_hi, .ro, []⟩]
  | 0x60 => .word [⟨TIM_TODSEC0.sec_lo, .ro, []⟩]
  | 0x64 => .word [⟨TIM_TODSEC1.sec_hi, .ro, []⟩]
  | 0x68 => .word [⟨TIM_TODSTAT.leap, .ro, []⟩, ⟨TIM_TODSTAT.valid, .ro, []⟩, ⟨TIM_TODSTAT.utc_off, .ro, []⟩]
  | 0x100 => .pairLo ⟨TIM_PPSGLITCH.count, .ro, []⟩
  | 0x104 => .pairHi ⟨TIM_PPSGLITCH.count, .ro, []⟩
  | 0x108 => .pairLo ⟨TIM_TODERR.count, .ro, []⟩
  | 0x10c => .pairHi ⟨TIM_TODERR.count, .ro, []⟩
  | 0x110 => .pairLo ⟨TIM_STEPS.count, .ro, []⟩
  | 0x114 => .pairHi ⟨TIM_STEPS.count, .ro, []⟩
  | _ => .none

/-- The register at offset `off` of block TEL. -/
def regsTEL (off : Nat) : RegAt :=
  if 0x100 ≤ off ∧ off < 0x200 ∧ (off - 0x100) % 4 = 0 then
    let s := (off - 0x100) / 4
    .word [⟨TEL_SEGMAP.home s, .rw, []⟩, ⟨TEL_SEGMAP.state s, .ro, []⟩]
  else
  match off with
  | 0x0 => .word [⟨TEL_CFG.smp_en, .rw, []⟩, ⟨TEL_CFG.smp_session, .rw, []⟩]
  | 0x4 => .word [⟨TEL_CNTBASE.base, .rws, []⟩]
  | 0x8 => .word [⟨TEL_CACHE.wb_us, .rws, [(10, 10000)]⟩]
  | 0xc => .word [⟨TEL_HBMSEG.used, .ro, []⟩, ⟨TEL_HBMSEG.avail, .ro, []⟩]
  | 0x10 => .word [⟨TEL_STAT.refused, .w1c, []⟩]
  | 0x200 => .word [⟨TEL_SIDX.session, .rw, []⟩]
  | 0x204 => .word [⟨TEL_SDATA0.enable, .rw, []⟩,
      ⟨TEL_SDATA0.kind, .rw, []⟩,
      ⟨TEL_SDATA0.snap, .rw, []⟩,
      ⟨TEL_SDATA0.ring, .rw, []⟩]
  | 0x208 => .word [⟨TEL_SDATA1.rate_n, .rw, [(1, 16777215)]⟩]
  | 0x20c => .word [⟨TEL_SDATA2.max_sps, .rw, []⟩]
  | 0x210 => .word [⟨TEL_SDATA3.queue, .rw, []⟩]
  | 0x214 => .word [⟨TEL_SDATA4.cls, .rw, []⟩, ⟨TEL_SDATA4.dest, .rw, []⟩]
  | 0x218 => .word [⟨TEL_SCMD.write, .w1s, []⟩, ⟨TEL_SCMD.read, .w1s, []⟩]
  | 0x400 => .pairLo ⟨TEL_CNTLOST.count, .ro, []⟩
  | 0x404 => .pairHi ⟨TEL_CNTLOST.count, .ro, []⟩
  | 0x408 => .pairLo ⟨TEL_CNTNOSEG.count, .ro, []⟩
  | 0x40c => .pairHi ⟨TEL_CNTNOSEG.count, .ro, []⟩
  | 0x410 => .pairLo ⟨TEL_CNTUE.count, .ro, []⟩
  | 0x414 => .pairHi ⟨TEL_CNTUE.count, .ro, []⟩
  | 0x418 => .pairLo ⟨TEL_SMPCAP.count, .ro, []⟩
  | 0x41c => .pairHi ⟨TEL_SMPCAP.count, .ro, []⟩
  | 0x420 => .pairLo ⟨TEL_CNTRANGE.count, .ro, []⟩
  | 0x424 => .pairHi ⟨TEL_CNTRANGE.count, .ro, []⟩
  | _ => .none

/-- The register at offset `off` of block PWR. -/
def regsPWR (off : Nat) : RegAt :=
  if 0x100 ≤ off ∧ off < 0x180 ∧ (off - 0x100) % 4 = 0 then
    let n := (off - 0x100) / 4
    .word [⟨PWR_SENS.temp n, .ro, []⟩]
  else
  if 0x200 ≤ off ∧ off < 0x23c ∧ (off - 0x200) % 4 = 0 then
    let k := (off - 0x200) / 4
    .word [⟨PWR_RAIL.high k, .w1c, []⟩, ⟨PWR_RAIL.low k, .w1c, []⟩, ⟨PWR_RAIL.mv k, .ro, []⟩]
  else
  if 0x300 ≤ off ∧ off < 0x308 ∧ (off - 0x300) % 4 = 0 then
    let d := (off - 0x300) / 4
    .word [⟨PWR_AVSTGT.mv d, .ro, []⟩]
  else
  match off with
  | 0x0 => .word [⟨PWR_CFG.alert_c, .rws, [(70, 110)]⟩, ⟨PWR_CFG.hyst_c, .rws, [(1, 20)]⟩]
  | 0x4 => .word [⟨PWR_STAT.alert, .ro, []⟩,
      ⟨PWR_STAT.feed, .ro, []⟩,
      ⟨PWR_STAT.trip_seen, .w1c, []⟩,
      ⟨PWR_STAT.avs_fail, .ro, []⟩,
      ⟨PWR_STAT.hot_fd_c, .ro, []⟩,
      ⟨PWR_STAT.hot_td_c, .ro, []⟩]
  | 0x400 => .pairLo ⟨PWR_ALERTCNT.count, .ro, []⟩
  | 0x404 => .pairHi ⟨PWR_ALERTCNT.count, .ro, []⟩
  | 0x408 => .pairLo ⟨PWR_RAILCNT.count, .ro, []⟩
  | 0x40c => .pairHi ⟨PWR_RAILCNT.count, .ro, []⟩
  | _ => .none

/-- The register that BAR0 decodes at a word address (*BAR0 map*, R647); `.none` is a reserved address or a gap. -/
def regAt (a : Nat) : RegAt :=
  if a < 0x10000 then regsGEN a
  else if a < 0x20000 then regsHIF (a - 0x10000)
  else if a < 0x30000 then regsSEAT (a - 0x20000)
  else if a < 0x38000 then regsUPD (a - 0x30000)
  else if a < 0x40000 then regsCHK (a - 0x38000)
  else if a < 0x80000 then regsTIM (a - 0x40000)
  else if a < 0x98000 then regsENG ((a - 0x80000) / 0x1000) (a % 0x1000)
  else if a < 0x9F000 then .none
  else if a < 0xA0000 then regsENGD (a - 0x9F000)
  else if a < 0x100000 then .none
  else if a < 0x140000 then regsLKP (a - 0x100000)
  else if a < 0x180000 then regsBRG (a - 0x140000)
  else if a < 0x1C0000 then regsBPM (a - 0x180000)
  else if a < 0x200000 then regsQM (a - 0x1C0000)
  else if a < 0x240000 then regsSCH (a - 0x200000)
  else if a < 0x260000 then regsPOL (a - 0x240000)
  else if a < 0x268000 then regsTG ((a - 0x260000) / 0x100) (a % 0x100)
  else if a < 0x300000 then .none
  else if a < 0x318000 then regsMCH ((a - 0x300000) / 0x4000) (a % 0x4000)
  else if a < 0x380000 then .none
  else if a < 0x390000 then regsMCD ((a - 0x380000) / 0x2000) (a % 0x2000)
  else if a < 0x400000 then .none
  else if a < 0x440000 then regsLPT ((a - 0x400000) / 0x800) (a % 0x800)
  else if a < 0x480000 then .none
  else if a < 0x4A0000 then regsSDS ((a - 0x480000) / 0x400) (a % 0x400)
  else if a < 0x4C0000 then .none
  else if a < 0x4F0000 then regsSDS ((a - 0x4C0000) / 0x400 + 128) (a % 0x400)
  else if a < 0x500000 then .none
  else if a < 0x530000 then regsFLK ((a - 0x500000) / 0x1000) (a % 0x1000)
  else if a < 0x57F000 then .none
  else if a < 0x580000 then regsFLKD (a - 0x57F000)
  else if a < 0x5C0000 then regsD2D (a - 0x580000)
  else if a < 0x600000 then regsTEL (a - 0x5C0000)
  else if a < 0x640000 then regsPWR (a - 0x600000)
  else .none

end Sys2Proof.Machine
end

