-- ==== Sys2Proof/Machine/RegRead.lean ====
section
/-! DEFINITION. Reading registers (R9 to R12, R466, R602, R606, R648 to R651): the live word of a register, the latches of the three
access paths, and what a read changes. -/
namespace Sys2Proof.Machine

/-! ### Live words -/

/-- The value of a field in its place; a WO field reads 0 (R12). -/
def State.fieldBits (s : State) (p : Path) (f : FldAcc) : Nat :=
  match f.acc with
  | .wo => 0
  | _ => s.rd (f.fld.on p) * 2 ^ f.fld.lo

/-- The fields of a register as they stand, reserved bits 0 (R11). -/
def State.storedWord (s : State) (p : Path) (fs : List FldAcc) : Nat := fs.foldl (fun a f => a + s.fieldBits p f) 0

/-- The ring that HIF_RIDX chooses on an access path. -/
def State.ringShown (s : State) (p : Path) : Ring := s.ring (s.rd (HIF_RIDX.ring.on p))

/-- HIF_RSTAT. -/
def Ring.statWord (g : Ring) : Nat :=
  let ts := g.taken.toList ++ g.buffers
  g.st.num * 2 ^ 29 + g.cause % 8 * 2 ^ 26 + b2n (ts.any (fun t => t.st == .parked)) * 2 ^ 17 +
    b2n (ts.any (fun t => t.st == .preempted || t.st == .ready)) * 2 ^ 16 + g.head

/-- HIF_RPROG. -/
def Ring.progWord (g : Ring) : Nat :=
  match g.taken with
  | some t => t.progress
  | none => 0

/-- BRG_DOMCFG and BRG_DOMSTAT of the domain and pipe that BRG_DOMIDX chooses on an access path. -/
def State.domCfgWord (s : State) (p : Path) : Nat :=
  let x := s.domCfg (s.rd (BRG_DOMIDX.domain.on p))
  b2n x.1 * 2 ^ 31 + x.2
def State.domStatWord (s : State) (p : Path) : Nat :=
  min (2 ^ 21 - 1) (s.domCount (s.rd (BRG_DOMIDX.pipe.on p)) (s.rd (BRG_DOMIDX.domain.on p)))

/-- HIF_RCTL: stop reads 1 while the ring that it was asked to stop is stopping, start while the RCT entry cannot be read. -/
def State.rctlWord (s : State) (p : Path) (fs : List FldAcc) : Nat :=
  let going : Bool := match s.hif.rctlStop with
    | some r => (s.ring r).st == .stopping
    | none => false
  s.storedWord p fs + b2n going * 2 + b2n s.hif.rctlStart.isSome

/-- qos_target of MCH_STAT and MCD_STAT (R416), in its place; 0 for any other register. -/
def State.qosBit (s : State) (a : Nat) : Nat :=
  if 0x300000 ≤ a ∧ a < 0x318000 ∧ a % 0x4000 = 4 then b2n (s.stackQos ((a - 0x300000) / 0x4000)) * 2 ^ 29
  else if 0x380000 ≤ a ∧ a < 0x390000 ∧ a % 0x2000 = 4 then b2n (s.qosTarget (384 + (a - 0x380000) / 0x2000)) * 2 ^ 27
  else 0

/-- The word of a register that is no pair, as it stands (R647, R655). -/
def State.liveWord (s : State) (p : Path) (a : Nat) (fs : List FldAcc) : Nat :=
  match a with
  | 0x0010C => b2n s.armed * 2 ^ 31 + s.rd GEN_RSTCTL.refused * 4
  | 0x10044 => (s.ringShown p).statWord
  | 0x10048 => (s.ringShown p).completed * 65536 + (s.ringShown p).tail
  | 0x1004C => (s.ringShown p).progWord
  | 0x10050 => s.rctlWord p fs
  | 0x40010 => s.tim.ns
  | 0x40014 => s.tim.sec % 2 ^ 32
  | 0x40018 => s.tim.sec / 2 ^ 32 % 2 ^ 16
  | 0x140024 => s.domCfgWord p
  | 0x140028 => s.domStatWord p
  | _ => s.storedWord p fs + s.qosBit a

/-- The 64-bit value of a register pair as it stands. -/
def State.livePair (s : State) (f : Fld) : Nat :=
  if f = SEAT_UNPROT_MS.count then s.unprotTotal / 1000000 else s.rd f

/-- The live word at an address: 0 at a reserved one (R648). -/
def State.live (s : State) (p : Path) (a : Nat) : Nat :=
  match regAt a with
  | .none => 0
  | .word fs => s.liveWord p a fs
  | .pairLo f => s.livePair f.fld % 2 ^ 32
  | .pairHi f => s.livePair f.fld / 2 ^ 32

/-- The MSI-X table and the pending bits at a BAR0 address, in the PCIe layout. -/
def State.msixAt (s : State) (a : Nat) : Option Nat :=
  if 0x18000 ≤ a ∧ a < 0x1A000 then some (s.msixWord ((a - 0x18000) / 4))
  else if 0x1A000 ≤ a ∧ a < 0x1A040 then
    some ((List.range 32).foldl (fun v i => v + b2n (s.vec (8 * (a - 0x1A000) + i)).pba * 2 ^ i) 0)
  else none

/-- Whether an address is in the MSI-X table or the pending bit array. -/
def isMsix (a : Nat) : Bool := 0x18000 ≤ a && a < 0x1A040

/-- Whether an address is reserved or a gap (R648). -/
def isReserved (a : Nat) : Bool := !isMsix a && (regAt a == .none || a % 4 != 0)

/-! ### Latches (R10, R650) -/

/-- The latches of an access path. -/
def State.latch (s : State) : Path → Latch
  | .bar0 => s.bar0L
  | .cmd => s.cmdL
  | .bmc => s.bmcL

/-- The latches of an access path replaced. -/
def State.setLatch (s : State) (p : Path) (l : Latch) : State :=
  match p with
  | .bar0 => { s with bar0L := l }
  | .cmd => { s with cmdL := l }
  | .bmc => { s with bmcL := l }

/-- The place of a register in a set of three: the set's first address and which of the three it is (R466, R602, R606). -/
def tripleAt (a : Nat) : Option (Nat × Nat) :=
  let f := if 0x400000 ≤ a ∧ a < 0x440000 then some (a - a % 0x800 + 0x20) else if 0x40010 ≤ a ∧ a < 0x4001C then some 0x40010
    else if 0x40050 ≤ a ∧ a < 0x4005C then some 0x40050 else none
  match f with
  | none => none
  | some b => if b ≤ a ∧ a < b + 12 ∧ (a - b) % 4 = 0 then some (b, (a - b) / 4) else none

/-- The second and third words that the latch of a set holds, if the set's first register was the last to load it. -/
def Latch.triple (l : Latch) (b : Nat) : Option (Nat × Nat) :=
  if b = 0x40010 then l.now
  else if b = 0x40050 then l.ppscap
  else match l.tslast with
    | some (k, x, y) => if k = b then some (x, y) else none
    | none => none

/-- The latch of a set loaded. -/
def Latch.load (l : Latch) (b x y : Nat) : Latch :=
  if b = 0x40010 then { l with now := some (x, y) }
  else if b = 0x40050 then { l with ppscap := some (x, y) }
  else { l with tslast := some (b, x, y) }

/-! ### A read and its effects -/

/-- The low word of a pair read on an access path: it loads the path's latch with the high word (R10). -/
def State.readLow (s : State) (p : Path) (f : Fld) : Nat × State :=
  let v := s.livePair f
  (v % 2 ^ 32, s.setLatch p { s.latch p with pair := some (f.addr, v / 2 ^ 32) })

/-- The high word of a pair read on an access path: latched by its own low word, else live (R10). -/
def State.readHigh (s : State) (p : Path) (f : Fld) : Nat :=
  match (s.latch p).pair with
  | some (k, h) => if k = f.addr then h else s.livePair f / 2 ^ 32
  | none => s.livePair f / 2 ^ 32

/-- What a read of a register changes: BPM_MIN* reloads the current count (RC), and a LOST segment has been seen. -/
def State.afterRead (s : State) (a : Nat) : State :=
  match a with
  | 0x180030 => s.wr BPM_MINSHAL.min_ (s.freeOf 0)
  | 0x180034 => s.wr BPM_MINPREF.min_ (s.freeOf 1)
  | 0x180038 => s.wr BPM_MINDEEP.min_ (s.freeOf 2)
  | 0x18003C => s.wr BPM_MINRSV.min_ (s.freeOf 3)
  | _ =>
    let k := (a - 0x5C0100) / 4
    if 0x5C0100 ≤ a ∧ a < 0x5C0200 ∧ s.rd (TEL_SEGMAP.state k) = 2 then s.wr (TEL_SEGMAP.state k) 0 else s

/-- A register of a set of three read on an access path. -/
def State.readTriple (s : State) (p : Path) (a b i : Nat) : Nat × State :=
  if i = 0 then (s.live p a, s.setLatch p ((s.latch p).load b (s.live p (b + 4)) (s.live p (b + 8))))
  else match (s.latch p).triple b with
    | some (x, y) => (if i = 1 then x else y, s)
    | none => (s.live p a, s)

/-- A read of a BAR0 word on an access path: its value, and the state with what the read changes. -/
def State.regRead (s : State) (p : Path) (a : Nat) : Nat × State :=
  match s.msixAt a with
  | some v => (v, s)
  | none =>
    match regAt a with
    | .none => (0, s)
    | .pairLo f => s.readLow p f.fld
    | .pairHi f => (s.readHigh p f.fld, s)
    | .word fs =>
      match tripleAt a with
      | some (b, i) => s.readTriple p a b i
      | none => (s.liveWord p a fs, s.afterRead a)

/-! ### Accesses to the Forwarding Die (R37, R38) -/

/-- The FD end records the result of an access under its tag, for the last 16 tags (R37). -/
def State.tagDone (s : State) (tag v : Nat) : State :=
  { s with dies := { s.dies with tags := ((tag, v) :: s.dies.tags).take 16, sbResult := some (tag, v) } }

/-- The tag of the next access. -/
def State.nextTag (s : State) : Nat × State :=
  (s.dies.nextTag, { s with dies := { s.dies with nextTag := (s.dies.nextTag + 1) % 256 } })

/-- A register access goes over the sideband, under a tag of its own (R35 to R37). -/
def State.sbSend (s : State) (m : Nat → SbMsg) : State :=
  let (g, s) := s.nextTag
  s.sbPut (m g)

/-- An access over the bridge that has not been answered yet (R38). -/
def State.owe (s : State) (m : SbMsg) : State := { s with dies := { s.dies with owed := s.dies.owed ++ [m] } }

/-- The answer to an access crosses back: at once, or when the control class has room (R28). -/
def State.fdReply (s : State) (m : SbMsg) (tag v : Nat) : Option Nat × State :=
  if s.ctlFree true 1 then (some v, s.ctlNow true 1) else (none, (s.owe m).ctlWait true 1 (.reply tag v))

/-- An access to a register: of the FD over the bridge under a tag, carried out and answered at once where the control class has room, else
when its flits have crossed (R28, R37); any other at once. The value is that of the answer, if it has come. -/
def State.fdAccess (s : State) (a : Nat) (m : Nat → SbMsg) (f : State → Nat × State) : Option Nat × State :=
  if isFdAddr a then
    let (g, s) := s.nextTag
    if s.ctlFree false 1 then
      let (v, s) := f (s.ctlNow false 1)
      (s.tagDone g v).fdReply (m g) g v
    else (none, (s.owe (m g)).ctlWait false 1 (.access (m g)))
  else
    let (v, s) := f s
    (some v, s)

/-- An access must go over the sideband: to an FD register while the bridge does not carry traffic (R35). -/
def State.viaSideband (s : State) (a : Nat) : Bool := isFdAddr a && !s.bridgeUp

/-! ### BAR0 and BMC reads -/

/-- What a read over BAR0 or the BMC interface returned. -/
def State.gives (x : Nat × State) : State := { x.2 with readData := x.1 }

/-- A word read takes its place in what the read returns: all of it, or the low or the high word of an 8-byte read (R351). -/
def State.givesPart (s : State) (part v : Nat) : State :=
  State.gives (if part = 2 then s.readData % 2 ^ 32 + v * 2 ^ 32 else v, s)

/-- A BAR0 read of a word (R571, R591, R648, R649): before ready only GEN answers, in recovery mode only the identification and UPD; an FD
register answers at once or, over the lost bridge or where the control class is busy, when the reply has come. `part` is as in `SbMsg.read`. -/
def State.bar0Read (s : State) (a part : Nat) : State :=
  let ones := 2 ^ 32 - 1
  let give := fun (x : Nat × State) => x.2.givesPart part x.1
  let m := fun g => SbMsg.read g a false part
  if s.pwr.recovery then give (if a < 0x30 ∨ (0x30000 ≤ a ∧ a < 0x38000) then s.regRead .bar0 a else (ones, s))
  else if !s.bit GEN_BOOTSTAT.ready ∧ 0x10000 ≤ a then give (ones, s)
  else if isFdAddr a ∧ s.fdUnreachable then give (ones, s)
  else if s.viaSideband a then s.sbSend m
  else
    match s.fdAccess a m (fun s => s.regRead .bar0 a) with
    | (some v, s) => give (v, s)
    | (none, s) => s

/-- Whether a BAR0 access has a size and alignment that BAR0 accepts: 4 bytes aligned to 4, or 8 aligned to 8 (R351). -/
def accessOk (a size : Nat) : Bool := decide (a < 2 ^ 24) && ((size == 4 && a % 4 == 0) || (size == 8 && a % 8 == 0))

/-- A BAR0 read of 4 or 8 bytes: an 8-byte one returns both words, low word first (R351). -/
def State.bar0ReadN (s : State) (a size : Nat) : State :=
  if !accessOk a size then State.gives (0, s.inc HIF_BADACC.count)
  else if size = 4 then s.bar0Read a 0
  else (s.bar0Read a 1).bar0Read (a + 4) 2

/-- A BMC read (R630, R651): GEN, SEAT and PWR only, without clearing; SEAT reads 0 while the main rails are off. -/
def State.bmcRead (s : State) (a : Nat) : State :=
  if a % 4 ≠ 0 then s
  else if a < 0x10000 ∨ (0x600000 ≤ a ∧ a < 0x640000) then State.gives (s.regRead .bmc a)
  else if 0x20000 ≤ a ∧ a < 0x30000 then (if s.pwr.phase = 0 then State.gives (0, s) else State.gives (s.regRead .bmc a))
  else s

/-- What PCIe configuration space carries of the identification (R657): Vendor ID and Subsystem Vendor ID, Device ID and Subsystem ID,
Revision ID, Class Code. -/
def State.pcieIds (s : State) : Nat × Nat × Nat × Nat :=
  (s.rd GEN_ID.vendor_id, s.rd GEN_ID.device_id, 16 * s.rd GEN_REV.fd_rev + s.rd GEN_REV.td_rev, 0x028000)

end Sys2Proof.Machine
end

