-- ==== Sys2Proof/Machine/SelfTest.lean ====
section
/-! DEFINITION. Self-tests in service and block resets (14_startup_reset.md, R587, R595 to R597). -/
namespace Sys2Proof.Machine

/-! ### Self-tests (R595, R596) -/

/-- Whether a unit lies in the range of its target kind (*Self-test targets*). -/
def testUnit (kind u : Nat) : Bool :=
  match kind with
  | 0 => decide (u < 24)
  | 1 => decide (u < 24)
  | 2 => decide (u % 256 < 24) && decide (u / 256 < 2)
  | 3 => decide (u < 8)
  | 4 => decide (u < 128)
  | 5 => decide (u < 192)
  | 6 => decide (u < 24)
  | 7 => decide (u < 384)
  | _ => false

/-- The condition under which a unit may be tested. -/
def State.testable (s : State) (kind u : Nat) : Bool :=
  match kind with
  | 0 => decide (0 < s.rd (ENG_SPARES.free u))
  | 1 => s.rd (ENG_CLSTAT.role_now u) == 2 && !s.bit (ENG_CLSTAT.draining u) && s.res.repair.isNone
  | 2 => s.rd (bankState (u % 256) (u / 256)) == 0 || s.rd (bankState (u % 256) (u / 256)) == 2
  | 3 => s.rd (MCD_STAT.state u) == 1 || s.rd (MCD_STAT.state u) == 5
  | 4 => (s.portOfLane u).isNone
  | 5 => !s.bit (FLK_CTL.enable (u / 4)) || s.flk.retired.contains (u / 4)
  | 6 => s.modState u == 4
  | _ => s.rd (MCH_PCSTAT.state (u / 64) (u % 64)) == 2

/-- Contents that nothing is said about any longer: program data of a cluster takes free values. -/
def State.losePdata (s : State) (c : Nat) : State :=
  let (n, s) := s.fresh
  let t := (List.range 524288).foldl (fun (t : Tbl Byte) i => Tbl.set 0 t (524288 * c + i) (Config.plyFrame n i)) s.eng.pdata
  { s with eng := { s.eng with pdata := t } }

/-- A bank that holds no program any longer. -/
def State.emptyBank (s : State) (c b : Nat) : State := s.loadBank c b 0 0 []

/-- What a test does to its unit when it starts: contents lost, a bank emptied, a channel's slot powered. -/
def State.testStart (s : State) (kind u : Nat) : State :=
  match kind with
  | 1 => ((s.losePdata u).emptyBank u 0).emptyBank u 1
  | 2 => s.emptyBank (u % 256) (u / 256)
  | 3 => s.setPins u ⟨true, true, true, true⟩
  | _ => s

/-- SELFTEST (R595): starts the test of a unit. -/
def execSelftest (s : State) : Out :=
  match s.running 0x58 with
  | none => .next s
  | some (r, t) =>
    let k := t.f 16 1
    let u := t.f 20 4
    let go := fun (s : State) =>
      if !testUnit k u then s.finRefused r dBAD_OPERAND
      else if Tbl.get 0 s.res.tests k ≠ 0 then s.finBusy r dIN_USE
      else if !s.testable k u then s.finBusy r dLIVE_RESOURCE
      else
        let s := { s with res := { s.res with tests := Tbl.set 0 s.res.tests k (u + 1) } }
        ((s.wr GEN_STSTAT.running (putBits (s.rd GEN_STSTAT.running) k 1 1)).testStart k u).finDone r
    .next (if t.onFd then s.viaFd r t go else go s)

/-- SELFTEST_DONE (R595, R596): the test of a kind ends with its result. A spare that fails is lost (R108); failing rows of a cluster's arrays
are reported as weak, each with its array. -/
def execSelftestDone (kind : Nat) (pass : Bool) (detail : Nat) (rows : List (Nat × Nat)) (s : State) : Out :=
  let u := Tbl.get 0 s.res.tests kind
  if u = 0 then .next s
  else
    let c := u - 1
    let s := if kind = 0 ∧ !pass ∧ 0 < s.rd (ENG_SPARES.free c) then
        (s.wr (ENG_SPARES.free c) (s.rd (ENG_SPARES.free c) - 1)).post 0x0107 [c, 0, s.rd (ENG_SPARES.free c) - 1]
      else s
    let s := if kind = 1 then rows.foldl (fun s r => s.weakRow r.1 c r.2) s else s
    .next (s.endTest kind (if pass then 0 else 1) detail)

/-! ### Block resets (R587) -/

/-- A block instance that BLOCK_RESET acts on. -/
inductive Block where
  | cluster (c : Nat)
  | port (p : Nat)
  | lane (ln : Nat)
  | link (l : Nat)
  | chk
  deriving DecidableEq, Repr

/-- The block instance at a BAR0 base. -/
def blockAt (a : Nat) : Option Block :=
  if 0x80000 ≤ a ∧ a < 0x98000 ∧ a % 0x1000 = 0 then some (.cluster ((a - 0x80000) / 0x1000))
  else if 0x400000 ≤ a ∧ a < 0x440000 ∧ a % 0x800 = 0 then some (.port ((a - 0x400000) / 0x800))
  else if 0x480000 ≤ a ∧ a < 0x4A0000 ∧ a % 0x400 = 0 then some (.lane ((a - 0x480000) / 0x400))
  else if 0x4C0000 ≤ a ∧ a < 0x4F0000 ∧ a % 0x400 = 0 then some (.lane (128 + (a - 0x4C0000) / 0x400))
  else if 0x500000 ≤ a ∧ a < 0x530000 ∧ a % 0x1000 = 0 then some (.link ((a - 0x500000) / 0x1000))
  else if a = 0x38000 then some .chk
  else none

/-- Registers of an address range return to their reset values: a block's captures. -/
def State.clearRegs (s : State) (lo hi : Nat) : State := { s with regs := s.regs.filter (fun e => e.1 / 64 < lo || hi ≤ e.1 / 64) }

/-- Outputs of a block that its consumers have not taken are of an epoch gone by: they are discarded and counted (R516). A port's are frames
on their way to dispatch, a link's records on their way to the buffer. -/
def State.dropStale (s : State) (b : Block) : State :=
  match b with
  | .port p =>
    let l := Tbl.get [] s.eng.arriving (p / 32)
    let keep := l.filter (fun k => k.port != p)
    { s.addSat SEAT_STALE_BLOCK.count (l.length - keep.length) with eng := { s.eng with arriving := Tbl.set [] s.eng.arriving (p / 32) keep } }
  | .link l =>
    let n := (Tbl.get [] s.flk.recs l).length
    { s.addSat SEAT_STALE_BLOCK.count n with flk := { s.flk with recs := Tbl.set [] s.flk.recs l [], recOrd := s.flk.recOrd.filter (· != l) } }
  | _ => s

/-- A block is reset: its captures are cleared and its epoch advances (R516, R517). A link's reassembly contexts are cleared with it. -/
def State.resetBlock (s : State) (a : Nat) (b : Block) : State :=
  let s := { s with res := { s.res with resets := Tbl.set 0 s.res.resets a (s.clk + 1), blkEpoch := Tbl.upd 0 s.res.blkEpoch a (fun e => (e + 1) % 256) } }
  let s := s.dropStale b
  match b with
  | .cluster c => (s.clearRegs (a + 0x30) (a + 0x3C)).clusterReset c
  | .port p =>
    let s := s.clearRegs (a + 0x20) (a + 0x2C)
    if !s.bit (LPT_CFG.enable p) then s
    else
      let (n, s) := s.fresh
      let s := if s.portState p = 1 then s else s.enterDown p (Config.pick n % 8)
      (s.setLinePort p { s.linePort p with step := 1, stepAt := s.clk, fast := false }).portTouch p
  | .lane ln => s.laneTo ln 0
  | .link l =>
    let s := s.linkClear l
    { s with flk := { s.flk with ctxs := s.flk.ctxs.filter (fun e => e.2.link != l + 1) } }
  | .chk => (s.wr CHK_STAT.busy 0).wr CHK_STAT.owner 0

/-- The condition of a block's reset; the detail of BUSY, or 0. -/
def State.resetBusy (s : State) (b : Block) : Nat :=
  match b with
  | .lane ln => if s.laneBusy ln then dLIVE_RESOURCE else 0
  | .link l => if s.bit (FLK_CTL.enable l) then dLIVE_RESOURCE else 0
  | .chk => if s.bit CHK_STAT.busy then dIN_USE else 0
  | _ => 0

/-- BLOCK_RESET (R587): starts the reset of a block instance; the descriptor completes with BLOCK_RESET_DONE. -/
def execBlockReset (s : State) : Out :=
  match s.running 0x59 with
  | none => .next s
  | some (r, t) =>
    if t.waits then .next s
    else
      let a := t.f 16 4
      let go := fun (s : State) =>
        match blockAt a with
        | none => s.finRefused r dBAD_ADDRESS
        | some b =>
          if s.resetBusy b ≠ 0 then s.finBusy r (s.resetBusy b)
          else (s.resetBlock a b).updTaken r (fun t => { t with waits := true })
      .next (if isFdAddr a then s.viaFd r t go else go s)

/-- How long a block's reset takes, in ns. -/
def resetTime (b : Block) : Nat :=
  match b with
  | .cluster _ => us 50
  | .port _ => ms 1
  | .lane _ => us 100
  | .link _ => us 10
  | .chk => us 1

/-- BLOCK_RESET_DONE (R587): a block is back in service and the command completes DONE. A cluster is back once CLUSTER_RESET_DONE has come. -/
def execBlockResetDone (base : Nat) (s : State) : Out :=
  let t0 := Tbl.get 0 s.res.resets base
  match blockAt base with
  | none => .next s
  | some b =>
    let back : Bool := match b with
      | .cluster c => (s.cluster c).resetAt.isNone
      | _ => s.elapsed (t0 - 1) (resetTime b)
    if t0 = 0 ∨ !back then .next s
    else
      let s := { s with res := { s.res with resets := Tbl.erase s.res.resets base } }
      let s := match b with
        | .lane ln => s.laneTo ln (s.rd (SDS_CTL.req ln))
        | _ => s
      match s.running 0x59 with
      | some (r, t) => .next (if t.waits && t.f 16 4 == base then s.finDone r else s)
      | none => .next s

end Sys2Proof.Machine
end

