-- ==== Sys2Proof/Machine/NetTime.lean ====
section
/-! DEFINITION. The network-time counter as it counts (15_time_counters.md, R600, R601, R604). -/
namespace Sys2Proof.Machine

/-- One nanosecond in units of the fraction, 2^-8 × 10^-9 ns. -/
def fracNs : Nat := 256 * 10 ^ 9

/-- The frequency adjustment a, in 2^-8 ppb. -/
def State.freqAdj (s : State) : Int := signed 32 (s.rd TIM_FREQ.adj)

/-- What a slew adds in one nanosecond: rate_ppm of it, until its whole offset is applied (R604). -/
def State.slewPart (s : State) : Int :=
  let r : Int := (s.rd TIM_SLEWRATE.rate_ppm : Int) * 256000
  if 0 ≤ s.tim.slew then min r s.tim.slew else max (-r) s.tim.slew

/-- Seconds and nanoseconds after `n` more nanoseconds; seconds wrap at 2^48 (R600). -/
def addNs (sec ns n : Nat) : Nat × Nat := ((sec + (ns + n) / 10 ^ 9) % 2 ^ 48, (ns + n) % 10 ^ 9)

/-- One nanosecond of the island's time clock (R600, R601). The adjustments are below 1, so the sum is never negative.
Without AUXCLK_IN or a feed in range the island is in reset and its counter stands (R43, R643). -/
def State.tick (s : State) : State :=
  if s.pwr.clkLost || (!s.dies.feedA && !s.dies.feedB) then { s with clk := s.clk + 1 }
  else
  let e := s.slewPart
  let total := ((s.tim.frac : Int) + fracNs + s.freqAdj + e).toNat
  let (sec, ns) := addNs s.tim.sec s.tim.ns (total / fracNs)
  { s with clk := s.clk + 1,
           tim := { s.tim with sec := sec, ns := ns, frac := total % fracNs, slew := s.tim.slew - e,
                               tickDue := s.tim.tickDue || sec != s.tim.sec } }

end Sys2Proof.Machine
end

