-- ==== Sys2Proof/Machine/TimeRows.lean ====
section
/-! DEFINITION. Network time as it is steered (15_time_counters.md, R600 to R609, R622): steps and slews, PPS_IN and TOD_IN, the LOCK
servo, the followers of the dies, and the writes of the sampling sessions. -/
namespace Sys2Proof.Machine

/-- Seconds wrap at 2^48 (R600): network time runs modulo this many ns. -/
def timeWrap : Int := 2 ^ 48 * 10 ^ 9

/-- Network time before the steps of this cycle: the value that a capture in it takes (R606). -/
def State.timeBefore (s : State) : Nat × Nat × Nat := if s.tim.before.1 = s.clk ∧ s.clk ≠ 0 then s.tim.before else (s.clk, s.tim.sec, s.tim.ns)

/-- The counter given a new value (R605): the followers stand off by the change until their next update. -/
def State.stepTo (s : State) (sec ns frac : Nat) : State :=
  let d : Int := ((sec * 10 ^ 9 + ns : Nat) : Int) - ((s.tim.sec * 10 ^ 9 + s.tim.ns : Nat) : Int)
  let turned := sec != s.tim.sec
  let s := { s with
    tim := { s.tim with sec := sec, ns := ns, frac := frac, before := s.timeBefore, tickDue := s.tim.tickDue || turned, tickStep := s.tim.tickStep || turned },
    dies := { s.dies with followFd := s.dies.followFd - d, followTd := s.dies.followTd - d } }
  (((s.inc TIM_STEPS.count).wr TIM_STAT.step_pending 1).post 0x0E01 (leBytes 8 (unsigned 64 d))).postTimeStep

/-- The counter stepped by an offset in units of the fraction. -/
def State.stepBy (s : State) (d : Int) : State :=
  let t := ((s.tim.sec * 10 ^ 9 + s.tim.ns : Nat) : Int) * fracNs + s.tim.frac + d
  let n := (t / fracNs % timeWrap).toNat
  s.stepTo (n / 10 ^ 9) (n % 10 ^ 9) (t % fracNs).toNat

/-- Steering by the host is refused (mode LOCK, R600, R603). -/
def State.refuseTime (s : State) : State := s.wr TIM_STAT.refused 1

/-- TIM_CTL.step (R603): TIM_SET0 to TIM_SET2 are loaded, with the fraction cleared. -/
def State.timeStep (s : State) : State :=
  if s.bit TIM_CFG.mode ∨ 10 ^ 9 ≤ s.rd TIM_SET0.ns then s.refuseTime
  else s.stepTo (s.rd TIM_SET1.sec_lo + 2 ^ 32 * s.rd TIM_SET2.sec_hi) (s.rd TIM_SET0.ns) 0

/-- TIM_CTL.offset (R604): TIM_OFFS is added to what a slew has not yet applied, and the sum is slewed, or added in one step. -/
def State.timeOffset (s : State) : State :=
  if s.bit TIM_CFG.mode then s.refuseTime
  else
    let sum := s.tim.slew + signed 32 (s.rd TIM_OFFS.offset) * fracNs
    let lim : Int := (s.rd TIM_SLEW.max_ns : Int) * fracNs
    if 0 < lim ∧ -lim ≤ sum ∧ sum ≤ lim then ({ s with tim := { s.tim with slew := sum } }).wr TIM_STAT.slewing 1
    else (({ s with tim := { s.tim with slew := 0 } }).wr TIM_STAT.slewing 0).stepBy sum

/-- The largest frequency adjustment, 100 ppm (R600). -/
def freqMax : Int := 25600000

/-- A value held within ±25,600,000 (R608). -/
def clampFreq (x : Int) : Int := max (-freqMax) (min freqMax x)

/-- A write of TIM_FREQ (R600): in mode LOCK, or outside ±25,600,000, it is ignored and refused. -/
def State.writeFreq (s : State) (v : Nat) : State :=
  let a := signed 32 (v % 2 ^ 32)
  if s.bit TIM_CFG.mode ∨ a < -freqMax ∨ freqMax < a then s.refuseTime else s.wr TIM_FREQ.adj v

/-- A slew has applied its whole offset (R604). -/
def execSlewDone (s : State) : Out :=
  if s.bit TIM_STAT.slewing ∧ s.tim.slew = 0 then .next (s.wr TIM_STAT.slewing 0) else .next s

/-- TIME_SYNC_UPDATE (R44, R344, R605): every 1.024 µs the island updates the followers of both dies, and a step reaches them. -/
def execTimeSyncUpdate (s : State) : Out :=
  if s.elapsed s.dies.syncAt 1024 then
    let stepped := s.bit TIM_STAT.step_pending
    let s := ({ s with dies := { s.dies with followFd := 0, followTd := 0, syncAt := s.clk } }).wr TIM_STAT.step_pending 0
    .next (if stepped then s.regate else s)
  else .next s

/-! ### PPS_IN, TOD_IN and the servo -/

/-- PPS_EDGE (R606): a rising edge of PPS_IN; `wide` says that its high level lasts at least 100 ns. An edge in the cycle of a step captures
the time before it. -/
def execPpsEdge (wide : Bool) (s : State) : Out :=
  let spaced := match s.tim.ppsAt with
    | some t => s.elapsed t (ms 500)
    | none => true
  if wide && spaced then
    let (_, sec, ns) := s.timeBefore
    let s := { s with tim := { s.tim with ppsAt := some s.clk } }
    .next (((s.wr TIM_PPSCAP0.ns ns).wr TIM_PPSCAP1.sec_lo sec).wr TIM_PPSCAP2.sec_hi (sec / 2 ^ 32))
  else .next (s.inc TIM_PPSGLITCH.count)

/-- A change of the servo's state (R609), its numbers those of *Servo states*. Entry to ACQUIRE starts its run and its timer. -/
def State.servoTo (s : State) (n : Nat) : State :=
  let old := s.rd TIM_STAT.servo
  if n = old then s
  else
    let s := { s with tim := { s.tim with goodRun := 0, badRun := 0, pairAt := if n = 1 then s.clk else s.tim.pairAt } }
    (s.wr TIM_STAT.servo n).post 0x0E02 [old, n]

/-- The servo's adjustments at a good pair (R608): phase error `e`, the captured time less the message's in ns, and whether the
seconds differ. -/
def State.servoAct (s : State) (e off : Int) (differ : Bool) : State :=
  if differ ∨ (s.rd TIM_SERVO0.step_ns : Int) < e.natAbs then
    let again := match s.tim.wanted with
      | some d => decide ((d + off).natAbs ≤ 1000)
      | none => false
    if again then ({ s with tim := { s.tim with wanted := none } }).stepBy (-off * fracNs)
    else { s with tim := { s.tim with wanted := some (-off) } }
  else
    let i := clampFreq (s.tim.i - 16 * e)
    ({ s with tim := { s.tim with wanted := none, i := i } }).wr TIM_FREQ.adj (unsigned 32 (clampFreq (i - 64 * e)))

/-- The servo's state at a good pair (*Servo states*). -/
def State.servoState (s : State) (e : Int) : State :=
  let lock := s.rd TIM_SERVO1.lock_ns
  let good := if e.natAbs ≤ lock then s.tim.goodRun + 1 else 0
  let bad := if 4 * lock < e.natAbs then s.tim.badRun + 1 else 0
  match s.rd TIM_STAT.servo with
  | 1 => if 8 ≤ good then s.servoTo 2 else { s with tim := { s.tim with goodRun := good } }
  | 2 => if 2 ≤ bad then s.servoTo 1 else { s with tim := { s.tim with badRun := bad } }
  | _ => s.servoTo 1

/-- A good pair (R606 to R608): the last accepted edge with the message seconds for it. -/
def State.goodPair (s : State) (sec : Nat) : State :=
  let ns := s.rd TIM_PPSCAP0.ns
  let late := decide (500000000 ≤ ns)
  let cap := s.rd TIM_PPSCAP1.sec_lo + 2 ^ 32 * s.rd TIM_PPSCAP2.sec_hi
  let e : Int := if late then (ns : Int) - 10 ^ 9 else ns
  let differ := cap + b2n late != sec
  let off : Int := ((cap * 10 ^ 9 + ns : Nat) : Int) - ((sec * 10 ^ 9 : Nat) : Int)
  let s := s.wr TIM_PHASE.e (unsigned 32 e)
  if s.bit TIM_CFG.mode then
    let s := (s.servoAct e off differ).servoState e
    { s with tim := { s.tim with pairAt := s.clk, pairSec := sec } }
  else s

/-- *Time-of-day message*: its layout and its CRC. -/
def todOk (m : List Nat) : Bool :=
  m.length == 14 && sliceB m 0 3 == [0xC3, 0x3C, 0x01] && crc16 (m.take 12) == beNat (sliceB m 12 2)

/-- TOD_MESSAGE (R607, R608): a message whose first byte arrives now. A good one that follows an accepted edge by 10 ms to 900 ms is
taken and makes a good pair; any other is discarded and counted. -/
def execTodMessage (msg : List Nat) (s : State) : Out :=
  let timely := match s.tim.ppsAt with
    | some t => s.elapsed t (ms 10) && decide (s.clk ≤ t + ms 900)
    | none => false
  if timely && todOk msg then
    let sec := beNat (sliceB msg 3 6)
    let f := leAt msg 9 1
    let s := (s.wr TIM_TODSEC0.sec_lo sec).wr TIM_TODSEC1.sec_hi (sec / 2 ^ 32)
    let s := ((s.wrBit TIM_TODSTAT.leap (bitOf f 1)).wrBit TIM_TODSTAT.valid (bitOf f 0)).wr TIM_TODSTAT.utc_off (beNat (sliceB msg 10 2))
    .next (s.goodPair sec)
  else .next (s.inc TIM_TODERR.count)

/-- SERVO_HOLDOVER (R609): ACQUIRE or LOCKED passes 3 s without a good pair. -/
def execServoHoldover (s : State) : Out :=
  let st := s.rd TIM_STAT.servo
  if (st = 1 ∨ st = 2) ∧ s.elapsed s.tim.pairAt (ms 3000) then
    let s := (s.wr TIM_FREQ.adj (unsigned 32 s.tim.i)).post 0x0E03 ([0, 0, 0, 0] ++ leBytes 4 s.tim.pairSec)
    .next (s.servoTo 3)
  else .next s

/-- A write of TIM_CFG.mode: mode HOST is always FREE (*Servo states*). -/
def State.writeTimMode (s : State) (lock : Bool) : State :=
  let s := s.wrBit TIM_CFG.mode lock
  if lock then s else ({ s with tim := { s.tim with wanted := none } }).servoTo 0

/-! ### Sampling sessions (R622) -/

/-- The session that TEL_SDATA0 to TEL_SDATA4 hold on an access path, with the bucket of the one it replaces. -/
def State.sessionWords (s : State) (p : Path) : Session :=
  let x := s.session (s.rd (TEL_SIDX.session.on p))
  { x with
    enable := s.bit (TEL_SDATA0.enable.on p), kind := s.rd (TEL_SDATA0.kind.on p), snap := s.rd (TEL_SDATA0.snap.on p),
    ring := s.rd (TEL_SDATA0.ring.on p), rate := s.rd (TEL_SDATA1.rate_n.on p), maxSps := s.rd (TEL_SDATA2.max_sps.on p),
    queue := s.rd (TEL_SDATA3.queue.on p), cls := s.rd (TEL_SDATA4.cls.on p), dest := s.rd (TEL_SDATA4.dest.on p) }

/-- Whether a session keeps R622: kinds 0 and 1 name a SAMPLE ring, kind 2 a valid destination. -/
def State.sessionOk (s : State) (x : Session) : Bool :=
  match x.kind with
  | 0 => (s.ring x.ring).kind == 5
  | 1 => (s.ring x.ring).kind == 5
  | 2 => s.destKind x.dest != 0
  | _ => false

/-- The write and read bits of TEL_SCMD on an access path (R622, R655). -/
def State.scmd (s : State) (p : Path) (write read : Bool) : State :=
  let k := s.rd (TEL_SIDX.session.on p)
  let s := if !write then s
    else if s.sessionOk (s.sessionWords p) then s.setSession k (s.sessionWords p)
    else s.wr TEL_STAT.refused 1
  if read then
    let x := s.session k
    let s := (((s.wrBit (TEL_SDATA0.enable.on p) x.enable).wr (TEL_SDATA0.kind.on p) x.kind).wr (TEL_SDATA0.snap.on p) x.snap).wr
      (TEL_SDATA0.ring.on p) x.ring
    let s := ((s.wr (TEL_SDATA1.rate_n.on p) x.rate).wr (TEL_SDATA2.max_sps.on p) x.maxSps).wr (TEL_SDATA3.queue.on p) x.queue
    (s.wr (TEL_SDATA4.cls.on p) x.cls).wr (TEL_SDATA4.dest.on p) x.dest
  else s

end Sys2Proof.Machine
end

