-- ==== Sys2Proof/Machine/RegWrite.lean ====
section
/-! DEFINITION. Writing registers (R12, R654): the access codes, and what a write of each register that does more than hold a value
does. -/
namespace Sys2Proof.Machine

/-! ### Writes with an effect of their own: engines and lookup -/

/-- A request to flip a cluster's bank (R92, R93): refused while the other bank is not READY. -/
def State.flipRequest (s : State) (c : Nat) : State :=
  if s.rd (bankState c (1 - s.rd (ENG_BANKCTL.live_bank c))) = 2 then s.askFlip c else s

/-- ENG_CNTCLR (R110): every fault counter of a cluster is cleared. -/
def State.clearFaults (s : State) (c : Nat) : State :=
  (List.range 10).foldl (fun s k => s.wr (ENG_FLTCNT.count c k) 0) s

/-- DDR5 channels 0 to 3 that are in service in the TABLE role, as a mask (R129, R133); one in self-refresh wakes at a request (R430). -/
def State.tableChans (s : State) : Nat :=
  ([0, 1, 2, 3].filter (fun c => s.rd (MCD_CFG.role c) == 1 && (s.rd (MCD_STAT.state c) == 3 || s.rd (MCD_STAT.state c) == 7))).foldl
    (fun a c => a + 2 ^ c) 0

/-- A write of 1 to LKP_XFIBCFG.enable (R129). -/
def State.enableXfib (s : State) : State :=
  if s.bit LKP_XFIBCFG.enable then s
  else if s.lkp.fib.isEmpty ∧ s.tableChans ≠ 0 then (s.wr LKP_XFIBCFG.enable 1).wr LKP_XFIBCFG.channels s.tableChans
  else s.wr LKP_XFIBCFG.refused 1

/-- A write of 0 to LKP_XFIBCFG.enable (R134). -/
def State.disableXfib (s : State) : State :=
  if !s.bit LKP_XFIBCFG.enable || s.lkp.xfibOff then s
  else if s.lkp.xfibDown then s.fibEmpty
  else if s.lkp.fib.foldl (fun a (e : Nat × Option FibEnt) => a + fibUnits e.1) 0 ≤ s.placement then
    let s := s.addSat LKP_HOTEVICT.count s.lkp.hot.length
    { s with lkp := { s.lkp with hot := [], hotWork := [], hotCount := [], xfibOff := true } }.fibCount
  else s.wr LKP_XFIBCFG.refused 1

/-- A write of BRG_DOMCFG of the domain that BRG_DOMIDX chooses (R202). -/
def State.writeDomain (s : State) (p : Path) (v : Nat) : State :=
  let k := s.rd (BRG_DOMIDX.domain.on p)
  { s with brg := { s.brg with dom := Tbl.set (true, 0) s.brg.dom k (bitOf v 31, bitsAt v 0 20) } }

/-! ### Scheduling -/

/-- The node words that SCH_NDATA0 to SCH_NDATA5 hold on an access path. -/
def State.nodeWords (s : State) (p : Path) : NodeWords :=
  let w := fun i => s.live p (0x200014 + 4 * i)
  { d0 := w 0, d1 := w 1, d2 := w 2, d3 := w 3, d4 := w 4, d5 := w 5 }

/-- Fields of a register loaded by the hardware from a word. -/
def State.loadWord (s : State) (p : Path) (a v : Nat) : State :=
  match regAt a with
  | .word fs => fs.foldl (fun s f => s.wr (f.fld.on p) (bitsAt v f.fld.lo f.fld.width)) s
  | _ => s

/-- Consecutive registers loaded by the hardware. -/
def State.loadWords (s : State) (p : Path) (a : Nat) : List Nat → State
  | [] => s
  | v :: r => (s.loadWord p a v).loadWords p (a + 4) r

/-- A node with its token counts evaluated up to now (R322). -/
def State.nodeNow (s : State) (level i : Nat) : Node :=
  if (s.node level i).enable then s.evalNode (s.node level i) else s.node level i

/-- The write and read bits of SCH_NCMD on an access path (R319, R322, R326, R655). -/
def State.ncmd (s : State) (p : Path) (write read : Bool) : State :=
  let level := s.rd (SCH_NIDX.level.on p)
  let i := s.rd (SCH_NIDX.index.on p)
  let s := if write then (s.writeNode level i (s.nodeWords p)).2 else s
  if read then
    let x := if levelSize level ≤ i then ({} : Node) else s.nodeNow level i
    let (w, ct, pt) := x.words
    let s := if levelSize level ≤ i then s else s.setNode level i x
    if levelSize level ≤ i then s.loadWords p 0x200014 [0, 0, 0, 0, 0, 0, 0, 0]
    else s.loadWords p 0x200014 [w.d0, w.d1, w.d2, w.d3, w.d4, w.d5, ct, pt]
  else s

/-- A policer with its token counts evaluated up to now. -/
def State.policerNow (s : State) (i : Nat) : Policer :=
  if (s.policer i).enable then (s.policer i).eval s.fdNs else s.policer i

/-- The write and read bits of POL_CMD on an access path (R333, R655). -/
def State.pcmd (s : State) (p : Path) (write read : Bool) : State :=
  let i := s.rd (POL_IDX.index.on p)
  let w := fun k => s.live p (0x240014 + 4 * k)
  let s := if write then (s.writePolicer i (w 0) (w 1) (w 2) (w 3) (w 4)).2 else s
  if read then s.loadWords p 0x240014 (s.policerNow i).words else s

/-- A write of TG_CTL of a port (R340, R342): enable and init_gates take their values, then cancel and activate act. -/
def State.writeTgCtl (s : State) (p v : Nat) (cancel activate : Bool) : State :=
  let s := s.wr (TG_CTL.init_gates p) (bitsAt v 0 8)
  let s := if s.bit (TG_CTL.enable p) != bitOf v 31 then s.enableGate p (bitOf v 31)
    else if bitOf v 31 then (s.applyGates p).leadGates p else s
  let s := if cancel then s.cancelGate p else s
  if activate then s.activateGate p else s

/-! ### Host interface -/

/-- A refusal of HIF_RCTL: refused with the low bits of its detail code. -/
def State.rctlResult (x : Nat × State) : State :=
  if x.1 = 0 then x.2 else (x.2.wr HIF_RCTL.refused 1).wr HIF_RCTL.reason (x.1 % 16)

/-- HIF_RCTL.start, stop and invalidate on the ring that HIF_RIDX chooses (R354, R355, R384, R398), in the order of their bits. After sealing
they are ignored, but for the time from a reset of the host interface to the first RING_START. -/
def State.rctl (s : State) (p : Path) (start stop invalidate : Bool) : State :=
  let r := s.rd (HIF_RIDX.ring.on p)
  if s.bit GEN_SEAL.sealed && !s.hif.rctlOpen then s
  else
    let s := if !start then s
      else if s.startWaits r then { s with hif := { s.hif with rctlStart := some r } }
      else State.rctlResult (s.ringStart r)
    let s := if stop then
        let t := State.rctlResult (s.ringStop r)
        { t with hif := { t.hif with rctlStop := some r } }
      else s
    if invalidate then State.rctlResult (s.ringInvalidate r) else s

/-- A write of a word of the MSI-X table (PCIe layout): the address' two low bits and the reserved bits of the vector control read 0. The
pending bits are read-only. -/
def State.writeMsix (s : State) (a v : Nat) : State :=
  if a < 0x1A000 then
    let k := (a - 0x18000) / 4
    let v := match k % 4 with
      | 0 => v / 4 * 4 % 2 ^ 32
      | 3 => v % 2
      | _ => v % 2 ^ 32
    { s with hif := { s.hif with msix := Tbl.set (if k % 4 = 3 then 1 else 0) s.hif.msix k v } }
  else s

/-- A write of GEN_SEAL (R652). -/
def State.writeSeal (s : State) (v : Nat) : State :=
  if bitsAt v 16 16 = 0x5EA1 ∧ bitOf v 0 ∧ s.bit GEN_BOOTSTAT.ready then s.wr GEN_SEAL.sealed 1 else s

/-! ### Memory controllers and lanes -/

/-- A write of the port thresholds of the controllers `us_` (R414): one that leaves panic_off at or above panic_on is ignored; panic_off takes
1 or more with panic_on, target_ns 1 or more. Panic follows the thresholds. -/
def State.writePanic (s : State) (us_ : List Nat) (on off target : Fld) (v : Nat) : State :=
  if bitsAt v 28 4 ≤ bitsAt v 24 4 then s
  else
    let s := if bitsAt v 0 20 = 0 then s else s.wr target (bitsAt v 0 20)
    let s := if bitsAt v 24 4 = 0 then s else (s.wr on (bitsAt v 28 4)).wr off (bitsAt v 24 4)
    us_.foldl State.panics s

/-- A write of MCD_PWRCFG (R429, R430): sr_idle_ms only with RETAIN. -/
def State.writePwrCfg (s : State) (ch v : Nat) : State :=
  let s := s.wr (MCD_PWRCFG.pd_idle_ns ch) (bitsAt v 0 16)
  if s.bit (MCD_CFG.retain ch) then s.wr (MCD_PWRCFG.sr_idle_ms ch) (bitsAt v 16 16) else s

/-! ### The generic write -/

/-- Bits written as 1 in W1C fields clear (R12). -/
def State.clearOnes (s : State) (p : Path) (x : Nat) (fs : List FldAcc) : State :=
  fs.foldl (fun s f => match f.acc with
    | .w1c => let g := f.fld.on p
              s.wr g (Nat.land (s.rd g) (Nat.xor (2 ^ g.width - 1) (bitsAt x g.lo g.width)))
    | _ => s) s

/-- Whether a field is touched by a mask of bits written. -/
def FldAcc.touched (f : FldAcc) (mask : Nat) : Bool := bitsAt mask f.fld.lo f.fld.width != 0

/-- The bits of `v` under a mask put into `old`. -/
def mergeBits (old mask v : Nat) : Nat := Nat.lor (Nat.land old (Nat.xor (2 ^ 32 - 1) (mask % 2 ^ 32))) (Nat.land (v % 2 ^ 32) (mask % 2 ^ 32))

/-- RW and RWS fields under the mask take the values that they accept. -/
def State.storeFields (s : State) (p : Path) (mask w : Nat) (fs : List FldAcc) : State :=
  fs.foldl (fun s f =>
    let take := s.wr (f.fld.on p) (bitsAt w f.fld.lo f.fld.width)
    match f.acc with
    | .rw => if f.touched mask && f.accepts (bitsAt w f.fld.lo f.fld.width) then take else s
    | .rws => if f.touched mask && f.accepts (bitsAt w f.fld.lo f.fld.width) then take else s
    | _ => s) s

/-- Whether a register has a writable field under a mask (R654). -/
def writableAt (a mask : Nat) : Bool :=
  match regAt a with
  | .word fs => fs.any (fun f => f.touched mask && (match f.acc with
      | .ro => false
      | .rc => false
      | _ => true))
  | _ => false

/-! ### The registers whose write does more than hold a value

`w` is the register's word with the bits under the mask replaced, `x` the bits written as 1. -/

/-- Blocks GEN, HIF and TIM. -/
def State.hookIsland (s : State) (p : Path) (a w x : Nat) : Option State :=
  match a with
  | 0x00020 => some (s.writeSeal x)
  | 0x0010C => some (s.writeRstctl x)
  | 0x10050 => some (s.rctl p (bitOf x 0) (bitOf x 1) (bitOf x 2))
  | 0x40000 => some ((s.writeTimMode (bitOf w 31)).wr TIM_CFG.baud (bitsAt w 0 2))
  | 0x40030 =>
    let s := if bitOf x 1 then s.timeStep else s
    some (if bitOf x 0 then s.timeOffset else s)
  | 0x40034 => some (s.writeFreq w)
  | _ => none

/-- Blocks ENG, LKP and BRG. -/
def State.hookFd (s : State) (p : Path) (a mask w x : Nat) : Option State :=
  let c := (a - 0x80000) / 0x1000
  if 0x80000 ≤ a ∧ a < 0x98000 then
    match a % 0x1000 with
    | 0x4 => some (s.writeRole c (bitsAt w 0 2))
    | 0x10 => some (if bitOf x 8 then s.flipRequest c else s)
    | 0x44 => some (if bitOf x 0 then s.clearFaults c else s)
    | _ => none
  else if 0x100100 ≤ a ∧ a < 0x100300 then
    let t := (a - 0x100100) / 8
    some (if a % 8 = 0 then s.writeEmCfg t (bitsAt w 31 1) (bitsAt w 30 1) (bitsAt w 28 2) (bitsAt w 0 5)
      else s.writeEmBase t (bitsAt w 16 16) (bitsAt w 0 10))
  else if 0x100320 ≤ a ∧ a < 0x100340 then some (s.writeTerProf ((a - 0x100320) / 4) (bitsAt w 31 1) (bitsAt w 24 4))
  else
    match a with
    | 0x100000 => some (s.writeHot (bitsAt w 0 22))
    | 0x100004 => some (if !bitOf mask 0 then s else if bitOf w 0 then s.enableXfib else s.disableXfib)
    | 0x140000 => some (s.writeBrgCfg (bitsAt w 6 1) (bitsAt w 0 6))
    | 0x140004 => some (s.writeAge (bitsAt w 0 16))
    | 0x140024 => some (s.writeDomain p w)
    | 0x240030 => some (s.pcmd p (bitOf x 1) (bitOf x 0))
    | _ => none

/-- Blocks BPM, QM, SCH and TG. -/
def State.hookQueues (s : State) (p : Path) (a w x : Nat) : Option State :=
  if 0x1C0200 ≤ a ∧ a < 0x1C02C0 then some (s.writeLinkCtl ((a - 0x1C0200) / 4) (bitOf x 0) (bitOf x 1))
  else if 0x260000 ≤ a ∧ a < 0x268000 then
    let q := (a - 0x260000) / 0x100
    match a % 0x100 with
    | 0x00 => some (s.writeTgCtl q w (bitOf x 10) (bitOf x 9))
    | 0x3C => some (s.gateEntry p q (bitOf x 1) (bitOf x 0))
    | _ => none
  else
    match a with
    | 0x180000 => some (s.writeBpmCfg (bitOf w 31) (bitsAt w 0 8))
    | 0x180004 => some (s.writeShalCfg (bitsAt w 0 19))
    | 0x180008 => some (s.writeRsvCfg (bitOf w 31) (bitsAt w 0 12))
    | 0x1C0054 => some (s.tcmd p (bitOf x 1) (bitOf x 0))
    | 0x200034 => some (s.ncmd p (bitOf x 1) (bitOf x 0))
    | _ => none

/-- Blocks MCH and MCD, LPT, SDS, FLK, D2D and TEL. -/
def State.hookLines (s : State) (p : Path) (a mask w x : Nat) : Option State :=
  if 0x300000 ≤ a ∧ a < 0x318000 then
    let st := (a - 0x300000) / 0x4000
    let k := (a % 0x4000 - 0x40) / 4
    if 0x40 ≤ a % 0x4000 ∧ a % 0x4000 < 0x100 then
      some (s.writePanic (groupCtls st) (MCH_PORTCFG.panic_on st k) (MCH_PORTCFG.panic_off st k) (MCH_PORTCFG.target_ns st k) w)
    else none
  else if 0x380000 ≤ a ∧ a < 0x390000 then
    let ch := (a - 0x380000) / 0x2000
    let o := a % 0x2000
    let k := (o - 0x40) / 4
    if o = 0 then some (s.writeMcdCfg ch (bitsAt w 30 2) (bitOf w 29) (bitsAt mask 29 3 != 0) (bitsAt w 0 16))
    else if o = 0x10 then some (s.writePwrCfg ch w)
    else if 0x40 ≤ o ∧ o < 0x100 then
      some (s.writePanic (groupCtls (8 + ch)) (MCD_PORTCFG.panic_on ch k) (MCD_PORTCFG.panic_off ch k) (MCD_PORTCFG.target_ns ch k) w)
    else none
  else if 0x400000 ≤ a ∧ a < 0x440000 then
    let q := (a - 0x400000) / 0x800
    match a % 0x800 with
    | 0x00 => some (s.writeLptCfg q w)
    | 0x18 => some (s.writeLptTx q (bitOf w 31) (bitsAt w 0 8))
    | _ => none
  else if 0x480000 ≤ a ∧ a < 0x4F0000 then
    let ln := if a < 0x4C0000 then (a - 0x480000) / 0x400 else 128 + (a - 0x4C0000) / 0x400
    match a % 0x400 with
    | 0x0 => some (s.writeSdsCtl ln w)
    | 0xC => some (s.writeTxEq ln w)
    | _ => none
  else if 0x500000 ≤ a ∧ a < 0x530000 then
    if a % 0x1000 = 0 then some (s.writeFlkCtl ((a - 0x500000) / 0x1000) w) else none
  else if 0x5C0100 ≤ a ∧ a < 0x5C0200 then some (s.writeHome ((a - 0x5C0100) / 4) (bitsAt w 28 4))
  else
    match a with
    | 0x58000C => some (s.writeD2dCtl (bitsAt w 0 8) (bitOf x 31))
    | 0x5C0218 => some (s.scmd p (bitOf x 1) (bitOf x 0))
    | _ => none

/-- The register at an address as one of those, if it is. -/
def State.hook (s : State) (p : Path) (a mask w x : Nat) : Option State :=
  if a < 0x80000 then s.hookIsland p a w x
  else if a < 0x180000 ∨ (0x240000 ≤ a ∧ a < 0x260000) then s.hookFd p a mask w x
  else if a < 0x300000 then s.hookQueues p a w x
  else s.hookLines p a mask w x

/-- What the machine does once a register that only holds a value has been written: the gate lead (R337), the length profiles (R321), the
rebalancing of buckets (R290), the doorbells recorded while rings could not run (R359). -/
def State.afterWrite (s : State) (a : Nat) : State :=
  if 0x260000 ≤ a ∧ a < 0x268000 ∧ a % 0x100 = 0x28 then s.leadGates ((a - 0x260000) / 0x100)
  else if 0x200100 ≤ a ∧ a < 0x200140 then s.settle
  else if a = 0x200000 then s.settle
  else if a = 0x1C000C then s.rebalance
  else if a = 0x10000 then (s.hif.rings.map (·.1)).foldl State.useIndex s
  else s

/-- A write of the bits of `v` under a mask to a BAR0 word, on an access path, as before sealing (R12, R654). -/
def State.writeWord (s : State) (p : Path) (a mask v : Nat) : State :=
  if isMsix a then s.writeMsix a v
  else if a = 0x10050 ∧ s.bit GEN_SEAL.sealed ∧ !s.hif.rctlOpen then s
  else
    match regAt a with
    | .word fs =>
      let x := Nat.land (v % 2 ^ 32) (mask % 2 ^ 32)
      let s := s.clearOnes p x fs
      let w := mergeBits (s.liveWord p a fs) mask v
      match s.hook p a mask w x with
      | some t => t
      | none => (s.storeFields p mask w fs).afterWrite a
    | _ => s

/-- The bits of a register that lie in its RW and RWS fields. -/
def storedBits (a : Nat) : Nat :=
  match regAt a with
  | .word fs => fs.foldl (fun m f => match f.acc with
      | .rw => m + (2 ^ f.fld.width - 1) * 2 ^ f.fld.lo
      | .rws => m + (2 ^ f.fld.width - 1) * 2 ^ f.fld.lo
      | _ => m) 0
  | _ => 0

/-- What a BAR0 write leaves of a register that a command descriptor wrote in the same cycle: the descriptor's write is applied second (R656).
The indirect sets have a copy for each path (R655). -/
def State.underCmd (s : State) (a v : Nat) : Nat :=
  if s.cmdWrote.1 ≠ s.clk + 1 ∨ indirectAddr a then v
  else (s.cmdWrote.2.filter (fun e => e.1 == a)).foldl (fun v e => mergeBits v (Nat.land e.2.1 (storedBits a)) e.2.2) v

/-- A command descriptor's write of a register, noted for its cycle. -/
def State.noteCmd (s : State) (a mask v : Nat) : State :=
  { s with cmdWrote := (s.clk + 1, (if s.cmdWrote.1 = s.clk + 1 then s.cmdWrote.2 else []) ++ [(a, mask, v)]) }

/-- A write that reaches a register on an access path (R654, R656). -/
def State.regWrite (s : State) (p : Path) (a mask v : Nat) : State :=
  match p with
  | .cmd => (s.writeWord .cmd a mask v).noteCmd a mask v
  | _ => s.writeWord p a mask (s.underCmd a v)

end Sys2Proof.Machine
end

