-- ==== Sys2Proof/Machine/RegRows.lean ====
section
/-! DEFINITION. The commands that are an access to a register over BAR0 or the BMC interface (R10, R12, R351, R591, R647 to R653), and the
messages of the sideband (R34 to R38). -/
namespace Sys2Proof.Machine

/-! ### BAR0 writes -/

/-- The bits of a register that a BAR0 write still reaches after sealing (*Writes kept after sealing*). -/
def State.keptBits (s : State) (a : Nat) : Nat :=
  if isMsix a then 2 ^ 32 - 1
  else if [0x10040, 0x140020, 0x1C0040, 0x200010, 0x240010, 0x5C0200].contains a then 2 ^ 32 - 1
  else if 0x260000 ≤ a ∧ a < 0x268000 ∧ a % 0x100 = 0x30 then 2 ^ 32 - 1
  else if [0x1C0054, 0x200034, 0x240030, 0x5C0218].contains a then 1
  else if 0x260000 ≤ a ∧ a < 0x268000 ∧ a % 0x100 = 0x3C then 1
  else if a = 0x10050 ∧ s.hif.rctlOpen then 7
  else 0

/-- A BAR0 write without effect after sealing is counted, and the first is captured (R653). -/
def State.sealViolation (s : State) (a : Nat) : State :=
  let s := s.inc GEN_SEALVIOL.count
  if s.bit GEN_SEALCAP.valid then s else (s.wr GEN_SEALCAP.valid 1).wr GEN_SEALCAP.offset a

/-- A write that reaches its block: over the bridge, over the sideband, or not at all where the FD cannot be reached (R35, R649). -/
def State.deliverWrite (s : State) (p : Path) (a mask v : Nat) : State :=
  if isFdAddr a ∧ s.fdUnreachable then s
  else if s.viaSideband a then s.sbSend (fun g => .write g a mask v (p == .cmd))
  else (s.fdAccess a (fun g => .write g a mask v (p == .cmd)) (fun s => (0, s.regWrite p a mask v))).2

/-- A BAR0 write of a word (R571, R591, R648, R653). -/
def State.bar0Word (s : State) (a v : Nat) : State :=
  if s.pwr.recovery then s
  else if !s.bit GEN_BOOTSTAT.ready then (if a = 0x10C then s.regWrite .bar0 a (2 ^ 32 - 1) v else s)
  else if isReserved a then
    let s := s.inc HIF_BADACC.count
    if s.bit GEN_SEAL.sealed then s.sealViolation a else s
  else if s.bit GEN_SEAL.sealed then
    let kept := s.keptBits a
    if kept = 0 ∨ (kept ≠ 2 ^ 32 - 1 ∧ Nat.land v kept = 0) then s.sealViolation a else s.deliverWrite .bar0 a kept v
  else s.deliverWrite .bar0 a (2 ^ 32 - 1) v

/-- A BAR0 write of 4 or 8 bytes: an 8-byte one writes its low word, then its high word (R351). -/
def State.bar0Write (s : State) (a size v : Nat) : State :=
  if !accessOk a size then
    let s := s.inc HIF_BADACC.count
    if s.bit GEN_SEAL.sealed then s.sealViolation a else s
  else if size = 4 then s.bar0Word a (v % 2 ^ 32)
  else (s.bar0Word a (v % 2 ^ 32)).bar0Word (a + 4) (v / 2 ^ 32 % 2 ^ 32)

/-- BAR0_REGISTER_WRITE (R11 to R13, R351, R648, R653): a write of `size` bytes at a BAR0 offset. -/
def execBar0RegisterWrite (a size v : Nat) (s : State) : Out := .next (s.bar0Write a size v)

/-! ### Reads -/

/-- PAIR_LOW_WORD_READ (R10, R351, R650): a read that starts at the low word of a pair, over BAR0 or the BMC interface. Over BAR0 it
stands for a read of any register, size and alignment: an 8-byte read may start at any register, and no other row of the table reads one. -/
def execPairLowWordRead (bmc : Bool) (a size : Nat) (s : State) : Out :=
  match regAt a with
  | .pairLo _ => .next (if bmc then s.bmcRead a else s.bar0ReadN a size)
  | _ => .next (if bmc then s else s.bar0ReadN a size)

/-- PAIR_HIGH_WORD_READ (R10, R650): a 4-byte read of the high word of a pair. -/
def execPairHighWordRead (bmc : Bool) (a : Nat) (s : State) : Out :=
  match regAt a with
  | .pairHi _ => .next (if bmc then s.bmcRead a else s.bar0ReadN a 4)
  | _ => .next s

/-- Whether a register has an RC field. -/
def hasRc (a : Nat) : Bool :=
  match regAt a with
  | .word fs => fs.any (fun f => f.acc == .rc)
  | _ => false

/-- RC_FIELD_READ (R12, R14): a BAR0 read of a register with an RC field. -/
def execRcFieldRead (a : Nat) (s : State) : Out := .next (if hasRc a then s.bar0ReadN a 4 else s)

/-- TSLAST0_READ (R466): a BAR0 read of LPT_TSLAST0 of a port. -/
def execTslast0Read (port : Nat) (s : State) : Out := .next (if port < 128 then s.bar0ReadN (0x400020 + 0x800 * port) 4 else s)

/-- TIM_NOW0_READ (R602): a BAR0 read of TIM_NOW0. -/
def execTimNow0Read (s : State) : Out := .next (s.bar0ReadN 0x40010 4)

/-- PPSCAP0_READ (R606): a BAR0 read of TIM_PPSCAP0. -/
def execPpscap0Read (s : State) : Out := .next (s.bar0ReadN 0x40050 4)

/-- PWR_STAT_BMC_READ (R630, R651): a BMC read of PWR_STAT raises BMC_ALERT_N. -/
def execPwrStatBmcRead (s : State) : Out :=
  let t := s.bmcRead 0x600004
  .next { t with pwr := { t.pwr with bmcAlert := false } }

/-! ### The sideband -/

/-- Whether a message can be delivered now: register accesses wait while the sideband is lost (R40, R525). -/
def State.sbDeliverable (s : State) (m : SbMsg) : Bool :=
  match m with
  | .heartbeat => true
  | .power _ _ => true
  | _ => s.bit D2D_STAT.sideband_up

/-- The FD end executes an access once by its tag (R37): a tag that it has on record is answered from there (R38). -/
def State.execTag (s : State) (tag : Nat) (f : State → Nat × State) : State :=
  match s.dies.tags.find? (fun e => e.1 == tag) with
  | some (_, v) => { s with dies := { s.dies with sbResult := some (tag, v) } }
  | none =>
    let (v, s) := f s
    s.tagDone tag v

/-- The tag of a register access. -/
def SbMsg.tag : SbMsg → Option Nat
  | .read tag _ _ _ => some tag
  | .write tag _ _ _ _ => some tag
  | _ => none

/-- What a register access does at the FD end, once by its tag (R37, R38). -/
def State.perform (s : State) (m : SbMsg) : State :=
  match m with
  | .read tag a cmd _ => s.execTag tag (fun s => s.regRead (if cmd then .cmd else .bar0) a)
  | .write tag a mask v cmd => s.execTag tag (fun s => (0, s.regWrite (if cmd then .cmd else .bar0) a mask v))
  | _ => s

/-- The answer to an access arrives: for the command descriptor that waits for it, or as the data of a BAR0 read; a write brings none. -/
def State.answered (s : State) (m : SbMsg) (tag v : Nat) : State :=
  match m with
  | .read _ _ false part => s.givesPart part v
  | .read _ _ true _ => { s with dies := { s.dies with cmdResult := some (tag, v) } }
  | .write _ _ _ _ true => { s with dies := { s.dies with cmdResult := some (tag, v) } }
  | _ => s

/-- The result of the access last carried out. -/
def State.lastResult (s : State) : Nat := (s.dies.sbResult.map (·.2)).getD 0

/-- What a message does at the FD end of the sideband (R34 to R38); an access is answered with it. -/
def State.sbArrive (s : State) (m : SbMsg) : State :=
  match m with
  | .heartbeat => s.hearBeat true
  | .power on inReset => (s.wrBit D2D_STAT.fd_powered on).wrBit D2D_STAT.fd_reset inReset
  | _ =>
    let t := s.perform m
    t.answered m (m.tag.getD 0) t.lastResult

/-- The oldest message that waits for a place in the crossing takes the one that has become free (R46). -/
def State.sbRefill (s : State) : State :=
  match s.dies.sbWait with
  | m :: rest => if s.dies.toFd.length < 8 then { s with dies := { s.dies with toFd := s.dies.toFd ++ [m], sbWait := rest } } else s
  | [] => s

/-- SIDEBAND_MESSAGE_RECEIVE (R34 to R38): the oldest message that can be delivered arrives at the FD end (`fd`) or the TD end. Where it is
damaged (`ok` false), a heartbeat is gone and any other message is sent again. -/
def execSidebandMessageReceive (fd ok : Bool) (s : State) : Out :=
  if fd then
    match s.dies.toFd.findIdx? s.sbDeliverable with
    | none => .next s
    | some i =>
      match s.dies.toFd[i]? with
      | none => .next s
      | some m =>
        let t := ({ s with dies := { s.dies with toFd := s.dies.toFd.eraseIdx i } } : State).sbRefill
        if ok then .next (t.sbArrive m) else if m = .heartbeat then .next t else .next s
  else
    match s.dies.toTd with
    | [] => .next s
    | _ :: rest =>
      let t := { s with dies := { s.dies with toTd := rest } }
      .next (if ok then t.hearBeat false else t)

/-! ### Control-class messages that had to wait (R28) -/

/-- An access over the bridge has its answer: it is owed no longer. -/
def State.paid (s : State) (tag : Nat) : State :=
  { s with dies := { s.dies with owed := s.dies.owed.filter (fun m => m.tag != some tag) } }

/-- A message that had to wait takes effect: an access is carried out at the FD and its answer crosses back, an answer reaches its sender, a
record or a sample the host interface. -/
def State.ctlArrive (s : State) (m : CtlMsg) : State :=
  match m with
  | .access a =>
    let t := s.perform a
    let tag := a.tag.getD 0
    if t.ctlFree true 1 then ((t.ctlNow true 1).paid tag).answered a tag t.lastResult else t.ctlWait true 1 (.reply tag t.lastResult)
  | .reply tag v =>
    match s.dies.owed.find? (fun a => a.tag == some tag) with
    | some a => (s.paid tag).answered a tag v
    | none => s
  | .event e => s.fileRec e
  | .sample v => s.putSample v

/-- FLIT_RECEIVE (R24, R26, R28, R30): a flit under way in a direction arrives; the messages that it completes take effect. -/
def execFlitReceive (ft : Bool) (seq : Nat) (badLane : Option Nat) (s : State) : Out :=
  let (t, l) := s.flitIn ft seq badLane
  .next (l.foldl State.ctlArrive t)

/-! ### Registers with a row of their own -/

/-- A 4-byte BAR0 write of a register of the FD, the TD or the island, in full. -/
def State.poke (s : State) (a v : Nat) : State := s.bar0Write a 4 (v % 2 ^ 32)

/-- GEN_SEAL (R652): a BAR0 write of GEN_SEAL. -/
def execGenSeal (v : Nat) (s : State) : Out := .next (s.poke 0x20 v)

/-- ENG_CLROLE_WRITE (R86 to R88): a BAR0 write of ENG_CLROLE of a cluster. -/
def execEngClroleWrite (c role : Nat) (s : State) : Out := .next (if c < 24 then s.poke (0x80004 + 0x1000 * c) role else s)

/-- ENG_FLIP_REQUEST (R92, R93): a BAR0 write of 1 to ENG_BANKCTL.flip. -/
def execEngFlipRequest (c : Nat) (s : State) : Out := .next (if c < 24 then s.poke (0x80010 + 0x1000 * c) 256 else s)

/-- ENG_CNTCLR (R110): a BAR0 write of 1 to ENG_CNTCLR. -/
def execEngCntclr (c : Nat) (s : State) : Out := .next (if c < 24 then s.poke (0x80044 + 0x1000 * c) 1 else s)

/-- BRG_ENABLE_WRITE (R175, R194): a BAR0 write of BRG_CFG. -/
def execBrgEnableWrite (v : Nat) (s : State) : Out := .next (s.poke 0x140000 v)

/-- AGE_PERIOD_WRITE (R194, R198): a BAR0 write of BRG_AGECFG.period_s. -/
def execAgePeriodWrite (period : Nat) (s : State) : Out := .next (s.poke 0x140004 (period % 65536))

/-- XFIB_ENABLE (R129): a BAR0 write of 1 to LKP_XFIBCFG.enable. -/
def execXfibEnable (s : State) : Out := .next (s.poke 0x100004 1)

/-- XFIB_DISABLE (R134): a BAR0 write of 0 to LKP_XFIBCFG.enable. -/
def execXfibDisable (s : State) : Out := .next (s.poke 0x100004 0)

/-- HOT_UNITS_WRITE (R139): a BAR0 write of LKP_FIBCFG.hot_units. -/
def execHotUnitsWrite (units : Nat) (s : State) : Out := .next (s.poke 0x100000 (units % 2 ^ 22))

/-- EM_TABLE_ENABLE (R140, R142): a BAR0 write of LKP_EMCFG of a table with enable 1. -/
def execEmTableEnable (t v : Nat) (s : State) : Out :=
  .next (if t < 64 then s.poke (0x100100 + 8 * t) (putBits (v % 2 ^ 32) 31 1 1) else s)

/-- EM_TABLE_DISABLE (R142): a BAR0 write of LKP_EMCFG of a table with enable 0. -/
def execEmTableDisable (t v : Nat) (s : State) : Out :=
  .next (if t < 64 then s.poke (0x100100 + 8 * t) (putBits (v % 2 ^ 32) 31 1 0) else s)

/-- BUFFER_ENABLE_WRITE (R208): a BAR0 write of BPM_CFG. -/
def execBufferEnableWrite (v : Nat) (s : State) : Out := .next (s.poke 0x180000 v)

/-- RESERVE_ENABLE_WRITE (R210): a BAR0 write of BPM_RSVCFG. -/
def execReserveEnableWrite (v : Nat) (s : State) : Out := .next (s.poke 0x180008 v)

/-- LINK_DRAIN (R288): a BAR0 write of 1 to QM_LINKCTL.drain. -/
def execLinkDrain (l : Nat) (s : State) : Out := .next (if l < 48 then s.poke (0x1C0200 + 4 * l) 1 else s)

/-- LINK_RESTORE (R290): a BAR0 write of 1 to QM_LINKCTL.restore. -/
def execLinkRestore (l : Nat) (s : State) : Out := .next (if l < 48 then s.poke (0x1C0200 + 4 * l) 2 else s)

/-- QM_TCMD_WRITE (R244, R254, R305): a BAR0 write of the write bit of QM_TCMD. -/
def execQmTcmdWrite (s : State) : Out := .next (s.poke 0x1C0054 2)

/-- QM_TCMD_READ (R305): a BAR0 write of the read bit of QM_TCMD. -/
def execQmTcmdRead (s : State) : Out := .next (s.poke 0x1C0054 1)

/-- SCH_NODE_WRITE (R319, R320, R324, R326, R327): a BAR0 write of SCH_NCMD.write. -/
def execSchNodeWrite (s : State) : Out := .next (s.poke 0x200034 2)

/-- SCH_NODE_READ (R322): a BAR0 write of SCH_NCMD.read. -/
def execSchNodeRead (s : State) : Out := .next (s.poke 0x200034 1)

/-- POLICER_WRITE (R333): a BAR0 write of POL_CMD.write. -/
def execPolicerWrite (s : State) : Out := .next (s.poke 0x240030 2)

/-- POLICER_READ (R333): a BAR0 write of POL_CMD.read. -/
def execPolicerRead (s : State) : Out := .next (s.poke 0x240030 1)

/-- TG_CTL of a port with its enable and init_gates as they stand, and other bits. -/
def State.tgWord (s : State) (p enable bits : Nat) : Nat := enable * 2 ^ 31 + bits + s.rd (TG_CTL.init_gates p)

/-- TG_ACTIVATE (R340, R343): a BAR0 write of TG_CTL.activate of a port. -/
def execTgActivate (p : Nat) (s : State) : Out :=
  .next (if p < 128 then s.poke (0x260000 + 0x100 * p) (s.tgWord p (s.rd (TG_CTL.enable p)) (2 ^ 9)) else s)

/-- TG_CANCEL (R342): a BAR0 write of TG_CTL.cancel of a port. -/
def execTgCancel (p : Nat) (s : State) : Out :=
  .next (if p < 128 then s.poke (0x260000 + 0x100 * p) (s.tgWord p (s.rd (TG_CTL.enable p)) (2 ^ 10)) else s)

/-- TG_DISABLE (R342): a BAR0 write of 0 to TG_CTL.enable of a port. -/
def execTgDisable (p : Nat) (s : State) : Out := .next (if p < 128 then s.poke (0x260000 + 0x100 * p) (s.tgWord p 0 0) else s)

/-- TG_ENTRY_WRITE (R335, R342): a BAR0 write of the write bit of TG_ENTCMD of a port. -/
def execTgEntryWrite (p : Nat) (s : State) : Out := .next (if p < 128 then s.poke (0x26003C + 0x100 * p) 2 else s)

/-- TG_ENTRY_READ (R335): a BAR0 write of the read bit of TG_ENTCMD of a port. -/
def execTgEntryRead (p : Nat) (s : State) : Out := .next (if p < 128 then s.poke (0x26003C + 0x100 * p) 1 else s)

/-- RCTL_START (R354, R398): a BAR0 write of HIF_RCTL.start. -/
def execRctlStart (s : State) : Out := .next (s.poke 0x10050 1)

/-- RCTL_STOP (R384, R398): a BAR0 write of HIF_RCTL.stop. -/
def execRctlStop (s : State) : Out := .next (s.poke 0x10050 2)

/-- RCTL_INVALIDATE (R355, R398): a BAR0 write of HIF_RCTL.invalidate. -/
def execRctlInvalidate (s : State) : Out := .next (s.poke 0x10050 4)

/-- MCD_ROLE_WRITE (R404 to R406): a BAR0 write of MCD_CFG of a channel. -/
def execMcdRoleWrite (ch v : Nat) (s : State) : Out := .next (if ch < 8 then s.poke (0x380000 + 0x2000 * ch) v else s)

/-- PORT_ENABLE (R438, R439): a BAR0 write of LPT_CFG of a port with enable 1. -/
def execPortEnable (p v : Nat) (s : State) : Out :=
  .next (if p < 128 then s.poke (0x400000 + 0x800 * p) (putBits (v % 2 ^ 32) 31 1 1) else s)

/-- PORT_DISABLE (R439): a BAR0 write of LPT_CFG of a port with enable 0. -/
def execPortDisable (p v : Nat) (s : State) : Out :=
  .next (if p < 128 then s.poke (0x400000 + 0x800 * p) (putBits (v % 2 ^ 32) 31 1 0) else s)

/-- LANE_STATE_REQUEST (R452): a BAR0 write of SDS_CTL of a lane; line lanes are 0 to 127, fabric lane f is 128 + f. `errs` is what the PRBS
checker of a lane that runs one has found in error since the last such write (*Counter page*, SDS_PRBSERR). -/
def execLaneStateRequest (ln v errs : Nat) (s : State) : Out :=
  if 320 ≤ ln then .next s
  else
    let s := if s.rd (SDS_CTL.prbs ln) ≠ 0 ∧ s.rd (SDS_STAT.state ln) = 2 then s.addSat (SDS_PRBSERR.count ln) errs else s
    .next (s.poke (sdsBase ln) v)

/-- LINK_ENABLE (R470): a BAR0 write of FLK_CTL of a link with enable 1. -/
def execLinkEnable (l v : Nat) (s : State) : Out :=
  .next (if l < 48 then s.poke (0x500000 + 0x1000 * l) (putBits (v % 2 ^ 32) 31 1 1) else s)

/-- LINK_DISABLE (R470): a BAR0 write of FLK_CTL of a link with enable 0. -/
def execLinkDisable (l v : Nat) (s : State) : Out :=
  .next (if l < 48 then s.poke (0x500000 + 0x1000 * l) (putBits (v % 2 ^ 32) 31 1 0) else s)

/-- LINK_STANDBY (R471): a BAR0 write of FLK_CTL of a link that changes standby alone. -/
def execLinkStandby (l : Nat) (on : Bool) (s : State) : Out :=
  .next (if l < 48 then
    s.poke (0x500000 + 0x1000 * l) (putBits (s.live .bar0 (0x500000 + 0x1000 * l)) 29 1 (b2n on)) else s)

/-- D2D_RETRAIN (R526): a BAR0 write of D2D_CTL.retrain naming a module, or 0xFF for all LOST modules. -/
def execD2dRetrain (m : Nat) (s : State) : Out := .next (s.poke 0x58000C (2 ^ 31 + m % 256))

/-- RESET_ARM (R584): a BAR0 write of GEN_RSTCTL.arm. -/
def execResetArm (s : State) : Out := .next (s.poke 0x10C (2 ^ 31))

/-- COLD_RESET_REQUEST (R584, *Reset kinds*): a BAR0 write of GEN_RSTCTL.cold. -/
def execColdResetRequest (s : State) : Out := .next (s.poke 0x10C 1)

/-- WARM_RESET_REQUEST (R584, R585): a BAR0 write of GEN_RSTCTL.warm. -/
def execWarmResetRequest (s : State) : Out := .next (s.poke 0x10C 2)

/-- TIME_STEP (R603, R605): a BAR0 write of TIM_CTL.step. -/
def execTimeStep (s : State) : Out := .next (s.poke 0x40030 2)

/-- TIME_OFFSET (R604, R605): a BAR0 write of TIM_CTL.offset. -/
def execTimeOffset (s : State) : Out := .next (s.poke 0x40030 1)

/-- TIM_FREQ_WRITE (R600): a BAR0 write of TIM_FREQ. -/
def execTimFreqWrite (v : Nat) (s : State) : Out := .next (s.poke 0x40034 v)

/-- SEGMENT_HOME_WRITE (R610, R612): a BAR0 write of TEL_SEGMAP of a segment. -/
def execSegmentHomeWrite (seg home : Nat) (s : State) : Out :=
  .next (if seg < 64 then s.poke (0x5C0100 + 4 * seg) (home % 16 * 2 ^ 28) else s)

/-- TEL_SESSION_WRITE (R622): a BAR0 write of TEL_SCMD.write. -/
def execTelSessionWrite (s : State) : Out := .next (s.poke 0x5C0218 2)

/-- TEL_SESSION_READ (R622): a BAR0 write of TEL_SCMD.read. -/
def execTelSessionRead (s : State) : Out := .next (s.poke 0x5C0218 1)

end Sys2Proof.Machine
end

