-- ==== Sys2Proof/Machine/HostOps.lean ====
section
/-! DEFINITION. The command descriptors that access registers, indirect tables, engine programs, queues and counters, and the packet rings
(08_host_interface.md, R365, R385 to R387, *Opcodes*). -/
namespace Sys2Proof.Machine

/-! ### Registers (R649, R654) -/

/-- Whether a write of the bits under a mask is refused with BAD_ADDRESS (R654). -/
def regBad (a mask : Nat) : Bool := decide (2 ^ 24 ≤ a) || isReserved a || isMsix a || a == 0x20 || !writableAt a mask

/-- A command's access to a register. Where its answer has to come over the sideband, or over the bridge when the control class has room, the
descriptor waits for it under the access's tag. -/
def State.cmdAccess (s : State) (r a : Nat) (m : Nat → SbMsg) (f : State → Nat × State) : Option Nat × State :=
  let wait := fun (t : State) => t.updTaken r (fun x => { x with waits := true, cursor := s.dies.nextTag + 1 })
  if s.viaSideband a then (none, wait (s.sbSend m))
  else
    match s.fdAccess a m f with
    | (some v, t) => (some v, t)
    | (none, t) => (none, wait t)

/-- The result that has come for a descriptor's access. -/
def State.cmdAnswer (s : State) (t : Taken) : Option Nat :=
  match s.dies.cmdResult with
  | some (g, v) => if g + 1 = t.cursor then some v else none
  | none => none

/-- The result is taken. -/
def State.cmdTaken (s : State) (r : Nat) : State :=
  let s := { s with dies := { s.dies with cmdResult := none } }
  s.updTaken r (fun t => { t with waits := false, cursor := 0 })

/-- REG_WRITE (R346, R399, R649, R654): writes the bits under the mask, whether or not set-up is sealed. -/
def execRegWrite (s : State) : Out :=
  match s.running 0x01 with
  | none => .next s
  | some (r, t) =>
    let a := t.f 16 4
    let v := t.f 20 4
    let mask := t.f 24 4
    if t.waits then
      match s.cmdAnswer t with
      | some _ => .next ((s.cmdTaken r).finDone r)
      | none => .next s
    else if regBad a mask then .next (s.finRefused r dBAD_ADDRESS)
    else if isFdAddr a ∧ s.fdUnreachable then .next (s.finBusy r dIN_USE)
    else
      match s.cmdAccess r a (fun g => .write g a mask v true) (fun s => (0, s.regWrite .cmd a mask v)) with
      | (some _, s) => .next (s.finDone r)
      | (none, s) => .next s

/-- REG_READ (R362, R649, R650): the value returns in bytes 8 to 11. A reserved offset reads 0. -/
def execRegRead (s : State) : Out :=
  match s.running 0x02 with
  | none => .next s
  | some (r, t) =>
    let a := t.f 16 4
    let give := fun (s : State) v => (s.seatInput (.readData v)).finData r 0 (leBytes 4 v ++ List.replicate 20 0)
    if t.waits then
      match s.cmdAnswer t with
      | some v => .next (give (s.cmdTaken r) v)
      | none => .next s
    else if 2 ^ 24 ≤ a ∨ isReserved a then .next (give s 0)
    else if isFdAddr a ∧ s.fdUnreachable then .next (s.finBusy r dIN_USE)
    else
      match s.cmdAccess r a (fun g => .read g a true 0) (fun s => s.regRead .cmd a) with
      | (some v, s) => .next (give s v)
      | (none, s) => .next s

/-- The boundary after a record of REG_BULK; a stop that waited for it is applied (R384). Whether the command ended. -/
def State.regStep (s : State) (r total : Nat) : Bool × State :=
  let s := s.stepEntry r
  match (s.ring r).taken with
  | none => (true, s)
  | some t =>
    if total ≤ t.progress then (true, s.finish r { status := .done, detail := 0, progress := t.progress })
    else if (s.ring r).st = .stopping then (true, s.endByStop r)
    else (false, s)

/-- Up to `n` further records (offset, value, mask, 0) of a REG_BULK (R158, R649, R654). A record for the FD that goes over the sideband is
waited for. -/
def regRun (r total buf : Nat) : Nat → State → State
  | 0, s => s
  | n + 1, s =>
    match (s.ring r).taken with
    | none => s
    | some t =>
      let k := t.progress
      let b := s.dmaRead (buf + 16 * k) 16
      let a := leAt b 0 4
      let mask := leAt b 8 4
      let v := leAt b 4 4
      let stop := fun d => s.finishTok r .partial_ d k 0
      if t.waits then
        match s.cmdAnswer t with
        | none => s
        | some _ =>
          let (over_, s) := (s.cmdTaken r).regStep r total
          if over_ || s.outranked r then s else regRun r total buf n s
      else if total ≤ k then s.finish r { status := .done, detail := 0, progress := k }
      else if leAt b 12 4 ≠ 0 then stop dRESERVED_SET
      else if regBad a mask then stop dBAD_ADDRESS
      else if isFdAddr a ∧ s.fdUnreachable then stop dIN_USE
      else
        match s.cmdAccess r a (fun g => .write g a mask v true) (fun s => (0, s.regWrite .cmd a mask v)) with
        | (none, s) => s
        | (some _, s) =>
          let (over_, s) := s.regStep r total
          if over_ || s.outranked r then s else regRun r total buf n s

/-- REG_BULK (R158, R399, R654). -/
def execRegBulk (n : Nat) (s : State) : Out :=
  match s.running 0x03 with
  | none => .next s
  | some (r, t) => .next (if s.dmaOk then regRun r (t.f 24 4) (t.f 16 8) n s else s)

/-! ### Engine programs (R90 to R93, R662) -/

/-- A LOADING bank whose ENG_LOAD is still taken (R92). -/
def State.loadHeld (s : State) (c b : Nat) : Bool :=
  let x := Tbl.get (0, 0) s.eng.loads (2 * c + b)
  match (s.ring x.2).taken with
  | some t => x.1 != 0 && t.op == 0x30 && t.cursor == x.1
  | none => false

/-- The first failure of a loaded bank: the condition of R90, 1 to 8, and the bundle, or the length for the last; (0, 0) for none. -/
def firstFailure (l : List Nat) : Nat × Nat :=
  match l.findIdx? (fun w => bundleFails l.length w != 0) with
  | some i => (bundleFails l.length ((l[i]?).getD 0), i)
  | none => if l.length < 8 then (8, l.length) else (0, 0)

/-- The end of a load (R90, R91, R662): the bank becomes READY, or LIVE if it is the live one, or EMPTY again. -/
def State.engLoaded (s : State) (r c b len : Nat) : State :=
  let l := (List.range len).map (fun i => s.bundle c b i)
  let (rule, at_) := firstFailure l
  let s := { s with eng := { s.eng with loads := Tbl.erase s.eng.loads (2 * c + b) } }
  let s := (s.wr (ENG_BANKSTAT.fail_rule c) rule).wr (ENG_BANKSTAT.fail_bundle c) at_
  if rule ≠ 0 then (s.wr (bankState c b) 0).finRefused r dVALIDATION
  else
    let st := if b = s.rd (ENG_BANKCTL.live_bank c) then 3 else 2
    ((s.wr (bankState c b) st).wr (bankLen c b) len).finish r { status := .done, detail := 0, progress := len }

/-- Up to `n` further bundles of a load. -/
def loadRun (r c b len buf : Nat) : Nat → State → State
  | 0, s => s
  | n + 1, s =>
    match (s.ring r).taken with
    | none => s
    | some t =>
      if !s.cmdFree then s else
      let s := s.cmdCross
      let k := t.progress
      let w := leAt (s.dmaRead (buf + 16 * k) 16) 0 16
      let s := { s with eng := { s.eng with bundles := Tbl.set 0 s.eng.bundles (bunKey c b k) w } }
      let s := s.stepEntry r
      if len ≤ k + 1 then s.engLoaded r c b len else if s.outranked r then s else loadRun r c b len buf n s

/-- ENG_LOAD (R90 to R92, R561, R596, R662): up to `n` further bundles go into a bank, which is validated when the last has come. -/
def execEngLoad (n : Nat) (s : State) : Out := .next (s.fdBulk 0x30 (fun s r t =>
  let c := t.f 16 1
  let b := t.f 17 1
  let len := t.f 20 4
  let buf := t.f 24 8
  let key := 2 * c + b
  if 24 ≤ c ∨ 2 ≤ b ∨ 32768 < len then s.finRefused r dBAD_OPERAND
  else
    let st := s.rd (bankState c b)
    if t.cursor = 0 then
      if st = 3 ∨ st = 4 then s.finBusy r dLIVE_RESOURCE
      else if s.castleHolds c b ∨ (st = 1 ∧ s.loadHeld c b) then s.finBusy r dIN_USE
      else
        let s := (s.abandonTest 1 (· == c)).abandonTest 2 (fun u => u % 256 == c && u / 256 == b)
        let k := s.eng.nextLoad
        let s := s.loadBank c b 1 (t.f 18 2) []
        let s := { s with eng := { s.eng with loads := Tbl.set (0, 0) s.eng.loads key (k, r), nextLoad := k + 1 } }
        let s := s.updTaken r (fun t => { t with cursor := k, progress := 0 })
        if len = 0 then s.engLoaded r c b 0 else loadRun r c b len buf n s
    else if st = 1 ∧ (Tbl.get (0, 0) s.eng.loads key).1 = t.cursor then
      loadRun r c b len buf n { s with eng := { s.eng with loads := Tbl.set (0, 0) s.eng.loads key (t.cursor, r) } }
    else s.finRefused r dBAD_TOKEN))

/-- ENG_FLIP (R92, R93, R561): asks for a flip of a cluster's live bank. -/
def execEngFlip (s : State) : Out := .next (s.fdOp 0x31 (fun s r t =>
  let c := t.f 16 1
  if 24 ≤ c then s.finRefused r dBAD_OPERAND
  else
    let b := 1 - s.rd (ENG_BANKCTL.live_bank c)
    if s.rd (bankState c b) ≠ 2 ∨ s.castleHolds c b then s.finBusy r dIN_USE else (s.askFlip c).finDone r))

/-! ### Program data -/

/-- Whether PDATA_WRITE or PDATA_READ has operands outside its ranges (R365). -/
def pdataBad (t : Taken) (all : Bool) : Bool :=
  (!all && decide (24 ≤ t.f 16 1)) || t.f 20 4 % 8 != 0 || t.f 24 4 % 8 != 0 || decide (524288 < t.f 20 4 + t.f 24 4)

/-- PDATA_WRITE: 8 bytes an entry go into the program data of one cluster, or of all. -/
def execPdataWrite (n : Nat) (s : State) : Out := .next (s.fdBulk 0x32 (fun s r t =>
  let all := bitOf (t.f 17 1) 0
  if pdataBad t all then s.finRefused r dBAD_OPERAND
  else bulkRun r (t.f 24 4 / 8) (crossing (fun k s =>
    let b := s.dmaRead (t.f 32 8 + 8 * k) 8
    let cs := if all then List.range 24 else [t.f 16 1]
    .go (cs.foldl (fun s c => s.setPdata c (t.f 20 4 + 8 * k) b) s))) n s))

/-- PDATA_READ: 8 bytes an entry of a cluster's program data go to the buffer. -/
def execPdataRead (n : Nat) (s : State) : Out := .next (s.fdBulk 0x33 (fun s r t =>
  if pdataBad t false then s.finRefused r dBAD_OPERAND
  else bulkRun r (t.f 24 4 / 8) (crossing (fun k s =>
    .go (s.dmaWrite (t.f 32 8 + 8 * k) ((List.range 8).map (fun i => s.pdataByte (t.f 16 1) (t.f 20 4 + 8 * k + i)))))) n s))

/-! ### Indirect tables -/

/-- A write of an entry of an indirect target (*IND targets*): BAD_OPERAND where the target, the index or the write is refused. -/
def State.indWrite (s : State) (target index : Nat) (w : List Nat) : Nat × State :=
  let x := fun i => wordAt w i
  if target ≤ 6 then
    if entCount target ≤ index then (dBAD_OPERAND, s)
    else
      let (ok, s) := s.writeEnt target index (x 0) (x 1)
      (if ok then 0 else dBAD_OPERAND, s)
  else if 8 ≤ target ∧ target ≤ 12 then
    if levelSize (target - 8) ≤ index then (dBAD_OPERAND, s)
    else
      let (d, s) := s.writeNode (target - 8) index { d0 := x 0, d1 := x 1, d2 := x 2, d3 := x 3, d4 := x 4, d5 := x 5 }
      (if d = 0 then 0 else dBAD_OPERAND, s)
  else if target = 16 then
    if 2097152 ≤ index then (dBAD_OPERAND, s)
    else
      let (ok, s) := s.writePolicer index (x 0) (x 1) (x 2) (x 3) (x 4)
      (if ok then 0 else dBAD_OPERAND, s)
  else if target = 24 then
    if 131072 ≤ index then (dBAD_OPERAND, s)
    else
      let (ok, s) := s.putGateEntry (index / 1024) (index % 1024) (x 0 % 256) (x 1 % 2 ^ 30)
      (if ok then 0 else dBAD_OPERAND, s)
  else (dBAD_OPERAND, s)

/-- The words that a read of an entry of an indirect target gives; none for a target or an index out of range. -/
def State.indRead (s : State) (target index : Nat) : Option (List Nat) :=
  if target ≤ 6 then (if entCount target ≤ index then none else some (s.readEnt target index))
  else if 8 ≤ target ∧ target ≤ 12 then
    if levelSize (target - 8) ≤ index then none
    else
      let w := (s.node (target - 8) index).words.1
      some [w.d0, w.d1, w.d2, w.d3, w.d4, w.d5]
  else if target = 16 then (if 2097152 ≤ index then none else some ((s.policer index).words.take 5))
  else if target = 24 then
    if 131072 ≤ index then none
    else
      let g := s.gate (index / 1024)
      let e := g.entry g.admin (index % 1024)
      some [e.1, e.2]
  else none

/-- An IND command with its target's die: policers lie on the FD (R525, R649). -/
def State.viaInd (s : State) (r : Nat) (t : Taken) (f : State → State) : State :=
  if t.f 16 1 ≠ 16 then f s
  else if s.fdUnreachable then (if t.progress = 0 then s.finBusy r dIN_USE else s.finishTok r .partial_ dIN_USE t.progress 0)
  else s.viaFd r t f

/-- IND_WRITE (R254, R306, R346, R655). -/
def execIndWrite (s : State) : Out :=
  match s.running 0x38 with
  | none => .next s
  | some (r, t) =>
    .next (s.viaInd r t (fun s =>
      let (d, s) := s.indWrite (t.f 16 1) (t.f 20 4) ((List.range 6).map (fun i => t.f (24 + 4 * i) 4))
      s.finWith r d))

/-- IND_READ (R362): words 0 to 5 return in bytes 8 to 31. -/
def execIndRead (s : State) : Out :=
  match s.running 0x39 with
  | none => .next s
  | some (r, t) =>
    .next (s.viaInd r t (fun s =>
      match s.indRead (t.f 16 1) (t.f 20 4) with
      | none => s.finRefused r dBAD_OPERAND
      | some w => s.finData r 0 ((List.range 6).flatMap (fun i => leBytes 4 (wordAt w i)))))

/-- IND_BULK (R158): up to `n` further records (index, 0, words 0 to 5). -/
def execIndBulk (n : Nat) (s : State) : Out :=
  match s.running 0x3A with
  | none => .next s
  | some (r, t) =>
    .next (if !s.dmaOk then s
      else s.viaInd r t (fun s => bulkRun r (t.f 32 4) (fun k s =>
        let b := s.dmaRead (t.f 24 8 + 32 * k) 32
        if leAt b 4 4 ≠ 0 then .stop .partial_ dRESERVED_SET s
        else match s.indWrite (t.f 16 1) (leAt b 0 4) ((List.range 6).map (fun i => leAt b (8 + 4 * i) 4)) with
          | (0, s) => .go s
          | (d, s) => .stop .partial_ d s) n s))

/-! ### Queues and counters -/

/-- QUEUE_FLUSH (R305): empties an egress queue or a VOQ under HOST_FLUSH. -/
def execQueueFlush (s : State) : Out :=
  match s.running 0x3B with
  | none => .next s
  | some (r, t) =>
    let q := t.f 20 4
    if t.f 16 1 = 0 ∧ q < 1048576 then .next ((s.flush q 0xF).finDone r)
    else if t.f 16 1 = 1 ∧ q < 65536 then .next ((s.flush (voqKey q) 0xF).finDone r)
    else .next (s.finRefused r dBAD_OPERAND)

/-- CNT_READ (R611, R616, R617): up to `n` further pairs go to the buffer, packets first, and are zeroed on request. `bad` lists the pairs
that storage returns poisoned. -/
def execCntRead (n : Nat) (bad : List Nat) (s : State) : Out :=
  match s.running 0x40 with
  | none => .next s
  | some (r, t) =>
    let first := t.f 16 4
    let count := t.f 20 4
    if count = 0 ∨ 16777216 < count ∨ 67108864 < first + count then .next (s.finRefused r dBAD_OPERAND)
    else
      .next (if !s.dmaOk then s
        else bulkRun r count (fun k s =>
          let i := first + k
          let s := if bad.contains i && s.cntHome i != 0 then s.poisoned i else s
          let (pk, by_) := s.cntValue i
          let s := s.dmaWrite (t.f 32 8 + 16 * k) (leBytes 8 pk ++ leBytes 8 by_)
          .go (if bitOf (t.f 24 1) 0 then s.cntClear i else s)) n s)

/-! ### Punt rings (R385, R386) -/

/-- PUNT_BUF (R385): a PUNT ring takes a buffer, to be filled with one packet. -/
def execPuntBuf (ring : Nat) (s : State) : Out :=
  let g := s.ring ring
  if s.mayTake g 3 ∧ leAt (s.headDesc g) 0 1 ≠ 0 then
    let s := s.takeFrom ring
    match (s.ring ring).taken with
    | none => .next s
    | some t =>
      if t.f 24 2 < 64 ∨ 16384 < t.f 24 2 then .next (s.finRefused ring dBAD_OPERAND)
      else .next (s.setRing ring { s.ring ring with taken := none, buffers := (s.ring ring).buffers ++ [t] })
  else .next s

/-- The next packet for a punt port and the ring that takes it: first one whose earlier write met a fault, to the same buffer (R386). -/
def State.nextPunt (s : State) (cls : Nat) : Option (Nat × PuntPkt) :=
  let rs := s.puntRings cls
  match rs.find? (fun r => (s.ring r).stuck.isSome) with
  | some r => (s.ring r).stuck.map (fun k => (r, k))
  | none =>
    match rotate rs (Tbl.get 4096 s.hif.lastPunt cls), s.hif.puntQ.find? (fun k => k.cls == cls) with
    | some r, some k => some (r, k)
    | _, _ => none

/-- *PUNT_BUF result*: the completion of a buffer of `room` bytes. -/
def puntResult (x : Chain) (len room : Nat) : Cpl :=
  { status := .done, detail := len % 2 ^ 14 + (if room < len then 2 ^ 31 else 0),
    data := some (leBytes 2 (min len room) ++ [x.pkt.pipe % 4, 0] ++ leBytes 4 x.enq ++ sliceB x.pkt.fwd 20 16) }

/-- PUNT_WRITE (R362, R363, R385, R386): a packet selected for the punt port of a class is written to the next ring's buffer, which completes,
and its chain is released. -/
def execPuntWrite (cls : Nat) (s : State) : Out :=
  match s.nextPunt cls with
  | none => .next s
  | some (r, k) =>
    match (s.ring r).buffers with
    | [] => .next s
    | t :: rest =>
      if !s.dmaOk then .next s
      else
        let x := s.chain k.ptr
        let room := t.f 24 2
        let s := s.dmaWrite (t.f 16 8) (sliceB x.pkt.bytes 0 (min k.len room))
        let s := { s with hif := { s.hif with puntQ := s.hif.puntQ.erase k, lastPunt := Tbl.set 4096 s.hif.lastPunt cls r } }
        let s := s.setRing r { s.ring r with buffers := rest, stuck := none }
        .next ((s.writeCpl r t (puntResult x k.len room)).release k.ptr k.gen 0x13)

/-! ### Inject rings (R206, R387, R661) -/

/-- The descriptor of an INJECT ring to serve now: the one taken, or the one at the head, with the target bit `target`. A descriptor that
breaks its layout completes as it is taken. -/
def State.injectNow (s : State) (ring target : Nat) : Option Taken × State :=
  let g := s.ring ring
  match g.taken with
  | some t =>
    (if g.kind = 4 ∧ t.op = 0x70 ∧ t.st = .running ∧ !t.waits ∧ t.f 26 1 % 2 = target ∧ s.dmaOk then some t else none, s)
  | none =>
    let d := s.headDesc g
    if s.mayTake g 4 ∧ leAt d 0 1 ≠ 0 ∧ leAt d 26 1 % 2 = target then
      let s := s.takeFrom ring
      ((s.ring ring).taken, s)
    else (none, s)

/-- The packet of an INJECT, numbered (R55, R387). -/
def State.injectPacket (s : State) (ring : Nat) (t : Taken) : Packet :=
  { bytes := s.dmaRead (t.f 16 8) (t.f 24 2), pipe := t.f 26 1 / 4 % 4, port := 136 + (s.ring ring).cls, entry := 3, rxLen := t.f 24 2,
    sec := s.netNs / 10 ^ 9, ns := s.netNs % 10 ^ 9, inj := some ring }

/-- The forwarding result of a host-injected packet that has no ingress ply (R661). -/
def injectResult (cls queue len : Nat) : List Nat :=
  [0, 0, 0, 0] ++ beBytes 3 queue ++ [136 + cls] ++ List.replicate 4 0 ++ beBytes 2 64 ++ beBytes 2 len ++ List.replicate 32 0

/-- A packet of an inject ring that is still on its way to a queue, which a later one of the ring must not overtake (R261). -/
def State.injectUnderWay (s : State) (ring : Nat) : Bool :=
  let mine := fun (k : Packet) => k.inj == some ring
  let flits := s.dies.ft.waiting ++ s.dies.ft.replay ++ s.dies.ft.reorder
  s.eng.order.any (fun e => e.key == inKey (256 + ring)) || (List.range 4).any (fun p => (s.entryQ p).any mine) ||
  flits.any (fun f => match f.pkt with
    | some k => mine k
    | none => false) || s.dies.ft.arrived.any mine ||
  (List.range 4).any (fun w => (Tbl.get [] s.bpm.jobs w).any (fun j => mine (s.chain j.ptr).pkt))

/-- What the ring's INJECT has brought so far is taken back (R377): its place in the dispatch queue, or its chain with the cells that wait
for the crossbar. -/
def State.injectDrop (s : State) (ring : Nat) : State :=
  let mine := fun (k : Packet) => k.inj == some ring
  let s := (List.range 4).foldl (fun s p =>
    if (s.dispQ false p).any mine then s.setDispQ false p ((s.dispQ false p).filter (fun k => !mine k)) else s) s
  let s := { s with eng := { s.eng with order := s.eng.order.filter (fun e => e.key != inKey (256 + ring) || e.over_) } }
  let jobs := Tbl.get [] s.bpm.jobs 52
  let (gone, kept) := jobs.partition (fun j => mine (s.chain j.ptr).pkt)
  let keep := fun (l : List XCell) => l.filter (fun x => !gone.any (fun j => j.ptr == x.ptr))
  let s := { s with bpm := { s.bpm with jobs := Tbl.set [] s.bpm.jobs 52 kept, wait := Tbl.upd [] s.bpm.wait 52 keep,
                                        inputs := Tbl.upd [] s.bpm.inputs 112 keep } }
  gone.foldl (fun s j => s.freeChain j.ptr) s

/-- A register access that has no answer yet is withdrawn wherever it is on its way (R377). -/
def State.cancelTag (s : State) (tag : Nat) : State :=
  let other := fun (m : SbMsg) => m.tag != some tag
  let blank := fun (f : Flit) => match f.msg with
    | some (.access m) => if other m then f else { f with msg := none }
    | some (.reply g _) => if g = tag then { f with msg := none } else f
    | _ => f
  let clean := fun (d : BridgeDir) => { d with waiting := d.waiting.map blank, replay := d.replay.map blank, reorder := d.reorder.map blank }
  let d := s.dies
  { s with dies := { d with toFd := d.toFd.filter other, sbWait := d.sbWait.filter other, owed := d.owed.filter other,
                            tf := clean d.tf, ft := clean d.ft } }

/-- The entry in progress of the taken descriptor `t` of ring `r` is abandoned and has no effect; a register write that was carried out at
the FD already counts as applied (R369, R377). -/
def State.abandon (s : State) (r : Nat) (t : Taken) : State :=
  let s := if t.op = 0x50 then s.wr CHK_STAT.busy 0 else s
  if (t.op = 0x01 ∨ t.op = 0x02 ∨ t.op = 0x03) ∧ t.waits then
    let done_ := t.op ≠ 0x02 ∧ s.dies.tags.any (fun e => e.1 + 1 == t.cursor)
    (s.cancelTag (t.cursor - 1)).updTaken r (fun t => { t with waits := false, cursor := 0, progress := if done_ then t.progress + 1 else t.progress })
  else if t.op = 0x70 then s.injectDrop r
  else s

/-- DESC_NO_PROGRESS (R377, R575): the running descriptor of the executor or of an INJECT ring passes no entry boundary for desc_ms; the
entry in progress is abandoned with what its unit holds of it, and the descriptor completes EXPIRED with NO_PROGRESS. -/
def execDescNoProgress (ring : Nat) (s : State) : Out :=
  match (s.ring ring).taken with
  | none => .next s
  | some t =>
    if t.st = .running ∧ (s.hif.exec = some ring ∨ (s.ring ring).kind = 4) ∧ s.elapsed t.stepAt (ms (s.rd HIF_TIMEOUTS.desc_ms)) then
      let s := s.abandon ring t
      let n := (s.ring ring).progWord
      let s := s.finishTok ring .expired dNO_PROGRESS n 0
      .next (s.post 0x0804 (leBytes 2 ring ++ [t.op, 0] ++ leBytes 4 n))
    else .next s

/-- INJECT_EGRESS (R206, R213, R217, R261, R387, R661): an INJECT with target 0 reads its packet and offers it to its egress queue. It completes when
the chain is linked, or with the reason of its drop. -/
def execInjectEgress (ring : Nat) (s : State) : Out :=
  match s.injectNow ring 0 with
  | (none, s) => .next s
  | (some t, s) =>
    let n := t.f 24 2
    let q := t.f 28 4
    if n = 0 then .next (s.finRefused ring dBAD_OPERAND)
    else if s.injectUnderWay ring ∨ !(s.xwait 52).isEmpty then .next s
    else match s.allocTurn 5 with
    | none => .next s
    | some s =>
      let k := s.injectPacket ring t
      let no := s.eng.nextOrd
      let k := { k with ord := no, queue := q, fwd := injectResult (s.ring ring).cls q n }
      let s := { s with eng := { s.eng with nextOrd := no + 1 } }
      let why := s.refusal q n
      let (s, a) := s.accept 52 k none [{ queue := q }]
      if a.ptr.isSome then .next (s.updTaken ring (fun t => { t with waits := true, cursor := no }))
      else .next (s.finRefused ring (if why = 0 then 4 else why))

/-- INJECT_INGRESS (R55, R206, R261, R387): an INJECT with target 1 reads its packet and sends it to the ingress dispatch queue of its pipe, to
the host-inject entry point. It completes when the packet is dispatched, or at once when the queue is full. -/
def execInjectIngress (ring : Nat) (s : State) : Out :=
  match s.injectNow ring 1 with
  | (none, s) => .next s
  | (some t, s) =>
    let k := s.injectPacket ring t
    let q := s.dispQ false k.pipe
    if t.f 24 2 = 0 then .next (s.finRefused ring dBAD_OPERAND)
    else if 4096 ≤ q.length then .next (s.finRefused ring dDISPATCH_FULL)
    else
      let (k, s) := s.orderEnter (inKey (256 + ring)) k
      .next ((s.setDispQ false k.pipe (q ++ [k])).updTaken ring (fun t => { t with waits := true, cursor := k.ord }))

end Sys2Proof.Machine
end

