-- ==== Sys2Proof/Machine/Power.lean ====
section
/-! DEFINITION. Temperatures, rails, adaptive voltage and the stress log (16_package_power.md, R633 to R646; 12_resilience.md, R533, R534). -/
namespace Sys2Proof.Machine

/-! ### Temperatures (R641, R642) -/

/-- The hottest of the sensors from `lo` on, 16 of them, in 0.125 °C. -/
def State.hottest (s : State) (lo : Nat) : Int :=
  ((List.range 16).map (fun i => signed 16 (s.rd (PWR_SENS.temp (lo + i))))).foldl max (signed 16 (s.rd (PWR_SENS.temp lo)))

/-- THERMAL_SAMPLE (R641): every 1 ms the 32 sensors are read, 0 to 15 of the FD, 16 to 31 of the TD. -/
def execThermalSample (temps : List Int) (s : State) : Out :=
  if temps.length ≠ 32 ∨ !s.elapsed s.pwr.sensAt (ms 1) then .next s
  else
    let s := (temps.zipIdx).foldl (fun t x => t.wr (PWR_SENS.temp x.2) (unsigned 16 x.1)) s
    let s := { s with pwr := { s.pwr with sensAt := s.clk } }
    let fd := s.hottest 0
    let td := s.hottest 16
    let s := (s.wr PWR_STAT.hot_fd_c (unsigned 8 (fd / 8))).wr PWR_STAT.hot_td_c (unsigned 8 (td / 8))
    let hot := max fd td
    let up : Int := (s.rd PWR_CFG.alert_c : Int) * 8
    let down : Int := ((s.rd PWR_CFG.alert_c : Int) - s.rd PWR_CFG.hyst_c) * 8
    let tell := fun (s : State) (d : Nat) => s.post 0x0F01 ([b2n (decide (fd < td)), d] ++ leBytes 2 (unsigned 16 hot))
    if !s.bit PWR_STAT.alert ∧ up ≤ hot then
      let s := (s.wr PWR_STAT.alert 1).inc PWR_ALERTCNT.count
      .next (tell { s with pwr := { s.pwr with bmcAlert := true } } 1)
    else if s.bit PWR_STAT.alert ∧ hot < down then .next (tell (s.wr PWR_STAT.alert 0) 0)
    else .next s

/-- THERMTRIP (R642): a sensor has read 115 °C or more for 10 µs (`temp` in 0.125 °C): THERMTRIP_N falls, the trip is recorded and the main
rails are removed until SYSRST_N next rises. -/
def execThermtrip (sensor temp : Nat) (s : State) : Out :=
  if 32 ≤ sensor ∨ temp < 920 ∨ 2 ^ 15 ≤ temp ∨ s.pwr.tripPin then .next s
  else
    let t := s.diesReset.railsDown (ms 10)
    .next { t with upd := { t.upd with trip := some (sensor, temp) }, pwr := { t.pwr with held := true, tripPin := true, restart := false } }

/-! ### Rails (R633, R645) -/

/-- Nominal voltage in mV and tolerance in percent of rail `k` in the order of *Rails*; the core rails 0 and 2 follow their AVS targets. -/
def railSpec (k : Nat) : Nat × Nat :=
  match k with
  | 1 => (750, 3) | 3 => (750, 3) | 4 => (900, 3) | 5 => (1200, 3) | 6 => (1050, 3) | 7 => (750, 3) | 8 => (1800, 5) | 9 => (1100, 3)
  | 10 => (1800, 5) | 11 => (800, 3) | 12 => (1800, 5) | 13 => (800, 3) | _ => (1800, 5)

/-- A reading lies above, or below, its tolerance. -/
def State.railHigh (s : State) (k mv : Nat) : Bool :=
  if k = 0 ∨ k = 2 then decide (s.rd (PWR_AVSTGT.mv (k / 2)) + 30 < mv) else decide ((railSpec k).1 * (100 + (railSpec k).2) < mv * 100)
def State.railLow (s : State) (k mv : Nat) : Bool :=
  if k = 0 ∨ k = 2 then decide (mv + 30 < s.rd (PWR_AVSTGT.mv (k / 2))) else decide (mv * 100 < (railSpec k).1 * (100 - (railSpec k).2))

/-- RAIL_SAMPLE (R645): rail `k` is read, once in each 1 ms. -/
def execRailSample (k mv : Nat) (s : State) : Out :=
  if 15 ≤ k ∨ 2 ^ 16 ≤ mv ∨ !s.elapsed (Tbl.get 0 s.pwr.railAt k) (ms 1) then .next s
  else
    let s := { s with pwr := { s.pwr with railAt := Tbl.set 0 s.pwr.railAt k s.clk } }
    let s := s.wr (PWR_RAIL.mv k) mv
    let hi := s.railHigh k mv
    let lo := s.railLow k mv
    if hi || lo then
      let s := if hi then s.wr (PWR_RAIL.high k) 1 else s.wr (PWR_RAIL.low k) 1
      .next ((s.inc PWR_RAILCNT.count).postRated 0x0F03 k (ms 1000) 1 (fun _ => [k, 0] ++ leBytes 2 mv))
    else .next s

/-! ### Adaptive voltage (R533, R635, R636) -/

/-- The steps of a die's core-rail request, FD 0 and TD 1, and a change of them, which MRAM keeps. -/
def avsSteps (d : Nat) : Fld := if d = 0 then SEAT_AVS.fd_steps else SEAT_AVS.td_steps
def State.setSteps (s : State) (d n : Nat) : State :=
  (s.wr (avsSteps d) n).putRec (fun r => { r with lifetime := Tbl.set 0 r.lifetime d n })

/-- The margin of a die is judged (R533): below target the request rises a step, and falls one after 24 h at 3 ps above it. A die at +40 mV
that stays below target for 60 s is reported once. -/
def State.avsJudge (s : State) (d : Nat) (margin : Int) (ack : Bool) : State :=
  let target : Int := s.rd SEAT_AVSCFG.target_ps
  let n := s.rd (avsSteps d)
  let since := fun (t : Tbl Nat) (on : Bool) => if !on then Tbl.erase t d else if Tbl.get 0 t d = 0 then Tbl.set 0 t d (s.clk + 1) else t
  let low := decide (margin < target)
  let s := { s with res := { s.res with avsHigh := since s.res.avsHigh (decide (target + 3 ≤ margin)),
                                        avsLow := since s.res.avsLow (low && n == 16) } }
  let high := Tbl.get 0 s.res.avsHigh d
  let stuck := Tbl.get 0 s.res.avsLow d
  if low ∧ n < 16 then (s.setSteps d (n + 1)).avsSend d ack
  else if high ≠ 0 ∧ n ≠ 0 ∧ s.elapsed (high - 1) (ms 86400000) then
    ({ s with res := { s.res with avsHigh := Tbl.set 0 s.res.avsHigh d (s.clk + 1) } }.setSteps d (n - 1)).avsSend d ack
  else if stuck ≠ 0 ∧ s.elapsed (stuck - 1) (ms 60000) ∧ !s.res.avsSaid.contains d then
    { s with res := { s.res with avsSaid := insNat d s.res.avsSaid } }.post 0x0C0D [d, unsigned 8 margin]
  else s

/-- AVS_MARGIN_CHECK (R533): each second the smallest margin of each die is read, as a signed byte; `ackFd` and `ackTd` say that a new request
is acknowledged. -/
def execAvsMarginCheck (fd td : Nat) (ackFd ackTd : Bool) (s : State) : Out :=
  if s.pwr.phase = 2 ∧ s.elapsed s.res.avsAt (ms 1000) then
    let s := { s with res := { s.res with avsAt := s.clk } }
    let s := (s.wr SEAT_AVS.fd_margin fd).wr SEAT_AVS.td_margin td
    .next ((s.avsJudge 0 (signed 8 (fd % 256)) ackFd).avsJudge 1 (signed 8 (td % 256)) ackTd)
  else .next s

/-- AVS_RETRY (R636): writes that were not acknowledged are sent again, once in each second. -/
def execAvsRetry (ackFd ackTd : Bool) (s : State) : Out :=
  if s.pwr.phase = 2 ∧ s.res.avsMiss ≠ [] ∧ s.elapsed s.res.avsTryAt (ms 1000) then
    let s := if Tbl.get 0 s.res.avsMiss 0 ≠ 0 then s.avsSend 0 ackFd else s
    .next (if Tbl.get 0 s.res.avsMiss 1 ≠ 0 then s.avsSend 1 ackTd else s)
  else .next s

/-! ### Stress log (R534) -/

/-- The bin of a junction temperature in 0.125 °C: at or below 85 °C, up to 105 °C, above. -/
def stressBin (t : Int) : Nat := if t ≤ 680 then 0 else if t ≤ 840 then 1 else 2

/-- The hours of a bin. -/
def stressHours (b : Nat) : Fld := match b with | 0 => SEAT_STRESS0.hours | 1 => SEAT_STRESS1.hours | _ => SEAT_STRESS2.hours

/-- The stress log as MRAM keeps it. -/
def State.keepStress (s : State) : State :=
  let v := [s.rd SEAT_STRESS0.hours, s.rd SEAT_STRESS1.hours, s.rd SEAT_STRESS2.hours, s.rd SEAT_TJAVG.avg, s.res.tjCount]
  s.putRec (fun r => { r with lifetime := (v.zipIdx).foldl (fun t x => Tbl.set 0 t (2 + x.2) x.1) r.lifetime })

/-- STRESS_SAMPLE (R534): each second the hotter die's junction temperature is taken into the stress log, which is written to MRAM once in each
hour. -/
def execStressSample (s : State) : Out :=
  if s.elapsed s.res.stressAt (ms 1000) then
    let t := max (s.hottest 0) (s.hottest 16)
    let b := stressBin t
    let r := s.res
    let n := Tbl.get 0 r.stressSec b + 1
    let sum := r.tjSum + t * 10 / 8
    let s := { s with res := { r with stressAt := s.clk, stressSec := Tbl.set 0 r.stressSec b (n % 3600), tjSum := sum, tjCount := r.tjCount + 1 } }
    let s := if n = 3600 then s.addSat (stressHours b) 1 else s
    let s := s.wr SEAT_TJAVG.avg (unsigned 16 (sum / s.res.tjCount))
    .next (if s.res.tjCount % 3600 = 0 then s.keepStress else s)
  else .next s

end Sys2Proof.Machine
end

