-- ==== Sys2Proof/Machine/Recovery.lean ====
section
/-! DEFINITION. Recovery mode's window in BAR4 (13_update.md, R571 to R573) and the check-value unit (R574, R575). -/
namespace Sys2Proof.Machine

/-! ### The recovery window (R572) -/

/-- Bytes written to the piece buffer from data offset 0. -/
def putPiece (t : Tbl Nat) (i : Nat) : List Nat → Tbl Nat
  | [] => t
  | b :: r => putPiece (if i < 983040 then Tbl.set 0 t i (b % 256) else t) (i + 1) r

/-- Bytes of the piece buffer. -/
def State.pieceBytes (s : State) (n : Nat) : List Nat := (List.range n).map (Tbl.get 0 s.upd.piece)

/-- The host writes data at data offset 0 and sets a cmd with go, which reads 1 until the cmd is done. -/
def State.window (s : State) (cmd : Nat) (data : List Nat) : State :=
  let s := { s with upd := { s.upd with piece := putPiece s.upd.piece 0 data } }
  (s.wr UPD_RCMD.cmd cmd).wr UPD_RCMD.go 0

/-- A failure shown in UPD_RSTAT. -/
def State.rstatFail (s : State) (reason : Nat) : State := (s.wr UPD_RSTAT.state 3).wr UPD_RSTAT.reason reason

/-- A session over the window is DOWNLOADING. -/
def State.windowRuns (s : State) : Bool := s.rd UPD_SESS.state == 1 && s.rd UPD_SESS.source == 0

/-- RECOVERY_START (R572): cmd START with go, after the header `data` at data offset 0. A delta is refused; while another session runs nothing
begins (R573). -/
def execRecoveryStart (data : List Nat) (flashErr : Bool) (s : State) : Out :=
  if !s.pwr.recovery then .next s
  else
    let s := s.window 1 data
    let h := s.pieceBytes 160
    if s.rd UPD_SESS.state ≠ 0 then .next s
    else
      let d := s.offerReason 0 h
      if d ≠ 0 then .next (s.rstatFail d)
      else if flashErr then .next ((s.inc UPD_NORERR.count).rstatFail 0x9A)
      else .next ((((s.openSession 0 h).wr UPD_RSTAT.state 1).wr UPD_RSTAT.reason 0).wr UPD_RPROG.bytes 0)

/-- RECOVERY_WRITE (R572): cmd WRITE with go, after a piece `data`, UPD_ROFF and UPD_RLEN. -/
def execRecoveryWrite (off len : Nat) (data : List Nat) (flashErr : Bool) (s : State) : Out :=
  if !s.pwr.recovery then .next s
  else
    let s := ((s.window 2 data).wr UPD_ROFF.offset off).wr UPD_RLEN.length len
    if !s.windowRuns then .next s
    else if off ≠ s.rd UPD_RPROG.bytes ∨ len = 0 ∨ 983040 < len ∨ hdrLength s.upd.header < off + len then .next (s.updEnd 0x97)
    else
      let s := s.storeBytes (s.pieceBytes len) flashErr
      .next (s.wr UPD_RPROG.bytes (s.rd UPD_PROG.bytes))

/-- RECOVERY_FINISH (R572): cmd FINISH with go verifies the image; when it passes the bank is sealed and confirmed, and DONE shows. -/
def execRecoveryFinish (flashErr : Bool) (s : State) : Out :=
  if !s.pwr.recovery then .next s
  else
    let s := s.window 3 []
    if s.windowRuns then .next ((s.wr UPD_SESS.state 2).verifyEnd flashErr) else .next s

/-- RECOVERY_BOOT (R572): cmd BOOT with go leaves recovery and boots as if RECOVERY_N were high and boot_fails were 0. -/
def execRecoveryBoot (s : State) : Out :=
  if !s.pwr.recovery then .next s
  else
    let s := s.window 4 []
    let s := if s.rd UPD_SESS.state = 0 then s else s.sessionIdle
    let s := s.chooseImage false 0
    if s.rd UPD_BOOT.booted = 3 then .next s
    else .next ((s.seatLoad false false).seatLoad true false)

/-- RECOVERY_DONE_EXPIRE (R572): DONE has shown for 10 ms, and a cold reset follows. -/
def execRecoveryDoneExpire (s : State) : Out :=
  if s.pwr.recovery ∧ s.rd UPD_RSTAT.state = 4 ∧ s.elapsed s.upd.doneAt (ms 10) then .next (s.cold 7) else .next s

/-! ### The check-value unit (R574, R575) -/

/-- CHK_JOB (R574, R575): a CRC over a host buffer, in bytes 8 to 15. -/
def execChkJob (s : State) : Out :=
  match s.running 0x50 with
  | none => .next s
  | some (r, t) =>
    let poly := t.f 16 1
    let len := t.f 20 4
    if 3 < poly ∨ 2 ^ 24 < len then .next (s.finRefused r dBAD_OPERAND)
    else if s.bit CHK_STAT.busy ∧ !t.waits then .next ((s.inc CHK_BUSYCNT.count).finBusy r dIN_USE)
    else if !s.dmaOk then
      .next (((s.wr CHK_STAT.busy 1).wr CHK_STAT.owner 1).updTaken r (fun t => { t with waits := true }))
    else
      let v := crcBy poly (t.f 32 8) (s.dmaRead (t.f 24 8) len)
      .next ((((s.wr CHK_STAT.busy 0).wr CHK_STAT.owner 0).inc CHK_JOBCNT.count).finData r 0 (leBytes 8 v))

end Sys2Proof.Machine
end

