-- ==== Sys2Proof/Machine/Dispatch.lean ====
section
/-! DEFINITION. What a command does: one arm per row of the opcode table. -/
namespace Sys2Proof.Machine

def exec (i : Instr) (s : State) : Host.Outcome State Fault Refusal :=
  match i with
  | .bar0RegisterWrite addr size v => Sys2Proof.Machine.execBar0RegisterWrite addr size v s
  | .pairLowWordRead bmc addr size => Sys2Proof.Machine.execPairLowWordRead bmc addr size s
  | .pairHighWordRead bmc addr => Sys2Proof.Machine.execPairHighWordRead bmc addr s
  | .rcFieldRead addr => Sys2Proof.Machine.execRcFieldRead addr s
  | .tslast0Read port => Sys2Proof.Machine.execTslast0Read port s
  | .timNow0Read => Sys2Proof.Machine.execTimNow0Read s
  | .ppscap0Read => Sys2Proof.Machine.execPpscap0Read s
  | .pwrStatBmcRead => Sys2Proof.Machine.execPwrStatBmcRead s
  | .genSeal v => Sys2Proof.Machine.execGenSeal v s
  | .frameReceive p frame start lost bad cor unc sym => Sys2Proof.Machine.execFrameReceive p frame start lost bad cor unc sym s
  | .pfcFrameReceive p vector times => Sys2Proof.Machine.execPfcFrameReceive p vector times s
  | .pauseFrameReceive p time => Sys2Proof.Machine.execPauseFrameReceive p time s
  | .pauseExpire p cls => Sys2Proof.Machine.execPauseExpire p cls s
  | .flitReceive ft seq badLane => Sys2Proof.Machine.execFlitReceive ft seq badLane s
  | .flitAck ft seq => Sys2Proof.Machine.execFlitAck ft seq s
  | .controlShareWindow => Sys2Proof.Machine.execControlShareWindow s
  | .bridgeLaneLockLoss ft m lane => Sys2Proof.Machine.execBridgeLaneLockLoss ft m lane s
  | .moduleRepairDone m ok => Sys2Proof.Machine.execModuleRepairDone m ok s
  | .moduleTrainingDone m ok => Sys2Proof.Machine.execModuleTrainingDone m ok s
  | .sidebandHeartbeatSend fd => Sys2Proof.Machine.execSidebandHeartbeatSend fd s
  | .sidebandMessageReceive fd ok => Sys2Proof.Machine.execSidebandMessageReceive fd ok s
  | .sidebandLost => Sys2Proof.Machine.execSidebandLost s
  | .sidebandRestored => Sys2Proof.Machine.execSidebandRestored s
  | .auxFeedOutOfRange b => Sys2Proof.Machine.execAuxFeedOutOfRange b s
  | .auxFeedsLost torn => Sys2Proof.Machine.execAuxFeedsLost torn s
  | .timeSyncUpdate => Sys2Proof.Machine.execTimeSyncUpdate s
  | .plyDispatch pipe egress upsets => Sys2Proof.Machine.execPlyDispatch pipe egress upsets s
  | .ingressDispatchEnqueue pipe => Sys2Proof.Machine.execIngressDispatchEnqueue pipe s
  | .egressDispatchEnqueue pipe => Sys2Proof.Machine.execEgressDispatchEnqueue pipe s
  | .nop ply => Sys2Proof.Machine.execNop ply s
  | .add ply => Sys2Proof.Machine.execAdd ply s
  | .sub ply => Sys2Proof.Machine.execSub ply s
  | .and ply => Sys2Proof.Machine.execAnd ply s
  | .or ply => Sys2Proof.Machine.execOr ply s
  | .xor ply => Sys2Proof.Machine.execXor ply s
  | .andn ply => Sys2Proof.Machine.execAndn ply s
  | .mov ply => Sys2Proof.Machine.execMov ply s
  | .minu ply => Sys2Proof.Machine.execMinu ply s
  | .maxu ply => Sys2Proof.Machine.execMaxu ply s
  | .mul ply => Sys2Proof.Machine.execMul ply s
  | .clz ply => Sys2Proof.Machine.execClz ply s
  | .popc ply => Sys2Proof.Machine.execPopc ply s
  | .bswap ply => Sys2Proof.Machine.execBswap ply s
  | .shl ply => Sys2Proof.Machine.execShl ply s
  | .shr ply => Sys2Proof.Machine.execShr ply s
  | .sar ply => Sys2Proof.Machine.execSar ply s
  | .rol ply => Sys2Proof.Machine.execRol ply s
  | .extu ply => Sys2Proof.Machine.execExtu ply s
  | .exts ply => Sys2Proof.Machine.execExts ply s
  | .ins ply => Sys2Proof.Machine.execIns ply s
  | .hmix ply => Sys2Proof.Machine.execHmix ply s
  | .ceq ply => Sys2Proof.Machine.execCeq ply s
  | .cne ply => Sys2Proof.Machine.execCne ply s
  | .cltu ply => Sys2Proof.Machine.execCltu ply s
  | .cleu ply => Sys2Proof.Machine.execCleu ply s
  | .clts ply => Sys2Proof.Machine.execClts ply s
  | .cles ply => Sys2Proof.Machine.execCles ply s
  | .cbit ply => Sys2Proof.Machine.execCbit ply s
  | .pand ply => Sys2Proof.Machine.execPand ply s
  | .por ply => Sys2Proof.Machine.execPor ply s
  | .pxor ply => Sys2Proof.Machine.execPxor ply s
  | .ld8u ply => Sys2Proof.Machine.execLd8u ply s
  | .ld16u ply => Sys2Proof.Machine.execLd16u ply s
  | .ld32u ply => Sys2Proof.Machine.execLd32u ply s
  | .ld64 ply => Sys2Proof.Machine.execLd64 ply s
  | .st8 ply => Sys2Proof.Machine.execSt8 ply s
  | .st16 ply => Sys2Proof.Machine.execSt16 ply s
  | .st32 ply => Sys2Proof.Machine.execSt32 ply s
  | .st64 ply => Sys2Proof.Machine.execSt64 ply s
  | .aadd ply => Sys2Proof.Machine.execAadd ply s
  | .aswp ply => Sys2Proof.Machine.execAswp ply s
  | .acas ply => Sys2Proof.Machine.execAcas ply s
  | .amaxu ply => Sys2Proof.Machine.execAmaxu ply s
  | .br ply => Sys2Proof.Machine.execBr ply s
  | .brr ply => Sys2Proof.Machine.execBrr ply s
  | .calls ply => Sys2Proof.Machine.execCalls ply s
  | .ret ply => Sys2Proof.Machine.execRet ply s
  | .call ply => Sys2Proof.Machine.execCall ply s
  | .calln ply => Sys2Proof.Machine.execCalln ply s
  | .wait ply => Sys2Proof.Machine.execWait ply s
  | .post ply => Sys2Proof.Machine.execPost ply s
  | .done ply => Sys2Proof.Machine.execDone ply s
  | .drop ply => Sys2Proof.Machine.execDrop ply s
  | .trap ply => Sys2Proof.Machine.execTrap ply s
  | .recycle ply => Sys2Proof.Machine.execRecycle ply s
  | .callResultWritten call => Sys2Proof.Machine.execCallResultWritten call s
  | .contextWatchdog ply => Sys2Proof.Machine.execContextWatchdog ply s
  | .engClroleWrite c role => Sys2Proof.Machine.execEngClroleWrite c role s
  | .roleDrainEnd c => Sys2Proof.Machine.execRoleDrainEnd c s
  | .engFlipRequest c => Sys2Proof.Machine.execEngFlipRequest c s
  | .bankDrainEnd c => Sys2Proof.Machine.execBankDrainEnd c s
  | .engCntclr c => Sys2Proof.Machine.execEngCntclr c s
  | .promotionDone c slot => Sys2Proof.Machine.execPromotionDone c slot s
  | .spareBackgroundTest c pass => Sys2Proof.Machine.execSpareBackgroundTest c pass s
  | .fibLookup call upsets => Sys2Proof.Machine.execFibLookup call upsets s
  | .tailDescent pipe upsets => Sys2Proof.Machine.execTailDescent pipe upsets s
  | .emLookup call upsets => Sys2Proof.Machine.execEmLookup call upsets s
  | .terLookup call upsets => Sys2Proof.Machine.execTerLookup call upsets s
  | .polUpdate call upsets => Sys2Proof.Machine.execPolUpdate call upsets s
  | .cntPost call => Sys2Proof.Machine.execCntPost call s
  | .adjRead call upsets => Sys2Proof.Machine.execAdjRead call upsets s
  | .brgLookup call upsets => Sys2Proof.Machine.execBrgLookup call upsets s
  | .noticeBatchHoldExpire pipe => Sys2Proof.Machine.execNoticeBatchHoldExpire pipe s
  | .sweepVisit pipe => Sys2Proof.Machine.execSweepVisit pipe s
  | .brgEnableWrite v => Sys2Proof.Machine.execBrgEnableWrite v s
  | .agePeriodWrite period => Sys2Proof.Machine.execAgePeriodWrite period s
  | .hotPeriodEnd => Sys2Proof.Machine.execHotPeriodEnd s
  | .hotCopyDone root => Sys2Proof.Machine.execHotCopyDone root s
  | .xfibEnable => Sys2Proof.Machine.execXfibEnable s
  | .xfibDisable => Sys2Proof.Machine.execXfibDisable s
  | .xfibDisableDone => Sys2Proof.Machine.execXfibDisableDone s
  | .hotUnitsWrite units => Sys2Proof.Machine.execHotUnitsWrite units s
  | .hotUnitsMoveDone => Sys2Proof.Machine.execHotUnitsMoveDone s
  | .emTableEnable t v => Sys2Proof.Machine.execEmTableEnable t v s
  | .emTableDisable t v => Sys2Proof.Machine.execEmTableDisable t v s
  | .emClearDone buckets => Sys2Proof.Machine.execEmClearDone buckets s
  | .adjRetireExpire index => Sys2Proof.Machine.execAdjRetireExpire index s
  | .tableScrub table index upsets sram => Sys2Proof.Machine.execTableScrub table index upsets sram s
  | .parserFlipComplete => Sys2Proof.Machine.execParserFlipComplete s
  | .packetAdmit w => Sys2Proof.Machine.execPacketAdmit w s
  | .chainLink w => Sys2Proof.Machine.execChainLink w s
  | .chainRelease ptr gen unit => Sys2Proof.Machine.execChainRelease ptr gen unit s
  | .pfcRepeat p cls => Sys2Proof.Machine.execPfcRepeat p cls s
  | .prefetchStart => Sys2Proof.Machine.execPrefetchStart s
  | .evictionStart => Sys2Proof.Machine.execEvictionStart s
  | .moveSwap src ecc => Sys2Proof.Machine.execMoveSwap src ecc s
  | .bufferAudit => Sys2Proof.Machine.execBufferAudit s
  | .evacDone unit => Sys2Proof.Machine.execEvacDone unit s
  | .bufferEnableWrite v => Sys2Proof.Machine.execBufferEnableWrite v s
  | .reserveEnableWrite v => Sys2Proof.Machine.execReserveEnableWrite v s
  | .xbarSlot => Sys2Proof.Machine.execXbarSlot s
  | .grantReceive msg => Sys2Proof.Machine.execGrantReceive msg s
  | .requestReceive msg => Sys2Proof.Machine.execRequestReceive msg s
  | .emptyReceive msg => Sys2Proof.Machine.execEmptyReceive msg s
  | .creditStaleRequest v => Sys2Proof.Machine.execCreditStaleRequest v s
  | .creditLostFlush v => Sys2Proof.Machine.execCreditLostFlush v s
  | .creditEarn d => Sys2Proof.Machine.execCreditEarn d s
  | .flowResync dev voq => Sys2Proof.Machine.execFlowResync dev voq s
  | .fabricSchedule ecc => Sys2Proof.Machine.execFabricSchedule ecc s
  | .bucketTxqEmpty dev b => Sys2Proof.Machine.execBucketTxqEmpty dev b s
  | .fabricDelayExpire dev b => Sys2Proof.Machine.execFabricDelayExpire dev b s
  | .linkDrain l => Sys2Proof.Machine.execLinkDrain l s
  | .linkRestore l => Sys2Proof.Machine.execLinkRestore l s
  | .unreachExpire dev => Sys2Proof.Machine.execUnreachExpire dev s
  | .portHoldExpire p => Sys2Proof.Machine.execPortHoldExpire p s
  | .qmTcmdWrite => Sys2Proof.Machine.execQmTcmdWrite s
  | .qmTcmdRead => Sys2Proof.Machine.execQmTcmdRead s
  | .egressSelect ecc => Sys2Proof.Machine.execEgressSelect ecc s
  | .schNodeWrite => Sys2Proof.Machine.execSchNodeWrite s
  | .schNodeRead => Sys2Proof.Machine.execSchNodeRead s
  | .nz5RefillBoundary => Sys2Proof.Machine.execNz5RefillBoundary s
  | .policerWrite => Sys2Proof.Machine.execPolicerWrite s
  | .policerRead => Sys2Proof.Machine.execPolicerRead s
  | .tgActivate p => Sys2Proof.Machine.execTgActivate p s
  | .tgCancel p => Sys2Proof.Machine.execTgCancel p s
  | .tgDisable p => Sys2Proof.Machine.execTgDisable p s
  | .tgListStart p => Sys2Proof.Machine.execTgListStart p s
  | .tgGateChange p => Sys2Proof.Machine.execTgGateChange p s
  | .tgSchedulerGate p => Sys2Proof.Machine.execTgSchedulerGate p s
  | .tgEntryWrite p => Sys2Proof.Machine.execTgEntryWrite p s
  | .tgEntryRead p => Sys2Proof.Machine.execTgEntryRead p s
  | .pcieLinkTrained gen width flit => Sys2Proof.Machine.execPcieLinkTrained gen width flit s
  | .pcieLinkDown d3 => Sys2Proof.Machine.execPcieLinkDown d3 s
  | .doorbell slot off size read value => Sys2Proof.Machine.execDoorbell slot off size read value s
  | .rctlStart => Sys2Proof.Machine.execRctlStart s
  | .rctlStop => Sys2Proof.Machine.execRctlStop s
  | .rctlInvalidate => Sys2Proof.Machine.execRctlInvalidate s
  | .descriptorFetch ring ok => Sys2Proof.Machine.execDescriptorFetch ring ok s
  | .descriptorTake => Sys2Proof.Machine.execDescriptorTake s
  | .ringWriteback ring => Sys2Proof.Machine.execRingWriteback ring s
  | .ttlExpire ring => Sys2Proof.Machine.execTtlExpire ring s
  | .descNoProgress ring => Sys2Proof.Machine.execDescNoProgress ring s
  | .ringStall ring => Sys2Proof.Machine.execRingStall ring s
  | .dmaTimeout ring addr error => Sys2Proof.Machine.execDmaTimeout ring addr error s
  | .translationFault ring addr => Sys2Proof.Machine.execTranslationFault ring addr s
  | .pageResponse ring success => Sys2Proof.Machine.execPageResponse ring success s
  | .parkTimeout ring => Sys2Proof.Machine.execParkTimeout ring s
  | .puntWrite cls => Sys2Proof.Machine.execPuntWrite cls s
  | .eventWrite ring => Sys2Proof.Machine.execEventWrite ring s
  | .msixMessage v => Sys2Proof.Machine.execMsixMessage v s
  | .nopDescriptor ring => Sys2Proof.Machine.execNopDescriptor ring s
  | .regWrite => Sys2Proof.Machine.execRegWrite s
  | .regRead => Sys2Proof.Machine.execRegRead s
  | .regBulk n => Sys2Proof.Machine.execRegBulk n s
  | .ringStart => Sys2Proof.Machine.execRingStart s
  | .ringStop => Sys2Proof.Machine.execRingStop s
  | .rctInvalidate => Sys2Proof.Machine.execRctInvalidate s
  | .fibInsert => Sys2Proof.Machine.execFibInsert s
  | .fibDelete => Sys2Proof.Machine.execFibDelete s
  | .fibBulk n => Sys2Proof.Machine.execFibBulk n s
  | .fibDump n => Sys2Proof.Machine.execFibDump n s
  | .emInsert => Sys2Proof.Machine.execEmInsert s
  | .emDelete => Sys2Proof.Machine.execEmDelete s
  | .emBulk n => Sys2Proof.Machine.execEmBulk n s
  | .emDump n => Sys2Proof.Machine.execEmDump n s
  | .terWrite => Sys2Proof.Machine.execTerWrite s
  | .terDelete => Sys2Proof.Machine.execTerDelete s
  | .adjWrite => Sys2Proof.Machine.execAdjWrite s
  | .adjDelete => Sys2Proof.Machine.execAdjDelete s
  | .parserLoad n => Sys2Proof.Machine.execParserLoad n s
  | .parserFlip => Sys2Proof.Machine.execParserFlip s
  | .tableRead => Sys2Proof.Machine.execTableRead s
  | .engLoad n => Sys2Proof.Machine.execEngLoad n s
  | .engFlip => Sys2Proof.Machine.execEngFlip s
  | .pdataWrite n => Sys2Proof.Machine.execPdataWrite n s
  | .pdataRead n => Sys2Proof.Machine.execPdataRead n s
  | .indWrite => Sys2Proof.Machine.execIndWrite s
  | .indRead => Sys2Proof.Machine.execIndRead s
  | .indBulk n => Sys2Proof.Machine.execIndBulk n s
  | .queueFlush => Sys2Proof.Machine.execQueueFlush s
  | .cntRead n bad => Sys2Proof.Machine.execCntRead n bad s
  | .updOffer flashErr => Sys2Proof.Machine.execUpdOffer flashErr s
  | .updBlock n flashErr => Sys2Proof.Machine.execUpdBlock n flashErr s
  | .updVerify => Sys2Proof.Machine.execUpdVerify s
  | .updActivate => Sys2Proof.Machine.execUpdActivate s
  | .updConfirm => Sys2Proof.Machine.execUpdConfirm s
  | .updAbort => Sys2Proof.Machine.execUpdAbort s
  | .chkJob => Sys2Proof.Machine.execChkJob s
  | .selftest => Sys2Proof.Machine.execSelftest s
  | .blockReset => Sys2Proof.Machine.execBlockReset s
  | .repairClusterSram => Sys2Proof.Machine.execRepairClusterSram s
  | .repairPcRetire => Sys2Proof.Machine.execRepairPcRetire s
  | .repairHbmLane => Sys2Proof.Machine.execRepairHbmLane s
  | .repairLinkRetire => Sys2Proof.Machine.execRepairLinkRetire s
  | .repairLinkReturn => Sys2Proof.Machine.execRepairLinkReturn s
  | .repairDdrEvacuate => Sys2Proof.Machine.execRepairDdrEvacuate s
  | .repairDdrReturn => Sys2Proof.Machine.execRepairDdrReturn s
  | .seatRestart => Sys2Proof.Machine.execSeatRestart s
  | .resignClear => Sys2Proof.Machine.execResignClear s
  | .bridgeRetrain => Sys2Proof.Machine.execBridgeRetrain s
  | .injectEgress ring => Sys2Proof.Machine.execInjectEgress ring s
  | .injectIngress ring => Sys2Proof.Machine.execInjectIngress ring s
  | .puntBuf ring => Sys2Proof.Machine.execPuntBuf ring s
  | .memoryTrainingDone g fail nibble kind ranks cap rates bad sweeps => Sys2Proof.Machine.execMemoryTrainingDone g fail nibble kind ranks cap rates bad sweeps s
  | .mcdRoleWrite ch v => Sys2Proof.Machine.execMcdRoleWrite ch v s
  | .recentre u n edges sweep lane => Sys2Proof.Machine.execRecentre u n edges sweep lane s
  | .memoryRequest u k write rank bank row col data => Sys2Proof.Machine.execMemoryRequest u k write rank bank row col data s
  | .memoryCommandIssue u err lane => Sys2Proof.Machine.execMemoryCommandIssue u err lane s
  | .refreshDue u rank => Sys2Proof.Machine.execRefreshDue u rank s
  | .memoryTempRead g ok t0 t1 => Sys2Proof.Machine.execMemoryTempRead g ok t0 t1 s
  | .activateTableClear => Sys2Proof.Machine.execActivateTableClear s
  | .patrolScrub u => Sys2Proof.Machine.execPatrolScrub u s
  | .laneRepairDone pc => Sys2Proof.Machine.execLaneRepairDone pc s
  | .pcRetireDone pc => Sys2Proof.Machine.execPcRetireDone pc s
  | .channelEvacuated ch => Sys2Proof.Machine.execChannelEvacuated ch s
  | .rankPowerDown ch rank => Sys2Proof.Machine.execRankPowerDown ch rank s
  | .selfRefreshEntry ch => Sys2Proof.Machine.execSelfRefreshEntry ch s
  | .portEnable p v => Sys2Proof.Machine.execPortEnable p v s
  | .portDisable p v => Sys2Proof.Machine.execPortDisable p v s
  | .bringupStepComplete p temp got order => Sys2Proof.Machine.execBringupStepComplete p temp got order s
  | .bringupTimeout p late => Sys2Proof.Machine.execBringupTimeout p late s
  | .polaritySearchSwitch ln => Sys2Proof.Machine.execPolaritySearchSwitch ln s
  | .laneMarker f seen inv dist lane laneN cw seq bip eye => Sys2Proof.Machine.execLaneMarker f seen inv dist lane laneN cw seq bip eye s
  | .lossOfSignalSet ln mv temp => Sys2Proof.Machine.execLossOfSignalSet ln mv temp s
  | .lossOfSignalClear ln mv temp => Sys2Proof.Machine.execLossOfSignalClear ln mv temp s
  | .lossOfLockSet ln lock ppm temp => Sys2Proof.Machine.execLossOfLockSet ln lock ppm temp s
  | .lossOfLockClear ln temp => Sys2Proof.Machine.execLossOfLockClear ln temp s
  | .laneStateRequest ln v errs => Sys2Proof.Machine.execLaneStateRequest ln v errs s
  | .faultPendingExpire p => Sys2Proof.Machine.execFaultPendingExpire p s
  | .upDebounceExpire p => Sys2Proof.Machine.execUpDebounceExpire p s
  | .frameTransmit p cls => Sys2Proof.Machine.execFrameTransmit p cls s
  | .linkEnable l v => Sys2Proof.Machine.execLinkEnable l v s
  | .linkDisable l v => Sys2Proof.Machine.execLinkDisable l v s
  | .linkStandby l on => Sys2Proof.Machine.execLinkStandby l on s
  | .fabricFrameReceive l raw bip cor unc => Sys2Proof.Machine.execFabricFrameReceive l raw bip cor unc s
  | .fabricCellReceive l cell lost => Sys2Proof.Machine.execFabricCellReceive l cell lost s
  | .fabricFrameTransmit l => Sys2Proof.Machine.execFabricFrameTransmit l s
  | .defectDeclare l d => Sys2Proof.Machine.execDefectDeclare l d s
  | .defectClear l d => Sys2Proof.Machine.execDefectClear l d s
  | .secondTick => Sys2Proof.Machine.execSecondTick s
  | .seatOutput b epoch seq value power => Sys2Proof.Machine.execSeatOutput b epoch seq value power s
  | .seatEvidence b kind => Sys2Proof.Machine.execSeatEvidence b kind s
  | .selfcheckDone a b => Sys2Proof.Machine.execSelfcheckDone a b s
  | .checkpointCommit full copied agree => Sys2Proof.Machine.execCheckpointCommit full copied agree s
  | .rollbackDone => Sys2Proof.Machine.execRollbackDone s
  | .seatHeartbeatSend b heard => Sys2Proof.Machine.execSeatHeartbeatSend b heard s
  | .seatHeartbeatLoss b => Sys2Proof.Machine.execSeatHeartbeatLoss b s
  | .detachedReturn b => Sys2Proof.Machine.execDetachedReturn b s
  | .seatWedge => Sys2Proof.Machine.execSeatWedge s
  | .seatFeedReturn b => Sys2Proof.Machine.execSeatFeedReturn b s
  | .seatBootDone b ok => Sys2Proof.Machine.execSeatBootDone b ok s
  | .resignClearTestDone serial pass => Sys2Proof.Machine.execResignClearTestDone serial pass s
  | .engineWatchdog c slot => Sys2Proof.Machine.execEngineWatchdog c slot s
  | .clusterWatchdog c => Sys2Proof.Machine.execClusterWatchdog c s
  | .bridgeKeepaliveSend ft m => Sys2Proof.Machine.execBridgeKeepaliveSend ft m s
  | .bridgeKeepaliveExpire td => Sys2Proof.Machine.execBridgeKeepaliveExpire td s
  | .voqHoldExpire => Sys2Proof.Machine.execVoqHoldExpire s
  | .autoRejoin => Sys2Proof.Machine.execAutoRejoin s
  | .d2dRetrain m => Sys2Proof.Machine.execD2dRetrain m s
  | .rejoinStepComplete => Sys2Proof.Machine.execRejoinStepComplete s
  | .clusterRepairStepDone rows spares bad slot => Sys2Proof.Machine.execClusterRepairStepDone rows spares bad slot s
  | .avsMarginCheck fd td ackFd ackTd => Sys2Proof.Machine.execAvsMarginCheck fd td ackFd ackTd s
  | .stressSample => Sys2Proof.Machine.execStressSample s
  | .chainOffer b m flashErr => Sys2Proof.Machine.execChainOffer b m flashErr s
  | .chainAccept b m => Sys2Proof.Machine.execChainAccept b m s
  | .chainBusy b m => Sys2Proof.Machine.execChainBusy b m s
  | .chainRefuse b m => Sys2Proof.Machine.execChainRefuse b m s
  | .chainBlock b m flashErr => Sys2Proof.Machine.execChainBlock b m flashErr s
  | .chainAck b m => Sys2Proof.Machine.execChainAck b m s
  | .chainAbort b m => Sys2Proof.Machine.execChainAbort b m s
  | .chainHello b m => Sys2Proof.Machine.execChainHello b m s
  | .chainHelloSend b => Sys2Proof.Machine.execChainHelloSend b s
  | .chainPortDown b => Sys2Proof.Machine.execChainPortDown b s
  | .chainRetransmit b => Sys2Proof.Machine.execChainRetransmit b s
  | .chainForwardTimeout b => Sys2Proof.Machine.execChainForwardTimeout b s
  | .sessionIdleExpire => Sys2Proof.Machine.execSessionIdleExpire s
  | .verifiedHoldExpire => Sys2Proof.Machine.execVerifiedHoldExpire s
  | .verificationDone flashErr => Sys2Proof.Machine.execVerificationDone flashErr s
  | .castlingStepComplete ok => Sys2Proof.Machine.execCastlingStepComplete ok s
  | .trialExpire => Sys2Proof.Machine.execTrialExpire s
  | .recoveryStart data flashErr => Sys2Proof.Machine.execRecoveryStart data flashErr s
  | .recoveryWrite off len data flashErr => Sys2Proof.Machine.execRecoveryWrite off len data flashErr s
  | .recoveryFinish flashErr => Sys2Proof.Machine.execRecoveryFinish flashErr s
  | .recoveryBoot => Sys2Proof.Machine.execRecoveryBoot s
  | .recoveryDoneExpire => Sys2Proof.Machine.execRecoveryDoneExpire s
  | .sysrstAssert => Sys2Proof.Machine.execSysrstAssert s
  | .sysrstRelease recovery quad sris test => Sys2Proof.Machine.execSysrstRelease recovery quad sris test s
  | .powerSequenceStart => Sys2Proof.Machine.execPowerSequenceStart s
  | .pseqEnableNext => Sys2Proof.Machine.execPseqEnableNext s
  | .pseqPgTimeout => Sys2Proof.Machine.execPseqPgTimeout s
  | .powerGoodFall g => Sys2Proof.Machine.execPowerGoodFall g s
  | .powerFaultRestart => Sys2Proof.Machine.execPowerFaultRestart s
  | .railDownNext => Sys2Proof.Machine.execRailDownNext s
  | .perstAssert => Sys2Proof.Machine.execPerstAssert s
  | .resetArm => Sys2Proof.Machine.execResetArm s
  | .coldResetRequest => Sys2Proof.Machine.execColdResetRequest s
  | .warmResetRequest => Sys2Proof.Machine.execWarmResetRequest s
  | .bootStepComplete aOk bOk bad => Sys2Proof.Machine.execBootStepComplete aOk bOk bad s
  | .bootStepTimeout => Sys2Proof.Machine.execBootStepTimeout s
  | .selftestDone kind pass detail rows => Sys2Proof.Machine.execSelftestDone kind pass detail rows s
  | .auxclkLoss => Sys2Proof.Machine.execAuxclkLoss s
  | .timeStep => Sys2Proof.Machine.execTimeStep s
  | .timeOffset => Sys2Proof.Machine.execTimeOffset s
  | .slewDone => Sys2Proof.Machine.execSlewDone s
  | .timFreqWrite v => Sys2Proof.Machine.execTimFreqWrite v s
  | .ppsEdge wide => Sys2Proof.Machine.execPpsEdge wide s
  | .todMessage msg => Sys2Proof.Machine.execTodMessage msg s
  | .servoHoldover => Sys2Proof.Machine.execServoHoldover s
  | .counterWriteback fd pair poison => Sys2Proof.Machine.execCounterWriteback fd pair poison s
  | .segmentHomeWrite seg home => Sys2Proof.Machine.execSegmentHomeWrite seg home s
  | .segmentMoveDone seg => Sys2Proof.Machine.execSegmentMoveDone seg s
  | .telSessionWrite => Sys2Proof.Machine.execTelSessionWrite s
  | .telSessionRead => Sys2Proof.Machine.execTelSessionRead s
  | .thermalSample temps => Sys2Proof.Machine.execThermalSample temps s
  | .thermtrip sensor temp => Sys2Proof.Machine.execThermtrip sensor temp s
  | .railSample k mv => Sys2Proof.Machine.execRailSample k mv s
  | .avsRetry ackFd ackTd => Sys2Proof.Machine.execAvsRetry ackFd ackTd s
  | .busMasteringRestored enables alloc => Sys2Proof.Machine.execBusMasteringRestored enables alloc s
  | .lossOfBlockLock p => Sys2Proof.Machine.execLossOfBlockLock p s
  | .blockLockRegained p => Sys2Proof.Machine.execBlockLockRegained p s
  | .faultSequenceReceive p isLocal on => Sys2Proof.Machine.execFaultSequenceReceive p isLocal on s
  | .auxclkReturn => Sys2Proof.Machine.execAuxclkReturn s
  | .sidebandRetrain => Sys2Proof.Machine.execSidebandRetrain s
  | .clusterResetDone c => Sys2Proof.Machine.execClusterResetDone c s
  | .blockResetDone base => Sys2Proof.Machine.execBlockResetDone base s

end Sys2Proof.Machine
end

