-- ==== Sys2Proof/Safety.lean ====
section
/-! DEFINITION. What counts as a sound state and a safe run, in the terms that the claims use. -/
namespace Sys2Proof.Machine

/-- The register table lists its keys in rising order, so that each field has one value. -/
def State.regsOk (s : State) : Bool := Tbl.risingFrom 0 s.regs

/-- Host memory is in its canonical form. -/
def State.memOk (s : State) : Bool := Memory.wf s.hostMem

/-- Network time is in its normal form: fewer than 10^9 nanoseconds and a fraction below one nanosecond (R600). -/
def State.timeOk (s : State) : Bool := decide (s.tim.ns < 10 ^ 9) && decide (s.tim.frac < fracNs)

/-- A sound state: what every command keeps. -/
def State.ok (s : State) : Bool := s.regsOk && s.memOk && s.timeOk

/-- A command that is carried out: the device goes on. -/
def completes (c : Instr) (exec : Instr → State → Host.Outcome State Fault Refusal) (s : State) : Prop := ∃ t, exec c s = .next t

end Sys2Proof.Machine
end

