-- ==== Sys2Proof/WellFormed.lean ====
section
/-! DEFINITION. When a command is well formed: each operand that names a unit, a ring, a register word or bytes lies in the range that the spec
gives it. Operands that carry what the outside world answers (a margin, an error position, a handle) have no range of their own. The meanings
are total all the same: a command outside these ranges changes nothing that the spec names. -/
namespace Sys2Proof

/-- A list of bytes. -/
def areBytes (l : List Nat) : Bool := l.all (· < 256)

/-- Errors named at words of the tables that LKP_ECC_UNCORR numbers. -/
def upsetsOk (l : List (Nat × Nat × Bool)) : Bool := l.all (fun x => decide (x.1 ≤ 6))

/-- A command whose operands lie in their ranges. -/
def Instr.wellFormed (i : Instr) : Bool :=
  match i with
  | .bar0RegisterWrite addr _ v => decide (addr < 2 ^ 24) && decide (v < 2 ^ 64)
  | .pairLowWordRead _ addr _ => decide (addr < 2 ^ 24)
  | .pairHighWordRead _ addr => decide (addr < 2 ^ 24)
  | .rcFieldRead addr => decide (addr < 2 ^ 24)
  | .tslast0Read port => decide (port < 128)
  | .timNow0Read => true
  | .ppscap0Read => true
  | .pwrStatBmcRead => true
  | .genSeal v => decide (v < 2 ^ 32)
  | .frameReceive p frame _ _ _ _ _ _ => decide (p < 128) && areBytes frame
  | .pfcFrameReceive p vector times => decide (p < 128) && decide (vector < 256) && times.all (· < 65536)
  | .pauseFrameReceive p time => decide (p < 128) && decide (time < 65536)
  | .pauseExpire p cls => decide (p < 128) && decide (cls < 8)
  | .flitReceive _ seq _ => decide (seq < 2 ^ 32)
  | .flitAck _ seq => decide (seq < 2 ^ 32)
  | .controlShareWindow => true
  | .bridgeLaneLockLoss _ m lane => decide (m < 24) && decide (lane < 68)
  | .moduleRepairDone m _ => decide (m < 24)
  | .moduleTrainingDone m _ => decide (m < 24)
  | .sidebandHeartbeatSend _ => true
  | .sidebandMessageReceive _ _ => true
  | .sidebandLost => true
  | .sidebandRestored => true
  | .auxFeedOutOfRange _ => true
  | .auxFeedsLost _ => true
  | .timeSyncUpdate => true
  | .plyDispatch pipe _ _ => decide (pipe < 4)
  | .ingressDispatchEnqueue pipe => decide (pipe < 4)
  | .egressDispatchEnqueue pipe => decide (pipe < 4)
  | .nop _ => true
  | .add _ => true
  | .sub _ => true
  | .and _ => true
  | .or _ => true
  | .xor _ => true
  | .andn _ => true
  | .mov _ => true
  | .minu _ => true
  | .maxu _ => true
  | .mul _ => true
  | .clz _ => true
  | .popc _ => true
  | .bswap _ => true
  | .shl _ => true
  | .shr _ => true
  | .sar _ => true
  | .rol _ => true
  | .extu _ => true
  | .exts _ => true
  | .ins _ => true
  | .hmix _ => true
  | .ceq _ => true
  | .cne _ => true
  | .cltu _ => true
  | .cleu _ => true
  | .clts _ => true
  | .cles _ => true
  | .cbit _ => true
  | .pand _ => true
  | .por _ => true
  | .pxor _ => true
  | .ld8u _ => true
  | .ld16u _ => true
  | .ld32u _ => true
  | .ld64 _ => true
  | .st8 _ => true
  | .st16 _ => true
  | .st32 _ => true
  | .st64 _ => true
  | .aadd _ => true
  | .aswp _ => true
  | .acas _ => true
  | .amaxu _ => true
  | .br _ => true
  | .brr _ => true
  | .calls _ => true
  | .ret _ => true
  | .call _ => true
  | .calln _ => true
  | .wait _ => true
  | .post _ => true
  | .done _ => true
  | .drop _ => true
  | .trap _ => true
  | .recycle _ => true
  | .callResultWritten _ => true
  | .contextWatchdog _ => true
  | .engClroleWrite c role => decide (c < 24) && decide (role < 4)
  | .roleDrainEnd c => decide (c < 24)
  | .engFlipRequest c => decide (c < 24)
  | .bankDrainEnd c => decide (c < 24)
  | .engCntclr c => decide (c < 24)
  | .promotionDone c slot => decide (c < 24) && decide (slot < 64)
  | .spareBackgroundTest c _ => decide (c < 24)
  | .fibLookup _ u => upsetsOk u
  | .tailDescent pipe u => decide (pipe < 4) && upsetsOk u
  | .emLookup _ u => upsetsOk u
  | .terLookup _ u => upsetsOk u
  | .polUpdate _ u => upsetsOk u
  | .cntPost _ => true
  | .adjRead _ u => upsetsOk u
  | .brgLookup _ u => upsetsOk u
  | .noticeBatchHoldExpire pipe => decide (pipe < 4)
  | .sweepVisit pipe => decide (pipe < 4)
  | .brgEnableWrite v => decide (v < 2 ^ 32)
  | .agePeriodWrite period => decide (period < 65536)
  | .hotPeriodEnd => true
  | .hotCopyDone _ => true
  | .xfibEnable => true
  | .xfibDisable => true
  | .xfibDisableDone => true
  | .hotUnitsWrite units => decide (units < 2 ^ 22)
  | .hotUnitsMoveDone => true
  | .emTableEnable t v => decide (t < 64) && decide (v < 2 ^ 32)
  | .emTableDisable t v => decide (t < 64) && decide (v < 2 ^ 32)
  | .emClearDone _ => true
  | .adjRetireExpire _ => true
  | .tableScrub _ _ u _ => upsetsOk u
  | .parserFlipComplete => true
  | .packetAdmit w => decide (w < 52)
  | .chainLink w => decide (w < 54)
  | .chainRelease _ gen unit => decide (gen < 256) && decide (unit < 256)
  | .pfcRepeat p cls => decide (p < 128) && decide (cls < 8)
  | .prefetchStart => true
  | .evictionStart => true
  | .moveSwap _ ecc => decide (ecc < 4)
  | .bufferAudit => true
  | .evacDone unit => decide (unit < 384)
  | .bufferEnableWrite v => decide (v < 2 ^ 32)
  | .reserveEnableWrite v => decide (v < 2 ^ 32)
  | .xbarSlot => true
  | .grantReceive msg => areBytes msg
  | .requestReceive msg => areBytes msg
  | .emptyReceive msg => areBytes msg
  | .creditStaleRequest v => decide (v < 65536)
  | .creditLostFlush v => decide (v < 65536)
  | .creditEarn d => decide (d < 8192)
  | .flowResync _ _ => true
  | .fabricSchedule ecc => decide (ecc < 4)
  | .bucketTxqEmpty dev b => decide (dev < 2048) && decide (b < 64)
  | .fabricDelayExpire dev b => decide (dev < 2048) && decide (b < 64)
  | .linkDrain l => decide (l < 48)
  | .linkRestore l => decide (l < 48)
  | .unreachExpire dev => decide (dev < 2048)
  | .portHoldExpire p => decide (p < 128)
  | .qmTcmdWrite => true
  | .qmTcmdRead => true
  | .egressSelect ecc => decide (ecc < 4)
  | .schNodeWrite => true
  | .schNodeRead => true
  | .nz5RefillBoundary => true
  | .policerWrite => true
  | .policerRead => true
  | .tgActivate p => decide (p < 128)
  | .tgCancel p => decide (p < 128)
  | .tgDisable p => decide (p < 128)
  | .tgListStart p => decide (p < 128)
  | .tgGateChange p => decide (p < 128)
  | .tgSchedulerGate p => decide (p < 128)
  | .tgEntryWrite p => decide (p < 128)
  | .tgEntryRead p => decide (p < 128)
  | .pcieLinkTrained _ _ _ => true
  | .pcieLinkDown _ => true
  | .doorbell slot off size _ value => decide (slot < 4096) && decide (off < 64) && decide (1 ≤ size) && decide (off + size ≤ 64) && decide (value < 2 ^ 64)
  | .rctlStart => true
  | .rctlStop => true
  | .rctlInvalidate => true
  | .descriptorFetch ring _ => decide (ring < 4096)
  | .descriptorTake => true
  | .ringWriteback ring => decide (ring < 4096)
  | .ttlExpire ring => decide (ring < 4096)
  | .descNoProgress ring => decide (ring < 4096)
  | .ringStall ring => decide (ring < 4096)
  | .dmaTimeout ring _ _ => decide (ring < 4096)
  | .translationFault ring _ => decide (ring < 4096)
  | .pageResponse ring _ => decide (ring < 4096)
  | .parkTimeout ring => decide (ring < 4096)
  | .puntWrite cls => decide (cls < 4)
  | .eventWrite ring => decide (ring < 4096)
  | .msixMessage v => decide (v < 512)
  | .nopDescriptor ring => decide (ring < 4096)
  | .regWrite => true
  | .regRead => true
  | .regBulk _ => true
  | .ringStart => true
  | .ringStop => true
  | .rctInvalidate => true
  | .fibInsert => true
  | .fibDelete => true
  | .fibBulk _ => true
  | .fibDump _ => true
  | .emInsert => true
  | .emDelete => true
  | .emBulk _ => true
  | .emDump _ => true
  | .terWrite => true
  | .terDelete => true
  | .adjWrite => true
  | .adjDelete => true
  | .parserLoad _ => true
  | .parserFlip => true
  | .tableRead => true
  | .engLoad _ => true
  | .engFlip => true
  | .pdataWrite _ => true
  | .pdataRead _ => true
  | .indWrite => true
  | .indRead => true
  | .indBulk _ => true
  | .queueFlush => true
  | .cntRead _ _ => true
  | .updOffer _ => true
  | .updBlock _ _ => true
  | .updVerify => true
  | .updActivate => true
  | .updConfirm => true
  | .updAbort => true
  | .chkJob => true
  | .selftest => true
  | .blockReset => true
  | .repairClusterSram => true
  | .repairPcRetire => true
  | .repairHbmLane => true
  | .repairLinkRetire => true
  | .repairLinkReturn => true
  | .repairDdrEvacuate => true
  | .repairDdrReturn => true
  | .seatRestart => true
  | .resignClear => true
  | .bridgeRetrain => true
  | .injectEgress ring => decide (ring < 4096)
  | .injectIngress ring => decide (ring < 4096)
  | .puntBuf ring => decide (ring < 4096)
  | .memoryTrainingDone g _ _ _ _ _ _ _ _ => decide (g < 16)
  | .mcdRoleWrite ch v => decide (ch < 8) && decide (v < 2 ^ 32)
  | .recentre u _ _ _ _ => decide (u < 392)
  | .memoryRequest u _ _ _ bank _ _ _ => decide (u < 392) && decide (bank < 64)
  | .memoryCommandIssue u _ _ => decide (u < 392)
  | .refreshDue u _ => decide (u < 392)
  | .memoryTempRead g _ _ _ => decide (g < 16)
  | .activateTableClear => true
  | .patrolScrub u => decide (u < 392)
  | .laneRepairDone pc => decide (pc < 384)
  | .pcRetireDone pc => decide (pc < 384)
  | .channelEvacuated ch => decide (ch < 8)
  | .rankPowerDown ch _ => decide (ch < 8)
  | .selfRefreshEntry ch => decide (ch < 8)
  | .portEnable p v => decide (p < 128) && decide (v < 2 ^ 32)
  | .portDisable p v => decide (p < 128) && decide (v < 2 ^ 32)
  | .bringupStepComplete p _ got order =>
    decide (p < 128) && got.all (fun x => decide (x.1 < 2 ^ 32) && decide (x.2 < 2 ^ 32)) && order.all (· < 8)
  | .bringupTimeout p late => decide (p < 128) && late.all (· < 128)
  | .polaritySearchSwitch ln => decide (ln < 320)
  | .laneMarker f _ _ _ lane laneN cw seq _ eye =>
    decide (f < 192) && decide (lane < 256) && decide (laneN < 256) && decide (cw < 32) && decide (seq < 2 ^ 16) && decide (eye < 2 ^ 32)
  | .lossOfSignalSet ln _ _ => decide (ln < 320)
  | .lossOfSignalClear ln _ _ => decide (ln < 320)
  | .lossOfLockSet ln _ _ _ => decide (ln < 320)
  | .lossOfLockClear ln _ => decide (ln < 320)
  | .laneStateRequest ln v _ => decide (ln < 320) && decide (v < 2 ^ 32)
  | .faultPendingExpire p => decide (p < 128)
  | .upDebounceExpire p => decide (p < 128)
  | .frameTransmit p cls => decide (p < 128) && decide (cls < 8)
  | .linkEnable l v => decide (l < 48) && decide (v < 2 ^ 32)
  | .linkDisable l v => decide (l < 48) && decide (v < 2 ^ 32)
  | .linkStandby l _ => decide (l < 48)
  | .fabricFrameReceive l raw _ _ _ => decide (l < 48) && areBytes raw
  | .fabricCellReceive l cell _ => decide (l < 48) && areBytes cell
  | .fabricFrameTransmit l => decide (l < 48)
  | .defectDeclare l d => decide (l < 48) && decide (d < 3)
  | .defectClear l d => decide (l < 48) && decide (d < 3)
  | .secondTick => true
  | .seatOutput _ _ _ _ _ => true
  | .seatEvidence _ _ => true
  | .selfcheckDone _ _ => true
  | .checkpointCommit _ _ _ => true
  | .rollbackDone => true
  | .seatHeartbeatSend _ _ => true
  | .seatHeartbeatLoss _ => true
  | .detachedReturn _ => true
  | .seatWedge => true
  | .seatFeedReturn _ => true
  | .seatBootDone _ _ => true
  | .resignClearTestDone _ _ => true
  | .engineWatchdog c slot => decide (c < 24) && decide (slot < 64)
  | .clusterWatchdog c => decide (c < 24)
  | .bridgeKeepaliveSend _ m => decide (m < 24)
  | .bridgeKeepaliveExpire _ => true
  | .voqHoldExpire => true
  | .autoRejoin => true
  | .d2dRetrain m => decide (m < 24)
  | .rejoinStepComplete => true
  | .clusterRepairStepDone _ _ _ _ => true
  | .avsMarginCheck _ _ _ _ => true
  | .stressSample => true
  | .chainOffer _ m _ => areBytes m
  | .chainAccept _ m => areBytes m
  | .chainBusy _ m => areBytes m
  | .chainRefuse _ m => areBytes m
  | .chainBlock _ m _ => areBytes m
  | .chainAck _ m => areBytes m
  | .chainAbort _ m => areBytes m
  | .chainHello _ m => areBytes m
  | .chainHelloSend _ => true
  | .chainPortDown _ => true
  | .chainRetransmit _ => true
  | .chainForwardTimeout _ => true
  | .sessionIdleExpire => true
  | .verifiedHoldExpire => true
  | .verificationDone _ => true
  | .castlingStepComplete _ => true
  | .trialExpire => true
  | .recoveryStart data _ => areBytes data
  | .recoveryWrite _ _ data _ => areBytes data
  | .recoveryFinish _ => true
  | .recoveryBoot => true
  | .recoveryDoneExpire => true
  | .sysrstAssert => true
  | .sysrstRelease _ _ _ _ => true
  | .powerSequenceStart => true
  | .pseqEnableNext => true
  | .pseqPgTimeout => true
  | .powerGoodFall g => decide (g < 8)
  | .powerFaultRestart => true
  | .railDownNext => true
  | .perstAssert => true
  | .resetArm => true
  | .coldResetRequest => true
  | .warmResetRequest => true
  | .bootStepComplete _ _ _ => true
  | .bootStepTimeout => true
  | .selftestDone kind _ _ _ => decide (kind < 8)
  | .auxclkLoss => true
  | .timeStep => true
  | .timeOffset => true
  | .slewDone => true
  | .timFreqWrite v => decide (v < 2 ^ 32)
  | .ppsEdge _ => true
  | .todMessage msg => areBytes msg
  | .servoHoldover => true
  | .counterWriteback _ pair _ => decide (pair < 67108864)
  | .segmentHomeWrite seg home => decide (seg < 64) && decide (home < 16)
  | .segmentMoveDone seg => decide (seg < 64)
  | .telSessionWrite => true
  | .telSessionRead => true
  | .thermalSample _ => true
  | .thermtrip sensor _ => decide (sensor < 32)
  | .railSample k mv => decide (k < 15) && decide (mv < 65536)
  | .avsRetry _ _ => true
  | .busMasteringRestored enables _ => decide (enables < 16)
  | .lossOfBlockLock p => decide (p < 128)
  | .blockLockRegained p => decide (p < 128)
  | .faultSequenceReceive p _ _ => decide (p < 128)
  | .auxclkReturn => true
  | .sidebandRetrain => true
  | .clusterResetDone c => decide (c < 24)
  | .blockResetDone _ => true

end Sys2Proof
end

