-- ==== Sys2Proof/Certificates/Slice0/Obligations.lean ====
section
/-! DEFINITION. The statements about the model: for every command what it does to the state, for the device what every command keeps.
Names under `Sys2Proof.Claims` are the terms that they share. -/
namespace Sys2Proof.Claims
end Sys2Proof.Claims
open Sys2Proof Sys2Proof.Machine Sys2Proof.Claims

/-! ### Programs of the packet engines (02_packet_engines.md) -/

namespace Sys2Proof.Claims
open Sys2Proof.Machine

/-- The bundle at which a ply stands, and the operation in a slot of it. -/
def bundleAt (s : State) (p : Ply) : Nat := s.bundle p.cluster p.bank p.pc
def opAt (s : State) (p : Ply) (slot : Nat) : EOp := decodeOp (bundleAt s p) slot

/-- Ply `k` is `p`; it runs, on the context that it has or on a free one with its frame readable (R51), and its next bundle may issue: within
the loaded length and the budget, readable, and not held by a barrier. -/
def Ready (s : State) (k : Nat) (p : Ply) : Prop :=
  s.ply k = some p ∧ p.parked = [] ∧ s.canRun p = true ∧ (p.ecc && !p.ctx && decide (0 < p.bundles)) = false ∧ p.issue = none ∧ p.pc < s.rd (bankLen p.cluster p.bank) ∧
  p.bundles < s.rd (ENG_LIMITS.bundle_limit p.cluster) ∧ s.eng.insnEcc.contains (bunKey p.cluster p.bank p.pc) = false ∧
  (bunBarrier (bundleAt s p) = false ∨ p.tags = [])

/-- `slot` is the one valid slot of that bundle and holds the opcode `opc`. -/
def Alone (s : State) (k : Nat) (p : Ply) (slot opc : Nat) : Prop :=
  Ready s k p ∧ nextSlot (bundleAt s p) 0 = some slot ∧ nextSlot (bundleAt s p) (slot + 1) = none ∧ (opAt s p slot).opcode = opc

/-- The same, and the operation's predicate lets it execute. -/
def Runs (s : State) (k : Nat) (p : Ply) (slot opc : Nat) : Prop := Alone s k p slot opc ∧ (opAt s p slot).gated p = true

/-- All three slots are valid, hold these opcodes, and their predicates let them execute. -/
def AllThree (s : State) (p : Ply) (o0 o1 o2 : Nat) : Prop :=
  (bunValid (bundleAt s p) 0 = true ∧ bunValid (bundleAt s p) 1 = true ∧ bunValid (bundleAt s p) 2 = true) ∧
  ((opAt s p 0).opcode = o0 ∧ (opAt s p 1).opcode = o1 ∧ (opAt s p 2).opcode = o2) ∧
  (opAt s p 0).gated p = true ∧ (opAt s p 1).gated p = true ∧ (opAt s p 2).gated p = true

/-- The state in which a bundle of `p` has been counted in ENG_BUNDLECNT and its engine slot has issued (R520); nothing else changes. -/
def counted (s : State) (p : Ply) : State :=
  { s.addWrap (ENG_BUNDLECNT.count p.cluster) 1 with eng := { s.eng with givenAt := Tbl.erase s.eng.givenAt (64 * p.cluster + p.slot) } }

/-- The state after a bundle of ply `k` that leaves it as `q`: the bundle is counted, and nothing else changes. -/
def issued (s : State) (k : Nat) (p q : Ply) : State := (counted s p).setPly k q

/-- The ply on a context with one more bundle counted. -/
def began (p : Ply) : Ply := { p with bundles := p.bundles + 1, ctx := true }

/-- That ply at the bundle `pc`; one that has parked gives its context up (R51). -/
def goes (p : Ply) (pc : Nat) : Ply := { p with pc := pc, bundles := p.bundles + 1, ctx := p.parked.isEmpty }
def past (p : Ply) : Ply := goes p (p.pc + 1)

/-- A general register written, g0 excepted; a predicate written, p0 excepted. -/
def putReg (p : Ply) (r : Nat) (v : Word64) : Ply := if r = 0 then p else { p with g := Tbl.set 0 p.g r v }
def putPred (p : Ply) (r : Nat) (b : Bool) : Ply :=
  if r = 0 then p else { p with p := if b then insNat r p.p else p.p.filter (· != r) }

/-- The operations that write a general register from registers and immediate: command, opcode, value of rd (*Opcodes*). -/
def aluRows : List ((Nat → Instr) × Nat × (Ply → EOp → Word64)) :=
  [(.add, 0x01, fun p o => p.reg o.ra + o.bVal p), (.sub, 0x02, fun p o => p.reg o.ra - o.bVal p),
   (.and, 0x03, fun p o => p.reg o.ra &&& o.bVal p), (.or, 0x04, fun p o => p.reg o.ra ||| o.bVal p),
   (.xor, 0x05, fun p o => p.reg o.ra ^^^ o.bVal p), (.andn, 0x06, fun p o => p.reg o.ra &&& ~~~(o.bVal p)),
   (.mov, 0x07, fun p o => o.bVal p),
   (.minu, 0x08, fun p o => if (p.reg o.ra).toNat ≤ (o.bVal p).toNat then p.reg o.ra else o.bVal p),
   (.maxu, 0x09, fun p o => if (p.reg o.ra).toNat ≤ (o.bVal p).toNat then o.bVal p else p.reg o.ra),
   (.mul, 0x0A, fun p o => p.reg o.ra * o.bVal p), (.clz, 0x0B, fun p o => BitVec.ofNat 64 (clz64 (p.reg o.ra))),
   (.popc, 0x0C, fun p o => BitVec.ofNat 64 (popCount 64 (p.reg o.ra).toNat)),
   (.bswap, 0x0D, fun p o => Machine.bswap (p.reg o.ra) (o.bVal p).toNat),
   (.shl, 0x20, fun p o => p.reg o.ra <<< ((o.bVal p).toNat % 64)), (.shr, 0x21, fun p o => p.reg o.ra >>> ((o.bVal p).toNat % 64)),
   (.sar, 0x22, fun p o => (p.reg o.ra).sshiftRight ((o.bVal p).toNat % 64)),
   (.rol, 0x23, fun p o => (p.reg o.ra).rotateLeft ((o.bVal p).toNat % 64)),
   (.extu, 0x24, fun p o => Machine.extu (p.reg o.ra) o.pos o.len), (.exts, 0x25, fun p o => Machine.exts (p.reg o.ra) o.pos o.len),
   (.ins, 0x26, fun p o => insBits (p.reg o.rd) (p.reg o.ra) o.pos o.len),
   (.hmix, 0x27, fun p o => BitVec.ofNat 64 (crc32c (netBytes (p.reg o.ra) ++ netBytes (o.bVal p))))]

/-- The operations that write a predicate: command, opcode, value of pd. -/
def predRows : List ((Nat → Instr) × Nat × (Ply → EOp → Bool)) :=
  [(.ceq, 0x30, fun p o => p.reg o.ra == o.bVal p), (.cne, 0x31, fun p o => p.reg o.ra != o.bVal p),
   (.cltu, 0x32, fun p o => decide ((p.reg o.ra).toNat < (o.bVal p).toNat)),
   (.cleu, 0x33, fun p o => decide ((p.reg o.ra).toNat ≤ (o.bVal p).toNat)),
   (.clts, 0x34, fun p o => decide ((p.reg o.ra).toInt < (o.bVal p).toInt)),
   (.cles, 0x35, fun p o => decide ((p.reg o.ra).toInt ≤ (o.bVal p).toInt)),
   (.cbit, 0x36, fun p o => (p.reg o.ra).getLsbD ((o.bVal p).toNat % 64)),
   (.pand, 0x37, fun p o => p.pred (o.ra % 8) && p.pred (bitsAt o.b 13 3)),
   (.por, 0x38, fun p o => p.pred (o.ra % 8) || p.pred (bitsAt o.b 13 3)),
   (.pxor, 0x39, fun p o => p.pred (o.ra % 8) != p.pred (bitsAt o.b 13 3))]

/-- Loads and stores: command, opcode, width in bytes. -/
def loadRows : List ((Nat → Instr) × Nat × Nat) := [(.ld8u, 0x40, 1), (.ld16u, 0x41, 2), (.ld32u, 0x42, 4), (.ld64, 0x43, 8)]
def storeRows : List ((Nat → Instr) × Nat × Nat) := [(.st8, 0x44, 1), (.st16, 0x45, 2), (.st32, 0x46, 4), (.st64, 0x47, 8)]

/-- Atomics: command, opcode, address, and what memory holds after it, from the old value. -/
def atomRows : List ((Nat → Instr) × Nat × (Ply → EOp → Nat) × (Ply → EOp → Word64 → Word64)) :=
  [(.aadd, 0x50, fun p o => o.addr p, fun p o old => old + p.reg o.rd), (.aswp, 0x51, fun p o => o.addr p, fun p o _ => p.reg o.rd),
   (.acas, 0x52, fun p o => (p.reg o.ra).toNat, fun p o old => if old = p.reg o.rd then p.reg (bitsAt o.b 13 5) else old),
   (.amaxu, 0x53, fun p o => o.addr p, fun p o old => if old.toNat < (p.reg o.rd).toNat then p.reg o.rd else old)]

/-- Every operation of *Opcodes* with its opcode. -/
def opRows : List ((Nat → Instr) × Nat) :=
  (.nop, 0x00) :: (aluRows.map (fun r => (r.1, r.2.1)) ++ predRows.map (fun r => (r.1, r.2.1)) ++
    loadRows.map (fun r => (r.1, r.2.1)) ++ storeRows.map (fun r => (r.1, r.2.1)) ++ atomRows.map (fun r => (r.1, r.2.1)) ++
    [(.br, 0x58), (.brr, 0x59), (.calls, 0x5A), (.ret, 0x5B), (.call, 0x60), (.calln, 0x61), (.wait, 0x62), (.post, 0x63), (.done, 0x70),
     (.drop, 0x71), (.trap, 0x72), (.recycle, 0x73)])

end Sys2Proof.Claims

/-- The results of *Opcodes* for NOP and the ALU, shift and bit-field classes, with their frame. -/
def Sys2Proof.Claims.AluResults : Prop :=
  (∀ s k p slot, Runs s k p slot 0x00 → exec (.nop k) s = .next (issued s k p (past p))) ∧
  ∀ row ∈ aluRows, ∀ s k p slot, Runs s k p slot row.2.1 →
    exec (row.1 k) s = .next (issued s k p (past (putReg p (opAt s p slot).rd (row.2.2 p (opAt s p slot)))))

/-- The results of *Opcodes* for the compare and predicate classes, with their frame. -/
def Sys2Proof.Claims.PredicateResults : Prop :=
  ∀ row ∈ predRows, ∀ s k p slot, Runs s k p slot row.2.1 →
    exec (row.1 k) s = .next (issued s k p (past (putPred p ((opAt s p slot).rd % 8) (row.2.2 p (opAt s p slot)))))

/-- Every operation of the packet engines that only computes. -/
def Obligations.OperationsOnRegisters : Prop := Claims.AluResults ∧ Claims.PredicateResults

/-- *Opcodes*, load and store classes, over the regions of *Engine address map*. -/
def Sys2Proof.Claims.LoadsAndStores : Prop :=
  (∀ row ∈ loadRows, ∀ s k p slot r, Runs s k p slot row.2.1 →
    (opAt s p slot).addr p % row.2.2 = 0 → locate ((opAt s p slot).addr p) row.2.2 = some r →
    ((∃ o, r = .prog o) ∨ p.ecc = false) →
    exec (row.1 k) s = .next (issued s k p (past (putReg p (opAt s p slot).rd
      (BitVec.ofNat 64 (beNat (s.regionBytes p r row.2.2))))))) ∧
  (∀ row ∈ loadRows, ∀ s k p slot, Runs s k p slot row.2.1 →
    ((opAt s p slot).addr p % row.2.2 ≠ 0 ∨ locate ((opAt s p slot).addr p) row.2.2 = none) →
    exec (row.1 k) s = .next ((issued s k p (began p)).plyFault k 3 ((opAt s p slot).addr p))) ∧
  (∀ row ∈ loadRows, ∀ s k p slot r, Runs s k p slot row.2.1 →
    (opAt s p slot).addr p % row.2.2 = 0 → locate ((opAt s p slot).addr p) row.2.2 = some r → (∀ o, r ≠ .prog o) → p.ecc = true →
    exec (row.1 k) s =
      .next (((issued s k p (began p)).plyFault k 8 0).eccSeen p.cluster p.slot)) ∧
  (∀ row ∈ storeRows, ∀ s k p slot o, Runs s k p slot row.2.1 → (opAt s p slot).addr p % row.2.2 = 0 →
    locate ((opAt s p slot).addr p) row.2.2 = some (.frame o) → ¬(o < 128 ∧ p.tags.contains (o / 32) = true) →
    exec (row.1 k) s = .next (issued s k p (past { p with
      frame := putBytes p.frame o (beBytes row.2.2 (p.reg (opAt s p slot).rd).toNat) }))) ∧
  (∀ row ∈ storeRows, ∀ s k p slot o, Runs s k p slot row.2.1 → (opAt s p slot).addr p % row.2.2 = 0 →
    locate ((opAt s p slot).addr p) row.2.2 = some (.slot o) → ¬(0x70 ≤ o ∧ o < 0x80) →
    exec (row.1 k) s = .next (issued s k p (past { p with
      mem := putBytes p.mem o (beBytes row.2.2 (p.reg (opAt s p slot).rd).toNat) }))) ∧
  (∀ row ∈ storeRows, ∀ s k p slot o, Runs s k p slot row.2.1 → (opAt s p slot).addr p % row.2.2 = 0 →
    locate ((opAt s p slot).addr p) row.2.2 = some (.prog o) →
    exec (row.1 k) s = .next (((counted s p).setPdata p.cluster o (beBytes row.2.2 (p.reg (opAt s p slot).rd).toNat)).setPly k (past p))) ∧
  (∀ row ∈ storeRows, ∀ s k p slot, Runs s k p slot row.2.1 →
    ((opAt s p slot).addr p % row.2.2 ≠ 0 ∨ locate ((opAt s p slot).addr p) row.2.2 = none ∨
      (∃ o, locate ((opAt s p slot).addr p) row.2.2 = some (.slot o) ∧ 0x70 ≤ o ∧ o < 0x80) ∨
      (∃ o, locate ((opAt s p slot).addr p) row.2.2 = some (.frame o) ∧ o < 128 ∧ p.tags.contains (o / 32) = true)) →
    exec (row.1 k) s = .next ((issued s k p (began p)).plyFault k 3 ((opAt s p slot).addr p)))

/-- R60 and the atomic class of *Opcodes*. -/
def Sys2Proof.Claims.Atomics : Prop :=
  (∀ row ∈ atomRows, ∀ s k p slot o, Runs s k p slot row.2.1 → row.2.2.1 p (opAt s p slot) % 8 = 0 →
    locate (row.2.2.1 p (opAt s p slot)) 8 = some (.prog o) →
    let old := BitVec.ofNat 64 (beNat (s.regionBytes p (.prog o) 8))
    exec (row.1 k) s = .next (((counted s p).setPdata p.cluster o (beBytes 8 (row.2.2.2 p (opAt s p slot) old).toNat)).setPly k
      (past (putReg p (opAt s p slot).rd old)))) ∧
  (∀ row ∈ atomRows, ∀ s k p slot, Runs s k p slot row.2.1 →
    (row.2.2.1 p (opAt s p slot) % 8 ≠ 0 ∨ ∀ o, locate (row.2.2.1 p (opAt s p slot)) 8 ≠ some (.prog o)) →
    exec (row.1 k) s = .next ((issued s k p (began p)).plyFault k 3 (row.2.2.1 p (opAt s p slot)))) ∧
  (∀ (s : State) (p : Ply) (o : Nat) (v : Word64), Tbl.risingFrom 0 s.eng.pdata = true →
    BitVec.ofNat 64 (beNat ((s.setPdata p.cluster o (beBytes 8 v.toNat)).regionBytes p (.prog o) 8)) = v)

/-- Every operation of the packet engines on packet, scratch and shared memory. -/
def Obligations.LoadsStoresAndAtomics : Prop := Claims.LoadsAndStores ∧ Claims.Atomics

/-- *Opcodes*, branch class. -/
def Obligations.Branches : Prop :=
  (∀ s k p slot, Runs s k p slot 0x58 →
    let t := ((opAt s p slot).bVal p).toNat % 2 ^ 15
    ((opAt s p slot).imm = true ∨ t < s.rd (bankLen p.cluster p.bank) → exec (.br k) s = .next (issued s k p (goes p t))) ∧
    ((opAt s p slot).imm = false ∧ s.rd (bankLen p.cluster p.bank) ≤ t →
      exec (.br k) s = .next ((issued s k p (began p)).plyFault k 4 t))) ∧
  (∀ s k p slot, Runs s k p slot 0x5A →
    let t := ((opAt s p slot).bVal p).toNat % 2 ^ 15
    let q := putReg p 31 (BitVec.ofNat 64 (p.pc + 1))
    ((opAt s p slot).imm = true ∨ t < s.rd (bankLen p.cluster p.bank) → exec (.calls k) s = .next (issued s k p (goes q t))) ∧
    ((opAt s p slot).imm = false ∧ s.rd (bankLen p.cluster p.bank) ≤ t →
      exec (.calls k) s = .next ((issued s k p (began q)).plyFault k 4 t))) ∧
  (∀ s k p slot, Runs s k p slot 0x59 →
    let v := (p.reg (opAt s p slot).ra).toNat
    (v < 2 ^ 15 → v < s.rd (bankLen p.cluster p.bank) → exec (.brr k) s = .next (issued s k p (goes p v))) ∧
    (2 ^ 15 ≤ v ∨ s.rd (bankLen p.cluster p.bank) ≤ v →
      exec (.brr k) s = .next ((issued s k p (began p)).plyFault k 4 (v % 2 ^ 32)))) ∧
  (∀ s k p slot, Runs s k p slot 0x5B →
    let t := (p.reg 31).toNat % 2 ^ 15
    (t < s.rd (bankLen p.cluster p.bank) → exec (.ret k) s = .next (issued s k p (goes p t))) ∧
    (s.rd (bankLen p.cluster p.bank) ≤ t →
      exec (.ret k) s = .next ((issued s k p (began p)).plyFault k 4 t)))

/-- R74 to R78, R100 and the ply ends of *Opcodes*. -/
def Obligations.PlyEnds : Prop :=
  (∀ row ∈ ([(.done, 0x70), (.drop, 0x71), (.trap, 0x72), (.recycle, 0x73)] : List ((Nat → Instr) × Nat)), ∀ s k p slot,
    Runs s k p slot row.2 → s.watchdogDue p = true → exec (row.1 k) s = .next ((counted s p).plyFault k 2 0)) ∧
  (∀ s k p slot, Runs s k p slot 0x70 → s.watchdogDue p = false →
    let u := issued s k p (began p)
    let fwd := p.slotBytes 0x40 48
    (p.ecc = true → exec (.done k) s = .next ((u.plyFault k 8 0).eccSeen p.cluster p.slot)) ∧
    (∀ d, p.ecc = false → p.output = .inl d → exec (.done k) s = .next (u.plyFault k 3 d)) ∧
    (∀ out, p.ecc = false → p.output = .inr out → p.egress = true →
      let off := beNat (sliceB fwd 12 2)
      exec (.done k) s = .next ((u.freePly k).orderEnd true p.pkt.ord (some { p.pkt with
        bytes := out, fwd := fwd, tstamp := bitOf (leAt fwd 0 1) 3, tsCtl := if off < 4 then none else some (p.slotBytes (0x7C + off) 4) }))) ∧
    (∀ out, p.ecc = false → p.output = .inr out → p.egress = false →
      let res := patchB fwd 7 [p.pkt.port % 256]
      exec (.done k) s = .next (((u.freePly k).sampleIngress res
        { session := 0, pipe := p.pkt.pipe, source := 0, port := p.pkt.port, length := out.length,
          bytes := out.take (384 - beNat (sliceB res 12 2)), ns := p.pkt.ns, sec := p.pkt.sec }).orderEnd false p.pkt.ord
            (some { p.pkt with bytes := out, fwd := res })))) ∧
  (∀ s k p slot, Runs s k p slot 0x71 → s.watchdogDue p = false →
    exec (.drop k) s = .next (((issued s k p (began p)).cntAdd true
      (s.rd ENG_DROPBASE.base + 256 * p.pkt.pipe + (opAt s p slot).b % 256) 1 p.pkt.bytes.length).endPly k)) ∧
  (∀ s k p slot, Runs s k p slot 0x72 → s.watchdogDue p = false →
    exec (.trap k) s = .next ((issued s k p (began p)).plyFault k 0 ((opAt s p slot).b % 256))) ∧
  (∀ s k p slot, Runs s k p slot 0x73 → s.watchdogDue p = false →
    let u := issued s k p (began p)
    (3 ≤ p.pkt.recycle → exec (.recycle k) s =
      .next ((u.cntAdd true (s.rd ENG_DROPBASE.base + 256 * p.pkt.pipe + 255) 1 p.pkt.bytes.length).endPly k)) ∧
    (p.pkt.recycle < 3 → p.ecc = true → exec (.recycle k) s = .next ((u.plyFault k 8 0).eccSeen p.cluster p.slot)) ∧
    (∀ d, p.pkt.recycle < 3 → p.ecc = false → p.output = .inl d → exec (.recycle k) s = .next (u.plyFault k 3 d)) ∧
    (∀ out, p.pkt.recycle < 3 → p.ecc = false → p.output = .inr out →
      let q : Packet :=
        { p.pkt with bytes := out, port := 128 + p.pkt.pipe, recycle := p.pkt.recycle + 1, entry := 2, fwd := [], ord := 0, inj := none }
      let v := u.endPly k
      exec (.recycle k) s = .next { v with eng := { v.eng with arriving := Tbl.upd [] v.eng.arriving p.pkt.pipe (fun l => l ++ [q]) } }))

/-- R68, R69 and the accelerator class of *Opcodes*. -/
def Obligations.AcceleratorCalls : Prop :=
  (∀ s k p slot, Runs s k p slot 0x60 →
    let o := opAt s p slot
    (p.tags.contains (callTag o.b) = false → p.ecc = false →
      exec (.call k) s = .next (((counted s p).present k p (p.reg o.ra).toNat o.b).setPly k
        (past { p with tags := insNat (callTag o.b) p.tags, parked := [callTag o.b], callRd := some (o.rd, callTag o.b) }))) ∧
    (p.tags.contains (callTag o.b) = true →
      exec (.call k) s = .next ((issued s k p (began p)).plyFault k 5 (callTag o.b))) ∧
    (p.tags.contains (callTag o.b) = false → p.ecc = true →
      exec (.call k) s = .next (((issued s k p (began p)).plyFault k 8 0).eccSeen p.cluster p.slot))) ∧
  (∀ s k p slot, Runs s k p slot 0x61 →
    let o := opAt s p slot
    (p.tags.contains (callTag o.b) = false → p.ecc = false →
      exec (.calln k) s = .next (((counted s p).present k p (p.reg o.ra).toNat o.b).setPly k (past { p with tags := insNat (callTag o.b) p.tags }))) ∧
    (p.tags.contains (callTag o.b) = true →
      exec (.calln k) s = .next ((issued s k p (began p)).plyFault k 5 (callTag o.b))) ∧
    (p.tags.contains (callTag o.b) = false → p.ecc = true →
      exec (.calln k) s = .next (((issued s k p (began p)).plyFault k 8 0).eccSeen p.cluster p.slot))) ∧
  (∀ s k p slot, Runs s k p slot 0x62 →
    exec (.wait k) s = .next (issued s k p (past { p with parked := p.tags.filter (fun t => bitOf ((opAt s p slot).b % 16) t) }))) ∧
  (∀ s k p slot, Runs s k p slot 0x63 →
    let o := opAt s p slot
    (p.posts < 8 → p.ecc = false →
      exec (.post k) s = .next (((counted s p).present k p (p.reg o.ra).toNat o.b).setPly k (past { p with posts := p.posts + 1 }))) ∧
    (8 ≤ p.posts → exec (.post k) s = .next ((issued s k p (began p)).plyFault k 6 0)) ∧
    (p.posts < 8 → p.ecc = true →
      exec (.post k) s = .next (((issued s k p (began p)).plyFault k 8 0).eccSeen p.cluster p.slot)))

/-- R63 over all of *Opcodes*. -/
def Obligations.GatedOff : Prop :=
  ∀ row ∈ opRows, ∀ s k p slot, Alone s k p slot row.2 → (opAt s p slot).gated p = false →
    exec (row.1 k) s = .next (issued s k p (past p))

/-- R62: three register operations; and a register operation, a store and a ply end or branch. -/
def Obligations.BundleReadsBeforeWrites : Prop :=
  (∀ r0 ∈ aluRows, ∀ r1 ∈ aluRows, ∀ r2 ∈ aluRows, ∀ s k p, Ready s k p → AllThree s p r0.2.1 r1.2.1 r2.2.1 →
    ∃ t u, exec (r0.1 k) s = .next t ∧ exec (r1.1 k) t = .next u ∧
      (∃ q, t.ply k = some q ∧ q.g = p.g ∧ q.p = p.p ∧ q.pc = p.pc) ∧
      exec (r2.1 k) u = .next (issued s k p (past (putReg (putReg (putReg p (opAt s p 0).rd (r0.2.2 p (opAt s p 0)))
        (opAt s p 1).rd (r1.2.2 p (opAt s p 1))) (opAt s p 2).rd (r2.2.2 p (opAt s p 2)))))) ∧
  (∀ r0 ∈ aluRows, ∀ r1 ∈ storeRows, ∀ s k p o, Ready s k p → (opAt s p 1).addr p % r1.2.2 = 0 →
    locate ((opAt s p 1).addr p) r1.2.2 = some (.slot o) → ¬(0x70 ≤ o ∧ o < 0x80) →
    let q : Ply := { putReg p (opAt s p 0).rd (r0.2.2 p (opAt s p 0)) with
      mem := putBytes p.mem o (beBytes r1.2.2 (p.reg (opAt s p 1).rd).toNat) }
    (AllThree s p r0.2.1 r1.2.1 0x70 → s.watchdogDue p = false → ∃ t u, exec (r0.1 k) s = .next t ∧ exec (r1.1 k) t = .next u ∧
      exec (.done k) u = .next ((issued s k p (began q)).plyDone k)) ∧
    (AllThree s p r0.2.1 r1.2.1 0x58 → (opAt s p 2).imm = true → ∃ t u, exec (r0.1 k) s = .next t ∧ exec (r1.1 k) t = .next u ∧
      exec (.br k) u = .next (issued s k p (goes q (((opAt s p 2).bVal p).toNat % 2 ^ 15)))))

/-- The bit fields of *Opcodes*, bit by bit. -/
def Obligations.BitFieldsBitByBit : Prop :=
  (∀ (x : Word64) (pos len i : Nat), pos < 64 → 1 ≤ len → len ≤ 64 → i < 64 →
    (extu x pos len).getLsbD i = (decide (i < len) && x.getLsbD (pos + i)) ∧
    (exts x pos len).getLsbD i = (if i < len then x.getLsbD (pos + i) else x.getLsbD (pos + len - 1))) ∧
  (∀ (d x : Word64) (pos len i : Nat), pos < 64 → 1 ≤ len → len ≤ 64 → i < 64 →
    (insBits d x pos len).getLsbD i = (if pos ≤ i ∧ i < pos + len then x.getLsbD (i - pos) else d.getLsbD i)) ∧
  (∀ (x : Word64) (n : Nat), n ≤ 64 → (clz64 x = n ↔ (∀ i, 64 - n ≤ i → i < 64 → x.getLsbD i = false) ∧ (n < 64 → x.getLsbD (63 - n) = true))) ∧
  (∀ x : Word64, popCount 64 x.toNat = ((List.range 64).filter (fun i => x.getLsbD i)).length)
/-! ### Registers and their access paths (17_register_map.md) -/

namespace Sys2Proof.Claims
open Sys2Proof.Machine

/-- The device is ready, set-up is not sealed, and it is not in recovery mode: BAR0 writes reach their registers. -/
def Reached (s : State) : Prop := s.pwr.recovery = false ∧ s.bit GEN_BOOTSTAT.ready = true ∧ s.bit GEN_SEAL.sealed = false

/-- The same, and no command descriptor has written a register in this cycle, so that no write goes over a BAR0 write of it (R656). -/
def Open (s : State) : Prop := Reached s ∧ s.cmdWrote.1 ≠ s.clk + 1

/-- The same, and an access to a register of the Forwarding Die crosses the bridge at once: the control class has room for it (R28). -/
def FdOpen (s : State) : Prop := Open s ∧ s.bridgeUp = true ∧ s.fdUnreachable = false ∧ s.ctlFree false 1 = true

/-- A write of the word `v` at `a` carried out on the Forwarding Die as `f`: its flit crosses, the FD end records its result under its tag
(R37), and the answer crosses back, at once or once the control class has room (R28). -/
def tagged (s : State) (cmd : Bool) (a mask v : Nat) (f : State → State) : State :=
  let g := s.dies.nextTag
  (State.fdReply ((f (State.ctlNow { s with dies := { s.dies with nextTag := (g + 1) % 256 } } false 1)).tagDone g 0)
    (.write g a mask v cmd) g 0).2

/-- What a field holds after a write of the whole word `v`, by its access code (*Access codes*): RW and RWS take a value that they accept, W1C
bits written as 1 clear, every other code keeps. -/
def fieldAfter (old v : Nat) (f : FldAcc) : Nat :=
  let x := bitsAt v f.fld.lo f.fld.width
  match f.acc with
  | .rw => if f.accepts x then x else old
  | .rws => if f.accepts x then x else old
  | .w1c => Nat.land old (Nat.xor (2 ^ f.fld.width - 1) x)
  | _ => old

/-- A register that only holds values: no hook, no consequence of a write, outside the MSI-X structures and on the Top Die or the island. -/
def Plain (s : State) (a v : Nat) (fs : List FldAcc) : Prop :=
  accessOk a 4 = true ∧ isMsix a = false ∧ isFdAddr a = false ∧ regAt a = .word fs ∧
  (∀ w x, (s.clearOnes .bar0 v fs).hook .bar0 a (2 ^ 32 - 1) w x = none) ∧ (∀ u : State, u.afterWrite a = u) ∧
  (fs.map (fun f => f.fld.key)).Nodup ∧ ∀ f ∈ fs, 0 < f.fld.width ∧ f.fld.lo + f.fld.width ≤ 32 ∧ f.fld.addr = a

/-- Anything a BAR0 or BMC read of a pair's low word leaves: the path's latch and the data returned. -/
def readLeaves (s : State) (bmc : Bool) (l : Latch) (v : Nat) : State :=
  if bmc then { s with bmcL := l, readData := v } else { s with bar0L := l, readData := v }

end Sys2Proof.Claims

/-- The access codes, for BAR0_REGISTER_WRITE. -/
def Obligations.RegisterWriteByAccessCode : Prop :=
  (∀ s a v fs, s.regsOk = true → Reached s → v < 2 ^ 32 → Plain s a (s.underCmd a v) fs →
    ∃ t, exec (.bar0RegisterWrite a 4 v) s = .next t ∧
      (∀ f ∈ fs, s.rd f.fld < 2 ^ f.fld.width → t.rd f.fld = fieldAfter (s.rd f.fld) (s.underCmd a v) f) ∧
      (∀ g : Fld, (∀ f ∈ fs, g.key ≠ f.fld.key) → t.rd g = s.rd g) ∧ { t with regs := s.regs } = s) ∧
  (∀ (s : State) a v, s.cmdWrote.1 ≠ s.clk + 1 → s.underCmd a v = v) ∧
  (∀ (s : State) a v m w, indirectAddr a = false → s.cmdWrote = (s.clk + 1, [(a, m, w)]) →
    s.underCmd a v = mergeBits v (Nat.land m (storedBits a)) w)

/-- R351, R648 and R653 for accesses without effect. -/
def Sys2Proof.Claims.RefusedRegisterAccesses : Prop :=
  (∀ s a size v, accessOk a size = false → s.bit GEN_SEAL.sealed = false →
    exec (.bar0RegisterWrite a size v) s = .next (s.inc HIF_BADACC.count)) ∧
  (∀ s a v, Reached s → accessOk a 4 = true → isReserved a = true →
    exec (.bar0RegisterWrite a 4 v) s = .next (s.inc HIF_BADACC.count)) ∧
  (∀ s a size, accessOk a size = false →
    exec (.pairLowWordRead false a size) s = .next { s.inc HIF_BADACC.count with readData := 0 }) ∧
  (∀ (s : State) p a, isReserved a = true → a % 4 = 0 → s.regRead p a = (0, s)) ∧
  (∀ s a v, s.pwr.recovery = false → s.bit GEN_BOOTSTAT.ready = true → s.bit GEN_SEAL.sealed = true → accessOk a 4 = true →
    isReserved a = false → s.keptBits a = 0 →
    exec (.bar0RegisterWrite a 4 v) s = .next (if (s.inc GEN_SEALVIOL.count).bit GEN_SEALCAP.valid then s.inc GEN_SEALVIOL.count
      else ((s.inc GEN_SEALVIOL.count).wr GEN_SEALCAP.valid 1).wr GEN_SEALCAP.offset a))

/-- R10 and R650 for PAIR_LOW_WORD_READ and PAIR_HIGH_WORD_READ. -/
def Sys2Proof.Claims.PairLatches : Prop :=
  (∀ s a f, Reached s → a < 2 ^ 24 → a % 4 = 0 → isFdAddr a = false → isMsix a = false → regAt a = .pairLo f →
    exec (.pairLowWordRead false a 4) s = .next (readLeaves s false { s.bar0L with pair := some (f.fld.addr, s.livePair f.fld / 2 ^ 32) }
      (s.livePair f.fld % 2 ^ 32))) ∧
  (∀ s a f, Reached s → a < 2 ^ 24 → a % 8 = 0 → isFdAddr a = false → isFdAddr (a + 4) = false → isMsix a = false → isMsix (a + 4) = false →
    regAt a = .pairLo f → regAt (a + 4) = .pairHi f →
    exec (.pairLowWordRead false a 8) s = .next (readLeaves s false { s.bar0L with pair := some (f.fld.addr, s.livePair f.fld / 2 ^ 32) }
      (s.livePair f.fld))) ∧
  (∀ s a f, a % 4 = 0 → (a < 0x10000 ∨ (0x600000 ≤ a ∧ a < 0x640000)) → regAt a = .pairLo f →
    exec (.pairLowWordRead true a 4) s = .next (readLeaves s true { s.bmcL with pair := some (f.fld.addr, s.livePair f.fld / 2 ^ 32) }
      (s.livePair f.fld % 2 ^ 32))) ∧
  (∀ s a f, Reached s → a < 2 ^ 24 → a % 4 = 0 → isFdAddr a = false → isMsix a = false → regAt a = .pairHi f →
    (∀ h, s.bar0L.pair = some (f.fld.addr, h) → exec (.pairHighWordRead false a) s = .next { s with readData := h }) ∧
    ((∀ h, s.bar0L.pair ≠ some (f.fld.addr, h)) → exec (.pairHighWordRead false a) s = .next { s with readData := s.livePair f.fld / 2 ^ 32 })) ∧
  (∀ s a f, a % 4 = 0 → (a < 0x10000 ∨ (0x600000 ≤ a ∧ a < 0x640000)) → regAt a = .pairHi f →
    (∀ h, s.bmcL.pair = some (f.fld.addr, h) → exec (.pairHighWordRead true a) s = .next { s with readData := h }) ∧
    ((∀ h, s.bmcL.pair ≠ some (f.fld.addr, h)) → exec (.pairHighWordRead true a) s = .next { s with readData := s.livePair f.fld / 2 ^ 32 }))

/-- RC_FIELD_READ, TSLAST0_READ, TIM_NOW0_READ, PPSCAP0_READ and PWR_STAT_BMC_READ. -/
def Sys2Proof.Claims.ReadsWithEffect : Prop :=
  (∀ s, Reached s →
    exec (.rcFieldRead 0x180030) s = .next { s.wr BPM_MINSHAL.min_ (s.freeOf 0) with readData := s.live .bar0 0x180030 } ∧
    exec (.rcFieldRead 0x180034) s = .next { s.wr BPM_MINPREF.min_ (s.freeOf 1) with readData := s.live .bar0 0x180034 } ∧
    exec (.rcFieldRead 0x180038) s = .next { s.wr BPM_MINDEEP.min_ (s.freeOf 2) with readData := s.live .bar0 0x180038 } ∧
    exec (.rcFieldRead 0x18003C) s = .next { s.wr BPM_MINRSV.min_ (s.freeOf 3) with readData := s.live .bar0 0x18003C }) ∧
  (∀ s port, FdOpen s → s.ctlFree true 1 = true → port < 128 →
    let a := 0x400020 + 0x800 * port
    ∃ t, exec (.tslast0Read port) s = .next t ∧ t.readData = s.live .bar0 a ∧
      t.bar0L = { s.bar0L with tslast := some (a, s.live .bar0 (a + 4), s.live .bar0 (a + 8)) } ∧
      { t with dies := s.dies, readData := s.readData, bar0L := s.bar0L } = s) ∧
  (∀ s, Reached s → exec .timNow0Read s = .next { s with
    readData := s.tim.ns, bar0L := { s.bar0L with now := some (s.tim.sec % 2 ^ 32, s.tim.sec / 2 ^ 32 % 2 ^ 16) } }) ∧
  (∀ s, Reached s → exec .ppscap0Read s = .next { s with
    readData := s.live .bar0 0x40050, bar0L := { s.bar0L with ppscap := some (s.live .bar0 0x40054, s.live .bar0 0x40058) } }) ∧
  (∀ s, exec .pwrStatBmcRead s = .next { s with readData := s.live .bmc 0x600004, pwr := { s.pwr with bmcAlert := false } })

/-- Every read that changes something. -/
def Obligations.ReadsOnEachPath : Prop := Claims.PairLatches ∧ Claims.ReadsWithEffect

/-- R652. -/
def Sys2Proof.Claims.SealingByKey : Prop :=
  (∀ s, Open s → exec (.genSeal (0x5EA1 * 2 ^ 16 + 1)) s = .next (s.wr GEN_SEAL.sealed 1)) ∧
  (∀ s v, Open s → (bitsAt (v % 2 ^ 32) 16 16 ≠ 0x5EA1 ∨ v % 2 = 0) → exec (.genSeal v) s = .next s) ∧
  (∀ s v, s.bit GEN_BOOTSTAT.ready = false → exec (.genSeal v) s = .next s)

/-- Refused accesses and the sealing of set-up. -/
def Obligations.RefusalsAndSealing : Prop := Claims.RefusedRegisterAccesses ∧ Claims.SealingByKey

/-! ### Network time (15_time_counters.md) -/

/-- R600, R603 to R605. -/
def Sys2Proof.Claims.TimeSteering : Prop :=
  (∀ s, Open s → s.bit TIM_CFG.mode = false →
    (s.rd TIM_SET0.ns < 10 ^ 9 →
      let sec := s.rd TIM_SET1.sec_lo + 2 ^ 32 * s.rd TIM_SET2.sec_hi
      let d : Int := ((sec * 10 ^ 9 + s.rd TIM_SET0.ns : Nat) : Int) - ((s.tim.sec * 10 ^ 9 + s.tim.ns : Nat) : Int)
      let u : State := { s with
        tim := { s.tim with sec := sec, ns := s.rd TIM_SET0.ns, frac := 0, before := s.timeBefore, tickDue := s.tim.tickDue || sec != s.tim.sec,
                            tickStep := s.tim.tickStep || sec != s.tim.sec },
        dies := { s.dies with followFd := s.dies.followFd - d, followTd := s.dies.followTd - d } }
      exec .timeStep s = .next ((((u.inc TIM_STEPS.count).wr TIM_STAT.step_pending 1).post 0x0E01 (leBytes 8 (unsigned 64 d))).postTimeStep)) ∧
    (10 ^ 9 ≤ s.rd TIM_SET0.ns → exec .timeStep s = .next (s.wr TIM_STAT.refused 1)) ∧
    (let sum := s.tim.slew + signed 32 (s.rd TIM_OFFS.offset) * fracNs
     let lim : Int := (s.rd TIM_SLEW.max_ns : Int) * fracNs
     (0 < lim → -lim ≤ sum → sum ≤ lim →
        exec .timeOffset s = .next (({ s with tim := { s.tim with slew := sum } } : State).wr TIM_STAT.slewing 1)) ∧
     ((lim ≤ 0 ∨ sum < -lim ∨ lim < sum) →
        exec .timeOffset s = .next ((({ s with tim := { s.tim with slew := 0 } } : State).wr TIM_STAT.slewing 0).stepBy sum))) ∧
    (∀ v, v < 2 ^ 32 → -25600000 ≤ signed 32 v → signed 32 v ≤ 25600000 → exec (.timFreqWrite v) s = .next (s.wr TIM_FREQ.adj v)) ∧
    (∀ v, v < 2 ^ 32 → (signed 32 v < -25600000 ∨ 25600000 < signed 32 v) → exec (.timFreqWrite v) s = .next (s.wr TIM_STAT.refused 1))) ∧
  (∀ s v, Open s → s.bit TIM_CFG.mode = true →
    exec .timeStep s = .next (s.wr TIM_STAT.refused 1) ∧ exec .timeOffset s = .next (s.wr TIM_STAT.refused 1) ∧
    exec (.timFreqWrite v) s = .next (s.wr TIM_STAT.refused 1)) ∧
  (∀ s, s.bit TIM_STAT.slewing = true → s.tim.slew = 0 → exec .slewDone s = .next (s.wr TIM_STAT.slewing 0))

/-- TIME_SYNC_UPDATE, PPS_EDGE, TOD_MESSAGE and SERVO_HOLDOVER. -/
def Sys2Proof.Claims.TimeInputs : Prop :=
  (∀ s, s.dies.syncAt + 1024 ≤ s.clk →
    let u := ({ s with dies := { s.dies with followFd := 0, followTd := 0, syncAt := s.clk } } : State).wr TIM_STAT.step_pending 0
    (s.bit TIM_STAT.step_pending = false → exec .timeSyncUpdate s = .next u) ∧
    (s.bit TIM_STAT.step_pending = true → exec .timeSyncUpdate s = .next u.regate)) ∧
  (∀ s, (∀ t, s.tim.ppsAt = some t → t + 500000000 ≤ s.clk) →
    exec (.ppsEdge true) s = .next (((({ s with tim := { s.tim with ppsAt := some s.clk } } : State).wr TIM_PPSCAP0.ns s.timeBefore.2.2).wr
      TIM_PPSCAP1.sec_lo s.timeBefore.2.1).wr TIM_PPSCAP2.sec_hi (s.timeBefore.2.1 / 2 ^ 32))) ∧
  (∀ s : State, s.tim.before.1 ≠ s.clk → s.timeBefore = (s.clk, s.tim.sec, s.tim.ns)) ∧
  (∀ s t, s.tim.ppsAt = some t → s.clk < t + 500000000 → exec (.ppsEdge true) s = .next (s.inc TIM_PPSGLITCH.count)) ∧
  (∀ s, exec (.ppsEdge false) s = .next (s.inc TIM_PPSGLITCH.count)) ∧
  (∀ s m t, s.tim.ppsAt = some t → t + 10000000 ≤ s.clk → s.clk ≤ t + 900000000 → todOk m = true →
    let sec := beNat (sliceB m 3 6)
    let u := (s.wr TIM_TODSEC0.sec_lo sec).wr TIM_TODSEC1.sec_hi (sec / 2 ^ 32)
    exec (.todMessage m) s = .next ((((u.wrBit TIM_TODSTAT.leap (bitOf (leAt m 9 1) 1)).wrBit TIM_TODSTAT.valid (bitOf (leAt m 9 1) 0)).wr
      TIM_TODSTAT.utc_off (beNat (sliceB m 10 2))).goodPair sec)) ∧
  (∀ s m, (todOk m = false ∨ s.tim.ppsAt = none ∨ ∃ t, s.tim.ppsAt = some t ∧ (s.clk < t + 10000000 ∨ t + 900000000 < s.clk)) →
    exec (.todMessage m) s = .next (s.inc TIM_TODERR.count)) ∧
  (∀ s, (s.rd TIM_STAT.servo = 1 ∨ s.rd TIM_STAT.servo = 2) → s.tim.pairAt + 3000000000 ≤ s.clk →
    ∃ t, exec .servoHoldover s = .next t ∧ t.tim = { s.tim with goodRun := 0, badRun := 0 } ∧
      (s.regsOk = true → t.rd TIM_FREQ.adj = unsigned 32 s.tim.i ∧ t.rd TIM_STAT.servo = 3))

/-- Network time as host, pins and servo steer it. -/
def Obligations.NetworkTime : Prop := Claims.TimeSteering ∧ Claims.TimeInputs

/-- R601, for the counting of a nanosecond and for a step. -/
def Obligations.SecondTickWhenSecondsChange : Prop :=
  (∀ s : State, s.tick.tim.tickDue = (s.tim.tickDue || s.tick.tim.sec != s.tim.sec)) ∧
  (∀ (s : State) sec ns frac, (s.stepTo sec ns frac).tim.tickDue = (s.tim.tickDue || sec != s.tim.sec) ∧
    (s.stepTo sec ns frac).tim.sec = sec) ∧
  (∀ (s : State) sec ns frac, sec ≠ s.tim.sec → ((s.stepTo sec ns frac).tick).tim.tickDue = true)

/-- R600 for one nanosecond. -/
def Obligations.CounterAddsExactly : Prop :=
  ∀ s : State, s.pwr.clkLost = false → s.dies.feedA = true → s.timeOk = true → s.tim.sec < 2 ^ 48 →
    -25600000 ≤ s.freqAdj → s.freqAdj ≤ 25600000 → s.rd TIM_SLEWRATE.rate_ppm ≤ 1000 →
    let total (u : State) : Int := ((u.tim.sec * 10 ^ 9 + u.tim.ns : Nat) : Int) * fracNs + u.tim.frac
    s.tick.timeOk = true ∧ total s.tick = (total s + fracNs + s.freqAdj + s.slewPart) % (2 ^ 48 * 10 ^ 9 * fracNs) ∧
      s.tick.tim.slew = s.tim.slew - s.slewPart ∧ 0 < (fracNs : Int) + s.freqAdj + s.slewPart
/-! ### Dispatch, clusters and banks (02_packet_engines.md, 12_resilience.md) -/

namespace Sys2Proof.Claims
open Sys2Proof.Machine

/-- A packet's place in the order of its input: line-port packets take one, recycled ones do not (R261; log entry 22). -/
def ordered (s : State) (k : Packet) : Packet × State := if k.port < 128 then s.orderEnter (inKey k.port) k else (k, s)

/-- The flip bit is set and the other bank READY: the next dispatch flips (R93). -/
def flips (s : State) (c : Nat) : Bool :=
  s.bit (ENG_BANKCTL.flip c) && s.rd (bankState c (1 - s.rd (ENG_BANKCTL.live_bank c))) == 2

/-- The CRC window of a module is under way, or the one that has ended finds no lane of it bad (R30; the windows are the model's: log
entry 12). -/
def Quiet (s : State) (ft : Bool) (m : Nat) : Prop := (Tbl.get (0, 0) (s.dir ft).flitWin m).1 = s.clk / 1000000 ∨ (s.dir ft).crcBad m = []

/-- A direction after a flit has been heard on a module, whose CRC window counts it. -/
def heard (s : State) (ft : Bool) (m : Nat) : BridgeDir :=
  let d := s.dir ft
  let w := Tbl.get (0, 0) d.flitWin m
  let now := s.clk / 1000000
  if w.1 = now then { d with heardAt := s.clk, flitWin := Tbl.set (0, 0) d.flitWin m (w.1, w.2 + 1) }
  else { d with heardAt := s.clk, flitWin := Tbl.set (0, 0) d.flitWin m (now, 1), laneErr := d.laneErr.filter (fun e => e.1 / 68 != m) }

end Sys2Proof.Claims

/-- R82, over all clusters of the pipe and all logical slots of the cluster. -/
def Obligations.DispatchChoosesMostFree : Prop :=
  ∀ (s : State) pipe egress upsets k rest, Tbl.risingFrom 0 (if egress then s.eng.egressQ else s.eng.ingressQ) = true →
    (upsets = [] ∨ Tbl.risingFrom 0 s.eng.plies = true) →
    s.dispQ egress pipe = k :: rest → (∃ c, 6 * pipe ≤ c ∧ c < 6 * pipe + 6 ∧ s.takesPlies c (b2n egress) = true) →
    ∃ t p, exec (.plyDispatch pipe egress upsets) s = .next t ∧ t.ply s.eng.nextPly = some p ∧ t.dispQ egress pipe = rest ∧ p.egress = egress ∧
      (6 * pipe ≤ p.cluster ∧ p.cluster < 6 * pipe + 6 ∧ s.takesPlies p.cluster (b2n egress) = true ∧ p.slot ∈ s.openSlots p.cluster) ∧
      (∀ c, 6 * pipe ≤ c → c < 6 * pipe + 6 → s.takesPlies c (b2n egress) = true →
        s.pliesOf p.cluster (fun _ => true) ≤ s.pliesOf c (fun _ => true) ∧
        (c < p.cluster → s.pliesOf p.cluster (fun _ => true) < s.pliesOf c (fun _ => true))) ∧
      (∀ n ∈ s.openSlots p.cluster, s.pliesOf p.cluster (fun q => q.slot == p.slot) ≤ s.pliesOf p.cluster (fun q => q.slot == n) ∧
        (n < p.slot → s.pliesOf p.cluster (fun q => q.slot == p.slot) < s.pliesOf p.cluster (fun q => q.slot == n)))

/-- INGRESS_DISPATCH_ENQUEUE, EGRESS_DISPATCH_ENQUEUE and PLY_DISPATCH; the ids of an order are the model's own (log entry 22). -/
def Obligations.DispatchQueuesAndStart : Prop :=
  (∀ s pipe k rest, Tbl.get [] s.eng.arriving pipe = k :: rest →
    let u : State := { s with eng := { s.eng with arriving := Tbl.set [] s.eng.arriving pipe rest } }
    (4096 ≤ (s.dispQ false pipe).length → exec (.ingressDispatchEnqueue pipe) s = .next (u.inc (ENG_DISPDROP.count pipe))) ∧
    ((s.dispQ false pipe).length < 4096 →
      exec (.ingressDispatchEnqueue pipe) s = .next ((ordered u k).2.setDispQ false pipe (s.dispQ false pipe ++ [(ordered u k).1])))) ∧
  (∀ s pipe pre k rest, pipe < 4 → s.dies.tf.arrived = pre ++ k :: rest →
    (∀ x ∈ pre, x.outPort / 32 ≠ pipe ∧ x.outPort ≠ 128 + pipe) →
    let u := s.setDir false { s.dies.tf with arrived := pre ++ rest }
    (k.outPort = 128 + pipe →
      exec (.egressDispatchEnqueue pipe) s = .next { u with eng := { u.eng with arriving := Tbl.upd [] u.eng.arriving pipe (fun l =>
        l ++ [{ k with pipe := pipe, port := 128 + pipe, entry := 2, fwd := [], ord := 0, inj := none }]) } }) ∧
    (k.outPort / 32 = pipe → s.hasEgress pipe = false → exec (.egressDispatchEnqueue pipe) s = .next (u.inc (ENG_NOEGR.count pipe))) ∧
    (k.outPort / 32 = pipe → s.hasEgress pipe = true → 4096 ≤ (s.dispQ true pipe).length → exec (.egressDispatchEnqueue pipe) s = .next s) ∧
    (k.outPort / 32 = pipe → s.hasEgress pipe = true → (s.dispQ true pipe).length < 4096 →
      exec (.egressDispatchEnqueue pipe) s = .next ((u.orderEnter (outKey k.queue) k).2.setDispQ true pipe
        (s.dispQ true pipe ++ [{ (u.orderEnter (outKey k.queue) k).1 with pipe := pipe }])))) ∧
  (∀ s pipe egress upsets k rest c slot, s.regsOk = true → (upsets = [] ∨ Tbl.risingFrom 0 s.eng.plies = true) →
    s.dispQ egress pipe = k :: rest → s.dispatchTo pipe egress = some (c, slot) → s.rd (ENG_BANKCTL.live_bank c) < 2 →
    ∃ t p, exec (.plyDispatch pipe egress upsets) s = .next t ∧ t.ply s.eng.nextPly = some p ∧ p.cluster = c ∧ p.slot = slot ∧
      p.pc = (if egress then 1 else k.entry) ∧ p.tags = [] ∧ p.parked = [] ∧ p.bundles = 0 ∧ p.issue = none ∧ p.start = s.clk ∧
      (∀ i, i < k.bytes.length → i < 320 → p.slotByte (0xC0 + i) = (k.bytes[i]?).getD 0 % 256) ∧
      p.bank = (if flips s c then 1 - s.rd (ENG_BANKCTL.live_bank c) else s.rd (ENG_BANKCTL.live_bank c)) ∧
      (flips s c = true → t.rd (ENG_BANKCTL.live_bank c) = p.bank ∧ t.rd (bankState c p.bank) = 3 ∧ t.rd (ENG_BANKCTL.flip c) = 0))

/-- CALL_RESULT_WRITTEN, CONTEXT_WATCHDOG, ENGINE_WATCHDOG, CLUSTER_WATCHDOG and CLUSTER_RESET_DONE. -/
def Obligations.ResultsAndWatchdogs : Prop :=
  (∀ s n c r p, s.eng.calls.find? (fun e => e.1 == n) = some (n, c) → c.result = some r → s.ply c.ply = some p →
    let u : State := { s with eng := { s.eng with calls := Tbl.erase s.eng.calls n } }
    let q : Ply := { p with frame := putBytes p.frame (32 * c.tag) (sliceB r 0 32), tags := p.tags.filter (· != c.tag),
                            parked := p.parked.filter (· != c.tag) }
    (s.watchdogDue p = false → exec (.callResultWritten n) s = .next (u.setPly c.ply (match p.callRd with
      | some (rd, t) => if t = c.tag then { putReg q rd (BitVec.ofNat 64 (beNat (r.take 8))) with callRd := none } else q
      | none => q))) ∧
    (s.watchdogDue p = true → exec (.callResultWritten n) s = .next (u.plyFault c.ply 2 0))) ∧
  (∀ s n c r, s.eng.calls.find? (fun e => e.1 == n) = some (n, c) → c.result = some r → s.ply c.ply = none →
    let u : State := { s with eng := { s.eng with calls := Tbl.erase s.eng.calls n } }
    exec (.callResultWritten n) s = .next (if s.engEpoch c.cluster c.slot = c.epoch then u else u.inc SEAT_STALE_ENG.count)) ∧
  (∀ s k p, s.ply k = some p → p.start + s.rd (ENG_LIMITS.ctx_wd p.cluster) * 1000 ≤ s.clk →
    (s.clusterDue p.cluster = false → s.engineDue p.cluster p.slot = false → exec (.contextWatchdog k) s = .next (s.plyFault k 2 0)) ∧
    (s.clusterDue p.cluster = false → s.engineDue p.cluster p.slot = true →
      exec (.contextWatchdog k) s = .next ((s.inc (ENG_FLTCNT.count p.cluster 2)).engineDead p.cluster p.slot 2)) ∧
    (s.clusterDue p.cluster = true → exec (.contextWatchdog k) s = .next (s.clusterReset p.cluster))) ∧
  (∀ s c slot t, c < 24 → slot < 64 → Tbl.get 0 s.eng.givenAt (64 * c + slot) = t + 1 → t + s.rd SEAT_WDCFG.eng_wd_us * 1000 ≤ s.clk →
    (s.clusterDue c = false → exec (.engineWatchdog c slot) s = .next (s.engineDead c slot 2)) ∧
    (s.clusterDue c = true → exec (.engineWatchdog c slot) s = .next (s.clusterReset c))) ∧
  (∀ s c q, c < 24 → s.rd (ENG_CLSTAT.role_now c) = 0 → (s.cluster c).resetAt = none → Tbl.get 0 s.eng.queuedAt (2 * (c / 6)) = q + 1 →
    max (s.cluster c).progress q + s.rd SEAT_WDCFG.cl_wd_us * 1000 ≤ s.clk →
    exec (.clusterWatchdog c) s = .next (s.clusterReset c)) ∧
  (∀ s c q, c < 24 → s.rd (ENG_CLSTAT.role_now c) = 1 → (s.cluster c).resetAt = none → Tbl.get 0 s.eng.queuedAt (2 * (c / 6) + 1) = q + 1 →
    max (s.cluster c).progress q + s.rd SEAT_WDCFG.cl_wd_us * 1000 ≤ s.clk →
    exec (.clusterWatchdog c) s = .next (s.clusterReset c)) ∧
  (∀ s c t, (s.cluster c).resetAt = some t →
    exec (.clusterResetDone c) s = .next ((s.setCluster c { s.cluster c with resetAt := none, ended := 0, progress := s.clk }).post 0x0C09
      ([c, 0, 0, 0] ++ leBytes 4 (s.cluster c).ended)))

/-- ENG_CLROLE_WRITE, ENG_FLIP_REQUEST, ENG_CNTCLR, ROLE_DRAIN_END and BANK_DRAIN_END. -/
def Sys2Proof.Claims.RolesAndFlips : Prop :=
  (∀ s c role, FdOpen s → c < 24 → role < 3 → role ≠ s.rd (ENG_CLROLE.role c) → s.lastIngress c = true →
    exec (.engClroleWrite c role) s = .next (tagged s false (0x80004 + 0x1000 * c) (2 ^ 32 - 1) role (fun u => u.wr (ENG_CLSTAT.refused c) 1))) ∧
  (∀ s c role, FdOpen s → c < 24 → role < 3 → role ≠ s.rd (ENG_CLROLE.role c) → s.lastIngress c = false → Tbl.get 0 s.res.tests 1 = 0 →
    exec (.engClroleWrite c role) s = .next (tagged s false (0x80004 + 0x1000 * c) (2 ^ 32 - 1) role
      (fun u => (u.wr (ENG_CLROLE.role c) role).wr (ENG_CLSTAT.draining c) 1))) ∧
  (∀ s c, FdOpen s → c < 24 → s.rd (ENG_BANKCTL.live_bank c) < 2 → s.rd (bankState c (1 - s.rd (ENG_BANKCTL.live_bank c))) = 2 →
    (s.rd (bankState c (s.rd (ENG_BANKCTL.live_bank c))) = 3 → exec (.engFlipRequest c) s = .next (tagged s false (0x80010 + 0x1000 * c)
      (2 ^ 32 - 1) 256 (fun u => u.wr (ENG_BANKCTL.flip c) 1))) ∧
    (s.rd (bankState c (s.rd (ENG_BANKCTL.live_bank c))) ≠ 3 → exec (.engFlipRequest c) s = .next (tagged s false (0x80010 + 0x1000 * c)
      (2 ^ 32 - 1) 256 (fun u => (((u.wr (ENG_BANKCTL.flip c) 1).wr (ENG_BANKCTL.flip c) 0).wr
        (bankState c (1 - s.rd (ENG_BANKCTL.live_bank c))) 3).wr (ENG_BANKCTL.live_bank c) (1 - s.rd (ENG_BANKCTL.live_bank c)))))) ∧
  (∀ s c, FdOpen s → c < 24 → s.rd (bankState c (1 - s.rd (ENG_BANKCTL.live_bank c))) ≠ 2 →
    exec (.engFlipRequest c) s = .next (tagged s false (0x80010 + 0x1000 * c) (2 ^ 32 - 1) 256 id)) ∧
  (∀ s c, FdOpen s → s.regsOk = true → c < 24 → ∃ t, exec (.engCntclr c) s = .next t ∧ (∀ cause, cause < 10 → t.rd (ENG_FLTCNT.count c cause) = 0) ∧
    ∀ f : Fld, (∀ cause, cause < 10 → f.key ≠ (ENG_FLTCNT.count c cause).key) → t.rd f = s.rd f) ∧
  (∀ s c, s.bit (ENG_CLSTAT.draining c) = true → s.pliesOf c (fun _ => true) = 0 →
    exec (.roleDrainEnd c) s = .next (((s.wr (ENG_CLSTAT.draining c) 0).wr (ENG_CLSTAT.role_now c) (s.rd (ENG_CLROLE.role c))).post 0x0104
      [c, s.rd (ENG_CLROLE.role c)])) ∧
  (∀ s c, s.rd (bankState c 0) = 4 → s.pliesOf c (fun p => p.bank == 0) = 0 →
    exec (.bankDrainEnd c) s = .next ((s.wr (bankState c 0) 2).post 0x0103 [c, 0])) ∧
  (∀ s c, s.rd (bankState c 0) ≠ 4 → s.rd (bankState c 1) = 4 → s.pliesOf c (fun p => p.bank == 1) = 0 →
    exec (.bankDrainEnd c) s = .next ((s.wr (bankState c 1) 2).post 0x0103 [c, 1]))

/-- PROMOTION_DONE and SPARE_BACKGROUND_TEST. -/
def Sys2Proof.Claims.SparesAndPromotion : Prop :=
  (∀ s c slot, (s.cluster c).promoting.any (fun e => e.1 == slot) = true →
    let u := s.setCluster c { s.cluster c with promoting := (s.cluster c).promoting.filter (fun e => e.1 != slot) }
    (s.rd (ENG_SPARES.free c) = 0 → exec (.promotionDone c slot) s = .next ((u.wr (ENG_SLOTMAP.state c slot) 2).post 0x0106 [c, slot])) ∧
    (∀ n, s.rd (ENG_SPARES.free c) = n + 1 → Tbl.get 0 s.res.tests 0 = 0 →
      exec (.promotionDone c slot) s = .next ((((u.wr (ENG_SPARES.free c) n).wr (ENG_SLOTMAP.state c slot) 1).inc
        (ENG_SLOTMAP.promotions c slot)).post 0x0105 [c, slot, n]))) ∧
  (∀ s c n, c < 24 → s.rd (ENG_SPARES.free c) = n + 1 → Tbl.get 0 s.eng.spareTest c + 10000000000 ≤ s.clk →
    let u : State := { s with eng := { s.eng with spareTest := Tbl.set 0 s.eng.spareTest c s.clk } }
    exec (.spareBackgroundTest c true) s = .next u ∧
    exec (.spareBackgroundTest c false) s = .next ((u.wr (ENG_SPARES.free c) n).post 0x0107 [c, 0, n]))

/-- A cluster between its roles, its banks and its engines. -/
def Obligations.ClusterRolesAndSpares : Prop := Claims.RolesAndFlips ∧ Claims.SparesAndPromotion

/-! ### The bridge and the sideband (01_two_dies.md, 12_resilience.md) -/

/-- R24, R26 and R30 for FLIT_RECEIVE. -/
def Obligations.FlitsInOrderOnce : Prop :=
  (∀ s ft seq f, (s.dir ft).replay.find? (fun g => g.seq == seq) = some f → s.modState f.mod = 2 → s.bridgeUp = true → Quiet s ft f.mod →
    let d := heard s ft f.mod
    (seq = d.nextRx → seq < 2 ^ 32 → d.reorder = [] → exec (.flitReceive ft seq none) s = .next (f.msg.toList.foldl State.ctlArrive
      (s.setDir ft { d with nextRx := (seq + 1) % 2 ^ 32, ctlSeen := if f.control then d.ctlSeen + 1 else d.ctlSeen,
                            arrived := d.arrived ++ f.pkt.toList }))) ∧
    (0 < seqAhead seq d.nextRx → seqAhead seq d.nextRx < 2 ^ 31 → d.reorder.any (fun g => g.seq == seq) = false → d.reorder.length < 2048 →
      (d.reorder ++ [f]).find? (fun g => g.seq == d.nextRx) = none →
      exec (.flitReceive ft seq none) s = .next (s.setDir ft { d with reorder := d.reorder ++ [f] })) ∧
    (2 ^ 31 ≤ seqAhead seq d.nextRx → exec (.flitReceive ft seq none) s = .next (s.setDir ft d)) ∧
    (∀ lane, lane < 68 → exec (.flitReceive ft seq (some lane)) s =
      .next (s.setDir ft { d with laneErr := Tbl.upd 0 d.laneErr (68 * f.mod + lane) (· + 1) }))) ∧
  (∀ s ft f g, (s.dir ft).replay = [f, g] → f.seq < 2 ^ 32 - 1 → g.seq = f.seq + 1 → (s.dir ft).nextRx = f.seq → (s.dir ft).reorder = [] →
    f.msg = none → g.msg = none → s.modState f.mod = 2 → s.modState g.mod = 2 → s.bridgeUp = true → Tbl.risingFrom 0 (s.dir ft).flitWin = true →
    (Tbl.get (0, 0) (s.dir ft).flitWin f.mod).1 = s.clk / 1000000 → (Tbl.get (0, 0) (s.dir ft).flitWin g.mod).1 = s.clk / 1000000 →
    ∃ t u, exec (.flitReceive ft g.seq none) s = .next t ∧ (t.dir ft).arrived = (s.dir ft).arrived ∧
      exec (.flitReceive ft f.seq none) t = .next u ∧ (u.dir ft).arrived = (s.dir ft).arrived ++ f.pkt.toList ++ g.pkt.toList)

/-- FLIT_ACK, CONTROL_SHARE_WINDOW, BRIDGE_LANE_LOCK_LOSS, MODULE_REPAIR_DONE and MODULE_TRAINING_DONE. -/
def Sys2Proof.Claims.BridgeModules : Prop :=
  (∀ s ft seq i, (s.dir ft).replay.findIdx? (fun f => f.seq == seq) = some i → 0 < seqAhead (s.dir ft).nextRx seq →
    seqAhead (s.dir ft).nextRx seq < 2 ^ 31 →
    exec (.flitAck ft seq) s = .next ((s.setDir ft { s.dir ft with replay := (s.dir ft).replay.drop (i + 1) }).run ft)) ∧
  (∀ s, s.dies.ft.winAt + 1000 ≤ s.clk →
    exec .controlShareWindow s = .next ((({ s with dies := { s.dies with
      ft := { s.dies.ft with ctlBits := 0, winAt := s.clk }, tf := { s.dies.tf with ctlBits := 0, winAt := s.clk } } } : State).run true).run false)) ∧
  (∀ s ft m lane, m < 24 → lane < 68 → (s.dir ft).laneBad.contains (68 * m + lane) = false → (s.modState m = 2 ∨ s.modState m = 3) →
    let u := (s.inc D2D_LANEFAIL.count).setDir ft { s.dir ft with
      laneBad := insNat (68 * m + lane) (s.dir ft).laneBad, laneErr := Tbl.erase (s.dir ft).laneErr (68 * m + lane) }
    exec (.bridgeLaneLockLoss ft m lane) s = .next (if s.sparesTaken ft m < 4 then
      (u.setModul m { u.modul m with fixing := (u.modul m).fixing ++ [(if ft then 0 else 1, lane)] }).moduleOut m 3
      else (u.setModul m { u.modul m with fixing := [] }).moduleLost m 1)) ∧
  (∀ s m, m < 24 → s.modState m = 3 →
    let u := s.setModul m { s.modul m with fixing := [] }
    exec (.moduleRepairDone m true) s = .next ((s.modul m).fixing.foldl (fun t e => (t.addSat (spares (e.1 == 0) m) 1).postModule 0x0001
      [m, e.1, e.2]) (u.wr (D2D_MODSTAT.state m) 2)).modulesChanged ∧
    exec (.moduleRepairDone m false) s = .next (u.moduleLost m 2)) ∧
  (∀ s m, m < 24 → s.modState m = 1 →
    exec (.moduleTrainingDone m true) s =
      .next ((s.setModul m { s.modul m with attempts := 0 }).wr (D2D_MODSTAT.state m) 2).modulesChanged.trainEnd ∧
    ((s.modul m).attempts < 2 →
      exec (.moduleTrainingDone m false) s = .next (s.setModul m { s.modul m with attempts := (s.modul m).attempts + 1 })) ∧
    (2 ≤ (s.modul m).attempts →
      exec (.moduleTrainingDone m false) s = .next ((s.setModul m { s.modul m with attempts := 0 }).moduleLost m 2).trainEnd))

/-- BRIDGE_KEEPALIVE_SEND, BRIDGE_KEEPALIVE_EXPIRE, VOQ_HOLD_EXPIRE, AUTO_REJOIN, D2D_RETRAIN and REJOIN_STEP_COMPLETE. -/
def Sys2Proof.Claims.BridgeLossAndRejoin : Prop :=
  (∀ s ft m, m < 24 → s.modState m = 2 → s.bridgeUp = true → Tbl.get 0 (s.dir ft).sentAt m + 1000 ≤ s.clk →
    exec (.bridgeKeepaliveSend ft m) s =
      .next ((s.setDir ft { s.dir ft with sentAt := Tbl.set 0 (s.dir ft).sentAt m s.clk, heardAt := s.clk }).flitSeen ft m)) ∧
  (∀ s td, s.bit GEN_BOOTSTAT.ready = true → s.bridgeUp = true → (s.dir td).heardAt + s.rd D2D_CFG.ka_us * 1000 ≤ s.clk →
    exec (.bridgeKeepaliveExpire td) s = .next (s.bridgeLost (b2n td))) ∧
  (∀ s t, s.res.holdAt = some t → s.bridgeUp = false → t + s.rd D2D_ISLCFG.voq_hold_ms * 1000000 ≤ s.clk →
    exec .voqHoldExpire s = .next ((Tbl.keysWhere (fun k (q : Queue) => decide (2 ^ 20 ≤ k) && !q.ents.isEmpty) s.qm.queues).foldl
      (fun u k => u.flush k 0x12) { s with res := { s.res with holdAt := none } })) ∧
  (∀ s, s.bit D2D_CFG.auto_rejoin = true → s.rd D2D_STAT.bridge = 1 → max s.res.autoAt s.res.lostAt + 1000000000 ≤ s.clk →
    exec .autoRejoin s = .next (({ s with res := { s.res with autoAt := s.clk } } : State).retrain 0xFF)) ∧
  (∀ s m, Open s → m < 256 → s.bit D2D_CTL.retrain = false → exec (.d2dRetrain m) s = .next ((s.wr D2D_CTL.module m).retrain m)) ∧
  (∀ s, s.res.rejoin = 2 → (∀ m, m < 24 → s.modState m ≠ 1) →
    (s.rd D2D_CFG.min_modules ≤ s.activeMods.length → ∃ t, exec .rejoinStepComplete s = .next t ∧ t.res = { s.res with rejoin := 3 } ∧
      t = { s.wr D2D_CTL.retrain 0 with res := t.res }) ∧
    (s.activeMods.length < s.rd D2D_CFG.min_modules → exec .rejoinStepComplete s =
      .next (({ (s.wr D2D_CTL.retrain 0).wr D2D_STAT.bridge 1 with res := { s.res with rejoin := 0 } } : State).post 0x000A [s.activeMods.length]))) ∧
  (∀ s, s.res.rejoin = 3 → exec .rejoinStepComplete s = .next { s with res := { s.res with rejoin := 4 } }) ∧
  (∀ s, s.res.rejoin = 4 → exec .rejoinStepComplete s = .next s.rejoined)

/-- The bridge between the dies, from the training of its modules to its loss and its rejoining. -/
def Obligations.BridgeFromTrainingToRejoin : Prop := Claims.BridgeModules ∧ Claims.BridgeLossAndRejoin

/-- SIDEBAND_HEARTBEAT_SEND, SIDEBAND_MESSAGE_RECEIVE, SIDEBAND_LOST, SIDEBAND_RESTORED, SIDEBAND_RETRAIN and AUX_FEED_OUT_OF_RANGE. -/
def Obligations.SidebandAndFeeds : Prop :=
  (∀ s, s.dies.hbFdSent + 10000 ≤ s.clk → s.dies.toTd.length < 8 →
    exec (.sidebandHeartbeatSend true) s = .next { s with dies := { s.dies with hbFdSent := s.clk, toTd := s.dies.toTd ++ [.heartbeat] } }) ∧
  (∀ s, s.dies.hbTdSent + 10000 ≤ s.clk → s.dies.toFd.length < 8 →
    exec (.sidebandHeartbeatSend false) s = .next { s with dies := { s.dies with hbTdSent := s.clk, toFd := s.dies.toFd ++ [.heartbeat] } }) ∧
  (∀ s, s.rd D2D_STAT.sideband_up = 1 → (s.dies.hbFd + 50000 ≤ s.clk ∨ s.dies.hbTd + 50000 ≤ s.clk) →
    exec .sidebandLost s = .next ((({ s with dies := { s.dies with sbLost := true, hbSince := none, sbTrained := s.clk } } : State).wr
      D2D_STAT.sideband_up 0).post 0x0004 [])) ∧
  (∀ s, s.dies.sbLost = true → s.dies.sbTrained + 1000000 ≤ s.clk →
    exec .sidebandRetrain s = .next { s with dies := { s.dies with sbTrained := s.clk } }) ∧
  (∀ s t, s.dies.sbLost = true → s.dies.hbSince = some t → t + 1000000 ≤ s.clk →
    exec .sidebandRestored s = .next ((({ s with dies := { s.dies with sbLost := false, hbSince := none } } : State).wr
      D2D_STAT.sideband_up 1).post 0x0005 [])) ∧
  (∀ s tag a mask v rest, s.dies.toFd = .write tag a mask v false :: rest → s.bit D2D_STAT.sideband_up = true →
    let u : State := State.sbRefill { s with dies := { s.dies with toFd := rest } }
    (s.dies.tags.find? (fun e => e.1 == tag) = none →
      exec (.sidebandMessageReceive true true) s = .next ((u.regWrite .bar0 a mask v).tagDone tag 0)) ∧
    (∀ r, s.dies.tags.find? (fun e => e.1 == tag) = some (tag, r) →
      exec (.sidebandMessageReceive true true) s = .next { u with dies := { u.dies with sbResult := some (tag, r) } }) ∧
    exec (.sidebandMessageReceive true false) s = .next s) ∧
  (∀ s tag a part rest, s.dies.toFd = .read tag a false part :: rest → s.bit D2D_STAT.sideband_up = true →
    s.dies.tags.find? (fun e => e.1 == tag) = none →
    let x := (State.sbRefill { s with dies := { s.dies with toFd := rest } }).regRead .bar0 a
    exec (.sidebandMessageReceive true true) s = .next ((x.2.tagDone tag x.1).givesPart part x.1)) ∧
  (∀ s rest, s.dies.toTd = .heartbeat :: rest →
    exec (.sidebandMessageReceive false true) s = .next (State.hearBeat { s with dies := { s.dies with toTd := rest } } false)) ∧
  (∀ s, s.dies.feedA = true → s.dies.feedB = true →
    exec (.auxFeedOutOfRange false) s =
      .next ((({ s with dies := { s.dies with feedA := false } } : State).wr PWR_STAT.feed 1).post 0x0006 [1]) ∧
    exec (.auxFeedOutOfRange true) s = .next (({ s with dies := { s.dies with feedB := false } } : State).wr PWR_STAT.feed 0))
/-! ### Lookup tables, learning and their commands (03_lookup.md, 04_learning.md) -/

namespace Sys2Proof.Claims
open Sys2Proof.Machine

/-- The entry of length `l` is the longest prefix that covers the address (R124), and its word holds no uncorrectable error. -/
def Longest (s : State) (vrf fam6 v l : Nat) (e : FibEnt) : Prop :=
  l ≤ maxLen fam6 ∧ s.fibAt (fibKey vrf fam6 l v) = some e ∧ (∀ m, m ≤ maxLen fam6 → l < m → s.fibAt (fibKey vrf fam6 m v) = none) ∧
  (0, fibKey vrf fam6 l v) ∉ s.lkp.eccUnc

/-- Every key bit whose mask bit is 1 equals the value bit (R148). -/
def maskAgrees (key value mask : List Nat) : Prop :=
  ∀ (i k v m : Nat), key[i]? = some k → value[i]? = some v → mask[i]? = some m → ∀ n : Nat, m.testBit n = true → k.testBit n = v.testBit n

/-- A call of an accelerator, without a result yet, in whose key its presentation found no error. -/
def Asks (s : State) (accel call : Nat) (c : Call) : Prop := s.presented call accel = some c ∧ c.err = none

/-- The executor runs a descriptor of this opcode; the bridge carries traffic, its control class has room both ways, and DMA can be issued. -/
def Now (s : State) (op r : Nat) (t : Taken) : Prop :=
  s.running op = some (r, t) ∧ s.bridgeUp = true ∧ s.cmdFree = true ∧ s.dmaOk = true

/-- An access to the Forwarding Die has its tag, and its flit has crossed. -/
def crossed (s : State) : State := State.ctlNow { s with dies := { s.dies with nextTag := (s.dies.nextTag + 1) % 256 } } false 1

/-- A bulk descriptor of `total` entries once the effect of its next entry stands in `u`: one entry further, or DONE after the last. -/
def afterEntry (u : State) (r total : Nat) (t : Taken) : State :=
  if total ≤ t.progress + 1 then (u.stepEntry r).finish r { status := .done, detail := 0, progress := t.progress + 1 } else u.stepEntry r

/-- A field that a write of 1 clears, written with 0. -/
def untouched (f : Fld) (s : State) : State := s.wr f (s.rd f)

end Sys2Proof.Claims

/-- FIB_LOOKUP and TAIL_DESCENT; the tail pointers' place is the model's own (log entry 20). -/
def Obligations.FibReturnsLongestPrefix : Prop :=
  (∀ (s0 : State) ups call c vrf fam6 v, let s := s0.upset ups
    s.presented call 0 = some c → fibCallKey c = .inr (vrf, fam6, v) → s.tailRoot vrf fam6 v = none →
    (∀ l e, Longest s vrf fam6 v l e →
      exec (.fibLookup call ups) s0 = .next ((s.corrects [(0, fibKey vrf fam6 l v)]).answer call c (resultBytes stHIT 0 l e.route))) ∧
    ((∀ l, l ≤ maxLen fam6 → s.fibAt (fibKey vrf fam6 l v) = none) →
      exec (.fibLookup call ups) s0 = .next (s.answer call c (resultBytes stMISS 0 0 [])))) ∧
  (∀ (s0 : State) ups call c vrf fam6 v r, let s := s0.upset ups
    s.presented call 0 = some c → fibCallKey c = .inr (vrf, fam6, v) → s.tailRoot vrf fam6 v = some r →
    (∀ l e, s.lkp.hot.any (fun x => x.1 == r) = true → Longest s vrf fam6 v l e → exec (.fibLookup call ups) s0 =
      .next (((s.countBlock r).corrects [(0, fibKey vrf fam6 l v)]).answer call c (resultBytes stHIT 0 (l + 512) e.route))) ∧
    (s.lkp.hot.any (fun x => x.1 == r) = false →
      (c.select = 1 → exec (.fibLookup call ups) s0 = .next (s.answer call c (resultBytes stMISS 0 1024 []))) ∧
      (c.select ≠ 1 → s.lkp.xfibDown = true →
        exec (.fibLookup call ups) s0 = .next (s.answer call c (errorResult stTABLE_ERROR 0 rXFIB_DOWN))) ∧
      (c.select ≠ 1 → s.lkp.xfibDown = false → s.rd LKP_TAILCFG.depth ≤ (Tbl.get [] s.lkp.tailQ c.pipe).length →
        exec (.fibLookup call ups) s0 = .next (((s.inc (LKP_TAILOVL.count c.pipe)).answer call c
          (errorResult stTABLE_ERROR 0 rTAIL_OVERLOAD)).postRated 0x0203 c.pipe (ms 1) 1 (fun n => [c.pipe, 0, 0, 0] ++ leBytes 4 n))) ∧
      (c.select ≠ 1 → s.lkp.xfibDown = false → (Tbl.get [] s.lkp.tailQ c.pipe).length < s.rd LKP_TAILCFG.depth →
        ∃ t, exec (.fibLookup call ups) s0 = .next t ∧ Tbl.get [] t.lkp.tailQ c.pipe = Tbl.get [] s.lkp.tailQ c.pipe ++ [call] ∧
          t.callAt call = some { c with tail := true }))) ∧
  (∀ (s0 : State) ups pipe call rest c vrf fam6 v, let s := s0.upset ups
    Tbl.get [] s.lkp.tailQ pipe = call :: rest → s.callAt call = some c → fibCallKey c = .inr (vrf, fam6, v) →
    let u : State := { s with lkp := { s.lkp with tailQ := Tbl.set [] s.lkp.tailQ pipe rest } }
    (s.lkp.xfibDown = true → exec (.tailDescent pipe ups) s0 = .next (u.answer call c (errorResult stTABLE_ERROR 0 rXFIB_DOWN))) ∧
    (∀ l e, s.lkp.xfibDown = false → Longest s vrf fam6 v l e → exec (.tailDescent pipe ups) s0 =
      .next ((u.corrects [(0, fibKey vrf fam6 l v)]).answer call c (resultBytes stHIT 0 (l + 256) e.route))) ∧
    (s.lkp.xfibDown = false → (∀ l, l ≤ maxLen fam6 → s.fibAt (fibKey vrf fam6 l v) = none) →
      exec (.tailDescent pipe ups) s0 = .next (u.answer call c (resultBytes stMISS 0 0 [])))) ∧
  (∀ (s0 : State) ups call c e, let s := s0.upset ups
    s.presented call 0 = some c → fibCallKey c = .inl e →
    exec (.fibLookup call ups) s0 = .next (s.answer call c (errorResult stKEY_ERROR 0 e))) ∧
  (∀ vrf fam6 l v w, l ≤ 128 → v < 2 ^ 128 → w < 2 ^ 128 →
    (fibKey vrf fam6 l v = fibKey vrf fam6 l w ↔ v / 2 ^ (128 - l) = w / 2 ^ (128 - l))) ∧
  (∀ vrf vrf' fam6 fam6' l l' v w, fam6 < 2 → fam6' < 2 → l ≤ 128 → l' ≤ 128 → v < 2 ^ 128 → w < 2 ^ 128 →
    fibKey vrf fam6 l v = fibKey vrf' fam6' l' w → vrf = vrf' ∧ fam6 = fam6' ∧ l = l')

/-- R148, for TER_LOOKUP. -/
def Obligations.TerLowestPriority : Prop :=
  ∀ (s0 : State) ups call c, let s := s0.upset ups
    Tbl.risingFrom 0 s.lkp.ter = true → Asks s 2 call c →
    (∀ i e, s.terAt i = some e → e.profile = c.select → maskAgrees c.key e.value e.mask → (3, i) ∉ s.lkp.eccUnc →
      (∀ j x, s.terAt j = some x → x.profile = c.select → maskAgrees c.key x.value x.mask → e.prio < x.prio ∨ (e.prio = x.prio ∧ i ≤ j)) →
      exec (.terLookup call ups) s0 = .next ((s.corrects [(3, i)]).answer call c (resultBytes stHIT 2 (i + e.prio * 2 ^ 17) e.data))) ∧
    ((∀ j x, s.terAt j = some x → x.profile = c.select → ¬ maskAgrees c.key x.value x.mask) →
      exec (.terLookup call ups) s0 = .next (s.answer call c (resultBytes stMISS 2 0 [])))

/-- EM_LOOKUP, TER_LOOKUP, ADJ_READ and CNT_POST; log entries 10 and 91 name the model's choices. -/
def Obligations.TableCalls : Prop :=
  (∀ (s0 : State) ups call c, let s := s0.upset ups
    Asks s 1 call c → s.rd (LKP_EMCFG.enable c.select) ≠ 0 →
    let ws := s.emWords c.select c.pipe c.key
    let u := s.corrects ws
    (s.touchBad ws = true → exec (.emLookup call ups) s0 = .next (u.answer call c (errorResult stTABLE_ERROR 1 rECC))) ∧
    (s.touchBad ws = false → s.emFind c.select c.pipe c.key = none →
      exec (.emLookup call ups) s0 = .next (u.answer call c (resultBytes stMISS 1 0 []))) ∧
    (∀ e b ps, s.touchBad ws = false → s.emFind c.select c.pipe c.key = some (e, .bucket b ps) →
      exec (.emLookup call ups) s0 = .next (u.answer call c (resultBytes stHIT 1 0 e.data))) ∧
    (∀ e n b, s.touchBad ws = false → s.emFind c.select c.pipe c.key = some (e, .overflow n b) →
      exec (.emLookup call ups) s0 = .next (u.answer call c (resultBytes stHIT 1 1 e.data)))) ∧
  (∀ (s0 : State) ups call c, let s := s0.upset ups
    s.presented call 5 = some c → c.select = 0 → c.key.length = 8 →
    let i := bitsAt (beNat c.key) 0 21
    let u := s.corrects [(4, i)]
    ((4, i) ∈ s.lkp.eccUnc → exec (.adjRead call ups) s0 = .next (u.answer call c (errorResult stTABLE_ERROR 5 rECC))) ∧
    ((4, i) ∉ s.lkp.eccUnc →
      ((s.adjAt i).st = .free → (s.adjAt i).gone = none → exec (.adjRead call ups) s0 = .next (u.answer call c (resultBytes stMISS 5 0 []))) ∧
      (∀ t d, (s.adjAt i).st = .free → (s.adjAt i).gone = some (t, d) →
        (t < c.at_ → exec (.adjRead call ups) s0 = .next (u.answer call c (resultBytes stMISS 5 0 []))) ∧
        (c.at_ ≤ t → exec (.adjRead call ups) s0 = .next (u.answer call c (resultBytes stRETIRED 5 (s.adjAt i).version d)))) ∧
      ((s.adjAt i).st = .valid →
        exec (.adjRead call ups) s0 = .next (u.answer call c (resultBytes stHIT 5 (s.adjAt i).version (s.adjAt i).data))) ∧
      ((s.adjAt i).st = .retiring →
        exec (.adjRead call ups) s0 = .next (u.answer call c (resultBytes stRETIRED 5 (s.adjAt i).version (s.adjAt i).data))))) ∧
  (∀ s call c, s.presented call 4 = some c →
    let u : State := { s with eng := { s.eng with calls := Tbl.erase s.eng.calls call } }
    (c.key.length = 8 → c.select = 0 →
      exec (.cntPost call) s = .next (u.cntAdd true (bitsAt (beNat c.key) 38 26) 1 (bitsAt (beNat c.key) 0 16))) ∧
    (c.key.length ≠ 8 ∨ c.select ≠ 0 → exec (.cntPost call) s = .next (u.inc LKP_CNTERR.count))) ∧
  (∀ (s0 : State) ups call c, let s := s0.upset ups
    (∀ r, s.presented call 1 = some c → c.err = some r →
      exec (.emLookup call ups) s0 = .next (s.answer call c (errorResult stKEY_ERROR 1 r))) ∧
    (Asks s 1 call c → s.rd (LKP_EMCFG.enable c.select) = 0 →
      exec (.emLookup call ups) s0 = .next (s.answer call c (errorResult stKEY_ERROR 1 rSELECT))) ∧
    (∀ r, s.presented call 2 = some c → c.err = some r →
      exec (.terLookup call ups) s0 = .next (s.answer call c (errorResult stKEY_ERROR 2 r))) ∧
    (s.presented call 5 = some c → c.key = [] →
      exec (.adjRead call ups) s0 = .next (s.answer call c (errorResult stKEY_ERROR 5 rADDRESS))) ∧
    (s.presented call 5 = some c → c.key ≠ [] → c.select ≠ 0 →
      exec (.adjRead call ups) s0 = .next (s.answer call c (errorResult stKEY_ERROR 5 rSELECT))) ∧
    (s.presented call 5 = some c → c.key ≠ [] → c.select = 0 → c.key.length ≠ 8 →
      exec (.adjRead call ups) s0 = .next (s.answer call c (errorResult stKEY_ERROR 5 rKEYLEN)))) ∧
  (∀ (s : State) select key,
    (key = [] → s.tableErr 1 select key = some rADDRESS ∧ s.tableErr 2 select key = some rADDRESS ∧ s.tableErr 6 select key = some rADDRESS) ∧
    (key ≠ [] → (s.rd (LKP_EMCFG.enable select) ≠ 1 → s.tableErr 1 select key = some rSELECT) ∧
      (8 ≤ select ∨ s.rd (LKP_TERPROF.enable select) ≠ 1 → s.tableErr 2 select key = some rSELECT) ∧
      (s.bridgeTable ≠ some select → s.tableErr 6 select key = some rSELECT)) ∧
    (key ≠ [] → key.length ≠ s.emKeyBytes select → s.rd (LKP_EMCFG.enable select) = 1 → s.tableErr 1 select key = some rKEYLEN))

/-- BRG_LOOKUP, NOTICE_BATCH_HOLD_EXPIRE, SWEEP_VISIT, BRG_ENABLE_WRITE and AGE_PERIOD_WRITE. -/
def Obligations.BridgingAndAging : Prop :=
  (∀ (s0 : State) ups call c, let s := s0.upset ups
    Asks s 6 call c → s.sightTurn c = true → s.rd (LKP_EMCFG.enable c.select) ≠ 0 →
    let wd := s.emWords c.select c.pipe (sliceB c.key 0 8)
    let ws := s.emWords c.select c.pipe (sliceB c.key 0 2 ++ sliceB c.key 8 6)
    let u := s.corrects (wd ++ ws)
    let x := u.sight c.select c.pipe (beNat (sliceB c.key 0 2)) (sliceB c.key 8 6) (beNat (sliceB c.key 14 2)) c.length
    (s.touchBad ws = true → exec (.brgLookup call ups) s0 = .next (u.answer call c (errorResult stTABLE_ERROR 6 rECC))) ∧
    (s.touchBad wd = true → s.touchBad ws = false →
      exec (.brgLookup call ups) s0 = .next (x.2.answer call c (errorResult stTABLE_ERROR 6 rECC))) ∧
    (s.touchBad wd = false → s.touchBad ws = false → s.emFind c.select c.pipe (sliceB c.key 0 8) = none →
      exec (.brgLookup call ups) s0 = .next (x.2.answer call c (resultBytes stMISS 6 x.1 []))) ∧
    (∀ e pl, s.touchBad wd = false → s.touchBad ws = false → s.emFind c.select c.pipe (sliceB c.key 0 8) = some (e, pl) →
      exec (.brgLookup call ups) s0 = .next (x.2.answer call c (resultBytes stHIT 6 (x.1 + b2n (brStatic e.data) * 4) e.data)))) ∧
  (∀ (s0 : State) ups call c, let s := s0.upset ups
    s.presented call 6 = some c → s.sightTurn c = true → ∀ r, c.err = some r →
      exec (.brgLookup call ups) s0 = .next (s.answer call c (errorResult stKEY_ERROR 6 r))) ∧
  (∀ (s : State) t p dom mac port len, s.emFind t p (beBytes 2 dom ++ mac) = none →
    ((s.domCfg dom).1 = false ∨ port = 0xFFFF → s.sight t p dom mac port len = (0, s)) ∧
    ((s.domCfg dom).1 = true → port ≠ 0xFFFF → (s.domCfg dom).2 ≠ 0 → (s.domCfg dom).2 ≤ s.domIn t p dom →
      s.sight t p dom mac port len = (3, s.learnFail p dom len true)) ∧
    ((s.domCfg dom).1 = true → port ≠ 0xFFFF → ((s.domCfg dom).2 = 0 ∨ s.domIn t p dom < (s.domCfg dom).2) →
      ∀ u, s.emPlace t p { table := t, key := beBytes 2 dom ++ mac, data := beBytes 2 port ++ [48] ++ List.replicate 13 0 } = some u →
        s.sight t p dom mac port len = (1, (u.inc (BRG_LEARNED.count p)).notice p dom mac port 0 1))) ∧
  (∀ (s : State) t p dom mac port len e pl, s.emFind t p (beBytes 2 dom ++ mac) = some (e, pl) → brStatic e.data = false →
    (let d := brWith e.data port (brFrozen e.data) 3 (brMoves e.data) (brStamp e.data)
     brPort e.data = port → s.sight t p dom mac port len = (0, s.emRewrite pl { e with data := d })) ∧
    (brPort e.data ≠ port → brFrozen e.data = false → (s.domCfg dom).1 = true → port ≠ 0xFFFF → (s.sight t p dom mac port len).1 = 2)) ∧
  (∀ s pipe t b rest, s.notices pipe = (t, b) :: rest → t + s.rd BRG_LEARNCFG.hold_us * 1000 ≤ s.clk →
    exec (.noticeBatchHoldExpire pipe) s = .next (s.postBatch pipe (min s.batchLimit (rest.length + 1)))) ∧
  (∀ s pipe t, s.bridgeTable = some t →
    let w := s.nextSweep t pipe
    w.sweepDue t pipe = true →
    let x := w.sweep pipe
    let b := w.emRegion t pipe + x.bucket
    let u := (([0, 1, 2, 3].filterMap (w.emPos b)).map (·.key) ++ ((w.ovfStore pipe).filter (fun o => o.bucket == b)).map (·.ent.key)).foldl
      (fun s k => s.sweepEntry t pipe k) w
    exec (.sweepVisit pipe) s = .next (u.setSweep pipe { x with bucket := x.bucket + 1 })) ∧
  (∀ (s : State) t p, ((s.sweep p).bucket < s.emBuckets t ∨ (s.sweep p).on = false → s.nextSweep t p = s) ∧
    ((s.sweep p).on = true → s.emBuckets t ≤ (s.sweep p).bucket → (s.sweep p).start + (s.sweep p).period * 10 ^ 9 ≤ s.clk →
      (s.nextSweep t p).sweep p = { on := true, start := (s.sweep p).start + (s.sweep p).period * 10 ^ 9,
                                    period := s.rd BRG_AGECFG.period_s, bucket := 0 })) ∧
  (∀ (s : State) t p key e pl, s.emFind t p key = some (e, pl) → s.touchBad pl.words = false → brStatic e.data = false →
    (brAge e.data = 0 → s.sweepEntry t p key =
      ((s.inc (BRG_AGED.count p)).emFreeAt pl).notice p (beNat (key.take 2)) (sliceB key 2 6) (brPort e.data) 0 3) ∧
    (∀ a, brAge e.data = a + 1 → brFrozen e.data = false →
      let d := brWith e.data (brPort e.data) false a (brMoves e.data) (brStamp e.data)
      s.sweepEntry t p key = s.emRewrite pl { e with data := d })) ∧
  (∀ s t, FdOpen s → s.regsOk = true → t < 64 → s.rd BRG_CFG.enable = 0 →
    (s.rd (LKP_EMCFG.enable t) = 1 → s.rd (LKP_EMCFG.scope t) = 1 → s.rd (LKP_EMCFG.keylen t) = 0 → s.rd BRG_AGECFG.period_s ≠ 0 →
      exec (.brgEnableWrite (64 + t)) s = .next (tagged s false 0x140000 (2 ^ 32 - 1) (64 + t)
        (fun u => ((u.wr BRG_CFG.enable 1).wr BRG_CFG.table t).startSweeps))) ∧
    (s.rd (LKP_EMCFG.enable t) = 0 ∨ s.rd (LKP_EMCFG.scope t) = 0 ∨ s.rd (LKP_EMCFG.keylen t) ≠ 0 →
      exec (.brgEnableWrite (64 + t)) s = .next (tagged s false 0x140000 (2 ^ 32 - 1) (64 + t) (fun u => u.wr BRG_STAT.refused 1)))) ∧
  (∀ s, FdOpen s → ∃ t, exec (.agePeriodWrite 0) s = .next t ∧ t.brg.sweeps = []) ∧
  (∀ s n, FdOpen s → 0 < n → n < 65536 → s.rd BRG_AGECFG.period_s ≠ 0 → s.bridgeTable = none →
    exec (.agePeriodWrite n) s = .next (tagged s false 0x140004 (2 ^ 32 - 1) n (fun u => u.wr BRG_AGECFG.period_s n))) ∧
  (∀ s n t, FdOpen s → s.regsOk = true → 0 < n → n < 65536 → s.rd BRG_AGECFG.period_s ≠ 0 → s.bridgeTable = some t →
    (∀ p, p < 4 → (s.sweep p).bucket < s.emBuckets t) →
    ∃ v, exec (.agePeriodWrite n) s = .next v ∧ v.rd BRG_AGECFG.period_s = n ∧ v.brg.sweeps = s.brg.sweeps)

/-- XFIB_ENABLE, XFIB_DISABLE, XFIB_DISABLE_DONE, HOT_PERIOD_END, HOT_COPY_DONE, HOT_UNITS_WRITE and HOT_UNITS_MOVE_DONE; log entry 20. -/
def Obligations.ExtendedFib : Prop :=
  (∀ s, FdOpen s → s.regsOk = true → s.rd LKP_XFIBCFG.enable = 0 →
    (s.lkp.fib = [] → s.tableChans ≠ 0 → exec .xfibEnable s = .next (tagged s false 0x100004 (2 ^ 32 - 1) 1 (fun u =>
      ((untouched LKP_XFIBCFG.refused u).wr LKP_XFIBCFG.enable 1).wr LKP_XFIBCFG.channels s.tableChans))) ∧
    (s.lkp.fib ≠ [] ∨ s.tableChans = 0 → exec .xfibEnable s = .next (tagged s false 0x100004 (2 ^ 32 - 1) 1 (fun u =>
      (untouched LKP_XFIBCFG.refused u).wr LKP_XFIBCFG.refused 1)))) ∧
  (∀ s, FdOpen s → s.regsOk = true → s.rd LKP_XFIBCFG.enable = 1 → s.lkp.xfibOff = false →
    (s.lkp.xfibDown = true → ∃ t, exec .xfibDisable s = .next t ∧ t.lkp.fib = [] ∧ t.lkp.hot = [] ∧ t.lkp.xfibDown = false ∧
      t.rd LKP_XFIBCFG.enable = 0) ∧
    (s.lkp.xfibDown = false → s.lkp.fib.foldl (fun a e => a + fibUnits e.1) 0 ≤ s.placement →
      ∃ t, exec .xfibDisable s = .next t ∧ t.lkp.xfibOff = true ∧ t.lkp.hot = [] ∧ t.lkp.fib = s.lkp.fib) ∧
    (s.lkp.xfibDown = false → s.placement < s.lkp.fib.foldl (fun a e => a + fibUnits e.1) 0 →
      exec .xfibDisable s = .next (tagged s false 0x100004 (2 ^ 32 - 1) 0 (fun u =>
        (untouched LKP_XFIBCFG.refused u).wr LKP_XFIBCFG.refused 1)))) ∧
  (∀ s, s.regsOk = true → s.lkp.xfibOff = true → ∃ t, exec .xfibDisableDone s = .next t ∧ t.lkp.xfibOff = false ∧ t.rd LKP_XFIBCFG.enable = 0 ∧
    (s.lkp.xfibDown = false → t.lkp.fib = s.lkp.fib.map (fun e => (e.1, e.2.map (fun x => { x with tailed := false })))) ∧
    (s.lkp.xfibDown = true → t.lkp.fib = [])) ∧
  (∀ s, s.rd LKP_FIBCFG.hot_units ≠ 0 → s.bit LKP_XFIBCFG.enable = true → s.lkp.hotAt + s.rd LKP_HOTCFG.period * 1000000 ≤ s.clk →
    ∃ t, exec .hotPeriodEnd s = .next t ∧ t.lkp.hotCount = [] ∧ t.lkp.hotAt = s.clk ∧ t.lkp.hotWork.length ≤ s.lkp.hotWork.length + 4096 ∧
      ∀ e ∈ t.lkp.hotWork, e ∈ s.lkp.hotWork ∨ (e ∈ s.lkp.hotCount ∧ s.rd LKP_HOTCFG.threshold ≤ e.2 ∧ ∀ x ∈ s.lkp.hot, x.1 ≠ e.1)) ∧
  (∀ s root n, s.lkp.hotWork.find? (fun e => e.1 == root) = some (root, n) →
    let l : Lkp := { s.lkp with hotWork := Tbl.erase s.lkp.hotWork root, hot := Tbl.ins root n s.lkp.hot }
    exec (.hotCopyDone root) s = .next (({ s with lkp := l } : State).inc LKP_HOTCOPY.count).fibCount) ∧
  (∀ s v, FdOpen s → s.lkp.hot = [] → s.lkp.hotWork = [] → v ≤ 2097152 →
    let u := (crossed s).fibCount
    (u.rd LKP_FIBUSE.units ≤ 6291456 - v → exec (.hotUnitsWrite v) s = .next (tagged s false 0x100000 (2 ^ 32 - 1) v (fun u =>
      ({ u.fibCount with lkp := { u.fibCount.lkp with hotWrite := none } }.wr LKP_FIBCFG.hot_units v).fibCount))) ∧
    (6291456 - v < u.rd LKP_FIBUSE.units → u.bit LKP_XFIBCFG.enable = true → exec (.hotUnitsWrite v) s =
      .next (tagged s false 0x100000 (2 ^ 32 - 1) v (fun u => { u.fibCount with lkp := { u.fibCount.lkp with hotWrite := some v } }))) ∧
    (6291456 - v < u.rd LKP_FIBUSE.units → u.bit LKP_XFIBCFG.enable = false → exec (.hotUnitsWrite v) s =
      .next (tagged s false 0x100000 (2 ^ 32 - 1) v (fun u => u.fibCount.wr LKP_XFIBCFG.refused 1)))) ∧
  (∀ s v, s.lkp.hotWrite = some v → s.bit LKP_XFIBCFG.enable = true → s.lkp.xfibOff = false →
    ∃ t, exec .hotUnitsMoveDone s = .next t ∧ t.lkp.hotWrite = none ∧
      t.lkp.fib = (tailLast (6291456 - v) s.lkp.fib.reverse (s.rd LKP_FIBUSE.units)).reverse ∧
      (s.regsOk = true → v < 2 ^ 22 → t.rd LKP_FIBCFG.hot_units = v))

/-- EM_TABLE_ENABLE, EM_TABLE_DISABLE, EM_CLEAR_DONE, ADJ_RETIRE_EXPIRE, TABLE_SCRUB and PARSER_FLIP_COMPLETE; log entry 91. -/
def Obligations.TableUpkeep : Prop :=
  (∀ s t scope keylen bits, FdOpen s → t < 64 → s.rd (LKP_EMCFG.enable t) = 0 → scope < 2 → keylen < 3 → 10 ≤ bits → bits ≤ 20 →
    let v := 2 ^ 31 + scope * 2 ^ 30 + keylen * 2 ^ 28 + bits
    (s.rd LKP_EMSTAT.clearing = 0 → s.emRoom t (s.rd (LKP_EMBASE.base t)) scope bits = true →
      exec (.emTableEnable t v) s = .next (tagged s false (0x100100 + 8 * t) (2 ^ 32 - 1) v (fun u =>
        (((u.wr (LKP_EMCFG.enable t) 1).wr (LKP_EMCFG.scope t) scope).wr (LKP_EMCFG.keylen t) keylen).wr (LKP_EMCFG.bucket_bits t) bits))) ∧
    (s.rd LKP_EMSTAT.clearing ≠ 0 ∨ s.emRoom t (s.rd (LKP_EMBASE.base t)) scope bits = false →
      exec (.emTableEnable t v) s = .next (tagged s false (0x100100 + 8 * t) (2 ^ 32 - 1) v (fun u => u.wr LKP_EMSTAT.refused 1)))) ∧
  (∀ s t v k e, FdOpen s → s.regsOk = true → t < 64 → v < 2 ^ 31 → s.rd (LKP_EMCFG.enable t) = 1 → s.bridgeTable ≠ some t →
    (k, some e) ∈ s.lkp.em → e.table = t → ∃ u, exec (.emTableDisable t v) s = .next u ∧ u.rd (LKP_EMCFG.enable t) = 0 ∧
      t ∈ u.lkp.clearing ∧ u.rd LKP_EMSTAT.clearing = 1 ∧ u.lkp.em = s.lkp.em) ∧
  (∀ s t v, FdOpen s → t < 64 → v < 2 ^ 31 → s.rd (LKP_EMCFG.enable t) = 1 → s.bridgeTable = some t →
    exec (.emTableDisable t v) s = .next (tagged s false (0x100100 + 8 * t) (2 ^ 32 - 1) v (fun u => u.wr LKP_EMSTAT.refused 1))) ∧
  (∀ s n, s.lkp.clearing ≠ [] → s.dirtyBuckets = [] →
    exec (.emClearDone (n + 1)) s = .next (({ s with lkp := { s.lkp with clearing := [] } } : State).wr LKP_EMSTAT.clearing 0)) ∧
  (∀ s b, s.lkp.clearing ≠ [] → b ∈ s.dirtyBuckets → (∀ x ∈ s.dirtyBuckets, b ≤ x) →
    let u := s.freeBucket b
    (u.dirtyBuckets ≠ [] → exec (.emClearDone 1) s = .next u) ∧
    (u.dirtyBuckets = [] →
      exec (.emClearDone 1) s = .next (({ u with lkp := { u.lkp with clearing := [] } } : State).wr LKP_EMSTAT.clearing 0))) ∧
  (∀ (s : State) b k e, (k, some e) ∈ (s.freeBucket b).lkp.em ↔ ((k, some e) ∈ s.lkp.em ∧ ¬ (k / 4 = b ∧ e.table ∈ s.lkp.clearing))) ∧
  (∀ (s : State) b p o, p < 4 → (o ∈ (s.freeBucket b).ovfStore p ↔ (o ∈ s.ovfStore p ∧ ¬ (o.bucket = b ∧ o.ent.table ∈ s.lkp.clearing)))) ∧
  (∀ s i, (s.adjAt i).st = .retiring → (s.adjAt i).due ≤ s.clk → exec (.adjRetireExpire i) s =
    .next ((((s.wordWritten 4 i).setAdj i { version := (s.adjAt i).version, gone := some (s.clk, (s.adjAt i).data) }).wr LKP_RETIRECNT.entries
      (s.rd LKP_RETIRECNT.entries - 1)).post 0x0201 (leBytes 4 i ++ leBytes 2 (s.adjAt i).version))) ∧
  (∀ (s0 : State) table i ups, let s := s0.upset ups
    let a := s.wordIndex table i
    let onDie := s.bit LKP_XFIBCFG.enable && !s.lkp.xfibDown && s.onDieWord i
    (table, i) ∈ s.lkp.eccUnc →
    (table ≠ 0 ∨ onDie = false →
      exec (.tableScrub table i ups none) s0 =
        .next (((s.inc LKP_ECCUNC.count).post 0x0206 ([table, 0, 0, 0] ++ leBytes 4 a)).weakRow 4 0xFF a)) ∧
    (table = 0 → onDie = true → exec (.tableScrub table i ups none) s0 =
      .next (((({ s with lkp := { s.lkp with eccUnc := s.lkp.eccUnc.filter (· != (0, i)) } } : State).inc LKP_ECCUNC.count).post 0x0206
        ([0, 1, 0, 0] ++ leBytes 4 a)).weakRow 4 0xFF a))) ∧
  (∀ (s0 : State) table i ups, let s := s0.upset ups
    s.regsOk = true → (table, i) ∉ s.lkp.eccUnc → (table, i) ∈ s.lkp.eccCor → s.rd LKP_ECCCOR.count + 1 < 2 ^ 32 →
    ∃ t, exec (.tableScrub table i ups none) s0 = .next t ∧ (table, i) ∉ t.lkp.eccCor ∧ t.rd LKP_ECCCOR.count = s.rd LKP_ECCCOR.count + 1) ∧
  (∀ s table i ups array c row unc cells, exec (.tableScrub table i ups (some (array, c, row, unc, cells))) s =
    .next (s.scrubSram array c row unc cells)) ∧
  (∀ (s : State) array c row cells, array < 3 → c < 24 → s.scrubSram array c row true cells = s.weakRow array c row) ∧
  (∀ s, s.lkp.flipping = true → exec .parserFlipComplete s =
    .next (({ s with lkp := { s.lkp with flipping := false } } : State).post 0x0202 [s.rd LKP_PARSECTL.live_bank]))

/-- The shared operations behind FIB_INSERT, FIB_DELETE, EM_INSERT, TER_WRITE, TER_DELETE, ADJ_WRITE and ADJ_DELETE. -/
def Obligations.TableWritesAreSeen : Prop :=
  (∀ (s : State) vrf fam len pfx route mode,
    let fam6 := if fam = 6 then 1 else 0
    let k := fibKey vrf fam6 len (addrBits fam6 pfx)
    let x := s.fibInsert vrf fam len pfx route mode
    (x.1 ≠ 0 → x.2 = s) ∧ (x.1 = 0 → (x.2.fibAt k).map (·.route) = some route ∧
      ∀ j, j ≠ k → (x.2.fibAt j).map (·.route) = (s.fibAt j).map (·.route))) ∧
  (∀ (s : State) vrf fam len pfx, Tbl.risingFrom 0 s.lkp.fib = true →
    let fam6 := if fam = 6 then 1 else 0
    let k := fibKey vrf fam6 len (addrBits fam6 pfx)
    let x := s.fibDelete vrf fam len pfx
    (x.1 ≠ 0 → x.2 = s) ∧ (x.1 = 0 → x.2.fibAt k = none ∧ ∀ j, j ≠ k → x.2.fibAt j = s.fibAt j)) ∧
  (∀ (s : State) t p key data mode, p < 4 →
    let x := s.emInsert t p key data mode
    (x.1 ≠ 0 → x.2 = s) ∧ (x.1 = 0 → ∃ e pl, x.2.emFind t p key = some (e, pl) ∧ e.key = key ∧
      e.data = if s.bridgeTable = some t then bridgeHostData data else data)) ∧
  (∀ (s : State) profile i prio value mask data,
    let x := s.terWrite profile i prio value mask data
    (x.1 ≠ 0 → x.2 = s) ∧ (x.1 = 0 → x.2.terAt i = some ⟨profile, value, mask, prio, data⟩ ∧ ∀ j, j ≠ i → x.2.terAt j = s.terAt j)) ∧
  (∀ (s : State) i, Tbl.risingFrom 0 s.lkp.ter = true →
    let x := s.terDelete i
    (x.1 ≠ 0 → x.2 = s) ∧ (x.1 = 0 → x.2.terAt i = none ∧ ∀ j, j ≠ i → x.2.terAt j = s.terAt j)) ∧
  (∀ (s : State) i data,
    let x := s.adjWrite i data
    (x.1 ≠ 0 → x.2 = s) ∧ (x.1 = 0 → x.2.adjAt i = { st := .valid, data := data, version := ((s.adjAt i).version + 1) % 65536, due := 0 } ∧
      ∀ j, j ≠ i → x.2.adjAt j = s.adjAt j)) ∧
  (∀ (s : State) i,
    let x := s.adjDelete i
    (x.1 ≠ 0 → x.2 = s) ∧ (x.1 = 0 → x.2.adjAt i = { s.adjAt i with st := .retiring, due := s.clk + s.rd LKP_RETIRE.time_ms * 1000000 } ∧
      ∀ j, j ≠ i → x.2.adjAt j = s.adjAt j))

/-- FIB_INSERT, FIB_DELETE, FIB_BULK, FIB_DUMP, EM_INSERT, EM_DELETE, EM_BULK, EM_DUMP, TER_WRITE, TER_DELETE, ADJ_WRITE, ADJ_DELETE, PARSER_LOAD,
PARSER_FLIP and TABLE_READ; log entry 12 for the crossing. -/
def Obligations.LookupCommands : Prop :=
  (∀ s r t, s.lkp.xfibOff = false →
    let w := s.cmdCross
    (Now s 0x20 r t → exec .fibInsert s =
      let x := w.fibInsert (t.f 16 2) (t.f 18 1) (t.f 19 1) (sliceB t.desc 24 16) (sliceB t.desc 40 16) (t.f 20 1); .next (x.2.finWith r x.1)) ∧
    (Now s 0x21 r t → exec .fibDelete s =
      let x := w.fibDelete (t.f 16 2) (t.f 18 1) (t.f 19 1) (sliceB t.desc 24 16); .next (x.2.finWith r x.1)) ∧
    (Now s 0x22 r t → t.progress < t.f 24 4 →
      let x := w.fibRecord (w.dmaRead (t.f 16 8 + 48 * t.progress) 48)
      (x.1 = 0 → exec (.fibBulk 1) s = .next (afterEntry x.2 r (t.f 24 4) t)) ∧
      (x.1 ≠ 0 → exec (.fibBulk 1) s = .next (x.2.finishTok r .partial_ x.1 t.progress 0)))) ∧
  (∀ s r t, Now s 0x23 r t → s.lkp.xfibOff = false → s.fibNext t.cursor = none →
    exec (.fibDump 1) s = .next (s.finish r { status := .done, detail := 0, progress := t.progress })) ∧
  (∀ s r t pos b, Now s 0x23 r t → s.lkp.xfibOff = false → s.fibNext t.cursor = some (pos, b) → t.progress - t.base < t.f 24 4 →
    let u := ((s.cmdCross.dmaWrite (t.f 16 8 + 48 * (t.progress - t.base)) b).updTaken r (fun t => { t with cursor := pos + 1 })).stepEntry r
    (u.fibNext (pos + 1) ≠ none → exec (.fibDump 1) s = .next u) ∧
    (u.fibNext (pos + 1) = none →
      exec (.fibDump 1) s = .next (u.finish r { status := .done, detail := 0, progress := t.progress + 1 }))) ∧
  (∀ s r t, s.rd (LKP_EMCFG.enable (t.f 16 1)) ≠ 0 → t.f 16 1 < 64 → s.emAll (t.f 16 1) (t.f 17 1) = false → s.emKeyClean (t.f 16 1) t = true →
    let w := s.cmdCross
    (Now s 0x24 r t → t.f 18 1 ≤ 2 → (s.emKeyBytes (t.f 16 1) ≠ 32 ∨ (s.ring r).nz5 = false) → exec .emInsert s =
      let x := w.emInsert (t.f 16 1) (t.f 17 1 % 4) (w.emKeyOperand (t.f 16 1) t) (sliceB t.desc 24 16) (t.f 18 1); .next (x.2.finWith r x.1)) ∧
    (Now s 0x25 r t → t.f 18 1 ≤ 2 → exec .emDelete s =
      let x := w.emDelete (t.f 16 1) (t.f 17 1 % 4) (w.emKeyOperand (t.f 16 1) t); .next (x.2.finWith r x.1))) ∧
  (∀ s r t, Now s 0x24 r t → s.rd (LKP_EMCFG.enable (t.f 16 1)) ≠ 0 → t.f 16 1 < 64 → s.emAll (t.f 16 1) (t.f 17 1) = true →
    s.emKeyClean (t.f 16 1) t = true → t.f 18 1 ≤ 2 → (s.emKeyBytes (t.f 16 1) ≠ 32 ∨ (s.ring r).nz5 = false) →
    let w := s.cmdCross
    let key := w.emKeyOperand (t.f 16 1) t
    let x := emRegions (fun s p => s.emInsert (t.f 16 1) p key (sliceB t.desc 24 16) (t.f 18 1)) ([0, 1, 2, 3].drop t.progress) t.progress w
    exec .emInsert s = .next (if x.1 = 0 then x.2.2.finish r { status := .done, detail := 0, progress := 4 }
      else x.2.2.finishTok r .partial_ x.1 x.2.1 0)) ∧
  (∀ s r t d m u, Now s 0x26 r t → t.f 16 1 < 64 → s.rd (LKP_EMCFG.enable (t.f 16 1)) ≠ 0 → t.progress < t.f 32 4 →
    s.cmdCross.emRecord (t.f 16 1) t.sub (s.cmdCross.dmaRead (t.f 24 8 + 64 * t.progress) 64) = (d, m, u) →
    (d = 0 → exec (.emBulk 1) s = .next (afterEntry (u.updTaken r (fun t => { t with sub := 0 })) r (t.f 32 4) t)) ∧
    (d ≠ 0 → exec (.emBulk 1) s =
      .next ((u.updTaken r (fun t => { t with sub := m })).finishTok r .partial_ (d + m * 256) t.progress 0))) ∧
  (∀ s r t, Now s 0x27 r t → t.f 16 1 < 64 → s.rd (LKP_EMCFG.enable (t.f 16 1)) ≠ 0 →
    (s.emNext (t.f 16 1) (t.f 17 1 % 4) t.cursor = none →
      exec (.emDump 1) s = .next (s.finish r { status := .done, detail := 0, progress := t.progress })) ∧
    (∀ pos b, s.emNext (t.f 16 1) (t.f 17 1 % 4) t.cursor = some (pos, b) → t.progress - t.base < t.f 32 4 →
      let u := ((s.cmdCross.dmaWrite (t.f 24 8 + 64 * (t.progress - t.base)) b).updTaken r (fun t => { t with cursor := pos + 1 })).stepEntry r
      u.emNext (t.f 16 1) (t.f 17 1 % 4) (pos + 1) ≠ none → exec (.emDump 1) s = .next u)) ∧
  (∀ s r t, let w := s.cmdCross
    (Now s 0x28 r t → exec .terWrite s =
      let n := 8 * s.rd (LKP_TERPROF.width (t.f 16 1 % 8))
      let x := w.terWrite (t.f 16 1) (t.f 20 4) (t.f 24 4) (w.dmaRead (t.f 48 8) n) (w.dmaRead (t.f 48 8 + n) n) (sliceB t.desc 32 16)
      .next (x.2.finWith r x.1)) ∧
    (Now s 0x29 r t → exec .terDelete s = .next ((w.terDelete (t.f 20 4)).2.finWith r (w.terDelete (t.f 20 4)).1)) ∧
    (Now s 0x2A r t → exec .adjWrite s =
      .next ((w.adjWrite (t.f 20 4) (sliceB t.desc 24 24)).2.finWith r (w.adjWrite (t.f 20 4) (sliceB t.desc 24 24)).1)) ∧
    (Now s 0x2B r t → exec .adjDelete s = .next ((w.adjDelete (t.f 20 4)).2.finWith r (w.adjDelete (t.f 20 4)).1)) ∧
    (Now s 0x2D r t → s.rd LKP_PARSECTL.idle_state = 2 → s.lkp.flipping = false → exec .parserFlip s =
      let u := w.wr LKP_PARSECTL.live_bank (1 - s.rd LKP_PARSECTL.live_bank)
      .next (({ u with lkp := { u.lkp with flipping := true } } : State).finDone r)) ∧
    (Now s 0x2D r t → s.rd LKP_PARSECTL.idle_state ≠ 2 ∨ s.lkp.flipping = true → exec .parserFlip s = .next (w.finBusy r dIN_USE))) ∧
  (∀ s r t, Now s 0x2C r t → t.cursor ≠ 0 → s.rd LKP_PARSECTL.idle_state = 1 → (s.lkp.pLoader.map (·.1)) = some t.cursor → t.progress < 575 →
    let b := 1 - s.rd LKP_PARSECTL.live_bank
    let u := ({ s with lkp := { s.lkp with pLoader := some (t.cursor, r) } } : State).cmdCross
    let v := (List.range 8).foldl (fun s i => s.wordWritten 6 (8192 * b + 8 * t.progress + i)) u
    exec (.parserLoad 1) s = .next ((v.putParser b (64 * t.progress) (v.dmaRead (t.f 16 8 + 64 * t.progress) 64)).stepEntry r)) ∧
  (∀ s r t, Now s 0x2E r t → let w := s.cmdCross
    (∀ e, t.f 63 1 = 0 → spansOk [(16, 4), (24, 16), (63, 1)] t.desc = true → t.f 18 1 = 4 → t.f 19 1 ≤ 32 →
      s.fibAt (fibKey (t.f 16 2) 0 (t.f 19 1) (addrBits 0 (sliceB t.desc 24 16))) = some e →
      exec .tableRead s = .next (w.finData r 0 (sliceB e.route 0 16))) ∧
    (∀ e, t.f 63 1 = 2 → spansOk [(20, 4), (63, 1)] t.desc = true → t.f 20 4 ≤ 131071 → s.terAt (t.f 20 4) = some e →
      exec .tableRead s = .next (w.finData r 0 (sliceB e.data 0 16 ++ leBytes 4 e.prio ++ [e.profile]))) ∧
    (t.f 63 1 = 3 → spansOk [(20, 4), (63, 1)] t.desc = true → t.f 20 4 ≤ 2097151 → (s.adjAt (t.f 20 4)).st = .valid →
      exec .tableRead s = .next (w.finData r (256 + (s.adjAt (t.f 20 4)).version * 65536) (sliceB (s.adjAt (t.f 20 4)).data 0 24)))) ∧
  (∀ s r t, s.running 0x20 = some (r, t) → s.bridgeUp = false → s.bit D2D_STAT.sideband_up = true →
    exec .fibInsert s = .next (s.finBusy r dIN_USE))
/-! ### The host interface (08_host_interface.md) -/

namespace Sys2Proof.Claims
open Sys2Proof.Machine

/-- A doorbell value for a slot: index, the slot's number, no reserved bit (R358). -/
def bellValue (slot idx : Nat) (arm : Bool) : Nat := idx + slot * 2 ^ 32 + b2n arm * 2 ^ 63

/-- The executor runs a descriptor whose access is not under way over the sideband. -/
def Fresh (s : State) (op r : Nat) (t : Taken) : Prop := s.running op = some (r, t) ∧ t.waits = false

/-- An error or end of a DMA with the check-value unit's job ended (R575). -/
def jobEnded (t : Taken) (s : State) : State := if t.op = 0x50 then s.wr CHK_STAT.busy 0 else s

end Sys2Proof.Claims

/-- The shared end of every descriptor. -/
def Obligations.CompletionsAreWritten : Prop :=
  (∀ (s : State) r (t : Taken) (c : Cpl), Tbl.risingFrom 0 s.hif.rings = true → s.memOk = true → (s.ring r).taken = some t →
    (s.ring r).nz5 = false → t.irq = false → s.hif.exec.all (fun e => (s.ring e).taken.all (fun v => v.op != 0x11 || !v.waits)) = true →
    let a := (s.ring r).cplBase + 32 * (t.index % (s.ring r).size)
    let u := s.finish r c
    (u.ring r).taken = none ∧ (u.ring r).completed = (t.index + 1) % 65536 ∧ u.hif.exec ≠ some r ∧
    (u.ring r).st = (match (s.ring r).st with
      | .parked => .running
      | .stopping => .stopped
      | x => x) ∧
    (s.dmaOk = true → s.hif.held = [] → u.memOk = true ∧
      (∀ i, i < 32 → (u.hostByte (a + i)).toNat = ((cplBytes (s.ring r) t c)[i]?).getD 0 % 256) ∧
      (∀ b, b < a ∨ a + 32 ≤ b → u.hostByte b = s.hostByte b)) ∧
    (s.dmaOk = false → u.hostMem = s.hostMem ∧ u.hif.held = s.hif.held ++ [⟨r, a, cplBytes (s.ring r) t c⟩])) ∧
  (∀ (s : State) r (t : Taken) (c : Cpl) e v, (s.ring r).taken = some t →
    let w := s.endTaken r t c
    w.hif.exec = some e → (w.ring e).taken = some v → v.op = 0x11 → v.waits = true → v.f 16 2 = r → (w.ring r).st = .stopped →
    s.finish r c = w.endTaken e v { status := .done, detail := 0, progress := 1 })

/-- The shared loop of every bulk command. -/
def Obligations.BulkRunsInOrder : Prop :=
  ∀ r total (f : Nat → State → Entry), (∀ k (u : State), Tbl.risingFrom 0 u.hif.rings = true →
      (∀ v, f k u = .go v → Tbl.risingFrom 0 v.hif.rings = true) ∧ (∀ st d v, f k u = .stop st d v → Tbl.risingFrom 0 v.hif.rings = true)) →
    ∀ n m (s : State), Tbl.risingFrom 0 s.hif.rings = true → bulkRun r total f (n + m) s = bulkRun r total f m (bulkRun r total f n s) ∨
      ∃ k, k ≤ n ∧ bulkRun r total f (n + m) s = bulkRun r total f k s ∧ (bulkRun r total f k s).outranked r = true

/-- PCIE_LINK_TRAINED, PCIE_LINK_DOWN, BUS_MASTERING_RESTORED, DOORBELL, DESCRIPTOR_FETCH, RING_WRITEBACK, RING_START, RING_STOP, RCT_INVALIDATE,
RCTL_START, RCTL_STOP and RCTL_INVALIDATE; log entries 102 and 104. -/
def Obligations.LinkDoorbellsRings : Prop :=
  (∀ s gen width flit,
    let u := (((s.wr HIF_LINKSTAT.up 1).wrBit HIF_LINKSTAT.flit flit).wr HIF_LINKSTAT.gen gen).wr HIF_LINKSTAT.width width
    let v := ({ u with hif := { u.hif with trained := true, inReset := false } } : State).dmaBack
    (s.hif.trained = false ∨ (s.rd HIF_LINKSTAT.gen = gen ∧ s.rd HIF_LINKSTAT.width = width) →
      exec (.pcieLinkTrained gen width flit) s = .next v) ∧
    (s.hif.trained = true → (s.rd HIF_LINKSTAT.gen ≠ gen ∨ s.rd HIF_LINKSTAT.width ≠ width) →
      exec (.pcieLinkTrained gen width flit) s = .next (v.post 0x0801 [gen, width]))) ∧
  (∀ s, exec (.pcieLinkDown false) s = .next (s.wr HIF_LINKSTAT.up 0) ∧
    exec (.pcieLinkDown true) s = .next { s with hif := { s.hif with busMaster := false } }) ∧
  (∀ s enables alloc, exec (.busMasteringRestored enables alloc) s =
    .next ({ s with hif := { s.hif with busMaster := true, cfg := pcieCfg enables alloc } } : State).dmaBack) ∧
  (∀ (s : State), s.hif.rctlStart = none → s.hif.requests = [] → s.dmaBack = s.flushHeld) ∧
  (∀ s slot off size v, (8 ≤ off → exec (.doorbell slot off size true v) s = .next { s with readData := 0 }) ∧
    (off < 8 → ∃ x, exec (.doorbell slot off size true v) s = .next { s.fresh.2 with readData := x }) ∧
    (off ≠ 0 ∨ size ≠ 8 ∨ bitsAt v 32 12 ≠ slot ∨ bitsAt v 16 16 ≠ 0 ∨ bitsAt v 44 19 ≠ 0 →
      exec (.doorbell slot off size false v) s = .next (s.inc HIF_BADDB.count))) ∧
  (∀ s slot idx arm, slot < 4096 → idx < 65536 →
    let bell := Instr.doorbell slot 0 8 false (bellValue slot idx arm)
    ((s.ring slot).st = .off → exec bell s = .next (s.inc HIF_BADDB.count)) ∧
    ((s.ring slot).st = .stopped ∨ ((s.ring slot).st ≠ .off ∧ s.bit HIF_CFG.enable = false) →
      exec bell s = .next (s.setRing slot ((s.ring slot).withIndex idx))) ∧
    ((s.ring slot).st = .running → s.bit HIF_CFG.enable = true → (s.ring slot).size < (s.ring slot).outstanding idx →
      exec bell s = .next (s.ringError slot 1)) ∧
    ((s.ring slot).st = .running → s.bit HIF_CFG.enable = true → (s.ring slot).outstanding idx ≤ (s.ring slot).size →
      let g : Ring := { ((s.ring slot).withIndex idx).bell with stallSaid := false }
      let u := (s.setRing slot (if isRequest g.kind then g else g.reported)).tryUnpark slot
      exec bell s = .next (if arm then u.rearm slot else u))) ∧
  (∀ s r, (s.ring r).st = .running → isRequest (s.ring r).kind = true → s.bit HIF_CFG.enable = true → s.dmaOk = true →
    (s.ring r).head ≠ (s.ring r).tail →
    let l := (List.range (min 16 (s.ring r).used)).map (fun k => s.dmaRead ((s.ring r).base + 64 * (((s.ring r).head + k) % (s.ring r).size)) 64)
    exec (.descriptorFetch r true) s = .next (s.setRing r { s.ring r with ahead := l }) ∧
    exec (.descriptorFetch r false) s = .next (s.ringError r 2)) ∧
  (∀ s r, (s.ring r).st ≠ .off → (s.ring r).wbAddr ≠ 0 → (s.ring r).wbLast = none → s.dmaOk = true →
    exec (.ringWriteback r) s = .next ((s.dmaWrite (s.ring r).wbAddr (leBytes 8 (s.ring r).wbValue)).setRing r
      { s.ring r with wbLast := some (s.ring r).wbValue, wbAt := s.clk })) ∧
  (∀ s r t, t.f 16 2 ≠ r → t.f 16 2 < 4096 →
    (Fresh s 0x10 r t → s.startWaits (t.f 16 2) = false → (s.ringStart (t.f 16 2)).1 = 0 → exec .ringStart s =
      let u := (s.ringStart (t.f 16 2)).2; .next (({ u with hif := { u.hif with rctlOpen := false } } : State).finDone r)) ∧
    (Fresh s 0x10 r t → s.startWaits (t.f 16 2) = false → (s.ringStart (t.f 16 2)).1 ≠ 0 → exec .ringStart s =
      .next ((s.ringStart (t.f 16 2)).2.finRefused r (s.ringStart (t.f 16 2)).1)) ∧
    (let u := (s.ringStop (t.f 16 2)).2
     Fresh s 0x11 r t → (s.ringStop (t.f 16 2)).1 = 0 →
       ((u.ring (t.f 16 2)).st = .stopped → exec .ringStop s = .next (u.finDone r)) ∧
       ((u.ring (t.f 16 2)).st ≠ .stopped → exec .ringStop s = .next (u.updTaken r (fun t => { t with waits := true })))) ∧
    (Fresh s 0x12 r t → (s.ringInvalidate (t.f 16 2)).1 = 0 →
      exec .rctInvalidate s = .next ((s.ringInvalidate (t.f 16 2)).2.finDone r))) ∧
  (∀ s, Open s → s.regsOk = true →
    let r := s.rd HIF_RIDX.ring
    let u := untouched HIF_RCTL.refused s
    (s.startWaits r = false → exec .rctlStart s = .next (State.rctlResult (u.ringStart r))) ∧
    (s.startWaits r = true → exec .rctlStart s = .next { u with hif := { u.hif with rctlStart := some r } }) ∧
    (let t := State.rctlResult (u.ringStop r)
     exec .rctlStop s = .next { t with hif := { t.hif with rctlStop := some r } }) ∧
    exec .rctlInvalidate s = .next (State.rctlResult (u.ringInvalidate r))) ∧
  (∀ (s : State) d, d ≠ 0 → State.rctlResult (0, s) = s ∧
    State.rctlResult (d, s) = (s.wr HIF_RCTL.refused 1).wr HIF_RCTL.reason (d % 16)) ∧
  (∀ (s : State) r, (s.ring r).st = .off → r < s.rd HIF_RCTCFG.count →
    (rctOk (s.dmaRead (s.rctAddr r) 64) = false → s.ringStart r = (dBAD_RCT, s)) ∧
    (rctOk (s.dmaRead (s.rctAddr r) 64) = true → (s.ringStart r).1 = 0 ∧ ((s.ringStart r).2.ring r).st = .running))

/-- DESCRIPTOR_TAKE, NOP_DESCRIPTOR, TTL_EXPIRE, DESC_NO_PROGRESS, RING_STALL, DMA_TIMEOUT, TRANSLATION_FAULT, PAGE_RESPONSE and PARK_TIMEOUT. -/
def Obligations.DescriptorsTakenAndStopped : Prop :=
  (∀ s p, s.hif.exec = none → s.pick 0 = some p → exec .descriptorTake s = .next (s.runPick p) ∧
    ∃ c, c < 4 ∧ s.pickClass c = some p ∧ ∀ d, c < d → d < 4 → s.pickClass d = none) ∧
  (∀ s r t p, s.hif.exec = some r → (s.ring r).taken = some t → isBulk t.op = true → t.waits = false → s.pick ((s.ring r).cls + 1) = some p →
    let u := s.inc HIF_PREEMPT.count
    (t.yields = true → (s.ring r).nz5 = false → exec .descriptorTake s = .next ((u.finishTok r .preempted dYIELD t.progress 0).runPick p)) ∧
    (t.yields = false → exec .descriptorTake s =
      let v := u.updTaken r (fun t => { t with st := .preempted }); .next (({ v with hif := { v.hif with exec := none } } : State).runPick p))) ∧
  (∀ s r t, s.running 0x00 = some (r, t) → (s.ring r).kind = 1 → exec (.nopDescriptor r) s = .next (s.finDone r)) ∧
  (∀ s r t, (s.ring r).taken = some t → t.ttl ≠ 0 → (s.ring r).nz5 = false → t.takenAt + t.ttl * 1000000 ≤ s.clk →
    (t.st = .running → isBulk t.op = true → t.waits = false → exec (.ttlExpire r) s = .next (s.finishTok r .expired dTTL t.progress 0)) ∧
    (t.st = .parked → exec (.ttlExpire r) s = .next (s.finishTok r .expired dTTL t.progress 0))) ∧
  (∀ s r t, (s.hif.exec = some r ∨ (s.ring r).kind = 4) → (s.ring r).taken = some t → t.st = .running →
    t.stepAt + s.rd HIF_TIMEOUTS.desc_ms * 1000000 ≤ s.clk →
    let u := s.abandon r t
    let n := (u.ring r).progWord
    exec (.descNoProgress r) s = .next ((u.finishTok r .expired dNO_PROGRESS n 0).post 0x0804 (leBytes 2 r ++ [t.op, 0] ++ leBytes 4 n))) ∧
  (∀ (s : State) r t, t.op ≠ 0x50 → t.op ≠ 0x70 → t.waits = false → s.abandon r t = s) ∧
  (∀ (s : State) r t, (s.ring r).taken = some t → (s.ring r).progWord = t.progress) ∧
  (∀ s r, (s.ring r).st = .running → (s.ring r).lastTake + s.rd HIF_TIMEOUTS.stall_ms * 1000000 ≤ s.clk → isRequest (s.ring r).kind = true →
    (s.ring r).head ≠ (s.ring r).tail → (s.ring r).taken = none → (s.ring r).buffers = [] → s.dmaOk = true →
    let l := (List.range (min 16 (s.ring r).used)).map (fun k => s.dmaRead ((s.ring r).base + 64 * (((s.ring r).head + k) % (s.ring r).size)) 64)
    exec (.ringStall r) s = .next ((s.setRing r { s.ring r with ahead := l, lastTake := s.clk }).post 0x0803 (leBytes 2 r ++ [(s.ring r).kind]))) ∧
  (∀ s r, (s.ring r).st = .running → (s.ring r).lastTake + s.rd HIF_TIMEOUTS.stall_ms * 1000000 ≤ s.clk → isRequest (s.ring r).kind = false →
    (s.ring r).room = 0 → (s.ring r).stallSaid = false →
    exec (.ringStall r) s = .next ((s.setRing r { s.ring r with stallSaid := true }).post 0x0803 (leBytes 2 r ++ [(s.ring r).kind]))) ∧
  (∀ s r t addr, (s.ring r).taken = some t → t.st = .running → t.waits = false →
    (exec (.dmaTimeout r addr true) s = .next ((jobEnded t s).finishTok r .faulted dDMA_ERROR t.progress addr) ∧
     exec (.dmaTimeout r addr false) s = .next ((jobEnded t s).finishTok r .faulted dDMA_TIMEOUT t.progress addr)) ∧
    (s.dmaOk = true → s.priOn = false →
      exec (.translationFault r addr) s = .next ((jobEnded t s).finishTok r .faulted dTRANSLATION t.progress addr)) ∧
    (s.dmaOk = true → s.priOn = true → s.hif.exec = some r → (s.ring r).st = .running →
      let u := (((jobEnded t s).updTaken r (fun t => t.park addr s.clk)).pageRequest r addr).parkRing r
      exec (.translationFault r addr) s = .next { u with hif := { u.hif with exec := none } })) ∧
  (∀ s r, s.hif.requests.findIdx? (fun q => q.ring == r && q.sent) = none → ∀ ok, exec (.pageResponse r ok) s = .next s) ∧
  (∀ s r t i, (s.ring r).taken = some t → t.st = .parked → s.hif.requests.findIdx? (fun q => q.ring == r && q.sent) = some i →
    (s.hif.requests.filter (fun q => q.ring == r)).length = 1 →
    let u := s.requestDone i
    (exec (.pageResponse r false) s = .next (u.finishTok r .faulted dTRANSLATION t.progress t.faultAddr)) ∧
    (exec (.pageResponse r true) s = .next ((u.setRing r (u.ring r).paged).tryUnpark r))) ∧
  (∀ (g : Ring) t, g.taken = some t → t.st = .parked → g.paged.taken = some { t with gotPage := true }) ∧
  (∀ s r t, (s.ring r).taken = some t → t.st = .parked → t.parkedAt + s.rd HIF_PRICFG.park_ms * 1000000 ≤ s.clk →
    exec (.parkTimeout r) s = .next (s.finishTok r .faulted dPRI_TIMEOUT t.progress t.faultAddr)) ∧
  (∀ (s : State) r t, (s.ring r).taken = some t → t.st = .parked → t.gotPage = true → t.gotBell = true → (s.ring r).kind = 1 →
    (s.ring r).st = .parked → s.tryUnpark r = s.setRing r { s.ring r with taken := some { t with st := .ready }, st := .running })

/-- EVENT_WRITE, MSIX_MESSAGE, PUNT_BUF, PUNT_WRITE, INJECT_EGRESS and INJECT_INGRESS; the allocator's turns are log entry 101. -/
def Obligations.RecordsAndPacketRings : Prop :=
  (∀ s r, (s.ring r).st = .running → (s.ring r).kind = 2 → s.bit HIF_CFG.enable = true →
    (s.lostOf r ≠ [] → exec (.eventWrite r) s = .next (s.writeLost r)) ∧
    (∀ i e, s.lostOf r = [] → s.hif.events.findIdx? (fun e => s.evRing e.cls == some r) = some i → s.hif.events[i]? = some e →
      e.ofModule (s.clk / 1000) = false →
      let x := s.writeRecord r e.code e.cls e.ns e.sec e.payload e.cont
      let u := x.2
      (x.1 = true → exec (.eventWrite r) s = .next { u with hif := { u.hif with events := u.hif.events.eraseIdx i } }) ∧
      (x.1 = false → exec (.eventWrite r) s = .next u))) ∧
  (∀ (s : State) r code cls ns sec payload, Tbl.risingFrom 0 s.hif.rings = true → (s.ring r).irqEn = false → 1 ≤ (s.ring r).room →
    ∃ u, s.writeRecord r code cls ns sec payload [] = (true, u) ∧ (u.ring r).tail = ((s.ring r).tail + 1) % 65536 ∧
      (u.ring r).seq = ((s.ring r).seq + 1) % 2 ^ 32 ∧ (s.dmaOk = true → s.hif.held = [] →
        u.hostMem = (s.dmaWrite ((s.ring r).base + 32 * ((s.ring r).tail % (s.ring r).size))
          (evHead (s.ring r) (s.ring r).tail code 0 cls ns sec payload)).hostMem)) ∧
  (∀ (s : State) r code cls ns sec payload cont,
    let left := (s.ring r).size - (s.ring r).tail % (s.ring r).size
    left < 1 + cont.length →
    ((s.ring r).room < left → s.writeRecord r code cls ns sec payload cont = (false, s)) ∧
    (left ≤ (s.ring r).room → s.writeRecord r code cls ns sec payload cont =
      if ((s.putRecord r left 0 cls ns sec [] []).ring r).room < 1 + cont.length then (false, s.putRecord r left 0 cls ns sec [] [])
      else (true, (s.putRecord r left 0 cls ns sec [] []).putRecord r (1 + cont.length) code cls ns sec payload cont))) ∧
  (∀ s v, v < 512 → s.hif.cfg.msix = true → (s.vec v).causes ≠ 0 →
    (s.vec v).lastMsg.all (fun t => decide (t + s.rd (HIF_VMOD.gap_us v) * 1000 ≤ s.clk)) = true →
    ((s.vec v).oldest + s.rd (HIF_VMOD.time_us v) * 1000 ≤ s.clk ∨ s.rd (HIF_VMOD.count v) ≤ (s.vec v).causes) →
    (s.hif.cfg.maskAll = true ∨ bitOf (s.msixWord (4 * v + 3)) 0 = true →
      exec (.msixMessage v) s = .next (s.setVec v { s.vec v with pba := true })) ∧
    (s.hif.cfg.maskAll = false → bitOf (s.msixWord (4 * v + 3)) 0 = false → s.dmaOk = false → exec (.msixMessage v) s = .next s) ∧
    (s.hif.cfg.maskAll = false → bitOf (s.msixWord (4 * v + 3)) 0 = false → s.dmaOk = true → exec (.msixMessage v) s =
      .next ((s.hostWrite 4096 (s.msixWord (4 * v) + s.msixWord (4 * v + 1) * 2 ^ 32) (leBytes 4 (s.msixWord (4 * v + 2)))).setVec v
        { s.vec v with causes := 0, oldest := 0, lastMsg := some s.clk, pba := false }))) ∧
  (∀ s r t, s.mayTake (s.ring r) 3 = true → leAt (s.headDesc (s.ring r)) 0 1 ≠ 0 → ((s.takeFrom r).ring r).taken = some t →
    let u := s.takeFrom r
    (64 ≤ t.f 24 2 → t.f 24 2 ≤ 16384 →
      exec (.puntBuf r) s = .next (u.setRing r { u.ring r with taken := none, buffers := (u.ring r).buffers ++ [t] })) ∧
    (t.f 24 2 < 64 ∨ 16384 < t.f 24 2 → exec (.puntBuf r) s = .next (u.finRefused r dBAD_OPERAND))) ∧
  (∀ s cls r k t rest, s.nextPunt cls = some (r, k) → (s.ring r).buffers = t :: rest → s.dmaOk = true →
    let x := s.chain k.ptr
    let u := s.dmaWrite (t.f 16 8) (sliceB x.pkt.bytes 0 (min k.len (t.f 24 2)))
    let v : State := { u with hif := { u.hif with puntQ := u.hif.puntQ.erase k, lastPunt := Tbl.set 4096 u.hif.lastPunt cls r } }
    exec (.puntWrite cls) s = .next (((v.setRing r { v.ring r with buffers := rest, stuck := none }).writeCpl r t
      (puntResult x k.len (t.f 24 2))).release k.ptr k.gen 0x13)) ∧
  (∀ s r t u, s.injectNow r 0 = (some t, u) →
    (t.f 24 2 = 0 → exec (.injectEgress r) s = .next (u.finRefused r dBAD_OPERAND)) ∧
    (∀ w, t.f 24 2 ≠ 0 → u.injectUnderWay r = false → u.xwait 52 = [] → u.allocTurn 5 = some w →
      let k := w.injectPacket r t
      let p : Packet := { k with ord := w.eng.nextOrd, queue := t.f 28 4, fwd := injectResult (w.ring r).cls (t.f 28 4) (t.f 24 2) }
      let v : State := { w with eng := { w.eng with nextOrd := w.eng.nextOrd + 1 } }
      let x := v.accept 52 p none [{ queue := t.f 28 4 }]
      (x.2.ptr.isSome = true → exec (.injectEgress r) s =
        .next (x.1.updTaken r (fun t => { t with waits := true, cursor := w.eng.nextOrd }))) ∧
      (x.2.ptr = none → ∃ d, exec (.injectEgress r) s = .next (x.1.finRefused r d)))) ∧
  (∀ s r t u, s.injectNow r 1 = (some t, u) →
    (t.f 24 2 = 0 → exec (.injectIngress r) s = .next (u.finRefused r dBAD_OPERAND)) ∧
    (t.f 24 2 ≠ 0 → 4096 ≤ (u.dispQ false (u.injectPacket r t).pipe).length →
      exec (.injectIngress r) s = .next (u.finRefused r dDISPATCH_FULL)) ∧
    (t.f 24 2 ≠ 0 → (u.dispQ false (u.injectPacket r t).pipe).length < 4096 →
      let x := u.orderEnter (inKey (256 + r)) (u.injectPacket r t)
      exec (.injectIngress r) s = .next ((x.2.setDispQ false x.1.pipe (u.dispQ false (u.injectPacket r t).pipe ++ [x.1])).updTaken r
        (fun t => { t with waits := true, cursor := x.1.ord }))))

/-- REG_WRITE, REG_READ, REG_BULK, ENG_LOAD, ENG_FLIP, PDATA_WRITE, PDATA_READ, IND_WRITE, IND_READ, IND_BULK, QUEUE_FLUSH and CNT_READ. -/
def Obligations.HostCommands : Prop :=
  (∀ s r t, Fresh s 0x01 r t →
    let a := t.f 16 4
    let mask := t.f 24 4
    let v := t.f 20 4
    (regBad a mask = true → exec .regWrite s = .next (s.finRefused r dBAD_ADDRESS)) ∧
    (regBad a mask = false → isFdAddr a = false → exec .regWrite s = .next ((s.regWrite .cmd a mask v).finDone r)) ∧
    (regBad a mask = false → isFdAddr a = true → s.fdUnreachable = true → exec .regWrite s = .next (s.finBusy r dIN_USE)) ∧
    (regBad a mask = false → isFdAddr a = true → s.fdUnreachable = false → s.bridgeUp = true → s.ctlFree false 1 = true →
      let u := ((crossed s).regWrite .cmd a mask v).tagDone s.dies.nextTag 0
      (u.ctlFree true 1 = true → exec .regWrite s = .next ((u.ctlNow true 1).finDone r)) ∧
      (u.ctlFree true 1 = false → exec .regWrite s = .next ((tagged s true a mask v (fun u => u.regWrite .cmd a mask v)).updTaken r
        (fun x => { x with waits := true, cursor := s.dies.nextTag + 1 }))))) ∧
  (∀ s r t, Fresh s 0x02 r t →
    (2 ^ 24 ≤ t.f 16 4 ∨ isReserved (t.f 16 4) = true → exec .regRead s =
      .next ((s.seatInput (.readData 0)).finData r 0 (leBytes 4 0 ++ List.replicate 20 0))) ∧
    (t.f 16 4 < 2 ^ 24 → isReserved (t.f 16 4) = false → isFdAddr (t.f 16 4) = false → exec .regRead s =
      let x := s.regRead .cmd (t.f 16 4)
      .next ((x.2.seatInput (.readData x.1)).finData r 0 (leBytes 4 x.1 ++ List.replicate 20 0)))) ∧
  (∀ s r t, Fresh s 0x03 r t → s.dmaOk = true → t.progress + 1 < t.f 24 4 →
    let b := s.dmaRead (t.f 16 8 + 16 * t.progress) 16
    (leAt b 12 4 ≠ 0 → exec (.regBulk 1) s = .next (s.finishTok r .partial_ dRESERVED_SET t.progress 0)) ∧
    (leAt b 12 4 = 0 → regBad (leAt b 0 4) (leAt b 8 4) = true →
      exec (.regBulk 1) s = .next (s.finishTok r .partial_ dBAD_ADDRESS t.progress 0)) ∧
    (leAt b 12 4 = 0 → regBad (leAt b 0 4) (leAt b 8 4) = false → isFdAddr (leAt b 0 4) = false →
      exec (.regBulk 1) s = .next (((s.regWrite .cmd (leAt b 0 4) (leAt b 8 4) (leAt b 4 4)).regStep r (t.f 24 4)).2))) ∧
  (∀ s r t, Now s 0x30 r t → t.f 16 1 < 24 → t.f 17 1 < 2 → t.f 20 4 ≤ 32768 →
    let c := t.f 16 1
    let b := t.f 17 1
    (t.cursor = 0 → s.rd (bankState c b) = 3 ∨ s.rd (bankState c b) = 4 → exec (.engLoad 1) s = .next (s.finBusy r dLIVE_RESOURCE)) ∧
    (t.cursor ≠ 0 → s.rd (bankState c b) = 1 → (Tbl.get (0, 0) s.eng.loads (2 * c + b)).1 = t.cursor → t.progress + 1 < t.f 20 4 →
      let w := leAt (s.dmaRead (t.f 24 8 + 16 * t.progress) 16) 0 16
      let u := s.cmdCross
      let e : Eng := { s.eng with loads := Tbl.set (0, 0) s.eng.loads (2 * c + b) (t.cursor, r),
                                  bundles := Tbl.set 0 s.eng.bundles (bunKey c b t.progress) w }
      exec (.engLoad 1) s = .next (({ u with eng := e } : State).stepEntry r))) ∧
  (∀ (s : State) r c b len, firstFailure ((List.range len).map (fun i => s.bundle c b i)) = (0, 0) → b ≠ s.rd (ENG_BANKCTL.live_bank c) →
    ∃ u : State, s.engLoaded r c b len = u.finish r { status := .done, detail := 0, progress := len } ∧
      (s.regsOk = true → u.rd (bankState c b) = 2 ∧ u.rd (bankLen c b) = len % 2 ^ (bankLen c b).width)) ∧
  (∀ s r t, Now s 0x31 r t → t.f 16 1 < 24 →
    let b := 1 - s.rd (ENG_BANKCTL.live_bank (t.f 16 1))
    (s.rd (bankState (t.f 16 1) b) = 2 → s.castleHolds (t.f 16 1) b = false →
      exec .engFlip s = .next ((s.cmdCross.askFlip (t.f 16 1)).finDone r)) ∧
    (s.rd (bankState (t.f 16 1) b) ≠ 2 → exec .engFlip s = .next (s.cmdCross.finBusy r dIN_USE))) ∧
  (∀ s r t, Now s 0x32 r t → pdataBad t false = false → bitOf (t.f 17 1) 0 = false → t.progress < t.f 24 4 / 8 →
    exec (.pdataWrite 1) s = .next (afterEntry (s.cmdCross.setPdata (t.f 16 1) (t.f 20 4 + 8 * t.progress)
      (s.dmaRead (t.f 32 8 + 8 * t.progress) 8)) r (t.f 24 4 / 8) t)) ∧
  (∀ s r t, Now s 0x33 r t → pdataBad t false = false → t.progress < t.f 24 4 / 8 →
    exec (.pdataRead 1) s = .next (afterEntry (s.cmdCross.dmaWrite (t.f 32 8 + 8 * t.progress) ((List.range 8).map
      (fun i => s.pdataByte (t.f 16 1) (t.f 20 4 + 8 * t.progress + i)))) r (t.f 24 4 / 8) t)) ∧
  (∀ s r t, t.f 16 1 ≠ 16 →
    (s.running 0x38 = some (r, t) → exec .indWrite s =
      let x := s.indWrite (t.f 16 1) (t.f 20 4) ((List.range 6).map (fun i => t.f (24 + 4 * i) 4)); .next (x.2.finWith r x.1)) ∧
    (∀ w, s.running 0x39 = some (r, t) → s.indRead (t.f 16 1) (t.f 20 4) = some w →
      exec .indRead s = .next (s.finData r 0 ((List.range 6).flatMap (fun i => leBytes 4 (wordAt w i))))) ∧
    (s.running 0x39 = some (r, t) → s.indRead (t.f 16 1) (t.f 20 4) = none → exec .indRead s = .next (s.finRefused r dBAD_OPERAND)) ∧
    (∀ d u, s.running 0x3A = some (r, t) → s.dmaOk = true → t.progress < t.f 32 4 →
      let b := s.dmaRead (t.f 24 8 + 32 * t.progress) 32
      leAt b 4 4 = 0 → s.indWrite (t.f 16 1) (leAt b 0 4) ((List.range 6).map (fun i => leAt b (8 + 4 * i) 4)) = (d, u) →
      (d = 0 → exec (.indBulk 1) s = .next (afterEntry u r (t.f 32 4) t)) ∧
      (d ≠ 0 → exec (.indBulk 1) s = .next (u.finishTok r .partial_ d t.progress 0)))) ∧
  (∀ s r t, s.running 0x3B = some (r, t) →
    (t.f 16 1 = 0 → t.f 20 4 < 1048576 → exec .queueFlush s = .next ((s.flush (t.f 20 4) 0xF).finDone r)) ∧
    (t.f 16 1 = 1 → t.f 20 4 < 65536 → exec .queueFlush s = .next ((s.flush (voqKey (t.f 20 4)) 0xF).finDone r)) ∧
    (1 < t.f 16 1 → exec .queueFlush s = .next (s.finRefused r dBAD_OPERAND))) ∧
  (∀ s r t, s.running 0x40 = some (r, t) → s.dmaOk = true → t.progress < t.f 20 4 → t.f 20 4 ≤ 16777216 → t.f 16 4 + t.f 20 4 ≤ 67108864 →
    let i := t.f 16 4 + t.progress
    let u := s.dmaWrite (t.f 32 8 + 16 * t.progress) (leBytes 8 (s.cntValue i).1 ++ leBytes 8 (s.cntValue i).2)
    exec (.cntRead 1 []) s = .next (afterEntry (if bitOf (t.f 24 1) 0 then u.cntClear i else u) r (t.f 20 4) t))
/-! ### The packet buffer, queues, fabric, scheduling (05_buffer.md, 06_queues_fabric.md, 07_scheduling_shaping.md) -/

namespace Sys2Proof.Claims
open Sys2Proof.Machine

/-- A field holds a value of its width. -/
def Fits (s : State) (f : Fld) : Prop := s.rd f < 2 ^ f.width

/-- `d` ns have passed since `t`. -/
def Past (s : State) (t d : Nat) : Prop := t + d ≤ s.clk

/-- The state of a port's gate control as a write of TG_CTL with unchanged init_gates begins. -/
def tgAsIs (s : State) (p : Nat) : State := s.wr (TG_CTL.init_gates p) (s.rd (TG_CTL.init_gates p))

/-- A VOQ served by the fabric scheduler: it is last in rotation, and pays for the packet from its balance, or, of an MCAST destination, by its
rate. -/
def servedVoq (s : State) (v : Nat) (e : QEnt) : State :=
  let a : State := { s with qm := { s.qm with voqLast := Tbl.set 0 s.qm.voqLast (v % 8) (v + 1) } }
  if s.destKind (v / 8) = 1 then a.setVoq v { a.voq v with balance := (a.voq v).balance - e.len }
  else { a with qm := { a.qm with pace := Tbl.set 0 a.qm.pace (v / 8) (s.paceNext (Tbl.get 0 s.qm.pace (v / 8)) (e.len * 80) (s.destRate (v / 8))) } }

/-- The head packet of queue `q` taken by port `p` for a reader with owner code `unit`; the next port in rotation follows it. -/
def taken (s : State) (p q unit : Nat) (e : QEnt) : State :=
  let u := s.takeHead q unit e
  { u with sch := { u.sch with next := p + 1 } }

/-- A copy of the chain at `ptr` charged to the return port that caps it, where one does (*Internal ports*). -/
def returnPaid (s : State) (ptr : Nat) : State :=
  match s.returnCap ptr with
  | some (i, y) => s.setNode 4 i { y with peak := { y.peak with tok := y.peak.tok - (s.adjLen y (s.chain ptr).pkt.bytes.length : Int) } }
  | none => s

/-- The link that a bucket names after its fabric delay: its target, or the emptiest usable one where that is not usable. -/
def newLink (s : State) (dev : Nat) (b : Bucket) : Option Nat :=
  match b.target with
  | some l => if (s.usable dev).contains l then some l else s.fewest dev (s.usable dev)
  | none => s.fewest dev (s.usable dev)

end Sys2Proof.Claims

/-- PACKET_ADMIT, CHAIN_LINK, BUFFER_ENABLE_WRITE, RESERVE_ENABLE_WRITE, BUFFER_AUDIT, PFC_FRAME_RECEIVE, PAUSE_FRAME_RECEIVE, PAUSE_EXPIRE and
PFC_REPEAT. That a cycle of the allocator is an island clock is the model's choice (log entry 101). -/
def Obligations.BufferAndFlowControl : Prop :=
  (∀ s w k turn, w < 4 → s.dies.ft.arrived.find? (fun k => k.pipe == w) = some k → s.xwait w = [] → s.allocTurn w = some turn →
    let u := turn.setDir true { s.dies.ft with arrived := s.dies.ft.arrived.erase k }
    let x := u.mirrors k.fwd k.bytes.length
    exec (.packetAdmit w) s = .next (x.1.accept w k (if leAt k.fwd 7 1 < 128 then some (8 * leAt k.fwd 7 1 + leAt k.fwd 1 1 % 8) else none)
      (x.1.bridgeDest k.fwd :: x.2)).1) ∧
  (∀ s l g k rest turn, l < 48 → Tbl.get [] s.flk.recs l = (g, k) :: rest → s.flk.recOrd.head? = some l → s.allocTurn 4 = some turn →
    let u : State := { turn with flk := { s.flk with recs := Tbl.set [] s.flk.recs l rest, recOrd := s.flk.recOrd.tail } }
    let x := u.mirrors k.fwd k.bytes.length
    (g = none → exec (.packetAdmit (4 + l)) s = .next (x.1.accept (4 + l) k none ({ queue := fwdQueue k.fwd } :: x.2)).1) ∧
    (∀ n, g = some n → u.replicas n ≠ [] → exec (.packetAdmit (4 + l)) s = .next (x.1.accept (4 + l) k none (u.replicas n ++ x.2)).1) ∧
    (∀ n, g = some n → u.replicas n = [] → exec (.packetAdmit (4 + l)) s = .next (u.inc QM_MCEMPTY.count))) ∧
  (∀ (s : State) r, r < 6 →
    (s.bpm.allocAt ≠ s.clk → (∀ x, x < 6 → x ≠ r → s.allocWaits x = false) →
      s.allocTurn r = some { s with bpm := { s.bpm with allocAt := s.clk, allocPos := (r + 6 - s.clk % 6) % 6, allocN := 1 } }) ∧
    (s.bpm.allocAt = s.clk → s.bpm.allocPos = (r + 6 - s.clk % 6) % 6 → 16 ≤ s.bpm.allocN → s.allocTurn r = none)) ∧
  (∀ (s : State) w k pfc a d, a.dead = false →
    let n := k.bytes.length
    (s.refusal d.queue n ≠ 0 → State.offer w k pfc (s, a) d = (s.dropCopy d (s.refusal d.queue n) n, a)) ∧
    (∀ ptr, s.refusal d.queue n = 0 → a.ptr = some ptr →
      (∀ r, s.takeRef ptr = .inl r → State.offer w k pfc (s, a) d = (s.dropCopy d r n, a)) ∧
      (∀ u, s.takeRef ptr = .inr u → State.offer w k pfc (s, a) d = (u, { a with dests := a.dests ++ [d] }))) ∧
    (s.refusal d.queue n = 0 → a.ptr = none → d.session = none →
      (s.chainArea w d.queue (cellsOf n) = none → State.offer w k pfc (s, a) d = (s.dropCopy d 4 n, a)) ∧
      (∀ area, s.chainArea w d.queue (cellsOf n) = some area → s.overflow w area (cellsOf n) = 0 →
        State.offer w k pfc (s, a) d = ((s.newChain w area k pfc).2, { ptr := some (s.newChain w area k pfc).1, dests := [d] })) ∧
      (∀ area m, s.chainArea w d.queue (cellsOf n) = some area → s.overflow w area (cellsOf n) = m + 1 →
        State.offer w k pfc (s, a) d =
          ((s.addSat (FLK_HOLDOVF.count (w - 4)) (m + 1)).inc (FLK_REASMDROP.count (w - 4)), { a with dead := true })))) ∧
  (∀ s w j rest, Tbl.get [] s.bpm.jobs w = j :: rest → s.writing j.ptr = false →
    let x := s.chain j.ptr
    let u : State := { s with bpm := { s.bpm with jobs := Tbl.set [] s.bpm.jobs w rest } }
    let v := u.setChain j.ptr { x with owner := if x.owner = ownerShared then ownerShared else 0x10, enq := u.enqTime, at_ := s.clk }
    exec (.chainLink w) s = .next ((j.dests.foldl (fun s d => s.enqueue j.ptr d) v).settle.injected x.pkt)) ∧
  (∀ s m, Open s → s.regsOk = true → 64 ≤ m → m ≤ 188 →
    (s.rd BPM_CFG.enable = 0 → ∃ t, exec (.bufferEnableWrite (2 ^ 31 + m)) s = .next t ∧ t.rd BPM_CFG.enable = 1 ∧ t.rd BPM_CFG.deep_mcells = m ∧
      t.bpm.deepM = m ∧ t.bpm.started = true) ∧
    (s.rd BPM_CFG.enable = 1 → exec (.bufferEnableWrite (2 ^ 31 + m)) s = .next (s.wr BPM_CFG.enable 1))) ∧
  (∀ s, Open s → s.rd BPM_RSVCFG.enable = 0 → (∀ ch, 4 ≤ ch → ch < 8 → s.rd (MCD_CFG.role ch) ≠ 2) →
    exec (.reserveEnableWrite (2 ^ 31)) s = .next (s.wr BPM_STAT.rsv_refused 1)) ∧
  (∀ s, Open s → s.regsOk = true → s.rd BPM_RSVCFG.enable = 0 → (∃ ch, 4 ≤ ch ∧ ch < 8 ∧ s.rd (MCD_CFG.role ch) = 2) →
    ∃ t, exec (.reserveEnableWrite (2 ^ 31)) s = .next t ∧ t.rd BPM_RSVCFG.enable = 1 ∧
      t.bpm.stripe = [4, 5, 6, 7].filter (fun ch => s.rd (MCD_CFG.role ch) == 2)) ∧
  (∀ s, s.bpm.lost ≠ [] →
    let keys := s.bpm.lost.filter (fun k => !s.bpm.weak.contains k)
    let u : State := { s with bpm := { s.bpm with lost := [], used := keys.foldl (fun t k => Tbl.erase t k) s.bpm.used,
                                                  released := s.heldBack ++ keys, releasedAt := s.clk } }
    exec .bufferAudit s = .next (((u.addSat BPM_RECLAIM.count s.bpm.lost.length).syncFree).postTwo 0x0504 0 s.bpm.lost.length)) ∧
  (∀ s p v times, p < 128 → 2 ≤ s.portState p →
    exec (.pfcFrameReceive p v times) s = .next ((s.inc (QM_PFCRXCNT.count p)).pauseClasses p
      (Nat.land v (s.rd (QM_PFCRX.rx_en p))) (fun c => (times[c]?).getD 0 % 65536)) ∧
    (∀ time, s.rd (QM_PFCCFG.rx_pause p) = 0 → exec (.pauseFrameReceive p time) s = .next (s.inc (QM_PFCRXCNT.count p))) ∧
    (∀ time, s.rd (QM_PFCCFG.rx_pause p) = 1 → exec (.pauseFrameReceive p time) s =
      .next ((s.inc (QM_PFCRXCNT.count p)).pauseClasses p 255 (fun _ => time % 65536)))) ∧
  (∀ s p c, p < 128 → c < 8 → bitOf (s.rd (QM_PFCSTAT.paused p)) c = true → Tbl.get 0 s.qm.pauseEnd (8 * p + c) ≤ s.clk →
    let u := s.wr (QM_PFCSTAT.paused p) (putBits (s.rd (QM_PFCSTAT.paused p)) c 1 0)
    exec (.pauseExpire p c) s = .next ({ u with qm := { u.qm with pauseEnd := Tbl.erase u.qm.pauseEnd (8 * p + c) } } : State).settle) ∧
  (∀ s p c t, p < 128 → c < 8 → Tbl.get 0 s.bpm.pfcSent (8 * p + c) = t + 1 → s.portState p = 2 →
    s.rd (QM_PFCTHR.xon p c) * 16 < s.pfcOcc (8 * p + c) → Past s t (s.rd (QM_PFCCFG.quanta p) * 256 / s.portGbps p) →
    exec (.pfcRepeat p c) s = .next (s.pfcSend p c true))

/-- CHAIN_RELEASE and the allocator. -/
def Obligations.CellsTakenAndReleased : Prop :=
  (∀ (s : State) tier size ok n, Tbl.risingFrom 0 s.bpm.used = true →
    let x := State.takeCells tier size ok n s
    x.1.Nodup ∧ x.1.length ≤ n ∧
      (∀ k ∈ x.1, k < size ∧ ok k = true ∧ cellPtr tier k ∉ s.heldBack ∧ Tbl.get false s.bpm.used (cellPtr tier k) = false ∧
        Tbl.get false x.2.bpm.used (cellPtr tier k) = true) ∧
      (∀ c, (∀ k ∈ x.1, c ≠ cellPtr tier k) → Tbl.get false x.2.bpm.used c = Tbl.get false s.bpm.used c)) ∧
  (∀ s ptr gen unit, (s.chain ptr).owner = 0 ∨ (s.chain ptr).gen ≠ gen → ∃ t, exec (.chainRelease ptr gen unit) s = .next t ∧
    t = s.freeFault true ptr gen unit (s.chain ptr).owner ∧ t.bpm = s.bpm ∧ t.qm = s.qm) ∧
  (∀ s ptr unit, (s.chain ptr).owner ≠ 0 → ((s.chain ptr).owner = ownerShared ∧ readerCode unit = false) ∨
      ((s.chain ptr).owner ≠ ownerShared ∧ (s.chain ptr).owner ≠ unit) →
    ∃ t, exec (.chainRelease ptr (s.chain ptr).gen unit) s = .next t ∧
      t = s.freeFault false ptr (s.chain ptr).gen unit (s.chain ptr).owner ∧ t.bpm = s.bpm ∧ t.qm = s.qm) ∧
  (∀ s ptr, (s.chain ptr).owner ≠ 0 → (s.chain ptr).owner ≠ ownerShared →
    exec (.chainRelease ptr (s.chain ptr).gen (s.chain ptr).owner) s =
      .next ((s.endRead ptr (s.chain ptr).gen (s.chain ptr).owner).freeChain ptr)) ∧
  (∀ s ptr unit n, (s.chain ptr).owner = ownerShared → readerCode unit = true → Tbl.get 0 s.bpm.share (s.chain ptr).share = n →
    let u := s.endRead ptr (s.chain ptr).gen unit
    let v : State := { u with bpm := { u.bpm with share := Tbl.set 0 u.bpm.share (s.chain ptr).share (n - 1) } }
    (2 ≤ n → exec (.chainRelease ptr (s.chain ptr).gen unit) s = .next { v with qm := { v.qm with replicas := v.qm.replicas - 1 } }) ∧
    (n ≤ 1 → exec (.chainRelease ptr (s.chain ptr).gen unit) s = .next (v.freeChain ptr).syncShare)) ∧
  (∀ (s : State) ptr gen unit x, s.bpm.reading.find? (fun y => y.ptr == ptr && y.gen == gen && y.unit == unit) = some x →
    let t := s.endRead ptr gen unit
    t.bpm.reading = s.bpm.reading.erase x ∧ t.bpm.chains = s.bpm.chains ∧
      (Tbl.risingFrom 0 s.qm.queues = true → (t.queue x.queue).ents = (s.queue x.queue).ents ∧
        (t.queue x.queue).cells = (s.queue x.queue).cells - x.n ∧ (t.queue x.queue).pkts = (s.queue x.queue).pkts - 1))

/-- XBAR_SLOT. -/
def Obligations.CrossbarMatching : Prop :=
  (∀ (s : State) n, let m := s.xMatch n (s.xIterate [])
    (m.map (·.1)).Nodup ∧ (m.map (·.2)).Nodup ∧ ∀ e ∈ m, e.1 < 121 ∧ e.2 < 128 ∧ ∃ x ∈ s.xin e.1, x.cell % 128 = e.2) ∧
  (∀ s, exec .xbarSlot s =
    let u := (s.xMatch (s.rd QM_XBARCFG.iters - 1) (s.xIterate [])).foldl State.xMove (s.xPoint (s.xIterate []))
    .next ((List.range 54).foldl (fun s w => State.xfill w (s.xwait w).length s) u))

/-- PREFETCH_START, EVICTION_START, MOVE_SWAP and EVAC_DONE; that MOVE_SWAP brings the errors of the reads is the model's choice (log entry
10). -/
def Obligations.MovesKeepOrder : Prop :=
  (∀ (s : State) m k, Tbl.risingFrom 0 s.qm.queues = true →
    let gen := ((s.chain m.dst).gen + 1) % 256
    ((s.swap m).queue k).cells = (s.queue k).cells ∧ ((s.swap m).queue k).pkts = (s.queue k).pkts ∧
    ((s.swap m).queue k).ents = (s.queue k).ents.map (fun e => if e.ptr = m.src then { e with ptr := m.dst, gen := gen } else e)) ∧
  (∀ s src m ecc, s.bpm.moves.find? (fun m => m.src == src) = some m → s.writing m.dst = false →
    let a : State := { s with bpm := { s.bpm with moves := s.bpm.moves.erase m } }
    let u := a.readMark ecc
    (ecc ≠ 1 → ecc ≠ 2 → u.mayswap m = true → exec (.moveSwap src ecc) s = .next (u.swap m).startEvac) ∧
    (ecc ≠ 1 → ecc ≠ 2 → u.mayswap m = false →
      exec (.moveSwap src ecc) s = .next ((u.giveSpace m.dst m.cells).inc BPM_MOVEABORT.count).syncFree.startEvac) ∧
    (ecc = 1 ∨ ecc = 2 → (s.chain src).gen = m.gen → (s.chain src).owner ≠ 0 →
      exec (.moveSwap src ecc) s = .next (((u.spoil src ecc).giveSpace m.dst m.cells).inc BPM_MOVEABORT.count).syncFree.startEvac) ∧
    (ecc = 1 ∨ ecc = 2 → (s.chain src).gen ≠ m.gen ∨ (s.chain src).owner = 0 →
      exec (.moveSwap src ecc) s = .next ((u.giveSpace m.dst m.cells).inc BPM_MOVEABORT.count).syncFree.startEvac)) ∧
  (∀ s ptr, s.oldest s.prefetchable = some ptr → (s.chain ptr).n ≤ s.freeNow 1 → s.xwait 53 = [] →
    (s.returnCap ptr).all (fun x => decide (0 < x.2.peak.tok)) = true →
    let x := (returnPaid s ptr).takeArea 1 (s.chain ptr).n
    let dst := cellPtr 0 (x.1.head?.getD 0)
    let m : Move := { src := ptr, gen := (s.chain ptr).gen, kind := 0, dst := dst, cells := x.1 }
    let u : State := { x.2 with bpm := { x.2.bpm with moves := x.2.bpm.moves ++ [m] } }
    exec .prefetchStart s = .next (u.xputAll 53 dst x.1).syncFree) ∧
  (∀ s k page u, firstFrom s.bpm.evictNext (s.liveQueues.filter (fun k => s.evictable k && !(s.evictions k).isEmpty)) = some k →
    s.bpm.evictAt ≤ s.fine → s.prefetchable.any (fun p => tierOf p == 2 && decide ((s.chain p).n ≤ s.freeNow 1)) = false →
    s.takePage = some (page, u) → ∃ t, exec .evictionStart s = .next t ∧ t.bpm.evictNext = k + 1 ∧
      t.bpm.moves = u.bpm.moves ++ (u.packPage 0 (u.evictions k)).map (fun x =>
        ({ src := x.2, gen := (u.chain x.2).gen, kind := 1, dst := cellPtr 2 (256 * page + x.1), cells := [] } : Move)) ∧
      t.bpm.evictAt = u.paceNext u.bpm.evictAt ((u.packPage 0 (u.evictions k)).foldl (fun a x => a + (u.chain x.2).n) 0 * 2048)
        (u.rd BPM_RSVCFG.rate_gbps)) ∧
  (∀ s unit, unit ∈ s.bpm.evac →
    (s.evacEmpty unit = false → exec (.evacDone unit) s = .next s.startEvac) ∧
    (s.evacEmpty unit = true → ∃ t, exec (.evacDone unit) s = .next t ∧ unit ∉ t.bpm.evac ∧ (unit < 384 → unit ∈ t.bpm.gone) ∧
      ∀ ch ∈ t.bpm.stripe, 1000 + ch ≠ unit))

/-- GRANT_RECEIVE, REQUEST_RECEIVE, EMPTY_RECEIVE, CREDIT_STALE_REQUEST, CREDIT_LOST_FLUSH, CREDIT_EARN and FLOW_RESYNC. -/
def Obligations.Credits : Prop :=
  (∀ s b, crc8 (sliceB b 0 7) ≠ leAt b 7 1 → exec (.grantReceive b) s = .next (s.inc QM_CREDCRC.count) ∧
    exec (.requestReceive b) s = .next (s.inc QM_CREDCRC.count) ∧ exec (.emptyReceive b) s = .next (s.inc QM_CREDCRC.count)) ∧
  (∀ s b dev voq units, crc8 (sliceB b 0 7) = leAt b 7 1 →
    (creditFields b = (1, dev, voq, units) → dev = s.rd QM_CFG.dev_id → exec (.grantReceive b) s =
      let x := s.voq voq
      .next ((s.inc QM_GRANTRX.count).setVoq voq { x with
        balance := x.balance + units * (256 * 2 ^ s.rd QM_CREDCFG.unit : Nat), grantAt := s.clk })) ∧
    (creditFields b = (1, dev, voq, units) → dev ≠ s.rd QM_CFG.dev_id → exec (.grantReceive b) s = .next (s.inc QM_CREDMISROUTE.count)) ∧
    (creditFields b = (2, dev, voq, units) → s.qm.flows.any (fun e => e.1 == flowKey dev voq) = false →
      (s.qm.flows.length < 65536 →
        exec (.requestReceive b) s = .next { s with qm := { s.qm with flows := Tbl.ins (flowKey dev voq) {} s.qm.flows } }) ∧
      (65536 ≤ s.qm.flows.length → s.qm.flowWait.contains (flowKey dev voq) = true → exec (.requestReceive b) s = .next s) ∧
      (65536 ≤ s.qm.flows.length → s.qm.flowWait.contains (flowKey dev voq) = false → s.qm.flowWait.length < 4096 →
        exec (.requestReceive b) s = .next { s with qm := { s.qm with flowWait := s.qm.flowWait ++ [flowKey dev voq] } }) ∧
      (65536 ≤ s.qm.flows.length → s.qm.flowWait.contains (flowKey dev voq) = false → 4096 ≤ s.qm.flowWait.length →
        exec (.requestReceive b) s = .next (s.inc QM_CREDWAITDROP.count))) ∧
    (∀ f, creditFields b = (2, dev, voq, units) → s.qm.flows.find? (fun e => e.1 == flowKey dev voq) = some (flowKey dev voq, f) →
      exec (.requestReceive b) s = .next (({ s with qm := { s.qm with
        flows := Tbl.ins (flowKey dev voq) { f with emptied := false } s.qm.flows } } : State).checkFlow (flowKey dev voq))) ∧
    (∀ f, creditFields b = (3, dev, voq, units) → s.qm.flows.find? (fun e => e.1 == flowKey dev voq) = some (flowKey dev voq, f) →
      let g : Flow := { f with outstanding := f.outstanding - units * (s.unitBytes : Nat), emptied := true }
      exec (.emptyReceive b) s =
        .next (({ s with qm := { s.qm with flows := Tbl.ins (flowKey dev voq) g s.qm.flows } } : State).checkFlow (flowKey dev voq)))) ∧
  (∀ s v, v < 65536 → (s.queue (voqKey v)).ents ≠ [] →
    ((s.voq v).balance ≤ 0 → Past s (max (s.voq v).grantAt (s.voq v).reqAt) (s.rd QM_CREDTIME.stale_us * 1000) →
      exec (.creditStaleRequest v) s = .next (s.sendRequest v)) ∧
    (0 < s.rd QM_CREDTIME.lost_ms → s.destKind (v / 8) ≠ 2 → Past s (s.voq v).grantAt (s.rd QM_CREDTIME.lost_ms * 1000000) →
      exec (.creditLostFlush v) s = .next ((s.flush (voqKey v) 0x11).post 0x0605
        (leBytes 4 v ++ leBytes 4 (s.queue (voqKey v)).ents.length)))) ∧
  (∀ s d, d < 8192 → s.egValid d = true →
    let g := Tbl.get {} s.qm.gens d
    let due := g.at_ + ceilDiv (s.unitBytes * 80 * 2 ^ 32) (s.egRate d)
    (g.unit = false → s.egRate d = 0 ∨ s.fine < due → exec (.creditEarn d) s = .next s) ∧
    (g.unit = true ∨ (s.egRate d ≠ 0 ∧ due ≤ s.fine) →
      (s.nextFlow d g = none → exec (.creditEarn d) s =
        .next { s with qm := { s.qm with gens := Tbl.set {} s.qm.gens d { g with unit := true } } }) ∧
      (∀ k, s.nextFlow d g = some k →
        let h : CreditGen := { unit := false, at_ := (if g.unit = false ∧ s.fine < due + 2 ^ 32 then due else s.fine),
                               last := Tbl.set 0 g.last (k % 8) (k + 1) }
        let u : State := { s with qm := { s.qm with gens := Tbl.set {} s.qm.gens d h } }
        exec (.creditEarn d) s = .next ((u.onFlow k (fun f => { f with
          outstanding := f.outstanding + (s.unitBytes : Nat),
          cellAt := if f.outstanding ≤ 0 then s.clk else f.cellAt })).creditSend (k / 65536) (creditBytes 1 (k / 65536) (k % 65536) 1))))) ∧
  (∀ s dev voq k f, s.qm.flows.find? (fun e => e.1 == flowKey dev voq) = some (k, f) → 0 < f.outstanding →
    Past s f.cellAt (s.rd QM_CREDTIME.stale_us * 1000) → exec (.flowResync dev voq) s =
      .next (((s.onFlow k (fun f => { f with outstanding := 0 })).inc QM_CREDRESYNC.count).postRated 0x0604 0 1000000 1
        (fun n => [0, 0, 0, 0] ++ leBytes 4 n)))

/-- FABRIC_SCHEDULE, BUCKET_TXQ_EMPTY, FABRIC_DELAY_EXPIRE, LINK_DRAIN, LINK_RESTORE, UNREACH_EXPIRE, PORT_HOLD_EXPIRE, QM_TCMD_WRITE and
QM_TCMD_READ; what becomes of an entry whose chain was released behind its queue is the model's choice (log entry 99), as are the commands that
bring read errors (log entry 10). -/
def Obligations.FabricAndLinks : Prop :=
  (∀ s v e rest k l q ecc, s.nextVoq = some v → s.bridgeUp = true → (s.queue (voqKey v)).ents = e :: rest → s.placeHead v = some (k, l, q) →
    let a := servedVoq s v e
    (s.handleOk e.ptr e.gen = false → exec (.fabricSchedule ecc) s = .next ((a.dequeue (voqKey v) 0x10).releaseQueued e)) ∧
    (s.handleOk e.ptr e.gen = true → s.readError e.ptr ecc = none →
      let b := ((a.dequeue (voqKey v) 0x11).readMark ecc).ownBy e.ptr 0x11
      (e.session = none → exec (.fabricSchedule ecc) s = .next (b.setTxq l q)) ∧
      (∀ n, e.session = some n → exec (.fabricSchedule ecc) s = .next ((b.setTxq l q).countCopy n true e.len))) ∧
    (∀ r lost, s.handleOk e.ptr e.gen = true → s.readError e.ptr ecc = some (r, lost) → exec (.fabricSchedule ecc) s =
      .next (((a.dequeue (voqKey v) 0x10).readMark ecc).dropRead (voqKey v) e r lost))) ∧
  (∀ (s : State) v, s.nextVoq = some v → s.canSend v = true ∧ ∀ w, s.canSend w = true → (s.queue (voqKey w)).ents ≠ [] →
    Tbl.risingFrom 0 s.qm.queues = true → w < 65536 → w % 8 ≤ v % 8) ∧
  (∀ s dev b l, b < 64 → (s.bucket (64 * dev + b)).phase = .draining → (s.bucket (64 * dev + b)).link = some l →
    (pktsOf (s.txq l)).any (fun x => x.bucket == 64 * dev + b) = false →
    exec (.bucketTxqEmpty dev b) s = .next (s.setBucket (64 * dev + b) { s.bucket (64 * dev + b) with phase := .delay, at_ := s.clk })) ∧
  (∀ s dev b, b < 64 → (s.bucket (64 * dev + b)).phase = .delay →
    Past s (s.bucket (64 * dev + b)).at_ (s.rd QM_LBCFG.fabric_delay_us * 1000) →
    let new := newLink s dev (s.bucket (64 * dev + b))
    let u := (s.setBucket (64 * dev + b) { link := new, held := new.isNone }).syncBuckets
    (∀ l, new = some l → (s.bucket (64 * dev + b)).link = none → exec (.fabricDelayExpire dev b) s = .next (u.inc QM_BUCKETMOVE.count).rebalance) ∧
    (∀ l m, new = some l → (s.bucket (64 * dev + b)).link = some m →
      exec (.fabricDelayExpire dev b) s = .next (((u.inc QM_BUCKETMOVE.count).tryOut m).tryRetire m).rebalance) ∧
    (new = none → (s.bucket (64 * dev + b)).link = none → exec (.fabricDelayExpire dev b) s = .next u.rebalance) ∧
    (∀ m, new = none → (s.bucket (64 * dev + b)).link = some m → exec (.fabricDelayExpire dev b) s = .next ((u.tryOut m).tryRetire m).rebalance)) ∧
  (∀ s l, Open s → l < 48 →
    (s.rd (QM_LINKSTAT.state l) = 0 → exec (.linkDrain l) s = .next ((s.wr (QM_LINKCTL.drain l) 1).drainLink l 0)) ∧
    (s.rd (QM_LINKSTAT.state l) = 2 → exec (.linkDrain l) s = .next s) ∧
    (s.rd (QM_LINKSTAT.state l) ≠ 0 → exec (.linkRestore l) s = .next ((s.wr (QM_LINKCTL.restore l) 1).tryRestore l)) ∧
    (s.rd (QM_LINKSTAT.state l) = 0 → exec (.linkRestore l) s = .next s)) ∧
  (∀ s dev t, Tbl.get 0 s.qm.unreachAt dev = t + 1 → Past s t (s.rd QM_LBCFG.unreach_ms * 1000000) →
    let u : State := { s with qm := { s.qm with unreachAt := Tbl.erase s.qm.unreachAt dev } }
    exec (.unreachExpire dev) s = .next ((Tbl.keysWhere (fun k (q : Queue) => decide (2 ^ 20 ≤ k) && !q.ents.isEmpty &&
      u.destDev ((k - 2 ^ 20) / 8) == dev && u.destKind ((k - 2 ^ 20) / 8) != 0) u.qm.queues).foldl (fun s k => s.flush k 0xC) u)) ∧
  (∀ s p t, p < 128 → s.rd (QM_PORTSTAT.state p) = 1 → Tbl.get 0 s.qm.holdAt p = t + 1 →
    Past s t (s.rd (QM_PORTPOL.hold_ms p) * 1000000) → exec (.portHoldExpire p) s = .next (s.portFlush p)) ∧
  (∀ s, Open s →
    let u := untouched QM_TCMD.refused s
    let x := u.writeEnt (u.rd QM_TIDX.kind) (u.rd QM_TIDX.index) (u.rd QM_TDATA0.word) (u.rd QM_TDATA1.word)
    let w := u.readEnt (u.rd QM_TIDX.kind) (u.rd QM_TIDX.index)
    (x.1 = true → exec .qmTcmdWrite s = .next x.2) ∧ (x.1 = false → exec .qmTcmdWrite s = .next (x.2.wr QM_TCMD.refused 1)) ∧
    exec .qmTcmdRead s = .next ((((u.wr QM_TDATA0.word (wordAt w 0)).wr QM_TDATA1.word (wordAt w 1)).wr QM_TDATA2.word
      (wordAt w 2)).wr QM_TDATA3.word (wordAt w 3)))

/-- EGRESS_SELECT, SCH_NODE_WRITE, SCH_NODE_READ and NZ5_REFILL_BOUNDARY; what becomes of an entry whose chain was released behind its queue
is the model's choice (log entry 99), as is the command that brings read errors (log entry 10). -/
def Obligations.SchedulerTree : Prop :=
  (∀ (s : State) level l i, s.bestChild level l = some i → i ∈ l ∧ ∀ j ∈ l, (s.node level j).band ≤ (s.node level i).band) ∧
  (∀ (s : State) level l, s.bestChild level l = none → l = []) ∧
  (∀ (s : State) level i, ∀ x ∈ s.pathUp (5 - level) level i, (s.node x.1 x.2).enable = false → s.eligible level i = false) ∧
  (∀ s p q e rest ecc, firstFrom s.settle.sch.next ((List.range 140).filter (fun p => (s.settle.served p).isSome)) = some p →
    s.settle.served p = some q → (s.settle.queue q).ents = e :: rest →
    let v := taken s.settle p q 0x10 e
    (s.settle.handleOk e.ptr e.gen = false → exec (.egressSelect ecc) s = .next (v.releaseQueued e)) ∧
    (s.settle.handleOk e.ptr e.gen = true → s.settle.aged p e = true →
      exec (.egressSelect ecc) s = .next ((v.dropAt q 0xB e.len).releaseQueued e)) ∧
    (s.settle.handleOk e.ptr e.gen = true → s.settle.aged p e = false → s.settle.readError e.ptr ecc = none →
      exec (.egressSelect ecc) s = .next (((taken s.settle p q (readerOf p) e).readMark ecc).deliverTo p q e)) ∧
    (∀ r lost, s.settle.handleOk e.ptr e.gen = true → s.settle.aged p e = false → s.settle.readError e.ptr ecc = some (r, lost) →
      let w := (v.readMark ecc).dropRead q e r lost
      (p < 128 ∧ r = 7 ∧ lost = false →
        exec (.egressSelect ecc) s = .next (w.bridgeBack { s.settle.egressPacket p q e with errored := true })) ∧
      (128 ≤ p ∨ r ≠ 7 ∨ lost = true → exec (.egressSelect ecc) s = .next w))) ∧
  (∀ s, Open s → s.rd SCH_NIDX.index < levelSize (s.rd SCH_NIDX.level) →
    let level := s.rd SCH_NIDX.level
    let i := s.rd SCH_NIDX.index
    let w := s.nodeWords .bar0
    (s.nodeRefusal level i w = 0 → exec .schNodeWrite s = .next (s.applyNode level i w)) ∧
    (s.nodeRefusal level i w ≠ 0 → exec .schNodeWrite s = .next ((s.wr SCH_STAT.refused 1).wr SCH_STAT.reason (s.nodeRefusal level i w))) ∧
    (let x := s.nodeNow level i
     exec .schNodeRead s = .next ((s.setNode level i x).loadWords .bar0 0x200014
       [x.words.1.d0, x.words.1.d1, x.words.1.d2, x.words.1.d3, x.words.1.d4, x.words.1.d5, x.words.2.1, x.words.2.2]))) ∧
  (∀ s, Open s → levelSize (s.rd SCH_NIDX.level) ≤ s.rd SCH_NIDX.index →
    exec .schNodeWrite s = .next s ∧ exec .schNodeRead s = .next (s.loadWords .bar0 0x200014 [0, 0, 0, 0, 0, 0, 0, 0])) ∧
  (∀ (s : State) level i (w : NodeWords), w.d0 % 65536 = 0 → s.nodeRefusal level i w ≠ 0) ∧
  (∀ s, s.netNs % 10 ^ 9 % 1024 = 0 →
    let nodes := Tbl.mapAll ({} : Node) (fun _ x => { x with comm := x.comm.boundary s.netNs, peak := x.peak.boundary s.netNs }) s.sch.nodes
    exec .nz5RefillBoundary s = .next ({ s with sch := { s.sch with nodes := nodes } } : State).settle)

/-- POL_UPDATE, POLICER_WRITE and POLICER_READ; that a cycle is an island clock is the model's choice (log entry 118), as is the command that
brings errors (log entry 10). -/
def Obligations.Policers : Prop :=
  (∀ (x : Policer) t c b, x.tc ≤ x.cbs → x.te ≤ x.ebs →
    let y := ((x.eval t).colour c b).2
    y.tc ≤ x.cbs ∧ y.te ≤ x.ebs ∧ y.cbs = x.cbs ∧ y.ebs = x.ebs) ∧
  (∀ (x : Policer) c b, x.aware = false → 0 < b →
    (x.twoRate = false → b ≤ x.tc → x.colour c b = (0, { x with tc := x.tc - b })) ∧
    (x.twoRate = false → x.tc < b → b ≤ x.te → x.colour c b = (1, { x with te := x.te - b })) ∧
    (x.twoRate = false → x.tc < b → x.te < b → x.colour c b = (2, x)) ∧
    (x.twoRate = true → x.te < b → x.colour c b = (2, x)) ∧
    (x.twoRate = true → b ≤ x.te → x.tc < b → x.colour c b = (1, { x with te := x.te - b })) ∧
    (x.twoRate = true → b ≤ x.te → b ≤ x.tc → x.colour c b = (0, { x with te := x.te - b, tc := x.tc - b }))) ∧
  (∀ (s0 : State) call ups k, let s := s0.upset ups
    s.presented call 3 = some k → s.polTurn k = false → exec (.polUpdate call ups) s0 = .next s) ∧
  (∀ (s : State) c, (c.at_ = s.clk → s.polTurn c = false) ∧
    ∀ e ∈ s.eng.calls, e.2.accel = 3 → e.2.result = none → polIndex e.2 = polIndex c → e.2.at_ < c.at_ → s.polTurn c = false) ∧
  (∀ (s0 : State) call ups k, let s := s0.upset ups
    s.presented call 3 = some k → s.polTurn k = true →
    (k.key = [] → exec (.polUpdate call ups) s0 = .next (s.answer call k (errorResult stKEY_ERROR 3 rADDRESS))) ∧
    (k.key ≠ [] → k.select ≠ 0 → exec (.polUpdate call ups) s0 = .next (s.answer call k (errorResult stKEY_ERROR 3 rSELECT))) ∧
    (k.key ≠ [] → k.select = 0 → k.key.length ≠ 8 →
      exec (.polUpdate call ups) s0 = .next (s.answer call k (errorResult stKEY_ERROR 3 rKEYLEN)))) ∧
  (∀ (s0 : State) call ups k, let s := s0.upset ups
    s.presented call 3 = some k → s.polTurn k = true → k.select = 0 → k.key.length = 8 →
    let v := beNat k.key
    let i := polIndex k
    let u := s.corrects [(5, i)]
    let x := ((s.policer i).eval u.fdNs).colour (bitsAt v 41 2) (bitsAt v 0 16)
    ((5, i) ∉ s.lkp.eccUnc → (s.policer i).enable = false →
      exec (.polUpdate call ups) s0 = .next (u.answer call k (resultBytes stMISS 3 (bitsAt v 41 2) []))) ∧
    ((5, i) ∉ s.lkp.eccUnc → (s.policer i).enable = true → (s.policer i).count = false →
      exec (.polUpdate call ups) s0 = .next ((u.setPolicer i x.2).answer call k (resultBytes stHIT 3 x.1 []))) ∧
    ((5, i) ∉ s.lkp.eccUnc → (s.policer i).enable = true → (s.policer i).count = true →
      exec (.polUpdate call ups) s0 = .next (((u.setPolicer i x.2).cntAdd true
        ((u.setPolicer i x.2).rd POL_CFG.cnt_base + 3 * i + x.1) 1 (bitsAt v 0 16)).answer call k (resultBytes stHIT 3 x.1 []))) ∧
    ((5, i) ∈ s.lkp.eccUnc → exec (.polUpdate call ups) s0 = .next (u.answer call k (errorResult stTABLE_ERROR 3 rECC)))) ∧
  (∀ s, FdOpen s →
    exec .policerWrite s = .next (tagged s false 0x240030 (2 ^ 32 - 1) 2 (fun u => (u.writePolicer (u.rd POL_IDX.index) (u.live .bar0 0x240014)
      (u.live .bar0 0x240018) (u.live .bar0 0x24001C) (u.live .bar0 0x240020) (u.live .bar0 0x240024)).2)) ∧
    exec .policerRead s = .next (tagged s false 0x240030 (2 ^ 32 - 1) 1 (fun u =>
      u.loadWords .bar0 0x240014 (u.policerNow (u.rd POL_IDX.index)).words))) ∧
  (∀ (s : State) i d0 d1 d2 d3 d4,
    let bad := polRefused (bitOf d0 30) (bitsAt d1 0 28) (bitsAt d2 0 25) (bitsAt d3 0 28) (bitsAt d4 0 25)
    (bad = true → s.writePolicer i d0 d1 d2 d3 d4 = (false, s.wr POL_STAT.refused 1)) ∧
    (bad = false → let t := (s.writePolicer i d0 d1 d2 d3 d4).2
      (Tbl.risingFrom 0 s.sch.pol = true → (t.policer i).tc = bitsAt d2 0 25 ∧ (t.policer i).te = bitsAt d4 0 25) ∧
      ∀ j, j ≠ i → t.policer j = s.policer j))

/-- TG_ACTIVATE, TG_CANCEL, TG_DISABLE, TG_LIST_START, TG_GATE_CHANGE, TG_SCHEDULER_GATE, TG_ENTRY_WRITE and TG_ENTRY_READ. -/
def Obligations.TimeGates : Prop :=
  (∀ s p, Open s → p < 128 → Fits s (TG_CTL.init_gates p) →
    let u := tgAsIs s p
    let g := (u.applyGates p).leadGates p
    (s.rd (TG_CTL.enable p) = 0 → exec (.tgActivate p) s = .next (u.activateGate p) ∧ exec (.tgCancel p) s = .next (u.cancelGate p) ∧
      exec (.tgDisable p) s = .next u) ∧
    (s.rd (TG_CTL.enable p) = 1 → exec (.tgActivate p) s = .next (g.activateGate p) ∧ exec (.tgCancel p) s = .next (g.cancelGate p) ∧
      exec (.tgDisable p) s = .next (u.enableGate p false))) ∧
  (∀ (s : State) p, s.gateRefusal p ≠ 0 →
    s.activateGate p = ((s.wr (TG_STAT.refused p) 1).wr (TG_STAT.reason p) (s.gateRefusal p)).post 0x0702 [p, s.gateRefusal p]) ∧
  (∀ (s : State) p, s.gateRefusal p = 0 →
    let base := (s.rd (TG_BASE1.sec_lo p) + 2 ^ 32 * s.rd (TG_BASE2.sec_hi p)) * 10 ^ 9 + s.rd (TG_BASE0.ns p)
    ∃ st, ((s.activateGate p).gate p).pend = some (st, s.rd (TG_CYCLE.ns p), s.rd (TG_LEN.entries p)) ∧ base ≤ st ∧
      (s.netNs + 2000 ≤ st ∧ (st - base) % s.rd (TG_CYCLE.ns p) = 0 ∧ (base < s.netNs + 2000 → st < s.netNs + 2000 + s.rd (TG_CYCLE.ns p)) ∧
      (s.netNs + 2000 ≤ base → st = base))) ∧
  (∀ (s : State) p, Tbl.risingFrom 0 s.sch.gates = true → ((s.cancelGate p).gate p).pend = none ∧
    ((s.enableGate p false).gate p).pend = none ∧ ((s.enableGate p false).gate p).oper = none) ∧
  (∀ s p st cyc n, p < 128 → (s.gate p).pend = some (st, cyc, n) → st ≤ s.netNs → ∃ t, exec (.tgListStart p) s = .next t ∧
    t.gate p = { s.gate p with oper := some ((s.gate p).admin, st, cyc, n), pend := none, admin := 1 - (s.gate p).admin,
                               before := (s.gate p).nowBits (s.rd (TG_CTL.init_gates p)) (st - 1) }) ∧
  (∀ s p, p < 128 → exec (.tgSchedulerGate p) s = .next (s.leadGates p) ∧ exec (.tgGateChange p) s = .next (s.applyGates p)) ∧
  (∀ (s : State) p, (∀ c, c < 8 → bitOf (s.gatesAt p s.netNs) c = true → bitOf (s.rd (TG_STAT.gates p)) c = true) →
    s.applyGates p = (s.wr (TG_STAT.gates p) (s.gatesAt p s.netNs)).macCollect p) ∧
  (∀ (s : State) p c d n k rest, Tbl.get [] (s.linePort p).wait c = k :: rest →
    (s.wireNs p k.frameLen ≤ d → State.dropNoFit p c d (n + 1) s = s) ∧
    (d < s.wireNs p k.frameLen → State.dropNoFit p c d (n + 1) s = State.dropNoFit p c d n
      (((s.setLinePort p { s.linePort p with wait := Tbl.set [] (s.linePort p).wait c rest }).inc (TG_NOFIT.count p)).macDrop p k))) ∧
  (∀ s p, Open s → p < 128 →
    let k := s.rd (TG_ENTIDX.entry p)
    let e := (s.rd (TG_ENTGATES.gates p), s.rd (TG_ENTIVL.ns p))
    ((s.gate p).pend = none → exec (.tgEntryWrite p) s =
      .next (s.setGate p { s.gate p with list := Tbl.set (0, 0) (s.gate p).list (1024 * (s.gate p).admin + k) e })) ∧
    ((s.gate p).pend ≠ none → exec (.tgEntryWrite p) s = .next ((s.wr (TG_STAT.refused p) 1).wr (TG_STAT.reason p) 1)) ∧
    (let x := (s.gate p).entry (if s.bit (TG_ENTIDX.bank p) then 1 - (s.gate p).admin else (s.gate p).admin) k
     exec (.tgEntryRead p) s = .next ((s.wr (TG_ENTGATES.gates p) x.1).wr (TG_ENTIVL.ns p) x.2)))
/-! ### The memory controllers (09_memory_controllers.md) -/

namespace Sys2Proof.Claims
open Sys2Proof.Machine

/-- A controller in service takes a request of port `k` for a location: the port is present and its queue has room, the location exists, and
only port 5 reaches the training area (R410). -/
def Accepts (s : State) (u k rank bank row col : Nat) : Prop :=
  s.memServes u = true ∧ s.portPresent u k = true ∧ (s.ctl u).portDepth k < 128 ∧ s.isLoc u rank bank row col = true ∧
  (s.inTraining u rank bank row col = true → k = 5)

/-- The request as it arrives, and a request without the note that it has reached its bank queue, and without the count of hits that passed. -/
def asArrived (s : State) (k : Nat) (w : Bool) (rank bank row col data : Nat) : MReq :=
  { port := k, write := w, rank := rank, bank := bank, row := row, col := col, data := data, at_ := s.clk }
def plainReq (r : MReq) : MReq := { r with banked := false }
def unpassed (r : MReq) : MReq := { r with passed := 0 }

/-- What a read meets of an error `err`: nothing in a block that initialisation has not reached (R406). -/
def metBy (s : State) (u : Nat) (r : MReq) (err : Nat) : Nat :=
  if s.isInit u r.rank r.bank r.row r.col = false ∧ Tbl.get 0 s.mem.store (memKey u r) = 0 then 0 else err

/-- The write that puts a location back which the patrol scrub finds corrected (R422). -/
def writeBack (s : State) (r : MReq) (err : Nat) : List MReq :=
  if r.scrub = true ∧ err = 1 then [{ r with write := true, banked := false, passed := 0, at_ := s.clk, scrub := false }] else []

/-- No request is served ahead of refresh debt: none by latency target, none of a panicking port. -/
def noneFirst (s : State) (u : Nat) : Prop := (s.qosTarget u = true → s.urgentReq u = none) ∧ (s.qosTarget u = false → s.panicReq u = none)

/-- A write carried to the die that holds a DDR5 channel's registers: channels 0 to 3 belong to the Forwarding Die. -/
def chanWrite (s : State) (ch v : Nat) (f : State → State) : State :=
  if ch < 4 then tagged s false (0x380000 + 0x2000 * ch) (2 ^ 32 - 1) v f else f s
def ChanOpen (s : State) (ch : Nat) : Prop := if ch < 4 then FdOpen s else Open s

/-- A role and RETAIN that a role write may not ask of a channel (R404, R405), and one that stores them. -/
def badRole (ch role : Nat) (retain : Bool) : Bool :=
  (role == 1 && decide (4 ≤ ch)) || (role == 2 && decide (ch < 4)) || (retain && (role == 0 || role == 2))
def storeRole (s : State) (ch role : Nat) (retain : Bool) : State :=
  (s.wrKept (MCD_CFG.role ch) role).wrKept (MCD_CFG.retain ch) (b2n retain)

/-- RECENTRE's time noted. -/
def centred (s : State) (u n : Nat) : State :=
  { s with mem := { s.mem with centreAt := Tbl.set 0 s.mem.centreAt (32 * u + n) s.clk } }

/-- When the pass of the patrol scrub over a controller began: at once for the first, and for one that is late. -/
def scrubStart (s : State) (u period : Nat) : Nat :=
  let c := s.ctl u
  if c.scrubOn = 0 ∨ (c.scrubAt = 0 ∧ c.scrubOn - 1 + period ≤ s.clk) then s.clk else c.scrubOn - 1

/-- A temperature read noted, with the count of failures before it. -/
def tempTaken (s : State) (g : Nat) : State := { s with mem := { s.mem with tempAt := Tbl.set 0 s.mem.tempAt g s.clk } }

end Sys2Proof.Claims

/-- MEMORY_REQUEST and MEMORY_COMMAND_ISSUE. That debt is paid ahead of the other requests is R418's. What a location is, and when initialisation
reaches it, are the model's choices (log entry 105), as is the command that brings errors (log entry 10). -/
def Obligations.MemoryOrder : Prop :=
  (∀ s u k (w : Bool) rank bank row col data, Accepts s u k rank bank row col → Tbl.risingFrom 0 s.mem.ctls = true →
    let r := asArrived s k w rank bank row col data
    let q := if w then r else { r with data := Tbl.get 0 s.mem.store (memKey u r) }
    ∃ t, exec (.memoryRequest u k w rank bank row col data) s = .next t ∧
      (t.ctl u).reqs.map plainReq = ((s.ctl u).reqs ++ [q]).map plainReq ∧
      t.mem.store = (if w then Tbl.set 0 s.mem.store (memKey u r) data else s.mem.store) ∧
      (s.regsOk = true → 384 ≤ u → s.rd (MCD_STAT.state (u - 384)) = 7 → t.rd (MCD_STAT.state (u - 384)) = 3) ∧
      (∀ j, j < 3 → s.portPresent u j = true → s.panicOff u j < s.panicOn u j →
        (s.panicOn u j * 8 ≤ (t.ctl u).portDepth j → (t.ctl u).panic.contains j = true) ∧
        ((t.ctl u).portDepth j ≤ s.panicOff u j * 8 → (t.ctl u).panic.contains j = false))) ∧
  (∀ s u k j rank bank row col data any, Accepts s u k rank bank row col → Tbl.risingFrom 0 s.mem.ctls = true →
    Tbl.risingFrom 0 s.mem.store = true →
    ∃ t, exec (.memoryRequest u k true rank bank row col data) s = .next t ∧ (Accepts t u j rank bank row col →
      ∃ v, exec (.memoryRequest u j false rank bank row col any) t = .next v ∧
        (((v.ctl u).reqs.getLast?).map (fun r => (r.port, r.write, r.data)) = some (j, false, data)))) ∧
  (∀ s u err lane, s.memServes u = true → (s.ctl u).fixing ≠ [] → exec (.memoryCommandIssue u err lane) s = .next s) ∧
  (∀ s u err lane, s.memServes u = true → (s.ctl u).fixing = [] →
    let v := s.batchStart u
    let c := v.ctl u
    let go := exec (.memoryCommandIssue u err lane) s
    (∀ rank n rest, c.forced = (rank, n) :: rest → go = .next (v.forceRefresh u rank)) ∧
    (∀ bk rows rest, c.forced = [] → c.nbr = (bk, rows) :: rest →
      go = .next ((v.setCtl u { c with nbr := rest, nbrLast := some (bk, rows), cmdAt := Tbl.set 0 c.cmdAt (bk / 64) s.clk,
                                       asleep := c.asleep.filter (· != bk / 64) }).inc (memFld u MCH_NBRREF.count MCD_NBRREF.count))) ∧
    (∀ k i, c.forced = [] → c.nbr = [] → v.qosTarget u = false → v.panicReq u = some (k, i) →
      go = .next ((v.setCtl u { c with turn := if (c.reqs[i]?).any c.isHit then k + 1 else k }).serveReq u i err lane)) ∧
    (∀ i, c.forced = [] → c.nbr = [] → v.qosTarget u = true → v.urgentReq u = some i → go = .next ((v.setCtl u c).serveReq u i err lane)) ∧
    (∀ rank d rest, c.forced = [] → c.nbr = [] → noneFirst v u → c.debt = (rank, d) :: rest →
      go = .next ((v.setCtl u { c with debt := Tbl.set 0 c.debt rank (d - 1) }).refresh u rank)) ∧
    (∀ i, c.forced = [] → c.nbr = [] → noneFirst v u → c.debt = [] → v.nextReq u = some i → go = .next (v.serveReq u i err lane)) ∧
    (c.forced = [] → c.nbr = [] → noneFirst v u → c.debt = [] → v.nextReq u = none → go = .next v)) ∧
  (∀ (s : State) u i err lane r, (s.ctl u).reqs[i]? = some r →
    ((s.ctl u).isHit r = true → ∃ c : Ctl,
      c.reqs.map unpassed = ((s.ctl u).reqs.eraseIdx i).map unpassed ++ writeBack s r (metBy s u r err) ∧
      (r.write = false → c.read = some (r.port, r.data, metBy s u r err == 2) ∧
        s.serveReq u i err lane = ((s.setCtl u c).memFill u).memError u (metBy s u r err) lane) ∧
      (r.write = true → c.read = (s.ctl u).read ∧ s.serveReq u i err lane = (s.setCtl u c).memFill u)) ∧
    ((s.ctl u).isHit r = false → s.serveReq u i err lane = s.activate u r.bk r.row)) ∧
  (∀ size row (t : List (Nat × Nat)), t ≠ [] → (∀ e ∈ t, e.1 ≠ row) →
    (t.length < size → racAdd size row t = t ++ [(row, 1)]) ∧
    (size ≤ t.length → ∃ a e b, t = a ++ e :: b ∧ (∀ x ∈ t, e.2 ≤ x.2) ∧ racAdd size row t = a ++ (row, e.2 + 1) :: b)) ∧
  (∀ size row a n (b : List (Nat × Nat)), (∀ e ∈ a ++ b, e.1 ≠ row) → racAdd size row (a ++ (row, n) :: b) = a ++ (row, n + 1) :: b) ∧
  (∀ (s : State) u bk row, Tbl.risingFrom 0 s.mem.ctls = true → Tbl.risingFrom 0 (s.ctl u).open_ = true →
    let t := racAdd (racSize u) row (Tbl.get [] (s.ctl u).rac bk)
    let limit := s.rd (memFld u MCH_RACFG.threshold MCD_RACFG.threshold)
    let rows := neighbours row (s.rd (memFld u MCH_RACFG.radius MCD_RACFG.radius)) (s.rankLocs u / (64 * rowLocs u))
    Tbl.get 0 ((s.activate u bk row).ctl u).open_ bk = row + 1 ∧
    ((∀ e ∈ t, e.1 = row → e.2 < limit) → ((s.activate u bk row).ctl u).nbr = (s.ctl u).nbr) ∧
    ((∃ e ∈ t, e.1 = row ∧ limit ≤ e.2) → ((s.activate u bk row).ctl u).nbr = (s.ctl u).nbr ++ [(bk, rows)] ∧
      (Tbl.risingFrom 0 (s.ctl u).rac = true →
        Tbl.get [] ((s.activate u bk row).ctl u).rac bk = t.map (fun e => if e.1 = row then (row, 0) else e)))) ∧
  (∀ row radius n m : Nat, m ∈ neighbours row radius n ↔ (m < n ∧ m ≠ row ∧ row ≤ m + radius ∧ m ≤ row + radius))

/-- REFRESH_DUE, MEMORY_TEMP_READ, ACTIVATE_TABLE_CLEAR and PATROL_SCRUB. The scrub's even pace is the model's choice (log entry 106). -/
def Obligations.MemoryUpkeep : Prop :=
  (∀ s u rank, s.memServes u = true → rank < s.ranksOf u →
    let c : Ctl := { s.ctl u with dueAt := Tbl.set 0 (s.ctl u).dueAt rank s.clk }
    let d := Tbl.get 0 c.debt rank
    let held := c.reqs.any (fun r => r.rank == rank && c.panic.contains r.port)
    ((s.ctl u).burst.contains rank = true → exec (.refreshDue u rank) s = .next s) ∧
    ((s.ctl u).burst.contains rank = false → Past s (Tbl.get 0 (s.ctl u).dueAt rank) (s.trefi u) → held = true → d < 4 →
      exec (.refreshDue u rank) s =
        .next ((s.setCtl u { c with debt := Tbl.set 0 c.debt rank (d + 1) }).inc (memFld u MCH_REFPOST.count MCD_REFPOST.count))) ∧
    ((s.ctl u).burst.contains rank = false → Past s (Tbl.get 0 (s.ctl u).dueAt rank) (s.trefi u) → held = false ∨ 4 ≤ d →
      exec (.refreshDue u rank) s = .next (s.setCtl u { c with forced := Tbl.upd 0 c.forced rank (· + 1) }))) ∧
  (∀ s g t0 t1, s.regsOk = true → Tbl.risingFrom 0 s.mem.ctls = true → (g < 6 ∨ (8 ≤ g ∧ g < 16)) →
    Past s (Tbl.get 0 s.mem.tempAt g) (if g < 8 then 1000000 else 16000000) →
    (∀ u ∈ groupCtls g, Tbl.risingFrom 0 (s.ctl u).debt = true ∧ Tbl.risingFrom 0 (s.ctl u).forced = true) →
    let u0 := (groupCtls g).headD 0
    let temp := if g < 8 then t0 else max t0 t1
    (85 < temp → s.refresh2x u0 = false → ∃ t, exec (.memoryTempRead g true t0 t1) s = .next t ∧ t.refresh2x u0 = true ∧
      ∀ u ∈ groupCtls g, (t.ctl u).debt = [] ∧
        ∀ r, Tbl.get 0 (t.ctl u).forced r = Tbl.get 0 (s.ctl u).forced r + 2 * Tbl.get 0 (s.ctl u).debt r) ∧
    (temp ≤ 82 → s.refresh2x u0 = true → ∃ t, exec (.memoryTempRead g true t0 t1) s = .next t ∧ t.refresh2x u0 = false ∧
      ∀ u ∈ groupCtls g, (t.ctl u).forced = (s.ctl u).forced ∧ ∀ r, Tbl.get 0 (t.ctl u).debt r = (Tbl.get 0 (s.ctl u).debt r + 1) / 2) ∧
    (82 < temp → temp ≤ 85 → ∃ t, exec (.memoryTempRead g true t0 t1) s = .next t ∧ t.refresh2x u0 = s.refresh2x u0 ∧ t.mem.ctls = s.mem.ctls) ∧
    (let v := tempTaken s g
     let n := Tbl.get 0 s.mem.tempBad g
     let w : State := { v with mem := { v.mem with tempBad := Tbl.set 0 s.mem.tempBad g (n + 1) } }
     (n + 1 ≠ 3 → exec (.memoryTempRead g false t0 t1) s = .next w) ∧
     (n + 1 = 3 → ∃ t, exec (.memoryTempRead g false t0 t1) s = .next t ∧ t.refresh2x u0 = true ∧
       t.rd (if g < 8 then MCH_STAT.sensor_fault g else MCD_STAT.sensor_fault (g - 8)) = 1))) ∧
  (∀ s, Tbl.risingFrom 0 s.mem.ctls = true → Past s s.mem.racAt 32000000 →
    ∃ t, exec .activateTableClear s = .next t ∧ (∀ u, t.ctl u = { s.ctl u with rac := [] }) ∧ t.regs = s.regs ∧ t.mem.store = s.mem.store) ∧
  (∀ s u, s.memServes u = true → (u < 384 ∨ s.rd (MCD_STAT.state (u - 384)) ≠ 7) → 0 < s.scrubLocs u → (s.ctl u).portDepth 5 < 128 →
    let period := s.rd (memFld u MCH_SCRUB.period_h MCD_SCRUB.period_h) * 3600 * 10 ^ 9
    let start := scrubStart s u period
    let c := s.ctl u
    (0 < period → c.scrubAt * period ≤ s.scrubLocs u * (s.clk - start) →
      (c.scrubAt + 1 < s.scrubLocs u → exec (.patrolScrub u) s =
        .next ((s.setCtl u { c with reqs := c.reqs ++ [s.scrubReq u], scrubAt := c.scrubAt + 1, scrubOn := start + 1 }).memFill u)) ∧
      (s.scrubLocs u ≤ c.scrubAt + 1 → exec (.patrolScrub u) s =
        .next ((s.setCtl u { c with reqs := c.reqs ++ [s.scrubReq u], scrubAt := 0, scrubOn := start + period + 1 }).memFill u))) ∧
    (period = 0 ∨ s.scrubLocs u * (s.clk - start) < c.scrubAt * period → exec (.patrolScrub u) s = .next s)) ∧
  (∀ (s : State) u lane,
    s.memError u 0 lane = s ∧
    (384 ≤ u → s.memError u 1 lane = s.inc (MCD_CE.count (u - 384))) ∧
    (u < 384 →
      let w := winAdd s.clk (Tbl.get (0, 0) (s.ctl u).ce lane)
      let a := s.inc (MCH_CE.count (u / 64))
      let v := a.setCtl u { a.ctl u with ce := Tbl.set (0, 0) (a.ctl u).ce lane w }
      (w.2 ≤ s.rd (MCH_REPAIRCFG.lane_ce (u / 64)) ∨ s.rd (MCH_REPAIRCFG.auto_repair (u / 64)) = 0 → s.memError u 1 lane = v) ∧
      (s.rd (MCH_REPAIRCFG.lane_ce (u / 64)) < w.2 → s.bit (MCH_REPAIRCFG.auto_repair (u / 64)) = true → lane < 32 →
        (v.ctl u).fixing.contains lane = false →
        (v.freeSpares u ≠ 0 → s.memError u 1 lane = v.setCtl u { v.ctl u with fixing := (v.ctl u).fixing ++ [lane] }) ∧
        (v.freeSpares u = 0 → s.memError u 1 lane =
          (v.setCtl u { v.ctl u with ce := Tbl.erase (v.ctl u).ce lane }).post 0x0902 (leBytes 2 u ++ [lane, 0xFF])))) ∧
    (let w := winAdd s.clk (s.ctl u).ue
     let v := s.setCtl u { s.ctl u with ue := w }
     (u < 384 →
       let x := (v.inc (MCH_UE.count (u / 64))).postRated 0x0903 (u / 64) (ms 1) 1 (fun n => [u / 64, 0, 0, 0] ++ leBytes 4 n)
       (w.2 ≤ x.rd (MCH_REPAIRCFG.ue_retire (u / 64)) → s.memError u 2 lane = x) ∧
       (x.rd (MCH_REPAIRCFG.ue_retire (u / 64)) < w.2 → x.bit (MCH_REPAIRCFG.auto_retire (u / 64)) = true →
         x.rd (MCH_PCSTAT.state (u / 64) (u % 64)) = 0 → s.memError u 2 lane = x.pcRetire u 1)) ∧
     (384 ≤ u →
       let x := (v.inc (MCD_UE.count (u - 384))).postRated 0x0913 (u - 384) (ms 1) 1 (fun n => [u - 384, 0, 0, 0] ++ leBytes 4 n)
       (w.2 ≤ x.rd (MCD_ERRCFG.fail_ue (u - 384)) → s.memError u 2 lane = x) ∧
       (x.rd (MCD_ERRCFG.fail_ue (u - 384)) < w.2 → x.rd (MCD_STAT.state (u - 384)) = 3 → s.memError u 2 lane = x.chanFail (u - 384) 0))))

/-- MCD_ROLE_WRITE, MEMORY_TRAINING_DONE, RECENTRE, LANE_REPAIR_DONE, PC_RETIRE_DONE, CHANNEL_EVACUATED, RANK_POWER_DOWN and
SELF_REFRESH_ENTRY. -/
def Obligations.MemoryService : Prop :=
  (∀ s ch role retain rate, ChanOpen s ch → ch < 8 → role < 4 → retain < 2 → rate < 65536 →
    exec (.mcdRoleWrite ch (role * 2 ^ 30 + retain * 2 ^ 29 + rate)) s =
      .next (chanWrite s ch (role * 2 ^ 30 + retain * 2 ^ 29 + rate)
        (fun u => (untouched (MCD_CFG.refused ch) u).writeMcdCfg ch role (retain == 1) true rate))) ∧
  (∀ (s : State) ch role retain, ch < 8 →
    (badRole ch role retain = true → s.writeMcdCfg ch role retain true 0 = s.wr (MCD_CFG.refused ch) 1) ∧
    (badRole ch role retain = false →
      let v := s.abandonTest 3 (· == ch)
      let st := s.rd (MCD_STAT.state ch)
      (st = 0 ∨ st = 5 ∨ (st = 1 ∧ role = 0) → s.writeMcdCfg ch role retain true 0 = storeRole v ch role retain) ∧
      (st = 1 → role ≠ 0 → s.writeMcdCfg ch role retain true 0 = (storeRole v ch role retain).chanTrain ch) ∧
      (st = 3 → role = 0 → s.writeMcdCfg ch role retain true 0 =
        match v.chanEvacuate ch with | .inr w => storeRole w ch role retain | .inl _ => v.wr (MCD_CFG.refused ch) 1) ∧
      (st ≠ 0 → st ≠ 5 → st ≠ 1 → (st ≠ 3 ∨ role ≠ 0) → s.writeMcdCfg ch role retain true 0 = v.wr (MCD_CFG.refused ch) 1))) ∧
  (∀ (s : State) ch role retain roles rate,
    (4800 ≤ rate → rate ≤ 8800 → s.writeMcdCfg ch role retain roles rate = (s.wr (MCD_CFG.max_rate ch) rate).writeMcdCfg ch role retain roles 0) ∧
    (rate < 4800 ∨ 8800 < rate → s.writeMcdCfg ch role retain roles rate = s.writeMcdCfg ch role retain roles 0)) ∧
  (∀ s k nibble kind ranks cap rates bad sweeps, k < 6 → s.regsOk = true → s.rd (MCH_STAT.state k) = 1 →
    (s.hbmFails k bad sweeps = [] → ∃ t, exec (.memoryTrainingDone k 0 nibble kind ranks cap rates bad sweeps) s = .next t ∧
      t.rd (MCH_STAT.state k) = 2) ∧
    (s.hbmFails k bad sweeps ≠ [] → Tbl.get 0 s.mem.tries k < 2 → exec (.memoryTrainingDone k 0 nibble kind ranks cap rates bad sweeps) s =
      .next { s with mem := { s.mem with tries := Tbl.set 0 s.mem.tries k (Tbl.get 0 s.mem.tries k + 1) } }) ∧
    (s.hbmFails k bad sweeps ≠ [] → 2 ≤ Tbl.get 0 s.mem.tries k → exec (.memoryTrainingDone k 0 nibble kind ranks cap rates bad sweeps) s =
      .next ((s.hbmFails k bad sweeps).foldl (fun s x => s.replaceLanes x.1 x.2) (s.tried k))) ∧
    (∀ fail, 0 < fail → exec (.memoryTrainingDone k fail nibble kind ranks cap rates bad sweeps) s = .next ((s.tried k).wr (MCH_STAT.state k) 3))) ∧
  (∀ s ch fail nibble kind ranks cap rates bad sweeps, ch < 8 → s.regsOk = true → s.mem.restore.contains ch = false →
    s.rd (MCD_STAT.state ch) = 2 →
    let u := ((s.wr (MCD_DIMM.type ch) (if kind ≤ 2 then kind else 0)).wr (MCD_DIMM.ranks ch) ranks).wr (MCD_DIMM.capacity_gib ch) cap
    let fits := (kind == 1 || kind == 2) && (ranks == 1 || ranks == 2 || ranks == 4) && decide (cap ≤ 256) && (s.pickRate ch kind rates != 0)
    let v := u.setEyes ch sweeps
    (fail = 3 → exec (.memoryTrainingDone (ch + 8) fail nibble kind ranks cap rates bad sweeps) s = .next ((u.tried (8 + ch)).trainFail ch 0xFF 2)) ∧
    (fail ≠ 3 → fail = 2 ∨ fits = false →
      exec (.memoryTrainingDone (ch + 8) fail nibble kind ranks cap rates bad sweeps) s = .next ((u.tried (8 + ch)).trainFail ch 0xFF 1)) ∧
    (∀ n, fail ≠ 3 → fail ≠ 2 → fits = true → v.ddrBad ch fail nibble sweeps = some n →
      (Tbl.get 0 s.mem.tries (8 + ch) < 2 → exec (.memoryTrainingDone (ch + 8) fail nibble kind ranks cap rates bad sweeps) s =
        .next { v with mem := { v.mem with tries := Tbl.set 0 v.mem.tries (8 + ch) (Tbl.get 0 s.mem.tries (8 + ch) + 1) } }) ∧
      (2 ≤ Tbl.get 0 s.mem.tries (8 + ch) → exec (.memoryTrainingDone (ch + 8) fail nibble kind ranks cap rates bad sweeps) s =
        .next ((v.tried (8 + ch)).trainFail ch n 0))) ∧
    (fail ≠ 3 → fail ≠ 2 → fits = true → v.ddrBad ch fail nibble sweeps = none →
      ∃ t, exec (.memoryTrainingDone (ch + 8) fail nibble kind ranks cap rates bad sweeps) s = .next t ∧
        t.rd (MCD_STAT.state ch) = 3 ∧ t.rd (MCD_STAT.rate ch) = s.pickRate ch kind rates)) ∧
  (∀ s ch nibble kind ranks cap rates bad sweeps, ch < 8 → s.regsOk = true → s.mem.restore.contains ch = true →
    (∃ t, exec (.memoryTrainingDone (ch + 8) 0 nibble kind ranks cap rates bad sweeps) s = .next t ∧ t.rd (MCD_STAT.retained ch) = 1 ∧
      t.rd (MCD_STAT.state ch) = 3) ∧
    (∃ t, exec (.memoryTrainingDone (ch + 8) 1 nibble kind ranks cap rates bad sweeps) s = .next t ∧ t.rd (MCD_STAT.retained ch) = 0 ∧
      t.rd (MCD_STAT.state ch) = 2)) ∧
  (∀ (s : State) ch kind rates, s.pickRate ch kind rates ≠ 0 →
    s.pickRate ch kind rates ∈ rates ∧ s.pickRate ch kind rates ≤ s.rd (MCD_CFG.max_rate ch) ∧
    ∀ r ∈ rates, r ≤ s.rd (MCD_CFG.max_rate ch) → r ∈ (if kind = 1 then [4800, 5200, 5600, 6000, 6400] else [8000, 8800]) →
      r ≤ s.pickRate ch kind rates) ∧
  (∀ old new, old < 256 → new < 256 → -1 ≤ signed 8 (stepToward old new) - signed 8 old ∧ signed 8 (stepToward old new) - signed 8 old ≤ 1) ∧
  (∀ (s : State) u old a b c d sweep,
    let e := (centreOf (runBetween a b), b + 1 - a, centreOf (runBetween c d), d + 1 - c)
    (s.narrow u e = false →
      s.recentred u old (a, b, c, d) sweep = (stepToward (old / 256) e.1, b + 1 - a, stepToward (old % 256) e.2.2.1, d + 1 - c)) ∧
    (s.narrow u e = true → s.recentred u old (a, b, c, d) sweep = eyeOf sweep)) ∧
  (∀ s ch n edges sweep lane, s.memServes (384 + ch) = true → ch < 8 → n < 20 →
    Past s (Tbl.get 0 s.mem.centreAt (32 * (384 + ch) + n)) 100000000 →
    let e := s.recentred (384 + ch) (256 * s.rd (MCD_EYE.rd_centre ch n) + s.rd (MCD_EYE.wr_centre ch n)) edges sweep
    let v := (centred s (384 + ch) n).setEye ch n e
    (s.narrow (384 + ch) e = false → exec (.recentre (384 + ch) n edges sweep lane) s = .next v) ∧
    (s.narrow (384 + ch) e = true → exec (.recentre (384 + ch) n edges sweep lane) s = .next (v.chanFail ch 1))) ∧
  (∀ s u n edges sweep lane, s.memServes u = true → u < 384 → n < 4 → Past s (Tbl.get 0 s.mem.centreAt (32 * u + n)) 100000000 →
    let e := s.recentred u (Tbl.get (0, 0) s.mem.eyes (32 * u + n)).1 edges sweep
    let a := centred s u n
    let eyes := Tbl.ins (32 * u + n) (256 * e.1 + e.2.2.1, min e.2.1 e.2.2.2) s.mem.eyes
    let least := (List.range 4).foldl (fun m g => min m (Tbl.get (0, 63) eyes (32 * u + g)).2) 63
    let v := ({ a with mem := { a.mem with eyes := eyes } } : State).wr (MCH_PCSTAT.eye_min (u / 64) (u % 64)) least
    (s.narrow u e = false → exec (.recentre u n edges sweep lane) s = .next v) ∧
    (s.narrow u e = true → exec (.recentre u n edges sweep lane) s = .next (v.autoRepair u lane))) ∧
  (∀ s pc lane rest, (s.ctl pc).fixing = lane :: rest →
    let t := (s.setCtl pc { s.ctl pc with fixing := rest, ce := Tbl.erase (s.ctl pc).ce lane }).mapSpares pc [lane]
    exec (.laneRepairDone pc) s = .next (t.post 0x0902 (leBytes 2 pc ++ [lane, 2 - (t.repairsOf pc).length])) ∧
    (Tbl.risingFrom 0 s.mem.repairs = true → t.repairsOf pc = s.repairsOf pc ++ [lane])) ∧
  (∀ s pc, s.regsOk = true → Tbl.risingFrom 0 s.mem.retired = true → pc < 384 → s.rd (MCH_PCSTAT.state (pc / 64) (pc % 64)) = 1 →
    s.bpm.evac.contains pc = false →
    ∃ t, exec (.pcRetireDone pc) s = .next t ∧ t.rd (MCH_PCSTAT.state (pc / 64) (pc % 64)) = 2 ∧ Tbl.get 0 t.mem.retired pc ≠ 0) ∧
  (∀ s ch, s.regsOk = true → Tbl.risingFrom 0 s.mem.pins = true → ch < 8 → s.rd (MCD_STAT.state ch) = 4 →
    s.bpm.evac.contains (1000 + ch) = false → s.segsAt (8 + ch) = [] →
    ∃ t, exec (.channelEvacuated ch) s = .next t ∧ t.rd (MCD_STAT.state ch) = 5 ∧ t.rd (MCD_STAT.rate ch) = 0 ∧ Tbl.get {} t.mem.pins ch = {}) ∧
  (∀ s ch rank, ch < 8 → s.rd (MCD_STAT.state ch) = 3 → rank < s.ranksOf (384 + ch) → 0 < s.rd (MCD_PWRCFG.pd_idle_ns ch) →
    Past s (Tbl.get 0 (s.ctl (384 + ch)).cmdAt rank) (s.rd (MCD_PWRCFG.pd_idle_ns ch)) → (s.ctl (384 + ch)).reqs.all (fun r => r.rank != rank) = true →
    exec (.rankPowerDown ch rank) s =
      .next (s.setCtl (384 + ch) { s.ctl (384 + ch) with asleep := insNat rank (s.ctl (384 + ch)).asleep })) ∧
  (∀ s ch, ch < 8 → s.bit (MCD_CFG.retain ch) = true → s.rd (MCD_STAT.state ch) = 3 → 0 < s.rd (MCD_PWRCFG.sr_idle_ms ch) →
    (s.ctl (384 + ch)).reqs = [] → Past s (s.ctl (384 + ch)).busyAt (s.rd (MCD_PWRCFG.sr_idle_ms ch) * 1000000) →
    let u := s.wr (MCD_STAT.state ch) 7
    exec (.selfRefreshEntry ch) s = .next { u with mem := { s.mem with masked := Tbl.set 0 s.mem.masked ch (s.pasrMask ch) } }) ∧
  (∀ (s : State) ch, s.pasrMask ch < 128)
/-! ### Line ports, lanes and fabric links (10_line_ports.md, 11_fabric_link.md) -/

namespace Sys2Proof.Claims
open Sys2Proof.Machine

/-- A write of the word `v` of SDS_CTL of a lane, which lies on the Forwarding Die for line lanes. -/
def laneWrite (s : State) (ln v : Nat) (f : State → State) : State :=
  if ln < 128 then tagged s false (sdsBase ln) (2 ^ 32 - 1) v f else f s
def LaneOpen (s : State) (ln : Nat) : Prop := if ln < 128 then FdOpen s else Open s

/-- What the PRBS checker of a lane that runs one adds to its count. -/
def prbsCounted (s : State) (ln errs : Nat) : State :=
  if s.rd (SDS_CTL.prbs ln) ≠ 0 ∧ s.rd (SDS_STAT.state ln) = 2 then s.addSat (SDS_PRBSERR.count ln) errs else s

/-- The packet that a good frame becomes, and its network time (R462). -/
def rxPacket (s : State) (p : Nat) (f : List Nat) (ago : Nat) : Packet :=
  { bytes := f.take (f.length - 4), pipe := p / 32, port := p, sec := (s.stampAt (s.rd (LPT_TSDELAY.rx_adj p)) ago).1,
    ns := (s.stampAt (s.rd (LPT_TSDELAY.rx_adj p)) ago).2, rxLen := f.length }

/-- The lanes on which a step overruns, each counted and posted (R444). -/
def overrun (s : State) (p step : Nat) (late : List Nat) : State :=
  (s.lateLanes p step late).foldl (fun s ln => (s.inc (SDS_REACQ.count ln)).adaptFail ln 0 step) s

/-- A frame that passes the checks of R459: its check sequence, its shortest and its longest length. -/
def goodFrame (s : State) (p : Nat) (f : List Nat) : Prop :=
  fcsOk f = true ∧ 64 ≤ f.length ∧ f.length ≤ s.rd (LPT_MAXLEN.max_len p)

end Sys2Proof.Claims

/-- PORT_ENABLE, PORT_DISABLE, BRINGUP_STEP_COMPLETE, BRINGUP_TIMEOUT, UP_DEBOUNCE_EXPIRE, FAULT_PENDING_EXPIRE, POLARITY_SEARCH_SWITCH,
LOSS_OF_SIGNAL_SET, LOSS_OF_SIGNAL_CLEAR, LOSS_OF_LOCK_SET, LOSS_OF_LOCK_CLEAR and LANE_STATE_REQUEST; operands of log entry 110. -/
def Obligations.PortsAndLanes : Prop :=
  (∀ s p v, FdOpen s → p < 128 → v < 2 ^ 32 → bitsAt v 17 1 = 0 →
    exec (.portEnable p v) s = .next (tagged s false (0x400000 + 0x800 * p) (2 ^ 32 - 1) (putBits v 31 1 1)
      (fun u => (untouched (LPT_CFG.refused p) u).writeLptCfg p (putBits v 31 1 1))) ∧
    exec (.portDisable p v) s = .next (tagged s false (0x400000 + 0x800 * p) (2 ^ 32 - 1) (putBits v 31 1 0)
      (fun u => (untouched (LPT_CFG.refused p) u).writeLptCfg p (putBits v 31 1 0)))) ∧
  (∀ (s : State) p v, p < 128 →
    let w := s.lptWrite p v
    (s.bit (LPT_CFG.enable p) = true → w.enable = true → s.writeLptCfg p v = s) ∧
    (s.bit (LPT_CFG.enable p) = true → w.enable = false → s.writeLptCfg p v = (s.portOff p).lptStore p w) ∧
    (s.bit (LPT_CFG.enable p) = false → w.enable = true → s.lptOk p w = false → s.writeLptCfg p v = s.wr (LPT_CFG.refused p) 1) ∧
    (s.regsOk = true → s.bit (LPT_CFG.enable p) = false → w.enable = true → s.lptOk p w = true →
      let t := s.writeLptCfg p v
      t.rd (LPT_CFG.enable p) = 1 ∧ t.portState p = 1 ∧ t.rd (LPT_CFG.lanes p) = w.lanes ∧
      (t.linePort p).txOrder = (List.range w.lanes).map (fun i => if w.reverse = 1 then w.lanes - 1 - i else i) ∧
      (∀ i, i < w.lanes → t.rd (SDS_STAT.state (p + i)) = 2 ∧ t.rd (SDS_CTL.rate (p + i)) = laneRate w.speed w.lanes) ∧
      (∀ ln, ln < 320 → (ln < p ∨ p + w.lanes ≤ ln) → t.rd (SDS_STAT.state ln) = s.rd (SDS_STAT.state ln)))) ∧
  (∀ (s : State) p, p < 128 → s.regsOk = true → ∀ ln ∈ s.portLanes p, (s.portOff p).rd (SDS_STAT.state ln) = 1) ∧
  (∀ (s : State) p, s.lineTime < (s.linePort p).txEnd → (s.cutFrame p).txBad = true ∧ (s.cutFrame p).txEnd = s.lineTime) ∧
  (∀ s p temp got order, p < 128 → s.regsOk = true → Tbl.risingFrom 0 s.lpt.ports = true → s.portState p = 1 → 1 ≤ (s.linePort p).step →
    (s.linePort p).step < 7 → ((s.linePort p).step = 1 ∨ s.anyLos p = false) → ((s.linePort p).step ≤ 2 ∨ s.anyLol p = false) →
    ((s.linePort p).step = 5 → orderOk (s.rd (LPT_CFG.lanes p)) order = true) →
    ∃ t, exec (.bringupStepComplete p temp got order) s = .next t ∧ t.portState p = 1 ∧
      (t.linePort p).step = (if (s.linePort p).step = 5 ∧ s.rd (LPT_CFG.fec p) = 0 then 7 else (s.linePort p).step + 1) ∧
      ((s.linePort p).step = 4 → ∀ ln ∈ s.portLanes p, t.rd (SDS_STAT.adapted ln) = 1) ∧
      ((s.linePort p).step = 5 → (t.linePort p).rxOrder = if s.rd (LPT_CFG.lanes p) ≤ 1 then [0] else order)) ∧
  (∀ s p late, p < 128 → s.portState p = 1 → 1 ≤ (s.linePort p).step → (s.linePort p).step ≤ 6 →
    Past s (s.linePort p).stepAt (s.stepLimit p ((s.linePort p).step + 1)) → ((s.linePort p).step ≠ 2 ∨ s.anyLos p = false) →
    ((s.linePort p).step = 4 → (s.linePort p).fast = true → exec (.bringupTimeout p late) s =
      .next ((s.fullAdapt (s.lateLanes p 5 late)).setLinePort p { s.linePort p with fast := false, stepAt := s.clk })) ∧
    ((s.linePort p).step ≠ 4 ∨ (s.linePort p).fast = false → exec (.bringupTimeout p late) s =
      .next (((overrun s p ((s.linePort p).step + 1) late).setLinePort p
        { s.linePort p with step := 1, stepAt := (overrun s p ((s.linePort p).step + 1) late).clk, fast := false }).portTouch p))) ∧
  (∀ s p n, p < 128 → (s.linePort p).since = n + 1 →
    (s.portState p = 1 → Past s n (s.rd (LPT_LINKCFG.up_ms p) * 1000000) → exec (.upDebounceExpire p) s = .next (s.enterUp p)) ∧
    (s.portState p = 3 → Past s n (s.rd (LPT_LINKCFG.down_us p) * 1000) →
      exec (.faultPendingExpire p) s = .next (s.enterDown p (s.faultCause p)))) ∧
  (∀ s ln p, s.portOfLane ln = some p → s.portState p = 1 → (s.linePort p).step = 5 → s.bit (SDS_CTL.rx_pol_auto ln) = true →
    (s.lane ln).polKept = false → Past s (max (s.linePort p).stepAt (s.lane ln).polAt) 200000 → exec (.polaritySearchSwitch ln) s =
      .next ((s.setLane ln { s.lane ln with polAt := s.clk }).wrBit (SDS_STAT.rx_inverted ln) (!s.bit (SDS_STAT.rx_inverted ln)))) ∧
  (∀ s ln mv lock ppm temp, ln < 320 →
    (s.rd (SDS_STAT.state ln) ≠ 0 → s.rd (SDS_STAT.los ln) = 0 → mv < s.rd (SDS_SIGCFG.los_mv ln) → exec (.lossOfSignalSet ln mv temp) s =
      .next ((((s.wr (SDS_STAT.los ln) 1).inc (SDS_LOSCNT.count ln)).freeze ln temp).laneTouch ln)) ∧
    (s.rd (SDS_STAT.state ln) = 2 → s.rd (SDS_STAT.lol ln) = 0 → (lock = false ∨ 250 < ppm ∨ ppm < -250) →
      exec (.lossOfLockSet ln lock ppm temp) s =
        .next ((((s.wr (SDS_STAT.lol ln) 1).inc (SDS_LOLCNT.count ln)).freeze ln temp).laneTouch ln)) ∧
    (s.rd (SDS_STAT.los ln) = 1 → s.rd (SDS_SIGCFG.los_mv ln) + 10 < mv →
      exec (.lossOfSignalClear ln mv temp) s = .next ((s.wr (SDS_STAT.los ln) 0).thaw ln temp)) ∧
    (s.rd (SDS_STAT.lol ln) = 1 → exec (.lossOfLockClear ln temp) s = .next ((s.wr (SDS_STAT.lol ln) 0).thaw ln temp)) ∧
    (s.regsOk = true → (s.freeze ln temp).rd (SDS_STAT.adapt_stored ln) = 1 ∧ (s.freeze ln temp).rd (SDS_STAT.adapted ln) = 0)) ∧
  (∀ s ln v errs, LaneOpen s ln → ln < 320 → v < 2 ^ 32 → bitsAt v 21 1 = 0 → exec (.laneStateRequest ln v errs) s =
    .next (laneWrite (prbsCounted s ln errs) ln v (fun u => (untouched (SDS_CTL.refused ln) u).writeSdsCtl ln v))) ∧
  (∀ (s : State) ln v, s.regsOk = true → ln < 320 →
    (s.laneServes ln = true → bitsAt v 22 2 ≠ 0 → bitsAt v 22 2 ≠ 3 → s.writeSdsCtl ln v = s.wr (SDS_CTL.refused ln) 1) ∧
    (s.laneBusy ln = true → (s.writeSdsCtl ln v).rd (SDS_STAT.state ln) = s.rd (SDS_STAT.state ln)) ∧
    (s.laneBusy ln = false → s.laneServes ln = false → bitsAt v 30 2 ≠ 3 → (s.writeSdsCtl ln v).rd (SDS_STAT.state ln) = bitsAt v 30 2))

/-- FRAME_RECEIVE, FRAME_TRANSMIT, LOSS_OF_BLOCK_LOCK, BLOCK_LOCK_REGAINED and FAULT_SEQUENCE_RECEIVE; the command's operands are those of log
entries 107 and 108. -/
def Obligations.LineFrames : Prop :=
  (∀ s p f start bad cor unc sym, p < 128 →
    let v := s.fecCount p cor unc sym
    let ago := s.clk - start
    let go := exec (.frameReceive p f start none bad cor unc sym) s
    (∀ ln n, ln ∈ v.portLanes p → v.rd (SDS_STAT.state ln) = 2 → exec (.frameReceive p f start (some (ln, n)) bad cor unc sym) s =
      .next ((v.inc (D2D_XOVFL.count ln)).post 0x0007 ([0, 0] ++ leBytes 2 ln))) ∧
    (start < (v.linePort p).leftAt → go = .next (v.inc (LPT_RXDOWN.count p))) ∧
    ((v.linePort p).leftAt ≤ start → v.portState p < 2 → go = .next v) ∧
    ((v.linePort p).leftAt ≤ start → 2 ≤ v.portState p → v.bridgeUp = false → go = .next (v.inc (D2D_ISLDROP.count (p / 32)))) ∧
    ((v.linePort p).leftAt ≤ start → v.bridgeUp = true → v.portState p = 3 → go = .next (v.inc (LPT_RXDOWN.count p))) ∧
    ((v.linePort p).leftAt ≤ start → v.bridgeUp = true → v.portState p = 2 →
      (bad = true → v.rd (LPT_CFG.fec p) ≠ 0 → go = .next (v.inc (LPT_RXFCS.count p))) ∧
      (fcsOk f = false → go = .next (v.inc (LPT_RXFCS.count p))) ∧
      (bad = false → fcsOk f = true → f.length < 64 → go = .next (v.inc (LPT_RXRUNT.count p))) ∧
      (bad = false → fcsOk f = true → 64 ≤ f.length → v.rd (LPT_MAXLEN.max_len p) < f.length → go = .next (v.inc (LPT_RXOVER.count p))) ∧
      (bad = false → goodFrame v p f → beNat (sliceB f 12 2) = 0x8808 →
        (beNat (sliceB f 14 2) = 1 → go = .next (v.pauseFrame p (beNat (sliceB f 16 2)))) ∧
        (beNat (sliceB f 14 2) ≠ 1 → beNat (sliceB f 14 2) ≠ 0x0101 → go = .next (v.inc (LPT_RXCTRL.count p)))) ∧
      (bad = false → goodFrame v p f → beNat (sliceB f 12 2) ≠ 0x8808 → Tbl.risingFrom 0 s.eng.arriving = true →
        ∃ t, go = .next t ∧ Tbl.get [] t.eng.arriving (p / 32) = Tbl.get [] s.eng.arriving (p / 32) ++ [rxPacket v p f ago] ∧
          t.regs = ((v.inc (LPT_RXFRM.count p)).addSat (LPT_RXBYTE.count p) f.length).regs ∧ t.lpt = s.lpt ∧ t.qm = s.qm ∧ t.bpm = s.bpm))) ∧
  (∀ (s : State) p cor unc sym,
    (s.rd (LPT_STAT.fec_lock p) = 0 → s.fecCount p cor unc sym = s) ∧
    (s.rd (LPT_STAT.fec_lock p) = 1 → s.fecCount p cor unc sym =
      ((s.addSat (LPT_FECCOR.count p) cor).addSat (LPT_FECUNC.count p) unc).addSat (LPT_FECSYM.count p) sym)) ∧
  (∀ s p cls, p < 128 →
    let v := s.macCollect p
    let m := v.linePort p
    v.portState p = 2 → m.txEnd < v.lineTime + 1600 →
    (∀ x y rest, m.pfc = (x, y) :: rest → exec (.frameTransmit p cls) s =
      .next (((v.setLinePort p { m with pfc := rest }).inc (QM_PFCTX.count p)).startFrame p (v.pfcBytes p x y))) ∧
    (∀ k rest, m.pfc = [] → Tbl.get [] m.wait cls = k :: rest →
      let u := v.setLinePort p { m with wait := Tbl.set [] m.wait cls rest }
      (k.errored = true → exec (.frameTransmit p cls) s = .next ((u.inc (LPT_TXERR.count p)).macDrop p k)) ∧
      (k.errored = false → bitOf (v.rd (QM_PFCSTAT.paused p)) cls = true → exec (.frameTransmit p cls) s = .next v) ∧
      (k.errored = false → v.gateAdmits p cls k.frameLen = false → exec (.frameTransmit p cls) s = .next v) ∧
      (k.errored = false → bitOf (v.rd (QM_PFCSTAT.paused p)) cls = false → v.gateAdmits p cls k.frameLen = true → k.tstamp = false →
        exec (.frameTransmit p cls) s =
          .next (((u.inc (LPT_TXFRM.count p)).addSat (LPT_TXBYTE.count p) (max 60 k.bytes.length + 4)).startFrame p (k.bytes ++ List.replicate (60 - k.bytes.length) 0))))) ∧
  (∀ (s : State) p b, Tbl.risingFrom 0 s.lpt.ports = true → ((s.startFrame p b).linePort p).tx = some b ∧
    ((s.startFrame p b).linePort p).txEnd =
      max (s.linePort p).txEnd (1600 * s.clk) + (8 + b.length + 4 + s.rd (LPT_TXCFG.ipg p)) * (8 * 1600 / s.portGbps p)) ∧
  (∀ (s : State) p, let v := s.portStat p
    (s.portState p = 2 → v.portState p = 2 → v.faultCause p ≠ 0 → s.portTouch p =
      (((v.leaveUp p).wr (LPT_STAT.state p) 3).setLinePort p { (v.leaveUp p).linePort p with since := v.clk + 1 }).stopClasses p 255) ∧
    (s.portState p = 2 → v.portState p = 2 → v.faultCause p = 0 → s.portTouch p = v) ∧
    (s.portState p = 3 → v.portState p = 3 → v.faultCause p = 0 → s.portTouch p =
      ((v.wr (LPT_STAT.state p) 2).setLinePort p { v.linePort p with since := 0 }).settle.pfcCatchUp p) ∧
    (s.portState p = 3 → v.portState p = 3 → v.faultCause p ≠ 0 → s.portTouch p = v)) ∧
  (∀ (s : State) p, s.faultCause p = 0 ↔ s.anyLos p = false ∧ s.anyLol p = false ∧
    (s.portState p = 0 ∨ (s.linePort p).unlocked = false ∧ 7 ≤ (s.linePort p).step) ∧
    (s.linePort p).rxLocal = false ∧ (s.linePort p).rxRemote = false ∧ s.bit (LPT_TXCFG.force_rf p) = false ∧ s.bridgeUp = true) ∧
  (∀ s p, p < 128 → s.portState p ≠ 0 →
    (6 ≤ (s.linePort p).step → exec (.lossOfBlockLock p) s =
      .next ((s.setLinePort p { s.linePort p with unlocked := true }).portTouch p)) ∧
    (2 ≤ s.portState p → exec (.blockLockRegained p) s =
      .next ((s.setLinePort p { s.linePort p with unlocked := false }).portTouch p)) ∧
    (∀ on, exec (.faultSequenceReceive p true on) s = .next ((s.setLinePort p { s.linePort p with rxLocal := on }).portTouch p) ∧
      exec (.faultSequenceReceive p false on) s = .next ((s.setLinePort p { s.linePort p with rxRemote := on }).portTouch p)))

/-- LINK_ENABLE, LINK_DISABLE, LINK_STANDBY, LANE_MARKER, FABRIC_FRAME_RECEIVE, FABRIC_CELL_RECEIVE, FABRIC_FRAME_TRANSMIT, DEFECT_DECLARE,
DEFECT_CLEAR and SECOND_TICK; lane markers as log entry 109 says. -/
def Obligations.FabricLinks : Prop :=
  (∀ s l v, Open s → l < 48 → v < 2 ^ 32 →
    exec (.linkEnable l v) s = .next (s.writeFlkCtl l (putBits v 31 1 1)) ∧
    exec (.linkDisable l v) s = .next (s.writeFlkCtl l (putBits v 31 1 0)) ∧
    (∀ on, exec (.linkStandby l on) s =
      .next (s.writeFlkCtl l (putBits (s.live .bar0 (0x500000 + 0x1000 * l)) 29 1 (b2n on) % 2 ^ 32)))) ∧
  (∀ (s : State) l v, s.bit (FLK_CTL.enable l) = true → bitOf v 31 = true →
    (bitOf v 30 ≠ s.bit (FLK_CTL.mode l) ∨ bitOf v 28 ≠ s.bit (FLK_CTL.tx_reverse l)) → s.writeFlkCtl l v = s) ∧
  (∀ (s : State) l st, s.regsOk = true → l < 48 → st < 4 → ∀ ln ∈ linkLanes l, (s.linkLanesTo l st).rd (SDS_STAT.state ln) = st ∧
    (s.linkLanesTo l st).rd (SDS_CTL.rate ln) = (if s.bit (FLK_CTL.mode l) then 3 else 4)) ∧
  (∀ s f seen inv dist lane laneN cw seq bip eye, f < 192 → s.rd (SDS_STAT.state (128 + f)) = 2 →
    exec (.laneMarker f seen inv dist lane laneN cw seq bip eye) s =
      .next (((s.adaptLate (128 + f)).setLaneEye (128 + f) eye).markerAt (128 + f) ⟨seen, inv, dist, lane, laneN, cw, seq, bip⟩)) ∧
  (∀ (s : State) ln (m : Sight), let x := s.lane ln
    (s.rd (SDS_STAT.align ln) = 0 → m.seen = true → s.markerAt ln m = s.sighting ln m) ∧
    (s.rd (SDS_STAT.align ln) = 0 → m.seen = false → s.markerAt ln m = s) ∧
    (s.rd (SDS_STAT.align ln) = 1 ∨ s.rd (SDS_STAT.align ln) = 2 → m.dist ≠ markerGap x.cw → s.markerAt ln m = s) ∧
    (m.dist = markerGap x.cw → (m.seen = false ∨ m.laneN ≠ 255 - m.lane % 256) →
      (s.rd (SDS_STAT.align ln) = 1 → s.markerAt ln m = (s.setLane ln { x with good := 0 }).wr (SDS_STAT.align ln) 0) ∧
      (s.rd (SDS_STAT.align ln) = 2 → x.bad < 3 → s.markerAt ln m =
        (s.setLane ln { x with bad := x.bad + 1, cw := (x.cw + 16384) % 20 }).inc (SDS_MKRERR.count ln)) ∧
      (s.rd (SDS_STAT.align ln) = 2 → 3 ≤ x.bad → s.markerAt ln m =
        (((s.setLane ln { x with bad := x.bad + 1, cw := (x.cw + 16384) % 20 }).inc (SDS_MKRERR.count ln)).wr (SDS_STAT.align ln) 0).laneTouch ln)) ∧
    (m.dist = markerGap x.cw → m.seen = true → m.laneN = 255 - m.lane % 256 →
      (s.rd (SDS_STAT.align ln) = 1 → x.good = 0 →
        s.markerAt ln m = (s.setLane ln { x with good := 1 }).markGood ln m.lane m.cw m.seq) ∧
      (s.rd (SDS_STAT.align ln) = 1 → 1 ≤ x.good →
        s.markerAt ln m = ((s.setLane ln { x with good := x.good + 1 }).markGood ln m.lane m.cw m.seq).laneLocked ln) ∧
      (s.rd (SDS_STAT.align ln) = 2 → s.markerAt ln m =
        (((s.setLane ln { x with bad := 0 }).markGood ln m.lane m.cw m.seq).addSat (SDS_BIPERR.count ln) m.bip).laneTouch ln)) ∧
    (s.regsOk = true → (s.laneLocked ln).rd (SDS_STAT.align ln) = 2 ∧ (s.laneLocked ln).rd (SDS_STAT.adapted ln) = 1)) ∧
  (∀ b st, (∀ x ∈ b, x < 256) → (scramble (scramble b st).1 st).1 = b ∧ (scramble (scramble b st).1 st).2 = (scramble b st).2) ∧
  (∀ clear st, clear.length = 244 → (∀ x ∈ clear, x < 256) → st < 2 ^ 31 →
    clearOverhead (beBytes 8 faw ++ beBytes 4 st ++ (scramble clear st).1) = beBytes 8 faw ++ beBytes 4 st ++ clear) ∧
  (∀ s l raw bip cor unc, l < 48 → s.linkOn l = true → s.bit (FLK_STAT.aligned l) = true →
    let x := s.flink l
    let v := s.setFlink l { x with cor := x.cor + cor, unc := x.unc + unc }
    let oh := clearOverhead raw
    (v.rd (FLK_STAT.frame l) = 2 → beNat (sliceB oh 0 8) = faw → exec (.fabricFrameReceive l raw bip cor unc) s =
      .next ((v.setFlink l { v.flink l with miss := 0 }).takeFrame l oh bip)) ∧
    (v.rd (FLK_STAT.frame l) = 2 → beNat (sliceB oh 0 8) ≠ faw → 3 ≤ x.miss →
      exec (.fabricFrameReceive l raw bip cor unc) s = .next ((v.loseFrame l).linkTouch l)) ∧
    (v.rd (FLK_STAT.frame l) ≠ 2 → beNat (sliceB oh 0 8) = faw → crc16 (sliceB oh 12 240) = beNat (sliceB oh 252 2) →
      exec (.fabricFrameReceive l raw bip cor unc) s = .next ((v.hunt l true).linkTouch l))) ∧
  (∀ (s : State) l, s.regsOk = true → (s.flink l).seen = 2 → (s.hunt l true).rd (FLK_STAT.frame l) = 2) ∧
  (∀ s l cell, l < 48 → s.inFrame l = true →
    let v := beNat (sliceB cell 0 16)
    (crc16 (sliceB cell 0 14) ≠ v % 2 ^ 16 ∨ 2 < bitsAt v 125 3 → exec (.fabricCellReceive l cell none) s = .next (s.inc (FLK_HDRERR.count l))) ∧
    (crc16 (sliceB cell 0 14) = v % 2 ^ 16 →
      (bitsAt v 125 3 = 0 → exec (.fabricCellReceive l cell none) s = .next (s.setFlink l { s.flink l with idle := (s.flink l).idle + 1 })) ∧
      (bitsAt v 125 3 = 1 → bitsAt v 111 11 ≠ s.rd QM_CFG.dev_id → exec (.fabricCellReceive l cell none) s =
        .next ((s.inc (FLK_RXCELL.count l)).inc (FLK_MISROUTE.count l))) ∧
      (bitsAt v 125 3 = 1 → bitsAt v 111 11 = s.rd QM_CFG.dev_id → exec (.fabricCellReceive l cell none) s = .next (s.takeCell_ l cell))) ∧
    (∀ g, g / 4 = l → exec (.fabricCellReceive l cell (some g)) s =
      .next (((s.inc (D2D_XOVFF.count g)).post 0x0007 ([1, 0] ++ leBytes 2 g)).inc (FLK_HDRERR.count l)))) ∧
  (∀ (s : State) (h : CellHead) cont, Tbl.risingFrom 0 s.flk.recs = true → h.ucast = false → (Tbl.get {} s.flk.ctxs h.key).part ≠ [] → cont ≠ [] →
    cont.length = (Tbl.get {} s.flk.ctxs h.key).owed →
    Tbl.get [] (s.takeCont h cont).flk.recs h.link =
      Tbl.get [] s.flk.recs h.link ++ [(h.group, recPacket ((Tbl.get {} s.flk.ctxs h.key).part ++ cont))]) ∧
  (∀ (s : State) l k, Tbl.risingFrom 0 s.flk.ctxs = true → (Tbl.get {} s.flk.ctxs k).link = l + 1 →
    (Tbl.get {} (s.dropPartials l).flk.ctxs k).part = []) ∧
  (∀ s l, l < 48 → s.linkOn l = true → (s.flink l).txEnd < 1000 * (s.clk + 1) → Tbl.risingFrom 0 s.flk.links = true →
    Tbl.risingFrom 0 s.qm.txq = true →
    ∃ t, exec (.fabricFrameTransmit l) s = .next t ∧ (t.flink l).fcount = ((s.flink l).fcount + 1) % 256 ∧ (t.flink l).sent.length = 64 ∧
      t.txq l = (s.txq l).drop 63 ∧
      ((s.flink l).mark.count + 128 ≤ 16383 →
        (t.flink l).mark.count = (s.flink l).mark.count + 128 ∧ (t.flink l).mark.sent = (s.flink l).mark.sent) ∧
      (16383 < (s.flink l).mark.count + 128 → (t.flink l).mark.seq = ((s.flink l).mark.seq + 1) % 2 ^ 16 ∧
        (t.flink l).mark.cw = ((s.flink l).mark.cw + 16384) % 20 ∧ (t.flink l).mark.sent.length = (s.flink l).mark.bip.length) ∧
      ∀ i c, i < 63 → (s.txq l)[i]? = some c → ∃ b, (t.flink l).sent[i + 1]? = some b ∧ (b.drop 16).take c.payload.length = c.payload) ∧
  (∀ lane cw seq bip, lane < 4 → cw < 20 → seq < 2 ^ 16 → bip < 256 → let v := laneMarkerBits lane cw seq bip
    v < 2 ^ 257 ∧ bitsAt v 65 8 = lane ∧ bitsAt v 73 8 = 255 - lane ∧ bitsAt v 81 7 = cw ∧ bitsAt v 88 16 = seq ∧ bitsAt v 104 8 = bip) ∧
  (∀ s l d n, l < 48 → d < 3 →
    (Tbl.get 0 (s.flink l).presentAt d = n + 1 → s.bit (defectBit l d) = false → s.suppressed l d = false → Past s n (s.defectSet l d) →
      exec (.defectDeclare l d) s = .next ((((s.setDefect l d true).dropPartials l).linkTouch l).defectLink l 2)) ∧
    (Tbl.get 0 (s.flink l).absentAt d = n + 1 → s.bit (defectBit l d) = true → Past s n (s.defectClear l d) →
      exec (.defectClear l d) s = .next (((s.setDefect l d false).linkTouch l).tryRestore l))) ∧
  (∀ s, s.tim.tickDue = true → ∃ t, exec .secondTick s = .next t ∧ t.tim = { s.tim with tickDue := false, tickStep := false } ∧
    (s.regsOk = true → Tbl.risingFrom 0 s.flk.links = true → ∀ l, l < 48 → (t.flink l).bip = 0 ∧ (t.flink l).idle = 0 ∧
      t.rd (FLK_SECBIP.count l) = (s.flink l).bip % 2 ^ (FLK_SECBIP.count l).width ∧ t.rd (FLK_SECSTAT.irregular l) = b2n s.tim.tickStep))
/-! ### Management seats, repairs and service (12_resilience.md, 14_startup_reset.md R587, R595) -/

namespace Sys2Proof.Claims
open Sys2Proof.Machine

/-- Seat `a` is ACTIVE and the other one STANDBY, and no castling runs. -/
def InStep (s : State) (a : Bool) : Prop := s.seatIs a = 4 ∧ s.seatIs (!a) = 3 ∧ s.upd.castle = none

/-- Evidence of a kind latched against a seat. -/
def latched (s : State) (b : Bool) (kind : Nat) : State := s.wr (seatEvid b) (putBits (s.rd (seatEvid b)) kind 1 1)

/-- A cluster's SRAM repair at its next step. -/
def repairAt (s : State) (k : ClRepair) : State := { s with res := { s.res with repair := some k } }

end Sys2Proof.Claims

/-- SEAT_OUTPUT, SEAT_EVIDENCE, SELFCHECK_DONE, ROLLBACK_DONE, CHECKPOINT_COMMIT, SEAT_HEARTBEAT_SEND, SEAT_HEARTBEAT_LOSS, DETACHED_RETURN,
SEAT_WEDGE, SEAT_FEED_RETURN, SEAT_BOOT_DONE, SEAT_RESTART, RESIGN_CLEAR and RESIGN_CLEAR_TEST_DONE; log entries 58 and 113. -/
def Obligations.Seats : Prop :=
  (∀ (s : State) a i, InStep s a → ((s.seatInput i).seat a).inputs = (s.seat a).inputs ++ [(s.clk, i)] ∧
    ((s.seatInput i).seat (!a)).inputs = (s.seat (!a)).inputs ++ [(s.clk + 2, i)] ∧ (s.seatInput i).res.journal = s.res.journal ++ [i]) ∧
  (∀ s b epoch seq v power, (s.seatIs b = 6 ∨ epoch % 256 ≠ s.rd (seatEpoch b)) →
    exec (.seatOutput b epoch seq v power) s = .next (s.inc SEAT_STALE_SEAT.count)) ∧
  (∀ s b seq v power, s.seatIs b ≠ 6 → s.rd (seatEpoch b) < 256 → s.res.checking = none → (s.seatRole b = 3 ∨ s.seatRole b = 4) → seq < 2 ^ 32 →
    0 < s.outAhead seq → s.outAhead seq < 2 ^ 31 → (∀ e ∈ (s.seat b).held, e.1 ≠ seq) →
    exec (.seatOutput b (s.rd (seatEpoch b)) seq v power) s =
      .next (s.setSeat b { s.seat b with held := (s.seat b).held ++ [(seq, seatOut v power)] }).release2) ∧
  (∀ (s : State) a b, s.inRole 4 = some a → s.inRole 3 = some b →
    let t := State.releaseOut 1 s
    (t.res.lastOut ≠ s.res.lastOut → s.outAhead t.res.lastOut = 1 ∧ (t.res.lastOut, t.res.lastVal) ∈ (s.seat a).held ∧
      (t.res.lastOut, t.res.lastVal) ∈ (s.seat b).held) ∧
    (∀ q v w, (s.seat a).held.find? (fun e => s.outAhead e.1 == 1) = some (q, v) → (s.seat b).held.find? (fun e => e.1 == q) = some (q, w) →
      w ≠ v → State.releaseOut 1 s = { s.inc SEAT_MISMATCH.count with res := { s.res with checking := some s.clk } })) ∧
  (∀ (s : State) a q v, s.inRole 4 = some a → s.inRole 3 = none →
    (s.seat a).held.find? (fun e => s.outAhead e.1 == 1) = some (q, v) →
    (State.releaseOut 1 s).res.lastOut = q ∧ (State.releaseOut 1 s).res.lastVal = v) ∧
  (∀ s a kind, s.regsOk = true → InStep s a →
    (kind = 0 ∨ kind = 2 ∨ kind = 3 ∧ s.res.checking.any (fun n => decide (n + 20000 ≤ s.clk)) = true) →
    ∃ t, exec (.seatEvidence a kind) s = .next t ∧ t.seatIs a = 6 ∧ t.seatIs (!a) = 4 ∧ t.rd (seatEpoch a) = (s.rd (seatEpoch a) + 1) % 256) ∧
  (∀ s a, s.regsOk = true → InStep s a → s.feedIn a = false →
    ∃ t, exec (.seatEvidence a 1) s = .next t ∧ t.seatIs a = 0 ∧ t.seatIs (!a) = 4) ∧
  (∀ s, s.res.checking ≠ none →
    (∀ x y, checkFails x = checkFails y → exec (.selfcheckDone x y) s = .next s.rollback) ∧
    (∀ x y, checkFails x ≠ checkFails y →
      exec (.selfcheckDone x y) s = .next ((latched s (checkFails y) 3).seatOut (checkFails y) false 1))) ∧
  (∀ fired err caught, checkFails (fired, err, caught) = true ↔ fired = true ∨ err = true ∨ caught = false) ∧
  (∀ s a, s.regsOk = true → InStep s a →
    ((s.res.rollbacks.filter (fun t => !decide (t + 1000000000 ≤ s.clk))).length < 2 → s.rollback.seatIs a = 7 ∧ s.rollback.seatIs (!a) = 7 ∧
      (s.rollback.seat a).role = 4 ∧ (s.rollback.seat (!a)).role = 3) ∧
    (2 ≤ (s.res.rollbacks.filter (fun t => !decide (t + 1000000000 ≤ s.clk))).length →
      s.rollback.seatIs a = 4 ∧ s.rollback.seatIs (!a) = 5 ∧ (s.rollback.seat (!a)).detached = 1)) ∧
  (∀ s a, s.regsOk = true → s.seatIs a = 7 → s.seatIs (!a) = 7 → (s.seat a).role = 4 → (s.seat (!a)).role = 3 →
    ∃ t, exec .rollbackDone s = .next t ∧ t.seatIs a = 4 ∧ t.seatIs (!a) = 3) ∧
  (∀ s a, s.regsOk = true → s.res.checking = none → s.seatIs a = 4 → s.upd.castle = none → Past s s.res.ckptAt (s.rd SEAT_CKPT.period_us * 1000) →
    (s.seatIs (!a) = 2 → s.bit GEN_BOOTSTAT.ready = true →
      ∃ t, exec (.checkpointCommit false true true) s = .next t ∧ t.seatIs (!a) = 3 ∧ t.seatIs a = 4 ∧ t.res.ckptAt = s.clk) ∧
    (s.seatIs (!a) = 3 → s.res.handover = true →
      ∃ t, exec (.checkpointCommit false false true) s = .next t ∧ t.seatIs a = 1 ∧ t.seatIs (!a) = 4 ∧ t.res.handover = false)) ∧
  (∀ s b, s.seatRuns b = true → Past s (s.seat b).sentAt (s.rd SEAT_CFG.hb_us * 1000 / 5) →
    (∃ t, exec (.seatHeartbeatSend b true) s = .next t ∧ (t.seat b).sentAt = s.clk ∧ (t.seat (!b)).heardAt = s.clk ∧ t.res.islandAt = s.clk ∧
      t.regs = s.regs) ∧
    (∃ t, exec (.seatHeartbeatSend b false) s = .next t ∧ (t.seat b).sentAt = s.clk ∧ (t.seat (!b)).heardAt = (s.seat (!b)).heardAt ∧
      t.res.islandAt = s.clk ∧ t.regs = s.regs)) ∧
  (∀ s a b, s.regsOk = true → InStep s a → Past s (s.seat b).heardAt (s.rd SEAT_CFG.hb_us * 1000) →
    (s.wedgeDue = true → exec (.seatHeartbeatLoss b) s = .next (s.inc SEAT_STALEMATE.count).wedge) ∧
    (s.wedgeDue = false → s.rd (seatEvid a) = 0 →
      ∃ t, exec (.seatHeartbeatLoss b) s = .next t ∧ t.seatIs (!a) = 5 ∧ (t.seat (!a)).detached = 2 ∧ t.seatIs a = 4) ∧
    (s.wedgeDue = false → s.rd (seatEvid a) ≠ 0 → exec (.seatHeartbeatLoss b) s = .next (s.seatOut a (s.rd (seatEvid a) == 2) 1))) ∧
  (∀ s b n, s.regsOk = true → s.res.bothSince = some n → Past s n 1000000 → s.seatIs b = 5 → (s.seat b).detached = 2 → s.bit SEAT_CFG.auto_return = true →
    s.seatIs (!b) = 4 → ∃ t, exec (.detachedReturn b) s = .next t ∧ t.seatIs b = 2 ∧ t.seatIs (!b) = 4) ∧
  (∀ s, s.regsOk = true → 4 < s.rd GEN_BOOTSTAT.step → Past s s.res.islandAt (s.rd SEAT_CFG.wedge_ms * 1000000) → s.upd.castle = none →
    s.seatIs false ≠ 0 → s.seatIs false ≠ 6 → s.seatIs true ≠ 0 → s.seatIs true ≠ 6 →
    ∃ t, exec .seatWedge s = .next t ∧ t.seatIs false = 1 ∧ t.seatIs true = 1 ∧ t.res.islandAt = s.clk ∧
      ∀ b, t.rd (seatEpoch b) = (s.rd (seatEpoch b) + 1) % 256) ∧
  (∀ s b,
    (s.feedIn b = false → exec (.seatFeedReturn b) s = .next (s.feedBack b) ∧ (s.feedBack b).feedIn b = true ∧
      (s.feedBack b).seatIs b = s.seatIs b) ∧
    (s.feedIn b = true → Past s (if b then s.dies.feedBAt else s.dies.feedAAt) 100000000 →
      (s.regsOk = true → s.seatIs b = 0 → (s.seat b).feedLost = true → s.bit SEAT_CFG.auto_return = true →
        ∃ t, exec (.seatFeedReturn b) s = .next t ∧ t.seatIs b = 1) ∧
      (s.seatIs b ≠ 0 → exec (.seatFeedReturn b) s = .next (s.setSeat b { s.seat b with feedLost := false })))) ∧
  (∀ s b, s.regsOk = true → s.seatIs b = 1 → 4 < s.rd GEN_BOOTSTAT.step → s.upd.castle = none →
    (s.seatIs (!b) = 4 → ∃ t, exec (.seatBootDone b true) s = .next t ∧ t.seatIs b = 2) ∧
    ((s.seatIs (!b) ≠ 1 ∨ s.res.lastActive = b2n b) → s.seatRole (!b) ≠ 4 →
      ∃ t, exec (.seatBootDone b true) s = .next t ∧ t.seatIs b = 4) ∧
    (∀ ok, s.seatIs (!b) = 1 → s.res.lastActive = b2n (!b) → exec (.seatBootDone b ok) s = .next s) ∧
    (s.seatIs (!b) ≠ 1 → exec (.seatBootDone b false) s = .next (s.seatOut b false 4))) ∧
  (∀ s r t b, s.running 0x5B = some (r, t) →
    (1 < t.f 16 1 → exec .seatRestart s = .next (s.finRefused r dBAD_OPERAND)) ∧
    (t.f 16 1 = b2n b → s.upd.castle = none → s.rd UPD_SESS.state ≠ 5 →
      (s.seatIs (!b) ∈ [1, 2, 7] ∨ s.seatIs b ∈ [1, 2, 7] → exec .seatRestart s = .next (s.finBusy r dIN_USE)) ∧
      (s.seatIs b = 4 → s.seatIs (!b) ∈ [0, 5, 6] → exec .seatRestart s = .next (s.finBusy r dLIVE_RESOURCE)) ∧
      (s.seatIs b = 4 → s.seatIs (!b) = 3 →
        exec .seatRestart s = .next (({ s with res := { s.res with handover := true } } : State).finDone r)) ∧
      ((s.seatIs b = 3 ∨ s.seatIs b = 5) → s.seatIs (!b) = 4 →
        exec .seatRestart s = .next (((s.seatBoot b).post 0x0C06 [b2n b, 2]).release2.finDone r)))) ∧
  (∀ s r t, s.running 0x5C = some (r, t) →
    ((∀ x ∈ s.res.resigned, x.handle ≠ sliceB t.desc 16 8) → exec .resignClear s = .next (s.finRefused r dBAD_OPERAND)) ∧
    (∀ x, s.res.resigned.find? (fun x => x.handle == sliceB t.desc 16 8) = some x → x.kind ≠ 2 →
      let l := s.res.resigned.map (fun y => if y.serial = x.serial then { y with testing := true } else y)
      exec .resignClear s = .next (({ s with res := { s.res with resigned := l } } : State).finDone r))) ∧
  (∀ s x pass, s.res.resigned.find? (fun y => y.serial == x.serial && y.testing) = some x → x.kind = 1 →
    let l := s.res.resigned.filter (fun y => y.serial != x.serial)
    let u := ({ s with res := { s.res with resigned := l } } : State).post 0x0C08 (x.handle ++ [b2n pass])
    exec (.resignClearTestDone x.serial pass) s = .next (if pass then u.seatBoot (x.unit == 1) else u.resign x.kind x.unit x.slot 4))

/-- REPAIR_CLUSTER_SRAM, REPAIR_PC_RETIRE, REPAIR_HBM_LANE, REPAIR_LINK_RETIRE, REPAIR_LINK_RETURN, REPAIR_DDR_EVACUATE, REPAIR_DDR_RETURN,
BRIDGE_RETRAIN, CLUSTER_REPAIR_STEP_DONE, AVS_MARGIN_CHECK, AVS_RETRY and STRESS_SAMPLE; weak rows by TABLE_SCRUB (log entry 112). -/
def Obligations.RepairsAndAging : Prop :=
  (∀ s r t, s.running 0x5A = some (r, t) →
    (t.f 16 1 = 0 → s.bridgeUp = true → s.cmdFree = true →
      let w := s.cmdCross
      let c := t.f 20 4
      (24 ≤ c → exec .repairClusterSram s = .next (w.finish r { status := .refused, detail := dBAD_OPERAND })) ∧
      (c < 24 → w.res.repair ≠ none → exec .repairClusterSram s = .next (w.finish r { status := .busy, detail := dIN_USE })) ∧
      (c < 24 → w.res.repair = none → w.upd.castle = none → w.rd UPD_SESS.state ≠ 5 →
        (w.lastIngress c = true → exec .repairClusterSram s = .next (w.finish r { status := .busy, detail := dLIVE_RESOURCE })) ∧
        (w.lastIngress c = false → exec .repairClusterSram s =
          .next (((repairAt w { cluster := c, step := 1, role := w.rd (ENG_CLROLE.role c) }).changeRole c 2).finDone r)))) ∧
    (5 < t.f 16 1 → exec .repairClusterSram s = .next (s.finRefused r dBAD_OPERAND)) ∧
    (t.f 16 1 = 1 → t.f 20 4 < 384 →
      (s.rd (MCH_PCSTAT.state (t.f 20 4 / 64) (t.f 20 4 % 64)) = 0 → exec .repairPcRetire s = .next ((s.pcRetire (t.f 20 4) 2).finDone r)) ∧
      (s.rd (MCH_PCSTAT.state (t.f 20 4 / 64) (t.f 20 4 % 64)) ≠ 0 →
        exec .repairPcRetire s = .next (s.finish r { status := .busy, detail := dIN_USE }))) ∧
    (t.f 16 1 = 2 → t.f 20 4 % 512 < 384 → t.f 20 4 / 512 < 32 →
      let pc := t.f 20 4 % 512
      (s.freeSpares pc = 0 → exec .repairHbmLane s = .next (s.finish r { status := .busy, detail := dIN_USE })) ∧
      (s.freeSpares pc ≠ 0 → (s.ctl pc).fixing.contains (t.f 20 4 / 512) = false → exec .repairHbmLane s =
        .next ((s.setCtl pc { s.ctl pc with fixing := (s.ctl pc).fixing ++ [t.f 20 4 / 512] }).finDone r))) ∧
    (t.f 16 1 = 3 → t.f 20 4 < 48 → exec .repairLinkRetire s =
      .next (((({ s with res := { s.res with retiring := insNat (t.f 20 4) s.res.retiring } } : State).drainLink (t.f 20 4) 4).tryRetire
        (t.f 20 4)).finDone r)) ∧
    (∀ l, t.f 16 1 = 3 → t.f 20 4 = 2 ^ 31 + l → l < 48 →
      let u : State := { s with res := { s.res with retiring := s.res.retiring.filter (· != l) }, flk := { s.flk with retired := s.flk.retired.filter (· != l) } }
      (s.flk.retired.contains l = false → exec .repairLinkReturn s = .next ((u.tryRestore l).finDone r)) ∧
      (s.flk.retired.contains l = true → exec .repairLinkReturn s = .next (((u.saveLinks.post 0x0C0C [l, 1]).tryRestore l).finDone r))) ∧
    (t.f 16 1 = 4 → (4 ≤ t.f 20 4 → exec .repairDdrEvacuate s = .next (s.repairEnd r (s.chanEvacuate (t.f 20 4)))) ∧
      (t.f 20 4 < 4 → s.bridgeUp = true → s.cmdFree = true →
        exec .repairDdrEvacuate s = .next (s.cmdCross.repairEnd r (s.cmdCross.chanEvacuate (t.f 20 4))))) ∧
    (t.f 16 1 = 5 → (4 ≤ t.f 20 4 → exec .repairDdrReturn s = .next (s.repairEnd r (s.chanReturn (t.f 20 4)))) ∧
      (t.f 20 4 < 4 → s.bridgeUp = true → s.cmdFree = true →
        exec .repairDdrReturn s = .next (s.cmdCross.repairEnd r (s.cmdCross.chanReturn (t.f 20 4)))))) ∧
  (∀ (s : State) r, (∀ u : State, s.repairEnd r (.inr u) = u.finDone r) ∧
    (∀ st d, s.repairEnd r (.inl (st, d)) = s.finish r { status := st, detail := d })) ∧
  (∀ (s : State) ch, ch < 8 → let u := s.abandonTest 3 (· == ch)
    (s.rd (MCD_STAT.state ch) = 5 → s.chanReturn ch = .inr (({ u with mem := { u.mem with back := insNat ch u.mem.back } } : State).chanTrain ch)) ∧
    (s.rd (MCD_STAT.state ch) = 4 → s.chanReturn ch = .inl (.busy, dIN_USE)) ∧
    (s.rd (MCD_STAT.state ch) ≠ 4 → s.rd (MCD_STAT.state ch) ≠ 5 → s.chanReturn ch = .inl (.refused, dBAD_OPERAND))) ∧
  (∀ (s : State) ch, ch < 8 → (s.rd (MCD_STAT.state ch) = 4 → s.chanEvacuate ch = .inl (.busy, dIN_USE)) ∧
    (s.rd (MCD_CFG.role ch) = 0 → s.rd (MCD_STAT.state ch) ≠ 4 → s.rd (MCD_STAT.state ch) ≠ 6 → s.chanEvacuate ch = .inl (.refused, dBAD_OPERAND)) ∧
    (s.regsOk = true → s.rd (MCD_CFG.role ch) = 1 → s.rd (MCD_STAT.state ch) = 3 →
      ∃ u, s.chanEvacuate ch = .inr u ∧ u.rd (MCD_STAT.state ch) = 4)) ∧
  (∀ s r t, s.running 0x5D = some (r, t) →
    (24 ≤ t.f 16 1 → t.f 16 1 ≠ 255 → exec .bridgeRetrain s = .next (s.finRefused r dBAD_OPERAND)) ∧
    (t.f 16 1 < 24 ∨ t.f 16 1 = 255 → exec .bridgeRetrain s = .next ((s.retrain (t.f 16 1)).finDone r))) ∧
  (∀ s k rows spares bad slot, s.res.repair = some k →
    (k.step = 1 → s.rd (ENG_CLSTAT.role_now k.cluster) = 2 → s.rd (ENG_CLSTAT.draining k.cluster) = 0 →
      exec (.clusterRepairStepDone rows spares bad slot) s = .next (repairAt s { k with step := 2 })) ∧
    (k.step = 2 → exec (.clusterRepairStepDone rows spares bad slot) s = .next (repairAt s { k with step := 3 })) ∧
    (k.step = 3 →
      exec (.clusterRepairStepDone rows spares 0 slot) s =
        .next (repairAt s { k with step := 4, rows := rows, spares := spares, bad := false, stays := false }) ∧
      (slot < 64 → exec (.clusterRepairStepDone rows spares 1 slot) s =
        .next (repairAt (s.engineDead k.cluster slot 4) { k with step := 4, rows := rows, spares := spares, bad := true, stays := false })) ∧
      exec (.clusterRepairStepDone rows spares 2 slot) s =
        .next (repairAt s { k with step := 4, rows := rows, spares := spares, bad := true, stays := true })) ∧
    (k.step = 4 →
      let new := (k.rows.map (fun x => (x.1, k.cluster, x.2))).filter (fun w => !s.res.rows.contains w)
      exec (.clusterRepairStepDone rows spares bad slot) s =
        .next (repairAt { s with res := { s.res with rows := s.res.rows ++ new } } { k with step := 5 })) ∧
    (k.step = 5 →
      let u : State := { s with res := { s.res with repair := none } }
      exec (.clusterRepairStepDone rows spares bad slot) s =
        .next ((if k.stays then u else u.changeRole k.cluster k.role).post 0x0C0B
          ([k.cluster, b2n k.bad] ++ leBytes 2 k.rows.length ++ leBytes 2 k.spares)))) ∧
  (∀ s table index array c row cells, (array < 3 ∧ c < 24 ∨ array = 3) →
    let at_ := if array < 3 then c else 0xFF
    let go := exec (.tableScrub table index [] (some (array, c, row, true, cells))) s
    (array < 3 → go = .next (s.weakRow array at_ row)) ∧
    (array = 3 → go = .next ((s.weakRow array at_ row).takeRow cells)) ∧
    (s.res.weak.contains (array, at_, row) = true → s.weakRow array at_ row = s) ∧
    (s.res.weak.contains (array, at_, row) = false → ∃ u : State, s.weakRow array at_ row = u.post 0x0C0A ([array, at_, 0, 0] ++ leBytes 4 row) ∧
      (array, at_, row) ∈ u.res.rows ∧ (array, at_, row) ∈ u.res.weak)) ∧
  (∀ s fd td ackFd ackTd, s.pwr.phase = 2 → Past s s.res.avsAt 1000000000 →
    let u : State := { s with res := { s.res with avsAt := s.clk } }
    exec (.avsMarginCheck fd td ackFd ackTd) s = .next ((((u.wr SEAT_AVS.fd_margin fd).wr SEAT_AVS.td_margin td).avsJudge 0 (signed 8 (fd % 256))
      ackFd).avsJudge 1 (signed 8 (td % 256)) ackTd)) ∧
  (∀ (s : State) d margin ack, s.regsOk = true → Tbl.risingFrom 0 s.res.avsHigh = true → d < 2 → s.rd (avsSteps d) ≤ 16 →
    margin < (s.rd SEAT_AVSCFG.target_ps : Int) → (s.avsJudge d margin ack).rd (avsSteps d) = min 16 (s.rd (avsSteps d) + 1)) ∧
  (∀ s ackFd ackTd, s.pwr.phase = 2 → Past s s.res.avsTryAt 1000000000 → Tbl.get 0 s.res.avsMiss 0 ≠ 0 → Tbl.get 0 s.res.avsMiss 1 = 0 →
    exec (.avsRetry ackFd ackTd) s = .next (s.avsSend 0 ackFd)) ∧
  (∀ s, Past s s.res.stressAt 1000000000 → ∃ t, exec .stressSample s = .next t ∧ t.res.stressAt = s.clk ∧ t.res.tjCount = s.res.tjCount + 1 ∧
    t.res.tjSum = s.res.tjSum + max (s.hottest 0) (s.hottest 16) * 10 / 8)
/-! ### Images, updates, castling and recovery (13_update.md) -/

namespace Sys2Proof.Claims
open Sys2Proof.Machine

/-- A message of a type with a good check arrives where chain ports carry messages. -/
def Msg (s : State) (m : List Nat) (type : Nat) : Prop := s.chainOn = true ∧ msgOk m = true ∧ msgType m = type

/-- A chain port with no forwarding under way. -/
def fwdStopped (s : State) (b : Bool) : State := s.setPort b { s.port b with fwd := 0, buf := [], sent := 0 }

/-- The seat that boots the new firmware first is `b`; castling stands at a step. -/
def CastleAt (s : State) (k : Castle) (step : Nat) : Prop := s.upd.castle = some k ∧ k.step = step

end Sys2Proof.Claims

/-- UPD_OFFER, UPD_BLOCK, UPD_VERIFY, VERIFICATION_DONE, SESSION_IDLE_EXPIRE, VERIFIED_HOLD_EXPIRE, CHAIN_OFFER, CHAIN_ACCEPT, CHAIN_BUSY,
CHAIN_REFUSE, CHAIN_BLOCK, CHAIN_ACK, CHAIN_ABORT, CHAIN_HELLO, CHAIN_HELLO_SEND, CHAIN_PORT_DOWN, CHAIN_RETRANSMIT and
CHAIN_FORWARD_TIMEOUT; offers of one cycle as log entry 114 says. -/
def Obligations.UpdateSessions : Prop :=
  (∀ (s : State) f, (s.putRec f).record = { f s.record with seq := s.record.seq + 1 } ∧
    (s.upd.newestBank = 1 → (s.putRec f).upd.rec1 = s.upd.rec1) ∧ (s.upd.newestBank ≠ 1 → (s.putRec f).upd.rec0 = s.upd.rec0)) ∧
  (∀ s r t fe, s.running 0x48 = some (r, t) →
    let h := s.dmaRead (t.f 16 8) 160
    (t.f 24 4 ≠ 160 → exec (.updOffer fe) s = .next (s.finRefused r dBAD_OPERAND)) ∧
    (t.f 24 4 = 160 → s.rd UPD_SESS.state ≠ 0 → exec (.updOffer fe) s = .next (s.updBusy r dIN_USE)) ∧
    (t.f 24 4 = 160 → s.rd UPD_SESS.state = 0 → s.dmaOk = true →
      (s.offerReason 0 h ≠ 0 → exec (.updOffer fe) s = .next (s.finRefused r (s.offerReason 0 h))) ∧
      (s.offerReason 0 h = 0 → exec (.updOffer false) s = .next ((s.openSession 0 h).finOffer r) ∧
        exec (.updOffer true) s = .next ((s.inc UPD_NORERR.count).finRefused r 0x9A)))) ∧
  (∀ (s : State) src h, s.regsOk = true → Tbl.risingFrom 0 s.record.areas = true → src < 3 →
    let t := s.openSession src h
    t.rd UPD_SESS.state = 1 ∧ t.rd UPD_SESS.source = src ∧ t.rd UPD_PROG.bytes = 0 ∧ t.area (s.targetOf h) = 1 ∧ t.upd.header = h ∧
      t.record.confirmed = s.record.confirmed) ∧
  (∀ s r t, s.running 0x49 = some (r, t) → s.dmaOk = true → s.rd UPD_SESS.source = 0 → s.rd UPD_SESS.state = 1 →
    (s.blockOk (t.f 24 4) (t.f 28 4) t.progress = false → exec (.updBlock 1 false) s = .next (s.bulkStop r t.progress 0x97)) ∧
    (s.blockOk (t.f 24 4) (t.f 28 4) t.progress = true → 64 * t.progress < t.f 28 4 → s.fwdFull = false →
      let u := s.storeBytes (s.dmaRead (t.f 16 8 + 64 * t.progress) (min 64 (t.f 28 4 - 64 * t.progress))) false
      u.rd UPD_SESS.state = 1 → exec (.updBlock 1 false) s = .next (if t.f 28 4 ≤ 64 * (t.progress + 1)
        then (u.stepEntry r).finish r { status := .done, detail := 0, progress := t.progress + 1 } else u.stepEntry r))) ∧
  (∀ (s : State) b, Tbl.risingFrom 0 s.upd.nor = true → hdrDelta s.upd.header = false → (∀ x ∈ b, x < 256) →
    (s.storeBytes b false).norBytes (areaBase (s.rd UPD_SESS.target) + s.rd UPD_PROG.bytes) b.length = b) ∧
  (∀ s r t, s.running 0x4A = some (r, t) → s.rd UPD_SESS.source = 0 → t.f 16 4 = s.rd UPD_SESS.session →
    (s.rd UPD_SESS.state = 1 → s.allThere = true → exec .updVerify s = .next ((s.wr UPD_SESS.state 2).finDone r)) ∧
    (s.rd UPD_SESS.state = 1 → s.allThere = false → exec .updVerify s = .next (s.finRefused r dBAD_OPERAND))) ∧
  (∀ s, s.rd UPD_SESS.state = 2 →
    let a := s.rd UPD_SESS.target
    let x := s.verifyReason (s.container 0 (s.rd UPD_PROG.bytes)) (s.imageIn s.record.confirmed) (areaRoom a)
    (∀ fe, x.1 ≠ 0 → exec (.verificationDone fe) s = .next (s.updEnd x.1)) ∧
    (x.1 = 0 → s.regsOk = true → Tbl.risingFrom 0 s.record.areas = true → Tbl.risingFrom 0 s.upd.nor = true →
      ∃ t, exec (.verificationDone false) s = .next t ∧ t.rd UPD_SESS.state = 3 ∧ t.area a = 2 ∧ t.sealOk a = true)) ∧
  (∀ s, (s.rd UPD_SESS.state = 1 → Past s s.upd.byteAt (s.rd UPD_CFG.idle_s * 1000000000) → exec .sessionIdleExpire s = .next (s.updEnd 0x9D)) ∧
    (s.rd UPD_SESS.state = 3 → s.pwr.recovery = false → Past s s.upd.heldAt (s.rd UPD_HOLD.hold_min * 60000000000) →
      exec .verifiedHoldExpire s = .next (s.updEnd 0x9D))) ∧
  (∀ (s : State) n, s.regsOk = true → n < 256 → (s.updEnd n).rd UPD_SESS.state = 0 ∧ (s.updEnd n).rd UPD_SESS.reason = n ∧ (s.updEnd n).upd.header = [] ∧
    (s.updEnd n).upd.nor = s.upd.nor ∧ (s.updEnd n).record = s.record) ∧
  (∀ type session offset info payload, type < 256 → payload.length ≤ 4096 →
    msgOk (chainMsg type session offset info payload) = true ∧ msgType (chainMsg type session offset info payload) = type ∧
      msgPayload (chainMsg type session offset info payload) = payload) ∧
  (∀ s b m fe, s.chainOn = true → msgOk m = false →
    exec (.chainOffer b m fe) s = .next (s.inc UPD_CHNCRC.count) ∧ exec (.chainBlock b m fe) s = .next (s.inc UPD_CHNCRC.count) ∧
    exec (.chainAccept b m) s = .next (s.inc UPD_CHNCRC.count) ∧ exec (.chainBusy b m) s = .next (s.inc UPD_CHNCRC.count) ∧
    exec (.chainRefuse b m) s = .next (s.inc UPD_CHNCRC.count) ∧ exec (.chainAck b m) s = .next (s.inc UPD_CHNCRC.count) ∧
    exec (.chainAbort b m) s = .next (s.inc UPD_CHNCRC.count) ∧ exec (.chainHello b m) s = .next (s.inc UPD_CHNCRC.count)) ∧
  (∀ s b m, Msg s m 0x01 → s.rxAllowed b = true →
    let h := sliceB (msgPayload m) 0 160
    let u := s.openSession (b2n b + 1) h
    (s.rd UPD_SESS.state ≠ 0 → exec (.chainOffer b m false) s =
      .next (s.chainSend b [chainMsg 0x03 s.sessNow 0 (s.rd UPD_SESS.source * 2 ^ 30 + s.rd UPD_SESS.session) []])) ∧
    (s.rd UPD_SESS.state = 0 → msgLength m = 160 → s.offerReason (b2n b + 1) h ≠ 0 →
      exec (.chainOffer b m false) s = .next (s.chainSend b [chainMsg 0x04 0 0 (s.offerReason (b2n b + 1) h) []])) ∧
    (s.rd UPD_SESS.state = 0 → msgLength m = 160 → s.offerReason (b2n b + 1) h = 0 →
      (s.offerFirst b = none → exec (.chainOffer b m false) s = .next (u.chainSend b [chainMsg 0x02 u.sessNow 0 0 []])) ∧
      (∀ src, s.offerFirst b = some src → exec (.chainOffer b m false) s =
        .next (s.chainSend b [chainMsg 0x03 s.sessNow 0 (src * 2 ^ 30 + s.nextSession) []])))) ∧
  (∀ s b m, Msg s m 0x05 →
    (msgOffset m ≠ s.rd UPD_PROG.bytes → exec (.chainBlock b m false) s = .next s) ∧
    (s.chainDown b = true → msgOffset m = s.rd UPD_PROG.bytes → msgOffset m + msgLength m ≤ hdrLength s.upd.header → s.fwdFull = false →
      let u := s.storeBytes (msgPayload m) false
      u.rd UPD_SESS.state = 1 → u.fwdFull = false →
      let v := (u.inc (if b then UPD_CHNRXB.count else UPD_CHNRXA.count)).sendAck
      exec (.chainBlock b m false) s = .next (if v.allThere then v.wr UPD_SESS.state 2 else v))) ∧
  (∀ s b m, Msg s m 0x02 → (s.port b).fwd = 1 →
    exec (.chainAccept b m) s = .next ((s.setPort b { s.port b with fwd := 2, ackAt := s.clk }).sendBlocks b)) ∧
  (∀ s b m, (s.port b).fwd ≠ 0 →
    (Msg s m 0x04 → exec (.chainRefuse b m) s = .next ((fwdStopped s b).ackIfOwed.post 0x0D09
      ([b2n b, 0] ++ ([msgInfo m % 256, 0] ++ leBytes 2 (s.peer b) ++ [0, 0, 0])))) ∧
    (Msg s m 0x03 → exec (.chainBusy b m) s = .next ((fwdStopped s b).ackIfOwed.post 0x0D09
      ([b2n b, 1] ++ ([0, 0] ++ leBytes 2 (s.peer b) ++ leBytes 2 (msgInfo m % 65536) ++ [bitsAt (msgInfo m) 30 2]))))) ∧
  (∀ s b m, Msg s m 0x06 → (s.port b).fwd = 2 →
    (((s.port b).buf.take (s.port b).sent).any (fun e => e.1 + e.2.length == msgOffset m) = true →
      let n := (((s.port b).buf.take (s.port b).sent).filter (fun e => decide (e.1 + e.2.length ≤ msgOffset m))).length
      let p : ChainPort := { s.port b with buf := (s.port b).buf.drop n, sent := (s.port b).sent - n, acked := msgOffset m, ackAt := s.clk }
      exec (.chainAck b m) s = .next (((s.setPort b p).sendBlocks b).ackIfOwed))) ∧
  (∀ s b m, Msg s m 0x07 → s.rd UPD_SESS.source = b2n b + 1 → (s.port false).fwd = 0 → (s.port true).fwd = 0 →
    (0 < s.rd UPD_SESS.state → s.rd UPD_SESS.state < 4 → exec (.chainAbort b m) s = .next (s.updEnd 0x9E)) ∧
    (s.rd UPD_SESS.state = 5 → exec (.chainAbort b m) s = .next (s.castleStart true 1)) ∧
    (s.rd UPD_SESS.state = 4 ∨ s.rd UPD_SESS.state = 6 → exec (.chainAbort b m) s = .next s)) ∧
  (∀ s b m, Msg s m 0x09 → s.regsOk = true → ∃ t, exec (.chainHello b m) s = .next t ∧ t.chainUp b = true ∧ t.peer b = msgInfo m % 2048 ∧
    (t.port b).heardAt = s.clk) ∧
  (∀ s b, s.chainOn = true → Past s (s.port b).sentAt 1000000 → exec (.chainHelloSend b) s =
    .next ((s.setPort b { s.port b with sentAt := s.clk }).chainSend b
      [chainMsg 0x09 s.sessNow 0 (s.rd QM_CFG.dev_id + s.record.confVer % 65536 * 65536) []])) ∧
  (∀ s b, s.chainUp b = true → Past s (s.port b).heardAt 10000000 →
    exec (.chainPortDown b) s = .next (s.wr (if b then UPD_CHAIN.b_up else UPD_CHAIN.a_up) 0)) ∧
  (∀ s b, (s.port b).fwd = 2 → 0 < (s.port b).sent → Past s (max (s.port b).ackAt (s.port b).retryAt) 1000000 →
    exec (.chainRetransmit b) s = .next (((s.addSat UPD_CHNRETX.count (s.port b).sent).setPort b { s.port b with retryAt := s.clk }).chainSend b
      (((s.port b).buf.take (s.port b).sent).map s.blockMsg))) ∧
  (∀ s b, ((s.port b).fwd = 1 ∨ (s.port b).fwd = 2 ∧ 0 < (s.port b).sent) → Past s (s.port b).ackAt (s.rd UPD_CFG.idle_s * 1000000000) →
    let u := (fwdStopped s b).ackIfOwed
    exec (.chainForwardTimeout b) s = .next ((u.chainSend b [chainMsg 0x07 s.sessNow 0 0 []]).post 0x0D0A
      ([b2n b, 0, 0, 0] ++ leBytes 2 (u.peer b) ++ [0, 0] ++ leBytes 4 (s.port b).acked)))

/-- UPD_ACTIVATE, UPD_CONFIRM, UPD_ABORT, CASTLING_STEP_COMPLETE, TRIAL_EXPIRE, RECOVERY_START, RECOVERY_WRITE, RECOVERY_FINISH,
RECOVERY_BOOT and RECOVERY_DONE_EXPIRE. -/
def Obligations.CastlingAndRecovery : Prop :=
  (∀ s r t, s.running 0x4B = some (r, t) → s.rd UPD_SESS.state ≠ 0 → t.f 16 4 = s.rd UPD_SESS.session →
    (s.rd UPD_SESS.state ≠ 3 → exec .updActivate s = .next (s.finRefused r 0x98)) ∧
    (s.rd UPD_SESS.state = 3 → s.rd UPD_SESS.target = 2 → exec .updActivate s = .next (s.finRefused r 0x95)) ∧
    (s.rd UPD_SESS.state = 3 → s.rd UPD_SESS.target ≠ 2 →
      (s.castleBusy ≠ 0 → exec .updActivate s = .next (s.updBusy r s.castleBusy)) ∧
      (s.castleBusy = 0 → exec .updActivate s = .next ((s.castleStart false 0).finDone r)))) ∧
  (∀ (s : State) cause, s.regsOk = true →
    (s.castleStart false cause).rd UPD_SESS.state = 4 ∧ (s.castleStart false cause).record.trial = some (s.rd UPD_SESS.target) ∧
    (s.castleStart true cause).rd UPD_SESS.state = 6 ∧ (s.castleStart true cause).record.trial = none ∧
    (∀ rev, ∃ k, (s.castleStart rev cause).upd.castle = some k ∧ k.step = 1 ∧ k.revert = rev)) ∧
  (∀ s k ok, CastleAt s k 1 → exec (.castlingStepComplete ok) s = .next (s.setCastle { k with step := 2 })) ∧
  (∀ s k ok b, s.regsOk = true → CastleAt s k 2 → s.res.checking = none → s.seatIs b = 3 → s.seatIs (!b) = 4 →
    ∃ t, exec (.castlingStepComplete ok) s = .next t ∧ t.seatIs b = 1 ∧ t.seatIs (!b) = 4 ∧
      t.upd.castle = some { k with step := 3, seat := b2n b }) ∧
  (∀ s k, CastleAt s k 3 → exec (.castlingStepComplete true) s = .next (s.setCastle { k with step := 4 })) ∧
  (∀ s k, CastleAt s k 4 → exec (.castlingStepComplete true) s =
    .next ((s.replayJournal (k.seat == 1)).setCastle { k with step := 5 })) ∧
  (∀ s k b, s.regsOk = true → (CastleAt s k 3 ∨ CastleAt s k 4) → k.revert = false → k.seat = b2n b → s.seatIs b = 1 →
    ∃ t, exec (.castlingStepComplete false) s = .next t ∧ t.upd.castle = none ∧ t.rd UPD_SESS.state = 0 ∧ t.rd UPD_SESS.reason = 0x9C ∧
      t.record.trial = none ∧ t.seatIs b = 1) ∧
  (∀ s k ok b, s.regsOk = true → CastleAt s k 5 → k.seat = b2n b → s.seatIs (!b) = 4 →
    ∃ t, exec (.castlingStepComplete ok) s = .next t ∧ t.seatIs b = 4 ∧ t.seatIs (!b) = 1 ∧ t.upd.castle = some { k with step := 6 }) ∧
  (∀ s k b, s.regsOk = true → CastleAt s k 6 → s.seatIs b = 1 → s.seatIs (!b) = 4 →
    ∃ t, exec (.castlingStepComplete true) s = .next t ∧ t.seatIs b = 2 ∧ t.upd.castle = some { k with step := 7 }) ∧
  (∀ s k ok b, s.regsOk = true → CastleAt s k 7 → s.seatIs b = 2 → s.seatIs (!b) = 4 →
    ∃ t, exec (.castlingStepComplete ok) s = .next t ∧ t.seatIs b = 3 ∧ t.upd.castle = some { k with step := 8 }) ∧
  (∀ s k ok, CastleAt s k 8 → (∀ e ∈ s.upd.displaced, s.drains e.1 = false) →
    (k.clusters = [] → exec (.castlingStepComplete ok) s = .next (s.setCastle { k with step := 9 })) ∧
    (∀ c, s.nextCluster k.clusters = some c → s.drains c = false → s.rd (bankState c (1 - s.rd (ENG_BANKCTL.live_bank c))) ≠ 1 →
      exec (.castlingStepComplete ok) s =
        .next ((if k.revert then s.castleBack c else s.castleLoad c).setCastle { k with clusters := k.clusters.filter (· != c) }))) ∧
  (∀ s k, CastleAt s k 9 →
    (∀ g rest, k.groups = g :: rest → exec (.castlingStepComplete false) s = .next ((s.setCastle { k with groups := rest }).post 0x0D08 (groupName g))) ∧
    (∀ g rest, k.groups = g :: rest → exec (.castlingStepComplete true) s =
      let u := s.setCastle { k with groups := rest }
      .next { u with upd := { u.upd with serdes := if k.revert then u.upd.serdes.filter (· != g) else insNat g u.upd.serdes } }) ∧
    (∀ ok, k.groups = [] → k.revert = false → s.regsOk = true →
      ∃ t, exec (.castlingStepComplete ok) s = .next t ∧ t.rd UPD_SESS.state = 5 ∧ t.upd.castle = none ∧ t.upd.trialAt = s.clk) ∧
    (∀ ok, k.groups = [] → k.revert = true → s.regsOk = true →
      ∃ t, exec (.castlingStepComplete ok) s = .next t ∧ t.rd UPD_SESS.state = 0 ∧ t.upd.castle = none)) ∧
  (∀ s r t, s.running 0x4C = some (r, t) →
    (s.rd UPD_SESS.state ≠ 5 → exec .updConfirm s = .next (s.finRefused r 0x9B)) ∧
    (s.rd UPD_SESS.state = 5 → t.f 16 4 ≠ s.rd UPD_SESS.session → exec .updConfirm s = .next (s.finRefused r 0x99)) ∧
    (s.rd UPD_SESS.state = 5 → t.f 16 4 = s.rd UPD_SESS.session → exec .updConfirm s = .next (s.confirm.finDone r))) ∧
  (∀ (s : State), s.regsOk = true →
    let img := s.imageIn (s.rd UPD_SESS.target)
    s.confirm.record.confirmed = s.rd UPD_SESS.target ∧ s.confirm.record.trial = none ∧ s.confirm.record.confVer = hdrVersion img ∧
    s.confirm.rd UPD_SESS.state = 0 ∧ s.confirm.upd.castle = none ∧
    s.confirm.rd UPD_KEYS.revoked = Nat.lor (s.rd UPD_KEYS.revoked) (revokes img) % 2 ^ UPD_KEYS.revoked.width) ∧
  (∀ s r t, s.running 0x4D = some (r, t) → t.f 16 4 = s.rd UPD_SESS.session →
    (s.rd UPD_SESS.state = 4 ∨ s.rd UPD_SESS.state = 6 → exec .updAbort s = .next (s.updBusy r dIN_USE)) ∧
    (s.rd UPD_SESS.state = 5 → exec .updAbort s = .next ((s.castleStart true 1).finDone r)) ∧
    (0 < s.rd UPD_SESS.state → s.rd UPD_SESS.state < 4 → exec .updAbort s = .next ((s.updEnd 0x9E).finDone r))) ∧
  (∀ s, s.rd UPD_SESS.state = 5 → Past s s.upd.trialAt (s.rd UPD_CFG.trial_min * 60000000000) →
    exec .trialExpire s = .next (s.castleStart true 0)) ∧
  (∀ s data off len fe, s.pwr.recovery = false → exec (.recoveryStart data fe) s = .next s ∧ exec (.recoveryWrite off len data fe) s = .next s ∧
    exec (.recoveryFinish fe) s = .next s ∧ exec .recoveryBoot s = .next s) ∧
  (∀ s data, s.pwr.recovery = true →
    let u := s.window 1 data
    let h := u.pieceBytes 160
    u.rd UPD_SESS.state = 0 →
    (u.offerReason 0 h ≠ 0 → exec (.recoveryStart data false) s = .next ((u.wr UPD_RSTAT.state 3).wr UPD_RSTAT.reason (u.offerReason 0 h))) ∧
    (u.offerReason 0 h = 0 → exec (.recoveryStart data false) s =
      .next ((((u.openSession 0 h).wr UPD_RSTAT.state 1).wr UPD_RSTAT.reason 0).wr UPD_RPROG.bytes 0))) ∧
  (∀ s off len data, s.pwr.recovery = true →
    let u := ((s.window 2 data).wr UPD_ROFF.offset off).wr UPD_RLEN.length len
    u.windowRuns = true →
    (off ≠ u.rd UPD_RPROG.bytes → exec (.recoveryWrite off len data false) s = .next (u.updEnd 0x97)) ∧
    (off = u.rd UPD_RPROG.bytes → 0 < len → len ≤ 983040 → off + len ≤ hdrLength u.upd.header → exec (.recoveryWrite off len data false) s =
      let v := u.storeBytes (u.pieceBytes len) false
      .next (v.wr UPD_RPROG.bytes (v.rd UPD_PROG.bytes)))) ∧
  (∀ s, s.pwr.recovery = true → (s.window 3 []).windowRuns = true →
    exec (.recoveryFinish false) s = .next (((s.window 3 []).wr UPD_SESS.state 2).verifyEnd false)) ∧
  (∀ s, s.pwr.recovery = true → (s.window 4 []).rd UPD_SESS.state = 0 →
    let u := (s.window 4 []).chooseImage false 0
    (u.rd UPD_BOOT.booted ≠ 3 → exec .recoveryBoot s = .next ((u.seatLoad false false).seatLoad true false)) ∧
    (u.rd UPD_BOOT.booted = 3 → exec .recoveryBoot s = .next u)) ∧
  (∀ s, s.pwr.recovery = true → s.rd UPD_RSTAT.state = 4 → Past s s.upd.doneAt 10000000 → exec .recoveryDoneExpire s = .next (s.cold 7))
/-! ### Power, resets and the boot (14_startup_reset.md, 16_package_power.md) -/

namespace Sys2Proof.Claims
open Sys2Proof.Machine

/-- The enables that are high run from group 0 upward without a gap: no main rail is on while a lower-numbered group is off. -/
def EnRun (s : State) : Prop := ∃ k, k ≤ 8 ∧ s.rd GEN_PSEQ.en = 2 ^ k - 1

/-- The stores and the host's memory, which outlive every reset. -/
def StoresKept (s t : State) : Prop :=
  t.upd.rec0 = s.upd.rec0 ∧ t.upd.rec1 = s.upd.rec1 ∧ t.upd.nor = s.upd.nor ∧ t.upd.keys = s.upd.keys ∧ t.hostMem = s.hostMem ∧
  t.mem.retired = s.mem.retired ∧ t.mem.repairs = s.mem.repairs ∧ t.res.rows = s.res.rows ∧ t.pending = s.pending

/-- The commands that act on the rails, the feeds and the clock of the island. -/
def RailCommand (g : Nat) (b : Bool) (c : Instr) : Prop :=
  c ∈ [.sysrstAssert, .sysrstRelease b b b true, .powerSequenceStart, .pseqEnableNext, .pseqPgTimeout, .powerGoodFall g, .powerFaultRestart,
   .railDownNext, .auxFeedsLost b, .auxclkLoss, .auxclkReturn]

end Sys2Proof.Claims

/-- SYSRST_ASSERT, SYSRST_RELEASE, POWER_SEQUENCE_START, PSEQ_ENABLE_NEXT, PSEQ_PG_TIMEOUT, POWER_GOOD_FALL, POWER_FAULT_RESTART,
RAIL_DOWN_NEXT, AUX_FEEDS_LOST, AUXCLK_LOSS, AUXCLK_RETURN, RESET_ARM, COLD_RESET_REQUEST, WARM_RESET_REQUEST, PERST_ASSERT and THERMTRIP. -/
def Obligations.RailsAndResets : Prop :=
  (∀ s g b, s.regsOk = true → EnRun s → ∀ c, RailCommand g b c → ∃ t, exec c s = .next t ∧ EnRun t) ∧
  (∀ s, s.regsOk = true → s.runnable = true → s.pwr.restart = false → s.pwr.phase = 0 → s.rd GEN_BOOTSTAT.step = 2 → s.rd GEN_PSEQ.en = 0 →
    Past s s.pwr.feedAt 10000000 → Past s s.pwr.offAt s.pwr.offFor →
    ∃ t, exec .powerSequenceStart s = .next t ∧ t.rd GEN_PSEQ.en = 1 ∧ t.pwr.phase = 1) ∧
  (∀ s g, s.regsOk = true → s.runnable = true → s.pwr.phase = 1 → g < 8 → s.rd GEN_PSEQ.en = 2 ^ (g + 1) - 1 →
    (Past s s.pwr.enAt 100000 → ∃ t, exec .pseqEnableNext s = .next t ∧
      (g < 7 → t.rd GEN_PSEQ.en = 2 ^ (g + 2) - 1 ∧ t.pwr.phase = 1) ∧ (g = 7 → t.rd GEN_PSEQ.en = 255 ∧ t.pwr.phase = 2)) ∧
    (Past s s.pwr.enAt 10000000 → exec .pseqPgTimeout s = .next (s.powerFault g))) ∧
  (∀ s g, g < 8 → bitOf (s.rd GEN_PSEQ.pg) g = true →
    (bitOf ((s.setPg g false).rd GEN_PSEQ.en) g = true → s.pwr.sysrst = false → s.pwr.phase ≠ 3 →
      exec (.powerGoodFall g) s = .next ((s.setPg g false).powerFault g)) ∧
    (bitOf ((s.setPg g false).rd GEN_PSEQ.en) g = false → exec (.powerGoodFall g) s = .next (s.setPg g false))) ∧
  (∀ (s : State) g, s.regsOk = true → g < 8 → (s.powerFault g).rd GEN_RSTCAUSE.cause = 5 ∧ (s.powerFault g).rd GEN_RSTCAUSE.group = g ∧
    (s.powerFault g).rd GEN_BOOTSTAT.ready = 0 ∧ StoresKept s (s.powerFault g) ∧
    (s.pwr.faultAt = 0 → s.pwr.tripPin = false → (s.powerFault g).pwr.restart = true ∧ (s.powerFault g).pwr.held = s.pwr.held) ∧
    (∀ n, s.pwr.faultAt = n + 1 → s.clk < n + 10000000000 → (s.powerFault g).pwr.restart = false ∧ (s.powerFault g).pwr.held = true)) ∧
  (∀ s, s.regsOk = true → s.runnable = true → s.pwr.restart = true → s.pwr.phase = 0 → s.rd GEN_PSEQ.en = 0 → Past s (s.pwr.faultAt - 1) 100000000 →
    ∃ t, exec .powerFaultRestart s = .next t ∧ t.rd GEN_PSEQ.en = 1 ∧ t.pwr.restart = false ∧ t.pwr.phase = 1) ∧
  (∀ s g, s.regsOk = true → s.pwr.phase = 3 → g < 8 → s.rd GEN_PSEQ.en = 2 ^ (g + 1) - 1 →
    (g = 7 ∨ bitOf (s.rd GEN_PSEQ.pg) (g + 1) = false ∨ Past s s.pwr.enAt 2000000) →
    ∃ t, exec .railDownNext s = .next t ∧ t.rd GEN_PSEQ.en = 2 ^ g - 1 ∧ (g = 0 → t.pwr.phase = 0 ∧ t.pwr.offAt = s.clk)) ∧
  (∀ s, s.regsOk = true → s.pwr.sysrst = false → ∃ t, exec .sysrstAssert s = .next t ∧ t.pwr.sysrst = true ∧ t.rd GEN_RSTCAUSE.cause = 1 ∧
    t.rd GEN_BOOTSTAT.ready = 0 ∧ StoresKept s t) ∧
  (∀ s (recovery : Bool) (quad : Bool) (sris : Bool), s.pwr.sysrst = true →
    (s.regsOk = true → ∃ t, exec (.sysrstRelease recovery quad sris true) s = .next t ∧ t.pwr.sysrst = false ∧ t.pwr.held = false ∧
      t.pwr.tripPin = false ∧ t.rd GEN_STRAPS.straps = b2n recovery + 2 * b2n quad + 4 * b2n sris + 8) ∧
    exec (.sysrstRelease recovery quad sris false) s = .fault .factoryTest) ∧
  (∀ s, s.regsOk = true →
    (∀ torn : Bool, ∃ t, exec (.auxFeedsLost torn) s = .next t ∧ t.rd GEN_PSEQ.en = 0 ∧ t.rd GEN_RSTCAUSE.cause = 2 ∧ t.fed = false ∧
      StoresKept (if torn then s.tearRec else s) t) ∧
    (∃ t, exec .auxclkLoss s = .next t ∧ t.rd GEN_PSEQ.en = 0 ∧ t.pwr.clkLost = true ∧ StoresKept s t) ∧
    (s.pwr.clkLost = true → ∃ t, exec .auxclkReturn s = .next t ∧ t.pwr.clkLost = false ∧ t.rd GEN_BOOTSTAT.ready = 0 ∧ StoresKept s t)) ∧
  (∀ s, s.pwr.recovery = false → s.bit GEN_SEAL.sealed = false → s.cmdWrote.1 ≠ s.clk + 1 →
    let u := untouched GEN_RSTCTL.refused s
    exec .resetArm s = .next u.armReset ∧
    (s.bit GEN_BOOTSTAT.ready = true → u.armed = true → exec .coldResetRequest s = .next (u.cold 3) ∧ exec .warmResetRequest s = .next u.warm) ∧
    (s.bit GEN_BOOTSTAT.ready = false ∨ u.armed = false → exec .coldResetRequest s = .next (u.wr GEN_RSTCTL.refused 1) ∧
      exec .warmResetRequest s = .next (u.wr GEN_RSTCTL.refused 1))) ∧
  (∀ (s : State), s.armed = true ↔ ∃ n, s.pwr.armAt = n + 1 ∧ s.clk ≤ n + 1000000) ∧
  (∀ (s : State) cause, s.regsOk = true → cause < 16 → (s.cold cause).rd GEN_RSTCAUSE.cause = cause ∧ (s.cold cause).rd GEN_BOOTSTAT.kind = 1 ∧
    (s.cold cause).rd GEN_BOOTSTAT.ready = 0 ∧ (s.cold cause).pwr.offFor = 10000000 ∧ StoresKept s (s.cold cause)) ∧
  (∀ (s : State), s.regsOk = true → s.warm.rd GEN_RSTCAUSE.cause = 4 ∧ s.warm.rd GEN_BOOTSTAT.kind = 2 ∧ s.warm.rd GEN_BOOTSTAT.ready = 0 ∧
    s.warm.hif.msix = s.hif.msix ∧ StoresKept s s.warm ∧ s.warm.tim = s.tim ∧ ∀ ch ∈ s.retained, s.warm.rd (MCD_STAT.state ch) = 7) ∧
  (∀ s, (s.pwr.warm = false ∨ s.bit GEN_BOOTSTAT.ready = true) → ∃ t, exec .perstAssert s = .next t ∧ t.hif.rings = [] ∧ t.hif.exec = none ∧
    t.hif.inReset = true ∧ t.eng = s.eng ∧ t.lkp = s.lkp ∧ t.bpm = s.bpm ∧ t.qm = s.qm ∧ t.res = s.res ∧ t.lpt = s.lpt ∧ t.flk = s.flk ∧
    t.mem = s.mem ∧ t.tel = s.tel ∧ t.upd = s.upd ∧ t.hostMem = s.hostMem) ∧
  (∀ s sensor temp, sensor < 32 → 920 ≤ temp → temp < 32768 → s.pwr.tripPin = false → ∃ t, exec (.thermtrip sensor temp) s = .next t ∧
    t.upd.trip = some (sensor, temp) ∧ t.pwr.held = true ∧ t.pwr.tripPin = true ∧ t.pwr.restart = false)

/-- BOOT_STEP_COMPLETE and BOOT_STEP_TIMEOUT. -/
def Obligations.BootSequence : Prop :=
  (∀ (s : State) fails, s.regsOk = true →
    (s.chooseImage true fails).pwr.recovery = true ∧ (s.chooseImage true fails).rd UPD_BOOT.recovery_cause = 2 ∧
    (3 ≤ fails → (s.chooseImage false fails).pwr.recovery = true ∧ (s.chooseImage false fails).rd UPD_BOOT.recovery_cause = 3)) ∧
  (∀ (s : State) fails, s.regsOk = true → fails < 3 → s.upd.rec0.isSome = true → s.record.confirmed < 2 → s.bootCheck s.record.confirmed = true →
    let t := s.chooseImage false fails
    t.rd UPD_BOOT.booted = s.record.confirmed ∧ t.record.trial = none ∧ t.record.confirmed = s.record.confirmed ∧
      t.record.bootFails = fails + 1 ∧ t.rd GEN_BOOTSTAT.step = 4 ∧ t.pwr.recovery = false) ∧
  (∀ (s : State) fails, s.regsOk = true → fails < 3 → s.upd.rec0.isSome = true → s.record.confirmed < 2 → s.bootCheck s.record.confirmed = false →
    let u := s.markArea s.record.confirmed 3
    (u.isSealed (1 - s.record.confirmed) = true → u.bootCheck (1 - s.record.confirmed) = true →
      (s.chooseImage false fails).rd UPD_BOOT.booted = 1 - s.record.confirmed ∧
      (s.chooseImage false fails).record.confirmed = 1 - s.record.confirmed) ∧
    (u.isSealed (1 - s.record.confirmed) = false ∨ u.bootCheck (1 - s.record.confirmed) = false → (s.chooseImage false fails) = u.enterRecovery 1)) ∧
  (∀ s a b bad, s.booting = true →
    (s.rd GEN_BOOTSTAT.step = 1 → exec (.bootStepComplete a b bad) s = .next ((s.bootRecords bad).toStep 2)) ∧
    (s.rd GEN_BOOTSTAT.step = 2 → s.pwr.phase = 2 → exec (.bootStepComplete a b bad) s = .next (((s.avsSend 0 a).avsSend 1 b).toStep 3)) ∧
    (s.rd GEN_BOOTSTAT.step = 2 → s.pwr.phase ≠ 2 → exec (.bootStepComplete a b bad) s = .next s) ∧
    (s.rd GEN_BOOTSTAT.step = 3 →
      let u := s.chooseImage (!bitOf (s.rd GEN_STRAPS.straps) 0) s.record.bootFails
      (u.pwr.recovery = true → exec (.bootStepComplete a b bad) s = .next u) ∧
      (u.pwr.recovery = false → exec (.bootStepComplete a b bad) s = .next ((u.seatLoad false false).seatLoad true false))) ∧
    (s.rd GEN_BOOTSTAT.step = 4 → (a = true ∨ b = true) → s.regsOk = true →
      ∃ t, exec (.bootStepComplete a b bad) s = .next t ∧ t.rd GEN_BOOTSTAT.step = 5 ∧ t.seatIs (!a) = 4 ∧
        t.seatIs a = (if a && b then 2 else 6) ∧ ∀ k, k < 6 → t.rd (MCH_STAT.state k) = 1) ∧
    (s.rd GEN_BOOTSTAT.step = 4 → a = false → b = false → s.regsOk = true →
      ∃ t, exec (.bootStepComplete a b bad) s = .next t ∧ t.rd GEN_BOOTSTAT.kind = 1 ∧ t.rd GEN_BOOTSTAT.ready = 0) ∧
    (s.rd GEN_BOOTSTAT.step = 5 → (∀ k, k < 6 → s.rd (MCH_STAT.state k) ≠ 1) →
      exec (.bootStepComplete a b bad) s = .next ((s.startDdr bad).toStep 6)) ∧
    (s.rd GEN_BOOTSTAT.step = 6 → s.mem.restore = [] → (∀ c, c < 8 → s.rd (MCD_STAT.state c) ≠ 2) →
      exec (.bootStepComplete a b bad) s = .next (s.toStep 7)) ∧
    (s.rd GEN_BOOTSTAT.step = 7 → s.bit D2D_STAT.fd_reset = false → s.regsOk = true →
      ∃ t, exec (.bootStepComplete a b bad) s = .next t ∧ t.rd GEN_BOOTSTAT.step = 8 ∧ ∀ m, m < 24 → t.modState m = 1) ∧
    (s.rd GEN_BOOTSTAT.step = 8 → (∀ m, m < 24 → s.modState m ≠ 1) → exec (.bootStepComplete a b bad) s =
      .next ((s.wrBit GEN_BOOTSTAT.fd_ok (!s.activeMods.isEmpty)).toStep 9)) ∧
    (s.rd GEN_BOOTSTAT.step = 9 → exec (.bootStepComplete a b bad) s = .next ((s.bootEngines bad).toStep 10)) ∧
    (s.rd GEN_BOOTSTAT.step = 10 → exec (.bootStepComplete a b bad) s = .next ((s.bootFib.toStep 11).bootReady))) ∧
  (∀ s, s.booting = true → Past s s.pwr.stepAt (stepBound s.pwr.warm (s.rd GEN_BOOTSTAT.step) + 1000000000) →
    exec .bootStepTimeout s = .next (s.cold 6))

/-! ### Self-tests, block resets, check values; counters, sampling set-up, temperatures and rails (13, 14, 15, 16) -/

/-- SELFTEST, SELFTEST_DONE, BLOCK_RESET, BLOCK_RESET_DONE, CHK_JOB, COUNTER_WRITEBACK, SEGMENT_HOME_WRITE, SEGMENT_MOVE_DONE,
TEL_SESSION_WRITE, TEL_SESSION_READ, THERMAL_SAMPLE and RAIL_SAMPLE. -/
def Obligations.TestsAndTelemetry : Prop :=
  (∀ s r t, s.running 0x58 = some (r, t) → (t.onFd = true → s.bridgeUp = true ∧ s.cmdFree = true) →
    let w := if t.onFd then s.cmdCross else s
    let k := t.f 16 1
    let u := t.f 20 4
    (testUnit k u = false → exec .selftest s = .next (w.finRefused r dBAD_OPERAND)) ∧
    (testUnit k u = true → Tbl.get 0 w.res.tests k ≠ 0 → exec .selftest s = .next (w.finBusy r dIN_USE)) ∧
    (testUnit k u = true → Tbl.get 0 w.res.tests k = 0 → w.testable k u = false → exec .selftest s = .next (w.finBusy r dLIVE_RESOURCE)) ∧
    (testUnit k u = true → Tbl.get 0 w.res.tests k = 0 → w.testable k u = true →
      let v : State := { w with res := { w.res with tests := Tbl.set 0 w.res.tests k (u + 1) } }
      exec .selftest s = .next (((v.wr GEN_STSTAT.running (putBits (w.rd GEN_STSTAT.running) k 1 1)).testStart k u).finDone r))) ∧
  (∀ s kind pass detail rows n, Tbl.get 0 s.res.tests kind = n + 1 → 1 < kind ∨ pass = true ∧ rows = [] → Tbl.risingFrom 0 s.res.tests = true →
    exec (.selftestDone kind pass detail rows) s = .next (s.endTest kind (if pass then 0 else 1) detail) ∧
    Tbl.get 0 (s.endTest kind (if pass then 0 else 1) detail).res.tests kind = 0) ∧
  (∀ s detail rows n, s.regsOk = true → Tbl.get 0 s.res.tests 0 = n + 1 → n < 24 → 0 < s.rd (ENG_SPARES.free n) → s.rd (ENG_SPARES.free n) < 8 →
    ∃ t, exec (.selftestDone 0 false detail rows) s = .next t ∧ t.rd (ENG_SPARES.free n) = s.rd (ENG_SPARES.free n) - 1) ∧
  (∀ s r t, s.running 0x59 = some (r, t) → t.waits = false → (isFdAddr (t.f 16 4) = true → s.bridgeUp = true ∧ s.cmdFree = true) →
    let w := if isFdAddr (t.f 16 4) then s.cmdCross else s
    (blockAt (t.f 16 4) = none → exec .blockReset s = .next (w.finRefused r dBAD_ADDRESS)) ∧
    (∀ b, blockAt (t.f 16 4) = some b → w.resetBusy b ≠ 0 → exec .blockReset s = .next (w.finBusy r (w.resetBusy b))) ∧
    (∀ b, blockAt (t.f 16 4) = some b → w.resetBusy b = 0 →
      exec .blockReset s = .next ((w.resetBlock (t.f 16 4) b).updTaken r (fun t => { t with waits := true })))) ∧
  (∀ s r t l n, s.running 0x59 = some (r, t) → t.waits = true → blockAt (t.f 16 4) = some (.link l) → Tbl.get 0 s.res.resets (t.f 16 4) = n + 1 →
    Past s n 10000 →
    exec (.blockResetDone (t.f 16 4)) s =
      .next (({ s with res := { s.res with resets := Tbl.erase s.res.resets (t.f 16 4) } } : State).finDone r)) ∧
  (∀ s r t, s.running 0x50 = some (r, t) →
    (3 < t.f 16 1 ∨ 2 ^ 24 < t.f 20 4 → exec .chkJob s = .next (s.finRefused r dBAD_OPERAND)) ∧
    (t.f 16 1 ≤ 3 → t.f 20 4 ≤ 2 ^ 24 → s.bit CHK_STAT.busy = true → t.waits = false →
      exec .chkJob s = .next ((s.inc CHK_BUSYCNT.count).finBusy r dIN_USE)) ∧
    (t.f 16 1 ≤ 3 → t.f 20 4 ≤ 2 ^ 24 → s.bit CHK_STAT.busy = false ∨ t.waits = true → s.dmaOk = false → exec .chkJob s =
      .next (((s.wr CHK_STAT.busy 1).wr CHK_STAT.owner 1).updTaken r (fun t => { t with waits := true }))) ∧
    (t.f 16 1 ≤ 3 → t.f 20 4 ≤ 2 ^ 24 → s.bit CHK_STAT.busy = false ∨ t.waits = true → s.dmaOk = true → exec .chkJob s =
      .next ((((s.wr CHK_STAT.busy 0).wr CHK_STAT.owner 0).inc CHK_JOBCNT.count).finData r 0
        (leBytes 8 (crcBy (t.f 16 1) (t.f 32 8) (s.dmaRead (t.f 24 8) (t.f 20 4))))))) ∧
  (∀ s (fd : Bool) i n, ((fd && homeOnTd (s.cntHome i)) = true → s.ctlFree true 1 = true) → (Tbl.get {} (s.cntCache fd) i).since = n + 1 →
    Past s n (s.rd TEL_CACHE.wb_us * 1000) → Tbl.risingFrom 0 s.tel.store = true → Tbl.risingFrom 0 s.tel.fdCache = true →
    Tbl.risingFrom 0 s.tel.tdCache = true →
    ∃ t, exec (.counterWriteback fd i false) s = .next t ∧ (∀ j, t.cntValue j = s.cntValue j) ∧ (Tbl.get {} (t.cntCache fd) i).since = 0) ∧
  (∀ s seg home, Open s → seg < 64 → home < 16 → exec (.segmentHomeWrite seg home) s = .next (s.writeHome seg home)) ∧
  (∀ (s : State) seg home, seg < 64 → home ≠ s.rd (TEL_SEGMAP.home seg) →
    (s.homeOk home = false → s.writeHome seg home = s.wr TEL_STAT.refused 1) ∧
    (s.regsOk = true → s.homeOk home = true → home < 16 → home ≠ 0 → s.rd (TEL_SEGMAP.home seg) ≠ 0 →
      (s.writeHome seg home).rd (TEL_SEGMAP.home seg) = home ∧ (s.writeHome seg home).rd (TEL_SEGMAP.state seg) = 1)) ∧
  (∀ s seg, seg < 64 → s.rd (TEL_SEGMAP.state seg) = 1 → exec (.segmentMoveDone seg) s =
    .next (((s.endMove seg).wr (TEL_SEGMAP.state seg) 0).post 0x0E04 [seg, s.rd (TEL_SEGMAP.home seg)])) ∧
  (∀ s, Open s →
    (s.sessionOk (s.sessionWords .bar0) = true →
      exec .telSessionWrite s = .next (s.setSession (s.rd (TEL_SIDX.session.on .bar0)) (s.sessionWords .bar0))) ∧
    (s.sessionOk (s.sessionWords .bar0) = false → exec .telSessionWrite s = .next (s.wr TEL_STAT.refused 1)) ∧
    (s.regsOk = true → (s.session (s.rd (TEL_SIDX.session.on .bar0))).kind < 4 → ∃ t, exec .telSessionRead s = .next t ∧ t.tel = s.tel ∧
      t.rd (TEL_SDATA0.enable.on .bar0) = b2n (s.session (s.rd (TEL_SIDX.session.on .bar0))).enable ∧
      t.rd (TEL_SDATA0.kind.on .bar0) = (s.session (s.rd (TEL_SIDX.session.on .bar0))).kind)) ∧
  (∀ s temps, s.regsOk = true → s.rd PWR_STAT.alert < 2 → temps.length = 32 → Past s s.pwr.sensAt 1000000 → (∀ x ∈ temps, -400 ≤ x ∧ x ≤ 1000) →
    ∃ t, exec (.thermalSample temps) s = .next t ∧ (∀ i x, temps[i]? = some x → signed 16 (t.rd (PWR_SENS.temp i)) = x) ∧
      (∀ x ∈ temps, (s.rd PWR_CFG.alert_c : Int) * 8 ≤ x → t.rd PWR_STAT.alert = 1) ∧
      ((∀ x ∈ temps, x < ((s.rd PWR_CFG.alert_c : Int) - s.rd PWR_CFG.hyst_c) * 8) → t.rd PWR_STAT.alert = 0)) ∧
  (∀ s k mv, s.regsOk = true → k < 15 → mv < 65536 → Past s (Tbl.get 0 s.pwr.railAt k) 1000000 → ∃ t, exec (.railSample k mv) s = .next t ∧
    t.rd (PWR_RAIL.mv k) = mv ∧ (s.railHigh k mv = true → t.rd (PWR_RAIL.high k) = 1) ∧
    (s.railHigh k mv = false → s.railLow k mv = true → t.rd (PWR_RAIL.low k) = 1) ∧
    (s.railHigh k mv = false → s.railLow k mv = false → t.rd (PWR_RAIL.low k) = s.rd (PWR_RAIL.low k) ∧
      t.rd (PWR_RAIL.high k) = s.rd (PWR_RAIL.high k)))
/-! ### The device as a whole -/

/-- One step carries out the command at the front of the queue, and every command is carried out. With an empty queue a nanosecond passes: the
model's choice, log entry 2. -/
def Obligations.StepTakesFront : Prop :=
  (∀ (c : Instr) (rest : List Instr) (s : State), step { s with pending := c :: rest } = exec c { s with pending := rest }) ∧
  (∀ s : State, s.pending = [] → step s = .next s.tick ∧ s.tick.clk = s.clk + 1) ∧
  ∀ (c : Instr) (s : State), (∀ recovery quad sris, c = .sysrstRelease recovery quad sris false → s.pwr.sysrst = false) →
    ∃ t, exec c s = .next t ∧ t.pending = s.pending ∧ t.clk = s.clk

/-- Every step keeps a sound state sound, takes only the front command from the queue, and lets the clock count only where no command waits. -/
def Obligations.SoundStatesKept : Prop :=
  ∀ s t : State, s.ok = true → step s = .next t →
    t.ok = true ∧ t.pending = s.pending.tail ∧ t.clk = if s.pending = [] then s.clk + 1 else s.clk

/-- The state after reset is sound. -/
def Obligations.ResetIsSound : Prop :=
  State.reset.ok = true ∧ State.reset.pending = [] ∧ State.reset.tim.sec = 0 ∧ State.reset.tim.ns = 0
end

