-- ==== Sys2Proof/Laws/State.lean ====
section
/-! SUPPORT. One lemma per field of State for each primitive update: what the update leaves, true by definition. -/
namespace Sys2Proof.Machine

/-! ### `State.wr` -/

@[simp] theorem State.wr_clk (s : State) (f : Fld) (v : Nat) : (s.wr f v).clk = s.clk := rfl
@[simp] theorem State.wr_bar0L (s : State) (f : Fld) (v : Nat) : (s.wr f v).bar0L = s.bar0L := rfl
@[simp] theorem State.wr_cmdL (s : State) (f : Fld) (v : Nat) : (s.wr f v).cmdL = s.cmdL := rfl
@[simp] theorem State.wr_bmcL (s : State) (f : Fld) (v : Nat) : (s.wr f v).bmcL = s.bmcL := rfl
@[simp] theorem State.wr_readData (s : State) (f : Fld) (v : Nat) : (s.wr f v).readData = s.readData := rfl
@[simp] theorem State.wr_cmdWrote (s : State) (f : Fld) (v : Nat) : (s.wr f v).cmdWrote = s.cmdWrote := rfl
@[simp] theorem State.wr_hostMem (s : State) (f : Fld) (v : Nat) : (s.wr f v).hostMem = s.hostMem := rfl
@[simp] theorem State.wr_free (s : State) (f : Fld) (v : Nat) : (s.wr f v).free = s.free := rfl
@[simp] theorem State.wr_evAt (s : State) (f : Fld) (v : Nat) : (s.wr f v).evAt = s.evAt := rfl
@[simp] theorem State.wr_evSum (s : State) (f : Fld) (v : Nat) : (s.wr f v).evSum = s.evSum := rfl
@[simp] theorem State.wr_dies (s : State) (f : Fld) (v : Nat) : (s.wr f v).dies = s.dies := rfl
@[simp] theorem State.wr_eng (s : State) (f : Fld) (v : Nat) : (s.wr f v).eng = s.eng := rfl
@[simp] theorem State.wr_lkp (s : State) (f : Fld) (v : Nat) : (s.wr f v).lkp = s.lkp := rfl
@[simp] theorem State.wr_brg (s : State) (f : Fld) (v : Nat) : (s.wr f v).brg = s.brg := rfl
@[simp] theorem State.wr_bpm (s : State) (f : Fld) (v : Nat) : (s.wr f v).bpm = s.bpm := rfl
@[simp] theorem State.wr_qm (s : State) (f : Fld) (v : Nat) : (s.wr f v).qm = s.qm := rfl
@[simp] theorem State.wr_sch (s : State) (f : Fld) (v : Nat) : (s.wr f v).sch = s.sch := rfl
@[simp] theorem State.wr_hif (s : State) (f : Fld) (v : Nat) : (s.wr f v).hif = s.hif := rfl
@[simp] theorem State.wr_mem (s : State) (f : Fld) (v : Nat) : (s.wr f v).mem = s.mem := rfl
@[simp] theorem State.wr_lpt (s : State) (f : Fld) (v : Nat) : (s.wr f v).lpt = s.lpt := rfl
@[simp] theorem State.wr_flk (s : State) (f : Fld) (v : Nat) : (s.wr f v).flk = s.flk := rfl
@[simp] theorem State.wr_tim (s : State) (f : Fld) (v : Nat) : (s.wr f v).tim = s.tim := rfl
@[simp] theorem State.wr_tel (s : State) (f : Fld) (v : Nat) : (s.wr f v).tel = s.tel := rfl
@[simp] theorem State.wr_res (s : State) (f : Fld) (v : Nat) : (s.wr f v).res = s.res := rfl
@[simp] theorem State.wr_upd (s : State) (f : Fld) (v : Nat) : (s.wr f v).upd = s.upd := rfl
@[simp] theorem State.wr_pwr (s : State) (f : Fld) (v : Nat) : (s.wr f v).pwr = s.pwr := rfl
@[simp] theorem State.wr_pending (s : State) (f : Fld) (v : Nat) : (s.wr f v).pending = s.pending := rfl

/-! ### `State.addSat` -/

@[simp] theorem State.addSat_clk (s : State) (f : Fld) (n : Nat) : (s.addSat f n).clk = s.clk := rfl
@[simp] theorem State.addSat_bar0L (s : State) (f : Fld) (n : Nat) : (s.addSat f n).bar0L = s.bar0L := rfl
@[simp] theorem State.addSat_cmdL (s : State) (f : Fld) (n : Nat) : (s.addSat f n).cmdL = s.cmdL := rfl
@[simp] theorem State.addSat_bmcL (s : State) (f : Fld) (n : Nat) : (s.addSat f n).bmcL = s.bmcL := rfl
@[simp] theorem State.addSat_readData (s : State) (f : Fld) (n : Nat) : (s.addSat f n).readData = s.readData := rfl
@[simp] theorem State.addSat_cmdWrote (s : State) (f : Fld) (n : Nat) : (s.addSat f n).cmdWrote = s.cmdWrote := rfl
@[simp] theorem State.addSat_hostMem (s : State) (f : Fld) (n : Nat) : (s.addSat f n).hostMem = s.hostMem := rfl
@[simp] theorem State.addSat_free (s : State) (f : Fld) (n : Nat) : (s.addSat f n).free = s.free := rfl
@[simp] theorem State.addSat_evAt (s : State) (f : Fld) (n : Nat) : (s.addSat f n).evAt = s.evAt := rfl
@[simp] theorem State.addSat_evSum (s : State) (f : Fld) (n : Nat) : (s.addSat f n).evSum = s.evSum := rfl
@[simp] theorem State.addSat_dies (s : State) (f : Fld) (n : Nat) : (s.addSat f n).dies = s.dies := rfl
@[simp] theorem State.addSat_eng (s : State) (f : Fld) (n : Nat) : (s.addSat f n).eng = s.eng := rfl
@[simp] theorem State.addSat_lkp (s : State) (f : Fld) (n : Nat) : (s.addSat f n).lkp = s.lkp := rfl
@[simp] theorem State.addSat_brg (s : State) (f : Fld) (n : Nat) : (s.addSat f n).brg = s.brg := rfl
@[simp] theorem State.addSat_bpm (s : State) (f : Fld) (n : Nat) : (s.addSat f n).bpm = s.bpm := rfl
@[simp] theorem State.addSat_qm (s : State) (f : Fld) (n : Nat) : (s.addSat f n).qm = s.qm := rfl
@[simp] theorem State.addSat_sch (s : State) (f : Fld) (n : Nat) : (s.addSat f n).sch = s.sch := rfl
@[simp] theorem State.addSat_hif (s : State) (f : Fld) (n : Nat) : (s.addSat f n).hif = s.hif := rfl
@[simp] theorem State.addSat_mem (s : State) (f : Fld) (n : Nat) : (s.addSat f n).mem = s.mem := rfl
@[simp] theorem State.addSat_lpt (s : State) (f : Fld) (n : Nat) : (s.addSat f n).lpt = s.lpt := rfl
@[simp] theorem State.addSat_flk (s : State) (f : Fld) (n : Nat) : (s.addSat f n).flk = s.flk := rfl
@[simp] theorem State.addSat_tim (s : State) (f : Fld) (n : Nat) : (s.addSat f n).tim = s.tim := rfl
@[simp] theorem State.addSat_tel (s : State) (f : Fld) (n : Nat) : (s.addSat f n).tel = s.tel := rfl
@[simp] theorem State.addSat_res (s : State) (f : Fld) (n : Nat) : (s.addSat f n).res = s.res := rfl
@[simp] theorem State.addSat_upd (s : State) (f : Fld) (n : Nat) : (s.addSat f n).upd = s.upd := rfl
@[simp] theorem State.addSat_pwr (s : State) (f : Fld) (n : Nat) : (s.addSat f n).pwr = s.pwr := rfl
@[simp] theorem State.addSat_pending (s : State) (f : Fld) (n : Nat) : (s.addSat f n).pending = s.pending := rfl

/-! ### `State.inc` -/

@[simp] theorem State.inc_clk (s : State) (f : Fld) : (s.inc f).clk = s.clk := rfl
@[simp] theorem State.inc_bar0L (s : State) (f : Fld) : (s.inc f).bar0L = s.bar0L := rfl
@[simp] theorem State.inc_cmdL (s : State) (f : Fld) : (s.inc f).cmdL = s.cmdL := rfl
@[simp] theorem State.inc_bmcL (s : State) (f : Fld) : (s.inc f).bmcL = s.bmcL := rfl
@[simp] theorem State.inc_readData (s : State) (f : Fld) : (s.inc f).readData = s.readData := rfl
@[simp] theorem State.inc_cmdWrote (s : State) (f : Fld) : (s.inc f).cmdWrote = s.cmdWrote := rfl
@[simp] theorem State.inc_hostMem (s : State) (f : Fld) : (s.inc f).hostMem = s.hostMem := rfl
@[simp] theorem State.inc_free (s : State) (f : Fld) : (s.inc f).free = s.free := rfl
@[simp] theorem State.inc_evAt (s : State) (f : Fld) : (s.inc f).evAt = s.evAt := rfl
@[simp] theorem State.inc_evSum (s : State) (f : Fld) : (s.inc f).evSum = s.evSum := rfl
@[simp] theorem State.inc_dies (s : State) (f : Fld) : (s.inc f).dies = s.dies := rfl
@[simp] theorem State.inc_eng (s : State) (f : Fld) : (s.inc f).eng = s.eng := rfl
@[simp] theorem State.inc_lkp (s : State) (f : Fld) : (s.inc f).lkp = s.lkp := rfl
@[simp] theorem State.inc_brg (s : State) (f : Fld) : (s.inc f).brg = s.brg := rfl
@[simp] theorem State.inc_bpm (s : State) (f : Fld) : (s.inc f).bpm = s.bpm := rfl
@[simp] theorem State.inc_qm (s : State) (f : Fld) : (s.inc f).qm = s.qm := rfl
@[simp] theorem State.inc_sch (s : State) (f : Fld) : (s.inc f).sch = s.sch := rfl
@[simp] theorem State.inc_hif (s : State) (f : Fld) : (s.inc f).hif = s.hif := rfl
@[simp] theorem State.inc_mem (s : State) (f : Fld) : (s.inc f).mem = s.mem := rfl
@[simp] theorem State.inc_lpt (s : State) (f : Fld) : (s.inc f).lpt = s.lpt := rfl
@[simp] theorem State.inc_flk (s : State) (f : Fld) : (s.inc f).flk = s.flk := rfl
@[simp] theorem State.inc_tim (s : State) (f : Fld) : (s.inc f).tim = s.tim := rfl
@[simp] theorem State.inc_tel (s : State) (f : Fld) : (s.inc f).tel = s.tel := rfl
@[simp] theorem State.inc_res (s : State) (f : Fld) : (s.inc f).res = s.res := rfl
@[simp] theorem State.inc_upd (s : State) (f : Fld) : (s.inc f).upd = s.upd := rfl
@[simp] theorem State.inc_pwr (s : State) (f : Fld) : (s.inc f).pwr = s.pwr := rfl
@[simp] theorem State.inc_pending (s : State) (f : Fld) : (s.inc f).pending = s.pending := rfl

/-! ### `State.addWrap` -/

@[simp] theorem State.addWrap_clk (s : State) (f : Fld) (n : Nat) : (s.addWrap f n).clk = s.clk := rfl
@[simp] theorem State.addWrap_bar0L (s : State) (f : Fld) (n : Nat) : (s.addWrap f n).bar0L = s.bar0L := rfl
@[simp] theorem State.addWrap_cmdL (s : State) (f : Fld) (n : Nat) : (s.addWrap f n).cmdL = s.cmdL := rfl
@[simp] theorem State.addWrap_bmcL (s : State) (f : Fld) (n : Nat) : (s.addWrap f n).bmcL = s.bmcL := rfl
@[simp] theorem State.addWrap_readData (s : State) (f : Fld) (n : Nat) : (s.addWrap f n).readData = s.readData := rfl
@[simp] theorem State.addWrap_cmdWrote (s : State) (f : Fld) (n : Nat) : (s.addWrap f n).cmdWrote = s.cmdWrote := rfl
@[simp] theorem State.addWrap_hostMem (s : State) (f : Fld) (n : Nat) : (s.addWrap f n).hostMem = s.hostMem := rfl
@[simp] theorem State.addWrap_free (s : State) (f : Fld) (n : Nat) : (s.addWrap f n).free = s.free := rfl
@[simp] theorem State.addWrap_evAt (s : State) (f : Fld) (n : Nat) : (s.addWrap f n).evAt = s.evAt := rfl
@[simp] theorem State.addWrap_evSum (s : State) (f : Fld) (n : Nat) : (s.addWrap f n).evSum = s.evSum := rfl
@[simp] theorem State.addWrap_dies (s : State) (f : Fld) (n : Nat) : (s.addWrap f n).dies = s.dies := rfl
@[simp] theorem State.addWrap_eng (s : State) (f : Fld) (n : Nat) : (s.addWrap f n).eng = s.eng := rfl
@[simp] theorem State.addWrap_lkp (s : State) (f : Fld) (n : Nat) : (s.addWrap f n).lkp = s.lkp := rfl
@[simp] theorem State.addWrap_brg (s : State) (f : Fld) (n : Nat) : (s.addWrap f n).brg = s.brg := rfl
@[simp] theorem State.addWrap_bpm (s : State) (f : Fld) (n : Nat) : (s.addWrap f n).bpm = s.bpm := rfl
@[simp] theorem State.addWrap_qm (s : State) (f : Fld) (n : Nat) : (s.addWrap f n).qm = s.qm := rfl
@[simp] theorem State.addWrap_sch (s : State) (f : Fld) (n : Nat) : (s.addWrap f n).sch = s.sch := rfl
@[simp] theorem State.addWrap_hif (s : State) (f : Fld) (n : Nat) : (s.addWrap f n).hif = s.hif := rfl
@[simp] theorem State.addWrap_mem (s : State) (f : Fld) (n : Nat) : (s.addWrap f n).mem = s.mem := rfl
@[simp] theorem State.addWrap_lpt (s : State) (f : Fld) (n : Nat) : (s.addWrap f n).lpt = s.lpt := rfl
@[simp] theorem State.addWrap_flk (s : State) (f : Fld) (n : Nat) : (s.addWrap f n).flk = s.flk := rfl
@[simp] theorem State.addWrap_tim (s : State) (f : Fld) (n : Nat) : (s.addWrap f n).tim = s.tim := rfl
@[simp] theorem State.addWrap_tel (s : State) (f : Fld) (n : Nat) : (s.addWrap f n).tel = s.tel := rfl
@[simp] theorem State.addWrap_res (s : State) (f : Fld) (n : Nat) : (s.addWrap f n).res = s.res := rfl
@[simp] theorem State.addWrap_upd (s : State) (f : Fld) (n : Nat) : (s.addWrap f n).upd = s.upd := rfl
@[simp] theorem State.addWrap_pwr (s : State) (f : Fld) (n : Nat) : (s.addWrap f n).pwr = s.pwr := rfl
@[simp] theorem State.addWrap_pending (s : State) (f : Fld) (n : Nat) : (s.addWrap f n).pending = s.pending := rfl

/-! ### `State.wrBit` -/

@[simp] theorem State.wrBit_clk (s : State) (f : Fld) (b : Bool) : (s.wrBit f b).clk = s.clk := rfl
@[simp] theorem State.wrBit_bar0L (s : State) (f : Fld) (b : Bool) : (s.wrBit f b).bar0L = s.bar0L := rfl
@[simp] theorem State.wrBit_cmdL (s : State) (f : Fld) (b : Bool) : (s.wrBit f b).cmdL = s.cmdL := rfl
@[simp] theorem State.wrBit_bmcL (s : State) (f : Fld) (b : Bool) : (s.wrBit f b).bmcL = s.bmcL := rfl
@[simp] theorem State.wrBit_readData (s : State) (f : Fld) (b : Bool) : (s.wrBit f b).readData = s.readData := rfl
@[simp] theorem State.wrBit_cmdWrote (s : State) (f : Fld) (b : Bool) : (s.wrBit f b).cmdWrote = s.cmdWrote := rfl
@[simp] theorem State.wrBit_hostMem (s : State) (f : Fld) (b : Bool) : (s.wrBit f b).hostMem = s.hostMem := rfl
@[simp] theorem State.wrBit_free (s : State) (f : Fld) (b : Bool) : (s.wrBit f b).free = s.free := rfl
@[simp] theorem State.wrBit_evAt (s : State) (f : Fld) (b : Bool) : (s.wrBit f b).evAt = s.evAt := rfl
@[simp] theorem State.wrBit_evSum (s : State) (f : Fld) (b : Bool) : (s.wrBit f b).evSum = s.evSum := rfl
@[simp] theorem State.wrBit_dies (s : State) (f : Fld) (b : Bool) : (s.wrBit f b).dies = s.dies := rfl
@[simp] theorem State.wrBit_eng (s : State) (f : Fld) (b : Bool) : (s.wrBit f b).eng = s.eng := rfl
@[simp] theorem State.wrBit_lkp (s : State) (f : Fld) (b : Bool) : (s.wrBit f b).lkp = s.lkp := rfl
@[simp] theorem State.wrBit_brg (s : State) (f : Fld) (b : Bool) : (s.wrBit f b).brg = s.brg := rfl
@[simp] theorem State.wrBit_bpm (s : State) (f : Fld) (b : Bool) : (s.wrBit f b).bpm = s.bpm := rfl
@[simp] theorem State.wrBit_qm (s : State) (f : Fld) (b : Bool) : (s.wrBit f b).qm = s.qm := rfl
@[simp] theorem State.wrBit_sch (s : State) (f : Fld) (b : Bool) : (s.wrBit f b).sch = s.sch := rfl
@[simp] theorem State.wrBit_hif (s : State) (f : Fld) (b : Bool) : (s.wrBit f b).hif = s.hif := rfl
@[simp] theorem State.wrBit_mem (s : State) (f : Fld) (b : Bool) : (s.wrBit f b).mem = s.mem := rfl
@[simp] theorem State.wrBit_lpt (s : State) (f : Fld) (b : Bool) : (s.wrBit f b).lpt = s.lpt := rfl
@[simp] theorem State.wrBit_flk (s : State) (f : Fld) (b : Bool) : (s.wrBit f b).flk = s.flk := rfl
@[simp] theorem State.wrBit_tim (s : State) (f : Fld) (b : Bool) : (s.wrBit f b).tim = s.tim := rfl
@[simp] theorem State.wrBit_tel (s : State) (f : Fld) (b : Bool) : (s.wrBit f b).tel = s.tel := rfl
@[simp] theorem State.wrBit_res (s : State) (f : Fld) (b : Bool) : (s.wrBit f b).res = s.res := rfl
@[simp] theorem State.wrBit_upd (s : State) (f : Fld) (b : Bool) : (s.wrBit f b).upd = s.upd := rfl
@[simp] theorem State.wrBit_pwr (s : State) (f : Fld) (b : Bool) : (s.wrBit f b).pwr = s.pwr := rfl
@[simp] theorem State.wrBit_pending (s : State) (f : Fld) (b : Bool) : (s.wrBit f b).pending = s.pending := rfl

/-! ### `State.setHostByte` -/

@[simp] theorem State.setHostByte_clk (s : State) (a : Nat) (b : Byte) : (s.setHostByte a b).clk = s.clk := rfl
@[simp] theorem State.setHostByte_regs (s : State) (a : Nat) (b : Byte) : (s.setHostByte a b).regs = s.regs := rfl
@[simp] theorem State.setHostByte_bar0L (s : State) (a : Nat) (b : Byte) : (s.setHostByte a b).bar0L = s.bar0L := rfl
@[simp] theorem State.setHostByte_cmdL (s : State) (a : Nat) (b : Byte) : (s.setHostByte a b).cmdL = s.cmdL := rfl
@[simp] theorem State.setHostByte_bmcL (s : State) (a : Nat) (b : Byte) : (s.setHostByte a b).bmcL = s.bmcL := rfl
@[simp] theorem State.setHostByte_readData (s : State) (a : Nat) (b : Byte) : (s.setHostByte a b).readData = s.readData := rfl
@[simp] theorem State.setHostByte_cmdWrote (s : State) (a : Nat) (b : Byte) : (s.setHostByte a b).cmdWrote = s.cmdWrote := rfl
@[simp] theorem State.setHostByte_free (s : State) (a : Nat) (b : Byte) : (s.setHostByte a b).free = s.free := rfl
@[simp] theorem State.setHostByte_evAt (s : State) (a : Nat) (b : Byte) : (s.setHostByte a b).evAt = s.evAt := rfl
@[simp] theorem State.setHostByte_evSum (s : State) (a : Nat) (b : Byte) : (s.setHostByte a b).evSum = s.evSum := rfl
@[simp] theorem State.setHostByte_dies (s : State) (a : Nat) (b : Byte) : (s.setHostByte a b).dies = s.dies := rfl
@[simp] theorem State.setHostByte_eng (s : State) (a : Nat) (b : Byte) : (s.setHostByte a b).eng = s.eng := rfl
@[simp] theorem State.setHostByte_lkp (s : State) (a : Nat) (b : Byte) : (s.setHostByte a b).lkp = s.lkp := rfl
@[simp] theorem State.setHostByte_brg (s : State) (a : Nat) (b : Byte) : (s.setHostByte a b).brg = s.brg := rfl
@[simp] theorem State.setHostByte_bpm (s : State) (a : Nat) (b : Byte) : (s.setHostByte a b).bpm = s.bpm := rfl
@[simp] theorem State.setHostByte_qm (s : State) (a : Nat) (b : Byte) : (s.setHostByte a b).qm = s.qm := rfl
@[simp] theorem State.setHostByte_sch (s : State) (a : Nat) (b : Byte) : (s.setHostByte a b).sch = s.sch := rfl
@[simp] theorem State.setHostByte_hif (s : State) (a : Nat) (b : Byte) : (s.setHostByte a b).hif = s.hif := rfl
@[simp] theorem State.setHostByte_mem (s : State) (a : Nat) (b : Byte) : (s.setHostByte a b).mem = s.mem := rfl
@[simp] theorem State.setHostByte_lpt (s : State) (a : Nat) (b : Byte) : (s.setHostByte a b).lpt = s.lpt := rfl
@[simp] theorem State.setHostByte_flk (s : State) (a : Nat) (b : Byte) : (s.setHostByte a b).flk = s.flk := rfl
@[simp] theorem State.setHostByte_tim (s : State) (a : Nat) (b : Byte) : (s.setHostByte a b).tim = s.tim := rfl
@[simp] theorem State.setHostByte_tel (s : State) (a : Nat) (b : Byte) : (s.setHostByte a b).tel = s.tel := rfl
@[simp] theorem State.setHostByte_res (s : State) (a : Nat) (b : Byte) : (s.setHostByte a b).res = s.res := rfl
@[simp] theorem State.setHostByte_upd (s : State) (a : Nat) (b : Byte) : (s.setHostByte a b).upd = s.upd := rfl
@[simp] theorem State.setHostByte_pwr (s : State) (a : Nat) (b : Byte) : (s.setHostByte a b).pwr = s.pwr := rfl
@[simp] theorem State.setHostByte_pending (s : State) (a : Nat) (b : Byte) : (s.setHostByte a b).pending = s.pending := rfl

/-! ### `State.setRing` -/

@[simp] theorem State.setRing_clk (s : State) (r : Nat) (v : Ring) : (s.setRing r v).clk = s.clk := rfl
@[simp] theorem State.setRing_regs (s : State) (r : Nat) (v : Ring) : (s.setRing r v).regs = s.regs := rfl
@[simp] theorem State.setRing_bar0L (s : State) (r : Nat) (v : Ring) : (s.setRing r v).bar0L = s.bar0L := rfl
@[simp] theorem State.setRing_cmdL (s : State) (r : Nat) (v : Ring) : (s.setRing r v).cmdL = s.cmdL := rfl
@[simp] theorem State.setRing_bmcL (s : State) (r : Nat) (v : Ring) : (s.setRing r v).bmcL = s.bmcL := rfl
@[simp] theorem State.setRing_readData (s : State) (r : Nat) (v : Ring) : (s.setRing r v).readData = s.readData := rfl
@[simp] theorem State.setRing_cmdWrote (s : State) (r : Nat) (v : Ring) : (s.setRing r v).cmdWrote = s.cmdWrote := rfl
@[simp] theorem State.setRing_hostMem (s : State) (r : Nat) (v : Ring) : (s.setRing r v).hostMem = s.hostMem := rfl
@[simp] theorem State.setRing_free (s : State) (r : Nat) (v : Ring) : (s.setRing r v).free = s.free := rfl
@[simp] theorem State.setRing_evAt (s : State) (r : Nat) (v : Ring) : (s.setRing r v).evAt = s.evAt := rfl
@[simp] theorem State.setRing_evSum (s : State) (r : Nat) (v : Ring) : (s.setRing r v).evSum = s.evSum := rfl
@[simp] theorem State.setRing_dies (s : State) (r : Nat) (v : Ring) : (s.setRing r v).dies = s.dies := rfl
@[simp] theorem State.setRing_eng (s : State) (r : Nat) (v : Ring) : (s.setRing r v).eng = s.eng := rfl
@[simp] theorem State.setRing_lkp (s : State) (r : Nat) (v : Ring) : (s.setRing r v).lkp = s.lkp := rfl
@[simp] theorem State.setRing_brg (s : State) (r : Nat) (v : Ring) : (s.setRing r v).brg = s.brg := rfl
@[simp] theorem State.setRing_bpm (s : State) (r : Nat) (v : Ring) : (s.setRing r v).bpm = s.bpm := rfl
@[simp] theorem State.setRing_qm (s : State) (r : Nat) (v : Ring) : (s.setRing r v).qm = s.qm := rfl
@[simp] theorem State.setRing_sch (s : State) (r : Nat) (v : Ring) : (s.setRing r v).sch = s.sch := rfl
@[simp] theorem State.setRing_mem (s : State) (r : Nat) (v : Ring) : (s.setRing r v).mem = s.mem := rfl
@[simp] theorem State.setRing_lpt (s : State) (r : Nat) (v : Ring) : (s.setRing r v).lpt = s.lpt := rfl
@[simp] theorem State.setRing_flk (s : State) (r : Nat) (v : Ring) : (s.setRing r v).flk = s.flk := rfl
@[simp] theorem State.setRing_tim (s : State) (r : Nat) (v : Ring) : (s.setRing r v).tim = s.tim := rfl
@[simp] theorem State.setRing_tel (s : State) (r : Nat) (v : Ring) : (s.setRing r v).tel = s.tel := rfl
@[simp] theorem State.setRing_res (s : State) (r : Nat) (v : Ring) : (s.setRing r v).res = s.res := rfl
@[simp] theorem State.setRing_upd (s : State) (r : Nat) (v : Ring) : (s.setRing r v).upd = s.upd := rfl
@[simp] theorem State.setRing_pwr (s : State) (r : Nat) (v : Ring) : (s.setRing r v).pwr = s.pwr := rfl
@[simp] theorem State.setRing_pending (s : State) (r : Nat) (v : Ring) : (s.setRing r v).pending = s.pending := rfl

/-! ### `State.setPly` -/

@[simp] theorem State.setPly_clk (s : State) (k : Nat) (p : Ply) : (s.setPly k p).clk = s.clk := rfl
@[simp] theorem State.setPly_regs (s : State) (k : Nat) (p : Ply) : (s.setPly k p).regs = s.regs := rfl
@[simp] theorem State.setPly_bar0L (s : State) (k : Nat) (p : Ply) : (s.setPly k p).bar0L = s.bar0L := rfl
@[simp] theorem State.setPly_cmdL (s : State) (k : Nat) (p : Ply) : (s.setPly k p).cmdL = s.cmdL := rfl
@[simp] theorem State.setPly_bmcL (s : State) (k : Nat) (p : Ply) : (s.setPly k p).bmcL = s.bmcL := rfl
@[simp] theorem State.setPly_readData (s : State) (k : Nat) (p : Ply) : (s.setPly k p).readData = s.readData := rfl
@[simp] theorem State.setPly_cmdWrote (s : State) (k : Nat) (p : Ply) : (s.setPly k p).cmdWrote = s.cmdWrote := rfl
@[simp] theorem State.setPly_hostMem (s : State) (k : Nat) (p : Ply) : (s.setPly k p).hostMem = s.hostMem := rfl
@[simp] theorem State.setPly_free (s : State) (k : Nat) (p : Ply) : (s.setPly k p).free = s.free := rfl
@[simp] theorem State.setPly_evAt (s : State) (k : Nat) (p : Ply) : (s.setPly k p).evAt = s.evAt := rfl
@[simp] theorem State.setPly_evSum (s : State) (k : Nat) (p : Ply) : (s.setPly k p).evSum = s.evSum := rfl
@[simp] theorem State.setPly_dies (s : State) (k : Nat) (p : Ply) : (s.setPly k p).dies = s.dies := rfl
@[simp] theorem State.setPly_lkp (s : State) (k : Nat) (p : Ply) : (s.setPly k p).lkp = s.lkp := rfl
@[simp] theorem State.setPly_brg (s : State) (k : Nat) (p : Ply) : (s.setPly k p).brg = s.brg := rfl
@[simp] theorem State.setPly_bpm (s : State) (k : Nat) (p : Ply) : (s.setPly k p).bpm = s.bpm := rfl
@[simp] theorem State.setPly_qm (s : State) (k : Nat) (p : Ply) : (s.setPly k p).qm = s.qm := rfl
@[simp] theorem State.setPly_sch (s : State) (k : Nat) (p : Ply) : (s.setPly k p).sch = s.sch := rfl
@[simp] theorem State.setPly_hif (s : State) (k : Nat) (p : Ply) : (s.setPly k p).hif = s.hif := rfl
@[simp] theorem State.setPly_mem (s : State) (k : Nat) (p : Ply) : (s.setPly k p).mem = s.mem := rfl
@[simp] theorem State.setPly_lpt (s : State) (k : Nat) (p : Ply) : (s.setPly k p).lpt = s.lpt := rfl
@[simp] theorem State.setPly_flk (s : State) (k : Nat) (p : Ply) : (s.setPly k p).flk = s.flk := rfl
@[simp] theorem State.setPly_tim (s : State) (k : Nat) (p : Ply) : (s.setPly k p).tim = s.tim := rfl
@[simp] theorem State.setPly_tel (s : State) (k : Nat) (p : Ply) : (s.setPly k p).tel = s.tel := rfl
@[simp] theorem State.setPly_res (s : State) (k : Nat) (p : Ply) : (s.setPly k p).res = s.res := rfl
@[simp] theorem State.setPly_upd (s : State) (k : Nat) (p : Ply) : (s.setPly k p).upd = s.upd := rfl
@[simp] theorem State.setPly_pwr (s : State) (k : Nat) (p : Ply) : (s.setPly k p).pwr = s.pwr := rfl
@[simp] theorem State.setPly_pending (s : State) (k : Nat) (p : Ply) : (s.setPly k p).pending = s.pending := rfl

/-! ### `State.setCluster` -/

@[simp] theorem State.setCluster_clk (s : State) (c : Nat) (x : Cluster) : (s.setCluster c x).clk = s.clk := rfl
@[simp] theorem State.setCluster_regs (s : State) (c : Nat) (x : Cluster) : (s.setCluster c x).regs = s.regs := rfl
@[simp] theorem State.setCluster_bar0L (s : State) (c : Nat) (x : Cluster) : (s.setCluster c x).bar0L = s.bar0L := rfl
@[simp] theorem State.setCluster_cmdL (s : State) (c : Nat) (x : Cluster) : (s.setCluster c x).cmdL = s.cmdL := rfl
@[simp] theorem State.setCluster_bmcL (s : State) (c : Nat) (x : Cluster) : (s.setCluster c x).bmcL = s.bmcL := rfl
@[simp] theorem State.setCluster_readData (s : State) (c : Nat) (x : Cluster) : (s.setCluster c x).readData = s.readData := rfl
@[simp] theorem State.setCluster_cmdWrote (s : State) (c : Nat) (x : Cluster) : (s.setCluster c x).cmdWrote = s.cmdWrote := rfl
@[simp] theorem State.setCluster_hostMem (s : State) (c : Nat) (x : Cluster) : (s.setCluster c x).hostMem = s.hostMem := rfl
@[simp] theorem State.setCluster_free (s : State) (c : Nat) (x : Cluster) : (s.setCluster c x).free = s.free := rfl
@[simp] theorem State.setCluster_evAt (s : State) (c : Nat) (x : Cluster) : (s.setCluster c x).evAt = s.evAt := rfl
@[simp] theorem State.setCluster_evSum (s : State) (c : Nat) (x : Cluster) : (s.setCluster c x).evSum = s.evSum := rfl
@[simp] theorem State.setCluster_dies (s : State) (c : Nat) (x : Cluster) : (s.setCluster c x).dies = s.dies := rfl
@[simp] theorem State.setCluster_lkp (s : State) (c : Nat) (x : Cluster) : (s.setCluster c x).lkp = s.lkp := rfl
@[simp] theorem State.setCluster_brg (s : State) (c : Nat) (x : Cluster) : (s.setCluster c x).brg = s.brg := rfl
@[simp] theorem State.setCluster_bpm (s : State) (c : Nat) (x : Cluster) : (s.setCluster c x).bpm = s.bpm := rfl
@[simp] theorem State.setCluster_qm (s : State) (c : Nat) (x : Cluster) : (s.setCluster c x).qm = s.qm := rfl
@[simp] theorem State.setCluster_sch (s : State) (c : Nat) (x : Cluster) : (s.setCluster c x).sch = s.sch := rfl
@[simp] theorem State.setCluster_hif (s : State) (c : Nat) (x : Cluster) : (s.setCluster c x).hif = s.hif := rfl
@[simp] theorem State.setCluster_mem (s : State) (c : Nat) (x : Cluster) : (s.setCluster c x).mem = s.mem := rfl
@[simp] theorem State.setCluster_lpt (s : State) (c : Nat) (x : Cluster) : (s.setCluster c x).lpt = s.lpt := rfl
@[simp] theorem State.setCluster_flk (s : State) (c : Nat) (x : Cluster) : (s.setCluster c x).flk = s.flk := rfl
@[simp] theorem State.setCluster_tim (s : State) (c : Nat) (x : Cluster) : (s.setCluster c x).tim = s.tim := rfl
@[simp] theorem State.setCluster_tel (s : State) (c : Nat) (x : Cluster) : (s.setCluster c x).tel = s.tel := rfl
@[simp] theorem State.setCluster_res (s : State) (c : Nat) (x : Cluster) : (s.setCluster c x).res = s.res := rfl
@[simp] theorem State.setCluster_upd (s : State) (c : Nat) (x : Cluster) : (s.setCluster c x).upd = s.upd := rfl
@[simp] theorem State.setCluster_pwr (s : State) (c : Nat) (x : Cluster) : (s.setCluster c x).pwr = s.pwr := rfl
@[simp] theorem State.setCluster_pending (s : State) (c : Nat) (x : Cluster) : (s.setCluster c x).pending = s.pending := rfl

end Sys2Proof.Machine
end

