-- ==== Sys2Proof/Laws/Tbl.lean ====
section
/-! SUPPORT. The laws of sparse tables: a read after a write, and the canonical form that every operation keeps. -/
namespace Sys2Proof

variable {α : Type}

theorem Tbl.get_erase_ne (d : α) (t : Tbl α) {k j : Nat} (h : j ≠ k) : Tbl.get d (Tbl.erase t k) j = Tbl.get d t j := by
  induction t with
  | nil => rfl
  | cons e r ih =>
    obtain ⟨a, v⟩ := e
    by_cases ha : a = k
    · simp [Tbl.erase, Tbl.get, ha, Ne.symm h]
    · by_cases hj : a = j
      · subst hj; simp [Tbl.erase, Tbl.get, h]
      · simp [Tbl.erase, Tbl.get, ha, hj, ih]

theorem Tbl.get_ins_self (d : α) (t : Tbl α) (k : Nat) (v : α) : Tbl.get d (Tbl.ins k v t) k = v := by
  induction t with
  | nil => simp [Tbl.ins, Tbl.get]
  | cons e r ih =>
    obtain ⟨a, w⟩ := e
    by_cases h1 : k < a
    · simp [Tbl.ins, Tbl.get, h1]
    · by_cases h2 : k = a
      · simp [Tbl.ins, Tbl.get, h2]
      · simp [Tbl.ins, Tbl.get, h1, h2, ih, Ne.symm h2]

theorem Tbl.get_ins_ne (d : α) (t : Tbl α) {k j : Nat} (v : α) (h : j ≠ k) : Tbl.get d (Tbl.ins k v t) j = Tbl.get d t j := by
  induction t with
  | nil => simp [Tbl.ins, Tbl.get, Ne.symm h]
  | cons e r ih =>
    obtain ⟨a, w⟩ := e
    by_cases h1 : k < a
    · simp [Tbl.ins, Tbl.get, h1, Ne.symm h]
    · by_cases h2 : k = a
      · subst h2; simp [Tbl.ins, Tbl.get, Ne.symm h]
      · simp [Tbl.ins, Tbl.get, h1, h2, ih]

/-- Keys that rise stay above a lower bound. -/
theorem Tbl.risingFrom_mono {t : Tbl α} : ∀ {lo hi : Nat}, lo ≤ hi → Tbl.risingFrom hi t = true → Tbl.risingFrom lo t = true := by
  cases t with
  | nil => intros; rfl
  | cons e r => intro lo hi h; simp only [Tbl.risingFrom, Bool.and_eq_true, decide_eq_true_eq]; exact fun x => ⟨h.trans x.1, x.2⟩

/-- A key below every listed key reads as the default. -/
theorem Tbl.get_below (d : α) {t : Tbl α} : ∀ {lo k : Nat}, Tbl.risingFrom lo t = true → k < lo → Tbl.get d t k = d := by
  induction t with
  | nil => intros; rfl
  | cons e r ih =>
    obtain ⟨a, v⟩ := e
    intro lo k h hk
    simp only [Tbl.risingFrom, Bool.and_eq_true, decide_eq_true_eq] at h
    have : a ≠ k := by omega
    simp only [Tbl.get, this, if_false]
    exact ih h.2 (by omega)

theorem Tbl.get_erase_self (d : α) {t : Tbl α} : ∀ {lo k : Nat}, Tbl.risingFrom lo t = true → Tbl.get d (Tbl.erase t k) k = d := by
  induction t with
  | nil => intros; rfl
  | cons e r ih =>
    obtain ⟨a, v⟩ := e
    intro lo k h
    simp only [Tbl.risingFrom, Bool.and_eq_true, decide_eq_true_eq] at h
    by_cases ha : a = k
    · simp only [Tbl.erase, ha, if_true]; exact Tbl.get_below d h.2 (by omega)
    · simp only [Tbl.erase, ha, if_false, Tbl.get]; exact ih h.2

/-- A read after a write of the same key, in a table whose keys rise. -/
theorem Tbl.get_set_self [DecidableEq α] (d : α) {t : Tbl α} (h : Tbl.risingFrom 0 t = true) (k : Nat) (v : α) :
    Tbl.get d (Tbl.set d t k v) k = v := by
  unfold Tbl.set
  split
  · next hv => rw [hv]; exact Tbl.get_erase_self d h
  · exact Tbl.get_ins_self d t k v

/-- A write leaves every other key alone. -/
theorem Tbl.get_set_ne [DecidableEq α] (d : α) (t : Tbl α) {k j : Nat} (v : α) (h : j ≠ k) :
    Tbl.get d (Tbl.set d t k v) j = Tbl.get d t j := by
  unfold Tbl.set; split
  · exact Tbl.get_erase_ne d t h
  · exact Tbl.get_ins_ne d t v h

theorem Tbl.rising_erase {t : Tbl α} : ∀ {lo k : Nat}, Tbl.risingFrom lo t = true → Tbl.risingFrom lo (Tbl.erase t k) = true := by
  induction t with
  | nil => intros; rfl
  | cons e r ih =>
    obtain ⟨a, v⟩ := e
    intro lo k h
    simp only [Tbl.risingFrom, Bool.and_eq_true, decide_eq_true_eq] at h
    by_cases ha : a = k
    · simp only [Tbl.erase, ha, if_true]; exact Tbl.risingFrom_mono (by omega) h.2
    · simp only [Tbl.erase, ha, if_false, Tbl.risingFrom, Bool.and_eq_true, decide_eq_true_eq]; exact ⟨h.1, ih h.2⟩

theorem Tbl.rising_ins {t : Tbl α} : ∀ {lo k : Nat} (v : α), lo ≤ k → Tbl.risingFrom lo t = true →
    Tbl.risingFrom lo (Tbl.ins k v t) = true := by
  induction t with
  | nil => intro lo k v hk _; simp [Tbl.ins, Tbl.risingFrom, hk]
  | cons e r ih =>
    obtain ⟨a, w⟩ := e
    intro lo k v hk h
    simp only [Tbl.risingFrom, Bool.and_eq_true, decide_eq_true_eq] at h
    by_cases h1 : k < a
    · simp only [Tbl.ins, h1, if_true, Tbl.risingFrom, Bool.and_eq_true, decide_eq_true_eq]; exact ⟨hk, by omega, h.2⟩
    · by_cases h2 : k = a
      · subst h2; simp only [Tbl.ins, lt_irrefl, if_false, if_true, Tbl.risingFrom, Bool.and_eq_true, decide_eq_true_eq]; exact ⟨hk, h.2⟩
      · simp only [Tbl.ins, h1, h2, if_false, Tbl.risingFrom, Bool.and_eq_true, decide_eq_true_eq]
        exact ⟨h.1, ih v (by omega) h.2⟩

theorem Tbl.rising_set [DecidableEq α] (d : α) {t : Tbl α} (k : Nat) (v : α) (h : Tbl.risingFrom 0 t = true) :
    Tbl.risingFrom 0 (Tbl.set d t k v) = true := by
  unfold Tbl.set; split
  · exact Tbl.rising_erase h
  · exact Tbl.rising_ins v (Nat.zero_le k) h

theorem Tbl.mem_erase {t : Tbl α} {k : Nat} {e : Nat × α} (h : e ∈ Tbl.erase t k) : e ∈ t := by
  induction t with
  | nil => exact h
  | cons x r ih =>
    obtain ⟨a, v⟩ := x
    by_cases ha : a = k
    · simp only [Tbl.erase, ha, if_true] at h; exact List.mem_cons_of_mem _ h
    · simp only [Tbl.erase, ha, if_false, List.mem_cons] at h
      exact h.elim (fun x => by simp [x]) (fun x => List.mem_cons_of_mem _ (ih x))

theorem Tbl.mem_ins {t : Tbl α} {k : Nat} {v : α} {e : Nat × α} (h : e ∈ Tbl.ins k v t) : e = (k, v) ∨ e ∈ t := by
  induction t with
  | nil => simpa [Tbl.ins] using h
  | cons x r ih =>
    obtain ⟨a, w⟩ := x
    by_cases h1 : k < a
    · simpa [Tbl.ins, h1] using h
    · by_cases h2 : k = a
      · simp only [Tbl.ins, h2, lt_irrefl, if_false, if_true, List.mem_cons] at h
        exact h.elim (fun x => .inl (by rw [x, h2])) (fun x => .inr (List.mem_cons_of_mem _ x))
      · simp only [Tbl.ins, h1, h2, if_false, List.mem_cons] at h
        exact h.elim (fun x => .inr (by simp [x])) (fun x => (ih x).imp_right (List.mem_cons_of_mem _))

/-- Every write keeps the canonical form. -/
theorem Tbl.wf_set [DecidableEq α] (d : α) {t : Tbl α} (k : Nat) (v : α) (h : Tbl.wf d t = true) :
    Tbl.wf d (Tbl.set d t k v) = true := by
  simp only [Tbl.wf, Bool.and_eq_true, List.all_eq_true, decide_eq_true_eq] at h ⊢
  refine ⟨Tbl.rising_set d k v h.1, fun e he => ?_⟩
  unfold Tbl.set at he; split at he
  · exact h.2 e (Tbl.mem_erase he)
  · next hv => exact (Tbl.mem_ins he).elim (fun x => by rw [x]; exact hv) (h.2 e)

/-- In canonical form two tables that read alike everywhere are equal. -/
theorem Tbl.ext_of_wf [DecidableEq α] (d : α) : ∀ {t u : Tbl α} {lo : Nat}, Tbl.risingFrom lo t = true → Tbl.risingFrom lo u = true →
    (∀ e ∈ t, e.2 ≠ d) → (∀ e ∈ u, e.2 ≠ d) → (∀ k, Tbl.get d t k = Tbl.get d u k) → t = u := by
  intro t
  induction t with
  | nil =>
    intro u lo _ _ _ hu hg
    cases u with
    | nil => rfl
    | cons e r =>
      have := hg e.1
      simp only [Tbl.get, if_true] at this
      exact absurd this.symm (hu e (by simp))
  | cons e r ih =>
    obtain ⟨a, v⟩ := e
    intro u lo ht hu nt nu hg
    simp only [Tbl.risingFrom, Bool.and_eq_true, decide_eq_true_eq] at ht
    have hva : v ≠ d := nt (a, v) (by simp)
    cases u with
    | nil => have := hg a; simp [Tbl.get] at this; exact absurd this hva
    | cons f q =>
      obtain ⟨b, w⟩ := f
      simp only [Tbl.risingFrom, Bool.and_eq_true, decide_eq_true_eq] at hu
      have hwb : w ≠ d := nu (b, w) (by simp)
      rcases Nat.lt_trichotomy a b with hab | hab | hab
      · have h1 := hg a
        rw [show Tbl.get d ((b, w) :: q) a = d from Tbl.get_below d (lo := b) (by simp [Tbl.risingFrom, hu.2]) hab] at h1
        simp only [Tbl.get, if_true] at h1
        exact absurd h1 hva
      · subst hab
        have hv : v = w := by simpa [Tbl.get] using hg a
        have : r = q := ih (lo := a + 1) ht.2 hu.2 (fun e he => nt e (List.mem_cons_of_mem _ he)) (fun e he => nu e (List.mem_cons_of_mem _ he))
          (fun k => by
            by_cases hk : a = k
            · subst hk; rw [Tbl.get_below d ht.2 (by omega), Tbl.get_below d hu.2 (by omega)]
            · simpa [Tbl.get, hk] using hg k)
        rw [hv, this]
      · have h1 := hg b
        rw [show Tbl.get d ((a, v) :: r) b = d from Tbl.get_below d (lo := a) (by simp [Tbl.risingFrom, ht.2]) hab] at h1
        simp only [Tbl.get, if_true] at h1
        exact absurd h1.symm hwb

theorem Tbl.rising_filter {t : Tbl α} (p : Nat × α → Bool) : ∀ {lo : Nat}, Tbl.risingFrom lo t = true → Tbl.risingFrom lo (t.filter p) = true := by
  induction t with
  | nil => intro lo h; exact h
  | cons e t ih =>
    intro lo h
    obtain ⟨k, v⟩ := e
    simp only [Tbl.risingFrom, Bool.and_eq_true, decide_eq_true_eq] at h
    simp only [List.filter_cons]
    split
    · simp only [Tbl.risingFrom, Bool.and_eq_true, decide_eq_true_eq]
      exact ⟨h.1, ih h.2⟩
    · exact ih (Tbl.risingFrom_mono (by omega) h.2)

end Sys2Proof
end

