-- ==== Sys2Proof/Laws/Regs.lean ====
section
/-! SUPPORT. What the shared operations over registers, host memory, rings and events do, once each: a read after a write, what a
write leaves, the canonical forms that they keep, and all that the posting of an event can change. -/
namespace Sys2Proof.Machine

/-! ### Register fields -/

/-- A field reads what was written to it, cut to its width. -/
theorem State.rd_wr_self {s : State} (h : s.regsOk = true) (f : Fld) (v : Nat) : (s.wr f v).rd f = v % 2 ^ f.width :=
  Tbl.get_set_self f.reset h f.key (v % 2 ^ f.width)

/-- A write leaves every field with another key. -/
theorem State.rd_wr_ne (s : State) {f g : Fld} (v : Nat) (h : g.key ≠ f.key) : (s.wr f v).rd g = s.rd g := by
  unfold State.rd State.wr
  simp only [Tbl.set]
  split
  · exact Tbl.get_erase_ne g.reset s.regs h
  · exact Tbl.get_ins_ne g.reset s.regs _ h

/-- Two states with the same register table read the same. -/
theorem State.rd_congr {s t : State} (h : t.regs = s.regs) (f : Fld) : t.rd f = s.rd f := by unfold State.rd; rw [h]

theorem State.wr_regsOk {s : State} (h : s.regsOk = true) (f : Fld) (v : Nat) : (s.wr f v).regsOk = true :=
  Tbl.rising_set f.reset f.key (v % 2 ^ f.width) h

theorem State.addSat_regsOk {s : State} (h : s.regsOk = true) (f : Fld) (n : Nat) : (s.addSat f n).regsOk = true := s.wr_regsOk h f _

theorem State.inc_regsOk {s : State} (h : s.regsOk = true) (f : Fld) : (s.inc f).regsOk = true := s.wr_regsOk h f _

theorem State.addWrap_regsOk {s : State} (h : s.regsOk = true) (f : Fld) (n : Nat) : (s.addWrap f n).regsOk = true := s.wr_regsOk h f _

theorem State.wrBit_regsOk {s : State} (h : s.regsOk = true) (f : Fld) (b : Bool) : (s.wrBit f b).regsOk = true := s.wr_regsOk h f _

/-- A counter that does not stand at its largest value counts by one. -/
theorem State.inc_rd {s : State} (h : s.regsOk = true) (f : Fld) (hw : s.rd f + 1 < 2 ^ f.width) : (s.inc f).rd f = s.rd f + 1 := by
  unfold State.inc State.addSat
  rw [State.rd_wr_self h, Nat.min_eq_left (by omega), Nat.mod_eq_of_lt hw]

/-- A counter at its largest value stays there. -/
theorem State.inc_rd_full {s : State} (h : s.regsOk = true) (f : Fld) (hw : s.rd f + 1 = 2 ^ f.width) : (s.inc f).rd f = s.rd f := by
  unfold State.inc State.addSat
  rw [State.rd_wr_self h, Nat.min_eq_right (by omega), Nat.mod_eq_of_lt (by omega)]; omega

/-! ### Host memory -/

/-- A byte of host memory reads what was written to it. -/
theorem State.hostByte_set_self {s : State} (h : s.memOk = true) (a : Nat) (b : Byte) : (s.setHostByte a b).hostByte a = b := by
  have := h; simp only [State.memOk, Memory.wf, Tbl.wf, Bool.and_eq_true] at this
  exact Tbl.get_set_self 0 this.1 a b

/-- A write leaves every other byte. -/
theorem State.hostByte_set_ne (s : State) {a c : Nat} (b : Byte) (h : c ≠ a) : (s.setHostByte a b).hostByte c = s.hostByte c :=
  Tbl.get_set_ne 0 s.hostMem b h

/-- A byte written keeps the canonical form of host memory. -/
theorem State.setHostByte_memOk {s : State} (h : s.memOk = true) (a : Nat) (b : Byte) : (s.setHostByte a b).memOk = true :=
  Tbl.wf_set 0 a b h

/-- Every DMA write keeps it. -/
theorem State.dmaWrite_memOk (l : List Nat) : ∀ {s : State} (_ : s.memOk = true) (a : Nat), (s.dmaWrite a l).memOk = true := by
  induction l with
  | nil => intro s h a; exact h
  | cons b r ih => intro s h a; exact ih (s.setHostByte_memOk h a _) (a + 1)

/-- A DMA write leaves the bytes outside its range. -/
theorem State.dmaWrite_outside (l : List Nat) : ∀ (s : State) (a c : Nat), c < a ∨ a + l.length ≤ c →
    (s.dmaWrite a l).hostByte c = s.hostByte c := by
  induction l with
  | nil => intros; rfl
  | cons b r ih =>
    intro s a c h
    simp only [State.dmaWrite, List.length_cons] at h ⊢
    rw [ih _ _ _ (by omega), State.hostByte_set_ne _ _ (by omega)]

/-- A DMA write changes host memory alone. -/
theorem State.dmaWrite_rest (l : List Nat) : ∀ (s : State) (a : Nat), ∃ m, s.dmaWrite a l = { s with hostMem := m } := by
  induction l with
  | nil => intro s a; exact ⟨s.hostMem, rfl⟩
  | cons b r ih => intro s a; obtain ⟨m, hm⟩ := ih (s.setHostByte a (BitVec.ofNat 8 b)) (a + 1); exact ⟨m, hm⟩

/-- Host memory of the reset state is in its canonical form. -/
theorem State.reset_memOk : State.reset.memOk = true := rfl

theorem State.reset_regsOk : State.reset.regsOk = true := rfl

theorem State.reset_timeOk : State.reset.timeOk = true := by decide

/-! ### Rings -/

/-- The store of one ring leaves every other. -/
theorem State.ring_setRing_ne (s : State) {r q : Nat} (v : Ring) (h : q ≠ r) : (s.setRing r v).ring q = s.ring q := by
  unfold State.ring State.setRing
  exact Tbl.get_set_ne {} s.hif.rings v h

/-! ### Events -/

/-- All that an event's way to the host interface can change: the host interface, and the count of lost events of its class. -/
theorem State.fileRec_only (s : State) (e : EvRec) :
    ∃ h r, s.fileRec e = { s with hif := h, regs := r } ∧ (r = s.regs ∨ r = (s.inc (HIF_EVLOST.count e.cls)).regs) := by
  unfold State.fileRec
  split_ifs
  all_goals first
    | exact ⟨_, _, rfl, .inl rfl⟩
    | exact ⟨_, _, rfl, .inr rfl⟩

/-- All that control-class flits sent at once can change: the bridge. -/
theorem State.ctlNow_only (ft : Bool) : ∀ (n : Nat) (s : State), ∃ d, s.ctlNow ft n = { s with dies := d }
  | 0, _ => ⟨_, rfl⟩
  | n + 1, s => by
    obtain ⟨d, h⟩ := State.ctlNow_only ft n (s.putFlit ft { seq := 0, control := true, mod := 0, pkt := none })
    refine ⟨d, h.trans ?_⟩
    unfold State.putFlit State.setDir
    cases ft <;> rfl

/-- All that an input to the seats can change: what the seats hold. -/
theorem State.seatInput_only (s : State) (i : SeatIn) : ∃ k, s.seatInput i = { s with res := k } := by
  unfold State.seatInput
  split_ifs
  · exact ⟨_, rfl⟩
  · exact ⟨_, rfl⟩

/-- All that the way of a record of the FD to the host interface can change: the bridge, the kept records, the host interface, and the count
of lost events of its class. -/
theorem State.sendRec_only (s : State) (e : EvRec) :
    ∃ d h r k, s.sendRec e = { s with dies := d, hif := h, regs := r, res := k } ∧
      (r = s.regs ∨ r = (s.inc (HIF_EVLOST.count e.cls)).regs) := by
  unfold State.sendRec
  split_ifs
  · unfold State.keepRec
    split_ifs
    · exact ⟨_, _, _, _, rfl, .inl rfl⟩
    · exact ⟨_, _, _, _, rfl, .inl rfl⟩
  · obtain ⟨d, hd⟩ := State.ctlNow_only true (flitsOf (32 * e.slots)) s
    obtain ⟨h, r, he, hr⟩ := State.fileRec_only (s.ctlNow true (flitsOf (32 * e.slots))) e
    rw [hd] at he hr ⊢
    exact ⟨d, h, r, _, he, hr⟩
  · refine ⟨_, _, _, _, rfl, .inl rfl⟩

/-- All that the posting of an event can change: the bridge, the host interface, the kept records and the inputs of the seats, BMC_ALERT_N,
and the count of lost events of its class. -/
theorem State.postRec_only (s : State) (code : Nat) (payload : List Nat) (cont : List (List Nat)) :
    ∃ d h r k p, s.postRec code payload cont = { s with dies := d, hif := h, regs := r, res := k, pwr := p } ∧
      (r = s.regs ∨ r = (s.inc (HIF_EVLOST.count (code / 256))).regs) := by
  unfold State.postRec
  extract_lets cls ns e src s1 s2
  obtain ⟨p, hp⟩ : ∃ p, s1 = { s with pwr := p } := by
    by_cases h : cls = 15
    · exact ⟨_, if_pos h⟩
    · exact ⟨_, if_neg h⟩
  obtain ⟨k, hk⟩ := s1.seatInput_only (if isIslandEvent code then .island code else .interrupt code)
  have hk : s2 = { s with res := k, pwr := p } := by rw [show s2 = _ from hk, hp]
  split
  · obtain ⟨d, h, r, k', he, hr⟩ := s2.sendRec_only e
    exact ⟨d, h, r, k', p, by rw [he, hk], by rw [hk] at hr; exact hr⟩
  · obtain ⟨h, r, he, hr⟩ := s2.fileRec_only e
    exact ⟨_, h, r, k, p, by rw [he, hk], by rw [hk] at hr; exact hr⟩

/-- The posting of an event keeps the order of the register table. -/
theorem State.postRec_regsOk {s : State} (h : s.regsOk = true) (code : Nat) (payload : List Nat) (cont : List (List Nat)) :
    (s.postRec code payload cont).regsOk = true := by
  obtain ⟨_, _, r, _, _, he, hr⟩ := s.postRec_only code payload cont
  rw [he]; rcases hr with rfl | rfl
  · exact h
  · exact s.inc_regsOk h _

/-- The posting of an event leaves every register field but the count of lost events of its class. -/
theorem State.postRec_rd (s : State) (code : Nat) (payload : List Nat) (cont : List (List Nat)) {f : Fld}
    (hf : f.key ≠ (HIF_EVLOST.count (code / 256)).key) : (s.postRec code payload cont).rd f = s.rd f := by
  obtain ⟨_, _, r, _, _, he, hr⟩ := s.postRec_only code payload cont
  rw [he]; rcases hr with rfl | rfl
  · rfl
  · exact s.rd_wr_ne _ hf

@[simp] theorem State.postRec_clk (s : State) (code : Nat) (payload : List Nat) (cont : List (List Nat)) :
    (s.postRec code payload cont).clk = s.clk := by
  obtain ⟨_, _, _, _, _, he, _⟩ := s.postRec_only code payload cont; rw [he]

@[simp] theorem State.post_clk (s : State) (code : Nat) (payload : List Nat) : (s.post code payload).clk = s.clk :=
  s.postRec_clk code payload []

@[simp] theorem State.postRec_bar0L (s : State) (code : Nat) (payload : List Nat) (cont : List (List Nat)) :
    (s.postRec code payload cont).bar0L = s.bar0L := by
  obtain ⟨_, _, _, _, _, he, _⟩ := s.postRec_only code payload cont; rw [he]

@[simp] theorem State.post_bar0L (s : State) (code : Nat) (payload : List Nat) : (s.post code payload).bar0L = s.bar0L :=
  s.postRec_bar0L code payload []

@[simp] theorem State.postRec_cmdL (s : State) (code : Nat) (payload : List Nat) (cont : List (List Nat)) :
    (s.postRec code payload cont).cmdL = s.cmdL := by
  obtain ⟨_, _, _, _, _, he, _⟩ := s.postRec_only code payload cont; rw [he]

@[simp] theorem State.post_cmdL (s : State) (code : Nat) (payload : List Nat) : (s.post code payload).cmdL = s.cmdL :=
  s.postRec_cmdL code payload []

@[simp] theorem State.postRec_bmcL (s : State) (code : Nat) (payload : List Nat) (cont : List (List Nat)) :
    (s.postRec code payload cont).bmcL = s.bmcL := by
  obtain ⟨_, _, _, _, _, he, _⟩ := s.postRec_only code payload cont; rw [he]

@[simp] theorem State.post_bmcL (s : State) (code : Nat) (payload : List Nat) : (s.post code payload).bmcL = s.bmcL :=
  s.postRec_bmcL code payload []

@[simp] theorem State.postRec_readData (s : State) (code : Nat) (payload : List Nat) (cont : List (List Nat)) :
    (s.postRec code payload cont).readData = s.readData := by
  obtain ⟨_, _, _, _, _, he, _⟩ := s.postRec_only code payload cont; rw [he]

@[simp] theorem State.post_readData (s : State) (code : Nat) (payload : List Nat) : (s.post code payload).readData = s.readData :=
  s.postRec_readData code payload []

@[simp] theorem State.postRec_hostMem (s : State) (code : Nat) (payload : List Nat) (cont : List (List Nat)) :
    (s.postRec code payload cont).hostMem = s.hostMem := by
  obtain ⟨_, _, _, _, _, he, _⟩ := s.postRec_only code payload cont; rw [he]

@[simp] theorem State.post_hostMem (s : State) (code : Nat) (payload : List Nat) : (s.post code payload).hostMem = s.hostMem :=
  s.postRec_hostMem code payload []

@[simp] theorem State.postRec_free (s : State) (code : Nat) (payload : List Nat) (cont : List (List Nat)) :
    (s.postRec code payload cont).free = s.free := by
  obtain ⟨_, _, _, _, _, he, _⟩ := s.postRec_only code payload cont; rw [he]

@[simp] theorem State.post_free (s : State) (code : Nat) (payload : List Nat) : (s.post code payload).free = s.free :=
  s.postRec_free code payload []

@[simp] theorem State.postRec_evAt (s : State) (code : Nat) (payload : List Nat) (cont : List (List Nat)) :
    (s.postRec code payload cont).evAt = s.evAt := by
  obtain ⟨_, _, _, _, _, he, _⟩ := s.postRec_only code payload cont; rw [he]

@[simp] theorem State.post_evAt (s : State) (code : Nat) (payload : List Nat) : (s.post code payload).evAt = s.evAt :=
  s.postRec_evAt code payload []

@[simp] theorem State.postRec_evSum (s : State) (code : Nat) (payload : List Nat) (cont : List (List Nat)) :
    (s.postRec code payload cont).evSum = s.evSum := by
  obtain ⟨_, _, _, _, _, he, _⟩ := s.postRec_only code payload cont; rw [he]

@[simp] theorem State.post_evSum (s : State) (code : Nat) (payload : List Nat) : (s.post code payload).evSum = s.evSum :=
  s.postRec_evSum code payload []

@[simp] theorem State.postRec_eng (s : State) (code : Nat) (payload : List Nat) (cont : List (List Nat)) :
    (s.postRec code payload cont).eng = s.eng := by
  obtain ⟨_, _, _, _, _, he, _⟩ := s.postRec_only code payload cont; rw [he]

@[simp] theorem State.post_eng (s : State) (code : Nat) (payload : List Nat) : (s.post code payload).eng = s.eng :=
  s.postRec_eng code payload []

@[simp] theorem State.postRec_lkp (s : State) (code : Nat) (payload : List Nat) (cont : List (List Nat)) :
    (s.postRec code payload cont).lkp = s.lkp := by
  obtain ⟨_, _, _, _, _, he, _⟩ := s.postRec_only code payload cont; rw [he]

@[simp] theorem State.post_lkp (s : State) (code : Nat) (payload : List Nat) : (s.post code payload).lkp = s.lkp :=
  s.postRec_lkp code payload []

@[simp] theorem State.postRec_brg (s : State) (code : Nat) (payload : List Nat) (cont : List (List Nat)) :
    (s.postRec code payload cont).brg = s.brg := by
  obtain ⟨_, _, _, _, _, he, _⟩ := s.postRec_only code payload cont; rw [he]

@[simp] theorem State.post_brg (s : State) (code : Nat) (payload : List Nat) : (s.post code payload).brg = s.brg :=
  s.postRec_brg code payload []

@[simp] theorem State.postRec_bpm (s : State) (code : Nat) (payload : List Nat) (cont : List (List Nat)) :
    (s.postRec code payload cont).bpm = s.bpm := by
  obtain ⟨_, _, _, _, _, he, _⟩ := s.postRec_only code payload cont; rw [he]

@[simp] theorem State.post_bpm (s : State) (code : Nat) (payload : List Nat) : (s.post code payload).bpm = s.bpm :=
  s.postRec_bpm code payload []

@[simp] theorem State.postRec_qm (s : State) (code : Nat) (payload : List Nat) (cont : List (List Nat)) :
    (s.postRec code payload cont).qm = s.qm := by
  obtain ⟨_, _, _, _, _, he, _⟩ := s.postRec_only code payload cont; rw [he]

@[simp] theorem State.post_qm (s : State) (code : Nat) (payload : List Nat) : (s.post code payload).qm = s.qm :=
  s.postRec_qm code payload []

@[simp] theorem State.postRec_sch (s : State) (code : Nat) (payload : List Nat) (cont : List (List Nat)) :
    (s.postRec code payload cont).sch = s.sch := by
  obtain ⟨_, _, _, _, _, he, _⟩ := s.postRec_only code payload cont; rw [he]

@[simp] theorem State.post_sch (s : State) (code : Nat) (payload : List Nat) : (s.post code payload).sch = s.sch :=
  s.postRec_sch code payload []

@[simp] theorem State.postRec_mem (s : State) (code : Nat) (payload : List Nat) (cont : List (List Nat)) :
    (s.postRec code payload cont).mem = s.mem := by
  obtain ⟨_, _, _, _, _, he, _⟩ := s.postRec_only code payload cont; rw [he]

@[simp] theorem State.post_mem (s : State) (code : Nat) (payload : List Nat) : (s.post code payload).mem = s.mem :=
  s.postRec_mem code payload []

@[simp] theorem State.postRec_lpt (s : State) (code : Nat) (payload : List Nat) (cont : List (List Nat)) :
    (s.postRec code payload cont).lpt = s.lpt := by
  obtain ⟨_, _, _, _, _, he, _⟩ := s.postRec_only code payload cont; rw [he]

@[simp] theorem State.post_lpt (s : State) (code : Nat) (payload : List Nat) : (s.post code payload).lpt = s.lpt :=
  s.postRec_lpt code payload []

@[simp] theorem State.postRec_flk (s : State) (code : Nat) (payload : List Nat) (cont : List (List Nat)) :
    (s.postRec code payload cont).flk = s.flk := by
  obtain ⟨_, _, _, _, _, he, _⟩ := s.postRec_only code payload cont; rw [he]

@[simp] theorem State.post_flk (s : State) (code : Nat) (payload : List Nat) : (s.post code payload).flk = s.flk :=
  s.postRec_flk code payload []

@[simp] theorem State.postRec_tim (s : State) (code : Nat) (payload : List Nat) (cont : List (List Nat)) :
    (s.postRec code payload cont).tim = s.tim := by
  obtain ⟨_, _, _, _, _, he, _⟩ := s.postRec_only code payload cont; rw [he]

@[simp] theorem State.post_tim (s : State) (code : Nat) (payload : List Nat) : (s.post code payload).tim = s.tim :=
  s.postRec_tim code payload []

@[simp] theorem State.postRec_tel (s : State) (code : Nat) (payload : List Nat) (cont : List (List Nat)) :
    (s.postRec code payload cont).tel = s.tel := by
  obtain ⟨_, _, _, _, _, he, _⟩ := s.postRec_only code payload cont; rw [he]

@[simp] theorem State.post_tel (s : State) (code : Nat) (payload : List Nat) : (s.post code payload).tel = s.tel :=
  s.postRec_tel code payload []

@[simp] theorem State.postRec_upd (s : State) (code : Nat) (payload : List Nat) (cont : List (List Nat)) :
    (s.postRec code payload cont).upd = s.upd := by
  obtain ⟨_, _, _, _, _, he, _⟩ := s.postRec_only code payload cont; rw [he]

@[simp] theorem State.post_upd (s : State) (code : Nat) (payload : List Nat) : (s.post code payload).upd = s.upd :=
  s.postRec_upd code payload []

@[simp] theorem State.postRec_pending (s : State) (code : Nat) (payload : List Nat) (cont : List (List Nat)) :
    (s.postRec code payload cont).pending = s.pending := by
  obtain ⟨_, _, _, _, _, he, _⟩ := s.postRec_only code payload cont; rw [he]

@[simp] theorem State.post_pending (s : State) (code : Nat) (payload : List Nat) : (s.post code payload).pending = s.pending :=
  s.postRec_pending code payload []

@[simp] theorem State.postRec_cmdWrote (s : State) (code : Nat) (payload : List Nat) (cont : List (List Nat)) :
    (s.postRec code payload cont).cmdWrote = s.cmdWrote := by
  obtain ⟨_, _, _, _, _, he, _⟩ := s.postRec_only code payload cont; rw [he]

@[simp] theorem State.post_cmdWrote (s : State) (code : Nat) (payload : List Nat) : (s.post code payload).cmdWrote = s.cmdWrote :=
  s.postRec_cmdWrote code payload []

end Sys2Proof.Machine
end

