-- ==== Sys2Proof/Laws/Access.lean ====
section
/-! SUPPORT. What a 4-byte BAR0 write does on an open device: the register's own write, and on the Forwarding Die the tag beside it. -/
namespace Sys2Proof.Machine

theorem bitwise_full (n v : Nat) (h : v < 2 ^ n) : Nat.land v (2 ^ n - 1) = v := by
  show v &&& (2 ^ n - 1) = v
  rw [Nat.and_two_pow_sub_one_eq_mod, Nat.mod_eq_of_lt h]

/-- With every bit under the mask, the word written is the word given. -/
theorem mergeBits_full (old v : Nat) : mergeBits old (2 ^ 32 - 1) v = v % 2 ^ 32 := by
  unfold mergeBits
  rw [show (2 ^ 32 - 1) % 2 ^ 32 = 2 ^ 32 - 1 from by decide, bitwise_full 32 _ (Nat.mod_lt _ (by decide))]
  rw [show Nat.xor (2 ^ 32 - 1) (2 ^ 32 - 1) = 0 from by decide]
  show old &&& 0 ||| v % 2 ^ 32 = v % 2 ^ 32
  simp

/-- A write on the Top Die or the island. -/
theorem State.bar0Write_open {s : State} {a : Nat} (v : Nat) (h1 : s.pwr.recovery = false) (h2 : s.bit GEN_BOOTSTAT.ready = true)
    (h3 : s.bit GEN_SEAL.sealed = false) (ha : accessOk a 4 = true) (hr : isReserved a = false) (hf : isFdAddr a = false) :
    s.bar0Write a 4 v = s.regWrite .bar0 a (2 ^ 32 - 1) (v % 2 ^ 32) := by
  simp [State.bar0Write, ha, State.bar0Word, h1, h2, h3, hr, State.deliverWrite, hf, State.viaSideband, State.fdAccess]

/-- An access to the FD as it reaches the register: the tag is taken, and the access crosses in a control-class flit (R28, R37). -/
def State.fdReach (s : State) : State := State.ctlNow { s with dies := { s.dies with nextTag := (s.dies.nextTag + 1) % 256 } } false 1

/-- All that the answer to an access can change: the bridge. -/
theorem State.fdReply_only (s : State) (m : SbMsg) (g v : Nat) : ∃ d, (s.fdReply m g v).2 = { s with dies := d } := by
  unfold State.fdReply
  split
  · exact State.ctlNow_only true 1 s
  · exact ⟨_, rfl⟩

/-- A write on the Forwarding Die, over the bridge, while the control class has room. -/
theorem State.bar0Write_fd {s : State} {a : Nat} (v : Nat) (h1 : s.pwr.recovery = false) (h2 : s.bit GEN_BOOTSTAT.ready = true)
    (h3 : s.bit GEN_SEAL.sealed = false) (hb : s.bridgeUp = true) (hu : s.fdUnreachable = false) (hc : s.ctlFree false 1 = true)
    (ha : accessOk a 4 = true) (hr : isReserved a = false) (hf : isFdAddr a = true) :
    s.bar0Write a 4 v = ((State.tagDone (State.regWrite s.fdReach .bar0 a (2 ^ 32 - 1) (v % 2 ^ 32)) s.dies.nextTag 0).fdReply
      (.write s.dies.nextTag a (2 ^ 32 - 1) (v % 2 ^ 32) false) s.dies.nextTag 0).2 := by
  have hc' : State.ctlFree { s with dies := { s.dies with nextTag := (s.dies.nextTag + 1) % 256 } } false 1 = true := hc
  have hd : s.bar0Write a 4 v = (s.fdAccess a (fun g => .write g a (2 ^ 32 - 1) (v % 2 ^ 32) false)
      (fun s => (0, s.regWrite .bar0 a (2 ^ 32 - 1) (v % 2 ^ 32)))).2 := by
    simp [State.bar0Write, ha, State.bar0Word, h1, h2, h3, hr, State.deliverWrite, hf, State.viaSideband, hb, hu]
    rfl
  rw [hd]
  unfold State.fdAccess State.nextTag
  rw [if_pos hf]
  dsimp only
  rw [if_pos hc']
  rfl

/-- Where no descriptor has written in the cycle, a BAR0 write is the word as it is. -/
theorem State.underCmd_none {s : State} {a : Nat} (h : s.cmdWrote.1 ≠ s.clk + 1) (v : Nat) : s.underCmd a v = v := by
  simp [State.underCmd, h]

/-- A full write of a register with a hook: `u` is the state with the fields cleared that are cleared by writing 1. -/
theorem State.regWrite_hook {s u t : State} {a v : Nat} {fs : List FldAcc} (hw : s.cmdWrote.1 ≠ s.clk + 1) (hm : isMsix a = false)
    (hs : a ≠ 0x10050) (hr : regAt a = .word fs)
    (hc : s.clearOnes .bar0 (v % 2 ^ 32) fs = u) (hk : u.hook .bar0 a (2 ^ 32 - 1) (v % 2 ^ 32) (v % 2 ^ 32) = some t) :
    s.regWrite .bar0 a (2 ^ 32 - 1) v = t := by
  have hx : Nat.land (v % 2 ^ 32) ((2 ^ 32 - 1) % 2 ^ 32) = v % 2 ^ 32 := bitwise_full 32 _ (Nat.mod_lt _ (by decide))
  simp only [State.regWrite, State.underCmd_none hw]
  unfold State.writeWord
  simp only [hm, hs, hr, mergeBits_full, hx, hc, hk, Bool.false_eq_true, false_and, if_false]

end Sys2Proof.Machine
end

