-- ==== Sys2Proof/Laws/Engine.lean ====
section
/-! SUPPORT. What the issue of one operation of an engine program does when it stands alone in its bundle: the bundle starts, the operation is
gated by its predicate, and the bundle commits. -/
namespace Sys2Proof

theorem Tbl.ins_ins {α : Type} (k : Nat) (p q : α) : ∀ l : List (Nat × α), Tbl.ins k q (Tbl.ins k p l) = Tbl.ins k q l
  | [] => by simp [Tbl.ins]
  | (a, w) :: r => by
    simp only [Tbl.ins]; split
    · simp [Tbl.ins]
    · split
      · rename_i h; subst h; simp [Tbl.ins]
      · rename_i h1 h2; simp only [Tbl.ins, if_neg h1, if_neg h2, Tbl.ins_ins k p q r]

theorem Tbl.find_ins {α : Type} (k : Nat) (p : α) : ∀ l : List (Nat × α), (Tbl.ins k p l).find? (fun e => e.1 == k) = some (k, p)
  | [] => by simp [Tbl.ins]
  | (a, w) :: r => by
    simp only [Tbl.ins]; split
    · simp
    · split
      · simp
      · have h : (a == k) = false := by simp; omega
        simp only [List.find?_cons, h]; exact Tbl.find_ins k p r

end Sys2Proof
namespace Sys2Proof.Machine

@[simp] theorem State.ply_setPly (s : State) (k : Nat) (p : Ply) : (s.setPly k p).ply k = some p := by
  simp [State.ply, State.setPly, Tbl.find_ins]

theorem State.setPly_setPly (s : State) (k : Nat) (p q : Ply) : (s.setPly k p).setPly k q = s.setPly k q := by
  simp [State.setPly, Tbl.ins_ins]

/-- A bundle that makes no access and no call and ends nothing writes its registers and moves on. -/
theorem State.commit_plain {s : State} {k : Nat} {p : Ply} {i : Issue} (hm : i.mem = none) (hc : i.call = none) (hf : i.fin = none) :
    s.commit k p i = s.setPly k ((p.withWrites i).onward ((p.withWrites i).pc + 1)) := by
  unfold State.commit
  simp only [hm, hc, hf]; rfl

/-- The start of a bundle leaves the loaded lengths of the banks. -/
theorem State.startBundle_len (s : State) (p : Ply) (c b : Nat) : (s.startBundle p).1.rd (bankLen c b) = s.rd (bankLen c b) := by
  unfold State.startBundle
  refine State.rd_wr_ne _ _ ?_
  unfold bankLen
  split <;> simp [Fld.key, ENG_BANKLEN0.length, ENG_BANKLEN1.length, ENG_BUNDLECNT.count] <;> omega

/-- A ply within its program and its budget, at a readable bundle, starts that bundle. -/
theorem State.startFault_none {s : State} {p : Ply} (h1 : p.pc < s.rd (bankLen p.cluster p.bank))
    (h2 : p.bundles < s.rd (ENG_LIMITS.bundle_limit p.cluster)) (h3 : s.eng.insnEcc.contains (bunKey p.cluster p.bank p.pc) = false) :
    s.startFault p = none := by
  unfold State.startFault
  rw [if_neg (by omega), if_neg (by omega), if_neg (by rw [h3]; simp)]

/-- The first operation of a bundle that starts without a fault, of a ply that takes a context or has one. -/
theorem State.issueOp_first {s : State} {k opc slot : Nat} {p : Ply} {f : Nat → Ply → EOp → Issue → Issue} (hp : s.ply k = some p)
    (hs : p.parked = []) (hx : s.canRun p = true) (he : (p.ecc && !p.ctx && decide (0 < p.bundles)) = false) (hi : p.issue = none)
    (h0 : s.startFault p = none) (hb : bunBarrier (s.bundle p.cluster p.bank p.pc) = false ∨ p.tags = [])
    (hn : nextSlot (s.bundle p.cluster p.bank p.pc) 0 = some slot) (ho : (decodeOp (s.bundle p.cluster p.bank p.pc) slot).opcode = opc) :
    s.issueOp opc k f = (s.startBundle { p with ctx := true }).1.runOp k (s.startBundle { p with ctx := true }).2 {} slot f := by
  unfold State.issueOp
  have h0' : s.startFault { p with ctx := true } = none := h0
  simp only [hp]
  rw [if_neg (by simp [hs, hx]), if_neg (by simp [he])]
  simp only [hi] at h0' ⊢
  simp only [h0']
  rw [if_neg (by rcases hb with h | h <;> simp [h]), hn]
  simp only; rw [if_pos ho]

/-- An operation that stands alone in its bundle: the bundle starts, the operation is gated by its predicate, and the bundle commits. -/
theorem State.issueOp_alone {s : State} {k opc slot : Nat} {p : Ply} {f : Nat → Ply → EOp → Issue → Issue} (hp : s.ply k = some p)
    (hs : p.parked = []) (hx : s.canRun p = true) (he : (p.ecc && !p.ctx && decide (0 < p.bundles)) = false) (hi : p.issue = none)
    (h0 : s.startFault p = none) (hb : bunBarrier (s.bundle p.cluster p.bank p.pc) = false ∨ p.tags = [])
    (hn : nextSlot (s.bundle p.cluster p.bank p.pc) 0 = some slot) (hl : nextSlot (s.bundle p.cluster p.bank p.pc) (slot + 1) = none)
    (ho : (decodeOp (s.bundle p.cluster p.bank p.pc) slot).opcode = opc) :
    s.issueOp opc k f = (s.startBundle { p with ctx := true }).1.commit k (s.startBundle { p with ctx := true }).2
      (if (decodeOp (s.bundle p.cluster p.bank p.pc) slot).gated p
        then f (s.rd (bankLen p.cluster p.bank)) (s.startBundle { p with ctx := true }).2
          (decodeOp (s.bundle p.cluster p.bank p.pc) slot) {} else {}) := by
  rw [State.issueOp_first hp hs hx he hi h0 hb hn ho]
  have hr := s.startBundle_len { p with ctx := true } p.cluster p.bank
  have hl' : nextSlot ((s.startBundle { p with ctx := true }).1.bundle p.cluster p.bank p.pc) (slot + 1) = none := hl
  unfold State.runOp
  show (match nextSlot ((s.startBundle { p with ctx := true }).1.bundle p.cluster p.bank p.pc) (slot + 1) with
    | none => _
    | some n => _) = _
  rw [hl']
  simp only
  congr 1
  show (if _ then f ((s.startBundle { p with ctx := true }).1.rd (bankLen p.cluster p.bank)) _ _ _ else _) = _
  rw [hr]
  rfl

end Sys2Proof.Machine
end

