-- ==== Sys2Proof/Laws/Flash.lean ====
section
/-! SUPPORT. Laws of the update flash: programming bytes and reading them back. -/
namespace Sys2Proof.Machine

theorem norPut_below {t : Tbl Nat} : ∀ (l : List Nat) (a : Nat) {j : Nat}, j < a → Tbl.get 255 (norPut t a l) j = Tbl.get 255 t j
  | [], _, _, _ => rfl
  | b :: r, a, j, h => by
    unfold norPut
    rw [norPut_below r (a + 1) (by omega), Tbl.get_set_ne _ _ _ (by omega)]

theorem norPut_above {t : Tbl Nat} : ∀ (l : List Nat) (a : Nat) {j : Nat}, a + l.length ≤ j → Tbl.get 255 (norPut t a l) j = Tbl.get 255 t j
  | [], _, _, _ => rfl
  | b :: r, a, j, h => by
    unfold norPut
    rw [List.length_cons] at h
    rw [norPut_above r (a + 1) (by omega), Tbl.get_set_ne _ _ _ (by omega)]

theorem norPut_rising : ∀ (l : List Nat) (t : Tbl Nat) (a : Nat), Tbl.risingFrom 0 t = true → Tbl.risingFrom 0 (norPut t a l) = true
  | [], _, _, h => h
  | _ :: r, _, _, h => norPut_rising r _ _ (Tbl.rising_set _ _ _ h)

/-- The bytes just programmed read back. -/
theorem norPut_get : ∀ (l : List Nat) (t : Tbl Nat) (a : Nat), Tbl.risingFrom 0 t = true → (∀ x ∈ l, x < 256) →
    (List.range l.length).map (fun i => Tbl.get 255 (norPut t a l) (a + i)) = l
  | [], _, _, _, _ => rfl
  | b :: r, t, a, h, hb => by
    unfold norPut
    rw [List.length_cons, List.range_succ_eq_map, List.map_cons, List.map_map, norPut_below r (a + 1) (by omega), Nat.add_zero,
      Tbl.get_set_self _ h, Nat.mod_eq_of_lt (hb b (by simp))]
    congr 1
    have e := norPut_get r (Tbl.set 255 t a (b % 256)) (a + 1) (Tbl.rising_set _ _ _ h) (fun x hx => hb x (by simp [hx]))
    rw [Nat.mod_eq_of_lt (hb b (by simp))] at e
    refine Eq.trans (List.map_congr_left fun i _ => ?_) e
    simp only [Function.comp, Nat.succ_eq_add_one, Nat.add_assoc, Nat.add_comm 1 i]

end Sys2Proof.Machine
end

