-- ==== Sys2Proof/Laws/Keeps.lean ====
section
/-! SUPPORT. What every operation keeps: a sound state stays sound, and neither the queue nor the clock moves. -/
namespace Sys2Proof.Machine

/-- `t` is as sound as `s`, with the same queue and the same clock. -/
structure Keeps (s t : State) : Prop where
  ok : s.ok = true → t.ok = true
  pending : t.pending = s.pending
  clk : t.clk = s.clk

/-- An outcome is a next state, which keeps. -/
structure KO (s : State) (o : Host.Outcome State Fault Refusal) : Prop where
  goes : ∃ t, o = .next t ∧ Keeps s t

/-- The state of an answer that may be none, or the state in a pair or a sum, keeps. -/
structure KM (s : State) (o : Option State) : Prop where
  of : ∀ t, o = some t → Keeps s t
abbrev KP {α : Type} (s : State) (p : α × State) : Prop := Keeps s p.2
abbrev KF {α : Type} (s : State) (p : State × α) : Prop := Keeps s p.1
structure KMP {α : Type} (s : State) (o : Option (α × State)) : Prop where
  of : ∀ p, o = some p → Keeps s p.2
structure KR {α : Type} (s : State) (o : α ⊕ State) : Prop where
  of : ∀ t, o = .inr t → Keeps s t
structure KRF {α β : Type} (s : State) (o : α ⊕ State × β) : Prop where
  of : ∀ p, o = .inr p → Keeps s p.1

/-- The state of a bulk descriptor's entry keeps. -/
def Entry.keeps (s : State) : Entry → Prop
  | .stop _ _ t => Keeps s t
  | .wait => True
  | .go t => Keeps s t
structure KE (s : State) (e : Entry) : Prop where
  of : e.keeps s

theorem Keeps.refl (s : State) : Keeps s s := ⟨id, rfl, rfl⟩

theorem Keeps.mk' {s t : State} {tm : Tim} {a4 a5 a6 : Latch} {a7 b7 a9 a10 a11 a12 a13 a14 a15 a16 a17 a18 a19 a20 a21 a22 a24 a25 a26 a27}
    (h : Keeps s t) (h1 : tm.ns = t.tim.ns) (h2 : tm.frac = t.tim.frac) :
    Keeps s (State.mk t.clk t.regs a4 a5 a6 a7 b7 t.hostMem a9 a10 a11 a12 a13 a14 a15 a16 a17 a18 a19 a20 a21 a22 tm a24 a25 a26 a27 t.pending) := by
  refine ⟨fun hs => ?_, h.pending, h.clk⟩
  have := h.ok hs
  simp only [State.ok, State.regsOk, State.memOk, State.timeOk, Bool.and_eq_true, decide_eq_true_eq] at this ⊢
  rw [h1, h2]
  exact this

theorem KO.next {s t : State} (h : Keeps s t) : KO s (.next t) := ⟨t, rfl, h⟩
theorem KO.of {s : State} {o : Host.Outcome State Fault Refusal} (h : KO s o) (t : State) (e : o = .next t) : Keeps s t := by
  obtain ⟨u, hu, hk⟩ := h.goes
  rw [hu] at e
  cases e
  exact hk
theorem KM.some {s t : State} (h : Keeps s t) : KM s (some t) := ⟨fun _ e => by cases e; exact h⟩
theorem KM.none {s : State} : KM s none := ⟨fun _ e => by cases e⟩
theorem KMP.some {α : Type} {s : State} {p : α × State} (h : Keeps s p.2) : KMP s (some p) := ⟨fun _ e => by cases e; exact h⟩
theorem KMP.none {α : Type} {s : State} : KMP (α := α) s none := ⟨fun _ e => by cases e⟩
theorem KR.inr {α : Type} {s t : State} (h : Keeps s t) : KR (α := α) s (.inr t) := ⟨fun _ e => by cases e; exact h⟩
theorem KR.inl {α : Type} {s : State} {a : α} : KR s (.inl a) := ⟨fun _ e => by cases e⟩
theorem KRF.inr {α β : Type} {s : State} {p : State × β} (h : Keeps s p.1) : KRF (α := α) s (.inr p) := ⟨fun _ e => by cases e; exact h⟩
theorem KRF.inl {α β : Type} {s : State} {a : α} : KRF (β := β) s (.inl a) := ⟨fun _ e => by cases e⟩

theorem KE.go {s t : State} (h : Keeps s t) : KE s (.go t) := ⟨h⟩
theorem KE.stop {s t : State} {st : Status} {d : Nat} (h : Keeps s t) : KE s (.stop st d t) := ⟨h⟩
theorem KE.wait {s : State} : KE s .wait := ⟨trivial⟩
theorem KE.ite {s : State} {a b : Entry} {c : Prop} [Decidable c] (ha : KE s a) (hb : KE s b) : KE s (if c then a else b) := by
  split <;> assumption

theorem Keeps.ite {s a b : State} {c : Prop} [Decidable c] (ha : Keeps s a) (hb : Keeps s b) : Keeps s (if c then a else b) := by
  split <;> assumption
theorem KO.ite {s : State} {a b} {c : Prop} [Decidable c] (ha : KO s a) (hb : KO s b) : KO s (if c then a else b) := by split <;> assumption
theorem KM.ite {s : State} {a b} {c : Prop} [Decidable c] (ha : KM s a) (hb : KM s b) : KM s (if c then a else b) := by split <;> assumption
theorem KP.ite {α : Type} {s : State} {a b : α × State} {c : Prop} [Decidable c] (ha : KP s a) (hb : KP s b) : KP s (if c then a else b) := by
  split <;> assumption

theorem Keeps.ofPair {α : Type} {s t : State} {p : α × State} {a : α} (h : KP s p) (e : p = (a, t)) : Keeps s t := by rw [e] at h; exact h
theorem Keeps.ofFst {α : Type} {s t : State} {p : State × α} {a : α} (h : KF s p) (e : p = (t, a)) : Keeps s t := by rw [e] at h; exact h
theorem Keeps.ofSome {s t : State} {o} (h : KM s o) (e : o = some t) : Keeps s t := h.of t e
theorem Keeps.ofNext {s t : State} {o} (h : KO s o) (e : o = .next t) : Keeps s t := h.of t e
theorem Keeps.ofSomePair {α : Type} {s t : State} {o : Option (α × State)} {a : α} (h : KMP s o) (e : o = .some (a, t)) : Keeps s t := h.of (a, t) e
theorem Keeps.ofInr {α : Type} {s t : State} {o : α ⊕ State} (h : KR s o) (e : o = .inr t) : Keeps s t := h.of t e
theorem Keeps.ofInrPair {α β : Type} {s t : State} {o : α ⊕ State × β} {b : β} (h : KRF s o) (e : o = .inr (t, b)) : Keeps s t := h.of (t, b) e

theorem Keeps.ofStop {s t : State} {e : Entry} {st : Status} {d : Nat} (h : KE s e) (eq : e = .stop st d t) : Keeps s t := by
  rw [eq] at h; exact h.of
theorem Keeps.ofGo {s t : State} {e : Entry} (h : KE s e) (eq : e = .go t) : Keeps s t := by rw [eq] at h; exact h.of

theorem Keeps.foldl {α : Type} {s : State} {f : State → α → State} (hf : ∀ t x, Keeps s t → Keeps s (f t x)) :
    ∀ (l : List α) {t : State}, Keeps s t → Keeps s (l.foldl f t)
  | [], _, h => h
  | x :: l, _, h => Keeps.foldl hf l (hf _ x h)

theorem KP.foldl {α β : Type} {s : State} {f : β × State → α → β × State} (hf : ∀ p x, KP s p → KP s (f p x)) :
    ∀ (l : List α) {p : β × State}, KP s p → KP s (l.foldl f p)
  | [], _, h => h
  | x :: l, _, h => KP.foldl hf l (hf _ x h)

theorem KF.foldl {α β : Type} {s : State} {f : State × β → α → State × β} (hf : ∀ p x, KF s p → KF s (f p x)) :
    ∀ (l : List α) {p : State × β}, KF s p → KF s (l.foldl f p)
  | [], _, h => h
  | x :: l, _, h => KF.foldl hf l (hf _ x h)

theorem KM.foldl {α : Type} {s : State} {f : Option State → α → Option State} (hf : ∀ p x, KM s p → KM s (f p x)) :
    ∀ (l : List α) {p : Option State}, KM s p → KM s (l.foldl f p)
  | [], _, h => h
  | x :: l, _, h => KM.foldl hf l (hf _ x h)

theorem Keeps.getD {s t : State} {o : Option State} (h : KM s o) (ht : Keeps s t) : Keeps s (o.getD t) := by
  cases o with
  | none => exact ht
  | some a => exact h.of a rfl

theorem KM.map {α : Type} {s : State} {f : α → State} {o : Option α} (h : ∀ a, Keeps s (f a)) : KM s (o.map f) := by
  cases o with
  | none => exact KM.none
  | some a => exact KM.some (h a)

theorem KMP.map {α β : Type} {s t : State} {f : α → β} {o : Option α} (h : Keeps s t) : KMP s (o.map fun a => (f a, t)) := by
  cases o with
  | none => exact KMP.none
  | some a => exact KMP.some h

theorem State.wr_keeps {s t : State} (h : Keeps s t) (f : Fld) (v : Nat) : Keeps s (t.wr f v) := by
  refine ⟨fun hs => ?_, h.pending, h.clk⟩
  have := h.ok hs
  simp only [State.ok, Bool.and_eq_true] at this ⊢
  exact ⟨⟨State.wr_regsOk this.1.1 f v, this.1.2⟩, this.2⟩

theorem State.setHostByte_keeps {s t : State} (h : Keeps s t) (a : Nat) (b : Byte) : Keeps s (t.setHostByte a b) := by
  refine ⟨fun hs => ?_, h.pending, h.clk⟩
  have := h.ok hs
  simp only [State.ok, Bool.and_eq_true] at this ⊢
  exact ⟨⟨this.1.1, State.setHostByte_memOk this.1.2 a b⟩, this.2⟩

end Sys2Proof.Machine
end

