-- ==== Sys2Proof/Laws/KeepsHost.lean ====
section
/-! SUPPORT. That each operation keeps what `Keeps` says: the shared operations, the host interface's rings and descriptors, the bridge, the counters, the settings store. -/
namespace Sys2Proof.Machine

theorem State.addSat_keeps {s0 : State} {x1 : State} (x2 : Sys2Proof.Machine.Fld) (x3 : Nat) (hx1 : Keeps s0 x1) :
    Keeps s0 (State.addSat x1 x2 x3) := by
  unfold State.addSat
  with_reducible repeat' (first
    | assumption | apply State.wr_keeps)

theorem State.inc_keeps {s0 : State} {x1 : State} (x2 : Sys2Proof.Machine.Fld) (hx1 : Keeps s0 x1) :
    Keeps s0 (State.inc x1 x2) := by
  unfold State.inc
  with_reducible repeat' (first
    | assumption | apply State.addSat_keeps)

theorem State.wrBit_keeps {s0 : State} {x1 : State} (x2 : Sys2Proof.Machine.Fld) (x3 : Bool) (hx1 : Keeps s0 x1) :
    Keeps s0 (State.wrBit x1 x2 x3) := by
  unfold State.wrBit
  with_reducible repeat' (first
    | assumption | apply State.wr_keeps)

theorem State.seatInput_keeps {s0 : State} {x1 : State} (x2 : Sys2Proof.Machine.SeatIn) (hx1 : Keeps s0 x1) :
    Keeps s0 (State.seatInput x1 x2) := by
  unfold State.seatInput
  with_reducible repeat' (first
    | assumption | apply Keeps.ite | fail_if_no_progress refine Keeps.mk' ?_ rfl rfl)

theorem State.keepRec_keeps {s0 : State} {x1 : State} (x2 : Sys2Proof.Machine.EvRec) (hx1 : Keeps s0 x1) :
    Keeps s0 (State.keepRec x1 x2) := by
  unfold State.keepRec
  with_reducible repeat' (first
    | assumption | apply Keeps.ite | fail_if_no_progress refine Keeps.mk' ?_ rfl rfl)

theorem State.fileRec_keeps {s0 : State} {x1 : State} (x2 : Sys2Proof.Machine.EvRec) (hx1 : Keeps s0 x1) :
    Keeps s0 (State.fileRec x1 x2) := by
  unfold State.fileRec
  with_reducible repeat' (first
    | assumption | apply State.inc_keeps | apply Keeps.ite | fail_if_no_progress refine Keeps.mk' ?_ rfl rfl)

theorem State.setDir_keeps {s0 : State} {x1 : State} (x2 : Bool) (x3 : Sys2Proof.Machine.BridgeDir) (hx1 : Keeps s0 x1) :
    Keeps s0 (State.setDir x1 x2 x3) := by
  unfold State.setDir
  with_reducible repeat' (first
    | assumption | apply Keeps.ite | fail_if_no_progress refine Keeps.mk' ?_ rfl rfl)

theorem State.putFlit_keeps {s0 : State} {x1 : State} (x2 : Bool) (x3 : Sys2Proof.Machine.Flit) (hx1 : Keeps s0 x1) :
    Keeps s0 (State.putFlit x1 x2 x3) := by
  unfold State.putFlit
  with_reducible repeat' (first
    | assumption | apply State.setDir_keeps)

theorem State.ctlNow_keeps {s0 : State} {x1 : State} (x2 : Bool) (x3 : Nat) (hx1 : Keeps s0 x1) :
    Keeps s0 (State.ctlNow x1 x2 x3) := by
  revert hx1
  fun_induction State.ctlNow x1 x2 x3 <;> (intros; with_reducible repeat' (first
    | assumption | apply_assumption | apply State.putFlit_keeps))

theorem State.ctlWait_keeps {s0 : State} {x1 : State} (x2 : Bool) (x3 : Nat) (x4 : Sys2Proof.Machine.CtlMsg) (hx1 : Keeps s0 x1) :
    Keeps s0 (State.ctlWait x1 x2 x3 x4) := by
  unfold State.ctlWait
  with_reducible repeat' (first
    | assumption | apply State.setDir_keeps)

theorem State.sendRec_keeps {s0 : State} {x1 : State} (x2 : Sys2Proof.Machine.EvRec) (hx1 : Keeps s0 x1) :
    Keeps s0 (State.sendRec x1 x2) := by
  unfold State.sendRec
  with_reducible repeat' (first
    | assumption | apply State.keepRec_keeps | apply State.fileRec_keeps | apply State.ctlNow_keeps | apply State.ctlWait_keeps
    | apply Keeps.ite)

theorem State.postRec_keeps {s0 : State} {x1 : State} (x2 : Nat) (x3 : List Nat) (x4 : List (List Nat)) (hx1 : Keeps s0 x1) :
    Keeps s0 (State.postRec x1 x2 x3 x4) := by
  unfold State.postRec
  with_reducible repeat' (first
    | assumption | apply State.seatInput_keeps | apply State.sendRec_keeps | apply State.fileRec_keeps | apply Keeps.ite
    | fail_if_no_progress refine Keeps.mk' ?_ rfl rfl)

theorem State.post_keeps {s0 : State} {x1 : State} (x2 : Nat) (x3 : List Nat) (hx1 : Keeps s0 x1) :
    Keeps s0 (State.post x1 x2 x3) := by
  unfold State.post
  with_reducible repeat' (first
    | assumption | apply State.postRec_keeps)

theorem State.setRing_keeps {s0 : State} {x1 : State} (x2 : Nat) (x3 : Sys2Proof.Machine.Ring) (hx1 : Keeps s0 x1) :
    Keeps s0 (State.setRing x1 x2 x3) := by
  unfold State.setRing
  with_reducible repeat' (first
    | assumption | fail_if_no_progress refine Keeps.mk' ?_ rfl rfl)

theorem State.postRated_keeps {s0 : State} {x1 : State} (x2 : Nat) (x3 : Nat) (x4 : Nat) (x5 : Nat) (x6 : Nat → List Nat) (hx1 : Keeps s0 x1) :
    Keeps s0 (State.postRated x1 x2 x3 x4 x5 x6) := by
  unfold State.postRated
  with_reducible repeat' (first
    | assumption | apply State.post_keeps | apply Keeps.ite | fail_if_no_progress refine Keeps.mk' ?_ rfl rfl)

theorem State.dmaWrite_keeps {s0 : State} {x1 : State} (x2 : Nat) (x3 : List Nat) (hx1 : Keeps s0 x1) :
    Keeps s0 (State.dmaWrite x1 x2 x3) := by
  revert hx1
  fun_induction State.dmaWrite x1 x2 x3 <;> (intros; with_reducible repeat' (first
    | assumption | apply_assumption | apply State.setHostByte_keeps))

theorem State.endTest_keeps {s0 : State} {x1 : State} (x2 : Nat) (x3 : Nat) (x4 : Nat) (hx1 : Keeps s0 x1) :
    Keeps s0 (State.endTest x1 x2 x3 x4) := by
  unfold State.endTest
  with_reducible repeat' (first
    | assumption | apply State.post_keeps | apply State.wr_keeps | apply Keeps.ite | fail_if_no_progress refine Keeps.mk' ?_ rfl rfl)

theorem State.abandonTest_keeps {s0 : State} {x1 : State} (x2 : Nat) (x3 : Nat → Bool) (hx1 : Keeps s0 x1) :
    Keeps s0 (State.abandonTest x1 x2 x3) := by
  unfold State.abandonTest
  with_reducible repeat' (first
    | assumption | apply State.endTest_keeps | apply Keeps.ite)

theorem State.fresh_keeps {s0 : State} {x1 : State} (hx1 : Keeps s0 x1) :
    KP s0 (State.fresh x1) := by
  unfold State.fresh
  with_reducible repeat' (first
    | assumption | fail_if_no_progress refine Keeps.mk' ?_ rfl rfl)

theorem State.ctlHold_keeps {s0 : State} {x1 : State} (x2 : Bool) (hx1 : Keeps s0 x1) :
    Keeps s0 (State.ctlHold x1 x2) := by
  unfold State.ctlHold
  with_reducible repeat' (first
    | assumption | apply State.setDir_keeps)

theorem State.postModule_keeps {s0 : State} {x1 : State} (x2 : Nat) (x3 : List Nat) (hx1 : Keeps s0 x1) :
    Keeps s0 (State.postModule x1 x2 x3) := by
  unfold State.postModule
  with_reducible repeat' (first
    | assumption | apply State.post_keeps | fail_if_no_progress refine Keeps.mk' ?_ rfl rfl)

theorem State.addWrap_keeps {s0 : State} {x1 : State} (x2 : Sys2Proof.Machine.Fld) (x3 : Nat) (hx1 : Keeps s0 x1) :
    Keeps s0 (State.addWrap x1 x2 x3) := by
  unfold State.addWrap
  with_reducible repeat' (first
    | assumption | apply State.wr_keeps)

theorem State.resign_keeps {s0 : State} {x1 : State} (x2 : Nat) (x3 : Nat) (x4 : Nat) (x5 : Nat) (hx1 : Keeps s0 x1) :
    Keeps s0 (State.resign x1 x2 x3 x4 x5) := by
  unfold State.resign
  with_reducible repeat' (first
    | assumption | apply State.post_keeps | fail_if_no_progress refine Keeps.mk' ?_ rfl rfl)

theorem State.setSeat_keeps {s0 : State} {x1 : State} (x2 : Bool) (x3 : Sys2Proof.Machine.Seat) (hx1 : Keeps s0 x1) :
    Keeps s0 (State.setSeat x1 x2 x3) := by
  unfold State.setSeat
  with_reducible repeat' (first
    | assumption | apply Keeps.ite | fail_if_no_progress refine Keeps.mk' ?_ rfl rfl)

theorem State.ringError_keeps {s0 : State} {x1 : State} (x2 : Nat) (x3 : Nat) (hx1 : Keeps s0 x1) :
    Keeps s0 (State.ringError x1 x2 x3) := by
  unfold State.ringError
  with_reducible repeat' (first
    | assumption | apply State.post_keeps | apply State.setRing_keeps)

theorem State.useIndex_keeps {s0 : State} {x1 : State} (x2 : Nat) (hx1 : Keeps s0 x1) :
    Keeps s0 (State.useIndex x1 x2) := by
  unfold State.useIndex
  with_reducible repeat' (first
    | assumption | apply State.ringError_keeps | apply Keeps.ite)

theorem State.touchCache_keeps {s0 : State} {x1 : State} (x2 : Nat) (hx1 : Keeps s0 x1) :
    Keeps s0 (State.touchCache x1 x2) := by
  unfold State.touchCache
  with_reducible repeat' (first
    | assumption | fail_if_no_progress refine Keeps.mk' ?_ rfl rfl)

theorem State.ringStart_keeps {s0 : State} {x1 : State} (x2 : Nat) (hx1 : Keeps s0 x1) :
    KP s0 (State.ringStart x1 x2) := by
  unfold State.ringStart
  with_reducible repeat' (first
    | assumption | apply State.useIndex_keeps | apply State.setRing_keeps | apply State.touchCache_keeps | apply KP.ite)

theorem State.dupCompletion_keeps {s0 : State} {x1 : State} (hx1 : Keeps s0 x1) :
    Keeps s0 (State.dupCompletion x1) := by
  unfold State.dupCompletion
  with_reducible repeat' (first
    | assumption | apply State.postRated_keeps | apply State.inc_keeps)

theorem State.hostWrite_keeps {s0 : State} {x1 : State} (x2 : Nat) (x3 : Nat) (x4 : List Nat) (hx1 : Keeps s0 x1) :
    Keeps s0 (State.hostWrite x1 x2 x3 x4) := by
  unfold State.hostWrite
  with_reducible repeat' (first
    | assumption | apply State.dmaWrite_keeps | apply Keeps.ite | fail_if_no_progress refine Keeps.mk' ?_ rfl rfl)

theorem State.dropRequests_keeps {s0 : State} {x1 : State} (x2 : Nat) (hx1 : Keeps s0 x1) :
    Keeps s0 (State.dropRequests x1 x2) := by
  unfold State.dropRequests
  with_reducible repeat' (first
    | assumption | fail_if_no_progress refine Keeps.mk' ?_ rfl rfl)

theorem State.setVec_keeps {s0 : State} {x1 : State} (x2 : Nat) (x3 : Sys2Proof.Machine.Vec) (hx1 : Keeps s0 x1) :
    Keeps s0 (State.setVec x1 x2 x3) := by
  unfold State.setVec
  with_reducible repeat' (first
    | assumption | fail_if_no_progress refine Keeps.mk' ?_ rfl rfl)

theorem State.raiseVec_keeps {s0 : State} {x1 : State} (x2 : Nat) (hx1 : Keeps s0 x1) :
    Keeps s0 (State.raiseVec x1 x2) := by
  unfold State.raiseVec
  with_reducible repeat' (first
    | assumption | apply State.setVec_keeps)

theorem State.raiseRing_keeps {s0 : State} {x1 : State} (x2 : Nat) (hx1 : Keeps s0 x1) :
    Keeps s0 (State.raiseRing x1 x2) := by
  unfold State.raiseRing
  with_reducible repeat' (first
    | assumption | apply State.raiseVec_keeps | apply State.setRing_keeps | apply Keeps.ite)

theorem State.writeCpl_keeps {s0 : State} {x1 : State} (x2 : Nat) (x3 : Sys2Proof.Machine.Taken) (x4 : Sys2Proof.Machine.Cpl) (hx1 : Keeps s0 x1) :
    Keeps s0 (State.writeCpl x1 x2 x3 x4) := by
  unfold State.writeCpl
  with_reducible repeat' (first
    | assumption | apply State.hostWrite_keeps | apply State.inc_keeps | apply State.dropRequests_keeps | apply State.setRing_keeps
    | apply State.raiseRing_keeps | apply Keeps.ite)

theorem State.endTaken_keeps {s0 : State} {x1 : State} (x2 : Nat) (x3 : Sys2Proof.Machine.Taken) (x4 : Sys2Proof.Machine.Cpl) (hx1 : Keeps s0 x1) :
    Keeps s0 (State.endTaken x1 x2 x3 x4) := by
  unfold State.endTaken
  with_reducible repeat' (first
    | assumption | apply State.writeCpl_keeps | apply State.setRing_keeps | apply Keeps.ite
    | fail_if_no_progress refine Keeps.mk' ?_ rfl rfl)

theorem State.stopReached_keeps {s0 : State} {x1 : State} (x2 : Nat) (hx1 : Keeps s0 x1) :
    Keeps s0 (State.stopReached x1 x2) := by
  unfold State.stopReached
  with_reducible repeat' (first
    | assumption | apply State.endTaken_keeps | apply Keeps.ite | split)

theorem State.finish_keeps {s0 : State} {x1 : State} (x2 : Nat) (x3 : Sys2Proof.Machine.Cpl) (hx1 : Keeps s0 x1) :
    Keeps s0 (State.finish x1 x2 x3) := by
  unfold State.finish
  with_reducible repeat' (first
    | assumption | apply State.dupCompletion_keeps | apply State.stopReached_keeps | apply State.endTaken_keeps | split)

theorem State.issueToken_keeps {s0 : State} {x1 : State} (x2 : Sys2Proof.Machine.Taken) (x3 : Nat) (hx1 : Keeps s0 x1) :
    KP s0 (State.issueToken x1 x2 x3) := by
  unfold State.issueToken
  with_reducible repeat' (first
    | assumption | fail_if_no_progress refine Keeps.mk' ?_ rfl rfl)

theorem State.finishTok_keeps {s0 : State} {x1 : State} (x2 : Nat) (x3 : Sys2Proof.Machine.Status) (x4 : Nat) (x5 : Nat) (x6 : Nat) (hx1 : Keeps s0 x1) :
    Keeps s0 (State.finishTok x1 x2 x3 x4 x5 x6) := by
  unfold State.finishTok
  with_reducible repeat' (first
    | assumption | apply State.finish_keeps | apply State.issueToken_keeps | apply Keeps.ite | dsimp only | split)

theorem State.endByStop_keeps {s0 : State} {x1 : State} (x2 : Nat) (hx1 : Keeps s0 x1) :
    Keeps s0 (State.endByStop x1 x2) := by
  unfold State.endByStop
  with_reducible repeat' (first
    | assumption | apply State.finishTok_keeps | apply Keeps.ite | split)

theorem State.unstick_keeps {s0 : State} {x1 : State} (x2 : Nat) (hx1 : Keeps s0 x1) :
    Keeps s0 (State.unstick x1 x2) := by
  unfold State.unstick
  with_reducible repeat' (first
    | assumption | apply State.setRing_keeps | fail_if_no_progress refine Keeps.mk' ?_ rfl rfl | dsimp only | split)

theorem State.endBuffer_keeps {s0 : State} {x1 : State} (x2 : Nat) (x3 : Sys2Proof.Machine.Taken) (x4 : Sys2Proof.Machine.Status) (x5 : Nat) (x6 : Nat) (hx1 : Keeps s0 x1) :
    Keeps s0 (State.endBuffer x1 x2 x3 x4 x5 x6) := by
  unfold State.endBuffer
  with_reducible repeat' (first
    | assumption | apply State.issueToken_keeps | apply State.writeCpl_keeps)

theorem State.endBuffers_keeps {s0 : State} {x1 : State} (x2 : Nat) (hx1 : Keeps s0 x1) :
    Keeps s0 (State.endBuffers x1 x2) := by
  unfold State.endBuffers
  with_reducible repeat' (first
    | assumption | apply State.unstick_keeps | apply State.setRing_keeps | apply State.endBuffer_keeps | apply Keeps.ite
    | refine Keeps.foldl ?_ _ ?_ | (intro _; intros))

theorem State.ringInvalidate_keeps {s0 : State} {x1 : State} (x2 : Nat) (hx1 : Keeps s0 x1) :
    KP s0 (State.ringInvalidate x1 x2) := by
  unfold State.ringInvalidate
  with_reducible repeat' (first
    | assumption | apply State.dropRequests_keeps | apply State.endBuffers_keeps | apply State.endByStop_keeps | apply State.setRing_keeps
    | apply KP.ite | fail_if_no_progress refine Keeps.mk' ?_ rfl rfl)

theorem State.finDone_keeps {s0 : State} {x1 : State} (x2 : Nat) (hx1 : Keeps s0 x1) :
    Keeps s0 (State.finDone x1 x2) := by
  unfold State.finDone
  with_reducible repeat' (first
    | assumption | apply State.finish_keeps)

theorem State.flushHeld_keeps {s0 : State} {x1 : State} (hx1 : Keeps s0 x1) :
    Keeps s0 (State.flushHeld x1) := by
  unfold State.flushHeld
  with_reducible repeat' (first
    | assumption | apply State.dmaWrite_keeps | apply Keeps.ite | refine Keeps.foldl ?_ _ ?_ | (intro _; intros)
    | fail_if_no_progress refine Keeps.mk' ?_ rfl rfl)

theorem State.rearm_keeps {s0 : State} {x1 : State} (x2 : Nat) (hx1 : Keeps s0 x1) :
    Keeps s0 (State.rearm x1 x2) := by
  unfold State.rearm
  with_reducible repeat' (first
    | assumption | apply State.raiseVec_keeps | apply State.setRing_keeps | apply Keeps.ite)

theorem State.updTaken_keeps {s0 : State} {x1 : State} (x2 : Nat) (x3 : Sys2Proof.Machine.Taken → Sys2Proof.Machine.Taken) (hx1 : Keeps s0 x1) :
    Keeps s0 (State.updTaken x1 x2 x3) := by
  unfold State.updTaken
  with_reducible repeat' (first
    | assumption | apply State.setRing_keeps)

theorem State.finRefused_keeps {s0 : State} {x1 : State} (x2 : Nat) (x3 : Nat) (hx1 : Keeps s0 x1) :
    Keeps s0 (State.finRefused x1 x2 x3) := by
  unfold State.finRefused
  with_reducible repeat' (first
    | assumption | apply State.finish_keeps)

theorem State.finBusy_keeps {s0 : State} {x1 : State} (x2 : Nat) (x3 : Nat) (hx1 : Keeps s0 x1) :
    Keeps s0 (State.finBusy x1 x2 x3) := by
  unfold State.finBusy
  with_reducible repeat' (first
    | assumption | apply State.finish_keeps)

theorem State.finData_keeps {s0 : State} {x1 : State} (x2 : Nat) (x3 : Nat) (x4 : List Nat) (hx1 : Keeps s0 x1) :
    Keeps s0 (State.finData x1 x2 x3 x4) := by
  unfold State.finData
  with_reducible repeat' (first
    | assumption | apply State.finish_keeps)

theorem State.stepEntry_keeps {s0 : State} {x1 : State} (x2 : Nat) (hx1 : Keeps s0 x1) :
    Keeps s0 (State.stepEntry x1 x2) := by
  unfold State.stepEntry
  with_reducible repeat' (first
    | assumption | apply State.updTaken_keeps)

theorem bulkRun_keeps {s0 : State} (x1 : Nat) (x2 : Nat) (x3 : Nat → Sys2Proof.Machine.State → Sys2Proof.Machine.Entry) (x4 : Nat) {x5 : State} (hx5 : Keeps s0 x5) (hx3 : ∀ t0 t1, Keeps s0 t1 → KE s0 (x3 t0 t1)) :
    Keeps s0 (bulkRun x1 x2 x3 x4 x5) := by
  induction x4 generalizing x5 with
  | zero => unfold bulkRun; with_reducible repeat' (first
    | assumption)
  | succ n ih =>
    unfold bulkRun
    with_reducible repeat' (first
    | assumption | apply ih | apply hx3 | apply State.finish_keeps | apply State.finishTok_keeps | apply State.stepEntry_keeps
    | apply Keeps.ite | refine Keeps.ofStop ?_ (by assumption) | refine Keeps.ofGo ?_ (by assumption) | dsimp only | split)

theorem State.ringStop_keeps {s0 : State} {x1 : State} (x2 : Nat) (hx1 : Keeps s0 x1) :
    KP s0 (State.ringStop x1 x2) := by
  unfold State.ringStop
  with_reducible repeat' (first
    | assumption | apply State.setRing_keeps | apply State.endByStop_keeps | apply State.endBuffers_keeps | apply KP.ite | dsimp only
    | split)

theorem State.startHeld_keeps {s0 : State} {x1 : State} (hx1 : Keeps s0 x1) :
    Keeps s0 (State.startHeld x1) := by
  unfold State.startHeld
  with_reducible repeat' (first
    | assumption | apply State.ringStart_keeps | apply State.wr_keeps | apply Keeps.ite | fail_if_no_progress refine Keeps.mk' ?_ rfl rfl
    | dsimp only | split)

theorem State.sendRequests_keeps {s0 : State} (x1 : Nat) {x2 : State} (hx2 : Keeps s0 x2) :
    Keeps s0 (State.sendRequests x1 x2) := by
  revert hx2
  fun_induction State.sendRequests x1 x2 <;> (intros; with_reducible repeat' (first
    | assumption | apply_assumption | apply State.inc_keeps | fail_if_no_progress refine Keeps.mk' ?_ rfl rfl))

theorem State.dmaBack_keeps {s0 : State} {x1 : State} (hx1 : Keeps s0 x1) :
    Keeps s0 (State.dmaBack x1) := by
  unfold State.dmaBack
  with_reducible repeat' (first
    | assumption | apply State.startHeld_keeps | apply State.flushHeld_keeps | apply State.sendRequests_keeps)

theorem execPcieLinkTrained_keeps {s0 : State} (x1 : Nat) (x2 : Nat) (x3 : Bool) {x4 : State} (hx4 : Keeps s0 x4) :
    KO s0 (execPcieLinkTrained x1 x2 x3 x4) := by
  unfold execPcieLinkTrained
  with_reducible repeat' (first
    | assumption | apply State.wr_keeps | apply State.wrBit_keeps | apply State.dmaBack_keeps | apply State.post_keeps | apply Keeps.ite
    | apply KO.next | fail_if_no_progress refine Keeps.mk' ?_ rfl rfl)

theorem execPcieLinkDown_keeps {s0 : State} (x1 : Bool) {x2 : State} (hx2 : Keeps s0 x2) :
    KO s0 (execPcieLinkDown x1 x2) := by
  unfold execPcieLinkDown
  with_reducible repeat' (first
    | assumption | apply State.wr_keeps | apply KO.ite | apply KO.next | fail_if_no_progress refine Keeps.mk' ?_ rfl rfl)

theorem State.bellRead_keeps {s0 : State} {x1 : State} (x2 : Nat) (x3 : Nat) (hx1 : Keeps s0 x1) :
    Keeps s0 (State.bellRead x1 x2 x3) := by
  unfold State.bellRead
  with_reducible repeat' (first
    | assumption | apply State.fresh_keeps | apply Keeps.ite | fail_if_no_progress refine Keeps.mk' ?_ rfl rfl)

theorem State.tryUnpark_keeps {s0 : State} {x1 : State} (x2 : Nat) (hx1 : Keeps s0 x1) :
    Keeps s0 (State.tryUnpark x1 x2) := by
  unfold State.tryUnpark
  with_reducible repeat' (first
    | assumption | apply State.setRing_keeps | apply Keeps.ite | dsimp only | split)

theorem State.bellTaken_keeps {s0 : State} {x1 : State} (x2 : Nat) (x3 : Nat) (x4 : Bool) (hx1 : Keeps s0 x1) :
    Keeps s0 (State.bellTaken x1 x2 x3 x4) := by
  unfold State.bellTaken
  with_reducible repeat' (first
    | assumption | apply State.setRing_keeps | apply State.tryUnpark_keeps | apply State.ringError_keeps | apply State.rearm_keeps
    | apply Keeps.ite)

theorem execDoorbell_keeps {s0 : State} (x1 : Nat) (x2 : Nat) (x3 : Nat) (x4 : Bool) (x5 : Nat) {x6 : State} (hx6 : Keeps s0 x6) :
    KO s0 (execDoorbell x1 x2 x3 x4 x5 x6) := by
  unfold execDoorbell
  with_reducible repeat' (first
    | assumption | apply State.bellRead_keeps | apply State.inc_keeps | apply State.bellTaken_keeps | apply KO.ite | apply KO.next)

theorem execDescriptorFetch_keeps {s0 : State} (x1 : Nat) (x2 : Bool) {x3 : State} (hx3 : Keeps s0 x3) :
    KO s0 (execDescriptorFetch x1 x2 x3) := by
  unfold execDescriptorFetch
  with_reducible repeat' (first
    | assumption | apply State.setRing_keeps | apply State.ringError_keeps | apply KO.ite | apply KO.next)

theorem State.takeFrom_keeps {s0 : State} {x1 : State} (x2 : Nat) (hx1 : Keeps s0 x1) :
    Keeps s0 (State.takeFrom x1 x2) := by
  unfold State.takeFrom
  with_reducible repeat' (first
    | assumption | apply State.touchCache_keeps | apply State.setRing_keeps | apply State.seatInput_keeps | apply State.finRefused_keeps
    | apply State.finish_keeps | apply State.updTaken_keeps | apply Keeps.ite | split)

theorem State.runPick_keeps {s0 : State} {x1 : State} (x2 : Sys2Proof.Machine.Pick) (hx1 : Keeps s0 x1) :
    Keeps s0 (State.runPick x1 x2) := by
  unfold State.runPick
  with_reducible repeat' (first
    | assumption | apply State.updTaken_keeps | apply State.takeFrom_keeps | fail_if_no_progress refine Keeps.mk' ?_ rfl rfl | dsimp only
    | split)

theorem execDescriptorTake_keeps {s0 : State} {x1 : State} (hx1 : Keeps s0 x1) :
    KO s0 (execDescriptorTake x1) := by
  unfold execDescriptorTake
  with_reducible repeat' (first
    | assumption | apply State.runPick_keeps | apply State.inc_keeps | apply State.finishTok_keeps | apply State.updTaken_keeps
    | apply KO.ite | apply KO.next | fail_if_no_progress refine Keeps.mk' ?_ rfl rfl | dsimp only | split)

theorem execRingWriteback_keeps {s0 : State} (x1 : Nat) {x2 : State} (hx2 : Keeps s0 x2) :
    KO s0 (execRingWriteback x1 x2) := by
  unfold execRingWriteback
  with_reducible repeat' (first
    | assumption | apply State.setRing_keeps | apply State.dmaWrite_keeps | apply KO.ite | apply KO.next)

theorem State.setBuffers_keeps {s0 : State} {x1 : State} (x2 : Nat) (x3 : List Sys2Proof.Machine.Taken) (hx1 : Keeps s0 x1) :
    Keeps s0 (State.setBuffers x1 x2 x3) := by
  unfold State.setBuffers
  with_reducible repeat' (first
    | assumption | apply State.setRing_keeps)

theorem execTtlExpire_keeps {s0 : State} (x1 : Nat) {x2 : State} (hx2 : Keeps s0 x2) :
    KO s0 (execTtlExpire x1 x2) := by
  unfold execTtlExpire
  with_reducible repeat' (first
    | assumption | apply State.setBuffers_keeps | apply State.unstick_keeps | apply State.endBuffer_keeps | apply State.finishTok_keeps
    | apply Keeps.ite | apply KO.ite | apply KO.next | dsimp only | split)

theorem execRingStall_keeps {s0 : State} (x1 : Nat) {x2 : State} (hx2 : Keeps s0 x2) :
    KO s0 (execRingStall x1 x2) := by
  unfold execRingStall
  with_reducible repeat' (first
    | assumption | apply State.setRing_keeps | apply State.post_keeps | apply KO.ite | apply KO.next)

theorem State.takeForFault_keeps {s0 : State} {x1 : State} (x2 : Nat) (hx1 : Keeps s0 x1) :
    Keeps s0 (State.takeForFault x1 x2) := by
  unfold State.takeForFault
  with_reducible repeat' (first
    | assumption | apply State.takeFrom_keeps | apply Keeps.ite)

theorem execDmaTimeout_keeps {s0 : State} (x1 : Nat) (x2 : Nat) (x3 : Bool) {x4 : State} (hx4 : Keeps s0 x4) :
    KO s0 (execDmaTimeout x1 x2 x3 x4) := by
  unfold execDmaTimeout
  with_reducible repeat' (first
    | assumption | apply State.takeForFault_keeps | apply State.wr_keeps | apply State.finishTok_keeps | apply Keeps.ite | apply KO.ite
    | apply KO.next | dsimp only | split)

theorem State.parkRing_keeps {s0 : State} {x1 : State} (x2 : Nat) (hx1 : Keeps s0 x1) :
    Keeps s0 (State.parkRing x1 x2) := by
  unfold State.parkRing
  with_reducible repeat' (first
    | assumption | apply State.setRing_keeps)

theorem State.pageRequest_keeps {s0 : State} {x1 : State} (x2 : Nat) (x3 : Nat) (hx1 : Keeps s0 x1) :
    Keeps s0 (State.pageRequest x1 x2 x3) := by
  unfold State.pageRequest
  with_reducible repeat' (first
    | assumption | apply State.sendRequests_keeps | fail_if_no_progress refine Keeps.mk' ?_ rfl rfl)

theorem State.faultTaken_keeps {s0 : State} {x1 : State} (x2 : Nat) (x3 : Nat) (x4 : Sys2Proof.Machine.Taken) (hx1 : Keeps s0 x1) :
    Keeps s0 (State.faultTaken x1 x2 x3 x4) := by
  unfold State.faultTaken
  with_reducible repeat' (first
    | assumption | apply State.wr_keeps | apply State.finishTok_keeps | apply State.parkRing_keeps | apply State.pageRequest_keeps
    | apply State.updTaken_keeps | apply State.endByStop_keeps | apply Keeps.ite | fail_if_no_progress refine Keeps.mk' ?_ rfl rfl)

theorem State.faultBuffer_keeps {s0 : State} {x1 : State} (x2 : Nat) (x3 : Nat) (x4 : Sys2Proof.Machine.Taken) (x5 : List Sys2Proof.Machine.Taken) (hx1 : Keeps s0 x1) :
    Keeps s0 (State.faultBuffer x1 x2 x3 x4 x5) := by
  unfold State.faultBuffer
  with_reducible repeat' (first
    | assumption | apply State.endBuffer_keeps | apply State.setBuffers_keeps | apply State.unstick_keeps | apply State.pageRequest_keeps
    | apply State.parkRing_keeps | apply State.setRing_keeps | apply Keeps.ite | fail_if_no_progress refine Keeps.mk' ?_ rfl rfl)

theorem execTranslationFault_keeps {s0 : State} (x1 : Nat) (x2 : Nat) {x3 : State} (hx3 : Keeps s0 x3) :
    KO s0 (execTranslationFault x1 x2 x3) := by
  unfold execTranslationFault
  with_reducible repeat' (first
    | assumption | apply State.takeForFault_keeps | apply State.faultTaken_keeps | apply State.faultBuffer_keeps
    | apply State.pageRequest_keeps | apply State.parkRing_keeps | apply State.setRing_keeps | apply KO.ite | apply KO.next | dsimp only
    | split)

theorem State.requestDone_keeps {s0 : State} {x1 : State} (x2 : Nat) (hx1 : Keeps s0 x1) :
    Keeps s0 (State.requestDone x1 x2) := by
  unfold State.requestDone
  with_reducible repeat' (first
    | assumption | apply State.sendRequests_keeps | fail_if_no_progress refine Keeps.mk' ?_ rfl rfl)

theorem State.endParked_keeps {s0 : State} {x1 : State} (x2 : Nat) (x3 : Nat) (hx1 : Keeps s0 x1) :
    Keeps s0 (State.endParked x1 x2 x3) := by
  unfold State.endParked
  with_reducible repeat' (first
    | assumption | apply State.finishTok_keeps | apply State.endBuffer_keeps | apply State.setBuffers_keeps | apply State.unstick_keeps
    | apply Keeps.ite | split)

theorem execPageResponse_keeps {s0 : State} (x1 : Nat) (x2 : Bool) {x3 : State} (hx3 : Keeps s0 x3) :
    KO s0 (execPageResponse x1 x2 x3) := by
  unfold execPageResponse
  with_reducible repeat' (first
    | assumption | apply State.requestDone_keeps | apply State.tryUnpark_keeps | apply State.setRing_keeps | apply State.endParked_keeps
    | apply KO.ite | apply KO.next | dsimp only | split)

theorem execParkTimeout_keeps {s0 : State} (x1 : Nat) {x2 : State} (hx2 : Keeps s0 x2) :
    KO s0 (execParkTimeout x1 x2) := by
  unfold execParkTimeout
  with_reducible repeat' (first
    | assumption | apply State.endParked_keeps | apply Keeps.ite | apply KO.next | split)

theorem State.putRecord_keeps {s0 : State} {x1 : State} (x2 : Nat) (x3 : Nat) (x4 : Nat) (x5 : Nat) (x6 : Nat) (x7 : Nat) (x8 : List Nat) (x9 : List (List Nat)) (hx1 : Keeps s0 x1) :
    Keeps s0 (State.putRecord x1 x2 x3 x4 x5 x6 x7 x8 x9) := by
  unfold State.putRecord
  with_reducible repeat' (first
    | assumption | apply State.hostWrite_keeps | apply State.raiseRing_keeps | apply State.setRing_keeps | refine Keeps.foldl ?_ _ ?_
    | (intro _; intros))

theorem State.writeRecord_keeps {s0 : State} {x1 : State} (x2 : Nat) (x3 : Nat) (x4 : Nat) (x5 : Nat) (x6 : Nat) (x7 : List Nat) (x8 : List (List Nat)) (hx1 : Keeps s0 x1) :
    KP s0 (State.writeRecord x1 x2 x3 x4 x5 x6 x7 x8) := by
  unfold State.writeRecord
  with_reducible repeat' (first
    | assumption | apply State.putRecord_keeps | apply KP.ite)

theorem State.writeLost_keeps {s0 : State} {x1 : State} (x2 : Nat) (hx1 : Keeps s0 x1) :
    Keeps s0 (State.writeLost x1 x2) := by
  unfold State.writeLost
  with_reducible repeat' (first
    | assumption | apply State.writeRecord_keeps | apply Keeps.ite | fail_if_no_progress refine Keeps.mk' ?_ rfl rfl)

theorem execEventWrite_keeps {s0 : State} (x1 : Nat) {x2 : State} (hx2 : Keeps s0 x2) :
    KO s0 (execEventWrite x1 x2) := by
  unfold execEventWrite
  with_reducible repeat' (first
    | assumption | apply State.writeLost_keeps | apply State.writeRecord_keeps | apply Keeps.ite | apply KO.ite | apply KO.next
    | fail_if_no_progress refine Keeps.mk' ?_ rfl rfl | dsimp only | split)

theorem execMsixMessage_keeps {s0 : State} (x1 : Nat) {x2 : State} (hx2 : Keeps s0 x2) :
    KO s0 (execMsixMessage x1 x2) := by
  unfold execMsixMessage
  with_reducible repeat' (first
    | assumption | apply State.setVec_keeps | apply State.hostWrite_keeps | apply KO.ite | apply KO.next)

theorem execNopDescriptor_keeps {s0 : State} (x1 : Nat) {x2 : State} (hx2 : Keeps s0 x2) :
    KO s0 (execNopDescriptor x1 x2) := by
  unfold execNopDescriptor
  with_reducible repeat' (first
    | assumption | apply State.finDone_keeps | apply State.takeFrom_keeps | apply Keeps.ite | apply KO.ite | apply KO.next | split)

theorem State.ringOp_keeps {s0 : State} {x1 : State} (x2 : Nat) (x3 : Sys2Proof.Machine.State → Nat → Nat → Sys2Proof.Machine.State) (hx1 : Keeps s0 x1) (hx3 : ∀ t0 t1 t2, Keeps s0 t0 → Keeps s0 (x3 t0 t1 t2)) :
    Keeps s0 (State.ringOp x1 x2 x3) := by
  unfold State.ringOp
  with_reducible repeat' (first
    | assumption | apply hx3 | apply State.finRefused_keeps | apply Keeps.ite | dsimp only | split)

theorem execRingStart_keeps {s0 : State} {x1 : State} (hx1 : Keeps s0 x1) :
    KO s0 (execRingStart x1) := by
  unfold execRingStart
  with_reducible repeat' (first
    | assumption | apply State.ringOp_keeps | apply State.ringStart_keeps | apply State.finDone_keeps | apply State.finRefused_keeps
    | apply Keeps.ite | apply KO.next | (intro _; intros) | fail_if_no_progress refine Keeps.mk' ?_ rfl rfl)

theorem execRingStop_keeps {s0 : State} {x1 : State} (hx1 : Keeps s0 x1) :
    KO s0 (execRingStop x1) := by
  unfold execRingStop
  with_reducible repeat' (first
    | assumption | apply State.ringOp_keeps | apply State.ringStop_keeps | apply State.finRefused_keeps | apply State.finDone_keeps
    | apply State.updTaken_keeps | apply Keeps.ite | apply KO.next | (intro _; intros))

theorem execRctInvalidate_keeps {s0 : State} {x1 : State} (hx1 : Keeps s0 x1) :
    KO s0 (execRctInvalidate x1) := by
  unfold execRctInvalidate
  with_reducible repeat' (first
    | assumption | apply State.ringOp_keeps | apply State.ringInvalidate_keeps | apply State.finDone_keeps | apply State.finRefused_keeps
    | apply Keeps.ite | apply KO.next | (intro _; intros))

theorem execBusMasteringRestored_keeps {s0 : State} (x1 : Nat) (x2 : Nat) {x3 : State} (hx3 : Keeps s0 x3) :
    KO s0 (execBusMasteringRestored x1 x2 x3) := by
  unfold execBusMasteringRestored
  with_reducible repeat' (first
    | assumption | apply State.dmaBack_keeps | apply KO.next | fail_if_no_progress refine Keeps.mk' ?_ rfl rfl)

theorem State.setModul_keeps {s0 : State} {x1 : State} (x2 : Nat) (x3 : Sys2Proof.Machine.ModState) (hx1 : Keeps s0 x1) :
    Keeps s0 (State.setModul x1 x2 x3) := by
  unfold State.setModul
  with_reducible repeat' (first
    | assumption | fail_if_no_progress refine Keeps.mk' ?_ rfl rfl)

theorem State.sbPut_keeps {s0 : State} {x1 : State} (x2 : Sys2Proof.Machine.SbMsg) (hx1 : Keeps s0 x1) :
    Keeps s0 (State.sbPut x1 x2) := by
  unfold State.sbPut
  with_reducible repeat' (first
    | assumption | apply Keeps.ite | fail_if_no_progress refine Keeps.mk' ?_ rfl rfl)

theorem State.sendFlit_keeps {s0 : State} {x1 : State} (x2 : Bool) (hx1 : Keeps s0 x1) :
    KM s0 (State.sendFlit x1 x2) := by
  unfold State.sendFlit
  with_reducible repeat' (first
    | assumption | apply State.putFlit_keeps | apply State.setDir_keeps | apply KM.ite | apply KM.some | apply KM.none | split)

theorem State.setEntryQ_keeps {s0 : State} {x1 : State} (x2 : Nat) (x3 : List Sys2Proof.Machine.Packet) (hx1 : Keeps s0 x1) :
    Keeps s0 (State.setEntryQ x1 x2 x3) := by
  unfold State.setEntryQ
  with_reducible repeat' (first
    | assumption | fail_if_no_progress refine Keeps.mk' ?_ rfl rfl)

theorem State.takeEntry_keeps {s0 : State} {x1 : State} (hx1 : Keeps s0 x1) :
    KM s0 (State.takeEntry x1) := by
  unfold State.takeEntry
  with_reducible repeat' (first
    | assumption | apply State.setEntryQ_keeps | apply State.setDir_keeps | apply KM.some | apply KM.none
    | fail_if_no_progress refine Keeps.mk' ?_ rfl rfl | dsimp only | split)

theorem State.pump_keeps {s0 : State} (x1 : Bool) (x2 : Nat) {x3 : State} (hx3 : Keeps s0 x3) :
    Keeps s0 (State.pump x1 x2 x3) := by
  revert hx3
  fun_induction State.pump x1 x2 x3 <;> (intros; with_reducible repeat' (first
    | assumption | apply_assumption | apply State.sendFlit_keeps | apply State.takeEntry_keeps | refine Keeps.ofSome ?_ (by assumption)))

theorem State.run_keeps {s0 : State} {x1 : State} (x2 : Bool) (hx1 : Keeps s0 x1) :
    Keeps s0 (State.run x1 x2) := by
  unfold State.run
  with_reducible repeat' (first
    | assumption | apply State.pump_keeps)

theorem State.degradeCheck_keeps {s0 : State} {x1 : State} (hx1 : Keeps s0 x1) :
    Keeps s0 (State.degradeCheck x1) := by
  unfold State.degradeCheck
  with_reducible repeat' (first
    | assumption | apply State.post_keeps | apply Keeps.ite | fail_if_no_progress refine Keeps.mk' ?_ rfl rfl)

theorem State.countModules_keeps {s0 : State} {x1 : State} (hx1 : Keeps s0 x1) :
    Keeps s0 (State.countModules x1) := by
  unfold State.countModules
  with_reducible repeat' (first
    | assumption | apply State.wr_keeps | apply State.degradeCheck_keeps | apply Keeps.ite)

theorem State.replayLost_keeps {s0 : State} {x1 : State} (x2 : Bool) (hx1 : Keeps s0 x1) :
    Keeps s0 (State.replayLost x1 x2) := by
  unfold State.replayLost
  with_reducible repeat' (first
    | assumption | apply State.setDir_keeps | apply State.addSat_keeps | apply Keeps.ite)

theorem State.modulesChanged_keeps {s0 : State} {x1 : State} (hx1 : Keeps s0 x1) :
    Keeps s0 (State.modulesChanged x1) := by
  unfold State.modulesChanged
  with_reducible repeat' (first
    | assumption | apply State.run_keeps | apply State.countModules_keeps | apply State.replayLost_keeps)

theorem State.moduleOut_keeps {s0 : State} {x1 : State} (x2 : Nat) (x3 : Nat) (hx1 : Keeps s0 x1) :
    Keeps s0 (State.moduleOut x1 x2 x3) := by
  unfold State.moduleOut
  with_reducible repeat' (first
    | assumption | apply State.modulesChanged_keeps | apply State.wr_keeps)

theorem State.moduleLost_keeps {s0 : State} {x1 : State} (x2 : Nat) (x3 : Nat) (hx1 : Keeps s0 x1) :
    Keeps s0 (State.moduleLost x1 x2 x3) := by
  unfold State.moduleLost
  with_reducible repeat' (first
    | assumption | apply State.moduleOut_keeps | apply State.postModule_keeps | apply State.wr_keeps)

theorem State.laneFail_keeps {s0 : State} {x1 : State} (x2 : Bool) (x3 : Nat) (x4 : Nat) (hx1 : Keeps s0 x1) :
    Keeps s0 (State.laneFail x1 x2 x3 x4) := by
  unfold State.laneFail
  with_reducible repeat' (first
    | assumption | apply State.inc_keeps | apply State.setDir_keeps | apply State.moduleOut_keeps | apply State.setModul_keeps
    | apply State.moduleLost_keeps | apply Keeps.ite)

theorem State.flitSeen_keeps {s0 : State} {x1 : State} (x2 : Bool) (x3 : Nat) (hx1 : Keeps s0 x1) :
    Keeps s0 (State.flitSeen x1 x2 x3) := by
  unfold State.flitSeen
  with_reducible repeat' (first
    | assumption | apply State.setDir_keeps | apply State.laneFail_keeps | apply Keeps.ite | refine Keeps.foldl ?_ _ ?_
    | (intro _; intros))

theorem State.laneCrc_keeps {s0 : State} {x1 : State} (x2 : Bool) (x3 : Nat) (x4 : Nat) (hx1 : Keeps s0 x1) :
    Keeps s0 (State.laneCrc x1 x2 x3 x4) := by
  unfold State.laneCrc
  with_reducible repeat' (first
    | assumption | apply State.setDir_keeps)

theorem State.flitIn_keeps {s0 : State} {x1 : State} (x2 : Bool) (x3 : Nat) (x4 : Option Nat) (hx1 : Keeps s0 x1) :
    KF s0 (State.flitIn x1 x2 x3 x4) := by
  unfold State.flitIn
  with_reducible repeat' (first
    | assumption | apply State.setDir_keeps | apply State.flitSeen_keeps | apply State.laneCrc_keeps | apply Keeps.ite | dsimp only
    | split)

theorem execFlitAck_keeps {s0 : State} (x1 : Bool) (x2 : Nat) {x3 : State} (hx3 : Keeps s0 x3) :
    KO s0 (execFlitAck x1 x2 x3) := by
  unfold execFlitAck
  with_reducible repeat' (first
    | assumption | apply State.run_keeps | apply State.setDir_keeps | apply KO.ite | apply KO.next | dsimp only | split)

theorem execControlShareWindow_keeps {s0 : State} {x1 : State} (hx1 : Keeps s0 x1) :
    KO s0 (execControlShareWindow x1) := by
  unfold execControlShareWindow
  with_reducible repeat' (first
    | assumption | apply State.setDir_keeps | apply State.run_keeps | apply KO.ite | apply KO.next)

theorem execBridgeLaneLockLoss_keeps {s0 : State} (x1 : Bool) (x2 : Nat) (x3 : Nat) {x4 : State} (hx4 : Keeps s0 x4) :
    KO s0 (execBridgeLaneLockLoss x1 x2 x3 x4) := by
  unfold execBridgeLaneLockLoss
  with_reducible repeat' (first
    | assumption | apply State.laneFail_keeps | apply KO.ite | apply KO.next)

theorem State.mapSpare_keeps {s0 : State} {x1 : State} (x2 : Nat) (x3 : Nat × Nat) (hx1 : Keeps s0 x1) :
    Keeps s0 (State.mapSpare x1 x2 x3) := by
  unfold State.mapSpare
  with_reducible repeat' (first
    | assumption | apply State.postModule_keeps | apply State.addSat_keeps)

theorem execModuleRepairDone_keeps {s0 : State} (x1 : Nat) (x2 : Bool) {x3 : State} (hx3 : Keeps s0 x3) :
    KO s0 (execModuleRepairDone x1 x2 x3) := by
  unfold execModuleRepairDone
  with_reducible repeat' (first
    | assumption | apply State.setModul_keeps | apply State.modulesChanged_keeps | apply State.mapSpare_keeps | apply State.wr_keeps
    | apply State.moduleLost_keeps | apply KO.ite | apply KO.next | refine Keeps.foldl ?_ _ ?_ | (intro _; intros))

theorem State.trainEnd_keeps {s0 : State} {x1 : State} (hx1 : Keeps s0 x1) :
    Keeps s0 (State.trainEnd x1) := by
  unfold State.trainEnd
  with_reducible repeat' (first
    | assumption | apply State.wr_keeps | apply Keeps.ite)

theorem execModuleTrainingDone_keeps {s0 : State} (x1 : Nat) (x2 : Bool) {x3 : State} (hx3 : Keeps s0 x3) :
    KO s0 (execModuleTrainingDone x1 x2 x3) := by
  unfold execModuleTrainingDone
  with_reducible repeat' (first
    | assumption | apply State.trainEnd_keeps | apply State.modulesChanged_keeps | apply State.wr_keeps | apply State.setModul_keeps
    | apply State.moduleLost_keeps | apply KO.ite | apply KO.next)

theorem execSidebandHeartbeatSend_keeps {s0 : State} (x1 : Bool) {x2 : State} (hx2 : Keeps s0 x2) :
    KO s0 (execSidebandHeartbeatSend x1 x2) := by
  unfold execSidebandHeartbeatSend
  with_reducible repeat' (first
    | assumption | apply KO.ite | apply KO.next | fail_if_no_progress refine Keeps.mk' ?_ rfl rfl)

theorem State.hearBeat_keeps {s0 : State} {x1 : State} (x2 : Bool) (hx1 : Keeps s0 x1) :
    Keeps s0 (State.hearBeat x1 x2) := by
  unfold State.hearBeat
  with_reducible repeat' (first
    | assumption | apply State.wr_keeps | apply Keeps.ite | fail_if_no_progress refine Keeps.mk' ?_ rfl rfl)

theorem execSidebandLost_keeps {s0 : State} {x1 : State} (hx1 : Keeps s0 x1) :
    KO s0 (execSidebandLost x1) := by
  unfold execSidebandLost
  with_reducible repeat' (first
    | assumption | apply State.post_keeps | apply State.wr_keeps | apply KO.ite | apply KO.next
    | fail_if_no_progress refine Keeps.mk' ?_ rfl rfl)

theorem execSidebandRestored_keeps {s0 : State} {x1 : State} (hx1 : Keeps s0 x1) :
    KO s0 (execSidebandRestored x1) := by
  unfold execSidebandRestored
  with_reducible repeat' (first
    | assumption | apply State.post_keeps | apply State.wr_keeps | apply KO.ite | apply KO.next
    | fail_if_no_progress refine Keeps.mk' ?_ rfl rfl | dsimp only | split)

theorem execAuxFeedOutOfRange_keeps {s0 : State} (x1 : Bool) {x2 : State} (hx2 : Keeps s0 x2) :
    KO s0 (execAuxFeedOutOfRange x1 x2) := by
  unfold execAuxFeedOutOfRange
  with_reducible repeat' (first
    | assumption | apply State.wr_keeps | apply State.post_keeps | apply Keeps.ite | apply KO.ite | apply KO.next
    | fail_if_no_progress refine Keeps.mk' ?_ rfl rfl)

theorem State.bridgeEnter_keeps {s0 : State} {x1 : State} (x2 : Sys2Proof.Machine.Packet) (hx1 : Keeps s0 x1) :
    Keeps s0 (State.bridgeEnter x1 x2) := by
  unfold State.bridgeEnter
  with_reducible repeat' (first
    | assumption | apply State.run_keeps | apply State.setEntryQ_keeps | apply State.inc_keeps | apply Keeps.ite)

theorem State.bridgeBack_keeps {s0 : State} {x1 : State} (x2 : Sys2Proof.Machine.Packet) (hx1 : Keeps s0 x1) :
    Keeps s0 (State.bridgeBack x1 x2) := by
  unfold State.bridgeBack
  with_reducible repeat' (first
    | assumption | apply State.run_keeps | apply State.setDir_keeps)

theorem State.setCache_keeps {s0 : State} {x1 : State} (x2 : Bool) (x3 : Sys2Proof.Tbl Sys2Proof.Machine.CacheEnt) (hx1 : Keeps s0 x1) :
    Keeps s0 (State.setCache x1 x2 x3) := by
  unfold State.setCache
  with_reducible repeat' (first
    | assumption | apply Keeps.ite | fail_if_no_progress refine Keeps.mk' ?_ rfl rfl)

theorem State.cntWriteBack_keeps {s0 : State} {x1 : State} (x2 : Bool) (x3 : Nat) (hx1 : Keeps s0 x1) :
    Keeps s0 (State.cntWriteBack x1 x2 x3) := by
  unfold State.cntWriteBack
  with_reducible repeat' (first
    | assumption | apply State.setCache_keeps | apply Keeps.ite | fail_if_no_progress refine Keeps.mk' ?_ rfl rfl)

theorem State.cntClearSeg_keeps {s0 : State} {x1 : State} (x2 : Nat) (hx1 : Keeps s0 x1) :
    Keeps s0 (State.cntClearSeg x1 x2) := by
  unfold State.cntClearSeg
  with_reducible repeat' (first
    | assumption | fail_if_no_progress refine Keeps.mk' ?_ rfl rfl)

theorem State.cntCacheAdd_keeps {s0 : State} {x1 : State} (x2 : Bool) (x3 : Nat) (x4 : Nat) (x5 : Nat) (hx1 : Keeps s0 x1) :
    Keeps s0 (State.cntCacheAdd x1 x2 x3 x4 x5) := by
  unfold State.cntCacheAdd
  with_reducible repeat' (first
    | assumption | apply State.setCache_keeps)

theorem State.cntEvict_keeps {s0 : State} {x1 : State} (x2 : Bool) (x3 : Nat) (hx1 : Keeps s0 x1) :
    Keeps s0 (State.cntEvict x1 x2 x3) := by
  unfold State.cntEvict
  with_reducible repeat' (first
    | assumption | apply State.ctlNow_keeps | apply State.ctlHold_keeps | apply State.cntWriteBack_keeps | apply Keeps.ite)

theorem State.cntAdd_keeps {s0 : State} {x1 : State} (x2 : Bool) (x3 : Nat) (x4 : Nat) (x5 : Nat) (hx1 : Keeps s0 x1) :
    Keeps s0 (State.cntAdd x1 x2 x3 x4 x5) := by
  unfold State.cntAdd
  with_reducible repeat' (first
    | assumption | apply State.inc_keeps | apply State.cntCacheAdd_keeps | apply State.fresh_keeps | apply State.cntEvict_keeps
    | apply Keeps.ite | fail_if_no_progress refine Keeps.mk' ?_ rfl rfl | dsimp only | split)

theorem State.cntClear_keeps {s0 : State} {x1 : State} (x2 : Nat) (hx1 : Keeps s0 x1) :
    Keeps s0 (State.cntClear x1 x2) := by
  unfold State.cntClear
  with_reducible repeat' (first
    | assumption | fail_if_no_progress refine Keeps.mk' ?_ rfl rfl)

theorem State.syncAreas_keeps {s0 : State} {x1 : State} (hx1 : Keeps s0 x1) :
    Keeps s0 (State.syncAreas x1) := by
  unfold State.syncAreas
  with_reducible repeat' (first
    | assumption | apply State.wrBit_keeps | apply State.wr_keeps | refine Keeps.foldl ?_ _ ?_ | (intro _; intros))

theorem State.putRec_keeps {s0 : State} {x1 : State} (x2 : Sys2Proof.Machine.Record → Sys2Proof.Machine.Record) (hx1 : Keeps s0 x1) :
    Keeps s0 (State.putRec x1 x2) := by
  unfold State.putRec
  with_reducible repeat' (first
    | assumption | apply State.syncAreas_keeps | fail_if_no_progress refine Keeps.mk' ?_ rfl rfl)

theorem State.saveSetting_keeps {s0 : State} {x1 : State} (x2 : Sys2Proof.Machine.Fld) (x3 : Nat) (hx1 : Keeps s0 x1) :
    Keeps s0 (State.saveSetting x1 x2 x3) := by
  unfold State.saveSetting
  with_reducible repeat' (first
    | assumption | apply State.putRec_keeps | apply Keeps.ite)

theorem State.wrKept_keeps {s0 : State} {x1 : State} (x2 : Sys2Proof.Machine.Fld) (x3 : Nat) (hx1 : Keeps s0 x1) :
    Keeps s0 (State.wrKept x1 x2 x3) := by
  unfold State.wrKept
  with_reducible repeat' (first
    | assumption | apply State.wr_keeps | apply State.saveSetting_keeps)

theorem State.tearRec_keeps {s0 : State} {x1 : State} (hx1 : Keeps s0 x1) :
    Keeps s0 (State.tearRec x1) := by
  unfold State.tearRec
  with_reducible repeat' (first
    | assumption | apply State.syncAreas_keeps | apply Keeps.ite | fail_if_no_progress refine Keeps.mk' ?_ rfl rfl)

theorem State.saveLinks_keeps {s0 : State} {x1 : State} (hx1 : Keeps s0 x1) :
    Keeps s0 (State.saveLinks x1) := by
  unfold State.saveLinks
  with_reducible repeat' (first
    | assumption | apply State.putRec_keeps | apply Keeps.ite)

theorem State.norErase_keeps {s0 : State} {x1 : State} (x2 : Nat) (x3 : Nat) (hx1 : Keeps s0 x1) :
    Keeps s0 (State.norErase x1 x2 x3) := by
  unfold State.norErase
  with_reducible repeat' (first
    | assumption | fail_if_no_progress refine Keeps.mk' ?_ rfl rfl)

theorem State.saveDelays_keeps {s0 : State} {x1 : State} (x2 : List (Nat × Nat)) (hx1 : Keeps s0 x1) :
    Keeps s0 (State.saveDelays x1 x2) := by
  unfold State.saveDelays
  with_reducible repeat' (first
    | assumption | apply State.putRec_keeps | apply Keeps.ite)

theorem State.markArea_keeps {s0 : State} {x1 : State} (x2 : Nat) (x3 : Nat) (hx1 : Keeps s0 x1) :
    Keeps s0 (State.markArea x1 x2 x3) := by
  unfold State.markArea
  with_reducible repeat' (first
    | assumption | apply State.putRec_keeps)

theorem State.syncSeg_keeps {s0 : State} {x1 : State} (hx1 : Keeps s0 x1) :
    Keeps s0 (State.syncSeg x1) := by
  unfold State.syncSeg
  with_reducible repeat' (first
    | assumption | apply State.wr_keeps)

theorem State.endMove_keeps {s0 : State} {x1 : State} (x2 : Nat) (hx1 : Keeps s0 x1) :
    Keeps s0 (State.endMove x1 x2) := by
  unfold State.endMove
  with_reducible repeat' (first
    | assumption | fail_if_no_progress refine Keeps.mk' ?_ rfl rfl)

theorem State.loseSeg_keeps {s0 : State} {x1 : State} (x2 : Nat) (hx1 : Keeps s0 x1) :
    Keeps s0 (State.loseSeg x1 x2) := by
  unfold State.loseSeg
  with_reducible repeat' (first
    | assumption | apply State.wr_keeps | apply State.endMove_keeps | apply State.cntClearSeg_keeps | apply State.post_keeps
    | apply State.syncSeg_keeps | apply State.wrKept_keeps)

theorem State.trimHbm_keeps {s0 : State} (x1 : Nat) {x2 : State} (hx2 : Keeps s0 x2) :
    Keeps s0 (State.trimHbm x1 x2) := by
  induction x1 generalizing x2 with
  | zero => unfold State.trimHbm; with_reducible repeat' (first
    | assumption | apply State.syncSeg_keeps)
  | succ n ih =>
    unfold State.trimHbm
    with_reducible repeat' (first
    | assumption | apply ih | apply State.syncSeg_keeps | apply State.fresh_keeps | apply State.loseSeg_keeps | apply Keeps.ite
    | dsimp only | split)

theorem State.moveSeg_keeps {s0 : State} {x1 : State} (x2 : Nat) (x3 : Nat) (hx1 : Keeps s0 x1) :
    Keeps s0 (State.moveSeg x1 x2 x3) := by
  unfold State.moveSeg
  with_reducible repeat' (first
    | assumption | apply State.syncSeg_keeps | apply State.wr_keeps | apply State.wrKept_keeps
    | fail_if_no_progress refine Keeps.mk' ?_ rfl rfl)

theorem State.moveAway_keeps {s0 x1 : State} (x2 : Nat) (hx1 : Keeps s0 x1) : KM s0 (State.moveAway x1 x2) := by
  unfold State.moveAway
  refine KM.foldl (fun o k ho => ?_) _ (KM.some hx1)
  split
  · exact KM.none
  · exact KM.map fun g => State.moveSeg_keeps _ g (Keeps.ofSome ho rfl)

theorem State.writeHome_keeps {s0 : State} {x1 : State} (x2 : Nat) (x3 : Nat) (hx1 : Keeps s0 x1) :
    Keeps s0 (State.writeHome x1 x2 x3) := by
  unfold State.writeHome
  with_reducible repeat' (first
    | assumption | apply State.wr_keeps | apply State.syncSeg_keeps | apply State.wrKept_keeps | apply State.endMove_keeps
    | apply State.cntClearSeg_keeps | apply State.moveSeg_keeps | apply Keeps.ite)

theorem State.poisoned_keeps {s0 : State} {x1 : State} (x2 : Nat) (hx1 : Keeps s0 x1) :
    Keeps s0 (State.poisoned x1 x2) := by
  unfold State.poisoned
  with_reducible repeat' (first
    | assumption | apply State.inc_keeps | apply State.postRated_keeps | apply Keeps.ite
    | fail_if_no_progress refine Keeps.mk' ?_ rfl rfl)

theorem State.loseHome_keeps {s0 : State} {x1 : State} (x2 : Nat) (hx1 : Keeps s0 x1) :
    Keeps s0 (State.loseHome x1 x2) := by
  unfold State.loseHome
  with_reducible repeat' (first
    | assumption | apply State.loseSeg_keeps | refine Keeps.foldl ?_ _ ?_)

theorem execCounterWriteback_keeps {s0 : State} (x1 : Bool) (x2 : Nat) (x3 : Bool) {x4 : State} (hx4 : Keeps s0 x4) :
    KO s0 (execCounterWriteback x1 x2 x3 x4) := by
  unfold execCounterWriteback
  with_reducible repeat' (first
    | assumption | apply State.ctlNow_keeps | apply State.poisoned_keeps | apply State.cntWriteBack_keeps | apply Keeps.ite | apply KO.ite
    | apply KO.next)

theorem execSegmentMoveDone_keeps {s0 : State} (x1 : Nat) {x2 : State} (hx2 : Keeps s0 x2) :
    KO s0 (execSegmentMoveDone x1 x2) := by
  unfold execSegmentMoveDone
  with_reducible repeat' (first
    | assumption | apply State.post_keeps | apply State.wr_keeps | apply State.endMove_keeps | apply KO.ite | apply KO.next)

end Sys2Proof.Machine
end

