-- ==== Sys2Proof/Laws/KeepsEngine.lean ====
section
/-! SUPPORT. That each operation keeps what `Keeps` says: the buffer, the scheduler tree, sampling and the packet engines. -/
namespace Sys2Proof.Machine

theorem State.setLinePort_keeps {s0 : State} {x1 : State} (x2 : Nat) (x3 : Sys2Proof.Machine.LinePort) (hx1 : Keeps s0 x1) :
    Keeps s0 (State.setLinePort x1 x2 x3) := by
  unfold State.setLinePort
  with_reducible repeat' (first
    | assumption | fail_if_no_progress refine Keeps.mk' ?_ rfl rfl)

theorem State.setFree_keeps {s0 : State} {x1 : State} (x2 : Sys2Proof.Machine.Fld) (x3 : Sys2Proof.Machine.Fld) (x4 : Nat) (hx1 : Keeps s0 x1) :
    Keeps s0 (State.setFree x1 x2 x3 x4) := by
  unfold State.setFree
  with_reducible repeat' (first
    | assumption | apply State.wr_keeps)

theorem State.poolLow_keeps {s0 : State} {x1 : State} (x2 : Nat) (x3 : Nat) (x4 : Nat) (x5 : Nat) (hx1 : Keeps s0 x1) :
    Keeps s0 (State.poolLow x1 x2 x3 x4 x5) := by
  unfold State.poolLow
  with_reducible repeat' (first
    | assumption | apply State.post_keeps | apply Keeps.ite | fail_if_no_progress refine Keeps.mk' ?_ rfl rfl)

theorem State.syncFree_keeps {s0 : State} {x1 : State} (hx1 : Keeps s0 x1) :
    Keeps s0 (State.syncFree x1) := by
  unfold State.syncFree
  with_reducible repeat' (first
    | assumption | apply State.setFree_keeps | apply State.poolLow_keeps | apply Keeps.ite)

theorem State.writeBpmCfg_keeps {s0 : State} {x1 : State} (x2 : Bool) (x3 : Nat) (hx1 : Keeps s0 x1) :
    Keeps s0 (State.writeBpmCfg x1 x2 x3) := by
  unfold State.writeBpmCfg
  with_reducible repeat' (first
    | assumption | apply State.wr_keeps | apply State.wrBit_keeps | apply State.trimHbm_keeps | apply State.syncFree_keeps
    | apply Keeps.ite | fail_if_no_progress refine Keeps.mk' ?_ rfl rfl)

theorem State.writeShalCfg_keeps {s0 : State} {x1 : State} (x2 : Nat) (hx1 : Keeps s0 x1) :
    Keeps s0 (State.writeShalCfg x1 x2) := by
  unfold State.writeShalCfg
  with_reducible repeat' (first
    | assumption | apply State.wr_keeps | apply Keeps.ite)

theorem State.syncStripe_keeps {s0 : State} {x1 : State} (hx1 : Keeps s0 x1) :
    Keeps s0 (State.syncStripe x1) := by
  unfold State.syncStripe
  with_reducible repeat' (first
    | assumption | apply State.syncFree_keeps | apply State.wr_keeps)

theorem State.writeRsvCfg_keeps {s0 : State} {x1 : State} (x2 : Bool) (x3 : Nat) (hx1 : Keeps s0 x1) :
    Keeps s0 (State.writeRsvCfg x1 x2 x3) := by
  unfold State.writeRsvCfg
  with_reducible repeat' (first
    | assumption | apply State.wr_keeps | apply State.wrBit_keeps | apply State.syncStripe_keeps | apply Keeps.ite
    | fail_if_no_progress refine Keeps.mk' ?_ rfl rfl)

theorem State.occChange_keeps {s0 : State} {x1 : State} (x2 : Nat) (x3 : Nat → Nat) (hx1 : Keeps s0 x1) :
    Keeps s0 (State.occChange x1 x2 x3) := by
  unfold State.occChange
  with_reducible repeat' (first
    | assumption | apply State.wr_keeps | fail_if_no_progress refine Keeps.mk' ?_ rfl rfl)

theorem State.takeCell_keeps {s0 : State} {x1 : State} (x2 : Nat) (x3 : Nat) (x4 : Nat → Bool) (hx1 : Keeps s0 x1) :
    KMP s0 (State.takeCell x1 x2 x3 x4) := by
  unfold State.takeCell
  with_reducible repeat' (first
    | assumption | apply State.fresh_keeps | apply KMP.some | apply KMP.none | fail_if_no_progress refine Keeps.mk' ?_ rfl rfl
    | dsimp only | split)

theorem State.takeCells_keeps {s0 : State} (x1 : Nat) (x2 : Nat) (x3 : Nat → Bool) (x4 : Nat) {x5 : State} (hx5 : Keeps s0 x5) :
    KP s0 (State.takeCells x1 x2 x3 x4 x5) := by
  revert hx5
  fun_induction State.takeCells x1 x2 x3 x4 x5 <;> (intros; with_reducible repeat' (first
    | assumption | apply_assumption | apply State.takeCell_keeps | refine Keeps.ofPair ?_ (by assumption)
    | refine Keeps.ofSomePair ?_ (by assumption)))

theorem State.takeArea_keeps {s0 : State} {x1 : State} (x2 : Nat) (x3 : Nat) (hx1 : Keeps s0 x1) :
    KP s0 (State.takeArea x1 x2 x3) := by
  unfold State.takeArea
  with_reducible repeat' (first
    | assumption | apply State.takeCells_keeps | dsimp only | split)

theorem State.postTwo_keeps {s0 : State} {x1 : State} (x2 : Nat) (x3 : Nat) (x4 : Nat) (hx1 : Keeps s0 x1) :
    Keeps s0 (State.postTwo x1 x2 x3 x4) := by
  unfold State.postTwo
  with_reducible repeat' (first
    | assumption | apply State.post_keeps | apply Keeps.ite | fail_if_no_progress refine Keeps.mk' ?_ rfl rfl)

theorem State.freeFault_keeps {s0 : State} {x1 : State} (x2 : Bool) (x3 : Nat) (x4 : Nat) (x5 : Nat) (x6 : Nat) (hx1 : Keeps s0 x1) :
    Keeps s0 (State.freeFault x1 x2 x3 x4 x5 x6) := by
  unfold State.freeFault
  with_reducible repeat' (first
    | assumption | apply State.inc_keeps | apply State.wr_keeps | apply State.postTwo_keeps | apply Keeps.ite)

theorem State.setQueue_keeps {s0 : State} {x1 : State} (x2 : Nat) (x3 : Sys2Proof.Machine.Queue) (hx1 : Keeps s0 x1) :
    Keeps s0 (State.setQueue x1 x2 x3) := by
  unfold State.setQueue
  with_reducible repeat' (first
    | assumption | fail_if_no_progress refine Keeps.mk' ?_ rfl rfl)

theorem State.lower_keeps {s0 : State} {x1 : State} (x2 : Nat) (x3 : Nat) (hx1 : Keeps s0 x1) :
    Keeps s0 (State.lower x1 x2 x3) := by
  unfold State.lower
  with_reducible repeat' (first
    | assumption | apply State.occChange_keeps | apply State.setQueue_keeps)

theorem State.endRead_keeps {s0 : State} {x1 : State} (x2 : Nat) (x3 : Nat) (x4 : Nat) (hx1 : Keeps s0 x1) :
    Keeps s0 (State.endRead x1 x2 x3 x4) := by
  unfold State.endRead
  with_reducible repeat' (first
    | assumption | apply State.lower_keeps | fail_if_no_progress refine Keeps.mk' ?_ rfl rfl | dsimp only | split)

theorem State.syncShare_keeps {s0 : State} {x1 : State} (hx1 : Keeps s0 x1) :
    Keeps s0 (State.syncShare x1) := by
  unfold State.syncShare
  with_reducible repeat' (first
    | assumption | apply State.wr_keeps | apply State.post_keeps | apply Keeps.ite | fail_if_no_progress refine Keeps.mk' ?_ rfl rfl)

theorem State.setChain_keeps {s0 : State} {x1 : State} (x2 : Nat) (x3 : Sys2Proof.Machine.Chain) (hx1 : Keeps s0 x1) :
    Keeps s0 (State.setChain x1 x2 x3) := by
  unfold State.setChain
  with_reducible repeat' (first
    | assumption | fail_if_no_progress refine Keeps.mk' ?_ rfl rfl)

theorem State.holdBack_keeps {s0 : State} {x1 : State} (x2 : List Nat) (hx1 : Keeps s0 x1) :
    Keeps s0 (State.holdBack x1 x2) := by
  unfold State.holdBack
  with_reducible repeat' (first
    | assumption | fail_if_no_progress refine Keeps.mk' ?_ rfl rfl)

theorem State.leavePage_keeps {s0 : State} {x1 : State} (x2 : Nat) (hx1 : Keeps s0 x1) :
    Keeps s0 (State.leavePage x1 x2) := by
  unfold State.leavePage
  with_reducible repeat' (first
    | assumption | apply State.holdBack_keeps | apply Keeps.ite | fail_if_no_progress refine Keeps.mk' ?_ rfl rfl)

theorem State.giveKeys_keeps {s0 : State} {x1 : State} (x2 : List Nat) (hx1 : Keeps s0 x1) :
    Keeps s0 (State.giveKeys x1 x2) := by
  unfold State.giveKeys
  with_reducible repeat' (first
    | assumption | apply State.holdBack_keeps | fail_if_no_progress refine Keeps.mk' ?_ rfl rfl)

theorem State.giveCells_keeps {s0 : State} {x1 : State} (x2 : Nat) (x3 : List Nat) (hx1 : Keeps s0 x1) :
    Keeps s0 (State.giveCells x1 x2 x3) := by
  unfold State.giveCells
  with_reducible repeat' (first
    | assumption | apply State.giveKeys_keeps)

theorem State.giveSpace_keeps {s0 : State} {x1 : State} (x2 : Nat) (x3 : List Nat) (hx1 : Keeps s0 x1) :
    Keeps s0 (State.giveSpace x1 x2 x3) := by
  unfold State.giveSpace
  with_reducible repeat' (first
    | assumption | apply State.leavePage_keeps | apply State.giveCells_keeps | apply Keeps.ite)

theorem State.pfcSend_keeps {s0 : State} {x1 : State} (x2 : Nat) (x3 : Nat) (x4 : Bool) (hx1 : Keeps s0 x1) :
    Keeps s0 (State.pfcSend x1 x2 x3 x4) := by
  unfold State.pfcSend
  with_reducible repeat' (first
    | assumption | apply State.setLinePort_keeps | fail_if_no_progress refine Keeps.mk' ?_ rfl rfl)

theorem State.pfcCheck_keeps {s0 : State} {x1 : State} (x2 : Nat) (x3 : Nat) (hx1 : Keeps s0 x1) :
    Keeps s0 (State.pfcCheck x1 x2 x3) := by
  unfold State.pfcCheck
  with_reducible repeat' (first
    | assumption | apply State.wr_keeps | apply State.pfcSend_keeps | apply Keeps.ite)

theorem State.pfcChange_keeps {s0 : State} {x1 : State} (x2 : Option Nat) (x3 : Nat → Nat) (hx1 : Keeps s0 x1) :
    Keeps s0 (State.pfcChange x1 x2 x3) := by
  unfold State.pfcChange
  with_reducible repeat' (first
    | assumption | apply State.pfcCheck_keeps | fail_if_no_progress refine Keeps.mk' ?_ rfl rfl | dsimp only | split)

theorem State.freeChain_keeps {s0 : State} {x1 : State} (x2 : Nat) (hx1 : Keeps s0 x1) :
    Keeps s0 (State.freeChain x1 x2) := by
  unfold State.freeChain
  with_reducible repeat' (first
    | assumption | apply State.setChain_keeps | apply State.giveSpace_keeps | apply State.syncFree_keeps | apply State.pfcChange_keeps)

theorem State.release_keeps {s0 : State} {x1 : State} (x2 : Nat) (x3 : Nat) (x4 : Nat) (hx1 : Keeps s0 x1) :
    Keeps s0 (State.release x1 x2 x3 x4) := by
  unfold State.release
  with_reducible repeat' (first
    | assumption | apply State.freeFault_keeps | apply State.endRead_keeps | apply State.syncShare_keeps | apply State.freeChain_keeps
    | apply Keeps.ite | fail_if_no_progress refine Keeps.mk' ?_ rfl rfl)

theorem State.pfcCatchUp_keeps {s0 : State} {x1 : State} (x2 : Nat) (hx1 : Keeps s0 x1) :
    Keeps s0 (State.pfcCatchUp x1 x2) := by
  unfold State.pfcCatchUp
  with_reducible repeat' (first
    | assumption | apply State.pfcSend_keeps | apply Keeps.ite | refine Keeps.foldl ?_ _ ?_ | (intro _; intros))

theorem State.takeRef_keeps {s0 : State} {x1 : State} (x2 : Nat) (hx1 : Keeps s0 x1) :
    KR s0 (State.takeRef x1 x2) := by
  unfold State.takeRef
  with_reducible repeat' (first
    | assumption | apply State.fresh_keeps | apply State.syncShare_keeps | apply State.setChain_keeps | apply KR.inr | apply KR.inl
    | fail_if_no_progress refine Keeps.mk' ?_ rfl rfl | dsimp only | split)

theorem State.xput_keeps {s0 : State} {x1 : State} (x2 : Nat) (x3 : Sys2Proof.Machine.XCell) (hx1 : Keeps s0 x1) :
    Keeps s0 (State.xput x1 x2 x3) := by
  unfold State.xput
  with_reducible repeat' (first
    | assumption | apply Keeps.ite | fail_if_no_progress refine Keeps.mk' ?_ rfl rfl)

theorem State.xputAll_keeps {s0 : State} {x1 : State} (x2 : Nat) (x3 : Nat) (x4 : List Nat) (hx1 : Keeps s0 x1) :
    Keeps s0 (State.xputAll x1 x2 x3 x4) := by
  unfold State.xputAll
  with_reducible repeat' (first
    | assumption | apply State.fresh_keeps | apply State.xput_keeps | refine Keeps.foldl ?_ _ ?_ | (intro _; intros))

theorem execChainRelease_keeps {s0 : State} (x1 : Nat) (x2 : Nat) (x3 : Nat) {x4 : State} (hx4 : Keeps s0 x4) :
    KO s0 (execChainRelease x1 x2 x3 x4) := by
  unfold execChainRelease
  with_reducible repeat' (first
    | assumption | apply State.release_keeps | apply KO.next)

theorem State.readMark_keeps {s0 : State} {x1 : State} (x2 : Nat) (hx1 : Keeps s0 x1) :
    Keeps s0 (State.readMark x1 x2) := by
  unfold State.readMark
  with_reducible repeat' (first
    | assumption | apply State.inc_keeps | apply Keeps.ite)

theorem execBufferAudit_keeps {s0 : State} {x1 : State} (hx1 : Keeps s0 x1) :
    KO s0 (execBufferAudit x1) := by
  unfold execBufferAudit
  with_reducible repeat' (first
    | assumption | apply State.giveKeys_keeps | apply State.postTwo_keeps | apply State.syncFree_keeps | apply State.addSat_keeps
    | apply KO.next | fail_if_no_progress refine Keeps.mk' ?_ rfl rfl | dsimp only | split)

theorem State.xMove_keeps {s0 : State} {x1 : State} (x2 : Nat × Nat) (hx1 : Keeps s0 x1) :
    Keeps s0 (State.xMove x1 x2) := by
  unfold State.xMove
  with_reducible repeat' (first
    | assumption | fail_if_no_progress refine Keeps.mk' ?_ rfl rfl | dsimp only | split)

theorem State.xPoint_keeps {s0 : State} {x1 : State} (x2 : List (Nat × Nat)) (hx1 : Keeps s0 x1) :
    Keeps s0 (State.xPoint x1 x2) := by
  unfold State.xPoint
  with_reducible repeat' (first
    | assumption | refine Keeps.foldl ?_ _ ?_ | (intro _; intros) | fail_if_no_progress refine Keeps.mk' ?_ rfl rfl)

theorem State.xfill_keeps {s0 : State} (x1 : Nat) (x2 : Nat) {x3 : State} (hx3 : Keeps s0 x3) :
    Keeps s0 (State.xfill x1 x2 x3) := by
  revert hx3
  fun_induction State.xfill x1 x2 x3 <;> (intros; with_reducible repeat' (first
    | assumption | apply_assumption | fail_if_no_progress refine Keeps.mk' ?_ rfl rfl))

theorem execXbarSlot_keeps {s0 : State} {x1 : State} (hx1 : Keeps s0 x1) :
    KO s0 (execXbarSlot x1) := by
  unfold execXbarSlot
  with_reducible repeat' (first
    | assumption | apply State.xMove_keeps | apply State.xPoint_keeps | apply State.xfill_keeps | apply KO.next
    | refine Keeps.foldl ?_ _ ?_ | (intro _; intros))

theorem State.setNode_keeps {s0 : State} {x1 : State} (x2 : Nat) (x3 : Nat) (x4 : Sys2Proof.Machine.Node) (hx1 : Keeps s0 x1) :
    Keeps s0 (State.setNode x1 x2 x3 x4) := by
  unfold State.setNode
  with_reducible repeat' (first
    | assumption | fail_if_no_progress refine Keeps.mk' ?_ rfl rfl)

theorem State.choose_keeps {s0 : State} {x1 : State} (x2 : Nat) (x3 : Nat) (hx1 : Keeps s0 x1) :
    Keeps s0 (State.choose x1 x2 x3) := by
  unfold State.choose
  with_reducible repeat' (first
    | assumption | apply State.setNode_keeps | apply Keeps.ite | dsimp only | split)

theorem State.touchChild_keeps {s0 : State} {x1 : State} (x2 : Sys2Proof.Machine.Node) (x3 : Nat) (x4 : Nat) (hx1 : Keeps s0 x1) :
    Keeps s0 (State.touchChild x1 x2 x3 x4) := by
  unfold State.touchChild
  with_reducible repeat' (first
    | assumption | apply State.setNode_keeps | apply Keeps.ite)

theorem State.settleNode_keeps {s0 : State} {x1 : State} (x2 : Nat) (x3 : Nat) (hx1 : Keeps s0 x1) :
    Keeps s0 (State.settleNode x1 x2 x3) := by
  unfold State.settleNode
  with_reducible repeat' (first
    | assumption | apply State.choose_keeps | apply State.touchChild_keeps | refine Keeps.foldl ?_ _ ?_ | (intro _; intros))

theorem State.settle_keeps {s0 : State} {x1 : State} (hx1 : Keeps s0 x1) :
    Keeps s0 (State.settle x1) := by
  unfold State.settle
  with_reducible repeat' (first
    | assumption | apply State.settleNode_keeps | refine Keeps.foldl ?_ _ ?_ | (intro _; intros))

theorem State.withdrawUp_keeps {s0 : State} {x1 : State} (x2 : Nat) (x3 : Nat) (x4 : Nat) (hx1 : Keeps s0 x1) :
    Keeps s0 (State.withdrawUp x1 x2 x3 x4) := by
  induction x2 generalizing x1 x3 x4 with
  | zero => unfold State.withdrawUp; with_reducible repeat' (first
    | assumption)
  | succ n ih =>
    unfold State.withdrawUp
    with_reducible repeat' (first
    | assumption | apply ih | apply State.setNode_keeps | apply Keeps.ite)

theorem State.withdraw_keeps {s0 : State} {x1 : State} (x2 : Nat) (hx1 : Keeps s0 x1) :
    Keeps s0 (State.withdraw x1 x2) := by
  unfold State.withdraw
  with_reducible repeat' (first
    | assumption | apply State.inc_keeps | apply State.withdrawUp_keeps | apply Keeps.ite)

theorem State.stopClasses_keeps {s0 : State} {x1 : State} (x2 : Nat) (x3 : Nat) (hx1 : Keeps s0 x1) :
    Keeps s0 (State.stopClasses x1 x2 x3) := by
  unfold State.stopClasses
  with_reducible repeat' (first
    | assumption | apply State.settle_keeps | apply State.withdraw_keeps | refine Keeps.foldl ?_ _ ?_)

theorem State.applyNode_keeps {s0 : State} {x1 : State} (x2 : Nat) (x3 : Nat) (x4 : Sys2Proof.Machine.NodeWords) (hx1 : Keeps s0 x1) :
    Keeps s0 (State.applyNode x1 x2 x3 x4) := by
  unfold State.applyNode
  with_reducible repeat' (first
    | assumption | apply State.setNode_keeps | apply State.withdraw_keeps | apply State.settle_keeps | apply Keeps.ite
    | refine Keeps.foldl ?_ _ ?_)

theorem State.writeNode_keeps {s0 : State} {x1 : State} (x2 : Nat) (x3 : Nat) (x4 : Sys2Proof.Machine.NodeWords) (hx1 : Keeps s0 x1) :
    KP s0 (State.writeNode x1 x2 x3 x4) := by
  unfold State.writeNode
  with_reducible repeat' (first
    | assumption | apply State.applyNode_keeps | apply State.wr_keeps | apply KP.ite)

theorem State.charge_keeps {s0 : State} {x1 : State} (x2 : Nat) (x3 : Nat × Nat) (hx1 : Keeps s0 x1) :
    Keeps s0 (State.charge x1 x2 x3) := by
  unfold State.charge
  with_reducible repeat' (first
    | assumption | apply State.setNode_keeps)

theorem State.resend_keeps {s0 : State} {x1 : State} (x2 : Nat) (x3 : Nat) (hx1 : Keeps s0 x1) :
    Keeps s0 (State.resend x1 x2 x3) := by
  unfold State.resend
  with_reducible repeat' (first
    | assumption | apply State.setNode_keeps | apply Keeps.ite)

theorem State.refill_keeps {s0 : State} {x1 : State} (x2 : List (Nat × Nat)) (hx1 : Keeps s0 x1) :
    Keeps s0 (State.refill x1 x2) := by
  unfold State.refill
  with_reducible repeat' (first
    | assumption | apply State.settleNode_keeps | apply State.setNode_keeps | apply State.resend_keeps | apply Keeps.ite
    | refine Keeps.foldl ?_ _ ?_ | (intro _; intros))

theorem execNz5RefillBoundary_keeps {s0 : State} {x1 : State} (hx1 : Keeps s0 x1) :
    KO s0 (execNz5RefillBoundary x1) := by
  unfold execNz5RefillBoundary
  with_reducible repeat' (first
    | assumption | apply State.settle_keeps | apply KO.ite | apply KO.next | fail_if_no_progress refine Keeps.mk' ?_ rfl rfl)

theorem State.parse_keeps {s0 : State} {x1 : State} (x2 : Nat) (x3 : List Nat) (hx1 : Keeps s0 x1) :
    KP s0 (State.parse x1 x2 x3) := by
  unfold State.parse
  with_reducible repeat' (first
    | assumption | apply State.inc_keeps | apply Keeps.ite)

theorem State.setSession_keeps {s0 : State} {x1 : State} (x2 : Nat) (x3 : Sys2Proof.Machine.Session) (hx1 : Keeps s0 x1) :
    Keeps s0 (State.setSession x1 x2 x3) := by
  unfold State.setSession
  with_reducible repeat' (first
    | assumption | fail_if_no_progress refine Keeps.mk' ?_ rfl rfl)

theorem State.takeCap_keeps {s0 : State} {x1 : State} (hx1 : Keeps s0 x1) :
    KP s0 (State.takeCap x1) := by
  unfold State.takeCap
  with_reducible repeat' (first
    | assumption | apply State.inc_keeps | apply KP.ite | fail_if_no_progress refine Keeps.mk' ?_ rfl rfl)

theorem State.countCopy_keeps {s0 : State} {x1 : State} (x2 : Nat) (x3 : Bool) (x4 : Nat) (hx1 : Keeps s0 x1) :
    Keeps s0 (State.countCopy x1 x2 x3 x4) := by
  unfold State.countCopy
  with_reducible repeat' (first
    | assumption | apply State.cntAdd_keeps)

theorem State.putSample_keeps {s0 : State} {x1 : State} (x2 : Sys2Proof.Machine.Sample) (hx1 : Keeps s0 x1) :
    Keeps s0 (State.putSample x1 x2) := by
  unfold State.putSample
  with_reducible repeat' (first
    | assumption | apply State.takeCap_keeps | apply State.countCopy_keeps | apply State.hostWrite_keeps | apply State.raiseRing_keeps
    | apply State.setRing_keeps | apply Keeps.ite)

theorem State.selects_keeps {s0 : State} {x1 : State} (x2 : Nat) (hx1 : Keeps s0 x1) :
    KP s0 (State.selects x1 x2) := by
  unfold State.selects
  with_reducible repeat' (first
    | assumption | apply State.fresh_keeps | apply KP.ite)

theorem State.takeToken_keeps {s0 : State} {x1 : State} (x2 : Nat) (hx1 : Keeps s0 x1) :
    KP s0 (State.takeToken x1 x2) := by
  unfold State.takeToken
  with_reducible repeat' (first
    | assumption | apply State.setSession_keeps | apply KP.ite)

theorem State.writeSample_keeps {s0 : State} {x1 : State} (x2 : Sys2Proof.Machine.Sample) (hx1 : Keeps s0 x1) :
    Keeps s0 (State.writeSample x1 x2) := by
  unfold State.writeSample
  with_reducible repeat' (first
    | assumption | apply State.takeToken_keeps | apply State.countCopy_keeps | apply State.putSample_keeps | apply State.ctlNow_keeps
    | apply State.ctlWait_keeps | apply Keeps.ite)

theorem State.sampleIngress_keeps {s0 : State} {x1 : State} (x2 : List Nat) (x3 : Sys2Proof.Machine.Sample) (hx1 : Keeps s0 x1) :
    Keeps s0 (State.sampleIngress x1 x2 x3) := by
  unfold State.sampleIngress
  with_reducible repeat' (first
    | assumption | apply State.selects_keeps | apply State.countCopy_keeps | apply State.writeSample_keeps | apply Keeps.ite
    | refine Keeps.foldl ?_ _ ?_ | (intro _; intros))

theorem State.setPly_keeps {s0 : State} {x1 : State} (x2 : Nat) (x3 : Sys2Proof.Machine.Ply) (hx1 : Keeps s0 x1) :
    Keeps s0 (State.setPly x1 x2 x3) := by
  unfold State.setPly
  with_reducible repeat' (first
    | assumption | fail_if_no_progress refine Keeps.mk' ?_ rfl rfl)

theorem State.setCluster_keeps {s0 : State} {x1 : State} (x2 : Nat) (x3 : Sys2Proof.Machine.Cluster) (hx1 : Keeps s0 x1) :
    Keeps s0 (State.setCluster x1 x2 x3) := by
  unfold State.setCluster
  with_reducible repeat' (first
    | assumption | fail_if_no_progress refine Keeps.mk' ?_ rfl rfl)

theorem State.orderEnter_keeps {s0 : State} {x1 : State} (x2 : Nat) (x3 : Sys2Proof.Machine.Packet) (hx1 : Keeps s0 x1) :
    KP s0 (State.orderEnter x1 x2 x3) := by
  unfold State.orderEnter
  with_reducible repeat' (first
    | assumption | fail_if_no_progress refine Keeps.mk' ?_ rfl rfl)

theorem State.leave_keeps {s0 : State} {x1 : State} (x2 : Bool) (x3 : Sys2Proof.Machine.Packet) (hx1 : Keeps s0 x1) :
    Keeps s0 (State.leave x1 x2 x3) := by
  unfold State.leave
  with_reducible repeat' (first
    | assumption | apply State.bridgeEnter_keeps | apply Keeps.ite | fail_if_no_progress refine Keeps.mk' ?_ rfl rfl)

theorem State.orderRun_keeps {s0 : State} (x1 : Nat) (x2 : Nat) {x3 : State} (hx3 : Keeps s0 x3) :
    Keeps s0 (State.orderRun x1 x2 x3) := by
  induction x2 generalizing x3 with
  | zero => unfold State.orderRun; with_reducible repeat' (first
    | assumption)
  | succ n ih =>
    unfold State.orderRun
    with_reducible repeat' (first
    | assumption | apply ih | apply State.leave_keeps | apply Keeps.ite | fail_if_no_progress refine Keeps.mk' ?_ rfl rfl | dsimp only
    | split)

theorem State.orderEnd_keeps {s0 : State} {x1 : State} (x2 : Bool) (x3 : Nat) (x4 : Option Sys2Proof.Machine.Packet) (hx1 : Keeps s0 x1) :
    Keeps s0 (State.orderEnd x1 x2 x3 x4) := by
  unfold State.orderEnd
  with_reducible repeat' (first
    | assumption | apply State.orderRun_keeps | apply State.leave_keeps | fail_if_no_progress refine Keeps.mk' ?_ rfl rfl | dsimp only
    | split)

theorem State.freePly_keeps {s0 : State} {x1 : State} (x2 : Nat) (hx1 : Keeps s0 x1) :
    Keeps s0 (State.freePly x1 x2) := by
  unfold State.freePly
  with_reducible repeat' (first
    | assumption | apply State.addWrap_keeps | apply State.wr_keeps | apply State.setCluster_keeps
    | fail_if_no_progress refine Keeps.mk' ?_ rfl rfl | dsimp only | split)

theorem State.endPly_keeps {s0 : State} {x1 : State} (x2 : Nat) (hx1 : Keeps s0 x1) :
    Keeps s0 (State.endPly x1 x2) := by
  unfold State.endPly
  with_reducible repeat' (first
    | assumption | apply State.orderEnd_keeps | apply State.freePly_keeps | split)

theorem State.plyFault_keeps {s0 : State} {x1 : State} (x2 : Nat) (x3 : Nat) (x4 : Nat) (hx1 : Keeps s0 x1) :
    Keeps s0 (State.plyFault x1 x2 x3 x4) := by
  unfold State.plyFault
  with_reducible repeat' (first
    | assumption | apply State.inc_keeps | apply State.wr_keeps | apply State.postRated_keeps | apply State.endPly_keeps | apply Keeps.ite
    | fail_if_no_progress refine Keeps.mk' ?_ rfl rfl | dsimp only | split)

theorem State.bumpEpoch_keeps {s0 : State} {x1 : State} (x2 : Nat) (x3 : Nat) (hx1 : Keeps s0 x1) :
    Keeps s0 (State.bumpEpoch x1 x2 x3) := by
  unfold State.bumpEpoch
  with_reducible repeat' (first
    | assumption | fail_if_no_progress refine Keeps.mk' ?_ rfl rfl)

theorem State.slotLost_keeps {s0 : State} {x1 : State} (x2 : Nat) (x3 : Nat) (hx1 : Keeps s0 x1) :
    Keeps s0 (State.slotLost x1 x2 x3) := by
  unfold State.slotLost
  with_reducible repeat' (first
    | assumption | apply State.setCluster_keeps | apply State.post_keeps | apply State.wr_keeps | apply Keeps.ite)

theorem State.engineDead_keeps {s0 : State} {x1 : State} (x2 : Nat) (x3 : Nat) (x4 : Nat) (hx1 : Keeps s0 x1) :
    Keeps s0 (State.engineDead x1 x2 x3 x4) := by
  unfold State.engineDead
  with_reducible repeat' (first
    | assumption | apply State.plyFault_keeps | apply State.bumpEpoch_keeps | apply State.slotLost_keeps | apply State.resign_keeps
    | apply State.setCluster_keeps | apply Keeps.ite | refine Keeps.foldl ?_ _ ?_ | (intro _; intros)
    | fail_if_no_progress refine Keeps.mk' ?_ rfl rfl)

theorem State.eccSeen_keeps {s0 : State} {x1 : State} (x2 : Nat) (x3 : Nat) (hx1 : Keeps s0 x1) :
    Keeps s0 (State.eccSeen x1 x2 x3) := by
  unfold State.eccSeen
  with_reducible repeat' (first
    | assumption | apply State.engineDead_keeps | apply Keeps.ite | fail_if_no_progress refine Keeps.mk' ?_ rfl rfl)

theorem State.frameEcc_keeps {s0 : State} {x1 : State} (x2 : Nat) (hx1 : Keeps s0 x1) :
    Keeps s0 (State.frameEcc x1 x2) := by
  unfold State.frameEcc
  with_reducible repeat' (first
    | assumption | apply State.eccSeen_keeps | apply State.plyFault_keeps | split)

theorem State.setPdata_keeps {s0 : State} {x1 : State} (x2 : Nat) (x3 : Nat) (x4 : List Nat) (hx1 : Keeps s0 x1) :
    Keeps s0 (State.setPdata x1 x2 x3 x4) := by
  revert hx1
  fun_induction State.setPdata x1 x2 x3 x4 <;> (intros; with_reducible repeat' (first
    | assumption | apply_assumption | fail_if_no_progress refine Keeps.mk' ?_ rfl rfl))

theorem State.memAccess_keeps {s0 : State} {x1 : State} (x2 : Sys2Proof.Machine.Ply) (x3 : Sys2Proof.Machine.MemAcc) (hx1 : Keeps s0 x1) :
    KRF s0 (State.memAccess x1 x2 x3) := by
  unfold State.memAccess
  with_reducible repeat' (first
    | assumption | apply State.setPdata_keeps | apply KRF.inr | apply KRF.inl | dsimp only | split)

theorem State.accFault_keeps {s0 : State} {x1 : State} (x2 : Nat) (x3 : Sys2Proof.Machine.Ply) (x4 : Nat) (x5 : Nat) (hx1 : Keeps s0 x1) :
    Keeps s0 (State.accFault x1 x2 x3 x4 x5) := by
  unfold State.accFault
  with_reducible repeat' (first
    | assumption | apply State.frameEcc_keeps | apply State.setPly_keeps | apply State.plyFault_keeps | apply Keeps.ite)

theorem State.present_keeps {s0 : State} {x1 : State} (x2 : Nat) (x3 : Sys2Proof.Machine.Ply) (x4 : Nat) (x5 : Nat) (hx1 : Keeps s0 x1) :
    Keeps s0 (State.present x1 x2 x3 x4 x5) := by
  unfold State.present
  with_reducible repeat' (first
    | assumption | fail_if_no_progress refine Keeps.mk' ?_ rfl rfl)

theorem State.callAccess_keeps {s0 : State} {x1 : State} (x2 : Nat) (x3 : Sys2Proof.Machine.Ply) (x4 : Sys2Proof.Machine.CallAcc) (hx1 : Keeps s0 x1) :
    KRF s0 (State.callAccess x1 x2 x3 x4) := by
  unfold State.callAccess
  with_reducible repeat' (first
    | assumption | apply State.present_keeps | apply KRF.inr | apply KRF.inl | split)

theorem State.plyDone_keeps {s0 : State} {x1 : State} (x2 : Nat) (hx1 : Keeps s0 x1) :
    Keeps s0 (State.plyDone x1 x2) := by
  unfold State.plyDone
  with_reducible repeat' (first
    | assumption | apply State.frameEcc_keeps | apply State.plyFault_keeps | apply State.freePly_keeps | apply State.orderEnd_keeps
    | apply State.sampleIngress_keeps | apply Keeps.ite | dsimp only | split)

theorem State.plyDrop_keeps {s0 : State} {x1 : State} (x2 : Nat) (x3 : Nat) (hx1 : Keeps s0 x1) :
    Keeps s0 (State.plyDrop x1 x2 x3) := by
  unfold State.plyDrop
  with_reducible repeat' (first
    | assumption | apply State.endPly_keeps | apply State.cntAdd_keeps | split)

theorem State.plyRecycle_keeps {s0 : State} {x1 : State} (x2 : Nat) (hx1 : Keeps s0 x1) :
    Keeps s0 (State.plyRecycle x1 x2) := by
  unfold State.plyRecycle
  with_reducible repeat' (first
    | assumption | apply State.plyDrop_keeps | apply State.frameEcc_keeps | apply State.plyFault_keeps | apply State.endPly_keeps
    | apply Keeps.ite | fail_if_no_progress refine Keeps.mk' ?_ rfl rfl | dsimp only | split)

theorem State.commit_keeps {s0 : State} {x1 : State} (x2 : Nat) (x3 : Sys2Proof.Machine.Ply) (x4 : Sys2Proof.Machine.Issue) (hx1 : Keeps s0 x1) :
    Keeps s0 (State.commit x1 x2 x3 x4) := by
  unfold State.commit
  with_reducible repeat' (first
    | assumption | apply State.plyFault_keeps | apply State.memAccess_keeps | apply State.accFault_keeps | apply State.callAccess_keeps
    | apply State.setPly_keeps | apply State.plyDone_keeps | apply State.plyDrop_keeps | apply State.plyRecycle_keeps | apply Keeps.ite
    | apply KRF.inr | refine Keeps.ofInrPair ?_ (by assumption) | split)

theorem State.runOp_keeps {s0 : State} {x1 : State} (x2 : Nat) (x3 : Sys2Proof.Machine.Ply) (x4 : Sys2Proof.Machine.Issue) (x5 : Nat) (x6 : Nat → Sys2Proof.Machine.Ply → Sys2Proof.Machine.EOp → Sys2Proof.Machine.Issue → Sys2Proof.Machine.Issue) (hx1 : Keeps s0 x1) :
    Keeps s0 (State.runOp x1 x2 x3 x4 x5 x6) := by
  unfold State.runOp
  with_reducible repeat' (first
    | assumption | apply State.commit_keeps | apply State.setPly_keeps | dsimp only | split)

theorem State.startBundle_keeps {s0 : State} {x1 : State} (x2 : Sys2Proof.Machine.Ply) (hx1 : Keeps s0 x1) :
    KF s0 (State.startBundle x1 x2) := by
  unfold State.startBundle
  with_reducible repeat' (first
    | assumption | apply State.addWrap_keeps | fail_if_no_progress refine Keeps.mk' ?_ rfl rfl)

theorem State.issueOp_keeps {s0 : State} (x1 : Nat) (x2 : Nat) (x3 : Nat → Sys2Proof.Machine.Ply → Sys2Proof.Machine.EOp → Sys2Proof.Machine.Issue → Sys2Proof.Machine.Issue) {x4 : State} (hx4 : Keeps s0 x4) :
    Keeps s0 (State.issueOp x1 x2 x3 x4) := by
  unfold State.issueOp
  with_reducible repeat' (first
    | assumption | apply State.frameEcc_keeps | apply State.runOp_keeps | apply State.post_keeps | apply State.plyFault_keeps
    | apply State.startBundle_keeps | apply State.commit_keeps | apply Keeps.ite | dsimp only | split)

theorem State.takeFlip_keeps {s0 : State} {x1 : State} (x2 : Nat) (hx1 : Keeps s0 x1) :
    Keeps s0 (State.takeFlip x1 x2) := by
  unfold State.takeFlip
  with_reducible repeat' (first
    | assumption | apply State.wr_keeps | apply Keeps.ite)

theorem State.askFlip_keeps {s0 : State} {x1 : State} (x2 : Nat) (hx1 : Keeps s0 x1) :
    Keeps s0 (State.askFlip x1 x2) := by
  unfold State.askFlip
  with_reducible repeat' (first
    | assumption | apply State.wr_keeps | apply State.takeFlip_keeps | apply Keeps.ite)

theorem State.upsetEng_keeps {s0 : State} {x1 : State} (x2 : List (Bool × Nat)) (hx1 : Keeps s0 x1) :
    Keeps s0 (State.upsetEng x1 x2) := by
  unfold State.upsetEng
  with_reducible repeat' (first
    | assumption | apply State.setPly_keeps | apply Keeps.ite | refine Keeps.foldl ?_ _ ?_ | (intro _; intros)
    | fail_if_no_progress refine Keeps.mk' ?_ rfl rfl | split)

theorem State.setDispQ_keeps {s0 : State} {x1 : State} (x2 : Bool) (x3 : Nat) (x4 : List Sys2Proof.Machine.Packet) (hx1 : Keeps s0 x1) :
    Keeps s0 (State.setDispQ x1 x2 x3 x4) := by
  unfold State.setDispQ
  with_reducible repeat' (first
    | assumption | apply Keeps.ite | fail_if_no_progress refine Keeps.mk' ?_ rfl rfl)

theorem State.injected_keeps {s0 : State} {x1 : State} (x2 : Sys2Proof.Machine.Packet) (hx1 : Keeps s0 x1) :
    Keeps s0 (State.injected x1 x2) := by
  unfold State.injected
  with_reducible repeat' (first
    | assumption | apply State.finDone_keeps | apply Keeps.ite | split)

theorem execPlyDispatch_keeps {s0 : State} (x1 : Nat) (x2 : Bool) (x3 : List (Bool × Nat)) {x4 : State} (hx4 : Keeps s0 x4) :
    KO s0 (execPlyDispatch x1 x2 x3 x4) := by
  unfold execPlyDispatch
  with_reducible repeat' (first
    | assumption | apply State.upsetEng_keeps | apply State.takeFlip_keeps | apply State.setDispQ_keeps | apply State.parse_keeps
    | apply State.fresh_keeps | apply State.injected_keeps | apply State.setPly_keeps | apply State.wr_keeps
    | apply State.setCluster_keeps | apply KO.next | fail_if_no_progress refine Keeps.mk' ?_ rfl rfl | dsimp only | split)

theorem execIngressDispatchEnqueue_keeps {s0 : State} (x1 : Nat) {x2 : State} (hx2 : Keeps s0 x2) :
    KO s0 (execIngressDispatchEnqueue x1 x2) := by
  unfold execIngressDispatchEnqueue
  with_reducible repeat' (first
    | assumption | apply State.inc_keeps | apply State.orderEnter_keeps | apply State.setDispQ_keeps | apply KO.ite | apply KP.ite
    | apply KO.next | fail_if_no_progress refine Keeps.mk' ?_ rfl rfl | dsimp only | split)

theorem execEgressDispatchEnqueue_keeps {s0 : State} (x1 : Nat) {x2 : State} (hx2 : Keeps s0 x2) :
    KO s0 (execEgressDispatchEnqueue x1 x2) := by
  unfold execEgressDispatchEnqueue
  with_reducible repeat' (first
    | assumption | apply State.setDir_keeps | apply State.inc_keeps | apply State.orderEnter_keeps | apply State.setDispQ_keeps
    | apply KO.ite | apply KO.next | fail_if_no_progress refine Keeps.mk' ?_ rfl rfl | dsimp only | split)

theorem execCallResultWritten_keeps {s0 : State} (x1 : Nat) {x2 : State} (hx2 : Keeps s0 x2) :
    KO s0 (execCallResultWritten x1 x2) := by
  unfold execCallResultWritten
  with_reducible repeat' (first
    | assumption | apply State.inc_keeps | apply State.plyFault_keeps | apply State.setPly_keeps | apply Keeps.ite | apply KO.ite
    | apply KO.next | fail_if_no_progress refine Keeps.mk' ?_ rfl rfl | dsimp only | split)

theorem State.clusterReset_keeps {s0 : State} {x1 : State} (x2 : Nat) (hx1 : Keeps s0 x1) :
    Keeps s0 (State.clusterReset x1 x2) := by
  unfold State.clusterReset
  with_reducible repeat' (first
    | assumption | apply State.plyFault_keeps | apply State.bumpEpoch_keeps | apply State.inc_keeps | apply State.setCluster_keeps
    | refine Keeps.foldl ?_ _ ?_ | (intro _; intros) | fail_if_no_progress refine Keeps.mk' ?_ rfl rfl)

theorem execContextWatchdog_keeps {s0 : State} (x1 : Nat) {x2 : State} (hx2 : Keeps s0 x2) :
    KO s0 (execContextWatchdog x1 x2) := by
  unfold execContextWatchdog
  with_reducible repeat' (first
    | assumption | apply State.clusterReset_keeps | apply State.engineDead_keeps | apply State.inc_keeps | apply State.plyFault_keeps
    | apply KO.ite | apply KO.next | split)

theorem execRoleDrainEnd_keeps {s0 : State} (x1 : Nat) {x2 : State} (hx2 : Keeps s0 x2) :
    KO s0 (execRoleDrainEnd x1 x2) := by
  unfold execRoleDrainEnd
  with_reducible repeat' (first
    | assumption | apply State.post_keeps | apply State.wr_keeps | apply KO.ite | apply KO.next)

theorem execBankDrainEnd_keeps {s0 : State} (x1 : Nat) {x2 : State} (hx2 : Keeps s0 x2) :
    KO s0 (execBankDrainEnd x1 x2) := by
  unfold execBankDrainEnd
  with_reducible repeat' (first
    | assumption | apply State.post_keeps | apply State.wr_keeps | apply KO.next | split)

theorem execPromotionDone_keeps {s0 : State} (x1 : Nat) (x2 : Nat) {x3 : State} (hx3 : Keeps s0 x3) :
    KO s0 (execPromotionDone x1 x2 x3) := by
  unfold execPromotionDone
  with_reducible repeat' (first
    | assumption | apply State.setCluster_keeps | apply State.post_keeps | apply State.wr_keeps | apply State.abandonTest_keeps
    | apply State.inc_keeps | apply KO.ite | apply KO.next)

theorem execSpareBackgroundTest_keeps {s0 : State} (x1 : Nat) (x2 : Bool) {x3 : State} (hx3 : Keeps s0 x3) :
    KO s0 (execSpareBackgroundTest x1 x2 x3) := by
  unfold execSpareBackgroundTest
  with_reducible repeat' (first
    | assumption | apply State.post_keeps | apply State.wr_keeps | apply KO.ite | apply KO.next
    | fail_if_no_progress refine Keeps.mk' ?_ rfl rfl)

end Sys2Proof.Machine
end

