-- ==== Sys2Proof/Laws/KeepsQueues.lean ====
section
/-! SUPPORT. That each operation keeps what `Keeps` says: queues, the fabric scheduler and the time gates. -/
namespace Sys2Proof.Machine

theorem State.releaseQueued_keeps {s0 : State} {x1 : State} (x2 : Sys2Proof.Machine.QEnt) (hx1 : Keeps s0 x1) :
    Keeps s0 (State.releaseQueued x1 x2) := by
  unfold State.releaseQueued
  with_reducible repeat' (first
    | assumption | apply State.release_keeps)

theorem State.dropAt_keeps {s0 : State} {x1 : State} (x2 : Nat) (x3 : Nat) (x4 : Nat) (hx1 : Keeps s0 x1) :
    Keeps s0 (State.dropAt x1 x2 x3 x4) := by
  unfold State.dropAt
  with_reducible repeat' (first
    | assumption | apply State.inc_keeps | apply State.addSat_keeps | apply State.cntAdd_keeps | apply Keeps.ite)

theorem State.setVoq_keeps {s0 : State} {x1 : State} (x2 : Nat) (x3 : Sys2Proof.Machine.Voq) (hx1 : Keeps s0 x1) :
    Keeps s0 (State.setVoq x1 x2 x3) := by
  unfold State.setVoq
  with_reducible repeat' (first
    | assumption | fail_if_no_progress refine Keeps.mk' ?_ rfl rfl)

theorem State.creditSend_keeps {s0 : State} {x1 : State} (x2 : Nat) (x3 : List Nat) (hx1 : Keeps s0 x1) :
    Keeps s0 (State.creditSend x1 x2 x3) := by
  unfold State.creditSend
  with_reducible repeat' (first
    | assumption | apply State.inc_keeps | apply State.wr_keeps | apply Keeps.ite | fail_if_no_progress refine Keeps.mk' ?_ rfl rfl)

theorem State.sendEmpty_keeps {s0 : State} {x1 : State} (x2 : Nat) (hx1 : Keeps s0 x1) :
    Keeps s0 (State.sendEmpty x1 x2) := by
  unfold State.sendEmpty
  with_reducible repeat' (first
    | assumption | apply State.setVoq_keeps | apply State.creditSend_keeps | apply Keeps.ite)

theorem State.dequeue_keeps {s0 : State} {x1 : State} (x2 : Nat) (x3 : Nat) (hx1 : Keeps s0 x1) :
    Keeps s0 (State.dequeue x1 x2 x3) := by
  unfold State.dequeue
  with_reducible repeat' (first
    | assumption | apply State.setQueue_keeps | apply State.lower_keeps | apply State.sendEmpty_keeps | apply Keeps.ite
    | fail_if_no_progress refine Keeps.mk' ?_ rfl rfl | dsimp only | split)

theorem State.flushN_keeps {s0 : State} (x1 : Nat) (x2 : Nat) (x3 : Nat) {x4 : State} (hx4 : Keeps s0 x4) :
    Keeps s0 (State.flushN x1 x2 x3 x4) := by
  revert hx4
  fun_induction State.flushN x1 x2 x3 x4 <;> (intros; with_reducible repeat' (first
    | assumption | apply_assumption | apply State.releaseQueued_keeps | apply State.dropAt_keeps | apply State.dequeue_keeps))

theorem State.flush_keeps {s0 : State} {x1 : State} (x2 : Nat) (x3 : Nat) (hx1 : Keeps s0 x1) :
    Keeps s0 (State.flush x1 x2 x3) := by
  unfold State.flush
  with_reducible repeat' (first
    | assumption | apply State.withdraw_keeps | apply State.settle_keeps | apply State.flushN_keeps | apply Keeps.ite)

theorem State.portFlush_keeps {s0 : State} {x1 : State} (x2 : Nat) (hx1 : Keeps s0 x1) :
    Keeps s0 (State.portFlush x1 x2) := by
  unfold State.portFlush
  with_reducible repeat' (first
    | assumption | apply State.wr_keeps | apply State.post_keeps | apply State.flush_keeps | refine Keeps.foldl ?_ _ ?_
    | (intro _; intros) | fail_if_no_progress refine Keeps.mk' ?_ rfl rfl)

theorem State.portDown_keeps {s0 : State} {x1 : State} (x2 : Nat) (hx1 : Keeps s0 x1) :
    Keeps s0 (State.portDown x1 x2) := by
  unfold State.portDown
  with_reducible repeat' (first
    | assumption | apply State.settle_keeps | apply State.wr_keeps | apply State.portFlush_keeps | apply Keeps.ite
    | fail_if_no_progress refine Keeps.mk' ?_ rfl rfl)

theorem State.pauseClasses_keeps {s0 : State} {x1 : State} (x2 : Nat) (x3 : Nat) (x4 : Nat → Nat) (hx1 : Keeps s0 x1) :
    Keeps s0 (State.pauseClasses x1 x2 x3 x4) := by
  unfold State.pauseClasses
  with_reducible repeat' (first
    | assumption | apply State.wr_keeps | apply State.stopClasses_keeps | apply Keeps.ite | refine Keeps.foldl ?_ _ ?_ | (intro _; intros)
    | fail_if_no_progress refine Keeps.mk' ?_ rfl rfl)

theorem State.pauseFrame_keeps {s0 : State} {x1 : State} (x2 : Nat) (x3 : Nat) (hx1 : Keeps s0 x1) :
    Keeps s0 (State.pauseFrame x1 x2 x3) := by
  unfold State.pauseFrame
  with_reducible repeat' (first
    | assumption | apply State.inc_keeps | apply State.pauseClasses_keeps | apply Keeps.ite)

theorem State.pfcFrame_keeps {s0 : State} {x1 : State} (x2 : Nat) (x3 : Nat) (x4 : List Nat) (hx1 : Keeps s0 x1) :
    Keeps s0 (State.pfcFrame x1 x2 x3 x4) := by
  unfold State.pfcFrame
  with_reducible repeat' (first
    | assumption | apply State.pauseClasses_keeps | apply State.inc_keeps)

theorem execPfcFrameReceive_keeps {s0 : State} (x1 : Nat) (x2 : Nat) (x3 : List Nat) {x4 : State} (hx4 : Keeps s0 x4) :
    KO s0 (execPfcFrameReceive x1 x2 x3 x4) := by
  unfold execPfcFrameReceive
  with_reducible repeat' (first
    | assumption | apply State.pfcFrame_keeps | apply KO.ite | apply KO.next)

theorem execPauseFrameReceive_keeps {s0 : State} (x1 : Nat) (x2 : Nat) {x3 : State} (hx3 : Keeps s0 x3) :
    KO s0 (execPauseFrameReceive x1 x2 x3) := by
  unfold execPauseFrameReceive
  with_reducible repeat' (first
    | assumption | apply State.pauseFrame_keeps | apply KO.ite | apply KO.next)

theorem execPauseExpire_keeps {s0 : State} (x1 : Nat) (x2 : Nat) {x3 : State} (hx3 : Keeps s0 x3) :
    KO s0 (execPauseExpire x1 x2 x3) := by
  unfold execPauseExpire
  with_reducible repeat' (first
    | assumption | apply State.wr_keeps | apply State.settle_keeps | apply KO.ite | apply KO.next
    | fail_if_no_progress refine Keeps.mk' ?_ rfl rfl)

theorem State.allocTurn_keeps {s0 : State} {x1 : State} (x2 : Nat) (hx1 : Keeps s0 x1) :
    KM s0 (State.allocTurn x1 x2) := by
  unfold State.allocTurn
  with_reducible repeat' (first
    | assumption | apply KM.ite | apply KM.some | apply KM.none | fail_if_no_progress refine Keeps.mk' ?_ rfl rfl)

theorem State.mirrors_keeps {s0 : State} {x1 : State} (x2 : List Nat) (x3 : Nat) (hx1 : Keeps s0 x1) :
    KF s0 (State.mirrors x1 x2 x3) := by
  unfold State.mirrors
  with_reducible repeat' (first
    | assumption | apply State.selects_keeps | apply State.takeToken_keeps | apply State.countCopy_keeps | refine KF.foldl ?_ _ ?_
    | (intro _; intros) | dsimp only | split)

theorem State.dropCopy_keeps {s0 : State} {x1 : State} (x2 : Sys2Proof.Machine.Dest) (x3 : Nat) (x4 : Nat) (hx1 : Keeps s0 x1) :
    Keeps s0 (State.dropCopy x1 x2 x3 x4) := by
  unfold State.dropCopy
  with_reducible repeat' (first
    | assumption | apply State.dropAt_keeps | apply State.countCopy_keeps | dsimp only | split)

theorem State.newChain_keeps {s0 : State} {x1 : State} (x2 : Nat) (x3 : Nat) (x4 : Sys2Proof.Machine.Packet) (x5 : Option Nat) (hx1 : Keeps s0 x1) :
    KP s0 (State.newChain x1 x2 x3 x4 x5) := by
  unfold State.newChain
  with_reducible repeat' (first
    | assumption | apply State.takeArea_keeps | apply State.setChain_keeps | apply State.syncFree_keeps | apply State.pfcChange_keeps
    | apply State.xputAll_keeps | apply Keeps.ite)

theorem State.offer_keeps {s0 : State} (x1 : Nat) (x2 : Sys2Proof.Machine.Packet) (x3 : Option Nat) {x4 : Sys2Proof.Machine.State × Sys2Proof.Machine.Admitted} (x5 : Sys2Proof.Machine.Dest) (hx4 : KF s0 x4) :
    KF s0 (State.offer x1 x2 x3 x4 x5) := by
  unfold State.offer
  with_reducible repeat' (first
    | assumption | apply State.countCopy_keeps | apply State.dropCopy_keeps | apply State.takeRef_keeps | apply State.inc_keeps
    | apply State.addSat_keeps | apply State.newChain_keeps | apply Keeps.ite | refine Keeps.ofInr ?_ (by assumption) | dsimp only
    | split)

theorem State.accept_keeps {s0 : State} {x1 : State} (x2 : Nat) (x3 : Sys2Proof.Machine.Packet) (x4 : Option Nat) (x5 : List Sys2Proof.Machine.Dest) (hx1 : Keeps s0 x1) :
    KF s0 (State.accept x1 x2 x3 x4 x5) := by
  unfold State.accept
  with_reducible repeat' (first
    | assumption | apply State.offer_keeps | refine KF.foldl ?_ _ ?_ | fail_if_no_progress refine Keeps.mk' ?_ rfl rfl | dsimp only
    | split)

theorem execPacketAdmit_keeps {s0 : State} (x1 : Nat) {x2 : State} (hx2 : Keeps s0 x2) :
    KO s0 (execPacketAdmit x1 x2) := by
  unfold execPacketAdmit
  with_reducible repeat' (first
    | assumption | apply State.allocTurn_keeps | apply State.setDir_keeps | apply State.mirrors_keeps | apply State.accept_keeps
    | apply State.inc_keeps | apply KO.ite | apply KO.next | fail_if_no_progress refine Keeps.mk' ?_ rfl rfl
    | refine Keeps.ofSome ?_ (by assumption) | dsimp only | split)

theorem State.sendRequest_keeps {s0 : State} {x1 : State} (x2 : Nat) (hx1 : Keeps s0 x1) :
    Keeps s0 (State.sendRequest x1 x2) := by
  unfold State.sendRequest
  with_reducible repeat' (first
    | assumption | apply State.creditSend_keeps | apply State.setVoq_keeps | apply Keeps.ite)

theorem State.enqueue_keeps {s0 : State} {x1 : State} (x2 : Nat) (x3 : Sys2Proof.Machine.Dest) (hx1 : Keeps s0 x1) :
    Keeps s0 (State.enqueue x1 x2 x3) := by
  unfold State.enqueue
  with_reducible repeat' (first
    | assumption | apply State.setQueue_keeps | apply State.occChange_keeps | apply State.sendRequest_keeps | apply State.setVoq_keeps
    | apply Keeps.ite)

theorem execChainLink_keeps {s0 : State} (x1 : Nat) {x2 : State} (hx2 : Keeps s0 x2) :
    KO s0 (execChainLink x1 x2) := by
  unfold execChainLink
  with_reducible repeat' (first
    | assumption | apply State.setChain_keeps | apply State.injected_keeps | apply State.settle_keeps | apply State.enqueue_keeps
    | apply KO.ite | apply KO.next | refine Keeps.foldl ?_ _ ?_ | (intro _; intros) | fail_if_no_progress refine Keeps.mk' ?_ rfl rfl
    | dsimp only | split)

theorem execPfcRepeat_keeps {s0 : State} (x1 : Nat) (x2 : Nat) {x3 : State} (hx3 : Keeps s0 x3) :
    KO s0 (execPfcRepeat x1 x2 x3) := by
  unfold execPfcRepeat
  with_reducible repeat' (first
    | assumption | apply State.pfcSend_keeps | apply KO.ite | apply KO.next)

theorem execPortHoldExpire_keeps {s0 : State} (x1 : Nat) {x2 : State} (hx2 : Keeps s0 x2) :
    KO s0 (execPortHoldExpire x1 x2) := by
  unfold execPortHoldExpire
  with_reducible repeat' (first
    | assumption | apply State.portFlush_keeps | apply KO.ite | apply KO.next)

theorem State.portUp_keeps {s0 : State} {x1 : State} (x2 : Nat) (hx1 : Keeps s0 x1) :
    Keeps s0 (State.portUp x1 x2) := by
  unfold State.portUp
  with_reducible repeat' (first
    | assumption | apply State.portFlush_keeps | apply State.settle_keeps | apply State.wr_keeps | apply Keeps.ite
    | fail_if_no_progress refine Keeps.mk' ?_ rfl rfl)

theorem State.setBucket_keeps {s0 : State} {x1 : State} (x2 : Nat) (x3 : Sys2Proof.Machine.Bucket) (hx1 : Keeps s0 x1) :
    Keeps s0 (State.setBucket x1 x2 x3) := by
  unfold State.setBucket
  with_reducible repeat' (first
    | assumption | fail_if_no_progress refine Keeps.mk' ?_ rfl rfl)

theorem State.syncBuckets_keeps {s0 : State} {x1 : State} (hx1 : Keeps s0 x1) :
    Keeps s0 (State.syncBuckets x1) := by
  unfold State.syncBuckets
  with_reducible repeat' (first
    | assumption | apply State.wr_keeps | refine Keeps.foldl ?_ _ ?_ | (intro _; intros))

theorem State.moveBucket_keeps {s0 : State} {x1 : State} (x2 : Nat) (x3 : Option Nat) (hx1 : Keeps s0 x1) :
    Keeps s0 (State.moveBucket x1 x2 x3) := by
  unfold State.moveBucket
  with_reducible repeat' (first
    | assumption | apply State.setBucket_keeps)

theorem State.rebuild_keeps {s0 : State} {x1 : State} (x2 : Nat) (hx1 : Keeps s0 x1) :
    Keeps s0 (State.rebuild x1 x2) := by
  unfold State.rebuild
  with_reducible repeat' (first
    | assumption | apply State.syncBuckets_keeps | apply State.setBucket_keeps | apply State.moveBucket_keeps | apply Keeps.ite
    | refine Keeps.foldl ?_ _ ?_ | (intro _; intros) | dsimp only | split)

theorem State.reachChanged_keeps {s0 : State} {x1 : State} {x2 : State} (x3 : Nat) (hx1 : Keeps s0 x1) (hx2 : Keeps s0 x2) :
    Keeps s0 (State.reachChanged x1 x2 x3) := by
  unfold State.reachChanged
  with_reducible repeat' (first
    | assumption | apply State.setBucket_keeps | apply State.post_keeps | apply State.rebuild_keeps | apply Keeps.ite
    | refine Keeps.foldl ?_ _ ?_ | (intro _; intros) | fail_if_no_progress refine Keeps.mk' ?_ rfl rfl)

theorem State.rebalance_keeps {s0 : State} {x1 : State} (hx1 : Keeps s0 x1) :
    Keeps s0 (State.rebalance x1) := by
  unfold State.rebalance
  with_reducible repeat' (first
    | assumption | apply State.moveBucket_keeps | apply Keeps.ite | split)

theorem State.tryRestore_keeps {s0 : State} {x1 : State} (x2 : Nat) (hx1 : Keeps s0 x1) :
    Keeps s0 (State.tryRestore x1 x2) := by
  unfold State.tryRestore
  with_reducible repeat' (first
    | assumption | apply State.wr_keeps | apply State.post_keeps | apply State.rebalance_keeps | apply State.reachChanged_keeps
    | apply Keeps.ite | refine Keeps.foldl ?_ _ ?_ | (intro _; intros))

theorem State.tryOut_keeps {s0 : State} {x1 : State} (x2 : Nat) (hx1 : Keeps s0 x1) :
    Keeps s0 (State.tryOut x1 x2) := by
  unfold State.tryOut
  with_reducible repeat' (first
    | assumption | apply State.tryRestore_keeps | apply State.post_keeps | apply State.wr_keeps | apply Keeps.ite)

theorem State.drainLink_keeps {s0 : State} {x1 : State} (x2 : Nat) (x3 : Nat) (hx1 : Keeps s0 x1) :
    Keeps s0 (State.drainLink x1 x2 x3) := by
  unfold State.drainLink
  with_reducible repeat' (first
    | assumption | apply State.wr_keeps | apply State.reachChanged_keeps | apply State.tryOut_keeps | apply State.moveBucket_keeps
    | apply Keeps.ite | refine Keeps.foldl ?_ _ ?_ | (intro _; intros) | fail_if_no_progress refine Keeps.mk' ?_ rfl rfl)

theorem State.writeLinkCtl_keeps {s0 : State} {x1 : State} (x2 : Nat) (x3 : Bool) (x4 : Bool) (hx1 : Keeps s0 x1) :
    Keeps s0 (State.writeLinkCtl x1 x2 x3 x4) := by
  unfold State.writeLinkCtl
  with_reducible repeat' (first
    | assumption | apply State.drainLink_keeps | apply State.wr_keeps | apply State.tryRestore_keeps | apply Keeps.ite)

theorem State.setEnt_keeps {s0 : State} {x1 : State} (x2 : Nat) (x3 : Nat) (x4 : Nat) (x5 : Nat) (hx1 : Keeps s0 x1) :
    Keeps s0 (State.setEnt x1 x2 x3 x4 x5) := by
  unfold State.setEnt
  with_reducible repeat' (first
    | assumption | apply Keeps.ite | fail_if_no_progress refine Keeps.mk' ?_ rfl rfl)

theorem State.writeEnt_keeps {s0 : State} {x1 : State} (x2 : Nat) (x3 : Nat) (x4 : Nat) (x5 : Nat) (hx1 : Keeps s0 x1) :
    KP s0 (State.writeEnt x1 x2 x3 x4 x5) := by
  unfold State.writeEnt
  with_reducible repeat' (first
    | assumption | apply State.setEnt_keeps | apply State.occChange_keeps | apply State.settle_keeps | apply State.rebuild_keeps
    | apply State.reachChanged_keeps | apply Keeps.ite | apply KP.ite | fail_if_no_progress refine Keeps.mk' ?_ rfl rfl | dsimp only
    | split)

theorem State.tcmd_keeps {s0 : State} {x1 : State} (x2 : Sys2Proof.Machine.Path) (x3 : Bool) (x4 : Bool) (hx1 : Keeps s0 x1) :
    Keeps s0 (State.tcmd x1 x2 x3 x4) := by
  unfold State.tcmd
  with_reducible repeat' (first
    | assumption | apply State.writeEnt_keeps | apply State.wr_keeps | apply Keeps.ite)

theorem State.setTxq_keeps {s0 : State} {x1 : State} (x2 : Nat) (x3 : List Sys2Proof.Machine.TxCell) (hx1 : Keeps s0 x1) :
    Keeps s0 (State.setTxq x1 x2 x3) := by
  unfold State.setTxq
  with_reducible repeat' (first
    | assumption | apply State.wr_keeps | fail_if_no_progress refine Keeps.mk' ?_ rfl rfl)

theorem State.tryDelay_keeps {s0 : State} {x1 : State} (x2 : Nat) (hx1 : Keeps s0 x1) :
    Keeps s0 (State.tryDelay x1 x2) := by
  unfold State.tryDelay
  with_reducible repeat' (first
    | assumption | apply State.setBucket_keeps | apply Keeps.ite)

theorem State.defectLink_keeps {s0 : State} {x1 : State} (x2 : Nat) (x3 : Nat) (hx1 : Keeps s0 x1) :
    Keeps s0 (State.defectLink x1 x2 x3) := by
  unfold State.defectLink
  with_reducible repeat' (first
    | assumption | apply State.setTxq_keeps | apply State.release_keeps | apply State.dropAt_keeps | apply State.drainLink_keeps
    | apply State.tryDelay_keeps | refine Keeps.foldl ?_ _ ?_ | (intro _; intros))

theorem State.takeGrant_keeps {s0 : State} {x1 : State} (x2 : Nat) (x3 : Nat) (x4 : Nat) (hx1 : Keeps s0 x1) :
    Keeps s0 (State.takeGrant x1 x2 x3 x4) := by
  unfold State.takeGrant
  with_reducible repeat' (first
    | assumption | apply State.inc_keeps | apply State.setVoq_keeps | apply Keeps.ite)

theorem State.fillFlows_keeps {s0 : State} (x1 : Nat) {x2 : State} (hx2 : Keeps s0 x2) :
    Keeps s0 (State.fillFlows x1 x2) := by
  revert hx2
  fun_induction State.fillFlows x1 x2 <;> (intros; with_reducible repeat' (first
    | assumption | apply_assumption | fail_if_no_progress refine Keeps.mk' ?_ rfl rfl))

theorem State.checkFlow_keeps {s0 : State} {x1 : State} (x2 : Nat) (hx1 : Keeps s0 x1) :
    Keeps s0 (State.checkFlow x1 x2) := by
  unfold State.checkFlow
  with_reducible repeat' (first
    | assumption | apply State.fillFlows_keeps | apply Keeps.ite | fail_if_no_progress refine Keeps.mk' ?_ rfl rfl | dsimp only | split)

theorem State.onFlow_keeps {s0 : State} {x1 : State} (x2 : Nat) (x3 : Sys2Proof.Machine.Flow → Sys2Proof.Machine.Flow) (hx1 : Keeps s0 x1) :
    Keeps s0 (State.onFlow x1 x2 x3) := by
  unfold State.onFlow
  with_reducible repeat' (first
    | assumption | apply State.checkFlow_keeps | fail_if_no_progress refine Keeps.mk' ?_ rfl rfl | dsimp only | split)

theorem State.takeRequest_keeps {s0 : State} {x1 : State} (x2 : Nat) (x3 : Nat) (hx1 : Keeps s0 x1) :
    Keeps s0 (State.takeRequest x1 x2 x3) := by
  unfold State.takeRequest
  with_reducible repeat' (first
    | assumption | apply State.onFlow_keeps | apply State.inc_keeps | apply Keeps.ite | fail_if_no_progress refine Keeps.mk' ?_ rfl rfl)

theorem State.takeEmpty_keeps {s0 : State} {x1 : State} (x2 : Nat) (x3 : Nat) (x4 : Nat) (hx1 : Keeps s0 x1) :
    Keeps s0 (State.takeEmpty x1 x2 x3 x4) := by
  unfold State.takeEmpty
  with_reducible repeat' (first
    | assumption | apply State.onFlow_keeps)

theorem State.takeCredit_keeps {s0 : State} {x1 : State} (x2 : List Nat) (x3 : List Nat) (hx1 : Keeps s0 x1) :
    Keeps s0 (State.takeCredit x1 x2 x3) := by
  unfold State.takeCredit
  with_reducible repeat' (first
    | assumption | apply State.inc_keeps | apply State.takeGrant_keeps | apply State.takeRequest_keeps | apply State.takeEmpty_keeps
    | apply Keeps.ite | split)

theorem execGrantReceive_keeps {s0 : State} (x1 : List Nat) {x2 : State} (hx2 : Keeps s0 x2) :
    KO s0 (execGrantReceive x1 x2) := by
  unfold execGrantReceive
  with_reducible repeat' (first
    | assumption | apply State.takeCredit_keeps | apply KO.next)

theorem execRequestReceive_keeps {s0 : State} (x1 : List Nat) {x2 : State} (hx2 : Keeps s0 x2) :
    KO s0 (execRequestReceive x1 x2) := by
  unfold execRequestReceive
  with_reducible repeat' (first
    | assumption | apply State.takeCredit_keeps | apply KO.next)

theorem execEmptyReceive_keeps {s0 : State} (x1 : List Nat) {x2 : State} (hx2 : Keeps s0 x2) :
    KO s0 (execEmptyReceive x1 x2) := by
  unfold execEmptyReceive
  with_reducible repeat' (first
    | assumption | apply State.takeCredit_keeps | apply KO.next)

theorem execCreditStaleRequest_keeps {s0 : State} (x1 : Nat) {x2 : State} (hx2 : Keeps s0 x2) :
    KO s0 (execCreditStaleRequest x1 x2) := by
  unfold execCreditStaleRequest
  with_reducible repeat' (first
    | assumption | apply State.sendRequest_keeps | apply KO.ite | apply KO.next)

theorem execCreditLostFlush_keeps {s0 : State} (x1 : Nat) {x2 : State} (hx2 : Keeps s0 x2) :
    KO s0 (execCreditLostFlush x1 x2) := by
  unfold execCreditLostFlush
  with_reducible repeat' (first
    | assumption | apply State.post_keeps | apply State.flush_keeps | apply KO.ite | apply KO.next)

theorem execCreditEarn_keeps {s0 : State} (x1 : Nat) {x2 : State} (hx2 : Keeps s0 x2) :
    KO s0 (execCreditEarn x1 x2) := by
  unfold execCreditEarn
  with_reducible repeat' (first
    | assumption | apply State.onFlow_keeps | apply State.creditSend_keeps | apply KO.ite | apply KO.next
    | fail_if_no_progress refine Keeps.mk' ?_ rfl rfl | dsimp only | split)

theorem execFlowResync_keeps {s0 : State} (x1 : Nat) (x2 : Nat) {x3 : State} (hx3 : Keeps s0 x3) :
    KO s0 (execFlowResync x1 x2 x3) := by
  unfold execFlowResync
  with_reducible repeat' (first
    | assumption | apply State.inc_keeps | apply State.onFlow_keeps | apply State.postRated_keeps | apply KO.ite | apply KO.next
    | dsimp only | split)

theorem State.loseCells_keeps {s0 : State} {x1 : State} (x2 : Nat) (hx1 : Keeps s0 x1) :
    Keeps s0 (State.loseCells x1 x2) := by
  unfold State.loseCells
  with_reducible repeat' (first
    | assumption | apply State.postTwo_keeps | apply State.setChain_keeps | fail_if_no_progress refine Keeps.mk' ?_ rfl rfl)

theorem State.dropRead_keeps {s0 : State} {x1 : State} (x2 : Nat) (x3 : Sys2Proof.Machine.QEnt) (x4 : Nat) (x5 : Bool) (hx1 : Keeps s0 x1) :
    Keeps s0 (State.dropRead x1 x2 x3 x4 x5) := by
  unfold State.dropRead
  with_reducible repeat' (first
    | assumption | apply State.dropAt_keeps | apply State.releaseQueued_keeps | apply State.loseCells_keeps | apply Keeps.ite)

theorem execFabricSchedule_keeps {s0 : State} (x1 : Nat) {x2 : State} (hx2 : Keeps s0 x2) :
    KO s0 (execFabricSchedule x1 x2) := by
  unfold execFabricSchedule
  with_reducible repeat' (first
    | assumption | apply State.setVoq_keeps | apply State.dequeue_keeps | apply State.releaseQueued_keeps | apply State.readMark_keeps
    | apply State.dropRead_keeps | apply State.setChain_keeps | apply State.setTxq_keeps | apply State.countCopy_keeps | apply Keeps.ite
    | apply KO.ite | apply KO.next | fail_if_no_progress refine Keeps.mk' ?_ rfl rfl | dsimp only | split)

theorem execBucketTxqEmpty_keeps {s0 : State} (x1 : Nat) (x2 : Nat) {x3 : State} (hx3 : Keeps s0 x3) :
    KO s0 (execBucketTxqEmpty x1 x2 x3) := by
  unfold execBucketTxqEmpty
  with_reducible repeat' (first
    | assumption | apply State.tryDelay_keeps | apply KO.ite | apply KO.next)

theorem execUnreachExpire_keeps {s0 : State} (x1 : Nat) {x2 : State} (hx2 : Keeps s0 x2) :
    KO s0 (execUnreachExpire x1 x2) := by
  unfold execUnreachExpire
  with_reducible repeat' (first
    | assumption | apply State.flush_keeps | apply KO.ite | apply KO.next | refine Keeps.foldl ?_ _ ?_ | (intro _; intros)
    | fail_if_no_progress refine Keeps.mk' ?_ rfl rfl)

theorem State.takeHead_keeps {s0 : State} {x1 : State} (x2 : Nat) (x3 : Nat) (x4 : Sys2Proof.Machine.QEnt) (hx1 : Keeps s0 x1) :
    Keeps s0 (State.takeHead x1 x2 x3 x4) := by
  unfold State.takeHead
  with_reducible repeat' (first
    | assumption | apply State.charge_keeps | apply State.inc_keeps | apply State.refill_keeps | apply State.dequeue_keeps
    | refine Keeps.foldl ?_ _ ?_ | (intro _; intros))

theorem State.ownBy_keeps {s0 : State} {x1 : State} (x2 : Nat) (x3 : Nat) (hx1 : Keeps s0 x1) :
    Keeps s0 (State.ownBy x1 x2 x3) := by
  unfold State.ownBy
  with_reducible repeat' (first
    | assumption | apply State.setChain_keeps)

theorem State.deliverTo_keeps {s0 : State} {x1 : State} (x2 : Nat) (x3 : Nat) (x4 : Sys2Proof.Machine.QEnt) (hx1 : Keeps s0 x1) :
    Keeps s0 (State.deliverTo x1 x2 x3 x4) := by
  unfold State.deliverTo
  with_reducible repeat' (first
    | assumption | apply State.bridgeBack_keeps | apply State.ownBy_keeps | apply State.putSample_keeps | apply State.releaseQueued_keeps
    | apply Keeps.ite | fail_if_no_progress refine Keeps.mk' ?_ rfl rfl | split)

theorem execEgressSelect_keeps {s0 : State} (x1 : Nat) {x2 : State} (hx2 : Keeps s0 x2) :
    KO s0 (execEgressSelect x1 x2) := by
  unfold execEgressSelect
  with_reducible repeat' (first
    | assumption | apply State.settle_keeps | apply State.takeHead_keeps | apply State.releaseQueued_keeps | apply State.dropAt_keeps
    | apply State.readMark_keeps | apply State.dropRead_keeps | apply State.bridgeBack_keeps | apply State.deliverTo_keeps
    | apply Keeps.ite | apply KO.ite | apply KO.next | fail_if_no_progress refine Keeps.mk' ?_ rfl rfl | dsimp only | split)

theorem State.postTimeStep_keeps {s0 : State} {x1 : State} (hx1 : Keeps s0 x1) :
    Keeps s0 (State.postTimeStep x1) := by
  unfold State.postTimeStep
  with_reducible repeat' (first
    | assumption | apply State.post_keeps)

theorem State.setGate_keeps {s0 : State} {x1 : State} (x2 : Nat) (x3 : Sys2Proof.Machine.Gate) (hx1 : Keeps s0 x1) :
    Keeps s0 (State.setGate x1 x2 x3) := by
  unfold State.setGate
  with_reducible repeat' (first
    | assumption | fail_if_no_progress refine Keeps.mk' ?_ rfl rfl)

theorem State.leadGates_keeps {s0 : State} {x1 : State} (x2 : Nat) (hx1 : Keeps s0 x1) :
    Keeps s0 (State.leadGates x1 x2) := by
  unfold State.leadGates
  with_reducible repeat' (first
    | assumption | apply State.setGate_keeps | apply State.stopClasses_keeps)

theorem State.showStart_keeps {s0 : State} {x1 : State} (x2 : Nat) (x3 : Nat) (hx1 : Keeps s0 x1) :
    Keeps s0 (State.showStart x1 x2 x3) := by
  unfold State.showStart
  with_reducible repeat' (first
    | assumption | apply State.wr_keeps)

theorem State.cancelGate_keeps {s0 : State} {x1 : State} (x2 : Nat) (hx1 : Keeps s0 x1) :
    Keeps s0 (State.cancelGate x1 x2) := by
  unfold State.cancelGate
  with_reducible repeat' (first
    | assumption | apply State.wr_keeps | apply State.setGate_keeps | apply State.showStart_keeps | dsimp only | split)

theorem State.activateGate_keeps {s0 : State} {x1 : State} (x2 : Nat) (hx1 : Keeps s0 x1) :
    Keeps s0 (State.activateGate x1 x2) := by
  unfold State.activateGate
  with_reducible repeat' (first
    | assumption | apply State.post_keeps | apply State.wr_keeps | apply State.setGate_keeps | apply State.showStart_keeps
    | apply Keeps.ite)

theorem State.putGateEntry_keeps {s0 : State} {x1 : State} (x2 : Nat) (x3 : Nat) (x4 : Nat) (x5 : Nat) (hx1 : Keeps s0 x1) :
    KP s0 (State.putGateEntry x1 x2 x3 x4 x5) := by
  unfold State.putGateEntry
  with_reducible repeat' (first
    | assumption | apply State.wr_keeps | apply State.setGate_keeps | apply KP.ite)

theorem State.gateEntry_keeps {s0 : State} {x1 : State} (x2 : Sys2Proof.Machine.Path) (x3 : Nat) (x4 : Bool) (x5 : Bool) (hx1 : Keeps s0 x1) :
    Keeps s0 (State.gateEntry x1 x2 x3 x4 x5) := by
  unfold State.gateEntry
  with_reducible repeat' (first
    | assumption | apply State.putGateEntry_keeps | apply State.wr_keeps | apply Keeps.ite)

theorem execTgListStart_keeps {s0 : State} (x1 : Nat) {x2 : State} (hx2 : Keeps s0 x2) :
    KO s0 (execTgListStart x1 x2) := by
  unfold execTgListStart
  with_reducible repeat' (first
    | assumption | apply State.setGate_keeps | apply State.wr_keeps | apply State.post_keeps | apply KO.ite | apply KO.next | dsimp only
    | split)

theorem execTgSchedulerGate_keeps {s0 : State} (x1 : Nat) {x2 : State} (hx2 : Keeps s0 x2) :
    KO s0 (execTgSchedulerGate x1 x2) := by
  unfold execTgSchedulerGate
  with_reducible repeat' (first
    | assumption | apply State.leadGates_keeps | apply KO.ite | apply KO.next)

end Sys2Proof.Machine
end

