-- ==== Sys2Proof/Laws/KeepsLines.lean ====
section
/-! SUPPORT. That each operation keeps what `Keeps` says: line ports and fabric links. -/
namespace Sys2Proof.Machine

theorem State.txEvent_keeps {s0 : State} {x1 : State} (x2 : Nat) (x3 : Nat) (x4 : Nat) (x5 : Nat) (x6 : Nat) (hx1 : Keeps s0 x1) :
    Keeps s0 (State.txEvent x1 x2 x3 x4 x5 x6) := by
  unfold State.txEvent
  with_reducible repeat' (first
    | assumption | apply State.post_keeps)

theorem State.macDrop_keeps {s0 : State} {x1 : State} (x2 : Nat) (x3 : Sys2Proof.Machine.Packet) (hx1 : Keeps s0 x1) :
    Keeps s0 (State.macDrop x1 x2 x3) := by
  unfold State.macDrop
  with_reducible repeat' (first
    | assumption | apply State.txEvent_keeps | apply Keeps.ite | split)

theorem State.macFlush_keeps {s0 : State} {x1 : State} (x2 : Nat) (hx1 : Keeps s0 x1) :
    Keeps s0 (State.macFlush x1 x2) := by
  unfold State.macFlush
  with_reducible repeat' (first
    | assumption | apply State.setLinePort_keeps | apply State.macDrop_keeps | apply State.inc_keeps | refine Keeps.foldl ?_ _ ?_
    | (intro _; intros) | fail_if_no_progress refine Keeps.mk' ?_ rfl rfl)

theorem State.macCollect_keeps {s0 : State} {x1 : State} (x2 : Nat) (hx1 : Keeps s0 x1) :
    Keeps s0 (State.macCollect x1 x2) := by
  unfold State.macCollect
  with_reducible repeat' (first
    | assumption | apply State.macFlush_keeps | apply State.setLinePort_keeps | apply Keeps.ite
    | fail_if_no_progress refine Keeps.mk' ?_ rfl rfl)

theorem State.dropNoFit_keeps {s0 : State} (x1 : Nat) (x2 : Nat) (x3 : Nat) (x4 : Nat) {x5 : State} (hx5 : Keeps s0 x5) :
    Keeps s0 (State.dropNoFit x1 x2 x3 x4 x5) := by
  induction x4 generalizing x5 with
  | zero => unfold State.dropNoFit; with_reducible repeat' (first
    | assumption)
  | succ n ih =>
    unfold State.dropNoFit
    with_reducible repeat' (first
    | assumption | apply ih | apply State.macDrop_keeps | apply State.inc_keeps | apply State.setLinePort_keeps | apply Keeps.ite
    | dsimp only | split)

theorem State.applyGates_keeps {s0 : State} {x1 : State} (x2 : Nat) (hx1 : Keeps s0 x1) :
    Keeps s0 (State.applyGates x1 x2) := by
  unfold State.applyGates
  with_reducible repeat' (first
    | assumption | apply State.macCollect_keeps | apply State.wr_keeps | apply State.dropNoFit_keeps | apply Keeps.ite
    | refine Keeps.foldl ?_ _ ?_ | (intro _; intros) | split)

theorem State.enableGate_keeps {s0 : State} {x1 : State} (x2 : Nat) (x3 : Bool) (hx1 : Keeps s0 x1) :
    Keeps s0 (State.enableGate x1 x2 x3) := by
  unfold State.enableGate
  with_reducible repeat' (first
    | assumption | apply State.wrBit_keeps | apply State.leadGates_keeps | apply State.applyGates_keeps | apply State.setGate_keeps
    | apply State.settle_keeps | apply State.wr_keeps | apply Keeps.ite)

theorem State.lptStore_keeps {s0 : State} {x1 : State} (x2 : Nat) (x3 : Sys2Proof.Machine.LptWrite) (hx1 : Keeps s0 x1) :
    Keeps s0 (State.lptStore x1 x2 x3) := by
  unfold State.lptStore
  with_reducible repeat' (first
    | assumption | apply State.wr_keeps)

theorem State.leaveUp_keeps {s0 : State} {x1 : State} (x2 : Nat) (hx1 : Keeps s0 x1) :
    Keeps s0 (State.leaveUp x1 x2) := by
  unfold State.leaveUp
  with_reducible repeat' (first
    | assumption | apply State.setLinePort_keeps | apply Keeps.ite)

theorem State.endPauses_keeps {s0 : State} {x1 : State} (x2 : Nat) (hx1 : Keeps s0 x1) :
    Keeps s0 (State.endPauses x1 x2) := by
  unfold State.endPauses
  with_reducible repeat' (first
    | assumption | apply State.wr_keeps | fail_if_no_progress refine Keeps.mk' ?_ rfl rfl)

theorem State.setLane_keeps {s0 : State} {x1 : State} (x2 : Nat) (x3 : Sys2Proof.Machine.Lane) (hx1 : Keeps s0 x1) :
    Keeps s0 (State.setLane x1 x2 x3) := by
  unfold State.setLane
  with_reducible repeat' (first
    | assumption | fail_if_no_progress refine Keeps.mk' ?_ rfl rfl)

theorem State.adaptStart_keeps {s0 : State} {x1 : State} (x2 : Nat) (hx1 : Keeps s0 x1) :
    Keeps s0 (State.adaptStart x1 x2) := by
  unfold State.adaptStart
  with_reducible repeat' (first
    | assumption | apply State.setLane_keeps | apply State.inc_keeps | apply Keeps.ite)

theorem State.laneStop_keeps {s0 : State} {x1 : State} (x2 : Nat) (hx1 : Keeps s0 x1) :
    Keeps s0 (State.laneStop x1 x2) := by
  unfold State.laneStop
  with_reducible repeat' (first
    | assumption | apply State.wr_keeps | apply State.setLane_keeps)

theorem State.laneTo_keeps {s0 : State} {x1 : State} (x2 : Nat) (x3 : Nat) (hx1 : Keeps s0 x1) :
    Keeps s0 (State.laneTo x1 x2 x3) := by
  unfold State.laneTo
  with_reducible repeat' (first
    | assumption | apply State.wr_keeps | apply State.adaptStart_keeps | apply State.laneStop_keeps | apply State.setLane_keeps
    | apply Keeps.ite | dsimp only | split)

theorem State.portStat_keeps {s0 : State} {x1 : State} (x2 : Nat) (hx1 : Keeps s0 x1) :
    Keeps s0 (State.portStat x1 x2) := by
  unfold State.portStat
  with_reducible repeat' (first
    | assumption | apply State.wr_keeps | apply State.wrBit_keeps)

theorem State.portOff_keeps {s0 : State} {x1 : State} (x2 : Nat) (hx1 : Keeps s0 x1) :
    Keeps s0 (State.portOff x1 x2) := by
  unfold State.portOff
  with_reducible repeat' (first
    | assumption | apply State.leaveUp_keeps | apply State.wr_keeps | apply State.macFlush_keeps | apply State.endPauses_keeps
    | apply State.post_keeps | apply State.portDown_keeps | apply State.setLinePort_keeps | apply State.laneTo_keeps
    | apply State.portStat_keeps | refine Keeps.foldl ?_ _ ?_ | (intro _; intros))

theorem State.laneRateTo_keeps {s0 : State} {x1 : State} (x2 : Nat) (x3 : Nat) (hx1 : Keeps s0 x1) :
    Keeps s0 (State.laneRateTo x1 x2 x3) := by
  unfold State.laneRateTo
  with_reducible repeat' (first
    | assumption | apply State.wr_keeps | apply Keeps.ite)

theorem State.stepBack_keeps {s0 : State} {x1 : State} (x2 : Nat) (hx1 : Keeps s0 x1) :
    Keeps s0 (State.stepBack x1 x2) := by
  unfold State.stepBack
  with_reducible repeat' (first
    | assumption | apply State.setLinePort_keeps | apply Keeps.ite)

theorem State.portTouch_keeps {s0 : State} {x1 : State} (x2 : Nat) (hx1 : Keeps s0 x1) :
    Keeps s0 (State.portTouch x1 x2) := by
  unfold State.portTouch
  with_reducible repeat' (first
    | assumption | apply State.stepBack_keeps | apply State.portStat_keeps | apply State.setLinePort_keeps | apply State.leaveUp_keeps
    | apply State.stopClasses_keeps | apply State.wr_keeps | apply State.pfcCatchUp_keeps | apply State.settle_keeps | apply Keeps.ite
    | dsimp only | split)

theorem State.portOn_keeps {s0 : State} {x1 : State} (x2 : Nat) (x3 : Sys2Proof.Machine.LptWrite) (hx1 : Keeps s0 x1) :
    Keeps s0 (State.portOn x1 x2 x3) := by
  unfold State.portOn
  with_reducible repeat' (first
    | assumption | apply State.abandonTest_keeps | apply State.wr_keeps | apply State.lptStore_keeps | apply State.laneTo_keeps
    | apply State.laneRateTo_keeps | apply State.portTouch_keeps | apply State.setLinePort_keeps | refine Keeps.foldl ?_ _ ?_
    | (intro _; intros))

theorem State.writeLptCfg_keeps {s0 : State} {x1 : State} (x2 : Nat) (x3 : Nat) (hx1 : Keeps s0 x1) :
    Keeps s0 (State.writeLptCfg x1 x2 x3) := by
  unfold State.writeLptCfg
  with_reducible repeat' (first
    | assumption | apply State.lptStore_keeps | apply State.portOff_keeps | apply State.portOn_keeps | apply State.wr_keeps
    | apply Keeps.ite)

theorem State.writeLptTx_keeps {s0 : State} {x1 : State} (x2 : Nat) (x3 : Bool) (x4 : Nat) (hx1 : Keeps s0 x1) :
    Keeps s0 (State.writeLptTx x1 x2 x3 x4) := by
  unfold State.writeLptTx
  with_reducible repeat' (first
    | assumption | apply State.wr_keeps | apply State.portTouch_keeps | apply State.wrBit_keeps | apply Keeps.ite)

theorem State.writeTxEq_keeps {s0 : State} {x1 : State} (x2 : Nat) (x3 : Nat) (hx1 : Keeps s0 x1) :
    Keeps s0 (State.writeTxEq x1 x2 x3) := by
  unfold State.writeTxEq
  with_reducible repeat' (first
    | assumption | apply State.wr_keeps | apply Keeps.ite)

theorem State.fecCount_keeps {s0 : State} {x1 : State} (x2 : Nat) (x3 : Nat) (x4 : Nat) (x5 : Nat) (hx1 : Keeps s0 x1) :
    Keeps s0 (State.fecCount x1 x2 x3 x4 x5) := by
  unfold State.fecCount
  with_reducible repeat' (first
    | assumption | apply State.addSat_keeps | apply Keeps.ite)

theorem State.macControl_keeps {s0 : State} {x1 : State} (x2 : Nat) (x3 : List Nat) (hx1 : Keeps s0 x1) :
    Keeps s0 (State.macControl x1 x2 x3) := by
  unfold State.macControl
  with_reducible repeat' (first
    | assumption | apply State.pauseFrame_keeps | apply State.pfcFrame_keeps | apply State.inc_keeps | split)

theorem State.macPass_keeps {s0 : State} {x1 : State} (x2 : Nat) (x3 : List Nat) (x4 : Nat) (hx1 : Keeps s0 x1) :
    Keeps s0 (State.macPass x1 x2 x3 x4) := by
  unfold State.macPass
  with_reducible repeat' (first
    | assumption | apply State.addSat_keeps | apply State.inc_keeps | fail_if_no_progress refine Keeps.mk' ?_ rfl rfl)

theorem State.macTake_keeps {s0 : State} {x1 : State} (x2 : Nat) (x3 : List Nat) (x4 : Nat) (x5 : Bool) (x6 : Bool) (hx1 : Keeps s0 x1) :
    Keeps s0 (State.macTake x1 x2 x3 x4 x5 x6) := by
  unfold State.macTake
  with_reducible repeat' (first
    | assumption | apply State.inc_keeps | apply State.macControl_keeps | apply State.macPass_keeps | apply Keeps.ite)

theorem State.lineOverflow_keeps {s0 : State} {x1 : State} (x2 : Nat) (x3 : Nat) (hx1 : Keeps s0 x1) :
    Keeps s0 (State.lineOverflow x1 x2 x3) := by
  unfold State.lineOverflow
  with_reducible repeat' (first
    | assumption | apply State.post_keeps | apply State.inc_keeps | apply Keeps.ite)

theorem execFrameReceive_keeps {s0 : State} (x1 : Nat) (x2 : List Nat) (x3 : Nat) (x4 : Option (Nat × Nat)) (x5 : Bool) (x6 : Nat) (x7 : Nat) (x8 : Nat) {x9 : State} (hx9 : Keeps s0 x9) :
    KO s0 (execFrameReceive x1 x2 x3 x4 x5 x6 x7 x8 x9) := by
  unfold execFrameReceive
  with_reducible repeat' (first
    | assumption | apply State.fecCount_keeps | apply State.macTake_keeps | apply State.lineOverflow_keeps | apply State.inc_keeps
    | apply KO.ite | apply KO.next | dsimp only | split)

theorem State.regate_keeps {s0 : State} {x1 : State} (hx1 : Keeps s0 x1) :
    Keeps s0 (State.regate x1) := by
  unfold State.regate
  with_reducible repeat' (first
    | assumption | apply State.leadGates_keeps | apply State.applyGates_keeps | refine Keeps.foldl ?_ _ ?_ | (intro _; intros))

theorem execTgGateChange_keeps {s0 : State} (x1 : Nat) {x2 : State} (hx2 : Keeps s0 x2) :
    KO s0 (execTgGateChange x1 x2) := by
  unfold execTgGateChange
  with_reducible repeat' (first
    | assumption | apply State.applyGates_keeps | apply KO.ite | apply KO.next)

theorem State.enterDown_keeps {s0 : State} {x1 : State} (x2 : Nat) (x3 : Nat) (hx1 : Keeps s0 x1) :
    Keeps s0 (State.enterDown x1 x2 x3) := by
  unfold State.enterDown
  with_reducible repeat' (first
    | assumption | apply State.leaveUp_keeps | apply State.inc_keeps | apply State.wr_keeps | apply State.setLinePort_keeps
    | apply State.macFlush_keeps | apply State.endPauses_keeps | apply State.post_keeps | apply State.portTouch_keeps
    | apply State.portDown_keeps)

theorem State.dropStored_keeps {s0 : State} {x1 : State} (x2 : Nat) (x3 : Int) (hx1 : Keeps s0 x1) :
    Keeps s0 (State.dropStored x1 x2 x3) := by
  unfold State.dropStored
  with_reducible repeat' (first
    | assumption | apply State.wr_keeps | apply Keeps.ite | split)

theorem State.fullAdapt_keeps {s0 : State} {x1 : State} (x2 : List Nat) (hx1 : Keeps s0 x1) :
    Keeps s0 (State.fullAdapt x1 x2) := by
  unfold State.fullAdapt
  with_reducible repeat' (first
    | assumption | apply State.inc_keeps | refine Keeps.foldl ?_ _ ?_ | (intro _; intros))

theorem State.polStart_keeps {s0 : State} {x1 : State} (x2 : Nat) (hx1 : Keeps s0 x1) :
    Keeps s0 (State.polStart x1 x2) := by
  unfold State.polStart
  with_reducible repeat' (first
    | assumption | apply State.setLane_keeps | apply State.wr_keeps | apply Keeps.ite)

theorem State.setLaneEye_keeps {s0 : State} {x1 : State} (x2 : Nat) (x3 : Nat) (hx1 : Keeps s0 x1) :
    Keeps s0 (State.setLaneEye x1 x2 x3) := by
  unfold State.setLaneEye
  with_reducible repeat' (first
    | assumption | apply State.wr_keeps)

theorem State.laneAdapted_keeps {s0 : State} {x1 : State} (x2 : Nat) (x3 : Nat) (x4 : Nat × Nat) (hx1 : Keeps s0 x1) :
    Keeps s0 (State.laneAdapted x1 x2 x3 x4) := by
  unfold State.laneAdapted
  with_reducible repeat' (first
    | assumption | apply State.setLaneEye_keeps | apply State.wr_keeps | apply State.writeTxEq_keeps | apply Keeps.ite)

theorem State.polKeep_keeps {s0 : State} {x1 : State} (x2 : Nat) (hx1 : Keeps s0 x1) :
    Keeps s0 (State.polKeep x1 x2) := by
  unfold State.polKeep
  with_reducible repeat' (first
    | assumption | apply State.setLane_keeps | apply Keeps.ite)

theorem State.stepEnd_keeps {s0 : State} {x1 : State} (x2 : Nat) (x3 : Nat) (x4 : Int) (x5 : List (Nat × Nat)) (hx1 : Keeps s0 x1) :
    KF s0 (State.stepEnd x1 x2 x3 x4 x5) := by
  unfold State.stepEnd
  with_reducible repeat' (first
    | assumption | apply State.dropStored_keeps | apply State.fullAdapt_keeps | apply State.polStart_keeps | apply State.laneAdapted_keeps
    | apply State.polKeep_keeps | refine Keeps.foldl ?_ _ ?_ | (intro _; intros) | dsimp only | split)

theorem execBringupStepComplete_keeps {s0 : State} (x1 : Nat) (x2 : Int) (x3 : List (Nat × Nat)) (x4 : List Nat) {x5 : State} (hx5 : Keeps s0 x5) :
    KO s0 (execBringupStepComplete x1 x2 x3 x4 x5) := by
  unfold execBringupStepComplete
  with_reducible repeat' (first
    | assumption | apply State.stepEnd_keeps | apply State.setLinePort_keeps | apply State.portTouch_keeps | apply KO.ite | apply KO.next)

theorem State.adaptFail_keeps {s0 : State} {x1 : State} (x2 : Nat) (x3 : Nat) (x4 : Nat) (hx1 : Keeps s0 x1) :
    Keeps s0 (State.adaptFail x1 x2 x3 x4) := by
  unfold State.adaptFail
  with_reducible repeat' (first
    | assumption | apply State.postRated_keeps)

theorem execBringupTimeout_keeps {s0 : State} (x1 : Nat) (x2 : List Nat) {x3 : State} (hx3 : Keeps s0 x3) :
    KO s0 (execBringupTimeout x1 x2 x3) := by
  unfold execBringupTimeout
  with_reducible repeat' (first
    | assumption | apply State.setLinePort_keeps | apply State.fullAdapt_keeps | apply State.adaptFail_keeps | apply State.inc_keeps
    | apply State.portTouch_keeps | apply KO.ite | apply KO.next | refine Keeps.foldl ?_ _ ?_ | (intro _; intros))

theorem execPolaritySearchSwitch_keeps {s0 : State} (x1 : Nat) {x2 : State} (hx2 : Keeps s0 x2) :
    KO s0 (execPolaritySearchSwitch x1 x2) := by
  unfold execPolaritySearchSwitch
  with_reducible repeat' (first
    | assumption | apply State.wrBit_keeps | apply State.setLane_keeps | apply KO.ite | apply KO.next | dsimp only | split)

theorem execFaultPendingExpire_keeps {s0 : State} (x1 : Nat) {x2 : State} (hx2 : Keeps s0 x2) :
    KO s0 (execFaultPendingExpire x1 x2) := by
  unfold execFaultPendingExpire
  with_reducible repeat' (first
    | assumption | apply State.enterDown_keeps | apply KO.ite | apply KO.next)

theorem State.enterUp_keeps {s0 : State} {x1 : State} (x2 : Nat) (hx1 : Keeps s0 x1) :
    Keeps s0 (State.enterUp x1 x2) := by
  unfold State.enterUp
  with_reducible repeat' (first
    | assumption | apply State.setLinePort_keeps | apply State.wr_keeps | apply State.pfcCatchUp_keeps | apply State.portUp_keeps
    | apply State.post_keeps)

theorem execUpDebounceExpire_keeps {s0 : State} (x1 : Nat) {x2 : State} (hx2 : Keeps s0 x2) :
    KO s0 (execUpDebounceExpire x1 x2) := by
  unfold execUpDebounceExpire
  with_reducible repeat' (first
    | assumption | apply State.enterUp_keeps | apply KO.ite | apply KO.next)

theorem State.startFrame_keeps {s0 : State} {x1 : State} (x2 : Nat) (x3 : List Nat) (hx1 : Keeps s0 x1) :
    Keeps s0 (State.startFrame x1 x2 x3) := by
  unfold State.startFrame
  with_reducible repeat' (first
    | assumption | apply State.setLinePort_keeps)

theorem State.fixSum_keeps {s0 : State} {x1 : State} (x2 : List Nat) (x3 : Nat) (x4 : Nat) (hx1 : Keeps s0 x1) :
    KP s0 (State.fixSum x1 x2 x3 x4) := by
  unfold State.fixSum
  with_reducible repeat' (first
    | assumption | apply State.fresh_keeps | apply KP.ite)

theorem State.stampFrame_keeps {s0 : State} {x1 : State} (x2 : Nat) (x3 : Sys2Proof.Machine.Packet) (x4 : List Nat) (hx1 : Keeps s0 x1) :
    KP s0 (State.stampFrame x1 x2 x3 x4) := by
  unfold State.stampFrame
  with_reducible repeat' (first
    | assumption | apply State.inc_keeps | apply State.wr_keeps | apply State.txEvent_keeps | apply State.fixSum_keeps | apply KP.ite
    | dsimp only | split)

theorem execFrameTransmit_keeps {s0 : State} (x1 : Nat) (x2 : Nat) {x3 : State} (hx3 : Keeps s0 x3) :
    KO s0 (execFrameTransmit x1 x2 x3) := by
  unfold execFrameTransmit
  with_reducible repeat' (first
    | assumption | apply State.macCollect_keeps | apply State.startFrame_keeps | apply State.inc_keeps | apply State.setLinePort_keeps
    | apply State.macDrop_keeps | apply State.stampFrame_keeps | apply State.addSat_keeps | apply KO.ite | apply KO.next | dsimp only
    | split)

theorem execLossOfBlockLock_keeps {s0 : State} (x1 : Nat) {x2 : State} (hx2 : Keeps s0 x2) :
    KO s0 (execLossOfBlockLock x1 x2) := by
  unfold execLossOfBlockLock
  with_reducible repeat' (first
    | assumption | apply State.portTouch_keeps | apply State.setLinePort_keeps | apply KO.ite | apply KO.next)

theorem execBlockLockRegained_keeps {s0 : State} (x1 : Nat) {x2 : State} (hx2 : Keeps s0 x2) :
    KO s0 (execBlockLockRegained x1 x2) := by
  unfold execBlockLockRegained
  with_reducible repeat' (first
    | assumption | apply State.portTouch_keeps | apply State.setLinePort_keeps | apply KO.ite | apply KO.next)

theorem execFaultSequenceReceive_keeps {s0 : State} (x1 : Nat) (x2 : Bool) (x3 : Bool) {x4 : State} (hx4 : Keeps s0 x4) :
    KO s0 (execFaultSequenceReceive x1 x2 x3 x4) := by
  unfold execFaultSequenceReceive
  with_reducible repeat' (first
    | assumption | apply State.portTouch_keeps | apply State.setLinePort_keeps | apply KO.ite | apply KO.next)

theorem State.writeSdsCtl_keeps {s0 : State} {x1 : State} (x2 : Nat) (x3 : Nat) (hx1 : Keeps s0 x1) :
    Keeps s0 (State.writeSdsCtl x1 x2 x3) := by
  unfold State.writeSdsCtl
  with_reducible repeat' (first
    | assumption | apply State.wr_keeps | apply State.wrBit_keeps | apply State.setLane_keeps | apply State.laneRateTo_keeps
    | apply State.laneTo_keeps | apply Keeps.ite)

theorem State.setFlink_keeps {s0 : State} {x1 : State} (x2 : Nat) (x3 : Sys2Proof.Machine.FLink) (hx1 : Keeps s0 x1) :
    Keeps s0 (State.setFlink x1 x2 x3) := by
  unfold State.setFlink
  with_reducible repeat' (first
    | assumption | fail_if_no_progress refine Keeps.mk' ?_ rfl rfl)

theorem State.dropPartials_keeps {s0 : State} {x1 : State} (x2 : Nat) (hx1 : Keeps s0 x1) :
    Keeps s0 (State.dropPartials x1 x2) := by
  unfold State.dropPartials
  with_reducible repeat' (first
    | assumption | apply State.addSat_keeps | fail_if_no_progress refine Keeps.mk' ?_ rfl rfl)

theorem State.loseFrame_keeps {s0 : State} {x1 : State} (x2 : Nat) (hx1 : Keeps s0 x1) :
    Keeps s0 (State.loseFrame x1 x2) := by
  unfold State.loseFrame
  with_reducible repeat' (first
    | assumption | apply State.setFlink_keeps | apply State.wr_keeps | apply State.dropPartials_keeps | apply State.inc_keeps
    | apply Keeps.ite)

theorem State.alignTouch_keeps {s0 : State} {x1 : State} (x2 : Nat) (hx1 : Keeps s0 x1) :
    Keeps s0 (State.alignTouch x1 x2) := by
  unfold State.alignTouch
  with_reducible repeat' (first
    | assumption | apply State.loseFrame_keeps | apply State.wrBit_keeps | apply Keeps.ite)

theorem State.setDefect_keeps {s0 : State} {x1 : State} (x2 : Nat) (x3 : Nat) (x4 : Bool) (hx1 : Keeps s0 x1) :
    Keeps s0 (State.setDefect x1 x2 x3 x4) := by
  unfold State.setDefect
  with_reducible repeat' (first
    | assumption | apply State.post_keeps | apply State.wrBit_keeps)

theorem State.suppress_keeps {s0 : State} {x1 : State} (x2 : Nat) (x3 : Nat) (hx1 : Keeps s0 x1) :
    Keeps s0 (State.suppress x1 x2 x3) := by
  unfold State.suppress
  with_reducible repeat' (first
    | assumption | apply State.setDefect_keeps | apply Keeps.ite)

theorem State.integrate_keeps {s0 : State} {x1 : State} (x2 : Nat) (x3 : Nat) (hx1 : Keeps s0 x1) :
    Keeps s0 (State.integrate x1 x2 x3) := by
  unfold State.integrate
  with_reducible repeat' (first
    | assumption | apply State.setFlink_keeps)

theorem State.linkTouch_keeps {s0 : State} {x1 : State} (x2 : Nat) (hx1 : Keeps s0 x1) :
    Keeps s0 (State.linkTouch x1 x2) := by
  unfold State.linkTouch
  with_reducible repeat' (first
    | assumption | apply State.alignTouch_keeps | apply State.suppress_keeps | apply State.integrate_keeps | refine Keeps.foldl ?_ _ ?_
    | (intro _; intros))

theorem State.linkLanesTo_keeps {s0 : State} {x1 : State} (x2 : Nat) (x3 : Nat) (hx1 : Keeps s0 x1) :
    Keeps s0 (State.linkLanesTo x1 x2 x3) := by
  unfold State.linkLanesTo
  with_reducible repeat' (first
    | assumption | apply State.laneTo_keeps | apply State.laneRateTo_keeps | refine Keeps.foldl ?_ _ ?_ | (intro _; intros))

theorem State.setTxDefect_keeps {s0 : State} {x1 : State} (x2 : Nat) (x3 : Nat) (x4 : Nat) (hx1 : Keeps s0 x1) :
    Keeps s0 (State.setTxDefect x1 x2 x3 x4) := by
  unfold State.setTxDefect
  with_reducible repeat' (first
    | assumption | apply State.post_keeps | apply State.wr_keeps)

theorem State.linkClear_keeps {s0 : State} {x1 : State} (x2 : Nat) (hx1 : Keeps s0 x1) :
    Keeps s0 (State.linkClear x1 x2) := by
  unfold State.linkClear
  with_reducible repeat' (first
    | assumption | apply State.loseFrame_keeps | apply State.setDefect_keeps | apply State.setTxDefect_keeps | apply State.setFlink_keeps
    | apply State.wr_keeps | apply Keeps.ite | refine Keeps.foldl ?_ _ ?_ | (intro _; intros))

theorem State.writeFlkCtl_keeps {s0 : State} {x1 : State} (x2 : Nat) (x3 : Nat) (hx1 : Keeps s0 x1) :
    Keeps s0 (State.writeFlkCtl x1 x2 x3) := by
  unfold State.writeFlkCtl
  with_reducible repeat' (first
    | assumption | apply State.wrBit_keeps | apply State.wr_keeps | apply State.abandonTest_keeps | apply State.tryRestore_keeps
    | apply State.linkTouch_keeps | apply State.linkLanesTo_keeps | apply State.linkClear_keeps | apply State.defectLink_keeps
    | apply Keeps.ite)

theorem State.sighting_keeps {s0 : State} {x1 : State} (x2 : Nat) (x3 : Sys2Proof.Machine.Sight) (hx1 : Keeps s0 x1) :
    Keeps s0 (State.sighting x1 x2 x3) := by
  unfold State.sighting
  with_reducible repeat' (first
    | assumption | apply State.wrBit_keeps | apply State.wr_keeps | apply State.setLane_keeps | apply Keeps.ite)

theorem State.markGood_keeps {s0 : State} {x1 : State} (x2 : Nat) (x3 : Nat) (x4 : Nat) (x5 : Nat) (hx1 : Keeps s0 x1) :
    Keeps s0 (State.markGood x1 x2 x3 x4 x5) := by
  unfold State.markGood
  with_reducible repeat' (first
    | assumption | apply State.setLane_keeps | apply State.wr_keeps)

theorem State.laneTouch_keeps {s0 : State} {x1 : State} (x2 : Nat) (hx1 : Keeps s0 x1) :
    Keeps s0 (State.laneTouch x1 x2) := by
  unfold State.laneTouch
  with_reducible repeat' (first
    | assumption | apply State.portTouch_keeps | apply State.linkTouch_keeps | apply Keeps.ite | split)

theorem State.laneLocked_keeps {s0 : State} {x1 : State} (x2 : Nat) (hx1 : Keeps s0 x1) :
    Keeps s0 (State.laneLocked x1 x2) := by
  unfold State.laneLocked
  with_reducible repeat' (first
    | assumption | apply State.polKeep_keeps | apply State.wr_keeps | apply State.laneTouch_keeps | apply State.setLane_keeps)

theorem State.markerAt_keeps {s0 : State} {x1 : State} (x2 : Nat) (x3 : Sys2Proof.Machine.Sight) (hx1 : Keeps s0 x1) :
    Keeps s0 (State.markerAt x1 x2 x3) := by
  unfold State.markerAt
  with_reducible repeat' (first
    | assumption | apply State.sighting_keeps | apply State.wr_keeps | apply State.setLane_keeps | apply State.markGood_keeps
    | apply State.laneLocked_keeps | apply State.laneTouch_keeps | apply State.addSat_keeps | apply State.inc_keeps | apply Keeps.ite
    | dsimp only | split)

theorem State.adaptLate_keeps {s0 : State} {x1 : State} (x2 : Nat) (hx1 : Keeps s0 x1) :
    Keeps s0 (State.adaptLate x1 x2) := by
  unfold State.adaptLate
  with_reducible repeat' (first
    | assumption | apply State.inc_keeps | apply State.setLane_keeps | apply State.adaptFail_keeps | apply Keeps.ite)

theorem execLaneMarker_keeps {s0 : State} (x1 : Nat) (x2 : Bool) (x3 : Bool) (x4 : Nat) (x5 : Nat) (x6 : Nat) (x7 : Nat) (x8 : Nat) (x9 : Nat) (x10 : Nat) {x11 : State} (hx11 : Keeps s0 x11) :
    KO s0 (execLaneMarker x1 x2 x3 x4 x5 x6 x7 x8 x9 x10 x11) := by
  unfold execLaneMarker
  with_reducible repeat' (first
    | assumption | apply State.markerAt_keeps | apply State.setLaneEye_keeps | apply State.adaptLate_keeps | apply KO.ite | apply KO.next)

theorem State.freeze_keeps {s0 : State} {x1 : State} (x2 : Nat) (x3 : Int) (hx1 : Keeps s0 x1) :
    Keeps s0 (State.freeze x1 x2 x3) := by
  unfold State.freeze
  with_reducible repeat' (first
    | assumption | apply State.setLane_keeps | apply State.wr_keeps)

theorem execLossOfSignalSet_keeps {s0 : State} (x1 : Nat) (x2 : Nat) (x3 : Int) {x4 : State} (hx4 : Keeps s0 x4) :
    KO s0 (execLossOfSignalSet x1 x2 x3 x4) := by
  unfold execLossOfSignalSet
  with_reducible repeat' (first
    | assumption | apply State.laneTouch_keeps | apply State.freeze_keeps | apply State.inc_keeps | apply State.wr_keeps | apply KO.ite
    | apply KO.next)

theorem State.thaw_keeps {s0 : State} {x1 : State} (x2 : Nat) (x3 : Int) (hx1 : Keeps s0 x1) :
    Keeps s0 (State.thaw x1 x2 x3) := by
  unfold State.thaw
  with_reducible repeat' (first
    | assumption | apply State.laneTouch_keeps | apply State.adaptStart_keeps | apply State.dropStored_keeps)

theorem execLossOfSignalClear_keeps {s0 : State} (x1 : Nat) (x2 : Nat) (x3 : Int) {x4 : State} (hx4 : Keeps s0 x4) :
    KO s0 (execLossOfSignalClear x1 x2 x3 x4) := by
  unfold execLossOfSignalClear
  with_reducible repeat' (first
    | assumption | apply State.thaw_keeps | apply State.wr_keeps | apply KO.ite | apply KO.next)

theorem execLossOfLockSet_keeps {s0 : State} (x1 : Nat) (x2 : Bool) (x3 : Int) (x4 : Int) {x5 : State} (hx5 : Keeps s0 x5) :
    KO s0 (execLossOfLockSet x1 x2 x3 x4 x5) := by
  unfold execLossOfLockSet
  with_reducible repeat' (first
    | assumption | apply State.laneTouch_keeps | apply State.freeze_keeps | apply State.inc_keeps | apply State.wr_keeps | apply KO.ite
    | apply KO.next)

theorem execLossOfLockClear_keeps {s0 : State} (x1 : Nat) (x2 : Int) {x3 : State} (hx3 : Keeps s0 x3) :
    KO s0 (execLossOfLockClear x1 x2 x3) := by
  unfold execLossOfLockClear
  with_reducible repeat' (first
    | assumption | apply State.thaw_keeps | apply State.wr_keeps | apply KO.ite | apply KO.next)

theorem State.takeRdi_keeps {s0 : State} {x1 : State} (x2 : Nat) (x3 : Nat) (x4 : Nat) (hx1 : Keeps s0 x1) :
    Keeps s0 (State.takeRdi x1 x2 x3 x4) := by
  unfold State.takeRdi
  with_reducible repeat' (first
    | assumption | apply State.setFlink_keeps | apply State.setTxDefect_keeps | apply State.defectLink_keeps
    | apply State.tryRestore_keeps | apply Keeps.ite)

theorem State.acceptPsr_keeps {s0 : State} {x1 : State} (x2 : Nat) (x3 : Nat) (hx1 : Keeps s0 x1) :
    Keeps s0 (State.acceptPsr x1 x2 x3) := by
  unfold State.acceptPsr
  with_reducible repeat' (first
    | assumption | apply State.post_keeps | apply State.wr_keeps | apply State.drainLink_keeps | apply Keeps.ite)

theorem State.takePsr_keeps {s0 : State} {x1 : State} (x2 : Nat) (x3 : Nat) (hx1 : Keeps s0 x1) :
    Keeps s0 (State.takePsr x1 x2 x3) := by
  unfold State.takePsr
  with_reducible repeat' (first
    | assumption | apply State.inc_keeps | apply State.setFlink_keeps | apply State.acceptPsr_keeps | apply Keeps.ite)

theorem State.takeId_keeps {s0 : State} {x1 : State} (x2 : Nat) (x3 : Nat) (x4 : Nat) (x5 : Nat) (hx1 : Keeps s0 x1) :
    Keeps s0 (State.takeId x1 x2 x3 x4 x5) := by
  unfold State.takeId
  with_reducible repeat' (first
    | assumption | apply State.setFlink_keeps | apply State.post_keeps | apply State.wr_keeps | apply Keeps.ite)

theorem State.takeOverhead_keeps {s0 : State} {x1 : State} (x2 : Nat) (x3 : List Nat) (hx1 : Keeps s0 x1) :
    Keeps s0 (State.takeOverhead x1 x2 x3) := by
  unfold State.takeOverhead
  with_reducible repeat' (first
    | assumption | apply State.wr_keeps | apply State.takeRdi_keeps | apply State.takePsr_keeps | apply State.takeId_keeps)

theorem State.takeCredits_keeps {s0 : State} {x1 : State} (x2 : List Nat) (hx1 : Keeps s0 x1) :
    Keeps s0 (State.takeCredits x1 x2) := by
  unfold State.takeCredits
  with_reducible repeat' (first
    | assumption | apply State.takeCredit_keeps | refine Keeps.foldl ?_ _ ?_ | (intro _; intros))

theorem State.takeFrame_keeps {s0 : State} {x1 : State} (x2 : Nat) (x3 : List Nat) (x4 : Nat) (hx1 : Keeps s0 x1) :
    Keeps s0 (State.takeFrame x1 x2 x3 x4) := by
  unfold State.takeFrame
  with_reducible repeat' (first
    | assumption | apply State.setFlink_keeps | apply State.takeOverhead_keeps | apply State.inc_keeps | apply State.takeCredits_keeps
    | apply Keeps.ite)

theorem State.hunt_keeps {s0 : State} {x1 : State} (x2 : Nat) (x3 : Bool) (hx1 : Keeps s0 x1) :
    Keeps s0 (State.hunt x1 x2 x3) := by
  unfold State.hunt
  with_reducible repeat' (first
    | assumption | apply State.setFlink_keeps | apply State.wr_keeps | apply Keeps.ite)

theorem execFabricFrameReceive_keeps {s0 : State} (x1 : Nat) (x2 : List Nat) (x3 : Nat) (x4 : Nat) (x5 : Nat) {x6 : State} (hx6 : Keeps s0 x6) :
    KO s0 (execFabricFrameReceive x1 x2 x3 x4 x5 x6) := by
  unfold execFabricFrameReceive
  with_reducible repeat' (first
    | assumption | apply State.setFlink_keeps | apply State.linkTouch_keeps | apply State.loseFrame_keeps | apply State.takeFrame_keeps
    | apply State.hunt_keeps | apply KO.ite | apply KO.next)

theorem State.setCtx_keeps {s0 : State} {x1 : State} (x2 : Nat) (x3 : Sys2Proof.Machine.Ctx) (hx1 : Keeps s0 x1) :
    Keeps s0 (State.setCtx x1 x2 x3) := by
  unfold State.setCtx
  with_reducible repeat' (first
    | assumption | fail_if_no_progress refine Keeps.mk' ?_ rfl rfl)

theorem State.flowBytes_keeps {s0 : State} {x1 : State} (x2 : Nat) (x3 : List Nat) (x4 : Nat) (hx1 : Keeps s0 x1) :
    Keeps s0 (State.flowBytes x1 x2 x3 x4) := by
  unfold State.flowBytes
  with_reducible repeat' (first
    | assumption | apply State.onFlow_keeps)

theorem State.deliverRec_keeps {s0 : State} {x1 : State} (x2 : Nat) (x3 : Option Nat) (x4 : List Nat) (hx1 : Keeps s0 x1) :
    Keeps s0 (State.deliverRec x1 x2 x3 x4) := by
  unfold State.deliverRec
  with_reducible repeat' (first
    | assumption | fail_if_no_progress refine Keeps.mk' ?_ rfl rfl)

theorem State.takeCont_keeps {s0 : State} {x1 : State} (x2 : Sys2Proof.Machine.CellHead) (x3 : List Nat) (hx1 : Keeps s0 x1) :
    Keeps s0 (State.takeCont x1 x2 x3) := by
  unfold State.takeCont
  with_reducible repeat' (first
    | assumption | apply State.inc_keeps | apply State.setCtx_keeps | apply State.flowBytes_keeps | apply State.deliverRec_keeps
    | apply Keeps.ite)

theorem State.takeRecs_keeps {s0 : State} (x1 : Sys2Proof.Machine.CellHead) (x2 : Nat) (x3 : List Nat) {x4 : State} (hx4 : Keeps s0 x4) :
    Keeps s0 (State.takeRecs x1 x2 x3 x4) := by
  induction x2 generalizing x3 x4 with
  | zero => unfold State.takeRecs; with_reducible repeat' (first
    | assumption)
  | succ n ih =>
    unfold State.takeRecs
    with_reducible repeat' (first
    | assumption | apply ih | apply State.inc_keeps | apply State.flowBytes_keeps | apply State.deliverRec_keeps
    | apply State.setCtx_keeps | apply Keeps.ite)

theorem State.takeCell__keeps {s0 : State} {x1 : State} (x2 : Nat) (x3 : List Nat) (hx1 : Keeps s0 x1) :
    Keeps s0 (State.takeCell_ x1 x2 x3) := by
  unfold State.takeCell_
  with_reducible repeat' (first
    | assumption | apply State.inc_keeps | apply State.setCtx_keeps | apply State.takeCont_keeps | apply State.takeRecs_keeps
    | apply Keeps.ite)

theorem execFabricCellReceive_keeps {s0 : State} (x1 : Nat) (x2 : List Nat) (x3 : Option Nat) {x4 : State} (hx4 : Keeps s0 x4) :
    KO s0 (execFabricCellReceive x1 x2 x3 x4) := by
  unfold execFabricCellReceive
  with_reducible repeat' (first
    | assumption | apply State.inc_keeps | apply State.post_keeps | apply State.setFlink_keeps | apply State.takeCell__keeps
    | apply Keeps.ite | apply KO.ite | apply KO.next | dsimp only | split)

theorem State.dropCredits_keeps {s0 : State} {x1 : State} (hx1 : Keeps s0 x1) :
    Keeps s0 (State.dropCredits x1) := by
  unfold State.dropCredits
  with_reducible repeat' (first
    | assumption | apply State.addSat_keeps | fail_if_no_progress refine Keeps.mk' ?_ rfl rfl)

theorem State.sendCredits_keeps {s0 : State} (x1 : Nat) (x2 : Nat) (x3 : List CreditMsg) {x4 : State} (hx4 : Keeps s0 x4) :
    Keeps s0 (State.sendCredits x1 x2 x3 x4).2.2 := by
  induction x3 generalizing x2 x4 with
  | nil => cases x2 <;> exact hx4
  | cons e l ih =>
    cases x2 with
    | zero => exact hx4
    | succ n =>
      unfold State.sendCredits
      dsimp only
      repeat' (first
        | with_reducible assumption
        | with_reducible apply ih
        | with_reducible apply State.inc_keeps
        | with_reducible apply Keeps.ite
        | fail_if_no_progress with_reducible refine Keeps.mk' ?_ rfl rfl
        | dsimp only
        | split)

theorem State.padded_keeps {s0 : State} {x1 : State} (x2 : List Nat) (hx1 : Keeps s0 x1) :
    KP s0 (State.padded x1 x2) := by
  unfold State.padded
  with_reducible repeat' (first
    | assumption | apply State.fresh_keeps)

theorem State.sendSlot_keeps {s0 : State} (x1 : Nat) {x2 : List (List Nat) × Sys2Proof.Machine.State} (x3 : Nat) (hx2 : KP s0 x2) :
    KP s0 (State.sendSlot x1 x2 x3) := by
  unfold State.sendSlot
  with_reducible repeat' (first
    | assumption | apply State.padded_keeps | apply State.setTxq_keeps | apply State.inc_keeps | apply Keeps.ite
    | fail_if_no_progress refine Keeps.mk' ?_ rfl rfl | dsimp only | split)

theorem execFabricFrameTransmit_keeps {s0 : State} (x1 : Nat) {x2 : State} (hx2 : Keeps s0 x2) :
    KO s0 (execFabricFrameTransmit x1 x2) := by
  unfold execFabricFrameTransmit
  with_reducible repeat' (first
    | assumption | apply State.dropCredits_keeps | apply State.wr_keeps | apply State.sendCredits_keeps | apply State.sendSlot_keeps
    | apply State.setFlink_keeps | apply KO.ite | apply KO.next | refine KP.foldl ?_ _ ?_
    | fail_if_no_progress refine Keeps.mk' ?_ rfl rfl | split)

theorem execDefectDeclare_keeps {s0 : State} (x1 : Nat) (x2 : Nat) {x3 : State} (hx3 : Keeps s0 x3) :
    KO s0 (execDefectDeclare x1 x2 x3) := by
  unfold execDefectDeclare
  with_reducible repeat' (first
    | assumption | apply State.linkTouch_keeps | apply State.dropPartials_keeps | apply State.setDefect_keeps
    | apply State.defectLink_keeps | apply KO.ite | apply KO.next)

theorem execDefectClear_keeps {s0 : State} (x1 : Nat) (x2 : Nat) {x3 : State} (hx3 : Keeps s0 x3) :
    KO s0 (execDefectClear x1 x2 x3) := by
  unfold execDefectClear
  with_reducible repeat' (first
    | assumption | apply State.tryRestore_keeps | apply State.linkTouch_keeps | apply State.setDefect_keeps | apply KO.ite
    | apply KO.next)

theorem State.latchSecond_keeps {s0 : State} (x1 : Bool) {x2 : State} (x3 : Nat) (hx2 : Keeps s0 x2) :
    Keeps s0 (State.latchSecond x1 x2 x3) := by
  unfold State.latchSecond
  with_reducible repeat' (first
    | assumption | apply State.wr_keeps | apply State.wrBit_keeps | apply State.inc_keeps | apply State.setFlink_keeps | apply Keeps.ite)

theorem execSecondTick_keeps {s0 : State} {x1 : State} (hx1 : Keeps s0 x1) :
    KO s0 (execSecondTick x1) := by
  unfold execSecondTick
  with_reducible repeat' (first
    | assumption | apply State.latchSecond_keeps | apply KO.ite | apply KO.next | refine Keeps.foldl ?_ _ ?_
    | fail_if_no_progress refine Keeps.mk' ?_ rfl rfl)

end Sys2Proof.Machine
end

