-- ==== Sys2Proof/Laws/KeepsMemory.lean ====
section
/-! SUPPORT. That each operation keeps what `Keeps` says: moves and the memory controllers. -/
namespace Sys2Proof.Machine

theorem State.startCopy_keeps {s0 : State} {x1 : State} (x2 : Nat) (hx1 : Keeps s0 x1) :
    Keeps s0 (State.startCopy x1 x2) := by
  unfold State.startCopy
  with_reducible repeat' (first
    | assumption | apply State.takeArea_keeps | apply State.syncFree_keeps | apply Keeps.ite
    | fail_if_no_progress refine Keeps.mk' ?_ rfl rfl)

theorem State.startEvac_keeps {s0 : State} {x1 : State} (hx1 : Keeps s0 x1) :
    Keeps s0 (State.startEvac x1) := by
  unfold State.startEvac
  with_reducible repeat' (first
    | assumption | apply State.startCopy_keeps | apply Keeps.ite | refine Keeps.foldl ?_ _ ?_)

theorem execPrefetchStart_keeps {s0 : State} {x1 : State} (hx1 : Keeps s0 x1) :
    KO s0 (execPrefetchStart x1) := by
  unfold execPrefetchStart
  with_reducible repeat' (first
    | assumption | apply State.setNode_keeps | apply State.takeArea_keeps | apply State.syncFree_keeps | apply State.xputAll_keeps
    | apply KO.ite | apply KO.next | fail_if_no_progress refine Keeps.mk' ?_ rfl rfl | dsimp only | split)

theorem State.takePage_keeps {s0 x1 : State} (hx1 : Keeps s0 x1) : KMP s0 (State.takePage x1) := by
  unfold State.takePage
  exact KMP.map (State.fresh_keeps hx1)

theorem execEvictionStart_keeps {s0 : State} {x1 : State} (hx1 : Keeps s0 x1) :
    KO s0 (execEvictionStart x1) := by
  unfold execEvictionStart
  with_reducible repeat' (first
    | assumption | apply State.takePage_keeps | apply State.syncFree_keeps | apply KO.ite | apply KO.next
    | fail_if_no_progress refine Keeps.mk' ?_ rfl rfl | refine Keeps.ofSomePair ?_ (by assumption) | dsimp only | split)

theorem State.spoil_keeps {s0 : State} {x1 : State} (x2 : Nat) (x3 : Nat) (hx1 : Keeps s0 x1) :
    Keeps s0 (State.spoil x1 x2 x3) := by
  unfold State.spoil
  with_reducible repeat' (first
    | assumption | apply State.setChain_keeps)

theorem State.swap_keeps {s0 : State} {x1 : State} (x2 : Sys2Proof.Machine.Move) (hx1 : Keeps s0 x1) :
    Keeps s0 (State.swap x1 x2) := by
  unfold State.swap
  with_reducible repeat' (first
    | assumption | apply State.giveSpace_keeps | apply State.setChain_keeps | apply State.inc_keeps | apply State.syncFree_keeps
    | fail_if_no_progress refine Keeps.mk' ?_ rfl rfl | dsimp only | split)

theorem execMoveSwap_keeps {s0 : State} (x1 : Nat) (x2 : Nat) {x3 : State} (hx3 : Keeps s0 x3) :
    KO s0 (execMoveSwap x1 x2 x3) := by
  unfold execMoveSwap
  with_reducible repeat' (first
    | assumption | apply State.readMark_keeps | apply State.spoil_keeps | apply State.startEvac_keeps | apply State.swap_keeps
    | apply State.syncFree_keeps | apply State.inc_keeps | apply State.giveSpace_keeps | apply Keeps.ite | apply KO.ite | apply KO.next
    | fail_if_no_progress refine Keeps.mk' ?_ rfl rfl | dsimp only | split)

theorem execEvacDone_keeps {s0 : State} (x1 : Nat) {x2 : State} (hx2 : Keeps s0 x2) :
    KO s0 (execEvacDone x1 x2) := by
  unfold execEvacDone
  with_reducible repeat' (first
    | assumption | apply State.startEvac_keeps | apply State.post_keeps | apply State.syncStripe_keeps | apply KO.ite | apply KO.next
    | fail_if_no_progress refine Keeps.mk' ?_ rfl rfl)

theorem State.setCtl_keeps {s0 : State} {x1 : State} (x2 : Nat) (x3 : Sys2Proof.Machine.Ctl) (hx1 : Keeps s0 x1) :
    Keeps s0 (State.setCtl x1 x2 x3) := by
  unfold State.setCtl
  with_reducible repeat' (first
    | assumption | fail_if_no_progress refine Keeps.mk' ?_ rfl rfl)

theorem State.panics_keeps {s0 : State} {x1 : State} (x2 : Nat) (hx1 : Keeps s0 x1) :
    Keeps s0 (State.panics x1 x2) := by
  unfold State.panics
  with_reducible repeat' (first
    | assumption | apply State.inc_keeps | apply State.setCtl_keeps | apply Keeps.ite | refine Keeps.foldl ?_ _ ?_ | (intro _; intros))

theorem State.setPins_keeps {s0 : State} {x1 : State} (x2 : Nat) (x3 : Sys2Proof.Machine.DdrPins) (hx1 : Keeps s0 x1) :
    Keeps s0 (State.setPins x1 x2 x3) := by
  unfold State.setPins
  with_reducible repeat' (first
    | assumption | fail_if_no_progress refine Keeps.mk' ?_ rfl rfl)

theorem State.chanTrain_keeps {s0 : State} {x1 : State} (x2 : Nat) (hx1 : Keeps s0 x1) :
    Keeps s0 (State.chanTrain x1 x2) := by
  unfold State.chanTrain
  with_reducible repeat' (first
    | assumption | apply State.setPins_keeps | apply State.wr_keeps)

theorem State.chanOff_keeps {s0 : State} {x1 : State} (x2 : Nat) (hx1 : Keeps s0 x1) :
    Keeps s0 (State.chanOff x1 x2) := by
  unfold State.chanOff
  with_reducible repeat' (first
    | assumption | apply State.post_keeps | apply State.setPins_keeps | apply State.setCtl_keeps | apply State.wr_keeps)

theorem State.xfibLose_keeps {s0 : State} {x1 : State} (x2 : Nat) (hx1 : Keeps s0 x1) :
    Keeps s0 (State.xfibLose x1 x2) := by
  unfold State.xfibLose
  with_reducible repeat' (first
    | assumption | apply Keeps.ite | fail_if_no_progress refine Keeps.mk' ?_ rfl rfl)

theorem State.chanEvacuate_keeps {s0 : State} {x1 : State} (x2 : Nat) (hx1 : Keeps s0 x1) :
    KR s0 (State.chanEvacuate x1 x2) := by
  unfold State.chanEvacuate
  with_reducible repeat' (first
    | assumption | apply State.abandonTest_keeps | apply State.chanOff_keeps | apply State.wr_keeps | apply State.xfibLose_keeps
    | apply State.startEvac_keeps | apply State.syncFree_keeps | apply State.moveAway_keeps | apply KR.inr | apply KR.inl
    | fail_if_no_progress refine Keeps.mk' ?_ rfl rfl | refine Keeps.ofSome ?_ (by assumption) | dsimp only | split)

theorem State.writeMcdCfg_keeps {s0 : State} {x1 : State} (x2 : Nat) (x3 : Nat) (x4 : Bool) (x5 : Bool) (x6 : Nat) (hx1 : Keeps s0 x1) :
    Keeps s0 (State.writeMcdCfg x1 x2 x3 x4 x5 x6) := by
  unfold State.writeMcdCfg
  with_reducible repeat' (first
    | assumption | apply State.wr_keeps | apply State.abandonTest_keeps | apply State.wrKept_keeps | apply State.chanTrain_keeps
    | apply State.chanEvacuate_keeps | apply Keeps.ite | refine Keeps.ofInr ?_ (by assumption) | dsimp only | split)

theorem State.pcRetire_keeps {s0 : State} {x1 : State} (x2 : Nat) (x3 : Nat) (hx1 : Keeps s0 x1) :
    Keeps s0 (State.pcRetire x1 x2 x3) := by
  unfold State.pcRetire
  with_reducible repeat' (first
    | assumption | apply State.wr_keeps | apply State.startEvac_keeps | apply State.syncFree_keeps | apply State.trimHbm_keeps
    | fail_if_no_progress refine Keeps.mk' ?_ rfl rfl)

theorem State.laneRepair_keeps {s0 : State} {x1 : State} (x2 : Nat) (x3 : Nat) (hx1 : Keeps s0 x1) :
    KR s0 (State.laneRepair x1 x2 x3) := by
  unfold State.laneRepair
  with_reducible repeat' (first
    | assumption | apply State.setCtl_keeps | apply KR.inr | apply KR.inl | dsimp only | split)

theorem State.chanReturn_keeps {s0 : State} {x1 : State} (x2 : Nat) (hx1 : Keeps s0 x1) :
    KR s0 (State.chanReturn x1 x2) := by
  unfold State.chanReturn
  with_reducible repeat' (first
    | assumption | apply State.abandonTest_keeps | apply State.chanTrain_keeps | apply KR.inr | apply KR.inl
    | fail_if_no_progress refine Keeps.mk' ?_ rfl rfl | dsimp only | split)

theorem State.tried_keeps {s0 : State} {x1 : State} (x2 : Nat) (hx1 : Keeps s0 x1) :
    Keeps s0 (State.tried x1 x2) := by
  unfold State.tried
  with_reducible repeat' (first
    | assumption | fail_if_no_progress refine Keeps.mk' ?_ rfl rfl)

theorem State.mapSpares_keeps {s0 : State} {x1 : State} (x2 : Nat) (x3 : List Nat) (hx1 : Keeps s0 x1) :
    Keeps s0 (State.mapSpares x1 x2 x3) := by
  unfold State.mapSpares
  with_reducible repeat' (first
    | assumption | apply State.wr_keeps | fail_if_no_progress refine Keeps.mk' ?_ rfl rfl)

theorem State.pcEyes_keeps {s0 : State} {x1 : State} (x2 : Nat) (x3 : List (Nat × Nat × Nat × Nat)) (hx1 : Keeps s0 x1) :
    Keeps s0 (State.pcEyes x1 x2 x3) := by
  unfold State.pcEyes
  with_reducible repeat' (first
    | assumption | apply State.wr_keeps | fail_if_no_progress refine Keeps.mk' ?_ rfl rfl)

theorem State.pcTrained_keeps {s0 : State} {x1 : State} (x2 : Nat) (x3 : List (Nat × Nat × Nat × Nat)) (hx1 : Keeps s0 x1) :
    Keeps s0 (State.pcTrained x1 x2 x3) := by
  unfold State.pcTrained
  with_reducible repeat' (first
    | assumption | apply State.mapSpares_keeps | apply State.wr_keeps | apply State.pcEyes_keeps | apply Keeps.ite
    | fail_if_no_progress refine Keeps.mk' ?_ rfl rfl)

theorem State.retry_keeps {s0 : State} {x1 : State} (x2 : Nat) (hx1 : Keeps s0 x1) :
    KM s0 (State.retry x1 x2) := by
  unfold State.retry
  with_reducible repeat' (first
    | assumption | apply KM.ite | apply KM.some | apply KM.none | fail_if_no_progress refine Keeps.mk' ?_ rfl rfl)

theorem State.replaceLanes_keeps {s0 : State} {x1 : State} (x2 : Nat) (x3 : List Nat) (hx1 : Keeps s0 x1) :
    Keeps s0 (State.replaceLanes x1 x2 x3) := by
  unfold State.replaceLanes
  with_reducible repeat' (first
    | assumption | apply State.mapSpares_keeps | apply State.post_keeps | apply Keeps.ite
    | fail_if_no_progress refine Keeps.mk' ?_ rfl rfl)

theorem State.hbmTrained_keeps {s0 : State} {x1 : State} (x2 : Nat) (x3 : Bool) (x4 : List Nat) (x5 : List (Nat × Nat)) (hx1 : Keeps s0 x1) :
    Keeps s0 (State.hbmTrained x1 x2 x3 x4 x5) := by
  unfold State.hbmTrained
  with_reducible repeat' (first
    | assumption | apply State.wr_keeps | apply State.tried_keeps | apply State.pcTrained_keeps | apply State.syncSeg_keeps
    | apply State.saveDelays_keeps | apply State.retry_keeps | apply State.replaceLanes_keeps | apply Keeps.getD | apply Keeps.ite
    | refine Keeps.foldl ?_ _ ?_ | (intro _; intros) | dsimp only | split)

theorem State.loadDelays_keeps {s0 : State} {x1 : State} (x2 : Nat) (hx1 : Keeps s0 x1) :
    Keeps s0 (State.loadDelays x1 x2) := by
  unfold State.loadDelays
  with_reducible repeat' (first
    | assumption | apply State.wr_keeps | refine Keeps.foldl ?_ _ ?_ | (intro _; intros) | split)

theorem State.chanUp_keeps {s0 : State} {x1 : State} (x2 : Nat) (x3 : Nat) (hx1 : Keeps s0 x1) :
    Keeps s0 (State.chanUp x1 x2 x3) := by
  unfold State.chanUp
  with_reducible repeat' (first
    | assumption | apply State.wr_keeps | apply State.post_keeps | apply State.syncStripe_keeps | apply Keeps.ite
    | fail_if_no_progress refine Keeps.mk' ?_ rfl rfl)

theorem State.restored_keeps {s0 : State} {x1 : State} (x2 : Nat) (x3 : Bool) (hx1 : Keeps s0 x1) :
    Keeps s0 (State.restored x1 x2 x3) := by
  unfold State.restored
  with_reducible repeat' (first
    | assumption | apply State.loadDelays_keeps | apply State.chanUp_keeps | apply State.wr_keeps | apply State.cntClearSeg_keeps
    | apply State.chanTrain_keeps | apply State.xfibLose_keeps | apply State.post_keeps | apply Keeps.ite | refine Keeps.foldl ?_ _ ?_
    | fail_if_no_progress refine Keeps.mk' ?_ rfl rfl)

theorem State.trainFail_keeps {s0 : State} {x1 : State} (x2 : Nat) (x3 : Nat) (x4 : Nat) (hx1 : Keeps s0 x1) :
    Keeps s0 (State.trainFail x1 x2 x3 x4) := by
  unfold State.trainFail
  with_reducible repeat' (first
    | assumption | apply State.post_keeps | apply State.wr_keeps | fail_if_no_progress refine Keeps.mk' ?_ rfl rfl)

theorem State.setEye_keeps {s0 : State} {x1 : State} (x2 : Nat) (x3 : Nat) (x4 : Nat × Nat × Nat × Nat) (hx1 : Keeps s0 x1) :
    Keeps s0 (State.setEye x1 x2 x3 x4) := by
  unfold State.setEye
  with_reducible repeat' (first
    | assumption | apply State.wr_keeps)

theorem State.setEyes_keeps {s0 : State} {x1 : State} (x2 : Nat) (x3 : List (Nat × Nat)) (hx1 : Keeps s0 x1) :
    Keeps s0 (State.setEyes x1 x2 x3) := by
  unfold State.setEyes
  with_reducible repeat' (first
    | assumption | apply State.setEye_keeps | refine Keeps.foldl ?_ _ ?_ | (intro _; intros))

theorem State.ddrTrained_keeps {s0 : State} {x1 : State} (x2 : Nat) (x3 : Nat) (x4 : Nat) (x5 : Nat) (x6 : Nat) (x7 : Nat) (x8 : List Nat) (x9 : List (Nat × Nat)) (hx1 : Keeps s0 x1) :
    Keeps s0 (State.ddrTrained x1 x2 x3 x4 x5 x6 x7 x8 x9) := by
  unfold State.ddrTrained
  with_reducible repeat' (first
    | assumption | apply State.wr_keeps | apply State.trainFail_keeps | apply State.tried_keeps | apply State.setEyes_keeps
    | apply State.retry_keeps | apply State.saveDelays_keeps | apply State.chanUp_keeps | apply State.setCtl_keeps | apply Keeps.getD
    | apply Keeps.ite | fail_if_no_progress refine Keeps.mk' ?_ rfl rfl | dsimp only | split)

theorem execMemoryTrainingDone_keeps {s0 : State} (x1 : Nat) (x2 : Nat) (x3 : Nat) (x4 : Nat) (x5 : Nat) (x6 : Nat) (x7 : List Nat) (x8 : List Nat) (x9 : List (Nat × Nat)) {x10 : State} (hx10 : Keeps s0 x10) :
    KO s0 (execMemoryTrainingDone x1 x2 x3 x4 x5 x6 x7 x8 x9 x10) := by
  unfold execMemoryTrainingDone
  with_reducible repeat' (first
    | assumption | apply State.hbmTrained_keeps | apply State.restored_keeps | apply State.ddrTrained_keeps | apply KO.ite
    | apply KO.next)

theorem State.reserveLost_keeps {s0 : State} {x1 : State} (x2 : Nat) (hx1 : Keeps s0 x1) :
    Keeps s0 (State.reserveLost x1 x2) := by
  unfold State.reserveLost
  with_reducible repeat' (first
    | assumption | apply State.post_keeps | apply State.syncStripe_keeps | fail_if_no_progress refine Keeps.mk' ?_ rfl rfl)

theorem State.chanFail_keeps {s0 : State} {x1 : State} (x2 : Nat) (x3 : Nat) (hx1 : Keeps s0 x1) :
    Keeps s0 (State.chanFail x1 x2 x3) := by
  unfold State.chanFail
  with_reducible repeat' (first
    | assumption | apply State.xfibLose_keeps | apply State.post_keeps | apply State.wr_keeps | apply State.reserveLost_keeps
    | apply State.loseHome_keeps | apply Keeps.ite)

theorem State.autoRepair_keeps {s0 : State} {x1 : State} (x2 : Nat) (x3 : Nat) (hx1 : Keeps s0 x1) :
    Keeps s0 (State.autoRepair x1 x2 x3) := by
  unfold State.autoRepair
  with_reducible repeat' (first
    | assumption | apply State.laneRepair_keeps | apply State.post_keeps | apply State.setCtl_keeps | apply Keeps.ite
    | refine Keeps.ofInr ?_ (by assumption) | dsimp only | split)

theorem execRecentre_keeps {s0 : State} (x1 : Nat) (x2 : Nat) (x3 : Nat × Nat × Nat × Nat) (x4 : Nat × Nat) (x5 : Nat) {x6 : State} (hx6 : Keeps s0 x6) :
    KO s0 (execRecentre x1 x2 x3 x4 x5 x6) := by
  unfold execRecentre
  with_reducible repeat' (first
    | assumption | apply State.setEye_keeps | apply State.chanFail_keeps | apply State.wr_keeps | apply State.autoRepair_keeps
    | apply Keeps.ite | apply KO.ite | apply KO.next | fail_if_no_progress refine Keeps.mk' ?_ rfl rfl)

theorem State.memFill_keeps {s0 : State} {x1 : State} (x2 : Nat) (hx1 : Keeps s0 x1) :
    Keeps s0 (State.memFill x1 x2) := by
  unfold State.memFill
  with_reducible repeat' (first
    | assumption | apply State.panics_keeps | apply State.setCtl_keeps)

theorem State.wakeChan_keeps {s0 : State} {x1 : State} (x2 : Nat) (hx1 : Keeps s0 x1) :
    Keeps s0 (State.wakeChan x1 x2) := by
  unfold State.wakeChan
  with_reducible repeat' (first
    | assumption | apply State.wr_keeps | apply Keeps.ite | fail_if_no_progress refine Keeps.mk' ?_ rfl rfl)

theorem execMemoryRequest_keeps {s0 : State} (x1 : Nat) (x2 : Nat) (x3 : Bool) (x4 : Nat) (x5 : Nat) (x6 : Nat) (x7 : Nat) (x8 : Nat) {x9 : State} (hx9 : Keeps s0 x9) :
    KO s0 (execMemoryRequest x1 x2 x3 x4 x5 x6 x7 x8 x9) := by
  unfold execMemoryRequest
  with_reducible repeat' (first
    | assumption | apply State.memFill_keeps | apply State.setCtl_keeps | apply State.wakeChan_keeps | apply Keeps.ite | apply KO.ite
    | apply KO.next | fail_if_no_progress refine Keeps.mk' ?_ rfl rfl)

theorem State.batchStart_keeps {s0 : State} {x1 : State} (x2 : Nat) (hx1 : Keeps s0 x1) :
    Keeps s0 (State.batchStart x1 x2) := by
  unfold State.batchStart
  with_reducible repeat' (first
    | assumption | apply State.setCtl_keeps | apply Keeps.ite)

theorem State.refresh_keeps {s0 : State} {x1 : State} (x2 : Nat) (x3 : Nat) (hx1 : Keeps s0 x1) :
    Keeps s0 (State.refresh x1 x2 x3) := by
  unfold State.refresh
  with_reducible repeat' (first
    | assumption | apply State.setCtl_keeps)

theorem State.forceRefresh_keeps {s0 : State} {x1 : State} (x2 : Nat) (x3 : Nat) (hx1 : Keeps s0 x1) :
    Keeps s0 (State.forceRefresh x1 x2 x3) := by
  unfold State.forceRefresh
  with_reducible repeat' (first
    | assumption | apply State.refresh_keeps | apply State.inc_keeps | apply State.setCtl_keeps)

theorem State.memCe_keeps {s0 : State} {x1 : State} (x2 : Nat) (x3 : Nat) (hx1 : Keeps s0 x1) :
    Keeps s0 (State.memCe x1 x2 x3) := by
  unfold State.memCe
  with_reducible repeat' (first
    | assumption | apply State.inc_keeps | apply State.setCtl_keeps | apply State.autoRepair_keeps | apply Keeps.ite)

theorem State.memUe_keeps {s0 : State} {x1 : State} (x2 : Nat) (hx1 : Keeps s0 x1) :
    Keeps s0 (State.memUe x1 x2) := by
  unfold State.memUe
  with_reducible repeat' (first
    | assumption | apply State.setCtl_keeps | apply State.postRated_keeps | apply State.inc_keeps | apply State.chanFail_keeps
    | apply State.pcRetire_keeps | apply Keeps.ite)

theorem State.memError_keeps {s0 : State} {x1 : State} (x2 : Nat) (x3 : Nat) (x4 : Nat) (hx1 : Keeps s0 x1) :
    Keeps s0 (State.memError x1 x2 x3 x4) := by
  unfold State.memError
  with_reducible repeat' (first
    | assumption | apply State.memCe_keeps | apply State.memUe_keeps | split)

theorem State.issueReq_keeps {s0 : State} {x1 : State} (x2 : Nat) (x3 : Nat) (x4 : Nat) (x5 : Nat) (hx1 : Keeps s0 x1) :
    Keeps s0 (State.issueReq x1 x2 x3 x4 x5) := by
  unfold State.issueReq
  with_reducible repeat' (first
    | assumption | apply State.memFill_keeps | apply State.setCtl_keeps | apply State.memError_keeps | apply Keeps.ite | dsimp only
    | split)

theorem State.activate_keeps {s0 : State} {x1 : State} (x2 : Nat) (x3 : Nat) (x4 : Nat) (hx1 : Keeps s0 x1) :
    Keeps s0 (State.activate x1 x2 x3 x4) := by
  unfold State.activate
  with_reducible repeat' (first
    | assumption | apply State.setCtl_keeps)

theorem State.serveReq_keeps {s0 : State} {x1 : State} (x2 : Nat) (x3 : Nat) (x4 : Nat) (x5 : Nat) (hx1 : Keeps s0 x1) :
    Keeps s0 (State.serveReq x1 x2 x3 x4 x5) := by
  unfold State.serveReq
  with_reducible repeat' (first
    | assumption | apply State.issueReq_keeps | apply State.activate_keeps | apply Keeps.ite | dsimp only | split)

theorem execMemoryCommandIssue_keeps {s0 : State} (x1 : Nat) (x2 : Nat) (x3 : Nat) {x4 : State} (hx4 : Keeps s0 x4) :
    KO s0 (execMemoryCommandIssue x1 x2 x3 x4) := by
  unfold execMemoryCommandIssue
  with_reducible repeat' (first
    | assumption | apply State.batchStart_keeps | apply State.forceRefresh_keeps | apply State.inc_keeps | apply State.setCtl_keeps
    | apply State.serveReq_keeps | apply State.refresh_keeps | apply KO.ite | apply KO.next | dsimp only | split)

theorem execRefreshDue_keeps {s0 : State} (x1 : Nat) (x2 : Nat) {x3 : State} (hx3 : Keeps s0 x3) :
    KO s0 (execRefreshDue x1 x2 x3) := by
  unfold execRefreshDue
  with_reducible repeat' (first
    | assumption | apply State.inc_keeps | apply State.setCtl_keeps | apply KO.ite | apply KO.next)

theorem State.doubleRate_keeps {s0 : State} {x1 : State} (x2 : Nat) (x3 : Bool) (hx1 : Keeps s0 x1) :
    Keeps s0 (State.doubleRate x1 x2 x3) := by
  unfold State.doubleRate
  with_reducible repeat' (first
    | assumption | apply State.addSat_keeps | apply State.setCtl_keeps | apply State.post_keeps | apply State.wrBit_keeps
    | apply Keeps.ite | refine Keeps.foldl ?_ _ ?_ | (intro _; intros))

theorem execMemoryTempRead_keeps {s0 : State} (x1 : Nat) (x2 : Bool) (x3 : Nat) (x4 : Nat) {x5 : State} (hx5 : Keeps s0 x5) :
    KO s0 (execMemoryTempRead x1 x2 x3 x4 x5) := by
  unfold execMemoryTempRead
  with_reducible repeat' (first
    | assumption | apply State.wr_keeps | apply State.doubleRate_keeps | apply State.post_keeps | apply Keeps.ite | apply KO.ite
    | apply KO.next | fail_if_no_progress refine Keeps.mk' ?_ rfl rfl)

theorem execActivateTableClear_keeps {s0 : State} {x1 : State} (hx1 : Keeps s0 x1) :
    KO s0 (execActivateTableClear x1) := by
  unfold execActivateTableClear
  with_reducible repeat' (first
    | assumption | apply KO.ite | apply KO.next | fail_if_no_progress refine Keeps.mk' ?_ rfl rfl)

theorem execPatrolScrub_keeps {s0 : State} (x1 : Nat) {x2 : State} (hx2 : Keeps s0 x2) :
    KO s0 (execPatrolScrub x1 x2) := by
  unfold execPatrolScrub
  with_reducible repeat' (first
    | assumption | apply State.memFill_keeps | apply State.setCtl_keeps | apply KO.ite | apply KO.next)

theorem execLaneRepairDone_keeps {s0 : State} (x1 : Nat) {x2 : State} (hx2 : Keeps s0 x2) :
    KO s0 (execLaneRepairDone x1 x2) := by
  unfold execLaneRepairDone
  with_reducible repeat' (first
    | assumption | apply State.mapSpares_keeps | apply State.setCtl_keeps | apply State.post_keeps | apply KO.next | dsimp only | split)

theorem execPcRetireDone_keeps {s0 : State} (x1 : Nat) {x2 : State} (hx2 : Keeps s0 x2) :
    KO s0 (execPcRetireDone x1 x2) := by
  unfold execPcRetireDone
  with_reducible repeat' (first
    | assumption | apply State.syncSeg_keeps | apply State.post_keeps | apply State.setCtl_keeps | apply State.wr_keeps | apply KO.ite
    | apply KO.next | fail_if_no_progress refine Keeps.mk' ?_ rfl rfl)

theorem execChannelEvacuated_keeps {s0 : State} (x1 : Nat) {x2 : State} (hx2 : Keeps s0 x2) :
    KO s0 (execChannelEvacuated x1 x2) := by
  unfold execChannelEvacuated
  with_reducible repeat' (first
    | assumption | apply State.chanOff_keeps | apply KO.ite | apply KO.next)

theorem execRankPowerDown_keeps {s0 : State} (x1 : Nat) (x2 : Nat) {x3 : State} (hx3 : Keeps s0 x3) :
    KO s0 (execRankPowerDown x1 x2 x3) := by
  unfold execRankPowerDown
  with_reducible repeat' (first
    | assumption | apply State.setCtl_keeps | apply KO.ite | apply KO.next)

theorem State.selfRefresh_keeps {s0 : State} {x1 : State} (x2 : Nat) (hx1 : Keeps s0 x1) :
    Keeps s0 (State.selfRefresh x1 x2) := by
  unfold State.selfRefresh
  with_reducible repeat' (first
    | assumption | apply State.wr_keeps | fail_if_no_progress refine Keeps.mk' ?_ rfl rfl)

theorem execSelfRefreshEntry_keeps {s0 : State} (x1 : Nat) {x2 : State} (hx2 : Keeps s0 x2) :
    KO s0 (execSelfRefreshEntry x1 x2) := by
  unfold execSelfRefreshEntry
  with_reducible repeat' (first
    | assumption | apply State.selfRefresh_keeps | apply KO.ite | apply KO.next)

end Sys2Proof.Machine
end

