-- ==== Sys2Proof/Laws/KeepsLookup.lean ====
section
/-! SUPPORT. That each operation keeps what `Keeps` says: lookup tables, bridging and their commands. -/
namespace Sys2Proof.Machine

theorem State.writeEmCfg_keeps {s0 : State} {x1 : State} (x2 : Nat) (x3 : Nat) (x4 : Nat) (x5 : Nat) (x6 : Nat) (hx1 : Keeps s0 x1) :
    Keeps s0 (State.writeEmCfg x1 x2 x3 x4 x5 x6) := by
  unfold State.writeEmCfg
  with_reducible repeat' (first
    | assumption | apply State.wr_keeps | apply Keeps.ite | fail_if_no_progress refine Keeps.mk' ?_ rfl rfl)

theorem State.writeEmBase_keeps {s0 : State} {x1 : State} (x2 : Nat) (x3 : Nat) (x4 : Nat) (hx1 : Keeps s0 x1) :
    Keeps s0 (State.writeEmBase x1 x2 x3 x4) := by
  unfold State.writeEmBase
  with_reducible repeat' (first
    | assumption | apply State.wr_keeps | apply Keeps.ite)

theorem State.writeTerProf_keeps {s0 : State} {x1 : State} (x2 : Nat) (x3 : Nat) (x4 : Nat) (hx1 : Keeps s0 x1) :
    Keeps s0 (State.writeTerProf x1 x2 x3 x4) := by
  unfold State.writeTerProf
  with_reducible repeat' (first
    | assumption | apply State.wr_keeps | apply Keeps.ite)

theorem State.threshold_keeps {s0 : State} {x1 : State} (x2 : Nat) (x3 : Nat) (x4 : Nat) (x5 : Nat) (x6 : Nat) (x7 : Sys2Proof.Machine.State → Nat → Sys2Proof.Machine.State) (hx1 : Keeps s0 x1) (hx7 : ∀ t0 t1, Keeps s0 t0 → Keeps s0 (x7 t0 t1)) :
    Keeps s0 (State.threshold x1 x2 x3 x4 x5 x6 x7) := by
  unfold State.threshold
  with_reducible repeat' (first
    | assumption | apply hx7 | apply Keeps.ite | fail_if_no_progress refine Keeps.mk' ?_ rfl rfl)

theorem State.fibCount_keeps {s0 : State} {x1 : State} (hx1 : Keeps s0 x1) :
    Keeps s0 (State.fibCount x1) := by
  unfold State.fibCount
  with_reducible repeat' (first
    | assumption | apply State.wr_keeps | apply State.threshold_keeps | apply State.post_keeps | (intro _; intros))

theorem State.reroot_keeps {s0 : State} {x1 : State} (hx1 : Keeps s0 x1) :
    Keeps s0 (State.reroot x1) := by
  unfold State.reroot
  with_reducible repeat' (first
    | assumption | apply State.addSat_keeps | apply Keeps.ite | fail_if_no_progress refine Keeps.mk' ?_ rfl rfl)

theorem State.setFib_keeps {s0 : State} {x1 : State} (x2 : Sys2Proof.Tbl (Option Sys2Proof.Machine.FibEnt)) (hx1 : Keeps s0 x1) :
    Keeps s0 (State.setFib x1 x2) := by
  unfold State.setFib
  with_reducible repeat' (first
    | assumption | apply State.fibCount_keeps | apply State.reroot_keeps | fail_if_no_progress refine Keeps.mk' ?_ rfl rfl)

theorem State.fibEmpty_keeps {s0 : State} {x1 : State} (hx1 : Keeps s0 x1) :
    Keeps s0 (State.fibEmpty x1) := by
  unfold State.fibEmpty
  with_reducible repeat' (first
    | assumption | apply State.setFib_keeps | apply State.wr_keeps | fail_if_no_progress refine Keeps.mk' ?_ rfl rfl | dsimp only | split)

theorem State.wordWritten_keeps {s0 : State} {x1 : State} (x2 : Nat) (x3 : Nat) (hx1 : Keeps s0 x1) :
    Keeps s0 (State.wordWritten x1 x2 x3) := by
  unfold State.wordWritten
  with_reducible repeat' (first
    | assumption | fail_if_no_progress refine Keeps.mk' ?_ rfl rfl)

theorem State.upset_keeps {s0 : State} {x1 : State} (x2 : List (Nat × Nat × Bool)) (hx1 : Keeps s0 x1) :
    Keeps s0 (State.upset x1 x2) := by
  unfold State.upset
  with_reducible repeat' (first
    | assumption | apply Keeps.ite | refine Keeps.foldl ?_ _ ?_ | (intro _; intros) | fail_if_no_progress refine Keeps.mk' ?_ rfl rfl)

theorem State.corrects_keeps {s0 : State} {x1 : State} (x2 : List (Nat × Nat)) (hx1 : Keeps s0 x1) :
    Keeps s0 (State.corrects x1 x2) := by
  unfold State.corrects
  with_reducible repeat' (first
    | assumption | apply State.addSat_keeps | apply Keeps.ite)

theorem State.emPut_keeps {s0 : State} {x1 : State} (x2 : Nat) (x3 : List Nat) (x4 : Sys2Proof.Machine.EmEnt) (hx1 : Keeps s0 x1) :
    Keeps s0 (State.emPut x1 x2 x3 x4) := by
  unfold State.emPut
  with_reducible repeat' (first
    | assumption | apply State.wordWritten_keeps | refine Keeps.foldl ?_ _ ?_ | (intro _; intros)
    | fail_if_no_progress refine Keeps.mk' ?_ rfl rfl)

theorem State.setOvf_keeps {s0 : State} {x1 : State} (x2 : Nat) (x3 : List Sys2Proof.Machine.OvfEnt) (hx1 : Keeps s0 x1) :
    Keeps s0 (State.setOvf x1 x2 x3) := by
  unfold State.setOvf
  with_reducible repeat' (first
    | assumption | apply State.wr_keeps | apply State.threshold_keeps | apply State.post_keeps | (intro _; intros)
    | fail_if_no_progress refine Keeps.mk' ?_ rfl rfl)

theorem State.emPlace_keeps {s0 : State} {x1 : State} (x2 : Nat) (x3 : Nat) (x4 : Sys2Proof.Machine.EmEnt) (hx1 : Keeps s0 x1) :
    KM s0 (State.emPlace x1 x2 x3 x4) := by
  unfold State.emPlace
  with_reducible repeat' (first
    | assumption | apply State.emPut_keeps | apply State.setOvf_keeps | apply KM.ite | apply KM.some | apply KM.none
    | refine Keeps.foldl ?_ _ ?_ | (intro _; intros) | fail_if_no_progress refine Keeps.mk' ?_ rfl rfl)

theorem State.emRewrite_keeps {s0 : State} {x1 : State} (x2 : Sys2Proof.Machine.EmPlace) (x3 : Sys2Proof.Machine.EmEnt) (hx1 : Keeps s0 x1) :
    Keeps s0 (State.emRewrite x1 x2 x3) := by
  unfold State.emRewrite
  with_reducible repeat' (first
    | assumption | apply State.emPut_keeps | apply State.wordWritten_keeps | fail_if_no_progress refine Keeps.mk' ?_ rfl rfl | dsimp only
    | split)

theorem State.moveBack_keeps {s0 : State} (x1 : Nat) (x2 : Nat) {x3 : State} (hx3 : Keeps s0 x3) :
    Keeps s0 (State.moveBack x1 x2 x3) := by
  induction x2 generalizing x3 with
  | zero => unfold State.moveBack; with_reducible repeat' (first
    | assumption)
  | succ n ih =>
    unfold State.moveBack
    with_reducible repeat' (first
    | assumption | apply ih | apply State.emPut_keeps | apply State.setOvf_keeps | apply Keeps.ite | refine Keeps.foldl ?_ _ ?_
    | (intro _; intros) | dsimp only | split)

theorem State.emFreeAt_keeps {s0 : State} {x1 : State} (x2 : Sys2Proof.Machine.EmPlace) (hx1 : Keeps s0 x1) :
    Keeps s0 (State.emFreeAt x1 x2) := by
  unfold State.emFreeAt
  with_reducible repeat' (first
    | assumption | apply State.wordWritten_keeps | apply State.moveBack_keeps | apply State.setOvf_keeps | apply Keeps.ite
    | refine Keeps.foldl ?_ _ ?_ | (intro _; intros) | fail_if_no_progress refine Keeps.mk' ?_ rfl rfl | dsimp only | split)

theorem State.fibAllOnDie_keeps {s0 : State} {x1 : State} (hx1 : Keeps s0 x1) :
    Keeps s0 (State.fibAllOnDie x1) := by
  unfold State.fibAllOnDie
  with_reducible repeat' (first
    | assumption | apply State.addSat_keeps | apply State.setFib_keeps | fail_if_no_progress refine Keeps.mk' ?_ rfl rfl)

theorem State.freeBucket_keeps {s0 : State} {x1 : State} (x2 : Nat) (hx1 : Keeps s0 x1) :
    Keeps s0 (State.freeBucket x1 x2) := by
  unfold State.freeBucket
  with_reducible repeat' (first
    | assumption | apply State.wordWritten_keeps | apply State.setOvf_keeps | refine Keeps.foldl ?_ _ ?_ | (intro _; intros)
    | fail_if_no_progress refine Keeps.mk' ?_ rfl rfl)

theorem State.emClear_keeps {s0 : State} (x1 : Nat) {x2 : State} (hx2 : Keeps s0 x2) :
    Keeps s0 (State.emClear x1 x2) := by
  induction x1 generalizing x2 with
  | zero => unfold State.emClear; with_reducible repeat' (first
    | assumption)
  | succ n ih =>
    unfold State.emClear
    with_reducible repeat' (first
    | assumption | apply ih | apply State.wr_keeps | apply State.freeBucket_keeps | apply Keeps.ite
    | fail_if_no_progress refine Keeps.mk' ?_ rfl rfl | dsimp only | split)

theorem State.setAdj_keeps {s0 : State} {x1 : State} (x2 : Nat) (x3 : Sys2Proof.Machine.Adj) (hx1 : Keeps s0 x1) :
    Keeps s0 (State.setAdj x1 x2 x3) := by
  unfold State.setAdj
  with_reducible repeat' (first
    | assumption | fail_if_no_progress refine Keeps.mk' ?_ rfl rfl)

theorem State.touchBlock_keeps {s0 : State} {x1 : State} (x2 : Nat) (hx1 : Keeps s0 x1) :
    Keeps s0 (State.touchBlock x1 x2) := by
  unfold State.touchBlock
  with_reducible repeat' (first
    | assumption | fail_if_no_progress refine Keeps.mk' ?_ rfl rfl)

theorem State.fibInsert_keeps {s0 : State} {x1 : State} (x2 : Nat) (x3 : Nat) (x4 : Nat) (x5 : List Nat) (x6 : List Nat) (x7 : Nat) (hx1 : Keeps s0 x1) :
    KP s0 (State.fibInsert x1 x2 x3 x4 x5 x6 x7) := by
  unfold State.fibInsert
  with_reducible repeat' (first
    | assumption | apply State.setFib_keeps | apply State.wordWritten_keeps | apply State.touchBlock_keeps | apply KP.ite | dsimp only
    | split)

theorem State.fibDelete_keeps {s0 : State} {x1 : State} (x2 : Nat) (x3 : Nat) (x4 : Nat) (x5 : List Nat) (hx1 : Keeps s0 x1) :
    KP s0 (State.fibDelete x1 x2 x3 x4 x5) := by
  unfold State.fibDelete
  with_reducible repeat' (first
    | assumption | apply State.setFib_keeps | apply State.wordWritten_keeps | apply State.touchBlock_keeps | apply KP.ite | split)

theorem State.emInsert_keeps {s0 : State} {x1 : State} (x2 : Nat) (x3 : Nat) (x4 : List Nat) (x5 : List Nat) (x6 : Nat) (hx1 : Keeps s0 x1) :
    KP s0 (State.emInsert x1 x2 x3 x4 x5 x6) := by
  unfold State.emInsert
  with_reducible repeat' (first
    | assumption | apply State.emRewrite_keeps | apply State.emPlace_keeps | apply KP.ite | refine Keeps.ofSome ?_ (by assumption)
    | dsimp only | split)

theorem State.emDelete_keeps {s0 : State} {x1 : State} (x2 : Nat) (x3 : Nat) (x4 : List Nat) (hx1 : Keeps s0 x1) :
    KP s0 (State.emDelete x1 x2 x3 x4) := by
  unfold State.emDelete
  with_reducible repeat' (first
    | assumption | apply State.emFreeAt_keeps | split)

theorem State.setTer_keeps {s0 : State} {x1 : State} (x2 : Sys2Proof.Tbl (Option Sys2Proof.Machine.TerEnt)) (hx1 : Keeps s0 x1) :
    Keeps s0 (State.setTer x1 x2) := by
  unfold State.setTer
  with_reducible repeat' (first
    | assumption | apply State.wr_keeps | refine Keeps.foldl ?_ _ ?_ | (intro _; intros)
    | fail_if_no_progress refine Keeps.mk' ?_ rfl rfl)

theorem State.terWrite_keeps {s0 : State} {x1 : State} (x2 : Nat) (x3 : Nat) (x4 : Nat) (x5 : List Nat) (x6 : List Nat) (x7 : List Nat) (hx1 : Keeps s0 x1) :
    KP s0 (State.terWrite x1 x2 x3 x4 x5 x6 x7) := by
  unfold State.terWrite
  with_reducible repeat' (first
    | assumption | apply State.setTer_keeps | apply State.wordWritten_keeps | apply KP.ite | split)

theorem State.terDelete_keeps {s0 : State} {x1 : State} (x2 : Nat) (hx1 : Keeps s0 x1) :
    KP s0 (State.terDelete x1 x2) := by
  unfold State.terDelete
  with_reducible repeat' (first
    | assumption | apply State.setTer_keeps | apply State.wordWritten_keeps | apply KP.ite | split)

theorem State.adjWrite_keeps {s0 : State} {x1 : State} (x2 : Nat) (x3 : List Nat) (hx1 : Keeps s0 x1) :
    KP s0 (State.adjWrite x1 x2 x3) := by
  unfold State.adjWrite
  with_reducible repeat' (first
    | assumption | apply State.setAdj_keeps | apply State.wordWritten_keeps | apply KP.ite)

theorem State.adjDelete_keeps {s0 : State} {x1 : State} (x2 : Nat) (hx1 : Keeps s0 x1) :
    KP s0 (State.adjDelete x1 x2) := by
  unfold State.adjDelete
  with_reducible repeat' (first
    | assumption | apply State.inc_keeps | apply State.setAdj_keeps | apply KP.ite | split)

theorem State.setSweep_keeps {s0 : State} {x1 : State} (x2 : Nat) (x3 : Sys2Proof.Machine.Sweep) (hx1 : Keeps s0 x1) :
    Keeps s0 (State.setSweep x1 x2 x3) := by
  unfold State.setSweep
  with_reducible repeat' (first
    | assumption | fail_if_no_progress refine Keeps.mk' ?_ rfl rfl)

theorem State.startSweeps_keeps {s0 : State} {x1 : State} (hx1 : Keeps s0 x1) :
    Keeps s0 (State.startSweeps x1) := by
  unfold State.startSweeps
  with_reducible repeat' (first
    | assumption | apply State.setSweep_keeps | refine Keeps.foldl ?_ _ ?_ | (intro _; intros))

theorem State.stopSweeps_keeps {s0 : State} {x1 : State} (hx1 : Keeps s0 x1) :
    Keeps s0 (State.stopSweeps x1) := by
  unfold State.stopSweeps
  with_reducible repeat' (first
    | assumption | fail_if_no_progress refine Keeps.mk' ?_ rfl rfl)

theorem State.writeBrgCfg_keeps {s0 : State} {x1 : State} (x2 : Nat) (x3 : Nat) (hx1 : Keeps s0 x1) :
    Keeps s0 (State.writeBrgCfg x1 x2 x3) := by
  unfold State.writeBrgCfg
  with_reducible repeat' (first
    | assumption | apply State.wr_keeps | apply State.startSweeps_keeps | apply State.stopSweeps_keeps | apply Keeps.ite)

theorem State.nextSweep_keeps {s0 : State} {x1 : State} (x2 : Nat) (x3 : Nat) (hx1 : Keeps s0 x1) :
    Keeps s0 (State.nextSweep x1 x2 x3) := by
  unfold State.nextSweep
  with_reducible repeat' (first
    | assumption | apply State.setSweep_keeps | apply Keeps.ite)

theorem State.writeAge_keeps {s0 : State} {x1 : State} (x2 : Nat) (hx1 : Keeps s0 x1) :
    Keeps s0 (State.writeAge x1 x2) := by
  unfold State.writeAge
  with_reducible repeat' (first
    | assumption | apply State.nextSweep_keeps | apply State.wr_keeps | apply State.stopSweeps_keeps | apply State.startSweeps_keeps
    | apply Keeps.ite | refine Keeps.foldl ?_ _ ?_ | (intro _; intros) | split)

theorem State.learnFail_keeps {s0 : State} {x1 : State} (x2 : Nat) (x3 : Nat) (x4 : Nat) (x5 : Bool) (hx1 : Keeps s0 x1) :
    Keeps s0 (State.learnFail x1 x2 x3 x4 x5) := by
  unfold State.learnFail
  with_reducible repeat' (first
    | assumption | apply State.inc_keeps | apply State.cntAdd_keeps | apply State.postRated_keeps | apply Keeps.ite
    | fail_if_no_progress refine Keeps.mk' ?_ rfl rfl)

theorem State.setNotices_keeps {s0 : State} {x1 : State} (x2 : Nat) (x3 : List (Nat × List Nat)) (hx1 : Keeps s0 x1) :
    Keeps s0 (State.setNotices x1 x2 x3) := by
  unfold State.setNotices
  with_reducible repeat' (first
    | assumption | fail_if_no_progress refine Keeps.mk' ?_ rfl rfl)

theorem State.postBatch_keeps {s0 : State} {x1 : State} (x2 : Nat) (x3 : Nat) (hx1 : Keeps s0 x1) :
    Keeps s0 (State.postBatch x1 x2 x3) := by
  unfold State.postBatch
  with_reducible repeat' (first
    | assumption | apply State.setNotices_keeps | apply State.postRec_keeps | apply Keeps.ite)

theorem State.notice_keeps {s0 : State} {x1 : State} (x2 : Nat) (x3 : Nat) (x4 : List Nat) (x5 : Nat) (x6 : Nat) (x7 : Nat) (hx1 : Keeps s0 x1) :
    Keeps s0 (State.notice x1 x2 x3 x4 x5 x6 x7) := by
  unfold State.notice
  with_reducible repeat' (first
    | assumption | apply State.postRated_keeps | apply State.inc_keeps | apply State.setNotices_keeps | apply State.postBatch_keeps
    | apply Keeps.ite | fail_if_no_progress refine Keeps.mk' ?_ rfl rfl)

theorem State.brMove_keeps {s0 : State} {x1 : State} (x2 : Nat) (x3 : Nat) (x4 : List Nat) (x5 : List Nat) (x6 : Nat) (hx1 : Keeps s0 x1) :
    KP s0 (State.brMove x1 x2 x3 x4 x5 x6) := by
  unfold State.brMove
  with_reducible repeat' (first
    | assumption | apply State.notice_keeps | apply State.inc_keeps | apply State.post_keeps | apply KP.ite)

theorem State.sight_keeps {s0 : State} {x1 : State} (x2 : Nat) (x3 : Nat) (x4 : Nat) (x5 : List Nat) (x6 : Nat) (x7 : Nat) (hx1 : Keeps s0 x1) :
    KP s0 (State.sight x1 x2 x3 x4 x5 x6 x7) := by
  unfold State.sight
  with_reducible repeat' (first
    | assumption | apply State.learnFail_keeps | apply State.emPlace_keeps | apply State.notice_keeps | apply State.inc_keeps
    | apply State.emRewrite_keeps | apply State.brMove_keeps | apply Keeps.ite | apply KP.ite | refine Keeps.ofSome ?_ (by assumption)
    | dsimp only | split)

theorem State.sweepEntry_keeps {s0 : State} {x1 : State} (x2 : Nat) (x3 : Nat) (x4 : List Nat) (hx1 : Keeps s0 x1) :
    Keeps s0 (State.sweepEntry x1 x2 x3 x4) := by
  unfold State.sweepEntry
  with_reducible repeat' (first
    | assumption | apply State.notice_keeps | apply State.emFreeAt_keeps | apply State.inc_keeps | apply State.emRewrite_keeps
    | apply Keeps.ite | dsimp only | split)

theorem State.evictTo_keeps {s0 : State} (x1 : Nat) (x2 : Nat) {x3 : State} (hx3 : Keeps s0 x3) :
    Keeps s0 (State.evictTo x1 x2 x3) := by
  induction x2 generalizing x3 with
  | zero => unfold State.evictTo; with_reducible repeat' (first
    | assumption)
  | succ n ih =>
    unfold State.evictTo
    with_reducible repeat' (first
    | assumption | apply ih | apply State.inc_keeps | apply Keeps.ite | fail_if_no_progress refine Keeps.mk' ?_ rfl rfl | dsimp only
    | split)

theorem State.writeHot_keeps {s0 : State} {x1 : State} (x2 : Nat) (hx1 : Keeps s0 x1) :
    Keeps s0 (State.writeHot x1 x2) := by
  unfold State.writeHot
  with_reducible repeat' (first
    | assumption | apply State.fibCount_keeps | apply State.evictTo_keeps | apply State.wr_keeps | apply Keeps.ite
    | fail_if_no_progress refine Keeps.mk' ?_ rfl rfl)

theorem State.setCall_keeps {s0 : State} {x1 : State} (x2 : Nat) (x3 : Sys2Proof.Machine.Call) (hx1 : Keeps s0 x1) :
    Keeps s0 (State.setCall x1 x2 x3) := by
  unfold State.setCall
  with_reducible repeat' (first
    | assumption | fail_if_no_progress refine Keeps.mk' ?_ rfl rfl)

theorem State.answer_keeps {s0 : State} {x1 : State} (x2 : Nat) (x3 : Sys2Proof.Machine.Call) (x4 : List Nat) (hx1 : Keeps s0 x1) :
    Keeps s0 (State.answer x1 x2 x3 x4) := by
  unfold State.answer
  with_reducible repeat' (first
    | assumption | apply State.setCall_keeps)

theorem State.fibCorrects_keeps {s0 : State} {x1 : State} (x2 : Nat) (x3 : Nat) (x4 : Nat) (hx1 : Keeps s0 x1) :
    Keeps s0 (State.fibCorrects x1 x2 x3 x4) := by
  unfold State.fibCorrects
  with_reducible repeat' (first
    | assumption | apply State.corrects_keeps | split)

theorem State.countBlock_keeps {s0 : State} {x1 : State} (x2 : Nat) (hx1 : Keeps s0 x1) :
    Keeps s0 (State.countBlock x1 x2) := by
  unfold State.countBlock
  with_reducible repeat' (first
    | assumption | apply Keeps.ite | fail_if_no_progress refine Keeps.mk' ?_ rfl rfl)

theorem execFibLookup_keeps {s0 : State} (x1 : Nat) (x2 : List (Nat × Nat × Bool)) {x3 : State} (hx3 : Keeps s0 x3) :
    KO s0 (execFibLookup x1 x2 x3) := by
  unfold execFibLookup
  with_reducible repeat' (first
    | assumption | apply State.upset_keeps | apply State.answer_keeps | apply State.fibCorrects_keeps | apply State.countBlock_keeps
    | apply State.inc_keeps | apply State.postRated_keeps | apply State.setCall_keeps | apply KO.ite | apply KO.next
    | fail_if_no_progress refine Keeps.mk' ?_ rfl rfl | dsimp only | split)

theorem execTailDescent_keeps {s0 : State} (x1 : Nat) (x2 : List (Nat × Nat × Bool)) {x3 : State} (hx3 : Keeps s0 x3) :
    KO s0 (execTailDescent x1 x2 x3) := by
  unfold execTailDescent
  with_reducible repeat' (first
    | assumption | apply State.upset_keeps | apply State.answer_keeps | apply State.fibCorrects_keeps | apply KO.ite | apply KO.next
    | fail_if_no_progress refine Keeps.mk' ?_ rfl rfl | dsimp only | split)

theorem execEmLookup_keeps {s0 : State} (x1 : Nat) (x2 : List (Nat × Nat × Bool)) {x3 : State} (hx3 : Keeps s0 x3) :
    KO s0 (execEmLookup x1 x2 x3) := by
  unfold execEmLookup
  with_reducible repeat' (first
    | assumption | apply State.upset_keeps | apply State.answer_keeps | apply State.corrects_keeps | apply KO.ite | apply KO.next
    | dsimp only | split)

theorem execTerLookup_keeps {s0 : State} (x1 : Nat) (x2 : List (Nat × Nat × Bool)) {x3 : State} (hx3 : Keeps s0 x3) :
    KO s0 (execTerLookup x1 x2 x3) := by
  unfold execTerLookup
  with_reducible repeat' (first
    | assumption | apply State.upset_keeps | apply State.answer_keeps | apply State.corrects_keeps | apply KO.next | dsimp only | split)

theorem execCntPost_keeps {s0 : State} (x1 : Nat) {x2 : State} (hx2 : Keeps s0 x2) :
    KO s0 (execCntPost x1 x2) := by
  unfold execCntPost
  with_reducible repeat' (first
    | assumption | apply State.inc_keeps | apply State.cntAdd_keeps | apply KO.ite | apply KO.next
    | fail_if_no_progress refine Keeps.mk' ?_ rfl rfl | dsimp only | split)

theorem execAdjRead_keeps {s0 : State} (x1 : Nat) (x2 : List (Nat × Nat × Bool)) {x3 : State} (hx3 : Keeps s0 x3) :
    KO s0 (execAdjRead x1 x2 x3) := by
  unfold execAdjRead
  with_reducible repeat' (first
    | assumption | apply State.upset_keeps | apply State.answer_keeps | apply State.corrects_keeps | apply KO.ite | apply KO.next
    | dsimp only | split)

theorem State.sightUnless_keeps {s0 : State} {x1 : State} (x2 : Bool) (x3 : Nat) (x4 : Nat) (x5 : Nat) (x6 : List Nat) (x7 : Nat) (x8 : Nat) (hx1 : Keeps s0 x1) :
    KP s0 (State.sightUnless x1 x2 x3 x4 x5 x6 x7 x8) := by
  unfold State.sightUnless
  with_reducible repeat' (first
    | assumption | apply State.sight_keeps | apply KP.ite)

theorem execBrgLookup_keeps {s0 : State} (x1 : Nat) (x2 : List (Nat × Nat × Bool)) {x3 : State} (hx3 : Keeps s0 x3) :
    KO s0 (execBrgLookup x1 x2 x3) := by
  unfold execBrgLookup
  with_reducible repeat' (first
    | assumption | apply State.upset_keeps | apply State.answer_keeps | apply State.corrects_keeps | apply State.sightUnless_keeps
    | apply KO.ite | apply KO.next | dsimp only | split)

theorem execNoticeBatchHoldExpire_keeps {s0 : State} (x1 : Nat) {x2 : State} (hx2 : Keeps s0 x2) :
    KO s0 (execNoticeBatchHoldExpire x1 x2) := by
  unfold execNoticeBatchHoldExpire
  with_reducible repeat' (first
    | assumption | apply State.postBatch_keeps | apply KO.ite | apply KO.next | split)

theorem execSweepVisit_keeps {s0 : State} (x1 : Nat) {x2 : State} (hx2 : Keeps s0 x2) :
    KO s0 (execSweepVisit x1 x2) := by
  unfold execSweepVisit
  with_reducible repeat' (first
    | assumption | apply State.nextSweep_keeps | apply State.sweepEntry_keeps | apply State.setSweep_keeps | apply KO.ite | apply KO.next
    | refine Keeps.foldl ?_ _ ?_ | (intro _; intros) | dsimp only | split)

theorem State.evictFor_keeps {s0 : State} (x1 : Nat) (x2 : Nat) (x3 : Nat) {x4 : State} (hx4 : Keeps s0 x4) :
    KM s0 (State.evictFor x1 x2 x3 x4) := by
  induction x3 generalizing x4 with
  | zero => unfold State.evictFor; with_reducible repeat' (first
    | apply KM.none)
  | succ n ih =>
    unfold State.evictFor
    with_reducible repeat' (first
    | assumption | apply ih | apply State.inc_keeps | apply KM.ite | apply KM.some | apply KM.none
    | fail_if_no_progress refine Keeps.mk' ?_ rfl rfl | dsimp only | split)

theorem execHotPeriodEnd_keeps {s0 : State} {x1 : State} (hx1 : Keeps s0 x1) :
    KO s0 (execHotPeriodEnd x1) := by
  unfold execHotPeriodEnd
  with_reducible repeat' (first
    | assumption | apply State.evictFor_keeps | apply State.fibCount_keeps | apply KO.ite | apply KP.ite | apply KO.next
    | refine KP.foldl ?_ _ ?_ | (intro _; intros) | fail_if_no_progress refine Keeps.mk' ?_ rfl rfl
    | refine Keeps.ofSome ?_ (by assumption) | dsimp only | split)

theorem execHotCopyDone_keeps {s0 : State} (x1 : Nat) {x2 : State} (hx2 : Keeps s0 x2) :
    KO s0 (execHotCopyDone x1 x2) := by
  unfold execHotCopyDone
  with_reducible repeat' (first
    | assumption | apply State.fibCount_keeps | apply State.inc_keeps | apply KO.next | fail_if_no_progress refine Keeps.mk' ?_ rfl rfl
    | dsimp only | split)

theorem State.hotAfterDisable_keeps {s0 : State} {x1 : State} (hx1 : Keeps s0 x1) :
    Keeps s0 (State.hotAfterDisable x1) := by
  unfold State.hotAfterDisable
  with_reducible repeat' (first
    | assumption | apply State.writeHot_keeps | fail_if_no_progress refine Keeps.mk' ?_ rfl rfl | dsimp only | split)

theorem execXfibDisableDone_keeps {s0 : State} {x1 : State} (hx1 : Keeps s0 x1) :
    KO s0 (execXfibDisableDone x1) := by
  unfold execXfibDisableDone
  with_reducible repeat' (first
    | assumption | apply State.fibEmpty_keeps | apply State.fibAllOnDie_keeps | apply State.hotAfterDisable_keeps | apply State.wr_keeps
    | apply KO.ite | apply KO.next | fail_if_no_progress refine Keeps.mk' ?_ rfl rfl)

theorem execHotUnitsMoveDone_keeps {s0 : State} {x1 : State} (hx1 : Keeps s0 x1) :
    KO s0 (execHotUnitsMoveDone x1) := by
  unfold execHotUnitsMoveDone
  with_reducible repeat' (first
    | assumption | apply State.wr_keeps | apply State.setFib_keeps | apply KO.ite | apply KO.next
    | fail_if_no_progress refine Keeps.mk' ?_ rfl rfl | dsimp only | split)

theorem execEmClearDone_keeps {s0 : State} (x1 : Nat) {x2 : State} (hx2 : Keeps s0 x2) :
    KO s0 (execEmClearDone x1 x2) := by
  unfold execEmClearDone
  with_reducible repeat' (first
    | assumption | apply State.emClear_keeps | apply KO.ite | apply KO.next)

theorem execAdjRetireExpire_keeps {s0 : State} (x1 : Nat) {x2 : State} (hx2 : Keeps s0 x2) :
    KO s0 (execAdjRetireExpire x1 x2) := by
  unfold execAdjRetireExpire
  with_reducible repeat' (first
    | assumption | apply State.setAdj_keeps | apply State.wordWritten_keeps | apply State.wr_keeps | apply State.post_keeps | apply KO.ite
    | apply KO.next)

theorem execParserFlipComplete_keeps {s0 : State} {x1 : State} (hx1 : Keeps s0 x1) :
    KO s0 (execParserFlipComplete x1) := by
  unfold execParserFlipComplete
  with_reducible repeat' (first
    | assumption | apply State.post_keeps | apply KO.ite | apply KO.next | fail_if_no_progress refine Keeps.mk' ?_ rfl rfl)

theorem State.cmdCross_keeps {s0 : State} {x1 : State} (hx1 : Keeps s0 x1) :
    Keeps s0 (State.cmdCross x1) := by
  unfold State.cmdCross
  with_reducible repeat' (first
    | assumption | apply State.ctlNow_keeps)

theorem State.viaFd_keeps {s0 : State} {x1 : State} (x2 : Nat) (x3 : Sys2Proof.Machine.Taken) (x4 : Sys2Proof.Machine.State → Sys2Proof.Machine.State) (hx1 : Keeps s0 x1) (hx4 : ∀ t0, Keeps s0 t0 → Keeps s0 (x4 t0)) :
    Keeps s0 (State.viaFd x1 x2 x3 x4) := by
  unfold State.viaFd
  with_reducible repeat' (first
    | assumption | apply hx4 | apply State.cmdCross_keeps | apply State.finishTok_keeps | apply State.finBusy_keeps | apply Keeps.ite)

theorem State.fdOp_keeps {s0 : State} {x1 : State} (x2 : Nat) (x3 : Sys2Proof.Machine.State → Nat → Sys2Proof.Machine.Taken → Sys2Proof.Machine.State) (hx1 : Keeps s0 x1) (hx3 : ∀ t0 t1 t2, Keeps s0 t0 → Keeps s0 (x3 t0 t1 t2)) :
    Keeps s0 (State.fdOp x1 x2 x3) := by
  unfold State.fdOp
  with_reducible repeat' (first
    | assumption | apply hx3 | apply State.viaFd_keeps | (intro _; intros) | split)

theorem State.finWith_keeps {s0 : State} {x1 : State} (x2 : Nat) (x3 : Nat) (hx1 : Keeps s0 x1) :
    Keeps s0 (State.finWith x1 x2 x3) := by
  unfold State.finWith
  with_reducible repeat' (first
    | assumption | apply State.finDone_keeps | apply State.finBusy_keeps | apply State.finRefused_keeps | apply Keeps.ite)

theorem execFibInsert_keeps {s0 : State} {x1 : State} (hx1 : Keeps s0 x1) :
    KO s0 (execFibInsert x1) := by
  unfold execFibInsert
  with_reducible repeat' (first
    | assumption | apply State.fdOp_keeps | apply State.finBusy_keeps | apply State.fibInsert_keeps | apply State.finWith_keeps
    | apply Keeps.ite | apply KO.next | (intro _; intros))

theorem execFibDelete_keeps {s0 : State} {x1 : State} (hx1 : Keeps s0 x1) :
    KO s0 (execFibDelete x1) := by
  unfold execFibDelete
  with_reducible repeat' (first
    | assumption | apply State.fdOp_keeps | apply State.finBusy_keeps | apply State.fibDelete_keeps | apply State.finWith_keeps
    | apply Keeps.ite | apply KO.next | (intro _; intros))

theorem State.fdBulk_keeps {s0 : State} {x1 : State} (x2 : Nat) (x3 : Sys2Proof.Machine.State → Nat → Sys2Proof.Machine.Taken → Sys2Proof.Machine.State) (hx1 : Keeps s0 x1) (hx3 : ∀ t0 t1 t2, Keeps s0 t0 → Keeps s0 (x3 t0 t1 t2)) :
    Keeps s0 (State.fdBulk x1 x2 x3) := by
  unfold State.fdBulk
  with_reducible repeat' (first
    | assumption | apply hx3 | apply State.fdOp_keeps | apply Keeps.ite | (intro _; intros))

theorem crossing_keeps {s0 : State} (x1 : Nat → Sys2Proof.Machine.State → Sys2Proof.Machine.Entry) (x2 : Nat) {x3 : State} (hx3 : Keeps s0 x3) (hx1 : ∀ t0 t1, Keeps s0 t1 → KE s0 (x1 t0 t1)) :
    KE s0 (crossing x1 x2 x3) := by
  unfold crossing
  with_reducible repeat' (first
    | assumption | apply hx1 | apply State.cmdCross_keeps | apply KE.wait | apply KE.ite)

theorem recordResult_keeps {s0 : State} {x1 : Nat × Sys2Proof.Machine.State} (hx1 : KP s0 x1) :
    KE s0 (recordResult x1) := by
  unfold recordResult
  with_reducible repeat' (first
    | assumption | apply KE.go | apply KE.stop | apply KE.ite)

theorem State.fibRecord_keeps {s0 : State} {x1 : State} (x2 : List Nat) (hx1 : Keeps s0 x1) :
    KP s0 (State.fibRecord x1 x2) := by
  unfold State.fibRecord
  with_reducible repeat' (first
    | assumption | apply State.fibInsert_keeps | apply State.fibDelete_keeps | apply KP.ite | dsimp only | split)

theorem execFibBulk_keeps {s0 : State} (x1 : Nat) {x2 : State} (hx2 : Keeps s0 x2) :
    KO s0 (execFibBulk x1 x2) := by
  unfold execFibBulk
  with_reducible repeat' (first
    | assumption | apply State.fdBulk_keeps | apply State.finBusy_keeps | apply bulkRun_keeps | apply crossing_keeps
    | apply recordResult_keeps | apply State.fibRecord_keeps | apply Keeps.ite | apply KO.next | (intro _; intros))

theorem dumpRun_keeps {s0 : State} (x1 : Nat) (x2 : Nat) (x3 : Nat) (x4 : Nat) (x5 : Sys2Proof.Machine.State → Nat → Option (Nat × List Nat)) (x6 : Nat) {x7 : State} (hx7 : Keeps s0 x7) :
    Keeps s0 (dumpRun x1 x2 x3 x4 x5 x6 x7) := by
  induction x6 generalizing x7 with
  | zero => unfold dumpRun; with_reducible repeat' (first
    | assumption)
  | succ n ih =>
    unfold dumpRun
    with_reducible repeat' (first
    | assumption | apply ih | apply State.finish_keeps | apply State.finishTok_keeps | apply State.updTaken_keeps
    | apply State.dmaWrite_keeps | apply State.cmdCross_keeps | apply State.stepEntry_keeps | apply Keeps.ite | dsimp only | split)

theorem execFibDump_keeps {s0 : State} (x1 : Nat) {x2 : State} (hx2 : Keeps s0 x2) :
    KO s0 (execFibDump x1 x2) := by
  unfold execFibDump
  with_reducible repeat' (first
    | assumption | apply State.fdBulk_keeps | apply State.finBusy_keeps | apply dumpRun_keeps | apply Keeps.ite | apply KO.next
    | (intro _; intros))

theorem emRegions_keeps {s0 : State} (x1 : Sys2Proof.Machine.State → Nat → Nat × Sys2Proof.Machine.State) (x2 : List Nat) (x3 : Nat) {x4 : State} (hx4 : Keeps s0 x4) (hx1 : ∀ t0 t1, Keeps s0 t0 → KP s0 (x1 t0 t1)) :
    Keeps s0 (emRegions x1 x2 x3 x4).2.2 := by
  revert hx4
  fun_induction emRegions x1 x2 x3 x4 <;> (intros; with_reducible repeat' (first
    | assumption | apply_assumption | refine Keeps.ofPair ?_ (by assumption)))

theorem State.emCommand_keeps {s0 : State} {x1 : State} (x2 : Nat) (x3 : Sys2Proof.Machine.Taken) (x4 : List Nat → Sys2Proof.Machine.State → Nat → Nat × Sys2Proof.Machine.State) (hx1 : Keeps s0 x1) (hx4 : ∀ t0 t1 t2, Keeps s0 t1 → KP s0 (x4 t0 t1 t2)) :
    Keeps s0 (State.emCommand x1 x2 x3 x4) := by
  unfold State.emCommand
  with_reducible repeat' (first
    | assumption | apply hx4 | apply State.finRefused_keeps | apply emRegions_keeps | apply State.finish_keeps
    | apply State.finishTok_keeps | apply State.finWith_keeps | apply Keeps.ite)

theorem execEmInsert_keeps {s0 : State} {x1 : State} (hx1 : Keeps s0 x1) :
    KO s0 (execEmInsert x1) := by
  unfold execEmInsert
  with_reducible repeat' (first
    | assumption | apply State.fdOp_keeps | apply State.emCommand_keeps | apply State.emInsert_keeps | apply KO.next | (intro _; intros))

theorem execEmDelete_keeps {s0 : State} {x1 : State} (hx1 : Keeps s0 x1) :
    KO s0 (execEmDelete x1) := by
  unfold execEmDelete
  with_reducible repeat' (first
    | assumption | apply State.fdOp_keeps | apply State.emCommand_keeps | apply State.emDelete_keeps | apply KO.next | (intro _; intros))

theorem State.emRecord_keeps {s0 : State} {x1 : State} (x2 : Nat) (x3 : Nat) (x4 : List Nat) (hx1 : Keeps s0 x1) :
    Keeps s0 (State.emRecord x1 x2 x3 x4).2.2 := by
  unfold State.emRecord
  with_reducible repeat' (first
    | assumption | apply State.emInsert_keeps | apply State.emDelete_keeps | apply emRegions_keeps | apply KP.ite | (intro _; intros)
    | dsimp only | split)

theorem execEmBulk_keeps {s0 : State} (x1 : Nat) {x2 : State} (hx2 : Keeps s0 x2) :
    KO s0 (execEmBulk x1 x2) := by
  unfold execEmBulk
  with_reducible repeat' (first
    | assumption | apply State.fdBulk_keeps | apply State.finRefused_keeps | apply State.finishTok_keeps | apply bulkRun_keeps
    | apply crossing_keeps | apply State.emRecord_keeps | apply State.updTaken_keeps | apply KE.go | apply KE.stop | apply KE.ite
    | apply Keeps.ite | apply KO.next | (intro _; intros))

theorem execEmDump_keeps {s0 : State} (x1 : Nat) {x2 : State} (hx2 : Keeps s0 x2) :
    KO s0 (execEmDump x1 x2) := by
  unfold execEmDump
  with_reducible repeat' (first
    | assumption | apply State.fdBulk_keeps | apply State.finRefused_keeps | apply dumpRun_keeps | apply Keeps.ite | apply KO.next
    | (intro _; intros))

theorem execTerWrite_keeps {s0 : State} {x1 : State} (hx1 : Keeps s0 x1) :
    KO s0 (execTerWrite x1) := by
  unfold execTerWrite
  with_reducible repeat' (first
    | assumption | apply State.fdOp_keeps | apply State.terWrite_keeps | apply State.finWith_keeps | apply Keeps.ite | apply KO.next
    | (intro _; intros))

theorem execTerDelete_keeps {s0 : State} {x1 : State} (hx1 : Keeps s0 x1) :
    KO s0 (execTerDelete x1) := by
  unfold execTerDelete
  with_reducible repeat' (first
    | assumption | apply State.fdOp_keeps | apply State.terDelete_keeps | apply State.finWith_keeps | apply KO.next | (intro _; intros))

theorem execAdjWrite_keeps {s0 : State} {x1 : State} (hx1 : Keeps s0 x1) :
    KO s0 (execAdjWrite x1) := by
  unfold execAdjWrite
  with_reducible repeat' (first
    | assumption | apply State.fdOp_keeps | apply State.adjWrite_keeps | apply State.finWith_keeps | apply KO.next | (intro _; intros))

theorem execAdjDelete_keeps {s0 : State} {x1 : State} (hx1 : Keeps s0 x1) :
    KO s0 (execAdjDelete x1) := by
  unfold execAdjDelete
  with_reducible repeat' (first
    | assumption | apply State.fdOp_keeps | apply State.adjDelete_keeps | apply State.finWith_keeps | apply KO.next | (intro _; intros))

theorem State.putParser_keeps {s0 : State} {x1 : State} (x2 : Nat) (x3 : Nat) (x4 : List Nat) (hx1 : Keeps s0 x1) :
    Keeps s0 (State.putParser x1 x2 x3 x4) := by
  induction x4 generalizing x1 x3 with
  | nil => unfold State.putParser; with_reducible repeat' (first
    | assumption)
  | cons e l ih =>
    unfold State.putParser
    with_reducible repeat' (first
    | assumption | apply ih | fail_if_no_progress refine Keeps.mk' ?_ rfl rfl)

theorem State.parserLoaded_keeps {s0 : State} {x1 : State} (x2 : Nat) (hx1 : Keeps s0 x1) :
    Keeps s0 (State.parserLoaded x1 x2) := by
  unfold State.parserLoaded
  with_reducible repeat' (first
    | assumption | apply State.finish_keeps | apply State.wr_keeps | apply State.finRefused_keeps | apply Keeps.ite
    | fail_if_no_progress refine Keeps.mk' ?_ rfl rfl)

theorem parserPieces_keeps {s0 : State} (x1 : Nat) (x2 : Nat) (x3 : Nat) {x4 : State} (hx4 : Keeps s0 x4) :
    Keeps s0 (parserPieces x1 x2 x3 x4) := by
  induction x3 generalizing x4 with
  | zero => unfold parserPieces; with_reducible repeat' (first
    | assumption)
  | succ n ih =>
    unfold parserPieces
    with_reducible repeat' (first
    | assumption | apply ih | apply State.cmdCross_keeps | apply State.wordWritten_keeps | apply State.stepEntry_keeps
    | apply State.putParser_keeps | apply State.parserLoaded_keeps | apply Keeps.ite | refine Keeps.foldl ?_ _ ?_ | (intro _; intros)
    | dsimp only | split)

theorem execParserLoad_keeps {s0 : State} (x1 : Nat) {x2 : State} (hx2 : Keeps s0 x2) :
    KO s0 (execParserLoad x1 x2) := by
  unfold execParserLoad
  with_reducible repeat' (first
    | assumption | apply State.fdBulk_keeps | apply State.finBusy_keeps | apply parserPieces_keeps | apply State.updTaken_keeps
    | apply State.wr_keeps | apply State.finRefused_keeps | apply Keeps.ite | apply KO.next | (intro _; intros)
    | fail_if_no_progress refine Keeps.mk' ?_ rfl rfl)

theorem execParserFlip_keeps {s0 : State} {x1 : State} (hx1 : Keeps s0 x1) :
    KO s0 (execParserFlip x1) := by
  unfold execParserFlip
  with_reducible repeat' (first
    | assumption | apply State.fdOp_keeps | apply State.finBusy_keeps | apply State.wr_keeps | apply State.finDone_keeps | apply Keeps.ite
    | apply KO.next | (intro _; intros) | fail_if_no_progress refine Keeps.mk' ?_ rfl rfl)

theorem execTableRead_keeps {s0 : State} {x1 : State} (hx1 : Keeps s0 x1) :
    KO s0 (execTableRead x1) := by
  unfold execTableRead
  with_reducible repeat' (first
    | assumption | apply State.fdOp_keeps | apply State.finRefused_keeps | apply State.finData_keeps | apply Keeps.ite | apply KO.next
    | (intro _; intros) | dsimp only | split)

theorem State.ifFd_keeps {s0 : State} {x1 : State} (x2 : Bool) (x3 : Nat) (x4 : Sys2Proof.Machine.State → Sys2Proof.Machine.State) (hx1 : Keeps s0 x1) (hx4 : ∀ t0, Keeps s0 t0 → Keeps s0 (x4 t0)) :
    Keeps s0 (State.ifFd x1 x2 x3 x4) := by
  unfold State.ifFd
  with_reducible repeat' (first
    | assumption | apply hx4 | apply State.cmdCross_keeps | apply State.finBusy_keeps | apply Keeps.ite)

end Sys2Proof.Machine
end

