-- ==== Sys2Proof/Laws/KeepsSeats.lean ====
section
/-! SUPPORT. That each operation keeps what `Keeps` says: seats, repairs and service life. -/
namespace Sys2Proof.Machine

theorem State.sessionIdle_keeps {s0 : State} {x1 : State} (hx1 : Keeps s0 x1) :
    Keeps s0 (State.sessionIdle x1) := by
  unfold State.sessionIdle
  with_reducible repeat' (first
    | assumption | apply State.wr_keeps | fail_if_no_progress refine Keeps.mk' ?_ rfl rfl)

theorem State.endSession_keeps {s0 : State} {x1 : State} (x2 : Nat) (hx1 : Keeps s0 x1) :
    Keeps s0 (State.endSession x1 x2) := by
  unfold State.endSession
  with_reducible repeat' (first
    | assumption | apply State.inc_keeps | apply State.wr_keeps | apply State.sessionIdle_keeps | apply State.post_keeps)

theorem State.seatActs_keeps {s0 : State} {x1 : State} (x2 : Sys2Proof.Machine.SeatOut) (hx1 : Keeps s0 x1) :
    Keeps s0 (State.seatActs x1 x2) := by
  unfold State.seatActs
  with_reducible repeat' (first
    | assumption | apply State.sbPut_keeps | split)

theorem State.releaseOut_keeps {s0 : State} (x1 : Nat) {x2 : State} (hx2 : Keeps s0 x2) :
    Keeps s0 (State.releaseOut x1 x2) := by
  induction x1 generalizing x2 with
  | zero => unfold State.releaseOut; with_reducible repeat' (first
    | assumption)
  | succ n ih =>
    unfold State.releaseOut
    with_reducible repeat' (first
    | assumption | apply ih | apply State.setSeat_keeps | apply State.seatActs_keeps | apply State.inc_keeps | apply Keeps.ite
    | fail_if_no_progress refine Keeps.mk' ?_ rfl rfl | dsimp only | split)

theorem State.release2_keeps {s0 : State} {x1 : State} (hx1 : Keeps s0 x1) :
    Keeps s0 (State.release2 x1) := by
  unfold State.release2
  with_reducible repeat' (first
    | assumption | apply State.releaseOut_keeps)

theorem State.seatBump_keeps {s0 : State} {x1 : State} (x2 : Bool) (hx1 : Keeps s0 x1) :
    Keeps s0 (State.seatBump x1 x2) := by
  unfold State.seatBump
  with_reducible repeat' (first
    | assumption | apply State.wr_keeps)

theorem State.seatTo_keeps {s0 : State} {x1 : State} (x2 : Bool) (x3 : Nat) (hx1 : Keeps s0 x1) :
    Keeps s0 (State.seatTo x1 x2 x3) := by
  unfold State.seatTo
  with_reducible repeat' (first
    | assumption | apply State.wr_keeps | apply State.seatBump_keeps | apply State.wrBit_keeps | apply State.addSat_keeps
    | apply Keeps.ite | fail_if_no_progress refine Keeps.mk' ?_ rfl rfl)

theorem State.seatLoad_keeps {s0 : State} {x1 : State} (x2 : Bool) (x3 : Bool) (hx1 : Keeps s0 x1) :
    Keeps s0 (State.seatLoad x1 x2 x3) := by
  unfold State.seatLoad
  with_reducible repeat' (first
    | assumption | apply State.seatTo_keeps | apply State.setSeat_keeps)

theorem State.seatBoot_keeps {s0 : State} {x1 : State} (x2 : Bool) (hx1 : Keeps s0 x1) :
    Keeps s0 (State.seatBoot x1 x2) := by
  unfold State.seatBoot
  with_reducible repeat' (first
    | assumption | apply State.seatLoad_keeps)

theorem execSeatRestart_keeps {s0 : State} {x1 : State} (hx1 : Keeps s0 x1) :
    KO s0 (execSeatRestart x1) := by
  unfold execSeatRestart
  with_reducible repeat' (first
    | assumption | apply State.finRefused_keeps | apply State.finBusy_keeps | apply State.finDone_keeps | apply State.release2_keeps
    | apply State.post_keeps | apply State.seatBoot_keeps | apply KO.ite | apply KO.next | fail_if_no_progress refine Keeps.mk' ?_ rfl rfl
    | dsimp only | split)

theorem execResignClear_keeps {s0 : State} {x1 : State} (hx1 : Keeps s0 x1) :
    KO s0 (execResignClear x1) := by
  unfold execResignClear
  with_reducible repeat' (first
    | assumption | apply State.finRefused_keeps | apply State.abandonTest_keeps | apply State.finDone_keeps | apply Keeps.ite
    | apply KO.next | fail_if_no_progress refine Keeps.mk' ?_ rfl rfl | dsimp only | split)

theorem execSeatOutput_keeps {s0 : State} (x1 : Bool) (x2 : Nat) (x3 : Nat) (x4 : Nat) (x5 : Option (Bool × Bool)) {x6 : State} (hx6 : Keeps s0 x6) :
    KO s0 (execSeatOutput x1 x2 x3 x4 x5 x6) := by
  unfold execSeatOutput
  with_reducible repeat' (first
    | assumption | apply State.inc_keeps | apply State.release2_keeps | apply State.setSeat_keeps | apply KO.ite | apply KO.next)

theorem State.takeover_keeps {s0 : State} {x1 : State} (x2 : Bool) (hx1 : Keeps s0 x1) :
    Keeps s0 (State.takeover x1 x2) := by
  unfold State.takeover
  with_reducible repeat' (first
    | assumption | apply State.setSeat_keeps | apply State.seatTo_keeps | apply State.release2_keeps | apply State.post_keeps
    | apply State.inc_keeps | apply Keeps.ite)

theorem State.castleOn_keeps {s0 : State} {x1 : State} (x2 : Nat) (hx1 : Keeps s0 x1) :
    Keeps s0 (State.castleOn x1 x2) := by
  unfold State.castleOn
  with_reducible repeat' (first
    | assumption | fail_if_no_progress refine Keeps.mk' ?_ rfl rfl | dsimp only | split)

theorem State.castleAbandon_keeps {s0 : State} {x1 : State} (hx1 : Keeps s0 x1) :
    Keeps s0 (State.castleAbandon x1) := by
  unfold State.castleAbandon
  with_reducible repeat' (first
    | assumption | apply State.putRec_keeps | apply State.sessionIdle_keeps | apply State.endSession_keeps | apply Keeps.ite | dsimp only
    | split)

theorem State.castleFault_keeps {s0 : State} {x1 : State} (x2 : Bool) (x3 : Bool) (hx1 : Keeps s0 x1) :
    Keeps s0 (State.castleFault x1 x2 x3) := by
  unfold State.castleFault
  with_reducible repeat' (first
    | assumption | apply State.castleOn_keeps | apply State.seatLoad_keeps | apply State.castleAbandon_keeps | apply State.seatBoot_keeps
    | apply Keeps.ite | dsimp only | split)

theorem State.seatOut_keeps {s0 : State} {x1 : State} (x2 : Bool) (x3 : Bool) (x4 : Nat) (hx1 : Keeps s0 x1) :
    Keeps s0 (State.seatOut x1 x2 x3 x4) := by
  unfold State.seatOut
  with_reducible repeat' (first
    | assumption | apply State.setSeat_keeps | apply State.seatTo_keeps | apply State.resign_keeps | apply State.takeover_keeps
    | apply State.release2_keeps | apply State.castleFault_keeps | apply Keeps.ite | fail_if_no_progress refine Keeps.mk' ?_ rfl rfl)

theorem execSeatEvidence_keeps {s0 : State} (x1 : Bool) (x2 : Nat) {x3 : State} (hx3 : Keeps s0 x3) :
    KO s0 (execSeatEvidence x1 x2 x3) := by
  unfold execSeatEvidence
  with_reducible repeat' (first
    | assumption | apply State.wr_keeps | apply State.seatOut_keeps | apply KO.ite | apply KO.next)

theorem State.rollback_keeps {s0 : State} {x1 : State} (hx1 : Keeps s0 x1) :
    Keeps s0 (State.rollback x1) := by
  unfold State.rollback
  with_reducible repeat' (first
    | assumption | apply State.seatTo_keeps | apply State.setSeat_keeps | apply State.release2_keeps | apply State.post_keeps
    | apply Keeps.ite | fail_if_no_progress refine Keeps.mk' ?_ rfl rfl | dsimp only | split)

theorem execSelfcheckDone_keeps {s0 : State} (x1 : Bool × Bool × Bool) (x2 : Bool × Bool × Bool) {x3 : State} (hx3 : Keeps s0 x3) :
    KO s0 (execSelfcheckDone x1 x2 x3) := by
  unfold execSelfcheckDone
  with_reducible repeat' (first
    | assumption | apply State.rollback_keeps | apply State.wr_keeps | apply State.seatOut_keeps | apply KO.ite | apply KO.next)

theorem State.handOver_keeps {s0 : State} {x1 : State} (hx1 : Keeps s0 x1) :
    Keeps s0 (State.handOver x1) := by
  unfold State.handOver
  with_reducible repeat' (first
    | assumption | apply State.takeover_keeps | apply State.seatBoot_keeps | apply State.post_keeps | apply Keeps.ite
    | fail_if_no_progress refine Keeps.mk' ?_ rfl rfl | dsimp only | split)

theorem State.enterStep_keeps {s0 : State} {x1 : State} (x2 : Bool) (hx1 : Keeps s0 x1) :
    Keeps s0 (State.enterStep x1 x2) := by
  unfold State.enterStep
  with_reducible repeat' (first
    | assumption | apply State.post_keeps | apply State.seatTo_keeps | apply State.setSeat_keeps
    | fail_if_no_progress refine Keeps.mk' ?_ rfl rfl)

theorem execCheckpointCommit_keeps {s0 : State} (x1 : Bool) (x2 : Bool) (x3 : Bool) {x4 : State} (hx4 : Keeps s0 x4) :
    KO s0 (execCheckpointCommit x1 x2 x3 x4) := by
  unfold execCheckpointCommit
  with_reducible repeat' (first
    | assumption | apply State.handOver_keeps | apply State.enterStep_keeps | apply Keeps.ite | apply KO.ite | apply KO.next
    | fail_if_no_progress refine Keeps.mk' ?_ rfl rfl | dsimp only | split)

theorem State.replayJournal_keeps {s0 : State} {x1 : State} (x2 : Bool) (hx1 : Keeps s0 x1) :
    Keeps s0 (State.replayJournal x1 x2) := by
  unfold State.replayJournal
  with_reducible repeat' (first
    | assumption | apply State.setSeat_keeps)

theorem execRollbackDone_keeps {s0 : State} {x1 : State} (hx1 : Keeps s0 x1) :
    KO s0 (execRollbackDone x1) := by
  unfold execRollbackDone
  with_reducible repeat' (first
    | assumption | apply State.seatTo_keeps | apply State.replayJournal_keeps | apply State.release2_keeps | apply State.post_keeps
    | apply State.inc_keeps | apply KO.ite | apply KO.next | refine Keeps.foldl ?_ _ ?_ | (intro _; intros))

theorem execSeatHeartbeatSend_keeps {s0 : State} (x1 : Bool) (x2 : Bool) {x3 : State} (hx3 : Keeps s0 x3) :
    KO s0 (execSeatHeartbeatSend x1 x2 x3) := by
  unfold execSeatHeartbeatSend
  with_reducible repeat' (first
    | assumption | apply State.setSeat_keeps | apply KO.ite | apply KO.next | fail_if_no_progress refine Keeps.mk' ?_ rfl rfl)

theorem State.wedge_keeps {s0 : State} {x1 : State} (hx1 : Keeps s0 x1) :
    Keeps s0 (State.wedge x1) := by
  unfold State.wedge
  with_reducible repeat' (first
    | assumption | apply State.castleAbandon_keeps | apply State.castleOn_keeps | apply State.seatLoad_keeps | apply State.seatBump_keeps
    | apply State.post_keeps | apply Keeps.ite | refine Keeps.foldl ?_ _ ?_ | (intro _; intros)
    | fail_if_no_progress refine Keeps.mk' ?_ rfl rfl)

theorem execSeatHeartbeatLoss_keeps {s0 : State} (x1 : Bool) {x2 : State} (hx2 : Keeps s0 x2) :
    KO s0 (execSeatHeartbeatLoss x1 x2) := by
  unfold execSeatHeartbeatLoss
  with_reducible repeat' (first
    | assumption | apply State.wedge_keeps | apply State.inc_keeps | apply State.seatOut_keeps | apply State.seatTo_keeps
    | apply State.setSeat_keeps | apply State.release2_keeps | apply State.post_keeps | apply KO.ite | apply KO.next
    | fail_if_no_progress refine Keeps.mk' ?_ rfl rfl | dsimp only | split)

theorem execDetachedReturn_keeps {s0 : State} (x1 : Bool) {x2 : State} (hx2 : Keeps s0 x2) :
    KO s0 (execDetachedReturn x1 x2) := by
  unfold execDetachedReturn
  with_reducible repeat' (first
    | assumption | apply State.seatTo_keeps | apply State.setSeat_keeps | apply KO.ite | apply KO.next | dsimp only | split)

theorem execSeatWedge_keeps {s0 : State} {x1 : State} (hx1 : Keeps s0 x1) :
    KO s0 (execSeatWedge x1) := by
  unfold execSeatWedge
  with_reducible repeat' (first
    | assumption | apply State.wedge_keeps | apply Keeps.ite | apply KO.next)

theorem State.feedBack_keeps {s0 : State} {x1 : State} (x2 : Bool) (hx1 : Keeps s0 x1) :
    Keeps s0 (State.feedBack x1 x2) := by
  unfold State.feedBack
  with_reducible repeat' (first
    | assumption | apply State.wr_keeps | apply Keeps.ite | fail_if_no_progress refine Keeps.mk' ?_ rfl rfl)

theorem execSeatFeedReturn_keeps {s0 : State} (x1 : Bool) {x2 : State} (hx2 : Keeps s0 x2) :
    KO s0 (execSeatFeedReturn x1 x2) := by
  unfold execSeatFeedReturn
  with_reducible repeat' (first
    | assumption | apply State.feedBack_keeps | apply State.seatBoot_keeps | apply State.setSeat_keeps | apply KO.ite | apply KO.next)

theorem State.seatBooted_keeps {s0 : State} {x1 : State} (x2 : Bool) (hx1 : Keeps s0 x1) :
    Keeps s0 (State.seatBooted x1 x2) := by
  unfold State.seatBooted
  with_reducible repeat' (first
    | assumption | apply State.seatTo_keeps | apply Keeps.ite | fail_if_no_progress refine Keeps.mk' ?_ rfl rfl)

theorem execSeatBootDone_keeps {s0 : State} (x1 : Bool) (x2 : Bool) {x3 : State} (hx3 : Keeps s0 x3) :
    KO s0 (execSeatBootDone x1 x2 x3) := by
  unfold execSeatBootDone
  with_reducible repeat' (first
    | assumption | apply State.seatBooted_keeps | apply State.seatOut_keeps | apply KO.ite | apply KO.next)

theorem execResignClearTestDone_keeps {s0 : State} (x1 : Nat) (x2 : Bool) {x3 : State} (hx3 : Keeps s0 x3) :
    KO s0 (execResignClearTestDone x1 x2 x3) := by
  unfold execResignClearTestDone
  with_reducible repeat' (first
    | assumption | apply State.post_keeps | apply State.resign_keeps | apply State.seatBoot_keeps | apply State.wr_keeps
    | apply State.setCluster_keeps | apply KO.ite | apply KO.next | fail_if_no_progress refine Keeps.mk' ?_ rfl rfl | dsimp only | split)

theorem State.changeRole_keeps {s0 : State} {x1 : State} (x2 : Nat) (x3 : Nat) (hx1 : Keeps s0 x1) :
    Keeps s0 (State.changeRole x1 x2 x3) := by
  unfold State.changeRole
  with_reducible repeat' (first
    | assumption | apply State.wr_keeps | apply State.abandonTest_keeps)

theorem State.writeRole_keeps {s0 : State} {x1 : State} (x2 : Nat) (x3 : Nat) (hx1 : Keeps s0 x1) :
    Keeps s0 (State.writeRole x1 x2 x3) := by
  unfold State.writeRole
  with_reducible repeat' (first
    | assumption | apply State.wr_keeps | apply State.changeRole_keeps | apply Keeps.ite)

theorem State.retrain_keeps {s0 : State} {x1 : State} (x2 : Nat) (hx1 : Keeps s0 x1) :
    Keeps s0 (State.retrain x1 x2) := by
  unfold State.retrain
  with_reducible repeat' (first
    | assumption | apply State.wr_keeps | apply State.setModul_keeps | apply State.abandonTest_keeps | apply Keeps.ite
    | refine Keeps.foldl ?_ _ ?_ | (intro _; intros) | fail_if_no_progress refine Keeps.mk' ?_ rfl rfl)

theorem State.writeD2dCtl_keeps {s0 : State} {x1 : State} (x2 : Nat) (x3 : Bool) (hx1 : Keeps s0 x1) :
    Keeps s0 (State.writeD2dCtl x1 x2 x3) := by
  unfold State.writeD2dCtl
  with_reducible repeat' (first
    | assumption | apply State.wr_keeps | apply State.retrain_keeps | apply Keeps.ite)

theorem State.weakRow_keeps {s0 : State} {x1 : State} (x2 : Nat) (x3 : Nat) (x4 : Nat) (hx1 : Keeps s0 x1) :
    Keeps s0 (State.weakRow x1 x2 x3 x4) := by
  unfold State.weakRow
  with_reducible repeat' (first
    | assumption | apply State.post_keeps | apply Keeps.ite | fail_if_no_progress refine Keeps.mk' ?_ rfl rfl)

theorem State.takeRow_keeps {s0 : State} {x1 : State} (x2 : List Nat) (hx1 : Keeps s0 x1) :
    Keeps s0 (State.takeRow x1 x2) := by
  unfold State.takeRow
  with_reducible repeat' (first
    | assumption | apply State.syncFree_keeps | fail_if_no_progress refine Keeps.mk' ?_ rfl rfl)

theorem State.scrubSram_keeps {s0 : State} {x1 : State} (x2 : Nat) (x3 : Nat) (x4 : Nat) (x5 : Bool) (x6 : List Nat) (hx1 : Keeps s0 x1) :
    Keeps s0 (State.scrubSram x1 x2 x3 x4 x5 x6) := by
  unfold State.scrubSram
  with_reducible repeat' (first
    | assumption | apply State.weakRow_keeps | apply State.takeRow_keeps | apply Keeps.ite
    | fail_if_no_progress refine Keeps.mk' ?_ rfl rfl)

theorem execTableScrub_keeps {s0 : State} (x1 : Nat) (x2 : Nat) (x3 : List (Nat × Nat × Bool)) (x4 : Option (Nat × Nat × Nat × Bool × List Nat)) {x5 : State} (hx5 : Keeps s0 x5) :
    KO s0 (execTableScrub x1 x2 x3 x4 x5) := by
  unfold execTableScrub
  with_reducible repeat' (first
    | assumption | apply State.scrubSram_keeps | apply State.upset_keeps | apply State.post_keeps | apply State.inc_keeps
    | apply State.weakRow_keeps | apply Keeps.ite | apply KO.ite | apply KO.next | fail_if_no_progress refine Keeps.mk' ?_ rfl rfl
    | dsimp only | split)

theorem State.tryRetire_keeps {s0 : State} {x1 : State} (x2 : Nat) (hx1 : Keeps s0 x1) :
    Keeps s0 (State.tryRetire x1 x2) := by
  unfold State.tryRetire
  with_reducible repeat' (first
    | assumption | apply State.laneTo_keeps | apply State.post_keeps | apply State.saveLinks_keeps | apply State.linkTouch_keeps
    | apply Keeps.ite | refine Keeps.foldl ?_ _ ?_ | (intro _; intros) | fail_if_no_progress refine Keeps.mk' ?_ rfl rfl)

theorem execFabricDelayExpire_keeps {s0 : State} (x1 : Nat) (x2 : Nat) {x3 : State} (hx3 : Keeps s0 x3) :
    KO s0 (execFabricDelayExpire x1 x2 x3) := by
  unfold execFabricDelayExpire
  with_reducible repeat' (first
    | assumption | apply State.syncBuckets_keeps | apply State.setBucket_keeps | apply State.inc_keeps | apply State.tryRetire_keeps
    | apply State.tryOut_keeps | apply State.rebalance_keeps | apply Keeps.ite | apply KO.ite | apply KO.next | split)

theorem State.repairEnd_keeps {s0 x1 : State} (x2 : Nat) {x3 : (Status × Nat) ⊕ State} (hx1 : Keeps s0 x1) (hx3 : KR s0 x3) :
    Keeps s0 (State.repairEnd x1 x2 x3) := by
  unfold State.repairEnd
  split
  · exact State.finish_keeps _ _ hx1
  · exact State.finDone_keeps _ (Keeps.ofInr hx3 rfl)

theorem State.repairCluster_keeps {s0 : State} {x1 : State} (x2 : Nat) (hx1 : Keeps s0 x1) :
    KR s0 (State.repairCluster x1 x2) := by
  unfold State.repairCluster
  with_reducible repeat' (first
    | assumption | apply State.changeRole_keeps | apply KR.inr | apply KR.inl | fail_if_no_progress refine Keeps.mk' ?_ rfl rfl
    | dsimp only | split)

theorem execRepairClusterSram_keeps {s0 : State} {x1 : State} (hx1 : Keeps s0 x1) :
    KO s0 (execRepairClusterSram x1) := by
  unfold execRepairClusterSram
  with_reducible repeat' (first
    | assumption | apply State.viaFd_keeps | apply State.repairEnd_keeps | apply State.repairCluster_keeps | apply State.finRefused_keeps
    | apply KO.ite | apply KO.next | (intro _; intros) | split)

theorem execRepairPcRetire_keeps {s0 : State} {x1 : State} (hx1 : Keeps s0 x1) :
    KO s0 (execRepairPcRetire x1) := by
  unfold execRepairPcRetire
  with_reducible repeat' (first
    | assumption | apply State.repairEnd_keeps | apply State.pcRetire_keeps | apply KO.next | apply KR.inr | apply KR.inl | dsimp only
    | split)

theorem execRepairHbmLane_keeps {s0 : State} {x1 : State} (hx1 : Keeps s0 x1) :
    KO s0 (execRepairHbmLane x1) := by
  unfold execRepairHbmLane
  with_reducible repeat' (first
    | assumption | apply State.repairEnd_keeps | apply State.laneRepair_keeps | apply KO.next | split)

theorem execRepairLinkRetire_keeps {s0 : State} {x1 : State} (hx1 : Keeps s0 x1) :
    KO s0 (execRepairLinkRetire x1) := by
  unfold execRepairLinkRetire
  with_reducible repeat' (first
    | assumption | apply State.finRefused_keeps | apply State.finDone_keeps | apply State.tryRetire_keeps | apply State.drainLink_keeps
    | apply KO.ite | apply KO.next | fail_if_no_progress refine Keeps.mk' ?_ rfl rfl | dsimp only | split)

theorem execRepairLinkReturn_keeps {s0 : State} {x1 : State} (hx1 : Keeps s0 x1) :
    KO s0 (execRepairLinkReturn x1) := by
  unfold execRepairLinkReturn
  with_reducible repeat' (first
    | assumption | apply State.finRefused_keeps | apply State.post_keeps | apply State.saveLinks_keeps | apply State.finDone_keeps
    | apply State.tryRestore_keeps | apply Keeps.ite | apply KO.ite | apply KO.next | fail_if_no_progress refine Keeps.mk' ?_ rfl rfl
    | dsimp only | split)

theorem execRepairDdrEvacuate_keeps {s0 : State} {x1 : State} (hx1 : Keeps s0 x1) :
    KO s0 (execRepairDdrEvacuate x1) := by
  unfold execRepairDdrEvacuate
  with_reducible repeat' (first
    | assumption | apply State.ifFd_keeps | apply State.repairEnd_keeps | apply State.chanEvacuate_keeps | apply KO.next
    | (intro _; intros) | split)

theorem execRepairDdrReturn_keeps {s0 : State} {x1 : State} (hx1 : Keeps s0 x1) :
    KO s0 (execRepairDdrReturn x1) := by
  unfold execRepairDdrReturn
  with_reducible repeat' (first
    | assumption | apply State.ifFd_keeps | apply State.repairEnd_keeps | apply State.chanReturn_keeps | apply KO.next | (intro _; intros)
    | split)

theorem execBridgeRetrain_keeps {s0 : State} {x1 : State} (hx1 : Keeps s0 x1) :
    KO s0 (execBridgeRetrain x1) := by
  unfold execBridgeRetrain
  with_reducible repeat' (first
    | assumption | apply State.finRefused_keeps | apply State.finDone_keeps | apply State.retrain_keeps | apply KO.ite | apply KO.next
    | dsimp only | split)

theorem execEngineWatchdog_keeps {s0 : State} (x1 : Nat) (x2 : Nat) {x3 : State} (hx3 : Keeps s0 x3) :
    KO s0 (execEngineWatchdog x1 x2 x3) := by
  unfold execEngineWatchdog
  with_reducible repeat' (first
    | assumption | apply State.clusterReset_keeps | apply State.engineDead_keeps | apply KO.ite | apply KO.next)

theorem execClusterWatchdog_keeps {s0 : State} (x1 : Nat) {x2 : State} (hx2 : Keeps s0 x2) :
    KO s0 (execClusterWatchdog x1 x2) := by
  unfold execClusterWatchdog
  with_reducible repeat' (first
    | assumption | apply State.clusterReset_keeps | apply Keeps.ite | apply KO.next)

theorem execBridgeKeepaliveSend_keeps {s0 : State} (x1 : Bool) (x2 : Nat) {x3 : State} (hx3 : Keeps s0 x3) :
    KO s0 (execBridgeKeepaliveSend x1 x2 x3) := by
  unfold execBridgeKeepaliveSend
  with_reducible repeat' (first
    | assumption | apply State.flitSeen_keeps | apply State.setDir_keeps | apply KO.ite | apply KO.next)

theorem State.reissue_keeps {s0 : State} {x1 : State} (hx1 : Keeps s0 x1) :
    Keeps s0 (State.reissue x1) := by
  unfold State.reissue
  with_reducible repeat' (first
    | assumption | apply State.sbPut_keeps | refine Keeps.foldl ?_ _ ?_ | fail_if_no_progress refine Keeps.mk' ?_ rfl rfl)

theorem State.keepFlits_keeps {s0 : State} {x1 : State} (hx1 : Keeps s0 x1) :
    Keeps s0 (State.keepFlits x1) := by
  unfold State.keepFlits
  with_reducible repeat' (first
    | assumption | apply State.keepRec_keeps | apply State.countCopy_keeps | refine Keeps.foldl ?_ _ ?_ | (intro _; intros) | split)

theorem State.lossExec_keeps {s0 : State} {x1 : State} (hx1 : Keeps s0 x1) :
    Keeps s0 (State.lossExec x1) := by
  unfold State.lossExec
  with_reducible repeat' (first
    | assumption | apply State.finishTok_keeps | apply State.finBusy_keeps | apply Keeps.ite | split)

theorem State.bridgeLost_keeps {s0 : State} {x1 : State} (x2 : Nat) (hx1 : Keeps s0 x1) :
    Keeps s0 (State.bridgeLost x1 x2) := by
  unfold State.bridgeLost
  with_reducible repeat' (first
    | assumption | apply State.inc_keeps | apply State.wr_keeps | apply State.postModule_keeps | apply State.setModul_keeps
    | apply State.post_keeps | apply State.countModules_keeps | apply State.addSat_keeps | apply State.reissue_keeps
    | apply State.keepFlits_keeps | apply State.setDir_keeps | apply State.lossExec_keeps | apply State.portTouch_keeps
    | apply State.portDown_keeps | refine Keeps.foldl ?_ _ ?_ | (intro _; intros) | fail_if_no_progress refine Keeps.mk' ?_ rfl rfl)

theorem execBridgeKeepaliveExpire_keeps {s0 : State} (x1 : Bool) {x2 : State} (hx2 : Keeps s0 x2) :
    KO s0 (execBridgeKeepaliveExpire x1 x2) := by
  unfold execBridgeKeepaliveExpire
  with_reducible repeat' (first
    | assumption | apply State.bridgeLost_keeps | apply KO.ite | apply KO.next)

theorem execVoqHoldExpire_keeps {s0 : State} {x1 : State} (hx1 : Keeps s0 x1) :
    KO s0 (execVoqHoldExpire x1) := by
  unfold execVoqHoldExpire
  with_reducible repeat' (first
    | assumption | apply State.flush_keeps | apply KO.ite | apply KO.next | refine Keeps.foldl ?_ _ ?_ | (intro _; intros)
    | fail_if_no_progress refine Keeps.mk' ?_ rfl rfl | dsimp only | split)

theorem execAutoRejoin_keeps {s0 : State} {x1 : State} (hx1 : Keeps s0 x1) :
    KO s0 (execAutoRejoin x1) := by
  unfold execAutoRejoin
  with_reducible repeat' (first
    | assumption | apply State.retrain_keeps | apply KO.ite | apply KO.next | fail_if_no_progress refine Keeps.mk' ?_ rfl rfl)

theorem State.rejoined_keeps {s0 : State} {x1 : State} (hx1 : Keeps s0 x1) :
    Keeps s0 (State.rejoined x1) := by
  unfold State.rejoined
  with_reducible repeat' (first
    | assumption | apply State.wr_keeps | apply State.setDir_keeps | apply State.portTouch_keeps | apply State.portUp_keeps
    | apply State.fileRec_keeps | apply State.addSat_keeps | apply State.run_keeps | apply State.post_keeps | refine Keeps.foldl ?_ _ ?_
    | (intro _; intros) | fail_if_no_progress refine Keeps.mk' ?_ rfl rfl)

theorem execRejoinStepComplete_keeps {s0 : State} {x1 : State} (hx1 : Keeps s0 x1) :
    KO s0 (execRejoinStepComplete x1) := by
  unfold execRejoinStepComplete
  with_reducible repeat' (first
    | assumption | apply State.wr_keeps | apply State.post_keeps | apply State.rejoined_keeps | apply KO.ite | apply KO.next
    | fail_if_no_progress refine Keeps.mk' ?_ rfl rfl | dsimp only | split)

theorem execClusterRepairStepDone_keeps {s0 : State} (x1 : List (Nat × Nat)) (x2 : Nat) (x3 : Nat) (x4 : Nat) {x5 : State} (hx5 : Keeps s0 x5) :
    KO s0 (execClusterRepairStepDone x1 x2 x3 x4 x5) := by
  unfold execClusterRepairStepDone
  with_reducible repeat' (first
    | assumption | apply State.engineDead_keeps | apply State.changeRole_keeps | apply State.post_keeps | apply Keeps.ite | apply KO.ite
    | apply KO.next | fail_if_no_progress refine Keeps.mk' ?_ rfl rfl | dsimp only | split)

theorem execSidebandRetrain_keeps {s0 : State} {x1 : State} (hx1 : Keeps s0 x1) :
    KO s0 (execSidebandRetrain x1) := by
  unfold execSidebandRetrain
  with_reducible repeat' (first
    | assumption | apply KO.ite | apply KO.next | fail_if_no_progress refine Keeps.mk' ?_ rfl rfl)

theorem execClusterResetDone_keeps {s0 : State} (x1 : Nat) {x2 : State} (hx2 : Keeps s0 x2) :
    KO s0 (execClusterResetDone x1 x2) := by
  unfold execClusterResetDone
  with_reducible repeat' (first
    | assumption | apply State.post_keeps | apply State.setCluster_keeps | apply KO.next | dsimp only | split)

end Sys2Proof.Machine
end

