-- ==== Sys2Proof/Laws/KeepsReset.lean ====
section
/-! SUPPORT. That each operation keeps what `Keeps` says: resets, boot, update and castling. -/
namespace Sys2Proof.Machine

theorem State.railsDown_keeps {s0 : State} {x1 : State} (x2 : Nat) (hx1 : Keeps s0 x1) :
    Keeps s0 (State.railsDown x1 x2) := by
  unfold State.railsDown
  with_reducible repeat' (first
    | assumption | apply Keeps.ite | fail_if_no_progress refine Keeps.mk' ?_ rfl rfl)

theorem State.lifeLoad_keeps {s0 : State} {x1 : State} (hx1 : Keeps s0 x1) :
    Keeps s0 (State.lifeLoad x1) := by
  unfold State.lifeLoad
  with_reducible repeat' (first
    | assumption | apply State.wr_keeps | fail_if_no_progress refine Keeps.mk' ?_ rfl rfl)

theorem State.blank_keeps {s0 x1 : State} (x2 : Nat → Bool) (hx1 : Keeps s0 x1) : Keeps s0 (State.blank x1 x2) := by
  unfold State.blank
  dsimp only
  apply State.wr_keeps
  apply State.syncAreas_keeps
  apply State.lifeLoad_keeps
  refine ⟨fun hs => ?_, hx1.pending, hx1.clk⟩
  have := hx1.ok hs
  simp only [State.ok, Bool.and_eq_true] at this ⊢
  exact ⟨⟨Tbl.rising_filter _ this.1.1, this.1.2⟩, State.reset_timeOk⟩

theorem State.cold_keeps {s0 : State} {x1 : State} (x2 : Nat) (hx1 : Keeps s0 x1) :
    Keeps s0 (State.cold x1 x2) := by
  unfold State.cold
  with_reducible repeat' (first
    | assumption | apply State.railsDown_keeps | apply State.wr_keeps | apply State.blank_keeps | apply State.post_keeps
    | refine Keeps.foldl ?_ _ ?_ | (intro _; intros))

theorem State.flushCaches_keeps {s0 : State} {x1 : State} (hx1 : Keeps s0 x1) :
    Keeps s0 (State.flushCaches x1) := by
  unfold State.flushCaches
  with_reducible repeat' (first
    | assumption | apply State.cntWriteBack_keeps | apply Keeps.ite | refine Keeps.foldl ?_ _ ?_ | (intro _; intros))

theorem State.diesReset_keeps {s0 x1 : State} (hx1 : Keeps s0 x1) : Keeps s0 (State.diesReset x1) := by
  unfold State.diesReset
  have hb := State.blank_keeps islandKeeps hx1
  generalize State.blank x1 islandKeeps = b at hb ⊢
  dsimp only
  repeat' (with_reducible apply State.wr_keeps)
  refine ⟨fun hs => ?_, hb.pending, hb.clk⟩
  have h1 := hb.ok hs
  have h2 := hx1.ok hs
  simp only [State.ok, Bool.and_eq_true] at h1 h2 ⊢
  exact ⟨h1.1, h2.2⟩

theorem Tbl.rising_inserts : ∀ (l : List (Nat × Nat)) {r : Tbl Nat}, Tbl.risingFrom 0 r = true →
    Tbl.risingFrom 0 (l.foldl (fun (r : Tbl Nat) (e : Nat × Nat) => Tbl.ins e.1 e.2 r) r) = true
  | [], _, h => h
  | e :: l, _, h => Tbl.rising_inserts l (Tbl.rising_ins e.2 (Nat.zero_le _) h)

theorem State.carryChan_keeps {s0 x1 x2 : State} (x3 : Nat) (hx2 : Keeps s0 x2) : Keeps s0 (State.carryChan x1 x2 x3) := by
  unfold State.carryChan
  dsimp only
  apply State.wr_keeps
  apply State.wr_keeps
  refine ⟨fun hs => ?_, hx2.pending, hx2.clk⟩
  have := hx2.ok hs
  simp only [State.ok, Bool.and_eq_true] at this ⊢
  exact ⟨⟨Tbl.rising_inserts _ this.1.1, this.1.2⟩, this.2⟩

theorem State.carryEvac_keeps {s0 : State} {x1 : State} {x2 : State} (x3 : Nat) (hx1 : Keeps s0 x1) (hx2 : Keeps s0 x2) :
    Keeps s0 (State.carryEvac x1 x2 x3) := by
  unfold State.carryEvac
  with_reducible repeat' (first
    | assumption | apply State.wr_keeps | apply Keeps.ite)

theorem State.carryFib_keeps {s0 : State} {x1 : State} {x2 : State} (hx1 : Keeps s0 x1) (hx2 : Keeps s0 x2) :
    Keeps s0 (State.carryFib x1 x2) := by
  unfold State.carryFib
  with_reducible repeat' (first
    | assumption | apply State.wr_keeps | apply Keeps.ite | fail_if_no_progress refine Keeps.mk' ?_ rfl rfl)

theorem State.warm_keeps {s0 : State} {x1 : State} (hx1 : Keeps s0 x1) :
    Keeps s0 (State.warm x1) := by
  unfold State.warm
  with_reducible repeat' (first
    | assumption | apply State.flushCaches_keeps | apply State.wr_keeps | apply State.diesReset_keeps | apply State.carryChan_keeps
    | apply State.carryEvac_keeps | apply State.carryFib_keeps | refine Keeps.foldl ?_ _ ?_ | (intro _; intros)
    | fail_if_no_progress refine Keeps.mk' ?_ rfl rfl)

theorem State.askReset_keeps {s0 : State} {x1 : State} (x2 : Bool) (hx1 : Keeps s0 x1) :
    Keeps s0 (State.askReset x1 x2) := by
  unfold State.askReset
  with_reducible repeat' (first
    | assumption | apply State.cold_keeps | apply State.warm_keeps | apply State.wr_keeps | apply Keeps.ite)

theorem State.armReset_keeps {s0 : State} {x1 : State} (hx1 : Keeps s0 x1) :
    Keeps s0 (State.armReset x1) := by
  unfold State.armReset
  with_reducible repeat' (first
    | assumption | apply State.wr_keeps | fail_if_no_progress refine Keeps.mk' ?_ rfl rfl)

theorem State.writeRstctl_keeps {s0 : State} {x1 : State} (x2 : Nat) (hx1 : Keeps s0 x1) :
    Keeps s0 (State.writeRstctl x1 x2) := by
  unfold State.writeRstctl
  with_reducible repeat' (first
    | assumption | apply State.wr_keeps | apply State.askReset_keeps | apply State.armReset_keeps | apply Keeps.ite)

theorem State.railsCut_keeps {s0 : State} {x1 : State} (hx1 : Keeps s0 x1) :
    Keeps s0 (State.railsCut x1) := by
  unfold State.railsCut
  with_reducible repeat' (first
    | assumption | apply State.wr_keeps | fail_if_no_progress refine Keeps.mk' ?_ rfl rfl)

theorem execAuxFeedsLost_keeps {s0 : State} (x1 : Bool) {x2 : State} (hx2 : Keeps s0 x2) :
    KO s0 (execAuxFeedsLost x1 x2) := by
  unfold execAuxFeedsLost
  with_reducible repeat' (first
    | assumption | apply State.tearRec_keeps | apply State.railsCut_keeps | apply State.cold_keeps | apply Keeps.ite | apply KO.next
    | fail_if_no_progress refine Keeps.mk' ?_ rfl rfl)

theorem State.loadBank_keeps {s0 : State} {x1 : State} (x2 : Nat) (x3 : Nat) (x4 : Nat) (x5 : Nat) (x6 : List Nat) (hx1 : Keeps s0 x1) :
    Keeps s0 (State.loadBank x1 x2 x3 x4 x5 x6) := by
  unfold State.loadBank
  with_reducible repeat' (first
    | assumption | apply State.wr_keeps | fail_if_no_progress refine Keeps.mk' ?_ rfl rfl)

theorem State.avsSend_keeps {s0 : State} {x1 : State} (x2 : Nat) (x3 : Bool) (hx1 : Keeps s0 x1) :
    Keeps s0 (State.avsSend x1 x2 x3) := by
  unfold State.avsSend
  with_reducible repeat' (first
    | assumption | apply State.wr_keeps | apply State.post_keeps | apply State.wrBit_keeps | apply Keeps.ite
    | fail_if_no_progress refine Keeps.mk' ?_ rfl rfl)

theorem State.enterRecovery_keeps {s0 : State} {x1 : State} (x2 : Nat) (hx1 : Keeps s0 x1) :
    Keeps s0 (State.enterRecovery x1 x2) := by
  unfold State.enterRecovery
  with_reducible repeat' (first
    | assumption | apply State.wr_keeps | apply State.seatTo_keeps | apply Keeps.ite | fail_if_no_progress refine Keeps.mk' ?_ rfl rfl)

theorem State.recordAreas_keeps {s0 : State} {x1 : State} (hx1 : Keeps s0 x1) :
    Keeps s0 (State.recordAreas x1) := by
  unfold State.recordAreas
  with_reducible repeat' (first
    | assumption | apply State.putRec_keeps)

theorem State.bootBank_keeps {s0 : State} {x1 : State} (x2 : Nat) (x3 : Nat) (x4 : Bool) (hx1 : Keeps s0 x1) :
    Keeps s0 (State.bootBank x1 x2 x3 x4) := by
  unfold State.bootBank
  with_reducible repeat' (first
    | assumption | apply State.post_keeps | apply State.wr_keeps | apply State.putRec_keeps | apply Keeps.ite
    | fail_if_no_progress refine Keeps.mk' ?_ rfl rfl)

theorem State.chooseImage_keeps {s0 : State} {x1 : State} (x2 : Bool) (x3 : Nat) (hx1 : Keeps s0 x1) :
    Keeps s0 (State.chooseImage x1 x2 x3) := by
  unfold State.chooseImage
  with_reducible repeat' (first
    | assumption | apply State.enterRecovery_keeps | apply State.recordAreas_keeps | apply State.bootBank_keeps
    | apply State.markArea_keeps | apply State.putRec_keeps | apply State.post_keeps | apply Keeps.ite)

theorem execSysrstAssert_keeps {s0 : State} {x1 : State} (hx1 : Keeps s0 x1) :
    KO s0 (execSysrstAssert x1) := by
  unfold execSysrstAssert
  with_reducible repeat' (first
    | assumption | apply State.cold_keeps | apply KO.ite | apply KO.next | fail_if_no_progress refine Keeps.mk' ?_ rfl rfl)

theorem execSysrstRelease_keeps {s0 x5 : State} (x1 x2 x3 x4 : Bool) (hx5 : Keeps s0 x5) (h : x5.pwr.sysrst = false ∨ x4 = true) :
    KO s0 (execSysrstRelease x1 x2 x3 x4 x5) := by
  unfold execSysrstRelease
  split
  · exact KO.next hx5
  · rename_i hs
    rcases h with h | h
    · rw [h] at hs
      exact absurd rfl hs
    · subst h
      refine KO.next ?_
      exact Keeps.mk' (State.wr_keeps hx5 _ _) rfl rfl

theorem execSysrstRelease_next {x1 x2 x3 x4 : Bool} {x5 t : State} (e : execSysrstRelease x1 x2 x3 x4 x5 = .next t) : Keeps x5 t := by
  by_cases h : x5.pwr.sysrst = false ∨ x4 = true
  · exact (execSysrstRelease_keeps x1 x2 x3 x4 (Keeps.refl x5) h).of t e
  · simp only [not_or, Bool.not_eq_false, Bool.not_eq_true] at h
    simp only [execSysrstRelease, h.1, h.2, Bool.not_true, Bool.false_eq_true, if_false, Bool.not_false, if_true] at e
    cases e

theorem State.setEn_keeps {s0 : State} {x1 : State} (x2 : Nat) (x3 : Bool) (hx1 : Keeps s0 x1) :
    Keeps s0 (State.setEn x1 x2 x3) := by
  unfold State.setEn
  with_reducible repeat' (first
    | assumption | apply State.wr_keeps | fail_if_no_progress refine Keeps.mk' ?_ rfl rfl)

theorem execPowerSequenceStart_keeps {s0 : State} {x1 : State} (hx1 : Keeps s0 x1) :
    KO s0 (execPowerSequenceStart x1) := by
  unfold execPowerSequenceStart
  with_reducible repeat' (first
    | assumption | apply State.setEn_keeps | apply KO.ite | apply KO.next | fail_if_no_progress refine Keeps.mk' ?_ rfl rfl)

theorem State.setPg_keeps {s0 : State} {x1 : State} (x2 : Nat) (x3 : Bool) (hx1 : Keeps s0 x1) :
    Keeps s0 (State.setPg x1 x2 x3) := by
  unfold State.setPg
  with_reducible repeat' (first
    | assumption | apply State.wr_keeps)

theorem execPseqEnableNext_keeps {s0 : State} {x1 : State} (hx1 : Keeps s0 x1) :
    KO s0 (execPseqEnableNext x1) := by
  unfold execPseqEnableNext
  with_reducible repeat' (first
    | assumption | apply State.setPg_keeps | apply State.wr_keeps | apply State.setEn_keeps | apply Keeps.ite | apply KO.ite
    | apply KO.next | fail_if_no_progress refine Keeps.mk' ?_ rfl rfl | dsimp only | split)

theorem State.powerFault_keeps {s0 : State} {x1 : State} (x2 : Nat) (hx1 : Keeps s0 x1) :
    Keeps s0 (State.powerFault x1 x2) := by
  unfold State.powerFault
  with_reducible repeat' (first
    | assumption | apply State.wr_keeps | apply State.cold_keeps | fail_if_no_progress refine Keeps.mk' ?_ rfl rfl)

theorem execPseqPgTimeout_keeps {s0 : State} {x1 : State} (hx1 : Keeps s0 x1) :
    KO s0 (execPseqPgTimeout x1) := by
  unfold execPseqPgTimeout
  with_reducible repeat' (first
    | assumption | apply State.powerFault_keeps | apply KO.ite | apply KO.next | split)

theorem execPowerGoodFall_keeps {s0 : State} (x1 : Nat) {x2 : State} (hx2 : Keeps s0 x2) :
    KO s0 (execPowerGoodFall x1 x2) := by
  unfold execPowerGoodFall
  with_reducible repeat' (first
    | assumption | apply State.setPg_keeps | apply State.powerFault_keeps | apply Keeps.ite | apply KO.ite | apply KO.next)

theorem execPowerFaultRestart_keeps {s0 : State} {x1 : State} (hx1 : Keeps s0 x1) :
    KO s0 (execPowerFaultRestart x1) := by
  unfold execPowerFaultRestart
  with_reducible repeat' (first
    | assumption | apply State.setEn_keeps | apply KO.ite | apply KO.next | fail_if_no_progress refine Keeps.mk' ?_ rfl rfl)

theorem execRailDownNext_keeps {s0 : State} {x1 : State} (hx1 : Keeps s0 x1) :
    KO s0 (execRailDownNext x1) := by
  unfold execRailDownNext
  with_reducible repeat' (first
    | assumption | apply State.railsCut_keeps | apply State.setEn_keeps | apply KO.ite | apply KO.next
    | fail_if_no_progress refine Keeps.mk' ?_ rfl rfl | dsimp only | split)

theorem execPerstAssert_keeps {s0 : State} {x1 : State} (hx1 : Keeps s0 x1) :
    KO s0 (execPerstAssert x1) := by
  unfold execPerstAssert
  with_reducible repeat' (first
    | assumption | apply State.wr_keeps | apply KO.ite | apply KO.next | fail_if_no_progress refine Keeps.mk' ?_ rfl rfl)

theorem State.toStep_keeps {s0 : State} {x1 : State} (x2 : Nat) (hx1 : Keeps s0 x1) :
    Keeps s0 (State.toStep x1 x2) := by
  unfold State.toStep
  with_reducible repeat' (first
    | assumption | apply State.wr_keeps | fail_if_no_progress refine Keeps.mk' ?_ rfl rfl)

theorem State.readLog_keeps {s0 : State} {x1 : State} (x2 : List Nat) (hx1 : Keeps s0 x1) :
    Keeps s0 (State.readLog x1 x2) := by
  unfold State.readLog
  with_reducible repeat' (first
    | assumption | fail_if_no_progress refine Keeps.mk' ?_ rfl rfl)

theorem State.bootRecords_keeps {s0 : State} {x1 : State} (x2 : List Nat) (hx1 : Keeps s0 x1) :
    Keeps s0 (State.bootRecords x1 x2) := by
  unfold State.bootRecords
  with_reducible repeat' (first
    | assumption | apply State.readLog_keeps | apply State.wr_keeps | apply State.post_keeps | apply Keeps.ite
    | fail_if_no_progress refine Keeps.mk' ?_ rfl rfl | dsimp only | split)

theorem State.loadSettings_keeps {s0 : State} {x1 : State} (hx1 : Keeps s0 x1) :
    Keeps s0 (State.loadSettings x1) := by
  unfold State.loadSettings
  with_reducible repeat' (first
    | assumption | apply State.wr_keeps | refine Keeps.foldl ?_ _ ?_ | (intro _; intros)
    | fail_if_no_progress refine Keeps.mk' ?_ rfl rfl)

theorem State.bootSeats_keeps {s0 : State} {x1 : State} (x2 : Bool) (x3 : Bool) (hx1 : Keeps s0 x1) :
    Keeps s0 (State.bootSeats x1 x2 x3) := by
  unfold State.bootSeats
  with_reducible repeat' (first
    | assumption | apply State.seatTo_keeps | apply State.resign_keeps | apply State.loadSettings_keeps | apply State.sbPut_keeps
    | apply Keeps.ite | fail_if_no_progress refine Keeps.mk' ?_ rfl rfl)

theorem State.startDdr_keeps {s0 : State} {x1 : State} (x2 : List Nat) (hx1 : Keeps s0 x1) :
    Keeps s0 (State.startDdr x1 x2) := by
  unfold State.startDdr
  with_reducible repeat' (first
    | assumption | apply State.chanTrain_keeps | apply State.wr_keeps | apply Keeps.ite | refine Keeps.foldl ?_ _ ?_ | (intro _; intros))

theorem State.bootEngines_keeps {s0 : State} {x1 : State} (x2 : List Nat) (hx1 : Keeps s0 x1) :
    Keeps s0 (State.bootEngines x1 x2) := by
  unfold State.bootEngines
  with_reducible repeat' (first
    | assumption | apply State.loadBank_keeps | apply State.engineDead_keeps | refine Keeps.foldl ?_ _ ?_ | (intro _; intros))

theorem State.bootReady_keeps {s0 : State} {x1 : State} (hx1 : Keeps s0 x1) :
    Keeps s0 (State.bootReady x1) := by
  unfold State.bootReady
  with_reducible repeat' (first
    | assumption | apply State.putRec_keeps | apply State.wr_keeps | apply State.trimHbm_keeps | apply State.loseSeg_keeps
    | apply State.setDir_keeps | apply State.degradeCheck_keeps | apply State.bridgeLost_keeps | apply Keeps.ite
    | refine Keeps.foldl ?_ _ ?_)

theorem State.bootFib_keeps {s0 : State} {x1 : State} (hx1 : Keeps s0 x1) :
    Keeps s0 (State.bootFib x1) := by
  unfold State.bootFib
  with_reducible repeat' (first
    | assumption | apply State.fibEmpty_keeps | apply State.fibCount_keeps | apply Keeps.ite)

theorem execBootStepComplete_keeps {s0 : State} (x1 : Bool) (x2 : Bool) (x3 : List Nat) {x4 : State} (hx4 : Keeps s0 x4) :
    KO s0 (execBootStepComplete x1 x2 x3 x4) := by
  unfold execBootStepComplete
  with_reducible repeat' (first
    | assumption | apply State.toStep_keeps | apply State.bootRecords_keeps | apply State.avsSend_keeps | apply State.chooseImage_keeps
    | apply State.seatLoad_keeps | apply State.bootSeats_keeps | apply State.wr_keeps | apply State.fresh_keeps | apply State.cold_keeps
    | apply State.startDdr_keeps | apply State.wrBit_keeps | apply State.bootEngines_keeps | apply State.bootReady_keeps
    | apply State.bootFib_keeps | apply KO.ite | apply KO.next | refine Keeps.foldl ?_ _ ?_ | (intro _; intros) | dsimp only | split)

theorem execBootStepTimeout_keeps {s0 : State} {x1 : State} (hx1 : Keeps s0 x1) :
    KO s0 (execBootStepTimeout x1) := by
  unfold execBootStepTimeout
  with_reducible repeat' (first
    | assumption | apply State.cold_keeps | apply KO.ite | apply KO.next)

theorem execAuxclkLoss_keeps {s0 : State} {x1 : State} (hx1 : Keeps s0 x1) :
    KO s0 (execAuxclkLoss x1) := by
  unfold execAuxclkLoss
  with_reducible repeat' (first
    | assumption | apply State.fresh_keeps | apply State.railsCut_keeps | apply State.cold_keeps | apply KO.next
    | fail_if_no_progress refine Keeps.mk' ?_ rfl rfl)

theorem execAuxclkReturn_keeps {s0 : State} {x1 : State} (hx1 : Keeps s0 x1) :
    KO s0 (execAuxclkReturn x1) := by
  unfold execAuxclkReturn
  with_reducible repeat' (first
    | assumption | apply State.fresh_keeps | apply State.railsCut_keeps | apply State.cold_keeps | apply KO.ite | apply KO.next
    | fail_if_no_progress refine Keeps.mk' ?_ rfl rfl)

theorem State.updBusy_keeps {s0 : State} {x1 : State} (x2 : Nat) (x3 : Nat) (hx1 : Keeps s0 x1) :
    Keeps s0 (State.updBusy x1 x2 x3) := by
  unfold State.updBusy
  with_reducible repeat' (first
    | assumption | apply State.finBusy_keeps)

theorem State.finOffer_keeps {s0 : State} {x1 : State} (x2 : Nat) (hx1 : Keeps s0 x1) :
    Keeps s0 (State.finOffer x1 x2) := by
  unfold State.finOffer
  with_reducible repeat' (first
    | assumption | apply State.finish_keeps)

theorem State.setPort_keeps {s0 : State} {x1 : State} (x2 : Bool) (x3 : Sys2Proof.Machine.ChainPort) (hx1 : Keeps s0 x1) :
    Keeps s0 (State.setPort x1 x2 x3) := by
  unfold State.setPort
  with_reducible repeat' (first
    | assumption | apply Keeps.ite | fail_if_no_progress refine Keeps.mk' ?_ rfl rfl)

theorem State.chainSend_keeps {s0 : State} {x1 : State} (x2 : Bool) (x3 : List (List Nat)) (hx1 : Keeps s0 x1) :
    Keeps s0 (State.chainSend x1 x2 x3) := by
  unfold State.chainSend
  with_reducible repeat' (first
    | assumption | apply State.setPort_keeps)

theorem State.openSession_keeps {s0 : State} {x1 : State} (x2 : Nat) (x3 : List Nat) (hx1 : Keeps s0 x1) :
    Keeps s0 (State.openSession x1 x2 x3) := by
  unfold State.openSession
  with_reducible repeat' (first
    | assumption | apply State.putRec_keeps | apply State.norErase_keeps | apply State.wr_keeps | apply State.inc_keeps
    | apply State.chainSend_keeps | apply State.setPort_keeps | refine Keeps.foldl ?_ _ ?_ | (intro _; intros)
    | fail_if_no_progress refine Keeps.mk' ?_ rfl rfl)

theorem execUpdOffer_keeps {s0 : State} (x1 : Bool) {x2 : State} (hx2 : Keeps s0 x2) :
    KO s0 (execUpdOffer x1 x2) := by
  unfold execUpdOffer
  with_reducible repeat' (first
    | assumption | apply State.finRefused_keeps | apply State.updBusy_keeps | apply State.inc_keeps | apply State.finOffer_keeps
    | apply State.openSession_keeps | apply KO.ite | apply KO.next | dsimp only | split)

theorem State.bulkStop_keeps {s0 : State} {x1 : State} (x2 : Nat) (x3 : Nat) (x4 : Nat) (hx1 : Keeps s0 x1) :
    Keeps s0 (State.bulkStop x1 x2 x3 x4) := by
  unfold State.bulkStop
  with_reducible repeat' (first
    | assumption | apply State.finRefused_keeps | apply State.finishTok_keeps | apply Keeps.ite)

theorem State.updEnd_keeps {s0 : State} {x1 : State} (x2 : Nat) (hx1 : Keeps s0 x1) :
    Keeps s0 (State.updEnd x1 x2) := by
  unfold State.updEnd
  with_reducible repeat' (first
    | assumption | apply State.wr_keeps | apply State.endSession_keeps | apply Keeps.ite)

theorem State.flashFail_keeps {s0 : State} {x1 : State} (hx1 : Keeps s0 x1) :
    Keeps s0 (State.flashFail x1) := by
  unfold State.flashFail
  with_reducible repeat' (first
    | assumption | apply State.updEnd_keeps | apply State.inc_keeps)

theorem State.sendBlocks_keeps {s0 : State} {x1 : State} (x2 : Bool) (hx1 : Keeps s0 x1) :
    Keeps s0 (State.sendBlocks x1 x2) := by
  unfold State.sendBlocks
  with_reducible repeat' (first
    | assumption | apply State.chainSend_keeps | apply State.setPort_keeps | apply Keeps.ite)

theorem State.forwardNew_keeps {s0 : State} {x1 : State} (x2 : Nat) (x3 : Nat) (hx1 : Keeps s0 x1) :
    Keeps s0 (State.forwardNew x1 x2 x3) := by
  unfold State.forwardNew
  with_reducible repeat' (first
    | assumption | apply State.sendBlocks_keeps | apply State.setPort_keeps | apply Keeps.ite | refine Keeps.foldl ?_ _ ?_
    | (intro _; intros))

theorem State.storeBytes_keeps {s0 : State} {x1 : State} (x2 : List Nat) (x3 : Bool) (hx1 : Keeps s0 x1) :
    Keeps s0 (State.storeBytes x1 x2 x3) := by
  unfold State.storeBytes
  with_reducible repeat' (first
    | assumption | apply State.flashFail_keeps | apply State.wr_keeps | apply State.updEnd_keeps | apply State.forwardNew_keeps
    | apply Keeps.ite | fail_if_no_progress refine Keeps.mk' ?_ rfl rfl)

theorem updBlocks_keeps {s0 : State} (x1 : Nat) (x2 : Nat) (x3 : Bool) {x4 : State} (hx4 : Keeps s0 x4) :
    Keeps s0 (updBlocks x1 x2 x3 x4) := by
  induction x2 generalizing x3 x4 with
  | zero => unfold updBlocks; with_reducible repeat' (first
    | assumption)
  | succ n ih =>
    unfold updBlocks
    with_reducible repeat' (first
    | assumption | apply ih | apply State.updBusy_keeps | apply State.bulkStop_keeps | apply State.finish_keeps
    | apply State.storeBytes_keeps | apply State.finishTok_keeps | apply State.stepEntry_keeps | apply Keeps.ite | dsimp only | split)

theorem execUpdBlock_keeps {s0 : State} (x1 : Nat) (x2 : Bool) {x3 : State} (hx3 : Keeps s0 x3) :
    KO s0 (execUpdBlock x1 x2 x3) := by
  unfold execUpdBlock
  with_reducible repeat' (first
    | assumption | apply updBlocks_keeps | apply KO.ite | apply KO.next | split)

theorem execUpdVerify_keeps {s0 : State} {x1 : State} (hx1 : Keeps s0 x1) :
    KO s0 (execUpdVerify x1) := by
  unfold execUpdVerify
  with_reducible repeat' (first
    | assumption | apply State.finRefused_keeps | apply State.finDone_keeps | apply State.wr_keeps | apply KO.ite | apply KO.next
    | dsimp only | split)

theorem execSessionIdleExpire_keeps {s0 : State} {x1 : State} (hx1 : Keeps s0 x1) :
    KO s0 (execSessionIdleExpire x1) := by
  unfold execSessionIdleExpire
  with_reducible repeat' (first
    | assumption | apply State.updEnd_keeps | apply KO.ite | apply KO.next)

theorem execVerifiedHoldExpire_keeps {s0 : State} {x1 : State} (hx1 : Keeps s0 x1) :
    KO s0 (execVerifiedHoldExpire x1) := by
  unfold execVerifiedHoldExpire
  with_reducible repeat' (first
    | assumption | apply State.updEnd_keeps | apply KO.ite | apply KO.next)

theorem State.verifyEnd_keeps {s0 : State} {x1 : State} (x2 : Bool) (hx1 : Keeps s0 x1) :
    Keeps s0 (State.verifyEnd x1 x2) := by
  unfold State.verifyEnd
  with_reducible repeat' (first
    | assumption | apply State.updEnd_keeps | apply State.flashFail_keeps | apply State.putRec_keeps | apply State.wr_keeps
    | apply State.markArea_keeps | apply State.post_keeps | apply Keeps.ite | fail_if_no_progress refine Keeps.mk' ?_ rfl rfl)

theorem execVerificationDone_keeps {s0 : State} (x1 : Bool) {x2 : State} (hx2 : Keeps s0 x2) :
    KO s0 (execVerificationDone x1 x2) := by
  unfold execVerificationDone
  with_reducible repeat' (first
    | assumption | apply State.verifyEnd_keeps | apply KO.ite | apply KO.next)

theorem State.castleStart_keeps {s0 : State} {x1 : State} (x2 : Bool) (x3 : Nat) (hx1 : Keeps s0 x1) :
    Keeps s0 (State.castleStart x1 x2 x3) := by
  unfold State.castleStart
  with_reducible repeat' (first
    | assumption | apply State.putRec_keeps | apply State.wr_keeps | fail_if_no_progress refine Keeps.mk' ?_ rfl rfl)

theorem execUpdActivate_keeps {s0 : State} {x1 : State} (hx1 : Keeps s0 x1) :
    KO s0 (execUpdActivate x1) := by
  unfold execUpdActivate
  with_reducible repeat' (first
    | assumption | apply State.finRefused_keeps | apply State.updBusy_keeps | apply State.finDone_keeps | apply State.castleStart_keeps
    | apply KO.ite | apply KO.next | split)

theorem State.confirm_keeps {s0 : State} {x1 : State} (hx1 : Keeps s0 x1) :
    Keeps s0 (State.confirm x1) := by
  unfold State.confirm
  with_reducible repeat' (first
    | assumption | apply State.putRec_keeps | apply State.wr_keeps | apply State.post_keeps | apply State.sessionIdle_keeps
    | apply Keeps.ite)

theorem execUpdConfirm_keeps {s0 : State} {x1 : State} (hx1 : Keeps s0 x1) :
    KO s0 (execUpdConfirm x1) := by
  unfold execUpdConfirm
  with_reducible repeat' (first
    | assumption | apply State.finRefused_keeps | apply State.finDone_keeps | apply State.confirm_keeps | apply KO.ite | apply KO.next
    | split)

theorem execUpdAbort_keeps {s0 : State} {x1 : State} (hx1 : Keeps s0 x1) :
    KO s0 (execUpdAbort x1) := by
  unfold execUpdAbort
  with_reducible repeat' (first
    | assumption | apply State.finRefused_keeps | apply State.updBusy_keeps | apply State.finDone_keeps | apply State.castleStart_keeps
    | apply State.updEnd_keeps | apply KO.ite | apply KO.next | split)

theorem State.setCastle_keeps {s0 : State} {x1 : State} (x2 : Sys2Proof.Machine.Castle) (hx1 : Keeps s0 x1) :
    Keeps s0 (State.setCastle x1 x2) := by
  unfold State.setCastle
  with_reducible repeat' (first
    | assumption | fail_if_no_progress refine Keeps.mk' ?_ rfl rfl)

theorem State.castleSeats_keeps {s0 : State} {x1 : State} (x2 : Sys2Proof.Machine.Castle) (x3 : Bool) (hx1 : Keeps s0 x1) :
    Keeps s0 (State.castleSeats x1 x2 x3) := by
  unfold State.castleSeats
  with_reducible repeat' (first
    | assumption | apply State.setCastle_keeps | apply State.release2_keeps | apply State.seatLoad_keeps | apply State.castleFault_keeps
    | apply State.replayJournal_keeps | apply State.seatTo_keeps | apply State.seatOut_keeps | apply State.enterStep_keeps
    | apply Keeps.ite | fail_if_no_progress refine Keeps.mk' ?_ rfl rfl | dsimp only | split)

theorem State.castleFlip_keeps {s0 : State} {x1 : State} (x2 : Nat) (hx1 : Keeps s0 x1) :
    Keeps s0 (State.castleFlip x1 x2) := by
  unfold State.castleFlip
  with_reducible repeat' (first
    | assumption | apply State.wr_keeps | apply Keeps.ite)

theorem State.castleBack_keeps {s0 : State} {x1 : State} (x2 : Nat) (hx1 : Keeps s0 x1) :
    Keeps s0 (State.castleBack x1 x2) := by
  unfold State.castleBack
  with_reducible repeat' (first
    | assumption | apply State.castleFlip_keeps | apply Keeps.ite)

theorem State.castleLoad_keeps {s0 : State} {x1 : State} (x2 : Nat) (hx1 : Keeps s0 x1) :
    Keeps s0 (State.castleLoad x1 x2) := by
  unfold State.castleLoad
  with_reducible repeat' (first
    | assumption | apply State.abandonTest_keeps | apply State.loadBank_keeps | apply State.castleFlip_keeps
    | fail_if_no_progress refine Keeps.mk' ?_ rfl rfl | dsimp only | split)

theorem State.castleReverted_keeps {s0 : State} {x1 : State} (x2 : Nat) (hx1 : Keeps s0 x1) :
    Keeps s0 (State.castleReverted x1 x2) := by
  unfold State.castleReverted
  with_reducible repeat' (first
    | assumption | apply State.post_keeps | apply State.inc_keeps | apply State.sessionIdle_keeps)

theorem State.castleTrial_keeps {s0 : State} {x1 : State} (hx1 : Keeps s0 x1) :
    Keeps s0 (State.castleTrial x1) := by
  unfold State.castleTrial
  with_reducible repeat' (first
    | assumption | apply State.wr_keeps | apply State.post_keeps | apply State.wrBit_keeps
    | fail_if_no_progress refine Keeps.mk' ?_ rfl rfl)

theorem State.castleParts_keeps {s0 : State} {x1 : State} (x2 : Sys2Proof.Machine.Castle) (x3 : Bool) (hx1 : Keeps s0 x1) :
    Keeps s0 (State.castleParts x1 x2 x3) := by
  unfold State.castleParts
  with_reducible repeat' (first
    | assumption | apply State.setCastle_keeps | apply State.castleBack_keeps | apply State.castleLoad_keeps
    | apply State.castleReverted_keeps | apply State.castleTrial_keeps | apply State.post_keeps | apply Keeps.ite
    | fail_if_no_progress refine Keeps.mk' ?_ rfl rfl | dsimp only | split)

theorem execCastlingStepComplete_keeps {s0 : State} (x1 : Bool) {x2 : State} (hx2 : Keeps s0 x2) :
    KO s0 (execCastlingStepComplete x1 x2) := by
  unfold execCastlingStepComplete
  with_reducible repeat' (first
    | assumption | apply State.castleSeats_keeps | apply State.castleParts_keeps | apply Keeps.ite | apply KO.next | split)

theorem execTrialExpire_keeps {s0 : State} {x1 : State} (hx1 : Keeps s0 x1) :
    KO s0 (execTrialExpire x1) := by
  unfold execTrialExpire
  with_reducible repeat' (first
    | assumption | apply State.castleStart_keeps | apply KO.ite | apply KO.next)

theorem State.chainRx_keeps {s0 : State} {x1 : State} (x2 : List Nat) (x3 : Nat) (x4 : Sys2Proof.Machine.State → Sys2Proof.Machine.State) (hx1 : Keeps s0 x1) (hx4 : ∀ t0, Keeps s0 t0 → Keeps s0 (x4 t0)) :
    Keeps s0 (State.chainRx x1 x2 x3 x4) := by
  unfold State.chainRx
  with_reducible repeat' (first
    | assumption | apply hx4 | apply State.inc_keeps | apply Keeps.ite)

theorem State.chainBusy_keeps {s0 : State} {x1 : State} (x2 : Bool) (x3 : Nat) (x4 : Nat) (hx1 : Keeps s0 x1) :
    Keeps s0 (State.chainBusy x1 x2 x3 x4) := by
  unfold State.chainBusy
  with_reducible repeat' (first
    | assumption | apply State.chainSend_keeps)

theorem execChainOffer_keeps {s0 : State} (x1 : Bool) (x2 : List Nat) (x3 : Bool) {x4 : State} (hx4 : Keeps s0 x4) :
    KO s0 (execChainOffer x1 x2 x3 x4) := by
  unfold execChainOffer
  with_reducible repeat' (first
    | assumption | apply State.chainRx_keeps | apply State.chainBusy_keeps | apply State.chainSend_keeps | apply State.inc_keeps
    | apply State.openSession_keeps | apply Keeps.ite | apply KO.next | (intro _; intros) | dsimp only | split)

theorem execChainAccept_keeps {s0 : State} (x1 : Bool) (x2 : List Nat) {x3 : State} (hx3 : Keeps s0 x3) :
    KO s0 (execChainAccept x1 x2 x3) := by
  unfold execChainAccept
  with_reducible repeat' (first
    | assumption | apply State.chainRx_keeps | apply State.sendBlocks_keeps | apply State.setPort_keeps | apply Keeps.ite | apply KO.next
    | (intro _; intros))

theorem State.sendAck_keeps {s0 : State} {x1 : State} (hx1 : Keeps s0 x1) :
    Keeps s0 (State.sendAck x1) := by
  unfold State.sendAck
  with_reducible repeat' (first
    | assumption | apply State.chainSend_keeps | apply Keeps.ite | fail_if_no_progress refine Keeps.mk' ?_ rfl rfl)

theorem State.ackIfOwed_keeps {s0 : State} {x1 : State} (hx1 : Keeps s0 x1) :
    Keeps s0 (State.ackIfOwed x1) := by
  unfold State.ackIfOwed
  with_reducible repeat' (first
    | assumption | apply State.sendAck_keeps | apply Keeps.ite)

theorem State.stopFwd_keeps {s0 : State} {x1 : State} (x2 : Bool) (hx1 : Keeps s0 x1) :
    Keeps s0 (State.stopFwd x1 x2) := by
  unfold State.stopFwd
  with_reducible repeat' (first
    | assumption | apply State.ackIfOwed_keeps | apply State.setPort_keeps)

theorem State.chainRefused_keeps {s0 : State} {x1 : State} (x2 : Bool) (x3 : Nat) (x4 : List Nat) (hx1 : Keeps s0 x1) :
    Keeps s0 (State.chainRefused x1 x2 x3 x4) := by
  unfold State.chainRefused
  with_reducible repeat' (first
    | assumption | apply State.post_keeps | apply State.stopFwd_keeps | apply Keeps.ite)

theorem execChainBusy_keeps {s0 : State} (x1 : Bool) (x2 : List Nat) {x3 : State} (hx3 : Keeps s0 x3) :
    KO s0 (execChainBusy x1 x2 x3) := by
  unfold execChainBusy
  with_reducible repeat' (first
    | assumption | apply State.chainRx_keeps | apply State.chainRefused_keeps | apply KO.next | (intro _; intros))

theorem execChainRefuse_keeps {s0 : State} (x1 : Bool) (x2 : List Nat) {x3 : State} (hx3 : Keeps s0 x3) :
    KO s0 (execChainRefuse x1 x2 x3) := by
  unfold execChainRefuse
  with_reducible repeat' (first
    | assumption | apply State.chainRx_keeps | apply State.chainRefused_keeps | apply KO.next | (intro _; intros))

theorem execChainBlock_keeps {s0 : State} (x1 : Bool) (x2 : List Nat) (x3 : Bool) {x4 : State} (hx4 : Keeps s0 x4) :
    KO s0 (execChainBlock x1 x2 x3 x4) := by
  unfold execChainBlock
  with_reducible repeat' (first
    | assumption | apply State.chainRx_keeps | apply State.storeBytes_keeps | apply State.inc_keeps | apply State.sendAck_keeps
    | apply State.wr_keeps | apply Keeps.ite | apply KO.next | (intro _; intros) | fail_if_no_progress refine Keeps.mk' ?_ rfl rfl)

theorem execChainAck_keeps {s0 : State} (x1 : Bool) (x2 : List Nat) {x3 : State} (hx3 : Keeps s0 x3) :
    KO s0 (execChainAck x1 x2 x3) := by
  unfold execChainAck
  with_reducible repeat' (first
    | assumption | apply State.chainRx_keeps | apply State.ackIfOwed_keeps | apply State.sendBlocks_keeps | apply State.setPort_keeps
    | apply Keeps.ite | apply KO.next | (intro _; intros))

theorem execChainAbort_keeps {s0 : State} (x1 : Bool) (x2 : List Nat) {x3 : State} (hx3 : Keeps s0 x3) :
    KO s0 (execChainAbort x1 x2 x3) := by
  unfold execChainAbort
  with_reducible repeat' (first
    | assumption | apply State.chainRx_keeps | apply State.chainSend_keeps | apply State.castleStart_keeps | apply State.updEnd_keeps
    | apply Keeps.ite | apply KO.next | refine Keeps.foldl ?_ _ ?_ | (intro _; intros))

theorem execChainHello_keeps {s0 : State} (x1 : Bool) (x2 : List Nat) {x3 : State} (hx3 : Keeps s0 x3) :
    KO s0 (execChainHello x1 x2 x3) := by
  unfold execChainHello
  with_reducible repeat' (first
    | assumption | apply State.chainRx_keeps | apply State.wr_keeps | apply State.setPort_keeps | apply KO.next | (intro _; intros))

theorem execChainHelloSend_keeps {s0 : State} (x1 : Bool) {x2 : State} (hx2 : Keeps s0 x2) :
    KO s0 (execChainHelloSend x1 x2) := by
  unfold execChainHelloSend
  with_reducible repeat' (first
    | assumption | apply State.chainSend_keeps | apply State.setPort_keeps | apply KO.ite | apply KO.next)

theorem execChainPortDown_keeps {s0 : State} (x1 : Bool) {x2 : State} (hx2 : Keeps s0 x2) :
    KO s0 (execChainPortDown x1 x2) := by
  unfold execChainPortDown
  with_reducible repeat' (first
    | assumption | apply State.wr_keeps | apply KO.ite | apply KO.next)

theorem execChainRetransmit_keeps {s0 : State} (x1 : Bool) {x2 : State} (hx2 : Keeps s0 x2) :
    KO s0 (execChainRetransmit x1 x2) := by
  unfold execChainRetransmit
  with_reducible repeat' (first
    | assumption | apply State.addSat_keeps | apply State.chainSend_keeps | apply State.setPort_keeps | apply KO.ite | apply KO.next)

theorem execChainForwardTimeout_keeps {s0 : State} (x1 : Bool) {x2 : State} (hx2 : Keeps s0 x2) :
    KO s0 (execChainForwardTimeout x1 x2) := by
  unfold execChainForwardTimeout
  with_reducible repeat' (first
    | assumption | apply State.chainSend_keeps | apply State.stopFwd_keeps | apply State.post_keeps | apply KO.ite | apply KO.next)

end Sys2Proof.Machine
end

