-- ==== Sys2Proof/Laws/KeepsRegs.lean ====
section
/-! SUPPORT. That each operation keeps what `Keeps` says: engine operations, register accesses, network time and self-tests. -/
namespace Sys2Proof.Machine

theorem execNop_keeps {s0 : State} (x1 : Nat) {x2 : State} (hx2 : Keeps s0 x2) :
    KO s0 (execNop x1 x2) := by
  unfold execNop
  with_reducible repeat' (first
    | assumption | apply State.issueOp_keeps | apply KO.next)

theorem execAdd_keeps {s0 : State} (x1 : Nat) {x2 : State} (hx2 : Keeps s0 x2) :
    KO s0 (execAdd x1 x2) := by
  unfold execAdd
  with_reducible repeat' (first
    | assumption | apply State.issueOp_keeps | apply KO.next)

theorem execSub_keeps {s0 : State} (x1 : Nat) {x2 : State} (hx2 : Keeps s0 x2) :
    KO s0 (execSub x1 x2) := by
  unfold execSub
  with_reducible repeat' (first
    | assumption | apply State.issueOp_keeps | apply KO.next)

theorem execAnd_keeps {s0 : State} (x1 : Nat) {x2 : State} (hx2 : Keeps s0 x2) :
    KO s0 (execAnd x1 x2) := by
  unfold execAnd
  with_reducible repeat' (first
    | assumption | apply State.issueOp_keeps | apply KO.next)

theorem execOr_keeps {s0 : State} (x1 : Nat) {x2 : State} (hx2 : Keeps s0 x2) :
    KO s0 (execOr x1 x2) := by
  unfold execOr
  with_reducible repeat' (first
    | assumption | apply State.issueOp_keeps | apply KO.next)

theorem execXor_keeps {s0 : State} (x1 : Nat) {x2 : State} (hx2 : Keeps s0 x2) :
    KO s0 (execXor x1 x2) := by
  unfold execXor
  with_reducible repeat' (first
    | assumption | apply State.issueOp_keeps | apply KO.next)

theorem execAndn_keeps {s0 : State} (x1 : Nat) {x2 : State} (hx2 : Keeps s0 x2) :
    KO s0 (execAndn x1 x2) := by
  unfold execAndn
  with_reducible repeat' (first
    | assumption | apply State.issueOp_keeps | apply KO.next)

theorem execMov_keeps {s0 : State} (x1 : Nat) {x2 : State} (hx2 : Keeps s0 x2) :
    KO s0 (execMov x1 x2) := by
  unfold execMov
  with_reducible repeat' (first
    | assumption | apply State.issueOp_keeps | apply KO.next)

theorem execMinu_keeps {s0 : State} (x1 : Nat) {x2 : State} (hx2 : Keeps s0 x2) :
    KO s0 (execMinu x1 x2) := by
  unfold execMinu
  with_reducible repeat' (first
    | assumption | apply State.issueOp_keeps | apply KO.next)

theorem execMaxu_keeps {s0 : State} (x1 : Nat) {x2 : State} (hx2 : Keeps s0 x2) :
    KO s0 (execMaxu x1 x2) := by
  unfold execMaxu
  with_reducible repeat' (first
    | assumption | apply State.issueOp_keeps | apply KO.next)

theorem execMul_keeps {s0 : State} (x1 : Nat) {x2 : State} (hx2 : Keeps s0 x2) :
    KO s0 (execMul x1 x2) := by
  unfold execMul
  with_reducible repeat' (first
    | assumption | apply State.issueOp_keeps | apply KO.next)

theorem execClz_keeps {s0 : State} (x1 : Nat) {x2 : State} (hx2 : Keeps s0 x2) :
    KO s0 (execClz x1 x2) := by
  unfold execClz
  with_reducible repeat' (first
    | assumption | apply State.issueOp_keeps | apply KO.next)

theorem execPopc_keeps {s0 : State} (x1 : Nat) {x2 : State} (hx2 : Keeps s0 x2) :
    KO s0 (execPopc x1 x2) := by
  unfold execPopc
  with_reducible repeat' (first
    | assumption | apply State.issueOp_keeps | apply KO.next)

theorem execBswap_keeps {s0 : State} (x1 : Nat) {x2 : State} (hx2 : Keeps s0 x2) :
    KO s0 (execBswap x1 x2) := by
  unfold execBswap
  with_reducible repeat' (first
    | assumption | apply State.issueOp_keeps | apply KO.next)

theorem execShl_keeps {s0 : State} (x1 : Nat) {x2 : State} (hx2 : Keeps s0 x2) :
    KO s0 (execShl x1 x2) := by
  unfold execShl
  with_reducible repeat' (first
    | assumption | apply State.issueOp_keeps | apply KO.next)

theorem execShr_keeps {s0 : State} (x1 : Nat) {x2 : State} (hx2 : Keeps s0 x2) :
    KO s0 (execShr x1 x2) := by
  unfold execShr
  with_reducible repeat' (first
    | assumption | apply State.issueOp_keeps | apply KO.next)

theorem execSar_keeps {s0 : State} (x1 : Nat) {x2 : State} (hx2 : Keeps s0 x2) :
    KO s0 (execSar x1 x2) := by
  unfold execSar
  with_reducible repeat' (first
    | assumption | apply State.issueOp_keeps | apply KO.next)

theorem execRol_keeps {s0 : State} (x1 : Nat) {x2 : State} (hx2 : Keeps s0 x2) :
    KO s0 (execRol x1 x2) := by
  unfold execRol
  with_reducible repeat' (first
    | assumption | apply State.issueOp_keeps | apply KO.next)

theorem execExtu_keeps {s0 : State} (x1 : Nat) {x2 : State} (hx2 : Keeps s0 x2) :
    KO s0 (execExtu x1 x2) := by
  unfold execExtu
  with_reducible repeat' (first
    | assumption | apply State.issueOp_keeps | apply KO.next)

theorem execExts_keeps {s0 : State} (x1 : Nat) {x2 : State} (hx2 : Keeps s0 x2) :
    KO s0 (execExts x1 x2) := by
  unfold execExts
  with_reducible repeat' (first
    | assumption | apply State.issueOp_keeps | apply KO.next)

theorem execIns_keeps {s0 : State} (x1 : Nat) {x2 : State} (hx2 : Keeps s0 x2) :
    KO s0 (execIns x1 x2) := by
  unfold execIns
  with_reducible repeat' (first
    | assumption | apply State.issueOp_keeps | apply KO.next)

theorem execHmix_keeps {s0 : State} (x1 : Nat) {x2 : State} (hx2 : Keeps s0 x2) :
    KO s0 (execHmix x1 x2) := by
  unfold execHmix
  with_reducible repeat' (first
    | assumption | apply State.issueOp_keeps | apply KO.next)

theorem execCeq_keeps {s0 : State} (x1 : Nat) {x2 : State} (hx2 : Keeps s0 x2) :
    KO s0 (execCeq x1 x2) := by
  unfold execCeq
  with_reducible repeat' (first
    | assumption | apply State.issueOp_keeps | apply KO.next)

theorem execCne_keeps {s0 : State} (x1 : Nat) {x2 : State} (hx2 : Keeps s0 x2) :
    KO s0 (execCne x1 x2) := by
  unfold execCne
  with_reducible repeat' (first
    | assumption | apply State.issueOp_keeps | apply KO.next)

theorem execCltu_keeps {s0 : State} (x1 : Nat) {x2 : State} (hx2 : Keeps s0 x2) :
    KO s0 (execCltu x1 x2) := by
  unfold execCltu
  with_reducible repeat' (first
    | assumption | apply State.issueOp_keeps | apply KO.next)

theorem execCleu_keeps {s0 : State} (x1 : Nat) {x2 : State} (hx2 : Keeps s0 x2) :
    KO s0 (execCleu x1 x2) := by
  unfold execCleu
  with_reducible repeat' (first
    | assumption | apply State.issueOp_keeps | apply KO.next)

theorem execClts_keeps {s0 : State} (x1 : Nat) {x2 : State} (hx2 : Keeps s0 x2) :
    KO s0 (execClts x1 x2) := by
  unfold execClts
  with_reducible repeat' (first
    | assumption | apply State.issueOp_keeps | apply KO.next)

theorem execCles_keeps {s0 : State} (x1 : Nat) {x2 : State} (hx2 : Keeps s0 x2) :
    KO s0 (execCles x1 x2) := by
  unfold execCles
  with_reducible repeat' (first
    | assumption | apply State.issueOp_keeps | apply KO.next)

theorem execCbit_keeps {s0 : State} (x1 : Nat) {x2 : State} (hx2 : Keeps s0 x2) :
    KO s0 (execCbit x1 x2) := by
  unfold execCbit
  with_reducible repeat' (first
    | assumption | apply State.issueOp_keeps | apply KO.next)

theorem execPand_keeps {s0 : State} (x1 : Nat) {x2 : State} (hx2 : Keeps s0 x2) :
    KO s0 (execPand x1 x2) := by
  unfold execPand
  with_reducible repeat' (first
    | assumption | apply State.issueOp_keeps | apply KO.next)

theorem execPor_keeps {s0 : State} (x1 : Nat) {x2 : State} (hx2 : Keeps s0 x2) :
    KO s0 (execPor x1 x2) := by
  unfold execPor
  with_reducible repeat' (first
    | assumption | apply State.issueOp_keeps | apply KO.next)

theorem execPxor_keeps {s0 : State} (x1 : Nat) {x2 : State} (hx2 : Keeps s0 x2) :
    KO s0 (execPxor x1 x2) := by
  unfold execPxor
  with_reducible repeat' (first
    | assumption | apply State.issueOp_keeps | apply KO.next)

theorem execLd8u_keeps {s0 : State} (x1 : Nat) {x2 : State} (hx2 : Keeps s0 x2) :
    KO s0 (execLd8u x1 x2) := by
  unfold execLd8u
  with_reducible repeat' (first
    | assumption | apply State.issueOp_keeps | apply KO.next)

theorem execLd16u_keeps {s0 : State} (x1 : Nat) {x2 : State} (hx2 : Keeps s0 x2) :
    KO s0 (execLd16u x1 x2) := by
  unfold execLd16u
  with_reducible repeat' (first
    | assumption | apply State.issueOp_keeps | apply KO.next)

theorem execLd32u_keeps {s0 : State} (x1 : Nat) {x2 : State} (hx2 : Keeps s0 x2) :
    KO s0 (execLd32u x1 x2) := by
  unfold execLd32u
  with_reducible repeat' (first
    | assumption | apply State.issueOp_keeps | apply KO.next)

theorem execLd64_keeps {s0 : State} (x1 : Nat) {x2 : State} (hx2 : Keeps s0 x2) :
    KO s0 (execLd64 x1 x2) := by
  unfold execLd64
  with_reducible repeat' (first
    | assumption | apply State.issueOp_keeps | apply KO.next)

theorem execSt8_keeps {s0 : State} (x1 : Nat) {x2 : State} (hx2 : Keeps s0 x2) :
    KO s0 (execSt8 x1 x2) := by
  unfold execSt8
  with_reducible repeat' (first
    | assumption | apply State.issueOp_keeps | apply KO.next)

theorem execSt16_keeps {s0 : State} (x1 : Nat) {x2 : State} (hx2 : Keeps s0 x2) :
    KO s0 (execSt16 x1 x2) := by
  unfold execSt16
  with_reducible repeat' (first
    | assumption | apply State.issueOp_keeps | apply KO.next)

theorem execSt32_keeps {s0 : State} (x1 : Nat) {x2 : State} (hx2 : Keeps s0 x2) :
    KO s0 (execSt32 x1 x2) := by
  unfold execSt32
  with_reducible repeat' (first
    | assumption | apply State.issueOp_keeps | apply KO.next)

theorem execSt64_keeps {s0 : State} (x1 : Nat) {x2 : State} (hx2 : Keeps s0 x2) :
    KO s0 (execSt64 x1 x2) := by
  unfold execSt64
  with_reducible repeat' (first
    | assumption | apply State.issueOp_keeps | apply KO.next)

theorem execAadd_keeps {s0 : State} (x1 : Nat) {x2 : State} (hx2 : Keeps s0 x2) :
    KO s0 (execAadd x1 x2) := by
  unfold execAadd
  with_reducible repeat' (first
    | assumption | apply State.issueOp_keeps | apply KO.next)

theorem execAswp_keeps {s0 : State} (x1 : Nat) {x2 : State} (hx2 : Keeps s0 x2) :
    KO s0 (execAswp x1 x2) := by
  unfold execAswp
  with_reducible repeat' (first
    | assumption | apply State.issueOp_keeps | apply KO.next)

theorem execAcas_keeps {s0 : State} (x1 : Nat) {x2 : State} (hx2 : Keeps s0 x2) :
    KO s0 (execAcas x1 x2) := by
  unfold execAcas
  with_reducible repeat' (first
    | assumption | apply State.issueOp_keeps | apply KO.next)

theorem execAmaxu_keeps {s0 : State} (x1 : Nat) {x2 : State} (hx2 : Keeps s0 x2) :
    KO s0 (execAmaxu x1 x2) := by
  unfold execAmaxu
  with_reducible repeat' (first
    | assumption | apply State.issueOp_keeps | apply KO.next)

theorem execBr_keeps {s0 : State} (x1 : Nat) {x2 : State} (hx2 : Keeps s0 x2) :
    KO s0 (execBr x1 x2) := by
  unfold execBr
  with_reducible repeat' (first
    | assumption | apply State.issueOp_keeps | apply KO.next)

theorem execBrr_keeps {s0 : State} (x1 : Nat) {x2 : State} (hx2 : Keeps s0 x2) :
    KO s0 (execBrr x1 x2) := by
  unfold execBrr
  with_reducible repeat' (first
    | assumption | apply State.issueOp_keeps | apply KO.next)

theorem execCalls_keeps {s0 : State} (x1 : Nat) {x2 : State} (hx2 : Keeps s0 x2) :
    KO s0 (execCalls x1 x2) := by
  unfold execCalls
  with_reducible repeat' (first
    | assumption | apply State.issueOp_keeps | apply KO.next)

theorem execRet_keeps {s0 : State} (x1 : Nat) {x2 : State} (hx2 : Keeps s0 x2) :
    KO s0 (execRet x1 x2) := by
  unfold execRet
  with_reducible repeat' (first
    | assumption | apply State.issueOp_keeps | apply KO.next)

theorem execCall_keeps {s0 : State} (x1 : Nat) {x2 : State} (hx2 : Keeps s0 x2) :
    KO s0 (execCall x1 x2) := by
  unfold execCall
  with_reducible repeat' (first
    | assumption | apply State.issueOp_keeps | apply KO.next)

theorem execCalln_keeps {s0 : State} (x1 : Nat) {x2 : State} (hx2 : Keeps s0 x2) :
    KO s0 (execCalln x1 x2) := by
  unfold execCalln
  with_reducible repeat' (first
    | assumption | apply State.issueOp_keeps | apply KO.next)

theorem execWait_keeps {s0 : State} (x1 : Nat) {x2 : State} (hx2 : Keeps s0 x2) :
    KO s0 (execWait x1 x2) := by
  unfold execWait
  with_reducible repeat' (first
    | assumption | apply State.issueOp_keeps | apply KO.next)

theorem execPost_keeps {s0 : State} (x1 : Nat) {x2 : State} (hx2 : Keeps s0 x2) :
    KO s0 (execPost x1 x2) := by
  unfold execPost
  with_reducible repeat' (first
    | assumption | apply State.issueOp_keeps | apply KO.next)

theorem execDone_keeps {s0 : State} (x1 : Nat) {x2 : State} (hx2 : Keeps s0 x2) :
    KO s0 (execDone x1 x2) := by
  unfold execDone
  with_reducible repeat' (first
    | assumption | apply State.issueOp_keeps | apply KO.next)

theorem execDrop_keeps {s0 : State} (x1 : Nat) {x2 : State} (hx2 : Keeps s0 x2) :
    KO s0 (execDrop x1 x2) := by
  unfold execDrop
  with_reducible repeat' (first
    | assumption | apply State.issueOp_keeps | apply KO.next)

theorem execTrap_keeps {s0 : State} (x1 : Nat) {x2 : State} (hx2 : Keeps s0 x2) :
    KO s0 (execTrap x1 x2) := by
  unfold execTrap
  with_reducible repeat' (first
    | assumption | apply State.issueOp_keeps | apply KO.next)

theorem execRecycle_keeps {s0 : State} (x1 : Nat) {x2 : State} (hx2 : Keeps s0 x2) :
    KO s0 (execRecycle x1 x2) := by
  unfold execRecycle
  with_reducible repeat' (first
    | assumption | apply State.issueOp_keeps | apply KO.next)

theorem State.nextTag_keeps {s0 : State} {x1 : State} (hx1 : Keeps s0 x1) :
    KP s0 (State.nextTag x1) := by
  unfold State.nextTag
  with_reducible repeat' (first
    | assumption | fail_if_no_progress refine Keeps.mk' ?_ rfl rfl)

theorem State.sbSend_keeps {s0 : State} {x1 : State} (x2 : Nat → Sys2Proof.Machine.SbMsg) (hx1 : Keeps s0 x1) :
    Keeps s0 (State.sbSend x1 x2) := by
  unfold State.sbSend
  with_reducible repeat' (first
    | assumption | apply State.nextTag_keeps | apply State.sbPut_keeps)

theorem State.owe_keeps {s0 : State} {x1 : State} (x2 : Sys2Proof.Machine.SbMsg) (hx1 : Keeps s0 x1) :
    Keeps s0 (State.owe x1 x2) := by
  unfold State.owe
  with_reducible repeat' (first
    | assumption | fail_if_no_progress refine Keeps.mk' ?_ rfl rfl)

theorem State.fdReply_keeps {s0 : State} {x1 : State} (x2 : Sys2Proof.Machine.SbMsg) (x3 : Nat) (x4 : Nat) (hx1 : Keeps s0 x1) :
    KP s0 (State.fdReply x1 x2 x3 x4) := by
  unfold State.fdReply
  with_reducible repeat' (first
    | assumption | apply State.ctlNow_keeps | apply State.ctlWait_keeps | apply State.owe_keeps | apply KP.ite)

theorem State.tagDone_keeps {s0 : State} {x1 : State} (x2 : Nat) (x3 : Nat) (hx1 : Keeps s0 x1) :
    Keeps s0 (State.tagDone x1 x2 x3) := by
  unfold State.tagDone
  with_reducible repeat' (first
    | assumption | fail_if_no_progress refine Keeps.mk' ?_ rfl rfl)

theorem State.fdAccess_keeps {s0 : State} {x1 : State} (x2 : Nat) (x3 : Nat → Sys2Proof.Machine.SbMsg) (x4 : Sys2Proof.Machine.State → Nat × Sys2Proof.Machine.State) (hx1 : Keeps s0 x1) (hx4 : ∀ t0, Keeps s0 t0 → KP s0 (x4 t0)) :
    KP s0 (State.fdAccess x1 x2 x3 x4) := by
  unfold State.fdAccess
  with_reducible repeat' (first
    | assumption | apply hx4 | apply State.nextTag_keeps | apply State.ctlNow_keeps | apply State.fdReply_keeps
    | apply State.tagDone_keeps | apply State.ctlWait_keeps | apply State.owe_keeps | apply KP.ite)

theorem State.gives_keeps {s0 : State} {x1 : Nat × Sys2Proof.Machine.State} (hx1 : KP s0 x1) :
    Keeps s0 (State.gives x1) := by
  unfold State.gives
  with_reducible repeat' (first
    | assumption | fail_if_no_progress refine Keeps.mk' ?_ rfl rfl)

theorem State.setLatch_keeps {s0 : State} {x1 : State} (x2 : Sys2Proof.Machine.Path) (x3 : Sys2Proof.Machine.Latch) (hx1 : Keeps s0 x1) :
    Keeps s0 (State.setLatch x1 x2 x3) := by
  unfold State.setLatch
  with_reducible repeat' (first
    | assumption | fail_if_no_progress refine Keeps.mk' ?_ rfl rfl | split)

theorem State.readLow_keeps {s0 : State} {x1 : State} (x2 : Sys2Proof.Machine.Path) (x3 : Sys2Proof.Machine.Fld) (hx1 : Keeps s0 x1) :
    KP s0 (State.readLow x1 x2 x3) := by
  unfold State.readLow
  with_reducible repeat' (first
    | assumption | apply State.setLatch_keeps)

theorem State.readTriple_keeps {s0 : State} {x1 : State} (x2 : Sys2Proof.Machine.Path) (x3 : Nat) (x4 : Nat) (x5 : Nat) (hx1 : Keeps s0 x1) :
    KP s0 (State.readTriple x1 x2 x3 x4 x5) := by
  unfold State.readTriple
  with_reducible repeat' (first
    | assumption | apply State.setLatch_keeps | apply KP.ite | split)

theorem State.afterRead_keeps {s0 : State} {x1 : State} (x2 : Nat) (hx1 : Keeps s0 x1) :
    Keeps s0 (State.afterRead x1 x2) := by
  unfold State.afterRead
  with_reducible repeat' (first
    | assumption | apply State.wr_keeps | apply Keeps.ite | dsimp only | split)

theorem State.regRead_keeps {s0 : State} {x1 : State} (x2 : Sys2Proof.Machine.Path) (x3 : Nat) (hx1 : Keeps s0 x1) :
    KP s0 (State.regRead x1 x2 x3) := by
  unfold State.regRead
  with_reducible repeat' (first
    | assumption | apply State.readLow_keeps | apply State.readTriple_keeps | apply State.afterRead_keeps | split)

theorem State.bmcRead_keeps {s0 : State} {x1 : State} (x2 : Nat) (hx1 : Keeps s0 x1) :
    Keeps s0 (State.bmcRead x1 x2) := by
  unfold State.bmcRead
  with_reducible repeat' (first
    | assumption | apply State.gives_keeps | apply State.regRead_keeps | apply Keeps.ite)

theorem State.givesPart_keeps {s0 : State} {x1 : State} (x2 : Nat) (x3 : Nat) (hx1 : Keeps s0 x1) :
    Keeps s0 (State.givesPart x1 x2 x3) := by
  unfold State.givesPart
  with_reducible repeat' (first
    | assumption | apply State.gives_keeps)

theorem State.bar0Read_keeps {s0 : State} {x1 : State} (x2 : Nat) (x3 : Nat) (hx1 : Keeps s0 x1) :
    Keeps s0 (State.bar0Read x1 x2 x3) := by
  unfold State.bar0Read
  with_reducible repeat' (first
    | assumption | apply State.givesPart_keeps | apply State.regRead_keeps | apply State.sbSend_keeps | apply State.fdAccess_keeps
    | apply Keeps.ite | apply KP.ite | (intro _; intros) | refine Keeps.ofPair ?_ (by assumption) | dsimp only | split)

theorem State.bar0ReadN_keeps {s0 : State} {x1 : State} (x2 : Nat) (x3 : Nat) (hx1 : Keeps s0 x1) :
    Keeps s0 (State.bar0ReadN x1 x2 x3) := by
  unfold State.bar0ReadN
  with_reducible repeat' (first
    | assumption | apply State.gives_keeps | apply State.inc_keeps | apply State.bar0Read_keeps | apply Keeps.ite)

theorem State.tick_ok {s : State} (h : s.ok = true) : s.tick.ok = true := by
  simp only [State.ok, State.regsOk, State.memOk, State.timeOk, Bool.and_eq_true, decide_eq_true_eq] at h ⊢
  unfold State.tick
  split
  · exact h
  · exact ⟨h.1, Nat.mod_lt _ (by decide), Nat.mod_lt _ (by decide)⟩

theorem State.servoTo_keeps {s0 : State} {x1 : State} (x2 : Nat) (hx1 : Keeps s0 x1) :
    Keeps s0 (State.servoTo x1 x2) := by
  unfold State.servoTo
  with_reducible repeat' (first
    | assumption | apply State.post_keeps | apply State.wr_keeps | apply Keeps.ite | fail_if_no_progress refine Keeps.mk' ?_ rfl rfl)

theorem State.writeTimMode_keeps {s0 : State} {x1 : State} (x2 : Bool) (hx1 : Keeps s0 x1) :
    Keeps s0 (State.writeTimMode x1 x2) := by
  unfold State.writeTimMode
  with_reducible repeat' (first
    | assumption | apply State.wrBit_keeps | apply State.servoTo_keeps | apply Keeps.ite
    | fail_if_no_progress refine Keeps.mk' ?_ rfl rfl)

theorem State.refuseTime_keeps {s0 : State} {x1 : State} (hx1 : Keeps s0 x1) :
    Keeps s0 (State.refuseTime x1) := by
  unfold State.refuseTime
  with_reducible repeat' (first
    | assumption | apply State.wr_keeps)

theorem State.stepTo_keeps {s0 x1 : State} (x2 x3 x4 : Nat) (h3 : x3 < 10 ^ 9) (h4 : x4 < fracNs) (hx1 : Keeps s0 x1) :
    Keeps s0 (State.stepTo x1 x2 x3 x4) := by
  unfold State.stepTo
  dsimp only
  repeat' (first
    | with_reducible assumption | with_reducible apply State.postTimeStep_keeps | with_reducible apply State.post_keeps
    | with_reducible apply State.inc_keeps | with_reducible apply State.wr_keeps)
  refine ⟨fun hs => ?_, hx1.pending, hx1.clk⟩
  have := hx1.ok hs
  simp only [State.ok, State.timeOk, Bool.and_eq_true, decide_eq_true_eq] at this ⊢
  exact ⟨this.1, h3, h4⟩

theorem State.timeStep_keeps {s0 x1 : State} (hx1 : Keeps s0 x1) : Keeps s0 (State.timeStep x1) := by
  unfold State.timeStep
  split
  · exact State.refuseTime_keeps hx1
  · rename_i h
    exact State.stepTo_keeps _ _ _ (by omega) (by decide) hx1

theorem State.stepBy_keeps {s0 x1 : State} (x2 : Int) (hx1 : Keeps s0 x1) : Keeps s0 (State.stepBy x1 x2) := by
  unfold State.stepBy
  refine State.stepTo_keeps _ _ _ (Nat.mod_lt _ (by decide)) ?_ hx1
  have := Int.emod_lt_of_pos (((x1.tim.sec * 10 ^ 9 + x1.tim.ns : Nat) : Int) * fracNs + x1.tim.frac + x2) (show (0 : Int) < fracNs by decide)
  have := Int.emod_nonneg (((x1.tim.sec * 10 ^ 9 + x1.tim.ns : Nat) : Int) * fracNs + x1.tim.frac + x2) (show (fracNs : Int) ≠ 0 by decide)
  omega

theorem State.timeOffset_keeps {s0 : State} {x1 : State} (hx1 : Keeps s0 x1) :
    Keeps s0 (State.timeOffset x1) := by
  unfold State.timeOffset
  with_reducible repeat' (first
    | assumption | apply State.refuseTime_keeps | apply State.wr_keeps | apply State.stepBy_keeps | apply Keeps.ite
    | fail_if_no_progress refine Keeps.mk' ?_ rfl rfl)

theorem State.writeFreq_keeps {s0 : State} {x1 : State} (x2 : Nat) (hx1 : Keeps s0 x1) :
    Keeps s0 (State.writeFreq x1 x2) := by
  unfold State.writeFreq
  with_reducible repeat' (first
    | assumption | apply State.refuseTime_keeps | apply State.wr_keeps | apply Keeps.ite)

theorem State.scmd_keeps {s0 : State} {x1 : State} (x2 : Sys2Proof.Machine.Path) (x3 : Bool) (x4 : Bool) (hx1 : Keeps s0 x1) :
    Keeps s0 (State.scmd x1 x2 x3 x4) := by
  unfold State.scmd
  with_reducible repeat' (first
    | assumption | apply State.setSession_keeps | apply State.wr_keeps | apply State.wrBit_keeps | apply Keeps.ite)

theorem execTimeSyncUpdate_keeps {s0 : State} {x1 : State} (hx1 : Keeps s0 x1) :
    KO s0 (execTimeSyncUpdate x1) := by
  unfold execTimeSyncUpdate
  with_reducible repeat' (first
    | assumption | apply State.wr_keeps | apply State.regate_keeps | apply Keeps.ite | apply KO.ite | apply KO.next
    | fail_if_no_progress refine Keeps.mk' ?_ rfl rfl)

theorem execSlewDone_keeps {s0 : State} {x1 : State} (hx1 : Keeps s0 x1) :
    KO s0 (execSlewDone x1) := by
  unfold execSlewDone
  with_reducible repeat' (first
    | assumption | apply State.wr_keeps | apply KO.ite | apply KO.next)

theorem execPpsEdge_keeps {s0 : State} (x1 : Bool) {x2 : State} (hx2 : Keeps s0 x2) :
    KO s0 (execPpsEdge x1 x2) := by
  unfold execPpsEdge
  with_reducible repeat' (first
    | assumption | apply State.wr_keeps | apply State.inc_keeps | apply KO.ite | apply KO.next
    | fail_if_no_progress refine Keeps.mk' ?_ rfl rfl)

theorem State.servoState_keeps {s0 : State} {x1 : State} (x2 : Int) (hx1 : Keeps s0 x1) :
    Keeps s0 (State.servoState x1 x2) := by
  unfold State.servoState
  with_reducible repeat' (first
    | assumption | apply State.servoTo_keeps | apply Keeps.ite | fail_if_no_progress refine Keeps.mk' ?_ rfl rfl | dsimp only | split)

theorem State.servoAct_keeps {s0 : State} {x1 : State} (x2 : Int) (x3 : Int) (x4 : Bool) (hx1 : Keeps s0 x1) :
    Keeps s0 (State.servoAct x1 x2 x3 x4) := by
  unfold State.servoAct
  with_reducible repeat' (first
    | assumption | apply State.stepBy_keeps | apply State.wr_keeps | apply Keeps.ite | fail_if_no_progress refine Keeps.mk' ?_ rfl rfl)

theorem State.goodPair_keeps {s0 : State} {x1 : State} (x2 : Nat) (hx1 : Keeps s0 x1) :
    Keeps s0 (State.goodPair x1 x2) := by
  unfold State.goodPair
  with_reducible repeat' (first
    | assumption | apply State.wr_keeps | apply State.servoState_keeps | apply State.servoAct_keeps | apply Keeps.ite
    | fail_if_no_progress refine Keeps.mk' ?_ rfl rfl)

theorem execTodMessage_keeps {s0 : State} (x1 : List Nat) {x2 : State} (hx2 : Keeps s0 x2) :
    KO s0 (execTodMessage x1 x2) := by
  unfold execTodMessage
  with_reducible repeat' (first
    | assumption | apply State.wr_keeps | apply State.wrBit_keeps | apply State.goodPair_keeps | apply State.inc_keeps | apply KO.ite
    | apply KO.next)

theorem execServoHoldover_keeps {s0 : State} {x1 : State} (hx1 : Keeps s0 x1) :
    KO s0 (execServoHoldover x1) := by
  unfold execServoHoldover
  with_reducible repeat' (first
    | assumption | apply State.post_keeps | apply State.wr_keeps | apply State.servoTo_keeps | apply KO.ite | apply KO.next)

theorem State.emptyBank_keeps {s0 : State} {x1 : State} (x2 : Nat) (x3 : Nat) (hx1 : Keeps s0 x1) :
    Keeps s0 (State.emptyBank x1 x2 x3) := by
  unfold State.emptyBank
  with_reducible repeat' (first
    | assumption | apply State.loadBank_keeps)

theorem State.losePdata_keeps {s0 : State} {x1 : State} (x2 : Nat) (hx1 : Keeps s0 x1) :
    Keeps s0 (State.losePdata x1 x2) := by
  unfold State.losePdata
  with_reducible repeat' (first
    | assumption | apply State.fresh_keeps | fail_if_no_progress refine Keeps.mk' ?_ rfl rfl)

theorem State.testStart_keeps {s0 : State} {x1 : State} (x2 : Nat) (x3 : Nat) (hx1 : Keeps s0 x1) :
    Keeps s0 (State.testStart x1 x2 x3) := by
  unfold State.testStart
  with_reducible repeat' (first
    | assumption | apply State.emptyBank_keeps | apply State.losePdata_keeps | apply State.setPins_keeps | split)

theorem execSelftest_keeps {s0 : State} {x1 : State} (hx1 : Keeps s0 x1) :
    KO s0 (execSelftest x1) := by
  unfold execSelftest
  with_reducible repeat' (first
    | assumption | apply State.finRefused_keeps | apply State.finBusy_keeps | apply State.finDone_keeps | apply State.testStart_keeps
    | apply State.wr_keeps | apply State.viaFd_keeps | apply Keeps.ite | apply KO.next | (intro _; intros)
    | fail_if_no_progress refine Keeps.mk' ?_ rfl rfl | dsimp only | split)

theorem State.dropStale_keeps {s0 : State} {x1 : State} (x2 : Sys2Proof.Machine.Block) (hx1 : Keeps s0 x1) :
    Keeps s0 (State.dropStale x1 x2) := by
  unfold State.dropStale
  with_reducible repeat' (first
    | assumption | apply State.addSat_keeps | fail_if_no_progress refine Keeps.mk' ?_ rfl rfl | dsimp only | split)

theorem State.clearRegs_keeps {s0 x1 : State} (x2 x3 : Nat) (hx1 : Keeps s0 x1) : Keeps s0 (State.clearRegs x1 x2 x3) := by
  refine ⟨fun hs => ?_, hx1.pending, hx1.clk⟩
  have := hx1.ok hs
  simp only [State.ok, Bool.and_eq_true] at this ⊢
  exact ⟨⟨Tbl.rising_filter _ this.1.1, this.1.2⟩, this.2⟩

theorem State.resetBlock_keeps {s0 : State} {x1 : State} (x2 : Nat) (x3 : Sys2Proof.Machine.Block) (hx1 : Keeps s0 x1) :
    Keeps s0 (State.resetBlock x1 x2 x3) := by
  unfold State.resetBlock
  with_reducible repeat' (first
    | assumption | apply State.dropStale_keeps | apply State.clusterReset_keeps | apply State.clearRegs_keeps | apply State.fresh_keeps
    | apply State.enterDown_keeps | apply State.portTouch_keeps | apply State.setLinePort_keeps | apply State.laneTo_keeps
    | apply State.linkClear_keeps | apply State.wr_keeps | apply Keeps.ite | fail_if_no_progress refine Keeps.mk' ?_ rfl rfl | dsimp only
    | split)

theorem execBlockReset_keeps {s0 : State} {x1 : State} (hx1 : Keeps s0 x1) :
    KO s0 (execBlockReset x1) := by
  unfold execBlockReset
  with_reducible repeat' (first
    | assumption | apply State.finRefused_keeps | apply State.finBusy_keeps | apply State.updTaken_keeps | apply State.resetBlock_keeps
    | apply State.viaFd_keeps | apply Keeps.ite | apply KO.ite | apply KO.next | (intro _; intros) | dsimp only | split)

theorem execSelftestDone_keeps {s0 : State} (x1 : Nat) (x2 : Bool) (x3 : Nat) (x4 : List (Nat × Nat)) {x5 : State} (hx5 : Keeps s0 x5) :
    KO s0 (execSelftestDone x1 x2 x3 x4 x5) := by
  unfold execSelftestDone
  with_reducible repeat' (first
    | assumption | apply State.post_keeps | apply State.wr_keeps | apply State.weakRow_keeps | apply State.endTest_keeps | apply Keeps.ite
    | apply KO.ite | apply KO.next | refine Keeps.foldl ?_ _ ?_ | (intro _; intros))

theorem execBlockResetDone_keeps {s0 : State} (x1 : Nat) {x2 : State} (hx2 : Keeps s0 x2) :
    KO s0 (execBlockResetDone x1 x2) := by
  unfold execBlockResetDone
  with_reducible repeat' (first
    | assumption | apply State.laneTo_keeps | apply State.finDone_keeps | apply Keeps.ite | apply KO.ite | apply KO.next
    | fail_if_no_progress refine Keeps.mk' ?_ rfl rfl | dsimp only | split)

theorem State.setPolicer_keeps {s0 : State} {x1 : State} (x2 : Nat) (x3 : Sys2Proof.Machine.Policer) (hx1 : Keeps s0 x1) :
    Keeps s0 (State.setPolicer x1 x2 x3) := by
  unfold State.setPolicer
  with_reducible repeat' (first
    | assumption | fail_if_no_progress refine Keeps.mk' ?_ rfl rfl)

theorem State.writePolicer_keeps {s0 : State} {x1 : State} (x2 : Nat) (x3 : Nat) (x4 : Nat) (x5 : Nat) (x6 : Nat) (x7 : Nat) (hx1 : Keeps s0 x1) :
    KP s0 (State.writePolicer x1 x2 x3 x4 x5 x6 x7) := by
  unfold State.writePolicer
  with_reducible repeat' (first
    | assumption | apply State.wr_keeps | apply State.setPolicer_keeps | apply State.wordWritten_keeps | apply KP.ite)

theorem execPolUpdate_keeps {s0 : State} (x1 : Nat) (x2 : List (Nat × Nat × Bool)) {x3 : State} (hx3 : Keeps s0 x3) :
    KO s0 (execPolUpdate x1 x2 x3) := by
  unfold execPolUpdate
  with_reducible repeat' (first
    | assumption | apply State.upset_keeps | apply State.answer_keeps | apply State.corrects_keeps | apply State.setPolicer_keeps
    | apply State.cntAdd_keeps | apply Keeps.ite | apply KO.ite | apply KO.next | dsimp only | split)

theorem State.noteCmd_keeps {s0 : State} {x1 : State} (x2 : Nat) (x3 : Nat) (x4 : Nat) (hx1 : Keeps s0 x1) :
    Keeps s0 (State.noteCmd x1 x2 x3 x4) := by
  unfold State.noteCmd
  with_reducible repeat' (first
    | assumption | fail_if_no_progress refine Keeps.mk' ?_ rfl rfl)

theorem State.writeMsix_keeps {s0 : State} {x1 : State} (x2 : Nat) (x3 : Nat) (hx1 : Keeps s0 x1) :
    Keeps s0 (State.writeMsix x1 x2 x3) := by
  unfold State.writeMsix
  with_reducible repeat' (first
    | assumption | apply Keeps.ite | fail_if_no_progress refine Keeps.mk' ?_ rfl rfl)

theorem State.clearOnes_keeps {s0 : State} {x1 : State} (x2 : Sys2Proof.Machine.Path) (x3 : Nat) (x4 : List Sys2Proof.Machine.FldAcc) (hx1 : Keeps s0 x1) :
    Keeps s0 (State.clearOnes x1 x2 x3 x4) := by
  unfold State.clearOnes
  with_reducible repeat' (first
    | assumption | apply State.wr_keeps | refine Keeps.foldl ?_ _ ?_ | (intro _; intros) | dsimp only | split)

theorem State.writeSeal_keeps {s0 : State} {x1 : State} (x2 : Nat) (hx1 : Keeps s0 x1) :
    Keeps s0 (State.writeSeal x1 x2) := by
  unfold State.writeSeal
  with_reducible repeat' (first
    | assumption | apply State.wr_keeps | apply Keeps.ite)

theorem State.rctlResult_keeps {s0 : State} {x1 : Nat × Sys2Proof.Machine.State} (hx1 : KP s0 x1) :
    Keeps s0 (State.rctlResult x1) := by
  unfold State.rctlResult
  with_reducible repeat' (first
    | assumption | apply State.wr_keeps | apply Keeps.ite)

theorem State.rctl_keeps {s0 : State} {x1 : State} (x2 : Sys2Proof.Machine.Path) (x3 : Bool) (x4 : Bool) (x5 : Bool) (hx1 : Keeps s0 x1) :
    Keeps s0 (State.rctl x1 x2 x3 x4 x5) := by
  unfold State.rctl
  with_reducible repeat' (first
    | assumption | apply State.rctlResult_keeps | apply State.ringStart_keeps | apply State.ringStop_keeps
    | apply State.ringInvalidate_keeps | apply Keeps.ite | fail_if_no_progress refine Keeps.mk' ?_ rfl rfl)

theorem State.hookIsland_keeps {s0 : State} {x1 : State} (x2 : Sys2Proof.Machine.Path) (x3 : Nat) (x4 : Nat) (x5 : Nat) (hx1 : Keeps s0 x1) :
    KM s0 (State.hookIsland x1 x2 x3 x4 x5) := by
  unfold State.hookIsland
  with_reducible repeat' (first
    | assumption | apply State.writeSeal_keeps | apply State.writeRstctl_keeps | apply State.rctl_keeps | apply State.wr_keeps
    | apply State.writeTimMode_keeps | apply State.timeStep_keeps | apply State.timeOffset_keeps | apply State.writeFreq_keeps
    | apply Keeps.ite | apply KM.some | apply KM.none | dsimp only | split)

theorem State.flipRequest_keeps {s0 : State} {x1 : State} (x2 : Nat) (hx1 : Keeps s0 x1) :
    Keeps s0 (State.flipRequest x1 x2) := by
  unfold State.flipRequest
  with_reducible repeat' (first
    | assumption | apply State.askFlip_keeps | apply Keeps.ite)

theorem State.clearFaults_keeps {s0 : State} {x1 : State} (x2 : Nat) (hx1 : Keeps s0 x1) :
    Keeps s0 (State.clearFaults x1 x2) := by
  unfold State.clearFaults
  with_reducible repeat' (first
    | assumption | apply State.wr_keeps | refine Keeps.foldl ?_ _ ?_ | (intro _; intros))

theorem State.enableXfib_keeps {s0 : State} {x1 : State} (hx1 : Keeps s0 x1) :
    Keeps s0 (State.enableXfib x1) := by
  unfold State.enableXfib
  with_reducible repeat' (first
    | assumption | apply State.wr_keeps | apply Keeps.ite)

theorem State.disableXfib_keeps {s0 : State} {x1 : State} (hx1 : Keeps s0 x1) :
    Keeps s0 (State.disableXfib x1) := by
  unfold State.disableXfib
  with_reducible repeat' (first
    | assumption | apply State.fibEmpty_keeps | apply State.addSat_keeps | apply State.fibCount_keeps | apply State.wr_keeps
    | apply Keeps.ite | fail_if_no_progress refine Keeps.mk' ?_ rfl rfl)

theorem State.writeDomain_keeps {s0 : State} {x1 : State} (x2 : Sys2Proof.Machine.Path) (x3 : Nat) (hx1 : Keeps s0 x1) :
    Keeps s0 (State.writeDomain x1 x2 x3) := by
  unfold State.writeDomain
  with_reducible repeat' (first
    | assumption | fail_if_no_progress refine Keeps.mk' ?_ rfl rfl)

theorem State.loadWord_keeps {s0 : State} {x1 : State} (x2 : Sys2Proof.Machine.Path) (x3 : Nat) (x4 : Nat) (hx1 : Keeps s0 x1) :
    Keeps s0 (State.loadWord x1 x2 x3 x4) := by
  unfold State.loadWord
  with_reducible repeat' (first
    | assumption | apply State.wr_keeps | refine Keeps.foldl ?_ _ ?_ | (intro _; intros) | split)

theorem State.loadWords_keeps {s0 : State} {x1 : State} (x2 : Sys2Proof.Machine.Path) (x3 : Nat) (x4 : List Nat) (hx1 : Keeps s0 x1) :
    Keeps s0 (State.loadWords x1 x2 x3 x4) := by
  revert hx1
  fun_induction State.loadWords x1 x2 x3 x4 <;> (intros; with_reducible repeat' (first
    | assumption | apply_assumption | apply State.loadWord_keeps))

theorem State.pcmd_keeps {s0 : State} {x1 : State} (x2 : Sys2Proof.Machine.Path) (x3 : Bool) (x4 : Bool) (hx1 : Keeps s0 x1) :
    Keeps s0 (State.pcmd x1 x2 x3 x4) := by
  unfold State.pcmd
  with_reducible repeat' (first
    | assumption | apply State.writePolicer_keeps | apply State.loadWords_keeps | apply Keeps.ite)

theorem State.hookFd_keeps {s0 : State} {x1 : State} (x2 : Sys2Proof.Machine.Path) (x3 : Nat) (x4 : Nat) (x5 : Nat) (x6 : Nat) (hx1 : Keeps s0 x1) :
    KM s0 (State.hookFd x1 x2 x3 x4 x5 x6) := by
  unfold State.hookFd
  with_reducible repeat' (first
    | assumption | apply State.writeRole_keeps | apply State.flipRequest_keeps | apply State.clearFaults_keeps
    | apply State.writeEmCfg_keeps | apply State.writeEmBase_keeps | apply State.writeTerProf_keeps | apply State.writeHot_keeps
    | apply State.enableXfib_keeps | apply State.disableXfib_keeps | apply State.writeBrgCfg_keeps | apply State.writeAge_keeps
    | apply State.writeDomain_keeps | apply State.pcmd_keeps | apply Keeps.ite | apply KM.ite | apply KM.some | apply KM.none | split)

theorem State.writeTgCtl_keeps {s0 : State} {x1 : State} (x2 : Nat) (x3 : Nat) (x4 : Bool) (x5 : Bool) (hx1 : Keeps s0 x1) :
    Keeps s0 (State.writeTgCtl x1 x2 x3 x4 x5) := by
  unfold State.writeTgCtl
  with_reducible repeat' (first
    | assumption | apply State.wr_keeps | apply State.enableGate_keeps | apply State.leadGates_keeps | apply State.applyGates_keeps
    | apply State.cancelGate_keeps | apply State.activateGate_keeps | apply Keeps.ite)

theorem State.ncmd_keeps {s0 : State} {x1 : State} (x2 : Sys2Proof.Machine.Path) (x3 : Bool) (x4 : Bool) (hx1 : Keeps s0 x1) :
    Keeps s0 (State.ncmd x1 x2 x3 x4) := by
  unfold State.ncmd
  with_reducible repeat' (first
    | assumption | apply State.writeNode_keeps | apply State.setNode_keeps | apply State.loadWords_keeps | apply Keeps.ite)

theorem State.hookQueues_keeps {s0 : State} {x1 : State} (x2 : Sys2Proof.Machine.Path) (x3 : Nat) (x4 : Nat) (x5 : Nat) (hx1 : Keeps s0 x1) :
    KM s0 (State.hookQueues x1 x2 x3 x4 x5) := by
  unfold State.hookQueues
  with_reducible repeat' (first
    | assumption | apply State.writeLinkCtl_keeps | apply State.writeTgCtl_keeps | apply State.gateEntry_keeps
    | apply State.writeBpmCfg_keeps | apply State.writeShalCfg_keeps | apply State.writeRsvCfg_keeps | apply State.tcmd_keeps
    | apply State.ncmd_keeps | apply KM.ite | apply KM.some | apply KM.none | dsimp only | split)

theorem State.writePanic_keeps {s0 : State} {x1 : State} (x2 : List Nat) (x3 : Sys2Proof.Machine.Fld) (x4 : Sys2Proof.Machine.Fld) (x5 : Sys2Proof.Machine.Fld) (x6 : Nat) (hx1 : Keeps s0 x1) :
    Keeps s0 (State.writePanic x1 x2 x3 x4 x5 x6) := by
  unfold State.writePanic
  with_reducible repeat' (first
    | assumption | apply State.wr_keeps | apply State.panics_keeps | apply Keeps.ite | refine Keeps.foldl ?_ _ ?_)

theorem State.writePwrCfg_keeps {s0 : State} {x1 : State} (x2 : Nat) (x3 : Nat) (hx1 : Keeps s0 x1) :
    Keeps s0 (State.writePwrCfg x1 x2 x3) := by
  unfold State.writePwrCfg
  with_reducible repeat' (first
    | assumption | apply State.wr_keeps | apply Keeps.ite)

theorem State.hookLines_keeps {s0 : State} {x1 : State} (x2 : Sys2Proof.Machine.Path) (x3 : Nat) (x4 : Nat) (x5 : Nat) (x6 : Nat) (hx1 : Keeps s0 x1) :
    KM s0 (State.hookLines x1 x2 x3 x4 x5 x6) := by
  unfold State.hookLines
  with_reducible repeat' (first
    | assumption | apply State.writePanic_keeps | apply State.writeMcdCfg_keeps | apply State.writePwrCfg_keeps
    | apply State.writeLptCfg_keeps | apply State.writeLptTx_keeps | apply State.writeSdsCtl_keeps | apply State.writeTxEq_keeps
    | apply State.writeFlkCtl_keeps | apply State.writeHome_keeps | apply State.writeD2dCtl_keeps | apply State.scmd_keeps | apply KM.ite
    | apply KM.some | apply KM.none | dsimp only | split)

theorem State.hook_keeps {s0 : State} {x1 : State} (x2 : Sys2Proof.Machine.Path) (x3 : Nat) (x4 : Nat) (x5 : Nat) (x6 : Nat) (hx1 : Keeps s0 x1) :
    KM s0 (State.hook x1 x2 x3 x4 x5 x6) := by
  unfold State.hook
  with_reducible repeat' (first
    | assumption | apply State.hookIsland_keeps | apply State.hookFd_keeps | apply State.hookQueues_keeps | apply State.hookLines_keeps
    | apply KM.ite)

theorem State.afterWrite_keeps {s0 : State} {x1 : State} (x2 : Nat) (hx1 : Keeps s0 x1) :
    Keeps s0 (State.afterWrite x1 x2) := by
  unfold State.afterWrite
  with_reducible repeat' (first
    | assumption | apply State.leadGates_keeps | apply State.settle_keeps | apply State.rebalance_keeps | apply State.useIndex_keeps
    | apply Keeps.ite | refine Keeps.foldl ?_ _ ?_)

theorem State.storeFields_keeps {s0 : State} {x1 : State} (x2 : Sys2Proof.Machine.Path) (x3 : Nat) (x4 : Nat) (x5 : List Sys2Proof.Machine.FldAcc) (hx1 : Keeps s0 x1) :
    Keeps s0 (State.storeFields x1 x2 x3 x4 x5) := by
  unfold State.storeFields
  with_reducible repeat' (first
    | assumption | apply State.wr_keeps | apply Keeps.ite | refine Keeps.foldl ?_ _ ?_ | (intro _; intros) | dsimp only | split)

theorem State.writeWord_keeps {s0 : State} {x1 : State} (x2 : Sys2Proof.Machine.Path) (x3 : Nat) (x4 : Nat) (x5 : Nat) (hx1 : Keeps s0 x1) :
    Keeps s0 (State.writeWord x1 x2 x3 x4 x5) := by
  unfold State.writeWord
  with_reducible repeat' (first
    | assumption | apply State.writeMsix_keeps | apply State.clearOnes_keeps | apply State.hook_keeps | apply State.afterWrite_keeps
    | apply State.storeFields_keeps | apply Keeps.ite | refine Keeps.ofSome ?_ (by assumption) | dsimp only | split)

theorem State.regWrite_keeps {s0 : State} {x1 : State} (x2 : Sys2Proof.Machine.Path) (x3 : Nat) (x4 : Nat) (x5 : Nat) (hx1 : Keeps s0 x1) :
    Keeps s0 (State.regWrite x1 x2 x3 x4 x5) := by
  unfold State.regWrite
  with_reducible repeat' (first
    | assumption | apply State.noteCmd_keeps | apply State.writeWord_keeps | split)

theorem State.sealViolation_keeps {s0 : State} {x1 : State} (x2 : Nat) (hx1 : Keeps s0 x1) :
    Keeps s0 (State.sealViolation x1 x2) := by
  unfold State.sealViolation
  with_reducible repeat' (first
    | assumption | apply State.inc_keeps | apply State.wr_keeps | apply Keeps.ite)

theorem State.deliverWrite_keeps {s0 : State} {x1 : State} (x2 : Sys2Proof.Machine.Path) (x3 : Nat) (x4 : Nat) (x5 : Nat) (hx1 : Keeps s0 x1) :
    Keeps s0 (State.deliverWrite x1 x2 x3 x4 x5) := by
  unfold State.deliverWrite
  with_reducible repeat' (first
    | assumption | apply State.sbSend_keeps | apply State.fdAccess_keeps | apply State.regWrite_keeps | apply Keeps.ite
    | (intro _; intros))

theorem State.bar0Word_keeps {s0 : State} {x1 : State} (x2 : Nat) (x3 : Nat) (hx1 : Keeps s0 x1) :
    Keeps s0 (State.bar0Word x1 x2 x3) := by
  unfold State.bar0Word
  with_reducible repeat' (first
    | assumption | apply State.regWrite_keeps | apply State.inc_keeps | apply State.sealViolation_keeps | apply State.deliverWrite_keeps
    | apply Keeps.ite)

theorem State.bar0Write_keeps {s0 : State} {x1 : State} (x2 : Nat) (x3 : Nat) (x4 : Nat) (hx1 : Keeps s0 x1) :
    Keeps s0 (State.bar0Write x1 x2 x3 x4) := by
  unfold State.bar0Write
  with_reducible repeat' (first
    | assumption | apply State.inc_keeps | apply State.sealViolation_keeps | apply State.bar0Word_keeps | apply Keeps.ite)

theorem execBar0RegisterWrite_keeps {s0 : State} (x1 : Nat) (x2 : Nat) (x3 : Nat) {x4 : State} (hx4 : Keeps s0 x4) :
    KO s0 (execBar0RegisterWrite x1 x2 x3 x4) := by
  unfold execBar0RegisterWrite
  with_reducible repeat' (first
    | assumption | apply State.bar0Write_keeps | apply KO.next)

theorem execPairLowWordRead_keeps {s0 : State} (x1 : Bool) (x2 : Nat) (x3 : Nat) {x4 : State} (hx4 : Keeps s0 x4) :
    KO s0 (execPairLowWordRead x1 x2 x3 x4) := by
  unfold execPairLowWordRead
  with_reducible repeat' (first
    | assumption | apply State.bmcRead_keeps | apply State.bar0ReadN_keeps | apply Keeps.ite | apply KO.next | split)

theorem execPairHighWordRead_keeps {s0 : State} (x1 : Bool) (x2 : Nat) {x3 : State} (hx3 : Keeps s0 x3) :
    KO s0 (execPairHighWordRead x1 x2 x3) := by
  unfold execPairHighWordRead
  with_reducible repeat' (first
    | assumption | apply State.bmcRead_keeps | apply State.bar0ReadN_keeps | apply Keeps.ite | apply KO.next | split)

theorem execRcFieldRead_keeps {s0 : State} (x1 : Nat) {x2 : State} (hx2 : Keeps s0 x2) :
    KO s0 (execRcFieldRead x1 x2) := by
  unfold execRcFieldRead
  with_reducible repeat' (first
    | assumption | apply State.bar0ReadN_keeps | apply Keeps.ite | apply KO.next)

theorem execTslast0Read_keeps {s0 : State} (x1 : Nat) {x2 : State} (hx2 : Keeps s0 x2) :
    KO s0 (execTslast0Read x1 x2) := by
  unfold execTslast0Read
  with_reducible repeat' (first
    | assumption | apply State.bar0ReadN_keeps | apply Keeps.ite | apply KO.next)

theorem execTimNow0Read_keeps {s0 : State} {x1 : State} (hx1 : Keeps s0 x1) :
    KO s0 (execTimNow0Read x1) := by
  unfold execTimNow0Read
  with_reducible repeat' (first
    | assumption | apply State.bar0ReadN_keeps | apply KO.next)

theorem execPpscap0Read_keeps {s0 : State} {x1 : State} (hx1 : Keeps s0 x1) :
    KO s0 (execPpscap0Read x1) := by
  unfold execPpscap0Read
  with_reducible repeat' (first
    | assumption | apply State.bar0ReadN_keeps | apply KO.next)

theorem execPwrStatBmcRead_keeps {s0 : State} {x1 : State} (hx1 : Keeps s0 x1) :
    KO s0 (execPwrStatBmcRead x1) := by
  unfold execPwrStatBmcRead
  with_reducible repeat' (first
    | assumption | apply State.bmcRead_keeps | apply KO.next | fail_if_no_progress refine Keeps.mk' ?_ rfl rfl)

theorem State.poke_keeps {s0 : State} {x1 : State} (x2 : Nat) (x3 : Nat) (hx1 : Keeps s0 x1) :
    Keeps s0 (State.poke x1 x2 x3) := by
  unfold State.poke
  with_reducible repeat' (first
    | assumption | apply State.bar0Write_keeps)

theorem execGenSeal_keeps {s0 : State} (x1 : Nat) {x2 : State} (hx2 : Keeps s0 x2) :
    KO s0 (execGenSeal x1 x2) := by
  unfold execGenSeal
  with_reducible repeat' (first
    | assumption | apply State.poke_keeps | apply KO.next)

theorem State.execTag_keeps {s0 : State} {x1 : State} (x2 : Nat) (x3 : Sys2Proof.Machine.State → Nat × Sys2Proof.Machine.State) (hx1 : Keeps s0 x1) (hx3 : ∀ t0, Keeps s0 t0 → KP s0 (x3 t0)) :
    Keeps s0 (State.execTag x1 x2 x3) := by
  unfold State.execTag
  with_reducible repeat' (first
    | assumption | apply hx3 | apply State.tagDone_keeps | fail_if_no_progress refine Keeps.mk' ?_ rfl rfl | dsimp only | split)

theorem State.perform_keeps {s0 : State} {x1 : State} (x2 : Sys2Proof.Machine.SbMsg) (hx1 : Keeps s0 x1) :
    Keeps s0 (State.perform x1 x2) := by
  unfold State.perform
  with_reducible repeat' (first
    | assumption | apply State.execTag_keeps | apply State.regRead_keeps | apply State.regWrite_keeps | (intro _; intros) | split)

theorem State.answered_keeps {s0 : State} {x1 : State} (x2 : Sys2Proof.Machine.SbMsg) (x3 : Nat) (x4 : Nat) (hx1 : Keeps s0 x1) :
    Keeps s0 (State.answered x1 x2 x3 x4) := by
  unfold State.answered
  with_reducible repeat' (first
    | assumption | apply State.givesPart_keeps | fail_if_no_progress refine Keeps.mk' ?_ rfl rfl | dsimp only | split)

theorem State.paid_keeps {s0 : State} {x1 : State} (x2 : Nat) (hx1 : Keeps s0 x1) :
    Keeps s0 (State.paid x1 x2) := by
  unfold State.paid
  with_reducible repeat' (first
    | assumption | fail_if_no_progress refine Keeps.mk' ?_ rfl rfl)

theorem State.ctlArrive_keeps {s0 : State} {x1 : State} (x2 : Sys2Proof.Machine.CtlMsg) (hx1 : Keeps s0 x1) :
    Keeps s0 (State.ctlArrive x1 x2) := by
  unfold State.ctlArrive
  with_reducible repeat' (first
    | assumption | apply State.perform_keeps | apply State.answered_keeps | apply State.paid_keeps | apply State.ctlNow_keeps
    | apply State.ctlWait_keeps | apply State.fileRec_keeps | apply State.putSample_keeps | apply Keeps.ite | dsimp only | split)

theorem execFlitReceive_keeps {s0 : State} (x1 : Bool) (x2 : Nat) (x3 : Option Nat) {x4 : State} (hx4 : Keeps s0 x4) :
    KO s0 (execFlitReceive x1 x2 x3 x4) := by
  unfold execFlitReceive
  with_reducible repeat' (first
    | assumption | apply State.flitIn_keeps | apply State.ctlArrive_keeps | apply KO.next | refine Keeps.foldl ?_ _ ?_)

theorem State.sbRefill_keeps {s0 : State} {x1 : State} (hx1 : Keeps s0 x1) :
    Keeps s0 (State.sbRefill x1) := by
  unfold State.sbRefill
  with_reducible repeat' (first
    | assumption | apply Keeps.ite | fail_if_no_progress refine Keeps.mk' ?_ rfl rfl | dsimp only | split)

theorem State.sbArrive_keeps {s0 : State} {x1 : State} (x2 : Sys2Proof.Machine.SbMsg) (hx1 : Keeps s0 x1) :
    Keeps s0 (State.sbArrive x1 x2) := by
  unfold State.sbArrive
  with_reducible repeat' (first
    | assumption | apply State.hearBeat_keeps | apply State.wrBit_keeps | apply State.perform_keeps | apply State.answered_keeps
    | dsimp only | split)

theorem execSidebandMessageReceive_keeps {s0 : State} (x1 : Bool) (x2 : Bool) {x3 : State} (hx3 : Keeps s0 x3) :
    KO s0 (execSidebandMessageReceive x1 x2 x3) := by
  unfold execSidebandMessageReceive
  with_reducible repeat' (first
    | assumption | apply State.sbRefill_keeps | apply State.sbArrive_keeps | apply State.hearBeat_keeps | apply Keeps.ite | apply KO.ite
    | apply KO.next | fail_if_no_progress refine Keeps.mk' ?_ rfl rfl | dsimp only | split)

theorem execEngClroleWrite_keeps {s0 : State} (x1 : Nat) (x2 : Nat) {x3 : State} (hx3 : Keeps s0 x3) :
    KO s0 (execEngClroleWrite x1 x2 x3) := by
  unfold execEngClroleWrite
  with_reducible repeat' (first
    | assumption | apply State.poke_keeps | apply Keeps.ite | apply KO.next)

theorem execEngFlipRequest_keeps {s0 : State} (x1 : Nat) {x2 : State} (hx2 : Keeps s0 x2) :
    KO s0 (execEngFlipRequest x1 x2) := by
  unfold execEngFlipRequest
  with_reducible repeat' (first
    | assumption | apply State.poke_keeps | apply Keeps.ite | apply KO.next)

theorem execEngCntclr_keeps {s0 : State} (x1 : Nat) {x2 : State} (hx2 : Keeps s0 x2) :
    KO s0 (execEngCntclr x1 x2) := by
  unfold execEngCntclr
  with_reducible repeat' (first
    | assumption | apply State.poke_keeps | apply Keeps.ite | apply KO.next)

theorem execBrgEnableWrite_keeps {s0 : State} (x1 : Nat) {x2 : State} (hx2 : Keeps s0 x2) :
    KO s0 (execBrgEnableWrite x1 x2) := by
  unfold execBrgEnableWrite
  with_reducible repeat' (first
    | assumption | apply State.poke_keeps | apply KO.next)

theorem execAgePeriodWrite_keeps {s0 : State} (x1 : Nat) {x2 : State} (hx2 : Keeps s0 x2) :
    KO s0 (execAgePeriodWrite x1 x2) := by
  unfold execAgePeriodWrite
  with_reducible repeat' (first
    | assumption | apply State.poke_keeps | apply KO.next)

theorem execXfibEnable_keeps {s0 : State} {x1 : State} (hx1 : Keeps s0 x1) :
    KO s0 (execXfibEnable x1) := by
  unfold execXfibEnable
  with_reducible repeat' (first
    | assumption | apply State.poke_keeps | apply KO.next)

theorem execXfibDisable_keeps {s0 : State} {x1 : State} (hx1 : Keeps s0 x1) :
    KO s0 (execXfibDisable x1) := by
  unfold execXfibDisable
  with_reducible repeat' (first
    | assumption | apply State.poke_keeps | apply KO.next)

theorem execHotUnitsWrite_keeps {s0 : State} (x1 : Nat) {x2 : State} (hx2 : Keeps s0 x2) :
    KO s0 (execHotUnitsWrite x1 x2) := by
  unfold execHotUnitsWrite
  with_reducible repeat' (first
    | assumption | apply State.poke_keeps | apply KO.next)

theorem execEmTableEnable_keeps {s0 : State} (x1 : Nat) (x2 : Nat) {x3 : State} (hx3 : Keeps s0 x3) :
    KO s0 (execEmTableEnable x1 x2 x3) := by
  unfold execEmTableEnable
  with_reducible repeat' (first
    | assumption | apply State.poke_keeps | apply Keeps.ite | apply KO.next)

theorem execEmTableDisable_keeps {s0 : State} (x1 : Nat) (x2 : Nat) {x3 : State} (hx3 : Keeps s0 x3) :
    KO s0 (execEmTableDisable x1 x2 x3) := by
  unfold execEmTableDisable
  with_reducible repeat' (first
    | assumption | apply State.poke_keeps | apply Keeps.ite | apply KO.next)

theorem execBufferEnableWrite_keeps {s0 : State} (x1 : Nat) {x2 : State} (hx2 : Keeps s0 x2) :
    KO s0 (execBufferEnableWrite x1 x2) := by
  unfold execBufferEnableWrite
  with_reducible repeat' (first
    | assumption | apply State.poke_keeps | apply KO.next)

theorem execReserveEnableWrite_keeps {s0 : State} (x1 : Nat) {x2 : State} (hx2 : Keeps s0 x2) :
    KO s0 (execReserveEnableWrite x1 x2) := by
  unfold execReserveEnableWrite
  with_reducible repeat' (first
    | assumption | apply State.poke_keeps | apply KO.next)

theorem execLinkDrain_keeps {s0 : State} (x1 : Nat) {x2 : State} (hx2 : Keeps s0 x2) :
    KO s0 (execLinkDrain x1 x2) := by
  unfold execLinkDrain
  with_reducible repeat' (first
    | assumption | apply State.poke_keeps | apply Keeps.ite | apply KO.next)

theorem execLinkRestore_keeps {s0 : State} (x1 : Nat) {x2 : State} (hx2 : Keeps s0 x2) :
    KO s0 (execLinkRestore x1 x2) := by
  unfold execLinkRestore
  with_reducible repeat' (first
    | assumption | apply State.poke_keeps | apply Keeps.ite | apply KO.next)

theorem execQmTcmdWrite_keeps {s0 : State} {x1 : State} (hx1 : Keeps s0 x1) :
    KO s0 (execQmTcmdWrite x1) := by
  unfold execQmTcmdWrite
  with_reducible repeat' (first
    | assumption | apply State.poke_keeps | apply KO.next)

theorem execQmTcmdRead_keeps {s0 : State} {x1 : State} (hx1 : Keeps s0 x1) :
    KO s0 (execQmTcmdRead x1) := by
  unfold execQmTcmdRead
  with_reducible repeat' (first
    | assumption | apply State.poke_keeps | apply KO.next)

theorem execSchNodeWrite_keeps {s0 : State} {x1 : State} (hx1 : Keeps s0 x1) :
    KO s0 (execSchNodeWrite x1) := by
  unfold execSchNodeWrite
  with_reducible repeat' (first
    | assumption | apply State.poke_keeps | apply KO.next)

theorem execSchNodeRead_keeps {s0 : State} {x1 : State} (hx1 : Keeps s0 x1) :
    KO s0 (execSchNodeRead x1) := by
  unfold execSchNodeRead
  with_reducible repeat' (first
    | assumption | apply State.poke_keeps | apply KO.next)

theorem execPolicerWrite_keeps {s0 : State} {x1 : State} (hx1 : Keeps s0 x1) :
    KO s0 (execPolicerWrite x1) := by
  unfold execPolicerWrite
  with_reducible repeat' (first
    | assumption | apply State.poke_keeps | apply KO.next)

theorem execPolicerRead_keeps {s0 : State} {x1 : State} (hx1 : Keeps s0 x1) :
    KO s0 (execPolicerRead x1) := by
  unfold execPolicerRead
  with_reducible repeat' (first
    | assumption | apply State.poke_keeps | apply KO.next)

theorem execTgActivate_keeps {s0 : State} (x1 : Nat) {x2 : State} (hx2 : Keeps s0 x2) :
    KO s0 (execTgActivate x1 x2) := by
  unfold execTgActivate
  with_reducible repeat' (first
    | assumption | apply State.poke_keeps | apply Keeps.ite | apply KO.next)

theorem execTgCancel_keeps {s0 : State} (x1 : Nat) {x2 : State} (hx2 : Keeps s0 x2) :
    KO s0 (execTgCancel x1 x2) := by
  unfold execTgCancel
  with_reducible repeat' (first
    | assumption | apply State.poke_keeps | apply Keeps.ite | apply KO.next)

theorem execTgDisable_keeps {s0 : State} (x1 : Nat) {x2 : State} (hx2 : Keeps s0 x2) :
    KO s0 (execTgDisable x1 x2) := by
  unfold execTgDisable
  with_reducible repeat' (first
    | assumption | apply State.poke_keeps | apply Keeps.ite | apply KO.next)

theorem execTgEntryWrite_keeps {s0 : State} (x1 : Nat) {x2 : State} (hx2 : Keeps s0 x2) :
    KO s0 (execTgEntryWrite x1 x2) := by
  unfold execTgEntryWrite
  with_reducible repeat' (first
    | assumption | apply State.poke_keeps | apply Keeps.ite | apply KO.next)

theorem execTgEntryRead_keeps {s0 : State} (x1 : Nat) {x2 : State} (hx2 : Keeps s0 x2) :
    KO s0 (execTgEntryRead x1 x2) := by
  unfold execTgEntryRead
  with_reducible repeat' (first
    | assumption | apply State.poke_keeps | apply Keeps.ite | apply KO.next)

theorem execRctlStart_keeps {s0 : State} {x1 : State} (hx1 : Keeps s0 x1) :
    KO s0 (execRctlStart x1) := by
  unfold execRctlStart
  with_reducible repeat' (first
    | assumption | apply State.poke_keeps | apply KO.next)

theorem execRctlStop_keeps {s0 : State} {x1 : State} (hx1 : Keeps s0 x1) :
    KO s0 (execRctlStop x1) := by
  unfold execRctlStop
  with_reducible repeat' (first
    | assumption | apply State.poke_keeps | apply KO.next)

theorem execRctlInvalidate_keeps {s0 : State} {x1 : State} (hx1 : Keeps s0 x1) :
    KO s0 (execRctlInvalidate x1) := by
  unfold execRctlInvalidate
  with_reducible repeat' (first
    | assumption | apply State.poke_keeps | apply KO.next)

theorem execMcdRoleWrite_keeps {s0 : State} (x1 : Nat) (x2 : Nat) {x3 : State} (hx3 : Keeps s0 x3) :
    KO s0 (execMcdRoleWrite x1 x2 x3) := by
  unfold execMcdRoleWrite
  with_reducible repeat' (first
    | assumption | apply State.poke_keeps | apply Keeps.ite | apply KO.next)

theorem execPortEnable_keeps {s0 : State} (x1 : Nat) (x2 : Nat) {x3 : State} (hx3 : Keeps s0 x3) :
    KO s0 (execPortEnable x1 x2 x3) := by
  unfold execPortEnable
  with_reducible repeat' (first
    | assumption | apply State.poke_keeps | apply Keeps.ite | apply KO.next)

theorem execPortDisable_keeps {s0 : State} (x1 : Nat) (x2 : Nat) {x3 : State} (hx3 : Keeps s0 x3) :
    KO s0 (execPortDisable x1 x2 x3) := by
  unfold execPortDisable
  with_reducible repeat' (first
    | assumption | apply State.poke_keeps | apply Keeps.ite | apply KO.next)

theorem execLaneStateRequest_keeps {s0 : State} (x1 : Nat) (x2 : Nat) (x3 : Nat) {x4 : State} (hx4 : Keeps s0 x4) :
    KO s0 (execLaneStateRequest x1 x2 x3 x4) := by
  unfold execLaneStateRequest
  with_reducible repeat' (first
    | assumption | apply State.addSat_keeps | apply State.poke_keeps | apply Keeps.ite | apply KO.ite | apply KO.next)

theorem execLinkEnable_keeps {s0 : State} (x1 : Nat) (x2 : Nat) {x3 : State} (hx3 : Keeps s0 x3) :
    KO s0 (execLinkEnable x1 x2 x3) := by
  unfold execLinkEnable
  with_reducible repeat' (first
    | assumption | apply State.poke_keeps | apply Keeps.ite | apply KO.next)

theorem execLinkDisable_keeps {s0 : State} (x1 : Nat) (x2 : Nat) {x3 : State} (hx3 : Keeps s0 x3) :
    KO s0 (execLinkDisable x1 x2 x3) := by
  unfold execLinkDisable
  with_reducible repeat' (first
    | assumption | apply State.poke_keeps | apply Keeps.ite | apply KO.next)

theorem execLinkStandby_keeps {s0 : State} (x1 : Nat) (x2 : Bool) {x3 : State} (hx3 : Keeps s0 x3) :
    KO s0 (execLinkStandby x1 x2 x3) := by
  unfold execLinkStandby
  with_reducible repeat' (first
    | assumption | apply State.poke_keeps | apply Keeps.ite | apply KO.next)

theorem execD2dRetrain_keeps {s0 : State} (x1 : Nat) {x2 : State} (hx2 : Keeps s0 x2) :
    KO s0 (execD2dRetrain x1 x2) := by
  unfold execD2dRetrain
  with_reducible repeat' (first
    | assumption | apply State.poke_keeps | apply KO.next)

theorem execResetArm_keeps {s0 : State} {x1 : State} (hx1 : Keeps s0 x1) :
    KO s0 (execResetArm x1) := by
  unfold execResetArm
  with_reducible repeat' (first
    | assumption | apply State.poke_keeps | apply KO.next)

theorem execColdResetRequest_keeps {s0 : State} {x1 : State} (hx1 : Keeps s0 x1) :
    KO s0 (execColdResetRequest x1) := by
  unfold execColdResetRequest
  with_reducible repeat' (first
    | assumption | apply State.poke_keeps | apply KO.next)

theorem execWarmResetRequest_keeps {s0 : State} {x1 : State} (hx1 : Keeps s0 x1) :
    KO s0 (execWarmResetRequest x1) := by
  unfold execWarmResetRequest
  with_reducible repeat' (first
    | assumption | apply State.poke_keeps | apply KO.next)

theorem execTimeStep_keeps {s0 : State} {x1 : State} (hx1 : Keeps s0 x1) :
    KO s0 (execTimeStep x1) := by
  unfold execTimeStep
  with_reducible repeat' (first
    | assumption | apply State.poke_keeps | apply KO.next)

theorem execTimeOffset_keeps {s0 : State} {x1 : State} (hx1 : Keeps s0 x1) :
    KO s0 (execTimeOffset x1) := by
  unfold execTimeOffset
  with_reducible repeat' (first
    | assumption | apply State.poke_keeps | apply KO.next)

theorem execTimFreqWrite_keeps {s0 : State} (x1 : Nat) {x2 : State} (hx2 : Keeps s0 x2) :
    KO s0 (execTimFreqWrite x1 x2) := by
  unfold execTimFreqWrite
  with_reducible repeat' (first
    | assumption | apply State.poke_keeps | apply KO.next)

theorem execSegmentHomeWrite_keeps {s0 : State} (x1 : Nat) (x2 : Nat) {x3 : State} (hx3 : Keeps s0 x3) :
    KO s0 (execSegmentHomeWrite x1 x2 x3) := by
  unfold execSegmentHomeWrite
  with_reducible repeat' (first
    | assumption | apply State.poke_keeps | apply Keeps.ite | apply KO.next)

theorem execTelSessionWrite_keeps {s0 : State} {x1 : State} (hx1 : Keeps s0 x1) :
    KO s0 (execTelSessionWrite x1) := by
  unfold execTelSessionWrite
  with_reducible repeat' (first
    | assumption | apply State.poke_keeps | apply KO.next)

theorem execTelSessionRead_keeps {s0 : State} {x1 : State} (hx1 : Keeps s0 x1) :
    KO s0 (execTelSessionRead x1) := by
  unfold execTelSessionRead
  with_reducible repeat' (first
    | assumption | apply State.poke_keeps | apply KO.next)

end Sys2Proof.Machine
end

