-- ==== Sys2Proof/Laws/KeepsOps.lean ====
section
/-! SUPPORT. That each operation keeps what `Keeps` says: the descriptors' operations, power and the recovery window. -/
namespace Sys2Proof.Machine

theorem State.cancelTag_keeps {s0 : State} {x1 : State} (x2 : Nat) (hx1 : Keeps s0 x1) :
    Keeps s0 (State.cancelTag x1 x2) := by
  unfold State.cancelTag
  with_reducible repeat' (first
    | assumption | fail_if_no_progress refine Keeps.mk' ?_ rfl rfl)

theorem State.injectDrop_keeps {s0 : State} {x1 : State} (x2 : Nat) (hx1 : Keeps s0 x1) :
    Keeps s0 (State.injectDrop x1 x2) := by
  unfold State.injectDrop
  with_reducible repeat' (first
    | assumption | apply State.setDispQ_keeps | apply State.freeChain_keeps | apply Keeps.ite | refine Keeps.foldl ?_ _ ?_
    | (intro _; intros) | fail_if_no_progress refine Keeps.mk' ?_ rfl rfl)

theorem State.abandon_keeps {s0 : State} {x1 : State} (x2 : Nat) (x3 : Sys2Proof.Machine.Taken) (hx1 : Keeps s0 x1) :
    Keeps s0 (State.abandon x1 x2 x3) := by
  unfold State.abandon
  with_reducible repeat' (first
    | assumption | apply State.wr_keeps | apply State.updTaken_keeps | apply State.cancelTag_keeps | apply State.injectDrop_keeps
    | apply Keeps.ite)

theorem execDescNoProgress_keeps {s0 : State} (x1 : Nat) {x2 : State} (hx2 : Keeps s0 x2) :
    KO s0 (execDescNoProgress x1 x2) := by
  unfold execDescNoProgress
  with_reducible repeat' (first
    | assumption | apply State.abandon_keeps | apply State.finishTok_keeps | apply State.post_keeps | apply KO.ite | apply KO.next
    | dsimp only | split)

theorem execPuntWrite_keeps {s0 : State} (x1 : Nat) {x2 : State} (hx2 : Keeps s0 x2) :
    KO s0 (execPuntWrite x1 x2) := by
  unfold execPuntWrite
  with_reducible repeat' (first
    | assumption | apply State.dmaWrite_keeps | apply State.setRing_keeps | apply State.release_keeps | apply State.writeCpl_keeps
    | apply KO.ite | apply KO.next | fail_if_no_progress refine Keeps.mk' ?_ rfl rfl | dsimp only | split)

theorem State.cmdTaken_keeps {s0 : State} {x1 : State} (x2 : Nat) (hx1 : Keeps s0 x1) :
    Keeps s0 (State.cmdTaken x1 x2) := by
  unfold State.cmdTaken
  with_reducible repeat' (first
    | assumption | apply State.updTaken_keeps | fail_if_no_progress refine Keeps.mk' ?_ rfl rfl)

theorem State.cmdAccess_keeps {s0 : State} {x1 : State} (x2 : Nat) (x3 : Nat) (x4 : Nat → Sys2Proof.Machine.SbMsg) (x5 : Sys2Proof.Machine.State → Nat × Sys2Proof.Machine.State) (hx1 : Keeps s0 x1) (hx5 : ∀ t0, Keeps s0 t0 → KP s0 (x5 t0)) :
    KP s0 (State.cmdAccess x1 x2 x3 x4 x5) := by
  unfold State.cmdAccess
  with_reducible repeat' (first
    | assumption | apply State.updTaken_keeps | apply State.sbSend_keeps | apply State.fdAccess_keeps | apply KP.ite
    | refine Keeps.ofPair ?_ (by assumption) | dsimp only | split)

theorem execRegWrite_keeps {s0 : State} {x1 : State} (hx1 : Keeps s0 x1) :
    KO s0 (execRegWrite x1) := by
  unfold execRegWrite
  with_reducible repeat' (first
    | assumption | apply State.finDone_keeps | apply State.cmdTaken_keeps | apply State.finRefused_keeps | apply State.finBusy_keeps
    | apply State.cmdAccess_keeps | apply State.regWrite_keeps | apply KO.ite | apply KO.next | (intro _; intros)
    | refine Keeps.ofPair ?_ (by assumption) | dsimp only | split)

theorem execRegRead_keeps {s0 : State} {x1 : State} (hx1 : Keeps s0 x1) :
    KO s0 (execRegRead x1) := by
  unfold execRegRead
  with_reducible repeat' (first
    | assumption | apply State.finData_keeps | apply State.seatInput_keeps | apply State.cmdTaken_keeps | apply State.finBusy_keeps
    | apply State.cmdAccess_keeps | apply State.regRead_keeps | apply KO.ite | apply KO.next | (intro _; intros)
    | refine Keeps.ofPair ?_ (by assumption) | dsimp only | split)

theorem State.regStep_keeps {s0 : State} {x1 : State} (x2 : Nat) (x3 : Nat) (hx1 : Keeps s0 x1) :
    KP s0 (State.regStep x1 x2 x3) := by
  unfold State.regStep
  with_reducible repeat' (first
    | assumption | apply State.stepEntry_keeps | apply State.finish_keeps | apply State.endByStop_keeps | apply KP.ite | dsimp only
    | split)

theorem regRun_keeps {s0 : State} (x1 : Nat) (x2 : Nat) (x3 : Nat) (x4 : Nat) {x5 : State} (hx5 : Keeps s0 x5) :
    Keeps s0 (regRun x1 x2 x3 x4 x5) := by
  induction x4 generalizing x5 with
  | zero => unfold regRun; with_reducible repeat' (first
    | assumption)
  | succ n ih =>
    unfold regRun
    with_reducible repeat' (first
    | assumption | apply ih | apply State.finishTok_keeps | apply State.regStep_keeps | apply State.cmdTaken_keeps
    | apply State.finish_keeps | apply State.cmdAccess_keeps | apply State.regWrite_keeps | apply Keeps.ite | (intro _; intros)
    | refine Keeps.ofPair ?_ (by assumption) | dsimp only | split)

theorem execRegBulk_keeps {s0 : State} (x1 : Nat) {x2 : State} (hx2 : Keeps s0 x2) :
    KO s0 (execRegBulk x1 x2) := by
  unfold execRegBulk
  with_reducible repeat' (first
    | assumption | apply regRun_keeps | apply Keeps.ite | apply KO.next | split)

theorem State.engLoaded_keeps {s0 : State} {x1 : State} (x2 : Nat) (x3 : Nat) (x4 : Nat) (x5 : Nat) (hx1 : Keeps s0 x1) :
    Keeps s0 (State.engLoaded x1 x2 x3 x4 x5) := by
  unfold State.engLoaded
  with_reducible repeat' (first
    | assumption | apply State.wr_keeps | apply State.finRefused_keeps | apply State.finish_keeps | apply Keeps.ite
    | fail_if_no_progress refine Keeps.mk' ?_ rfl rfl)

theorem loadRun_keeps {s0 : State} (x1 : Nat) (x2 : Nat) (x3 : Nat) (x4 : Nat) (x5 : Nat) (x6 : Nat) {x7 : State} (hx7 : Keeps s0 x7) :
    Keeps s0 (loadRun x1 x2 x3 x4 x5 x6 x7) := by
  induction x6 generalizing x7 with
  | zero => unfold loadRun; with_reducible repeat' (first
    | assumption)
  | succ n ih =>
    unfold loadRun
    with_reducible repeat' (first
    | assumption | apply ih | apply State.cmdCross_keeps | apply State.stepEntry_keeps | apply State.engLoaded_keeps | apply Keeps.ite
    | fail_if_no_progress refine Keeps.mk' ?_ rfl rfl | dsimp only | split)

theorem execEngLoad_keeps {s0 : State} (x1 : Nat) {x2 : State} (hx2 : Keeps s0 x2) :
    KO s0 (execEngLoad x1 x2) := by
  unfold execEngLoad
  with_reducible repeat' (first
    | assumption | apply State.fdBulk_keeps | apply State.finRefused_keeps | apply State.finBusy_keeps | apply State.abandonTest_keeps
    | apply State.loadBank_keeps | apply State.updTaken_keeps | apply State.engLoaded_keeps | apply loadRun_keeps | apply Keeps.ite
    | apply KO.next | (intro _; intros) | fail_if_no_progress refine Keeps.mk' ?_ rfl rfl)

theorem execEngFlip_keeps {s0 : State} {x1 : State} (hx1 : Keeps s0 x1) :
    KO s0 (execEngFlip x1) := by
  unfold execEngFlip
  with_reducible repeat' (first
    | assumption | apply State.fdOp_keeps | apply State.finRefused_keeps | apply State.finBusy_keeps | apply State.finDone_keeps
    | apply State.askFlip_keeps | apply Keeps.ite | apply KO.next | (intro _; intros))

theorem execPdataWrite_keeps {s0 : State} (x1 : Nat) {x2 : State} (hx2 : Keeps s0 x2) :
    KO s0 (execPdataWrite x1 x2) := by
  unfold execPdataWrite
  with_reducible repeat' (first
    | assumption | apply State.fdBulk_keeps | apply State.finRefused_keeps | apply bulkRun_keeps | apply crossing_keeps
    | apply State.setPdata_keeps | apply KE.go | apply Keeps.ite | apply KO.next | refine Keeps.foldl ?_ _ ?_ | (intro _; intros))

theorem execPdataRead_keeps {s0 : State} (x1 : Nat) {x2 : State} (hx2 : Keeps s0 x2) :
    KO s0 (execPdataRead x1 x2) := by
  unfold execPdataRead
  with_reducible repeat' (first
    | assumption | apply State.fdBulk_keeps | apply State.finRefused_keeps | apply bulkRun_keeps | apply crossing_keeps
    | apply State.dmaWrite_keeps | apply KE.go | apply Keeps.ite | apply KO.next | (intro _; intros))

theorem State.viaInd_keeps {s0 : State} {x1 : State} (x2 : Nat) (x3 : Sys2Proof.Machine.Taken) (x4 : Sys2Proof.Machine.State → Sys2Proof.Machine.State) (hx1 : Keeps s0 x1) (hx4 : ∀ t0, Keeps s0 t0 → Keeps s0 (x4 t0)) :
    Keeps s0 (State.viaInd x1 x2 x3 x4) := by
  unfold State.viaInd
  with_reducible repeat' (first
    | assumption | apply hx4 | apply State.finBusy_keeps | apply State.finishTok_keeps | apply State.viaFd_keeps | apply Keeps.ite)

theorem State.indWrite_keeps {s0 : State} {x1 : State} (x2 : Nat) (x3 : Nat) (x4 : List Nat) (hx1 : Keeps s0 x1) :
    KP s0 (State.indWrite x1 x2 x3 x4) := by
  unfold State.indWrite
  with_reducible repeat' (first
    | assumption | apply State.writeEnt_keeps | apply State.writeNode_keeps | apply State.writePolicer_keeps
    | apply State.putGateEntry_keeps | apply KP.ite)

theorem execIndWrite_keeps {s0 : State} {x1 : State} (hx1 : Keeps s0 x1) :
    KO s0 (execIndWrite x1) := by
  unfold execIndWrite
  with_reducible repeat' (first
    | assumption | apply State.viaInd_keeps | apply State.indWrite_keeps | apply State.finWith_keeps | apply KO.next | (intro _; intros)
    | dsimp only | split)

theorem execIndRead_keeps {s0 : State} {x1 : State} (hx1 : Keeps s0 x1) :
    KO s0 (execIndRead x1) := by
  unfold execIndRead
  with_reducible repeat' (first
    | assumption | apply State.viaInd_keeps | apply State.finRefused_keeps | apply State.finData_keeps | apply KO.next | (intro _; intros)
    | split)

theorem execIndBulk_keeps {s0 : State} (x1 : Nat) {x2 : State} (hx2 : Keeps s0 x2) :
    KO s0 (execIndBulk x1 x2) := by
  unfold execIndBulk
  with_reducible repeat' (first
    | assumption | apply State.viaInd_keeps | apply bulkRun_keeps | apply State.indWrite_keeps | apply KE.go | apply KE.stop
    | apply KE.ite | apply Keeps.ite | apply KO.next | (intro _; intros) | refine Keeps.ofPair ?_ (by assumption) | dsimp only | split)

theorem execQueueFlush_keeps {s0 : State} {x1 : State} (hx1 : Keeps s0 x1) :
    KO s0 (execQueueFlush x1) := by
  unfold execQueueFlush
  with_reducible repeat' (first
    | assumption | apply State.finDone_keeps | apply State.flush_keeps | apply State.finRefused_keeps | apply KO.ite | apply KO.next
    | dsimp only | split)

theorem execCntRead_keeps {s0 : State} (x1 : Nat) (x2 : List Nat) {x3 : State} (hx3 : Keeps s0 x3) :
    KO s0 (execCntRead x1 x2 x3) := by
  unfold execCntRead
  with_reducible repeat' (first
    | assumption | apply State.finRefused_keeps | apply bulkRun_keeps | apply State.poisoned_keeps | apply State.dmaWrite_keeps
    | apply State.cntClear_keeps | apply KE.go | apply Keeps.ite | apply KO.ite | apply KO.next | (intro _; intros) | dsimp only | split)

theorem State.injectNow_keeps {s0 : State} {x1 : State} (x2 : Nat) (x3 : Nat) (hx1 : Keeps s0 x1) :
    KP s0 (State.injectNow x1 x2 x3) := by
  unfold State.injectNow
  with_reducible repeat' (first
    | assumption | apply State.takeFrom_keeps | apply KP.ite | dsimp only | split)

theorem execInjectEgress_keeps {s0 : State} (x1 : Nat) {x2 : State} (hx2 : Keeps s0 x2) :
    KO s0 (execInjectEgress x1 x2) := by
  unfold execInjectEgress
  with_reducible repeat' (first
    | assumption | apply State.injectNow_keeps | apply State.finRefused_keeps | apply State.allocTurn_keeps | apply State.accept_keeps
    | apply State.updTaken_keeps | apply KO.ite | apply KO.next | fail_if_no_progress refine Keeps.mk' ?_ rfl rfl
    | refine Keeps.ofPair ?_ (by assumption) | refine Keeps.ofSome ?_ (by assumption) | dsimp only | split)

theorem execInjectIngress_keeps {s0 : State} (x1 : Nat) {x2 : State} (hx2 : Keeps s0 x2) :
    KO s0 (execInjectIngress x1 x2) := by
  unfold execInjectIngress
  with_reducible repeat' (first
    | assumption | apply State.injectNow_keeps | apply State.finRefused_keeps | apply State.orderEnter_keeps | apply State.updTaken_keeps
    | apply State.setDispQ_keeps | apply KO.ite | apply KO.next | refine Keeps.ofPair ?_ (by assumption) | dsimp only | split)

theorem execPuntBuf_keeps {s0 : State} (x1 : Nat) {x2 : State} (hx2 : Keeps s0 x2) :
    KO s0 (execPuntBuf x1 x2) := by
  unfold execPuntBuf
  with_reducible repeat' (first
    | assumption | apply State.takeFrom_keeps | apply State.finRefused_keeps | apply State.setRing_keeps | apply KO.ite | apply KO.next
    | dsimp only | split)

theorem State.setSteps_keeps {s0 : State} {x1 : State} (x2 : Nat) (x3 : Nat) (hx1 : Keeps s0 x1) :
    Keeps s0 (State.setSteps x1 x2 x3) := by
  unfold State.setSteps
  with_reducible repeat' (first
    | assumption | apply State.putRec_keeps | apply State.wr_keeps)

theorem State.avsJudge_keeps {s0 : State} {x1 : State} (x2 : Nat) (x3 : Int) (x4 : Bool) (hx1 : Keeps s0 x1) :
    Keeps s0 (State.avsJudge x1 x2 x3 x4) := by
  unfold State.avsJudge
  with_reducible repeat' (first
    | assumption | apply State.avsSend_keeps | apply State.setSteps_keeps | apply State.post_keeps | apply Keeps.ite
    | fail_if_no_progress refine Keeps.mk' ?_ rfl rfl)

theorem execAvsMarginCheck_keeps {s0 : State} (x1 : Nat) (x2 : Nat) (x3 : Bool) (x4 : Bool) {x5 : State} (hx5 : Keeps s0 x5) :
    KO s0 (execAvsMarginCheck x1 x2 x3 x4 x5) := by
  unfold execAvsMarginCheck
  with_reducible repeat' (first
    | assumption | apply State.wr_keeps | apply State.avsJudge_keeps | apply KO.ite | apply KO.next
    | fail_if_no_progress refine Keeps.mk' ?_ rfl rfl)

theorem State.keepStress_keeps {s0 : State} {x1 : State} (hx1 : Keeps s0 x1) :
    Keeps s0 (State.keepStress x1) := by
  unfold State.keepStress
  with_reducible repeat' (first
    | assumption | apply State.putRec_keeps)

theorem execStressSample_keeps {s0 : State} {x1 : State} (hx1 : Keeps s0 x1) :
    KO s0 (execStressSample x1) := by
  unfold execStressSample
  with_reducible repeat' (first
    | assumption | apply State.addSat_keeps | apply State.wr_keeps | apply State.keepStress_keeps | apply Keeps.ite | apply KO.ite
    | apply KO.next | fail_if_no_progress refine Keeps.mk' ?_ rfl rfl)

theorem execThermalSample_keeps {s0 : State} (x1 : List Int) {x2 : State} (hx2 : Keeps s0 x2) :
    KO s0 (execThermalSample x1 x2) := by
  unfold execThermalSample
  with_reducible repeat' (first
    | assumption | apply State.wr_keeps | apply State.post_keeps | apply State.inc_keeps | apply KO.ite | apply KO.next
    | refine Keeps.foldl ?_ _ ?_ | (intro _; intros) | fail_if_no_progress refine Keeps.mk' ?_ rfl rfl)

theorem execThermtrip_keeps {s0 : State} (x1 : Nat) (x2 : Nat) {x3 : State} (hx3 : Keeps s0 x3) :
    KO s0 (execThermtrip x1 x2 x3) := by
  unfold execThermtrip
  with_reducible repeat' (first
    | assumption | apply State.railsDown_keeps | apply State.diesReset_keeps | apply KO.ite | apply KO.next
    | fail_if_no_progress refine Keeps.mk' ?_ rfl rfl)

theorem execRailSample_keeps {s0 : State} (x1 : Nat) (x2 : Nat) {x3 : State} (hx3 : Keeps s0 x3) :
    KO s0 (execRailSample x1 x2 x3) := by
  unfold execRailSample
  with_reducible repeat' (first
    | assumption | apply State.wr_keeps | apply State.postRated_keeps | apply State.inc_keeps | apply Keeps.ite | apply KO.ite
    | apply KO.next | fail_if_no_progress refine Keeps.mk' ?_ rfl rfl)

theorem execAvsRetry_keeps {s0 : State} (x1 : Bool) (x2 : Bool) {x3 : State} (hx3 : Keeps s0 x3) :
    KO s0 (execAvsRetry x1 x2 x3) := by
  unfold execAvsRetry
  with_reducible repeat' (first
    | assumption | apply State.avsSend_keeps | apply Keeps.ite | apply KO.ite | apply KO.next)

theorem execChkJob_keeps {s0 : State} {x1 : State} (hx1 : Keeps s0 x1) :
    KO s0 (execChkJob x1) := by
  unfold execChkJob
  with_reducible repeat' (first
    | assumption | apply State.finRefused_keeps | apply State.finBusy_keeps | apply State.inc_keeps | apply State.updTaken_keeps
    | apply State.wr_keeps | apply State.finData_keeps | apply KO.ite | apply KO.next | dsimp only | split)

theorem State.window_keeps {s0 : State} {x1 : State} (x2 : Nat) (x3 : List Nat) (hx1 : Keeps s0 x1) :
    Keeps s0 (State.window x1 x2 x3) := by
  unfold State.window
  with_reducible repeat' (first
    | assumption | apply State.wr_keeps | fail_if_no_progress refine Keeps.mk' ?_ rfl rfl)

theorem State.rstatFail_keeps {s0 : State} {x1 : State} (x2 : Nat) (hx1 : Keeps s0 x1) :
    Keeps s0 (State.rstatFail x1 x2) := by
  unfold State.rstatFail
  with_reducible repeat' (first
    | assumption | apply State.wr_keeps)

theorem execRecoveryStart_keeps {s0 : State} (x1 : List Nat) (x2 : Bool) {x3 : State} (hx3 : Keeps s0 x3) :
    KO s0 (execRecoveryStart x1 x2 x3) := by
  unfold execRecoveryStart
  with_reducible repeat' (first
    | assumption | apply State.window_keeps | apply State.rstatFail_keeps | apply State.inc_keeps | apply State.wr_keeps
    | apply State.openSession_keeps | apply KO.ite | apply KO.next)

theorem execRecoveryWrite_keeps {s0 : State} (x1 : Nat) (x2 : Nat) (x3 : List Nat) (x4 : Bool) {x5 : State} (hx5 : Keeps s0 x5) :
    KO s0 (execRecoveryWrite x1 x2 x3 x4 x5) := by
  unfold execRecoveryWrite
  with_reducible repeat' (first
    | assumption | apply State.wr_keeps | apply State.window_keeps | apply State.updEnd_keeps | apply State.storeBytes_keeps
    | apply KO.ite | apply KO.next)

theorem execRecoveryFinish_keeps {s0 : State} (x1 : Bool) {x2 : State} (hx2 : Keeps s0 x2) :
    KO s0 (execRecoveryFinish x1 x2) := by
  unfold execRecoveryFinish
  with_reducible repeat' (first
    | assumption | apply State.window_keeps | apply State.verifyEnd_keeps | apply State.wr_keeps | apply KO.ite | apply KO.next)

theorem execRecoveryBoot_keeps {s0 : State} {x1 : State} (hx1 : Keeps s0 x1) :
    KO s0 (execRecoveryBoot x1) := by
  unfold execRecoveryBoot
  with_reducible repeat' (first
    | assumption | apply State.window_keeps | apply State.sessionIdle_keeps | apply State.chooseImage_keeps | apply State.seatLoad_keeps
    | apply Keeps.ite | apply KO.ite | apply KO.next)

theorem execRecoveryDoneExpire_keeps {s0 : State} {x1 : State} (hx1 : Keeps s0 x1) :
    KO s0 (execRecoveryDoneExpire x1) := by
  unfold execRecoveryDoneExpire
  with_reducible repeat' (first
    | assumption | apply State.cold_keeps | apply KO.ite | apply KO.next)

end Sys2Proof.Machine
end

