-- ==== Sys2Proof/Laws/Rings.lean ====
section
/-! SUPPORT. What the executor's running descriptor and a command of the Forwarding Die give. -/
namespace Sys2Proof.Machine

/-- A running descriptor is the taken one of its ring. -/
theorem State.running_taken {s : State} {op r : Nat} {t : Taken} (h : s.running op = some (r, t)) :
    s.hif.exec = some r ∧ (s.ring r).taken = some t ∧ t.op = op ∧ t.st = .running := by
  unfold State.running at h
  cases he : s.hif.exec with
  | none => simp [he] at h
  | some q =>
    simp only [he] at h
    cases ht : (s.ring q).taken with
    | none => simp [ht] at h
    | some x =>
      simp only [ht] at h
      split_ifs at h with hh
      simp only [Option.some.injEq, Prod.mk.injEq] at h
      obtain ⟨rfl, rfl⟩ := h
      exact ⟨rfl, ht, hh.1, hh.2⟩

/-- With the bridge up and room in the control class a single-entry command of the FD crosses and runs as it is. -/
theorem State.fdOp_up {s : State} {op r : Nat} {t : Taken} (h : s.running op = some (r, t)) (hb : s.bridgeUp = true)
    (hk : isBulk op = false) (hc : s.cmdFree = true) (f : State → Nat → Taken → State) : s.fdOp op f = f s.cmdCross r t := by
  have := (State.running_taken h).2.2.1
  simp [State.fdOp, h, State.viaFd, hb, this, hk, hc]

/-- A bulk command, while DMA can be issued; its entries cross one by one. -/
theorem State.fdBulk_up {s : State} {op r : Nat} {t : Taken} (h : s.running op = some (r, t)) (hb : s.bridgeUp = true)
    (hk : isBulk op = true) (hd : s.dmaOk = true) (f : State → Nat → Taken → State) : s.fdBulk op f = f s r t := by
  have := (State.running_taken h).2.2.1
  simp [State.fdBulk, State.fdOp, h, State.viaFd, hb, this, hk, hd]

/-- An entry that crosses the bridge, where the control class has room. -/
theorem crossing_free {s : State} (h : s.cmdFree = true) (f : Nat → State → Entry) (k : Nat) : crossing f k s = f k s.cmdCross := by
  simp [crossing, h]

/-- One entry of a bulk command that is applied. -/
theorem bulkRun_one {s u : State} {r total : Nat} {t : Taken} {f : Nat → State → Entry} (ht : (s.ring r).taken = some t)
    (hp : t.progress < total) (hf : f t.progress s = .go u) : bulkRun r total f 1 s =
      if total ≤ t.progress + 1 then (u.stepEntry r).finish r { status := .done, detail := 0, progress := t.progress + 1 }
      else u.stepEntry r := by
  simp [bulkRun, ht, Nat.not_le.mpr hp, hf]

/-- One entry that stops the command. -/
theorem bulkRun_stop {s u : State} {r total n : Nat} {t : Taken} {f : Nat → State → Entry} {st : Status} {d : Nat}
    (ht : (s.ring r).taken = some t) (hp : t.progress < total) (hf : f t.progress s = .stop st d u) :
    bulkRun r total f (n + 1) s = u.finishTok r st d t.progress 0 := by
  simp [bulkRun, ht, Nat.not_le.mpr hp, hf]

end Sys2Proof.Machine
end

