-- ==== Sys2Proof/Tests/Slice0.lean ====
section
/-! SUPPORT. Tests: ill-formed commands that `WellFormed` refuses, results that the spec works out, and for every statement
with hypotheses a state and operands that meet them, clause by clause. -/
namespace Sys2Proof.Tests
open Sys2Proof.Machine Sys2Proof.Claims
set_option Elab.async false
set_option linter.unusedTactic false
set_option linter.unreachableTactic false

/-! ### Small states -/

/-- A ready, unsealed device. -/
def up : State := State.reset.wr GEN_BOOTSTAT.ready 1

/-- The same with the Forwarding Die powered, out of reset and behind a bridge that is up with one ACTIVE module. -/
def fdUp : State := (((up.wr D2D_STAT.bridge 0).wr D2D_STAT.fd_powered 1).wr D2D_STAT.fd_reset 0).wr (D2D_MODSTAT.state 23) 2

/-- An operation of *Operation format*, its predicate p0. -/
def op (opc rd ra imm b : Nat) : Nat := opc * 2 ^ 33 + rd * 2 ^ 24 + ra * 2 ^ 19 + imm * 2 ^ 18 + b

/-- A bundle of format 0b00 with an operation in one slot, and one with all three. -/
def bun1 (slot o : Nat) : Nat := 2 ^ (3 + slot) + o * 2 ^ (8 + 40 * slot)
def bun3 (o0 o1 o2 : Nat) : Nat := 56 + o0 * 2 ^ 8 + o1 * 2 ^ 48 + o2 * 2 ^ 88

/-- A ply of cluster 0 at the first bundle of bank 0. -/
def ply0 : Ply := { cluster := 0, slot := 0, epoch := 0, egress := false, bank := 0, pc := 0 }

/-- Ply 7 at a bundle of a program of `len` bundles in bank 0 of cluster 0. -/
def eng (p : Ply) (w len : Nat) : State :=
  { State.reset.wr (bankLen 0 0) len with eng := { plies := [(7, p)], bundles := [(0, w)] } }

/-- Time passed: the island clock at `t` ns. -/
def late (t : Nat) (s : State) : State := { s with clk := t }
/-! ### Ill-formed commands, one for each check, and well-formed ones at the ends of their ranges -/

theorem test_ill_formed_1 : ([
    .bar0RegisterWrite (2 ^ 24) 0 0, .bar0RegisterWrite 0 0 (2 ^ 64), .pairLowWordRead false (2 ^ 24) 0,
    .pairHighWordRead false (2 ^ 24), .rcFieldRead (2 ^ 24), .tslast0Read 128, .genSeal (2 ^ 32),
    .frameReceive 128 [] 0 none false 0 0 0, .frameReceive 0 [256] 0 none false 0 0 0, .pfcFrameReceive 128 0 [],
    .pfcFrameReceive 0 256 [], .pfcFrameReceive 0 0 [65536], .pauseFrameReceive 128 0, .pauseFrameReceive 0 65536, .pauseExpire 128 0,
    .pauseExpire 0 8, .flitReceive false (2 ^ 32) none, .flitAck false (2 ^ 32), .bridgeLaneLockLoss false 24 0,
    .bridgeLaneLockLoss false 0 68, .moduleRepairDone 24 false, .moduleTrainingDone 24 false, .plyDispatch 4 false [],
    .ingressDispatchEnqueue 4, .egressDispatchEnqueue 4, .engClroleWrite 24 0, .engClroleWrite 0 4, .roleDrainEnd 24,
    .engFlipRequest 24, .bankDrainEnd 24] : List Instr).all (fun i => !i.wellFormed) = true := by decide
theorem test_ill_formed_2 : ([
    .engCntclr 24, .promotionDone 24 0, .promotionDone 0 64, .spareBackgroundTest 24 false, .fibLookup 0 [(7, 0, false)],
    .tailDescent 4 [], .tailDescent 0 [(7, 0, false)], .emLookup 0 [(7, 0, false)], .terLookup 0 [(7, 0, false)],
    .polUpdate 0 [(7, 0, false)], .adjRead 0 [(7, 0, false)], .brgLookup 0 [(7, 0, false)], .noticeBatchHoldExpire 4, .sweepVisit 4,
    .brgEnableWrite (2 ^ 32), .agePeriodWrite 65536, .hotUnitsWrite (2 ^ 22), .emTableEnable 64 0, .emTableEnable 0 (2 ^ 32),
    .emTableDisable 64 0, .emTableDisable 0 (2 ^ 32), .tableScrub 0 0 [(7, 0, false)] none, .packetAdmit 52, .chainLink 54,
    .chainRelease 0 256 0, .chainRelease 0 0 256, .pfcRepeat 128 0, .pfcRepeat 0 8, .moveSwap 0 4, .evacDone 384] : List Instr).all (fun i => !i.wellFormed) = true := by decide
theorem test_ill_formed_3 : ([
    .bufferEnableWrite (2 ^ 32), .reserveEnableWrite (2 ^ 32), .grantReceive [256], .requestReceive [256], .emptyReceive [256],
    .creditStaleRequest 65536, .creditLostFlush 65536, .creditEarn 8192, .fabricSchedule 4, .bucketTxqEmpty 2048 0,
    .bucketTxqEmpty 0 64, .fabricDelayExpire 2048 0, .fabricDelayExpire 0 64, .linkDrain 48, .linkRestore 48, .unreachExpire 2048,
    .portHoldExpire 128, .egressSelect 4, .tgActivate 128, .tgCancel 128, .tgDisable 128, .tgListStart 128, .tgGateChange 128,
    .tgSchedulerGate 128, .tgEntryWrite 128, .tgEntryRead 128, .doorbell 4096 0 8 false 0, .doorbell 0 64 8 false 0,
    .doorbell 0 0 0 false 0, .doorbell 0 0 65 false 0] : List Instr).all (fun i => !i.wellFormed) = true := by decide
theorem test_ill_formed_4 : ([
    .doorbell 0 0 8 false (2 ^ 64), .descriptorFetch 4096 false, .ringWriteback 4096, .ttlExpire 4096, .descNoProgress 4096,
    .ringStall 4096, .dmaTimeout 4096 0 false, .translationFault 4096 0, .pageResponse 4096 false, .parkTimeout 4096, .puntWrite 4,
    .eventWrite 4096, .msixMessage 512, .nopDescriptor 4096, .injectEgress 4096, .injectIngress 4096, .puntBuf 4096,
    .memoryTrainingDone 16 0 0 0 0 0 [] [] [], .mcdRoleWrite 8 0, .mcdRoleWrite 0 (2 ^ 32), .recentre 392 0 (0, 0, 0, 0) (0, 0) 0,
    .memoryRequest 392 0 false 0 0 0 0 0, .memoryRequest 0 0 false 0 64 0 0 0, .memoryCommandIssue 392 0 0, .refreshDue 392 0,
    .memoryTempRead 16 false 0 0, .patrolScrub 392, .laneRepairDone 384, .pcRetireDone 384, .channelEvacuated 8] : List Instr).all (fun i => !i.wellFormed) = true := by decide
theorem test_ill_formed_5 : ([
    .rankPowerDown 8 0, .selfRefreshEntry 8, .portEnable 128 0, .portEnable 0 (2 ^ 32), .portDisable 128 0, .portDisable 0 (2 ^ 32),
    .bringupStepComplete 128 0 [] [], .bringupStepComplete 0 0 [(2 ^ 32, 0)] [], .bringupStepComplete 0 0 [] [8],
    .bringupTimeout 128 [], .bringupTimeout 0 [128], .polaritySearchSwitch 320, .laneMarker 192 false false 0 0 0 0 0 0 0,
    .laneMarker 0 false false 0 256 0 0 0 0 0, .laneMarker 0 false false 0 0 256 0 0 0 0, .laneMarker 0 false false 0 0 0 32 0 0 0,
    .laneMarker 0 false false 0 0 0 0 (2 ^ 16) 0 0, .laneMarker 0 false false 0 0 0 0 0 0 (2 ^ 32), .lossOfSignalSet 320 0 0,
    .lossOfSignalClear 320 0 0, .lossOfLockSet 320 false 0 0, .lossOfLockClear 320 0, .laneStateRequest 320 0 0,
    .laneStateRequest 0 (2 ^ 32) 0, .faultPendingExpire 128, .upDebounceExpire 128, .frameTransmit 128 0, .frameTransmit 0 8,
    .linkEnable 48 0, .linkEnable 0 (2 ^ 32)] : List Instr).all (fun i => !i.wellFormed) = true := by decide
theorem test_ill_formed_6 : ([
    .linkDisable 48 0, .linkDisable 0 (2 ^ 32), .linkStandby 48 false, .fabricFrameReceive 48 [] 0 0 0,
    .fabricFrameReceive 0 [256] 0 0 0, .fabricCellReceive 48 [] none, .fabricCellReceive 0 [256] none, .fabricFrameTransmit 48,
    .defectDeclare 48 0, .defectDeclare 0 3, .defectClear 48 0, .defectClear 0 3, .engineWatchdog 24 0, .engineWatchdog 0 64,
    .clusterWatchdog 24, .bridgeKeepaliveSend false 24, .d2dRetrain 24, .chainOffer false [256] false, .chainAccept false [256],
    .chainBusy false [256], .chainRefuse false [256], .chainBlock false [256] false, .chainAck false [256], .chainAbort false [256],
    .chainHello false [256], .recoveryStart [256] false, .recoveryWrite 0 0 [256] false, .powerGoodFall 8, .selftestDone 8 false 0 [],
    .timFreqWrite (2 ^ 32)] : List Instr).all (fun i => !i.wellFormed) = true := by decide
theorem test_ill_formed_7 : ([
    .todMessage [256], .counterWriteback false 67108864 false, .segmentHomeWrite 64 0, .segmentHomeWrite 0 16, .segmentMoveDone 64,
    .thermtrip 32 0, .railSample 15 0, .railSample 0 65536, .busMasteringRestored 16 0, .lossOfBlockLock 128, .blockLockRegained 128,
    .faultSequenceReceive 128 false false, .clusterResetDone 24] : List Instr).all (fun i => !i.wellFormed) = true := by decide

theorem test_well_formed_1 : ([
    .bar0RegisterWrite (2 ^ 24 - 1) 0 (2 ^ 64 - 1), .pairLowWordRead false (2 ^ 24 - 1) 0, .pairHighWordRead false (2 ^ 24 - 1),
    .rcFieldRead (2 ^ 24 - 1), .tslast0Read 127, .genSeal (2 ^ 32 - 1), .frameReceive 127 [255] 0 none false 0 0 0,
    .pfcFrameReceive 127 255 [65535], .pauseFrameReceive 127 65535, .pauseExpire 127 7, .flitReceive false (2 ^ 32 - 1) none,
    .flitAck false (2 ^ 32 - 1), .bridgeLaneLockLoss false 23 67, .moduleRepairDone 23 false, .moduleTrainingDone 23 false,
    .plyDispatch 3 false [], .ingressDispatchEnqueue 3, .egressDispatchEnqueue 3, .engClroleWrite 23 3, .roleDrainEnd 23,
    .engFlipRequest 23, .bankDrainEnd 23, .engCntclr 23, .promotionDone 23 63, .spareBackgroundTest 23 false,
    .fibLookup 0 [(6, 0, false)], .tailDescent 3 [(6, 0, false)], .emLookup 0 [(6, 0, false)], .terLookup 0 [(6, 0, false)],
    .polUpdate 0 [(6, 0, false)]] : List Instr).all Instr.wellFormed = true := by decide
theorem test_well_formed_2 : ([
    .adjRead 0 [(6, 0, false)], .brgLookup 0 [(6, 0, false)], .noticeBatchHoldExpire 3, .sweepVisit 3, .brgEnableWrite (2 ^ 32 - 1),
    .agePeriodWrite 65535, .hotUnitsWrite (2 ^ 22 - 1), .emTableEnable 63 (2 ^ 32 - 1), .emTableDisable 63 (2 ^ 32 - 1),
    .tableScrub 0 0 [(6, 0, false)] none, .packetAdmit 51, .chainLink 53, .chainRelease 0 255 255, .pfcRepeat 127 7, .moveSwap 0 3,
    .evacDone 383, .bufferEnableWrite (2 ^ 32 - 1), .reserveEnableWrite (2 ^ 32 - 1), .grantReceive [255], .requestReceive [255],
    .emptyReceive [255], .creditStaleRequest 65535, .creditLostFlush 65535, .creditEarn 8191, .fabricSchedule 3,
    .bucketTxqEmpty 2047 63, .fabricDelayExpire 2047 63, .linkDrain 47, .linkRestore 47, .unreachExpire 2047] : List Instr).all Instr.wellFormed = true := by decide
theorem test_well_formed_3 : ([
    .portHoldExpire 127, .egressSelect 3, .tgActivate 127, .tgCancel 127, .tgDisable 127, .tgListStart 127, .tgGateChange 127,
    .tgSchedulerGate 127, .tgEntryWrite 127, .tgEntryRead 127, .doorbell 4095 63 1 false (2 ^ 64 - 1), .descriptorFetch 4095 false,
    .ringWriteback 4095, .ttlExpire 4095, .descNoProgress 4095, .ringStall 4095, .dmaTimeout 4095 0 false, .translationFault 4095 0,
    .pageResponse 4095 false, .parkTimeout 4095, .puntWrite 3, .eventWrite 4095, .msixMessage 511, .nopDescriptor 4095,
    .injectEgress 4095, .injectIngress 4095, .puntBuf 4095, .memoryTrainingDone 15 0 0 0 0 0 [] [] [], .mcdRoleWrite 7 (2 ^ 32 - 1),
    .recentre 391 0 (0, 0, 0, 0) (0, 0) 0] : List Instr).all Instr.wellFormed = true := by decide
theorem test_well_formed_4 : ([
    .memoryRequest 391 0 false 0 63 0 0 0, .memoryCommandIssue 391 0 0, .refreshDue 391 0, .memoryTempRead 15 false 0 0,
    .patrolScrub 391, .laneRepairDone 383, .pcRetireDone 383, .channelEvacuated 7, .rankPowerDown 7 0, .selfRefreshEntry 7,
    .portEnable 127 (2 ^ 32 - 1), .portDisable 127 (2 ^ 32 - 1), .bringupStepComplete 127 0 [(2 ^ 32 - 1, 2 ^ 32 - 1)] [7],
    .bringupTimeout 127 [127], .polaritySearchSwitch 319, .laneMarker 191 false false 0 255 255 31 (2 ^ 16 - 1) 0 (2 ^ 32 - 1),
    .lossOfSignalSet 319 0 0, .lossOfSignalClear 319 0 0, .lossOfLockSet 319 false 0 0, .lossOfLockClear 319 0,
    .laneStateRequest 319 (2 ^ 32 - 1) 0, .faultPendingExpire 127, .upDebounceExpire 127, .frameTransmit 127 7,
    .linkEnable 47 (2 ^ 32 - 1), .linkDisable 47 (2 ^ 32 - 1), .linkStandby 47 false, .fabricFrameReceive 47 [255] 0 0 0,
    .fabricCellReceive 47 [255] none, .fabricFrameTransmit 47] : List Instr).all Instr.wellFormed = true := by decide
theorem test_well_formed_5 : ([
    .defectDeclare 47 2, .defectClear 47 2, .engineWatchdog 23 63, .clusterWatchdog 23, .bridgeKeepaliveSend false 23, .d2dRetrain 23,
    .chainOffer false [255] false, .chainAccept false [255], .chainBusy false [255], .chainRefuse false [255],
    .chainBlock false [255] false, .chainAck false [255], .chainAbort false [255], .chainHello false [255],
    .recoveryStart [255] false, .recoveryWrite 0 0 [255] false, .powerGoodFall 7, .selftestDone 7 false 0 [],
    .timFreqWrite (2 ^ 32 - 1), .todMessage [255], .counterWriteback false 67108863 false, .segmentHomeWrite 63 15,
    .segmentMoveDone 63, .thermtrip 31 0, .railSample 14 65535, .busMasteringRestored 15 0, .lossOfBlockLock 127,
    .blockLockRegained 127, .faultSequenceReceive 127 false false, .clusterResetDone 23] : List Instr).all Instr.wellFormed = true := by decide
/-! ### Worked examples and tables of the spec -/

/-- *Check polynomials*: the check column, over the ASCII bytes "123456789". -/
theorem test_check_column :
    [(0, 0xFFFFFFFF), (1, 0xFFFFFFFF), (2, 0xFFFF), (3, 0)].map (fun (e : Nat × Nat) => crcBy e.1 e.2 [49, 50, 51, 52, 53, 54, 55, 56, 57]) =
      [0xE3069283, 0xCBF43926, 0x29B1, 0x6C40DF5F0B497347] := by decide +kernel

/-- 05_buffer.md: a packet of 1,000 bytes takes 4 cells. 07_scheduling_shaping.md: the costs of the two queues. -/
theorem test_cells_of_1000 : cellsOf 1000 = 4 := by decide
theorem test_wfq_costs : costOf 1500 3 = 32768000 ∧ costOf 1000 1 = 65536000 := by decide

/-- 07_scheduling_shaping.md: the peak shaper at 1 Gb/s earns a byte in 8 ns, and 1,500 bytes in 12 µs; the write of 100 Mb/s in each mode. -/
def peak : Shaper := { rate := 125000, burst := 12000, tok := 0 }
theorem test_shaper_earns : (peak.eval 8).tok = 1 ∧ (({ peak with tok := -1499, at_ := 8 } : Shaper).eval 12008).tok = 1 ∧
    ((peak.eval 1000000).tok = 12000) := by decide
theorem test_shaper_rewrite : let b : Shaper := { peak with tok := -1499 }
    (b.rewrite 0 12500 12000 false false).tok = 12000 ∧ ((b.rewrite 0 12500 12000 false true).eval 80).tok = 1 ∧
    ((b.rewrite 0 12500 12000 true true).boundary 400).tok = -1449 ∧
    ((b.rewrite 0 12500 12000 true true).boundary 400).rate = 12500 := by decide

/-- 07_scheduling_shaping.md: a base time in the past, on port 12. -/
def based (ns : Nat) : State :=
  { (((State.reset.wr (TG_LEN.entries 12) 1).wr (TG_CYCLE.ns 12) 250000).wr (TG_BASE1.sec_lo 12) 1000) with
    sch := { gates := [(12, { list := [(0, (85, 250000))] })] }, tim := { sec := 1003, ns := ns } }
theorem test_base_in_the_past : (((based 99998000).activateGate 12).gate 12).pend = some (1003100000000, 250000, 1) ∧
    ((based 99998000).activateGate 12).rd (TG_STAT.advanced 12) = 1 ∧
    (((based 99998001).activateGate 12).gate 12).pend = some (1003100250000, 250000, 1) := by decide +kernel

/-- 15_time_counters.md: with deep_mcells 188 each of the 64 pseudo-channels of a stack leaves its share of 84 MiB. -/
theorem test_hbm_share : ({ State.reset with bpm := { deepM := 188 } } : State).pcSpare * 64 = 84 * 2 ^ 20 := by decide +kernel

/-- 04_learning.md: a flapping station: port, moves, move_stamp and frozen after moves at these times in ms. -/
def atMs (t : Nat) : State := { up with tim := { sec := t / 1000, ns := t % 1000 * 1000000 } }
def moved (l : List (Nat × Nat)) : Nat × Nat × Nat × Bool :=
  let d := l.foldl (fun d x => ((atMs x.1).brMove 1 40 [1, 2, 3, 4, 5, 6] d x.2).1) (beBytes 2 0x11 ++ [48] ++ List.replicate 13 0)
  (brPort d, brMoves d, brStamp d, brFrozen d)
theorem test_flapping_station : moved [(100, 0x22), (300, 0x11), (500, 0x22), (700, 0x11)] = (0x11, 4, 100, false) ∧
    moved [(100, 0x22), (300, 0x11), (500, 0x22), (700, 0x11), (900, 0x22)] = (0x22, 2, 100, true) ∧
    moved [(100, 0x22), (300, 0x11), (500, 0x22), (700, 0x11), (1100, 0x22)] = (0x22, 1, 1100, false) := by decide +kernel

/-! ### 02_packet_engines.md -/

/-- The slot at which an opcode may stand: branches and ply ends in slot 2, everything else in slot 0. -/
def slotOf (opc : Nat) : Nat := if (0x58 ≤ opc ∧ opc ≤ 0x5B) ∨ 0x70 ≤ opc then 2 else 0

/-- The ADD g5, g3, 12 of the worked example. -/
theorem test_bundle_of_worked_example : bun1 0 (op 0x01 5 3 1 12) = 0x0000_0000_0000_0000_0000_0205_1C00_0C08 := by decide
theorem test_add_of_worked_example :
    opAt (eng ply0 0x0000_0000_0000_0000_0000_0205_1C00_0C08 1) ply0 0 =
      { opcode := 1, pred := 0, pneg := false, rd := 5, ra := 3, imm := true, b := 12, ext := none } := by decide

/-- The results that *Opcodes* gives for some operands, calculated by hand. -/
theorem test_sar_sign : ((0x8000_0000_0000_0000 : Word64).sshiftRight 63) = 0xFFFF_FFFF_FFFF_FFFF := by decide
theorem test_exts_sign : exts 0xF0 4 4 = 0xFFFF_FFFF_FFFF_FFFF := by decide
theorem test_extu_length_64 : extu 0xF0 0 64 = 0xF0 := by decide
theorem test_ins_keeps_rest : insBits 0xFFFF 0 4 8 = 0xF00F := by decide
theorem test_clz_zero : clz64 0 = 64 ∧ clz64 1 = 63 := by decide

theorem witness_OperationsOnRegisters_1 : Runs (eng ply0 (bun1 0 0) 1) 7 ply0 0 0x00 ∧
    ∀ row ∈ aluRows, Runs (eng ply0 (bun1 0 (op row.2.1 5 3 1 12)) 1) 7 ply0 0 row.2.1 := by
  unfold Runs Alone Ready; decide +kernel

theorem witness_OperationsOnRegisters_2 : ∀ row ∈ predRows, Runs (eng ply0 (bun1 0 (op row.2.1 5 3 1 12)) 1) 7 ply0 0 row.2.1 := by
  unfold Runs Alone Ready; decide +kernel

/-- An operation at an address of g3, which the ply holds, with its immediate 0. -/
def plyAt (a : Nat) : Ply := { ply0 with g := [(3, BitVec.ofNat 64 a)] }
def engAt (opc : Nat) (p : Ply) : State := eng p (bun1 (slotOf opc) (op opc 5 3 1 0)) 1

theorem witness_LoadsStoresAndAtomics_1 :
    (∀ row ∈ loadRows, ∀ a ∈ [0, 0x100 - row.2.2, 0x10000, 0x10200 - row.2.2, 0x100000, 0x180000 - row.2.2],
      Runs (engAt row.2.1 (plyAt a)) 7 (plyAt a) 0 row.2.1 ∧ (opAt (engAt row.2.1 (plyAt a)) (plyAt a) 0).addr (plyAt a) = a ∧
      a % row.2.2 = 0 ∧ (locate a row.2.2).isSome ∧ (plyAt a).ecc = false) ∧
    (∀ row ∈ loadRows ++ storeRows, ∀ a ∈ [0x100, 0xFFFF, 0x10200, 0x180000],
      Runs (engAt row.2.1 (plyAt a)) 7 (plyAt a) 0 row.2.1 ∧ locate a row.2.2 = none) ∧
    (∀ row ∈ loadRows, let p := { plyAt 0 with ecc := true }
      Runs (engAt row.2.1 p) 7 p 0 row.2.1 ∧ locate 0 row.2.2 = some (.frame 0) ∧ p.ecc = true) ∧
    (∀ row ∈ storeRows, Runs (engAt row.2.1 (plyAt 0)) 7 (plyAt 0) 0 row.2.1 ∧ locate 0 row.2.2 = some (.frame 0) ∧
      ¬(0 < 128 ∧ (plyAt 0).tags.contains (0 / 32) = true)) ∧
    (∀ row ∈ storeRows, ∀ a ∈ [0, 0x70 - row.2.2, 0x80, 0x200 - row.2.2],
      Runs (engAt row.2.1 (plyAt (0x10000 + a))) 7 (plyAt (0x10000 + a)) 0 row.2.1 ∧
      locate (0x10000 + a) row.2.2 = some (.slot a) ∧ ¬(0x70 ≤ a ∧ a < 0x80)) ∧
    (∀ row ∈ storeRows, ∀ a ∈ [0, 0x80000 - row.2.2],
      Runs (engAt row.2.1 (plyAt (0x100000 + a))) 7 (plyAt (0x100000 + a)) 0 row.2.1 ∧ locate (0x100000 + a) row.2.2 = some (.prog a)) ∧
    (∀ row ∈ storeRows, ∀ a ∈ [0x70, 0x80 - row.2.2],
      Runs (engAt row.2.1 (plyAt (0x10000 + a))) 7 (plyAt (0x10000 + a)) 0 row.2.1 ∧ locate (0x10000 + a) row.2.2 = some (.slot a)) ∧
    (∀ row ∈ storeRows, let p := { plyAt 96 with tags := [3] }
      Runs (engAt row.2.1 p) 7 p 0 row.2.1 ∧ locate 96 row.2.2 = some (.frame 96) ∧ p.tags.contains (96 / 32) = true) := by
  unfold Runs Alone Ready; and_intros <;> (try dsimp only) <;> decide +kernel

theorem witness_LoadsStoresAndAtomics_2 :
    (∀ row ∈ atomRows, ∀ a ∈ [0x100000, 0x17FFF8], Runs (engAt row.2.1 (plyAt a)) 7 (plyAt a) 0 row.2.1 ∧
      row.2.2.1 (plyAt a) (opAt (engAt row.2.1 (plyAt a)) (plyAt a) 0) % 8 = 0 ∧
      locate (row.2.2.1 (plyAt a) (opAt (engAt row.2.1 (plyAt a)) (plyAt a) 0)) 8 = some (.prog (a - 0x100000))) ∧
    (∀ row ∈ atomRows, ∀ a ∈ [0, 0x10000, 0x100004, 0x180000], Runs (engAt row.2.1 (plyAt a)) 7 (plyAt a) 0 row.2.1 ∧
      (row.2.2.1 (plyAt a) (opAt (engAt row.2.1 (plyAt a)) (plyAt a) 0) % 8 ≠ 0 ∨
        locate (row.2.2.1 (plyAt a) (opAt (engAt row.2.1 (plyAt a)) (plyAt a) 0)) 8 ∈
          [none, some (.frame 0), some (.slot 0)])) ∧
    Tbl.risingFrom 0 State.reset.eng.pdata = true := by
  unfold Runs Alone Ready; decide +kernel

/-- A branch in slot 2 with the immediate `b`, or with g`b` / 8,192 as its register. -/
def engBr (opc imm b : Nat) (p : Ply) : State := eng p (bun1 2 (op opc 0 3 imm b)) 4

theorem witness_Branches :
    (∀ opc ∈ [0x58, 0x5A], Runs (engBr opc 1 0x7FFF ply0) 7 ply0 2 opc ∧ (opAt (engBr opc 1 0x7FFF ply0) ply0 2).imm = true) ∧
    (∀ opc ∈ [0x58, 0x5A], ∀ t ∈ [3, 4], Runs (engBr opc 0 (3 * 8192) (plyAt t)) 7 (plyAt t) 2 opc ∧
      (opAt (engBr opc 0 (3 * 8192) (plyAt t)) (plyAt t) 2).imm = false ∧
      ((opAt (engBr opc 0 (3 * 8192) (plyAt t)) (plyAt t) 2).bVal (plyAt t)).toNat % 2 ^ 15 = t ∧
      (engBr opc 0 (3 * 8192) (plyAt t)).rd (bankLen 0 0) = 4) ∧
    (∀ t ∈ [0, 3, 4, 0x8000], Runs (engBr 0x59 0 0 (plyAt t)) 7 (plyAt t) 2 0x59 ∧
      ((plyAt t).reg (opAt (engBr 0x59 0 0 (plyAt t)) (plyAt t) 2).ra).toNat = t) ∧
    (∀ t ∈ [3, 4], let p := { ply0 with g := [(31, BitVec.ofNat 64 t)] }
      Runs (engBr 0x5B 0 0 p) 7 p 2 0x5B ∧ (p.reg 31).toNat % 2 ^ 15 = t ∧ (engBr 0x5B 0 0 p).rd (bankLen 0 0) = 4) := by
  unfold Runs Alone Ready; and_intros <;> (try dsimp only) <;> decide +kernel

/-- A call of accelerator 0 under tag 2, and WAIT on all four tags. -/
def engCall (opc : Nat) (p : Ply) : State := eng p (bun1 0 (op opc 5 3 1 (if opc = 0x62 then 15 else 2 * 65536 + 8 * 64))) 2
def plyTags (l : List Nat) (n : Nat) : Ply := { ply0 with tags := l, posts := n }

theorem witness_AcceleratorCalls :
    (∀ opc ∈ [0x60, 0x61], ∀ l ∈ [[], [2]], Runs (engCall opc (plyTags l 0)) 7 (plyTags l 0) 0 opc ∧ (plyTags l 0).ecc = false ∧
      callTag (opAt (engCall opc (plyTags l 0)) (plyTags l 0) 0).b = 2) ∧
    Runs (engCall 0x62 (plyTags [2] 0)) 7 (plyTags [2] 0) 0 0x62 ∧
    (∀ n ∈ [7, 8], Runs (engCall 0x63 (plyTags [] n)) 7 (plyTags [] n) 0 0x63 ∧ (plyTags [] n).ecc = false) ∧
    (∀ opc ∈ [0x60, 0x61, 0x63], let p := { plyTags [] 7 with ecc := true }
      Runs (engCall opc p) 7 p 0 opc ∧ p.tags.contains 2 = false ∧ p.ecc = true) := by
  unfold Runs Alone Ready; and_intros <;> (try dsimp only) <;> decide +kernel

/-- The 48 bytes of a forwarding result at 0x40 of the packet slot. -/
def resultAt (l : List Nat) : Tbl (Option Byte) := l.zipIdx.map (fun e => (0x40 + e.2, some (BitVec.ofNat 8 e.1)))

/-- A forwarding result of zeros, but for its frame offset at byte 12 and its frame length at byte 14. -/
def plyOut (off len recycle : Nat) (egress : Bool) : Ply :=
  { ply0 with egress := egress, headLen := 64, pkt := { recycle := recycle },
              mem := resultAt (List.replicate 12 0 ++ [off / 256, off % 256, len / 256, len % 256] ++ List.replicate 32 0) ++
                     (List.range 64).map (fun i => (0x80 + i, some (BitVec.ofNat 8 i))) }
def engEnd (opc : Nat) (p : Ply) : State := eng p (bun1 2 (op opc 0 0 1 5)) 1

/-- The watchdog's flag of a context of cluster 0 has not fallen, or has. -/
def dueIs (s : State) (p : Ply) (b : Bool) : Prop := s.watchdogDue p = b

theorem witness_PlyEnds :
    (∀ e ∈ [false, true], let p := plyOut 0 64 0 e
      Runs (engEnd 0x70 p) 7 p 2 0x70 ∧ dueIs (engEnd 0x70 p) p false ∧ p.ecc = false ∧ p.output = .inr (List.range 64) ∧ p.egress = e) ∧
    (let p := plyOut 128 64 0 false; Runs (engEnd 0x70 p) 7 p 2 0x70 ∧ dueIs (engEnd 0x70 p) p false ∧ p.ecc = false ∧ p.output = .inl 0x10100) ∧
    (∀ opc ∈ [0x71, 0x72], Runs (engEnd opc ply0) 7 ply0 2 opc ∧ dueIs (engEnd opc ply0) ply0 false) ∧
    (∀ n ∈ [2, 3], let p := plyOut 0 64 n false
      Runs (engEnd 0x73 p) 7 p 2 0x73 ∧ dueIs (engEnd 0x73 p) p false ∧ p.ecc = false ∧ p.pkt.recycle = n ∧ p.output = .inr (List.range 64)) ∧
    (let p := plyOut 128 64 2 false; Runs (engEnd 0x73 p) 7 p 2 0x73 ∧ p.pkt.recycle < 3 ∧ p.ecc = false ∧ p.output = .inl 0x10100) ∧
    (∀ opc ∈ [0x70, 0x73], let p := { plyOut 0 64 2 false with ecc := true }
      Runs (engEnd opc p) 7 p 2 opc ∧ dueIs (engEnd opc p) p false ∧ p.ecc = true ∧ p.pkt.recycle < 3) ∧
    (∀ opc ∈ [0x70, 0x71, 0x72, 0x73], let s := late (10 ^ 9) (engEnd opc ply0); Runs s 7 ply0 2 opc ∧ dueIs s ply0 true) := by
  unfold Runs Alone Ready dueIs; and_intros <;> (try dsimp only) <;> decide +kernel

/-- An operation gated by p1, which is 0. -/
def engOff (opc : Nat) : State := eng ply0 (bun1 (slotOf opc) (op opc 5 3 1 12 + 2 ^ 30)) 1

theorem witness_GatedOff : ∀ row ∈ opRows, Alone (engOff row.2) 7 ply0 (slotOf row.2) row.2 ∧
    (opAt (engOff row.2) ply0 (slotOf row.2)).gated ply0 = false := by
  unfold Alone Ready; decide +kernel

/-- Three operations: one register operation, one with its opcode in slot 1 at the packet slot, one in slot 2. -/
def engThree (o0 o1 o2 : Nat) (p : Ply) : State := eng p (bun3 (op o0 5 3 1 12) (op o1 6 3 1 0) (op o2 7 3 1 1)) 2

theorem witness_BundleReadsBeforeWrites :
    (∀ r0 ∈ aluRows, ∀ r1 ∈ aluRows, Ready (engThree r0.2.1 r1.2.1 0x01 ply0) 7 ply0 ∧
      AllThree (engThree r0.2.1 r1.2.1 0x01 ply0) ply0 r0.2.1 r1.2.1 0x01) ∧
    (∀ r1 ∈ storeRows, ∀ o2 ∈ [0x70, 0x58], let p := plyAt 0x10000
      Ready (engThree 0x01 r1.2.1 o2 p) 7 p ∧ AllThree (engThree 0x01 r1.2.1 o2 p) p 0x01 r1.2.1 o2 ∧
      (opAt (engThree 0x01 r1.2.1 o2 p) p 1).addr p = 0x10000 ∧ 0x10000 % r1.2.2 = 0 ∧ locate 0x10000 r1.2.2 = some (.slot 0) ∧
      ¬(0x70 ≤ 0 ∧ 0 < 0x80) ∧ (opAt (engThree 0x01 r1.2.1 o2 p) p 2).imm = true ∧ (engThree 0x01 r1.2.1 o2 p).watchdogDue p = false) := by
  unfold AllThree Ready; and_intros <;> (try dsimp only) <;> decide +kernel

theorem witness_BitFieldsBitByBit :
    (∀ pos ∈ [0, 63], ∀ len ∈ [1, 64], ∀ i ∈ [0, 63], pos < 64 ∧ 1 ≤ len ∧ len ≤ 64 ∧ i < 64) ∧ ∀ n ∈ [0, 64], n ≤ 64 := by decide

/-! ### 17_register_map.md and 15_time_counters.md -/

/-- The worked addresses of 17_register_map.md: the status of line lane 39, the errors of channel 6, the errored seconds of link 9. -/
theorem test_address_of_sds_stat_39 : (SDS_STAT.state 39).addr = 0x489C04 := by decide
theorem test_address_of_mcd_ue_6 : (MCD_UE.count 6).addr = 0x38C408 := by decide
theorem test_address_of_flk_es_9 : (FLK_ES.count 9).addr = 0x509038 := by decide

theorem witness_RegisterWriteByAccessCode_word : up.regsOk = true ∧ Reached up ∧ 2 ^ 32 - 1 < 2 ^ 32 ∧
    Plain up 0x4003C (up.underCmd 0x4003C (2 ^ 32 - 1)) [⟨TIM_SLEWRATE.rate_ppm, .rw, [(1, 1000)]⟩] := by
  unfold Reached Plain
  and_intros <;> first | decide +kernel | exact fun _ _ => rfl | exact fun _ => rfl

theorem witness_RegisterWriteByAccessCode :
    (let s : State := up; s.cmdWrote.1 ≠ s.clk + 1) ∧
    (let s : State := { up with cmdWrote := (1, [(0x4003C, 7, 3)]) }; let a := 0x4003C; let m := 7; let w := 3; indirectAddr a = false ∧
     s.cmdWrote = (s.clk + 1, [(a, m, w)])) := by
  try dsimp only
  and_intros <;> decide +kernel

theorem witness_RefusalsAndSealing_1 :
    (let s : State := State.reset; let a := 0; let size := 1; accessOk a size = false ∧ s.bit GEN_SEAL.sealed = false) ∧
    (let s : State := State.reset; let a := 2; let size := 4; accessOk a size = false ∧ s.bit GEN_SEAL.sealed = false) ∧
    (let s : State := up; let a := 0x18; Reached s ∧ accessOk a 4 = true ∧ isReserved a = true) ∧
    (let a := 0x28; let size := 1; accessOk a size = false) ∧
    (let a := 0x18; isReserved a = true ∧ a % 4 = 0) ∧
    (let s : State := up.wr GEN_SEAL.sealed 1; let a := 0; s.pwr.recovery = false ∧ s.bit GEN_BOOTSTAT.ready = true ∧
     s.bit GEN_SEAL.sealed = true ∧ accessOk a 4 = true ∧ isReserved a = false ∧ s.keptBits a = 0) := by
  unfold Reached
  try dsimp only
  and_intros <;> decide +kernel

theorem witness_ReadsOnEachPath_1 :
    (let s : State := up; let a := 0x28; let f := (⟨⟨0x28, 0, 64, 0⟩, .ro, []⟩ : FldAcc); Reached s ∧ a < 2 ^ 24 ∧ a % 4 = 0 ∧
     isFdAddr a = false ∧ isMsix a = false ∧ regAt a = .pairLo f) ∧
    (let s : State := up; let a := 0x28; let f := (⟨⟨0x28, 0, 64, 0⟩, .ro, []⟩ : FldAcc); Reached s ∧ a < 2 ^ 24 ∧ a % 8 = 0 ∧
     isFdAddr a = false ∧ isFdAddr (a + 4) = false ∧ isMsix a = false ∧ isMsix (a + 4) = false ∧ regAt a = .pairLo f ∧
     regAt (a + 4) = .pairHi f) ∧
    (let a := 0x28; let f := (⟨⟨0x28, 0, 64, 0⟩, .ro, []⟩ : FldAcc); a % 4 = 0 ∧ (a < 0x10000 ∨ (0x600000 ≤ a ∧ a < 0x640000)) ∧
     regAt a = .pairLo f) ∧
    (let s : State := { up with bar0L := { pair := some (0x28, 5) } }; let a := 0x2C; let f := (⟨⟨0x28, 0, 64, 0⟩, .ro, []⟩ : FldAcc);
     Reached s ∧ a < 2 ^ 24 ∧ a % 4 = 0 ∧ isFdAddr a = false ∧ isMsix a = false ∧ regAt a = .pairHi f ∧ let h := 5;
     s.bar0L.pair = some (f.fld.addr, h)) ∧
    (let s : State := { up with bar0L := { pair := some (0x11000, 5) } }; let a := 0x2C; let f := (⟨⟨0x28, 0, 64, 0⟩, .ro, []⟩ : FldAcc);
     Reached s ∧ a < 2 ^ 24 ∧ a % 4 = 0 ∧ isFdAddr a = false ∧ isMsix a = false ∧ regAt a = .pairHi f ∧
     (∀ h, s.bar0L.pair ≠ some (f.fld.addr, h))) ∧
    (let s : State := { State.reset with bmcL := { pair := some (0x28, 5) } }; let a := 0x2C;
     let f := (⟨⟨0x28, 0, 64, 0⟩, .ro, []⟩ : FldAcc); a % 4 = 0 ∧ (a < 0x10000 ∨ (0x600000 ≤ a ∧ a < 0x640000)) ∧ regAt a = .pairHi f ∧
     let h := 5; s.bmcL.pair = some (f.fld.addr, h)) ∧
    (let s : State := State.reset; let a := 0x2C; let f := (⟨⟨0x28, 0, 64, 0⟩, .ro, []⟩ : FldAcc); a % 4 = 0 ∧
     (a < 0x10000 ∨ (0x600000 ≤ a ∧ a < 0x640000)) ∧ regAt a = .pairHi f ∧ (∀ h, s.bmcL.pair ≠ some (f.fld.addr, h))) := by
  unfold Reached
  try dsimp only
  and_intros <;> (first
    | decide +kernel | exact fun _ h1 h2 => absurd (Nat.lt_of_lt_of_le h1 h2) (by decide +kernel) | exact fun _ _ => rfl
    | (intro _ h; cases h; done) | (intro _ h; cases h; decide +kernel) | exact .inl (by decide +kernel) | exact .inr (.inl (by decide +kernel))
    | (simp only [← List.mem_range]; decide +kernel) | exact ⟨0, by decide +kernel⟩ | exact ⟨7, by decide +kernel⟩)

theorem witness_ReadsOnEachPath_2 :
    (let s : State := up; Reached s) ∧
    (let s : State := fdUp; let port := 127; FdOpen s ∧ s.ctlFree true 1 = true ∧ port < 128) ∧
    (let s : State := up; Reached s) ∧
    (let s : State := up; Reached s) := by
  unfold Reached FdOpen Open
  try dsimp only
  and_intros <;> decide +kernel

theorem witness_RefusalsAndSealing_2 :
    (let s : State := up; Open s) ∧
    (let s : State := up; let v := 0x5EA10000; Open s ∧ (bitsAt (v % 2 ^ 32) 16 16 ≠ 0x5EA1 ∨ v % 2 = 0)) ∧
    (let s : State := up; let v := 0x5EA20001; Open s ∧ (bitsAt (v % 2 ^ 32) 16 16 ≠ 0x5EA1 ∨ v % 2 = 0)) ∧
    (let s : State := State.reset; s.bit GEN_BOOTSTAT.ready = false) := by
  unfold Open Reached
  try dsimp only
  and_intros <;> decide +kernel

theorem witness_NetworkTime_1 :
    (let s : State := up.wr TIM_SET0.ns 999999999; Open s ∧ s.bit TIM_CFG.mode = false ∧ s.rd TIM_SET0.ns < 10 ^ 9) ∧
    (let s : State := { (up.wr TIM_SET1.sec_lo 5) with tim := { sec := 4, ns := 3 } }; Open s ∧ s.bit TIM_CFG.mode = false ∧
     s.rd TIM_SET0.ns < 10 ^ 9) ∧
    (let s : State := up.wr TIM_SET0.ns 1000000000; Open s ∧ s.bit TIM_CFG.mode = false ∧ 10 ^ 9 ≤ s.rd TIM_SET0.ns) ∧
    (let s : State := (up.wr TIM_OFFS.offset 1000).wr TIM_SLEW.max_ns 1000; Open s ∧ s.bit TIM_CFG.mode = false ∧
     let sum := s.tim.slew + signed 32 (s.rd TIM_OFFS.offset) * fracNs; let lim : Int := (s.rd TIM_SLEW.max_ns : Int) * fracNs; 0 < lim ∧
     -lim ≤ sum ∧ sum ≤ lim) ∧
    (let s : State := (up.wr TIM_OFFS.offset 1001).wr TIM_SLEW.max_ns 1000; Open s ∧ s.bit TIM_CFG.mode = false ∧
     let sum := s.tim.slew + signed 32 (s.rd TIM_OFFS.offset) * fracNs; let lim : Int := (s.rd TIM_SLEW.max_ns : Int) * fracNs;
     (lim ≤ 0 ∨ sum < -lim ∨ lim < sum)) ∧
    (let s : State := (up.wr TIM_OFFS.offset 0).wr TIM_SLEW.max_ns 0; Open s ∧ s.bit TIM_CFG.mode = false ∧
     let sum := s.tim.slew + signed 32 (s.rd TIM_OFFS.offset) * fracNs; let lim : Int := (s.rd TIM_SLEW.max_ns : Int) * fracNs;
     (lim ≤ 0 ∨ sum < -lim ∨ lim < sum)) ∧
    (let s : State := up; Open s ∧ s.bit TIM_CFG.mode = false ∧ let v := 25600000; v < 2 ^ 32 ∧ -25600000 ≤ signed 32 v ∧
     signed 32 v ≤ 25600000) ∧
    (let s : State := up; Open s ∧ s.bit TIM_CFG.mode = false ∧ let v := 2 ^ 32 - 25600000; v < 2 ^ 32 ∧ -25600000 ≤ signed 32 v ∧
     signed 32 v ≤ 25600000) ∧
    (let s : State := up; Open s ∧ s.bit TIM_CFG.mode = false ∧ let v := 25600001; v < 2 ^ 32 ∧
     (signed 32 v < -25600000 ∨ 25600000 < signed 32 v)) ∧
    (let s : State := up; Open s ∧ s.bit TIM_CFG.mode = false ∧ let v := 2 ^ 32 - 25600001; v < 2 ^ 32 ∧
     (signed 32 v < -25600000 ∨ 25600000 < signed 32 v)) ∧
    (let s : State := up.wr TIM_CFG.mode 1; Open s ∧ s.bit TIM_CFG.mode = true) ∧
    (let s : State := up.wr TIM_STAT.slewing 1; s.bit TIM_STAT.slewing = true ∧ s.tim.slew = 0) := by
  unfold Open Reached
  try dsimp only
  and_intros <;> decide +kernel

theorem witness_NetworkTime_2 :
    (let s : State := late 1024 up; s.dies.syncAt + 1024 ≤ s.clk ∧ s.bit TIM_STAT.step_pending = false) ∧
    (let s : State := late 1024 (up.wr TIM_STAT.step_pending 1); s.dies.syncAt + 1024 ≤ s.clk ∧ s.bit TIM_STAT.step_pending = true) ∧
    (let s : State := late 500000000 { up with tim := { ppsAt := some 0 } }; (∀ t, s.tim.ppsAt = some t → t + 500000000 ≤ s.clk)) ∧
    (let s : State := { late 500000000 up with tim := { ppsAt := some 0, sec := 9, ns := 5, before := (500000000, 8, 7) } };
     (∀ t, s.tim.ppsAt = some t → t + 500000000 ≤ s.clk)) ∧
    (let s : State := late 7 up; s.tim.before.1 ≠ s.clk) ∧
    (let s : State := late 499999999 { up with tim := { ppsAt := some 0 } }; let t := 0; s.tim.ppsAt = some t ∧ s.clk < t + 500000000) ∧
    (let s : State := late 10000000 { up with tim := { ppsAt := some 0 } };
     let m := [0xC3, 0x3C, 1, 0, 0, 0, 0, 0, 9, 0, 0, 37, 0x12, 0xFC]; let t := 0; s.tim.ppsAt = some t ∧ t + 10000000 ≤ s.clk ∧
     s.clk ≤ t + 900000000 ∧ todOk m = true) ∧
    (let s : State := late 900000000 { up with tim := { ppsAt := some 0 } };
     let m := [0xC3, 0x3C, 1, 0, 0, 0, 0, 0, 9, 0, 0, 37, 0x12, 0xFC]; let t := 0; s.tim.ppsAt = some t ∧ t + 10000000 ≤ s.clk ∧
     s.clk ≤ t + 900000000 ∧ todOk m = true) ∧
    (let s : State := late 900000000 { up with tim := { ppsAt := some 0 } };
     let m := [0xC3, 0x3C, 1, 0, 0, 0, 0, 0, 9, 0, 0, 37, 0x12, 0xFD]; (todOk m = false ∨ s.tim.ppsAt = none ∨ ∃ t, s.tim.ppsAt = some t ∧
     (s.clk < t + 10000000 ∨ t + 900000000 < s.clk))) ∧
    (let s : State := late 10000000 up; let m := [0xC3, 0x3C, 1, 0, 0, 0, 0, 0, 9, 0, 0, 37, 0x12, 0xFC];
     (todOk m = false ∨ s.tim.ppsAt = none ∨ ∃ t, s.tim.ppsAt = some t ∧ (s.clk < t + 10000000 ∨ t + 900000000 < s.clk))) ∧
    (let s : State := late 3000000000 (up.wr TIM_STAT.servo 2); (s.rd TIM_STAT.servo = 1 ∨ s.rd TIM_STAT.servo = 2) ∧
     s.tim.pairAt + 3000000000 ≤ s.clk) ∧
    (let s : State := late 3000000000 (up.wr TIM_STAT.servo 1); (s.rd TIM_STAT.servo = 1 ∨ s.rd TIM_STAT.servo = 2) ∧
     s.tim.pairAt + 3000000000 ≤ s.clk) := by
  try dsimp only
  and_intros <;> (first
    | decide +kernel | exact fun _ h1 h2 => absurd (Nat.lt_of_lt_of_le h1 h2) (by decide +kernel) | exact fun _ _ => rfl
    | (intro _ h; cases h; done) | (intro _ h; cases h; decide +kernel) | exact .inl (by decide +kernel) | exact .inr (.inl (by decide +kernel))
    | (simp only [← List.mem_range]; decide +kernel) | exact ⟨0, by decide +kernel⟩ | exact ⟨7, by decide +kernel⟩)

theorem witness_SecondTickWhenSecondsChange :
    (let s : State := State.reset; let sec := 1; sec ≠ s.tim.sec) := by
  try dsimp only
  and_intros <;> decide +kernel

theorem witness_CounterAddsExactly :
    (let s : State := { State.reset with tim := { sec := 2 ^ 48 - 1, ns := 999999999 } }; s.pwr.clkLost = false ∧ s.dies.feedA = true ∧
     s.timeOk = true ∧ s.tim.sec < 2 ^ 48 ∧ -25600000 ≤ s.freqAdj ∧ s.freqAdj ≤ 25600000 ∧ s.rd TIM_SLEWRATE.rate_ppm ≤ 1000) ∧
    (let s : State := State.reset.wr TIM_FREQ.adj (2 ^ 32 - 25600000); s.pwr.clkLost = false ∧ s.dies.feedA = true ∧ s.timeOk = true ∧
     s.tim.sec < 2 ^ 48 ∧ -25600000 ≤ s.freqAdj ∧ s.freqAdj ≤ 25600000 ∧ s.rd TIM_SLEWRATE.rate_ppm ≤ 1000) := by
  try dsimp only
  and_intros <;> decide +kernel

/-! ### 01_two_dies.md, 02_packet_engines.md and 12_resilience.md -/

/-- Cluster `c` takes ingress plies: role INGRESS, bank 0 LIVE with one bundle. -/
def clu (c : Nat) (e : Eng) : State :=
  { (((State.reset.wr (ENG_CLROLE.role c) 0).wr (ENG_CLSTAT.role_now c) 0).wr (bankState c 0) 3).wr (bankLen c 0) 1 with eng := e }

/-- Pipe 3 without an EGRESS cluster, and packets that the bridge has delivered while `n` wait in its egress queue. -/
def noEgress (s : State) : State := [18, 19, 20, 21, 22, 23].foldl (fun u c => u.wr (ENG_CLROLE.role c) 2) s
def arrived (pre : List Packet) (k : Packet) (s : State) (n : Nat) : State :=
  { s with dies := { tf := { arrived := pre ++ [k] } }, eng := { egressQ := if n = 0 then [] else [(3, List.replicate n {})] } }

/-- A ply parked on tag 2 by a CALL whose destination is g5, and that call with its result. -/
def plyWait : Ply := { ply0 with tags := [2], parked := [2], callRd := some (5, 2) }
def callDone : Call :=
  { ply := 7, cluster := 0, slot := 0, epoch := 0, tag := 2, accel := 0, select := 0, key := [], pipe := 0, length := 64,
    result := some (List.replicate 32 1), tail := false }

/-- A bridge with module 23 ACTIVE and one of its directions. -/
def flits (ft : Bool) (d : BridgeDir) : State :=
  { (up.wr D2D_STAT.bridge 0).wr (D2D_MODSTAT.state 23) 2 with dies := if ft then { ft := d } else { tf := d } }

theorem witness_DispatchChoosesMostFree :
    (let s : State := clu 0 { ingressQ := [(0, [{}])] }; let pipe := 0; let egress := false; let upsets := ([] : List (Bool × Nat));
     let k := ({} : Packet); let rest := ([] : List Packet); Tbl.risingFrom 0 (if egress then s.eng.egressQ else s.eng.ingressQ) = true ∧
     (upsets = [] ∨ Tbl.risingFrom 0 s.eng.plies = true) ∧ s.dispQ egress pipe = k :: rest ∧ (∃ c, 6 * pipe ≤ c ∧ c < 6 * pipe + 6 ∧
     s.takesPlies c (b2n egress) = true)) := by
  try dsimp only
  and_intros <;> (first
    | decide +kernel | exact fun _ h1 h2 => absurd (Nat.lt_of_lt_of_le h1 h2) (by decide +kernel) | exact fun _ _ => rfl
    | (intro _ h; cases h; done) | (intro _ h; cases h; decide +kernel) | exact .inl (by decide +kernel) | exact .inr (.inl (by decide +kernel))
    | (simp only [← List.mem_range]; decide +kernel) | exact ⟨0, by decide +kernel⟩ | exact ⟨7, by decide +kernel⟩)

theorem witness_DispatchQueuesAndStart :
    (let s : State := { State.reset with eng := { arriving := [(3, [{}])], ingressQ := [(3, List.replicate 4096 {})] } }; let pipe := 3;
     let k := ({} : Packet); let rest := ([] : List Packet); Tbl.get [] s.eng.arriving pipe = k :: rest ∧
     4096 ≤ (s.dispQ false pipe).length) ∧
    (let s : State := { State.reset with eng := { arriving := [(3, [{}])], ingressQ := [(3, List.replicate 4095 {})] } }; let pipe := 3;
     let k := ({} : Packet); let rest := ([] : List Packet); Tbl.get [] s.eng.arriving pipe = k :: rest ∧
     (s.dispQ false pipe).length < 4096) ∧
    (let s : State := arrived [{ outPort := 5 }] { outPort := 131 } State.reset 0; let pipe := 3;
     let pre := ([{ outPort := 5 }] : List Packet); let k := ({ outPort := 131 } : Packet); let rest := ([] : List Packet); pipe < 4 ∧
     s.dies.tf.arrived = pre ++ k :: rest ∧ (∀ x ∈ pre, x.outPort / 32 ≠ pipe ∧ x.outPort ≠ 128 + pipe) ∧ k.outPort = 128 + pipe) ∧
    (let s : State := arrived [{ outPort := 5 }] { outPort := 127 } (noEgress State.reset) 0; let pipe := 3;
     let pre := ([{ outPort := 5 }] : List Packet); let k := ({ outPort := 127 } : Packet); let rest := ([] : List Packet); pipe < 4 ∧
     s.dies.tf.arrived = pre ++ k :: rest ∧ (∀ x ∈ pre, x.outPort / 32 ≠ pipe ∧ x.outPort ≠ 128 + pipe) ∧ k.outPort / 32 = pipe ∧
     s.hasEgress pipe = false) ∧
    (let s : State := arrived [{ outPort := 5 }] { outPort := 127 } (State.reset.wr (ENG_CLROLE.role 18) 1) 4096; let pipe := 3;
     let pre := ([{ outPort := 5 }] : List Packet); let k := ({ outPort := 127 } : Packet); let rest := ([] : List Packet); pipe < 4 ∧
     s.dies.tf.arrived = pre ++ k :: rest ∧ (∀ x ∈ pre, x.outPort / 32 ≠ pipe ∧ x.outPort ≠ 128 + pipe) ∧ k.outPort / 32 = pipe ∧
     s.hasEgress pipe = true ∧ 4096 ≤ (s.dispQ true pipe).length) ∧
    (let s : State := arrived [{ outPort := 5 }] { outPort := 127 } (State.reset.wr (ENG_CLROLE.role 18) 1) 4095; let pipe := 3;
     let pre := ([{ outPort := 5 }] : List Packet); let k := ({ outPort := 127 } : Packet); let rest := ([] : List Packet); pipe < 4 ∧
     s.dies.tf.arrived = pre ++ k :: rest ∧ (∀ x ∈ pre, x.outPort / 32 ≠ pipe ∧ x.outPort ≠ 128 + pipe) ∧ k.outPort / 32 = pipe ∧
     s.hasEgress pipe = true ∧ (s.dispQ true pipe).length < 4096) ∧
    (let s : State := clu 0 { ingressQ := [(0, [{}])] }; let pipe := 0; let egress := false; let upsets := ([] : List (Bool × Nat));
     let k := ({} : Packet); let rest := ([] : List Packet); let c := 0; let slot := 0; s.regsOk = true ∧
     (upsets = [] ∨ Tbl.risingFrom 0 s.eng.plies = true) ∧ s.dispQ egress pipe = k :: rest ∧ s.dispatchTo pipe egress = some (c, slot) ∧
     s.rd (ENG_BANKCTL.live_bank c) < 2) ∧
    (let s : State := clu 0 { ingressQ := [(0, [{}])], plies := [(7, ply0)] }; let pipe := 0; let egress := false;
     let upsets := [(true, 7), (false, 5)]; let k := ({} : Packet); let rest := ([] : List Packet); let c := 0; let slot := 1;
     s.regsOk = true ∧ (upsets = [] ∨ Tbl.risingFrom 0 s.eng.plies = true) ∧ s.dispQ egress pipe = k :: rest ∧
     s.dispatchTo pipe egress = some (c, slot) ∧ s.rd (ENG_BANKCTL.live_bank c) < 2) := by
  try dsimp only
  and_intros <;> decide +kernel

theorem witness_ResultsAndWatchdogs :
    (let s : State := { eng plyWait 0 1 with eng := { calls := [(3, callDone)], plies := [(7, plyWait)] } }; let n := 3; let c := callDone;
     let r := List.replicate 32 1; let p := plyWait; s.eng.calls.find? (fun e => e.1 == n) = some (n, c) ∧ c.result = some r ∧
     s.ply c.ply = some p ∧ s.watchdogDue p = false) ∧
    (let s : State := late 400000000 { eng plyWait 0 1 with eng := { calls := [(3, callDone)], plies := [(7, plyWait)] } }; let n := 3;
     let c := callDone; let r := List.replicate 32 1; let p := plyWait; s.eng.calls.find? (fun e => e.1 == n) = some (n, c) ∧
     c.result = some r ∧ s.ply c.ply = some p ∧ s.watchdogDue p = true) ∧
    (let s : State := { State.reset with eng := { calls := [(3, callDone)], epochs := [(0, 1)] } }; let n := 3; let c := callDone;
     let r := List.replicate 32 1; s.eng.calls.find? (fun e => e.1 == n) = some (n, c) ∧ c.result = some r ∧ s.ply c.ply = none) ∧
    (let s : State := late 400000000 (eng ply0 0 1); let k := 7; let p := ply0; s.ply k = some p ∧
     p.start + s.rd (ENG_LIMITS.ctx_wd p.cluster) * 1000 ≤ s.clk ∧ s.clusterDue p.cluster = false ∧ s.engineDue p.cluster p.slot = false) ∧
    (let s : State := { late 400000000 (eng ply0 0 1) with eng := { (eng ply0 0 1).eng with givenAt := [(0, 1)] } }; let k := 7;
     let p := ply0; s.ply k = some p ∧ p.start + s.rd (ENG_LIMITS.ctx_wd p.cluster) * 1000 ≤ s.clk ∧ s.clusterDue p.cluster = false ∧
     s.engineDue p.cluster p.slot = true) ∧
    (let s : State := { (late 4000000000 (eng ply0 0 1)).wr (ENG_CLSTAT.role_now 0) 0 with eng := { (eng ply0 0 1).eng with queuedAt := [(0, 1)] } };
     let k := 7; let p := ply0; s.ply k = some p ∧ p.start + s.rd (ENG_LIMITS.ctx_wd p.cluster) * 1000 ≤ s.clk ∧
     s.clusterDue p.cluster = true) ∧
    (let s : State := late 400000000 { State.reset with eng := { givenAt := [(64 * 23 + 63, 1)] } }; let c := 23; let slot := 63;
     let t := 0; c < 24 ∧ slot < 64 ∧ Tbl.get 0 s.eng.givenAt (64 * c + slot) = t + 1 ∧ t + s.rd SEAT_WDCFG.eng_wd_us * 1000 ≤ s.clk ∧
     s.clusterDue c = false) ∧
    (let s : State := late 4000000000 { State.reset.wr (ENG_CLSTAT.role_now 23) 1 with eng := { queuedAt := [(7, 1)], givenAt := [(64 * 23 + 63, 1)] } };
     let c := 23; let slot := 63; let t := 0; c < 24 ∧ slot < 64 ∧ Tbl.get 0 s.eng.givenAt (64 * c + slot) = t + 1 ∧
     t + s.rd SEAT_WDCFG.eng_wd_us * 1000 ≤ s.clk ∧ s.clusterDue c = true) ∧
    (let s : State := late 4000000000 { State.reset.wr (ENG_CLSTAT.role_now 23) 0 with eng := { queuedAt := [(6, 1)] } }; let c := 23;
     let q := 0; c < 24 ∧ s.rd (ENG_CLSTAT.role_now c) = 0 ∧ (s.cluster c).resetAt = none ∧ Tbl.get 0 s.eng.queuedAt (2 * (c / 6)) = q + 1 ∧
     max (s.cluster c).progress q + s.rd SEAT_WDCFG.cl_wd_us * 1000 ≤ s.clk) ∧
    (let s : State := late 4000000000 { State.reset.wr (ENG_CLSTAT.role_now 23) 1 with eng := { queuedAt := [(7, 1)] } }; let c := 23;
     let q := 0; c < 24 ∧ s.rd (ENG_CLSTAT.role_now c) = 1 ∧ (s.cluster c).resetAt = none ∧
     Tbl.get 0 s.eng.queuedAt (2 * (c / 6) + 1) = q + 1 ∧ max (s.cluster c).progress q + s.rd SEAT_WDCFG.cl_wd_us * 1000 ≤ s.clk) ∧
    (let s : State := { State.reset with eng := { clusters := [(23, { resetAt := some 0, ended := 3 })] } }; let c := 23; let t := 0;
     (s.cluster c).resetAt = some t) := by
  try dsimp only
  and_intros <;> decide +kernel

theorem witness_ClusterRolesAndSpares_1 :
    (let s : State := ((fdUp.wr (ENG_CLROLE.role 1) 2).wr (ENG_CLROLE.role 2) 2 |>.wr (ENG_CLROLE.role 3) 2 |>.wr (ENG_CLROLE.role 4) 2 |>.wr (ENG_CLROLE.role 5) 2 |>.wr (ENG_CLROLE.role 0) 0);
     let c := 0; let role := 1; FdOpen s ∧ c < 24 ∧ role < 3 ∧ role ≠ s.rd (ENG_CLROLE.role c) ∧ s.lastIngress c = true) ∧
    (let s : State := fdUp.wr (ENG_CLROLE.role 23) 1; let c := 23; let role := 2; FdOpen s ∧ c < 24 ∧ role < 3 ∧
     role ≠ s.rd (ENG_CLROLE.role c) ∧ s.lastIngress c = false ∧ Tbl.get 0 s.res.tests 1 = 0) ∧
    (let s : State := (fdUp.wr (bankState 23 0) 3).wr (bankState 23 1) 2; let c := 23; FdOpen s ∧ c < 24 ∧
     s.rd (ENG_BANKCTL.live_bank c) < 2 ∧ s.rd (bankState c (1 - s.rd (ENG_BANKCTL.live_bank c))) = 2 ∧
     s.rd (bankState c (s.rd (ENG_BANKCTL.live_bank c))) = 3) ∧
    (let s : State := (fdUp.wr (bankState 23 0) 0).wr (bankState 23 1) 2; let c := 23; FdOpen s ∧ c < 24 ∧
     s.rd (ENG_BANKCTL.live_bank c) < 2 ∧ s.rd (bankState c (1 - s.rd (ENG_BANKCTL.live_bank c))) = 2 ∧
     s.rd (bankState c (s.rd (ENG_BANKCTL.live_bank c))) ≠ 3) ∧
    (let s : State := (fdUp.wr (bankState 23 0) 3).wr (bankState 23 1) 1; let c := 23; FdOpen s ∧ c < 24 ∧
     s.rd (bankState c (1 - s.rd (ENG_BANKCTL.live_bank c))) ≠ 2) ∧
    (let s : State := fdUp.wr (ENG_FLTCNT.count 23 9) 5; let c := 23; FdOpen s ∧ s.regsOk = true ∧ c < 24) ∧
    (let s : State := fdUp.wr (ENG_CLSTAT.draining 23) 1; let c := 23; s.bit (ENG_CLSTAT.draining c) = true ∧
     s.pliesOf c (fun _ => true) = 0) ∧
    (let s : State := fdUp.wr (bankState 23 0) 4; let c := 23; s.rd (bankState c 0) = 4 ∧ s.pliesOf c (fun p => p.bank == 0) = 0) ∧
    (let s : State := fdUp.wr (bankState 23 1) 4; let c := 23; s.rd (bankState c 0) ≠ 4 ∧ s.rd (bankState c 1) = 4 ∧
     s.pliesOf c (fun p => p.bank == 1) = 0) := by
  unfold FdOpen Open Reached
  try dsimp only
  and_intros <;> decide +kernel

theorem witness_ClusterRolesAndSpares_2 :
    (let s : State := { State.reset.wr (ENG_SPARES.free 23) 0 with eng := { clusters := [(23, { promoting := [(63, 0)] })] } }; let c := 23;
     let slot := 63; (s.cluster c).promoting.any (fun e => e.1 == slot) = true ∧ s.rd (ENG_SPARES.free c) = 0) ∧
    (let s : State := { State.reset.wr (ENG_SPARES.free 23) 1 with eng := { clusters := [(23, { promoting := [(63, 0)] })] } }; let c := 23;
     let slot := 63; (s.cluster c).promoting.any (fun e => e.1 == slot) = true ∧ let n := 0; s.rd (ENG_SPARES.free c) = n + 1 ∧
     Tbl.get 0 s.res.tests 0 = 0) ∧
    (let s : State := late 10000000000 (State.reset.wr (ENG_SPARES.free 23) 1); let c := 23; let n := 0; c < 24 ∧
     s.rd (ENG_SPARES.free c) = n + 1 ∧ Tbl.get 0 s.eng.spareTest c + 10000000000 ≤ s.clk) := by
  try dsimp only
  and_intros <;> decide +kernel

theorem witness_FlitsInOrderOnce :
    (let s : State := flits true { nextRx := 2 ^ 32 - 1, replay := [{ seq := 2 ^ 32 - 1, control := false, mod := 23, pkt := some {} }], flitWin := [(23, (0, 4))] };
     let ft := true; let seq := 2 ^ 32 - 1; let f := ({ seq := 2 ^ 32 - 1, control := false, mod := 23, pkt := some {} } : Flit);
     (s.dir ft).replay.find? (fun g => g.seq == seq) = some f ∧ s.modState f.mod = 2 ∧ s.bridgeUp = true ∧ Quiet s ft f.mod ∧
     let d := heard s ft f.mod; seq = d.nextRx ∧ seq < 2 ^ 32 ∧ d.reorder = []) ∧
    (let s : State := late 1000000 (flits true { nextRx := 5, replay := [{ seq := 5, control := false, mod := 23, pkt := some {} }], flitWin := [(23, (0, 4))] });
     let ft := true; let seq := 5; let f := ({ seq := 5, control := false, mod := 23, pkt := some {} } : Flit);
     (s.dir ft).replay.find? (fun g => g.seq == seq) = some f ∧ s.modState f.mod = 2 ∧ s.bridgeUp = true ∧ Quiet s ft f.mod ∧
     let d := heard s ft f.mod; seq = d.nextRx ∧ seq < 2 ^ 32 ∧ d.reorder = []) ∧
    (let s : State := flits false { nextRx := 0, replay := [{ seq := 2 ^ 31 - 1, control := false, mod := 23, pkt := some {} }] };
     let ft := false; let seq := 2 ^ 31 - 1; let f := ({ seq := 2 ^ 31 - 1, control := false, mod := 23, pkt := some {} } : Flit);
     (s.dir ft).replay.find? (fun g => g.seq == seq) = some f ∧ s.modState f.mod = 2 ∧ s.bridgeUp = true ∧ Quiet s ft f.mod ∧
     let d := heard s ft f.mod; 0 < seqAhead seq d.nextRx ∧ seqAhead seq d.nextRx < 2 ^ 31 ∧ d.reorder.any (fun g => g.seq == seq) = false ∧
     d.reorder.length < 2048 ∧ (d.reorder ++ [f]).find? (fun g => g.seq == d.nextRx) = none) ∧
    (let s : State := flits false { nextRx := 0, replay := [{ seq := 2 ^ 31, control := false, mod := 23, pkt := some {} }] };
     let ft := false; let seq := 2 ^ 31; let f := ({ seq := 2 ^ 31, control := false, mod := 23, pkt := some {} } : Flit);
     (s.dir ft).replay.find? (fun g => g.seq == seq) = some f ∧ s.modState f.mod = 2 ∧ s.bridgeUp = true ∧ Quiet s ft f.mod ∧
     let d := heard s ft f.mod; 2 ^ 31 ≤ seqAhead seq d.nextRx) ∧
    (let s : State := flits false { nextRx := 0, replay := [{ seq := 0, control := false, mod := 23, pkt := some {} }] }; let ft := false;
     let seq := 0; let f := ({ seq := 0, control := false, mod := 23, pkt := some {} } : Flit);
     (s.dir ft).replay.find? (fun g => g.seq == seq) = some f ∧ s.modState f.mod = 2 ∧ s.bridgeUp = true ∧ Quiet s ft f.mod ∧
     let lane := 67; lane < 68) ∧
    (let s : State := flits true { nextRx := 5, replay := [{ seq := 5, control := false, mod := 23, pkt := some {} }, { seq := 6, control := true, mod := 23, pkt := none }] };
     let ft := true; let f := ({ seq := 5, control := false, mod := 23, pkt := some {} } : Flit);
     let g := ({ seq := 6, control := true, mod := 23, pkt := none } : Flit); (s.dir ft).replay = [f, g] ∧ f.seq < 2 ^ 32 - 1 ∧
     g.seq = f.seq + 1 ∧ (s.dir ft).nextRx = f.seq ∧ (s.dir ft).reorder = [] ∧ f.msg = none ∧ g.msg = none ∧ s.modState f.mod = 2 ∧
     s.modState g.mod = 2 ∧ s.bridgeUp = true ∧ Tbl.risingFrom 0 (s.dir ft).flitWin = true ∧
     (Tbl.get (0, 0) (s.dir ft).flitWin f.mod).1 = s.clk / 1000000 ∧ (Tbl.get (0, 0) (s.dir ft).flitWin g.mod).1 = s.clk / 1000000) := by
  unfold Quiet
  try dsimp only
  and_intros <;> decide +kernel

theorem witness_BridgeFromTrainingToRejoin_1 :
    (let s : State := flits true { nextRx := 1, replay := [{ seq := 0, control := false, mod := 23, pkt := none }, { seq := 1, control := false, mod := 23, pkt := none }] };
     let ft := true; let seq := 0; let i := 0; (s.dir ft).replay.findIdx? (fun f => f.seq == seq) = some i ∧
     0 < seqAhead (s.dir ft).nextRx seq ∧ seqAhead (s.dir ft).nextRx seq < 2 ^ 31) ∧
    (let s : State := late 1000 State.reset; s.dies.ft.winAt + 1000 ≤ s.clk) ∧
    (let s : State := (flits true {}).wr (spares true 23) 3; let ft := true; let m := 23; let lane := 67; m < 24 ∧ lane < 68 ∧
     (s.dir ft).laneBad.contains (68 * m + lane) = false ∧ (s.modState m = 2 ∨ s.modState m = 3)) ∧
    (let s : State := { ((flits true {}).wr (spares true 23) 3).wr (D2D_MODSTAT.state 23) 3 with dies := { mods := [(23, { fixing := [(0, 5)] })] } };
     let ft := true; let m := 23; let lane := 67; m < 24 ∧ lane < 68 ∧ (s.dir ft).laneBad.contains (68 * m + lane) = false ∧
     (s.modState m = 2 ∨ s.modState m = 3)) ∧
    (let s : State := (flits false {}).wr (spares false 23) 4; let ft := false; let m := 23; let lane := 67; m < 24 ∧ lane < 68 ∧
     (s.dir ft).laneBad.contains (68 * m + lane) = false ∧ (s.modState m = 2 ∨ s.modState m = 3)) ∧
    (let s : State := { State.reset.wr (D2D_MODSTAT.state 23) 3 with dies := { mods := [(23, { fixing := [(1, 67), (0, 3)] })] } };
     let m := 23; m < 24 ∧ s.modState m = 3) ∧
    (let s : State := State.reset.wr (D2D_MODSTAT.state 23) 1; let m := 23; m < 24 ∧ s.modState m = 1) ∧
    (let s : State := { State.reset.wr (D2D_MODSTAT.state 23) 1 with dies := { mods := [(23, { attempts := 1 })] } }; let m := 23; m < 24 ∧
     s.modState m = 1 ∧ (s.modul m).attempts < 2) ∧
    (let s : State := { State.reset.wr (D2D_MODSTAT.state 23) 1 with dies := { mods := [(23, { attempts := 2 })] } }; let m := 23; m < 24 ∧
     s.modState m = 1 ∧ 2 ≤ (s.modul m).attempts) := by
  try dsimp only
  and_intros <;> decide +kernel

theorem witness_BridgeFromTrainingToRejoin_2 :
    (let s : State := late 1000 (flits true {}); let ft := true; let m := 23; m < 24 ∧ s.modState m = 2 ∧ s.bridgeUp = true ∧
     Tbl.get 0 (s.dir ft).sentAt m + 1000 ≤ s.clk) ∧
    (let s : State := late 100000 (flits false {}); let td := false; s.bit GEN_BOOTSTAT.ready = true ∧ s.bridgeUp = true ∧
     (s.dir td).heardAt + s.rd D2D_CFG.ka_us * 1000 ≤ s.clk) ∧
    (let s : State := late 100000000 { up.wr D2D_STAT.bridge 1 with res := { holdAt := some 0 } }; let t := 0; s.res.holdAt = some t ∧
     s.bridgeUp = false ∧ t + s.rd D2D_ISLCFG.voq_hold_ms * 1000000 ≤ s.clk) ∧
    (let s : State := late 1000000000 ((up.wr D2D_CFG.auto_rejoin 1).wr D2D_STAT.bridge 1); s.bit D2D_CFG.auto_rejoin = true ∧
     s.rd D2D_STAT.bridge = 1 ∧ max s.res.autoAt s.res.lostAt + 1000000000 ≤ s.clk) ∧
    (let s : State := up; let m := 255; Open s ∧ m < 256 ∧ s.bit D2D_CTL.retrain = false) ∧
    (let s : State := { (flits true {}).wr D2D_CFG.min_modules 1 with res := { rejoin := 2 } }; s.res.rejoin = 2 ∧
     (∀ m, m < 24 → s.modState m ≠ 1) ∧ s.rd D2D_CFG.min_modules ≤ s.activeMods.length) ∧
    (let s : State := { (flits true {}).wr D2D_CFG.min_modules 2 with res := { rejoin := 2 } }; s.res.rejoin = 2 ∧
     (∀ m, m < 24 → s.modState m ≠ 1) ∧ s.activeMods.length < s.rd D2D_CFG.min_modules) ∧
    (let s : State := { up with res := { rejoin := 3 } }; s.res.rejoin = 3) ∧
    (let s : State := { up with res := { rejoin := 4 } }; s.res.rejoin = 4) := by
  unfold Open Reached
  try dsimp only
  and_intros <;> (first
    | decide +kernel | exact fun _ h1 h2 => absurd (Nat.lt_of_lt_of_le h1 h2) (by decide +kernel) | exact fun _ _ => rfl
    | (intro _ h; cases h; done) | (intro _ h; cases h; decide +kernel) | exact .inl (by decide +kernel) | exact .inr (.inl (by decide +kernel))
    | (simp only [← List.mem_range]; decide +kernel) | exact ⟨0, by decide +kernel⟩ | exact ⟨7, by decide +kernel⟩)

theorem witness_SidebandAndFeeds :
    (let s : State := late 10000 State.reset; s.dies.hbFdSent + 10000 ≤ s.clk ∧ s.dies.toTd.length < 8) ∧
    (let s : State := late 10000 State.reset; s.dies.hbTdSent + 10000 ≤ s.clk ∧ s.dies.toFd.length < 8) ∧
    (let s : State := late 50000 { State.reset.wr D2D_STAT.sideband_up 1 with dies := { hbFd := 1 } }; s.rd D2D_STAT.sideband_up = 1 ∧
     (s.dies.hbFd + 50000 ≤ s.clk ∨ s.dies.hbTd + 50000 ≤ s.clk)) ∧
    (let s : State := late 1000000 { State.reset with dies := { sbLost := true } }; s.dies.sbLost = true ∧
     s.dies.sbTrained + 1000000 ≤ s.clk) ∧
    (let s : State := late 1000000 { State.reset with dies := { sbLost := true, hbSince := some 0 } }; let t := 0; s.dies.sbLost = true ∧
     s.dies.hbSince = some t ∧ t + 1000000 ≤ s.clk) ∧
    (let s : State := { State.reset.wr D2D_STAT.sideband_up 1 with dies := { toFd := [.write 9 0x80030 255 17 false], tags := [(9, 4)] } };
     let tag := 9; let a := 0x80030; let mask := 255; let v := 17; let rest := ([] : List SbMsg);
     s.dies.toFd = .write tag a mask v false :: rest ∧ s.bit D2D_STAT.sideband_up = true) ∧
    (let s : State := { State.reset.wr D2D_STAT.sideband_up 1 with dies := { toFd := [.write 9 0x80030 255 17 false], tags := [(8, 0)] } };
     let tag := 9; let a := 0x80030; let mask := 255; let v := 17; let rest := ([] : List SbMsg);
     s.dies.toFd = .write tag a mask v false :: rest ∧ s.bit D2D_STAT.sideband_up = true ∧ s.dies.tags.find? (fun e => e.1 == tag) = none) ∧
    (let s : State := { State.reset.wr D2D_STAT.sideband_up 1 with dies := { toFd := [.write 9 0x80030 255 17 false], tags := [(9, 4)] } };
     let tag := 9; let a := 0x80030; let mask := 255; let v := 17; let rest := ([] : List SbMsg);
     s.dies.toFd = .write tag a mask v false :: rest ∧ s.bit D2D_STAT.sideband_up = true ∧ let r := 4;
     s.dies.tags.find? (fun e => e.1 == tag) = some (tag, r)) ∧
    (let s : State := { State.reset.wr D2D_STAT.sideband_up 1 with dies := { toFd := [.read 9 0x80020 false 2] }, readData := 7 };
     let tag := 9; let a := 0x80020; let part := 2; let rest := ([] : List SbMsg); s.dies.toFd = .read tag a false part :: rest ∧
     s.bit D2D_STAT.sideband_up = true ∧ s.dies.tags.find? (fun e => e.1 == tag) = none) ∧
    (let s : State := { State.reset with dies := { toTd := [.heartbeat] } }; let rest := ([] : List SbMsg);
     s.dies.toTd = .heartbeat :: rest) ∧
    (let s : State := State.reset; s.dies.feedA = true ∧ s.dies.feedB = true) := by
  try dsimp only
  and_intros <;> decide +kernel

/-! ### 03_lookup.md and 04_learning.md -/

/-- A presented call of an accelerator of pipe 0, and the tables it searches. -/
def call0 (accel select : Nat) (key : List Nat) : Call :=
  { ply := 7, cluster := 0, slot := 0, epoch := 0, tag := 2, accel := accel, select := select, key := key, pipe := 0, length := 64,
    result := none, tail := false }
def asked (c : Call) (l : Lkp) (s : State) : State := { s with eng := { calls := [(3, c)] }, lkp := l }

/-- A FIB call for 10.1.2.3 in VRF 0; entries of length 8 and 32 that cover it. -/
def fibKey0 : List Nat := [0, 0, 4, 0, 10, 1, 2, 3]
def addr0 : Nat := 0x0A010203 * 2 ^ 96
def fib32 (tailed : Bool) : Lkp := { fib := [(fibKey 0 0 32 addr0, some ⟨List.replicate 16 7, tailed⟩)] }
def route0 (tailed : Bool) : FibEnt := ⟨List.replicate 16 7, tailed⟩

/-- An 8-byte key of exact-match table 1, of 1,024 buckets, and an entry of it in its bucket or in the overflow store of pipe 0. -/
def em1 (s : State) : State := (s.wr (LKP_EMCFG.enable 1) 1).wr (LKP_EMCFG.bucket_bits 1) 10
def emKey0 : List Nat := [0, 9, 1, 2, 3, 4, 5, 6]
def emEnt0 (data : List Nat) : EmEnt := { table := 1, key := emKey0, data := data }
def emIn (data : List Nat) (s : State) : State :=
  { s with lkp := { s.lkp with em := [(4 * s.emBucket 1 0 emKey0 + 3, some (emEnt0 data))] } }
def badIn (data : List Nat) (s : State) : State :=
  { emIn data s with lkp := { (emIn data s).lkp with eccUnc := [(1, 4 * s.emBucket 1 0 emKey0 + 3)] } }
def emOver (data : List Nat) (s : State) : State :=
  { s with lkp := { s.lkp with ovf := [(0, [{ ent := emEnt0 data, bucket := s.emBucket 1 0 emKey0, serial := 5 }])] } }

/-- Table 1 is the bridge table. -/
def bridging (s : State) : State := ((em1 s).wr BRG_CFG.enable 1).wr BRG_CFG.table 1

/-- A descriptor of ring 3: its opcode, and operand bytes by their first byte, count and value (little-endian). -/
def desc (op : Nat) (l : List (Nat × Nat × Nat)) : List Nat :=
  (List.range 64).map (fun i => if i = 0 then op else
    match l.find? (fun e => e.1 ≤ i && i < e.1 + e.2.1) with
    | some e => e.2.2 / 256 ^ (i - e.1) % 256
    | none => 0)
def taken (op : Nat) (l : List (Nat × Nat × Nat)) : Taken := { desc := desc op l, index := 0, st := .running, progress := 0 }

/-- The executor runs it: bridge and host link are up. -/
def running (t : Taken) (s : State) : State :=
  { ((s.wr D2D_STAT.bridge 0).wr (D2D_MODSTAT.state 23) 2).wr HIF_LINKSTAT.up 1 with hif := { exec := some 3, rings := [(3, { st := .running, kind := 1, taken := some t })] } }

/-- Bridge data of a learned entry: port, and byte 2 with its age. -/
def brgData (port flags : Nat) : List Nat := beBytes 2 port ++ [flags] ++ List.replicate 13 0

/-- An 8-byte ternary key and the last entry, of profile 7. -/
def terKey0 : List Nat := [5, 0, 0, 0, 0, 0, 0, 0]
def terEnt0 : TerEnt := ⟨7, [5], [255], 0, [1]⟩
def ter7 (l : Tbl (Option TerEnt)) : State :=
  asked (call0 2 7 terKey0) { ter := l } ((up.wr (LKP_TERPROF.enable 7) 1).wr (LKP_TERPROF.width 7) 1)

theorem ter7_one (j : Nat) (x : TerEnt) (h : (ter7 [(131071, some terEnt0)]).terAt j = some x) : j = 131071 ∧ x = terEnt0 := by
  have e : (ter7 [(131071, some terEnt0)]).terAt j = if j = 131071 then some terEnt0 else none := by
    unfold State.terAt ter7 asked Tbl.get
    by_cases h : j = 131071
    · subst h; rfl
    · simp [Tbl.get, h, Ne.symm h]
  rw [e] at h
  split at h
  · exact ⟨‹_›, (Option.some.inj h).symm⟩
  · exact nomatch h

theorem terKey0_agrees : maskAgrees terKey0 terEnt0.value terEnt0.mask := by
  intro i k v m hk hv hm n _
  match i with
  | 0 => cases hk; cases hv; rfl
  | i + 1 => simp [terEnt0] at hv

theorem witness_TerLowestPriority :
    (let s := ter7 [(131071, some terEnt0)]
     Tbl.risingFrom 0 s.lkp.ter = true ∧ Asks s 2 3 (call0 2 7 terKey0) ∧ s.terAt 131071 = some terEnt0 ∧ terEnt0.profile = 7 ∧
     maskAgrees terKey0 terEnt0.value terEnt0.mask ∧ (3, 131071) ∉ s.lkp.eccUnc ∧
     (∀ j x, s.terAt j = some x → x.profile = 7 → maskAgrees terKey0 x.value x.mask →
       terEnt0.prio < x.prio ∨ (terEnt0.prio = x.prio ∧ 131071 ≤ j))) ∧
    (let s := ter7 []
     Tbl.risingFrom 0 s.lkp.ter = true ∧ Asks s 2 3 (call0 2 7 terKey0) ∧
     (∀ j x, s.terAt j = some x → x.profile = 7 → ¬ maskAgrees terKey0 x.value x.mask)) := by
  dsimp only
  refine ⟨⟨?_, ?_, ?_, ?_, terKey0_agrees, ?_, ?_⟩, ?_, ?_, ?_⟩
  case refine_6 =>
    intro j x h _ _
    obtain ⟨rfl, rfl⟩ := ter7_one j x h
    exact .inr ⟨rfl, Nat.le_refl _⟩
  case refine_9 => exact fun j x h => nomatch h
  all_goals (first | unfold Asks | skip) <;> decide +kernel

/-- A FIB whose prefixes take 4,194,305 units: one more than a hot region of 2,097,152 units leaves. -/
def bigFib (s : State) : State := { s with lkp := { fib := List.replicate 4194305 (0, some (route0 false)) } }

theorem foldl_units (n a : Nat) :
    (List.replicate n ((0 : Nat), some (route0 false))).foldl (fun a e => a + fibUnits e.1) a = a + n := by
  induction n generalizing a with
  | zero => rfl
  | succ n ih => rw [List.replicate_succ, List.foldl_cons, ih]; show a + 1 + n = _; omega

theorem threshold_rd (s : State) (i used limit u d n : Nat) {f : Fld} (hf : f.key ≠ (HIF_EVLOST.count 2).key) :
    (s.threshold i used limit u d (fun s x => s.post 0x0204 ([i, x, 0, 0] ++ leBytes 4 n))).rd f = s.rd f := by
  unfold State.threshold
  split
  · split
    · exact State.postRec_rd _ _ _ _ hf
    · rfl
  · split
    · exact State.postRec_rd _ _ _ _ hf
    · rfl

theorem fibCount_rd (s : State) {f : Fld} (h0 : f.key ≠ (HIF_EVLOST.count 2).key) (h1 : f.key ≠ LKP_FIBCOUNT.prefixes.key)
    (h2 : f.key ≠ LKP_FIBTAILED.prefixes.key) (h3 : f.key ≠ LKP_HOTSTAT.units.key) :
    s.fibCount.rd f = (s.wr LKP_FIBUSE.units ((s.lkp.fib.filter (fun e => !(match e.2 with
      | some x => x.tailed
      | none => false))).foldl (fun a e => a + fibUnits e.1) 0)).rd f := by
  unfold State.fibCount
  rw [threshold_rd _ _ _ _ _ _ _ h0, threshold_rd _ _ _ _ _ _ _ h0, State.rd_wr_ne _ _ h3, State.rd_wr_ne _ _ h2, State.rd_wr_ne _ _ h1]
  first | done | rfl

theorem bigFib_units {s : State} (h : s.regsOk = true) (hf : s.lkp.fib = List.replicate 4194305 (0, some (route0 false))) :
    s.fibCount.rd LKP_FIBUSE.units = 4194305 := by
  rw [fibCount_rd _ (by decide) (by decide) (by decide) (by decide), State.rd_wr_self h, hf,
    List.filter_replicate_of_pos (by rfl), foldl_units]
  decide

/-- The two clauses of a hot region that does not fit: with the Extended FIB, and without. -/
theorem witness_ExtendedFib_hot_units : ∀ e ∈ [0, 1], let s := bigFib (fdUp.wr LKP_XFIBCFG.enable e)
    let u := (crossed s).fibCount
    FdOpen s ∧ s.lkp.hot = [] ∧ s.lkp.hotWork = [] ∧ 6291456 - 2097152 < u.rd LKP_FIBUSE.units ∧
      u.bit LKP_XFIBCFG.enable = decide (e = 1) := by
  intro e he
  dsimp only
  refine ⟨?_, rfl, rfl, ?_, ?_⟩
  · unfold FdOpen Open Reached
    revert e; decide +kernel
  · have h := bigFib_units (s := crossed (bigFib (fdUp.wr LKP_XFIBCFG.enable e))) (State.wr_regsOk (by decide +kernel) _ _) rfl
    exact Nat.lt_of_lt_of_eq (by decide) h.symm
  · unfold State.bit
    rw [fibCount_rd _ (by decide) (by decide) (by decide) (by decide), State.rd_wr_ne _ _ (by decide)]
    change ((fdUp.wr LKP_XFIBCFG.enable e).rd LKP_XFIBCFG.enable != 0) = _
    revert e; decide +kernel

/-- A FIB that no longer fits on die: the Extended FIB is not disabled. -/
theorem witness_ExtendedFib_disable : let s := bigFib ((fdUp.wr LKP_XFIBCFG.enable 1).wr LKP_FIBCFG.hot_units 2097152)
    FdOpen s ∧ s.regsOk = true ∧ s.rd LKP_XFIBCFG.enable = 1 ∧ s.lkp.xfibOff = false ∧ s.lkp.xfibDown = false ∧
      s.placement < s.lkp.fib.foldl (fun a e => a + fibUnits e.1) 0 := by
  dsimp only
  refine ⟨?_, ?_, ?_, rfl, rfl, ?_⟩
  · unfold FdOpen Open Reached; decide +kernel
  · decide +kernel
  · decide +kernel
  · refine Nat.lt_of_lt_of_eq (?_ : _ < 0 + 4194305) (foldl_units 4194305 0).symm
    decide +kernel

theorem witness_FibReturnsLongestPrefix :
    (let s0 := asked (call0 0 0 fibKey0) (fib32 false) up; let ups := ([] : List (Nat × Nat × Bool)); let call := 3;
     let c := call0 0 0 fibKey0; let vrf := 0; let fam6 := 0; let v := addr0; let s := s0.upset ups; s.presented call 0 = some c ∧
     fibCallKey c = .inr (vrf, fam6, v) ∧ s.tailRoot vrf fam6 v = none ∧ let l := 32; let e := route0 false; Longest s vrf fam6 v l e) ∧
    (let s0 := asked (call0 0 0 fibKey0) (fib32 false) up; let ups := [(0, fibKey 0 0 32 addr0, false), (1, 5, true)]; let call := 3;
     let c := call0 0 0 fibKey0; let vrf := 0; let fam6 := 0; let v := addr0; let s := s0.upset ups; s.presented call 0 = some c ∧
     fibCallKey c = .inr (vrf, fam6, v) ∧ s.tailRoot vrf fam6 v = none ∧ let l := 32; let e := route0 false; Longest s vrf fam6 v l e) ∧
    (let s0 := asked (call0 0 0 fibKey0) {} up; let ups := ([] : List (Nat × Nat × Bool)); let call := 3; let c := call0 0 0 fibKey0;
     let vrf := 0; let fam6 := 0; let v := addr0; let s := s0.upset ups; s.presented call 0 = some c ∧ fibCallKey c = .inr (vrf, fam6, v) ∧
     s.tailRoot vrf fam6 v = none ∧ (∀ l, l ≤ maxLen fam6 → s.fibAt (fibKey vrf fam6 l v) = none)) ∧
    (let s0 := asked (call0 0 0 fibKey0) { fib32 true with hot := [(fibKey 0 0 32 addr0, 1)] } up;
     let ups := ([] : List (Nat × Nat × Bool)); let call := 3; let c := call0 0 0 fibKey0; let vrf := 0; let fam6 := 0; let v := addr0;
     let r := fibKey 0 0 32 addr0; let s := s0.upset ups; s.presented call 0 = some c ∧ fibCallKey c = .inr (vrf, fam6, v) ∧
     s.tailRoot vrf fam6 v = some r ∧ let l := 32; let e := route0 true; s.lkp.hot.any (fun x => x.1 == r) = true ∧
     Longest s vrf fam6 v l e) ∧
    (let s0 := asked (call0 0 1 fibKey0) (fib32 true) up; let ups := ([] : List (Nat × Nat × Bool)); let call := 3;
     let c := call0 0 1 fibKey0; let vrf := 0; let fam6 := 0; let v := addr0; let r := fibKey 0 0 32 addr0; let s := s0.upset ups;
     s.presented call 0 = some c ∧ fibCallKey c = .inr (vrf, fam6, v) ∧ s.tailRoot vrf fam6 v = some r ∧
     s.lkp.hot.any (fun x => x.1 == r) = false ∧ c.select = 1) ∧
    (let s0 := asked (call0 0 0 fibKey0) { fib32 true with xfibDown := true } up; let ups := ([] : List (Nat × Nat × Bool)); let call := 3;
     let c := call0 0 0 fibKey0; let vrf := 0; let fam6 := 0; let v := addr0; let r := fibKey 0 0 32 addr0; let s := s0.upset ups;
     s.presented call 0 = some c ∧ fibCallKey c = .inr (vrf, fam6, v) ∧ s.tailRoot vrf fam6 v = some r ∧
     s.lkp.hot.any (fun x => x.1 == r) = false ∧ c.select ≠ 1 ∧ s.lkp.xfibDown = true) ∧
    (let s0 := asked (call0 0 0 fibKey0) (fib32 true) (up.wr LKP_TAILCFG.depth 0); let ups := ([] : List (Nat × Nat × Bool)); let call := 3;
     let c := call0 0 0 fibKey0; let vrf := 0; let fam6 := 0; let v := addr0; let r := fibKey 0 0 32 addr0; let s := s0.upset ups;
     s.presented call 0 = some c ∧ fibCallKey c = .inr (vrf, fam6, v) ∧ s.tailRoot vrf fam6 v = some r ∧
     s.lkp.hot.any (fun x => x.1 == r) = false ∧ c.select ≠ 1 ∧ s.lkp.xfibDown = false ∧
     s.rd LKP_TAILCFG.depth ≤ (Tbl.get [] s.lkp.tailQ c.pipe).length) ∧
    (let s0 := asked (call0 0 0 fibKey0) (fib32 true) (up.wr LKP_TAILCFG.depth 1); let ups := ([] : List (Nat × Nat × Bool)); let call := 3;
     let c := call0 0 0 fibKey0; let vrf := 0; let fam6 := 0; let v := addr0; let r := fibKey 0 0 32 addr0; let s := s0.upset ups;
     s.presented call 0 = some c ∧ fibCallKey c = .inr (vrf, fam6, v) ∧ s.tailRoot vrf fam6 v = some r ∧
     s.lkp.hot.any (fun x => x.1 == r) = false ∧ c.select ≠ 1 ∧ s.lkp.xfibDown = false ∧
     (Tbl.get [] s.lkp.tailQ c.pipe).length < s.rd LKP_TAILCFG.depth) ∧
    (let s0 := asked { call0 0 0 fibKey0 with tail := true } { fib32 true with xfibDown := true, tailQ := [(0, [3])] } up;
     let ups := ([] : List (Nat × Nat × Bool)); let pipe := 0; let call := 3; let rest := ([] : List Nat);
     let c := { call0 0 0 fibKey0 with tail := true }; let vrf := 0; let fam6 := 0; let v := addr0; let s := s0.upset ups;
     Tbl.get [] s.lkp.tailQ pipe = call :: rest ∧ s.callAt call = some c ∧ fibCallKey c = .inr (vrf, fam6, v) ∧ s.lkp.xfibDown = true) ∧
    (let s0 := asked { call0 0 0 fibKey0 with tail := true } { fib32 true with tailQ := [(0, [3])] } up;
     let ups := ([] : List (Nat × Nat × Bool)); let pipe := 0; let call := 3; let rest := ([] : List Nat);
     let c := { call0 0 0 fibKey0 with tail := true }; let vrf := 0; let fam6 := 0; let v := addr0; let s := s0.upset ups;
     Tbl.get [] s.lkp.tailQ pipe = call :: rest ∧ s.callAt call = some c ∧ fibCallKey c = .inr (vrf, fam6, v) ∧ let l := 32;
     let e := route0 true; s.lkp.xfibDown = false ∧ Longest s vrf fam6 v l e) ∧
    (let s0 := asked { call0 0 0 fibKey0 with tail := true } { tailQ := [(0, [3])] } up; let ups := ([] : List (Nat × Nat × Bool));
     let pipe := 0; let call := 3; let rest := ([] : List Nat); let c := { call0 0 0 fibKey0 with tail := true }; let vrf := 0;
     let fam6 := 0; let v := addr0; let s := s0.upset ups; Tbl.get [] s.lkp.tailQ pipe = call :: rest ∧ s.callAt call = some c ∧
     fibCallKey c = .inr (vrf, fam6, v) ∧ s.lkp.xfibDown = false ∧ (∀ l, l ≤ maxLen fam6 → s.fibAt (fibKey vrf fam6 l v) = none)) ∧
    (let s0 := asked (call0 0 2 fibKey0) {} up; let ups := ([] : List (Nat × Nat × Bool)); let call := 3; let c := call0 0 2 fibKey0;
     let e := rSELECT; let s := s0.upset ups; s.presented call 0 = some c ∧ fibCallKey c = .inl e) ∧
    (let l := 128; let v := 2 ^ 128 - 1; let w := 2 ^ 128 - 1; l ≤ 128 ∧ v < 2 ^ 128 ∧ w < 2 ^ 128) ∧
    (let vrf := 1; let vrf' := 1; let fam6 := 1; let fam6' := 1; let l := 128; let l' := 128; let v := 2 ^ 128 - 1; let w := 2 ^ 128 - 1;
     fam6 < 2 ∧ fam6' < 2 ∧ l ≤ 128 ∧ l' ≤ 128 ∧ v < 2 ^ 128 ∧ w < 2 ^ 128 ∧ fibKey vrf fam6 l v = fibKey vrf' fam6' l' w) := by
  unfold Longest
  try dsimp only
  and_intros <;> (first
    | decide +kernel | exact fun _ h1 h2 => absurd (Nat.lt_of_lt_of_le h1 h2) (by decide +kernel) | exact fun _ _ => rfl
    | (intro _ h; cases h; done) | (intro _ h; cases h; decide +kernel) | exact .inl (by decide +kernel) | exact .inr (.inl (by decide +kernel))
    | (simp only [← List.mem_range]; decide +kernel) | exact ⟨0, by decide +kernel⟩ | exact ⟨7, by decide +kernel⟩)

theorem witness_TableCalls :
    (let s0 := asked (call0 1 1 emKey0) {} (em1 up); let ups := [(1, 4 * (em1 up).emBucket 1 0 emKey0 + 3, true)]; let call := 3;
     let c := call0 1 1 emKey0; let s := s0.upset ups; Asks s 1 call c ∧ s.rd (LKP_EMCFG.enable c.select) ≠ 0 ∧
     let ws := s.emWords c.select c.pipe c.key; s.touchBad ws = true) ∧
    (let s0 := asked (call0 1 1 emKey0) {} (em1 up); let ups := ([] : List (Nat × Nat × Bool)); let call := 3; let c := call0 1 1 emKey0;
     let s := s0.upset ups; Asks s 1 call c ∧ s.rd (LKP_EMCFG.enable c.select) ≠ 0 ∧ let ws := s.emWords c.select c.pipe c.key;
     s.touchBad ws = false ∧ s.emFind c.select c.pipe c.key = none) ∧
    (let s0 := emIn (List.replicate 16 1) (asked (call0 1 1 emKey0) {} (em1 up)); let ups := ([] : List (Nat × Nat × Bool)); let call := 3;
     let c := call0 1 1 emKey0; let s := s0.upset ups; Asks s 1 call c ∧ s.rd (LKP_EMCFG.enable c.select) ≠ 0 ∧
     let ws := s.emWords c.select c.pipe c.key; let e := emEnt0 (List.replicate 16 1); let b := (em1 up).emBucket 1 0 emKey0; let ps := [3];
     s.touchBad ws = false ∧ s.emFind c.select c.pipe c.key = some (e, .bucket b ps)) ∧
    (let s0 := emOver (List.replicate 16 1) (asked (call0 1 1 emKey0) {} (em1 up)); let ups := [(2, 5, false)]; let call := 3;
     let c := call0 1 1 emKey0; let s := s0.upset ups; Asks s 1 call c ∧ s.rd (LKP_EMCFG.enable c.select) ≠ 0 ∧
     let ws := s.emWords c.select c.pipe c.key; let e := emEnt0 (List.replicate 16 1); let n := 5; let b := (em1 up).emBucket 1 0 emKey0;
     s.touchBad ws = false ∧ s.emFind c.select c.pipe c.key = some (e, .overflow n b)) ∧
    (let s0 := asked (call0 5 0 [0, 0, 0, 0, 0, 0x1F, 255, 255]) {} up; let ups := [(4, 2097151, true)]; let call := 3;
     let c := call0 5 0 [0, 0, 0, 0, 0, 0x1F, 255, 255]; let s := s0.upset ups; s.presented call 5 = some c ∧ c.select = 0 ∧
     c.key.length = 8 ∧ let i := bitsAt (beNat c.key) 0 21; (4, i) ∈ s.lkp.eccUnc) ∧
    (let s0 := asked (call0 5 0 [0, 0, 0, 0, 0, 0x1F, 255, 255]) {} up; let ups := ([] : List (Nat × Nat × Bool)); let call := 3;
     let c := call0 5 0 [0, 0, 0, 0, 0, 0x1F, 255, 255]; let s := s0.upset ups; s.presented call 5 = some c ∧ c.select = 0 ∧
     c.key.length = 8 ∧ let i := bitsAt (beNat c.key) 0 21; (4, i) ∉ s.lkp.eccUnc ∧ (s.adjAt i).st = .free ∧ (s.adjAt i).gone = none) ∧
    (let s0 := asked { call0 5 0 [0, 0, 0, 0, 0, 0x1F, 255, 255] with at_ := 10 } { adj := [(2097151, { gone := some (9, [1]), version := 2 })] } up;
     let ups := ([] : List (Nat × Nat × Bool)); let call := 3; let c := { call0 5 0 [0, 0, 0, 0, 0, 0x1F, 255, 255] with at_ := 10 };
     let s := s0.upset ups; s.presented call 5 = some c ∧ c.select = 0 ∧ c.key.length = 8 ∧ let i := bitsAt (beNat c.key) 0 21;
     (4, i) ∉ s.lkp.eccUnc ∧ let t := 9; let d := [1]; (s.adjAt i).st = .free ∧ (s.adjAt i).gone = some (t, d) ∧ t < c.at_) ∧
    (let s0 := asked { call0 5 0 [0, 0, 0, 0, 0, 0x1F, 255, 255] with at_ := 9 } { adj := [(2097151, { gone := some (9, [1]), version := 2 })] } up;
     let ups := ([] : List (Nat × Nat × Bool)); let call := 3; let c := { call0 5 0 [0, 0, 0, 0, 0, 0x1F, 255, 255] with at_ := 9 };
     let s := s0.upset ups; s.presented call 5 = some c ∧ c.select = 0 ∧ c.key.length = 8 ∧ let i := bitsAt (beNat c.key) 0 21;
     (4, i) ∉ s.lkp.eccUnc ∧ let t := 9; let d := [1]; (s.adjAt i).st = .free ∧ (s.adjAt i).gone = some (t, d) ∧ c.at_ ≤ t) ∧
    (let s0 := asked (call0 5 0 [0, 0, 0, 0, 0, 0x1F, 255, 255]) { adj := [(2097151, { st := .valid })] } up;
     let ups := ([] : List (Nat × Nat × Bool)); let call := 3; let c := call0 5 0 [0, 0, 0, 0, 0, 0x1F, 255, 255]; let s := s0.upset ups;
     s.presented call 5 = some c ∧ c.select = 0 ∧ c.key.length = 8 ∧ let i := bitsAt (beNat c.key) 0 21; (4, i) ∉ s.lkp.eccUnc ∧
     (s.adjAt i).st = .valid) ∧
    (let s0 := asked (call0 5 0 [0, 0, 0, 0, 0, 0x1F, 255, 255]) { adj := [(2097151, { st := .retiring })] } up;
     let ups := ([] : List (Nat × Nat × Bool)); let call := 3; let c := call0 5 0 [0, 0, 0, 0, 0, 0x1F, 255, 255]; let s := s0.upset ups;
     s.presented call 5 = some c ∧ c.select = 0 ∧ c.key.length = 8 ∧ let i := bitsAt (beNat c.key) 0 21; (4, i) ∉ s.lkp.eccUnc ∧
     (s.adjAt i).st = .retiring) ∧
    (let s : State := asked (call0 4 0 emKey0) {} up; let call := 3; let c := call0 4 0 emKey0; s.presented call 4 = some c ∧
     c.key.length = 8 ∧ c.select = 0) ∧
    (let s : State := asked (call0 4 1 emKey0) {} up; let call := 3; let c := call0 4 1 emKey0; s.presented call 4 = some c ∧
     (c.key.length ≠ 8 ∨ c.select ≠ 0)) ∧
    (let s : State := asked (call0 4 0 []) {} up; let call := 3; let c := call0 4 0 []; s.presented call 4 = some c ∧
     (c.key.length ≠ 8 ∨ c.select ≠ 0)) ∧
    (let s0 := asked { call0 1 1 [] with err := some rADDRESS } {} up; let ups := ([] : List (Nat × Nat × Bool)); let call := 3;
     let c := { call0 1 1 [] with err := some rADDRESS }; let s := s0.upset ups; let r := rADDRESS; s.presented call 1 = some c ∧
     c.err = some r) ∧
    (let s0 := asked (call0 1 1 emKey0) {} up; let ups := ([] : List (Nat × Nat × Bool)); let call := 3; let c := call0 1 1 emKey0;
     let s := s0.upset ups; Asks s 1 call c ∧ s.rd (LKP_EMCFG.enable c.select) = 0) ∧
    (let s0 := asked { call0 2 1 [] with err := some rADDRESS } {} up; let ups := ([] : List (Nat × Nat × Bool)); let call := 3;
     let c := { call0 2 1 [] with err := some rADDRESS }; let s := s0.upset ups; let r := rADDRESS; s.presented call 2 = some c ∧
     c.err = some r) ∧
    (let s0 := asked (call0 5 1 []) {} up; let ups := ([] : List (Nat × Nat × Bool)); let call := 3; let c := call0 5 1 [];
     let s := s0.upset ups; s.presented call 5 = some c ∧ c.key = []) ∧
    (let s0 := asked (call0 5 1 emKey0) {} up; let ups := ([] : List (Nat × Nat × Bool)); let call := 3; let c := call0 5 1 emKey0;
     let s := s0.upset ups; s.presented call 5 = some c ∧ c.key ≠ [] ∧ c.select ≠ 0) ∧
    (let s0 := asked (call0 5 0 [1]) {} up; let ups := ([] : List (Nat × Nat × Bool)); let call := 3; let c := call0 5 0 [1];
     let s := s0.upset ups; s.presented call 5 = some c ∧ c.key ≠ [] ∧ c.select = 0 ∧ c.key.length ≠ 8) ∧
    (let key := ([] : List Nat); key = []) ∧
    (let s : State := up; let select := 7; let key := [1]; key ≠ [] ∧ s.rd (LKP_EMCFG.enable select) ≠ 1) ∧
    (let s : State := up; let select := 7; let key := [1]; key ≠ [] ∧ (8 ≤ select ∨ s.rd (LKP_TERPROF.enable select) ≠ 1)) ∧
    (let s : State := up; let select := 7; let key := [1]; key ≠ [] ∧ s.bridgeTable ≠ some select) ∧
    (let s : State := em1 up; let select := 1; let key := [1]; key ≠ [] ∧ key.length ≠ s.emKeyBytes select ∧
     s.rd (LKP_EMCFG.enable select) = 1) := by
  unfold Asks
  try dsimp only
  and_intros <;> decide +kernel

theorem witness_BridgingAndAging :
    (let s0 := late 9 (badIn (brgData 2 48) (asked (call0 6 1 ([0, 9, 1, 2, 3, 4, 5, 7] ++ emKey0.drop 2 ++ [0, 2])) {} (bridging up)));
     let ups := ([] : List (Nat × Nat × Bool)); let call := 3; let c := call0 6 1 ([0, 9, 1, 2, 3, 4, 5, 7] ++ emKey0.drop 2 ++ [0, 2]);
     let s := s0.upset ups; Asks s 6 call c ∧ s.sightTurn c = true ∧ s.rd (LKP_EMCFG.enable c.select) ≠ 0 ∧
     let ws := s.emWords c.select c.pipe (sliceB c.key 0 2 ++ sliceB c.key 8 6); s.touchBad ws = true) ∧
    (let s0 := late 9 (badIn (brgData 2 48) (asked (call0 6 1 (emKey0 ++ [1, 2, 3, 4, 5, 7, 0, 2])) {} (bridging up)));
     let ups := ([] : List (Nat × Nat × Bool)); let call := 3; let c := call0 6 1 (emKey0 ++ [1, 2, 3, 4, 5, 7, 0, 2]);
     let s := s0.upset ups; Asks s 6 call c ∧ s.sightTurn c = true ∧ s.rd (LKP_EMCFG.enable c.select) ≠ 0 ∧
     let wd := s.emWords c.select c.pipe (sliceB c.key 0 8); let ws := s.emWords c.select c.pipe (sliceB c.key 0 2 ++ sliceB c.key 8 6);
     s.touchBad wd = true ∧ s.touchBad ws = false) ∧
    (let s0 := late 9 (asked (call0 6 1 (emKey0 ++ [1, 2, 3, 4, 5, 7, 0, 2])) {} (bridging up)); let ups := ([] : List (Nat × Nat × Bool));
     let call := 3; let c := call0 6 1 (emKey0 ++ [1, 2, 3, 4, 5, 7, 0, 2]); let s := s0.upset ups; Asks s 6 call c ∧ s.sightTurn c = true ∧
     s.rd (LKP_EMCFG.enable c.select) ≠ 0 ∧ let wd := s.emWords c.select c.pipe (sliceB c.key 0 8);
     let ws := s.emWords c.select c.pipe (sliceB c.key 0 2 ++ sliceB c.key 8 6); s.touchBad wd = false ∧ s.touchBad ws = false ∧
     s.emFind c.select c.pipe (sliceB c.key 0 8) = none) ∧
    (let s0 := late 9 (emIn (brgData 2 48) (asked (call0 6 1 (emKey0 ++ [1, 2, 3, 4, 5, 7, 0, 2])) {} (bridging up)));
     let ups := ([] : List (Nat × Nat × Bool)); let call := 3; let c := call0 6 1 (emKey0 ++ [1, 2, 3, 4, 5, 7, 0, 2]);
     let s := s0.upset ups; Asks s 6 call c ∧ s.sightTurn c = true ∧ s.rd (LKP_EMCFG.enable c.select) ≠ 0 ∧
     let wd := s.emWords c.select c.pipe (sliceB c.key 0 8); let ws := s.emWords c.select c.pipe (sliceB c.key 0 2 ++ sliceB c.key 8 6);
     let e := emEnt0 (brgData 2 48); let pl := EmPlace.bucket ((em1 up).emBucket 1 0 emKey0) [3]; s.touchBad wd = false ∧
     s.touchBad ws = false ∧ s.emFind c.select c.pipe (sliceB c.key 0 8) = some (e, pl)) ∧
    (let s0 := late 9 (asked { call0 6 1 (emKey0 ++ [1, 2, 3, 4, 5, 7, 0, 2]) with err := some rSELECT } {} up);
     let ups := ([] : List (Nat × Nat × Bool)); let call := 3;
     let c := { call0 6 1 (emKey0 ++ [1, 2, 3, 4, 5, 7, 0, 2]) with err := some rSELECT }; let s := s0.upset ups;
     s.presented call 6 = some c ∧ s.sightTurn c = true ∧ let r := rSELECT; c.err = some r) ∧
    (let s : State := bridging up; let t := 1; let p := 0; let dom := 9; let mac := [1, 2, 3, 4, 5, 6]; let port := 0xFFFF;
     s.emFind t p (beBytes 2 dom ++ mac) = none ∧ (s.domCfg dom).1 = false ∨ port = 0xFFFF) ∧
    (let s : State := { bridging up with brg := { dom := [(9, (false, 0))] } }; let t := 1; let p := 0; let dom := 9;
     let mac := [1, 2, 3, 4, 5, 6]; let port := 2; s.emFind t p (beBytes 2 dom ++ mac) = none ∧ (s.domCfg dom).1 = false ∨ port = 0xFFFF) ∧
    (let s : State := emIn (brgData 2 48) { bridging up with brg := { dom := [(9, (true, 1))] } }; let t := 1; let p := 0; let dom := 9;
     let mac := [1, 2, 3, 4, 5, 7]; let port := 0xFFFE; s.emFind t p (beBytes 2 dom ++ mac) = none ∧ (s.domCfg dom).1 = true ∧
     port ≠ 0xFFFF ∧ (s.domCfg dom).2 ≠ 0 ∧ (s.domCfg dom).2 ≤ s.domIn t p dom) ∧
    (let s : State := { bridging up with brg := { dom := [(9, (true, 1))] } }; let t := 1; let p := 0; let dom := 9;
     let mac := [1, 2, 3, 4, 5, 6]; let port := 0xFFFE; s.emFind t p (beBytes 2 dom ++ mac) = none ∧ (s.domCfg dom).1 = true ∧
     port ≠ 0xFFFF ∧ ((s.domCfg dom).2 = 0 ∨ s.domIn t p dom < (s.domCfg dom).2) ∧
     let u := ((bridging up).emPlace 1 0 { table := 1, key := emKey0, data := beBytes 2 0xFFFE ++ [48] ++ List.replicate 13 0 }).elim up (fun x => { x with brg := { dom := [(9, (true, 1))] } });
     s.emPlace t p { table := t, key := beBytes 2 dom ++ mac, data := beBytes 2 port ++ [48] ++ List.replicate 13 0 } = some u) ∧
    (let s : State := emIn (brgData 2 16) (bridging up); let t := 1; let p := 0; let dom := 9; let mac := [1, 2, 3, 4, 5, 6]; let port := 2;
     let e := emEnt0 (brgData 2 16); let pl := EmPlace.bucket ((em1 up).emBucket 1 0 emKey0) [3];
     s.emFind t p (beBytes 2 dom ++ mac) = some (e, pl) ∧ brStatic e.data = false ∧ brPort e.data = port) ∧
    (let s : State := emIn (brgData 2 16) (bridging up); let t := 1; let p := 0; let dom := 9; let mac := [1, 2, 3, 4, 5, 6]; let port := 3;
     let e := emEnt0 (brgData 2 16); let pl := EmPlace.bucket ((em1 up).emBucket 1 0 emKey0) [3];
     s.emFind t p (beBytes 2 dom ++ mac) = some (e, pl) ∧ brStatic e.data = false ∧ brPort e.data ≠ port ∧ brFrozen e.data = false ∧
     (s.domCfg dom).1 = true ∧ port ≠ 0xFFFF) ∧
    (let s : State := late 1000000 { up with brg := { notices := [(3, [(0, [1])])] } }; let pipe := 3; let t := 0; let b := [1];
     let rest := ([] : List (Nat × List Nat)); s.notices pipe = (t, b) :: rest ∧ t + s.rd BRG_LEARNCFG.hold_us * 1000 ≤ s.clk) ∧
    (let s : State := emIn (brgData 2 48) { bridging up with brg := { sweeps := [(0, { on := true, period := 300, bucket := 0 })] } };
     let pipe := 0; let t := 1; s.bridgeTable = some t ∧ let w := s.nextSweep t pipe; w.sweepDue t pipe = true) ∧
    (let s : State := { bridging up with brg := { sweeps := [(3, { on := true, period := 300, bucket := 1023 })] } }; let t := 1;
     let p := 3; (s.sweep p).bucket < s.emBuckets t ∨ (s.sweep p).on = false) ∧
    (let s : State := bridging up; let t := 1; let p := 3; (s.sweep p).bucket < s.emBuckets t ∨ (s.sweep p).on = false) ∧
    (let s : State := late 300000000000 { bridging up with brg := { sweeps := [(3, { on := true, period := 300, bucket := 1024 })] } };
     let t := 1; let p := 3; (s.sweep p).on = true ∧ s.emBuckets t ≤ (s.sweep p).bucket ∧
     (s.sweep p).start + (s.sweep p).period * 10 ^ 9 ≤ s.clk) ∧
    (let s : State := emIn (brgData 2 0) (bridging up); let t := 1; let p := 0; let key := emKey0; let e := emEnt0 (brgData 2 0);
     let pl := EmPlace.bucket ((em1 up).emBucket 1 0 emKey0) [3]; s.emFind t p key = some (e, pl) ∧ s.touchBad pl.words = false ∧
     brStatic e.data = false ∧ brAge e.data = 0) ∧
    (let s : State := emIn (brgData 2 16) (bridging up); let t := 1; let p := 0; let key := emKey0; let e := emEnt0 (brgData 2 16);
     let pl := EmPlace.bucket ((em1 up).emBucket 1 0 emKey0) [3]; s.emFind t p key = some (e, pl) ∧ s.touchBad pl.words = false ∧
     brStatic e.data = false ∧ let a := 0; brAge e.data = a + 1 ∧ brFrozen e.data = false) ∧
    (let s : State := ((fdUp.wr (LKP_EMCFG.enable 63) 1).wr (LKP_EMCFG.scope 63) 1).wr BRG_AGECFG.period_s 300; let t := 63; FdOpen s ∧
     s.regsOk = true ∧ t < 64 ∧ s.rd BRG_CFG.enable = 0 ∧ s.rd (LKP_EMCFG.enable t) = 1 ∧ s.rd (LKP_EMCFG.scope t) = 1 ∧
     s.rd (LKP_EMCFG.keylen t) = 0 ∧ s.rd BRG_AGECFG.period_s ≠ 0) ∧
    (let s : State := fdUp.wr (LKP_EMCFG.enable 63) 1; let t := 63; FdOpen s ∧ s.regsOk = true ∧ t < 64 ∧ s.rd BRG_CFG.enable = 0 ∧
     (s.rd (LKP_EMCFG.enable t) = 0 ∨ s.rd (LKP_EMCFG.scope t) = 0 ∨ s.rd (LKP_EMCFG.keylen t) ≠ 0)) ∧
    (let s : State := fdUp.wr BRG_AGECFG.period_s 300; FdOpen s) ∧
    (let s : State := fdUp.wr BRG_AGECFG.period_s 300; let n := 65535; FdOpen s ∧ 0 < n ∧ n < 65536 ∧ s.rd BRG_AGECFG.period_s ≠ 0 ∧
     s.bridgeTable = none) ∧
    (let s : State := { bridging (fdUp.wr BRG_AGECFG.period_s 300) with brg := { sweeps := [(3, { on := true, period := 300, bucket := 1023 })] } };
     let n := 65535; let t := 1; FdOpen s ∧ s.regsOk = true ∧ 0 < n ∧ n < 65536 ∧ s.rd BRG_AGECFG.period_s ≠ 0 ∧ s.bridgeTable = some t ∧
     (∀ p, p < 4 → (s.sweep p).bucket < s.emBuckets t)) := by
  unfold FdOpen Asks Open Reached
  try dsimp only
  and_intros <;> (first
    | decide +kernel | exact fun _ h1 h2 => absurd (Nat.lt_of_lt_of_le h1 h2) (by decide +kernel) | exact fun _ _ => rfl
    | (intro _ h; cases h; done) | (intro _ h; cases h; decide +kernel) | exact .inl (by decide +kernel) | exact .inr (.inl (by decide +kernel))
    | (simp only [← List.mem_range]; decide +kernel) | exact ⟨0, by decide +kernel⟩ | exact ⟨7, by decide +kernel⟩)

theorem witness_ExtendedFib :
    (let s : State := (fdUp.wr (MCD_CFG.role 3) 1).wr (MCD_STAT.state 3) 7; FdOpen s ∧ s.regsOk = true ∧ s.rd LKP_XFIBCFG.enable = 0 ∧
     s.lkp.fib = [] ∧ s.tableChans ≠ 0) ∧
    (let s : State := fdUp; FdOpen s ∧ s.regsOk = true ∧ s.rd LKP_XFIBCFG.enable = 0 ∧ (s.lkp.fib ≠ [] ∨ s.tableChans = 0)) ∧
    (let s : State := { (fdUp.wr (MCD_CFG.role 3) 1).wr (MCD_STAT.state 3) 7 with lkp := fib32 false }; FdOpen s ∧ s.regsOk = true ∧
     s.rd LKP_XFIBCFG.enable = 0 ∧ (s.lkp.fib ≠ [] ∨ s.tableChans = 0)) ∧
    (let s : State := { fdUp.wr LKP_XFIBCFG.enable 1 with lkp := { fib32 true with xfibDown := true } }; FdOpen s ∧ s.regsOk = true ∧
     s.rd LKP_XFIBCFG.enable = 1 ∧ s.lkp.xfibOff = false ∧ s.lkp.xfibDown = true) ∧
    (let s : State := { fdUp.wr LKP_XFIBCFG.enable 1 with lkp := fib32 true }; FdOpen s ∧ s.regsOk = true ∧ s.rd LKP_XFIBCFG.enable = 1 ∧
     s.lkp.xfibOff = false ∧ s.lkp.xfibDown = false ∧ s.lkp.fib.foldl (fun a e => a + fibUnits e.1) 0 ≤ s.placement) ∧
    (let s : State := { fdUp with lkp := { xfibOff := true } }; s.regsOk = true ∧ s.lkp.xfibOff = true) ∧
    (let s : State := { fdUp with lkp := { fib32 true with xfibOff := true, xfibDown := true } }; s.regsOk = true ∧ s.lkp.xfibOff = true) ∧
    (let s : State := late 100000000 ((up.wr LKP_FIBCFG.hot_units 1).wr LKP_XFIBCFG.enable 1); s.rd LKP_FIBCFG.hot_units ≠ 0 ∧
     s.bit LKP_XFIBCFG.enable = true ∧ s.lkp.hotAt + s.rd LKP_HOTCFG.period * 1000000 ≤ s.clk) ∧
    (let s : State := { up with lkp := { hotWork := [(fibKey 0 0 32 addr0, 2)] } }; let root := fibKey 0 0 32 addr0; let n := 2;
     s.lkp.hotWork.find? (fun e => e.1 == root) = some (root, n)) ∧
    (let s : State := fdUp; let v := 2097152; FdOpen s ∧ s.lkp.hot = [] ∧ s.lkp.hotWork = [] ∧ v ≤ 2097152 ∧ let u := (crossed s).fibCount;
     u.rd LKP_FIBUSE.units ≤ 6291456 - v) ∧
    (let s : State := { up.wr LKP_XFIBCFG.enable 1 with lkp := { hotWrite := some 4 } }; let v := 4; s.lkp.hotWrite = some v ∧
     s.bit LKP_XFIBCFG.enable = true ∧ s.lkp.xfibOff = false) := by
  unfold FdOpen Open Reached
  try dsimp only
  and_intros <;> decide +kernel

theorem witness_TableUpkeep :
    (let s : State := fdUp; let t := 63; let scope := 1; let keylen := 2; let bits := 10; FdOpen s ∧ t < 64 ∧
     s.rd (LKP_EMCFG.enable t) = 0 ∧ scope < 2 ∧ keylen < 3 ∧ 10 ≤ bits ∧ bits ≤ 20 ∧ s.rd LKP_EMSTAT.clearing = 0 ∧
     s.emRoom t (s.rd (LKP_EMBASE.base t)) scope bits = true) ∧
    (let s : State := fdUp.wr LKP_EMSTAT.clearing 1; let t := 63; let scope := 1; let keylen := 2; let bits := 10; FdOpen s ∧ t < 64 ∧
     s.rd (LKP_EMCFG.enable t) = 0 ∧ scope < 2 ∧ keylen < 3 ∧ 10 ≤ bits ∧ bits ≤ 20 ∧
     (s.rd LKP_EMSTAT.clearing ≠ 0 ∨ s.emRoom t (s.rd (LKP_EMBASE.base t)) scope bits = false)) ∧
    (let s : State := em1 fdUp; let t := 63; let scope := 1; let keylen := 2; let bits := 20; FdOpen s ∧ t < 64 ∧
     s.rd (LKP_EMCFG.enable t) = 0 ∧ scope < 2 ∧ keylen < 3 ∧ 10 ≤ bits ∧ bits ≤ 20 ∧
     (s.rd LKP_EMSTAT.clearing ≠ 0 ∨ s.emRoom t (s.rd (LKP_EMBASE.base t)) scope bits = false)) ∧
    (let s : State := emIn (List.replicate 16 1) (em1 fdUp); let t := 1; let v := 0; let k := 4 * (em1 up).emBucket 1 0 emKey0 + 3;
     let e := emEnt0 (List.replicate 16 1); FdOpen s ∧ s.regsOk = true ∧ t < 64 ∧ v < 2 ^ 31 ∧ s.rd (LKP_EMCFG.enable t) = 1 ∧
     s.bridgeTable ≠ some t ∧ (k, some e) ∈ s.lkp.em ∧ e.table = t) ∧
    (let s : State := bridging fdUp; let t := 1; let v := 0; FdOpen s ∧ t < 64 ∧ v < 2 ^ 31 ∧ s.rd (LKP_EMCFG.enable t) = 1 ∧
     s.bridgeTable = some t) ∧
    (let s : State := { up with lkp := { clearing := [1] } }; s.lkp.clearing ≠ [] ∧ s.dirtyBuckets = []) ∧
    (let s : State := { em1 up with lkp := { clearing := [1], em := [(4, some (emEnt0 [1])), (9, some (emEnt0 [1]))] } }; let b := 1;
     s.lkp.clearing ≠ [] ∧ b ∈ s.dirtyBuckets ∧ (∀ x ∈ s.dirtyBuckets, b ≤ x) ∧ let u := s.freeBucket b; u.dirtyBuckets ≠ []) ∧
    (let s : State := { em1 up with lkp := { clearing := [1], em := [(4, some (emEnt0 [1]))], ovf := [(3, [{ ent := emEnt0 [1], bucket := 1, serial := 5 }])] } };
     let b := 1; s.lkp.clearing ≠ [] ∧ b ∈ s.dirtyBuckets ∧ (∀ x ∈ s.dirtyBuckets, b ≤ x) ∧ let u := s.freeBucket b; u.dirtyBuckets = []) ∧
    (let p := 3; p < 4) ∧
    (let s : State := late 9 { up with lkp := { adj := [(5, { st := .retiring, due := 9 })], eccCor := [(4, 5)] } }; let i := 5;
     (s.adjAt i).st = .retiring ∧ (s.adjAt i).due ≤ s.clk) ∧
    (let s0 := up; let table := 1; let i := 9; let ups := [(1, 9, true)]; let s := s0.upset ups;
     let onDie := s.bit LKP_XFIBCFG.enable && !s.lkp.xfibDown && s.onDieWord i; (table, i) ∈ s.lkp.eccUnc ∧ (table ≠ 0 ∨ onDie = false)) ∧
    (let s0 := { up.wr LKP_XFIBCFG.enable 1 with lkp := fib32 true }; let table := 0; let i := fibKey 0 0 32 addr0;
     let ups := [(0, fibKey 0 0 32 addr0, true)]; let s := s0.upset ups;
     let onDie := s.bit LKP_XFIBCFG.enable && !s.lkp.xfibDown && s.onDieWord i; (table, i) ∈ s.lkp.eccUnc ∧ (table ≠ 0 ∨ onDie = false)) ∧
    (let s0 := { up.wr LKP_XFIBCFG.enable 1 with lkp := fib32 false }; let table := 0; let i := fibKey 0 0 32 addr0;
     let ups := [(0, fibKey 0 0 32 addr0, true)]; let s := s0.upset ups;
     let onDie := s.bit LKP_XFIBCFG.enable && !s.lkp.xfibDown && s.onDieWord i; (table, i) ∈ s.lkp.eccUnc ∧ table = 0 ∧ onDie = true) ∧
    (let s0 := up; let table := 1; let i := 9; let ups := [(1, 9, false)]; let s := s0.upset ups; s.regsOk = true ∧
     (table, i) ∉ s.lkp.eccUnc ∧ (table, i) ∈ s.lkp.eccCor ∧ s.rd LKP_ECCCOR.count + 1 < 2 ^ 32) ∧
    (let array := 2; let c := 23; array < 3 ∧ c < 24) ∧
    (let s : State := { up with lkp := { flipping := true } }; s.lkp.flipping = true) := by
  unfold FdOpen Open Reached
  try dsimp only
  and_intros <;> decide +kernel

theorem witness_TableWritesAreSeen :
    (let s : State := up; let vrf := 1; let fam := 4; let len := 33; let pfx := [10, 1, 2, 3]; let route := List.replicate 16 1;
     let mode := 0; let x := s.fibInsert vrf fam len pfx route mode; x.1 ≠ 0) ∧
    (let s : State := up; let vrf := 1; let fam := 4; let len := 32; let pfx := [10, 1, 2, 3]; let route := List.replicate 16 1;
     let mode := 0; let x := s.fibInsert vrf fam len pfx route mode; x.1 = 0) ∧
    (let s : State := up; let vrf := 1; let fam := 4; let len := 32; let pfx := [10, 1, 2, 3]; let route := List.replicate 16 1;
     let mode := 0; let fam6 := if fam = 6 then 1 else 0; let k := fibKey vrf fam6 len (addrBits fam6 pfx);
     let x := s.fibInsert vrf fam len pfx route mode; x.1 = 0 ∧ let j := 0; j ≠ k) ∧
    (let s : State := up; let vrf := 0; let fam := 4; let len := 32; let pfx := [10, 1, 2, 3]; Tbl.risingFrom 0 s.lkp.fib = true ∧
     let x := s.fibDelete vrf fam len pfx; x.1 ≠ 0) ∧
    (let s : State := { up with lkp := fib32 false }; let vrf := 0; let fam := 4; let len := 32; let pfx := [10, 1, 2, 3];
     Tbl.risingFrom 0 s.lkp.fib = true ∧ let x := s.fibDelete vrf fam len pfx; x.1 = 0) ∧
    (let s : State := { up with lkp := fib32 false }; let vrf := 0; let fam := 4; let len := 32; let pfx := [10, 1, 2, 3];
     Tbl.risingFrom 0 s.lkp.fib = true ∧ let fam6 := if fam = 6 then 1 else 0; let k := fibKey vrf fam6 len (addrBits fam6 pfx);
     let x := s.fibDelete vrf fam len pfx; x.1 = 0 ∧ let j := 0; j ≠ k) ∧
    (let s : State := em1 up; let t := 1; let p := 3; let key := emKey0; let data := List.replicate 16 1; let mode := 2; p < 4 ∧
     let x := s.emInsert t p key data mode; x.1 ≠ 0) ∧
    (let s : State := em1 up; let t := 1; let p := 3; let key := emKey0; let data := List.replicate 16 1; let mode := 0; p < 4 ∧
     let x := s.emInsert t p key data mode; x.1 = 0) ∧
    (let s : State := up; let profile := 8; let i := 0; let prio := 0; let value := List.replicate 8 1; let mask := List.replicate 8 1;
     let data := List.replicate 16 1; let x := s.terWrite profile i prio value mask data; x.1 ≠ 0) ∧
    (let s : State := up.wr (LKP_TERPROF.enable 7) 1; let profile := 7; let i := 131071; let prio := 2 ^ 20 - 1;
     let value := List.replicate 8 1; let mask := List.replicate 8 1; let data := List.replicate 16 1;
     let x := s.terWrite profile i prio value mask data; x.1 = 0) ∧
    (let s : State := up.wr (LKP_TERPROF.enable 7) 1; let profile := 7; let i := 131071; let prio := 2 ^ 20 - 1;
     let value := List.replicate 8 1; let mask := List.replicate 8 1; let data := List.replicate 16 1;
     let x := s.terWrite profile i prio value mask data; x.1 = 0 ∧ let j := 0; j ≠ i) ∧
    (let s : State := up; let i := 131072; Tbl.risingFrom 0 s.lkp.ter = true ∧ let x := s.terDelete i; x.1 ≠ 0) ∧
    (let s : State := { up with lkp := { ter := [(131071, some ⟨7, [1], [1], 0, [1]⟩)] } }; let i := 131071;
     Tbl.risingFrom 0 s.lkp.ter = true ∧ let x := s.terDelete i; x.1 = 0) ∧
    (let s : State := { up with lkp := { ter := [(131071, some ⟨7, [1], [1], 0, [1]⟩)] } }; let i := 131071;
     Tbl.risingFrom 0 s.lkp.ter = true ∧ let x := s.terDelete i; x.1 = 0 ∧ let j := 0; j ≠ i) ∧
    (let s : State := up; let i := 2097152; let data := List.replicate 32 1; let x := s.adjWrite i data; x.1 ≠ 0) ∧
    (let s : State := up; let i := 2097151; let data := List.replicate 32 1; let x := s.adjWrite i data; x.1 = 0) ∧
    (let s : State := up; let i := 2097151; let data := List.replicate 32 1; let x := s.adjWrite i data; x.1 = 0 ∧ let j := 0; j ≠ i) ∧
    (let s : State := up; let i := 2097151; let x := s.adjDelete i; x.1 ≠ 0) ∧
    (let s : State := { up with lkp := { adj := [(2097151, { st := .valid })] } }; let i := 2097151; let x := s.adjDelete i; x.1 = 0) ∧
    (let s : State := { up with lkp := { adj := [(2097151, { st := .valid })] } }; let i := 2097151; let x := s.adjDelete i; x.1 = 0 ∧
     let j := 0; j ≠ i) := by
  try dsimp only
  and_intros <;> decide +kernel

theorem witness_LookupCommands_part1 :
    (let s : State := running (taken 0x20 [(16, 2, 1), (18, 1, 4), (19, 1, 32)]) up; let r := 3;
     let t := taken 0x20 [(16, 2, 1), (18, 1, 4), (19, 1, 32)]; s.lkp.xfibOff = false ∧ Now s 0x20 r t) ∧
    (let s : State := running (taken 0x21 [(16, 2, 1), (18, 1, 4), (19, 1, 32)]) up; let r := 3;
     let t := taken 0x21 [(16, 2, 1), (18, 1, 4), (19, 1, 32)]; s.lkp.xfibOff = false ∧ Now s 0x21 r t) ∧
    (let s : State := { running (taken 0x22 [(16, 8, 4096), (24, 4, 1)]) up with hostMem := [(4098, 4), (4099, 24), (4104, 10)] };
     let r := 3; let t := taken 0x22 [(16, 8, 4096), (24, 4, 1)]; s.lkp.xfibOff = false ∧ let w := s.cmdCross; Now s 0x22 r t ∧
     t.progress < t.f 24 4 ∧ let x := w.fibRecord (w.dmaRead (t.f 16 8 + 48 * t.progress) 48); x.1 = 0) ∧
    (let s : State := running (taken 0x22 [(16, 8, 4096), (24, 4, 1)]) up; let r := 3; let t := taken 0x22 [(16, 8, 4096), (24, 4, 1)];
     s.lkp.xfibOff = false ∧ let w := s.cmdCross; Now s 0x22 r t ∧ t.progress < t.f 24 4 ∧
     let x := w.fibRecord (w.dmaRead (t.f 16 8 + 48 * t.progress) 48); x.1 ≠ 0) ∧
    (let s : State := running (taken 0x23 [(16, 8, 4096), (24, 4, 1)]) up; let r := 3; let t := taken 0x23 [(16, 8, 4096), (24, 4, 1)];
     Now s 0x23 r t ∧ s.lkp.xfibOff = false ∧ s.fibNext t.cursor = none) ∧
    (let s : State := { running (taken 0x23 [(16, 8, 4096), (24, 4, 1)]) up with lkp := { fib := [(1, some (route0 false)), (2, some (route0 false))] } };
     let r := 3; let t := taken 0x23 [(16, 8, 4096), (24, 4, 1)]; let pos := 1; let b := fibDumpRecord 1 (route0 false); Now s 0x23 r t ∧
     s.lkp.xfibOff = false ∧ s.fibNext t.cursor = some (pos, b) ∧ t.progress - t.base < t.f 24 4 ∧
     let u := ((s.cmdCross.dmaWrite (t.f 16 8 + 48 * (t.progress - t.base)) b).updTaken r (fun t => { t with cursor := pos + 1 })).stepEntry r;
     u.fibNext (pos + 1) ≠ none) ∧
    (let s : State := { running (taken 0x23 [(16, 8, 4096), (24, 4, 1)]) up with lkp := { fib := [(2, some (route0 false))] } }; let r := 3;
     let t := taken 0x23 [(16, 8, 4096), (24, 4, 1)]; let pos := 2; let b := fibDumpRecord 2 (route0 false); Now s 0x23 r t ∧
     s.lkp.xfibOff = false ∧ s.fibNext t.cursor = some (pos, b) ∧ t.progress - t.base < t.f 24 4 ∧
     let u := ((s.cmdCross.dmaWrite (t.f 16 8 + 48 * (t.progress - t.base)) b).updTaken r (fun t => { t with cursor := pos + 1 })).stepEntry r;
     u.fibNext (pos + 1) = none) ∧
    (let s : State := running (taken 0x24 [(16, 1, 1)]) (em1 up); let r := 3; let t := taken 0x24 [(16, 1, 1)];
     s.rd (LKP_EMCFG.enable (t.f 16 1)) ≠ 0 ∧ t.f 16 1 < 64 ∧ s.emAll (t.f 16 1) (t.f 17 1) = false ∧ s.emKeyClean (t.f 16 1) t = true ∧
     Now s 0x24 r t ∧ t.f 18 1 ≤ 2 ∧ (s.emKeyBytes (t.f 16 1) ≠ 32 ∨ (s.ring r).nz5 = false)) ∧
    (let s : State := running (taken 0x25 [(16, 1, 1)]) (em1 up); let r := 3; let t := taken 0x25 [(16, 1, 1)];
     s.rd (LKP_EMCFG.enable (t.f 16 1)) ≠ 0 ∧ t.f 16 1 < 64 ∧ s.emAll (t.f 16 1) (t.f 17 1) = false ∧ s.emKeyClean (t.f 16 1) t = true ∧
     Now s 0x25 r t ∧ t.f 18 1 ≤ 2) ∧
    (let s : State := running (taken 0x24 [(16, 1, 1), (17, 1, 128)]) ((em1 up).wr (LKP_EMCFG.scope 1) 1); let r := 3;
     let t := taken 0x24 [(16, 1, 1), (17, 1, 128)]; Now s 0x24 r t ∧ s.rd (LKP_EMCFG.enable (t.f 16 1)) ≠ 0 ∧ t.f 16 1 < 64 ∧
     s.emAll (t.f 16 1) (t.f 17 1) = true ∧ s.emKeyClean (t.f 16 1) t = true ∧ t.f 18 1 ≤ 2 ∧
     (s.emKeyBytes (t.f 16 1) ≠ 32 ∨ (s.ring r).nz5 = false)) ∧
    (let s : State := running (taken 0x26 [(16, 1, 1), (24, 8, 4096), (32, 4, 1)]) (em1 up); let r := 3;
     let t := taken 0x26 [(16, 1, 1), (24, 8, 4096), (32, 4, 1)]; let d := 0; let m := 0;
     let u := ((running (taken 0x26 [(16, 1, 1), (24, 8, 4096), (32, 4, 1)]) (em1 up)).cmdCross.emRecord 1 0 (List.replicate 64 0)).2.2;
     Now s 0x26 r t ∧ t.f 16 1 < 64 ∧ s.rd (LKP_EMCFG.enable (t.f 16 1)) ≠ 0 ∧ t.progress < t.f 32 4 ∧
     s.cmdCross.emRecord (t.f 16 1) t.sub (s.cmdCross.dmaRead (t.f 24 8 + 64 * t.progress) 64) = (d, m, u) ∧ d = 0) ∧
    (let s : State := { running (taken 0x26 [(16, 1, 1), (24, 8, 4096), (32, 4, 1)]) (em1 up) with hostMem := [(4096, 1)] }; let r := 3;
     let t := taken 0x26 [(16, 1, 1), (24, 8, 4096), (32, 4, 1)]; let d := dNOT_FOUND; let m := 0;
     let u := ({ running (taken 0x26 [(16, 1, 1), (24, 8, 4096), (32, 4, 1)]) (em1 up) with hostMem := [(4096, 1)] } : State).cmdCross;
     Now s 0x26 r t ∧ t.f 16 1 < 64 ∧ s.rd (LKP_EMCFG.enable (t.f 16 1)) ≠ 0 ∧ t.progress < t.f 32 4 ∧
     s.cmdCross.emRecord (t.f 16 1) t.sub (s.cmdCross.dmaRead (t.f 24 8 + 64 * t.progress) 64) = (d, m, u) ∧ d ≠ 0) ∧
    (let s : State := running (taken 0x27 [(16, 1, 1)]) (em1 up); let r := 3; let t := taken 0x27 [(16, 1, 1)]; Now s 0x27 r t ∧
     t.f 16 1 < 64 ∧ s.rd (LKP_EMCFG.enable (t.f 16 1)) ≠ 0 ∧ s.emNext (t.f 16 1) (t.f 17 1 % 4) t.cursor = none) ∧
    (let s : State := { running (taken 0x27 [(16, 1, 1), (32, 4, 1)]) (em1 up) with lkp := { em := [(8, some (emEnt0 [1])), (9, some { emEnt0 [1] with key := [1] })] } };
     let r := 3; let t := taken 0x27 [(16, 1, 1), (32, 4, 1)]; Now s 0x27 r t ∧ t.f 16 1 < 64 ∧ s.rd (LKP_EMCFG.enable (t.f 16 1)) ≠ 0 ∧
     let pos := 2 * 2 ^ 40; let b := [0, 0, 0] ++ List.replicate 5 0 ++ sliceB [1] 0 16 ++ sliceB emKey0 0 32 ++ List.replicate 8 0;
     s.emNext (t.f 16 1) (t.f 17 1 % 4) t.cursor = some (pos, b) ∧ t.progress - t.base < t.f 32 4 ∧
     let u := ((s.cmdCross.dmaWrite (t.f 24 8 + 64 * (t.progress - t.base)) b).updTaken r (fun t => { t with cursor := pos + 1 })).stepEntry r;
     u.emNext (t.f 16 1) (t.f 17 1 % 4) (pos + 1) ≠ none) := by
  unfold Now
  try dsimp only
  and_intros <;> decide +kernel

theorem witness_LookupCommands_part2 :
    (let s : State := running (taken 0x28 []) up; let r := 3; let t := taken 0x28 []; Now s 0x28 r t) ∧
    (let s : State := running (taken 0x29 []) up; let r := 3; let t := taken 0x29 []; Now s 0x29 r t) ∧
    (let s : State := running (taken 0x2A []) up; let r := 3; let t := taken 0x2A []; Now s 0x2A r t) ∧
    (let s : State := running (taken 0x2B []) up; let r := 3; let t := taken 0x2B []; Now s 0x2B r t) ∧
    (let s : State := running (taken 0x2D []) (up.wr LKP_PARSECTL.idle_state 2); let r := 3; let t := taken 0x2D []; Now s 0x2D r t ∧
     s.rd LKP_PARSECTL.idle_state = 2 ∧ s.lkp.flipping = false) ∧
    (let s : State := running (taken 0x2D []) (up.wr LKP_PARSECTL.idle_state 1); let r := 3; let t := taken 0x2D []; Now s 0x2D r t ∧
     (s.rd LKP_PARSECTL.idle_state ≠ 2 ∨ s.lkp.flipping = true)) ∧
    (let s : State := { running (taken 0x2D []) (up.wr LKP_PARSECTL.idle_state 2) with lkp := { flipping := true } }; let r := 3;
     let t := taken 0x2D []; Now s 0x2D r t ∧ (s.rd LKP_PARSECTL.idle_state ≠ 2 ∨ s.lkp.flipping = true)) ∧
    (let s : State := { running { taken 0x2C [] with cursor := 1, progress := 574 } (up.wr LKP_PARSECTL.idle_state 1) with lkp := { pLoader := some (1, 3) } };
     let r := 3; let t := { taken 0x2C [] with cursor := 1, progress := 574 }; Now s 0x2C r t ∧ t.cursor ≠ 0 ∧
     s.rd LKP_PARSECTL.idle_state = 1 ∧ (s.lkp.pLoader.map (·.1)) = some t.cursor ∧ t.progress < 575) ∧
    (let s : State := { running (taken 0x2E [(18, 1, 4), (19, 1, 32), (24, 4, 0x0302010A)]) up with lkp := fib32 false }; let r := 3;
     let t := taken 0x2E [(18, 1, 4), (19, 1, 32), (24, 4, 0x0302010A)]; Now s 0x2E r t ∧ let e := route0 false; t.f 63 1 = 0 ∧
     spansOk [(16, 4), (24, 16), (63, 1)] t.desc = true ∧ t.f 18 1 = 4 ∧ t.f 19 1 ≤ 32 ∧
     s.fibAt (fibKey (t.f 16 2) 0 (t.f 19 1) (addrBits 0 (sliceB t.desc 24 16))) = some e) ∧
    (let s : State := { running (taken 0x2E [(20, 4, 131071), (63, 1, 2)]) up with lkp := { ter := [(131071, some ⟨7, [1], [1], 0, [1]⟩)] } };
     let r := 3; let t := taken 0x2E [(20, 4, 131071), (63, 1, 2)]; Now s 0x2E r t ∧ let e := (⟨7, [1], [1], 0, [1]⟩ : TerEnt);
     t.f 63 1 = 2 ∧ spansOk [(20, 4), (63, 1)] t.desc = true ∧ t.f 20 4 ≤ 131071 ∧ s.terAt (t.f 20 4) = some e) ∧
    (let s : State := { running (taken 0x2E [(20, 4, 2097151), (63, 1, 3)]) up with lkp := { adj := [(2097151, { st := .valid })] } };
     let r := 3; let t := taken 0x2E [(20, 4, 2097151), (63, 1, 3)]; Now s 0x2E r t ∧ t.f 63 1 = 3 ∧
     spansOk [(20, 4), (63, 1)] t.desc = true ∧ t.f 20 4 ≤ 2097151 ∧ (s.adjAt (t.f 20 4)).st = .valid) ∧
    (let s : State := ((running (taken 0x20 []) up).wr D2D_STAT.bridge 1).wr D2D_STAT.sideband_up 1; let r := 3; let t := taken 0x20 [];
     s.running 0x20 = some (r, t) ∧ s.bridgeUp = false ∧ s.bit D2D_STAT.sideband_up = true) := by
  unfold Now
  try dsimp only
  and_intros <;> decide +kernel

/-! ### 08_host_interface.md -/

/-- Ring 3 in a device whose link is up and whose host interface is enabled. -/
def ringed (g : Ring) : State := { (up.wr HIF_LINKSTAT.up 1).wr HIF_CFG.enable 1 with hif := { rings := [(3, g)] } }

/-- Bytes of host memory from an address. -/
def hostAt (a : Nat) (l : List Nat) : Tbl Byte := (l.zipIdx.filter (fun e => e.1 != 0)).map (fun e => (a + e.2, BitVec.ofNat 8 e.1))

/-- A Ring Context Table entry of 16 slots of a kind, at the table's base 0, and the ring it names. -/
def rct (kind : Nat) : List Nat := List.replicate 16 0 ++ [4, kind] ++ List.replicate 46 0
def withRct (r kind : Nat) (s : State) : State := { s.wr HIF_RCTCFG.count (r + 1) with hostMem := hostAt (64 * r) (rct kind) }

/-- A descriptor in a buffer of its ring, and a taken one that is parked. -/
def parkedT (op : Nat) : Taken := { taken op [] with st := .parked }
def rec0 : EvRec := { code := 0x0103, cls := 1, payload := [1], cont := [], ns := 0, sec := 0, stored := false }

theorem witness_BulkRunsInOrder :
    (∀ (k : Nat) (u : State), Tbl.risingFrom 0 u.hif.rings = true →
      (∀ v, Entry.go u = .go v → Tbl.risingFrom 0 v.hif.rings = true) ∧
      (∀ st d v, Entry.go u = .stop st d v → Tbl.risingFrom 0 v.hif.rings = true)) ∧ Tbl.risingFrom 0 (ringed {}).hif.rings = true :=
  ⟨fun _ _ h => ⟨fun _ e => by cases e; exact h, fun _ _ _ e => nomatch e⟩, by decide +kernel⟩

/-- Ring 3 stops once its NOP ends; the executor's RING_STOP of ring 9 waits for it. -/
def stopping9 : State := { ringed {} with hif := { exec := some 9, rings :=
  [(3, { st := .stopping, kind := 1, taken := some (taken 0 []) }), (9, { st := .running, kind := 1, taken := some { taken 0x11 [(16, 2, 3)] with waits := true } })] } }

/-- A direction from the Forwarding Die whose control class has messages ahead. -/
def withCtl (s : State) : State := s.setDir true { waiting := [{ seq := 0, control := true, mod := 23, pkt := none }] }

/-- The executor runs `t` of ring 3, of class 0, while ring 9, of class 3, has work. -/
def twoRings (t : Taken) : State :=
  { (up.wr HIF_LINKSTAT.up 1).wr HIF_CFG.enable 1 with hif := { exec := some 3, rings :=
      [(3, { st := .running, kind := 1, sizeLog2 := 4, taken := some t }), (9, { st := .running, kind := 1, sizeLog2 := 4, cls := 3, tail := 1 })] } }

/-- An EVENT ring of 16 slots with `n` records, and one that waits. -/
def recRing (n : Nat) : State :=
  { ((ringed {}).wr (HIF_EVRING.valid 1) 1).wr (HIF_EVRING.ring 1) 3 with hif := { events := [rec0], rings := [(3, { st := .running, kind := 2, sizeLog2 := 4, tail := n })] } }

/-- An INJECT descriptor for egress queue 0 (target 0) or the ingress of pipe 0 (target 1), taken by ring 3. -/
def inj0 (target len : Nat) : Taken := taken 0x70 [(16, 8, 4096), (24, 2, len), (26, 1, target)]
def injecting (target len : Nat) (s : State) : State :=
  { s.wr HIF_LINKSTAT.up 1 with hif := { rings := [(3, { st := .running, kind := 4, sizeLog2 := 4, taken := some (inj0 target len) })] } }

/-- Egress queue 0 and the buffer are enabled, with room for 100 cells under profile 0. -/
def openQ (s : State) : State := { ((s.wr BPM_CFG.enable 1).wr QM_CFG.enable 1).wr (BPM_PFLIMIT.max_cells 0) 100 with qm := { tab := [(0, 2 ^ 31)] } }

theorem injecting_now (e : Eng) :
    ({ injecting 1 64 up with eng := e } : State).injectNow 3 1 = (some (inj0 1 64), { injecting 1 64 up with eng := e }) := rfl

theorem witness_CompletionsAreWritten :
    (let s : State := ringed { st := .stopping, kind := 1, sizeLog2 := 4, taken := some (taken 0 []) }; let r := 3; let t := taken 0 [];
     Tbl.risingFrom 0 s.hif.rings = true ∧ s.memOk = true ∧ (s.ring r).taken = some t ∧ (s.ring r).nz5 = false ∧ t.irq = false ∧
     s.hif.exec.all (fun e => (s.ring e).taken.all (fun v => v.op != 0x11 || !v.waits)) = true) ∧
    (let s : State := ringed { st := .running, kind := 1, sizeLog2 := 4, taken := some (taken 0 []) }; let r := 3; let t := taken 0 [];
     Tbl.risingFrom 0 s.hif.rings = true ∧ s.memOk = true ∧ (s.ring r).taken = some t ∧ (s.ring r).nz5 = false ∧ t.irq = false ∧
     s.hif.exec.all (fun e => (s.ring e).taken.all (fun v => v.op != 0x11 || !v.waits)) = true ∧ s.dmaOk = true ∧ s.hif.held = []) ∧
    (let s : State := ringed { st := .running, kind := 1, sizeLog2 := 4, taken := some (taken 0 []) }; let r := 3; let t := taken 0 [];
     Tbl.risingFrom 0 s.hif.rings = true ∧ s.memOk = true ∧ (s.ring r).taken = some t ∧ (s.ring r).nz5 = false ∧ t.irq = false ∧
     s.hif.exec.all (fun e => (s.ring e).taken.all (fun v => v.op != 0x11 || !v.waits)) = true ∧ s.dmaOk = true ∧ s.hif.held = [] ∧
     let i := 31; i < 32) ∧
    (let s : State := ringed { st := .running, kind := 1, sizeLog2 := 4, taken := some (taken 0 []) }; let r := 3; let t := taken 0 [];
     Tbl.risingFrom 0 s.hif.rings = true ∧ s.memOk = true ∧ (s.ring r).taken = some t ∧ (s.ring r).nz5 = false ∧ t.irq = false ∧
     s.hif.exec.all (fun e => (s.ring e).taken.all (fun v => v.op != 0x11 || !v.waits)) = true ∧
     let a := (s.ring r).cplBase + 32 * (t.index % (s.ring r).size); s.dmaOk = true ∧ s.hif.held = [] ∧ let b := 32; (b < a ∨ a + 32 ≤ b)) ∧
    (let s : State := (ringed { st := .running, kind := 1, sizeLog2 := 4, taken := some (taken 0 []) }).wr HIF_LINKSTAT.up 0; let r := 3;
     let t := taken 0 []; Tbl.risingFrom 0 s.hif.rings = true ∧ s.memOk = true ∧ (s.ring r).taken = some t ∧ (s.ring r).nz5 = false ∧
     t.irq = false ∧ s.hif.exec.all (fun e => (s.ring e).taken.all (fun v => v.op != 0x11 || !v.waits)) = true ∧ s.dmaOk = false) ∧
    (let s : State := stopping9; let r := 3; let t := taken 0 []; let c := ({ status := .done, detail := 0 } : Cpl); let e := 9;
     let v := { taken 0x11 [(16, 2, 3)] with waits := true }; (s.ring r).taken = some t ∧ let w := s.endTaken r t c; w.hif.exec = some e ∧
     (w.ring e).taken = some v ∧ v.op = 0x11 ∧ v.waits = true ∧ v.f 16 2 = r ∧ (w.ring r).st = .stopped) := by
  try dsimp only
  and_intros <;> decide +kernel

theorem witness_LinkDoorbellsRings_part1 :
    (let s : State := State.reset; let gen := 6; let width := 16; (s.hif.trained = false ∨ (s.rd HIF_LINKSTAT.gen = gen ∧
     s.rd HIF_LINKSTAT.width = width))) ∧
    (let s : State := { (State.reset.wr HIF_LINKSTAT.gen 5).wr HIF_LINKSTAT.width 8 with hif := { trained := true } }; let gen := 5;
     let width := 8; (s.hif.trained = false ∨ (s.rd HIF_LINKSTAT.gen = gen ∧ s.rd HIF_LINKSTAT.width = width))) ∧
    (let s : State := { (State.reset.wr HIF_LINKSTAT.gen 5).wr HIF_LINKSTAT.width 8 with hif := { trained := true } }; let gen := 6;
     let width := 8; s.hif.trained = true ∧ (s.rd HIF_LINKSTAT.gen ≠ gen ∨ s.rd HIF_LINKSTAT.width ≠ width)) ∧
    (let s : State := up; s.hif.rctlStart = none ∧ s.hif.requests = []) ∧
    (let off := 8; 8 ≤ off) ∧
    (let off := 7; off < 8) ∧
    (let slot := 4095; let off := 0; let size := 4; let v := 4095 * 2 ^ 32;
     (off ≠ 0 ∨ size ≠ 8 ∨ bitsAt v 32 12 ≠ slot ∨ bitsAt v 16 16 ≠ 0 ∨ bitsAt v 44 19 ≠ 0)) ∧
    (let s : State := up; let slot := 4095; let idx := 65535; slot < 4096 ∧ idx < 65536 ∧ (s.ring slot).st = .off) ∧
    (let s : State := ringed { st := .stopped, kind := 1, sizeLog2 := 4 }; let slot := 3; let idx := 9; slot < 4096 ∧ idx < 65536 ∧
     (s.ring slot).st = .stopped ∨ ((s.ring slot).st ≠ .off ∧ s.bit HIF_CFG.enable = false)) ∧
    (let s : State := { ringed { st := .running, kind := 1, sizeLog2 := 4 } with regs := up.regs }; let slot := 3; let idx := 9;
     slot < 4096 ∧ idx < 65536 ∧ (s.ring slot).st = .stopped ∨ ((s.ring slot).st ≠ .off ∧ s.bit HIF_CFG.enable = false)) ∧
    (let s : State := ringed { st := .running, kind := 1, sizeLog2 := 4 }; let slot := 3; let idx := 17; slot < 4096 ∧ idx < 65536 ∧
     (s.ring slot).st = .running ∧ s.bit HIF_CFG.enable = true ∧ (s.ring slot).size < (s.ring slot).outstanding idx) ∧
    (let s : State := ringed { st := .running, kind := 1, sizeLog2 := 4 }; let slot := 3; let idx := 16; slot < 4096 ∧ idx < 65536 ∧
     (s.ring slot).st = .running ∧ s.bit HIF_CFG.enable = true ∧ (s.ring slot).outstanding idx ≤ (s.ring slot).size) ∧
    (let s : State := ringed { st := .running, kind := 2, sizeLog2 := 4, tail := 16 }; let slot := 3; let idx := 0; slot < 4096 ∧
     idx < 65536 ∧ (s.ring slot).st = .running ∧ s.bit HIF_CFG.enable = true ∧ (s.ring slot).outstanding idx ≤ (s.ring slot).size) ∧
    (let s : State := ringed { st := .running, kind := 4, sizeLog2 := 5, tail := 17 }; let r := 3; (s.ring r).st = .running ∧
     isRequest (s.ring r).kind = true ∧ s.bit HIF_CFG.enable = true ∧ s.dmaOk = true ∧ (s.ring r).head ≠ (s.ring r).tail) := by
  try dsimp only
  and_intros <;> decide +kernel

theorem witness_LinkDoorbellsRings_part2 :
    (let s : State := ringed { st := .running, kind := 4, sizeLog2 := 5, wbAddr := 8 }; let r := 3; (s.ring r).st ≠ .off ∧
     (s.ring r).wbAddr ≠ 0 ∧ (s.ring r).wbLast = none ∧ s.dmaOk = true) ∧
    (let s : State := withRct 9 1 (running (taken 0x10 [(16, 2, 9)]) up); let r := 3; let t := taken 0x10 [(16, 2, 9)]; t.f 16 2 ≠ r ∧
     t.f 16 2 < 4096 ∧ Fresh s 0x10 r t ∧ s.startWaits (t.f 16 2) = false ∧ (s.ringStart (t.f 16 2)).1 = 0) ∧
    (let s : State := running (taken 0x10 [(16, 2, 9)]) up; let r := 3; let t := taken 0x10 [(16, 2, 9)]; t.f 16 2 ≠ r ∧ t.f 16 2 < 4096 ∧
     Fresh s 0x10 r t ∧ s.startWaits (t.f 16 2) = false ∧ (s.ringStart (t.f 16 2)).1 ≠ 0) ∧
    (let s : State := { running (taken 0x11 [(16, 2, 9)]) up with hif := { exec := some 3, rings := [(3, { st := .running, kind := 1, taken := some (taken 0x11 [(16, 2, 9)]) }), (9, { st := .running, kind := 1 })] } };
     let r := 3; let t := taken 0x11 [(16, 2, 9)]; t.f 16 2 ≠ r ∧ t.f 16 2 < 4096 ∧ let u := (s.ringStop (t.f 16 2)).2; Fresh s 0x11 r t ∧
     (s.ringStop (t.f 16 2)).1 = 0 ∧ (u.ring (t.f 16 2)).st = .stopped) ∧
    (let s : State := { running (taken 0x11 [(16, 2, 9)]) up with hif := { exec := some 3, rings := [(3, { st := .running, kind := 1, taken := some (taken 0x11 [(16, 2, 9)]) }), (9, { st := .running, kind := 4, taken := some (taken 0x70 []) })] } };
     let r := 3; let t := taken 0x11 [(16, 2, 9)]; t.f 16 2 ≠ r ∧ t.f 16 2 < 4096 ∧ let u := (s.ringStop (t.f 16 2)).2; Fresh s 0x11 r t ∧
     (s.ringStop (t.f 16 2)).1 = 0 ∧ (u.ring (t.f 16 2)).st ≠ .stopped) ∧
    (let s : State := { running (taken 0x12 [(16, 2, 9)]) up with hif := { exec := some 3, rings := [(3, { st := .running, kind := 1, taken := some (taken 0x12 [(16, 2, 9)]) }), (9, { st := .stopped, kind := 1 })] } };
     let r := 3; let t := taken 0x12 [(16, 2, 9)]; t.f 16 2 ≠ r ∧ t.f 16 2 < 4096 ∧ Fresh s 0x12 r t ∧ (s.ringInvalidate (t.f 16 2)).1 = 0) ∧
    (let s : State := ringed { st := .running, kind := 1, sizeLog2 := 4 }; Open s ∧ s.regsOk = true) ∧
    (let s : State := up.wr HIF_RIDX.ring 4095; Open s ∧ s.regsOk = true ∧ let r := s.rd HIF_RIDX.ring; s.startWaits r = false) ∧
    (let s : State := (up.wr HIF_RIDX.ring 4095).wr HIF_RCTCFG.count 4096; Open s ∧ s.regsOk = true ∧ let r := s.rd HIF_RIDX.ring;
     s.startWaits r = true) ∧
    (let s : State := up.wr HIF_RIDX.ring 4095; Open s ∧ s.regsOk = true) ∧
    (let d := 15; d ≠ 0) ∧
    (let s : State := up.wr HIF_RCTCFG.count 4096; let r := 4095; (s.ring r).st = .off ∧ r < s.rd HIF_RCTCFG.count ∧
     rctOk (s.dmaRead (s.rctAddr r) 64) = false) ∧
    (let s : State := withRct 4095 1 up; let r := 4095; (s.ring r).st = .off ∧ r < s.rd HIF_RCTCFG.count ∧
     rctOk (s.dmaRead (s.rctAddr r) 64) = true) := by
  unfold Open Fresh Reached
  try dsimp only
  and_intros <;> decide +kernel

theorem witness_DescriptorsTakenAndStopped :
    (let s : State := ringed { st := .running, kind := 1, sizeLog2 := 4, tail := 1 }; let p := Pick.take 3; s.hif.exec = none ∧
     s.pick 0 = some p) ∧
    (let s : State := twoRings { taken 0x22 [] with progress := 1, desc := desc 0x22 [(1, 1, 4)] }; let r := 3;
     let t := { taken 0x22 [] with progress := 1, desc := desc 0x22 [(1, 1, 4)] }; let p := Pick.take 9; s.hif.exec = some r ∧
     (s.ring r).taken = some t ∧ isBulk t.op = true ∧ t.waits = false ∧ s.pick ((s.ring r).cls + 1) = some p ∧ t.yields = true ∧
     (s.ring r).nz5 = false) ∧
    (let s : State := twoRings (taken 0x22 []); let r := 3; let t := taken 0x22 []; let p := Pick.take 9; s.hif.exec = some r ∧
     (s.ring r).taken = some t ∧ isBulk t.op = true ∧ t.waits = false ∧ s.pick ((s.ring r).cls + 1) = some p ∧ t.yields = false) ∧
    (let s : State := running (taken 0 []) up; let r := 3; let t := taken 0 []; s.running 0x00 = some (r, t) ∧ (s.ring r).kind = 1) ∧
    (let s : State := late 3000000 (running (taken 0x22 [(2, 2, 3)]) up); let r := 3; let t := taken 0x22 [(2, 2, 3)];
     (s.ring r).taken = some t ∧ t.ttl ≠ 0 ∧ (s.ring r).nz5 = false ∧ t.takenAt + t.ttl * 1000000 ≤ s.clk ∧ t.st = .running ∧
     isBulk t.op = true ∧ t.waits = false) ∧
    (let s : State := late 3000000 (running { taken 0x22 [(2, 2, 3)] with st := .parked } up); let r := 3;
     let t := { taken 0x22 [(2, 2, 3)] with st := .parked }; (s.ring r).taken = some t ∧ t.ttl ≠ 0 ∧ (s.ring r).nz5 = false ∧
     t.takenAt + t.ttl * 1000000 ≤ s.clk ∧ t.st = .parked) ∧
    (let s : State := late 1000000000 (running (taken 0x22 []) (up.wr HIF_TIMEOUTS.desc_ms 1000)); let r := 3; let t := taken 0x22 [];
     (s.hif.exec = some r ∨ (s.ring r).kind = 4) ∧ (s.ring r).taken = some t ∧ t.st = .running ∧
     t.stepAt + s.rd HIF_TIMEOUTS.desc_ms * 1000000 ≤ s.clk) ∧
    (let s : State := late 1000000000 { running (taken 0x70 []) (up.wr HIF_TIMEOUTS.desc_ms 1000) with hif := { rings := [(3, { st := .running, kind := 4, taken := some { taken 0x70 [] with waits := true } })] } };
     let r := 3; let t := { taken 0x70 [] with waits := true }; (s.hif.exec = some r ∨ (s.ring r).kind = 4) ∧ (s.ring r).taken = some t ∧
     t.st = .running ∧ t.stepAt + s.rd HIF_TIMEOUTS.desc_ms * 1000000 ≤ s.clk) ∧
    (let t := taken 0x22 []; t.op ≠ 0x50 ∧ t.op ≠ 0x70 ∧ t.waits = false) ∧
    (let s : State := running (taken 0x22 []) up; let r := 3; let t := taken 0x22 []; (s.ring r).taken = some t) ∧
    (let s : State := late 1000000000 (withRct 3 1 ((ringed { st := .running, kind := 1, sizeLog2 := 4, tail := 1 }).wr HIF_TIMEOUTS.stall_ms 1000));
     let r := 3; (s.ring r).st = .running ∧ (s.ring r).lastTake + s.rd HIF_TIMEOUTS.stall_ms * 1000000 ≤ s.clk ∧
     isRequest (s.ring r).kind = true ∧ (s.ring r).head ≠ (s.ring r).tail ∧ (s.ring r).taken = none ∧ (s.ring r).buffers = [] ∧
     s.dmaOk = true) ∧
    (let s : State := late 1000000000 ((ringed { st := .running, kind := 2, sizeLog2 := 4, tail := 16 }).wr HIF_TIMEOUTS.stall_ms 1000);
     let r := 3; (s.ring r).st = .running ∧ (s.ring r).lastTake + s.rd HIF_TIMEOUTS.stall_ms * 1000000 ≤ s.clk ∧
     isRequest (s.ring r).kind = false ∧ (s.ring r).room = 0 ∧ (s.ring r).stallSaid = false) ∧
    (let s : State := running (taken 0x22 []) up; let r := 3; let t := taken 0x22 []; (s.ring r).taken = some t ∧ t.st = .running ∧
     t.waits = false) ∧
    (let s : State := { running (taken 0x22 []) up with hif := { exec := some 3, rings := [(3, { st := .running, kind := 1, taken := some (taken 0x22 []) })], cfg := { pri := false } } };
     let r := 3; let t := taken 0x22 []; (s.ring r).taken = some t ∧ t.st = .running ∧ t.waits = false ∧ s.dmaOk = true ∧ s.priOn = false) ∧
    (let s : State := running (taken 0x22 []) up; let r := 3; let t := taken 0x22 []; (s.ring r).taken = some t ∧ t.st = .running ∧
     t.waits = false ∧ s.dmaOk = true ∧ s.priOn = true ∧ s.hif.exec = some r ∧ (s.ring r).st = .running) ∧
    (let s : State := up; let r := 3; s.hif.requests.findIdx? (fun q => q.ring == r && q.sent) = none) ∧
    (let s : State := { running (parkedT 0x22) up with hif := { exec := some 3, rings := [(3, { st := .parked, kind := 1, taken := some (parkedT 0x22) })], requests := [{ ring := 3, pasid := none, page := 1, sent := true }] } };
     let r := 3; let t := parkedT 0x22; let i := 0; (s.ring r).taken = some t ∧ t.st = .parked ∧
     s.hif.requests.findIdx? (fun q => q.ring == r && q.sent) = some i ∧ (s.hif.requests.filter (fun q => q.ring == r)).length = 1) ∧
    (let g := ({ taken := some (parkedT 0x22) } : Ring); let t := parkedT 0x22; g.taken = some t ∧ t.st = .parked) ∧
    (let s : State := late 9000000 (running (parkedT 0x22) (up.wr HIF_PRICFG.park_ms 9)); let r := 3; let t := parkedT 0x22;
     (s.ring r).taken = some t ∧ t.st = .parked ∧ t.parkedAt + s.rd HIF_PRICFG.park_ms * 1000000 ≤ s.clk) ∧
    (let s : State := ringed { st := .parked, kind := 1, taken := some { parkedT 0x22 with gotPage := true, gotBell := true } }; let r := 3;
     let t := { parkedT 0x22 with gotPage := true, gotBell := true }; (s.ring r).taken = some t ∧ t.st = .parked ∧ t.gotPage = true ∧
     t.gotBell = true ∧ (s.ring r).kind = 1 ∧ (s.ring r).st = .parked) := by
  try dsimp only
  and_intros <;> decide +kernel

theorem witness_RecordsAndPacketRings :
    (let s : State := { recRing 15 with hif := { (recRing 15).hif with lost := [(1, 7)] } }; let r := 3; (s.ring r).st = .running ∧
     (s.ring r).kind = 2 ∧ s.bit HIF_CFG.enable = true ∧ s.lostOf r ≠ []) ∧
    (let s : State := recRing 15; let r := 3; (s.ring r).st = .running ∧ (s.ring r).kind = 2 ∧ s.bit HIF_CFG.enable = true ∧ let i := 0;
     let e := rec0; s.lostOf r = [] ∧ s.hif.events.findIdx? (fun e => s.evRing e.cls == some r) = some i ∧ s.hif.events[i]? = some e ∧
     e.ofModule (s.clk / 1000) = false ∧ let x := s.writeRecord r e.code e.cls e.ns e.sec e.payload e.cont; x.1 = true) ∧
    (let s : State := recRing 16; let r := 3; (s.ring r).st = .running ∧ (s.ring r).kind = 2 ∧ s.bit HIF_CFG.enable = true ∧ let i := 0;
     let e := rec0; s.lostOf r = [] ∧ s.hif.events.findIdx? (fun e => s.evRing e.cls == some r) = some i ∧ s.hif.events[i]? = some e ∧
     e.ofModule (s.clk / 1000) = false ∧ let x := s.writeRecord r e.code e.cls e.ns e.sec e.payload e.cont; x.1 = false) ∧
    (let s : State := recRing 15; let r := 3; Tbl.risingFrom 0 s.hif.rings = true ∧ (s.ring r).irqEn = false ∧ 1 ≤ (s.ring r).room) ∧
    (let s : State := ringed { st := .running, kind := 2, sizeLog2 := 4, tail := 19, head := 3 }; let r := 3;
     let cont := List.replicate 15 [1]; let left := (s.ring r).size - (s.ring r).tail % (s.ring r).size; left < 1 + cont.length ∧
     (s.ring r).room < left) ∧
    (let s : State := ringed { st := .running, kind := 2, sizeLog2 := 4, tail := 15, head := 15 }; let r := 3; let cont := [[1]];
     let left := (s.ring r).size - (s.ring r).tail % (s.ring r).size; left < 1 + cont.length ∧ left ≤ (s.ring r).room) ∧
    (let s : State := ringed { st := .running, kind := 2, sizeLog2 := 4, tail := 15, head := 0 }; let r := 3; let cont := [[1]];
     let left := (s.ring r).size - (s.ring r).tail % (s.ring r).size; left < 1 + cont.length ∧ left ≤ (s.ring r).room) ∧
    (let s : State := { up with hif := { vecs := [(511, { causes := 1 })] } }; let v := 511; v < 512 ∧ s.hif.cfg.msix = true ∧
     (s.vec v).causes ≠ 0 ∧ (s.vec v).lastMsg.all (fun t => decide (t + s.rd (HIF_VMOD.gap_us v) * 1000 ≤ s.clk)) = true ∧
     ((s.vec v).oldest + s.rd (HIF_VMOD.time_us v) * 1000 ≤ s.clk ∨ s.rd (HIF_VMOD.count v) ≤ (s.vec v).causes) ∧
     (s.hif.cfg.maskAll = true ∨ bitOf (s.msixWord (4 * v + 3)) 0 = true)) ∧
    (let s : State := { up.wr HIF_LINKSTAT.up 0 with hif := { vecs := [(511, { causes := 1 })], msix := [(2047, 0)] } }; let v := 511;
     v < 512 ∧ s.hif.cfg.msix = true ∧ (s.vec v).causes ≠ 0 ∧
     (s.vec v).lastMsg.all (fun t => decide (t + s.rd (HIF_VMOD.gap_us v) * 1000 ≤ s.clk)) = true ∧
     ((s.vec v).oldest + s.rd (HIF_VMOD.time_us v) * 1000 ≤ s.clk ∨ s.rd (HIF_VMOD.count v) ≤ (s.vec v).causes) ∧
     s.hif.cfg.maskAll = false ∧ bitOf (s.msixWord (4 * v + 3)) 0 = false ∧ s.dmaOk = false) ∧
    (let s : State := { up.wr HIF_LINKSTAT.up 1 with hif := { vecs := [(511, { causes := 1 })], msix := [(2047, 0)] } }; let v := 511;
     v < 512 ∧ s.hif.cfg.msix = true ∧ (s.vec v).causes ≠ 0 ∧
     (s.vec v).lastMsg.all (fun t => decide (t + s.rd (HIF_VMOD.gap_us v) * 1000 ≤ s.clk)) = true ∧
     ((s.vec v).oldest + s.rd (HIF_VMOD.time_us v) * 1000 ≤ s.clk ∨ s.rd (HIF_VMOD.count v) ≤ (s.vec v).causes) ∧
     s.hif.cfg.maskAll = false ∧ bitOf (s.msixWord (4 * v + 3)) 0 = false ∧ s.dmaOk = true) ∧
    (let s : State := { ringed { st := .running, kind := 3, sizeLog2 := 4, tail := 1 } with hostMem := hostAt 0 (desc 0x71 [(24, 2, 16384)]) };
     let r := 3; let t := taken 0x71 [(24, 2, 16384)]; s.mayTake (s.ring r) 3 = true ∧ leAt (s.headDesc (s.ring r)) 0 1 ≠ 0 ∧
     ((s.takeFrom r).ring r).taken = some t ∧ 64 ≤ t.f 24 2 ∧ t.f 24 2 ≤ 16384) ∧
    (let s : State := { ringed { st := .running, kind := 3, sizeLog2 := 4, tail := 1 } with hostMem := hostAt 0 (desc 0x71 [(24, 2, 16385)]) };
     let r := 3; let t := taken 0x71 [(24, 2, 16385)]; s.mayTake (s.ring r) 3 = true ∧ leAt (s.headDesc (s.ring r)) 0 1 ≠ 0 ∧
     ((s.takeFrom r).ring r).taken = some t ∧ (t.f 24 2 < 64 ∨ 16384 < t.f 24 2)) ∧
    (let s : State := { ringed { st := .running, kind := 3, sizeLog2 := 4, cls := 2, buffers := [taken 0x71 [(16, 8, 4096), (24, 2, 64)]] } with hif := { rings := [(3, { st := .running, kind := 3, sizeLog2 := 4, cls := 2, buffers := [taken 0x71 [(16, 8, 4096), (24, 2, 64)]] })], puntQ := [{ cls := 2, ptr := 5, gen := 1, len := 64 }] } };
     let cls := 2; let r := 3; let k := ({ cls := 2, ptr := 5, gen := 1, len := 64 } : PuntPkt);
     let t := taken 0x71 [(16, 8, 4096), (24, 2, 64)]; let rest := ([] : List Taken); s.nextPunt cls = some (r, k) ∧
     (s.ring r).buffers = t :: rest ∧ s.dmaOk = true) ∧
    (let s : State := injecting 0 0 up; let r := 3; let t := inj0 0 0; let u := injecting 0 0 up; s.injectNow r 0 = (some t, u) ∧
     t.f 24 2 = 0) ∧
    (let s : State := injecting 0 64 (openQ up); let r := 3; let t := inj0 0 64; let u := injecting 0 64 (openQ up);
     s.injectNow r 0 = (some t, u) ∧ let w := ((injecting 0 64 (openQ up)).allocTurn 5).getD up; t.f 24 2 ≠ 0 ∧ u.injectUnderWay r = false ∧
     u.xwait 52 = [] ∧ u.allocTurn 5 = some w ∧ let k := w.injectPacket r t;
     let p : Packet := { k with ord := w.eng.nextOrd, queue := t.f 28 4, fwd := injectResult (w.ring r).cls (t.f 28 4) (t.f 24 2) };
     let v : State := { w with eng := { w.eng with nextOrd := w.eng.nextOrd + 1 } }; let x := v.accept 52 p none [{ queue := t.f 28 4 }];
     x.2.ptr.isSome = true) ∧
    (let s : State := injecting 0 64 up; let r := 3; let t := inj0 0 64; let u := injecting 0 64 up; s.injectNow r 0 = (some t, u) ∧
     let w := ((injecting 0 64 up).allocTurn 5).getD up; t.f 24 2 ≠ 0 ∧ u.injectUnderWay r = false ∧ u.xwait 52 = [] ∧
     u.allocTurn 5 = some w ∧ let k := w.injectPacket r t;
     let p : Packet := { k with ord := w.eng.nextOrd, queue := t.f 28 4, fwd := injectResult (w.ring r).cls (t.f 28 4) (t.f 24 2) };
     let v : State := { w with eng := { w.eng with nextOrd := w.eng.nextOrd + 1 } }; let x := v.accept 52 p none [{ queue := t.f 28 4 }];
     x.2.ptr = none) ∧
    (let s : State := injecting 1 0 up; let r := 3; let t := inj0 1 0; let u := injecting 1 0 up; s.injectNow r 1 = (some t, u) ∧
     t.f 24 2 = 0) ∧
    (let s : State := { injecting 1 64 up with eng := { ingressQ := [(0, List.replicate 4096 {})] } }; let r := 3; let t := inj0 1 64;
     let u := { injecting 1 64 up with eng := { ingressQ := [(0, List.replicate 4096 {})] } }; s.injectNow r 1 = (some t, u) ∧
     t.f 24 2 ≠ 0 ∧ 4096 ≤ (u.dispQ false (u.injectPacket r t).pipe).length) ∧
    (let s : State := { injecting 1 64 up with eng := { ingressQ := [(0, List.replicate 4095 {})] } }; let r := 3; let t := inj0 1 64;
     let u := { injecting 1 64 up with eng := { ingressQ := [(0, List.replicate 4095 {})] } }; s.injectNow r 1 = (some t, u) ∧
     t.f 24 2 ≠ 0 ∧ (u.dispQ false (u.injectPacket r t).pipe).length < 4096) := by
  try dsimp only
  and_intros <;> (first | decide +kernel | exact injecting_now _)

theorem witness_HostCommands_part1 :
    (let s : State := running (taken 0x01 [(16, 4, 0x18), (24, 4, 1)]) up; let r := 3; let t := taken 0x01 [(16, 4, 0x18), (24, 4, 1)];
     Fresh s 0x01 r t ∧ let a := t.f 16 4; let mask := t.f 24 4; regBad a mask = true) ∧
    (let s : State := running (taken 0x01 [(16, 4, 0x4003C), (20, 4, 1000), (24, 4, 0x3FF)]) up; let r := 3;
     let t := taken 0x01 [(16, 4, 0x4003C), (20, 4, 1000), (24, 4, 0x3FF)]; Fresh s 0x01 r t ∧ let a := t.f 16 4; let mask := t.f 24 4;
     regBad a mask = false ∧ isFdAddr a = false) ∧
    (let s : State := (running (taken 0x01 [(16, 4, 0x400018), (24, 4, 255)]) up).wr D2D_STAT.fd_powered 0; let r := 3;
     let t := taken 0x01 [(16, 4, 0x400018), (24, 4, 255)]; Fresh s 0x01 r t ∧ let a := t.f 16 4; let mask := t.f 24 4;
     regBad a mask = false ∧ isFdAddr a = true ∧ s.fdUnreachable = true) ∧
    (let s : State := running (taken 0x01 [(16, 4, 0x400018), (24, 4, 255)]) fdUp; let r := 3;
     let t := taken 0x01 [(16, 4, 0x400018), (24, 4, 255)]; Fresh s 0x01 r t ∧ let a := t.f 16 4; let mask := t.f 24 4; let v := t.f 20 4;
     regBad a mask = false ∧ isFdAddr a = true ∧ s.fdUnreachable = false ∧ s.bridgeUp = true ∧ s.ctlFree false 1 = true ∧
     let u := ((crossed s).regWrite .cmd a mask v).tagDone s.dies.nextTag 0; u.ctlFree true 1 = true) ∧
    (let s : State := withCtl (running (taken 0x01 [(16, 4, 0x400018), (24, 4, 255)]) fdUp); let r := 3;
     let t := taken 0x01 [(16, 4, 0x400018), (24, 4, 255)]; Fresh s 0x01 r t ∧ let a := t.f 16 4; let mask := t.f 24 4; let v := t.f 20 4;
     regBad a mask = false ∧ isFdAddr a = true ∧ s.fdUnreachable = false ∧ s.bridgeUp = true ∧ s.ctlFree false 1 = true ∧
     let u := ((crossed s).regWrite .cmd a mask v).tagDone s.dies.nextTag 0; u.ctlFree true 1 = false) ∧
    (let s : State := running (taken 0x02 [(16, 4, 0x18)]) up; let r := 3; let t := taken 0x02 [(16, 4, 0x18)]; Fresh s 0x02 r t ∧
     (2 ^ 24 ≤ t.f 16 4 ∨ isReserved (t.f 16 4) = true)) ∧
    (let s : State := running (taken 0x02 [(16, 4, 0x4003C)]) up; let r := 3; let t := taken 0x02 [(16, 4, 0x4003C)]; Fresh s 0x02 r t ∧
     t.f 16 4 < 2 ^ 24 ∧ isReserved (t.f 16 4) = false ∧ isFdAddr (t.f 16 4) = false) ∧
    (let s : State := { running (taken 0x03 [(16, 8, 4096), (24, 4, 2)]) up with hostMem := hostAt 4096 [0, 0, 0, 0, 0, 0, 0, 0, 0, 0, 0, 0, 1] };
     let r := 3; let t := taken 0x03 [(16, 8, 4096), (24, 4, 2)]; Fresh s 0x03 r t ∧ s.dmaOk = true ∧ t.progress + 1 < t.f 24 4 ∧
     let b := s.dmaRead (t.f 16 8 + 16 * t.progress) 16; leAt b 12 4 ≠ 0) ∧
    (let s : State := { running (taken 0x03 [(16, 8, 4096), (24, 4, 2)]) up with hostMem := hostAt 4096 [0x18, 0, 0, 0, 0, 0, 0, 0, 1] };
     let r := 3; let t := taken 0x03 [(16, 8, 4096), (24, 4, 2)]; Fresh s 0x03 r t ∧ s.dmaOk = true ∧ t.progress + 1 < t.f 24 4 ∧
     let b := s.dmaRead (t.f 16 8 + 16 * t.progress) 16; leAt b 12 4 = 0 ∧ regBad (leAt b 0 4) (leAt b 8 4) = true) ∧
    (let s : State := { running (taken 0x03 [(16, 8, 4096), (24, 4, 2)]) up with hostMem := hostAt 4096 [0x3C, 0, 4, 0, 232, 3, 0, 0, 255, 3] };
     let r := 3; let t := taken 0x03 [(16, 8, 4096), (24, 4, 2)]; Fresh s 0x03 r t ∧ s.dmaOk = true ∧ t.progress + 1 < t.f 24 4 ∧
     let b := s.dmaRead (t.f 16 8 + 16 * t.progress) 16; leAt b 12 4 = 0 ∧ regBad (leAt b 0 4) (leAt b 8 4) = false ∧
     isFdAddr (leAt b 0 4) = false) ∧
    (let s : State := (running (taken 0x30 [(16, 1, 23), (17, 1, 1), (20, 4, 32768)]) fdUp).wr (bankState 23 1) 3; let r := 3;
     let t := taken 0x30 [(16, 1, 23), (17, 1, 1), (20, 4, 32768)]; Now s 0x30 r t ∧ t.f 16 1 < 24 ∧ t.f 17 1 < 2 ∧ t.f 20 4 ≤ 32768 ∧
     let c := t.f 16 1; let b := t.f 17 1; t.cursor = 0 ∧ (s.rd (bankState c b) = 3 ∨ s.rd (bankState c b) = 4)) ∧
    (let s : State := (running (taken 0x30 [(16, 1, 23), (17, 1, 1), (20, 4, 32768)]) fdUp).wr (bankState 23 1) 4; let r := 3;
     let t := taken 0x30 [(16, 1, 23), (17, 1, 1), (20, 4, 32768)]; Now s 0x30 r t ∧ t.f 16 1 < 24 ∧ t.f 17 1 < 2 ∧ t.f 20 4 ≤ 32768 ∧
     let c := t.f 16 1; let b := t.f 17 1; t.cursor = 0 ∧ (s.rd (bankState c b) = 3 ∨ s.rd (bankState c b) = 4)) ∧
    (let s : State := { (running { taken 0x30 [(16, 1, 23), (17, 1, 1), (20, 4, 32768)] with cursor := 7 } fdUp).wr (bankState 23 1) 1 with eng := { loads := [(47, (7, 3))] } };
     let r := 3; let t := { taken 0x30 [(16, 1, 23), (17, 1, 1), (20, 4, 32768)] with cursor := 7 }; Now s 0x30 r t ∧ t.f 16 1 < 24 ∧
     t.f 17 1 < 2 ∧ t.f 20 4 ≤ 32768 ∧ let c := t.f 16 1; let b := t.f 17 1; t.cursor ≠ 0 ∧ s.rd (bankState c b) = 1 ∧
     (Tbl.get (0, 0) s.eng.loads (2 * c + b)).1 = t.cursor ∧ t.progress + 1 < t.f 20 4) ∧
    (let s : State := { up with eng := { bundles := [(bunKey 23 1 0, bun1 2 (op 0x71 0 0 1 5))] } }; let c := 23; let b := 1; let len := 8;
     firstFailure ((List.range len).map (fun i => s.bundle c b i)) = (0, 0) ∧ b ≠ s.rd (ENG_BANKCTL.live_bank c)) := by
  unfold Now Fresh
  try dsimp only
  and_intros <;> decide +kernel

theorem witness_HostCommands_part2 :
    (let s : State := ((running (taken 0x31 [(16, 1, 23)]) fdUp).wr (bankState 23 1) 2).wr (bankState 23 0) 3; let r := 3;
     let t := taken 0x31 [(16, 1, 23)]; Now s 0x31 r t ∧ t.f 16 1 < 24 ∧ let b := 1 - s.rd (ENG_BANKCTL.live_bank (t.f 16 1));
     s.rd (bankState (t.f 16 1) b) = 2 ∧ s.castleHolds (t.f 16 1) b = false) ∧
    (let s : State := (running (taken 0x31 [(16, 1, 23)]) fdUp).wr (bankState 23 1) 1; let r := 3; let t := taken 0x31 [(16, 1, 23)];
     Now s 0x31 r t ∧ t.f 16 1 < 24 ∧ let b := 1 - s.rd (ENG_BANKCTL.live_bank (t.f 16 1)); s.rd (bankState (t.f 16 1) b) ≠ 2) ∧
    (let s : State := running (taken 0x32 [(16, 1, 23), (20, 4, 524280), (24, 4, 8), (32, 8, 4096)]) fdUp; let r := 3;
     let t := taken 0x32 [(16, 1, 23), (20, 4, 524280), (24, 4, 8), (32, 8, 4096)]; Now s 0x32 r t ∧ pdataBad t false = false ∧
     bitOf (t.f 17 1) 0 = false ∧ t.progress < t.f 24 4 / 8) ∧
    (let s : State := running (taken 0x33 [(16, 1, 23), (20, 4, 524280), (24, 4, 8), (32, 8, 4096)]) fdUp; let r := 3;
     let t := taken 0x33 [(16, 1, 23), (20, 4, 524280), (24, 4, 8), (32, 8, 4096)]; Now s 0x33 r t ∧ pdataBad t false = false ∧
     t.progress < t.f 24 4 / 8) ∧
    (let s : State := running (taken 0x38 [(16, 1, 0)]) fdUp; let r := 3; let t := taken 0x38 [(16, 1, 0)]; t.f 16 1 ≠ 16 ∧
     s.running 0x38 = some (r, t)) ∧
    (let s : State := running (taken 0x39 [(16, 1, 0)]) fdUp; let r := 3; let t := taken 0x39 [(16, 1, 0)]; t.f 16 1 ≠ 16 ∧
     let w := ((running (taken 0x39 [(16, 1, 0)]) fdUp).indRead 0 0).getD []; s.running 0x39 = some (r, t) ∧
     s.indRead (t.f 16 1) (t.f 20 4) = some w) ∧
    (let s : State := running (taken 0x39 [(16, 1, 200)]) fdUp; let r := 3; let t := taken 0x39 [(16, 1, 200)]; t.f 16 1 ≠ 16 ∧
     s.running 0x39 = some (r, t) ∧ s.indRead (t.f 16 1) (t.f 20 4) = none) ∧
    (let s : State := running (taken 0x3A [(16, 1, 0), (24, 8, 4096), (32, 4, 1)]) fdUp; let r := 3;
     let t := taken 0x3A [(16, 1, 0), (24, 8, 4096), (32, 4, 1)]; t.f 16 1 ≠ 16 ∧ let d := 0;
     let u := ((running (taken 0x3A [(16, 1, 0), (24, 8, 4096), (32, 4, 1)]) fdUp).indWrite 0 0 [0, 0, 0, 0, 0, 0]).2;
     s.running 0x3A = some (r, t) ∧ s.dmaOk = true ∧ t.progress < t.f 32 4 ∧ let b := s.dmaRead (t.f 24 8 + 32 * t.progress) 32;
     leAt b 4 4 = 0 ∧ s.indWrite (t.f 16 1) (leAt b 0 4) ((List.range 6).map (fun i => leAt b (8 + 4 * i) 4)) = (d, u) ∧ d = 0) ∧
    (let s : State := { running (taken 0x3A [(16, 1, 0), (24, 8, 4096), (32, 4, 1)]) fdUp with hostMem := hostAt 4096 [255, 255, 255] };
     let r := 3; let t := taken 0x3A [(16, 1, 0), (24, 8, 4096), (32, 4, 1)]; t.f 16 1 ≠ 16 ∧ let d := dBAD_OPERAND;
     let u := { running (taken 0x3A [(16, 1, 0), (24, 8, 4096), (32, 4, 1)]) fdUp with hostMem := hostAt 4096 [255, 255, 255] };
     s.running 0x3A = some (r, t) ∧ s.dmaOk = true ∧ t.progress < t.f 32 4 ∧ let b := s.dmaRead (t.f 24 8 + 32 * t.progress) 32;
     leAt b 4 4 = 0 ∧ s.indWrite (t.f 16 1) (leAt b 0 4) ((List.range 6).map (fun i => leAt b (8 + 4 * i) 4)) = (d, u) ∧ d ≠ 0) ∧
    (let s : State := running (taken 0x3B [(20, 4, 1048575)]) up; let r := 3; let t := taken 0x3B [(20, 4, 1048575)];
     s.running 0x3B = some (r, t) ∧ t.f 16 1 = 0 ∧ t.f 20 4 < 1048576) ∧
    (let s : State := running (taken 0x3B [(16, 1, 1), (20, 4, 65535)]) up; let r := 3; let t := taken 0x3B [(16, 1, 1), (20, 4, 65535)];
     s.running 0x3B = some (r, t) ∧ t.f 16 1 = 1 ∧ t.f 20 4 < 65536) ∧
    (let s : State := running (taken 0x3B [(16, 1, 2)]) up; let r := 3; let t := taken 0x3B [(16, 1, 2)]; s.running 0x3B = some (r, t) ∧
     1 < t.f 16 1) ∧
    (let s : State := running (taken 0x40 [(16, 4, 50331648), (20, 4, 16777216), (32, 8, 4096)]) up; let r := 3;
     let t := taken 0x40 [(16, 4, 50331648), (20, 4, 16777216), (32, 8, 4096)]; s.running 0x40 = some (r, t) ∧ s.dmaOk = true ∧
     t.progress < t.f 20 4 ∧ t.f 20 4 ≤ 16777216 ∧ t.f 16 4 + t.f 20 4 ≤ 67108864) := by
  unfold Now
  try dsimp only
  and_intros <;> decide +kernel

/-! ### 05_buffer.md, 06_queues_fabric.md, 07_scheduling_shaping.md -/

/-- A packet of pipe 3, and one that the ingress pass punts. -/
def pk3 (b0 : Nat) : Packet := { bytes := [1, 2, 3], pipe := 3, fwd := b0 :: List.replicate 47 0 }

/-- A chain of one cell with that packet, QUEUED; its entry of a queue. -/
def ch5 : Chain := { gen := 9, owner := 0x10, cells := [5], n := 1, pkt := pk3 0 }
def ent5 : QEnt := { ptr := 5, gen := 9, n := 1, len := 3 }

/-- VOQ 11 (destination 1, class 3) holds the packet of chain 5; the destination is of device 5, which fabric link 0 reaches. -/
def voq11 : State := { ((up.wr D2D_STAT.bridge 0).wr QM_CFG.enable 1).wr (QM_LINKSTAT.state 0) 0 with
  bpm := { chains := [(5, ch5)], used := [(5, true)] },
  qm := { queues := [(2 ^ 20 + 11, { ents := [ent5], cells := 1, pkts := 1 })], voqs := [(11, { balance := 1000 })], buckets := [(320, { link := some 0 })],
          tab := [(entKey 2 1 0, 2 ^ 30 + 5 * 2 ^ 16), (entKey 4 5 0, 1)] } }

/-- Egress queue 0 holds the packet of chain 5, below enabled nodes up to port 0, which is UP. -/
def egr (s : State) : State := { ((s.wr D2D_STAT.bridge 0).wr SCH_CFG.enable 1).wr (LPT_STAT.state 0) 2 with
  bpm := { chains := [(5, ch5)], used := [(5, true)] }, qm := { queues := [(0, { ents := [ent5], cells := 1, pkts := 1 })] },
  sch := { nodes := [0, 1, 2, 3, 4].map (fun l => (nodeKey l 0, { enable := true })) } }

/-- A packet of a link's transmit queue as a cell. -/
def cell0 (bucket : Nat) : TxCell :=
  { ucast := true, cls := 3, dst := 5, payload := [1], first := 0, pkts := [{ bucket := bucket, ptr := 5, gen := 9, voq := 11, len := 3 }] }

/-- A credit message of kind `k` from or to device `d`. -/
def cred (k d voq units : Nat) : List Nat := creditBytes k d voq units

/-- VOQ 11 with its chain in the deep tier. -/
def deep11 : State := { voq11 with
  bpm := { chains := [(2 ^ 38 + 5, ch5)], used := [(2 ^ 38 + 5, true)] },
  qm := { voq11.qm with queues := [(2 ^ 20 + 11, { ents := [{ ent5 with ptr := 2 ^ 38 + 5 }], cells := 1, pkts := 1 })] } }

/-- Egress queue 0 with a shallow and a deep chain, both enqueued 1 s ago; no guard and no tail zone, and Reserve channel 7 of 64 GiB. -/
def evictQ : State := { (((((((up.wr BPM_RSVCFG.enable 1).wr (BPM_PFRSV.rsv_en 0) 1).wr (BPM_PFRSV.rsv_cells 0) 1).wr BPM_MOVECFG.guard_cells 0).wr
    BPM_MOVECFG.tail_units 0).wr (BPM_PFAGE.rsv_age_us 0) 1000).wr (BPM_PFHEAD.head_cells 0) 1).wr (MCD_DIMM.capacity_gib 7) 64 with
  bpm := { chains := [(5, ch5), (2 ^ 38 + 5, ch5)], used := [(5, true), (2 ^ 38 + 5, true)], stripe := [7], prefetch := 0 },
  tim := { sec := 1 },
  qm := { queues := [(0, { ents := [ent5, { ent5 with ptr := 2 ^ 38 + 5 }], cells := 2, pkts := 2 })] } }

/-- A POL call of policer `i` for a packet of `b` bytes with input colour `c`. -/
def polCall (i c b : Nat) : Call := call0 3 0 (beBytes 8 (i * 2 ^ 43 + c * 2 ^ 41 + b))
def withPol (x : Policer) (s : State) : State := { s with sch := { pol := [(2097151, x)] } }
def pol0 : Policer := { enable := true, cir := 1000, cbs := 100, ebs := 50, tc := 10, te := 20 }

/-- A time gate of port 127 with one entry of 1,000 ns, a cycle of 1,000 ns, and its list ready for activation. -/
def gated (g : Gate) (s : State) : State :=
  { ((s.wr (TG_LEN.entries 127) 1).wr (TG_CYCLE.ns 127) 1000).wr (TG_BASE0.ns 127) 999999999 with
    sch := { gates := [(127, { g with list := [(0, (85, 1000))] })] }, tim := { sec := 7, ns := 500 } }

/-- A node write of level 0 with a weight and a burst in both buckets. -/
def nodeIn (i d0 weight burst : Nat) : State :=
  ((((up.wr SCH_NIDX.index i).wr SCH_NDATA0.enable d0).wr SCH_NDATA0.weight weight).wr SCH_NDATA3.cburst burst).wr SCH_NDATA5.pburst burst

/-- A record that waits at fabric link 47, for a queue (none) or for multicast group 9, whose list names queue 0; group 8 has none. -/
def recQ (g : Option Nat) : State := { openQ up with
  flk := { recs := [(47, [(g, pk3 0)])], recOrd := [47] },
  qm := { tab := Tbl.ins (entKey 5 9 1) 1 [(0, 2 ^ 31)] } }

/-- A chain that two queues share, three references in all; HOST_PUNT reads it for queue 7. -/
def shQ : State := { openQ up with bpm := { chains := [(5, { ch5 with owner := 0x1F, share := 2 })], share := [(2, 3)] } }
def shRead (n : Nat) : State := { shQ with
  bpm := { shQ.bpm with share := [(2, n)], used := [(5, true)], reading := [{ queue := 7, ptr := 5, gen := 9, n := 1, unit := 0x13 }] },
  qm := { queues := [(7, { cells := 1, pkts := 1 })], replicas := 3 } }

/-- A buffer of shallow cells alone, with cells in the holding buffer of fabric link 47. -/
def freeQ (held : List XCell) : State := { openQ (up.wr (BPM_PFLIMIT.dyn_en 0) 0) with bpm := { deepM := 0, prefetch := 0, wait := [(51, held)] } }

/-- The chain of VOQ 11 has a copy, started at generation `gen`. -/
def moving (gen : Nat) : State := { voq11 with bpm := { voq11.bpm with moves := [{ src := 5, gen := gen, kind := 0, dst := 6, cells := [6] }] } }

/-- A credit generator of destination 8191 on port 127, which is UP, at rate 9. -/
def genUp (g : CreditGen) (flows : List (Nat × Flow)) : State := { ((up.wr (LPT_STAT.state 127) 2).wr D2D_STAT.bridge 0) with
  qm := { tab := [(entKey 3 8191 0, 2 ^ 31 + 127 * 2 ^ 16 + 9)], gens := [(8191, g)], flows := flows } }

/-- VOQ 11 with an entry whose chain is another's by now, with one of a mirror session, and as an MCAST destination of rate 9. -/
def stale11 : State := { voq11 with qm := { voq11.qm with queues := [(2 ^ 20 + 11, { ents := [{ ent5 with gen := 8 }], cells := 1, pkts := 1 })] } }
def sess11 : State := { voq11 with qm := { voq11.qm with
  queues := [(2 ^ 20 + 11, { ents := [{ ent5 with session := some 1023 }], cells := 1, pkts := 1 })] } }
def mcast11 : State := { voq11 with qm := { voq11.qm with
  tab := [(entKey 2 1 0, 2 ^ 31 + 9), (entKey 4 0 0, 1)], buckets := [(0, { link := some 0 })] } }

/-- Bucket 63 of device 5 after its fabric delay, on its way to link 47. -/
def delayed (reach : Nat) (old : Option Nat) : State := late 1000000000 { up.wr (QM_LINKSTAT.state 47) 0 with
  qm := { tab := [(entKey 4 5 1, reach)], buckets := [(383, { link := old, held := true, phase := .delay, target := some 47 })] } }

/-- Egress queue 0 with an entry of generation `gen`. -/
def egrGen (gen : Nat) : State := { egr up with qm := { queues := [(0, { ents := [{ ent5 with gen := gen }], cells := 1, pkts := 1 })] } }

/-- A packet waits at the MAC of port 127 in class 7. -/
def macWaits : State := up.setLinePort 127 { up.linePort 127 with wait := [(7, [pk3 0])] }

/-- VOQ 11 with its chain in a page of RESERVE channel 7, whose return port caps copies and has tokens. -/
def rsv11 : State := { voq11 with
  bpm := { chains := [(2 ^ 39 + 256 * 7 + 5, { ch5 with cells := [] })], pages := [(7, 1)] },
  sch := { nodes := [(nodeKey 4 143, { peak := { rate := 9, tok := 100 } })] },
  qm := { voq11.qm with queues := [(2 ^ 20 + 11, { ents := [{ ent5 with ptr := 2 ^ 39 + 256 * 7 + 5 }], cells := 1, pkts := 1 })] } }

theorem witness_BufferAndFlowControl_refused : Open up ∧ up.rd BPM_RSVCFG.enable = 0 ∧ ∀ ch, 4 ≤ ch → ch < 8 → up.rd (MCD_CFG.role ch) ≠ 2 := by
  refine ⟨by unfold Open Reached; decide +kernel, by decide +kernel, fun ch h h' => ?_⟩
  interval_cases ch <;> decide +kernel

/-- A credit flow table of 65,536 flows, and a wait list. -/
def flowsFull (n : Nat) : State := { up with qm := { flows := List.replicate 65536 (5, {}), flowWait := List.replicate n 5 } }

theorem flowsFull_spec (n : Nat) : (flowsFull n).qm.flows.any (fun e => e.1 == flowKey 2047 65535) = false ∧
    65536 ≤ (flowsFull n).qm.flows.length ∧ (flowsFull n).qm.flowWait.contains (flowKey 2047 65535) = false ∧ (flowsFull n).qm.flowWait.length = n := by
  refine ⟨?_, ?_, ?_, ?_⟩ <;> simp only [flowsFull, List.any_replicate, List.length_replicate, List.contains_eq_any_beq]
  · decide
  · exact Nat.le_refl _
  · by_cases h : n = 0
    · simp [h]
    · rw [if_neg h]; decide

theorem witness_Credits_full : crc8 (sliceB (cred 2 2047 65535 0) 0 7) = leAt (cred 2 2047 65535 0) 7 1 ∧
    creditFields (cred 2 2047 65535 0) = (2, 2047, 65535, 0) ∧ (flowsFull 4095).qm.flowWait.length < 4096 ∧
    4096 ≤ (flowsFull 4096).qm.flowWait.length :=
  ⟨by decide +kernel, by decide +kernel, by rw [(flowsFull_spec _).2.2.2]; decide, by rw [(flowsFull_spec _).2.2.2]⟩

theorem firstFree_found (ok : Nat → Bool) (size t : Nat) (ht : t < size) (hok : ok t = true) :
    ∀ n k, t < size → (t + size - k % size) % size < n → (firstFree ok size n k).isSome = true
  | 0, _, _, h => absurd h (Nat.not_lt_zero _)
  | n + 1, k, hs, h => by
    unfold firstFree
    by_cases hk : ok (k % size) = true
    · rw [if_pos hk]; rfl
    · rw [if_neg hk]
      have hne : k % size ≠ t := fun e => hk (e ▸ hok)
      refine firstFree_found ok size t ht hok n (k + 1) hs ?_
      have hkl := Nat.mod_lt k (Nat.lt_of_le_of_lt (Nat.zero_le _) hs)
      rw [Nat.add_mod k 1 size]
      rcases Nat.lt_or_ge 1 size with h1 | h1
      · rw [Nat.mod_eq_of_lt h1]
        rcases Nat.lt_or_ge (k % size + 1) size with h2 | h2
        · rw [Nat.mod_eq_of_lt h2]
          rcases Nat.lt_or_ge t (k % size) with h3 | h3
          · rw [Nat.mod_eq_of_lt (by omega)] at h ⊢; omega
          · rw [Nat.mod_eq_sub_mod (by omega), Nat.mod_eq_of_lt (by omega)] at h
            rw [Nat.mod_eq_sub_mod (by omega), Nat.mod_eq_of_lt (by omega)]; omega
        · have : k % size + 1 = size := by omega
          rw [this, Nat.mod_self]
          have h4 : (t + size - k % size) % size = t + 1 := by rw [Nat.mod_eq_of_lt (by omega)]; omega
          rw [Nat.mod_eq_sub_mod (by omega), Nat.mod_eq_of_lt (by omega)]; omega
      · omega

theorem witness_MovesKeepOrder_eviction : ∃ page u,
    firstFrom evictQ.bpm.evictNext (evictQ.liveQueues.filter (fun k => evictQ.evictable k && !(evictQ.evictions k).isEmpty)) = some 0 ∧
    evictQ.bpm.evictAt ≤ evictQ.fine ∧
    evictQ.prefetchable.any (fun p => tierOf p == 2 && decide ((evictQ.chain p).n ≤ evictQ.freeNow 1)) = false ∧
    evictQ.takePage = some (page, u) := by
  have h : evictQ.takePage.isSome = true := by
    unfold State.takePage
    rw [Option.isSome_map]
    exact firstFree_found _ _ 7 (by decide +kernel) (by decide +kernel) _ _ (by decide +kernel) (Nat.mod_lt _ (by decide +kernel))
  obtain ⟨⟨page, u⟩, e⟩ := Option.isSome_iff_exists.1 h
  exact ⟨page, u, by decide +kernel, by decide +kernel, by decide +kernel, e⟩

theorem firstFree_lt (ok : Nat → Bool) (size : Nat) (hs : 0 < size) : ∀ n k j, firstFree ok size n k = some j → j < size
  | 0, _, _, h => by cases h
  | n + 1, k, j, h => by
    unfold firstFree at h
    split at h
    · cases h; exact Nat.mod_lt _ hs
    · exact firstFree_lt ok size hs n (k + 1) j h

theorem takeCells_lt (tier size : Nat) (ok : Nat → Bool) (hs : 0 < size) : ∀ n (s : State), ∀ k ∈ (State.takeCells tier size ok n s).1, k < size
  | 0, _, k, h => by cases h
  | n + 1, s, k, h => by
    unfold State.takeCells at h
    split at h
    · cases h
    · rename_i k' s' e
      rcases List.mem_cons.1 h with rfl | h
      · unfold State.takeCell at e
        dsimp only at e
        split at e
        · cases e
        · rename_i j hj; cases e; exact firstFree_lt _ _ hs _ _ _ hj
      · exact takeCells_lt tier size ok hs n s' k h

/-- Cell 3 of 4 is taken; cell 4 is no cell of the tier. -/
def cellsOf4 : State := { up with bpm := { used := [(3, true)] } }
theorem witness_CellsTakenAndReleased_others : Tbl.risingFrom 0 cellsOf4.bpm.used = true ∧
    ∀ k ∈ (State.takeCells 0 4 (fun _ => true) 3 cellsOf4).1, 4 ≠ cellPtr 0 k :=
  ⟨by decide +kernel, fun k h => by have := takeCells_lt 0 4 _ (by decide) 3 _ k h; unfold cellPtr; omega⟩

theorem witness_BufferAndFlowControl :
    (let s : State := { openQ up with dies := { ft := { arrived := [pk3 0x80] } } }; let w := 3; let k := pk3 0x80;
     let turn := (({ openQ up with dies := { ft := { arrived := [pk3 0x80] } } } : State).allocTurn 3).getD up; w < 4 ∧
     s.dies.ft.arrived.find? (fun k => k.pipe == w) = some k ∧ s.xwait w = [] ∧ s.allocTurn w = some turn) ∧
    (let s : State := recQ none; let l := 47; let g := (none : Option Nat); let k := pk3 0; let rest := ([] : List (Option Nat × Packet));
     let turn := ((recQ none).allocTurn 4).getD up; l < 48 ∧ Tbl.get [] s.flk.recs l = (g, k) :: rest ∧ s.flk.recOrd.head? = some l ∧
     s.allocTurn 4 = some turn ∧ g = none) ∧
    (let s : State := recQ (some 9); let l := 47; let g := (some 9 : Option Nat); let k := pk3 0;
     let rest := ([] : List (Option Nat × Packet)); let turn := ((recQ (some 9)).allocTurn 4).getD up; l < 48 ∧
     Tbl.get [] s.flk.recs l = (g, k) :: rest ∧ s.flk.recOrd.head? = some l ∧ s.allocTurn 4 = some turn ∧
     let u : State := { turn with flk := { s.flk with recs := Tbl.set [] s.flk.recs l rest, recOrd := s.flk.recOrd.tail } }; let n := 9;
     g = some n ∧ u.replicas n ≠ []) ∧
    (let s : State := recQ (some 8); let l := 47; let g := (some 8 : Option Nat); let k := pk3 0;
     let rest := ([] : List (Option Nat × Packet)); let turn := ((recQ (some 8)).allocTurn 4).getD up; l < 48 ∧
     Tbl.get [] s.flk.recs l = (g, k) :: rest ∧ s.flk.recOrd.head? = some l ∧ s.allocTurn 4 = some turn ∧
     let u : State := { turn with flk := { s.flk with recs := Tbl.set [] s.flk.recs l rest, recOrd := s.flk.recOrd.tail } }; let n := 8;
     g = some n ∧ u.replicas n = []) ∧
    (let s : State := late 5 (openQ up); let r := 5; r < 6 ∧ s.bpm.allocAt ≠ s.clk ∧ (∀ x, x < 6 → x ≠ r → s.allocWaits x = false)) ∧
    (let s : State := late 5 { openQ up with bpm := { allocAt := 5, allocPos := 0, allocN := 16 } }; let r := 5; r < 6 ∧
     s.bpm.allocAt = s.clk ∧ s.bpm.allocPos = (r + 6 - s.clk % 6) % 6 ∧ 16 ≤ s.bpm.allocN) ∧
    (let s : State := up; let k := pk3 0; let a := ({} : Admitted); let d := ({ queue := 0 } : Dest); a.dead = false ∧
     let n := k.bytes.length; s.refusal d.queue n ≠ 0) ∧
    (let s : State := { shQ with qm := { shQ.qm with replicas := 8388608 } }; let k := pk3 0;
     let a := ({ ptr := some 5, dests := [{ queue := 7 }] } : Admitted); let d := ({ queue := 0 } : Dest); a.dead = false ∧
     let n := k.bytes.length; let ptr := 5; s.refusal d.queue n = 0 ∧ a.ptr = some ptr ∧ let r := 0x10; s.takeRef ptr = .inl r) ∧
    (let s : State := shQ; let k := pk3 0; let a := ({ ptr := some 5, dests := [{ queue := 7 }] } : Admitted);
     let d := ({ queue := 0 } : Dest); a.dead = false ∧ let n := k.bytes.length; let ptr := 5; s.refusal d.queue n = 0 ∧ a.ptr = some ptr ∧
     let u := (shQ.takeRef 5).elim (fun _ => up) id; s.takeRef ptr = .inr u) ∧
    (let s : State := { openQ (up.wr (BPM_PFLIMIT.dyn_en 0) 0) with bpm := { prefetch := 393216, deepM := 0 } }; let w := 3; let k := pk3 0;
     let a := ({} : Admitted); let d := ({ queue := 0 } : Dest); a.dead = false ∧ let n := k.bytes.length; s.refusal d.queue n = 0 ∧
     a.ptr = none ∧ d.session = none ∧ s.chainArea w d.queue (cellsOf n) = none) ∧
    (let s : State := freeQ []; let w := 51; let k := pk3 0; let a := ({} : Admitted); let d := ({ queue := 0 } : Dest); a.dead = false ∧
     let n := k.bytes.length; s.refusal d.queue n = 0 ∧ a.ptr = none ∧ d.session = none ∧ let area := 0;
     s.chainArea w d.queue (cellsOf n) = some area ∧ s.overflow w area (cellsOf n) = 0) ∧
    (let s : State := freeQ (List.replicate 512 { input := 108, ptr := 6, cell := 6 }); let w := 51; let k := pk3 0;
     let a := ({} : Admitted); let d := ({ queue := 0 } : Dest); a.dead = false ∧ let n := k.bytes.length; s.refusal d.queue n = 0 ∧
     a.ptr = none ∧ d.session = none ∧ let area := 0; let m := 0; s.chainArea w d.queue (cellsOf n) = some area ∧
     s.overflow w area (cellsOf n) = m + 1) ∧
    (let s : State := { openQ up with bpm := { chains := [(5, { ch5 with owner := 4 })], used := [(5, true)], jobs := [(3, [{ ptr := 5, dests := [{ queue := 0 }] }])] } };
     let w := 3; let j := ({ ptr := 5, dests := [{ queue := 0 }] } : Job); let rest := ([] : List Job);
     Tbl.get [] s.bpm.jobs w = j :: rest ∧ s.writing j.ptr = false) ∧
    (let s : State := up; let m := 188; Open s ∧ s.regsOk = true ∧ 64 ≤ m ∧ m ≤ 188 ∧ s.rd BPM_CFG.enable = 0) ∧
    (let s : State := up; let m := 64; Open s ∧ s.regsOk = true ∧ 64 ≤ m ∧ m ≤ 188 ∧ s.rd BPM_CFG.enable = 0) ∧
    (let s : State := up.wr BPM_CFG.enable 1; let m := 188; Open s ∧ s.regsOk = true ∧ 64 ≤ m ∧ m ≤ 188 ∧ s.rd BPM_CFG.enable = 1) ∧
    (let s : State := up.wr (MCD_CFG.role 7) 2; Open s ∧ s.regsOk = true ∧ s.rd BPM_RSVCFG.enable = 0 ∧ (∃ ch, 4 ≤ ch ∧ ch < 8 ∧
     s.rd (MCD_CFG.role ch) = 2)) ∧
    (let s : State := { up with bpm := { lost := [3, 5], used := [(3, true), (5, true), (7, true)], weak := [5] } }; s.bpm.lost ≠ []) ∧
    (let s : State := (up.wr (LPT_STAT.state 127) 3).wr (QM_PFCRX.rx_en 127) 5; let p := 127; p < 128 ∧ 2 ≤ s.portState p) ∧
    (let s : State := (up.wr (LPT_STAT.state 127) 2).wr (QM_PFCCFG.rx_pause 127) 0; let p := 127; p < 128 ∧ 2 ≤ s.portState p ∧
     s.rd (QM_PFCCFG.rx_pause p) = 0) ∧
    (let s : State := (up.wr (LPT_STAT.state 127) 2).wr (QM_PFCCFG.rx_pause 127) 1; let p := 127; p < 128 ∧ 2 ≤ s.portState p ∧
     s.rd (QM_PFCCFG.rx_pause p) = 1) ∧
    (let s : State := late 5000 { up.wr (QM_PFCSTAT.paused 127) 128 with qm := { pauseEnd := [(1023, 5000)] } }; let p := 127; let c := 7;
     p < 128 ∧ c < 8 ∧ bitOf (s.rd (QM_PFCSTAT.paused p)) c = true ∧ Tbl.get 0 s.qm.pauseEnd (8 * p + c) ≤ s.clk) ∧
    (let s : State := late 1000000000 { up.wr (LPT_STAT.state 127) 2 with bpm := { pfcSent := [(1023, 1)], pfc := [(1023, 10000000)] } };
     let p := 127; let c := 7; let t := 0; p < 128 ∧ c < 8 ∧ Tbl.get 0 s.bpm.pfcSent (8 * p + c) = t + 1 ∧ s.portState p = 2 ∧
     s.rd (QM_PFCTHR.xon p c) * 16 < s.pfcOcc (8 * p + c) ∧ Past s t (s.rd (QM_PFCCFG.quanta p) * 256 / s.portGbps p)) := by
  unfold Open Past Reached
  try dsimp only
  and_intros <;> (first
    | decide +kernel | exact fun _ h1 h2 => absurd (Nat.lt_of_lt_of_le h1 h2) (by decide +kernel) | exact fun _ _ => rfl
    | (intro _ h; cases h; done) | (intro _ h; cases h; decide +kernel) | exact .inl (by decide +kernel) | exact .inr (.inl (by decide +kernel))
    | (simp only [← List.mem_range]; decide +kernel) | exact ⟨0, by decide +kernel⟩ | exact ⟨7, by decide +kernel⟩)

theorem witness_CellsTakenAndReleased :
    (let s : State := { up with bpm := { used := [(3, true)] } }; Tbl.risingFrom 0 s.bpm.used = true) ∧
    (let s : State := up; let ptr := 5; let gen := 0; (s.chain ptr).owner = 0 ∨ (s.chain ptr).gen ≠ gen) ∧
    (let s : State := voq11; let ptr := 5; let gen := 8; (s.chain ptr).owner = 0 ∨ (s.chain ptr).gen ≠ gen) ∧
    (let s : State := voq11; let ptr := 5; let unit := 0x11; (s.chain ptr).owner ≠ 0 ∧ ((s.chain ptr).owner = ownerShared ∧
     readerCode unit = false) ∨ ((s.chain ptr).owner ≠ ownerShared ∧ (s.chain ptr).owner ≠ unit)) ∧
    (let s : State := shRead 3; let ptr := 5; let unit := 0x14; (s.chain ptr).owner ≠ 0 ∧ ((s.chain ptr).owner = ownerShared ∧
     readerCode unit = false) ∨ ((s.chain ptr).owner ≠ ownerShared ∧ (s.chain ptr).owner ≠ unit)) ∧
    (let s : State := voq11; let ptr := 5; (s.chain ptr).owner ≠ 0 ∧ (s.chain ptr).owner ≠ ownerShared) ∧
    (let s : State := shRead 3; let ptr := 5; let unit := 0x13; let n := 3; (s.chain ptr).owner = ownerShared ∧ readerCode unit = true ∧
     Tbl.get 0 s.bpm.share (s.chain ptr).share = n ∧ 2 ≤ n) ∧
    (let s : State := shRead 1; let ptr := 5; let unit := 0x13; let n := 1; (s.chain ptr).owner = ownerShared ∧ readerCode unit = true ∧
     Tbl.get 0 s.bpm.share (s.chain ptr).share = n ∧ n ≤ 1) ∧
    (let s : State := shRead 3; let ptr := 5; let gen := 9; let unit := 0x13;
     let x := ({ queue := 7, ptr := 5, gen := 9, n := 1, unit := 0x13 } : Reading);
     s.bpm.reading.find? (fun y => y.ptr == ptr && y.gen == gen && y.unit == unit) = some x) ∧
    (let s : State := shRead 3; let ptr := 5; let gen := 9; let unit := 0x13;
     let x := ({ queue := 7, ptr := 5, gen := 9, n := 1, unit := 0x13 } : Reading);
     s.bpm.reading.find? (fun y => y.ptr == ptr && y.gen == gen && y.unit == unit) = some x ∧ Tbl.risingFrom 0 s.qm.queues = true) := by
  try dsimp only
  and_intros <;> decide +kernel

theorem witness_CrossbarMatching :
    (let s : State := { up with bpm := { inputs := [(0, [{ input := 0, ptr := 5, cell := 127 }, { input := 0, ptr := 5, cell := 3 }]), (120, [{ input := 120, ptr := 6, cell := 255 }])] } };
     let n := 3; let m := s.xMatch n (s.xIterate []); let e := (0, 3); e ∈ m) := by
  try dsimp only
  and_intros <;> decide +kernel

theorem witness_MovesKeepOrder :
    (let s : State := voq11; Tbl.risingFrom 0 s.qm.queues = true) ∧
    (let s : State := moving 9; let src := 5; let m := ({ src := 5, gen := 9, kind := 0, dst := 6, cells := [6] } : Move); let ecc := 0;
     s.bpm.moves.find? (fun m => m.src == src) = some m ∧ s.writing m.dst = false ∧
     let a : State := { s with bpm := { s.bpm with moves := s.bpm.moves.erase m } }; let u := a.readMark ecc; ecc ≠ 1 ∧ ecc ≠ 2 ∧
     u.mayswap m = true) ∧
    (let s : State := moving 9; let src := 5; let m := ({ src := 5, gen := 9, kind := 0, dst := 6, cells := [6] } : Move); let ecc := 3;
     s.bpm.moves.find? (fun m => m.src == src) = some m ∧ s.writing m.dst = false ∧
     let a : State := { s with bpm := { s.bpm with moves := s.bpm.moves.erase m } }; let u := a.readMark ecc; ecc ≠ 1 ∧ ecc ≠ 2 ∧
     u.mayswap m = true) ∧
    (let s : State := moving 8; let src := 5; let m := ({ src := 5, gen := 8, kind := 0, dst := 6, cells := [6] } : Move); let ecc := 0;
     s.bpm.moves.find? (fun m => m.src == src) = some m ∧ s.writing m.dst = false ∧
     let a : State := { s with bpm := { s.bpm with moves := s.bpm.moves.erase m } }; let u := a.readMark ecc; ecc ≠ 1 ∧ ecc ≠ 2 ∧
     u.mayswap m = false) ∧
    (let s : State := moving 9; let src := 5; let m := ({ src := 5, gen := 9, kind := 0, dst := 6, cells := [6] } : Move); let ecc := 2;
     s.bpm.moves.find? (fun m => m.src == src) = some m ∧ s.writing m.dst = false ∧ (ecc = 1 ∨ ecc = 2) ∧ (s.chain src).gen = m.gen ∧
     (s.chain src).owner ≠ 0) ∧
    (let s : State := moving 8; let src := 5; let m := ({ src := 5, gen := 8, kind := 0, dst := 6, cells := [6] } : Move); let ecc := 1;
     s.bpm.moves.find? (fun m => m.src == src) = some m ∧ s.writing m.dst = false ∧ (ecc = 1 ∨ ecc = 2) ∧
     (s.chain src).gen ≠ m.gen ∨ (s.chain src).owner = 0) ∧
    (let s : State := deep11; let ptr := 2 ^ 38 + 5; s.oldest s.prefetchable = some ptr ∧ (s.chain ptr).n ≤ s.freeNow 1 ∧ s.xwait 53 = [] ∧
     (s.returnCap ptr).all (fun x => decide (0 < x.2.peak.tok)) = true) ∧
    (let s : State := rsv11; let ptr := 2 ^ 39 + 256 * 7 + 5; s.oldest s.prefetchable = some ptr ∧ (s.chain ptr).n ≤ s.freeNow 1 ∧
     s.xwait 53 = [] ∧ (s.returnCap ptr).all (fun x => decide (0 < x.2.peak.tok)) = true) ∧
    (let s : State := { deep11 with bpm := { deep11.bpm with evac := [5], used := [(2 ^ 38 + 5, true)] } }; let unit := 5;
     unit ∈ s.bpm.evac ∧ s.evacEmpty unit = false) ∧
    (let s : State := { up with bpm := { evac := [5, 6] } }; let unit := 5; unit ∈ s.bpm.evac ∧ s.evacEmpty unit = true) ∧
    (let s : State := { up with bpm := { evac := [5, 1007], stripe := [6, 7] } }; let unit := 1007; unit ∈ s.bpm.evac ∧
     s.evacEmpty unit = true) := by
  try dsimp only
  and_intros <;> decide +kernel

theorem witness_Credits :
    (let b := [1, 2, 3, 4, 5, 6, 7, 0]; crc8 (sliceB b 0 7) ≠ leAt b 7 1) ∧
    (let s : State := up; let b := cred 1 0 65535 4095; let dev := 0; let voq := 65535; let units := 4095;
     crc8 (sliceB b 0 7) = leAt b 7 1 ∧ creditFields b = (1, dev, voq, units) ∧ dev = s.rd QM_CFG.dev_id) ∧
    (let s : State := up; let b := cred 1 2047 65535 4095; let dev := 2047; let voq := 65535; let units := 4095;
     crc8 (sliceB b 0 7) = leAt b 7 1 ∧ creditFields b = (1, dev, voq, units) ∧ dev ≠ s.rd QM_CFG.dev_id) ∧
    (let s : State := up; let b := cred 2 2047 65535 0; let dev := 2047; let voq := 65535; let units := 0;
     crc8 (sliceB b 0 7) = leAt b 7 1 ∧ creditFields b = (2, dev, voq, units) ∧ s.qm.flows.any (fun e => e.1 == flowKey dev voq) = false ∧
     s.qm.flows.length < 65536) ∧
    (let s : State := { up with qm := { flows := [(flowKey 2047 65535, { outstanding := 512, emptied := true })] } };
     let b := cred 2 2047 65535 0; let dev := 2047; let voq := 65535; let units := 0; crc8 (sliceB b 0 7) = leAt b 7 1 ∧
     let f := ({ outstanding := 512, emptied := true } : Flow); creditFields b = (2, dev, voq, units) ∧
     s.qm.flows.find? (fun e => e.1 == flowKey dev voq) = some (flowKey dev voq, f)) ∧
    (let s : State := { up with qm := { flows := [(flowKey 2047 65535, { outstanding := 512 })] } }; let b := cred 3 2047 65535 2;
     let dev := 2047; let voq := 65535; let units := 2; crc8 (sliceB b 0 7) = leAt b 7 1 ∧ let f := ({ outstanding := 512 } : Flow);
     creditFields b = (3, dev, voq, units) ∧ s.qm.flows.find? (fun e => e.1 == flowKey dev voq) = some (flowKey dev voq, f)) ∧
    (let s : State := { up with qm := { flows := [(flowKey 5 8, {}), (flowKey 2047 65535, { outstanding := 10000000 })] } };
     let b := cred 3 2047 65535 2; let dev := 2047; let voq := 65535; let units := 2; crc8 (sliceB b 0 7) = leAt b 7 1 ∧
     let f := ({ outstanding := 10000000 } : Flow); creditFields b = (3, dev, voq, units) ∧
     s.qm.flows.find? (fun e => e.1 == flowKey dev voq) = some (flowKey dev voq, f)) ∧
    (let s : State := late 1000000000 { voq11 with qm := { voq11.qm with voqs := [] } }; let v := 11; v < 65536 ∧
     (s.queue (voqKey v)).ents ≠ [] ∧ (s.voq v).balance ≤ 0 ∧
     Past s (max (s.voq v).grantAt (s.voq v).reqAt) (s.rd QM_CREDTIME.stale_us * 1000)) ∧
    (let s : State := late 3000000000 ({ voq11 with qm := { voq11.qm with voqs := [] } }.wr QM_CREDTIME.lost_ms 1000); let v := 11;
     v < 65536 ∧ (s.queue (voqKey v)).ents ≠ [] ∧ 0 < s.rd QM_CREDTIME.lost_ms ∧ s.destKind (v / 8) ≠ 2 ∧
     Past s (s.voq v).grantAt (s.rd QM_CREDTIME.lost_ms * 1000000)) ∧
    (let s : State := genUp { at_ := 5 } []; let d := 8191; d < 8192 ∧ s.egValid d = true ∧ let g := Tbl.get {} s.qm.gens d;
     let due := g.at_ + ceilDiv (s.unitBytes * 80 * 2 ^ 32) (s.egRate d); g.unit = false ∧ (s.egRate d = 0 ∨ s.fine < due)) ∧
    (let s : State := genUp { unit := true } []; let d := 8191; d < 8192 ∧ s.egValid d = true ∧ let g := Tbl.get {} s.qm.gens d;
     let due := g.at_ + ceilDiv (s.unitBytes * 80 * 2 ^ 32) (s.egRate d); (g.unit = true ∨ (s.egRate d ≠ 0 ∧ due ≤ s.fine)) ∧
     s.nextFlow d g = none) ∧
    (let s : State := genUp { unit := true } [(flowKey 3 65535, {})]; let d := 8191; d < 8192 ∧ s.egValid d = true ∧
     let g := Tbl.get {} s.qm.gens d; let due := g.at_ + ceilDiv (s.unitBytes * 80 * 2 ^ 32) (s.egRate d);
     (g.unit = true ∨ (s.egRate d ≠ 0 ∧ due ≤ s.fine)) ∧ let k := flowKey 3 65535; s.nextFlow d g = some k) ∧
    (let s : State := late 1000000000 (genUp {} [(flowKey 3 65535, {})]); let d := 8191; d < 8192 ∧ s.egValid d = true ∧
     let g := Tbl.get {} s.qm.gens d; let due := g.at_ + ceilDiv (s.unitBytes * 80 * 2 ^ 32) (s.egRate d);
     (g.unit = true ∨ (s.egRate d ≠ 0 ∧ due ≤ s.fine)) ∧ let k := flowKey 3 65535; s.nextFlow d g = some k) ∧
    (let s : State := late 18205 (genUp {} [(flowKey 3 65535, {})]); let d := 8191; d < 8192 ∧ s.egValid d = true ∧
     let g := Tbl.get {} s.qm.gens d; let due := g.at_ + ceilDiv (s.unitBytes * 80 * 2 ^ 32) (s.egRate d);
     (g.unit = true ∨ (s.egRate d ≠ 0 ∧ due ≤ s.fine)) ∧ let k := flowKey 3 65535; s.nextFlow d g = some k) ∧
    (let s : State := late 1000000000 { up with qm := { flows := [(flowKey 3 65535, { outstanding := 1 })] } }; let dev := 3;
     let voq := 65535; let k := flowKey 3 65535; let f := ({ outstanding := 1 } : Flow);
     s.qm.flows.find? (fun e => e.1 == flowKey dev voq) = some (k, f) ∧ 0 < f.outstanding ∧
     Past s f.cellAt (s.rd QM_CREDTIME.stale_us * 1000)) := by
  unfold Past
  try dsimp only
  and_intros <;> decide +kernel

theorem witness_FabricAndLinks :
    (let s : State := stale11; let v := 11; let e := { ent5 with gen := 8 }; let rest := ([] : List QEnt); let k := 320; let l := 0;
     let q := ((stale11.placeHead 11).getD (0, 0, [])).2.2; s.nextVoq = some v ∧ s.bridgeUp = true ∧ (s.queue (voqKey v)).ents = e :: rest ∧
     s.placeHead v = some (k, l, q) ∧ s.handleOk e.ptr e.gen = false) ∧
    (let s : State := voq11; let v := 11; let e := ent5; let rest := ([] : List QEnt); let k := 320; let l := 0;
     let q := ((voq11.placeHead 11).getD (0, 0, [])).2.2; let ecc := 3; s.nextVoq = some v ∧ s.bridgeUp = true ∧
     (s.queue (voqKey v)).ents = e :: rest ∧ s.placeHead v = some (k, l, q) ∧ s.handleOk e.ptr e.gen = true ∧ s.readError e.ptr ecc = none ∧
     e.session = none) ∧
    (let s : State := mcast11; let v := 11; let e := ent5; let rest := ([] : List QEnt); let k := 0; let l := 0;
     let q := ((mcast11.placeHead 11).getD (0, 0, [])).2.2; let ecc := 0; s.nextVoq = some v ∧ s.bridgeUp = true ∧
     (s.queue (voqKey v)).ents = e :: rest ∧ s.placeHead v = some (k, l, q) ∧ s.handleOk e.ptr e.gen = true ∧ s.readError e.ptr ecc = none ∧
     e.session = none) ∧
    (let s : State := sess11; let v := 11; let e := { ent5 with session := some 1023 }; let rest := ([] : List QEnt); let k := 320;
     let l := 0; let q := ((sess11.placeHead 11).getD (0, 0, [])).2.2; let ecc := 0; s.nextVoq = some v ∧ s.bridgeUp = true ∧
     (s.queue (voqKey v)).ents = e :: rest ∧ s.placeHead v = some (k, l, q) ∧ s.handleOk e.ptr e.gen = true ∧ s.readError e.ptr ecc = none ∧
     let n := 1023; e.session = some n) ∧
    (let s : State := voq11; let v := 11; let e := ent5; let rest := ([] : List QEnt); let k := 320; let l := 0;
     let q := ((voq11.placeHead 11).getD (0, 0, [])).2.2; let ecc := 1; s.nextVoq = some v ∧ s.bridgeUp = true ∧
     (s.queue (voqKey v)).ents = e :: rest ∧ s.placeHead v = some (k, l, q) ∧ let r := 7; let lost := false; s.handleOk e.ptr e.gen = true ∧
     s.readError e.ptr ecc = some (r, lost)) ∧
    (let s : State := voq11; let v := 11; let e := ent5; let rest := ([] : List QEnt); let k := 320; let l := 0;
     let q := ((voq11.placeHead 11).getD (0, 0, [])).2.2; let ecc := 2; s.nextVoq = some v ∧ s.bridgeUp = true ∧
     (s.queue (voqKey v)).ents = e :: rest ∧ s.placeHead v = some (k, l, q) ∧ let r := 7; let lost := true; s.handleOk e.ptr e.gen = true ∧
     s.readError e.ptr ecc = some (r, lost)) ∧
    (let s : State := voq11; let v := 11; s.nextVoq = some v) ∧
    (let s : State := voq11; let v := 11; s.nextVoq = some v ∧ let w := 11; s.canSend w = true ∧ (s.queue (voqKey w)).ents ≠ [] ∧
     Tbl.risingFrom 0 s.qm.queues = true ∧ w < 65536) ∧
    (let s : State := { up with qm := { buckets := [(383, { link := some 47, held := true, phase := .draining })], txq := [(47, [cell0 382])] } };
     let dev := 5; let b := 63; let l := 47; b < 64 ∧ (s.bucket (64 * dev + b)).phase = .draining ∧
     (s.bucket (64 * dev + b)).link = some l ∧ (pktsOf (s.txq l)).any (fun x => x.bucket == 64 * dev + b) = false) ∧
    (let s : State := delayed (2 ^ 15) none; let dev := 5; let b := 63; b < 64 ∧ (s.bucket (64 * dev + b)).phase = .delay ∧
     Past s (s.bucket (64 * dev + b)).at_ (s.rd QM_LBCFG.fabric_delay_us * 1000) ∧ let new := newLink s dev (s.bucket (64 * dev + b));
     let l := 47; new = some l ∧ (s.bucket (64 * dev + b)).link = none) ∧
    (let s : State := delayed (2 ^ 15) (some 46); let dev := 5; let b := 63; b < 64 ∧ (s.bucket (64 * dev + b)).phase = .delay ∧
     Past s (s.bucket (64 * dev + b)).at_ (s.rd QM_LBCFG.fabric_delay_us * 1000) ∧ let new := newLink s dev (s.bucket (64 * dev + b));
     let l := 47; let m := 46; new = some l ∧ (s.bucket (64 * dev + b)).link = some m) ∧
    (let s : State := delayed 0 none; let dev := 5; let b := 63; b < 64 ∧ (s.bucket (64 * dev + b)).phase = .delay ∧
     Past s (s.bucket (64 * dev + b)).at_ (s.rd QM_LBCFG.fabric_delay_us * 1000) ∧ let new := newLink s dev (s.bucket (64 * dev + b));
     new = none ∧ (s.bucket (64 * dev + b)).link = none) ∧
    (let s : State := delayed 0 (some 46); let dev := 5; let b := 63; b < 64 ∧ (s.bucket (64 * dev + b)).phase = .delay ∧
     Past s (s.bucket (64 * dev + b)).at_ (s.rd QM_LBCFG.fabric_delay_us * 1000) ∧ let new := newLink s dev (s.bucket (64 * dev + b));
     let m := 46; new = none ∧ (s.bucket (64 * dev + b)).link = some m) ∧
    (let s : State := up.wr (QM_LINKSTAT.state 47) 0; let l := 47; Open s ∧ l < 48 ∧ s.rd (QM_LINKSTAT.state l) = 0) ∧
    (let s : State := up.wr (QM_LINKSTAT.state 47) 2; let l := 47; Open s ∧ l < 48 ∧ s.rd (QM_LINKSTAT.state l) = 2) ∧
    (let s : State := up.wr (QM_LINKSTAT.state 47) 2; let l := 47; Open s ∧ l < 48 ∧ s.rd (QM_LINKSTAT.state l) ≠ 0) ∧
    (let s : State := up.wr (QM_LINKSTAT.state 47) 0; let l := 47; Open s ∧ l < 48 ∧ s.rd (QM_LINKSTAT.state l) = 0) ∧
    (let s : State := late 3000000000 { voq11 with qm := { voq11.qm with unreachAt := [(5, 1)] } }; let dev := 5; let t := 0;
     Tbl.get 0 s.qm.unreachAt dev = t + 1 ∧ Past s t (s.rd QM_LBCFG.unreach_ms * 1000000)) ∧
    (let s : State := late 3000000000 { up.wr (QM_PORTSTAT.state 127) 1 with qm := { holdAt := [(127, 1)] } }; let p := 127; let t := 0;
     p < 128 ∧ s.rd (QM_PORTSTAT.state p) = 1 ∧ Tbl.get 0 s.qm.holdAt p = t + 1 ∧ Past s t (s.rd (QM_PORTPOL.hold_ms p) * 1000000)) ∧
    (let s : State := voq11; Open s) ∧
    (let s : State := (up.wr QM_TIDX.kind 6).wr QM_TIDX.index 1048575; Open s ∧ let u := untouched QM_TCMD.refused s;
     let x := u.writeEnt (u.rd QM_TIDX.kind) (u.rd QM_TIDX.index) (u.rd QM_TDATA0.word) (u.rd QM_TDATA1.word); x.1 = true) ∧
    (let s : State := (up.wr QM_TIDX.kind 5).wr QM_TDATA1.word 4097; Open s ∧ let u := untouched QM_TCMD.refused s;
     let x := u.writeEnt (u.rd QM_TIDX.kind) (u.rd QM_TIDX.index) (u.rd QM_TDATA0.word) (u.rd QM_TDATA1.word); x.1 = false) := by
  unfold Open Past Reached
  try dsimp only
  and_intros <;> decide +kernel

theorem witness_SchedulerTree :
    (let s : State := { up with sch := { nodes := [(5, { band := 7 }), (6, { band := 7, f := 1 }), (7, { band := 6 })] } }; let level := 0;
     let l := [5, 6, 7]; let i := 5; s.bestChild level l = some i) ∧
    (let s : State := { up with sch := { nodes := [(5, { band := 7 }), (6, { band := 7, f := 1 }), (7, { band := 6 })] } }; let level := 0;
     let l := [5, 6, 7]; let i := 5; s.bestChild level l = some i ∧ let j := 7; j ∈ l) ∧
    (let s : State := up; let level := 0; let l := ([] : List Nat); s.bestChild level l = none) ∧
    (let s : State := { egr up with sch := { nodes := [0, 1, 3, 4].map (fun l => (nodeKey l 0, { enable := true })) } }; let level := 0;
     let i := 0; let x := (2, 0); x ∈ s.pathUp (5 - level) level i ∧ (s.node x.1 x.2).enable = false) ∧
    (let s : State := egrGen 8; let p := 0; let q := 0; let e := { ent5 with gen := 8 }; let rest := ([] : List QEnt);
     firstFrom s.settle.sch.next ((List.range 140).filter (fun p => (s.settle.served p).isSome)) = some p ∧ s.settle.served p = some q ∧
     (s.settle.queue q).ents = e :: rest ∧ s.settle.handleOk e.ptr e.gen = false) ∧
    (let s : State := { (egr up).wr (QM_PORTAGE.age_ms 0) 5 with tim := { sec := 1 } }; let p := 0; let q := 0; let e := ent5;
     let rest := ([] : List QEnt); firstFrom s.settle.sch.next ((List.range 140).filter (fun p => (s.settle.served p).isSome)) = some p ∧
     s.settle.served p = some q ∧ (s.settle.queue q).ents = e :: rest ∧ s.settle.handleOk e.ptr e.gen = true ∧ s.settle.aged p e = true) ∧
    (let s : State := egr up; let p := 0; let q := 0; let e := ent5; let rest := ([] : List QEnt); let ecc := 3;
     firstFrom s.settle.sch.next ((List.range 140).filter (fun p => (s.settle.served p).isSome)) = some p ∧ s.settle.served p = some q ∧
     (s.settle.queue q).ents = e :: rest ∧ s.settle.handleOk e.ptr e.gen = true ∧ s.settle.aged p e = false ∧
     s.settle.readError e.ptr ecc = none) ∧
    (let s : State := egr up; let p := 0; let q := 0; let e := ent5; let rest := ([] : List QEnt); let ecc := 1;
     firstFrom s.settle.sch.next ((List.range 140).filter (fun p => (s.settle.served p).isSome)) = some p ∧ s.settle.served p = some q ∧
     (s.settle.queue q).ents = e :: rest ∧ let r := 7; let lost := false; s.settle.handleOk e.ptr e.gen = true ∧ s.settle.aged p e = false ∧
     s.settle.readError e.ptr ecc = some (r, lost) ∧ p < 128 ∧ r = 7 ∧ lost = false) ∧
    (let s : State := egr up; let p := 0; let q := 0; let e := ent5; let rest := ([] : List QEnt); let ecc := 2;
     firstFrom s.settle.sch.next ((List.range 140).filter (fun p => (s.settle.served p).isSome)) = some p ∧ s.settle.served p = some q ∧
     (s.settle.queue q).ents = e :: rest ∧ let r := 7; let lost := true; s.settle.handleOk e.ptr e.gen = true ∧ s.settle.aged p e = false ∧
     s.settle.readError e.ptr ecc = some (r, lost) ∧ (128 ≤ p ∨ r ≠ 7 ∨ lost = true)) ∧
    (let s : State := nodeIn 1048575 0 1 64; Open s ∧ s.rd SCH_NIDX.index < levelSize (s.rd SCH_NIDX.level) ∧
     let level := s.rd SCH_NIDX.level; let i := s.rd SCH_NIDX.index; let w := s.nodeWords .bar0; s.nodeRefusal level i w = 0) ∧
    (let s : State := nodeIn 1048575 0 1 63; Open s ∧ s.rd SCH_NIDX.index < levelSize (s.rd SCH_NIDX.level) ∧
     let level := s.rd SCH_NIDX.level; let i := s.rd SCH_NIDX.index; let w := s.nodeWords .bar0; s.nodeRefusal level i w ≠ 0) ∧
    (let s : State := egr up; Open s ∧ s.rd SCH_NIDX.index < levelSize (s.rd SCH_NIDX.level)) ∧
    (let s : State := (up.wr SCH_NIDX.index 144).wr SCH_NIDX.level 4; Open s ∧ levelSize (s.rd SCH_NIDX.level) ≤ s.rd SCH_NIDX.index) ∧
    (let w := ({ d0 := 65536, d1 := 0, d2 := 0, d3 := 64, d4 := 0, d5 := 64 } : NodeWords); w.d0 % 65536 = 0) ∧
    (let s : State := { egr up with tim := { sec := 3, ns := 1024 }, sch := { nodes := [(nodeKey 4 0, { enable := true, peak := { next := some (9, 64) } })] } };
     s.netNs % 10 ^ 9 % 1024 = 0) := by
  unfold Open Reached
  try dsimp only
  and_intros <;> decide +kernel

theorem witness_Policers :
    (let x := pol0; x.tc ≤ x.cbs ∧ x.te ≤ x.ebs) ∧
    (let x := pol0; let b := 10; x.aware = false ∧ 0 < b ∧ x.twoRate = false ∧ b ≤ x.tc) ∧
    (let x := pol0; let b := 20; x.aware = false ∧ 0 < b ∧ x.twoRate = false ∧ x.tc < b ∧ b ≤ x.te) ∧
    (let x := pol0; let b := 21; x.aware = false ∧ 0 < b ∧ x.twoRate = false ∧ x.tc < b ∧ x.te < b) ∧
    (let x := { pol0 with twoRate := true }; let b := 21; x.aware = false ∧ 0 < b ∧ x.twoRate = true ∧ x.te < b) ∧
    (let x := { pol0 with twoRate := true }; let b := 20; x.aware = false ∧ 0 < b ∧ x.twoRate = true ∧ b ≤ x.te ∧ x.tc < b) ∧
    (let x := { pol0 with twoRate := true }; let b := 10; x.aware = false ∧ 0 < b ∧ x.twoRate = true ∧ b ≤ x.te ∧ b ≤ x.tc) ∧
    (let s0 := asked (polCall 2097151 1 64) {} fdUp; let call := 3; let ups := ([] : List (Nat × Nat × Bool));
     let k := polCall 2097151 1 64; let s := s0.upset ups; s.presented call 3 = some k ∧ s.polTurn k = false) ∧
    (let s : State := fdUp; let c := polCall 2097151 1 64; c.at_ = s.clk) ∧
    (let s : State := late 5 (asked { polCall 7 1 64 with at_ := 3 } {} fdUp); let c := { polCall 7 1 64 with at_ := 4 };
     let e := (3, { polCall 7 1 64 with at_ := 3 }); e ∈ s.eng.calls ∧ e.2.accel = 3 ∧ e.2.result = none ∧ polIndex e.2 = polIndex c ∧
     e.2.at_ < c.at_) ∧
    (let s0 := late 5 (asked (call0 3 0 []) {} fdUp); let call := 3; let ups := ([] : List (Nat × Nat × Bool)); let k := call0 3 0 [];
     let s := s0.upset ups; s.presented call 3 = some k ∧ s.polTurn k = true ∧ k.key = []) ∧
    (let s0 := late 5 (asked (call0 3 1 [1]) {} fdUp); let call := 3; let ups := ([] : List (Nat × Nat × Bool)); let k := call0 3 1 [1];
     let s := s0.upset ups; s.presented call 3 = some k ∧ s.polTurn k = true ∧ k.key ≠ [] ∧ k.select ≠ 0) ∧
    (let s0 := late 5 (asked (call0 3 0 [1]) {} fdUp); let call := 3; let ups := ([] : List (Nat × Nat × Bool)); let k := call0 3 0 [1];
     let s := s0.upset ups; s.presented call 3 = some k ∧ s.polTurn k = true ∧ k.key ≠ [] ∧ k.select = 0 ∧ k.key.length ≠ 8) ∧
    (let s0 := late 5 (asked (polCall 2097151 1 64) {} fdUp); let call := 3; let ups := ([] : List (Nat × Nat × Bool));
     let k := polCall 2097151 1 64; let s := s0.upset ups; s.presented call 3 = some k ∧ s.polTurn k = true ∧ k.select = 0 ∧
     k.key.length = 8 ∧ let i := polIndex k; (5, i) ∉ s.lkp.eccUnc ∧ (s.policer i).enable = false) ∧
    (let s0 := withPol pol0 (late 5 (asked (polCall 2097151 1 64) {} fdUp)); let call := 3; let ups := [(5, 2097151, false)];
     let k := polCall 2097151 1 64; let s := s0.upset ups; s.presented call 3 = some k ∧ s.polTurn k = true ∧ k.select = 0 ∧
     k.key.length = 8 ∧ let i := polIndex k; (5, i) ∉ s.lkp.eccUnc ∧ (s.policer i).enable = true ∧ (s.policer i).count = false) ∧
    (let s0 := withPol { pol0 with count := true } (late 5 (asked (polCall 2097151 1 9) {} fdUp)); let call := 3;
     let ups := ([] : List (Nat × Nat × Bool)); let k := polCall 2097151 1 9; let s := s0.upset ups; s.presented call 3 = some k ∧
     s.polTurn k = true ∧ k.select = 0 ∧ k.key.length = 8 ∧ let i := polIndex k; (5, i) ∉ s.lkp.eccUnc ∧ (s.policer i).enable = true ∧
     (s.policer i).count = true) ∧
    (let s0 := late 5 (asked (polCall 2097151 1 64) {} fdUp); let call := 3; let ups := [(5, 2097151, true)]; let k := polCall 2097151 1 64;
     let s := s0.upset ups; s.presented call 3 = some k ∧ s.polTurn k = true ∧ k.select = 0 ∧ k.key.length = 8 ∧ let i := polIndex k;
     (5, i) ∈ s.lkp.eccUnc) ∧
    (let s : State := fdUp; FdOpen s) ∧
    (let d0 := 2 ^ 30; let d1 := 10; let d2 := 100; let d3 := 9; let d4 := 100;
     let bad := polRefused (bitOf d0 30) (bitsAt d1 0 28) (bitsAt d2 0 25) (bitsAt d3 0 28) (bitsAt d4 0 25); bad = true) ∧
    (let s : State := withPol pol0 up; let d0 := 2 ^ 31; let d1 := 10; let d2 := 16777216; let d3 := 0; let d4 := 16777216;
     let bad := polRefused (bitOf d0 30) (bitsAt d1 0 28) (bitsAt d2 0 25) (bitsAt d3 0 28) (bitsAt d4 0 25); bad = false ∧
     Tbl.risingFrom 0 s.sch.pol = true) ∧
    (let i := 2097151; let d0 := 2 ^ 31; let d1 := 10; let d2 := 16777216; let d3 := 0; let d4 := 16777216;
     let bad := polRefused (bitOf d0 30) (bitsAt d1 0 28) (bitsAt d2 0 25) (bitsAt d3 0 28) (bitsAt d4 0 25); bad = false ∧ let j := 0;
     j ≠ i) := by
  unfold FdOpen Open Reached
  try dsimp only
  and_intros <;> decide +kernel

theorem witness_TimeGates :
    (let s : State := gated {} up; let p := 127; Open s ∧ p < 128 ∧ Fits s (TG_CTL.init_gates p) ∧ s.rd (TG_CTL.enable p) = 0) ∧
    (let s : State := gated {} (up.wr (TG_CTL.enable 127) 1); let p := 127; Open s ∧ p < 128 ∧ Fits s (TG_CTL.init_gates p) ∧
     s.rd (TG_CTL.enable p) = 1) ∧
    (let s : State := up; let p := 127; s.gateRefusal p ≠ 0) ∧
    (let s : State := gated {} up; let p := 127; s.gateRefusal p = 0) ∧
    (let s : State := gated { pend := some (5, 1000, 1) } (up.wr (TG_CTL.enable 127) 1); Tbl.risingFrom 0 s.sch.gates = true) ∧
    (let s : State := gated { pend := some (7000000500, 1000, 1) } up; let p := 127; let st := 7000000500; let cyc := 1000; let n := 1;
     p < 128 ∧ (s.gate p).pend = some (st, cyc, n) ∧ st ≤ s.netNs) ∧
    (let p := 127; p < 128) ∧
    (let s : State := gated {} (up.wr (TG_STAT.gates 127) 255); let p := 127;
     (∀ c, c < 8 → bitOf (s.gatesAt p s.netNs) c = true → bitOf (s.rd (TG_STAT.gates p)) c = true)) ∧
    (let s : State := macWaits; let p := 127; let c := 7; let d := 1000000; let k := pk3 0; let rest := ([] : List Packet);
     Tbl.get [] (s.linePort p).wait c = k :: rest ∧ s.wireNs p k.frameLen ≤ d) ∧
    (let s : State := macWaits; let p := 127; let c := 7; let d := 0; let k := pk3 0; let rest := ([] : List Packet);
     Tbl.get [] (s.linePort p).wait c = k :: rest ∧ d < s.wireNs p k.frameLen) ∧
    (let s : State := gated {} up; let p := 127; Open s ∧ p < 128 ∧ (s.gate p).pend = none) ∧
    (let s : State := gated { pend := some (7000000500, 1000, 1) } up; let p := 127; Open s ∧ p < 128 ∧ (s.gate p).pend ≠ none) ∧
    (let s : State := gated {} up; let p := 127; Open s ∧ p < 128) := by
  unfold Open Fits Reached
  try dsimp only
  and_intros <;> (first
    | decide +kernel | exact fun _ h1 h2 => absurd (Nat.lt_of_lt_of_le h1 h2) (by decide +kernel) | exact fun _ _ => rfl
    | (intro _ h; cases h; done) | (intro _ h; cases h; decide +kernel) | exact .inl (by decide +kernel) | exact .inr (.inl (by decide +kernel))
    | (simp only [← List.mem_range]; decide +kernel) | exact ⟨0, by decide +kernel⟩ | exact ⟨7, by decide +kernel⟩)

/-! ### 09_memory_controllers.md -/

/-- The controller of pseudo-channel 383 (stack 5, READY), and that of DDR5 channel 7 (four ranks, in service for Reserve). -/
def hbm (c : Ctl) (s : State) : State := { s.wr (MCH_STAT.state 5) 2 with mem := { ctls := [(383, c)] } }
def ddr (c : Ctl) (s : State) : State :=
  { (((s.wr (MCD_STAT.state 7) 3).wr (MCD_DIMM.ranks 7) 4).wr (MCD_DIMM.capacity_gib 7) 64).wr (MCD_CFG.role 7) 2 with mem := { ctls := [(391, c)] } }

/-- A banked read request of port 0 for row 9 of bank 63. -/
def rd63 (port : Nat) : MReq := { port := port, write := false, rank := 0, bank := 63, row := 9, col := 1, data := 77, at_ := 0, banked := true }

/-- `n` waiting requests of a port. -/
def reqN (n port : Nat) : List MReq := List.replicate n (rd63 port)

/-- Every step of a sweep passes, for `n` lane groups. -/
def wide (n : Nat) : List (Nat × Nat) := List.replicate n (2 ^ 129 - 1, 2 ^ 129 - 1)

/-- DDR5 channel 7 and stack 5 in training, after `n` failed attempts. -/
def trains (n : Nat) : State := { (up.wr (MCD_STAT.state 7) 2).wr (MCH_STAT.state 5) 1 with mem := { tries := [(5, n), (15, n)] } }

/-- Every pseudo-channel of stack 5 retired but its first. -/
def lone (s : State) : State := { s with mem := { s.mem with retired := (List.range 63).map (fun p => (321 + p, 1)) } }

theorem witness_MemoryOrder :
    (let s : State := hbm {} up; let u := 383; let k := 0; let rank := 0; let bank := 63; let row := 5; let col := 6;
     Accepts s u k rank bank row col ∧ Tbl.risingFrom 0 s.mem.ctls = true) ∧
    (let s : State := ddr { reqs := reqN 127 5 } up; let u := 391; let k := 5; let rank := 3; let bank := 63; let row := 5; let col := 6;
     Accepts s u k rank bank row col ∧ Tbl.risingFrom 0 s.mem.ctls = true) ∧
    (let s : State := (ddr {} up).wr (MCD_STAT.state 7) 7; let u := 391; let k := 3; let rank := 3; let bank := 63; let row := 5;
     let col := 6; Accepts s u k rank bank row col ∧ Tbl.risingFrom 0 s.mem.ctls = true) ∧
    (let s : State := hbm {} up; let u := 383; let k := 0; let rank := 0; let bank := 63; let row := 5; let col := 6;
     Accepts s u k rank bank row col ∧ Tbl.risingFrom 0 s.mem.ctls = true ∧ Tbl.risingFrom 0 s.mem.store = true) ∧
    (let s : State := hbm { fixing := [7] } up; let u := 383; s.memServes u = true ∧ (s.ctl u).fixing ≠ []) ∧
    (let s : State := hbm { forced := [(0, 2)] } up; let u := 383; s.memServes u = true ∧ (s.ctl u).fixing = [] ∧ let v := s.batchStart u;
     let c := v.ctl u; let rank := 0; let n := 2; let rest := ([] : Tbl Nat); c.forced = (rank, n) :: rest) ∧
    (let s : State := ddr { nbr := [(3, [9])] } up; let u := 391; s.memServes u = true ∧ (s.ctl u).fixing = [] ∧ let v := s.batchStart u;
     let c := v.ctl u; let bk := 3; let rows := [9]; let rest := ([] : List (Nat × List Nat)); c.forced = [] ∧ c.nbr = (bk, rows) :: rest) ∧
    (let s : State := hbm { reqs := reqN 2 1, panic := [1] } up; let u := 383; s.memServes u = true ∧ (s.ctl u).fixing = [] ∧
     let v := s.batchStart u; let c := v.ctl u; let k := 1; let i := 0; c.forced = [] ∧ c.nbr = [] ∧ v.qosTarget u = false ∧
     v.panicReq u = some (k, i)) ∧
    (let s : State := late 500000 (hbm { reqs := reqN 2 1 } (up.wr (MCH_PCSTAT.state 5 63) 1)); let u := 383; s.memServes u = true ∧
     (s.ctl u).fixing = [] ∧ let v := s.batchStart u; let c := v.ctl u; let i := 0; c.forced = [] ∧ c.nbr = [] ∧ v.qosTarget u = true ∧
     v.urgentReq u = some i) ∧
    (let s : State := ddr { debt := [(3, 2)] } up; let u := 391; s.memServes u = true ∧ (s.ctl u).fixing = [] ∧ let v := s.batchStart u;
     let c := v.ctl u; let rank := 3; let d := 2; let rest := ([] : Tbl Nat); c.forced = [] ∧ c.nbr = [] ∧ noneFirst v u ∧
     c.debt = (rank, d) :: rest) ∧
    (let s : State := hbm { reqs := reqN 2 1 } up; let u := 383; s.memServes u = true ∧ (s.ctl u).fixing = [] ∧ let v := s.batchStart u;
     let c := v.ctl u; let i := 0; c.forced = [] ∧ c.nbr = [] ∧ noneFirst v u ∧ c.debt = [] ∧ v.nextReq u = some i) ∧
    (let s : State := hbm {} up; let u := 383; s.memServes u = true ∧ (s.ctl u).fixing = [] ∧ let v := s.batchStart u; let c := v.ctl u;
     c.forced = [] ∧ c.nbr = [] ∧ noneFirst v u ∧ c.debt = [] ∧ v.nextReq u = none) ∧
    (let s : State := hbm { reqs := reqN 2 1, open_ := [(63, 10)] } up; let u := 383; let i := 1; let r := rd63 1;
     (s.ctl u).reqs[i]? = some r ∧ (s.ctl u).isHit r = true) ∧
    (let s : State := hbm { reqs := reqN 2 1, open_ := [(63, 9)] } up; let u := 383; let i := 1; let r := rd63 1;
     (s.ctl u).reqs[i]? = some r ∧ (s.ctl u).isHit r = false) ∧
    (let size := 3; let row := 9; let t := [(1, 1), (2, 5)]; t ≠ [] ∧ (∀ e ∈ t, e.1 ≠ row) ∧ t.length < size) ∧
    (let size := 2; let row := 9; let t := [(1, 1), (2, 5)]; t ≠ [] ∧ (∀ e ∈ t, e.1 ≠ row) ∧ size ≤ t.length) ∧
    (let row := 9; let a := [(1, 1)]; let b := [(2, 5)]; (∀ e ∈ a ++ b, e.1 ≠ row)) ∧
    (let s : State := hbm {} up; let u := 383; Tbl.risingFrom 0 s.mem.ctls = true ∧ Tbl.risingFrom 0 (s.ctl u).open_ = true) ∧
    (let s : State := hbm {} up; let u := 383; let bk := 63; let row := 9; Tbl.risingFrom 0 s.mem.ctls = true ∧
     Tbl.risingFrom 0 (s.ctl u).open_ = true ∧ let t := racAdd (racSize u) row (Tbl.get [] (s.ctl u).rac bk);
     let limit := s.rd (memFld u MCH_RACFG.threshold MCD_RACFG.threshold); (∀ e ∈ t, e.1 = row → e.2 < limit)) ∧
    (let s : State := hbm { rac := [(63, [(9, 100000)])] } up; let u := 383; let bk := 63; let row := 9;
     Tbl.risingFrom 0 s.mem.ctls = true ∧ Tbl.risingFrom 0 (s.ctl u).open_ = true ∧
     let t := racAdd (racSize u) row (Tbl.get [] (s.ctl u).rac bk); let limit := s.rd (memFld u MCH_RACFG.threshold MCD_RACFG.threshold);
     (∃ e ∈ t, e.1 = row ∧ limit ≤ e.2)) ∧
    (let s : State := hbm { rac := [(63, [(9, 100000)])] } up; let u := 383; let bk := 63; let row := 9;
     Tbl.risingFrom 0 s.mem.ctls = true ∧ Tbl.risingFrom 0 (s.ctl u).open_ = true ∧
     let t := racAdd (racSize u) row (Tbl.get [] (s.ctl u).rac bk); let limit := s.rd (memFld u MCH_RACFG.threshold MCD_RACFG.threshold);
     (∃ e ∈ t, e.1 = row ∧ limit ≤ e.2) ∧ Tbl.risingFrom 0 (s.ctl u).rac = true) := by
  unfold Accepts noneFirst
  try dsimp only
  and_intros <;> (first
    | decide +kernel | exact fun _ h1 h2 => absurd (Nat.lt_of_lt_of_le h1 h2) (by decide +kernel) | exact fun _ _ => rfl
    | (intro _ h; cases h; done) | (intro _ h; cases h; decide +kernel) | exact .inl (by decide +kernel) | exact .inr (.inl (by decide +kernel))
    | (simp only [← List.mem_range]; decide +kernel) | exact ⟨0, by decide +kernel⟩ | exact ⟨7, by decide +kernel⟩)

theorem witness_MemoryUpkeep :
    (let s : State := late 3900 (ddr { burst := [3] } up); let u := 391; let rank := 3; s.memServes u = true ∧ rank < s.ranksOf u ∧
     (s.ctl u).burst.contains rank = true) ∧
    (let s : State := late 3900 (ddr { reqs := [{ rd63 5 with rank := 3 }], panic := [5], debt := [(3, 3)] } up); let u := 391;
     let rank := 3; s.memServes u = true ∧ rank < s.ranksOf u ∧
     let c : Ctl := { s.ctl u with dueAt := Tbl.set 0 (s.ctl u).dueAt rank s.clk }; let d := Tbl.get 0 c.debt rank;
     let held := c.reqs.any (fun r => r.rank == rank && c.panic.contains r.port); (s.ctl u).burst.contains rank = false ∧
     Past s (Tbl.get 0 (s.ctl u).dueAt rank) (s.trefi u) ∧ held = true ∧ d < 4) ∧
    (let s : State := late 3900 (ddr { reqs := [{ rd63 5 with rank := 3 }], panic := [5], debt := [(3, 4)] } up); let u := 391;
     let rank := 3; s.memServes u = true ∧ rank < s.ranksOf u ∧
     let c : Ctl := { s.ctl u with dueAt := Tbl.set 0 (s.ctl u).dueAt rank s.clk }; let d := Tbl.get 0 c.debt rank;
     let held := c.reqs.any (fun r => r.rank == rank && c.panic.contains r.port); (s.ctl u).burst.contains rank = false ∧
     Past s (Tbl.get 0 (s.ctl u).dueAt rank) (s.trefi u) ∧ (held = false ∨ 4 ≤ d)) ∧
    (let s : State := late 1950 (hbm {} (up.wr (MCH_STAT.refresh_2x 5) 1)); let u := 383; let rank := 0; s.memServes u = true ∧
     rank < s.ranksOf u ∧ let c : Ctl := { s.ctl u with dueAt := Tbl.set 0 (s.ctl u).dueAt rank s.clk }; let d := Tbl.get 0 c.debt rank;
     let held := c.reqs.any (fun r => r.rank == rank && c.panic.contains r.port); (s.ctl u).burst.contains rank = false ∧
     Past s (Tbl.get 0 (s.ctl u).dueAt rank) (s.trefi u) ∧ (held = false ∨ 4 ≤ d)) ∧
    (let s : State := late 16000000 (ddr { debt := [(3, 4)], forced := [(0, 1)] } up); let g := 15; let t0 := 5; let t1 := 86;
     s.regsOk = true ∧ Tbl.risingFrom 0 s.mem.ctls = true ∧ (g < 6 ∨ (8 ≤ g ∧ g < 16)) ∧
     Past s (Tbl.get 0 s.mem.tempAt g) (if g < 8 then 1000000 else 16000000) ∧ (∀ u ∈ groupCtls g, Tbl.risingFrom 0 (s.ctl u).debt = true ∧
     Tbl.risingFrom 0 (s.ctl u).forced = true) ∧ let u0 := (groupCtls g).headD 0; let temp := if g < 8 then t0 else max t0 t1; 85 < temp ∧
     s.refresh2x u0 = false) ∧
    (let s : State := late 1000000 (hbm { debt := [(0, 3)] } (up.wr (MCH_STAT.refresh_2x 5) 1)); let g := 5; let t0 := 82; let t1 := 255;
     s.regsOk = true ∧ Tbl.risingFrom 0 s.mem.ctls = true ∧ (g < 6 ∨ (8 ≤ g ∧ g < 16)) ∧
     Past s (Tbl.get 0 s.mem.tempAt g) (if g < 8 then 1000000 else 16000000) ∧ (∀ u ∈ groupCtls g, Tbl.risingFrom 0 (s.ctl u).debt = true ∧
     Tbl.risingFrom 0 (s.ctl u).forced = true) ∧ let u0 := (groupCtls g).headD 0; let temp := if g < 8 then t0 else max t0 t1; temp ≤ 82 ∧
     s.refresh2x u0 = true) ∧
    (let s : State := late 1000000 (hbm { debt := [(0, 3)] } (up.wr (MCH_STAT.refresh_2x 5) 1)); let g := 5; let t0 := 83; let t1 := 0;
     s.regsOk = true ∧ Tbl.risingFrom 0 s.mem.ctls = true ∧ (g < 6 ∨ (8 ≤ g ∧ g < 16)) ∧
     Past s (Tbl.get 0 s.mem.tempAt g) (if g < 8 then 1000000 else 16000000) ∧ (∀ u ∈ groupCtls g, Tbl.risingFrom 0 (s.ctl u).debt = true ∧
     Tbl.risingFrom 0 (s.ctl u).forced = true) ∧ let temp := if g < 8 then t0 else max t0 t1; 82 < temp ∧ temp ≤ 85) ∧
    (let s : State := late 16000000 (ddr {} up); let g := 8; s.regsOk = true ∧ Tbl.risingFrom 0 s.mem.ctls = true ∧ (g < 6 ∨ (8 ≤ g ∧
     g < 16)) ∧ Past s (Tbl.get 0 s.mem.tempAt g) (if g < 8 then 1000000 else 16000000) ∧
     (∀ u ∈ groupCtls g, Tbl.risingFrom 0 (s.ctl u).debt = true ∧ Tbl.risingFrom 0 (s.ctl u).forced = true) ∧
     let n := Tbl.get 0 s.mem.tempBad g; n + 1 ≠ 3) ∧
    (let s : State := late 16000000 { up with mem := { tempBad := [(15, 2)] } }; let g := 15; s.regsOk = true ∧
     Tbl.risingFrom 0 s.mem.ctls = true ∧ (g < 6 ∨ (8 ≤ g ∧ g < 16)) ∧
     Past s (Tbl.get 0 s.mem.tempAt g) (if g < 8 then 1000000 else 16000000) ∧ (∀ u ∈ groupCtls g, Tbl.risingFrom 0 (s.ctl u).debt = true ∧
     Tbl.risingFrom 0 (s.ctl u).forced = true) ∧ let n := Tbl.get 0 s.mem.tempBad g; n + 1 = 3) ∧
    (let s : State := late 32000000 (ddr { rac := [(1, [(2, 3)])] } up); Tbl.risingFrom 0 s.mem.ctls = true ∧ Past s s.mem.racAt 32000000) ∧
    (let s : State := late 5 (hbm {} (up.wr (MCH_SCRUB.period_h 5) 24)); let u := 383; s.memServes u = true ∧
     (u < 384 ∨ s.rd (MCD_STAT.state (u - 384)) ≠ 7) ∧ 0 < s.scrubLocs u ∧ (s.ctl u).portDepth 5 < 128 ∧
     let period := s.rd (memFld u MCH_SCRUB.period_h MCD_SCRUB.period_h) * 3600 * 10 ^ 9; let start := scrubStart s u period;
     let c := s.ctl u; 0 < period ∧ c.scrubAt * period ≤ s.scrubLocs u * (s.clk - start) ∧ c.scrubAt + 1 < s.scrubLocs u) ∧
    (let s : State := late 86400000000000 (hbm { scrubAt := 25165823, scrubOn := 1 } (up.wr (MCH_SCRUB.period_h 5) 24)); let u := 383;
     s.memServes u = true ∧ (u < 384 ∨ s.rd (MCD_STAT.state (u - 384)) ≠ 7) ∧ 0 < s.scrubLocs u ∧ (s.ctl u).portDepth 5 < 128 ∧
     let period := s.rd (memFld u MCH_SCRUB.period_h MCD_SCRUB.period_h) * 3600 * 10 ^ 9; let start := scrubStart s u period;
     let c := s.ctl u; 0 < period ∧ c.scrubAt * period ≤ s.scrubLocs u * (s.clk - start) ∧ s.scrubLocs u ≤ c.scrubAt + 1) ∧
    (let s : State := hbm { scrubAt := 5, scrubOn := 1 } (up.wr (MCH_SCRUB.period_h 5) 24); let u := 383; s.memServes u = true ∧
     (u < 384 ∨ s.rd (MCD_STAT.state (u - 384)) ≠ 7) ∧ 0 < s.scrubLocs u ∧ (s.ctl u).portDepth 5 < 128 ∧
     let period := s.rd (memFld u MCH_SCRUB.period_h MCD_SCRUB.period_h) * 3600 * 10 ^ 9; let start := scrubStart s u period;
     let c := s.ctl u; (period = 0 ∨ s.scrubLocs u * (s.clk - start) < c.scrubAt * period)) ∧
    (let u := 391; 384 ≤ u) ∧
    (let s : State := hbm {} up; let u := 383; let lane := 31; u < 384 ∧ let w := winAdd s.clk (Tbl.get (0, 0) (s.ctl u).ce lane);
     (w.2 ≤ s.rd (MCH_REPAIRCFG.lane_ce (u / 64)) ∨ s.rd (MCH_REPAIRCFG.auto_repair (u / 64)) = 0)) ∧
    (let s : State := late 5 (hbm { ce := [(31, (1, 255))] } ((up.wr (MCH_REPAIRCFG.lane_ce 5) 255).wr (MCH_REPAIRCFG.auto_repair 5) 1));
     let u := 383; let lane := 31; u < 384 ∧ let w := winAdd s.clk (Tbl.get (0, 0) (s.ctl u).ce lane);
     let a := s.inc (MCH_CE.count (u / 64)); let v := a.setCtl u { a.ctl u with ce := Tbl.set (0, 0) (a.ctl u).ce lane w };
     s.rd (MCH_REPAIRCFG.lane_ce (u / 64)) < w.2 ∧ s.bit (MCH_REPAIRCFG.auto_repair (u / 64)) = true ∧ lane < 32 ∧
     (v.ctl u).fixing.contains lane = false ∧ v.freeSpares u ≠ 0) ∧
    (let s : State := late 5 (hbm { fixing := [3, 4], ce := [(31, (1, 255))] } ((up.wr (MCH_REPAIRCFG.lane_ce 5) 255).wr (MCH_REPAIRCFG.auto_repair 5) 1));
     let u := 383; let lane := 31; u < 384 ∧ let w := winAdd s.clk (Tbl.get (0, 0) (s.ctl u).ce lane);
     let a := s.inc (MCH_CE.count (u / 64)); let v := a.setCtl u { a.ctl u with ce := Tbl.set (0, 0) (a.ctl u).ce lane w };
     s.rd (MCH_REPAIRCFG.lane_ce (u / 64)) < w.2 ∧ s.bit (MCH_REPAIRCFG.auto_repair (u / 64)) = true ∧ lane < 32 ∧
     (v.ctl u).fixing.contains lane = false ∧ v.freeSpares u = 0) ∧
    (let s : State := hbm {} (up.wr (MCH_REPAIRCFG.ue_retire 5) 1); let u := 383; let w := winAdd s.clk (s.ctl u).ue;
     let v := s.setCtl u { s.ctl u with ue := w }; u < 384 ∧
     let x := (v.inc (MCH_UE.count (u / 64))).postRated 0x0903 (u / 64) (ms 1) 1 (fun n => [u / 64, 0, 0, 0] ++ leBytes 4 n);
     w.2 ≤ x.rd (MCH_REPAIRCFG.ue_retire (u / 64))) ∧
    (let s : State := late 5 (hbm { ue := (1, 3) } ((up.wr (MCH_REPAIRCFG.ue_retire 5) 3).wr (MCH_REPAIRCFG.auto_retire 5) 1));
     let u := 383; let w := winAdd s.clk (s.ctl u).ue; let v := s.setCtl u { s.ctl u with ue := w }; u < 384 ∧
     let x := (v.inc (MCH_UE.count (u / 64))).postRated 0x0903 (u / 64) (ms 1) 1 (fun n => [u / 64, 0, 0, 0] ++ leBytes 4 n);
     x.rd (MCH_REPAIRCFG.ue_retire (u / 64)) < w.2 ∧ x.bit (MCH_REPAIRCFG.auto_retire (u / 64)) = true ∧
     x.rd (MCH_PCSTAT.state (u / 64) (u % 64)) = 0) ∧
    (let s : State := ddr {} (up.wr (MCD_ERRCFG.fail_ue 7) 1); let u := 391; let w := winAdd s.clk (s.ctl u).ue;
     let v := s.setCtl u { s.ctl u with ue := w }; 384 ≤ u ∧
     let x := (v.inc (MCD_UE.count (u - 384))).postRated 0x0913 (u - 384) (ms 1) 1 (fun n => [u - 384, 0, 0, 0] ++ leBytes 4 n);
     w.2 ≤ x.rd (MCD_ERRCFG.fail_ue (u - 384))) ∧
    (let s : State := late 5 (ddr { ue := (1, 3) } (up.wr (MCD_ERRCFG.fail_ue 7) 3)); let u := 391; let w := winAdd s.clk (s.ctl u).ue;
     let v := s.setCtl u { s.ctl u with ue := w }; 384 ≤ u ∧
     let x := (v.inc (MCD_UE.count (u - 384))).postRated 0x0913 (u - 384) (ms 1) 1 (fun n => [u - 384, 0, 0, 0] ++ leBytes 4 n);
     x.rd (MCD_ERRCFG.fail_ue (u - 384)) < w.2 ∧ x.rd (MCD_STAT.state (u - 384)) = 3) := by
  unfold Past
  try dsimp only
  and_intros <;> decide +kernel

theorem witness_MemoryService_part1 :
    (let s : State := fdUp; let ch := 3; let role := 1; let retain := 1; let rate := 65535; ChanOpen s ch ∧ ch < 8 ∧ role < 4 ∧ retain < 2 ∧
     rate < 65536) ∧
    (let s : State := up; let ch := 7; let role := 3; let retain := 0; let rate := 4800; ChanOpen s ch ∧ ch < 8 ∧ role < 4 ∧ retain < 2 ∧
     rate < 65536) ∧
    (let ch := 4; let role := 1; let retain := true; ch < 8 ∧ badRole ch role retain = true) ∧
    (let ch := 3; let role := 2; let retain := false; ch < 8 ∧ badRole ch role retain = true) ∧
    (let s : State := up.wr (MCD_STAT.state 7) 5; let ch := 7; let role := 3; let retain := true; ch < 8 ∧ badRole ch role retain = false ∧
     let st := s.rd (MCD_STAT.state ch); (st = 0 ∨ st = 5 ∨ (st = 1 ∧ role = 0))) ∧
    (let s : State := up.wr (MCD_STAT.state 7) 1; let ch := 7; let role := 2; let retain := false; ch < 8 ∧ badRole ch role retain = false ∧
     let st := s.rd (MCD_STAT.state ch); st = 1 ∧ role ≠ 0) ∧
    (let s : State := ddr {} up; let ch := 7; let role := 0; let retain := false; ch < 8 ∧ badRole ch role retain = false ∧
     let st := s.rd (MCD_STAT.state ch); st = 3 ∧ role = 0) ∧
    (let s : State := (up.wr (MCD_STAT.state 7) 3).wr (MCD_CFG.role 7) 0; let ch := 7; let role := 0; let retain := false; ch < 8 ∧
     badRole ch role retain = false ∧ let st := s.rd (MCD_STAT.state ch); st = 3 ∧ role = 0) ∧
    (let s : State := up.wr (MCD_STAT.state 7) 2; let ch := 7; let role := 2; let retain := false; ch < 8 ∧ badRole ch role retain = false ∧
     let st := s.rd (MCD_STAT.state ch); st ≠ 0 ∧ st ≠ 5 ∧ st ≠ 1 ∧ (st ≠ 3 ∨ role ≠ 0)) ∧
    (let rate := 8800; 4800 ≤ rate ∧ rate ≤ 8800) ∧
    (let rate := 8801; (rate < 4800 ∨ 8800 < rate)) ∧
    (let s : State := lone (trains 0); let k := 5; let bad := ([] : List Nat); let sweeps := wide 4; k < 6 ∧ s.regsOk = true ∧
     s.rd (MCH_STAT.state k) = 1 ∧ s.hbmFails k bad sweeps = []) ∧
    (let s : State := lone (trains 1); let k := 5; let bad := ([] : List Nat); let sweeps := wide 3; k < 6 ∧ s.regsOk = true ∧
     s.rd (MCH_STAT.state k) = 1 ∧ s.hbmFails k bad sweeps ≠ [] ∧ Tbl.get 0 s.mem.tries k < 2) ∧
    (let s : State := lone (trains 2); let k := 5; let bad := ([] : List Nat); let sweeps := wide 3; k < 6 ∧ s.regsOk = true ∧
     s.rd (MCH_STAT.state k) = 1 ∧ s.hbmFails k bad sweeps ≠ [] ∧ 2 ≤ Tbl.get 0 s.mem.tries k) := by
  unfold ChanOpen Open FdOpen Reached
  try dsimp only
  and_intros <;> decide +kernel

theorem witness_MemoryService_part2 :
    (let s : State := trains 0; let k := 5; k < 6 ∧ s.regsOk = true ∧ s.rd (MCH_STAT.state k) = 1 ∧ let fail := 1; 0 < fail) ∧
    (let s : State := trains 0; let ch := 7; let fail := 3; ch < 8 ∧ s.regsOk = true ∧ s.mem.restore.contains ch = false ∧
     s.rd (MCD_STAT.state ch) = 2 ∧ fail = 3) ∧
    (let s : State := trains 0; let ch := 7; let fail := 0; let kind := 3; let ranks := 1; let cap := 64; let rates := [4800]; ch < 8 ∧
     s.regsOk = true ∧ s.mem.restore.contains ch = false ∧ s.rd (MCD_STAT.state ch) = 2 ∧
     let fits := (kind == 1 || kind == 2) && (ranks == 1 || ranks == 2 || ranks == 4) && decide (cap ≤ 256) && (s.pickRate ch kind rates != 0);
     fail ≠ 3 ∧ (fail = 2 ∨ fits = false)) ∧
    (let s : State := trains 1; let ch := 7; let fail := 1; let nibble := 0; let kind := 1; let ranks := 4; let cap := 256;
     let rates := [4800, 9000, 5200]; let sweeps := wide 20; ch < 8 ∧ s.regsOk = true ∧ s.mem.restore.contains ch = false ∧
     s.rd (MCD_STAT.state ch) = 2 ∧
     let u := ((s.wr (MCD_DIMM.type ch) (if kind ≤ 2 then kind else 0)).wr (MCD_DIMM.ranks ch) ranks).wr (MCD_DIMM.capacity_gib ch) cap;
     let fits := (kind == 1 || kind == 2) && (ranks == 1 || ranks == 2 || ranks == 4) && decide (cap ≤ 256) && (s.pickRate ch kind rates != 0);
     let v := u.setEyes ch sweeps; let n := 0; fail ≠ 3 ∧ fail ≠ 2 ∧ fits = true ∧ v.ddrBad ch fail nibble sweeps = some n ∧
     Tbl.get 0 s.mem.tries (8 + ch) < 2) ∧
    (let s : State := trains 1; let ch := 7; let fail := 0; let nibble := 0; let kind := 1; let ranks := 4; let cap := 256;
     let rates := [4800, 9000, 5200]; let sweeps := wide 19; ch < 8 ∧ s.regsOk = true ∧ s.mem.restore.contains ch = false ∧
     s.rd (MCD_STAT.state ch) = 2 ∧
     let u := ((s.wr (MCD_DIMM.type ch) (if kind ≤ 2 then kind else 0)).wr (MCD_DIMM.ranks ch) ranks).wr (MCD_DIMM.capacity_gib ch) cap;
     let fits := (kind == 1 || kind == 2) && (ranks == 1 || ranks == 2 || ranks == 4) && decide (cap ≤ 256) && (s.pickRate ch kind rates != 0);
     let v := u.setEyes ch sweeps; let n := 19; fail ≠ 3 ∧ fail ≠ 2 ∧ fits = true ∧ v.ddrBad ch fail nibble sweeps = some n ∧
     Tbl.get 0 s.mem.tries (8 + ch) < 2) ∧
    (let s : State := trains 2; let ch := 7; let fail := 0; let nibble := 0; let kind := 1; let ranks := 4; let cap := 256;
     let rates := [4800, 9000, 5200]; let sweeps := wide 19; ch < 8 ∧ s.regsOk = true ∧ s.mem.restore.contains ch = false ∧
     s.rd (MCD_STAT.state ch) = 2 ∧
     let u := ((s.wr (MCD_DIMM.type ch) (if kind ≤ 2 then kind else 0)).wr (MCD_DIMM.ranks ch) ranks).wr (MCD_DIMM.capacity_gib ch) cap;
     let fits := (kind == 1 || kind == 2) && (ranks == 1 || ranks == 2 || ranks == 4) && decide (cap ≤ 256) && (s.pickRate ch kind rates != 0);
     let v := u.setEyes ch sweeps; let n := 19; fail ≠ 3 ∧ fail ≠ 2 ∧ fits = true ∧ v.ddrBad ch fail nibble sweeps = some n ∧
     2 ≤ Tbl.get 0 s.mem.tries (8 + ch)) ∧
    (let s : State := trains 2; let ch := 7; let fail := 0; let nibble := 0; let kind := 1; let ranks := 4; let cap := 256;
     let rates := [4800, 9000, 5200]; let sweeps := wide 20; ch < 8 ∧ s.regsOk = true ∧ s.mem.restore.contains ch = false ∧
     s.rd (MCD_STAT.state ch) = 2 ∧
     let u := ((s.wr (MCD_DIMM.type ch) (if kind ≤ 2 then kind else 0)).wr (MCD_DIMM.ranks ch) ranks).wr (MCD_DIMM.capacity_gib ch) cap;
     let fits := (kind == 1 || kind == 2) && (ranks == 1 || ranks == 2 || ranks == 4) && decide (cap ≤ 256) && (s.pickRate ch kind rates != 0);
     let v := u.setEyes ch sweeps; fail ≠ 3 ∧ fail ≠ 2 ∧ fits = true ∧ v.ddrBad ch fail nibble sweeps = none) ∧
    (let s : State := { up with mem := { restore := [7] } }; let ch := 7; ch < 8 ∧ s.regsOk = true ∧ s.mem.restore.contains ch = true) ∧
    (let s : State := up; let ch := 7; let kind := 1; let rates := [4800, 9000, 5200]; s.pickRate ch kind rates ≠ 0) ∧
    (let s : State := up; let ch := 7; let kind := 1; let rates := [4800, 9000, 5200]; s.pickRate ch kind rates ≠ 0 ∧ let r := 4800;
     r ∈ rates ∧ r ≤ s.rd (MCD_CFG.max_rate ch) ∧ r ∈ (if kind = 1 then [4800, 5200, 5600, 6000, 6400] else [8000, 8800])) ∧
    (let old := 255; let new := 255; old < 256 ∧ new < 256) ∧
    (let s : State := up.wr (MCD_EYEMIN.min_width 7) 10; let u := 391; let a := 60; let b := 69; let c := 0; let d := 128;
     let e := (centreOf (runBetween a b), b + 1 - a, centreOf (runBetween c d), d + 1 - c); s.narrow u e = false) ∧
    (let s : State := up.wr (MCD_EYEMIN.min_width 7) 10; let u := 391; let a := 60; let b := 68; let c := 0; let d := 128;
     let e := (centreOf (runBetween a b), b + 1 - a, centreOf (runBetween c d), d + 1 - c); s.narrow u e = true) ∧
    (let s : State := late 100000000 (ddr {} (up.wr (MCD_EYEMIN.min_width 7) 10)); let ch := 7; let n := 19; let edges := (60, 69, 0, 128);
     let sweep := (0, 0); s.memServes (384 + ch) = true ∧ ch < 8 ∧ n < 20 ∧
     Past s (Tbl.get 0 s.mem.centreAt (32 * (384 + ch) + n)) 100000000 ∧
     let e := s.recentred (384 + ch) (256 * s.rd (MCD_EYE.rd_centre ch n) + s.rd (MCD_EYE.wr_centre ch n)) edges sweep;
     s.narrow (384 + ch) e = false) := by
  unfold Past
  try dsimp only
  and_intros <;> decide +kernel

theorem witness_MemoryService_part3 :
    (let s : State := late 100000000 (ddr {} (up.wr (MCD_EYEMIN.min_width 7) 10)); let ch := 7; let n := 19; let edges := (60, 68, 0, 128);
     let sweep := (15, 15); s.memServes (384 + ch) = true ∧ ch < 8 ∧ n < 20 ∧
     Past s (Tbl.get 0 s.mem.centreAt (32 * (384 + ch) + n)) 100000000 ∧
     let e := s.recentred (384 + ch) (256 * s.rd (MCD_EYE.rd_centre ch n) + s.rd (MCD_EYE.wr_centre ch n)) edges sweep;
     s.narrow (384 + ch) e = true) ∧
    (let s : State := late 100000000 (hbm {} (up.wr (MCH_EYEMIN.min_width 5) 10)); let u := 383; let n := 3; let edges := (60, 69, 0, 128);
     let sweep := (0, 0); s.memServes u = true ∧ u < 384 ∧ n < 4 ∧ Past s (Tbl.get 0 s.mem.centreAt (32 * u + n)) 100000000 ∧
     let e := s.recentred u (Tbl.get (0, 0) s.mem.eyes (32 * u + n)).1 edges sweep; s.narrow u e = false) ∧
    (let s : State := late 100000000 (hbm {} (up.wr (MCH_EYEMIN.min_width 5) 10)); let u := 383; let n := 3; let edges := (60, 68, 0, 128);
     let sweep := (15, 15); s.memServes u = true ∧ u < 384 ∧ n < 4 ∧ Past s (Tbl.get 0 s.mem.centreAt (32 * u + n)) 100000000 ∧
     let e := s.recentred u (Tbl.get (0, 0) s.mem.eyes (32 * u + n)).1 edges sweep; s.narrow u e = true) ∧
    (let s : State := hbm { fixing := [31, 4] } up; let pc := 383; let lane := 31; let rest := [4]; (s.ctl pc).fixing = lane :: rest) ∧
    (let s : State := hbm { fixing := [31, 4] } up; let pc := 383; let lane := 31; let rest := [4]; (s.ctl pc).fixing = lane :: rest ∧
     Tbl.risingFrom 0 s.mem.repairs = true) ∧
    (let s : State := up.wr (MCH_PCSTAT.state 5 63) 1; let pc := 383; s.regsOk = true ∧ Tbl.risingFrom 0 s.mem.retired = true ∧ pc < 384 ∧
     s.rd (MCH_PCSTAT.state (pc / 64) (pc % 64)) = 1 ∧ s.bpm.evac.contains pc = false) ∧
    (let s : State := { up.wr (MCD_STAT.state 7) 4 with mem := { pins := [(7, ⟨true, true, true, true⟩)] } }; let ch := 7; s.regsOk = true ∧
     Tbl.risingFrom 0 s.mem.pins = true ∧ ch < 8 ∧ s.rd (MCD_STAT.state ch) = 4 ∧ s.bpm.evac.contains (1000 + ch) = false ∧
     s.segsAt (8 + ch) = []) ∧
    (let s : State := late 1000 (ddr { reqs := reqN 1 5 } (up.wr (MCD_PWRCFG.pd_idle_ns 7) 1000)); let ch := 7; let rank := 3; ch < 8 ∧
     s.rd (MCD_STAT.state ch) = 3 ∧ rank < s.ranksOf (384 + ch) ∧ 0 < s.rd (MCD_PWRCFG.pd_idle_ns ch) ∧
     Past s (Tbl.get 0 (s.ctl (384 + ch)).cmdAt rank) (s.rd (MCD_PWRCFG.pd_idle_ns ch)) ∧
     (s.ctl (384 + ch)).reqs.all (fun r => r.rank != rank) = true) ∧
    (let s : State := late 1000000 (ddr {} ((up.wr (MCD_PWRCFG.sr_idle_ms 7) 1).wr (MCD_CFG.retain 7) 1)); let ch := 7; ch < 8 ∧
     s.bit (MCD_CFG.retain ch) = true ∧ s.rd (MCD_STAT.state ch) = 3 ∧ 0 < s.rd (MCD_PWRCFG.sr_idle_ms ch) ∧ (s.ctl (384 + ch)).reqs = [] ∧
     Past s (s.ctl (384 + ch)).busyAt (s.rd (MCD_PWRCFG.sr_idle_ms ch) * 1000000)) := by
  unfold Past
  try dsimp only
  and_intros <;> decide +kernel

/-! ### 10_line_ports.md and 11_fabric_link.md -/

/-- Port 127, of one lane, in a port state and with its MAC, behind a bridge that is up; its class gates are open. -/
def mac127 (st : Nat) (m : LinePort) (s : State) : State :=
  { ((((s.wr D2D_STAT.bridge 0).wr (LPT_CFG.enable 127) 1).wr (LPT_CFG.lanes 127) 1).wr (LPT_STAT.state 127) st).wr (TG_STAT.gates 127) 255 with
    lpt := { ports := [(127, m)] } }

/-- A frame of these bytes with its check sequence; one of EtherType `t` whose payload begins with `l`. -/
def framed (b : List Nat) : List Nat := b ++ leBytes 4 (crc32 b)
def frameOf (t : Nat) (l : List Nat) (n : Nat) : List Nat := framed (List.replicate 12 2 ++ beBytes 2 t ++ l ++ List.replicate (n - 18 - l.length) 0)

/-- Link 47, enabled, its frame state and its registers' companion. -/
def link47 (fr : Nat) (x : FLink) (s : State) : State :=
  { ((s.wr (FLK_CTL.enable 47) 1).wr (FLK_STAT.frame 47) fr).wr (FLK_STAT.aligned 47) 1 with flk := { links := [(47, x)] } }

/-- An overhead cell on the line: alignment word, scrambler state 5, and these 240 bytes with their check. -/
def rawOh (w : Nat) (b : List Nat) : List Nat := beBytes 8 w ++ beBytes 4 5 ++ (scramble (b ++ beBytes 2 (crc16 b) ++ [0, 0]) 5).1

/-- A fabric cell of type `type` for destination `dst`, of 240 payload bytes. -/
def fcell (type dst : Nat) : List Nat := cellHeader type 3 dst 0 9 1 0 0xFF 240 ++ List.replicate 240 1

/-- Fabric lane 191, receiving, in an alignment state. -/
def lane319 (al : Nat) (x : Lane) : State :=
  { (up.wr (SDS_STAT.state 319) 2).wr (SDS_STAT.align 319) al with lpt := { lanes := [(319, x)] } }

/-- A good marker of logical lane 3, `d` bits after the place looked at before. -/
def sight (d : Nat) : Sight := { seen := true, inv := false, dist := d, lane := 3, laneN := 252, cw := 1, seq := 2, bip := 3 }

theorem witness_PortsAndLanes_part1 :
    (let s : State := fdUp; let p := 127; let v := 2 ^ 32 - 1 - 2 ^ 17; FdOpen s ∧ p < 128 ∧ v < 2 ^ 32 ∧ bitsAt v 17 1 = 0) ∧
    (let s : State := mac127 2 {} up; let p := 127; let v := 2 ^ 31; p < 128 ∧ let w := s.lptWrite p v; s.bit (LPT_CFG.enable p) = true ∧
     w.enable = true) ∧
    (let s : State := mac127 2 {} up; let p := 127; let v := 0; p < 128 ∧ let w := s.lptWrite p v; s.bit (LPT_CFG.enable p) = true ∧
     w.enable = false) ∧
    (let s : State := up; let p := 127; let v := 2 ^ 31 + 6 * 2 ^ 28 + 8 * 2 ^ 24 + 2 * 2 ^ 22; p < 128 ∧ let w := s.lptWrite p v;
     s.bit (LPT_CFG.enable p) = false ∧ w.enable = true ∧ s.lptOk p w = false) ∧
    (let s : State := up; let p := 120; let v := 2 ^ 31 + 6 * 2 ^ 28 + 8 * 2 ^ 24 + 2 * 2 ^ 22 + 2 ^ 20; p < 128 ∧ let w := s.lptWrite p v;
     s.regsOk = true ∧ s.bit (LPT_CFG.enable p) = false ∧ w.enable = true ∧ s.lptOk p w = true) ∧
    (let s : State := up; let p := 120; let v := 2 ^ 31 + 6 * 2 ^ 28 + 8 * 2 ^ 24 + 2 * 2 ^ 22; p < 128 ∧ let w := s.lptWrite p v;
     s.regsOk = true ∧ s.bit (LPT_CFG.enable p) = false ∧ w.enable = true ∧ s.lptOk p w = true ∧ let i := 7; i < w.lanes) ∧
    (let s : State := up; let p := 120; let v := 2 ^ 31 + 6 * 2 ^ 28 + 8 * 2 ^ 24 + 2 * 2 ^ 22; p < 128 ∧ let w := s.lptWrite p v;
     s.regsOk = true ∧ s.bit (LPT_CFG.enable p) = false ∧ w.enable = true ∧ s.lptOk p w = true ∧ let ln := 128; ln < 320 ∧
     (ln < p ∨ p + w.lanes ≤ ln)) ∧
    (let s : State := mac127 2 {} up; let p := 127; p < 128 ∧ s.regsOk = true ∧ let ln := 127; ln ∈ s.portLanes p) ∧
    (let s : State := late 5 (mac127 2 { txEnd := 8001 } up); let p := 127; s.lineTime < (s.linePort p).txEnd) ∧
    (let s : State := mac127 1 { step := 4 } up; let p := 127; let order := [0]; p < 128 ∧ s.regsOk = true ∧
     Tbl.risingFrom 0 s.lpt.ports = true ∧ s.portState p = 1 ∧ 1 ≤ (s.linePort p).step ∧ (s.linePort p).step < 7 ∧
     ((s.linePort p).step = 1 ∨ s.anyLos p = false) ∧ ((s.linePort p).step ≤ 2 ∨ s.anyLol p = false) ∧
     ((s.linePort p).step = 5 → orderOk (s.rd (LPT_CFG.lanes p)) order = true)) ∧
    (let s : State := (mac127 1 { step := 5, unlocked := true } up).wr (LPT_CFG.lanes 127) 2; let p := 127; let order := [1, 0]; p < 128 ∧
     s.regsOk = true ∧ Tbl.risingFrom 0 s.lpt.ports = true ∧ s.portState p = 1 ∧ 1 ≤ (s.linePort p).step ∧ (s.linePort p).step < 7 ∧
     ((s.linePort p).step = 1 ∨ s.anyLos p = false) ∧ ((s.linePort p).step ≤ 2 ∨ s.anyLol p = false) ∧
     ((s.linePort p).step = 5 → orderOk (s.rd (LPT_CFG.lanes p)) order = true)) ∧
    (let s : State := mac127 1 { step := 1 } ((up.wr (SDS_STAT.los 127) 1).wr (SDS_STAT.lol 127) 1); let p := 127;
     let order := ([] : List Nat); p < 128 ∧ s.regsOk = true ∧ Tbl.risingFrom 0 s.lpt.ports = true ∧ s.portState p = 1 ∧
     1 ≤ (s.linePort p).step ∧ (s.linePort p).step < 7 ∧ ((s.linePort p).step = 1 ∨ s.anyLos p = false) ∧
     ((s.linePort p).step ≤ 2 ∨ s.anyLol p = false) ∧ ((s.linePort p).step = 5 → orderOk (s.rd (LPT_CFG.lanes p)) order = true)) ∧
    (let s : State := late 2000000 (mac127 1 { step := 4, fast := true } up); let p := 127; p < 128 ∧ s.portState p = 1 ∧
     1 ≤ (s.linePort p).step ∧ (s.linePort p).step ≤ 6 ∧ Past s (s.linePort p).stepAt (s.stepLimit p ((s.linePort p).step + 1)) ∧
     ((s.linePort p).step ≠ 2 ∨ s.anyLos p = false) ∧ (s.linePort p).step = 4 ∧ (s.linePort p).fast = true) ∧
    (let s : State := late 1000000000 (mac127 1 { step := 6 } up); let p := 127; p < 128 ∧ s.portState p = 1 ∧ 1 ≤ (s.linePort p).step ∧
     (s.linePort p).step ≤ 6 ∧ Past s (s.linePort p).stepAt (s.stepLimit p ((s.linePort p).step + 1)) ∧
     ((s.linePort p).step ≠ 2 ∨ s.anyLos p = false) ∧ (s.linePort p).step ≠ 4 ∨ (s.linePort p).fast = false) := by
  unfold FdOpen Past Open Reached
  try dsimp only
  and_intros <;> decide +kernel

theorem witness_PortsAndLanes_part2 :
    (let s : State := late 100000000000 (mac127 1 { step := 7, since := 1 } up); let p := 127; let n := 0; p < 128 ∧
     (s.linePort p).since = n + 1 ∧ s.portState p = 1 ∧ Past s n (s.rd (LPT_LINKCFG.up_ms p) * 1000000)) ∧
    (let s : State := late 100000000000 (mac127 3 { step := 7, since := 1, rxRemote := true } up); let p := 127; let n := 0; p < 128 ∧
     (s.linePort p).since = n + 1 ∧ s.portState p = 3 ∧ Past s n (s.rd (LPT_LINKCFG.down_us p) * 1000)) ∧
    (let s : State := late 200000 (mac127 1 { step := 5 } (up.wr (SDS_CTL.rx_pol_auto 127) 1)); let ln := 127; let p := 127;
     s.portOfLane ln = some p ∧ s.portState p = 1 ∧ (s.linePort p).step = 5 ∧ s.bit (SDS_CTL.rx_pol_auto ln) = true ∧
     (s.lane ln).polKept = false ∧ Past s (max (s.linePort p).stepAt (s.lane ln).polAt) 200000) ∧
    (let s : State := (up.wr (SDS_STAT.state 319) 1).wr (SDS_SIGCFG.los_mv 319) 50; let ln := 319; let mv := 49; ln < 320 ∧
     s.rd (SDS_STAT.state ln) ≠ 0 ∧ s.rd (SDS_STAT.los ln) = 0 ∧ mv < s.rd (SDS_SIGCFG.los_mv ln)) ∧
    (let s : State := up.wr (SDS_STAT.state 319) 2; let ln := 319; let lock := true; let ppm := -251; ln < 320 ∧
     s.rd (SDS_STAT.state ln) = 2 ∧ s.rd (SDS_STAT.lol ln) = 0 ∧ (lock = false ∨ 250 < ppm ∨ ppm < -250)) ∧
    (let s : State := (up.wr (SDS_STAT.los 319) 1).wr (SDS_SIGCFG.los_mv 319) 50; let ln := 319; let mv := 61; ln < 320 ∧
     s.rd (SDS_STAT.los ln) = 1 ∧ s.rd (SDS_SIGCFG.los_mv ln) + 10 < mv) ∧
    (let s : State := up.wr (SDS_STAT.lol 127) 1; let ln := 127; ln < 320 ∧ s.rd (SDS_STAT.lol ln) = 1) ∧
    (let s : State := up; let ln := 319; ln < 320 ∧ s.regsOk = true) ∧
    (let s : State := fdUp; let ln := 127; let v := 2 ^ 32 - 1 - 2 ^ 21; LaneOpen s ln ∧ ln < 320 ∧ v < 2 ^ 32 ∧ bitsAt v 21 1 = 0) ∧
    (let s : State := (up.wr (SDS_CTL.prbs 319) 1).wr (SDS_STAT.state 319) 2; let ln := 319; let v := 2 ^ 32 - 1 - 2 ^ 21; LaneOpen s ln ∧
     ln < 320 ∧ v < 2 ^ 32 ∧ bitsAt v 21 1 = 0) ∧
    (let s : State := mac127 2 {} up; let ln := 127; let v := 2 * 2 ^ 22; s.regsOk = true ∧ ln < 320 ∧ s.laneServes ln = true ∧
     bitsAt v 22 2 ≠ 0 ∧ bitsAt v 22 2 ≠ 3) ∧
    (let s : State := mac127 2 {} up; let ln := 127; s.regsOk = true ∧ ln < 320 ∧ s.laneBusy ln = true) ∧
    (let s : State := up.wr (QM_LINKSTAT.state 47) 1; let ln := 319; let v := 2 * 2 ^ 30 + 2 ^ 22; s.regsOk = true ∧ ln < 320 ∧
     s.laneBusy ln = false ∧ s.laneServes ln = false ∧ bitsAt v 30 2 ≠ 3) := by
  unfold Past LaneOpen Open FdOpen Reached
  try dsimp only
  and_intros <;> decide +kernel

theorem witness_LineFrames_part1 :
    (let s : State := mac127 1 {} (up.wr (SDS_STAT.state 127) 2); let p := 127; let cor := 5; let unc := 6; let sym := 7; p < 128 ∧
     let v := s.fecCount p cor unc sym; let ln := 127; ln ∈ v.portLanes p ∧ v.rd (SDS_STAT.state ln) = 2) ∧
    (let s : State := late 9 (mac127 2 { step := 7, leftAt := 10 } up); let p := 127; let start := 9; let cor := 5; let unc := 6;
     let sym := 7; p < 128 ∧ let v := s.fecCount p cor unc sym; start < (v.linePort p).leftAt) ∧
    (let s : State := late 10 (mac127 1 { step := 7, leftAt := 9 } up); let p := 127; let start := 9; let cor := 5; let unc := 6;
     let sym := 7; p < 128 ∧ let v := s.fecCount p cor unc sym; (v.linePort p).leftAt ≤ start ∧ v.portState p < 2) ∧
    (let s : State := late 10 ((mac127 2 { step := 7 } up).wr D2D_STAT.bridge 3); let p := 127; let start := 9; let cor := 5; let unc := 6;
     let sym := 7; p < 128 ∧ let v := s.fecCount p cor unc sym; (v.linePort p).leftAt ≤ start ∧ 2 ≤ v.portState p ∧ v.bridgeUp = false) ∧
    (let s : State := late 10 (mac127 3 { step := 7 } up); let p := 127; let start := 9; let cor := 5; let unc := 6; let sym := 7; p < 128 ∧
     let v := s.fecCount p cor unc sym; (v.linePort p).leftAt ≤ start ∧ v.bridgeUp = true ∧ v.portState p = 3) ∧
    (let s : State := late 10 ((mac127 2 { step := 7 } up).wr (LPT_CFG.fec 127) 2); let p := 127; let start := 9; let bad := true;
     let cor := 5; let unc := 6; let sym := 7; p < 128 ∧ let v := s.fecCount p cor unc sym; (v.linePort p).leftAt ≤ start ∧
     v.bridgeUp = true ∧ v.portState p = 2 ∧ bad = true ∧ v.rd (LPT_CFG.fec p) ≠ 0) ∧
    (let s : State := late 10 (mac127 2 { step := 7 } up); let p := 127; let f := List.replicate 64 1; let start := 9; let cor := 5;
     let unc := 6; let sym := 7; p < 128 ∧ let v := s.fecCount p cor unc sym; (v.linePort p).leftAt ≤ start ∧ v.bridgeUp = true ∧
     v.portState p = 2 ∧ fcsOk f = false) ∧
    (let s : State := late 10 (mac127 2 { step := 7 } up); let p := 127; let f := frameOf 0x0800 [] 63; let start := 9; let bad := false;
     let cor := 5; let unc := 6; let sym := 7; p < 128 ∧ let v := s.fecCount p cor unc sym; (v.linePort p).leftAt ≤ start ∧
     v.bridgeUp = true ∧ v.portState p = 2 ∧ bad = false ∧ fcsOk f = true ∧ f.length < 64) ∧
    (let s : State := late 10 ((mac127 2 { step := 7 } up).wr (LPT_MAXLEN.max_len 127) 64); let p := 127; let f := frameOf 0x0800 [] 65;
     let start := 9; let bad := false; let cor := 5; let unc := 6; let sym := 7; p < 128 ∧ let v := s.fecCount p cor unc sym;
     (v.linePort p).leftAt ≤ start ∧ v.bridgeUp = true ∧ v.portState p = 2 ∧ bad = false ∧ fcsOk f = true ∧ 64 ≤ f.length ∧
     v.rd (LPT_MAXLEN.max_len p) < f.length) ∧
    (let s : State := late 10 (mac127 2 { step := 7 } up); let p := 127; let f := frameOf 0x8808 [0, 1, 0, 9] 64; let start := 9;
     let bad := false; let cor := 5; let unc := 6; let sym := 7; p < 128 ∧ let v := s.fecCount p cor unc sym;
     (v.linePort p).leftAt ≤ start ∧ v.bridgeUp = true ∧ v.portState p = 2 ∧ bad = false ∧ goodFrame v p f ∧
     beNat (sliceB f 12 2) = 0x8808 ∧ beNat (sliceB f 14 2) = 1) ∧
    (let s : State := late 10 (mac127 2 { step := 7 } up); let p := 127; let f := frameOf 0x8808 [0, 2] 64; let start := 9;
     let bad := false; let cor := 5; let unc := 6; let sym := 7; p < 128 ∧ let v := s.fecCount p cor unc sym;
     (v.linePort p).leftAt ≤ start ∧ v.bridgeUp = true ∧ v.portState p = 2 ∧ bad = false ∧ goodFrame v p f ∧
     beNat (sliceB f 12 2) = 0x8808 ∧ beNat (sliceB f 14 2) ≠ 1 ∧ beNat (sliceB f 14 2) ≠ 0x0101) ∧
    (let s : State := late 10 (mac127 2 { step := 7 } up); let p := 127; let f := frameOf 0x8809 [] 64; let start := 9; let bad := false;
     let cor := 5; let unc := 6; let sym := 7; p < 128 ∧ let v := s.fecCount p cor unc sym; (v.linePort p).leftAt ≤ start ∧
     v.bridgeUp = true ∧ v.portState p = 2 ∧ bad = false ∧ goodFrame v p f ∧ beNat (sliceB f 12 2) ≠ 0x8808 ∧
     Tbl.risingFrom 0 s.eng.arriving = true) ∧
    (let s : State := up; let p := 127; s.rd (LPT_STAT.fec_lock p) = 0) ∧
    (let s : State := up.wr (LPT_STAT.fec_lock 127) 1; let p := 127; s.rd (LPT_STAT.fec_lock p) = 1) := by
  unfold goodFrame
  try dsimp only
  and_intros <;> decide +kernel

theorem witness_LineFrames_part2 :
    (let s : State := mac127 2 { pfc := [(128, 5)], wait := [(7, [pk3 0])] } up; let p := 127; p < 128 ∧ let v := s.macCollect p;
     let m := v.linePort p; v.portState p = 2 ∧ m.txEnd < v.lineTime + 1600 ∧ let x := 128; let y := 5; let rest := ([] : List (Nat × Nat));
     m.pfc = (x, y) :: rest) ∧
    (let s : State := mac127 2 { wait := [(7, [{ pk3 0 with errored := true }])] } up; let p := 127; let cls := 7; p < 128 ∧
     let v := s.macCollect p; let m := v.linePort p; v.portState p = 2 ∧ m.txEnd < v.lineTime + 1600 ∧
     let k := { pk3 0 with errored := true }; let rest := ([] : List Packet); m.pfc = [] ∧ Tbl.get [] m.wait cls = k :: rest ∧
     k.errored = true) ∧
    (let s : State := mac127 2 { wait := [(7, [pk3 0])] } (up.wr (QM_PFCSTAT.paused 127) 128); let p := 127; let cls := 7; p < 128 ∧
     let v := s.macCollect p; let m := v.linePort p; v.portState p = 2 ∧ m.txEnd < v.lineTime + 1600 ∧ let k := pk3 0;
     let rest := ([] : List Packet); m.pfc = [] ∧ Tbl.get [] m.wait cls = k :: rest ∧ k.errored = false ∧
     bitOf (v.rd (QM_PFCSTAT.paused p)) cls = true) ∧
    (let s : State := (mac127 2 { wait := [(7, [pk3 0])] } up).wr (TG_STAT.gates 127) 127; let p := 127; let cls := 7; p < 128 ∧
     let v := s.macCollect p; let m := v.linePort p; v.portState p = 2 ∧ m.txEnd < v.lineTime + 1600 ∧ let k := pk3 0;
     let rest := ([] : List Packet); m.pfc = [] ∧ Tbl.get [] m.wait cls = k :: rest ∧ k.errored = false ∧
     v.gateAdmits p cls k.frameLen = false) ∧
    (let s : State := mac127 2 { wait := [(7, [pk3 0])], txEnd := 1599 } up; let p := 127; let cls := 7; p < 128 ∧ let v := s.macCollect p;
     let m := v.linePort p; v.portState p = 2 ∧ m.txEnd < v.lineTime + 1600 ∧ let k := pk3 0; let rest := ([] : List Packet); m.pfc = [] ∧
     Tbl.get [] m.wait cls = k :: rest ∧ k.errored = false ∧ bitOf (v.rd (QM_PFCSTAT.paused p)) cls = false ∧
     v.gateAdmits p cls k.frameLen = true ∧ k.tstamp = false) ∧
    (let s : State := up; Tbl.risingFrom 0 s.lpt.ports = true) ∧
    (let s : State := mac127 2 { rxLocal := true, step := 7 } up; let p := 127; let v := s.portStat p; s.portState p = 2 ∧
     v.portState p = 2 ∧ v.faultCause p ≠ 0) ∧
    (let s : State := mac127 2 { step := 7 } up; let p := 127; let v := s.portStat p; s.portState p = 2 ∧ v.portState p = 2 ∧
     v.faultCause p = 0) ∧
    (let s : State := mac127 3 { step := 7 } up; let p := 127; let v := s.portStat p; s.portState p = 3 ∧ v.portState p = 3 ∧
     v.faultCause p = 0) ∧
    (let s : State := mac127 3 { unlocked := true, step := 7 } up; let p := 127; let v := s.portStat p; s.portState p = 3 ∧
     v.portState p = 3 ∧ v.faultCause p ≠ 0) ∧
    (let s : State := mac127 1 { step := 7 } up; let p := 127; p < 128 ∧ s.portState p ≠ 0 ∧ 6 ≤ (s.linePort p).step) ∧
    (let s : State := mac127 3 { step := 7, unlocked := true } up; let p := 127; p < 128 ∧ s.portState p ≠ 0 ∧ 2 ≤ s.portState p) ∧
    (let s : State := mac127 1 {} up; let p := 127; p < 128 ∧ s.portState p ≠ 0) := by
  try dsimp only
  and_intros <;> decide +kernel

theorem witness_FabricLinks_part1 :
    (let s : State := up; let l := 47; let v := 2 ^ 32 - 1; Open s ∧ l < 48 ∧ v < 2 ^ 32) ∧
    (let s : State := up; let l := 47; let v := 2 ^ 32 - 1; Open s ∧ l < 48 ∧ v < 2 ^ 32) ∧
    (let s : State := link47 2 {} up; let l := 47; let v := 2 ^ 31 + 2 ^ 30; s.bit (FLK_CTL.enable l) = true ∧ bitOf v 31 = true ∧
     (bitOf v 30 ≠ s.bit (FLK_CTL.mode l) ∨ bitOf v 28 ≠ s.bit (FLK_CTL.tx_reverse l))) ∧
    (let s : State := up; let l := 47; let st := 3; s.regsOk = true ∧ l < 48 ∧ st < 4 ∧ let ln := 319; ln ∈ linkLanes l) ∧
    (let s : State := up; let l := 47; let st := 2; s.regsOk = true ∧ l < 48 ∧ st < 4 ∧ let ln := 316; ln ∈ linkLanes l) ∧
    (let s : State := late 120000000 { up.wr (SDS_STAT.state 319) 2 with lpt := { lanes := [(319, { adaptAt := 1 })] } }; let f := 191;
     f < 192 ∧ s.rd (SDS_STAT.state (128 + f)) = 2) ∧
    (let s : State := (up.wr (SDS_STAT.state 319) 2).wr (SDS_CTL.rx_pol_auto 319) 1; let ln := 319;
     let m := ({ sight 7 with inv := true } : Sight); s.rd (SDS_STAT.align ln) = 0 ∧ m.seen = true) ∧
    (let s : State := up.wr (SDS_STAT.state 319) 2; let ln := 319; let m := ({ sight 7 with seen := false } : Sight);
     s.rd (SDS_STAT.align ln) = 0 ∧ m.seen = false) ∧
    (let s : State := up.wr (SDS_STAT.align 319) 1; let ln := 319; let m := sight 7; let x := s.lane ln;
     (s.rd (SDS_STAT.align ln) = 1 ∨ s.rd (SDS_STAT.align ln) = 2) ∧ m.dist ≠ markerGap x.cw) ∧
    (let s : State := lane319 1 { good := 1 }; let ln := 319; let m := ({ sight (markerGap 0) with laneN := 0 } : Sight);
     let x := s.lane ln; m.dist = markerGap x.cw ∧ (m.seen = false ∨ m.laneN ≠ 255 - m.lane % 256) ∧ s.rd (SDS_STAT.align ln) = 1) ∧
    (let s : State := lane319 2 { bad := 2 }; let ln := 319; let m := ({ sight (markerGap 0) with seen := false } : Sight);
     let x := s.lane ln; m.dist = markerGap x.cw ∧ (m.seen = false ∨ m.laneN ≠ 255 - m.lane % 256) ∧ s.rd (SDS_STAT.align ln) = 2 ∧
     x.bad < 3) ∧
    (let s : State := lane319 2 { bad := 3 }; let ln := 319; let m := ({ sight (markerGap 0) with seen := false } : Sight);
     let x := s.lane ln; m.dist = markerGap x.cw ∧ (m.seen = false ∨ m.laneN ≠ 255 - m.lane % 256) ∧ s.rd (SDS_STAT.align ln) = 2 ∧
     3 ≤ x.bad) ∧
    (let s : State := lane319 1 {}; let ln := 319; let m := sight (markerGap 0); let x := s.lane ln; m.dist = markerGap x.cw ∧
     m.seen = true ∧ m.laneN = 255 - m.lane % 256 ∧ s.rd (SDS_STAT.align ln) = 1 ∧ x.good = 0) ∧
    (let s : State := lane319 1 { good := 1 }; let ln := 319; let m := sight (markerGap 0); let x := s.lane ln; m.dist = markerGap x.cw ∧
     m.seen = true ∧ m.laneN = 255 - m.lane % 256 ∧ s.rd (SDS_STAT.align ln) = 1 ∧ 1 ≤ x.good) := by
  unfold Open Reached
  try dsimp only
  and_intros <;> decide +kernel

theorem witness_FabricLinks_part2 :
    (let s : State := lane319 2 { bad := 3 }; let ln := 319; let m := sight (markerGap 0); let x := s.lane ln; m.dist = markerGap x.cw ∧
     m.seen = true ∧ m.laneN = 255 - m.lane % 256 ∧ s.rd (SDS_STAT.align ln) = 2) ∧
    (let s : State := lane319 1 {}; s.regsOk = true) ∧
    (let b := [0, 255]; (∀ x ∈ b, x < 256)) ∧
    (let clear := List.replicate 244 255; let st := 5; clear.length = 244 ∧ (∀ x ∈ clear, x < 256) ∧ st < 2 ^ 31) ∧
    (let s : State := link47 2 { miss := 3 } up; let l := 47; let raw := rawOh faw (List.replicate 240 0); let cor := 2; let unc := 3;
     l < 48 ∧ s.linkOn l = true ∧ s.bit (FLK_STAT.aligned l) = true ∧ let x := s.flink l;
     let v := s.setFlink l { x with cor := x.cor + cor, unc := x.unc + unc }; let oh := clearOverhead raw; v.rd (FLK_STAT.frame l) = 2 ∧
     beNat (sliceB oh 0 8) = faw) ∧
    (let s : State := link47 2 { miss := 3 } up; let l := 47; let raw := rawOh 7 (List.replicate 240 0); let cor := 2; let unc := 3;
     l < 48 ∧ s.linkOn l = true ∧ s.bit (FLK_STAT.aligned l) = true ∧ let x := s.flink l;
     let v := s.setFlink l { x with cor := x.cor + cor, unc := x.unc + unc }; let oh := clearOverhead raw; v.rd (FLK_STAT.frame l) = 2 ∧
     beNat (sliceB oh 0 8) ≠ faw ∧ 3 ≤ x.miss) ∧
    (let s : State := link47 1 { seen := 2 } up; let l := 47; let raw := rawOh faw (List.replicate 240 0); let cor := 2; let unc := 3;
     l < 48 ∧ s.linkOn l = true ∧ s.bit (FLK_STAT.aligned l) = true ∧ let x := s.flink l;
     let v := s.setFlink l { x with cor := x.cor + cor, unc := x.unc + unc }; let oh := clearOverhead raw; v.rd (FLK_STAT.frame l) ≠ 2 ∧
     beNat (sliceB oh 0 8) = faw ∧ crc16 (sliceB oh 12 240) = beNat (sliceB oh 252 2)) ∧
    (let s : State := link47 1 { seen := 2 } up; let l := 47; s.regsOk = true ∧ (s.flink l).seen = 2) ∧
    (let s : State := link47 2 {} up; let l := 47; let cell := List.replicate 256 1; l < 48 ∧ s.inFrame l = true ∧
     let v := beNat (sliceB cell 0 16); (crc16 (sliceB cell 0 14) ≠ v % 2 ^ 16 ∨ 2 < bitsAt v 125 3)) ∧
    (let s : State := link47 2 {} up; let l := 47; let cell := fcell 0 0; l < 48 ∧ s.inFrame l = true ∧ let v := beNat (sliceB cell 0 16);
     crc16 (sliceB cell 0 14) = v % 2 ^ 16 ∧ bitsAt v 125 3 = 0) ∧
    (let s : State := link47 2 {} up; let l := 47; let cell := fcell 1 2047; l < 48 ∧ s.inFrame l = true ∧
     let v := beNat (sliceB cell 0 16); crc16 (sliceB cell 0 14) = v % 2 ^ 16 ∧ bitsAt v 125 3 = 1 ∧ bitsAt v 111 11 ≠ s.rd QM_CFG.dev_id) ∧
    (let s : State := link47 2 {} up; let l := 47; let cell := fcell 1 0; l < 48 ∧ s.inFrame l = true ∧ let v := beNat (sliceB cell 0 16);
     crc16 (sliceB cell 0 14) = v % 2 ^ 16 ∧ bitsAt v 125 3 = 1 ∧ bitsAt v 111 11 = s.rd QM_CFG.dev_id) ∧
    (let s : State := link47 2 {} up; let l := 47; l < 48 ∧ s.inFrame l = true ∧ let g := 191; g / 4 = l) ∧
    (let s : State := { up with flk := { ctxs := [(9, { part := List.replicate 62 1, owed := 3 })] } };
     let h := ({ link := 47, dev := 3, ucast := false, group := none, key := 9 } : CellHead); let cont := [1, 2, 3];
     Tbl.risingFrom 0 s.flk.recs = true ∧ h.ucast = false ∧ (Tbl.get {} s.flk.ctxs h.key).part ≠ [] ∧ cont ≠ [] ∧
     cont.length = (Tbl.get {} s.flk.ctxs h.key).owed) := by
  try dsimp only
  and_intros <;> decide +kernel

theorem witness_FabricLinks_part3 :
    (let s : State := { up with flk := { ctxs := [(9, { part := [1], owed := 3, link := 48 })] } }; let l := 47; let k := 9;
     Tbl.risingFrom 0 s.flk.ctxs = true ∧ (Tbl.get {} s.flk.ctxs k).link = l + 1) ∧
    (let s : State := { link47 2 { mark := { count := 16255 } } up with qm := { txq := [(47, [cell0 5])] } }; let l := 47; l < 48 ∧
     s.linkOn l = true ∧ (s.flink l).txEnd < 1000 * (s.clk + 1) ∧ Tbl.risingFrom 0 s.flk.links = true ∧ Tbl.risingFrom 0 s.qm.txq = true) ∧
    (let s : State := { link47 2 { mark := { count := 16256 } } up with qm := { txq := [(47, [cell0 5])] } }; let l := 47; l < 48 ∧
     s.linkOn l = true ∧ (s.flink l).txEnd < 1000 * (s.clk + 1) ∧ Tbl.risingFrom 0 s.flk.links = true ∧ Tbl.risingFrom 0 s.qm.txq = true) ∧
    (let lane := 3; let cw := 19; let seq := 65535; let bip := 255; lane < 4 ∧ cw < 20 ∧ seq < 2 ^ 16 ∧ bip < 256) ∧
    (let s : State := late 10000000000 (link47 2 { presentAt := [(2, 1)] } up); let l := 47; let d := 2; let n := 0; l < 48 ∧ d < 3 ∧
     Tbl.get 0 (s.flink l).presentAt d = n + 1 ∧ s.bit (defectBit l d) = false ∧ s.suppressed l d = false ∧ Past s n (s.defectSet l d)) ∧
    (let s : State := late 100000000000 (link47 2 { absentAt := [(2, 1)] } (up.wr (FLK_STAT.lof 47) 1)); let l := 47; let d := 2;
     let n := 0; l < 48 ∧ d < 3 ∧ Tbl.get 0 (s.flink l).absentAt d = n + 1 ∧ s.bit (defectBit l d) = true ∧ Past s n (s.defectClear l d)) ∧
    (let s : State := { link47 2 { bip := 7, idle := 9 } up with tim := { tickDue := true, tickStep := true } }; s.tim.tickDue = true) := by
  unfold Past
  try dsimp only
  and_intros <;> decide +kernel

/-! ### 12_resilience.md -/

/-- Seats A and B in these states, with the device past the start of its seats. -/
def seats (a b : Nat) (s : State) : State := ((s.wr SEAT_STAT.state_a a).wr SEAT_STAT.state_b b).wr GEN_BOOTSTAT.step 9

/-- Both seats hold output 1, with these values. -/
def outputs (v w : Nat) : State := { seats 4 3 up with res := { a := { held := [(1, .word v)] }, b := { held := [(1, .word w)] } } }

/-- A RESIGNED seat B under clearance. -/
def resigned0 : Resigned := { kind := 1, unit := 1, slot := 0, serial := 77, testing := true }

/-- A REPAIR descriptor of a kind for a unit; a command of opcode `op` for a unit. -/
def repair (kind unit : Nat) : Taken := taken 0x5A [(16, 1, kind), (20, 4, unit)]
def unitOp (op unit : Nat) : Taken := taken op [(16, 1, unit)]

/-- Cluster 23 under repair at a step. -/
def repairing (step : Nat) (stays : Bool) : ClRepair := { cluster := 23, step := step, role := 1, stays := stays }

theorem witness_Seats_part1 :
    (let s : State := late 3 (seats 4 3 up); let a := false; InStep s a) ∧
    (let s : State := seats 6 4 up; let b := false; let epoch := 0; (s.seatIs b = 6 ∨ epoch % 256 ≠ s.rd (seatEpoch b))) ∧
    (let s : State := seats 3 4 up; let b := true; let epoch := 255; (s.seatIs b = 6 ∨ epoch % 256 ≠ s.rd (seatEpoch b))) ∧
    (let s : State := seats 3 4 up; let b := true; let seq := 1; s.seatIs b ≠ 6 ∧ s.rd (seatEpoch b) < 256 ∧ s.res.checking = none ∧
     (s.seatRole b = 3 ∨ s.seatRole b = 4) ∧ seq < 2 ^ 32 ∧ 0 < s.outAhead seq ∧ s.outAhead seq < 2 ^ 31 ∧
     (∀ e ∈ (s.seat b).held, e.1 ≠ seq)) ∧
    (let s : State := outputs 7 8; let b := true; let seq := 2 ^ 31 - 1; s.seatIs b ≠ 6 ∧ s.rd (seatEpoch b) < 256 ∧ s.res.checking = none ∧
     (s.seatRole b = 3 ∨ s.seatRole b = 4) ∧ seq < 2 ^ 32 ∧ 0 < s.outAhead seq ∧ s.outAhead seq < 2 ^ 31 ∧
     (∀ e ∈ (s.seat b).held, e.1 ≠ seq)) ∧
    (let s : State := outputs 7 7; let a := false; let b := true; s.inRole 4 = some a ∧ s.inRole 3 = some b ∧ let t := State.releaseOut 1 s;
     t.res.lastOut ≠ s.res.lastOut) ∧
    (let s : State := outputs 7 8; let a := false; let b := true; s.inRole 4 = some a ∧ s.inRole 3 = some b ∧ let q := 1;
     let v := SeatOut.word 7; let w := SeatOut.word 8; (s.seat a).held.find? (fun e => s.outAhead e.1 == 1) = some (q, v) ∧
     (s.seat b).held.find? (fun e => e.1 == q) = some (q, w) ∧ w ≠ v) ∧
    (let s : State := { seats 4 0 up with res := { a := { held := [(1, .word 7)] } } }; let a := false; let q := 1; let v := SeatOut.word 7;
     s.inRole 4 = some a ∧ s.inRole 3 = none ∧ (s.seat a).held.find? (fun e => s.outAhead e.1 == 1) = some (q, v)) ∧
    (let s : State := seats 3 4 up; let a := true; let kind := 0; s.regsOk = true ∧ InStep s a ∧ (kind = 0 ∨ kind = 2 ∨ kind = 3 ∧
     s.res.checking.any (fun n => decide (n + 20000 ≤ s.clk)) = true)) ∧
    (let s : State := seats 4 3 up; let a := false; let kind := 2; s.regsOk = true ∧ InStep s a ∧ (kind = 0 ∨ kind = 2 ∨ kind = 3 ∧
     s.res.checking.any (fun n => decide (n + 20000 ≤ s.clk)) = true)) ∧
    (let s : State := late 20000 { seats 4 3 up with res := { checking := some 0 } }; let a := false; let kind := 3; s.regsOk = true ∧
     InStep s a ∧ (kind = 0 ∨ kind = 2 ∨ kind = 3 ∧ s.res.checking.any (fun n => decide (n + 20000 ≤ s.clk)) = true)) ∧
    (let s : State := { seats 4 3 up with dies := { feedA := false } }; let a := false; s.regsOk = true ∧ InStep s a ∧ s.feedIn a = false) ∧
    (let s : State := { seats 4 3 up with res := { checking := some 0 } }; s.res.checking ≠ none ∧ let x := (false, false, true);
     let y := (false, false, true); checkFails x = checkFails y) ∧
    (let s : State := { seats 4 3 up with res := { checking := some 0 } }; s.res.checking ≠ none ∧ let x := (false, false, true);
     let y := (false, true, true); checkFails x ≠ checkFails y) := by
  unfold InStep
  try dsimp only
  and_intros <;> decide +kernel

theorem witness_Seats_part2 :
    (let s : State := { seats 4 3 up with res := { checking := some 0 } }; s.res.checking ≠ none ∧ let x := (false, false, false);
     let y := (false, false, true); checkFails x ≠ checkFails y) ∧
    (let s : State := late 1000000000 { seats 4 3 up with res := { rollbacks := [500000000, 0] } }; let a := false; s.regsOk = true ∧
     InStep s a ∧ (s.res.rollbacks.filter (fun t => !decide (t + 1000000000 ≤ s.clk))).length < 2) ∧
    (let s : State := late 999999999 { seats 4 3 up with res := { rollbacks := [500000000, 0] } }; let a := false; s.regsOk = true ∧
     InStep s a ∧ 2 ≤ (s.res.rollbacks.filter (fun t => !decide (t + 1000000000 ≤ s.clk))).length) ∧
    (let s : State := { seats 7 7 up with res := { a := { role := 3 }, b := { role := 4 } } }; let a := true; s.regsOk = true ∧
     s.seatIs a = 7 ∧ s.seatIs (!a) = 7 ∧ (s.seat a).role = 4 ∧ (s.seat (!a)).role = 3) ∧
    (let s : State := late 500000 (seats 2 4 up); let a := true; s.regsOk = true ∧ s.res.checking = none ∧ s.seatIs a = 4 ∧
     s.upd.castle = none ∧ Past s s.res.ckptAt (s.rd SEAT_CKPT.period_us * 1000) ∧ s.seatIs (!a) = 2 ∧ s.bit GEN_BOOTSTAT.ready = true) ∧
    (let s : State := late 500000 { seats 4 3 up with res := { handover := true } }; let a := false; s.regsOk = true ∧
     s.res.checking = none ∧ s.seatIs a = 4 ∧ s.upd.castle = none ∧ Past s s.res.ckptAt (s.rd SEAT_CKPT.period_us * 1000) ∧
     s.seatIs (!a) = 3 ∧ s.res.handover = true) ∧
    (let s : State := late 10000 (seats 4 3 up); let b := true; s.seatRuns b = true ∧
     Past s (s.seat b).sentAt (s.rd SEAT_CFG.hb_us * 1000 / 5)) ∧
    (let s : State := late 10000000 (seats 3 4 up); let a := true; let b := true; s.regsOk = true ∧ InStep s a ∧
     Past s (s.seat b).heardAt (s.rd SEAT_CFG.hb_us * 1000) ∧ s.wedgeDue = true) ∧
    (let s : State := late 50000 (seats 3 4 up); let a := true; let b := true; s.regsOk = true ∧ InStep s a ∧
     Past s (s.seat b).heardAt (s.rd SEAT_CFG.hb_us * 1000) ∧ s.wedgeDue = false ∧ s.rd (seatEvid a) = 0) ∧
    (let s : State := late 50000 ((seats 3 4 up).wr SEAT_EVID.evid_b 2); let a := true; let b := false; s.regsOk = true ∧ InStep s a ∧
     Past s (s.seat b).heardAt (s.rd SEAT_CFG.hb_us * 1000) ∧ s.wedgeDue = false ∧ s.rd (seatEvid a) ≠ 0) ∧
    (let s : State := late 1000000 { seats 5 4 up with res := { a := { detached := 2 }, bothSince := some 0 } }; let b := false; let n := 0;
     s.regsOk = true ∧ s.res.bothSince = some n ∧ Past s n 1000000 ∧ s.seatIs b = 5 ∧ (s.seat b).detached = 2 ∧
     s.bit SEAT_CFG.auto_return = true ∧ s.seatIs (!b) = 4) ∧
    (let s : State := late 10000000 (seats 4 3 up); s.regsOk = true ∧ 4 < s.rd GEN_BOOTSTAT.step ∧
     Past s s.res.islandAt (s.rd SEAT_CFG.wedge_ms * 1000000) ∧ s.upd.castle = none ∧ s.seatIs false ≠ 0 ∧ s.seatIs false ≠ 6 ∧
     s.seatIs true ≠ 0 ∧ s.seatIs true ≠ 6) ∧
    (let s : State := { seats 4 0 up with dies := { feedB := false } }; let b := true; s.feedIn b = false) ∧
    (let s : State := late 100000000 { seats 4 0 up with res := { b := { feedLost := true } } }; let b := true; s.feedIn b = true ∧
     Past s (if b then s.dies.feedBAt else s.dies.feedAAt) 100000000 ∧ s.regsOk = true ∧ s.seatIs b = 0 ∧ (s.seat b).feedLost = true ∧
     s.bit SEAT_CFG.auto_return = true) := by
  unfold Past InStep
  try dsimp only
  and_intros <;> decide +kernel

theorem witness_Seats_part3 :
    (let s : State := late 100000000 (seats 4 6 up); let b := true; s.feedIn b = true ∧
     Past s (if b then s.dies.feedBAt else s.dies.feedAAt) 100000000 ∧ s.seatIs b ≠ 0) ∧
    (let s : State := seats 4 1 up; let b := true; s.regsOk = true ∧ s.seatIs b = 1 ∧ 4 < s.rd GEN_BOOTSTAT.step ∧ s.upd.castle = none ∧
     s.seatIs (!b) = 4) ∧
    (let s : State := seats 6 1 up; let b := true; s.regsOk = true ∧ s.seatIs b = 1 ∧ 4 < s.rd GEN_BOOTSTAT.step ∧ s.upd.castle = none ∧
     (s.seatIs (!b) ≠ 1 ∨ s.res.lastActive = b2n b) ∧ s.seatRole (!b) ≠ 4) ∧
    (let s : State := { seats 1 1 up with res := { lastActive := 1 } }; let b := true; s.regsOk = true ∧ s.seatIs b = 1 ∧
     4 < s.rd GEN_BOOTSTAT.step ∧ s.upd.castle = none ∧ (s.seatIs (!b) ≠ 1 ∨ s.res.lastActive = b2n b) ∧ s.seatRole (!b) ≠ 4) ∧
    (let s : State := { seats 1 1 up with res := { lastActive := 0 } }; let b := true; s.regsOk = true ∧ s.seatIs b = 1 ∧
     4 < s.rd GEN_BOOTSTAT.step ∧ s.upd.castle = none ∧ s.seatIs (!b) = 1 ∧ s.res.lastActive = b2n (!b)) ∧
    (let s : State := seats 6 1 up; let b := true; s.regsOk = true ∧ s.seatIs b = 1 ∧ 4 < s.rd GEN_BOOTSTAT.step ∧ s.upd.castle = none ∧
     s.seatIs (!b) ≠ 1) ∧
    (let s : State := running (unitOp 0x5B 2) up; let r := 3; let t := unitOp 0x5B 2; s.running 0x5B = some (r, t) ∧ 1 < t.f 16 1) ∧
    (let s : State := seats 2 4 (running (unitOp 0x5B 1) up); let r := 3; let t := unitOp 0x5B 1; let b := true;
     s.running 0x5B = some (r, t) ∧ t.f 16 1 = b2n b ∧ s.upd.castle = none ∧ s.rd UPD_SESS.state ≠ 5 ∧
     (s.seatIs (!b) ∈ [1, 2, 7] ∨ s.seatIs b ∈ [1, 2, 7])) ∧
    (let s : State := seats 6 4 (running (unitOp 0x5B 1) up); let r := 3; let t := unitOp 0x5B 1; let b := true;
     s.running 0x5B = some (r, t) ∧ t.f 16 1 = b2n b ∧ s.upd.castle = none ∧ s.rd UPD_SESS.state ≠ 5 ∧ s.seatIs b = 4 ∧
     s.seatIs (!b) ∈ [0, 5, 6]) ∧
    (let s : State := seats 3 4 (running (unitOp 0x5B 1) up); let r := 3; let t := unitOp 0x5B 1; let b := true;
     s.running 0x5B = some (r, t) ∧ t.f 16 1 = b2n b ∧ s.upd.castle = none ∧ s.rd UPD_SESS.state ≠ 5 ∧ s.seatIs b = 4 ∧ s.seatIs (!b) = 3) ∧
    (let s : State := seats 5 4 (running (unitOp 0x5B 0) up); let r := 3; let t := unitOp 0x5B 0; let b := false;
     s.running 0x5B = some (r, t) ∧ t.f 16 1 = b2n b ∧ s.upd.castle = none ∧ s.rd UPD_SESS.state ≠ 5 ∧ (s.seatIs b = 3 ∨ s.seatIs b = 5) ∧
     s.seatIs (!b) = 4) ∧
    (let s : State := { running (taken 0x5C [(16, 8, 1)]) up with res := { resigned := [resigned0] } }; let r := 3;
     let t := taken 0x5C [(16, 8, 1)]; s.running 0x5C = some (r, t) ∧ (∀ x ∈ s.res.resigned, x.handle ≠ sliceB t.desc 16 8)) ∧
    (let s : State := { running (taken 0x5C [(16, 8, leNat resigned0.handle)]) up with res := { resigned := [resigned0] } }; let r := 3;
     let t := taken 0x5C [(16, 8, leNat resigned0.handle)]; s.running 0x5C = some (r, t) ∧ let x := resigned0;
     s.res.resigned.find? (fun x => x.handle == sliceB t.desc 16 8) = some x ∧ x.kind ≠ 2) ∧
    (let s : State := { seats 4 6 up with res := { resigned := [resigned0] } }; let x := resigned0;
     s.res.resigned.find? (fun y => y.serial == x.serial && y.testing) = some x ∧ x.kind = 1) := by
  unfold Past
  try dsimp only
  and_intros <;> decide +kernel

theorem witness_RepairsAndAging_part1 :
    (let s : State := running (repair 0 24) fdUp; let r := 3; let t := repair 0 24; s.running 0x5A = some (r, t) ∧ t.f 16 1 = 0 ∧
     s.bridgeUp = true ∧ s.cmdFree = true ∧ let c := t.f 20 4; 24 ≤ c) ∧
    (let s : State := { running (repair 0 23) fdUp with res := { repair := some (repairing 2 false) } }; let r := 3; let t := repair 0 23;
     s.running 0x5A = some (r, t) ∧ t.f 16 1 = 0 ∧ s.bridgeUp = true ∧ s.cmdFree = true ∧ let w := s.cmdCross; let c := t.f 20 4; c < 24 ∧
     w.res.repair ≠ none) ∧
    (let s : State := (List.range 6).foldl (fun s i => s.wr (ENG_CLROLE.role (18 + i)) (if i = 5 then 0 else 1)) (running (repair 0 23) fdUp);
     let r := 3; let t := repair 0 23; s.running 0x5A = some (r, t) ∧ t.f 16 1 = 0 ∧ s.bridgeUp = true ∧ s.cmdFree = true ∧
     let w := s.cmdCross; let c := t.f 20 4; c < 24 ∧ w.res.repair = none ∧ w.upd.castle = none ∧ w.rd UPD_SESS.state ≠ 5 ∧
     w.lastIngress c = true) ∧
    (let s : State := running (repair 0 23) fdUp; let r := 3; let t := repair 0 23; s.running 0x5A = some (r, t) ∧ t.f 16 1 = 0 ∧
     s.bridgeUp = true ∧ s.cmdFree = true ∧ let w := s.cmdCross; let c := t.f 20 4; c < 24 ∧ w.res.repair = none ∧ w.upd.castle = none ∧
     w.rd UPD_SESS.state ≠ 5 ∧ w.lastIngress c = false) ∧
    (let s : State := running (repair 6 23) up; let r := 3; let t := repair 6 23; s.running 0x5A = some (r, t) ∧ 5 < t.f 16 1) ∧
    (let s : State := running (repair 1 383) up; let r := 3; let t := repair 1 383; s.running 0x5A = some (r, t) ∧ t.f 16 1 = 1 ∧
     t.f 20 4 < 384 ∧ s.rd (MCH_PCSTAT.state (t.f 20 4 / 64) (t.f 20 4 % 64)) = 0) ∧
    (let s : State := (running (repair 1 383) up).wr (MCH_PCSTAT.state 5 63) 1; let r := 3; let t := repair 1 383;
     s.running 0x5A = some (r, t) ∧ t.f 16 1 = 1 ∧ t.f 20 4 < 384 ∧ s.rd (MCH_PCSTAT.state (t.f 20 4 / 64) (t.f 20 4 % 64)) ≠ 0) ∧
    (let s : State := { running (repair 2 (31 * 512 + 383)) up with mem := { repairs := [(383, [1, 2])] } }; let r := 3;
     let t := repair 2 (31 * 512 + 383); s.running 0x5A = some (r, t) ∧ t.f 16 1 = 2 ∧ t.f 20 4 % 512 < 384 ∧ t.f 20 4 / 512 < 32 ∧
     let pc := t.f 20 4 % 512; s.freeSpares pc = 0) ∧
    (let s : State := running (repair 2 (31 * 512 + 383)) up; let r := 3; let t := repair 2 (31 * 512 + 383); s.running 0x5A = some (r, t) ∧
     t.f 16 1 = 2 ∧ t.f 20 4 % 512 < 384 ∧ t.f 20 4 / 512 < 32 ∧ let pc := t.f 20 4 % 512; s.freeSpares pc ≠ 0 ∧
     (s.ctl pc).fixing.contains (t.f 20 4 / 512) = false) ∧
    (let s : State := running (repair 3 47) up; let r := 3; let t := repair 3 47; s.running 0x5A = some (r, t) ∧ t.f 16 1 = 3 ∧
     t.f 20 4 < 48) ∧
    (let s : State := { running (repair 3 (2 ^ 31 + 47)) up with res := { retiring := [46, 47] } }; let r := 3;
     let t := repair 3 (2 ^ 31 + 47); s.running 0x5A = some (r, t) ∧ let l := 47; t.f 16 1 = 3 ∧ t.f 20 4 = 2 ^ 31 + l ∧ l < 48 ∧
     s.flk.retired.contains l = false) ∧
    (let s : State := { running (repair 3 (2 ^ 31 + 47)) up with flk := { retired := [47] } }; let r := 3; let t := repair 3 (2 ^ 31 + 47);
     s.running 0x5A = some (r, t) ∧ let l := 47; t.f 16 1 = 3 ∧ t.f 20 4 = 2 ^ 31 + l ∧ l < 48 ∧ s.flk.retired.contains l = true) ∧
    (let s : State := (running (repair 4 7) up).wr (MCD_STAT.state 7) 6; let r := 3; let t := repair 4 7; s.running 0x5A = some (r, t) ∧
     t.f 16 1 = 4 ∧ 4 ≤ t.f 20 4) ∧
    (let s : State := (running (repair 4 3) fdUp).wr (MCD_STAT.state 3) 6; let r := 3; let t := repair 4 3; s.running 0x5A = some (r, t) ∧
     t.f 16 1 = 4 ∧ t.f 20 4 < 4 ∧ s.bridgeUp = true ∧ s.cmdFree = true) := by
  try dsimp only
  and_intros <;> decide +kernel

theorem witness_RepairsAndAging_part2 :
    (let s : State := (running (repair 5 7) up).wr (MCD_STAT.state 7) 5; let r := 3; let t := repair 5 7; s.running 0x5A = some (r, t) ∧
     t.f 16 1 = 5 ∧ 4 ≤ t.f 20 4) ∧
    (let s : State := (running (repair 5 3) fdUp).wr (MCD_STAT.state 3) 5; let r := 3; let t := repair 5 3; s.running 0x5A = some (r, t) ∧
     t.f 16 1 = 5 ∧ t.f 20 4 < 4 ∧ s.bridgeUp = true ∧ s.cmdFree = true) ∧
    (let s : State := up.wr (MCD_STAT.state 7) 5; let ch := 7; ch < 8 ∧ s.rd (MCD_STAT.state ch) = 5) ∧
    (let s : State := up.wr (MCD_STAT.state 7) 4; let ch := 7; ch < 8 ∧ s.rd (MCD_STAT.state ch) = 4) ∧
    (let s : State := up.wr (MCD_STAT.state 7) 3; let ch := 7; ch < 8 ∧ s.rd (MCD_STAT.state ch) ≠ 4 ∧ s.rd (MCD_STAT.state ch) ≠ 5) ∧
    (let s : State := up.wr (MCD_STAT.state 7) 4; let ch := 7; ch < 8 ∧ s.rd (MCD_STAT.state ch) = 4) ∧
    (let s : State := up.wr (MCD_STAT.state 7) 3; let ch := 7; ch < 8 ∧ s.rd (MCD_CFG.role ch) = 0 ∧ s.rd (MCD_STAT.state ch) ≠ 4 ∧
     s.rd (MCD_STAT.state ch) ≠ 6) ∧
    (let s : State := (up.wr (MCD_STAT.state 7) 3).wr (MCD_CFG.role 7) 1; let ch := 7; ch < 8 ∧ s.regsOk = true ∧
     s.rd (MCD_CFG.role ch) = 1 ∧ s.rd (MCD_STAT.state ch) = 3) ∧
    (let s : State := running (unitOp 0x5D 24) up; let r := 3; let t := unitOp 0x5D 24; s.running 0x5D = some (r, t) ∧ 24 ≤ t.f 16 1 ∧
     t.f 16 1 ≠ 255) ∧
    (let s : State := (running (unitOp 0x5D 255) up).wr (D2D_MODSTAT.state 23) 4; let r := 3; let t := unitOp 0x5D 255;
     s.running 0x5D = some (r, t) ∧ (t.f 16 1 < 24 ∨ t.f 16 1 = 255)) ∧
    (let s : State := (running (unitOp 0x5D 23) up).wr (D2D_MODSTAT.state 23) 4; let r := 3; let t := unitOp 0x5D 23;
     s.running 0x5D = some (r, t) ∧ (t.f 16 1 < 24 ∨ t.f 16 1 = 255)) ∧
    (let s : State := { (up.wr (ENG_CLSTAT.role_now 23) 2) with res := { repair := some (repairing 1 false) } }; let k := repairing 1 false;
     s.res.repair = some k ∧ k.step = 1 ∧ s.rd (ENG_CLSTAT.role_now k.cluster) = 2 ∧ s.rd (ENG_CLSTAT.draining k.cluster) = 0) ∧
    (let s : State := { up with res := { repair := some (repairing 2 false) } }; let k := repairing 2 false; s.res.repair = some k ∧
     k.step = 2) ∧
    (let s : State := { up with res := { repair := some (repairing 3 false) } }; let k := repairing 3 false; s.res.repair = some k ∧
     k.step = 3) := by
  try dsimp only
  and_intros <;> decide +kernel

theorem witness_RepairsAndAging_part3 :
    (let s : State := { up with res := { repair := some (repairing 3 false) } }; let k := repairing 3 false; let slot := 63;
     s.res.repair = some k ∧ k.step = 3 ∧ slot < 64) ∧
    (let s : State := { up with res := { repair := some { repairing 4 false with rows := [(1, 2)] } } };
     let k := { repairing 4 false with rows := [(1, 2)] }; s.res.repair = some k ∧ k.step = 4) ∧
    (let s : State := { up with res := { repair := some (repairing 5 false) } }; let k := repairing 5 false; s.res.repair = some k ∧
     k.step = 5) ∧
    (let array := 2; let c := 23; (array < 3 ∧ c < 24 ∨ array = 3) ∧ array < 3) ∧
    (let array := 3; let c := 23; (array < 3 ∧ c < 24 ∨ array = 3) ∧ array = 3) ∧
    (let s : State := { up with res := { weak := [(3, 255, 9)] } }; let array := 3; let c := 0; let row := 9; (array < 3 ∧
     c < 24 ∨ array = 3) ∧ let at_ := if array < 3 then c else 0xFF; s.res.weak.contains (array, at_, row) = true) ∧
    (let s : State := { up with res := { rows := [(2, 23, 9)] } }; let array := 2; let c := 23; let row := 9; (array < 3 ∧
     c < 24 ∨ array = 3) ∧ let at_ := if array < 3 then c else 0xFF; s.res.weak.contains (array, at_, row) = false) ∧
    (let s : State := late 1000000000 { up with pwr := { phase := 2 } }; s.pwr.phase = 2 ∧ Past s s.res.avsAt 1000000000) ∧
    (let s : State := up; let d := 1; let margin := -5; s.regsOk = true ∧ Tbl.risingFrom 0 s.res.avsHigh = true ∧ d < 2 ∧
     s.rd (avsSteps d) ≤ 16 ∧ margin < (s.rd SEAT_AVSCFG.target_ps : Int)) ∧
    (let s : State := late 1000000000 { up with pwr := { phase := 2 }, res := { avsMiss := [(0, 1)] } }; s.pwr.phase = 2 ∧
     Past s s.res.avsTryAt 1000000000 ∧ Tbl.get 0 s.res.avsMiss 0 ≠ 0 ∧ Tbl.get 0 s.res.avsMiss 1 = 0) ∧
    (let s : State := late 1000000000 up; Past s s.res.stressAt 1000000000) := by
  unfold Past
  try dsimp only
  and_intros <;> decide +kernel

/-! ### 13_update.md -/

/-- An image without payload bytes: two components of no length, at the first offset that they may have. -/
def imgHead : List Nat :=
  let h := leBytes 4 0x58425957 ++ leBytes 2 3 ++ leBytes 2 0 ++ leBytes 4 2 ++ leBytes 4 4360 ++ leBytes 4 4360 ++ leBytes 2 2 ++ List.replicate 134 0
  h ++ leBytes 4 (crc32c h)
def imgPart (kind : Nat) : List Nat := [kind, 0, 0, 0] ++ leBytes 4 1 ++ leBytes 4 4096 ++ leBytes 4 0 ++ sha384 []

/-- Bytes of flash from an address; a flash whose banks hold seal sectors of empty images, and one whose bank 0 holds a sealed image. -/
def norAt (a : Nat) (l : List Nat) : Tbl Nat := l.zipIdx.map (fun e => (a + e.2, e.1))
def noImages : Tbl Nat := norAt (sealAt 0) (List.replicate 12 0) ++ norAt (sealAt 1) (List.replicate 12 0)
def oneImage : Tbl Nat :=
  norAt 0 (imgHead ++ imgPart 1 ++ imgPart 4) ++ norAt (sealAt 0) (sealBytes 2 288 (List.replicate 48 7)) ++ norAt (sealAt 1) (List.replicate 12 0)

/-- Session 5 in a state; the offer of 160 bytes, or `len`, from host address 4096; a block of `len` bytes for offset `off`. -/
def sess (st : Nat) (u : Upd) (s : State) : State := { (s.wr UPD_SESS.state st).wr UPD_SESS.session 5 with upd := { u with nor := noImages } }
def offer (len : Nat) : Taken := taken 0x48 [(16, 8, 4096), (24, 4, len)]
def offering (len st : Nat) : State := { sess st {} (running (offer len) up) with hostMem := hostAt 4096 imgHead }
def block (off len k : Nat) : Taken := { taken 0x49 [(16, 8, 4096), (24, 4, off), (28, 4, len)] with progress := k }
def blocks (at_ off len k : Nat) : State := (sess 1 { header := imgHead } (running (block off len k) up)).wr UPD_PROG.bytes at_
def forSess (op n : Nat) : Taken := taken op [(16, 4, n)]

/-- A session that port B brings in; a castling at a step; the recovery window. -/
def onB (st : Nat) (u : Upd) : State := (sess st u (up.wr UPD_CFG.chain_rx 2)).wr UPD_SESS.source 2
def castling (k : Castle) (s : State) : State := { s with upd := { castle := some k, nor := noImages } }
def inWindow (s : State) : State := { s with pwr := { recovery := true } }

theorem witness_UpdateSessions_part1 :
    (let s : State := { up with upd := { rec0 := some {}, rec1 := some { seq := 4 } } }; s.upd.newestBank = 1) ∧
    (let s : State := { up with upd := { rec1 := some { seq := 4 } } }; s.upd.newestBank = 1) ∧
    (let s : State := { up with upd := { rec0 := some { seq := 4 }, rec1 := some { seq := 3 } } }; s.upd.newestBank ≠ 1) ∧
    (let s : State := offering 64 0; let r := 3; let t := offer 64; s.running 0x48 = some (r, t) ∧ t.f 24 4 ≠ 160) ∧
    (let s : State := offering 160 1; let r := 3; let t := offer 160; s.running 0x48 = some (r, t) ∧ t.f 24 4 = 160 ∧
     s.rd UPD_SESS.state ≠ 0) ∧
    (let s : State := { offering 160 0 with hostMem := [] }; let r := 3; let t := offer 160; s.running 0x48 = some (r, t) ∧
     let h := s.dmaRead (t.f 16 8) 160; t.f 24 4 = 160 ∧ s.rd UPD_SESS.state = 0 ∧ s.dmaOk = true ∧ s.offerReason 0 h ≠ 0) ∧
    (let s : State := offering 160 0; let r := 3; let t := offer 160; s.running 0x48 = some (r, t) ∧ let h := s.dmaRead (t.f 16 8) 160;
     t.f 24 4 = 160 ∧ s.rd UPD_SESS.state = 0 ∧ s.dmaOk = true ∧ s.offerReason 0 h = 0) ∧
    (let s : State := { up with upd := { nor := noImages } }; let src := 2; s.regsOk = true ∧ Tbl.risingFrom 0 s.record.areas = true ∧
     src < 3) ∧
    (let s : State := blocks 0 64 128 0; let r := 3; let t := block 64 128 0; s.running 0x49 = some (r, t) ∧ s.dmaOk = true ∧
     s.rd UPD_SESS.source = 0 ∧ s.rd UPD_SESS.state = 1 ∧ s.blockOk (t.f 24 4) (t.f 28 4) t.progress = false) ∧
    (let s : State := blocks 64 0 130 1; let r := 3; let t := block 0 130 1; s.running 0x49 = some (r, t) ∧ s.dmaOk = true ∧
     s.rd UPD_SESS.source = 0 ∧ s.rd UPD_SESS.state = 1 ∧ s.blockOk (t.f 24 4) (t.f 28 4) t.progress = false) ∧
    (let s : State := blocks 0 0 128 0; let r := 3; let t := block 0 128 0; s.running 0x49 = some (r, t) ∧ s.dmaOk = true ∧
     s.rd UPD_SESS.source = 0 ∧ s.rd UPD_SESS.state = 1 ∧ s.blockOk (t.f 24 4) (t.f 28 4) t.progress = true ∧ 64 * t.progress < t.f 28 4 ∧
     s.fwdFull = false ∧ let u := s.storeBytes (s.dmaRead (t.f 16 8 + 64 * t.progress) (min 64 (t.f 28 4 - 64 * t.progress))) false;
     u.rd UPD_SESS.state = 1) ∧
    (let s : State := blocks 64 0 128 1; let r := 3; let t := block 0 128 1; s.running 0x49 = some (r, t) ∧ s.dmaOk = true ∧
     s.rd UPD_SESS.source = 0 ∧ s.rd UPD_SESS.state = 1 ∧ s.blockOk (t.f 24 4) (t.f 28 4) t.progress = true ∧ 64 * t.progress < t.f 28 4 ∧
     s.fwdFull = false ∧ let u := s.storeBytes (s.dmaRead (t.f 16 8 + 64 * t.progress) (min 64 (t.f 28 4 - 64 * t.progress))) false;
     u.rd UPD_SESS.state = 1) ∧
    (let s : State := blocks 4352 4352 8 0; let r := 3; let t := block 4352 8 0; s.running 0x49 = some (r, t) ∧ s.dmaOk = true ∧
     s.rd UPD_SESS.source = 0 ∧ s.rd UPD_SESS.state = 1 ∧ s.blockOk (t.f 24 4) (t.f 28 4) t.progress = true ∧ 64 * t.progress < t.f 28 4 ∧
     s.fwdFull = false ∧ let u := s.storeBytes (s.dmaRead (t.f 16 8 + 64 * t.progress) (min 64 (t.f 28 4 - 64 * t.progress))) false;
     u.rd UPD_SESS.state = 1) ∧
    (let s : State := sess 1 { header := imgHead } up; let b := [1, 2, 255]; Tbl.risingFrom 0 s.upd.nor = true ∧
     hdrDelta s.upd.header = false ∧ (∀ x ∈ b, x < 256)) := by
  try dsimp only
  and_intros <;> decide +kernel

theorem witness_UpdateSessions_part2 :
    (let s : State := (sess 1 { header := imgHead } (running (forSess 0x4A 5) up)).wr UPD_PROG.bytes 4360; let r := 3;
     let t := forSess 0x4A 5; s.running 0x4A = some (r, t) ∧ s.rd UPD_SESS.source = 0 ∧ t.f 16 4 = s.rd UPD_SESS.session ∧
     s.rd UPD_SESS.state = 1 ∧ s.allThere = true) ∧
    (let s : State := (sess 1 { header := imgHead } (running (forSess 0x4A 5) up)).wr UPD_PROG.bytes 4359; let r := 3;
     let t := forSess 0x4A 5; s.running 0x4A = some (r, t) ∧ s.rd UPD_SESS.source = 0 ∧ t.f 16 4 = s.rd UPD_SESS.session ∧
     s.rd UPD_SESS.state = 1 ∧ s.allThere = false) ∧
    (let s : State := sess 2 {} up; s.rd UPD_SESS.state = 2 ∧ let a := s.rd UPD_SESS.target;
     let x := s.verifyReason (s.container 0 (s.rd UPD_PROG.bytes)) (s.imageIn s.record.confirmed) (areaRoom a); x.1 ≠ 0) ∧
    (let s : State := late (10 ^ 15) (sess 1 {} up); s.rd UPD_SESS.state = 1 ∧ Past s s.upd.byteAt (s.rd UPD_CFG.idle_s * 1000000000)) ∧
    (let s : State := late (10 ^ 15) (sess 3 {} up); s.rd UPD_SESS.state = 3 ∧ s.pwr.recovery = false ∧
     Past s s.upd.heldAt (s.rd UPD_HOLD.hold_min * 60000000000)) ∧
    (let s : State := sess 3 {} up; let n := 255; s.regsOk = true ∧ n < 256) ∧
    (let type := 255; let payload := List.replicate 4096 0; type < 256 ∧ payload.length ≤ 4096) ∧
    (let type := 5; let payload := [1, 255, 0]; type < 256 ∧ payload.length ≤ 4096) ∧
    (let s : State := up; let m := [1, 2, 3]; s.chainOn = true ∧ msgOk m = false) ∧
    (let s : State := up; let m := chainMsg 9 0 0 0 [1] ++ [0]; s.chainOn = true ∧ msgOk m = false) ∧
    (let s : State := onB 4 {}; let b := true; let m := chainMsg 1 0 0 0 imgHead; Msg s m 0x01 ∧ s.rxAllowed b = true ∧
     s.rd UPD_SESS.state ≠ 0) ∧
    (let s : State := onB 0 {}; let b := true; let m := chainMsg 1 0 0 0 (List.replicate 160 0); Msg s m 0x01 ∧ s.rxAllowed b = true ∧
     let h := sliceB (msgPayload m) 0 160; s.rd UPD_SESS.state = 0 ∧ msgLength m = 160 ∧ s.offerReason (b2n b + 1) h ≠ 0) ∧
    (let s : State := onB 0 {}; let b := true; let m := chainMsg 1 0 0 0 imgHead; Msg s m 0x01 ∧ s.rxAllowed b = true ∧
     let h := sliceB (msgPayload m) 0 160; s.rd UPD_SESS.state = 0 ∧ msgLength m = 160 ∧ s.offerReason (b2n b + 1) h = 0 ∧
     s.offerFirst b = none) ∧
    (let s : State := { (onB 0 {}).wr UPD_CFG.chain_rx 3 with pending := [.chainOffer false (chainMsg 1 0 0 0 imgHead) false] };
     let b := true; let m := chainMsg 1 0 0 0 imgHead; Msg s m 0x01 ∧ s.rxAllowed b = true ∧ let h := sliceB (msgPayload m) 0 160;
     s.rd UPD_SESS.state = 0 ∧ msgLength m = 160 ∧ s.offerReason (b2n b + 1) h = 0 ∧ let src := 1; s.offerFirst b = some src) := by
  unfold Past Msg
  try dsimp only
  and_intros <;> decide +kernel

theorem witness_UpdateSessions_part3 :
    (let s : State := up; let m := chainMsg 5 5 64 0 [1]; Msg s m 0x05 ∧ msgOffset m ≠ s.rd UPD_PROG.bytes) ∧
    (let s : State := onB 1 { header := imgHead }; let b := true; let m := chainMsg 5 5 0 0 [1, 2, 3]; Msg s m 0x05 ∧ s.chainDown b = true ∧
     msgOffset m = s.rd UPD_PROG.bytes ∧ msgOffset m + msgLength m ≤ hdrLength s.upd.header ∧ s.fwdFull = false ∧
     let u := s.storeBytes (msgPayload m) false; u.rd UPD_SESS.state = 1 ∧ u.fwdFull = false) ∧
    (let s : State := (onB 1 { header := imgHead }).wr UPD_PROG.bytes 4352; let b := true;
     let m := chainMsg 5 5 4352 0 [1, 2, 3, 4, 5, 6, 7, 8]; Msg s m 0x05 ∧ s.chainDown b = true ∧ msgOffset m = s.rd UPD_PROG.bytes ∧
     msgOffset m + msgLength m ≤ hdrLength s.upd.header ∧ s.fwdFull = false ∧ let u := s.storeBytes (msgPayload m) false;
     u.rd UPD_SESS.state = 1 ∧ u.fwdFull = false) ∧
    (let s : State := onB 1 { chnA := { fwd := 1, buf := [(0, [1])] } }; let b := false; let m := chainMsg 2 0 0 0 []; Msg s m 0x02 ∧
     (s.port b).fwd = 1) ∧
    (let s : State := onB 1 { chnA := { fwd := 2, buf := [(0, [1])] }, ackOwed := true }; let b := false; let m := chainMsg 4 0 0 0x90 [];
     (s.port b).fwd ≠ 0 ∧ Msg s m 0x04) ∧
    (let s : State := onB 1 { chnA := { fwd := 1 } }; let b := false; let m := chainMsg 3 0 0 (2 ^ 30 + 7) []; (s.port b).fwd ≠ 0 ∧
     Msg s m 0x03) ∧
    (let s : State := onB 1 { chnA := { fwd := 2, buf := [(0, [1, 1, 1, 1]), (4, [2]), (5, [3])], sent := 2 } }; let b := false;
     let m := chainMsg 6 0 5 0 []; Msg s m 0x06 ∧ (s.port b).fwd = 2 ∧
     ((s.port b).buf.take (s.port b).sent).any (fun e => e.1 + e.2.length == msgOffset m) = true) ∧
    (let s : State := onB 1 { chnA := { fwd := 2, buf := [(0, [1, 1, 1, 1]), (4, [2]), (5, [3])], sent := 2 } }; let b := false;
     let m := chainMsg 6 0 4 0 []; Msg s m 0x06 ∧ (s.port b).fwd = 2 ∧
     ((s.port b).buf.take (s.port b).sent).any (fun e => e.1 + e.2.length == msgOffset m) = true) ∧
    (let s : State := onB 3 {}; let b := true; let m := chainMsg 7 0 0 0 []; Msg s m 0x07 ∧ s.rd UPD_SESS.source = b2n b + 1 ∧
     (s.port false).fwd = 0 ∧ (s.port true).fwd = 0 ∧ 0 < s.rd UPD_SESS.state ∧ s.rd UPD_SESS.state < 4) ∧
    (let s : State := onB 5 {}; let b := true; let m := chainMsg 7 0 0 0 []; Msg s m 0x07 ∧ s.rd UPD_SESS.source = b2n b + 1 ∧
     (s.port false).fwd = 0 ∧ (s.port true).fwd = 0 ∧ s.rd UPD_SESS.state = 5) ∧
    (let s : State := onB 6 {}; let b := true; let m := chainMsg 7 0 0 0 []; Msg s m 0x07 ∧ s.rd UPD_SESS.source = b2n b + 1 ∧
     (s.port false).fwd = 0 ∧ (s.port true).fwd = 0 ∧ (s.rd UPD_SESS.state = 4 ∨ s.rd UPD_SESS.state = 6)) ∧
    (let s : State := up; let m := chainMsg 9 0 0 (2 ^ 32 - 1) []; Msg s m 0x09 ∧ s.regsOk = true) ∧
    (let s : State := late 1000000 up; let b := false; s.chainOn = true ∧ Past s (s.port b).sentAt 1000000) ∧
    (let s : State := late 10000000 (up.wr UPD_CHAIN.b_up 1); let b := true; s.chainUp b = true ∧ Past s (s.port b).heardAt 10000000) := by
  unfold Past Msg
  try dsimp only
  and_intros <;> decide +kernel

theorem witness_UpdateSessions_part4 :
    (let s : State := late 1000000 (onB 1 { chnA := { fwd := 2, buf := [(0, [1]), (1, [2])], sent := 1 } }); let b := false;
     (s.port b).fwd = 2 ∧ 0 < (s.port b).sent ∧ Past s (max (s.port b).ackAt (s.port b).retryAt) 1000000) ∧
    (let s : State := late (10 ^ 15) (onB 1 { chnA := { fwd := 2, sent := 1, buf := [(4096, [1])], acked := 4096 } }); let b := false;
     ((s.port b).fwd = 1 ∨ (s.port b).fwd = 2 ∧ 0 < (s.port b).sent) ∧ Past s (s.port b).ackAt (s.rd UPD_CFG.idle_s * 1000000000)) ∧
    (let s : State := late (10 ^ 15) (onB 1 { chnA := { fwd := 1, acked := 4096 } }); let b := false;
     ((s.port b).fwd = 1 ∨ (s.port b).fwd = 2 ∧ 0 < (s.port b).sent) ∧ Past s (s.port b).ackAt (s.rd UPD_CFG.idle_s * 1000000000)) := by
  unfold Past
  try dsimp only
  and_intros <;> decide +kernel

theorem witness_CastlingAndRecovery_part1 :
    (let s : State := sess 1 {} (running (forSess 0x4B 5) up); let r := 3; let t := forSess 0x4B 5; s.running 0x4B = some (r, t) ∧
     s.rd UPD_SESS.state ≠ 0 ∧ t.f 16 4 = s.rd UPD_SESS.session ∧ s.rd UPD_SESS.state ≠ 3) ∧
    (let s : State := (sess 3 {} (running (forSess 0x4B 5) up)).wr UPD_SESS.target 2; let r := 3; let t := forSess 0x4B 5;
     s.running 0x4B = some (r, t) ∧ s.rd UPD_SESS.state ≠ 0 ∧ t.f 16 4 = s.rd UPD_SESS.session ∧ s.rd UPD_SESS.state = 3 ∧
     s.rd UPD_SESS.target = 2) ∧
    (let s : State := seats 4 6 ((sess 3 {} (running (forSess 0x4B 5) up)).wr UPD_SESS.target 1); let r := 3; let t := forSess 0x4B 5;
     s.running 0x4B = some (r, t) ∧ s.rd UPD_SESS.state ≠ 0 ∧ t.f 16 4 = s.rd UPD_SESS.session ∧ s.rd UPD_SESS.state = 3 ∧
     s.rd UPD_SESS.target ≠ 2 ∧ s.castleBusy ≠ 0) ∧
    (let s : State := seats 4 3 ((sess 3 {} (running (forSess 0x4B 5) up)).wr UPD_SESS.target 1); let r := 3; let t := forSess 0x4B 5;
     s.running 0x4B = some (r, t) ∧ s.rd UPD_SESS.state ≠ 0 ∧ t.f 16 4 = s.rd UPD_SESS.session ∧ s.rd UPD_SESS.state = 3 ∧
     s.rd UPD_SESS.target ≠ 2 ∧ s.castleBusy = 0) ∧
    (let s : State := (sess 3 {} up).wr UPD_SESS.target 1; s.regsOk = true) ∧
    (let s : State := (sess 3 {} up).wr UPD_SESS.target 1; s.regsOk = true) ∧
    (let s : State := castling { step := 1, revert := false } up; let k := { step := 1, revert := false }; CastleAt s k 1) ∧
    (let s : State := castling { step := 2, revert := false } (seats 3 4 up); let k := { step := 2, revert := false }; let b := false;
     s.regsOk = true ∧ CastleAt s k 2 ∧ s.res.checking = none ∧ s.seatIs b = 3 ∧ s.seatIs (!b) = 4) ∧
    (let s : State := castling { step := 2, revert := true } (seats 4 3 up); let k := { step := 2, revert := true }; let b := true;
     s.regsOk = true ∧ CastleAt s k 2 ∧ s.res.checking = none ∧ s.seatIs b = 3 ∧ s.seatIs (!b) = 4) ∧
    (let s : State := castling { step := 3, revert := true } up; let k := { step := 3, revert := true }; CastleAt s k 3) ∧
    (let s : State := castling { step := 4, revert := true } up; let k := { step := 4, revert := true }; CastleAt s k 4) ∧
    (let s : State := sess 4 { castle := some { step := 3, revert := false, seat := 1 } } (seats 4 1 up);
     let k := { step := 3, revert := false, seat := 1 }; let b := true; s.regsOk = true ∧ (CastleAt s k 3 ∨ CastleAt s k 4) ∧
     k.revert = false ∧ k.seat = b2n b ∧ s.seatIs b = 1) ∧
    (let s : State := sess 4 { castle := some { step := 4, revert := false, seat := 1 } } (seats 4 1 up);
     let k := { step := 4, revert := false, seat := 1 }; let b := true; s.regsOk = true ∧ (CastleAt s k 3 ∨ CastleAt s k 4) ∧
     k.revert = false ∧ k.seat = b2n b ∧ s.seatIs b = 1) ∧
    (let s : State := castling { step := 5, revert := false, seat := 1 } (seats 4 2 up); let k := { step := 5, revert := false, seat := 1 };
     let b := true; s.regsOk = true ∧ CastleAt s k 5 ∧ k.seat = b2n b ∧ s.seatIs (!b) = 4) := by
  unfold CastleAt
  try dsimp only
  and_intros <;> decide +kernel

theorem witness_CastlingAndRecovery_part2 :
    (let s : State := castling { step := 6, revert := false, seat := 1 } (seats 1 4 up); let k := { step := 6, revert := false, seat := 1 };
     let b := false; s.regsOk = true ∧ CastleAt s k 6 ∧ s.seatIs b = 1 ∧ s.seatIs (!b) = 4) ∧
    (let s : State := castling { step := 7, revert := false, seat := 1 } (seats 2 4 up); let k := { step := 7, revert := false, seat := 1 };
     let b := false; s.regsOk = true ∧ CastleAt s k 7 ∧ s.seatIs b = 2 ∧ s.seatIs (!b) = 4) ∧
    (let s : State := castling { step := 8, revert := true } up; let k := { step := 8, revert := true }; CastleAt s k 8 ∧
     (∀ e ∈ s.upd.displaced, s.drains e.1 = false) ∧ k.clusters = []) ∧
    (let s : State := castling { step := 8, revert := true, clusters := [3, 23] } (up.wr (ENG_CLSTAT.role_now 23) 1);
     let k := { step := 8, revert := true, clusters := [3, 23] }; CastleAt s k 8 ∧ (∀ e ∈ s.upd.displaced, s.drains e.1 = false) ∧
     let c := 23; s.nextCluster k.clusters = some c ∧ s.drains c = false ∧ s.rd (bankState c (1 - s.rd (ENG_BANKCTL.live_bank c))) ≠ 1) ∧
    (let s : State := castling { step := 8, revert := false, clusters := [3, 23] } (up.wr (ENG_CLSTAT.role_now 23) 1);
     let k := { step := 8, revert := false, clusters := [3, 23] }; CastleAt s k 8 ∧ (∀ e ∈ s.upd.displaced, s.drains e.1 = false) ∧
     let c := 23; s.nextCluster k.clusters = some c ∧ s.drains c = false ∧ s.rd (bankState c (1 - s.rd (ENG_BANKCTL.live_bank c))) ≠ 1) ∧
    (let s : State := castling { step := 9, revert := true, groups := [2, 11] } up;
     let k := { step := 9, revert := true, groups := [2, 11] }; CastleAt s k 9 ∧ let g := 2; let rest := [11]; k.groups = g :: rest) ∧
    (let s : State := castling { step := 9, revert := true, groups := [2, 11] } up;
     let k := { step := 9, revert := true, groups := [2, 11] }; CastleAt s k 9 ∧ let g := 2; let rest := [11]; k.groups = g :: rest) ∧
    (let s : State := castling { step := 9, revert := false, groups := [2, 11] } up;
     let k := { step := 9, revert := false, groups := [2, 11] }; CastleAt s k 9 ∧ let g := 2; let rest := [11]; k.groups = g :: rest) ∧
    (let s : State := castling { step := 9, revert := false } up; let k := { step := 9, revert := false }; CastleAt s k 9 ∧ k.groups = [] ∧
     k.revert = false ∧ s.regsOk = true) ∧
    (let s : State := castling { step := 9, revert := true } up; let k := { step := 9, revert := true }; CastleAt s k 9 ∧ k.groups = [] ∧
     k.revert = true ∧ s.regsOk = true) ∧
    (let s : State := sess 0 {} (running (forSess 0x4C 5) up); let r := 3; let t := forSess 0x4C 5; s.running 0x4C = some (r, t) ∧
     s.rd UPD_SESS.state ≠ 5) ∧
    (let s : State := sess 5 {} (running (forSess 0x4C 6) up); let r := 3; let t := forSess 0x4C 6; s.running 0x4C = some (r, t) ∧
     s.rd UPD_SESS.state = 5 ∧ t.f 16 4 ≠ s.rd UPD_SESS.session) ∧
    (let s : State := sess 5 {} (running (forSess 0x4C 5) up); let r := 3; let t := forSess 0x4C 5; s.running 0x4C = some (r, t) ∧
     s.rd UPD_SESS.state = 5 ∧ t.f 16 4 = s.rd UPD_SESS.session) ∧
    (let s : State := { ((sess 5 {} up).wr UPD_KEYS.present 15).wr UPD_KEYS.revoked 1 with upd := { nor := oneImage } }; s.regsOk = true) := by
  unfold CastleAt
  try dsimp only
  and_intros <;> decide +kernel

theorem witness_CastlingAndRecovery_part3 :
    (let s : State := sess 4 {} (running (forSess 0x4D 5) up); let r := 3; let t := forSess 0x4D 5; s.running 0x4D = some (r, t) ∧
     t.f 16 4 = s.rd UPD_SESS.session ∧ (s.rd UPD_SESS.state = 4 ∨ s.rd UPD_SESS.state = 6)) ∧
    (let s : State := sess 6 {} (running (forSess 0x4D 5) up); let r := 3; let t := forSess 0x4D 5; s.running 0x4D = some (r, t) ∧
     t.f 16 4 = s.rd UPD_SESS.session ∧ (s.rd UPD_SESS.state = 4 ∨ s.rd UPD_SESS.state = 6)) ∧
    (let s : State := sess 5 {} (running (forSess 0x4D 5) up); let r := 3; let t := forSess 0x4D 5; s.running 0x4D = some (r, t) ∧
     t.f 16 4 = s.rd UPD_SESS.session ∧ s.rd UPD_SESS.state = 5) ∧
    (let s : State := sess 3 {} (running (forSess 0x4D 5) up); let r := 3; let t := forSess 0x4D 5; s.running 0x4D = some (r, t) ∧
     t.f 16 4 = s.rd UPD_SESS.session ∧ 0 < s.rd UPD_SESS.state ∧ s.rd UPD_SESS.state < 4) ∧
    (let s : State := late (10 ^ 15) (sess 5 {} up); s.rd UPD_SESS.state = 5 ∧ Past s s.upd.trialAt (s.rd UPD_CFG.trial_min * 60000000000)) ∧
    (let s : State := up; s.pwr.recovery = false) ∧
    (let s : State := inWindow up; let data := []; s.pwr.recovery = true ∧ let u := s.window 1 data; let h := u.pieceBytes 160;
     u.rd UPD_SESS.state = 0 ∧ u.offerReason 0 h ≠ 0) ∧
    (let s : State := inWindow { up with upd := { nor := noImages } }; let data := imgHead; s.pwr.recovery = true ∧
     let u := s.window 1 data; let h := u.pieceBytes 160; u.rd UPD_SESS.state = 0 ∧ u.offerReason 0 h = 0) ∧
    (let s : State := inWindow (sess 1 { header := imgHead } up); let off := 1; let len := 1; let data := [1]; s.pwr.recovery = true ∧
     let u := ((s.window 2 data).wr UPD_ROFF.offset off).wr UPD_RLEN.length len; u.windowRuns = true ∧ off ≠ u.rd UPD_RPROG.bytes) ∧
    (let s : State := inWindow (sess 1 { header := imgHead } up); let off := 0; let len := 3; let data := [1, 255, 3];
     s.pwr.recovery = true ∧ let u := ((s.window 2 data).wr UPD_ROFF.offset off).wr UPD_RLEN.length len; u.windowRuns = true ∧
     off = u.rd UPD_RPROG.bytes ∧ 0 < len ∧ len ≤ 983040 ∧ off + len ≤ hdrLength u.upd.header) ∧
    (let s : State := inWindow (sess 1 { header := imgHead } up); s.pwr.recovery = true ∧ (s.window 3 []).windowRuns = true) ∧
    (let s : State := inWindow { up with upd := { nor := oneImage } }; s.pwr.recovery = true ∧ (s.window 4 []).rd UPD_SESS.state = 0 ∧
     let u := (s.window 4 []).chooseImage false 0; u.rd UPD_BOOT.booted ≠ 3) ∧
    (let s : State := inWindow { up with upd := { nor := noImages } }; s.pwr.recovery = true ∧ (s.window 4 []).rd UPD_SESS.state = 0 ∧
     let u := (s.window 4 []).chooseImage false 0; u.rd UPD_BOOT.booted = 3) ∧
    (let s : State := late 10000000 (inWindow (up.wr UPD_RSTAT.state 4)); s.pwr.recovery = true ∧ s.rd UPD_RSTAT.state = 4 ∧
     Past s s.upd.doneAt 10000000) := by
  unfold Past
  try dsimp only
  and_intros <;> decide +kernel

/-! ### 13_update.md: an image that passes verification -/

def imgBody : List Nat := (imgHead ++ imgPart 1 ++ imgPart 4) ++ List.replicate 3808 255

/-- A public key under which that image's own digest, as r and as s, is a signature (u1 = u2 = 1). -/
def imgKey : List Nat := 4 ::
  (beBytes 48 0x28411d82f18da0a4f34c5061c467df3a244413f5f201a0f18c8356e1bf25943e71fbb18d863ac6361b2211c1520bc186 ++
   beBytes 48 0xfed42d50bedff4c1b57ed1eb834d741407e6f61cc1def670badde91bda5a696ed81ada0017a06ca19dee1fd570607660)
def imgDigest : List Nat :=
  [0, 232, 7, 85, 39, 20, 198, 217, 57, 152, 139, 101, 207, 226, 125, 153, 174, 135, 147, 26, 2, 237, 40, 134, 61, 48, 93,
   171, 60, 84, 163, 138, 157, 2, 112, 186, 74, 155, 111, 230, 61, 47, 145, 175, 45, 245, 0, 55]
def imgSig : List Nat :=
  leBytes 4 0x47495357 ++ [3, 0, 0, 0] ++ imgKey ++ List.replicate 7 0 ++ imgDigest ++ imgDigest ++ List.replicate 48 0
def img2 : List Nat := imgBody ++ imgSig ++ leBytes 8 6234766170325557450

/-- A device whose fuse slot 3 holds that key. -/
def keyed (s : State) (d : List Nat) : State := { s.wr UPD_KEYS.present 8 with upd := { keys := [(3, d)] } }

/-- The CRC with its register evaluated byte by byte. -/
def crcStep (w poly : Nat) : Nat → List Nat → Nat
  | r, [] => r
  | r, b :: t =>
    match crcBitsNorm w poly 8 (Nat.xor r (b % 256 * 2 ^ (w - 8))) with
    | 0 => crcStep w poly 0 t
    | k + 1 => crcStep w poly (k + 1) t

theorem crcStep_eq (w poly : Nat) : ∀ l r, crcStep w poly r l = crcNorm w poly r l
  | [], _ => rfl
  | b :: t, r => by
    unfold crcStep crcNorm
    rw [List.foldl_cons]
    split <;> rename_i e <;> rw [crcStep_eq w poly t, e] <;> rfl

theorem img_crc : crc64 (imgBody ++ imgSig) = 6234766170325557450 := by
  unfold crc64 crc64From
  rw [← crcStep_eq]; decide +kernel

theorem img_sha : sha384 imgBody = imgDigest := by decide +kernel
theorem img_take : img2.take (img2.length - 264) = imgBody := by
  unfold img2; rw [List.append_assoc]; exact List.take_left' (by decide +kernel)
theorem img_take8 : img2.take (img2.length - 8) = imgBody ++ imgSig := by
  unfold img2; exact List.take_left' (by decide +kernel)

theorem img_verifies (s : State) (h : s.rd UPD_KEYS.present = 8) (h' : s.rd UPD_KEYS.revoked = 0) (hk : Tbl.get [] s.upd.keys 3 = sha384 imgKey)
    (base : List Nat) : (s.verifyReason img2 base (areaRoom 1)).1 = 0 := by
  have a1 : hdrDelta img2 = false := by decide +kernel
  have a2 : (!hdrOk img2 (areaRoom 1) || hdrLength img2 != img2.length) = false := by decide +kernel
  have a3 : trailerOk img2 = true := by
    unfold trailerOk
    rw [img_take8, img_crc]; decide +kernel
  have a4 : manifestOk img2 = true := by decide +kernel
  have a5 : (partsOf img2).all (fun p => p.digestOk img2) = true := by decide +kernel
  have a6 : s.signatureOk img2 = true := by
    unfold State.signatureOk
    have b1 : leAt (sigBlock img2) 4 1 = 3 := by decide +kernel
    have b2 : sliceB (sigBlock img2) 8 97 = imgKey := by decide +kernel
    have b3 : sliceB (sigBlock img2) 112 48 = imgDigest := by decide +kernel
    have b4 : sliceB (sigBlock img2) 160 48 = imgDigest := by decide +kernel
    have b5 : ecdsaOk imgKey imgDigest imgDigest imgDigest = true := by decide +kernel
    have b6 : (decide (424 ≤ img2.length) && leAt (sigBlock img2) 0 4 == 0x47495357 && decide (3 < 4) && leNat (sliceB (sigBlock img2) 5 3) == 0 &&
      leNat (sliceB (sigBlock img2) 105 7) == 0 && leNat (sliceB (sigBlock img2) 208 48) == 0) = true := by decide +kernel
    dsimp only
    rw [b1, b2, b3, b4, img_take, img_sha, hk, h, h', b5, b6]
    simp only [beq_self_eq_true, Bool.true_and, Bool.and_true]
    decide
  unfold State.verifyReason State.fullReason State.outerReason
  simp [a1, a2, a3, a4, a5, a6]

/-- That image stands in bank 1 and its session is VERIFYING. -/
def arrived2 (n : Tbl Nat) : State :=
  let s := keyed (((up.wr UPD_SESS.state 2).wr UPD_SESS.target 1).wr UPD_PROG.bytes 4360) (sha384 imgKey)
  { s with upd := { s.upd with header := imgHead, nor := n } }
theorem arrived2_nor (n : Tbl Nat) : (arrived2 n).upd.nor = n := rfl
theorem keyed_get (s : State) (d h : List Nat) (n : Tbl Nat) :
    Tbl.get [] ({ keyed s d with upd := { (keyed s d).upd with header := h, nor := n } } : State).upd.keys 3 = d := rfl
theorem arrived2_keys (n : Tbl Nat) : Tbl.get [] (arrived2 n).upd.keys 3 = sha384 imgKey := keyed_get _ _ _ _

theorem witness_UpdateSessions_passes : let s := arrived2 (norPut [] (areaBase 1) img2)
    s.rd UPD_SESS.state = 2 ∧
    (s.verifyReason (s.container 0 (s.rd UPD_PROG.bytes)) (s.imageIn s.record.confirmed) (areaRoom (s.rd UPD_SESS.target))).1 = 0 ∧
    s.regsOk = true ∧ Tbl.risingFrom 0 s.record.areas = true ∧ Tbl.risingFrom 0 s.upd.nor = true := by
  intro s
  have e1 : s.rd UPD_SESS.target = 1 := by decide +kernel
  have e2 : s.rd UPD_PROG.bytes = img2.length := by decide +kernel
  have e3 : hdrDelta s.upd.header = false := by decide +kernel
  have e5 : s.upd.nor = norPut [] (areaBase 1) img2 := arrived2_nor _
  have e4 : s.container 0 img2.length = img2 := by
    unfold State.container State.norBytes
    rw [e3, e1, e5, Nat.add_zero]
    exact norPut_get img2 [] (areaBase 1) rfl (fun x h => of_decide_eq_true (List.all_eq_true.mp (by decide +kernel : img2.all (decide <| · < 256) = true) x h))
  refine ⟨by decide +kernel, ?_, by decide +kernel, by decide +kernel, by rw [e5]; exact norPut_rising _ _ _ rfl⟩
  rw [e2, e4, e1]
  exact img_verifies s (by decide +kernel) (by decide +kernel) (arrived2_keys _) _

/-! ### 14_startup_reset.md, 15_time_counters.md and 16_package_power.md -/

/-- Enables `en` are high; a boot step is in progress, with feed A in range. -/
def rails (en : Nat) (p : Pwr) (s : State) : State := { s.wr GEN_PSEQ.en en with pwr := p, dies := { feedA := true } }
def boot (n : Nat) (p : Pwr) (u : Upd) : State := { State.reset.wr GEN_BOOTSTAT.step n with dies := { feedA := true }, pwr := p, upd := u }

/-- A SELFTEST, BLOCK_RESET or CHK_JOB descriptor of ring 3. -/
def selfTest (kind u : Nat) : Taken := taken 0x58 [(16, 1, kind), (20, 4, u)]
def blkReset (a : Nat) (w : Bool) : Taken := { taken 0x59 [(16, 4, a)] with waits := w }
def chkJob (alg len : Nat) : Taken := taken 0x50 [(16, 1, alg), (20, 4, len), (24, 8, 4096)]

/-- Segment 63 is homed on channel 7; pair `i` of it waits in a cache; channel 7 is a COUNTER channel in service. -/
def seg63 (h : Nat) (s : State) : State := s.wr (TEL_SEGMAP.home 63) h
def counting (s : State) : State := (s.wr (MCD_CFG.role 7) 3).wr (MCD_STAT.state 7) 3
def cached (fd : Bool) (s : State) : State :=
  (s.setCache fd [(66060289, { packets := 2, bytes := 128, since := 1 })])

theorem witness_RailsAndResets_rails : (rails 127 { phase := 1 } up).regsOk = true ∧ EnRun (rails 127 { phase := 1 } up) ∧
    RailCommand 6 false (.powerGoodFall 6) :=
  ⟨by decide +kernel, ⟨7, by decide, by decide +kernel⟩, by unfold RailCommand; decide +kernel⟩
theorem witness_RailsAndResets_factory : (rails 0 { sysrst := true } up).pwr.sysrst = true := rfl

theorem witness_RailsAndResets_part1 :
    (let s : State := late (10 ^ 10) (rails 0 {} (up.wr GEN_BOOTSTAT.step 2)); s.regsOk = true ∧ s.runnable = true ∧ s.pwr.restart = false ∧
     s.pwr.phase = 0 ∧ s.rd GEN_BOOTSTAT.step = 2 ∧ s.rd GEN_PSEQ.en = 0 ∧ Past s s.pwr.feedAt 10000000 ∧ Past s s.pwr.offAt s.pwr.offFor) ∧
    (let s : State := late 100000 (rails 127 { phase := 1 } up); let g := 6; s.regsOk = true ∧ s.runnable = true ∧ s.pwr.phase = 1 ∧ g < 8 ∧
     s.rd GEN_PSEQ.en = 2 ^ (g + 1) - 1 ∧ Past s s.pwr.enAt 100000) ∧
    (let s : State := late 100000 (rails 255 { phase := 1 } up); let g := 7; s.regsOk = true ∧ s.runnable = true ∧ s.pwr.phase = 1 ∧ g < 8 ∧
     s.rd GEN_PSEQ.en = 2 ^ (g + 1) - 1 ∧ Past s s.pwr.enAt 100000) ∧
    (let s : State := late 100000 (rails 1 { phase := 1 } up); let g := 0; s.regsOk = true ∧ s.runnable = true ∧ s.pwr.phase = 1 ∧ g < 8 ∧
     s.rd GEN_PSEQ.en = 2 ^ (g + 1) - 1 ∧ Past s s.pwr.enAt 100000) ∧
    (let s : State := late 10000000 (rails 15 { phase := 1 } up); let g := 3; s.regsOk = true ∧ s.runnable = true ∧ s.pwr.phase = 1 ∧
     g < 8 ∧ s.rd GEN_PSEQ.en = 2 ^ (g + 1) - 1 ∧ Past s s.pwr.enAt 10000000) ∧
    (let s : State := rails 255 { phase := 2 } (up.wr GEN_PSEQ.pg 255); let g := 7; g < 8 ∧ bitOf (s.rd GEN_PSEQ.pg) g = true ∧
     bitOf ((s.setPg g false).rd GEN_PSEQ.en) g = true ∧ s.pwr.sysrst = false ∧ s.pwr.phase ≠ 3) ∧
    (let s : State := rails 7 { phase := 1 } (up.wr GEN_PSEQ.pg 8); let g := 3; g < 8 ∧ bitOf (s.rd GEN_PSEQ.pg) g = true ∧
     bitOf ((s.setPg g false).rd GEN_PSEQ.en) g = false) ∧
    (let s : State := rails 255 { phase := 2 } up; let g := 7; s.regsOk = true ∧ g < 8) ∧
    (let s : State := rails 255 { phase := 2 } up; let g := 7; s.regsOk = true ∧ g < 8 ∧ s.pwr.faultAt = 0 ∧ s.pwr.tripPin = false) ∧
    (let s : State := late 1000 (rails 255 { phase := 2, faultAt := 5 } up); let g := 0; s.regsOk = true ∧ g < 8 ∧ let n := 4;
     s.pwr.faultAt = n + 1 ∧ s.clk < n + 10000000000) ∧
    (let s : State := late 100000000 (rails 0 { restart := true, faultAt := 1 } up); s.regsOk = true ∧ s.runnable = true ∧
     s.pwr.restart = true ∧ s.pwr.phase = 0 ∧ s.rd GEN_PSEQ.en = 0 ∧ Past s (s.pwr.faultAt - 1) 100000000) ∧
    (let s : State := rails 255 { phase := 3 } (up.wr GEN_PSEQ.pg 255); let g := 7; s.regsOk = true ∧ s.pwr.phase = 3 ∧ g < 8 ∧
     s.rd GEN_PSEQ.en = 2 ^ (g + 1) - 1 ∧ (g = 7 ∨ bitOf (s.rd GEN_PSEQ.pg) (g + 1) = false ∨ Past s s.pwr.enAt 2000000)) ∧
    (let s : State := rails 1 { phase := 3 } (up.wr GEN_PSEQ.pg 1); let g := 0; s.regsOk = true ∧ s.pwr.phase = 3 ∧ g < 8 ∧
     s.rd GEN_PSEQ.en = 2 ^ (g + 1) - 1 ∧ (g = 7 ∨ bitOf (s.rd GEN_PSEQ.pg) (g + 1) = false ∨ Past s s.pwr.enAt 2000000)) ∧
    (let s : State := late 2000000 (rails 15 { phase := 3 } (up.wr GEN_PSEQ.pg 31)); let g := 3; s.regsOk = true ∧ s.pwr.phase = 3 ∧ g < 8 ∧
     s.rd GEN_PSEQ.en = 2 ^ (g + 1) - 1 ∧ (g = 7 ∨ bitOf (s.rd GEN_PSEQ.pg) (g + 1) = false ∨ Past s s.pwr.enAt 2000000)) := by
  unfold Past
  try dsimp only
  and_intros <;> decide +kernel

theorem witness_RailsAndResets_part2 :
    (let s : State := rails 255 { phase := 2 } up; s.regsOk = true ∧ s.pwr.sysrst = false) ∧
    (let s : State := rails 0 { sysrst := true, held := true, tripPin := true } up; s.pwr.sysrst = true ∧ s.regsOk = true) ∧
    (let s : State := rails 255 { phase := 2 } up; s.regsOk = true) ∧
    (let s : State := rails 255 { phase := 2 } up; s.regsOk = true) ∧
    (let s : State := rails 0 { clkLost := true } up; s.regsOk = true ∧ s.pwr.clkLost = true) ∧
    (let s : State := up; s.pwr.recovery = false ∧ s.bit GEN_SEAL.sealed = false ∧ s.cmdWrote.1 ≠ s.clk + 1) ∧
    (let s : State := late 1000000 { up with pwr := { armAt := 1 } }; s.pwr.recovery = false ∧ s.bit GEN_SEAL.sealed = false ∧
     s.cmdWrote.1 ≠ s.clk + 1 ∧ let u := untouched GEN_RSTCTL.refused s; s.bit GEN_BOOTSTAT.ready = true ∧ u.armed = true) ∧
    (let s : State := late 1000001 { up with pwr := { armAt := 1 } }; s.pwr.recovery = false ∧ s.bit GEN_SEAL.sealed = false ∧
     s.cmdWrote.1 ≠ s.clk + 1 ∧ let u := untouched GEN_RSTCTL.refused s; (s.bit GEN_BOOTSTAT.ready = false ∨ u.armed = false)) ∧
    (let s : State := { rails 255 { phase := 2 } up with mem := { restore := [3] } }; let cause := 15; s.regsOk = true ∧ cause < 16) ∧
    (let s : State := rails 255 { phase := 2 } up; s.regsOk = true) ∧
    (let s : State := ((rails 255 { phase := 2 } up).wr (MCD_CFG.retain 7) 1).wr (MCD_STAT.state 7) 3; s.regsOk = true ∧ let ch := 7;
     ch ∈ s.retained) ∧
    (let s : State := ringed { st := .running, kind := 1 }; (s.pwr.warm = false ∨ s.bit GEN_BOOTSTAT.ready = true)) ∧
    (let s : State := rails 255 { phase := 2 } up; let sensor := 31; let temp := 920; sensor < 32 ∧ 920 ≤ temp ∧ temp < 32768 ∧
     s.pwr.tripPin = false) := by
  try dsimp only
  and_intros <;> decide +kernel

theorem witness_BootSequence :
    (let s : State := boot 3 {} { nor := noImages }; s.regsOk = true) ∧
    (let s : State := boot 3 {} { nor := noImages }; let fails := 3; s.regsOk = true ∧ 3 ≤ fails) ∧
    (let s : State := boot 3 {} { rec0 := some { trial := some 1 }, nor := oneImage }; let fails := 2; s.regsOk = true ∧ fails < 3 ∧
     s.upd.rec0.isSome = true ∧ s.record.confirmed < 2 ∧ s.bootCheck s.record.confirmed = true) ∧
    (let s : State := boot 3 {} { rec0 := some { confirmed := 1, areas := [(0, 2)] }, nor := oneImage }; let fails := 2; s.regsOk = true ∧
     fails < 3 ∧ s.upd.rec0.isSome = true ∧ s.record.confirmed < 2 ∧ s.bootCheck s.record.confirmed = false ∧
     let u := s.markArea s.record.confirmed 3; u.isSealed (1 - s.record.confirmed) = true ∧ u.bootCheck (1 - s.record.confirmed) = true) ∧
    (let s : State := boot 3 {} { rec0 := some { confirmed := 1 }, nor := noImages }; let fails := 2; s.regsOk = true ∧ fails < 3 ∧
     s.upd.rec0.isSome = true ∧ s.record.confirmed < 2 ∧ s.bootCheck s.record.confirmed = false ∧ let u := s.markArea s.record.confirmed 3;
     (u.isSealed (1 - s.record.confirmed) = false ∨ u.bootCheck (1 - s.record.confirmed) = false)) ∧
    (let s : State := boot 1 {} { trip := some (3, 920) }; s.booting = true ∧ s.rd GEN_BOOTSTAT.step = 1) ∧
    (let s : State := boot 2 { phase := 2 } { nor := noImages }; s.booting = true ∧ s.rd GEN_BOOTSTAT.step = 2 ∧ s.pwr.phase = 2) ∧
    (let s : State := boot 2 { phase := 1 } { nor := noImages }; s.booting = true ∧ s.rd GEN_BOOTSTAT.step = 2 ∧ s.pwr.phase ≠ 2) ∧
    (let s : State := boot 3 {} { nor := noImages }; s.booting = true ∧ s.rd GEN_BOOTSTAT.step = 3 ∧
     let u := s.chooseImage (!bitOf (s.rd GEN_STRAPS.straps) 0) s.record.bootFails; u.pwr.recovery = true) ∧
    (let s : State := (boot 3 {} { rec0 := some {}, nor := oneImage }).wr GEN_STRAPS.straps 9; s.booting = true ∧
     s.rd GEN_BOOTSTAT.step = 3 ∧ let u := s.chooseImage (!bitOf (s.rd GEN_STRAPS.straps) 0) s.record.bootFails; u.pwr.recovery = false) ∧
    (let s : State := boot 4 {} { nor := noImages }; let a := false; let b := true; s.booting = true ∧ s.rd GEN_BOOTSTAT.step = 4 ∧
     (a = true ∨ b = true) ∧ s.regsOk = true) ∧
    (let s : State := boot 4 {} { nor := noImages }; let a := true; let b := true; s.booting = true ∧ s.rd GEN_BOOTSTAT.step = 4 ∧
     (a = true ∨ b = true) ∧ s.regsOk = true) ∧
    (let s : State := boot 4 {} { nor := noImages }; let a := true; let b := false; s.booting = true ∧ s.rd GEN_BOOTSTAT.step = 4 ∧
     (a = true ∨ b = true) ∧ s.regsOk = true) ∧
    (let s : State := boot 4 {} { nor := noImages }; let a := false; let b := false; s.booting = true ∧ s.rd GEN_BOOTSTAT.step = 4 ∧
     a = false ∧ b = false ∧ s.regsOk = true) ∧
    (let s : State := (boot 5 {} { nor := noImages }).wr (MCD_CFG.role 7) 1; s.booting = true ∧ s.rd GEN_BOOTSTAT.step = 5 ∧
     (∀ k, k < 6 → s.rd (MCH_STAT.state k) ≠ 1)) ∧
    (let s : State := boot 6 {} { nor := noImages }; s.booting = true ∧ s.rd GEN_BOOTSTAT.step = 6 ∧ s.mem.restore = [] ∧
     (∀ c, c < 8 → s.rd (MCD_STAT.state c) ≠ 2)) ∧
    (let s : State := (boot 7 {} { nor := noImages }).wr D2D_STAT.fd_reset 0; s.booting = true ∧ s.rd GEN_BOOTSTAT.step = 7 ∧
     s.bit D2D_STAT.fd_reset = false ∧ s.regsOk = true) ∧
    (let s : State := (boot 8 {} { nor := noImages }).wr (D2D_MODSTAT.state 23) 2; s.booting = true ∧ s.rd GEN_BOOTSTAT.step = 8 ∧
     (∀ m, m < 24 → s.modState m ≠ 1)) ∧
    (let s : State := boot 9 {} { nor := noImages }; s.booting = true ∧ s.rd GEN_BOOTSTAT.step = 9) ∧
    (let s : State := boot 10 {} { nor := noImages }; s.booting = true ∧ s.rd GEN_BOOTSTAT.step = 10) ∧
    (let s : State := late (10 ^ 10) (boot 10 {} { nor := noImages }); s.booting = true ∧
     Past s s.pwr.stepAt (stepBound s.pwr.warm (s.rd GEN_BOOTSTAT.step) + 1000000000)) := by
  unfold Past
  try dsimp only
  and_intros <;> (first
    | decide +kernel | exact fun _ h1 h2 => absurd (Nat.lt_of_lt_of_le h1 h2) (by decide +kernel) | exact fun _ _ => rfl
    | (intro _ h; cases h; done) | (intro _ h; cases h; decide +kernel) | exact .inl (by decide +kernel) | exact .inr (.inl (by decide +kernel))
    | (simp only [← List.mem_range]; decide +kernel) | exact ⟨0, by decide +kernel⟩ | exact ⟨7, by decide +kernel⟩)

theorem witness_TestsAndTelemetry_part1 :
    (let s : State := running (selfTest 0 24) up; let r := 3; let t := selfTest 0 24; s.running 0x58 = some (r, t) ∧
     (t.onFd = true → s.bridgeUp = true ∧ s.cmdFree = true) ∧ let k := t.f 16 1; let u := t.f 20 4; testUnit k u = false) ∧
    (let s : State := { running (selfTest 0 23) up with res := { tests := [(0, 1)] } }; let r := 3; let t := selfTest 0 23;
     s.running 0x58 = some (r, t) ∧ (t.onFd = true → s.bridgeUp = true ∧ s.cmdFree = true) ∧ let w := if t.onFd then s.cmdCross else s;
     let k := t.f 16 1; let u := t.f 20 4; testUnit k u = true ∧ Tbl.get 0 w.res.tests k ≠ 0) ∧
    (let s : State := running (selfTest 3 7) (up.wr (MCD_STAT.state 7) 3); let r := 3; let t := selfTest 3 7; s.running 0x58 = some (r, t) ∧
     (t.onFd = true → s.bridgeUp = true ∧ s.cmdFree = true) ∧ let w := if t.onFd then s.cmdCross else s; let k := t.f 16 1;
     let u := t.f 20 4; testUnit k u = true ∧ Tbl.get 0 w.res.tests k = 0 ∧ w.testable k u = false) ∧
    (let s : State := running (selfTest 3 7) (up.wr (MCD_STAT.state 7) 5); let r := 3; let t := selfTest 3 7; s.running 0x58 = some (r, t) ∧
     (t.onFd = true → s.bridgeUp = true ∧ s.cmdFree = true) ∧ let w := if t.onFd then s.cmdCross else s; let k := t.f 16 1;
     let u := t.f 20 4; testUnit k u = true ∧ Tbl.get 0 w.res.tests k = 0 ∧ w.testable k u = true) ∧
    (let s : State := running (selfTest 7 383) (up.wr (MCH_PCSTAT.state 5 63) 2); let r := 3; let t := selfTest 7 383;
     s.running 0x58 = some (r, t) ∧ (t.onFd = true → s.bridgeUp = true ∧ s.cmdFree = true) ∧ let w := if t.onFd then s.cmdCross else s;
     let k := t.f 16 1; let u := t.f 20 4; testUnit k u = true ∧ Tbl.get 0 w.res.tests k = 0 ∧ w.testable k u = true) ∧
    (let s : State := { up with res := { tests := [(7, 384)] } }; let kind := 7; let pass := false; let rows := ([] : List (Nat × Nat));
     let n := 383; Tbl.get 0 s.res.tests kind = n + 1 ∧ (1 < kind ∨ pass = true ∧ rows = []) ∧ Tbl.risingFrom 0 s.res.tests = true) ∧
    (let s : State := { up.wr (ENG_SPARES.free 23) 7 with res := { tests := [(0, 24)] } }; let n := 23; s.regsOk = true ∧
     Tbl.get 0 s.res.tests 0 = n + 1 ∧ n < 24 ∧ 0 < s.rd (ENG_SPARES.free n) ∧ s.rd (ENG_SPARES.free n) < 8) ∧
    (let s : State := running (blkReset 0x530000 false) up; let r := 3; let t := blkReset 0x530000 false; s.running 0x59 = some (r, t) ∧
     t.waits = false ∧ (isFdAddr (t.f 16 4) = true → s.bridgeUp = true ∧ s.cmdFree = true) ∧ blockAt (t.f 16 4) = none) ∧
    (let s : State := running (blkReset 0x52F000 false) (up.wr (FLK_CTL.enable 47) 1); let r := 3; let t := blkReset 0x52F000 false;
     s.running 0x59 = some (r, t) ∧ t.waits = false ∧ (isFdAddr (t.f 16 4) = true → s.bridgeUp = true ∧ s.cmdFree = true) ∧
     let w := if isFdAddr (t.f 16 4) then s.cmdCross else s; let b := Block.link 47; blockAt (t.f 16 4) = some b ∧ w.resetBusy b ≠ 0) ∧
    (let s : State := running (blkReset 0x52F000 false) up; let r := 3; let t := blkReset 0x52F000 false; s.running 0x59 = some (r, t) ∧
     t.waits = false ∧ (isFdAddr (t.f 16 4) = true → s.bridgeUp = true ∧ s.cmdFree = true) ∧
     let w := if isFdAddr (t.f 16 4) then s.cmdCross else s; let b := Block.link 47; blockAt (t.f 16 4) = some b ∧ w.resetBusy b = 0) ∧
    (let s : State := running (blkReset 0x38000 false) up; let r := 3; let t := blkReset 0x38000 false; s.running 0x59 = some (r, t) ∧
     t.waits = false ∧ (isFdAddr (t.f 16 4) = true → s.bridgeUp = true ∧ s.cmdFree = true) ∧
     let w := if isFdAddr (t.f 16 4) then s.cmdCross else s; let b := Block.chk; blockAt (t.f 16 4) = some b ∧ w.resetBusy b = 0) ∧
    (let s : State := late 10000 { running (blkReset 0x52F000 true) up with res := { resets := [(0x52F000, 1)] } }; let r := 3;
     let t := blkReset 0x52F000 true; let l := 47; let n := 0; s.running 0x59 = some (r, t) ∧ t.waits = true ∧
     blockAt (t.f 16 4) = some (.link l) ∧ Tbl.get 0 s.res.resets (t.f 16 4) = n + 1 ∧ Past s n 10000) ∧
    (let s : State := running (chkJob 4 0) up; let r := 3; let t := chkJob 4 0; s.running 0x50 = some (r, t) ∧
     (3 < t.f 16 1 ∨ 2 ^ 24 < t.f 20 4)) ∧
    (let s : State := running (chkJob 3 (2 ^ 24 + 1)) up; let r := 3; let t := chkJob 3 (2 ^ 24 + 1); s.running 0x50 = some (r, t) ∧
     (3 < t.f 16 1 ∨ 2 ^ 24 < t.f 20 4)) := by
  unfold Past
  try dsimp only
  and_intros <;> decide +kernel

theorem witness_TestsAndTelemetry_part2 :
    (let s : State := running (chkJob 3 (2 ^ 24)) (up.wr CHK_STAT.busy 1); let r := 3; let t := chkJob 3 (2 ^ 24);
     s.running 0x50 = some (r, t) ∧ t.f 16 1 ≤ 3 ∧ t.f 20 4 ≤ 2 ^ 24 ∧ s.bit CHK_STAT.busy = true ∧ t.waits = false) ∧
    (let s : State := { running (chkJob 3 9) up with hif := { (running (chkJob 3 9) up).hif with busMaster := false } }; let r := 3;
     let t := chkJob 3 9; s.running 0x50 = some (r, t) ∧ t.f 16 1 ≤ 3 ∧ t.f 20 4 ≤ 2 ^ 24 ∧ (s.bit CHK_STAT.busy = false ∨ t.waits = true) ∧
     s.dmaOk = false) ∧
    (let s : State := { running (chkJob 0 9) up with hostMem := hostAt 4096 [49, 50, 51, 52, 53, 54, 55, 56, 57] }; let r := 3;
     let t := chkJob 0 9; s.running 0x50 = some (r, t) ∧ t.f 16 1 ≤ 3 ∧ t.f 20 4 ≤ 2 ^ 24 ∧ (s.bit CHK_STAT.busy = false ∨ t.waits = true) ∧
     s.dmaOk = true) ∧
    (let s : State := { running (chkJob 1 9) up with hostMem := hostAt 4096 [49, 50, 51, 52, 53, 54, 55, 56, 57] }; let r := 3;
     let t := chkJob 1 9; s.running 0x50 = some (r, t) ∧ t.f 16 1 ≤ 3 ∧ t.f 20 4 ≤ 2 ^ 24 ∧ (s.bit CHK_STAT.busy = false ∨ t.waits = true) ∧
     s.dmaOk = true) ∧
    (let s : State := { running (chkJob 2 9) up with hostMem := hostAt 4096 [49, 50, 51, 52, 53, 54, 55, 56, 57] }; let r := 3;
     let t := chkJob 2 9; s.running 0x50 = some (r, t) ∧ t.f 16 1 ≤ 3 ∧ t.f 20 4 ≤ 2 ^ 24 ∧ (s.bit CHK_STAT.busy = false ∨ t.waits = true) ∧
     s.dmaOk = true) ∧
    (let s : State := { running (chkJob 3 9) up with hostMem := hostAt 4096 [49, 50, 51, 52, 53, 54, 55, 56, 57] }; let r := 3;
     let t := chkJob 3 9; s.running 0x50 = some (r, t) ∧ t.f 16 1 ≤ 3 ∧ t.f 20 4 ≤ 2 ^ 24 ∧ (s.bit CHK_STAT.busy = false ∨ t.waits = true) ∧
     s.dmaOk = true) ∧
    (let s : State := late 1000000000 (cached true (seg63 15 fdUp)); let fd := true; let i := 66060289; let n := 0;
     ((fd && homeOnTd (s.cntHome i)) = true → s.ctlFree true 1 = true) ∧ (Tbl.get {} (s.cntCache fd) i).since = n + 1 ∧
     Past s n (s.rd TEL_CACHE.wb_us * 1000) ∧ Tbl.risingFrom 0 s.tel.store = true ∧ Tbl.risingFrom 0 s.tel.fdCache = true ∧
     Tbl.risingFrom 0 s.tel.tdCache = true) ∧
    (let s : State := late 1000000000 (cached false (seg63 15 up)); let fd := false; let i := 66060289; let n := 0;
     ((fd && homeOnTd (s.cntHome i)) = true → s.ctlFree true 1 = true) ∧ (Tbl.get {} (s.cntCache fd) i).since = n + 1 ∧
     Past s n (s.rd TEL_CACHE.wb_us * 1000) ∧ Tbl.risingFrom 0 s.tel.store = true ∧ Tbl.risingFrom 0 s.tel.fdCache = true ∧
     Tbl.risingFrom 0 s.tel.tdCache = true) ∧
    (let s : State := up; let seg := 63; let home := 15; Open s ∧ seg < 64 ∧ home < 16) ∧
    (let s : State := seg63 1 up; let seg := 63; let home := 15; seg < 64 ∧ home ≠ s.rd (TEL_SEGMAP.home seg) ∧ s.homeOk home = false) ∧
    (let s : State := counting (seg63 1 up); let seg := 63; let home := 15; seg < 64 ∧ home ≠ s.rd (TEL_SEGMAP.home seg) ∧ s.regsOk = true ∧
     s.homeOk home = true ∧ home < 16 ∧ home ≠ 0 ∧ s.rd (TEL_SEGMAP.home seg) ≠ 0) ∧
    (let s : State := (seg63 15 up).wr (TEL_SEGMAP.state 63) 1; let seg := 63; seg < 64 ∧ s.rd (TEL_SEGMAP.state seg) = 1) ∧
    (let s : State := { (up.wr (TEL_SIDX.session.on .bar0) 5).wr (TEL_SDATA0.ring.on .bar0) 3 with hif := { rings := [(3, { kind := 5 })] } };
     Open s ∧ s.sessionOk (s.sessionWords .bar0) = true) ∧
    (let s : State := up.wr (TEL_SDATA0.kind.on .bar0) 3; Open s ∧ s.sessionOk (s.sessionWords .bar0) = false) := by
  unfold Open Past Reached
  try dsimp only
  and_intros <;> decide +kernel

theorem witness_TestsAndTelemetry_part3 :
    (let s : State := { up.wr (TEL_SIDX.session.on .bar0) 5 with tel := { sessions := [(5, { enable := true, kind := 2 })] } }; Open s ∧
     s.regsOk = true ∧ (s.session (s.rd (TEL_SIDX.session.on .bar0))).kind < 4) ∧
    (let s : State := late 1000000 up; let temps := (List.replicate 31 (-400)) ++ [1000]; s.regsOk = true ∧ s.rd PWR_STAT.alert < 2 ∧
     temps.length = 32 ∧ Past s s.pwr.sensAt 1000000 ∧ (∀ x ∈ temps, -400 ≤ x ∧ x ≤ 1000)) ∧
    (let s : State := late 1000000 (up.wr PWR_STAT.alert 1); let temps := List.replicate 32 (-400); s.regsOk = true ∧
     s.rd PWR_STAT.alert < 2 ∧ temps.length = 32 ∧ Past s s.pwr.sensAt 1000000 ∧ (∀ x ∈ temps, -400 ≤ x ∧ x ≤ 1000)) ∧
    (let s : State := late 1000000 up; let k := 14; let mv := 65535; s.regsOk = true ∧ k < 15 ∧ mv < 65536 ∧
     Past s (Tbl.get 0 s.pwr.railAt k) 1000000) ∧
    (let s : State := late 1000000 up; let k := 14; let mv := 0; s.regsOk = true ∧ k < 15 ∧ mv < 65536 ∧
     Past s (Tbl.get 0 s.pwr.railAt k) 1000000) ∧
    (let s : State := late 1000000 up; let k := 2; let mv := 720; s.regsOk = true ∧ k < 15 ∧ mv < 65536 ∧
     Past s (Tbl.get 0 s.pwr.railAt k) 1000000) := by
  unfold Open Past Reached
  try dsimp only
  and_intros <;> decide +kernel

/-! ### The device as a whole -/

theorem witness_StepTakesFront : State.reset.pending = [] := rfl
theorem witness_StepTakesFront_completes : (∀ recovery quad sris, Instr.sysrstRelease true true true false = .sysrstRelease recovery quad sris false →
    State.reset.pwr.sysrst = false) := fun _ _ _ _ => rfl
theorem witness_SoundStatesKept_idle : up.ok = true ∧ step up = .next up.tick := ⟨by decide +kernel, rfl⟩
theorem witness_SoundStatesKept_command : let s := { up with pending := [.resetArm] }
    s.ok = true ∧ step s = .next up.armReset ∧ s.pending ≠ [] := ⟨by decide +kernel, rfl, by decide⟩

end Sys2Proof.Tests
end

section
/-! SUPPORT. What a BAR0 write of a register that only holds values leaves, field by field (R12). -/
namespace Sys2Proof.Machine
open Sys2Proof.Claims

/-! ### Passes over the fields of a register -/

/-- `g` leaves the state as it is or writes the field that it is given, and the field then reads `val` of what it read before. -/
def WritesOwnField (g : State → FldAcc → State) (val : FldAcc → Nat → Nat) : Prop :=
  ∀ s f, (g s f = s ∧ val f (s.rd f.fld) = s.rd f.fld) ∨ ∃ x, g s f = s.wr f.fld x ∧ val f (s.rd f.fld) = x % 2 ^ f.fld.width

section Pass
variable {g : State → FldAcc → State} {val : FldAcc → Nat → Nat} (hg : WritesOwnField g val)
include hg

theorem WritesOwnField.regsOk {s : State} (h : s.regsOk = true) (f : FldAcc) : (g s f).regsOk = true := by
  rcases hg s f with ⟨he, _⟩ | ⟨x, he, _⟩
  · rwa [he]
  · rw [he]; exact s.wr_regsOk h f.fld x

theorem WritesOwnField.rd_self {s : State} (h : s.regsOk = true) (f : FldAcc) : (g s f).rd f.fld = val f (s.rd f.fld) := by
  rcases hg s f with ⟨he, hv⟩ | ⟨x, he, hv⟩
  · rw [he, hv]
  · rw [he, hv, State.rd_wr_self h]

theorem WritesOwnField.rd_ne (s : State) {f : FldAcc} {k : Fld} (hk : k.key ≠ f.fld.key) : (g s f).rd k = s.rd k := by
  rcases hg s f with ⟨he, _⟩ | ⟨x, he, _⟩
  · rw [he]
  · rw [he, State.rd_wr_ne s x hk]

theorem WritesOwnField.only_regs (s : State) (f : FldAcc) : ∃ r, g s f = { s with regs := r } := by
  rcases hg s f with ⟨he, _⟩ | ⟨x, he, _⟩
  · exact ⟨s.regs, he⟩
  · exact ⟨_, he⟩

theorem WritesOwnField.foldl_regsOk : ∀ (fs : List FldAcc) {s : State}, s.regsOk = true → (fs.foldl g s).regsOk = true
  | [], _, h => h
  | f :: fs, _, h => foldl_regsOk fs (hg.regsOk h f)

theorem WritesOwnField.foldl_rd_ne {k : Fld} : ∀ (fs : List FldAcc) (s : State), (∀ f ∈ fs, k.key ≠ f.fld.key) →
    (fs.foldl g s).rd k = s.rd k
  | [], _, _ => rfl
  | f :: fs, s, hk => by
    rw [List.forall_mem_cons] at hk
    rw [List.foldl_cons, foldl_rd_ne fs (g s f) hk.2, hg.rd_ne s hk.1]

/-- With distinct fields, each field is written by its own step alone. -/
theorem WritesOwnField.foldl_rd_mem {f : FldAcc} {fs : List FldAcc} {s : State} (h : s.regsOk = true)
    (hn : (fs.map (fun f => f.fld.key)).Nodup) (hf : f ∈ fs) : (fs.foldl g s).rd f.fld = val f (s.rd f.fld) := by
  induction fs generalizing s with
  | nil => exact absurd hf List.not_mem_nil
  | cons e fs ih =>
    rw [List.map_cons, List.nodup_cons] at hn
    rw [List.foldl_cons]
    rcases List.mem_cons.mp hf with rfl | hf
    · have hk : ∀ e ∈ fs, f.fld.key ≠ e.fld.key := fun e he hx => hn.1 (hx ▸ List.mem_map_of_mem he)
      rw [hg.foldl_rd_ne fs _ hk, hg.rd_self h]
    · have hk : f.fld.key ≠ e.fld.key := fun hx => hn.1 (hx ▸ List.mem_map_of_mem hf)
      rw [ih (hg.regsOk h e) hn.2 hf, hg.rd_ne s hk]

theorem WritesOwnField.foldl_only_regs : ∀ (fs : List FldAcc) (s : State), ∃ r, fs.foldl g s = { s with regs := r }
  | [], s => ⟨s.regs, rfl⟩
  | f :: fs, s => by
    obtain ⟨r, hr⟩ := hg.only_regs s f
    obtain ⟨r', hr'⟩ := foldl_only_regs fs (g s f)
    exact ⟨r', by rw [List.foldl_cons, hr', hr]⟩

end Pass

/-! ### The two passes of a BAR0 write: W1C fields, then RW and RWS fields -/

/-- What a field holds once the bits of `x` written as 1 have cleared its bits, where it is W1C. -/
def clearedVal (x : Nat) (f : FldAcc) (old : Nat) : Nat :=
  if f.acc = .w1c then Nat.land old (Nat.xor (2 ^ f.fld.width - 1) (bitsAt x f.fld.lo f.fld.width)) % 2 ^ f.fld.width else old

/-- What a field holds once it has taken its bits of `w`, where it is RW or RWS, under the mask, and accepts them. -/
def storedVal (mask w : Nat) (f : FldAcc) (old : Nat) : Nat :=
  if (f.acc = .rw ∨ f.acc = .rws) ∧ (f.touched mask && f.accepts (bitsAt w f.fld.lo f.fld.width)) = true
    then bitsAt w f.fld.lo f.fld.width % 2 ^ f.fld.width else old

theorem State.clearOnes_foldl (s : State) (p : Path) (x : Nat) (fs : List FldAcc) :
    s.clearOnes p x fs = fs.foldl (fun s f => s.clearOnes p x [f]) s := rfl

theorem State.storeFields_foldl (s : State) (p : Path) (mask w : Nat) (fs : List FldAcc) :
    s.storeFields p mask w fs = fs.foldl (fun s f => s.storeFields p mask w [f]) s := rfl

theorem clearOnes_writesOwnField (x : Nat) : WritesOwnField (fun s f => s.clearOnes .bar0 x [f]) (clearedVal x) := by
  intro s ⟨fld, acc, ok⟩
  cases acc with
  | w1c => exact .inr ⟨_, rfl, by simp [clearedVal, Fld.on]⟩
  | rw | ro | wo | w1s | rc | rws => exact .inl ⟨rfl, by simp [clearedVal]⟩

theorem storeFields_writesOwnField (mask w : Nat) : WritesOwnField (fun s f => s.storeFields .bar0 mask w [f]) (storedVal mask w) := by
  intro s ⟨fld, acc, ok⟩
  cases acc with
  | rw | rws =>
    cases ht : (FldAcc.touched ⟨fld, _, ok⟩ mask && FldAcc.accepts ⟨fld, _, ok⟩ (bitsAt w fld.lo fld.width)) with
    | true => exact .inr ⟨_, if_pos ht, by simp only [storedVal, ht]; simp⟩
    | false => exact .inl ⟨if_neg (by simp [ht]), by simp only [storedVal, ht]; simp⟩
  | ro | wo | w1c | w1s | rc => exact .inl ⟨rfl, by simp [storedVal]⟩

/-- A field inside the word is under the full mask. -/
theorem FldAcc.touched_full {f : FldAcc} (hw : 0 < f.fld.width) (hl : f.fld.lo + f.fld.width ≤ 32) : f.touched (2 ^ 32 - 1) = true := by
  have hb : (bitsAt (2 ^ 32 - 1) f.fld.lo f.fld.width).testBit 0 = true := by
    have hlo : f.fld.lo < 32 := by omega
    unfold bitsAt
    rw [Nat.testBit_mod_two_pow, Nat.testBit_div_two_pow, Nat.testBit_two_pow_sub_one]
    simp [hw, hlo]
  have hx : bitsAt (2 ^ 32 - 1) f.fld.lo f.fld.width ≠ 0 := fun h0 => by
    rw [h0, Nat.zero_testBit] at hb
    exact Bool.false_ne_true hb
  simpa [FldAcc.touched] using hx

/-- The two passes together leave what the field's access code gives. -/
theorem storedVal_clearedVal {f : FldAcc} {old v : Nat} (hw : 0 < f.fld.width) (hl : f.fld.lo + f.fld.width ≤ 32)
    (ho : old < 2 ^ f.fld.width) :
    storedVal (2 ^ 32 - 1) v f (clearedVal v f old) = fieldAfter old v f := by
  have ht := FldAcc.touched_full hw hl
  have hb : bitsAt v f.fld.lo f.fld.width % 2 ^ f.fld.width = bitsAt v f.fld.lo f.fld.width := Nat.mod_mod _ _
  have hc : Nat.land old (Nat.xor (2 ^ f.fld.width - 1) (bitsAt v f.fld.lo f.fld.width)) < 2 ^ f.fld.width :=
    lt_of_le_of_lt Nat.and_le_left ho
  obtain ⟨fld, acc, ok⟩ := f
  cases acc with
  | rw | rws => simp only [storedVal, clearedVal, fieldAfter, ht, hb]; simp
  | w1c => simp only [storedVal, clearedVal, fieldAfter, Nat.mod_eq_of_lt hc]; simp
  | ro | wo | w1s | rc => simp [storedVal, clearedVal, fieldAfter]

/-! ### The word that a BAR0 write carries -/

theorem mergeBits_lt (old mask v : Nat) : mergeBits old mask v < 2 ^ 32 := by
  have hm : mask % 2 ^ 32 < 2 ^ 32 := Nat.mod_lt _ (by decide)
  refine Nat.or_lt_two_pow ?_ (Nat.and_lt_two_pow _ hm)
  exact Nat.and_lt_two_pow _ (Nat.xor_lt_two_pow (by decide) hm)

/-- A word over which the descriptors of the cycle have written is a word. -/
theorem State.underCmd_lt (s : State) (a : Nat) {v : Nat} (hv : v < 2 ^ 32) : s.underCmd a v < 2 ^ 32 := by
  unfold State.underCmd
  split
  · exact hv
  · exact List.foldlRecOn (motive := fun u => u < 2 ^ 32) _ _ hv fun _ _ _ _ => mergeBits_lt _ _ _

/-- What one descriptor has written in the cycle stands over the host's word (R656). -/
theorem State.underCmd_one {s : State} {a m w : Nat} (hi : indirectAddr a = false) (hc : s.cmdWrote = (s.clk + 1, [(a, m, w)])) (v : Nat) :
    s.underCmd a v = mergeBits v (Nat.land m (storedBits a)) w := by
  simp [State.underCmd, hi, hc]

/-! ### The write as a whole -/

/-- A full write of a register that only holds values is the two passes over its fields. -/
theorem State.regWrite_plain {s : State} {a v : Nat} {fs : List FldAcc} (hv : v < 2 ^ 32) (hs : s.bit GEN_SEAL.sealed = false)
    (hp : Plain s a (s.underCmd a v) fs) :
    s.regWrite .bar0 a (2 ^ 32 - 1) v =
      (s.clearOnes .bar0 (s.underCmd a v) fs).storeFields .bar0 (2 ^ 32 - 1) (s.underCmd a v) fs := by
  obtain ⟨_, hm, _, hr, hk, haf, _, _⟩ := hp
  have hu := Nat.mod_eq_of_lt (s.underCmd_lt a hv)
  have hx : Nat.land (s.underCmd a v) ((2 ^ 32 - 1) % 2 ^ 32) = s.underCmd a v := bitwise_full 32 _ (s.underCmd_lt a hv)
  unfold State.regWrite State.writeWord
  simp only [hm, hs, hr, mergeBits_full, hu, hx, hk, haf, Bool.false_eq_true, false_and, and_false, if_false]

theorem isReserved_of_word {a : Nat} {fs : List FldAcc} (ha : accessOk a 4 = true) (hr : regAt a = .word fs) : isReserved a = false := by
  have h4 : a % 4 = 0 := by simp [accessOk] at ha; exact ha.2
  simp [isReserved, hr, h4]

theorem exec_bar0RegisterWrite (a size v : Nat) (s : State) : exec (.bar0RegisterWrite a size v) s = .next (s.bar0Write a size v) := rfl

theorem State.bar0Write_plain {s : State} {a v : Nat} {fs : List FldAcc} (hr : Reached s) (hv : v < 2 ^ 32)
    (hp : Plain s a (s.underCmd a v) fs) :
    s.bar0Write a 4 v = (s.clearOnes .bar0 (s.underCmd a v) fs).storeFields .bar0 (2 ^ 32 - 1) (s.underCmd a v) fs := by
  obtain ⟨hrec, hready, hseal⟩ := hr
  have ⟨hok, _, hfd, hreg, _⟩ := hp
  rw [State.bar0Write_open v hrec hready hseal hok (isReserved_of_word hok hreg) hfd, Nat.mod_eq_of_lt hv,
    State.regWrite_plain hv hseal hp]

theorem plain_write_rd_mem {s : State} {v : Nat} {fs : List FldAcc} {f : FldAcc} (hs : s.regsOk = true)
    (hn : (fs.map (fun f => f.fld.key)).Nodup) (hf : f ∈ fs) (hw : 0 < f.fld.width) (hl : f.fld.lo + f.fld.width ≤ 32)
    (ho : s.rd f.fld < 2 ^ f.fld.width) :
    ((s.clearOnes .bar0 v fs).storeFields .bar0 (2 ^ 32 - 1) v fs).rd f.fld = fieldAfter (s.rd f.fld) v f := by
  have hc := clearOnes_writesOwnField v
  rw [State.storeFields_foldl, State.clearOnes_foldl, (storeFields_writesOwnField _ v).foldl_rd_mem (hc.foldl_regsOk fs hs) hn hf,
    hc.foldl_rd_mem hs hn hf, storedVal_clearedVal hw hl ho]

theorem plain_write_rd_ne (s : State) (v : Nat) {fs : List FldAcc} {g : Fld} (hg : ∀ f ∈ fs, g.key ≠ f.fld.key) :
    ((s.clearOnes .bar0 v fs).storeFields .bar0 (2 ^ 32 - 1) v fs).rd g = s.rd g := by
  rw [State.storeFields_foldl, State.clearOnes_foldl, (storeFields_writesOwnField _ v).foldl_rd_ne fs _ hg,
    (clearOnes_writesOwnField v).foldl_rd_ne fs s hg]

theorem plain_write_only_regs (s : State) (v : Nat) (fs : List FldAcc) :
    ∃ r, (s.clearOnes .bar0 v fs).storeFields .bar0 (2 ^ 32 - 1) v fs = { s with regs := r } := by
  rw [State.storeFields_foldl, State.clearOnes_foldl]
  obtain ⟨r, hr⟩ := (clearOnes_writesOwnField v).foldl_only_regs fs s
  obtain ⟨r', hr'⟩ := (storeFields_writesOwnField (2 ^ 32 - 1) v).foldl_only_regs fs (fs.foldl (fun s f => s.clearOnes .bar0 v [f]) s)
  exact ⟨r', by rw [hr', hr]⟩

end Sys2Proof.Machine

namespace Sys2Proof
open Machine Claims

/-- Settles O9: the write is one pass over the W1C fields and one over the RW and RWS fields, and each step of a pass writes its own
field alone. -/
theorem registerWriteByAccessCode : Obligations.RegisterWriteByAccessCode := by
  unfold Obligations.RegisterWriteByAccessCode
  refine ⟨fun s a v fs hs hr hv hp => ?_, fun s a v h => State.underCmd_none h v, fun s a v m w hi hc => State.underCmd_one hi hc v⟩
  have ⟨_, _, _, _, _, _, hn, hfs⟩ := hp
  refine ⟨_, by rw [exec_bar0RegisterWrite, State.bar0Write_plain hr hv hp], fun f hf ho => ?_,
    fun g hg => plain_write_rd_ne s _ hg, ?_⟩
  · obtain ⟨hw, hl, _⟩ := hfs f hf
    exact plain_write_rd_mem hs hn hf hw hl ho
  · obtain ⟨r, he⟩ := plain_write_only_regs s (s.underCmd a v) fs
    rw [he]

end Sys2Proof
end

section
/-! SUPPORT. What a read of a register over BAR0 or the BMC interface returns and loads (R10, R351, R648 to R651). -/
namespace Sys2Proof.Machine
open Sys2Proof.Claims

/-! ### A read that has reached its register -/

theorem State.msixAt_none (s : State) {a : Nat} (hm : isMsix a = false) : s.msixAt a = none := by
  have : ¬(0x18000 ≤ a ∧ a < 0x1A040) := by simpa [isMsix] using hm
  unfold State.msixAt
  rw [if_neg (by omega), if_neg (by omega)]

theorem State.regRead_pairLo (s : State) (p : Path) {a : Nat} {f : FldAcc} (hm : isMsix a = false) (hr : regAt a = .pairLo f) :
    s.regRead p a = s.readLow p f.fld := by
  unfold State.regRead
  simp only [s.msixAt_none hm, hr]

theorem State.regRead_pairHi (s : State) (p : Path) {a : Nat} {f : FldAcc} (hm : isMsix a = false) (hr : regAt a = .pairHi f) :
    s.regRead p a = (s.readHigh p f.fld, s) := by
  unfold State.regRead
  simp only [s.msixAt_none hm, hr]

/-- A register outside the sets of three reads as it stands. -/
theorem State.regRead_word (s : State) (p : Path) {a : Nat} {fs : List FldAcc} (hm : isMsix a = false) (hr : regAt a = .word fs)
    (ht : tripleAt a = none) : s.regRead p a = (s.live p a, s.afterRead a) := by
  unfold State.regRead State.live
  simp only [s.msixAt_none hm, hr, ht]

/-- The first register of a set of three loads the latch of the set with the other two (R466, R602, R606). -/
theorem State.regRead_triple (s : State) (p : Path) {a : Nat} {fs : List FldAcc} (hm : isMsix a = false) (hr : regAt a = .word fs)
    (ht : tripleAt a = some (a, 0)) :
    s.regRead p a = (s.live p a, s.setLatch p ((s.latch p).load a (s.live p (a + 4)) (s.live p (a + 8)))) := by
  unfold State.regRead State.readTriple
  simp only [s.msixAt_none hm, hr, ht, if_true]

/-! ### The high word of a pair (R10) -/

theorem State.readHigh_latched {s : State} {p : Path} {f : Fld} {h : Nat} (hl : (s.latch p).pair = some (f.addr, h)) :
    s.readHigh p f = h := by
  simp [State.readHigh, hl]

theorem State.readHigh_live {s : State} {p : Path} {f : Fld} (hl : ∀ h, (s.latch p).pair ≠ some (f.addr, h)) :
    s.readHigh p f = s.livePair f / 2 ^ 32 := by
  unfold State.readHigh
  split
  · next k h he => rw [if_neg]; rintro rfl; exact hl h he
  · rfl

/-! ### The way of a read to its register -/

theorem accessOk_four {a : Nat} (ha : a < 2 ^ 24) (h4 : a % 4 = 0) : accessOk a 4 = true := by
  simp only [accessOk, ha, h4]; rfl

theorem accessOk_eight {a : Nat} (ha : a < 2 ^ 24) (h8 : a % 8 = 0) : accessOk a 8 = true := by
  simp only [accessOk, ha, h8, Bool.and_eq_true, decide_true]; simp

/-- A BAR0 read of a register of the Top Die or the island. -/
theorem State.bar0Read_open {s : State} {a : Nat} (hs : Reached s) (hf : isFdAddr a = false) (part : Nat) :
    s.bar0Read a part = (s.regRead .bar0 a).2.givesPart part (s.regRead .bar0 a).1 := by
  obtain ⟨hrec, hready, _⟩ := hs
  simp [State.bar0Read, hrec, hready, hf, State.viaSideband, State.fdAccess]

theorem State.bar0ReadN_four {s : State} {a : Nat} (ha : accessOk a 4 = true) : s.bar0ReadN a 4 = s.bar0Read a 0 := by
  simp [State.bar0ReadN, ha]

theorem State.bar0ReadN_eight {s : State} {a : Nat} (ha : accessOk a 8 = true) :
    s.bar0ReadN a 8 = (s.bar0Read a 1).bar0Read (a + 4) 2 := by
  simp [State.bar0ReadN, ha]

/-- A 4-byte BAR0 read of a register of the Top Die or the island. -/
theorem State.bar0ReadN_open {s : State} {a : Nat} (hs : Reached s) (ha : accessOk a 4 = true) (hf : isFdAddr a = false) :
    s.bar0ReadN a 4 = State.gives (s.regRead .bar0 a) := by
  rw [State.bar0ReadN_four ha, State.bar0Read_open hs hf]
  rfl

/-- A BMC read of a register of GEN or PWR. -/
theorem State.bmcRead_open (s : State) {a : Nat} (h4 : a % 4 = 0) (ha : a < 0x10000 ∨ (0x600000 ≤ a ∧ a < 0x640000)) :
    s.bmcRead a = State.gives (s.regRead .bmc a) := by
  unfold State.bmcRead
  rw [if_neg (by omega), if_pos ha]

/-- GEN and PWR hold no part of the MSI-X structures. -/
theorem isMsix_bmc {a : Nat} (ha : a < 0x10000 ∨ (0x600000 ≤ a ∧ a < 0x640000)) : isMsix a = false := by
  simp [isMsix]; omega

/-! ### Reads of pairs -/

theorem exec_pairLowWordRead {a : Nat} {f : FldAcc} (hr : regAt a = .pairLo f) (bmc : Bool) (size : Nat) (s : State) :
    exec (.pairLowWordRead bmc a size) s = .next (if bmc then s.bmcRead a else s.bar0ReadN a size) := by
  show execPairLowWordRead bmc a size s = _
  simp only [execPairLowWordRead, hr]

theorem exec_pairHighWordRead {a : Nat} {f : FldAcc} (hr : regAt a = .pairHi f) (bmc : Bool) (s : State) :
    exec (.pairHighWordRead bmc a) s = .next (if bmc then s.bmcRead a else s.bar0ReadN a 4) := by
  show execPairHighWordRead bmc a s = _
  simp only [execPairHighWordRead, hr]

/-- Loading a latch closes no way to the registers. -/
theorem reached_readLeaves {s : State} (hs : Reached s) (l : Latch) (v : Nat) : Reached (readLeaves s false l v) := hs

theorem State.bar0Read_pairLo {s : State} {a : Nat} {f : FldAcc} (hs : Reached s) (hf : isFdAddr a = false) (hm : isMsix a = false)
    (hr : regAt a = .pairLo f) {part : Nat} (hp : part ≠ 2) :
    s.bar0Read a part =
      readLeaves s false { s.bar0L with pair := some (f.fld.addr, s.livePair f.fld / 2 ^ 32) } (s.livePair f.fld % 2 ^ 32) := by
  rw [State.bar0Read_open hs hf, s.regRead_pairLo .bar0 hm hr]
  unfold State.givesPart
  rw [if_neg hp]
  rfl

theorem State.bar0ReadN_pairLo {s : State} {a : Nat} {f : FldAcc} (hs : Reached s) (ha : a < 2 ^ 24) (h4 : a % 4 = 0)
    (hf : isFdAddr a = false) (hm : isMsix a = false) (hr : regAt a = .pairLo f) :
    s.bar0ReadN a 4 =
      readLeaves s false { s.bar0L with pair := some (f.fld.addr, s.livePair f.fld / 2 ^ 32) } (s.livePair f.fld % 2 ^ 32) := by
  rw [State.bar0ReadN_four (accessOk_four ha h4), State.bar0Read_pairLo hs hf hm hr (by decide)]

/-- The two words of an 8-byte read: the second comes from the latch that the first has loaded. -/
theorem State.bar0ReadN_pair {s : State} {a : Nat} {f : FldAcc} (hs : Reached s) (ha : a < 2 ^ 24) (h8 : a % 8 = 0)
    (hf : isFdAddr a = false) (hf' : isFdAddr (a + 4) = false) (hm : isMsix a = false) (hm' : isMsix (a + 4) = false)
    (hr : regAt a = .pairLo f) (hr' : regAt (a + 4) = .pairHi f) :
    s.bar0ReadN a 8 = readLeaves s false { s.bar0L with pair := some (f.fld.addr, s.livePair f.fld / 2 ^ 32) } (s.livePair f.fld) := by
  rw [State.bar0ReadN_eight (accessOk_eight ha h8), State.bar0Read_pairLo hs hf hm hr (by decide),
    State.bar0Read_open (reached_readLeaves hs _ _) hf', State.regRead_pairHi _ .bar0 hm' hr',
    State.readHigh_latched (h := s.livePair f.fld / 2 ^ 32) rfl]
  have hv : s.livePair f.fld % 2 ^ 32 % 2 ^ 32 + s.livePair f.fld / 2 ^ 32 * 2 ^ 32 = s.livePair f.fld := by omega
  show readLeaves s false _ (s.livePair f.fld % 2 ^ 32 % 2 ^ 32 + s.livePair f.fld / 2 ^ 32 * 2 ^ 32) = _
  rw [hv]
  rfl

theorem State.bmcRead_pairLo (s : State) {a : Nat} {f : FldAcc} (h4 : a % 4 = 0) (ha : a < 0x10000 ∨ (0x600000 ≤ a ∧ a < 0x640000))
    (hr : regAt a = .pairLo f) :
    s.bmcRead a = readLeaves s true { s.bmcL with pair := some (f.fld.addr, s.livePair f.fld / 2 ^ 32) } (s.livePair f.fld % 2 ^ 32) := by
  rw [s.bmcRead_open h4 ha, s.regRead_pairLo .bmc (isMsix_bmc ha) hr]
  rfl

theorem State.bar0ReadN_pairHi {s : State} {a : Nat} {f : FldAcc} (hs : Reached s) (ha : a < 2 ^ 24) (h4 : a % 4 = 0)
    (hf : isFdAddr a = false) (hm : isMsix a = false) (hr : regAt a = .pairHi f) :
    s.bar0ReadN a 4 = { s with readData := s.readHigh .bar0 f.fld } := by
  rw [State.bar0ReadN_open hs (accessOk_four ha h4) hf, s.regRead_pairHi .bar0 hm hr]
  rfl

theorem State.bmcRead_pairHi (s : State) {a : Nat} {f : FldAcc} (h4 : a % 4 = 0) (ha : a < 0x10000 ∨ (0x600000 ≤ a ∧ a < 0x640000))
    (hr : regAt a = .pairHi f) : s.bmcRead a = { s with readData := s.readHigh .bmc f.fld } := by
  rw [s.bmcRead_open h4 ha, s.regRead_pairHi .bmc (isMsix_bmc ha) hr]
  rfl

/-! ### A read of a register of the Forwarding Die -/

/-- The room of the control class in a direction is that direction's and the modules'. -/
theorem State.ctlFree_congr {s t : State} {ft : Bool} (hr : t.regs = s.regs) (hd : t.dir ft = s.dir ft) (n : Nat) :
    t.ctlFree ft n = s.ctlFree ft n := by
  unfold State.ctlFree State.controlShare State.activeMods State.modState State.bridgeUp State.rd
  rw [hr, hd]

/-- An access on its way to the FD leaves every register as it stands. -/
theorem State.fdReach_live (s : State) (p : Path) (a : Nat) : s.fdReach.live p a = s.live p a := rfl

/-- A BAR0 read on the Forwarding Die whose answer finds room in the control class. -/
theorem State.bar0Read_fd {s : State} {a v : Nat} {u : State} (hs : FdOpen s) (hf : isFdAddr a = true)
    (hu : s.fdReach.regRead .bar0 a = (v, u))
    (hc : (u.tagDone s.dies.nextTag v).ctlFree true 1 = true) (part : Nat) :
    s.bar0Read a part = ((u.tagDone s.dies.nextTag v).ctlNow true 1).givesPart part v := by
  obtain ⟨⟨⟨hrec, hready, _⟩, _⟩, hb, hun, hfree⟩ := hs
  have hfree' : State.ctlFree { s with dies := { s.dies with nextTag := (s.dies.nextTag + 1) % 256 } } false 1 = true := hfree
  have hu' : State.regRead (State.ctlNow { s with dies := { s.dies with nextTag := (s.dies.nextTag + 1) % 256 } } false 1) .bar0 a =
      (v, u) := hu
  simp [State.bar0Read, hrec, hready, hf, hun, State.viaSideband, hb, State.fdAccess, State.nextTag, hfree', hu', State.fdReply, hc]

/-- A 4-byte BAR0 read on the Forwarding Die that loads a latch: beside the latch it changes the bridge alone. -/
theorem State.bar0ReadN_fd {s : State} {a v : Nat} {l : Latch} (hs : FdOpen s) (hc : s.ctlFree true 1 = true) (ha : accessOk a 4 = true)
    (hf : isFdAddr a = true) (hu : s.fdReach.regRead .bar0 a = (v, s.fdReach.setLatch .bar0 l)) :
    ∃ d, s.bar0ReadN a 4 = { s with dies := d, readData := v, bar0L := l } := by
  have hfree : ((s.fdReach.setLatch .bar0 l).tagDone s.dies.nextTag v).ctlFree true 1 = true := (State.ctlFree_congr rfl rfl 1).trans hc
  obtain ⟨d, hd⟩ := State.ctlNow_only true 1 ((s.fdReach.setLatch .bar0 l).tagDone s.dies.nextTag v)
  refine ⟨d, ?_⟩
  rw [State.bar0ReadN_four ha, State.bar0Read_fd hs hf hu hfree, hd]
  rfl

/-! ### Reads of single registers with an effect -/

/-- A BAR0 read of a register with an RC field reloads it as it returns it. -/
theorem exec_rcFieldRead {s : State} {a : Nat} {fs : List FldAcc} (hs : Reached s) (hr : regAt a = .word fs) (hc : hasRc a = true)
    (ha : accessOk a 4 = true) (hf : isFdAddr a = false) (hm : isMsix a = false) (ht : tripleAt a = none) :
    exec (.rcFieldRead a) s = .next { s.afterRead a with readData := s.live .bar0 a } := by
  show Host.Outcome.next (if hasRc a then s.bar0ReadN a 4 else s) = _
  rw [if_pos hc, State.bar0ReadN_open hs ha hf, s.regRead_word .bar0 hm hr ht]
  rfl

/-- A BAR0 read of the first register of a set of three on the Top Die or the island. -/
theorem State.bar0ReadN_triple {s : State} {a : Nat} {fs : List FldAcc} (hs : Reached s) (hr : regAt a = .word fs)
    (ha : accessOk a 4 = true) (hf : isFdAddr a = false) (hm : isMsix a = false) (ht : tripleAt a = some (a, 0)) :
    s.bar0ReadN a 4 =
      { s with readData := s.live .bar0 a, bar0L := s.bar0L.load a (s.live .bar0 (a + 4)) (s.live .bar0 (a + 8)) } := by
  rw [State.bar0ReadN_open hs ha hf, s.regRead_triple .bar0 hm hr ht]
  rfl

end Sys2Proof.Machine

namespace Sys2Proof
open Machine Claims

/-- R10 and R650: the reads of the two words of a pair on both paths. -/
theorem pairLatches : Claims.PairLatches := by
  refine ⟨fun s a f hs ha h4 hf hm hr => ?_, fun s a f hs ha h8 hf hf' hm hm' hr hr' => ?_, fun s a f h4 ha hr => ?_,
    fun s a f hs ha h4 hf hm hr => ?_, fun s a f h4 ha hr => ?_⟩
  · rw [exec_pairLowWordRead hr]
    exact congrArg _ (State.bar0ReadN_pairLo hs ha h4 hf hm hr)
  · rw [exec_pairLowWordRead hr]
    exact congrArg _ (State.bar0ReadN_pair hs ha h8 hf hf' hm hm' hr hr')
  · rw [exec_pairLowWordRead hr]
    exact congrArg _ (s.bmcRead_pairLo h4 ha hr)
  · have he : exec (.pairHighWordRead false a) s = .next { s with readData := s.readHigh .bar0 f.fld } :=
      (exec_pairHighWordRead hr false s).trans (congrArg _ (State.bar0ReadN_pairHi hs ha h4 hf hm hr))
    exact ⟨fun h hl => by rw [he, State.readHigh_latched (p := .bar0) hl], fun hl => by rw [he, State.readHigh_live (p := .bar0) hl]⟩
  · have he : exec (.pairHighWordRead true a) s = .next { s with readData := s.readHigh .bmc f.fld } :=
      (exec_pairHighWordRead hr true s).trans (congrArg _ (s.bmcRead_pairHi h4 ha hr))
    exact ⟨fun h hl => by rw [he, State.readHigh_latched (p := .bmc) hl], fun hl => by rw [he, State.readHigh_live (p := .bmc) hl]⟩

end Sys2Proof
end

section
/-! SUPPORT. The reads of LPT_TSLAST0 and PWR_STAT (R466, R630, R651). -/
namespace Sys2Proof.Machine
open Sys2Proof.Claims

/-! ### LPT_TSLAST0 of a port -/

/-- The byte address of LPT_TSLAST0 of a port (*BAR0 map*). -/
def tslast0Addr (port : Nat) : Nat := 0x400020 + 0x800 * port

/-- It lies in the block of LPT. -/
theorem tslast0Addr_lpt {port : Nat} (h : port < 128) : 0x400000 ≤ tslast0Addr port ∧ tslast0Addr port < 0x440000 := by
  unfold tslast0Addr; omega

theorem tslast0Addr_offset (port : Nat) : tslast0Addr port % 0x800 = 0x20 := by
  unfold tslast0Addr; omega

theorem tslast0Addr_port (port : Nat) : (tslast0Addr port - 0x400000) / 0x800 = port := by
  unfold tslast0Addr; omega

theorem accessOk_tslast0 {port : Nat} (h : port < 128) : accessOk (tslast0Addr port) 4 = true := by
  obtain ⟨_, hhi⟩ := tslast0Addr_lpt h
  have ho := tslast0Addr_offset port
  exact accessOk_four (by omega) (by omega)

theorem isFdAddr_tslast0 {port : Nat} (h : port < 128) : isFdAddr (tslast0Addr port) = true := by
  obtain ⟨hlo, hhi⟩ := tslast0Addr_lpt h
  have hhi' : tslast0Addr port < 0x4C0000 := by omega
  simp [isFdAddr, hlo, hhi']

theorem isMsix_tslast0 {port : Nat} (h : port < 128) : isMsix (tslast0Addr port) = false := by
  obtain ⟨hlo, _⟩ := tslast0Addr_lpt h
  have hn : ¬tslast0Addr port < 0x1A040 := by omega
  simp [isMsix, hn]

theorem regAt_tslast0 {port : Nat} (h : port < 128) : regAt (tslast0Addr port) = .word [⟨LPT_TSLAST0.ns port, .ro, []⟩] := by
  have hl := tslast0Addr_lpt h
  simp (disch := omega) only [regAt, if_neg, if_pos, tslast0Addr_port, tslast0Addr_offset]
  rfl

theorem tripleAt_tslast0 {port : Nat} (h : port < 128) : tripleAt (tslast0Addr port) = some (tslast0Addr port, 0) := by
  have hb : tslast0Addr port - tslast0Addr port % 0x800 + 0x20 = tslast0Addr port := by
    rw [tslast0Addr_offset]; unfold tslast0Addr; omega
  simp [tripleAt, tslast0Addr_lpt h, hb]

/-- The set of a port is no set of TIM. -/
theorem Latch.load_tslast0 (l : Latch) (port x y : Nat) :
    l.load (tslast0Addr port) x y = { l with tslast := some (tslast0Addr port, x, y) } := by
  unfold Latch.load
  rw [if_neg (by unfold tslast0Addr; omega), if_neg (by unfold tslast0Addr; omega)]

/-- A BAR0 read of LPT_TSLAST0 returns it and loads the set's latch; beside that it changes the bridge alone. -/
theorem State.bar0ReadN_tslast0 {s : State} {port : Nat} (hs : FdOpen s) (hc : s.ctlFree true 1 = true) (h : port < 128) :
    ∃ d, s.bar0ReadN (tslast0Addr port) 4 = { s with
      dies := d
      readData := s.live .bar0 (tslast0Addr port)
      bar0L := s.bar0L.load (tslast0Addr port) (s.live .bar0 (tslast0Addr port + 4)) (s.live .bar0 (tslast0Addr port + 8)) } := by
  have hu := s.fdReach.regRead_triple .bar0 (isMsix_tslast0 h) (regAt_tslast0 h) (tripleAt_tslast0 h)
  simp only [State.fdReach_live] at hu
  exact State.bar0ReadN_fd hs hc (accessOk_tslast0 h) (isFdAddr_tslast0 h) hu

theorem exec_tslast0Read {port : Nat} (h : port < 128) (s : State) :
    exec (.tslast0Read port) s = .next (s.bar0ReadN (tslast0Addr port) 4) :=
  congrArg Host.Outcome.next (if_pos h)

/-- PWR_STAT over the BMC interface. -/
theorem State.bmcRead_pwrStat (s : State) : s.bmcRead 0x600004 = { s with readData := s.live .bmc 0x600004 } := by
  rw [s.bmcRead_open rfl (.inr (by decide)), s.regRead_word .bmc (isMsix_bmc (.inr (by decide))) rfl rfl]
  rfl

end Sys2Proof.Machine

namespace Sys2Proof
open Machine Claims

/-- R12, R466, R602, R606, R630, R651: the reads of single registers that change something. -/
theorem readsWithEffect : Claims.ReadsWithEffect := by
  refine ⟨fun s hs => ?_, fun s port hs hc h => ?_, fun s hs => ?_, fun s hs => ?_, fun s => ?_⟩
  · and_intros <;> exact exec_rcFieldRead hs rfl rfl rfl rfl rfl rfl
  · obtain ⟨d, hd⟩ := State.bar0ReadN_tslast0 hs hc h
    exact ⟨_, exec_tslast0Read h s, by rw [hd]; rfl, by rw [hd]; exact Latch.load_tslast0 .., by rw [hd]⟩
  · exact congrArg Host.Outcome.next (State.bar0ReadN_triple hs rfl rfl rfl rfl rfl)
  · exact congrArg Host.Outcome.next (State.bar0ReadN_triple hs rfl rfl rfl rfl rfl)
  · show Host.Outcome.next (_ : State) = _
    rw [s.bmcRead_pwrStat]

/-- Settles O11: each read reaches its register once, which fixes its value and the one latch, minimum or signal that it changes. -/
theorem readsOnEachPath : Obligations.ReadsOnEachPath := ⟨pairLatches, readsWithEffect⟩

end Sys2Proof
end

section
/-! SUPPORT. Flits that arrive over the bridge (R24, R26, R30): the direction after a flit is heard, and what it delivers. -/
namespace Sys2Proof.Machine
open Sys2Proof.Claims

/-! ### One direction replaced -/

@[simp] theorem State.dir_setDir (s : State) (ft : Bool) (d : BridgeDir) : (s.setDir ft d).dir ft = d := by cases ft <;> rfl
@[simp] theorem State.setDir_setDir (s : State) (ft : Bool) (d e : BridgeDir) : (s.setDir ft d).setDir ft e = s.setDir ft e := by
  cases ft <;> rfl
@[simp] theorem State.setDir_clk (s : State) (ft : Bool) (d : BridgeDir) : (s.setDir ft d).clk = s.clk := by cases ft <;> rfl
@[simp] theorem State.setDir_regs (s : State) (ft : Bool) (d : BridgeDir) : (s.setDir ft d).regs = s.regs := by cases ft <;> rfl
@[simp] theorem State.setDir_modState (s : State) (ft : Bool) (d : BridgeDir) (m : Nat) : (s.setDir ft d).modState m = s.modState m :=
  State.rd_congr (s.setDir_regs ft d) _
@[simp] theorem State.setDir_bridgeUp (s : State) (ft : Bool) (d : BridgeDir) : (s.setDir ft d).bridgeUp = s.bridgeUp :=
  congrArg (· == 0) (State.rd_congr (s.setDir_regs ft d) _)

/-! ### Sequence numbers -/

theorem seqAhead_self (a : Nat) : seqAhead a a = 0 := by simp [seqAhead]

theorem seqAhead_succ (a : Nat) : seqAhead (a + 1) a = 1 := by unfold seqAhead; omega

/-! ### The reorder store -/

/-- While no flit of the store is next in sequence nothing is delivered. -/
theorem deliver_none {d : BridgeDir} (h : d.reorder.find? (fun g => g.seq == d.nextRx) = none) (n : Nat) : deliver n d = (d, []) := by
  cases n with
  | zero => rfl
  | succ n => simp only [deliver, h]

/-- The flit that is next in sequence is taken, then those that it has let through. -/
theorem deliver_next {d : BridgeDir} {f : Flit} (h : d.reorder.find? (fun g => g.seq == d.nextRx) = some f) (n : Nat) :
    deliver (n + 1) d = ((deliver n (d.took f)).1, f.msg.toList ++ (deliver n (d.took f)).2) := by
  simp only [deliver, h]

/-- A flit that joins the store. -/
def BridgeDir.store (d : BridgeDir) (f : Flit) : BridgeDir := { d with reorder := d.reorder ++ [f] }

@[simp] theorem BridgeDir.store_nextRx (d : BridgeDir) (f : Flit) : (d.store f).nextRx = d.nextRx := rfl
@[simp] theorem BridgeDir.store_reorder (d : BridgeDir) (f : Flit) : (d.store f).reorder = d.reorder ++ [f] := rfl
@[simp] theorem BridgeDir.store_replay (d : BridgeDir) (f : Flit) : (d.store f).replay = d.replay := rfl
@[simp] theorem BridgeDir.store_arrived (d : BridgeDir) (f : Flit) : (d.store f).arrived = d.arrived := rfl

/-- An empty store hands on at once the flit that is next in sequence. -/
theorem deliver_single {d : BridgeDir} {f : Flit} (hr : d.reorder = []) (hf : f.seq = d.nextRx) :
    deliver (d.reorder.length + 1) (d.store f) =
      ({ d with nextRx := (f.seq + 1) % 2 ^ 32, ctlSeen := if f.control then d.ctlSeen + 1 else d.ctlSeen,
                arrived := d.arrived ++ f.pkt.toList }, f.msg.toList) := by
  have hn : (d.store f).reorder.find? (fun g => g.seq == (d.store f).nextRx) = some f := by simp [BridgeDir.store, hr, hf]
  rw [deliver_next hn]
  simp [deliver, BridgeDir.store, BridgeDir.took, hr, hf]

/-- The flit that a stored one has waited for: both are delivered, in order. -/
theorem deliver_pair {d : BridgeDir} {f g : Flit} (hr : d.reorder = [g]) (hf : d.nextRx = f.seq) (hlt : f.seq < 2 ^ 32 - 1)
    (hg : g.seq = f.seq + 1) :
    deliver (d.reorder.length + 1) (d.store f) = (((d.store f).took f).took g, f.msg.toList ++ g.msg.toList) := by
  have hne : (g.seq == f.seq) = false := by simp [hg]
  have h1 : (d.store f).reorder.find? (fun x => x.seq == (d.store f).nextRx) = some f := by simp [BridgeDir.store, hr, hf, hne]
  have hnext : ((d.store f).took f).nextRx = g.seq := by simp only [BridgeDir.store, BridgeDir.took, hf, hg]; omega
  have hr' : ((d.store f).took f).reorder = [g] := by simp [BridgeDir.store, BridgeDir.took, hr, hg]
  have h2 : ((d.store f).took f).reorder.find? (fun x => x.seq == ((d.store f).took f).nextRx) = some g := by simp [hr', hnext]
  rw [hr]
  show deliver 2 (d.store f) = _
  rw [deliver_next h1, deliver_next h2]
  simp [deliver]

/-! ### A flit that is heard -/

/-- A flit under way arrives on an ACTIVE module of a bridge that is up, in whose CRC window no lane is found bad. -/
def FlitHeard (s : State) (ft : Bool) (seq : Nat) (f : Flit) : Prop :=
  (s.dir ft).replay.find? (fun g => g.seq == seq) = some f ∧ s.modState f.mod = 2 ∧ s.bridgeUp = true ∧ Quiet s ft f.mod

/-- Being heard changes neither the sequence, what is stored, nor what has arrived. -/
@[simp] theorem heard_nextRx (s : State) (ft : Bool) (m : Nat) : (heard s ft m).nextRx = (s.dir ft).nextRx := by
  simp only [heard]; split <;> rfl
@[simp] theorem heard_replay (s : State) (ft : Bool) (m : Nat) : (heard s ft m).replay = (s.dir ft).replay := by
  simp only [heard]; split <;> rfl
@[simp] theorem heard_reorder (s : State) (ft : Bool) (m : Nat) : (heard s ft m).reorder = (s.dir ft).reorder := by
  simp only [heard]; split <;> rfl
@[simp] theorem heard_arrived (s : State) (ft : Bool) (m : Nat) : (heard s ft m).arrived = (s.dir ft).arrived := by
  simp only [heard]; split <;> rfl

/-- Being heard on a module leaves a window under way as it is, that of the module too. -/
theorem heard_window {s : State} {ft : Bool} {m k : Nat} (hr : Tbl.risingFrom 0 (s.dir ft).flitWin = true)
    (hm : (Tbl.get (0, 0) (s.dir ft).flitWin m).1 = s.clk / 1000000)
    (hk : (Tbl.get (0, 0) (s.dir ft).flitWin k).1 = s.clk / 1000000) :
    (Tbl.get (0, 0) (heard s ft m).flitWin k).1 = s.clk / 1000000 := by
  simp only [heard, hm, if_true]
  by_cases h : k = m
  · rw [h, Tbl.get_set_self (0, 0) hr]
  · rw [Tbl.get_set_ne (0, 0) _ _ h, hk]

/-- In a quiet window a flit that is seen is counted, and no lane fails. -/
theorem State.flitSeen_quiet {s : State} {ft : Bool} {m : Nat} (h : Quiet s ft m) :
    (s.setDir ft { s.dir ft with heardAt := s.clk }).flitSeen ft m = s.setDir ft (heard s ft m) := by
  unfold State.flitSeen heard
  simp only [State.dir_setDir, State.setDir_setDir, State.setDir_clk, ms, Nat.one_mul]
  by_cases hw : (Tbl.get (0, 0) (s.dir ft).flitWin m).1 = s.clk / 1000000
  · simp only [hw, if_true]
  · have hb : ({ s.dir ft with heardAt := s.clk } : BridgeDir).crcBad m = [] := h.resolve_left hw
    simp only [hw, if_false, hb, List.foldl_nil]

section Heard
variable {s : State} {ft : Bool} {seq : Nat} {f : Flit} (h : FlitHeard s ft seq f)
include h

theorem FlitHeard.seq_eq : f.seq = seq := by
  obtain ⟨hf, _⟩ := h
  simpa using List.find?_some hf

/-- A flit with a CRC error is counted for its lane. -/
theorem State.flitIn_spoiled {lane : Nat} (hl : lane < 68) : s.flitIn ft seq (some lane) =
    (s.setDir ft { heard s ft f.mod with laneErr := Tbl.upd 0 (heard s ft f.mod).laneErr (68 * f.mod + lane) (· + 1) }, []) := by
  obtain ⟨hf, hm, hb, hq⟩ := h
  simp [State.flitIn, hf, hm, hb, State.flitSeen_quiet hq, hl, State.laneCrc]

/-- A flit behind the expected number, delivered before, changes nothing more. -/
theorem State.flitIn_again (hd : 2 ^ 31 ≤ seqAhead seq (heard s ft f.mod).nextRx) :
    s.flitIn ft seq none = (s.setDir ft (heard s ft f.mod), []) := by
  obtain ⟨hf, hm, hb, hq⟩ := h
  simp only [State.flitIn, hf, hm, hb, State.flitSeen_quiet hq, State.dir_setDir, hd]
  simp

/-- An undamaged flit that is neither behind nor stored joins the reorder store, and the store delivers what it can. -/
theorem State.flitIn_taken (hd : seqAhead seq (heard s ft f.mod).nextRx < 2 ^ 31)
    (hn : (heard s ft f.mod).reorder.any (fun g => g.seq == seq) = false)
    (hr : seqAhead seq (heard s ft f.mod).nextRx = 0 ∨ (heard s ft f.mod).reorder.length < 2048) {e : BridgeDir} {l : List CtlMsg}
    (he : deliver ((heard s ft f.mod).reorder.length + 1) ((heard s ft f.mod).store f) = (e, l)) :
    s.flitIn ft seq none = (s.setDir ft e, l) := by
  obtain ⟨hf, hm, hb, hq⟩ := h
  have hskip : ¬(2 ^ 31 ≤ seqAhead seq (heard s ft f.mod).nextRx ∨
      (heard s ft f.mod).reorder.any (fun g => g.seq == seq) = true ∨
      (seqAhead seq (heard s ft f.mod).nextRx ≠ 0 ∧ 2048 ≤ (heard s ft f.mod).reorder.length)) := by
    rintro (h | h | h)
    · omega
    · exact Bool.false_ne_true (hn.symm.trans h)
    · omega
  simp only [State.flitIn, hf, hm, hb, State.flitSeen_quiet hq, State.dir_setDir, if_neg hskip]
  rw [← BridgeDir.store, he]
  simp

end Heard

theorem exec_flitReceive {s t : State} {ft : Bool} {seq : Nat} {lane : Option Nat} {l : List CtlMsg}
    (h : s.flitIn ft seq lane = (t, l)) : exec (.flitReceive ft seq lane) s = .next (l.foldl State.ctlArrive t) := by
  show execFlitReceive ft seq lane s = _
  simp only [execFlitReceive, h]

end Sys2Proof.Machine

namespace Sys2Proof
open Machine Claims

/-- Settles O19: what a heard flit leaves, by its place in the sequence; the store hands two exchanged flits on in order. -/
theorem flitsInOrderOnce : Obligations.FlitsInOrderOnce := by
  refine ⟨fun s ft seq f hf hm hb hq => ?_, fun s ft f g hrep hlt hg hnext hre hfm hgm hmf hmg hb hrise hwf hwg => ?_⟩
  · have h : FlitHeard s ft seq f := ⟨hf, hm, hb, hq⟩
    refine ⟨fun he _ hre => ?_, fun _ hd hn hl hnone => ?_, fun hd => ?_, fun lane hl => ?_⟩
    · have h0 : seqAhead seq (heard s ft f.mod).nextRx = 0 := by rw [← he, seqAhead_self]
      rw [show (seq + 1) % 2 ^ 32 = (f.seq + 1) % 2 ^ 32 by rw [h.seq_eq]]
      exact exec_flitReceive (State.flitIn_taken h (by omega) (by rw [hre]; rfl) (.inl h0)
        (deliver_single hre (h.seq_eq.trans he)))
    · exact exec_flitReceive (State.flitIn_taken h hd hn (.inr hl) (deliver_none hnone _))
    · exact exec_flitReceive (State.flitIn_again h hd)
    · exact exec_flitReceive (State.flitIn_spoiled h hl)
  · have hne : (f.seq == g.seq) = false := by simp [hg]
    have hgh : FlitHeard s ft g.seq g := ⟨by simp [hrep, hne], hmg, hb, .inl hwg⟩
    have hahead : seqAhead g.seq (heard s ft g.mod).nextRx = 1 := by rw [heard_nextRx, hnext, hg, seqAhead_succ]
    have hwait := exec_flitReceive (State.flitIn_taken hgh (by omega) (by simp [hre]) (.inr (by simp [hre]))
      (deliver_none (by simp [hre, hnext, hg]) _))
    set t := s.setDir ft ((heard s ft g.mod).store g) with ht
    have hfh : FlitHeard t ft f.seq f := by
      refine ⟨by simp [ht, hrep], by simpa [ht], by simpa [ht], .inl ?_⟩
      rw [ht, State.dir_setDir, State.setDir_clk]
      exact heard_window hrise hwg hwf
    have hfirst : seqAhead f.seq (heard t ft f.mod).nextRx = 0 := by simp [ht, hnext, seqAhead_self]
    have hrun := exec_flitReceive (State.flitIn_taken hfh (by omega) (by simp [ht, hre, hg]) (.inl hfirst)
      (deliver_pair (by simp [ht, hre]) (by simp [ht, hnext]) hlt hg))
    refine ⟨t, _, hwait, by simp [ht], hrun, ?_⟩
    simp [hfm, hgm, ht, BridgeDir.took]

end Sys2Proof
end

section
/-! SUPPORT. The modules of the bridge, its loss and its rejoining (R25 to R33, R523 to R526): what each command does once its premise holds. -/
namespace Sys2Proof.Machine
open Sys2Proof.Claims

theorem State.elapsed_of_le {s : State} {t d : Nat} (h : t + d ≤ s.clk) : s.elapsed t d = true := decide_eq_true h

theorem State.not_elapsed {s : State} {t d : Nat} (h : s.clk < t + d) : s.elapsed t d = false := decide_eq_false (Nat.not_le.mpr h)

/-! ### Acknowledgements and lanes -/

theorem exec_flitAck {s : State} {ft : Bool} {seq i : Nat} (hi : (s.dir ft).replay.findIdx? (fun f => f.seq == seq) = some i)
    (hpos : 0 < seqAhead (s.dir ft).nextRx seq) (hlt : seqAhead (s.dir ft).nextRx seq < 2 ^ 31) :
    exec (.flitAck ft seq) s = .next ((s.setDir ft { s.dir ft with replay := (s.dir ft).replay.drop (i + 1) }).run ft) := by
  show execFlitAck ft seq s = _
  have hd : decide (seqAhead (s.dir ft).nextRx seq ≠ 0 ∧ seqAhead (s.dir ft).nextRx seq < 2 ^ 31) = true :=
    decide_eq_true ⟨by omega, hlt⟩
  simp only [execFlitAck, hi, hd, if_true]

theorem exec_controlShareWindow {s : State} (h : s.dies.ft.winAt + 1000 ≤ s.clk) : exec .controlShareWindow s =
    .next ((({ s with dies := { s.dies with
      ft := { s.dies.ft with ctlBits := 0, winAt := s.clk }, tf := { s.dies.tf with ctlBits := 0, winAt := s.clk } } } : State).run true).run
        false) :=
  if_pos (State.elapsed_of_le h)

/-- A failure counted and a lane marked take no spare. -/
theorem State.sparesTaken_laneMarked (s : State) (ft : Bool) (m : Nat) (d : BridgeDir) :
    ((s.inc D2D_LANEFAIL.count).setDir ft d).sparesTaken ft m = s.sparesTaken ft m := by
  have hk : (spares ft m).key ≠ D2D_LANEFAIL.count.key := by
    unfold spares
    split
    · simp only [Fld.key, D2D_LANEFAIL.count, D2D_MODSTAT.spares_ft]; omega
    · simp only [Fld.key, D2D_LANEFAIL.count, D2D_MODSTAT.spares_tf]; omega
  have hr : ((s.inc D2D_LANEFAIL.count).setDir ft d).rd (spares ft m) = s.rd (spares ft m) :=
    (State.rd_congr (State.setDir_regs _ ft d) _).trans (s.rd_wr_ne _ hk)
  unfold State.sparesTaken
  rw [hr]
  cases ft <;> rfl

theorem State.laneFail_inService {s : State} {ft : Bool} {m lane : Nat} (h : s.modState m = 2 ∨ s.modState m = 3) :
    let u := (s.inc D2D_LANEFAIL.count).setDir ft { s.dir ft with
      laneBad := insNat (68 * m + lane) (s.dir ft).laneBad, laneErr := Tbl.erase (s.dir ft).laneErr (68 * m + lane) }
    s.laneFail ft m lane = if s.sparesTaken ft m < 4 then
      (u.setModul m { u.modul m with fixing := (u.modul m).fixing ++ [(if ft then 0 else 1, lane)] }).moduleOut m 3
      else (u.setModul m { u.modul m with fixing := [] }).moduleLost m 1 := by
  intro u
  unfold State.laneFail
  rw [if_neg (by omega)]
  have hs := s.sparesTaken_laneMarked ft m { s.dir ft with
    laneBad := insNat (68 * m + lane) (s.dir ft).laneBad, laneErr := Tbl.erase (s.dir ft).laneErr (68 * m + lane) }
  rw [← hs]
  rfl

theorem exec_bridgeLaneLockLoss {s : State} {ft : Bool} {m lane : Nat} (hm : m < 24) (hl : lane < 68)
    (hb : (s.dir ft).laneBad.contains (68 * m + lane) = false) :
    exec (.bridgeLaneLockLoss ft m lane) s = .next (s.laneFail ft m lane) :=
  if_pos ⟨hm, hl, hb⟩

/-! ### Repair and training of a module -/

theorem exec_moduleRepairDone {s : State} {m : Nat} (hm : m < 24) (hs : s.modState m = 3) :
    exec (.moduleRepairDone m true) s =
      .next ((s.modul m).fixing.foldl (fun t e => t.mapSpare m e)
        ((s.setModul m { s.modul m with fixing := [] }).wr (D2D_MODSTAT.state m) 2)).modulesChanged ∧
    exec (.moduleRepairDone m false) s = .next ((s.setModul m { s.modul m with fixing := [] }).moduleLost m 2) :=
  ⟨if_pos ⟨hm, hs⟩, if_pos ⟨hm, hs⟩⟩

theorem exec_moduleTrainingDone_ok {s : State} {m : Nat} (hm : m < 24) (hs : s.modState m = 1) :
    exec (.moduleTrainingDone m true) s =
      .next ((s.setModul m { s.modul m with attempts := 0 }).wr (D2D_MODSTAT.state m) 2).modulesChanged.trainEnd :=
  if_pos ⟨hm, hs⟩

theorem exec_moduleTrainingDone_failed {s : State} {m : Nat} (hm : m < 24) (hs : s.modState m = 1) :
    exec (.moduleTrainingDone m false) s = .next (if (s.modul m).attempts + 1 < 3
      then s.setModul m { s.modul m with attempts := (s.modul m).attempts + 1 }
      else ((s.setModul m { s.modul m with attempts := 0 }).moduleLost m 2).trainEnd) := by
  refine (if_pos ⟨hm, hs⟩).trans ?_
  exact (apply_ite Host.Outcome.next _ _ _).symm

/-! ### Keepalives, loss and hold -/

theorem exec_bridgeKeepaliveSend {s : State} {ft : Bool} {m : Nat} (hm : m < 24) (hs : s.modState m = 2) (hb : s.bridgeUp = true)
    (ht : Tbl.get 0 (s.dir ft).sentAt m + 1000 ≤ s.clk) : exec (.bridgeKeepaliveSend ft m) s =
      .next ((s.setDir ft { s.dir ft with sentAt := Tbl.set 0 (s.dir ft).sentAt m s.clk, heardAt := s.clk }).flitSeen ft m) :=
  if_pos ⟨hm, hs, hb, State.elapsed_of_le ht⟩

theorem exec_bridgeKeepaliveExpire {s : State} {td : Bool} (hr : s.bit GEN_BOOTSTAT.ready = true) (hb : s.bridgeUp = true)
    (ht : (s.dir td).heardAt + s.rd D2D_CFG.ka_us * 1000 ≤ s.clk) :
    exec (.bridgeKeepaliveExpire td) s = .next (s.bridgeLost (b2n td)) :=
  if_pos ⟨hr, hb, State.elapsed_of_le ht⟩

theorem exec_voqHoldExpire {s : State} {t : Nat} (hh : s.res.holdAt = some t) (hb : s.bridgeUp = false)
    (ht : t + s.rd D2D_ISLCFG.voq_hold_ms * 1000000 ≤ s.clk) : exec .voqHoldExpire s =
      .next ((Tbl.keysWhere (fun k (q : Queue) => decide (2 ^ 20 ≤ k) && !q.ents.isEmpty) s.qm.queues).foldl
        (fun u k => u.flush k 0x12) { s with res := { s.res with holdAt := none } }) := by
  have he : s.elapsed t (ms (s.rd D2D_ISLCFG.voq_hold_ms)) = true := State.elapsed_of_le ht
  show execVoqHoldExpire s = _
  simp [execVoqHoldExpire, hh, hb, he]

/-! ### Rejoining -/

theorem exec_autoRejoin {s : State} (ha : s.bit D2D_CFG.auto_rejoin = true) (hb : s.rd D2D_STAT.bridge = 1)
    (ht : max s.res.autoAt s.res.lostAt + 1000000000 ≤ s.clk) :
    exec .autoRejoin s = .next (({ s with res := { s.res with autoAt := s.clk } } : State).retrain 0xFF) :=
  if_pos ⟨ha, hb, State.elapsed_of_le ht⟩

/-- A write of D2D_CTL with retrain set, of a device that trains no module. -/
theorem State.writeD2dCtl_go {s : State} (h : s.bit D2D_CTL.retrain = false) (m : Nat) :
    s.writeD2dCtl m true = (s.wr D2D_CTL.module m).retrain m := by
  have hk : (s.wr D2D_CTL.module m).bit D2D_CTL.retrain = false :=
    (congrArg (· != 0) (s.rd_wr_ne m (by decide))).trans h
  simp [State.writeD2dCtl, hk]

theorem exec_d2dRetrain {s : State} {m : Nat} (ho : Open s) (hm : m < 256) (hr : s.bit D2D_CTL.retrain = false) :
    exec (.d2dRetrain m) s = .next ((s.wr D2D_CTL.module m).retrain m) := by
  obtain ⟨⟨hrec, hready, hseal⟩, hw⟩ := ho
  have hv : (2 ^ 31 + m % 256) % 2 ^ 32 % 2 ^ 32 % 2 ^ 32 = 2 ^ 31 + m := by omega
  have hmod : bitsAt (2 ^ 31 + m) 0 8 = m := by unfold bitsAt; omega
  have hgo : bitOf (2 ^ 31 + m) 31 = true := by simp only [bitOf, beq_iff_eq]; omega
  have hk : s.hook .bar0 0x58000C (2 ^ 32 - 1) (2 ^ 31 + m) (2 ^ 31 + m) = some ((s.wr D2D_CTL.module m).retrain m) := by
    show some (s.writeD2dCtl (bitsAt (2 ^ 31 + m) 0 8) (bitOf (2 ^ 31 + m) 31)) = _
    rw [hmod, hgo, State.writeD2dCtl_go hr]
  show Host.Outcome.next (s.bar0Write 0x58000C 4 ((2 ^ 31 + m % 256) % 2 ^ 32)) = _
  rw [State.bar0Write_open _ hrec hready hseal rfl rfl rfl]
  exact congrArg _ (State.regWrite_hook hw rfl (by decide) rfl rfl (by rw [hv]; exact hk))

/-- A register field that is no module's state leaves the ACTIVE modules. -/
theorem State.activeMods_wr (s : State) {f : Fld} (v : Nat) (hf : ∀ m, (D2D_MODSTAT.state m).key ≠ f.key) :
    (s.wr f v).activeMods = s.activeMods := by
  unfold State.activeMods State.modState
  simp only [s.rd_wr_ne v (hf _)]

/-- The key of a module's state lies above those of D2D_CTL. -/
theorem modState_key_ne_retrain (m : Nat) : (D2D_MODSTAT.state m).key ≠ D2D_CTL.retrain.key := by
  simp only [Fld.key, D2D_MODSTAT.state, D2D_CTL.retrain]; omega

theorem State.no_training {s : State} (h : ∀ m, m < 24 → s.modState m ≠ 1) : (List.range 24).any (fun m => s.modState m == 1) = false := by
  simpa using h

section Trained
variable {s : State} (hj : s.res.rejoin = 2) (ht : ∀ m, m < 24 → s.modState m ≠ 1)
include hj ht

/-- Training ends with modules enough: the rejoin goes on to reconcile. -/
theorem exec_rejoin_enough (hn : s.rd D2D_CFG.min_modules ≤ s.activeMods.length) : exec .rejoinStepComplete s =
    .next { s.wr D2D_CTL.retrain 0 with res := { s.res with rejoin := 3 } } := by
  have ha : (s.wr D2D_CTL.retrain 0).activeMods = s.activeMods := s.activeMods_wr 0 modState_key_ne_retrain
  have hm : (s.wr D2D_CTL.retrain 0).rd D2D_CFG.min_modules = s.rd D2D_CFG.min_modules := s.rd_wr_ne 0 (by decide)
  show execRejoinStepComplete s = _
  simp [execRejoinStepComplete, hj, State.no_training ht, ha, hm, hn]

/-- Training ends with too few: the rejoin fails. -/
theorem exec_rejoin_failed (hn : s.activeMods.length < s.rd D2D_CFG.min_modules) : exec .rejoinStepComplete s =
    .next (({ (s.wr D2D_CTL.retrain 0).wr D2D_STAT.bridge 1 with res := { s.res with rejoin := 0 } } : State).post 0x000A
      [s.activeMods.length]) := by
  have ha : (s.wr D2D_CTL.retrain 0).activeMods = s.activeMods := s.activeMods_wr 0 modState_key_ne_retrain
  have hm : (s.wr D2D_CTL.retrain 0).rd D2D_CFG.min_modules = s.rd D2D_CFG.min_modules := s.rd_wr_ne 0 (by decide)
  show execRejoinStepComplete s = _
  simp [execRejoinStepComplete, hj, State.no_training ht, ha, hm, Nat.not_le.mpr hn]

end Trained

theorem exec_rejoin_reconciled {s : State} (hj : s.res.rejoin = 3) :
    exec .rejoinStepComplete s = .next { s with res := { s.res with rejoin := 4 } } := by
  show execRejoinStepComplete s = _
  simp only [execRejoinStepComplete, hj]

theorem exec_rejoin_resumed {s : State} (hj : s.res.rejoin = 4) : exec .rejoinStepComplete s = .next s.rejoined := by
  show execRejoinStepComplete s = _
  simp only [execRejoinStepComplete, hj]

end Sys2Proof.Machine

namespace Sys2Proof
open Machine Claims

/-- R25 to R31: flits acknowledged, lanes and modules. -/
theorem bridgeModules : Claims.BridgeModules := by
  refine ⟨fun s ft seq i hi hpos hlt => exec_flitAck hi hpos hlt, fun s h => exec_controlShareWindow h,
    fun s ft m lane hm hl hb hs => ?_, fun s m hm hs => exec_moduleRepairDone hm hs, fun s m hm hs => ⟨?_, fun ha => ?_, fun ha => ?_⟩⟩
  · rw [exec_bridgeLaneLockLoss hm hl hb, State.laneFail_inService hs]
  · exact exec_moduleTrainingDone_ok hm hs
  · rw [exec_moduleTrainingDone_failed hm hs, if_pos (by omega)]
  · rw [exec_moduleTrainingDone_failed hm hs, if_neg (by omega)]

/-- R30, R33, R523 to R526: the bridge lost and rejoined. -/
theorem bridgeLossAndRejoin : Claims.BridgeLossAndRejoin := by
  refine ⟨fun s ft m hm hs hb ht => exec_bridgeKeepaliveSend hm hs hb ht, fun s td hr hb ht => exec_bridgeKeepaliveExpire hr hb ht,
    fun s t hh hb ht => exec_voqHoldExpire hh hb ht, fun s ha hb ht => exec_autoRejoin ha hb ht,
    fun s m ho hm hr => exec_d2dRetrain ho hm hr, fun s hj ht => ⟨fun hn => ?_, fun hn => exec_rejoin_failed hj ht hn⟩,
    fun s hj => exec_rejoin_reconciled hj, fun s hj => exec_rejoin_resumed hj⟩
  exact ⟨_, exec_rejoin_enough hj ht hn, rfl, rfl⟩

/-- Settles O20: each command has one premise, under which its arm is the effect stated. -/
theorem bridgeFromTrainingToRejoin : Obligations.BridgeFromTrainingToRejoin := ⟨bridgeModules, bridgeLossAndRejoin⟩

end Sys2Proof
end

section
/-! SUPPORT. The sideband between the dies and the feeds of the island (R34 to R46, R527). -/
namespace Sys2Proof.Machine

/-! ### Heartbeats -/

theorem exec_sidebandHeartbeatSend_fd {s : State} (ht : s.dies.hbFdSent + 10000 ≤ s.clk) (hl : s.dies.toTd.length < 8) :
    exec (.sidebandHeartbeatSend true) s =
      .next { s with dies := { s.dies with hbFdSent := s.clk, toTd := s.dies.toTd ++ [.heartbeat] } } :=
  if_pos ⟨rfl, State.elapsed_of_le ht, hl⟩

theorem exec_sidebandHeartbeatSend_td {s : State} (ht : s.dies.hbTdSent + 10000 ≤ s.clk) (hl : s.dies.toFd.length < 8) :
    exec (.sidebandHeartbeatSend false) s =
      .next { s with dies := { s.dies with hbTdSent := s.clk, toFd := s.dies.toFd ++ [.heartbeat] } } := by
  show execSidebandHeartbeatSend false s = _
  rw [execSidebandHeartbeatSend, if_neg (fun h => Bool.false_ne_true h.1), if_pos ⟨rfl, State.elapsed_of_le ht, hl⟩]

/-! ### Loss and return -/

theorem exec_sidebandLost {s : State} (hu : s.rd D2D_STAT.sideband_up = 1)
    (ht : s.dies.hbFd + 50000 ≤ s.clk ∨ s.dies.hbTd + 50000 ≤ s.clk) : exec .sidebandLost s =
      .next ((({ s with dies := { s.dies with sbLost := true, hbSince := none, sbTrained := s.clk } } : State).wr
        D2D_STAT.sideband_up 0).post 0x0004 []) :=
  if_pos ⟨hu, ht.imp State.elapsed_of_le State.elapsed_of_le⟩

theorem exec_sidebandRetrain {s : State} (hl : s.dies.sbLost = true) (ht : s.dies.sbTrained + 1000000 ≤ s.clk) :
    exec .sidebandRetrain s = .next { s with dies := { s.dies with sbTrained := s.clk } } :=
  if_pos ⟨hl, State.elapsed_of_le ht⟩

theorem exec_sidebandRestored {s : State} {t : Nat} (hl : s.dies.sbLost = true) (hs : s.dies.hbSince = some t) (ht : t + 1000000 ≤ s.clk) :
    exec .sidebandRestored s = .next ((({ s with dies := { s.dies with sbLost := false, hbSince := none } } : State).wr
      D2D_STAT.sideband_up 1).post 0x0005 []) := by
  have he : s.elapsed t (ms 1) = true := State.elapsed_of_le ht
  show execSidebandRestored s = _
  simp [execSidebandRestored, hs, hl, he]

/-! ### Messages that arrive -/

/-- A message that moves up in the crossing leaves the tags on record. -/
@[simp] theorem State.sbRefill_tags (s : State) : s.sbRefill.dies.tags = s.dies.tags := by
  unfold State.sbRefill
  split
  · split <;> rfl
  · rfl

/-- The FD end carries out an access whose tag it does not know, and records its result. -/
theorem State.execTag_new {s : State} {tag : Nat} (h : s.dies.tags.find? (fun e => e.1 == tag) = none) (f : State → Nat × State) :
    s.execTag tag f = (f s).2.tagDone tag (f s).1 := by
  simp only [State.execTag, h]

/-- It answers a tag on record without carrying the access out. -/
theorem State.execTag_known {s : State} {tag r : Nat} (h : s.dies.tags.find? (fun e => e.1 == tag) = some (tag, r))
    (f : State → Nat × State) : s.execTag tag f = { s with dies := { s.dies with sbResult := some (tag, r) } } := by
  simp only [State.execTag, h]

@[simp] theorem State.lastResult_tagDone (s : State) (tag v : Nat) : (s.tagDone tag v).lastResult = v := rfl

section Front
variable {s : State} {m : SbMsg} {rest : List SbMsg} (hm : s.dies.toFd = m :: rest) (hd : s.sbDeliverable m = true)
include hm hd

/-- The message at the front arrives at the FD end. -/
theorem exec_sidebandMessageReceive_fd : exec (.sidebandMessageReceive true true) s =
    .next ((State.sbRefill { s with dies := { s.dies with toFd := rest } }).sbArrive m) := by
  show execSidebandMessageReceive true true s = _
  simp [execSidebandMessageReceive, hm, List.findIdx?_cons, hd]

/-- A damaged message other than a heartbeat stays to be sent again. -/
theorem exec_sidebandMessageReceive_damaged (hb : m ≠ .heartbeat) : exec (.sidebandMessageReceive true false) s = .next s := by
  show execSidebandMessageReceive true false s = _
  simp [execSidebandMessageReceive, hm, List.findIdx?_cons, hd, hb]

end Front

/-- A BAR0 write that arrives over the sideband brings no answer. -/
theorem State.sbArrive_write (s : State) (tag a mask v : Nat) :
    s.sbArrive (.write tag a mask v false) = s.execTag tag (fun u => (0, u.regWrite .bar0 a mask v)) := rfl

theorem State.sbArrive_read (s : State) (tag a part : Nat) :
    s.sbArrive (.read tag a false part) = (s.execTag tag (fun u => u.regRead .bar0 a)).givesPart part
      (s.execTag tag (fun u => u.regRead .bar0 a)).lastResult := rfl

theorem exec_sidebandMessageReceive_td {s : State} {m : SbMsg} {rest : List SbMsg} (h : s.dies.toTd = m :: rest) :
    exec (.sidebandMessageReceive false true) s = .next (State.hearBeat { s with dies := { s.dies with toTd := rest } } false) := by
  show execSidebandMessageReceive false true s = _
  simp [execSidebandMessageReceive, h]

/-! ### Feeds -/

section Feeds
variable {s : State} (ha : s.dies.feedA = true) (hb : s.dies.feedB = true)
include ha hb

/-- VAUX_A, which is in use, leaves its range: the island moves to VAUX_B. -/
theorem exec_auxFeedOutOfRange_a : exec (.auxFeedOutOfRange false) s =
    .next ((({ s with dies := { s.dies with feedA := false } } : State).wr PWR_STAT.feed 1).post 0x0006 [1]) := by
  show execAuxFeedOutOfRange false s = _
  simp [execAuxFeedOutOfRange, State.feed, ha, hb]

/-- VAUX_B, which is not in use, leaves its range. -/
theorem exec_auxFeedOutOfRange_b : exec (.auxFeedOutOfRange true) s =
    .next (({ s with dies := { s.dies with feedB := false } } : State).wr PWR_STAT.feed 0) := by
  show execAuxFeedOutOfRange true s = _
  simp [execAuxFeedOutOfRange, State.feed, ha, hb]

end Feeds

end Sys2Proof.Machine

namespace Sys2Proof
open Machine Claims

/-- Settles O21: an access is carried out where its tag is new, and the other commands act under their one premise. -/
theorem sidebandAndFeeds : Obligations.SidebandAndFeeds := by
  refine ⟨fun s ht hl => exec_sidebandHeartbeatSend_fd ht hl, fun s ht hl => exec_sidebandHeartbeatSend_td ht hl,
    fun s hu ht => exec_sidebandLost hu ht, fun s hl ht => exec_sidebandRetrain hl ht, fun s t hl hs ht => exec_sidebandRestored hl hs ht,
    fun s tag a mask v rest hm hu => ⟨fun hn => ?_, fun r hr => ?_, exec_sidebandMessageReceive_damaged hm hu (by simp)⟩,
    fun s tag a part rest hm hu hn => ?_, fun s rest hm => exec_sidebandMessageReceive_td hm,
    fun s ha hb => ⟨exec_auxFeedOutOfRange_a ha hb, exec_auxFeedOutOfRange_b ha hb⟩⟩
  · rw [exec_sidebandMessageReceive_fd hm hu, State.sbArrive_write, State.execTag_new (by simpa using hn)]
  · rw [exec_sidebandMessageReceive_fd hm hu, State.sbArrive_write, State.execTag_known (by simpa using hr)]
  · rw [exec_sidebandMessageReceive_fd hm hu, State.sbArrive_read, State.execTag_new (by simpa using hn), State.lastResult_tagDone]

end Sys2Proof
end

section
/-! SUPPORT. The command descriptors of the lookup tables (R124 to R166, R366, R663): what each does with the executor on it, the bridge up
with room for a flit each way, and DMA possible. -/
namespace Sys2Proof.Machine
open Sys2Proof.Claims

/-! ### The crossing of a command -/

/-- All that the flits of a command and of its answer can change: the bridge. -/
theorem State.cmdCross_only (s : State) : ∃ d, s.cmdCross = { s with dies := d } := by
  obtain ⟨d, hd⟩ := State.ctlNow_only false 1 s
  obtain ⟨e, he⟩ := State.ctlNow_only true 1 (s.ctlNow false 1)
  exact ⟨e, he.trans (by rw [hd])⟩

@[simp] theorem State.cmdCross_regs (s : State) : s.cmdCross.regs = s.regs := by obtain ⟨d, h⟩ := s.cmdCross_only; rw [h]
@[simp] theorem State.cmdCross_lkp (s : State) : s.cmdCross.lkp = s.lkp := by obtain ⟨d, h⟩ := s.cmdCross_only; rw [h]
@[simp] theorem State.cmdCross_hif (s : State) : s.cmdCross.hif = s.hif := by obtain ⟨d, h⟩ := s.cmdCross_only; rw [h]
@[simp] theorem State.cmdCross_rd (s : State) (f : Fld) : s.cmdCross.rd f = s.rd f := State.rd_congr s.cmdCross_regs f
@[simp] theorem State.cmdCross_ring (s : State) (r : Nat) : s.cmdCross.ring r = s.ring r := by simp only [State.ring, State.cmdCross_hif]
@[simp] theorem State.cmdCross_dmaOk (s : State) : s.cmdCross.dmaOk = s.dmaOk := by
  simp only [State.dmaOk, State.bit, State.cmdCross_rd, State.cmdCross_hif]
@[simp] theorem State.cmdCross_fibAt (s : State) (k : Nat) : s.cmdCross.fibAt k = s.fibAt k := by simp only [State.fibAt, State.cmdCross_lkp]
@[simp] theorem State.cmdCross_terAt (s : State) (i : Nat) : s.cmdCross.terAt i = s.terAt i := by simp only [State.terAt, State.cmdCross_lkp]
@[simp] theorem State.cmdCross_adjAt (s : State) (i : Nat) : s.cmdCross.adjAt i = s.adjAt i := by simp only [State.adjAt, State.cmdCross_lkp]
@[simp] theorem State.cmdCross_emKeyBytes (s : State) (tb : Nat) : s.cmdCross.emKeyBytes tb = s.emKeyBytes tb := by
  simp only [State.emKeyBytes, State.cmdCross_rd]
@[simp] theorem State.cmdCross_emKeyClean (s : State) (tb : Nat) (t : Taken) : s.cmdCross.emKeyClean tb t = s.emKeyClean tb t := by
  simp only [State.emKeyClean, State.cmdCross_emKeyBytes]
@[simp] theorem State.cmdCross_emAll (s : State) (tb flags : Nat) : s.cmdCross.emAll tb flags = s.emAll tb flags := by
  simp only [State.emAll, State.cmdCross_rd]

/-- An entry of a dump has crossed and stands at address `a` of the buffer; the next one begins after position `pos`. -/
def State.dumped (s : State) (r a pos : Nat) (b : List Nat) : State :=
  ((s.cmdCross.dmaWrite a b).updTaken r (fun t => { t with cursor := pos + 1 })).stepEntry r

theorem State.dumped_eq (s : State) (r a pos : Nat) (b : List Nat) :
    s.dumped r a pos b = ((s.cmdCross.dmaWrite a b).updTaken r (fun t => { t with cursor := pos + 1 })).stepEntry r := rfl

section Runs
variable {s : State} {op r : Nat} {t : Taken} (h : Now s op r t)
include h

theorem taken_now : (s.ring r).taken = some t := (State.running_taken h.1).2.1

theorem op_now : t.op = op := (State.running_taken h.1).2.2.1

theorem cmdFree_now : s.cmdFree = true := h.2.2.1

theorem dmaOk_now : s.dmaOk = true := h.2.2.2

/-- A single-entry command crosses and runs. -/
theorem fdOp_now (hk : isBulk op = false) (f : State → Nat → Taken → State) : s.fdOp op f = f s.cmdCross r t := by
  obtain ⟨hr, hb, hc, _⟩ := h
  exact State.fdOp_up hr hb hk hc f

/-- A bulk command runs; its entries cross. -/
theorem fdBulk_now (hk : isBulk op = true) (f : State → Nat → Taken → State) : s.fdBulk op f = f s r t := by
  obtain ⟨hr, hb, _, hd⟩ := h
  exact State.fdBulk_up hr hb hk hd f

/-- The next entry of a bulk command crosses and is applied: one entry further. -/
theorem bulkRun_now {total : Nat} {f : Nat → State → Entry} {u : State} (hp : t.progress < total)
    (hf : f t.progress s.cmdCross = .go u) : bulkRun r total (crossing f) 1 s = afterEntry u r total t := by
  have hc := crossing_free (cmdFree_now h) f t.progress
  exact bulkRun_one (taken_now h) hp (hc.trans hf)

/-- The next entry of a bulk command crosses and is refused. -/
theorem bulkRun_refused {total : Nat} {f : Nat → State → Entry} {u : State} {d : Nat} (hp : t.progress < total)
    (hf : f t.progress s.cmdCross = .stop .partial_ d u) :
    bulkRun r total (crossing f) 1 s = u.finishTok r .partial_ d t.progress 0 := by
  have hc := crossing_free (cmdFree_now h) f t.progress
  exact bulkRun_stop (taken_now h) hp (hc.trans hf)

/-- A dump past the last entry is complete. -/
theorem dumpRun_end {buf room size : Nat} {next : State → Nat → Option (Nat × List Nat)} (hn : next s t.cursor = none) :
    dumpRun r buf room size next 1 s = s.finish r { status := .done, detail := 0, progress := t.progress } := by
  simp [dumpRun, taken_now h, hn]

/-- A dump with room in its buffer writes its next entry there, and goes on. -/
theorem dumpRun_more {buf room size pos : Nat} {next : State → Nat → Option (Nat × List Nat)} {b : List Nat}
    (hn : next s t.cursor = some (pos, b)) (hroom : t.progress - t.base < room)
    (hu : next (s.dumped r (buf + size * (t.progress - t.base)) pos b) (pos + 1) ≠ none) :
    dumpRun r buf room size next 1 s = s.dumped r (buf + size * (t.progress - t.base)) pos b := by
  obtain ⟨x, hx⟩ := Option.ne_none_iff_exists'.mp hu
  simp only [dumpRun, taken_now h, hn, if_neg (Nat.not_le.mpr hroom), cmdFree_now h]
  simp only [← State.dumped_eq, hx]
  exact ite_self _

/-- The last entry of a dump completes it. -/
theorem dumpRun_last {buf room size pos : Nat} {next : State → Nat → Option (Nat × List Nat)} {b : List Nat}
    (hn : next s t.cursor = some (pos, b)) (hroom : t.progress - t.base < room)
    (hu : next (s.dumped r (buf + size * (t.progress - t.base)) pos b) (pos + 1) = none) :
    dumpRun r buf room size next 1 s = (s.dumped r (buf + size * (t.progress - t.base)) pos b).finish r
      { status := .done, detail := 0, progress := t.progress + 1 } := by
  simp only [dumpRun, taken_now h, hn, if_neg (Nat.not_le.mpr hroom), cmdFree_now h]
  simp [← State.dumped_eq, hu]

end Runs

/-! ### FIB -/

section Fib
variable {s : State} {r : Nat} {t : Taken} (ho : s.lkp.xfibOff = false)
include ho

theorem exec_fibInsert (h : Now s 0x20 r t) : exec .fibInsert s =
    let x := s.cmdCross.fibInsert (t.f 16 2) (t.f 18 1) (t.f 19 1) (sliceB t.desc 24 16) (sliceB t.desc 40 16) (t.f 20 1)
    .next (x.2.finWith r x.1) := by
  show execFibInsert s = _
  rw [execFibInsert, fdOp_now h rfl, State.cmdCross_lkp, ho]
  rfl

theorem exec_fibDelete (h : Now s 0x21 r t) : exec .fibDelete s =
    let x := s.cmdCross.fibDelete (t.f 16 2) (t.f 18 1) (t.f 19 1) (sliceB t.desc 24 16)
    .next (x.2.finWith r x.1) := by
  show execFibDelete s = _
  rw [execFibDelete, fdOp_now h rfl, State.cmdCross_lkp, ho]
  rfl

/-- One record of FIB_BULK: applied, or refused with its reason. -/
theorem exec_fibBulk (h : Now s 0x22 r t) (hp : t.progress < t.f 24 4) :
    let x := s.cmdCross.fibRecord (s.cmdCross.dmaRead (t.f 16 8 + 48 * t.progress) 48)
    (x.1 = 0 → exec (.fibBulk 1) s = .next (afterEntry x.2 r (t.f 24 4) t)) ∧
    (x.1 ≠ 0 → exec (.fibBulk 1) s = .next (x.2.finishTok r .partial_ x.1 t.progress 0)) := by
  intro x
  have hrun : exec (.fibBulk 1) s = .next (bulkRun r (t.f 24 4)
      (crossing (fun k s => recordResult (s.fibRecord (s.dmaRead (t.f 16 8 + 48 * k) 48)))) 1 s) := by
    show execFibBulk 1 s = _
    rw [execFibBulk, fdBulk_now h rfl, ho]
    rfl
  exact ⟨fun hx => hrun.trans (congrArg _ (bulkRun_now h hp (if_pos hx))),
    fun hx => hrun.trans (congrArg _ (bulkRun_refused h hp (if_neg hx)))⟩

theorem exec_fibDump (h : Now s 0x23 r t) :
    exec (.fibDump 1) s = .next (dumpRun r (t.f 16 8) (t.f 24 4) 48 State.fibNext 1 s) := by
  show execFibDump 1 s = _
  rw [execFibDump, fdBulk_now h rfl, ho]
  rfl

end Fib

/-! ### EM -/

section Em
variable {s : State} {r : Nat} {t : Taken} (ht : t.f 16 1 < 64) (he : s.rd (LKP_EMCFG.enable (t.f 16 1)) ≠ 0)
include ht he

/-- An EM command of an enabled table that nothing refuses before its regions. -/
def EmRuns (s : State) (r : Nat) (t : Taken) : Prop :=
  t.f 18 1 ≤ 2 ∧ s.emKeyClean (t.f 16 1) t = true ∧ (s.emKeyBytes (t.f 16 1) ≠ 32 ∨ (s.ring r).nz5 = false ∨ t.op ≠ 0x24)

theorem emCommand_now {op : Nat} (h : Now s op r t) (hr : EmRuns s r t) (f : List Nat → State → Nat → Nat × State) :
    s.cmdCross.emCommand r t f =
      if s.emAll (t.f 16 1) (t.f 17 1) then
        let x := emRegions (f (s.cmdCross.emKeyOperand (t.f 16 1) t)) ([0, 1, 2, 3].drop t.progress) t.progress s.cmdCross
        if x.1 = 0 then x.2.2.finish r { status := .done, detail := 0, progress := 4 } else x.2.2.finishTok r .partial_ x.1 x.2.1 0
      else
        let x := f (s.cmdCross.emKeyOperand (t.f 16 1) t) s.cmdCross (t.f 17 1 % 4)
        x.2.finWith r x.1 := by
  obtain ⟨hop, hc, hz⟩ := hr
  have hfirst : ¬(64 ≤ t.f 16 1 ∨ s.rd (LKP_EMCFG.enable (t.f 16 1)) = 0 ∨ 2 < t.f 18 1) := by omega
  have hnz : ¬(s.emKeyBytes (t.f 16 1) = 32 ∧ (s.ring r).nz5 = true ∧ t.op = 0x24) := by
    rintro ⟨hk, hn, hp⟩
    rcases hz with hz | hz | hz
    · exact hz hk
    · exact Bool.false_ne_true (hz.symm.trans hn)
    · exact hz hp
  simp only [State.emCommand, State.cmdCross_rd, State.cmdCross_emKeyBytes, State.cmdCross_ring, State.cmdCross_emKeyClean,
    State.cmdCross_dmaOk, State.cmdCross_emAll, if_neg hfirst, if_neg hnz, hc, dmaOk_now h]
  simp

/-- One record of EM_BULK: applied in all its regions, or refused with its reason and the regions that it has changed. -/
theorem exec_emBulk (h : Now s 0x26 r t) (hp : t.progress < t.f 32 4) {d m : Nat} {u : State}
    (hx : s.cmdCross.emRecord (t.f 16 1) t.sub (s.cmdCross.dmaRead (t.f 24 8 + 64 * t.progress) 64) = (d, m, u)) :
    (d = 0 → exec (.emBulk 1) s = .next (afterEntry (u.updTaken r (fun t => { t with sub := 0 })) r (t.f 32 4) t)) ∧
    (d ≠ 0 → exec (.emBulk 1) s =
      .next ((u.updTaken r (fun t => { t with sub := m })).finishTok r .partial_ (d + m * 256) t.progress 0)) := by
  have hfirst : ¬(64 ≤ t.f 16 1 ∨ s.rd (LKP_EMCFG.enable (t.f 16 1)) = 0) := by omega
  have ht' : (s.cmdCross.ring r).taken = some t := by rw [State.cmdCross_ring, taken_now h]
  show (_ → execEmBulk 1 s = _) ∧ (_ → execEmBulk 1 s = _)
  rw [execEmBulk, fdBulk_now h rfl]
  simp only [if_neg hfirst]
  refine ⟨fun hd => congrArg _ (bulkRun_now h hp ?_), fun hd => congrArg _ (bulkRun_refused h hp ?_)⟩
  · simp only [ht', hx, hd, if_true]
  · simp only [ht', hx, hd, if_false]

/-- One entry of EM_DUMP. -/
theorem exec_emDump (h : Now s 0x27 r t) : exec (.emDump 1) s =
    .next (dumpRun r (t.f 24 8) (t.f 32 4) 64 (fun s c => s.emNext (t.f 16 1) (t.f 17 1 % 4) c) 1 s) := by
  have hfirst : ¬(64 ≤ t.f 16 1 ∨ s.rd (LKP_EMCFG.enable (t.f 16 1)) = 0) := by omega
  show execEmDump 1 s = _
  rw [execEmDump, fdBulk_now h rfl]
  exact congrArg _ (if_neg hfirst)

end Em

theorem exec_emInsert {s : State} {r : Nat} {t : Taken} (h : Now s 0x24 r t) : exec .emInsert s =
    .next (s.cmdCross.emCommand r t (fun key s p => s.emInsert (t.f 16 1) p key (sliceB t.desc 24 16) (t.f 18 1))) :=
  congrArg _ (fdOp_now h rfl _)

theorem exec_emDelete {s : State} {r : Nat} {t : Taken} (h : Now s 0x25 r t) : exec .emDelete s =
    .next (s.cmdCross.emCommand r t (fun key s p => s.emDelete (t.f 16 1) p key)) :=
  congrArg _ (fdOp_now h rfl _)

/-! ### TER and the parser -/

theorem exec_terWrite {s : State} {r : Nat} {t : Taken} (h : Now s 0x28 r t) : exec .terWrite s =
    let w := s.cmdCross
    let n := 8 * s.rd (LKP_TERPROF.width (t.f 16 1 % 8))
    let x := w.terWrite (t.f 16 1) (t.f 20 4) (t.f 24 4) (w.dmaRead (t.f 48 8) n) (w.dmaRead (t.f 48 8 + n) n) (sliceB t.desc 32 16)
    .next (x.2.finWith r x.1) := by
  show execTerWrite s = _
  rw [execTerWrite, fdOp_now h rfl, State.cmdCross_dmaOk, State.cmdCross_rd, dmaOk_now h]
  rfl

theorem exec_parserFlip {s : State} {r : Nat} {t : Taken} (h : Now s 0x2D r t) : exec .parserFlip s =
    .next (if s.rd LKP_PARSECTL.idle_state ≠ 2 ∨ s.lkp.flipping = true then s.cmdCross.finBusy r dIN_USE
      else
        let u := s.cmdCross.wr LKP_PARSECTL.live_bank (1 - s.rd LKP_PARSECTL.live_bank)
        ({ u with lkp := { u.lkp with flipping := true } } : State).finDone r) := by
  show execParserFlip s = _
  rw [execParserFlip, fdOp_now h rfl]
  simp only [State.cmdCross_rd, State.cmdCross_lkp]

/-- A piece of PARSER_LOAD before the last is written to the idle bank. -/
theorem parserPieces_one {s : State} {r buf : Nat} {t : Taken} (ht : (s.ring r).taken = some t) (hc : s.cmdFree = true)
    (hp : t.progress < 575) :
    let b := 1 - s.rd LKP_PARSECTL.live_bank
    let v := (List.range 8).foldl (fun s i => s.wordWritten 6 (8192 * b + 8 * t.progress + i)) s.cmdCross
    parserPieces r buf 1 s = (v.putParser b (64 * t.progress) (v.dmaRead (buf + 64 * t.progress) 64)).stepEntry r := by
  intro b v
  have hlast : ¬576 ≤ t.progress + 1 := by omega
  simp only [parserPieces, ht, hc, State.cmdCross_rd, if_neg hlast, ite_self]
  rfl

theorem exec_parserLoad {s : State} {r : Nat} {t : Taken} (h : Now s 0x2C r t) (hcur : t.cursor ≠ 0)
    (hst : s.rd LKP_PARSECTL.idle_state = 1) (hl : (s.lkp.pLoader.map (·.1)) = some t.cursor) :
    exec (.parserLoad 1) s = .next (parserPieces r (t.f 16 8) 1 { s with lkp := { s.lkp with pLoader := some (t.cursor, r) } }) := by
  show execParserLoad 1 s = _
  rw [execParserLoad, fdBulk_now h rfl]
  simp only [if_neg hcur, hst, hl, and_self, if_true]

/-! ### TABLE_READ -/

section Read
variable {s : State} {r : Nat} {t : Taken} (h : Now s 0x2E r t)
include h

/-- The route of an IPv4 entry of the FIB. -/
theorem exec_tableRead_fib {e : FibEnt} (hk : t.f 63 1 = 0) (hs : spansOk [(16, 4), (24, 16), (63, 1)] t.desc = true) (h4 : t.f 18 1 = 4)
    (hl : t.f 19 1 ≤ 32) (he : s.fibAt (fibKey (t.f 16 2) 0 (t.f 19 1) (addrBits 0 (sliceB t.desc 24 16))) = some e) :
    exec .tableRead s = .next (s.cmdCross.finData r 0 (sliceB e.route 0 16)) := by
  have hl' : ¬32 < t.f 19 1 := by omega
  show execTableRead s = _
  rw [execTableRead, fdOp_now h rfl]
  simp [hk, hs, h4, maxLen, hl', he]

/-- A ternary entry. -/
theorem exec_tableRead_ter {e : TerEnt} (hk : t.f 63 1 = 2) (hs : spansOk [(20, 4), (63, 1)] t.desc = true) (hi : t.f 20 4 ≤ 131071)
    (he : s.terAt (t.f 20 4) = some e) :
    exec .tableRead s = .next (s.cmdCross.finData r 0 (sliceB e.data 0 16 ++ leBytes 4 e.prio ++ [e.profile])) := by
  have hi' : ¬131071 < t.f 20 4 := by omega
  show execTableRead s = _
  rw [execTableRead, fdOp_now h rfl]
  simp [hk, hs, hi', he]

/-- A valid adjacency. -/
theorem exec_tableRead_adj (hk : t.f 63 1 = 3) (hs : spansOk [(20, 4), (63, 1)] t.desc = true) (hi : t.f 20 4 ≤ 2097151)
    (hv : (s.adjAt (t.f 20 4)).st = .valid) : exec .tableRead s =
      .next (s.cmdCross.finData r (256 + (s.adjAt (t.f 20 4)).version * 65536) (sliceB (s.adjAt (t.f 20 4)).data 0 24)) := by
  have hi' : ¬2097151 < t.f 20 4 := by omega
  show execTableRead s = _
  rw [execTableRead, fdOp_now h rfl]
  simp [hk, hs, hi', hv]

end Read

/-! ### The bridge lost -/

/-- A single-entry command taken while the bridge is lost and the sideband up (R525). -/
theorem fdOp_lost {s : State} {op r : Nat} {t : Taken} (h : s.running op = some (r, t)) (hk : isBulk op = false) (hb : s.bridgeUp = false)
    (hu : s.bit D2D_STAT.sideband_up = true) (f : State → Nat → Taken → State) : s.fdOp op f = s.finBusy r dIN_USE := by
  obtain ⟨_, _, hop, _⟩ := State.running_taken h
  simp [State.fdOp, h, State.viaFd, hb, hu, hop, hk]

end Sys2Proof.Machine

namespace Sys2Proof
open Machine Claims

/-- Settles O29: each descriptor crosses, and then is its table operation with the completion of the reason that it answers. -/
theorem lookupCommands : Obligations.LookupCommands := by
  refine ⟨fun s r t ho => ⟨fun h => exec_fibInsert ho h, fun h => exec_fibDelete ho h, fun h hp => exec_fibBulk ho h hp⟩,
    fun s r t h ho hn => ?fibEnd, fun s r t pos b h ho hn hroom => ?fibEntry, fun s r t he ht ha hc => ?em,
    fun s r t h he ht ha hc hop hz => ?emAll, fun s r t d m u h ht he hp hx => exec_emBulk ht he h hp hx,
    fun s r t h ht he => ?emDump, fun s r t => ?one, fun s r t h hcur hst hl hp => ?load,
    fun s r t h => ⟨fun e hk hs h4 hl he => exec_tableRead_fib h hk hs h4 hl he, fun e hk hs hi he => exec_tableRead_ter h hk hs hi he,
      fun hk hs hi hv => exec_tableRead_adj h hk hs hi hv⟩,
    fun s r t h hb hu => congrArg _ (fdOp_lost h rfl hb hu _)⟩
  case fibEnd => rw [exec_fibDump ho h, dumpRun_end h hn]
  case fibEntry =>
    exact ⟨fun hu => (exec_fibDump ho h).trans (congrArg _ (dumpRun_more h hn hroom hu)),
      fun hu => (exec_fibDump ho h).trans (congrArg _ (dumpRun_last h hn hroom hu))⟩
  case em =>
    refine ⟨fun h hop hz => ?_, fun h hop => ?_⟩
    · rw [exec_emInsert h, emCommand_now ht he h ⟨hop, hc, hz.imp_right .inl⟩, ha]
      rfl
    · rw [exec_emDelete h, emCommand_now ht he h ⟨hop, hc, .inr (.inr (by rw [op_now h]; decide))⟩, ha]
      rfl
  case emAll =>
    rw [exec_emInsert h, emCommand_now ht he h ⟨hop, hc, hz.imp_right .inl⟩, ha]
    rfl
  case emDump =>
    exact ⟨fun hn => (exec_emDump ht he h).trans (congrArg _ (dumpRun_end h hn)),
      fun pos b hn hroom hu => (exec_emDump ht he h).trans (congrArg _ (dumpRun_more h hn hroom hu))⟩
  case one =>
    refine ⟨fun h => exec_terWrite h, fun h => congrArg _ (fdOp_now h rfl _), fun h => congrArg _ (fdOp_now h rfl _),
      fun h => congrArg _ (fdOp_now h rfl _), fun h hv hf => ?_, fun h hn => ?_⟩
    · rw [exec_parserFlip h, if_neg (by simp [hv, hf])]
    · rw [exec_parserFlip h, if_pos hn]
  case load =>
    exact (exec_parserLoad h hcur hst hl).trans (congrArg _ (parserPieces_one (taken_now h) (cmdFree_now h) hp))

end Sys2Proof
end

section
/-! SUPPORT. Frames of line ports and the fault condition (R47, R453 to R462). -/
namespace Sys2Proof.Machine
open Sys2Proof.Claims

/-! ### Line ports -/

/-- A line port reads what was written to it. -/
theorem State.linePort_setLinePort {s : State} (h : Tbl.risingFrom 0 s.lpt.ports = true) (p : Nat) (m : LinePort) :
    (s.setLinePort p m).linePort p = m := Tbl.get_set_self ({} : LinePort) h p m

/-! ### Frames received: the checks of the MAC (R459) -/

section Mac
variable (s : State) (p : Nat) (f : List Nat) (ago : Nat)

theorem State.macControl_pause (h : beNat (sliceB f 14 2) = 1) : s.macControl p f = s.pauseFrame p (beNat (sliceB f 16 2)) := by
  simp only [State.macControl, h]

theorem State.macControl_other (h1 : beNat (sliceB f 14 2) ≠ 1) (h2 : beNat (sliceB f 14 2) ≠ 0x0101) :
    s.macControl p f = s.inc (LPT_RXCTRL.count p) := by
  unfold State.macControl
  split
  · next h => exact absurd h h1
  · next h => exact absurd h h2
  · rfl

/-- A part that an overflow of its crossing has cut is dropped without a check. -/
theorem State.macTake_errored (bad : Bool) : s.macTake p f ago true bad = s := rfl

theorem State.macTake_badCheck {bad : Bool} (h : bad = true ∨ fcsOk f = false) :
    s.macTake p f ago false bad = s.inc (LPT_RXFCS.count p) := by
  have hb : bad = true ∨ (!fcsOk f) = true := h.imp_right (by simp)
  rw [State.macTake, if_neg Bool.false_ne_true, if_pos hb]

variable {s p f}

/-- Past the check sequence only length and EtherType decide. -/
theorem State.macTake_checked (hf : fcsOk f = true) : s.macTake p f ago false false =
    if f.length < 64 then s.inc (LPT_RXRUNT.count p)
    else if s.rd (LPT_MAXLEN.max_len p) < f.length then s.inc (LPT_RXOVER.count p)
    else if beNat (sliceB f 12 2) = 0x8808 then s.macControl p f
    else s.macPass p f ago := by
  have hb : ¬(false = true ∨ (!fcsOk f) = true) := by simp [hf]
  rw [State.macTake, if_neg Bool.false_ne_true, if_neg hb]

theorem State.macTake_good (hg : goodFrame s p f) : s.macTake p f ago false false =
    if beNat (sliceB f 12 2) = 0x8808 then s.macControl p f else s.macPass p f ago := by
  obtain ⟨hf, hmin, hmax⟩ := hg
  rw [State.macTake_checked ago hf, if_neg (Nat.not_lt.mpr hmin), if_neg (Nat.not_lt.mpr hmax)]

end Mac

/-- A frame that the MAC passes is counted and joins the arrivals of its pipe. -/
theorem State.macPass_eq (s : State) (p : Nat) (f : List Nat) (ago : Nat) : s.macPass p f ago =
    { (s.inc (LPT_RXFRM.count p)).addSat (LPT_RXBYTE.count p) f.length with
      eng := { s.eng with arriving := Tbl.upd [] s.eng.arriving (p / 32) (fun l => l ++ [rxPacket s p f ago]) } } := rfl

/-! ### Frames received: the state of the port -/

/-- All that the FEC's counts can change: the registers. -/
theorem State.fecCount_only (s : State) (p cor unc sym : Nat) : ∃ r, s.fecCount p cor unc sym = { s with regs := r } := by
  unfold State.fecCount
  split
  · exact ⟨_, rfl⟩
  · exact ⟨s.regs, rfl⟩

@[simp] theorem State.fecCount_eng (s : State) (p cor unc sym : Nat) : (s.fecCount p cor unc sym).eng = s.eng := by
  obtain ⟨r, h⟩ := s.fecCount_only p cor unc sym; rw [h]
@[simp] theorem State.fecCount_lpt (s : State) (p cor unc sym : Nat) : (s.fecCount p cor unc sym).lpt = s.lpt := by
  obtain ⟨r, h⟩ := s.fecCount_only p cor unc sym; rw [h]
@[simp] theorem State.fecCount_qm (s : State) (p cor unc sym : Nat) : (s.fecCount p cor unc sym).qm = s.qm := by
  obtain ⟨r, h⟩ := s.fecCount_only p cor unc sym; rw [h]
@[simp] theorem State.fecCount_bpm (s : State) (p cor unc sym : Nat) : (s.fecCount p cor unc sym).bpm = s.bpm := by
  obtain ⟨r, h⟩ := s.fecCount_only p cor unc sym; rw [h]

section Receive
variable {s : State} {p start cor unc sym : Nat} {f : List Nat} {bad : Bool} (hp : p < 128)
include hp

/-- A frame that is whole: the port's state and the bridge decide whether the MAC takes it. -/
theorem exec_frameReceive {v : State} (hv : s.fecCount p cor unc sym = v) : exec (.frameReceive p f start none bad cor unc sym) s =
    .next (if start < (v.linePort p).leftAt then v.inc (LPT_RXDOWN.count p)
      else if v.portState p < 2 then v
      else if v.bridgeUp = false then v.inc (D2D_ISLDROP.count (p / 32))
      else if v.portState p = 3 then v.inc (LPT_RXDOWN.count p)
      else v.macTake p f (s.clk - start) false (bad && v.rd (LPT_CFG.fec p) != 0)) := by
  show execFrameReceive p f start none bad cor unc sym s = _
  rw [execFrameReceive, if_neg (Nat.not_le.mpr hp)]
  simp only [hv, apply_ite Host.Outcome.next, Bool.not_eq_true']

/-- A frame on an UP port of a bridge that is up is the MAC's. -/
theorem exec_frameReceive_up (hl : ((s.fecCount p cor unc sym).linePort p).leftAt ≤ start)
    (hb : (s.fecCount p cor unc sym).bridgeUp = true) (hs : (s.fecCount p cor unc sym).portState p = 2) :
    exec (.frameReceive p f start none bad cor unc sym) s =
      .next ((s.fecCount p cor unc sym).macTake p f (s.clk - start) false (bad && (s.fecCount p cor unc sym).rd (LPT_CFG.fec p) != 0)) := by
  rw [exec_frameReceive hp rfl]
  simp [hb, hs, Nat.not_lt.mpr hl]

/-- A frame cut by an overflow of a lane's crossing. -/
theorem exec_frameReceive_cut {ln n : Nat} (hln : ln ∈ (s.fecCount p cor unc sym).portLanes p)
    (hst : (s.fecCount p cor unc sym).rd (SDS_STAT.state ln) = 2) :
    exec (.frameReceive p f start (some (ln, n)) bad cor unc sym) s =
      .next (((s.fecCount p cor unc sym).inc (D2D_XOVFL.count ln)).post 0x0007 ([0, 0] ++ leBytes 2 ln)) := by
  show execFrameReceive p f start (some (ln, n)) bad cor unc sym s = _
  rw [execFrameReceive, if_neg (Nat.not_le.mpr hp)]
  simp only [State.macTake_errored, State.lineOverflow, List.contains_iff_mem.mpr hln, hst, and_self, if_true]

end Receive

/-! ### Frames sent -/

/-- A block lengthened to a shortest length is followed by zeros. -/
theorem sliceB_padded (l : List Nat) (n : Nat) : sliceB l 0 (max n l.length) = l ++ List.replicate (n - l.length) 0 := by
  have ht : (l.drop 0).take (max n l.length) = l := by rw [List.drop_zero, List.take_of_length_le (Nat.le_max_right ..)]
  simp only [sliceB, ht]
  rw [show max n l.length - l.length = n - l.length by omega]

theorem State.lineFree_of_lt {s : State} {m : LinePort} (h : m.txEnd < s.lineTime + 1600) : s.lineFree m = true := decide_eq_true h

section Transmit
variable {s : State} {p cls : Nat} (hp : p < 128) (h2 : (s.macCollect p).portState p = 2)
  (hfree : ((s.macCollect p).linePort p).txEnd < (s.macCollect p).lineTime + 1600)
include hp h2 hfree

/-- A PFC frame that waits goes first. -/
theorem exec_frameTransmit_pfc {x y : Nat} {rest : List (Nat × Nat)} (hq : ((s.macCollect p).linePort p).pfc = (x, y) :: rest) :
    let v := s.macCollect p
    exec (.frameTransmit p cls) s = .next (((v.setLinePort p { v.linePort p with pfc := rest }).inc (QM_PFCTX.count p)).startFrame p
      (v.pfcBytes p x y)) := by
  show execFrameTransmit p cls s = _
  rw [execFrameTransmit, if_neg (Nat.not_le.mpr hp)]
  simp [h2, State.lineFree_of_lt hfree, hq]

section Class
variable {k : Packet} {rest : List Packet} (hq : ((s.macCollect p).linePort p).pfc = [])
  (hw : Tbl.get [] ((s.macCollect p).linePort p).wait cls = k :: rest)
include hq hw

/-- An errored packet is dropped. -/
theorem exec_frameTransmit_errored (he : k.errored = true) :
    let v := s.macCollect p
    exec (.frameTransmit p cls) s = .next (((v.setLinePort p { v.linePort p with wait := Tbl.set [] (v.linePort p).wait cls rest }).inc
      (LPT_TXERR.count p)).macDrop p k) := by
  show execFrameTransmit p cls s = _
  rw [execFrameTransmit, if_neg (Nat.not_le.mpr hp)]
  simp [h2, State.lineFree_of_lt hfree, hq, hw, he]

/-- A class that is paused, or whose gate would close too soon, waits. -/
theorem exec_frameTransmit_held (he : k.errored = false)
    (hh : bitOf ((s.macCollect p).rd (QM_PFCSTAT.paused p)) cls = true ∨ (s.macCollect p).gateAdmits p cls k.frameLen = false) :
    exec (.frameTransmit p cls) s = .next (s.macCollect p) := by
  show execFrameTransmit p cls s = _
  rw [execFrameTransmit, if_neg (Nat.not_le.mpr hp)]
  simp [h2, State.lineFree_of_lt hfree, hq, hw, he, hh]

/-- The oldest frame of a class that may send starts, padded to the shortest length. -/
theorem exec_frameTransmit_sent (he : k.errored = false) (hpause : bitOf ((s.macCollect p).rd (QM_PFCSTAT.paused p)) cls = false)
    (hgate : (s.macCollect p).gateAdmits p cls k.frameLen = true) (hts : k.tstamp = false) :
    let v := s.macCollect p
    let u := v.setLinePort p { v.linePort p with wait := Tbl.set [] (v.linePort p).wait cls rest }
    exec (.frameTransmit p cls) s =
      .next (((u.inc (LPT_TXFRM.count p)).addSat (LPT_TXBYTE.count p) (max 60 k.bytes.length + 4)).startFrame p
        (k.bytes ++ List.replicate (60 - k.bytes.length) 0)) := by
  show execFrameTransmit p cls s = _
  rw [execFrameTransmit, if_neg (Nat.not_le.mpr hp)]
  have hheld : ¬(bitOf ((s.macCollect p).rd (QM_PFCSTAT.paused p)) cls = true ∨
      (!(s.macCollect p).gateAdmits p cls k.frameLen) = true) := by simp [hpause, hgate]
  have hlen : (k.bytes ++ List.replicate (60 - k.bytes.length) 0).length = max 60 k.bytes.length := by simp; omega
  simp only [h2, State.lineFree_of_lt hfree, hq, hw, he, if_neg hheld, State.stampFrame, hts, sliceB_padded, hlen,
    ne_eq, not_true_eq_false, Bool.not_true, Bool.not_false, Bool.false_eq_true, or_self, if_true, if_false]

end Class

end Transmit

/-- A frame that starts stands at the pins and holds the line from the end of the one before it, or from now. -/
theorem State.startFrame_line {s : State} (h : Tbl.risingFrom 0 s.lpt.ports = true) (p : Nat) (b : List Nat) :
    ((s.startFrame p b).linePort p).tx = some b ∧ ((s.startFrame p b).linePort p).txEnd =
      max (s.linePort p).txEnd (1600 * s.clk) + (8 + b.length + 4 + s.rd (LPT_TXCFG.ipg p)) * (8 * 1600 / s.portGbps p) := by
  rw [State.startFrame, State.linePort_setLinePort h]
  refine ⟨rfl, ?_⟩
  show max (s.linePort p).txEnd (1600 * s.clk) + (b.length + 12 + s.rd (LPT_TXCFG.ipg p)) * (12800 / s.portGbps p) = _
  rw [show b.length + 12 = 8 + b.length + 4 by omega]

/-! ### The fault condition (R453 to R455) -/

@[simp] theorem State.leaveUp_clk (s : State) (p : Nat) : (s.leaveUp p).clk = s.clk := by
  unfold State.leaveUp
  split <;> rfl

theorem State.noLock_eq_false (s : State) (p : Nat) : s.noLock p = false ↔
    s.portState p = 0 ∨ (s.linePort p).unlocked = false ∧ 7 ≤ (s.linePort p).step := by
  simp only [State.noLock, Bool.and_eq_false_iff, Bool.or_eq_false_iff, bne_eq_false_iff_eq, decide_eq_false_iff_not, Nat.not_lt]

theorem State.faultCause_eq_zero (s : State) (p : Nat) : s.faultCause p = 0 ↔ s.anyLos p = false ∧ s.anyLol p = false ∧
    (s.portState p = 0 ∨ (s.linePort p).unlocked = false ∧ 7 ≤ (s.linePort p).step) ∧
    (s.linePort p).rxLocal = false ∧ (s.linePort p).rxRemote = false ∧ s.bit (LPT_TXCFG.force_rf p) = false ∧ s.bridgeUp = true := by
  rw [← State.noLock_eq_false]
  simp [State.faultCause, ite_eq_iff]

/-! What a change of the fault condition does to a port that has not gone DOWN. -/

section Touch
variable {s : State} {p : Nat}

/-- An UP port with a fault condition enters FAULT_PENDING, and every class of it stops. -/
theorem State.portTouch_pending (h : s.portState p = 2) (hv : (s.portStat p).portState p = 2) (hf : (s.portStat p).faultCause p ≠ 0) :
    let v := s.portStat p
    s.portTouch p = (((v.leaveUp p).wr (LPT_STAT.state p) 3).setLinePort p { (v.leaveUp p).linePort p with since := v.clk + 1 }).stopClasses p
      255 := by
  have hfirst : (if s.portState p = 1 then s.stepBack p else s) = s := if_neg (by omega)
  simp only [State.portTouch, hfirst, hv, bne_iff_ne.mpr hf, if_true, State.leaveUp_clk]

theorem State.portTouch_up (h : s.portState p = 2) (hv : (s.portStat p).portState p = 2) (hf : (s.portStat p).faultCause p = 0) :
    s.portTouch p = s.portStat p := by
  have hfirst : (if s.portState p = 1 then s.stepBack p else s) = s := if_neg (by omega)
  simp [State.portTouch, hfirst, hv, hf]

/-- The end of the fault condition takes a port in FAULT_PENDING back to UP. -/
theorem State.portTouch_back (h : s.portState p = 3) (hv : (s.portStat p).portState p = 3) (hf : (s.portStat p).faultCause p = 0) :
    let v := s.portStat p
    s.portTouch p = ((v.wr (LPT_STAT.state p) 2).setLinePort p { v.linePort p with since := 0 }).settle.pfcCatchUp p := by
  have hfirst : (if s.portState p = 1 then s.stepBack p else s) = s := if_neg (by omega)
  simp [State.portTouch, hfirst, hv, hf]

theorem State.portTouch_waits (h : s.portState p = 3) (hv : (s.portStat p).portState p = 3) (hf : (s.portStat p).faultCause p ≠ 0) :
    s.portTouch p = s.portStat p := by
  have hfirst : (if s.portState p = 1 then s.stepBack p else s) = s := if_neg (by omega)
  simp [State.portTouch, hfirst, hv, hf]

end Touch

/-! ### Block lock and fault sequences -/

section Port
variable {s : State} {p : Nat} (hp : p < 128) (hs : s.portState p ≠ 0)
include hp

theorem exec_blockLockRegained (h2 : 2 ≤ s.portState p) : exec (.blockLockRegained p) s =
    .next ((s.setLinePort p { s.linePort p with unlocked := false }).portTouch p) :=
  if_pos ⟨hp, h2⟩

include hs

theorem exec_lossOfBlockLock (h6 : 6 ≤ (s.linePort p).step) : exec (.lossOfBlockLock p) s =
    .next ((s.setLinePort p { s.linePort p with unlocked := true }).portTouch p) :=
  if_pos ⟨hp, hs, h6⟩

theorem exec_faultSequenceReceive (isLocal on : Bool) : exec (.faultSequenceReceive p isLocal on) s =
    .next ((s.setLinePort p (if isLocal then { s.linePort p with rxLocal := on } else { s.linePort p with rxRemote := on })).portTouch p) :=
  if_pos ⟨hp, hs⟩

end Port

/-- The FEC counts where it has codeword lock, and there alone. -/
theorem State.fecCount_unlocked {s : State} {p : Nat} (h : s.rd (LPT_STAT.fec_lock p) = 0) (cor unc sym : Nat) :
    s.fecCount p cor unc sym = s := by
  simp [State.fecCount, State.bit, h]

theorem State.fecCount_locked {s : State} {p : Nat} (h : s.rd (LPT_STAT.fec_lock p) = 1) (cor unc sym : Nat) :
    s.fecCount p cor unc sym = ((s.addSat (LPT_FECCOR.count p) cor).addSat (LPT_FECUNC.count p) unc).addSat (LPT_FECSYM.count p) sym := by
  simp [State.fecCount, State.bit, h]

end Sys2Proof.Machine

namespace Sys2Proof
open Machine Claims

/-- R436, R459, R462: what the MAC of an UP port does with a whole frame. -/
theorem frameTaken {s : State} {p start cor unc sym : Nat} {f : List Nat} {bad : Bool} (hp : p < 128)
    (hl : ((s.fecCount p cor unc sym).linePort p).leftAt ≤ start) (hb : (s.fecCount p cor unc sym).bridgeUp = true)
    (hs : (s.fecCount p cor unc sym).portState p = 2) :
    let v := s.fecCount p cor unc sym
    let go := exec (.frameReceive p f start none bad cor unc sym) s
    (bad = true → v.rd (LPT_CFG.fec p) ≠ 0 → go = .next (v.inc (LPT_RXFCS.count p))) ∧
    (fcsOk f = false → go = .next (v.inc (LPT_RXFCS.count p))) ∧
    (bad = false → fcsOk f = true → f.length < 64 → go = .next (v.inc (LPT_RXRUNT.count p))) ∧
    (bad = false → fcsOk f = true → 64 ≤ f.length → v.rd (LPT_MAXLEN.max_len p) < f.length → go = .next (v.inc (LPT_RXOVER.count p))) ∧
    (bad = false → goodFrame v p f → go = .next (if beNat (sliceB f 12 2) = 0x8808 then v.macControl p f
      else v.macPass p f (s.clk - start))) := by
  intro v go
  have hgo : go = .next (v.macTake p f (s.clk - start) false (bad && v.rd (LPT_CFG.fec p) != 0)) := exec_frameReceive_up hp hl hb hs
  refine ⟨fun hbad hfec => ?_, fun hf => ?_, fun hbad hf hmin => ?_, fun hbad hf hmin hmax => ?_, fun hbad hg => ?_⟩
  · rw [hgo, State.macTake_badCheck _ _ _ _ (.inl (by simp [hbad, hfec]))]
  · rw [hgo, State.macTake_badCheck _ _ _ _ (.inr hf)]
  · rw [hgo, hbad, Bool.false_and, State.macTake_checked _ hf, if_pos hmin]
  · rw [hgo, hbad, Bool.false_and, State.macTake_checked _ hf, if_neg (Nat.not_lt.mpr hmin), if_pos hmax]
  · rw [hgo, hbad, Bool.false_and, State.macTake_good _ hg]

/-- Settles O49: the receive chain check by check, the choice of the next frame to send, and the fault condition. -/
theorem lineFrames : Obligations.LineFrames := by
  refine ⟨fun s p f start bad cor unc sym hp => ⟨fun ln n hln hst => exec_frameReceive_cut hp hln hst, fun h => ?early, fun hl hs => ?down,
      fun hl hs hb => ?lost, fun hl hb hs => ?pending, fun hl hb hs => ?up⟩,
    fun s p cor unc sym => ⟨fun h => State.fecCount_unlocked h cor unc sym, fun h => State.fecCount_locked h cor unc sym⟩,
    fun s p cls hp => ?send, fun s p b h => State.startFrame_line h p b,
    fun s p => ⟨State.portTouch_pending, State.portTouch_up, State.portTouch_back, State.portTouch_waits⟩, State.faultCause_eq_zero,
    fun s p hp hs => ⟨exec_lossOfBlockLock hp hs, exec_blockLockRegained hp,
      fun on => ⟨exec_faultSequenceReceive hp hs true on, exec_faultSequenceReceive hp hs false on⟩⟩⟩
  case early => rw [exec_frameReceive hp rfl, if_pos h]
  case down => rw [exec_frameReceive hp rfl, if_neg (Nat.not_lt.mpr hl), if_pos hs]
  case lost => rw [exec_frameReceive hp rfl, if_neg (Nat.not_lt.mpr hl), if_neg (Nat.not_lt.mpr hs), if_pos hb]
  case pending =>
    rw [exec_frameReceive hp rfl, if_neg (Nat.not_lt.mpr hl), if_neg (by omega), if_neg (by simp [hb]), if_pos hs]
  case up =>
    obtain ⟨hcode, hfcs, hrunt, hover, hgood⟩ := frameTaken (f := f) (bad := bad) hp hl hb hs
    refine ⟨hcode, hfcs, hrunt, hover, fun hbad hg he => ⟨fun h1 => ?_, fun h1 h2 => ?_⟩, fun hbad hg he hr => ?_⟩
    · rw [hgood hbad hg, if_pos he, State.macControl_pause _ _ _ h1]
    · rw [hgood hbad hg, if_pos he, State.macControl_other _ _ _ h1 h2]
    · rw [hgood hbad hg, if_neg he, State.macPass_eq]
      refine ⟨_, rfl, ?_, rfl, State.fecCount_lpt .., State.fecCount_qm .., State.fecCount_bpm ..⟩
      simp only [State.fecCount_eng]
      exact Tbl.get_set_self [] hr _ _
  case send =>
    intro v m h2 hfree
    exact ⟨fun x y rest hq => exec_frameTransmit_pfc hp h2 hfree hq, fun k rest hq hw =>
      ⟨exec_frameTransmit_errored hp h2 hfree hq hw, fun he hh => exec_frameTransmit_held hp h2 hfree hq hw he (.inl hh),
        fun he hh => exec_frameTransmit_held hp h2 hfree hq hw he (.inr hh), exec_frameTransmit_sent hp h2 hfree hq hw⟩⟩

end Sys2Proof
end

section
/-! SUPPORT. How the operations of an engine program run (R62 to R66): one alone in its bundle, or one of three, down to the commit of the bundle. -/
namespace Sys2Proof.Machine
open Sys2Proof.Claims

/-! ### The ply of a bundle under way -/

/-- The ply on a context with its bundle under way, which has asked for `i` so far. -/
def during (p : Ply) (i : Issue) : Ply := { began p with issue := some i }

/-- What a bundle has asked for after the operation in a slot: its predicate may gate it off (R63). -/
def asks (s : State) (p : Ply) (slot : Nat) (f : Nat → Ply → EOp → Issue → Issue) (i : Issue) : Issue :=
  if (opAt s p slot).gated p then f (s.rd (bankLen p.cluster p.bank)) (during p i) (opAt s p slot) i else i

theorem asks_gated {s : State} {p : Ply} {slot : Nat} (h : (opAt s p slot).gated p = true) (f : Nat → Ply → EOp → Issue → Issue) (i : Issue) :
    asks s p slot f i = f (s.rd (bankLen p.cluster p.bank)) (during p i) (opAt s p slot) i := if_pos h

theorem asks_off {s : State} {p : Ply} {slot : Nat} (h : (opAt s p slot).gated p = false) (f : Nat → Ply → EOp → Issue → Issue) (i : Issue) :
    asks s p slot f i = i := if_neg (by simp [h])

/-- Counting a bundle leaves every other register. -/
theorem counted_rd (s : State) (p : Ply) {f : Fld} (h : f.key ≠ (ENG_BUNDLECNT.count p.cluster).key) : (counted s p).rd f = s.rd f :=
  s.rd_wr_ne _ h

theorem counted_bankLen (s : State) (p : Ply) (c b : Nat) : (counted s p).rd (bankLen c b) = s.rd (bankLen c b) :=
  s.startBundle_len p c b

theorem counted_watchdogDue (s : State) (p : Ply) : (counted s p).watchdogDue p = s.watchdogDue p := by
  have hk : (ENG_LIMITS.ctx_wd p.cluster).key ≠ (ENG_BUNDLECNT.count p.cluster).key := by
    simp only [Fld.key, ENG_LIMITS.ctx_wd, ENG_BUNDLECNT.count]; omega
  unfold State.watchdogDue
  rw [counted_rd s p hk]
  rfl

/-- A ply that goes on after a bundle. -/
theorem onward_began (p : Ply) (pc : Nat) : (began p).onward pc = goes p pc := by
  simp [Ply.onward, began, goes]

theorem issue_ready {s : State} {k : Nat} {p : Ply} (h : Ready s k p) : p.issue = none := h.2.2.2.2.1

theorem parked_ready {s : State} {k : Nat} {p : Ply} (h : Ready s k p) : p.parked = [] := h.2.1

/-! ### From an issued operation to the commit of its bundle -/

/-- A state that holds the instruction stores and the loaded lengths of `s`: what an operation of the bundle at which `p` stands reads of it. -/
def SameProgram (s v : State) (p : Ply) : Prop :=
  bundleAt v p = bundleAt s p ∧ v.rd (bankLen p.cluster p.bank) = s.rd (bankLen p.cluster p.bank)

theorem sameProgram_counted (s : State) (p : Ply) : SameProgram s (counted s p) p := ⟨rfl, counted_bankLen s p _ _⟩

theorem sameProgram_setPly (s : State) (k : Nat) (p q : Ply) : SameProgram s ((counted s p).setPly k q) p := sameProgram_counted s p

theorem runOp_more {s v : State} {k slot n : Nat} {p : Ply} (hv : SameProgram s v p) (i : Issue)
    (hn : nextSlot (bundleAt s p) (slot + 1) = some n) (f : Nat → Ply → EOp → Issue → Issue) :
    v.runOp k (during p i) i slot f = v.setPly k (during p { asks s p slot f i with slot := n }) := by
  obtain ⟨hw, hl⟩ := hv
  have hw' : v.bundle (during p i).cluster (during p i).bank (during p i).pc = bundleAt s p := hw
  have hl' : v.rd (bankLen (during p i).cluster (during p i).bank) = s.rd (bankLen p.cluster p.bank) := hl
  simp only [State.runOp, hw', hl', hn]
  rfl

theorem runOp_last {s v : State} {k slot : Nat} {p : Ply} (hv : SameProgram s v p) (i : Issue)
    (hn : nextSlot (bundleAt s p) (slot + 1) = none) (f : Nat → Ply → EOp → Issue → Issue) :
    v.runOp k (during p i) i slot f = v.commit k (during p i) (asks s p slot f i) := by
  obtain ⟨hw, hl⟩ := hv
  have hw' : v.bundle (during p i).cluster (during p i).bank (during p i).pc = bundleAt s p := hw
  have hl' : v.rd (bankLen (during p i).cluster (during p i).bank) = s.rd (bankLen p.cluster p.bank) := hl
  simp only [State.runOp, hw', hl', hn]
  rfl

theorem issueOp_alone {s : State} {k opc slot : Nat} {p : Ply} (h : Alone s k p slot opc) (f : Nat → Ply → EOp → Issue → Issue) :
    s.issueOp opc k f = (counted s p).commit k (during p {}) (asks s p slot f {}) := by
  obtain ⟨⟨hp, hs, hx, he, hi, hpc, hbud, hecc, hb⟩, hn, hl, ho⟩ := h
  exact State.issueOp_alone hp hs hx he hi (State.startFault_none hpc hbud hecc) hb hn hl ho

/-- An operation alone in its bundle that its predicate lets execute. -/
theorem issueOp_runs {s : State} {k opc slot : Nat} {p : Ply} (h : Runs s k p slot opc) (f : Nat → Ply → EOp → Issue → Issue) :
    s.issueOp opc k f = (counted s p).commit k (during p {}) (f (s.rd (bankLen p.cluster p.bank)) (during p {}) (opAt s p slot) {}) := by
  rw [issueOp_alone h.1, asks_gated h.2]

/-- The first of several operations of a bundle is recorded. -/
theorem issueOp_first {s : State} {k opc slot n : Nat} {p : Ply} (h : Ready s k p) (hn : nextSlot (bundleAt s p) 0 = some slot)
    (hl : nextSlot (bundleAt s p) (slot + 1) = some n) (ho : (opAt s p slot).opcode = opc) (f : Nat → Ply → EOp → Issue → Issue) :
    s.issueOp opc k f = (counted s p).setPly k (during p { asks s p slot f {} with slot := n }) := by
  obtain ⟨hp, hs, hx, he, hi, hpc, hbud, hecc, hb⟩ := h
  rw [State.issueOp_first hp hs hx he hi (State.startFault_none hpc hbud hecc) hb hn ho]
  exact runOp_more (sameProgram_counted s p) {} hl f

section UnderWay
variable {s : State} {k opc : Nat} {p : Ply} {i : Issue} (hs : p.parked = []) (ho : (opAt s p i.slot).opcode = opc)
include hs ho

theorem issueOp_underWay (f : Nat → Ply → EOp → Issue → Issue) : ((counted s p).setPly k (during p i)).issueOp opc k f =
    ((counted s p).setPly k (during p i)).runOp k (during p i) i i.slot f := by
  unfold State.issueOp
  simp only [State.ply_setPly]
  rw [if_neg (by simp [State.canRun, during, began, hs]), if_neg (by simp [during, began])]
  exact if_pos ho

/-- A further operation of a bundle under way is recorded with those before it. -/
theorem issueOp_middle {n : Nat} (hn : nextSlot (bundleAt s p) (i.slot + 1) = some n) (f : Nat → Ply → EOp → Issue → Issue) :
    ((counted s p).setPly k (during p i)).issueOp opc k f = (counted s p).setPly k (during p { asks s p i.slot f i with slot := n }) := by
  rw [issueOp_underWay hs ho, runOp_more (sameProgram_setPly s k p _) i hn, State.setPly_setPly]

/-- The last operation of a bundle commits it. -/
theorem issueOp_last (hn : nextSlot (bundleAt s p) (i.slot + 1) = none) (f : Nat → Ply → EOp → Issue → Issue) :
    ((counted s p).setPly k (during p i)).issueOp opc k f =
      ((counted s p).setPly k (during p i)).commit k (during p i) (asks s p i.slot f i) := by
  rw [issueOp_underWay hs ho, runOp_last (sameProgram_setPly s k p _) i hn]

end UnderWay

/-! ### The commit of a bundle (R62) -/

theorem withWrites_id {p : Ply} (h : p.issue = none) {i : Issue} (hr : i.regs = []) (hq : i.preds = []) : p.withWrites i = p := by
  obtain ⟨⟩ := p; cases h
  simp [Ply.withWrites, hr, hq]

theorem putReg_foldl : ∀ (l : List (Nat × Word64)) (p : Ply), l.foldl (fun q w => putReg q w.1 w.2) p =
    { p with g := l.foldl (fun t w => if w.1 = 0 then t else Tbl.set 0 t w.1 w.2) p.g }
  | [], _ => rfl
  | w :: l, p => by
    rw [List.foldl_cons, putReg_foldl l, List.foldl_cons]
    by_cases hr : w.1 = 0 <;> simp [putReg, hr]

/-- A bundle writes its registers in the order of its slots. -/
theorem withWrites_regs {p : Ply} (h : p.issue = none) {i : Issue} (hq : i.preds = []) :
    p.withWrites i = i.regs.foldl (fun q w => putReg q w.1 w.2) p := by
  rw [putReg_foldl]
  obtain ⟨⟩ := p; cases h
  simp only [Ply.withWrites, hq, List.foldl_nil]

theorem withWrites_pred {p : Ply} (h : p.issue = none) (r : Nat) (b : Bool) : p.withWrites { preds := [(r, b)] } = putPred p r b := by
  obtain ⟨⟩ := p; cases h
  by_cases hr : r = 0 <;> simp [Ply.withWrites, putPred, hr]

section Commit
variable (s : State) (k : Nat) (p : Ply) (j : Issue) {i : Issue}

/-- A bundle that only writes registers and predicates. -/
theorem commit_writes (hm : i.mem = none) (hc : i.call = none) (hf : i.fin = none) :
    s.commit k (during p j) i = s.setPly k (past (p.withWrites i)) := by
  rw [State.commit_plain hm hc hf]
  exact congrArg (s.setPly k) (onward_began (p.withWrites i) _)

/-- An access that ends its ply. -/
theorem commit_mem_fault {m : MemAcc} {c d : Nat} (hm : i.mem = some m) (hf : i.fin = none)
    (ha : s.memAccess (began (p.withWrites i)) m = .inl (c, d)) : s.commit k (during p j) i = s.accFault k (began (p.withWrites i)) c d := by
  have ha' : s.memAccess ((during p j).withWrites i) m = .inl (c, d) := ha
  simp only [State.commit, hm, hf, ha']
  rfl

/-- An access after which the ply, left as `q`, goes on. -/
theorem commit_mem {m : MemAcc} {t : State} {q : Ply} (hm : i.mem = some m) (hc : i.call = none) (hf : i.fin = none)
    (ha : s.memAccess (began (p.withWrites i)) m = .inr (t, began q)) : s.commit k (during p j) i = t.setPly k (past q) := by
  have ha' : s.memAccess ((during p j).withWrites i) m = .inr (t, began q) := ha
  simp only [State.commit, hm, hf, hc, ha', onward_began]
  rfl

/-- A call that ends its ply. -/
theorem commit_call_fault {a : CallAcc} {c d : Nat} (hm : i.mem = none) (hc : i.call = some a) (hf : i.fin = none)
    (ha : s.callAccess k (began (p.withWrites i)) a = .inl (c, d)) : s.commit k (during p j) i = s.accFault k (began (p.withWrites i)) c d := by
  have ha' : s.callAccess k ((during p j).withWrites i) a = .inl (c, d) := ha
  simp only [State.commit, hm, hf, hc, ha']
  rfl

/-- A call after which the ply, left as `q`, goes on or parks. -/
theorem commit_call {a : CallAcc} {t : State} {q : Ply} (hm : i.mem = none) (hc : i.call = some a) (hf : i.fin = none)
    (ha : s.callAccess k (began (p.withWrites i)) a = .inr (t, began q)) : s.commit k (during p j) i = t.setPly k (past q) := by
  have ha' : s.callAccess k ((during p j).withWrites i) a = .inr (t, began q) := ha
  simp only [State.commit, hm, hf, hc, ha', onward_began]
  rfl

end Commit

/-- A fault of the ply that is not FRAME_ECC. -/
theorem accFault_plain (s : State) (k : Nat) (p : Ply) {c : Nat} (hc : c ≠ 8) (d : Nat) : s.accFault k p c d = (s.setPly k p).plyFault k c d :=
  if_neg hc

theorem accFault_ecc (s : State) (k : Nat) (p : Ply) (d : Nat) :
    s.accFault k p 8 d = ((s.setPly k p).plyFault k 8 0).eccSeen p.cluster p.slot := by
  simp [State.accFault, State.frameEcc]

/-! ### The operations of *Opcodes* as the issue of one operation -/

theorem exec_aluRows : ∀ row ∈ aluRows, ∀ k s, exec (row.1 k) s = .next (s.issueOp row.2.1 k (aluOp row.2.2)) := by
  simp only [aluRows, List.forall_mem_cons, List.not_mem_nil, IsEmpty.forall_iff, implies_true, and_true]
  and_intros <;> exact fun _ _ => rfl

/-- The value of an ALU operation is read from the registers and predicates alone. -/
theorem aluRows_during : ∀ row ∈ aluRows, ∀ p i o, row.2.2 (during p i) o = row.2.2 p o := by
  simp only [aluRows, List.forall_mem_cons, List.not_mem_nil, IsEmpty.forall_iff, implies_true, and_true]
  and_intros <;> exact fun _ _ _ => rfl

/-- An operation that writes a predicate. -/
def predWrite (g : Ply → EOp → Bool) (_len : Nat) (p : Ply) (o : EOp) (i : Issue) : Issue := { i with preds := i.preds ++ [(o.rd % 8, g p o)] }

theorem exec_predRows : ∀ row ∈ predRows, ∀ k s, exec (row.1 k) s = .next (s.issueOp row.2.1 k (predWrite row.2.2)) := by
  simp only [predRows, List.forall_mem_cons, List.not_mem_nil, IsEmpty.forall_iff, implies_true, and_true]
  and_intros <;> exact fun _ _ => rfl

theorem predRows_during : ∀ row ∈ predRows, ∀ p i o, row.2.2 (during p i) o = row.2.2 p o := by
  simp only [predRows, List.forall_mem_cons, List.not_mem_nil, IsEmpty.forall_iff, implies_true, and_true]
  and_intros <;> exact fun _ _ _ => rfl

theorem exec_loadRows : ∀ row ∈ loadRows, ∀ k s, exec (row.1 k) s = .next (s.issueOp row.2.1 k (loadOp row.2.2)) := by
  simp only [loadRows, List.forall_mem_cons, List.not_mem_nil, IsEmpty.forall_iff, implies_true, and_true]
  and_intros <;> exact fun _ _ => rfl

theorem exec_storeRows : ∀ row ∈ storeRows, ∀ k s, exec (row.1 k) s = .next (s.issueOp row.2.1 k (storeOp row.2.2)) := by
  simp only [storeRows, List.forall_mem_cons, List.not_mem_nil, IsEmpty.forall_iff, implies_true, and_true]
  and_intros <;> exact fun _ _ => rfl

theorem exec_opRows : ∀ row ∈ opRows, ∃ f, ∀ k s, exec (row.1 k) s = .next (s.issueOp row.2 k f) := by
  simp only [opRows, aluRows, predRows, loadRows, storeRows, atomRows, List.map_cons, List.map_nil, List.cons_append, List.nil_append,
    List.forall_mem_cons, List.not_mem_nil, IsEmpty.forall_iff, implies_true, and_true]
  and_intros <;> exact ⟨_, fun _ _ => rfl⟩

end Sys2Proof.Machine

namespace Sys2Proof
open Machine Claims

/-- Settles O6: a gated operation adds nothing to what its bundle asks for, and an empty bundle commits as one more bundle counted. -/
theorem gatedOff : Obligations.GatedOff := by
  intro row hrow s k p slot ha hg
  obtain ⟨f, hf⟩ := exec_opRows row hrow
  rw [hf, issueOp_alone ha, asks_off hg, commit_writes _ _ _ _ rfl rfl rfl, withWrites_id (issue_ready ha.1) rfl rfl]
  rfl

theorem aluResults : Claims.AluResults := by
  refine ⟨fun s k p slot h => ?_, fun row hrow s k p slot h => ?_⟩
  · show Host.Outcome.next (s.issueOp 0x00 k (fun _ _ _ i => i)) = _
    rw [issueOp_runs h, commit_writes _ _ _ _ rfl rfl rfl, withWrites_id (issue_ready h.1.1) rfl rfl]
    rfl
  · rw [exec_aluRows row hrow, issueOp_runs h, commit_writes _ _ _ _ rfl rfl rfl, withWrites_regs (issue_ready h.1.1) rfl]
    simp only [aluOp, aluRows_during row hrow]
    rfl

theorem predicateResults : Claims.PredicateResults := by
  intro row hrow s k p slot h
  rw [exec_predRows row hrow, issueOp_runs h, commit_writes _ _ _ _ rfl rfl rfl, ← withWrites_pred (issue_ready h.1.1),
    ← predRows_during row hrow p {}]
  rfl

/-- Settles O1: each operation asks for its one write, and the bundle commits with it. -/
theorem operationsOnRegisters : Obligations.OperationsOnRegisters := ⟨aluResults, predicateResults⟩

end Sys2Proof
end

section
/-! SUPPORT. Loads, stores and atomics of the packet engines (R56 to R60): what each access answers, and what the bundle leaves. -/
namespace Sys2Proof.Machine
open Sys2Proof.Claims

/-! ### Bytes in network order -/

theorem leNat_leBytes : ∀ (n v : Nat), leNat (leBytes n v) = v % 256 ^ n
  | 0, v => by simp [leBytes, leNat, Nat.mod_one]
  | n + 1, v => by
    rw [leBytes, leNat, leNat_leBytes n (v / 256), Nat.mod_mod, Nat.pow_succ', Nat.mod_mul]

theorem beNat_reverse (l : List Nat) : beNat l.reverse = leNat l := by
  unfold beNat
  rw [List.foldl_reverse]
  induction l with
  | nil => rfl
  | cons b r ih => rw [List.foldr_cons, ih, leNat]; omega

theorem beNat_beBytes (n v : Nat) : beNat (beBytes n v) = v % 256 ^ n := by
  rw [beBytes, beNat_reverse, leNat_leBytes]

theorem leBytes_length : ∀ (n v : Nat), (leBytes n v).length = n
  | 0, _ => rfl
  | n + 1, v => by rw [leBytes, List.length_cons, leBytes_length n]

theorem leBytes_lt : ∀ (n v : Nat), ∀ b ∈ leBytes n v, b < 256
  | 0, _ => by simp [leBytes]
  | n + 1, v => by
    simp only [leBytes, List.forall_mem_cons]
    exact ⟨Nat.mod_lt _ (by decide), leBytes_lt n _⟩

/-! ### Program data -/

theorem State.setPdata_cons (s : State) (c o b : Nat) (r : List Nat) : s.setPdata c o (b :: r) = (s.setPdata c o [b]).setPdata c (o + 1) r := rfl

theorem State.pdataByte_setPdata_below : ∀ (l : List Nat) (s : State) (c o j : Nat), j < o → (s.setPdata c o l).pdataByte c j = s.pdataByte c j
  | [], _, _, _, _, _ => rfl
  | b :: r, s, c, o, j, h => by
    rw [State.setPdata_cons, pdataByte_setPdata_below r _ c (o + 1) j (by omega)]
    exact congrArg BitVec.toNat (Tbl.get_set_ne _ _ _ (by omega))

/-- Program data just written reads back. -/
theorem State.pdataByte_setPdata : ∀ (l : List Nat) {s : State} (c o : Nat), Tbl.risingFrom 0 s.eng.pdata = true → (∀ b ∈ l, b < 256) →
    (List.range l.length).map (fun i => (s.setPdata c o l).pdataByte c (o + i)) = l
  | [], _, _, _, _, _ => rfl
  | b :: r, s, c, o, h, hl => by
    obtain ⟨hb, hr⟩ := List.forall_mem_cons.mp hl
    have hself : (s.setPdata c o [b]).pdataByte c o = b := by
      show BitVec.toNat (Tbl.get 0 (Tbl.set (0 : Byte) _ _ _) _) = b
      rw [Tbl.get_set_self _ h, BitVec.toNat_ofNat, Nat.mod_eq_of_lt hb]
    have ih := pdataByte_setPdata r (s := s.setPdata c o [b]) c (o + 1) (Tbl.rising_set _ _ _ h) hr
    rw [List.length_cons, List.range_succ_eq_map, List.map_cons, List.map_map, State.setPdata_cons, Nat.add_zero o,
      State.pdataByte_setPdata_below r _ c (o + 1) o (by omega), hself]
    refine congrArg (b :: ·) (Eq.trans (List.map_congr_left fun i _ => ?_) ih)
    simp only [Function.comp, Nat.succ_eq_add_one, Nat.add_assoc, Nat.add_comm 1 i]

/-- The eight bytes that an atomic leaves are what the next one reads. -/
theorem regionBytes_setPdata {s : State} (h : Tbl.risingFrom 0 s.eng.pdata = true) (p : Ply) (o : Nat) (v : Word64) :
    BitVec.ofNat 64 (beNat ((s.setPdata p.cluster o (beBytes 8 v.toNat)).regionBytes p (.prog o) 8)) = v := by
  have hl : (beBytes 8 v.toNat).length = 8 := by rw [beBytes, List.length_reverse, leBytes_length]
  have hb : ∀ b ∈ beBytes 8 v.toNat, b < 256 := fun b hb => leBytes_lt 8 _ b (List.mem_reverse.mp hb)
  have hr : (s.setPdata p.cluster o (beBytes 8 v.toNat)).regionBytes p (.prog o) 8 = beBytes 8 v.toNat := by
    have he := State.pdataByte_setPdata _ p.cluster o h hb
    rwa [hl] at he
  rw [hr, beNat_beBytes]
  exact BitVec.eq_of_toNat_eq (by rw [BitVec.toNat_ofNat]; omega)

/-! ### What an access answers -/

/-- An operation that asks for a memory access. -/
def memOp (m : Ply → EOp → MemAcc) (_len : Nat) (p : Ply) (o : EOp) (i : Issue) : Issue := { i with mem := some (m p o) }

section Access
variable {s : State} {p : Ply} {a w : Nat}

theorem regionBytes_counted (s : State) (p q : Ply) (r : Region) (n : Nat) :
    (counted s q).regionBytes (began p) r n = s.regionBytes p r n := by
  cases r <;> rfl

/-- The register that a load or an atomic writes. -/
theorem began_putReg (p : Ply) (r : Nat) (v : Word64) :
    began (putReg p r v) = if r = 0 then began p else { began p with g := Tbl.set 0 p.g r v } := by
  unfold putReg; split <;> rfl

theorem memAccess_load {r : Region} (rd : Nat) (ha : a % w = 0) (hr : locate a w = some r) (he : (∃ o, r = .prog o) ∨ p.ecc = false) :
    s.memAccess (began p) (.load rd a w) = .inr (s, began (putReg p rd (BitVec.ofNat 64 (beNat (s.regionBytes (began p) r w))))) := by
  rw [began_putReg]
  cases r with
  | prog o => simp only [State.memAccess, ha, hr]; rfl
  | frame o | slot o =>
    have hecc : (began p).ecc = false := he.resolve_left (by simp)
    simp only [State.memAccess, ha, hr, hecc]; rfl

theorem memAccess_load_out (rd : Nat) (h : a % w ≠ 0 ∨ locate a w = none) : s.memAccess p (.load rd a w) = .inl (3, a) := by
  rcases h with h | h
  · simp [State.memAccess, h]
  · simp [State.memAccess, h]

/-- A load of the frame or the packet slot that meets an uncorrectable error there. -/
theorem memAccess_load_ecc {r : Region} (rd : Nat) (ha : a % w = 0) (hr : locate a w = some r) (hp : ∀ o, r ≠ .prog o) (he : p.ecc = true) :
    s.memAccess p (.load rd a w) = .inl (8, 0) := by
  cases r with
  | prog o => exact absurd rfl (hp o)
  | frame o | slot o => simp [State.memAccess, ha, hr, he]

theorem memAccess_store_frame {o : Nat} (v : Word64) (ha : a % w = 0) (hr : locate a w = some (.frame o))
    (ho : ¬(o < 128 ∧ p.tags.contains (o / 32) = true)) :
    s.memAccess (began p) (.store a w v) = .inr (s, began { p with frame := putBytes p.frame o (beBytes w v.toNat) }) := by
  have ho' : ¬(o < 128 ∧ (began p).tags.contains (o / 32) = true) := ho
  simp only [State.memAccess, ha, hr, if_neg ho']; rfl

theorem memAccess_store_slot {o : Nat} (v : Word64) (ha : a % w = 0) (hr : locate a w = some (.slot o)) (ho : ¬(0x70 ≤ o ∧ o < 0x80)) :
    s.memAccess (began p) (.store a w v) = .inr (s, began { p with mem := putBytes p.mem o (beBytes w v.toNat) }) := by
  simp only [State.memAccess, ha, hr, if_neg ho]; rfl

theorem memAccess_store_prog {o : Nat} (v : Word64) (ha : a % w = 0) (hr : locate a w = some (.prog o)) :
    s.memAccess (began p) (.store a w v) = .inr (s.setPdata p.cluster o (beBytes w v.toNat), began p) := by
  simp only [State.memAccess, ha, hr]; rfl

theorem memAccess_store_out (v : Word64) (h : a % w ≠ 0 ∨ locate a w = none ∨ (∃ o, locate a w = some (.slot o) ∧ 0x70 ≤ o ∧ o < 0x80) ∨
    (∃ o, locate a w = some (.frame o) ∧ o < 128 ∧ p.tags.contains (o / 32) = true)) : s.memAccess p (.store a w v) = .inl (3, a) := by
  by_cases ha : a % w = 0
  · rcases h with h | h | ⟨o, h, hlo, hhi⟩ | ⟨o, h, hlo, ht⟩
    · exact absurd ha h
    · simp [State.memAccess, h]
    · simp [State.memAccess, h, hlo, hhi]
    · have ht' : o / 32 ∈ p.tags := by simpa using ht
      simp [State.memAccess, h, hlo, ht']
  · simp [State.memAccess, ha]

/-- What memory holds after an atomic (*Opcodes*). -/
def atomNew (op : Nat) (old v c : Word64) : Word64 :=
  match op with
  | 0 => old + v
  | 1 => v
  | 2 => if old = v then c else old
  | _ => if old.toNat < v.toNat then v else old

theorem memAccess_atom {o : Nat} (op rd : Nat) (v c : Word64) (ha : a % 8 = 0) (hr : locate a 8 = some (.prog o)) :
    let old := BitVec.ofNat 64 (beNat (s.regionBytes (began p) (.prog o) 8))
    s.memAccess (began p) (.atom op rd a v c) =
      .inr (s.setPdata p.cluster o (beBytes 8 (atomNew op old v c).toNat), began (putReg p rd old)) := by
  intro old
  rw [began_putReg]
  simp only [State.memAccess, ha, hr]; rfl

/-- An atomic outside program data or not aligned to 8 bytes. -/
theorem memAccess_atom_out (op rd : Nat) (v c : Word64) (h : a % 8 ≠ 0 ∨ ∀ o, locate a 8 ≠ some (.prog o)) :
    s.memAccess p (.atom op rd a v c) = .inl (3, a) := by
  by_cases ha : a % 8 = 0
  · simp only [State.memAccess, ha]
    cases hl : locate a 8 with
    | none => rfl
    | some r => cases r with
      | prog o => exact absurd hl (h.resolve_left (by simp [ha]) o)
      | frame o | slot o => rfl
  · simp [State.memAccess, ha]

end Access

/-- The address of an atomic, and its access. -/
def atomAddr (op : Nat) (p : Ply) (o : EOp) : Nat := if op = 2 then (p.reg o.ra).toNat else o.addr p
def atomAcc (op : Nat) (p : Ply) (o : EOp) : MemAcc := .atom op o.rd (atomAddr op p o) (p.reg o.rd) (p.reg (bitsAt o.b 13 5))

theorem exec_atomRows : ∀ row ∈ atomRows, ∃ op, (∀ k s, exec (row.1 k) s = .next (s.issueOp row.2.1 k (memOp (atomAcc op)))) ∧
    (∀ p o, atomAddr op p o = row.2.2.1 p o) ∧
    ∀ p o old, atomNew op old (p.reg o.rd) (p.reg (bitsAt o.b 13 5)) = row.2.2.2 p o old := by
  simp only [atomRows, List.forall_mem_cons, List.not_mem_nil, IsEmpty.forall_iff, implies_true, and_true]
  exact ⟨⟨0, fun _ _ => rfl, fun _ _ => rfl, fun _ _ _ => rfl⟩, ⟨1, fun _ _ => rfl, fun _ _ => rfl, fun _ _ _ => rfl⟩,
    ⟨2, fun _ _ => rfl, fun _ _ => rfl, fun _ _ _ => rfl⟩, ⟨3, fun _ _ => rfl, fun _ _ => rfl, fun _ _ _ => rfl⟩⟩

/-! ### The bundle of one access -/

section Bundle
variable {s : State} {k opc slot : Nat} {p : Ply} (h : Runs s k p slot opc)
include h

/-- The access succeeds and leaves the ply as `q`. -/
theorem issueOp_mem {m : Ply → EOp → MemAcc} {t : State} {q : Ply}
    (ha : (counted s p).memAccess (began p) (m (during p {}) (opAt s p slot)) = .inr (t, began q)) :
    s.issueOp opc k (memOp m) = t.setPly k (past q) := by
  rw [issueOp_runs h]
  refine commit_mem _ _ _ _ rfl rfl rfl ?_
  rw [withWrites_id (issue_ready h.1.1) rfl rfl]
  exact ha

theorem issueOp_mem_fault {m : Ply → EOp → MemAcc} {c d : Nat}
    (ha : (counted s p).memAccess (began p) (m (during p {}) (opAt s p slot)) = .inl (c, d)) :
    s.issueOp opc k (memOp m) = (counted s p).accFault k (began p) c d := by
  rw [issueOp_runs h, commit_mem_fault _ _ _ _ rfl rfl, withWrites_id (issue_ready h.1.1) rfl rfl]
  rw [withWrites_id (issue_ready h.1.1) rfl rfl]
  exact ha

end Bundle

/-- A load asks for its access. -/
theorem loadOp_eq (w : Nat) : loadOp w = memOp (fun p o => .load o.rd (o.addr p) w) := rfl

theorem storeOp_eq (w : Nat) : storeOp w = memOp (fun p o => .store (o.addr p) w (p.reg o.rd)) := rfl

end Sys2Proof.Machine

namespace Sys2Proof
open Machine Claims

theorem loadsAndStores : Claims.LoadsAndStores := by
  refine ⟨fun row hrow s k p slot r h ha hr he => ?load, fun row hrow s k p slot h ha => ?loadOut,
    fun row hrow s k p slot r h ha hr hp he => ?loadEcc, fun row hrow s k p slot o h ha hr ho => ?frame,
    fun row hrow s k p slot o h ha hr ho => ?slot, fun row hrow s k p slot o h ha hr => ?prog, fun row hrow s k p slot h ha => ?storeOut⟩
  case load =>
    rw [exec_loadRows row hrow, loadOp_eq, issueOp_mem h (memAccess_load _ ha hr he), regionBytes_counted]
    rfl
  case loadOut =>
    rw [exec_loadRows row hrow, loadOp_eq, issueOp_mem_fault h (memAccess_load_out _ ha), accFault_plain _ _ _ (by decide)]
    rfl
  case loadEcc =>
    rw [exec_loadRows row hrow, loadOp_eq, issueOp_mem_fault h (memAccess_load_ecc (p := began p) _ ha hr hp he), accFault_ecc]
    rfl
  case frame =>
    rw [exec_storeRows row hrow, storeOp_eq, issueOp_mem h (memAccess_store_frame _ ha hr ho)]
    rfl
  case slot =>
    rw [exec_storeRows row hrow, storeOp_eq, issueOp_mem h (memAccess_store_slot _ ha hr ho)]
    rfl
  case prog =>
    rw [exec_storeRows row hrow, storeOp_eq, issueOp_mem h (memAccess_store_prog _ ha hr)]
    rfl
  case storeOut =>
    rw [exec_storeRows row hrow, storeOp_eq, issueOp_mem_fault h (memAccess_store_out (p := began p) _ ha), accFault_plain _ _ _ (by decide)]
    rfl

theorem atomics : Claims.Atomics := by
  refine ⟨fun row hrow s k p slot o h ha hr => ?_, fun row hrow s k p slot h ha => ?_, fun s p o v hs => regionBytes_setPdata hs p o v⟩
  · obtain ⟨op, hx, haddr, hnew⟩ := exec_atomRows row hrow
    intro old
    rw [← haddr] at ha hr
    rw [hx, issueOp_mem h (memAccess_atom op _ _ _ ha hr), regionBytes_counted, ← hnew]
    rfl
  · obtain ⟨op, hx, haddr, _⟩ := exec_atomRows row hrow
    rw [← haddr] at ha ⊢
    rw [hx, issueOp_mem_fault h (memAccess_atom_out op _ _ _ ha), accFault_plain _ _ _ (by decide)]
    rfl

/-- Settles O2: each operation asks for one access, and the bundle commits with what that access answers. -/
theorem loadsStoresAndAtomics : Obligations.LoadsStoresAndAtomics := ⟨loadsAndStores, atomics⟩

end Sys2Proof
end

section
/-! SUPPORT. Bundles that end their ply, branch, or call an accelerator (R62, R68 to R78, R97, R100), and bundles of three operations. -/
namespace Sys2Proof.Machine
open Sys2Proof.Claims

/-! ### The end of a bundle -/

/-- The memory access of a bundle, if it has one. -/
def State.accessed (s : State) (p : Ply) : Option MemAcc → (Nat × Nat) ⊕ (State × Ply)
  | some m => s.memAccess p m
  | none => .inr (s, p)

/-- What slot 2 does with ply `k`, left as `q` by the rest of its bundle. -/
def State.bundleEnd (s : State) (k : Nat) (q : Ply) : BundleEnd → State
  | .go t => s.setPly k (q.onward t)
  | .done => (s.setPly k q).plyDone k
  | .drop r => (s.setPly k q).plyDrop k r
  | .trap c => (s.setPly k q).plyFault k 0 c
  | .recycle => (s.setPly k q).plyRecycle k
  | .fault c d => (s.setPly k q).plyFault k c d

/-- Slot 2 takes effect after the access of the bundle (R62), where no watchdog flag stands before it (R100). -/
theorem commit_end {s t : State} (k : Nat) {p q : Ply} (j : Issue) {i : Issue} {e : BundleEnd} (hf : i.fin = some e) (hc : i.call = none)
    (hw : (e.ends && s.watchdogDue p) = false) (ha : s.accessed (began (p.withWrites i)) i.mem = .inr (t, q)) :
    s.commit k (during p j) i = t.bundleEnd k q e := by
  have hw' : (i.fin.any BundleEnd.ends && s.watchdogDue (during p j)) = false := by rw [hf]; exact hw
  have ha' : s.accessed ((during p j).withWrites i) i.mem = .inr (t, q) := ha
  unfold State.commit
  rw [hw']
  cases hm : i.mem with
  | none =>
    rw [hm] at ha'
    obtain ⟨rfl, rfl⟩ := Prod.mk.inj (Sum.inr.inj ha')
    simp only [hc, hf]
    cases e <;> rfl
  | some m =>
    rw [hm] at ha'
    have ha'' : s.memAccess ((during p j).withWrites i) m = .inr (t, q) := ha'
    simp only [hc, hf, ha'']
    cases e <;> rfl

/-- Where the flag has fallen, the watchdog ends the ply before anything of the bundle takes effect. -/
theorem commit_watchdog {s : State} (k : Nat) {p : Ply} (j : Issue) {i : Issue} {e : BundleEnd} (hf : i.fin = some e) (he : e.ends = true)
    (hw : s.watchdogDue p = true) : s.commit k (during p j) i = s.plyFault k 2 0 := by
  have hw' : (i.fin.any BundleEnd.ends && s.watchdogDue (during p j)) = true := by rw [hf, Bool.and_eq_true]; exact ⟨he, hw⟩
  unfold State.commit
  exact if_pos hw'

/-! ### Ply ends (R74 to R78) -/

section End
variable {s : State} {k opc slot : Nat} {p : Ply} (h : Runs s k p slot opc)
include h

theorem issueOp_end {e : EOp → BundleEnd} (hw : s.watchdogDue p = false) :
    s.issueOp opc k (finOp e) = (counted s p).bundleEnd k (began p) (e (opAt s p slot)) := by
  rw [issueOp_runs h]
  refine commit_end k {} rfl rfl ?_ ?_
  · rw [counted_watchdogDue, hw, Bool.and_false]
  · rw [withWrites_id (issue_ready h.1.1) rfl rfl]
    rfl

theorem issueOp_end_watchdog {e : EOp → BundleEnd} (he : (e (opAt s p slot)).ends = true) (hw : s.watchdogDue p = true) :
    s.issueOp opc k (finOp e) = (counted s p).plyFault k 2 0 := by
  rw [issueOp_runs h]
  exact commit_watchdog k {} rfl he ((counted_watchdogDue s p).trans hw)

end End

section Done
variable {s : State} {k : Nat} {p : Ply} (hp : s.ply k = some p)
include hp

theorem frameEcc_of_ply : s.frameEcc k = (s.plyFault k 8 0).eccSeen p.cluster p.slot := by
  simp only [State.frameEcc, hp]

theorem plyDone_ecc (he : p.ecc = true) : s.plyDone k = (s.plyFault k 8 0).eccSeen p.cluster p.slot := by
  simp only [State.plyDone, hp, he, if_true, frameEcc_of_ply hp]

theorem plyDone_beyond {d : Nat} (he : p.ecc = false) (ho : p.output = .inl d) : s.plyDone k = s.plyFault k 3 d := by
  simp only [State.plyDone, hp, he, ho]
  rfl

theorem plyDone_egress {out : List Nat} (he : p.ecc = false) (ho : p.output = .inr out) (hx : p.egress = true) :
    let fwd := p.slotBytes 0x40 48
    let off := beNat (sliceB fwd 12 2)
    s.plyDone k = (s.freePly k).orderEnd true p.pkt.ord (some { p.pkt with
      bytes := out, fwd := fwd, tstamp := bitOf (leAt fwd 0 1) 3, tsCtl := if off < 4 then none else some (p.slotBytes (0x7C + off) 4) }) := by
  intro fwd off
  simp only [State.plyDone, hp, he, ho, hx]
  rfl

theorem plyDone_ingress {out : List Nat} (he : p.ecc = false) (ho : p.output = .inr out) (hx : p.egress = false) :
    let res := patchB (p.slotBytes 0x40 48) 7 [p.pkt.port % 256]
    s.plyDone k = ((s.freePly k).sampleIngress res
      { session := 0, pipe := p.pkt.pipe, source := 0, port := p.pkt.port, length := out.length,
        bytes := out.take (384 - beNat (sliceB res 12 2)), ns := p.pkt.ns, sec := p.pkt.sec }).orderEnd false p.pkt.ord
          (some { p.pkt with bytes := out, fwd := res }) := by
  intro res
  simp only [State.plyDone, hp, he, ho, hx]
  rfl

theorem plyDrop_eq (r : Nat) :
    s.plyDrop k r = (s.cntAdd true (s.rd ENG_DROPBASE.base + 256 * p.pkt.pipe + r) 1 p.pkt.bytes.length).endPly k := by
  simp only [State.plyDrop, hp]

theorem plyRecycle_full (hr : 3 ≤ p.pkt.recycle) : s.plyRecycle k = s.plyDrop k 255 := by
  simp only [State.plyRecycle, hp, if_pos hr]

theorem plyRecycle_ecc (hr : p.pkt.recycle < 3) (he : p.ecc = true) : s.plyRecycle k = (s.plyFault k 8 0).eccSeen p.cluster p.slot := by
  simp only [State.plyRecycle, hp, if_neg (Nat.not_le.mpr hr), he, if_true, frameEcc_of_ply hp]

theorem plyRecycle_beyond {d : Nat} (hr : p.pkt.recycle < 3) (he : p.ecc = false) (ho : p.output = .inl d) :
    s.plyRecycle k = s.plyFault k 3 d := by
  simp only [State.plyRecycle, hp, if_neg (Nat.not_le.mpr hr), he, ho]
  rfl

theorem plyRecycle_again {out : List Nat} (hr : p.pkt.recycle < 3) (he : p.ecc = false) (ho : p.output = .inr out) :
    let q : Packet :=
      { p.pkt with bytes := out, port := 128 + p.pkt.pipe, recycle := p.pkt.recycle + 1, entry := 2, fwd := [], ord := 0, inj := none }
    let v := s.endPly k
    s.plyRecycle k = { v with eng := { v.eng with arriving := Tbl.upd [] v.eng.arriving p.pkt.pipe (fun l => l ++ [q]) } } := by
  intro q v
  simp only [State.plyRecycle, hp, if_neg (Nat.not_le.mpr hr), he, ho]
  rfl

end Done

theorem ply_issued (s : State) (k : Nat) (p q : Ply) : (issued s k p q).ply k = some q := State.ply_setPly ..

/-- The base of the drop counters, as it stands after the bundle is counted. -/
theorem issued_dropBase (s : State) (k : Nat) (p q : Ply) : (issued s k p q).rd ENG_DROPBASE.base = s.rd ENG_DROPBASE.base := by
  refine (State.rd_congr (State.setPly_regs ..) _).trans (counted_rd s p ?_)
  simp only [Fld.key, ENG_DROPBASE.base, ENG_BUNDLECNT.count]; omega

/-! ### Accelerator calls (R68, R69) -/

section Access
variable {s : State} (k : Nat) {p : Ply} {rd a imm : Nat}

theorem callAccess_call (ht : p.tags.contains (callTag imm) = false) (he : p.ecc = false) :
    s.callAccess k (began p) (.call rd a imm) = .inr (s.present k p a imm,
      began { p with tags := insNat (callTag imm) p.tags, parked := [callTag imm], callRd := some (rd, callTag imm) }) := by
  unfold State.callAccess
  exact (if_neg (ne_true_of_eq_false ht)).trans ((if_neg (ne_true_of_eq_false he)).trans rfl)

theorem callAccess_calln (ht : p.tags.contains (callTag imm) = false) (he : p.ecc = false) :
    s.callAccess k (began p) (.calln a imm) = .inr (s.present k p a imm, began { p with tags := insNat (callTag imm) p.tags }) := by
  unfold State.callAccess
  exact (if_neg (ne_true_of_eq_false ht)).trans ((if_neg (ne_true_of_eq_false he)).trans rfl)

/-- A tag with a call outstanding. -/
theorem callAccess_busy (ht : p.tags.contains (callTag imm) = true) :
    s.callAccess k p (.call rd a imm) = .inl (5, callTag imm) ∧ s.callAccess k p (.calln a imm) = .inl (5, callTag imm) := by
  simp only [State.callAccess, ht, if_true, and_self]

theorem callAccess_ecc (ht : p.tags.contains (callTag imm) = false) (he : p.ecc = true) :
    s.callAccess k p (.call rd a imm) = .inl (8, 0) ∧ s.callAccess k p (.calln a imm) = .inl (8, 0) := by
  simp only [State.callAccess, ht, he, if_true, Bool.false_eq_true, if_false, and_self]

theorem callAccess_post (hn : p.posts < 8) (he : p.ecc = false) :
    s.callAccess k (began p) (.post a imm) = .inr (s.present k p a imm, began { p with posts := p.posts + 1 }) := by
  unfold State.callAccess
  exact (if_neg (Nat.not_le.mpr hn)).trans ((if_neg (ne_true_of_eq_false he)).trans rfl)

theorem callAccess_post_limit (hn : 8 ≤ p.posts) : s.callAccess k p (.post a imm) = .inl (6, 0) := if_pos hn

theorem callAccess_post_ecc (hn : p.posts < 8) (he : p.ecc = true) : s.callAccess k p (.post a imm) = .inl (8, 0) := by
  simp only [State.callAccess, if_neg (Nat.not_le.mpr hn), he, if_true]

end Access

/-- An operation that asks for an accelerator. -/
def accelOp (c : Ply → EOp → CallAcc) (_len : Nat) (p : Ply) (o : EOp) (i : Issue) : Issue := { i with call := some (c p o) }

section Call
variable {s : State} {k opc slot : Nat} {p : Ply} (h : Runs s k p slot opc)
include h

/-- The call is taken and leaves the ply as `q`. -/
theorem issueOp_call {c : Ply → EOp → CallAcc} {t : State} {q : Ply}
    (ha : (counted s p).callAccess k (began p) (c (during p {}) (opAt s p slot)) = .inr (t, began q)) :
    s.issueOp opc k (accelOp c) = t.setPly k (past q) := by
  rw [issueOp_runs h]
  refine commit_call _ _ _ _ rfl rfl rfl ?_
  rw [withWrites_id (issue_ready h.1.1) rfl rfl]
  exact ha

theorem issueOp_call_fault {c : Ply → EOp → CallAcc} {n d : Nat}
    (ha : (counted s p).callAccess k (began p) (c (during p {}) (opAt s p slot)) = .inl (n, d)) :
    s.issueOp opc k (accelOp c) = (counted s p).accFault k (began p) n d := by
  have hid := fun i hr hq => withWrites_id (i := i) (issue_ready h.1.1) hr hq
  rw [issueOp_runs h, commit_call_fault _ _ _ _ rfl rfl rfl (by rw [hid _ rfl rfl]; exact ha), hid _ rfl rfl]

end Call

/-! ### Bundles of three operations (R62) -/

theorem nextSlot_allThree {s : State} {p : Ply} {o0 o1 o2 : Nat} (h : AllThree s p o0 o1 o2) :
    nextSlot (bundleAt s p) 0 = some 0 ∧ nextSlot (bundleAt s p) 1 = some 1 ∧ nextSlot (bundleAt s p) 2 = some 2 ∧
      nextSlot (bundleAt s p) 3 = none := by
  obtain ⟨⟨h0, h1, h2⟩, _⟩ := h
  simp [nextSlot, List.filter, h0, h1, h2]

section Three
variable {s : State} {k o0 o1 o2 : Nat} {p : Ply} (hr : Ready s k p) (h : AllThree s p o0 o1 o2) (f0 f1 f2 : Nat → Ply → EOp → Issue → Issue)

/-- What the bundle asks for after slot 0, and after slot 1. -/
def asked0 (s : State) (p : Ply) (f0 : Nat → Ply → EOp → Issue → Issue) : Issue :=
  { f0 (s.rd (bankLen p.cluster p.bank)) (during p {}) (opAt s p 0) {} with slot := 1 }
def asked1 (s : State) (p : Ply) (f0 f1 : Nat → Ply → EOp → Issue → Issue) : Issue :=
  { f1 (s.rd (bankLen p.cluster p.bank)) (during p (asked0 s p f0)) (opAt s p 1) (asked0 s p f0) with slot := 2 }

include hr h

theorem issueOp_slot0 : s.issueOp o0 k f0 = (counted s p).setPly k (during p (asked0 s p f0)) := by
  obtain ⟨hn0, hn1, _⟩ := nextSlot_allThree h
  obtain ⟨_, ⟨ho, _⟩, hg, _⟩ := h
  rw [issueOp_first hr hn0 hn1 ho, asks_gated hg]
  rfl

theorem issueOp_slot1 : ((counted s p).setPly k (during p (asked0 s p f0))).issueOp o1 k f1 =
    (counted s p).setPly k (during p (asked1 s p f0 f1)) := by
  obtain ⟨_, _, hn2, _⟩ := nextSlot_allThree h
  obtain ⟨_, ⟨_, ho, _⟩, _, hg, _⟩ := h
  rw [issueOp_middle (i := asked0 s p f0) (parked_ready hr) ho hn2]
  exact congrArg (fun i : Issue => (counted s p).setPly k (during p { i with slot := 2 })) (asks_gated hg f1 _)

theorem issueOp_slot2 : ((counted s p).setPly k (during p (asked1 s p f0 f1))).issueOp o2 k f2 =
    ((counted s p).setPly k (during p (asked1 s p f0 f1))).commit k (during p (asked1 s p f0 f1))
      (f2 (s.rd (bankLen p.cluster p.bank)) (during p (asked1 s p f0 f1)) (opAt s p 2) (asked1 s p f0 f1)) := by
  obtain ⟨_, _, _, hn3⟩ := nextSlot_allThree h
  obtain ⟨_, ⟨_, _, ho⟩, _, _, hg⟩ := h
  rw [issueOp_last (i := asked1 s p f0 f1) (parked_ready hr) ho hn3]
  exact congrArg _ (asks_gated hg f2 _)

end Three

/-- The ply that a store to the packet slot leaves. -/
def stored (p : Ply) (o w : Nat) (v : Word64) : Ply := { p with mem := putBytes p.mem o (beBytes w v.toNat) }

/-- A branch whose target the load has checked. -/
theorem brOp_imm {o : EOp} (h : o.imm = true) (len : Nat) (p : Ply) (i : Issue) :
    brOp false len p o i = { i with fin := some (.go ((o.bVal p).toNat % 2 ^ 15)) } := by
  simp only [brOp, h, if_true]
  rfl

theorem putReg_mem (p : Ply) (r : Nat) (v : Word64) : (putReg p r v).mem = p.mem := by unfold putReg; split <;> rfl

/-- A register operation, a store to the packet slot, and slot 2 acting on what they leave. -/
theorem commit_aluStore {s : State} {k w o : Nat} {p : Ply} (hr : Ready s k p) {r0 : (Nat → Instr) × Nat × (Ply → EOp → Word64)}
    (h0 : r0 ∈ aluRows) (ha : (opAt s p 1).addr p % w = 0) (hl : locate ((opAt s p 1).addr p) w = some (.slot o))
    (ho : ¬(0x70 ≤ o ∧ o < 0x80)) {e : BundleEnd} (hw : (e.ends && s.watchdogDue p) = false) :
    let i := asked1 s p (aluOp r0.2.2) (storeOp w)
    let v := (counted s p).setPly k (during p i)
    v.commit k (during p i) { i with fin := some e } =
      v.bundleEnd k (began (stored (putReg p (opAt s p 0).rd (r0.2.2 p (opAt s p 0))) o w (p.reg (opAt s p 1).rd))) e := by
  intro i v
  have hv : v.watchdogDue p = s.watchdogDue p := counted_watchdogDue s p
  have hi : p.withWrites { i with fin := some e } = putReg p (opAt s p 0).rd (r0.2.2 p (opAt s p 0)) := by
    rw [withWrites_regs (issue_ready hr) rfl, ← aluRows_during r0 h0 p {}]
    rfl
  refine commit_end k i rfl rfl (by rw [hv, hw]) ?_
  rw [hi]
  exact memAccess_store_slot _ ha hl ho

end Sys2Proof.Machine

namespace Sys2Proof
open Machine Claims

/-- Settles O4: slot 2 acts on the ply as its bundle left it, case by case, and the watchdog comes before it. -/
theorem plyEnds : Obligations.PlyEnds := by
  refine ⟨?watchdog, fun s k p slot h hw => ?done, fun s k p slot h hw => ?drop, fun s k p slot h hw => ?trap, fun s k p slot h hw => ?recycle⟩
  case watchdog =>
    simp only [List.forall_mem_cons, List.not_mem_nil, IsEmpty.forall_iff, implies_true, and_true]
    and_intros <;> exact fun s k p slot h hw => congrArg _ (issueOp_end_watchdog h rfl hw)
  case done =>
    intro u fwd
    have hx : exec (.done k) s = .next (u.plyDone k) := congrArg _ (issueOp_end h hw)
    have hu := ply_issued s k p (began p)
    rw [hx]
    exact ⟨fun he => congrArg _ (plyDone_ecc (p := began p) hu he), fun d he ho => congrArg _ (plyDone_beyond (p := began p) hu he ho),
      fun out he ho hg => congrArg _ (plyDone_egress (p := began p) hu he ho hg), fun out he ho hg => congrArg _ (plyDone_ingress (p := began p) hu he ho hg)⟩
  case drop =>
    have hx : exec (.drop k) s = .next ((issued s k p (began p)).plyDrop k ((opAt s p slot).b % 256)) := congrArg _ (issueOp_end h hw)
    rw [hx, plyDrop_eq (ply_issued s k p (began p)), issued_dropBase]
    rfl
  case trap => exact congrArg _ (issueOp_end h hw)
  case recycle =>
    intro u
    have hx : exec (.recycle k) s = .next (u.plyRecycle k) := congrArg _ (issueOp_end h hw)
    have hu := ply_issued s k p (began p)
    rw [hx]
    refine ⟨fun hr => ?_, fun hr he => congrArg _ (plyRecycle_ecc (p := began p) hu hr he), fun d hr he ho => congrArg _ (plyRecycle_beyond (p := began p) hu hr he ho),
      fun out hr he ho => congrArg _ (plyRecycle_again (p := began p) hu hr he ho)⟩
    rw [plyRecycle_full hu hr, plyDrop_eq hu, issued_dropBase]
    rfl

/-- Settles O5: each operation asks for one accelerator operation, and the bundle commits with what that answers. -/
theorem acceleratorCalls : Obligations.AcceleratorCalls := by
  refine ⟨fun s k p slot h => ?call, fun s k p slot h => ?calln, fun s k p slot h => ?wait, fun s k p slot h => ?post⟩
  case call =>
    have hx : exec (.call k) s = .next (s.issueOp 0x60 k (accelOp (fun p o => .call o.rd (p.reg o.ra).toNat o.b))) := rfl
    rw [hx]
    refine ⟨fun ht he => ?_, fun ht => ?_, fun ht he => ?_⟩
    · rw [issueOp_call h (callAccess_call k ht he)]; rfl
    · rw [issueOp_call_fault h (callAccess_busy (p := began p) k ht).1, accFault_plain _ _ _ (by decide)]; rfl
    · rw [issueOp_call_fault h (callAccess_ecc (p := began p) k ht he).1, accFault_ecc]; rfl
  case calln =>
    have hx : exec (.calln k) s = .next (s.issueOp 0x61 k (accelOp (fun p o => .calln (p.reg o.ra).toNat o.b))) := rfl
    rw [hx]
    refine ⟨fun ht he => ?_, fun ht => ?_, fun ht he => ?_⟩
    · rw [issueOp_call h (callAccess_calln k ht he)]; rfl
    · rw [issueOp_call_fault h (callAccess_busy (p := began p) (rd := 0) k ht).2, accFault_plain _ _ _ (by decide)]; rfl
    · rw [issueOp_call_fault h (callAccess_ecc (p := began p) (rd := 0) k ht he).2, accFault_ecc]; rfl
  case wait => exact congrArg _ (issueOp_call (c := fun _ o => .wait (o.b % 16)) h rfl)
  case post =>
    have hx : exec (.post k) s = .next (s.issueOp 0x63 k (accelOp (fun p o => .post (p.reg o.ra).toNat o.b))) := rfl
    rw [hx]
    refine ⟨fun hn he => ?_, fun hn => ?_, fun hn he => ?_⟩
    · rw [issueOp_call h (callAccess_post k hn he)]; rfl
    · rw [issueOp_call_fault h (callAccess_post_limit (p := began p) k hn), accFault_plain _ _ _ (by decide)]; rfl
    · rw [issueOp_call_fault h (callAccess_post_ecc (p := began p) k hn he), accFault_ecc]; rfl

/-- Settles O7: slots 0 and 1 only record what they ask for, and slot 2 commits the bundle from the registers as they stood before it. -/
theorem bundleReadsBeforeWrites : Obligations.BundleReadsBeforeWrites := by
  refine ⟨fun r0 h0 r1 h1 r2 h2 s k p hr h => ?alu, fun r0 h0 r1 h1 s k p o hr ha hl ho => ?store⟩
  case alu =>
    refine ⟨_, _, (exec_aluRows r0 h0 k s).trans (congrArg _ (issueOp_slot0 hr h _)),
      (exec_aluRows r1 h1 k _).trans (congrArg _ (issueOp_slot1 hr h _ _)), ⟨_, State.ply_setPly .., rfl, rfl, rfl⟩, ?_⟩
    rw [exec_aluRows r2 h2, issueOp_slot2 hr h, commit_writes _ _ _ _ rfl rfl rfl, State.setPly_setPly, withWrites_regs (issue_ready hr) rfl]
    simp only [asked1, asked0, aluOp, aluRows_during r0 h0, aluRows_during r1 h1, aluRows_during r2 h2]
    rfl
  case store =>
    intro q
    have hq : q = stored (putReg p (opAt s p 0).rd (r0.2.2 p (opAt s p 0))) o r1.2.2 (p.reg (opAt s p 1).rd) := by
      unfold stored
      rw [putReg_mem]
    refine ⟨fun h hw => ⟨_, _, (exec_aluRows r0 h0 k s).trans (congrArg _ (issueOp_slot0 hr h _)),
        (exec_storeRows r1 h1 k _).trans (congrArg _ (issueOp_slot1 hr h _ _)), ?done⟩,
      fun h hi => ⟨_, _, (exec_aluRows r0 h0 k s).trans (congrArg _ (issueOp_slot0 hr h _)),
        (exec_storeRows r1 h1 k _).trans (congrArg _ (issueOp_slot1 hr h _ _)), ?br⟩⟩
    case done =>
      refine congrArg _ ((issueOp_slot2 hr h _ _ _).trans ((commit_aluStore hr h0 ha hl ho (e := .done) ?_).trans ?_))
      · rw [hw, Bool.and_false]
      · rw [hq]
        exact congrArg (fun u => State.plyDone u k) (State.setPly_setPly ..)
    case br =>
      refine congrArg _ ((issueOp_slot2 hr h _ _ _).trans ?_)
      rw [brOp_imm hi]
      refine (commit_aluStore hr h0 ha hl ho rfl).trans ((State.setPly_setPly ..).trans ?_)
      rw [hq, onward_began]
      rfl

end Sys2Proof
end

section
/-! SUPPORT. The dispatcher (R54, R82 to R85, R93): its choice, what stands before the new ply, and what a dispatch leaves. -/
namespace Sys2Proof.Machine
open Sys2Proof.Claims

/-! ### The first of the largest -/

theorem argMax_none {f : Nat → Nat} {l : List Nat} (h : argMax f l = none) : l = [] := by
  cases l with
  | nil => rfl
  | cons x r =>
    unfold argMax at h
    cases hr : argMax f r with
    | none => rw [hr] at h; cases h
    | some y => rw [hr] at h; dsimp only at h; split at h <;> cases h

/-- In a rising list the choice is the lowest of the largest. -/
theorem argMax_some {f : Nat → Nat} : ∀ {l : List Nat} {m : Nat}, l.Pairwise (· < ·) → argMax f l = some m →
    m ∈ l ∧ ∀ y ∈ l, f y ≤ f m ∧ (y < m → f y < f m)
  | [], _, _, h => by cases h
  | x :: r, m, hp, h => by
    obtain ⟨hx, hr⟩ := List.pairwise_cons.mp hp
    unfold argMax at h
    cases ha : argMax f r with
    | none =>
      obtain rfl := argMax_none ha
      rw [ha] at h
      cases h
      simp
    | some z =>
      obtain ⟨hz, hmax⟩ := argMax_some hr ha
      rw [ha] at h
      dsimp only at h
      split at h
      next hlt =>
        cases h
        exact ⟨List.mem_cons_of_mem _ hz, List.forall_mem_cons.mpr ⟨⟨hlt.le, fun _ => hlt⟩, hmax⟩⟩
      next hge =>
        cases h
        refine ⟨List.mem_cons_self, List.forall_mem_cons.mpr ⟨⟨le_rfl, fun hlt => absurd hlt (lt_irrefl _)⟩, fun y hy => ⟨?_, fun hlt => ?_⟩⟩⟩
        · exact (hmax y hy).1.trans (Nat.not_lt.mp hge)
        · exact absurd (hx y hy) (Nat.lt_asymm hlt)

/-! ### The choice of cluster and slot (R82) -/

theorem mem_openSlots {s : State} {c n : Nat} (h : n ∈ s.openSlots c) : s.pliesOf c (fun p => p.slot == n) < 64 := by
  simp only [State.openSlots, List.mem_filter, Bool.and_eq_true, decide_eq_true_eq] at h
  exact h.2.2

theorem openSlots_of_takes {s : State} {c r : Nat} (h : s.takesPlies c r = true) :
    s.openSlots c ≠ [] ∧ s.pliesOf c (fun _ => true) < 3072 := by
  simp only [State.takesPlies, Bool.and_eq_true, decide_eq_true_eq] at h
  obtain ⟨⟨_, hlt⟩, he⟩ := h
  exact ⟨fun hn => by simp [hn] at he, hlt⟩

/-- The clusters of a pipe that take plies of a role, in rising order. -/
def State.takers (s : State) (pipe role : Nat) : List Nat := ((List.range 6).map (fun i => 6 * pipe + i)).filter (fun c => s.takesPlies c role)

theorem mem_takers {s : State} {pipe role c : Nat} :
    c ∈ s.takers pipe role ↔ 6 * pipe ≤ c ∧ c < 6 * pipe + 6 ∧ s.takesPlies c role = true := by
  simp only [State.takers, List.mem_filter, List.mem_map, List.mem_range]
  constructor
  · rintro ⟨⟨i, hi, rfl⟩, ht⟩
    exact ⟨by omega, by omega, ht⟩
  · rintro ⟨hlo, hhi, ht⟩
    exact ⟨⟨c - 6 * pipe, by omega, by omega⟩, ht⟩

theorem takers_rising (s : State) (pipe role : Nat) : (s.takers pipe role).Pairwise (· < ·) := by
  refine List.Pairwise.filter _ (List.pairwise_map.mpr ?_)
  exact List.pairwise_lt_range.imp (fun h => by omega)

theorem openSlots_rising (s : State) (c : Nat) : (s.openSlots c).Pairwise (· < ·) := List.Pairwise.filter _ List.pairwise_lt_range

theorem dispatchTo_eq (s : State) (pipe : Nat) (egress : Bool) : s.dispatchTo pipe egress =
    match argMax (fun c => 3072 - s.pliesOf c (fun _ => true)) (s.takers pipe (b2n egress)) with
    | none => none
    | some c => (argMax (fun k => 64 - s.pliesOf c (fun p => p.slot == k)) (s.openSlots c)).map (fun k => (c, k)) := by
  cases egress <;> rfl

/-- A cluster that takes plies is enough for the dispatcher to choose one. -/
theorem dispatchTo_isSome {s : State} {pipe c : Nat} {egress : Bool} (h : c ∈ s.takers pipe (b2n egress)) :
    ∃ c slot, s.dispatchTo pipe egress = some (c, slot) := by
  rw [dispatchTo_eq]
  cases hm : argMax (fun c => 3072 - s.pliesOf c (fun _ => true)) (s.takers pipe (b2n egress)) with
  | none => rw [argMax_none hm] at h; cases h
  | some d =>
    obtain ⟨hd, _⟩ := argMax_some (takers_rising ..) hm
    obtain ⟨hopen, _⟩ := openSlots_of_takes (mem_takers.mp hd).2.2
    cases hk : argMax (fun k => 64 - s.pliesOf d (fun p => p.slot == k)) (s.openSlots d) with
    | none => exact absurd (argMax_none hk) hopen
    | some k => exact ⟨d, k, by simp only [hk, Option.map_some]⟩

/-- R82: the cluster with the most free packet slots and in it the slot with the most free frames, the lowest of each. -/
theorem dispatchTo_most {s : State} {pipe c slot : Nat} {egress : Bool} (h : s.dispatchTo pipe egress = some (c, slot)) :
    c ∈ s.takers pipe (b2n egress) ∧ slot ∈ s.openSlots c ∧
    (∀ d ∈ s.takers pipe (b2n egress), s.pliesOf c (fun _ => true) ≤ s.pliesOf d (fun _ => true) ∧
      (d < c → s.pliesOf c (fun _ => true) < s.pliesOf d (fun _ => true))) ∧
    ∀ n ∈ s.openSlots c, s.pliesOf c (fun q => q.slot == slot) ≤ s.pliesOf c (fun q => q.slot == n) ∧
      (n < slot → s.pliesOf c (fun q => q.slot == slot) < s.pliesOf c (fun q => q.slot == n)) := by
  rw [dispatchTo_eq] at h
  cases hm : argMax (fun c => 3072 - s.pliesOf c (fun _ => true)) (s.takers pipe (b2n egress)) with
  | none => rw [hm] at h; cases h
  | some d =>
    rw [hm] at h
    obtain ⟨k, hk, he⟩ := Option.map_eq_some_iff.mp h
    cases he
    obtain ⟨hc, hcmax⟩ := argMax_some (takers_rising ..) hm
    obtain ⟨hn, hnmax⟩ := argMax_some (openSlots_rising ..) hk
    have hlt := (openSlots_of_takes (mem_takers.mp hc).2.2).2
    have hltk := mem_openSlots hn
    refine ⟨hc, hn, fun d hd => ?_, fun n hn' => ?_⟩
    · obtain ⟨hle, hl⟩ := hcmax d hd
      have := (openSlots_of_takes (mem_takers.mp hd).2.2).2
      exact ⟨by omega, fun hdc => by have := hl hdc; omega⟩
    · obtain ⟨hle, hl⟩ := hnmax n hn'
      have := mem_openSlots hn'
      exact ⟨by omega, fun hns => by have := hl hns; omega⟩

/-! ### Errors that the engines' storage has come to hold -/

/-- A ply as it stands beside the error that its frame or packet slot may hold. -/
def Ply.clean (p : Ply) : Ply := { p with ecc := false }

theorem pliesOf_congr {s u : State} (h : u.eng.plies.map (fun e => e.2.clean) = s.eng.plies.map (fun e => e.2.clean)) (c : Nat)
    {f : Ply → Bool} (hf : ∀ p, f p.clean = f p) : u.pliesOf c f = s.pliesOf c f := by
  have key : ∀ v : State, v.pliesOf c f = ((v.eng.plies.map (fun e => e.2.clean)).filter (fun p => p.cluster == c && f p)).length := fun v => by
    rw [List.filter_map, List.length_map]
    simp only [State.pliesOf, Function.comp_def, hf]
    rfl
  rw [key, key, h]

theorem rising_le {α : Type} {t : Tbl α} : ∀ {lo : Nat}, Tbl.risingFrom lo t = true → ∀ e ∈ t, lo ≤ e.1 := by
  induction t with
  | nil => intro _ _ e he; cases he
  | cons x r ih =>
    intro lo h
    simp only [Tbl.risingFrom, Bool.and_eq_true, decide_eq_true_eq] at h
    exact List.forall_mem_cons.mpr ⟨h.1, fun e he => by have := ih h.2 e he; omega⟩

/-- A value replaced by one that looks the same leaves the table looking the same. -/
theorem map_ins {α β : Type} {g : α → β} {k : Nat} {p q : α} (hg : g q = g p) : ∀ {t : Tbl α} {lo : Nat}, Tbl.risingFrom lo t = true →
    t.find? (fun e => e.1 == k) = some (k, p) → (Tbl.ins k q t).map (fun e => g e.2) = t.map (fun e => g e.2)
  | [], _, _, h => by cases h
  | (a, w) :: r, lo, ht, h => by
    simp only [Tbl.risingFrom, Bool.and_eq_true, decide_eq_true_eq] at ht
    by_cases ha : a = k
    · subst ha
      simp only [List.find?_cons, beq_self_eq_true, Option.some.injEq, Prod.mk.injEq, true_and] at h
      simp [Tbl.ins, hg, h]
    · have hne : (a == k) = false := by simpa using ha
      rw [List.find?_cons, hne] at h
      have hle := rising_le ht.2 _ (List.mem_of_find?_eq_some h)
      rw [Tbl.ins, if_neg (by simp at hle; omega), if_neg (Ne.symm ha), List.map_cons, List.map_cons, map_ins hg ht.2 h]

theorem ply_find {s : State} {k : Nat} {p : Ply} (h : s.ply k = some p) : s.eng.plies.find? (fun e => e.1 == k) = some (k, p) := by
  obtain ⟨⟨j, q⟩, hf, rfl⟩ := Option.map_eq_some_iff.mp h
  have hj : j = k := by simpa using List.find?_some hf
  rw [hf, hj]

/-- The errors change nothing of the plies but the mark that they leave. -/
theorem upsetEng_only : ∀ (l : List (Bool × Nat)) {s : State}, Tbl.risingFrom 0 s.eng.plies = true → ∃ ps is,
    s.upsetEng l = { s with eng := { s.eng with plies := ps, insnEcc := is } } ∧
      ps.map (fun e => e.2.clean) = s.eng.plies.map (fun e => e.2.clean)
  | [], s, _ => ⟨s.eng.plies, s.eng.insnEcc, rfl, rfl⟩
  | (true, k) :: l, s, hs => by
    cases hk : s.ply k with
    | none =>
      obtain ⟨ps, is, he, hm⟩ := upsetEng_only l hs
      refine ⟨ps, is, ?_, hm⟩
      simp only [State.upsetEng, List.foldl_cons, hk] at he ⊢
      exact he
    | some p =>
      obtain ⟨ps, is, he, hm⟩ := upsetEng_only l (s := s.setPly k { p with ecc := true }) (Tbl.rising_ins _ (Nat.zero_le k) hs)
      have hclean : Ply.clean { p with ecc := true } = p.clean := rfl
      refine ⟨ps, is, ?_, hm.trans (map_ins hclean hs (ply_find hk))⟩
      simp only [State.upsetEng, List.foldl_cons, hk] at he ⊢
      exact he
  | (false, k) :: l, s, hs =>
    let ⟨ps, is, he, hm⟩ := upsetEng_only l (s := { s with eng := { s.eng with insnEcc := insNat k s.eng.insnEcc } }) hs
    ⟨ps, is, he, hm⟩

/-- With the errors standing, the dispatcher's queues and its choice are as they were. -/
theorem upsetEng_dispatch {s : State} {upsets : List (Bool × Nat)} (hu : upsets = [] ∨ Tbl.risingFrom 0 s.eng.plies = true) :
    ∃ ps is, s.upsetEng upsets = { s with eng := { s.eng with plies := ps, insnEcc := is } } ∧
      ∀ pipe egress, (s.upsetEng upsets).dispatchTo pipe egress = s.dispatchTo pipe egress := by
  rcases hu with rfl | hs
  · exact ⟨s.eng.plies, s.eng.insnEcc, rfl, fun _ _ => rfl⟩
  · obtain ⟨ps, is, he, hm⟩ := upsetEng_only upsets hs
    refine ⟨ps, is, he, fun pipe egress => ?_⟩
    rw [he]
    have hall := fun c => pliesOf_congr (u := { s with eng := { s.eng with plies := ps, insnEcc := is } }) hm c (f := fun _ => true) fun _ => rfl
    have hslot := fun c k => pliesOf_congr (u := { s with eng := { s.eng with plies := ps, insnEcc := is } }) hm c (f := fun p => p.slot == k)
      fun _ => rfl
    simp only [State.dispatchTo, State.takesPlies, State.openSlots, hall, hslot]
    rfl

/-! ### The completion DONE of a taken descriptor -/

/-- `t` is `s` but for the host interface and host memory. -/
def OnlyHost (s t : State) : Prop := ∃ h m, t = { s with hif := h, hostMem := m }

theorem OnlyHost.refl (s : State) : OnlyHost s s := ⟨s.hif, s.hostMem, rfl⟩

theorem OnlyHost.trans {s t u : State} (h : OnlyHost s t) (g : OnlyHost t u) : OnlyHost s u := by
  obtain ⟨h, m, rfl⟩ := h
  obtain ⟨h', m', rfl⟩ := g
  exact ⟨h', m', rfl⟩

theorem OnlyHost.eng {s t : State} (h : OnlyHost s t) : t.eng = s.eng := by obtain ⟨_, _, rfl⟩ := h; rfl
theorem OnlyHost.regs {s t : State} (h : OnlyHost s t) : t.regs = s.regs := by obtain ⟨_, _, rfl⟩ := h; rfl
theorem OnlyHost.clk {s t : State} (h : OnlyHost s t) : t.clk = s.clk := by obtain ⟨_, _, rfl⟩ := h; rfl

theorem setRing_onlyHost (s : State) (r : Nat) (g : Ring) : OnlyHost s (s.setRing r g) := ⟨_, _, rfl⟩

theorem hostWrite_onlyHost (s : State) (r a : Nat) (b : List Nat) : OnlyHost s (s.hostWrite r a b) := by
  unfold State.hostWrite
  split
  · obtain ⟨m, hm⟩ := s.dmaWrite_rest b a
    exact ⟨s.hif, m, by rw [hm]⟩
  · exact ⟨_, _, rfl⟩

theorem raiseRing_onlyHost (s : State) (r : Nat) : OnlyHost s (s.raiseRing r) := by
  unfold State.raiseRing
  dsimp only
  split
  · exact .refl s
  · split
    · exact ⟨_, _, rfl⟩
    · exact ⟨_, _, rfl⟩

/-- A completion DONE counts in neither HIF_EXPIRED nor HIF_FAULTED (R368). -/
theorem writeCpl_onlyHost (s : State) (r : Nat) (t : Taken) {c : Cpl} (hc : c.status = .done) : OnlyHost s (s.writeCpl r t c) := by
  have hw : c.written (s.ring r) = .done := by
    unfold Cpl.written
    rw [hc]
    exact ite_self _
  unfold State.writeCpl
  extract_lets g esz s1 s2 s3 s4 g' s5
  have h1 : OnlyHost s s1 := hostWrite_onlyHost ..
  have h3 : s3 = s1 := (if_neg (by rw [hw]; decide)).trans (if_neg (by rw [hw]; decide))
  have h4 : OnlyHost s3 s4 := by
    rw [show s4 = if t.st = .parked then s3.dropRequests r else s3 from rfl]
    split
    · exact ⟨_, _, rfl⟩
    · exact .refl s3
  have h5 : OnlyHost s s5 := h1.trans ((h3 ▸ h4).trans (setRing_onlyHost ..))
  split
  · exact h5.trans (raiseRing_onlyHost ..)
  · exact h5

theorem endTaken_onlyHost (s : State) (r : Nat) (t : Taken) {c : Cpl} (hc : c.status = .done) : OnlyHost s (s.endTaken r t c) := by
  refine (writeCpl_onlyHost s r t hc).trans ((setRing_onlyHost _ r (((s.writeCpl r t c).ring r).freed)).trans ?_)
  unfold State.endTaken
  dsimp only
  split
  · exact ⟨_, _, rfl⟩
  · exact .refl _

theorem stopReached_onlyHost (s : State) (r : Nat) : OnlyHost s (s.stopReached r) := by
  unfold State.stopReached
  split
  · exact .refl s
  · split
    · exact .refl s
    · split
      · exact endTaken_onlyHost s _ _ rfl
      · exact .refl s

theorem finish_onlyHost {s : State} {r : Nat} {t : Taken} (ht : (s.ring r).taken = some t) {c : Cpl} (hc : c.status = .done) :
    OnlyHost s (s.finish r c) := by
  unfold State.finish
  rw [ht]
  exact (endTaken_onlyHost s r t hc).trans (stopReached_onlyHost ..)

theorem injected_onlyHost (s : State) (k : Packet) : OnlyHost s (s.injected k) := by
  unfold State.injected
  split
  · exact .refl s
  · split
    next t ht =>
      split
      · exact finish_onlyHost ht rfl
      · exact .refl s
    · exact .refl s

/-! ### The dispatch (R54, R93, R112) -/

/-- The state before the new ply: its packet has left the queue, a flip has taken effect, the packet is parsed, and its descriptor is complete. -/
def State.forDispatch (s : State) (pipe : Nat) (egress : Bool) (k : Packet) (rest : List Packet) (c : Nat) : State :=
  (((s.setDispQ egress pipe rest).takeFlip c).parse pipe k.bytes).2.fresh.2.injected k

/-- The new ply in its slot. -/
def State.placed (s : State) (c slot : Nat) (p : Ply) : State :=
  let t := { (s.setPly s.eng.nextPly p) with eng := { (s.setPly s.eng.nextPly p).eng with nextPly := s.eng.nextPly + 1 } }
  let t := t.wr (ENG_CLSTAT.slots_used c) (t.pliesOf c (fun _ => true))
  let t := { t with eng := { t.eng with givenAt := Tbl.upd 0 t.eng.givenAt (64 * c + slot) (fun x => if x = 0 then t.clk + 1 else x) } }
  t.setCluster c { t.cluster c with progress := t.clk }

theorem exec_plyDispatch {s : State} {pipe c slot : Nat} {egress : Bool} {upsets : List (Bool × Nat)} {k : Packet} {rest : List Packet}
    (hq : (s.upsetEng upsets).dispQ egress pipe = k :: rest) (hd : (s.upsetEng upsets).dispatchTo pipe egress = some (c, slot)) :
    let x := (s.upsetEng upsets).forDispatch pipe egress k rest c
    ∃ p record seed, exec (.plyDispatch pipe egress upsets) s = .next (x.placed c slot p) ∧
      p = newPly x c slot egress { k with pipe := pipe, parse := record, entry := if egress then 1 else k.entry } record seed := by
  intro x
  refine ⟨_, (((((s.upsetEng upsets).setDispQ egress pipe rest).takeFlip c).parse pipe k.bytes)).1,
    (((((s.upsetEng upsets).setDispQ egress pipe rest).takeFlip c).parse pipe k.bytes)).2.fresh.1, ?_, rfl⟩
  show execPlyDispatch pipe egress upsets s = _
  simp only [execPlyDispatch, hq, hd]
  rfl

/-! ### What a dispatch leaves -/

@[simp] theorem State.setDispQ_regs (s : State) (e : Bool) (p : Nat) (q : List Packet) : (s.setDispQ e p q).regs = s.regs := by cases e <;> rfl
@[simp] theorem State.setDispQ_clk (s : State) (e : Bool) (p : Nat) (q : List Packet) : (s.setDispQ e p q).clk = s.clk := by cases e <;> rfl

theorem setDispQ_nextPly (s : State) (e : Bool) (p : Nat) (q : List Packet) : (s.setDispQ e p q).eng.nextPly = s.eng.nextPly := by cases e <;> rfl

theorem dispQ_congr {s t : State} (h : t.eng = s.eng) (egress : Bool) (pipe : Nat) : t.dispQ egress pipe = s.dispQ egress pipe := by
  unfold State.dispQ; rw [h]

theorem dispQ_setDispQ {s : State} {egress : Bool} (h : Tbl.risingFrom 0 (if egress then s.eng.egressQ else s.eng.ingressQ) = true)
    (pipe : Nat) (q : List Packet) : (s.setDispQ egress pipe q).dispQ egress pipe = q := by
  cases egress with
  | false => exact Tbl.get_set_self [] h pipe q
  | true => exact Tbl.get_set_self [] h pipe q

/-- A flip changes registers alone. -/
theorem takeFlip_only (s : State) (c : Nat) : ∃ r, s.takeFlip c = { s with regs := r } := by
  unfold State.takeFlip
  dsimp only
  split
  · exact ⟨_, rfl⟩
  · split
    · exact ⟨_, rfl⟩
    · split
      · exact ⟨_, rfl⟩
      · exact ⟨_, rfl⟩

theorem parse_only (s : State) (pipe : Nat) (b : List Nat) :
    (s.parse pipe b).2 = s ∨ (s.parse pipe b).2 = s.inc (LKP_PARSEERR.count pipe) := ite_eq_or_eq ..

theorem parse_fresh (s : State) (pipe : Nat) (b : List Nat) :
    (s.parse pipe b).2.fresh.2.eng = s.eng ∧ (s.parse pipe b).2.fresh.2.clk = s.clk := by
  unfold State.fresh
  dsimp only
  rcases parse_only s pipe b with h | h
  · rw [h]; exact ⟨rfl, rfl⟩
  · rw [h]; exact ⟨s.inc_eng _, s.inc_clk _⟩

section ForDispatch
variable (s : State) (pipe : Nat) (egress : Bool) (k : Packet) (rest : List Packet) (c : Nat)

/-- Before the new ply stands, the engines have lost the packet from the queue and nothing else. -/
theorem forDispatch_eng : (s.forDispatch pipe egress k rest c).eng = (s.setDispQ egress pipe rest).eng := by
  obtain ⟨r, hr⟩ := takeFlip_only (s.setDispQ egress pipe rest) c
  have hf : ((s.setDispQ egress pipe rest).takeFlip c).eng = (s.setDispQ egress pipe rest).eng := by rw [hr]
  exact (injected_onlyHost ..).eng.trans ((parse_fresh ..).1.trans hf)

theorem forDispatch_clk : (s.forDispatch pipe egress k rest c).clk = s.clk := by
  obtain ⟨r, hr⟩ := takeFlip_only (s.setDispQ egress pipe rest) c
  have hf : ((s.setDispQ egress pipe rest).takeFlip c).clk = s.clk := by rw [hr]; exact s.setDispQ_clk egress pipe rest
  exact (injected_onlyHost ..).clk.trans ((parse_fresh ..).2.trans hf)

/-- The registers of the engines stand as the flip has left them. -/
theorem forDispatch_rd {f : Fld} (hf : f.key ≠ (LKP_PARSEERR.count pipe).key) :
    (s.forDispatch pipe egress k rest c).rd f = ((s.setDispQ egress pipe rest).takeFlip c).rd f := by
  unfold State.forDispatch
  rw [State.rd_congr (injected_onlyHost ..).regs]
  rcases parse_only ((s.setDispQ egress pipe rest).takeFlip c) pipe k.bytes with h | h
  · rw [h]; rfl
  · rw [h]; exact State.rd_wr_ne _ _ hf

end ForDispatch

section Placed
variable (s : State) (c slot : Nat) (p : Ply)

theorem placed_ply : (s.placed c slot p).ply s.eng.nextPly = some p := State.ply_setPly s s.eng.nextPly p

theorem placed_dispQ (egress : Bool) (pipe : Nat) : (s.placed c slot p).dispQ egress pipe = s.dispQ egress pipe := by cases egress <;> rfl

theorem placed_rd {f : Fld} (hf : f.key ≠ (ENG_CLSTAT.slots_used c).key) : (s.placed c slot p).rd f = s.rd f := State.rd_wr_ne _ _ hf

end Placed

/-- A flip is decided and written in the registers alone. -/
theorem takeFlip_congr {s t : State} (h : t.regs = s.regs) (c : Nat) : (t.takeFlip c).regs = (s.takeFlip c).regs := by
  have hw : ∀ {u v : State}, u.regs = v.regs → ∀ f n, (u.wr f n).regs = (v.wr f n).regs := fun h f n => by simp only [State.wr, h]
  simp only [State.takeFlip, State.bit, State.rd_congr h]
  split
  · exact h
  · split
    · exact hw h _ _
    · split
      · exact hw (hw (hw (hw h _ _) _ _) _ _) _ _
      · exact hw (hw (hw h _ _) _ _) _ _

/-- A dispatch places the new ply in the cluster and slot chosen, on a state `x` in which the flip has taken effect and the packet has left
its queue. -/
theorem plyDispatch_placed {s : State} {pipe c slot : Nat} {egress : Bool} {upsets : List (Bool × Nat)} {k : Packet} {rest : List Packet}
    (hu : upsets = [] ∨ Tbl.risingFrom 0 s.eng.plies = true) (hq : s.dispQ egress pipe = k :: rest)
    (hc : s.dispatchTo pipe egress = some (c, slot)) :
    ∃ x p record seed, exec (.plyDispatch pipe egress upsets) s = .next (x.placed c slot p) ∧
      p = newPly x c slot egress { k with pipe := pipe, parse := record, entry := if egress then 1 else k.entry } record seed ∧
      x.eng.nextPly = s.eng.nextPly ∧ x.clk = s.clk ∧
      (∀ f : Fld, f.key ≠ (LKP_PARSEERR.count pipe).key → x.rd f = (s.takeFlip c).rd f) ∧
      x.dispQ egress pipe = (s.setDispQ egress pipe rest).dispQ egress pipe := by
  obtain ⟨ps, is, he, hd⟩ := upsetEng_dispatch hu
  have hq' : (s.upsetEng upsets).dispQ egress pipe = k :: rest := by rw [he, ← hq]; cases egress <;> rfl
  have heng := forDispatch_eng (s.upsetEng upsets) pipe egress k rest c
  obtain ⟨p, record, seed, hx, hp⟩ := exec_plyDispatch hq' ((hd pipe egress).trans hc)
  refine ⟨_, p, record, seed, hx, hp, ?_, ?_, fun f hf => ?_, ?_⟩
  · rw [heng, setDispQ_nextPly, he]
  · rw [forDispatch_clk, he]
  · rw [forDispatch_rd _ _ _ _ _ _ hf]
    exact State.rd_congr (takeFlip_congr ((State.setDispQ_regs ..).trans (by rw [he])) c) f
  · rw [dispQ_congr heng, he]
    cases egress <;> rfl

/-! ### Flips (R93) -/

theorem bankState_key (c b : Nat) : (bankState c b).key = (0x80000 + 0x1000 * c + 0x14) * 64 + (if b = 0 then 0 else 4) := by
  unfold bankState; split <;> simp only [Fld.key, ENG_BANKSTAT.bank0_state, ENG_BANKSTAT.bank1_state]

theorem bankState_width (c b : Nat) : (bankState c b).width = 3 := by unfold bankState; split <;> rfl

theorem liveBank_key (c : Nat) : (ENG_BANKCTL.live_bank c).key = (0x80000 + 0x1000 * c + 0x10) * 64 := by
  simp only [Fld.key, ENG_BANKCTL.live_bank, Nat.add_zero]

theorem flip_key (c : Nat) : (ENG_BANKCTL.flip c).key = (0x80000 + 0x1000 * c + 0x10) * 64 + 8 := by
  simp only [Fld.key, ENG_BANKCTL.flip]

theorem parseErr_key (p : Nat) : (LKP_PARSEERR.count p).key = (0x100000 + 0x440 + 8 * p) * 64 := by
  simp only [Fld.key, LKP_PARSEERR.count, Nat.add_zero]

theorem slotsUsed_key (c : Nat) : (ENG_CLSTAT.slots_used c).key = (0x80000 + 0x1000 * c + 0x8) * 64 + 8 := by
  simp only [Fld.key, ENG_CLSTAT.slots_used]

section Flip
variable {s : State} {c : Nat} (hs : s.regsOk = true)
include hs

/-- A flip that is due: the other bank is live and LIVE, and the request is gone. -/
theorem takeFlip_flips (hl : s.rd (ENG_BANKCTL.live_bank c) < 2) (hf : flips s c = true) :
    (s.takeFlip c).rd (ENG_BANKCTL.live_bank c) = 1 - s.rd (ENG_BANKCTL.live_bank c) ∧
    (s.takeFlip c).rd (bankState c (1 - s.rd (ENG_BANKCTL.live_bank c))) = 3 ∧ (s.takeFlip c).rd (ENG_BANKCTL.flip c) = 0 := by
  simp only [flips, Bool.and_eq_true, beq_iff_eq] at hf
  obtain ⟨hbit, hst⟩ := hf
  have hstate : ∀ b, (ENG_BANKCTL.flip c).key ≠ (bankState c b).key ∧ (bankState c b).key ≠ (ENG_BANKCTL.live_bank c).key := fun b => by
    rw [bankState_key, flip_key, liveBank_key]; split <;> omega
  have hlive : (ENG_BANKCTL.flip c).key ≠ (ENG_BANKCTL.live_bank c).key := by rw [flip_key, liveBank_key]; omega
  obtain ⟨u, hu, huf, he⟩ : ∃ u : State, u.regsOk = true ∧ u.rd (ENG_BANKCTL.flip c) = 0 ∧ s.takeFlip c =
      (u.wr (bankState c (1 - s.rd (ENG_BANKCTL.live_bank c))) 3).wr (ENG_BANKCTL.live_bank c) (1 - s.rd (ENG_BANKCTL.live_bank c)) := by
    have hz := State.rd_wr_self hs (ENG_BANKCTL.flip c) 0
    unfold State.takeFlip
    simp only [hbit, hst, Bool.not_true, Bool.false_eq_true, if_false, not_true_eq_false, ne_eq]
    split
    · exact ⟨_, State.wr_regsOk (State.wr_regsOk hs _ _) _ _, (State.rd_wr_ne _ _ (hstate _).1).trans hz, rfl⟩
    · exact ⟨_, State.wr_regsOk hs _ _, hz, rfl⟩
  rw [he]
  refine ⟨?_, ?_, ?_⟩
  · rw [State.rd_wr_self (State.wr_regsOk hu _ _)]
    exact Nat.mod_eq_of_lt (by show _ < 2; omega)
  · rw [State.rd_wr_ne _ _ (hstate _).2, State.rd_wr_self hu, bankState_width]; rfl
  · rw [State.rd_wr_ne _ _ hlive, State.rd_wr_ne _ _ (hstate _).1, huf]

omit hs in
/-- With no flip due the live bank stays. -/
theorem takeFlip_stays (hf : flips s c = false) : (s.takeFlip c).rd (ENG_BANKCTL.live_bank c) = s.rd (ENG_BANKCTL.live_bank c) := by
  have hlive : (ENG_BANKCTL.live_bank c).key ≠ (ENG_BANKCTL.flip c).key := by rw [flip_key, liveBank_key]; omega
  unfold State.takeFlip
  dsimp only
  by_cases hbit : s.bit (ENG_BANKCTL.flip c) = true
  · have hst : s.rd (bankState c (1 - s.rd (ENG_BANKCTL.live_bank c))) ≠ 2 := by simpa [flips, hbit] using hf
    rw [if_neg (by simp [hbit]), if_pos hst]
    exact State.rd_wr_ne _ _ hlive
  · rw [if_pos (by simpa using hbit)]

end Flip

/-! ### The new ply -/

theorem get_putBytes_other : ∀ (l : List Nat) (t : Tbl (Option Byte)) (o j : Nat), j < o ∨ o + l.length ≤ j →
    Tbl.get none (putBytes t o l) j = Tbl.get none t j
  | [], _, _, _, _ => rfl
  | b :: r, t, o, j, h => by
    rw [List.length_cons] at h
    rw [putBytes, get_putBytes_other r _ (o + 1) j (by omega), Tbl.get_set_ne _ _ _ (by omega)]

/-- Bytes written stand where they were written. -/
theorem get_putBytes : ∀ (l : List Nat) (t : Tbl (Option Byte)) (o i : Nat), i < l.length →
    Tbl.get none (putBytes t o l) (o + i) = some (BitVec.ofNat 8 ((l[i]?).getD 0))
  | b :: r, t, o, 0, _ => by
    rw [putBytes, get_putBytes_other r _ (o + 1) _ (by omega), Tbl.set, if_neg (by simp), Nat.add_zero, Tbl.get_ins_self]
    rfl
  | b :: r, t, o, i + 1, h => by
    have ih := get_putBytes r (Tbl.set none t o (some (BitVec.ofNat 8 b))) (o + 1) i (by simpa using h)
    rw [putBytes, show o + (i + 1) = o + 1 + i by omega, ih]
    rfl

/-- The first 320 bytes of its packet stand at head offset 0xC0 of the slot of a new ply (R54). -/
theorem newPly_slotByte (s : State) (c slot : Nat) (egress : Bool) (k : Packet) (record : List Nat) (seed : Nat) {i : Nat}
    (hi : i < k.bytes.length) (h : i < 320) : (newPly s c slot egress k record seed).slotByte (0xC0 + i) = (k.bytes[i]?).getD 0 % 256 := by
  have hlen : i < (k.bytes.take 320).length := by rw [List.length_take]; omega
  have hg : Tbl.get none (newPly s c slot egress k record seed).mem (0xC0 + i) = some (BitVec.ofNat 8 (((k.bytes.take 320)[i]?).getD 0)) :=
    get_putBytes _ _ _ _ hlen
  unfold Ply.slotByte
  rw [hg, List.getElem?_take_of_lt h]
  exact BitVec.toNat_ofNat ..

end Sys2Proof.Machine

namespace Sys2Proof
open Machine Claims

/-- Settles O15: the errors leave the choice as it is, and the choice is the lowest of the largest, first among the clusters, then among the
slots of the one chosen. -/
theorem dispatchChoosesMostFree : Obligations.DispatchChoosesMostFree := by
  intro s pipe egress upsets k rest hq hu hk hc
  obtain ⟨c₀, hlo, hhi, ht⟩ := hc
  obtain ⟨c, slot, hcs⟩ := dispatchTo_isSome (mem_takers.mpr ⟨hlo, hhi, ht⟩)
  obtain ⟨hmem, hopen, hbest, hslots⟩ := dispatchTo_most hcs
  obtain ⟨x, p, record, seed, hx, hp, hn, _, _, hrest⟩ := plyDispatch_placed hu hk hcs
  have hc : p.cluster = c := by rw [hp]; rfl
  have hslot : p.slot = slot := by rw [hp]; rfl
  have heg : p.egress = egress := by rw [hp]; rfl
  subst hc hslot
  rw [← hn]
  refine ⟨_, p, hx, placed_ply .., ?_, heg, ?_, fun d h1 h2 h3 => hbest d (mem_takers.mpr ⟨h1, h2, h3⟩), hslots⟩
  · rw [placed_dispQ, hrest, dispQ_setDispQ hq]
  · obtain ⟨hlo, hhi, ht⟩ := mem_takers.mp hmem
    exact ⟨hlo, hhi, ht, hopen⟩

end Sys2Proof
end

section
/-! SUPPORT. The dispatch queues (R83 to R85, R261): how a packet joins one. -/
namespace Sys2Proof.Machine
open Sys2Proof.Claims

/-! ### Ingress -/

theorem exec_ingressDispatchEnqueue {s : State} {pipe : Nat} {k : Packet} {rest : List Packet}
    (h : Tbl.get [] s.eng.arriving pipe = k :: rest) :
    let u : State := { s with eng := { s.eng with arriving := Tbl.set [] s.eng.arriving pipe rest } }
    exec (.ingressDispatchEnqueue pipe) s = .next (if 4096 ≤ (s.dispQ false pipe).length then u.inc (ENG_DISPDROP.count pipe)
      else (ordered u k).2.setDispQ false pipe (s.dispQ false pipe ++ [(ordered u k).1])) := by
  intro u
  show execIngressDispatchEnqueue pipe s = _
  simp only [execIngressDispatchEnqueue, h]
  by_cases hf : 4096 ≤ (s.dispQ false pipe).length
  · rw [if_pos hf]
    exact if_pos hf
  · rw [if_neg hf]
    exact if_neg hf

/-! ### Egress -/

/-- What egress dispatch of a pipe takes from the bridge. -/
def forPipe (pipe : Nat) (k : Packet) : Bool := k.outPort / 32 == pipe || k.outPort == recyclePort pipe

theorem findIdx_append {α : Type} {f : α → Bool} {pre rest : List α} {k : α} (hp : ∀ x ∈ pre, f x = false) (hk : f k = true) :
    (pre ++ k :: rest).findIdx? f = some pre.length := by
  rw [List.findIdx?_append, List.findIdx?_eq_none_iff.mpr hp]
  simp [List.findIdx?_cons, hk]

theorem exec_egressDispatchEnqueue {s : State} {pipe : Nat} {pre rest : List Packet} {k : Packet}
    (h : s.dies.tf.arrived = pre ++ k :: rest) (hp : ∀ x ∈ pre, forPipe pipe x = false) (hk : forPipe pipe k = true) :
    let u := s.setDir false { s.dies.tf with arrived := pre ++ rest }
    exec (.egressDispatchEnqueue pipe) s = .next (
      if k.outPort = recyclePort pipe then
        { u with eng := { u.eng with arriving := Tbl.upd [] u.eng.arriving pipe (fun l => l ++ [recycled pipe k]) } }
      else if s.hasEgress pipe = false then u.inc (ENG_NOEGR.count pipe)
      else if 4096 ≤ (s.dispQ true pipe).length then s
      else (u.orderEnter (outKey k.queue) k).2.setDispQ true pipe
        (s.dispQ true pipe ++ [{ (u.orderEnter (outKey k.queue) k).1 with pipe := pipe }])) := by
  intro u
  have hi := findIdx_append (rest := rest) hp hk
  have hget : (pre ++ k :: rest)[pre.length]? = some k := by simp
  have herase : (pre ++ k :: rest).eraseIdx pre.length = pre ++ rest := by
    rw [List.eraseIdx_append_of_length_le le_rfl, Nat.sub_self, List.eraseIdx_cons_zero]
  unfold forPipe at hi
  show execEgressDispatchEnqueue pipe s = _
  simp only [execEgressDispatchEnqueue, h, hi, hget, herase]
  cases s.hasEgress pipe <;> split_ifs <;> first | rfl | contradiction

end Sys2Proof.Machine

namespace Sys2Proof
open Machine Claims

/-- Settles O16: each packet joins its queue by the case that it meets, and a new ply stands in the state that the dispatch has prepared. -/
theorem dispatchQueuesAndStart : Obligations.DispatchQueuesAndStart := by
  refine ⟨fun s pipe k rest h => ?ingress, fun s pipe pre k rest hp harr hpre => ?egress,
    fun s pipe egress upsets k rest c slot hs hu hq hcs hl => ?start⟩
  case ingress =>
    intro u
    rw [exec_ingressDispatchEnqueue h]
    exact ⟨fun hf => by rw [if_pos hf], fun hf => by rw [if_neg (Nat.not_le.mpr hf)]⟩
  case egress =>
    intro u
    have hpre' : ∀ x ∈ pre, forPipe pipe x = false := fun x hx => by
      simpa [forPipe, recyclePort] using hpre x hx
    have hx := fun hk => exec_egressDispatchEnqueue harr hpre' (rest := rest) (k := k) hk
    refine ⟨fun hk => ?_, fun hk hg => ?_, fun hk hg hf => ?_, fun hk hg hf => ?_⟩
    · have hr : k.outPort = recyclePort pipe := hk
      rw [hx (by simp [forPipe, hr]), if_pos hr]
      rfl
    all_goals
      have hne : ¬k.outPort = recyclePort pipe := by unfold recyclePort; omega
      rw [hx (by simp [forPipe, hk]), if_neg hne]
    · rw [if_pos hg]
    · rw [if_neg (by simp [hg]), if_pos hf]
    · rw [if_neg (by simp [hg]), if_neg (Nat.not_le.mpr hf)]
  case start =>
    obtain ⟨x, p, record, seed, hx, rfl, hn, hclk, hrd, _⟩ := plyDispatch_placed hu hq hcs
    obtain ⟨hlo, hhi, _⟩ := mem_takers.mp (dispatchTo_most hcs).1
    have hlive : x.rd (ENG_BANKCTL.live_bank c) = (s.takeFlip c).rd (ENG_BANKCTL.live_bank c) := hrd _ (by rw [liveBank_key, parseErr_key]; omega)
    have hflip : x.rd (ENG_BANKCTL.flip c) = (s.takeFlip c).rd (ENG_BANKCTL.flip c) := hrd _ (by rw [flip_key, parseErr_key]; omega)
    have hstate : ∀ b, x.rd (bankState c b) = (s.takeFlip c).rd (bankState c b) := fun b =>
      hrd _ (by rw [bankState_key, parseErr_key]; split <;> omega)
    rw [← hn]
    refine ⟨_, _, hx, placed_ply .., rfl, rfl, rfl, rfl, rfl, rfl, rfl, hclk, fun i hi h => newPly_slotByte _ _ _ _ _ _ _ hi h, ?_, fun hf => ?_⟩
    · refine hlive.trans ?_
      cases hf : flips s c with
      | true => exact (takeFlip_flips hs hl hf).1
      | false => exact takeFlip_stays hf
    · obtain ⟨h1, h2, h3⟩ := takeFlip_flips hs hl hf
      have hbank : x.rd (ENG_BANKCTL.live_bank c) = 1 - s.rd (ENG_BANKCTL.live_bank c) := hlive.trans h1
      refine ⟨placed_rd _ _ _ _ (by rw [liveBank_key, slotsUsed_key]; omega), ?_, ?_⟩
      · rw [placed_rd _ _ _ _ (by rw [bankState_key, slotsUsed_key]; split <;> omega)]
        exact (hstate _).trans ((congrArg (fun b => (s.takeFlip c).rd (bankState c b)) hbank).trans h2)
      · rw [placed_rd _ _ _ _ (by rw [flip_key, slotsUsed_key]; omega), hflip, h3]

end Sys2Proof
end

section
/-! SUPPORT. Call results (R71, R106) and the watchdogs of plies, engines and clusters (R99, R100, R520, R522, R528). -/
namespace Sys2Proof.Machine
open Sys2Proof.Claims

/-! ### Call results -/

section Result
variable {s : State} {n : Nat} {c : Call} {r : List Nat} (hf : s.eng.calls.find? (fun e => e.1 == n) = some (n, c))
  (hr : c.result = some r)
include hf hr

/-- The result of a call whose ply is in flight. -/
theorem exec_callResultWritten {p : Ply} (hp : s.ply c.ply = some p) :
    let u : State := { s with eng := { s.eng with calls := Tbl.erase s.eng.calls n } }
    let q : Ply := { p with frame := putBytes p.frame (32 * c.tag) (sliceB r 0 32), tags := p.tags.filter (· != c.tag),
                            parked := p.parked.filter (· != c.tag) }
    exec (.callResultWritten n) s = .next (if s.watchdogDue p then u.plyFault c.ply 2 0 else u.setPly c.ply (match p.callRd with
      | some (rd, t) => if t = c.tag then { putReg q rd (BitVec.ofNat 64 (beNat (r.take 8))) with callRd := none } else q
      | none => q)) := by
  intro u q
  have hp' : u.ply c.ply = some p := hp
  have hw : u.watchdogDue p = s.watchdogDue p := rfl
  show execCallResultWritten n s = _
  simp only [execCallResultWritten, hf, hr]
  simp only [show ({ s with eng := { s.eng with calls := Tbl.erase s.eng.calls n } } : State) = u from rfl, hp', hw]
  split
  · rfl
  · rcases hc : p.callRd with _ | ⟨rd, t⟩
    · simp only [q, hc]
    · simp only [q, hc]
      split
      · unfold putReg
        split <;> rfl
      · rfl

/-- The result of a call whose ply has ended (R106). -/
theorem exec_callResultWritten_gone (hp : s.ply c.ply = none) :
    let u : State := { s with eng := { s.eng with calls := Tbl.erase s.eng.calls n } }
    exec (.callResultWritten n) s = .next (if s.engEpoch c.cluster c.slot = c.epoch then u else u.inc SEAT_STALE_ENG.count) := by
  intro u
  have hp' : u.ply c.ply = none := hp
  show execCallResultWritten n s = _
  simp only [execCallResultWritten, hf, hr]
  simp only [show ({ s with eng := { s.eng with calls := Tbl.erase s.eng.calls n } } : State) = u from rfl, hp']
  rfl

end Result

/-! ### Watchdog flags -/

/-- The watchdog flag of a cluster that takes plies of a direction. -/
theorem clusterDue_of {s : State} {c q : Nat} (e : Bool) (hc : c < 24) (hr : s.rd (ENG_CLSTAT.role_now c) = b2n e)
    (ha : (s.cluster c).resetAt = none) (hq : Tbl.get 0 s.eng.queuedAt (2 * (c / 6) + b2n e) = q + 1)
    (ht : max (s.cluster c).progress q + s.rd SEAT_WDCFG.cl_wd_us * 1000 ≤ s.clk) : s.clusterDue c = true := by
  have he : (s.rd (ENG_CLSTAT.role_now c) == 1) = e := by rw [hr]; cases e <;> rfl
  have hlt : s.rd (ENG_CLSTAT.role_now c) < 2 := by rw [hr]; cases e <;> decide
  have hel : s.elapsed (max (s.cluster c).progress (q + 1 - 1)) (us (s.rd SEAT_WDCFG.cl_wd_us)) = true := State.elapsed_of_le ht
  simp [State.clusterDue, he, hlt, dispKey, hq, hc, ha] at hel ⊢
  exact hel

theorem engineDue_of {s : State} {c slot t : Nat} (hc : c < 24) (hs : slot < 64) (hg : Tbl.get 0 s.eng.givenAt (64 * c + slot) = t + 1)
    (ht : t + s.rd SEAT_WDCFG.eng_wd_us * 1000 ≤ s.clk) : s.engineDue c slot = true := by
  have hel : s.elapsed t (us (s.rd SEAT_WDCFG.eng_wd_us)) = true := State.elapsed_of_le ht
  simp [State.engineDue, hg, hc, hs, hel]

theorem exec_clusterWatchdog {s : State} {c : Nat} (h : s.clusterDue c = true) : exec (.clusterWatchdog c) s = .next (s.clusterReset c) :=
  congrArg Host.Outcome.next (if_pos h)

theorem exec_contextWatchdog {s : State} {k : Nat} {p : Ply} (hp : s.ply k = some p) (h : s.watchdogDue p = true) :
    exec (.contextWatchdog k) s = .next (if s.clusterDue p.cluster then s.clusterReset p.cluster
      else if s.engineDue p.cluster p.slot then (s.inc (ENG_FLTCNT.count p.cluster 2)).engineDead p.cluster p.slot 2
      else s.plyFault k 2 0) := by
  show execContextWatchdog k s = _
  simp only [execContextWatchdog, hp, h, Bool.not_true, Bool.false_eq_true, if_false]
  split
  · rfl
  · split <;> rfl

theorem exec_engineWatchdog {s : State} {c slot : Nat} (h : s.engineDue c slot = true) :
    exec (.engineWatchdog c slot) s = .next (if s.clusterDue c then s.clusterReset c else s.engineDead c slot 2) := by
  show execEngineWatchdog c slot s = _
  simp only [execEngineWatchdog, h, Bool.not_true, Bool.false_eq_true, if_false]
  split <;> rfl

end Sys2Proof.Machine

namespace Sys2Proof
open Machine Claims

/-- Settles O17: each command by the case that it meets, and the flags of an engine and of a cluster from what their times show. -/
theorem resultsAndWatchdogs : Obligations.ResultsAndWatchdogs := by
  refine ⟨fun s n c r p hf hr hp => ?result, fun s n c r hf hr hp => exec_callResultWritten_gone hf hr hp, fun s k p hp ht => ?context,
    fun s c slot t hc hs hg ht => ?engine, fun s c q hc hr ha hq ht => exec_clusterWatchdog (clusterDue_of false hc hr ha hq ht),
    fun s c q hc hr ha hq ht => exec_clusterWatchdog (clusterDue_of true hc hr ha hq ht), fun s c t ha => ?done⟩
  case result =>
    intro u q
    rw [exec_callResultWritten hf hr hp]
    exact ⟨fun hw => by rw [hw]; rfl, fun hw => by rw [hw]; rfl⟩
  case context =>
    rw [exec_contextWatchdog hp (State.elapsed_of_le ht)]
    exact ⟨fun hc he => by rw [hc, he]; rfl, fun hc he => by rw [hc, he]; rfl, fun hc => by rw [hc]; rfl⟩
  case engine =>
    rw [exec_engineWatchdog (engineDue_of hc hs hg ht)]
    exact ⟨fun h => by rw [h]; rfl, fun h => by rw [h]; rfl⟩
  case done =>
    show execClusterResetDone c s = _
    simp only [execClusterResetDone, ha]

end Sys2Proof
end

section
/-! SUPPORT. The registers of block ENG whose write acts on a cluster: ENG_CLROLE, ENG_BANKCTL and ENG_CNTCLR (R86 to R94, R110). -/
namespace Sys2Proof.Machine
open Sys2Proof.Claims

/-! ### A write of the engine block over BAR0 -/

/-- The byte address of a register of a cluster's ENG block (*BAR0 map*). -/
def engAddr (c off : Nat) : Nat := 0x80000 + off + 0x1000 * c

/-- The effect of a write at an offset of a cluster's ENG block, if it has one (R86, R92, R110). -/
def State.engHook (s : State) (c off w x : Nat) : Option State :=
  match off with
  | 0x4 => some (s.writeRole c (bitsAt w 0 2))
  | 0x10 => some (if bitOf x 8 then s.flipRequest c else s)
  | 0x44 => some (if bitOf x 0 then s.clearFaults c else s)
  | _ => none

theorem engAddr_offset {c off : Nat} (ho : off < 0x1000) : engAddr c off % 0x1000 = off := by unfold engAddr; omega

section EngAddr
variable {c off : Nat} (hc : c < 24) (ho : off < 0x1000)
include hc ho

theorem engAddr_bounds : 0x80000 ≤ engAddr c off ∧ engAddr c off < 0x98000 := by unfold engAddr; omega

theorem engAddr_cluster : (engAddr c off - 0x80000) / 0x1000 = c := by unfold engAddr; omega

theorem isFdAddr_eng : isFdAddr (engAddr c off) = true := by
  obtain ⟨hlo, hhi⟩ := engAddr_bounds hc ho
  have hhi' : engAddr c off < 0x180000 := by omega
  simp [isFdAddr, hlo, hhi']

theorem isMsix_eng : isMsix (engAddr c off) = false := by
  obtain ⟨hlo, _⟩ := engAddr_bounds hc ho
  have hn : ¬engAddr c off < 0x1A040 := by omega
  simp [isMsix, hn]

theorem regAt_eng : regAt (engAddr c off) = regsENG c off := by
  obtain ⟨hlo, hhi⟩ := engAddr_bounds hc ho
  simp (disch := omega) only [regAt, if_neg, if_pos, engAddr_cluster hc ho, engAddr_offset ho]

theorem hook_eng (s : State) (p : Path) (mask w x : Nat) : s.hook p (engAddr c off) mask w x = s.engHook c off w x := by
  obtain ⟨hlo, hhi⟩ := engAddr_bounds hc ho
  unfold State.hook State.hookFd
  rw [if_neg (by omega), if_pos (by omega), if_pos (by omega), engAddr_cluster hc ho, engAddr_offset ho]
  rfl

/-- A write of an ENG register with an effect, and without a field cleared by ones, carries that effect out over the bridge. -/
theorem State.poke_eng {s : State} {v : Nat} {fs : List FldAcc} {f : State → State} (hs : FdOpen s) (h4 : off % 4 = 0) (hv : v < 2 ^ 32)
    (hr : regsENG c off = .word fs) (hw : ∀ u x, State.clearOnes u .bar0 x fs = u)
    (hk : s.fdReach.hook .bar0 (engAddr c off) (2 ^ 32 - 1) v v = some (f s.fdReach)) :
    s.poke (engAddr c off) v = tagged s false (engAddr c off) (2 ^ 32 - 1) v f := by
  obtain ⟨⟨⟨hrec, hready, hseal⟩, hcmd⟩, hb, hu, hctl⟩ := hs
  obtain ⟨hlo, hhi⟩ := engAddr_bounds hc ho
  have hal : engAddr c off % 4 = 0 := by unfold engAddr; omega
  have hok : accessOk (engAddr c off) 4 = true := accessOk_four (by omega) hal
  have hreg : regAt (engAddr c off) = .word fs := (regAt_eng hc ho).trans hr
  have hcmd' : s.fdReach.cmdWrote.1 ≠ s.fdReach.clk + 1 := hcmd
  have hv' : v % 2 ^ 32 = v := Nat.mod_eq_of_lt hv
  unfold State.poke tagged
  rw [hv', State.bar0Write_fd v hrec hready hseal hb hu hctl hok (isReserved_of_word hok hreg) (isFdAddr_eng hc ho),
    State.regWrite_hook (t := f s.fdReach) hcmd' (isMsix_eng hc ho) (by omega) hreg (hw _ _) (by rw [hv', hv']; exact hk), hv']
  rfl

end EngAddr

/-! ### The effects -/

theorem bankState_ne_flip (c b : Nat) : (bankState c b).key ≠ (ENG_BANKCTL.flip c).key := by
  rw [bankState_key, flip_key]; split <;> omega

theorem liveBank_ne_flip (c : Nat) : (ENG_BANKCTL.live_bank c).key ≠ (ENG_BANKCTL.flip c).key := by
  rw [liveBank_key, flip_key]; omega

/-- R92, R93: a request while the other bank is READY and the live one LIVE waits for the next dispatch. -/
theorem State.flipRequest_waits {s : State} {c : Nat} (h2 : s.rd (bankState c (1 - s.rd (ENG_BANKCTL.live_bank c))) = 2)
    (h3 : s.rd (bankState c (s.rd (ENG_BANKCTL.live_bank c))) = 3) : s.flipRequest c = s.wr (ENG_BANKCTL.flip c) 1 := by
  unfold State.flipRequest State.askFlip
  rw [if_pos h2, if_pos h3]

/-- A cluster whose live bank is not LIVE flips at once (log entry 45). -/
theorem State.flipRequest_now {s : State} {c : Nat} (h2 : s.rd (bankState c (1 - s.rd (ENG_BANKCTL.live_bank c))) = 2)
    (h3 : s.rd (bankState c (s.rd (ENG_BANKCTL.live_bank c))) ≠ 3) :
    s.flipRequest c = (((s.wr (ENG_BANKCTL.flip c) 1).wr (ENG_BANKCTL.flip c) 0).wr
      (bankState c (1 - s.rd (ENG_BANKCTL.live_bank c))) 3).wr (ENG_BANKCTL.live_bank c) (1 - s.rd (ENG_BANKCTL.live_bank c)) := by
  have hbank : ∀ b v, (s.wr (ENG_BANKCTL.flip c) v).rd (bankState c b) = s.rd (bankState c b) :=
    fun b v => s.rd_wr_ne v (bankState_ne_flip c b)
  have hlive : (s.wr (ENG_BANKCTL.flip c) 1).rd (ENG_BANKCTL.live_bank c) = s.rd (ENG_BANKCTL.live_bank c) :=
    s.rd_wr_ne 1 (liveBank_ne_flip c)
  have hflip : (s.wr (ENG_BANKCTL.flip c) 1).bit (ENG_BANKCTL.flip c) = true :=
    congrArg (· != 0) (Tbl.get_ins_self 0 s.regs (ENG_BANKCTL.flip c).key 1)
  unfold State.flipRequest State.askFlip
  rw [if_pos h2, if_neg h3]
  simp only [State.takeFlip, hflip, hlive, hbank, h2, h3, Bool.not_true, Bool.false_eq_true, ne_eq, not_true, if_false]

/-- R110: a counter of a cluster as it stands after the counters of `ks` were cleared in turn. -/
theorem State.clearFaults_rd {c : Nat} {f : Fld} : ∀ (ks : List Nat) (s : State), (∀ k ∈ ks, f.key ≠ (ENG_FLTCNT.count c k).key) →
    (ks.foldl (fun s k => s.wr (ENG_FLTCNT.count c k) 0) s).rd f = s.rd f
  | [], _, _ => rfl
  | k :: ks, s, h => (State.clearFaults_rd ks _ (fun j hj => h j (.tail _ hj))).trans (s.rd_wr_ne 0 (h k (.head _)))

theorem fltcnt_key (c k : Nat) : (ENG_FLTCNT.count c k).key = (0x80000 + 0x1000 * c + 0x100 + 8 * k) * 64 := by
  simp only [Fld.key, ENG_FLTCNT.count, Nat.add_zero]

theorem State.clearFaults_zero {c k : Nat} {ks : List Nat} (hk : k ∈ ks) {s : State} (hs : s.regsOk = true) :
    (ks.foldl (fun s k => s.wr (ENG_FLTCNT.count c k) 0) s).rd (ENG_FLTCNT.count c k) = 0 := by
  induction ks generalizing s with
  | nil => exact absurd hk List.not_mem_nil
  | cons j ks ih =>
    rw [List.foldl_cons]
    by_cases hmem : k ∈ ks
    · exact ih hmem (State.wr_regsOk hs _ 0)
    · have hj : k = j := (List.mem_cons.mp hk).resolve_right hmem
      subst hj
      rw [State.clearFaults_rd ks _ fun i hi => ?_, State.rd_wr_self hs, Nat.zero_mod]
      have hne : i ≠ k := fun h => hmem (h ▸ hi)
      rw [fltcnt_key, fltcnt_key]; omega

/-- The registers after a write that crossed the bridge are those that its effect left. -/
theorem tagged_rd (s : State) (cmd : Bool) (a mask v : Nat) (f : State → State) (g : Fld) :
    (tagged s cmd a mask v f).rd g = (f s.fdReach).rd g := by
  obtain ⟨d, hd⟩ := State.fdReply_only ((f s.fdReach).tagDone s.dies.nextTag 0) (.write s.dies.nextTag a mask v cmd) s.dies.nextTag 0
  show (State.fdReply _ _ _ _).2.rd g = _
  exact State.rd_congr (congrArg State.regs hd) g

/-- A test that is not running is not abandoned. -/
theorem State.abandonTest_none {s : State} {k : Nat} (hit : Nat → Bool) (h : Tbl.get 0 s.res.tests k = 0) : s.abandonTest k hit = s :=
  if_neg fun hn => hn.1 h

/-! ### The writes -/

section Writes
variable {s : State} {c : Nat} (hs : FdOpen s) (hc : c < 24)
include hs hc

theorem exec_engClroleWrite {role : Nat} (f : State → State) (hr : role < 3) (hf : s.fdReach.writeRole c role = f s.fdReach) :
    exec (.engClroleWrite c role) s = .next (tagged s false (0x80004 + 0x1000 * c) (2 ^ 32 - 1) role f) := by
  have hbits : bitsAt role 0 2 = role := by unfold bitsAt; omega
  show Host.Outcome.next (if c < 24 then s.poke (engAddr c 4) role else s) = _
  rw [if_pos hc]
  exact congrArg _ (State.poke_eng hc (by decide) hs rfl (by omega) rfl (fun _ _ => rfl)
    (by rw [hook_eng hc (by decide)]; exact congrArg some (by rw [hbits]; exact hf)))

theorem exec_engFlipRequest (f : State → State) (hf : s.fdReach.flipRequest c = f s.fdReach) :
    exec (.engFlipRequest c) s = .next (tagged s false (0x80010 + 0x1000 * c) (2 ^ 32 - 1) 256 f) := by
  show Host.Outcome.next (if c < 24 then s.poke (engAddr c 0x10) 256 else s) = _
  rw [if_pos hc]
  exact congrArg _ (State.poke_eng hc (by decide) hs rfl (by decide) rfl (fun _ _ => rfl)
    (by rw [hook_eng hc (by decide)]; exact congrArg some hf))

theorem exec_engCntclr : exec (.engCntclr c) s =
    .next (tagged s false (0x80044 + 0x1000 * c) (2 ^ 32 - 1) 1 (fun u => u.clearFaults c)) := by
  show Host.Outcome.next (if c < 24 then s.poke (engAddr c 0x44) 1 else s) = _
  rw [if_pos hc]
  exact congrArg _ (State.poke_eng hc (by decide) hs rfl (by decide) rfl (fun _ _ => rfl) (by rw [hook_eng hc (by decide)]; rfl))

end Writes

end Sys2Proof.Machine

namespace Sys2Proof
open Machine Claims

/-- R86 to R94, R110: the registers of a cluster's role and banks, and the ends of their drains. -/
theorem rolesAndFlips : Claims.RolesAndFlips := by
  refine ⟨fun s c role hs hc hr hne hl => ?_, fun s c role hs hc hr hne hl ht => ?_, fun s c hs hc hb h2 => ⟨fun h3 => ?_, fun h3 => ?_⟩,
    fun s c hs hc h2 => ?_, fun s c hs hok hc => ?_, fun s c hd hp => ?_, fun s c hd hp => ?_, fun s c hn hd hp => ?_⟩
  · refine exec_engClroleWrite hs hc _ hr ?_
    have hl' : s.fdReach.lastIngress c = true := hl
    have hne' : ¬(role = s.fdReach.rd (ENG_CLROLE.role c) ∨ 3 ≤ role) := fun h => h.elim hne (by omega)
    unfold State.writeRole
    rw [if_neg hne', if_pos hl']
  · refine exec_engClroleWrite hs hc _ hr ?_
    have hl' : ¬s.fdReach.lastIngress c = true := fun h => Bool.false_ne_true (hl.symm.trans h)
    have hne' : ¬(role = s.fdReach.rd (ENG_CLROLE.role c) ∨ 3 ≤ role) := fun h => h.elim hne (by omega)
    unfold State.writeRole State.changeRole
    rw [if_neg hne', if_neg hl', State.abandonTest_none (s := s.fdReach) _ ht]
  · exact exec_engFlipRequest hs hc _ (State.flipRequest_waits (s := s.fdReach) h2 h3)
  · exact exec_engFlipRequest hs hc _ (State.flipRequest_now (s := s.fdReach) h2 h3)
  · exact exec_engFlipRequest hs hc id (if_neg (show ¬s.fdReach.rd (bankState c (1 - s.fdReach.rd (ENG_BANKCTL.live_bank c))) = 2 from h2))
  · refine ⟨_, exec_engCntclr hs hc, fun k hk => ?_, fun f hf => ?_⟩
    · rw [tagged_rd]
      exact State.clearFaults_zero (s := s.fdReach) (List.mem_range.mpr hk) hok
    · rw [tagged_rd]
      exact State.clearFaults_rd _ s.fdReach fun k hk => hf k (List.mem_range.mp hk)
  · exact if_pos ⟨hd, hp⟩
  · show execBankDrainEnd c s = _
    simp [execBankDrainEnd, hd, hp]
  · show execBankDrainEnd c s = _
    simp [execBankDrainEnd, hn, hd, hp]

/-- R104, R107, R108, R521: spares and promotions. -/
theorem sparesAndPromotion : Claims.SparesAndPromotion := by
  refine ⟨fun s c slot hp => ⟨fun h0 => ?_, fun n hn ht => ?_⟩, fun s c n hc hn ht => ?_⟩
  · have hf : (s.setCluster c { s.cluster c with promoting := (s.cluster c).promoting.filter (fun e => e.1 != slot) }).rd
        (ENG_SPARES.free c) = 0 := h0
    show execPromotionDone c slot s = _
    unfold execPromotionDone
    dsimp only
    rw [if_pos hp, if_pos hf]
  · have hf : (s.setCluster c { s.cluster c with promoting := (s.cluster c).promoting.filter (fun e => e.1 != slot) }).rd
        (ENG_SPARES.free c) = n + 1 := hn
    have ha : ∀ x, (s.setCluster c x).abandonTest 0 (· == c) = s.setCluster c x := fun x =>
      State.abandonTest_none (s := s.setCluster c x) _ ht
    show execPromotionDone c slot s = _
    unfold execPromotionDone
    dsimp only
    rw [if_pos hp, hf, if_neg (Nat.succ_ne_zero n), ha]
    rfl
  · have hg : c < 24 ∧ 0 < s.rd (ENG_SPARES.free c) ∧ s.elapsed (Tbl.get 0 s.eng.spareTest c) (ms 10000) = true :=
      ⟨hc, by omega, State.elapsed_of_le ht⟩
    refine ⟨?_, ?_⟩ <;> show execSpareBackgroundTest c _ s = _ <;> unfold execSpareBackgroundTest <;> dsimp only <;> rw [if_pos hg]
    · rfl
    · rw [hn]; rfl

/-- Settles O18: a role and a flip through their registers over the bridge, the drains' ends, and the spares. -/
theorem clusterRolesAndSpares : Obligations.ClusterRolesAndSpares := ⟨rolesAndFlips, sparesAndPromotion⟩

end Sys2Proof
end

section
/-! SUPPORT. The host's commands that access registers, engine programs, program data, indirect tables, queues and counters (R90 to R93,
R158, R305, R346, R365, R611, R649, R654, R662). -/
namespace Sys2Proof.Machine
open Sys2Proof.Claims

/-! ### A command's access to a register -/

/-- Outside the Forwarding Die an access is carried out and answered at once. -/
theorem State.cmdAccess_local {s : State} {r a : Nat} (m : Nat → SbMsg) (f : State → Nat × State) (hf : isFdAddr a = false) :
    s.cmdAccess r a m f = (some (f s).1, (f s).2) := by
  simp [State.cmdAccess, State.viaSideband, State.fdAccess, hf]

section Crossing
variable {s : State} {r a : Nat} (m : Nat → SbMsg) (w : State → State) (hf : isFdAddr a = true) (hc : s.ctlFree false 1 = true)
include hf hc

/-- A write to the Forwarding Die crosses, is carried out there, and is answered at once or once the control class has room. -/
theorem State.fdAccess_crosses : s.fdAccess a m (fun s => (0, w s)) =
    ((w (crossed s)).tagDone s.dies.nextTag 0).fdReply (m s.dies.nextTag) s.dies.nextTag 0 := by
  have hc' : State.ctlFree { s with dies := { s.dies with nextTag := (s.dies.nextTag + 1) % 256 } } false 1 = true := hc
  unfold State.fdAccess State.nextTag
  rw [if_pos hf]
  dsimp only
  rw [if_pos hc']
  rfl

variable (hb : s.bridgeUp = true)
include hb

theorem State.cmdAccess_answered (hu : ((w (crossed s)).tagDone s.dies.nextTag 0).ctlFree true 1 = true) :
    s.cmdAccess r a m (fun s => (0, w s)) = (some 0, ((w (crossed s)).tagDone s.dies.nextTag 0).ctlNow true 1) := by
  have hv : s.viaSideband a = false := by simp [State.viaSideband, hb]
  simp only [State.cmdAccess, hv, Bool.false_eq_true, if_false, State.fdAccess_crosses m w hf hc, State.fdReply, hu, if_true]

theorem State.cmdAccess_waits (hu : ((w (crossed s)).tagDone s.dies.nextTag 0).ctlFree true 1 = false) :
    s.cmdAccess r a m (fun s => (0, w s)) = (none, (((w (crossed s)).tagDone s.dies.nextTag 0).fdReply (m s.dies.nextTag)
      s.dies.nextTag 0).2.updTaken r (fun x => { x with waits := true, cursor := s.dies.nextTag + 1 })) := by
  have hv : s.viaSideband a = false := by simp [State.viaSideband, hb]
  simp only [State.cmdAccess, hv, Bool.false_eq_true, if_false, State.fdAccess_crosses m w hf hc, State.fdReply, hu]

end Crossing

/-! ### REG_WRITE, REG_READ and REG_BULK -/

section RegWrite
variable {s : State} {r : Nat} {t : Taken} (h : Fresh s 0x01 r t)
include h

theorem exec_regWrite_bad (hbad : regBad (t.f 16 4) (t.f 24 4) = true) : exec .regWrite s = .next (s.finRefused r dBAD_ADDRESS) := by
  obtain ⟨hr, hw⟩ := h
  show execRegWrite s = _
  simp only [execRegWrite, hr, hw, hbad, Bool.false_eq_true, if_false, if_true]

theorem exec_regWrite_local (hbad : regBad (t.f 16 4) (t.f 24 4) = false) (hf : isFdAddr (t.f 16 4) = false) :
    exec .regWrite s = .next ((s.regWrite .cmd (t.f 16 4) (t.f 24 4) (t.f 20 4)).finDone r) := by
  obtain ⟨hr, hw⟩ := h
  show execRegWrite s = _
  simp only [execRegWrite, hr, hw, hbad, hf, Bool.false_eq_true, false_and, if_false, State.cmdAccess_local _ _ hf]

theorem exec_regWrite_unreachable (hbad : regBad (t.f 16 4) (t.f 24 4) = false) (hf : isFdAddr (t.f 16 4) = true)
    (hu : s.fdUnreachable = true) : exec .regWrite s = .next (s.finBusy r dIN_USE) := by
  obtain ⟨hr, hw⟩ := h
  show execRegWrite s = _
  simp only [execRegWrite, hr, hw, hbad, hf, hu, and_self, Bool.false_eq_true, if_false, if_true]

section Crossing
variable (hbad : regBad (t.f 16 4) (t.f 24 4) = false) (hf : isFdAddr (t.f 16 4) = true) (hu : s.fdUnreachable = false)
  (hb : s.bridgeUp = true) (hc : s.ctlFree false 1 = true)
include hbad hf hu hb hc

theorem exec_regWrite_answered
    (ha : (((crossed s).regWrite .cmd (t.f 16 4) (t.f 24 4) (t.f 20 4)).tagDone s.dies.nextTag 0).ctlFree true 1 = true) :
    exec .regWrite s = .next (((((crossed s).regWrite .cmd (t.f 16 4) (t.f 24 4) (t.f 20 4)).tagDone s.dies.nextTag 0).ctlNow
      true 1).finDone r) := by
  obtain ⟨hr, hw⟩ := h
  show execRegWrite s = _
  simp only [execRegWrite, hr, hw, hbad, hu, and_false, Bool.false_eq_true, if_false,
    State.cmdAccess_answered _ (fun s => s.regWrite .cmd (t.f 16 4) (t.f 24 4) (t.f 20 4)) hf hc hb ha]

theorem exec_regWrite_waits
    (ha : (((crossed s).regWrite .cmd (t.f 16 4) (t.f 24 4) (t.f 20 4)).tagDone s.dies.nextTag 0).ctlFree true 1 = false) :
    exec .regWrite s = .next ((tagged s true (t.f 16 4) (t.f 24 4) (t.f 20 4)
      (fun u => u.regWrite .cmd (t.f 16 4) (t.f 24 4) (t.f 20 4))).updTaken r
        (fun x => { x with waits := true, cursor := s.dies.nextTag + 1 })) := by
  obtain ⟨hr, hw⟩ := h
  show execRegWrite s = _
  simp only [execRegWrite, hr, hw, hbad, hu, and_false, Bool.false_eq_true, if_false,
    State.cmdAccess_waits _ (fun s => s.regWrite .cmd (t.f 16 4) (t.f 24 4) (t.f 20 4)) hf hc hb ha]
  rfl

end Crossing
end RegWrite

section RegRead
variable {s : State} {r : Nat} {t : Taken} (h : Fresh s 0x02 r t)
include h

/-- R648: a reserved offset reads 0. -/
theorem exec_regRead_reserved (hz : 2 ^ 24 ≤ t.f 16 4 ∨ isReserved (t.f 16 4) = true) : exec .regRead s =
    .next ((s.seatInput (.readData 0)).finData r 0 (leBytes 4 0 ++ List.replicate 20 0)) := by
  obtain ⟨hr, hw⟩ := h
  show execRegRead s = _
  simp only [execRegRead, hr, hw, Bool.false_eq_true, if_false, if_pos hz]

theorem exec_regRead_local (hlo : t.f 16 4 < 2 ^ 24) (hz : isReserved (t.f 16 4) = false) (hf : isFdAddr (t.f 16 4) = false) :
    exec .regRead s = .next (((s.regRead .cmd (t.f 16 4)).2.seatInput (.readData (s.regRead .cmd (t.f 16 4)).1)).finData r 0
      (leBytes 4 (s.regRead .cmd (t.f 16 4)).1 ++ List.replicate 20 0)) := by
  obtain ⟨hr, hw⟩ := h
  have hlo' : ¬2 ^ 24 ≤ t.f 16 4 := Nat.not_le.mpr hlo
  show execRegRead s = _
  simp only [execRegRead, hr, hw, hlo', hz, hf, Bool.false_eq_true, or_self, false_and, if_false, State.cmdAccess_local _ _ hf]

end RegRead

section RegBulk
variable {s : State} {r total buf : Nat} {t : Taken} (ht : (s.ring r).taken = some t) (hw : t.waits = false) (hp : t.progress < total)
include ht hw hp

/-- R158: a record with its last word set. -/
theorem regRun_reserved {n : Nat} (hz : leAt (s.dmaRead (buf + 16 * t.progress) 16) 12 4 ≠ 0) :
    regRun r total buf (n + 1) s = s.finishTok r .partial_ dRESERVED_SET t.progress 0 := by
  simp only [regRun, ht, hw, Nat.not_le.mpr hp, Bool.false_eq_true, if_false, if_pos hz]

section Record
variable (hz : leAt (s.dmaRead (buf + 16 * t.progress) 16) 12 4 = 0)
include hz

/-- R654: a record of an address that may not be written. -/
theorem regRun_bad {n : Nat} (hbad : regBad (leAt (s.dmaRead (buf + 16 * t.progress) 16) 0 4)
    (leAt (s.dmaRead (buf + 16 * t.progress) 16) 8 4) = true) :
    regRun r total buf (n + 1) s = s.finishTok r .partial_ dBAD_ADDRESS t.progress 0 := by
  simp only [regRun, ht, hw, Nat.not_le.mpr hp, hz, hbad, ne_eq, not_true, Bool.false_eq_true, if_false, if_true]

/-- A record outside the Forwarding Die is applied, and the run stands at the boundary after it. -/
theorem regRun_one (hbad : regBad (leAt (s.dmaRead (buf + 16 * t.progress) 16) 0 4)
    (leAt (s.dmaRead (buf + 16 * t.progress) 16) 8 4) = false) (hf : isFdAddr (leAt (s.dmaRead (buf + 16 * t.progress) 16) 0 4) = false) :
    regRun r total buf 1 s = ((s.regWrite .cmd (leAt (s.dmaRead (buf + 16 * t.progress) 16) 0 4)
      (leAt (s.dmaRead (buf + 16 * t.progress) 16) 8 4) (leAt (s.dmaRead (buf + 16 * t.progress) 16) 4 4)).regStep r total).2 := by
  simp only [regRun, ht, hw, Nat.not_le.mpr hp, hz, hbad, hf, ne_eq, not_true, Bool.false_eq_true, false_and, if_false,
    State.cmdAccess_local _ _ hf, ite_self]

end Record
end RegBulk

theorem exec_regBulk {s : State} {r n : Nat} {t : Taken} (hr : s.running 0x03 = some (r, t)) (hd : s.dmaOk = true) :
    exec (.regBulk n) s = .next (regRun r (t.f 24 4) (t.f 16 8) n s) := by
  show execRegBulk n s = _
  simp only [execRegBulk, hr, hd, if_true]

/-! ### Engine programs -/

theorem State.dmaRead_congr {s u : State} (h : u.hostMem = s.hostMem) : ∀ n a, u.dmaRead a n = s.dmaRead a n
  | 0, _ => rfl
  | n + 1, a => by rw [State.dmaRead, State.dmaRead, State.dmaRead_congr h n, State.hostByte, State.hostByte, h]

@[simp] theorem State.cmdCross_dmaRead (s : State) (a n : Nat) : s.cmdCross.dmaRead a n = s.dmaRead a n :=
  State.dmaRead_congr (by obtain ⟨d, h⟩ := s.cmdCross_only; rw [h]) n a

@[simp] theorem State.cmdCross_eng (s : State) : s.cmdCross.eng = s.eng := by obtain ⟨d, h⟩ := s.cmdCross_only; rw [h]

@[simp] theorem State.cmdCross_castleHolds (s : State) (c b : Nat) : s.cmdCross.castleHolds c b = s.castleHolds c b := by
  obtain ⟨d, h⟩ := s.cmdCross_only; rw [h]; rfl

@[simp] theorem State.cmdCross_pdataByte (s : State) (c o : Nat) : s.cmdCross.pdataByte c o = s.pdataByte c o := by
  simp only [State.pdataByte, State.cmdCross_eng]

/-- A flit takes nothing from the engines. -/
theorem State.putFlit_withEng (s : State) (e : Eng) (ft : Bool) (f : Flit) :
    State.putFlit { s with eng := e } ft f = { s.putFlit ft f with eng := e } := by
  cases ft <;> rfl

theorem State.cmdCross_withEng (s : State) (e : Eng) : State.cmdCross { s with eng := e } = { s.cmdCross with eng := e } := by
  simp only [State.cmdCross, State.ctlNow, State.putFlit_withEng]

/-- A bundle before the last crosses and is put into the bank. -/
theorem loadRun_one {s : State} {r c b len buf : Nat} {t : Taken} (ht : (s.ring r).taken = some t) (hc : s.cmdFree = true)
    (hp : t.progress + 1 < len) : loadRun r c b len buf 1 s = State.stepEntry { s.cmdCross with
      eng := { s.eng with bundles := Tbl.set 0 s.eng.bundles (bunKey c b t.progress)
                            (leAt (s.dmaRead (buf + 16 * t.progress) 16) 0 16) } } r := by
  simp only [loadRun, ht, hc, Nat.not_le.mpr hp, Bool.not_true, Bool.false_eq_true, if_false, ite_self, State.cmdCross_eng,
    State.cmdCross_dmaRead]

/-- The same with the engines' state `e`. -/
theorem loadRun_withEng {s : State} {e : Eng} {r c b len buf : Nat} {t : Taken} (ht : (s.ring r).taken = some t) (hc : s.cmdFree = true)
    (hp : t.progress + 1 < len) : loadRun r c b len buf 1 { s with eng := e } = State.stepEntry { s.cmdCross with
      eng := { e with bundles := Tbl.set 0 e.bundles (bunKey c b t.progress) (leAt (s.dmaRead (buf + 16 * t.progress) 16) 0 16) } } r := by
  have hd : State.dmaRead { s with eng := e } (buf + 16 * t.progress) 16 = s.dmaRead (buf + 16 * t.progress) 16 :=
    State.dmaRead_congr rfl _ _
  refine (loadRun_one (s := { s with eng := e }) ht hc hp).trans ?_
  rw [State.cmdCross_withEng, hd]

section EngLoad
variable {s : State} {r : Nat} {t : Taken} (h : Now s 0x30 r t) (hc : t.f 16 1 < 24) (hb : t.f 17 1 < 2) (hl : t.f 20 4 ≤ 32768)
include h hc hb hl

/-- R92: a bank that is LIVE or DRAINING takes no load. -/
theorem exec_engLoad_live {n : Nat} (h0 : t.cursor = 0)
    (hs : s.rd (bankState (t.f 16 1) (t.f 17 1)) = 3 ∨ s.rd (bankState (t.f 16 1) (t.f 17 1)) = 4) :
    exec (.engLoad n) s = .next (s.finBusy r dLIVE_RESOURCE) := by
  have hops : ¬(24 ≤ t.f 16 1 ∨ 2 ≤ t.f 17 1 ∨ 32768 < t.f 20 4) := by omega
  show execEngLoad n s = _
  rw [execEngLoad, fdBulk_now h rfl]
  simp only [if_neg hops, if_pos h0, if_pos hs]

/-- A load under way goes on under its token. -/
theorem exec_engLoad_more {n : Nat} (h0 : t.cursor ≠ 0) (hs : s.rd (bankState (t.f 16 1) (t.f 17 1)) = 1)
    (ht : (Tbl.get (0, 0) s.eng.loads (2 * t.f 16 1 + t.f 17 1)).1 = t.cursor) :
    exec (.engLoad n) s = .next (loadRun r (t.f 16 1) (t.f 17 1) (t.f 20 4) (t.f 24 8) n
      { s with eng := { s.eng with loads := Tbl.set (0, 0) s.eng.loads (2 * t.f 16 1 + t.f 17 1) (t.cursor, r) } }) := by
  have hops : ¬(24 ≤ t.f 16 1 ∨ 2 ≤ t.f 17 1 ∨ 32768 < t.f 20 4) := by omega
  show execEngLoad n s = _
  rw [execEngLoad, fdBulk_now h rfl]
  simp only [if_neg hops, if_neg h0, hs, ht, and_self, if_true]

theorem exec_engLoad_one (h0 : t.cursor ≠ 0) (hs : s.rd (bankState (t.f 16 1) (t.f 17 1)) = 1)
    (ht : (Tbl.get (0, 0) s.eng.loads (2 * t.f 16 1 + t.f 17 1)).1 = t.cursor) (hp : t.progress + 1 < t.f 20 4) :
    exec (.engLoad 1) s = .next (State.stepEntry { s.cmdCross with
      eng := { s.eng with
        loads := Tbl.set (0, 0) s.eng.loads (2 * t.f 16 1 + t.f 17 1) (t.cursor, r)
        bundles := Tbl.set 0 s.eng.bundles (bunKey (t.f 16 1) (t.f 17 1) t.progress)
          (leAt (s.dmaRead (t.f 24 8 + 16 * t.progress) 16) 0 16) } } r) := by
  rw [exec_engLoad_more h hc hb hl h0 hs ht, loadRun_withEng (taken_now h) (cmdFree_now h) hp]

end EngLoad

/-! ### The end of a load -/

theorem bankLen_key (c b : Nat) : (bankLen c b).key = (0x80000 + 0x1000 * c + (if b = 0 then 0x18 else 0x1C)) * 64 := by
  unfold bankLen; split <;> simp only [Fld.key, ENG_BANKLEN0.length, ENG_BANKLEN1.length, Nat.add_zero]

theorem failRule_key (c : Nat) : (ENG_BANKSTAT.fail_rule c).key = (0x80000 + 0x1000 * c + 0x14) * 64 + 8 := by
  simp only [Fld.key, ENG_BANKSTAT.fail_rule]

theorem failBundle_key (c : Nat) : (ENG_BANKSTAT.fail_bundle c).key = (0x80000 + 0x1000 * c + 0x14) * 64 + 16 := by
  simp only [Fld.key, ENG_BANKSTAT.fail_bundle]

/-- A bank's load has ended, and the bank's cluster shows no failure. -/
def State.loadEnded (s : State) (c b : Nat) : State :=
  let u : State := { s with eng := { s.eng with loads := Tbl.erase s.eng.loads (2 * c + b) } }
  (u.wr (ENG_BANKSTAT.fail_rule c) 0).wr (ENG_BANKSTAT.fail_bundle c) 0

/-- A bank other than the live one, loaded with a program that R90 accepts: it is READY with the program's length. -/
def State.bankLoaded (s : State) (c b len : Nat) : State :=
  ((s.loadEnded c b).wr (bankState c b) 2).wr (bankLen c b) len

theorem State.loadEnded_liveBank (s : State) (c b : Nat) :
    (s.loadEnded c b).rd (ENG_BANKCTL.live_bank c) = s.rd (ENG_BANKCTL.live_bank c) := by
  have hbundle : (ENG_BANKCTL.live_bank c).key ≠ (ENG_BANKSTAT.fail_bundle c).key := by rw [liveBank_key, failBundle_key]; omega
  have hrule : (ENG_BANKCTL.live_bank c).key ≠ (ENG_BANKSTAT.fail_rule c).key := by rw [liveBank_key, failRule_key]; omega
  unfold State.loadEnded
  rw [State.rd_wr_ne _ _ hbundle, State.rd_wr_ne _ _ hrule]
  rfl

theorem State.loadEnded_regsOk {s : State} (h : s.regsOk = true) (c b : Nat) : (s.loadEnded c b).regsOk = true :=
  State.wr_regsOk (State.wr_regsOk (s := { s with eng := _ }) h _ 0) _ 0

section EngLoaded
variable {s : State} {c b len : Nat}

/-- R90 to R92: the end of a load of a program without failures. -/
theorem State.engLoaded_eq {r : Nat} (hf : firstFailure ((List.range len).map (fun i => s.bundle c b i)) = (0, 0))
    (hl : b ≠ s.rd (ENG_BANKCTL.live_bank c)) :
    s.engLoaded r c b len = (s.bankLoaded c b len).finish r { status := .done, detail := 0, progress := len } := by
  have hst : (if b = (s.loadEnded c b).rd (ENG_BANKCTL.live_bank c) then 3 else 2) = 2 := by
    rw [State.loadEnded_liveBank, if_neg hl]
  unfold State.engLoaded
  dsimp only
  rw [hf]
  refine (if_neg fun h => h rfl).trans ?_
  exact congrArg (fun st => (((s.loadEnded c b).wr (bankState c b) st).wr (bankLen c b) len).finish r
    { status := .done, detail := 0, progress := len }) hst

variable (hs : s.regsOk = true)
include hs

theorem State.bankLoaded_state : (s.bankLoaded c b len).rd (bankState c b) = 2 := by
  have hne : (bankState c b).key ≠ (bankLen c b).key := by rw [bankState_key, bankLen_key]; split <;> omega
  unfold State.bankLoaded
  rw [State.rd_wr_ne _ _ hne, State.rd_wr_self (State.loadEnded_regsOk hs c b), bankState_width]
  rfl

theorem State.bankLoaded_len : (s.bankLoaded c b len).rd (bankLen c b) = len % 2 ^ (bankLen c b).width :=
  State.rd_wr_self (State.wr_regsOk (State.loadEnded_regsOk hs c b) _ 2) _ len

end EngLoaded

/-! ### ENG_FLIP and program data -/

section EngFlip
variable {s : State} {r : Nat} {t : Taken} (h : Now s 0x31 r t) (hc : t.f 16 1 < 24)
include h hc

theorem exec_engFlip_ready (h2 : s.rd (bankState (t.f 16 1) (1 - s.rd (ENG_BANKCTL.live_bank (t.f 16 1)))) = 2)
    (hk : s.castleHolds (t.f 16 1) (1 - s.rd (ENG_BANKCTL.live_bank (t.f 16 1))) = false) :
    exec .engFlip s = .next ((s.cmdCross.askFlip (t.f 16 1)).finDone r) := by
  show execEngFlip s = _
  rw [execEngFlip, fdOp_now h rfl]
  simp only [State.cmdCross_rd, State.cmdCross_castleHolds, if_neg (Nat.not_le.mpr hc), h2, hk, ne_eq, not_true, Bool.false_eq_true,
    or_self, if_false]

theorem exec_engFlip_busy (h2 : s.rd (bankState (t.f 16 1) (1 - s.rd (ENG_BANKCTL.live_bank (t.f 16 1)))) ≠ 2) :
    exec .engFlip s = .next (s.cmdCross.finBusy r dIN_USE) := by
  show execEngFlip s = _
  rw [execEngFlip, fdOp_now h rfl]
  simp only [State.cmdCross_rd, State.cmdCross_castleHolds, if_neg (Nat.not_le.mpr hc), ne_eq, h2, not_false_eq_true, true_or, if_true]

end EngFlip

/-- An entry of PDATA_WRITE to one cluster. -/
theorem exec_pdataWrite_one {s : State} {r : Nat} {t : Taken} (h : Now s 0x32 r t) (hbad : pdataBad t false = false)
    (hall : bitOf (t.f 17 1) 0 = false) (hp : t.progress < t.f 24 4 / 8) :
    exec (.pdataWrite 1) s = .next (afterEntry (s.cmdCross.setPdata (t.f 16 1) (t.f 20 4 + 8 * t.progress)
      (s.dmaRead (t.f 32 8 + 8 * t.progress) 8)) r (t.f 24 4 / 8) t) := by
  show execPdataWrite 1 s = _
  rw [execPdataWrite, fdBulk_now h rfl]
  simp only [hall, hbad, Bool.false_eq_true, if_false]
  refine congrArg _ (bulkRun_now h hp ?_)
  rw [State.cmdCross_dmaRead]
  rfl

/-- An entry of PDATA_READ. -/
theorem exec_pdataRead_one {s : State} {r : Nat} {t : Taken} (h : Now s 0x33 r t) (hbad : pdataBad t false = false)
    (hp : t.progress < t.f 24 4 / 8) :
    exec (.pdataRead 1) s = .next (afterEntry (s.cmdCross.dmaWrite (t.f 32 8 + 8 * t.progress) ((List.range 8).map
      (fun i => s.pdataByte (t.f 16 1) (t.f 20 4 + 8 * t.progress + i)))) r (t.f 24 4 / 8) t) := by
  show execPdataRead 1 s = _
  rw [execPdataRead, fdBulk_now h rfl]
  simp only [hbad, Bool.false_eq_true, if_false]
  refine congrArg _ (bulkRun_now h hp ?_)
  simp only [State.cmdCross_pdataByte]

/-! ### Indirect tables -/

section Ind
variable {s : State} {r : Nat} {t : Taken} (hi : t.f 16 1 ≠ 16)
include hi

theorem exec_indWrite (hr : s.running 0x38 = some (r, t)) : exec .indWrite s =
    .next ((s.indWrite (t.f 16 1) (t.f 20 4) ((List.range 6).map (fun i => t.f (24 + 4 * i) 4))).2.finWith r
      (s.indWrite (t.f 16 1) (t.f 20 4) ((List.range 6).map (fun i => t.f (24 + 4 * i) 4))).1) := by
  show execIndWrite s = _
  simp only [execIndWrite, hr, State.viaInd, if_pos hi]

section Read
variable (hr : s.running 0x39 = some (r, t))
include hr

theorem exec_indRead_some {w : List Nat} (hw : s.indRead (t.f 16 1) (t.f 20 4) = some w) :
    exec .indRead s = .next (s.finData r 0 ((List.range 6).flatMap (fun i => leBytes 4 (wordAt w i)))) := by
  show execIndRead s = _
  simp only [execIndRead, hr, State.viaInd, if_pos hi, hw]

/-- A target or an index out of range. -/
theorem exec_indRead_none (hw : s.indRead (t.f 16 1) (t.f 20 4) = none) : exec .indRead s = .next (s.finRefused r dBAD_OPERAND) := by
  show execIndRead s = _
  simp only [execIndRead, hr, State.viaInd, if_pos hi, hw]

end Read

section Bulk
variable {d : Nat} {u : State} (hr : s.running 0x3A = some (r, t)) (hd : s.dmaOk = true) (hp : t.progress < t.f 32 4)
  (hz : leAt (s.dmaRead (t.f 24 8 + 32 * t.progress) 32) 4 4 = 0)
include hr hd hp hz

/-- A record that is accepted. -/
theorem exec_indBulk_one (h0 : d = 0) (hx : s.indWrite (t.f 16 1) (leAt (s.dmaRead (t.f 24 8 + 32 * t.progress) 32) 0 4)
    ((List.range 6).map (fun i => leAt (s.dmaRead (t.f 24 8 + 32 * t.progress) 32) (8 + 4 * i) 4)) = (d, u)) :
    exec (.indBulk 1) s = .next (afterEntry u r (t.f 32 4) t) := by
  subst h0
  obtain ⟨_, ht, _, _⟩ := State.running_taken hr
  show execIndBulk 1 s = _
  simp only [execIndBulk, hr, hd, State.viaInd, if_pos hi, Bool.not_true, Bool.false_eq_true, if_false]
  refine congrArg _ (bulkRun_one ht hp ?_)
  simp only [hz, hx, ne_eq, not_true, if_false]

/-- A record that is refused ends the command PARTIAL. -/
theorem exec_indBulk_stop (hn : d ≠ 0) (hx : s.indWrite (t.f 16 1) (leAt (s.dmaRead (t.f 24 8 + 32 * t.progress) 32) 0 4)
    ((List.range 6).map (fun i => leAt (s.dmaRead (t.f 24 8 + 32 * t.progress) 32) (8 + 4 * i) 4)) = (d, u)) :
    exec (.indBulk 1) s = .next (u.finishTok r .partial_ d t.progress 0) := by
  obtain ⟨_, ht, _, _⟩ := State.running_taken hr
  obtain ⟨e, rfl⟩ := Nat.exists_eq_succ_of_ne_zero hn
  show execIndBulk 1 s = _
  simp only [execIndBulk, hr, hd, State.viaInd, if_pos hi, Bool.not_true, Bool.false_eq_true, if_false]
  refine congrArg _ (bulkRun_stop ht hp ?_)
  simp only [hz, hx, ne_eq, not_true, if_false]

end Bulk
end Ind

/-! ### Queues and counters -/

/-- QUEUE_FLUSH of an egress queue, of a VOQ, or refused. -/
theorem exec_queueFlush {s : State} {r : Nat} {t : Taken} (hr : s.running 0x3B = some (r, t)) : exec .queueFlush s =
    if t.f 16 1 = 0 ∧ t.f 20 4 < 1048576 then .next ((s.flush (t.f 20 4) 0xF).finDone r)
    else if t.f 16 1 = 1 ∧ t.f 20 4 < 65536 then .next ((s.flush (voqKey (t.f 20 4)) 0xF).finDone r)
    else .next (s.finRefused r dBAD_OPERAND) := by
  show execQueueFlush s = _
  simp only [execQueueFlush, hr]

/-- A pair of CNT_READ that storage returns whole. -/
theorem exec_cntRead_one {s : State} {r : Nat} {t : Taken} (hr : s.running 0x40 = some (r, t)) (hd : s.dmaOk = true)
    (hp : t.progress < t.f 20 4) (hn : t.f 20 4 ≤ 16777216) (hl : t.f 16 4 + t.f 20 4 ≤ 67108864) :
    let i := t.f 16 4 + t.progress
    let u := s.dmaWrite (t.f 32 8 + 16 * t.progress) (leBytes 8 (s.cntValue i).1 ++ leBytes 8 (s.cntValue i).2)
    exec (.cntRead 1 []) s = .next (afterEntry (if bitOf (t.f 24 1) 0 then u.cntClear i else u) r (t.f 20 4) t) := by
  have hops : ¬(t.f 20 4 = 0 ∨ 16777216 < t.f 20 4 ∨ 67108864 < t.f 16 4 + t.f 20 4) := by omega
  obtain ⟨_, ht, _, _⟩ := State.running_taken hr
  show execCntRead 1 [] s = _
  simp only [execCntRead, hr, if_neg hops, hd, Bool.not_true, Bool.false_eq_true, if_false]
  refine congrArg _ (bulkRun_one ht hp ?_)
  simp only [List.contains_nil, Bool.false_and, Bool.false_eq_true, if_false]

end Sys2Proof.Machine

namespace Sys2Proof
open Machine Claims

/-- Settles O35: each of the host's commands by what it does on the executor's descriptor. -/
theorem hostCommands : Obligations.HostCommands := by
  refine ⟨fun s r t h => ⟨exec_regWrite_bad h, exec_regWrite_local h, exec_regWrite_unreachable h,
      fun hbad hf hu hb hc => ⟨exec_regWrite_answered h hbad hf hu hb hc, exec_regWrite_waits h hbad hf hu hb hc⟩⟩,
    fun s r t h => ⟨exec_regRead_reserved h, exec_regRead_local h⟩,
    fun s r t h hd hp => ?regBulk,
    fun s r t h hc hb hl => ⟨exec_engLoad_live h hc hb hl, fun h0 hs ht hp => exec_engLoad_one h hc hb hl h0 hs ht hp⟩,
    fun s r c b len hf hl => ⟨_, State.engLoaded_eq hf hl, fun hs => ⟨State.bankLoaded_state hs, State.bankLoaded_len hs⟩⟩,
    fun s r t h hc => ⟨exec_engFlip_ready h hc, exec_engFlip_busy h hc⟩,
    fun s r t h hbad hall hp => exec_pdataWrite_one h hbad hall hp,
    fun s r t h hbad hp => exec_pdataRead_one h hbad hp,
    fun s r t hi => ⟨exec_indWrite hi, fun w hr hw => exec_indRead_some hi hr hw, fun hr hw => exec_indRead_none hi hr hw,
      fun d u hr hd hp hz hx => ⟨fun h0 => exec_indBulk_one hi hr hd hp hz h0 hx, fun hn => exec_indBulk_stop hi hr hd hp hz hn hx⟩⟩,
    fun s r t hr => ⟨fun hk hq => (exec_queueFlush hr).trans (if_pos ⟨hk, hq⟩), fun hk hq => ?voq, fun hk => ?other⟩,
    fun s r t hr hd hp hn hl => exec_cntRead_one hr hd hp hn hl⟩
  case regBulk =>
    obtain ⟨hr, hw⟩ := h
    obtain ⟨_, ht, _, _⟩ := State.running_taken hr
    have hp' : t.progress < t.f 24 4 := by omega
    rw [exec_regBulk hr hd]
    exact ⟨fun hz => congrArg _ (regRun_reserved ht hw hp' hz), fun hz hbad => congrArg _ (regRun_bad ht hw hp' hz hbad),
      fun hz hbad hf => congrArg _ (regRun_one ht hw hp' hz hbad hf)⟩
  case voq => rw [exec_queueFlush hr, if_neg (by omega), if_pos ⟨hk, hq⟩]
  case other => rw [exec_queueFlush hr, if_neg (by omega), if_neg (by omega)]

end Sys2Proof
end

section
/-! SUPPORT. The calls of the FIB (R124, R130 to R133, R137): the keys of prefixes, what a search finds, and what each command answers. -/
namespace Sys2Proof.Machine
open Sys2Proof.Claims

/-! ### The keys of prefixes -/

theorem keepBits_le (v l : Nat) : keepBits v l ≤ v := Nat.div_mul_le_self v (2 ^ (128 - l))

/-- The kept bits agree exactly where the first bits do. -/
theorem keepBits_eq_iff (v w l : Nat) : keepBits v l = keepBits w l ↔ v / 2 ^ (128 - l) = w / 2 ^ (128 - l) :=
  Nat.mul_left_inj (Nat.two_pow_pos _).ne'

theorem fibKey_eq_iff (vrf fam6 l v w : Nat) : fibKey vrf fam6 l v = fibKey vrf fam6 l w ↔ v / 2 ^ (128 - l) = w / 2 ^ (128 - l) :=
  Nat.add_left_cancel_iff.trans (keepBits_eq_iff v w l)

section Fields
variable {v : Nat} (hv : v < 2 ^ 128)
include hv

/-- Above its address bits a key holds VRF, family and length. -/
theorem fibKey_div (vrf fam6 l : Nat) : fibKey vrf fam6 l v / 2 ^ 128 = (vrf * 2 + fam6) * 256 + l := by
  have hk : keepBits v l < 2 ^ 128 := (keepBits_le v l).trans_lt hv
  rw [fibKey, Nat.add_comm, Nat.add_mul_div_right _ _ (by decide), Nat.div_eq_of_lt hk, Nat.zero_add]

theorem fibLen_fibKey {l : Nat} (hl : l < 256) (vrf fam6 : Nat) : fibLen (fibKey vrf fam6 l v) = l := by
  rw [fibLen, fibKey_div hv]; omega

/-- R124: keys of prefixes that differ in VRF, family or length differ. -/
theorem fibKey_inj {w vrf vrf' fam6 fam6' l l' : Nat} (hw : w < 2 ^ 128) (h6 : fam6 < 2) (h6' : fam6' < 2) (hl : l ≤ 128) (hl' : l' ≤ 128)
    (h : fibKey vrf fam6 l v = fibKey vrf' fam6' l' w) : vrf = vrf' ∧ fam6 = fam6' ∧ l = l' := by
  have hd := congrArg (· / 2 ^ 128) h
  simp only [fibKey_div hv, fibKey_div hw] at hd
  omega

end Fields

/-! ### The key of a call -/

theorem beNat_lt : ∀ (l : List Nat), beNat l < 256 ^ l.length := fun l => by
  rw [← l.reverse_reverse, beNat_reverse, List.length_reverse]
  induction l.reverse with
  | nil => decide
  | cons b r ih => rw [leNat, List.length_cons, Nat.pow_succ]; omega

theorem sliceB_length (l : List Nat) (i n : Nat) : (sliceB l i n).length = n := by simp [sliceB]

theorem addrBits_lt (fam6 : Nat) (b : List Nat) : addrBits fam6 b < 2 ^ 128 := by
  have h := fun n => (sliceB_length b 0 n) ▸ beNat_lt (sliceB b 0 n)
  have h4 := h 4
  have h16 := h 16
  unfold addrBits
  split <;> omega

/-- The address of a FIB call's key is one of 128 bits. -/
theorem fibCallKey_addr_lt {c : Call} {vrf fam6 v : Nat} (h : fibCallKey c = .inr (vrf, fam6, v)) : v < 2 ^ 128 := by
  simp only [fibCallKey] at h
  split_ifs at h <;> cases h <;> exact addrBits_lt _ _

theorem maxLen_lt (fam6 : Nat) : maxLen fam6 < 256 := by unfold maxLen; split <;> decide

/-! ### The search -/

/-- A search down the lengths finds the first length at which something stands. -/
theorem findSome?_range_reverse {α : Type} {f : Nat → Option α} {l : Nat} {x : α} : ∀ {n : Nat}, l < n → f l = some x →
    (∀ m, m < n → l < m → f m = none) → (List.range n).reverse.findSome? f = some x
  | n + 1, hl, hx, hm => by
    rw [List.range_succ, List.reverse_append, List.reverse_singleton, List.singleton_append, List.findSome?_cons]
    rcases Nat.lt_succ_iff_lt_or_eq.mp hl with h | rfl
    · rw [hm n (Nat.lt_succ_self n) h]
      exact findSome?_range_reverse h hx fun m hn => hm m (hn.trans (Nat.lt_succ_self n))
    · rw [hx]

/-- R124: a search finds the longest entry that covers its address. -/
theorem fibMatch_longest {s : State} {vrf fam6 v l : Nat} {e : FibEnt} (h : Longest s vrf fam6 v l e) :
    s.fibMatch vrf fam6 v = some (fibKey vrf fam6 l v, e) := by
  obtain ⟨hl, he, hmax, _⟩ := h
  refine findSome?_range_reverse (Nat.lt_succ_of_le hl) (by rw [he]; rfl) fun m hm hlm => ?_
  rw [hmax m (Nat.le_of_lt_succ hm) hlm]; rfl

theorem fibMatch_none {s : State} {vrf fam6 v : Nat} (h : ∀ l, l ≤ maxLen fam6 → s.fibAt (fibKey vrf fam6 l v) = none) :
    s.fibMatch vrf fam6 v = none := by
  refine List.findSome?_eq_none_iff.mpr fun l hl => ?_
  rw [h l (by simpa [Nat.lt_succ_iff] using hl)]; rfl

/-- A search that finds its longest entry: the word corrected and the answer. -/
theorem fibCorrects_longest {s : State} {vrf fam6 v l : Nat} {e : FibEnt} (h : Longest s vrf fam6 v l e) :
    s.fibCorrects vrf fam6 v = s.corrects [(0, fibKey vrf fam6 l v)] := by
  unfold State.fibCorrects; rw [fibMatch_longest h]

theorem fibAnswer_longest {s : State} {vrf fam6 v l : Nat} {e : FibEnt} (h : Longest s vrf fam6 v l e) (hv : v < 2 ^ 128) (tier hot : Nat) :
    s.fibAnswer vrf fam6 v tier hot = resultBytes stHIT 0 (l + tier * 256 + hot * 512) e.route := by
  have ⟨hl, _, _, hw⟩ := h
  have hecc : s.lkp.eccUnc.contains (0, fibKey vrf fam6 l v) = false := by simpa using hw
  simp only [State.fibAnswer, fibMatch_longest h, hecc, fibLen_fibKey hv (hl.trans_lt (maxLen_lt fam6)), Bool.false_eq_true, if_false]

/-- The search of an address that no entry covers. -/
theorem fibCorrects_none {s : State} {vrf fam6 v : Nat} (h : ∀ l, l ≤ maxLen fam6 → s.fibAt (fibKey vrf fam6 l v) = none) :
    s.fibCorrects vrf fam6 v = s := by unfold State.fibCorrects; rw [fibMatch_none h]

theorem fibAnswer_none {s : State} {vrf fam6 v : Nat} (h : ∀ l, l ≤ maxLen fam6 → s.fibAt (fibKey vrf fam6 l v) = none) (tier hot : Nat) :
    s.fibAnswer vrf fam6 v tier hot = resultBytes stMISS 0 0 [] := by unfold State.fibAnswer; rw [fibMatch_none h]

/-- The count of a block leaves the FIB and what its words hold. -/
theorem countBlock_longest {s : State} {vrf fam6 v l : Nat} {e : FibEnt} (r : Nat) (h : Longest s vrf fam6 v l e) :
    Longest (s.countBlock r) vrf fam6 v l e := by
  unfold State.countBlock
  split
  · exact h
  · exact h

/-! ### The tail queues -/

/-- The tail queue of a pipe replaced. -/
def State.setTailQ (s : State) (pipe : Nat) (q : List Nat) : State :=
  { s with lkp := { s.lkp with tailQ := Tbl.set [] s.lkp.tailQ pipe q } }

/-- A call waits at the end of its pipe's tail queue `q` (R130). -/
def State.queueTail (s : State) (call : Nat) (c : Call) (q : List Nat) : State :=
  (s.setTailQ c.pipe (q ++ [call])).setCall call { c with tail := true }

theorem State.tailQ_queueTail (s : State) (call : Nat) (c : Call) (q : List Nat) :
    Tbl.get [] (s.queueTail call c q).lkp.tailQ c.pipe = q ++ [call] := by
  show Tbl.get [] (Tbl.set [] s.lkp.tailQ c.pipe (q ++ [call])) c.pipe = _
  rw [Tbl.set, if_neg (by simp), Tbl.get_ins_self]

theorem State.callAt_queueTail (s : State) (call : Nat) (c : Call) (q : List Nat) :
    (s.queueTail call c q).callAt call = some { c with tail := true } := by
  simp only [State.callAt, State.queueTail, State.setCall, Tbl.find_ins, Option.map_some]

/-! ### FIB_LOOKUP -/

section Lookup
variable {s0 : State} {ups : List (Nat × Nat × Bool)} {call : Nat} {c : Call} (hp : (s0.upset ups).presented call 0 = some c)
include hp

theorem exec_fibLookup_badKey {e : Nat} (hk : fibCallKey c = .inl e) :
    exec (.fibLookup call ups) s0 = .next ((s0.upset ups).answer call c (errorResult stKEY_ERROR 0 e)) := by
  show execFibLookup call ups s0 = _
  simp only [execFibLookup, hp, hk]

variable {vrf fam6 v : Nat} (hk : fibCallKey c = .inr (vrf, fam6, v))
include hk

/-- A search that meets no tail pointer is answered at once (R124). -/
theorem exec_fibLookup_onDie (hr : (s0.upset ups).tailRoot vrf fam6 v = none) : exec (.fibLookup call ups) s0 =
    .next (((s0.upset ups).fibCorrects vrf fam6 v).answer call c ((s0.upset ups).fibAnswer vrf fam6 v 0 0)) := by
  show execFibLookup call ups s0 = _
  simp only [execFibLookup, hp, hk, hr]

variable {r : Nat} (hr : (s0.upset ups).tailRoot vrf fam6 v = some r)
include hr

/-- A search that meets a tail pointer with a hot copy (R137). -/
theorem exec_fibLookup_hot (hh : (s0.upset ups).lkp.hot.any (fun x => x.1 == r) = true) : exec (.fibLookup call ups) s0 =
    .next ((((s0.upset ups).countBlock r).fibCorrects vrf fam6 v).answer call c ((s0.upset ups).fibAnswer vrf fam6 v 0 1)) := by
  show execFibLookup call ups s0 = _
  simp only [execFibLookup, hp, hk, hr, if_pos hh]

variable (hh : (s0.upset ups).lkp.hot.any (fun x => x.1 == r) = false)
include hh

theorem exec_fibLookup_tailNeeded (h1 : c.select = 1) :
    exec (.fibLookup call ups) s0 = .next ((s0.upset ups).answer call c (resultBytes stMISS 0 1024 [])) := by
  show execFibLookup call ups s0 = _
  simp only [execFibLookup, hp, hk, hr, hh, Bool.false_eq_true, if_false, if_pos h1]

variable (h1 : c.select ≠ 1)
include h1

theorem exec_fibLookup_down (hx : (s0.upset ups).lkp.xfibDown = true) :
    exec (.fibLookup call ups) s0 = .next ((s0.upset ups).answer call c (errorResult stTABLE_ERROR 0 rXFIB_DOWN)) := by
  show execFibLookup call ups s0 = _
  simp only [execFibLookup, hp, hk, hr, hh, Bool.false_eq_true, if_false, if_neg h1, if_pos hx]

variable (hx : (s0.upset ups).lkp.xfibDown = false)
include hx

/-- R132: a full tail queue. -/
theorem exec_fibLookup_overload (hq : (s0.upset ups).rd LKP_TAILCFG.depth ≤ (Tbl.get [] (s0.upset ups).lkp.tailQ c.pipe).length) :
    exec (.fibLookup call ups) s0 = .next (((((s0.upset ups).inc (LKP_TAILOVL.count c.pipe)).answer call c
      (errorResult stTABLE_ERROR 0 rTAIL_OVERLOAD)).postRated 0x0203 c.pipe (ms 1) 1 (fun n => [c.pipe, 0, 0, 0] ++ leBytes 4 n))) := by
  show execFibLookup call ups s0 = _
  simp only [execFibLookup, hp, hk, hr, hh, hx, Bool.false_eq_true, if_false, if_neg h1, if_pos hq]

/-- A descent is queued behind those of its pipe. -/
theorem exec_fibLookup_queued (hq : (Tbl.get [] (s0.upset ups).lkp.tailQ c.pipe).length < (s0.upset ups).rd LKP_TAILCFG.depth) :
    exec (.fibLookup call ups) s0 = .next ((((s0.upset ups).countBlock r).inc (LKP_TAILCNT.count c.pipe)).queueTail call c
      (Tbl.get [] (s0.upset ups).lkp.tailQ c.pipe)) := by
  show execFibLookup call ups s0 = _
  simp only [execFibLookup, hp, hk, hr, hh, hx, Bool.false_eq_true, if_false, if_neg h1, if_neg (Nat.not_le.mpr hq)]
  rfl

end Lookup

/-! ### TAIL_DESCENT -/

section Descent
variable {s0 : State} {ups : List (Nat × Nat × Bool)} {pipe call : Nat} {rest : List Nat} {c : Call}
  (hq : Tbl.get [] (s0.upset ups).lkp.tailQ pipe = call :: rest) (hc : (s0.upset ups).callAt call = some c)
include hq hc

/-- The oldest descent of a pipe leaves its queue. -/
theorem exec_tailDescent_cons : exec (.tailDescent pipe ups) s0 = .next (if (s0.upset ups).lkp.xfibDown
    then ((s0.upset ups).setTailQ pipe rest).answer call c (errorResult stTABLE_ERROR 0 rXFIB_DOWN)
    else match fibCallKey c with
      | .inr (vrf, fam6, v) => (((s0.upset ups).setTailQ pipe rest).fibCorrects vrf fam6 v).answer call c
          (((s0.upset ups).setTailQ pipe rest).fibAnswer vrf fam6 v 1 0)
      | .inl r => ((s0.upset ups).setTailQ pipe rest).answer call c (errorResult stKEY_ERROR 0 r)) := by
  show execTailDescent pipe ups s0 = _
  simp only [execTailDescent, hq]
  show (match (s0.upset ups).callAt call with
    | none => _
    | some c => _) = _
  rw [hc]
  simp only
  split
  · rfl
  · rcases fibCallKey c with r | ⟨vrf, fam6, v⟩ <;> rfl

end Descent

end Sys2Proof.Machine

namespace Sys2Proof
open Machine Claims

/-- Settles O22: a search finds the first covering length from the longest down, and each command's branch gives the answer. -/
theorem fibReturnsLongestPrefix : Obligations.FibReturnsLongestPrefix := by
  refine ⟨fun s0 ups call c vrf fam6 v hp hk hr => ⟨fun l e h => ?_, fun h => ?_⟩,
    fun s0 ups call c vrf fam6 v r hp hk hr => ⟨fun l e hh h => ?_, fun hh => ⟨exec_fibLookup_tailNeeded hp hk hr hh,
      exec_fibLookup_down hp hk hr hh, exec_fibLookup_overload hp hk hr hh, fun h1 hx hq => ?_⟩⟩,
    fun s0 ups pipe call rest c vrf fam6 v hq hc hk => ⟨fun hx => ?_, fun l e hx h => ?_, fun hx h => ?_⟩,
    fun s0 ups call c e hp hk => exec_fibLookup_badKey hp hk,
    fun vrf fam6 l v w _ _ _ => fibKey_eq_iff vrf fam6 l v w,
    fun vrf vrf' fam6 fam6' l l' v w h6 h6' hl hl' hv hw => fibKey_inj hv hw h6 h6' hl hl'⟩
  · rw [exec_fibLookup_onDie hp hk hr, fibCorrects_longest h, fibAnswer_longest h (fibCallKey_addr_lt hk), Nat.zero_mul]
    rfl
  · rw [exec_fibLookup_onDie hp hk hr, fibCorrects_none h, fibAnswer_none h]
  · rw [exec_fibLookup_hot hp hk hr hh, fibCorrects_longest (countBlock_longest r h), fibAnswer_longest h (fibCallKey_addr_lt hk)]
  · exact ⟨_, exec_fibLookup_queued hp hk hr hh h1 hx hq, State.tailQ_queueTail _ _ _ _, State.callAt_queueTail _ _ _ _⟩
  · rw [exec_tailDescent_cons hq hc, if_pos hx]
    rfl
  · have h' : Longest ((s0.upset ups).setTailQ pipe rest) vrf fam6 v l e := h
    rw [exec_tailDescent_cons hq hc, hx, hk]
    simp only [fibCorrects_longest h', fibAnswer_longest h' (fibCallKey_addr_lt hk)]
    rfl
  · have h' : ∀ l, l ≤ maxLen fam6 → ((s0.upset ups).setTailQ pipe rest).fibAt (fibKey vrf fam6 l v) = none := h
    rw [exec_tailDescent_cons hq hc, hx, hk]
    simp only [fibCorrects_none h', fibAnswer_none h']
    rfl

end Sys2Proof
end

section
/-! SUPPORT. The calls of the ternary table (R148): what matches, and which of the matching entries is returned. -/
namespace Sys2Proof.Machine
open Sys2Proof.Claims

/-! ### Matching -/

/-- R148: under a mask a key and a value are alike exactly where their bits agree at the mask's bits. -/
theorem land_eq_land_iff (k v m : Nat) :
    Nat.land k m = Nat.land v m ↔ ∀ n : Nat, m.testBit n = true → k.testBit n = v.testBit n := by
  have hb : ∀ a n, (Nat.land a m).testBit n = (a.testBit n && m.testBit n) := fun a n => Nat.testBit_and a m n
  refine ⟨fun h n hn => ?_, fun h => Nat.eq_of_testBit_eq fun n => ?_⟩
  · have hn' := congrArg (Nat.testBit · n) h
    simpa only [hb, hn, Bool.and_true] using hn'
  · rw [hb, hb]
    cases hm : m.testBit n with
    | true => rw [h n hm]
    | false => simp only [Bool.and_false]

theorem maskAgrees_cons (k v m : Nat) (ks vs ms : List Nat) :
    maskAgrees (k :: ks) (v :: vs) (m :: ms) ↔ Nat.land k m = Nat.land v m ∧ maskAgrees ks vs ms := by
  rw [land_eq_land_iff]
  refine ⟨fun h => ⟨h 0 k v m rfl rfl rfl, fun i => h (i + 1)⟩, fun ⟨h0, hr⟩ i k' v' m' hk hv hm => ?_⟩
  cases i with
  | zero => cases hk; cases hv; cases hm; exact h0
  | succ i => exact hr i k' v' m' hk hv hm

theorem maskAgrees_of_end {key value mask : List Nat} (h : key = [] ∨ value = [] ∨ mask = []) : maskAgrees key value mask := by
  intro i k v m hk hv hm
  rcases h with rfl | rfl | rfl
  · cases hk
  · cases hv
  · cases hm

theorem maskMatch_iff : ∀ (key value mask : List Nat), maskMatch key value mask = true ↔ maskAgrees key value mask
  | [], _, _ => ⟨fun _ => maskAgrees_of_end (.inl rfl), fun _ => rfl⟩
  | _ :: _, [], _ => ⟨fun _ => maskAgrees_of_end (.inr (.inl rfl)), fun _ => rfl⟩
  | _ :: _, _ :: _, [] => ⟨fun _ => maskAgrees_of_end (.inr (.inr rfl)), fun _ => rfl⟩
  | k :: ks, v :: vs, m :: ms => by
    rw [maskMatch, Bool.and_eq_true, beq_iff_eq, maskMatch_iff ks vs ms, maskAgrees_cons]

end Sys2Proof.Machine
namespace Sys2Proof
variable {α : Type}

/-! ### Entries of a table in canonical form -/

/-- What a listed key reads, where the keys rise. -/
theorem Tbl.get_of_mem (d : α) {t : Tbl α} : ∀ {lo : Nat}, Tbl.risingFrom lo t = true →
    ∀ {k : Nat} {v : α}, (k, v) ∈ t → Tbl.get d t k = v := by
  induction t with
  | nil => intro _ _ _ _ h; cases h
  | cons e r ih =>
    obtain ⟨a, w⟩ := e
    intro lo h k v hm
    simp only [Tbl.risingFrom, Bool.and_eq_true, decide_eq_true_eq] at h
    rcases List.mem_cons.mp hm with he | hm
    · cases he; exact if_pos rfl
    · have hlt : a + 1 ≤ k := Machine.rising_le h.2 (k, v) hm
      rw [Tbl.get, if_neg (by omega)]
      exact ih h.2 hm

/-- A key that reads something is listed, and the keys before it are lower. -/
theorem Tbl.split_of_get {d : α} {t : Tbl α} : ∀ {lo : Nat}, Tbl.risingFrom lo t = true →
    ∀ {k : Nat} {v : α}, Tbl.get d t k = v → v ≠ d → ∃ l r, t = l ++ (k, v) :: r ∧ ∀ e ∈ l, e.1 < k := by
  induction t with
  | nil => intro _ _ k v hg hv; exact absurd hg.symm hv
  | cons e t ih =>
    obtain ⟨a, w⟩ := e
    intro lo h k v hg hv
    simp only [Tbl.risingFrom, Bool.and_eq_true, decide_eq_true_eq] at h
    by_cases ha : a = k
    · subst ha
      rw [Tbl.get, if_pos rfl] at hg
      exact ⟨[], t, by rw [hg]; rfl, by simp⟩
    · rw [Tbl.get, if_neg ha] at hg
      obtain ⟨l, r, ht, hl⟩ := ih h.2 hg hv
      have hk : a + 1 ≤ k := Machine.rising_le h.2 (k, v) (by rw [ht]; simp)
      exact ⟨(a, w) :: l, r, by rw [ht]; rfl, List.forall_mem_cons.mpr ⟨by omega, hl⟩⟩

end Sys2Proof
namespace Sys2Proof.Machine
open Sys2Proof.Claims

/-! ### The best entry -/

/-- An entry of a profile that matches a key. -/
def TerEnt.takes (x : TerEnt) (profile : Nat) (key : List Nat) : Prop := x.profile = profile ∧ maskMatch key x.value x.mask = true

/-- One entry met by the search, with the best one before it. -/
def terStep (profile : Nat) (key : List Nat) (best : Option (Nat × TerEnt)) (e : Nat × Option TerEnt) : Option (Nat × TerEnt) :=
  match e.2 with
  | none => best
  | some x =>
    if x.profile = profile ∧ maskMatch key x.value x.mask then
      match best with
      | none => some (e.1, x)
      | some (_, y) => if x.prio < y.prio then some (e.1, x) else best
    else best

theorem State.terMatch_eq (s : State) (profile : Nat) (key : List Nat) :
    s.terMatch profile key = s.lkp.ter.foldl (terStep profile key) none := rfl

section Search
variable {profile : Nat} {key : List Nat}

/-- What a step answers is what it had, or the entry it meets, which matches. -/
theorem terStep_cases (best : Option (Nat × TerEnt)) (e : Nat × Option TerEnt) :
    terStep profile key best e = best ∨ ∃ x, e.2 = some x ∧ x.takes profile key ∧ terStep profile key best e = some (e.1, x) := by
  obtain ⟨i, _ | x⟩ := e
  · exact .inl rfl
  · by_cases hx : x.takes profile key
    · rcases best with _ | ⟨j, y⟩
      · exact .inr ⟨x, rfl, hx, if_pos hx⟩
      · by_cases hp : x.prio < y.prio
        · exact .inr ⟨x, rfl, hx, (if_pos hx).trans (if_pos hp)⟩
        · exact .inl ((if_pos hx).trans (if_neg hp))
    · exact .inl (if_neg hx)

/-- An entry that matches takes the place of a best one of a higher priority number. -/
theorem terStep_better {best : Option (Nat × TerEnt)} {i : Nat} {x : TerEnt} (hx : x.takes profile key)
    (hb : ∀ b ∈ best, x.prio < b.2.prio) : terStep profile key best (i, some x) = some (i, x) := by
  rcases best with _ | b
  · exact if_pos hx
  · exact (if_pos hx).trans (if_pos (hb b rfl))

/-- The best of no lower a priority number than every further match stays. -/
theorem terStep_stays {i : Nat} {b : TerEnt} {e : Nat × Option TerEnt} (h : ∀ x, e.2 = some x → x.takes profile key → b.prio ≤ x.prio) :
    terStep profile key (some (i, b)) e = some (i, b) := by
  obtain ⟨j, _ | x⟩ := e
  · rfl
  · by_cases hx : x.takes profile key
    · exact (if_pos hx).trans (if_neg (Nat.not_lt.mpr (h x rfl hx)))
    · exact if_neg hx

/-- The best of a run of entries is one of them, and matches. -/
theorem terBest_mem (l : Tbl (Option TerEnt)) : ∀ b : Nat × TerEnt, b ∈ l.foldl (terStep profile key) none →
    (b.1, some b.2) ∈ l ∧ b.2.takes profile key := by
  refine List.foldlRecOn (motive := fun best => ∀ b : Nat × TerEnt, b ∈ best → (b.1, some b.2) ∈ l ∧ b.2.takes profile key) l _
    (by simp) ?_
  intro best hb e he b hbe
  rcases terStep_cases best e with h | ⟨x, hx, ht, h⟩
  · exact hb b (h ▸ hbe)
  · rw [h] at hbe
    cases hbe
    exact ⟨by rw [← hx]; exact he, ht⟩

variable {s : State} (hs : Tbl.risingFrom 0 s.lkp.ter = true)
include hs

/-- R148: the match of the lowest priority number, and of those the one of the lowest index. -/
theorem terMatch_lowest {i : Nat} {e : TerEnt} (he : s.terAt i = some e) (ht : e.takes profile key)
    (hmin : ∀ j x, s.terAt j = some x → x.takes profile key → e.prio < x.prio ∨ (e.prio = x.prio ∧ i ≤ j)) :
    s.terMatch profile key = some (i, e) := by
  obtain ⟨l, r, hlr, hl⟩ := Tbl.split_of_get hs he (by simp)
  have hall : ∀ {j x}, (j, some x) ∈ s.lkp.ter → x.takes profile key → e.prio < x.prio ∨ (e.prio = x.prio ∧ i ≤ j) :=
    fun hm => hmin _ _ (Tbl.get_of_mem none hs hm)
  have hbefore : ∀ b ∈ l.foldl (terStep profile key) none, e.prio < b.2.prio := fun b hb => by
    obtain ⟨hm, hb'⟩ := terBest_mem l b hb
    have hlt : b.1 < i := hl _ hm
    have := hall (by rw [hlr]; exact List.mem_append_left _ hm) hb'
    omega
  have hafter : r.foldl (terStep profile key) (some (i, e)) = some (i, e) :=
    List.foldlRecOn (motive := fun best => best = some (i, e)) r _ rfl fun best hb x hx => by
      rw [hb]
      refine terStep_stays fun y hy hty => ?_
      have := hall (j := x.1) (x := y) (by rw [hlr, ← hy]; exact List.mem_append_right _ (List.mem_cons_of_mem _ hx)) hty
      omega
  rw [State.terMatch_eq, hlr, List.foldl_append, List.foldl_cons, terStep_better ht hbefore, hafter]

theorem terMatch_none (h : ∀ j x, s.terAt j = some x → ¬ x.takes profile key) : s.terMatch profile key = none := by
  rw [State.terMatch_eq]
  refine Option.eq_none_iff_forall_not_mem.mpr fun b hb => ?_
  obtain ⟨hm, ht⟩ := terBest_mem _ b hb
  exact h b.1 b.2 (Tbl.get_of_mem none hs hm) ht

end Search

/-! ### TER_LOOKUP -/

section Lookup
variable {s0 : State} {ups : List (Nat × Nat × Bool)} {call : Nat} {c : Call} (ha : Asks (s0.upset ups) 2 call c)
include ha

theorem exec_terLookup_hit {i : Nat} {e : TerEnt} (hm : (s0.upset ups).terMatch c.select c.key = some (i, e))
    (hw : (3, i) ∉ (s0.upset ups).lkp.eccUnc) : exec (.terLookup call ups) s0 =
      .next (((s0.upset ups).corrects [(3, i)]).answer call c (resultBytes stHIT 2 (i + e.prio * 2 ^ 17) e.data)) := by
  obtain ⟨hp, he⟩ := ha
  have hw' : (s0.upset ups).lkp.eccUnc.contains (3, i) = false := by simpa using hw
  show execTerLookup call ups s0 = _
  simp only [execTerLookup, hp, he, hm, hw', Bool.false_eq_true, if_false]

theorem exec_terLookup_miss (hm : (s0.upset ups).terMatch c.select c.key = none) :
    exec (.terLookup call ups) s0 = .next ((s0.upset ups).answer call c (resultBytes stMISS 2 0 [])) := by
  obtain ⟨hp, he⟩ := ha
  show execTerLookup call ups s0 = _
  simp only [execTerLookup, hp, he, hm]

end Lookup

end Sys2Proof.Machine

namespace Sys2Proof
open Machine Claims

/-- Settles O23: before the entry the search holds only matches of higher priority numbers, and after it the entry stays. -/
theorem terLowestPriority : Obligations.TerLowestPriority := by
  intro s0 ups call c s hs ha
  refine ⟨fun i e he hp hm hw hmin => exec_terLookup_hit ha (terMatch_lowest hs he ⟨hp, (maskMatch_iff _ _ _).mpr hm⟩ ?_) hw,
    fun h => exec_terLookup_miss ha (terMatch_none hs fun j x hx ht => h j x hx ht.1 ((maskMatch_iff _ _ _).mp ht.2))⟩
  exact fun j x hx ht => hmin j x hx ht.1 ((maskMatch_iff _ _ _).mp ht.2)

end Sys2Proof
end

section
/-! SUPPORT. The calls of the EM tables, the ternary table, the adjacencies and the counters (R71, R121, R122, R144, R154, R162 to R164). -/
namespace Sys2Proof.Machine
open Sys2Proof.Claims

/-! ### EM_LOOKUP -/

/-- What a search answers (R144): a miss, or the entry and whether its bucket or the overflow store holds it. -/
def emResult : Option (EmEnt × EmPlace) → List Nat
  | none => resultBytes stMISS 1 0 []
  | some (e, .bucket _ _) => resultBytes stHIT 1 0 e.data
  | some (e, .overflow _ _) => resultBytes stHIT 1 1 e.data

section Em
variable {s0 : State} {ups : List (Nat × Nat × Bool)} {call : Nat} {c : Call}

theorem exec_emLookup_keyErr {r : Nat} (hp : (s0.upset ups).presented call 1 = some c) (he : (s0.upset ups).emErr c = some r) :
    exec (.emLookup call ups) s0 = .next ((s0.upset ups).answer call c (errorResult stKEY_ERROR 1 r)) := by
  show execEmLookup call ups s0 = _
  simp only [execEmLookup, hp, he]

/-- A call that met a key error at its presentation keeps it (R122). -/
theorem emErr_presented {s : State} {r : Nat} (h : c.err = some r) : s.emErr c = some r := by simp only [State.emErr, h]

/-- A table disabled since (R142). -/
theorem emErr_disabled {s : State} (h : c.err = none) (he : s.rd (LKP_EMCFG.enable c.select) = 0) : s.emErr c = some rSELECT := by
  simp only [State.emErr, h, if_pos he]

variable (ha : Asks (s0.upset ups) 1 call c) (he : (s0.upset ups).rd (LKP_EMCFG.enable c.select) ≠ 0)
include ha he

/-- R144, R169: the search reads the words of its bucket, and answers what stands there unless one of them is spoilt. -/
theorem exec_emLookup_reads : exec (.emLookup call ups) s0 =
    .next (((s0.upset ups).corrects ((s0.upset ups).emWords c.select c.pipe c.key)).answer call c
      (if (s0.upset ups).touchBad ((s0.upset ups).emWords c.select c.pipe c.key) then errorResult stTABLE_ERROR 1 rECC
       else emResult ((s0.upset ups).emFind c.select c.pipe c.key))) := by
  obtain ⟨hp, hn⟩ := ha
  have hne : (s0.upset ups).emErr c = none := by simp only [State.emErr, hn, if_neg he]
  show execEmLookup call ups s0 = _
  simp only [execEmLookup, hp, hne]
  split
  · rfl
  · rcases (s0.upset ups).emFind c.select c.pipe c.key with _ | ⟨e, _ | _⟩ <;> rfl

end Em

/-! ### ADJ_READ -/

/-- What a read of an adjacency answers a call presented at clock `t` (R162 to R164). -/
def Adj.result (a : Adj) (t : Nat) : List Nat :=
  match a.st with
  | .free => match a.gone with
    | some (g, d) => if t ≤ g then resultBytes stRETIRED 5 a.version d else resultBytes stMISS 5 0 []
    | none => resultBytes stMISS 5 0 []
  | .valid => resultBytes stHIT 5 a.version a.data
  | .retiring => resultBytes stRETIRED 5 a.version a.data

theorem Adj.result_free {a : Adj} (h : a.st = .free) (hg : a.gone = none) (t : Nat) : a.result t = resultBytes stMISS 5 0 [] := by
  simp only [Adj.result, h, hg]

/-- A call presented after the retire timer's end misses; one presented by then still finds the old entry (R164). -/
theorem Adj.result_gone {a : Adj} {g : Nat} {d : List Nat} (h : a.st = .free) (hg : a.gone = some (g, d)) (t : Nat) :
    a.result t = if t ≤ g then resultBytes stRETIRED 5 a.version d else resultBytes stMISS 5 0 [] := by
  simp only [Adj.result, h, hg]

theorem Adj.result_valid {a : Adj} (h : a.st = .valid) (t : Nat) : a.result t = resultBytes stHIT 5 a.version a.data := by
  simp only [Adj.result, h]

theorem Adj.result_retiring {a : Adj} (h : a.st = .retiring) (t : Nat) : a.result t = resultBytes stRETIRED 5 a.version a.data := by
  simp only [Adj.result, h]

theorem key_ne_nil {l : List Nat} {n : Nat} (h : l.length = n + 1) : l ≠ [] := List.length_pos_iff.mp (by omega)

section Adjacency
variable {s0 : State} {ups : List (Nat × Nat × Bool)} {call : Nat} {c : Call} (hp : (s0.upset ups).presented call 5 = some c)
include hp

theorem exec_adjRead_address (h0 : c.key = []) :
    exec (.adjRead call ups) s0 = .next ((s0.upset ups).answer call c (errorResult stKEY_ERROR 5 rADDRESS)) := by
  show execAdjRead call ups s0 = _
  simp only [execAdjRead, hp, if_pos h0]

theorem exec_adjRead_select (h0 : c.key ≠ []) (h1 : c.select ≠ 0) :
    exec (.adjRead call ups) s0 = .next ((s0.upset ups).answer call c (errorResult stKEY_ERROR 5 rSELECT)) := by
  show execAdjRead call ups s0 = _
  simp only [execAdjRead, hp, if_neg h0, if_pos h1]

theorem exec_adjRead_keylen (h0 : c.key ≠ []) (h1 : c.select = 0) (h2 : c.key.length ≠ 8) :
    exec (.adjRead call ups) s0 = .next ((s0.upset ups).answer call c (errorResult stKEY_ERROR 5 rKEYLEN)) := by
  show execAdjRead call ups s0 = _
  simp only [execAdjRead, hp, if_neg h0, if_neg (not_not.mpr h1), if_pos h2]

/-- A read with a good key answers its adjacency, unless its word is spoilt (R151, R169). -/
theorem exec_adjRead_reads (h1 : c.select = 0) (h2 : c.key.length = 8) : exec (.adjRead call ups) s0 =
    .next (((s0.upset ups).corrects [(4, bitsAt (beNat c.key) 0 21)]).answer call c
      (if (4, bitsAt (beNat c.key) 0 21) ∈ (s0.upset ups).lkp.eccUnc then errorResult stTABLE_ERROR 5 rECC
       else ((s0.upset ups).adjAt (bitsAt (beNat c.key) 0 21)).result c.at_)) := by
  show execAdjRead call ups s0 = _
  simp only [execAdjRead, hp, if_neg (key_ne_nil h2), if_neg (not_not.mpr h1), if_neg (not_not.mpr h2), List.contains_iff_mem]
  split
  · rfl
  · unfold Adj.result
    rcases ((s0.upset ups).adjAt (bitsAt (beNat c.key) 0 21)).st
    · rcases ((s0.upset ups).adjAt (bitsAt (beNat c.key) 0 21)).gone <;> rfl
    · rfl
    · rfl

end Adjacency

/-! ### CNT_POST -/

section Counter
variable {s : State} {call : Nat} {c : Call} (hp : s.presented call 4 = some c)
include hp

theorem exec_cntPost_counts (h1 : c.key.length = 8) (h2 : c.select = 0) : exec (.cntPost call) s =
    .next (State.cntAdd { s with eng := { s.eng with calls := Tbl.erase s.eng.calls call } } true (bitsAt (beNat c.key) 38 26) 1
      (bitsAt (beNat c.key) 0 16)) := by
  have hgood : ¬(c.key = [] ∨ c.select ≠ 0 ∨ c.key.length ≠ 8) := by
    rintro (h | h | h)
    · exact key_ne_nil h1 h
    · exact h h2
    · exact h h1
  show execCntPost call s = _
  simp only [execCntPost, hp, if_neg hgood]

theorem exec_cntPost_bad (h : c.key.length ≠ 8 ∨ c.select ≠ 0) : exec (.cntPost call) s =
    .next (State.inc { s with eng := { s.eng with calls := Tbl.erase s.eng.calls call } } LKP_CNTERR.count) := by
  show execCntPost call s = _
  simp only [execCntPost, hp, if_pos (show c.key = [] ∨ c.select ≠ 0 ∨ c.key.length ≠ 8 from .inr h.symm)]

end Counter

/-! ### Key errors -/

theorem exec_terLookup_keyErr {s0 : State} {ups : List (Nat × Nat × Bool)} {call r : Nat} {c : Call}
    (hp : (s0.upset ups).presented call 2 = some c) (he : c.err = some r) :
    exec (.terLookup call ups) s0 = .next ((s0.upset ups).answer call c (errorResult stKEY_ERROR 2 r)) := by
  show execTerLookup call ups s0 = _
  simp only [execTerLookup, hp, he]

section Presentation
variable (s : State) (select : Nat) {key : List Nat}

theorem tableErr_address (h : key = []) : s.tableErr 1 select key = some rADDRESS ∧ s.tableErr 2 select key = some rADDRESS ∧
    s.tableErr 6 select key = some rADDRESS := by
  simp only [State.tableErr, if_pos h, and_self]

variable (h0 : key ≠ [])
include h0

theorem tableErr_select_em (h : s.rd (LKP_EMCFG.enable select) ≠ 1) : s.tableErr 1 select key = some rSELECT := by
  simp [State.tableErr, h0, h]

theorem tableErr_select_ter (h : 8 ≤ select ∨ s.rd (LKP_TERPROF.enable select) ≠ 1) : s.tableErr 2 select key = some rSELECT := by
  have hn : (decide (select < 8) && s.rd (LKP_TERPROF.enable select) == 1) = false := by
    rcases h with h | h
    · simp [Nat.not_lt.mpr h]
    · simp [h]
  simp only [State.tableErr, if_neg h0, hn, Bool.not_false, if_true]

theorem tableErr_select_brg (h : s.bridgeTable ≠ some select) : s.tableErr 6 select key = some rSELECT := by
  simp [State.tableErr, h0, h]

theorem tableErr_keylen (h : key.length ≠ s.emKeyBytes select) (he : s.rd (LKP_EMCFG.enable select) = 1) :
    s.tableErr 1 select key = some rKEYLEN := by
  simp [State.tableErr, h0, h, he]

end Presentation

end Sys2Proof.Machine

namespace Sys2Proof
open Machine Claims

/-- Settles O24: each call by the branch of its command, and the key errors by the first that applies. -/
theorem tableCalls : Obligations.TableCalls := by
  refine ⟨fun s0 ups call c ha he => ?em, fun s0 ups call c hp h1 h2 => ?adj, fun s call c hp =>
      ⟨exec_cntPost_counts hp, exec_cntPost_bad hp⟩,
    fun s0 ups call c => ⟨fun r hp he => exec_emLookup_keyErr hp (emErr_presented he),
      fun ha he => exec_emLookup_keyErr ha.1 (emErr_disabled ha.2 he), fun r => exec_terLookup_keyErr, exec_adjRead_address,
      exec_adjRead_select, exec_adjRead_keylen⟩,
    fun s select key => ⟨tableErr_address s select, fun h0 => ⟨tableErr_select_em s select h0, tableErr_select_ter s select h0,
      tableErr_select_brg s select h0⟩, tableErr_keylen s select⟩⟩
  case em =>
    rw [exec_emLookup_reads ha he]
    refine ⟨fun hb => ?_, fun hb hf => ?_, fun e b ps hb hf => ?_, fun e n b hb hf => ?_⟩
    · rw [if_pos hb]
    · rw [if_neg (Bool.eq_false_iff.mp hb), hf, emResult]
    · rw [if_neg (Bool.eq_false_iff.mp hb), hf, emResult]
    · rw [if_neg (Bool.eq_false_iff.mp hb), hf, emResult]
  case adj =>
    rw [exec_adjRead_reads hp h1 h2]
    refine ⟨fun hb => by rw [if_pos hb], fun hb => ?_⟩
    rw [if_neg hb]
    refine ⟨fun hf hg => by rw [Adj.result_free hf hg], fun t d hf hg => ?_, fun hv => by rw [Adj.result_valid hv],
      fun hr => by rw [Adj.result_retiring hr]⟩
    rw [Adj.result_gone hf hg]
    exact ⟨fun ht => by rw [if_neg (Nat.not_le.mpr ht)], fun ht => by rw [if_pos ht]⟩

end Sys2Proof
end

section
/-! SUPPORT. Writes over BAR0 that act on the tables and policers of the Forwarding Die (R12, R28, R651). -/
namespace Sys2Proof.Machine
open Sys2Proof.Claims

/-- A write of a register of the FD with an effect: its bits written as 1 clear first (to `u`), then the effect takes place, over the bridge. -/
theorem State.poke_fd {s u : State} {a v : Nat} {fs : List FldAcc} {f : State → State} (hs : FdOpen s) (ha : accessOk a 4 = true)
    (hf : isFdAddr a = true) (hm : isMsix a = false) (hr : regAt a = .word fs) (hv : v < 2 ^ 32) (hc : s.fdReach.clearOnes .bar0 v fs = u)
    (hk : u.hook .bar0 a (2 ^ 32 - 1) v v = some (f s.fdReach)) : s.poke a v = tagged s false a (2 ^ 32 - 1) v f := by
  obtain ⟨⟨⟨hrec, hready, hseal⟩, hcmd⟩, hb, hu, hctl⟩ := hs
  have hcmd' : s.fdReach.cmdWrote.1 ≠ s.fdReach.clk + 1 := hcmd
  have hne : a ≠ 0x10050 := fun h => by rw [h] at hf; exact absurd hf (by decide)
  have hv' : v % 2 ^ 32 = v := Nat.mod_eq_of_lt hv
  unfold State.poke tagged
  rw [hv', State.bar0Write_fd v hrec hready hseal hb hu hctl ha (isReserved_of_word ha hr) hf,
    State.regWrite_hook (u := u) (t := f s.fdReach) hcmd' hm hne hr (by rw [hv', hv', hc]) (by rw [hv', hv']; exact hk), hv']
  rfl

end Sys2Proof.Machine
end

section
/-! SUPPORT. Policers (R329 to R333): their buckets and colours, the call that uses one, and the commands that write and read one. -/
namespace Sys2Proof.Machine
open Sys2Proof.Claims

/-! ### Buckets and colours -/

/-- R330, R332: an evaluation fills the buckets no further than their sizes, and leaves the sizes. -/
theorem Policer.eval_bounds (x : Policer) (t : Nat) :
    (x.eval t).tc ≤ x.cbs ∧ (x.eval t).te ≤ x.ebs ∧ (x.eval t).cbs = x.cbs ∧ (x.eval t).ebs = x.ebs := by
  unfold Policer.eval
  split
  split
  · exact ⟨Nat.min_le_left _ _, Nat.min_le_left _ _, rfl, rfl⟩
  · exact ⟨Nat.min_le_left _ _, Nat.min_le_left _ _, rfl, rfl⟩

/-- A packet only takes tokens. -/
theorem Policer.colour_takes (x : Policer) (c b : Nat) :
    (x.colour c b).2.tc ≤ x.tc ∧ (x.colour c b).2.te ≤ x.te ∧ (x.colour c b).2.cbs = x.cbs ∧ (x.colour c b).2.ebs = x.ebs := by
  simp only [Policer.colour]
  split_ifs <;> exact ⟨by simp, by simp, rfl, rfl⟩

section Colours
variable {x : Policer} {c b : Nat} (ha : x.aware = false) (hb : 0 < b)
include ha hb

/-- The colour of a packet in a single-rate policer that does not see the packet's own (R330). -/
theorem Policer.colour_singleRate (h : x.twoRate = false) : x.colour c b =
    if b ≤ x.tc then (0, { x with tc := x.tc - b }) else if b ≤ x.te then (1, { x with te := x.te - b }) else (2, x) := by
  simp [Policer.colour, ha, h, Nat.pos_iff_ne_zero.mp hb]

/-- The colour of a packet in a two-rate policer that does not see the packet's own (R332). -/
theorem Policer.colour_twoRate (h : x.twoRate = true) : x.colour c b =
    if x.te < b then (2, x) else if x.tc < b then (1, { x with te := x.te - b }) else (0, { x with te := x.te - b, tc := x.tc - b }) := by
  simp [Policer.colour, ha, h, Nat.pos_iff_ne_zero.mp hb]

end Colours

/-! ### The turn of a call (R329) -/

theorem polTurn_sameCycle {s : State} {c : Call} (h : c.at_ = s.clk) : s.polTurn c = false := by
  simp [State.polTurn, h]

theorem polTurn_waits {s : State} {c : Call} {e : Nat × Call} (he : e ∈ s.eng.calls) (ha : e.2.accel = 3) (hr : e.2.result = none)
    (hi : polIndex e.2 = polIndex c) (ht : e.2.at_ < c.at_) : s.polTurn c = false := by
  refine Bool.and_eq_false_iff.mpr (.inr (List.all_eq_false.mpr ⟨e, he, ?_⟩))
  simp [ha, hr, hi, ht]

/-! ### POL_UPDATE -/

theorem polIndex_eq (c : Call) : polIndex c = bitsAt (beNat c.key) 43 21 := rfl

section Update
variable {s0 : State} {ups : List (Nat × Nat × Bool)} {call : Nat} {k : Call} (hp : (s0.upset ups).presented call 3 = some k)
include hp

theorem exec_polUpdate_waits (ht : (s0.upset ups).polTurn k = false) : exec (.polUpdate call ups) s0 = .next (s0.upset ups) := by
  show execPolUpdate call ups s0 = _
  simp only [execPolUpdate, hp, ht, Bool.not_false, if_true]

variable (ht : (s0.upset ups).polTurn k = true)
include ht

theorem exec_polUpdate_address (h0 : k.key = []) :
    exec (.polUpdate call ups) s0 = .next ((s0.upset ups).answer call k (errorResult stKEY_ERROR 3 rADDRESS)) := by
  show execPolUpdate call ups s0 = _
  simp only [execPolUpdate, hp, ht, Bool.not_true, Bool.false_eq_true, if_false, if_pos h0]

theorem exec_polUpdate_select (h0 : k.key ≠ []) (h1 : k.select ≠ 0) :
    exec (.polUpdate call ups) s0 = .next ((s0.upset ups).answer call k (errorResult stKEY_ERROR 3 rSELECT)) := by
  show execPolUpdate call ups s0 = _
  simp only [execPolUpdate, hp, ht, Bool.not_true, Bool.false_eq_true, if_false, if_neg h0, if_pos h1]

theorem exec_polUpdate_keylen (h0 : k.key ≠ []) (h1 : k.select = 0) (h2 : k.key.length ≠ 8) :
    exec (.polUpdate call ups) s0 = .next ((s0.upset ups).answer call k (errorResult stKEY_ERROR 3 rKEYLEN)) := by
  show execPolUpdate call ups s0 = _
  simp only [execPolUpdate, hp, ht, Bool.not_true, Bool.false_eq_true, if_false, if_neg h0, if_neg (not_not.mpr h1), if_pos h2]

variable (h1 : k.select = 0) (h2 : k.key.length = 8)
include h1 h2

/-- A policer whose word is spoilt (R169). -/
theorem exec_polUpdate_spoilt (hb : (5, polIndex k) ∈ (s0.upset ups).lkp.eccUnc) : exec (.polUpdate call ups) s0 =
    .next (((s0.upset ups).corrects [(5, polIndex k)]).answer call k (errorResult stTABLE_ERROR 3 rECC)) := by
  have hb' : (s0.upset ups).lkp.eccUnc.contains (5, polIndex k) = true := List.contains_iff_mem.mpr hb
  show execPolUpdate call ups s0 = _
  simp only [execPolUpdate, hp, ht, Bool.not_true, Bool.false_eq_true, if_false, if_neg (key_ne_nil h2), if_neg (not_not.mpr h1),
    if_neg (not_not.mpr h2), ← polIndex_eq, hb', if_true]

variable (hb : (5, polIndex k) ∉ (s0.upset ups).lkp.eccUnc)
include hb

theorem exec_polUpdate_disabled (he : ((s0.upset ups).policer (polIndex k)).enable = false) : exec (.polUpdate call ups) s0 =
    .next (((s0.upset ups).corrects [(5, polIndex k)]).answer call k (resultBytes stMISS 3 (bitsAt (beNat k.key) 41 2) [])) := by
  have hb' : (s0.upset ups).lkp.eccUnc.contains (5, polIndex k) = false := by simpa using hb
  show execPolUpdate call ups s0 = _
  simp only [execPolUpdate, hp, ht, Bool.not_true, Bool.false_eq_true, if_false, if_neg (key_ne_nil h2), if_neg (not_not.mpr h1),
    if_neg (not_not.mpr h2), ← polIndex_eq, hb', he, Bool.not_false, if_true]

/-- R329 to R332: the policer is evaluated at the FD's time, colours the packet, and counts it where it counts. -/
theorem exec_polUpdate_colours (he : ((s0.upset ups).policer (polIndex k)).enable = true) : exec (.polUpdate call ups) s0 =
    (let u := (s0.upset ups).corrects [(5, polIndex k)]
     let x := (((s0.upset ups).policer (polIndex k)).eval u.fdNs).colour (bitsAt (beNat k.key) 41 2) (bitsAt (beNat k.key) 0 16)
     let w := u.setPolicer (polIndex k) x.2
     .next ((if ((s0.upset ups).policer (polIndex k)).count
        then w.cntAdd true (w.rd POL_CFG.cnt_base + 3 * polIndex k + x.1) 1 (bitsAt (beNat k.key) 0 16) else w).answer call k
        (resultBytes stHIT 3 x.1 []))) := by
  have hb' : (s0.upset ups).lkp.eccUnc.contains (5, polIndex k) = false := by simpa using hb
  show execPolUpdate call ups s0 = _
  simp only [execPolUpdate, hp, ht, Bool.not_true, Bool.false_eq_true, if_false, if_neg (key_ne_nil h2), if_neg (not_not.mpr h1),
    if_neg (not_not.mpr h2), ← polIndex_eq, hb', he]
  rfl

end Update

/-! ### POLICER_WRITE and POLICER_READ -/

theorem exec_policerWrite {s : State} (hs : FdOpen s) : exec .policerWrite s = .next (tagged s false 0x240030 (2 ^ 32 - 1) 2 (fun u =>
    (u.writePolicer (u.rd POL_IDX.index) (u.live .bar0 0x240014) (u.live .bar0 0x240018) (u.live .bar0 0x24001C) (u.live .bar0 0x240020)
      (u.live .bar0 0x240024)).2)) :=
  congrArg _ (State.poke_fd (u := s.fdReach) hs (by decide) (by decide) (by decide) rfl (by decide) rfl rfl)

theorem exec_policerRead {s : State} (hs : FdOpen s) : exec .policerRead s = .next (tagged s false 0x240030 (2 ^ 32 - 1) 1 (fun u =>
    u.loadWords .bar0 0x240014 (u.policerNow (u.rd POL_IDX.index)).words)) :=
  congrArg _ (State.poke_fd (u := s.fdReach) hs (by decide) (by decide) (by decide) rfl (by decide) rfl rfl)

section Write
variable (s : State) (i : Nat) {d0 d1 d2 d3 d4 : Nat}

theorem writePolicer_refused (h : polRefused (bitOf d0 30) (bitsAt d1 0 28) (bitsAt d2 0 25) (bitsAt d3 0 28) (bitsAt d4 0 25) = true) :
    s.writePolicer i d0 d1 d2 d3 d4 = (false, s.wr POL_STAT.refused 1) := if_pos h

/-- A policer with the sizes written, its buckets full, replaces the old one (R333). -/
theorem writePolicer_full (h : polRefused (bitOf d0 30) (bitsAt d1 0 28) (bitsAt d2 0 25) (bitsAt d3 0 28) (bitsAt d4 0 25) = false) :
    ∃ x : Policer, (s.writePolicer i d0 d1 d2 d3 d4).2 = (s.wordWritten 5 i).setPolicer i x ∧ x.tc = bitsAt d2 0 25 ∧ x.te = bitsAt d4 0 25 :=
  ⟨_, congrArg Prod.snd (if_neg (Bool.eq_false_iff.mp h)), rfl, rfl⟩

theorem State.policer_setPolicer {s : State} (hs : Tbl.risingFrom 0 s.sch.pol = true) (x : Policer) : (s.setPolicer i x).policer i = x :=
  Tbl.get_set_self ({} : Policer) hs i x

theorem State.policer_setPolicer_ne {j : Nat} (h : j ≠ i) (x : Policer) : (s.setPolicer i x).policer j = s.policer j :=
  Tbl.get_set_ne ({} : Policer) s.sch.pol x h

end Write

end Sys2Proof.Machine

namespace Sys2Proof
open Machine Claims

/-- Settles O43: bounds and colours of a policer, the branches of its call, and the register writes that replace and read it. -/
theorem policers : Obligations.Policers := by
  refine ⟨fun x t c b _ _ => ?bounds, fun x c b ha hb => ?colours, fun s0 call ups k => exec_polUpdate_waits,
    fun s c => ⟨polTurn_sameCycle, fun e => polTurn_waits⟩,
    fun s0 call ups k hp ht => ⟨exec_polUpdate_address hp ht, exec_polUpdate_select hp ht, exec_polUpdate_keylen hp ht⟩,
    fun s0 call ups k hp ht h1 h2 => ?uses, fun s hs => ⟨exec_policerWrite hs, exec_policerRead hs⟩,
    fun s i d0 d1 d2 d3 d4 => ⟨writePolicer_refused s i, fun h => ?written⟩⟩
  case bounds =>
    obtain ⟨htc, hte, hcbs, hebs⟩ := x.eval_bounds t
    obtain ⟨ltc, lte, lcbs, lebs⟩ := (x.eval t).colour_takes c b
    exact ⟨ltc.trans htc, lte.trans hte, lcbs.trans hcbs, lebs.trans hebs⟩
  case colours =>
    refine ⟨fun h h1 => ?_, fun h h1 h2 => ?_, fun h h1 h2 => ?_, fun h h1 => ?_, fun h h1 h2 => ?_, fun h h1 h2 => ?_⟩
    · rw [Policer.colour_singleRate ha hb h, if_pos h1]
    · rw [Policer.colour_singleRate ha hb h, if_neg (Nat.not_le.mpr h1), if_pos h2]
    · rw [Policer.colour_singleRate ha hb h, if_neg (Nat.not_le.mpr h1), if_neg (Nat.not_le.mpr h2)]
    · rw [Policer.colour_twoRate ha hb h, if_pos h1]
    · rw [Policer.colour_twoRate ha hb h, if_neg (Nat.not_lt.mpr h1), if_pos h2]
    · rw [Policer.colour_twoRate ha hb h, if_neg (Nat.not_lt.mpr h1), if_neg (Nat.not_lt.mpr h2)]
  case uses =>
    refine ⟨exec_polUpdate_disabled hp ht h1 h2, fun hb he hc => ?_, fun hb he hc => ?_, exec_polUpdate_spoilt hp ht h1 h2⟩
    · rw [exec_polUpdate_colours hp ht h1 h2 hb he, hc]
      rfl
    · rw [exec_polUpdate_colours hp ht h1 h2 hb he, hc]
      rfl
  case written =>
    obtain ⟨x, hx, htc, hte⟩ := writePolicer_full s i h
    rw [hx]
    exact ⟨fun hs => by rw [State.policer_setPolicer i (s := s.wordWritten 5 i) hs]; exact ⟨htc, hte⟩,
      fun j hj => State.policer_setPolicer_ne (s.wordWritten 5 i) i hj x⟩

end Sys2Proof
end

section
/-! SUPPORT. The Extended FIB and its hot prefixes (R129, R134, R136 to R139): what the counts of the FIB leave, and what each command does. -/
namespace Sys2Proof.Machine
open Sys2Proof.Claims

/-! ### What the counting of the FIB and the moves of hot copies leave -/

/-- `t` holds the prefixes of `s`, and every register field of `s` but those whose keys are in `ks`. -/
structure FibKept (ks : List Nat) (s t : State) : Prop where
  fib : t.lkp.fib = s.lkp.fib
  off : t.lkp.xfibOff = s.lkp.xfibOff
  rd : ∀ f : Fld, f.key ∉ ks → t.rd f = s.rd f
  regsOk : s.regsOk = true → t.regsOk = true

/-- The fields that follow the FIB: its use and counts, hot copies, and the events that tell of them. -/
def fibKeys : List Nat := [LKP_FIBUSE.units.key, LKP_FIBCOUNT.prefixes.key, LKP_FIBTAILED.prefixes.key, LKP_HOTSTAT.units.key,
  LKP_HOTEVICT.count.key, (HIF_EVLOST.count 2).key]

/-- The same, and those that a write of hot_units gives a value (R139). -/
def hotKeys : List Nat := fibKeys ++ [LKP_FIBCFG.hot_units.key, LKP_XFIBCFG.refused.key]

namespace FibKept
variable {ks : List Nat} {s t u : State}

theorem trans (h : FibKept ks s t) (h' : FibKept ks t u) : FibKept ks s u :=
  ⟨h'.fib.trans h.fib, h'.off.trans h.off, fun f hf => (h'.rd f hf).trans (h.rd f hf), fun hs => h'.regsOk (h.regsOk hs)⟩

theorem mono {ks' : List Nat} (h : FibKept ks s t) (hk : ks ⊆ ks') : FibKept ks' s t :=
  ⟨h.fib, h.off, fun f hf => h.rd f (fun hm => hf (hk hm)), h.regsOk⟩

theorem wr (h : FibKept ks s t) {f : Fld} (hf : f.key ∈ ks) (v : Nat) : FibKept ks s (t.wr f v) :=
  have hne : ∀ g : Fld, g.key ∉ ks → g.key ≠ f.key := fun _ hg hk => hg (hk ▸ hf)
  ⟨h.fib, h.off, fun g hg => (t.rd_wr_ne v (hne g hg)).trans (h.rd g hg), fun hs => t.wr_regsOk (h.regsOk hs) f v⟩

theorem inc (h : FibKept ks s t) {f : Fld} (hf : f.key ∈ ks) : FibKept ks s (t.inc f) := h.wr hf _

/-- The tables change, but not the prefixes. -/
theorem withLkp (h : FibKept ks s t) {l : Lkp} (hf : l.fib = t.lkp.fib) (ho : l.xfibOff = t.lkp.xfibOff) : FibKept ks s { t with lkp := l } :=
  ⟨hf.trans h.fib, ho.trans h.off, h.rd, h.regsOk⟩

theorem post (h : FibKept ks s t) {code : Nat} (hf : (HIF_EVLOST.count (code / 256)).key ∈ ks) (p : List Nat) : FibKept ks s (t.post code p) :=
  ⟨(congrArg Lkp.fib (t.post_lkp code p)).trans h.fib, (congrArg Lkp.xfibOff (t.post_lkp code p)).trans h.off,
    fun g hg => (t.postRec_rd code p [] (fun hk => hg (hk ▸ hf))).trans (h.rd g hg), fun hs => State.postRec_regsOk (h.regsOk hs) code p []⟩

theorem refl (ks : List Nat) (s : State) : FibKept ks s s := ⟨rfl, rfl, fun _ _ => rfl, id⟩

theorem ite {p : Prop} [Decidable p] (ht : FibKept ks s t) (hu : FibKept ks s u) : FibKept ks s (if p then t else u) := by
  split
  · exact ht
  · exact hu

theorem threshold (h : FibKept ks s t) {ev : State → Nat → State} (hev : ∀ u d, FibKept ks s u → FibKept ks s (ev u d))
    (i used limit up down : Nat) : FibKept ks s (t.threshold i used limit up down ev) :=
  .ite (.ite (hev _ _ (h.withLkp rfl rfl)) h) (.ite (hev _ _ (h.withLkp rfl rfl)) h)

end FibKept

/-- The counts after a change of the FIB. -/
theorem fibCount_kept (s : State) : FibKept fibKeys s s.fibCount := by
  have hpost : ∀ (p : Nat → List Nat) u d, FibKept fibKeys s u → FibKept fibKeys s (State.post u 0x0204 (p d)) :=
    fun p u d h => h.post (by decide) (p d)
  unfold State.fibCount
  exact (((((FibKept.refl _ s).wr (by decide) _).wr (by decide) _).wr (by decide) _).wr (by decide) _ |>.threshold (hpost _) _ _ _ _ _).threshold
    (hpost _) _ _ _ _ _

theorem threshold_lkp (s : State) {ev : State → Nat → State} (hev : ∀ u d, (ev u d).lkp = u.lkp) (i used limit up down : Nat) :
    ∃ h, (s.threshold i used limit up down ev).lkp = { s.lkp with high := h } := by
  unfold State.threshold
  split_ifs
  · exact ⟨_, hev _ _⟩
  · exact ⟨s.lkp.high, rfl⟩
  · exact ⟨_, hev _ _⟩
  · exact ⟨s.lkp.high, rfl⟩

/-- Of the tables the counts change the thresholds alone. -/
theorem fibCount_lkp (s : State) : ∃ h, s.fibCount.lkp = { s.lkp with high := h } := by
  have hpost : ∀ (p : Nat → List Nat) (u : State) d, (u.post 0x0204 (p d)).lkp = u.lkp := fun p u d => u.post_lkp _ _
  unfold State.fibCount
  dsimp only
  obtain ⟨h1, e1⟩ := threshold_lkp _ (hpost _) 1 _ _ 95 90
  obtain ⟨h0, e0⟩ := threshold_lkp _ (hpost _) 0 _ _ 95 90
  exact ⟨h1, by rw [e1, e0]; rfl⟩

/-! ### Hot copies -/

/-- Copies that the FIB's new blocks hide or split, and counts of blocks that are gone (log entry 20): the prefixes stay. -/
theorem reroot_kept (s : State) : FibKept fibKeys s s.reroot := by
  unfold State.reroot
  exact (FibKept.ite (.refl _ s) ((FibKept.refl _ s).wr (by decide) _)).withLkp rfl rfl

theorem setFib_kept (s : State) (t : Tbl (Option FibEnt)) : FibKept fibKeys { s with lkp := { s.lkp with fib := t } } (s.setFib t) :=
  (reroot_kept _).trans (fibCount_kept _)

/-- Of the tables this changes what is known of hot blocks; without hot copies there are none after it. -/
theorem reroot_lkp (s : State) : ∃ hot work cnt, s.reroot.lkp = { s.lkp with hot := hot, hotWork := work, hotCount := cnt } ∧
    (s.lkp.hot = [] → hot = []) := by
  have hs : ∀ (p : Prop) [Decidable p] n, (if p then s else s.addSat LKP_HOTEVICT.count n).lkp = s.lkp := fun p _ n => by split <;> rfl
  simp only [State.reroot, hs]
  exact ⟨_, _, _, rfl, fun h => by rw [h]; rfl⟩

theorem setFib_lkp (s : State) (t : Tbl (Option FibEnt)) : ∃ hot work cnt h,
    (s.setFib t).lkp = { s.lkp with fib := t, hot := hot, hotWork := work, hotCount := cnt, high := h } ∧ (s.lkp.hot = [] → hot = []) := by
  obtain ⟨hot, work, cnt, hr, hhot⟩ := reroot_lkp { s with lkp := { s.lkp with fib := t } }
  obtain ⟨h, hc⟩ := fibCount_lkp (State.reroot { s with lkp := { s.lkp with fib := t } })
  exact ⟨hot, work, cnt, h, hc.trans (by rw [hr]), hhot⟩

theorem setFib_regsOk {s : State} (hs : s.regsOk = true) (t : Tbl (Option FibEnt)) : (s.setFib t).regsOk = true := (setFib_kept s t).regsOk hs

/-- The Extended FIB disabled (R134). -/
theorem disabled_rd {s : State} (hs : s.regsOk = true) : ((s.wr LKP_XFIBCFG.enable 0).wr LKP_XFIBCFG.channels 0).rd LKP_XFIBCFG.enable = 0 := by
  rw [State.rd_wr_ne _ _ (by decide), State.rd_wr_self hs]; rfl

/-- R134: the FIB emptied, and the Extended FIB disabled. -/
theorem fibEmpty_lkp (s : State) : s.fibEmpty.lkp.fib = [] ∧ s.fibEmpty.lkp.hot = [] ∧ s.fibEmpty.lkp.xfibDown = false ∧
    s.fibEmpty.lkp.xfibOff = false := by
  obtain ⟨hot, work, cnt, h, he, hhot⟩ := setFib_lkp
    { s with lkp := { s.lkp with hot := [], hotWork := [], hotCount := [], xfibDown := false, xfibOff := false } } []
  unfold State.fibEmpty
  dsimp only
  split <;> simp only [State.wr_lkp, he, hhot rfl, and_self]

theorem fibEmpty_rd {s : State} (hs : s.regsOk = true) : s.fibEmpty.rd LKP_XFIBCFG.enable = 0 := by
  unfold State.fibEmpty
  dsimp only
  split
  · exact disabled_rd (setFib_regsOk (by exact hs) _)
  · exact (State.rd_wr_ne _ _ (by decide)).trans (disabled_rd (setFib_regsOk (by exact hs) _))

/-- Room is made for a hot copy by evictions: the copies under way stay. -/
theorem evictFor_keeps_work {need cnt : Nat} : ∀ {n : Nat} {s t : State}, State.evictFor need cnt n s = some t →
    t.lkp.hotWork = s.lkp.hotWork ∧ t.clk = s.clk
  | 0, s, t, h => by cases h
  | n + 1, s, t, h => by
    simp only [State.evictFor] at h
    split at h
    · cases h; exact ⟨rfl, rfl⟩
    · split at h
      · cases h
      · obtain ⟨hw, hc⟩ := evictFor_keeps_work h
        exact ⟨hw, hc⟩

theorem evictTo_kept {v : Nat} : ∀ (n : Nat) (s : State), FibKept fibKeys s (State.evictTo v n s)
  | 0, s => .refl _ s
  | n + 1, s => by
    simp only [State.evictTo]
    refine .ite (.refl _ s) ?_
    split
    · refine .trans ?_ (evictTo_kept n _)
      exact (FibKept.refl _ s).withLkp rfl rfl
    · refine .trans ?_ (evictTo_kept n _)
      refine .inc (f := LKP_HOTEVICT.count) ?_ (by decide)
      exact (FibKept.refl _ s).withLkp rfl rfl

/-- R139: a write of hot_units leaves the prefixes where they are. -/
theorem writeHot_kept (s : State) (v : Nat) : FibKept hotKeys s (s.writeHot v) := by
  have hsub : fibKeys ⊆ hotKeys := List.subset_append_left _ _
  have hev : FibKept hotKeys s (State.evictTo v (s.lkp.hot.length + s.lkp.hotWork.length) s).fibCount :=
    ((evictTo_kept _ s).trans (fibCount_kept _)).mono hsub
  unfold State.writeHot
  refine .ite (.refl _ s) ?_
  extract_lets u
  have hu : FibKept hotKeys s u := hev
  clear_value u
  refine .ite (.trans ?_ ((fibCount_kept _).mono hsub)) (.ite (hu.withLkp rfl rfl) (hu.wr (by decide) _))
  refine .wr (f := LKP_FIBCFG.hot_units) ?_ (by decide) v
  exact hu.withLkp rfl rfl

/-- Blocks sorted by their counts are the same blocks. -/
theorem mem_sortBlocks {e : Nat × Nat} : ∀ {l : List (Nat × Nat)}, e ∈ sortBlocks l → e ∈ l
  | [], h => h
  | a :: l, h => by
    rcases List.mem_append.mp (h : e ∈ (sortBlocks l).takeWhile (fun x => a.2 < x.2) ++ a :: (sortBlocks l).dropWhile (fun x => a.2 < x.2))
      with h | h
    · exact .tail _ (mem_sortBlocks (List.takeWhile_subset _ h))
    · rcases List.mem_cons.mp h with rfl | h
      · exact .head _
      · exact .tail _ (mem_sortBlocks (List.dropWhile_subset _ h))

/-! ### Writes of LKP_XFIBCFG and LKP_FIBCFG -/

/-- What a write that crossed the bridge left in the tables is what its effect left. -/
theorem tagged_lkp (s : State) (cmd : Bool) (a mask v : Nat) (f : State → State) : (tagged s cmd a mask v f).lkp = (f s.fdReach).lkp := by
  obtain ⟨d, hd⟩ := State.fdReply_only ((f s.fdReach).tagDone s.dies.nextTag 0) (.write s.dies.nextTag a mask v cmd) s.dies.nextTag 0
  have h := congrArg State.lkp hd
  exact h

/-- A write that gives LKP_XFIBCFG.refused no 1 leaves it as it is. -/
theorem clearOnes_xfibcfg (s : State) {v : Nat} (hv : bitsAt v 1 1 = 0) :
    s.clearOnes .bar0 v [⟨LKP_XFIBCFG.channels, .ro, []⟩, ⟨LKP_XFIBCFG.refused, .w1c, []⟩, ⟨LKP_XFIBCFG.enable, .rws, []⟩] =
      untouched LKP_XFIBCFG.refused s := by
  have hbit : Nat.land (s.rd LKP_XFIBCFG.refused) (Nat.xor (2 ^ 1 - 1) (bitsAt v 1 1)) % 2 ^ 1 = s.rd LKP_XFIBCFG.refused % 2 ^ 1 := by
    rw [hv]
    show (s.rd LKP_XFIBCFG.refused &&& (2 ^ 1 - 1)) % 2 ^ 1 = _
    rw [Nat.and_two_pow_sub_one_eq_mod, Nat.mod_mod]
  show s.wr LKP_XFIBCFG.refused (Nat.land (s.rd LKP_XFIBCFG.refused) (Nat.xor (2 ^ 1 - 1) (bitsAt v 1 1))) = s.wr LKP_XFIBCFG.refused _
  exact congrArg (fun x => { s with regs := Tbl.set 0 s.regs LKP_XFIBCFG.refused.key x }) hbit

/-- The FD as a write of LKP_XFIBCFG.enable reaches it. -/
def State.atXfib (s : State) : State := untouched LKP_XFIBCFG.refused s.fdReach

@[simp] theorem State.atXfib_lkp (s : State) : s.atXfib.lkp = s.lkp := rfl

theorem State.atXfib_rd (s : State) {g : Fld} (h : g.key ≠ LKP_XFIBCFG.refused.key) : s.atXfib.rd g = s.rd g := s.fdReach.rd_wr_ne _ h

theorem State.atXfib_regsOk {s : State} (hs : s.regsOk = true) : s.atXfib.regsOk = true := State.wr_regsOk (s := s.fdReach) hs _ _

theorem State.atXfib_placement (s : State) : s.atXfib.placement = s.placement := congrArg (6291456 - ·) (s.atXfib_rd (by decide))

theorem State.atXfib_tableChans (s : State) : s.atXfib.tableChans = s.tableChans := by
  have hrole : ∀ c, s.atXfib.rd (MCD_CFG.role c) = s.rd (MCD_CFG.role c) := fun c =>
    s.atXfib_rd (by simp only [Fld.key, MCD_CFG.role, LKP_XFIBCFG.refused]; omega)
  have hstate : ∀ c, s.atXfib.rd (MCD_STAT.state c) = s.rd (MCD_STAT.state c) := fun c =>
    s.atXfib_rd (by simp only [Fld.key, MCD_STAT.state, LKP_XFIBCFG.refused]; omega)
  simp only [State.tableChans, hrole, hstate]

/-- What a write of 0 to LKP_XFIBCFG.enable does on the FD (R134). -/
def State.xfibOffWritten (s : State) : State := (untouched LKP_XFIBCFG.refused s).disableXfib

theorem disableXfib_runs {s : State} (he : s.rd LKP_XFIBCFG.enable = 1) (ho : s.lkp.xfibOff = false) :
    ¬(!s.atXfib.bit LKP_XFIBCFG.enable || s.atXfib.lkp.xfibOff) = true := by
  have he' : s.atXfib.rd LKP_XFIBCFG.enable = 1 := (s.atXfib_rd (by decide)).trans he
  simp [State.bit, he', ho]

section Xfib
variable {s : State} (hs : FdOpen s)
include hs

theorem exec_xfibEnable {f : State → State} (hf : s.atXfib.enableXfib = f s.fdReach) :
    exec .xfibEnable s = .next (tagged s false 0x100004 (2 ^ 32 - 1) 1 f) :=
  congrArg _ (State.poke_fd (a := 0x100004) (v := 1) hs (by decide) (by decide) (by decide) rfl (by decide)
    (clearOnes_xfibcfg _ (by decide)) (congrArg some hf))

theorem exec_xfibDisable {f : State → State} (hf : s.atXfib.disableXfib = f s.fdReach) :
    exec .xfibDisable s = .next (tagged s false 0x100004 (2 ^ 32 - 1) 0 f) :=
  congrArg _ (State.poke_fd (a := 0x100004) (v := 0) hs (by decide) (by decide) (by decide) rfl (by decide)
    (clearOnes_xfibcfg _ (by decide)) (congrArg some hf))

section Enable
variable (hd : s.rd LKP_XFIBCFG.enable = 0)
include hd

/-- R129: an empty FIB and a channel in service. -/
theorem exec_xfibEnable_done (hf : s.lkp.fib = []) (hc : s.tableChans ≠ 0) : exec .xfibEnable s =
    .next (tagged s false 0x100004 (2 ^ 32 - 1) 1 (fun u =>
      ((untouched LKP_XFIBCFG.refused u).wr LKP_XFIBCFG.enable 1).wr LKP_XFIBCFG.channels s.tableChans)) := by
  have hd' : s.atXfib.rd LKP_XFIBCFG.enable = 0 := (s.atXfib_rd (by decide)).trans hd
  refine exec_xfibEnable hs ?_
  unfold State.enableXfib
  rw [if_neg (by simp [State.bit, hd']), s.atXfib_tableChans, if_pos ⟨List.isEmpty_iff.mpr hf, hc⟩]
  rfl

theorem exec_xfibEnable_refused (h : s.lkp.fib ≠ [] ∨ s.tableChans = 0) : exec .xfibEnable s =
    .next (tagged s false 0x100004 (2 ^ 32 - 1) 1 (fun u => (untouched LKP_XFIBCFG.refused u).wr LKP_XFIBCFG.refused 1)) := by
  have hd' : s.atXfib.rd LKP_XFIBCFG.enable = 0 := (s.atXfib_rd (by decide)).trans hd
  refine exec_xfibEnable hs ?_
  unfold State.enableXfib
  rw [if_neg (by simp [State.bit, hd']), s.atXfib_tableChans,
    if_neg fun ⟨h1, h2⟩ => h.elim (fun hn => hn (List.isEmpty_iff.mp h1)) h2]
  rfl

end Enable

section Disable
variable (he : s.rd LKP_XFIBCFG.enable = 1) (ho : s.lkp.xfibOff = false)
include he ho

/-- R134: with its channels lost the FIB is emptied. -/
theorem exec_xfibDisable_lost (hr : s.regsOk = true) (hd : s.lkp.xfibDown = true) : ∃ t, exec .xfibDisable s = .next t ∧
    t.lkp.fib = [] ∧ t.lkp.hot = [] ∧ t.lkp.xfibDown = false ∧ t.rd LKP_XFIBCFG.enable = 0 := by
  have hx : s.fdReach.xfibOffWritten = s.atXfib.fibEmpty := (if_neg (disableXfib_runs he ho)).trans (if_pos hd)
  obtain ⟨hfib, hhot, hdown, _⟩ := fibEmpty_lkp s.atXfib
  refine ⟨_, exec_xfibDisable hs (f := State.xfibOffWritten) rfl, ?_⟩
  rw [tagged_lkp, tagged_rd, hx]
  exact ⟨hfib, hhot, hdown, fibEmpty_rd (State.atXfib_regsOk hr)⟩

variable (hd : s.lkp.xfibDown = false)
include hd

/-- R134: hot copies go, and the subtrees begin to move. -/
theorem exec_xfibDisable_moves (hfit : s.lkp.fib.foldl (fun a e => a + fibUnits e.1) 0 ≤ s.placement) :
    ∃ t, exec .xfibDisable s = .next t ∧ t.lkp.xfibOff = true ∧ t.lkp.hot = [] ∧ t.lkp.fib = s.lkp.fib := by
  obtain ⟨h, hl⟩ := fibCount_lkp { s.atXfib.addSat LKP_HOTEVICT.count s.lkp.hot.length with
    lkp := { s.atXfib.lkp with hot := [], hotWork := [], hotCount := [], xfibOff := true } }
  have hx : s.fdReach.xfibOffWritten = _ := (if_neg (disableXfib_runs he ho)).trans
    ((if_neg (Bool.eq_false_iff.mp hd)).trans (if_pos (hfit.trans_eq s.atXfib_placement.symm)))
  refine ⟨_, exec_xfibDisable hs (f := State.xfibOffWritten) rfl, ?_⟩
  rw [tagged_lkp, show s.fdReach.xfibOffWritten.lkp = _ from (congrArg State.lkp hx).trans hl]
  exact ⟨rfl, rfl, rfl⟩

theorem exec_xfibDisable_refused (hfit : s.placement < s.lkp.fib.foldl (fun a e => a + fibUnits e.1) 0) : exec .xfibDisable s =
    .next (tagged s false 0x100004 (2 ^ 32 - 1) 0 (fun u => (untouched LKP_XFIBCFG.refused u).wr LKP_XFIBCFG.refused 1)) :=
  exec_xfibDisable hs ((if_neg (disableXfib_runs he ho)).trans ((if_neg (Bool.eq_false_iff.mp hd)).trans
    (if_neg (Nat.not_le.mpr (s.atXfib_placement.trans_lt hfit)))))

end Disable

end Xfib

/-! ### HOT_PERIOD_END (R136) -/

/-- The choice of one candidate: its copy starts where room can be made for it, up to 4,096. -/
def hotStep (x : Nat × State) (e : Nat × Nat) : Nat × State :=
  if 4096 ≤ x.1 then x
  else match State.evictFor (x.2.blockUnits e.1) e.2 (x.2.lkp.hot.length + 1) x.2 with
    | some s' => (x.1 + 1, { s' with lkp := { s'.lkp with hotWork := Tbl.ins e.1 e.2 s'.lkp.hotWork } })
    | none => x

/-- Blocks whose count has reached the threshold and that have no copy, held or under way. -/
def State.hotCands (s : State) : Tbl Nat :=
  s.lkp.hotCount.filter (fun e => decide (s.rd LKP_HOTCFG.threshold ≤ e.2) && !(s.lkp.hot ++ s.lkp.hotWork).any (fun x => x.1 == e.1))

theorem mem_hotCands {s : State} {e : Nat × Nat} (h : e ∈ s.hotCands) :
    e ∈ s.lkp.hotCount ∧ s.rd LKP_HOTCFG.threshold ≤ e.2 ∧ ∀ x ∈ s.lkp.hot, x.1 ≠ e.1 := by
  obtain ⟨hm, hc⟩ := List.mem_filter.mp h
  simp only [Bool.and_eq_true, decide_eq_true_eq, Bool.not_eq_true', List.any_eq_false, beq_iff_eq] at hc
  exact ⟨hm, hc.1, fun x hx => hc.2 x (List.mem_append_left _ hx)⟩

theorem exec_hotPeriodEnd {s : State} (h1 : s.rd LKP_FIBCFG.hot_units ≠ 0) (h2 : s.bit LKP_XFIBCFG.enable = true)
    (h3 : s.lkp.hotAt + s.rd LKP_HOTCFG.period * 1000000 ≤ s.clk) :
    exec .hotPeriodEnd s = (let u := ((sortBlocks s.hotCands).foldl hotStep (0, s)).2
      .next (State.fibCount { u with lkp := { u.lkp with hotCount := [], hotAt := u.clk } })) := by
  have h3' : s.elapsed s.lkp.hotAt (ms (s.rd LKP_HOTCFG.period)) = true := decide_eq_true h3
  show execHotPeriodEnd s = _
  unfold execHotPeriodEnd
  rw [if_pos ⟨h1, h2, h3'⟩]
  rfl

theorem length_ins_le (k v : Nat) : ∀ t : Tbl Nat, (Tbl.ins k v t).length ≤ t.length + 1
  | [] => Nat.le_refl _
  | (a, w) :: r => by
    have ih := length_ins_le k v r
    unfold Tbl.ins
    split_ifs <;> simp only [List.length_cons] <;> omega

/-- What the choice of candidates leaves: as many copies more as were chosen, each of a candidate. -/
structure HotChosen (s : State) (x : Nat × State) : Prop where
  clk : x.2.clk = s.clk
  chosen : x.1 ≤ 4096
  length : x.2.lkp.hotWork.length ≤ s.lkp.hotWork.length + x.1
  mem : ∀ e ∈ x.2.lkp.hotWork, e ∈ s.lkp.hotWork ∨ e ∈ s.hotCands

theorem hotStep_chosen {s : State} {x : Nat × State} {e : Nat × Nat} (h : HotChosen s x) (he : e ∈ s.hotCands) : HotChosen s (hotStep x e) := by
  unfold hotStep
  split
  · exact h
  · split
    · next t ht =>
      obtain ⟨hw, hc⟩ := evictFor_keeps_work ht
      have hlen := length_ins_le e.1 e.2 t.lkp.hotWork
      refine ⟨hc.trans h.clk, by dsimp only; omega, ?_, fun y hy => ?_⟩
      · have := h.length
        rw [← hw] at this
        dsimp only
        omega
      · rcases Tbl.mem_ins hy with rfl | hy
        · exact .inr he
        · exact h.mem y (hw ▸ hy)
    · exact h

theorem hotChosen (s : State) : HotChosen s ((sortBlocks s.hotCands).foldl hotStep (0, s)) :=
  List.foldlRecOn (motive := HotChosen s) _ _ ⟨rfl, Nat.zero_le _, Nat.le_refl _, fun _ h => .inl h⟩
    fun _ h _ he => hotStep_chosen h (mem_sortBlocks he)

/-! ### The other ends of background work -/

theorem exec_hotCopyDone {s : State} {root n : Nat} (h : s.lkp.hotWork.find? (fun e => e.1 == root) = some (root, n)) :
    exec (.hotCopyDone root) s = .next (State.fibCount (State.inc { s with lkp :=
      { s.lkp with hotWork := Tbl.erase s.lkp.hotWork root, hot := Tbl.ins root n s.lkp.hot } } LKP_HOTCOPY.count)) := by
  show execHotCopyDone root s = _
  simp only [execHotCopyDone, h]

theorem exec_hotUnitsMoveDone {s : State} {v : Nat} (hw : s.lkp.hotWrite = some v) (he : s.bit LKP_XFIBCFG.enable = true)
    (ho : s.lkp.xfibOff = false) : exec .hotUnitsMoveDone s =
      .next (State.setFib (State.wr { s with lkp := { s.lkp with hotWrite := none } } LKP_FIBCFG.hot_units v)
        (tailLast (6291456 - v) s.lkp.fib.reverse (s.rd LKP_FIBUSE.units)).reverse) := by
  show execHotUnitsMoveDone s = _
  simp only [execHotUnitsMoveDone, hw, he, ho, Bool.not_true, Bool.or_self, Bool.false_eq_true, if_false]

theorem exec_hotUnitsWrite {s : State} (hs : FdOpen s) {v : Nat} (hv : v ≤ 2097152) {f : State → State}
    (hf : s.fdReach.writeHot v = f s.fdReach) : exec (.hotUnitsWrite v) s = .next (tagged s false 0x100000 (2 ^ 32 - 1) v f) := by
  have hmod : v % 2 ^ 22 = v := Nat.mod_eq_of_lt (by omega)
  have hbits : bitsAt v 0 22 = v := by unfold bitsAt; omega
  show Host.Outcome.next (s.poke 0x100000 (v % 2 ^ 22)) = _
  rw [hmod]
  refine congrArg _ (State.poke_fd (u := s.fdReach) hs (by decide) (by decide) (by decide) rfl (by omega) rfl ?_)
  show some (s.fdReach.writeHot (bitsAt v 0 22)) = _
  rw [hbits, hf]

section NoCopies
variable {s : State} (hh : s.lkp.hot = []) (hw : s.lkp.hotWork = []) {v : Nat} (hv : v ≤ 2097152)
include hh hw hv

/-- R139: the prefixes fit beside a hot region of the new size. -/
theorem writeHot_fits (hfit : s.fibCount.rd LKP_FIBUSE.units ≤ 6291456 - v) : s.writeHot v =
    (State.wr { s.fibCount with lkp := { s.fibCount.lkp with hotWrite := none } } LKP_FIBCFG.hot_units v).fibCount := by
  unfold State.writeHot
  rw [if_neg (Nat.not_lt.mpr hv), hh, hw]
  exact if_pos hfit

variable (hfit : 6291456 - v < s.fibCount.rd LKP_FIBUSE.units)
include hfit

/-- They do not fit, and the write waits for moves. -/
theorem writeHot_waits (he : s.fibCount.bit LKP_XFIBCFG.enable = true) :
    s.writeHot v = { s.fibCount with lkp := { s.fibCount.lkp with hotWrite := some v } } := by
  unfold State.writeHot
  rw [if_neg (Nat.not_lt.mpr hv), hh, hw]
  exact (if_neg (Nat.not_le.mpr hfit)).trans (if_pos he)

theorem writeHot_refused (he : s.fibCount.bit LKP_XFIBCFG.enable = false) : s.writeHot v = s.fibCount.wr LKP_XFIBCFG.refused 1 := by
  unfold State.writeHot
  rw [if_neg (Nat.not_lt.mpr hv), hh, hw]
  exact (if_neg (Nat.not_le.mpr hfit)).trans (if_neg (Bool.eq_false_iff.mp he))

end NoCopies

theorem hotAfterDisable_kept (s : State) : FibKept hotKeys s s.hotAfterDisable := by
  unfold State.hotAfterDisable
  split
  · exact .refl _ s
  · refine .trans ?_ (writeHot_kept _ _)
    exact (FibKept.refl _ s).withLkp rfl rfl

/-- All prefixes brought on die (R134). -/
theorem fibAllOnDie_lkp (s : State) : s.fibAllOnDie.lkp.fib = s.lkp.fib.map onDie ∧ s.fibAllOnDie.lkp.xfibOff = s.lkp.xfibOff := by
  unfold State.fibAllOnDie
  exact ⟨(setFib_kept _ _).fib, (setFib_kept _ _).off⟩

theorem fibAllOnDie_regsOk {s : State} (hs : s.regsOk = true) : s.fibAllOnDie.regsOk = true := by
  unfold State.fibAllOnDie
  exact setFib_regsOk (by exact State.addSat_regsOk hs _ _) _

/-- The Extended FIB as its disabling ends with its channels in service. -/
def State.xfibDone (s : State) : State :=
  (((State.fibAllOnDie { s with lkp := { s.lkp with xfibOff := false } }).wr LKP_XFIBCFG.enable 0).wr LKP_XFIBCFG.channels 0).hotAfterDisable

theorem exec_xfibDisableDone {s : State} (ho : s.lkp.xfibOff = true) :
    exec .xfibDisableDone s = .next (if s.lkp.xfibDown then s.fibEmpty else s.xfibDone) := by
  show execXfibDisableDone s = _
  unfold execXfibDisableDone
  rw [if_pos ho]
  split
  · rfl
  · rfl

theorem xfibDone_lkp (s : State) : s.xfibDone.lkp.fib = s.lkp.fib.map onDie ∧ s.xfibDone.lkp.xfibOff = false := by
  obtain ⟨hfib, hoff⟩ := fibAllOnDie_lkp { s with lkp := { s.lkp with xfibOff := false } }
  have h := hotAfterDisable_kept
    (((State.fibAllOnDie { s with lkp := { s.lkp with xfibOff := false } }).wr LKP_XFIBCFG.enable 0).wr LKP_XFIBCFG.channels 0)
  exact ⟨h.fib.trans hfib, h.off.trans hoff⟩

theorem xfibDone_rd {s : State} (hs : s.regsOk = true) : s.xfibDone.rd LKP_XFIBCFG.enable = 0 :=
  ((hotAfterDisable_kept _).rd _ (by decide)).trans (disabled_rd (fibAllOnDie_regsOk (by exact hs)))

/-- R134: the Extended FIB is disabled with all prefixes on die, or, its channels lost by then, with the FIB empty. -/
theorem xfibDisableDone_leaves {s : State} (hr : s.regsOk = true) (ho : s.lkp.xfibOff = true) :
    ∃ t, exec .xfibDisableDone s = .next t ∧ t.lkp.xfibOff = false ∧ t.rd LKP_XFIBCFG.enable = 0 ∧
      (s.lkp.xfibDown = false → t.lkp.fib = s.lkp.fib.map onDie) ∧ (s.lkp.xfibDown = true → t.lkp.fib = []) := by
  refine ⟨_, exec_xfibDisableDone ho, ?_⟩
  obtain ⟨hfib, _, _, hoff⟩ := fibEmpty_lkp s
  obtain ⟨hfib', hoff'⟩ := xfibDone_lkp s
  cases hd : s.lkp.xfibDown with
  | true => exact ⟨hoff, fibEmpty_rd hr, fun h => absurd h (by decide), fun _ => hfib⟩
  | false => exact ⟨hoff', xfibDone_rd hr, fun _ => hfib', fun h => absurd h (by decide)⟩

/-- R136: the end of a period starts the next one, with the copies of the candidates chosen under way. -/
theorem hotPeriodEnd_leaves {s : State} (h1 : s.rd LKP_FIBCFG.hot_units ≠ 0) (h2 : s.bit LKP_XFIBCFG.enable = true)
    (h3 : s.lkp.hotAt + s.rd LKP_HOTCFG.period * 1000000 ≤ s.clk) :
    ∃ t, exec .hotPeriodEnd s = .next t ∧ t.lkp.hotCount = [] ∧ t.lkp.hotAt = s.clk ∧
      t.lkp.hotWork.length ≤ s.lkp.hotWork.length + 4096 ∧
      ∀ e ∈ t.lkp.hotWork, e ∈ s.lkp.hotWork ∨ (e ∈ s.lkp.hotCount ∧ s.rd LKP_HOTCFG.threshold ≤ e.2 ∧ ∀ x ∈ s.lkp.hot, x.1 ≠ e.1) := by
  refine ⟨_, exec_hotPeriodEnd h1 h2 h3, ?_⟩
  obtain ⟨hclk, hle, hlen, hmem⟩ := hotChosen s
  obtain ⟨h, hl⟩ := fibCount_lkp
    (let u := ((sortBlocks s.hotCands).foldl hotStep (0, s)).2
     { u with lkp := { u.lkp with hotCount := [], hotAt := u.clk } })
  rw [hl]
  exact ⟨rfl, hclk, hlen.trans (Nat.add_le_add_left hle _), fun e he => (hmem e he).imp_right mem_hotCands⟩

/-- R139: a hot_units write that waited takes effect with the moves that it waited for (their order: log entry 20). -/
theorem hotUnitsMoveDone_leaves {s : State} {v : Nat} (hw : s.lkp.hotWrite = some v) (he : s.bit LKP_XFIBCFG.enable = true)
    (ho : s.lkp.xfibOff = false) : ∃ t, exec .hotUnitsMoveDone s = .next t ∧ t.lkp.hotWrite = none ∧
      t.lkp.fib = (tailLast (6291456 - v) s.lkp.fib.reverse (s.rd LKP_FIBUSE.units)).reverse ∧
      (s.regsOk = true → v < 2 ^ 22 → t.rd LKP_FIBCFG.hot_units = v) := by
  refine ⟨_, exec_hotUnitsMoveDone hw he ho, ?_⟩
  obtain ⟨_, _, _, _, hl, _⟩ := setFib_lkp (State.wr { s with lkp := { s.lkp with hotWrite := none } } LKP_FIBCFG.hot_units v)
    (tailLast (6291456 - v) s.lkp.fib.reverse (s.rd LKP_FIBUSE.units)).reverse
  refine ⟨by rw [hl]; rfl, by rw [hl], fun hr hv => ?_⟩
  rw [(setFib_kept _ _).rd _ (by decide)]
  exact (State.rd_wr_self (s := { s with lkp := { s.lkp with hotWrite := none } }) hr _ v).trans (Nat.mod_eq_of_lt hv)

end Sys2Proof.Machine

namespace Sys2Proof
open Machine Claims

/-- Settles O26: each write of LKP_XFIBCFG and LKP_FIBCFG by its effect on the FD, and each end of background work by what it leaves. -/
theorem extendedFib : Obligations.ExtendedFib :=
  ⟨fun _ hs _ hd => ⟨exec_xfibEnable_done hs hd, exec_xfibEnable_refused hs hd⟩,
    fun _ hs hr he ho => ⟨exec_xfibDisable_lost hs he ho hr, exec_xfibDisable_moves hs he ho, exec_xfibDisable_refused hs he ho⟩,
    fun _ hr ho => xfibDisableDone_leaves hr ho, fun _ h1 h2 h3 => hotPeriodEnd_leaves h1 h2 h3, fun _ _ _ => exec_hotCopyDone,
    fun s _ hs hh hw hv =>
      ⟨fun hfit => exec_hotUnitsWrite hs hv (writeHot_fits (s := s.fdReach) hh hw hv hfit),
        fun hfit he => exec_hotUnitsWrite hs hv (writeHot_waits (s := s.fdReach) hh hw hv hfit he),
        fun hfit he => exec_hotUnitsWrite hs hv (writeHot_refused (s := s.fdReach) hh hw hv hfit he)⟩,
    fun _ _ hw he ho => hotUnitsMoveDone_leaves hw he ho⟩

end Sys2Proof
end

section
/-! SUPPORT. Two states in which statements about the EM tables fail: an insertion into a table beyond the last (R143), and the freeing of a
bucket in an overflow store that is listed twice (R142). -/
namespace Sys2Proof.Machine

/-! ### An insertion into table 64 -/

/-- Table 64, one past the last, whose registers would lie where LKP_OVFUSE lies: the bucket 978 of its empty key is full of other entries,
and bucket 1,024 holds that key. -/
def emBeyondLast : State :=
  { State.reset with lkp := { State.reset.lkp with em :=
      [(3912, some ⟨0, [0], [], false⟩), (3913, some ⟨0, [1], [], false⟩), (3914, some ⟨0, [2], [], false⟩),
       (3915, some ⟨0, [3], [], false⟩), (4096, some ⟨64, [], [9], false⟩)] } }

theorem emBeyondLast_done : (emBeyondLast.emInsert 64 0 [] [7] 0).1 = 0 := by decide +kernel

theorem emBeyondLast_bridgeTable : emBeyondLast.bridgeTable = none := by decide +kernel

/-- The insertion into the overflow stores writes LKP_OVFUSE, which gives table 64 another base and size: its key is then found in bucket
1,024, with the data that stood there. -/
theorem emBeyondLast_found :
    (emBeyondLast.emInsert 64 0 [] [7] 0).2.emFind 64 0 [] = some (⟨64, [], [9], false⟩, .bucket 1024 [0]) := by decide +kernel

/-! ### A store listed twice -/

/-- The overflow store of pipe 0 is listed twice, with an entry of table 1, which is being freed, in bucket 5, and one of table 2 in bucket 6. -/
def ovfListedTwice : State :=
  { State.reset with lkp := { State.reset.lkp with
      clearing := [1], ovf := [(0, [⟨⟨1, [], [], false⟩, 5, 0⟩]), (0, [⟨⟨2, [], [], false⟩, 6, 1⟩])] } }

theorem ovfListedTwice_before : ovfListedTwice.ovfStore 0 = [⟨⟨1, [], [], false⟩, 5, 0⟩] := rfl

/-- Once its first listing is empty, the store reads the second. -/
theorem ovfListedTwice_after : (ovfListedTwice.freeBucket 5).ovfStore 0 = [⟨⟨2, [], [], false⟩, 6, 1⟩] := by decide +kernel

end Sys2Proof.Machine

namespace Sys2Proof
open Machine Claims

/-- Refutes O28: its clause on EM insertions takes every table number. In `emBeyondLast` the insertion into table 64 is done, and the next
search of its key finds other data. No command reaches a table beyond 63. -/
theorem not_tableWritesAreSeen : ¬ Obligations.TableWritesAreSeen := by
  rintro ⟨_, _, hem, _⟩
  obtain ⟨e, pl, hfind, _, hdata⟩ := (hem emBeyondLast 64 0 [] [7] 0 (by decide)).2 emBeyondLast_done
  rw [emBeyondLast_bridgeTable, if_neg (by decide)] at hdata
  have he : e.data = [9] := by
    rw [emBeyondLast_found] at hfind
    cases hfind
    rfl
  rw [he] at hdata
  exact absurd hdata (by decide)

/-- Refutes O27: its clause on the overflow entries of a freed bucket takes every state, also one whose overflow stores are not in canonical
form. In `ovfListedTwice` an entry comes to light that the store did not read before. -/
theorem not_tableUpkeep : ¬ Obligations.TableUpkeep := by
  rintro ⟨_, _, _, _, _, _, hovf, _⟩
  have hmem := hovf ovfListedTwice 5 0 ⟨⟨2, [], [], false⟩, 6, 1⟩ (by decide)
  rw [ovfListedTwice_before, ovfListedTwice_after] at hmem
  exact absurd (hmem.mp (List.mem_singleton.mpr rfl)).1 (by decide)

end Sys2Proof
end

section
/-! SUPPORT. Bridging, learning and aging (R169, R175 to R198): the call of an engine, the sighting of a source, the batches of notices, the
sweeps, and the writes of BRG_CFG and BRG_AGECFG. -/
namespace Sys2Proof.Machine
open Sys2Proof.Claims

/-! ### The BRG call -/

theorem State.emErr_some {s : State} {c : Call} {r : Nat} (h : c.err = some r) : s.emErr c = some r := by
  simp only [State.emErr, h]

theorem State.emErr_none {s : State} {c : Call} (h : c.err = none) (he : s.rd (LKP_EMCFG.enable c.select) ≠ 0) : s.emErr c = none := by
  simp only [State.emErr, h, if_neg he]

/-- The key of a call's source: the domain and the source address. -/
def brgSource (c : Call) : List Nat := sliceB c.key 0 2 ++ sliceB c.key 8 6

/-- The words that the searches of a BRG call read: its destination's, and its source's. -/
def State.brgWordsD (s : State) (c : Call) : List (Nat × Nat) := s.emWords c.select c.pipe (sliceB c.key 0 8)
def State.brgWordsS (s : State) (c : Call) : List (Nat × Nat) := s.emWords c.select c.pipe (brgSource c)

/-- The single-bit errors of those words are corrected. -/
def State.brgRead (s : State) (c : Call) : State := s.corrects (s.brgWordsD c ++ s.brgWordsS c)

/-- The sighting of a call's source; a bad word on the source's side leaves it out. -/
def State.brgSight (s : State) (bad : Bool) (c : Call) : Nat × State :=
  s.sightUnless bad c.select c.pipe (beNat (sliceB c.key 0 2)) (sliceB c.key 8 6) (beNat (sliceB c.key 14 2)) c.length

/-- The answer of a call whose words hold no uncorrectable error, from its destination's entry and its sighting's outcome. -/
def brgAnswer (found : Option (EmEnt × EmPlace)) (outcome : Nat) : List Nat :=
  match found with
  | none => resultBytes stMISS 6 outcome []
  | some (e, _) => resultBytes stHIT 6 (outcome + b2n (brStatic e.data) * 4) e.data

section Call
variable {s s0 : State} {call : Nat} {ups : List (Nat × Nat × Bool)} {c : Call} (hs : s0.upset ups = s) (hp : s.presented call 6 = some c)
  (ht : s.sightTurn c = true)
include hs hp ht

theorem exec_brgLookup_keyError {r : Nat} (he : s.emErr c = some r) :
    exec (.brgLookup call ups) s0 = .next (s.answer call c (errorResult stKEY_ERROR 6 r)) := by
  subst hs
  show execBrgLookup call ups s0 = _
  simp only [execBrgLookup, hp, ht, he, Bool.not_true, Bool.false_eq_true, if_false]

/-- A call without a key error sights its source, and answers its destination as it stood before unless a word on either side is bad. -/
theorem exec_brgLookup_runs (he : s.emErr c = none) :
    let x := (s.brgRead c).brgSight (s.touchBad (s.brgWordsS c)) c
    exec (.brgLookup call ups) s0 = .next (x.2.answer call c
      (if s.touchBad (s.brgWordsD c) || s.touchBad (s.brgWordsS c) then errorResult stTABLE_ERROR 6 rECC
       else brgAnswer (s.emFind c.select c.pipe (sliceB c.key 0 8)) x.1)) := by
  intro x
  subst hs
  show execBrgLookup call ups s0 = _
  simp only [execBrgLookup, hp, ht, he, Bool.not_true, Bool.false_eq_true, if_false]
  cases hbad : (s0.upset ups).touchBad ((s0.upset ups).brgWordsD c) || (s0.upset ups).touchBad ((s0.upset ups).brgWordsS c) with
  | true => exact if_pos hbad
  | false =>
    refine (if_neg (by rw [Bool.not_eq_true]; exact hbad)).trans ?_
    cases (s0.upset ups).emFind c.select c.pipe (sliceB c.key 0 8) <;> rfl

end Call

/-! ### The source sighting -/

/-- The entry that a learned source is given: its port, age mark 3, no move. -/
def learnedEntry (t dom : Nat) (mac : List Nat) (port : Nat) : EmEnt :=
  { table := t, key := beBytes 2 dom ++ mac, data := beBytes 2 port ++ [48] ++ List.replicate 13 0 }

/-- A sighting from a port, in a domain that learns, may change the table. -/
theorem learns_of {on : Bool} {port : Nat} (hon : on = true) (hport : port ≠ 0xFFFF) : (on && port != 0xFFFF) = true := by
  rw [hon, Bool.true_and, bne_iff_ne]
  exact hport

section Unknown
variable {s : State} {t p dom : Nat} {mac : List Nat} {port len : Nat} (hf : s.emFind t p (beBytes 2 dom ++ mac) = none)
include hf

theorem State.sight_unlearned (h : (s.domCfg dom).1 = false ∨ port = 0xFFFF) : s.sight t p dom mac port len = (0, s) := by
  have hl : ((s.domCfg dom).1 && port != 0xFFFF) = false := by
    rw [Bool.and_eq_false_iff, bne_eq_false_iff_eq]
    exact h
  simp only [State.sight, hf, hl, Bool.not_false, if_true]

variable (hon : (s.domCfg dom).1 = true) (hport : port ≠ 0xFFFF)
include hon hport

theorem State.sight_limit (h0 : (s.domCfg dom).2 ≠ 0) (hl : (s.domCfg dom).2 ≤ s.domIn t p dom) :
    s.sight t p dom mac port len = (3, s.learnFail p dom len true) := by
  simp only [State.sight, hf, learns_of hon hport, Bool.not_true, Bool.false_eq_true, if_false, if_pos (And.intro h0 hl)]

theorem State.sight_learns (hl : (s.domCfg dom).2 = 0 ∨ s.domIn t p dom < (s.domCfg dom).2) {u : State}
    (hu : s.emPlace t p (learnedEntry t dom mac port) = some u) :
    s.sight t p dom mac port len = (1, (u.inc (BRG_LEARNED.count p)).notice p dom mac port 0 1) := by
  have hroom : ¬((s.domCfg dom).2 ≠ 0 ∧ (s.domCfg dom).2 ≤ s.domIn t p dom) := by omega
  unfold learnedEntry at hu
  simp only [State.sight, hf, learns_of hon hport, Bool.not_true, Bool.false_eq_true, if_false, if_neg hroom, hu]

end Unknown

section Known
variable {s : State} {t p dom : Nat} {mac : List Nat} {port len : Nat} {e : EmEnt} {pl : EmPlace}
  (hf : s.emFind t p (beBytes 2 dom ++ mac) = some (e, pl)) (hst : brStatic e.data = false)
include hf hst

theorem State.sight_refreshes (hp : brPort e.data = port) : s.sight t p dom mac port len =
    (0, s.emRewrite pl { e with data := brWith e.data port (brFrozen e.data) 3 (brMoves e.data) (brStamp e.data) }) := by
  subst hp
  simp only [State.sight, hf, hst, if_true, Bool.false_eq_true, if_false]

theorem State.sight_moves (hp : brPort e.data ≠ port) (hfr : brFrozen e.data = false) (hon : (s.domCfg dom).1 = true)
    (hport : port ≠ 0xFFFF) : (s.sight t p dom mac port len).1 = 2 := by
  simp only [State.sight, hf, hst, hfr, if_neg hp, learns_of hon hport, Bool.false_eq_true, or_self, Bool.not_true, if_false]

end Known

/-! ### Batches of notices -/

theorem exec_noticeBatchHoldExpire {s : State} {pipe t : Nat} {b : List Nat} {rest : List (Nat × List Nat)}
    (hn : s.notices pipe = (t, b) :: rest) (hold : t + s.rd BRG_LEARNCFG.hold_us * 1000 ≤ s.clk) :
    exec (.noticeBatchHoldExpire pipe) s = .next (s.postBatch pipe (min s.batchLimit (rest.length + 1))) := by
  have he : s.elapsed t (us (s.rd BRG_LEARNCFG.hold_us)) = true := decide_eq_true hold
  show execNoticeBatchHoldExpire pipe s = _
  simp only [execNoticeBatchHoldExpire, hn, he, if_true, List.length_cons]

/-! ### The sweeps -/

theorem exec_sweepVisit {s : State} {pipe t : Nat} (hb : s.bridgeTable = some t) (hd : (s.nextSweep t pipe).sweepDue t pipe = true) :
    let w := s.nextSweep t pipe
    let x := w.sweep pipe
    let b := w.emRegion t pipe + x.bucket
    let u := (([0, 1, 2, 3].filterMap (w.emPos b)).map (·.key) ++ ((w.ovfStore pipe).filter (fun o => o.bucket == b)).map (·.ent.key)).foldl
      (fun s k => s.sweepEntry t pipe k) w
    exec (.sweepVisit pipe) s = .next (u.setSweep pipe { x with bucket := x.bucket + 1 }) := by
  show execSweepVisit pipe s = _
  simp only [execSweepVisit, hb, hd, Bool.not_true, Bool.false_eq_true, if_false]

/-- A sweep that stands at a bucket of the region, and a sweep that is off, goes on. -/
theorem State.nextSweep_same {s : State} {t p : Nat} (h : (s.sweep p).bucket < s.emBuckets t ∨ (s.sweep p).on = false) :
    s.nextSweep t p = s := by
  unfold State.nextSweep
  exact if_neg fun ⟨hon, hend, _⟩ => h.elim (Nat.not_lt.mpr hend) fun hoff => Bool.false_ne_true (hoff.symm.trans hon)

/-- A sweep that is on reads back as it was set. -/
theorem State.sweep_setSweep (s : State) (p : Nat) {x : Sweep} (hx : x.on = true) : (s.setSweep p x).sweep p = x := by
  have hne : x ≠ {} := fun h => by rw [h] at hx; exact Bool.false_ne_true hx
  show Tbl.get {} (Tbl.set {} s.brg.sweeps p x) p = x
  rw [Tbl.set, if_neg hne, Tbl.get_ins_self]

theorem State.nextSweep_starts {s : State} {t p : Nat} (hon : (s.sweep p).on = true) (hend : s.emBuckets t ≤ (s.sweep p).bucket)
    (htime : (s.sweep p).start + (s.sweep p).period * 10 ^ 9 ≤ s.clk) :
    (s.nextSweep t p).sweep p = { on := true, start := (s.sweep p).start + (s.sweep p).period * 10 ^ 9,
                                  period := s.rd BRG_AGECFG.period_s, bucket := 0 } := by
  unfold State.nextSweep
  have hnow : s.elapsed (s.sweep p).start ((s.sweep p).period * 10 ^ 9) = true := decide_eq_true htime
  rw [if_pos ⟨hon, hend, hnow⟩, State.sweep_setSweep _ _ rfl]

section Entry
variable {s : State} {t p : Nat} {key : List Nat} {e : EmEnt} {pl : EmPlace} (hf : s.emFind t p key = some (e, pl))
  (hw : s.touchBad pl.words = false) (hst : brStatic e.data = false)
include hf hw hst

theorem State.sweepEntry_ages_out (ha : brAge e.data = 0) : s.sweepEntry t p key =
    ((s.inc (BRG_AGED.count p)).emFreeAt pl).notice p (beNat (key.take 2)) (sliceB key 2 6) (brPort e.data) 0 3 := by
  simp only [State.sweepEntry, hf, hw, hst, ha, Bool.false_eq_true, if_false, if_true]

theorem State.sweepEntry_ages {a : Nat} (ha : brAge e.data = a + 1) (hfr : brFrozen e.data = false) : s.sweepEntry t p key =
    s.emRewrite pl { e with data := brWith e.data (brPort e.data) false a (brMoves e.data) (brStamp e.data) } := by
  simp only [State.sweepEntry, hf, hw, hst, ha, hfr, Bool.false_eq_true, false_and, if_false, Nat.add_sub_cancel, Nat.succ_ne_zero]

end Entry

/-! ### BRG_CFG -/

/-- BRG_CFG may name this table: it is enabled, of PIPE scope, with keys of 8 bytes. -/
def State.bridgeable (s : State) (t : Nat) : Prop :=
  s.rd (LKP_EMCFG.enable t) = 1 ∧ s.rd (LKP_EMCFG.scope t) = 1 ∧ s.rd (LKP_EMCFG.keylen t) = 0

theorem State.writeBrgCfg_refused {s : State} {t : Nat} (h : ¬ s.bridgeable t) : s.writeBrgCfg 1 t = s.wr BRG_STAT.refused 1 :=
  if_pos ⟨rfl, h⟩

/-- With bridging enabled on a table, BRG_CFG names it. -/
theorem State.bridgeTable_enabled {s : State} (hr : s.regsOk = true) {t : Nat} (ht : t < 64) :
    ((s.wr BRG_CFG.enable 1).wr BRG_CFG.table t).bridgeTable = some t := by
  have hen : ((s.wr BRG_CFG.enable 1).wr BRG_CFG.table t).bit BRG_CFG.enable = true := by
    rw [State.bit, State.rd_wr_ne _ _ (by decide), State.rd_wr_self hr]
    rfl
  rw [State.bridgeTable, if_pos hen, State.rd_wr_self (State.wr_regsOk hr _ _)]
  exact congrArg some (Nat.mod_eq_of_lt ht)

theorem State.writeBrgCfg_enables {s : State} (hr : s.regsOk = true) {t : Nat} (ht : t < 64) (hoff : s.rd BRG_CFG.enable = 0)
    (hb : s.bridgeable t) (hper : s.rd BRG_AGECFG.period_s ≠ 0) :
    s.writeBrgCfg 1 t = ((s.wr BRG_CFG.enable 1).wr BRG_CFG.table t).startSweeps := by
  have hwas : s.bridgeTable = none := if_neg (by simp [State.bit, hoff])
  have hper' : ((s.wr BRG_CFG.enable 1).wr BRG_CFG.table t).rd BRG_AGECFG.period_s ≠ 0 := by
    rwa [State.rd_wr_ne _ _ (by decide), State.rd_wr_ne _ _ (by decide)]
  unfold State.writeBrgCfg
  rw [if_neg fun h => h.2 hb]
  simp only [hwas, State.bridgeTable_enabled hr ht, if_neg (Option.some_ne_none t)]
  exact if_pos ⟨trivial, hper'⟩

/-- A write of BRG_CFG with enable 1 crosses the bridge and is taken by `writeBrgCfg` there. -/
theorem exec_brgEnableWrite {s : State} (hs : FdOpen s) {t : Nat} (ht : t < 64) {f : State → State}
    (hf : s.fdReach.writeBrgCfg 1 t = f s.fdReach) :
    exec (.brgEnableWrite (64 + t)) s = .next (tagged s false 0x140000 (2 ^ 32 - 1) (64 + t) f) := by
  have hen : bitsAt (64 + t) 6 1 = 1 := by unfold bitsAt; omega
  have htab : bitsAt (64 + t) 0 6 = t := by unfold bitsAt; omega
  refine congrArg _ (State.poke_fd (u := s.fdReach) hs (by decide) (by decide) (by decide) rfl (by omega) rfl ?_)
  show some (s.fdReach.writeBrgCfg (bitsAt (64 + t) 6 1) (bitsAt (64 + t) 0 6)) = _
  rw [hen, htab, hf]

/-! ### BRG_AGECFG -/

/-- A write of BRG_AGECFG.period_s crosses the bridge and is taken by `writeAge` there. -/
theorem exec_agePeriodWrite {s : State} (hs : FdOpen s) {n : Nat} (hn : n < 65536) {f : State → State}
    (hf : s.fdReach.writeAge n = f s.fdReach) :
    exec (.agePeriodWrite n) s = .next (tagged s false 0x140004 (2 ^ 32 - 1) n f) := by
  have hbits : bitsAt n 0 16 = n := by unfold bitsAt; omega
  show Host.Outcome.next (s.poke 0x140004 (n % 65536)) = _
  rw [Nat.mod_eq_of_lt hn]
  refine congrArg _ (State.poke_fd (u := s.fdReach) hs (by decide) (by decide) (by decide) rfl (by omega) rfl ?_)
  show some (s.fdReach.writeAge (bitsAt n 0 16)) = _
  rw [hbits, hf]

/-- What a write that crossed the bridge left of bridging is what its effect left. -/
theorem tagged_brg (s : State) (cmd : Bool) (a mask v : Nat) (f : State → State) : (tagged s cmd a mask v f).brg = (f s.fdReach).brg := by
  obtain ⟨d, hd⟩ := State.fdReply_only ((f s.fdReach).tagDone s.dies.nextTag 0) (.write s.dies.nextTag a mask v cmd) s.dies.nextTag 0
  have h := congrArg State.brg hd
  exact h

theorem State.writeAge_zero_sweeps (s : State) : (s.writeAge 0).brg.sweeps = [] := rfl

/-- R198: the period 0 stops the sweeps. -/
theorem agePeriodWrite_zero {s : State} (hs : FdOpen s) : ∃ t, exec (.agePeriodWrite 0) s = .next t ∧ t.brg.sweeps = [] := by
  refine ⟨_, exec_agePeriodWrite (f := fun u => u.writeAge 0) hs (by decide) rfl, ?_⟩
  rw [tagged_brg, State.writeAge_zero_sweeps]

theorem State.foldl_nextSweep_same {s : State} {t : Nat} : ∀ {ps : List Nat}, (∀ p ∈ ps, (s.sweep p).bucket < s.emBuckets t) →
    ps.foldl (fun s p => s.nextSweep t p) s = s
  | [], _ => rfl
  | p :: ps, h => by
    rw [List.forall_mem_cons] at h
    rw [List.foldl_cons, State.nextSweep_same (.inl h.1), foldl_nextSweep_same h.2]

section Age
variable {s : State} {n : Nat} (h0 : 0 < n) (hn : n < 65536) (hper : s.rd BRG_AGECFG.period_s ≠ 0)
include h0 hn hper

theorem State.writeAge_unbridged (hb : s.bridgeTable = none) : s.writeAge n = s.wr BRG_AGECFG.period_s n := by
  have hmod : n % 65536 ≠ 0 := by omega
  simp only [State.writeAge, hb, if_neg hmod, hper, false_and, if_false]

/-- A period in place of another waits for the next sweep: with none at its end, only the register changes. -/
theorem State.writeAge_waits {t : Nat} (hb : s.bridgeTable = some t) (hw : ∀ p, p < 4 → (s.sweep p).bucket < s.emBuckets t) :
    s.writeAge n = s.wr BRG_AGECFG.period_s n := by
  have hmod : n % 65536 ≠ 0 := by omega
  have hstay : [0, 1, 2, 3].foldl (fun s p => s.nextSweep t p) s = s :=
    State.foldl_nextSweep_same fun p hp => hw p (List.mem_range.mp (hp : p ∈ List.range 4))
  simp only [State.writeAge, hb, hstay, if_neg hmod, hper, false_and, if_false]

end Age

/-- R198: the new period stands in the register, and the sweeps under way keep theirs. -/
theorem agePeriodWrite_leaves {s : State} (hs : FdOpen s) (hr : s.regsOk = true) {n t : Nat} (h0 : 0 < n) (hn : n < 65536)
    (hper : s.rd BRG_AGECFG.period_s ≠ 0) (hb : s.bridgeTable = some t) (hw : ∀ p, p < 4 → (s.sweep p).bucket < s.emBuckets t) :
    ∃ v, exec (.agePeriodWrite n) s = .next v ∧ v.rd BRG_AGECFG.period_s = n ∧ v.brg.sweeps = s.brg.sweeps := by
  refine ⟨_, exec_agePeriodWrite (f := fun u => u.wr BRG_AGECFG.period_s n) hs hn
    (State.writeAge_waits (s := s.fdReach) h0 hn hper hb hw), ?_, ?_⟩
  · rw [tagged_rd, State.rd_wr_self (s := s.fdReach) hr]
    exact Nat.mod_eq_of_lt hn
  · rw [tagged_brg]
    rfl

end Sys2Proof.Machine

namespace Sys2Proof
open Machine Claims

/-- Settles O25: the call by the words that it reads, the sighting by what is known of its source, the sweeps by where they stand, and the
writes of BRG_CFG and BRG_AGECFG by their effects on the FD. -/
theorem bridgingAndAging : Obligations.BridgingAndAging := by
  refine ⟨fun s0 ups call c => ?call, fun s0 ups call c hp ht r he => exec_brgLookup_keyError rfl hp ht (State.emErr_some he),
    fun s t p dom mac port len hf => ⟨State.sight_unlearned hf, State.sight_limit hf, fun hon hport hl u => State.sight_learns hf hon hport hl⟩,
    fun s t p dom mac port len e pl hf hst => ⟨State.sight_refreshes hf hst, State.sight_moves hf hst⟩,
    fun s pipe t b rest => exec_noticeBatchHoldExpire, fun s pipe t => exec_sweepVisit,
    fun s t p => ⟨State.nextSweep_same, State.nextSweep_starts⟩,
    fun s t p key e pl hf hw hst => ⟨State.sweepEntry_ages_out hf hw hst, fun a => State.sweepEntry_ages hf hw hst⟩,
    fun s t hs hr ht hoff => ?enable,
    fun s hs => agePeriodWrite_zero hs,
    fun s n hs h0 hn hper hb => exec_agePeriodWrite hs hn (State.writeAge_unbridged (s := s.fdReach) h0 hn hper hb),
    fun s n t hs hr h0 hn hper hb => agePeriodWrite_leaves hs hr h0 hn hper hb⟩
  case call =>
    intro s ⟨hp, herr⟩ ht hen
    have he := State.emErr_none herr hen
    have hrun := exec_brgLookup_runs (call := call) (ups := ups) rfl hp ht he
    refine ⟨fun (hb : s.touchBad (s.brgWordsS c) = true) => ?_,
      fun (hd : s.touchBad (s.brgWordsD c) = true) (hb : s.touchBad (s.brgWordsS c) = false) => ?_,
      fun (hd : s.touchBad (s.brgWordsD c) = false) (hb : s.touchBad (s.brgWordsS c) = false) hf => ?_,
      fun e pl (hd : s.touchBad (s.brgWordsD c) = false) (hb : s.touchBad (s.brgWordsS c) = false) hf => ?_⟩
    · rw [hrun, hb, Bool.or_true]
      rfl
    · rw [hrun, hb, hd, Bool.true_or]
      rfl
    · rw [hrun, hb, hd, hf]
      rfl
    · rw [hrun, hb, hd, hf]
      rfl
  case enable =>
    refine ⟨fun h1 h2 h3 hper => exec_brgEnableWrite hs ht (State.writeBrgCfg_enables (s := s.fdReach) hr ht hoff ⟨h1, h2, h3⟩ hper),
      fun hno => exec_brgEnableWrite hs ht (State.writeBrgCfg_refused (s := s.fdReach) fun ⟨h1, h2, h3⟩ => ?_)⟩
    have h1' : s.rd (LKP_EMCFG.enable t) = 1 := h1
    have h2' : s.rd (LKP_EMCFG.scope t) = 1 := h2
    have h3' : s.rd (LKP_EMCFG.keylen t) = 0 := h3
    omega

end Sys2Proof
end

section
/-! SUPPORT. The allocator takes free cells (R215, R219), and a release by its handle and unit (R234, R237, R238, R252). -/
namespace Sys2Proof.Machine
open Sys2Proof.Claims

/-! ### The cells that the allocator takes -/

theorem firstFree_some {ok : Nat → Bool} {size j : Nat} : ∀ {n k : Nat}, 0 < size → firstFree ok size n k = some j → j < size ∧ ok j = true
  | n + 1, k, hs, h => by
    rw [firstFree] at h
    split at h
    · cases h
      exact ⟨Nat.mod_lt _ hs, ‹_›⟩
    · exact firstFree_some hs h

theorem cellPtr_inj {tier a b : Nat} : cellPtr tier a = cellPtr tier b ↔ a = b := Nat.add_left_cancel_iff

theorem State.takeCell_some {s u : State} {tier size k : Nat} {ok : Nat → Bool} (h : s.takeCell tier size ok = some (k, u)) :
    k < size ∧ ok k = true ∧ cellPtr tier k ∉ s.heldBack ∧ Tbl.get false s.bpm.used (cellPtr tier k) = false ∧
      u.bpm = { s.bpm with used := Tbl.ins (cellPtr tier k) true s.bpm.used } ∧ u.heldBack = s.heldBack := by
  unfold State.takeCell at h
  dsimp only [State.fresh] at h
  split at h
  · cases h
  · rename_i j hj
    cases h
    have hs : 0 < size := Nat.pos_of_ne_zero fun h0 => by subst h0; cases hj
    obtain ⟨hlt, hok⟩ := firstFree_some hs hj
    simp only [Bool.and_eq_true, Bool.not_eq_true', List.contains_eq_mem, decide_eq_false_iff_not] at hok
    exact ⟨hlt, hok.1.1, hok.2, hok.1.2, rfl, rfl⟩

/-- R215, R219: `l` are up to `n` different cells that `ok` admits, free in `s` and not released in its cycle; in `u` they are taken, and every
other cell is as it was. -/
structure CellsTaken (s : State) (tier size : Nat) (ok : Nat → Bool) (n : Nat) (l : List Nat) (u : State) : Prop where
  nodup : l.Nodup
  length : l.length ≤ n
  were_free : ∀ k ∈ l, k < size ∧ ok k = true ∧ cellPtr tier k ∉ s.heldBack ∧ Tbl.get false s.bpm.used (cellPtr tier k) = false
  taken : ∀ k ∈ l, Tbl.get false u.bpm.used (cellPtr tier k) = true
  others : ∀ c, (∀ k ∈ l, c ≠ cellPtr tier k) → Tbl.get false u.bpm.used c = Tbl.get false s.bpm.used c

theorem CellsTaken.nil (s : State) (tier size : Nat) (ok : Nat → Bool) (n : Nat) : CellsTaken s tier size ok n [] s :=
  ⟨List.nodup_nil, Nat.zero_le n, fun _ h => (nomatch h), fun _ h => (nomatch h), fun _ _ => rfl⟩

/-- One cell taken before the others: it reads taken from then on, so it is none of them. -/
theorem CellsTaken.cons {s t u : State} {tier size n k : Nat} {ok : Nat → Bool} {l : List Nat} (hk : s.takeCell tier size ok = some (k, t))
    (h : CellsTaken t tier size ok n l u) : CellsTaken s tier size ok (n + 1) (k :: l) u := by
  obtain ⟨hlt, hok, hheld, hfree, hbpm, hback⟩ := State.takeCell_some hk
  have hself : Tbl.get false t.bpm.used (cellPtr tier k) = true := by rw [hbpm]; exact Tbl.get_ins_self ..
  have hne : ∀ c, c ≠ cellPtr tier k → Tbl.get false t.bpm.used c = Tbl.get false s.bpm.used c := fun c hc => by
    rw [hbpm]; exact Tbl.get_ins_ne false s.bpm.used true hc
  have hnot : k ∉ l := fun hm => by simp [(h.were_free k hm).2.2.2] at hself
  have hdiff : ∀ j ∈ l, cellPtr tier k ≠ cellPtr tier j := fun j hj he => hnot (cellPtr_inj.mp he ▸ hj)
  refine { nodup := List.nodup_cons.mpr ⟨hnot, h.nodup⟩, length := Nat.succ_le_succ h.length, were_free := ?_, taken := ?_,
           others := fun c hc => ?_ }
  · refine List.forall_mem_cons.mpr ⟨⟨hlt, hok, hheld, hfree⟩, fun j hj => ?_⟩
    obtain ⟨jlt, jok, jheld, jfree⟩ := h.were_free j hj
    exact ⟨jlt, jok, hback ▸ jheld, hne _ (hdiff j hj).symm ▸ jfree⟩
  · exact List.forall_mem_cons.mpr ⟨(h.others _ hdiff).trans hself, h.taken⟩
  · rw [List.forall_mem_cons] at hc
    exact (h.others c hc.2).trans (hne c hc.1)

theorem State.takeCells_taken (tier size : Nat) (ok : Nat → Bool) : ∀ (n : Nat) (s : State),
    CellsTaken s tier size ok n (State.takeCells tier size ok n s).1 (State.takeCells tier size ok n s).2
  | 0, s => CellsTaken.nil s tier size ok 0
  | n + 1, s => by
    rw [State.takeCells]
    split
    · exact CellsTaken.nil s tier size ok (n + 1)
    · exact CellsTaken.cons ‹_› (takeCells_taken tier size ok n _)

/-! ### Double and foreign frees -/

@[simp] theorem State.postTwo_bpm (s : State) (code a b : Nat) : (s.postTwo code a b).bpm = s.bpm := by
  unfold State.postTwo; dsimp only; split
  · exact State.post_bpm ..
  · rfl

@[simp] theorem State.postTwo_qm (s : State) (code a b : Nat) : (s.postTwo code a b).qm = s.qm := by
  unfold State.postTwo; dsimp only; split
  · exact State.post_qm ..
  · rfl

/-- `t` is `s` but for its registers. -/
def OnlyRegs (s t : State) : Prop := ∃ r, t = { s with regs := r }

theorem OnlyRegs.wr {s t : State} (h : OnlyRegs s t) (f : Fld) (v : Nat) : OnlyRegs s (t.wr f v) := by
  obtain ⟨r, rfl⟩ := h; exact ⟨_, rfl⟩

theorem OnlyRegs.ite {s t u : State} {p : Prop} [Decidable p] (ht : OnlyRegs s t) (hu : OnlyRegs s u) : OnlyRegs s (if p then t else u) := by
  split <;> assumption

/-- All that a refused release does before its event: it writes registers. -/
theorem State.freeFault_regs (s : State) (double : Bool) (ptr gen unit owner : Nat) :
    ∃ r, s.freeFault double ptr gen unit owner = ({ s with regs := r } : State).postTwo 0x0503 (b2n double) (b2n !double) := by
  unfold State.freeFault
  extract_lets u v w x
  have hu : OnlyRegs s u := OnlyRegs.ite ⟨_, rfl⟩ ⟨_, rfl⟩
  have hw : OnlyRegs s w := (((((hu.wr _ _).wr _ _).wr _ _).wr _ _).wr _ _).wr _ _
  obtain ⟨r, hr⟩ : OnlyRegs s x := hu.ite (hw.wr _ _)
  exact ⟨r, by rw [hr]⟩

@[simp] theorem State.freeFault_bpm (s : State) (double : Bool) (ptr gen unit owner : Nat) :
    (s.freeFault double ptr gen unit owner).bpm = s.bpm := by
  obtain ⟨r, h⟩ := s.freeFault_regs double ptr gen unit owner
  rw [h, State.postTwo_bpm]

@[simp] theorem State.freeFault_qm (s : State) (double : Bool) (ptr gen unit owner : Nat) :
    (s.freeFault double ptr gen unit owner).qm = s.qm := by
  obtain ⟨r, h⟩ := s.freeFault_regs double ptr gen unit owner
  rw [h, State.postTwo_qm]

/-! ### Releases by handle and unit -/

theorem exec_chainRelease (ptr gen unit : Nat) (s : State) : exec (.chainRelease ptr gen unit) s = .next (s.release ptr gen unit) := rfl

theorem State.release_double {s : State} {ptr gen : Nat} (h : (s.chain ptr).owner = 0 ∨ (s.chain ptr).gen ≠ gen) (unit : Nat) :
    s.release ptr gen unit = s.freeFault true ptr gen unit (s.chain ptr).owner := if_pos h

section Named
variable {s : State} {ptr unit : Nat} (h0 : (s.chain ptr).owner ≠ 0)
include h0

theorem State.release_foreign (h : ((s.chain ptr).owner = ownerShared ∧ readerCode unit = false) ∨
    ((s.chain ptr).owner ≠ ownerShared ∧ (s.chain ptr).owner ≠ unit)) :
    s.release ptr (s.chain ptr).gen unit = s.freeFault false ptr (s.chain ptr).gen unit (s.chain ptr).owner := by
  unfold State.release
  rcases h with ⟨ho, hr⟩ | ⟨ho, hu⟩
  · simp only [ho] at h0 ⊢
    simp [h0, hr]
  · simp [h0, ho, hu]

theorem State.release_owned (ho : (s.chain ptr).owner ≠ ownerShared) : s.release ptr (s.chain ptr).gen (s.chain ptr).owner =
    (s.endRead ptr (s.chain ptr).gen (s.chain ptr).owner).freeChain ptr := by
  simp [State.release, h0, ho]

end Named

/-- The end of a reading leaves every count of the share table. -/
@[simp] theorem State.endRead_share (s : State) (ptr gen unit : Nat) : (s.endRead ptr gen unit).bpm.share = s.bpm.share := by
  unfold State.endRead; split <;> rfl

/-- R234: a reader's release of a shared chain, by the references that it had. -/
theorem State.release_shared {s : State} {ptr unit : Nat} (ho : (s.chain ptr).owner = ownerShared) (hu : readerCode unit = true) :
    s.release ptr (s.chain ptr).gen unit =
      let u := s.endRead ptr (s.chain ptr).gen unit
      let n := Tbl.get 0 s.bpm.share (s.chain ptr).share
      let v : State := { u with bpm := { u.bpm with share := Tbl.set 0 u.bpm.share (s.chain ptr).share (n - 1) } }
      if n ≤ 1 then (v.freeChain ptr).syncShare else { v with qm := { v.qm with replicas := v.qm.replicas - 1 } } := by
  have h0 : ownerShared ≠ 0 := by decide
  simp [State.release, ho, hu, h0]

/-! ### The end of a reading -/

theorem State.endRead_found {s : State} {ptr gen unit : Nat} {x : Reading}
    (hx : s.bpm.reading.find? (fun y => y.ptr == ptr && y.gen == gen && y.unit == unit) = some x) : s.endRead ptr gen unit =
      ({ s with bpm := { s.bpm with reading := s.bpm.reading.erase x } } : State).lower x.queue x.n := by
  simp only [State.endRead, hx]

theorem State.queue_setQueue {s : State} (h : Tbl.risingFrom 0 s.qm.queues = true) (k : Nat) (q : Queue) : (s.setQueue k q).queue k = q :=
  Tbl.get_set_self ({} : Queue) h k q

/-- R252: the depth of a queue that a chain of `n` cells leaves. -/
theorem State.lower_queue {s : State} (h : Tbl.risingFrom 0 s.qm.queues = true) (k n : Nat) :
    ((s.lower k n).queue k).ents = (s.queue k).ents ∧ ((s.lower k n).queue k).cells = (s.queue k).cells - n ∧
      ((s.lower k n).queue k).pkts = (s.queue k).pkts - 1 := by
  have hq : (s.lower k n).queue k = { s.queue k with cells := (s.queue k).cells - n, pkts := (s.queue k).pkts - 1 } :=
    State.queue_setQueue h k _
  rw [hq]
  exact ⟨rfl, rfl, rfl⟩

end Sys2Proof.Machine

namespace Sys2Proof
open Machine Claims

/-- Settles O37: the cells by induction over those asked for, the releases by what the chain's header says of the handle and the unit. -/
theorem cellsTakenAndReleased : Obligations.CellsTakenAndReleased := by
  refine ⟨fun s tier size ok n _ => ?cells,
    fun s ptr gen unit h => ⟨_, congrArg Host.Outcome.next (State.release_double h unit), rfl, State.freeFault_bpm .., State.freeFault_qm ..⟩,
    fun s ptr unit h0 h => ⟨_, congrArg Host.Outcome.next (State.release_foreign h0 h), rfl, State.freeFault_bpm .., State.freeFault_qm ..⟩,
    fun s ptr h0 ho => congrArg _ (State.release_owned h0 ho), fun s ptr unit n ho hu hn => ?shared, fun s ptr gen unit x hx => ?reading⟩
  case cells =>
    have h := State.takeCells_taken tier size ok n s
    refine ⟨h.nodup, h.length, fun k hk => ?_, h.others⟩
    obtain ⟨hlt, hok, hheld, hfree⟩ := h.were_free k hk
    exact ⟨hlt, hok, hheld, hfree, h.taken k hk⟩
  case shared =>
    subst hn
    rw [exec_chainRelease, State.release_shared ho hu]
    exact ⟨fun h2 => by rw [if_neg (by omega)], fun h1 => by rw [if_pos h1]⟩
  case reading =>
    rw [State.endRead_found hx]
    exact ⟨rfl, rfl, fun hq => State.lower_queue (s := { s with bpm := { s.bpm with reading := s.bpm.reading.erase x } }) hq x.queue x.n⟩

end Sys2Proof
end

section
/-! SUPPORT. Moves of chains between tiers (R220 to R231, R240 to R243): what a swap leaves of the queues, and what the four commands do. -/
namespace Sys2Proof.Machine
open Sys2Proof.Claims

/-! ### The free counts -/

/-- The registers that say what the buffer is. -/
def bufferCfg : List Nat := [BPM_CFG.enable.key, BPM_CFG.deep_mcells.key, BPM_RSVCFG.enable.key]

/-- What the free counts' registers and BPM_POOL_LOW leave: the queues, of the buffer all but which tiers are low, and what it is. -/
structure SameStore (s t : State) : Prop where
  bpm : ∃ l, t.bpm = { s.bpm with low := l }
  qm : t.qm = s.qm
  cfg : ∀ g : Fld, g.key ∈ bufferCfg → t.rd g = s.rd g

namespace SameStore
variable {s t u : State}

theorem refl (s : State) : SameStore s s := ⟨⟨_, rfl⟩, rfl, fun _ _ => rfl⟩

theorem wr (h : SameStore s t) {f : Fld} (hf : f.key ∉ bufferCfg) (v : Nat) : SameStore s (t.wr f v) :=
  ⟨h.bpm, h.qm, fun g hg => (t.rd_wr_ne v fun he => hf (he ▸ hg)).trans (h.cfg g hg)⟩

theorem setLow (h : SameStore s t) (l : List Nat) : SameStore s { t with bpm := { t.bpm with low := l } } := by
  obtain ⟨_, hb⟩ := h.bpm
  exact ⟨⟨l, by rw [hb]⟩, h.qm, h.cfg⟩

theorem post (h : SameStore s t) {code : Nat} (hf : (HIF_EVLOST.count (code / 256)).key ∉ bufferCfg) (p : List Nat) :
    SameStore s (t.post code p) := by
  refine ⟨?_, ?_, fun g hg => (State.postRec_rd t code p [] fun he => hf (he ▸ hg)).trans (h.cfg g hg)⟩
  · rw [State.post_bpm]; exact h.bpm
  · rw [State.post_qm]; exact h.qm

theorem ite {p : Prop} [Decidable p] (ht : SameStore s t) (hu : SameStore s u) : SameStore s (if p then t else u) := by
  split <;> assumption

theorem setFree (h : SameStore s t) {f m : Fld} (hf : f.key ∉ bufferCfg) (hm : m.key ∉ bufferCfg) (v : Nat) : SameStore s (t.setFree f m v) :=
  (h.wr hf v).wr hm _

theorem poolLow (h : SameStore s t) (tier free size pct : Nat) : SameStore s (t.poolLow tier free size pct) :=
  ite ((h.setLow _).post (by decide) _) (ite ((h.setLow _).post (by decide) _) h)

theorem itePoolLow (h : SameStore s t) (p : Prop) [Decidable p] (tier free size pct : Nat) :
    SameStore s (if p then t.poolLow tier free size pct else t) := (h.poolLow ..).ite h

theorem foldl {α : Type} {f : State → α → State} (hf : ∀ t x, SameStore s t → SameStore s (f t x)) : ∀ (l : List α) {t : State},
    SameStore s t → SameStore s (l.foldl f t)
  | [], _, h => h
  | x :: l, _, h => foldl hf l (hf _ x h)

theorem trans (h : SameStore s t) (h' : SameStore t u) : SameStore s u := by
  obtain ⟨_, hb⟩ := h.bpm
  obtain ⟨l, hb'⟩ := h'.bpm
  exact ⟨⟨l, by rw [hb', hb]⟩, h'.qm.trans h.qm, fun g hg => (h'.cfg g hg).trans (h.cfg g hg)⟩

end SameStore

theorem State.syncFree_store (s : State) : SameStore s s.syncFree := by
  unfold State.syncFree
  dsimp only
  refine .ite (.refl s) (.itePoolLow (.poolLow (.poolLow (.setFree (.setFree (.setFree (.setFree (.refl s) ?_ ?_ _) ?_ ?_ _) ?_ ?_ _) ?_ ?_ _)
    ..) ..) ..) <;> decide

@[simp] theorem State.syncFree_qm (s : State) : s.syncFree.qm = s.qm := s.syncFree_store.qm

@[simp] theorem State.giveSpace_qm (s : State) (ptr : Nat) (cells : List Nat) : (s.giveSpace ptr cells).qm = s.qm := by
  unfold State.giveSpace State.leavePage; dsimp only; split
  · split <;> rfl
  · rfl

@[simp] theorem State.giveSpace_chain (s : State) (ptr : Nat) (cells : List Nat) (p : Nat) : (s.giveSpace ptr cells).chain p = s.chain p := by
  unfold State.giveSpace State.leavePage; dsimp only; split
  · split <;> rfl
  · rfl

/-! ### The swap -/

/-- A table whose unlisted keys `f` leaves unlisted reads at each key `f` of what it read. -/
theorem get_mapAll {α : Type} [DecidableEq α] (d : α) (f : Nat → α → α) (k : Nat) (hd : f k d = d) : ∀ {t : Tbl α} {lo : Nat},
    Tbl.risingFrom lo t = true → Tbl.get d (Tbl.mapAll d f t) k = f k (Tbl.get d t k)
  | [], _, _ => hd.symm
  | (k', v) :: r, lo, h => by
    rw [Tbl.risingFrom, Bool.and_eq_true] at h
    have ih := get_mapAll d f k hd h.2
    rw [Tbl.mapAll]
    by_cases hk : k' = k
    · subst hk
      rw [Tbl.get_below d h.2 (Nat.lt_succ_self k'), hd] at ih
      split
      · rename_i hv
        rw [ih, Tbl.get, if_pos rfl, hv]
      · rw [Tbl.get, Tbl.get, if_pos rfl, if_pos rfl]
    · split
      · rw [ih, Tbl.get, if_neg hk]
      · rw [Tbl.get, Tbl.get, if_neg hk, if_neg hk, ih]

/-- The generation under which a swap puts the copy (R220). -/
def State.copyGen (s : State) (m : Move) : Nat := ((s.chain m.dst).gen + 1) % 256

/-- R220: a swap leaves each queue's depth, and repoints its entries. -/
theorem State.swap_queue {s : State} (h : Tbl.risingFrom 0 s.qm.queues = true) (m : Move) (k : Nat) :
    (s.swap m).queue k = (s.queue k).repoint m.src m.dst (s.copyGen m) := by
  have hq : (s.swap m).qm.queues = Tbl.mapAll {} (fun _ q => q.repoint m.src m.dst (s.copyGen m)) s.qm.queues := by
    unfold State.swap
    simp only [State.syncFree_qm, State.giveSpace_chain]
    split <;> exact congrArg (fun q : Qm => Tbl.mapAll ({} : Queue) (fun _ x => x.repoint m.src m.dst (s.copyGen m)) q.queues) (State.giveSpace_qm ..)
  unfold State.queue
  rw [hq]
  exact get_mapAll {} (fun _ q => q.repoint m.src m.dst (s.copyGen m)) k rfl h

/-! ### MOVE_SWAP -/

/-- A chain whose generation, owner or errors keep its copy from taking its place (R221, R240). -/
theorem State.mayswap_no {s : State} {m : Move} (h : (s.chain m.src).bad ≠ 0 ∨ (s.chain m.src).gen ≠ m.gen ∨ (s.chain m.src).owner ≠ 0x10) :
    s.mayswap m = false := by
  unfold State.mayswap
  rcases h with h | h | h <;> simp [h]

@[simp] theorem State.readMark_bpm (s : State) (ecc : Nat) : (s.readMark ecc).bpm = s.bpm := by
  unfold State.readMark; split <;> rfl

theorem State.chain_congr {s t : State} (h : t.bpm.chains = s.bpm.chains) (ptr : Nat) : t.chain ptr = s.chain ptr := by
  unfold State.chain; rw [h]

/-- A chain marked by an error is marked whatever the order of the table: it is not what an unlisted key reads as. -/
theorem State.spoil_bad (s : State) (ptr ecc : Nat) : ((s.spoil ptr ecc).chain ptr).bad ≠ 0 := by
  have hbad : (if ecc = 2 then 0x17 else 7) ≠ 0 := by split <;> decide
  have hne : { s.chain ptr with bad := if ecc = 2 then 0x17 else 7 } ≠ ({} : Chain) := fun h => hbad (congrArg Chain.bad h)
  have hset : (s.spoil ptr ecc).bpm.chains = Tbl.ins ptr { s.chain ptr with bad := if ecc = 2 then 0x17 else 7 } s.bpm.chains := if_neg hne
  unfold State.chain at hset ⊢
  rw [hset, Tbl.get_ins_self]
  exact hbad

section Swap
variable {s u : State} {src ecc : Nat} {m : Move} (hm : s.bpm.moves.find? (fun m => m.src == src) = some m) (hw : s.writing m.dst = false)
  (hu : u = State.readMark { s with bpm := { s.bpm with moves := s.bpm.moves.erase m } } ecc)
include hm hw hu

theorem exec_moveSwap : exec (.moveSwap src ecc) s =
    let v := if (ecc = 1 ∨ ecc = 2) ∧ (u.chain src).gen = m.gen ∧ (u.chain src).owner ≠ 0 then u.spoil src ecc else u
    .next (if v.mayswap m then (v.swap m).startEvac else ((v.giveSpace m.dst m.cells).inc BPM_MOVEABORT.count).syncFree.startEvac) := by
  show execMoveSwap src ecc s = _
  unfold execMoveSwap
  simp only [hm, hw, Bool.false_eq_true, if_false, ← hu]
  rw [apply_ite Host.Outcome.next]

omit hm hw in
theorem chain_moved (p : Nat) : u.chain p = s.chain p := State.chain_congr (by rw [hu, State.readMark_bpm]) p

theorem exec_moveSwap_read (h1 : ecc ≠ 1) (h2 : ecc ≠ 2) : exec (.moveSwap src ecc) s =
    .next (if u.mayswap m then (u.swap m).startEvac else ((u.giveSpace m.dst m.cells).inc BPM_MOVEABORT.count).syncFree.startEvac) := by
  rw [exec_moveSwap hm hw hu, if_neg fun h => h.1.elim h1 h2]

theorem exec_moveSwap_spoilt (he : ecc = 1 ∨ ecc = 2) (hg : (s.chain src).gen = m.gen) (ho : (s.chain src).owner ≠ 0) :
    exec (.moveSwap src ecc) s = .next (((u.spoil src ecc).giveSpace m.dst m.cells).inc BPM_MOVEABORT.count).syncFree.startEvac := by
  have hsrc : m.src = src := by simpa using List.find?_some hm
  rw [exec_moveSwap hm hw hu, if_pos ⟨he, by rw [chain_moved hu]; exact ⟨hg, ho⟩⟩]
  dsimp only
  rw [State.mayswap_no (.inl (by rw [hsrc]; exact u.spoil_bad src ecc))]
  rfl

theorem exec_moveSwap_gone (h : (s.chain src).gen ≠ m.gen ∨ (s.chain src).owner = 0) :
    exec (.moveSwap src ecc) s = .next ((u.giveSpace m.dst m.cells).inc BPM_MOVEABORT.count).syncFree.startEvac := by
  have hsrc : m.src = src := by simpa using List.find?_some hm
  have hc := chain_moved hu src
  rw [exec_moveSwap hm hw hu, if_neg (by rw [hc]; tauto)]
  dsimp only
  rw [State.mayswap_no (.inr (by rw [hsrc, hc]; exact h.imp id fun h0 => by rw [h0]; decide))]
  rfl

end Swap

/-! ### PREFETCH_START, EVICTION_START and EVAC_DONE -/

/-- R224 to R226: the copy of a chain that has its cells, a free writer and, where a return port caps it, a token there. -/
theorem exec_prefetchStart {s : State} {ptr : Nat} (ho : s.oldest s.prefetchable = some ptr) (hn : (s.chain ptr).n ≤ s.freeNow 1)
    (hw : s.xwait 53 = []) (hc : (s.returnCap ptr).all (fun x => decide (0 < x.2.peak.tok)) = true) :
    exec .prefetchStart s =
      let x := (returnPaid s ptr).takeArea 1 (s.chain ptr).n
      let dst := cellPtr 0 (x.1.head?.getD 0)
      let m : Move := { src := ptr, gen := (s.chain ptr).gen, kind := 0, dst := dst, cells := x.1 }
      let u : State := { x.2 with bpm := { x.2.bpm with moves := x.2.bpm.moves ++ [m] } }
      .next (u.xputAll 53 dst x.1).syncFree := by
  show execPrefetchStart s = _
  unfold execPrefetchStart returnPaid
  cases hr : s.returnCap ptr with
  | none => simp [ho, hr, hw, Nat.not_lt.mpr hn]
  | some x =>
    rw [hr] at hc
    simp only [Option.all_some, decide_eq_true_eq] at hc
    simp [ho, hr, hw, Nat.not_lt.mpr hn, Int.not_le.mpr hc]

/-- The state in which the copies of one page of the deep chains of queue `k` have begun, and the next page is due rate_gbps later (R229, R230). -/
def State.pageStarted (s : State) (k page : Nat) : State :=
  let run := s.packPage 0 (s.evictions k)
  let moves := run.map (fun x =>
    ({ src := x.2, gen := (s.chain x.2).gen, kind := 1, dst := cellPtr 2 (256 * page + x.1), cells := [] } : Move))
  let due := s.paceNext s.bpm.evictAt (run.foldl (fun a x => a + (s.chain x.2).n) 0 * 2048) (s.rd BPM_RSVCFG.rate_gbps)
  { s with bpm := { s.bpm with moves := s.bpm.moves ++ moves, pages := Tbl.set 0 s.bpm.pages page run.length, evictNext := k + 1,
                               evictAt := due } }

theorem exec_evictionStart {s u : State} {k page : Nat}
    (hk : firstFrom s.bpm.evictNext (s.liveQueues.filter (fun k => s.evictable k && !(s.evictions k).isEmpty)) = some k)
    (hat : s.bpm.evictAt ≤ s.fine) (hw : s.prefetchable.any (fun p => tierOf p == 2 && decide ((s.chain p).n ≤ s.freeNow 1)) = false)
    (ht : s.takePage = some (page, u)) : exec .evictionStart s = .next (u.pageStarted k page).syncFree := by
  show execEvictionStart s = _
  simp only [execEvictionStart, hk, hw, ht, Bool.false_eq_true, or_false, if_neg (Nat.not_lt.mpr hat)]
  rfl

theorem exec_evacDone_more {s : State} {unit : Nat} (hu : unit ∈ s.bpm.evac) (he : s.evacEmpty unit = false) :
    exec (.evacDone unit) s = .next s.startEvac := by
  show execEvacDone unit s = _
  simp [execEvacDone, hu, he]

/-- The state in which a unit is out: of the units under evacuation, and of the deep tier or of the stripe (R242, R243). -/
def State.unitOut (s : State) (unit : Nat) : State :=
  { s with bpm := { s.bpm with evac := s.bpm.evac.filter (· != unit), gone := if unit < 384 then insNat unit s.bpm.gone else s.bpm.gone,
                               stripe := s.bpm.stripe.filter (fun ch => 1000 + ch != unit) } }

theorem exec_evacDone_last {s : State} {unit : Nat} (hu : unit ∈ s.bpm.evac) (he : s.evacEmpty unit = true) : exec (.evacDone unit) s =
    .next ((s.unitOut unit).syncStripe.post 0x0505 ([if unit < 384 then 0 else 1, 0] ++ leBytes 2 (unit % 1000))) := by
  show execEvacDone unit s = _
  simp [execEvacDone, hu, he]
  rfl

theorem State.syncStripe_store (s : State) : SameStore s s.syncStripe :=
  ((SameStore.refl s).wr (f := BPM_RSVCFG.channels) (by decide) _).trans (State.syncFree_store _)

theorem mem_insNat (n : Nat) : ∀ l : List Nat, n ∈ insNat n l
  | [] => List.mem_singleton_self n
  | m :: r => by
    rw [insNat]
    split
    · exact List.mem_cons_self
    · split
      · subst n; exact List.mem_cons_self
      · exact List.mem_cons_of_mem m (mem_insNat n r)

end Sys2Proof.Machine

namespace Sys2Proof
open Machine Claims

/-- Settles O39: a swap by the entries that it repoints, each command by the state in which it acts. -/
theorem movesKeepOrder : Obligations.MovesKeepOrder := by
  refine ⟨fun s m k hq => ?swap, fun s src m ecc hm hw => ?moveSwap, fun s ptr => exec_prefetchStart,
    fun s k page u hk hat hw ht => ⟨_, exec_evictionStart hk hat hw ht, ?eviction⟩, fun s unit hu => ⟨exec_evacDone_more hu, fun he => ?out⟩⟩
  case swap =>
    rw [State.swap_queue hq]
    exact ⟨rfl, rfl, rfl⟩
  case moveSwap =>
    refine ⟨fun h1 h2 hy => ?_, fun h1 h2 hn => ?_, fun he hg ho => exec_moveSwap_spoilt hm hw rfl he hg ho,
      fun _ h => exec_moveSwap_gone hm hw rfl h⟩
    · rw [exec_moveSwap_read hm hw rfl h1 h2, if_pos hy]
    · rw [exec_moveSwap_read hm hw rfl h1 h2, hn]
      rfl
  case eviction =>
    obtain ⟨l, hl⟩ := (State.syncFree_store (u.pageStarted k page)).bpm
    rw [hl]
    exact ⟨rfl, rfl, rfl⟩
  case out =>
    refine ⟨_, exec_evacDone_last hu he, ?_⟩
    obtain ⟨l, hl⟩ := (State.syncStripe_store (s.unitOut unit)).bpm
    rw [State.post_bpm, hl]
    refine ⟨fun h => by simp [State.unitOut] at h, fun h => ?_, fun ch hch => ?_⟩
    · show unit ∈ if unit < 384 then insNat unit s.bpm.gone else s.bpm.gone
      rw [if_pos h]
      exact mem_insNat unit _
    · simpa using (List.mem_filter.mp hch).2

end Sys2Proof
end

section
/-! SUPPORT. Event records and MSI-X messages (R385 to R395), and the punt and inject rings (R206, R261, R362, R385 to R387). -/
namespace Sys2Proof.Machine
open Sys2Proof.Claims

/-! ### EVENT_WRITE (R389 to R393) -/

section Event
variable {s : State} {r : Nat} (hst : (s.ring r).st = .running) (hk : (s.ring r).kind = 2) (hen : s.bit HIF_CFG.enable = true)
include hst hk hen

theorem exec_eventWrite_lost (hl : s.lostOf r ≠ []) : exec (.eventWrite r) s = .next (s.writeLost r) := by
  show execEventWrite r s = _
  simp [execEventWrite, hst, hk, hen, hl]

theorem exec_eventWrite_oldest {i : Nat} {e : EvRec} (hl : s.lostOf r = []) (hi : s.hif.events.findIdx? (fun e => s.evRing e.cls == some r) = some i)
    (he : s.hif.events[i]? = some e) (hm : e.ofModule (s.clk / 1000) = false) : exec (.eventWrite r) s =
      let x := s.writeRecord r e.code e.cls e.ns e.sec e.payload e.cont
      .next (if x.1 then { x.2 with hif := { x.2.hif with events := x.2.hif.events.eraseIdx i } } else x.2) := by
  show execEventWrite r s = _
  simp [execEventWrite, hst, hk, hen, hl, hi, he, hm]

end Event

/-! ### Records (R388, R389) -/

theorem State.ring_setRing {s : State} (h : Tbl.risingFrom 0 s.hif.rings = true) (r : Nat) (g : Ring) : (s.setRing r g).ring r = g :=
  Tbl.get_set_self ({} : Ring) h r g

/-- A record write leaves every ring. -/
@[simp] theorem State.hostWrite_rings (s : State) (r a : Nat) (b : List Nat) : (s.hostWrite r a b).hif.rings = s.hif.rings := by
  unfold State.hostWrite
  split
  · obtain ⟨m, hm⟩ := s.dmaWrite_rest b a
    rw [hm]
  · rfl

theorem State.raiseRing_off {s : State} {r : Nat} (h : (s.ring r).irqEn = false) : s.raiseRing r = s := by
  simp [State.raiseRing, h]

theorem Ring.size_pos (g : Ring) : 0 < g.size := Nat.two_pow_pos g.sizeLog2

/-- A record of one slot fits before the ring's end. -/
theorem State.writeRecord_one {s : State} {r : Nat} (hroom : 1 ≤ (s.ring r).room) (code cls ns sec : Nat) (payload : List Nat) :
    s.writeRecord r code cls ns sec payload [] = (true, s.putRecord r 1 code cls ns sec payload []) := by
  have hleft : 1 ≤ (s.ring r).size - (s.ring r).tail % (s.ring r).size := by
    have := Nat.mod_lt (s.ring r).tail (s.ring r).size_pos
    omega
  simp [State.writeRecord, hleft, Nat.not_lt.mpr hroom]

/-- The host writes its 32 bytes at the tail of ring `r`. -/
def State.recordWritten (s : State) (r code cls ns sec : Nat) (payload : List Nat) : State :=
  s.hostWrite r ((s.ring r).base + 32 * ((s.ring r).tail % (s.ring r).size)) (evHead (s.ring r) (s.ring r).tail code 0 cls ns sec payload)

/-- The ring after a record of one slot: its tail moves by one, and the sequence number is used up. -/
def Ring.recorded (g : Ring) (clk : Nat) : Ring :=
  { g with tail := (g.tail + 1) % 65536, seq := (g.seq + 1) % 2 ^ 32, lastTake := clk }

/-- R389: a record of one slot, on a ring without interrupts. -/
theorem State.putRecord_one {s : State} {r : Nat} (hrings : Tbl.risingFrom 0 s.hif.rings = true) (hirq : (s.ring r).irqEn = false)
    (code cls ns sec : Nat) (payload : List Nat) : ∃ clk,
      s.putRecord r 1 code cls ns sec payload [] = (s.recordWritten r code cls ns sec payload).setRing r ((s.ring r).recorded clk) ∧
      (s.putRecord r 1 code cls ns sec payload []).ring r = (s.ring r).recorded clk := by
  have hw : (s.recordWritten r code cls ns sec payload).hif.rings = s.hif.rings := State.hostWrite_rings ..
  have hg : (s.recordWritten r code cls ns sec payload).ring r = s.ring r := by unfold State.ring; rw [hw]
  have hring := State.ring_setRing (hw ▸ hrings) r ((s.ring r).recorded (s.recordWritten r code cls ns sec payload).clk)
  have hput : s.putRecord r 1 code cls ns sec payload [] = ((s.recordWritten r code cls ns sec payload).setRing r
      (((s.recordWritten r code cls ns sec payload).ring r).recorded (s.recordWritten r code cls ns sec payload).clk)).raiseRing r := by
    simp only [State.putRecord, List.zipIdx_nil, List.foldl_nil, Nat.add_zero, Nat.sub_self]
    rw [← State.recordWritten, hg]
    rfl
  rw [hg, State.raiseRing_off (by rw [hring]; exact hirq)] at hput
  exact ⟨_, hput, by rw [hput, hring]⟩

theorem State.hostWrite_now {s : State} (hd : s.dmaOk = true) (hh : s.hif.held = []) (r a : Nat) (b : List Nat) :
    s.hostWrite r a b = s.dmaWrite a b := by simp [State.hostWrite, hd, hh]

/-- R389: a record that would cross the ring's end waits for the room of a PAD record, and then for its own. -/
theorem State.writeRecord_pads {s : State} {r code cls ns sec : Nat} {payload : List Nat} {cont : List (List Nat)}
    (hl : (s.ring r).size - (s.ring r).tail % (s.ring r).size < 1 + cont.length) :
    let left := (s.ring r).size - (s.ring r).tail % (s.ring r).size
    let u := s.putRecord r left 0 cls ns sec [] []
    s.writeRecord r code cls ns sec payload cont = if (s.ring r).room < left then (false, s)
      else if (u.ring r).room < 1 + cont.length then (false, u) else (true, u.putRecord r (1 + cont.length) code cls ns sec payload cont) :=
  if_neg (Nat.not_le.mpr hl)

/-! ### MSIX_MESSAGE (R350, R395) -/

section Msix
variable {s : State} {v : Nat} (hv : v < 512) (hx : s.hif.cfg.msix = true) (hc : (s.vec v).causes ≠ 0)
  (hgap : (s.vec v).lastMsg.all (fun t => decide (t + s.rd (HIF_VMOD.gap_us v) * 1000 ≤ s.clk)) = true)
  (hdue : (s.vec v).oldest + s.rd (HIF_VMOD.time_us v) * 1000 ≤ s.clk ∨ s.rd (HIF_VMOD.count v) ≤ (s.vec v).causes)
include hv hc hgap hdue

theorem State.msixDue_of : s.msixDue v = true := by
  unfold State.msixDue
  dsimp only
  have hd : (decide (s.rd (HIF_VMOD.count v) ≤ (s.vec v).causes) || s.elapsed (s.vec v).oldest (us (s.rd (HIF_VMOD.time_us v)))) = true := by
    rw [Bool.or_eq_true]
    exact hdue.symm.imp decide_eq_true State.elapsed_of_le
  have hc' : ((s.vec v).causes != 0) = true := bne_iff_ne.mpr hc
  rw [hd, hc', decide_eq_true hv]
  cases hm : (s.vec v).lastMsg with
  | none => rfl
  | some t =>
    rw [hm] at hgap
    simp only [State.elapsed_of_le (of_decide_eq_true hgap), us, Bool.and_self]

include hx

theorem exec_msixMessage : exec (.msixMessage v) s = .next (if s.msixMasked v then s.setVec v { s.vec v with pba := true }
    else if s.dmaOk then
      (s.hostWrite 4096 (s.msixWord (4 * v) + s.msixWord (4 * v + 1) * 2 ^ 32) (leBytes 4 (s.msixWord (4 * v + 2)))).setVec v
        { s.vec v with causes := 0, oldest := 0, lastMsg := some s.clk, pba := false }
    else s) := by
  have hclk := (hostWrite_onlyHost s 4096 (s.msixWord (4 * v) + s.msixWord (4 * v + 1) * 2 ^ 32) (leBytes 4 (s.msixWord (4 * v + 2)))).clk
  show execMsixMessage v s = _
  unfold execMsixMessage
  rw [State.msixDue_of hv hc hgap hdue, hx, if_neg (by decide)]
  cases s.msixMasked v with
  | true => rfl
  | false =>
    cases s.dmaOk with
    | true => dsimp only; rw [hclk]; rfl
    | false => rfl

end Msix

/-! ### Punt rings (R362, R385, R386) -/

theorem exec_puntBuf {s : State} {r : Nat} {t : Taken} (hm : s.mayTake (s.ring r) 3 = true) (ho : leAt (s.headDesc (s.ring r)) 0 1 ≠ 0)
    (ht : ((s.takeFrom r).ring r).taken = some t) : exec (.puntBuf r) s =
      let u := s.takeFrom r
      .next (if t.f 24 2 < 64 ∨ 16384 < t.f 24 2 then u.finRefused r dBAD_OPERAND
        else u.setRing r { u.ring r with taken := none, buffers := (u.ring r).buffers ++ [t] }) := by
  show execPuntBuf r s = _
  unfold execPuntBuf
  dsimp only
  rw [if_pos ⟨hm, ho⟩, ht]
  exact (apply_ite ..).symm

theorem exec_puntWrite {s : State} {cls r : Nat} {k : PuntPkt} {t : Taken} {rest : List Taken} (hn : s.nextPunt cls = some (r, k))
    (hb : (s.ring r).buffers = t :: rest) (hd : s.dmaOk = true) : exec (.puntWrite cls) s =
      let x := s.chain k.ptr
      let u := s.dmaWrite (t.f 16 8) (sliceB x.pkt.bytes 0 (min k.len (t.f 24 2)))
      let v : State := { u with hif := { u.hif with puntQ := u.hif.puntQ.erase k, lastPunt := Tbl.set 4096 u.hif.lastPunt cls r } }
      .next (((v.setRing r { v.ring r with buffers := rest, stuck := none }).writeCpl r t (puntResult x k.len (t.f 24 2))).release k.ptr k.gen
        0x13) := by
  show execPuntWrite cls s = _
  unfold execPuntWrite
  simp only [hn, hb, hd]
  rfl

/-! ### Inject rings (R206, R261, R387) -/

section Egress
variable {s u : State} {r : Nat} {t : Taken} (hi : s.injectNow r 0 = (some t, u))
include hi

theorem exec_injectEgress_empty (h0 : t.f 24 2 = 0) : exec (.injectEgress r) s = .next (u.finRefused r dBAD_OPERAND) := by
  show execInjectEgress r s = _
  simp only [execInjectEgress, hi, h0, if_true]

/-- The packet as the allocator gets it: numbered, with the result of its queue (R661). -/
def State.injectEgressPacket (s : State) (r : Nat) (t : Taken) : Packet :=
  { s.injectPacket r t with ord := s.eng.nextOrd, queue := t.f 28 4, fwd := injectResult (s.ring r).cls (t.f 28 4) (t.f 24 2) }

/-- What the admission of that packet leaves. -/
def State.injectAdmitted (s : State) (r : Nat) (t : Taken) : State × Admitted :=
  State.accept { s with eng := { s.eng with nextOrd := s.eng.nextOrd + 1 } } 52 (s.injectEgressPacket r t) none [{ queue := t.f 28 4 }]

/-- The reason that its descriptor gives where no chain was had (R387). -/
def State.injectReason (s : State) (t : Taken) : Nat :=
  let d := State.refusal { s with eng := { s.eng with nextOrd := s.eng.nextOrd + 1 } } (t.f 28 4) (t.f 24 2)
  if d = 0 then 4 else d

theorem exec_injectEgress {w : State} (h0 : t.f 24 2 ≠ 0) (hu : u.injectUnderWay r = false) (hx : u.xwait 52 = [])
    (hw : u.allocTurn 5 = some w) : exec (.injectEgress r) s =
      .next (if (w.injectAdmitted r t).2.ptr.isSome
        then (w.injectAdmitted r t).1.updTaken r (fun t => { t with waits := true, cursor := w.eng.nextOrd })
        else (w.injectAdmitted r t).1.finRefused r (w.injectReason t)) := by
  show execInjectEgress r s = _
  simp only [execInjectEgress, hi, if_neg h0, hu, hx, hw, List.isEmpty_nil, Bool.not_true, Bool.false_eq_true, or_self, if_false]
  exact (apply_ite ..).symm

end Egress

theorem exec_injectIngress {s u : State} {r : Nat} {t : Taken} (hi : s.injectNow r 1 = (some t, u)) : exec (.injectIngress r) s =
    let q := u.dispQ false (u.injectPacket r t).pipe
    let x := u.orderEnter (inKey (256 + r)) (u.injectPacket r t)
    .next (if t.f 24 2 = 0 then u.finRefused r dBAD_OPERAND else if 4096 ≤ q.length then u.finRefused r dDISPATCH_FULL
      else (x.2.setDispQ false x.1.pipe (q ++ [x.1])).updTaken r (fun t => { t with waits := true, cursor := x.1.ord })) := by
  show execInjectIngress r s = _
  simp only [execInjectIngress, hi]
  split
  · rfl
  · split <;> rfl

end Sys2Proof.Machine

namespace Sys2Proof
open Machine Claims

/-- Settles O34: each command by the state of its ring or vector, a record by the slots that remain before its ring's end. -/
theorem recordsAndPacketRings : Obligations.RecordsAndPacketRings := by
  refine ⟨fun s r hst hk hen => ⟨exec_eventWrite_lost hst hk hen, fun i e hl hi he hm => ?event⟩,
    fun s r code cls ns sec payload hrings hirq hroom => ?one, fun s r code cls ns sec payload cont hl => ?pads,
    fun s v hv hx hc hgap hdue => ?msix, fun s r t hm ho ht => ?puntBuf, fun s cls r k t rest hn hb hd => exec_puntWrite hn hb hd,
    fun s r t u hi => ⟨exec_injectEgress_empty hi, fun w h0 hu hx hw => ?egress⟩, fun s r t u hi => ?ingress⟩
  case event =>
    rw [exec_eventWrite_oldest hst hk hen hl hi he hm]
    exact ⟨fun hx => by dsimp only at hx ⊢; rw [if_pos hx], fun hx => by dsimp only at hx ⊢; rw [hx]; rfl⟩
  case one =>
    obtain ⟨clk, hput, hring⟩ := State.putRecord_one hrings hirq code cls ns sec payload
    refine ⟨_, State.writeRecord_one hroom code cls ns sec payload, congrArg Ring.tail hring, congrArg Ring.seq hring, fun hd hh => ?_⟩
    rw [hput, State.setRing_hostMem, State.recordWritten, State.hostWrite_now hd hh]
  case pads =>
    rw [State.writeRecord_pads hl]
    exact ⟨fun h => if_pos h, fun h => if_neg (Nat.not_lt.mpr h)⟩
  case msix =>
    have hrun := exec_msixMessage hv hx hc hgap hdue
    refine ⟨fun h => ?_, fun ha hb hd => ?_, fun ha hb hd => ?_⟩
    · rw [hrun, if_pos (by rcases h with h | h <;> simp [State.msixMasked, h])]
    · rw [hrun, if_neg (by simp [State.msixMasked, ha, hb]), hd]
      rfl
    · rw [hrun, if_neg (by simp [State.msixMasked, ha, hb]), if_pos hd]
  case puntBuf =>
    rw [exec_puntBuf hm ho ht]
    exact ⟨fun h1 h2 => by dsimp only; rw [if_neg (by omega)], fun h => by dsimp only; rw [if_pos h]⟩
  case egress =>
    rw [exec_injectEgress hi h0 hu hx hw]
    refine ⟨fun h => congrArg _ (if_pos h), fun h => ⟨_, congrArg _ (if_neg ?_)⟩⟩
    rw [show (w.injectAdmitted r t).2.ptr = none from h]
    decide
  case ingress =>
    rw [exec_injectIngress hi]
    refine ⟨fun h0 => ?_, fun h0 hq => ?_, fun h0 hq => ?_⟩
    · dsimp only; rw [if_pos h0]
    · dsimp only; rw [if_neg h0, if_pos hq]
    · dsimp only; rw [if_neg h0, if_neg (Nat.not_le.mpr hq)]

end Sys2Proof
end

section
/-! SUPPORT. A write over BAR0 that acts on a unit of the Top Die (R12, R651). -/
namespace Sys2Proof.Machine
open Sys2Proof.Claims

/-- A write of a register of the Top Die with an effect: its bits written as 1 clear first (to `u`), then the effect takes place. -/
theorem State.poke_open {s u t : State} {a v : Nat} {fs : List FldAcc} (ho : Open s) (ha : accessOk a 4 = true) (hf : isFdAddr a = false)
    (hm : isMsix a = false) (hne : a ≠ 0x10050) (hr : regAt a = .word fs) (hv : v < 2 ^ 32) (hc : s.clearOnes .bar0 v fs = u)
    (hk : u.hook .bar0 a (2 ^ 32 - 1) v v = some t) : s.poke a v = t := by
  obtain ⟨⟨hrec, hready, hseal⟩, hcmd⟩ := ho
  have hv' : v % 2 ^ 32 = v := Nat.mod_eq_of_lt hv
  unfold State.poke
  rw [hv', State.bar0Write_open v hrec hready hseal ha (isReserved_of_word ha hr) hf]
  exact State.regWrite_hook (u := u) hcmd hm hne hr (by rw [hv', hv', hc]) (by rw [hv', hv']; exact hk)

end Sys2Proof.Machine
end

section
/-! SUPPORT. Admission and the allocator's turns (R213 to R217, R232, R249, R254, R259, R260), the buffer's switches (R208, R210, R241), and
flow control frames (R294, R297, R298). -/
namespace Sys2Proof.Machine
open Sys2Proof.Claims

/-! ### PACKET_ADMIT -/

/-- R249, R250: the oldest packet of a pipe's bridge stream whose writer is free. -/
theorem exec_packetAdmit_bridge {s turn : State} {w : Nat} {k : Packet} (hw : w < 4)
    (hk : s.dies.ft.arrived.find? (fun k => k.pipe == w) = some k) (hx : s.xwait w = []) (ht : s.allocTurn w = some turn) :
    exec (.packetAdmit w) s =
      let u := turn.setDir true { s.dies.ft with arrived := s.dies.ft.arrived.erase k }
      let x := u.mirrors k.fwd k.bytes.length
      .next (x.1.accept w k (if leAt k.fwd 7 1 < 128 then some (8 * leAt k.fwd 7 1 + leAt k.fwd 1 1 % 8) else none)
        (x.1.bridgeDest k.fwd :: x.2)).1 := by
  show execPacketAdmit w s = _
  unfold execPacketAdmit
  rw [if_pos hw, hk, ht]
  simp only [hx, List.isEmpty_nil, Bool.not_true, Bool.false_eq_true, if_false]

/-- The state in which the oldest record of link `l` has left its link, which has the records `rest` (R250). -/
def State.recordTaken (s turn : State) (l : Nat) (rest : List (Option Nat × Packet)) : State :=
  { turn with flk := { s.flk with recs := Tbl.set [] s.flk.recs l rest, recOrd := s.flk.recOrd.tail } }

/-- The queues of a record: that of its result, or those of its group (R250, R254). -/
def State.recordDests (s : State) (g : Option Nat) (k : Packet) : List Dest :=
  match g with
  | none => [{ queue := fwdQueue k.fwd }]
  | some n => s.replicas n

theorem exec_packetAdmit_link {s turn : State} {l : Nat} {g : Option Nat} {k : Packet} {rest : List (Option Nat × Packet)} (hl : l < 48)
    (hk : Tbl.get [] s.flk.recs l = (g, k) :: rest) (hfirst : s.flk.recOrd.head? = some l) (ht : s.allocTurn 4 = some turn) :
    exec (.packetAdmit (4 + l)) s =
      let u := s.recordTaken turn l rest
      let x := u.mirrors k.fwd k.bytes.length
      .next (if (u.recordDests g k).isEmpty then u.inc QM_MCEMPTY.count
        else (x.1.accept (4 + l) k none (u.recordDests g k ++ x.2)).1) := by
  have h4 : ¬ 4 + l < 4 := by omega
  have h52 : 4 + l < 52 := by omega
  have hsub : 4 + l - 4 = l := Nat.add_sub_cancel_left 4 l
  show execPacketAdmit (4 + l) s = _
  unfold execPacketAdmit
  simp only [if_neg h4, if_pos h52, hsub, hk, ht, hfirst, ne_eq, not_true, if_false]
  exact (apply_ite ..).symm

/-! ### The allocator's turns (R217) -/

theorem State.allocTurn_first {s : State} {r : Nat} (hat : s.bpm.allocAt ≠ s.clk)
    (hw : ∀ x, x < 6 → x ≠ r → s.allocWaits x = false) :
    s.allocTurn r = some { s with bpm := { s.bpm with allocAt := s.clk, allocPos := (r + 6 - s.clk % 6) % 6, allocN := 1 } } := by
  have hahead : (List.range 6).any (fun x => decide (0 ≤ (x + 6 - s.clk % 6) % 6 ∧ (x + 6 - s.clk % 6) % 6 < (r + 6 - s.clk % 6) % 6) &&
      s.allocWaits x && !((x + 6 - s.clk % 6) % 6 == 0 && decide (16 ≤ 0))) = false := by
    refine List.any_eq_false.mpr fun x hx => ?_
    by_cases hxr : x = r
    · simp [hxr]
    · simp [hw x (List.mem_range.mp hx) hxr]
  unfold State.allocTurn
  simp only [if_neg hat, hahead]
  simp

theorem State.allocTurn_over {s : State} {r : Nat} (hat : s.bpm.allocAt = s.clk) (hpos : s.bpm.allocPos = (r + 6 - s.clk % 6) % 6)
    (hn : 16 ≤ s.bpm.allocN) : s.allocTurn r = none := by
  unfold State.allocTurn
  simp only [if_pos hat, ← hpos]
  exact if_pos (.inr (.inl ⟨trivial, hn⟩))

/-! ### Offers (R213 to R217, R232, R259) -/

section Offer
variable {s : State} {w : Nat} {k : Packet} {pfc : Option Nat} {a : Admitted} {d : Dest} (hd : a.dead = false)
include hd

theorem offer_refused (hr : s.refusal d.queue k.bytes.length ≠ 0) :
    State.offer w k pfc (s, a) d = (s.dropCopy d (s.refusal d.queue k.bytes.length) k.bytes.length, a) := by
  simp [State.offer, hd, hr]

variable (hr : s.refusal d.queue k.bytes.length = 0)
include hr

theorem offer_noReference {ptr r : Nat} (hp : a.ptr = some ptr) (ht : s.takeRef ptr = .inl r) :
    State.offer w k pfc (s, a) d = (s.dropCopy d r k.bytes.length, a) := by
  simp [State.offer, hd, hr, hp, ht]

theorem offer_reference {ptr : Nat} {u : State} (hp : a.ptr = some ptr) (ht : s.takeRef ptr = .inr u) :
    State.offer w k pfc (s, a) d = (u, { a with dests := a.dests ++ [d] }) := by
  simp [State.offer, hd, hr, hp, ht]

variable (hp : a.ptr = none) (hs : d.session = none)
include hp hs

theorem offer_full (hc : s.chainArea w d.queue (cellsOf k.bytes.length) = none) :
    State.offer w k pfc (s, a) d = (s.dropCopy d 4 k.bytes.length, a) := by
  simp [State.offer, hd, hr, hp, hs, hc]

theorem offer_chain {area : Nat} (hc : s.chainArea w d.queue (cellsOf k.bytes.length) = some area) :
    State.offer w k pfc (s, a) d = (if 0 < s.overflow w area (cellsOf k.bytes.length)
      then ((s.addSat (FLK_HOLDOVF.count (w - 4)) (s.overflow w area (cellsOf k.bytes.length))).inc (FLK_REASMDROP.count (w - 4)),
        { a with dead := true })
      else ((s.newChain w area k pfc).2, { ptr := some (s.newChain w area k pfc).1, dests := [d] })) := by
  simp [State.offer, hd, hr, hp, hs, hc]

end Offer

/-! ### CHAIN_LINK and BUFFER_AUDIT -/

theorem exec_chainLink {s : State} {w : Nat} {j : Job} {rest : List Job} (hj : Tbl.get [] s.bpm.jobs w = j :: rest)
    (hw : s.writing j.ptr = false) : exec (.chainLink w) s =
      let x := s.chain j.ptr
      let u : State := { s with bpm := { s.bpm with jobs := Tbl.set [] s.bpm.jobs w rest } }
      let v := u.setChain j.ptr { x with owner := if x.owner = ownerShared then ownerShared else 0x10, enq := u.enqTime, at_ := s.clk }
      .next ((j.dests.foldl (fun s d => s.enqueue j.ptr d) v).settle.injected x.pkt) := by
  show execChainLink w s = _
  unfold execChainLink
  rw [hj]
  simp only [hw, Bool.false_eq_true, if_false]
  rfl

theorem exec_bufferAudit {s : State} (hl : s.bpm.lost ≠ []) : exec .bufferAudit s =
    let keys := s.bpm.lost.filter (fun k => !s.bpm.weak.contains k)
    let u : State := { s with bpm := { s.bpm with lost := [], used := keys.foldl (fun t k => Tbl.erase t k) s.bpm.used,
                                                  released := s.heldBack ++ keys, releasedAt := s.clk } }
    .next (((u.addSat BPM_RECLAIM.count s.bpm.lost.length).syncFree).postTwo 0x0504 0 s.bpm.lost.length) := by
  show execBufferAudit s = _
  unfold execBufferAudit
  split
  · exact absurd ‹_› hl
  · rfl

/-! ### Counter storage beside the buffer (R618): what it leaves of the buffer -/

theorem not_bufferCfg_above {k : Nat} (h : 0x180040 * 64 ≤ k) : k ∉ bufferCfg := by
  simp only [bufferCfg, Fld.key, BPM_CFG.enable, BPM_CFG.deep_mcells, BPM_RSVCFG.enable, List.mem_cons, List.not_mem_nil, or_false]
  omega

theorem not_bufferCfg_below {k : Nat} (h : k < 0x180000 * 64) : k ∉ bufferCfg := by
  simp only [bufferCfg, Fld.key, BPM_CFG.enable, BPM_CFG.deep_mcells, BPM_RSVCFG.enable, List.mem_cons, List.not_mem_nil, or_false]
  omega

theorem segHome_not_cfg (k : Nat) : (TEL_SEGMAP.home k).key ∉ bufferCfg :=
  not_bufferCfg_above (by simp only [Fld.key, TEL_SEGMAP.home]; omega)

theorem segState_not_cfg (k : Nat) : (TEL_SEGMAP.state k).key ∉ bufferCfg :=
  not_bufferCfg_above (by simp only [Fld.key, TEL_SEGMAP.state]; omega)

namespace SameStore

theorem withTel {s t : State} (h : SameStore s t) (x : Tel) : SameStore s { t with tel := x } := ⟨h.bpm, h.qm, h.cfg⟩

theorem syncSeg {s t : State} (h : SameStore s t) : SameStore s t.syncSeg :=
  (h.wr (f := TEL_HBMSEG.avail) (by decide) _).wr (f := TEL_HBMSEG.used) (by decide) _

theorem syncAreas {s t : State} (h : SameStore s t) : SameStore s t.syncAreas := by
  refine List.foldlRecOn (List.range 3) _ h fun u hu a ha => ?_
  have ha3 : a < 3 := List.mem_range.mp ha
  refine .wr (.wr (.wr (.wr hu ?_ _) ?_ _) ?_ _) ?_ _ <;> refine not_bufferCfg_below ?_ <;>
    simp only [Fld.key, UPD_AREASTAT.state, UPD_AREASTAT.confirmed, UPD_AREASTAT.trial, UPD_AREAVER.version] <;> omega

theorem putRec {s t : State} (h : SameStore s t) (f : Record → Record) : SameStore s (t.putRec f) :=
  syncAreas (t := { t with upd := _ }) ⟨h.bpm, h.qm, h.cfg⟩

theorem wrKept {s t : State} (h : SameStore s t) {f : Fld} (hf : f.key ∉ bufferCfg) (v : Nat) : SameStore s (t.wrKept f v) :=
  .ite (h.wr hf v) ((h.wr hf v).putRec _)

theorem loseSeg {s t : State} (h : SameStore s t) (k : Nat) : SameStore s (t.loseSeg k) :=
  .post (.syncSeg (.wr (.wrKept (.wr (.withTel (t := t.cntClearSeg k) (.withTel h _) _) (segHome_not_cfg k) 0) (segHome_not_cfg k) _)
    (segState_not_cfg k) 2)) (by decide) _

end SameStore

/-- R618: counter storage that gives way to the buffer's cells changes nothing of the buffer. -/
theorem State.trimHbm_store {s : State} : ∀ (n : Nat) {t : State}, SameStore s t → SameStore s (State.trimHbm n t)
  | 0, _, h => h.syncSeg
  | n + 1, t, h => by
    have hf : SameStore s t.fresh.2 := ⟨h.bpm, h.qm, h.cfg⟩
    unfold State.trimHbm
    split
    · exact h.syncSeg
    · dsimp only
      split
      · exact hf
      · exact trimHbm_store n (hf.loseSeg _)

/-! ### The switches (R208, R210) -/

/-- The buffer started with `m` megacells in each pseudo-channel, before its free counts are loaded (R208). -/
def State.bufferStarted (s : State) (m : Nat) : State :=
  let u := (s.wr BPM_CFG.deep_mcells m).wr BPM_CFG.enable 1
  { u with bpm := { u.bpm with started := true, prefetch := u.rd BPM_SHALCFG.prefetch_cells, deepM := u.rd BPM_CFG.deep_mcells } }

theorem State.bufferStarted_rd {s : State} (hs : s.regsOk = true) {m : Nat} (hm : m < 2 ^ 8) :
    (s.bufferStarted m).rd BPM_CFG.enable = 1 ∧ (s.bufferStarted m).rd BPM_CFG.deep_mcells = m := by
  constructor
  · exact State.rd_wr_self (s.wr_regsOk hs BPM_CFG.deep_mcells m) BPM_CFG.enable 1
  · exact (State.rd_wr_ne _ (f := BPM_CFG.enable) (g := BPM_CFG.deep_mcells) 1 (by decide)).trans
      ((s.rd_wr_self hs BPM_CFG.deep_mcells m).trans (Nat.mod_eq_of_lt hm))

/-- The state once the free counts are loaded and counter storage has made room. -/
theorem State.writeBpmCfg_start {s : State} {m : Nat} (he : s.rd BPM_CFG.enable = 0) (hm : 64 ≤ m ∧ m ≤ 188) :
    SameStore (s.bufferStarted m) (s.writeBpmCfg true m) := by
  unfold State.writeBpmCfg
  simp only [State.bit, he, bne_self_eq_false, Bool.false_and, Bool.false_eq_true, if_false, if_pos hm, Bool.not_false, Bool.true_and, if_true]
  exact State.trimHbm_store 64 (.trans (.wr (.wr (.wr (.wr (.refl (s.bufferStarted m)) (by decide) _) (by decide) _) (by decide) _) (by decide) _)
    (State.syncFree_store _))

theorem State.writeBpmCfg_again {s : State} {m : Nat} (he : s.rd BPM_CFG.enable = 1) : s.writeBpmCfg true m = s.wr BPM_CFG.enable 1 := by
  simp [State.writeBpmCfg, State.bit, State.wrBit, he, b2n]

theorem exec_bufferEnableWrite {s : State} (ho : Open s) {v : Nat} (hv : v < 2 ^ 32) :
    exec (.bufferEnableWrite v) s = .next (s.writeBpmCfg (bitOf v 31) (bitsAt v 0 8)) :=
  congrArg Host.Outcome.next (State.poke_open ho (by decide) (by decide) (by decide) (by decide) rfl hv rfl rfl)

theorem exec_reserveEnableWrite {s : State} (ho : Open s) {v : Nat} (hv : v < 2 ^ 32) :
    exec (.reserveEnableWrite v) s = .next (s.writeRsvCfg (bitOf v 31) (bitsAt v 0 12)) :=
  congrArg Host.Outcome.next (State.poke_open ho (by decide) (by decide) (by decide) (by decide) rfl hv rfl rfl)

/-- The RESERVE channels of the Top Die. -/
def State.reserveChans (s : State) : List Nat := [4, 5, 6, 7].filter (fun ch => s.rd (MCD_CFG.role ch) == 2)

theorem State.writeRsvCfg_refused {s : State} (he : s.rd BPM_RSVCFG.enable = 0) (hc : s.reserveChans = []) :
    s.writeRsvCfg true 0 = s.wr BPM_STAT.rsv_refused 1 := by
  unfold State.reserveChans at hc
  simp [State.writeRsvCfg, State.bit, he, hc]

theorem State.writeRsvCfg_stripe {s : State} (he : s.rd BPM_RSVCFG.enable = 0) (hc : s.reserveChans ≠ []) :
    s.writeRsvCfg true 0 =
      ({ s.wr BPM_RSVCFG.enable 1 with bpm := { s.bpm with stripe := s.reserveChans } } : State).syncStripe := by
  unfold State.reserveChans at hc ⊢
  unfold State.writeRsvCfg
  simp only [State.bit, he, List.isEmpty_iff, hc]
  rfl

/-! ### Flow control frames (R294, R297, R298) -/

section Frames
variable {s : State} {p : Nat} (hp : p < 128) (hs : 2 ≤ s.portState p)
include hp hs

theorem exec_pfcFrameReceive (v : Nat) (times : List Nat) : exec (.pfcFrameReceive p v times) s = .next (s.pfcFrame p v times) := if_pos ⟨hp, hs⟩

theorem exec_pauseFrameReceive (time : Nat) : exec (.pauseFrameReceive p time) s = .next (s.pauseFrame p time) := if_pos ⟨hp, hs⟩

end Frames

/-- The count of the frame leaves what rx_pause says. -/
theorem inc_rxPause (s : State) (p : Nat) : (s.inc (QM_PFCRXCNT.count p)).bit (QM_PFCCFG.rx_pause p) = (s.rd (QM_PFCCFG.rx_pause p) != 0) :=
  congrArg (· != 0) (s.rd_wr_ne _ (by simp only [Fld.key, QM_PFCRXCNT.count, QM_PFCCFG.rx_pause]; omega))

end Sys2Proof.Machine

namespace Sys2Proof
open Machine Claims

/-- Settles O36: each command and each offer by the state in which it acts; an enabled buffer by what its free counts leave as it is. -/
theorem bufferAndFlowControl : Obligations.BufferAndFlowControl := by
  refine ⟨fun s w k turn => exec_packetAdmit_bridge, fun s l g k rest turn hl hk ho ht => ?link,
    fun s r _ => ⟨State.allocTurn_first, State.allocTurn_over⟩,
    fun s w k pfc a d hd => ⟨offer_refused hd, fun ptr hr hp => ⟨fun r => offer_noReference hd hr hp, fun u => offer_reference hd hr hp⟩,
      fun hr hp hs => ?chain⟩,
    fun s w j rest => exec_chainLink, fun s m ho hs hlo hhi => ?enable, fun s ho he hc => ?refused, fun s ho hs he hc => ?stripe,
    fun s => exec_bufferAudit, fun s p v times hp hs => ⟨exec_pfcFrameReceive hp hs v times, fun time h0 => ?ignored, fun time h1 => ?paused⟩,
    fun s p c hp hc hb ht => if_pos ⟨hp, hc, hb, ht⟩, fun s p c t hp hc hl hs hx ht => ?again⟩
  case link =>
    have h := exec_packetAdmit_link hl hk ho ht
    refine ⟨fun hg => ?_, fun n hg hne => ?_, fun n hg he => ?_⟩ <;> subst hg
    · exact h
    · exact h.trans (congrArg Host.Outcome.next (if_neg fun h => hne (List.isEmpty_iff.mp h)))
    · exact h.trans (congrArg Host.Outcome.next (if_pos (List.isEmpty_iff.mpr he)))
  case chain =>
    refine ⟨offer_full hd hr hp hs, fun area hc hz => ?_, fun area m hc hm => ?_⟩
    · rw [offer_chain hd hr hp hs hc, if_neg (by omega)]
    · rw [offer_chain hd hr hp hs hc, if_pos (by omega), hm]
  case enable =>
    have h31 : bitOf (2 ^ 31 + m) 31 = true := beq_iff_eq.mpr (by omega)
    have h8 : bitsAt (2 ^ 31 + m) 0 8 = m := by simp only [bitsAt]; omega
    rw [exec_bufferEnableWrite ho (by omega), h31, h8]
    refine ⟨fun he => ⟨_, rfl, ?_⟩, fun he => congrArg Host.Outcome.next (State.writeBpmCfg_again he)⟩
    have hstore := State.writeBpmCfg_start he ⟨hlo, hhi⟩
    obtain ⟨hon, hdeep⟩ := State.bufferStarted_rd hs (m := m) (by omega)
    obtain ⟨l, hl⟩ := hstore.bpm
    rw [hstore.cfg BPM_CFG.enable (by decide), hstore.cfg BPM_CFG.deep_mcells (by decide), hl]
    exact ⟨hon, hdeep, hdeep, rfl⟩
  case refused =>
    have hnone : s.reserveChans = [] := List.filter_eq_nil_iff.mpr fun ch hch => by
      simp only [List.mem_cons, List.not_mem_nil, or_false] at hch
      simpa using hc ch (by omega) (by omega)
    exact (exec_reserveEnableWrite ho (by decide)).trans (congrArg Host.Outcome.next (State.writeRsvCfg_refused he hnone))
  case stripe =>
    obtain ⟨ch, h4, h8, hrole⟩ := hc
    have hne : s.reserveChans ≠ [] := List.ne_nil_of_mem (a := ch) (List.mem_filter.mpr ⟨by simp; omega, by simp [hrole]⟩)
    refine ⟨_, exec_reserveEnableWrite ho (by decide), ?_⟩
    have hw : s.writeRsvCfg (bitOf (2 ^ 31) 31) (bitsAt (2 ^ 31) 0 12) = _ := State.writeRsvCfg_stripe he hne
    rw [hw]
    have hstore := State.syncStripe_store { s.wr BPM_RSVCFG.enable 1 with bpm := { s.bpm with stripe := s.reserveChans } }
    obtain ⟨l, hl⟩ := hstore.bpm
    rw [hstore.cfg BPM_RSVCFG.enable (by decide), hl]
    exact ⟨s.rd_wr_self hs BPM_RSVCFG.enable 1, rfl⟩
  case ignored =>
    rw [exec_pauseFrameReceive hp hs, State.pauseFrame]
    simp [inc_rxPause, h0]
  case paused =>
    rw [exec_pauseFrameReceive hp hs, State.pauseFrame]
    simp [inc_rxPause, h1]
  case again =>
    show execPfcRepeat p c s = _
    unfold execPfcRepeat
    simp only [hl, Nat.add_sub_cancel]
    exact if_pos ⟨hp, hc, Nat.succ_ne_zero t, hs, hx, State.elapsed_of_le ht⟩

end Sys2Proof
end

section
/-! SUPPORT. The fabric scheduler, buckets and links, devices and ports that are lost, and the indirect entries (R244, R254, R283 to R292, R300,
R305). -/
namespace Sys2Proof.Machine
open Sys2Proof.Claims

/-! ### FABRIC_SCHEDULE (R270, R285) -/

/-- The head packet of VOQ `v`, which has paid for it, read and placed in the queue `q` of link `l`, or dropped. -/
def State.placeServed (a : State) (v : Nat) (e : QEnt) (l : Nat) (q : List TxCell) (ecc : Nat) : Out :=
  let live := a.handleOk e.ptr e.gen
  let bad := a.readError e.ptr ecc
  let u := a.dequeue (voqKey v) (if !live ∨ bad.isSome then 0x10 else 0x11)
  if !live then .next (u.releaseQueued e)
  else match bad with
    | some (r, lost) => .next ((u.readMark ecc).dropRead (voqKey v) e r lost)
    | none =>
      let x := ((u.readMark ecc).ownBy e.ptr 0x11).setTxq l q
      .next (match e.session with
        | some n => x.countCopy n true e.len
        | none => x)

theorem exec_fabricSchedule {s : State} {v : Nat} {e : QEnt} {rest : List QEnt} {k l : Nat} {q : List TxCell} (hv : s.nextVoq = some v)
    (hb : s.bridgeUp = true) (he : (s.queue (voqKey v)).ents = e :: rest) (hp : s.placeHead v = some (k, l, q)) (ecc : Nat) :
    exec (.fabricSchedule ecc) s = (servedVoq s v e).placeServed v e l q ecc := by
  show execFabricSchedule ecc s = _
  unfold execFabricSchedule servedVoq
  by_cases hk : s.destKind (v / 8) = 1
  · have huc : (s.destKind (v / 8) == 1) = true := beq_iff_eq.mpr hk
    rw [hv, if_pos hk]
    simp only [hb, he, hp, huc, Bool.not_true, Bool.false_eq_true, if_false, if_true]
    rfl
  · have huc : (s.destKind (v / 8) == 1) = false := beq_false_of_ne hk
    rw [hv, if_neg hk]
    simp only [hb, he, hp, huc, Bool.not_true, Bool.false_eq_true, if_false]
    rfl

/-- The VOQ's payment changes nothing of the packet's chain, nor what its read meets. -/
theorem servedVoq_bpm (s : State) (v : Nat) (e : QEnt) : (servedVoq s v e).bpm = s.bpm := by
  unfold servedVoq; split <;> rfl

theorem State.handleOk_congr {s t : State} (h : t.bpm = s.bpm) (ptr gen : Nat) : t.handleOk ptr gen = s.handleOk ptr gen := by
  unfold State.handleOk State.chain; rw [h]

theorem State.readError_congr {s t : State} (h : t.bpm = s.bpm) (ptr ecc : Nat) : t.readError ptr ecc = s.readError ptr ecc := by
  unfold State.readError State.chain; rw [h]

section Placed
variable {s a : State} (h : a.bpm = s.bpm) {v : Nat} {e : QEnt} {l : Nat} {q : List TxCell} {ecc : Nat}
include h

theorem State.placeServed_gone (hk : s.handleOk e.ptr e.gen = false) :
    a.placeServed v e l q ecc = .next ((a.dequeue (voqKey v) 0x10).releaseQueued e) := by
  simp [State.placeServed, State.handleOk_congr h, hk]

variable (hk : s.handleOk e.ptr e.gen = true)
include hk

theorem State.placeServed_failed {r : Nat} {lost : Bool} (hr : s.readError e.ptr ecc = some (r, lost)) :
    a.placeServed v e l q ecc = .next (((a.dequeue (voqKey v) 0x10).readMark ecc).dropRead (voqKey v) e r lost) := by
  simp [State.placeServed, State.handleOk_congr h, hk, State.readError_congr h, hr]

theorem State.placeServed_sent (hr : s.readError e.ptr ecc = none) : a.placeServed v e l q ecc =
    let u := (((a.dequeue (voqKey v) 0x11).readMark ecc).ownBy e.ptr 0x11).setTxq l q
    .next (match e.session with
      | some n => u.countCopy n true e.len
      | none => u) := by
  simp only [State.placeServed, State.handleOk_congr h, hk, State.readError_congr h, hr]
  rfl

end Placed

/-! ### The VOQ served next (R285) -/

theorem firstFrom_mem {p k : Nat} {l : List Nat} (h : firstFrom p l = some k) : k ∈ l := by
  unfold firstFrom at h
  split at h
  · rename_i hl
    have hk := List.mem_filter.mp (hl ▸ List.mem_cons_self)
    exact Option.some.inj h ▸ hk.1
  · exact List.mem_of_mem_head? h

theorem firstFrom_none {p : Nat} {l : List Nat} (h : firstFrom p l = none) : l = [] := by
  unfold firstFrom at h
  split at h
  · cases h
  · exact List.head?_eq_none_iff.mp h

/-- A key at which a table does not read its default is listed. -/
theorem Tbl.mem_of_get_ne {α : Type} {d : α} {k : Nat} : ∀ {t : Tbl α}, Tbl.get d t k ≠ d → (k, Tbl.get d t k) ∈ t
  | [], h => absurd rfl h
  | (k', v) :: r, h => by
    rw [Tbl.get] at h ⊢
    split at h
    · next hk => rw [if_pos hk, ← hk]; exact List.mem_cons_self
    · next hk => rw [if_neg hk]; exact List.mem_cons_of_mem _ (mem_of_get_ne h)

/-- The VOQs that can send. -/
def State.sendable (s : State) : List Nat :=
  ((Tbl.keysWhere (fun k (q : Queue) => decide (2 ^ 20 ≤ k) && !q.ents.isEmpty) s.qm.queues).map (· - 2 ^ 20)).filter s.canSend

theorem State.mem_sendable {s : State} {w : Nat} (hc : s.canSend w = true) (hq : (s.queue (voqKey w)).ents ≠ []) : w ∈ s.sendable := by
  have hne : Tbl.get {} s.qm.queues (voqKey w) ≠ {} := fun h => hq (congrArg Queue.ents h)
  refine List.mem_filter.mpr ⟨List.mem_map.mpr ⟨voqKey w, List.mem_map.mpr ⟨_, List.mem_filter.mpr ⟨Tbl.mem_of_get_ne hne, ?_⟩, rfl⟩, ?_⟩, hc⟩
  · simpa [voqKey, State.queue] using hq
  · exact Nat.add_sub_cancel_left ..

/-- The VOQ of a class whose turn it is. -/
def State.turnOf (s : State) (c : Nat) : Option Nat := firstFrom (Tbl.get 0 s.qm.voqLast c) (s.sendable.filter (fun v => v % 8 == c))

theorem State.nextVoq_findSome (s : State) : s.nextVoq = [7, 6, 5, 4, 3, 2, 1, 0].findSome? s.turnOf := List.head?_filterMap ..

/-- The VOQ served next can send, and no VOQ of a higher class can. -/
theorem State.nextVoq_some {s : State} {v : Nat} (h : s.nextVoq = some v) : v ∈ s.sendable ∧ ∀ w ∈ s.sendable, w % 8 ≤ v % 8 := by
  obtain ⟨high, c, low, hl, hc, hhigh⟩ := List.findSome?_eq_some_iff.mp (s.nextVoq_findSome ▸ h)
  obtain ⟨hv, hcls⟩ := List.mem_filter.mp (firstFrom_mem hc)
  refine ⟨hv, fun w hw => ?_⟩
  have hsorted : ([7, 6, 5, 4, 3, 2, 1, 0] : List Nat).Pairwise (fun x y => y ≤ x) := by decide
  have hmem : w % 8 ∈ [7, 6, 5, 4, 3, 2, 1, 0] := by simp only [List.mem_cons, List.not_mem_nil, or_false]; omega
  rw [hl] at hsorted hmem
  rw [beq_iff_eq.mp hcls]
  rcases List.mem_append.mp hmem with hin | hin
  · have hnone := firstFrom_none (hhigh _ hin)
    exact absurd (beq_self_eq_true _) (List.filter_eq_nil_iff.mp hnone w hw)
  · rcases List.mem_cons.mp hin with heq | hlow
    · exact heq.le
    · exact (List.pairwise_cons.mp (List.pairwise_append.mp hsorted).2.1).1 _ hlow

/-! ### Buckets (R286) -/

theorem exec_bucketTxqEmpty {s : State} {dev b l : Nat} (hb : b < 64) (hp : (s.bucket (64 * dev + b)).phase = .draining)
    (hl : (s.bucket (64 * dev + b)).link = some l) (hq : (pktsOf (s.txq l)).any (fun x => x.bucket == 64 * dev + b) = false) :
    exec (.bucketTxqEmpty dev b) s = .next (s.setBucket (64 * dev + b) { s.bucket (64 * dev + b) with phase := .delay, at_ := s.clk }) := by
  show execBucketTxqEmpty dev b s = _
  simp [execBucketTxqEmpty, State.tryDelay, hb, hp, hl, hq]

/-- The bucket names its new link, and is held while it has none. -/
def State.bucketNamed (s : State) (k : Nat) (new : Option Nat) : State := (s.setBucket k { link := new, held := new.isNone }).syncBuckets

theorem exec_fabricDelayExpire {s : State} {dev b : Nat} (hb : b < 64) (hp : (s.bucket (64 * dev + b)).phase = .delay)
    (ht : Past s (s.bucket (64 * dev + b)).at_ (s.rd QM_LBCFG.fabric_delay_us * 1000)) :
    exec (.fabricDelayExpire dev b) s =
      let x := s.bucket (64 * dev + b)
      let u := s.bucketNamed (64 * dev + b) (newLink s dev x)
      let v := if (newLink s dev x).isSome then u.inc QM_BUCKETMOVE.count else u
      .next (match x.link with
        | some m => (v.tryOut m).tryRetire m
        | none => v).rebalance :=
  if_pos ⟨hb, hp, State.elapsed_of_le ht⟩

/-! ### Links that leave and return (R288, R290) -/

/-- The address of QM_LINKCTL of link `l`. -/
def linkCtlAddr (l : Nat) : Nat := 0x1C0200 + 4 * l

section LinkCtl
variable {l : Nat} (hl : l < 48)
include hl

theorem regAt_linkCtl : regAt (linkCtlAddr l) = .word [⟨QM_LINKCTL.restore l, .w1s, []⟩, ⟨QM_LINKCTL.drain l, .w1s, []⟩] := by
  have hoff : linkCtlAddr l - 0x1C0000 = 0x200 + 4 * l := by unfold linkCtlAddr; omega
  have hlink : (0x200 + 4 * l - 0x200) / 4 = l := by omega
  have hlo : 0x1C0200 ≤ linkCtlAddr l := Nat.le_add_right ..
  have hhi : linkCtlAddr l < 0x1C02C0 := by unfold linkCtlAddr; omega
  simp (disch := omega) only [regAt, regsQM, if_neg, if_pos, hoff, hlink]

theorem hook_linkCtl (s : State) (p : Path) (mask w x : Nat) :
    s.hook p (linkCtlAddr l) mask w x = some (s.writeLinkCtl l (bitOf x 0) (bitOf x 1)) := by
  have hlo : 0x1C0200 ≤ linkCtlAddr l := Nat.le_add_right ..
  have hhi : linkCtlAddr l < 0x1C02C0 := by unfold linkCtlAddr; omega
  have hlink : (linkCtlAddr l - 0x1C0200) / 4 = l := by unfold linkCtlAddr; omega
  simp (disch := omega) only [State.hook, State.hookQueues, if_neg, if_pos, hlink]

theorem State.poke_linkCtl {s : State} (ho : Open s) {v : Nat} (hv : v < 2 ^ 32) :
    s.poke (linkCtlAddr l) v = s.writeLinkCtl l (bitOf v 0) (bitOf v 1) := by
  have hlo : 0x1C0200 ≤ linkCtlAddr l := Nat.le_add_right ..
  have hhi : linkCtlAddr l < 0x1C02C0 := by unfold linkCtlAddr; omega
  have hfd : isFdAddr (linkCtlAddr l) = false := by
    simp only [isFdAddr, Bool.or_eq_false_iff, Bool.and_eq_false_iff, decide_eq_false_iff_not]; omega
  have hmsix : isMsix (linkCtlAddr l) = false := by
    simp only [isMsix, Bool.and_eq_false_iff, decide_eq_false_iff_not]; omega
  exact State.poke_open ho (accessOk_four (by omega) (by unfold linkCtlAddr; omega)) hfd hmsix (by omega) (regAt_linkCtl hl) hv rfl
    (hook_linkCtl hl ..)

theorem exec_linkDrain {s : State} (ho : Open s) : exec (.linkDrain l) s = .next (s.writeLinkCtl l true false) :=
  congrArg Host.Outcome.next ((if_pos hl).trans (State.poke_linkCtl hl ho (v := 1) (by decide)))

theorem exec_linkRestore {s : State} (ho : Open s) : exec (.linkRestore l) s = .next (s.writeLinkCtl l false true) :=
  congrArg Host.Outcome.next ((if_pos hl).trans (State.poke_linkCtl hl ho (v := 2) (by decide)))

end LinkCtl

/-! ### QM_TCMD (R305) -/

/-- A write that gives a field no 1, in which each 1 would clear a bit, leaves the field as it is. -/
theorem State.wr_clearNone (s : State) (f : Fld) : s.wr f (Nat.land (s.rd f) (Nat.xor (2 ^ f.width - 1) 0)) = untouched f s := by
  have hbits : Nat.land (s.rd f) (Nat.xor (2 ^ f.width - 1) 0) % 2 ^ f.width = s.rd f % 2 ^ f.width := by
    show (s.rd f &&& (2 ^ f.width - 1 ^^^ 0)) % 2 ^ f.width = _
    rw [Nat.xor_zero, Nat.and_two_pow_sub_one_eq_mod, Nat.mod_mod]
  exact congrArg (fun x => { s with regs := Tbl.set f.reset s.regs f.key x }) hbits

theorem clearOnes_tcmd (s : State) {v : Nat} (hv : bitsAt v QM_TCMD.refused.lo 1 = 0) :
    s.clearOnes .bar0 v [⟨QM_TCMD.refused, .w1c, []⟩, ⟨QM_TCMD.write, .w1s, []⟩, ⟨QM_TCMD.read, .w1s, []⟩] = untouched QM_TCMD.refused s :=
  (congrArg (fun x => s.wr QM_TCMD.refused (Nat.land (s.rd QM_TCMD.refused) (Nat.xor (2 ^ 1 - 1) x))) hv).trans (s.wr_clearNone QM_TCMD.refused)

theorem State.poke_tcmd {s : State} (ho : Open s) {v : Nat} (hv : v < 2 ^ 32) (hr : bitsAt v QM_TCMD.refused.lo 1 = 0) :
    s.poke 0x1C0054 v = (untouched QM_TCMD.refused s).tcmd .bar0 (bitOf v 1) (bitOf v 0) :=
  State.poke_open ho (by decide) (by decide) (by decide) (by decide) rfl hv (clearOnes_tcmd s hr) rfl

theorem exec_qmTcmdWrite {s : State} (ho : Open s) :
    exec .qmTcmdWrite s = .next ((untouched QM_TCMD.refused s).tcmd .bar0 true false) :=
  congrArg Host.Outcome.next (State.poke_tcmd ho (v := 2) (by decide) (by decide))

theorem exec_qmTcmdRead {s : State} (ho : Open s) :
    exec .qmTcmdRead s = .next ((untouched QM_TCMD.refused s).tcmd .bar0 false true) :=
  congrArg Host.Outcome.next (State.poke_tcmd ho (v := 1) (by decide) (by decide))

theorem State.tcmd_write (s : State) : s.tcmd .bar0 true false =
    let x := s.writeEnt (s.rd QM_TIDX.kind) (s.rd QM_TIDX.index) (s.rd QM_TDATA0.word) (s.rd QM_TDATA1.word)
    if x.1 then x.2 else x.2.wr QM_TCMD.refused 1 := rfl

end Sys2Proof.Machine

namespace Sys2Proof
open Machine Claims

/-- Settles O41: each command by the state in which it acts; the VOQ served next as the first class's turn that some VOQ can take. -/
theorem fabricAndLinks : Obligations.FabricAndLinks := by
  refine ⟨fun s v e rest k l q ecc hv hb he hp => ?serve, fun s v hv => ?next, fun s dev b l => exec_bucketTxqEmpty,
    fun s dev b hb hp ht => ?delay, fun s l ho hl => ?link, fun s dev t hu ht => ?unreach, fun s p t hp hs hh ht => ?hold, fun s ho => ?tcmd⟩
  case serve =>
    rw [exec_fabricSchedule hv hb he hp ecc]
    have hbpm := servedVoq_bpm s v e
    refine ⟨State.placeServed_gone hbpm, fun hk hr => ?_, fun r lost hk hr => State.placeServed_failed hbpm hk hr⟩
    rw [State.placeServed_sent hbpm hk hr]
    exact ⟨fun hs => by rw [hs], fun n hs => by rw [hs]⟩
  case next =>
    obtain ⟨hin, hmax⟩ := State.nextVoq_some hv
    exact ⟨(List.mem_filter.mp hin).2, fun w hc hq _ _ => hmax w (State.mem_sendable hc hq)⟩
  case delay =>
    rw [exec_fabricDelayExpire hb hp ht]
    refine ⟨fun l hn hl => ?_, fun l m hn hl => ?_, fun hn hl => ?_, fun m hn hl => ?_⟩ <;> simp only [hn, hl] <;> rfl
  case link =>
    rw [exec_linkDrain hl ho, exec_linkRestore hl ho]
    refine ⟨fun h => ?_, fun h => ?_, fun h => ?_, fun h => ?_⟩ <;> simp [State.writeLinkCtl, h]
  case unreach =>
    show execUnreachExpire dev s = _
    unfold execUnreachExpire
    simp only [hu, Nat.add_sub_cancel]
    exact if_pos ⟨Nat.succ_ne_zero t, State.elapsed_of_le ht⟩
  case hold =>
    have hover : s.holdOver p = true := by
      simp only [State.holdOver, hs, hh, Nat.add_sub_cancel, beq_self_eq_true, Bool.true_and]
      exact State.elapsed_of_le ht
    exact if_pos ⟨hp, hover⟩
  case tcmd =>
    rw [exec_qmTcmdWrite ho, exec_qmTcmdRead ho, State.tcmd_write]
    exact ⟨fun h => congrArg _ (if_pos h), fun h => congrArg _ (if_neg (ne_true_of_eq_false h)), rfl⟩

end Sys2Proof
end

section
/-! SUPPORT. The write crossbar's matching and the credit protocol (R256 to R259, R268 to R278). -/
namespace Sys2Proof.Machine
open Sys2Proof.Claims

/-! ### One iteration of the central scheduler (R257) -/

/-- The input that a bank grants to, of those not matched before. -/
def State.xGrant (s : State) (done : List (Nat × Nat)) (b : Nat) : Option Nat :=
  firstFrom (Tbl.get 0 s.bpm.grantP b)
    (((List.range 121).filter (fun i => !done.any (fun m => m.1 == i))).filter (fun i => (s.xin i).any (fun x => x.cell % 128 == b)))

/-- The grants of an iteration, as input and bank. -/
def State.xGrants (s : State) (done : List (Nat × Nat)) : List (Nat × Nat) :=
  ((List.range 128).filter (fun b => !done.any (fun m => m.2 == b))).filterMap (fun b => (s.xGrant done b).map (fun i => (i, b)))

/-- The grant that an input accepts. -/
def State.xAccept (s : State) (done : List (Nat × Nat)) (i : Nat) : Option (Nat × Nat) :=
  (firstFrom (Tbl.get 0 s.bpm.acceptP i) (((s.xGrants done).filter (fun g => g.1 == i)).map (·.2))).map (fun b => (i, b))

theorem State.xIterate_eq (s : State) (done : List (Nat × Nat)) :
    s.xIterate done = ((List.range 121).filter (fun i => !done.any (fun m => m.1 == i))).filterMap (s.xAccept done) := rfl

theorem not_any_beq_iff {α : Type} (done : List α) (f : α → Nat) (k : Nat) : (!done.any (fun m => f m == k)) = true ↔ k ∉ done.map f := by
  simp

theorem State.xGrant_some {s : State} {done : List (Nat × Nat)} {b i : Nat} (h : s.xGrant done b = some i) :
    i < 121 ∧ i ∉ done.map (·.1) ∧ ∃ x ∈ s.xin i, x.cell % 128 = b := by
  obtain ⟨hfree, hcell⟩ := List.mem_filter.mp (firstFrom_mem h)
  obtain ⟨hi, hnew⟩ := List.mem_filter.mp hfree
  obtain ⟨x, hx, hb⟩ := List.any_eq_true.mp hcell
  exact ⟨List.mem_range.mp hi, (not_any_beq_iff done _ i).mp hnew, x, hx, beq_iff_eq.mp hb⟩

theorem State.mem_xGrants {s : State} {done : List (Nat × Nat)} {e : Nat × Nat} (h : e ∈ s.xGrants done) :
    e.2 < 128 ∧ e.2 ∉ done.map (·.2) ∧ s.xGrant done e.2 = some e.1 := by
  obtain ⟨b, hb, hg⟩ := List.mem_filterMap.mp h
  obtain ⟨i, hi, rfl⟩ := Option.map_eq_some_iff.mp hg
  obtain ⟨hlt, hnew⟩ := List.mem_filter.mp hb
  exact ⟨List.mem_range.mp hlt, (not_any_beq_iff done _ b).mp hnew, hi⟩

theorem State.xAccept_some {s : State} {done : List (Nat × Nat)} {i : Nat} {e : Nat × Nat} (h : s.xAccept done i = some e) :
    e.1 = i ∧ e ∈ s.xGrants done := by
  obtain ⟨b, hb, rfl⟩ := Option.map_eq_some_iff.mp h
  obtain ⟨g, hg, rfl⟩ := List.mem_map.mp (firstFrom_mem hb)
  obtain ⟨hin, hi⟩ := List.mem_filter.mp hg
  exact ⟨rfl, beq_iff_eq.mp hi ▸ hin⟩

theorem State.xGrants_of_mem_xIterate {s : State} {done : List (Nat × Nat)} {e : Nat × Nat} (h : e ∈ s.xIterate done) :
    e ∈ s.xGrants done := by
  obtain ⟨_, _, he⟩ := List.mem_filterMap.mp (s.xIterate_eq done ▸ h)
  exact (State.xAccept_some he).2

/-- An input accepts one grant, so an iteration matches it once. -/
theorem State.xIterate_inputs_nodup (s : State) (done : List (Nat × Nat)) : ((s.xIterate done).map (·.1)).Nodup := by
  rw [s.xIterate_eq done, List.Nodup, List.pairwise_map, List.pairwise_filterMap]
  refine (List.nodup_range.filter _).imp fun hij e he f hf heq => hij ?_
  rw [← (State.xAccept_some he).1, ← (State.xAccept_some hf).1, heq]

/-- A bank grants to one input, so two matches of a bank are the same match. -/
theorem State.xIterate_banks_nodup (s : State) (done : List (Nat × Nat)) : ((s.xIterate done).map (·.2)).Nodup := by
  refine (s.xIterate_inputs_nodup done).of_map _ |>.map_on fun e he f hf hbank => Prod.ext (Option.some.inj ?_) hbank
  obtain ⟨_, _, hge⟩ := State.mem_xGrants (State.xGrants_of_mem_xIterate he)
  obtain ⟨_, _, hgf⟩ := State.mem_xGrants (State.xGrants_of_mem_xIterate hf)
  rw [← hge, ← hgf, hbank]

/-! ### The matches of a slot (R257, R258) -/

/-- No input and no bank is matched twice, and every matched input has a cell waiting for its bank. -/
def State.XMatching (s : State) (m : List (Nat × Nat)) : Prop :=
  (m.map (·.1)).Nodup ∧ (m.map (·.2)).Nodup ∧ ∀ e ∈ m, e.1 < 121 ∧ e.2 < 128 ∧ ∃ x ∈ s.xin e.1, x.cell % 128 = e.2

theorem State.XMatching.nil (s : State) : s.XMatching [] := ⟨List.nodup_nil, List.nodup_nil, fun _ h => absurd h List.not_mem_nil⟩

/-- A further iteration looks only at inputs and banks that are not matched yet. -/
theorem State.XMatching.iterate {s : State} {m : List (Nat × Nat)} (h : s.XMatching m) : s.XMatching (m ++ s.xIterate m) := by
  obtain ⟨hins, hbanks, hcells⟩ := h
  have hnew : ∀ e ∈ s.xIterate m, (e.1 ∉ m.map (·.1) ∧ e.2 ∉ m.map (·.2)) ∧ e.1 < 121 ∧ e.2 < 128 ∧ ∃ x ∈ s.xin e.1, x.cell % 128 = e.2 := by
    intro e he
    obtain ⟨hb, hbm, hg⟩ := State.mem_xGrants (State.xGrants_of_mem_xIterate he)
    obtain ⟨hi, him, hx⟩ := State.xGrant_some hg
    exact ⟨⟨him, hbm⟩, hi, hb, hx⟩
  refine ⟨?inputs, ?banks, fun e he => (List.mem_append.mp he).elim (hcells e) fun h => (hnew e h).2⟩
  case inputs =>
    rw [List.map_append]
    refine hins.append (s.xIterate_inputs_nodup m) fun i hi hj => ?_
    obtain ⟨e, he, rfl⟩ := List.mem_map.mp hj
    exact (hnew e he).1.1 hi
  case banks =>
    rw [List.map_append]
    refine hbanks.append (s.xIterate_banks_nodup m) fun b hb hj => ?_
    obtain ⟨e, he, rfl⟩ := List.mem_map.mp hj
    exact (hnew e he).1.2 hb

theorem State.XMatching.xMatch {s : State} : ∀ (n : Nat) {m : List (Nat × Nat)}, s.XMatching m → s.XMatching (s.xMatch n m)
  | 0, _, h => h
  | n + 1, _, h => xMatch n h.iterate

/-! ### Credit messages received (R268, R270, R275, R277) -/

theorem State.onFlow_of_find {s : State} {k : Nat} {f : Flow} (h : s.qm.flows.find? (fun e => e.1 == k) = some (k, f)) (g : Flow → Flow) :
    s.onFlow k g = ({ s with qm := { s.qm with flows := Tbl.ins k (g f) s.qm.flows } } : State).checkFlow k := by
  rw [State.onFlow, h]

theorem State.takeCredit_damaged {s : State} {b : List Nat} (hb : crc8 (sliceB b 0 7) ≠ leAt b 7 1) (kinds : List Nat) :
    s.takeCredit kinds b = s.inc QM_CREDCRC.count := if_pos hb

section Intact
variable {s : State} {b : List Nat} {dev voq units : Nat} (hb : crc8 (sliceB b 0 7) = leAt b 7 1)
include hb

theorem exec_grantReceive (hf : creditFields b = (1, dev, voq, units)) : exec (.grantReceive b) s = .next (s.takeGrant dev voq units) := by
  show Host.Outcome.next (s.takeCredit [1] b) = _
  simp [State.takeCredit, hb, hf]

theorem exec_requestReceive (hf : creditFields b = (2, dev, voq, units)) : exec (.requestReceive b) s = .next (s.takeRequest dev voq) := by
  show Host.Outcome.next (s.takeCredit [2] b) = _
  simp [State.takeCredit, hb, hf]

theorem exec_emptyReceive (hf : creditFields b = (3, dev, voq, units)) : exec (.emptyReceive b) s = .next (s.takeEmpty dev voq units) := by
  show Host.Outcome.next (s.takeCredit [3] b) = _
  simp [State.takeCredit, hb, hf]

end Intact

theorem State.takeRequest_known {s : State} {dev voq : Nat} {f : Flow}
    (hf : s.qm.flows.find? (fun e => e.1 == flowKey dev voq) = some (flowKey dev voq, f)) :
    s.takeRequest dev voq = s.onFlow (flowKey dev voq) (fun f => { f with emptied := false }) :=
  if_pos (List.any_eq_true.mpr ⟨(flowKey dev voq, f), List.mem_of_find?_eq_some hf, beq_self_eq_true (flowKey dev voq)⟩)

section NewFlow
variable {s : State} {dev voq : Nat} (hnew : s.qm.flows.any (fun e => e.1 == flowKey dev voq) = false)
include hnew

theorem State.takeRequest_enters (hroom : s.qm.flows.length < 65536) :
    s.takeRequest dev voq = { s with qm := { s.qm with flows := Tbl.ins (flowKey dev voq) {} s.qm.flows } } := by
  simp [State.takeRequest, hnew, hroom]

variable (hfull : 65536 ≤ s.qm.flows.length)
include hfull

theorem State.takeRequest_waits_already (hw : s.qm.flowWait.contains (flowKey dev voq) = true) : s.takeRequest dev voq = s := by
  simp only [State.takeRequest, hnew, hfull.not_gt, hw, Bool.false_eq_true, if_false, if_true]

theorem State.takeRequest_full (hw : s.qm.flowWait.contains (flowKey dev voq) = false) :
    s.takeRequest dev voq = if s.qm.flowWait.length < 4096
      then { s with qm := { s.qm with flowWait := s.qm.flowWait ++ [flowKey dev voq] } } else s.inc QM_CREDWAITDROP.count := by
  simp only [State.takeRequest, hnew, hfull.not_gt, hw, Bool.false_eq_true, if_false]

end NewFlow

/-! ### Starved VOQs (R272, R273) -/

theorem exec_creditStaleRequest {s : State} {v : Nat} (hv : v < 65536) (hq : (s.queue (voqKey v)).ents ≠ []) (hb : (s.voq v).balance ≤ 0)
    (ht : Past s (max (s.voq v).grantAt (s.voq v).reqAt) (s.rd QM_CREDTIME.stale_us * 1000)) :
    exec (.creditStaleRequest v) s = .next (s.sendRequest v) :=
  if_pos ⟨hv, hq, hb, State.elapsed_of_le ht⟩

theorem exec_creditLostFlush {s : State} {v : Nat} (hv : v < 65536) (hq : (s.queue (voqKey v)).ents ≠ []) (hl : 0 < s.rd QM_CREDTIME.lost_ms)
    (hk : s.destKind (v / 8) ≠ 2) (ht : Past s (s.voq v).grantAt (s.rd QM_CREDTIME.lost_ms * 1000000)) :
    exec (.creditLostFlush v) s = .next ((s.flush (voqKey v) 0x11).post 0x0605
      (leBytes 4 v ++ leBytes 4 (s.queue (voqKey v)).ents.length)) :=
  if_pos ⟨hv, List.length_pos_iff.mpr hq, hl, hk, State.elapsed_of_le ht⟩

/-! ### Units earned and granted (R274) -/

/-- When destination `d` earns its next unit, in units of 2^-32 ns. -/
def State.unitDue (s : State) (d : Nat) : Nat :=
  (Tbl.get {} s.qm.gens d : CreditGen).at_ + ceilDiv (s.unitBytes * 80 * 2 ^ 32) (s.egRate d)

/-- A generator that has granted a unit to flow `k`. -/
def State.genGranted (s : State) (d : Nat) (g : CreditGen) (k : Nat) : CreditGen :=
  { unit := false, at_ := if g.unit = false ∧ s.fine < s.unitDue d + 2 ^ 32 then s.unitDue d else s.fine,
    last := Tbl.set 0 g.last (k % 8) (k + 1) }

/-- A generator replaced. -/
def State.setGen (s : State) (d : Nat) (g : CreditGen) : State := { s with qm := { s.qm with gens := Tbl.set {} s.qm.gens d g } }

/-- A unit granted to flow `k`, once the generator of the destination is written. -/
def State.grantUnit (s : State) (k : Nat) : State :=
  (s.onFlow k (fun f => { f with outstanding := f.outstanding + (s.unitBytes : Nat),
                                 cellAt := if f.outstanding ≤ 0 then s.clk else f.cellAt })).creditSend
    (k / 65536) (creditBytes 1 (k / 65536) (k % 65536) 1)

theorem exec_creditEarn_idle {s : State} {d : Nat} (hu : (Tbl.get {} s.qm.gens d : CreditGen).unit = false)
    (hn : s.egRate d = 0 ∨ s.fine < s.unitDue d) : exec (.creditEarn d) s = .next s := by
  refine if_neg fun ⟨_, _, h⟩ => ?_
  rcases h with hunit | ⟨hrate, hdue⟩
  · exact Bool.false_ne_true (hu.symm.trans hunit)
  · exact hn.elim hrate hdue.not_gt

theorem exec_creditEarn {s : State} {d : Nat} (hd : d < 8192) (hv : s.egValid d = true)
    (hu : (Tbl.get {} s.qm.gens d : CreditGen).unit = true ∨ (s.egRate d ≠ 0 ∧ s.unitDue d ≤ s.fine)) :
    let g : CreditGen := Tbl.get {} s.qm.gens d
    exec (.creditEarn d) s = .next ((s.nextFlow d g).elim (s.setGen d { g with unit := true })
      (fun k => (s.setGen d (s.genGranted d g k)).grantUnit k)) := by
  show execCreditEarn d s = _
  refine (if_pos ⟨hd, hv, hu⟩).trans ?_
  cases s.nextFlow d (Tbl.get {} s.qm.gens d) with
  | none => rfl
  | some k => simp only [Bool.not_eq_true', Option.elim_some]; rfl

/-! ### Flows resynchronised (R278) -/

theorem exec_flowResync {s : State} {dev voq k : Nat} {f : Flow} (hf : s.qm.flows.find? (fun e => e.1 == flowKey dev voq) = some (k, f))
    (ho : 0 < f.outstanding) (ht : Past s f.cellAt (s.rd QM_CREDTIME.stale_us * 1000)) :
    exec (.flowResync dev voq) s = .next (((s.onFlow k (fun f => { f with outstanding := 0 })).inc QM_CREDRESYNC.count).postRated
      0x0604 0 1000000 1 (fun n => [0, 0, 0, 0] ++ leBytes 4 n)) := by
  show execFlowResync dev voq s = _
  rw [execFlowResync, hf]
  exact if_pos ⟨ho, State.elapsed_of_le ht⟩

end Sys2Proof.Machine

namespace Sys2Proof
open Machine Claims

/-- Settles O38: the empty matching is sound, and every iteration keeps it so. -/
theorem crossbarMatching : Obligations.CrossbarMatching :=
  ⟨fun s n => ((State.XMatching.nil s).iterate).xMatch n, fun _ => rfl⟩

/-- Settles O40: each command by the message's fields, the flow's place in the table, or the generator's turn. -/
theorem credits : Obligations.Credits := by
  refine ⟨fun s b hb => ?damaged, fun s b dev voq units hb => ⟨fun hf hd => ?grant, fun hf hd => ?misrouted, fun hf hnew => ?request,
    fun f hf hk => ?known, fun f hf hk => ?empty⟩, fun s v hv hq => ⟨exec_creditStaleRequest hv hq, exec_creditLostFlush hv hq⟩,
    fun s d hd hv => ⟨exec_creditEarn_idle, fun hu => ?earn⟩, fun s dev voq k f => exec_flowResync⟩
  case damaged =>
    have h := State.takeCredit_damaged (s := s) hb
    exact ⟨congrArg Host.Outcome.next (h [1]), congrArg Host.Outcome.next (h [2]), congrArg Host.Outcome.next (h [3])⟩
  case grant =>
    rw [exec_grantReceive hb hf]
    exact congrArg Host.Outcome.next (if_neg (not_not.mpr hd))
  case misrouted =>
    rw [exec_grantReceive hb hf]
    exact congrArg Host.Outcome.next (if_pos hd)
  case request =>
    rw [exec_requestReceive hb hf]
    refine ⟨fun hroom => ?_, fun hfull hw => ?_, fun hfull hw hroom => ?_, fun hfull hw hover => ?_⟩
    · rw [State.takeRequest_enters hnew hroom]
    · rw [State.takeRequest_waits_already hnew hfull hw]
    · rw [State.takeRequest_full hnew hfull hw, if_pos hroom]
    · rw [State.takeRequest_full hnew hfull hw, if_neg hover.not_gt]
  case known =>
    rw [exec_requestReceive hb hf, State.takeRequest_known hk, State.onFlow_of_find hk]
  case empty =>
    rw [exec_emptyReceive hb hf, State.takeEmpty, State.onFlow_of_find hk]
  case earn =>
    rw [exec_creditEarn hd hv hu]
    exact ⟨fun hn => by rw [hn]; rfl, fun k hn => by rw [hn]; rfl⟩

end Sys2Proof
end

section
/-! SUPPORT. The scheduler tree (R311 to R327): the choice among children, the egress selection, node writes and reads, and refill boundaries. -/
namespace Sys2Proof.Machine
open Sys2Proof.Claims

/-! ### The choice among children (R311, R315) -/

theorem State.bestChild_none (s : State) (level : Nat) : ∀ {l : List Nat}, s.bestChild level l = none → l = []
  | [], _ => rfl
  | i :: r, h => by
    unfold State.bestChild at h
    split at h
    · cases h
    · dsimp only at h
      split at h <;> cases h

/-- The child chosen from a longer list is the first one or the one chosen from the rest, whichever has the higher band. -/
theorem State.bestChild_cons {s : State} {level i k : Nat} {r : List Nat} (h : s.bestChild level (i :: r) = some k) :
    (k = i ∧ ∀ j, s.bestChild level r = some j → (s.node level j).band ≤ (s.node level i).band) ∨
      (s.bestChild level r = some k ∧ (s.node level i).band ≤ (s.node level k).band) := by
  unfold State.bestChild at h
  split at h
  · next hr => exact .inl ⟨(Option.some.inj h).symm, fun j hj => by rw [hr] at hj; cases hj⟩
  · next j hr =>
    dsimp only at h
    split at h
    · next hlt =>
      obtain rfl := Option.some.inj h
      exact .inr ⟨hr, hlt.elim Nat.le_of_lt fun heq => heq.1.le⟩
    · next hge =>
      refine .inl ⟨(Option.some.inj h).symm, fun m hm => ?_⟩
      obtain rfl := Option.some.inj (hr.symm.trans hm)
      exact Nat.le_of_not_lt fun hlt => hge (.inl hlt)

theorem State.bestChild_some {s : State} {level : Nat} : ∀ {l : List Nat} {k : Nat}, s.bestChild level l = some k →
    k ∈ l ∧ ∀ j ∈ l, (s.node level j).band ≤ (s.node level k).band
  | [], _, h => by cases h
  | i :: r, k, h => by
    rcases State.bestChild_cons h with ⟨rfl, hmax⟩ | ⟨hr, hle⟩
    · refine ⟨List.mem_cons_self, List.forall_mem_cons.mpr ⟨le_rfl, fun j hj => ?_⟩⟩
      cases hr : s.bestChild level r with
      | none => exact absurd (s.bestChild_none level hr ▸ hj) List.not_mem_nil
      | some m => exact ((State.bestChild_some hr).2 j hj).trans (hmax m hr)
    · obtain ⟨hmem, hmax⟩ := State.bestChild_some hr
      exact ⟨List.mem_cons_of_mem _ hmem, List.forall_mem_cons.mpr ⟨hle, hmax⟩⟩

theorem State.enabledUp_of_disabled {s : State} {n level i : Nat} {x : Nat × Nat} (hx : x ∈ s.pathUp n level i)
    (hoff : (s.node x.1 x.2).enable = false) : s.enabledUp n level i = false := by
  induction n generalizing level i with
  | zero => exact absurd hx List.not_mem_nil
  | succ n ih =>
    rw [State.enabledUp, Bool.and_eq_false_iff]
    rcases List.mem_cons.mp hx with rfl | hup
    · exact .inl hoff
    · exact .inr (ih hup)

theorem State.eligible_below_disabled {s : State} {level i : Nat} {x : Nat × Nat} (hx : x ∈ s.pathUp (5 - level) level i)
    (hoff : (s.node x.1 x.2).enable = false) : s.eligible level i = false := by
  simp [State.eligible, State.enabledUp_of_disabled hx hoff]

/-! ### EGRESS_SELECT (R303, R310 to R316, R460) -/

/-- The end of a selection: what becomes of the packet `sent`, taken from queue `q` by port `p` in state `v`, as it is over age (`old`), its
handle names its chain (`live`) and its read fails (`bad`). -/
def State.endSelect (v : State) (p q : Nat) (e : QEnt) (ecc : Nat) (old live : Bool) (bad : Option (Nat × Bool)) (sent : Packet) : Out :=
  if !live then .next (v.releaseQueued e)
  else if old then .next ((v.dropAt q 0xB e.len).releaseQueued e)
  else match bad with
    | some (r, lost) =>
      let w := (v.readMark ecc).dropRead q e r lost
      .next (if p < 128 ∧ r = 7 ∧ !lost then w.bridgeBack { sent with errored := true } else w)
    | none => .next ((v.readMark ecc).deliverTo p q e)

/-- The owner code under which a selected packet leaves its queue. -/
def leavesAs (p : Nat) (old live : Bool) (bad : Option (Nat × Bool)) : Nat := if old ∨ !live ∨ bad.isSome then 0x10 else readerOf p

/-- The tree, settled to `t`, names port `p` and queue `q`. The state `v` stays a variable in the proof: two states after `takeHead` compare by
their name, not field by field. -/
theorem exec_egressSelect {s t : State} {p q : Nat} {e : QEnt} {rest : List QEnt} (ht : s.settle = t)
    (hp : firstFrom t.sch.next ((List.range 140).filter (fun p => (t.served p).isSome)) = some p)
    (hq : t.served p = some q) (he : (t.queue q).ents = e :: rest) (ecc : Nat) :
    exec (.egressSelect ecc) s =
      (taken t p q (leavesAs p (t.aged p e) (t.handleOk e.ptr e.gen) (t.readError e.ptr ecc)) e).endSelect p q e ecc
        (t.aged p e) (t.handleOk e.ptr e.gen) (t.readError e.ptr ecc) (t.egressPacket p q e) := by
  show execEgressSelect ecc s = _
  unfold execEgressSelect
  rw [ht]
  extract_lets x
  simp -zeta only [show firstFrom x.sch.next ((List.range 140).filter (fun p => (x.served p).isSome)) = some p from hp,
    show x.served p = some q from hq, show (x.queue q).ents = e :: rest from he]
  extract_lets old live bad sent u c v
  have hu : x.takeHead q (leavesAs p old live bad) e = u := rfl
  have hv : taken x p q (leavesAs p old live bad) e = v := by rw [taken, hu]
  show _ = (taken x p q (leavesAs p old live bad) e).endSelect p q e ecc old live bad sent
  rw [hv]
  clear_value old live bad sent v
  rfl

section Served
variable {v : State} {p q : Nat} {e : QEnt} {ecc : Nat} {old : Bool} {bad : Option (Nat × Bool)} {sent : Packet}

theorem State.endSelect_gone : v.endSelect p q e ecc old false bad sent = .next (v.releaseQueued e) := rfl

theorem State.endSelect_aged :
    v.endSelect p q e ecc true true bad sent = .next ((v.dropAt q 0xB e.len).releaseQueued e) := rfl

theorem State.endSelect_sent : v.endSelect p q e ecc false true none sent = .next ((v.readMark ecc).deliverTo p q e) := rfl

theorem State.endSelect_failed (r : Nat) (lost : Bool) : v.endSelect p q e ecc false true (some (r, lost)) sent =
    let w := (v.readMark ecc).dropRead q e r lost
    .next (if p < 128 ∧ r = 7 ∧ lost = false then w.bridgeBack { sent with errored := true } else w) := by
  simp [State.endSelect]

end Served

/-! ### SCH_NCMD (R319, R320, R322, R324, R326) -/

theorem State.nodeRefusal_weightless (s : State) (level i : Nat) {w : NodeWords} (hw : w.d0 % 65536 = 0) : s.nodeRefusal level i w ≠ 0 := by
  have hz : bitsAt w.d0 0 16 = 0 := by simp only [bitsAt]; omega
  unfold State.nodeRefusal
  simp only [hz, if_true]
  split_ifs <;> decide

theorem State.poke_ncmd {s : State} (ho : Open s) {v : Nat} (hv : v < 2 ^ 32) : s.poke 0x200034 v = s.ncmd .bar0 (bitOf v 1) (bitOf v 0) :=
  State.poke_open ho (by decide) (by decide) (by decide) (by decide) rfl hv rfl rfl

theorem exec_schNodeWrite {s : State} (ho : Open s) : exec .schNodeWrite s = .next (s.ncmd .bar0 true false) :=
  congrArg Host.Outcome.next (State.poke_ncmd ho (v := 2) (by decide))

theorem exec_schNodeRead {s : State} (ho : Open s) : exec .schNodeRead s = .next (s.ncmd .bar0 false true) :=
  congrArg Host.Outcome.next (State.poke_ncmd ho (v := 1) (by decide))

theorem State.ncmd_write (s : State) :
    s.ncmd .bar0 true false = (s.writeNode (s.rd SCH_NIDX.level) (s.rd SCH_NIDX.index) (s.nodeWords .bar0)).2 := rfl

section Node
variable {s : State} {level i : Nat}

theorem State.writeNode_beyond (hi : levelSize level ≤ i) (w : NodeWords) : s.writeNode level i w = (0, s) := if_pos hi

theorem State.writeNode_applied (hi : i < levelSize level) {w : NodeWords} (hr : s.nodeRefusal level i w = 0) :
    s.writeNode level i w = (0, s.applyNode level i w) :=
  (if_neg (Nat.not_le.mpr hi)).trans (if_pos hr)

theorem State.writeNode_refused (hi : i < levelSize level) {w : NodeWords} (hr : s.nodeRefusal level i w ≠ 0) :
    s.writeNode level i w = (s.nodeRefusal level i w, (s.wr SCH_STAT.refused 1).wr SCH_STAT.reason (s.nodeRefusal level i w)) :=
  (if_neg (Nat.not_le.mpr hi)).trans (if_neg hr)

end Node

theorem State.ncmd_read_beyond {s : State} (hi : levelSize (s.rd SCH_NIDX.level) ≤ s.rd SCH_NIDX.index) :
    s.ncmd .bar0 false true = s.loadWords .bar0 0x200014 [0, 0, 0, 0, 0, 0, 0, 0] := by
  have hon : ∀ f : Fld, f.on .bar0 = f := fun _ => rfl
  simp only [State.ncmd, hon, if_pos hi, if_true, Bool.false_eq_true, if_false]

theorem State.ncmd_read {s : State} (hi : s.rd SCH_NIDX.index < levelSize (s.rd SCH_NIDX.level)) :
    s.ncmd .bar0 false true =
      let x := s.nodeNow (s.rd SCH_NIDX.level) (s.rd SCH_NIDX.index)
      (s.setNode (s.rd SCH_NIDX.level) (s.rd SCH_NIDX.index) x).loadWords .bar0 0x200014
        [x.words.1.d0, x.words.1.d1, x.words.1.d2, x.words.1.d3, x.words.1.d4, x.words.1.d5, x.words.2.1, x.words.2.2] := by
  have hon : ∀ f : Fld, f.on .bar0 = f := fun _ => rfl
  simp only [State.ncmd, hon, if_neg (Nat.not_le.mpr hi), if_true, Bool.false_eq_true, if_false]

end Sys2Proof.Machine

namespace Sys2Proof
open Machine Claims

/-- Settles O42: the choice by induction over the children, the selection by what the head packet's handle, age and read show, and the node
commands by the index and the refusal. -/
theorem schedulerTree : Obligations.SchedulerTree := by
  refine ⟨fun s level l i => State.bestChild_some, fun s level l => s.bestChild_none level, fun s level i x => State.eligible_below_disabled,
    fun s p q e rest ecc hp hq he => ?select, fun s ho hi => ?node, fun s ho hi => ?beyond, fun s level i w => s.nodeRefusal_weightless level i,
    fun s h => if_pos h⟩
  case select =>
    rw [exec_egressSelect rfl hp hq he ecc]
    refine ⟨fun hk => ?_, fun hk ho => ?_, fun hk ho hr => ?_, fun r lost hk ho hr => ?_⟩
    · rw [hk, State.endSelect_gone, leavesAs, if_pos (.inr (.inl rfl))]
    · rw [hk, ho, State.endSelect_aged, leavesAs, if_pos (.inl rfl)]
    · rw [hk, ho, hr]; rfl
    · rw [hk, ho, hr, State.endSelect_failed]
      refine ⟨fun h => congrArg Host.Outcome.next (if_pos h), fun h => congrArg Host.Outcome.next (if_neg ?_)⟩
      rintro ⟨hport, hreason, hkept⟩
      rcases h with h | h | h
      · exact h.not_gt hport
      · exact h hreason
      · exact Bool.false_ne_true (hkept.symm.trans h)
  case node =>
    rw [exec_schNodeWrite ho, exec_schNodeRead ho, State.ncmd_write, State.ncmd_read hi]
    refine ⟨fun hr => ?_, fun hr => ?_, rfl⟩
    · rw [State.writeNode_applied hi hr]
    · rw [State.writeNode_refused hi hr]
  case beyond =>
    rw [exec_schNodeWrite ho, exec_schNodeRead ho, State.ncmd_write, State.writeNode_beyond hi, State.ncmd_read_beyond hi]
    exact ⟨rfl, rfl⟩

end Sys2Proof
end

section
/-! SUPPORT. Time gates (R335 to R344): what leaves the gates as they are, the start of a list, the registers of a port's gates, and each
command. -/
namespace Sys2Proof.Machine
open Sys2Proof.Claims

/-! ### A gate written and read -/

theorem State.gate_congr {s t : State} (h : t.sch.gates = s.sch.gates) (p : Nat) : t.gate p = s.gate p := by unfold State.gate; rw [h]

theorem State.gate_setGate {s : State} (h : Tbl.risingFrom 0 s.sch.gates = true) (p : Nat) (g : Gate) : (s.setGate p g).gate p = g :=
  Tbl.get_set_self ({} : Gate) h p g

/-- A gate with a list reads as it was written whatever the order of the table: it is not what an unlisted port's gate reads as. -/
theorem State.gate_setGate_listed (s : State) (p : Nat) {g : Gate} (hg : g ≠ {}) : (s.setGate p g).gate p = g := by
  have hset : (s.setGate p g).sch.gates = Tbl.ins p g s.sch.gates := if_neg hg
  unfold State.gate
  rw [hset, Tbl.get_ins_self]

/-! ### What leaves every gate -/

theorem foldl_gates {α : Type} {f : State → α → State} (hf : ∀ t x, (f t x).sch.gates = t.sch.gates) (l : List α) (s : State) :
    (l.foldl f s).sch.gates = s.sch.gates :=
  List.foldlRecOn (motive := fun t => t.sch.gates = s.sch.gates) l f rfl fun t ht x _ => (hf t x).trans ht

theorem State.touchChild_gates (s : State) (par : Node) (level i : Nat) : (s.touchChild par level i).sch.gates = s.sch.gates := by
  unfold State.touchChild
  dsimp only
  split_ifs <;> rfl

theorem State.choose_gates (s : State) (level i : Nat) : (s.choose level i).sch.gates = s.sch.gates := by
  unfold State.choose
  dsimp only
  split
  · rfl
  · split <;> rfl

theorem State.settleNode_gates (s : State) (level i : Nat) : (s.settleNode level i).sch.gates = s.sch.gates :=
  (State.choose_gates ..).trans (foldl_gates (fun t _ => t.touchChild_gates ..) _ s)

@[simp] theorem State.settle_gates (s : State) : s.settle.sch.gates = s.sch.gates :=
  foldl_gates (fun t _ => foldl_gates (fun u _ => u.settleNode_gates ..) _ t) _ s

theorem State.macDrop_sch (s : State) (p : Nat) (k : Packet) : (s.macDrop p k).sch = s.sch := by
  unfold State.macDrop
  split
  · split
    · exact State.post_sch ..
    · rfl
  · rfl

theorem State.macFlush_gates (s : State) (p : Nat) : (s.macFlush p).sch.gates = s.sch.gates :=
  foldl_gates (fun t k => congrArg Sch.gates (State.macDrop_sch (t.inc (LPT_TXDOWN.count p)) p k)) _ _

theorem State.macCollect_gates (s : State) (p : Nat) : (s.macCollect p).sch.gates = s.sch.gates := by
  unfold State.macCollect
  split
  · exact s.macFlush_gates p
  · rfl

theorem State.dropNoFit_gates (p cls d n : Nat) (s : State) : (State.dropNoFit p cls d n s).sch.gates = s.sch.gates := by
  induction n generalizing s with
  | zero => rfl
  | succ n ih =>
    unfold State.dropNoFit
    dsimp only
    split
    · rfl
    · split
      · rfl
      · rw [ih, State.macDrop_sch]; rfl

@[simp] theorem State.applyGates_gates (s : State) (p : Nat) : (s.applyGates p).sch.gates = s.sch.gates := by
  unfold State.applyGates
  dsimp only
  rw [foldl_gates, State.macCollect_gates]
  · rfl
  · intro t c
    split
    · split
      · rfl
      · exact State.dropNoFit_gates ..
    · rfl

@[simp] theorem State.showStart_sch (s : State) (p st : Nat) : (s.showStart p st).sch = s.sch := rfl

/-! ### Activation, cancelling and disabling (R340, R342, R343) -/

theorem le_ceilDiv_mul (n : Nat) {u : Nat} (hu : 0 < u) : n ≤ ceilDiv n u * u := by
  have h : n + u - 1 < ceilDiv n u * u + u := Nat.lt_div_mul_add hu
  omega

theorem ceilDiv_mul_lt (n : Nat) {u : Nat} (hu : 0 < u) : ceilDiv n u * u < n + u := by
  have h : ceilDiv n u * u ≤ n + u - 1 := Nat.div_mul_le_self ..
  omega

theorem ceilDiv_zero {u : Nat} (hu : 0 < u) : ceilDiv 0 u = 0 := Nat.div_eq_of_lt (by omega)

/-- The base time of a port's administrative list in ns. -/
def State.gateBase (s : State) (p : Nat) : Nat :=
  (s.rd (TG_BASE1.sec_lo p) + 2 ^ 32 * s.rd (TG_BASE2.sec_hi p)) * 10 ^ 9 + s.rd (TG_BASE0.ns p)

/-- The start of the list when it is activated now (R340): the base time, or the first whole number of cycles after it 2 us ahead. -/
def State.gateStart (s : State) (p : Nat) : Nat :=
  s.gateBase p + ceilDiv (s.netNs + 2000 - s.gateBase p) (s.rd (TG_CYCLE.ns p)) * s.rd (TG_CYCLE.ns p)

section Start
variable {s : State} {p : Nat}

theorem State.gateStart_ge (hc : 0 < s.rd (TG_CYCLE.ns p)) : s.netNs + 2000 ≤ s.gateStart p := by
  have h := le_ceilDiv_mul (s.netNs + 2000 - s.gateBase p) hc
  unfold State.gateStart
  omega

theorem State.gateStart_lt (hc : 0 < s.rd (TG_CYCLE.ns p)) (hb : s.gateBase p < s.netNs + 2000) :
    s.gateStart p < s.netNs + 2000 + s.rd (TG_CYCLE.ns p) := by
  have h := ceilDiv_mul_lt (s.netNs + 2000 - s.gateBase p) hc
  unfold State.gateStart
  omega

theorem State.gateStart_base (hc : 0 < s.rd (TG_CYCLE.ns p)) (hb : s.netNs + 2000 ≤ s.gateBase p) : s.gateStart p = s.gateBase p := by
  rw [State.gateStart, Nat.sub_eq_zero_of_le hb, ceilDiv_zero hc, Nat.zero_mul, Nat.add_zero]

theorem State.gateStart_cycles : (s.gateStart p - s.gateBase p) % s.rd (TG_CYCLE.ns p) = 0 := by
  rw [State.gateStart, Nat.add_sub_cancel_left, Nat.mul_mod_left]

theorem State.cycle_of_gateRefusal (h : s.gateRefusal p = 0) : 1000 ≤ s.rd (TG_CYCLE.ns p) := by
  refine Nat.le_of_not_lt fun hc => ?_
  unfold State.gateRefusal at h
  dsimp only at h
  split at h
  · cases h
  · split at h
    · cases h
    · rw [if_pos (.inl hc)] at h; cases h

theorem State.activateGate_refused (h : s.gateRefusal p ≠ 0) :
    s.activateGate p = ((s.wr (TG_STAT.refused p) 1).wr (TG_STAT.reason p) (s.gateRefusal p)).post 0x0702 [p, s.gateRefusal p] := if_pos h

theorem State.gate_activateGate (h : s.gateRefusal p = 0) : (s.activateGate p).gate p =
    { s.gate p with pend := some (s.gateStart p, s.rd (TG_CYCLE.ns p), s.rd (TG_LEN.entries p)) } := by
  have hlisted : { s.gate p with pend := some (s.gateStart p, s.rd (TG_CYCLE.ns p), s.rd (TG_LEN.entries p)) } ≠ ({} : Gate) :=
    fun hd => Option.some_ne_none _ (congrArg Gate.pend hd)
  refine .trans (State.gate_congr ?_ p) (s.gate_setGate_listed p hlisted)
  simp only [State.activateGate, State.gateStart, State.gateBase, h, ne_eq, not_true_eq_false, if_false, State.showStart_sch, State.wr_sch]

theorem State.gate_cancelGate (hs : Tbl.risingFrom 0 s.sch.gates = true) : (s.cancelGate p).gate p = { s.gate p with pend := none } := by
  refine .trans (State.gate_congr ?_ p) (State.gate_setGate hs p _)
  unfold State.cancelGate
  dsimp only
  split <;> rfl

theorem State.gate_enableGate_off (hs : Tbl.risingFrom 0 s.sch.gates = true) :
    (s.enableGate p false).gate p = { s.gate p with oper := none, pend := none, sched := 255 } := by
  refine .trans (State.gate_congr ?_ p) (State.gate_setGate hs p _)
  simp only [State.enableGate, Bool.false_eq_true, if_false, State.settle_gates, State.applyGates_gates]
  rfl

end Start

/-! ### TG_LIST_START (R341) -/

theorem exec_tgListStart {s : State} {p st cyc n : Nat} (hp : p < 128) (hg : (s.gate p).pend = some (st, cyc, n)) (ht : st ≤ s.netNs) :
    ∃ t, exec (.tgListStart p) s = .next t ∧
      t.gate p = { s.gate p with oper := some ((s.gate p).admin, st, cyc, n), pend := none, admin := 1 - (s.gate p).admin,
                                 before := (s.gate p).nowBits (s.rd (TG_CTL.init_gates p)) (st - 1) } := by
  have hexec : exec (.tgListStart p) s = execTgListStart p s := rfl
  rw [hexec, execTgListStart]
  simp only [hg, if_pos (And.intro hp ht)]
  refine ⟨_, rfl, .trans (State.gate_congr (congrArg Sch.gates (State.post_sch ..)) p) (s.gate_setGate_listed p fun hd => ?_)⟩
  exact Option.some_ne_none _ (congrArg Gate.oper hd)

/-! ### Gate changes at the MAC (R338, R339) -/

/-- Where no gate opens, a gate change drops nothing. -/
theorem State.applyGates_noneOpens {s : State} {p : Nat}
    (h : ∀ c, c < 8 → bitOf (s.gatesAt p s.netNs) c = true → bitOf (s.rd (TG_STAT.gates p)) c = true) :
    s.applyGates p = (s.wr (TG_STAT.gates p) (s.gatesAt p s.netNs)).macCollect p := by
  unfold State.applyGates
  refine List.foldlRecOn (motive := (· = (s.wr (TG_STAT.gates p) (s.gatesAt p s.netNs)).macCollect p)) _ _ rfl fun t ht c hc => ?_
  refine (if_neg fun hopens => ?_).trans ht
  obtain ⟨hnow, hwas⟩ := hopens
  simp [h c (List.mem_range.mp hc) hnow] at hwas

section NoFit
variable {s : State} {p c d n : Nat} {k : Packet} {rest : List Packet} (hw : Tbl.get [] (s.linePort p).wait c = k :: rest)
include hw

theorem State.dropNoFit_fits (hf : s.wireNs p k.frameLen ≤ d) : State.dropNoFit p c d (n + 1) s = s := by
  simp only [State.dropNoFit, hw, if_pos hf]

theorem State.dropNoFit_drops (hf : d < s.wireNs p k.frameLen) : State.dropNoFit p c d (n + 1) s = State.dropNoFit p c d n
    (((s.setLinePort p { s.linePort p with wait := Tbl.set [] (s.linePort p).wait c rest }).inc (TG_NOFIT.count p)).macDrop p k) := by
  simp only [State.dropNoFit, hw, if_neg (Nat.not_le.mpr hf)]

end NoFit

/-! ### The registers of a port's gates -/

/-- The address at offset `off` of the registers of port `p`'s gates. -/
def tgAddr (off p : Nat) : Nat := 0x260000 + off + 0x100 * p

/-- What a write of the word `v` at offset `off` of these registers does. -/
def State.tgHook (s : State) (p off v : Nat) : Option State :=
  match off with
  | 0x00 => some (s.writeTgCtl p v (bitOf v 10) (bitOf v 9))
  | 0x3C => some (s.gateEntry .bar0 p (bitOf v 1) (bitOf v 0))
  | _ => none

section TgAddr
variable {off p : Nat} (hp : p < 128) (ho : off < 0x100)
include hp ho

theorem tgAddr_bounds : 0x260000 ≤ tgAddr off p ∧ tgAddr off p < 0x268000 := by unfold tgAddr; omega

theorem tgAddr_port : (tgAddr off p - 0x260000) / 0x100 = p := by unfold tgAddr; omega

omit hp in
theorem tgAddr_offset : tgAddr off p % 0x100 = off := by unfold tgAddr; omega

theorem regAt_tg : regAt (tgAddr off p) = regsTG p off := by
  obtain ⟨hlo, hhi⟩ := tgAddr_bounds hp ho
  simp (disch := omega) only [regAt, if_neg, if_pos, tgAddr_port hp ho, tgAddr_offset ho]

theorem hook_tg (s : State) (mask v : Nat) : s.hook .bar0 (tgAddr off p) mask v v = s.tgHook p off v := by
  obtain ⟨hlo, hhi⟩ := tgAddr_bounds hp ho
  unfold State.hook State.hookQueues
  rw [if_neg (by omega), if_neg (by omega), if_pos (by omega), if_neg (by omega), if_pos (by omega), tgAddr_port hp ho, tgAddr_offset ho]
  rfl

/-- A write with an effect, of a register without a field that is cleared by ones, carries that effect out. -/
theorem State.poke_tg {s t : State} {v : Nat} {fs : List FldAcc} (hs : Open s) (h4 : off % 4 = 0) (hr : regsTG p off = .word fs)
    (hv : v < 2 ^ 32) (hc : s.clearOnes .bar0 v fs = s) (hk : s.tgHook p off v = some t) : s.poke (tgAddr off p) v = t := by
  obtain ⟨hlo, hhi⟩ := tgAddr_bounds hp ho
  have hal : tgAddr off p % 4 = 0 := by unfold tgAddr; omega
  have hfd : isFdAddr (tgAddr off p) = false := by
    simp only [isFdAddr, Bool.or_eq_false_iff, Bool.and_eq_false_iff, decide_eq_false_iff_not]; omega
  have hmsix : isMsix (tgAddr off p) = false := by
    simp only [isMsix, Bool.and_eq_false_iff, decide_eq_false_iff_not]; omega
  exact State.poke_open hs (accessOk_four (by omega) hal) hfd hmsix (by omega) ((regAt_tg hp ho).trans hr) hv hc ((hook_tg hp ho ..).trans hk)

end TgAddr

/-! ### TG_CTL -/

/-- A port's gates after a write of TG_CTL that keeps init_gates and gives enable the value `on`, before cancel and activate act. -/
def State.gateSwitched (s : State) (p : Nat) (on : Bool) : State :=
  let u := tgAsIs s p
  if u.bit (TG_CTL.enable p) != on then u.enableGate p on else if on then (u.applyGates p).leadGates p else u

theorem State.poke_tgCtl {s : State} {p : Nat} (hs : Open s) (hp : p < 128) (hf : Fits s (TG_CTL.init_gates p)) (on cancel activate : Bool) :
    s.poke (tgAddr 0 p) (s.tgWord p (b2n on) (b2n cancel * 2 ^ 10 + b2n activate * 2 ^ 9)) =
      let u := s.gateSwitched p on
      let u := if cancel then u.cancelGate p else u
      if activate then u.activateGate p else u := by
  have hinit : s.rd (TG_CTL.init_gates p) < 2 ^ 8 := hf
  obtain ⟨v, hv⟩ : ∃ v, s.tgWord p (b2n on) (b2n cancel * 2 ^ 10 + b2n activate * 2 ^ 9) = v := ⟨_, rfl⟩
  have hbits : v < 2 ^ 32 ∧ bitsAt v 0 8 = s.rd (TG_CTL.init_gates p) ∧ bitOf v 31 = on ∧ bitOf v 10 = cancel ∧ bitOf v 9 = activate := by
    simp only [← hv, State.tgWord, bitsAt, bitOf]
    cases on <;> cases cancel <;> cases activate <;> simp only [b2n, if_true, Bool.false_eq_true, if_false, beq_iff_eq, beq_eq_false_iff_ne] <;> omega
  obtain ⟨hlt, hgates, hon, hcancel, hactivate⟩ := hbits
  rw [hv]
  refine State.poke_tg hp (by decide) hs (by decide) rfl hlt rfl (congrArg some ?_)
  rw [hcancel, hactivate, State.writeTgCtl, hgates, hon]
  rfl

section TgCtl
variable {s : State} {p : Nat}

/-- init_gates and enable are fields of their own. -/
theorem tgAsIs_enable (s : State) (p : Nat) : (tgAsIs s p).rd (TG_CTL.enable p) = s.rd (TG_CTL.enable p) :=
  s.rd_wr_ne _ (by simp only [Fld.key, TG_CTL.enable, TG_CTL.init_gates]; omega)

theorem tgAsIs_bit {b : Bool} (he : s.rd (TG_CTL.enable p) = b2n b) : (tgAsIs s p).bit (TG_CTL.enable p) = b := by
  unfold State.bit
  rw [tgAsIs_enable, he]
  cases b <;> rfl

variable (hs : Open s) (hp : p < 128) (hf : Fits s (TG_CTL.init_gates p))
include hs hp hf

theorem exec_tgActivate {b : Bool} (he : s.rd (TG_CTL.enable p) = b2n b) :
    exec (.tgActivate p) s = .next ((s.gateSwitched p b).activateGate p) := by
  refine congrArg Host.Outcome.next ((if_pos hp).trans ?_)
  rw [he]
  exact (State.poke_tgCtl hs hp hf b false true).trans (by simp only [Bool.false_eq_true, if_false, if_true])

theorem exec_tgCancel {b : Bool} (he : s.rd (TG_CTL.enable p) = b2n b) :
    exec (.tgCancel p) s = .next ((s.gateSwitched p b).cancelGate p) := by
  refine congrArg Host.Outcome.next ((if_pos hp).trans ?_)
  rw [he]
  exact (State.poke_tgCtl hs hp hf b true false).trans (by simp only [Bool.false_eq_true, if_false, if_true])

theorem exec_tgDisable : exec (.tgDisable p) s = .next (s.gateSwitched p false) :=
  congrArg Host.Outcome.next ((if_pos hp).trans (State.poke_tgCtl hs hp hf false false false))

end TgCtl

/-! ### TG_ENTCMD (R335, R342) -/

section Entry
variable {s : State} {p : Nat} (hs : Open s) (hp : p < 128)
include hs hp

theorem State.poke_tgEntcmd {v : Nat} (hv : v < 2 ^ 32) : s.poke (tgAddr 0x3C p) v = s.gateEntry .bar0 p (bitOf v 1) (bitOf v 0) :=
  State.poke_tg hp (by decide) hs (by decide) rfl hv rfl rfl

theorem exec_tgEntryWrite : exec (.tgEntryWrite p) s =
    .next (s.putGateEntry p (s.rd (TG_ENTIDX.entry p)) (s.rd (TG_ENTGATES.gates p)) (s.rd (TG_ENTIVL.ns p))).2 :=
  congrArg Host.Outcome.next ((if_pos hp).trans (State.poke_tgEntcmd hs hp (v := 2) (by decide)))

theorem exec_tgEntryRead : exec (.tgEntryRead p) s =
    let x := (s.gate p).entry (if s.bit (TG_ENTIDX.bank p) then 1 - (s.gate p).admin else (s.gate p).admin) (s.rd (TG_ENTIDX.entry p))
    .next ((s.wr (TG_ENTGATES.gates p) x.1).wr (TG_ENTIVL.ns p) x.2) :=
  congrArg Host.Outcome.next ((if_pos hp).trans (State.poke_tgEntcmd hs hp (v := 1) (by decide)))

end Entry

section Put
variable {s : State} {p : Nat} (k gates ivl : Nat)

theorem State.putGateEntry_stored (h : (s.gate p).pend = none) : s.putGateEntry p k gates ivl =
    (true, s.setGate p { s.gate p with list := Tbl.set (0, 0) (s.gate p).list (1024 * (s.gate p).admin + k) (gates, ivl) }) :=
  if_neg (by rw [h]; exact Bool.false_ne_true)

theorem State.putGateEntry_refused (h : (s.gate p).pend ≠ none) :
    s.putGateEntry p k gates ivl = (false, (s.wr (TG_STAT.refused p) 1).wr (TG_STAT.reason p) 1) := if_pos (Option.isSome_iff_ne_none.mpr h)

end Put

end Sys2Proof.Machine

namespace Sys2Proof
open Machine Claims

/-- Settles O44: the writes of TG_CTL by what enable holds, a list's start by its distance from the base time, and each other command by the
state of the port's lists. -/
theorem timeGates : Obligations.TimeGates := by
  refine ⟨fun s p ho hp hf => ⟨fun he => ?off, fun he => ?on⟩, fun s p => State.activateGate_refused, fun s p h => ?start,
    fun s p hs => ?discard, fun s p st cyc n => exec_tgListStart, fun s p hp => ⟨if_pos hp, if_neg hp.not_ge⟩,
    fun s p => State.applyGates_noneOpens, fun s p c d n k rest hw => ⟨State.dropNoFit_fits hw, State.dropNoFit_drops hw⟩,
    fun s p ho hp => ?entry⟩
  case off =>
    have he' : s.rd (TG_CTL.enable p) = b2n false := he
    have hu : s.gateSwitched p false = tgAsIs s p := by simp [State.gateSwitched, tgAsIs_bit he']
    rw [exec_tgActivate ho hp hf he', exec_tgCancel ho hp hf he', exec_tgDisable ho hp hf, hu]
    exact ⟨rfl, rfl, rfl⟩
  case on =>
    have he' : s.rd (TG_CTL.enable p) = b2n true := he
    have hon : s.gateSwitched p true = ((tgAsIs s p).applyGates p).leadGates p := by simp [State.gateSwitched, tgAsIs_bit he']
    have hoff : s.gateSwitched p false = (tgAsIs s p).enableGate p false := by simp [State.gateSwitched, tgAsIs_bit he']
    rw [exec_tgActivate ho hp hf he', exec_tgCancel ho hp hf he', exec_tgDisable ho hp hf, hon, hoff]
    exact ⟨rfl, rfl, rfl⟩
  case start =>
    have hc : 0 < s.rd (TG_CYCLE.ns p) := Nat.lt_of_lt_of_le (by decide) (State.cycle_of_gateRefusal h)
    exact ⟨s.gateStart p, congrArg Gate.pend (State.gate_activateGate h), Nat.le_add_right .., State.gateStart_ge hc, State.gateStart_cycles,
      State.gateStart_lt hc, State.gateStart_base hc⟩
  case discard =>
    rw [State.gate_cancelGate hs, State.gate_enableGate_off hs]
    exact ⟨rfl, rfl, rfl⟩
  case entry =>
    rw [exec_tgEntryWrite ho hp, exec_tgEntryRead ho hp]
    refine ⟨fun h => ?_, fun h => ?_, rfl⟩
    · rw [State.putGateEntry_stored _ _ _ h]
    · rw [State.putGateEntry_refused _ _ _ h]

end Sys2Proof
end

section
/-! SUPPORT. The end of a taken descriptor (R350, R363, R368, R384): what its completion writes to the host, and what it leaves of the rings
and the executor. -/
namespace Sys2Proof.Machine

/-! ### DMA writes to the host -/

/-- The bytes that a DMA write has made, each cut to eight bits. -/
theorem State.hostByte_dmaWrite (l : List Nat) : ∀ {s : State} (_ : s.memOk = true) (a : Nat) {i : Nat}, i < l.length →
    ((s.dmaWrite a l).hostByte (a + i)).toNat = l[i]?.getD 0 % 256 := by
  induction l with
  | nil => exact fun _ _ _ hi => absurd hi (Nat.not_lt_zero _)
  | cons b l ih =>
    intro s h a i hi
    have h' := s.setHostByte_memOk h a (BitVec.ofNat 8 b)
    cases i with
    | zero =>
      rw [State.dmaWrite, Nat.add_zero a, State.dmaWrite_outside l _ _ _ (.inl a.lt_add_one), State.hostByte_set_self h,
        BitVec.toNat_ofNat]
      rfl
    | succ i =>
      rw [State.dmaWrite, show a + (i + 1) = a + 1 + i by omega, ih h' (a + 1) (Nat.lt_of_succ_lt_succ hi)]
      rfl

/-- While no DMA can be issued a write is held, last of those held (R350). -/
theorem State.hostWrite_held {s : State} (hd : s.dmaOk = false) (r a : Nat) (b : List Nat) :
    s.hostWrite r a b = { s with hif := { s.hif with held := s.hif.held ++ [⟨r, a, b⟩] } } := by simp [State.hostWrite, hd]

@[simp] theorem State.hostWrite_exec (s : State) (r a : Nat) (b : List Nat) : (s.hostWrite r a b).hif.exec = s.hif.exec := by
  unfold State.hostWrite
  split
  · obtain ⟨m, hm⟩ := s.dmaWrite_rest b a
    rw [hm]
  · rfl

@[simp] theorem State.hostWrite_ring (s : State) (r a : Nat) (b : List Nat) (q : Nat) : (s.hostWrite r a b).ring q = s.ring q := by
  unfold State.ring; rw [State.hostWrite_rings]

/-! ### Registers and page requests -/

/-- The register table and the page requests replaced. -/
def State.withRequests (s : State) (rg : Tbl Nat) (q : List PageReq) : State :=
  { s with regs := rg, hif := { s.hif with requests := q } }

@[simp] theorem State.withRequests_ring (s : State) (rg : Tbl Nat) (q : List PageReq) (r : Nat) :
    (s.withRequests rg q).ring r = s.ring r := rfl

theorem State.withRequests_self (s : State) : s.withRequests s.regs s.hif.requests = s := rfl

/-! ### A completion in the native form (R363) -/

/-- A native completion takes 32 bytes. -/
theorem cplBytes_length {g : Ring} (hg : g.nz5 = false) (t : Taken) (c : Cpl) : (cplBytes g t c).length = 32 := by
  cases hd : c.data <;> simp [cplBytes, hg, hd, leBytes_length, sliceB_length]

/-- Where the completion of `t` stands on a ring of the native form. -/
def cplAddr (g : Ring) (t : Taken) : Nat := g.cplBase + 32 * (t.index % g.size)

/-- The completion of `t` written to the host of ring `r`, or held. -/
def State.cplWritten (s : State) (r : Nat) (t : Taken) (c : Cpl) : State := s.hostWrite r (cplAddr (s.ring r) t) (cplBytes (s.ring r) t c)

/-- A ring whose completed index is one past that of `t`. -/
def Ring.completing (g : Ring) (t : Taken) : Ring := { g with completed := (t.index + 1) % 65536 }

section Quiet
variable {s : State} {r : Nat} {t : Taken} (hn : (s.ring r).nz5 = false) (hq : t.irq = false)
include hn hq

/-- Beside the write to the host and the completed index a completion without interrupt flag changes counters and page requests alone. -/
theorem State.writeCpl_quiet (c : Cpl) :
    ∃ rg q, s.writeCpl r t c = ((s.cplWritten r t c).withRequests rg q).setRing r ((s.ring r).completing t) := by
  unfold State.writeCpl
  extract_lets g esz s1 s2 s3 s4 g' s5
  have h1 : s1 = s.cplWritten r t c := by simp only [s1, esz, g, hn]; rfl
  obtain ⟨rg2, h2⟩ : ∃ rg, s2 = { s1 with regs := rg } := by
    by_cases he : c.written g = .expired
    · exact ⟨_, if_pos he⟩
    · exact ⟨_, if_neg he⟩
  obtain ⟨rg3, h3⟩ : ∃ rg, s3 = { s2 with regs := rg } := by
    by_cases he : c.written g = .faulted
    · exact ⟨_, if_pos he⟩
    · exact ⟨_, if_neg he⟩
  obtain ⟨q, h4⟩ : ∃ q, s4 = s3.withRequests s3.regs q := by
    by_cases he : t.st = .parked
    · exact ⟨_, if_pos he⟩
    · exact ⟨_, if_neg he⟩
  have hs4 : s4 = (s.cplWritten r t c).withRequests rg3 q := by rw [h4, h3, h2, h1]; rfl
  have hg : g' = s.ring r := by simp only [g', hs4, State.withRequests_ring]; exact State.hostWrite_ring ..
  refine ⟨rg3, q, ?_⟩
  rw [hq, if_neg Bool.false_ne_true]
  simp only [s5, hs4, hg]
  rfl

variable (hrings : Tbl.risingFrom 0 s.hif.rings = true)
include hrings

/-- The end of a taken descriptor: its completion, the ring free of it, and the executor free where it ran it. -/
theorem State.endTaken_quiet (c : Cpl) : ∃ rg q, s.endTaken r t c =
    let u := (((s.cplWritten r t c).withRequests rg q).setRing r ((s.ring r).completing t)).setRing r ((s.ring r).completing t).freed
    { u with hif := { u.hif with exec := if s.hif.exec = some r then none else s.hif.exec } } := by
  obtain ⟨rg, q, h⟩ := State.writeCpl_quiet hn hq c
  have hw : Tbl.risingFrom 0 ((s.cplWritten r t c).withRequests rg q).hif.rings = true :=
    (congrArg (Tbl.risingFrom 0) (State.hostWrite_rings ..)).trans hrings
  have he : (s.cplWritten r t c).hif.exec = s.hif.exec := State.hostWrite_exec ..
  refine ⟨rg, q, ?_⟩
  unfold State.endTaken
  dsimp only
  rw [h, State.ring_setRing hw, ← he]
  split
  · next hx => rw [if_pos (show (s.cplWritten r t c).hif.exec = some r from hx)]
  · next hx => rw [if_neg (show ¬(s.cplWritten r t c).hif.exec = some r from hx)]; rfl

theorem State.endTaken_ring (c : Cpl) : (s.endTaken r t c).ring r = ((s.ring r).completing t).freed := by
  obtain ⟨rg, q, h⟩ := State.endTaken_quiet hn hq hrings c
  have hw : Tbl.risingFrom 0 ((s.cplWritten r t c).withRequests rg q).hif.rings = true :=
    (congrArg (Tbl.risingFrom 0) (State.hostWrite_rings ..)).trans hrings
  rw [h]
  exact State.ring_setRing (s := ((s.cplWritten r t c).withRequests rg q).setRing r ((s.ring r).completing t)) (Tbl.rising_set _ _ _ hw) r _

theorem State.endTaken_ring_ne (c : Cpl) {e : Nat} (he : e ≠ r) : (s.endTaken r t c).ring e = s.ring e := by
  obtain ⟨rg, q, h⟩ := State.endTaken_quiet hn hq hrings c
  rw [h]
  exact (State.ring_setRing_ne _ _ he).trans ((State.ring_setRing_ne _ _ he).trans (State.hostWrite_ring ..))

theorem State.endTaken_exec (c : Cpl) : (s.endTaken r t c).hif.exec = if s.hif.exec = some r then none else s.hif.exec := by
  obtain ⟨rg, q, h⟩ := State.endTaken_quiet hn hq hrings c
  rw [h]

theorem State.endTaken_hostMem (c : Cpl) : (s.endTaken r t c).hostMem = (s.cplWritten r t c).hostMem := by
  obtain ⟨rg, q, h⟩ := State.endTaken_quiet hn hq hrings c
  rw [h]
  rfl

theorem State.endTaken_held (c : Cpl) : (s.endTaken r t c).hif.held = (s.cplWritten r t c).hif.held := by
  obtain ⟨rg, q, h⟩ := State.endTaken_quiet hn hq hrings c
  rw [h]
  rfl

end Quiet

/-! ### The end of a descriptor as a whole (R368, R384) -/

/-- The executor runs no RING_STOP that waits. -/
def State.NoStopWaits (s : State) : Prop :=
  s.hif.exec.all (fun e => (s.ring e).taken.all (fun v => v.op != 0x11 || !v.waits)) = true

theorem State.stopReached_none {s : State} (h : s.NoStopWaits) (r : Nat) : s.stopReached r = s := by
  unfold State.NoStopWaits at h
  unfold State.stopReached
  cases he : s.hif.exec with
  | none => rfl
  | some e =>
    cases ht : (s.ring e).taken with
    | none => simp only [ht]
    | some v =>
      simp only [he, ht, Option.all_some, Bool.or_eq_true, bne_iff_ne, Bool.not_eq_true'] at h
      simp only [ht]
      exact if_neg fun ⟨hop, hw, _⟩ => h.elim (fun hne => hne hop) (fun hf => Bool.false_ne_true (hf.symm.trans hw))

/-- Where no RING_STOP waits, the descriptor's end is all that its completion brings. -/
theorem State.finish_quiet {s : State} {r : Nat} {t : Taken} (ht : (s.ring r).taken = some t) (hn : (s.ring r).nz5 = false)
    (hq : t.irq = false) (hrings : Tbl.risingFrom 0 s.hif.rings = true) (hs : s.NoStopWaits) (c : Cpl) :
    s.finish r c = s.endTaken r t c := by
  have hw : (s.endTaken r t c).NoStopWaits := by
    unfold State.NoStopWaits at hs ⊢
    rw [State.endTaken_exec hn hq hrings]
    split
    · rfl
    · next he =>
      cases hx : s.hif.exec with
      | none => rfl
      | some e =>
        have hne : e ≠ r := fun h => he (by rw [hx, h])
        simpa only [hx, Option.all_some, State.endTaken_ring_ne hn hq hrings c hne] using hs
  unfold State.finish
  rw [ht]
  exact State.stopReached_none hw r

/-- The executor's RING_STOP that waits for the ring ends with it. -/
theorem State.finish_stop {s : State} {r e : Nat} {t v : Taken} {c : Cpl} (ht : (s.ring r).taken = some t)
    (he : (s.endTaken r t c).hif.exec = some e) (hv : ((s.endTaken r t c).ring e).taken = some v) (hop : v.op = 0x11)
    (hw : v.waits = true) (hf : v.f 16 2 = r) (hst : ((s.endTaken r t c).ring r).st = .stopped) :
    s.finish r c = (s.endTaken r t c).endTaken e v { status := .done, detail := 0, progress := 1 } := by
  unfold State.finish State.stopReached
  simp only [ht, he, hv]
  exact if_pos ⟨hop, hw, hf, hst⟩

end Sys2Proof.Machine

namespace Sys2Proof
open Machine Claims

/-- Settles O30: the completion is one write to the host and one update of the ring, and only a RING_STOP that waits adds its own end. -/
theorem completionsAreWritten : Obligations.CompletionsAreWritten := by
  refine ⟨fun s r t c hrings hmem ht hn hq hs => ?own, fun s r t c e v ht => State.finish_stop ht⟩
  have hlen := cplBytes_length hn t c
  have hring := State.endTaken_ring hn hq hrings c
  have hm := State.endTaken_hostMem hn hq hrings c
  dsimp only
  rw [State.finish_quiet ht hn hq hrings hs c, hring]
  refine ⟨rfl, rfl, ?exec, rfl, fun hd hh => ?write, fun hd => ?hold⟩
  case exec =>
    rw [State.endTaken_exec hn hq hrings]
    split
    · exact nofun
    · assumption
  case write =>
    rw [State.cplWritten, State.hostWrite_now hd hh] at hm
    have hbyte : ∀ b, (s.endTaken r t c).hostByte b = (s.dmaWrite (cplAddr (s.ring r) t) (cplBytes (s.ring r) t c)).hostByte b :=
      fun b => congrArg (Tbl.get (0 : Byte) · b) hm
    refine ⟨(congrArg Memory.wf hm).trans (State.dmaWrite_memOk _ hmem _), fun i hi => ?_, fun b hb => ?_⟩
    · exact (congrArg BitVec.toNat (hbyte _)).trans (State.hostByte_dmaWrite _ hmem _ (hlen ▸ hi))
    · exact (hbyte b).trans (State.dmaWrite_outside _ s _ b (hlen ▸ hb))
  case hold =>
    rw [hm, State.endTaken_held hn hq hrings, State.cplWritten, State.hostWrite_held hd]
    exact ⟨rfl, rfl⟩

end Sys2Proof
end

section
/-! SUPPORT. Accesses over BAR0 that reach no register (R351, R648, R653), and the write of GEN_SEAL (R652). -/
namespace Sys2Proof.Machine
open Sys2Proof.Claims

/-- A counter with another key leaves a bit as it reads. -/
theorem State.bit_inc_ne (s : State) {f g : Fld} (h : g.key ≠ f.key) : (s.inc f).bit g = s.bit g :=
  congrArg (· != 0) (s.rd_wr_ne _ h)

/-- HIF_BADACC counts, and the seal stays as it is. -/
theorem State.badAccess_seal (s : State) : (s.inc HIF_BADACC.count).bit GEN_SEAL.sealed = s.bit GEN_SEAL.sealed :=
  s.bit_inc_ne (by decide)

section Write
variable {s : State} {a : Nat} (v : Nat)

/-- R351: a write of another size or alignment. -/
theorem State.bar0Write_misfit {size : Nat} (ha : accessOk a size = false) (hs : s.bit GEN_SEAL.sealed = false) :
    s.bar0Write a size v = s.inc HIF_BADACC.count := by
  simp [State.bar0Write, ha, State.badAccess_seal, hs]

theorem State.bar0Write_four (ha : accessOk a 4 = true) : s.bar0Write a 4 v = s.bar0Word a (v % 2 ^ 32) := by
  simp [State.bar0Write, ha]

/-- R648: a write of a reserved address. -/
theorem State.bar0Word_reserved (hs : Reached s) (hr : isReserved a = true) : s.bar0Word a v = s.inc HIF_BADACC.count := by
  obtain ⟨hrec, hready, hseal⟩ := hs
  simp [State.bar0Word, hrec, hready, hr, State.badAccess_seal, hseal]

/-- R653: after sealing a write of a register of which no bit is kept. -/
theorem State.bar0Word_sealed (hrec : s.pwr.recovery = false) (hready : s.bit GEN_BOOTSTAT.ready = true)
    (hs : s.bit GEN_SEAL.sealed = true) (hr : isReserved a = false) (hk : s.keptBits a = 0) : s.bar0Word a v = s.sealViolation a := by
  simp [State.bar0Word, hrec, hready, hr, hs, hk]

/-- R591: before ready a write reaches GEN_RSTCTL alone. -/
theorem State.bar0Word_notReady (h : s.bit GEN_BOOTSTAT.ready = false) (ha : a ≠ 0x10C) : s.bar0Word a v = s := by
  simp [State.bar0Word, h, ha]

end Write

/-! ### Reads -/

theorem State.bar0ReadN_misfit {s : State} {a size : Nat} (ha : accessOk a size = false) :
    s.bar0ReadN a size = { s.inc HIF_BADACC.count with readData := 0 } := by
  rw [State.bar0ReadN, ha]
  rfl

/-- The row stands for a BAR0 read of any register. -/
theorem exec_bar0ReadN (a size : Nat) (s : State) : exec (.pairLowWordRead false a size) s = .next (s.bar0ReadN a size) := by
  show execPairLowWordRead false a size s = _
  unfold execPairLowWordRead
  split <;> rfl

theorem isMsix_of_reserved {a : Nat} (h : isReserved a = true) : isMsix a = false := by
  simp only [isReserved, Bool.and_eq_true, Bool.not_eq_true'] at h
  exact h.1

theorem regAt_of_reserved {a : Nat} (h : isReserved a = true) (h4 : a % 4 = 0) : regAt a = .none := by
  simp only [isReserved, Bool.and_eq_true, Bool.or_eq_true, beq_iff_eq, bne_iff_ne] at h
  exact h.2.resolve_right fun hn => hn h4

/-- R648: a read of a reserved address. -/
theorem State.regRead_reserved (s : State) (p : Path) {a : Nat} (h : isReserved a = true) (h4 : a % 4 = 0) : s.regRead p a = (0, s) := by
  unfold State.regRead
  simp only [s.msixAt_none (isMsix_of_reserved h), regAt_of_reserved h h4]

/-! ### GEN_SEAL (R652) -/

/-- A write of GEN_SEAL by its key and its bit. -/
theorem State.poke_seal {s : State} (ho : Open s) {v : Nat} (hv : v < 2 ^ 32) : s.poke 0x20 v = s.writeSeal v :=
  State.poke_open ho (by decide) (by decide) (by decide) (by decide) rfl hv rfl rfl

theorem exec_genSeal {s : State} (ho : Open s) (v : Nat) : exec (.genSeal v) s = .next (s.writeSeal (v % 2 ^ 32)) := by
  have hp : s.poke 0x20 v = s.poke 0x20 (v % 2 ^ 32) := by unfold State.poke; rw [Nat.mod_mod]
  exact congrArg Host.Outcome.next (hp.trans (State.poke_seal ho (Nat.mod_lt _ (by decide))))

theorem State.writeSeal_set {s : State} {v : Nat} (hr : s.bit GEN_BOOTSTAT.ready = true) (hk : bitsAt v 16 16 = 0x5EA1)
    (hb : bitOf v 0 = true) : s.writeSeal v = s.wr GEN_SEAL.sealed 1 := if_pos ⟨hk, hb, hr⟩

theorem State.writeSeal_ignored {s : State} {v : Nat} (h : bitsAt v 16 16 ≠ 0x5EA1 ∨ bitOf v 0 = false) : s.writeSeal v = s :=
  if_neg fun ⟨hk, hb, _⟩ => h.elim (fun hn => hn hk) (fun hn => Bool.false_ne_true (hn.symm.trans hb))

end Sys2Proof.Machine

namespace Sys2Proof
open Machine Claims

/-- R351, R648 and R653: each refused access by the check that refuses it. -/
theorem refusedRegisterAccesses : Claims.RefusedRegisterAccesses := by
  refine ⟨fun s a size v ha hs => ?_, fun s a v hs ha hr => ?_, fun s a size ha => ?_, fun s p a hr h4 => s.regRead_reserved p hr h4,
    fun s a v hrec hready hs ha hr hk => ?_⟩
  · rw [exec_bar0RegisterWrite, State.bar0Write_misfit v ha hs]
  · rw [exec_bar0RegisterWrite, State.bar0Write_four v ha, State.bar0Word_reserved _ hs hr]
  · rw [exec_bar0ReadN, State.bar0ReadN_misfit ha]
  · rw [exec_bar0RegisterWrite, State.bar0Write_four v ha, State.bar0Word_sealed _ hrec hready hs hr hk]
    rfl

/-- R652: the key and the bit seal, anything else and an early write do nothing. -/
theorem sealingByKey : Claims.SealingByKey := by
  refine ⟨fun s ho => ?set, fun s v ho hv => ?ignored, fun s v hr => ?early⟩
  case set =>
    rw [exec_genSeal ho, State.writeSeal_set ho.1.2.1 (by decide) (by decide)]
  case ignored =>
    have hb : bitsAt (v % 2 ^ 32) 16 16 ≠ 0x5EA1 ∨ bitOf (v % 2 ^ 32) 0 = false := hv.imp_right fun h0 => by simp [bitOf]; omega
    rw [exec_genSeal ho, State.writeSeal_ignored hb]
  case early =>
    exact congrArg Host.Outcome.next ((State.bar0Write_four _ (by decide)).trans (State.bar0Word_notReady _ hr (by decide)))

/-- Settles O10: each access meets the check that refuses it before it reaches a register, and GEN_SEAL takes its key alone. -/
theorem refusalsAndSealing : Obligations.RefusalsAndSealing := ⟨refusedRegisterAccesses, sealingByKey⟩

end Sys2Proof
end

section
/-! SUPPORT. The choice of the executor, timers of descriptors and rings, DMA errors, translation faults and parking (R365 to R382). -/
namespace Sys2Proof.Machine
open Sys2Proof.Claims

/-! ### DESCRIPTOR_TAKE and NOP (R365, R367, R371) -/

/-- R367: the choice among all classes is that of the highest class that has one. -/
theorem State.pick_highest {s : State} {p : Pick} (h : s.pick 0 = some p) :
    ∃ c, c < 4 ∧ s.pickClass c = some p ∧ ∀ d, c < d → d < 4 → s.pickClass d = none := by
  obtain ⟨above, c, below, hl, hc, hnone⟩ := List.findSome?_eq_some_iff.mp (show [3, 2, 1, 0].findSome? s.pickClass = some p from h)
  have hmem : ∀ d, d ∈ above ++ c :: below ↔ d < 4 := fun d => by rw [← hl]; simp; omega
  have hdown : (above ++ c :: below).Pairwise (· > ·) := hl ▸ by decide
  refine ⟨c, (hmem c).mp (by simp), hc, fun d hcd hd => hnone d ?_⟩
  have hbelow := (List.pairwise_cons.mp (List.pairwise_append.mp hdown).2.1).1
  rcases List.mem_append.mp ((hmem d).mpr hd) with hd | hd
  · exact hd
  · rcases List.mem_cons.mp hd with rfl | hd
    · exact absurd hcd (Nat.lt_irrefl d)
    · exact absurd (hbelow d hd) (Nat.lt_asymm hcd)

theorem exec_descriptorTake_idle {s : State} {p : Pick} (he : s.hif.exec = none) (hp : s.pick 0 = some p) :
    exec .descriptorTake s = .next (s.runPick p) := by
  show execDescriptorTake s = _
  simp only [execDescriptorTake, he, hp]

/-- R371: a running bulk descriptor gives way to a higher class. -/
theorem exec_descriptorTake_outranked {s : State} {r : Nat} {t : Taken} {p : Pick} (he : s.hif.exec = some r)
    (ht : (s.ring r).taken = some t) (hb : isBulk t.op = true) (hw : t.waits = false) (hp : s.pick ((s.ring r).cls + 1) = some p) :
    exec .descriptorTake s =
      let u := s.inc HIF_PREEMPT.count
      if t.yields && !(s.ring r).nz5 then .next ((u.finishTok r .preempted dYIELD t.progress 0).runPick p)
      else
        let v := u.updTaken r (fun t => { t with st := .preempted })
        .next (({ v with hif := { v.hif with exec := none } } : State).runPick p) := by
  show execDescriptorTake s = _
  simp only [execDescriptorTake, he, ht, hb, hw, hp]
  rfl

theorem exec_nopDescriptor {s : State} {r : Nat} {t : Taken} (h : s.running 0x00 = some (r, t)) (hk : (s.ring r).kind = 1) :
    exec (.nopDescriptor r) s = .next (s.finDone r) := by
  show execNopDescriptor r s = _
  simp only [execNopDescriptor, hk, h, if_true]

/-! ### Timers (R376 to R378) -/

section Timers
variable {s : State} {r : Nat} {t : Taken} (ht : (s.ring r).taken = some t)
include ht

/-- R376: a descriptor past ttl_ms at an entry boundary. -/
theorem exec_ttlExpire (hne : t.ttl ≠ 0) (hn : (s.ring r).nz5 = false) (hdue : t.takenAt + t.ttl * 1000000 ≤ s.clk)
    (hb : (isBulk t.op = true ∧ t.waits = false) ∨ t.st ≠ .running) :
    exec (.ttlExpire r) s = .next (s.finishTok r .expired dTTL t.progress 0) := by
  have hd : s.ttlDue (s.ring r) t = true := by
    simp only [State.ttlDue, hn, ms, State.elapsed_of_le hdue, bne_iff_ne.mpr hne, Bool.not_false, Bool.and_self]
  show execTtlExpire r s = _
  simp only [execTtlExpire, ht]
  exact if_pos ⟨hd, by simpa using hb⟩

/-- R377: a descriptor past desc_ms without an entry boundary. -/
theorem exec_descNoProgress (hx : s.hif.exec = some r ∨ (s.ring r).kind = 4) (hst : t.st = .running)
    (hdue : t.stepAt + s.rd HIF_TIMEOUTS.desc_ms * 1000000 ≤ s.clk) : exec (.descNoProgress r) s =
      let u := s.abandon r t
      let n := (u.ring r).progWord
      .next ((u.finishTok r .expired dNO_PROGRESS n 0).post 0x0804 (leBytes 2 r ++ [t.op, 0] ++ leBytes 4 n)) := by
  show execDescNoProgress r s = _
  simp only [execDescNoProgress, ht]
  exact if_pos ⟨hst, hx, State.elapsed_of_le hdue⟩

theorem progWord_taken : (s.ring r).progWord = t.progress := by simp only [Ring.progWord, ht]

end Timers

/-- R377: an entry that waits for no unit is abandoned without a trace. -/
theorem State.abandon_none (s : State) (r : Nat) {t : Taken} (h50 : t.op ≠ 0x50) (h70 : t.op ≠ 0x70) (hw : t.waits = false) :
    s.abandon r t = s := by
  simp [State.abandon, h50, h70, hw]

/-- Up to 16 descriptors of ring `g` from its head, as the host holds them (R361). -/
def State.readAhead (s : State) (g : Ring) : List (List Nat) :=
  (List.range (min 16 g.used)).map (fun k => s.dmaRead (g.base + 64 * ((g.head + k) % g.size)) 64)

section Stall
variable {s : State} {r : Nat} (hst : (s.ring r).st = .running)
  (hdue : (s.ring r).lastTake + s.rd HIF_TIMEOUTS.stall_ms * 1000000 ≤ s.clk)
include hst hdue

/-- R378: a request ring from which nothing is taken reads ahead again. -/
theorem exec_ringStall_request (hk : isRequest (s.ring r).kind = true) (hh : (s.ring r).head ≠ (s.ring r).tail)
    (ht : (s.ring r).taken = none) (hb : (s.ring r).buffers = []) (hd : s.dmaOk = true) : exec (.ringStall r) s =
      .next ((s.setRing r { s.ring r with ahead := s.readAhead (s.ring r), lastTake := s.clk }).post 0x0803
        (leBytes 2 r ++ [(s.ring r).kind])) :=
  if_pos ⟨hst, State.elapsed_of_le hdue, hk, hh, by rw [ht]; rfl, by rw [hb]; rfl, hd⟩

/-- R378: a record ring that stays full. -/
theorem exec_ringStall_record (hk : isRequest (s.ring r).kind = false) (hroom : (s.ring r).room = 0) (hsaid : (s.ring r).stallSaid = false) :
    exec (.ringStall r) s =
      .next ((s.setRing r { s.ring r with stallSaid := true }).post 0x0803 (leBytes 2 r ++ [(s.ring r).kind])) :=
  (if_neg fun h => Bool.false_ne_true (hk.symm.trans h.2.2.1)).trans
    (if_pos ⟨hst, State.elapsed_of_le hdue, by rw [hk]; rfl, hroom, by rw [hsaid]; rfl⟩)

end Stall

/-! ### Page requests (R380, R382) -/

/-- All that the sending of page requests can change: its counter and the requests. -/
theorem State.sendRequests_only : ∀ (n : Nat) (s : State), ∃ rg q, s.sendRequests n = s.withRequests rg q
  | 0, s => ⟨_, _, s.withRequests_self.symm⟩
  | n + 1, s => by
    unfold State.sendRequests
    split
    · exact ⟨_, _, s.withRequests_self.symm⟩
    · split
      · obtain ⟨rg, q, h⟩ := State.sendRequests_only n (s.withRequests (s.inc HIF_PRIREQ.count).regs
          (s.hif.requests.modify ‹Nat› (fun q => { q with sent := true })))
        exact ⟨rg, q, h⟩
      · exact ⟨_, _, s.withRequests_self.symm⟩

theorem State.pageRequest_only (s : State) (r addr : Nat) : ∃ rg q, s.pageRequest r addr = s.withRequests rg q := by
  obtain ⟨rg, q, h⟩ := State.sendRequests_only 1 (s.withRequests s.regs (s.hif.requests ++
    [{ ring := r, pasid := if (s.ring r).pasidEn then some (s.ring r).pasid else none, page := addr / 4096, sent := false }]))
  exact ⟨rg, q, h⟩

theorem State.requestDone_only (s : State) (i : Nat) : ∃ rg q, s.requestDone i = s.withRequests rg q := by
  obtain ⟨rg, q, h⟩ := State.sendRequests_only (s.hif.requests.eraseIdx i).length (s.withRequests s.regs (s.hif.requests.eraseIdx i))
  exact ⟨rg, q, h⟩

@[simp] theorem State.requestDone_ring (s : State) (i r : Nat) : (s.requestDone i).ring r = s.ring r := by
  obtain ⟨rg, q, h⟩ := s.requestDone_only i
  rw [h, State.withRequests_ring]

/-! ### DMA errors and translation faults (R379, R380) -/

/-- A ring that is not OFF reads as it was stored, whatever the form of the table. -/
theorem State.ring_setRing_listed (s : State) (r : Nat) {g : Ring} (h : g.st ≠ .off) : (s.setRing r g).ring r = g := by
  have hg : g ≠ {} := fun he => h (by rw [he])
  show Tbl.get {} (Tbl.set {} s.hif.rings r g) r = g
  rw [Tbl.set, if_neg hg]
  exact Tbl.get_ins_self {} s.hif.rings r g

@[simp] theorem jobEnded_hif (t : Taken) (s : State) : (jobEnded t s).hif = s.hif := by
  unfold jobEnded
  split <;> rfl

@[simp] theorem jobEnded_ring (t : Taken) (s : State) (r : Nat) : (jobEnded t s).ring r = s.ring r := by
  unfold State.ring; rw [jobEnded_hif]

@[simp] theorem jobEnded_clk (t : Taken) (s : State) : (jobEnded t s).clk = s.clk := by
  unfold jobEnded
  split <;> rfl

section Faults
variable {s : State} {r : Nat} {t : Taken} (ht : (s.ring r).taken = some t) (hst : t.st = .running) (hw : t.waits = false)
include ht hst hw

theorem State.faultable_running : s.faultable r = true := by simp [State.faultable, ht, hst, hw]

theorem exec_dmaTimeout (addr : Nat) (error : Bool) : exec (.dmaTimeout r addr error) s =
    .next ((jobEnded t s).finishTok r .faulted (if error then dDMA_ERROR else dDMA_TIMEOUT) t.progress addr) := by
  have hf : s.takeForFault r = s := by simp [State.takeForFault, ht]
  show execDmaTimeout r addr error s = _
  simp only [execDmaTimeout, State.faultable_running ht hst hw, hf, ht, if_true]
  rfl

theorem exec_translationFault (hd : s.dmaOk = true) (addr : Nat) :
    exec (.translationFault r addr) s = .next (s.faultTaken r addr t) := by
  have hf : s.takeForFault r = s := by simp [State.takeForFault, ht]
  show execTranslationFault r addr s = _
  simp only [execTranslationFault, hd, State.faultable_running ht hst hw, hf, ht, if_true, Bool.not_true, Bool.false_eq_true, if_false]

end Faults

/-- R380: without PRI. -/
theorem State.faultTaken_noPri {s : State} (h : s.priOn = false) (r addr : Nat) (t : Taken) :
    s.faultTaken r addr t = (jobEnded t s).finishTok r .faulted dTRANSLATION t.progress addr := by
  have hp : (jobEnded t s).priOn = false := by unfold State.priOn at h ⊢; rw [jobEnded_hif, h]
  exact if_pos (by rw [← jobEnded, hp]; rfl)

/-- The descriptor of ring `r` is parked, its page requested, and the ring PARKED (R380). -/
def State.parked (s : State) (r addr : Nat) : State := ((s.updTaken r (fun t => t.park addr s.clk)).pageRequest r addr).parkRing r

theorem State.parked_st {s : State} {r : Nat} (h : (s.ring r).st = .running) (addr : Nat) : ((s.parked r addr).ring r).st = .parked := by
  obtain ⟨rg, q, hp⟩ := (s.updTaken r (fun t => t.park addr s.clk)).pageRequest_only r addr
  have hu : ((s.updTaken r (fun t => t.park addr s.clk)).ring r).st = .running := by
    rw [State.updTaken, State.ring_setRing_listed _ _ (by rw [h]; decide)]
    exact h
  unfold State.parked State.parkRing
  dsimp only
  rw [hp, State.withRequests_ring, hu, State.ring_setRing_listed _ _ (show RingSt.parked ≠ .off by decide)]
  rfl

@[simp] theorem State.parked_exec (s : State) (r addr : Nat) : (s.parked r addr).hif.exec = s.hif.exec := by
  obtain ⟨rg, q, hp⟩ := (s.updTaken r (fun t => t.park addr s.clk)).pageRequest_only r addr
  unfold State.parked
  rw [hp]
  rfl

/-- R380: with PRI, on a ring that runs. -/
theorem State.faultTaken_parks {s : State} {r : Nat} (hp : s.priOn = true) (hx : s.hif.exec = some r) (hst : (s.ring r).st = .running)
    (addr : Nat) (t : Taken) :
    s.faultTaken r addr t = { (jobEnded t s).parked r addr with hif := { ((jobEnded t s).parked r addr).hif with exec := none } } := by
  have hp' : (jobEnded t s).priOn = true := by unfold State.priOn at hp ⊢; rw [jobEnded_hif, hp]
  have hx' : ((jobEnded t s).parked r addr).hif.exec = some r := by rw [State.parked_exec, jobEnded_hif, hx]
  have hst' : (((jobEnded t s).parked r addr).ring r).st = .parked := State.parked_st (by rw [jobEnded_ring, hst]) addr
  have hrun : s.faultTaken r addr t =
      let u := (jobEnded t s).parked r addr
      let v : State := if u.hif.exec = some r then { u with hif := { u.hif with exec := none } } else u
      if (v.ring r).st = .stopping then v.endByStop r else v := if_neg (by rw [← jobEnded, hp']; decide)
  rw [hrun]
  generalize (jobEnded t s).parked r addr = u at hx' hst'
  dsimp only
  rw [if_pos hx']
  exact if_neg fun h => RingSt.noConfusion (hst'.symm.trans h)

/-! ### Page responses and parking (R381, R382) -/

/-- R382: a response without a request. -/
theorem exec_pageResponse_none {s : State} {r : Nat} (h : s.hif.requests.findIdx? (fun q => q.ring == r && q.sent) = none) (ok : Bool) :
    exec (.pageResponse r ok) s = .next s := by
  show execPageResponse r ok s = _
  simp only [execPageResponse, h]

/-- R381: the response to the ring's one request. -/
theorem exec_pageResponse {s : State} {r i : Nat} (h : s.hif.requests.findIdx? (fun q => q.ring == r && q.sent) = some i)
    (hone : (s.hif.requests.filter (fun q => q.ring == r)).length = 1) (ok : Bool) : exec (.pageResponse r ok) s =
      let u := s.requestDone i
      .next (if ok then (u.setRing r (u.ring r).paged).tryUnpark r else u.endParked r dTRANSLATION) := by
  show execPageResponse r ok s = _
  simp only [execPageResponse, h, hone]
  cases ok <;> rfl

section Parked
variable {s : State} {r : Nat} {t : Taken} (ht : (s.ring r).taken = some t) (hst : t.st = .parked)
include ht hst

theorem State.endParked_taken (d : Nat) : s.endParked r d = s.finishTok r .faulted d t.progress t.faultAddr := by
  simp only [State.endParked, ht, hst, if_true]

/-- R382: a descriptor parked for park_ms. -/
theorem exec_parkTimeout (hdue : t.parkedAt + s.rd HIF_PRICFG.park_ms * 1000000 ≤ s.clk) :
    exec (.parkTimeout r) s = .next (s.finishTok r .faulted dPRI_TIMEOUT t.progress t.faultAddr) := by
  have hp : (s.ring r).parkedSince = some t.parkedAt := by simp only [Ring.parkedSince, ht, hst, if_true]
  show execParkTimeout r s = _
  simp only [execParkTimeout, hp]
  exact congrArg Host.Outcome.next ((if_pos (State.elapsed_of_le hdue)).trans (State.endParked_taken ht hst _))

/-- R381: page and doorbell have both come, on a command ring that is PARKED. -/
theorem State.tryUnpark_ready (hg : t.gotPage = true) (hb : t.gotBell = true) (hk : (s.ring r).kind = 1) (hr : (s.ring r).st = .parked) :
    s.tryUnpark r = s.setRing r { s.ring r with taken := some { t with st := .ready }, st := .running } := by
  simp only [State.tryUnpark, ht, hst, hg, hb, hk, hr, and_self, if_true]

end Parked

theorem Ring.paged_taken {g : Ring} {t : Taken} (ht : g.taken = some t) (hst : t.st = .parked) :
    g.paged.taken = some { t with gotPage := true } := by
  simp only [Ring.paged, ht, Option.map_some, hst, if_true]

end Sys2Proof.Machine

namespace Sys2Proof
open Machine Claims

/-- Settles O33: the executor's choice as the first class from the highest down that has one, and each other command by its one premise. -/
theorem descriptorsTakenAndStopped : Obligations.DescriptorsTakenAndStopped := by
  refine ⟨fun s p he hp => ⟨exec_descriptorTake_idle he hp, State.pick_highest hp⟩, fun s r t p he ht hb hw hp => ?outranked,
    fun s r t h hk => exec_nopDescriptor h hk,
    fun s r t ht hne hn hdue => ⟨fun _ hb hw => exec_ttlExpire ht hne hn hdue (.inl ⟨hb, hw⟩),
      fun hst => exec_ttlExpire ht hne hn hdue (.inr (by rw [hst]; decide))⟩,
    fun s r t hx ht hst hdue => exec_descNoProgress ht hx hst hdue, fun s r t h50 h70 hw => s.abandon_none r h50 h70 hw,
    fun s r t ht => progWord_taken ht,
    fun s r hst hdue hk hh ht hb hd => exec_ringStall_request hst hdue hk hh ht hb hd,
    fun s r hst hdue hk hroom hsaid => exec_ringStall_record hst hdue hk hroom hsaid,
    fun s r t addr ht hst hw => ⟨⟨exec_dmaTimeout ht hst hw addr true, exec_dmaTimeout ht hst hw addr false⟩, fun hd hp => ?noPri,
      fun hd hp hx hr => ?parks⟩,
    fun s r h ok => exec_pageResponse_none h ok, fun s r t i ht hst hi hone => ?response, fun g t ht hst => Ring.paged_taken ht hst,
    fun s r t ht hst hdue => exec_parkTimeout ht hst hdue, fun s r t ht hst hg hb hk hr => State.tryUnpark_ready ht hst hg hb hk hr⟩
  case outranked =>
    have hrun := exec_descriptorTake_outranked he ht hb hw hp
    refine ⟨fun hy hn => ?_, fun hy => ?_⟩
    · rw [hrun, hy, hn]
      rfl
    · rw [hrun, hy]
      rfl
  case noPri =>
    rw [exec_translationFault ht hst hw hd, State.faultTaken_noPri hp]
  case parks =>
    rw [exec_translationFault ht hst hw hd, State.faultTaken_parks hp hx hr]
    unfold State.parked
    rw [jobEnded_clk]
  case response =>
    rw [exec_pageResponse hi hone, exec_pageResponse hi hone]
    refine ⟨congrArg Host.Outcome.next (State.endParked_taken ?_ hst dTRANSLATION), rfl⟩
    rw [State.requestDone_ring, ht]

end Sys2Proof
end

section
/-! SUPPORT. The link, doorbells, read-ahead and write-back, and the ring opcodes and HIF_RCTL (R348 to R361, R384, R398). -/
namespace Sys2Proof.Machine
open Sys2Proof.Claims

/-! ### The link (R349, R350) -/

/-- The state with the link up at a rate and width, and what waited for DMA done. -/
def State.linkUp (s : State) (gen width : Nat) (flit : Bool) : State :=
  let u := (((s.wr HIF_LINKSTAT.up 1).wrBit HIF_LINKSTAT.flit flit).wr HIF_LINKSTAT.gen gen).wr HIF_LINKSTAT.width width
  ({ u with hif := { u.hif with trained := true, inReset := false } } : State).dmaBack

theorem exec_pcieLinkTrained_same {s : State} {gen width : Nat}
    (h : s.hif.trained = false ∨ (s.rd HIF_LINKSTAT.gen = gen ∧ s.rd HIF_LINKSTAT.width = width)) (flit : Bool) :
    exec (.pcieLinkTrained gen width flit) s = .next (s.linkUp gen width flit) := by
  have hc : (s.hif.trained && (s.rd HIF_LINKSTAT.gen != gen || s.rd HIF_LINKSTAT.width != width)) = false := by
    rcases h with h | ⟨hg, hw⟩
    · rw [h]; rfl
    · simp [hg, hw]
  show execPcieLinkTrained gen width flit s = _
  unfold execPcieLinkTrained
  rw [hc]
  rfl

/-- R349: a later change of rate or width is posted. -/
theorem exec_pcieLinkTrained_changed {s : State} {gen width : Nat} (ht : s.hif.trained = true)
    (h : s.rd HIF_LINKSTAT.gen ≠ gen ∨ s.rd HIF_LINKSTAT.width ≠ width) (flit : Bool) :
    exec (.pcieLinkTrained gen width flit) s = .next ((s.linkUp gen width flit).post 0x0801 [gen, width]) := by
  have hc : (s.hif.trained && (s.rd HIF_LINKSTAT.gen != gen || s.rd HIF_LINKSTAT.width != width)) = true := by
    rw [ht, Bool.true_and, Bool.or_eq_true]
    exact h.imp bne_iff_ne.mpr bne_iff_ne.mpr
  show execPcieLinkTrained gen width flit s = _
  unfold execPcieLinkTrained
  rw [hc]
  rfl

/-- The making of the held writes leaves the starts and requests that wait. -/
theorem State.flushHeld_waiting (s : State) :
    s.flushHeld.hif.rctlStart = s.hif.rctlStart ∧ s.flushHeld.hif.requests = s.hif.requests := by
  have hfold : ∀ (l : List HeldWrite) (u : State), (l.foldl (fun t h => t.dmaWrite h.addr h.bytes) u).hif = u.hif := by
    intro l
    induction l with
    | nil => exact fun _ => rfl
    | cons h l ih =>
      intro u
      obtain ⟨m, hm⟩ := u.dmaWrite_rest h.bytes h.addr
      rw [List.foldl_cons, ih, hm]
  unfold State.flushHeld
  split
  · dsimp only
    rw [hfold]
    exact ⟨rfl, rfl⟩
  · exact ⟨rfl, rfl⟩

/-- R350: with no start and no page request that waits, the return of DMA makes the held writes alone. -/
theorem State.dmaBack_held {s : State} (hs : s.hif.rctlStart = none) (hq : s.hif.requests = []) : s.dmaBack = s.flushHeld := by
  obtain ⟨hs', hq'⟩ := s.flushHeld_waiting
  have h : s.flushHeld.startHeld = s.flushHeld := by simp only [State.startHeld, hs', hs]
  unfold State.dmaBack
  dsimp only
  rw [h, hq', hq]
  rfl

/-! ### Doorbells (R352, R357 to R360) -/

theorem exec_doorbell_read_high {off : Nat} (h : 8 ≤ off) (slot size v : Nat) (s : State) :
    exec (.doorbell slot off size true v) s = .next { s with readData := 0 } :=
  congrArg Host.Outcome.next (if_pos h)

theorem exec_doorbell_read_low {off : Nat} (h : off < 8) (slot size v : Nat) (s : State) :
    ∃ x, exec (.doorbell slot off size true v) s = .next { s.fresh.2 with readData := x } :=
  ⟨_, congrArg Host.Outcome.next (if_neg (Nat.not_le.mpr h))⟩

/-- R358, R360: a write of another form, to a slot beyond the rings, or to a ring that is OFF. -/
theorem exec_doorbell_discarded {slot off size v : Nat} {s : State}
    (h : off ≠ 0 ∨ size ≠ 8 ∨ bitsAt v 32 12 ≠ slot ∨ bitsAt v 16 16 ≠ 0 ∨ bitsAt v 44 19 ≠ 0 ∨ 4096 ≤ slot ∨
      (s.ring slot).st = .off) :
    exec (.doorbell slot off size false v) s = .next (s.inc HIF_BADDB.count) := if_pos h

/-- R358: an 8-byte write of the slot of a ring in use. -/
theorem exec_doorbell_accepted {slot v : Nat} {s : State} (hs : slot < 4096) (hslot : bitsAt v 32 12 = slot) (h16 : bitsAt v 16 16 = 0)
    (h44 : bitsAt v 44 19 = 0) (hst : (s.ring slot).st ≠ .off) :
    exec (.doorbell slot 0 8 false v) s = .next (s.bellTaken slot (v % 65536) (bitOf v 63)) :=
  if_neg (by simp [hslot, h16, h44, hst, hs])

section Bell
variable {slot idx : Nat} (hs : slot < 4096) (hi : idx < 65536) (arm : Bool)
include hs hi

/-- The fields of a doorbell value. -/
theorem bellValue_fields : bitsAt (bellValue slot idx arm) 32 12 = slot ∧ bitsAt (bellValue slot idx arm) 16 16 = 0 ∧
    bitsAt (bellValue slot idx arm) 44 19 = 0 ∧ bellValue slot idx arm % 65536 = idx ∧ bitOf (bellValue slot idx arm) 63 = arm := by
  have harm : b2n arm < 2 ∧ (b2n arm == 1) = arm := by cases arm <;> decide
  obtain ⟨hn, hbit⟩ := harm
  unfold bitOf bitsAt bellValue
  generalize b2n arm = n at hn hbit ⊢
  have h63 : (idx + slot * 2 ^ 32 + n * 2 ^ 63) / 2 ^ 63 % 2 = n := by omega
  rw [h63]
  exact ⟨by omega, by omega, by omega, by omega, hbit⟩

theorem exec_doorbell_taken {s : State} (hst : (s.ring slot).st ≠ .off) :
    exec (.doorbell slot 0 8 false (bellValue slot idx arm)) s = .next (s.bellTaken slot idx arm) := by
  obtain ⟨hslot, h16, h44, hidx, harm⟩ := bellValue_fields hs hi arm
  rw [exec_doorbell_accepted hs hslot h16 h44 hst, hidx, harm]

end Bell

section BellTaken
variable {s : State} {r idx : Nat} {arm : Bool}

/-- R359, R360: recorded only. -/
theorem State.bellTaken_recorded (h : (s.ring r).st = .stopped ∨ s.bit HIF_CFG.enable = false) :
    s.bellTaken r idx arm = s.setRing r ((s.ring r).withIndex idx) :=
  if_pos (by rcases h with h | h <;> simp [h])

variable (hst : (s.ring r).st = .running) (hen : s.bit HIF_CFG.enable = true)
include hst hen

/-- R359: more entries outstanding than the ring has. -/
theorem State.bellTaken_overrun (h : (s.ring r).size < (s.ring r).outstanding idx) : s.bellTaken r idx arm = s.ringError r 1 := by
  simp [State.bellTaken, hst, hen, h]

theorem State.bellTaken_moves (h : (s.ring r).outstanding idx ≤ (s.ring r).size) :
    s.bellTaken r idx arm =
      let g : Ring := { ((s.ring r).withIndex idx).bell with stallSaid := false }
      let u := (s.setRing r (if isRequest g.kind then g else g.reported)).tryUnpark r
      if arm then u.rearm r else u := by
  simp [State.bellTaken, hst, hen, Nat.not_lt.mpr h]

end BellTaken

/-! ### Read-ahead and write-back (R356, R361) -/

/-- R361: up to 16 descriptors are read ahead, and a failed read is an error of the ring. -/
theorem exec_descriptorFetch {s : State} {r : Nat} (hst : (s.ring r).st = .running) (hk : isRequest (s.ring r).kind = true)
    (hen : s.bit HIF_CFG.enable = true) (hd : s.dmaOk = true) (hh : (s.ring r).head ≠ (s.ring r).tail) (ok : Bool) :
    exec (.descriptorFetch r ok) s =
      .next (if ok then s.setRing r { s.ring r with ahead := s.readAhead (s.ring r) } else s.ringError r 2) := by
  have hrun : exec (.descriptorFetch r ok) s =
      if ok then .next (s.setRing r { s.ring r with ahead := s.readAhead (s.ring r) }) else .next (s.ringError r 2) :=
    if_pos ⟨hst, hk, hen, hd, hh⟩
  rw [hrun]
  exact (apply_ite ..).symm

/-- R356: the first write-back of a ring. -/
theorem exec_ringWriteback_first {s : State} {r : Nat} (hst : (s.ring r).st ≠ .off) (hw : (s.ring r).wbAddr ≠ 0)
    (hl : (s.ring r).wbLast = none) (hd : s.dmaOk = true) : exec (.ringWriteback r) s =
      .next ((s.dmaWrite (s.ring r).wbAddr (leBytes 8 (s.ring r).wbValue)).setRing r
        { s.ring r with wbLast := some (s.ring r).wbValue, wbAt := s.clk }) :=
  if_pos ⟨hst, hw, by rw [hl]; exact nofun, .inl hl, hd⟩

/-! ### The ring opcodes (R353, R355, R384) -/

/-- A ring opcode on another ring of the device. -/
theorem State.ringOp_runs {s : State} {op r : Nat} {t : Taken} (h : Fresh s op r t) (hne : t.f 16 2 ≠ r) (hlt : t.f 16 2 < 4096)
    (f : State → Nat → Nat → State) : s.ringOp op f = f s r (t.f 16 2) := by
  obtain ⟨hr, hw⟩ := h
  simp only [State.ringOp, hr, hw, Bool.false_eq_true, if_false, if_neg hne, if_neg (Nat.not_le.mpr hlt)]

section Opcodes
variable {s : State} {r : Nat} {t : Taken} (hne : t.f 16 2 ≠ r) (hlt : t.f 16 2 < 4096)
include hne hlt

theorem exec_ringStart (h : Fresh s 0x10 r t) (hw : s.startWaits (t.f 16 2) = false) : exec .ringStart s =
    let x := s.ringStart (t.f 16 2)
    .next (if x.1 = 0 then ({ x.2 with hif := { x.2.hif with rctlOpen := false } } : State).finDone r else x.2.finRefused r x.1) := by
  show Host.Outcome.next (s.ringOp 0x10 _) = _
  rw [State.ringOp_runs h hne hlt, hw]
  rfl

theorem exec_ringStop (h : Fresh s 0x11 r t) (h0 : (s.ringStop (t.f 16 2)).1 = 0) : exec .ringStop s =
    let u := (s.ringStop (t.f 16 2)).2
    .next (if (u.ring (t.f 16 2)).st = .stopped then u.finDone r else u.updTaken r (fun t => { t with waits := true })) := by
  show Host.Outcome.next (s.ringOp 0x11 _) = _
  rw [State.ringOp_runs h hne hlt]
  exact congrArg Host.Outcome.next (if_neg (not_not_intro h0))

theorem exec_rctInvalidate (h : Fresh s 0x12 r t) (h0 : (s.ringInvalidate (t.f 16 2)).1 = 0) :
    exec .rctInvalidate s = .next ((s.ringInvalidate (t.f 16 2)).2.finDone r) := by
  show Host.Outcome.next (s.ringOp 0x12 _) = _
  rw [State.ringOp_runs h hne hlt]
  exact congrArg Host.Outcome.next (if_pos h0)

end Opcodes

/-- The ring that an RCT entry describes, RUNNING (R353, R394). -/
def State.startedRing (s : State) (r : Nat) : Ring :=
  let g := ({} : Ring).withRct (s.dmaRead (s.rctAddr r) 64)
  { g with st := .running, armed := g.irqEn, lastTake := s.clk }

/-- R353, R354: a ring that is OFF starts from its RCT entry, where that is well formed. -/
theorem State.ringStart_off {s : State} {r : Nat} (hst : (s.ring r).st = .off) (hc : r < s.rd HIF_RCTCFG.count) : s.ringStart r =
    if rctOk (s.dmaRead (s.rctAddr r) 64) then (0, (s.setRing r (s.startedRing r)).touchCache r) else (dBAD_RCT, s) := by
  unfold State.ringStart
  dsimp only
  rw [hst, if_neg (by decide), if_neg (Nat.not_le.mpr hc), if_neg (by decide)]
  rfl

/-- A use of the RCT cache leaves the rings. -/
theorem State.touchCache_ring (s : State) (r q : Nat) : (s.touchCache r).ring q = s.ring q := rfl

/-! ### HIF_RCTL (R354, R355, R384, R398) -/

theorem clearOnes_rctl (s : State) {v : Nat} (hv : bitsAt v HIF_RCTL.refused.lo 1 = 0) :
    s.clearOnes .bar0 v [⟨HIF_RCTL.reason, .ro, []⟩, ⟨HIF_RCTL.refused, .w1c, []⟩, ⟨HIF_RCTL.invalidate, .w1s, []⟩,
      ⟨HIF_RCTL.stop, .w1s, []⟩, ⟨HIF_RCTL.start, .w1s, []⟩] = untouched HIF_RCTL.refused s :=
  (congrArg (fun x => s.wr HIF_RCTL.refused (Nat.land (s.rd HIF_RCTL.refused) (Nat.xor (2 ^ 1 - 1) x))) hv).trans
    (s.wr_clearNone HIF_RCTL.refused)

/-- A write of HIF_RCTL before sealing that gives refused no 1. -/
theorem State.poke_rctl {s : State} (ho : Open s) {v : Nat} (hv : v < 2 ^ 32) (hr : bitsAt v HIF_RCTL.refused.lo 1 = 0) :
    s.poke 0x10050 v = (untouched HIF_RCTL.refused s).rctl .bar0 (bitOf v 0) (bitOf v 1) (bitOf v 2) := by
  obtain ⟨⟨hrec, hready, hseal⟩, hcmd⟩ := ho
  have hv' : v % 2 ^ 32 = v := Nat.mod_eq_of_lt hv
  have hx : Nat.land v ((2 ^ 32 - 1) % 2 ^ 32) = v := bitwise_full 32 _ hv
  have hreg : regAt 0x10050 = .word [⟨HIF_RCTL.reason, .ro, []⟩, ⟨HIF_RCTL.refused, .w1c, []⟩, ⟨HIF_RCTL.invalidate, .w1s, []⟩,
    ⟨HIF_RCTL.stop, .w1s, []⟩, ⟨HIF_RCTL.start, .w1s, []⟩] := rfl
  unfold State.poke
  rw [hv', State.bar0Write_open v hrec hready hseal (by decide) (isReserved_of_word (by decide) hreg) (by decide), hv']
  simp only [State.regWrite, State.underCmd_none hcmd]
  unfold State.writeWord
  simp only [show isMsix 0x10050 = false from rfl, hseal, hreg, mergeBits_full, hv', hx, clearOnes_rctl s hr, Bool.false_eq_true, false_and,
    and_false, if_false]
  rfl

section Rctl
variable {s : State} (hs : s.bit GEN_SEAL.sealed = false)
include hs

theorem State.rctl_start : s.rctl .bar0 true false false =
    if s.startWaits (s.rd HIF_RIDX.ring) then { s with hif := { s.hif with rctlStart := some (s.rd HIF_RIDX.ring) } }
    else State.rctlResult (s.ringStart (s.rd HIF_RIDX.ring)) := if_neg (by simp [hs])

theorem State.rctl_stop : s.rctl .bar0 false true false =
    let t := State.rctlResult (s.ringStop (s.rd HIF_RIDX.ring))
    { t with hif := { t.hif with rctlStop := some (s.rd HIF_RIDX.ring) } } := if_neg (by simp [hs])

theorem State.rctl_invalidate : s.rctl .bar0 false false true = State.rctlResult (s.ringInvalidate (s.rd HIF_RIDX.ring)) :=
  if_neg (by simp [hs])

end Rctl

theorem rd_untouched_ne (s : State) {f g : Fld} (h : g.key ≠ f.key) : (untouched f s).rd g = s.rd g := s.rd_wr_ne _ h

theorem startWaits_untouched (s : State) (r : Nat) : (untouched HIF_RCTL.refused s).startWaits r = s.startWaits r := by
  unfold State.startWaits State.dmaOk State.bit
  rw [rd_untouched_ne s (by decide), rd_untouched_ne s (by decide)]
  rfl

section RctlWrite
variable {s : State} (ho : Open s)
include ho

theorem sealed_untouched : (untouched HIF_RCTL.refused s).bit GEN_SEAL.sealed = false :=
  (congrArg (· != 0) (rd_untouched_ne s (by decide))).trans ho.1.2.2

theorem exec_rctlStart : exec .rctlStart s =
    let r := s.rd HIF_RIDX.ring
    let u := untouched HIF_RCTL.refused s
    .next (if s.startWaits r then { u with hif := { u.hif with rctlStart := some r } } else State.rctlResult (u.ringStart r)) := by
  have h := State.poke_rctl ho (v := 1) (by decide) (by decide)
  dsimp only
  rw [← startWaits_untouched, ← rd_untouched_ne s (f := HIF_RCTL.refused) (by decide)]
  exact congrArg Host.Outcome.next (h.trans (State.rctl_start (sealed_untouched ho)))

theorem exec_rctlStop : exec .rctlStop s =
    let t := State.rctlResult ((untouched HIF_RCTL.refused s).ringStop (s.rd HIF_RIDX.ring))
    .next { t with hif := { t.hif with rctlStop := some (s.rd HIF_RIDX.ring) } } := by
  have h := State.poke_rctl ho (v := 2) (by decide) (by decide)
  rw [← rd_untouched_ne s (f := HIF_RCTL.refused) (by decide)]
  exact congrArg Host.Outcome.next (h.trans (State.rctl_stop (sealed_untouched ho)))

theorem exec_rctlInvalidate : exec .rctlInvalidate s =
    .next (State.rctlResult ((untouched HIF_RCTL.refused s).ringInvalidate (s.rd HIF_RIDX.ring))) := by
  have h := State.poke_rctl ho (v := 4) (by decide) (by decide)
  rw [← rd_untouched_ne s (f := HIF_RCTL.refused) (by decide)]
  exact congrArg Host.Outcome.next (h.trans (State.rctl_invalidate (sealed_untouched ho)))

end RctlWrite

end Sys2Proof.Machine

namespace Sys2Proof
open Machine Claims

/-- Settles O32: the link by what it changes, a doorbell by its form and its ring's state, and each ring command, over its descriptor or over
HIF_RCTL, by what it answers. -/
theorem linkDoorbellsRings : Obligations.LinkDoorbellsRings := by
  refine ⟨fun s gen width flit => ⟨fun h => exec_pcieLinkTrained_same h flit, fun ht h => exec_pcieLinkTrained_changed ht h flit⟩,
    fun s => ⟨rfl, rfl⟩, fun s enables alloc => rfl, fun s => State.dmaBack_held,
    fun s slot off size v => ⟨fun h => exec_doorbell_read_high h slot size v s, fun h => exec_doorbell_read_low h slot size v s,
      fun h => exec_doorbell_discarded (by tauto)⟩,
    fun s slot idx arm hs hi => ⟨fun h => exec_doorbell_discarded (by simp [h]), fun h => ?recorded, fun hst hen h => ?overrun,
      fun hst hen h => ?moves⟩,
    fun s r hst hk hen hd hh => ⟨exec_descriptorFetch hst hk hen hd hh true, exec_descriptorFetch hst hk hen hd hh false⟩,
    fun s r hst hw hl hd => exec_ringWriteback_first hst hw hl hd,
    fun s r t hne hlt => ⟨fun h hw h0 => ?start, fun h hw h0 => ?refused, fun h h0 => ⟨fun hst => ?stopped, fun hst => ?waits⟩,
      fun h h0 => exec_rctInvalidate hne hlt h h0⟩,
    fun s ho _ => ⟨fun hw => ?rctlStart, fun hw => ?rctlWaits, exec_rctlStop ho, exec_rctlInvalidate ho⟩,
    fun s d hd => ⟨rfl, if_neg hd⟩, fun s r hst hc => ⟨fun h => ?badRct, fun h => ?goodRct⟩⟩
  case recorded =>
    have hst : (s.ring slot).st ≠ .off := h.elim (fun h => by rw [h]; decide) And.left
    exact (exec_doorbell_taken hs hi arm hst).trans (congrArg Host.Outcome.next (State.bellTaken_recorded (h.imp_right And.right)))
  case overrun =>
    rw [exec_doorbell_taken hs hi arm (by rw [hst]; decide), State.bellTaken_overrun hst hen h]
  case moves =>
    rw [exec_doorbell_taken hs hi arm (by rw [hst]; decide), State.bellTaken_moves hst hen h]
  case start => rw [exec_ringStart hne hlt h hw]; exact congrArg Host.Outcome.next (if_pos h0)
  case refused => rw [exec_ringStart hne hlt h hw]; exact congrArg Host.Outcome.next (if_neg h0)
  case stopped => rw [exec_ringStop hne hlt h h0]; exact congrArg Host.Outcome.next (if_pos hst)
  case waits => rw [exec_ringStop hne hlt h h0]; exact congrArg Host.Outcome.next (if_neg hst)
  case rctlStart => rw [exec_rctlStart ho]; dsimp only; rw [hw]; rfl
  case rctlWaits => rw [exec_rctlStart ho]; dsimp only; rw [hw]; rfl
  case badRct => rw [State.ringStart_off hst hc, h]; rfl
  case goodRct =>
    rw [State.ringStart_off hst hc, h]
    refine ⟨rfl, ?_⟩
    show (((s.setRing r (s.startedRing r)).touchCache r).ring r).st = .running
    rw [State.touchCache_ring, State.ring_setRing_listed _ _ (show RingSt.running ≠ .off by decide)]
    rfl

end Sys2Proof
end

section
/-! SUPPORT. Memory controllers (chapter 09): a controller read after it is replaced, what panic leaves as a queue changes (R414), and what a
request leaves (R412, R413, R430). -/
namespace Sys2Proof.Machine
open Sys2Proof.Claims

theorem State.ctl_congr {s t : State} (h : t.mem.ctls = s.mem.ctls) (u : Nat) : t.ctl u = s.ctl u := by unfold State.ctl; rw [h]

theorem State.ctl_setCtl {s : State} (h : Tbl.risingFrom 0 s.mem.ctls = true) (u : Nat) (c : Ctl) : (s.setCtl u c).ctl u = c :=
  Tbl.get_set_self ({} : Ctl) h u c

theorem State.ctl_setCtl_ne (s : State) {u v : Nat} (c : Ctl) (h : v ≠ u) : (s.setCtl u c).ctl v = s.ctl v :=
  Tbl.get_set_ne ({} : Ctl) s.mem.ctls c h

theorem State.setCtl_rising {s : State} (h : Tbl.risingFrom 0 s.mem.ctls = true) (u : Nat) (c : Ctl) :
    Tbl.risingFrom 0 (s.setCtl u c).mem.ctls = true := Tbl.rising_set ({} : Ctl) u c h

@[simp] theorem State.setCtl_regs (s : State) (u : Nat) (c : Ctl) : (s.setCtl u c).regs = s.regs := rfl
@[simp] theorem State.setCtl_clk (s : State) (u : Nat) (c : Ctl) : (s.setCtl u c).clk = s.clk := rfl
@[simp] theorem State.setCtl_rd (s : State) (u : Nat) (c : Ctl) (f : Fld) : (s.setCtl u c).rd f = s.rd f := rfl
@[simp] theorem State.setCtl_store (s : State) (u : Nat) (c : Ctl) : (s.setCtl u c).mem.store = s.mem.store := rfl
@[simp] theorem State.inc_ctl (s : State) (f : Fld) (u : Nat) : (s.inc f).ctl u = s.ctl u := rfl
@[simp] theorem State.wr_ctl (s : State) (f : Fld) (v u : Nat) : (s.wr f v).ctl u = s.ctl u := rfl

/-! ### Panic -/

/-- MCH_PANIC or MCD_PANIC of a controller. -/
def panicFld (u : Nat) : Fld := memFld u MCH_PANIC.count MCD_PANIC.count

/-- The panic of one port after a change of the queues (R414). -/
def State.panicStep (u : Nat) (s : State) (k : Nat) : State :=
  if !s.portPresent u k then s
  else if !(s.ctl u).panic.contains k ∧ s.panicOn u k * 8 ≤ (s.ctl u).portDepth k then
    (s.setCtl u { s.ctl u with panic := insNat k (s.ctl u).panic }).inc (panicFld u)
  else if (s.ctl u).panic.contains k ∧ (s.ctl u).portDepth k ≤ s.panicOff u k * 8 then
    s.setCtl u { s.ctl u with panic := (s.ctl u).panic.filter (· != k) }
  else s

theorem State.panics_eq (s : State) (u : Nat) : s.panics u = [0, 1, 2].foldl (State.panicStep u) s := rfl

/-- `t` differs from `s` in controller `u`'s panic and in its count of panics at most. -/
structure SameQueues (u : Nat) (s t : State) : Prop where
  rising : Tbl.risingFrom 0 s.mem.ctls = true → Tbl.risingFrom 0 t.mem.ctls = true
  ctl : Tbl.risingFrom 0 s.mem.ctls = true → ∃ p, t.ctl u = { s.ctl u with panic := p }
  store : t.mem.store = s.mem.store
  rd : ∀ f, f.key ≠ (panicFld u).key → t.rd f = s.rd f

namespace SameQueues

theorem refl (u : Nat) (s : State) : SameQueues u s s := ⟨id, fun _ => ⟨_, rfl⟩, rfl, fun _ _ => rfl⟩

theorem trans {u : Nat} {s t v : State} (h : SameQueues u s t) (h' : SameQueues u t v) : SameQueues u s v := by
  refine ⟨fun hr => h'.rising (h.rising hr), fun hr => ?_, h'.store.trans h.store, fun f hf => (h'.rd f hf).trans (h.rd f hf)⟩
  obtain ⟨p, hp⟩ := h.ctl hr
  obtain ⟨q, hq⟩ := h'.ctl (h.rising hr)
  exact ⟨q, by rw [hq, hp]⟩

theorem setPanic (u : Nat) (s : State) (p : List Nat) : SameQueues u s (s.setCtl u { s.ctl u with panic := p }) :=
  ⟨fun hr => State.setCtl_rising hr u _, fun hr => ⟨p, State.ctl_setCtl hr u _⟩, rfl, fun _ _ => rfl⟩

theorem inc {u : Nat} {s t : State} (h : SameQueues u s t) : SameQueues u s (t.inc (panicFld u)) :=
  ⟨h.rising, h.ctl, h.store, fun f hf => (t.rd_wr_ne _ hf).trans (h.rd f hf)⟩

theorem panicStep (u : Nat) (s : State) (k : Nat) : SameQueues u s (State.panicStep u s k) := by
  unfold State.panicStep
  split_ifs
  · exact refl u s
  · exact (setPanic u s _).inc
  · exact setPanic u s _
  · exact refl u s

theorem foldl (u : Nat) : ∀ (l : List Nat) (s : State), SameQueues u s (l.foldl (State.panicStep u) s)
  | [], s => refl u s
  | k :: l, s => (panicStep u s k).trans (foldl u l _)

theorem panics (u : Nat) (s : State) : SameQueues u s (s.panics u) := by rw [State.panics_eq]; exact foldl u _ s

variable {u : Nat} {s t : State} (h : SameQueues u s t)
include h

theorem reqs (hr : Tbl.risingFrom 0 s.mem.ctls = true) : (t.ctl u).reqs = (s.ctl u).reqs := by
  obtain ⟨p, hp⟩ := h.ctl hr
  rw [hp]

theorem portDepth (hr : Tbl.risingFrom 0 s.mem.ctls = true) (k : Nat) : (t.ctl u).portDepth k = (s.ctl u).portDepth k := by
  unfold Ctl.portDepth
  rw [h.reqs hr]

end SameQueues

/-- The panic of a port by its thresholds: set at `panic_on` x 8 requests or more, clear at `panic_off` x 8 or fewer (R414). -/
def PanicFollows (on off j : Nat) (c : Ctl) : Prop :=
  (on * 8 ≤ c.portDepth j → c.panic.contains j = true) ∧ (c.portDepth j ≤ off * 8 → c.panic.contains j = false)

theorem mem_insNat_iff (n m : Nat) : ∀ l : List Nat, m ∈ insNat n l ↔ m = n ∨ m ∈ l
  | [] => by simp [insNat]
  | x :: l => by
    unfold insNat
    split_ifs with h1 h2
    · simp
    · simp [h2]
    · rw [List.mem_cons, mem_insNat_iff n m l, List.mem_cons, or_left_comm]

/-! No field of a controller's registers but its count of panics is written as panic follows the queues. -/

theorem mcd_ne_panicFld {u : Nat} {f : Fld} (hu : isDdr u = true) (hf : 0x380000 + 0x2000 * chanOf u ≤ f.addr)
    (hf' : f.addr < 0x380000 + 0x2000 * chanOf u + 0x400) (hl : f.lo < 64) : f.key ≠ (panicFld u).key := by
  simp only [panicFld, memFld, hu, if_true, Fld.key, MCD_PANIC.count]
  omega

theorem portcfg_ne_panicFld {k lo w : Nat} {r r' : Nat} (u : Nat) (hk : k < 6) (hl : lo < 64) :
    (memFld u (fun x => ⟨0x300000 + 0x4000 * x + 0x40 + 4 * k, lo, w, r⟩) (fun x => ⟨0x380000 + 0x2000 * x + 0x40 + 4 * k, lo, w, r'⟩)).key ≠
      (panicFld u).key := by
  unfold panicFld memFld
  split <;> simp only [Fld.key, MCH_PANIC.count, MCD_PANIC.count] <;> omega

theorem SameQueues.panicOn {u : Nat} {s t : State} (h : SameQueues u s t) {k : Nat} (hk : k < 6) : t.panicOn u k = s.panicOn u k :=
  h.rd _ (portcfg_ne_panicFld u hk (by decide))

theorem SameQueues.panicOff {u : Nat} {s t : State} (h : SameQueues u s t) {k : Nat} (hk : k < 6) : t.panicOff u k = s.panicOff u k :=
  h.rd _ (portcfg_ne_panicFld u hk (by decide))

theorem SameQueues.portPresent {u : Nat} {s t : State} (h : SameQueues u s t) (k : Nat) : t.portPresent u k = s.portPresent u k := by
  unfold State.portPresent
  have hr : isDdr u = true → t.rd (MCD_CFG.role (chanOf u)) = s.rd (MCD_CFG.role (chanOf u)) := fun hd => h.rd _ (by
    simp only [panicFld, memFld, hd, if_true, Fld.key, MCD_CFG.role, MCD_PANIC.count]
    omega)
  cases hd : isDdr u with
  | false => simp
  | true => simp only [hr hd]

section Follows
variable {u j : Nat} {s : State} (hr : Tbl.risingFrom 0 s.mem.ctls = true) (hp : s.portPresent u j = true)
  (hon : s.panicOff u j < s.panicOn u j)
include hr hp hon

theorem panicStep_follows : PanicFollows (s.panicOn u j) (s.panicOff u j) j ((State.panicStep u s j).ctl u) := by
  unfold PanicFollows
  rw [(SameQueues.panicStep u s j).portDepth hr j]
  unfold State.panicStep
  rw [if_neg (by simp [hp])]
  split_ifs with h1 h2
  · rw [State.inc_ctl, State.ctl_setCtl hr]
    exact ⟨fun _ => by simp [mem_insNat_iff], fun h => by omega⟩
  · rw [State.ctl_setCtl hr]
    exact ⟨fun h => by omega, fun _ => by simp⟩
  · rw [Bool.not_eq_true'] at h1
    cases hc : (s.ctl u).panic.contains j with
    | true => exact ⟨fun _ => rfl, fun h => absurd ⟨hc, h⟩ h2⟩
    | false => exact ⟨fun h => absurd ⟨hc, h⟩ h1, fun _ => rfl⟩

omit hp hon in
/-- The panic of another port does not touch this one's. -/
theorem panicStep_other {k : Nat} (hk : j ≠ k) : ((State.panicStep u s k).ctl u).panic.contains j = (s.ctl u).panic.contains j := by
  unfold State.panicStep
  split_ifs
  · rfl
  · rw [State.inc_ctl, State.ctl_setCtl hr]
    simp [mem_insNat_iff, hk]
  · rw [State.ctl_setCtl hr]
    simp [hk]
  · rfl

end Follows

theorem foldl_panicStep_follows {u j on off : Nat} (hj : j < 6) (hon : off < on) : ∀ (l : List Nat) (s : State), Tbl.risingFrom 0 s.mem.ctls = true →
    s.portPresent u j = true → s.panicOn u j = on → s.panicOff u j = off → j ∈ l ∨ PanicFollows on off j (s.ctl u) →
    PanicFollows on off j ((l.foldl (State.panicStep u) s).ctl u)
  | [], s, _, _, _, _, h => h.resolve_left List.not_mem_nil
  | k :: l, s, hr, hp, hs, hf, h => by
    have hk := SameQueues.panicStep u s k
    refine foldl_panicStep_follows hj hon l _ (hk.rising hr) ((hk.portPresent j).trans hp) ((hk.panicOn hj).trans hs)
      ((hk.panicOff hj).trans hf) ?_
    by_cases hjk : j = k
    · subst hjk hs hf
      exact .inr (panicStep_follows hr hp hon)
    · refine h.imp (fun hm => (List.mem_cons.mp hm).resolve_left hjk) fun hP => ?_
      unfold PanicFollows
      rw [hk.portDepth hr, panicStep_other hr hjk]
      exact hP

/-- Once the queues are settled, the panic of each of ports 0 to 2 follows its thresholds (R414). -/
theorem panics_follow {u j : Nat} {s : State} (hr : Tbl.risingFrom 0 s.mem.ctls = true) (hj : j < 3) (hp : s.portPresent u j = true)
    (hon : s.panicOff u j < s.panicOn u j) : PanicFollows (s.panicOn u j) (s.panicOff u j) j ((s.panics u).ctl u) := by
  rw [State.panics_eq]
  exact foldl_panicStep_follows (by omega) hon [0, 1, 2] s hr hp rfl rfl (.inl (List.mem_range.mpr hj))

/-! ### The bank queues -/

theorem bankFill_plain : ∀ (stuck : List Nat) (done l : List MReq), (bankFill stuck done l).map plainReq = l.map plainReq
  | _, _, [] => rfl
  | stuck, done, r :: l => by
    unfold bankFill
    split_ifs <;> rw [List.map_cons, List.map_cons, bankFill_plain]
    rfl

/-! ### Requests -/

/-- What lies between a controller with a request added and its settled queues. -/
theorem memFill_queues (s : State) (u : Nat) :
    SameQueues u (s.setCtl u { s.ctl u with reqs := bankFill [] [] (s.ctl u).reqs }) (s.memFill u) := SameQueues.panics u _

theorem State.memFill_reqs {s : State} (hr : Tbl.risingFrom 0 s.mem.ctls = true) (u : Nat) :
    ((s.memFill u).ctl u).reqs.map plainReq = (s.ctl u).reqs.map plainReq := by
  rw [(memFill_queues s u).reqs (State.setCtl_rising hr u _), State.ctl_setCtl hr, bankFill_plain]

theorem State.memFill_rising {s : State} (hr : Tbl.risingFrom 0 s.mem.ctls = true) (u : Nat) :
    Tbl.risingFrom 0 (s.memFill u).mem.ctls = true := (memFill_queues s u).rising (State.setCtl_rising hr u _)

@[simp] theorem State.memFill_store (s : State) (u : Nat) : (s.memFill u).mem.store = s.mem.store := (memFill_queues s u).store

theorem State.memFill_rd (s : State) (u : Nat) {f : Fld} (hf : f.key ≠ (panicFld u).key) : (s.memFill u).rd f = s.rd f := (memFill_queues s u).rd f hf

theorem State.memFill_follows {s : State} (hr : Tbl.risingFrom 0 s.mem.ctls = true) {u j : Nat} (hj : j < 3) (hp : s.portPresent u j = true)
    (hon : s.panicOff u j < s.panicOn u j) : PanicFollows (s.panicOn u j) (s.panicOff u j) j ((s.memFill u).ctl u) :=
  panics_follow (s := s.setCtl u _) (State.setCtl_rising hr u _) hj hp hon

/-- The request as its queue takes it: a read carries what its location holds. -/
def arriving (s : State) (u k : Nat) (w : Bool) (rank bank row col data : Nat) : MReq :=
  let r := asArrived s k w rank bank row col data
  if w then r else { r with data := Tbl.get 0 s.mem.store (memKey u r) }

/-- The contents once the controller has accepted a request (R413). -/
def State.stored (s : State) (u : Nat) (r : MReq) : State :=
  if r.write then { s with mem := { s.mem with store := Tbl.set 0 s.mem.store (memKey u r) r.data } } else s

/-- The controller with a request behind those that it holds. -/
def State.queued (s : State) (u : Nat) (r : MReq) : State :=
  ((s.stored u r).wakeChan u).setCtl u
    { s.ctl u with reqs := (s.ctl u).reqs ++ [r], busyAt := s.clk, asleep := (s.ctl u).asleep.filter (· != r.rank) }

theorem exec_memoryRequest {s : State} {u k rank bank row col : Nat} (h : Accepts s u k rank bank row col) (w : Bool) (data : Nat) :
    exec (.memoryRequest u k w rank bank row col data) s = .next ((s.queued u (arriving s u k w rank bank row col data)).memFill u) := by
  obtain ⟨hserves, hport, hroom, hloc, htrain⟩ := h
  show execMemoryRequest u k w rank bank row col data s = _
  unfold execMemoryRequest
  have hroom' : ¬ 128 ≤ (s.ctl u).portDepth k := by omega
  rw [if_neg (by simpa [hserves, hport, hroom', hloc] using htrain)]
  cases w <;> rfl

section Queued
variable (s : State) (u : Nat) (r : MReq)

@[simp] theorem State.wakeChan_ctls : (s.wakeChan u).mem.ctls = s.mem.ctls := by unfold State.wakeChan; split <;> rfl
@[simp] theorem State.wakeChan_store : (s.wakeChan u).mem.store = s.mem.store := by unfold State.wakeChan; split <;> rfl
@[simp] theorem State.stored_ctls : (s.stored u r).mem.ctls = s.mem.ctls := by unfold State.stored; split <;> rfl
@[simp] theorem State.stored_rd (f : Fld) : (s.stored u r).rd f = s.rd f := by unfold State.stored; split <;> rfl
@[simp] theorem State.stored_regsOk : (s.stored u r).regsOk = s.regsOk := by unfold State.stored; split <;> rfl

theorem State.wakeChan_rd {f : Fld} (hf : isDdr u = true → f.key ≠ (MCD_STAT.state (chanOf u)).key) : (s.wakeChan u).rd f = s.rd f := by
  unfold State.wakeChan
  split_ifs with h
  · exact s.rd_wr_ne 3 (hf h.1)
  · rfl

theorem State.wakeChan_wakes (hr : s.regsOk = true) (hu : isDdr u = true) (h7 : s.rd (MCD_STAT.state (chanOf u)) = 7) :
    (s.wakeChan u).rd (MCD_STAT.state (chanOf u)) = 3 := by
  unfold State.wakeChan
  rw [if_pos ⟨hu, h7⟩]
  exact State.rd_wr_self hr (MCD_STAT.state (chanOf u)) 3

theorem State.queued_store : (s.queued u r).mem.store = if r.write then Tbl.set 0 s.mem.store (memKey u r) r.data else s.mem.store := by
  show ((s.stored u r).wakeChan u).mem.store = _
  rw [State.wakeChan_store]
  unfold State.stored
  split <;> rfl

variable {s}

theorem State.queued_rising (hr : Tbl.risingFrom 0 s.mem.ctls = true) : Tbl.risingFrom 0 (s.queued u r).mem.ctls = true :=
  State.setCtl_rising (by simpa using hr) u _

theorem State.queued_reqs (hr : Tbl.risingFrom 0 s.mem.ctls = true) : ((s.queued u r).ctl u).reqs = (s.ctl u).reqs ++ [r] := by
  unfold State.queued
  rw [State.ctl_setCtl (by simpa using hr)]

variable (s)

theorem State.queued_rd {f : Fld} (hf : isDdr u = true → f.key ≠ (MCD_STAT.state (chanOf u)).key) : (s.queued u r).rd f = s.rd f := by
  show ((s.stored u r).wakeChan u).rd f = _
  rw [State.wakeChan_rd _ _ hf, State.stored_rd]

theorem State.queued_panicOn (k : Nat) : (s.queued u r).panicOn u k = s.panicOn u k := s.queued_rd u r fun hu => by
  simp only [memFld, hu, if_true, Fld.key, MCD_PORTCFG.panic_on, MCD_STAT.state]
  omega

theorem State.queued_panicOff (k : Nat) : (s.queued u r).panicOff u k = s.panicOff u k := s.queued_rd u r fun hu => by
  simp only [memFld, hu, if_true, Fld.key, MCD_PORTCFG.panic_off, MCD_STAT.state]
  omega

theorem State.queued_portPresent (k : Nat) : (s.queued u r).portPresent u k = s.portPresent u k := by
  unfold State.portPresent
  rw [s.queued_rd u r fun _ => by simp only [Fld.key, MCD_CFG.role, MCD_STAT.state]; omega]

end Queued

theorem arriving_write (s : State) (u k rank bank row col data : Nat) (w : Bool) : (arriving s u k w rank bank row col data).write = w := by
  cases w <;> rfl

/-- What an accepted request leaves: its place in the queue, the contents, a channel awake, and panic by the thresholds (R412 to R414, R430). -/
theorem queued_memFill {s : State} {u : Nat} (r : MReq) (hr : Tbl.risingFrom 0 s.mem.ctls = true) :
    (((s.queued u r).memFill u).ctl u).reqs.map plainReq = ((s.ctl u).reqs ++ [r]).map plainReq ∧
    ((s.queued u r).memFill u).mem.store = (if r.write then Tbl.set 0 s.mem.store (memKey u r) r.data else s.mem.store) ∧
    (s.regsOk = true → isDdr u = true → s.rd (MCD_STAT.state (chanOf u)) = 7 →
      ((s.queued u r).memFill u).rd (MCD_STAT.state (chanOf u)) = 3) ∧
    ∀ j, j < 3 → s.portPresent u j = true → s.panicOff u j < s.panicOn u j →
      PanicFollows (s.panicOn u j) (s.panicOff u j) j (((s.queued u r).memFill u).ctl u) := by
  have hq := State.queued_rising u r hr
  refine ⟨?_, ?_, fun hreg hu h7 => ?_, fun j hj hp hon => ?_⟩
  · rw [State.memFill_reqs hq, State.queued_reqs u r hr]
  · rw [State.memFill_store, State.queued_store]
  · rw [State.memFill_rd _ _ (mcd_ne_panicFld hu (by simp only [MCD_STAT.state]; omega) (by simp only [MCD_STAT.state]; omega)
      (show 28 < 64 by decide))]
    exact State.wakeChan_wakes _ u (by simpa using hreg) hu (by simpa using h7)
  · rw [← s.queued_panicOn u r, ← s.queued_panicOff u r] at hon ⊢
    exact State.memFill_follows hq hj ((s.queued_portPresent u r j).trans hp) hon

/-- A read of a location carries what a write accepted before it has put there (R413). -/
theorem arriving_reads {s : State} {u k rank bank row col data : Nat} (hs : Tbl.risingFrom 0 s.mem.store = true) {t : State}
    (ht : t.mem.store = Tbl.set 0 s.mem.store (memKey u (asArrived s k true rank bank row col data)) data) (j any : Nat) :
    (arriving t u j false rank bank row col any).data = data := by
  show Tbl.get 0 t.mem.store (memKey u (asArrived s k true rank bank row col data)) = data
  rw [ht, Tbl.get_set_self 0 hs]

theorem getLast_plain {l : List MReq} {pre : List MReq} {r : MReq} (h : l.map plainReq = (pre ++ [r]).map plainReq) :
    l.getLast?.map (fun r => (r.port, r.write, r.data)) = some (r.port, r.write, r.data) := by
  have hl := congrArg (fun l : List MReq => l.getLast?.map (fun r => (r.port, r.write, r.data))) h
  simp only [List.getLast?_map, Option.map_map, List.map_append, List.map_cons, List.map_nil, List.getLast?_concat] at hl
  exact hl

end Sys2Proof.Machine
end

section
/-! SUPPORT. The next command of a memory controller (R412, R415 to R420): what is issued first, a request served, and an activate counted. -/
namespace Sys2Proof.Machine
open Sys2Proof.Claims

theorem State.batchStart_clk (s : State) (u : Nat) : (s.batchStart u).clk = s.clk := (State.batchStart_keeps u (Keeps.refl s)).clk

/-- R425: a pseudo-channel under lane repair pauses. -/
theorem exec_memoryCommandIssue_pauses {s : State} {u : Nat} (err lane : Nat) (hf : (s.ctl u).fixing ≠ []) :
    exec (.memoryCommandIssue u err lane) s = .next s := if_pos (.inr hf)

/-- The request that is served ahead of refresh debt: by latency target, or of a panicking port (R415, R416). -/
def State.firstReq (s : State) (u : Nat) : Option Nat := if s.qosTarget u then s.urgentReq u else (s.panicReq u).map (·.2)

theorem State.firstReq_none {s : State} {u : Nat} (h : noneFirst s u) : s.firstReq u = none := by
  unfold State.firstReq
  split
  · next hq => exact h.1 hq
  · next hq => rw [h.2 (Bool.eq_false_iff.mpr hq), Option.map_none]

section Issue
variable {s v : State} {u : Nat} (err lane : Nat) (hm : s.memServes u = true) (hf : (s.ctl u).fixing = []) (hv : s.batchStart u = v)
include hm hf hv

/-- R418: forced refreshes come first. -/
theorem exec_memoryCommandIssue_forced {rank n : Nat} {rest : Tbl Nat} (h : (v.ctl u).forced = (rank, n) :: rest) :
    exec (.memoryCommandIssue u err lane) s = .next (v.forceRefresh u rank) := by
  show execMemoryCommandIssue u err lane s = _
  unfold execMemoryCommandIssue
  rw [if_neg (by simp [hm, hf])]
  simp only [hv, h]

variable (hc : (v.ctl u).forced = [])
include hc

/-- R420: then neighbour refreshes. -/
theorem exec_memoryCommandIssue_neighbour {bk : Nat} {rows : List Nat} {rest : List (Nat × List Nat)} (h : (v.ctl u).nbr = (bk, rows) :: rest) :
    exec (.memoryCommandIssue u err lane) s =
      .next ((v.setCtl u { v.ctl u with nbr := rest, nbrLast := some (bk, rows), cmdAt := Tbl.set 0 (v.ctl u).cmdAt (bk / 64) s.clk,
                                        asleep := (v.ctl u).asleep.filter (· != bk / 64) }).inc
        (memFld u MCH_NBRREF.count MCD_NBRREF.count)) := by
  have hclk : v.clk = s.clk := by rw [← hv, State.batchStart_clk]
  show execMemoryCommandIssue u err lane s = _
  unfold execMemoryCommandIssue
  rw [if_neg (by simp [hm, hf])]
  simp only [hv, hc, h, hclk]

variable (hn : (v.ctl u).nbr = [])
include hn

/-- R415: then a request of a panicking port, whose turn passes where the request's row is open. -/
theorem exec_memoryCommandIssue_panic {k i : Nat} (hq : v.qosTarget u = false) (hp : v.panicReq u = some (k, i)) :
    exec (.memoryCommandIssue u err lane) s =
      .next ((v.setCtl u { v.ctl u with turn := if ((v.ctl u).reqs[i]?).any (v.ctl u).isHit then k + 1 else k }).serveReq u i err lane) := by
  show execMemoryCommandIssue u err lane s = _
  unfold execMemoryCommandIssue
  rw [if_neg (by simp [hm, hf])]
  simp only [hv, hc, hn, hq, hp, Option.map_some, Option.getD_some, Bool.false_eq_true, if_false]

/-- R416: or the most urgent one. -/
theorem exec_memoryCommandIssue_urgent {i : Nat} (hq : v.qosTarget u = true) (hp : v.urgentReq u = some i) :
    exec (.memoryCommandIssue u err lane) s = .next ((v.setCtl u (v.ctl u)).serveReq u i err lane) := by
  show execMemoryCommandIssue u err lane s = _
  unfold execMemoryCommandIssue
  rw [if_neg (by simp [hm, hf])]
  have heta : v.ctl u = { v.ctl u with forced := [], nbr := [] } := by rw [← hc, ← hn]
  simp only [hv, hc, hn, hq, hp, if_true, ← heta]

variable (h1 : noneFirst v u)
include h1

/-- R418: then refresh debt. -/
theorem exec_memoryCommandIssue_debt {rank d : Nat} {rest : Tbl Nat} (hd : (v.ctl u).debt = (rank, d) :: rest) :
    exec (.memoryCommandIssue u err lane) s =
      .next ((v.setCtl u { v.ctl u with debt := Tbl.set 0 (v.ctl u).debt rank (d - 1) }).refresh u rank) := by
  have hfirst := State.firstReq_none h1
  show execMemoryCommandIssue u err lane s = _
  unfold execMemoryCommandIssue
  rw [if_neg (by simp [hm, hf])]
  unfold State.firstReq at hfirst
  simp only [hv, hc, hn, hfirst, hd]

variable (hd : (v.ctl u).debt = [])
include hd

/-- R412: then the other requests. -/
theorem exec_memoryCommandIssue_other : exec (.memoryCommandIssue u err lane) s =
    .next (match v.nextReq u with | some i => v.serveReq u i err lane | none => v) := by
  have hfirst := State.firstReq_none h1
  show execMemoryCommandIssue u err lane s = _
  unfold execMemoryCommandIssue
  rw [if_neg (by simp [hm, hf])]
  unfold State.firstReq at hfirst
  simp only [hv, hc, hn, hfirst, hd]
  cases v.nextReq u <;> rfl

end Issue

/-! ### A request served -/

theorem unpassed_older (b : Nat) (c : Ctl) (l : List MReq) :
    (l.map (fun x => if x.bk = b ∧ !c.isHit x then { x with passed := x.passed + 1 } else x)).map unpassed = l.map unpassed := by
  rw [List.map_map]
  refine List.map_congr_left fun x _ => ?_
  simp only [Function.comp]
  split <;> rfl

section Served
variable {s : State} {u i : Nat} {r : MReq} (err lane : Nat) (hi : (s.ctl u).reqs[i]? = some r)
include hi

/-- The controller once the request at position `i` has been issued (R412, R422). -/
def Ctl.issued (c : Ctl) (s : State) (u i err : Nat) (r : MReq) : Ctl :=
  { c with
    reqs := (c.reqs.take i).map (fun x => if x.bk = r.bk ∧ !c.isHit x then { x with passed := x.passed + 1 } else x) ++ c.reqs.drop (i + 1) ++
      writeBack s r (metBy s u r err)
    batch := if r.write then c.batch - 1 else c.batch
    cmdAt := Tbl.set 0 c.cmdAt r.rank s.clk
    read := if r.write then c.read else some (r.port, r.data, metBy s u r err == 2) }

omit hi in
theorem issued_reqs (c : Ctl) (s : State) (u i err : Nat) (r : MReq) :
    (c.issued s u i err r).reqs.map unpassed = (c.reqs.eraseIdx i).map unpassed ++ writeBack s r (metBy s u r err) := by
  have hback : (writeBack s r (metBy s u r err)).map unpassed = writeBack s r (metBy s u r err) := by
    unfold writeBack
    split <;> rfl
  simp only [Ctl.issued, List.map_append, hback, unpassed_older, List.eraseIdx_eq_take_drop_succ]

theorem serveReq_hit (hh : (s.ctl u).isHit r = true) : s.serveReq u i err lane =
    (if r.write then (s.setCtl u ((s.ctl u).issued s u i err r)).memFill u
      else ((s.setCtl u ((s.ctl u).issued s u i err r)).memFill u).memError u (metBy s u r err) lane) := by
  have herr : (if (!s.isInit u r.rank r.bank r.row r.col && Tbl.get 0 s.mem.store (memKey u r) == 0) = true then 0 else err) =
      metBy s u r err := by
    unfold metBy
    simp
  have hback : (if (r.scrub && metBy s u r err == 1) = true then
      [{ r with write := true, banked := false, passed := 0, at_ := s.clk, scrub := false }] else []) = writeBack s r (metBy s u r err) := by
    unfold writeBack
    simp
  unfold State.serveReq
  simp only [hi, hh, if_true]
  unfold State.issueReq
  simp only [hi, herr, hback]
  rfl

theorem serveReq_miss (hh : (s.ctl u).isHit r = false) : s.serveReq u i err lane = s.activate u r.bk r.row := by
  unfold State.serveReq
  simp only [hi, hh, Bool.false_eq_true, if_false]

end Served

/-! ### Activates counted -/

/-- The place of the lowest count holds an entry, and none counts less. -/
theorem lowest_least : ∀ {t : List (Nat × Nat)}, t ≠ [] → ∃ e, t[lowest t]? = some e ∧ ∀ x ∈ t, e.2 ≤ x.2
  | [x], _ => ⟨x, rfl, by simp⟩
  | x :: y :: r, _ => by
    obtain ⟨e, he, hmin⟩ := lowest_least (t := y :: r) (List.cons_ne_nil _ _)
    unfold lowest
    rw [he]
    by_cases hlt : e.2 < x.2
    · refine ⟨e, by simpa [hlt] using he, fun z hz => ?_⟩
      rcases List.mem_cons.mp hz with rfl | hz
      · exact hlt.le
      · exact hmin z hz
    · refine ⟨x, by simp [hlt], fun z hz => ?_⟩
      rcases List.mem_cons.mp hz with rfl | hz
      · exact le_rfl
      · exact (Nat.not_lt.mp hlt).trans (hmin z hz)

section Count
variable {size row : Nat} {t : List (Nat × Nat)}

theorem racAdd_absent (hn : ∀ e ∈ t, e.1 ≠ row) : ¬ t.any (fun e => e.1 == row) = true := by
  rw [Bool.not_eq_true, List.any_eq_false]
  exact fun e he => by simpa using hn e he

theorem racAdd_new (hn : ∀ e ∈ t, e.1 ≠ row) (hs : t.length < size) : racAdd size row t = t ++ [(row, 1)] := by
  unfold racAdd
  rw [if_neg (racAdd_absent hn), if_pos hs]

/-- A full table gives the new row the entry of the lowest count. -/
theorem racAdd_full (hne : t ≠ []) (hn : ∀ e ∈ t, e.1 ≠ row) (hs : size ≤ t.length) :
    ∃ a e b, t = a ++ e :: b ∧ (∀ x ∈ t, e.2 ≤ x.2) ∧ racAdd size row t = a ++ (row, e.2 + 1) :: b := by
  obtain ⟨e, he, hmin⟩ := lowest_least hne
  obtain ⟨hlt, hget⟩ := List.getElem?_eq_some_iff.mp he
  refine ⟨t.take (lowest t), e, t.drop (lowest t + 1), ?_, hmin, ?_⟩
  · rw [← hget, ← List.drop_eq_getElem_cons hlt, List.take_append_drop]
  · unfold racAdd
    rw [if_neg (racAdd_absent hn), if_neg (by omega), he]
    exact List.set_eq_take_append_cons_drop.trans (if_pos hlt)

theorem racAdd_again {a b : List (Nat × Nat)} (n : Nat) (hn : ∀ e ∈ a ++ b, e.1 ≠ row) :
    racAdd size row (a ++ (row, n) :: b) = a ++ (row, n + 1) :: b := by
  have hsame : ∀ l : List (Nat × Nat), (∀ e ∈ l, e.1 ≠ row) → l.map (fun e => if e.1 = row then (row, e.2 + 1) else e) = l := fun l hl =>
    (List.map_congr_left fun e he => if_neg (hl e he)).trans (List.map_id' l)
  rw [List.forall_mem_append] at hn
  unfold racAdd
  rw [if_pos (by simp), List.map_append, List.map_cons, hsame a hn.1, hsame b hn.2, if_pos rfl]

end Count

/-- Whether a row of a bank's table has reached the threshold of neighbour refreshes. -/
def racHot (limit row : Nat) (t : List (Nat × Nat)) : Bool := t.any (fun e => e.1 == row && decide (limit ≤ e.2))

section Activate
variable {s : State} (u bk row : Nat) (hr : Tbl.risingFrom 0 s.mem.ctls = true)
include hr

theorem activate_opens (ho : Tbl.risingFrom 0 (s.ctl u).open_ = true) : Tbl.get 0 ((s.activate u bk row).ctl u).open_ bk = row + 1 := by
  unfold State.activate
  rw [State.ctl_setCtl hr]
  exact Tbl.get_set_self 0 ho bk (row + 1)

theorem activate_cool (h : racHot (s.rd (memFld u MCH_RACFG.threshold MCD_RACFG.threshold)) row (racAdd (racSize u) row (Tbl.get [] (s.ctl u).rac bk)) = false) :
    ((s.activate u bk row).ctl u).nbr = (s.ctl u).nbr := by
  unfold racHot at h
  unfold State.activate
  rw [State.ctl_setCtl hr]
  simp only [h, Bool.false_eq_true, if_false]

theorem activate_hot (h : racHot (s.rd (memFld u MCH_RACFG.threshold MCD_RACFG.threshold)) row (racAdd (racSize u) row (Tbl.get [] (s.ctl u).rac bk)) = true) :
    ((s.activate u bk row).ctl u).nbr = (s.ctl u).nbr ++
      [(bk, neighbours row (s.rd (memFld u MCH_RACFG.radius MCD_RACFG.radius)) (s.rankLocs u / (64 * rowLocs u)))] ∧
    (Tbl.risingFrom 0 (s.ctl u).rac = true → Tbl.get [] ((s.activate u bk row).ctl u).rac bk =
      (racAdd (racSize u) row (Tbl.get [] (s.ctl u).rac bk)).map (fun e => if e.1 = row then (row, 0) else e)) := by
  unfold racHot at h
  unfold State.activate
  rw [State.ctl_setCtl hr]
  simp only [h, if_true]
  exact ⟨trivial, fun hrac => Tbl.get_set_self [] hrac bk _⟩

end Activate

theorem mem_neighbours {row radius n m : Nat} : m ∈ neighbours row radius n ↔ (m < n ∧ m ≠ row ∧ row ≤ m + radius ∧ m ≤ row + radius) := by
  unfold neighbours
  simp only [List.mem_filterMap, List.mem_range, Option.ite_none_right_eq_some, Option.some.injEq]
  constructor
  · rintro ⟨i, hi, ⟨hne, hle, hlt⟩, rfl⟩
    omega
  · rintro ⟨hlt, hne, hlo, hhi⟩
    exact ⟨m + radius - row, by omega, by omega, by omega⟩

end Sys2Proof.Machine

namespace Sys2Proof
open Machine Claims

/-- Settles O45: what an accepted request leaves, the order in which a controller issues, a request served, and an activate counted. -/
theorem memoryOrder : Obligations.MemoryOrder := by
  refine ⟨fun s u k w rank bank row col data h hr => ?accepted, fun s u k j rank bank row col data any h hr hs => ?readBack,
    fun s u err lane _ hf => exec_memoryCommandIssue_pauses err lane hf, fun s u err lane hm hf => ?order, fun s u i err lane r hi => ?served,
    fun size row t hne hn => ⟨racAdd_new hn, racAdd_full hne hn⟩, fun size row a n b hn => racAdd_again n hn,
    fun s u bk row hr ho => ⟨activate_opens u bk row hr ho, fun h => activate_cool u bk row hr ?cool, fun h => activate_hot u bk row hr ?hot⟩,
    fun row radius n m => mem_neighbours⟩
  case accepted =>
    obtain ⟨hreqs, hstore, hwake, hpanic⟩ := queued_memFill (u := u) (arriving s u k w rank bank row col data) hr
    refine ⟨_, exec_memoryRequest h w data, hreqs, ?_, fun hreg hu => hwake hreg (decide_eq_true hu), hpanic⟩
    rw [hstore, arriving_write]
    cases w <;> rfl
  case readBack =>
    obtain ⟨-, hstore, -⟩ := queued_memFill (u := u) (arriving s u k true rank bank row col data) hr
    refine ⟨_, exec_memoryRequest h true data, fun ht => ⟨_, exec_memoryRequest ht false any, ?_⟩⟩
    obtain ⟨hreqs, -⟩ := queued_memFill (u := u) (arriving _ u j false rank bank row col any)
      (State.memFill_rising (State.queued_rising u (arriving s u k true rank bank row col data) hr) u)
    rw [getLast_plain hreqs, arriving_reads hs hstore, arriving_write]
    rfl
  case order =>
    refine ⟨fun rank n rest hc => exec_memoryCommandIssue_forced err lane hm hf rfl hc,
      fun bk rows rest hc hn => exec_memoryCommandIssue_neighbour err lane hm hf rfl hc hn,
      fun k i hc hn hq hp => exec_memoryCommandIssue_panic err lane hm hf rfl hc hn hq hp,
      fun i hc hn hq hp => exec_memoryCommandIssue_urgent err lane hm hf rfl hc hn hq hp,
      fun rank d rest hc hn h1 hd => exec_memoryCommandIssue_debt err lane hm hf rfl hc hn h1 hd,
      fun i hc hn h1 hd hx => ?_, fun hc hn h1 hd hx => ?_⟩
    all_goals rw [exec_memoryCommandIssue_other err lane hm hf rfl hc hn h1 hd, hx]
  case served =>
    refine ⟨fun hh => ⟨_, issued_reqs (s.ctl u) s u i err r, fun hw => ⟨?_, ?_⟩, fun hw => ⟨?_, ?_⟩⟩, serveReq_miss err lane hi⟩
    · simp [Ctl.issued, hw]
    · rw [serveReq_hit err lane hi hh, if_neg (by simp [hw])]
    · simp [Ctl.issued, hw]
    · rw [serveReq_hit err lane hi hh, if_pos hw]
  case cool => simpa [racHot] using h
  case hot => simpa [racHot] using h

end Sys2Proof
end

section
/-! SUPPORT. Refresh, temperature, activate windows, scrub and errors of the memory controllers (R417 to R427). -/
namespace Sys2Proof.Machine
open Sys2Proof.Claims

/-- The posting of an event leaves every register of the blocks above the host interface. -/
theorem State.post_rd (s : State) {code : Nat} (hc : code < 65536) (payload : List Nat) {f : Fld} (hf : 0x12000 ≤ f.addr) :
    (s.post code payload).rd f = s.rd f :=
  s.postRec_rd code payload [] (by simp only [Fld.key, HIF_EVLOST.count]; omega)

theorem State.post_regsOk {s : State} (h : s.regsOk = true) (code : Nat) (payload : List Nat) : (s.post code payload).regsOk = true :=
  State.postRec_regsOk h code payload []

theorem State.bit_congr {s t : State} {f : Fld} (h : t.rd f = s.rd f) : t.bit f = s.bit f := congrArg (· != 0) h

/-! ### Refresh -/

section Due
variable {s : State} {u rank : Nat} (hm : s.memServes u = true) (hk : rank < s.ranksOf u)

/-- R419: no refresh falls due in a forced burst. -/
theorem exec_refreshDue_burst (hb : (s.ctl u).burst.contains rank = true) : exec (.refreshDue u rank) s = .next s := by
  refine if_neg fun ⟨_, _, h, _⟩ => ?_
  rw [hb] at h
  exact Bool.false_ne_true h

/-- The controller from which a refresh that falls due counts its next interval, and whether a panicking port has a request for the rank. -/
def Ctl.dueNow (c : Ctl) (clk rank : Nat) : Ctl := { c with dueAt := Tbl.set 0 c.dueAt rank clk }
def Ctl.refreshHeld (c : Ctl) (rank : Nat) : Bool := c.reqs.any (fun r => r.rank == rank && c.panic.contains r.port)

include hm hk in
theorem exec_refreshDue (hb : (s.ctl u).burst.contains rank = false) (hp : Past s (Tbl.get 0 (s.ctl u).dueAt rank) (s.trefi u)) :
    exec (.refreshDue u rank) s = .next (if (s.ctl u).refreshHeld rank = true ∧ Tbl.get 0 (s.ctl u).debt rank < 4 then
        (s.setCtl u { (s.ctl u).dueNow s.clk rank with debt := Tbl.set 0 (s.ctl u).debt rank (Tbl.get 0 (s.ctl u).debt rank + 1) }).inc
          (memFld u MCH_REFPOST.count MCD_REFPOST.count)
      else s.setCtl u { (s.ctl u).dueNow s.clk rank with forced := Tbl.upd 0 (s.ctl u).forced rank (· + 1) }) := by
  have hgo : s.memServes u = true ∧ rank < s.ranksOf u ∧ (!(s.ctl u).burst.contains rank) = true ∧
      s.elapsed (Tbl.get 0 (s.ctl u).dueAt rank) (s.trefi u) = true := ⟨hm, hk, by rw [hb]; rfl, State.elapsed_of_le hp⟩
  refine (if_pos hgo).trans ?_
  split <;> rename_i h
  · exact congrArg _ (if_pos h).symm
  · exact congrArg _ (if_neg h).symm

end Due

/-! ### Double-rate mode -/

/-- A controller's debt recounted as double-rate mode is entered or left (R419). -/
def Ctl.recounted (on : Bool) (c : Ctl) : Ctl :=
  if on then { c with debt := [], forced := c.debt.foldl (fun t e => Tbl.upd 0 t e.1 (· + 2 * e.2)) c.forced,
                      burst := c.debt.foldl (fun l e => insNat e.1 l) c.burst }
  else { c with debt := c.debt.map (fun e => (e.1, (e.2 + 1) / 2)) }

/-- One controller of a stack or channel recounted. -/
def State.recountStep (on : Bool) (s : State) (u : Nat) : State :=
  (if on then s.addSat (memFld u MCH_REFRECOUNT.count MCD_REFRECOUNT.count) (s.ctl u).debt.length else s).setCtl u ((s.ctl u).recounted on)

theorem forced_recounted {debt : Tbl Nat} : ∀ {lo : Nat} (forced : Tbl Nat), Tbl.risingFrom lo debt = true → Tbl.risingFrom 0 forced = true →
    ∀ r, Tbl.get 0 (debt.foldl (fun t e => Tbl.upd 0 t e.1 (· + 2 * e.2)) forced) r = Tbl.get 0 forced r + 2 * Tbl.get 0 debt r := by
  induction debt with
  | nil => intros; rfl
  | cons e debt ih =>
    obtain ⟨k, d⟩ := e
    intro lo forced hd hf r
    rw [Tbl.risingFrom, Bool.and_eq_true] at hd
    unfold Tbl.upd at ih ⊢
    rw [List.foldl_cons, ih _ hd.2 (Tbl.rising_set 0 k _ hf), Tbl.get]
    by_cases hk : k = r
    · subst hk
      rw [Tbl.get_set_self 0 hf, Tbl.get_below 0 hd.2 (Nat.lt_succ_self k), if_pos rfl]
      rfl
    · rw [Tbl.get_set_ne 0 _ _ (Ne.symm hk), if_neg hk]

theorem get_map_val {f : Nat → Nat} (h0 : f 0 = 0) (r : Nat) : ∀ l : Tbl Nat, Tbl.get 0 (l.map (fun e => (e.1, f e.2))) r = f (Tbl.get 0 l r)
  | [] => h0.symm
  | (k, d) :: l => by
    rw [List.map_cons, Tbl.get, Tbl.get, get_map_val h0 r l]
    split <;> rfl

section Recount
variable {on : Bool} {s : State}

theorem State.recountStep_ctl (hr : Tbl.risingFrom 0 s.mem.ctls = true) (u : Nat) : (State.recountStep on s u).ctl u = (s.ctl u).recounted on := by
  cases on <;> exact State.ctl_setCtl hr u _

theorem State.recountStep_ctl_ne {u v : Nat} (h : v ≠ u) : (State.recountStep on s u).ctl v = s.ctl v := by
  cases on <;> exact State.ctl_setCtl_ne _ _ h

theorem State.recountStep_rising (hr : Tbl.risingFrom 0 s.mem.ctls = true) (u : Nat) :
    Tbl.risingFrom 0 (State.recountStep on s u).mem.ctls = true := by
  cases on <;> exact State.setCtl_rising hr u _

/-- The recount of a controller writes no field but MCH_REFRECOUNT or MCD_REFRECOUNT, which starts at bit 0. -/
theorem State.recountStep_rd {f : Fld} (hf : f.key % 64 ≠ 0) (u : Nat) : (State.recountStep on s u).rd f = s.rd f := by
  cases on
  · rfl
  · refine s.rd_wr_ne _ fun h => hf ?_
    rw [h]
    unfold memFld
    split <;> simp [Fld.key, MCH_REFRECOUNT.count, MCD_REFRECOUNT.count]

theorem State.recountStep_regsOk (h : s.regsOk = true) (u : Nat) : (State.recountStep on s u).regsOk = true := by
  cases on
  · exact h
  · exact s.wr_regsOk h _ _

theorem State.recount_rd {f : Fld} (hf : f.key % 64 ≠ 0) : ∀ (us : List Nat) (s : State), (us.foldl (State.recountStep on) s).rd f = s.rd f
  | [], _ => rfl
  | u :: us, s => (State.recount_rd hf us _).trans (s.recountStep_rd hf u)

theorem State.recount_regsOk : ∀ (us : List Nat) {s : State}, s.regsOk = true → (us.foldl (State.recountStep on) s).regsOk = true
  | [], _, h => h
  | u :: us, _, h => State.recount_regsOk us (State.recountStep_regsOk h u)

theorem State.recount_ctl_ne {v : Nat} : ∀ (us : List Nat) (s : State), v ∉ us → (us.foldl (State.recountStep on) s).ctl v = s.ctl v
  | [], _, _ => rfl
  | u :: us, s, h => by
    rw [List.mem_cons, not_or] at h
    rw [List.foldl_cons, State.recount_ctl_ne us _ h.2, State.recountStep_ctl_ne h.1]

/-- Each controller of the list is recounted once. -/
theorem State.recount_ctl {v : Nat} : ∀ (us : List Nat) {s : State}, us.Nodup → Tbl.risingFrom 0 s.mem.ctls = true → v ∈ us →
    (us.foldl (State.recountStep on) s).ctl v = (s.ctl v).recounted on
  | [], _, _, _, hv => absurd hv List.not_mem_nil
  | u :: us, s, hn, hr, hv => by
    rw [List.nodup_cons] at hn
    rw [List.foldl_cons]
    by_cases huv : v = u
    · subst huv
      rw [State.recount_ctl_ne us _ hn.1, State.recountStep_ctl hr]
    · rw [State.recount_ctl us hn.2 (State.recountStep_rising hr u) ((List.mem_cons.mp hv).resolve_left huv), State.recountStep_ctl_ne huv]

end Recount

/-- MCH_STAT.refresh_2x of a stack, or MCD_STAT.refresh_2x of a channel; and their sensor_fault. -/
def rateFld (g : Nat) : Fld := if g < 8 then MCH_STAT.refresh_2x g else MCD_STAT.refresh_2x (g - 8)
def faultFld (g : Nat) : Fld := if g < 8 then MCH_STAT.sensor_fault g else MCD_STAT.sensor_fault (g - 8)

/-- The first controller of a stack or channel. -/
def groupHead (g : Nat) : Nat := (groupCtls g).headD 0

theorem groupHead_eq (g : Nat) : groupHead g = if g < 8 then 64 * g else 384 + (g - 8) := by
  unfold groupHead groupCtls
  split <;> rfl

theorem refresh2x_group {g : Nat} (hg : g < 6 ∨ (8 ≤ g ∧ g < 16)) (s : State) : s.refresh2x (groupHead g) = s.bit (rateFld g) := by
  unfold State.refresh2x rateFld memFld isDdr chanOf stackOf
  rw [groupHead_eq]
  by_cases h : g < 8
  · rw [if_pos h, if_pos h, if_neg (by simp; omega), Nat.mul_div_cancel_left g (by decide)]
  · rw [if_neg h, if_neg h, if_pos (by simp), Nat.add_sub_cancel_left]

theorem groupCtls_nodup (g : Nat) : (groupCtls g).Nodup := by
  unfold groupCtls
  split
  · exact List.nodup_range.map fun a b h => Nat.add_left_cancel h
  · exact List.nodup_singleton _

theorem faultFld_offset (g : Nat) : (faultFld g).key % 64 ≠ 0 := by
  unfold faultFld
  split <;> simp only [Fld.key, MCH_STAT.sensor_fault, MCD_STAT.sensor_fault] <;> omega

theorem faultFld_ne_rateFld (g : Nat) : (faultFld g).key ≠ (rateFld g).key := by
  unfold faultFld rateFld
  split <;> simp only [Fld.key, MCH_STAT.sensor_fault, MCD_STAT.sensor_fault, MCH_STAT.refresh_2x, MCD_STAT.refresh_2x] <;> omega

theorem rateFld_high (g : Nat) : 0x12000 ≤ (rateFld g).addr ∧ 0x12000 ≤ (faultFld g).addr := by
  unfold rateFld faultFld
  split <;> simp only [MCH_STAT.refresh_2x, MCD_STAT.refresh_2x, MCH_STAT.sensor_fault, MCD_STAT.sensor_fault] <;> omega

theorem State.doubleRate_eq (s : State) (g : Nat) (on : Bool) : ∃ code payload, code < 65536 ∧
    s.doubleRate g on = (((groupCtls g).foldl (State.recountStep on) s).wrBit (rateFld g) on).post code payload := by
  have hstep : State.recountStep on = fun s u =>
      let c := s.ctl u
      let s := if on then s.addSat (memFld u MCH_REFRECOUNT.count MCD_REFRECOUNT.count) c.debt.length else s
      if on then s.setCtl u { c with debt := [], forced := c.debt.foldl (fun t e => Tbl.upd 0 t e.1 (· + 2 * e.2)) c.forced,
                                     burst := c.debt.foldl (fun l e => insNat e.1 l) c.burst }
      else s.setCtl u { c with debt := c.debt.map (fun e => (e.1, (if on then 2 * e.2 else (e.2 + 1) / 2))) } := by
    funext s u
    cases on <;> rfl
  unfold State.doubleRate rateFld
  rw [hstep]
  by_cases h : g < 8
  · simp only [if_pos h]
    exact ⟨_, _, by decide, rfl⟩
  · simp only [if_neg h]
    exact ⟨_, _, by decide, rfl⟩

section DoubleRate
variable {s : State} (g : Nat) (on : Bool)

theorem State.doubleRate_ctl (hr : Tbl.risingFrom 0 s.mem.ctls = true) {u : Nat} (hu : u ∈ groupCtls g) :
    (s.doubleRate g on).ctl u = (s.ctl u).recounted on := by
  obtain ⟨code, p, -, h⟩ := s.doubleRate_eq g on
  rw [h, State.ctl_congr (congrArg Mem.ctls (State.post_mem _ code p))]
  exact State.recount_ctl _ (groupCtls_nodup g) hr hu

theorem State.doubleRate_rate (h : s.regsOk = true) : (s.doubleRate g on).bit (rateFld g) = on := by
  obtain ⟨code, p, hc, he⟩ := s.doubleRate_eq g on
  have hw : (rateFld g).width = 1 := by unfold rateFld; split <;> rfl
  unfold State.bit
  rw [he, State.post_rd _ hc p (rateFld_high g).1]
  unfold State.wrBit
  rw [State.rd_wr_self (State.recount_regsOk _ h), hw]
  cases on <;> rfl

theorem State.doubleRate_fault : (s.doubleRate g on).rd (faultFld g) = s.rd (faultFld g) := by
  obtain ⟨code, p, hc, he⟩ := s.doubleRate_eq g on
  rw [he, State.post_rd _ hc p (rateFld_high g).2]
  exact (State.rd_wr_ne _ _ (faultFld_ne_rateFld g)).trans (State.recount_rd (faultFld_offset g) _ s)

end DoubleRate

/-! ### Temperature -/

/-- The temperature of a stack or module: the higher of a module's two sensors. -/
def tempOf (g t0 t1 : Nat) : Nat := if g < 8 then t0 else max t0 t1

/-- A temperature read that succeeds, as the registers show it. -/
def State.tempShown (s : State) (g t0 t1 : Nat) : State :=
  let u := { tempTaken s g with mem := { (tempTaken s g).mem with tempBad := Tbl.erase s.mem.tempBad g } }.wr (faultFld g) 0
  if g < 8 then u.wr (MCH_STAT.temp_c g) t0 else (u.wr (MCD_TEMP.ts0_c (g - 8)) t0).wr (MCD_TEMP.ts1_c (g - 8)) t1

/-- A temperature read that fails: one more failure in a row. -/
def State.tempMissed (s : State) (g : Nat) : State :=
  { tempTaken s g with mem := { (tempTaken s g).mem with tempBad := Tbl.set 0 s.mem.tempBad g (Tbl.get 0 s.mem.tempBad g + 1) } }

section Temp
variable {s : State} {g : Nat} (hg : g < 6 ∨ (8 ≤ g ∧ g < 16))
  (hp : Past s (Tbl.get 0 s.mem.tempAt g) (if g < 8 then 1000000 else 16000000))

theorem State.tempShown_ctls (s : State) (g t0 t1 : Nat) : (s.tempShown g t0 t1).mem.ctls = s.mem.ctls := by
  unfold State.tempShown
  split <;> rfl

theorem State.tempShown_ctl (s : State) (g t0 t1 u : Nat) : (s.tempShown g t0 t1).ctl u = s.ctl u := State.ctl_congr (s.tempShown_ctls g t0 t1) u

theorem State.tempShown_regsOk (h : s.regsOk = true) (g t0 t1 : Nat) : (s.tempShown g t0 t1).regsOk = true := by
  have hu : ({ tempTaken s g with mem := { (tempTaken s g).mem with tempBad := Tbl.erase s.mem.tempBad g } }.wr (faultFld g) 0).regsOk = true :=
    State.wr_regsOk (s := { s with mem := _ }) h _ _
  unfold State.tempShown
  split
  · exact State.wr_regsOk hu _ _
  · exact State.wr_regsOk (State.wr_regsOk hu _ _) _ _

theorem State.tempShown_rate (s : State) (g t0 t1 : Nat) : (s.tempShown g t0 t1).bit (rateFld g) = s.bit (rateFld g) := by
  refine State.bit_congr ?_
  have hfault := State.rd_wr_ne { tempTaken s g with mem := { (tempTaken s g).mem with tempBad := Tbl.erase s.mem.tempBad g } } 0
    (faultFld_ne_rateFld g).symm
  unfold State.tempShown
  by_cases h : g < 8
  · rw [if_pos h]
    refine (State.rd_wr_ne _ _ ?_).trans hfault
    unfold rateFld
    simp [h, Fld.key, MCH_STAT.temp_c, MCH_STAT.refresh_2x]
  · rw [if_neg h]
    refine (State.rd_wr_ne _ _ ?_).trans ((State.rd_wr_ne _ _ ?_).trans hfault) <;> unfold rateFld <;>
      simp only [h, if_false, Fld.key, MCD_TEMP.ts0_c, MCD_TEMP.ts1_c, MCD_STAT.refresh_2x] <;> omega

include hg hp

theorem tempDue : ¬(16 ≤ g ∨ (6 ≤ g ∧ g < 8) ∨ (!s.elapsed (Tbl.get 0 s.mem.tempAt g) (ms (if g < 8 then 1 else 16))) = true) := by
  have hms : ms (if g < 8 then 1 else 16) = if g < 8 then 1000000 else 16000000 := by split <;> rfl
  have he : s.elapsed (Tbl.get 0 s.mem.tempAt g) (ms (if g < 8 then 1 else 16)) = true := by
    rw [hms]
    exact State.elapsed_of_le hp
  rw [he]
  simp only [Bool.not_true, Bool.false_eq_true, or_false]
  omega

theorem exec_memoryTempRead_ok (t0 t1 : Nat) : exec (.memoryTempRead g true t0 t1) s =
    .next (if 85 < tempOf g t0 t1 ∧ (!s.bit (rateFld g)) = true then (s.tempShown g t0 t1).doubleRate g true
      else if tempOf g t0 t1 ≤ 82 ∧ s.bit (rateFld g) = true then (s.tempShown g t0 t1).doubleRate g false
      else s.tempShown g t0 t1) := by
  refine (if_neg (tempDue hg hp)).trans ?_
  show Host.Outcome.next (if 85 < tempOf g t0 t1 ∧ (!(s.tempShown g t0 t1).refresh2x (groupHead g)) = true then
      (s.tempShown g t0 t1).doubleRate g true
    else if tempOf g t0 t1 ≤ 82 ∧ (s.tempShown g t0 t1).refresh2x (groupHead g) = true then (s.tempShown g t0 t1).doubleRate g false
    else s.tempShown g t0 t1) = _
  rw [refresh2x_group hg, s.tempShown_rate]

theorem exec_memoryTempRead_missed (hn : Tbl.get 0 s.mem.tempBad g + 1 ≠ 3) (t0 t1 : Nat) :
    exec (.memoryTempRead g false t0 t1) s = .next (s.tempMissed g) :=
  (if_neg (tempDue hg hp)).trans (if_neg hn)

/-- The third failure in a row (R419). -/
def State.sensorFault (s : State) (g : Nat) : State :=
  ((s.tempMissed g).wr (faultFld g) 1).post (if g < 8 then 0x0904 else 0x0914) [if g < 8 then g else g - 8]

theorem exec_memoryTempRead_fault (hn : Tbl.get 0 s.mem.tempBad g + 1 = 3) (t0 t1 : Nat) : exec (.memoryTempRead g false t0 t1) s =
    .next (if (s.sensorFault g).bit (rateFld g) = true then s.sensorFault g else (s.sensorFault g).doubleRate g true) := by
  refine (if_neg (tempDue hg hp)).trans ((if_pos hn).trans ?_)
  show Host.Outcome.next (if (s.sensorFault g).refresh2x (groupHead g) = true then s.sensorFault g else (s.sensorFault g).doubleRate g true) = _
  rw [refresh2x_group hg]

end Temp

section Fault
variable {s : State} (h : s.regsOk = true) (g : Nat)
include h

theorem sensorFault_regsOk : (s.sensorFault g).regsOk = true :=
  State.post_regsOk (State.wr_regsOk (s := s.tempMissed g) h _ _) _ _

theorem sensorFault_fault : (s.sensorFault g).rd (faultFld g) = 1 := by
  have hw : (faultFld g).width = 1 := by unfold faultFld; split <;> rfl
  unfold State.sensorFault
  rw [State.post_rd _ (by split <;> decide) _ (rateFld_high g).2, State.rd_wr_self (s := s.tempMissed g) h, hw]
  rfl

/-- A sensor fault leaves its stack or channel in double-rate mode, and shows the fault (R419). -/
theorem sensorFault_doubles :
    let t := if (s.sensorFault g).bit (rateFld g) = true then s.sensorFault g else (s.sensorFault g).doubleRate g true
    t.bit (rateFld g) = true ∧ t.rd (faultFld g) = 1 := by
  intro t
  by_cases hb : (s.sensorFault g).bit (rateFld g) = true
  · rw [show t = _ from if_pos hb]
    exact ⟨hb, sensorFault_fault h g⟩
  · rw [show t = _ from if_neg hb]
    exact ⟨State.doubleRate_rate g true (sensorFault_regsOk h g), (State.doubleRate_fault g true).trans (sensorFault_fault h g)⟩

end Fault

/-! ### Activate windows and the patrol scrub -/

theorem exec_activateTableClear {s : State} (hr : Tbl.risingFrom 0 s.mem.ctls = true) (hp : Past s s.mem.racAt 32000000) :
    ∃ t, exec .activateTableClear s = .next t ∧ (∀ u, t.ctl u = { s.ctl u with rac := [] }) ∧ t.regs = s.regs ∧ t.mem.store = s.mem.store :=
  ⟨_, if_pos (State.elapsed_of_le hp), fun u => get_mapAll ({} : Ctl) (fun _ c => { c with rac := [] }) u rfl hr, rfl, rfl⟩

section Scrub
variable {s : State} {u period : Nat}

theorem scrubStart_eq : (if (s.ctl u).scrubOn = 0 ∨ ((s.ctl u).scrubAt = 0 ∧ s.elapsed ((s.ctl u).scrubOn - 1) period = true) then s.clk
    else (s.ctl u).scrubOn - 1) = scrubStart s u period := by
  unfold scrubStart State.elapsed
  simp only [decide_eq_true_eq]

variable (hperiod : s.rd (memFld u MCH_SCRUB.period_h MCD_SCRUB.period_h) * 3600 * 10 ^ 9 = period)
include hperiod

/-- R422: the scrub waits for the time of its next location. -/
theorem exec_patrolScrub_waits (h : period = 0 ∨ s.scrubLocs u * (s.clk - scrubStart s u period) < (s.ctl u).scrubAt * period) :
    exec (.patrolScrub u) s = .next s := by
  show execPatrolScrub u s = _
  unfold execPatrolScrub
  simp only [hperiod, scrubStart_eq]
  exact if_pos (by tauto)

variable (hm : s.memServes u = true) (hw : u < 384 ∨ s.rd (MCD_STAT.state (u - 384)) ≠ 7) (hl : 0 < s.scrubLocs u)
  (hd : (s.ctl u).portDepth 5 < 128) (h0 : 0 < period) (ht : (s.ctl u).scrubAt * period ≤ s.scrubLocs u * (s.clk - scrubStart s u period))
include hm hw hl hd h0 ht

/-- R422: the scrub reads its next location through port 5. -/
theorem exec_patrolScrub (next : Nat) (hn : (if (s.ctl u).scrubAt + 1 < s.scrubLocs u then (s.ctl u).scrubAt + 1 else 0) = next) :
    exec (.patrolScrub u) s = .next ((s.setCtl u { s.ctl u with
      reqs := (s.ctl u).reqs ++ [s.scrubReq u], scrubAt := next,
      scrubOn := (if next = 0 then scrubStart s u period + period else scrubStart s u period) + 1 }).memFill u) := by
  have hasleep : ¬(isDdr u = true ∧ s.rd (MCD_STAT.state (chanOf u)) = 7) := fun ⟨h1, h7⟩ =>
    hw.elim (fun h => absurd (of_decide_eq_true h1) (by omega)) fun h => h h7
  show execPatrolScrub u s = _
  unfold execPatrolScrub
  simp only [hperiod, scrubStart_eq, hn]
  refine if_neg ?_
  rw [hm]
  simp only [Bool.not_true, Bool.false_eq_true, hasleep, false_or]
  omega

end Scrub

/-! ### Errors -/

section Errors
variable {s : State} {u lane : Nat}

theorem isDdr_of_ge (h : 384 ≤ u) : isDdr u = true := decide_eq_true h
theorem isDdr_of_lt (h : u < 384) : isDdr u = false := decide_eq_false (by omega)

theorem memError_corrected_ddr (h : 384 ≤ u) : s.memError u 1 lane = s.inc (MCD_CE.count (u - 384)) := by
  show s.memCe u lane = _
  unfold State.memCe memFld
  simp only [isDdr_of_ge h, if_true]
  rfl

/-- A corrected error of a lane counted in its window (R425). -/
def State.laneErr (s : State) (u lane : Nat) : State :=
  let a := s.inc (MCH_CE.count (u / 64))
  a.setCtl u { a.ctl u with ce := Tbl.set (0, 0) (a.ctl u).ce lane (winAdd s.clk (Tbl.get (0, 0) (s.ctl u).ce lane)) }

theorem State.laneErr_rd {f : Fld} (hf : f.key ≠ (MCH_CE.count (u / 64)).key) : (s.laneErr u lane).rd f = s.rd f := s.rd_wr_ne _ hf

theorem memError_corrected_hbm (h : u < 384) : s.memError u 1 lane =
    if (winAdd s.clk (Tbl.get (0, 0) (s.ctl u).ce lane)).2 ≤ s.rd (MCH_REPAIRCFG.lane_ce (u / 64)) ∨ (!s.bit (MCH_REPAIRCFG.auto_repair (u / 64))) = true
      then s.laneErr u lane else (s.laneErr u lane).autoRepair u lane := by
  have hce : (s.laneErr u lane).rd (MCH_REPAIRCFG.lane_ce (u / 64)) = s.rd (MCH_REPAIRCFG.lane_ce (u / 64)) :=
    State.laneErr_rd (by simp only [Fld.key, MCH_REPAIRCFG.lane_ce, MCH_CE.count]; omega)
  have har : (s.laneErr u lane).bit (MCH_REPAIRCFG.auto_repair (u / 64)) = s.bit (MCH_REPAIRCFG.auto_repair (u / 64)) :=
    State.bit_congr (State.laneErr_rd (by simp only [Fld.key, MCH_REPAIRCFG.auto_repair, MCH_CE.count]; omega))
  rw [← hce, ← har]
  show s.memCe u lane = _
  unfold State.memCe memFld
  simp only [isDdr_of_lt h, Bool.false_eq_true, if_false]
  rfl

section Repair
variable (hu : u < 384) (hl : lane < 32) (hc : (s.ctl u).fixing.contains lane = false)
include hu hl hc

theorem laneRepair_starts (h : s.freeSpares u ≠ 0) :
    s.laneRepair u lane = .inr (s.setCtl u { s.ctl u with fixing := (s.ctl u).fixing ++ [lane] }) := by
  unfold State.laneRepair
  rw [if_neg (by omega), if_neg (by rw [hc]; simp [h])]

theorem autoRepair_starts (h : s.freeSpares u ≠ 0) : s.autoRepair u lane = s.setCtl u { s.ctl u with fixing := (s.ctl u).fixing ++ [lane] } := by
  unfold State.autoRepair
  rw [laneRepair_starts hu hl hc h]

theorem autoRepair_none (h : s.freeSpares u = 0) : s.autoRepair u lane =
    (s.setCtl u { s.ctl u with ce := Tbl.erase (s.ctl u).ce lane }).post 0x0902 (leBytes 2 u ++ [lane, 0xFF]) := by
  have hr : s.laneRepair u lane = .inl (.busy, dIN_USE) := by
    unfold State.laneRepair
    rw [if_neg (by omega), if_pos (.inl h)]
  unfold State.autoRepair
  rw [hr]
  exact if_neg (by rw [hc]; simp [h])

end Repair

/-- An uncorrectable error in its window; then counted and posted for its stack or channel (R423). -/
def State.ueWindow (s : State) (u : Nat) : State := s.setCtl u { s.ctl u with ue := winAdd s.clk (s.ctl u).ue }
def State.hbmUe (s : State) (k : Nat) : State :=
  (s.inc (MCH_UE.count k)).postRated 0x0903 k (ms 1) 1 (fun n => [k, 0, 0, 0] ++ leBytes 4 n)
def State.ddrUe (s : State) (ch : Nat) : State :=
  (s.inc (MCD_UE.count ch)).postRated 0x0913 ch (ms 1) 1 (fun n => [ch, 0, 0, 0] ++ leBytes 4 n)

theorem memError_uncorrected_hbm {x : State} (h : u < 384) (hx : (s.ueWindow u).hbmUe (u / 64) = x) : s.memError u 2 lane =
    if x.rd (MCH_REPAIRCFG.ue_retire (u / 64)) < (winAdd s.clk (s.ctl u).ue).2 ∧ x.bit (MCH_REPAIRCFG.auto_retire (u / 64)) = true ∧
      x.rd (MCH_PCSTAT.state (u / 64) (u % 64)) = 0 then x.pcRetire u 1 else x := by
  subst hx
  show s.memUe u = _
  unfold State.memUe
  simp only [isDdr_of_lt h, Bool.false_eq_true, if_false]
  rfl

theorem memError_uncorrected_ddr {x : State} (h : 384 ≤ u) (hx : (s.ueWindow u).ddrUe (u - 384) = x) : s.memError u 2 lane =
    if x.rd (MCD_ERRCFG.fail_ue (u - 384)) < (winAdd s.clk (s.ctl u).ue).2 ∧ x.rd (MCD_STAT.state (u - 384)) = 3 then x.chanFail (u - 384) 0
      else x := by
  subst hx
  show s.memUe u = _
  unfold State.memUe
  simp only [isDdr_of_ge h, if_true]
  rfl

end Errors

end Sys2Proof.Machine

namespace Sys2Proof
open Machine Claims

/-- Settles O46: refresh by its debt, double-rate mode by the temperature, activate windows, the patrol scrub by its time, and errors by
their windows. -/
theorem memoryUpkeep : Obligations.MemoryUpkeep := by
  refine ⟨fun s u rank hm hk => ⟨fun hb => exec_refreshDue_burst hb, fun hb hp hh hd => ?postponed, fun hb hp h => ?forced⟩,
    fun s g t0 t1 hregs hr hg hp htbl => ⟨fun ht h2 => ?enters, fun ht h2 => ?leaves, fun h82 h85 => ?stays,
      fun hn => exec_memoryTempRead_missed hg hp hn t0 t1, fun hn => ?fault⟩,
    fun s hr hp => exec_activateTableClear hr hp,
    fun s u hm hw hl hd => ⟨fun h0 ht => ⟨fun hlt => ?nextLoc, fun hle => ?lastLoc⟩, fun h => exec_patrolScrub_waits rfl h⟩,
    fun s u lane => ⟨rfl, memError_corrected_ddr, fun hu => ⟨fun h => ?counted, fun hce har hl hc => ?repair⟩,
      fun hu => ⟨fun h => ?hbmIn, fun h h1 h2 => ?hbmOut⟩, fun hu => ⟨fun h => ?ddrIn, fun h h3 => ?ddrOut⟩⟩⟩
  case postponed => exact (exec_refreshDue hm hk hb hp).trans (congrArg _ (if_pos ⟨hh, hd⟩))
  case forced =>
    refine (exec_refreshDue hm hk hb hp).trans (congrArg _ (if_neg fun ⟨hh, hd⟩ => ?_))
    rcases h with h | h
    · exact Bool.false_ne_true (h.symm.trans hh)
    · exact absurd hd (Nat.not_lt.mpr h)
  case enters =>
    have h2' : s.bit (rateFld g) = false := (refresh2x_group hg s).symm.trans h2
    refine ⟨_, (exec_memoryTempRead_ok hg hp t0 t1).trans (congrArg _ (if_pos ⟨ht, by rw [h2']; rfl⟩)), ?_, fun u hu => ?_⟩
    · exact (refresh2x_group hg _).trans (State.doubleRate_rate g true (State.tempShown_regsOk hregs g t0 t1))
    · rw [State.doubleRate_ctl g true (by rw [s.tempShown_ctls]; exact hr) hu, s.tempShown_ctl]
      exact ⟨rfl, forced_recounted _ (htbl u hu).1 (htbl u hu).2⟩
  case leaves =>
    have h2' : s.bit (rateFld g) = true := (refresh2x_group hg s).symm.trans h2
    refine ⟨_, (exec_memoryTempRead_ok hg hp t0 t1).trans (congrArg _ ((if_neg ?_).trans (if_pos ⟨ht, h2'⟩))), ?_, fun u hu => ?_⟩
    · rw [h2']
      simp
    · exact (refresh2x_group hg _).trans (State.doubleRate_rate g false (State.tempShown_regsOk hregs g t0 t1))
    · rw [State.doubleRate_ctl g false (by rw [s.tempShown_ctls]; exact hr) hu, s.tempShown_ctl]
      exact ⟨rfl, fun r => get_map_val (f := fun d => (d + 1) / 2) rfl r _⟩
  case stays =>
    refine ⟨_, (exec_memoryTempRead_ok hg hp t0 t1).trans (congrArg _ ((if_neg fun h => absurd h.1 (Nat.not_lt.mpr h85)).trans
      (if_neg fun h => absurd h.1 (Nat.not_le.mpr h82)))), ?_, s.tempShown_ctls g t0 t1⟩
    exact (refresh2x_group hg _).trans ((s.tempShown_rate g t0 t1).trans (refresh2x_group hg s).symm)
  case fault =>
    obtain ⟨hrate, hfault⟩ := sensorFault_doubles hregs g
    refine ⟨_, exec_memoryTempRead_fault hg hp hn t0 t1, (refresh2x_group hg _).trans hrate, hfault⟩
  case nextLoc =>
    rw [exec_patrolScrub rfl hm hw hl hd h0 ht _ (if_pos hlt), if_neg (Nat.succ_ne_zero _)]
  case lastLoc =>
    rw [exec_patrolScrub rfl hm hw hl hd h0 ht _ (if_neg (Nat.not_lt.mpr hle)), if_pos rfl]
  case counted =>
    refine (memError_corrected_hbm hu).trans (if_pos (h.imp_right fun h0 => ?_))
    simp [State.bit, h0]
  case repair =>
    have hgo := (memError_corrected_hbm (s := s) (lane := lane) hu).trans (if_neg fun h => h.elim (Nat.not_le.mpr hce) (by simp [har]))
    exact ⟨fun h => hgo.trans (autoRepair_starts hu hl hc h), fun h => hgo.trans (autoRepair_none hu hl hc h)⟩
  case hbmIn => exact (memError_uncorrected_hbm hu rfl).trans (if_neg fun h' => absurd h'.1 (Nat.not_lt.mpr h))
  case hbmOut => exact (memError_uncorrected_hbm hu rfl).trans (if_pos ⟨h, h1, h2⟩)
  case ddrIn => exact (memError_uncorrected_ddr hu rfl).trans (if_neg fun h' => absurd h'.1 (Nat.not_lt.mpr h))
  case ddrOut => exact (memError_uncorrected_ddr hu rfl).trans (if_pos ⟨h, h3⟩)

end Sys2Proof
end

section
/-! SUPPORT. Which register fields the long operations of the memory controllers leave: events, the free counts, counter storage, and records. -/
namespace Sys2Proof.Machine
open Sys2Proof.Claims

/-- `t` keeps the register table of `s` in order, and every field whose key is in `K`. -/
structure KeepsFields (K : Nat → Prop) (s t : State) : Prop where
  regsOk : s.regsOk = true → t.regsOk = true
  rd : ∀ f : Fld, K f.key → t.rd f = s.rd f

/-- The registers of blocks MCH and MCD. -/
def memoryKey (k : Nat) : Prop := 0x300000 * 64 ≤ k ∧ k < 0x400000 * 64

namespace KeepsFields
variable {K : Nat → Prop} {s t u : State}

theorem refl (K : Nat → Prop) (s : State) : KeepsFields K s s := ⟨id, fun _ _ => rfl⟩

theorem trans (h : KeepsFields K s t) (h' : KeepsFields K t u) : KeepsFields K s u :=
  ⟨fun hr => h'.regsOk (h.regsOk hr), fun f hf => (h'.rd f hf).trans (h.rd f hf)⟩

theorem mono {K' : Nat → Prop} (h : KeepsFields K s t) (hk : ∀ k, K' k → K k) : KeepsFields K' s t := ⟨h.regsOk, fun f hf => h.rd f (hk _ hf)⟩

theorem wr (h : KeepsFields K s t) {f : Fld} (hf : ¬ K f.key) (v : Nat) : KeepsFields K s (t.wr f v) :=
  ⟨fun hr => t.wr_regsOk (h.regsOk hr) f v, fun g hg => (t.rd_wr_ne v fun he => hf (he ▸ hg)).trans (h.rd g hg)⟩

theorem ofRegs (h : KeepsFields K s t) (hu : u.regs = t.regs) : KeepsFields K s u :=
  ⟨fun hr => by unfold State.regsOk; rw [hu]; exact h.regsOk hr, fun f hf => (State.rd_congr hu f).trans (h.rd f hf)⟩

theorem setBpm (h : KeepsFields K s t) (b : Bpm) : KeepsFields K s { t with bpm := b } := h.ofRegs rfl
theorem setMem (h : KeepsFields K s t) (m : Mem) : KeepsFields K s { t with mem := m } := h.ofRegs rfl

theorem ite {p : Prop} [Decidable p] (ht : KeepsFields K s t) (hu : KeepsFields K s u) : KeepsFields K s (if p then t else u) := by
  split <;> assumption

theorem foldl {α : Type} {f : State → α → State} : ∀ (l : List α) {t : State}, (∀ x ∈ l, ∀ t, KeepsFields K s t → KeepsFields K s (f t x)) →
    KeepsFields K s t → KeepsFields K s (l.foldl f t)
  | [], _, _, h => h
  | x :: l, _, hf, h => foldl l (fun y hy => hf y (.tail _ hy)) (hf x (.head _) _ h)

theorem post (h : KeepsFields K s t) {code : Nat} (hc : ¬ K (HIF_EVLOST.count (code / 256)).key) (p : List Nat) :
    KeepsFields K s (t.post code p) :=
  ⟨fun hr => State.post_regsOk (h.regsOk hr) code p,
    fun g hg => (State.postRec_rd t code p [] fun he => hc (he ▸ hg)).trans (h.rd g hg)⟩

end KeepsFields

section Memory
variable {s t : State}

theorem not_memoryKey {f : Fld} (h : f.addr + 1 ≤ 0x300000 ∧ f.lo < 64 ∨ 0x400000 ≤ f.addr) : ¬ memoryKey f.key := by
  unfold memoryKey Fld.key
  omega

theorem KeepsFields.postMem (h : KeepsFields memoryKey s t) {code : Nat} (hc : code < 65536) (p : List Nat) :
    KeepsFields memoryKey s (t.post code p) := h.post (not_memoryKey (.inl (by simp only [HIF_EVLOST.count]; omega))) p

theorem KeepsFields.syncFree (h : KeepsFields memoryKey s t) : KeepsFields memoryKey s t.syncFree := by
  have setFree : ∀ {t f m}, KeepsFields memoryKey s t → f.addr + 1 ≤ 0x300000 ∧ f.lo < 64 → m.addr + 1 ≤ 0x300000 ∧ m.lo < 64 → ∀ v,
      KeepsFields memoryKey s (t.setFree f m v) := fun h hf hm v => (h.wr (not_memoryKey (.inl hf)) v).wr (not_memoryKey (.inl hm)) _
  have poolLow : ∀ {t}, KeepsFields memoryKey s t → ∀ a b c d, KeepsFields memoryKey s (t.poolLow a b c d) := fun h _ _ _ _ =>
    .ite ((h.setBpm _).postMem (by decide) _) (.ite ((h.setBpm _).postMem (by decide) _) h)
  unfold State.syncFree
  dsimp only
  refine .ite h (.ite (poolLow ?_ _ _ _ _) ?_) <;>
    refine poolLow (poolLow (setFree (setFree (setFree (setFree h ?_ ?_ _) ?_ ?_ _) ?_ ?_ _) ?_ ?_ _) _ _ _ _) _ _ _ _ <;> decide

theorem KeepsFields.syncStripe (h : KeepsFields memoryKey s t) : KeepsFields memoryKey s t.syncStripe :=
  (h.wr (not_memoryKey (.inl (by decide))) _).syncFree

theorem KeepsFields.syncSeg (h : KeepsFields memoryKey s t) : KeepsFields memoryKey s t.syncSeg :=
  (h.wr (not_memoryKey (.inr (by decide))) _).wr (not_memoryKey (.inr (by decide))) _

theorem KeepsFields.putRec (h : KeepsFields memoryKey s t) (f : Record → Record) : KeepsFields memoryKey s (t.putRec f) := by
  unfold State.putRec State.syncAreas
  refine .foldl _ (fun a ha t ht => ?_) (h.ofRegs rfl)
  have ha : a < 3 := List.mem_range.mp ha
  refine .wr (.wr (.wr (.wr ht ?_ _) ?_ _) ?_ _) ?_ _ <;> refine not_memoryKey (.inl ?_)
  all_goals simp only [UPD_AREASTAT.state, UPD_AREASTAT.confirmed, UPD_AREASTAT.trial, UPD_AREAVER.version]; omega

theorem KeepsFields.saveDelays (h : KeepsFields memoryKey s t) (l : List (Nat × Nat)) : KeepsFields memoryKey s (t.saveDelays l) :=
  .ite h (h.putRec _)

theorem KeepsFields.xfibLose (h : KeepsFields memoryKey s t) (ch : Nat) : KeepsFields memoryKey s (t.xfibLose ch) := by
  unfold State.xfibLose
  exact .ite (h.ofRegs rfl) h

end Memory

end Sys2Proof.Machine
end

section
/-! SUPPORT. Roles, training, re-centring, repair, retirement, evacuation and power saving of memory channels (R401 to R433). -/
namespace Sys2Proof.Machine
open Sys2Proof.Claims

/-! ### The write of a role -/

/-- The byte address of MCD_CFG of a channel (*BAR0 map*). -/
def mcdAddr (ch : Nat) : Nat := 0x380000 + 0x2000 * ch

/-- The fields of MCD_CFG. -/
def mcdCfgFields (ch : Nat) : List FldAcc :=
  [⟨MCD_CFG.role ch, .rws, []⟩, ⟨MCD_CFG.retain ch, .rws, []⟩, ⟨MCD_CFG.refused ch, .w1c, []⟩, ⟨MCD_CFG.max_rate ch, .rws, [(4800, 8800)]⟩]

/-- A write that gives MCD_CFG.refused no 1 leaves it as it is. -/
theorem clearOnes_mcdcfg (s : State) (ch : Nat) {v : Nat} (hv : bitsAt v 28 1 = 0) :
    s.clearOnes .bar0 v (mcdCfgFields ch) = untouched (MCD_CFG.refused ch) s := by
  have hbit : Nat.land (s.rd (MCD_CFG.refused ch)) (Nat.xor (2 ^ 1 - 1) (bitsAt v 28 1)) % 2 ^ 1 = s.rd (MCD_CFG.refused ch) % 2 ^ 1 := by
    rw [hv]
    show (s.rd (MCD_CFG.refused ch) &&& (2 ^ 1 - 1)) % 2 ^ 1 = _
    rw [Nat.and_two_pow_sub_one_eq_mod, Nat.mod_mod]
  show s.wr (MCD_CFG.refused ch) (Nat.land (s.rd (MCD_CFG.refused ch)) (Nat.xor (2 ^ 1 - 1) (bitsAt v 28 1))) = s.wr (MCD_CFG.refused ch) _
  exact congrArg (fun x => { s with regs := Tbl.set 0 s.regs (MCD_CFG.refused ch).key x }) hbit

section RoleWrite
variable {ch : Nat} (hc : ch < 8)
include hc

theorem mcdAddr_bounds : 0x380000 ≤ mcdAddr ch ∧ mcdAddr ch < 0x390000 ∧ mcdAddr ch % 4 = 0 := by unfold mcdAddr; omega

theorem mcdAddr_channel : (mcdAddr ch - 0x380000) / 0x2000 = ch := by unfold mcdAddr; omega

omit hc in
theorem mcdAddr_offset : mcdAddr ch % 0x2000 = 0 := by unfold mcdAddr; omega

theorem regAt_mcd : regAt (mcdAddr ch) = .word (mcdCfgFields ch) := by
  obtain ⟨hlo, hhi, -⟩ := mcdAddr_bounds hc
  have hreg : regAt (mcdAddr ch) = regsMCD ch 0 := by
    simp (disch := omega) only [regAt, if_neg, if_pos, mcdAddr_channel hc, mcdAddr_offset]
  exact hreg.trans rfl

theorem isMsix_mcd : isMsix (mcdAddr ch) = false := by
  obtain ⟨hlo, -⟩ := mcdAddr_bounds hc
  simp only [isMsix, Bool.and_eq_false_iff, decide_eq_false_iff_not]
  omega

theorem isFdAddr_mcd : isFdAddr (mcdAddr ch) = decide (ch < 4) := by
  unfold isFdAddr mcdAddr
  by_cases h : ch < 4
  · rw [decide_eq_true h]
    simp only [Bool.or_eq_true, Bool.and_eq_true, decide_eq_true_eq]
    omega
  · rw [decide_eq_false h]
    simp only [Bool.or_eq_false_iff, Bool.and_eq_false_iff, decide_eq_false_iff_not]
    omega

theorem hook_mcd (s : State) (v : Nat) : s.hook .bar0 (mcdAddr ch) (2 ^ 32 - 1) v v =
    some (s.writeMcdCfg ch (bitsAt v 30 2) (bitOf v 29) true (bitsAt v 0 16)) := by
  obtain ⟨hlo, hhi, -⟩ := mcdAddr_bounds hc
  unfold State.hook State.hookLines
  rw [if_neg (by omega), if_neg (by omega), if_neg (by omega), if_neg (by omega), if_pos ⟨hlo, hhi⟩, mcdAddr_channel hc, mcdAddr_offset]
  rfl

/-- R404: a write of MCD_CFG is carried to the die that holds the channel's registers, and taken there by `writeMcdCfg`. -/
theorem exec_mcdRoleWrite {s : State} (ho : ChanOpen s ch) {role retain rate v : Nat} (hrole : role < 4) (hretain : retain < 2) (hrate : rate < 65536)
    (hv : role * 2 ^ 30 + retain * 2 ^ 29 + rate = v) : exec (.mcdRoleWrite ch v) s =
    .next (chanWrite s ch v (fun u => (untouched (MCD_CFG.refused ch) u).writeMcdCfg ch role (retain == 1) true rate)) := by
  have hlt : v < 2 ^ 32 := by omega
  have hrefused : bitsAt v 28 1 = 0 := by unfold bitsAt; omega
  have h30 : bitsAt v 30 2 = role := by unfold bitsAt; omega
  have h29 : bitOf v 29 = (retain == 1) := by
    have hdiv : v / 2 ^ 29 % 2 = retain := by omega
    exact congrArg (· == 1) hdiv
  have h0 : bitsAt v 0 16 = rate := by unfold bitsAt; omega
  have hhook : ∀ u : State, (untouched (MCD_CFG.refused ch) u).hook .bar0 (mcdAddr ch) (2 ^ 32 - 1) v v =
      some ((untouched (MCD_CFG.refused ch) u).writeMcdCfg ch role (retain == 1) true rate) := fun u => by
    rw [hook_mcd hc, h30, h29, h0]
  obtain ⟨hlo, hhi, h4⟩ := mcdAddr_bounds hc
  have hok : accessOk (mcdAddr ch) 4 = true := accessOk_four (by omega) h4
  refine congrArg Host.Outcome.next ((if_pos hc).trans ?_)
  unfold ChanOpen at ho
  unfold chanWrite
  by_cases hd : ch < 4
  · rw [if_pos hd] at ho ⊢
    exact State.poke_fd ho hok ((isFdAddr_mcd hc).trans (decide_eq_true hd)) (isMsix_mcd hc) (regAt_mcd hc) hlt (clearOnes_mcdcfg _ ch hrefused)
      (hhook s.fdReach)
  · rw [if_neg hd] at ho ⊢
    exact State.poke_open ho hok ((isFdAddr_mcd hc).trans (decide_eq_false hd)) (isMsix_mcd hc) (by omega) (regAt_mcd hc) hlt
      (clearOnes_mcdcfg _ ch hrefused) (hhook s)

end RoleWrite

section WriteRole
variable {s : State} {ch role : Nat} {retain : Bool}

theorem badRole_iff : badRole ch role retain = true ↔ (role = 1 ∧ 4 ≤ ch) ∨ (role = 2 ∧ ch < 4) ∨ (retain = true ∧ (role = 0 ∨ role = 2)) := by
  simp [badRole, or_assoc]

theorem writeMcdCfg_bad (h : badRole ch role retain = true) : s.writeMcdCfg ch role retain true 0 = s.wr (MCD_CFG.refused ch) 1 := by
  unfold State.writeMcdCfg
  rw [if_neg (show ¬(4800 ≤ 0 ∧ 0 ≤ 8800) by omega)]
  exact if_pos (badRole_iff.mp h)

/-- What a role that the channel can take does, by the channel's state (R404 to R406). -/
theorem writeMcdCfg_good (h : badRole ch role retain = false) {v : State} (hv : s.abandonTest 3 (· == ch) = v) {st : Nat}
    (hst : s.rd (MCD_STAT.state ch) = st) : s.writeMcdCfg ch role retain true 0 =
    if st = 0 ∨ st = 5 then storeRole v ch role retain
    else if st = 1 then (if role = 0 then storeRole v ch role retain else (storeRole v ch role retain).chanTrain ch)
    else if st = 3 ∧ role = 0 then (match v.chanEvacuate ch with | .inr w => storeRole w ch role retain | .inl _ => v.wr (MCD_CFG.refused ch) 1)
    else v.wr (MCD_CFG.refused ch) 1 := by
  subst hv hst
  have hb : ¬((role = 1 ∧ 4 ≤ ch) ∨ (role = 2 ∧ ch < 4) ∨ (retain = true ∧ (role = 0 ∨ role = 2))) := fun hb =>
    Bool.false_ne_true (h.symm.trans (badRole_iff.mpr hb))
  unfold State.writeMcdCfg
  rw [if_neg (show ¬(4800 ≤ 0 ∧ 0 ≤ 8800) by omega)]
  refine (if_neg hb).trans ?_
  cases (s.abandonTest 3 (· == ch)).chanEvacuate ch <;> rfl

/-- max_rate is written by itself, with a rate that it accepts. -/
theorem writeMcdCfg_rate {roles : Bool} {rate : Nat} (h : 4800 ≤ rate ∧ rate ≤ 8800) :
    s.writeMcdCfg ch role retain roles rate = (s.wr (MCD_CFG.max_rate ch) rate).writeMcdCfg ch role retain roles 0 := by
  unfold State.writeMcdCfg
  rw [if_pos h, if_neg (show ¬(4800 ≤ 0 ∧ 0 ≤ 8800) by omega)]

theorem writeMcdCfg_noRate {roles : Bool} {rate : Nat} (h : rate < 4800 ∨ 8800 < rate) :
    s.writeMcdCfg ch role retain roles rate = s.writeMcdCfg ch role retain roles 0 := by
  unfold State.writeMcdCfg
  rw [if_neg (show ¬(4800 ≤ rate ∧ rate ≤ 8800) by omega), if_neg (show ¬(4800 ≤ 0 ∧ 0 ≤ 8800) by omega)]

end WriteRole

/-! ### Training of a stack -/

/-- One more attempt at a failing step (R408). -/
def State.repeated (s : State) (g : Nat) : State :=
  { s with mem := { s.mem with tries := Tbl.set 0 s.mem.tries g (Tbl.get 0 s.mem.tries g + 1) } }

theorem State.retry_getD (s t : State) (g : Nat) : (s.retry g).getD t = if Tbl.get 0 s.mem.tries g < 2 then s.repeated g else t := by
  show (if Tbl.get 0 s.mem.tries g < 2 then some (s.repeated g) else none).getD t = _
  split <;> rfl

section Hbm
variable {s : State} {k : Nat} {bad : List Nat} {sweeps : List (Nat × Nat)}

theorem exec_memoryTrainingDone_hbm (hk : k < 6) (h1 : s.rd (MCH_STAT.state k) = 1) (fail nibble kind ranks cap : Nat) (rates : List Nat) :
    exec (.memoryTrainingDone k fail nibble kind ranks cap rates bad sweeps) s = .next (s.hbmTrained k (fail == 0) bad sweeps) := by
  show execMemoryTrainingDone k fail nibble kind ranks cap rates bad sweeps s = _
  unfold execMemoryTrainingDone
  rw [if_pos hk, if_pos h1]

theorem hbmTrained_retries (hf : s.hbmFails k bad sweeps ≠ []) : s.hbmTrained k true bad sweeps =
    if Tbl.get 0 s.mem.tries k < 2 then s.repeated k else (s.hbmFails k bad sweeps).foldl (fun s x => s.replaceLanes x.1 x.2) (s.tried k) := by
  refine (if_neg (by simp)).trans ?_
  split
  · next h => exact absurd h hf
  · exact State.retry_getD ..

theorem pcstat_ne_stat {st p lo w r : Nat} (hp : p < 64) (hl : lo < 64) :
    (⟨0x300000 + 0x4000 * st + 0x100 + 4 * p, lo, w, r⟩ : Fld).key ≠ (MCH_STAT.state k).key := by
  simp only [Fld.key, MCH_STAT.state]
  omega

theorem mapSpares_keeps_stat (s : State) (pc : Nat) (lanes : List Nat) :
    KeepsFields (· = (MCH_STAT.state k).key) s (s.mapSpares pc lanes) := by
  have hkey : (MCH_PCSTAT.spares_used (pc / 64) (pc % 64)).key ≠ (MCH_STAT.state k).key := pcstat_ne_stat (Nat.mod_lt _ (by decide)) (by decide)
  unfold State.mapSpares
  exact KeepsFields.wr (K := (· = (MCH_STAT.state k).key)) (.setMem (.refl _ s) _) hkey _

/-- What a pseudo-channel takes over from the training of its stack does not touch the stack's state. -/
theorem pcTrained_keeps_stat (s : State) (pc : Nat) (eyes : List (Nat × Nat × Nat × Nat)) :
    KeepsFields (· = (MCH_STAT.state k).key) s (s.pcTrained pc eyes) := by
  have hm := mapSpares_keeps_stat (k := k) s pc []
  unfold State.pcTrained
  refine .ite ?_ ?_
  · exact KeepsFields.wr (f := MCH_PCSTAT.state (pc / 64) (pc % 64)) (hm.setBpm _)
      (pcstat_ne_stat (Nat.mod_lt _ (by decide)) (by decide)) 2
  · exact KeepsFields.wr (f := MCH_PCSTAT.eye_min (pc / 64) (pc % 64)) (hm.setMem _)
      (pcstat_ne_stat (Nat.mod_lt _ (by decide)) (by decide)) _

/-- R407: training that passes makes its stack READY. -/
theorem hbmTrained_ready (hk : k < 6) (hr : s.regsOk = true) (hf : s.hbmFails k bad sweeps = []) :
    (s.hbmTrained k true bad sweeps).rd (MCH_STAT.state k) = 2 := by
  obtain ⟨v, hv⟩ : ∃ v, (s.tried k).wr (MCH_STAT.state k) 2 = v := ⟨_, rfl⟩
  have hst : v.rd (MCH_STAT.state k) = 2 := by
    rw [← hv]
    exact State.rd_wr_self (s := s.tried k) hr _ 2
  obtain ⟨w, hw⟩ : ∃ w, (List.range 64).foldl (fun s p => s.pcTrained (64 * k + p) (hbmEyes sweeps p))
      ((v.wr (MCH_ID.rate k) 80).wr (MCH_ID.capacity_gib k) 48) = w := ⟨_, rfl⟩
  have hpcs : KeepsFields (· = (MCH_STAT.state k).key) v w := by
    rw [← hw]
    refine .foldl _ (fun p _ t ht => ht.trans (pcTrained_keeps_stat t _ _)) (.wr (.wr (.refl _ v) ?_ _) ?_ _) <;>
      simp only [Fld.key, MCH_ID.rate, MCH_ID.capacity_gib, MCH_STAT.state] <;> omega
  have hend : s.hbmTrained k true bad sweeps =
      (w.saveDelays ((w.mem.eyes.filter (fun e => e.1 / 2048 == k)).map (fun e => (e.1, e.2.1)))).syncSeg := by
    unfold State.hbmTrained
    rw [if_neg (by simp), hf, ← hw, ← hv]
  have hmem : memoryKey (MCH_STAT.state k).key := by
    simp only [memoryKey, Fld.key, MCH_STAT.state]
    omega
  rw [hend, (KeepsFields.syncSeg ((KeepsFields.refl _ w).saveDelays _)).rd _ hmem, hpcs.rd _ rfl, hst]

end Hbm

/-! ### Training of a channel -/

/-- No key: what keeps the register table in order, whatever it writes. -/
abbrev noKey (_ : Nat) : Prop := False

/-- What entering service writes to the registers of the memory blocks: the state and the rate. -/
theorem chanUp_keeps (s : State) (ch rate : Nat) :
    KeepsFields memoryKey ((s.wr (MCD_STAT.state ch) 3).wr (MCD_STAT.rate ch) rate) (s.chanUp ch rate) := by
  unfold State.chanUp
  dsimp only
  refine .ite (.syncStripe (.ofRegs (t := _) (.ite (.postMem (.setMem (.refl _ _) _) (by decide) _) (.setMem (.refl _ _) _)) rfl))
    (.ite (.postMem (.setMem (.refl _ _) _) (by decide) _) (.setMem (.refl _ _) _))

section ChanUp
variable {s : State} {ch : Nat} (hc : ch < 8)
include hc

theorem mcdstat_memory (lo w r : Nat) (hl : lo < 64) : memoryKey (⟨0x380000 + 0x2000 * ch + 0x4, lo, w, r⟩ : Fld).key := by
  simp only [memoryKey, Fld.key]
  omega

theorem chanUp_state (hr : s.regsOk = true) (rate : Nat) : (s.chanUp ch rate).rd (MCD_STAT.state ch) = 3 := by
  rw [(chanUp_keeps s ch rate).rd (MCD_STAT.state ch) (mcdstat_memory hc 28 4 1 (by decide)),
    State.rd_wr_ne _ _ (by simp [Fld.key, MCD_STAT.state, MCD_STAT.rate])]
  exact State.rd_wr_self hr _ 3

theorem chanUp_rate (hr : s.regsOk = true) {rate : Nat} (hrate : rate < 65536) : (s.chanUp ch rate).rd (MCD_STAT.rate ch) = rate := by
  rw [(chanUp_keeps s ch rate).rd (MCD_STAT.rate ch) (mcdstat_memory hc 0 16 0 (by decide)), State.rd_wr_self (s.wr_regsOk hr _ _)]
  exact Nat.mod_eq_of_lt hrate

theorem chanUp_retained (rate : Nat) : (s.chanUp ch rate).rd (MCD_STAT.retained ch) = s.rd (MCD_STAT.retained ch) := by
  rw [(chanUp_keeps s ch rate).rd (MCD_STAT.retained ch) (mcdstat_memory hc 24 1 0 (by decide)),
    State.rd_wr_ne _ _ (by simp [Fld.key, MCD_STAT.retained, MCD_STAT.rate]),
    State.rd_wr_ne _ _ (by simp [Fld.key, MCD_STAT.retained, MCD_STAT.state])]

end ChanUp

/-- A channel's registers as the SPD of its module gives them (R401). -/
def State.spdTaken (s : State) (ch kind ranks cap : Nat) : State :=
  ((s.wr (MCD_DIMM.type ch) (if kind ≤ 2 then kind else 0)).wr (MCD_DIMM.ranks ch) ranks).wr (MCD_DIMM.capacity_gib ch) cap

/-- A module that a channel can work with: its kind, ranks and capacity, and a rate (R401, R402). -/
def State.fits (s : State) (ch kind ranks cap : Nat) (rates : List Nat) : Bool :=
  (kind == 1 || kind == 2) && (ranks == 1 || ranks == 2 || ranks == 4) && decide (cap ≤ 256) && (s.pickRate ch kind rates != 0)

theorem fits_false_iff {s : State} {ch kind ranks cap : Nat} {rates : List Nat} : s.fits ch kind ranks cap rates = false ↔
    kind = 0 ∨ 2 < kind ∨ (ranks ≠ 1 ∧ ranks ≠ 2 ∧ ranks ≠ 4) ∨ 256 < cap ∨ s.pickRate ch kind rates = 0 := by
  simp only [State.fits, Bool.and_eq_false_iff, Bool.or_eq_false_iff, beq_eq_false_iff_ne, decide_eq_false_iff_not, bne_eq_false_iff_eq]
  omega

theorem spdTaken_pickRate (s : State) (ch kind ranks cap : Nat) (rates : List Nat) :
    (s.spdTaken ch kind ranks cap).pickRate ch kind rates = s.pickRate ch kind rates := by
  have hkey : ∀ lo, lo < 64 → (MCD_CFG.max_rate ch).key ≠ (0x380000 + 0x2000 * ch + 0x8) * 64 + lo := fun lo hl => by
    simp only [Fld.key, MCD_CFG.max_rate]
    omega
  have hmax : (s.spdTaken ch kind ranks cap).rd (MCD_CFG.max_rate ch) = s.rd (MCD_CFG.max_rate ch) :=
    (State.rd_wr_ne _ _ (hkey 0 (by decide))).trans ((State.rd_wr_ne _ _ (hkey 24 (by decide))).trans (State.rd_wr_ne _ _ (hkey 30 (by decide))))
  unfold State.pickRate
  rw [hmax]

theorem setEyes_mem (s : State) (ch : Nat) (sweeps : List (Nat × Nat)) : (s.setEyes ch sweeps).mem = s.mem :=
  List.foldlRecOn (motive := fun t : State => t.mem = s.mem) _ _ rfl fun _ h _ _ => h

theorem setEyes_keeps (s : State) (ch : Nat) (sweeps : List (Nat × Nat)) : KeepsFields noKey s (s.setEyes ch sweeps) :=
  .foldl _ (fun _ _ _ h => .wr (.wr (.wr (.wr h id _) id _) id _) id _) (.refl _ s)

theorem loadDelays_keeps (s : State) (ch : Nat) : KeepsFields noKey s (s.loadDelays ch) := by
  refine .foldl _ (fun n _ t h => ?_) (.refl _ s)
  split
  · exact .wr (.wr h id _) id _
  · exact h

/-- A channel whose every nibble passes starts with an empty store (R409). -/
def State.ddrEmptied (v : State) (ch : Nat) : State :=
  let base := ((384 + ch) * 8 * 64) * 2 ^ 40
  let m := v.mem
  { v with mem := { m with store := m.store.filter (fun e => decide (e.1 < base) || decide (base + 2 ^ 49 ≤ e.1)),
                           initAt := Tbl.set 0 m.initAt ch (v.clk + 1) } }

/-- Such a channel with its delays stored, its controller at rest and nothing retained (R406, R432). -/
def State.ddrSettled (v : State) (ch : Nat) (sweeps : List (Nat × Nat)) : State :=
  ((((v.ddrEmptied ch).saveDelays ((ddrEyes sweeps).zipIdx.map (fun x => (32 * (384 + ch) + x.2, 256 * x.1.1 + x.1.2.2.1)))).tried (8 + ch)).setCtl
    (384 + ch) {}).wr (MCD_STAT.retained ch) 0

/-- What a sweep of a fitting module leads to, by the nibble at which it fails. -/
def State.ddrSwept (v : State) (ch rate : Nat) (sweeps : List (Nat × Nat)) : Option Nat → State
  | some n => (v.retry (8 + ch)).getD ((v.tried (8 + ch)).trainFail ch n 0)
  | none => (v.ddrSettled ch sweeps).chanUp ch rate

theorem ddrSettled_keeps (v : State) (ch : Nat) (sweeps : List (Nat × Nat)) : KeepsFields noKey v (v.ddrSettled ch sweeps) := by
  unfold State.ddrSettled
  have hempty : KeepsFields memoryKey v (v.ddrEmptied ch) := .ofRegs (.refl _ v) rfl
  obtain ⟨w, hw⟩ : ∃ w, v.ddrEmptied ch = w := ⟨_, rfl⟩
  rw [hw] at hempty ⊢
  have hsaved := (hempty.saveDelays ((ddrEyes sweeps).zipIdx.map fun x => (32 * (384 + ch) + x.2, 256 * x.1.1 + x.1.2.2.1))).mono
    (K' := noKey) fun _ => False.elim
  generalize w.saveDelays _ = x at hsaved ⊢
  exact KeepsFields.wr (K := noKey) (t := (x.tried (8 + ch)).setCtl (384 + ch) {}) (hsaved.ofRegs rfl) id 0

section Ddr
variable {s : State} {ch fail nibble kind ranks cap : Nat} {rates bad : List Nat} {sweeps : List (Nat × Nat)}

theorem exec_memoryTrainingDone_ddr (hc : ch < 8) (hr : s.mem.restore.contains ch = false) (h2 : s.rd (MCD_STAT.state ch) = 2) :
    exec (.memoryTrainingDone (ch + 8) fail nibble kind ranks cap rates bad sweeps) s =
      .next (s.ddrTrained ch fail nibble kind ranks cap rates sweeps) := by
  show execMemoryTrainingDone (ch + 8) fail nibble kind ranks cap rates bad sweeps s = _
  unfold execMemoryTrainingDone
  rw [if_neg (by omega), if_neg (by omega), Nat.add_sub_cancel, if_neg (by simpa using hr), if_pos h2]

theorem exec_memoryTrainingDone_restore (hc : ch < 8) (hr : s.mem.restore.contains ch = true) :
    exec (.memoryTrainingDone (ch + 8) fail nibble kind ranks cap rates bad sweeps) s = .next (s.restored ch (fail == 0)) := by
  show execMemoryTrainingDone (ch + 8) fail nibble kind ranks cap rates bad sweeps s = _
  unfold execMemoryTrainingDone
  rw [if_neg (by omega), if_neg (by omega), Nat.add_sub_cancel, if_pos hr]

variable {u : State} (hu : s.spdTaken ch kind ranks cap = u)
include hu

/-- R401: a module that gives no answer. -/
theorem ddrTrained_silent (h : fail = 3) : s.ddrTrained ch fail nibble kind ranks cap rates sweeps = (u.tried (8 + ch)).trainFail ch 0xFF 2 := by
  subst hu
  exact if_pos h

variable (h3 : fail ≠ 3)
include h3

/-- R401, R402: a module of a kind that the channel cannot work with. -/
theorem ddrTrained_otherKind (h : fail = 2 ∨ s.fits ch kind ranks cap rates = false) :
    s.ddrTrained ch fail nibble kind ranks cap rates sweeps = (u.tried (8 + ch)).trainFail ch 0xFF 1 := by
  rw [fits_false_iff, ← spdTaken_pickRate s ch kind ranks cap] at h
  subst hu
  exact (if_neg h3).trans (if_pos h)

variable (h2 : fail ≠ 2) (hf : s.fits ch kind ranks cap rates = true)
include h2 hf

theorem ddrTrained_goes {v : State} (hv : u.setEyes ch sweeps = v) : s.ddrTrained ch fail nibble kind ranks cap rates sweeps =
    v.ddrSwept ch (s.pickRate ch kind rates) sweeps (v.ddrBad ch fail nibble sweeps) := by
  have hgo : ¬(fail = 2 ∨ kind = 0 ∨ 2 < kind ∨ (ranks ≠ 1 ∧ ranks ≠ 2 ∧ ranks ≠ 4) ∨ 256 < cap ∨ u.pickRate ch kind rates = 0) := by
    rw [← hu, spdTaken_pickRate, ← fits_false_iff, hf]
    simp [h2]
  subst hu hv
  rw [← spdTaken_pickRate s ch kind ranks cap]
  exact (if_neg h3).trans (if_neg hgo)

/-- R408: a failing step is repeated up to twice, then the channel fails at its nibble. -/
theorem ddrTrained_fails {v : State} (hv : u.setEyes ch sweeps = v) {n : Nat} (hb : v.ddrBad ch fail nibble sweeps = some n) :
    s.ddrTrained ch fail nibble kind ranks cap rates sweeps =
      if Tbl.get 0 s.mem.tries (8 + ch) < 2 then v.repeated (8 + ch) else (v.tried (8 + ch)).trainFail ch n 0 := by
  have hmem : v.mem.tries = s.mem.tries := by rw [← hv, setEyes_mem, ← hu]; rfl
  rw [ddrTrained_goes hu h3 h2 hf hv, hb, ← hmem]
  exact State.retry_getD ..

/-- R402, R409: the channel is in service at the rate picked. -/
theorem ddrTrained_up (hr : s.regsOk = true) {v : State} (hv : u.setEyes ch sweeps = v) (hb : v.ddrBad ch fail nibble sweeps = none) :
    ∃ w : State, w.regsOk = true ∧ s.ddrTrained ch fail nibble kind ranks cap rates sweeps = w.chanUp ch (s.pickRate ch kind rates) := by
  have hreg : KeepsFields noKey s v := by
    rw [← hv, ← hu]
    exact .trans (.wr (.wr (.wr (.refl _ s) id _) id _) id _) (setEyes_keeps _ ch sweeps)
  refine ⟨v.ddrSettled ch sweeps, (hreg.trans (ddrSettled_keeps v ch sweeps)).regsOk hr, ?_⟩
  rw [ddrTrained_goes hu h3 h2 hf hv, hb]
  rfl

end Ddr

/-! ### The restore of a channel (R432, R619) -/

theorem chanTrain_rd (s : State) (ch : Nat) (f : Fld) : (s.chanTrain ch).rd f = (s.wr (MCD_STAT.state ch) 2).rd f := rfl

/-- What a channel held is lost, counters among it (R619). -/
def State.contentsLost (s : State) (ch : Nat) : State :=
  let m := s.mem
  let t := { s with mem := { m with restore := m.restore.filter (· != ch), masked := Tbl.erase m.masked ch } }
  (t.segsAt (8 + ch)).foldl State.cntClearSeg t

section Restore
variable {s : State} {ch : Nat} (hc : ch < 8) (hr : s.regsOk = true)
include hc hr

theorem restored_ok : (s.restored ch true).rd (MCD_STAT.retained ch) = 1 ∧ (s.restored ch true).rd (MCD_STAT.state ch) = 3 := by
  have hl := (loadDelays_keeps s ch).regsOk hr
  have hw := (s.loadDelays ch).wr_regsOk hl (MCD_STAT.retained ch) 1
  have hres : s.restored ch true = ((s.loadDelays ch).wr (MCD_STAT.retained ch) 1).chanUp ch ((s.loadDelays ch).rd (MCD_STAT.rate ch)) := rfl
  rw [hres]
  exact ⟨(chanUp_retained hc _).trans (State.rd_wr_self hl _ 1), chanUp_state hc hw _⟩

omit hc hr in
theorem foldl_cntClearSeg_regs (l : List Nat) (s : State) : (l.foldl State.cntClearSeg s).regs = s.regs :=
  List.foldlRecOn (motive := fun t : State => t.regs = s.regs) _ _ rfl fun _ h _ _ => h

omit hc hr in
theorem contentsLost_regs (s : State) (ch : Nat) : (s.contentsLost ch).regs = s.regs := foldl_cntClearSeg_regs _ _

omit hc hr in
theorem restored_fails_eq : s.restored ch false =
    (((((s.loadDelays ch).contentsLost ch).wr (MCD_STAT.retained ch) 0).post 0x0918 [ch]).xfibLose ch).chanTrain ch := by
  obtain ⟨w, hw⟩ : ∃ w, s.loadDelays ch = w := ⟨_, rfl⟩
  unfold State.restored
  rw [hw]
  rfl

theorem restored_fails : (s.restored ch false).rd (MCD_STAT.retained ch) = 0 ∧ (s.restored ch false).rd (MCD_STAT.state ch) = 2 := by
  have hl := (loadDelays_keeps s ch).regsOk hr
  have hregs := contentsLost_regs (s.loadDelays ch) ch
  rw [restored_fails_eq]
  generalize (s.loadDelays ch).contentsLost ch = w at hregs ⊢
  have hw : w.regsOk = true := by unfold State.regsOk; rw [hregs]; exact hl
  have hk : KeepsFields memoryKey (w.wr (MCD_STAT.retained ch) 0) (((w.wr (MCD_STAT.retained ch) 0).post 0x0918 [ch]).xfibLose ch) :=
    .xfibLose (.postMem (.refl _ _) (by decide) _) ch
  have hx := hk.regsOk (w.wr_regsOk hw _ _)
  have hret := (hk.rd (MCD_STAT.retained ch) (mcdstat_memory hc 24 1 0 (by decide))).trans (State.rd_wr_self hw _ 0)
  generalize ((w.wr (MCD_STAT.retained ch) 0).post 0x0918 [ch]).xfibLose ch = x at hx hret ⊢
  exact ⟨(chanTrain_rd x ch _).trans ((x.rd_wr_ne 2 (by simp [Fld.key, MCD_STAT.retained, MCD_STAT.state])).trans hret),
    (chanTrain_rd x ch _).trans (State.rd_wr_self hx _ 2)⟩

end Restore

/-! ### The rate of a channel (R402) -/

theorem le_foldl_max {l : List Nat} (b : Nat) : b ≤ l.foldl max b ∧ ∀ x ∈ l, x ≤ l.foldl max b := by
  induction l generalizing b with
  | nil => simp
  | cons y l ih =>
    obtain ⟨hb, hl⟩ := ih (max b y)
    exact ⟨by simp only [List.foldl_cons]; omega, List.forall_mem_cons.mpr ⟨by simp only [List.foldl_cons]; omega, hl⟩⟩

theorem foldl_max_mem {l : List Nat} (b : Nat) : l.foldl max b = b ∨ l.foldl max b ∈ l := by
  induction l generalizing b with
  | nil => exact .inl rfl
  | cons y l ih =>
    rcases ih (max b y) with h | h
    · rcases Nat.le_total b y with hle | hle
      · exact .inr (List.mem_cons.mpr (.inl (h.trans (Nat.max_eq_right hle))))
      · exact .inl (h.trans (Nat.max_eq_left hle))
    · exact .inr (.tail _ h)

section PickRate
variable {s : State} {ch kind : Nat} {rates : List Nat}

/-- The rates that a kind of module knows (R402). -/
abbrev knownRates (kind : Nat) : List Nat := if kind = 1 then [4800, 5200, 5600, 6000, 6400] else [8000, 8800]

theorem pickRate_mem (h : s.pickRate ch kind rates ≠ 0) :
    s.pickRate ch kind rates ∈ rates ∧ s.pickRate ch kind rates ≤ s.rd (MCD_CFG.max_rate ch) := by
  have hm := (foldl_max_mem 0).resolve_left h
  obtain ⟨hin, hp⟩ := List.mem_filter.mp hm
  exact ⟨hin, of_decide_eq_true (Bool.and_eq_true_iff.mp hp).2⟩

theorem le_pickRate {r : Nat} (hr : r ∈ rates) (hmax : r ≤ s.rd (MCD_CFG.max_rate ch)) (hk : r ∈ knownRates kind) : r ≤ s.pickRate ch kind rates :=
  (le_foldl_max 0).2 r (List.mem_filter.mpr ⟨hr, Bool.and_eq_true_iff.mpr ⟨List.contains_iff_mem.mpr hk, decide_eq_true hmax⟩⟩)

theorem pickRate_lt : s.pickRate ch kind rates < 65536 := by
  by_cases h : s.pickRate ch kind rates = 0
  · omega
  · have hm := (List.mem_filter.mp ((foldl_max_mem 0).resolve_left h)).2
    have hk : s.pickRate ch kind rates ∈ knownRates kind := List.contains_iff_mem.mp (Bool.and_eq_true_iff.mp hm).1
    refine Nat.lt_of_le_of_lt (m := 8800) ?_ (by decide)
    generalize s.pickRate ch kind rates = r at hk ⊢
    unfold knownRates at hk
    split at hk <;> simp only [List.mem_cons, List.not_mem_nil, or_false] at hk <;> omega

end PickRate

/-! ### Re-centring (R411) -/

theorem stepToward_within {old new : Nat} (ho : old < 256) (hn : new < 256) :
    -1 ≤ signed 8 (stepToward old new) - signed 8 old ∧ signed 8 (stepToward old new) - signed 8 old ≤ 1 := by
  simp only [stepToward, signed, unsigned]
  omega

theorem recentred_steps {s : State} {u old a b c d : Nat} {sweep : Nat × Nat}
    (h : s.narrow u (centreOf (runBetween a b), b + 1 - a, centreOf (runBetween c d), d + 1 - c) = false) :
    s.recentred u old (a, b, c, d) sweep =
      (stepToward (old / 256) (centreOf (runBetween a b)), b + 1 - a, stepToward (old % 256) (centreOf (runBetween c d)), d + 1 - c) :=
  if_neg (Bool.eq_false_iff.mp h)

theorem recentred_sweeps {s : State} {u old a b c d : Nat} {sweep : Nat × Nat}
    (h : s.narrow u (centreOf (runBetween a b), b + 1 - a, centreOf (runBetween c d), d + 1 - c) = true) :
    s.recentred u old (a, b, c, d) sweep = eyeOf sweep := if_pos h

/-- Whether a run is narrow turns on min_width alone, which re-centring leaves. -/
theorem narrow_congr {s t : State} {u : Nat} (h : t.rd (memFld u MCH_EYEMIN.min_width MCD_EYEMIN.min_width) =
    s.rd (memFld u MCH_EYEMIN.min_width MCD_EYEMIN.min_width)) (e : Nat × Nat × Nat × Nat) : t.narrow u e = s.narrow u e := by
  unfold State.narrow
  rw [h]

section Recentre
variable {s : State} {n lane : Nat} {edges : Nat × Nat × Nat × Nat} {sweep : Nat × Nat}

theorem setEye_rd_ne (s : State) (ch n : Nat) (e : Nat × Nat × Nat × Nat) {f : Fld}
    (hf : ∀ lo w r, lo < 64 → f.key ≠ (⟨0x380000 + 0x2000 * ch + 0x100 + 4 * n, lo, w, r⟩ : Fld).key) : (s.setEye ch n e).rd f = s.rd f := by
  unfold State.setEye
  have hrd : f.key ≠ (MCD_EYE.rd_centre ch n).key := hf 24 8 0 (by decide)
  have hrw : f.key ≠ (MCD_EYE.rd_width ch n).key := hf 16 8 0 (by decide)
  have hwr : f.key ≠ (MCD_EYE.wr_centre ch n).key := hf 8 8 0 (by decide)
  have hww : f.key ≠ (MCD_EYE.wr_width ch n).key := hf 0 8 0 (by decide)
  rw [State.rd_wr_ne _ _ hww, State.rd_wr_ne _ _ hwr, State.rd_wr_ne _ _ hrw, State.rd_wr_ne _ _ hrd]

theorem exec_recentre_ddr {ch : Nat} (hs : s.memServes (384 + ch) = true) (hn : n < 20)
    (hp : Past s (Tbl.get 0 s.mem.centreAt (32 * (384 + ch) + n)) 100000000) {e : Nat × Nat × Nat × Nat}
    (he : s.recentred (384 + ch) (256 * s.rd (MCD_EYE.rd_centre ch n) + s.rd (MCD_EYE.wr_centre ch n)) edges sweep = e) :
    exec (.recentre (384 + ch) n edges sweep lane) s =
      .next (if s.narrow (384 + ch) e then ((centred s (384 + ch) n).setEye ch n e).chanFail ch 1 else (centred s (384 + ch) n).setEye ch n e) := by
  have hd : isDdr (384 + ch) = true := isDdr_of_ge (Nat.le_add_right ..)
  have hch : chanOf (384 + ch) = ch := Nat.add_sub_cancel_left ..
  have hgo : ¬(!s.memServes (384 + ch) ∨ !s.elapsed (Tbl.get 0 s.mem.centreAt (32 * (384 + ch) + n)) (ms 100) ∨
      (if isDdr (384 + ch) then 20 else 4) ≤ n) := by
    have hel : s.elapsed (Tbl.get 0 s.mem.centreAt (32 * (384 + ch) + n)) (ms 100) = true := State.elapsed_of_le hp
    rw [hs, hel, hd]
    simpa using hn
  have hmin : ((centred s (384 + ch) n).setEye ch n e).narrow (384 + ch) e = s.narrow (384 + ch) e := by
    refine narrow_congr ((setEye_rd_ne _ ch n e fun lo w r hlo => ?_).trans rfl) e
    simp only [memFld, hd, if_true, hch, Fld.key, MCD_EYEMIN.min_width]
    omega
  show execRecentre (384 + ch) n edges sweep lane s = _
  unfold execRecentre
  rw [← hmin]
  refine (if_neg hgo).trans ?_
  rw [hd, hch]
  subst he
  rfl

theorem exec_recentre_hbm {u : Nat} (hs : s.memServes u = true) (hu : u < 384) (hn : n < 4)
    (hp : Past s (Tbl.get 0 s.mem.centreAt (32 * u + n)) 100000000) {e : Nat × Nat × Nat × Nat}
    (he : s.recentred u (Tbl.get (0, 0) s.mem.eyes (32 * u + n)).1 edges sweep = e) {eyes : Tbl (Nat × Nat)}
    (ht : Tbl.ins (32 * u + n) (256 * e.1 + e.2.2.1, min e.2.1 e.2.2.2) s.mem.eyes = eyes) {least : Nat}
    (hl : (List.range 4).foldl (fun m g => min m (Tbl.get (0, 63) eyes (32 * u + g)).2) 63 = least) {v : State}
    (hv : ({ centred s u n with mem := { (centred s u n).mem with eyes := eyes } } : State).wr (MCH_PCSTAT.eye_min (u / 64) (u % 64)) least = v) :
    exec (.recentre u n edges sweep lane) s = .next (if s.narrow u e then v.autoRepair u lane else v) := by
  have hd : isDdr u = false := isDdr_of_lt hu
  have hgo : ¬(!s.memServes u ∨ !s.elapsed (Tbl.get 0 s.mem.centreAt (32 * u + n)) (ms 100) ∨ (if isDdr u then 20 else 4) ≤ n) := by
    have hel : s.elapsed (Tbl.get 0 s.mem.centreAt (32 * u + n)) (ms 100) = true := State.elapsed_of_le hp
    rw [hs, hel, hd]
    simpa using hn
  have hmin : v.narrow u e = s.narrow u e := by
    subst hv
    refine narrow_congr ((State.rd_wr_ne _ _ ?_).trans rfl) e
    simp only [memFld, hd, Bool.false_eq_true, if_false, stackOf, Fld.key, MCH_EYEMIN.min_width, MCH_PCSTAT.eye_min]
    omega
  show execRecentre u n edges sweep lane s = _
  unfold execRecentre
  rw [← hmin]
  refine (if_neg hgo).trans ?_
  rw [hd]
  subst hv hl ht he
  rfl

end Recentre

/-! ### Lanes, retirement and evacuation (R424 to R426, R431) -/

section Ends
variable {s : State}

theorem exec_laneRepairDone {pc lane : Nat} {rest : List Nat} (h : (s.ctl pc).fixing = lane :: rest) {t : State}
    (ht : (s.setCtl pc { s.ctl pc with fixing := rest, ce := Tbl.erase (s.ctl pc).ce lane }).mapSpares pc [lane] = t) :
    exec (.laneRepairDone pc) s = .next (t.post 0x0902 (leBytes 2 pc ++ [lane, 2 - (t.repairsOf pc).length])) := by
  subst ht
  show execLaneRepairDone pc s = _
  unfold execLaneRepairDone
  rw [h]

theorem mapSpares_repairsOf (h : Tbl.risingFrom 0 s.mem.repairs = true) (pc : Nat) (lanes : List Nat) :
    (s.mapSpares pc lanes).repairsOf pc = s.repairsOf pc ++ lanes := Tbl.get_set_self [] h pc _

theorem syncSeg_mem (s : State) : s.syncSeg.mem = s.mem := by
  unfold State.syncSeg
  rw [State.wr_mem, State.wr_mem]

/-- The pseudo-channel's retirement kept with its cause (R424). -/
def State.retiredKept (s : State) (pc : Nat) : State :=
  { s with mem := { s.mem with cause := Tbl.erase s.mem.cause pc, retired := Tbl.set 0 s.mem.retired pc (Tbl.get 0 s.mem.cause pc - 1 + 1) } }

theorem retiredKept_retired (s : State) (pc : Nat) :
    (s.retiredKept pc).mem.retired = Tbl.set 0 s.mem.retired pc (Tbl.get 0 s.mem.cause pc - 1 + 1) := rfl

theorem exec_pcRetireDone {pc : Nat} (hp : pc < 384) (h1 : s.rd (MCH_PCSTAT.state (pc / 64) (pc % 64)) = 1)
    (he : s.bpm.evac.contains pc = false) :
    exec (.pcRetireDone pc) s = .next (((((s.retiredKept pc).wr (MCH_PCSTAT.state (pc / 64) (pc % 64)) 2).setCtl pc {}).post 0x0901
      (leBytes 2 pc ++ [Tbl.get 0 s.mem.cause pc - 1])).syncSeg) := by
  have hgo : pc < 384 ∧ s.rd (MCH_PCSTAT.state (pc / 64) (pc % 64)) = 1 ∧ (!s.bpm.evac.contains pc) = true := ⟨hp, h1, by rw [he]; rfl⟩
  show execPcRetireDone pc s = _
  unfold execPcRetireDone
  rw [if_pos hgo]
  unfold State.retiredKept
  rfl

theorem pcRetireDone_retired {pc : Nat} (hr : s.regsOk = true) (ht : Tbl.risingFrom 0 s.mem.retired = true) (hp : pc < 384) {t : State} {p : List Nat}
    (h : ((((s.retiredKept pc).wr (MCH_PCSTAT.state (pc / 64) (pc % 64)) 2).setCtl pc {}).post 0x0901 p).syncSeg = t) :
    t.rd (MCH_PCSTAT.state (pc / 64) (pc % 64)) = 2 ∧ Tbl.get 0 t.mem.retired pc ≠ 0 := by
  have hkey : memoryKey (MCH_PCSTAT.state (pc / 64) (pc % 64)).key := by
    simp only [memoryKey, Fld.key, MCH_PCSTAT.state]
    omega
  have hget : Tbl.get 0 (s.retiredKept pc).mem.retired pc ≠ 0 := by
    rw [retiredKept_retired, Tbl.get_set_self 0 ht]
    exact Nat.succ_ne_zero _
  have hst : ((s.retiredKept pc).wr (MCH_PCSTAT.state (pc / 64) (pc % 64)) 2).rd (MCH_PCSTAT.state (pc / 64) (pc % 64)) = 2 :=
    State.rd_wr_self (s := s.retiredKept pc) hr _ 2
  obtain ⟨w, hw⟩ : ∃ w, ((s.retiredKept pc).wr (MCH_PCSTAT.state (pc / 64) (pc % 64)) 2).setCtl pc {} = w := ⟨_, rfl⟩
  have hwst : w.rd (MCH_PCSTAT.state (pc / 64) (pc % 64)) = 2 := by rw [← hw]; exact hst
  have hwget : w.mem.retired = (s.retiredKept pc).mem.retired := by rw [← hw]; rfl
  rw [hw] at h
  subst h
  exact ⟨((KeepsFields.syncSeg ((KeepsFields.refl _ w).postMem (by decide) p)).rd _ hkey).trans hwst,
    by rw [syncSeg_mem, State.post_mem, hwget]; exact hget⟩

theorem exec_channelEvacuated {ch : Nat} (hc : ch < 8) (h4 : s.rd (MCD_STAT.state ch) = 4) (he : s.bpm.evac.contains (1000 + ch) = false)
    (hs : s.segsAt (8 + ch) = []) : exec (.channelEvacuated ch) s = .next (s.chanOff ch) := by
  show execChannelEvacuated ch s = _
  unfold execChannelEvacuated
  rw [if_pos ⟨hc, h4, by rw [he]; rfl, by rw [hs]; rfl⟩]

/-- R431: a channel powered down, its module's pins low. -/
theorem chanOff_off {ch : Nat} (hr : s.regsOk = true) (hp : Tbl.risingFrom 0 s.mem.pins = true) (hc : ch < 8) :
    (s.chanOff ch).rd (MCD_STAT.state ch) = 5 ∧ (s.chanOff ch).rd (MCD_STAT.rate ch) = 0 ∧ Tbl.get {} (s.chanOff ch).mem.pins ch = {} := by
  obtain ⟨w, hw⟩ : ∃ w, (((s.wr (MCD_STAT.state ch) 5).wr (MCD_STAT.rate ch) 0).setCtl (384 + ch) {}).setPins ch {} = w := ⟨_, rfl⟩
  have hoff : s.chanOff ch = w.post 0x0916 [ch] := by rw [← hw]; rfl
  have hwr : ∀ f, w.rd f = ((s.wr (MCD_STAT.state ch) 5).wr (MCD_STAT.rate ch) 0).rd f := fun f => by rw [← hw]; rfl
  have hpins : Tbl.get {} w.mem.pins ch = {} := by rw [← hw]; exact Tbl.get_set_self {} hp ch {}
  have hk : KeepsFields memoryKey w (w.post 0x0916 [ch]) := (KeepsFields.refl _ w).postMem (by decide) _
  rw [hoff]
  refine ⟨?_, ?_, by rw [State.post_mem]; exact hpins⟩
  · rw [hk.rd (MCD_STAT.state ch) (mcdstat_memory hc 28 4 1 (by decide)), hwr,
      State.rd_wr_ne _ _ (by simp [Fld.key, MCD_STAT.state, MCD_STAT.rate])]
    exact State.rd_wr_self hr _ 5
  · rw [hk.rd (MCD_STAT.rate ch) (mcdstat_memory hc 0 16 0 (by decide)), hwr]
    exact State.rd_wr_self (s.wr_regsOk hr _ _) _ 0

/-! ### Power saving (R429, R430) -/

theorem exec_rankPowerDown {ch rank : Nat} (hc : ch < 8) (h3 : s.rd (MCD_STAT.state ch) = 3) (hk : rank < s.ranksOf (384 + ch))
    (hn : 0 < s.rd (MCD_PWRCFG.pd_idle_ns ch)) (hp : Past s (Tbl.get 0 (s.ctl (384 + ch)).cmdAt rank) (s.rd (MCD_PWRCFG.pd_idle_ns ch)))
    (hi : (s.ctl (384 + ch)).reqs.all (fun r => r.rank != rank) = true) : exec (.rankPowerDown ch rank) s =
      .next (s.setCtl (384 + ch) { s.ctl (384 + ch) with asleep := insNat rank (s.ctl (384 + ch)).asleep }) := by
  have hany : (!(s.ctl (384 + ch)).reqs.any fun r => r.rank == rank) = true := by
    rw [List.not_any_eq_all_not, ← hi]
    rfl
  show execRankPowerDown ch rank s = _
  unfold execRankPowerDown
  exact if_pos ⟨hc, h3, hk, Nat.pos_iff_ne_zero.mp hn, State.elapsed_of_le hp, hany⟩

theorem exec_selfRefreshEntry {ch : Nat} (hc : ch < 8) (hret : s.bit (MCD_CFG.retain ch) = true) (h3 : s.rd (MCD_STAT.state ch) = 3)
    (hn : 0 < s.rd (MCD_PWRCFG.sr_idle_ms ch)) (hq : (s.ctl (384 + ch)).reqs = [])
    (hp : Past s (s.ctl (384 + ch)).busyAt (s.rd (MCD_PWRCFG.sr_idle_ms ch) * 1000000)) :
    exec (.selfRefreshEntry ch) s = .next (s.selfRefresh ch) := by
  show execSelfRefreshEntry ch s = _
  unfold execSelfRefreshEntry
  exact if_pos ⟨hc, hret, h3, Nat.pos_iff_ne_zero.mp hn, by rw [hq]; rfl, State.elapsed_of_le hp⟩

/-- A sum over a part of a list is at most the sum over the list. -/
theorem foldl_add_filter_le (f : Nat → Nat) (q : Nat → Bool) : ∀ (l : List Nat) (a b : Nat), a ≤ b →
    (l.filter q).foldl (fun a i => a + f i) a ≤ l.foldl (fun a i => a + f i) b
  | [], _, _, h => h
  | x :: l, a, b, h => by
    rw [List.filter_cons, List.foldl_cons]
    split
    · exact foldl_add_filter_le f q l _ _ (Nat.add_le_add_right h _)
    · exact foldl_add_filter_le f q l _ _ (by omega)

/-- R430: the last eighth, with the training area, is never masked. -/
theorem pasrMask_lt (s : State) (ch : Nat) : s.pasrMask ch < 128 :=
  Nat.lt_of_le_of_lt (foldl_add_filter_le (2 ^ ·) _ (List.range 7) 0 0 (Nat.le_refl 0)) (by decide)

end Ends

end Sys2Proof.Machine
end

section
namespace Sys2Proof
open Machine Claims

/-- Settles O47: each part is the lemma of its operation above; what a long training, restore or power-down leaves in MCD_STAT and MCH_STAT
follows from `KeepsFields`, which says that stores of delays, events and counts do not touch the registers of the memory blocks. -/
theorem memoryService : Obligations.MemoryService := by
  unfold Obligations.MemoryService
  refine ⟨?role, ?roleState, fun s ch role retain roles rate => ⟨fun hl hh => writeMcdCfg_rate ⟨hl, hh⟩, writeMcdCfg_noRate⟩, ?stack, ?channel,
    ?restore, fun s ch kind rates h => ⟨(pickRate_mem h).1, (pickRate_mem h).2, fun r => le_pickRate⟩, fun _ _ => stepToward_within,
    fun s u old a b c d sweep => ⟨recentred_steps, recentred_sweeps⟩, ?recentreDdr, ?recentreHbm, ?lane, ?retire, ?evacuate, ?idle, ?refresh,
    pasrMask_lt⟩
  case role =>
    intro s ch role retain rate ho hc hrole hretain hrate
    exact exec_mcdRoleWrite hc ho hrole hretain hrate rfl
  case roleState =>
    intro s ch role retain _
    refine ⟨writeMcdCfg_bad, fun h => ?_⟩
    intro v st
    rw [writeMcdCfg_good h (v := v) rfl (st := st) rfl]
    refine ⟨fun hst => ?_, fun hst hr => ?_, fun hst hr => ?_, fun h0 h5 h1 h3 => ?_⟩
    · by_cases h05 : st = 0 ∨ st = 5
      · exact if_pos h05
      · have h1 : st = 1 ∧ role = 0 := by tauto
        rw [if_neg h05, if_pos h1.1, if_pos h1.2]
    · rw [if_neg (by omega), if_pos hst, if_neg hr]
    · refine (if_neg (by omega)).trans ((if_neg (by omega)).trans ((if_pos ⟨hst, hr⟩).trans ?_))
      cases v.chanEvacuate ch <;> rfl
    · rw [if_neg (by omega), if_neg h1, if_neg (by tauto)]
  case stack =>
    intro s k nibble kind ranks cap rates bad sweeps hk hr h1
    simp only [exec_memoryTrainingDone_hbm hk h1]
    refine ⟨fun hf => ⟨_, rfl, hbmTrained_ready hk hr hf⟩, fun hf ht => ?_, fun hf ht => ?_, fun fail hfail => ?_⟩
    · exact congrArg _ ((hbmTrained_retries hf).trans (if_pos ht))
    · exact congrArg _ ((hbmTrained_retries hf).trans (if_neg (Nat.not_lt.mpr ht)))
    · have hb : (fail == 0) = false := by simpa using Nat.pos_iff_ne_zero.mp hfail
      rw [hb]
      rfl
  case channel =>
    intro s ch fail nibble kind ranks cap rates bad sweeps hc hr hrest h2 u fits v
    simp only [exec_memoryTrainingDone_ddr hc hrest h2]
    refine ⟨fun h3 => ?_, fun h3 h => ?_, fun n h3 hne hf hb => ⟨fun ht => ?_, fun ht => ?_⟩, fun h3 hne hf hb => ?_⟩
    · exact congrArg _ (ddrTrained_silent rfl h3)
    · exact congrArg _ (ddrTrained_otherKind rfl h3 h)
    · have hmem : v.mem = s.mem := setEyes_mem u ch sweeps
      rw [ddrTrained_fails rfl h3 hne hf rfl hb, if_pos ht, ← hmem]
      rfl
    · exact congrArg _ ((ddrTrained_fails rfl h3 hne hf rfl hb).trans (if_neg (Nat.not_lt.mpr ht)))
    · obtain ⟨w, hw, hup⟩ := ddrTrained_up rfl h3 hne hf hr rfl hb
      exact ⟨_, congrArg _ hup, chanUp_state hc hw _, chanUp_rate hc hw pickRate_lt⟩
  case restore =>
    intro s ch nibble kind ranks cap rates bad sweeps hc hr hrest
    exact ⟨⟨_, exec_memoryTrainingDone_restore hc hrest, restored_ok hc hr⟩, ⟨_, exec_memoryTrainingDone_restore hc hrest, restored_fails hc hr⟩⟩
  case recentreDdr =>
    intro s ch n edges sweep lane hs _ hn hp e v
    have hex := exec_recentre_ddr (lane := lane) hs hn hp (e := e) rfl
    exact ⟨fun h => hex.trans (congrArg _ (if_neg (Bool.eq_false_iff.mp h))), fun h => hex.trans (congrArg _ (if_pos h))⟩
  case recentreHbm =>
    intro s u n edges sweep lane hs hu hn hp e a eyes least v
    have hex := exec_recentre_hbm (lane := lane) hs hu hn hp (e := e) rfl (eyes := eyes) rfl (least := least) rfl (v := v) rfl
    exact ⟨fun h => hex.trans (congrArg _ (if_neg (Bool.eq_false_iff.mp h))), fun h => hex.trans (congrArg _ (if_pos h))⟩
  case lane =>
    intro s pc lane rest h t
    exact ⟨exec_laneRepairDone h rfl, fun hr => mapSpares_repairsOf hr pc [lane]⟩
  case retire =>
    intro s pc hr ht hp h1 he
    exact ⟨_, exec_pcRetireDone hp h1 he, pcRetireDone_retired hr ht hp rfl⟩
  case evacuate =>
    intro s ch hr hp hc h4 he hs
    exact ⟨_, exec_channelEvacuated hc h4 he hs, chanOff_off hr hp hc⟩
  case idle =>
    intro s ch rank hc h3 hk hn hp hi
    exact exec_rankPowerDown hc h3 hk hn hp hi
  case refresh =>
    intro s ch hc hret h3 hn hq hp
    exact exec_selfRefreshEntry hc hret h3 hn hq hp

end Sys2Proof
end

section
/-! SUPPORT. The kinds of REPAIR, the retraining of the bridge, the steps of a cluster repair, weak rows and aging (R426 to R433, R526 to R534). -/
namespace Sys2Proof.Machine
open Sys2Proof.Claims

/-! ### REPAIR by its kind (R428, R530, R532) -/

section Kinds
variable {s : State} {r k : Nat} {t : Taken} (h : s.running 0x5A = some (r, t))
include h

theorem viaFd_repair (hb : s.bridgeUp = true) (hf : s.cmdFree = true) (f : State → State) : s.viaFd r t f = f s.cmdCross := by
  have hop : isBulk t.op = false := by
    rw [(State.running_taken h).2.2.1]
    decide
  unfold State.viaFd
  rw [if_pos hb, if_neg (Bool.eq_false_iff.mp hop), if_pos hf]

theorem exec_repairClusterSram_crosses (h0 : t.f 16 1 = 0) (hb : s.bridgeUp = true) (hf : s.cmdFree = true) {w : State} (hw : s.cmdCross = w) :
    exec .repairClusterSram s = .next (w.repairEnd r (w.repairCluster (t.f 20 4))) := by
  subst hw
  show execRepairClusterSram s = _
  unfold execRepairClusterSram
  rw [h]
  exact (if_pos h0).trans (congrArg _ (viaFd_repair h hb hf _))

theorem exec_repairClusterSram_unknown (h5 : 5 < t.f 16 1) : exec .repairClusterSram s = .next (s.finRefused r dBAD_OPERAND) := by
  show execRepairClusterSram s = _
  unfold execRepairClusterSram
  rw [h]
  exact (if_neg (by omega)).trans (if_pos h5)

theorem repairOf_eq (hk : t.f 16 1 = k) : s.repairOf k = some (r, t.f 20 4) := by
  unfold State.repairOf
  rw [h]
  exact if_pos hk

theorem exec_repairPcRetire (hk : t.f 16 1 = 1) (hp : t.f 20 4 < 384) : exec .repairPcRetire s = .next (s.repairEnd r
    (if s.rd (MCH_PCSTAT.state (t.f 20 4 / 64) (t.f 20 4 % 64)) = 0 then .inr (s.pcRetire (t.f 20 4) 2) else .inl (.busy, dIN_USE))) := by
  show execRepairPcRetire s = _
  unfold execRepairPcRetire
  rw [repairOf_eq h hk]
  dsimp only
  rw [if_neg (Nat.not_le.mpr hp)]

theorem exec_repairHbmLane (hk : t.f 16 1 = 2) :
    exec .repairHbmLane s = .next (s.repairEnd r (s.laneRepair (t.f 20 4 % 512) (t.f 20 4 / 512))) := by
  show execRepairHbmLane s = _
  unfold execRepairHbmLane
  rw [repairOf_eq h hk]

theorem exec_repairLinkRetire (hk : t.f 16 1 = 3) (hl : t.f 20 4 < 48) : exec .repairLinkRetire s =
    .next (((({ s with res := { s.res with retiring := insNat (t.f 20 4) s.res.retiring } } : State).drainLink (t.f 20 4) 4).tryRetire
      (t.f 20 4)).finDone r) := by
  have hbit : bitOf (t.f 20 4) 31 = false := by
    have hdiv : t.f 20 4 / 2 ^ 31 % 2 = 0 := by omega
    exact congrArg (· == 1) hdiv
  show execRepairLinkRetire s = _
  unfold execRepairLinkRetire
  rw [repairOf_eq h hk]
  dsimp only
  rw [hbit, if_neg Bool.false_ne_true, if_neg (Nat.not_le.mpr hl)]

/-- A link's mark taken away (R532). -/
def State.linkUnmarked (s : State) (l : Nat) : State :=
  { s with res := { s.res with retiring := s.res.retiring.filter (· != l) }, flk := { s.flk with retired := s.flk.retired.filter (· != l) } }

theorem exec_repairLinkReturn {l : Nat} (hk : t.f 16 1 = 3) (hu : t.f 20 4 = 2 ^ 31 + l) (hl : l < 48) : exec .repairLinkReturn s =
    .next (((if s.flk.retired.contains l then (s.linkUnmarked l).saveLinks.post 0x0C0C [l, 1] else s.linkUnmarked l).tryRestore l).finDone r) := by
  have hbit : bitOf (2 ^ 31 + l) 31 = true := by
    have hdiv : (2 ^ 31 + l) / 2 ^ 31 % 2 = 1 := by omega
    exact congrArg (· == 1) hdiv
  have hmod : (2 ^ 31 + l) % 2 ^ 31 = l := by omega
  show execRepairLinkReturn s = _
  unfold execRepairLinkReturn
  rw [repairOf_eq h hk, hu]
  dsimp only
  rw [hbit, if_neg (by simp), hmod, if_neg (Nat.not_le.mpr hl)]
  rfl

omit h in
theorem ifFd_local (f : State → State) : s.ifFd false r f = f s := rfl

omit h in
theorem ifFd_crosses (hb : s.bridgeUp = true) (hf : s.cmdFree = true) (f : State → State) : s.ifFd true r f = f s.cmdCross := by
  unfold State.ifFd
  rw [if_neg (by simp), if_pos hb, if_pos hf]

theorem exec_repairDdrEvacuate (hk : t.f 16 1 = 4) : exec .repairDdrEvacuate s =
    .next (s.ifFd (t.f 20 4 < 4) r (fun s => s.repairEnd r (s.chanEvacuate (t.f 20 4)))) := by
  show execRepairDdrEvacuate s = _
  unfold execRepairDdrEvacuate
  rw [repairOf_eq h hk]

theorem exec_repairDdrReturn (hk : t.f 16 1 = 5) : exec .repairDdrReturn s =
    .next (s.ifFd (t.f 20 4 < 4) r (fun s => s.repairEnd r (s.chanReturn (t.f 20 4)))) := by
  show execRepairDdrReturn s = _
  unfold execRepairDdrReturn
  rw [repairOf_eq h hk]

omit h in
theorem laneRepair_none {pc lane : Nat} (hp : pc < 384) (hl : lane < 32) (h0 : s.freeSpares pc = 0) :
    s.laneRepair pc lane = .inl (.busy, dIN_USE) := by
  unfold State.laneRepair
  rw [if_neg (by omega), if_pos (.inl h0)]

end Kinds

/-! ### BRIDGE_RETRAIN (R526) -/

section Retrain
variable {s : State} {r : Nat} {t : Taken} (h : s.running 0x5D = some (r, t))
include h

theorem exec_bridgeRetrain_refused (hm : 24 ≤ t.f 16 1) (hall : t.f 16 1 ≠ 255) : exec .bridgeRetrain s = .next (s.finRefused r dBAD_OPERAND) := by
  show execBridgeRetrain s = _
  unfold execBridgeRetrain
  rw [h]
  exact if_pos ⟨hm, hall⟩

theorem exec_bridgeRetrain (hm : t.f 16 1 < 24 ∨ t.f 16 1 = 255) : exec .bridgeRetrain s = .next ((s.retrain (t.f 16 1)).finDone r) := by
  show execBridgeRetrain s = _
  unfold execBridgeRetrain
  rw [h]
  exact if_neg (by omega)

end Retrain

/-! ### A cluster's repair begins (R530) -/

section Cluster
variable {s : State} {c : Nat}

theorem repairCluster_beyond (hc : 24 ≤ c) : s.repairCluster c = .inl (.refused, dBAD_OPERAND) := if_pos hc

theorem repairCluster_busy (hc : c < 24) (hr : s.res.repair ≠ none) : s.repairCluster c = .inl (.busy, dIN_USE) :=
  (if_neg (Nat.not_le.mpr hc)).trans (if_pos (.inl (Option.isSome_iff_ne_none.mpr hr)))

theorem repairCluster_free (hc : c < 24) (hr : s.res.repair = none) (hk : s.upd.castle = none) (hu : s.rd UPD_SESS.state ≠ 5) :
    s.repairCluster c = if s.lastIngress c then .inl (.busy, dLIVE_RESOURCE)
      else .inr ((repairAt s { cluster := c, step := 1, role := s.rd (ENG_CLROLE.role c) }).changeRole c 2) := by
  have hn : ¬(s.res.repair.isSome ∨ s.upd.castle.isSome ∨ s.rd UPD_SESS.state = 5) := by
    rw [hr, hk]
    simp [hu]
  exact (if_neg (Nat.not_le.mpr hc)).trans (if_neg hn)

end Cluster

/-! ### A channel evacuated and returned (R431, R433) -/

namespace KeepsFields
variable {s t : State}

theorem endTest (h : KeepsFields memoryKey s t) (k result detail : Nat) : KeepsFields memoryKey s (t.endTest k result detail) := by
  unfold State.endTest
  refine .ite h (.postMem (.wr ?_ (not_memoryKey (.inl (by decide))) _) (by decide) _)
  exact h.ofRegs rfl

theorem abandonTest (h : KeepsFields memoryKey s t) (k : Nat) (hit : Nat → Bool) : KeepsFields memoryKey s (t.abandonTest k hit) := by
  unfold State.abandonTest
  exact .ite (h.endTest k 2 0) h

end KeepsFields

section Channel
variable {s : State} {ch : Nat} (hc : ch < 8)
include hc

theorem chanReturn_evacuated (h : s.rd (MCD_STAT.state ch) = 5) {u : State} (hu : s.abandonTest 3 (· == ch) = u) :
    s.chanReturn ch = .inr (({ u with mem := { u.mem with back := insNat ch u.mem.back } } : State).chanTrain ch) := by
  subst hu
  unfold State.chanReturn
  rw [if_neg (Nat.not_le.mpr hc), if_neg (by omega), if_neg (by omega)]

theorem chanReturn_evacuating (h : s.rd (MCD_STAT.state ch) = 4) : s.chanReturn ch = .inl (.busy, dIN_USE) := by
  unfold State.chanReturn
  rw [if_neg (Nat.not_le.mpr hc), if_pos h]

theorem chanReturn_refused (h4 : s.rd (MCD_STAT.state ch) ≠ 4) (h5 : s.rd (MCD_STAT.state ch) ≠ 5) :
    s.chanReturn ch = .inl (.refused, dBAD_OPERAND) := by
  unfold State.chanReturn
  rw [if_neg (Nat.not_le.mpr hc), if_neg h4, if_pos h5]

theorem chanEvacuate_evacuating (h : s.rd (MCD_STAT.state ch) = 4) : s.chanEvacuate ch = .inl (.busy, dIN_USE) := by
  unfold State.chanEvacuate
  rw [if_neg (Nat.not_le.mpr hc), if_pos h]

theorem abandonTest_role : (s.abandonTest 3 (· == ch)).rd (MCD_CFG.role ch) = s.rd (MCD_CFG.role ch) := by
  refine ((KeepsFields.refl memoryKey s).abandonTest 3 _).rd _ ?_
  simp only [memoryKey, Fld.key, MCD_CFG.role]
  omega

theorem chanEvacuate_noRole (hr : s.rd (MCD_CFG.role ch) = 0) (h4 : s.rd (MCD_STAT.state ch) ≠ 4) (h6 : s.rd (MCD_STAT.state ch) ≠ 6) :
    s.chanEvacuate ch = .inl (.refused, dBAD_OPERAND) := by
  unfold State.chanEvacuate
  rw [if_neg (Nat.not_le.mpr hc), if_neg h4, if_neg h6, if_pos (.inl ((abandonTest_role hc).trans hr))]

/-- A FIB channel in service gives up its store and is EVACUATING at once (R431). -/
theorem chanEvacuate_fib (hreg : s.regsOk = true) (hr : s.rd (MCD_CFG.role ch) = 1) (h3 : s.rd (MCD_STAT.state ch) = 3) :
    ∃ u, s.chanEvacuate ch = .inr u ∧ u.rd (MCD_STAT.state ch) = 4 := by
  have hrole := (abandonTest_role (s := s) hc).trans hr
  have hk : KeepsFields memoryKey s ((s.abandonTest 3 (· == ch)).xfibLose ch) := .xfibLose (.abandonTest (.refl _ s) 3 _) ch
  refine ⟨_, ?_, State.rd_wr_self (hk.regsOk hreg) _ 4⟩
  unfold State.chanEvacuate
  rw [if_neg (Nat.not_le.mpr hc), if_neg (by omega), if_neg (by omega), hrole, if_neg (by omega)]
  rfl

end Channel

/-! ### The steps of a cluster's repair, and weak rows (R529 to R531) -/

section Steps
variable {s : State} {k : ClRepair} (h : s.res.repair = some k) (rows : List (Nat × Nat)) (spares bad slot : Nat)
include h

theorem exec_clusterRepairStepDone_drained (h1 : k.step = 1) (hr : s.rd (ENG_CLSTAT.role_now k.cluster) = 2)
    (hd : s.rd (ENG_CLSTAT.draining k.cluster) = 0) :
    exec (.clusterRepairStepDone rows spares bad slot) s = .next (repairAt s { k with step := 2 }) := by
  have hn : ¬(s.rd (ENG_CLSTAT.role_now k.cluster) ≠ 2 ∨ s.bit (ENG_CLSTAT.draining k.cluster) = true) := by
    simp [State.bit, hr, hd]
  show execClusterRepairStepDone rows spares bad slot s = _
  unfold execClusterRepairStepDone
  simp only [h, h1]
  exact if_neg hn

theorem exec_clusterRepairStepDone_tested (h2 : k.step = 2) :
    exec (.clusterRepairStepDone rows spares bad slot) s = .next (repairAt s { k with step := 3 }) := by
  show execClusterRepairStepDone rows spares bad slot s = _
  unfold execClusterRepairStepDone
  simp only [h, h2]
  rfl

theorem exec_clusterRepairStepDone_found (h3 : k.step = 3) : exec (.clusterRepairStepDone rows spares bad slot) s =
    .next (repairAt (if bad = 1 ∧ slot < 64 then s.engineDead k.cluster slot 4 else s)
      { k with step := 4, rows := rows, spares := spares, bad := bad != 0, stays := bad == 2 }) := by
  show execClusterRepairStepDone rows spares bad slot s = _
  unfold execClusterRepairStepDone
  simp only [h, h3]
  rfl

theorem exec_clusterRepairStepDone_kept (h4 : k.step = 4) : exec (.clusterRepairStepDone rows spares bad slot) s =
    .next (repairAt { s with res := { s.res with rows := s.res.rows ++
      (k.rows.map (fun x => (x.1, k.cluster, x.2))).filter (fun w => !s.res.rows.contains w) } } { k with step := 5 }) := by
  show execClusterRepairStepDone rows spares bad slot s = _
  unfold execClusterRepairStepDone
  simp only [h, h4]
  rfl

theorem exec_clusterRepairStepDone_ends (h5 : k.step = 5) {u : State} (hu : ({ s with res := { s.res with repair := none } } : State) = u) :
    exec (.clusterRepairStepDone rows spares bad slot) s = .next ((if k.stays then u else u.changeRole k.cluster k.role).post 0x0C0B
      ([k.cluster, b2n k.bad] ++ leBytes 2 k.rows.length ++ leBytes 2 k.spares)) := by
  subst hu
  show execClusterRepairStepDone rows spares bad slot s = _
  unfold execClusterRepairStepDone
  simp only [h, h5]

end Steps

section WeakRows
variable {s : State} {array c row : Nat} {cells : List Nat}

theorem exec_tableScrub_row (table index : Nat) (ha : array < 3 ∧ c < 24 ∨ array = 3) {at_ : Nat} (hat : (if array < 3 then c else 0xFF) = at_) :
    exec (.tableScrub table index [] (some (array, c, row, true, cells))) s =
      .next (if array = 3 then (s.weakRow array at_ row).takeRow cells else s.weakRow array at_ row) := by
  have hn : ¬(4 ≤ array ∨ (array < 3 ∧ 24 ≤ at_)) := by
    rw [← hat]
    split <;> omega
  subst hat
  exact congrArg Host.Outcome.next (if_neg hn)

theorem weakRow_known (h : s.res.weak.contains (array, c, row) = true) : s.weakRow array c row = s := if_pos h

/-- R529: a row is reported once, and its record is kept. -/
theorem weakRow_new (h : s.res.weak.contains (array, c, row) = false) :
    ∃ u : State, s.weakRow array c row = u.post 0x0C0A ([array, c, 0, 0] ++ leBytes 4 row) ∧
      (array, c, row) ∈ u.res.rows ∧ (array, c, row) ∈ u.res.weak := by
  refine ⟨_, if_neg (Bool.eq_false_iff.mp h), ?_, List.mem_append_right _ (List.mem_singleton_self _)⟩
  dsimp only
  split
  · next hr => exact List.contains_iff_mem.mp hr
  · exact List.mem_append_right _ (List.mem_singleton_self _)

end WeakRows

/-! ### Adaptive voltage (R533, R636) -/

/-- The registers of the seats. -/
def seatKey (k : Nat) : Prop := 0x20000 * 64 ≤ k ∧ k < 0x21000 * 64

theorem not_seatKey {f : Fld} (h : f.addr + 1 ≤ 0x20000 ∧ f.lo < 64 ∨ 0x21000 ≤ f.addr) : ¬ seatKey f.key := by
  unfold seatKey Fld.key
  omega

theorem KeepsFields.putRec_seat {s t : State} (h : KeepsFields seatKey s t) (f : Record → Record) : KeepsFields seatKey s (t.putRec f) := by
  unfold State.putRec State.syncAreas
  refine .foldl _ (fun a ha t ht => ?_) (h.ofRegs rfl)
  have ha : a < 3 := List.mem_range.mp ha
  refine .wr (.wr (.wr (.wr ht ?_ _) ?_ _) ?_ _) ?_ _ <;> refine not_seatKey ?_
  all_goals simp only [UPD_AREASTAT.state, UPD_AREASTAT.confirmed, UPD_AREASTAT.trial, UPD_AREAVER.version]; omega

theorem KeepsFields.postSeat {s t : State} (h : KeepsFields seatKey s t) {code : Nat} (hc : code < 4096) (p : List Nat) :
    KeepsFields seatKey s (t.post code p) := h.post (not_seatKey (by simp only [HIF_EVLOST.count]; omega)) p

theorem KeepsFields.avsSend {s t : State} (h : KeepsFields seatKey s t) (d : Nat) (ack : Bool) : KeepsFields seatKey s (t.avsSend d ack) := by
  have hmv : ¬ seatKey (PWR_AVSTGT.mv d).key := not_seatKey (.inr (by simp only [PWR_AVSTGT.mv]; omega))
  unfold State.avsSend
  refine .wr (.ite (.postSeat (.ite (.wr ?_ hmv _) ?_) (by decide) _) (.ite (.wr ?_ hmv _) ?_)) (not_seatKey (.inr (by decide))) _ <;>
    exact h.ofRegs rfl

section Judge
variable {s : State} {d : Nat} {margin : Int} {ack : Bool}

/-- A margin below target takes the request a step up (R533). -/
theorem avsJudge_rises (hlow : margin < (s.rd SEAT_AVSCFG.target_ps : Int)) (hn : s.rd (avsSteps d) < 16) :
    ∃ u : State, u.regs = s.regs ∧ s.avsJudge d margin ack = (u.setSteps d (s.rd (avsSteps d) + 1)).avsSend d ack :=
  ⟨_, by rfl, if_pos ⟨decide_eq_true hlow, hn⟩⟩

/-- A request at its limit stays there: what runs is the 60 s of R533, with its report. -/
theorem avsJudge_full (hr : Tbl.risingFrom 0 s.res.avsHigh = true) (hlow : margin < (s.rd SEAT_AVSCFG.target_ps : Int))
    (hn : ¬ s.rd (avsSteps d) < 16) : KeepsFields seatKey s (s.avsJudge d margin ack) := by
  have hhigh : Tbl.get 0 (Tbl.erase s.res.avsHigh d) d = 0 := Tbl.get_erase_self 0 hr
  have hoff : decide ((s.rd SEAT_AVSCFG.target_ps : Int) + 3 ≤ margin) = false := decide_eq_false (by omega)
  unfold State.avsJudge
  simp only [hoff, hhigh, Bool.not_false, if_true, ne_eq, not_true_eq_false, false_and, if_false]
  rw [if_neg fun h => hn h.2]
  refine .ite (.postSeat ?_ (by decide) _) ?_ <;> exact (KeepsFields.refl seatKey s).ofRegs rfl

theorem avsSteps_seat (d : Nat) : seatKey (avsSteps d).key := by
  unfold avsSteps seatKey
  split <;> decide

/-- R533: a margin below target takes the request one step up, to 16 at most. -/
theorem avsJudge_steps (hreg : s.regsOk = true) (hr : Tbl.risingFrom 0 s.res.avsHigh = true) (hle : s.rd (avsSteps d) ≤ 16)
    (hlow : margin < (s.rd SEAT_AVSCFG.target_ps : Int)) : (s.avsJudge d margin ack).rd (avsSteps d) = min 16 (s.rd (avsSteps d) + 1) := by
  by_cases hn : s.rd (avsSteps d) < 16
  · obtain ⟨u, hu, he⟩ := avsJudge_rises (ack := ack) hlow hn
    have hw : (avsSteps d).width = 8 := by unfold avsSteps; split <;> rfl
    have hk : KeepsFields seatKey (u.wr (avsSteps d) (s.rd (avsSteps d) + 1)) ((u.setSteps d (s.rd (avsSteps d) + 1)).avsSend d ack) :=
      .avsSend (.putRec_seat (.refl _ _) _) d ack
    have hureg : u.regsOk = true := by unfold State.regsOk; rw [hu]; exact hreg
    rw [he, hk.rd _ (avsSteps_seat d), State.rd_wr_self hureg, hw, Nat.mod_eq_of_lt (by omega)]
    omega
  · rw [(avsJudge_full hr hlow hn).rd _ (avsSteps_seat d)]
    omega

end Judge

section Retry
variable {s : State}

/-- The posting of an event of the Traffic Die leaves what AVS still has to send. -/
theorem State.post_avsMiss (s : State) {code : Nat} {p : List Nat} (h : isFdEvent code p = false) :
    (s.post code p).res.avsMiss = s.res.avsMiss := by
  unfold State.post State.postRec
  extract_lets cls ns e s1 s2 s3
  have h2 : s2.res = s.res := by
    simp only [s2]
    split <;> rfl
  have h3 : s3.res.avsMiss = s2.res.avsMiss := by
    simp only [s3, State.seatInput]
    split <;> rfl
  obtain ⟨hif, regs, hf, -⟩ := s3.fileRec_only e
  rw [if_neg (Bool.eq_false_iff.mp h), hf, ← h2]
  exact h3

/-- A write to one die says nothing of the other's. -/
theorem avsSend_avsMiss {d j : Nat} (hj : j ≠ d) (s : State) (ack : Bool) :
    Tbl.get 0 (s.avsSend d ack).res.avsMiss j = Tbl.get 0 s.res.avsMiss j := by
  obtain ⟨n, hn⟩ : ∃ n, Tbl.get 0 s.res.avsMiss d + 1 = n := ⟨_, rfl⟩
  have hmiss : Tbl.get 0 (if ack then Tbl.erase s.res.avsMiss d else Tbl.set 0 s.res.avsMiss d n) j = Tbl.get 0 s.res.avsMiss j := by
    split
    · exact Tbl.get_erase_ne 0 _ hj
    · exact Tbl.get_set_ne 0 _ n hj
  have hpost : ∀ (c : Prop) [Decidable c] (u : State) (p : List Nat), (if c then u.post 0x0F03 p else u).res.avsMiss = u.res.avsMiss :=
    fun c _ u p => by
      split
      · exact u.post_avsMiss rfl
      · rfl
  have hwr : ∀ (u : State) (f : Fld) (v : Nat), (if ack then u.wr f v else u).res = u.res := fun u f v => by split <;> rfl
  unfold State.avsSend
  dsimp only
  rw [hn, State.wrBit_res, hpost, hwr]
  exact hmiss

theorem exec_avsRetry_fd (hp : s.pwr.phase = 2) (ht : Past s s.res.avsTryAt 1000000000) (h0 : Tbl.get 0 s.res.avsMiss 0 ≠ 0)
    (h1 : Tbl.get 0 s.res.avsMiss 1 = 0) (ackFd ackTd : Bool) : exec (.avsRetry ackFd ackTd) s = .next (s.avsSend 0 ackFd) := by
  have hne : s.res.avsMiss ≠ [] := fun he => h0 (by rw [he]; rfl)
  have h1' : Tbl.get 0 (s.avsSend 0 ackFd).res.avsMiss 1 = 0 := (avsSend_avsMiss (by decide) s ackFd).trans h1
  have hgo : s.pwr.phase = 2 ∧ s.res.avsMiss ≠ [] ∧ s.elapsed s.res.avsTryAt (ms 1000) = true := ⟨hp, hne, State.elapsed_of_le ht⟩
  show execAvsRetry ackFd ackTd s = _
  unfold execAvsRetry
  rw [if_pos hgo, if_pos h0]
  exact congrArg Host.Outcome.next (if_neg (not_not_intro h1'))

theorem exec_avsMarginCheck (hp : s.pwr.phase = 2) (ht : Past s s.res.avsAt 1000000000) (fd td : Nat) (ackFd ackTd : Bool) {u : State}
    (hu : ({ s with res := { s.res with avsAt := s.clk } } : State) = u) : exec (.avsMarginCheck fd td ackFd ackTd) s =
      .next ((((u.wr SEAT_AVS.fd_margin fd).wr SEAT_AVS.td_margin td).avsJudge 0 (signed 8 (fd % 256)) ackFd).avsJudge 1 (signed 8 (td % 256)) ackTd) := by
  subst hu
  exact if_pos ⟨hp, State.elapsed_of_le ht⟩

end Retry

/-! ### The stress log (R534) -/

theorem State.putRec_res (s : State) (f : Record → Record) : (s.putRec f).res = s.res := by
  unfold State.putRec State.syncAreas
  exact List.foldlRecOn (motive := fun t : State => t.res = s.res) _ _ rfl fun _ h _ _ => h

theorem State.keepStress_res (s : State) : s.keepStress.res = s.res := by
  unfold State.keepStress
  exact s.putRec_res _

theorem exec_stressSample {s : State} (ht : Past s s.res.stressAt 1000000000) : ∃ t, exec .stressSample s = .next t ∧ t.res.stressAt = s.clk ∧
    t.res.tjCount = s.res.tjCount + 1 ∧ t.res.tjSum = s.res.tjSum + max (s.hottest 0) (s.hottest 16) * 10 / 8 := by
  have hel : s.elapsed s.res.stressAt (ms 1000) = true := State.elapsed_of_le ht
  have hkeep : ∀ (c : Prop) [Decidable c] (u : State), (if c then u.keepStress else u).res = u.res := fun c _ u => by
    split
    · exact u.keepStress_res
    · rfl
  have hsat : ∀ (c : Prop) [Decidable c] (u : State) (f : Fld), (if c then u.addSat f 1 else u).res = u.res := fun c _ u f => by split <;> rfl
  show ∃ t, execStressSample s = .next t ∧ _
  unfold execStressSample
  rw [if_pos hel]
  refine ⟨_, rfl, ?_⟩
  rw [hkeep, State.wr_res, hsat]
  exact ⟨rfl, rfl, rfl⟩

end Sys2Proof.Machine
end

section
namespace Sys2Proof
open Machine Claims

/-- Settles O52: each part is the lemma of its operation above. A REPAIR acts through `viaFd` and `ifFd`, which cross the bridge where the unit
is the FD's; the steps of a cluster's repair follow its record; margins and the stress log turn on what an AVS write and a record leave. -/
theorem repairsAndAging : Obligations.RepairsAndAging := by
  unfold Obligations.RepairsAndAging
  refine ⟨fun s r t h => ⟨?cluster, exec_repairClusterSram_unknown h, ?pc, ?lane, fun hk hl => exec_repairLinkRetire h hk hl, ?mark,
      fun hk => ⟨?evacuate, ?evacuateFd⟩, fun hk => ⟨?back, ?backFd⟩⟩, fun s r => ⟨fun _ => rfl, fun _ _ => rfl⟩,
    fun s ch hc => ⟨fun h5 => chanReturn_evacuated hc h5 rfl, chanReturn_evacuating hc, chanReturn_refused hc⟩,
    fun s ch hc => ⟨chanEvacuate_evacuating hc, chanEvacuate_noRole hc, chanEvacuate_fib hc⟩, ?retrain, ?steps, ?weak,
    fun s fd td ackFd ackTd hp ht => exec_avsMarginCheck hp ht fd td ackFd ackTd rfl, ?margin,
    fun s ackFd ackTd hp ht h0 h1 => exec_avsRetry_fd hp ht h0 h1 ackFd ackTd, fun s => exec_stressSample⟩
  case cluster =>
    intro h0 hb hf w c
    have hex := exec_repairClusterSram_crosses h h0 hb hf (w := w) rfl
    refine ⟨fun hc => ?_, fun hc hr => ?_, fun hc hr hk hu => ⟨fun hl => ?_, fun hl => ?_⟩⟩
    · rw [hex, repairCluster_beyond hc]
      rfl
    · rw [hex, repairCluster_busy hc hr]
      rfl
    · rw [hex, repairCluster_free hc hr hk hu, if_pos hl]
      rfl
    · rw [hex, repairCluster_free hc hr hk hu, if_neg (Bool.eq_false_iff.mp hl)]
      rfl
  case pc =>
    intro hk hp
    rw [exec_repairPcRetire h hk hp]
    refine ⟨fun h0 => ?_, fun h0 => ?_⟩
    · rw [if_pos h0]
      rfl
    · rw [if_neg h0]
      rfl
  case lane =>
    intro hk hp hl pc
    rw [exec_repairHbmLane h hk]
    refine ⟨fun h0 => ?_, fun h0 hx => ?_⟩
    · rw [laneRepair_none hp hl h0]
      rfl
    · rw [laneRepair_starts hp hl hx h0]
      rfl
  case mark =>
    intro l hk hu hl u
    rw [exec_repairLinkReturn h hk hu hl]
    exact ⟨fun hm => by rw [hm]; rfl, fun hm => by rw [hm]; rfl⟩
  case evacuate =>
    intro h4
    rw [exec_repairDdrEvacuate h hk, decide_eq_false (Nat.not_lt.mpr h4), ifFd_local]
  case evacuateFd =>
    intro h4 hb hf
    rw [exec_repairDdrEvacuate h hk, decide_eq_true h4, ifFd_crosses hb hf]
  case back =>
    intro h4
    rw [exec_repairDdrReturn h hk, decide_eq_false (Nat.not_lt.mpr h4), ifFd_local]
  case backFd =>
    intro h4 hb hf
    rw [exec_repairDdrReturn h hk, decide_eq_true h4, ifFd_crosses hb hf]
  case retrain =>
    intro s r t h
    exact ⟨exec_bridgeRetrain_refused h, exec_bridgeRetrain h⟩
  case steps =>
    intro s k rows spares bad slot h
    refine ⟨fun h1 => exec_clusterRepairStepDone_drained h rows spares bad slot h1, exec_clusterRepairStepDone_tested h rows spares bad slot,
      fun h3 => ⟨?_, fun hs => ?_, ?_⟩, exec_clusterRepairStepDone_kept h rows spares bad slot,
      fun h5 => exec_clusterRepairStepDone_ends h rows spares bad slot h5 rfl⟩
    · exact exec_clusterRepairStepDone_found h rows spares 0 slot h3
    · rw [exec_clusterRepairStepDone_found h rows spares 1 slot h3, if_pos ⟨rfl, hs⟩]
      rfl
    · exact exec_clusterRepairStepDone_found h rows spares 2 slot h3
  case weak =>
    intro s table index array c row cells ha at_ go
    have hex : go = _ := exec_tableScrub_row table index ha (at_ := at_) rfl
    refine ⟨fun h3 => ?_, fun h3 => ?_, weakRow_known, weakRow_new⟩
    · rw [hex, if_neg (by omega)]
    · rw [hex, if_pos h3]
  case margin =>
    intro s d margin ack hreg hr _ hle hlow
    exact avsJudge_steps hreg hr hle hlow

end Sys2Proof
end

section
/-! SUPPORT. Which register fields the operations on lanes, line ports and fabric links leave (R438 to R456, R470 to R493). -/
namespace Sys2Proof.Machine
open Sys2Proof.Claims

/-! ### Every field but those listed -/

/-- The key `k` is of none of these fields. -/
def Outside (l : List Fld) (k : Nat) : Prop := ∀ f ∈ l, k ≠ f.key

theorem not_outside {l : List Fld} {f : Fld} (h : f ∈ l) : ¬ Outside l f.key := fun hk => hk f h rfl

theorem Outside.mono {l m : List Fld} {k : Nat} (h : Outside m k) (hs : l ⊆ m) : Outside l k := fun f hf => h f (hs hf)

/-- A field reads what was written to it, whatever the order of the table, where that is not its value at reset. -/
theorem State.rd_wr_listed (s : State) {f : Fld} {v : Nat} (h : v % 2 ^ f.width ≠ f.reset) : (s.wr f v).rd f = v % 2 ^ f.width := by
  have hset : (s.wr f v).regs = Tbl.ins f.key (v % 2 ^ f.width) s.regs := if_neg h
  unfold State.rd
  rw [hset, Tbl.get_ins_self]

section Fold
variable {α : Type} {f : State → α → State} {I : State → Prop} {P : α → State → Prop} {l : List α}
  (hI : ∀ s, ∀ x ∈ l, I s → I (f s x)) (hset : ∀ s, ∀ x ∈ l, I s → P x (f s x))
  (hkeep : ∀ s, ∀ x ∈ l, ∀ y, x ≠ y → P y s → P y (f s x)) {s : State} (hs : I s)
include hI hset hkeep hs

/-- What holds of an element still holds after a fold that keeps it on every other element's turn and establishes it on its own. -/
theorem foldl_stays {y : α} (h : P y s) : P y (l.foldl f s) := by
  induction l generalizing s with
  | nil => exact h
  | cons x l ih =>
    refine ih (fun t z hz => hI t z (.tail _ hz)) (fun t z hz => hset t z (.tail _ hz)) (fun t z hz => hkeep t z (.tail _ hz))
      (hI s x (.head _) hs) ?_
    by_cases hxy : x = y
    · exact hxy ▸ hset s x (.head _) hs
    · exact hkeep s x (.head _) y hxy h

/-- Such a fold establishes it of every element. -/
theorem foldl_each : ∀ y ∈ l, P y (l.foldl f s) := by
  induction l generalizing s with
  | nil => exact fun y hy => absurd hy List.not_mem_nil
  | cons x l ih =>
    have hI' := fun t z (hz : z ∈ l) => hI t z (.tail _ hz)
    have hset' := fun t z (hz : z ∈ l) => hset t z (.tail _ hz)
    have hkeep' := fun t z (hz : z ∈ l) => hkeep t z (.tail _ hz)
    have hx := hI s x (.head _) hs
    exact List.forall_mem_cons.mpr ⟨foldl_stays hI' hset' hkeep' hx (hset s x (.head _) hs), ih hI' hset' hkeep' hx⟩

end Fold

/-- Fields at different bits of their words are different fields. -/
theorem Fld.key_ne {f g : Fld} (h : (decide (f.lo < 64) && decide (g.lo < 64) && f.lo != g.lo) = true) : f.key ≠ g.key := by
  simp only [Bool.and_eq_true, decide_eq_true_eq, bne_iff_ne] at h
  unfold Fld.key
  omega

/-! ### Lanes -/

/-- The field lies among the registers of lane `ln`. -/
def OnLane (ln : Nat) (f : Fld) : Prop := sdsBase ln ≤ f.addr ∧ f.addr < sdsBase ln + 0x400 ∧ f.lo < 64

theorem OnLane.ne {ln j : Nat} {f g : Fld} (hf : OnLane ln f) (hg : OnLane j g) (h : ln ≠ j) : f.key ≠ g.key := by
  obtain ⟨hf1, hf2, hf3⟩ := hf
  obtain ⟨hg1, hg2, hg3⟩ := hg
  unfold sdsBase at hf1 hf2 hg1 hg2
  unfold Fld.key
  split_ifs at hf1 hf2 hg1 hg2 <;> omega

/-- A field below the blocks of the lanes is none of theirs. -/
theorem OnLane.ne_below {ln : Nat} {f g : Fld} (hf : OnLane ln f) (hg : g.addr + 1 ≤ 0x480000 ∧ g.lo < 64) : g.key ≠ f.key := by
  obtain ⟨hf1, -, -⟩ := hf
  have hbase : 0x480000 ≤ sdsBase ln := by unfold sdsBase; split <;> omega
  unfold Fld.key
  omega

/-- The fields, but state, that a change of a lane's state can write. -/
def laneRestFields (ln : Nat) : List Fld :=
  [SDS_STAT.los ln, SDS_STAT.lol ln, SDS_STAT.rx_inverted ln, SDS_STAT.adapted ln, SDS_STAT.adapt_stored ln, SDS_STAT.align ln,
   SDS_REACQ.count ln]

/-- The fields that a change of a lane's state, rate or PRBS run can write. -/
def laneFields (ln : Nat) : List Fld := SDS_STAT.state ln :: SDS_CTL.rate ln :: SDS_CTL.prbs ln :: laneRestFields ln

theorem laneFields_onLane (ln : Nat) : ∀ f ∈ laneFields ln, OnLane ln f := by
  simp [laneFields, laneRestFields, OnLane, SDS_STAT.state, SDS_CTL.rate, SDS_CTL.prbs, SDS_STAT.los, SDS_STAT.lol, SDS_STAT.rx_inverted, SDS_STAT.adapted,
    SDS_STAT.adapt_stored, SDS_STAT.align, SDS_REACQ.count]

/-- What one lane's change of state writes is no field of another lane. -/
theorem outside_otherLane {ln j : Nat} {f : Fld} (hf : OnLane ln f) (h : ln ≠ j) : Outside (laneFields j) f.key :=
  fun g hg => hf.ne (laneFields_onLane j g hg) h

theorem outside_lanes_below {ln : Nat} {f : Fld} (hf : f.addr + 1 ≤ 0x480000 ∧ f.lo < 64) : Outside (laneFields ln) f.key :=
  fun g hg => (laneFields_onLane ln g hg).ne_below hf

theorem outside_laneRest_state (ln : Nat) : Outside (laneRestFields ln) (SDS_STAT.state ln).key := by
  simp only [Outside, laneRestFields, List.forall_mem_cons]
  refine ⟨?_, ?_, ?_, ?_, ?_, ?_, ?_, fun f hf => absurd hf List.not_mem_nil⟩ <;> exact Fld.key_ne rfl

theorem outside_laneRest_rate (ln : Nat) : Outside (laneRestFields ln) (SDS_CTL.rate ln).key := by
  simp only [Outside, laneRestFields, List.forall_mem_cons]
  refine ⟨?_, ?_, ?inverted, ?_, ?_, ?_, ?_, fun f hf => absurd hf List.not_mem_nil⟩
  case inverted => simp only [Fld.key, SDS_CTL.rate, SDS_STAT.rx_inverted]; omega
  all_goals exact Fld.key_ne rfl

section Lane
variable (s : State) (ln : Nat)

theorem setLane_keeps (K : Nat → Prop) (x : Lane) : KeepsFields K s (s.setLane ln x) := (KeepsFields.refl K s).ofRegs rfl

theorem adaptStart_keeps : KeepsFields (Outside (laneRestFields ln)) s (s.adaptStart ln) := by
  unfold State.adaptStart
  refine .ite (.refl _ s) (.ite (setLane_keeps ..) ?_)
  exact (setLane_keeps ..).wr (not_outside (by simp [laneRestFields])) _

theorem laneStop_keeps : KeepsFields (Outside (laneRestFields ln)) s (s.laneStop ln) := by
  unfold State.laneStop
  refine .trans ?_ (setLane_keeps ..)
  refine .wr (.wr (.wr (.wr (.refl _ s) ?_ _) ?_ _) ?_ _) ?_ _ <;> exact not_outside (by simp [laneRestFields])

/-- After the write of state, a change of a lane's state writes only the other fields. -/
theorem laneTo_after (st : Nat) : KeepsFields (Outside (laneRestFields ln)) (s.wr (SDS_STAT.state ln) st) (s.laneTo ln st) := by
  unfold State.laneTo
  dsimp only
  split
  · exact adaptStart_keeps ..
  · refine .wr (.wr (laneStop_keeps ..) ?_ _) ?_ _ <;> exact not_outside (by simp [laneRestFields])
  · refine .ite ?_ (laneStop_keeps ..)
    exact ((laneStop_keeps ..).wr (not_outside (by simp [laneRestFields])) 1).trans (setLane_keeps ..)

theorem laneTo_keeps (st : Nat) : KeepsFields (Outside (laneFields ln)) s (s.laneTo ln st) :=
  ((KeepsFields.refl _ s).wr (not_outside (by simp [laneFields])) st).trans
    ((laneTo_after s ln st).mono fun _ h => h.mono fun f hf => by simp [laneFields, hf])

theorem laneTo_state {st : Nat} (h : s.regsOk = true ∨ st = 1) (hst : st < 4) : (s.laneTo ln st).rd (SDS_STAT.state ln) = st := by
  have hmod : st % 2 ^ (SDS_STAT.state ln).width = st := Nat.mod_eq_of_lt hst
  refine ((laneTo_after s ln st).rd _ (outside_laneRest_state ln)).trans (.trans ?_ hmod)
  rcases h with h | rfl
  · exact State.rd_wr_self h _ _
  · exact s.rd_wr_listed Nat.one_ne_zero

theorem laneTo_rate (st : Nat) : (s.laneTo ln st).rd (SDS_CTL.rate ln) = s.rd (SDS_CTL.rate ln) :=
  ((laneTo_after s ln st).rd _ (outside_laneRest_rate ln)).trans (s.rd_wr_ne _ (Fld.key_ne rfl))

theorem laneRateTo_keeps (r : Nat) : KeepsFields (Outside (laneFields ln)) s (s.laneRateTo ln r) := by
  unfold State.laneRateTo
  refine .ite (.refl _ s) (.wr (.wr (.refl _ s) ?_ _) ?_ _) <;> exact not_outside (by simp [laneFields, laneRestFields])

theorem laneRateTo_rate (h : s.regsOk = true) {r : Nat} (hr : r < 8) : (s.laneRateTo ln r).rd (SDS_CTL.rate ln) = r := by
  unfold State.laneRateTo
  split
  · assumption
  · rw [State.rd_wr_ne _ _ (Fld.key_ne rfl), State.rd_wr_self h]
    exact Nat.mod_eq_of_lt hr

/-- A lane enters a state at a rate. -/
theorem laneEnter (h : s.regsOk = true) {st r : Nat} (hst : st < 4) (hr : r < 8) :
    ((s.laneRateTo ln r).laneTo ln st).rd (SDS_STAT.state ln) = st ∧ ((s.laneRateTo ln r).laneTo ln st).rd (SDS_CTL.rate ln) = r :=
  ⟨laneTo_state _ ln (.inl ((laneRateTo_keeps s ln r).regsOk h)) hst, (laneTo_rate ..).trans (laneRateTo_rate s ln h hr)⟩

theorem laneEnter_keeps (st r : Nat) : KeepsFields (Outside (laneFields ln)) s ((s.laneRateTo ln r).laneTo ln st) :=
  (laneRateTo_keeps s ln r).trans (laneTo_keeps _ ln st)

end Lane

theorem state_onLane (ln : Nat) : OnLane ln (SDS_STAT.state ln) := laneFields_onLane ln _ (by simp [laneFields])
theorem rate_onLane (ln : Nat) : OnLane ln (SDS_CTL.rate ln) := laneFields_onLane ln _ (by simp [laneFields])

/-! ### What leaves every register -/

section Regs

theorem foldl_regs {α : Type} {f : State → α → State} (hf : ∀ t x, (f t x).regs = t.regs) (l : List α) (s : State) :
    (l.foldl f s).regs = s.regs :=
  List.foldlRecOn (motive := fun t => t.regs = s.regs) l f rfl fun t ht x _ => (hf t x).trans ht

theorem State.touchChild_regs (s : State) (par : Node) (level i : Nat) : (s.touchChild par level i).regs = s.regs := by
  unfold State.touchChild
  dsimp only
  split_ifs <;> rfl

theorem State.choose_regs (s : State) (level i : Nat) : (s.choose level i).regs = s.regs := by
  unfold State.choose
  dsimp only
  split
  · rfl
  · split <;> rfl

theorem State.settle_regs (s : State) : s.settle.regs = s.regs :=
  foldl_regs (fun t _ => foldl_regs (fun u _ => (State.choose_regs ..).trans (foldl_regs (fun v _ => v.touchChild_regs ..) _ u)) _ t) _ s

theorem State.withdrawUp_regs : ∀ (n : Nat) (s : State) (level i : Nat), (s.withdrawUp n level i).regs = s.regs
  | 0, _, _, _ => rfl
  | n + 1, s, level, i => by
    unfold State.withdrawUp
    extract_lets x t
    have ht : t.regs = s.regs := rfl
    split
    · exact (withdrawUp_regs n ..).trans ht
    · exact ht

theorem State.pfcCatchUp_regs (s : State) (p : Nat) : (s.pfcCatchUp p).regs = s.regs :=
  foldl_regs (fun t c => by dsimp only; split_ifs <;> rfl) _ s

end Regs

/-! ### Line ports -/

/-- The fields that a change of a port's fault condition can write. -/
def portStatFields (p : Nat) : List Fld :=
  [LPT_STAT.lane_los p, LPT_STAT.lane_lol p, LPT_STAT.local_fault p, LPT_STAT.remote_fault p, LPT_STAT.aligned p, LPT_STAT.fec_lock p]
def portFields (p : Nat) : List Fld := LPT_STAT.state p :: SCH_WITHDRAW.count :: portStatFields p

theorem outside_portStat_state (p : Nat) : Outside (portStatFields p) (LPT_STAT.state p).key := by
  simp only [Outside, portStatFields, List.forall_mem_cons]
  refine ⟨?_, ?_, ?_, ?_, ?_, ?_, fun f hf => absurd hf List.not_mem_nil⟩ <;> exact Fld.key_ne rfl

section Port
variable (s : State) (p : Nat)

theorem setLinePort_keeps (K : Nat → Prop) (m : LinePort) : KeepsFields K s (s.setLinePort p m) := (KeepsFields.refl K s).ofRegs rfl

theorem stepBack_keeps (K : Nat → Prop) : KeepsFields K s (s.stepBack p) := by
  unfold State.stepBack
  dsimp only
  generalize (if s.anyLos p then 2 else _) = cap
  exact .ite (setLinePort_keeps ..) (.refl K s)

theorem leaveUp_keeps (K : Nat → Prop) : KeepsFields K s (s.leaveUp p) := by
  unfold State.leaveUp
  exact .ite (setLinePort_keeps ..) (.refl K s)

theorem portStat_keeps : KeepsFields (Outside (portStatFields p)) s (s.portStat p) := by
  unfold State.portStat
  refine .wr (.wr (.wr (.wr (.wr (.wr (.refl _ s) ?_ _) ?_ _) ?_ _) ?_ _) ?_ _) ?_ _ <;> exact not_outside (by simp [portStatFields])

theorem stopClasses_keeps (mask : Nat) : KeepsFields (Outside (portFields p)) s (s.stopClasses p mask) := by
  unfold State.stopClasses
  refine .ofRegs (.foldl _ (fun q _ t ht => ?_) (.refl _ s)) (State.settle_regs _)
  unfold State.withdraw
  exact .ite (.wr (ht.ofRegs (State.withdrawUp_regs ..)) (not_outside (by simp [portFields])) _) ht

/-- All that a port's taking up of a change can write. -/
theorem portTouch_keeps : KeepsFields (Outside (portFields p)) s (s.portTouch p) := by
  have hstat : KeepsFields (Outside (portFields p)) s ((if s.portState p = 1 then s.stepBack p else s).portStat p) :=
    (KeepsFields.ite (stepBack_keeps ..) (.refl _ s)).trans ((portStat_keeps _ p).mono fun _ h => h.mono (by simp [portFields]))
  have hst : ¬ Outside (portFields p) (LPT_STAT.state p).key := not_outside (by simp [portFields])
  unfold State.portTouch
  dsimp only
  split
  · exact .ite (hstat.trans (setLinePort_keeps ..)) (.ite (hstat.trans (setLinePort_keeps ..)) hstat)
  · refine .ite ?_ hstat
    exact (((hstat.trans (leaveUp_keeps ..)).wr hst 3).trans (setLinePort_keeps ..)).trans (stopClasses_keeps ..)
  · refine .ite hstat (.ofRegs (.ofRegs ((hstat.wr hst 2).trans (setLinePort_keeps ..)) (State.settle_regs _)) (State.pfcCatchUp_regs ..))
  · exact hstat

@[simp] theorem portStat_linePort : (s.portStat p).linePort p = s.linePort p := rfl

/-- A DOWN port takes up a change by its step of bring-up, by LPT_STAT, and by the time since when its fault condition is absent. -/
theorem portTouch_down (h : s.portState p = 1) :
    s.portTouch p = (s.stepBack p).portStat p ∨
      ∃ n, s.portTouch p = ((s.stepBack p).portStat p).setLinePort p { (s.stepBack p).linePort p with since := n } := by
  have h1 : ((s.stepBack p).portStat p).portState p = 1 :=
    ((portStat_keeps _ p).rd _ (outside_portStat_state p)).trans (((stepBack_keeps s p fun _ => True).rd _ trivial).trans h)
  unfold State.portTouch
  simp only [if_pos h, h1, portStat_linePort]
  split
  · exact .inr ⟨0, rfl⟩
  · split
    · exact .inr ⟨_, rfl⟩
    · exact .inl rfl

theorem portTouch_down_keeps (h : s.portState p = 1) : KeepsFields (Outside (portStatFields p)) s (s.portTouch p) := by
  have hstat := (stepBack_keeps s p _).trans (portStat_keeps (s.stepBack p) p)
  rcases portTouch_down s p h with he | ⟨n, he⟩ <;> rw [he]
  · exact hstat
  · exact hstat.trans (setLinePort_keeps ..)

/-- A port whose bring-up has begun reads as it was written, whatever the order of the table: it is not what an unlisted port reads as. -/
theorem linePort_setLinePort_begun {m : LinePort} (h : m.step ≠ 0) : (s.setLinePort p m).linePort p = m := by
  have hset : (s.setLinePort p m).lpt.ports = Tbl.ins p m s.lpt.ports := if_neg fun he => h (congrArg LinePort.step he)
  unfold State.linePort
  rw [hset, Tbl.get_ins_self]

/-- A DOWN port whose bring-up has begun keeps all but `since` where its lanes allow its step. -/
theorem portTouch_down_linePort (h : s.portState p = 1) (h0 : (s.linePort p).step ≠ 0) (hb : s.stepBack p = s) :
    ∃ n, (s.portTouch p).linePort p = { s.linePort p with since := n } := by
  rcases portTouch_down s p h with he | ⟨n, he⟩ <;> rw [hb] at he <;> rw [he]
  · exact ⟨(s.linePort p).since, rfl⟩
  · exact ⟨n, linePort_setLinePort_begun _ p h0⟩

theorem stepBack_allowed (hlos : (s.linePort p).step ≤ 2 ∨ s.anyLos p = false) (hlol : (s.linePort p).step ≤ 3 ∨ s.anyLol p = false)
    (hlock : (s.linePort p).step ≤ 5 ∨ (s.linePort p).unlocked = false) (h7 : (s.linePort p).step ≤ 7) : s.stepBack p = s := by
  refine if_neg (Nat.not_lt.mpr ?_)
  by_cases hs : s.anyLos p = true
  · rw [if_pos hs]
    exact hlos.resolve_right (by simp [hs])
  by_cases hl : s.anyLol p = true
  · rw [if_neg hs, if_pos hl]
    exact hlol.resolve_right (by simp [hl])
  by_cases hu : (s.linePort p).unlocked = true
  · rw [if_neg hs, if_neg hl, if_pos hu]
    exact hlock.resolve_right (by simp [hu])
  · rw [if_neg hs, if_neg hl, if_neg hu]
    exact h7

end Port

end Sys2Proof.Machine
end

section
/-! SUPPORT. Line ports enabled, brought up and disabled (R437 to R444, R450, R454, R455). -/
namespace Sys2Proof.Machine
open Sys2Proof.Claims

/-! ### Enabling (R438, R439, R443) -/

theorem modeOk_lanes {speed lanes fec : Nat} (h : modeOk speed lanes fec = true) : lanes = 1 ∨ lanes = 2 ∨ lanes = 4 ∨ lanes = 8 := by
  unfold modeOk at h
  split at h <;> simp only [Bool.and_eq_true, Bool.or_eq_true, beq_iff_eq, decide_eq_true_eq] at h <;> omega

theorem laneRate_lt (speed lanes : Nat) : laneRate speed lanes < 8 := by
  unfold laneRate
  split
  · decide
  · decide
  · decide
  · split <;> decide

theorem mem_portLanes {s : State} {p ln : Nat} : ln ∈ s.portLanes p ↔ p ≤ ln ∧ ln < p + s.rd (LPT_CFG.lanes p) := by
  simp only [State.portLanes, List.mem_map, List.mem_range]
  exact ⟨fun ⟨i, hi, he⟩ => by omega, fun h => ⟨ln - p, by omega, by omega⟩⟩

theorem endTest_keeps (s : State) (k result detail : Nat) :
    KeepsFields (Outside [GEN_STSTAT.running, HIF_EVLOST.count 0xC]) s (s.endTest k result detail) := by
  unfold State.endTest
  refine .ite (.refl _ s) (.post (.wr ?_ ?running _) ?lost _)
  · exact (KeepsFields.refl _ s).ofRegs rfl
  case running => exact not_outside List.mem_cons_self
  case lost => exact not_outside (List.mem_cons_of_mem _ List.mem_cons_self)

theorem abandonTest_keeps (s : State) (k : Nat) (hit : Nat → Bool) :
    KeepsFields (Outside [GEN_STSTAT.running, HIF_EVLOST.count 0xC]) s (s.abandonTest k hit) := by
  unfold State.abandonTest
  exact .ite (endTest_keeps ..) (.refl _ s)

/-- The fields of LPT_CFG but enable. -/
def lptCfgFields (p : Nat) : List Fld :=
  [LPT_CFG.speed p, LPT_CFG.lanes p, LPT_CFG.fec p, LPT_CFG.lt_en p, LPT_CFG.tx_reverse p, LPT_CFG.loopback p]

section On
variable (s : State) (p : Nat) (w : LptWrite)

/-- The state of a port that is enabled before its lanes start. -/
def State.portStored : State :=
  (((s.abandonTest 4 (fun ln => p ≤ ln && ln < p + w.lanes)).lptStore p w).wr (LPT_CFG.enable p) 1).wr (LPT_STAT.state p) 1

/-- A lane enters ACTIVE at a rate, with no PRBS run left on it. -/
def State.laneStart (r : Nat) (s : State) (ln : Nat) : State := ((s.wr (SDS_CTL.prbs ln) 0).laneRateTo ln r).laneTo ln 2

/-- The lanes of a port that is enabled have started. -/
def State.lanesStarted : State :=
  ((s.portStored p w).portLanes p).foldl (State.laneStart (laneRate w.speed w.lanes)) (s.portStored p w)

theorem portOn_eq : s.portOn p w = ((s.lanesStarted p w).setLinePort p { (s.lanesStarted p w).linePort p with
    step := 1, stepAt := (s.lanesStarted p w).clk, txOrder := txLanes w.lanes (w.reverse == 1) }).portTouch p := rfl

theorem laneStart_keeps (r ln : Nat) : KeepsFields (Outside (laneFields ln)) s (State.laneStart r s ln) :=
  ((KeepsFields.refl _ s).wr (not_outside (by simp [laneFields])) 0).trans (laneEnter_keeps ..)

theorem lptStore_keeps : KeepsFields (Outside (lptCfgFields p)) s (s.lptStore p w) := by
  unfold State.lptStore
  refine .wr (.wr (.wr (.wr (.wr (.wr (.refl _ s) ?_ _) ?_ _) ?_ _) ?_ _) ?_ _) ?_ _ <;> exact not_outside (by simp [lptCfgFields])

variable {s p w}

theorem portStored_regsOk (h : s.regsOk = true) : (s.portStored p w).regsOk = true :=
  State.wr_regsOk (State.wr_regsOk ((lptStore_keeps ..).regsOk ((abandonTest_keeps ..).regsOk h)) _ _) _ _

theorem portStored_enable : (s.portStored p w).rd (LPT_CFG.enable p) = 1 :=
  (State.rd_wr_ne _ _ (Fld.key_ne rfl)).trans (State.rd_wr_listed _ Nat.one_ne_zero)

theorem portStored_state : (s.portStored p w).portState p = 1 := State.rd_wr_listed _ Nat.one_ne_zero

theorem portStored_lanes (h : s.regsOk = true) (hw : w.lanes < 16) : (s.portStored p w).rd (LPT_CFG.lanes p) = w.lanes := by
  have hreg := (abandonTest_keeps s 4 (fun ln => p ≤ ln && ln < p + w.lanes)).regsOk h
  have hkey : (LPT_CFG.lanes p).key ≠ (LPT_STAT.state p).key := Fld.key_ne rfl
  refine (State.rd_wr_ne _ _ hkey).trans ((State.rd_wr_ne _ _ (Fld.key_ne rfl)).trans ?_)
  refine (State.rd_wr_ne _ _ (Fld.key_ne rfl)).trans ((State.rd_wr_ne _ _ (Fld.key_ne rfl)).trans ((State.rd_wr_ne _ _ (Fld.key_ne rfl)).trans
    ((State.rd_wr_ne _ _ (Fld.key_ne rfl)).trans ((State.rd_wr_self (State.wr_regsOk hreg _ _) _ _).trans (Nat.mod_eq_of_lt hw)))))

/-- A field on a lane is none of those that are stored. -/
theorem portStored_onLane (hp : p < 128) {ln : Nat} {f : Fld} (hf : OnLane ln f) : (s.portStored p w).rd f = s.rd f := by
  have hne : ∀ {g : Fld}, g.addr + 1 ≤ 0x480000 ∧ g.lo < 64 → f.key ≠ g.key := fun hg => (hf.ne_below hg).symm
  refine (State.rd_wr_ne _ _ (hne ?_)).trans ((State.rd_wr_ne _ _ (hne ?_)).trans (((lptStore_keeps ..).rd f ?_).trans
    ((abandonTest_keeps ..).rd f ?_)))
  · simp only [LPT_STAT.state]; omega
  · simp only [LPT_CFG.enable]; omega
  · simp only [Outside, lptCfgFields, List.forall_mem_cons]
    refine ⟨hne ?_, hne ?_, hne ?_, hne ?_, hne ?_, hne ?_, fun f hf => absurd hf List.not_mem_nil⟩ <;>
      simp only [LPT_CFG.speed, LPT_CFG.lanes, LPT_CFG.fec, LPT_CFG.lt_en, LPT_CFG.tx_reverse, LPT_CFG.loopback] <;> omega
  · simp only [Outside, List.forall_mem_cons]
    exact ⟨hne (by decide), hne (by decide), fun f hf => absurd hf List.not_mem_nil⟩

/-- A field below the blocks of the lanes is as it was stored once the lanes have started. -/
theorem lanesStarted_below {f : Fld} (hf : f.addr + 1 ≤ 0x480000 ∧ f.lo < 64) : (s.lanesStarted p w).rd f = (s.portStored p w).rd f :=
  (KeepsFields.foldl (K := fun k => k = f.key) _ (fun ln _ t ht => ht.trans ((laneStart_keeps t _ ln).mono fun _ hk => hk ▸
    outside_lanes_below hf)) (.refl _ _)).rd f rfl

theorem lanesStarted_other {ln : Nat} (h : ln ∉ (s.portStored p w).portLanes p) :
    (s.lanesStarted p w).rd (SDS_STAT.state ln) = (s.portStored p w).rd (SDS_STAT.state ln) := by
  refine (KeepsFields.foldl (K := fun k => k = (SDS_STAT.state ln).key) _ (fun j hj t ht => ht.trans ((laneStart_keeps t _ j).mono fun k hk => ?_))
    (.refl _ _)).rd _ rfl
  exact hk ▸ outside_otherLane (state_onLane ln) fun he => h (he ▸ hj)

/-- Each of the port's lanes is ACTIVE at the rate of its mode. -/
theorem lanesStarted_each (h : s.regsOk = true) : ∀ ln ∈ (s.portStored p w).portLanes p,
    (s.lanesStarted p w).rd (SDS_STAT.state ln) = 2 ∧ (s.lanesStarted p w).rd (SDS_CTL.rate ln) = laneRate w.speed w.lanes := by
  refine foldl_each (I := fun t => t.regsOk = true)
    (P := fun ln t => t.rd (SDS_STAT.state ln) = 2 ∧ t.rd (SDS_CTL.rate ln) = laneRate w.speed w.lanes)
    (fun t ln _ ht => (laneStart_keeps ..).regsOk ht) (fun t ln _ ht => ?_) (fun t ln _ j hne ht => ?_) (portStored_regsOk h)
  · exact laneEnter _ ln (t.wr_regsOk ht _ _) (by decide) (laneRate_lt ..)
  · have hk := laneStart_keeps t (laneRate w.speed w.lanes) ln
    exact ⟨(hk.rd _ (outside_otherLane (state_onLane j) hne.symm)).trans ht.1, (hk.rd _ (outside_otherLane (rate_onLane j) hne.symm)).trans ht.2⟩

theorem outside_portStat_above {f : Fld} (hp : p < 128) (hf : 0x480000 ≤ f.addr) : Outside (portStatFields p) f.key := by
  simp only [Outside, portStatFields, List.forall_mem_cons]
  refine ⟨?_, ?_, ?_, ?_, ?_, ?_, fun f hf => absurd hf List.not_mem_nil⟩ <;> unfold Fld.key <;>
    simp only [LPT_STAT.lane_los, LPT_STAT.lane_lol, LPT_STAT.local_fault, LPT_STAT.remote_fault, LPT_STAT.aligned, LPT_STAT.fec_lock] <;> omega

theorem outside_portStat_cfg {f : Fld} (ha : f.addr = 0x400000 + 0x800 * p) (hlo : f.lo < 64) : Outside (portStatFields p) f.key := by
  simp only [Outside, portStatFields, List.forall_mem_cons]
  refine ⟨?_, ?_, ?_, ?_, ?_, ?_, fun f hf => absurd hf List.not_mem_nil⟩ <;> unfold Fld.key <;>
    simp only [LPT_STAT.lane_los, LPT_STAT.lane_lol, LPT_STAT.local_fault, LPT_STAT.remote_fault, LPT_STAT.aligned, LPT_STAT.fec_lock] <;> omega

theorem OnLane.high {ln : Nat} {f : Fld} (hf : OnLane ln f) : 0x480000 ≤ f.addr := by
  obtain ⟨h, -, -⟩ := hf
  unfold sdsBase at h
  split at h <;> omega

section Enabled
variable (hp : p < 128)
include hp

theorem lanesStarted_state : (s.lanesStarted p w).portState p = 1 :=
  (lanesStarted_below (f := LPT_STAT.state p) (by simp only [LPT_STAT.state]; omega)).trans portStored_state

/-- What an enabled port leaves: what the lanes' start has left, but for LPT_STAT. -/
theorem portOn_keeps : KeepsFields (Outside (portStatFields p)) (s.lanesStarted p w) (s.portOn p w) := by
  rw [portOn_eq]
  refine .trans (setLinePort_keeps _ p _ _) (portTouch_down_keeps _ p ?_)
  exact lanesStarted_state hp

theorem portOn_cfg {f : Fld} (ha : f.addr = 0x400000 + 0x800 * p) (hlo : f.lo < 64) : (s.portOn p w).rd f = (s.portStored p w).rd f :=
  ((portOn_keeps hp).rd f (outside_portStat_cfg ha hlo)).trans (lanesStarted_below (by omega))

theorem portOn_state : (s.portOn p w).portState p = 1 := ((portOn_keeps hp).rd _ (outside_portStat_state p)).trans (lanesStarted_state hp)

theorem portOn_onLane {ln : Nat} {f : Fld} (hf : OnLane ln f) : (s.portOn p w).rd f = (s.lanesStarted p w).rd f :=
  (portOn_keeps hp).rd f (outside_portStat_above hp hf.high)

theorem portOn_txOrder : ((s.portOn p w).linePort p).txOrder = txLanes w.lanes (w.reverse == 1) := by
  rw [portOn_eq]
  generalize hm : ({ (s.lanesStarted p w).linePort p with step := 1, stepAt := (s.lanesStarted p w).clk, txOrder := txLanes w.lanes (w.reverse == 1) } :
    LinePort) = m
  have h1 : m.step = 1 := hm ▸ rfl
  have hread : ((s.lanesStarted p w).setLinePort p m).linePort p = m := linePort_setLinePort_begun _ p (by omega)
  have hback : ((s.lanesStarted p w).setLinePort p m).stepBack p = (s.lanesStarted p w).setLinePort p m := by
    refine stepBack_allowed _ p ?_ ?_ ?_ ?_ <;> rw [hread] <;> omega
  obtain ⟨n, hn⟩ := portTouch_down_linePort ((s.lanesStarted p w).setLinePort p m) p (lanesStarted_state hp) (by rw [hread]; omega) hback
  rw [hn, hread]
  exact hm ▸ rfl

end Enabled

/-- R439, R443: what an enabled port has become. -/
theorem portOn_enabled (hp : p < 128) (hr : s.regsOk = true) (hok : s.lptOk p w = true) :
    let t := s.portOn p w
    t.rd (LPT_CFG.enable p) = 1 ∧ t.portState p = 1 ∧ t.rd (LPT_CFG.lanes p) = w.lanes ∧
    (t.linePort p).txOrder = (List.range w.lanes).map (fun i => if w.reverse = 1 then w.lanes - 1 - i else i) ∧
    (∀ i, i < w.lanes → t.rd (SDS_STAT.state (p + i)) = 2 ∧ t.rd (SDS_CTL.rate (p + i)) = laneRate w.speed w.lanes) ∧
    (∀ ln, ln < 320 → (ln < p ∨ p + w.lanes ≤ ln) → t.rd (SDS_STAT.state ln) = s.rd (SDS_STAT.state ln)) := by
  have hmode : w.lanes < 16 := by
    simp only [State.lptOk, Bool.and_eq_true] at hok
    have := modeOk_lanes hok.1.1.1
    omega
  have hlanes : (s.portStored p w).rd (LPT_CFG.lanes p) = w.lanes := portStored_lanes hr hmode
  refine ⟨?_, portOn_state hp, ?_, ?_, fun i hi => ?_, fun ln _ hout => ?_⟩
  · exact (portOn_cfg hp rfl (of_decide_eq_true rfl)).trans portStored_enable
  · exact (portOn_cfg hp rfl (of_decide_eq_true rfl)).trans hlanes
  · simp only [portOn_txOrder hp, txLanes, beq_iff_eq]
  · rw [portOn_onLane hp (state_onLane _), portOn_onLane hp (rate_onLane _)]
    exact lanesStarted_each hr _ (mem_portLanes.mpr (by omega))
  · rw [portOn_onLane hp (state_onLane _), lanesStarted_other fun hm => ?_, portStored_onLane hp (state_onLane _)]
    have := mem_portLanes.mp hm
    omega

end On

/-! ### Disabling (R439) -/

theorem portOff_idle (s : State) (p : Nat) : ∀ ln ∈ s.portLanes p, (s.portOff p).rd (SDS_STAT.state ln) = 1 := by
  unfold State.portOff
  refine foldl_each (I := fun _ => True) (P := fun ln t => t.rd (SDS_STAT.state ln) = 1) (fun _ _ _ _ => trivial)
    (fun t ln _ _ => laneTo_state t ln (.inr rfl) (by decide)) (fun t ln _ j hne ht => ?_) trivial
  exact ((laneTo_keeps t ln 1).rd _ (outside_otherLane (state_onLane j) hne.symm)).trans ht

/-- A frame on the line ends now, with an error code. -/
theorem cutFrame_cut {s : State} {p : Nat} (h : s.lineTime < (s.linePort p).txEnd) :
    (s.cutFrame p).txBad = true ∧ (s.cutFrame p).txEnd = s.lineTime := by
  unfold State.cutFrame
  simp only [decide_eq_true h, Bool.or_true, true_and]
  omega

end Sys2Proof.Machine
end

section
/-! SUPPORT. The steps of bring-up and their times (R441 to R444, R450), lanes that lose and regain signal and lock (R448 to R450), and writes of
LPT_CFG and SDS_CTL (R438, R442, R452). -/
namespace Sys2Proof.Machine
open Sys2Proof.Claims

/-! ### What the end of a step leaves (R441, R442, R450) -/

/-- The fields of a lane, but adapted, that the end of a step can write. -/
def adaptRestFields (ln : Nat) : List Fld :=
  [SDS_STAT.adapt_stored ln, SDS_REACQ.count ln, SDS_EYE.eye_mv ln, SDS_EYE.snr ln, SDS_CTL.refused ln, SDS_TXEQ.pre2 ln, SDS_TXEQ.pre1 ln,
   SDS_TXEQ.main_ ln, SDS_TXEQ.post1 ln, SDS_STAT.rx_inverted ln]
def adaptFields (ln : Nat) : List Fld := SDS_STAT.adapted ln :: adaptRestFields ln

/-- A field that no lane's end of a step writes. -/
def OffAdapt (k : Nat) : Prop := ∀ ln, Outside (adaptFields ln) k

theorem adaptFields_onLane (ln : Nat) : ∀ f ∈ adaptFields ln, OnLane ln f := by
  simp [adaptFields, adaptRestFields, OnLane, SDS_STAT.adapted, SDS_STAT.adapt_stored, SDS_REACQ.count, SDS_EYE.eye_mv, SDS_EYE.snr,
    SDS_CTL.refused, SDS_TXEQ.pre2, SDS_TXEQ.pre1, SDS_TXEQ.main_, SDS_TXEQ.post1, SDS_STAT.rx_inverted]

theorem offAdapt_below {f : Fld} (hf : f.addr + 1 ≤ 0x480000 ∧ f.lo < 64) : OffAdapt f.key :=
  fun ln g hg => (adaptFields_onLane ln g hg).ne_below hf

theorem offAdapt_los (ln : Nat) : OffAdapt (SDS_STAT.los ln).key := by
  intro j
  simp only [Outside, adaptFields, adaptRestFields, List.forall_mem_cons]
  refine ⟨?_, ?_, ?_, ?_, ?_, ?_, ?_, ?_, ?_, ?_, ?_, fun f hf => absurd hf List.not_mem_nil⟩ <;> exact Fld.key_ne rfl

theorem offAdapt_lol (ln : Nat) : OffAdapt (SDS_STAT.lol ln).key := by
  intro j
  simp only [Outside, adaptFields, adaptRestFields, List.forall_mem_cons]
  refine ⟨?_, ?_, ?_, ?_, ?_, ?_, ?_, ?_, ?_, ?_, ?_, fun f hf => absurd hf List.not_mem_nil⟩ <;> exact Fld.key_ne rfl

theorem outside_adaptRest (ln : Nat) : Outside (adaptRestFields ln) (SDS_STAT.adapted ln).key := by
  simp only [Outside, adaptRestFields, List.forall_mem_cons]
  refine ⟨?_, ?_, ?_, ?_, ?_, ?_, ?_, ?_, ?_, ?_, fun f hf => absurd hf List.not_mem_nil⟩ <;> exact Fld.key_ne rfl

section Lane
variable (s : State) (p ln : Nat)

theorem dropStored_keeps (temp : Int) : KeepsFields (Outside (adaptRestFields ln)) s (s.dropStored ln temp) := by
  unfold State.dropStored
  split
  · exact .refl _ s
  · exact .ite (.wr (.refl _ s) (not_outside (by simp [adaptRestFields])) _) (.refl _ s)

theorem polStart_keeps : KeepsFields (Outside (adaptRestFields ln)) s (s.polStart ln) := by
  unfold State.polStart
  exact .ite (.trans (.wr (.refl _ s) (not_outside (by simp [adaptRestFields])) _) (setLane_keeps ..)) (.refl _ s)

theorem polKeep_keeps (K : Nat → Prop) : KeepsFields K s (s.polKeep ln) := by
  unfold State.polKeep
  exact .ite (setLane_keeps ..) (.refl _ s)

theorem writeTxEq_keeps (v : Nat) : KeepsFields (Outside (adaptRestFields ln)) s (s.writeTxEq ln v) := by
  unfold State.writeTxEq
  refine .ite (.wr (.refl _ s) ?_ _) (.wr (.wr (.wr (.wr (.refl _ s) ?_ _) ?_ _) ?_ _) ?_ _) <;> exact not_outside (by simp [adaptRestFields])

theorem setLaneEye_keeps (eye : Nat) : KeepsFields (Outside (adaptRestFields ln)) s (s.setLaneEye ln eye) := by
  unfold State.setLaneEye
  refine .wr (.wr (.refl _ s) ?_ _) ?_ _ <;> exact not_outside (by simp [adaptRestFields])

/-- Past the write of adapted, the adaptation of a lane writes only other fields. -/
theorem laneAdapted_after (got : Nat × Nat) :
    KeepsFields (Outside (adaptRestFields ln)) (s.wr (SDS_STAT.adapted ln) 1) ((s.laneAdapted p ln got).polStart ln) := by
  refine .trans ?_ (polStart_keeps ..)
  unfold State.laneAdapted
  exact .ite ((setLaneEye_keeps ..).trans (writeTxEq_keeps ..)) (setLaneEye_keeps ..)

theorem laneAdapted_adapted (got : Nat × Nat) : ((s.laneAdapted p ln got).polStart ln).rd (SDS_STAT.adapted ln) = 1 :=
  ((laneAdapted_after s p ln got).rd _ (outside_adaptRest ln)).trans (s.rd_wr_listed Nat.one_ne_zero)

theorem laneAdapted_keeps (got : Nat × Nat) : KeepsFields (Outside (adaptFields ln)) s ((s.laneAdapted p ln got).polStart ln) :=
  .trans (.wr (.refl _ s) (not_outside List.mem_cons_self) 1)
    ((laneAdapted_after s p ln got).mono fun _ h => h.mono (List.subset_cons_self ..))

end Lane

section Step
variable (s : State) (p : Nat)

theorem fullAdapt_keeps (ls : List Nat) : KeepsFields OffAdapt s (s.fullAdapt ls) := by
  unfold State.fullAdapt
  exact .foldl _ (fun ln _ t ht => ht.wr (fun h => not_outside (by simp [adaptFields, adaptRestFields]) (h ln)) _) (.refl _ s)

/-- The end of a step leaves every field but those of the lanes' adaptation. -/
theorem stepEnd_keeps (n : Nat) (temp : Int) (got : List (Nat × Nat)) : KeepsFields OffAdapt s (s.stepEnd p n temp got).1 := by
  unfold State.stepEnd
  dsimp only
  split
  · refine .trans (.foldl _ (fun ln _ t ht => ht.trans ?_) (.refl _ s)) (fullAdapt_keeps ..)
    exact (dropStored_keeps ..).mono fun _ h => (h ln).mono (List.subset_cons_self ..)
  · exact .foldl _ (fun ln _ t ht => ht.trans ((laneAdapted_keeps ..).mono fun _ h => h ln)) (.refl _ s)
  · exact .foldl _ (fun ln _ t ht => ht.trans (polKeep_keeps ..)) (.refl _ s)
  · exact .refl _ s

/-- R441: the end of step 5 leaves every lane adapted. -/
theorem stepEnd_adapted (temp : Int) (got : List (Nat × Nat)) :
    ∀ ln ∈ s.portLanes p, (s.stepEnd p 5 temp got).1.rd (SDS_STAT.adapted ln) = 1 := by
  refine foldl_each (I := fun _ => True) (P := fun ln t => t.rd (SDS_STAT.adapted ln) = 1) (fun _ _ _ _ => trivial)
    (fun t ln _ _ => laneAdapted_adapted t p ln _) (fun t ln _ j hne ht => ?_) trivial
  refine ((laneAdapted_keeps t p ln _).rd _ fun g hg => ?_).trans ht
  exact (adaptFields_onLane j _ List.mem_cons_self).ne (adaptFields_onLane ln g hg) hne.symm

end Step

/-! ### BRINGUP_STEP_COMPLETE and BRINGUP_TIMEOUT -/

/-- The port of a state in which a step has ended. -/
def State.steppedPort (s : State) (p : Nat) (temp : Int) (got : List (Nat × Nat)) (order : List Nat) : LinePort :=
  let n := (s.linePort p).step + 1
  let u := (s.stepEnd p n temp got).1
  { s.linePort p with
    step := if n = 6 ∧ u.rd (LPT_CFG.fec p) = 0 then 7 else n, stepAt := u.clk, fast := (s.stepEnd p n temp got).2,
    unlocked := if 6 ≤ n then false else (s.linePort p).unlocked,
    rxOrder := if n = 6 then (if s.rd (LPT_CFG.lanes p) ≤ 1 then [0] else order) else (s.linePort p).rxOrder }

section Complete
variable {s : State} {p : Nat} {temp : Int} {got : List (Nat × Nat)} {order : List Nat} (hp : p < 128) (h1 : s.portState p = 1)
  (hlo : 1 ≤ (s.linePort p).step) (hhi : (s.linePort p).step < 7) (hlos : (s.linePort p).step = 1 ∨ s.anyLos p = false)
  (hlol : (s.linePort p).step ≤ 2 ∨ s.anyLol p = false)
include hp h1 hlo hhi hlos hlol

omit hp h1 hlo hhi in
theorem stepReady_of_lanes : s.stepReady p = true := by
  unfold State.stepReady
  split
  · next h => simp [hlos.resolve_left (by omega)]
  · next h => simp [hlos.resolve_left (by omega), hlol.resolve_left (by omega)]
  · rfl

theorem exec_bringupStepComplete (ho : (s.linePort p).step = 5 → orderOk (s.rd (LPT_CFG.lanes p)) order = true) :
    exec (.bringupStepComplete p temp got order) s =
      .next (((s.stepEnd p ((s.linePort p).step + 1) temp got).1.setLinePort p (s.steppedPort p temp got order)).portTouch p) :=
  if_pos ⟨hp, h1, hlo, hhi, stepReady_of_lanes hlos hlol, Decidable.not_or_of_imp ho⟩

end Complete

/-- A port's lanes and their detectors, from the fields that they are read from. -/
theorem portLanes_congr {s t : State} {p : Nat} (h : t.rd (LPT_CFG.lanes p) = s.rd (LPT_CFG.lanes p)) : t.portLanes p = s.portLanes p := by
  unfold State.portLanes
  rw [h]

theorem anyLos_congr {s t : State} {p : Nat} (h : t.rd (LPT_CFG.lanes p) = s.rd (LPT_CFG.lanes p))
    (hl : ∀ ln, t.rd (SDS_STAT.los ln) = s.rd (SDS_STAT.los ln)) : t.anyLos p = s.anyLos p := by
  unfold State.anyLos State.bit
  simp only [portLanes_congr h, hl]

theorem anyLol_congr {s t : State} {p : Nat} (h : t.rd (LPT_CFG.lanes p) = s.rd (LPT_CFG.lanes p))
    (hl : ∀ ln, t.rd (SDS_STAT.lol ln) = s.rd (SDS_STAT.lol ln)) : t.anyLol p = s.anyLol p := by
  unfold State.anyLol State.bit
  simp only [portLanes_congr h, hl]

section Stepped
variable {s : State} {p : Nat} (hp : p < 128) (temp : Int) (got : List (Nat × Nat)) (order : List Nat)
include hp

/-- The end of a step leaves the registers of the port. -/
theorem stepEnd_port (n : Nat) {f : Fld} (hf : f.addr + 1 ≤ 0x400000 + 0x800 * p + 0x800 ∧ f.lo < 64) :
    (s.stepEnd p n temp got).1.rd f = s.rd f := (stepEnd_keeps s p n temp got).rd f (offAdapt_below (by omega))

theorem stepEnd_lanes (n : Nat) : (s.stepEnd p n temp got).1.rd (LPT_CFG.lanes p) = s.rd (LPT_CFG.lanes p) :=
  stepEnd_port hp temp got n ⟨by simp only [LPT_CFG.lanes]; omega, of_decide_eq_true rfl⟩

theorem steppedPort_step : (s.steppedPort p temp got order).step =
    if (s.linePort p).step = 5 ∧ s.rd (LPT_CFG.fec p) = 0 then 7 else (s.linePort p).step + 1 := by
  have hfec : (s.stepEnd p ((s.linePort p).step + 1) temp got).1.rd (LPT_CFG.fec p) = s.rd (LPT_CFG.fec p) :=
    stepEnd_port hp temp got _ ⟨by simp only [LPT_CFG.fec]; omega, of_decide_eq_true rfl⟩
  simp only [State.steppedPort, hfec, Nat.reduceEqDiff]

end Stepped

/-- R441 to R443: what BRINGUP_STEP_COMPLETE leaves of a port whose lanes allow the step. -/
theorem bringupStep_completes {s : State} {p : Nat} {temp : Int} {got : List (Nat × Nat)} {order : List Nat} (hp : p < 128)
    (h1 : s.portState p = 1) (hlo : 1 ≤ (s.linePort p).step) (hhi : (s.linePort p).step < 7)
    (hlos : (s.linePort p).step = 1 ∨ s.anyLos p = false) (hlol : (s.linePort p).step ≤ 2 ∨ s.anyLol p = false)
    (ho : (s.linePort p).step = 5 → orderOk (s.rd (LPT_CFG.lanes p)) order = true) :
    ∃ t, exec (.bringupStepComplete p temp got order) s = .next t ∧ t.portState p = 1 ∧
      (t.linePort p).step = (if (s.linePort p).step = 5 ∧ s.rd (LPT_CFG.fec p) = 0 then 7 else (s.linePort p).step + 1) ∧
      ((s.linePort p).step = 4 → ∀ ln ∈ s.portLanes p, t.rd (SDS_STAT.adapted ln) = 1) ∧
      ((s.linePort p).step = 5 → (t.linePort p).rxOrder = if s.rd (LPT_CFG.lanes p) ≤ 1 then [0] else order) := by
  refine ⟨_, exec_bringupStepComplete hp h1 hlo hhi hlos hlol ho, ?_⟩
  have hstep := steppedPort_step (s := s) hp temp got order
  have hrx : (s.linePort p).step = 5 → (s.steppedPort p temp got order).rxOrder = if s.rd (LPT_CFG.lanes p) ≤ 1 then [0] else order :=
    fun h5 => if_pos (by omega)
  have hlock : (s.steppedPort p temp got order).step ≤ 5 ∨ (s.steppedPort p temp got order).unlocked = false := by
    by_cases h5 : 5 ≤ (s.linePort p).step
    · exact .inr (if_pos (by omega))
    · exact .inl (by rw [hstep, if_neg (by omega)]; omega)
  generalize s.steppedPort p temp got order = m at hstep hrx hlock ⊢
  have hm0 : m.step ≠ 0 := by rw [hstep]; split <;> omega
  have hends := stepEnd_keeps s p ((s.linePort p).step + 1) temp got
  have hlanes := stepEnd_lanes (s := s) hp temp got ((s.linePort p).step + 1)
  have hadapted : (s.linePort p).step = 4 → ∀ ln ∈ s.portLanes p,
      (s.stepEnd p ((s.linePort p).step + 1) temp got).1.rd (SDS_STAT.adapted ln) = 1 := fun h4 => by
    rw [h4]
    exact stepEnd_adapted s p temp got
  have hstate : (s.stepEnd p ((s.linePort p).step + 1) temp got).1.portState p = 1 :=
    (stepEnd_port hp temp got _ ⟨by simp only [LPT_STAT.state]; omega, of_decide_eq_true rfl⟩).trans h1
  generalize (s.stepEnd p ((s.linePort p).step + 1) temp got).1 = u at hends hlanes hadapted hstate ⊢
  have hread : (u.setLinePort p m).linePort p = m := linePort_setLinePort_begun u p hm0
  have hvlos : (u.setLinePort p m).anyLos p = s.anyLos p := anyLos_congr hlanes fun ln => hends.rd _ (offAdapt_los ln)
  have hvlol : (u.setLinePort p m).anyLol p = s.anyLol p := anyLol_congr hlanes fun ln => hends.rd _ (offAdapt_lol ln)
  have hback : (u.setLinePort p m).stepBack p = u.setLinePort p m := by
    refine stepBack_allowed _ p ?_ ?_ ?_ ?_ <;> rw [hread]
    · rw [hvlos]; exact hlos.imp_left fun h => by rw [hstep, if_neg (by omega)]; omega
    · rw [hvlol]; exact hlol.imp_left fun h => by rw [hstep, if_neg (by omega)]; omega
    · exact hlock
    · rw [hstep]; split <;> omega
  obtain ⟨n, hn⟩ := portTouch_down_linePort (u.setLinePort p m) p hstate (by rw [hread]; exact hm0) hback
  rw [hread] at hn
  have htouch := portTouch_down_keeps (u.setLinePort p m) p hstate
  refine ⟨(htouch.rd _ (outside_portStat_state p)).trans hstate, by rw [hn]; exact hstep, fun h4 ln hln => ?_, fun h5 => by rw [hn]; exact hrx h5⟩
  exact (htouch.rd _ (outside_portStat_above hp (adaptFields_onLane ln _ List.mem_cons_self).high)).trans (hadapted h4 ln hln)

section Timeout
variable {s : State} {p : Nat} {late : List Nat} (hp : p < 128) (h1 : s.portState p = 1) (hlo : 1 ≤ (s.linePort p).step)
  (hhi : (s.linePort p).step ≤ 6) (hpast : Past s (s.linePort p).stepAt (s.stepLimit p ((s.linePort p).step + 1)))
  (hlos : (s.linePort p).step ≠ 2 ∨ s.anyLos p = false)
include hp h1 hlo hhi hpast hlos

/-- A step that has overrun its time, by whether it is a fast reacquire. -/
theorem exec_bringupTimeout : exec (.bringupTimeout p late) s =
    if (s.linePort p).step + 1 = 5 ∧ (s.linePort p).fast = true then
      .next ((s.fullAdapt (s.lateLanes p ((s.linePort p).step + 1) late)).setLinePort p { s.linePort p with fast := false, stepAt := s.clk })
    else .next (((overrun s p ((s.linePort p).step + 1) late).setLinePort p
      { s.linePort p with step := 1, stepAt := (overrun s p ((s.linePort p).step + 1) late).clk, fast := false }).portTouch p) := by
  have hsig : (s.linePort p).step + 1 ≠ 3 ∨ (!s.anyLos p) = true := hlos.imp (by omega) (by simp)
  exact if_pos ⟨hp, h1, by omega, by omega, State.elapsed_of_le hpast, hsig⟩

theorem exec_bringupTimeout_fast (h4 : (s.linePort p).step = 4) (hf : (s.linePort p).fast = true) : exec (.bringupTimeout p late) s =
    .next ((s.fullAdapt (s.lateLanes p 5 late)).setLinePort p { s.linePort p with fast := false, stepAt := s.clk }) := by
  rw [exec_bringupTimeout hp h1 hlo hhi hpast hlos, if_pos ⟨by omega, hf⟩, h4]

theorem exec_bringupTimeout_back (h : (s.linePort p).step ≠ 4 ∨ (s.linePort p).fast = false) : exec (.bringupTimeout p late) s =
    .next (((overrun s p ((s.linePort p).step + 1) late).setLinePort p
      { s.linePort p with step := 1, stepAt := (overrun s p ((s.linePort p).step + 1) late).clk, fast := false }).portTouch p) := by
  have hnot : ¬((s.linePort p).step + 1 = 5 ∧ (s.linePort p).fast = true) := fun ⟨h5, hf⟩ =>
    h.elim (fun h4 => h4 (by omega)) fun hf' => Bool.noConfusion (hf.symm.trans hf')
  rw [exec_bringupTimeout hp h1 hlo hhi hpast hlos, if_neg hnot]

end Timeout

/-! ### UP_DEBOUNCE_EXPIRE, FAULT_PENDING_EXPIRE and POLARITY_SEARCH_SWITCH -/

section Expire
variable {s : State} {p n : Nat} (hp : p < 128) (hn : (s.linePort p).since = n + 1)
include hp hn

theorem exec_upDebounceExpire (h1 : s.portState p = 1) (ht : Past s n (s.rd (LPT_LINKCFG.up_ms p) * 1000000)) :
    exec (.upDebounceExpire p) s = .next (s.enterUp p) := by
  have hsince : (s.linePort p).since - 1 = n := by omega
  exact if_pos ⟨hp, h1, by omega, by rw [hsince]; exact State.elapsed_of_le ht⟩

theorem exec_faultPendingExpire (h3 : s.portState p = 3) (ht : Past s n (s.rd (LPT_LINKCFG.down_us p) * 1000)) :
    exec (.faultPendingExpire p) s = .next (s.enterDown p (s.faultCause p)) := by
  have hsince : (s.linePort p).since - 1 = n := by omega
  exact if_pos ⟨hp, h3, by omega, by rw [hsince]; exact State.elapsed_of_le ht⟩

end Expire

theorem exec_polaritySearchSwitch {s : State} {ln p : Nat} (hl : s.portOfLane ln = some p) (h1 : s.portState p = 1)
    (h5 : (s.linePort p).step = 5) (ha : s.bit (SDS_CTL.rx_pol_auto ln) = true) (hk : (s.lane ln).polKept = false)
    (ht : Past s (max (s.linePort p).stepAt (s.lane ln).polAt) 200000) : exec (.polaritySearchSwitch ln) s =
    .next ((s.setLane ln { s.lane ln with polAt := s.clk }).wrBit (SDS_STAT.rx_inverted ln) (!s.bit (SDS_STAT.rx_inverted ln))) := by
  show execPolaritySearchSwitch ln s = _
  simp only [execPolaritySearchSwitch, hl]
  exact if_pos ⟨h1, h5, ha, by simp [hk], State.elapsed_of_le ht⟩

/-! ### Loss of signal and of lock (R448 to R450) -/

theorem State.bit_of_one {s : State} {f : Fld} (h : s.rd f = 1) : s.bit f = true := by simp [State.bit, h]
theorem State.bit_of_zero {s : State} {f : Fld} (h : s.rd f = 0) : s.bit f = false := by simp [State.bit, h]

section Loss
variable {s : State} {ln : Nat} (hl : ln < 320) (temp : Int)
include hl

theorem exec_lossOfSignalSet {mv : Nat} (hst : s.rd (SDS_STAT.state ln) ≠ 0) (h0 : s.rd (SDS_STAT.los ln) = 0)
    (hmv : mv < s.rd (SDS_SIGCFG.los_mv ln)) : exec (.lossOfSignalSet ln mv temp) s =
    .next ((((s.wr (SDS_STAT.los ln) 1).inc (SDS_LOSCNT.count ln)).freeze ln temp).laneTouch ln) :=
  if_pos ⟨hl, hst, by rw [State.bit_of_zero h0]; rfl, hmv⟩

theorem exec_lossOfLockSet {lock : Bool} {ppm : Int} (hst : s.rd (SDS_STAT.state ln) = 2) (h0 : s.rd (SDS_STAT.lol ln) = 0)
    (hlock : lock = false ∨ 250 < ppm ∨ ppm < -250) : exec (.lossOfLockSet ln lock ppm temp) s =
    .next ((((s.wr (SDS_STAT.lol ln) 1).inc (SDS_LOLCNT.count ln)).freeze ln temp).laneTouch ln) :=
  if_pos ⟨hl, hst, by rw [State.bit_of_zero h0]; rfl, hlock.imp_left (by simp)⟩

theorem exec_lossOfSignalClear {mv : Nat} (h1 : s.rd (SDS_STAT.los ln) = 1) (hmv : s.rd (SDS_SIGCFG.los_mv ln) + 10 < mv) :
    exec (.lossOfSignalClear ln mv temp) s = .next ((s.wr (SDS_STAT.los ln) 0).thaw ln temp) :=
  if_pos ⟨hl, State.bit_of_one h1, hmv⟩

theorem exec_lossOfLockClear (h1 : s.rd (SDS_STAT.lol ln) = 1) :
    exec (.lossOfLockClear ln temp) s = .next ((s.wr (SDS_STAT.lol ln) 0).thaw ln temp) :=
  if_pos ⟨hl, State.bit_of_one h1⟩

omit hl in
/-- R450: a frozen adaptation is stored, and the lane is no longer adapted. -/
theorem freeze_stored (h : s.regsOk = true) :
    (s.freeze ln temp).rd (SDS_STAT.adapt_stored ln) = 1 ∧ (s.freeze ln temp).rd (SDS_STAT.adapted ln) = 0 := by
  have hstored : (s.freeze ln temp).rd (SDS_STAT.adapt_stored ln) = (s.wr (SDS_STAT.adapt_stored ln) 1).rd (SDS_STAT.adapt_stored ln) :=
    State.rd_wr_ne (f := SDS_STAT.adapted ln) _ 0 (Fld.key_ne rfl)
  exact ⟨hstored.trans (s.rd_wr_listed Nat.one_ne_zero), State.rd_wr_self (s.wr_regsOk h _ _) (SDS_STAT.adapted ln) 0⟩

end Loss

/-! ### LPT_CFG over BAR0 (R438, R439) -/

/-- The byte address of LPT_CFG of a port (*BAR0 map*), and its fields. -/
def lptAddr (p : Nat) : Nat := 0x400000 + 0x800 * p
def lptFields (p : Nat) : List FldAcc :=
  [⟨LPT_CFG.enable p, .rws, []⟩, ⟨LPT_CFG.speed p, .rws, []⟩, ⟨LPT_CFG.lanes p, .rws, [(1, 2), (4, 4), (8, 8)]⟩,
   ⟨LPT_CFG.fec p, .rws, [(0, 2)]⟩, ⟨LPT_CFG.lt_en p, .rws, []⟩, ⟨LPT_CFG.tx_reverse p, .rws, []⟩,
   ⟨LPT_CFG.loopback p, .rws, [(0, 2)]⟩, ⟨LPT_CFG.refused p, .w1c, []⟩]

theorem putTop_lt {v : Nat} (hv : v < 2 ^ 32) (x : Nat) : putBits v 31 1 x < 2 ^ 32 := by
  unfold putBits bitsAt
  omega

theorem bitsAt_putTop (v x : Nat) : bitsAt (putBits v 31 1 x) 17 1 = bitsAt v 17 1 := by
  unfold putBits bitsAt
  omega

section LptWrites
variable {p v : Nat} (hp : p < 128) (hv : v < 2 ^ 32) (hr : bitsAt v 17 1 = 0)
include hp

theorem lptAddr_bounds : 0x400000 ≤ lptAddr p ∧ lptAddr p < 0x440000 ∧ lptAddr p % 4 = 0 ∧ (lptAddr p - 0x400000) / 0x800 = p ∧
    lptAddr p % 0x800 = 0 := by unfold lptAddr; omega

theorem regAt_lpt : regAt (lptAddr p) = .word (lptFields p) := by
  obtain ⟨hlo, hhi, -, hport, hoff⟩ := lptAddr_bounds hp
  have hreg : regAt (lptAddr p) = regsLPT p 0 := by simp (disch := omega) only [regAt, if_neg, if_pos, hport, hoff]
  exact hreg.trans rfl

theorem hook_lpt (s : State) : s.hook .bar0 (lptAddr p) (2 ^ 32 - 1) v v = some (s.writeLptCfg p v) := by
  obtain ⟨hlo, hhi, -, hport, hoff⟩ := lptAddr_bounds hp
  unfold State.hook State.hookLines
  rw [if_neg (by omega), if_neg (by omega), if_neg (by omega), if_neg (by omega), if_neg (by omega), if_pos ⟨hlo, hhi⟩, hport, hoff]
  rfl

include hv hr

/-- A write of LPT_CFG that gives `refused` no 1 crosses to the FD and acts there. -/
theorem poke_lpt {s : State} (ho : FdOpen s) : s.poke (lptAddr p) v =
    tagged s false (lptAddr p) (2 ^ 32 - 1) v (fun u => (untouched (LPT_CFG.refused p) u).writeLptCfg p v) := by
  obtain ⟨hlo, hhi, h4, -, -⟩ := lptAddr_bounds hp
  have hfd : isFdAddr (lptAddr p) = true := by
    simp only [isFdAddr, Bool.or_eq_true, Bool.and_eq_true, decide_eq_true_eq]; omega
  have hmsix : isMsix (lptAddr p) = false := by
    simp only [isMsix, Bool.and_eq_false_iff, decide_eq_false_iff_not]; omega
  have hclear : s.fdReach.clearOnes .bar0 v (lptFields p) = untouched (LPT_CFG.refused p) s.fdReach :=
    (congrArg (fun x => s.fdReach.wr (LPT_CFG.refused p) (Nat.land (s.fdReach.rd (LPT_CFG.refused p)) (Nat.xor (2 ^ 1 - 1) x))) hr).trans
      (s.fdReach.wr_clearNone (LPT_CFG.refused p))
  exact State.poke_fd ho (accessOk_four (by omega) h4) hfd hmsix (regAt_lpt hp) hv hclear (hook_lpt hp _)

theorem exec_portEnable {s : State} (ho : FdOpen s) : exec (.portEnable p v) s =
    .next (tagged s false (lptAddr p) (2 ^ 32 - 1) (putBits v 31 1 1)
      (fun u => (untouched (LPT_CFG.refused p) u).writeLptCfg p (putBits v 31 1 1))) := by
  show Host.Outcome.next (if p < 128 then s.poke (lptAddr p) (putBits (v % 2 ^ 32) 31 1 1) else s) = _
  rw [if_pos hp, Nat.mod_eq_of_lt hv, poke_lpt hp (putTop_lt hv 1) ((bitsAt_putTop v 1).trans hr) ho]

theorem exec_portDisable {s : State} (ho : FdOpen s) : exec (.portDisable p v) s =
    .next (tagged s false (lptAddr p) (2 ^ 32 - 1) (putBits v 31 1 0)
      (fun u => (untouched (LPT_CFG.refused p) u).writeLptCfg p (putBits v 31 1 0))) := by
  show Host.Outcome.next (if p < 128 then s.poke (lptAddr p) (putBits (v % 2 ^ 32) 31 1 0) else s) = _
  rw [if_pos hp, Nat.mod_eq_of_lt hv, poke_lpt hp (putTop_lt hv 0) ((bitsAt_putTop v 0).trans hr) ho]

end LptWrites

/-! ### The effect of a write of LPT_CFG -/

section LptEffect
variable {s : State} {p v : Nat}

theorem writeLptCfg_keeps_enabled (he : s.bit (LPT_CFG.enable p) = true) (hw : (s.lptWrite p v).enable = true) : s.writeLptCfg p v = s := by
  unfold State.writeLptCfg
  rw [if_pos he, if_pos hw]

theorem writeLptCfg_off (he : s.bit (LPT_CFG.enable p) = true) (hw : (s.lptWrite p v).enable = false) :
    s.writeLptCfg p v = (s.portOff p).lptStore p (s.lptWrite p v) := by
  unfold State.writeLptCfg
  rw [if_pos he, if_neg (Bool.eq_false_iff.mp hw)]

/-- A write that asks for enable on a port that is not enabled. -/
theorem writeLptCfg_on (he : s.bit (LPT_CFG.enable p) = false) (hw : (s.lptWrite p v).enable = true) : s.writeLptCfg p v =
    if s.lptOk p (s.lptWrite p v) = true then s.portOn p (s.lptWrite p v) else s.wr (LPT_CFG.refused p) 1 := by
  unfold State.writeLptCfg
  rw [if_neg (Bool.eq_false_iff.mp he), hw]
  rfl

end LptEffect

/-! ### SDS_CTL (R442, R452) -/

/-- The fields of SDS_CTL of a lane. -/
def sdsFields (ln : Nat) : List FldAcc :=
  [⟨SDS_CTL.req ln, .rws, [(0, 2)]⟩, ⟨SDS_CTL.rate ln, .rws, []⟩, ⟨SDS_CTL.tx_invert ln, .rws, []⟩, ⟨SDS_CTL.rx_pol_auto ln, .rws, []⟩,
   ⟨SDS_CTL.rx_invert ln, .rws, []⟩, ⟨SDS_CTL.prbs ln, .rws, [(0, 2)]⟩, ⟨SDS_CTL.refused ln, .w1c, []⟩]

section Count
variable {s : State} {f : Fld} {v : Nat} (h0 : f.lo = 0) (ha : 0x480000 ≤ f.addr)
include h0 ha

/-- A counter above the line ports does not stand in the way of register accesses. -/
theorem open_count (ho : Open s) : Open (s.wr f v) := by
  obtain ⟨⟨hrec, hready, hseal⟩, hcmd⟩ := ho
  have hlow : ∀ g : Fld, g.addr + 1 ≤ 0x480000 ∧ g.lo < 64 → (s.wr f v).bit g = s.bit g := fun g hg =>
    State.bit_congr (s.rd_wr_ne v (by unfold Fld.key; omega))
  exact ⟨⟨hrec, (hlow _ (by decide)).trans hready, (hlow _ (by decide)).trans hseal⟩, hcmd⟩

theorem fdOpen_count (ho : FdOpen s) : FdOpen (s.wr f v) := by
  obtain ⟨hopen, hb, hu, hc⟩ := ho
  have hbits : ∀ g : Fld, (decide (0 < g.lo) && decide (g.lo < 64)) = true → (s.wr f v).rd g = s.rd g := fun g hg => by
    simp only [Bool.and_eq_true, decide_eq_true_eq] at hg
    exact s.rd_wr_ne v (by unfold Fld.key; omega)
  have hbridge : (s.wr f v).bridgeUp = s.bridgeUp := by unfold State.bridgeUp; rw [hbits _ rfl]
  have hmods : (s.wr f v).activeMods = s.activeMods := by
    unfold State.activeMods State.modState
    simp only [hbits (D2D_MODSTAT.state _) rfl]
  refine ⟨open_count h0 ha hopen, hbridge.trans hb, .trans ?_ hu, .trans ?_ hc⟩
  · unfold State.fdUnreachable State.bit
    rw [hbridge, hbits _ rfl, hbits _ rfl, hbits _ rfl]
  · unfold State.ctlFree State.controlShare
    rw [hbridge, hmods]
    rfl

end Count

section SdsWrites
variable {ln v : Nat} (hl : ln < 320)
include hl

theorem sdsBase_bounds : 0x480000 ≤ sdsBase ln ∧ sdsBase ln < 0x4F0000 ∧ sdsBase ln % 0x400 = 0 ∧
    (if sdsBase ln < 0x4C0000 then (sdsBase ln - 0x480000) / 0x400 else 128 + (sdsBase ln - 0x4C0000) / 0x400) = ln := by
  unfold sdsBase
  split_ifs <;> omega

theorem regAt_sds : regAt (sdsBase ln) = .word (sdsFields ln) := by
  obtain ⟨-, -, hoff, hlane⟩ := sdsBase_bounds hl
  have hreg : regAt (sdsBase ln) = regsSDS ln 0 := by
    by_cases h : ln < 128
    · have hline : sdsBase ln = 0x480000 + 0x400 * ln := if_pos h
      rw [if_pos (by omega)] at hlane
      simp (disch := omega) only [regAt, if_neg, if_pos, hlane, hoff]
    · have hfab : sdsBase ln = 0x4C0000 + 0x400 * (ln - 128) := if_neg h
      rw [if_neg (by omega), Nat.add_comm] at hlane
      simp (disch := omega) only [regAt, if_neg, if_pos, hlane, hoff]
  exact hreg.trans rfl

theorem hook_sds (s : State) : s.hook .bar0 (sdsBase ln) (2 ^ 32 - 1) v v = some (s.writeSdsCtl ln v) := by
  obtain ⟨hlo, hhi, hoff, hlane⟩ := sdsBase_bounds hl
  unfold State.hook State.hookLines
  rw [if_neg (by omega), if_neg (by omega), if_neg (by omega), if_neg (by omega), if_neg (by omega), if_neg (by omega), if_pos ⟨hlo, hhi⟩, hlane,
    hoff]
  rfl

theorem isFdAddr_sds : isFdAddr (sdsBase ln) = decide (ln < 128) := by
  unfold isFdAddr sdsBase
  by_cases h : ln < 128
  · rw [decide_eq_true h, if_pos h]
    simp only [Bool.or_eq_true, Bool.and_eq_true, decide_eq_true_eq]
    omega
  · rw [decide_eq_false h, if_neg h]
    simp only [Bool.or_eq_false_iff, Bool.and_eq_false_iff, decide_eq_false_iff_not]
    omega

/-- A write of SDS_CTL that gives `refused` no 1 reaches the die that holds the lane, and acts there. -/
theorem poke_sds {s : State} (hv : v < 2 ^ 32) (hr : bitsAt v 21 1 = 0) (ho : LaneOpen s ln) : s.poke (sdsBase ln) v =
    laneWrite s ln v (fun u => (untouched (SDS_CTL.refused ln) u).writeSdsCtl ln v) := by
  obtain ⟨hlo, hhi, hoff, -⟩ := sdsBase_bounds hl
  have hok : accessOk (sdsBase ln) 4 = true := accessOk_four (by omega) (by omega)
  have hmsix : isMsix (sdsBase ln) = false := by
    simp only [isMsix, Bool.and_eq_false_iff, decide_eq_false_iff_not]; omega
  have hclear : ∀ u : State, u.clearOnes .bar0 v (sdsFields ln) = untouched (SDS_CTL.refused ln) u := fun u =>
    (congrArg (fun x => u.wr (SDS_CTL.refused ln) (Nat.land (u.rd (SDS_CTL.refused ln)) (Nat.xor (2 ^ 1 - 1) x))) hr).trans
      (u.wr_clearNone (SDS_CTL.refused ln))
  unfold LaneOpen at ho
  unfold laneWrite
  by_cases h : ln < 128
  · rw [if_pos h] at ho ⊢
    exact State.poke_fd ho hok ((isFdAddr_sds hl).trans (decide_eq_true h)) hmsix (regAt_sds hl) hv (hclear _) (hook_sds hl _)
  · rw [if_neg h] at ho ⊢
    exact State.poke_open ho hok ((isFdAddr_sds hl).trans (decide_eq_false h)) hmsix (by omega) (regAt_sds hl) hv (hclear _) (hook_sds hl _)

/-- A count of PRBS errors leaves what a register access needs. -/
theorem prbsCounted_open {s : State} (errs : Nat) (ho : LaneOpen s ln) : LaneOpen (prbsCounted s ln errs) ln := by
  obtain ⟨hlo, hhi, -⟩ := sdsBase_bounds hl
  have haddr : 0x480000 ≤ (SDS_PRBSERR.count ln).addr := by
    show 0x480000 ≤ sdsBase ln + 0x118
    omega
  have hkeep : ∀ n, LaneOpen (s.addSat (SDS_PRBSERR.count ln) n) ln := fun n => by
    unfold LaneOpen at ho ⊢
    by_cases h : ln < 128
    · rw [if_pos h] at ho ⊢
      exact fdOpen_count (f := SDS_PRBSERR.count ln) rfl haddr ho
    · rw [if_neg h] at ho ⊢
      exact open_count (f := SDS_PRBSERR.count ln) rfl haddr ho
  unfold prbsCounted
  split
  · exact hkeep errs
  · exact ho

theorem exec_laneStateRequest {s : State} (errs : Nat) (hv : v < 2 ^ 32) (hr : bitsAt v 21 1 = 0) (ho : LaneOpen s ln) :
    exec (.laneStateRequest ln v errs) s =
      .next (laneWrite (prbsCounted s ln errs) ln v (fun u => (untouched (SDS_CTL.refused ln) u).writeSdsCtl ln v)) := by
  show execLaneStateRequest ln v errs s = _
  rw [execLaneStateRequest, if_neg (by omega)]
  exact congrArg Host.Outcome.next (poke_sds hl hv hr (prbsCounted_open hl errs ho))

end SdsWrites

section SdsEffect
variable {s : State} {ln v : Nat}

theorem writeSdsCtl_refused (hs : s.laneServes ln = true) (h0 : bitsAt v 22 2 ≠ 0) (h3 : bitsAt v 22 2 ≠ 3) :
    s.writeSdsCtl ln v = s.wr (SDS_CTL.refused ln) 1 := by
  unfold State.writeSdsCtl
  simp only [if_neg h3]
  exact if_pos ⟨h0, hs⟩

/-- The fields, but state, that a write of SDS_CTL can write. -/
def sdsRestFields (ln : Nat) : List Fld :=
  [SDS_CTL.tx_invert ln, SDS_CTL.rx_pol_auto ln, SDS_CTL.rx_invert ln, SDS_CTL.prbs ln, SDS_CTL.refused ln, SDS_STAT.rx_inverted ln]

theorem outside_sdsRest (ln : Nat) : Outside (sdsRestFields ln) (SDS_STAT.state ln).key := by
  simp only [Outside, sdsRestFields, List.forall_mem_cons]
  refine ⟨?_, ?_, ?_, ?_, ?_, ?_, fun f hf => absurd hf List.not_mem_nil⟩ <;> exact Fld.key_ne rfl

/-- The part of a write of SDS_CTL that is not refused and that acts on every lane. -/
def State.sdsStored (s : State) (ln v : Nat) : State :=
  let u := (((s.wrBit (SDS_CTL.tx_invert ln) (bitOf v 26)).wrBit (SDS_CTL.rx_pol_auto ln) (bitOf v 25)).wrBit (SDS_CTL.rx_invert ln)
    (bitOf v 24)).wr (SDS_CTL.prbs ln) (if bitsAt v 22 2 = 3 then s.rd (SDS_CTL.prbs ln) else bitsAt v 22 2)
  if bitOf v 25 then u else (u.wrBit (SDS_STAT.rx_inverted ln) (bitOf v 24)).setLane ln { u.lane ln with polKept := false }

/-- The part that acts on a lane that no enabled port or link holds. -/
def State.sdsAsked (s : State) (ln v : Nat) : State :=
  let u := if bitsAt v 27 3 ≤ 4 ∧ (ln < 128 ∨ 3 ≤ bitsAt v 27 3) then s.laneRateTo ln (bitsAt v 27 3) else s
  if bitsAt v 30 2 = 3 then u else (u.wr (SDS_CTL.req ln) (bitsAt v 30 2)).laneTo ln (bitsAt v 30 2)

theorem writeSdsCtl_eq (s : State) (ln v : Nat) : s.writeSdsCtl ln v =
    if (if bitsAt v 22 2 = 3 then s.rd (SDS_CTL.prbs ln) else bitsAt v 22 2) ≠ 0 ∧ s.laneServes ln = true then s.wr (SDS_CTL.refused ln) 1
    else if s.laneBusy ln = true then s.sdsStored ln v else (s.sdsStored ln v).sdsAsked ln v := rfl

theorem sdsStored_keeps (s : State) (ln v : Nat) : KeepsFields (Outside (sdsRestFields ln)) s (s.sdsStored ln v) := by
  have hwrites : ∀ n : Nat, KeepsFields (Outside (sdsRestFields ln)) s
      ((((s.wrBit (SDS_CTL.tx_invert ln) (bitOf v 26)).wrBit (SDS_CTL.rx_pol_auto ln) (bitOf v 25)).wrBit (SDS_CTL.rx_invert ln)
        (bitOf v 24)).wr (SDS_CTL.prbs ln) n) := fun n => by
    refine .wr (.wr (.wr (.wr (.refl _ s) ?_ _) ?_ _) ?_ _) ?_ n <;> exact not_outside (by simp [sdsRestFields])
  unfold State.sdsStored
  exact .ite (hwrites _) (.trans (.wr (hwrites _) (not_outside (by simp [sdsRestFields])) _) (setLane_keeps ..))

/-- A lane of an enabled port or link keeps its state. -/
theorem writeSdsCtl_busy (hb : s.laneBusy ln = true) : (s.writeSdsCtl ln v).rd (SDS_STAT.state ln) = s.rd (SDS_STAT.state ln) := by
  rw [writeSdsCtl_eq, if_pos hb]
  refine (KeepsFields.ite (.wr (.refl _ s) (not_outside ?_) 1) (sdsStored_keeps s ln v)).rd _ (outside_sdsRest ln)
  simp [sdsRestFields]

/-- Any other lane follows req. -/
theorem writeSdsCtl_free (h : s.regsOk = true) (hb : s.laneBusy ln = false) (hs : s.laneServes ln = false) (h3 : bitsAt v 30 2 ≠ 3) :
    (s.writeSdsCtl ln v).rd (SDS_STAT.state ln) = bitsAt v 30 2 := by
  have hstored := (sdsStored_keeps s ln v).regsOk h
  have hrate : ∀ u : State, u.regsOk = true →
      (if bitsAt v 27 3 ≤ 4 ∧ (ln < 128 ∨ 3 ≤ bitsAt v 27 3) then u.laneRateTo ln (bitsAt v 27 3) else u).regsOk = true := fun u hu =>
    (KeepsFields.ite (laneRateTo_keeps u ln _) (.refl _ u)).regsOk hu
  rw [writeSdsCtl_eq, if_neg (by simp [hs]), if_neg (by simp [hb]), State.sdsAsked]
  rw [if_neg h3]
  exact laneTo_state _ ln (.inl (State.wr_regsOk (hrate _ hstored) _ _)) (Nat.mod_lt _ (by decide))

end SdsEffect

end Sys2Proof.Machine
end

section
namespace Sys2Proof
open Machine Claims

/-- Settles O48: the register accesses by what a poke of LPT_CFG and SDS_CTL does, the lanes of a port by what one lane's change of state
leaves of another, and the commands by the branch that their condition takes. -/
theorem portsAndLanes : Obligations.PortsAndLanes := by
  unfold Obligations.PortsAndLanes
  refine ⟨fun s p v ho hp hv hr => ⟨exec_portEnable hp hv hr ho, exec_portDisable hp hv hr ho⟩,
    fun s p v hp => ⟨writeLptCfg_keeps_enabled, writeLptCfg_off, fun he hw hok => ?refused, fun hr he hw hok => ?enabled⟩,
    fun s p _ _ => portOff_idle s p, fun _ _ => cutFrame_cut,
    fun s p temp got order hp _ _ h1 hlo hhi hlos hlol ho => bringupStep_completes hp h1 hlo hhi hlos hlol ho,
    fun s p late hp h1 hlo hhi hpast hlos =>
      ⟨exec_bringupTimeout_fast hp h1 hlo hhi hpast hlos, exec_bringupTimeout_back hp h1 hlo hhi hpast hlos⟩,
    fun s p n hp hn => ⟨exec_upDebounceExpire hp hn, exec_faultPendingExpire hp hn⟩,
    fun s ln p => exec_polaritySearchSwitch,
    fun s ln mv lock ppm temp hl => ⟨exec_lossOfSignalSet hl temp, exec_lossOfLockSet hl temp, exec_lossOfSignalClear hl temp,
      exec_lossOfLockClear hl temp, freeze_stored temp⟩,
    fun s ln v errs ho hl hv hr => exec_laneStateRequest hl errs hv hr ho,
    fun s ln v hr _ => ⟨writeSdsCtl_refused, writeSdsCtl_busy, writeSdsCtl_free hr⟩⟩
  case refused => rw [writeLptCfg_on he hw, if_neg (Bool.eq_false_iff.mp hok)]
  case enabled =>
    rw [writeLptCfg_on he hw, if_pos hok]
    exact portOn_enabled hp hr hok

end Sys2Proof
end

section
/-! SUPPORT. Fabric links: writes of FLK_CTL (R470, R471), the lanes of a link, marker alignment (R445 to R447), and which register fields a link's
taking up of a change leaves. -/
namespace Sys2Proof.Machine
open Sys2Proof.Claims

/-! ### FLK_CTL over BAR0 (R470, R471) -/

/-- The byte address of FLK_CTL of a link (*BAR0 map*), and its fields. -/
def flkAddr (l : Nat) : Nat := 0x500000 + 0x1000 * l
def flkFields (l : Nat) : List FldAcc :=
  [⟨FLK_CTL.enable l, .rws, []⟩, ⟨FLK_CTL.mode l, .rws, []⟩, ⟨FLK_CTL.standby l, .rws, []⟩, ⟨FLK_CTL.tx_reverse l, .rws, []⟩,
   ⟨FLK_CTL.force_rdi l, .rw, []⟩, ⟨FLK_CTL.psr_tx l, .rw, []⟩, ⟨FLK_CTL.plane l, .rws, []⟩]

section FlkWrites
variable {l v : Nat} (hl : l < 48)
include hl

theorem flkAddr_bounds : 0x500000 ≤ flkAddr l ∧ flkAddr l < 0x530000 ∧ flkAddr l % 0x1000 = 0 ∧ (flkAddr l - 0x500000) / 0x1000 = l := by
  unfold flkAddr
  omega

theorem regAt_flk : regAt (flkAddr l) = .word (flkFields l) := by
  obtain ⟨hlo, hhi, hoff, hlink⟩ := flkAddr_bounds hl
  have hreg : regAt (flkAddr l) = regsFLK l 0 := by simp (disch := omega) only [regAt, if_neg, if_pos, hlink, hoff]
  exact hreg.trans rfl

theorem hook_flk (s : State) : s.hook .bar0 (flkAddr l) (2 ^ 32 - 1) v v = some (s.writeFlkCtl l v) := by
  obtain ⟨hlo, hhi, hoff, hlink⟩ := flkAddr_bounds hl
  unfold State.hook State.hookLines
  rw [if_neg (by omega), if_neg (by omega), if_neg (by omega), if_neg (by omega), if_neg (by omega), if_neg (by omega), if_neg (by omega),
    if_pos ⟨hlo, hhi⟩, if_pos hoff, hlink]

/-- A write of FLK_CTL acts at once. -/
theorem poke_flk {s : State} (ho : Open s) (v : Nat) : s.poke (flkAddr l) v = s.writeFlkCtl l (v % 2 ^ 32) := by
  obtain ⟨hlo, hhi, hoff, -⟩ := flkAddr_bounds hl
  have hfd : isFdAddr (flkAddr l) = false := by
    simp only [isFdAddr, Bool.or_eq_false_iff, Bool.and_eq_false_iff, decide_eq_false_iff_not]; omega
  have hmsix : isMsix (flkAddr l) = false := by
    simp only [isMsix, Bool.and_eq_false_iff, decide_eq_false_iff_not]; omega
  have hmod : s.poke (flkAddr l) v = s.poke (flkAddr l) (v % 2 ^ 32) := by unfold State.poke; rw [Nat.mod_mod]
  rw [hmod]
  exact State.poke_open ho (accessOk_four (by omega) (by omega)) hfd hmsix (by omega) (regAt_flk hl) (Nat.mod_lt _ (by decide)) rfl
    (hook_flk hl s)

theorem exec_linkEnable {s : State} (ho : Open s) (hv : v < 2 ^ 32) : exec (.linkEnable l v) s = .next (s.writeFlkCtl l (putBits v 31 1 1)) := by
  show Host.Outcome.next (if l < 48 then s.poke (flkAddr l) (putBits (v % 2 ^ 32) 31 1 1) else s) = _
  rw [if_pos hl, Nat.mod_eq_of_lt hv, poke_flk hl ho, Nat.mod_eq_of_lt (putTop_lt hv 1)]

theorem exec_linkDisable {s : State} (ho : Open s) (hv : v < 2 ^ 32) : exec (.linkDisable l v) s = .next (s.writeFlkCtl l (putBits v 31 1 0)) := by
  show Host.Outcome.next (if l < 48 then s.poke (flkAddr l) (putBits (v % 2 ^ 32) 31 1 0) else s) = _
  rw [if_pos hl, Nat.mod_eq_of_lt hv, poke_flk hl ho, Nat.mod_eq_of_lt (putTop_lt hv 0)]

theorem exec_linkStandby {s : State} (ho : Open s) (on : Bool) : exec (.linkStandby l on) s =
    .next (s.writeFlkCtl l (putBits (s.live .bar0 (flkAddr l)) 29 1 (b2n on) % 2 ^ 32)) := by
  show Host.Outcome.next (if l < 48 then s.poke (flkAddr l) (putBits (s.live .bar0 (flkAddr l)) 29 1 (b2n on)) else s) = _
  rw [if_pos hl, poke_flk hl ho]

end FlkWrites

/-- R470: a write that would change the mode or the order of an enabled link changes nothing. -/
theorem writeFlkCtl_kept {s : State} {l v : Nat} (he : s.bit (FLK_CTL.enable l) = true) (hon : bitOf v 31 = true)
    (h : bitOf v 30 ≠ s.bit (FLK_CTL.mode l) ∨ bitOf v 28 ≠ s.bit (FLK_CTL.tx_reverse l)) : s.writeFlkCtl l v = s := by
  refine if_pos ?_
  simp only [he, hon, Bool.true_and, Bool.or_eq_true, bne_iff_ne]
  exact h

/-! ### The lanes of a link -/

theorem mem_linkLanes {l ln : Nat} (hl : l < 48) (h : ln ∈ linkLanes l) : ln < 320 := by
  simp only [linkLanes, List.mem_cons, List.not_mem_nil, or_false] at h
  omega

/-- A field above the blocks of the lanes is none of theirs. -/
theorem outside_lanes_above {ln : Nat} (hln : ln < 320) {f : Fld} (hf : 0x500000 ≤ f.addr) : Outside (laneFields ln) f.key := by
  intro g hg
  obtain ⟨-, hhi, hlo⟩ := laneFields_onLane ln g hg
  have hbase : sdsBase ln < 0x4F0000 := by unfold sdsBase; split <;> omega
  unfold Fld.key
  omega

theorem linkLanesTo_each {s : State} {l st : Nat} (hr : s.regsOk = true) (hl : l < 48) (hst : st < 4) : ∀ ln ∈ linkLanes l,
    (s.linkLanesTo l st).rd (SDS_STAT.state ln) = st ∧
    (s.linkLanesTo l st).rd (SDS_CTL.rate ln) = (if s.bit (FLK_CTL.mode l) then 3 else 4) := by
  unfold State.linkLanesTo
  refine foldl_each (I := fun t => t.regsOk = true ∧ t.bit (FLK_CTL.mode l) = s.bit (FLK_CTL.mode l))
    (P := fun ln t => t.rd (SDS_STAT.state ln) = st ∧ t.rd (SDS_CTL.rate ln) = if s.bit (FLK_CTL.mode l) then 3 else 4)
    (fun t ln hln ⟨ht, hm⟩ => ?_) (fun t ln _ ⟨ht, hm⟩ => ?_) (fun t ln _ j hne ht => ?_) ⟨hr, rfl⟩
  · have hk := laneEnter_keeps t ln st (if t.bit (FLK_CTL.mode l) then 3 else 4)
    refine ⟨hk.regsOk ht, (State.bit_congr (hk.rd _ ?_)).trans hm⟩
    exact outside_lanes_above (mem_linkLanes hl hln) (Nat.le_add_right ..)
  · rw [hm]
    exact laneEnter t ln ht hst (by split <;> decide)
  · have hk := laneEnter_keeps t ln st (if t.bit (FLK_CTL.mode l) then 3 else 4)
    exact ⟨(hk.rd _ (outside_otherLane (state_onLane j) hne.symm)).trans ht.1, (hk.rd _ (outside_otherLane (rate_onLane j) hne.symm)).trans ht.2⟩

/-! ### What a link's taking up of a change leaves -/

/-- The fields that a link's taking up of a change can write. -/
def linkFields (l : Nat) : List Fld :=
  [FLK_STAT.frame l, FLK_STAT.aligned l, FLK_STAT.los l, FLK_STAT.loa l, FLK_STAT.lof l, FLK_OOF.count l, FLK_REASMDROP.count l,
   HIF_EVLOST.count 0xB]

section Link
variable (s : State) (l : Nat)

theorem setFlink_keepsFields (K : Nat → Prop) (x : FLink) : KeepsFields K s (s.setFlink l x) := (KeepsFields.refl K s).ofRegs rfl

theorem dropPartials_leaves : KeepsFields (Outside (linkFields l)) s (s.dropPartials l) := by
  unfold State.dropPartials
  exact ((KeepsFields.refl _ s).wr (not_outside (by simp [linkFields])) _).ofRegs rfl

theorem loseFrame_leaves : KeepsFields (Outside (linkFields l)) s (s.loseFrame l) := by
  have hsearch : ∀ x, KeepsFields (Outside (linkFields l)) s ((s.wr (FLK_STAT.frame l) 0).setFlink l x) := fun x =>
    .trans (.wr (.refl _ s) (not_outside (by simp [linkFields])) 0) (setFlink_keepsFields ..)
  unfold State.loseFrame
  exact .ite (.trans (.wr (hsearch _) (not_outside (by simp [linkFields])) _) (dropPartials_leaves ..)) (hsearch _)

theorem alignTouch_leaves : KeepsFields (Outside (linkFields l)) s (s.alignTouch l) := by
  unfold State.alignTouch
  exact .wr (.ite (loseFrame_leaves ..) (.refl _ s)) (not_outside (by simp [linkFields])) _

theorem defectBit_mem (d : Nat) : defectBit l d ∈ linkFields l := by
  unfold defectBit
  split_ifs <;> simp [linkFields]

theorem setDefect_leaves (d : Nat) (on : Bool) : KeepsFields (Outside (linkFields l)) s (s.setDefect l d on) :=
  .post (.wr (.refl _ s) (not_outside (defectBit_mem l d)) _) (not_outside (by simp [linkFields])) _

theorem suppress_leaves (d : Nat) : KeepsFields (Outside (linkFields l)) s (s.suppress l d) := by
  unfold State.suppress
  exact .ite (setDefect_leaves ..) (.refl _ s)

theorem linkTouch_leaves : KeepsFields (Outside (linkFields l)) s (s.linkTouch l) := by
  unfold State.linkTouch
  refine .foldl _ (fun d _ t ht => ht.trans (setFlink_keepsFields ..)) ?_
  exact (alignTouch_leaves ..).trans ((suppress_leaves ..).trans (suppress_leaves ..))

end Link

/-- A field of a lane is none that the lane's link can write. -/
theorem outside_link_onLane {ln : Nat} {f : Fld} (hf : OnLane (128 + ln) f) : Outside (linkFields (ln / 4)) f.key := by
  obtain ⟨hlo, hhi, hbit⟩ := hf
  have hbase : sdsBase (128 + ln) = 0x4C0000 + 0x400 * ln := by simp [sdsBase]
  have hne : ∀ g ∈ linkFields (ln / 4), (0x500000 + 0x1000 * (ln / 4) ≤ g.addr ∨ g.addr + 1 ≤ 0x4C0000) ∧ g.lo < 64 := by
    simp [linkFields, FLK_STAT.frame, FLK_STAT.aligned, FLK_STAT.los, FLK_STAT.loa, FLK_STAT.lof, FLK_OOF.count, FLK_REASMDROP.count,
      HIF_EVLOST.count, Nat.add_assoc]
  intro g hg
  have := hne g hg
  unfold Fld.key
  omega

theorem portOfLane_lt {s : State} {ln p : Nat} (h : s.portOfLane ln = some p) : p < 128 :=
  List.mem_range.mp (List.mem_of_find?_eq_some h)

theorem outside_port_onLane {ln p : Nat} {f : Fld} (hp : p < 128) (hf : OnLane ln f) : Outside (portFields p) f.key := by
  refine List.forall_mem_cons.mpr ⟨(hf.ne_below ?_).symm, List.forall_mem_cons.mpr ⟨(hf.ne_below (by decide)).symm, ?_⟩⟩
  · simp only [LPT_STAT.state]; omega
  · exact outside_portStat_above hp hf.high

/-- A lane's port or link takes up its change without a write of the lane's own fields. -/
theorem laneTouch_onLane {s : State} {ln : Nat} {f : Fld} (hf : OnLane ln f) : (s.laneTouch ln).rd f = s.rd f := by
  unfold State.laneTouch
  by_cases h : ln < 128
  · rw [if_pos h]
    split
    next p hp => exact (portTouch_keeps s p).rd f (outside_port_onLane (portOfLane_lt hp) hf)
    next => rfl
  · rw [if_neg h]
    obtain ⟨k, rfl⟩ : ∃ k, ln = 128 + k := ⟨ln - 128, by omega⟩
    rw [Nat.add_sub_cancel_left]
    exact (linkTouch_leaves s (k / 4)).rd f (outside_link_onLane hf)

/-! ### LANE_MARKER (R442, R444, R446, R447, R450) -/

theorem exec_laneMarker {s : State} {f : Nat} (seen inv : Bool) (dist lane laneN cw seq bip eye : Nat) (hf : f < 192)
    (hs : s.rd (SDS_STAT.state (128 + f)) = 2) : exec (.laneMarker f seen inv dist lane laneN cw seq bip eye) s =
    .next (((s.adaptLate (128 + f)).setLaneEye (128 + f) eye).markerAt (128 + f) ⟨seen, inv, dist, lane, laneN, cw, seq, bip⟩) :=
  if_neg (by omega)

/-- What the comma at a lane's place says of the marker there. -/
def goodMarker (m : Sight) : Bool := m.seen && decide (m.laneN = 255 - m.lane % 256)

theorem goodMarker_false {m : Sight} (h : m.seen = false ∨ m.laneN ≠ 255 - m.lane % 256) : goodMarker m = false := by
  unfold goodMarker
  rcases h with h | h <;> simp [h]

theorem goodMarker_true {m : Sight} (h : m.seen = true) (h' : m.laneN = 255 - m.lane % 256) : goodMarker m = true := by
  simp [goodMarker, h, h']

section Marker
variable {s : State} {ln : Nat} {m : Sight}

theorem markerAt_hunt (h : s.rd (SDS_STAT.align ln) = 0) : s.markerAt ln m = if m.seen then s.sighting ln m else s := by
  unfold State.markerAt
  rw [h]
  rfl

/-- A lane in VERIFY. -/
theorem markerAt_verify (h : s.rd (SDS_STAT.align ln) = 1) : s.markerAt ln m =
    if m.dist ≠ markerGap (s.lane ln).cw then s
    else if !goodMarker m then (s.setLane ln { s.lane ln with good := 0 }).wr (SDS_STAT.align ln) 0
    else if (s.lane ln).good + 1 < 2 then (s.setLane ln { s.lane ln with good := (s.lane ln).good + 1 }).markGood ln m.lane m.cw m.seq
    else ((s.setLane ln { s.lane ln with good := (s.lane ln).good + 1 }).markGood ln m.lane m.cw m.seq).laneLocked ln := by
  unfold State.markerAt
  rw [h]
  rfl

/-- A LOCKED lane. -/
theorem markerAt_locked (h : s.rd (SDS_STAT.align ln) = 2) : s.markerAt ln m =
    if m.dist ≠ markerGap (s.lane ln).cw then s
    else if goodMarker m then
      (((s.setLane ln { s.lane ln with bad := 0 }).markGood ln m.lane m.cw m.seq).addSat (SDS_BIPERR.count ln) m.bip).laneTouch ln
    else if (s.lane ln).bad + 1 < 4 then
      (s.setLane ln { s.lane ln with bad := (s.lane ln).bad + 1, cw := ((s.lane ln).cw + 16384) % 20 }).inc (SDS_MKRERR.count ln)
    else (((s.setLane ln { s.lane ln with bad := (s.lane ln).bad + 1, cw := ((s.lane ln).cw + 16384) % 20 }).inc (SDS_MKRERR.count ln)).wr
      (SDS_STAT.align ln) 0).laneTouch ln := by
  unfold State.markerAt
  rw [h]
  rfl

/-- R446: a lane meets what stands somewhere else than where its next marker does. -/
theorem markerAt_elsewhere (h : s.rd (SDS_STAT.align ln) = 1 ∨ s.rd (SDS_STAT.align ln) = 2) (hd : m.dist ≠ markerGap (s.lane ln).cw) :
    s.markerAt ln m = s := by
  rcases h with h | h
  · rw [markerAt_verify h, if_pos hd]
  · rw [markerAt_locked h, if_pos hd]

section Place
variable (hd : m.dist = markerGap (s.lane ln).cw)
include hd

theorem markerAt_verify_bad (hbad : m.seen = false ∨ m.laneN ≠ 255 - m.lane % 256) (h : s.rd (SDS_STAT.align ln) = 1) :
    s.markerAt ln m = (s.setLane ln { s.lane ln with good := 0 }).wr (SDS_STAT.align ln) 0 := by
  rw [markerAt_verify h, if_neg (not_not.mpr hd), goodMarker_false hbad]
  rfl

theorem markerAt_locked_bad (hbad : m.seen = false ∨ m.laneN ≠ 255 - m.lane % 256) (h : s.rd (SDS_STAT.align ln) = 2) :
    s.markerAt ln m =
      let t := (s.setLane ln { s.lane ln with bad := (s.lane ln).bad + 1, cw := ((s.lane ln).cw + 16384) % 20 }).inc (SDS_MKRERR.count ln)
      if (s.lane ln).bad + 1 < 4 then t else (t.wr (SDS_STAT.align ln) 0).laneTouch ln := by
  rw [markerAt_locked h, if_neg (not_not.mpr hd), goodMarker_false hbad]
  rfl

theorem markerAt_verify_good (hs : m.seen = true) (hn : m.laneN = 255 - m.lane % 256) (h : s.rd (SDS_STAT.align ln) = 1) :
    s.markerAt ln m =
      let t := (s.setLane ln { s.lane ln with good := (s.lane ln).good + 1 }).markGood ln m.lane m.cw m.seq
      if (s.lane ln).good + 1 < 2 then t else t.laneLocked ln := by
  rw [markerAt_verify h, if_neg (not_not.mpr hd), goodMarker_true hs hn]
  rfl

theorem markerAt_locked_good (hs : m.seen = true) (hn : m.laneN = 255 - m.lane % 256) (h : s.rd (SDS_STAT.align ln) = 2) :
    s.markerAt ln m =
      (((s.setLane ln { s.lane ln with bad := 0 }).markGood ln m.lane m.cw m.seq).addSat (SDS_BIPERR.count ln) m.bip).laneTouch ln := by
  rw [markerAt_locked h, if_neg (not_not.mpr hd), goodMarker_true hs hn]
  rfl

end Place

end Marker

/-- R446, R450: a lane that locks is LOCKED and adapted. -/
theorem laneLocked_locked (s : State) (ln : Nat) :
    (s.laneLocked ln).rd (SDS_STAT.align ln) = 2 ∧ (s.laneLocked ln).rd (SDS_STAT.adapted ln) = 1 := by
  have halign : OnLane ln (SDS_STAT.align ln) := laneFields_onLane ln _ (by simp [laneFields, laneRestFields])
  have hadapted : OnLane ln (SDS_STAT.adapted ln) := laneFields_onLane ln _ (by simp [laneFields, laneRestFields])
  have hread : ∀ f : Fld, OnLane ln f → (s.laneLocked ln).rd f = ((s.wr (SDS_STAT.align ln) 2).wr (SDS_STAT.adapted ln) 1).rd f := fun f hf =>
    (laneTouch_onLane hf).trans ((polKeep_keeps _ ln fun _ => True).rd f trivial)
  rw [hread _ halign, hread _ hadapted]
  refine ⟨(State.rd_wr_ne _ _ (Fld.key_ne rfl)).trans ?_, State.rd_wr_listed _ Nat.one_ne_zero⟩
  exact State.rd_wr_listed (f := SDS_STAT.align ln) (v := 2) s (show 2 % 4 ≠ 0 by decide)


end Sys2Proof.Machine
end

section
/-! SUPPORT. Frames on a fabric link: the scrambler (R474), the overhead cell and the aligner (R476, R477), and lane markers (R445). -/
namespace Sys2Proof.Machine
open Sys2Proof.Claims

/-! ### The scrambler (R474) -/

theorem prbsByte_lt : ∀ (n st b k : Nat), b < 2 ^ k → (prbsByte n st b).1 < 2 ^ (k + n)
  | 0, _, _, _, h => h
  | n + 1, st, b, k, h => by
    have hnext : 2 * b + (st / 2 ^ 30 + st / 2 ^ 27) % 2 < 2 ^ (k + 1) := by omega
    have := prbsByte_lt n ((2 * st + (st / 2 ^ 30 + st / 2 ^ 27) % 2) % 2 ^ 31) _ (k + 1) hnext
    rwa [Nat.add_assoc, Nat.add_comm 1 n] at this

theorem scramble_cons (b : Nat) (r : List Nat) (st : Nat) : scramble (b :: r) st =
    (Nat.xor (b % 256) (prbsByte 8 st 0).1 :: (scramble r (prbsByte 8 st 0).2).1, (scramble r (prbsByte 8 st 0).2).2) := rfl

theorem scramble_length : ∀ (b : List Nat) (st : Nat), (scramble b st).1.length = b.length
  | [], _ => rfl
  | _ :: r, st => congrArg (· + 1) (scramble_length r (prbsByte 8 st 0).2)

/-- A byte scrambled twice with one key byte is the byte. -/
theorem xor_byte_twice {b k : Nat} (hb : b < 256) (hk : k < 256) : Nat.xor (Nat.xor (b % 256) k % 256) k = b := by
  have hx : b ^^^ k < 2 ^ 8 := Nat.xor_lt_two_pow hb hk
  show ((b % 256) ^^^ k) % 2 ^ 8 ^^^ k = b
  rw [Nat.mod_eq_of_lt hb, Nat.mod_eq_of_lt hx, Nat.xor_assoc, Nat.xor_self, Nat.xor_zero]

/-- The state after scrambling does not depend on the bytes, and scrambling twice from one state restores them. -/
theorem scramble_twice : ∀ (b : List Nat) (st : Nat), (∀ x ∈ b, x < 256) →
    (scramble (scramble b st).1 st).1 = b ∧ (scramble (scramble b st).1 st).2 = (scramble b st).2
  | [], _, _ => ⟨rfl, rfl⟩
  | b :: r, st, h => by
    obtain ⟨hbytes, hstate⟩ := scramble_twice r (prbsByte 8 st 0).2 fun x hx => h x (.tail _ hx)
    have hkey : (prbsByte 8 st 0).1 < 256 := prbsByte_lt 8 st 0 0 (by decide)
    rw [scramble_cons b r st]
    simp only [scramble_cons]
    exact ⟨congr (congrArg List.cons (xor_byte_twice (h b (.head _)) hkey)) hbytes, hstate⟩

/-! ### The overhead cell -/

theorem beBytes_length (n v : Nat) : (beBytes n v).length = n := List.length_reverse.trans (leBytes_length n v)

/-- The bytes of a block between others. -/
theorem sliceB_middle {a b c : List Nat} {i n : Nat} (hi : a.length = i) (hn : b.length = n) : sliceB (a ++ b ++ c) i n = b := by
  subst hi hn
  simp [sliceB]

/-- A received overhead cell in clear is the one sent (R474). -/
theorem clearOverhead_scrambled {clear : List Nat} {st : Nat} (hlen : clear.length = 244) (hb : ∀ x ∈ clear, x < 256) (hst : st < 2 ^ 31) :
    clearOverhead (beBytes 8 faw ++ beBytes 4 st ++ (scramble clear st).1) = beBytes 8 faw ++ beBytes 4 st ++ clear := by
  have hhead : (beBytes 8 faw ++ beBytes 4 st).length = 12 := by rw [List.length_append, beBytes_length, beBytes_length]
  have hfirst : sliceB (beBytes 8 faw ++ beBytes 4 st ++ (scramble clear st).1) 0 12 = beBytes 8 faw ++ beBytes 4 st :=
    sliceB_middle (a := []) rfl hhead
  have hseed : beNat (sliceB (beBytes 8 faw ++ beBytes 4 st ++ (scramble clear st).1) 8 4) % 2 ^ 31 = st := by
    rw [sliceB_middle (beBytes_length 8 faw) (beBytes_length 4 st), beNat_beBytes]
    omega
  have hbody : sliceB (beBytes 8 faw ++ beBytes 4 st ++ (scramble clear st).1) 12 244 = (scramble clear st).1 := by
    have := sliceB_middle (c := []) hhead ((scramble_length clear st).trans hlen)
    rwa [List.append_nil] at this
  rw [clearOverhead, hfirst, hseed, hbody, (scramble_twice clear st hb).1]

/-! ### FABRIC_FRAME_RECEIVE (R476, R477) -/

section FrameReceive
variable {s : State} {l : Nat} {raw : List Nat} {bip cor unc : Nat} (hl : l < 48) (hon : s.linkOn l = true)
  (ha : s.bit (FLK_STAT.aligned l) = true)

/-- A link whose codewords of a frame have been counted. -/
def State.fecCounted (s : State) (l cor unc : Nat) : State :=
  s.setFlink l { s.flink l with cor := (s.flink l).cor + cor, unc := (s.flink l).unc + unc }

include hl hon ha

theorem exec_fabricFrameReceive : exec (.fabricFrameReceive l raw bip cor unc) s =
    if (s.fecCounted l cor unc).rd (FLK_STAT.frame l) = 2 then
      if 4 ≤ (if decide (beNat (sliceB (clearOverhead raw) 0 8) = faw) then 0 else (s.flink l).miss + 1) then
        .next (((s.fecCounted l cor unc).loseFrame l).linkTouch l)
      else .next (((s.fecCounted l cor unc).setFlink l { (s.fecCounted l cor unc).flink l with
        miss := if decide (beNat (sliceB (clearOverhead raw) 0 8) = faw) then 0 else (s.flink l).miss + 1 }).takeFrame l (clearOverhead raw) bip)
    else .next (((s.fecCounted l cor unc).hunt l (decide (beNat (sliceB (clearOverhead raw) 0 8) = faw) &&
      crc16 (sliceB (clearOverhead raw) 12 240) == beNat (sliceB (clearOverhead raw) 252 2))).linkTouch l) :=
  if_neg (by simp [hl, hon, ha])

theorem exec_fabricFrameReceive_hit (h2 : (s.fecCounted l cor unc).rd (FLK_STAT.frame l) = 2)
    (hf : beNat (sliceB (clearOverhead raw) 0 8) = faw) : exec (.fabricFrameReceive l raw bip cor unc) s =
    .next (((s.fecCounted l cor unc).setFlink l { (s.fecCounted l cor unc).flink l with miss := 0 }).takeFrame l (clearOverhead raw) bip) := by
  rw [exec_fabricFrameReceive hl hon ha, if_pos h2, decide_eq_true hf]
  rfl

theorem exec_fabricFrameReceive_lost (h2 : (s.fecCounted l cor unc).rd (FLK_STAT.frame l) = 2)
    (hf : beNat (sliceB (clearOverhead raw) 0 8) ≠ faw) (h3 : 3 ≤ (s.flink l).miss) : exec (.fabricFrameReceive l raw bip cor unc) s =
    .next (((s.fecCounted l cor unc).loseFrame l).linkTouch l) := by
  rw [exec_fabricFrameReceive hl hon ha, if_pos h2, decide_eq_false hf]
  exact if_pos (Nat.succ_le_succ h3)

theorem exec_fabricFrameReceive_seen (h2 : (s.fecCounted l cor unc).rd (FLK_STAT.frame l) ≠ 2)
    (hf : beNat (sliceB (clearOverhead raw) 0 8) = faw)
    (hcrc : crc16 (sliceB (clearOverhead raw) 12 240) = beNat (sliceB (clearOverhead raw) 252 2)) :
    exec (.fabricFrameReceive l raw bip cor unc) s = .next (((s.fecCounted l cor unc).hunt l true).linkTouch l) := by
  rw [exec_fabricFrameReceive hl hon ha, if_neg h2, decide_eq_true hf, hcrc, beq_self_eq_true]
  rfl

end FrameReceive

/-- R477: the second repeat of a sighting brings IN_FRAME. -/
theorem hunt_third {s : State} {l : Nat} (h : (s.flink l).seen = 2) : (s.hunt l true).rd (FLK_STAT.frame l) = 2 := by
  have hthird : s.hunt l true = ((s.wr (FLK_STAT.frame l) 2).wr (FLK_STAT.psr_rx l) 0).setFlink l
      { s.flink l with seen := 0, miss := 0, psr := none, rdi := none } := if_neg (by rw [h]; decide)
  have hread : ((s.wr (FLK_STAT.frame l) 2).wr (FLK_STAT.psr_rx l) 0).rd (FLK_STAT.frame l) = (s.wr (FLK_STAT.frame l) 2).rd (FLK_STAT.frame l) :=
    State.rd_wr_ne _ _ (Fld.key_ne rfl)
  rw [hthird]
  exact hread.trans (State.rd_wr_listed (f := FLK_STAT.frame l) (v := 2) s (show 2 % 4 ≠ 0 by decide))

/-! ### Lane markers (R445) -/

theorem revBits_lt : ∀ n v : Nat, revBits n v < 2 ^ n
  | 0, _ => Nat.one_pos
  | n + 1, v => by
    have hrest := revBits_lt n (v / 2)
    have hbit : v % 2 * 2 ^ n ≤ 1 * 2 ^ n := Nat.mul_le_mul_right _ (by omega)
    show v % 2 * 2 ^ n + revBits n (v / 2) < 2 ^ (n + 1)
    omega

theorem prbs9_lt : ∀ n st : Nat, prbs9 n st < 2 ^ n
  | 0, _ => Nat.one_pos
  | n + 1, st => by
    have hrest := prbs9_lt n ((2 * st + (st / 2 ^ 8 + st / 2 ^ 4) % 2) % 2 ^ 9)
    show st / 2 ^ 8 % 2 + 2 * prbs9 n ((2 * st + (st / 2 ^ 8 + st / 2 ^ 4) % 2) % 2 ^ 9) < 2 ^ (n + 1)
    omega

section Layout
variable {x w : Nat} (hx : x < 2 ^ w) (r : Nat)
include hx

/-- A field laid below others, and those above it. -/
theorem bitsAt_lowest : bitsAt (x + 2 ^ w * r) 0 w = x := by
  rw [bitsAt, pow_zero, Nat.div_one, Nat.add_mul_mod_self_left, Nat.mod_eq_of_lt hx]

theorem bitsAt_above (i n : Nat) : bitsAt (x + 2 ^ w * r) (w + i) n = bitsAt r i n := by
  rw [bitsAt, pow_add, ← Nat.div_div_eq_div_mul, Nat.add_mul_div_left _ _ (Nat.two_pow_pos w), Nat.div_eq_of_lt hx, Nat.zero_add, bitsAt]

theorem layout_lt {n : Nat} (hr : r < 2 ^ n) : x + 2 ^ w * r < 2 ^ (w + n) := by
  calc x + 2 ^ w * r < 2 ^ w + 2 ^ w * r := Nat.add_lt_add_right hx _
    _ = 2 ^ w * (r + 1) := by rw [Nat.mul_succ, Nat.add_comm]
    _ ≤ 2 ^ (w + n) := by rw [pow_add]; exact Nat.mul_le_mul_left _ hr

end Layout

section Marker
variable {lane cw seq bip : Nat} (hlane : lane < 4) (hcw : cw < 20) (hseq : seq < 2 ^ 16) (hbip : bip < 256)
include hlane hcw hseq hbip

/-- A lane marker as its fields laid one above another. -/
theorem laneMarkerBits_layout : ∃ comma pad, comma < 2 ^ 65 ∧ pad < 2 ^ 145 ∧ laneMarkerBits lane cw seq bip =
    comma + 2 ^ 65 * (lane + 2 ^ 8 * (255 - lane + 2 ^ 8 * (cw + 2 ^ 7 * (seq + 2 ^ 16 * (bip + 2 ^ 8 * pad))))) := by
  have hcomma := revBits_lt 64 0x9C3B52E7A10F6D48
  have hpad := prbs9_lt 145 511
  unfold laneMarkerBits
  generalize revBits 64 0x9C3B52E7A10F6D48 = comma at hcomma ⊢
  generalize prbs9 145 511 = pad at hpad ⊢
  refine ⟨2 * comma, pad, by omega, hpad, ?_⟩
  rw [Nat.mod_eq_of_lt hlane, Nat.mod_eq_of_lt hcw, Nat.mod_eq_of_lt hseq, Nat.mod_eq_of_lt hbip]
  ring

/-- The fields of a lane marker stand at their places. -/
theorem laneMarkerBits_fields : let v := laneMarkerBits lane cw seq bip
    v < 2 ^ 257 ∧ bitsAt v 65 8 = lane ∧ bitsAt v 73 8 = 255 - lane ∧ bitsAt v 81 7 = cw ∧ bitsAt v 88 16 = seq ∧ bitsAt v 104 8 = bip := by
  obtain ⟨comma, pad, hcomma, hpad, hlay⟩ := laneMarkerBits_layout hlane hcw hseq hbip
  rw [hlay]
  have h8 : lane < 2 ^ 8 := by omega
  have hn : 255 - lane < 2 ^ 8 := by omega
  have h7 : cw < 2 ^ 7 := by omega
  have hbits : 65 + (8 + (8 + (7 + (16 + (8 + 145))))) = 257 := rfl
  refine ⟨hbits ▸ layout_lt hcomma _ (layout_lt h8 _ (layout_lt hn _ (layout_lt h7 _ (layout_lt hseq _ (layout_lt hbip _ hpad))))),
    ?_, ?_, ?_, ?_, ?_⟩
  · exact (bitsAt_above hcomma _ 0 8).trans (bitsAt_lowest h8 _)
  · exact (bitsAt_above hcomma _ 8 8).trans ((bitsAt_above h8 _ 0 8).trans (bitsAt_lowest hn _))
  · exact (bitsAt_above hcomma _ 16 7).trans ((bitsAt_above h8 _ 8 7).trans ((bitsAt_above hn _ 0 7).trans (bitsAt_lowest h7 _)))
  · exact (bitsAt_above hcomma _ 23 16).trans ((bitsAt_above h8 _ 15 16).trans ((bitsAt_above hn _ 7 16).trans ((bitsAt_above h7 _ 0 16).trans
      (bitsAt_lowest hseq _))))
  · exact (bitsAt_above hcomma _ 39 8).trans ((bitsAt_above h8 _ 31 8).trans ((bitsAt_above hn _ 23 8).trans ((bitsAt_above h7 _ 16 8).trans
      ((bitsAt_above hseq _ 0 8).trans (bitsAt_lowest hbip _)))))

end Marker

end Sys2Proof.Machine
end

section
/-! SUPPORT. Fabric cells and records (R475, R479, R482 to R484), frames sent (R445, R475, R487), defects (R492), and the second (R495). -/
namespace Sys2Proof.Machine
open Sys2Proof.Claims

theorem State.flink_setFlink {s : State} (h : Tbl.risingFrom 0 s.flk.links = true) (l : Nat) (x : FLink) : (s.setFlink l x).flink l = x :=
  Tbl.get_set_self _ h _ _

/-! ### FABRIC_CELL_RECEIVE (R479, R480, R482 to R484) -/

section CellReceive
variable {s : State} {l : Nat} {cell : List Nat} (hl : l < 48) (hf : s.inFrame l = true)
include hl hf

theorem exec_fabricCellReceive_whole : exec (.fabricCellReceive l cell none) s =
    if crc16 (sliceB cell 0 14) ≠ beNat (sliceB cell 0 16) % 2 ^ 16 ∨ 2 < bitsAt (beNat (sliceB cell 0 16)) 125 3 then .next (s.inc (FLK_HDRERR.count l))
    else if bitsAt (beNat (sliceB cell 0 16)) 125 3 = 0 then .next (s.setFlink l { s.flink l with idle := (s.flink l).idle + 1 })
    else .next (s.takeCell_ l cell) :=
  if_neg (by simp [hl, hf])

/-- R479: a cell that an overflow of a lane's crossing cuts. -/
theorem exec_fabricCellReceive_cut {g : Nat} (hg : g / 4 = l) : exec (.fabricCellReceive l cell (some g)) s =
    .next (((s.inc (D2D_XOVFF.count g)).post 0x0007 ([1, 0] ++ leBytes 2 g)).inc (FLK_HDRERR.count l)) := by
  have hcut : exec (.fabricCellReceive l cell (some g)) s =
      .next (if g / 4 = l then ((s.inc (D2D_XOVFF.count g)).post 0x0007 ([1, 0] ++ leBytes 2 g)).inc (FLK_HDRERR.count l) else s) :=
    if_neg (by simp [hl, hf])
  rw [hcut, if_pos hg]

theorem exec_fabricCellReceive_good (hcrc : crc16 (sliceB cell 0 14) = beNat (sliceB cell 0 16) % 2 ^ 16)
    (ht : bitsAt (beNat (sliceB cell 0 16)) 125 3 = 1) : exec (.fabricCellReceive l cell none) s = .next (s.takeCell_ l cell) := by
  rw [exec_fabricCellReceive_whole hl hf, if_neg (by omega), if_neg (by omega)]

end CellReceive

/-- R482: a unicast cell for another device. -/
theorem takeCell_misrouted {s : State} {l : Nat} {cell : List Nat} (ht : bitsAt (beNat (sliceB cell 0 16)) 125 3 = 1)
    (hd : bitsAt (beNat (sliceB cell 0 16)) 111 11 ≠ s.rd QM_CFG.dev_id) :
    s.takeCell_ l cell = (s.inc (FLK_RXCELL.count l)).inc (FLK_MISROUTE.count l) := by
  have hkeep : (s.inc (FLK_RXCELL.count l)).rd QM_CFG.dev_id = s.rd QM_CFG.dev_id := s.rd_wr_ne _ (by
    simp only [Fld.key, QM_CFG.dev_id, FLK_RXCELL.count]; omega)
  exact if_pos ⟨by rw [ht]; rfl, by rw [hkeep]; exact hd⟩

/-! ### Records (R482, R484) -/

/-- R482: a record split over cells is delivered whole once its last byte arrives. -/
theorem takeCont_whole {s : State} {h : CellHead} {cont : List Nat} (hr : Tbl.risingFrom 0 s.flk.recs = true) (hu : h.ucast = false)
    (hp : (Tbl.get {} s.flk.ctxs h.key).part ≠ []) (hc : cont ≠ []) (hlen : cont.length = (Tbl.get {} s.flk.ctxs h.key).owed) :
    Tbl.get [] (s.takeCont h cont).flk.recs h.link =
      Tbl.get [] s.flk.recs h.link ++ [(h.group, recPacket ((Tbl.get {} s.flk.ctxs h.key).part ++ cont))] := by
  have hwhole : s.takeCont h cont = (s.setCtx h.key { Tbl.get {} s.flk.ctxs h.key with part := [], owed := 0 }).deliverRec h.link h.group
      ((Tbl.get {} s.flk.ctxs h.key).part ++ cont) := by
    unfold State.takeCont
    simp only [List.isEmpty_iff]
    rw [if_neg hc, if_neg (by simp [hp, hlen])]
    simp only [hu]
    exact if_pos hlen.symm
  rw [hwhole]
  exact Tbl.get_set_self _ hr _ _

/-- A context whose partial record is discarded. -/
def Ctx.dropped (c : Ctx) : Ctx := { c with part := [], owed := 0 }

/-- A fold that discards partial records leaves none in a context that it meets or that had none. -/
theorem foldl_dropped (k : Nat) : ∀ (ks : List Nat) {t : Tbl Ctx}, Tbl.risingFrom 0 t = true → (k ∈ ks ∨ (Tbl.get {} t k).part = []) →
    (Tbl.get {} (ks.foldl (fun t k => Tbl.upd {} t k Ctx.dropped) t) k).part = []
  | [], _, _, h => h.resolve_left List.not_mem_nil
  | j :: ks, t, hr, h => by
    refine foldl_dropped k ks (Tbl.rising_set _ _ _ hr) ?_
    by_cases hjk : k = j
    · subst hjk
      exact .inr (congrArg Ctx.part (Tbl.get_set_self _ hr _ _))
    · refine h.imp (fun hm => (List.mem_cons.mp hm).resolve_left hjk) fun hp => ?_
      exact (congrArg Ctx.part (Tbl.get_set_ne _ _ _ hjk)).trans hp

theorem dropPartials_part {s : State} {l k : Nat} (hr : Tbl.risingFrom 0 s.flk.ctxs = true) (hk : (Tbl.get {} s.flk.ctxs k).link = l + 1) :
    (Tbl.get {} (s.dropPartials l).flk.ctxs k).part = [] := by
  refine foldl_dropped k _ hr ?_
  by_cases hp : (Tbl.get {} s.flk.ctxs k).part = []
  · exact .inr hp
  · have hmem := Tbl.mem_of_get_ne (t := s.flk.ctxs) (k := k) (d := {}) fun he => by rw [he] at hp; exact hp rfl
    refine .inl (List.mem_map.mpr ⟨_, List.mem_filter.mpr ⟨hmem, ?_⟩, rfl⟩)
    simp [hk, hp]

/-! ### Defects (R484, R492) -/

section Defect
variable {s : State} {l d n : Nat} (hl : l < 48) (hd : d < 3)
include hl hd

theorem exec_defectDeclare (ht : Tbl.get 0 (s.flink l).presentAt d = n + 1) (hoff : s.bit (defectBit l d) = false)
    (hs : s.suppressed l d = false) (hp : Past s n (s.defectSet l d)) :
    exec (.defectDeclare l d) s = .next ((((s.setDefect l d true).dropPartials l).linkTouch l).defectLink l 2) := by
  have hsince : Tbl.get 0 (s.flink l).presentAt d - 1 = n := by omega
  exact if_pos ⟨hl, hd, by omega, by rw [hoff]; rfl, by rw [hs]; rfl, by rw [hsince]; exact State.elapsed_of_le hp⟩

theorem exec_defectClear (ht : Tbl.get 0 (s.flink l).absentAt d = n + 1) (hon : s.bit (defectBit l d) = true)
    (hp : Past s n (s.defectClear l d)) : exec (.defectClear l d) s = .next (((s.setDefect l d false).linkTouch l).tryRestore l) := by
  have hsince : Tbl.get 0 (s.flink l).absentAt d - 1 = n := by omega
  exact if_pos ⟨hl, hd, by omega, hon, by rw [hsince]; exact State.elapsed_of_le hp⟩

end Defect

/-! ### Lane markers sent (R445) -/

theorem send_unmarked {m : MarkerTx} (frame : List Nat) (reverse : Bool) (h : m.count + 128 ≤ 16383) :
    (m.send frame reverse).count = m.count + 128 ∧ (m.send frame reverse).sent = m.sent := by
  have hsend : m.send frame reverse = { m with count := m.count + 128, bip := bipOn m.bip frame 0 128 } := if_pos (by omega)
  rw [hsend]
  exact ⟨rfl, rfl⟩

theorem send_marked {m : MarkerTx} (frame : List Nat) (reverse : Bool) (h : 16383 < m.count + 128) :
    (m.send frame reverse).seq = (m.seq + 1) % 2 ^ 16 ∧ (m.send frame reverse).cw = (m.cw + 16384) % 20 ∧
    (m.send frame reverse).sent.length = m.bip.length := by
  rw [MarkerTx.send, if_neg (show ¬ 128 ≤ 16383 - m.count by omega)]
  refine ⟨rfl, rfl, ?_⟩
  dsimp only
  split_ifs <;> simp [bipOn]

/-! ### FABRIC_FRAME_TRANSMIT (R475, R487) -/

/-- Two states with the same data of links and the same transmit queues. -/
def SameLinks (s t : State) : Prop := t.flk.links = s.flk.links ∧ t.qm.txq = s.qm.txq

theorem SameLinks.trans {s t u : State} (h : SameLinks s t) (h' : SameLinks t u) : SameLinks s u :=
  ⟨h'.1.trans h.1, h'.2.trans h.2⟩

theorem sendCredits_links (l : Nat) : ∀ (ms : List CreditMsg) (n : Nat) (s : State), SameLinks s (State.sendCredits l n ms s).2.2
  | [], _, _ => by unfold State.sendCredits; exact ⟨rfl, rfl⟩
  | _ :: _, 0, _ => by unfold State.sendCredits; exact ⟨rfl, rfl⟩
  | m :: ms, n + 1, s => by
    unfold State.sendCredits
    split
    · refine .trans ?_ (sendCredits_links l ms n _)
      dsimp only
      split <;> exact ⟨rfl, rfl⟩
    · exact sendCredits_links l ms (n + 1) s

theorem cellHeader_length (type cls dst group src link seq first valid : Nat) :
    (cellHeader type cls dst group src link seq first valid).length = 16 := by
  simp [cellHeader, beBytes_length]

/-- A payload stands in its cell after the header. -/
theorem payload_of_cell {h b pad : List Nat} (hh : h.length = 16) : ((h ++ (b ++ pad)).drop 16).take b.length = b := by
  rw [← hh, List.drop_left, List.take_left]

/-- The sequence number of a cell, and the state in which a unicast one has taken it (R482). -/
def State.seqOf (s : State) (l : Nat) (c : TxCell) : Nat := if c.ucast then Tbl.get 0 s.flk.seqs (2048 * l + c.dst) else 0
def State.seqTaken (s : State) (l : Nat) (c : TxCell) : State :=
  if c.ucast then { s with flk := { s.flk with seqs := Tbl.set 0 s.flk.seqs (2048 * l + c.dst) ((s.seqOf l c + 1) % 256) } } else s

theorem seqTaken_links (s : State) (l : Nat) (c : TxCell) : SameLinks s (s.seqTaken l c) := by
  unfold State.seqTaken
  split <;> exact ⟨rfl, rfl⟩

section Slot
variable {l : Nat} (out : List (List Nat)) {s : State} (i : Nat)

theorem sendSlot_idle (hq : s.txq l = []) : State.sendSlot l (out, s) i =
    (out ++ [cellHeader 0 0 0 0 (s.rd QM_CFG.dev_id) l 0 0xFF 0 ++ (s.padded []).1], (s.padded []).2) := by
  unfold State.sendSlot
  dsimp only
  rw [hq]

theorem sendSlot_cell {c : TxCell} {rest : List TxCell} (hq : s.txq l = c :: rest) : ∃ h, h.length = 16 ∧ State.sendSlot l (out, s) i =
    (out ++ [h ++ (((s.seqTaken l c).setTxq l rest).padded c.payload).1],
      (((s.seqTaken l c).setTxq l rest).padded c.payload).2.inc (FLK_TXCELL.count l)) := by
  unfold State.sendSlot
  dsimp only
  rw [hq]
  exact ⟨_, cellHeader_length .., rfl⟩

/-- A slot sends one cell, whose payload is that of the head of the transmit queue. -/
theorem sendSlot_sends (hr : Tbl.risingFrom 0 s.qm.txq = true) : ∃ b t,
    State.sendSlot l (out, s) i = (out ++ [b], t) ∧ t.flk.links = s.flk.links ∧ Tbl.risingFrom 0 t.qm.txq = true ∧
    t.txq l = (s.txq l).drop 1 ∧ ∀ c, (s.txq l)[0]? = some c → (b.drop 16).take c.payload.length = c.payload := by
  cases hq : s.txq l with
  | nil =>
    exact ⟨_, _, sendSlot_idle out i hq, rfl, hr, hq, fun c hc => by simp at hc⟩
  | cons c rest =>
    obtain ⟨h, hh, hsend⟩ := sendSlot_cell out i hq
    obtain ⟨hlinks, htxq⟩ := seqTaken_links s l c
    rw [← htxq] at hr
    refine ⟨_, _, hsend, hlinks, Tbl.rising_set _ _ _ hr, Tbl.get_set_self _ hr _ _, fun c' hc => ?_⟩
    obtain rfl : c = c' := by simpa using hc
    exact payload_of_cell hh

end Slot

/-- The slots of a frame send the cells at the head of the transmit queue in order. -/
theorem sendSlots_send {l : Nat} : ∀ (is : List Nat) (out : List (List Nat)) {s : State}, Tbl.risingFrom 0 s.qm.txq = true → ∃ cells t,
    is.foldl (State.sendSlot l) (out, s) = (out ++ cells, t) ∧ cells.length = is.length ∧ t.flk.links = s.flk.links ∧
    t.txq l = (s.txq l).drop is.length ∧
    ∀ i c, i < is.length → (s.txq l)[i]? = some c → ∃ b, cells[i]? = some b ∧ (b.drop 16).take c.payload.length = c.payload
  | [], out, s, _ => ⟨[], s, by rw [List.append_nil]; rfl, rfl, rfl, rfl, fun _ _ hi => absurd hi (Nat.not_lt_zero _)⟩
  | j :: is, out, s, hr => by
    obtain ⟨b, u, hslot, hlinks, hru, hq, hb⟩ := sendSlot_sends (l := l) out j hr
    obtain ⟨cells, t, hfold, hlen, hlinks', hq', hcells⟩ := sendSlots_send (l := l) is (out ++ [b]) hru
    refine ⟨b :: cells, t, ?_, congrArg (· + 1) hlen, hlinks'.trans hlinks, ?_, fun i c hi hc => ?_⟩
    · rw [List.foldl_cons, hslot, hfold, List.append_assoc, List.singleton_append]
    · rw [hq', hq, List.drop_drop, List.length_cons, Nat.add_comm]
    · cases i with
      | zero => exact ⟨b, rfl, hb c hc⟩
      | succ i =>
        refine hcells i c (Nat.lt_of_succ_lt_succ hi) ?_
        rw [hq, List.getElem?_drop, Nat.add_comm]
        exact hc

/-- What a link leaves that has sent a frame: its frame count, the cells at the head of its queue, and its lane markers. -/
structure SentFrame (s : State) (l : Nat) (t : State) : Prop where
  fcount : (t.flink l).fcount = ((s.flink l).fcount + 1) % 256
  txq : t.txq l = (s.txq l).drop 63
  sent : ∃ first cells, (t.flink l).sent = first :: cells ∧ cells.length = 63 ∧
    ∀ i c, i < 63 → (s.txq l)[i]? = some c → ∃ b, cells[i]? = some b ∧ (b.drop 16).take c.payload.length = c.payload
  mark : ∃ frame reverse, (t.flink l).mark = (s.flink l).mark.send frame reverse

theorem sentFrame_setFlink {s z : State} {l : Nat} {y : FLink} {first frame : List Nat} {cells : List (List Nat)} {reverse : Bool}
    (hr : Tbl.risingFrom 0 z.flk.links = true) (hcount : y.fcount = ((s.flink l).fcount + 1) % 256) (hsent : y.sent = first :: cells)
    (hmark : y.mark = (s.flink l).mark.send frame reverse) (hq : z.txq l = (s.txq l).drop 63) (hlen : cells.length = 63)
    (hcells : ∀ i c, i < 63 → (s.txq l)[i]? = some c → ∃ b, cells[i]? = some b ∧ (b.drop 16).take c.payload.length = c.payload) :
    SentFrame s l (z.setFlink l y) := by
  have hread := State.flink_setFlink hr l y
  exact ⟨(congrArg FLink.fcount hread).trans hcount, hq, ⟨first, cells, (congrArg FLink.sent hread).trans hsent, hlen, hcells⟩,
    ⟨frame, reverse, (congrArg FLink.mark hread).trans hmark⟩⟩

theorem exec_fabricFrameTransmit {s : State} {l : Nat} (hl : l < 48) (hon : s.linkOn l = true) (ht : (s.flink l).txEnd < 1000 * (s.clk + 1))
    (hlinks : Tbl.risingFrom 0 s.flk.links = true) (htxq : Tbl.risingFrom 0 s.qm.txq = true) :
    ∃ t, exec (.fabricFrameTransmit l) s = .next t ∧ SentFrame s l t := by
  show ∃ t, execFabricFrameTransmit l s = _ ∧ _
  unfold execFabricFrameTransmit
  rw [if_neg (by simp [hl, hon, ht])]
  extract_lets v cause force rdi w
  obtain ⟨mine, left, u, hmine, hu⟩ : ∃ mine left u,
      (if w.inFrame l = true then State.sendCredits l 28 w.flk.outbox w else ([], w.flk.outbox, w)) = (mine, left, u) ∧ SameLinks s u := by
    by_cases hf : w.inFrame l = true
    · rw [if_pos hf]
      exact ⟨_, _, _, rfl, sendCredits_links l _ 28 w⟩
    · rw [if_neg hf]
      exact ⟨_, _, _, rfl, rfl, rfl⟩
  rw [hmine]
  dsimp -zeta only
  extract_lets links u' clear x head
  obtain ⟨hul, huq⟩ : SameLinks s u' := hu
  obtain ⟨cells, z, hslots, hlen, hzl, hzq, hcells⟩ := sendSlots_send (l := l) (List.range 63) [] (s := u') (huq ▸ htxq)
  rw [List.length_range] at hlen hzq hcells
  have hq : u'.txq l = s.txq l := congrArg (Tbl.get [] · l) huq
  have hz : z.flink l = s.flink l := congrArg (fun ls => Tbl.get ({} : FLink) ls l) (hzl.trans hul)
  have hx : x = s.flink l := (congrArg (fun c => c.2.flink l) hslots).trans hz
  rw [hq] at hzq hcells
  rw [hslots, List.nil_append]
  clear_value x head clear u' rdi
  subst hx
  exact ⟨_, rfl, sentFrame_setFlink (hzl.trans hul ▸ hlinks) rfl rfl rfl hzq hlen hcells⟩

/-! ### SECOND_TICK (R495 to R497) -/

/-- The fields in which a link latches its counts of the second. -/
def secondFields (l : Nat) : List Fld :=
  [FLK_SECBIP.count l, FLK_SECCOR.count l, FLK_SECUNC.count l, FLK_SECIDLE.count l, FLK_SECSTAMP.sec l, FLK_SECSTAT.irregular l,
   FLK_SECSTAT.errored l, FLK_ES.count l]

/-- The field lies among the registers of link `l`. -/
def OnLink (l : Nat) (f : Fld) : Prop := flkAddr l ≤ f.addr ∧ f.addr < flkAddr l + 0x1000 ∧ f.lo < 64

theorem secondFields_onLink (l : Nat) : ∀ f ∈ secondFields l, OnLink l f := by
  simp [secondFields, OnLink, flkAddr, FLK_SECBIP.count, FLK_SECCOR.count, FLK_SECUNC.count, FLK_SECIDLE.count, FLK_SECSTAMP.sec,
    FLK_SECSTAT.irregular, FLK_SECSTAT.errored, FLK_ES.count]

theorem outside_otherLink {l j : Nat} {f : Fld} (hf : OnLink l f) (h : l ≠ j) : Outside (secondFields j) f.key := by
  intro g hg
  obtain ⟨hglo, hghi, hgbit⟩ := secondFields_onLink j g hg
  obtain ⟨hlo, hhi, hbit⟩ := hf
  unfold flkAddr at hlo hhi hglo hghi
  unfold Fld.key
  omega

/-- What the tick leaves of a link whose data were `x`. -/
structure Latched (x : FLink) (irregular : Bool) (l : Nat) (t : State) : Prop where
  bip : (t.flink l).bip = 0
  idle : (t.flink l).idle = 0
  count : t.rd (FLK_SECBIP.count l) = x.bip % 2 ^ (FLK_SECBIP.count l).width
  flag : t.rd (FLK_SECSTAT.irregular l) = b2n irregular

section Second
variable (irregular : Bool) (s : State) (l : Nat)

/-- The writes of a link's tick after that of `FLK_SECSTAT.irregular`. -/
theorem errored_leaves (u : State) (errored counts : Bool) : KeepsFields (Outside [FLK_SECSTAT.errored l, FLK_ES.count l]) u
    (if counts = true then (u.wrBit (FLK_SECSTAT.errored l) errored).inc (FLK_ES.count l) else u.wrBit (FLK_SECSTAT.errored l) errored) := by
  refine .ite (.wr (.wr (.refl _ u) ?_ _) ?_ _) (.wr (.refl _ u) ?_ _) <;> exact not_outside (by simp)

/-- The counts of the second stored in the registers of a link, and the time of the tick. -/
def State.secondStored : State :=
  (((((s.wr (FLK_SECBIP.count l) (s.flink l).bip).wr (FLK_SECCOR.count l) (s.flink l).cor).wr (FLK_SECUNC.count l) (s.flink l).unc).wr
    (FLK_SECIDLE.count l) (s.flink l).idle).wr (FLK_SECSTAMP.sec l) s.tim.sec).wrBit (FLK_SECSTAT.irregular l) irregular

theorem latchSecond_eq : ∃ errored counts oof defect, State.latchSecond irregular s l =
    (if counts = true then ((s.secondStored irregular l).wrBit (FLK_SECSTAT.errored l) errored).inc (FLK_ES.count l)
      else (s.secondStored irregular l).wrBit (FLK_SECSTAT.errored l) errored).setFlink l
      { s.flink l with bip := 0, cor := 0, unc := 0, idle := 0, oof := oof, defect := defect } := ⟨_, _, _, _, rfl⟩

theorem secondStored_leaves : KeepsFields (Outside (secondFields l)) s (s.secondStored irregular l) := by
  unfold State.secondStored
  refine .wr (.wr (.wr (.wr (.wr (.wr (.refl _ s) ?_ _) ?_ _) ?_ _) ?_ _) ?_ _) ?_ _ <;> exact not_outside (by simp [secondFields])

theorem latchSecond_leaves : KeepsFields (Outside (secondFields l)) s (State.latchSecond irregular s l) := by
  obtain ⟨errored, counts, oof, defect, he⟩ := latchSecond_eq irregular s l
  rw [he]
  refine (secondStored_leaves ..).trans (.trans ((errored_leaves l _ errored counts).mono fun _ h => h.mono ?_) (setFlink_keepsFields ..))
  simp [secondFields]

theorem latchSecond_tim : (State.latchSecond irregular s l).tim = s.tim := by
  obtain ⟨errored, counts, oof, defect, he⟩ := latchSecond_eq irregular s l
  rw [he]
  split <;> rfl

theorem latchSecond_links : ∃ x : FLink, x.bip = 0 ∧ x.idle = 0 ∧
    (State.latchSecond irregular s l).flk.links = Tbl.set {} s.flk.links l x := by
  obtain ⟨errored, counts, oof, defect, he⟩ := latchSecond_eq irregular s l
  rw [he]
  split <;> exact ⟨_, rfl, rfl, rfl⟩

variable {s l}

theorem secondStored_count (hr : s.regsOk = true) :
    (s.secondStored irregular l).rd (FLK_SECBIP.count l) = (s.flink l).bip % 2 ^ (FLK_SECBIP.count l).width := by
  have hafter : KeepsFields (Outside [FLK_SECCOR.count l, FLK_SECUNC.count l, FLK_SECIDLE.count l, FLK_SECSTAMP.sec l, FLK_SECSTAT.irregular l])
      (s.wr (FLK_SECBIP.count l) (s.flink l).bip) (s.secondStored irregular l) := by
    refine .wr (.wr (.wr (.wr (.wr (.refl _ _) ?_ _) ?_ _) ?_ _) ?_ _) ?_ _ <;> exact not_outside (by simp)
  refine (hafter.rd _ ?_).trans (State.rd_wr_self hr _ _)
  simp [Outside, Fld.key, FLK_SECBIP.count, FLK_SECCOR.count, FLK_SECUNC.count, FLK_SECIDLE.count, FLK_SECSTAMP.sec, FLK_SECSTAT.irregular,
    Nat.add_mul]

theorem secondStored_flag (hr : s.regsOk = true) : (s.secondStored irregular l).rd (FLK_SECSTAT.irregular l) = b2n irregular := by
  have hstored : ((((((s.wr (FLK_SECBIP.count l) (s.flink l).bip).wr (FLK_SECCOR.count l) (s.flink l).cor).wr (FLK_SECUNC.count l)
      (s.flink l).unc).wr (FLK_SECIDLE.count l) (s.flink l).idle).wr (FLK_SECSTAMP.sec l) s.tim.sec)).regsOk = true :=
    State.wr_regsOk (State.wr_regsOk (State.wr_regsOk (State.wr_regsOk (State.wr_regsOk hr _ _) _ _) _ _) _ _) _ _
  exact (State.rd_wr_self hstored _ _).trans (by cases irregular <;> rfl)

theorem latchSecond_latched (hr : s.regsOk = true) (hs : Tbl.risingFrom 0 s.flk.links = true) :
    Latched (s.flink l) irregular l (State.latchSecond irregular s l) := by
  obtain ⟨x, hbip, hidle, hlinks⟩ := latchSecond_links irregular s l
  have hx : (State.latchSecond irregular s l).flink l = x := by
    unfold State.flink
    rw [hlinks, Tbl.get_set_self _ hs]
  obtain ⟨errored, counts, oof, defect, he⟩ := latchSecond_eq irregular s l
  have hread : ∀ f : Fld, Outside [FLK_SECSTAT.errored l, FLK_ES.count l] f.key →
      (State.latchSecond irregular s l).rd f = (s.secondStored irregular l).rd f := fun f hf => by
    rw [he]
    exact (setFlink_keepsFields _ l (fun _ => True) _).rd f trivial |>.trans ((errored_leaves l _ errored counts).rd f hf)
  have hcount : Outside [FLK_SECSTAT.errored l, FLK_ES.count l] (FLK_SECBIP.count l).key := by
    simp [Outside, Fld.key, FLK_SECBIP.count, FLK_SECSTAT.errored, FLK_ES.count, Nat.add_mul]
  have hflag : Outside [FLK_SECSTAT.errored l, FLK_ES.count l] (FLK_SECSTAT.irregular l).key := by
    simp only [Outside, List.forall_mem_cons]
    exact ⟨Fld.key_ne rfl, Fld.key_ne rfl, fun f hf => absurd hf List.not_mem_nil⟩
  exact ⟨by rw [hx, hbip], by rw [hx, hidle], (hread _ hcount).trans (secondStored_count irregular hr),
    (hread _ hflag).trans (secondStored_flag irregular hr)⟩

theorem Latched.other {x : FLink} {t : State} {j : Nat} (h : Latched x irregular l t) (hne : l ≠ j) :
    Latched x irregular l (State.latchSecond irregular t j) := by
  obtain ⟨hbip, hidle, hcount, hflag⟩ := h
  obtain ⟨y, -, -, hlinks⟩ := latchSecond_links irregular t j
  have hx : (State.latchSecond irregular t j).flink l = t.flink l := by
    unfold State.flink
    rw [hlinks, Tbl.get_set_ne _ _ _ hne]
  have hread : ∀ f ∈ secondFields l, (State.latchSecond irregular t j).rd f = t.rd f := fun f hf =>
    (latchSecond_leaves irregular t j).rd f (outside_otherLink (secondFields_onLink l f hf) hne)
  exact ⟨by rw [hx, hbip], by rw [hx, hidle], (hread _ (by simp [secondFields])).trans hcount, (hread _ (by simp [secondFields])).trans hflag⟩

/-- Every link latches its counts of the second once. -/
theorem foldl_latched : ∀ (ls : List Nat) {s : State}, ls.Nodup → s.regsOk = true → Tbl.risingFrom 0 s.flk.links = true →
    ∀ l ∈ ls, Latched (s.flink l) irregular l (ls.foldl (State.latchSecond irregular) s)
  | [], _, _, _, _ => fun _ hl => absurd hl List.not_mem_nil
  | j :: ls, s, hnodup, hr, hs => by
    obtain ⟨hj, hls⟩ := List.nodup_cons.mp hnodup
    obtain ⟨x, -, -, hlinks⟩ := latchSecond_links irregular s j
    refine List.forall_mem_cons.mpr ⟨?_, fun l hl => ?_⟩
    · exact List.foldlRecOn (motive := Latched (s.flink j) irregular j) ls _ (latchSecond_latched irregular hr hs)
        fun t ht k hk => ht.other irregular fun (he : j = k) => hj (he ▸ hk)
    · have hx : (State.latchSecond irregular s j).flink l = s.flink l := by
        unfold State.flink
        rw [hlinks, Tbl.get_set_ne _ _ _ fun (he : l = j) => hj (he ▸ hl)]
      rw [← hx]
      exact foldl_latched ls hls ((latchSecond_leaves ..).regsOk hr) (hlinks ▸ Tbl.rising_set _ _ _ hs) l hl

theorem exec_secondTick (ht : s.tim.tickDue = true) : exec .secondTick s =
    .next ((List.range 48).foldl (State.latchSecond s.tim.tickStep) { s with tim := { s.tim with tickDue := false, tickStep := false } }) :=
  if_pos ht

theorem foldl_latchSecond_tim (ls : List Nat) (s : State) : (ls.foldl (State.latchSecond irregular) s).tim = s.tim :=
  List.foldlRecOn (motive := fun t => t.tim = s.tim) ls _ rfl fun t ht l _ => (latchSecond_tim irregular t l).trans ht

end Second

end Sys2Proof.Machine
end

section
namespace Sys2Proof
open Machine Claims

/-- Settles O50: FLK_CTL by what a poke of it does, the alignment of a lane by its three states, frames by the scrambler's involution and by
what each slot sends, the records and the counts of the second by what one step of a fold leaves of the others. -/
theorem fabricLinks : Obligations.FabricLinks := by
  unfold Obligations.FabricLinks
  refine ⟨fun s l v ho hl hv => ⟨exec_linkEnable hl ho hv, exec_linkDisable hl ho hv, exec_linkStandby hl ho⟩,
    fun s l v => writeFlkCtl_kept, fun s l st hr hl hst => linkLanesTo_each hr hl hst,
    fun s f seen inv dist lane laneN cw seq bip eye hf hs => exec_laneMarker seen inv dist lane laneN cw seq bip eye hf hs,
    fun s ln m => ?markers, fun b st hb => scramble_twice b st hb, fun clear st => clearOverhead_scrambled,
    fun s l raw bip cor unc hl hon ha => ⟨exec_fabricFrameReceive_hit hl hon ha, exec_fabricFrameReceive_lost hl hon ha,
      exec_fabricFrameReceive_seen hl hon ha⟩,
    fun s l _ => hunt_third, fun s l cell hl hf => ?cells, fun s h cont => takeCont_whole, fun s l k => dropPartials_part,
    fun s l hl hon ht hlinks htxq => ?frame, fun lane cw seq bip => laneMarkerBits_fields,
    fun s l d n hl hd => ⟨exec_defectDeclare hl hd, exec_defectClear hl hd⟩, fun s ht => ?second⟩
  case markers =>
    refine ⟨fun h hs => ?_, fun h hs => ?_, markerAt_elsewhere, fun hd hb => ⟨markerAt_verify_bad hd hb, fun h hlt => ?_, fun h hle => ?_⟩,
      fun hd hs hn => ⟨fun h h0 => ?_, fun h h1 => ?_, markerAt_locked_good hd hs hn⟩, fun _ => laneLocked_locked s ln⟩
    · rw [markerAt_hunt h, if_pos hs]
    · rw [markerAt_hunt h, hs]
      rfl
    · exact (markerAt_locked_bad hd hb h).trans (if_pos (by omega))
    · exact (markerAt_locked_bad hd hb h).trans (if_neg (by omega))
    · rw [markerAt_verify_good hd hs hn h, h0]
      exact if_pos (by decide)
    · exact (markerAt_verify_good hd hs hn h).trans (if_neg (by omega))
  case cells =>
    refine ⟨fun hbad => ?_, fun hcrc => ⟨fun ht => ?_, fun ht hd => ?_, fun ht _ => exec_fabricCellReceive_good hl hf hcrc ht⟩,
      fun g hg => exec_fabricCellReceive_cut hl hf hg⟩
    · rw [exec_fabricCellReceive_whole hl hf, if_pos hbad]
    · rw [exec_fabricCellReceive_whole hl hf, if_neg (by omega), if_pos ht]
    · rw [exec_fabricCellReceive_good hl hf hcrc ht, takeCell_misrouted ht hd]
  case frame =>
    obtain ⟨t, hexec, hcount, hq, ⟨first, cells, hsent, hlen, hcells⟩, ⟨frame, reverse, hmark⟩⟩ :=
      exec_fabricFrameTransmit hl hon ht hlinks htxq
    refine ⟨t, hexec, hcount, by rw [hsent, List.length_cons, hlen], hq, fun h => ?_, fun h => ?_, fun i c hi hc => ?_⟩
    · rw [hmark]
      exact send_unmarked frame reverse h
    · rw [hmark]
      exact send_marked frame reverse h
    · rw [hsent]
      exact hcells i c hi hc
  case second =>
    refine ⟨_, exec_secondTick ht, foldl_latchSecond_tim .., fun hr hs l hl => ?_⟩
    obtain ⟨hbip, hidle, hcount, hflag⟩ := foldl_latched s.tim.tickStep (List.range 48)
      (s := { s with tim := { s.tim with tickDue := false, tickStep := false } }) List.nodup_range hr hs l (List.mem_range.mpr hl)
    exact ⟨hbip, hidle, hcount, hflag⟩

end Sys2Proof
end

section
/-! SUPPORT. The device as a whole: what every command keeps, and the nanosecond that passes where none waits (R600). -/
namespace Sys2Proof.Machine

/-- Every command goes on and keeps the state sound, its queue and its clock, but for SYSRST_N rising with TEST_N low: each arm by the lemma
about its operation. -/
theorem exec_keeps (c : Instr) (s : State)
    (h : ∀ recovery quad sris, c = .sysrstRelease recovery quad sris false → s.pwr.sysrst = false) : KO s (exec c s) := by
  unfold exec
  split
  · exact execBar0RegisterWrite_keeps _ _ _ (.refl s)
  · exact execPairLowWordRead_keeps _ _ _ (.refl s)
  · exact execPairHighWordRead_keeps _ _ (.refl s)
  · exact execRcFieldRead_keeps _ (.refl s)
  · exact execTslast0Read_keeps _ (.refl s)
  · exact execTimNow0Read_keeps (.refl s)
  · exact execPpscap0Read_keeps (.refl s)
  · exact execPwrStatBmcRead_keeps (.refl s)
  · exact execGenSeal_keeps _ (.refl s)
  · exact execFrameReceive_keeps _ _ _ _ _ _ _ _ (.refl s)
  · exact execPfcFrameReceive_keeps _ _ _ (.refl s)
  · exact execPauseFrameReceive_keeps _ _ (.refl s)
  · exact execPauseExpire_keeps _ _ (.refl s)
  · exact execFlitReceive_keeps _ _ _ (.refl s)
  · exact execFlitAck_keeps _ _ (.refl s)
  · exact execControlShareWindow_keeps (.refl s)
  · exact execBridgeLaneLockLoss_keeps _ _ _ (.refl s)
  · exact execModuleRepairDone_keeps _ _ (.refl s)
  · exact execModuleTrainingDone_keeps _ _ (.refl s)
  · exact execSidebandHeartbeatSend_keeps _ (.refl s)
  · exact execSidebandMessageReceive_keeps _ _ (.refl s)
  · exact execSidebandLost_keeps (.refl s)
  · exact execSidebandRestored_keeps (.refl s)
  · exact execAuxFeedOutOfRange_keeps _ (.refl s)
  · exact execAuxFeedsLost_keeps _ (.refl s)
  · exact execTimeSyncUpdate_keeps (.refl s)
  · exact execPlyDispatch_keeps _ _ _ (.refl s)
  · exact execIngressDispatchEnqueue_keeps _ (.refl s)
  · exact execEgressDispatchEnqueue_keeps _ (.refl s)
  · exact execNop_keeps _ (.refl s)
  · exact execAdd_keeps _ (.refl s)
  · exact execSub_keeps _ (.refl s)
  · exact execAnd_keeps _ (.refl s)
  · exact execOr_keeps _ (.refl s)
  · exact execXor_keeps _ (.refl s)
  · exact execAndn_keeps _ (.refl s)
  · exact execMov_keeps _ (.refl s)
  · exact execMinu_keeps _ (.refl s)
  · exact execMaxu_keeps _ (.refl s)
  · exact execMul_keeps _ (.refl s)
  · exact execClz_keeps _ (.refl s)
  · exact execPopc_keeps _ (.refl s)
  · exact execBswap_keeps _ (.refl s)
  · exact execShl_keeps _ (.refl s)
  · exact execShr_keeps _ (.refl s)
  · exact execSar_keeps _ (.refl s)
  · exact execRol_keeps _ (.refl s)
  · exact execExtu_keeps _ (.refl s)
  · exact execExts_keeps _ (.refl s)
  · exact execIns_keeps _ (.refl s)
  · exact execHmix_keeps _ (.refl s)
  · exact execCeq_keeps _ (.refl s)
  · exact execCne_keeps _ (.refl s)
  · exact execCltu_keeps _ (.refl s)
  · exact execCleu_keeps _ (.refl s)
  · exact execClts_keeps _ (.refl s)
  · exact execCles_keeps _ (.refl s)
  · exact execCbit_keeps _ (.refl s)
  · exact execPand_keeps _ (.refl s)
  · exact execPor_keeps _ (.refl s)
  · exact execPxor_keeps _ (.refl s)
  · exact execLd8u_keeps _ (.refl s)
  · exact execLd16u_keeps _ (.refl s)
  · exact execLd32u_keeps _ (.refl s)
  · exact execLd64_keeps _ (.refl s)
  · exact execSt8_keeps _ (.refl s)
  · exact execSt16_keeps _ (.refl s)
  · exact execSt32_keeps _ (.refl s)
  · exact execSt64_keeps _ (.refl s)
  · exact execAadd_keeps _ (.refl s)
  · exact execAswp_keeps _ (.refl s)
  · exact execAcas_keeps _ (.refl s)
  · exact execAmaxu_keeps _ (.refl s)
  · exact execBr_keeps _ (.refl s)
  · exact execBrr_keeps _ (.refl s)
  · exact execCalls_keeps _ (.refl s)
  · exact execRet_keeps _ (.refl s)
  · exact execCall_keeps _ (.refl s)
  · exact execCalln_keeps _ (.refl s)
  · exact execWait_keeps _ (.refl s)
  · exact execPost_keeps _ (.refl s)
  · exact execDone_keeps _ (.refl s)
  · exact execDrop_keeps _ (.refl s)
  · exact execTrap_keeps _ (.refl s)
  · exact execRecycle_keeps _ (.refl s)
  · exact execCallResultWritten_keeps _ (.refl s)
  · exact execContextWatchdog_keeps _ (.refl s)
  · exact execEngClroleWrite_keeps _ _ (.refl s)
  · exact execRoleDrainEnd_keeps _ (.refl s)
  · exact execEngFlipRequest_keeps _ (.refl s)
  · exact execBankDrainEnd_keeps _ (.refl s)
  · exact execEngCntclr_keeps _ (.refl s)
  · exact execPromotionDone_keeps _ _ (.refl s)
  · exact execSpareBackgroundTest_keeps _ _ (.refl s)
  · exact execFibLookup_keeps _ _ (.refl s)
  · exact execTailDescent_keeps _ _ (.refl s)
  · exact execEmLookup_keeps _ _ (.refl s)
  · exact execTerLookup_keeps _ _ (.refl s)
  · exact execPolUpdate_keeps _ _ (.refl s)
  · exact execCntPost_keeps _ (.refl s)
  · exact execAdjRead_keeps _ _ (.refl s)
  · exact execBrgLookup_keeps _ _ (.refl s)
  · exact execNoticeBatchHoldExpire_keeps _ (.refl s)
  · exact execSweepVisit_keeps _ (.refl s)
  · exact execBrgEnableWrite_keeps _ (.refl s)
  · exact execAgePeriodWrite_keeps _ (.refl s)
  · exact execHotPeriodEnd_keeps (.refl s)
  · exact execHotCopyDone_keeps _ (.refl s)
  · exact execXfibEnable_keeps (.refl s)
  · exact execXfibDisable_keeps (.refl s)
  · exact execXfibDisableDone_keeps (.refl s)
  · exact execHotUnitsWrite_keeps _ (.refl s)
  · exact execHotUnitsMoveDone_keeps (.refl s)
  · exact execEmTableEnable_keeps _ _ (.refl s)
  · exact execEmTableDisable_keeps _ _ (.refl s)
  · exact execEmClearDone_keeps _ (.refl s)
  · exact execAdjRetireExpire_keeps _ (.refl s)
  · exact execTableScrub_keeps _ _ _ _ (.refl s)
  · exact execParserFlipComplete_keeps (.refl s)
  · exact execPacketAdmit_keeps _ (.refl s)
  · exact execChainLink_keeps _ (.refl s)
  · exact execChainRelease_keeps _ _ _ (.refl s)
  · exact execPfcRepeat_keeps _ _ (.refl s)
  · exact execPrefetchStart_keeps (.refl s)
  · exact execEvictionStart_keeps (.refl s)
  · exact execMoveSwap_keeps _ _ (.refl s)
  · exact execBufferAudit_keeps (.refl s)
  · exact execEvacDone_keeps _ (.refl s)
  · exact execBufferEnableWrite_keeps _ (.refl s)
  · exact execReserveEnableWrite_keeps _ (.refl s)
  · exact execXbarSlot_keeps (.refl s)
  · exact execGrantReceive_keeps _ (.refl s)
  · exact execRequestReceive_keeps _ (.refl s)
  · exact execEmptyReceive_keeps _ (.refl s)
  · exact execCreditStaleRequest_keeps _ (.refl s)
  · exact execCreditLostFlush_keeps _ (.refl s)
  · exact execCreditEarn_keeps _ (.refl s)
  · exact execFlowResync_keeps _ _ (.refl s)
  · exact execFabricSchedule_keeps _ (.refl s)
  · exact execBucketTxqEmpty_keeps _ _ (.refl s)
  · exact execFabricDelayExpire_keeps _ _ (.refl s)
  · exact execLinkDrain_keeps _ (.refl s)
  · exact execLinkRestore_keeps _ (.refl s)
  · exact execUnreachExpire_keeps _ (.refl s)
  · exact execPortHoldExpire_keeps _ (.refl s)
  · exact execQmTcmdWrite_keeps (.refl s)
  · exact execQmTcmdRead_keeps (.refl s)
  · exact execEgressSelect_keeps _ (.refl s)
  · exact execSchNodeWrite_keeps (.refl s)
  · exact execSchNodeRead_keeps (.refl s)
  · exact execNz5RefillBoundary_keeps (.refl s)
  · exact execPolicerWrite_keeps (.refl s)
  · exact execPolicerRead_keeps (.refl s)
  · exact execTgActivate_keeps _ (.refl s)
  · exact execTgCancel_keeps _ (.refl s)
  · exact execTgDisable_keeps _ (.refl s)
  · exact execTgListStart_keeps _ (.refl s)
  · exact execTgGateChange_keeps _ (.refl s)
  · exact execTgSchedulerGate_keeps _ (.refl s)
  · exact execTgEntryWrite_keeps _ (.refl s)
  · exact execTgEntryRead_keeps _ (.refl s)
  · exact execPcieLinkTrained_keeps _ _ _ (.refl s)
  · exact execPcieLinkDown_keeps _ (.refl s)
  · exact execDoorbell_keeps _ _ _ _ _ (.refl s)
  · exact execRctlStart_keeps (.refl s)
  · exact execRctlStop_keeps (.refl s)
  · exact execRctlInvalidate_keeps (.refl s)
  · exact execDescriptorFetch_keeps _ _ (.refl s)
  · exact execDescriptorTake_keeps (.refl s)
  · exact execRingWriteback_keeps _ (.refl s)
  · exact execTtlExpire_keeps _ (.refl s)
  · exact execDescNoProgress_keeps _ (.refl s)
  · exact execRingStall_keeps _ (.refl s)
  · exact execDmaTimeout_keeps _ _ _ (.refl s)
  · exact execTranslationFault_keeps _ _ (.refl s)
  · exact execPageResponse_keeps _ _ (.refl s)
  · exact execParkTimeout_keeps _ (.refl s)
  · exact execPuntWrite_keeps _ (.refl s)
  · exact execEventWrite_keeps _ (.refl s)
  · exact execMsixMessage_keeps _ (.refl s)
  · exact execNopDescriptor_keeps _ (.refl s)
  · exact execRegWrite_keeps (.refl s)
  · exact execRegRead_keeps (.refl s)
  · exact execRegBulk_keeps _ (.refl s)
  · exact execRingStart_keeps (.refl s)
  · exact execRingStop_keeps (.refl s)
  · exact execRctInvalidate_keeps (.refl s)
  · exact execFibInsert_keeps (.refl s)
  · exact execFibDelete_keeps (.refl s)
  · exact execFibBulk_keeps _ (.refl s)
  · exact execFibDump_keeps _ (.refl s)
  · exact execEmInsert_keeps (.refl s)
  · exact execEmDelete_keeps (.refl s)
  · exact execEmBulk_keeps _ (.refl s)
  · exact execEmDump_keeps _ (.refl s)
  · exact execTerWrite_keeps (.refl s)
  · exact execTerDelete_keeps (.refl s)
  · exact execAdjWrite_keeps (.refl s)
  · exact execAdjDelete_keeps (.refl s)
  · exact execParserLoad_keeps _ (.refl s)
  · exact execParserFlip_keeps (.refl s)
  · exact execTableRead_keeps (.refl s)
  · exact execEngLoad_keeps _ (.refl s)
  · exact execEngFlip_keeps (.refl s)
  · exact execPdataWrite_keeps _ (.refl s)
  · exact execPdataRead_keeps _ (.refl s)
  · exact execIndWrite_keeps (.refl s)
  · exact execIndRead_keeps (.refl s)
  · exact execIndBulk_keeps _ (.refl s)
  · exact execQueueFlush_keeps (.refl s)
  · exact execCntRead_keeps _ _ (.refl s)
  · exact execUpdOffer_keeps _ (.refl s)
  · exact execUpdBlock_keeps _ _ (.refl s)
  · exact execUpdVerify_keeps (.refl s)
  · exact execUpdActivate_keeps (.refl s)
  · exact execUpdConfirm_keeps (.refl s)
  · exact execUpdAbort_keeps (.refl s)
  · exact execChkJob_keeps (.refl s)
  · exact execSelftest_keeps (.refl s)
  · exact execBlockReset_keeps (.refl s)
  · exact execRepairClusterSram_keeps (.refl s)
  · exact execRepairPcRetire_keeps (.refl s)
  · exact execRepairHbmLane_keeps (.refl s)
  · exact execRepairLinkRetire_keeps (.refl s)
  · exact execRepairLinkReturn_keeps (.refl s)
  · exact execRepairDdrEvacuate_keeps (.refl s)
  · exact execRepairDdrReturn_keeps (.refl s)
  · exact execSeatRestart_keeps (.refl s)
  · exact execResignClear_keeps (.refl s)
  · exact execBridgeRetrain_keeps (.refl s)
  · exact execInjectEgress_keeps _ (.refl s)
  · exact execInjectIngress_keeps _ (.refl s)
  · exact execPuntBuf_keeps _ (.refl s)
  · exact execMemoryTrainingDone_keeps _ _ _ _ _ _ _ _ _ (.refl s)
  · exact execMcdRoleWrite_keeps _ _ (.refl s)
  · exact execRecentre_keeps _ _ _ _ _ (.refl s)
  · exact execMemoryRequest_keeps _ _ _ _ _ _ _ _ (.refl s)
  · exact execMemoryCommandIssue_keeps _ _ _ (.refl s)
  · exact execRefreshDue_keeps _ _ (.refl s)
  · exact execMemoryTempRead_keeps _ _ _ _ (.refl s)
  · exact execActivateTableClear_keeps (.refl s)
  · exact execPatrolScrub_keeps _ (.refl s)
  · exact execLaneRepairDone_keeps _ (.refl s)
  · exact execPcRetireDone_keeps _ (.refl s)
  · exact execChannelEvacuated_keeps _ (.refl s)
  · exact execRankPowerDown_keeps _ _ (.refl s)
  · exact execSelfRefreshEntry_keeps _ (.refl s)
  · exact execPortEnable_keeps _ _ (.refl s)
  · exact execPortDisable_keeps _ _ (.refl s)
  · exact execBringupStepComplete_keeps _ _ _ _ (.refl s)
  · exact execBringupTimeout_keeps _ _ (.refl s)
  · exact execPolaritySearchSwitch_keeps _ (.refl s)
  · exact execLaneMarker_keeps _ _ _ _ _ _ _ _ _ _ (.refl s)
  · exact execLossOfSignalSet_keeps _ _ _ (.refl s)
  · exact execLossOfSignalClear_keeps _ _ _ (.refl s)
  · exact execLossOfLockSet_keeps _ _ _ _ (.refl s)
  · exact execLossOfLockClear_keeps _ _ (.refl s)
  · exact execLaneStateRequest_keeps _ _ _ (.refl s)
  · exact execFaultPendingExpire_keeps _ (.refl s)
  · exact execUpDebounceExpire_keeps _ (.refl s)
  · exact execFrameTransmit_keeps _ _ (.refl s)
  · exact execLinkEnable_keeps _ _ (.refl s)
  · exact execLinkDisable_keeps _ _ (.refl s)
  · exact execLinkStandby_keeps _ _ (.refl s)
  · exact execFabricFrameReceive_keeps _ _ _ _ _ (.refl s)
  · exact execFabricCellReceive_keeps _ _ _ (.refl s)
  · exact execFabricFrameTransmit_keeps _ (.refl s)
  · exact execDefectDeclare_keeps _ _ (.refl s)
  · exact execDefectClear_keeps _ _ (.refl s)
  · exact execSecondTick_keeps (.refl s)
  · exact execSeatOutput_keeps _ _ _ _ _ (.refl s)
  · exact execSeatEvidence_keeps _ _ (.refl s)
  · exact execSelfcheckDone_keeps _ _ (.refl s)
  · exact execCheckpointCommit_keeps _ _ _ (.refl s)
  · exact execRollbackDone_keeps (.refl s)
  · exact execSeatHeartbeatSend_keeps _ _ (.refl s)
  · exact execSeatHeartbeatLoss_keeps _ (.refl s)
  · exact execDetachedReturn_keeps _ (.refl s)
  · exact execSeatWedge_keeps (.refl s)
  · exact execSeatFeedReturn_keeps _ (.refl s)
  · exact execSeatBootDone_keeps _ _ (.refl s)
  · exact execResignClearTestDone_keeps _ _ (.refl s)
  · exact execEngineWatchdog_keeps _ _ (.refl s)
  · exact execClusterWatchdog_keeps _ (.refl s)
  · exact execBridgeKeepaliveSend_keeps _ _ (.refl s)
  · exact execBridgeKeepaliveExpire_keeps _ (.refl s)
  · exact execVoqHoldExpire_keeps (.refl s)
  · exact execAutoRejoin_keeps (.refl s)
  · exact execD2dRetrain_keeps _ (.refl s)
  · exact execRejoinStepComplete_keeps (.refl s)
  · exact execClusterRepairStepDone_keeps _ _ _ _ (.refl s)
  · exact execAvsMarginCheck_keeps _ _ _ _ (.refl s)
  · exact execStressSample_keeps (.refl s)
  · exact execChainOffer_keeps _ _ _ (.refl s)
  · exact execChainAccept_keeps _ _ (.refl s)
  · exact execChainBusy_keeps _ _ (.refl s)
  · exact execChainRefuse_keeps _ _ (.refl s)
  · exact execChainBlock_keeps _ _ _ (.refl s)
  · exact execChainAck_keeps _ _ (.refl s)
  · exact execChainAbort_keeps _ _ (.refl s)
  · exact execChainHello_keeps _ _ (.refl s)
  · exact execChainHelloSend_keeps _ (.refl s)
  · exact execChainPortDown_keeps _ (.refl s)
  · exact execChainRetransmit_keeps _ (.refl s)
  · exact execChainForwardTimeout_keeps _ (.refl s)
  · exact execSessionIdleExpire_keeps (.refl s)
  · exact execVerifiedHoldExpire_keeps (.refl s)
  · exact execVerificationDone_keeps _ (.refl s)
  · exact execCastlingStepComplete_keeps _ (.refl s)
  · exact execTrialExpire_keeps (.refl s)
  · exact execRecoveryStart_keeps _ _ (.refl s)
  · exact execRecoveryWrite_keeps _ _ _ _ (.refl s)
  · exact execRecoveryFinish_keeps _ (.refl s)
  · exact execRecoveryBoot_keeps (.refl s)
  · exact execRecoveryDoneExpire_keeps (.refl s)
  · exact execSysrstAssert_keeps (.refl s)
  · next recovery quad sris test =>
    refine execSysrstRelease_keeps recovery quad sris test (.refl s) ?_
    cases test with
    | false => exact .inl (h recovery quad sris rfl)
    | true => exact .inr rfl
  · exact execPowerSequenceStart_keeps (.refl s)
  · exact execPseqEnableNext_keeps (.refl s)
  · exact execPseqPgTimeout_keeps (.refl s)
  · exact execPowerGoodFall_keeps _ (.refl s)
  · exact execPowerFaultRestart_keeps (.refl s)
  · exact execRailDownNext_keeps (.refl s)
  · exact execPerstAssert_keeps (.refl s)
  · exact execResetArm_keeps (.refl s)
  · exact execColdResetRequest_keeps (.refl s)
  · exact execWarmResetRequest_keeps (.refl s)
  · exact execBootStepComplete_keeps _ _ _ (.refl s)
  · exact execBootStepTimeout_keeps (.refl s)
  · exact execSelftestDone_keeps _ _ _ _ (.refl s)
  · exact execAuxclkLoss_keeps (.refl s)
  · exact execTimeStep_keeps (.refl s)
  · exact execTimeOffset_keeps (.refl s)
  · exact execSlewDone_keeps (.refl s)
  · exact execTimFreqWrite_keeps _ (.refl s)
  · exact execPpsEdge_keeps _ (.refl s)
  · exact execTodMessage_keeps _ (.refl s)
  · exact execServoHoldover_keeps (.refl s)
  · exact execCounterWriteback_keeps _ _ _ (.refl s)
  · exact execSegmentHomeWrite_keeps _ _ (.refl s)
  · exact execSegmentMoveDone_keeps _ (.refl s)
  · exact execTelSessionWrite_keeps (.refl s)
  · exact execTelSessionRead_keeps (.refl s)
  · exact execThermalSample_keeps _ (.refl s)
  · exact execThermtrip_keeps _ _ (.refl s)
  · exact execRailSample_keeps _ _ (.refl s)
  · exact execAvsRetry_keeps _ _ (.refl s)
  · exact execBusMasteringRestored_keeps _ _ (.refl s)
  · exact execLossOfBlockLock_keeps _ (.refl s)
  · exact execBlockLockRegained_keeps _ (.refl s)
  · exact execFaultSequenceReceive_keeps _ _ _ (.refl s)
  · exact execAuxclkReturn_keeps (.refl s)
  · exact execSidebandRetrain_keeps (.refl s)
  · exact execClusterResetDone_keeps _ (.refl s)
  · exact execBlockResetDone_keeps _ (.refl s)

/-- With TEST_N low, a rising SYSRST_N stops the device. -/
theorem exec_sysrstRelease_factoryTest {s : State} (hs : s.pwr.sysrst = true) (recovery quad sris : Bool) :
    exec (.sysrstRelease recovery quad sris false) s = .fault .factoryTest := by
  show execSysrstRelease recovery quad sris false s = _
  simp [execSysrstRelease, hs]

/-- A command that answers a next state keeps. -/
theorem exec_keeps_next {c : Instr} {s t : State} (ht : exec c s = .next t) : Keeps s t := by
  refine (exec_keeps c s fun recovery quad sris hc => ?_).of t ht
  by_contra hs
  rw [hc, exec_sysrstRelease_factoryTest (by simpa using hs)] at ht
  cases ht

/-- A command at the front of the queue is carried out on the state with the queue's rest. -/
theorem step_front (c : Instr) (rest : List Instr) (s : State) : step { s with pending := c :: rest } = exec c { s with pending := rest } := rfl

theorem step_idle {s : State} (h : s.pending = []) : step s = .next s.tick := by
  unfold step
  rw [h]

theorem step_command {s : State} {c : Instr} {rest : List Instr} (h : s.pending = c :: rest) : step s = exec c { s with pending := rest } := by
  unfold step
  rw [h]

/-! ### One nanosecond -/

@[simp] theorem State.tick_clk (s : State) : s.tick.clk = s.clk + 1 := by
  unfold State.tick
  split <;> rfl

@[simp] theorem State.tick_pending (s : State) : s.tick.pending = s.pending := by
  unfold State.tick
  split <;> rfl

/-- A one-second tick is due where one was due or the seconds have changed (R601). -/
theorem State.tick_tickDue (s : State) : s.tick.tim.tickDue = (s.tim.tickDue || s.tick.tim.sec != s.tim.sec) := by
  unfold State.tick
  split
  · simp
  · rfl

theorem State.stepTo_tickDue (s : State) (sec ns frac : Nat) : (s.stepTo sec ns frac).tim.tickDue = (s.tim.tickDue || sec != s.tim.sec) := by
  simp [State.stepTo, State.postTimeStep]

theorem State.stepTo_sec (s : State) (sec ns frac : Nat) : (s.stepTo sec ns frac).tim.sec = sec := by
  simp [State.stepTo, State.postTimeStep]

/-- Network time as one number, in units of the fraction. -/
def State.timeTotal (s : State) : Int := ((s.tim.sec * 10 ^ 9 + s.tim.ns : Nat) : Int) * fracNs + s.tim.frac

/-- What one nanosecond of the island's clock adds to network time (R600, R604). -/
def State.timeAdded (s : State) : Int := fracNs + s.freqAdj + s.slewPart

/-- A slew adds at most its rate, in either direction. -/
theorem State.slewPart_bounds (s : State) : -((s.rd TIM_SLEWRATE.rate_ppm : Int) * 256000) ≤ s.slewPart ∧
    s.slewPart ≤ (s.rd TIM_SLEWRATE.rate_ppm : Int) * 256000 := by
  unfold State.slewPart
  dsimp only
  split <;> omega

/-- With TIM_FREQ within 100 ppm and a slew of at most 1000 ppm, time does not run backwards. -/
theorem State.timeAdded_pos {s : State} (hf : -25600000 ≤ s.freqAdj) (hr : s.rd TIM_SLEWRATE.rate_ppm ≤ 1000) : 0 < s.timeAdded := by
  have := s.slewPart_bounds
  unfold State.timeAdded fracNs
  omega

/-- Nanoseconds counted into seconds and nanoseconds, as one number: exact but for the wrap of seconds at 2^48. -/
theorem addNs_total (sec ns n : Nat) : (addNs sec ns n).1 * 10 ^ 9 + (addNs sec ns n).2 = (sec * 10 ^ 9 + ns + n) % (2 ^ 48 * 10 ^ 9) := by
  unfold addNs
  dsimp only
  omega

/-- The clock and a feed present, one nanosecond changes the clock and network time alone. -/
theorem State.tick_tim {s : State} (hc : s.pwr.clkLost = false) (ha : s.dies.feedA = true) :
    s.tick.tim.slew = s.tim.slew - s.slewPart ∧ s.tick.tim.frac = (s.tim.frac + s.timeAdded).toNat % fracNs ∧
      (s.tick.tim.sec, s.tick.tim.ns) = addNs s.tim.sec s.tim.ns ((s.tim.frac + s.timeAdded).toNat / fracNs) := by
  have he : (s.tim.frac : Int) + fracNs + s.freqAdj + s.slewPart = s.tim.frac + s.timeAdded := by unfold State.timeAdded; omega
  unfold State.tick
  rw [if_neg (by simp [hc, ha])]
  exact ⟨rfl, by rw [← he], by rw [← he]⟩

/-- A count of whole units `a` and of `n` parts, of which `f` make a unit, wraps at `w` units. -/
theorem wrap_units (a n f w : Nat) (hf : 0 < f) : (a + n / f) % w * f + n % f = (a * f + n) % (w * f) := by
  rw [Nat.mul_comm w f, Nat.mod_mul, Nat.add_comm (a * f) n, Nat.add_mul_mod_self_right, Nat.add_mul_div_right _ _ hf, Nat.add_comm (n / f),
    Nat.mul_comm f, Nat.add_comm]

/-- One nanosecond leaves network time in its normal form. -/
theorem State.tick_timeOk {s : State} (hc : s.pwr.clkLost = false) (ha : s.dies.feedA = true) : s.tick.timeOk = true := by
  obtain ⟨_, hfrac, hsec⟩ := State.tick_tim hc ha
  have hns : s.tick.tim.ns < 10 ^ 9 := by
    rw [show s.tick.tim.ns = (addNs _ _ _).2 from congrArg Prod.snd hsec]
    exact Nat.mod_lt _ (by decide)
  have hlt : s.tick.tim.frac < fracNs := hfrac ▸ Nat.mod_lt _ (by decide)
  simp only [State.timeOk, hns, hlt, decide_true, Bool.and_self]

/-- One nanosecond adds what it should, exactly, modulo 2^48 seconds. -/
theorem State.tick_timeTotal {s : State} (hc : s.pwr.clkLost = false) (ha : s.dies.feedA = true) (hp : 0 < s.timeAdded) :
    s.tick.timeTotal = (s.timeTotal + s.timeAdded) % (2 ^ 48 * 10 ^ 9 * fracNs) := by
  obtain ⟨_, hfrac, hsec⟩ := State.tick_tim hc ha
  obtain ⟨n, hn⟩ : ∃ n : Nat, (s.tim.frac : Int) + s.timeAdded = n := ⟨_, (Int.toNat_of_nonneg (by omega)).symm⟩
  have hcount := addNs_total s.tim.sec s.tim.ns (n / fracNs)
  rw [hn, Int.toNat_natCast] at hfrac hsec
  rw [← hsec] at hcount
  have hbefore : s.timeTotal + s.timeAdded = (((s.tim.sec * 10 ^ 9 + s.tim.ns) * fracNs + n : Nat) : Int) := by
    rw [State.timeTotal, Int.add_assoc, hn]
    push_cast
    rfl
  rw [State.timeTotal, hcount, hfrac, hbefore]
  exact_mod_cast wrap_units _ n fracNs (2 ^ 48 * 10 ^ 9) (by decide)

end Sys2Proof.Machine
end

section
namespace Sys2Proof
open Machine Claims

/-- Settles O60. -/
theorem resetIsSound : Obligations.ResetIsSound := by
  unfold Obligations.ResetIsSound State.ok
  rw [State.reset_regsOk, State.reset_memOk, State.reset_timeOk]
  exact ⟨rfl, rfl, rfl, rfl⟩

/-- Settles O58: the shape of a step, and what every command keeps. -/
theorem stepTakesFront : Obligations.StepTakesFront := by
  unfold Obligations.StepTakesFront
  refine ⟨step_front, fun s hs => ⟨step_idle hs, s.tick_clk⟩, fun c s h => ?_⟩
  obtain ⟨t, ht, hk⟩ := (exec_keeps c s h).goes
  exact ⟨t, ht, hk.pending, hk.clk⟩

/-- Settles O59, by the two cases of a step. -/
theorem soundStatesKept : Obligations.SoundStatesKept := by
  unfold Obligations.SoundStatesKept
  intro s t hs ht
  cases hq : s.pending with
  | nil =>
    rw [step_idle hq] at ht
    cases ht
    exact ⟨State.tick_ok hs, by simp [hq], by simp⟩
  | cons c rest =>
    rw [step_command hq] at ht
    have hk := exec_keeps_next ht
    exact ⟨hk.ok hs, hk.pending, by simpa using hk.clk⟩

/-- Settles O13. -/
theorem secondTickWhenSecondsChange : Obligations.SecondTickWhenSecondsChange := by
  unfold Obligations.SecondTickWhenSecondsChange
  refine ⟨State.tick_tickDue, fun s sec ns frac => ⟨s.stepTo_tickDue sec ns frac, s.stepTo_sec sec ns frac⟩, fun s sec ns frac hne => ?_⟩
  rw [State.tick_tickDue, State.stepTo_tickDue]
  simp [hne]

/-- Settles O14: the counter as one number, and what one nanosecond adds to it. -/
theorem counterAddsExactly : Obligations.CounterAddsExactly := by
  unfold Obligations.CounterAddsExactly
  intro s hc ha _ _ hf _ hr
  have hp := State.timeAdded_pos hf hr
  refine ⟨State.tick_timeOk hc ha, ?_, (State.tick_tim hc ha).1, hp⟩
  have htot := State.tick_timeTotal hc ha hp
  rw [State.timeAdded, ← Int.add_assoc, ← Int.add_assoc] at htot
  exact htot

end Sys2Proof
end

section
/-! SUPPORT. Branches (02_packet_engines.md, *Opcodes*), and the bit fields of *Opcodes* bit by bit. -/
namespace Sys2Proof.Machine
open Sys2Proof.Claims

/-! ### Branches -/

section Branch
variable {s : State} {k opc slot : Nat} {p : Ply} (h : Runs s k p slot opc) {f : Nat → Ply → EOp → Issue → Issue}
include h

/-- A branch alone in its bundle writes its link, if it has one, and slot 2 takes effect: no branch waits for the watchdog (R100). -/
theorem issueOp_branch {regs : List (Nat × Word64)} {e : BundleEnd}
    (hf : f (s.rd (bankLen p.cluster p.bank)) (during p {}) (opAt s p slot) {} = { regs := regs, fin := some e }) (he : e.ends = false) :
    s.issueOp opc k f = (counted s p).bundleEnd k (began (regs.foldl (fun q w => putReg q w.1 w.2) p)) e := by
  rw [issueOp_runs h, hf]
  refine commit_end k {} rfl rfl (by rw [he, Bool.false_and]) ?_
  rw [withWrites_regs (issue_ready h.1.1) rfl]
  rfl

theorem issueOp_goes {regs : List (Nat × Word64)} {t : Nat}
    (hf : f (s.rd (bankLen p.cluster p.bank)) (during p {}) (opAt s p slot) {} = { regs := regs, fin := some (.go t) }) :
    s.issueOp opc k f = issued s k p (goes (regs.foldl (fun q w => putReg q w.1 w.2) p) t) := by
  rw [issueOp_branch h hf rfl]
  exact congrArg ((counted s p).setPly k) (onward_began _ t)

theorem issueOp_faults {regs : List (Nat × Word64)} {c d : Nat}
    (hf : f (s.rd (bankLen p.cluster p.bank)) (during p {}) (opAt s p slot) {} = { regs := regs, fin := some (.fault c d) }) :
    s.issueOp opc k f = (issued s k p (began (regs.foldl (fun q w => putReg q w.1 w.2) p))).plyFault k c d :=
  issueOp_branch h hf rfl

end Branch

/-- The link that BR leaves out and CALLS writes. -/
def linkOf (link : Bool) (p : Ply) : List (Nat × Word64) := if link then [(31, BitVec.ofNat 64 (p.pc + 1))] else []

/-- Where the end of a branch is a target within the loaded length, or one checked at load. -/
theorem brOp_goes {len : Nat} {p : Ply} {o : EOp} (link : Bool) (ht : o.imm = true ∨ (o.bVal p).toNat % 2 ^ 15 < len) :
    brOp link len p o {} = { regs := linkOf link p, fin := some (.go ((o.bVal p).toNat % 2 ^ 15)) } := by
  have he : (if o.imm then BundleEnd.go ((o.bVal p).toNat % 2 ^ 15) else goOrFault len ((o.bVal p).toNat % 2 ^ 15) ((o.bVal p).toNat % 2 ^ 15)) =
      .go ((o.bVal p).toNat % 2 ^ 15) := by
    rcases ht with hi | hl
    · exact if_pos hi
    · rw [goOrFault, if_neg (Nat.not_le.mpr hl), ite_self]
  cases link <;> exact congrArg (fun e => ({ regs := _, fin := some e } : Issue)) he

theorem brOp_faults {len : Nat} {p : Ply} {o : EOp} (link : Bool) (hi : o.imm = false) (ht : len ≤ (o.bVal p).toNat % 2 ^ 15) :
    brOp link len p o {} = { regs := linkOf link p, fin := some (.fault 4 ((o.bVal p).toNat % 2 ^ 15)) } := by
  have he : (if o.imm then BundleEnd.go ((o.bVal p).toNat % 2 ^ 15) else goOrFault len ((o.bVal p).toNat % 2 ^ 15) ((o.bVal p).toNat % 2 ^ 15)) =
      .fault 4 ((o.bVal p).toNat % 2 ^ 15) := by
    rw [if_neg (by simp [hi]), goOrFault, if_pos ht]
  cases link <;> exact congrArg (fun e => ({ regs := _, fin := some e } : Issue)) he

theorem brrOp_goes {len : Nat} {p : Ply} {o : EOp} (hb : (p.reg o.ra).toNat < 2 ^ 15) (hl : (p.reg o.ra).toNat < len) :
    brrOp len p o {} = { fin := some (.go (p.reg o.ra).toNat) } := by
  simp only [brrOp, goOrFault, if_neg (Nat.not_le.mpr hb), if_neg (Nat.not_le.mpr hl)]

theorem brrOp_faults {len : Nat} {p : Ply} {o : EOp} (h : 2 ^ 15 ≤ (p.reg o.ra).toNat ∨ len ≤ (p.reg o.ra).toNat) :
    brrOp len p o {} = { fin := some (.fault 4 ((p.reg o.ra).toNat % 2 ^ 32)) } := by
  unfold brrOp goOrFault
  by_cases hb : 2 ^ 15 ≤ (p.reg o.ra).toNat
  · simp only [if_pos hb]
  · simp only [if_neg hb, if_pos (h.resolve_left hb)]

theorem retOp_goes {len : Nat} {p : Ply} (o : EOp) (hl : (p.reg 31).toNat % 2 ^ 15 < len) :
    retOp len p o {} = { fin := some (.go ((p.reg 31).toNat % 2 ^ 15)) } := by
  simp only [retOp, goOrFault, if_neg (Nat.not_le.mpr hl)]

theorem retOp_faults {len : Nat} {p : Ply} (o : EOp) (hl : len ≤ (p.reg 31).toNat % 2 ^ 15) :
    retOp len p o {} = { fin := some (.fault 4 ((p.reg 31).toNat % 2 ^ 15)) } := by
  simp only [retOp, goOrFault, if_pos hl]

/-! ### Bit fields -/

/-- `v` cut at bit `lo` and at bit `lo + w`, with `x` in the middle. -/
theorem putBits_parts (v lo w x : Nat) : putBits v lo w x = 2 ^ lo * (2 ^ w * (v / 2 ^ lo / 2 ^ w) + x % 2 ^ w) + v % 2 ^ lo := by
  have hlow := Nat.div_add_mod v (2 ^ lo)
  have hmid := congrArg (2 ^ lo * ·) (Nat.div_add_mod (v / 2 ^ lo) (2 ^ w))
  simp only [Nat.mul_add] at hmid
  have hold := Nat.mul_comm (v / 2 ^ lo % 2 ^ w) (2 ^ lo)
  have hnew := Nat.mul_comm (x % 2 ^ w) (2 ^ lo)
  rw [putBits, bitsAt, Nat.mul_add]
  omega

theorem testBit_putBits (v lo w x i : Nat) :
    (putBits v lo w x).testBit i = if lo ≤ i ∧ i < lo + w then x.testBit (i - lo) else v.testBit i := by
  rw [putBits_parts, Nat.testBit_two_pow_mul_add _ (Nat.mod_lt _ (Nat.two_pow_pos lo)), Nat.testBit_two_pow_mul_add _ (Nat.mod_lt _ (Nat.two_pow_pos w))]
  by_cases hlo : i < lo
  · rw [if_pos hlo, if_neg (by omega), Nat.testBit_mod_two_pow, decide_eq_true hlo, Bool.true_and]
  · rw [if_neg hlo]
    by_cases hw : i - lo < w
    · rw [if_pos hw, if_pos (by omega), Nat.testBit_mod_two_pow, decide_eq_true hw, Bool.true_and]
    · rw [if_neg hw, if_neg (by omega), Nat.testBit_div_two_pow, Nat.testBit_div_two_pow]
      congr 1
      omega

theorem testBit_field (x pos len i : Nat) : (lowBits (x / 2 ^ pos) len).testBit i = (decide (i < len) && x.testBit (pos + i)) := by
  rw [lowBits, Nat.testBit_mod_two_pow, Nat.testBit_div_two_pow, Nat.add_comm]

theorem extu_getLsbD (x : Word64) (pos len : Nat) {i : Nat} (hi : i < 64) :
    (extu x pos len).getLsbD i = (decide (i < len) && x.getLsbD (pos + i)) := by
  rw [extu, BitVec.getLsbD_ofNat, decide_eq_true hi, Bool.true_and, testBit_field]
  rfl

/-- A field read as a two's complement number is the number of its bit vector. -/
theorem signed_eq_toInt {w : Nat} (hw : 0 < w) (v : Nat) : signed w (lowBits v w) = (BitVec.ofNat w v).toInt := by
  have hp : 2 ^ w = 2 * 2 ^ (w - 1) := by rw [← Nat.pow_succ', Nat.succ_eq_add_one, Nat.sub_add_cancel hw]
  rw [BitVec.toInt_eq_toNat_cond, BitVec.toNat_ofNat, signed, lowBits, hp]
  simp only [Nat.mul_lt_mul_left (show 0 < 2 by decide)]
  split
  · rfl
  · rw [← hp]
    push_cast
    rfl

theorem exts_getLsbD (x : Word64) (pos : Nat) {len i : Nat} (hl : 0 < len) (hi : i < 64) :
    (exts x pos len).getLsbD i = if i < len then x.getLsbD (pos + i) else x.getLsbD (pos + len - 1) := by
  have hbit : ∀ j, j < len → (BitVec.ofNat len (x.toNat / 2 ^ pos)).getLsbD j = x.getLsbD (pos + j) := fun j hj => by
    rw [BitVec.getLsbD_ofNat, decide_eq_true hj, Bool.true_and, Nat.testBit_div_two_pow, Nat.add_comm]
    rfl
  rw [exts, signed_eq_toInt hl]
  refine (BitVec.getLsbD_signExtend _).trans ?_
  rw [decide_eq_true hi, Bool.true_and, BitVec.msb_eq_getLsbD_last, hbit (len - 1) (by omega)]
  split
  · next h => exact hbit i h
  · rw [Nat.add_sub_assoc hl]

theorem insBits_getLsbD (d x : Word64) {pos len i : Nat} (hp : pos < 64) (hi : i < 64) :
    (insBits d x pos len).getLsbD i = if pos ≤ i ∧ i < pos + len then x.getLsbD (i - pos) else d.getLsbD i := by
  rw [insBits, BitVec.getLsbD_ofNat, decide_eq_true hi, Bool.true_and, testBit_putBits]
  by_cases hin : pos ≤ i ∧ i < pos + len
  · rw [if_pos hin, if_pos (by omega), lowBits, Nat.testBit_mod_two_pow, decide_eq_true (by omega), Bool.true_and]
    rfl
  · rw [if_neg hin, if_neg (by omega)]
    rfl

/-- The leading zeros of a word, by its highest set bit. -/
theorem clz64_eq_iff (x : Word64) {n : Nat} (hn : n ≤ 64) :
    clz64 x = n ↔ (∀ i, 64 - n ≤ i → i < 64 → x.getLsbD i = false) ∧ (n < 64 → x.getLsbD (63 - n) = true) := by
  by_cases h0 : x = 0
  · subst h0
    simp only [clz64, if_true, BitVec.ofNat_eq_ofNat, BitVec.getLsbD_zero, implies_true, true_and, Bool.false_eq_true, imp_false]
    omega
  · have hx : x.toNat ≠ 0 := fun h => h0 (BitVec.eq_of_toNat_eq h)
    have hlog : x.toNat.log2 < 64 := (Nat.log2_lt hx).mpr x.isLt
    rw [clz64, if_neg h0]
    constructor
    · rintro rfl
      refine ⟨fun i hi _ => Nat.testBit_lt_two_pow (Nat.lt_log2_self.trans_le (Nat.pow_le_pow_right (by decide) (by omega))), fun _ => ?_⟩
      rw [show 63 - (63 - x.toNat.log2) = x.toNat.log2 from by omega]
      exact Nat.testBit_log2 hx
    · rintro ⟨hzero, hone⟩
      have hlt : x.toNat < 2 ^ (64 - n) := Nat.lt_pow_two_of_testBit _ fun i hi => by
        by_cases h64 : i < 64
        · exact hzero i hi h64
        · exact x.getLsbD_of_ge i (by omega)
      have hn64 : n < 64 := by
        rcases Nat.lt_or_eq_of_le hn with h | rfl
        · exact h
        · exact absurd (Nat.lt_one_iff.mp hlt) hx
      have hlog : x.toNat.log2 = 63 - n :=
        (Nat.log2_eq_iff hx).mpr ⟨Nat.ge_two_pow_of_testBit (hone hn64), by rwa [show 63 - n + 1 = 64 - n from by omega]⟩
      omega

theorem popCount_eq_countP : ∀ (n v : Nat), popCount n v = (List.range n).countP v.testBit
  | 0, _ => rfl
  | n + 1, v => by
    rw [popCount, popCount_eq_countP n, List.range_succ_eq_map, List.countP_cons, List.countP_map, Nat.add_comm]
    have hsucc : v.testBit ∘ Nat.succ = (v / 2).testBit := funext fun i => Nat.testBit_succ v i
    rw [hsucc, Nat.testBit_zero]
    rcases Nat.mod_two_eq_zero_or_one v with h | h <;> simp [h]

end Sys2Proof.Machine
end

section
namespace Sys2Proof
open Machine Claims

/-- Settles O3: what each branch asks of its bundle, by the target it has, and how the bundle then ends. -/
theorem branches : Obligations.Branches := by
  unfold Obligations.Branches
  refine ⟨fun s k p slot h => ?br, fun s k p slot h => ?calls, fun s k p slot h => ?brr, fun s k p slot h => ?ret⟩
  case br =>
    exact ⟨fun ht => congrArg Host.Outcome.next (issueOp_goes h (brOp_goes false ht)),
      fun ⟨hi, ht⟩ => congrArg Host.Outcome.next (issueOp_faults h (brOp_faults false hi ht))⟩
  case calls =>
    exact ⟨fun ht => congrArg Host.Outcome.next (issueOp_goes h (brOp_goes true ht)),
      fun ⟨hi, ht⟩ => congrArg Host.Outcome.next (issueOp_faults h (brOp_faults true hi ht))⟩
  case brr =>
    exact ⟨fun hb hl => congrArg Host.Outcome.next (issueOp_goes h (brrOp_goes hb hl)),
      fun ht => congrArg Host.Outcome.next (issueOp_faults h (brrOp_faults ht))⟩
  case ret =>
    exact ⟨fun hl => congrArg Host.Outcome.next (issueOp_goes h (retOp_goes _ hl)),
      fun hl => congrArg Host.Outcome.next (issueOp_faults h (retOp_faults _ hl))⟩

/-- Settles O8: the bits of each field, the highest set bit, and the count of set bits. -/
theorem bitFieldsBitByBit : Obligations.BitFieldsBitByBit := by
  unfold Obligations.BitFieldsBitByBit
  refine ⟨fun x pos len i _ hl _ hi => ⟨extu_getLsbD x pos len hi, exts_getLsbD x pos hl hi⟩,
    fun d x pos len i hp _ _ hi => insBits_getLsbD d x hp hi, fun x n hn => clz64_eq_iff x hn, fun x => ?_⟩
  rw [popCount_eq_countP, List.countP_eq_length_filter]
  rfl

end Sys2Proof
end

section
/-! SUPPORT. Network time as host, pins and servo steer it (R600 to R609). -/
namespace Sys2Proof.Machine
open Sys2Proof.Claims

/-! ### Steering by the host -/

/-- A write of TIM_CTL, both of whose bits act as they are written. -/
theorem State.poke_timCtl {s : State} (ho : Open s) {v : Nat} (hv : v < 2 ^ 32) : s.poke 0x40030 v =
    (let t := if bitOf v 1 then s.timeStep else s
     if bitOf v 0 then t.timeOffset else t) :=
  State.poke_open ho (by decide) (by decide) (by decide) (by decide) rfl hv rfl rfl

theorem exec_timeStep {s : State} (ho : Open s) : exec .timeStep s = .next s.timeStep :=
  congrArg Host.Outcome.next ((State.poke_timCtl ho (v := 2) (by decide)).trans ((if_neg (by decide)).trans (if_pos (by decide))))

theorem exec_timeOffset {s : State} (ho : Open s) : exec .timeOffset s = .next s.timeOffset :=
  congrArg Host.Outcome.next ((State.poke_timCtl ho (v := 1) (by decide)).trans
    ((if_pos (by decide)).trans (congrArg State.timeOffset (if_neg (by decide)))))

theorem State.poke_timFreq {s : State} (ho : Open s) {v : Nat} (hv : v < 2 ^ 32) : s.poke 0x40034 v = s.writeFreq v :=
  State.poke_open ho (by decide) (by decide) (by decide) (by decide) rfl hv rfl rfl

/-- The word of TIM_FREQ as a command gives it is cut to 32 bits. -/
theorem exec_timFreqWrite {s : State} (ho : Open s) (v : Nat) : exec (.timFreqWrite v) s = .next (s.writeFreq (v % 2 ^ 32)) := by
  have hp : s.poke 0x40034 v = s.poke 0x40034 (v % 2 ^ 32) := by
    unfold State.poke
    rw [Nat.mod_mod]
  exact congrArg Host.Outcome.next (hp.trans (State.poke_timFreq ho (Nat.mod_lt _ (by decide))))

section Mode
variable {s : State}

/-- In mode LOCK the host steers nothing (R600, R603). -/
theorem State.steer_lock (hm : s.bit TIM_CFG.mode = true) :
    s.timeStep = s.wr TIM_STAT.refused 1 ∧ s.timeOffset = s.wr TIM_STAT.refused 1 ∧ ∀ v, s.writeFreq v = s.wr TIM_STAT.refused 1 :=
  ⟨if_pos (.inl hm), if_pos hm, fun _ => if_pos (.inl hm)⟩

variable (hm : s.bit TIM_CFG.mode = false)
include hm

theorem State.timeStep_taken (hn : s.rd TIM_SET0.ns < 10 ^ 9) :
    s.timeStep = s.stepTo (s.rd TIM_SET1.sec_lo + 2 ^ 32 * s.rd TIM_SET2.sec_hi) (s.rd TIM_SET0.ns) 0 :=
  if_neg (not_or.mpr ⟨by simp [hm], Nat.not_le.mpr hn⟩)

omit hm in
theorem State.timeStep_refused (hn : 10 ^ 9 ≤ s.rd TIM_SET0.ns) : s.timeStep = s.wr TIM_STAT.refused 1 := if_pos (.inr hn)

/-- The offset asked for with what a slew has left, and the largest that is slewed, in units of the fraction. -/
def State.offsetSum (s : State) : Int := s.tim.slew + signed 32 (s.rd TIM_OFFS.offset) * fracNs
def State.slewLimit (s : State) : Int := (s.rd TIM_SLEW.max_ns : Int) * fracNs

theorem State.timeOffset_eq : s.timeOffset =
    if 0 < s.slewLimit ∧ -s.slewLimit ≤ s.offsetSum ∧ s.offsetSum ≤ s.slewLimit
    then ({ s with tim := { s.tim with slew := s.offsetSum } } : State).wr TIM_STAT.slewing 1
    else (({ s with tim := { s.tim with slew := 0 } } : State).wr TIM_STAT.slewing 0).stepBy s.offsetSum := by
  unfold State.timeOffset
  rw [if_neg (by simp [hm])]
  rfl

theorem State.writeFreq_eq {v : Nat} (hv : v < 2 ^ 32) :
    s.writeFreq v = if signed 32 v < -freqMax ∨ freqMax < signed 32 v then s.wr TIM_STAT.refused 1 else s.wr TIM_FREQ.adj v := by
  unfold State.writeFreq State.refuseTime
  simp only [Nat.mod_eq_of_lt hv, hm, Bool.false_eq_true, false_or]

end Mode

/-! ### PPS_IN, TOD_IN and the servo -/

theorem exec_ppsEdge_taken {s : State} (h : ∀ t, s.tim.ppsAt = some t → t + 500000000 ≤ s.clk) :
    exec (.ppsEdge true) s = .next (((({ s with tim := { s.tim with ppsAt := some s.clk } } : State).wr TIM_PPSCAP0.ns s.timeBefore.2.2).wr
      TIM_PPSCAP1.sec_lo s.timeBefore.2.1).wr TIM_PPSCAP2.sec_hi (s.timeBefore.2.1 / 2 ^ 32)) := by
  show execPpsEdge true s = _
  unfold execPpsEdge
  cases ha : s.tim.ppsAt with
  | none => rfl
  | some t =>
    have hd : s.elapsed t (ms 500) = true := State.elapsed_of_le (h t ha)
    simp only [hd]
    rfl

theorem exec_ppsEdge_glitch {s : State} {wide : Bool} (h : wide = false ∨ ∃ t, s.tim.ppsAt = some t ∧ s.clk < t + 500000000) :
    exec (.ppsEdge wide) s = .next (s.inc TIM_PPSGLITCH.count) := by
  show execPpsEdge wide s = _
  unfold execPpsEdge
  rcases h with rfl | ⟨t, ha, ht⟩
  · rfl
  · have hd : s.elapsed t (ms 500) = false := State.not_elapsed ht
    simp only [ha, hd, Bool.and_false, Bool.false_eq_true, if_false]

/-- Whether a message follows an accepted edge by 10 ms to 900 ms (R607). -/
def State.todTimely (s : State) : Bool :=
  match s.tim.ppsAt with
  | some t => s.elapsed t (ms 10) && decide (s.clk ≤ t + ms 900)
  | none => false

theorem State.todTimely_iff (s : State) : s.todTimely = true ↔ ∃ t, s.tim.ppsAt = some t ∧ t + 10000000 ≤ s.clk ∧ s.clk ≤ t + 900000000 := by
  unfold State.todTimely
  cases s.tim.ppsAt with
  | none => simp
  | some t =>
    simp only [Option.some.injEq, exists_eq_left', Bool.and_eq_true]
    exact and_congr decide_eq_true_iff decide_eq_true_iff

/-- The time of day that a message carries, as TIM_TODSEC and TIM_TODSTAT hold it. -/
def State.todLoaded (s : State) (m : List Nat) : State :=
  let sec := beNat (sliceB m 3 6)
  ((((s.wr TIM_TODSEC0.sec_lo sec).wr TIM_TODSEC1.sec_hi (sec / 2 ^ 32)).wrBit TIM_TODSTAT.leap (bitOf (leAt m 9 1) 1)).wrBit
    TIM_TODSTAT.valid (bitOf (leAt m 9 1) 0)).wr TIM_TODSTAT.utc_off (beNat (sliceB m 10 2))

theorem exec_todMessage (s : State) (m : List Nat) : exec (.todMessage m) s =
    if s.todTimely && todOk m then .next ((s.todLoaded m).goodPair (beNat (sliceB m 3 6))) else .next (s.inc TIM_TODERR.count) := rfl

theorem State.servoTo_three {s : State} (h : s.rd TIM_STAT.servo ≠ 3) : s.servoTo 3 =
    (({ s with tim := { s.tim with goodRun := 0, badRun := 0 } } : State).wr TIM_STAT.servo 3).post 0x0E02 [s.rd TIM_STAT.servo, 3] := by
  unfold State.servoTo
  rw [if_neg (Ne.symm h)]
  rfl

/-- HOLDOVER: the adjustment is the integral term, and the servo's runs are over (R609). -/
theorem exec_servoHoldover {s : State} (hs : s.rd TIM_STAT.servo = 1 ∨ s.rd TIM_STAT.servo = 2) (hp : s.tim.pairAt + 3000000000 ≤ s.clk) :
    ∃ t, exec .servoHoldover s = .next t ∧ t.tim = { s.tim with goodRun := 0, badRun := 0 } ∧
      (s.regsOk = true → t.rd TIM_FREQ.adj = unsigned 32 s.tim.i ∧ t.rd TIM_STAT.servo = 3) := by
  set u := (s.wr TIM_FREQ.adj (unsigned 32 s.tim.i)).post 0x0E03 ([0, 0, 0, 0] ++ leBytes 4 s.tim.pairSec) with hu
  have hservo : u.rd TIM_STAT.servo = s.rd TIM_STAT.servo :=
    (State.post_rd _ (by decide) _ (by decide)).trans (s.rd_wr_ne _ (by decide))
  have hadj : s.regsOk = true → u.rd TIM_FREQ.adj = unsigned 32 s.tim.i := fun hr => by
    rw [hu, State.post_rd _ (by decide) _ (by decide), s.rd_wr_self hr]
    exact Nat.mod_eq_of_lt (show unsigned 32 _ < 2 ^ 32 from by unfold unsigned; omega)
  have hto := State.servoTo_three (s := u) (by omega)
  refine ⟨u.servoTo 3, if_pos ⟨hs, State.elapsed_of_le hp⟩, ?_, fun hr => ?_⟩
  · rw [hto, State.post_tim]
    show ({ u.tim with goodRun := 0, badRun := 0 } : Tim) = _
    rw [hu, State.post_tim]
    rfl
  · have hur : u.regsOk = true := State.post_regsOk (s.wr_regsOk hr _ _) _ _
    rw [hto, State.post_rd _ (by decide) _ (by decide), State.post_rd _ (by decide) _ (by decide), State.rd_wr_ne _ _ (by decide)]
    exact ⟨hadj hr, State.rd_wr_self hur _ _⟩

end Sys2Proof.Machine
end

section
namespace Sys2Proof
open Machine Claims

theorem timeSteering : Claims.TimeSteering := by
  refine ⟨fun s ho hm => ⟨fun hn => ?_, fun hn => ?_, ⟨fun h0 hl hh => ?_, fun hout => ?_⟩, fun v hv hl hh => ?_, fun v hv hout => ?_⟩,
    fun s v ho hm => ?_, fun s hs h0 => if_pos ⟨hs, h0⟩⟩
  · rw [exec_timeStep ho, State.timeStep_taken hm hn]
    rfl
  · rw [exec_timeStep ho, State.timeStep_refused hn]
  · rw [exec_timeOffset ho, State.timeOffset_eq hm]
    exact congrArg Host.Outcome.next (if_pos ⟨h0, hl, hh⟩)
  · rw [exec_timeOffset ho, State.timeOffset_eq hm]
    refine congrArg Host.Outcome.next (if_neg ?_)
    unfold State.slewLimit State.offsetSum
    omega
  · rw [exec_timFreqWrite ho, Nat.mod_eq_of_lt hv, State.writeFreq_eq hm hv, if_neg (by unfold freqMax; omega)]
  · rw [exec_timFreqWrite ho, Nat.mod_eq_of_lt hv, State.writeFreq_eq hm hv, if_pos (by unfold freqMax; omega)]
  · obtain ⟨hstep, hoffset, hfreq⟩ := State.steer_lock hm
    rw [exec_timeStep ho, exec_timeOffset ho, exec_timFreqWrite ho, hstep, hoffset, hfreq]
    exact ⟨rfl, rfl, rfl⟩

theorem timeInputs : Claims.TimeInputs := by
  refine ⟨fun s hd => ?_, fun s => exec_ppsEdge_taken, fun s hb => if_neg fun h => hb h.1, fun s t ht hc => exec_ppsEdge_glitch (.inr ⟨t, ht, hc⟩),
    fun s => exec_ppsEdge_glitch (.inl rfl), fun s m t ht hl hh hm => ?_, fun s m h => ?_, fun s => exec_servoHoldover⟩
  · have hdue : s.elapsed s.dies.syncAt 1024 = true := State.elapsed_of_le hd
    have hexec : exec .timeSyncUpdate s = _ := if_pos hdue
    exact ⟨fun hp => by rw [hexec, hp]; rfl, fun hp => by rw [hexec, hp]; rfl⟩
  · rw [exec_todMessage, (State.todTimely_iff s).mpr ⟨t, ht, hl, hh⟩, hm]
    rfl
  · rw [exec_todMessage, if_neg]
    rw [Bool.and_eq_true, State.todTimely_iff]
    rintro ⟨⟨t, ht, hl, hh⟩, hm⟩
    rcases h with h | h | ⟨t', ht', hc⟩
    · rw [h] at hm; cases hm
    · rw [h] at ht; cases ht
    · rw [ht] at ht'; cases ht'; omega

/-- Settles O12. -/
theorem networkTime : Obligations.NetworkTime := ⟨timeSteering, timeInputs⟩

end Sys2Proof
end

section
/-! SUPPORT. The management seats (R501 to R517): what events and released outputs leave of them, and what a change of a seat's state does. -/
namespace Sys2Proof.Machine
open Sys2Proof.Claims

/-! ### What events and outputs leave -/

/-- A seat but for the outputs that the boundary holds of it and the inputs it was given. -/
def Seat.bare (x : Seat) : Seat := { x with held := [], inputs := [] }

/-- What block SEAT holds but for outputs, inputs, the records that the FD keeps, resigned units, and the account of unprotected time with the
seat last ACTIVE. -/
def Res.bare (r : Res) : Res :=
  { r with a := r.a.bare, b := r.b.bare, lastOut := 0, lastVal := .word 0, checking := none, journal := [], kept := [], keptLost := [],
           serial := 0, resigned := [], lastActive := 0, unprotAt := 0, unprotNs := 0 }

/-- Power and resets but for BMC_ALERT_N. -/
def Pwr.bare (p : Pwr) : Pwr := { p with bmcAlert := false }

/-- Every register but those of block HIF and the counters of block SEAT. -/
abbrev calmKey (k : Nat) : Prop := k < 0x10000 * 64 ∨ 0x20000 * 64 ≤ k ∧ k < 0x20100 * 64 ∨ 0x20200 * 64 ≤ k

/-- Those but SEAT_STAT. -/
abbrev besideSeatStat (k : Nat) : Prop := k < 0x10000 * 64 ∨ 0x20004 * 64 ≤ k ∧ k < 0x20100 * 64 ∨ 0x20200 * 64 ≤ k

/-- `t` has the fields of `s` whose keys are in `K`, and what `s` holds of the seats, of power and of updates. -/
structure SeatsKept (K : Nat → Prop) (s t : State) : Prop where
  fields : KeepsFields K s t
  res : t.res.bare = s.res.bare
  upd : t.upd = s.upd
  pwr : t.pwr.bare = s.pwr.bare
  clk : t.clk = s.clk

namespace SeatsKept
variable {K : Nat → Prop} {s t u : State}

theorem refl (K : Nat → Prop) (s : State) : SeatsKept K s s := ⟨.refl K s, rfl, rfl, rfl, rfl⟩

theorem trans (h : SeatsKept K s t) (h' : SeatsKept K t u) : SeatsKept K s u :=
  ⟨h.fields.trans h'.fields, h'.res.trans h.res, h'.upd.trans h.upd, h'.pwr.trans h.pwr, h'.clk.trans h.clk⟩

theorem mono {K' : Nat → Prop} (h : SeatsKept K s t) (hk : ∀ k, K' k → K k) : SeatsKept K' s t :=
  ⟨h.fields.mono hk, h.res, h.upd, h.pwr, h.clk⟩

theorem rd (h : SeatsKept K s t) {f : Fld} (hf : K f.key) : t.rd f = s.rd f := h.fields.rd f hf

theorem regsOk (h : SeatsKept K s t) (hr : s.regsOk = true) : t.regsOk = true := h.fields.regsOk hr

theorem wr (h : SeatsKept K s t) {f : Fld} (hf : ¬ K f.key) (v : Nat) : SeatsKept K s (t.wr f v) :=
  ⟨h.fields.wr hf v, h.res, h.upd, h.pwr, h.clk⟩

theorem inc (h : SeatsKept K s t) {f : Fld} (hf : ¬ K f.key) : SeatsKept K s (t.inc f) := h.wr hf _

theorem setDies (h : SeatsKept K s t) (d : Dies) : SeatsKept K s { t with dies := d } :=
  ⟨h.fields.ofRegs rfl, h.res, h.upd, h.pwr, h.clk⟩

/-- What block SEAT holds replaced by what differs from it in nothing that counts. -/
theorem setRes (h : SeatsKept K s t) {r : Res} (hr : r.bare = t.res.bare) : SeatsKept K s { t with res := r } :=
  ⟨h.fields.ofRegs rfl, hr.trans h.res, h.upd, h.pwr, h.clk⟩

theorem setSeat (h : SeatsKept K s t) (b : Bool) {x : Seat} (hx : x.bare = (t.seat b).bare) : SeatsKept K s (t.setSeat b x) := by
  cases b
  · exact h.setRes (r := { t.res with a := x }) (by simp only [Res.bare, show x.bare = t.res.a.bare from hx])
  · exact h.setRes (r := { t.res with b := x }) (by simp only [Res.bare, show x.bare = t.res.b.bare from hx])

theorem ite {p : Prop} [Decidable p] (ht : SeatsKept K s t) (hu : SeatsKept K s u) : SeatsKept K s (if p then t else u) := by
  split <;> assumption

/-- The seats themselves, but for outputs and inputs. -/
theorem seat (h : SeatsKept K s t) (b : Bool) : (t.seat b).bare = (s.seat b).bare := by
  cases b
  · exact congrArg Res.a h.res
  · exact congrArg Res.b h.res

theorem role (h : SeatsKept K s t) (b : Bool) : (t.seat b).role = (s.seat b).role :=
  show (t.seat b).bare.role = (s.seat b).bare.role from congrArg Seat.role (h.seat b)

theorem seatIs (h : SeatsKept calmKey s t) (b : Bool) : t.seatIs b = s.seatIs b := h.rd (by cases b <;> decide)

theorem seatEpoch (h : SeatsKept calmKey s t) (b : Bool) : t.rd (seatEpoch b) = s.rd (seatEpoch b) :=
  h.rd (by cases b <;> decide)

theorem seatRole (h : SeatsKept calmKey s t) (b : Bool) : t.seatRole b = s.seatRole b := by
  unfold State.seatRole
  rw [h.seatIs, h.role]

end SeatsKept

theorem Seat.take_bare (x : Seat) (role clk : Nat) (i : SeatIn) : (x.take role clk i).bare = x.bare := by
  unfold Seat.take
  split_ifs <;> rfl

theorem State.seatInput_kept (K : Nat → Prop) (s : State) (i : SeatIn) : SeatsKept K s (s.seatInput i) := by
  unfold State.seatInput
  refine .ite (.setRes (.refl K s) ?_) (.refl K s)
  simp only [Res.bare, Seat.take_bare]

section Post
variable {K : Nat → Prop} {s t : State}

theorem State.fileRec_kept {e : EvRec} (he : ¬ K (HIF_EVLOST.count e.cls).key) (h : SeatsKept K s t) : SeatsKept K s (t.fileRec e) := by
  obtain ⟨v, r, hv, rfl | rfl⟩ := t.fileRec_only e
  · rw [hv]
    exact ⟨h.fields.ofRegs rfl, h.res, h.upd, h.pwr, h.clk⟩
  · rw [hv]
    exact ⟨(h.inc he).fields.ofRegs rfl, h.res, h.upd, h.pwr, h.clk⟩

theorem State.sendRec_kept {e : EvRec} (he : ¬ K (HIF_EVLOST.count e.cls).key) (h : SeatsKept K s t) : SeatsKept K s (t.sendRec e) := by
  unfold State.sendRec
  refine .ite ?_ (.ite (State.fileRec_kept he ?_) ?_)
  · unfold State.keepRec
    exact .ite (h.setRes rfl) (h.setRes rfl)
  · obtain ⟨d, hd⟩ := State.ctlNow_only true (flitsOf (32 * e.slots)) t
    rw [hd]
    exact h.setDies d
  · exact h.setDies _

/-- The posting of an event leaves them. -/
theorem SeatsKept.postRec (h : SeatsKept K s t) {code : Nat} (hc : ¬ K (HIF_EVLOST.count (code / 256)).key) (p : List Nat)
    (c : List (List Nat)) : SeatsKept K s (t.postRec code p c) := by
  unfold State.postRec
  extract_lets cls ns e p1 s1 s2
  have h1 : SeatsKept K s s1 := .ite ⟨h.fields.ofRegs rfl, h.res, h.upd, h.pwr, h.clk⟩ h
  have h2 : SeatsKept K s s2 := h1.trans (State.seatInput_kept K s1 _)
  exact .ite (State.sendRec_kept hc h2) (State.fileRec_kept hc h2)

theorem SeatsKept.post (h : SeatsKept K s t) {code : Nat} (hc : ¬ K (HIF_EVLOST.count (code / 256)).key) (p : List Nat) :
    SeatsKept K s (t.post code p) := h.postRec hc p []

end Post

section Seats
variable {s t : State}

/-- An event of any class counts its loss in block HIF. -/
theorem not_calmKey_evlost {code : Nat} (hc : code < 65536) : ¬ calmKey (HIF_EVLOST.count (code / 256)).key := by
  simp only [calmKey, Fld.key, HIF_EVLOST.count]
  omega

theorem SeatsKept.posted (h : SeatsKept calmKey s t) {code : Nat} (hc : code < 65536) (p : List Nat) : SeatsKept calmKey s (t.post code p) :=
  h.post (not_calmKey_evlost hc) p

theorem SeatsKept.resign (h : SeatsKept calmKey s t) (kind unit slot cause : Nat) : SeatsKept calmKey s (t.resign kind unit slot cause) :=
  (h.setRes (r := { t.res with serial := t.res.serial + 1, resigned := t.res.resigned ++ [_] }) rfl).posted (by decide) _

theorem SeatsKept.seatActs (h : SeatsKept calmKey s t) (v : SeatOut) : SeatsKept calmKey s (t.seatActs v) := by
  cases v with
  | word n => exact h
  | fdPower on r =>
    show SeatsKept calmKey s (if _ then _ else _)
    exact .ite (h.setDies _) (h.setDies _)

/-- Outputs that are released leave them. -/
theorem State.releaseOut_kept : ∀ (n : Nat) {t : State}, SeatsKept calmKey s t → SeatsKept calmKey s (State.releaseOut n t)
  | 0, _, h => h
  | n + 1, t, h => by
    have out : ∀ q v, SeatsKept calmKey s (State.seatActs _ v) := fun q v =>
      SeatsKept.seatActs (SeatsKept.setSeat (SeatsKept.setSeat (h.setRes (r := { t.res with lastOut := q, lastVal := v }) rfl) false
        (x := { t.seat false with held := (t.seat false).held.filter (fun e => e.1 != q) }) rfl) true
        (x := { t.seat true with held := (t.seat true).held.filter (fun e => e.1 != q) }) rfl) v
    unfold State.releaseOut
    repeat' split
    · exact h
    · exact h
    · exact State.releaseOut_kept n (out _ _)
    · exact h
    · exact State.releaseOut_kept n (out _ _)
    · exact (h.inc (by decide)).setRes rfl

theorem SeatsKept.release2 (h : SeatsKept calmKey s t) : SeatsKept calmKey s t.release2 := State.releaseOut_kept _ h

end Seats

/-! ### A seat's place -/

@[simp] theorem State.seat_setSeat_self (s : State) (b : Bool) (x : Seat) : (s.setSeat b x).seat b = x := by cases b <;> rfl

@[simp] theorem State.seat_setSeat_not (s : State) (b : Bool) (x : Seat) : (s.setSeat b x).seat (!b) = s.seat (!b) := by cases b <;> rfl

@[simp] theorem State.seat_not_setSeat (s : State) (b : Bool) (x : Seat) : (s.setSeat (!b) x).seat b = s.seat b := by cases b <;> rfl

@[simp] theorem State.rd_setSeat (s : State) (b : Bool) (x : Seat) (f : Fld) : (s.setSeat b x).rd f = s.rd f := by cases b <;> rfl

@[simp] theorem State.regsOk_setSeat (s : State) (b : Bool) (x : Seat) : (s.setSeat b x).regsOk = s.regsOk := by cases b <;> rfl

@[simp] theorem State.seatIs_setSeat (s : State) (b : Bool) (x : Seat) (c : Bool) : (s.setSeat b x).seatIs c = s.seatIs c := s.rd_setSeat b x _

@[simp] theorem State.upd_setSeat (s : State) (b : Bool) (x : Seat) : (s.setSeat b x).upd = s.upd := by cases b <;> rfl

@[simp] theorem State.clk_setSeat (s : State) (b : Bool) (x : Seat) : (s.setSeat b x).clk = s.clk := by cases b <;> rfl

@[simp] theorem State.regs_setSeat (s : State) (b : Bool) (x : Seat) : (s.setSeat b x).regs = s.regs := by cases b <;> rfl

theorem State.seatRole_of_ne {s : State} {b : Bool} (h : s.seatIs b ≠ 7) : s.seatRole b = s.seatIs b := if_neg h

/-! ### A change of a seat's state -/

/-- The state and the epoch of a seat as a change of its state writes them (R517). -/
def State.seatMarked (s : State) (b : Bool) (n : Nat) : State :=
  if n ≠ s.seatIs b ∧ (s.seatIs b = 3 ∨ s.seatIs b = 4 ∨ n = 6) then (s.wr (seatSt b) n).seatBump b else s.wr (seatSt b) n

/-- The states and epochs of both seats. -/
abbrev placeKey (k : Nat) : Prop :=
  k = SEAT_STAT.state_a.key ∨ k = SEAT_STAT.state_b.key ∨ k = SEAT_STAT.epoch_a.key ∨ k = SEAT_STAT.epoch_b.key

/-- SEAT_STAT.in_step and active after a change of a seat's state, and the seat last ACTIVE. -/
def State.seatShown (s : State) (b : Bool) (n : Nat) : State :=
  let t := s.wrBit SEAT_STAT.in_step (s.seatIs false == 3 || s.seatIs true == 3)
  let t := if n = 4 then t.wrBit SEAT_STAT.active b else t
  if n = 4 then { t with res := { t.res with lastActive := b2n b } } else t

/-- The account of the time without comparison, where `s` becomes `t` (R502). -/
def State.unprotKept (s t : State) : State :=
  if s.unprot ∧ !t.unprot then
    let u := t.addSat SEAT_UNPROT_MS.count (s.unprotTotal / 1000000)
    { u with res := { u.res with unprotNs := s.unprotTotal % 1000000 } }
  else if !s.unprot ∧ t.unprot then { t with res := { t.res with unprotAt := t.clk } }
  else t

theorem State.seatTo_eq (s : State) (b : Bool) (n : Nat) : s.seatTo b n = s.unprotKept ((s.seatMarked b n).seatShown b n) := rfl

section Marked
variable {K : Nat → Prop} (hi : ¬ K SEAT_STAT.in_step.key) (ha : ¬ K SEAT_STAT.active.key)
include hi ha

theorem State.seatShown_kept (s : State) (b : Bool) (n : Nat) : SeatsKept K s (s.seatShown b n) := by
  unfold State.seatShown
  extract_lets t u
  have ht : SeatsKept K s t := (SeatsKept.refl K s).wr hi _
  have hu : SeatsKept K s u := .ite (ht.wr ha _) ht
  exact .ite (hu.setRes rfl) hu

/-- All that a change of a seat's state writes after its state and epoch. -/
theorem State.seatTo_marked (hu : ¬ K SEAT_UNPROT_MS.count.key) (s : State) (b : Bool) (n : Nat) :
    SeatsKept K (s.seatMarked b n) (s.seatTo b n) := by
  have hs := State.seatShown_kept hi ha (s.seatMarked b n) b n
  rw [State.seatTo_eq]
  exact .ite (.setRes (.wr hs hu _) rfl) (.ite (hs.setRes rfl) hs)

end Marked

theorem State.seatBump_kept (s : State) (b : Bool) : SeatsKept besideSeatStat s (s.seatBump b) :=
  (SeatsKept.refl _ s).wr (by cases b <;> decide) _

/-- A change of a seat's state leaves every register but SEAT_STAT, and what the seats hold. -/
theorem State.seatTo_kept (s : State) (b : Bool) (n : Nat) : SeatsKept besideSeatStat s (s.seatTo b n) := by
  have hw : SeatsKept besideSeatStat s (s.wr (seatSt b) n) := (SeatsKept.refl _ s).wr (by cases b <;> decide) _
  have hm : SeatsKept besideSeatStat s (s.seatMarked b n) := .ite (hw.trans (State.seatBump_kept _ b)) hw
  exact hm.trans (State.seatTo_marked (by decide) (by decide) (by decide) s b n)

/-- The states and the epochs stand as they are marked. -/
theorem State.seatTo_place (s : State) (b : Bool) (n : Nat) : KeepsFields placeKey (s.seatMarked b n) (s.seatTo b n) :=
  (State.seatTo_marked (by decide) (by decide) (by decide) s b n).fields

@[simp] theorem State.seat_seatTo (s : State) (b : Bool) (n : Nat) (c : Bool) : (s.seatTo b n).seat c = s.seat c := by
  rw [State.seatTo_eq]
  unfold State.unprotKept State.seatShown State.seatMarked
  split_ifs <;> rfl

section Place
variable {s : State} (b : Bool) {n : Nat}

theorem State.seatTo_other (s : State) (b : Bool) (n : Nat) :
    (s.seatTo b n).seatIs (!b) = s.seatIs (!b) ∧ (s.seatTo b n).rd (seatEpoch (!b)) = s.rd (seatEpoch (!b)) := by
  have hk := s.seatTo_place b n
  rw [State.seatIs, hk.rd (seatSt (!b)) (by cases b <;> decide), hk.rd (seatEpoch (!b)) (by cases b <;> decide)]
  have hw : ∀ {t : State}, (t = s.wr (seatSt b) n ∨ t = (s.wr (seatSt b) n).seatBump b) →
      t.rd (seatSt (!b)) = s.rd (seatSt (!b)) ∧ t.rd (seatEpoch (!b)) = s.rd (seatEpoch (!b)) := by
    rintro t (rfl | rfl)
    · exact ⟨State.rd_wr_ne _ _ (by cases b <;> decide), State.rd_wr_ne _ _ (by cases b <;> decide)⟩
    · exact ⟨(State.rd_wr_ne _ _ (by cases b <;> decide)).trans (State.rd_wr_ne _ _ (by cases b <;> decide)),
        (State.rd_wr_ne _ _ (by cases b <;> decide)).trans (State.rd_wr_ne _ _ (by cases b <;> decide))⟩
  unfold State.seatMarked
  split
  · exact hw (.inr rfl)
  · exact hw (.inl rfl)

variable (hr : s.regsOk = true)
include hr

theorem State.seatTo_self (hn : n < 16) : (s.seatTo b n).seatIs b = n := by
  have hw : (s.wr (seatSt b) n).rd (seatSt b) = n := by
    rw [State.rd_wr_self hr]
    exact Nat.mod_eq_of_lt (by cases b <;> exact hn)
  refine ((s.seatTo_place b n).rd (seatSt b) (by cases b <;> decide)).trans ?_
  unfold State.seatMarked
  split
  · exact (State.rd_wr_ne _ _ (by cases b <;> decide)).trans hw
  · exact hw

theorem State.seatTo_epoch : (s.seatTo b n).rd (seatEpoch b) =
    if n ≠ s.seatIs b ∧ (s.seatIs b = 3 ∨ s.seatIs b = 4 ∨ n = 6) then (s.rd (seatEpoch b) + 1) % 256 else s.rd (seatEpoch b) := by
  have hw : (s.wr (seatSt b) n).rd (seatEpoch b) = s.rd (seatEpoch b) := State.rd_wr_ne _ _ (by cases b <;> decide)
  refine ((s.seatTo_place b n).rd (seatEpoch b) (by cases b <;> decide)).trans ?_
  unfold State.seatMarked
  split
  · rw [State.seatBump, State.rd_wr_self (s.wr_regsOk hr _ _), hw]
    cases b <;> rfl
  · exact hw

theorem State.seatTo_regsOk (n : Nat) : (s.seatTo b n).regsOk = true := (s.seatTo_kept b n).regsOk hr

end Place

end Sys2Proof.Machine
end

section
/-! SUPPORT. Management seats (R501 to R519): outputs, evidence and takeover, self-check and rollback, checkpoints, heartbeats, return and restart. -/
namespace Sys2Proof.Machine
open Sys2Proof.Claims

theorem SeatsKept.beside {s t : State} (h : SeatsKept calmKey s t) : SeatsKept besideSeatStat s t :=
  h.mono fun k hk => by simp only [calmKey, besideSeatStat] at hk ⊢; omega

/-! ### Roles -/

section Roles
variable {s : State} {a : Bool}

theorem State.inRole_eq (s : State) (n : Nat) : s.inRole n =
    if s.seatRole false = n then some false else if s.seatRole true = n then some true else none := by
  unfold State.inRole
  by_cases h0 : s.seatRole false = n
  · simp [h0]
  · by_cases h1 : s.seatRole true = n <;> simp [h0, h1]

/-- The one seat in a role. -/
theorem State.inRole_one {n : Nat} (h : s.seatRole a = n) (ho : s.seatRole (!a) ≠ n) : s.inRole n = some a := by
  rw [State.inRole_eq]
  cases a
  · exact if_pos h
  · exact (if_neg ho).trans (if_pos h)

theorem State.inRole_none {n : Nat} (h : s.seatRole a ≠ n) (ho : s.seatRole (!a) ≠ n) : s.inRole n = none := by
  rw [State.inRole_eq]
  cases a
  · exact (if_neg h).trans (if_neg ho)
  · exact (if_neg ho).trans (if_neg h)

theorem inStep_roles (h : InStep s a) : s.seatRole a = 4 ∧ s.seatRole (!a) = 3 := by
  obtain ⟨ha, hb, _⟩ := h
  exact ⟨(State.seatRole_of_ne (by omega)).trans ha, (State.seatRole_of_ne (by omega)).trans hb⟩

theorem inStep_inRole (h : InStep s a) : s.inRole 4 = some a ∧ s.inRole 3 = some (!a) := by
  obtain ⟨ha, hb⟩ := inStep_roles h
  exact ⟨State.inRole_one ha (by omega), State.inRole_one hb (by rw [Bool.not_not]; omega)⟩

end Roles

/-! ### Inputs and outputs (R501 to R503, R516) -/

theorem seatInput_inStep {s : State} {a : Bool} (h : InStep s a) (i : SeatIn) :
    ((s.seatInput i).seat a).inputs = (s.seat a).inputs ++ [(s.clk, i)] ∧
    ((s.seatInput i).seat (!a)).inputs = (s.seat (!a)).inputs ++ [(s.clk + 2, i)] ∧ (s.seatInput i).res.journal = s.res.journal ++ [i] := by
  obtain ⟨ha, hb, _⟩ := h
  unfold State.seatInput
  cases a
  · rw [if_pos (.inl ha)]
    simp [State.seat, Seat.take, ha, show s.seatIs true = 3 from hb]
  · rw [if_pos (.inr ha)]
    simp [State.seat, Seat.take, ha, show s.seatIs false = 3 from hb]

theorem exec_seatOutput_held {s : State} {b : Bool} {seq v : Nat} {power : Option (Bool × Bool)} (h6 : s.seatIs b ≠ 6)
    (he : s.rd (seatEpoch b) < 256) (hc : s.res.checking = none) (hrole : s.seatRole b = 3 ∨ s.seatRole b = 4) (hseq : seq < 2 ^ 32)
    (h0 : 0 < s.outAhead seq) (hfar : s.outAhead seq < 2 ^ 31) (hnew : ∀ e ∈ (s.seat b).held, e.1 ≠ seq) :
    exec (.seatOutput b (s.rd (seatEpoch b)) seq v power) s =
      .next (s.setSeat b { s.seat b with held := (s.seat b).held ++ [(seq, seatOut v power)] }).release2 := by
  show execSeatOutput b (s.rd (seatEpoch b)) seq v power s = _
  have hheld : (s.seat b).held.any (fun e => e.1 == seq) = false := by simpa using hnew
  unfold execSeatOutput
  rw [if_neg (by rw [Nat.mod_eq_of_lt he]; simp [h6]), if_neg (by rw [hc]; simp; omega)]
  simp only [Nat.mod_eq_of_lt hseq, hheld]
  rw [if_neg (by simp; omega)]

/-- An output released: the boundary drops it from both seats, it is the last one released, and it acts. -/
def State.released (s : State) (q : Nat) (v : SeatOut) : State :=
  let drop := fun (s : State) (b : Bool) => s.setSeat b { s.seat b with held := (s.seat b).held.filter (fun e => e.1 != q) }
  (drop (drop { s with res := { s.res with lastOut := q, lastVal := v } } false) true).seatActs v

theorem State.released_last (s : State) (q : Nat) (v : SeatOut) : (s.released q v).res.lastOut = q ∧ (s.released q v).res.lastVal = v := by
  cases v with
  | word n => exact ⟨rfl, rfl⟩
  | fdPower on r =>
    unfold State.released State.seatActs State.sbPut
    dsimp only
    split_ifs <;> exact ⟨rfl, rfl⟩

section Release
variable {s : State} {a : Bool} (ha : s.inRole 4 = some a)
include ha

theorem releaseOut_none (hf : (s.seat a).held.find? (fun e => s.outAhead e.1 == 1) = none) : State.releaseOut 1 s = s := by
  simp only [State.releaseOut, ha, hf]

section Next
variable {q : Nat} {v : SeatOut} (hf : (s.seat a).held.find? (fun e => s.outAhead e.1 == 1) = some (q, v))
include hf

/-- With no STANDBY seat the ACTIVE one's output is released (R502). -/
theorem releaseOut_alone (hb : s.inRole 3 = none) : State.releaseOut 1 s = s.released q v := by
  simp only [State.releaseOut, ha, hf, hb]
  rfl

theorem releaseOut_both {b : Bool} (hb : s.inRole 3 = some b) : State.releaseOut 1 s =
    match (s.seat b).held.find? (fun e => e.1 == q) with
    | none => s
    | some (_, w) => if w = v then s.released q v else { s.inc SEAT_MISMATCH.count with res := { s.res with checking := some s.clk } } := by
  simp only [State.releaseOut, ha, hf, hb]
  rfl

end Next

/-- What both seats release stands one above the last output, with one value. -/
theorem releaseOut_equal {b : Bool} (hb : s.inRole 3 = some b) (hne : (State.releaseOut 1 s).res.lastOut ≠ s.res.lastOut) :
    let t := State.releaseOut 1 s
    s.outAhead t.res.lastOut = 1 ∧ (t.res.lastOut, t.res.lastVal) ∈ (s.seat a).held ∧ (t.res.lastOut, t.res.lastVal) ∈ (s.seat b).held := by
  intro t
  cases hf : (s.seat a).held.find? (fun e => s.outAhead e.1 == 1) with
  | none => exact absurd (congrArg (fun t : State => t.res.lastOut) (releaseOut_none ha hf)) hne
  | some e =>
    obtain ⟨q, v⟩ := e
    have hboth := releaseOut_both ha hf hb
    cases hg : (s.seat b).held.find? (fun e => e.1 == q) with
    | none => rw [hg] at hboth; exact absurd (congrArg (fun t : State => t.res.lastOut) hboth) hne
    | some e =>
      obtain ⟨q', w⟩ := e
      rw [hg] at hboth
      by_cases hw : w = v
      · have ht : t = s.released q v := hboth.trans (if_pos hw)
        obtain ⟨hq, hv⟩ := s.released_last q v
        have hq' : q' = q := by simpa using List.find?_some hg
        rw [ht, hq, hv]
        exact ⟨by simpa using List.find?_some hf, List.mem_of_find?_eq_some hf, by rw [← hq', ← hw]; exact List.mem_of_find?_eq_some hg⟩
      · exact absurd (congrArg (fun t : State => t.res.lastOut) (hboth.trans (if_neg hw))) hne

end Release

/-! ### Evidence and takeover (R504 to R506) -/

/-- The STANDBY seat takes over: it is ACTIVE, and nothing else of the seats' registers changes. -/
theorem takeover_standby {s : State} {a : Bool} (hr : s.regsOk = true) (hb : s.seatIs (!a) = 3) :
    SeatsKept besideSeatStat s (s.takeover a) ∧ (s.takeover a).seatIs (!a) = 4 ∧ (s.takeover a).seatIs a = s.seatIs a ∧
      (s.takeover a).rd (seatEpoch a) = s.rd (seatEpoch a) := by
  set u := s.setSeat a { s.seat a with held := [] } with hu
  have hur : u.regsOk = true := (s.regsOk_setSeat a _).trans hr
  have hsu : SeatsKept besideSeatStat s u := (SeatsKept.refl _ s).setSeat a rfl
  have hrole : s.seatRole (!a) = 3 := (State.seatRole_of_ne (by omega)).trans hb
  have hub : u.seatIs (!a) = 3 := (s.seatIs_setSeat a _ _).trans hb
  have ht : s.takeover a = ((((u.seatTo (!a) 4).inc SEAT_TAKEOVER.count).post 0x0C01 [b2n (!a), (u.seatTo (!a) 4).rd (seatEvid a)])).release2 := by
    unfold State.takeover
    rw [if_pos hrole]
    exact congrArg (fun v : State => ((v.inc SEAT_TAKEOVER.count).post 0x0C01 [b2n (!a), v.rd (seatEvid a)]).release2)
      (if_neg (show ¬ u.seatIs (!a) = 7 from by omega))
  have hk : SeatsKept calmKey (u.seatTo (!a) 4) (s.takeover a) := by
    rw [ht]
    exact (((SeatsKept.refl _ _).inc (by decide)).posted (by decide) _).release2
  obtain ⟨hother, hepoch⟩ := u.seatTo_other (!a) 4
  rw [Bool.not_not] at hother hepoch
  refine ⟨(hsu.trans (u.seatTo_kept (!a) 4)).trans hk.beside, (hk.seatIs _).trans (State.seatTo_self _ hur (by decide)),
    (hk.seatIs a).trans (hother.trans (s.seatIs_setSeat a _ a)), (hk.seatEpoch a).trans (hepoch.trans (s.rd_setSeat a _ _))⟩

/-- A seat that goes out of service: OFFLINE with its feed, else RESIGNED. -/
def State.seatLeft (s : State) (b feed : Bool) (cause : Nat) : State :=
  let s := s.setSeat b { s.seat b with held := [], detached := 0, feedLost := feed }
  let s := if feed then s.seatTo b 0 else (s.seatTo b 6).resign 1 (b2n b) 0 cause
  { s with res := { s.res with checking := none, handover := false } }

section Left
variable (s : State) (b feed : Bool) (cause : Nat)

theorem resign_kept (t : State) : SeatsKept calmKey t (t.resign 1 (b2n b) 0 cause) := SeatsKept.resign (.refl _ _) 1 (b2n b) 0 cause

/-- A seat that leaves changes its state and its epoch, and all else as that leaves it. -/
theorem seatLeft_eq : ∃ x : Seat, ∃ t, SeatsKept calmKey ((s.setSeat b x).seatTo b (if feed then 0 else 6)) t ∧
    s.seatLeft b feed cause = { t with res := { t.res with checking := none, handover := false } } := by
  cases feed with
  | true => exact ⟨_, _, .refl _ _, rfl⟩
  | false => exact ⟨_, _, resign_kept b cause _, rfl⟩

/-- The fields after it. -/
theorem seatLeft_fields : ∃ x : Seat, KeepsFields calmKey ((s.setSeat b x).seatTo b (if feed then 0 else 6)) (s.seatLeft b feed cause) ∧
    (s.seatLeft b feed cause).upd = s.upd := by
  obtain ⟨x, t, ht, he⟩ := seatLeft_eq s b feed cause
  have hf : KeepsFields calmKey t (s.seatLeft b feed cause) := he ▸ (KeepsFields.refl _ t).ofRegs rfl
  have hu : (s.seatLeft b feed cause).upd = t.upd := he ▸ rfl
  exact ⟨x, ht.fields.trans hf, hu.trans (ht.upd.trans ((State.seatTo_kept _ b _).upd.trans (s.upd_setSeat b x)))⟩

theorem calmKey_seatSt (b : Bool) : calmKey (seatSt b).key := by cases b <;> decide

theorem calmKey_seatEpoch (b : Bool) : calmKey (seatEpoch b).key := by cases b <;> decide

theorem seatLeft_kept : KeepsFields besideSeatStat s (s.seatLeft b feed cause) := by
  obtain ⟨x, hf, _⟩ := seatLeft_fields s b feed cause
  have hs : KeepsFields besideSeatStat s (s.setSeat b x) := (KeepsFields.refl _ s).ofRegs (s.regs_setSeat b x)
  exact (hs.trans (State.seatTo_kept _ b _).fields).trans (hf.mono fun k hk => by simp only [calmKey, besideSeatStat] at hk ⊢; omega)

theorem seatLeft_other : (s.seatLeft b feed cause).seatIs (!b) = s.seatIs (!b) := by
  obtain ⟨x, hf, _⟩ := seatLeft_fields s b feed cause
  exact (hf.rd _ (calmKey_seatSt _)).trans ((State.seatTo_other _ b _).1.trans (s.seatIs_setSeat b x _))

variable {s b}

theorem seatLeft_self (hr : s.regsOk = true) : (s.seatLeft b feed cause).seatIs b = (if feed then 0 else 6) ∧
    (s.seatIs b = 4 → (s.seatLeft b feed cause).rd (seatEpoch b) = (s.rd (seatEpoch b) + 1) % 256) := by
  obtain ⟨x, hf, _⟩ := seatLeft_fields s b feed cause
  have hur : (s.setSeat b x).regsOk = true := (s.regsOk_setSeat b x).trans hr
  refine ⟨(hf.rd _ (calmKey_seatSt b)).trans (State.seatTo_self b hur (by split <;> decide)), fun h4 => (hf.rd _ (calmKey_seatEpoch b)).trans ?_⟩
  rw [State.seatTo_epoch b hur, State.seatIs_setSeat, State.rd_setSeat, h4, if_pos ⟨by split <;> decide, .inr (.inl rfl)⟩]

end Left

/-- Without castling, a seat that leaves hands over where it was ACTIVE. -/
theorem seatOut_eq {s : State} {b feed : Bool} (cause : Nat) (hs : s.seatIs b ≠ 6) (hf : feed = true → s.seatIs b ≠ 0) :
    s.seatOut b feed cause = (if s.seatRole b == 4 then (s.seatLeft b feed cause).takeover b else (s.seatLeft b feed cause).release2).castleFault b
      (s.seatRole b == 4) := by
  unfold State.seatOut
  rw [if_neg (by simp only [not_or, not_and]; exact ⟨hs, hf⟩)]
  rfl

theorem castleFault_none {s : State} (h : s.upd.castle = none) (b active : Bool) : s.castleFault b active = s := by
  simp only [State.castleFault, h]

/-- The ACTIVE seat goes while the other is STANDBY. -/
theorem seatOut_inStep {s : State} {a : Bool} (feed : Bool) (cause : Nat) (hr : s.regsOk = true) (h : InStep s a) :
    let t := s.seatOut a feed cause
    t.seatIs a = (if feed then 0 else 6) ∧ t.seatIs (!a) = 4 ∧ t.rd (seatEpoch a) = (s.rd (seatEpoch a) + 1) % 256 := by
  intro t
  obtain ⟨h4, h3, hcastle⟩ := h
  have hkept := seatLeft_kept s a feed cause
  obtain ⟨_, _, hupd⟩ := seatLeft_fields s a feed cause
  obtain ⟨hself, hepoch⟩ := seatLeft_self feed cause hr (b := a)
  obtain ⟨htake, hstandby, hleft, htepoch⟩ := takeover_standby (a := a) (hkept.regsOk hr) ((seatLeft_other s a feed cause).trans h3)
  have ht : t = (s.seatLeft a feed cause).takeover a := by
    refine (seatOut_eq cause (by omega) fun _ => by omega).trans ?_
    rw [State.seatRole_of_ne (by omega), h4]
    exact castleFault_none (by rw [beq_self_eq_true, if_pos rfl, htake.upd, hupd, hcastle]) _ _
  rw [ht]
  exact ⟨hleft.trans hself, hstandby, htepoch.trans (hepoch h4)⟩

end Sys2Proof.Machine
end

section
/-! SUPPORT. The seats' self-check and rollback, checkpoints, heartbeats, return and restart (R505 to R519). -/
namespace Sys2Proof.Machine
open Sys2Proof.Claims

/-! ### Self-check and rollback (R505, R508 to R510) -/

theorem exec_selfcheckDone_same {s : State} {x y : Bool × Bool × Bool} (hc : s.res.checking ≠ none) (h : checkFails x = checkFails y) :
    exec (.selfcheckDone x y) s = .next s.rollback := by
  show execSelfcheckDone x y s = _
  unfold execSelfcheckDone
  dsimp only
  rw [if_neg (by simpa using hc), if_pos (by simp [h])]

theorem exec_selfcheckDone_named {s : State} {x y : Bool × Bool × Bool} (hc : s.res.checking ≠ none) (h : checkFails x ≠ checkFails y) :
    exec (.selfcheckDone x y) s = .next ((latched s (checkFails y) 3).seatOut (checkFails y) false 1) := by
  show execSelfcheckDone x y s = _
  unfold execSelfcheckDone
  dsimp only
  rw [if_neg (by simpa using hc), if_neg (by simpa using h)]
  rfl

theorem checkFails_iff (fired err caught : Bool) : checkFails (fired, err, caught) = true ↔ fired = true ∨ err = true ∨ caught = false := by
  cases fired <;> cases err <;> cases caught <;> decide

/-- A state in which the seats stand in `x` and `y`, `a` first. -/
def Stand (s : State) (a : Bool) (x y : Nat) : Prop := s.seatIs a = x ∧ s.seatIs (!a) = y

section Stand
variable {s t : State} {a : Bool} {x y : Nat}

theorem Stand.kept (h : Stand s a x y) (hk : SeatsKept calmKey s t) : Stand t a x y := ⟨(hk.seatIs a).trans h.1, (hk.seatIs _).trans h.2⟩

theorem Stand.setSeat (h : Stand s a x y) (b : Bool) (z : Seat) : Stand (s.setSeat b z) a x y :=
  ⟨(s.seatIs_setSeat b z a).trans h.1, (s.seatIs_setSeat b z _).trans h.2⟩

theorem Stand.toFirst (h : Stand s a x y) (hr : s.regsOk = true) {n : Nat} (hn : n < 16) : Stand (s.seatTo a n) a n y :=
  ⟨State.seatTo_self a hr hn, (s.seatTo_other a n).1.trans h.2⟩

theorem Stand.swap (h : Stand s a x y) : Stand s (!a) y x := ⟨h.2, (congrArg s.seatIs (Bool.not_not a)).trans h.1⟩

theorem Stand.toSecond (h : Stand s a x y) (hr : s.regsOk = true) {n : Nat} (hn : n < 16) : Stand (s.seatTo (!a) n) a x n := by
  have := (h.swap.toFirst hr hn).swap
  rwa [Bool.not_not] at this

theorem Stand.roles (h : Stand s a x y) (hx : x ≠ 7) (hy : y ≠ 7) : s.seatRole a = x ∧ s.seatRole (!a) = y := by
  obtain ⟨h1, h2⟩ := h
  exact ⟨(State.seatRole_of_ne (by omega)).trans h1, (State.seatRole_of_ne (by omega)).trans h2⟩

theorem Stand.inRole (h : Stand s a x y) (hx : x ≠ 7) (hy : y ≠ 7) (hxy : x ≠ y) : s.inRole x = some a ∧ s.inRole y = some (!a) := by
  obtain ⟨h1, h2⟩ := h.roles hx hy
  exact ⟨State.inRole_one h1 (by omega), State.inRole_one h2 (by rw [Bool.not_not]; omega)⟩

theorem Stand.inRole_none (h : Stand s a x y) (hx : x ≠ 7) (hy : y ≠ 7) {n : Nat} (hnx : n ≠ x) (hny : n ≠ y) : s.inRole n = none := by
  obtain ⟨h1, h2⟩ := h.roles hx hy
  exact State.inRole_none (a := a) (by omega) (by omega)

/-- The one seat in a state, as a search through both finds it. -/
theorem Stand.find_second (h : Stand s a x y) (hxy : x ≠ y) : [false, true].find? (fun b => s.seatIs b == y) = some (!a) := by
  obtain ⟨h1, h2⟩ := h
  cases a <;> simp_all

theorem Stand.find_none (h : Stand s a x y) {n : Nat} (hx : x ≠ n) (hy : y ≠ n) : [false, true].find? (fun b => s.seatIs b == n) = none := by
  obtain ⟨h1, h2⟩ := h
  cases a <;> simp_all

/-- A seat starts to boot. -/
theorem Stand.load (h : Stand s a x y) (hr : s.regsOk = true) (trial : Bool) : Stand (s.seatLoad a trial) a 1 y :=
  (h.setSeat a _).toFirst ((s.regsOk_setSeat a _).trans hr) (by decide)

theorem Stand.takeover (h : Stand s a x 3) (hr : s.regsOk = true) : Stand (s.takeover a) a x 4 := by
  obtain ⟨_, hstandby, hfailed, _⟩ := takeover_standby hr h.2
  exact ⟨hfailed.trans h.1, hstandby⟩

end Stand

theorem seatLoad_regsOk {s : State} (hr : s.regsOk = true) (b trial : Bool) : (s.seatLoad b trial).regsOk = true :=
  State.seatTo_regsOk b ((s.regsOk_setSeat b _).trans hr) 1

/-- The begins of the rollbacks within the last second (R510). -/
def State.recentRollbacks (s : State) : List Nat := s.res.rollbacks.filter (fun t => !s.elapsed t (ms 1000))

section Rollback
variable {s : State} {a : Bool} (hr : s.regsOk = true) (h : InStep s a)
include hr h

/-- Both seats roll back, each with the role that it had. -/
theorem rollback_both (hn : s.recentRollbacks.length < 2) :
    Stand s.rollback a 7 7 ∧ (s.rollback.seat a).role = 4 ∧ (s.rollback.seat (!a)).role = 3 := by
  obtain ⟨h4, h3⟩ := inStep_inRole h
  set s1 : State := { s with res := { s.res with checking := none, rollbacks := s.clk :: s.recentRollbacks } } with hs1
  set s2 := (s1.setSeat a { s1.seat a with role := 4, held := [] }).seatTo a 7 with hs2
  set s3 := (s2.setSeat (!a) { s2.seat (!a) with role := 3, held := [] }).seatTo (!a) 7 with hs3
  have hroll : s.rollback = s3 := by
    have h4' : State.inRole { s with res := { s.res with checking := none } } 4 = some a := h4
    have h3' : State.inRole { s with res := { s.res with checking := none } } 3 = some (!a) := h3
    unfold State.rollback
    simp only [h4', h3']
    exact if_neg (Nat.not_le.mpr hn)
  have hr1 : (s1.setSeat a { s1.seat a with role := 4, held := [] }).regsOk = true := (s1.regsOk_setSeat a _).trans hr
  have hr2 : s2.regsOk = true := State.seatTo_regsOk a hr1 7
  have hr3 : (s2.setSeat (!a) { s2.seat (!a) with role := 3, held := [] }).regsOk = true := (s2.regsOk_setSeat _ _).trans hr2
  have hst : Stand s a 4 3 := ⟨h.1, h.2.1⟩
  have hst1 : Stand s1 a 4 3 := hst
  have hst2 : Stand s2 a 7 3 := (hst1.setSeat a _).toFirst hr1 (by decide)
  rw [hroll]
  refine ⟨(hst2.setSeat (!a) _).toSecond hr3 (by decide), ?_, ?_⟩
  · rw [hs3, State.seat_seatTo, State.seat_not_setSeat, hs2, State.seat_seatTo, State.seat_setSeat_self]
  · rw [hs3, State.seat_seatTo, State.seat_setSeat_self]

/-- The third rollback within a second is not made: the STANDBY seat detaches. -/
theorem rollback_limit (hn : 2 ≤ s.recentRollbacks.length) :
    Stand s.rollback a 4 5 ∧ (s.rollback.seat (!a)).detached = 1 := by
  obtain ⟨h4, h3⟩ := inStep_inRole h
  set s1 : State := { s with res := { s.res with checking := none } } with hs1
  set s2 := s1.setSeat (!a) { s1.seat (!a) with detached := 1, held := [] } with hs2
  have hroll : s.rollback = ((s2.seatTo (!a) 5).post 0x0C04 [b2n (!a), 1]).release2 := by
    have h4' : State.inRole { s with res := { s.res with checking := none } } 4 = some a := h4
    have h3' : State.inRole { s with res := { s.res with checking := none } } 3 = some (!a) := h3
    unfold State.rollback
    simp only [h4', h3']
    exact if_pos hn
  have hr2 : s2.regsOk = true := (s1.regsOk_setSeat _ _).trans hr
  have hst : Stand s1 a 4 3 := ⟨h.1, h.2.1⟩
  have hk : SeatsKept calmKey (s2.seatTo (!a) 5) s.rollback := by
    rw [hroll]
    exact ((SeatsKept.refl _ _).posted (by decide) _).release2
  refine ⟨((hst.setSeat (!a) _).toSecond hr2 (by decide)).kept hk, (congrArg Seat.detached (hk.seat (!a))).trans ?_⟩
  rw [State.seat_seatTo, hs2, State.seat_setSeat_self]
  rfl

end Rollback

/-- A seat that rolled back is given the journal again and takes its former role. -/
def State.seatBack (s : State) (b : Bool) : State := (s.replayJournal b).seatTo b (s.seat b).role

theorem Stand.back {s : State} {b : Bool} {x y : Nat} (h : Stand s b x y) (hr : s.regsOk = true) (hn : (s.seat b).role < 16) :
    Stand (s.seatBack b) b (s.seat b).role y ∧ (s.seatBack b).regsOk = true ∧ (s.seatBack b).seat (!b) = s.seat (!b) := by
  have hr1 : (s.replayJournal b).regsOk = true := (s.regsOk_setSeat b _).trans hr
  exact ⟨(h.setSeat b _).toFirst hr1 hn, State.seatTo_regsOk b hr1 _, (State.seat_seatTo _ b _ _).trans (s.seat_setSeat_not b _)⟩

/-- The end of a rollback returns both seats to their roles (R509). -/
theorem exec_rollbackDone {s : State} (hr : s.regsOk = true) (h : Stand s false 7 7) (ha : (s.seat false).role < 16) (hb : (s.seat true).role < 16) :
    ∃ t, exec .rollbackDone s = .next t ∧ Stand t false (s.seat false).role (s.seat true).role := by
  set u := (s.seatBack false).seatBack true with hu
  have hexec : exec .rollbackDone s = .next (((u.inc SEAT_ROLLBACK.count).post 0x0C02
      [(u.res.rollbacks.filter (fun t => !u.elapsed t (ms 1000))).length]).release2) := by
    show execRollbackDone s = _
    unfold execRollbackDone
    have hf : [false, true].filter (fun b => s.seatIs b == 7) = [false, true] := by
      simp [h.1, show s.seatIs true = 7 from h.2]
    rw [hf]
    rfl
  obtain ⟨h1, hr1, hother⟩ := h.back hr ha
  have hother : (s.seatBack false).seat true = s.seat true := hother
  obtain ⟨h2, _⟩ := h1.swap.back hr1 (by rw [Bool.not_false, hother]; exact hb)
  refine ⟨_, hexec, Stand.kept ?_ (((SeatsKept.refl _ u).inc (by decide)).posted (by decide) _).release2⟩
  rw [← hother]
  exact h2.swap

/-! ### Checkpoints (R508, R514, R515) -/

/-- The state after a commit, before a hand-over and an entry into step. -/
def State.committed (s : State) : State :=
  { s with res := { s.res with ckptAt := s.clk, journal := [], a := { s.res.a with inputs := [] }, b := { s.res.b with inputs := [] } } }

theorem exec_checkpointCommit {s : State} {a : Bool} {copied : Bool} (hc : s.res.checking = none) (h4 : s.seatIs a = 4)
    (hp : Past s s.res.ckptAt (s.rd SEAT_CKPT.period_us * 1000)) : exec (.checkpointCommit false copied true) s =
    match [false, true].find? (fun b => s.committed.handOver.seatIs b == 2) with
    | some b => .next (if copied ∧ s.committed.handOver.upd.castle.isNone ∧ s.committed.handOver.bit GEN_BOOTSTAT.ready
        then s.committed.handOver.enterStep b else s.committed.handOver)
    | none => .next s.committed.handOver := by
  show execCheckpointCommit false copied true s = _
  unfold execCheckpointCommit
  exact if_pos ⟨.inr (State.elapsed_of_le hp), by simp [hc], by cases a <;> simp [h4], .inl rfl⟩

/-- A seat enters step: it is STANDBY, and the other stays. -/
theorem enterStep_stand {s : State} {a : Bool} {x y : Nat} (hr : s.regsOk = true) (h : Stand s a x y) :
    Stand (s.enterStep (!a)) a x 3 ∧ (s.enterStep (!a)).res.bare.ckptAt = s.res.ckptAt := by
  set s1 : State := { s with res := { s.res with a := { s.res.a with heardAt := s.clk }, b := { s.res.b with heardAt := s.clk } } } with hs1
  set s2 := s1.setSeat (!a) { s1.seat (!a) with heardAt := s.clk, held := [] } with hs2
  have hr2 : s2.regsOk = true := (s1.regsOk_setSeat _ _).trans hr
  have h1 : Stand s1 a x y := h
  have hk : SeatsKept calmKey (s2.seatTo (!a) 3) (s.enterStep (!a)) := (SeatsKept.refl _ _).posted (by decide) _
  refine ⟨((h1.setSeat (!a) _).toSecond hr2 (by decide)).kept hk, ?_⟩
  rw [congrArg Res.ckptAt (hk.res.trans (State.seatTo_kept s2 (!a) 3).res)]
  cases a <;> rfl

/-- A RESYNC seat whose copy is complete enters step at the commit. -/
theorem exec_checkpointCommit_copied {s : State} {a : Bool} (hr : s.regsOk = true) (hc : s.res.checking = none) (hs : Stand s a 4 2)
    (hcastle : s.upd.castle = none) (hp : Past s s.res.ckptAt (s.rd SEAT_CKPT.period_us * 1000)) (hready : s.bit GEN_BOOTSTAT.ready = true) :
    ∃ t, exec (.checkpointCommit false true true) s = .next t ∧ t.seatIs (!a) = 3 ∧ t.seatIs a = 4 ∧ t.res.ckptAt = s.clk := by
  have hs' : Stand s.committed a 4 2 := hs
  have hover : s.committed.handOver = s.committed := by
    unfold State.handOver
    rw [hs'.inRole_none (n := 3) (by decide) (by decide) (by decide) (by decide), (hs'.inRole (by decide) (by decide) (by decide)).1]
  obtain ⟨hstand, hckpt⟩ := enterStep_stand (s := s.committed) (a := a) hr hs'
  refine ⟨s.committed.enterStep (!a), ?_, hstand.2, hstand.1, hckpt⟩
  rw [exec_checkpointCommit hc hs.1 hp, hover, hs'.find_second (by decide)]
  exact congrArg Host.Outcome.next (if_pos ⟨rfl, by rw [show s.committed.upd.castle = none from hcastle]; rfl, hready⟩)

/-- The planned hand-over at the commit. -/
theorem exec_checkpointCommit_handover {s : State} {a : Bool} (hr : s.regsOk = true) (hc : s.res.checking = none) (hs : Stand s a 4 3)
    (hp : Past s s.res.ckptAt (s.rd SEAT_CKPT.period_us * 1000)) (hh : s.res.handover = true) :
    ∃ t, exec (.checkpointCommit false false true) s = .next t ∧ t.seatIs a = 1 ∧ t.seatIs (!a) = 4 ∧ t.res.handover = false := by
  set s1 : State := { s.committed with res := { s.committed.res with handover := false } } with hs1
  have hs' : Stand s.committed a 4 3 := hs
  have hstand1 : Stand s1 a 4 3 := hs
  have hr1 : s1.regsOk = true := hr
  obtain ⟨h4, h3⟩ := hs'.inRole (by decide) (by decide) (by decide)
  obtain ⟨trial, hboot⟩ : ∃ trial, s1.seatBoot a = s1.seatLoad a trial := ⟨_, rfl⟩
  have hover : s.committed.handOver = ((s1.seatLoad a trial).takeover a).post 0x0C06 [b2n a, 2] := by
    rw [← hboot]
    unfold State.handOver
    simp only [h4, h3]
    exact if_pos hh
  have hboots : Stand (s1.seatLoad a trial) a 1 3 := hstand1.load hr1 trial
  obtain ⟨htake, _⟩ := takeover_standby (seatLoad_regsOk hr1 a trial) hboots.2
  have hpost : SeatsKept calmKey ((s1.seatLoad a trial).takeover a) s.committed.handOver := hover ▸ (SeatsKept.refl _ _).posted (by decide) _
  have hend : Stand s.committed.handOver a 1 4 := (hboots.takeover (seatLoad_regsOk hr1 a trial)).kept hpost
  refine ⟨s.committed.handOver, ?_, hend.1, hend.2, ?_⟩
  · rw [exec_checkpointCommit hc hs.1 hp, hend.find_none (by decide) (by decide)]
  · refine (congrArg Res.handover (hpost.res.trans (htake.res.trans (State.seatTo_kept _ a 1).res))).trans ?_
    cases a <;> rfl

end Sys2Proof.Machine
end

section
/-! SUPPORT. The seats' heartbeats, the wedge, return and restart, and the clearing of resigned units (R511 to R519). -/
namespace Sys2Proof.Machine
open Sys2Proof.Claims

/-! ### Heartbeats (R511, R512) -/

/-- A seat has sent its heartbeat, and the island has heard it. -/
def State.beat (s : State) (b : Bool) : State :=
  let s := s.setSeat b { s.seat b with sentAt := s.clk }
  { s with res := { s.res with islandAt := s.clk } }

section Heartbeat
variable {s : State} {b : Bool} (hruns : s.seatRuns b = true) (hp : Past s (s.seat b).sentAt (s.rd SEAT_CFG.hb_us * 1000 / 5))
include hruns hp

theorem exec_seatHeartbeatSend_unheard : exec (.seatHeartbeatSend b false) s = .next (s.beat b) := by
  show execSeatHeartbeatSend b false s = _
  unfold execSeatHeartbeatSend
  exact if_pos ⟨hruns, State.elapsed_of_le hp⟩

theorem exec_seatHeartbeatSend_heard : ∃ since, exec (.seatHeartbeatSend b true) s =
    .next (let u := (s.beat b).setSeat (!b) { (s.beat b).seat (!b) with heardAt := (s.beat b).clk }
      { u with res := { u.res with bothSince := since } }) := by
  show ∃ since, execSeatHeartbeatSend b true s = _
  unfold execSeatHeartbeatSend
  exact ⟨_, if_pos ⟨hruns, State.elapsed_of_le hp⟩⟩

end Heartbeat

theorem exec_seatHeartbeatLoss {s : State} {a b : Bool} (h : InStep s a) (hp : Past s (s.seat b).heardAt (s.rd SEAT_CFG.hb_us * 1000)) :
    exec (.seatHeartbeatLoss b) s =
      if s.wedgeDue then .next (s.inc SEAT_STALEMATE.count).wedge
      else if s.rd (seatEvid a) ≠ 0 then .next (s.seatOut a (s.rd (seatEvid a) == 2) 1)
      else
        let u := (s.setSeat (!a) { s.seat (!a) with detached := 2, held := [] }).seatTo (!a) 5
        let u : State := { u with res := { u.res with checking := none, bothSince := none } }
        .next (((u.inc SEAT_STALEMATE.count).post 0x0C03 [b2n (!a)]).release2) := by
  obtain ⟨h4, h3⟩ := inStep_inRole h
  show execSeatHeartbeatLoss b s = _
  simp only [execSeatHeartbeatLoss, h4, h3]
  exact if_pos (State.elapsed_of_le hp)

/-- Without evidence the STANDBY seat detaches. -/
theorem exec_seatHeartbeatLoss_detach {s : State} {a b : Bool} (hr : s.regsOk = true) (h : InStep s a)
    (hp : Past s (s.seat b).heardAt (s.rd SEAT_CFG.hb_us * 1000)) (hw : s.wedgeDue = false) (he : s.rd (seatEvid a) = 0) :
    ∃ t, exec (.seatHeartbeatLoss b) s = .next t ∧ t.seatIs (!a) = 5 ∧ (t.seat (!a)).detached = 2 ∧ t.seatIs a = 4 := by
  set u := (s.setSeat (!a) { s.seat (!a) with detached := 2, held := [] }).seatTo (!a) 5 with hu
  set v : State := { u with res := { u.res with checking := none, bothSince := none } } with hv
  have hstand : Stand s a 4 3 := ⟨h.1, h.2.1⟩
  have hsu : Stand v a 4 5 := (hstand.setSeat (!a) _).toSecond ((s.regsOk_setSeat _ _).trans hr) (by decide)
  have hk : SeatsKept calmKey v (((v.inc SEAT_STALEMATE.count).post 0x0C03 [b2n (!a)]).release2) :=
    (((SeatsKept.refl _ v).inc (by decide)).posted (by decide) _).release2
  refine ⟨_, (exec_seatHeartbeatLoss h hp).trans ?_, (hsu.kept hk).2, (congrArg Seat.detached (hk.seat (!a))).trans ?_, (hsu.kept hk).1⟩
  · rw [hw, if_neg (by decide), if_neg (by simp [he])]
  · have hseat : v.seat (!a) = u.seat (!a) := by cases a <;> rfl
    rw [hseat, hu, State.seat_seatTo, State.seat_setSeat_self]
    rfl

theorem exec_detachedReturn {s : State} {b : Bool} {n : Nat} (hn : s.res.bothSince = some n) (hp : Past s n 1000000) (h5 : s.seatIs b = 5)
    (hd : (s.seat b).detached = 2) (hauto : s.bit SEAT_CFG.auto_return = true) (h4 : s.seatIs (!b) = 4) :
    exec (.detachedReturn b) s = .next ((s.setSeat b { s.seat b with detached := 0 }).seatTo b 2) := by
  show execDetachedReturn b s = _
  simp only [execDetachedReturn, hn]
  exact if_pos ⟨h5, hd, hauto, h4, State.elapsed_of_le hp⟩

/-! ### The wedge (R513) -/

/-- A seat restarts behind the wedge: whatever its state was, its epoch advances. -/
def State.wedged (s : State) (b : Bool) : State :=
  let left := s.seatIs b == 3 || s.seatIs b == 4
  let s := s.seatLoad b (s.seat b).trialFw
  if left then s else s.seatBump b

section Wedged
variable {s : State} {b : Bool} {x y : Nat} (hr : s.regsOk = true) (h : Stand s b x y)
include hr h

theorem Stand.wedged : Stand (s.wedged b) b 1 y ∧ (s.wedged b).regsOk = true ∧
    (s.wedged b).rd (seatEpoch b) = (s.rd (seatEpoch b) + 1) % 256 ∧ (s.wedged b).rd (seatEpoch (!b)) = s.rd (seatEpoch (!b)) := by
  set u := s.setSeat b { trialFw := (s.seat b).trialFw } with hu
  have hur : u.regsOk = true := (s.regsOk_setSeat b _).trans hr
  have hstand : Stand (u.seatTo b 1) b 1 y := (h.setSeat b _).toFirst hur (by decide)
  have hother : (u.seatTo b 1).rd (seatEpoch (!b)) = s.rd (seatEpoch (!b)) := (u.seatTo_other b 1).2.trans (s.rd_setSeat b _ _)
  have hepoch := State.seatTo_epoch (n := 1) b hur
  rw [State.seatIs_setSeat, State.rd_setSeat] at hepoch
  have hsr : (u.seatTo b 1).regsOk = true := State.seatTo_regsOk b hur 1
  unfold State.wedged
  by_cases hleft : s.seatIs b = 3 ∨ s.seatIs b = 4
  · have hw : (s.seatIs b == 3 || s.seatIs b == 4) = true := by simpa using hleft
    rw [if_pos (by omega)] at hepoch
    simp only [hw, if_true]
    exact ⟨hstand, hsr, hepoch, hother⟩
  · have hw : (s.seatIs b == 3 || s.seatIs b == 4) = false := by simpa using hleft
    rw [if_neg (by omega)] at hepoch
    simp only [hw, Bool.false_eq_true, if_false]
    have hb : ∀ f : Fld, f.key ≠ (seatEpoch b).key → ((u.seatTo b 1).seatBump b).rd f = (u.seatTo b 1).rd f := fun f hf => State.rd_wr_ne _ _ hf
    refine ⟨⟨(hb _ (by cases b <;> decide)).trans hstand.1, (hb _ (by cases b <;> decide)).trans hstand.2⟩, State.wr_regsOk hsr _ _, ?_,
      (hb _ (by cases b <;> decide)).trans hother⟩
    refine (State.rd_wr_self hsr _ _).trans ?_
    show ((u.seatTo b 1).rd (seatEpoch b) + 1) % 2 ^ (seatEpoch b).width = _
    rw [hepoch]
    cases b <;> rfl

end Wedged

theorem wedged_islandAt (s : State) (b : Bool) : (s.wedged b).res.islandAt = s.res.islandAt := by
  have hload : (s.seatLoad b (s.seat b).trialFw).res.islandAt = s.res.islandAt :=
    (congrArg Res.islandAt (State.seatTo_kept (s.setSeat b _) b 1).res).trans (by cases b <;> rfl)
  unfold State.wedged
  dsimp only
  split
  · exact hload
  · exact hload

/-- The state in which the island holds the seats in reset. -/
def State.wedging (s : State) : State :=
  { s with res := { s.res with islandAt := s.clk, checking := none, handover := false, bothSince := none } }

/-- Without castling the wedge restarts both seats, unless they are out of service. -/
theorem wedge_eq {s : State} (hc : s.upd.castle = none) : s.wedge =
    ([false, true].foldl (fun s b => if s.seatIs b = 0 ∨ s.seatIs b = 6 then s else s.wedged b) s.wedging).post 0x0C06
      [b2n (s.res.lastActive == 1), 1] := by
  have hcu : s.wedging.upd.castle = none := hc
  have hon : s.wedging.castleOn 8 = s.wedging := by simp only [State.castleOn, hcu]
  unfold State.wedge
  simp only [← State.wedging.eq_1, hon, hc, Bool.false_eq_true, if_false]
  rfl

theorem exec_seatWedge {s : State} (hr : s.regsOk = true) (hw : s.wedgeDue = true) (hc : s.upd.castle = none)
    (ha : s.seatIs false ≠ 0 ∧ s.seatIs false ≠ 6) (hb : s.seatIs true ≠ 0 ∧ s.seatIs true ≠ 6) :
    ∃ t, exec .seatWedge s = .next t ∧ t.seatIs false = 1 ∧ t.seatIs true = 1 ∧ t.res.islandAt = s.clk ∧
      ∀ b, t.rd (seatEpoch b) = (s.rd (seatEpoch b) + 1) % 256 := by
  set u := s.wedging with hu
  have hstand : Stand u false (s.seatIs false) (s.seatIs true) := ⟨rfl, rfl⟩
  obtain ⟨hst1, hr1, he1, ho1⟩ := Stand.wedged (s := u) hr hstand
  obtain ⟨hst2, _, he2, ho2⟩ := Stand.wedged hr1 hst1.swap
  have hne : ∀ {v : State} {b : Bool}, v.seatIs b ≠ 0 ∧ v.seatIs b ≠ 6 → ¬(v.seatIs b = 0 ∨ v.seatIs b = 6) := fun h => not_or.mpr h
  have hau : u.seatIs false ≠ 0 ∧ u.seatIs false ≠ 6 := ha
  have hbe : (u.wedged false).seatIs true ≠ 0 ∧ (u.wedged false).seatIs true ≠ 6 := by
    rw [show (u.wedged false).seatIs true = s.seatIs true from hst1.2]
    exact hb
  have hexec : exec .seatWedge s = .next (((u.wedged false).wedged true).post 0x0C06 [b2n (s.res.lastActive == 1), 1]) := by
    show Host.Outcome.next (if s.wedgeDue then s.wedge else s) = _
    rw [if_pos hw, wedge_eq hc, List.foldl_cons, List.foldl_cons, List.foldl_nil, ← hu, if_neg (hne hau), if_neg (hne hbe)]
  have hk : SeatsKept calmKey ((u.wedged false).wedged true) (((u.wedged false).wedged true).post 0x0C06 [b2n (s.res.lastActive == 1), 1]) :=
    (SeatsKept.refl _ _).posted (by decide) _
  have hend := hst2.kept hk
  refine ⟨_, hexec, hend.2, hend.1, ?_, fun b => (hk.seatEpoch b).trans ?_⟩
  · exact (congrArg Res.islandAt hk.res).trans ((wedged_islandAt _ true).trans (wedged_islandAt u false))
  · cases b
    · exact ho2.trans he1
    · exact he2.trans (congrArg (fun n => (n + 1) % 256) ho1)

/-! ### Evidence (R504, R506) -/

/-- Evidence that the island latches against a seat in step. -/
theorem exec_seatEvidence {s : State} {a : Bool} {kind : Nat} (h : InStep s a) (hk : kind = 0 ∨ kind = 2 ∨
    kind = 3 ∧ s.res.checking.any (fun n => decide (n + 20000 ≤ s.clk)) = true ∨ kind = 1 ∧ s.feedIn a = false) :
    exec (.seatEvidence a kind) s = .next ((latched s a kind).seatOut a (kind == 1) 1) := by
  obtain ⟨h4, h3, hc⟩ := h
  show execSeatEvidence a kind s = _
  unfold execSeatEvidence
  rcases hk with rfl | rfl | ⟨rfl, hk⟩ | ⟨rfl, hk⟩
  · simp only [h4]
    rfl
  · simp only [h4]
    rfl
  · cases hn : s.res.checking with
    | none => rw [hn] at hk; cases hk
    | some n =>
      rw [hn] at hk
      have he : s.elapsed n (us 20) = true := hk
      have hrole : s.seatRole a = 4 := (State.seatRole_of_ne (by omega)).trans h4
      simp only [he, hrole]
      rfl
  · simp only [hk]
    rfl

/-- The evidence itself changes no seat's state. -/
theorem latched_inStep {s : State} {a : Bool} (h : InStep s a) (kind : Nat) :
    InStep (latched s a kind) a ∧ (latched s a kind).rd (seatEpoch a) = s.rd (seatEpoch a) := by
  obtain ⟨h4, h3, hc⟩ := h
  have hne : ∀ f : Fld, f.key ≠ (seatEvid a).key → (latched s a kind).rd f = s.rd f := fun f hf => State.rd_wr_ne _ _ hf
  exact ⟨⟨(hne _ (by cases a <;> decide)).trans h4, (hne _ (by cases a <;> decide)).trans h3, hc⟩, hne _ (by cases a <;> decide)⟩

/-! ### Return and restart (R41, R514, R515) -/

theorem feedBack_fields (s : State) (b : Bool) : KeepsFields (fun k => k ≠ PWR_STAT.feed.key) s (s.feedBack b) := by
  unfold State.feedBack
  refine .ite (.ofRegs (.wr ?_ (by decide) _) rfl) (.wr ?_ (by decide) _) <;>
    exact .ite (.ofRegs (.refl _ s) rfl) (.ofRegs (.refl _ s) rfl)

theorem feedBack_feed (s : State) (b : Bool) : (s.feedBack b).feedIn b = true ∧ (s.feedBack b).seatIs b = s.seatIs b := by
  refine ⟨?_, (feedBack_fields s b).rd _ (by cases b <;> decide)⟩
  unfold State.feedBack
  cases b <;> dsimp only <;> split <;> rfl

section Return
variable {s : State} {b : Bool}

theorem exec_seatFeedReturn_back (h : s.feedIn b = false) : exec (.seatFeedReturn b) s = .next (s.feedBack b) :=
  if_pos (by simp [h])

theorem exec_seatFeedReturn_in (h : s.feedIn b = true) (hp : Past s (if b then s.dies.feedBAt else s.dies.feedAAt) 100000000) :
    exec (.seatFeedReturn b) s = if s.seatIs b = 0 ∧ (s.seat b).feedLost ∧ s.bit SEAT_CFG.auto_return then .next (s.seatBoot b)
      else .next (s.setSeat b { s.seat b with feedLost := false }) :=
  (if_neg (by simp [h])).trans (if_pos (State.elapsed_of_le hp))

/-- A seat starts to boot. -/
theorem seatBoot_seatIs (hr : s.regsOk = true) : (s.seatBoot b).seatIs b = 1 :=
  State.seatTo_self b ((s.regsOk_setSeat b _).trans hr) (by decide)

theorem exec_seatBootDone (ok : Bool) (h1 : s.seatIs b = 1) (hstep : 4 < s.rd GEN_BOOTSTAT.step) (hc : s.upd.castle = none) :
    exec (.seatBootDone b ok) s = if s.seatIs (!b) = 1 ∧ s.res.lastActive = b2n (!b) then .next s
      else if ok then .next (s.seatBooted b) else .next (s.seatOut b false 4) := by
  show execSeatBootDone b ok s = _
  simp only [execSeatBootDone, hc]
  exact if_neg (by simp [h1, hstep])

theorem seatBooted_behind (hr : s.regsOk = true) (h : s.seatRole (!b) = 4) : (s.seatBooted b).seatIs b = 2 := by
  unfold State.seatBooted
  rw [if_pos h]
  exact State.seatTo_self b hr (by decide)

theorem seatBooted_first (hr : s.regsOk = true) (h : s.seatRole (!b) ≠ 4) : (s.seatBooted b).seatIs b = 4 := by
  unfold State.seatBooted
  rw [if_neg h]
  exact State.seatTo_self (n := 4) b hr (by decide)

end Return

theorem b2n_ne_not (b : Bool) : b2n b ≠ b2n (!b) := by cases b <;> decide

section Restart
variable {s : State} {r : Nat} {t : Taken} {b : Bool} (h : s.running 0x5B = some (r, t))
include h

theorem exec_seatRestart_beyond (hb : 1 < t.f 16 1) : exec .seatRestart s = .next (s.finRefused r dBAD_OPERAND) := by
  show execSeatRestart s = _
  simp only [execSeatRestart, h]
  exact if_pos hb

/-- Outside castling the answer follows the states of both seats (R515). -/
theorem exec_seatRestart (hb : t.f 16 1 = b2n b) (hc : s.upd.castle = none) (h5 : s.rd UPD_SESS.state ≠ 5) : exec .seatRestart s =
    if s.seatIs (!b) = 1 ∨ s.seatIs (!b) = 2 ∨ s.seatIs (!b) = 7 ∨ s.seatIs b = 1 ∨ s.seatIs b = 2 ∨ s.seatIs b = 7
      then .next (s.finBusy r dIN_USE)
    else if s.seatIs b = 6 then .next (s.finRefused r dBAD_OPERAND)
    else if s.seatIs b = 4 then
      if s.seatIs (!b) ≠ 3 then .next (s.finBusy r dLIVE_RESOURCE)
      else .next (({ s with res := { s.res with handover := true } } : State).finDone r)
    else .next (((s.seatBoot b).post 0x0C06 [b2n b, 2]).release2.finDone r) := by
  have hbit : (t.f 16 1 == 1) = b := by rw [hb]; cases b <;> rfl
  show execSeatRestart s = _
  simp only [execSeatRestart, h, hbit]
  rw [if_neg (by rw [hb]; cases b <;> decide), if_neg (by simp [hc, h5])]

end Restart

/-! ### Clearing a resigned unit (R518, R519) -/

theorem exec_resignClear_unknown {s : State} {r : Nat} {t : Taken} (h : s.running 0x5C = some (r, t))
    (hn : ∀ x ∈ s.res.resigned, x.handle ≠ sliceB t.desc 16 8) : exec .resignClear s = .next (s.finRefused r dBAD_OPERAND) := by
  have hf : s.res.resigned.find? (fun x => x.handle == sliceB t.desc 16 8) = none := List.find?_eq_none.mpr (by simpa using hn)
  show execResignClear s = _
  simp only [execResignClear, h, hf]

theorem exec_resignClear_seat {s : State} {r : Nat} {t : Taken} {x : Resigned} (h : s.running 0x5C = some (r, t))
    (hf : s.res.resigned.find? (fun x => x.handle == sliceB t.desc 16 8) = some x) (hk : x.kind ≠ 2) :
    let l := s.res.resigned.map (fun y => if y.serial = x.serial then { y with testing := true } else y)
    exec .resignClear s = .next (({ s with res := { s.res with resigned := l } } : State).finDone r) := by
  intro l
  show execResignClear s = _
  simp only [execResignClear, h, hf, if_neg hk]
  rfl

theorem exec_resignClearTestDone_seat {s : State} {x : Resigned} (pass : Bool)
    (hf : s.res.resigned.find? (fun y => y.serial == x.serial && y.testing) = some x) (hk : x.kind = 1) :
    let u := ({ s with res := { s.res with resigned := s.res.resigned.filter (fun y => y.serial != x.serial) } } : State).post 0x0C08
      (x.handle ++ [b2n pass])
    exec (.resignClearTestDone x.serial pass) s = .next (if pass then u.seatBoot (x.unit == 1) else u.resign x.kind x.unit x.slot 4) := by
  intro u
  show execResignClearTestDone x.serial pass s = _
  simp only [execResignClearTestDone, hf, if_pos hk]
  cases pass <;> rfl

end Sys2Proof.Machine
end

section
namespace Sys2Proof
open Machine Claims

/-- Settles O51: each command by what it does with the states of both seats; what events and released outputs leave of them carries every
state through to the end of its command. -/
theorem seats : Obligations.Seats := by
  unfold Obligations.Seats
  refine ⟨fun s a i => (seatInput_inStep · i), fun s b epoch seq v power h => if_pos h,
    fun s b seq v power h6 he hc hrole hseq h0 hfar hnew => exec_seatOutput_held h6 he hc hrole hseq h0 hfar hnew,
    fun s a b ha hb => ⟨releaseOut_equal ha hb, fun q v w hf hg hw => ?mismatch⟩, fun s a q v ha hb hf => ?alone,
    fun s a kind hr h hk => ?evidence, fun s a hr h hfeed => ?feed,
    fun s hc => ⟨fun x y => exec_selfcheckDone_same hc, fun x y => exec_selfcheckDone_named hc⟩, checkFails_iff,
    fun s a hr h => ⟨fun hn => ?both, fun hn => ?limit⟩, fun s a hr h7 h7' hra hrb => ?rollbackDone,
    fun s a hr hc h4 hcastle hp => ⟨fun h2 hready => exec_checkpointCommit_copied hr hc ⟨h4, h2⟩ hcastle hp hready,
      fun h3 hh => exec_checkpointCommit_handover hr hc ⟨h4, h3⟩ hp hh⟩,
    fun s b hruns hp => ⟨?heard, ?unheard⟩,
    fun s a b hr h hp => ⟨fun hw => ?wedge, exec_seatHeartbeatLoss_detach hr h hp, fun hw he => ?loss⟩,
    fun s b n hr hn hp h5 hd hauto h4 => ?detached,
    fun s hr hstep hp hc ha0 ha6 hb0 hb6 => exec_seatWedge hr ?due hc ⟨ha0, ha6⟩ ⟨hb0, hb6⟩,
    fun s b => ⟨fun hf => ⟨exec_seatFeedReturn_back hf, feedBack_feed s b⟩, fun hf hp => ⟨fun hr h0 hl hauto => ?returns, fun hn => ?stays⟩⟩,
    fun s b hr h1 hstep hc => ⟨fun h4 => ?behind, fun hlast hrole => ?first, fun ok ho hlast => ?waits, fun hn => ?fails⟩,
    fun s r t b h => ⟨exec_seatRestart_beyond h, fun hb hc h5 => ?restart⟩,
    fun s r t h => ⟨exec_resignClear_unknown h, fun x => exec_resignClear_seat h⟩,
    fun s x pass => exec_resignClearTestDone_seat pass⟩
  case mismatch =>
    rw [releaseOut_both ha hf hb, hg]
    exact if_neg hw
  case alone =>
    rw [releaseOut_alone ha hf hb]
    exact s.released_last q v
  case evidence =>
    obtain ⟨hin, hepoch⟩ := latched_inStep h kind
    obtain ⟨ha, hb, he⟩ := seatOut_inStep (kind == 1) 1 (s.wr_regsOk hr _ _) hin
    have hkind : (kind == 1) = false := by simp; omega
    exact ⟨_, exec_seatEvidence h (by tauto), ha.trans (by rw [hkind]; rfl), hb,
      he.trans (congrArg (fun n => (n + 1) % 256) hepoch)⟩
  case feed =>
    obtain ⟨ha, hb, _⟩ := seatOut_inStep true 1 (s.wr_regsOk hr _ _) (latched_inStep h 1).1
    exact ⟨_, exec_seatEvidence h (.inr (.inr (.inr ⟨rfl, hfeed⟩))), ha, hb⟩
  case both =>
    obtain ⟨⟨ha, hb⟩, hrole⟩ := rollback_both hr h hn
    exact ⟨ha, hb, hrole⟩
  case limit =>
    obtain ⟨⟨ha, hb⟩, hd⟩ := rollback_limit hr h hn
    exact ⟨ha, hb, hd⟩
  case rollbackDone =>
    cases a with
    | false =>
      obtain ⟨t, ht, ha, hb⟩ := exec_rollbackDone hr ⟨h7, h7'⟩ (by omega) (hrb.trans_lt (by decide))
      exact ⟨t, ht, ha.trans hra, hb.trans hrb⟩
    | true =>
      obtain ⟨t, ht, ha, hb⟩ := exec_rollbackDone hr ⟨h7', h7⟩ (hrb.trans_lt (by decide)) (by omega)
      exact ⟨t, ht, hb.trans hra, ha.trans hrb⟩
  case heard =>
    obtain ⟨since, hexec⟩ := exec_seatHeartbeatSend_heard hruns hp
    refine ⟨_, hexec, ?_⟩
    cases b <;> exact ⟨rfl, rfl, rfl, rfl⟩
  case unheard =>
    refine ⟨_, exec_seatHeartbeatSend_unheard hruns hp, ?_⟩
    cases b <;> exact ⟨rfl, rfl, rfl, rfl⟩
  case wedge => rw [exec_seatHeartbeatLoss h hp, if_pos hw]
  case loss => rw [exec_seatHeartbeatLoss h hp, hw, if_neg (by decide), if_pos he]
  case detached =>
    have hstand : Stand s b 5 4 := ⟨h5, h4⟩
    exact ⟨_, exec_detachedReturn hn hp h5 hd hauto h4, (hstand.setSeat b _).toFirst ((s.regsOk_setSeat b _).trans hr) (by decide)⟩
  case due => exact Bool.and_eq_true _ _ ▸ ⟨decide_eq_true hstep, State.elapsed_of_le hp⟩
  case returns => exact ⟨_, (exec_seatFeedReturn_in hf hp).trans (if_pos ⟨h0, hl, hauto⟩), seatBoot_seatIs hr⟩
  case stays => exact (exec_seatFeedReturn_in hf hp).trans (if_neg fun h => hn h.1)
  case behind =>
    exact ⟨_, (exec_seatBootDone true h1 hstep hc).trans (if_neg (by omega)),
      seatBooted_behind hr ((State.seatRole_of_ne (by omega)).trans h4)⟩
  case first =>
    have hne := b2n_ne_not b
    exact ⟨_, (exec_seatBootDone true h1 hstep hc).trans (if_neg (by omega)), seatBooted_first hr hrole⟩
  case waits => exact (exec_seatBootDone ok h1 hstep hc).trans (if_pos ⟨ho, hlast⟩)
  case fails => exact (exec_seatBootDone false h1 hstep hc).trans (if_neg fun h => hn h.1)
  case restart =>
    rw [exec_seatRestart h hb hc h5]
    simp only [List.mem_cons, List.not_mem_nil, or_false]
    refine ⟨fun hbusy => if_pos (by omega), fun h4 ho => ?_, fun h4 ho => ?_, fun hst ho => ?_⟩
    · rw [if_neg (by omega), if_neg (by omega), if_pos h4, if_pos (by omega)]
    · rw [if_neg (by omega), if_neg (by omega), if_pos h4, if_neg (by omega)]
    · rw [if_neg (by omega), if_neg (by omega), if_neg (by omega)]

end Sys2Proof
end

section
/-! SUPPORT. The records in MRAM (R537 to R540), and the ends of update sessions (R544, R547): what they write, and what they leave. -/
namespace Sys2Proof.Machine
open Sys2Proof.Claims

/-! ### Records -/

/-- Every register but UPD_AREASTAT and UPD_AREAVER, which repeat the record. -/
abbrev besideAreas (k : Nat) : Prop := k < 0x30010 * 64 ∨ 0x30028 * 64 ≤ k

theorem State.syncAreas_kept (s : State) : KeepsFields besideAreas s s.syncAreas := by
  unfold State.syncAreas
  refine .foldl _ (fun a ha t ht => ?_) (.refl _ s)
  have ha : a < 3 := List.mem_range.mp ha
  have not : ∀ {f : Fld}, 0x30010 * 64 ≤ f.key → f.key < 0x30028 * 64 → ¬ besideAreas f.key := fun h h' => by
    simp only [besideAreas]
    omega
  refine .wr (.wr (.wr (.wr ht ?_ _) ?_ _) ?_ _) ?_ _ <;> refine not ?_ ?_
  all_goals simp only [Fld.key, UPD_AREASTAT.state, UPD_AREASTAT.confirmed, UPD_AREASTAT.trial, UPD_AREAVER.version]; omega

/-- Beside registers nothing changes. -/
theorem State.syncAreas_only (s : State) : ∃ regs, s.syncAreas = { s with regs := regs } := by
  refine List.foldlRecOn (motive := fun t : State => ∃ regs, t = { s with regs := regs }) _ _ ⟨s.regs, rfl⟩ fun t ht a _ => ?_
  obtain ⟨regs, rfl⟩ := ht
  exact ⟨_, rfl⟩

/-- What is kept of updates after a new record: it stands in the bank that does not hold the newest one (R539). -/
def State.updRecorded (s : State) (f : Record → Record) : Upd :=
  let r : Record := { f s.record with seq := s.record.seq + 1 }
  { (if s.upd.newestBank = 1 then { s.upd with rec0 := some r } else { s.upd with rec1 := some r }) with recAt := s.clk + 1 }

theorem State.putRec_eq (s : State) (f : Record → Record) : s.putRec f = ({ s with upd := s.updRecorded f } : State).syncAreas := rfl

theorem State.putRec_only (s : State) (f : Record → Record) : ∃ regs, s.putRec f = { s with upd := s.updRecorded f, regs := regs } :=
  State.syncAreas_only { s with upd := s.updRecorded f }

theorem State.putRec_upd (s : State) (f : Record → Record) : (s.putRec f).upd = s.updRecorded f := by
  obtain ⟨regs, h⟩ := s.putRec_only f
  rw [h]

theorem State.putRec_kept (s : State) (f : Record → Record) : KeepsFields besideAreas s (s.putRec f) := by
  rw [State.putRec_eq]
  refine KeepsFields.trans ?_ (State.syncAreas_kept _)
  exact (KeepsFields.refl _ s).ofRegs rfl

theorem State.record_congr {s t : State} (h0 : t.upd.rec0 = s.upd.rec0) (h1 : t.upd.rec1 = s.upd.rec1) : t.record = s.record := by
  unfold State.record Upd.newestBank
  rw [h0, h1]

/-- The newest bank is the one that a new record does not go to. -/
theorem State.newest_first {s : State} (h : s.upd.newestBank ≠ 1) : s.upd.rec0 = none ∧ s.upd.rec1 = none ∨
    s.upd.rec0 = some s.record := by
  unfold State.record
  rw [if_neg h]
  unfold Upd.newestBank at h
  cases h0 : s.upd.rec0 with
  | some a => exact .inr rfl
  | none =>
    cases h1 : s.upd.rec1 with
    | none => exact .inl ⟨rfl, rfl⟩
    | some b => rw [h0, h1] at h; exact absurd rfl h

theorem State.newest_second {s : State} (h : s.upd.newestBank = 1) : s.upd.rec1 = some s.record := by
  unfold State.record
  rw [if_pos h]
  unfold Upd.newestBank at h
  cases h1 : s.upd.rec1 with
  | some b => rfl
  | none => rw [h1] at h; split at h <;> simp_all

/-- The new record is the newest one, its seq one above the former's. -/
theorem State.record_putRec (s : State) (f : Record → Record) : (s.putRec f).record = { f s.record with seq := s.record.seq + 1 } := by
  have hu := s.putRec_upd f
  set r : Record := { f s.record with seq := s.record.seq + 1 } with hrec
  by_cases hn : s.upd.newestBank = 1
  · have h0 : (s.putRec f).upd.rec0 = some r := by rw [hu, State.updRecorded, if_pos hn]
    have h1 : (s.putRec f).upd.rec1 = some s.record := by rw [hu, State.updRecorded, if_pos hn]; exact State.newest_second hn
    have hold : ¬ r.seq ≤ s.record.seq := Nat.not_succ_le_self _
    unfold State.record Upd.newestBank
    simp only [h0, h1, if_neg hold]
    rfl
  · have h1 : (s.putRec f).upd.rec1 = some r := by rw [hu, State.updRecorded, if_neg hn]
    have h0 : (s.putRec f).upd.rec0 = s.upd.rec0 := by rw [hu, State.updRecorded, if_neg hn]
    have hnew : s.record.seq ≤ r.seq := Nat.le_succ _
    unfold State.record Upd.newestBank
    rcases State.newest_first hn with ⟨hf, _⟩ | hf
    · simp only [h0, h1, hf]
      rfl
    · simp only [h0, h1, hf, if_pos hnew]
      rfl

theorem State.putRec_nor (s : State) (f : Record → Record) : (s.putRec f).upd.nor = s.upd.nor := by
  rw [State.putRec_upd]
  unfold State.updRecorded
  split <;> rfl

/-- The bank of the newest record stays as it is. -/
theorem State.putRec_otherBank (s : State) (f : Record → Record) : (s.upd.newestBank = 1 → (s.putRec f).upd.rec1 = s.upd.rec1) ∧
    (s.upd.newestBank ≠ 1 → (s.putRec f).upd.rec0 = s.upd.rec0) := by
  rw [State.putRec_upd]
  exact ⟨fun h => by rw [State.updRecorded, if_pos h], fun h => by rw [State.updRecorded, if_neg h]⟩

/-! ### The ends of sessions -/

/-- Every register but UPD_SESS.state, UPD_SESS.reason, UPD_BOOT.settings_frozen, the counters of sessions, and block HIF. -/
abbrev sessionEndKey (k : Nat) : Prop := k ≠ UPD_SESS.state.key ∧ k ≠ UPD_SESS.reason.key ∧ k ≠ UPD_BOOT.settings_frozen.key ∧
  (k < 0x10000 * 64 ∨ 0x20000 * 64 ≤ k ∧ k < 0x30100 * 64 ∨ 0x30200 * 64 ≤ k)

theorem not_sessionEndKey_evlost {code : Nat} (hc : code < 65536) : ¬ sessionEndKey (HIF_EVLOST.count (code / 256)).key := by
  simp only [sessionEndKey, Fld.key, HIF_EVLOST.count]
  omega

theorem State.sessionIdle_kept (s : State) : KeepsFields sessionEndKey s s.sessionIdle := by
  refine .wr (.wr ?_ (f := UPD_SESS.state) (by decide) _) (f := UPD_BOOT.settings_frozen) (by decide) _
  exact (KeepsFields.refl _ s).ofRegs rfl

theorem State.sessionIdle_state {s : State} (hr : s.regsOk = true) : s.sessionIdle.rd UPD_SESS.state = 0 :=
  (State.rd_wr_ne _ _ (by decide)).trans (State.rd_wr_self (s := { s with upd := _ }) hr _ _)

theorem State.sessionIdle_record (s : State) : s.sessionIdle.record = s.record := State.record_congr rfl rfl

theorem State.endSession_kept (s : State) (n : Nat) : KeepsFields sessionEndKey s (s.endSession n) := by
  exact .post (.wr (.wr s.sessionIdle_kept (f := UPD_SESS.reason) (by decide) _) (f := UPD_FAILCNT.count) (by decide) _)
    (not_sessionEndKey_evlost (by decide)) _

theorem State.endSession_upd (s : State) (n : Nat) : (s.endSession n).upd = s.sessionIdle.upd := State.post_upd _ _ _

theorem State.endSession_record (s : State) (n : Nat) : (s.endSession n).record = s.record :=
  (State.record_congr (congrArg Upd.rec0 (s.endSession_upd n)) (congrArg Upd.rec1 (s.endSession_upd n))).trans s.sessionIdle_record

/-- A session that ended is IDLE, with its reason. -/
theorem State.endSession_shows {s : State} (hr : s.regsOk = true) {n : Nat} (hn : n < 256) :
    (s.endSession n).rd UPD_SESS.state = 0 ∧ (s.endSession n).rd UPD_SESS.reason = n := by
  have hi : s.sessionIdle.regsOk = true := s.sessionIdle_kept.regsOk hr
  have hpost : ∀ {f : Fld}, 0x12000 ≤ f.addr → f.key ≠ UPD_FAILCNT.count.key →
      (s.endSession n).rd f = (s.sessionIdle.wr UPD_SESS.reason n).rd f := fun hf hk =>
    (State.post_rd _ (by decide) _ hf).trans (State.rd_wr_ne _ _ hk)
  refine ⟨(hpost (by decide) (by decide)).trans ((State.rd_wr_ne _ _ (by decide)).trans (State.sessionIdle_state hr)),
    (hpost (by decide) (by decide)).trans ?_⟩
  rw [State.rd_wr_self hi]
  exact Nat.mod_eq_of_lt hn

end Sys2Proof.Machine
end

section
/-! SUPPORT. Castling, trial, confirmation and revert (R556 to R567), and the recovery window (R571 to R573). -/
namespace Sys2Proof.Machine
open Sys2Proof.Claims

@[simp] theorem State.rd_setCastle (s : State) (k : Castle) (f : Fld) : (s.setCastle k).rd f = s.rd f := rfl

theorem State.record_setCastle (s : State) (k : Castle) : (s.setCastle k).record = s.record := State.record_congr rfl rfl

theorem State.record_wr (s : State) (f : Fld) (v : Nat) : (s.wr f v).record = s.record := State.record_congr rfl rfl

theorem State.record_post (s : State) (code : Nat) (p : List Nat) : (s.post code p).record = s.record :=
  State.record_congr (congrArg Upd.rec0 (s.post_upd code p)) (congrArg Upd.rec1 (s.post_upd code p))

/-! ### The begin of castling, and what ends it -/

section Start
variable (s : State) (rev : Bool) (cause : Nat)

/-- The record that castling writes first: it names the trial bank, or in a revert none. -/
def State.trialMark (s : State) (rev : Bool) (r : Record) : Record :=
  if rev then { r with trial := none, trialVer := 0 }
  else { r with trial := some (s.rd UPD_SESS.target), trialVer := hdrVersion (s.imageIn (s.rd UPD_SESS.target)) }

theorem castleStart_eq : ∃ k : Castle, k.step = 1 ∧ k.revert = rev ∧ s.castleStart rev cause =
    ((s.putRec (s.trialMark rev)).wr UPD_SESS.state (if rev then 6 else 4)).setCastle k := ⟨_, rfl, rfl, rfl⟩

theorem castleStart_castle : ∃ k, (s.castleStart rev cause).upd.castle = some k ∧ k.step = 1 ∧ k.revert = rev := by
  obtain ⟨k, h1, hrev, he⟩ := castleStart_eq s rev cause
  exact ⟨k, by rw [he]; rfl, h1, hrev⟩

theorem castleStart_trial : (s.castleStart rev cause).record.trial = if rev then none else some (s.rd UPD_SESS.target) := by
  obtain ⟨k, -, -, he⟩ := castleStart_eq s rev cause
  rw [he, State.record_setCastle, State.record_wr, State.record_putRec, State.trialMark]
  cases rev <;> rfl

variable {s} in
theorem castleStart_state (hr : s.regsOk = true) : (s.castleStart rev cause).rd UPD_SESS.state = if rev then 6 else 4 := by
  obtain ⟨k, -, -, he⟩ := castleStart_eq s rev cause
  rw [he, State.rd_setCastle, State.rd_wr_self ((s.putRec_kept _).regsOk hr)]
  cases rev <;> rfl

end Start

section Abandon
variable {s : State} {k : Castle} (hk : s.upd.castle = some k) (hrev : k.revert = false)
include hk hrev

theorem castleAbandon_eq : s.castleAbandon = (s.putRec (fun r => { r with trial := none, trialVer := 0 })).endSession 0x9C := by
  simp only [State.castleAbandon, hk, hrev]
  exact if_neg Bool.false_ne_true

/-- Castling that is abandoned ends the session with CASTLING_FAULT and clears the trial mark (R562). -/
theorem castleAbandon_shows (hr : s.regsOk = true) : s.castleAbandon.upd.castle = none ∧ s.castleAbandon.rd UPD_SESS.state = 0 ∧
    s.castleAbandon.rd UPD_SESS.reason = 0x9C ∧ s.castleAbandon.record.trial = none := by
  rw [castleAbandon_eq hk hrev]
  obtain ⟨hstate, hreason⟩ := State.endSession_shows ((s.putRec_kept _).regsOk hr) (n := 0x9C) (by decide)
  refine ⟨?_, hstate, hreason, ?_⟩
  · rw [State.endSession_upd]
    rfl
  · rw [State.endSession_record, State.record_putRec]

theorem castleAbandon_seatIs (b : Bool) : s.castleAbandon.seatIs b = s.seatIs b := by
  rw [castleAbandon_eq hk hrev]
  exact ((State.endSession_kept _ _).rd _ (by cases b <;> decide)).trans ((s.putRec_kept _).rd _ (by cases b <;> decide))

end Abandon

/-! ### The steps of the seats -/

theorem exec_castlingStep {s : State} {k : Castle} {n : Nat} (h : CastleAt s k n) (ok : Bool) : exec (.castlingStepComplete ok) s =
    .next (if n < 8 then s.castleSeats k ok else s.castleParts k ok) := by
  obtain ⟨hk, rfl⟩ := h
  show execCastlingStepComplete ok s = _
  simp only [execCastlingStepComplete, hk]

section Seats
variable {s : State} {k : Castle} {b : Bool} {x y : Nat}

theorem Stand.setCastle (h : Stand s b x y) (k : Castle) : Stand (s.setCastle k) b x y := h

theorem b2n_beq (b : Bool) : (b2n b == 1) = b := by cases b <;> rfl

theorem seatLoad_kept (s : State) (b trial : Bool) : KeepsFields besideSeatStat s (s.seatLoad b trial) ∧ (s.seatLoad b trial).upd = s.upd := by
  have hk := State.seatTo_kept (s.setSeat b { trialFw := trial }) b 1
  refine ⟨KeepsFields.trans ?_ hk.fields, hk.upd.trans (s.upd_setSeat b _)⟩
  exact (KeepsFields.refl _ s).ofRegs (s.regs_setSeat b _)

/-- Step 2 finds the STANDBY seat beside an ACTIVE one. -/
theorem Stand.find_standby (h : Stand s b 3 4) : [false, true].find? (fun b => s.seatIs b == 3 && s.seatIs (!b) == 4) = some b := by
  obtain ⟨h3, h4⟩ := h
  cases b <;> simp_all

theorem castleStep_boots (ok : Bool) (hr : s.regsOk = true) (h : CastleAt s k 2) (hc : s.res.checking = none) (hs : Stand s b 3 4) :
    ∃ t, exec (.castlingStepComplete ok) s = .next t ∧ Stand t b 1 4 ∧ t.upd.castle = some { k with step := 3, seat := b2n b } := by
  set u := (s.seatLoad b (!k.revert)).setCastle { k with step := 3, seat := b2n b } with hu
  have hk : SeatsKept calmKey u u.release2 := (SeatsKept.refl _ u).release2
  refine ⟨u.release2, ?_, ((hs.load hr _).setCastle _).kept hk, congrArg Upd.castle hk.upd⟩
  rw [exec_castlingStep h, if_pos (by decide)]
  simp only [State.castleSeats, h.2, hs.find_standby, hc]
  rfl

/-- A load or self-test of step 3 or 4 that fails ends the session (R562). -/
theorem castleSeats_fails (h : CastleAt s k 3 ∨ CastleAt s k 4) (hb : k.seat = b2n b) :
    exec (.castlingStepComplete false) s = .next (s.castleFault b false) := by
  obtain h | h := h <;> rw [exec_castlingStep h, if_pos (by decide)] <;> simp only [State.castleSeats, h.2, hb, b2n_beq] <;> rfl

theorem castleFault_early {n : Nat} (h : CastleAt s k n) (hn : n < 6) (hrev : k.revert = false) (h1 : s.seatIs b = 1) :
    s.castleFault b false = s.castleAbandon.seatBoot b := by
  obtain ⟨hk, rfl⟩ := h
  simp only [State.castleFault, hk]
  rw [if_neg (by omega), if_neg (by omega), if_neg (by decide), if_pos ((castleAbandon_seatIs hk hrev b).trans h1)]

theorem castleFault_boots (hr : s.regsOk = true) {n : Nat} (h : CastleAt s k n) (hn : n < 6) (hrev : k.revert = false) (h1 : s.seatIs b = 1) :
    let t := s.castleFault b false
    t.upd.castle = none ∧ t.rd UPD_SESS.state = 0 ∧ t.rd UPD_SESS.reason = 0x9C ∧ t.record.trial = none ∧ t.seatIs b = 1 := by
  intro t
  obtain ⟨hcastle, hstate, hreason, htrial⟩ := castleAbandon_shows h.1 hrev hr
  have har : s.castleAbandon.regsOk = true := by
    rw [castleAbandon_eq h.1 hrev]
    exact (State.endSession_kept _ _).regsOk ((s.putRec_kept _).regsOk hr)
  obtain ⟨trial, ht⟩ : ∃ trial, t = s.castleAbandon.seatLoad b trial := ⟨_, castleFault_early h hn hrev h1⟩
  obtain ⟨hk, hu⟩ := seatLoad_kept s.castleAbandon b trial
  rw [ht]
  exact ⟨(congrArg Upd.castle hu).trans hcastle, (hk.rd _ (by decide)).trans hstate, (hk.rd _ (by decide)).trans hreason,
    (congrArg Record.trial (State.record_congr (congrArg Upd.rec0 hu) (congrArg Upd.rec1 hu))).trans htrial,
    State.seatTo_self b ((State.regsOk_setSeat _ b _).trans har) (by decide)⟩

/-- Step 5: the new seat is ACTIVE, and the other boots the new image. -/
theorem castleStep_active (ok : Bool) (hr : s.regsOk = true) (h : CastleAt s k 5) (hb : k.seat = b2n b) (h4 : s.seatIs (!b) = 4) :
    ∃ t, exec (.castlingStepComplete ok) s = .next t ∧ Stand t b 4 1 ∧ t.upd.castle = some { k with step := 6 } := by
  have hs : Stand s (!b) 4 (s.seatIs b) := ⟨h4, congrArg s.seatIs (Bool.not_not b)⟩
  have hload := (hs.load hr (!k.revert)).toSecond (seatLoad_regsOk hr (!b) (!k.revert)) (n := 4) (by decide)
  rw [Bool.not_not] at hload
  set u := (s.seatLoad (!b) (!k.revert)).seatTo b 4 with hu
  have hst : Stand u b 4 1 := by simpa only [Bool.not_not] using hload.swap
  refine ⟨({ u with res := { u.res with ckptAt := u.clk, islandAt := u.clk, handover := false } } : State).setCastle { k with step := 6 }, ?_,
    hst, rfl⟩
  rw [exec_castlingStep h, if_pos (by decide)]
  simp only [State.castleSeats, h.2, hb, b2n_beq, h4]
  rfl

/-- Step 6: the other seat has booted and is in RESYNC. -/
theorem castleStep_resync (hr : s.regsOk = true) (h : CastleAt s k 6) (hs : Stand s b 1 4) :
    ∃ t, exec (.castlingStepComplete true) s = .next t ∧ t.seatIs b = 2 ∧ t.upd.castle = some { k with step := 7 } := by
  refine ⟨(s.seatTo b 2).setCastle { k with step := 7 }, ?_, (hs.toFirst hr (by decide)).1, rfl⟩
  have hfind := hs.swap.find_second (by decide)
  rw [Bool.not_not] at hfind
  rw [exec_castlingStep h, if_pos (by decide)]
  simp only [State.castleSeats, h.2, hfind, (hs.inRole (by decide) (by decide) (by decide)).2]
  rfl

/-- Step 7: it re-enters step. -/
theorem castleStep_inStep (ok : Bool) (hr : s.regsOk = true) (h : CastleAt s k 7) (hs : Stand s b 2 4) :
    ∃ t, exec (.castlingStepComplete ok) s = .next t ∧ Stand t b 3 4 ∧ t.upd.castle = some { k with step := 8 } := by
  have hfind := hs.swap.find_second (by decide)
  have hin := (enterStep_stand hr hs.swap).1
  rw [Bool.not_not] at hfind hin
  have hst : Stand (s.enterStep b) b 3 4 := by simpa only [Bool.not_not] using hin.swap
  refine ⟨(s.enterStep b).setCastle { k with step := 8 }, ?_, hst.setCastle _, rfl⟩
  rw [exec_castlingStep h, if_pos (by decide)]
  simp only [State.castleSeats, h.2, hfind]

end Seats

/-! ### Clusters and lane groups -/

section Parts
variable {s : State} {k : Castle}

theorem castleStep_clusters (ok : Bool) (h : CastleAt s k 8) (hd : ∀ e ∈ s.upd.displaced, s.drains e.1 = false) :
    exec (.castlingStepComplete ok) s = .next (match s.nextCluster k.clusters with
      | none => s.setCastle { k with step := 9 }
      | some c =>
        if s.drains c ∨ (!k.revert ∧ s.rd (bankState c (1 - s.rd (ENG_BANKCTL.live_bank c))) = 1) then s
        else (if k.revert then s.castleBack c else s.castleLoad c).setCastle { k with clusters := k.clusters.filter (· != c) }) := by
  have hany : s.upd.displaced.any (fun e => s.drains e.1) = false := by simpa using hd
  rw [exec_castlingStep h, if_neg (by decide)]
  simp only [State.castleParts, h.2, hany]
  rfl

/-- Step 9 serves the next lane group (R560). -/
theorem castleStep_served (ok : Bool) (h : CastleAt s k 9) {g : Nat} {rest : List Nat} (hg : k.groups = g :: rest) :
    exec (.castlingStepComplete ok) s = .next (
      let s := s.setCastle { k with groups := rest }
      if !ok then s.post 0x0D08 (groupName g)
      else if k.revert then { s with upd := { s.upd with serdes := s.upd.serdes.filter (· != g) } }
      else { s with upd := { s.upd with serdes := insNat g s.upd.serdes } }) := by
  rw [exec_castlingStep h, if_neg (by decide)]
  simp only [State.castleParts, h.2, hg]

theorem castleStep_end (ok : Bool) (h : CastleAt s k 9) (hg : k.groups = []) :
    exec (.castlingStepComplete ok) s = .next (if k.revert then s.castleReverted k.cause else s.castleTrial) := by
  rw [exec_castlingStep h, if_neg (by decide)]
  simp only [State.castleParts, h.2, hg]

theorem castleTrial_eq (s : State) : ∃ v p, s.castleTrial = ({ (s.wr UPD_SESS.state 5).wr UPD_SESS.reason 0 with
    upd := { s.upd with castle := none, trialAt := s.clk } }.wrBit UPD_BOOT.settings_frozen v).post 0x0D03 p := ⟨_, _, rfl⟩

theorem castleTrial_shows (hr : s.regsOk = true) : s.castleTrial.rd UPD_SESS.state = 5 ∧ s.castleTrial.upd.castle = none ∧
    s.castleTrial.upd.trialAt = s.clk := by
  obtain ⟨v, p, he⟩ := castleTrial_eq s
  rw [he, State.post_rd _ (by decide) _ (by decide), State.post_upd]
  refine ⟨(State.rd_wr_ne _ _ (by decide)).trans ?_, rfl, rfl⟩
  exact (State.rd_wr_ne (s.wr UPD_SESS.state 5) (f := UPD_SESS.reason) 0 (by decide)).trans (State.rd_wr_self hr UPD_SESS.state 5)

theorem castleReverted_shows (hr : s.regsOk = true) (cause : Nat) : (s.castleReverted cause).rd UPD_SESS.state = 0 ∧
    (s.castleReverted cause).upd.castle = none :=
  ⟨(State.post_rd _ (by decide) _ (by decide)).trans ((State.rd_wr_ne _ _ (by decide)).trans (State.sessionIdle_state hr)),
    congrArg Upd.castle (State.post_upd _ _ _)⟩

end Parts

/-! ### Activation, confirmation, abort and the trial timer -/

theorem State.wrongSession_of {s : State} {t : Taken} (h0 : s.rd UPD_SESS.state ≠ 0) (hs : t.f 16 4 = s.rd UPD_SESS.session) :
    s.wrongSession t = false := by simp [State.wrongSession, h0, hs]

section Commands
variable {s : State} {r : Nat} {t : Taken}

theorem exec_updActivate (h : s.running 0x4B = some (r, t)) (h0 : s.rd UPD_SESS.state ≠ 0) (hs : t.f 16 4 = s.rd UPD_SESS.session) :
    exec .updActivate s = if s.rd UPD_SESS.state ≠ 3 then .next (s.finRefused r 0x98)
      else if s.rd UPD_SESS.target = 2 then .next (s.finRefused r 0x95)
      else if s.castleBusy ≠ 0 then .next (s.updBusy r s.castleBusy)
      else .next ((s.castleStart false 0).finDone r) := by
  show execUpdActivate s = _
  simp only [execUpdActivate, h, State.wrongSession_of h0 hs]
  rfl

theorem exec_updConfirm (h : s.running 0x4C = some (r, t)) : exec .updConfirm s = if s.rd UPD_SESS.state ≠ 5 then .next (s.finRefused r 0x9B)
    else if s.wrongSession t then .next (s.finRefused r 0x99) else .next (s.confirm.finDone r) := by
  show execUpdConfirm s = _
  simp only [execUpdConfirm, h]

/-- UPD_ABORT by the session's state (R547, R567). -/
def State.aborted (s : State) (r : Nat) : Nat → State
  | 4 => s.updBusy r dIN_USE
  | 6 => s.updBusy r dIN_USE
  | 5 => (s.castleStart true 1).finDone r
  | _ => (s.updEnd 0x9E).finDone r

theorem exec_updAbort (h : s.running 0x4D = some (r, t)) (h0 : s.rd UPD_SESS.state ≠ 0) (hs : t.f 16 4 = s.rd UPD_SESS.session) :
    exec .updAbort s = .next (s.aborted r (s.rd UPD_SESS.state)) := by
  show execUpdAbort s = _
  simp only [execUpdAbort, h]
  rw [State.wrongSession_of h0 hs, if_neg Bool.false_ne_true]
  unfold State.aborted
  generalize s.rd UPD_SESS.state = n
  split
  · rfl
  · rfl
  · rfl
  · next h4 h6 h5 => simp only

/-- The record of a confirmed image; another format discards the settings (R565, R566). -/
def State.confirmedRecord (s : State) (r : Record) : Record :=
  let img := s.imageIn (s.rd UPD_SESS.target)
  let r := { r with confirmed := s.rd UPD_SESS.target, trial := none, trialVer := 0, confVer := hdrVersion img, fmt := hdrFmt img }
  if hdrFmt img ≠ s.record.fmt then { r with settings := [], links := [], delays := [] } else r

theorem confirmedRecord_shows (s : State) (r : Record) : (s.confirmedRecord r).confirmed = s.rd UPD_SESS.target ∧ (s.confirmedRecord r).trial = none ∧
    (s.confirmedRecord r).confVer = hdrVersion (s.imageIn (s.rd UPD_SESS.target)) := by
  unfold State.confirmedRecord
  generalize s.imageIn (s.rd UPD_SESS.target) = img
  dsimp only
  split <;> exact ⟨rfl, rfl, rfl⟩

/-- The keys and the session after a confirmation, before its events. -/
def State.confirmEnd (s : State) : State :=
  let t := s.putRec s.confirmedRecord
  (t.wr UPD_KEYS.revoked (Nat.lor (t.rd UPD_KEYS.revoked) (revokes (s.imageIn (s.rd UPD_SESS.target))))).sessionIdle

theorem confirm_eq (s : State) : ∃ (c : Prop) (_ : Decidable c) (p q : List Nat), s.confirm =
    if c then ((s.confirmEnd.post 0x0D04 p).wr UPD_BOOT.settings_reset 1).post 0x0D06 q else s.confirmEnd.post 0x0D04 p := by
  unfold State.confirm State.confirmEnd State.confirmedRecord
  exact ⟨_, _, _, _, rfl⟩

/-- The registers beyond block HIF but for UPD_BOOT.settings_reset. -/
abbrev confirmKey (k : Nat) : Prop := 0x20000 * 64 ≤ k ∧ k ≠ UPD_BOOT.settings_reset.key

theorem not_confirmKey_evlost {code : Nat} (h : code < 65536) : ¬ confirmKey (HIF_EVLOST.count (code / 256)).key := by
  simp only [confirmKey, Fld.key, HIF_EVLOST.count]
  omega

theorem confirm_kept (s : State) : KeepsFields confirmKey s.confirmEnd s.confirm ∧ s.confirm.upd = s.confirmEnd.upd := by
  have hpost : ∀ p, KeepsFields confirmKey s.confirmEnd (s.confirmEnd.post 0x0D04 p) :=
    fun p => (KeepsFields.refl _ _).post (not_confirmKey_evlost (by decide)) p
  obtain ⟨c, _, p, q, he⟩ := confirm_eq s
  rw [he]
  split
  · exact ⟨.post (.wr (hpost p) (by decide) 1) (not_confirmKey_evlost (by decide)) q, (State.post_upd _ _ _).trans (State.post_upd _ _ _)⟩
  · exact ⟨hpost p, State.post_upd _ _ _⟩

theorem confirm_record (s : State) : s.confirm.record = (s.putRec s.confirmedRecord).record :=
  (State.record_congr (congrArg Upd.rec0 (confirm_kept s).2) (congrArg Upd.rec1 (confirm_kept s).2)).trans
    ((State.sessionIdle_record _).trans (State.record_wr _ _ _))

theorem confirm_recorded (s : State) : s.confirm.record.confirmed = s.rd UPD_SESS.target ∧ s.confirm.record.trial = none ∧
    s.confirm.record.confVer = hdrVersion (s.imageIn (s.rd UPD_SESS.target)) := by
  have h := confirmedRecord_shows s s.record
  rw [confirm_record, State.record_putRec]
  generalize s.confirmedRecord s.record = r at h ⊢
  exact h

theorem confirm_shows (hr : s.regsOk = true) : s.confirm.rd UPD_SESS.state = 0 ∧ s.confirm.upd.castle = none ∧
    s.confirm.rd UPD_KEYS.revoked =
      Nat.lor (s.rd UPD_KEYS.revoked) (revokes (s.imageIn (s.rd UPD_SESS.target))) % 2 ^ UPD_KEYS.revoked.width := by
  obtain ⟨hk, hu⟩ := confirm_kept s
  have hp := s.putRec_kept s.confirmedRecord
  have hpr := hp.regsOk hr
  refine ⟨(hk.rd _ (by decide)).trans (State.sessionIdle_state (State.wr_regsOk hpr _ _)), congrArg Upd.castle hu,
    (hk.rd _ (by decide)).trans (((State.sessionIdle_kept _).rd _ (by decide)).trans ?_)⟩
  rw [State.rd_wr_self hpr, hp.rd UPD_KEYS.revoked (by decide)]

theorem ms_minutes (n : Nat) : ms (60000 * n) = n * 60000000000 := by unfold ms; omega

theorem exec_trialExpire (h5 : s.rd UPD_SESS.state = 5) (hp : Past s s.upd.trialAt (s.rd UPD_CFG.trial_min * 60000000000)) :
    exec .trialExpire s = .next (s.castleStart true 0) := by
  rw [← ms_minutes] at hp
  exact if_pos ⟨h5, State.elapsed_of_le hp⟩

end Commands

/-! ### The window of recovery mode -/

theorem exec_recovery_away {s : State} (h : s.pwr.recovery = false) (data : List Nat) (off len : Nat) (fe : Bool) :
    exec (.recoveryStart data fe) s = .next s ∧ exec (.recoveryWrite off len data fe) s = .next s ∧ exec (.recoveryFinish fe) s = .next s ∧
      exec .recoveryBoot s = .next s := by
  have hn : (!s.pwr.recovery) = true := by rw [h]; rfl
  exact ⟨if_pos hn, if_pos hn, if_pos hn, if_pos hn⟩

section Window
variable {s : State} (h : s.pwr.recovery = true)
include h

theorem not_away : ¬(!s.pwr.recovery) = true := by rw [h]; decide

theorem exec_recoveryStart {data : List Nat} (h0 : (s.window 1 data).rd UPD_SESS.state = 0) : exec (.recoveryStart data false) s =
    let u := s.window 1 data
    let d := u.offerReason 0 (u.pieceBytes 160)
    if d ≠ 0 then .next (u.rstatFail d)
    else .next ((((u.openSession 0 (u.pieceBytes 160)).wr UPD_RSTAT.state 1).wr UPD_RSTAT.reason 0).wr UPD_RPROG.bytes 0) := by
  show execRecoveryStart data false s = _
  unfold execRecoveryStart
  exact (if_neg (not_away h)).trans (if_neg (not_not.mpr h0))

theorem exec_recoveryWrite {off len : Nat} {data : List Nat} {u : State} (hu : ((s.window 2 data).wr UPD_ROFF.offset off).wr UPD_RLEN.length len = u)
    (hruns : u.windowRuns = true) : exec (.recoveryWrite off len data false) s =
    if off ≠ u.rd UPD_RPROG.bytes ∨ len = 0 ∨ 983040 < len ∨ hdrLength u.upd.header < off + len then .next (u.updEnd 0x97)
    else .next ((u.storeBytes (u.pieceBytes len) false).wr UPD_RPROG.bytes ((u.storeBytes (u.pieceBytes len) false).rd UPD_PROG.bytes)) := by
  show execRecoveryWrite off len data false s = _
  unfold execRecoveryWrite
  rw [if_neg (not_away h), hu]
  exact if_neg (by rw [hruns]; decide)

theorem exec_recoveryFinish (hruns : (s.window 3 []).windowRuns = true) :
    exec (.recoveryFinish false) s = .next (((s.window 3 []).wr UPD_SESS.state 2).verifyEnd false) := by
  show execRecoveryFinish false s = _
  unfold execRecoveryFinish
  exact (if_neg (not_away h)).trans (if_pos hruns)

theorem exec_recoveryBoot {u : State} (h0 : (s.window 4 []).rd UPD_SESS.state = 0) (hu : (s.window 4 []).chooseImage false 0 = u) :
    exec .recoveryBoot s = if u.rd UPD_BOOT.booted = 3 then .next u else .next ((u.seatLoad false false).seatLoad true false) := by
  show execRecoveryBoot s = _
  unfold execRecoveryBoot
  rw [if_neg (not_away h)]
  simp only [if_pos h0, hu]

end Window

end Sys2Proof.Machine
end

section
namespace Sys2Proof
open Machine Claims

/-- Settles O54: each step of castling by the states in which the seats stand, the ends of the session by its record, and the window of
recovery by its guards. -/
theorem castlingAndRecovery : Obligations.CastlingAndRecovery := by
  unfold Obligations.CastlingAndRecovery
  refine ⟨fun s r t h h0 hs => ?activate, fun s cause hr => ?start, fun s k ok h => ?one,
    fun s k ok b hr h hc h3 h4 => ?two, fun s k h => ?three, fun s k h => ?four, fun s k b hr h hrev hb h1 => ?fails,
    fun s k ok b hr h hb h4 => ?five, fun s k b hr h h1 h4 => castleStep_resync hr h ⟨h1, h4⟩, fun s k ok b hr h h2 h4 => ?seven,
    fun s k ok h hd => ?eight, fun s k h => ?nine, fun s r t h => ?confirm, fun s hr => ?confirmed, fun s r t h hs => ?abort,
    fun s h5 hp => exec_trialExpire h5 hp, fun s data off len fe hrec => exec_recovery_away hrec data off len fe,
    fun s data hrec h0 => ?begins, fun s off len data hrec hruns => ?writes, fun s hrec hruns => exec_recoveryFinish hrec hruns, fun s hrec h0 => ?boots,
    fun s hrec h4 hp => if_pos ⟨hrec, h4, State.elapsed_of_le hp⟩⟩
  case activate =>
    rw [exec_updActivate h h0 hs]
    exact ⟨fun h3 => if_pos h3, fun h3 h2 => (if_neg (not_not.mpr h3)).trans (if_pos h2), fun h3 h2 =>
      ⟨fun hb => (if_neg (not_not.mpr h3)).trans ((if_neg h2).trans (if_pos hb)),
        fun hb => (if_neg (not_not.mpr h3)).trans ((if_neg h2).trans (if_neg (not_not.mpr hb)))⟩⟩
  case start =>
    exact ⟨castleStart_state false cause hr, castleStart_trial s false cause, castleStart_state true cause hr, castleStart_trial s true cause,
      fun rev => castleStart_castle s rev cause⟩
  case one =>
    rw [exec_castlingStep h, if_pos (by decide)]
    simp only [State.castleSeats, h.2]
  case two =>
    obtain ⟨t, ht, hs, hk⟩ := castleStep_boots ok hr h hc ⟨h3, h4⟩
    exact ⟨t, ht, hs.1, hs.2, hk⟩
  case three =>
    rw [exec_castlingStep h, if_pos (by decide)]
    simp only [State.castleSeats, h.2]
    rfl
  case four =>
    rw [exec_castlingStep h, if_pos (by decide)]
    simp only [State.castleSeats, h.2]
    rfl
  case fails =>
    refine ⟨_, castleSeats_fails h hb, ?_⟩
    exact h.elim (fun h => castleFault_boots hr h (by decide) hrev h1) (fun h => castleFault_boots hr h (by decide) hrev h1)
  case five =>
    obtain ⟨t, ht, hs, hk⟩ := castleStep_active ok hr h hb h4
    exact ⟨t, ht, hs.1, hs.2, hk⟩
  case seven =>
    obtain ⟨t, ht, hs, hk⟩ := castleStep_inStep ok hr h ⟨h2, h4⟩
    exact ⟨t, ht, hs.1, hk⟩
  case eight =>
    rw [castleStep_clusters ok h hd]
    refine ⟨fun hnone => by simp only [hnone]; rfl, fun c hc hdc h1 => ?_⟩
    simp only [hc]
    rw [if_neg (by simp [hdc, h1])]
  case nine =>
    refine ⟨fun g rest hg => ?_, fun g rest hg => ?_, fun ok hg hrev hr => ⟨s.castleTrial, ?_, castleTrial_shows hr⟩,
      fun ok hg hrev hr => ⟨s.castleReverted k.cause, ?_, castleReverted_shows hr k.cause⟩⟩
    · rw [castleStep_served false h hg]
      rfl
    · rw [castleStep_served true h hg]
      cases k.revert <;> rfl
    · rw [castleStep_end ok h hg, hrev, if_neg Bool.false_ne_true]
    · rw [castleStep_end ok h hg, if_pos hrev]
  case confirm =>
    rw [exec_updConfirm h]
    refine ⟨fun h5 => if_pos h5, fun h5 hs => ?_, fun h5 hs => ?_⟩
    · rw [if_neg (not_not.mpr h5), if_pos (by simp [State.wrongSession, hs])]
    · rw [if_neg (not_not.mpr h5), State.wrongSession_of (by omega) hs]
      rfl
  case confirmed =>
    intro img
    obtain ⟨hc, ht, hv⟩ := confirm_recorded s
    obtain ⟨hstate, hcastle, hkeys⟩ := confirm_shows hr
    exact ⟨hc, ht, hv, hstate, hcastle, hkeys⟩
  case abort =>
    refine ⟨fun h46 => ?_, fun h5 => ?_, fun h0 h4 => ?_⟩
    · obtain h4 | h6 := h46
      · rw [exec_updAbort h (by omega) hs, h4]; rfl
      · rw [exec_updAbort h (by omega) hs, h6]; rfl
    · rw [exec_updAbort h (by omega) hs, h5]; rfl
    · obtain h1 | h2 | h3 : s.rd UPD_SESS.state = 1 ∨ s.rd UPD_SESS.state = 2 ∨ s.rd UPD_SESS.state = 3 := by omega
      · rw [exec_updAbort h (by omega) hs, h1]; rfl
      · rw [exec_updAbort h (by omega) hs, h2]; rfl
      · rw [exec_updAbort h (by omega) hs, h3]; rfl
  case begins =>
    rw [exec_recoveryStart hrec h0]
    exact ⟨fun hd => if_pos hd, fun hd => if_neg (not_not.mpr hd)⟩
  case writes =>
    rw [exec_recoveryWrite hrec rfl hruns]
    refine ⟨fun hoff => if_pos (.inl hoff), fun hoff h0 hl hlen => if_neg fun hbad => ?_⟩
    obtain hb | hb | hb | hb := hbad
    · exact hb hoff
    · omega
    · omega
    · exact absurd hlen (Nat.not_le.mpr hb)
  case boots =>
    intro u
    rw [exec_recoveryBoot hrec h0 rfl]
    exact ⟨fun h3 => if_neg h3, fun h3 => if_pos h3⟩

end Sys2Proof
end

section
/-! SUPPORT. What resets leave (*Reset kinds*, R592): the stores, the pins, the registers that each kind keeps, and the rails. -/
namespace Sys2Proof
variable {α : Type}

/-- A table cut to some keys reads the default elsewhere. -/
theorem Tbl.get_filter (d : α) (p : Nat → Bool) (k : Nat) : ∀ t : Tbl α, Tbl.get d (t.filter (fun e => p e.1)) k = if p k then Tbl.get d t k else d
  | [] => (ite_self d).symm
  | (a, v) :: t => by
    have ih := Tbl.get_filter d p k t
    by_cases ha : a = k
    · subst ha
      by_cases hp : p a <;> simp [Tbl.get, hp, ih]
    · by_cases hp : p a <;> simp [Tbl.get, hp, ha, ih]

end Sys2Proof

namespace Sys2Proof.Machine
open Sys2Proof.Claims

/-! ### A device of which only the stores are left -/

/-- The stores, the pins and the registers that `keep` names, before what repeats the stores. -/
def State.wiped (s : State) (keep : Nat → Bool) : State :=
  { clk := s.clk, hostMem := s.hostMem, free := s.free, pending := s.pending, regs := s.regs.filter (fun e => keep (e.1 / 64))
    dies := { feedA := s.dies.feedA, feedB := s.dies.feedB, feedAAt := s.dies.feedAAt, feedBAt := s.dies.feedBAt }
    mem := { retired := s.mem.retired, repairs := s.mem.repairs }, res := { rows := s.res.rows }
    upd := { rec0 := s.upd.rec0, rec1 := s.upd.rec1, nor := s.upd.nor, keys := s.upd.keys, trip := s.upd.trip }
    hif := { nextToken := s.hif.nextToken }
    pwr := { sysrst := s.pwr.sysrst, clkLost := s.pwr.clkLost, phase := s.pwr.phase, enAt := s.pwr.enAt, offAt := s.pwr.offAt,
             offFor := s.pwr.offFor, feedAt := s.pwr.feedAt, faultAt := s.pwr.faultAt, restart := s.pwr.restart, held := s.pwr.held,
             tripPin := s.pwr.tripPin, bootAt := s.clk, stepAt := s.clk } }

theorem blank_eq (s : State) (keep : Nat → Bool) : s.blank keep = (s.wiped keep).lifeLoad.syncAreas.wr PWR_STAT.feed (s.wiped keep).feed := rfl

/-- Every register but those that repeat the stores, and PWR_STAT. -/
abbrev besideStores (k : Nat) : Prop := k < 0x20020 * 64 ∨ 0x20034 * 64 ≤ k ∧ k < 0x30010 * 64 ∨ 0x30028 * 64 ≤ k ∧ k < 0x600000 * 64

theorem State.lifeLoad_eq (s : State) : ∃ a b c d e g sum n, s.lifeLoad =
    { (((((s.wr SEAT_AVS.fd_steps a).wr SEAT_AVS.td_steps b).wr SEAT_STRESS0.hours c).wr SEAT_STRESS1.hours d).wr SEAT_STRESS2.hours e).wr
      SEAT_TJAVG.avg g with res := { s.res with tjSum := sum, tjCount := n } } := ⟨_, _, _, _, _, _, _, _, rfl⟩

theorem State.lifeLoad_kept (s : State) : KeepsFields besideStores s s.lifeLoad := by
  obtain ⟨a, b, c, d, e, g, sum, n, he⟩ := s.lifeLoad_eq
  rw [he]
  refine KeepsFields.ofRegs (t := (((((s.wr SEAT_AVS.fd_steps a).wr SEAT_AVS.td_steps b).wr SEAT_STRESS0.hours c).wr SEAT_STRESS1.hours d).wr
    SEAT_STRESS2.hours e).wr SEAT_TJAVG.avg g) ?_ rfl
  refine .wr (.wr (.wr (.wr (.wr (.wr (.refl _ s) ?_ _) ?_ _) ?_ _) ?_ _) ?_ _) ?_ _ <;> decide

theorem State.lifeLoad_only (s : State) : ∃ regs sum n, s.lifeLoad = { s with regs := regs, res := { s.res with tjSum := sum, tjCount := n } } := by
  obtain ⟨a, b, c, d, e, g, sum, n, he⟩ := s.lifeLoad_eq
  exact ⟨_, sum, n, he.trans rfl⟩

section Blank
variable (s : State) (keep : Nat → Bool)

/-- Beside what repeats the stores, a blank device is as wiped. -/
theorem blank_only : ∃ regs sum n, s.blank keep =
    { s.wiped keep with regs := regs, res := { (s.wiped keep).res with tjSum := sum, tjCount := n } } := by
  obtain ⟨regs, sum, n, hl⟩ := (s.wiped keep).lifeLoad_only
  obtain ⟨regs', ha⟩ := (s.wiped keep).lifeLoad.syncAreas_only
  exact ⟨_, sum, n, by rw [blank_eq, ha, hl]; rfl⟩

theorem blank_kept : KeepsFields besideStores (s.wiped keep) (s.blank keep) := by
  rw [blank_eq]
  refine .wr ((State.lifeLoad_kept _).trans (.mono (State.syncAreas_kept _) fun k hk => ?_)) (by decide) _
  simp only [besideStores, besideAreas] at hk ⊢
  omega

variable {keep}

/-- The registers that a reset keeps read as before, the others as out of reset. -/
theorem blank_rd {f : Fld} (hf : besideStores f.key) : (s.blank keep).rd f = if keep (f.key / 64) then s.rd f else f.reset :=
  ((blank_kept s keep).rd f hf).trans (Tbl.get_filter f.reset (fun k => keep (k / 64)) f.key s.regs)

variable {s}

theorem blank_regsOk (hr : s.regsOk = true) : (s.blank keep).regsOk = true := (blank_kept s keep).regsOk (Tbl.rising_filter _ hr)

theorem blank_stores : StoresKept s (s.blank keep) := by
  obtain ⟨regs, sum, n, he⟩ := blank_only s keep
  rw [he]
  exact ⟨rfl, rfl, rfl, rfl, rfl, rfl, rfl, rfl, rfl⟩

end Blank

/-! ### The stores -/

end Sys2Proof.Machine

namespace Sys2Proof.Claims.StoresKept
open Sys2Proof.Machine

variable {s t u : State}

theorem refl (s : State) : StoresKept s s := ⟨rfl, rfl, rfl, rfl, rfl, rfl, rfl, rfl, rfl⟩

theorem trans (h : StoresKept s t) (h' : StoresKept t u) : StoresKept s u := by
  obtain ⟨a1, a2, a3, a4, a5, a6, a7, a8, a9⟩ := h
  obtain ⟨b1, b2, b3, b4, b5, b6, b7, b8, b9⟩ := h'
  exact ⟨b1.trans a1, b2.trans a2, b3.trans a3, b4.trans a4, b5.trans a5, b6.trans a6, b7.trans a7, b8.trans a8, b9.trans a9⟩

theorem wr (h : StoresKept s t) (f : Fld) (v : Nat) : StoresKept s (t.wr f v) := h

theorem setTim (h : StoresKept s t) (x : Tim) : StoresKept s { t with tim := x } := h

theorem setPwr (h : StoresKept s t) (p : Pwr) : StoresKept s { t with pwr := p } := h

theorem post (h : StoresKept s t) {code : Nat} (hc : code < 65536) (p : List Nat) : StoresKept s (t.post code p) := by
  have hu := t.post_upd code p
  have hm := t.post_mem code p
  have hk : SeatsKept calmKey t (t.post code p) := (SeatsKept.refl _ t).posted hc p
  exact h.trans ⟨congrArg Upd.rec0 hu, congrArg Upd.rec1 hu, congrArg Upd.nor hu, congrArg Upd.keys hu, t.post_hostMem code p,
    congrArg Mem.retired hm, congrArg Mem.repairs hm, show (t.post code p).res.bare.rows = t.res.bare.rows from congrArg Res.rows hk.res,
    t.post_pending code p⟩

end Sys2Proof.Claims.StoresKept

namespace Sys2Proof.Machine
open Sys2Proof.Claims

/-! ### A cold reset -/

/-- The device in a cold reset, before the restores that it meets are reported lost. -/
def State.coldDown (s : State) (cause : Nat) : State :=
  (((s.blank coldKeeps).wr GEN_RSTCAUSE.cause cause).wr GEN_BOOTSTAT.kind 1).railsDown (ms 10)

theorem railsDown_only (s : State) (n : Nat) : ∃ phase, s.railsDown n = { s with pwr := { s.pwr with phase := phase, offFor := n } } := by
  unfold State.railsDown
  dsimp only
  split
  · exact ⟨_, rfl⟩
  · exact ⟨_, rfl⟩

section Cold
variable (s : State) (cause : Nat)

theorem coldDown_kept : KeepsFields (fun k => k ≠ GEN_RSTCAUSE.cause.key ∧ k ≠ GEN_BOOTSTAT.kind.key) (s.blank coldKeeps) (s.coldDown cause) := by
  obtain ⟨phase, he⟩ := railsDown_only (((s.blank coldKeeps).wr GEN_RSTCAUSE.cause cause).wr GEN_BOOTSTAT.kind 1) (ms 10)
  unfold State.coldDown
  rw [he]
  exact .ofRegs (.wr (.wr (.refl _ _) (f := GEN_RSTCAUSE.cause) (by decide) cause) (f := GEN_BOOTSTAT.kind) (by decide) 1) rfl

/-- The reports of lost restores leave the rest of a cold reset. -/
theorem cold_kept : SeatsKept calmKey (s.coldDown cause) (s.cold cause) ∧ StoresKept (s.coldDown cause) (s.cold cause) :=
  List.foldlRecOn (motive := fun t => SeatsKept calmKey (s.coldDown cause) t ∧ StoresKept (s.coldDown cause) t) _ _
    ⟨.refl _ _, .refl _⟩ fun _ h _ _ => ⟨h.1.posted (by decide) _, h.2.post (by decide) _⟩

theorem cold_stores : StoresKept s (s.cold cause) := by
  refine StoresKept.trans ?_ (cold_kept s cause).2
  obtain ⟨phase, he⟩ := railsDown_only (((s.blank coldKeeps).wr GEN_RSTCAUSE.cause cause).wr GEN_BOOTSTAT.kind 1) (ms 10)
  unfold State.coldDown
  rw [he]
  exact ((blank_stores.wr _ _).wr _ _).setPwr _

/-- Every field that a cold reset does not write reads as kept, or as out of reset. -/
theorem cold_rd {f : Fld} (hf : besideStores f.key) (hc : calmKey f.key) (hk : f.key ≠ GEN_RSTCAUSE.cause.key ∧ f.key ≠ GEN_BOOTSTAT.kind.key) :
    (s.cold cause).rd f = if coldKeeps (f.key / 64) then s.rd f else f.reset :=
  ((cold_kept s cause).1.rd hc).trans (((coldDown_kept s cause).rd f hk).trans (blank_rd s hf))

/-- The ready flag is down, and the enables are left to their order. -/
theorem cold_ready : (s.cold cause).rd GEN_BOOTSTAT.ready = 0 := cold_rd s cause (by decide) (by decide) (by decide)

theorem cold_en : (s.cold cause).rd GEN_PSEQ.en = s.rd GEN_PSEQ.en := cold_rd s cause (by decide) (by decide) (by decide)

/-- What power and resets hold after a cold reset. -/
theorem cold_pwr : ∃ phase alert, (s.cold cause).pwr = { (s.wiped coldKeeps).pwr with phase := phase, offFor := ms 10, bmcAlert := alert } := by
  obtain ⟨phase, he⟩ := railsDown_only (((s.blank coldKeeps).wr GEN_RSTCAUSE.cause cause).wr GEN_BOOTSTAT.kind 1) (ms 10)
  obtain ⟨regs, sum, n, hb⟩ := blank_only s coldKeeps
  have hd : (s.coldDown cause).pwr = { (s.wiped coldKeeps).pwr with phase := phase, offFor := ms 10 } := by
    unfold State.coldDown
    rw [he, hb]
    rfl
  have hk := (cold_kept s cause).1.pwr
  rw [hd] at hk
  refine ⟨phase, (s.cold cause).pwr.bmcAlert, ?_⟩
  calc (s.cold cause).pwr = { (s.cold cause).pwr.bare with bmcAlert := (s.cold cause).pwr.bmcAlert } := rfl
    _ = _ := by rw [hk]; rfl

variable {s} (hr : s.regsOk = true)
include hr

theorem coldDown_shows : (s.coldDown cause).regsOk = true ∧ (s.coldDown cause).rd GEN_RSTCAUSE.cause = cause % 16 ∧
    (s.coldDown cause).rd GEN_BOOTSTAT.kind = 1 := by
  have hb : (s.blank coldKeeps).regsOk = true := blank_regsOk hr
  obtain ⟨phase, he⟩ := railsDown_only (((s.blank coldKeeps).wr GEN_RSTCAUSE.cause cause).wr GEN_BOOTSTAT.kind 1) (ms 10)
  refine ⟨(coldDown_kept s cause).regsOk hb, ?_⟩
  unfold State.coldDown
  rw [he]
  have hw := State.wr_regsOk hb GEN_RSTCAUSE.cause cause
  exact ⟨(State.rd_wr_ne _ (f := GEN_BOOTSTAT.kind) 1 (by decide)).trans (State.rd_wr_self hb GEN_RSTCAUSE.cause cause),
    State.rd_wr_self hw GEN_BOOTSTAT.kind 1⟩

theorem cold_regsOk : (s.cold cause).regsOk = true := (cold_kept s cause).1.regsOk (coldDown_shows cause hr).1

theorem cold_cause : (s.cold cause).rd GEN_RSTCAUSE.cause = cause % 16 := ((cold_kept s cause).1.rd (by decide)).trans (coldDown_shows cause hr).2.1

theorem cold_kind : (s.cold cause).rd GEN_BOOTSTAT.kind = 1 := ((cold_kept s cause).1.rd (by decide)).trans (coldDown_shows cause hr).2.2

end Cold

end Sys2Proof.Machine
end

section
/-! SUPPORT. The boot sequencer (R569, R588 to R591): the choice of the image, and the steps. -/
namespace Sys2Proof.Machine
open Sys2Proof.Claims

/-! ### One value written into each of several fields -/

theorem State.rd_foldl_wr {f : Nat → Fld} {v : Nat} {s : State} (hr : s.regsOk = true) : ∀ n, (∀ i < n, ∀ j < n, i ≠ j → (f i).key ≠ (f j).key) →
    ((List.range n).foldl (fun t k => t.wr (f k) v) s).regsOk = true ∧
      ∀ k < n, ((List.range n).foldl (fun t k => t.wr (f k) v) s).rd (f k) = v % 2 ^ (f k).width
  | 0, _ => ⟨hr, fun _ h => absurd h (Nat.not_lt_zero _)⟩
  | n + 1, hne => by
    obtain ⟨ih, hrd⟩ := State.rd_foldl_wr hr n fun i hi j hj => hne i (by omega) j (by omega)
    simp only [List.range_succ, List.foldl_append, List.foldl_cons, List.foldl_nil]
    refine ⟨State.wr_regsOk ih _ _, fun k hk => ?_⟩
    by_cases hkn : k = n
    · rw [hkn, State.rd_wr_self ih]
    · rw [State.rd_wr_ne _ _ (hne k hk n (by omega) hkn), hrd k (by omega)]

/-! ### The choice of the image (R569) -/

section Choice
variable {s : State}

/-- Recovery mode is entered with its cause (R571). -/
theorem enterRecovery_shows (hr : s.regsOk = true) {cause : Nat} (hc : cause < 4) :
    (s.enterRecovery cause).pwr.recovery = true ∧ (s.enterRecovery cause).rd UPD_BOOT.recovery_cause = cause := by
  set u : State := { (s.wr UPD_BOOT.booted 3).wr UPD_BOOT.recovery_cause cause with pwr := { s.pwr with recovery := true, stepAt := s.clk } } with hu
  have hk : SeatsKept besideSeatStat u (s.enterRecovery cause) := .ite (.refl _ u) (u.seatTo_kept false 4)
  refine ⟨show (s.enterRecovery cause).pwr.bare.recovery = true from congrArg Pwr.recovery hk.pwr, (hk.rd (by decide)).trans ?_⟩
  exact (State.rd_wr_self (State.wr_regsOk hr _ _) UPD_BOOT.recovery_cause cause).trans (Nat.mod_eq_of_lt hc)

/-- The device before a bank is booted: settings of another format are discarded (R566). -/
theorem bootBank_eq (s : State) (b fails : Nat) (fresh : Bool) : ∃ (u : State) (fmt ver : Nat), (s.regsOk = true → u.regsOk = true) ∧
    u.record.confirmed = s.record.confirmed ∧ s.bootBank b fails fresh =
      let n := min 255 (fails + 1)
      let t := u.putRec (fun r => { r with trial := none, trialVer := 0, bootFails := n, fmt := fmt })
      let t := (((t.wr UPD_BOOT.booted b).wr UPD_BOOT.boot_fails n).wr UPD_BOOT.recovery_cause 0).wr GEN_FWVER.version ver
      { t.wr GEN_BOOTSTAT.step 4 with pwr := { t.pwr with stepAt := t.clk, recovery := false } } := by
  refine ⟨_, _, _, fun hr => ?_, ?_, rfl⟩
  · split
    · exact State.post_regsOk (State.wr_regsOk ((s.putRec_kept _).regsOk hr) _ _) _ _
    · exact hr
  · split
    · rw [State.record_post, State.record_wr, State.record_putRec]
    · rfl

theorem bootBank_shows (hr : s.regsOk = true) {b : Nat} (hb : b < 4) (fails : Nat) (fresh : Bool) :
    let t := s.bootBank b fails fresh
    t.rd UPD_BOOT.booted = b ∧ t.record.trial = none ∧ t.record.confirmed = s.record.confirmed ∧ t.record.bootFails = min 255 (fails + 1) ∧
      t.rd GEN_BOOTSTAT.step = 4 ∧ t.pwr.recovery = false := by
  intro t
  obtain ⟨u, fmt, ver, hur, hconf, he⟩ := bootBank_eq s b fails fresh
  set n := min 255 (fails + 1) with hn
  set v := u.putRec (fun r => { r with trial := none, trialVer := 0, bootFails := n, fmt := fmt }) with hv
  set w := (((v.wr UPD_BOOT.booted b).wr UPD_BOOT.boot_fails n).wr UPD_BOOT.recovery_cause 0).wr GEN_FWVER.version ver with hw
  have ht : t = { w.wr GEN_BOOTSTAT.step 4 with pwr := { w.pwr with stepAt := w.clk, recovery := false } } := he
  have hvr : v.regsOk = true := (u.putRec_kept _).regsOk (hur hr)
  have hwr : w.regsOk = true := State.wr_regsOk (State.wr_regsOk (State.wr_regsOk (State.wr_regsOk hvr _ _) _ _) _ _) _ _
  have hrd : ∀ f, t.rd f = (w.wr GEN_BOOTSTAT.step 4).rd f := fun f => by rw [ht]; rfl
  have hrec : t.record = v.record := by rw [ht]; exact State.record_congr rfl rfl
  refine ⟨?_, ?_, ?_, ?_, (hrd _).trans (State.rd_wr_self hwr GEN_BOOTSTAT.step 4), by rw [ht]⟩
  · rw [hrd, hw, State.rd_wr_ne, State.rd_wr_ne, State.rd_wr_ne, State.rd_wr_ne, State.rd_wr_self hvr]
    · exact Nat.mod_eq_of_lt hb
    all_goals decide
  · rw [hrec, hv, State.record_putRec]
  · rw [hrec, hv, State.record_putRec, ← hconf]
  · rw [hrec, hv, State.record_putRec]

theorem chooseImage_fails {fails : Nat} (h : 3 ≤ fails) : s.chooseImage false fails = s.enterRecovery 3 := by
  unfold State.chooseImage
  exact (if_neg Bool.false_ne_true).trans (if_pos h)

section Valid
variable {fails : Nat} (hf : fails < 3) (h0 : s.upd.rec0.isSome = true)
include hf h0

/-- With a valid record the confirmed bank is tried, then the other. -/
theorem chooseImage_valid : s.chooseImage false fails =
    if s.bootCheck s.record.confirmed then s.bootBank s.record.confirmed fails false
    else
      let u := s.markArea s.record.confirmed 3
      let o := 1 - s.record.confirmed
      if u.isSealed o && u.bootCheck o then
        ((u.putRec (fun r => { r with confirmed := o, confVer := leAt (u.seal o) 4 4 })).post 0x0D07 [s.record.confirmed, o]).bootBank o fails false
      else u.enterRecovery 1 := by
  have hfresh : (s.upd.rec0.isNone && s.upd.rec1.isNone) = false := by
    rw [Option.isSome_iff_exists] at h0
    obtain ⟨r, hr⟩ := h0
    rw [hr]
    rfl
  unfold State.chooseImage
  rw [hfresh]
  exact (if_neg Bool.false_ne_true).trans (if_neg (Nat.not_le.mpr hf))

theorem chooseImage_confirmed (hb : s.bootCheck s.record.confirmed = true) :
    s.chooseImage false fails = s.bootBank s.record.confirmed fails false := (chooseImage_valid hf h0).trans (if_pos hb)

variable (hb : s.bootCheck s.record.confirmed = false) {u : State} {o : Nat} (hu : s.markArea s.record.confirmed 3 = u) (ho : 1 - s.record.confirmed = o)
include hb hu ho

theorem chooseImage_second (h : (u.isSealed o && u.bootCheck o) = true) : s.chooseImage false fails =
    ((u.putRec (fun r => { r with confirmed := o, confVer := leAt (u.seal o) 4 4 })).post 0x0D07 [s.record.confirmed, o]).bootBank o fails false := by
  rw [chooseImage_valid hf h0, if_neg (by rw [hb]; decide), hu, ho]
  exact if_pos h

theorem chooseImage_none (h : (u.isSealed o && u.bootCheck o) = false) : s.chooseImage false fails = u.enterRecovery 1 := by
  rw [chooseImage_valid hf h0, if_neg (by rw [hb]; decide), hu, ho]
  exact if_neg (by rw [h]; decide)

end Valid

end Choice

/-! ### The steps (R588 to R591) -/

theorem exec_bootStep {s : State} (h : s.booting = true) {n : Nat} (hn : s.rd GEN_BOOTSTAT.step = n) (a b : Bool) (bad : List Nat) :
    exec (.bootStepComplete a b bad) s = match (motive := Nat → Out) n with
    | 1 => .next ((s.bootRecords bad).toStep 2)
    | 2 => if s.pwr.phase = 2 then .next (((s.avsSend 0 a).avsSend 1 b).toStep 3) else .next s
    | 3 =>
      let s := s.chooseImage (!bitOf (s.rd GEN_STRAPS.straps) 0) s.record.bootFails
      if s.pwr.recovery then .next s else .next ((s.seatLoad false false).seatLoad true false)
    | 4 =>
      if a || b then
        let s := s.bootSeats a b
        .next (((List.range 6).foldl (fun t k => t.wr (MCH_STAT.state k) 1) s).toStep 5)
      else
        let (n, s) := s.fresh
        .next (s.cold (Config.pick n % 16))
    | 5 => if (List.range 6).any (fun k => s.rd (MCH_STAT.state k) == 1) then .next s else .next ((s.startDdr bad).toStep 6)
    | 6 =>
      if !s.mem.restore.isEmpty || (List.range 8).any (fun c => s.rd (MCD_STAT.state c) == 2) then .next s else .next (s.toStep 7)
    | 7 =>
      if s.bit D2D_STAT.fd_reset then .next s
      else .next (((List.range 24).foldl (fun t m => t.wr (D2D_MODSTAT.state m) 1) s).toStep 8)
    | 8 =>
      if (List.range 24).any (fun m => s.modState m == 1) then .next s
      else .next ((s.wrBit GEN_BOOTSTAT.fd_ok (!s.activeMods.isEmpty)).toStep 9)
    | 9 => .next ((s.bootEngines bad).toStep 10)
    | 10 => .next ((s.bootFib.toStep 11).bootReady)
    | _ => .next s := by
  subst hn
  show execBootStepComplete a b bad s = _
  unfold execBootStepComplete
  exact if_neg (by rw [h]; decide)

theorem toStep_kept (s : State) (n : Nat) : KeepsFields (· ≠ GEN_BOOTSTAT.step.key) s (s.toStep n) :=
  KeepsFields.ofRegs (t := s.wr GEN_BOOTSTAT.step n) (.wr (.refl _ s) (fun h => h rfl) n) rfl

theorem toStep_step {s : State} (hr : s.regsOk = true) {n : Nat} (hn : n < 16) : (s.toStep n).rd GEN_BOOTSTAT.step = n :=
  (State.rd_wr_self hr GEN_BOOTSTAT.step n).trans (Nat.mod_eq_of_lt hn)

/-- None of the units of a step is in the state that it waits for. -/
theorem not_any_range {n : Nat} {g : Nat → Nat} {v : Nat} (h : ∀ k, k < n → g k ≠ v) : (List.range n).any (fun k => g k == v) = false := by
  simpa using h

section Seats
variable {s : State}

/-- Stored settings take effect outside block SEAT (R405, R532, R619). -/
theorem loadSettings_kept (s : State) : KeepsFields seatKey s s.loadSettings := by
  have hcfg : ∀ c, ¬ seatKey (MCD_CFG.role c).key ∧ ¬ seatKey (MCD_CFG.retain c).key := fun c =>
    ⟨not_seatKey (.inr (by simp only [MCD_CFG.role]; omega)), not_seatKey (.inr (by simp only [MCD_CFG.retain]; omega))⟩
  have hseg : ∀ k, ¬ seatKey (TEL_SEGMAP.home k).key := fun k => not_seatKey (.inr (by simp only [TEL_SEGMAP.home]; omega))
  unfold State.loadSettings
  refine KeepsFields.ofRegs (t := List.foldl _ _ _) (.foldl _ (fun k _ t ht => ht.wr (hseg k) _) ?_) rfl
  exact .foldl _ (fun c _ t ht => (ht.wr (hcfg c).1 _).wr (hcfg c).2 _) (.refl _ s)

theorem sbPut_regs (s : State) (m : SbMsg) : (s.sbPut m).regs = s.regs := by
  unfold State.sbPut
  split <;> rfl

/-- Step 4 makes a passing seat ACTIVE; the other follows it, or is resigned (R589). -/
theorem bootSeats_stand (hr : s.regsOk = true) (a b : Bool) : Stand (s.bootSeats a b) (!a) 4 (if a && b then 2 else 6) ∧
    (s.bootSeats a b).regsOk = true := by
  set u : State := { s with res := { s.res with islandAt := s.clk } } with hu
  have h0 : Stand u (!a) (s.seatIs (!a)) (s.seatIs (!!a)) := ⟨rfl, rfl⟩
  have hur : u.regsOk = true := hr
  have h1 := h0.toFirst hur (n := 4) (by decide)
  have hr1 := State.seatTo_regsOk (!a) hur 4
  have hend : ∀ {t : State} {n : Nat}, Stand t (!a) 4 n → t.regsOk = true →
      Stand (t.loadSettings.sbPut (.power true false)) (!a) 4 n ∧ (t.loadSettings.sbPut (.power true false)).regsOk = true := fun {t _} h htr => by
    have hk : KeepsFields seatKey t (t.loadSettings.sbPut (.power true false)) := (loadSettings_kept t).ofRegs (sbPut_regs _ _)
    have hs : ∀ c, seatKey (seatSt c).key := fun c => by cases c <;> exact ⟨by decide, by decide⟩
    exact ⟨⟨(hk.rd _ (hs _)).trans h.1, (hk.rd _ (hs _)).trans h.2⟩, hk.regsOk htr⟩
  cases hab : a && b with
  | true =>
    have he : s.bootSeats a b = (((u.seatTo (!a) 4).seatTo (!!a) 2)).loadSettings.sbPut (.power true false) := by
      unfold State.bootSeats
      rw [hab]
      rfl
    rw [he]
    exact hend (h1.toSecond hr1 (by decide)) (State.seatTo_regsOk _ hr1 2)
  | false =>
    have he : s.bootSeats a b = (((u.seatTo (!a) 4).seatTo (!!a) 6).resign 1 (b2n (!!a)) 0 4).loadSettings.sbPut (.power true false) := by
      unfold State.bootSeats
      rw [hab]
      rfl
    have hk := resign_kept (!!a) 4 ((u.seatTo (!a) 4).seatTo (!!a) 6)
    rw [he]
    exact hend ((h1.toSecond hr1 (by decide)).kept hk) (hk.regsOk (State.seatTo_regsOk _ hr1 6))

theorem exec_bootStep_seats (h : s.booting = true) (h4 : s.rd GEN_BOOTSTAT.step = 4) {a b : Bool} (hab : a = true ∨ b = true)
    (hr : s.regsOk = true) (bad : List Nat) : ∃ t, exec (.bootStepComplete a b bad) s = .next t ∧ t.rd GEN_BOOTSTAT.step = 5 ∧
      Stand t (!a) 4 (if a && b then 2 else 6) ∧ ∀ k, k < 6 → t.rd (MCH_STAT.state k) = 1 := by
  obtain ⟨hs, hbr⟩ := bootSeats_stand hr a b
  obtain ⟨hfr, hf⟩ := State.rd_foldl_wr (f := MCH_STAT.state) (v := 1) hbr 6 (by decide)
  obtain ⟨u, hu⟩ : ∃ u, (List.range 6).foldl (fun t k => t.wr (MCH_STAT.state k) 1) (s.bootSeats a b) = u := ⟨_, rfl⟩
  have hmch : ∀ k, ¬ seatKey (MCH_STAT.state k).key := fun k => not_seatKey (.inr (by simp only [MCH_STAT.state]; omega))
  have hfold : KeepsFields seatKey (s.bootSeats a b) u := hu ▸ .foldl _ (fun k _ t ht => ht.wr (hmch k) 1) (.refl _ _)
  have hk : KeepsFields seatKey (s.bootSeats a b) (u.toStep 5) :=
    hfold.trans ((toStep_kept u 5).mono fun k hk hstep => by subst hstep; exact absurd hk (not_seatKey (.inl (by decide))))
  have hs' : ∀ c, seatKey (seatSt c).key := fun c => by cases c <;> exact ⟨by decide, by decide⟩
  rw [hu] at hfr hf
  refine ⟨u.toStep 5, ?_, toStep_step hfr (by decide), ⟨(hk.rd _ (hs' _)).trans hs.1, (hk.rd _ (hs' _)).trans hs.2⟩, fun k hk6 => ?_⟩
  · rw [exec_bootStep h h4, ← hu]
    exact if_pos (by simpa using hab)
  · refine ((toStep_kept u 5).rd _ ?_).trans (hf k hk6)
    simp only [Fld.key, MCH_STAT.state, GEN_BOOTSTAT.step]
    omega

theorem exec_bootStep_noSeat (h : s.booting = true) (h4 : s.rd GEN_BOOTSTAT.step = 4) (bad : List Nat) :
    exec (.bootStepComplete false false bad) s = .next (s.fresh.2.cold (Config.pick s.fresh.1 % 16)) := exec_bootStep h h4 false false bad

/-- Step 7: every module of the bridge is in TRAINING. -/
theorem exec_bootStep_bridge (h : s.booting = true) (h7 : s.rd GEN_BOOTSTAT.step = 7) (hf : s.bit D2D_STAT.fd_reset = false)
    (hr : s.regsOk = true) (a b : Bool) (bad : List Nat) : ∃ t, exec (.bootStepComplete a b bad) s = .next t ∧ t.rd GEN_BOOTSTAT.step = 8 ∧
      ∀ m, m < 24 → t.modState m = 1 := by
  obtain ⟨hfr, hrd⟩ := State.rd_foldl_wr (f := D2D_MODSTAT.state) (v := 1) hr 24 fun i _ j _ hij => by
    simp only [Fld.key, D2D_MODSTAT.state]
    omega
  obtain ⟨u, hu⟩ : ∃ u, (List.range 24).foldl (fun t m => t.wr (D2D_MODSTAT.state m) 1) s = u := ⟨_, rfl⟩
  rw [hu] at hfr hrd
  refine ⟨u.toStep 8, ?_, toStep_step hfr (by decide), fun m hm => ?_⟩
  · rw [exec_bootStep h h7, ← hu]
    exact if_neg (by rw [hf]; decide)
  · refine ((toStep_kept u 8).rd _ ?_).trans (hrd m hm)
    simp only [Fld.key, D2D_MODSTAT.state, GEN_BOOTSTAT.step]
    omega

end Seats

end Sys2Proof.Machine
end

section
namespace Sys2Proof
open Machine Claims

/-- Settles O56: the choice of the image by the checks of the banks, each step by the guard that it waits for, and the time limit. -/
theorem bootSequence : Obligations.BootSequence := by
  unfold Obligations.BootSequence
  refine ⟨fun s fails hr => ⟨(enterRecovery_shows hr (by decide)).1, (enterRecovery_shows hr (by decide)).2, fun h => ?fails⟩,
    fun s fails hr hf h0 hc hb => ?confirmed, fun s fails hr hf h0 hc hb => ?second, fun s a b bad h => ?steps, fun s h hp => ?timeout⟩
  case fails =>
    rw [chooseImage_fails h]
    exact enterRecovery_shows hr (by decide)
  case confirmed =>
    intro t
    obtain ⟨hboot, htrial, hconf, hn, hstep, hrec⟩ := bootBank_shows hr (show s.record.confirmed < 4 by omega) fails false
    rw [show t = s.bootBank s.record.confirmed fails false from chooseImage_confirmed hf h0 hb]
    exact ⟨hboot, htrial, hconf, hn.trans (by omega), hstep, hrec⟩
  case second =>
    intro u
    refine ⟨fun hsealed hcheck => ?_, fun hbad => chooseImage_none hf h0 hb rfl rfl ?_⟩
    · have hur : u.regsOk = true := (s.putRec_kept _).regsOk hr
      rw [chooseImage_second hf h0 hb (u := u) rfl rfl (by rw [hsealed, hcheck]; rfl)]
      obtain ⟨hboot, -, hconf, -⟩ := bootBank_shows (State.post_regsOk ((u.putRec_kept (fun r =>
        { r with confirmed := 1 - s.record.confirmed, confVer := leAt (u.seal (1 - s.record.confirmed)) 4 4 })).regsOk hur) 0x0D07
          [s.record.confirmed, 1 - s.record.confirmed]) (show 1 - s.record.confirmed < 4 by omega) fails false
      refine ⟨hboot, hconf.trans ?_⟩
      rw [State.record_post, State.record_putRec]
    · obtain h | h := hbad <;> rw [h]
      · rfl
      · exact Bool.and_false _
  case steps =>
    refine ⟨fun h1 => exec_bootStep h h1 a b bad, fun h2 hp => (exec_bootStep h h2 a b bad).trans (if_pos hp),
      fun h2 hp => (exec_bootStep h h2 a b bad).trans (if_neg hp), fun h3 => ⟨fun hrec => (exec_bootStep h h3 a b bad).trans (if_pos hrec),
        fun hrec => (exec_bootStep h h3 a b bad).trans (if_neg (by rw [hrec]; decide))⟩, fun h4 hab hr => ?_, fun h4 ha hb hr => ?_,
      fun h5 hn => (exec_bootStep h h5 a b bad).trans (if_neg (by rw [not_any_range hn]; decide)),
      fun h6 hm hn => (exec_bootStep h h6 a b bad).trans (if_neg (by rw [not_any_range hn, hm]; decide)),
      fun h7 hf hr => exec_bootStep_bridge h h7 hf hr a b bad,
      fun h8 hn => (exec_bootStep h h8 a b bad).trans (if_neg (by rw [not_any_range hn]; decide)), fun h9 => exec_bootStep h h9 a b bad,
      fun h10 => exec_bootStep h h10 a b bad⟩
    · obtain ⟨t, ht, hstep, hs, hm⟩ := exec_bootStep_seats h h4 hab hr bad
      exact ⟨t, ht, hstep, hs.1, by simpa only [Bool.not_not] using hs.2, hm⟩
    · subst ha hb
      exact ⟨_, exec_bootStep_noSeat h h4 bad, cold_kind _ (s := s.fresh.2) hr, cold_ready _ _⟩
  case timeout => exact if_pos ⟨h, State.elapsed_of_le hp⟩

end Sys2Proof
end

section
/-! SUPPORT. The rails (R578 to R582, R643): the enables in their order, and what power faults, feeds and the clock do to them. -/
namespace Sys2Proof.Machine
open Sys2Proof.Claims

/-! ### The run of enables -/

/-- The enables that are high, from group 0 upward: `k` of them. -/
def Enabled (s : State) (k : Nat) : Prop := k ≤ 8 ∧ s.rd GEN_PSEQ.en = 2 ^ k - 1

theorem enRun_iff {s : State} : EnRun s ↔ ∃ k, Enabled s k := Iff.rfl

section Enabled
variable {s t : State} {k : Nat}

theorem Enabled.of_rd (h : Enabled s k) (he : t.rd GEN_PSEQ.en = s.rd GEN_PSEQ.en) : Enabled t k := ⟨h.1, he.trans h.2⟩

theorem enRun_of_rd (h : EnRun s) (he : t.rd GEN_PSEQ.en = s.rd GEN_PSEQ.en) : EnRun t := by
  obtain ⟨k, hk⟩ := h
  exact ⟨k, Enabled.of_rd hk he⟩

theorem enRun_of_none (he : s.rd GEN_PSEQ.en = 0) : EnRun s := ⟨0, by decide, he⟩

theorem Enabled.topEn (h : Enabled s k) : s.topEn = if k = 0 then none else some (k - 1) := by
  obtain ⟨h8, hen⟩ := h
  have hfind : ∀ k < 9, ([7, 6, 5, 4, 3, 2, 1, 0].find? fun g => bitOf (2 ^ k - 1) g) = if k = 0 then none else some (k - 1) := by decide
  unfold State.topEn
  rw [hen]
  exact hfind k (by omega)

/-- The last group of a run that is not empty. -/
theorem Enabled.topEn_last {g : Nat} (h : Enabled s (g + 1)) : s.topEn = some g := h.topEn

theorem setEn_en (hr : s.regsOk = true) (g : Nat) (on : Bool) :
    (s.setEn g on).rd GEN_PSEQ.en = putBits (s.rd GEN_PSEQ.en) g 1 (b2n on) % 256 := State.rd_wr_self hr GEN_PSEQ.en _

/-- The next group's enable rises. -/
theorem Enabled.raise (h : Enabled s k) (hr : s.regsOk = true) (hk : k < 8) : Enabled (s.setEn k true) (k + 1) := by
  have hput : ∀ k < 8, putBits (2 ^ k - 1) k 1 1 % 256 = 2 ^ (k + 1) - 1 := by decide
  exact ⟨hk, (setEn_en hr k true).trans (by rw [h.2]; exact hput k hk)⟩

/-- The enable of group 0 rises, or is high already. -/
theorem Enabled.raise_first (h : Enabled s k) (hr : s.regsOk = true) : Enabled (s.setEn 0 true) (max k 1) := by
  have hput : ∀ k < 9, putBits (2 ^ k - 1) 0 1 1 % 256 = 2 ^ max k 1 - 1 := by decide
  obtain ⟨h8, hen⟩ := h
  exact ⟨by omega, (setEn_en hr 0 true).trans (by rw [hen]; exact hput k (by omega))⟩

/-- The last group's enable falls. -/
theorem Enabled.lower (h : Enabled s (k + 1)) (hr : s.regsOk = true) : Enabled (s.setEn k false) k := by
  have hput : ∀ k < 8, putBits (2 ^ (k + 1) - 1) k 1 0 % 256 = 2 ^ k - 1 := by decide
  obtain ⟨h8, hen⟩ := h
  exact ⟨by omega, (setEn_en hr k false).trans (by rw [hen]; exact hput k (by omega))⟩

theorem setPg_rd (s : State) (g : Nat) (on : Bool) {f : Fld} (hf : f.key ≠ GEN_PSEQ.pg.key) : (s.setPg g on).rd f = s.rd f := State.rd_wr_ne _ _ hf

theorem railsCut_en (hr : s.regsOk = true) : s.railsCut.rd GEN_PSEQ.en = 0 := State.rd_wr_self hr GEN_PSEQ.en 0

theorem railsCut_rd (s : State) {f : Fld} (hf : f.key ≠ GEN_PSEQ.en.key) : s.railsCut.rd f = s.rd f := State.rd_wr_ne s 0 hf

end Enabled

/-! ### Power faults -/

/-- Whether the restart of R581 is left out: a second fault within 10 s, or a trip. -/
def State.staysOff (s : State) : Bool := (decide (s.pwr.faultAt ≠ 0) && !s.elapsed (s.pwr.faultAt - 1) (ms 10000)) || s.pwr.tripPin

section Fault
variable (s : State) (g : Nat)

theorem powerFault_rd {f : Fld} (hf : f.key ≠ GEN_RSTCAUSE.group.key) : (s.powerFault g).rd f = (s.cold 5).rd f :=
  State.rd_wr_ne (s.cold 5) (f := GEN_RSTCAUSE.group) g hf

theorem powerFault_en : (s.powerFault g).rd GEN_PSEQ.en = s.rd GEN_PSEQ.en := (powerFault_rd s g (by decide)).trans (cold_en s 5)

theorem powerFault_stores : StoresKept s (s.powerFault g) := (cold_stores s 5).wr GEN_RSTCAUSE.group g |>.setPwr _

theorem powerFault_pwr : (s.powerFault g).pwr.restart = !s.staysOff ∧ (s.powerFault g).pwr.held = (s.pwr.held || s.staysOff) := ⟨rfl, rfl⟩

variable {s} in
theorem powerFault_shows (hr : s.regsOk = true) {g : Nat} (hg : g < 8) : (s.powerFault g).rd GEN_RSTCAUSE.cause = 5 ∧
    (s.powerFault g).rd GEN_RSTCAUSE.group = g ∧ (s.powerFault g).rd GEN_BOOTSTAT.ready = 0 :=
  ⟨(powerFault_rd s g (by decide)).trans (cold_cause 5 hr),
    (State.rd_wr_self (cold_regsOk 5 hr) GEN_RSTCAUSE.group g).trans (Nat.mod_eq_of_lt hg),
    (powerFault_rd s g (by decide)).trans (cold_ready s 5)⟩

theorem staysOff_first (h0 : s.pwr.faultAt = 0) (ht : s.pwr.tripPin = false) : s.staysOff = false := by simp [State.staysOff, h0, ht]

theorem staysOff_again {n : Nat} (hn : s.pwr.faultAt = n + 1) (hc : s.clk < n + 10000000000) : s.staysOff = true := by
  have hel : s.elapsed n (ms 10000) = false := decide_eq_false (Nat.not_le.mpr hc)
  simp [State.staysOff, hn, hel]

end Fault

/-! ### The commands of the rails -/

section Commands
variable {s : State}

theorem exec_powerSequenceStart (hrun : s.runnable = true) (h1 : s.pwr.restart = false) (h0 : s.pwr.phase = 0)
    (h2 : s.rd GEN_BOOTSTAT.step = 2) (hf : Past s s.pwr.feedAt 10000000) (ho : Past s s.pwr.offAt s.pwr.offFor) :
    exec .powerSequenceStart s = .next { s.setEn 0 true with pwr := { (s.setEn 0 true).pwr with phase := 1 } } :=
  if_pos ⟨hrun, by rw [h1]; rfl, h0, h2, State.elapsed_of_le hf, State.elapsed_of_le ho⟩

/-- The state in which the power-good of group `g` is read as high. -/
def State.goodAt (s : State) (g : Nat) : State := let t := s.setPg g true; if g = 2 then t.wr D2D_STAT.fd_powered 1 else t

theorem goodAt_kept (s : State) (g : Nat) : KeepsFields (fun k => k ≠ GEN_PSEQ.pg.key ∧ k ≠ D2D_STAT.fd_powered.key) s (s.goodAt g) ∧
    (s.goodAt g).pwr = s.pwr := by
  have hp : KeepsFields (fun k => k ≠ GEN_PSEQ.pg.key ∧ k ≠ D2D_STAT.fd_powered.key) s (s.setPg g true) :=
    (KeepsFields.refl _ s).wr (f := GEN_PSEQ.pg) (by decide) _
  unfold State.goodAt
  dsimp only
  split
  · exact ⟨hp.wr (by decide) 1, rfl⟩
  · exact ⟨hp, rfl⟩

theorem exec_pseqEnableNext {g : Nat} (hg : s.topEn = some g) : exec .pseqEnableNext s =
    if s.runnable ∧ s.pwr.phase = 1 ∧ s.elapsed s.pwr.enAt (us 100) then
      if g = 7 then .next { s.goodAt g with pwr := { (s.goodAt g).pwr with phase := 2 } } else .next ((s.goodAt g).setEn (g + 1) true)
    else .next s := by
  show execPseqEnableNext s = _
  simp only [execPseqEnableNext, hg]
  rfl

theorem exec_pseqEnableNext_none (hg : s.topEn = none) : exec .pseqEnableNext s = .next s := by
  show execPseqEnableNext s = _
  simp only [execPseqEnableNext, hg]

theorem exec_pseqPgTimeout {g : Nat} (hg : s.topEn = some g) : exec .pseqPgTimeout s =
    if s.runnable ∧ s.pwr.phase = 1 ∧ s.elapsed s.pwr.enAt (ms 10) then .next (s.powerFault g) else .next s := by
  show execPseqPgTimeout s = _
  simp only [execPseqPgTimeout, hg]

theorem exec_pseqPgTimeout_none (hg : s.topEn = none) : exec .pseqPgTimeout s = .next s := by
  show execPseqPgTimeout s = _
  simp only [execPseqPgTimeout, hg]

theorem exec_powerGoodFall {g : Nat} (hg : g < 8) (hpg : bitOf (s.rd GEN_PSEQ.pg) g = true) : exec (.powerGoodFall g) s =
    .next (if bitOf ((s.setPg g false).rd GEN_PSEQ.en) g ∧ !s.pwr.sysrst ∧ s.pwr.phase ≠ 3 then (s.setPg g false).powerFault g else s.setPg g false) :=
  if_pos ⟨hg, hpg⟩

/-- The state in which the restart of R581 begins. -/
def State.restarting (s : State) : State := { s with pwr := { s.pwr with restart := false, bootAt := s.clk, stepAt := s.clk } }

theorem exec_powerFaultRestart (hrun : s.runnable = true) (hre : s.pwr.restart = true) (h0 : s.pwr.phase = 0)
    (hp : Past s (s.pwr.faultAt - 1) 100000000) : exec .powerFaultRestart s =
    .next { s.restarting.setEn 0 true with pwr := { (s.restarting.setEn 0 true).pwr with phase := 1 } } :=
  if_pos ⟨hrun, hre, h0, State.elapsed_of_le hp⟩

theorem exec_railDownNext {g : Nat} (h3 : s.pwr.phase = 3) (hg : s.topEn = some g) : exec .railDownNext s =
    if g = 7 ∨ !bitOf (s.rd GEN_PSEQ.pg) (g + 1) ∨ s.elapsed s.pwr.enAt (ms 2) then
      if g = 0 then .next { s.setEn g false with pwr := { (s.setEn g false).pwr with phase := 0, offAt := s.clk } } else .next (s.setEn g false)
    else .next s := by
  show execRailDownNext s = _
  simp only [execRailDownNext, hg, h3]
  rfl

theorem exec_railDownNext_none (h3 : s.pwr.phase = 3) (hg : s.topEn = none) : exec .railDownNext s = .next s.railsCut := by
  show execRailDownNext s = _
  simp only [execRailDownNext, hg, h3]
  rfl

theorem exec_sysrstAssert (h : s.pwr.sysrst = false) : exec .sysrstAssert s =
    .next { s.cold 1 with pwr := { (s.cold 1).pwr with sysrst := true, restart := false } } := if_neg (by rw [h]; decide)

theorem exec_sysrstRelease (h : s.pwr.sysrst = true) (recovery quad sris : Bool) : exec (.sysrstRelease recovery quad sris true) s =
    .next { s.wr GEN_STRAPS.straps (b2n recovery + 2 * b2n quad + 4 * b2n sris + 8 * b2n true) with
      pwr := { s.pwr with sysrst := false, held := false, tripPin := false, bootAt := s.clk, stepAt := s.clk } } :=
  (if_neg (by rw [h]; decide)).trans (if_neg (by decide))

/-- The device after the loss of both feeds. -/
def State.unfed (s : State) : State :=
  let t := (s.cold 2).railsCut
  { t with dies := { t.dies with feedA := false, feedB := false }, pwr := { t.pwr with restart := false } }

theorem exec_auxFeedsLost (torn : Bool) : exec (.auxFeedsLost torn) s = .next (if torn then s.tearRec else s).unfed := rfl

/-- The device while AUXCLK_IN is lost, and after it returned. -/
def State.unclocked (s : State) (lost : Bool) (cause : Nat) : State :=
  let t := (s.cold cause).railsCut
  { t with pwr := { t.pwr with clkLost := lost, restart := if lost then false else t.pwr.restart } }

theorem exec_auxclkLoss : exec .auxclkLoss s = .next (s.fresh.2.unclocked true (Config.pick s.fresh.1 % 16)) := rfl

theorem exec_auxclkReturn (h : s.pwr.clkLost = true) : exec .auxclkReturn s = .next (s.fresh.2.unclocked false (Config.pick s.fresh.1 % 16)) :=
  if_pos h

theorem tearRec_regsOk (hr : s.regsOk = true) : s.tearRec.regsOk = true := by
  unfold State.tearRec
  dsimp only
  split
  · exact hr
  · exact (State.syncAreas_kept _).regsOk hr

theorem railsCut_stores (s : State) : StoresKept s s.railsCut := .refl s

theorem unfed_shows (hr : s.regsOk = true) : s.unfed.rd GEN_PSEQ.en = 0 ∧ s.unfed.rd GEN_RSTCAUSE.cause = 2 ∧ s.unfed.fed = false ∧
    StoresKept s s.unfed :=
  ⟨railsCut_en (cold_regsOk 2 hr), (railsCut_rd (s.cold 2) (by decide)).trans (cold_cause 2 hr), rfl,
    (cold_stores s 2).trans (railsCut_stores _)⟩

theorem unclocked_shows (hr : s.regsOk = true) (lost : Bool) (cause : Nat) : (s.unclocked lost cause).rd GEN_PSEQ.en = 0 ∧
    (s.unclocked lost cause).pwr.clkLost = lost ∧ (s.unclocked lost cause).rd GEN_BOOTSTAT.ready = 0 ∧ StoresKept s (s.unclocked lost cause) :=
  ⟨railsCut_en (cold_regsOk cause hr), rfl, (railsCut_rd (s.cold cause) (by decide)).trans (cold_ready s cause),
    (cold_stores s cause).trans (railsCut_stores _)⟩

end Commands

/-! ### No command leaves a gap -/

section Gap
variable {s : State} (hr : s.regsOk = true) (h : EnRun s)
include h

theorem enRun_sysrstAssert : ∃ t, exec .sysrstAssert s = .next t ∧ EnRun t := by
  cases hs : s.pwr.sysrst with
  | true => exact ⟨s, if_pos hs, h⟩
  | false => exact ⟨_, exec_sysrstAssert hs, enRun_of_rd h (cold_en s 1)⟩

theorem enRun_sysrstRelease (recovery quad sris : Bool) : ∃ t, exec (.sysrstRelease recovery quad sris true) s = .next t ∧ EnRun t := by
  cases hs : s.pwr.sysrst with
  | true => exact ⟨_, exec_sysrstRelease hs recovery quad sris, enRun_of_rd h (State.rd_wr_ne s (f := GEN_STRAPS.straps) _ (by decide))⟩
  | false => exact ⟨s, if_pos (by rw [hs]; rfl), h⟩

theorem enRun_pseqPgTimeout : ∃ t, exec .pseqPgTimeout s = .next t ∧ EnRun t := by
  cases hg : s.topEn with
  | none => exact ⟨s, exec_pseqPgTimeout_none hg, h⟩
  | some g =>
    rw [exec_pseqPgTimeout hg]
    split
    · exact ⟨_, rfl, enRun_of_rd h (powerFault_en s g)⟩
    · exact ⟨s, rfl, h⟩

theorem enRun_powerGoodFall (g : Nat) : ∃ t, exec (.powerGoodFall g) s = .next t ∧ EnRun t := by
  have hpg : EnRun (s.setPg g false) := enRun_of_rd h (setPg_rd s g false (by decide))
  by_cases hb : g < 8 ∧ bitOf (s.rd GEN_PSEQ.pg) g = true
  · refine ⟨_, exec_powerGoodFall hb.1 hb.2, ?_⟩
    split
    · exact enRun_of_rd hpg (powerFault_en _ g)
    · exact hpg
  · exact ⟨s, if_neg hb, h⟩

include hr

theorem enRun_powerSequenceStart : ∃ t, exec .powerSequenceStart s = .next t ∧ EnRun t := by
  obtain ⟨k, hk⟩ := h
  show ∃ t, execPowerSequenceStart s = .next t ∧ EnRun t
  unfold execPowerSequenceStart
  dsimp only
  split
  · exact ⟨_, rfl, _, Enabled.raise_first hk hr⟩
  · exact ⟨s, rfl, k, hk⟩

theorem enRun_powerFaultRestart : ∃ t, exec .powerFaultRestart s = .next t ∧ EnRun t := by
  obtain ⟨k, hk⟩ := h
  show ∃ t, execPowerFaultRestart s = .next t ∧ EnRun t
  unfold execPowerFaultRestart
  dsimp only
  split
  · exact ⟨_, rfl, _, Enabled.raise_first (s := s.restarting) hk hr⟩
  · exact ⟨s, rfl, k, hk⟩

theorem enRun_pseqEnableNext : ∃ t, exec .pseqEnableNext s = .next t ∧ EnRun t := by
  obtain ⟨k, hk⟩ := h
  cases k with
  | zero => exact ⟨s, exec_pseqEnableNext_none (Enabled.topEn hk), 0, hk⟩
  | succ g =>
    obtain ⟨hkept, hp⟩ := goodAt_kept s g
    have hgood : Enabled (s.goodAt g) (g + 1) := Enabled.of_rd hk (hkept.rd _ (by decide))
    have h8 := hk.1
    rw [exec_pseqEnableNext (Enabled.topEn_last hk)]
    split
    · split
      · exact ⟨_, rfl, _, hgood⟩
      · exact ⟨_, rfl, _, hgood.raise (hkept.regsOk hr) (by omega)⟩
    · exact ⟨s, rfl, _, hk⟩

theorem enRun_railDownNext : ∃ t, exec .railDownNext s = .next t ∧ EnRun t := by
  obtain ⟨k, hk⟩ := h
  by_cases h3 : s.pwr.phase = 3
  · cases k with
    | zero => exact ⟨_, exec_railDownNext_none h3 (Enabled.topEn hk), enRun_of_none (railsCut_en hr)⟩
    | succ g =>
      have hlow := Enabled.lower hk hr
      rw [exec_railDownNext h3 (Enabled.topEn_last hk)]
      split
      · split
        · exact ⟨_, rfl, _, hlow⟩
        · exact ⟨_, rfl, _, hlow⟩
      · exact ⟨s, rfl, _, hk⟩
  · exact ⟨s, if_pos h3, k, hk⟩

theorem enRun_auxclkReturn : ∃ t, exec .auxclkReturn s = .next t ∧ EnRun t := by
  cases hc : s.pwr.clkLost with
  | true => exact ⟨_, exec_auxclkReturn hc, enRun_of_none (unclocked_shows (s := s.fresh.2) hr false _).1⟩
  | false => exact ⟨s, if_neg (by rw [hc]; decide), h⟩

/-- R579, R580: from a run of enables, no rail, feed or clock command leaves a gap. -/
theorem enRun_railCommand {g : Nat} {b : Bool} {c : Instr} (hc : RailCommand g b c) : ∃ t, exec c s = .next t ∧ EnRun t := by
  simp only [RailCommand, List.mem_cons, List.not_mem_nil, or_false] at hc
  rcases hc with rfl | rfl | rfl | rfl | rfl | rfl | rfl | rfl | rfl | rfl | rfl
  · exact enRun_sysrstAssert h
  · exact enRun_sysrstRelease h b b b
  · exact enRun_powerSequenceStart hr h
  · exact enRun_pseqEnableNext hr h
  · exact enRun_pseqPgTimeout h
  · exact enRun_powerGoodFall h g
  · exact enRun_powerFaultRestart hr h
  · exact enRun_railDownNext hr h
  · refine ⟨_, exec_auxFeedsLost b, enRun_of_none (unfed_shows ?_).1⟩
    cases b
    · exact hr
    · exact tearRec_regsOk hr
  · exact ⟨_, exec_auxclkLoss, enRun_of_none (unclocked_shows (s := s.fresh.2) hr true _).1⟩
  · exact enRun_auxclkReturn hr h

end Gap

end Sys2Proof.Machine
end

section
/-! SUPPORT. The resets that a register asks for, the warm reset, and the reset of the host interface (R584 to R586). -/
namespace Sys2Proof
variable {α : Type}

/-- Entries put into a table change no other key. -/
theorem Tbl.get_inserts_ne (d : α) {k : Nat} : ∀ (l : List (Nat × α)) (t : Tbl α), (∀ e ∈ l, k ≠ e.1) →
    Tbl.get d (l.foldl (fun (r : Tbl α) (e : Nat × α) => Tbl.ins e.1 e.2 r) t) k = Tbl.get d t k
  | [], _, _ => rfl
  | e :: l, t, h => (Tbl.get_inserts_ne d l _ fun x hx => h x (.tail _ hx)).trans (Tbl.get_ins_ne d t e.2 (h e (.head _)))

end Sys2Proof

namespace Sys2Proof.Machine
open Sys2Proof.Claims

/-! ### Requests by GEN_RSTCTL (R584) -/

section Request
variable {s : State} (hrec : s.pwr.recovery = false) (hseal : s.bit GEN_SEAL.sealed = false) (hcmd : s.cmdWrote.1 ≠ s.clk + 1)
include hrec hseal hcmd

/-- A write of GEN_RSTCTL reaches it ready or not (R591); one that gives `refused` no 1 leaves it. -/
theorem State.poke_rstctl {v : Nat} (hv : v < 2 ^ 32) (h2 : bitsAt v 2 1 = 0) : s.poke 0x10C v = (untouched GEN_RSTCTL.refused s).writeRstctl v := by
  have hv' : v % 2 ^ 32 = v := Nat.mod_eq_of_lt hv
  have hbit : Nat.land (s.rd GEN_RSTCTL.refused) (Nat.xor (2 ^ 1 - 1) (bitsAt v 2 1)) % 2 ^ 1 = s.rd GEN_RSTCTL.refused % 2 ^ 1 := by
    rw [h2]
    show (s.rd GEN_RSTCTL.refused &&& (2 ^ 1 - 1)) % 2 ^ 1 = _
    rw [Nat.and_two_pow_sub_one_eq_mod, Nat.mod_mod]
  have hclear : s.clearOnes .bar0 v [⟨GEN_RSTCTL.arm, .w1s, []⟩, ⟨GEN_RSTCTL.refused, .w1c, []⟩, ⟨GEN_RSTCTL.warm, .w1s, []⟩,
      ⟨GEN_RSTCTL.cold, .w1s, []⟩] = untouched GEN_RSTCTL.refused s := by
    show s.wr GEN_RSTCTL.refused (Nat.land (s.rd GEN_RSTCTL.refused) (Nat.xor (2 ^ 1 - 1) (bitsAt v 2 1))) = s.wr GEN_RSTCTL.refused _
    exact congrArg (fun x => { s with regs := Tbl.set 0 s.regs GEN_RSTCTL.refused.key x }) hbit
  have hwrite : s.regWrite .bar0 0x10C (2 ^ 32 - 1) v = (untouched GEN_RSTCTL.refused s).writeRstctl v :=
    State.regWrite_hook (u := untouched GEN_RSTCTL.refused s) hcmd (by decide) (by decide) rfl (by rw [hv']; exact hclear) (by rw [hv']; rfl)
  unfold State.poke
  rw [hv']
  cases hready : s.bit GEN_BOOTSTAT.ready with
  | true => rw [State.bar0Write_open v hrec hready hseal (by decide) (by decide) (by decide), hv', hwrite]
  | false =>
    have hok : accessOk 0x10C 4 = true := by decide
    unfold State.bar0Write
    rw [if_neg (by rw [hok]; decide), if_pos rfl, hv']
    unfold State.bar0Word
    rw [if_neg (by rw [hrec]; decide), if_pos (by rw [hready]; rfl), if_pos rfl, hwrite]

omit hrec hseal hcmd in
theorem untouched_ready (s : State) : (untouched GEN_RSTCTL.refused s).bit GEN_BOOTSTAT.ready = s.bit GEN_BOOTSTAT.ready :=
  State.bit_congr (State.rd_wr_ne _ _ (by decide))

omit hrec hseal hcmd in
theorem writeRstctl_cold (s : State) : s.writeRstctl 1 = s.askReset true := by
  have h2 : bitOf 1 2 = false := by decide
  have h0 : bitOf 1 0 = true := by decide
  have h31 : bitOf 1 31 = false := by decide
  simp only [State.writeRstctl, h2, h0, h31, Bool.false_eq_true, if_false, if_true, false_and]

omit hrec hseal hcmd in
theorem writeRstctl_warm (s : State) : s.writeRstctl 2 = s.askReset false := by
  have h2 : bitOf 2 2 = false := by decide
  have h0 : bitOf 2 0 = false := by decide
  have h1 : bitOf 2 1 = true := by decide
  have h31 : bitOf 2 31 = false := by decide
  simp only [State.writeRstctl, h2, h0, h1, h31, Bool.false_eq_true, if_false, if_true, false_and]

theorem exec_resetArm : exec .resetArm s = .next (untouched GEN_RSTCTL.refused s).armReset :=
  congrArg Host.Outcome.next ((State.poke_rstctl hrec hseal hcmd (v := 2 ^ 31) (by decide) (by decide)).trans (if_pos ⟨by decide, rfl⟩))

theorem exec_resetRequest : exec .coldResetRequest s = .next ((untouched GEN_RSTCTL.refused s).askReset true) ∧
    exec .warmResetRequest s = .next ((untouched GEN_RSTCTL.refused s).askReset false) :=
  ⟨congrArg Host.Outcome.next ((State.poke_rstctl hrec hseal hcmd (v := 1) (by decide) (by decide)).trans (writeRstctl_cold _)),
    congrArg Host.Outcome.next ((State.poke_rstctl hrec hseal hcmd (v := 2) (by decide) (by decide)).trans (writeRstctl_warm _))⟩

end Request

theorem askReset_armed {s : State} (h : s.armed = true) (hready : s.bit GEN_BOOTSTAT.ready = true) (isCold : Bool) :
    s.askReset isCold = if isCold then s.cold 3 else s.warm := if_pos (by rw [h, hready]; rfl)

theorem askReset_refused {s : State} (h : s.bit GEN_BOOTSTAT.ready = false ∨ s.armed = false) (isCold : Bool) :
    s.askReset isCold = s.wr GEN_RSTCTL.refused 1 := if_neg (by obtain h | h := h <;> simp [h])

theorem armed_iff (s : State) : s.armed = true ↔ ∃ n, s.pwr.armAt = n + 1 ∧ s.clk ≤ n + 1000000 := by
  unfold State.armed
  rw [Bool.and_eq_true, bne_iff_ne, decide_eq_true_iff]
  unfold ms
  constructor
  · rintro ⟨h0, hc⟩
    exact ⟨s.pwr.armAt - 1, by omega, by omega⟩
  · rintro ⟨n, hn, hc⟩
    omega

/-! ### The warm reset (R585) -/

/-- Counts written back change block TEL alone. -/
theorem cntWriteBack_only (s : State) (fd : Bool) (i : Nat) : ∃ tel, s.cntWriteBack fd i = { s with tel := tel } := by
  unfold State.cntWriteBack State.setCache
  dsimp only
  split
  · exact ⟨_, rfl⟩
  · cases fd <;> exact ⟨_, rfl⟩

theorem flushCaches_only (s : State) : ∃ tel, s.flushCaches = { s with tel := tel } := by
  unfold State.flushCaches
  dsimp only
  refine List.foldlRecOn (motive := fun t : State => ∃ tel, t = { s with tel := tel }) _ _ ?_ fun t ht i _ => ?_
  · refine List.foldlRecOn (motive := fun t : State => ∃ tel, t = { s with tel := tel }) _ _ ⟨_, rfl⟩ fun t ht i _ => ?_
    obtain ⟨tel, rfl⟩ := ht
    obtain ⟨tel', h⟩ := cntWriteBack_only { s with tel := tel } false i
    exact ⟨tel', h⟩
  · obtain ⟨tel, rfl⟩ := ht
    split
    · exact ⟨tel, rfl⟩
    · obtain ⟨tel', h⟩ := cntWriteBack_only { s with tel := tel } true i
      exact ⟨tel', h⟩

/-- What a warm reset carries from one state to the next: the MSI-X table, network time and the stores. -/
def Carried (s t : State) : Prop := t.hif = s.hif ∧ t.tim = s.tim ∧ StoresKept s t

theorem Carried.trans {s t u : State} (h : Carried s t) (h' : Carried t u) : Carried s u :=
  ⟨h'.1.trans h.1, h'.2.1.trans h.2.1, h.2.2.trans h'.2.2⟩

theorem Carried.refl (s : State) : Carried s s := ⟨rfl, rfl, .refl s⟩

theorem Carried.foldl {s : State} {f : State → Nat → State} (hf : ∀ t c, Carried t (f t c)) (l : List Nat) : Carried s (l.foldl f s) :=
  List.foldlRecOn (motive := Carried s) l f (.refl s) fun t ht c _ => ht.trans (hf t c)

section Carry
variable (was t : State) (c : Nat)

/-- The state in which a retained channel's registers are put back. -/
def State.putBack (was t : State) (c : Nat) : State :=
  { t with regs := (was.regs.filter (fun (e : Nat × Nat) => chanKeeps c (e.1 / 64))).foldl (fun (r : Tbl Nat) (e : Nat × Nat) => Tbl.ins e.1 e.2 r) t.regs }

theorem carryChan_eq : ∃ m : Mem, was.carryChan t c =
    ({ was.putBack t c with mem := m }.wr (MCD_STAT.state c) 7).wr (MCD_STAT.retained c) 0 := ⟨_, rfl⟩

theorem putBack_kept : KeepsFields (fun k => chanKeeps c (k / 64) = false) t (was.putBack t c) := by
  refine ⟨fun hr => ?_, fun f hf => ?_⟩
  · exact Tbl.rising_inserts _ hr
  · refine Tbl.get_inserts_ne _ _ _ fun e he hk => ?_
    have hkeep : chanKeeps c (e.1 / 64) = true := (List.mem_filter.mp he).2
    rw [← hk, hf] at hkeep
    cases hkeep

theorem carryChan_carried : Carried t (was.carryChan t c) := ⟨rfl, rfl, .refl t⟩

theorem carryEvac_carried : Carried t (was.carryEvac t c) := by
  unfold State.carryEvac
  split
  · exact ⟨rfl, rfl, .refl t⟩
  · exact .refl t

theorem carryFib_carried : Carried t (was.carryFib t) := by
  unfold State.carryFib
  split
  · exact ⟨rfl, rfl, .refl t⟩
  · exact .refl t

/-- The registers of block GEN. -/
abbrev genKey (k : Nat) : Prop := k < 0x1000 * 64

theorem mcdStat_key (ch : Nat) : (MCD_STAT.state ch).key = (0x380004 + 0x2000 * ch) * 64 + 28 := by
  simp only [Fld.key, MCD_STAT.state]
  omega

/-- A channel's registers put back: nothing outside its block changes. -/
theorem carryChan_kept : KeepsFields (fun k => chanKeeps c (k / 64) = false ∧ k ≠ (MCD_STAT.state c).key ∧ k ≠ (MCD_STAT.retained c).key)
    t (was.carryChan t c) := by
  obtain ⟨m, he⟩ := carryChan_eq was t c
  have hp : KeepsFields (fun k => chanKeeps c (k / 64) = false ∧ k ≠ (MCD_STAT.state c).key ∧ k ≠ (MCD_STAT.retained c).key) t
      { was.putBack t c with mem := m } := ((putBack_kept was t c).mono fun _ hk => hk.1).setMem m
  rw [he]
  exact .wr (.wr hp (f := MCD_STAT.state c) (fun h => h.2.1 rfl) 7) (f := MCD_STAT.retained c) (fun h => h.2.2 rfl) 0

theorem carryChan_gen : KeepsFields genKey t (was.carryChan t c) := by
  refine (carryChan_kept was t c).mono fun k hk => ?_
  have hk : k < 0x1000 * 64 := hk
  refine ⟨?_, ?_, ?_⟩
  · simp only [chanKeeps, Bool.or_eq_false_iff, Bool.and_eq_false_iff, beq_eq_false_iff_ne, decide_eq_false_iff_not]
    omega
  · simp only [Fld.key, MCD_STAT.state]
    omega
  · simp only [Fld.key, MCD_STAT.retained]
    omega

variable {t c}

theorem carryChan_self (hr : t.regsOk = true) : (was.carryChan t c).rd (MCD_STAT.state c) = 7 := by
  obtain ⟨m, he⟩ := carryChan_eq was t c
  have hp : State.regsOk { was.putBack t c with mem := m } = true := (putBack_kept was t c).regsOk hr
  rw [he, State.rd_wr_ne, State.rd_wr_self hp]
  · rfl
  · simp only [Fld.key, MCD_STAT.state, MCD_STAT.retained]
    omega

theorem carryChan_other {ch : Nat} (hne : ch ≠ c) : (was.carryChan t c).rd (MCD_STAT.state ch) = t.rd (MCD_STAT.state ch) := by
  refine (carryChan_kept was t c).rd _ ⟨?_, ?_, ?_⟩
  · have haddr : (MCD_STAT.state ch).key / 64 = 0x380004 + 0x2000 * ch := by rw [mcdStat_key]; omega
    rw [haddr]
    simp only [chanKeeps, Bool.or_eq_false_iff, Bool.and_eq_false_iff, beq_eq_false_iff_ne, decide_eq_false_iff_not]
    omega
  · rw [mcdStat_key, mcdStat_key]
    omega
  · rw [mcdStat_key]
    simp only [Fld.key, MCD_STAT.retained]
    omega

/-- The retained channels are all in self-refresh once they are carried. -/
theorem carryChans_state {ch : Nat} : ∀ (l : List Nat) {t : State}, t.regsOk = true → ch ∈ l ∨ t.rd (MCD_STAT.state ch) = 7 →
    (l.foldl was.carryChan t).rd (MCD_STAT.state ch) = 7
  | [], _, _, h => h.resolve_left List.not_mem_nil
  | c :: l, t, hr, h => by
    refine carryChans_state l ((carryChan_kept was t c).regsOk hr) ?_
    by_cases hc : ch = c
    · exact .inr (hc ▸ carryChan_self was hr)
    · rw [carryChan_other was hc]
      exact h.imp_left fun hm => (List.mem_cons.mp hm).resolve_left hc

/-- A channel that was in service or in self-refresh is not one that is evacuated. -/
theorem carryEvac_kept {ch : Nat} (h4 : was.rd (MCD_STAT.state ch) ≠ 4 ∧ was.rd (MCD_STAT.state ch) ≠ 5) (t : State) (c : Nat) :
    KeepsFields (fun k => k < 0x1000 * 64 ∨ k = (MCD_STAT.state ch).key) t (was.carryEvac t c) := by
  unfold State.carryEvac
  split
  · next h =>
    refine .wr (.refl _ t) (f := MCD_STAT.state c) ?_ 5
    have hne : c ≠ ch := fun hc => by subst hc; omega
    rw [mcdStat_key, mcdStat_key]
    omega
  · exact .refl _ t

end Carry

/-- The boot begins, and what the dies showed to the island is gone. -/
def State.diesDown (t : State) (fdPowered : Nat) : State :=
  ((((((t.wr GEN_BOOTSTAT.ready 0).wr GEN_BOOTSTAT.fd_ok 0).wr GEN_BOOTSTAT.step 1).wr GEN_STSTAT.running 0).wr GEN_RSTCTL.arm 0).wr
    GEN_SEAL.sealed 0).wr D2D_STAT.fd_powered fdPowered

theorem diesDown_kept (t : State) (v : Nat) : KeepsFields (· = GEN_BOOTSTAT.ready.key) (t.wr GEN_BOOTSTAT.ready 0) (t.diesDown v) := by
  unfold State.diesDown
  refine .wr (.wr (.wr (.wr (.wr (.wr (.refl _ _) ?_ _) ?_ _) ?_ _) ?_ _) ?_ _) ?_ _ <;> decide

/-- The dies' reset, and the island that goes on. -/
theorem diesReset_eq (s : State) : s.diesReset = State.diesDown { s.blank islandKeeps with tim := s.tim } (s.rd D2D_STAT.fd_powered) := rfl

theorem diesDown_carried {s t : State} (h : StoresKept s t) (v : Nat) : (t.diesDown v).tim = t.tim ∧ StoresKept s (t.diesDown v) := ⟨rfl, h⟩

theorem diesReset_carried (s : State) : s.diesReset.tim = s.tim ∧ StoresKept s s.diesReset := by
  have hb : StoresKept s { s.blank islandKeeps with tim := s.tim } := blank_stores.setTim s.tim
  rw [diesReset_eq]
  exact diesDown_carried hb _

theorem State.regsOk_setTim (t : State) (x : Tim) : State.regsOk { t with tim := x } = t.regsOk := rfl

theorem diesReset_ready {s : State} (hr : s.regsOk = true) : s.diesReset.regsOk = true ∧ s.diesReset.rd GEN_BOOTSTAT.ready = 0 := by
  have hb : State.regsOk { s.blank islandKeeps with tim := s.tim } = true :=
    (State.regsOk_setTim _ _).trans (blank_regsOk hr)
  have hk := diesDown_kept { s.blank islandKeeps with tim := s.tim } (s.rd D2D_STAT.fd_powered)
  rw [diesReset_eq]
  exact ⟨hk.regsOk (State.wr_regsOk hb _ _), (hk.rd _ rfl).trans (State.rd_wr_self hb GEN_BOOTSTAT.ready 0)⟩

/-- What the island keeps of itself, of the host interface and of the sideband. -/
def State.islandOn (s t : State) : State :=
  let t := { t with pwr := { t.pwr with warm := true, phase := s.pwr.phase } }
  let t := { t with hif := { t.hif with msix := s.hif.msix, busMaster := s.hif.busMaster, trained := s.hif.trained, cfg := s.hif.cfg } }
  let d := s.dies
  let t := { t with dies := { t.dies with hbTd := d.hbTd, hbFd := d.hbFd, hbTdSent := d.hbTdSent, hbFdSent := d.hbFdSent, hbSince := d.hbSince,
                                          sbLost := d.sbLost, sbTrained := d.sbTrained, followFd := d.followFd, followTd := d.followTd } }
  t.wr D2D_STAT.sideband_up (s.rd D2D_STAT.sideband_up)

theorem islandOn_kept (s t : State) : KeepsFields genKey t (s.islandOn t) := by
  unfold State.islandOn
  refine KeepsFields.wr ?_ (f := D2D_STAT.sideband_up) (show ¬ genKey D2D_STAT.sideband_up.key by decide) _
  exact (KeepsFields.refl _ t).ofRegs rfl

theorem islandOn_carried {s t u : State} (h : StoresKept u t) : (s.islandOn t).hif.msix = s.hif.msix ∧ (s.islandOn t).tim = t.tim ∧
    StoresKept u (s.islandOn t) := ⟨rfl, rfl, h⟩

/-- A warm reset before the channels, the counters and the FIB are carried over it. -/
def State.warmDown (s : State) : State := s.islandOn ((s.flushCaches.diesReset.wr GEN_RSTCAUSE.cause 4).wr GEN_BOOTSTAT.kind 2)

/-- The state after the channels are carried, those retained and those evacuated. -/
def State.warmChans (s : State) : State := (List.range 8).foldl s.flushCaches.carryEvac (s.retained.foldl s.flushCaches.carryChan s.warmDown)

/-- The counters on retained channels. -/
def State.keptCounts (s t : State) : State := { t with tel := { t.tel with store := s.tel.store.filter (fun e => s.onRetained e.1) } }

theorem warm_eq (s : State) : s.warm = s.flushCaches.carryFib (s.flushCaches.keptCounts s.warmChans) := by
  unfold State.warm State.keptCounts State.warmChans State.warmDown State.islandOn
  rfl

section Warm
variable (s : State)

theorem warmDown_carried : s.warmDown.hif.msix = s.hif.msix ∧ s.warmDown.tim = s.tim ∧ StoresKept s s.warmDown := by
  obtain ⟨htim, hst⟩ := diesReset_carried s.flushCaches
  obtain ⟨tel, hf⟩ := flushCaches_only s
  have hs : StoresKept s s.flushCaches := by rw [hf]; exact .refl s
  obtain ⟨hm, ht, hk⟩ := islandOn_carried (s := s) (((hs.trans hst).wr GEN_RSTCAUSE.cause 4).wr GEN_BOOTSTAT.kind 2)
  have hft : s.flushCaches.tim = s.tim := by rw [hf]
  rw [State.wr_tim, State.wr_tim, htim, hft] at ht
  exact ⟨hm, ht, hk⟩

theorem keptCounts_carried (s t : State) : Carried t (s.keptCounts t) ∧ (s.keptCounts t).regs = t.regs := ⟨⟨rfl, rfl, .refl t⟩, rfl⟩

theorem warm_carried : Carried s.warmDown s.warm := by
  have h1 : Carried s.warmDown s.warmChans :=
    (Carried.foldl (carryChan_carried _) _).trans (Carried.foldl (carryEvac_carried _) _)
  rw [warm_eq]
  exact h1.trans ((keptCounts_carried _ _).1.trans (carryFib_carried _ _))

theorem carryFib_kept (was t : State) (ch : Nat) : KeepsFields (fun k => k < 0x1000 * 64 ∨ k = (MCD_STAT.state ch).key) t (was.carryFib t) := by
  have hnot : ∀ f : Fld, f = LKP_XFIBCFG.enable ∨ f = LKP_XFIBCFG.channels → ¬(f.key < 0x1000 * 64 ∨ f.key = (MCD_STAT.state ch).key) := by
    rintro f (rfl | rfl) <;> rw [mcdStat_key] <;> simp only [Fld.key, LKP_XFIBCFG.enable, LKP_XFIBCFG.channels] <;> omega
  unfold State.carryFib
  split
  · refine KeepsFields.ofRegs (t := (t.wr LKP_XFIBCFG.enable 1).wr LKP_XFIBCFG.channels (was.rd LKP_XFIBCFG.channels)) ?_ rfl
    exact .wr (.wr (.refl _ t) (hnot _ (.inl rfl)) 1) (hnot _ (.inr rfl)) _
  · exact .refl _ t

variable {s} in
theorem mem_retained {ch : Nat} (h : ch ∈ s.retained) : s.rd (MCD_STAT.state ch) = 3 ∨ s.rd (MCD_STAT.state ch) = 7 := by
  have hc := (List.mem_filter.mp h).2
  rw [Bool.and_eq_true] at hc
  simpa using hc.2

/-- The evacuated channels and the FIB change neither block GEN nor a retained channel. -/
theorem warm_kept {ch : Nat} (h4 : s.rd (MCD_STAT.state ch) ≠ 4 ∧ s.rd (MCD_STAT.state ch) ≠ 5) :
    KeepsFields (fun k => k < 0x1000 * 64 ∨ k = (MCD_STAT.state ch).key) (s.retained.foldl s.flushCaches.carryChan s.warmDown) s.warm := by
  obtain ⟨tel, hf⟩ := flushCaches_only s
  have hrd : s.flushCaches.rd (MCD_STAT.state ch) = s.rd (MCD_STAT.state ch) := by rw [hf]; rfl
  rw [warm_eq]
  refine KeepsFields.trans ?_ (carryFib_kept _ _ ch)
  refine KeepsFields.ofRegs (t := s.warmChans) ?_ (keptCounts_carried _ _).2
  exact .foldl _ (fun c _ t ht => ht.trans (carryEvac_kept _ (hrd ▸ h4) t c)) (.refl _ _)

theorem carryFib_gen (was t : State) : KeepsFields genKey t (was.carryFib t) := (carryFib_kept was t 0).mono fun _ h => .inl h

theorem carryEvac_gen (was t : State) (c : Nat) : KeepsFields genKey t (was.carryEvac t c) := by
  unfold State.carryEvac
  split
  · refine .wr (.refl _ t) (f := MCD_STAT.state c) ?_ 5
    rw [genKey, mcdStat_key]
    omega
  · exact .refl _ t

theorem warm_gen : KeepsFields genKey s.warmDown s.warm := by
  rw [warm_eq]
  refine KeepsFields.trans ?_ (carryFib_gen _ _)
  refine KeepsFields.ofRegs (t := s.warmChans) ?_ (keptCounts_carried _ _).2
  refine .foldl _ (fun c _ t ht => ht.trans (carryEvac_gen _ t c)) ?_
  exact .foldl _ (fun c _ t ht => ht.trans (carryChan_gen _ t c)) (.refl _ _)

variable {s} (hr : s.regsOk = true)
include hr

theorem warmDown_shows : s.warmDown.regsOk = true ∧ s.warmDown.rd GEN_RSTCAUSE.cause = 4 ∧ s.warmDown.rd GEN_BOOTSTAT.kind = 2 ∧
    s.warmDown.rd GEN_BOOTSTAT.ready = 0 := by
  obtain ⟨tel, hf⟩ := flushCaches_only s
  have hfr : s.flushCaches.regsOk = true := by rw [hf]; exact hr
  obtain ⟨hur, hready⟩ := diesReset_ready hfr
  set u := s.flushCaches.diesReset with hu
  have h1 := State.wr_regsOk hur GEN_RSTCAUSE.cause 4
  have h2 := State.wr_regsOk h1 GEN_BOOTSTAT.kind 2
  have hk : KeepsFields genKey ((u.wr GEN_RSTCAUSE.cause 4).wr GEN_BOOTSTAT.kind 2) s.warmDown := islandOn_kept s _
  refine ⟨hk.regsOk h2, (hk.rd _ (by decide)).trans ?_, (hk.rd _ (by decide)).trans ?_, (hk.rd _ (by decide)).trans ?_⟩
  · exact (State.rd_wr_ne _ (f := GEN_BOOTSTAT.kind) 2 (by decide)).trans (State.rd_wr_self hur GEN_RSTCAUSE.cause 4)
  · exact State.rd_wr_self h1 GEN_BOOTSTAT.kind 2
  · exact (State.rd_wr_ne _ (f := GEN_BOOTSTAT.kind) 2 (by decide)).trans
      ((State.rd_wr_ne _ (f := GEN_RSTCAUSE.cause) 4 (by decide)).trans hready)

theorem warm_shows : s.warm.rd GEN_RSTCAUSE.cause = 4 ∧ s.warm.rd GEN_BOOTSTAT.kind = 2 ∧ s.warm.rd GEN_BOOTSTAT.ready = 0 := by
  obtain ⟨-, hcause, hkind, hready⟩ := warmDown_shows hr
  exact ⟨((warm_gen s).rd _ (by decide)).trans hcause, ((warm_gen s).rd _ (by decide)).trans hkind, ((warm_gen s).rd _ (by decide)).trans hready⟩

/-- A retained channel is in self-refresh after the reset. -/
theorem warm_retained {ch : Nat} (h : ch ∈ s.retained) : s.warm.rd (MCD_STAT.state ch) = 7 := by
  have h37 := mem_retained h
  exact ((warm_kept s ⟨by omega, by omega⟩).rd _ (.inr rfl)).trans (carryChans_state _ _ (warmDown_shows hr).1 (.inl h))

end Warm

/-! ### The reset of the host interface, and trips -/

theorem exec_perstAssert {s : State} (h : s.pwr.warm = false ∨ s.bit GEN_BOOTSTAT.ready = true) : ∃ x : Hif, x.rings = [] ∧ x.exec = none ∧
    x.inReset = true ∧ exec .perstAssert s = .next ({ s with hif := x }.wr HIF_LINKSTAT.up 0) :=
  ⟨_, rfl, rfl, rfl, if_neg (by obtain h | h := h <;> simp [h])⟩

theorem exec_thermtrip {s : State} {sensor temp : Nat} (hs : sensor < 32) (h1 : 920 ≤ temp) (h2 : temp < 32768) (hp : s.pwr.tripPin = false) :
    ∃ t : State, exec (.thermtrip sensor temp) s =
      .next { t with upd := { t.upd with trip := some (sensor, temp) }, pwr := { t.pwr with held := true, tripPin := true, restart := false } } :=
  ⟨s.diesReset.railsDown (ms 10), if_neg fun h => by
    rcases h with h | h | h | h
    · omega
    · omega
    · exact absurd h2 (Nat.not_lt.mpr h)
    · rw [hp] at h; cases h⟩

end Sys2Proof.Machine
end

section
namespace Sys2Proof
open Machine Claims

/-- Settles O55: the run of enables through every command, and what each reset leaves. -/
theorem railsAndResets : Obligations.RailsAndResets := by
  unfold Obligations.RailsAndResets
  refine ⟨fun s g b hr h c hc => enRun_railCommand hr h hc, fun s hr hrun h1 h0 h2 hen hf ho => ?sequence, fun s g hr hrun hp hg hen => ⟨fun ht => ?next,
      fun ht => ?pgTimeout⟩, fun s g hg hpg => ?fall, fun s g hr hg => ?fault, fun s hr hrun hre h0 hen hp => ?restart,
    fun s g hr h3 hg hen hcond => ?down, fun s hr hs => ?assert, fun s recovery quad sris hs => ⟨fun hr => ?release, ?factory⟩,
    fun s hr => ⟨fun torn => ?feeds, ?loss, fun hc => ?back⟩, fun s hrec hseal hcmd => ?requests, armed_iff, fun s cause hr hc => ?cold,
    fun s hr => ?warm, fun s h => ?perst, fun s sensor temp hs h1 h2 hp => ?trip⟩
  case sequence =>
    refine ⟨_, exec_powerSequenceStart hrun h1 h0 h2 hf ho, ?_, rfl⟩
    exact (setEn_en hr 0 true).trans (by rw [hen]; rfl)
  case next =>
    have hk : Enabled s (g + 1) := ⟨by omega, hen⟩
    obtain ⟨hkept, hpwr⟩ := goodAt_kept s g
    have hgood : Enabled (s.goodAt g) (g + 1) := hk.of_rd (hkept.rd _ (by decide))
    rw [exec_pseqEnableNext hk.topEn_last, if_pos ⟨hrun, hp, State.elapsed_of_le ht⟩]
    split
    · next h7 =>
      subst h7
      exact ⟨_, rfl, fun h => absurd h (Nat.lt_irrefl 7), fun _ => ⟨hgood.2, rfl⟩⟩
    · refine ⟨_, rfl, fun h => ⟨(hgood.raise (hkept.regsOk hr) (by omega)).2, (congrArg Pwr.phase hpwr).trans hp⟩, fun h => by omega⟩
  case pgTimeout =>
    have hk : Enabled s (g + 1) := ⟨by omega, hen⟩
    exact (exec_pseqPgTimeout hk.topEn_last).trans (if_pos ⟨hrun, hp, State.elapsed_of_le ht⟩)
  case fall =>
    rw [exec_powerGoodFall hg hpg]
    exact ⟨fun hen hs hp => congrArg _ (if_pos ⟨hen, by rw [hs]; rfl, hp⟩), fun hen => congrArg _ (if_neg (by simp [hen]))⟩
  case fault =>
    obtain ⟨hcause, hgroup, hready⟩ := powerFault_shows hr hg
    obtain ⟨hrestart, hheld⟩ := powerFault_pwr s g
    refine ⟨hcause, hgroup, hready, powerFault_stores s g, fun h0 ht => ?_, fun n hn hc => ?_⟩
    · rw [staysOff_first s h0 ht] at hrestart hheld
      exact ⟨hrestart, hheld.trans (Bool.or_false _)⟩
    · rw [staysOff_again s hn hc] at hrestart hheld
      exact ⟨hrestart, hheld.trans (Bool.or_true _)⟩
  case restart =>
    refine ⟨_, exec_powerFaultRestart hrun hre h0 hp, ?_, rfl, rfl⟩
    exact (setEn_en (s := s.restarting) hr 0 true).trans (by rw [show s.restarting.rd GEN_PSEQ.en = 0 from hen]; rfl)
  case down =>
    have hk : Enabled s (g + 1) := ⟨by omega, hen⟩
    have hgo : g = 7 ∨ !bitOf (s.rd GEN_PSEQ.pg) (g + 1) ∨ s.elapsed s.pwr.enAt (ms 2) := by
      rcases hcond with h | h | h
      · exact .inl h
      · exact .inr (.inl (by rw [h]; rfl))
      · exact .inr (.inr (State.elapsed_of_le h))
    rw [exec_railDownNext h3 hk.topEn_last, if_pos hgo]
    split
    · exact ⟨_, rfl, (hk.lower hr).2, fun _ => ⟨rfl, rfl⟩⟩
    · next hne => exact ⟨_, rfl, (hk.lower hr).2, fun h => absurd h hne⟩
  case assert => exact ⟨_, exec_sysrstAssert hs, rfl, cold_cause 1 hr, cold_ready s 1, (cold_stores s 1).setPwr _⟩
  case release =>
    refine ⟨_, exec_sysrstRelease hs recovery quad sris, rfl, rfl, rfl, ?_⟩
    refine (State.rd_wr_self hr GEN_STRAPS.straps _).trans ?_
    cases recovery <;> cases quad <;> cases sris <;> rfl
  case factory => exact (if_neg (by rw [hs]; decide)).trans (if_pos rfl)
  case feeds =>
    have hu : (if torn then s.tearRec else s).regsOk = true := by
      cases torn
      · exact hr
      · exact tearRec_regsOk hr
    exact ⟨_, exec_auxFeedsLost torn, unfed_shows hu⟩
  case loss =>
    obtain ⟨hen, hlost, -, hst⟩ := unclocked_shows (s := s.fresh.2) hr true (Config.pick s.fresh.1 % 16)
    exact ⟨_, exec_auxclkLoss, hen, hlost, hst⟩
  case back =>
    obtain ⟨-, hlost, hready, hst⟩ := unclocked_shows (s := s.fresh.2) hr false (Config.pick s.fresh.1 % 16)
    exact ⟨_, exec_auxclkReturn hc, hlost, hready, hst⟩
  case requests =>
    intro u
    have hready := untouched_ready s
    obtain ⟨hcold, hwarm⟩ := exec_resetRequest hrec hseal hcmd
    refine ⟨exec_resetArm hrec hseal hcmd, fun hr ha => ⟨?_, ?_⟩, fun hn => ⟨?_, ?_⟩⟩
    · rw [hcold, askReset_armed ha (hready.trans hr)]; rfl
    · rw [hwarm, askReset_armed ha (hready.trans hr)]; rfl
    · rw [hcold, askReset_refused (hn.imp_left hready.trans)]
    · rw [hwarm, askReset_refused (hn.imp_left hready.trans)]
  case cold =>
    obtain ⟨phase, alert, hp⟩ := cold_pwr s cause
    exact ⟨(cold_cause cause hr).trans (Nat.mod_eq_of_lt hc), cold_kind cause hr, cold_ready s cause, by rw [hp]; rfl, cold_stores s cause⟩
  case warm =>
    obtain ⟨hcause, hkind, hready⟩ := warm_shows hr
    obtain ⟨hhif, htim, hst⟩ := warm_carried s
    obtain ⟨hmsix, htim', hst'⟩ := warmDown_carried s
    exact ⟨hcause, hkind, hready, (congrArg Hif.msix hhif).trans hmsix, hst'.trans hst, htim.trans htim', fun ch => warm_retained hr⟩
  case perst =>
    obtain ⟨x, hrings, hexec, hin, he⟩ := exec_perstAssert h
    exact ⟨_, he, hrings, hexec, hin, rfl, rfl, rfl, rfl, rfl, rfl, rfl, rfl, rfl, rfl, rfl⟩
  case trip =>
    obtain ⟨t, ht⟩ := exec_thermtrip hs h1 h2 hp
    exact ⟨_, ht, rfl, rfl, rfl, rfl⟩

end Sys2Proof
end

section
/-! SUPPORT. The check of stored and sent bytes (R538, R552): CRC-32C within 32 bits, messages of the chain, and seal sectors read back. -/
namespace Sys2Proof.Machine
open Sys2Proof.Claims

/-! ### CRC-32C -/

theorem crcBitsRefl_lt {poly w : Nat} (hp : poly < 2 ^ w) : ∀ (n r : Nat), r < 2 ^ w → crcBitsRefl poly n r < 2 ^ w
  | 0, _, h => h
  | n + 1, r, h => by
    have h2 : r / 2 < 2 ^ w := (Nat.div_le_self r 2).trans_lt h
    unfold crcBitsRefl
    refine crcBitsRefl_lt hp n _ ?_
    split
    · exact Nat.xor_lt_two_pow h2 hp
    · exact h2

theorem crcRefl_lt {poly w : Nat} (hp : poly < 2 ^ w) (hw : 8 ≤ w) : ∀ (b : List Nat) (r : Nat), r < 2 ^ w → crcRefl poly r b < 2 ^ w
  | [], _, h => h
  | x :: b, _, h => by
    have hx : x % 256 < 2 ^ w := (Nat.mod_lt x (show 0 < 2 ^ 8 by decide)).trans_le (Nat.pow_le_pow_right (by decide) hw)
    exact crcRefl_lt hp hw b _ (crcBitsRefl_lt hp 8 _ (Nat.xor_lt_two_pow h hx))

theorem crc32c_lt (b : List Nat) : crc32c b < 2 ^ 32 := by
  unfold crc32c crc32cFrom
  exact Nat.xor_lt_two_pow (crcRefl_lt (by decide) (by decide) b _ (Nat.mod_lt _ (by decide))) (by decide)

/-! ### Fields of built blocks -/

/-- A little-endian field reads the bytes that stand there. -/
theorem leAt_middle {a b c : List Nat} {i n : Nat} (hi : a.length = i) (hn : b.length = n) : leAt (a ++ b ++ c) i n = leNat b :=
  congrArg leNat (sliceB_middle hi hn)

theorem leAt_leBytes {a c : List Nat} {i n v : Nat} (hi : a.length = i) : leAt (a ++ leBytes n v ++ c) i n = v % 256 ^ n :=
  (leAt_middle hi (leBytes_length n v)).trans (leNat_leBytes n v)

/-- The check that ends a block. -/
theorem leAt_check (b : List Nat) {n : Nat} (hn : b.length = n) : leAt (b ++ leBytes 4 (crc32c b)) n 4 = crc32c b := by
  have h := leAt_leBytes (a := b) (c := []) (n := 4) (v := crc32c b) hn
  rw [List.append_nil] at h
  exact h.trans (Nat.mod_eq_of_lt (crc32c_lt b))

/-! ### Messages of the chain (R552) -/

/-- A message before its check. -/
def msgBody (type session offset info : Nat) (payload : List Nat) : List Nat :=
  [type, 0] ++ leBytes 2 session ++ leBytes 4 offset ++ leBytes 4 payload.length ++ leBytes 4 info ++ payload

section Message
variable (type session offset info : Nat) (payload : List Nat)

theorem chainMsg_eq : chainMsg type session offset info payload =
    msgBody type session offset info payload ++ leBytes 4 (crc32c (msgBody type session offset info payload)) := rfl

theorem msgBody_length : (msgBody type session offset info payload).length = 16 + payload.length := by
  simp only [msgBody, List.length_append, List.length_cons, List.length_nil, leBytes_length]

theorem chainMsg_length : (chainMsg type session offset info payload).length = 20 + payload.length := by
  rw [chainMsg_eq, List.length_append, msgBody_length, leBytes_length]
  omega

theorem msgLength_chainMsg (h : payload.length < 2 ^ 32) : msgLength (chainMsg type session offset info payload) = payload.length := by
  have he : chainMsg type session offset info payload = ([type, 0] ++ leBytes 2 session ++ leBytes 4 offset) ++ leBytes 4 payload.length ++
      (leBytes 4 info ++ payload ++ leBytes 4 (crc32c (msgBody type session offset info payload))) := by
    simp only [chainMsg_eq, msgBody, List.append_assoc]
  unfold msgLength
  rw [he, leAt_leBytes (by simp [leBytes_length])]
  exact Nat.mod_eq_of_lt h

theorem msgType_chainMsg (h : type < 256) : msgType (chainMsg type session offset info payload) = type := by
  have he : chainMsg type session offset info payload = [] ++ [type] ++ ([0] ++ leBytes 2 session ++ leBytes 4 offset ++ leBytes 4 payload.length ++
      leBytes 4 info ++ payload ++ leBytes 4 (crc32c (msgBody type session offset info payload))) := rfl
  unfold msgType
  rw [he, leAt_middle (i := 0) (n := 1) rfl rfl]
  simp [leNat, Nat.mod_eq_of_lt h]

theorem msgPayload_chainMsg (h : payload.length < 2 ^ 32) : msgPayload (chainMsg type session offset info payload) = payload := by
  have he : chainMsg type session offset info payload = ([type, 0] ++ leBytes 2 session ++ leBytes 4 offset ++ leBytes 4 payload.length ++
      leBytes 4 info) ++ payload ++ leBytes 4 (crc32c (msgBody type session offset info payload)) := rfl
  unfold msgPayload
  rw [msgLength_chainMsg _ _ _ _ _ h, he]
  exact sliceB_middle (by simp [leBytes_length]) rfl

theorem msgOk_chainMsg (h : payload.length ≤ 4096) : msgOk (chainMsg type session offset info payload) = true := by
  have hlen := msgLength_chainMsg type session offset info payload (by omega)
  have hbody := msgBody_length type session offset info payload
  have hn : 20 + payload.length - 4 = 16 + payload.length := by omega
  unfold msgOk
  rw [hlen, chainMsg_length, hn]
  have hcheck := leAt_check _ hbody
  have htake : (chainMsg type session offset info payload).take (16 + payload.length) = msgBody type session offset info payload := by
    rw [chainMsg_eq, ← hbody]
    exact List.take_left
  rw [htake, chainMsg_eq, hcheck]
  simp [h]

end Message

/-! ### Bytes of the flash -/

/-- The bytes just programmed read back as the flash holds them. -/
theorem norBytes_norPut {s : State} {t : Tbl Nat} {a n : Nat} {l : List Nat} (hs : s.upd.nor = norPut t a l) (hn : l.length = n)
    (ht : Tbl.risingFrom 0 t = true) (hl : ∀ x ∈ l, x < 256) : s.norBytes a n = l := by
  unfold State.norBytes
  rw [hs, ← hn]
  exact norPut_get l t a ht hl

theorem beBytes_lt (n v : Nat) : ∀ b ∈ beBytes n v, b < 256 := fun b hb => leBytes_lt n v b (List.mem_reverse.mp hb)

theorem sha384_lt (m : List Nat) : ∀ b ∈ sha384 m, b < 256 := by
  intro b hb
  obtain ⟨x, -, hx⟩ := List.mem_flatMap.mp hb
  exact beBytes_lt 8 x b hx

theorem sliceB_lt {l : List Nat} (h : ∀ b ∈ l, b < 256) (i n : Nat) : ∀ b ∈ sliceB l i n, b < 256 := by
  intro b hb
  obtain hb | hb := List.mem_append.mp hb
  · exact h b (List.mem_of_mem_drop (List.mem_of_mem_take hb))
  · rw [List.eq_of_mem_replicate hb]
    decide

/-- A seal sector before its check. -/
def sealBody (version length : Nat) (digest : List Nat) : List Nat :=
  leBytes 4 0x4C455357 ++ leBytes 4 version ++ leBytes 4 length ++ leBytes 4 0 ++ sliceB digest 0 48

section Seal
variable (version length : Nat) (digest : List Nat)

theorem sealBytes_eq : sealBytes version length digest = sealBody version length digest ++ leBytes 4 (crc32c (sealBody version length digest)) := rfl

theorem sealBody_length : (sealBody version length digest).length = 64 := by simp [sealBody, leBytes_length, sliceB_length]

theorem sealBytes_length : (sealBytes version length digest).length = 68 := by
  rw [sealBytes_eq, List.length_append, sealBody_length, leBytes_length]

variable {digest} in
theorem sealBytes_lt (h : ∀ b ∈ digest, b < 256) : ∀ b ∈ sealBytes version length digest, b < 256 := by
  have hle := fun n v => leBytes_lt n v
  intro b hb
  rw [sealBytes_eq] at hb
  simp only [sealBody, List.mem_append] at hb
  rcases hb with ((((hb | hb) | hb) | hb) | hb) | hb
  · exact hle _ _ b hb
  · exact hle _ _ b hb
  · exact hle _ _ b hb
  · exact hle _ _ b hb
  · exact sliceB_lt h 0 48 b hb
  · exact hle _ _ b hb

/-- A seal sector that holds what was built for it is valid (R538). -/
theorem sealOk_of_seal {s : State} {a : Nat} (h : s.seal a = sealBytes version length digest) : s.sealOk a = true := by
  have hmagic : leAt (sealBytes version length digest) 0 4 = 0x4C455357 := by
    have he : sealBytes version length digest = [] ++ leBytes 4 0x4C455357 ++ (leBytes 4 version ++ leBytes 4 length ++ leBytes 4 0 ++
        sliceB digest 0 48 ++ leBytes 4 (crc32c (sealBody version length digest))) := by
      simp only [sealBytes_eq, sealBody, List.append_assoc, List.nil_append]
    rw [he, leAt_leBytes (i := 0) rfl]
    exact Nat.mod_eq_of_lt (by decide)
  have htake : (sealBytes version length digest).take 64 = sealBody version length digest := by
    rw [sealBytes_eq, ← sealBody_length version length digest]
    exact List.take_left
  unfold State.sealOk
  dsimp only
  rw [h, hmagic, htake, sealBytes_eq, leAt_check _ (sealBody_length version length digest)]
  simp

end Seal

end Sys2Proof.Machine
end

section
/-! SUPPORT. Update sessions (R537 to R555): offers, blocks, verification, and the messages and timers of the chain. -/
namespace Sys2Proof.Machine
open Sys2Proof.Claims

/-! ### What the forwarding of a session changes -/

/-- `t` differs from `s` in the chain ports alone. -/
def PortsOnly (s t : State) : Prop := ∃ a b, t = { s with upd := { s.upd with chnA := a, chnB := b } }

namespace PortsOnly
variable {s t u : State}

theorem refl (s : State) : PortsOnly s s := ⟨_, _, rfl⟩

theorem trans (h : PortsOnly s t) (h' : PortsOnly t u) : PortsOnly s u := by
  obtain ⟨a, b, rfl⟩ := h
  obtain ⟨c, d, rfl⟩ := h'
  exact ⟨c, d, rfl⟩

theorem setPort (s : State) (b : Bool) (p : ChainPort) : PortsOnly s (s.setPort b p) := by cases b <;> exact ⟨_, _, rfl⟩

theorem chainSend (s : State) (b : Bool) (l : List (List Nat)) : PortsOnly s (s.chainSend b l) := setPort s b _

theorem sendBlocks (s : State) (b : Bool) : PortsOnly s (s.sendBlocks b) := by
  unfold State.sendBlocks
  dsimp only
  split
  · exact refl s
  · exact (setPort s b _).trans (chainSend _ b _)

theorem foldl {f : State → Bool → State} (hf : ∀ s b, PortsOnly s (f s b)) (l : List Bool) (s : State) : PortsOnly s (l.foldl f s) :=
  List.foldlRecOn (motive := PortsOnly s) l f (refl s) fun t ht b _ => ht.trans (hf t b)

theorem regs (h : PortsOnly s t) : t.regs = s.regs := by
  obtain ⟨a, b, rfl⟩ := h
  rfl

theorem rd (h : PortsOnly s t) (f : Fld) : t.rd f = s.rd f := State.rd_congr h.regs f

theorem header (h : PortsOnly s t) : t.upd.header = s.upd.header := by
  obtain ⟨a, b, rfl⟩ := h
  rfl

theorem nor (h : PortsOnly s t) : t.upd.nor = s.upd.nor := by
  obtain ⟨a, b, rfl⟩ := h
  rfl

theorem record (h : PortsOnly s t) : t.record = s.record := by
  obtain ⟨a, b, rfl⟩ := h
  exact State.record_congr rfl rfl

end PortsOnly

/-! ### Offers (R543 to R545) -/

/-- A session that opened, before its offer goes on along the chain. -/
def State.opened (s : State) (source : Nat) (h : List Nat) : State :=
  let a := s.targetOf h
  let n := s.nextSession
  let s := (s.norErase (sealAt a) 4096).putRec (fun r => { r with session := n, areas := Tbl.set 0 r.areas a 1 })
  let s := ((((s.wr UPD_SESS.state 1).wr UPD_SESS.source source).wr UPD_SESS.target a).wr UPD_SESS.session n).wr UPD_PROG.bytes 0
  let s := s.inc UPD_SESSCNT.count
  { s with upd := { s.upd with got := [], header := h, byteAt := s.clk } }

section Open
variable (s : State) (source : Nat) (h : List Nat)

theorem openSession_ports : PortsOnly (s.opened source h) (s.openSession source h) :=
  PortsOnly.foldl (f := fun t b => (t.setPort b { t.port b with fwd := 1, buf := [], sent := 0, acked := 0, ackAt := t.clk }).chainSend b
    [chainMsg 0x01 s.nextSession 0 0 h]) (fun t b => (PortsOnly.setPort t b _).trans (PortsOnly.chainSend _ b _))
    ((s.opened source h).fwdPorts source) (s.opened source h)

/-- The record of an open session. -/
theorem opened_record : (s.opened source h).record =
    { s.record with session := s.nextSession, areas := Tbl.set 0 s.record.areas (s.targetOf h) 1, seq := s.record.seq + 1 } := by
  have he : (s.opened source h).record = ((s.norErase (sealAt (s.targetOf h)) 4096).putRec
    (fun r => { r with session := s.nextSession, areas := Tbl.set 0 r.areas (s.targetOf h) 1 })).record := State.record_congr rfl rfl
  have hn : (s.norErase (sealAt (s.targetOf h)) 4096).record = s.record := State.record_congr rfl rfl
  rw [he, State.record_putRec, hn]

variable {s source} in
theorem opened_shows (hr : s.regsOk = true) (hs : source < 3) : (s.opened source h).rd UPD_SESS.state = 1 ∧
    (s.opened source h).rd UPD_SESS.source = source ∧ (s.opened source h).rd UPD_PROG.bytes = 0 := by
  set u := (s.norErase (sealAt (s.targetOf h)) 4096).putRec
    (fun r => { r with session := s.nextSession, areas := Tbl.set 0 r.areas (s.targetOf h) 1 }) with hu
  have hn : (s.norErase (sealAt (s.targetOf h)) 4096).regsOk = true := hr
  have hur : u.regsOk = true := (State.putRec_kept _ _).regsOk hn
  set v := (((u.wr UPD_SESS.state 1).wr UPD_SESS.source source).wr UPD_SESS.target (s.targetOf h)).wr UPD_SESS.session s.nextSession with hv
  have hvr : v.regsOk = true := State.wr_regsOk (State.wr_regsOk (State.wr_regsOk (State.wr_regsOk hur _ _) _ _) _ _) _ _
  have hrd : ∀ f, (s.opened source h).rd f = ((v.wr UPD_PROG.bytes 0).inc UPD_SESSCNT.count).rd f := fun f => rfl
  have hinc : ∀ f, f.key ≠ UPD_SESSCNT.count.key → ((v.wr UPD_PROG.bytes 0).inc UPD_SESSCNT.count).rd f = (v.wr UPD_PROG.bytes 0).rd f :=
    fun f hf => State.rd_wr_ne _ _ hf
  refine ⟨?_, ?_, ?_⟩
  · rw [hrd, hinc _ (by decide), State.rd_wr_ne, hv, State.rd_wr_ne, State.rd_wr_ne, State.rd_wr_ne, State.rd_wr_self hur]
    · rfl
    all_goals decide
  · rw [hrd, hinc _ (by decide), State.rd_wr_ne, hv, State.rd_wr_ne, State.rd_wr_ne, State.rd_wr_self (State.wr_regsOk hur _ _)]
    · exact Nat.mod_eq_of_lt (show source < 4 by omega)
    all_goals decide
  · rw [hrd, hinc _ (by decide), State.rd_wr_self hvr]
    rfl

end Open

section Offer
variable {s : State} {r : Nat} {t : Taken} (h : s.running 0x48 = some (r, t))
include h

theorem exec_updOffer (fe : Bool) : exec (.updOffer fe) s =
    if t.f 24 4 ≠ 160 then .next (s.finRefused r dBAD_OPERAND)
    else if s.rd UPD_SESS.state ≠ 0 then .next (s.updBusy r dIN_USE)
    else if !s.dmaOk then .next s
    else
      let h := s.dmaRead (t.f 16 8) 160
      let d := s.offerReason 0 h
      if d ≠ 0 then .next (s.finRefused r d)
      else if fe then .next ((s.inc UPD_NORERR.count).finRefused r 0x9A)
      else .next ((s.openSession 0 h).finOffer r) := by
  show execUpdOffer fe s = _
  simp only [execUpdOffer, h]

theorem exec_updOffer_judged (h160 : t.f 24 4 = 160) (h0 : s.rd UPD_SESS.state = 0) (hd : s.dmaOk = true) (fe : Bool) {hdr : List Nat} {d : Nat}
    (hh : s.dmaRead (t.f 16 8) 160 = hdr) (hdd : s.offerReason 0 hdr = d) : exec (.updOffer fe) s =
    if d ≠ 0 then .next (s.finRefused r d)
    else if fe then .next ((s.inc UPD_NORERR.count).finRefused r 0x9A) else .next ((s.openSession 0 hdr).finOffer r) := by
  rw [exec_updOffer h, if_neg (not_not.mpr h160), if_neg (not_not.mpr h0), if_neg (by rw [hd]; decide)]
  simp only [hh, hdd]

end Offer

/-! ### Blocks (R546, R547) -/

/-- The bytes of a full image stand in the flash, before they are forwarded. -/
def State.programmed (s : State) (b : List Nat) : State :=
  let u := s.wr UPD_PROG.bytes (s.rd UPD_PROG.bytes + b.length)
  { u with upd := { s.upd with byteAt := s.clk, nor := norPut s.upd.nor (areaBase (s.rd UPD_SESS.target) + s.rd UPD_PROG.bytes) b } }

theorem forwardNew_ports (s : State) (p q : Nat) : PortsOnly s (s.forwardNew p q) := by
  unfold State.forwardNew
  refine PortsOnly.foldl (fun t b => ?_) _ s
  dsimp only
  split
  · exact .refl t
  · exact (PortsOnly.setPort t b _).trans (.sendBlocks _ b)

theorem storeBytes_full {s : State} (hd : hdrDelta s.upd.header = false) (b : List Nat) : PortsOnly (s.programmed b) (s.storeBytes b false) := by
  have hn : hdrDelta (s.wr UPD_PROG.bytes (s.rd UPD_PROG.bytes + b.length)).upd.header ≠ true := by
    rw [State.wr_upd, hd]
    exact Bool.false_ne_true
  unfold State.storeBytes
  dsimp only
  rw [if_neg Bool.false_ne_true, if_neg hn]
  exact forwardNew_ports (s.programmed b) _ _

section Block
variable {s : State} {r : Nat} {t : Taken} (h : s.running 0x49 = some (r, t)) (hd : s.dmaOk = true)
  (hsrc : s.rd UPD_SESS.source = 0) (hst : s.rd UPD_SESS.state = 1)
include h hd hsrc hst

/-- One entry of UPD_BLOCK in a session over PCIe. -/
theorem exec_updBlock_one {u : State} (hu : s.storeBytes (s.dmaRead (t.f 16 8 + 64 * t.progress) (min 64 (t.f 28 4 - 64 * t.progress))) false = u) :
    exec (.updBlock 1 false) s = .next (
      if !s.blockOk (t.f 24 4) (t.f 28 4) t.progress then s.bulkStop r t.progress 0x97
      else if t.f 28 4 ≤ 64 * t.progress then s.finish r { status := .done, detail := 0, progress := t.progress }
      else if s.fwdFull then s
      else if u.rd UPD_SESS.state ≠ 1 then u.finishTok r .partial_ (u.rd UPD_SESS.reason) t.progress 0
      else if t.f 28 4 ≤ 64 * (t.progress + 1) then (u.stepEntry r).finish r { status := .done, detail := 0, progress := t.progress + 1 }
      else u.stepEntry r) := by
  obtain ⟨-, htaken, -, -⟩ := State.running_taken h
  show execUpdBlock 1 false s = _
  simp only [execUpdBlock, h, hd, updBlocks, htaken, hsrc, hst, hu]
  rfl

end Block

theorem exec_updVerify {s : State} {r : Nat} {t : Taken} (h : s.running 0x4A = some (r, t)) (hsrc : s.rd UPD_SESS.source = 0)
    (hs : t.f 16 4 = s.rd UPD_SESS.session) (h1 : s.rd UPD_SESS.state = 1) : exec .updVerify s =
    if !s.allThere then .next (s.finRefused r dBAD_OPERAND) else .next ((s.wr UPD_SESS.state 2).finDone r) := by
  show execUpdVerify s = _
  simp only [execUpdVerify, h, hsrc, hs, h1]
  simp

/-! ### Verification (R549 to R551) -/

/-- The seal sector of a verified image is written. -/
def State.sealed (s : State) (a : Nat) (full : List Nat) : State :=
  { s with upd := { s.upd with nor := norPut s.upd.nor (sealAt a) (sealBytes (hdrVersion full) full.length (sha384 full)), heldAt := s.clk } }

/-- The record of recovery mode, which names the sealed bank confirmed (R572). -/
def Record.sealedIn (a ver : Nat) (r : Record) : Record :=
  { r with areas := Tbl.set 0 r.areas a 2, confirmed := a, confVer := ver, bootFails := 0, trial := none, trialVer := 0 }

/-- The recovery window shows DONE. -/
def State.doneShown (s : State) : State :=
  let s := (s.wr UPD_RSTAT.state 4).wr UPD_RSTAT.reason 0
  { s with upd := { s.upd with doneAt := s.clk } }

/-- The record marks the area SEALED; in recovery mode it also names the bank confirmed. -/
def State.markSealed (s : State) (a ver : Nat) : State :=
  if s.pwr.recovery then (s.putRec (Record.sealedIn a ver)).doneShown else s.markArea a 2

section Verify
variable {s : State} {a r : Nat} {full : List Nat} (ha : s.rd UPD_SESS.target = a)
  (hx : s.verifyReason (s.container 0 (s.rd UPD_PROG.bytes)) (s.imageIn s.record.confirmed) (areaRoom a) = (r, full))
include ha hx

theorem verifyEnd_fails (hr : r ≠ 0) (fe : Bool) : s.verifyEnd fe = s.updEnd r := by
  unfold State.verifyEnd
  simp only [ha, hx]
  exact if_pos hr

theorem verifyEnd_passes (hr : r = 0) : ∃ p, s.verifyEnd false = (((s.sealed a full).markSealed a (hdrVersion full)).wr UPD_SESS.state 3).post 0x0D02 p := by
  unfold State.verifyEnd
  simp only [ha, hx]
  exact ⟨_, (if_neg (not_not.mpr hr)).trans (if_neg Bool.false_ne_true)⟩

end Verify

section Mark
variable {s : State} {a ver : Nat}

theorem doneShown_nor (s : State) : s.doneShown.upd.nor = s.upd.nor := rfl

theorem doneShown_record (s : State) : s.doneShown.record = s.record := State.record_congr rfl rfl

theorem doneShown_regsOk (hr : s.regsOk = true) : s.doneShown.regsOk = true :=
  State.wr_regsOk (State.wr_regsOk hr UPD_RSTAT.state 4) UPD_RSTAT.reason 0

theorem markSealed_nor (s : State) (a ver : Nat) : (s.markSealed a ver).upd.nor = s.upd.nor := by
  unfold State.markSealed
  split
  · exact (doneShown_nor _).trans (s.putRec_nor _)
  · exact s.putRec_nor _

theorem markSealed_regsOk (hr : s.regsOk = true) : (s.markSealed a ver).regsOk = true := by
  have hp : ∀ f, (s.putRec f).regsOk = true := fun f => (s.putRec_kept f).regsOk hr
  unfold State.markSealed
  split
  · exact doneShown_regsOk (hp _)
  · exact hp _

theorem markSealed_area (ht : Tbl.risingFrom 0 s.record.areas = true) : (s.markSealed a ver).area a = 2 := by
  have hp : ∀ f : Record → Record, (f s.record).areas = Tbl.set 0 s.record.areas a 2 → Tbl.get 0 (s.putRec f).record.areas a = 2 :=
    fun f hf => by rw [State.record_putRec]; exact (congrArg (Tbl.get 0 · a) hf).trans (Tbl.get_set_self 0 ht a 2)
  unfold State.markSealed State.area
  split
  · rw [doneShown_record]
    exact hp _ rfl
  · exact hp (fun r => { r with areas := Tbl.set 0 r.areas a 2 }) rfl

end Mark

/-- A verification that passes seals the area and enters VERIFIED. -/
theorem verifyEnd_sealed {s : State} {a : Nat} {full : List Nat} {p : List Nat} (hr : s.regsOk = true)
    (ht : Tbl.risingFrom 0 s.record.areas = true) (hn : Tbl.risingFrom 0 s.upd.nor = true) {t : State}
    (he : t = (((s.sealed a full).markSealed a (hdrVersion full)).wr UPD_SESS.state 3).post 0x0D02 p) :
    t.rd UPD_SESS.state = 3 ∧ t.area a = 2 ∧ t.sealOk a = true := by
  have hsr : (s.sealed a full).regsOk = true := hr
  have hst : Tbl.risingFrom 0 (s.sealed a full).record.areas = true := by
    rw [show (s.sealed a full).record = s.record from State.record_congr rfl rfl]
    exact ht
  set u := (s.sealed a full).markSealed a (hdrVersion full) with hu
  have hnor : t.upd.nor = norPut s.upd.nor (sealAt a) (sealBytes (hdrVersion full) full.length (sha384 full)) := by
    rw [he, State.post_upd]
    exact markSealed_nor _ _ _
  refine ⟨?_, ?_, sealOk_of_seal (hdrVersion full) full.length (sha384 full) (norBytes_norPut hnor (sealBytes_length _ _ _) hn
    (sealBytes_lt _ _ (sha384_lt full)))⟩
  · rw [he, State.post_rd _ (by decide) _ (by decide), State.rd_wr_self (markSealed_regsOk hsr)]
    rfl
  · unfold State.area
    rw [he, State.record_post, State.record_wr]
    exact markSealed_area hst

/-! ### The ends of sessions -/

/-- A session that ended; one of the recovery window shows its reason there too. -/
theorem updEnd_eq (s : State) (n : Nat) : ∃ u : State, (s.regsOk = true → u.regsOk = true) ∧ u.upd = s.upd ∧ s.updEnd n = u.endSession n := by
  unfold State.updEnd
  split
  · exact ⟨(s.wr UPD_RSTAT.state 3).wr UPD_RSTAT.reason n, fun hr => State.wr_regsOk (State.wr_regsOk hr _ _) _ _, rfl, rfl⟩
  · exact ⟨s, id, rfl, rfl⟩

theorem updEnd_shows {s : State} (hr : s.regsOk = true) {n : Nat} (hn : n < 256) : (s.updEnd n).rd UPD_SESS.state = 0 ∧
    (s.updEnd n).rd UPD_SESS.reason = n ∧ (s.updEnd n).upd.header = [] ∧ (s.updEnd n).upd.nor = s.upd.nor ∧ (s.updEnd n).record = s.record := by
  obtain ⟨u, hur, hupd, he⟩ := updEnd_eq s n
  obtain ⟨hstate, hreason⟩ := State.endSession_shows (hur hr) hn
  have hu : ((u.endSession n).upd) = u.sessionIdle.upd := u.endSession_upd n
  have hnor : u.sessionIdle.upd.nor = u.upd.nor := rfl
  rw [he]
  refine ⟨hstate, hreason, (congrArg Upd.header hu).trans rfl, ?_, (u.endSession_record n).trans ?_⟩
  · exact (congrArg Upd.nor hu).trans (hnor.trans (congrArg Upd.nor hupd))
  · exact State.record_congr (congrArg Upd.rec0 hupd) (congrArg Upd.rec1 hupd)

theorem ms_seconds (n : Nat) : ms (1000 * n) = n * 1000000000 := by unfold ms; omega

theorem exec_sessionIdleExpire {s : State} (h1 : s.rd UPD_SESS.state = 1) (hp : Past s s.upd.byteAt (s.rd UPD_CFG.idle_s * 1000000000)) :
    exec .sessionIdleExpire s = .next (s.updEnd 0x9D) := by
  rw [← ms_seconds] at hp
  exact if_pos ⟨h1, State.elapsed_of_le hp⟩

theorem exec_verifiedHoldExpire {s : State} (h3 : s.rd UPD_SESS.state = 3) (hrec : s.pwr.recovery = false)
    (hp : Past s s.upd.heldAt (s.rd UPD_HOLD.hold_min * 60000000000)) : exec .verifiedHoldExpire s = .next (s.updEnd 0x9D) := by
  rw [← ms_minutes] at hp
  exact if_pos ⟨h3, by rw [hrec]; rfl, State.elapsed_of_le hp⟩

end Sys2Proof.Machine
end

section
/-! SUPPORT. Updates along the chain (R552 to R555): the messages received on a chain port, and its timers. -/
namespace Sys2Proof.Machine
open Sys2Proof.Claims

theorem chainRx_bad {s : State} {m : List Nat} (hon : s.chainOn = true) (hbad : msgOk m = false) (type : Nat) (f : State → State) :
    s.chainRx m type f = s.inc UPD_CHNCRC.count := by
  simp [State.chainRx, hon, hbad]

/-! ### Messages -/

section
variable {s : State} {m : List Nat} {type : Nat} (hm : Msg s m type)
include hm

theorem chainRx_msg (f : State → State) : s.chainRx m type f = f s := by
  obtain ⟨hon, hok, htype⟩ := hm
  simp [State.chainRx, hon, hok, htype]

theorem next_chainRx {f : State → State} {t : State} (hf : f s = t) : (.next (s.chainRx m type f) : Out) = .next t := by
  rw [chainRx_msg hm, hf]

end

section ChainOffer
variable {s : State} {b : Bool} {m : List Nat} (hm : Msg s m 0x01) (hrx : s.rxAllowed b = true)
include hm hrx

theorem exec_chainOffer_busy (h0 : s.rd UPD_SESS.state ≠ 0) :
    exec (.chainOffer b m false) s = .next (s.chainBusy b (s.rd UPD_SESS.source) (s.rd UPD_SESS.session)) :=
  next_chainRx hm ((if_neg (by rw [hrx]; decide)).trans (if_pos h0))

variable (h0 : s.rd UPD_SESS.state = 0) (hlen : msgLength m = 160) {d : Nat} (hd : s.offerReason (b2n b + 1) (offerHeader m) = d)
include h0 hlen hd

theorem exec_chainOffer_refuse (hne : d ≠ 0) : exec (.chainOffer b m false) s = .next (s.chainSend b [chainMsg 0x04 0 0 d []]) := by
  have hr : s.chainReason b m = d := (if_pos hlen).trans hd
  refine next_chainRx hm ?_
  simp only [hrx, h0, hr]
  exact if_pos hne

theorem exec_chainOffer_first (hz : d = 0) {src : Nat} (hf : s.offerFirst b = some src) :
    exec (.chainOffer b m false) s = .next (s.chainBusy b src s.nextSession) := by
  have hr : s.chainReason b m = 0 := (if_pos hlen).trans (hd.trans hz)
  refine next_chainRx hm ?_
  simp only [hrx, h0, hr, hf]
  rfl

theorem exec_chainOffer_open (hz : d = 0) (hf : s.offerFirst b = none) {u : State} (hu : s.openSession (b2n b + 1) (offerHeader m) = u) :
    exec (.chainOffer b m false) s = .next (u.chainSend b [chainMsg 0x02 u.sessNow 0 0 []]) := by
  have hr : s.chainReason b m = 0 := (if_pos hlen).trans (hd.trans hz)
  refine next_chainRx hm ?_
  simp only [hrx, h0, hr, hf, hu]
  rfl

end ChainOffer

section ChainBlock
variable {s : State} {b : Bool} {m : List Nat} (hm : Msg s m 0x05)
include hm

theorem exec_chainBlock_elsewhere (ho : msgOffset m ≠ s.rd UPD_PROG.bytes) : exec (.chainBlock b m false) s = .next s :=
  next_chainRx hm (if_pos (.inr (.inl ho)))

theorem exec_chainBlock_taken (hdown : s.chainDown b = true) (ho : msgOffset m = s.rd UPD_PROG.bytes)
    (hl : msgOffset m + msgLength m ≤ hdrLength s.upd.header) (hfull : s.fwdFull = false) {u : State}
    (hu : s.storeBytes (msgPayload m) false = u) (h1 : u.rd UPD_SESS.state = 1) (huf : u.fwdFull = false) {v : State}
    (hv : (u.inc (if b then UPD_CHNRXB.count else UPD_CHNRXA.count)).sendAck = v) :
    exec (.chainBlock b m false) s = .next (if v.allThere then v.wr UPD_SESS.state 2 else v) := by
  refine next_chainRx hm ?_
  have hif : (u.inc (if b then UPD_CHNRXB.count else UPD_CHNRXA.count)).fwdFull = false := huf
  rw [if_neg (by rw [hdown, hfull]; simp [ho]; omega)]
  simp only [hu]
  rw [if_neg (not_not.mpr h1)]
  simp only [hif, hv, Bool.false_eq_true, if_false]

end ChainBlock

theorem exec_chainAccept_begins {s : State} {b : Bool} {m : List Nat} (hm : Msg s m 0x02) (h1 : (s.port b).fwd = 1) :
    exec (.chainAccept b m) s = .next ((s.setPort b { s.port b with fwd := 2, ackAt := s.clk }).sendBlocks b) :=
  next_chainRx hm (if_pos h1)

section ChainAnswers
variable {s : State} {b : Bool} {m : List Nat} (hf : (s.port b).fwd ≠ 0)
include hf

theorem exec_chainRefuse_stops (hm : Msg s m 0x04) : exec (.chainRefuse b m) s = .next ((fwdStopped s b).ackIfOwed.post 0x0D09
    ([b2n b, 0] ++ ([msgInfo m % 256, 0] ++ leBytes 2 (s.peer b) ++ [0, 0, 0]))) :=
  next_chainRx hm (if_neg hf)

theorem exec_chainBusy_stops (hm : Msg s m 0x03) : exec (.chainBusy b m) s = .next ((fwdStopped s b).ackIfOwed.post 0x0D09
    ([b2n b, 1] ++ ([0, 0] ++ leBytes 2 (s.peer b) ++ leBytes 2 (msgInfo m % 65536) ++ [bitsAt (msgInfo m) 30 2]))) :=
  next_chainRx hm (if_neg hf)

end ChainAnswers

/-- A chain port whose window has moved to an offset, past `n` blocks. -/
def ackedPort (s : State) (b : Bool) (n offset : Nat) : ChainPort :=
  { s.port b with buf := (s.port b).buf.drop n, sent := (s.port b).sent - n, acked := offset, ackAt := s.clk }

/-- An ACK of a block that is in flight moves the window past it. -/
theorem exec_chainAck_moves {s : State} {b : Bool} {m : List Nat} (hm : Msg s m 0x06) (h2 : (s.port b).fwd = 2)
    (hk : ((s.port b).buf.take (s.port b).sent).any (fun e => e.1 + e.2.length == msgOffset m) = true) {n : Nat}
    (hn : (((s.port b).buf.take (s.port b).sent).filter (fun e => decide (e.1 + e.2.length ≤ msgOffset m))).length = n) :
    exec (.chainAck b m) s = .next (((s.setPort b (ackedPort s b n (msgOffset m))).sendBlocks b).ackIfOwed) := by
  refine next_chainRx hm ?_
  simp only [hn]
  exact if_neg (by rw [hk, h2]; decide)

/-- An ABORT from upstream, with nothing to pass downstream. -/
theorem exec_chainAbort_alone {s : State} {b : Bool} {m : List Nat} (hm : Msg s m 0x07) (hsrc : s.rd UPD_SESS.source = b2n b + 1)
    (hA : (s.port false).fwd = 0) (hB : (s.port true).fwd = 0) : exec (.chainAbort b m) s = .next (
      if s.rd UPD_SESS.state = 0 ∨ s.rd UPD_SESS.state = 4 ∨ s.rd UPD_SESS.state = 6 then s
      else if s.rd UPD_SESS.state = 5 then s.castleStart true 1 else s.updEnd 0x9E) := by
  have hdown : [false, true].filter (fun x => (s.port x).fwd != 0) = [] := by simp [hA, hB]
  refine next_chainRx hm ?_
  simp only [hdown, hsrc, ne_eq, not_true_eq_false, false_or, List.foldl_nil]

/-- A HELLO brings its port up and names the neighbour. -/
theorem exec_chainHello_up {s : State} {b : Bool} {m : List Nat} (hm : Msg s m 0x09) (hr : s.regsOk = true) :
    ∃ t, exec (.chainHello b m) s = .next t ∧ t.chainUp b = true ∧ t.peer b = msgInfo m % 2048 ∧ (t.port b).heardAt = s.clk := by
  refine ⟨_, next_chainRx hm rfl, ?_⟩
  have hr1 : ∀ f, (s.wr f 1).regsOk = true := fun f => State.wr_regsOk hr f 1
  cases b with
  | false =>
    refine ⟨?_, ?_, rfl⟩
    · show ((s.wr UPD_CHAIN.a_up 1).wr UPD_CHAIN.peer_a _).bit UPD_CHAIN.a_up = true
      rw [State.bit, State.rd_wr_ne _ _ (by decide), State.rd_wr_self hr]
      rfl
    · show ((s.wr UPD_CHAIN.a_up 1).wr UPD_CHAIN.peer_a _).rd UPD_CHAIN.peer_a = _
      rw [State.rd_wr_self (hr1 _)]
      exact Nat.mod_mod _ _
  | true =>
    refine ⟨?_, ?_, rfl⟩
    · show ((s.wr UPD_CHAIN.b_up 1).wr UPD_CHAIN.peer_b _).bit UPD_CHAIN.b_up = true
      rw [State.bit, State.rd_wr_ne _ _ (by decide), State.rd_wr_self hr]
      rfl
    · show ((s.wr UPD_CHAIN.b_up 1).wr UPD_CHAIN.peer_b _).rd UPD_CHAIN.peer_b = _
      rw [State.rd_wr_self (hr1 _)]
      exact Nat.mod_mod _ _

/-! ### Timers -/

section Timers
variable {s : State} {b : Bool}

theorem exec_chainHelloSend_due (hon : s.chainOn = true) (hp : Past s (s.port b).sentAt 1000000) : exec (.chainHelloSend b) s =
    .next ((s.setPort b { s.port b with sentAt := s.clk }).chainSend b
      [chainMsg 0x09 s.sessNow 0 (s.rd QM_CFG.dev_id + s.record.confVer % 65536 * 65536) []]) :=
  if_pos ⟨hon, State.elapsed_of_le hp⟩

theorem exec_chainPortDown_silent (hup : s.chainUp b = true) (hp : Past s (s.port b).heardAt 10000000) :
    exec (.chainPortDown b) s = .next (s.wr (if b then UPD_CHAIN.b_up else UPD_CHAIN.a_up) 0) :=
  if_pos ⟨hup, State.elapsed_of_le hp⟩

/-- The messages of blocks name the session alone, which no counter changes. -/
theorem blockMsg_addSat (s : State) (n : Nat) : (s.addSat UPD_CHNRETX.count n).blockMsg = s.blockMsg := by
  have hs : (s.addSat UPD_CHNRETX.count n).sessNow = s.sessNow := by
    unfold State.sessNow State.addSat
    rw [State.rd_wr_ne _ _ (by decide), State.rd_wr_ne _ _ (by decide)]
  funext e
  unfold State.blockMsg
  rw [hs]

theorem exec_chainRetransmit_due (h2 : (s.port b).fwd = 2) (hs : 0 < (s.port b).sent)
    (hp : Past s (max (s.port b).ackAt (s.port b).retryAt) 1000000) : exec (.chainRetransmit b) s =
      .next (((s.addSat UPD_CHNRETX.count (s.port b).sent).setPort b { s.port b with retryAt := s.clk }).chainSend b
        (((s.port b).buf.take (s.port b).sent).map s.blockMsg)) := by
  rw [← blockMsg_addSat s (s.port b).sent]
  exact if_pos ⟨h2, hs, State.elapsed_of_le hp⟩

theorem peer_chainSend (u : State) (b : Bool) (l : List (List Nat)) : (u.chainSend b l).peer b = u.peer b :=
  State.rd_congr (PortsOnly.chainSend u b l).regs _

theorem exec_chainForwardTimeout_due (hf : (s.port b).fwd = 1 ∨ (s.port b).fwd = 2 ∧ 0 < (s.port b).sent)
    (hp : Past s (s.port b).ackAt (s.rd UPD_CFG.idle_s * 1000000000)) {u : State} (hu : (fwdStopped s b).ackIfOwed = u) :
    exec (.chainForwardTimeout b) s = .next ((u.chainSend b [chainMsg 0x07 s.sessNow 0 0 []]).post 0x0D0A
      ([b2n b, 0, 0, 0] ++ leBytes 2 (u.peer b) ++ [0, 0] ++ leBytes 4 (s.port b).acked)) := by
  rw [← ms_seconds] at hp
  rw [← peer_chainSend u b [chainMsg 0x07 s.sessNow 0 0 []], ← hu]
  exact if_pos ⟨hf, State.elapsed_of_le hp⟩

end Timers

/-- What an accepted offer shows. -/
theorem openSession_shows {s : State} {src : Nat} {h : List Nat} (hr : s.regsOk = true) (ht : Tbl.risingFrom 0 s.record.areas = true)
    (hs : src < 3) {t : State} (he : s.openSession src h = t) :
    t.rd UPD_SESS.state = 1 ∧ t.rd UPD_SESS.source = src ∧ t.rd UPD_PROG.bytes = 0 ∧ t.area (s.targetOf h) = 1 ∧ t.upd.header = h ∧
      t.record.confirmed = s.record.confirmed := by
  have hp : PortsOnly (s.opened src h) t := he ▸ openSession_ports s src h
  obtain ⟨hstate, hsource, hbytes⟩ := opened_shows h hr hs
  have hrec : t.record = _ := hp.record.trans (opened_record s src h)
  refine ⟨(hp.rd _).trans hstate, (hp.rd _).trans hsource, (hp.rd _).trans hbytes, ?_, hp.header, (congrArg Record.confirmed hrec :)⟩
  unfold State.area
  rw [hrec]
  exact Tbl.get_set_self 0 ht _ 1

end Sys2Proof.Machine
end

section
namespace Sys2Proof
open Machine Claims

/-- Settles O53: the record of `putRec` is the newest; a session opens with what `opened` shows and the forwarding changes the ports alone; each
message and timer has one equation of its own. -/
theorem updateSessions : Obligations.UpdateSessions := by
  unfold Obligations.UpdateSessions
  refine ⟨fun s f => ⟨s.record_putRec f, s.putRec_otherBank f⟩,
    fun s r t fe h => ⟨fun hne => ?_, fun h160 hne => ?_, fun h160 h0 hd => ⟨fun hne => ?_, fun hz => ⟨?_, ?_⟩⟩⟩,
    fun s src h hr ht hs => openSession_shows hr ht hs rfl, fun s r t h hd hsrc hst => ⟨fun hb => ?_, fun hb hlt hfull hu1 => ?_⟩,
    fun s b hn hdelta hb => ?_, fun s r t h hsrc hs => ⟨fun h1 hall => ?_, fun h1 hall => ?_⟩, fun s h2 => ⟨fun fe hne => ?_, fun hz hr ht hn => ?_⟩,
    fun s => ⟨exec_sessionIdleExpire, exec_verifiedHoldExpire⟩, fun s n hr hn => updEnd_shows hr hn,
    fun type session offset info payload ht hl => ⟨msgOk_chainMsg _ _ _ _ _ hl, msgType_chainMsg _ _ _ _ _ ht, msgPayload_chainMsg _ _ _ _ _ (by omega)⟩,
    fun s b m fe hon hbad => ?_,
    fun s b m hm hrx => ⟨exec_chainOffer_busy hm hrx, fun h0 hlen hne => ?_, fun h0 hlen hz => ⟨fun hf => ?_, fun src hf => ?_⟩⟩,
    fun s b m hm => ⟨exec_chainBlock_elsewhere hm, fun hdown ho hl hfull h1 huf => ?_⟩, fun s b m hm h1 => exec_chainAccept_begins hm h1,
    fun s b m hf => ⟨exec_chainRefuse_stops hf, exec_chainBusy_stops hf⟩, fun s b m hm h2 hk => exec_chainAck_moves hm h2 hk rfl,
    fun s b m hm hsrc hA hB => ⟨fun hpos hlt => ?_, fun h5 => ?_, fun h46 => ?_⟩, fun s b m hm hr => exec_chainHello_up hm hr,
    fun s b hon hp => exec_chainHelloSend_due hon hp, fun s b hup hp => exec_chainPortDown_silent hup hp, fun s b h2 hs hp => exec_chainRetransmit_due h2 hs hp,
    fun s b hf hp => exec_chainForwardTimeout_due hf hp rfl⟩
  -- UPD_OFFER
  · rw [exec_updOffer h, if_pos hne]
  · rw [exec_updOffer h, if_neg (not_not.mpr h160), if_pos hne]
  · rw [exec_updOffer_judged h h160 h0 hd fe rfl rfl, if_pos hne]
  · rw [exec_updOffer_judged h h160 h0 hd false rfl rfl, if_neg (not_not.mpr hz), if_neg Bool.false_ne_true]
  · rw [exec_updOffer_judged h h160 h0 hd true rfl rfl, if_neg (not_not.mpr hz), if_pos rfl]
  -- UPD_BLOCK
  · rw [exec_updBlock_one h hd hsrc hst rfl, if_pos (by rw [hb]; rfl)]
  · rw [exec_updBlock_one h hd hsrc hst rfl, if_neg (by rw [hb]; decide), if_neg (Nat.not_le.mpr hlt), if_neg (by rw [hfull]; decide),
      if_neg (not_not.mpr hu1)]
  · exact norBytes_norPut (storeBytes_full hdelta b).nor rfl hn hb
  -- verification
  · rw [exec_updVerify h hsrc hs h1, if_neg (by rw [hall]; decide)]
  · rw [exec_updVerify h hsrc hs h1, if_pos (by rw [hall]; rfl)]
  · exact (if_pos h2).trans (congrArg _ (verifyEnd_fails rfl rfl hne fe))
  · obtain ⟨p, hp⟩ := verifyEnd_passes rfl rfl hz
    exact ⟨_, if_pos h2, verifyEnd_sealed hr ht hn hp⟩
  -- the messages of the chain
  · have hbad' := chainRx_bad hon hbad
    exact ⟨congrArg _ (hbad' _ _), congrArg _ (hbad' _ _), congrArg _ (hbad' _ _), congrArg _ (hbad' _ _), congrArg _ (hbad' _ _), congrArg _ (hbad' _ _),
      congrArg _ (hbad' _ _), congrArg _ (hbad' _ _)⟩
  · exact exec_chainOffer_refuse hm hrx h0 hlen rfl hne
  · exact exec_chainOffer_open hm hrx h0 hlen rfl hz hf rfl
  · exact exec_chainOffer_first hm hrx h0 hlen rfl hz hf
  · exact exec_chainBlock_taken hm hdown ho hl hfull rfl h1 huf rfl
  · rw [exec_chainAbort_alone hm hsrc hA hB, if_neg (by omega), if_neg (by omega)]
  · rw [exec_chainAbort_alone hm hsrc hA hB, if_neg (by omega), if_pos h5]
  · rw [exec_chainAbort_alone hm hsrc hA hB, if_pos (.inr h46)]

end Sys2Proof
end

section
/-! SUPPORT. Self-tests, block resets and check values (R575, R587, R595, R596), the homes of segments (R610, R612), and the sampling sessions
(R622). -/
namespace Sys2Proof.Machine
open Sys2Proof.Claims

/-! ### Self-tests -/

/-- A single-entry descriptor crosses the bridge where its effect lies on the FD, and runs. -/
theorem runs_or_crosses {s w : State} {r : Nat} {t : Taken} (hk : isBulk t.op = false) {fd : Bool} (hup : fd = true → s.bridgeUp = true ∧ s.cmdFree = true)
    (hw : (if fd then s.cmdCross else s) = w) (f : State → State) : (if fd then s.viaFd r t f else f s) = f w := by
  cases fd with
  | false => exact congrArg f hw
  | true =>
    obtain ⟨hb, hc⟩ := hup rfl
    have hw : s.cmdCross = w := hw
    rw [if_pos rfl, State.viaFd, if_pos hb, if_neg (by rw [hk]; decide), if_pos hc, hw]

section SelfTest
variable {s : State} {r : Nat} {t : Taken} (h : s.running 0x58 = some (r, t)) (hup : t.onFd = true → s.bridgeUp = true ∧ s.cmdFree = true)
  {w : State} (hw : (if t.onFd then s.cmdCross else s) = w)
include h hup hw

/-- The test of a unit is noted as running. -/
def State.testing (s : State) (k u : Nat) : State :=
  let v : State := { s with res := { s.res with tests := Tbl.set 0 s.res.tests k (u + 1) } }
  v.wr GEN_STSTAT.running (putBits (s.rd GEN_STSTAT.running) k 1 1)

theorem exec_selftest {k u : Nat} (hk : t.f 16 1 = k) (hu : t.f 20 4 = u) : exec .selftest s = .next (
    if testUnit k u = false then w.finRefused r dBAD_OPERAND
    else if Tbl.get 0 w.res.tests k ≠ 0 then w.finBusy r dIN_USE
    else if w.testable k u = false then w.finBusy r dLIVE_RESOURCE
    else ((w.testing k u).testStart k u).finDone r) := by
  obtain ⟨-, -, hop, -⟩ := State.running_taken h
  have hb : isBulk t.op = false := by rw [hop]; rfl
  show execSelftest s = _
  simp only [execSelftest, h, hk, hu, Bool.not_eq_true']
  exact congrArg Host.Outcome.next (runs_or_crosses hb hup hw _)

end SelfTest

/-- The posting of an event changes no test. -/
theorem State.post_tests (s : State) (code : Nat) (p : List Nat) : (s.post code p).res.tests = s.res.tests :=
  (congrArg Res.tests ((SeatsKept.refl (fun _ => False) s).post (code := code) (fun h => h) p).res :)

/-- A test that ends: its number is dropped, and its end is posted. -/
theorem endTest_eq {s : State} {k n : Nat} (hn : Tbl.get 0 s.res.tests k = n + 1) (result detail : Nat) : ∃ (m : Mem) (p : List Nat),
    s.endTest k result detail = (State.wr { s with res := { s.res with tests := Tbl.erase s.res.tests k }, mem := m } GEN_STSTAT.running
      (putBits (s.rd GEN_STSTAT.running) k 1 0)).post 0x0C0E p := by
  unfold State.endTest
  dsimp only
  rw [if_neg (by rw [hn]; exact Nat.succ_ne_zero n)]
  exact ⟨_, _, rfl⟩

theorem endTest_ends {s : State} {k n : Nat} (hn : Tbl.get 0 s.res.tests k = n + 1) (ht : Tbl.risingFrom 0 s.res.tests = true) (result detail : Nat) :
    Tbl.get 0 (s.endTest k result detail).res.tests k = 0 := by
  obtain ⟨m, p, he⟩ := endTest_eq hn result detail
  rw [he]
  exact (congrArg (Tbl.get 0 · k) (State.post_tests _ _ _)).trans (Tbl.get_erase_self 0 ht)

theorem endTest_rd {s : State} {k n : Nat} (hn : Tbl.get 0 s.res.tests k = n + 1) (result detail : Nat) {f : Fld} (hf : 0x12000 ≤ f.addr) :
    (s.endTest k result detail).rd f = s.rd f := by
  have hne : f.key ≠ GEN_STSTAT.running.key := by simp only [Fld.key, GEN_STSTAT.running]; omega
  obtain ⟨m, p, he⟩ := endTest_eq hn result detail
  rw [he, State.post_rd _ (by decide) _ hf, State.rd_wr_ne _ _ hne]
  rfl

/-- A test that ends without a loss: of another kind than the spares and the clusters, or passed with no weak row. -/
theorem exec_selftestDone {s : State} {kind n : Nat} {pass : Bool} {rows : List (Nat × Nat)} (hn : Tbl.get 0 s.res.tests kind = n + 1)
    (hk : 1 < kind ∨ pass = true ∧ rows = []) (detail : Nat) :
    exec (.selftestDone kind pass detail rows) s = .next (s.endTest kind (if pass then 0 else 1) detail) := by
  have h0 : ¬ (kind = 0 ∧ (!pass) = true ∧ 0 < s.rd (ENG_SPARES.free (Tbl.get 0 s.res.tests kind - 1))) := by
    rintro ⟨rfl, hp, -⟩
    obtain h | ⟨rfl, -⟩ := hk
    · omega
    · exact Bool.false_ne_true hp
  show execSelftestDone kind pass detail rows s = _
  unfold execSelftestDone
  dsimp only
  rw [if_neg (by omega), if_neg h0]
  obtain h | ⟨-, rfl⟩ := hk
  · rw [if_neg (by omega)]
  · rw [List.foldl_nil, ite_self]

/-- A spare that fails its test is lost. -/
theorem exec_selftestDone_spare {s : State} {n : Nat} (hr : s.regsOk = true) (hn : Tbl.get 0 s.res.tests 0 = n + 1)
    (hpos : 0 < s.rd (ENG_SPARES.free n)) (hlt : s.rd (ENG_SPARES.free n) < 8) (detail : Nat) (rows : List (Nat × Nat)) :
    ∃ t, exec (.selftestDone 0 false detail rows) s = .next t ∧ t.rd (ENG_SPARES.free n) = s.rd (ENG_SPARES.free n) - 1 := by
  have ha : 0x12000 ≤ (ENG_SPARES.free n).addr := by simp only [ENG_SPARES.free]; omega
  have hrun : exec (.selftestDone 0 false detail rows) s = .next
      ((((s.wr (ENG_SPARES.free n) (s.rd (ENG_SPARES.free n) - 1)).post 0x0107 [n, 0, s.rd (ENG_SPARES.free n) - 1]).endTest 0 1 detail)) := by
    show execSelftestDone 0 false detail rows s = _
    unfold execSelftestDone
    dsimp only
    rw [hn, Nat.add_sub_cancel, if_neg (Nat.succ_ne_zero n), if_neg (show ¬ (0 : Nat) = 1 by decide), if_neg Bool.false_ne_true]
    exact congrArg (fun u : State => Host.Outcome.next (u.endTest 0 1 detail)) (if_pos ⟨rfl, rfl, hpos⟩)
  have htests : Tbl.get 0 ((s.wr (ENG_SPARES.free n) (s.rd (ENG_SPARES.free n) - 1)).post 0x0107 [n, 0, s.rd (ENG_SPARES.free n) - 1]).res.tests 0 =
      n + 1 := (congrArg (Tbl.get 0 · 0) (State.post_tests _ _ _)).trans hn
  refine ⟨_, hrun, ?_⟩
  rw [endTest_rd htests _ _ ha, State.post_rd _ (by decide) _ ha, State.rd_wr_self hr]
  exact Nat.mod_eq_of_lt (show s.rd (ENG_SPARES.free n) - 1 < 8 by omega)

/-! ### Block resets -/

section BlockReset
variable {s : State} {r : Nat} {t : Taken} (h : s.running 0x59 = some (r, t))
include h

theorem exec_blockReset (hnw : t.waits = false) {a : Nat} (ha : t.f 16 4 = a)
    (hup : isFdAddr a = true → s.bridgeUp = true ∧ s.cmdFree = true) {w : State} (hw : (if isFdAddr a then s.cmdCross else s) = w) :
    exec .blockReset s = .next ((blockAt a).elim (w.finRefused r dBAD_ADDRESS) fun b =>
      if w.resetBusy b ≠ 0 then w.finBusy r (w.resetBusy b) else (w.resetBlock a b).updTaken r (fun t => { t with waits := true })) := by
  obtain ⟨-, -, hop, -⟩ := State.running_taken h
  have hb : isBulk t.op = false := by rw [hop]; rfl
  show execBlockReset s = _
  simp only [execBlockReset, h, hnw, ha]
  refine congrArg Host.Outcome.next ((runs_or_crosses hb hup hw _).trans ?_)
  cases blockAt a <;> rfl

theorem exec_blockResetDone_link (hwaits : t.waits = true) {a l n : Nat} (ha : t.f 16 4 = a) (hblk : blockAt a = some (.link l))
    (hn : Tbl.get 0 s.res.resets a = n + 1) (hp : Past s n 10000) : exec (.blockResetDone a) s =
      .next (({ s with res := { s.res with resets := Tbl.erase s.res.resets a } } : State).finDone r) := by
  have hel : s.elapsed n (resetTime (.link l)) = true := State.elapsed_of_le hp
  show execBlockResetDone a s = _
  simp only [execBlockResetDone, hblk, hn, Nat.add_sub_cancel, hel]
  have hrun : State.running { s with res := { s.res with resets := Tbl.erase s.res.resets a } } 0x59 = some (r, t) := h
  simp [hrun, hwaits, ha]

end BlockReset

/-! ### Check values -/

section ChkJob
variable {s : State} {r : Nat} {t : Taken} (h : s.running 0x50 = some (r, t))
include h

theorem exec_chkJob : exec .chkJob s = .next (
    if 3 < t.f 16 1 ∨ 2 ^ 24 < t.f 20 4 then s.finRefused r dBAD_OPERAND
    else if s.bit CHK_STAT.busy = true ∧ t.waits = false then (s.inc CHK_BUSYCNT.count).finBusy r dIN_USE
    else if s.dmaOk = false then ((s.wr CHK_STAT.busy 1).wr CHK_STAT.owner 1).updTaken r (fun t => { t with waits := true })
    else (((s.wr CHK_STAT.busy 0).wr CHK_STAT.owner 0).inc CHK_JOBCNT.count).finData r 0
      (leBytes 8 (crcBy (t.f 16 1) (t.f 32 8) (s.dmaRead (t.f 24 8) (t.f 20 4))))) := by
  show execChkJob s = _
  simp only [execChkJob, h, Bool.not_eq_true']
  split_ifs <;> rfl

end ChkJob

/-! ### Homes of segments -/

/-- The address of a segment's TEL_SEGMAP. -/
def segAddr (seg : Nat) : Nat := 0x5C0100 + 4 * seg

section Segment
variable {seg : Nat} (hs : seg < 64)
include hs

theorem regAt_seg : regAt (segAddr seg) = .word [⟨TEL_SEGMAP.home seg, .rw, []⟩, ⟨TEL_SEGMAP.state seg, .ro, []⟩] := by
  have hk : (segAddr seg - 0x5C0000 - 0x100) / 4 = seg := by unfold segAddr; omega
  have hlo : 0x5C0100 ≤ segAddr seg := Nat.le_add_right ..
  have hhi : segAddr seg < 0x5C0200 := by unfold segAddr; omega
  have h4 : (segAddr seg - 0x5C0000 - 0x100) % 4 = 0 := by unfold segAddr; omega
  have hreg : regAt (segAddr seg) = regsTEL (segAddr seg - 0x5C0000) := by simp (disch := omega) only [regAt, if_neg, if_pos]
  rw [hreg]
  unfold regsTEL
  simp (disch := omega) only [if_pos, hk]

theorem hook_seg (s : State) (v : Nat) : s.hook .bar0 (segAddr seg) (2 ^ 32 - 1) v v = some (s.writeHome seg (bitsAt v 28 4)) := by
  have hlo : 0x5C0100 ≤ segAddr seg := Nat.le_add_right ..
  have hhi : segAddr seg < 0x5C0200 := by unfold segAddr; omega
  have hk : (segAddr seg - 0x5C0100) / 4 = seg := by unfold segAddr; omega
  simp (disch := omega) only [State.hook, State.hookLines, if_neg, if_pos, hk]

theorem exec_segmentHomeWrite {s : State} (ho : Open s) {home : Nat} (hh : home < 16) :
    exec (.segmentHomeWrite seg home) s = .next (s.writeHome seg home) := by
  have hlo : 0x5C0100 ≤ segAddr seg := Nat.le_add_right ..
  have hhi : segAddr seg < 0x5C0200 := by unfold segAddr; omega
  have hfd : isFdAddr (segAddr seg) = false := by
    simp only [isFdAddr, Bool.or_eq_false_iff, Bool.and_eq_false_iff, decide_eq_false_iff_not]; omega
  have hmsix : isMsix (segAddr seg) = false := by
    simp only [isMsix, Bool.and_eq_false_iff, decide_eq_false_iff_not]; omega
  have hbits : bitsAt (home % 16 * 2 ^ 28) 28 4 = home := by unfold bitsAt; omega
  have hpoke := State.poke_open ho (accessOk_four (by omega) (by unfold segAddr; omega)) hfd hmsix (by omega) (regAt_seg hs)
    (v := home % 16 * 2 ^ 28) (by omega) rfl (hook_seg hs s _)
  rw [hbits] at hpoke
  exact congrArg Host.Outcome.next ((if_pos hs).trans hpoke)

end Segment

theorem writeHome_refused {s : State} {seg home : Nat} (hne : home ≠ s.rd (TEL_SEGMAP.home seg)) (hno : s.homeOk home = false) :
    s.writeHome seg home = s.wr TEL_STAT.refused 1 := by
  unfold State.writeHome
  rw [if_neg hne, if_pos (by rw [hno]; rfl)]

theorem writeHome_moves {s : State} {seg home : Nat} (hne : home ≠ s.rd (TEL_SEGMAP.home seg)) (hok : s.homeOk home = true) (h0 : home ≠ 0)
    (hwas : s.rd (TEL_SEGMAP.home seg) ≠ 0) : s.writeHome seg home = s.moveSeg seg home := by
  unfold State.writeHome
  rw [if_neg hne, if_neg (by rw [hok]; decide), if_neg (by tauto)]

/-- A setting kept in the record changes the fields of the record alone. -/
theorem saveSetting_kept (s : State) (f : Fld) (v : Nat) : KeepsFields besideAreas s (s.saveSetting f v) := by
  unfold State.saveSetting
  split
  · exact .refl _ s
  · exact s.putRec_kept _

/-- A segment that moves shows its new home, MOVING. -/
theorem moveSeg_shows {s : State} (hr : s.regsOk = true) {seg home : Nat} (hs : seg < 64) (hh : home < 16) :
    (s.moveSeg seg home).rd (TEL_SEGMAP.home seg) = home ∧ (s.moveSeg seg home).rd (TEL_SEGMAP.state seg) = 1 := by
  obtain ⟨m, hm⟩ : ∃ m, Tbl.upd 0 s.tel.moving seg (fun m => if m = 0 then s.rd (TEL_SEGMAP.home seg) else m) = m := ⟨_, rfl⟩
  set u : State := { s with tel := { s.tel with moving := m } } with hu
  have hur : u.regsOk = true := hr
  have hwr := State.wr_regsOk hur (TEL_SEGMAP.home seg) home
  have hkept := saveSetting_kept (u.wr (TEL_SEGMAP.home seg) home) (TEL_SEGMAP.home seg) ((u.wr (TEL_SEGMAP.home seg) home).rd (TEL_SEGMAP.home seg))
  obtain ⟨v, hv⟩ : ∃ v, u.wrKept (TEL_SEGMAP.home seg) home = v := ⟨_, rfl⟩
  have hvk : KeepsFields besideAreas (u.wr (TEL_SEGMAP.home seg) home) v := hv ▸ hkept
  have he : s.moveSeg seg home = (v.wr (TEL_SEGMAP.state seg) 1).syncSeg := by unfold State.moveSeg; rw [← hv, hu, ← hm]
  have hsync : ∀ (x : State) (f : Fld), f.key ≠ TEL_HBMSEG.avail.key → f.key ≠ TEL_HBMSEG.used.key → x.syncSeg.rd f = x.rd f := fun x f ha hu =>
    (State.rd_wr_ne _ _ hu).trans (State.rd_wr_ne _ _ ha)
  have hkeys : (TEL_SEGMAP.home seg).key ≠ (TEL_SEGMAP.state seg).key := by simp only [Fld.key, TEL_SEGMAP.home, TEL_SEGMAP.state]; omega
  have hbeside : besideAreas (TEL_SEGMAP.home seg).key := .inr (by simp only [Fld.key, TEL_SEGMAP.home]; omega)
  rw [he, hsync _ _ (by simp only [Fld.key, TEL_SEGMAP.home, TEL_HBMSEG.avail]; omega) (by simp only [Fld.key, TEL_SEGMAP.home, TEL_HBMSEG.used]; omega),
    hsync _ _ (by simp only [Fld.key, TEL_SEGMAP.state, TEL_HBMSEG.avail]; omega) (by simp only [Fld.key, TEL_SEGMAP.state, TEL_HBMSEG.used]; omega)]
  refine ⟨?_, ?_⟩
  · rw [State.rd_wr_ne _ _ hkeys, hvk.rd _ hbeside, State.rd_wr_self hur]
    exact Nat.mod_eq_of_lt hh
  · rw [State.rd_wr_self (hvk.regsOk hwr)]
    rfl

/-! ### Sampling sessions -/

theorem State.poke_scmd {s : State} (ho : Open s) {v : Nat} (hv : v < 2 ^ 32) : s.poke 0x5C0218 v = s.scmd .bar0 (bitOf v 1) (bitOf v 0) :=
  State.poke_open ho (by decide) (by decide) (by decide) (by decide) rfl hv rfl rfl

theorem exec_telSessionWrite {s : State} (ho : Open s) : exec .telSessionWrite s = .next (
    if s.sessionOk (s.sessionWords .bar0) then s.setSession (s.rd (TEL_SIDX.session.on .bar0)) (s.sessionWords .bar0)
    else s.wr TEL_STAT.refused 1) :=
  congrArg Host.Outcome.next (State.poke_scmd ho (v := 2) (by decide))

/-- The words of a session in the registers of BAR0. -/
def State.sessionShown (s : State) (x : Session) : State :=
  let s := (((s.wrBit TEL_SDATA0.enable x.enable).wr TEL_SDATA0.kind x.kind).wr TEL_SDATA0.snap x.snap).wr TEL_SDATA0.ring x.ring
  let s := ((s.wr TEL_SDATA1.rate_n x.rate).wr TEL_SDATA2.max_sps x.maxSps).wr TEL_SDATA3.queue x.queue
  (s.wr TEL_SDATA4.cls x.cls).wr TEL_SDATA4.dest x.dest

theorem exec_telSessionRead {s : State} (ho : Open s) :
    exec .telSessionRead s = .next (s.sessionShown (s.session (s.rd (TEL_SIDX.session.on .bar0)))) :=
  congrArg Host.Outcome.next (State.poke_scmd ho (v := 1) (by decide))

theorem sessionShown_shows {s : State} (hr : s.regsOk = true) {x : Session} (hk : x.kind < 4) : (s.sessionShown x).tel = s.tel ∧
    (s.sessionShown x).rd TEL_SDATA0.enable = b2n x.enable ∧ (s.sessionShown x).rd TEL_SDATA0.kind = x.kind := by
  refine ⟨rfl, ?_, ?_⟩
  · have hb : b2n x.enable % 2 = b2n x.enable := by cases x.enable <;> rfl
    unfold State.sessionShown
    dsimp only
    rw [State.rd_wr_ne, State.rd_wr_ne, State.rd_wr_ne, State.rd_wr_ne, State.rd_wr_ne, State.rd_wr_ne, State.rd_wr_ne, State.rd_wr_ne]
    · exact (State.rd_wr_self hr _ _).trans hb
    all_goals decide
  · unfold State.sessionShown
    dsimp only
    rw [State.rd_wr_ne, State.rd_wr_ne, State.rd_wr_ne, State.rd_wr_ne, State.rd_wr_ne, State.rd_wr_ne, State.rd_wr_ne]
    · exact (State.rd_wr_self (State.wr_regsOk hr TEL_SDATA0.enable (b2n x.enable)) _ _).trans (Nat.mod_eq_of_lt hk)
    all_goals decide

end Sys2Proof.Machine
end

section
/-! SUPPORT. Write-backs of counters (R613 to R616), and the samples of temperatures and rails (R641, R645). -/
namespace Sys2Proof.Machine
open Sys2Proof.Claims

/-! ### Counters -/

theorem satPair_again (v : Nat × Nat) (a b : Nat) : satPair (satPair v a b) 0 0 = satPair v a b := by
  unfold satPair
  refine Prod.ext ?_ ?_ <;> dsimp only <;> omega

theorem satPair_comm (v : Nat × Nat) (a b c d : Nat) : satPair (satPair v a b) c d = satPair (satPair v c d) a b := by
  unfold satPair
  refine Prod.ext ?_ ?_ <;> dsimp only <;> omega

section WriteBack
variable {s : State} {fd : Bool} {i : Nat} {e : CacheEnt} (he : Tbl.get {} (s.cntCache fd) i = e) (hsince : e.since ≠ 0)
include he hsince

/-- An entry written back leaves its cache, and its deltas stand in storage. -/
theorem cntWriteBack_eq : s.cntWriteBack fd i = { s.setCache fd (Tbl.erase (s.cntCache fd) i) with
    tel := { (s.setCache fd (Tbl.erase (s.cntCache fd) i)).tel with store := Tbl.upd (0, 0) s.tel.store i (fun v => satPair v e.packets e.bytes) } } := by
  unfold State.cntWriteBack
  rw [he]
  cases fd <;> exact if_neg hsince

variable (hst : Tbl.risingFrom 0 s.tel.store = true) (hc : Tbl.risingFrom 0 (s.cntCache fd) = true)
include hst hc

theorem cntWriteBack_value (j : Nat) : (s.cntWriteBack fd i).cntValue j = s.cntValue j := by
  have hhome : (s.cntWriteBack fd i).cntHome j = s.cntHome j := by
    rw [cntWriteBack_eq he hsince]
    cases fd <;> rfl
  unfold State.cntValue
  rw [hhome, cntWriteBack_eq he hsince]
  refine if_congr Iff.rfl rfl ?_
  cases fd with
  | true =>
    have he : Tbl.get {} s.tel.fdCache i = e := he
    have hc : Tbl.risingFrom 0 s.tel.fdCache = true := hc
    simp only [State.setCache, State.cntCache, if_true]
    by_cases hj : j = i
    · subst hj
      rw [Tbl.get_erase_self (lo := 0) _ hc, Tbl.upd, Tbl.get_set_self _ hst, he, satPair_again]
    · rw [Tbl.get_erase_ne _ _ hj, Tbl.upd, Tbl.get_set_ne _ _ _ hj]
  | false =>
    have he : Tbl.get {} s.tel.tdCache i = e := he
    have hc : Tbl.risingFrom 0 s.tel.tdCache = true := hc
    simp only [State.setCache, State.cntCache, Bool.false_eq_true, if_false]
    by_cases hj : j = i
    · subst hj
      rw [Tbl.get_erase_self (lo := 0) _ hc, Tbl.upd, Tbl.get_set_self _ hst, he]
      exact (satPair_again _ _ _).trans (satPair_comm _ _ _ _ _)
    · rw [Tbl.get_erase_ne _ _ hj, Tbl.upd, Tbl.get_set_ne _ _ _ hj]

omit hst in
theorem cntWriteBack_frees : (Tbl.get {} ((s.cntWriteBack fd i).cntCache fd) i).since = 0 := by
  have hcache : (s.cntWriteBack fd i).cntCache fd = Tbl.erase (s.cntCache fd) i := by
    rw [cntWriteBack_eq he hsince]
    cases fd <;> rfl
  rw [hcache, Tbl.get_erase_self (lo := 0) _ hc]

end WriteBack

theorem exec_counterWriteback {s : State} {fd : Bool} {i n : Nat} (hfree : (fd && homeOnTd (s.cntHome i)) = true → s.ctlFree true 1 = true)
    (hn : (Tbl.get {} (s.cntCache fd) i).since = n + 1) (hp : Past s n (s.rd TEL_CACHE.wb_us * 1000)) :
    ∃ d, exec (.counterWriteback fd i false) s = .next (State.cntWriteBack { s with dies := d } fd i) := by
  have hel : s.elapsed n (us (s.rd TEL_CACHE.wb_us)) = true := State.elapsed_of_le hp
  have hroom : (!(fd && homeOnTd (s.cntHome i)) || s.ctlFree true 1) = true := by
    cases hfar : fd && homeOnTd (s.cntHome i) with
    | false => rfl
    | true => exact hfree hfar
  obtain ⟨d, hd⟩ := State.ctlNow_only true 1 s
  have hrun : exec (.counterWriteback fd i false) s = .next
      ((if fd && homeOnTd (s.cntHome i) then s.ctlNow true 1 else s).cntWriteBack fd i) := by
    show execCounterWriteback fd i false s = _
    unfold execCounterWriteback
    dsimp only
    rw [hn, Nat.add_sub_cancel, if_pos ⟨Nat.succ_ne_zero n, hel, hroom⟩, if_neg Bool.false_ne_true]
  rw [hrun]
  split
  · exact ⟨d, by rw [hd]⟩
  · exact ⟨s.dies, rfl⟩

/-! ### Temperatures -/

/-- The sensors read: each register holds its sensor's temperature. -/
def State.sensorsRead (s : State) (temps : List (Int × Nat)) : State := temps.foldl (fun t x => t.wr (PWR_SENS.temp x.2) (unsigned 16 x.1)) s

theorem sens_key_ne {i j : Nat} (h : i ≠ j) : (PWR_SENS.temp i).key ≠ (PWR_SENS.temp j).key := by
  simp only [Fld.key, PWR_SENS.temp]
  omega

theorem sensorsRead_other {f : Fld} : ∀ {l : List (Int × Nat)} (_ : ∀ x ∈ l, f.key ≠ (PWR_SENS.temp x.2).key) (s : State),
    (s.sensorsRead l).rd f = s.rd f
  | [], _, _ => rfl
  | _ :: _, hf, _ => (sensorsRead_other (fun x hx => hf x (.tail _ hx)) _).trans (State.rd_wr_ne _ _ (hf _ (.head _)))

theorem sensorsRead_shows {s : State} (hr : s.regsOk = true) : ∀ (temps : List Int) (k : Nat), (s.sensorsRead (temps.zipIdx k)).regsOk = true ∧
    ∀ i x, temps[i]? = some x → (s.sensorsRead (temps.zipIdx k)).rd (PWR_SENS.temp (k + i)) = unsigned 16 x % 2 ^ 16 := by
  intro temps
  induction temps generalizing s with
  | nil => exact fun k => ⟨hr, fun i x h => by simp at h⟩
  | cons y temps ih =>
    intro k
    obtain ⟨hok, hrd⟩ := ih (State.wr_regsOk hr (PWR_SENS.temp k) (unsigned 16 y)) (k + 1)
    refine ⟨hok, fun i x hx => ?_⟩
    cases i with
    | zero =>
      have hxy : y = x := Option.some.inj hx
      have hkept : (((s.wr (PWR_SENS.temp k) (unsigned 16 y)).sensorsRead (temps.zipIdx (k + 1)))).rd (PWR_SENS.temp k) =
          (s.wr (PWR_SENS.temp k) (unsigned 16 y)).rd (PWR_SENS.temp k) :=
        sensorsRead_other (fun z hz => sens_key_ne (by have := List.le_snd_of_mem_zipIdx hz; omega)) _
      exact hkept.trans (by rw [State.rd_wr_self hr, hxy]; rfl)
    | succ i =>
      rw [show k + (i + 1) = k + 1 + i by omega]
      exact hrd i x hx

theorem signed_unsigned {x : Int} (hlo : -400 ≤ x) (hhi : x ≤ 1000) : signed 16 (unsigned 16 x % 2 ^ 16) = x := by
  unfold signed unsigned
  split <;> omega

/-- The largest of a list and a value is at least each of them, and one of them. -/
theorem foldl_max_bounds {α : Type} [LinearOrder α] : ∀ (l : List α) (a : α), a ≤ l.foldl max a ∧ (∀ x ∈ l, x ≤ l.foldl max a) ∧
    (l.foldl max a = a ∨ l.foldl max a ∈ l)
  | [], a => ⟨le_refl a, fun _ h => absurd h List.not_mem_nil, .inl rfl⟩
  | y :: l, a => by
    obtain ⟨hinit, hall, hmem⟩ := foldl_max_bounds l (max a y)
    refine ⟨le_trans (le_max_left a y) hinit, fun x hx => ?_, ?_⟩
    · obtain rfl | hx := List.mem_cons.mp hx
      · exact le_trans (le_max_right a x) hinit
      · exact hall x hx
    · obtain h | h := hmem
      · obtain hm | hm := max_choice a y
        · exact .inl (h.trans hm)
        · exact .inr (List.mem_cons.mpr (.inl (h.trans hm)))
      · exact .inr (.tail _ h)

/-- The reading of a sensor. -/
def State.sensed (s : State) (i : Nat) : Int := signed 16 (s.rd (PWR_SENS.temp i))

theorem hottest_ge (s : State) (lo : Nat) {i : Nat} (hi : i < 16) : s.sensed (lo + i) ≤ s.hottest lo :=
  (foldl_max_bounds _ _).2.1 _ (List.mem_map.mpr ⟨i, List.mem_range.mpr hi, rfl⟩)

theorem hottest_reads (s : State) (lo : Nat) : ∃ i < 16, s.hottest lo = s.sensed (lo + i) := by
  obtain h | h := (foldl_max_bounds ((List.range 16).map fun i => s.sensed (lo + i)) (s.sensed lo)).2.2
  · exact ⟨0, by decide, h⟩
  · obtain ⟨i, hi, he⟩ := List.mem_map.mp h
    exact ⟨i, List.mem_range.mp hi, he.symm⟩

/-- The hottest of all sensors. -/
def State.hot (s : State) : Int := max (s.hottest 0) (s.hottest 16)

theorem hot_ge (s : State) {i : Nat} (hi : i < 32) : s.sensed i ≤ s.hot := by
  by_cases h : i < 16
  · exact le_trans (Nat.zero_add i ▸ hottest_ge s 0 h) (le_max_left _ _)
  · have hge := hottest_ge s 16 (i := i - 16) (by omega)
    rw [Nat.add_sub_cancel' (by omega)] at hge
    exact le_trans hge (le_max_right _ _)

theorem hot_reads (s : State) : ∃ i < 32, s.hot = s.sensed i := by
  obtain h | h := max_choice (s.hottest 0) (s.hottest 16)
  · obtain ⟨i, hi, he⟩ := hottest_reads s 0
    exact ⟨0 + i, by omega, h.trans he⟩
  · obtain ⟨i, hi, he⟩ := hottest_reads s 16
    exact ⟨16 + i, by omega, h.trans he⟩

/-- The sensors are read, and the hottest of each die is shown. -/
def State.sampled (s : State) (temps : List Int) : State :=
  let u := s.sensorsRead temps.zipIdx
  ({ u with pwr := { u.pwr with sensAt := u.clk } }.wr PWR_STAT.hot_fd_c (unsigned 8 (u.hottest 0 / 8))).wr PWR_STAT.hot_td_c
    (unsigned 8 (u.hottest 16 / 8))

/-- Where the alert begins, and where it ends. -/
def State.alertAt (s : State) : Int := (s.rd PWR_CFG.alert_c : Int) * 8
def State.alertEnds (s : State) : Int := ((s.rd PWR_CFG.alert_c : Int) - s.rd PWR_CFG.hyst_c) * 8

/-- What the event of an alert that begins or ends carries. -/
def alertBytes (u : State) (d : Nat) : List Nat := [b2n (decide (u.hottest 0 < u.hottest 16)), d] ++ leBytes 2 (unsigned 16 u.hot)

/-- The alert begins. -/
def State.alerted (s : State) : State :=
  let s := (s.wr PWR_STAT.alert 1).inc PWR_ALERTCNT.count
  { s with pwr := { s.pwr with bmcAlert := true } }

theorem exec_thermalSample {s : State} {temps : List Int} (hl : temps.length = 32) (hp : Past s s.pwr.sensAt 1000000) {u v : State}
    (hu : s.sensorsRead temps.zipIdx = u) (hv : s.sampled temps = v) : exec (.thermalSample temps) s = .next (
      if (!v.bit PWR_STAT.alert) = true ∧ v.alertAt ≤ u.hot then v.alerted.post 0x0F01 (alertBytes u 1)
      else if v.bit PWR_STAT.alert = true ∧ u.hot < v.alertEnds then (v.wr PWR_STAT.alert 0).post 0x0F01 (alertBytes u 0) else v) := by
  have hel : s.elapsed s.pwr.sensAt (ms 1) = true := State.elapsed_of_le hp
  subst hu hv
  show execThermalSample temps s = _
  unfold execThermalSample
  rw [if_neg (by rw [hl, hel]; decide), apply_ite Host.Outcome.next, apply_ite Host.Outcome.next]
  rfl

theorem sampled_rd {s : State} {temps : List Int} {f : Fld} (hfd : f.key ≠ PWR_STAT.hot_fd_c.key) (htd : f.key ≠ PWR_STAT.hot_td_c.key) :
    (s.sampled temps).rd f = (s.sensorsRead temps.zipIdx).rd f :=
  (State.rd_wr_ne _ _ htd).trans (State.rd_wr_ne _ _ hfd)

theorem sampled_regsOk {s : State} {temps : List Int} (hr : s.regsOk = true) : (s.sampled temps).regsOk = true := by
  obtain ⟨hu, -⟩ := sensorsRead_shows hr temps 0
  obtain ⟨u, he⟩ : ∃ u, s.sensorsRead temps.zipIdx = u := ⟨_, rfl⟩
  rw [he] at hu
  unfold State.sampled
  rw [he]
  exact State.wr_regsOk (State.wr_regsOk (s := { u with pwr := _ }) hu _ _) _ _

theorem alerted_rd (s : State) {f : Fld} (hf : f.key ≠ PWR_STAT.alert.key) (hc : f.key ≠ PWR_ALERTCNT.count.key) : s.alerted.rd f = s.rd f :=
  (State.rd_wr_ne _ _ hc).trans (State.rd_wr_ne _ _ hf)

theorem alerted_alert {s : State} (hr : s.regsOk = true) : s.alerted.rd PWR_STAT.alert = 1 :=
  (State.rd_wr_ne _ _ (by decide)).trans (State.rd_wr_self hr PWR_STAT.alert 1)

/-- A sample leaves what the sensors show but for the alert, which begins, ends or stays. -/
theorem thermalSample_next {s : State} (hr : s.regsOk = true) {temps : List Int} (hl : temps.length = 32) (hp : Past s s.pwr.sensAt 1000000) {u v : State}
    (hu : s.sensorsRead temps.zipIdx = u) (hv : s.sampled temps = v) :
    ∃ t, exec (.thermalSample temps) s = .next t ∧ (∀ i < 32, t.rd (PWR_SENS.temp i) = v.rd (PWR_SENS.temp i)) ∧ t.rd PWR_STAT.alert =
      if (!v.bit PWR_STAT.alert) = true ∧ v.alertAt ≤ u.hot then 1
      else if v.bit PWR_STAT.alert = true ∧ u.hot < v.alertEnds then 0 else v.rd PWR_STAT.alert := by
  have hvr : v.regsOk = true := hv ▸ sampled_regsOk hr
  have hpost : ∀ (x : State) p f, 0x12000 ≤ f.addr → (x.post 0x0F01 p).rd f = x.rd f := fun x p f hf => x.post_rd (by decide) p hf
  have haddr : ∀ i, 0x12000 ≤ (PWR_SENS.temp i).addr := fun i => by simp only [PWR_SENS.temp]; omega
  have hne : ∀ i, (PWR_SENS.temp i).key ≠ PWR_STAT.alert.key := fun i => by simp only [Fld.key, PWR_SENS.temp, PWR_STAT.alert]; omega
  have hcnt : ∀ i < 32, (PWR_SENS.temp i).key ≠ PWR_ALERTCNT.count.key := fun i hi => by
    simp only [Fld.key, PWR_SENS.temp, PWR_ALERTCNT.count]; omega
  refine ⟨_, exec_thermalSample hl hp hu hv, ?_⟩
  split
  · exact ⟨fun i hi => (hpost _ _ _ (haddr i)).trans (alerted_rd v (hne i) (hcnt i hi)), (hpost _ _ _ (by decide)).trans (alerted_alert hvr)⟩
  · split
    · exact ⟨fun i _ => (hpost _ _ _ (haddr i)).trans (State.rd_wr_ne _ _ (hne i)), (hpost _ _ _ (by decide)).trans (State.rd_wr_self hvr _ _)⟩
    · exact ⟨fun _ _ => rfl, rfl⟩

/-- A sample shows each sensor, and the alert by its thresholds. -/
theorem thermalSample_shows {s : State} (hr : s.regsOk = true) (ha : s.rd PWR_STAT.alert < 2) {temps : List Int} (hl : temps.length = 32)
    (hp : Past s s.pwr.sensAt 1000000) (hb : ∀ x ∈ temps, -400 ≤ x ∧ x ≤ 1000) :
    ∃ t, exec (.thermalSample temps) s = .next t ∧ (∀ i x, temps[i]? = some x → signed 16 (t.rd (PWR_SENS.temp i)) = x) ∧
      (∀ x ∈ temps, (s.rd PWR_CFG.alert_c : Int) * 8 ≤ x → t.rd PWR_STAT.alert = 1) ∧
      ((∀ x ∈ temps, x < ((s.rd PWR_CFG.alert_c : Int) - s.rd PWR_CFG.hyst_c) * 8) → t.rd PWR_STAT.alert = 0) := by
  obtain ⟨u, hu⟩ : ∃ u, s.sensorsRead temps.zipIdx = u := ⟨_, rfl⟩
  obtain ⟨v, hv⟩ : ∃ v, s.sampled temps = v := ⟨_, rfl⟩
  obtain ⟨t, hrun, hsens, halert⟩ := thermalSample_next hr hl hp hu hv
  -- what the sensors show, and what they leave
  have hlt : ∀ {i x}, temps[i]? = some x → i < 32 := fun h => hl ▸ (List.getElem?_eq_some_iff.mp h).1
  have hread : ∀ {i x}, temps[i]? = some x → u.sensed i = x := fun {i x} h => by
    have hrd := (sensorsRead_shows hr temps 0).2 i x h
    rw [hu, Nat.zero_add] at hrd
    obtain ⟨hlo, hhi⟩ := hb x (List.mem_of_getElem? h)
    exact (congrArg (signed 16) hrd).trans (signed_unsigned hlo hhi)
  have hother : ∀ f : Fld, f.addr < 0x600100 → f.lo < 64 → f.key ≠ PWR_STAT.hot_fd_c.key → f.key ≠ PWR_STAT.hot_td_c.key → v.rd f = s.rd f :=
      fun f hf hlo h1 h2 => by
    rw [← hv, sampled_rd h1 h2]
    exact sensorsRead_other (fun x _ => by simp only [Fld.key, PWR_SENS.temp]; omega) s
  have hvs : ∀ i, v.rd (PWR_SENS.temp i) = u.rd (PWR_SENS.temp i) := fun i => by
    rw [← hv, ← hu]
    exact sampled_rd (by simp only [Fld.key, PWR_SENS.temp, PWR_STAT.hot_fd_c]; omega) (by simp only [Fld.key, PWR_SENS.temp, PWR_STAT.hot_td_c]; omega)
  have hup : v.alertAt = (s.rd PWR_CFG.alert_c : Int) * 8 := by
    unfold State.alertAt
    rw [hother PWR_CFG.alert_c (by decide) (by decide) (by decide) (by decide)]
  have hdown : v.alertEnds = ((s.rd PWR_CFG.alert_c : Int) - s.rd PWR_CFG.hyst_c) * 8 := by
    unfold State.alertEnds
    rw [hother PWR_CFG.alert_c (by decide) (by decide) (by decide) (by decide), hother PWR_CFG.hyst_c (by decide) (by decide) (by decide) (by decide)]
  have hva : v.rd PWR_STAT.alert = s.rd PWR_STAT.alert := hother _ (by decide) (by decide) (by decide) (by decide)
  have hle : ∀ x ∈ temps, x ≤ u.hot := fun x hx => by
    obtain ⟨i, hi⟩ := List.mem_iff_getElem?.mp hx
    exact hread hi ▸ hot_ge u (hlt hi)
  have hmem : u.hot ∈ temps := by
    obtain ⟨i, hi, he⟩ := hot_reads u
    have hsome : temps[i]? = some (temps[i]'(hl ▸ hi)) := List.getElem?_eq_getElem _
    rw [he, hread hsome]
    exact List.getElem_mem _
  have hdu : v.alertEnds ≤ v.alertAt := by rw [hup, hdown]; omega
  refine ⟨t, hrun, fun i x h => ?_, fun x hx hhot => ?_, fun hcool => ?_⟩
  · rw [hsens i (hlt h), hvs]
    exact hread h
  · have hge : v.alertAt ≤ u.hot := hup ▸ le_trans hhot (hle x hx)
    rw [halert]
    cases hbit : v.bit PWR_STAT.alert with
    | false => rw [if_pos ⟨rfl, hge⟩]
    | true =>
      have hone : v.rd PWR_STAT.alert ≠ 0 := bne_iff_ne.mp hbit
      rw [if_neg (fun h => Bool.false_ne_true h.1), if_neg (fun h => absurd h.2 (by omega))]
      omega
  · have hlow : u.hot < v.alertEnds := hdown ▸ hcool _ hmem
    rw [halert, if_neg (fun h => absurd h.2 (by omega))]
    cases hbit : v.bit PWR_STAT.alert with
    | true => rw [if_pos ⟨rfl, hlow⟩]
    | false =>
      rw [if_neg (fun h => Bool.false_ne_true h.1)]
      exact bne_eq_false_iff_eq.mp hbit

/-! ### Rails -/

theorem postRated_rd (s : State) {code : Nat} (hc : code < 65536) (unit period n : Nat) (payload : Nat → List Nat) {f : Fld} (hf : 0x12000 ≤ f.addr) :
    (s.postRated code unit period n payload).rd f = s.rd f := by
  unfold State.postRated
  dsimp only
  split
  · exact State.post_rd _ hc _ hf
  · rfl

section Rail
variable {s : State} (hr : s.regsOk = true) {k mv : Nat} (hk : k < 15) (hmv : mv < 65536) (hp : Past s (Tbl.get 0 s.pwr.railAt k) 1000000)
include hk hmv hp

/-- A rail's reading is shown. -/
def State.railShown (s : State) (k mv : Nat) : State :=
  State.wr { s with pwr := { s.pwr with railAt := Tbl.set 0 s.pwr.railAt k s.clk } } (PWR_RAIL.mv k) mv

/-- A rail outside its tolerance is marked, high or low. -/
def State.railMarked (s : State) (k : Nat) (high : Bool) : State := if high then s.wr (PWR_RAIL.high k) 1 else s.wr (PWR_RAIL.low k) 1

theorem exec_railSample : exec (.railSample k mv) s = .next (
    if s.railHigh k mv || s.railLow k mv then
      (((s.railShown k mv).railMarked k (s.railHigh k mv)).inc PWR_RAILCNT.count).postRated 0x0F03 k (ms 1000) 1 (fun _ => [k, 0] ++ leBytes 2 mv)
    else s.railShown k mv) := by
  have hel : s.elapsed (Tbl.get 0 s.pwr.railAt k) (ms 1) = true := State.elapsed_of_le hp
  have hrd : ∀ d, (s.railShown k mv).rd (PWR_AVSTGT.mv d) = s.rd (PWR_AVSTGT.mv d) := fun d =>
    State.rd_wr_ne _ _ (by simp only [Fld.key, PWR_AVSTGT.mv, PWR_RAIL.mv]; omega)
  have hhigh : (s.railShown k mv).railHigh k mv = s.railHigh k mv := by unfold State.railHigh; rw [hrd]
  have hlow : (s.railShown k mv).railLow k mv = s.railLow k mv := by unfold State.railLow; rw [hrd]
  have hin : ¬ (15 ≤ k ∨ 2 ^ 16 ≤ mv ∨ (!s.elapsed (Tbl.get 0 s.pwr.railAt k) (ms 1)) = true) := by rw [hel]; simp; omega
  rw [← hhigh, ← hlow, apply_ite Host.Outcome.next]
  exact if_neg hin

include hr in
/-- A reading is shown, and marked high or low where it lies outside its tolerance. -/
theorem railSample_shows : ∃ t, exec (.railSample k mv) s = .next t ∧
    t.rd (PWR_RAIL.mv k) = mv ∧ (s.railHigh k mv = true → t.rd (PWR_RAIL.high k) = 1) ∧
    (s.railHigh k mv = false → s.railLow k mv = true → t.rd (PWR_RAIL.low k) = 1) ∧
    (s.railHigh k mv = false → s.railLow k mv = false → t.rd (PWR_RAIL.low k) = s.rd (PWR_RAIL.low k) ∧
      t.rd (PWR_RAIL.high k) = s.rd (PWR_RAIL.high k)) := by
  have hxr : (s.railShown k mv).regsOk = true := State.wr_regsOk (s := { s with pwr := _ }) hr _ _
  have hshown : (s.railShown k mv).rd (PWR_RAIL.mv k) = mv :=
    (State.rd_wr_self (s := { s with pwr := _ }) hr _ _).trans (Nat.mod_eq_of_lt hmv)
  have hother : ∀ {f : Fld}, f.key ≠ (PWR_RAIL.mv k).key → (s.railShown k mv).rd f = s.rd f := fun hf => State.rd_wr_ne _ _ hf
  have hmh : (PWR_RAIL.mv k).key ≠ (PWR_RAIL.high k).key := by simp only [Fld.key, PWR_RAIL.mv, PWR_RAIL.high]; omega
  have hml : (PWR_RAIL.mv k).key ≠ (PWR_RAIL.low k).key := by simp only [Fld.key, PWR_RAIL.mv, PWR_RAIL.low]; omega
  have hposted : ∀ (x : State) {f : Fld}, f.addr = 0x600200 + 4 * k ∧ f.lo < 64 →
      ((x.inc PWR_RAILCNT.count).postRated 0x0F03 k (ms 1000) 1 (fun _ => [k, 0] ++ leBytes 2 mv)).rd f = x.rd f := fun x f ⟨ha, hl⟩ =>
    (postRated_rd _ (by decide) _ _ _ _ (by omega)).trans (State.rd_wr_ne _ _ (by simp only [Fld.key, PWR_RAILCNT.count]; omega))
  have hreading : ∀ x : State, (x.wr (PWR_RAIL.high k) 1).rd (PWR_RAIL.mv k) = x.rd (PWR_RAIL.mv k) ∧
      (x.wr (PWR_RAIL.low k) 1).rd (PWR_RAIL.mv k) = x.rd (PWR_RAIL.mv k) := fun x => ⟨State.rd_wr_ne _ _ hmh, State.rd_wr_ne _ _ hml⟩
  refine ⟨_, exec_railSample hk hmv hp, ?_⟩
  cases hhigh : s.railHigh k mv with
  | true =>
    rw [Bool.true_or, if_pos rfl]
    exact ⟨(hposted _ ⟨rfl, Nat.le_of_ble_eq_true rfl⟩).trans ((hreading _).1.trans hshown),
      fun _ => (hposted _ ⟨rfl, Nat.le_of_ble_eq_true rfl⟩).trans (State.rd_wr_self hxr _ _),
      fun h => absurd h.symm Bool.false_ne_true, fun h => absurd h.symm Bool.false_ne_true⟩
  | false =>
    cases hlow : s.railLow k mv with
    | true =>
      rw [Bool.false_or, if_pos rfl]
      exact ⟨(hposted _ ⟨rfl, Nat.le_of_ble_eq_true rfl⟩).trans ((hreading _).2.trans hshown), fun h => absurd h Bool.false_ne_true,
        fun _ _ => (hposted _ ⟨rfl, Nat.le_of_ble_eq_true rfl⟩).trans (State.rd_wr_self hxr _ _), fun _ h => absurd h.symm Bool.false_ne_true⟩
    | false =>
      rw [Bool.false_or, if_neg Bool.false_ne_true]
      exact ⟨hshown, fun h => absurd h Bool.false_ne_true, fun _ h => absurd h Bool.false_ne_true, fun _ _ => ⟨hother hml.symm, hother hmh.symm⟩⟩

end Rail

end Sys2Proof.Machine
end

section
namespace Sys2Proof
open Machine Claims

/-- Settles O57: each command has its one equation; a write-back moves deltas to storage where the sum of a pair already counted them, and a sample's
alert follows from the hottest sensor being one of those read. -/
theorem testsAndTelemetry : Obligations.TestsAndTelemetry := by
  unfold Obligations.TestsAndTelemetry
  refine ⟨fun s r t h hup => ?_, fun s kind pass detail rows n hn hk ht => ⟨exec_selftestDone hn hk detail, endTest_ends hn ht _ _⟩,
    fun s detail rows n hr hn _ hpos hlt => exec_selftestDone_spare hr hn hpos hlt detail rows, fun s r t h hnw hup => ?_,
    fun s r t l n h hwaits hblk hn hp => exec_blockResetDone_link h hwaits rfl hblk hn hp, fun s r t h => ?_,
    fun s fd i n hfree hn hp hst hfd htd => ?_, fun s seg home ho hs hh => exec_segmentHomeWrite hs ho hh,
    fun s seg home hs hne => ⟨writeHome_refused hne, fun hr hok hh h0 hwas => ?_⟩, fun s seg hs h1 => if_pos ⟨hs, h1⟩,
    fun s ho => ⟨fun hok => ?_, fun hno => ?_, fun hr hk => ⟨_, exec_telSessionRead ho, sessionShown_shows hr hk⟩⟩,
    fun s temps hr ha hl hp hb => thermalSample_shows hr ha hl hp hb, fun s k mv hr hk hmv hp => railSample_shows hr hk hmv hp⟩
  · intro w k u
    have hrun : exec .selftest s = _ := exec_selftest h hup (w := w) rfl (k := k) rfl (u := u) rfl
    clear_value w k u
    refine ⟨fun hu => ?_, fun hu hb => ?_, fun hu h0 hb => ?_, fun hu h0 hb => ?_⟩
    · rw [hrun, if_pos hu]
    · rw [hrun, if_neg (by rw [hu]; decide), if_pos hb]
    · rw [hrun, if_neg (by rw [hu]; decide), if_neg (not_not.mpr h0), if_pos hb]
    · rw [hrun, if_neg (by rw [hu]; decide), if_neg (not_not.mpr h0), if_neg (by rw [hb]; decide)]
      rfl
  · have hrun := exec_blockReset h hnw rfl hup rfl
    refine ⟨fun hb => ?_, fun b hb hbusy => ?_, fun b hb hfree => ?_⟩
    · rw [hrun, hb, Option.elim_none]
    · rw [hrun, hb, Option.elim_some, if_pos hbusy]
    · rw [hrun, hb, Option.elim_some, if_neg (not_not.mpr hfree)]
  · have hrun := exec_chkJob h
    refine ⟨fun hbad => ?_, fun hpoly hlen hbusy hnw => ?_, fun hpoly hlen hfree hd => ?_, fun hpoly hlen hfree hd => ?_⟩
    · rw [hrun, if_pos hbad]
    · rw [hrun, if_neg (by omega), if_pos ⟨hbusy, hnw⟩]
    · rw [hrun, if_neg (by omega), if_neg (by rintro ⟨hb, hw⟩; simp [hb, hw] at hfree), if_pos hd]
    · rw [hrun, if_neg (by omega), if_neg (by rintro ⟨hb, hw⟩; simp [hb, hw] at hfree), if_neg (by rw [hd]; decide)]
  · obtain ⟨d, hrun⟩ := exec_counterWriteback hfree hn hp
    have hc : Tbl.risingFrom 0 (State.cntCache { s with dies := d } fd) = true := by cases fd <;> assumption
    have hsince : (Tbl.get {} (State.cntCache { s with dies := d } fd) i).since ≠ 0 := fun h0 => Nat.succ_ne_zero n (hn.symm.trans h0)
    exact ⟨_, hrun, fun j => (cntWriteBack_value rfl hsince hst hc j).trans rfl, cntWriteBack_frees rfl hsince hc⟩
  · rw [writeHome_moves hne hok h0 hwas]
    exact moveSeg_shows hr hs hh
  · rw [exec_telSessionWrite ho, if_pos hok]
  · rw [exec_telSessionWrite ho, if_neg (by rw [hno]; decide)]

end Sys2Proof
end
